-- ==== Sys2Proof/Word.lean ====
section
/-! DEFINITION. Word.lean: the word types and their plainest arithmetic.
Words are bit vectors where the manual adds, shifts or masks them; counts and indexes are natural numbers. -/
namespace Sys2Proof

/-- A 64-bit word: an engine register, a control register, a count of FT ticks (R7). -/
abbrev Word := BitVec 64
/-- A 32-bit word of control space or of an instruction stream. -/
abbrev Word32 := BitVec 32
/-- One byte (R4). -/
abbrev Byte := BitVec 8

/-- The natural number n as a 64-bit word, modulo 2^64. -/
def w64 (n : Nat) : Word := BitVec.ofNat 64 n

/-- Bits [hi:lo] of a word as a number (R4: both ends included). -/
def bitsW (w : Word) (hi lo : Nat) : Nat := (w.toNat / 2 ^ lo) % 2 ^ (hi + 1 - lo)

/-- Bit i of a word. -/
def bitW (w : Word) (i : Nat) : Bool := w.getLsbD i

/-- The word with bits [hi:lo] replaced by v. -/
def putW (w : Word) (hi lo v : Nat) : Word :=
  w64 (w.toNat - bitsW w hi lo * 2 ^ lo + (v % 2 ^ (hi + 1 - lo)) * 2 ^ lo)

/-- Bits [hi:lo] of a number. -/
def nbits (n hi lo : Nat) : Nat := (n / 2 ^ lo) % 2 ^ (hi + 1 - lo)

/-- Bit i of a number. -/
def nbit (n i : Nat) : Bool := n.testBit i

/-- A truth value as the bit 0 or 1. -/
def b2n (b : Bool) : Nat := if b then 1 else 0

/-- A number kept between two bounds. -/
def clampN (lo hi n : Nat) : Nat := if n < lo then lo else if hi < n then hi else n

/-- An integer kept between two bounds. -/
def clampI (lo hi n : Int) : Int := if n < lo then lo else if hi < n then hi else n

/-- n bytes of v, least significant first (R5: little-endian). -/
def leBytes : Nat → Nat → List Byte
  | 0, _ => []
  | n + 1, v => BitVec.ofNat 8 v :: leBytes n (v / 256)

/-- The number that bytes spell, least significant first (R5). -/
def leNat : List Byte → Nat
  | [] => 0
  | b :: bs => b.toNat + 256 * leNat bs

/-- n bytes of v, most significant first (R6: wire formats). -/
def beBytes (n v : Nat) : List Byte := (leBytes n v).reverse

/-- The number that bytes spell, most significant first (R6). -/
def beNat (bs : List Byte) : Nat := leNat bs.reverse

/-- n bytes of zero. -/
def zeroBytes (n : Nat) : List Byte := List.replicate n 0

/-- The n bytes at offset i of a list, short lists filled with zeros. -/
def byteSlice (bs : List Byte) (i n : Nat) : List Byte :=
  let t := (bs.drop i).take n
  t ++ zeroBytes (n - t.length)

/-- The little-endian number of the n bytes at offset i. -/
def leAt (bs : List Byte) (i n : Nat) : Nat := leNat (byteSlice bs i n)

/-- A two's complement number of the low n bits of v. -/
def toSigned (n v : Nat) : Int :=
  let m := v % 2 ^ n
  if m < 2 ^ (n - 1) then (m : Int) else (m : Int) - (2 ^ n : Nat)

/-- The low n bits of an integer, in two's complement. -/
def ofSigned (n : Nat) (i : Int) : Nat := (i % (2 ^ n : Nat)).toNat

end Sys2Proof
end

