-- ==== Sys2Proof/Operand.lean ====
section
/-! DEFINITION. Operand.lean: the data that commands carry in from outside: announcements, packets, slots and frames
as the manual's wire formats give them. -/
namespace Sys2Proof

/-- A root or standby candidate as announcements carry it (R39, Table 15-5). -/
structure Cand where
  dn : Nat
  prio : Nat
  holdover : Bool
  ext : Bool
deriving DecidableEq, Repr

/-- What a host has written in the configuration space of a function: Bus Master Enable; MSI-X Enable and Function Mask; PME_En;
AtomicOp Requester Enable; the Completion Timeout Value in µs; VF Enable and NumVFs; ASPM L1 and the deepest L1 substate (0 L1, 1
L1.1, 2 L1.2); and the BARs as base and size. -/
structure FuncCfg where
  bme : Bool
  msixEn : Bool
  fmask : Bool
  pmeEn : Bool
  atomicEn : Bool
  cplTimeout : Nat
  vfEnable : Bool
  numVfs : Nat
  aspm : Bool
  l1ss : Nat
  bars : List (Nat × Nat)
deriving DecidableEq, Repr

/-- The body of an ANNOUNCE ordered set (Table 15-5). -/
structure Announce where
  seq : Nat
  gen : Nat
  root : Cand
  standby : Option Cand
  state : Nat
  holdover : Bool
  depth : Nat
  sender : Nat
deriving DecidableEq, Repr

/-- A packet: base header (Table 15-6), remote-access extension in keyed or message form (Tables 8-11, 8-13), payload
and trailer. `resv` holds the reserved header bits as received, which a router passes unchanged (R10), in the order of
Table 15-6, most significant first. In message form `va` is TAG, `key` holds CTX in [31:16] and `aux` is HDATA. -/
structure Packet where
  op : Nat
  ext : Bool
  rlx : Bool
  sealed : Bool
  imm : Bool
  red : Bool
  void : Bool
  holdover : Bool
  msg : Bool
  hc : Nat
  tc : Nat
  ldet : Bool
  gdet : Bool
  epoch : Nat
  chan : Nat
  iso : Nat
  dstDn : Nat
  dstFunc : Nat
  srcDn : Nat
  dstEp : Nat
  srcEp : Nat
  stamp : Nat
  seq : BitVec 32
  key : Nat
  va : Nat
  aux : Nat
  payload : List Byte
  resv : Nat
  ecrc : Nat
deriving DecidableEq, Repr

/-- A packet with every field zero. -/
def Packet.zero : Packet :=
  { op := 0, ext := false, rlx := false, sealed := false, imm := false, red := false, void := false, holdover := false,
    msg := false, hc := 0, tc := 0, ldet := false, gdet := false, epoch := 0, chan := 0, iso := 0, dstDn := 0,
    dstFunc := 0, srcDn := 0, dstEp := 0, srcEp := 0, stamp := 0, seq := 0, key := 0, va := 0, aux := 0, payload := [],
    resv := 0, ecrc := 0 }

/-- An agent's access path to control space (R529, R530): the near window of thread t, 0 to 2047; the boot ROM; the
management sideband; PF BAR0 of a function. -/
inductive Path
  | near (t : Nat)
  | bootRom
  | sideband
  | bar (f : Nat)
deriving DecidableEq, Repr

/-- A request on the partner's transmitter (Table 17-5). -/
structure EqReq where
  tap : Nat
  cmd : Nat
  preset : Nat
deriving DecidableEq, Repr

/-- A TS frame as a lane receives it (Tables 15-2, 17-5), level by level, and what the lane's receiver itself decides with it:
whether the partner sends at 56 GBd, whether this receiver has finished equalising, its own signal estimate, and the request that it
makes next, since the order of its requests is its own (R413). -/
structure TsFrame where
  levels : List Nat
  at56 : Bool
  ownReady : Bool
  ownSnr : Nat
  ask : Option EqReq
deriving DecidableEq, Repr

/-- A TS frame as a lane sends it (Table 15-2), with the EQ field of Table 17-5. -/
structure TsBody where
  ty : Nat
  lane : Nat
  port : Nat
  count : Nat
  dn : Nat
  rates : Nat
  lanes : Nat
  min : Nat
  shared : Nat
  eq : List Byte
deriving DecidableEq, Repr

/-- A codeword as it arrives: the PAM4 levels of its symbols on each lane of the port, none on a lane that is not in use (R352,
R356). -/
structure Codeword where
  l0 : List Nat
  l1 : List Nat
deriving DecidableEq, Repr

/-- A slot (Table 15-3): whether it passed its CRC in good codewords, its trailer, and its 256-byte body. -/
structure Slot where
  ok : Bool
  lseq : Nat
  ctype : Nat
  lack : Nat
  nak : Bool
  chc : Nat
  csh : Bool
  cra : Nat
  crb : Nat
  body : List Byte
deriving DecidableEq, Repr

/-- What starts a device reset (R495, R498): a pulse of RESET_N or a fall of PWR_GOOD, with its length in ns, or a write of
DEV_CTRL. -/
inductive ResetSrc
  | resetN (ns : Nat)
  | pwrGood (ns : Nat)
  | reg (path : Path) (v : Word)
deriving DecidableEq, Repr

/-- An image slot of the boot flash as boot finds it (R499): whether it can be read; whether both its keys belong to the
production, or to the engineering, key set and are not revoked; whether both signatures verify; its security version; where its
body is loaded, the body, and the entry point; and the handler table entries that its control program commits, as cluster, item
type and the two words (R76). -/
structure BootImage where
  read : Bool
  prod : Bool
  eng : Bool
  signed : Bool
  svn : Nat
  load : Nat
  body : List Byte
  entry : Word
  handlers : List (Nat × Nat × Nat × Nat)
deriving DecidableEq, Repr

/-- What the boot stages meet (R499 to R501): the two image slots, whether HBM comes up, the first stage that overruns its time by
more than a factor of 2, and the lanes whose calibration fails. -/
structure BootEnv where
  a : BootImage
  b : BootImage
  hbmOk : Bool
  overrun : Option Nat
  calFail : List Nat
deriving DecidableEq, Repr

/-- A retained bank whose check fails on wake (Table 21-4), by its kind of storage and its number: engines for LDM, instruction
caches and engine TLBs; 64 KiB banks for CSM, 16 to a cluster; clusters for second-level TLBs, page-walk and ASK caches; tiles for the
Endpoint Table and Limiter Map caches. -/
inductive RetBank
  | ldm (n : Nat)
  | csm (n : Nat)
  | mtch (n : Nat)
  | route (n : Nat)
  | group (n : Nat)
  | icache (n : Nat)
  | engTlb (n : Nat)
  | l2 (n : Nat)
  | pwc (n : Nat)
  | ask (n : Nat)
  | ept (n : Nat)
  | lim (n : Nat)
  | buffer (n : Nat)
  | reorder (n : Nat)
  | wf (n : Nat)
deriving DecidableEq, Repr

/-! ## Who issues an instruction, with the fields of its word that it reserves

Every field of an instruction's word that the instruction reserves must be zero (R87); a command carries those fields beside the thread
that issues it, and its own operands after them. -/

/-- Of a fence: every field of its word; fn[1:0] is the kind (R94). -/
structure IssueFence where
  t : Nat
  rd : Nat
  rs1 : Nat
  rs2 : Nat
  fn : Nat
deriving DecidableEq, Repr

/-- Of CSRR: rs1 is reserved, and the kinds above 3 (R95). -/
structure IssueCsrr where
  t : Nat
  rs1 : Nat
  kind : Nat
deriving DecidableEq, Repr

/-- Of DONE and ERET: rd and rs1 are reserved; imm16[7:0] has no use (R96, log entry 142). -/
structure IssueSys where
  t : Nat
  rd : Nat
  rs1 : Nat
  low : Nat
deriving DecidableEq, Repr

/-- Of SYS and BRK, which use imm16[7:0]: rd and rs1 are reserved (R96). -/
structure IssueImm where
  t : Nat
  rd : Nat
  rs1 : Nat
deriving DecidableEq, Repr

/-- Of PAUSE: rd and rs1 are reserved, and the kinds above 4 (R96). -/
structure IssuePause where
  t : Nat
  rd : Nat
  rs1 : Nat
  kind : Nat
deriving DecidableEq, Repr

/-- Of WFPUSH: the values of fn that Table 4-1 does not name are undefined (R98). -/
structure IssueFn where
  t : Nat
  fn : Nat
deriving DecidableEq, Repr

/-- Of RDFT: rs1 and rs2 are reserved, and the values of fn that Table 4-1 does not name (R98). -/
structure IssueRdft where
  t : Nat
  rs1 : Nat
  rs2 : Nat
  fn : Nat
deriving DecidableEq, Repr

/-- Of RDLT and RDTS: rs1 and rs2 are reserved (R98). -/
structure IssueRd where
  t : Nat
  rs1 : Nat
  rs2 : Nat
deriving DecidableEq, Repr

/-- Of WAITFT, OPWAIT and OPABORT: rs2 is reserved (R98). -/
structure IssueRs2 where
  t : Nat
  rs2 : Nat
deriving DecidableEq, Repr

/-- Of OPSTAT: rs2 is reserved, and the values of fn that Table 4-1 does not name (R98). -/
structure IssueOpstat where
  t : Nat
  rs2 : Nat
  fn : Nat
deriving DecidableEq, Repr

/-- Of PKTREL: rd and rs2 are reserved (R98, R129). -/
structure IssuePktrel where
  t : Nat
  rd : Nat
  rs2 : Nat
deriving DecidableEq, Repr

/-- What a rising edge on TIME_PPS_IN finds: the phase within the tick in sixteenths, and whether TIME_10M_IN is present (R49, R50). -/
structure PpsEdgeIn where
  f : Nat
  ten : Bool
deriving DecidableEq, Repr

end Sys2Proof
end

