-- ==== Sys2Proof/Syntax.lean ====
section
/-! DEFINITION. Syntax.lean: the commands of the block, one constructor per row of the opcode table. A command is an
event that the manual describes; its operands say where it happens and carry in the data that come from outside.
Thread numbers are 0 to 2047 (engine × 4 + thread), engine numbers 0 to 511, cluster numbers 0 to 63. -/
namespace Sys2Proof

/-- The commands. -/
inductive Instr
  /-- POWER_ON (R497): supplies rise in order and the device starts from power-on with only Pewter kept. -/
  | powerOn
  /-- RESET_N (R498): RESET_N or PWR_GOOD is asserted for longer than 2 µs, or DEV_CTRL.RESET is written, and the device takes a device reset. -/
  | resetN (src : ResetSrc)
  /-- BOOT (R500): on release of RESET_N the device runs the boot stages: PLLs, Pewter load, HBM, image read, signature check, control program start and Tungsten arming. -/
  | boot (r : BootEnv)
  /-- BOOT_FAIL (R501): neither image slot is accepted or a stage overruns twice its time; boot stops with the cause in DEV_BOOT_STATUS. -/
  | bootFail (r : BootEnv)
  /-- WARM_RESTART (R496): the WARM_RESTART control command restarts the device from boot stage 4 while keeping HBM and host attachments. -/
  | warmRestart (pf : Nat) (idx : Nat)
  /-- WARM (R495): A write of DEV_CTRL.WARM with the correct KEY starts a warm restart. -/
  | warm (path : Path) (v : Word)
  /-- SVN_COMMIT (R499): A write of DEV_CTRL.SVN_COMMIT raises DEV_SVN to the booted image's security version, irreversibly. -/
  | svnCommit (path : Path) (v : Word)
  /-- REGISTER_WRITE (R13): A write to a control register that has no behaviour of its own takes effect under its access type, clamping and reserved-field rules. -/
  | registerWrite (path : Path) (addr : Nat) (wide : Bool) (v : Word)
  /-- HALF_READ (R12): A 32-bit read of the low word of a 64-bit register latches the high word for that access path. -/
  | halfRead (path : Path) (addr : Nat)
  /-- RECORD_READ (R12): A read of the lowest word of a 512-bit record latches the whole record for that access path. -/
  | recordRead (path : Path) (addr : Nat)
  /-- RC_READ (R13): A read of an RC register returns its value and clears it, keeping an increment of the same cycle. -/
  | rcRead (path : Path) (addr : Nat) (wide : Bool)
  /-- INV_ENABLE (R46): INV_CTRL.ENABLE written 1 starts exchanges and moves Invar from DISABLED to LISTEN. -/
  | invEnable (path : Path)
  /-- INV_DISABLE (R46): INV_CTRL.ENABLE written 0 stops exchanges, clears VALID, cancels triggers, closes TC6, frees an ARMED bank and enters DISABLED. -/
  | invDisable (path : Path)
  /-- REACQUIRE (R46): INV_CTRL.REACQUIRE written 1 in UNSYNC clears VALID, cancels triggers with TIME_STEPPED, closes TC6 and enters LISTEN. -/
  | reacquire (path : Path)
  /-- SYNC (R35): INV_SYNC_INT expires on a time-enabled port and the end initiates an exchange by sending a SYNC. -/
  | sync (p : Nat) (f : Nat)
  /-- SYNC_RECEIVED (R362): A SYNC ordered set arrives, is stamped T2 and is answered with a SYNC_REPLY within 2 µs. -/
  | syncReceived (p : Nat) (id : Nat) (f : Nat) (dt : Nat)
  /-- SYNC_REPLY_RECEIVED (R38): A SYNC_REPLY completes an exchange; the delay average, offset and servo trim are updated. -/
  | syncReplyReceived (p : Nat) (id : Nat) (t2 : Nat) (t3 : Nat) (f : Nat)
  /-- EXCHANGE_LOST (R362): no reply arrives within 10 µs of a SYNC and the exchange is lost. -/
  | exchangeLost (p : Nat)
  /-- ANNOUNCE (R35): INV_ANNOUNCE_INT expires and the device sends an ANNOUNCE on every time-enabled port. -/
  | announce
  /-- ANNOUNCE_RECEIVED (R40): an ANNOUNCE arrives; the device adopts a better root or standby, relays a newer sequence and may change root, parent or state. -/
  | announceReceived (p : Nat) (a : Announce)
  /-- ROOT_STALE (R41): no newer announce sequence of the root is heard for 3 intervals; the root is discarded and the standby becomes root. -/
  | rootStale
  /-- STANDBY_WAIT_EXPIRY (R42): A candidate waits 8 announce intervals without the standby's announcement and election proceeds among the rest. -/
  | standbyWaitExpiry
  /-- LISTEN_EXPIRY (R46): four announce intervals in LISTEN end; the device enters ROOT with INV_FT_SET or ACQUIRE with a chosen parent. -/
  | listenExpiry
  /-- FT_STEP (R46): sixteen exchanges with the parent complete in ACQUIRE; the rate is set and FT is stepped by the offset. -/
  | ftStep
  /-- ACQUIRE_COMPLETE (R46): after 64 new delay samples good_run reaches 16; VALID is set and the device enters TRACK. -/
  | acquireComplete
  /-- PARENT_LOST (R46): the parent link goes down, sends FAULT or falls silent for 3 announce intervals; the device enters HOLDOVER or returns to LISTEN. -/
  | parentLost
  /-- HOLDOVER_CLEAR (R46): in HOLDOVER good_run reaches 16 while following a parent; HOLDOVER clears and the device returns to TRACK. -/
  | holdoverClear
  /-- TIME_HOLDOVER_LONG (R46): time in holdover exceeds INV_HOLD_LIMIT and TIME_HOLDOVER_LONG is raised once. -/
  | timeHoldoverLong
  /-- PPS_EDGE (R49): A rising edge on TIME_PPS_IN is stamped; a root steps or slews FT to it, updates INV_PPS_SKEW and EXT_LOCK. -/
  | ppsEdge (x : PpsEdgeIn)
  /-- PPS_LOSS (R50): A root sees no PPS edge within 1.1 s; EXT_LOCK clears and PPS_LOSS is raised. -/
  | ppsLoss
  /-- REF10M_LOSS (R50): TIME_10M_IN is missing for 10 expected cycles; the PLL returns to the fabric reference without a step. -/
  | ref10mLoss
  /-- PPS_OUT_PULSE (R51): FT reaches a second boundary plus INV_PPSOUT_OFFSET and TIME_PPS_OUT is driven high. -/
  | ppsOutPulse
  /-- PPS_OUT_END (R51): INV_PPSOUT_WIDTH ticks end and TIME_PPS_OUT is driven low. -/
  | ppsOutEnd
  /-- DISPATCH (R77): the cluster dispatcher takes a head item of a Work FIFO, picks engine and thread, writes the item area and starts the handler. -/
  | dispatch (c : Nat) (ecc : Nat)
  /-- ALU_REG (R88): an integer register-register instruction computes its result into rd. -/
  | aluReg (t : Nat) (rd : Nat) (rs1 : Nat) (rs2 : Nat) (fn : Nat)
  /-- MUL_DIV (R89): A multiply or divide instruction computes its result, waiting for the engine's divider if busy. -/
  | mulDiv (t : Nat) (rd : Nat) (rs1 : Nat) (rs2 : Nat) (fn : Nat)
  /-- ALU_IMM (R90): an immediate instruction, including li, lih, addi32 and bfx, computes its result into rd. -/
  | aluImm (t : Nat) (op : Nat) (rd : Nat) (rs1 : Nat) (imm : Nat) (imm2 : Nat)
  /-- LOAD (R91): A load computes its address, checks alignment, range, translation and rights and reads near or far memory. -/
  | load (t : Nat) (op : Nat) (rd : Nat) (rs1 : Nat) (imm : Nat)
  /-- FAR_LOAD_RETURN (R71): data of a far load returns and its thread becomes ready with rd written. -/
  | farLoadReturn (t : Nat) (st : Nat) (data : Nat)
  /-- STORE (R91): A store writes near memory at once or enters the far store buffer. -/
  | store (t : Nat) (op : Nat) (rd : Nat) (rs1 : Nat) (imm : Nat)
  /-- FAR_STORE_PERFORM (R71): A buffered far store is performed at HBM or issued as a posted host write. -/
  | farStorePerform (t : Nat) (i : Nat)
  /-- ICACHE_FILL (R62): an instruction-cache line returns after a miss and the fetching thread becomes ready. -/
  | icacheFill (t : Nat) (st : Nat)
  /-- BRANCH (R92): A conditional branch compares ra and rb and continues at the target if taken. -/
  | branch (t : Nat) (op : Nat) (ra : Nat) (rb : Nat) (imm : Nat)
  /-- JAL (R92): jal writes the return address and jumps pc-relative. -/
  | jal (t : Nat) (rd : Nat) (imm : Nat)
  /-- JALR (R92): jalr writes the return address and jumps to rs1 plus the immediate, checking alignment. -/
  | jalr (t : Nat) (rd : Nat) (rs1 : Nat) (imm : Nat)
  /-- ATOMIC (R93): an atomic performs swap, arithmetic, logic, min, max or cas as one indivisible access and returns the old value. -/
  | atomic (t : Nat) (rd : Nat) (rs1 : Nat) (rs2 : Nat) (fn : Nat)
  /-- FENCE (R94): fence orders every earlier access before every later one and before later fabric instructions. -/
  | fence (x : IssueFence)
  /-- FENCE_ST (R94): fence.st orders earlier far stores before later far stores, atomics and fabric instructions. -/
  | fenceSt (x : IssueFence)
  /-- FENCE_I (R94): fence.i acts as fence.st and then invalidates the engine's instruction cache. -/
  | fenceI (x : IssueFence)
  /-- CSRR (R95): csrr reads a CSR into rd. -/
  | csrr (x : IssueCsrr) (rd : Nat) (csr : Nat)
  /-- CSRW (R95): csrw reads a CSR into rd and writes rs1 to it. -/
  | csrw (t : Nat) (rd : Nat) (rs1 : Nat) (csr : Nat)
  /-- CSRS (R95): csrs reads a CSR into rd and sets the bits of rs1. -/
  | csrs (t : Nat) (rd : Nat) (rs1 : Nat) (csr : Nat)
  /-- CSRC (R95): csrc reads a CSR into rd and clears the bits of rs1. -/
  | csrc (t : Nat) (rd : Nat) (rs1 : Nat) (csr : Nat)
  /-- DONE (R96): done waits for the thread's far stores, then frees the thread and stops its watchdog. -/
  | done (x : IssueSys)
  /-- SYS (R96): sys raises SYSCALL with its argument. -/
  | sys (x : IssueImm) (imm : Nat)
  /-- ERET (R83): eret restores pc, privilege and xask from the exception state and clears EXC_ACTIVE. -/
  | eret (x : IssueSys)
  /-- BRK (R96): brk raises BREAK with its argument. -/
  | brk (x : IssueImm) (imm : Nat)
  /-- PAUSE (R96): pause makes the thread not ready for n cycles. -/
  | pause (x : IssuePause) (imm : Nat)
  /-- WATCHDOG (R84): A thread's WD_BUDGET expires on INV_LOCAL; WATCHDOG is raised at its next boundary and the grace period starts. -/
  | watchdog (t : Nat)
  /-- WATCHDOG_KILL (R84): the grace period ends without done and the thread is killed and lost with cause 2. -/
  | watchdogKill (t : Nat)
  /-- HANDLER_LOST (R79): A HANDLER_LOST item for a lost thread is delivered to a Work FIFO of the cluster when one can accept it. -/
  | handlerLost (c : Nat)
  /-- ENGINE_RETIRED (R86): CLU_RETIRE_CFG.COUNT parity errors occur within the window; dispatch to the engine stops and retirement is recorded. -/
  | engineRetired (g : Nat)
  /-- ENGINE_STOP (R86): the last running thread of a retired engine ends and the engine's clock is stopped. -/
  | engineStop (g : Nat)
  /-- HT_COMMIT (R76): CLU_HT_COMMIT.GO replaces a handler table entry from the staging registers as one unit. -/
  | htCommit (c : Nat)
  /-- ICACHE_INV (R97): CLU_CTRL.ICACHE_INV invalidates the instruction caches of all eight engines of the cluster. -/
  | icacheInv (c : Nat)
  /-- FPUT (R110): fput accepts a PUT command block and starts forming its packets. -/
  | fput (t : Nat) (rd : Nat) (rs1 : Nat) (imm : Nat)
  /-- FGET (R112): fget accepts a GET block and sends one request packet. -/
  | fget (t : Nat) (rd : Nat) (rs1 : Nat) (imm : Nat)
  /-- FAMO (R113): famo accepts an AMO block and sends one atomic request packet. -/
  | famo (t : Nat) (rd : Nat) (rs1 : Nat) (imm : Nat)
  /-- FSEND (R114): fsend accepts a SEND block and forms packets as a put, the first carrying CTX, TAG and HDATA. -/
  | fsend (t : Nat) (rd : Nat) (rs1 : Nat) (imm : Nat)
  /-- FFLUSH (R115): fflush accepts a FLUSH block and sends one flush packet. -/
  | fflush (t : Nat) (rd : Nat) (rs1 : Nat) (imm : Nat)
  /-- FFENCE (R116): ffence accepts a FENCE block that completes when every earlier operation of the thread has completed. -/
  | ffence (t : Nat) (rd : Nat) (rs1 : Nat) (imm : Nat)
  /-- FMCAST (R117): fmcast accepts an MCAST block and forms packets copied to every member of MASK. -/
  | fmcast (t : Nat) (rd : Nat) (rs1 : Nat) (imm : Nat)
  /-- QFETCH (R118): qfetch reads up to COUNT work entries of a handler-served queue into the frame. -/
  | qfetch (t : Nat) (rd : Nat) (rs1 : Nat) (imm : Nat) (es : List (List Byte))
  /-- CQPOST (R119): cqpost commits one completion to a ring at its commit point, releasing a work entry bit or stashing it. -/
  | cqpost (t : Nat) (rd : Nat) (rs1 : Nat) (imm : Nat)
  /-- WFPUSH (R120): wfpush commits an item from LDM to a Work FIFO or returns full or refused. -/
  | wfpush (x : IssueFn) (rd : Nat) (rs1 : Nat) (rs2 : Nat)
  /-- WFPOP (R121): wfpop takes the head item of a polled FIFO into LDM and returns its header. -/
  | wfpop (t : Nat) (rd : Nat) (rs1 : Nat) (rs2 : Nat) (ecc : Nat)
  /-- MPOST (R122): mpost searches the unexpected list and removes a match or appends a posted receive. -/
  | mpost (t : Nat) (rd : Nat) (rs1 : Nat) (imm : Nat)
  /-- MMATCH (R122): mmatch searches the posted list and removes a match or appends an unexpected entry. -/
  | mmatch (t : Nat) (rd : Nat) (rs1 : Nat) (imm : Nat)
  /-- MCANCEL (R122): mcancel removes a posted receive by REF or completes NOT_FOUND. -/
  | mcancel (t : Nat) (rd : Nat) (rs1 : Nat) (imm : Nat)
  /-- RDFT (R123): rdft returns FT at the cluster's capture point. -/
  | rdft (x : IssueRdft) (rd : Nat)
  /-- RDLT (R123): rdlt returns INV_LOCAL. -/
  | rdlt (x : IssueRd) (rd : Nat)
  /-- RDTS (R123): rdts returns the time status word. -/
  | rdts (x : IssueRd) (rd : Nat)
  /-- WAITFT (R124): waitft makes the thread not ready until FT reaches rs1, or ends at once when FT is not valid or already past. -/
  | waitft (x : IssueRs2) (rd : Nat) (rs1 : Nat)
  /-- WAITFT_WAKE (R124): A waitft ends when FT reaches its target, FT becomes invalid or the watchdog expires, and writes rd. -/
  | waitftWake (t : Nat)
  /-- TRIG (R125): trig arms a TIMER or LAUNCH trigger in the cluster's trigger list after validating the launch block. -/
  | trig (t : Nat) (rd : Nat) (rs1 : Nat) (imm : Nat)
  /-- TRIGGER_FIRE (R126): FT reaches a trigger's FIRE_FT; a TIMER completes or a LAUNCH starts its operation 40 ticks later. -/
  | triggerFire (c : Nat) (h : Nat)
  /-- DMA (R127): dma accepts a transfer on a free mover and checks keyed kinds. -/
  | dma (t : Nat) (rd : Nat) (rs1 : Nat) (imm : Nat)
  /-- DMA_DONE (R127): A DMA transfer has performed every byte or stopped at a fault or abort, and completes, releasing its packet reference with FREE. -/
  | dmaDone (c : Nat) (slot : Nat) (st : Nat) (data : List Byte)
  /-- TLBINV (R130): tlbinv broadcasts an invalidation of its scope to all 64 clusters. -/
  | tlbinv (t : Nat) (rd : Nat) (rs1 : Nat) (imm : Nat)
  /-- INVALIDATION_ACK (R256): A cluster has removed entries in scope and drained accesses and acknowledges; the last acknowledgement completes the invalidation. -/
  | invalidationAck (i : Nat) (c : Nat)
  /-- AMLSUB (R131): amlsub checks and opens an Amalgam slot and reads the local operand. -/
  | amlsub (t : Nat) (rd : Nat) (rs1 : Nat) (imm : Nat)
  /-- OPSTAT (R132): opstat returns open, the status, or stale for a handle. -/
  | opstat (x : IssueOpstat) (rd : Nat) (rs1 : Nat)
  /-- OPWAIT (R132): opwait makes the thread not ready until the named operation completes, then returns its status. -/
  | opwait (x : IssueRs2) (rd : Nat) (rs1 : Nat)
  /-- OPABORT (R132): opabort lodges an abort that races the operation's natural completion at its commit point. -/
  | opabort (x : IssueRs2) (rd : Nat) (rs1 : Nat)
  /-- PKTREL (R343): pktrel releases a packet reference with an outcome that consumes, refuses or returns the sequence number. -/
  | pktrel (x : IssuePktrel) (rs1 : Nat)
  /-- OP_DONE (R105): an operation's completion writes its status word and delivers its OP_DONE item when its FIFO has room. -/
  | opDone (c : Nat) (slot : Nat)
  /-- OP_TIMEOUT (R112): A GET, AMO or FLUSH still incomplete TIMEOUT after its request departed completes TIMEOUT. -/
  | opTimeout (c : Nat) (slot : Nat)
  /-- PACKET_FORM (R110): the tile forms the next packet of an operation, stamping FT and epoch, as its limiter and readiness allow. -/
  | packetForm (c : Nat) (slot : Nat) (st : Nat) (data : List Byte)
  /-- BANK_SWAP (R142): A Work FIFO's draining bank is empty and the filling bank holds a committed item, so the banks swap. -/
  | bankSwap (c : Nat) (f : Nat)
  /-- ITEM_COMMIT (R138): A producer writes the last word of an item into its reserved bank space and the item is committed. -/
  | itemCommit (c : Nat) (f : Nat) (bad : Bool)
  /-- WF_CFG_WRITE (R150): A write to WF_CFG.POLLED takes effect only on an empty FIFO, otherwise it is ignored with CFG_REFUSED. -/
  | wfCfgWrite (path : Path) (c : Nat) (f : Nat) (v : Word)
  /-- DOORBELL (R170): A doorbell write is checked and accepted, moving the recorded tail, or counted as rejected, out of range or stale. -/
  | doorbell (f : Nat) (off : Nat) (size : Nat) (v : Word) (bad : Bool)
  /-- GRANT (R180): A host link arbiter selects function, group and queue by deficit round robin and issues up to a burst of entry reads. -/
  | grant (k : Nat)
  /-- WORK_ENTRY_READ (R159): A fetched work entry returns; with OWN = 1 it is checked and committed as a WORK item, with OWN = 0 fetching stops. -/
  | workEntryRead (qn : Nat) (st : Nat) (data : List Byte)
  /-- CQ_WRITE (R160): A committed or held completion is written: OWN cleared in the work entry, then the 32-byte completion entry. -/
  | cqWrite (cn : Nat)
  /-- CQ_OWN_READ (R161): K falls below 16 with no read outstanding and the device reads the block holding entry W + K. -/
  | cqOwnRead (cn : Nat)
  /-- CQ_OWN_READ_DONE (R161): an ownership read returns and K grows by the consecutive host-returned entries, or nothing is added. -/
  | cqOwnReadDone (cn : Nat) (st : Nat) (n : Nat)
  /-- CQ_POLL (R161): RING_CQ_POLL passes after a read that added nothing and the ring is read again. -/
  | cqPoll (cn : Nat)
  /-- RING_STALL_TIMEOUT (R189): the stall timer of a FULL ring reaches RING_STALL_TIMEOUT; bound queues enter ERROR and the ring enters FAILED. -/
  | ringStallTimeout (cn : Nat)
  /-- MOD_TIMER (R173): A completion ring's moderation timer reaches MOD_TIME and the ring raises its interrupt. -/
  | modTimer (cn : Nat)
  /-- MSIX_SEND (R174): A raised or held interrupt is sent as one MSI-X posted write once no mask, power state or mastering hold remains. -/
  | msixSend (f : Nat) (v : Nat)
  /-- CRING_DISABLE (R175): HIF_CRING_CFG.ENABLE written 0 stops fetching from the control ring at once. -/
  | cringDisable (pf : Nat)
  /-- CCQ_DISABLE (R175): HIF_CCQ_CFG.ENABLE written 0 disables the control completion ring unless BUSY, when it is ignored. -/
  | ccqDisable (pf : Nat)
  /-- CQ_CREATE (R176): creates a completion ring with W = 0 and K = N. -/
  | cqCreate (pf : Nat) (idx : Nat)
  /-- CQ_MODIFY (R173): changes IRQ_EN, vector, MOD_COUNT and MOD_TIME of a ring, possibly raising an interrupt at once. -/
  | cqModify (pf : Nat) (idx : Nat)
  /-- CQ_DESTROY (R189): destroys a ring with no bound queue and nothing held, or completes CTRL_BUSY. -/
  | cqDestroy (pf : Nat) (idx : Nat)
  /-- CQ_RESET (R189): returns a FAILED ring with nothing held to READY. -/
  | cqReset (pf : Nat) (idx : Nat)
  /-- Q_CREATE (R176): creates an SQ or RQ bound to a function, completion ring, connection or cluster, in READY. -/
  | qCreate (pf : Nat) (idx : Nat)
  /-- Q_MODIFY (R183): changes a queue's STEER and ARB. -/
  | qModify (pf : Nat) (idx : Nat)
  /-- Q_SHUTDOWN (R185): stops fetching a queue and completes its outstanding entries ABORTED in ring order. -/
  | qShutdown (pf : Nat) (idx : Nat)
  /-- QUEUE_SHUTDOWN_DONE (R184): A DRAINING queue has no outstanding entry or operation left; the Q_SHUTDOWN completion is posted and the queue enters SHUTDOWN. -/
  | queueShutdownDone (qn : Nat)
  /-- Q_DESTROY (R184): releases a shut-down queue with nothing held, or completes CTRL_BUSY. -/
  | qDestroy (pf : Nat) (idx : Nat)
  /-- Q_ABORT (R187): lodges an abort of one outstanding entry that races its natural completion. -/
  | qAbort (pf : Nat) (idx : Nat)
  /-- ADAPTER_RESET (R193): HIF_ADAPTER_RESET with the key ends the halt: queues and rings UNUSED, held completions and interrupts discarded, keys revoked, connections QUIET. -/
  | adapterReset (pf : Nat) (v : Word32)
  /-- EP_CREATE (R197): binds a local endpoint to a function and isolation domain. -/
  | epCreate (pf : Nat) (idx : Nat)
  /-- EP_DESTROY (R201): unbinds a local endpoint that has no connection half. -/
  | epDestroy (pf : Nat) (idx : Nat)
  /-- CONN_CREATE (R202): creates a connection half in ESTABLISHED with its sequence state and a Solder stream entry. -/
  | connCreate (pf : Nat) (idx : Nat)
  /-- CONN_DESTROY (R202): moves a half whose queues are shut down to QUIET, discarding its held packets, and starts the quiet timer. -/
  | connDestroy (pf : Nat) (idx : Nat)
  /-- CONN_QUIET_END (R202): A connection half's quiet timer of 2 × L ends and its reference and tuple are released. -/
  | connQuietEnd (conn : Nat)
  /-- ASK_CREATE (R204): creates an ASK with the next generation and returns its remote key after invalidating its entries. -/
  | askCreate (pf : Nat) (idx : Nat)
  /-- ASK_REVOKE (R208): starts a revocation of an ASK through XLT_REVOKE_CTRL, or queues it behind the one in progress. -/
  | askRevoke (pf : Nat) (idx : Nat)
  /-- XLT_REVOKE_CTRL (R208): GO = 1 sets REVOKING at every key check point within 16 cycles, latching XLT_REVOKE_FT. -/
  | xltRevokeCtrl (path : Path) (v : Word)
  /-- REVOKE_DRAIN (R208): the last keyed transfer accepted before the revocation point is performed; GO clears and ASK_REVOKE completes. -/
  | revokeDrain
  /-- ASK_QUIET_END (R206): A REVOKED ASK's quiet timer ends and the ASK becomes FREE. -/
  | askQuietEnd (ask : Nat)
  /-- PUT_PACKET (R211): the target checks a PUT packet and places its payload by one keyed transfer, with a KIND 2 notification for IMM. -/
  | putPacket (c : Nat) (ref : Nat)
  /-- GET_REQ (R211): the target reads LEN bytes by keyed transfers and returns GET_RESP packets on the reverse stream. -/
  | getReq (c : Nat) (ref : Nat)
  /-- GET_RESP (R112): A get response is placed at the requester, completing the GET when every byte is placed. -/
  | getResp (c : Nat) (ref : Nat)
  /-- AMO_REQ (R212): the target performs the atomic at VA in HBM or as a PCI Express AtomicOp and returns AMO_RESP. -/
  | amoReq (c : Nat) (ref : Nat)
  /-- AMO_RESP (R113): an atomic response returns the old value and completes the AMO. -/
  | amoResp (c : Nat) (ref : Nat)
  /-- FLUSH_PROOF (R227): the target proves placement of every earlier write of the stream, with a zero-length read if needed, and sends a FLUSH_PROOF. -/
  | flushProof (c : Nat) (ref : Nat)
  /-- RL_RETRY (R214): RL_DELAY after a RETRY_LATER passes and the source retransmits the refused sequence number. -/
  | rlRetry (conn : Nat) (seq : Nat)
  /-- ACK_DELAY (R229): ACK_DELAY passes after a consumption and Solder sends an acknowledgement for the stream. -/
  | ackDelay (conn : Nat)
  /-- ACK (R238): an ACK, FLUSH_PROOF or REFUSAL item is handled: coverage merged, INFLIGHT reduced, window adjusted, pending operations started. -/
  | ack (conn : Nat)
  /-- RTO (R233): RTO after a sequence number's first transmission passes while uncovered and the handler retransmits it, cutting the window. -/
  | rto (conn : Nat) (seq : Nat)
  /-- RETRY_EXCEEDED (R234): A sequence number is still uncovered 3 × L after first transmission and the half enters ERROR. -/
  | retryExceeded (conn : Nat) (seq : Nat)
  /-- REFUSE_BACKOFF (R235): the backoff after REORDER_FULL or SLOT_CLOSED passes and the sequence number is sent again. -/
  | refuseBackoff (conn : Nat) (seq : Nat)
  /-- PUT (R155): A PUT work entry issues a put on the queue's connection. -/
  | put (qn : Nat) (idx : Nat)
  /-- PUT_IMM (R155): A PUT_IMM work entry issues a put with immediate notification. -/
  | putImm (qn : Nat) (idx : Nat)
  /-- GET (R155): A GET work entry issues a get with the default timeout. -/
  | get (qn : Nat) (idx : Nat)
  /-- AMO (R155): an AMO work entry issues a remote atomic and writes the old value at WE_LADDR. -/
  | amo (qn : Nat) (idx : Nat)
  /-- SEND (R272): A SEND work entry is sent eager or as a rendezvous request. -/
  | send (qn : Nat) (idx : Nat)
  /-- FLUSH (R155): A FLUSH work entry issues a flush on the connection. -/
  | flush (qn : Nat) (idx : Nat)
  /-- NOP (R167): A NOP work entry completes when reached. -/
  | nop (qn : Nat) (idx : Nat)
  /-- RECV (R270): A RECV work entry is posted to its match context with mpost. -/
  | recv (qn : Nat) (idx : Nat)
  /-- WALK (R250): A translation miss starts or joins a page-table walk, checking table addresses. -/
  | walk (c : Nat)
  /-- WALK_DONE (R252): A walk completes, filling TLBs and page-walk cache, or fails with a cause decided per requester. -/
  | walkDone (c : Nat) (i : Nat) (ptes : List (Nat × Nat))
  /-- XLT_INVALIDATE (R255): broadcasts an invalidation of scope 1 or 2 for a key. -/
  | xltInvalidate (pf : Nat) (idx : Nat)
  /-- XLT_FAULT_WAIT (R253): posts a wait that receives the next fault record. -/
  | xltFaultWait (pf : Nat) (idx : Nat)
  /-- XLT_FAULT_DONE (R253): removes a pending-fault entry for a page. -/
  | xltFaultDone (pf : Nat) (idx : Nat)
  /-- XLT_MMIO_SET (R254): sets an MMIO window of the PF's attachment for later walks. -/
  | xltMmioSet (pf : Nat) (idx : Nat)
  /-- OVERFLOW_FORWARD (R267): the match server sends its in-order overflow list to a home cluster's match FIFO as room appears, releasing held RQs. -/
  | overflowForward (c : Nat)
  /-- JOIN (R288): A COLL JOIN resolves members and creates the collective connection halves. -/
  | join (qn : Nat) (idx : Nat) (st : Nat) (data : List Byte)
  /-- RUN (R311): A COLL RUN runs its phase plan with slots, triggers and multicasts. -/
  | run (qn : Nat) (idx : Nat)
  /-- LEAVE (R292): A COLL LEAVE aborts a running RUN, destroys the halves and frees the COLL. -/
  | leave (qn : Nat) (idx : Nat)
  /-- PHASE_TIMEOUT (R291): A collective phase has not completed TIMEOUT after its planned start and the RUN completes TIMEOUT. -/
  | phaseTimeout (coll : Nat)
  /-- CONTRIBUTION (R297): A RED packet reaches its slot's home unit and its operands are combined into their stripes. -/
  | contribution (c : Nat) (ref : Nat)
  /-- STRIPE_COMPLETE (R299): A stripe's byte count reaches its total; it is finalised and written at OUT_VA, completing the slot with the last. -/
  | stripeComplete (slot : Nat) (k : Nat) (st : Nat) (data : List Byte)
  /-- AML_CFG_WRITE (R314): A write to AML_CTRL.STRIPE or AML_ACC_RESV is ignored while a slot is open, setting CFG_REFUSED. -/
  | amlCfgWrite (path : Path) (addr : Nat) (v : Word)
  /-- ROUTE (R324): A packet head reaches the routing stage; its bank, liveness, hop limit and load choose a class and a port or a hold. -/
  | route (tile : Nat)
  /-- ROUTE_HOLD_END (R329): A packet held for a live candidate reaches ROUTE_HOLD and is discarded. -/
  | routeHoldEnd (i : Nat)
  /-- PORT_DOWN (R327): A port stops being live and its queued packets are routed again. -/
  | portDown (p : Nat)
  /-- RT_LOAD (R336): loads entries of a route table into the non-active or initial bank. -/
  | rtLoad (pf : Nat) (idx : Nat) (st : Nat) (data : List Byte)
  /-- RT_ARM (R334): arms the non-active bank for a switchover at S. -/
  | rtArm (pf : Nat) (idx : Nat)
  /-- RT_CANCEL (R336): cancels an ARMED bank before S. -/
  | rtCancel (pf : Nat) (idx : Nat)
  /-- RT_QUERY (R336): returns the active epoch and both bank states. -/
  | rtQuery (pf : Nat) (idx : Nat)
  /-- EPT_WRITE (R336): writes an Endpoint Table entry and removes the old cached copy. -/
  | eptWrite (pf : Nat) (idx : Nat)
  /-- ROUTE_ENABLE (R332): ROUTE_EPOCH_CTRL.ENABLE written 1 enables routing with INIT_BANK ACTIVE. -/
  | routeEnable (path : Path) (v : Word)
  /-- ROUTE_ARM (R332): ROUTE_EPOCH_CTRL.ARM arms the non-active bank at ROUTE_SWITCH_FT or is refused silently. -/
  | routeArm (path : Path) (v : Word)
  /-- ROUTE_CANCEL (R332): ROUTE_EPOCH_CTRL.CANCEL returns an ARMED bank to FREE while FT < S. -/
  | routeCancel (path : Path) (v : Word)
  /-- ROUTE_EPT_INV (R316): A write to ROUTE_EPT_INV removes one or all cached Endpoint Table entries. -/
  | routeEptInv (path : Path) (v : Word)
  /-- EPOCH_SWITCH (R332): FT reaches S; the ARMED bank becomes ACTIVE and the old one DRAINING. -/
  | epochSwitch
  /-- DRAIN_END (R332): FT reaches ROUTE_DRAIN_END_FT and the DRAINING bank becomes FREE. -/
  | drainEnd
  /-- SOLDER_ARRIVAL (R340): A packet for this device is judged for age, halt, duplicates and window, then released, held or refused. -/
  | solderArrival (p : Nat)
  /-- RELEASE (R345): A releasable held packet with delivery room is handed to its cluster as a PKT item or to Amalgam. -/
  | release (conn : Nat)
  /-- SWEEP (R342): the held-storage sweep discards expired held packets. -/
  | sweep
  /-- READBACK (R347): A spilled packet within PREFETCH of the release point is read back on-die. -/
  | readback (conn : Nat) (seq : Nat)
  /-- READBACK_DONE (R347): A read-back completes and the packet is age-checked and released if releasable. -/
  | readbackDone (conn : Nat) (seq : Nat)
  /-- TS1 (R354): A TS1 frame is received, correcting polarity and lane order and carrying equalisation requests. -/
  | ts1 (p : Nat) (l : Nat) (f : TsFrame)
  /-- TS2 (R354): A TS2 frame is received with the partner's rates, lanes and credit offer, checked against PORT_EXPECT. -/
  | ts2 (p : Nat) (l : Nat) (f : TsFrame)
  /-- CONFIG_COMPLETE (R378): eight TS2 received and 16 sent with a common rate; the port sends TS3 and enters LOCK. -/
  | configComplete (p : Nat)
  /-- TS3 (R355): A TS3 frame counts down and the framed stream starts after COUNT 0. -/
  | ts3 (p : Nat) (f : TsFrame)
  /-- SLOT_LOCK (R357): codeword and slot lock are reached; LSEQ, X and credit counters are set and the link enters ACTIVE. -/
  | slotLock (p : Nat)
  /-- LOCK_LOST (R357): sixteen consecutive slots fail; the link leaves ACTIVE for TRAIN. -/
  | lockLost (p : Nat)
  /-- LOCK_TIMEOUT (R378): no lock within 1 ms in LOCK; the link returns to TRAIN. -/
  | lockTimeout (p : Nat)
  /-- SLOT_RECEIVED (R375): A slot arrives and is accepted or discarded, applying its credit returns, LACK and NAK. -/
  | slotReceived (p : Nat) (cws : List Codeword)
  /-- REPLAY_TIMEOUT (R376): LNK_REPLAY_TIMEOUT passes with slots held and no LACK progress and the sender replays, or retrains at REPLAY_MAX. -/
  | replayTimeout (p : Nat)
  /-- SLOT_SEND (R377): at each slot the transmitter sends FAULT, a timing set, a replay, the next cell, a chosen head or IDLE. -/
  | slotSend (p : Nat)
  /-- FAULT (R363): two consecutive FAULT ordered sets are received; the port is not live and enters FAULTED. -/
  | fault (p : Nat) (reason : Nat)
  /-- SLEEP (R363): A SLEEP ordered set is received and the link enters QUIET. -/
  | sleep (p : Nat)
  /-- SIGNAL_DETECT (R378): signal or the wake pattern is detected on a lane in DETECT or QUIET and the port sends TS1. -/
  | signalDetect (p : Nat) (l : Nat)
  /-- RETRY_WAIT (R407): RETRY_WAIT passes in DETECT without signal and the port sends TS1 and enters TRAIN. -/
  | retryWait (p : Nat)
  /-- TRAIN_TIMEOUT (R414): the training budget expires; the port proceeds on ready lanes or fails, counting failed attempts and retiring lanes. -/
  | trainTimeout (p : Nat)
  /-- LINK_ENABLE (R378): LNK_CTRL.ENABLE written 1 starts TS1 on enabled lanes. -/
  | linkEnable (path : Path) (p : Nat) (v : Word)
  /-- LINK_DISABLE (R378): LNK_CTRL.ENABLE written 0 sends ADMIN_DOWN FAULT if ACTIVE and turns transmitters off. -/
  | linkDisable (path : Path) (p : Nat) (v : Word)
  /-- RETRAIN (R378): LNK_CTRL.RETRAIN makes an ACTIVE port leave for TRAIN. -/
  | retrain (path : Path) (p : Nat) (v : Word)
  /-- LINK_WAKE (R364): A QUIET port that this device needs sends the wake pattern and then TS1. -/
  | linkWake (p : Nat)
  /-- GATE_EDGE (R387): FT reaches an entry edge of the active gate list and the gates take the new entry's setting. -/
  | gateEdge (p : Nat)
  /-- GATE_ARM (R392): GATE_CTRL.ARM arms the pending gate list or is refused with ARM_REFUSED. -/
  | gateArm (path : Path) (p : Nat) (v : Word)
  /-- GATE_CANCEL (R392): GATE_CTRL.CANCEL returns an armed list to pending while FT < BASE. -/
  | gateCancel (path : Path) (p : Nat) (v : Word)
  /-- GATE_TAKEOVER (R392): FT reaches BASE and the pending list becomes active, computing GATE_LONGEST. -/
  | gateTakeover (p : Nat)
  /-- LIMITER_REFILL (R395): at each 64 ns boundary every limiter's tokens are refilled up to BURST. -/
  | limiterRefill
  /-- WHEEL_SLOT (R396): A limiter's calendar wheel slot is reached and its waiting packets are formed while tokens allow. -/
  | wheelSlot (tile : Nat)
  /-- LIMITER_CFG_WRITE (R397): A write to SCH_LIM_CFG takes effect at the next refill, clipping tokens to the new BURST. -/
  | limiterCfgWrite (path : Path) (tile : Nat) (k : Nat) (v : Word)
  /-- SCH_LIM_INV (R394): A write to SCH_LIM_INV removes a cached Limiter Map entry from every tile. -/
  | schLimInv (path : Path) (v : Word)
  /-- DEPTH_SAMPLE (R399): FT reaches a multiple of PERIOD and every port latches depth and head delay into SCH_SAMPLE. -/
  | depthSample
  /-- SER_EVALUATION (R417): at each 1 s boundary the lane's symbol error estimate is evaluated against SER_LIMIT. -/
  | serEvaluation (p : Nat) (l : Nat)
  /-- LANE_RETEST (R420): LANE_CTRL.RETEST clears a lane's retirement and failure count. -/
  | laneRetest (path : Path) (p : Nat) (l : Nat)
  /-- EYE_SCAN (R423): EYE_CTRL.GO starts an offset-sampler scan, or ends at once when the lane is not in LOCK or ACTIVE. -/
  | eyeScan (path : Path) (p : Nat) (l : Nat) (v : Word)
  /-- EYE_SCAN_DONE (R423): A scan compares its symbols and writes EYE_RESULT, or aborts when the lane leaves its state. -/
  | eyeScanDone (p : Nat) (l : Nat) (n : Nat)
  /-- PERST (R428): PERST_N_k resets every function of link k and retrains the link. -/
  | perst (k : Nat) (level : Bool)
  /-- HOST_LINK_DOWN (R428): A data-link-down on an attachment resets its functions. -/
  | hostLinkDown (a : Nat)
  /-- FUNCTION_LEVEL_RESET (R217): A function-level reset revokes the function's keys, quiets its halves, unbinds its endpoints and releases its contexts. -/
  | functionLevelReset (f : Nat)
  /-- FUNCTION_STATE_CHANGE (R438): A function's D-state or Bus Master Enable changes; when it can master again held completions, interrupts and fetching resume. -/
  | functionStateChange (f : Nat) (d : Nat) (cfg : FuncCfg)
  /-- VF_ALLOC_WRITE (R431): A write to HIF_VF_ALLOC takes effect only with VF Enable 0 and no overlap, otherwise ALLOC_REFUSED. -/
  | vfAllocWrite (path : Path) (pf : Nat) (v : Word)
  /-- READ_COMPLETION (R435): A read completion returns from the host and the mover reassembles it or handles its error. -/
  | readCompletion (tag : Nat) (st : Nat) (data : List Byte)
  /-- COMPLETION_TIMEOUT (R436): A host request receives no completion within the Completion Timeout Value. -/
  | completionTimeout (tag : Nat)
  /-- L1_ENTRY (R437): an attachment idle for HIF_L1_IDLE enters ASPM L1 or a substate. -/
  | l1Entry (a : Nat)
  /-- L1_EXIT (R437): the device has a request to send and starts an exit of the attachment to L0. -/
  | l1Exit (a : Nat)
  /-- ERROR_REPORT (R444): A source reports an event; Tungsten counts it, merges or opens a record, freezes the history and takes the class reaction. -/
  | errorReport (src : Nat) (code : Nat) (i0 : Word) (i1 : Word)
  /-- FATAL_RECORD_WRITE (R450): the frozen history and post-fatal record are written to Pewter as a fatal fault record. -/
  | fatalRecordWrite
  /-- TXOFF (R450): TGF_SAFE_CFG.TXOFF after the capture tick passes and fabric transmitters are turned off. -/
  | txoff
  /-- FAULT_EVENT (R449): A held FAULT_EVENT item is delivered when its FIFO has room. -/
  | faultEvent
  /-- MERGE_WINDOW_END (R447): TGF_MERGE_WINDOW passes since a record's capture and the record closes. -/
  | mergeWindowEnd (i : Nat)
  /-- TGF_HIST_ACK (R447): A write of TGF_HIST_ACK closes the record with that SEQ. -/
  | tgfHistAck (path : Path) (v : Word)
  /-- UNFREEZE (R455): TGF_HIST_CTRL.UNFREEZE unfreezes the history outside the safe state. -/
  | unfreeze (path : Path)
  /-- INJECT (R453): TGF_INJECT.GO presents an injected event at its source in RECORD_ONLY or REACT mode, or is refused. -/
  | inject (path : Path) (v : Word)
  /-- INJECT_LOCK (R453): TGF_CTRL.INJECT_LOCK forbids injection until device reset. -/
  | injectLock (path : Path)
  /-- HBM_PAGE_RETIRED (R456): A page reaches COUNT uncorrectable errors in WINDOW and is copied to a spare and remapped. -/
  | hbmPageRetired (page : Nat)
  /-- RETEST (R457): TGF_RETEST.GO starts a re-test of a retired lane, port, engine or HBM page. -/
  | retest (path : Path) (v : Word)
  /-- RETEST_DONE (R457): A re-test ends and reports pass, fail or refused, clearing the retirement on a pass. -/
  | retestDone (pass : Bool)
  /-- PMU_FREEZE (R465): PMU_CTRL.FREEZE stops or restarts every monitor counter and histogram unit in one cycle. -/
  | pmuFreeze (path : Path) (v : Word)
  /-- HIST_CLEAR (R469): HIST_SEL.CLEAR, or a change of source or filter, clears the unit. -/
  | histClear (path : Path) (u : Nat)
  /-- DUMP_LATCH (R470): FT reaches a dump tick and every selected counter and histogram is latched, or the tick is missed. -/
  | dumpLatch
  /-- DUMP_WRITE (R471): the dump record is written to its ring, bytes 8 onward and then SEQ. -/
  | dumpWrite
  /-- SAMPLE_MARK (R473): an engine's sampling countdown reaches 0 and the next instruction of CLASS is marked. -/
  | sampleMark (g : Nat)
  /-- SAMPLE_RECORD (R475): A marked instruction's latency is known and its sample record is queued and written or dropped. -/
  | sampleRecord (g : Nat) (lat : Nat) (flags : Nat) (ecause : Nat)
  /-- LIFE_COMMIT (R478): LIFE_COMMIT_CFG minutes pass and the accumulators are written to the next slot. -/
  | lifeCommit
  /-- COMMIT (R477): LIFE_CTRL.COMMIT commits the accumulators now. -/
  | commit (path : Path)
  /-- LIFE_SNAPSHOT (R477): LIFE_SNAP_CFG hours pass and a snapshot is written to the ring. -/
  | lifeSnapshot
  /-- LIFE_SAMPLE (R476): each second of INV_LOCAL the temperature and voltage are sampled into the accumulators. -/
  | lifeSample (hot : Int) (mv : Nat)
  /-- MARGIN_SCAN (R476): LIFE_EYE_CFG hours pass and the control program scans every ACTIVE lane's margin. -/
  | marginScan (margins : List Nat)
  /-- PWR_ENTER (R488): enters Active, Quiesce, Doze or Deep Retention after the entry checks, sending SLEEP and storing bank CRCs. -/
  | pwrEnter (pf : Nat) (idx : Nat)
  /-- PWR_QUERY (R494): returns the power state, last wake source and retention failure flag. -/
  | pwrQuery (pf : Nat) (idx : Nat)
  /-- FABRIC_JOIN (R502): writes own DN and position, enables routing, Invar and the named ports. -/
  | fabricJoin (pf : Nat) (idx : Nat)
  /-- FABRIC_READY (R502): routing is enabled, a port is ACTIVE and Invar is in TRACK or ROOT, so FABRIC_JOIN completes. -/
  | fabricReady
  /-- FABRIC_JOIN_TIMEOUT (R494): FABRIC_JOIN's TIMEOUT passes before fabric-ready and it completes TIMEOUT. -/
  | fabricJoinTimeout
  /-- WAKE (R490): an enabled fabric, host or sideband wake event restores clocks and supplies, checks retention and enters Active. -/
  | wake (src : Nat) (fails : List RetBank)
  /-- PWR_WAKE (R490): A sideband write of PWR_WAKE wakes the device. -/
  | pwrWake (path : Path) (fails : List RetBank)
  /-- THERM_SAMPLE (R515): every 100 µs the hottest sensor is compared with the throttle and trip thresholds. -/
  | thermSample (temps : List Int)
  /-- THERMAL_TRIP (R516): the hottest sensor reaches 135 °C, by sample or comparator, raising FATAL_DEVICE. -/
  | thermalTrip (sensor : Nat)
  /-- AVS_TIMEOUT (R507): the VDD_CORE regulator does not acknowledge within 500 µs and SUPPLY_FAULT is raised. -/
  | avsTimeout
  /-- AVS_SET (R507): the device commands a new VDD_CORE set point over AVSBus once the last is acknowledged. -/
  | avsSet (mv : Nat)
  /-- SUPPLY_FAULT (R443): A supply or reset monitor detects a supply fault and raises FATAL_DEVICE. -/
  | supplyFault (src : Nat)
  /-- PLL_UNLOCK (R443): A PLL loses lock and raises FATAL_DEVICE. -/
  | pllUnlock (pll : Nat)
  /-- SET_ADDR (R531): the sideband SET_ADDR command sets the control address. -/
  | setAddr (addr : Nat) (pec : Bool)
  /-- READ (R531): the sideband READ command returns the word at the address and advances it. -/
  | read
  /-- WRITE (R531): the sideband WRITE command writes the word at the address if permitted and advances it. -/
  | write (v : Word32) (pec : Bool)
  /-- READ_ADDR (R531): the sideband READ_ADDR command returns the current address. -/
  | readAddr
  /-- CONFIG_TIMEOUT (R406): the 100 µs budget of bring-up stage 6 expires in CONFIG without the TS2 exchange resolving, and the port returns to DETECT. -/
  | configTimeout (p : Nat)
  /-- HOST_LINK_UP (R427): A host attachment finishes training and comes up, at full rate or below 32 GT/s, which sets UP and possibly BELOW_MIN and raises HOST_LINK_SLOW. -/
  | hostLinkUp (a : Nat) (width : Nat) (rate : Nat)
  /-- EXIT_TO_L0_COMPLETE (R437): an attachment completes its exit from L1 or an L1 substate to L0, and the requests and MSI-X messages held for it are sent. -/
  | exitToL0Complete (a : Nat)
  /-- HIST_DEPTH_SAMPLE (R466): every 2^DEPTH_LOG cycles, a histogram unit with source PORT_DEPTH or SLD_ONDIE takes a depth sample. -/
  | histDepthSample (u : Nat)
  /-- WAKE_PATTERN_END (R364): A port has sent the wake pattern for 10 ms without receiving TS1, stops the pattern and goes on to TS1. -/
  | wakePatternEnd (p : Nat)
  /-- AVSBUS_ACK (R507): the VDD_CORE regulator acknowledges a set-point command on AVSBus, which stops the 500 µs timeout and permits the next change. -/
  | avsbusAck
  /-- POWER_DOWN (R497): the supplies fall, in reverse order or together, after RESET_N is asserted, and the device enters Off, keeping only Pewter. -/
  | powerDown
  /-- ATOMICOP_COMPLETION (R212): the completion of a PCI Express AtomicOp that carries a remote atomic returns from the host, giving the old value or, with UR, CA or poison, a final refusal MEM_POISON. -/
  | atomicopCompletion (tag : Nat) (st : Nat) (data : List Byte)
deriving DecidableEq, Repr

end Sys2Proof
end

