-- ==== Sys2Proof/Decode.lean ====
section
/-! DEFINITION. Decode.lean: the words of the opcode table, and the words of the engines. No row of the table gives bits, so no word of
the table spells a command; what an instruction word of a thread stands for is `engineCommand` (R87, R98). -/
namespace Sys2Proof

/-- The command that a word of n bits spells by the table's bits: none, for the table gives no bits. -/
def decodeTableWord (nbits w : Nat) : Option Instr :=
  match nbits, w with
  | _, _ => none

/-- The command that an instruction word of thread t stands for: its major picks the command (Tables 3-8, 4-1), and fn or the immediate
picks among those of one major. A word of a reserved major is one of ALU_IMM, and a reserved fn or kind is one of the first command
of its major: these raise ILLEGAL_INSN. `w2` is the second word of format X; `ecc` and `es` are what the instruction finds, if it is
`wfpop` or `qfetch`. -/
def engineCommand (t w w2 ecc : Nat) (es : List (List Byte)) : Instr :=
  let major := w / 2 ^ 26 % 64
  let rd := w / 2 ^ 21 % 32
  let ra := w / 2 ^ 16 % 32
  let rb := w / 2 ^ 11 % 32
  let fn := w % 2 ^ 11
  let imm := w % 2 ^ 16
  if major < 0x10 then
    match major with
    | 0x01 => .aluReg t rd ra rb fn
    | 0x03 => .mulDiv t rd ra rb fn
    | _ => .aluImm t major rd ra imm w2
  else if major < 0x17 then .load t major rd ra imm
  else if 0x18 ≤ major ∧ major < 0x1C then .store t major rd ra imm
  else if 0x20 ≤ major ∧ major < 0x26 then .branch t major rd ra imm
  else match major with
  | 0x26 => .jal t rd (w % 2 ^ 21)
  | 0x27 => .jalr t rd ra imm
  | 0x28 => .atomic t rd ra rb fn
  | 0x29 => if fn % 4 = 1 then .fenceSt ⟨t, rd, ra, rb, fn⟩ else if fn % 4 = 2 then .fenceI ⟨t, rd, ra, rb, fn⟩ else .fence ⟨t, rd, ra, rb, fn⟩
  | 0x2A => match imm / 2 ^ 12 with
    | 1 => .csrw t rd ra (imm % 2 ^ 12)
    | 2 => .csrs t rd ra (imm % 2 ^ 12)
    | 3 => .csrc t rd ra (imm % 2 ^ 12)
    | k => .csrr ⟨t, ra, k⟩ rd (imm % 2 ^ 12)
  | 0x2B => match imm / 2 ^ 8 with
    | 0 => .done ⟨t, rd, ra, (imm % 2 ^ 8)⟩
    | 1 => .sys ⟨t, rd, ra⟩ (imm % 2 ^ 8)
    | 2 => .eret ⟨t, rd, ra, (imm % 2 ^ 8)⟩
    | 3 => .brk ⟨t, rd, ra⟩ (imm % 2 ^ 8)
    | k => .pause ⟨t, rd, ra, k⟩ (imm % 2 ^ 8)
  | 0x30 => .fput t rd ra imm
  | 0x31 => .fget t rd ra imm
  | 0x32 => .famo t rd ra imm
  | 0x33 => .fsend t rd ra imm
  | 0x34 => if imm % 4 = 1 then .ffence t rd ra imm else .fflush t rd ra imm
  | 0x35 => .fmcast t rd ra imm
  | 0x36 => if imm % 4 = 1 then .cqpost t rd ra imm else .qfetch t rd ra imm es
  | 0x37 => if fn = 1 then .wfpop t rd ra rb ecc else .wfpush ⟨t, fn⟩ rd ra rb
  | 0x38 => if imm % 4 = 1 then .mmatch t rd ra imm else if imm % 4 = 2 then .mcancel t rd ra imm else .mpost t rd ra imm
  | 0x39 => match fn with
    | 1 => .rdlt ⟨t, ra, rb⟩ rd
    | 2 => .rdts ⟨t, ra, rb⟩ rd
    | 3 => .waitft ⟨t, rb⟩ rd ra
    | _ => .rdft ⟨t, ra, rb, fn⟩ rd
  | 0x3A => .trig t rd ra imm
  | 0x3B => .dma t rd ra imm
  | 0x3C => .tlbinv t rd ra imm
  | 0x3D => .amlsub t rd ra imm
  | 0x3E => match fn with
    | 1 => .opwait ⟨t, rb⟩ rd ra
    | 2 => .opabort ⟨t, rb⟩ rd ra
    | 3 => .pktrel ⟨t, rd, rb⟩ ra
    | _ => .opstat ⟨t, rb, fn⟩ rd ra
  | _ => .aluImm t major rd ra imm w2

end Sys2Proof
end

