-- ==== Sys2Proof/Machine/Crc.lean ====
section
/-! DEFINITION. Machine/Crc.lean: the cyclic redundancy checks of slots, frames, packets and the life store (R359, R366, R476). -/
namespace Sys2Proof

/-- One bit through a CRC register of 32 bits, most significant bit first. -/
def crcBit (poly c : Nat) (b : Bool) : Nat :=
  let c' := c * 2 % 2 ^ 32
  if (decide (2 ^ 31 ≤ c)) != b then c' ^^^ poly else c'

/-- A byte through a CRC register; which bit of a byte goes first the manual does not say (DEDUCED, log entry 27). -/
def crcByte (poly c : Nat) (x : Byte) : Nat := [7, 6, 5, 4, 3, 2, 1, 0].foldl (fun c i => crcBit poly c (x.getLsbD i)) c

/-- A 32-bit check value: initial value all ones, result complemented. -/
def crc32 (poly : Nat) (bs : List Byte) : Nat := (bs.foldl (crcByte poly) 0xFFFFFFFF) ^^^ 0xFFFFFFFF

/-- The polynomial of slots, frames and the life store (R359, R476), and that of ECRC (R366). -/
def polyCrc32 : Nat := 0x04C11DB7
def polyCrc32c : Nat := 0x1EDC6F41

end Sys2Proof
end

