-- ==== Sys2Proof/Config.lean ====
section
/-! DEFINITION. Config.lean: the free values, outcomes and results that the manual leaves open.
Every constant here is opaque: nothing can be proved of its value, so a statement holds for every value of it. -/
namespace Sys2Proof

/-- A free bit: an outcome of which the manual names both and chooses neither; the argument is the model's own
counter of free values (DESIGN CHOICE, log entry 3). -/
opaque Config.freeBit : Nat → Bool
/-- A free 64-bit value (DESIGN CHOICE, log entry 3). -/
opaque Config.freeWord : Nat → BitVec 64
/-- A free number, used modulo a bound that the manual states (DESIGN CHOICE, log entry 3). -/
opaque Config.freeNat : Nat → Nat

/-- The set of an 8-way cache that an entry stands in: by the cache (0 the second-level TLB, 1 the page-walk cache, 2 the cache of the
Endpoint Table) and what the entry is found by (DESIGN CHOICE, log entry 15). -/
opaque Config.cacheSet : Nat → Nat → Nat → Nat

/-- The first of the Amalgam slots that the library uses for the RUNs of a collective, alike at every member (DESIGN CHOICE, log entry 60). -/
opaque Config.collSlot : Nat → Nat
/-- Where the library stages the partial results of a collective: the address by collective and step (DESIGN CHOICE, log entry 60). -/
opaque Config.collStage : Nat → Nat → BitVec 64
/-- The device-owned ASK under which the members of a collective agree on T0 and the anchor (DESIGN CHOICE, log entry 60). -/
opaque Config.collAsk : Nat → Nat

/-- Where in the control region of a cluster's CSM, in 16 bytes, the control program keeps its copy of the window profiles (R239); reduced
by the user to the part of the region below the handler table page (DESIGN CHOICE, log entry 151). -/
opaque Config.profileAt : Nat

end Sys2Proof
end

