-- ==== Sys2Proof/Machine/RegTable.lean ====
section
/-! DEFINITION. Machine/RegTable.lean: the control registers as the manual's register tables and field maps give
them: address, width, reset value, and for each field its bits, its access type and the range it is clamped to. -/
namespace Sys2Proof.Machine

/-- Access types (R13, Table 0-2). -/
inductive Access | ro | rw | w1c | w1s | rc | wo
deriving DecidableEq, Repr

/-- One field of a register: its bits, its access, and its stated range (R13, R14). -/
structure RegField where
  hi : Nat
  lo : Nat
  acc : Access
  min : Nat
  max : Nat
deriving DecidableEq, Repr

/-- One index of an indexed register: its stride, its count, and its count on GK-ON096-P1 (R2, R528). -/
structure RegDim where
  stride : Nat
  count : Nat
  count096 : Nat
deriving DecidableEq, Repr

/-- A register or an array of registers. `reset` is the Reset column of its field map; `resetStep` is added once per
step of the first index (only HIF_VF_ALLOC uses it). -/
structure RegDesc where
  name : String
  base : Nat
  width : Nat
  reset : Nat
  resetStep : Nat
  dims : List RegDim
  fields : List RegField
deriving DecidableEq, Repr

/-- A named field of a register. -/
structure Fld where
  reg : RegDesc
  hi : Nat
  lo : Nat
deriving DecidableEq, Repr


/-- DEV_ID (R503). -/
def R.DEV_ID : RegDesc :=
  ⟨"DEV_ID", 0x0, 32, 0, 0, [],
   [⟨31, 16, .ro, 0, 65535⟩, ⟨15, 0, .ro, 0, 65535⟩]⟩

/-- DEV_REV (R503). -/
def R.DEV_REV : RegDesc :=
  ⟨"DEV_REV", 0x4, 32, 0, 0, [],
   [⟨9, 8, .ro, 0, 3⟩, ⟨7, 0, .ro, 0, 255⟩]⟩

/-- DEV_BOOT_STATUS (R503). -/
def R.DEV_BOOT_STATUS : RegDesc :=
  ⟨"DEV_BOOT_STATUS", 0x8, 32, 0, 0, [],
   [⟨31, 31, .ro, 0, 1⟩, ⟨30, 30, .ro, 0, 1⟩, ⟨29, 28, .ro, 0, 3⟩, ⟨15, 8, .ro, 0, 255⟩, ⟨3, 0, .ro, 0, 15⟩]⟩

/-- DEV_CTRL (R503). -/
def R.DEV_CTRL : RegDesc :=
  ⟨"DEV_CTRL", 0xc, 32, 0, 0, [],
   [⟨31, 16, .rw, 0, 65535⟩, ⟨2, 2, .w1s, 0, 1⟩, ⟨1, 1, .w1s, 0, 1⟩, ⟨0, 0, .w1s, 0, 1⟩]⟩

/-- DEV_SVN (R503). -/
def R.DEV_SVN : RegDesc :=
  ⟨"DEV_SVN", 0x10, 32, 0, 0, [],
   [⟨31, 0, .ro, 0, 4294967295⟩]⟩

/-- DEV_SERIAL (R503). -/
def R.DEV_SERIAL : RegDesc :=
  ⟨"DEV_SERIAL", 0x18, 64, 0, 0, [],
   [⟨63, 0, .ro, 0, 18446744073709551615⟩]⟩

/-- INV_FT (R57). -/
def R.INV_FT : RegDesc :=
  ⟨"INV_FT", 0x100000, 64, 0, 0, [],
   [⟨63, 0, .ro, 0, 18446744073709551615⟩]⟩

/-- INV_LOCAL (R57). -/
def R.INV_LOCAL : RegDesc :=
  ⟨"INV_LOCAL", 0x100008, 64, 0, 0, [],
   [⟨63, 0, .ro, 0, 18446744073709551615⟩]⟩

/-- INV_CTRL (R57). -/
def R.INV_CTRL : RegDesc :=
  ⟨"INV_CTRL", 0x100010, 32, 0, 0, [],
   [⟨5, 5, .w1s, 0, 1⟩, ⟨4, 4, .rw, 0, 1⟩, ⟨3, 3, .rw, 0, 1⟩, ⟨2, 2, .rw, 0, 1⟩, ⟨1, 1, .rw, 0, 1⟩, ⟨0, 0, .rw, 0, 1⟩]⟩

/-- INV_STATUS (R57). -/
def R.INV_STATUS : RegDesc :=
  ⟨"INV_STATUS", 0x100014, 32, 0, 0, [],
   [⟨31, 31, .ro, 0, 1⟩, ⟨30, 30, .ro, 0, 1⟩, ⟨29, 29, .ro, 0, 1⟩, ⟨28, 28, .ro, 0, 1⟩, ⟨27, 27, .ro, 0, 1⟩, ⟨19, 16, .ro, 0, 15⟩, ⟨15, 15, .ro, 0, 1⟩, ⟨14, 8, .ro, 0, 127⟩, ⟨2, 0, .ro, 0, 7⟩]⟩

/-- INV_ROOT_PRIO (R57). -/
def R.INV_ROOT_PRIO : RegDesc :=
  ⟨"INV_ROOT_PRIO", 0x100018, 32, 0x80, 0, [],
   [⟨7, 0, .rw, 0, 255⟩]⟩

/-- INV_EVENT (R57). -/
def R.INV_EVENT : RegDesc :=
  ⟨"INV_EVENT", 0x10001c, 32, 0, 0, [],
   [⟨8, 8, .w1c, 0, 1⟩, ⟨7, 7, .w1c, 0, 1⟩, ⟨6, 6, .w1c, 0, 1⟩, ⟨5, 5, .w1c, 0, 1⟩, ⟨4, 4, .w1c, 0, 1⟩, ⟨3, 3, .w1c, 0, 1⟩, ⟨2, 2, .w1c, 0, 1⟩, ⟨1, 1, .w1c, 0, 1⟩, ⟨0, 0, .w1c, 0, 1⟩]⟩

/-- INV_ROOT_ID (R57). -/
def R.INV_ROOT_ID : RegDesc :=
  ⟨"INV_ROOT_ID", 0x100020, 32, 0, 0, [],
   [⟨31, 24, .ro, 0, 255⟩, ⟨16, 0, .ro, 0, 131071⟩]⟩

/-- INV_STANDBY_ID (R57). -/
def R.INV_STANDBY_ID : RegDesc :=
  ⟨"INV_STANDBY_ID", 0x100024, 32, 0, 0, [],
   [⟨31, 31, .ro, 0, 1⟩, ⟨16, 0, .ro, 0, 131071⟩]⟩

/-- INV_SYNC_INT (R57). -/
def R.INV_SYNC_INT : RegDesc :=
  ⟨"INV_SYNC_INT", 0x100028, 32, 0x1e848, 0, [],
   [⟨31, 0, .rw, 4000, 4000000⟩]⟩

/-- INV_ANNOUNCE_INT (R57). -/
def R.INV_ANNOUNCE_INT : RegDesc :=
  ⟨"INV_ANNOUNCE_INT", 0x10002c, 32, 0x7a120, 0, [],
   [⟨31, 0, .rw, 125000, 40000000⟩]⟩

/-- INV_SERVO (R57). -/
def R.INV_SERVO : RegDesc :=
  ⟨"INV_SERVO", 0x100030, 32, 0xce3, 0, [],
   [⟨14, 10, .rw, 0, 15⟩, ⟨9, 5, .rw, 0, 20⟩, ⟨4, 0, .rw, 1, 31⟩]⟩

/-- INV_SLEW_MAX (R57). -/
def R.INV_SLEW_MAX : RegDesc :=
  ⟨"INV_SLEW_MAX", 0x100034, 32, 0x3e8, 0, [],
   [⟨31, 0, .rw, 100, 10000⟩]⟩

/-- INV_STEP_LIMIT (R57). -/
def R.INV_STEP_LIMIT : RegDesc :=
  ⟨"INV_STEP_LIMIT", 0x100038, 32, 0x9c40, 0, [],
   [⟨31, 0, .rw, 4000, 4000000⟩]⟩

/-- INV_MAX_DEPTH (R57). -/
def R.INV_MAX_DEPTH : RegDesc :=
  ⟨"INV_MAX_DEPTH", 0x10003c, 32, 6, 0, [],
   [⟨3, 0, .rw, 1, 15⟩]⟩

/-- INV_FREQ_ADJ (R57). -/
def R.INV_FREQ_ADJ : RegDesc :=
  ⟨"INV_FREQ_ADJ", 0x100040, 32, 0, 0, [],
   [⟨31, 0, .ro, 0, 4294967295⟩]⟩

/-- INV_OFFSET (R57). -/
def R.INV_OFFSET : RegDesc :=
  ⟨"INV_OFFSET", 0x100044, 32, 0, 0, [],
   [⟨31, 0, .ro, 0, 4294967295⟩]⟩

/-- INV_HOLD_DRIFT (R57). -/
def R.INV_HOLD_DRIFT : RegDesc :=
  ⟨"INV_HOLD_DRIFT", 0x100048, 32, 0x32, 0, [],
   [⟨31, 0, .rw, 1, 100000⟩]⟩

/-- INV_HOLD_LIMIT (R57). -/
def R.INV_HOLD_LIMIT : RegDesc :=
  ⟨"INV_HOLD_LIMIT", 0x10004c, 32, 0x2710, 0, [],
   [⟨31, 0, .rw, 1, 3600000⟩]⟩

/-- INV_HOLD_ERR (R57). -/
def R.INV_HOLD_ERR : RegDesc :=
  ⟨"INV_HOLD_ERR", 0x100050, 64, 0, 0, [],
   [⟨63, 0, .ro, 0, 18446744073709551615⟩]⟩

/-- INV_FT_SET (R57). -/
def R.INV_FT_SET : RegDesc :=
  ⟨"INV_FT_SET", 0x100058, 64, 0, 0, [],
   [⟨63, 0, .rw, 0, 18446744073709551615⟩]⟩

/-- INV_PPS_OFFSET (R57). -/
def R.INV_PPS_OFFSET : RegDesc :=
  ⟨"INV_PPS_OFFSET", 0x100060, 32, 0, 0, [],
   [⟨31, 0, .rw, 0, 3999999999⟩]⟩

/-- INV_PPSOUT_OFFSET (R57). -/
def R.INV_PPSOUT_OFFSET : RegDesc :=
  ⟨"INV_PPSOUT_OFFSET", 0x100064, 32, 0, 0, [],
   [⟨31, 0, .rw, 0, 3999999999⟩]⟩

/-- INV_PPSOUT_WIDTH (R57). -/
def R.INV_PPSOUT_WIDTH : RegDesc :=
  ⟨"INV_PPSOUT_WIDTH", 0x100068, 32, 0x9c40, 0, [],
   [⟨31, 0, .rw, 4, 2000000000⟩]⟩

/-- INV_PPS_SKEW (R57). -/
def R.INV_PPS_SKEW : RegDesc :=
  ⟨"INV_PPS_SKEW", 0x10006c, 32, 0, 0, [],
   [⟨31, 0, .ro, 0, 4294967295⟩]⟩

/-- INV_PORT_TIME (R57). -/
def R.INV_PORT_TIME : RegDesc :=
  ⟨"INV_PORT_TIME", 0x101000, 32, 0xc0000000, 0, [⟨4, 128, 96⟩],
   [⟨31, 31, .rw, 0, 1⟩, ⟨30, 29, .rw, 0, 3⟩, ⟨19, 0, .rw, 0, 1048575⟩]⟩

/-- INV_PORT_DELAY (R57). -/
def R.INV_PORT_DELAY : RegDesc :=
  ⟨"INV_PORT_DELAY", 0x101400, 32, 0, 0, [⟨4, 128, 96⟩],
   [⟨31, 0, .ro, 0, 4294967295⟩]⟩

/-- TGF_CTRL (R459). -/
def R.TGF_CTRL : RegDesc :=
  ⟨"TGF_CTRL", 0x200000, 32, 0, 0, [],
   [⟨31, 31, .w1s, 0, 1⟩, ⟨30, 30, .rw, 0, 1⟩, ⟨29, 29, .rw, 0, 1⟩, ⟨28, 28, .rw, 0, 1⟩, ⟨5, 0, .rw, 0, 63⟩]⟩

/-- TGF_STATUS (R459). -/
def R.TGF_STATUS : RegDesc :=
  ⟨"TGF_STATUS", 0x200004, 32, 0, 0, [],
   [⟨31, 31, .ro, 0, 1⟩, ⟨30, 30, .ro, 0, 1⟩, ⟨29, 29, .ro, 0, 1⟩, ⟨28, 28, .ro, 0, 1⟩, ⟨27, 27, .ro, 0, 1⟩, ⟨26, 26, .ro, 0, 1⟩, ⟨25, 23, .ro, 0, 7⟩, ⟨13, 8, .ro, 0, 63⟩, ⟨4, 0, .ro, 0, 31⟩]⟩

/-- TGF_HIST_CTRL (R459). -/
def R.TGF_HIST_CTRL : RegDesc :=
  ⟨"TGF_HIST_CTRL", 0x200008, 32, 0, 0, [],
   [⟨31, 31, .w1s, 0, 1⟩]⟩

/-- TGF_HIST_ACK (R459). -/
def R.TGF_HIST_ACK : RegDesc :=
  ⟨"TGF_HIST_ACK", 0x20000c, 32, 0, 0, [],
   [⟨31, 0, .wo, 0, 4294967295⟩]⟩

/-- TGF_MERGE_WINDOW (R459). -/
def R.TGF_MERGE_WINDOW : RegDesc :=
  ⟨"TGF_MERGE_WINDOW", 0x200010, 32, 0x61a80, 0, [],
   [⟨31, 0, .rw, 4000, 40000000⟩]⟩

/-- TGF_SAFE_CFG (R459). -/
def R.TGF_SAFE_CFG : RegDesc :=
  ⟨"TGF_SAFE_CFG", 0x200014, 32, 0x64, 0, [],
   [⟨15, 0, .rw, 0, 65535⟩]⟩

/-- TGF_INJECT (R459). -/
def R.TGF_INJECT : RegDesc :=
  ⟨"TGF_INJECT", 0x200018, 64, 0, 0, [],
   [⟨63, 63, .w1s, 0, 1⟩, ⟨62, 62, .rw, 0, 1⟩, ⟨47, 32, .rw, 0, 65535⟩, ⟨31, 16, .rw, 0, 65535⟩]⟩

/-- TGF_RETEST (R459). -/
def R.TGF_RETEST : RegDesc :=
  ⟨"TGF_RETEST", 0x200020, 32, 0, 0, [],
   [⟨31, 31, .w1s, 0, 1⟩, ⟨15, 0, .rw, 0, 65535⟩]⟩

/-- TGF_RETEST_STATUS (R459). -/
def R.TGF_RETEST_STATUS : RegDesc :=
  ⟨"TGF_RETEST_STATUS", 0x200024, 32, 0, 0, [],
   [⟨1, 0, .ro, 0, 3⟩]⟩

/-- TGF_RETEST_ADDR (R459). -/
def R.TGF_RETEST_ADDR : RegDesc :=
  ⟨"TGF_RETEST_ADDR", 0x200028, 64, 0, 0, [],
   [⟨35, 12, .rw, 0, 16777215⟩]⟩

/-- TGF_HBM_RETIRE (R459). -/
def R.TGF_HBM_RETIRE : RegDesc :=
  ⟨"TGF_HBM_RETIRE", 0x200030, 32, 0x1802, 0, [],
   [⟨23, 8, .rw, 1, 65535⟩, ⟨7, 0, .rw, 1, 255⟩]⟩

/-- TGF_POST_FREEZE_COUNT (R459). -/
def R.TGF_POST_FREEZE_COUNT : RegDesc :=
  ⟨"TGF_POST_FREEZE_COUNT", 0x200038, 64, 0, 0, [],
   [⟨63, 0, .rc, 0, 18446744073709551615⟩]⟩

/-- TGF_EVENT_LOST_COUNT (R459). -/
def R.TGF_EVENT_LOST_COUNT : RegDesc :=
  ⟨"TGF_EVENT_LOST_COUNT", 0x200040, 64, 0, 0, [],
   [⟨63, 0, .rc, 0, 18446744073709551615⟩]⟩

/-- TGF_CLASS_COUNT (R459). -/
def R.TGF_CLASS_COUNT : RegDesc :=
  ⟨"TGF_CLASS_COUNT", 0x200048, 64, 0, 0, [⟨8, 5, 5⟩],
   [⟨63, 0, .rc, 0, 18446744073709551615⟩]⟩

/-- TGF_HIST (R459). -/
def R.TGF_HIST : RegDesc :=
  ⟨"TGF_HIST", 0x200800, 64, 0, 0, [⟨64, 32, 32⟩, ⟨8, 8, 8⟩],
   [⟨63, 0, .ro, 0, 18446744073709551615⟩]⟩

/-- TGF_POST_FATAL (R459). -/
def R.TGF_POST_FATAL : RegDesc :=
  ⟨"TGF_POST_FATAL", 0x201000, 64, 0, 0, [⟨8, 8, 8⟩],
   [⟨63, 0, .ro, 0, 18446744073709551615⟩]⟩

/-- TGF_SRC_COUNT (R459). -/
def R.TGF_SRC_COUNT : RegDesc :=
  ⟨"TGF_SRC_COUNT", 0x210000, 32, 0, 0, [⟨4, 65536, 65536⟩],
   [⟨31, 0, .rc, 0, 4294967295⟩]⟩

/-- LIFE_CTRL (R484). -/
def R.LIFE_CTRL : RegDesc :=
  ⟨"LIFE_CTRL", 0x300000, 32, 0, 0, [],
   [⟨0, 0, .w1s, 0, 1⟩]⟩

/-- LIFE_STATUS (R484). -/
def R.LIFE_STATUS : RegDesc :=
  ⟨"LIFE_STATUS", 0x300004, 32, 0, 0, [],
   [⟨31, 31, .ro, 0, 1⟩, ⟨30, 30, .ro, 0, 1⟩, ⟨29, 29, .ro, 0, 1⟩, ⟨28, 28, .ro, 0, 1⟩, ⟨27, 27, .ro, 0, 1⟩]⟩

/-- LIFE_COMMIT_CFG (R484). -/
def R.LIFE_COMMIT_CFG : RegDesc :=
  ⟨"LIFE_COMMIT_CFG", 0x300008, 32, 0x3c, 0, [],
   [⟨31, 0, .rw, 10, 1440⟩]⟩

/-- LIFE_SNAP_CFG (R484). -/
def R.LIFE_SNAP_CFG : RegDesc :=
  ⟨"LIFE_SNAP_CFG", 0x30000c, 32, 0x18, 0, [],
   [⟨31, 0, .rw, 1, 8760⟩]⟩

/-- LIFE_EYE_CFG (R484). -/
def R.LIFE_EYE_CFG : RegDesc :=
  ⟨"LIFE_EYE_CFG", 0x300010, 32, 0x18, 0, [],
   [⟨31, 0, .rw, 0, 720⟩]⟩

/-- LIFE_WIN_SEL (R484). -/
def R.LIFE_WIN_SEL : RegDesc :=
  ⟨"LIFE_WIN_SEL", 0x300014, 32, 0, 0, [],
   [⟨11, 0, .rw, 0, 4095⟩]⟩

/-- LIFE_COMMIT_COUNT (R484). -/
def R.LIFE_COMMIT_COUNT : RegDesc :=
  ⟨"LIFE_COMMIT_COUNT", 0x300018, 64, 0, 0, [],
   [⟨63, 0, .ro, 0, 18446744073709551615⟩]⟩

/-- LIFE_CRC_FIX_COUNT (R484). -/
def R.LIFE_CRC_FIX_COUNT : RegDesc :=
  ⟨"LIFE_CRC_FIX_COUNT", 0x300020, 64, 0, 0, [],
   [⟨63, 0, .ro, 0, 18446744073709551615⟩]⟩

/-- LIFE_FATAL_COUNT (R484). -/
def R.LIFE_FATAL_COUNT : RegDesc :=
  ⟨"LIFE_FATAL_COUNT", 0x300028, 32, 0, 0, [],
   [⟨31, 0, .ro, 0, 4294967295⟩]⟩

/-- LIFE_LOG_WRAPS (R484). -/
def R.LIFE_LOG_WRAPS : RegDesc :=
  ⟨"LIFE_LOG_WRAPS", 0x30002c, 32, 0, 0, [],
   [⟨31, 0, .ro, 0, 4294967295⟩]⟩

/-- LIFE_WIN (R484). -/
def R.LIFE_WIN : RegDesc :=
  ⟨"LIFE_WIN", 0x301000, 32, 0, 0, [⟨4, 1024, 1024⟩],
   [⟨31, 0, .ro, 0, 4294967295⟩]⟩

/-- PWR_STATUS (R503). -/
def R.PWR_STATUS : RegDesc :=
  ⟨"PWR_STATUS", 0x400000, 32, 0, 0, [],
   [⟨11, 8, .ro, 0, 15⟩, ⟨2, 0, .ro, 0, 7⟩]⟩

/-- PWR_WAKE_EN (R503). -/
def R.PWR_WAKE_EN : RegDesc :=
  ⟨"PWR_WAKE_EN", 0x400004, 32, 7, 0, [],
   [⟨2, 2, .rw, 0, 1⟩, ⟨1, 1, .rw, 0, 1⟩, ⟨0, 0, .rw, 0, 1⟩]⟩

/-- PWR_IDLE_CHECK (R503). -/
def R.PWR_IDLE_CHECK : RegDesc :=
  ⟨"PWR_IDLE_CHECK", 0x400008, 32, 0x64, 0, [],
   [⟨31, 0, .rw, 10, 10000⟩]⟩

/-- PWR_WAKE (R503). -/
def R.PWR_WAKE : RegDesc :=
  ⟨"PWR_WAKE", 0x40000c, 32, 0, 0, [],
   [⟨0, 0, .wo, 0, 1⟩]⟩

/-- PWR_RET_FAIL (R503). -/
def R.PWR_RET_FAIL : RegDesc :=
  ⟨"PWR_RET_FAIL", 0x400010, 64, 0, 0, [],
   [⟨63, 63, .ro, 0, 1⟩, ⟨62, 60, .ro, 0, 7⟩, ⟨43, 32, .ro, 0, 4095⟩, ⟨31, 0, .ro, 0, 4294967295⟩]⟩

/-- PWR_DOZE_COUNT (R503). -/
def R.PWR_DOZE_COUNT : RegDesc :=
  ⟨"PWR_DOZE_COUNT", 0x400018, 64, 0, 0, [],
   [⟨63, 0, .rc, 0, 18446744073709551615⟩]⟩

/-- PWR_DEEP_COUNT (R503). -/
def R.PWR_DEEP_COUNT : RegDesc :=
  ⟨"PWR_DEEP_COUNT", 0x400020, 64, 0, 0, [],
   [⟨63, 0, .rc, 0, 18446744073709551615⟩]⟩

/-- PWR_WAKE_FT (R503). -/
def R.PWR_WAKE_FT : RegDesc :=
  ⟨"PWR_WAKE_FT", 0x400028, 64, 0, 0, [],
   [⟨63, 0, .ro, 0, 18446744073709551615⟩]⟩

/-- CLK_CTRL (R527). -/
def R.CLK_CTRL : RegDesc :=
  ⟨"CLK_CTRL", 0x401000, 32, 1, 0, [],
   [⟨0, 0, .rw, 0, 1⟩]⟩

/-- CLK_IO_SLEW (R527). -/
def R.CLK_IO_SLEW : RegDesc :=
  ⟨"CLK_IO_SLEW", 0x401004, 32, 0, 0, [],
   [⟨11, 10, .rw, 0, 3⟩, ⟨9, 8, .rw, 0, 3⟩, ⟨7, 6, .rw, 0, 3⟩, ⟨5, 4, .rw, 0, 3⟩, ⟨3, 2, .rw, 0, 3⟩, ⟨1, 0, .rw, 0, 3⟩]⟩

/-- CLK_AVS_VSET (R527). -/
def R.CLK_AVS_VSET : RegDesc :=
  ⟨"CLK_AVS_VSET", 0x401008, 32, 0x320, 0, [],
   [⟨15, 0, .ro, 0, 65535⟩]⟩

/-- THERM_STATUS (R527). -/
def R.THERM_STATUS : RegDesc :=
  ⟨"THERM_STATUS", 0x401100, 32, 0, 0, [],
   [⟨23, 16, .ro, 0, 255⟩, ⟨15, 14, .ro, 0, 3⟩, ⟨11, 0, .ro, 0, 4095⟩]⟩

/-- THERM_CFG (R527). -/
def R.THERM_CFG : RegDesc :=
  ⟨"THERM_CFG", 0x401104, 32, 0x73, 0, [],
   [⟨7, 0, .rw, 90, 115⟩]⟩

/-- THERM_THROTTLE_TIME (R527). -/
def R.THERM_THROTTLE_TIME : RegDesc :=
  ⟨"THERM_THROTTLE_TIME", 0x401108, 64, 0, 0, [],
   [⟨63, 0, .rc, 0, 18446744073709551615⟩]⟩

/-- THERM_TEMP (R527). -/
def R.THERM_TEMP : RegDesc :=
  ⟨"THERM_TEMP", 0x401200, 32, 0, 0, [⟨4, 64, 64⟩],
   [⟨11, 0, .ro, 0, 4095⟩]⟩

/-- HIF_LINK_CFG (R440). -/
def R.HIF_LINK_CFG : RegDesc :=
  ⟨"HIF_LINK_CFG", 0x1000000, 32, 2, 0, [⟨64, 4, 4⟩],
   [⟨5, 4, .rw, 0, 3⟩, ⟨1, 0, .rw, 0, 3⟩]⟩

/-- HIF_ATT_STATUS (R440). -/
def R.HIF_ATT_STATUS : RegDesc :=
  ⟨"HIF_ATT_STATUS", 0x1000100, 32, 0, 0, [⟨4, 16, 16⟩],
   [⟨31, 31, .ro, 0, 1⟩, ⟨30, 30, .ro, 0, 1⟩, ⟨29, 27, .ro, 0, 7⟩, ⟨20, 16, .ro, 0, 31⟩, ⟨2, 0, .ro, 0, 7⟩]⟩

/-- HIF_VF_ALLOC (R440). -/
def R.HIF_VF_ALLOC : RegDesc :=
  ⟨"HIF_VF_ALLOC", 0x1000200, 32, 0x10003f, 0x3f0000, [⟨4, 16, 16⟩],
   [⟨25, 16, .rw, 16, 1023⟩, ⟨9, 0, .rw, 0, 1008⟩]⟩

/-- HIF_L1_IDLE (R440). -/
def R.HIF_L1_IDLE : RegDesc :=
  ⟨"HIF_L1_IDLE", 0x1000300, 32, 8, 0, [],
   [⟨31, 0, .rw, 1, 1000⟩]⟩

/-- HIF_WAKE_CFG (R440). -/
def R.HIF_WAKE_CFG : RegDesc :=
  ⟨"HIF_WAKE_CFG", 0x1000304, 32, 1, 0, [],
   [⟨0, 0, .rw, 0, 1⟩]⟩

/-- HIF_STATUS (R440). -/
def R.HIF_STATUS : RegDesc :=
  ⟨"HIF_STATUS", 0x1000308, 32, 0, 0, [],
   [⟨31, 31, .ro, 0, 1⟩, ⟨0, 0, .ro, 0, 1⟩]⟩

/-- HIF_POISON_COUNT (R440). -/
def R.HIF_POISON_COUNT : RegDesc :=
  ⟨"HIF_POISON_COUNT", 0x1000310, 64, 0, 0, [],
   [⟨63, 0, .rc, 0, 18446744073709551615⟩]⟩

/-- HIF_CPL_TIMEOUT_COUNT (R440). -/
def R.HIF_CPL_TIMEOUT_COUNT : RegDesc :=
  ⟨"HIF_CPL_TIMEOUT_COUNT", 0x1000318, 64, 0, 0, [],
   [⟨63, 0, .rc, 0, 18446744073709551615⟩]⟩

/-- HIF_UR_COUNT (R440). -/
def R.HIF_UR_COUNT : RegDesc :=
  ⟨"HIF_UR_COUNT", 0x1000320, 64, 0, 0, [],
   [⟨63, 0, .rc, 0, 18446744073709551615⟩]⟩

/-- HIF_WAKE_COUNT (R440). -/
def R.HIF_WAKE_COUNT : RegDesc :=
  ⟨"HIF_WAKE_COUNT", 0x1000328, 64, 0, 0, [],
   [⟨63, 0, .rc, 0, 18446744073709551615⟩]⟩

/-- HIF_RX_HELD_REFUSE_COUNT (R440). -/
def R.HIF_RX_HELD_REFUSE_COUNT : RegDesc :=
  ⟨"HIF_RX_HELD_REFUSE_COUNT", 0x1000330, 64, 0, 0, [],
   [⟨63, 0, .rc, 0, 18446744073709551615⟩]⟩

/-- HIF_NOMASTER_COUNT (R440). -/
def R.HIF_NOMASTER_COUNT : RegDesc :=
  ⟨"HIF_NOMASTER_COUNT", 0x1000338, 64, 0, 0, [],
   [⟨63, 0, .rc, 0, 18446744073709551615⟩]⟩

/-- HIF_MOVER_BUSY (R440). -/
def R.HIF_MOVER_BUSY : RegDesc :=
  ⟨"HIF_MOVER_BUSY", 0x1000340, 64, 0, 0, [],
   [⟨63, 0, .ro, 0, 18446744073709551615⟩]⟩

/-- HIF_FUNC_STATE (R440). -/
def R.HIF_FUNC_STATE : RegDesc :=
  ⟨"HIF_FUNC_STATE", 0x1001000, 32, 0, 0, [⟨4, 1024, 1024⟩],
   [⟨31, 30, .ro, 0, 3⟩, ⟨29, 29, .ro, 0, 1⟩, ⟨28, 28, .ro, 0, 1⟩, ⟨27, 27, .ro, 0, 1⟩, ⟨26, 26, .ro, 0, 1⟩, ⟨16, 0, .ro, 0, 131071⟩]⟩

/-- HIF_CRING_BASE (R175). -/
def R.HIF_CRING_BASE : RegDesc :=
  ⟨"HIF_CRING_BASE", 0x100001000, 64, 0, 0, [⟨65536, 16, 16⟩],
   [⟨63, 12, .rw, 0, 4503599627370495⟩]⟩

/-- HIF_CRING_CFG (R175). -/
def R.HIF_CRING_CFG : RegDesc :=
  ⟨"HIF_CRING_CFG", 0x100001008, 32, 0, 0, [⟨65536, 16, 16⟩],
   [⟨31, 31, .rw, 0, 1⟩, ⟨4, 0, .rw, 6, 12⟩]⟩

/-- HIF_CCQ_BASE (R175). -/
def R.HIF_CCQ_BASE : RegDesc :=
  ⟨"HIF_CCQ_BASE", 0x100001010, 64, 0, 0, [⟨65536, 16, 16⟩],
   [⟨63, 12, .rw, 0, 4503599627370495⟩]⟩

/-- HIF_CCQ_CFG (R175). -/
def R.HIF_CCQ_CFG : RegDesc :=
  ⟨"HIF_CCQ_CFG", 0x100001018, 32, 0, 0, [⟨65536, 16, 16⟩],
   [⟨31, 31, .rw, 0, 1⟩, ⟨30, 30, .rw, 0, 1⟩, ⟨26, 16, .rw, 0, 2047⟩, ⟨4, 0, .rw, 6, 12⟩]⟩

/-- HIF_CRING_DB (R175). -/
def R.HIF_CRING_DB : RegDesc :=
  ⟨"HIF_CRING_DB", 0x100001020, 64, 0, 0, [⟨65536, 16, 16⟩],
   [⟨63, 0, .rw, 0, 18446744073709551615⟩]⟩

/-- HIF_CRING_STATUS (R175). -/
def R.HIF_CRING_STATUS : RegDesc :=
  ⟨"HIF_CRING_STATUS", 0x100001028, 32, 0, 0, [⟨65536, 16, 16⟩],
   [⟨31, 31, .ro, 0, 1⟩, ⟨30, 30, .ro, 0, 1⟩, ⟨29, 29, .ro, 0, 1⟩, ⟨15, 0, .ro, 0, 65535⟩]⟩

/-- HIF_ADAPTER_RESET (R193). -/
def R.HIF_ADAPTER_RESET : RegDesc :=
  ⟨"HIF_ADAPTER_RESET", 0x100001030, 32, 0, 0, [⟨65536, 16, 16⟩],
   [⟨31, 16, .wo, 0, 65535⟩, ⟨0, 0, .wo, 0, 1⟩]⟩

/-- RING_CQ_POLL (R177). -/
def R.RING_CQ_POLL : RegDesc :=
  ⟨"RING_CQ_POLL", 0x1800000, 32, 0x3e8, 0, [],
   [⟨31, 0, .rw, 100, 100000⟩]⟩

/-- RING_DB_STALE_COUNT (R177). -/
def R.RING_DB_STALE_COUNT : RegDesc :=
  ⟨"RING_DB_STALE_COUNT", 0x1800008, 64, 0, 0, [],
   [⟨63, 0, .rc, 0, 18446744073709551615⟩]⟩

/-- RING_DB_RANGE_COUNT (R177). -/
def R.RING_DB_RANGE_COUNT : RegDesc :=
  ⟨"RING_DB_RANGE_COUNT", 0x1800010, 64, 0, 0, [],
   [⟨63, 0, .rc, 0, 18446744073709551615⟩]⟩

/-- RING_DB_REJECT_COUNT (R177). -/
def R.RING_DB_REJECT_COUNT : RegDesc :=
  ⟨"RING_DB_REJECT_COUNT", 0x1800018, 64, 0, 0, [],
   [⟨63, 0, .rc, 0, 18446744073709551615⟩]⟩

/-- RING_OWN_STOP_COUNT (R177). -/
def R.RING_OWN_STOP_COUNT : RegDesc :=
  ⟨"RING_OWN_STOP_COUNT", 0x1800020, 64, 0, 0, [],
   [⟨63, 0, .rc, 0, 18446744073709551615⟩]⟩

/-- RING_CQ_READ_COUNT (R177). -/
def R.RING_CQ_READ_COUNT : RegDesc :=
  ⟨"RING_CQ_READ_COUNT", 0x1800028, 64, 0, 0, [],
   [⟨63, 0, .rc, 0, 18446744073709551615⟩]⟩

/-- RING_MALFORMED_INFO (R177). -/
def R.RING_MALFORMED_INFO : RegDesc :=
  ⟨"RING_MALFORMED_INFO", 0x1800030, 64, 0, 0, [],
   [⟨49, 49, .ro, 0, 1⟩, ⟨48, 48, .ro, 0, 1⟩, ⟨47, 32, .ro, 0, 65535⟩, ⟨31, 28, .ro, 0, 15⟩, ⟨27, 18, .ro, 0, 1023⟩, ⟨17, 0, .ro, 0, 262143⟩]⟩

/-- RING_STALL_TIMEOUT (R196). -/
def R.RING_STALL_TIMEOUT : RegDesc :=
  ⟨"RING_STALL_TIMEOUT", 0x1800038, 32, 0x3e8, 0, [],
   [⟨31, 0, .rw, 1, 60000⟩]⟩

/-- RING_POOL_USED (R196). -/
def R.RING_POOL_USED : RegDesc :=
  ⟨"RING_POOL_USED", 0x180003c, 32, 0, 0, [],
   [⟨16, 0, .ro, 0, 131071⟩]⟩

/-- RING_ABORT_COUNT (R196). -/
def R.RING_ABORT_COUNT : RegDesc :=
  ⟨"RING_ABORT_COUNT", 0x1800040, 64, 0, 0, [],
   [⟨63, 0, .rc, 0, 18446744073709551615⟩]⟩

/-- RING_ARB_CTRL (R196). -/
def R.RING_ARB_CTRL : RegDesc :=
  ⟨"RING_ARB_CTRL", 0x1800050, 32, 3, 0, [⟨4, 4, 4⟩],
   [⟨1, 1, .rw, 0, 1⟩, ⟨0, 0, .rw, 0, 1⟩]⟩

/-- RING_FUNC_ARB (R196). -/
def R.RING_FUNC_ARB : RegDesc :=
  ⟨"RING_FUNC_ARB", 0x1801000, 32, 1, 0, [⟨4, 1024, 1024⟩],
   [⟨7, 0, .rw, 1, 255⟩]⟩

/-- RING_GROUP_ARB (R196). -/
def R.RING_GROUP_ARB : RegDesc :=
  ⟨"RING_GROUP_ARB", 0x1802000, 64, 0x101010101010101, 0, [⟨8, 1024, 1024⟩],
   [⟨7, 0, .rw, 1, 255⟩, ⟨15, 8, .rw, 1, 255⟩, ⟨23, 16, .rw, 1, 255⟩, ⟨31, 24, .rw, 1, 255⟩, ⟨39, 32, .rw, 1, 255⟩, ⟨47, 40, .rw, 1, 255⟩, ⟨55, 48, .rw, 1, 255⟩, ⟨63, 56, .rw, 1, 255⟩]⟩

/-- RING_Q_STATE (R196). -/
def R.RING_Q_STATE : RegDesc :=
  ⟨"RING_Q_STATE", 0x1900000, 32, 0, 0, [⟨4, 262144, 262144⟩],
   [⟨7, 7, .ro, 0, 1⟩, ⟨6, 6, .ro, 0, 1⟩, ⟨2, 0, .ro, 0, 7⟩]⟩

/-- RING_CQ_STATE (R196). -/
def R.RING_CQ_STATE : RegDesc :=
  ⟨"RING_CQ_STATE", 0x1a00000, 32, 0, 0, [⟨4, 65536, 65536⟩],
   [⟨22, 16, .ro, 0, 127⟩, ⟨1, 0, .ro, 0, 3⟩]⟩

/-- XLT_ASK_BASE (R261). -/
def R.XLT_ASK_BASE : RegDesc :=
  ⟨"XLT_ASK_BASE", 0x2000000, 64, 0, 0, [],
   [⟨35, 25, .rw, 0, 1535⟩]⟩

/-- XLT_MAXAGE (R261). -/
def R.XLT_MAXAGE : RegDesc :=
  ⟨"XLT_MAXAGE", 0x2000008, 32, 0, 0, [],
   [⟨31, 0, .rw, 0, 1000000⟩]⟩

/-- XLT_STATUS (R261). -/
def R.XLT_STATUS : RegDesc :=
  ⟨"XLT_STATUS", 0x200000c, 32, 0, 0, [],
   [⟨20, 8, .ro, 0, 8191⟩, ⟨4, 0, .ro, 0, 31⟩]⟩

/-- XLT_WALK_COUNT (R261). -/
def R.XLT_WALK_COUNT : RegDesc :=
  ⟨"XLT_WALK_COUNT", 0x2000010, 64, 0, 0, [],
   [⟨63, 0, .rc, 0, 18446744073709551615⟩]⟩

/-- XLT_WALK_FAULT_COUNT (R261). -/
def R.XLT_WALK_FAULT_COUNT : RegDesc :=
  ⟨"XLT_WALK_FAULT_COUNT", 0x2000018, 64, 0, 0, [],
   [⟨63, 0, .rc, 0, 18446744073709551615⟩]⟩

/-- XLT_INV_COUNT (R261). -/
def R.XLT_INV_COUNT : RegDesc :=
  ⟨"XLT_INV_COUNT", 0x2000020, 64, 0, 0, [],
   [⟨63, 0, .rc, 0, 18446744073709551615⟩]⟩

/-- XLT_MAXAGE_DROP_COUNT (R261). -/
def R.XLT_MAXAGE_DROP_COUNT : RegDesc :=
  ⟨"XLT_MAXAGE_DROP_COUNT", 0x2000028, 64, 0, 0, [],
   [⟨63, 0, .rc, 0, 18446744073709551615⟩]⟩

/-- XLT_FAULT_LOST_COUNT (R261). -/
def R.XLT_FAULT_LOST_COUNT : RegDesc :=
  ⟨"XLT_FAULT_LOST_COUNT", 0x2000030, 64, 0, 0, [],
   [⟨63, 0, .rc, 0, 18446744073709551615⟩]⟩

/-- XLT_ILLEGAL_INFO (R261). -/
def R.XLT_ILLEGAL_INFO : RegDesc :=
  ⟨"XLT_ILLEGAL_INFO", 0x2000038, 64, 0, 0, [],
   [⟨63, 63, .w1c, 0, 1⟩, ⟨62, 60, .ro, 0, 7⟩, ⟨49, 40, .ro, 0, 1023⟩, ⟨19, 0, .ro, 0, 1048575⟩]⟩

/-- XLT_ILLEGAL_ADDR (R261). -/
def R.XLT_ILLEGAL_ADDR : RegDesc :=
  ⟨"XLT_ILLEGAL_ADDR", 0x2000040, 64, 0, 0, [],
   [⟨63, 0, .ro, 0, 18446744073709551615⟩]⟩

/-- XLT_MMIO_BASE (R261). -/
def R.XLT_MMIO_BASE : RegDesc :=
  ⟨"XLT_MMIO_BASE", 0x2004000, 64, 0, 0, [⟨256, 16, 16⟩, ⟨16, 8, 8⟩],
   [⟨51, 12, .rw, 0, 1099511627775⟩]⟩

/-- XLT_MMIO_LIMIT (R261). -/
def R.XLT_MMIO_LIMIT : RegDesc :=
  ⟨"XLT_MMIO_LIMIT", 0x2004008, 64, 0, 0, [⟨256, 16, 16⟩, ⟨16, 8, 8⟩],
   [⟨51, 12, .rw, 0, 1099511627775⟩]⟩

/-- XLT_REVOKE_CTRL (R218). -/
def R.XLT_REVOKE_CTRL : RegDesc :=
  ⟨"XLT_REVOKE_CTRL", 0x200f000, 32, 0, 0, [],
   [⟨31, 31, .w1s, 0, 1⟩, ⟨19, 0, .rw, 0, 1048575⟩]⟩

/-- XLT_REVOKE_FT (R218). -/
def R.XLT_REVOKE_FT : RegDesc :=
  ⟨"XLT_REVOKE_FT", 0x200f008, 64, 0, 0, [],
   [⟨63, 0, .ro, 0, 18446744073709551615⟩]⟩

/-- XLT_REVOKE_DRAIN_FT (R218). -/
def R.XLT_REVOKE_DRAIN_FT : RegDesc :=
  ⟨"XLT_REVOKE_DRAIN_FT", 0x200f010, 64, 0, 0, [],
   [⟨63, 0, .ro, 0, 18446744073709551615⟩]⟩

/-- XLT_KEY_REFUSE_COUNT (R218). -/
def R.XLT_KEY_REFUSE_COUNT : RegDesc :=
  ⟨"XLT_KEY_REFUSE_COUNT", 0x200f018, 64, 0, 0, [],
   [⟨63, 0, .rc, 0, 18446744073709551615⟩]⟩

/-- XLT_KEY_INVALID_COUNT (R218). -/
def R.XLT_KEY_INVALID_COUNT : RegDesc :=
  ⟨"XLT_KEY_INVALID_COUNT", 0x200f020, 64, 0, 0, [],
   [⟨63, 0, .rc, 0, 18446744073709551615⟩]⟩

/-- XLT_REVOKE_SLOW_COUNT (R218). -/
def R.XLT_REVOKE_SLOW_COUNT : RegDesc :=
  ⟨"XLT_REVOKE_SLOW_COUNT", 0x200f028, 64, 0, 0, [],
   [⟨63, 0, .rc, 0, 18446744073709551615⟩]⟩

/-- XLT_REVOKE_COUNT (R218). -/
def R.XLT_REVOKE_COUNT : RegDesc :=
  ⟨"XLT_REVOKE_COUNT", 0x200f030, 64, 0, 0, [],
   [⟨63, 0, .rc, 0, 18446744073709551615⟩]⟩

/-- CLU_CTRL (R97). -/
def R.CLU_CTRL : RegDesc :=
  ⟨"CLU_CTRL", 0x3000000, 32, 0x10, 0, [⟨262144, 64, 48⟩],
   [⟨7, 4, .rw, 0, 8⟩, ⟨1, 1, .w1s, 0, 1⟩, ⟨0, 0, .rw, 0, 1⟩]⟩

/-- CLU_STATUS (R97). -/
def R.CLU_STATUS : RegDesc :=
  ⟨"CLU_STATUS", 0x3000004, 32, 0, 0, [⟨262144, 64, 48⟩],
   [⟨23, 16, .ro, 0, 255⟩, ⟨13, 8, .ro, 0, 63⟩, ⟨0, 0, .ro, 0, 1⟩]⟩

/-- CLU_WD_GRACE (R97). -/
def R.CLU_WD_GRACE : RegDesc :=
  ⟨"CLU_WD_GRACE", 0x3000008, 32, 0x14, 0, [⟨262144, 64, 48⟩],
   [⟨31, 0, .rw, 1, 1000⟩]⟩

/-- CLU_RETIRE_CFG (R97). -/
def R.CLU_RETIRE_CFG : RegDesc :=
  ⟨"CLU_RETIRE_CFG", 0x300000c, 32, 0xe104, 0, [⟨262144, 64, 48⟩],
   [⟨19, 4, .rw, 1, 65535⟩, ⟨3, 0, .rw, 1, 15⟩]⟩

/-- CLU_CSM_UWIN (R97). -/
def R.CLU_CSM_UWIN : RegDesc :=
  ⟨"CLU_CSM_UWIN", 0x3000010, 32, 1, 0, [⟨262144, 64, 48⟩],
   [⟨15, 8, .rw, 0, 239⟩, ⟨7, 0, .rw, 0, 239⟩]⟩

/-- CLU_HT_STAGE0 (R97). -/
def R.CLU_HT_STAGE0 : RegDesc :=
  ⟨"CLU_HT_STAGE0", 0x3000018, 64, 0, 0, [⟨262144, 64, 48⟩],
   [⟨63, 0, .rw, 0, 18446744073709551615⟩]⟩

/-- CLU_HT_STAGE1 (R97). -/
def R.CLU_HT_STAGE1 : RegDesc :=
  ⟨"CLU_HT_STAGE1", 0x3000020, 64, 0, 0, [⟨262144, 64, 48⟩],
   [⟨63, 0, .rw, 0, 18446744073709551615⟩]⟩

/-- CLU_HT_COMMIT (R97). -/
def R.CLU_HT_COMMIT : RegDesc :=
  ⟨"CLU_HT_COMMIT", 0x3000028, 32, 0, 0, [⟨262144, 64, 48⟩],
   [⟨31, 31, .w1s, 0, 1⟩, ⟨7, 0, .rw, 0, 255⟩]⟩

/-- CLU_LOST_COUNT (R97). -/
def R.CLU_LOST_COUNT : RegDesc :=
  ⟨"CLU_LOST_COUNT", 0x3000030, 64, 0, 0, [⟨262144, 64, 48⟩],
   [⟨63, 0, .rc, 0, 18446744073709551615⟩]⟩

/-- CLU_EXC_COUNT (R97). -/
def R.CLU_EXC_COUNT : RegDesc :=
  ⟨"CLU_EXC_COUNT", 0x3000038, 64, 0, 0, [⟨262144, 64, 48⟩],
   [⟨63, 0, .rc, 0, 18446744073709551615⟩]⟩

/-- CLU_PARITY_COUNT (R97). -/
def R.CLU_PARITY_COUNT : RegDesc :=
  ⟨"CLU_PARITY_COUNT", 0x3000040, 64, 0, 0, [⟨262144, 64, 48⟩, ⟨8, 8, 8⟩],
   [⟨63, 0, .ro, 0, 18446744073709551615⟩]⟩

/-- CLU_MATCH_CFG (R284). -/
def R.CLU_MATCH_CFG : RegDesc :=
  ⟨"CLU_MATCH_CFG", 0x3000100, 32, 0x8000400, 0, [⟨262144, 64, 48⟩],
   [⟨28, 16, .rw, 1, 8192⟩, ⟨12, 0, .rw, 1, 8192⟩]⟩

/-- CLU_MATCH_EAGER (R284). -/
def R.CLU_MATCH_EAGER : RegDesc :=
  ⟨"CLU_MATCH_EAGER", 0x3000104, 32, 0x1000, 0, [⟨262144, 64, 48⟩],
   [⟨12, 0, .rw, 0, 4096⟩]⟩

/-- CLU_MATCH_UBUF_BASE (R284). -/
def R.CLU_MATCH_UBUF_BASE : RegDesc :=
  ⟨"CLU_MATCH_UBUF_BASE", 0x3000108, 64, 0, 0, [⟨262144, 64, 48⟩],
   [⟨35, 12, .rw, 0, 16777215⟩]⟩

/-- CLU_MATCH_UBUF_BLOCKS (R284). -/
def R.CLU_MATCH_UBUF_BLOCKS : RegDesc :=
  ⟨"CLU_MATCH_UBUF_BLOCKS", 0x3000110, 32, 0x800, 0, [⟨262144, 64, 48⟩],
   [⟨14, 0, .rw, 0, 16384⟩]⟩

/-- CLU_MATCH_STATUS (R284). -/
def R.CLU_MATCH_STATUS : RegDesc :=
  ⟨"CLU_MATCH_STATUS", 0x3000114, 32, 0, 0, [⟨262144, 64, 48⟩],
   [⟨29, 15, .ro, 0, 32767⟩, ⟨13, 0, .ro, 0, 16383⟩]⟩

/-- CLU_MATCH_CMD_COUNT (R284). -/
def R.CLU_MATCH_CMD_COUNT : RegDesc :=
  ⟨"CLU_MATCH_CMD_COUNT", 0x3000118, 64, 0, 0, [⟨262144, 64, 48⟩],
   [⟨63, 0, .rc, 0, 18446744073709551615⟩]⟩

/-- CLU_MATCH_EXAMINED_COUNT (R284). -/
def R.CLU_MATCH_EXAMINED_COUNT : RegDesc :=
  ⟨"CLU_MATCH_EXAMINED_COUNT", 0x3000120, 64, 0, 0, [⟨262144, 64, 48⟩],
   [⟨63, 0, .rc, 0, 18446744073709551615⟩]⟩

/-- CLU_MATCH_UNEXP_COUNT (R284). -/
def R.CLU_MATCH_UNEXP_COUNT : RegDesc :=
  ⟨"CLU_MATCH_UNEXP_COUNT", 0x3000128, 64, 0, 0, [⟨262144, 64, 48⟩],
   [⟨63, 0, .rc, 0, 18446744073709551615⟩]⟩

/-- CLU_MATCH_REFUSE_COUNT (R284). -/
def R.CLU_MATCH_REFUSE_COUNT : RegDesc :=
  ⟨"CLU_MATCH_REFUSE_COUNT", 0x3000130, 64, 0, 0, [⟨262144, 64, 48⟩],
   [⟨63, 0, .rc, 0, 18446744073709551615⟩]⟩

/-- CLU_MATCH_SEARCH_MAX (R284). -/
def R.CLU_MATCH_SEARCH_MAX : RegDesc :=
  ⟨"CLU_MATCH_SEARCH_MAX", 0x3000138, 32, 0, 0, [⟨262144, 64, 48⟩],
   [⟨31, 0, .rc, 0, 4294967295⟩]⟩

/-- WF_CFG (R150). -/
def R.WF_CFG : RegDesc :=
  ⟨"WF_CFG", 0x4000000, 32, 0x2000, 0, [⟨1024, 64, 48⟩, ⟨256, 4, 4⟩],
   [⟨15, 8, .rw, 0, 255⟩, ⟨0, 0, .rw, 0, 1⟩]⟩

/-- WF_STATUS (R150). -/
def R.WF_STATUS : RegDesc :=
  ⟨"WF_STATUS", 0x4000004, 32, 0, 0, [⟨1024, 64, 48⟩, ⟨256, 4, 4⟩],
   [⟨31, 31, .ro, 0, 1⟩, ⟨30, 30, .ro, 0, 1⟩, ⟨26, 16, .ro, 0, 2047⟩, ⟨10, 0, .ro, 0, 2047⟩]⟩

/-- WF_VISIBLE (R150). -/
def R.WF_VISIBLE : RegDesc :=
  ⟨"WF_VISIBLE", 0x4000008, 32, 0, 0, [⟨1024, 64, 48⟩, ⟨256, 4, 4⟩],
   [⟨23, 8, .ro, 0, 65535⟩, ⟨7, 0, .ro, 0, 255⟩]⟩

/-- WF_COMMIT_COUNT (R150). -/
def R.WF_COMMIT_COUNT : RegDesc :=
  ⟨"WF_COMMIT_COUNT", 0x4000010, 64, 0, 0, [⟨1024, 64, 48⟩, ⟨256, 4, 4⟩],
   [⟨63, 0, .rc, 0, 18446744073709551615⟩]⟩

/-- WF_REWIND_COUNT (R150). -/
def R.WF_REWIND_COUNT : RegDesc :=
  ⟨"WF_REWIND_COUNT", 0x4000018, 64, 0, 0, [⟨1024, 64, 48⟩, ⟨256, 4, 4⟩],
   [⟨63, 0, .rc, 0, 18446744073709551615⟩]⟩

/-- WF_FULL_COUNT (R150). -/
def R.WF_FULL_COUNT : RegDesc :=
  ⟨"WF_FULL_COUNT", 0x4000020, 64, 0, 0, [⟨1024, 64, 48⟩, ⟨256, 4, 4⟩],
   [⟨63, 0, .rc, 0, 18446744073709551615⟩]⟩

/-- WF_SWAP_COUNT (R150). -/
def R.WF_SWAP_COUNT : RegDesc :=
  ⟨"WF_SWAP_COUNT", 0x4000028, 64, 0, 0, [⟨1024, 64, 48⟩, ⟨256, 4, 4⟩],
   [⟨63, 0, .rc, 0, 18446744073709551615⟩]⟩

/-- WF_ECC_COUNT (R150). -/
def R.WF_ECC_COUNT : RegDesc :=
  ⟨"WF_ECC_COUNT", 0x4000030, 64, 0, 0, [⟨1024, 64, 48⟩, ⟨256, 4, 4⟩],
   [⟨63, 0, .rc, 0, 18446744073709551615⟩]⟩

/-- WF_WAIT_MAX (R150). -/
def R.WF_WAIT_MAX : RegDesc :=
  ⟨"WF_WAIT_MAX", 0x4000038, 32, 0, 0, [⟨1024, 64, 48⟩, ⟨256, 4, 4⟩],
   [⟨31, 0, .rc, 0, 4294967295⟩]⟩

/-- WF_STEER (R150). -/
def R.WF_STEER : RegDesc :=
  ⟨"WF_STEER", 0x4010000, 32, 0x60, 0, [⟨16, 64, 48⟩],
   [⟨6, 4, .rw, 0, 7⟩, ⟨3, 2, .rw, 0, 3⟩, ⟨1, 0, .rw, 0, 3⟩]⟩

/-- ROUTE_CFG (R337). -/
def R.ROUTE_CFG : RegDesc :=
  ⟨"ROUTE_CFG", 0x5000000, 32, 0x84ac4040, 0, [],
   [⟨31, 28, .rw, 1, 8⟩, ⟨27, 25, .rw, 1, 7⟩, ⟨24, 22, .rw, 1, 7⟩, ⟨21, 21, .rw, 0, 1⟩, ⟨20, 18, .rw, 0, 7⟩, ⟨15, 8, .rw, 0, 255⟩, ⟨7, 0, .rw, 0, 255⟩]⟩

/-- ROUTE_TC_CFG (R337). -/
def R.ROUTE_TC_CFG : RegDesc :=
  ⟨"ROUTE_TC_CFG", 0x5000004, 32, 0xc0, 0, [],
   [⟨7, 0, .rw, 0, 255⟩]⟩

/-- ROUTE_SELF_DN (R337). -/
def R.ROUTE_SELF_DN : RegDesc :=
  ⟨"ROUTE_SELF_DN", 0x5000008, 32, 0, 0, [],
   [⟨16, 0, .rw, 0, 131071⟩]⟩

/-- ROUTE_SELF_POS (R337). -/
def R.ROUTE_SELF_POS : RegDesc :=
  ⟨"ROUTE_SELF_POS", 0x500000c, 32, 0, 0, [],
   [⟨16, 8, .rw, 0, 511⟩, ⟨7, 4, .rw, 0, 15⟩, ⟨3, 0, .rw, 0, 15⟩]⟩

/-- ROUTE_EPOCH_CTRL (R337). -/
def R.ROUTE_EPOCH_CTRL : RegDesc :=
  ⟨"ROUTE_EPOCH_CTRL", 0x5000010, 32, 0, 0, [],
   [⟨31, 31, .rw, 0, 1⟩, ⟨30, 30, .w1s, 0, 1⟩, ⟨29, 29, .w1s, 0, 1⟩, ⟨0, 0, .rw, 0, 1⟩]⟩

/-- ROUTE_EPOCH_STATUS (R337). -/
def R.ROUTE_EPOCH_STATUS : RegDesc :=
  ⟨"ROUTE_EPOCH_STATUS", 0x5000014, 32, 0, 0, [],
   [⟨31, 31, .ro, 0, 1⟩, ⟨8, 8, .ro, 0, 1⟩, ⟨6, 4, .ro, 0, 7⟩, ⟨2, 0, .ro, 0, 7⟩]⟩

/-- ROUTE_SWITCH_FT (R337). -/
def R.ROUTE_SWITCH_FT : RegDesc :=
  ⟨"ROUTE_SWITCH_FT", 0x5000018, 64, 0, 0, [],
   [⟨63, 0, .rw, 0, 18446744073709551615⟩]⟩

/-- ROUTE_DRAIN_END_FT (R337). -/
def R.ROUTE_DRAIN_END_FT : RegDesc :=
  ⟨"ROUTE_DRAIN_END_FT", 0x5000020, 64, 0, 0, [],
   [⟨63, 0, .ro, 0, 18446744073709551615⟩]⟩

/-- ROUTE_EPOCH_GUARD (R337). -/
def R.ROUTE_EPOCH_GUARD : RegDesc :=
  ⟨"ROUTE_EPOCH_GUARD", 0x5000028, 32, 0xa, 0, [],
   [⟨31, 0, .rw, 1, 10000⟩]⟩

/-- ROUTE_HOLD (R337). -/
def R.ROUTE_HOLD : RegDesc :=
  ⟨"ROUTE_HOLD", 0x500002c, 32, 0x7d0, 0, [],
   [⟨31, 0, .rw, 100, 100000⟩]⟩

/-- ROUTE_EPT_BASE (R337). -/
def R.ROUTE_EPT_BASE : RegDesc :=
  ⟨"ROUTE_EPT_BASE", 0x5000030, 64, 0, 0, [],
   [⟨35, 12, .rw, 0, 16777215⟩]⟩

/-- ROUTE_EPT_CFG (R337). -/
def R.ROUTE_EPT_CFG : RegDesc :=
  ⟨"ROUTE_EPT_CFG", 0x5000038, 32, 0x18, 0, [],
   [⟨4, 0, .rw, 10, 24⟩]⟩

/-- ROUTE_EPT_INV (R337). -/
def R.ROUTE_EPT_INV : RegDesc :=
  ⟨"ROUTE_EPT_INV", 0x500003c, 32, 0, 0, [],
   [⟨31, 31, .wo, 0, 1⟩, ⟨23, 0, .wo, 0, 16777215⟩]⟩

/-- ROUTE_FM_PFS (R337). -/
def R.ROUTE_FM_PFS : RegDesc :=
  ⟨"ROUTE_FM_PFS", 0x5000040, 32, 1, 0, [],
   [⟨15, 0, .rw, 0, 65535⟩]⟩

/-- ROUTE_HOPLIMIT_COUNT (R337). -/
def R.ROUTE_HOPLIMIT_COUNT : RegDesc :=
  ⟨"ROUTE_HOPLIMIT_COUNT", 0x5000048, 64, 0, 0, [],
   [⟨63, 0, .rc, 0, 18446744073709551615⟩]⟩

/-- ROUTE_STALE_EPOCH_COUNT (R337). -/
def R.ROUTE_STALE_EPOCH_COUNT : RegDesc :=
  ⟨"ROUTE_STALE_EPOCH_COUNT", 0x5000050, 64, 0, 0, [],
   [⟨63, 0, .rc, 0, 18446744073709551615⟩]⟩

/-- ROUTE_NOROUTE_COUNT (R337). -/
def R.ROUTE_NOROUTE_COUNT : RegDesc :=
  ⟨"ROUTE_NOROUTE_COUNT", 0x5000058, 64, 0, 0, [],
   [⟨63, 0, .rc, 0, 18446744073709551615⟩]⟩

/-- ROUTE_NOPATH_COUNT (R337). -/
def R.ROUTE_NOPATH_COUNT : RegDesc :=
  ⟨"ROUTE_NOPATH_COUNT", 0x5000060, 64, 0, 0, [],
   [⟨63, 0, .rc, 0, 18446744073709551615⟩]⟩

/-- ROUTE_EXPIRE_COUNT (R337). -/
def R.ROUTE_EXPIRE_COUNT : RegDesc :=
  ⟨"ROUTE_EXPIRE_COUNT", 0x5000068, 64, 0, 0, [],
   [⟨63, 0, .rc, 0, 18446744073709551615⟩]⟩

/-- ROUTE_NM_COUNT (R337). -/
def R.ROUTE_NM_COUNT : RegDesc :=
  ⟨"ROUTE_NM_COUNT", 0x5000070, 64, 0, 0, [],
   [⟨63, 0, .rc, 0, 18446744073709551615⟩]⟩

/-- ROUTE_EPT_MISS_COUNT (R337). -/
def R.ROUTE_EPT_MISS_COUNT : RegDesc :=
  ⟨"ROUTE_EPT_MISS_COUNT", 0x5000078, 64, 0, 0, [],
   [⟨63, 0, .rc, 0, 18446744073709551615⟩]⟩

/-- ROUTE_WRITE_REFUSE_COUNT (R337). -/
def R.ROUTE_WRITE_REFUSE_COUNT : RegDesc :=
  ⟨"ROUTE_WRITE_REFUSE_COUNT", 0x5000080, 64, 0, 0, [],
   [⟨63, 0, .rc, 0, 18446744073709551615⟩]⟩

/-- ROUTE_SWITCH_COUNT (R337). -/
def R.ROUTE_SWITCH_COUNT : RegDesc :=
  ⟨"ROUTE_SWITCH_COUNT", 0x5000088, 64, 0, 0, [],
   [⟨63, 0, .rc, 0, 18446744073709551615⟩]⟩

/-- ROUTE_NOTREADY_COUNT (R337). -/
def R.ROUTE_NOTREADY_COUNT : RegDesc :=
  ⟨"ROUTE_NOTREADY_COUNT", 0x5000090, 64, 0, 0, [],
   [⟨63, 0, .rc, 0, 18446744073709551615⟩]⟩

/-- ROUTE_DEST (R317). -/
def R.ROUTE_DEST : RegDesc :=
  ⟨"ROUTE_DEST", 0x5100000, 32, 0, 0, [⟨1048576, 2, 2⟩, ⟨4, 131072, 131072⟩],
   [⟨31, 31, .rw, 0, 1⟩, ⟨16, 8, .rw, 0, 511⟩, ⟨7, 4, .rw, 0, 15⟩, ⟨3, 0, .rw, 0, 15⟩]⟩

/-- ROUTE_GROUP (R317). -/
def R.ROUTE_GROUP : RegDesc :=
  ⟨"ROUTE_GROUP", 0x5180000, 32, 0, 0, [⟨1048576, 2, 2⟩, ⟨4, 512, 512⟩],
   [⟨31, 31, .rw, 0, 1⟩, ⟨30, 30, .rw, 0, 1⟩, ⟨18, 16, .rw, 1, 7⟩, ⟨9, 0, .rw, 0, 1023⟩]⟩

/-- ROUTE_ROW (R317). -/
def R.ROUTE_ROW : RegDesc :=
  ⟨"ROUTE_ROW", 0x5181000, 32, 0, 0, [⟨1048576, 2, 2⟩, ⟨4, 16, 16⟩],
   [⟨31, 31, .rw, 0, 1⟩, ⟨26, 10, .rw, 0, 131071⟩, ⟨9, 0, .rw, 0, 1023⟩]⟩

/-- ROUTE_COLUMN (R317). -/
def R.ROUTE_COLUMN : RegDesc :=
  ⟨"ROUTE_COLUMN", 0x5181100, 32, 0, 0, [⟨1048576, 2, 2⟩, ⟨4, 16, 16⟩],
   [⟨31, 31, .rw, 0, 1⟩, ⟨26, 10, .rw, 0, 131071⟩, ⟨9, 0, .rw, 0, 1023⟩]⟩

/-- ROUTE_PORT (R317). The entries of the ports that GK-ON096-P1 disables are absent there (R2, DEDUCED, log entry 135). -/
def R.ROUTE_PORT : RegDesc :=
  ⟨"ROUTE_PORT", 0x5181200, 32, 0, 0, [⟨1048576, 2, 2⟩, ⟨4, 128, 96⟩],
   [⟨15, 13, .rw, 0, 7⟩, ⟨8, 0, .rw, 0, 511⟩]⟩

/-- ROUTE_PSET (R317). -/
def R.ROUTE_PSET : RegDesc :=
  ⟨"ROUTE_PSET", 0x5182000, 64, 0, 0, [⟨1048576, 2, 2⟩, ⟨16, 1024, 1024⟩, ⟨8, 2, 2⟩],
   [⟨63, 0, .rw, 0, 18446744073709551615⟩]⟩

/-- SLD_CFG (R351). -/
def R.SLD_CFG : RegDesc :=
  ⟨"SLD_CFG", 0x6000000, 32, 0x400120, 0, [],
   [⟨23, 16, .rw, 0, 255⟩, ⟨8, 8, .rw, 0, 1⟩, ⟨6, 0, .rw, 1, 64⟩]⟩

/-- SLD_WINDOW (R351). -/
def R.SLD_WINDOW : RegDesc :=
  ⟨"SLD_WINDOW", 0x6000004, 32, 0x4000, 0, [],
   [⟨14, 0, .rw, 64, 16384⟩]⟩

/-- SLD_LIFETIME (R351). -/
def R.SLD_LIFETIME : RegDesc :=
  ⟨"SLD_LIFETIME", 0x6000008, 32, 0xc3500, 0, [],
   [⟨31, 0, .rw, 80000, 40000000⟩]⟩

/-- SLD_FUTURE_TOL (R351). -/
def R.SLD_FUTURE_TOL : RegDesc :=
  ⟨"SLD_FUTURE_TOL", 0x600000c, 32, 0xfa0, 0, [],
   [⟨31, 0, .rw, 4, 400000⟩]⟩

/-- SLD_STORE_CFG (R351). -/
def R.SLD_STORE_CFG : RegDesc :=
  ⟨"SLD_STORE_CFG", 0x6000010, 32, 0xc01010, 0, [],
   [⟨23, 16, .rw, 1, 255⟩, ⟨15, 8, .rw, 1, 255⟩, ⟨7, 0, .rw, 1, 64⟩]⟩

/-- SLD_SPILL_BASE (R351). -/
def R.SLD_SPILL_BASE : RegDesc :=
  ⟨"SLD_SPILL_BASE", 0x6000018, 64, 0, 0, [],
   [⟨35, 26, .rw, 0, 767⟩]⟩

/-- SLD_SPILL_SIZE (R351). -/
def R.SLD_SPILL_SIZE : RegDesc :=
  ⟨"SLD_SPILL_SIZE", 0x6000020, 32, 0, 0, [],
   [⟨6, 0, .rw, 0, 64⟩]⟩

/-- SLD_STATUS (R351). -/
def R.SLD_STATUS : RegDesc :=
  ⟨"SLD_STATUS", 0x6000024, 32, 0, 0, [],
   [⟨31, 31, .ro, 0, 1⟩, ⟨12, 0, .ro, 0, 8191⟩]⟩

/-- SLD_CTX_USED (R351). -/
def R.SLD_CTX_USED : RegDesc :=
  ⟨"SLD_CTX_USED", 0x6000028, 32, 0, 0, [],
   [⟨16, 0, .ro, 0, 131071⟩]⟩

/-- SLD_ONDIE_USED (R351). -/
def R.SLD_ONDIE_USED : RegDesc :=
  ⟨"SLD_ONDIE_USED", 0x600002c, 32, 0, 0, [],
   [⟨17, 0, .ro, 0, 262143⟩]⟩

/-- SLD_SPILL_USED (R351). -/
def R.SLD_SPILL_USED : RegDesc :=
  ⟨"SLD_SPILL_USED", 0x6000030, 32, 0, 0, [],
   [⟨24, 0, .ro, 0, 33554431⟩]⟩

/-- SLD_SKEW_MAX (R351). -/
def R.SLD_SKEW_MAX : RegDesc :=
  ⟨"SLD_SKEW_MAX", 0x6000034, 32, 0, 0, [],
   [⟨31, 0, .rc, 0, 4294967295⟩]⟩

/-- SLD_HOLD_MAX (R351). -/
def R.SLD_HOLD_MAX : RegDesc :=
  ⟨"SLD_HOLD_MAX", 0x6000038, 32, 0, 0, [],
   [⟨31, 0, .rc, 0, 4294967295⟩]⟩

/-- SLD_DUP_COUNT (R351). -/
def R.SLD_DUP_COUNT : RegDesc :=
  ⟨"SLD_DUP_COUNT", 0x6000040, 64, 0, 0, [],
   [⟨63, 0, .rc, 0, 18446744073709551615⟩]⟩

/-- SLD_EXPIRE_COUNT (R351). -/
def R.SLD_EXPIRE_COUNT : RegDesc :=
  ⟨"SLD_EXPIRE_COUNT", 0x6000048, 64, 0, 0, [],
   [⟨63, 0, .rc, 0, 18446744073709551615⟩]⟩

/-- SLD_FUTURE_COUNT (R351). -/
def R.SLD_FUTURE_COUNT : RegDesc :=
  ⟨"SLD_FUTURE_COUNT", 0x6000050, 64, 0, 0, [],
   [⟨63, 0, .rc, 0, 18446744073709551615⟩]⟩

/-- SLD_NOCTX_COUNT (R351). -/
def R.SLD_NOCTX_COUNT : RegDesc :=
  ⟨"SLD_NOCTX_COUNT", 0x6000058, 64, 0, 0, [],
   [⟨63, 0, .rc, 0, 18446744073709551615⟩]⟩

/-- SLD_REFUSE_WINDOW_COUNT (R351). -/
def R.SLD_REFUSE_WINDOW_COUNT : RegDesc :=
  ⟨"SLD_REFUSE_WINDOW_COUNT", 0x6000060, 64, 0, 0, [],
   [⟨63, 0, .rc, 0, 18446744073709551615⟩]⟩

/-- SLD_REFUSE_STORE_COUNT (R351). -/
def R.SLD_REFUSE_STORE_COUNT : RegDesc :=
  ⟨"SLD_REFUSE_STORE_COUNT", 0x6000068, 64, 0, 0, [],
   [⟨63, 0, .rc, 0, 18446744073709551615⟩]⟩

/-- SLD_REFUSE_CTX_COUNT (R351). -/
def R.SLD_REFUSE_CTX_COUNT : RegDesc :=
  ⟨"SLD_REFUSE_CTX_COUNT", 0x6000070, 64, 0, 0, [],
   [⟨63, 0, .rc, 0, 18446744073709551615⟩]⟩

/-- SLD_REFUSE_SEAL_COUNT (R351). -/
def R.SLD_REFUSE_SEAL_COUNT : RegDesc :=
  ⟨"SLD_REFUSE_SEAL_COUNT", 0x6000078, 64, 0, 0, [],
   [⟨63, 0, .rc, 0, 18446744073709551615⟩]⟩

/-- SLD_SPILL_COUNT (R351). -/
def R.SLD_SPILL_COUNT : RegDesc :=
  ⟨"SLD_SPILL_COUNT", 0x6000080, 64, 0, 0, [],
   [⟨63, 0, .rc, 0, 18446744073709551615⟩]⟩

/-- SLD_READBACK_COUNT (R351). -/
def R.SLD_READBACK_COUNT : RegDesc :=
  ⟨"SLD_READBACK_COUNT", 0x6000088, 64, 0, 0, [],
   [⟨63, 0, .rc, 0, 18446744073709551615⟩]⟩

/-- SLD_OOO_COUNT (R351). -/
def R.SLD_OOO_COUNT : RegDesc :=
  ⟨"SLD_OOO_COUNT", 0x6000090, 64, 0, 0, [],
   [⟨63, 0, .rc, 0, 18446744073709551615⟩]⟩

/-- SLD_HALT_DISCARD_COUNT (R351). -/
def R.SLD_HALT_DISCARD_COUNT : RegDesc :=
  ⟨"SLD_HALT_DISCARD_COUNT", 0x6000098, 64, 0, 0, [],
   [⟨63, 0, .rc, 0, 18446744073709551615⟩]⟩

/-- SLD_BAD_OUTCOME_COUNT (R351). -/
def R.SLD_BAD_OUTCOME_COUNT : RegDesc :=
  ⟨"SLD_BAD_OUTCOME_COUNT", 0x60000a0, 64, 0, 0, [],
   [⟨63, 0, .rc, 0, 18446744073709551615⟩]⟩

/-- SLD_WIN_LIMITS (R239). -/
def R.SLD_WIN_LIMITS : RegDesc :=
  ⟨"SLD_WIN_LIMITS", 0x6008000, 32, 0x4000002, 0, [⟨16, 7, 7⟩],
   [⟨31, 16, .rw, 1, 16384⟩, ⟨15, 0, .rw, 1, 16384⟩]⟩

/-- SLD_WIN_CTRL (R239). -/
def R.SLD_WIN_CTRL : RegDesc :=
  ⟨"SLD_WIN_CTRL", 0x6008004, 32, 0x7d010cd, 0, [⟨16, 7, 7⟩],
   [⟨31, 16, .rw, 100, 65535⟩, ⟨15, 8, .rw, 1, 255⟩, ⟨7, 0, .rw, 1, 255⟩]⟩

/-- SLD_WIN_RETX (R239). -/
def R.SLD_WIN_RETX : RegDesc :=
  ⟨"SLD_WIN_RETX", 0x6008008, 32, 0x320480, 0, [⟨16, 7, 7⟩],
   [⟨31, 16, .rw, 5, 10000⟩, ⟨15, 8, .rw, 0, 15⟩, ⟨7, 0, .rw, 1, 255⟩]⟩

/-- SLD_WIN_REFUSE (R239). -/
def R.SLD_WIN_REFUSE : RegDesc :=
  ⟨"SLD_WIN_REFUSE", 0x600800c, 32, 0x5400a, 0, [⟨16, 7, 7⟩],
   [⟨31, 16, .rw, 1, 1000⟩, ⟨15, 8, .rw, 1, 255⟩, ⟨7, 0, .rw, 1, 255⟩]⟩

/-- SLD_ACK_CFG (R239). -/
def R.SLD_ACK_CFG : RegDesc :=
  ⟨"SLD_ACK_CFG", 0x6008080, 32, 0x1f41000, 0, [],
   [⟨31, 16, .rw, 50, 10000⟩, ⟨15, 8, .rw, 1, 64⟩]⟩

/-- AML_CTRL (R314). -/
def R.AML_CTRL : RegDesc :=
  ⟨"AML_CTRL", 0x7000000, 32, 0, 0, [],
   [⟨4, 0, .rw, 0, 16⟩]⟩

/-- AML_PHASE_MARGIN (R314). -/
def R.AML_PHASE_MARGIN : RegDesc :=
  ⟨"AML_PHASE_MARGIN", 0x7000004, 32, 0x7d0, 0, [],
   [⟨31, 0, .rw, 0, 1000000⟩]⟩

/-- AML_START_LEAD (R314). -/
def R.AML_START_LEAD : RegDesc :=
  ⟨"AML_START_LEAD", 0x7000008, 32, 0x32, 0, [],
   [⟨31, 0, .rw, 1, 100000⟩]⟩

/-- AML_STATUS (R314). -/
def R.AML_STATUS : RegDesc :=
  ⟨"AML_STATUS", 0x700000c, 32, 0, 0, [],
   [⟨31, 31, .ro, 0, 1⟩, ⟨12, 0, .ro, 0, 8191⟩]⟩

/-- AML_OPEN_COUNT (R314). -/
def R.AML_OPEN_COUNT : RegDesc :=
  ⟨"AML_OPEN_COUNT", 0x7000010, 64, 0, 0, [],
   [⟨63, 0, .rc, 0, 18446744073709551615⟩]⟩

/-- AML_CLOSED_REFUSE_COUNT (R314). -/
def R.AML_CLOSED_REFUSE_COUNT : RegDesc :=
  ⟨"AML_CLOSED_REFUSE_COUNT", 0x7000018, 64, 0, 0, [],
   [⟨63, 0, .rc, 0, 18446744073709551615⟩]⟩

/-- AML_BADIDX_COUNT (R314). -/
def R.AML_BADIDX_COUNT : RegDesc :=
  ⟨"AML_BADIDX_COUNT", 0x7000020, 64, 0, 0, [],
   [⟨63, 0, .rc, 0, 18446744073709551615⟩]⟩

/-- AML_LATE_COUNT (R314). -/
def R.AML_LATE_COUNT : RegDesc :=
  ⟨"AML_LATE_COUNT", 0x7000028, 64, 0, 0, [],
   [⟨63, 0, .rc, 0, 18446744073709551615⟩]⟩

/-- AML_POISON_COUNT (R314). -/
def R.AML_POISON_COUNT : RegDesc :=
  ⟨"AML_POISON_COUNT", 0x7000030, 64, 0, 0, [],
   [⟨63, 0, .rc, 0, 18446744073709551615⟩]⟩

/-- AML_LATE_PHASE_COUNT (R314). -/
def R.AML_LATE_PHASE_COUNT : RegDesc :=
  ⟨"AML_LATE_PHASE_COUNT", 0x7000038, 64, 0, 0, [],
   [⟨63, 0, .rc, 0, 18446744073709551615⟩]⟩

/-- AML_ACC_RESV (R314). -/
def R.AML_ACC_RESV : RegDesc :=
  ⟨"AML_ACC_RESV", 0x7000100, 32, 8, 0, [⟨4, 16, 12⟩],
   [⟨4, 0, .rw, 0, 16⟩]⟩

/-- AML_UNIT_BUSY (R314). -/
def R.AML_UNIT_BUSY : RegDesc :=
  ⟨"AML_UNIT_BUSY", 0x7000200, 64, 0, 0, [⟨8, 16, 12⟩],
   [⟨63, 0, .ro, 0, 18446744073709551615⟩]⟩

/-- AML_UNIT_STATUS (R314). -/
def R.AML_UNIT_STATUS : RegDesc :=
  ⟨"AML_UNIT_STATUS", 0x7000300, 32, 0, 0, [⟨4, 16, 12⟩],
   [⟨28, 16, .ro, 0, 8191⟩, ⟨8, 0, .ro, 0, 511⟩]⟩

/-- AML_SLOT_STATE (R314). -/
def R.AML_SLOT_STATE : RegDesc :=
  ⟨"AML_SLOT_STATE", 0x7001000, 32, 0, 0, [⟨4, 4096, 4096⟩],
   [⟨31, 31, .ro, 0, 1⟩, ⟨16, 0, .ro, 0, 131071⟩]⟩

/-- PORT_STATUS (R425). -/
def R.PORT_STATUS : RegDesc :=
  ⟨"PORT_STATUS", 0x8001000, 32, 0, 0, [⟨65536, 128, 96⟩],
   [⟨31, 31, .ro, 0, 1⟩, ⟨1, 0, .ro, 0, 3⟩]⟩

/-- PORT_EXPECT (R425). -/
def R.PORT_EXPECT : RegDesc :=
  ⟨"PORT_EXPECT", 0x8001008, 32, 0, 0, [⟨65536, 128, 96⟩],
   [⟨31, 31, .rw, 0, 1⟩, ⟨30, 24, .rw, 0, 127⟩, ⟨16, 0, .rw, 0, 131071⟩]⟩

/-- PORT_FEC_HIST (R425). -/
def R.PORT_FEC_HIST : RegDesc :=
  ⟨"PORT_FEC_HIST", 0x8001100, 64, 0, 0, [⟨65536, 128, 96⟩, ⟨8, 17, 17⟩],
   [⟨63, 0, .rc, 0, 18446744073709551615⟩]⟩

/-- LNK_CTRL (R380). -/
def R.LNK_CTRL : RegDesc :=
  ⟨"LNK_CTRL", 0x8002000, 32, 0x30, 0, [⟨65536, 128, 96⟩],
   [⟨5, 4, .rw, 0, 3⟩, ⟨1, 1, .w1s, 0, 1⟩, ⟨0, 0, .rw, 0, 1⟩]⟩

/-- LNK_STATUS (R380). -/
def R.LNK_STATUS : RegDesc :=
  ⟨"LNK_STATUS", 0x8002004, 32, 0, 0, [⟨65536, 128, 96⟩],
   [⟨9, 9, .ro, 0, 1⟩, ⟨8, 8, .ro, 0, 1⟩, ⟨6, 6, .ro, 0, 1⟩, ⟨5, 4, .ro, 0, 3⟩, ⟨3, 0, .ro, 0, 15⟩]⟩

/-- LNK_CREDIT_CFG (R380). -/
def R.LNK_CREDIT_CFG : RegDesc :=
  ⟨"LNK_CREDIT_CFG", 0x8002008, 32, 0x2000011, 0, [⟨65536, 128, 96⟩],
   [⟨27, 16, .rw, 0, 4095⟩, ⟨6, 0, .rw, 17, 64⟩]⟩

/-- LNK_REPLAY_CFG (R380). -/
def R.LNK_REPLAY_CFG : RegDesc :=
  ⟨"LNK_REPLAY_CFG", 0x800200c, 32, 0x2000004, 0, [⟨65536, 128, 96⟩],
   [⟨27, 16, .rw, 64, 4095⟩, ⟨3, 0, .rw, 1, 15⟩]⟩

/-- LNK_REPLAY_TIMEOUT (R380). -/
def R.LNK_REPLAY_TIMEOUT : RegDesc :=
  ⟨"LNK_REPLAY_TIMEOUT", 0x8002010, 32, 0x7530, 0, [⟨65536, 128, 96⟩],
   [⟨31, 0, .rw, 1000, 100000⟩]⟩

/-- LNK_PEER (R380). -/
def R.LNK_PEER : RegDesc :=
  ⟨"LNK_PEER", 0x8002018, 64, 0, 0, [⟨65536, 128, 96⟩],
   [⟨48, 32, .ro, 0, 131071⟩, ⟨7, 7, .ro, 0, 1⟩, ⟨6, 0, .ro, 0, 127⟩]⟩

/-- LNK_SLOT_FAIL_COUNT (R380). -/
def R.LNK_SLOT_FAIL_COUNT : RegDesc :=
  ⟨"LNK_SLOT_FAIL_COUNT", 0x8002020, 64, 0, 0, [⟨65536, 128, 96⟩],
   [⟨63, 0, .rc, 0, 18446744073709551615⟩]⟩

/-- LNK_REPLAY_COUNT (R380). -/
def R.LNK_REPLAY_COUNT : RegDesc :=
  ⟨"LNK_REPLAY_COUNT", 0x8002028, 64, 0, 0, [⟨65536, 128, 96⟩],
   [⟨63, 0, .rc, 0, 18446744073709551615⟩]⟩

/-- LNK_NAK_COUNT (R380). -/
def R.LNK_NAK_COUNT : RegDesc :=
  ⟨"LNK_NAK_COUNT", 0x8002030, 64, 0, 0, [⟨65536, 128, 96⟩],
   [⟨63, 0, .rc, 0, 18446744073709551615⟩]⟩

/-- LNK_BAD_PKT_COUNT (R380). -/
def R.LNK_BAD_PKT_COUNT : RegDesc :=
  ⟨"LNK_BAD_PKT_COUNT", 0x8002038, 64, 0, 0, [⟨65536, 128, 96⟩],
   [⟨63, 0, .rc, 0, 18446744073709551615⟩]⟩

/-- LNK_ECRC_ERR_COUNT (R380). -/
def R.LNK_ECRC_ERR_COUNT : RegDesc :=
  ⟨"LNK_ECRC_ERR_COUNT", 0x8002040, 64, 0, 0, [⟨65536, 128, 96⟩],
   [⟨63, 0, .rc, 0, 18446744073709551615⟩]⟩

/-- LNK_PROTO_ERR_COUNT (R380). -/
def R.LNK_PROTO_ERR_COUNT : RegDesc :=
  ⟨"LNK_PROTO_ERR_COUNT", 0x8002048, 64, 0, 0, [⟨65536, 128, 96⟩],
   [⟨63, 0, .rc, 0, 18446744073709551615⟩]⟩

/-- LNK_RETRAIN_COUNT (R380). -/
def R.LNK_RETRAIN_COUNT : RegDesc :=
  ⟨"LNK_RETRAIN_COUNT", 0x8002050, 64, 0, 0, [⟨65536, 128, 96⟩],
   [⟨63, 0, .rc, 0, 18446744073709551615⟩]⟩

/-- LNK_CREDIT_WAIT (R380). -/
def R.LNK_CREDIT_WAIT : RegDesc :=
  ⟨"LNK_CREDIT_WAIT", 0x8002058, 64, 0, 0, [⟨65536, 128, 96⟩],
   [⟨63, 0, .rc, 0, 18446744073709551615⟩]⟩

/-- SCH_QUANTUM (R400). -/
def R.SCH_QUANTUM : RegDesc :=
  ⟨"SCH_QUANTUM", 0x8003000, 32, 0x40, 0, [⟨65536, 128, 96⟩, ⟨4, 6, 6⟩],
   [⟨11, 0, .rw, 17, 4095⟩]⟩

/-- SCH_TC7_LIMIT (R400). -/
def R.SCH_TC7_LIMIT : RegDesc :=
  ⟨"SCH_TC7_LIMIT", 0x8003018, 32, 0x440064, 0, [⟨65536, 128, 96⟩],
   [⟨27, 16, .rw, 17, 4095⟩, ⟨11, 0, .rw, 1, 3984⟩]⟩

/-- SCH_Q_DEPTH (R400). -/
def R.SCH_Q_DEPTH : RegDesc :=
  ⟨"SCH_Q_DEPTH", 0x8003040, 32, 0, 0, [⟨65536, 128, 96⟩, ⟨4, 8, 8⟩],
   [⟨15, 0, .ro, 0, 65535⟩]⟩

/-- SCH_Q_DEPTH_MAX (R400). -/
def R.SCH_Q_DEPTH_MAX : RegDesc :=
  ⟨"SCH_Q_DEPTH_MAX", 0x8003060, 32, 0, 0, [⟨65536, 128, 96⟩, ⟨4, 8, 8⟩],
   [⟨31, 0, .rc, 0, 4294967295⟩]⟩

/-- SCH_Q_DELAY_MAX (R400). -/
def R.SCH_Q_DELAY_MAX : RegDesc :=
  ⟨"SCH_Q_DELAY_MAX", 0x8003080, 32, 0, 0, [⟨65536, 128, 96⟩, ⟨4, 8, 8⟩],
   [⟨31, 0, .rc, 0, 4294967295⟩]⟩

/-- SCH_SAMPLE (R400). -/
def R.SCH_SAMPLE : RegDesc :=
  ⟨"SCH_SAMPLE", 0x80030a0, 64, 0, 0, [⟨65536, 128, 96⟩, ⟨8, 8, 8⟩],
   [⟨63, 32, .ro, 0, 4294967295⟩, ⟨15, 0, .ro, 0, 65535⟩]⟩

/-- SCH_TX_CELLS (R400). -/
def R.SCH_TX_CELLS : RegDesc :=
  ⟨"SCH_TX_CELLS", 0x8003100, 64, 0, 0, [⟨65536, 128, 96⟩, ⟨8, 8, 8⟩],
   [⟨63, 0, .rc, 0, 18446744073709551615⟩]⟩

/-- SCH_TC7_WAIT_COUNT (R400). -/
def R.SCH_TC7_WAIT_COUNT : RegDesc :=
  ⟨"SCH_TC7_WAIT_COUNT", 0x8003140, 64, 0, 0, [⟨65536, 128, 96⟩],
   [⟨63, 0, .rc, 0, 18446744073709551615⟩]⟩

/-- GATE_CTRL (R400). -/
def R.GATE_CTRL : RegDesc :=
  ⟨"GATE_CTRL", 0x8004000, 32, 0, 0, [⟨65536, 128, 96⟩],
   [⟨31, 31, .rw, 0, 1⟩, ⟨30, 30, .w1s, 0, 1⟩, ⟨29, 29, .w1s, 0, 1⟩]⟩

/-- GATE_STATUS (R400). -/
def R.GATE_STATUS : RegDesc :=
  ⟨"GATE_STATUS", 0x8004004, 32, 0, 0, [⟨65536, 128, 96⟩],
   [⟨31, 31, .ro, 0, 1⟩, ⟨30, 30, .ro, 0, 1⟩, ⟨29, 29, .ro, 0, 1⟩, ⟨28, 28, .ro, 0, 1⟩, ⟨27, 27, .ro, 0, 1⟩, ⟨17, 17, .ro, 0, 1⟩, ⟨16, 16, .ro, 0, 1⟩, ⟨7, 0, .ro, 0, 255⟩]⟩

/-- GATE_PEND_BASE (R400). -/
def R.GATE_PEND_BASE : RegDesc :=
  ⟨"GATE_PEND_BASE", 0x8004008, 64, 0, 0, [⟨65536, 128, 96⟩],
   [⟨63, 0, .rw, 0, 18446744073709551615⟩]⟩

/-- GATE_PEND_CYCLE (R400). -/
def R.GATE_PEND_CYCLE : RegDesc :=
  ⟨"GATE_PEND_CYCLE", 0x8004010, 32, 0x9c40, 0, [⟨65536, 128, 96⟩],
   [⟨31, 0, .rw, 40, 4000000000⟩]⟩

/-- GATE_PEND_LEN (R400). -/
def R.GATE_PEND_LEN : RegDesc :=
  ⟨"GATE_PEND_LEN", 0x8004014, 32, 1, 0, [⟨65536, 128, 96⟩],
   [⟨8, 0, .rw, 1, 256⟩]⟩

/-- GATE_ACT_BASE (R400). -/
def R.GATE_ACT_BASE : RegDesc :=
  ⟨"GATE_ACT_BASE", 0x8004018, 64, 0, 0, [⟨65536, 128, 96⟩],
   [⟨63, 0, .ro, 0, 18446744073709551615⟩]⟩

/-- GATE_ACT_CYCLE (R400). -/
def R.GATE_ACT_CYCLE : RegDesc :=
  ⟨"GATE_ACT_CYCLE", 0x8004020, 32, 0, 0, [⟨65536, 128, 96⟩],
   [⟨31, 0, .ro, 0, 4294967295⟩]⟩

/-- GATE_ACT_LEN (R400). -/
def R.GATE_ACT_LEN : RegDesc :=
  ⟨"GATE_ACT_LEN", 0x8004024, 32, 0, 0, [⟨65536, 128, 96⟩],
   [⟨31, 0, .ro, 0, 4294967295⟩]⟩

/-- GATE_LONGEST (R400). -/
def R.GATE_LONGEST : RegDesc :=
  ⟨"GATE_LONGEST", 0x8004028, 64, 0, 0, [⟨65536, 128, 96⟩],
   [⟨63, 32, .ro, 0, 4294967295⟩, ⟨31, 0, .ro, 0, 4294967295⟩]⟩

/-- GATE_WAIT_COUNT (R400). -/
def R.GATE_WAIT_COUNT : RegDesc :=
  ⟨"GATE_WAIT_COUNT", 0x8004030, 64, 0, 0, [⟨65536, 128, 96⟩],
   [⟨63, 0, .rc, 0, 18446744073709551615⟩]⟩

/-- GATE_OVERRUN_COUNT (R400). -/
def R.GATE_OVERRUN_COUNT : RegDesc :=
  ⟨"GATE_OVERRUN_COUNT", 0x8004038, 64, 0, 0, [⟨65536, 128, 96⟩],
   [⟨63, 0, .rc, 0, 18446744073709551615⟩]⟩

/-- GATE_SPILL_COUNT (R400). -/
def R.GATE_SPILL_COUNT : RegDesc :=
  ⟨"GATE_SPILL_COUNT", 0x8004040, 64, 0, 0, [⟨65536, 128, 96⟩],
   [⟨63, 0, .rc, 0, 18446744073709551615⟩]⟩

/-- GATE_SWITCH_COUNT (R400). -/
def R.GATE_SWITCH_COUNT : RegDesc :=
  ⟨"GATE_SWITCH_COUNT", 0x8004048, 64, 0, 0, [⟨65536, 128, 96⟩],
   [⟨63, 0, .rc, 0, 18446744073709551615⟩]⟩

/-- GATE_LIST (R400). -/
def R.GATE_LIST : RegDesc :=
  ⟨"GATE_LIST", 0x8005000, 64, 0x28, 0, [⟨65536, 128, 96⟩, ⟨2048, 2, 2⟩, ⟨8, 256, 256⟩],
   [⟨33, 33, .rw, 0, 1⟩, ⟨32, 32, .rw, 0, 1⟩, ⟨31, 0, .rw, 40, 4000000000⟩]⟩

/-- SCH_LIM_CFG (R400). -/
def R.SCH_LIM_CFG : RegDesc :=
  ⟨"SCH_LIM_CFG", 0x8800000, 64, 0x11, 0, [⟨65536, 16, 12⟩, ⟨8, 4096, 4096⟩],
   [⟨51, 32, .rw, 0, 400000⟩, ⟨15, 0, .rw, 17, 65535⟩]⟩

/-- SCH_LIM_TOKENS (R400). -/
def R.SCH_LIM_TOKENS : RegDesc :=
  ⟨"SCH_LIM_TOKENS", 0x8808000, 32, 0, 0, [⟨65536, 16, 12⟩, ⟨4, 4096, 4096⟩],
   [⟨31, 16, .ro, 0, 65535⟩, ⟨15, 0, .ro, 0, 65535⟩]⟩

/-- SCH_LIM_WAIT_COUNT (R400). -/
def R.SCH_LIM_WAIT_COUNT : RegDesc :=
  ⟨"SCH_LIM_WAIT_COUNT", 0x880c000, 64, 0, 0, [⟨65536, 16, 12⟩],
   [⟨63, 0, .rc, 0, 18446744073709551615⟩]⟩

/-- SCH_LIM_WHEEL_USED (R400). -/
def R.SCH_LIM_WHEEL_USED : RegDesc :=
  ⟨"SCH_LIM_WHEEL_USED", 0x880c008, 32, 0, 0, [⟨65536, 16, 12⟩],
   [⟨12, 0, .ro, 0, 8191⟩]⟩

/-- SCH_LIM_MAP_BASE (R400). -/
def R.SCH_LIM_MAP_BASE : RegDesc :=
  ⟨"SCH_LIM_MAP_BASE", 0x8f00000, 64, 0, 0, [],
   [⟨35, 21, .rw, 0, 24575⟩]⟩

/-- SCH_LIM_INV (R400). -/
def R.SCH_LIM_INV : RegDesc :=
  ⟨"SCH_LIM_INV", 0x8f00008, 32, 0, 0, [],
   [⟨31, 31, .wo, 0, 1⟩, ⟨19, 0, .wo, 0, 1048575⟩]⟩

/-- SCH_SAMPLE_CTRL (R400). -/
def R.SCH_SAMPLE_CTRL : RegDesc :=
  ⟨"SCH_SAMPLE_CTRL", 0x8f0000c, 32, 0, 0, [],
   [⟨31, 31, .rw, 0, 1⟩, ⟨19, 0, .rw, 1, 1000000⟩]⟩

/-- LANE_CTRL (R425). -/
def R.LANE_CTRL : RegDesc :=
  ⟨"LANE_CTRL", 0x9000000, 32, 0xb, 0, [⟨1024, 128, 96⟩, ⟨512, 2, 2⟩],
   [⟨4, 4, .w1s, 0, 1⟩, ⟨3, 3, .rw, 0, 1⟩, ⟨1, 0, .rw, 0, 3⟩]⟩

/-- LANE_STATUS (R425). -/
def R.LANE_STATUS : RegDesc :=
  ⟨"LANE_STATUS", 0x9000004, 32, 0, 0, [⟨1024, 128, 96⟩, ⟨512, 2, 2⟩],
   [⟨31, 31, .ro, 0, 1⟩, ⟨30, 30, .ro, 0, 1⟩, ⟨29, 29, .ro, 0, 1⟩, ⟨28, 27, .ro, 0, 3⟩, ⟨26, 24, .ro, 0, 7⟩, ⟨23, 23, .ro, 0, 1⟩, ⟨22, 22, .ro, 0, 1⟩, ⟨19, 16, .ro, 0, 15⟩, ⟨15, 8, .ro, 0, 255⟩]⟩

/-- LANE_TX_EQ (R425). -/
def R.LANE_TX_EQ : RegDesc :=
  ⟨"LANE_TX_EQ", 0x9000008, 64, 0, 0, [⟨1024, 128, 96⟩, ⟨512, 2, 2⟩],
   [⟨39, 32, .ro, 0, 255⟩, ⟨31, 24, .ro, 0, 255⟩, ⟨23, 16, .ro, 0, 255⟩, ⟨15, 8, .ro, 0, 255⟩, ⟨7, 0, .ro, 0, 255⟩]⟩

/-- LANE_TX_CFG (R425). -/
def R.LANE_TX_CFG : RegDesc :=
  ⟨"LANE_TX_CFG", 0x9000010, 32, 0x380, 0, [⟨1024, 128, 96⟩, ⟨512, 2, 2⟩],
   [⟨10, 8, .rw, 1, 5⟩, ⟨7, 0, .rw, 64, 128⟩]⟩

/-- LANE_CW_COUNT (R425). -/
def R.LANE_CW_COUNT : RegDesc :=
  ⟨"LANE_CW_COUNT", 0x9000018, 64, 0, 0, [⟨1024, 128, 96⟩, ⟨512, 2, 2⟩],
   [⟨63, 0, .rc, 0, 18446744073709551615⟩]⟩

/-- LANE_SYM_ERR_COUNT (R425). -/
def R.LANE_SYM_ERR_COUNT : RegDesc :=
  ⟨"LANE_SYM_ERR_COUNT", 0x9000020, 64, 0, 0, [⟨1024, 128, 96⟩, ⟨512, 2, 2⟩],
   [⟨63, 0, .rc, 0, 18446744073709551615⟩]⟩

/-- LANE_UNCORR_COUNT (R425). -/
def R.LANE_UNCORR_COUNT : RegDesc :=
  ⟨"LANE_UNCORR_COUNT", 0x9000028, 64, 0, 0, [⟨1024, 128, 96⟩, ⟨512, 2, 2⟩],
   [⟨63, 0, .rc, 0, 18446744073709551615⟩]⟩

/-- LANE_SER_EST (R425). -/
def R.LANE_SER_EST : RegDesc :=
  ⟨"LANE_SER_EST", 0x9000030, 32, 0, 0, [⟨1024, 128, 96⟩, ⟨512, 2, 2⟩],
   [⟨31, 0, .ro, 0, 4294967295⟩]⟩

/-- EYE_CTRL (R425). -/
def R.EYE_CTRL : RegDesc :=
  ⟨"EYE_CTRL", 0x9000100, 32, 0, 0, [⟨1024, 128, 96⟩, ⟨512, 2, 2⟩],
   [⟨31, 31, .w1s, 0, 1⟩, ⟨29, 28, .rw, 0, 3⟩, ⟨21, 16, .rw, 0, 63⟩, ⟨15, 8, .rw, 0, 255⟩, ⟨7, 4, .rw, 0, 15⟩]⟩

/-- EYE_RESULT (R425). -/
def R.EYE_RESULT : RegDesc :=
  ⟨"EYE_RESULT", 0x9000108, 64, 0, 0, [⟨1024, 128, 96⟩, ⟨512, 2, 2⟩],
   [⟨63, 63, .ro, 0, 1⟩, ⟨62, 62, .ro, 0, 1⟩, ⟨39, 0, .ro, 0, 1099511627775⟩]⟩

/-- LANE_RETIRE_CFG (R425). -/
def R.LANE_RETIRE_CFG : RegDesc :=
  ⟨"LANE_RETIRE_CFG", 0x9080000, 64, 0x3c03000f4240, 0, [],
   [⟨47, 40, .rw, 10, 255⟩, ⟨35, 32, .rw, 1, 15⟩, ⟨31, 0, .rw, 1000, 100000000⟩]⟩

/-- LANE_TRAIN_CFG (R425). -/
def R.LANE_TRAIN_CFG : RegDesc :=
  ⟨"LANE_TRAIN_CFG", 0x9080008, 32, 0x64000a, 0, [],
   [⟨31, 16, .rw, 10, 500⟩, ⟨7, 0, .rw, 1, 255⟩]⟩

/-- PMU_ENG_CYCLE (R483). -/
def R.PMU_ENG_CYCLE : RegDesc :=
  ⟨"PMU_ENG_CYCLE", 0xa000000, 64, 0, 0, [⟨64, 512, 384⟩],
   [⟨63, 0, .rw, 0, 18446744073709551615⟩]⟩

/-- PMU_ENG_INSTRET (R483). -/
def R.PMU_ENG_INSTRET : RegDesc :=
  ⟨"PMU_ENG_INSTRET", 0xa000008, 64, 0, 0, [⟨64, 512, 384⟩],
   [⟨63, 0, .rw, 0, 18446744073709551615⟩]⟩

/-- PMU_ENG_PMC (R483). -/
def R.PMU_ENG_PMC : RegDesc :=
  ⟨"PMU_ENG_PMC", 0xa000010, 64, 0, 0, [⟨64, 512, 384⟩, ⟨8, 4, 4⟩],
   [⟨63, 0, .rw, 0, 18446744073709551615⟩]⟩

/-- PMU_ENG_SEL (R483). -/
def R.PMU_ENG_SEL : RegDesc :=
  ⟨"PMU_ENG_SEL", 0xa000030, 32, 0xe000000, 0, [⟨64, 512, 384⟩, ⟨4, 4, 4⟩],
   [⟨31, 31, .rw, 0, 1⟩, ⟨30, 28, .rw, 0, 7⟩, ⟨27, 25, .rw, 0, 7⟩, ⟨24, 16, .rw, 0, 511⟩, ⟨15, 0, .rw, 0, 65535⟩]⟩

/-- PMU_CNT (R483). -/
def R.PMU_CNT : RegDesc :=
  ⟨"PMU_CNT", 0xa010000, 64, 0, 0, [⟨128, 240, 240⟩, ⟨8, 8, 8⟩],
   [⟨63, 0, .rw, 0, 18446744073709551615⟩]⟩

/-- PMU_SEL (R483). -/
def R.PMU_SEL : RegDesc :=
  ⟨"PMU_SEL", 0xa010040, 32, 0xe000000, 0, [⟨128, 240, 240⟩, ⟨4, 8, 8⟩],
   [⟨31, 31, .rw, 0, 1⟩, ⟨30, 28, .rw, 0, 7⟩, ⟨27, 25, .rw, 0, 7⟩, ⟨24, 16, .rw, 0, 511⟩, ⟨15, 0, .rw, 0, 65535⟩]⟩

/-- PMU_CTRL (R483). -/
def R.PMU_CTRL : RegDesc :=
  ⟨"PMU_CTRL", 0xa020000, 32, 0, 0, [],
   [⟨0, 0, .rw, 0, 1⟩]⟩

/-- PMU_USER_READ (R483). -/
def R.PMU_USER_READ : RegDesc :=
  ⟨"PMU_USER_READ", 0xa020004, 32, 0, 0, [],
   [⟨5, 0, .rw, 0, 63⟩]⟩

/-- PMU_DUMP_CTRL (R483). -/
def R.PMU_DUMP_CTRL : RegDesc :=
  ⟨"PMU_DUMP_CTRL", 0xa020008, 32, 0x3e8, 0, [],
   [⟨31, 31, .rw, 0, 1⟩, ⟨27, 21, .rw, 0, 127⟩, ⟨19, 0, .rw, 10, 1000000⟩]⟩

/-- PMU_DUMP_PHASE (R483). -/
def R.PMU_DUMP_PHASE : RegDesc :=
  ⟨"PMU_DUMP_PHASE", 0xa02000c, 32, 0, 0, [],
   [⟨31, 0, .rw, 0, 4294967295⟩]⟩

/-- PMU_DUMP_DEST (R483). -/
def R.PMU_DUMP_DEST : RegDesc :=
  ⟨"PMU_DUMP_DEST", 0xa020010, 64, 0, 0, [],
   [⟨63, 12, .rw, 0, 4503599627370495⟩]⟩

/-- PMU_DUMP_CFG (R483). -/
def R.PMU_DUMP_CFG : RegDesc :=
  ⟨"PMU_DUMP_CFG", 0xa020018, 32, 0, 0, [],
   [⟨31, 31, .rw, 0, 1⟩, ⟨25, 16, .rw, 0, 1023⟩, ⟨15, 0, .rw, 1, 65535⟩]⟩

/-- PMU_DUMP_MISSED_COUNT (R483). -/
def R.PMU_DUMP_MISSED_COUNT : RegDesc :=
  ⟨"PMU_DUMP_MISSED_COUNT", 0xa020020, 64, 0, 0, [],
   [⟨63, 0, .rc, 0, 18446744073709551615⟩]⟩

/-- PMU_SAMP_CTRL (R483). -/
def R.PMU_SAMP_CTRL : RegDesc :=
  ⟨"PMU_SAMP_CTRL", 0xa020028, 32, 0, 0, [],
   [⟨31, 31, .rw, 0, 1⟩, ⟨30, 28, .rw, 0, 7⟩, ⟨27, 25, .rw, 0, 7⟩, ⟨15, 0, .rw, 128, 65535⟩]⟩

/-- PMU_SAMP_MINLAT (R483). -/
def R.PMU_SAMP_MINLAT : RegDesc :=
  ⟨"PMU_SAMP_MINLAT", 0xa02002c, 32, 0, 0, [],
   [⟨31, 0, .rw, 0, 4294967295⟩]⟩

/-- PMU_SAMP_DEST (R483). -/
def R.PMU_SAMP_DEST : RegDesc :=
  ⟨"PMU_SAMP_DEST", 0xa020030, 64, 0, 0, [],
   [⟨63, 12, .rw, 0, 4503599627370495⟩]⟩

/-- PMU_SAMP_CFG (R483). -/
def R.PMU_SAMP_CFG : RegDesc :=
  ⟨"PMU_SAMP_CFG", 0xa020038, 32, 0, 0, [],
   [⟨31, 31, .rw, 0, 1⟩, ⟨25, 16, .rw, 0, 1023⟩, ⟨4, 0, .rw, 6, 24⟩]⟩

/-- PMU_SAMP_WIDX (R483). -/
def R.PMU_SAMP_WIDX : RegDesc :=
  ⟨"PMU_SAMP_WIDX", 0xa02003c, 32, 0, 0, [],
   [⟨31, 0, .ro, 0, 4294967295⟩]⟩

/-- PMU_SAMP_LOST_COUNT (R483). -/
def R.PMU_SAMP_LOST_COUNT : RegDesc :=
  ⟨"PMU_SAMP_LOST_COUNT", 0xa020040, 64, 0, 0, [],
   [⟨63, 0, .rc, 0, 18446744073709551615⟩]⟩

/-- HIST_OWL_EXCLUDED_COUNT (R483). -/
def R.HIST_OWL_EXCLUDED_COUNT : RegDesc :=
  ⟨"HIST_OWL_EXCLUDED_COUNT", 0xa020048, 64, 0, 0, [],
   [⟨63, 0, .rc, 0, 18446744073709551615⟩]⟩

/-- HIST_SEL (R483). -/
def R.HIST_SEL : RegDesc :=
  ⟨"HIST_SEL", 0xa040000, 32, 0, 0, [⟨512, 256, 256⟩],
   [⟨31, 31, .rw, 0, 1⟩, ⟨30, 30, .w1s, 0, 1⟩, ⟨29, 26, .rw, 0, 15⟩, ⟨25, 22, .rw, 0, 15⟩, ⟨20, 16, .rw, 0, 31⟩, ⟨9, 0, .rw, 0, 1023⟩]⟩

/-- HIST_FILT (R483). -/
def R.HIST_FILT : RegDesc :=
  ⟨"HIST_FILT", 0xa040008, 64, 0, 0, [⟨512, 256, 256⟩],
   [⟨7, 0, .rw, 0, 255⟩, ⟨15, 8, .rw, 0, 255⟩, ⟨17, 16, .rw, 0, 3⟩, ⟨18, 18, .rw, 0, 1⟩, ⟨27, 19, .rw, 0, 511⟩, ⟨28, 28, .rw, 0, 1⟩, ⟨32, 29, .rw, 0, 15⟩]⟩

/-- HIST_COUNT (R483). -/
def R.HIST_COUNT : RegDesc :=
  ⟨"HIST_COUNT", 0xa040010, 64, 0, 0, [⟨512, 256, 256⟩],
   [⟨63, 0, .ro, 0, 18446744073709551615⟩]⟩

/-- HIST_SUM (R483). -/
def R.HIST_SUM : RegDesc :=
  ⟨"HIST_SUM", 0xa040018, 64, 0, 0, [⟨512, 256, 256⟩],
   [⟨63, 0, .ro, 0, 18446744073709551615⟩]⟩

/-- HIST_MIN (R483). -/
def R.HIST_MIN : RegDesc :=
  ⟨"HIST_MIN", 0xa040020, 64, 0xffffffffffffffff, 0, [⟨512, 256, 256⟩],
   [⟨63, 0, .ro, 0, 18446744073709551615⟩]⟩

/-- HIST_MAX (R483). -/
def R.HIST_MAX : RegDesc :=
  ⟨"HIST_MAX", 0xa040028, 64, 0, 0, [⟨512, 256, 256⟩],
   [⟨63, 0, .ro, 0, 18446744073709551615⟩]⟩

/-- HIST_BIN (R483). -/
def R.HIST_BIN : RegDesc :=
  ⟨"HIST_BIN", 0xa040040, 64, 0, 0, [⟨512, 256, 256⟩, ⟨8, 32, 32⟩],
   [⟨63, 0, .ro, 0, 18446744073709551615⟩]⟩

/-- The registers of one block of Table 23-1. -/
def regsDev : List RegDesc :=
  [R.DEV_ID, R.DEV_REV, R.DEV_BOOT_STATUS, R.DEV_CTRL, R.DEV_SVN, R.DEV_SERIAL]

/-- The registers of one block of Table 23-1. -/
def regsInv : List RegDesc :=
  [R.INV_FT, R.INV_LOCAL, R.INV_CTRL, R.INV_STATUS, R.INV_ROOT_PRIO, R.INV_EVENT, R.INV_ROOT_ID,
   R.INV_STANDBY_ID, R.INV_SYNC_INT, R.INV_ANNOUNCE_INT, R.INV_SERVO, R.INV_SLEW_MAX, R.INV_STEP_LIMIT,
   R.INV_MAX_DEPTH, R.INV_FREQ_ADJ, R.INV_OFFSET, R.INV_HOLD_DRIFT, R.INV_HOLD_LIMIT, R.INV_HOLD_ERR,
   R.INV_FT_SET, R.INV_PPS_OFFSET, R.INV_PPSOUT_OFFSET, R.INV_PPSOUT_WIDTH, R.INV_PPS_SKEW, R.INV_PORT_TIME,
   R.INV_PORT_DELAY]

/-- The registers of one block of Table 23-1. -/
def regsTgf : List RegDesc :=
  [R.TGF_CTRL, R.TGF_STATUS, R.TGF_HIST_CTRL, R.TGF_HIST_ACK, R.TGF_MERGE_WINDOW, R.TGF_SAFE_CFG,
   R.TGF_INJECT, R.TGF_RETEST, R.TGF_RETEST_STATUS, R.TGF_RETEST_ADDR, R.TGF_HBM_RETIRE,
   R.TGF_POST_FREEZE_COUNT, R.TGF_EVENT_LOST_COUNT, R.TGF_CLASS_COUNT, R.TGF_HIST, R.TGF_POST_FATAL,
   R.TGF_SRC_COUNT]

/-- The registers of one block of Table 23-1. -/
def regsLife : List RegDesc :=
  [R.LIFE_CTRL, R.LIFE_STATUS, R.LIFE_COMMIT_CFG, R.LIFE_SNAP_CFG, R.LIFE_EYE_CFG, R.LIFE_WIN_SEL,
   R.LIFE_COMMIT_COUNT, R.LIFE_CRC_FIX_COUNT, R.LIFE_FATAL_COUNT, R.LIFE_LOG_WRAPS, R.LIFE_WIN]

/-- The registers of one block of Table 23-1. -/
def regsPwr : List RegDesc :=
  [R.PWR_STATUS, R.PWR_WAKE_EN, R.PWR_IDLE_CHECK, R.PWR_WAKE, R.PWR_RET_FAIL, R.PWR_DOZE_COUNT,
   R.PWR_DEEP_COUNT, R.PWR_WAKE_FT, R.CLK_CTRL, R.CLK_IO_SLEW, R.CLK_AVS_VSET, R.THERM_STATUS, R.THERM_CFG,
   R.THERM_THROTTLE_TIME, R.THERM_TEMP]

/-- The registers of one block of Table 23-1. -/
def regsHif : List RegDesc :=
  [R.HIF_LINK_CFG, R.HIF_ATT_STATUS, R.HIF_VF_ALLOC, R.HIF_L1_IDLE, R.HIF_WAKE_CFG, R.HIF_STATUS,
   R.HIF_POISON_COUNT, R.HIF_CPL_TIMEOUT_COUNT, R.HIF_UR_COUNT, R.HIF_WAKE_COUNT, R.HIF_RX_HELD_REFUSE_COUNT,
   R.HIF_NOMASTER_COUNT, R.HIF_MOVER_BUSY, R.HIF_FUNC_STATE, R.HIF_CRING_BASE, R.HIF_CRING_CFG,
   R.HIF_CCQ_BASE, R.HIF_CCQ_CFG, R.HIF_CRING_DB, R.HIF_CRING_STATUS, R.HIF_ADAPTER_RESET]

/-- The registers of one block of Table 23-1. -/
def regsRing : List RegDesc :=
  [R.RING_CQ_POLL, R.RING_DB_STALE_COUNT, R.RING_DB_RANGE_COUNT, R.RING_DB_REJECT_COUNT,
   R.RING_OWN_STOP_COUNT, R.RING_CQ_READ_COUNT, R.RING_MALFORMED_INFO, R.RING_STALL_TIMEOUT,
   R.RING_POOL_USED, R.RING_ABORT_COUNT, R.RING_ARB_CTRL, R.RING_FUNC_ARB, R.RING_GROUP_ARB, R.RING_Q_STATE,
   R.RING_CQ_STATE]

/-- The registers of one block of Table 23-1. -/
def regsXlt : List RegDesc :=
  [R.XLT_ASK_BASE, R.XLT_MAXAGE, R.XLT_STATUS, R.XLT_WALK_COUNT, R.XLT_WALK_FAULT_COUNT, R.XLT_INV_COUNT,
   R.XLT_MAXAGE_DROP_COUNT, R.XLT_FAULT_LOST_COUNT, R.XLT_ILLEGAL_INFO, R.XLT_ILLEGAL_ADDR, R.XLT_MMIO_BASE,
   R.XLT_MMIO_LIMIT, R.XLT_REVOKE_CTRL, R.XLT_REVOKE_FT, R.XLT_REVOKE_DRAIN_FT, R.XLT_KEY_REFUSE_COUNT,
   R.XLT_KEY_INVALID_COUNT, R.XLT_REVOKE_SLOW_COUNT, R.XLT_REVOKE_COUNT]

/-- The registers of one block of Table 23-1. -/
def regsClu : List RegDesc :=
  [R.CLU_CTRL, R.CLU_STATUS, R.CLU_WD_GRACE, R.CLU_RETIRE_CFG, R.CLU_CSM_UWIN, R.CLU_HT_STAGE0,
   R.CLU_HT_STAGE1, R.CLU_HT_COMMIT, R.CLU_LOST_COUNT, R.CLU_EXC_COUNT, R.CLU_PARITY_COUNT, R.CLU_MATCH_CFG,
   R.CLU_MATCH_EAGER, R.CLU_MATCH_UBUF_BASE, R.CLU_MATCH_UBUF_BLOCKS, R.CLU_MATCH_STATUS,
   R.CLU_MATCH_CMD_COUNT, R.CLU_MATCH_EXAMINED_COUNT, R.CLU_MATCH_UNEXP_COUNT, R.CLU_MATCH_REFUSE_COUNT,
   R.CLU_MATCH_SEARCH_MAX]

/-- The registers of one block of Table 23-1. -/
def regsWf : List RegDesc :=
  [R.WF_CFG, R.WF_STATUS, R.WF_VISIBLE, R.WF_COMMIT_COUNT, R.WF_REWIND_COUNT, R.WF_FULL_COUNT,
   R.WF_SWAP_COUNT, R.WF_ECC_COUNT, R.WF_WAIT_MAX, R.WF_STEER]

/-- The registers of one block of Table 23-1. -/
def regsRoute : List RegDesc :=
  [R.ROUTE_CFG, R.ROUTE_TC_CFG, R.ROUTE_SELF_DN, R.ROUTE_SELF_POS, R.ROUTE_EPOCH_CTRL, R.ROUTE_EPOCH_STATUS,
   R.ROUTE_SWITCH_FT, R.ROUTE_DRAIN_END_FT, R.ROUTE_EPOCH_GUARD, R.ROUTE_HOLD, R.ROUTE_EPT_BASE,
   R.ROUTE_EPT_CFG, R.ROUTE_EPT_INV, R.ROUTE_FM_PFS, R.ROUTE_HOPLIMIT_COUNT, R.ROUTE_STALE_EPOCH_COUNT,
   R.ROUTE_NOROUTE_COUNT, R.ROUTE_NOPATH_COUNT, R.ROUTE_EXPIRE_COUNT, R.ROUTE_NM_COUNT,
   R.ROUTE_EPT_MISS_COUNT, R.ROUTE_WRITE_REFUSE_COUNT, R.ROUTE_SWITCH_COUNT, R.ROUTE_NOTREADY_COUNT,
   R.ROUTE_DEST, R.ROUTE_GROUP, R.ROUTE_ROW, R.ROUTE_COLUMN, R.ROUTE_PORT, R.ROUTE_PSET]

/-- The registers of one block of Table 23-1. -/
def regsSld : List RegDesc :=
  [R.SLD_CFG, R.SLD_WINDOW, R.SLD_LIFETIME, R.SLD_FUTURE_TOL, R.SLD_STORE_CFG, R.SLD_SPILL_BASE,
   R.SLD_SPILL_SIZE, R.SLD_STATUS, R.SLD_CTX_USED, R.SLD_ONDIE_USED, R.SLD_SPILL_USED, R.SLD_SKEW_MAX,
   R.SLD_HOLD_MAX, R.SLD_DUP_COUNT, R.SLD_EXPIRE_COUNT, R.SLD_FUTURE_COUNT, R.SLD_NOCTX_COUNT,
   R.SLD_REFUSE_WINDOW_COUNT, R.SLD_REFUSE_STORE_COUNT, R.SLD_REFUSE_CTX_COUNT, R.SLD_REFUSE_SEAL_COUNT,
   R.SLD_SPILL_COUNT, R.SLD_READBACK_COUNT, R.SLD_OOO_COUNT, R.SLD_HALT_DISCARD_COUNT,
   R.SLD_BAD_OUTCOME_COUNT, R.SLD_WIN_LIMITS, R.SLD_WIN_CTRL, R.SLD_WIN_RETX, R.SLD_WIN_REFUSE, R.SLD_ACK_CFG]

/-- The registers of one block of Table 23-1. -/
def regsAml : List RegDesc :=
  [R.AML_CTRL, R.AML_PHASE_MARGIN, R.AML_START_LEAD, R.AML_STATUS, R.AML_OPEN_COUNT,
   R.AML_CLOSED_REFUSE_COUNT, R.AML_BADIDX_COUNT, R.AML_LATE_COUNT, R.AML_POISON_COUNT,
   R.AML_LATE_PHASE_COUNT, R.AML_ACC_RESV, R.AML_UNIT_BUSY, R.AML_UNIT_STATUS, R.AML_SLOT_STATE]

/-- The registers of one block of Table 23-1. -/
def regsPort : List RegDesc :=
  [R.PORT_STATUS, R.PORT_EXPECT, R.PORT_FEC_HIST, R.LNK_CTRL, R.LNK_STATUS, R.LNK_CREDIT_CFG,
   R.LNK_REPLAY_CFG, R.LNK_REPLAY_TIMEOUT, R.LNK_PEER, R.LNK_SLOT_FAIL_COUNT, R.LNK_REPLAY_COUNT,
   R.LNK_NAK_COUNT, R.LNK_BAD_PKT_COUNT, R.LNK_ECRC_ERR_COUNT, R.LNK_PROTO_ERR_COUNT, R.LNK_RETRAIN_COUNT,
   R.LNK_CREDIT_WAIT, R.SCH_QUANTUM, R.SCH_TC7_LIMIT, R.SCH_Q_DEPTH, R.SCH_Q_DEPTH_MAX, R.SCH_Q_DELAY_MAX,
   R.SCH_SAMPLE, R.SCH_TX_CELLS, R.SCH_TC7_WAIT_COUNT, R.GATE_CTRL, R.GATE_STATUS, R.GATE_PEND_BASE,
   R.GATE_PEND_CYCLE, R.GATE_PEND_LEN, R.GATE_ACT_BASE, R.GATE_ACT_CYCLE, R.GATE_ACT_LEN, R.GATE_LONGEST,
   R.GATE_WAIT_COUNT, R.GATE_OVERRUN_COUNT, R.GATE_SPILL_COUNT, R.GATE_SWITCH_COUNT, R.GATE_LIST,
   R.SCH_LIM_CFG, R.SCH_LIM_TOKENS, R.SCH_LIM_WAIT_COUNT, R.SCH_LIM_WHEEL_USED, R.SCH_LIM_MAP_BASE,
   R.SCH_LIM_INV, R.SCH_SAMPLE_CTRL]

/-- The registers of one block of Table 23-1. -/
def regsLane : List RegDesc :=
  [R.LANE_CTRL, R.LANE_STATUS, R.LANE_TX_EQ, R.LANE_TX_CFG, R.LANE_CW_COUNT, R.LANE_SYM_ERR_COUNT,
   R.LANE_UNCORR_COUNT, R.LANE_SER_EST, R.EYE_CTRL, R.EYE_RESULT, R.LANE_RETIRE_CFG, R.LANE_TRAIN_CFG]

/-- The registers of one block of Table 23-1. -/
def regsPmu : List RegDesc :=
  [R.PMU_ENG_CYCLE, R.PMU_ENG_INSTRET, R.PMU_ENG_PMC, R.PMU_ENG_SEL, R.PMU_CNT, R.PMU_SEL, R.PMU_CTRL,
   R.PMU_USER_READ, R.PMU_DUMP_CTRL, R.PMU_DUMP_PHASE, R.PMU_DUMP_DEST, R.PMU_DUMP_CFG,
   R.PMU_DUMP_MISSED_COUNT, R.PMU_SAMP_CTRL, R.PMU_SAMP_MINLAT, R.PMU_SAMP_DEST, R.PMU_SAMP_CFG,
   R.PMU_SAMP_WIDX, R.PMU_SAMP_LOST_COUNT, R.HIST_OWL_EXCLUDED_COUNT, R.HIST_SEL, R.HIST_FILT, R.HIST_COUNT,
   R.HIST_SUM, R.HIST_MIN, R.HIST_MAX, R.HIST_BIN]

/-- Every register of control space, and the registers of PF BAR0 (Tables 6-8 and 7-7) under addresses of the
model's own above 2^32. -/
def allRegs : List RegDesc :=
  regsDev ++ regsInv ++ regsTgf ++ regsLife ++ regsPwr ++ regsHif ++ regsRing ++ regsXlt ++ regsClu ++ regsWf ++ regsRoute ++ regsSld ++ regsAml ++ regsPort ++ regsLane ++ regsPmu

/-- DEV_ID.VENDOR (R503). -/
def F.DEV_ID_VENDOR : Fld := ⟨R.DEV_ID, 31, 16⟩
/-- DEV_ID.DEVICE (R503). -/
def F.DEV_ID_DEVICE : Fld := ⟨R.DEV_ID, 15, 0⟩
/-- DEV_REV.CODE (R503). -/
def F.DEV_REV_CODE : Fld := ⟨R.DEV_REV, 9, 8⟩
/-- DEV_REV.REV (R503). -/
def F.DEV_REV_REV : Fld := ⟨R.DEV_REV, 7, 0⟩
/-- DEV_BOOT_STATUS.DONE (R503). -/
def F.DEV_BOOT_STATUS_DONE : Fld := ⟨R.DEV_BOOT_STATUS, 31, 31⟩
/-- DEV_BOOT_STATUS.FAILED (R503). -/
def F.DEV_BOOT_STATUS_FAILED : Fld := ⟨R.DEV_BOOT_STATUS, 30, 30⟩
/-- DEV_BOOT_STATUS.SLOT (R503). -/
def F.DEV_BOOT_STATUS_SLOT : Fld := ⟨R.DEV_BOOT_STATUS, 29, 28⟩
/-- DEV_BOOT_STATUS.CAUSE (R503). -/
def F.DEV_BOOT_STATUS_CAUSE : Fld := ⟨R.DEV_BOOT_STATUS, 15, 8⟩
/-- DEV_BOOT_STATUS.STAGE (R503). -/
def F.DEV_BOOT_STATUS_STAGE : Fld := ⟨R.DEV_BOOT_STATUS, 3, 0⟩
/-- DEV_CTRL.KEY (R503). -/
def F.DEV_CTRL_KEY : Fld := ⟨R.DEV_CTRL, 31, 16⟩
/-- DEV_CTRL.SVN_COMMIT (R503). -/
def F.DEV_CTRL_SVN_COMMIT : Fld := ⟨R.DEV_CTRL, 2, 2⟩
/-- DEV_CTRL.WARM (R503). -/
def F.DEV_CTRL_WARM : Fld := ⟨R.DEV_CTRL, 1, 1⟩
/-- DEV_CTRL.RESET (R503). -/
def F.DEV_CTRL_RESET : Fld := ⟨R.DEV_CTRL, 0, 0⟩
/-- INV_CTRL.REACQUIRE (R57). -/
def F.INV_CTRL_REACQUIRE : Fld := ⟨R.INV_CTRL, 5, 5⟩
/-- INV_CTRL.PPSOUT_EN (R57). -/
def F.INV_CTRL_PPSOUT_EN : Fld := ⟨R.INV_CTRL, 4, 4⟩
/-- INV_CTRL.PPS_EN (R57). -/
def F.INV_CTRL_PPS_EN : Fld := ⟨R.INV_CTRL, 3, 3⟩
/-- INV_CTRL.REF10M_EN (R57). -/
def F.INV_CTRL_REF10M_EN : Fld := ⟨R.INV_CTRL, 2, 2⟩
/-- INV_CTRL.ROOT_ELIGIBLE (R57). -/
def F.INV_CTRL_ROOT_ELIGIBLE : Fld := ⟨R.INV_CTRL, 1, 1⟩
/-- INV_CTRL.ENABLE (R57). -/
def F.INV_CTRL_ENABLE : Fld := ⟨R.INV_CTRL, 0, 0⟩
/-- INV_STATUS.VALID (R57). -/
def F.INV_STATUS_VALID : Fld := ⟨R.INV_STATUS, 31, 31⟩
/-- INV_STATUS.SPEC_MET (R57). -/
def F.INV_STATUS_SPEC_MET : Fld := ⟨R.INV_STATUS, 30, 30⟩
/-- INV_STATUS.HOLDOVER (R57). -/
def F.INV_STATUS_HOLDOVER : Fld := ⟨R.INV_STATUS, 29, 29⟩
/-- INV_STATUS.EXT_LOCK (R57). -/
def F.INV_STATUS_EXT_LOCK : Fld := ⟨R.INV_STATUS, 28, 28⟩
/-- INV_STATUS.IS_STANDBY (R57). -/
def F.INV_STATUS_IS_STANDBY : Fld := ⟨R.INV_STATUS, 27, 27⟩
/-- INV_STATUS.DEPTH (R57). -/
def F.INV_STATUS_DEPTH : Fld := ⟨R.INV_STATUS, 19, 16⟩
/-- INV_STATUS.PARENT_VALID (R57). -/
def F.INV_STATUS_PARENT_VALID : Fld := ⟨R.INV_STATUS, 15, 15⟩
/-- INV_STATUS.PARENT_PORT (R57). -/
def F.INV_STATUS_PARENT_PORT : Fld := ⟨R.INV_STATUS, 14, 8⟩
/-- INV_STATUS.STATE (R57). -/
def F.INV_STATUS_STATE : Fld := ⟨R.INV_STATUS, 2, 0⟩
/-- INV_ROOT_PRIO.PRIO (R57). -/
def F.INV_ROOT_PRIO_PRIO : Fld := ⟨R.INV_ROOT_PRIO, 7, 0⟩
/-- INV_EVENT.PARENT_CHANGE (R57). -/
def F.INV_EVENT_PARENT_CHANGE : Fld := ⟨R.INV_EVENT, 8, 8⟩
/-- INV_EVENT.SPEC_LOST (R57). -/
def F.INV_EVENT_SPEC_LOST : Fld := ⟨R.INV_EVENT, 7, 7⟩
/-- INV_EVENT.REF10M_LOSS (R57). -/
def F.INV_EVENT_REF10M_LOSS : Fld := ⟨R.INV_EVENT, 6, 6⟩
/-- INV_EVENT.PPS_LOSS (R57). -/
def F.INV_EVENT_PPS_LOSS : Fld := ⟨R.INV_EVENT, 5, 5⟩
/-- INV_EVENT.BECAME_ROOT (R57). -/
def F.INV_EVENT_BECAME_ROOT : Fld := ⟨R.INV_EVENT, 4, 4⟩
/-- INV_EVENT.ROOT_CHANGE (R57). -/
def F.INV_EVENT_ROOT_CHANGE : Fld := ⟨R.INV_EVENT, 3, 3⟩
/-- INV_EVENT.UNSYNC (R57). -/
def F.INV_EVENT_UNSYNC : Fld := ⟨R.INV_EVENT, 2, 2⟩
/-- INV_EVENT.HOLDOVER_LONG (R57). -/
def F.INV_EVENT_HOLDOVER_LONG : Fld := ⟨R.INV_EVENT, 1, 1⟩
/-- INV_EVENT.HOLDOVER_ENTER (R57). -/
def F.INV_EVENT_HOLDOVER_ENTER : Fld := ⟨R.INV_EVENT, 0, 0⟩
/-- INV_ROOT_ID.GEN (R57). -/
def F.INV_ROOT_ID_GEN : Fld := ⟨R.INV_ROOT_ID, 31, 24⟩
/-- INV_ROOT_ID.DN (R57). -/
def F.INV_ROOT_ID_DN : Fld := ⟨R.INV_ROOT_ID, 16, 0⟩
/-- INV_STANDBY_ID.VALID (R57). -/
def F.INV_STANDBY_ID_VALID : Fld := ⟨R.INV_STANDBY_ID, 31, 31⟩
/-- INV_STANDBY_ID.DN (R57). -/
def F.INV_STANDBY_ID_DN : Fld := ⟨R.INV_STANDBY_ID, 16, 0⟩
/-- INV_SERVO.KP_SHIFT (R57). -/
def F.INV_SERVO_KP_SHIFT : Fld := ⟨R.INV_SERVO, 14, 10⟩
/-- INV_SERVO.KI_SHIFT (R57). -/
def F.INV_SERVO_KI_SHIFT : Fld := ⟨R.INV_SERVO, 9, 5⟩
/-- INV_SERVO.LOCK_THRESH (R57). -/
def F.INV_SERVO_LOCK_THRESH : Fld := ⟨R.INV_SERVO, 4, 0⟩
/-- INV_MAX_DEPTH.DEPTH (R57). -/
def F.INV_MAX_DEPTH_DEPTH : Fld := ⟨R.INV_MAX_DEPTH, 3, 0⟩
/-- INV_PORT_TIME.TIME_EN (R57). -/
def F.INV_PORT_TIME_TIME_EN : Fld := ⟨R.INV_PORT_TIME, 31, 31⟩
/-- INV_PORT_TIME.RANK (R57). -/
def F.INV_PORT_TIME_RANK : Fld := ⟨R.INV_PORT_TIME, 30, 29⟩
/-- INV_PORT_TIME.ASYM (R57). -/
def F.INV_PORT_TIME_ASYM : Fld := ⟨R.INV_PORT_TIME, 19, 0⟩
/-- TGF_CTRL.INJECT_LOCK (R459). -/
def F.TGF_CTRL_INJECT_LOCK : Fld := ⟨R.TGF_CTRL, 31, 31⟩
/-- TGF_CTRL.INJECT_EN (R459). -/
def F.TGF_CTRL_INJECT_EN : Fld := ⟨R.TGF_CTRL, 30, 30⟩
/-- TGF_CTRL.FAULTN_ADAPTER (R459). -/
def F.TGF_CTRL_FAULTN_ADAPTER : Fld := ⟨R.TGF_CTRL, 29, 29⟩
/-- TGF_CTRL.LOG_CORRECTED (R459). -/
def F.TGF_CTRL_LOG_CORRECTED : Fld := ⟨R.TGF_CTRL, 28, 28⟩
/-- TGF_CTRL.EVENT_CLUSTER (R459). -/
def F.TGF_CTRL_EVENT_CLUSTER : Fld := ⟨R.TGF_CTRL, 5, 0⟩
/-- TGF_STATUS.FROZEN (R459). -/
def F.TGF_STATUS_FROZEN : Fld := ⟨R.TGF_STATUS, 31, 31⟩
/-- TGF_STATUS.SAFE_STATE (R459). -/
def F.TGF_STATUS_SAFE_STATE : Fld := ⟨R.TGF_STATUS, 30, 30⟩
/-- TGF_STATUS.ADAPTER_HALTED (R459). -/
def F.TGF_STATUS_ADAPTER_HALTED : Fld := ⟨R.TGF_STATUS, 29, 29⟩
/-- TGF_STATUS.FAULT_N (R459). -/
def F.TGF_STATUS_FAULT_N : Fld := ⟨R.TGF_STATUS, 28, 28⟩
/-- TGF_STATUS.POST_VALID (R459). -/
def F.TGF_STATUS_POST_VALID : Fld := ⟨R.TGF_STATUS, 27, 27⟩
/-- TGF_STATUS.INJECT_REFUSED (R459). -/
def F.TGF_STATUS_INJECT_REFUSED : Fld := ⟨R.TGF_STATUS, 26, 26⟩
/-- TGF_STATUS.HIGHEST (R459). -/
def F.TGF_STATUS_HIGHEST : Fld := ⟨R.TGF_STATUS, 25, 23⟩
/-- TGF_STATUS.COUNT (R459). -/
def F.TGF_STATUS_COUNT : Fld := ⟨R.TGF_STATUS, 13, 8⟩
/-- TGF_STATUS.NEXT (R459). -/
def F.TGF_STATUS_NEXT : Fld := ⟨R.TGF_STATUS, 4, 0⟩
/-- TGF_HIST_CTRL.UNFREEZE (R459). -/
def F.TGF_HIST_CTRL_UNFREEZE : Fld := ⟨R.TGF_HIST_CTRL, 31, 31⟩
/-- TGF_SAFE_CFG.TXOFF (R459). -/
def F.TGF_SAFE_CFG_TXOFF : Fld := ⟨R.TGF_SAFE_CFG, 15, 0⟩
/-- TGF_INJECT.GO (R459). -/
def F.TGF_INJECT_GO : Fld := ⟨R.TGF_INJECT, 63, 63⟩
/-- TGF_INJECT.MODE (R459). -/
def F.TGF_INJECT_MODE : Fld := ⟨R.TGF_INJECT, 62, 62⟩
/-- TGF_INJECT.CODE (R459). -/
def F.TGF_INJECT_CODE : Fld := ⟨R.TGF_INJECT, 47, 32⟩
/-- TGF_INJECT.SOURCE (R459). -/
def F.TGF_INJECT_SOURCE : Fld := ⟨R.TGF_INJECT, 31, 16⟩
/-- TGF_RETEST.GO (R459). -/
def F.TGF_RETEST_GO : Fld := ⟨R.TGF_RETEST, 31, 31⟩
/-- TGF_RETEST.SOURCE (R459). -/
def F.TGF_RETEST_SOURCE : Fld := ⟨R.TGF_RETEST, 15, 0⟩
/-- TGF_RETEST_STATUS.RESULT (R459). -/
def F.TGF_RETEST_STATUS_RESULT : Fld := ⟨R.TGF_RETEST_STATUS, 1, 0⟩
/-- TGF_RETEST_ADDR.PAGE (R459). -/
def F.TGF_RETEST_ADDR_PAGE : Fld := ⟨R.TGF_RETEST_ADDR, 35, 12⟩
/-- TGF_HBM_RETIRE.WINDOW (R459). -/
def F.TGF_HBM_RETIRE_WINDOW : Fld := ⟨R.TGF_HBM_RETIRE, 23, 8⟩
/-- TGF_HBM_RETIRE.COUNT (R459). -/
def F.TGF_HBM_RETIRE_COUNT : Fld := ⟨R.TGF_HBM_RETIRE, 7, 0⟩
/-- LIFE_CTRL.COMMIT (R484). -/
def F.LIFE_CTRL_COMMIT : Fld := ⟨R.LIFE_CTRL, 0, 0⟩
/-- LIFE_STATUS.READY (R484). -/
def F.LIFE_STATUS_READY : Fld := ⟨R.LIFE_STATUS, 31, 31⟩
/-- LIFE_STATUS.BUSY (R484). -/
def F.LIFE_STATUS_BUSY : Fld := ⟨R.LIFE_STATUS, 30, 30⟩
/-- LIFE_STATUS.FATAL_INCOMPLETE (R484). -/
def F.LIFE_STATUS_FATAL_INCOMPLETE : Fld := ⟨R.LIFE_STATUS, 29, 29⟩
/-- LIFE_STATUS.SET_INVALID (R484). -/
def F.LIFE_STATUS_SET_INVALID : Fld := ⟨R.LIFE_STATUS, 28, 28⟩
/-- LIFE_STATUS.ACC_INVALID (R484). -/
def F.LIFE_STATUS_ACC_INVALID : Fld := ⟨R.LIFE_STATUS, 27, 27⟩
/-- LIFE_WIN_SEL.PAGE (R484). -/
def F.LIFE_WIN_SEL_PAGE : Fld := ⟨R.LIFE_WIN_SEL, 11, 0⟩
/-- PWR_STATUS.WAKE_SRC (R503). -/
def F.PWR_STATUS_WAKE_SRC : Fld := ⟨R.PWR_STATUS, 11, 8⟩
/-- PWR_STATUS.STATE (R503). -/
def F.PWR_STATUS_STATE : Fld := ⟨R.PWR_STATUS, 2, 0⟩
/-- PWR_WAKE_EN.SIDEBAND (R503). -/
def F.PWR_WAKE_EN_SIDEBAND : Fld := ⟨R.PWR_WAKE_EN, 2, 2⟩
/-- PWR_WAKE_EN.HOST (R503). -/
def F.PWR_WAKE_EN_HOST : Fld := ⟨R.PWR_WAKE_EN, 1, 1⟩
/-- PWR_WAKE_EN.FABRIC (R503). -/
def F.PWR_WAKE_EN_FABRIC : Fld := ⟨R.PWR_WAKE_EN, 0, 0⟩
/-- PWR_WAKE.WAKE (R503). -/
def F.PWR_WAKE_WAKE : Fld := ⟨R.PWR_WAKE, 0, 0⟩
/-- PWR_RET_FAIL.VALID (R503). -/
def F.PWR_RET_FAIL_VALID : Fld := ⟨R.PWR_RET_FAIL, 63, 63⟩
/-- PWR_RET_FAIL.KIND (R503). -/
def F.PWR_RET_FAIL_KIND : Fld := ⟨R.PWR_RET_FAIL, 62, 60⟩
/-- PWR_RET_FAIL.BANKS (R503). -/
def F.PWR_RET_FAIL_BANKS : Fld := ⟨R.PWR_RET_FAIL, 43, 32⟩
/-- PWR_RET_FAIL.FIRST (R503). -/
def F.PWR_RET_FAIL_FIRST : Fld := ⟨R.PWR_RET_FAIL, 31, 0⟩
/-- CLK_CTRL.SPREAD_EN (R527). -/
def F.CLK_CTRL_SPREAD_EN : Fld := ⟨R.CLK_CTRL, 0, 0⟩
/-- CLK_IO_SLEW.OD (R527). -/
def F.CLK_IO_SLEW_OD : Fld := ⟨R.CLK_IO_SLEW, 11, 10⟩
/-- CLK_IO_SLEW.PPS (R527). -/
def F.CLK_IO_SLEW_PPS : Fld := ⟨R.CLK_IO_SLEW, 9, 8⟩
/-- CLK_IO_SLEW.AVS (R527). -/
def F.CLK_IO_SLEW_AVS : Fld := ⟨R.CLK_IO_SLEW, 7, 6⟩
/-- CLK_IO_SLEW.UART (R527). -/
def F.CLK_IO_SLEW_UART : Fld := ⟨R.CLK_IO_SLEW, 5, 4⟩
/-- CLK_IO_SLEW.JTAG (R527). -/
def F.CLK_IO_SLEW_JTAG : Fld := ⟨R.CLK_IO_SLEW, 3, 2⟩
/-- CLK_IO_SLEW.QSPI (R527). -/
def F.CLK_IO_SLEW_QSPI : Fld := ⟨R.CLK_IO_SLEW, 1, 0⟩
/-- CLK_AVS_VSET.MV (R527). -/
def F.CLK_AVS_VSET_MV : Fld := ⟨R.CLK_AVS_VSET, 15, 0⟩
/-- THERM_STATUS.SENSOR (R527). -/
def F.THERM_STATUS_SENSOR : Fld := ⟨R.THERM_STATUS, 23, 16⟩
/-- THERM_STATUS.STEP (R527). -/
def F.THERM_STATUS_STEP : Fld := ⟨R.THERM_STATUS, 15, 14⟩
/-- THERM_STATUS.TEMP (R527). -/
def F.THERM_STATUS_TEMP : Fld := ⟨R.THERM_STATUS, 11, 0⟩
/-- THERM_CFG.THROTTLE_AT (R527). -/
def F.THERM_CFG_THROTTLE_AT : Fld := ⟨R.THERM_CFG, 7, 0⟩
/-- THERM_TEMP.TEMP (R527). -/
def F.THERM_TEMP_TEMP : Fld := ⟨R.THERM_TEMP, 11, 0⟩
/-- HIF_LINK_CFG.BIFUR (R440). -/
def F.HIF_LINK_CFG_BIFUR : Fld := ⟨R.HIF_LINK_CFG, 5, 4⟩
/-- HIF_LINK_CFG.MAX_RATE (R440). -/
def F.HIF_LINK_CFG_MAX_RATE : Fld := ⟨R.HIF_LINK_CFG, 1, 0⟩
/-- HIF_ATT_STATUS.UP (R440). -/
def F.HIF_ATT_STATUS_UP : Fld := ⟨R.HIF_ATT_STATUS, 31, 31⟩
/-- HIF_ATT_STATUS.BELOW_MIN (R440). -/
def F.HIF_ATT_STATUS_BELOW_MIN : Fld := ⟨R.HIF_ATT_STATUS, 30, 30⟩
/-- HIF_ATT_STATUS.PSTATE (R440). -/
def F.HIF_ATT_STATUS_PSTATE : Fld := ⟨R.HIF_ATT_STATUS, 29, 27⟩
/-- HIF_ATT_STATUS.WIDTH (R440). -/
def F.HIF_ATT_STATUS_WIDTH : Fld := ⟨R.HIF_ATT_STATUS, 20, 16⟩
/-- HIF_ATT_STATUS.RATE (R440). -/
def F.HIF_ATT_STATUS_RATE : Fld := ⟨R.HIF_ATT_STATUS, 2, 0⟩
/-- HIF_VF_ALLOC.FIRST (R440). -/
def F.HIF_VF_ALLOC_FIRST : Fld := ⟨R.HIF_VF_ALLOC, 25, 16⟩
/-- HIF_VF_ALLOC.COUNT (R440). -/
def F.HIF_VF_ALLOC_COUNT : Fld := ⟨R.HIF_VF_ALLOC, 9, 0⟩
/-- HIF_WAKE_CFG.WAKE_ON_RX (R440). -/
def F.HIF_WAKE_CFG_WAKE_ON_RX : Fld := ⟨R.HIF_WAKE_CFG, 0, 0⟩
/-- HIF_STATUS.ALLOC_REFUSED (R440). -/
def F.HIF_STATUS_ALLOC_REFUSED : Fld := ⟨R.HIF_STATUS, 31, 31⟩
/-- HIF_STATUS.WAKE_N (R440). -/
def F.HIF_STATUS_WAKE_N : Fld := ⟨R.HIF_STATUS, 0, 0⟩
/-- HIF_FUNC_STATE.DSTATE (R440). -/
def F.HIF_FUNC_STATE_DSTATE : Fld := ⟨R.HIF_FUNC_STATE, 31, 30⟩
/-- HIF_FUNC_STATE.BME (R440). -/
def F.HIF_FUNC_STATE_BME : Fld := ⟨R.HIF_FUNC_STATE, 29, 29⟩
/-- HIF_FUNC_STATE.MSIX_EN (R440). -/
def F.HIF_FUNC_STATE_MSIX_EN : Fld := ⟨R.HIF_FUNC_STATE, 28, 28⟩
/-- HIF_FUNC_STATE.FMASK (R440). -/
def F.HIF_FUNC_STATE_FMASK : Fld := ⟨R.HIF_FUNC_STATE, 27, 27⟩
/-- HIF_FUNC_STATE.WAKE_PEND (R440). -/
def F.HIF_FUNC_STATE_WAKE_PEND : Fld := ⟨R.HIF_FUNC_STATE, 26, 26⟩
/-- HIF_FUNC_STATE.HELD (R440). -/
def F.HIF_FUNC_STATE_HELD : Fld := ⟨R.HIF_FUNC_STATE, 16, 0⟩
/-- HIF_CRING_BASE.BASE (R175). -/
def F.HIF_CRING_BASE_BASE : Fld := ⟨R.HIF_CRING_BASE, 63, 12⟩
/-- HIF_CRING_CFG.ENABLE (R175). -/
def F.HIF_CRING_CFG_ENABLE : Fld := ⟨R.HIF_CRING_CFG, 31, 31⟩
/-- HIF_CRING_CFG.LOG2_SIZE (R175). -/
def F.HIF_CRING_CFG_LOG2_SIZE : Fld := ⟨R.HIF_CRING_CFG, 4, 0⟩
/-- HIF_CCQ_BASE.BASE (R175). -/
def F.HIF_CCQ_BASE_BASE : Fld := ⟨R.HIF_CCQ_BASE, 63, 12⟩
/-- HIF_CCQ_CFG.ENABLE (R175). -/
def F.HIF_CCQ_CFG_ENABLE : Fld := ⟨R.HIF_CCQ_CFG, 31, 31⟩
/-- HIF_CCQ_CFG.IRQ_EN (R175). -/
def F.HIF_CCQ_CFG_IRQ_EN : Fld := ⟨R.HIF_CCQ_CFG, 30, 30⟩
/-- HIF_CCQ_CFG.VECTOR (R175). -/
def F.HIF_CCQ_CFG_VECTOR : Fld := ⟨R.HIF_CCQ_CFG, 26, 16⟩
/-- HIF_CCQ_CFG.LOG2_SIZE (R175). -/
def F.HIF_CCQ_CFG_LOG2_SIZE : Fld := ⟨R.HIF_CCQ_CFG, 4, 0⟩
/-- HIF_CRING_STATUS.HALTED (R175). -/
def F.HIF_CRING_STATUS_HALTED : Fld := ⟨R.HIF_CRING_STATUS, 31, 31⟩
/-- HIF_CRING_STATUS.READY (R175). -/
def F.HIF_CRING_STATUS_READY : Fld := ⟨R.HIF_CRING_STATUS, 30, 30⟩
/-- HIF_CRING_STATUS.BUSY (R175). -/
def F.HIF_CRING_STATUS_BUSY : Fld := ⟨R.HIF_CRING_STATUS, 29, 29⟩
/-- HIF_CRING_STATUS.INDEX (R175). -/
def F.HIF_CRING_STATUS_INDEX : Fld := ⟨R.HIF_CRING_STATUS, 15, 0⟩
/-- HIF_ADAPTER_RESET.KEY (R193). -/
def F.HIF_ADAPTER_RESET_KEY : Fld := ⟨R.HIF_ADAPTER_RESET, 31, 16⟩
/-- HIF_ADAPTER_RESET.GO (R193). -/
def F.HIF_ADAPTER_RESET_GO : Fld := ⟨R.HIF_ADAPTER_RESET, 0, 0⟩
/-- RING_MALFORMED_INFO.CTRL (R177). -/
def F.RING_MALFORMED_INFO_CTRL : Fld := ⟨R.RING_MALFORMED_INFO, 49, 49⟩
/-- RING_MALFORMED_INFO.VALID (R177). -/
def F.RING_MALFORMED_INFO_VALID : Fld := ⟨R.RING_MALFORMED_INFO, 48, 48⟩
/-- RING_MALFORMED_INFO.WQ_INDEX (R177). -/
def F.RING_MALFORMED_INFO_WQ_INDEX : Fld := ⟨R.RING_MALFORMED_INFO, 47, 32⟩
/-- RING_MALFORMED_INFO.REASON (R177). -/
def F.RING_MALFORMED_INFO_REASON : Fld := ⟨R.RING_MALFORMED_INFO, 31, 28⟩
/-- RING_MALFORMED_INFO.FUNC (R177). -/
def F.RING_MALFORMED_INFO_FUNC : Fld := ⟨R.RING_MALFORMED_INFO, 27, 18⟩
/-- RING_MALFORMED_INFO.QN (R177). -/
def F.RING_MALFORMED_INFO_QN : Fld := ⟨R.RING_MALFORMED_INFO, 17, 0⟩
/-- RING_POOL_USED.USED (R196). -/
def F.RING_POOL_USED_USED : Fld := ⟨R.RING_POOL_USED, 16, 0⟩
/-- RING_ARB_CTRL.PROP_FUNC (R196). -/
def F.RING_ARB_CTRL_PROP_FUNC : Fld := ⟨R.RING_ARB_CTRL, 1, 1⟩
/-- RING_ARB_CTRL.PROP_GROUP (R196). -/
def F.RING_ARB_CTRL_PROP_GROUP : Fld := ⟨R.RING_ARB_CTRL, 0, 0⟩
/-- RING_FUNC_ARB.WEIGHT (R196). -/
def F.RING_FUNC_ARB_WEIGHT : Fld := ⟨R.RING_FUNC_ARB, 7, 0⟩
/-- RING_GROUP_ARB.G0 (R196). -/
def F.RING_GROUP_ARB_G0 : Fld := ⟨R.RING_GROUP_ARB, 7, 0⟩
/-- RING_GROUP_ARB.G1 (R196). -/
def F.RING_GROUP_ARB_G1 : Fld := ⟨R.RING_GROUP_ARB, 15, 8⟩
/-- RING_GROUP_ARB.G2 (R196). -/
def F.RING_GROUP_ARB_G2 : Fld := ⟨R.RING_GROUP_ARB, 23, 16⟩
/-- RING_GROUP_ARB.G3 (R196). -/
def F.RING_GROUP_ARB_G3 : Fld := ⟨R.RING_GROUP_ARB, 31, 24⟩
/-- RING_GROUP_ARB.G4 (R196). -/
def F.RING_GROUP_ARB_G4 : Fld := ⟨R.RING_GROUP_ARB, 39, 32⟩
/-- RING_GROUP_ARB.G5 (R196). -/
def F.RING_GROUP_ARB_G5 : Fld := ⟨R.RING_GROUP_ARB, 47, 40⟩
/-- RING_GROUP_ARB.G6 (R196). -/
def F.RING_GROUP_ARB_G6 : Fld := ⟨R.RING_GROUP_ARB, 55, 48⟩
/-- RING_GROUP_ARB.G7 (R196). -/
def F.RING_GROUP_ARB_G7 : Fld := ⟨R.RING_GROUP_ARB, 63, 56⟩
/-- RING_Q_STATE.HELD (R196). -/
def F.RING_Q_STATE_HELD : Fld := ⟨R.RING_Q_STATE, 7, 7⟩
/-- RING_Q_STATE.WORK (R196). -/
def F.RING_Q_STATE_WORK : Fld := ⟨R.RING_Q_STATE, 6, 6⟩
/-- RING_Q_STATE.STATE (R196). -/
def F.RING_Q_STATE_STATE : Fld := ⟨R.RING_Q_STATE, 2, 0⟩
/-- RING_CQ_STATE.STASH (R196). -/
def F.RING_CQ_STATE_STASH : Fld := ⟨R.RING_CQ_STATE, 22, 16⟩
/-- RING_CQ_STATE.STATE (R196). -/
def F.RING_CQ_STATE_STATE : Fld := ⟨R.RING_CQ_STATE, 1, 0⟩
/-- XLT_ASK_BASE.BASE (R261). -/
def F.XLT_ASK_BASE_BASE : Fld := ⟨R.XLT_ASK_BASE, 35, 25⟩
/-- XLT_STATUS.PENDING (R261). -/
def F.XLT_STATUS_PENDING : Fld := ⟨R.XLT_STATUS, 20, 8⟩
/-- XLT_STATUS.BROADCASTS (R261). -/
def F.XLT_STATUS_BROADCASTS : Fld := ⟨R.XLT_STATUS, 4, 0⟩
/-- XLT_ILLEGAL_INFO.VALID (R261). -/
def F.XLT_ILLEGAL_INFO_VALID : Fld := ⟨R.XLT_ILLEGAL_INFO, 63, 63⟩
/-- XLT_ILLEGAL_INFO.LEVEL (R261). -/
def F.XLT_ILLEGAL_INFO_LEVEL : Fld := ⟨R.XLT_ILLEGAL_INFO, 62, 60⟩
/-- XLT_ILLEGAL_INFO.FUNC (R261). -/
def F.XLT_ILLEGAL_INFO_FUNC : Fld := ⟨R.XLT_ILLEGAL_INFO, 49, 40⟩
/-- XLT_ILLEGAL_INFO.ASK (R261). -/
def F.XLT_ILLEGAL_INFO_ASK : Fld := ⟨R.XLT_ILLEGAL_INFO, 19, 0⟩
/-- XLT_MMIO_BASE.ADDR (R261). -/
def F.XLT_MMIO_BASE_ADDR : Fld := ⟨R.XLT_MMIO_BASE, 51, 12⟩
/-- XLT_MMIO_LIMIT.ADDR (R261). -/
def F.XLT_MMIO_LIMIT_ADDR : Fld := ⟨R.XLT_MMIO_LIMIT, 51, 12⟩
/-- XLT_REVOKE_CTRL.GO (R218). -/
def F.XLT_REVOKE_CTRL_GO : Fld := ⟨R.XLT_REVOKE_CTRL, 31, 31⟩
/-- XLT_REVOKE_CTRL.ASK (R218). -/
def F.XLT_REVOKE_CTRL_ASK : Fld := ⟨R.XLT_REVOKE_CTRL, 19, 0⟩
/-- CLU_CTRL.RESERVE (R97). -/
def F.CLU_CTRL_RESERVE : Fld := ⟨R.CLU_CTRL, 7, 4⟩
/-- CLU_CTRL.ICACHE_INV (R97). -/
def F.CLU_CTRL_ICACHE_INV : Fld := ⟨R.CLU_CTRL, 1, 1⟩
/-- CLU_CTRL.DISPATCH_EN (R97). -/
def F.CLU_CTRL_DISPATCH_EN : Fld := ⟨R.CLU_CTRL, 0, 0⟩
/-- CLU_STATUS.RETIRED (R97). -/
def F.CLU_STATUS_RETIRED : Fld := ⟨R.CLU_STATUS, 23, 16⟩
/-- CLU_STATUS.BUSY (R97). -/
def F.CLU_STATUS_BUSY : Fld := ⟨R.CLU_STATUS, 13, 8⟩
/-- CLU_STATUS.HT_BUSY (R97). -/
def F.CLU_STATUS_HT_BUSY : Fld := ⟨R.CLU_STATUS, 0, 0⟩
/-- CLU_RETIRE_CFG.WINDOW (R97). -/
def F.CLU_RETIRE_CFG_WINDOW : Fld := ⟨R.CLU_RETIRE_CFG, 19, 4⟩
/-- CLU_RETIRE_CFG.COUNT (R97). -/
def F.CLU_RETIRE_CFG_COUNT : Fld := ⟨R.CLU_RETIRE_CFG, 3, 0⟩
/-- CLU_CSM_UWIN.LIMIT (R97). -/
def F.CLU_CSM_UWIN_LIMIT : Fld := ⟨R.CLU_CSM_UWIN, 15, 8⟩
/-- CLU_CSM_UWIN.BASE (R97). -/
def F.CLU_CSM_UWIN_BASE : Fld := ⟨R.CLU_CSM_UWIN, 7, 0⟩
/-- CLU_HT_COMMIT.GO (R97). -/
def F.CLU_HT_COMMIT_GO : Fld := ⟨R.CLU_HT_COMMIT, 31, 31⟩
/-- CLU_HT_COMMIT.INDEX (R97). -/
def F.CLU_HT_COMMIT_INDEX : Fld := ⟨R.CLU_HT_COMMIT, 7, 0⟩
/-- CLU_MATCH_CFG.POST_MAX (R284). -/
def F.CLU_MATCH_CFG_POST_MAX : Fld := ⟨R.CLU_MATCH_CFG, 28, 16⟩
/-- CLU_MATCH_CFG.UNEXP_MAX (R284). -/
def F.CLU_MATCH_CFG_UNEXP_MAX : Fld := ⟨R.CLU_MATCH_CFG, 12, 0⟩
/-- CLU_MATCH_EAGER.LIMIT (R284). -/
def F.CLU_MATCH_EAGER_LIMIT : Fld := ⟨R.CLU_MATCH_EAGER, 12, 0⟩
/-- CLU_MATCH_UBUF_BASE.BASE (R284). -/
def F.CLU_MATCH_UBUF_BASE_BASE : Fld := ⟨R.CLU_MATCH_UBUF_BASE, 35, 12⟩
/-- CLU_MATCH_UBUF_BLOCKS.BLOCKS (R284). -/
def F.CLU_MATCH_UBUF_BLOCKS_BLOCKS : Fld := ⟨R.CLU_MATCH_UBUF_BLOCKS, 14, 0⟩
/-- CLU_MATCH_STATUS.BLOCKS_FREE (R284). -/
def F.CLU_MATCH_STATUS_BLOCKS_FREE : Fld := ⟨R.CLU_MATCH_STATUS, 29, 15⟩
/-- CLU_MATCH_STATUS.STORE_USED (R284). -/
def F.CLU_MATCH_STATUS_STORE_USED : Fld := ⟨R.CLU_MATCH_STATUS, 13, 0⟩
/-- WF_CFG.RESV (R150). -/
def F.WF_CFG_RESV : Fld := ⟨R.WF_CFG, 15, 8⟩
/-- WF_CFG.POLLED (R150). -/
def F.WF_CFG_POLLED : Fld := ⟨R.WF_CFG, 0, 0⟩
/-- WF_STATUS.FILL_BANK (R150). -/
def F.WF_STATUS_FILL_BANK : Fld := ⟨R.WF_STATUS, 31, 31⟩
/-- WF_STATUS.CFG_REFUSED (R150). -/
def F.WF_STATUS_CFG_REFUSED : Fld := ⟨R.WF_STATUS, 30, 30⟩
/-- WF_STATUS.DRAIN_WORDS (R150). -/
def F.WF_STATUS_DRAIN_WORDS : Fld := ⟨R.WF_STATUS, 26, 16⟩
/-- WF_STATUS.FILL_WORDS (R150). -/
def F.WF_STATUS_FILL_WORDS : Fld := ⟨R.WF_STATUS, 10, 0⟩
/-- WF_VISIBLE.ITEMS (R150). -/
def F.WF_VISIBLE_ITEMS : Fld := ⟨R.WF_VISIBLE, 23, 8⟩
/-- WF_VISIBLE.LEVELS (R150). -/
def F.WF_VISIBLE_LEVELS : Fld := ⟨R.WF_VISIBLE, 7, 0⟩
/-- WF_STEER.EVENT_PRIO (R150). -/
def F.WF_STEER_EVENT_PRIO : Fld := ⟨R.WF_STEER, 6, 4⟩
/-- WF_STEER.EVENT_FIFO (R150). -/
def F.WF_STEER_EVENT_FIFO : Fld := ⟨R.WF_STEER, 3, 2⟩
/-- WF_STEER.LOST_FIFO (R150). -/
def F.WF_STEER_LOST_FIFO : Fld := ⟨R.WF_STEER, 1, 0⟩
/-- ROUTE_CFG.HOP_LIMIT (R337). -/
def F.ROUTE_CFG_HOP_LIMIT : Fld := ⟨R.ROUTE_CFG, 31, 28⟩
/-- ROUTE_CFG.DIAM (R337). -/
def F.ROUTE_CFG_DIAM : Fld := ⟨R.ROUTE_CFG, 27, 25⟩
/-- ROUTE_CFG.GW_MAX (R337). -/
def F.ROUTE_CFG_GW_MAX : Fld := ⟨R.ROUTE_CFG, 24, 22⟩
/-- ROUTE_CFG.NM_EN (R337). -/
def F.ROUTE_CFG_NM_EN : Fld := ⟨R.ROUTE_CFG, 21, 21⟩
/-- ROUTE_CFG.SCALE (R337). -/
def F.ROUTE_CFG_SCALE : Fld := ⟨R.ROUTE_CFG, 20, 18⟩
/-- ROUTE_CFG.NM_BIAS (R337). -/
def F.ROUTE_CFG_NM_BIAS : Fld := ⟨R.ROUTE_CFG, 15, 8⟩
/-- ROUTE_CFG.CREDIT_PEN (R337). -/
def F.ROUTE_CFG_CREDIT_PEN : Fld := ⟨R.ROUTE_CFG, 7, 0⟩
/-- ROUTE_TC_CFG.MIN_ONLY (R337). -/
def F.ROUTE_TC_CFG_MIN_ONLY : Fld := ⟨R.ROUTE_TC_CFG, 7, 0⟩
/-- ROUTE_SELF_DN.DN (R337). -/
def F.ROUTE_SELF_DN_DN : Fld := ⟨R.ROUTE_SELF_DN, 16, 0⟩
/-- ROUTE_SELF_POS.GROUP (R337). -/
def F.ROUTE_SELF_POS_GROUP : Fld := ⟨R.ROUTE_SELF_POS, 16, 8⟩
/-- ROUTE_SELF_POS.ROW (R337). -/
def F.ROUTE_SELF_POS_ROW : Fld := ⟨R.ROUTE_SELF_POS, 7, 4⟩
/-- ROUTE_SELF_POS.COL (R337). -/
def F.ROUTE_SELF_POS_COL : Fld := ⟨R.ROUTE_SELF_POS, 3, 0⟩
/-- ROUTE_EPOCH_CTRL.ENABLE (R337). -/
def F.ROUTE_EPOCH_CTRL_ENABLE : Fld := ⟨R.ROUTE_EPOCH_CTRL, 31, 31⟩
/-- ROUTE_EPOCH_CTRL.ARM (R337). -/
def F.ROUTE_EPOCH_CTRL_ARM : Fld := ⟨R.ROUTE_EPOCH_CTRL, 30, 30⟩
/-- ROUTE_EPOCH_CTRL.CANCEL (R337). -/
def F.ROUTE_EPOCH_CTRL_CANCEL : Fld := ⟨R.ROUTE_EPOCH_CTRL, 29, 29⟩
/-- ROUTE_EPOCH_CTRL.INIT_BANK (R337). -/
def F.ROUTE_EPOCH_CTRL_INIT_BANK : Fld := ⟨R.ROUTE_EPOCH_CTRL, 0, 0⟩
/-- ROUTE_EPOCH_STATUS.ENABLED (R337). -/
def F.ROUTE_EPOCH_STATUS_ENABLED : Fld := ⟨R.ROUTE_EPOCH_STATUS, 31, 31⟩
/-- ROUTE_EPOCH_STATUS.EPOCH (R337). -/
def F.ROUTE_EPOCH_STATUS_EPOCH : Fld := ⟨R.ROUTE_EPOCH_STATUS, 8, 8⟩
/-- ROUTE_EPOCH_STATUS.BANK1 (R337). -/
def F.ROUTE_EPOCH_STATUS_BANK1 : Fld := ⟨R.ROUTE_EPOCH_STATUS, 6, 4⟩
/-- ROUTE_EPOCH_STATUS.BANK0 (R337). -/
def F.ROUTE_EPOCH_STATUS_BANK0 : Fld := ⟨R.ROUTE_EPOCH_STATUS, 2, 0⟩
/-- ROUTE_EPT_BASE.BASE (R337). -/
def F.ROUTE_EPT_BASE_BASE : Fld := ⟨R.ROUTE_EPT_BASE, 35, 12⟩
/-- ROUTE_EPT_CFG.LOG2_ENTRIES (R337). -/
def F.ROUTE_EPT_CFG_LOG2_ENTRIES : Fld := ⟨R.ROUTE_EPT_CFG, 4, 0⟩
/-- ROUTE_EPT_INV.ALL (R337). -/
def F.ROUTE_EPT_INV_ALL : Fld := ⟨R.ROUTE_EPT_INV, 31, 31⟩
/-- ROUTE_EPT_INV.EPID (R337). -/
def F.ROUTE_EPT_INV_EPID : Fld := ⟨R.ROUTE_EPT_INV, 23, 0⟩
/-- ROUTE_FM_PFS.PFS (R337). -/
def F.ROUTE_FM_PFS_PFS : Fld := ⟨R.ROUTE_FM_PFS, 15, 0⟩
/-- ROUTE_DEST.V (R317). -/
def F.ROUTE_DEST_V : Fld := ⟨R.ROUTE_DEST, 31, 31⟩
/-- ROUTE_DEST.GROUP (R317). -/
def F.ROUTE_DEST_GROUP : Fld := ⟨R.ROUTE_DEST, 16, 8⟩
/-- ROUTE_DEST.ROW (R317). -/
def F.ROUTE_DEST_ROW : Fld := ⟨R.ROUTE_DEST, 7, 4⟩
/-- ROUTE_DEST.COL (R317). -/
def F.ROUTE_DEST_COL : Fld := ⟨R.ROUTE_DEST, 3, 0⟩
/-- ROUTE_GROUP.V (R317). -/
def F.ROUTE_GROUP_V : Fld := ⟨R.ROUTE_GROUP, 31, 31⟩
/-- ROUTE_GROUP.NM_OK (R317). -/
def F.ROUTE_GROUP_NM_OK : Fld := ⟨R.ROUTE_GROUP, 30, 30⟩
/-- ROUTE_GROUP.DIST (R317). -/
def F.ROUTE_GROUP_DIST : Fld := ⟨R.ROUTE_GROUP, 18, 16⟩
/-- ROUTE_GROUP.MIN_SET (R317). -/
def F.ROUTE_GROUP_MIN_SET : Fld := ⟨R.ROUTE_GROUP, 9, 0⟩
/-- ROUTE_ROW.V (R317). -/
def F.ROUTE_ROW_V : Fld := ⟨R.ROUTE_ROW, 31, 31⟩
/-- ROUTE_ROW.DN (R317). -/
def F.ROUTE_ROW_DN : Fld := ⟨R.ROUTE_ROW, 26, 10⟩
/-- ROUTE_ROW.SET (R317). -/
def F.ROUTE_ROW_SET : Fld := ⟨R.ROUTE_ROW, 9, 0⟩
/-- ROUTE_COLUMN.V (R317). -/
def F.ROUTE_COLUMN_V : Fld := ⟨R.ROUTE_COLUMN, 31, 31⟩
/-- ROUTE_COLUMN.DN (R317). -/
def F.ROUTE_COLUMN_DN : Fld := ⟨R.ROUTE_COLUMN, 26, 10⟩
/-- ROUTE_COLUMN.SET (R317). -/
def F.ROUTE_COLUMN_SET : Fld := ⟨R.ROUTE_COLUMN, 9, 0⟩
/-- ROUTE_PORT.ROLE (R317). -/
def F.ROUTE_PORT_ROLE : Fld := ⟨R.ROUTE_PORT, 15, 13⟩
/-- ROUTE_PORT.PEER_GROUP (R317). -/
def F.ROUTE_PORT_PEER_GROUP : Fld := ⟨R.ROUTE_PORT, 8, 0⟩
/-- SLD_CFG.PREFETCH (R351). -/
def F.SLD_CFG_PREFETCH : Fld := ⟨R.SLD_CFG, 23, 16⟩
/-- SLD_CFG.SPILL_EN (R351). -/
def F.SLD_CFG_SPILL_EN : Fld := ⟨R.SLD_CFG, 8, 8⟩
/-- SLD_CFG.STRICT_DEPTH (R351). -/
def F.SLD_CFG_STRICT_DEPTH : Fld := ⟨R.SLD_CFG, 6, 0⟩
/-- SLD_WINDOW.W (R351). -/
def F.SLD_WINDOW_W : Fld := ⟨R.SLD_WINDOW, 14, 0⟩
/-- SLD_STORE_CFG.SPILL_AT (R351). -/
def F.SLD_STORE_CFG_SPILL_AT : Fld := ⟨R.SLD_STORE_CFG, 23, 16⟩
/-- SLD_STORE_CFG.CTX_MAX (R351). -/
def F.SLD_STORE_CFG_CTX_MAX : Fld := ⟨R.SLD_STORE_CFG, 15, 8⟩
/-- SLD_STORE_CFG.INORDER_RESV (R351). -/
def F.SLD_STORE_CFG_INORDER_RESV : Fld := ⟨R.SLD_STORE_CFG, 7, 0⟩
/-- SLD_SPILL_BASE.BASE (R351). -/
def F.SLD_SPILL_BASE_BASE : Fld := ⟨R.SLD_SPILL_BASE, 35, 26⟩
/-- SLD_SPILL_SIZE.SIZE (R351). -/
def F.SLD_SPILL_SIZE_SIZE : Fld := ⟨R.SLD_SPILL_SIZE, 6, 0⟩
/-- SLD_STATUS.CFG_REFUSED (R351). -/
def F.SLD_STATUS_CFG_REFUSED : Fld := ⟨R.SLD_STATUS, 31, 31⟩
/-- SLD_STATUS.SEALS (R351). -/
def F.SLD_STATUS_SEALS : Fld := ⟨R.SLD_STATUS, 12, 0⟩
/-- SLD_CTX_USED.USED (R351). -/
def F.SLD_CTX_USED_USED : Fld := ⟨R.SLD_CTX_USED, 16, 0⟩
/-- SLD_ONDIE_USED.USED (R351). -/
def F.SLD_ONDIE_USED_USED : Fld := ⟨R.SLD_ONDIE_USED, 17, 0⟩
/-- SLD_SPILL_USED.USED (R351). -/
def F.SLD_SPILL_USED_USED : Fld := ⟨R.SLD_SPILL_USED, 24, 0⟩
/-- SLD_WIN_LIMITS.W_MAX (R239). -/
def F.SLD_WIN_LIMITS_W_MAX : Fld := ⟨R.SLD_WIN_LIMITS, 31, 16⟩
/-- SLD_WIN_LIMITS.W_MIN (R239). -/
def F.SLD_WIN_LIMITS_W_MIN : Fld := ⟨R.SLD_WIN_LIMITS, 15, 0⟩
/-- SLD_WIN_CTRL.TARGET_Q (R239). -/
def F.SLD_WIN_CTRL_TARGET_Q : Fld := ⟨R.SLD_WIN_CTRL, 31, 16⟩
/-- SLD_WIN_CTRL.AI_GAIN (R239). -/
def F.SLD_WIN_CTRL_AI_GAIN : Fld := ⟨R.SLD_WIN_CTRL, 15, 8⟩
/-- SLD_WIN_CTRL.MD_BETA (R239). -/
def F.SLD_WIN_CTRL_MD_BETA : Fld := ⟨R.SLD_WIN_CTRL, 7, 0⟩
/-- SLD_WIN_RETX.RTO (R239). -/
def F.SLD_WIN_RETX_RTO : Fld := ⟨R.SLD_WIN_RETX, 31, 16⟩
/-- SLD_WIN_RETX.RETX_MAX (R239). -/
def F.SLD_WIN_RETX_RETX_MAX : Fld := ⟨R.SLD_WIN_RETX, 15, 8⟩
/-- SLD_WIN_RETX.MD_MAX (R239). -/
def F.SLD_WIN_RETX_MD_MAX : Fld := ⟨R.SLD_WIN_RETX, 7, 0⟩
/-- SLD_WIN_REFUSE.REFUSE_BACKOFF (R239). -/
def F.SLD_WIN_REFUSE_REFUSE_BACKOFF : Fld := ⟨R.SLD_WIN_REFUSE, 31, 16⟩
/-- SLD_WIN_REFUSE.REFUSE_MAX (R239). -/
def F.SLD_WIN_REFUSE_REFUSE_MAX : Fld := ⟨R.SLD_WIN_REFUSE, 15, 8⟩
/-- SLD_WIN_REFUSE.BASE_WIN (R239). -/
def F.SLD_WIN_REFUSE_BASE_WIN : Fld := ⟨R.SLD_WIN_REFUSE, 7, 0⟩
/-- SLD_ACK_CFG.ACK_DELAY (R239). -/
def F.SLD_ACK_CFG_ACK_DELAY : Fld := ⟨R.SLD_ACK_CFG, 31, 16⟩
/-- SLD_ACK_CFG.ACK_COUNT (R239). -/
def F.SLD_ACK_CFG_ACK_COUNT : Fld := ⟨R.SLD_ACK_CFG, 15, 8⟩
/-- AML_CTRL.STRIPE (R314). -/
def F.AML_CTRL_STRIPE : Fld := ⟨R.AML_CTRL, 4, 0⟩
/-- AML_STATUS.CFG_REFUSED (R314). -/
def F.AML_STATUS_CFG_REFUSED : Fld := ⟨R.AML_STATUS, 31, 31⟩
/-- AML_STATUS.OPEN (R314). -/
def F.AML_STATUS_OPEN : Fld := ⟨R.AML_STATUS, 12, 0⟩
/-- AML_ACC_RESV.RESV (R314). -/
def F.AML_ACC_RESV_RESV : Fld := ⟨R.AML_ACC_RESV, 4, 0⟩
/-- AML_UNIT_STATUS.ACC_USED (R314). -/
def F.AML_UNIT_STATUS_ACC_USED : Fld := ⟨R.AML_UNIT_STATUS, 28, 16⟩
/-- AML_UNIT_STATUS.HOMED_OPEN (R314). -/
def F.AML_UNIT_STATUS_HOMED_OPEN : Fld := ⟨R.AML_UNIT_STATUS, 8, 0⟩
/-- AML_SLOT_STATE.OPEN (R314). -/
def F.AML_SLOT_STATE_OPEN : Fld := ⟨R.AML_SLOT_STATE, 31, 31⟩
/-- AML_SLOT_STATE.STRIPES_DONE (R314). -/
def F.AML_SLOT_STATE_STRIPES_DONE : Fld := ⟨R.AML_SLOT_STATE, 16, 0⟩
/-- PORT_STATUS.RETIRED (R425). -/
def F.PORT_STATUS_RETIRED : Fld := ⟨R.PORT_STATUS, 31, 31⟩
/-- PORT_STATUS.LANES (R425). -/
def F.PORT_STATUS_LANES : Fld := ⟨R.PORT_STATUS, 1, 0⟩
/-- PORT_EXPECT.EN (R425). -/
def F.PORT_EXPECT_EN : Fld := ⟨R.PORT_EXPECT, 31, 31⟩
/-- PORT_EXPECT.PORT (R425). -/
def F.PORT_EXPECT_PORT : Fld := ⟨R.PORT_EXPECT, 30, 24⟩
/-- PORT_EXPECT.DN (R425). -/
def F.PORT_EXPECT_DN : Fld := ⟨R.PORT_EXPECT, 16, 0⟩
/-- LNK_CTRL.LANE_EN (R380). -/
def F.LNK_CTRL_LANE_EN : Fld := ⟨R.LNK_CTRL, 5, 4⟩
/-- LNK_CTRL.RETRAIN (R380). -/
def F.LNK_CTRL_RETRAIN : Fld := ⟨R.LNK_CTRL, 1, 1⟩
/-- LNK_CTRL.ENABLE (R380). -/
def F.LNK_CTRL_ENABLE : Fld := ⟨R.LNK_CTRL, 0, 0⟩
/-- LNK_STATUS.BUDGET_SHORT (R380). -/
def F.LNK_STATUS_BUDGET_SHORT : Fld := ⟨R.LNK_STATUS, 9, 9⟩
/-- LNK_STATUS.PEER_FAULT (R380). -/
def F.LNK_STATUS_PEER_FAULT : Fld := ⟨R.LNK_STATUS, 8, 8⟩
/-- LNK_STATUS.HALF_BAUD (R380). -/
def F.LNK_STATUS_HALF_BAUD : Fld := ⟨R.LNK_STATUS, 6, 6⟩
/-- LNK_STATUS.LANES (R380). -/
def F.LNK_STATUS_LANES : Fld := ⟨R.LNK_STATUS, 5, 4⟩
/-- LNK_STATUS.STATE (R380). -/
def F.LNK_STATUS_STATE : Fld := ⟨R.LNK_STATUS, 3, 0⟩
/-- LNK_CREDIT_CFG.SHARED (R380). -/
def F.LNK_CREDIT_CFG_SHARED : Fld := ⟨R.LNK_CREDIT_CFG, 27, 16⟩
/-- LNK_CREDIT_CFG.MIN (R380). -/
def F.LNK_CREDIT_CFG_MIN : Fld := ⟨R.LNK_CREDIT_CFG, 6, 0⟩
/-- LNK_REPLAY_CFG.REPLAY (R380). -/
def F.LNK_REPLAY_CFG_REPLAY : Fld := ⟨R.LNK_REPLAY_CFG, 27, 16⟩
/-- LNK_REPLAY_CFG.REPLAY_MAX (R380). -/
def F.LNK_REPLAY_CFG_REPLAY_MAX : Fld := ⟨R.LNK_REPLAY_CFG, 3, 0⟩
/-- LNK_PEER.DN (R380). -/
def F.LNK_PEER_DN : Fld := ⟨R.LNK_PEER, 48, 32⟩
/-- LNK_PEER.VALID (R380). -/
def F.LNK_PEER_VALID : Fld := ⟨R.LNK_PEER, 7, 7⟩
/-- LNK_PEER.PORT (R380). -/
def F.LNK_PEER_PORT : Fld := ⟨R.LNK_PEER, 6, 0⟩
/-- SCH_QUANTUM.CELLS (R400). -/
def F.SCH_QUANTUM_CELLS : Fld := ⟨R.SCH_QUANTUM, 11, 0⟩
/-- SCH_TC7_LIMIT.BURST (R400). -/
def F.SCH_TC7_LIMIT_BURST : Fld := ⟨R.SCH_TC7_LIMIT, 27, 16⟩
/-- SCH_TC7_LIMIT.RATE (R400). -/
def F.SCH_TC7_LIMIT_RATE : Fld := ⟨R.SCH_TC7_LIMIT, 11, 0⟩
/-- SCH_Q_DEPTH.CELLS (R400). -/
def F.SCH_Q_DEPTH_CELLS : Fld := ⟨R.SCH_Q_DEPTH, 15, 0⟩
/-- SCH_SAMPLE.DELAY (R400). -/
def F.SCH_SAMPLE_DELAY : Fld := ⟨R.SCH_SAMPLE, 63, 32⟩
/-- SCH_SAMPLE.DEPTH (R400). -/
def F.SCH_SAMPLE_DEPTH : Fld := ⟨R.SCH_SAMPLE, 15, 0⟩
/-- GATE_CTRL.EN (R400). -/
def F.GATE_CTRL_EN : Fld := ⟨R.GATE_CTRL, 31, 31⟩
/-- GATE_CTRL.ARM (R400). -/
def F.GATE_CTRL_ARM : Fld := ⟨R.GATE_CTRL, 30, 30⟩
/-- GATE_CTRL.CANCEL (R400). -/
def F.GATE_CTRL_CANCEL : Fld := ⟨R.GATE_CTRL, 29, 29⟩
/-- GATE_STATUS.ACTIVE_VALID (R400). -/
def F.GATE_STATUS_ACTIVE_VALID : Fld := ⟨R.GATE_STATUS, 31, 31⟩
/-- GATE_STATUS.ARMED (R400). -/
def F.GATE_STATUS_ARMED : Fld := ⟨R.GATE_STATUS, 30, 30⟩
/-- GATE_STATUS.BANK (R400). -/
def F.GATE_STATUS_BANK : Fld := ⟨R.GATE_STATUS, 29, 29⟩
/-- GATE_STATUS.ARM_REFUSED (R400). -/
def F.GATE_STATUS_ARM_REFUSED : Fld := ⟨R.GATE_STATUS, 28, 28⟩
/-- GATE_STATUS.WRITE_REFUSED (R400). -/
def F.GATE_STATUS_WRITE_REFUSED : Fld := ⟨R.GATE_STATUS, 27, 27⟩
/-- GATE_STATUS.GW (R400). -/
def F.GATE_STATUS_GW : Fld := ⟨R.GATE_STATUS, 17, 17⟩
/-- GATE_STATUS.G6 (R400). -/
def F.GATE_STATUS_G6 : Fld := ⟨R.GATE_STATUS, 16, 16⟩
/-- GATE_STATUS.ENTRY (R400). -/
def F.GATE_STATUS_ENTRY : Fld := ⟨R.GATE_STATUS, 7, 0⟩
/-- GATE_PEND_LEN.LEN (R400). -/
def F.GATE_PEND_LEN_LEN : Fld := ⟨R.GATE_PEND_LEN, 8, 0⟩
/-- GATE_LONGEST.GW (R400). -/
def F.GATE_LONGEST_GW : Fld := ⟨R.GATE_LONGEST, 63, 32⟩
/-- GATE_LONGEST.G6 (R400). -/
def F.GATE_LONGEST_G6 : Fld := ⟨R.GATE_LONGEST, 31, 0⟩
/-- GATE_LIST.GW (R400). -/
def F.GATE_LIST_GW : Fld := ⟨R.GATE_LIST, 33, 33⟩
/-- GATE_LIST.G6 (R400). -/
def F.GATE_LIST_G6 : Fld := ⟨R.GATE_LIST, 32, 32⟩
/-- GATE_LIST.INTERVAL (R400). -/
def F.GATE_LIST_INTERVAL : Fld := ⟨R.GATE_LIST, 31, 0⟩
/-- SCH_LIM_CFG.RATE (R400). -/
def F.SCH_LIM_CFG_RATE : Fld := ⟨R.SCH_LIM_CFG, 51, 32⟩
/-- SCH_LIM_CFG.BURST (R400). -/
def F.SCH_LIM_CFG_BURST : Fld := ⟨R.SCH_LIM_CFG, 15, 0⟩
/-- SCH_LIM_TOKENS.CELLS (R400). -/
def F.SCH_LIM_TOKENS_CELLS : Fld := ⟨R.SCH_LIM_TOKENS, 31, 16⟩
/-- SCH_LIM_TOKENS.FRAC (R400). -/
def F.SCH_LIM_TOKENS_FRAC : Fld := ⟨R.SCH_LIM_TOKENS, 15, 0⟩
/-- SCH_LIM_WHEEL_USED.USED (R400). -/
def F.SCH_LIM_WHEEL_USED_USED : Fld := ⟨R.SCH_LIM_WHEEL_USED, 12, 0⟩
/-- SCH_LIM_MAP_BASE.BASE (R400). -/
def F.SCH_LIM_MAP_BASE_BASE : Fld := ⟨R.SCH_LIM_MAP_BASE, 35, 21⟩
/-- SCH_LIM_INV.ALL (R400). -/
def F.SCH_LIM_INV_ALL : Fld := ⟨R.SCH_LIM_INV, 31, 31⟩
/-- SCH_LIM_INV.CONN (R400). -/
def F.SCH_LIM_INV_CONN : Fld := ⟨R.SCH_LIM_INV, 19, 0⟩
/-- SCH_SAMPLE_CTRL.EN (R400). -/
def F.SCH_SAMPLE_CTRL_EN : Fld := ⟨R.SCH_SAMPLE_CTRL, 31, 31⟩
/-- SCH_SAMPLE_CTRL.PERIOD (R400). -/
def F.SCH_SAMPLE_CTRL_PERIOD : Fld := ⟨R.SCH_SAMPLE_CTRL, 19, 0⟩
/-- LANE_CTRL.RETEST (R425). -/
def F.LANE_CTRL_RETEST : Fld := ⟨R.LANE_CTRL, 4, 4⟩
/-- LANE_CTRL.FALLBACK (R425). -/
def F.LANE_CTRL_FALLBACK : Fld := ⟨R.LANE_CTRL, 3, 3⟩
/-- LANE_CTRL.RATE_EN (R425). -/
def F.LANE_CTRL_RATE_EN : Fld := ⟨R.LANE_CTRL, 1, 0⟩
/-- LANE_STATUS.RETIRED (R425). -/
def F.LANE_STATUS_RETIRED : Fld := ⟨R.LANE_STATUS, 31, 31⟩
/-- LANE_STATUS.PEER_RETIRED (R425). -/
def F.LANE_STATUS_PEER_RETIRED : Fld := ⟨R.LANE_STATUS, 30, 30⟩
/-- LANE_STATUS.RESTORED (R425). -/
def F.LANE_STATUS_RESTORED : Fld := ⟨R.LANE_STATUS, 29, 29⟩
/-- LANE_STATUS.CAUSE (R425). -/
def F.LANE_STATUS_CAUSE : Fld := ⟨R.LANE_STATUS, 28, 27⟩
/-- LANE_STATUS.STAGE (R425). -/
def F.LANE_STATUS_STAGE : Fld := ⟨R.LANE_STATUS, 26, 24⟩
/-- LANE_STATUS.POL_INV (R425). -/
def F.LANE_STATUS_POL_INV : Fld := ⟨R.LANE_STATUS, 23, 23⟩
/-- LANE_STATUS.SWAPPED (R425). -/
def F.LANE_STATUS_SWAPPED : Fld := ⟨R.LANE_STATUS, 22, 22⟩
/-- LANE_STATUS.FAILS (R425). -/
def F.LANE_STATUS_FAILS : Fld := ⟨R.LANE_STATUS, 19, 16⟩
/-- LANE_STATUS.SNR (R425). -/
def F.LANE_STATUS_SNR : Fld := ⟨R.LANE_STATUS, 15, 8⟩
/-- LANE_TX_EQ.CM3 (R425). -/
def F.LANE_TX_EQ_CM3 : Fld := ⟨R.LANE_TX_EQ, 39, 32⟩
/-- LANE_TX_EQ.CM2 (R425). -/
def F.LANE_TX_EQ_CM2 : Fld := ⟨R.LANE_TX_EQ, 31, 24⟩
/-- LANE_TX_EQ.CM1 (R425). -/
def F.LANE_TX_EQ_CM1 : Fld := ⟨R.LANE_TX_EQ, 23, 16⟩
/-- LANE_TX_EQ.C0 (R425). -/
def F.LANE_TX_EQ_C0 : Fld := ⟨R.LANE_TX_EQ, 15, 8⟩
/-- LANE_TX_EQ.CP1 (R425). -/
def F.LANE_TX_EQ_CP1 : Fld := ⟨R.LANE_TX_EQ, 7, 0⟩
/-- LANE_TX_CFG.START_PRESET (R425). -/
def F.LANE_TX_CFG_START_PRESET : Fld := ⟨R.LANE_TX_CFG, 10, 8⟩
/-- LANE_TX_CFG.AMP (R425). -/
def F.LANE_TX_CFG_AMP : Fld := ⟨R.LANE_TX_CFG, 7, 0⟩
/-- EYE_CTRL.GO (R425). -/
def F.EYE_CTRL_GO : Fld := ⟨R.EYE_CTRL, 31, 31⟩
/-- EYE_CTRL.EYE (R425). -/
def F.EYE_CTRL_EYE : Fld := ⟨R.EYE_CTRL, 29, 28⟩
/-- EYE_CTRL.PHASE (R425). -/
def F.EYE_CTRL_PHASE : Fld := ⟨R.EYE_CTRL, 21, 16⟩
/-- EYE_CTRL.VOFF (R425). -/
def F.EYE_CTRL_VOFF : Fld := ⟨R.EYE_CTRL, 15, 8⟩
/-- EYE_CTRL.DWELL (R425). -/
def F.EYE_CTRL_DWELL : Fld := ⟨R.EYE_CTRL, 7, 4⟩
/-- EYE_RESULT.VALID (R425). -/
def F.EYE_RESULT_VALID : Fld := ⟨R.EYE_RESULT, 63, 63⟩
/-- EYE_RESULT.ABORTED (R425). -/
def F.EYE_RESULT_ABORTED : Fld := ⟨R.EYE_RESULT, 62, 62⟩
/-- EYE_RESULT.MISMATCHES (R425). -/
def F.EYE_RESULT_MISMATCHES : Fld := ⟨R.EYE_RESULT, 39, 0⟩
/-- LANE_RETIRE_CFG.FAIL_WINDOW (R425). -/
def F.LANE_RETIRE_CFG_FAIL_WINDOW : Fld := ⟨R.LANE_RETIRE_CFG, 47, 40⟩
/-- LANE_RETIRE_CFG.FAIL_COUNT (R425). -/
def F.LANE_RETIRE_CFG_FAIL_COUNT : Fld := ⟨R.LANE_RETIRE_CFG, 35, 32⟩
/-- LANE_RETIRE_CFG.SER_LIMIT (R425). -/
def F.LANE_RETIRE_CFG_SER_LIMIT : Fld := ⟨R.LANE_RETIRE_CFG, 31, 0⟩
/-- LANE_TRAIN_CFG.EQ_BUDGET (R425). -/
def F.LANE_TRAIN_CFG_EQ_BUDGET : Fld := ⟨R.LANE_TRAIN_CFG, 31, 16⟩
/-- LANE_TRAIN_CFG.RETRY_WAIT (R425). -/
def F.LANE_TRAIN_CFG_RETRY_WAIT : Fld := ⟨R.LANE_TRAIN_CFG, 7, 0⟩
/-- PMU_ENG_SEL.EN (R483). -/
def F.PMU_ENG_SEL_EN : Fld := ⟨R.PMU_ENG_SEL, 31, 31⟩
/-- PMU_ENG_SEL.MODE (R483). -/
def F.PMU_ENG_SEL_MODE : Fld := ⟨R.PMU_ENG_SEL, 30, 28⟩
/-- PMU_ENG_SEL.PRIV (R483). -/
def F.PMU_ENG_SEL_PRIV : Fld := ⟨R.PMU_ENG_SEL, 27, 25⟩
/-- PMU_ENG_SEL.EVENT (R483). -/
def F.PMU_ENG_SEL_EVENT : Fld := ⟨R.PMU_ENG_SEL, 24, 16⟩
/-- PMU_ENG_SEL.THRESH (R483). -/
def F.PMU_ENG_SEL_THRESH : Fld := ⟨R.PMU_ENG_SEL, 15, 0⟩
/-- PMU_SEL.EN (R483). -/
def F.PMU_SEL_EN : Fld := ⟨R.PMU_SEL, 31, 31⟩
/-- PMU_SEL.MODE (R483). -/
def F.PMU_SEL_MODE : Fld := ⟨R.PMU_SEL, 30, 28⟩
/-- PMU_SEL.PRIV (R483). -/
def F.PMU_SEL_PRIV : Fld := ⟨R.PMU_SEL, 27, 25⟩
/-- PMU_SEL.EVENT (R483). -/
def F.PMU_SEL_EVENT : Fld := ⟨R.PMU_SEL, 24, 16⟩
/-- PMU_SEL.THRESH (R483). -/
def F.PMU_SEL_THRESH : Fld := ⟨R.PMU_SEL, 15, 0⟩
/-- PMU_CTRL.FREEZE (R483). -/
def F.PMU_CTRL_FREEZE : Fld := ⟨R.PMU_CTRL, 0, 0⟩
/-- PMU_USER_READ.CSRS (R483). -/
def F.PMU_USER_READ_CSRS : Fld := ⟨R.PMU_USER_READ, 5, 0⟩
/-- PMU_DUMP_CTRL.EN (R483). -/
def F.PMU_DUMP_CTRL_EN : Fld := ⟨R.PMU_DUMP_CTRL, 31, 31⟩
/-- PMU_DUMP_CTRL.SET (R483). -/
def F.PMU_DUMP_CTRL_SET : Fld := ⟨R.PMU_DUMP_CTRL, 27, 21⟩
/-- PMU_DUMP_CTRL.PERIOD (R483). -/
def F.PMU_DUMP_CTRL_PERIOD : Fld := ⟨R.PMU_DUMP_CTRL, 19, 0⟩
/-- PMU_DUMP_DEST.BASE (R483). -/
def F.PMU_DUMP_DEST_BASE : Fld := ⟨R.PMU_DUMP_DEST, 63, 12⟩
/-- PMU_DUMP_CFG.HOST (R483). -/
def F.PMU_DUMP_CFG_HOST : Fld := ⟨R.PMU_DUMP_CFG, 31, 31⟩
/-- PMU_DUMP_CFG.FUNC (R483). -/
def F.PMU_DUMP_CFG_FUNC : Fld := ⟨R.PMU_DUMP_CFG, 25, 16⟩
/-- PMU_DUMP_CFG.SIZE (R483). -/
def F.PMU_DUMP_CFG_SIZE : Fld := ⟨R.PMU_DUMP_CFG, 15, 0⟩
/-- PMU_SAMP_CTRL.EN (R483). -/
def F.PMU_SAMP_CTRL_EN : Fld := ⟨R.PMU_SAMP_CTRL, 31, 31⟩
/-- PMU_SAMP_CTRL.CLASS (R483). -/
def F.PMU_SAMP_CTRL_CLASS : Fld := ⟨R.PMU_SAMP_CTRL, 30, 28⟩
/-- PMU_SAMP_CTRL.PRIV (R483). -/
def F.PMU_SAMP_CTRL_PRIV : Fld := ⟨R.PMU_SAMP_CTRL, 27, 25⟩
/-- PMU_SAMP_CTRL.PERIOD (R483). -/
def F.PMU_SAMP_CTRL_PERIOD : Fld := ⟨R.PMU_SAMP_CTRL, 15, 0⟩
/-- PMU_SAMP_DEST.BASE (R483). -/
def F.PMU_SAMP_DEST_BASE : Fld := ⟨R.PMU_SAMP_DEST, 63, 12⟩
/-- PMU_SAMP_CFG.HOST (R483). -/
def F.PMU_SAMP_CFG_HOST : Fld := ⟨R.PMU_SAMP_CFG, 31, 31⟩
/-- PMU_SAMP_CFG.FUNC (R483). -/
def F.PMU_SAMP_CFG_FUNC : Fld := ⟨R.PMU_SAMP_CFG, 25, 16⟩
/-- PMU_SAMP_CFG.LOG2 (R483). -/
def F.PMU_SAMP_CFG_LOG2 : Fld := ⟨R.PMU_SAMP_CFG, 4, 0⟩
/-- HIST_SEL.EN (R483). -/
def F.HIST_SEL_EN : Fld := ⟨R.HIST_SEL, 31, 31⟩
/-- HIST_SEL.CLEAR (R483). -/
def F.HIST_SEL_CLEAR : Fld := ⟨R.HIST_SEL, 30, 30⟩
/-- HIST_SEL.SHIFT (R483). -/
def F.HIST_SEL_SHIFT : Fld := ⟨R.HIST_SEL, 29, 26⟩
/-- HIST_SEL.DEPTH_LOG (R483). -/
def F.HIST_SEL_DEPTH_LOG : Fld := ⟨R.HIST_SEL, 25, 22⟩
/-- HIST_SEL.SRC (R483). -/
def F.HIST_SEL_SRC : Fld := ⟨R.HIST_SEL, 20, 16⟩
/-- HIST_SEL.INSTANCE (R483). -/
def F.HIST_SEL_INSTANCE : Fld := ⟨R.HIST_SEL, 9, 0⟩
/-- HIST_FILT.TC_MASK (R483). -/
def F.HIST_FILT_TC_MASK : Fld := ⟨R.HIST_FILT, 7, 0⟩
/-- HIST_FILT.HC_MASK (R483). -/
def F.HIST_FILT_HC_MASK : Fld := ⟨R.HIST_FILT, 15, 8⟩
/-- HIST_FILT.KIND (R483). -/
def F.HIST_FILT_KIND : Fld := ⟨R.HIST_FILT, 17, 16⟩
/-- HIST_FILT.GROUP_EN (R483). -/
def F.HIST_FILT_GROUP_EN : Fld := ⟨R.HIST_FILT, 18, 18⟩
/-- HIST_FILT.GROUP (R483). -/
def F.HIST_FILT_GROUP : Fld := ⟨R.HIST_FILT, 27, 19⟩
/-- HIST_FILT.CHAN_EN (R483). -/
def F.HIST_FILT_CHAN_EN : Fld := ⟨R.HIST_FILT, 28, 28⟩
/-- HIST_FILT.CHAN (R483). -/
def F.HIST_FILT_CHAN : Fld := ⟨R.HIST_FILT, 32, 29⟩

end Sys2Proof.Machine
end

