-- ==== Sys2Proof/Machine/Store.lean ====
section
/-! DEFINITION. Machine/Store.lean: the two containers that State is made of, in one canonical form each.
A map lists only what differs from its default, keys strictly rising; a memory lists only bytes other than zero. -/
namespace Sys2Proof.Machine

/-- A sparse map from numbers: pairs in strictly rising key order, none holding the default. -/
abbrev SMap (α : Type) := List (Nat × α)

/-- The value at a key; an unlisted key holds the default. -/
def SMap.get {α : Type} (d : α) : SMap α → Nat → α
  | [], _ => d
  | (k', v) :: m, k => if k = k' then v else SMap.get d m k

/-- Is the key listed? -/
def SMap.has {α : Type} : SMap α → Nat → Bool
  | [], _ => false
  | (k', _) :: m, k => if k = k' then true else SMap.has m k

/-- The map without a key. -/
def SMap.erase {α : Type} : SMap α → Nat → SMap α
  | [], _ => []
  | (k', v') :: m, k => if k = k' then SMap.erase m k else (k', v') :: SMap.erase m k

/-- The map with a key listed at a value. -/
def SMap.insert {α : Type} : SMap α → Nat → α → SMap α
  | [], k, v => [(k, v)]
  | (k', v') :: m, k, v =>
    if k = k' then (k, v) :: m
    else if k < k' then (k, v) :: (k', v') :: m
    else (k', v') :: SMap.insert m k v

/-- The map with a key at a value; writing the default removes the entry. -/
def SMap.set {α : Type} [DecidableEq α] (d : α) (m : SMap α) (k : Nat) (v : α) : SMap α :=
  if v = d then SMap.erase m k else SMap.insert m k v

/-- Keys strictly rising above a bound, no entry equal to the default. -/
def SMap.wfFrom {α : Type} [DecidableEq α] (d : α) : Nat → SMap α → Bool
  | _, [] => true
  | lo, (k, v) :: m => decide (lo ≤ k) && decide (v ≠ d) && SMap.wfFrom d (k + 1) m

/-- The canonical form of a map. -/
def SMap.wf {α : Type} [DecidableEq α] (d : α) (m : SMap α) : Bool := SMap.wfFrom d 0 m

/-- Every listed value changed by a function of its key, in canonical form. -/
def SMap.mapVals {α : Type} [DecidableEq α] (d : α) (f : Nat → α → α) : SMap α → SMap α
  | [] => []
  | (k, v) :: m =>
    let v' := f k v
    if v' = d then SMap.mapVals d f m else (k, v') :: SMap.mapVals d f m

/-- The keys whose value satisfies a test. -/
def SMap.keysWhere {α : Type} (p : Nat → α → Bool) (m : SMap α) : List Nat :=
  (m.filter fun e => p e.1 e.2).map (·.1)

/-- The byte memory of the device: HBM, cluster shared memories, engine local memories and Pewter, in one flat
numbering that is the model's own (DESIGN CHOICE, log entry 5). -/
abbrev Memory := List Host.Cell

/-- A byte; a byte that nothing has written reads zero (DESIGN CHOICE, log entry 6). -/
def Memory.read (m : Memory) (a : Nat) : Byte := SMap.get (0 : Byte) m a

/-- A byte written; the canonical form is kept. -/
def Memory.write (m : Memory) (a : Nat) (b : Byte) : Memory := SMap.set (0 : Byte) m a b

/-- n bytes from a. -/
def Memory.readN (m : Memory) (a : Nat) : Nat → List Byte
  | 0 => []
  | n + 1 => m.read a :: Memory.readN m (a + 1) n

/-- Bytes written from a upward. -/
def Memory.writeN (m : Memory) (a : Nat) : List Byte → Memory
  | [] => m
  | b :: bs => Memory.writeN (m.write a b) (a + 1) bs

/-- The canonical form of memory. -/
def Memory.wf (m : Memory) : Bool := SMap.wf (0 : Byte) m

/-- The flat numbering of the memories: HBM physical addresses, 48 GiB. -/
def hbmKey (a : Nat) : Nat := a
/-- The shared memory of cluster c, 1 MiB each. -/
def csmKey (c a : Nat) : Nat := 2 ^ 36 + c * 2 ^ 20 + a
/-- The local memory of engine g, 64 KiB each. -/
def ldmKey (g a : Nat) : Nat := 2 ^ 37 + g * 2 ^ 16 + a
/-- The life store, 16 MiB. -/
def pewterKey (a : Nat) : Nat := 2 ^ 38 + a

/-- A set of numbers as a strictly rising list. -/
abbrev NSet := SMap Unit
/-- Membership. -/
def NSet.mem (s : NSet) (k : Nat) : Bool := SMap.has s k
/-- A number added. -/
def NSet.add (s : NSet) (k : Nat) : NSet := SMap.insert s k ()
/-- A number removed. -/
def NSet.del (s : NSet) (k : Nat) : NSet := SMap.erase s k

/-- An element put into a list that rises by a key, after its equals. -/
def insertBy {α : Type} (key : α → Nat) (x : α) : List α → List α
  | [] => [x]
  | y :: ys => if key x < key y then x :: y :: ys else y :: insertBy key x ys

/-- A list in rising order of a key, equals kept in their order. -/
def sortBy {α : Type} (key : α → Nat) (xs : List α) : List α := xs.foldl (fun acc x => insertBy key x acc) []

end Sys2Proof.Machine
end

