-- ==== Sys2Proof/Machine/State.lean ====
section
/-! DEFINITION. Machine/State.lean: the whole state of the block as plain data, and its value at reset. -/
namespace Sys2Proof.Machine

/-- Why a step faults. No command of this block faults: every event that the manual describes has an effect. -/
inductive Fault where
  /-- Raised by nothing at present; kept so that the type is not empty. Safe. -/
  | none
deriving DecidableEq, Repr

/-- Why a step is refused. -/
inductive Refusal where
  /-- Raised by an arm of exec whose command has no meaning yet. Safe: the machine stops. -/
  | notModelled (mnemonic : String)
deriving DecidableEq, Repr

/-- Invar's time states (R46, Table 2-1). -/
inductive TimeState | disabled | listen | acquire | track | holdover | unsync | root
deriving DecidableEq, Repr

/-- What a device knows of the root (R40, R41, R43). -/
structure RootView where
  cand : Cand
  gen : Nat
  seq : Nat
  heardAt : Word
deriving DecidableEq, Repr

/-- The exchange and announcement state of one port (R35, R38, R362). Delays are in 1/16 tick; `mute` says that
INV_PORT_DELAY reads 0 until 64 new samples are averaged after a port reset (Table 23-5). -/
structure PortTime where
  outstanding : List (Nat × Nat × Word)
  nextId : Nat
  lastSync : Word
  delay : Int
  seen : Nat
  sum : Int
  heard : Option Announce
  heardAt : Word
  mute : Bool
deriving DecidableEq, Repr

/-- A port before its first exchange. -/
def PortTime.init : PortTime := ⟨[], 0, 0, 0, 0, 0, none, 0, false⟩

/-- Invar (Fabric Time). `ft` and `loc` are FT and INV_LOCAL; `root` is the root last known, which `staleAt` says was
discarded (R41); `ownSeq` the announce sequence of this device as a candidate; `leftAt` when it last left TRACK or ROOT;
`ftSetTaken` whether INV_FT_SET was taken since device reset; `stepped` and `acqCount` the progress of ACQUIRE (R38);
`suspended` counts the delay samples still to come before the servo resumes; `offset` is the last offset to the parent in full;
`await` since when this candidate waits for the announcement of the standby, and that standby's DN (R42). -/
structure Invar where
  ft : Word
  loc : Word
  state : TimeState
  root : Option RootView
  lastGen : Nat
  ownSeq : Nat
  standby : Option Cand
  parent : Option Nat
  ports : SMap PortTime
  lastAnnounce : Word
  enteredAt : Word
  leftAt : Word
  holdLong : Bool
  ftSetTaken : Bool
  stepped : Bool
  acqCount : Nat
  rootChanged : Bool
  integ : Int
  goodRun : Nat
  offset : Int
  suspended : Option Nat
  slewFast : Bool
  specMet : Bool
  extLock : Bool
  ppsAligned : Bool
  ppsGood : Nat
  ppsLast : Option Word
  ref10mLost : Bool
  ppsOutEnd : Option Word
  staleAt : Option Word
  await : Option (Word × Option Nat)
deriving DecidableEq, Repr

/-- Invar after device reset: DISABLED, FT and INV_LOCAL 0. -/
def Invar.init : Invar :=
  { ft := 0, loc := 0, state := .disabled, root := none, lastGen := 0, ownSeq := 0, standby := none, parent := none, ports := [],
    lastAnnounce := 0, enteredAt := 0, leftAt := 0, holdLong := false, ftSetTaken := false, stepped := false,
    acqCount := 0, rootChanged := false, integ := 0, goodRun := 0, offset := 0, suspended := none, slewFast := false,
    specMet := false, extLock := false, ppsAligned := false, ppsGood := 0, ppsLast := none, ref10mLost := false,
    ppsOutEnd := none, staleAt := none, await := none }

/-- A Work FIFO item: the fields of its header and its bytes, word 0 bytes 0 to 55 and then the later words
(R134, Table 5-1). -/
structure Item where
  ty : Nat
  len : Nat
  prio : Nat
  src : Nat
  srcCluster : Nat
  commitNs : Nat
  body : List Byte
deriving DecidableEq, Repr

/-- One bank of a Work FIFO: committed items, oldest first, and reservations with their word counts (R138, R141). -/
structure Bank where
  items : List Item
  resv : List (Nat × Nat)
deriving DecidableEq, Repr

/-- What hangs on the commit of an item: nothing; the completion of an operation, by its slot and its order (R102, R105); or a work
entry, by its queue and serial (R139, R159). -/
inductive WriteFor
  | plain
  | opDone (slot order : Nat)
  | entry (qn serial : Nat)
deriving DecidableEq, Repr

/-- An item at the write port: the bank its space is reserved in, none while it waits for space; whether it is of the reserve
class; the item; and what hangs on its commit (R137 to R139, R147). -/
structure Writing where
  bank : Option Nat
  reserveClass : Bool
  item : Item
  for_ : WriteFor
deriving DecidableEq, Repr

/-- A Work FIFO (R141, R150). `turn` is the producer that the write port was granted to last, as SRC numbers producers (R137,
Table 5-1). -/
structure Fifo where
  fill : Nat
  bank0 : Bank
  bank1 : Bank
  writing : List Writing
  turn : Nat
  cfgRefused : Bool
deriving DecidableEq, Repr

/-- An empty Work FIFO. -/
def Fifo.init : Fifo := ⟨0, ⟨[], []⟩, ⟨[], []⟩, [], 0, false⟩

/-- An error record (R444, Table 19-4); `openRec` and `locAt` serve R447. -/
structure ErrRec where
  ft : Word
  locAt : Word
  code : Nat
  source : Nat
  cls : Nat
  injected : Bool
  real : Bool
  holdover : Bool
  ftInvalid : Bool
  firstFatal : Bool
  merged : Nat
  info0 : Nat
  info1 : Nat
  lastFt : Word
  seq : Nat
  seen : Nat
  mergedSrc : Nat
  openRec : Bool
deriving DecidableEq, Repr

/-- An absent error record: every byte zero. -/
def ErrRec.zero : ErrRec := ⟨0, 0, 0, 0, 0, false, false, false, false, false, 0, 0, 0, 0, 0, 0, 0, false⟩

/-- Tungsten, the fault collector (R445 to R459). `frozen` is the index of the freezing record, `safe` the INV_LOCAL of
the capture that entered the safe state, `fatalDue` the records still to be written to Pewter. -/
structure Tungsten where
  hist : SMap ErrRec
  next : Nat
  count : Nat
  seq : Nat
  highest : Nat
  frozen : Option Nat
  halted : Bool
  safe : Option Word
  post : Option ErrRec
  armed : Bool
  faultNAdapter : Bool
  faultNDevice : Bool
  injectRefused : Bool
  heldEvents : List (List Byte)
  fatalDue : Bool
  txOff : Bool
  retest : Option (Nat × Nat × Word)
deriving DecidableEq, Repr

/-- Tungsten after device reset. -/
def Tungsten.init : Tungsten :=
  { hist := [], next := 0, count := 0, seq := 0, highest := 0, frozen := none, halted := false, safe := none,
    post := none, armed := false, faultNAdapter := false, faultNDevice := false, injectRefused := false,
    heldEvents := [], fatalDue := false, txOff := false, retest := none }

/-- Queue states (Table 7-2). -/
inductive QState | unused | ready | draining | shutdown | error
deriving DecidableEq, Repr

/-- A fetched work entry with no committed completion: the count of entries its queue had fetched before it, its ring
index, its 64 bytes, and whether it has started (R156, R184, R187). -/
structure OutEntry where
  serial : Nat
  idx : Nat
  bytes : List Byte
  started : Bool
deriving DecidableEq, Repr

/-- A read of a work entry: its serial, the Work FIFO and bank of its reservation, its level, how many reads of it have failed,
whether it is the first of its grant (R180), whether it waits for room to be made again (R147), and the entry's bytes once they have
returned and its item is at the write port (R138, R139, R159). -/
structure EntryRead where
  serial : Nat
  fifo : Nat
  bank : Nat
  prio : Nat
  failed : Nat
  first : Bool
  waits : Bool
  data : Option (List Byte)
deriving DecidableEq, Repr

/-- An SQ, an RQ, or the control ring of a PF (R151, R159, R176, R184). `fetched` counts the entries fetched and `start`
is its value when the queue was created, so that the fetch index is their difference modulo the size; `tail` is the
recorded tail; `newArb` an ARB that waits for the queue's next new turn (R183); `readyDue` a QUEUE_READY item that waits
for room (R148); `shutdownBy` the Q_SHUTDOWN command to complete, as the PF and the serial of its entry; `bells` the doorbells whose entries are not
all fetched: the count of entries that each made fetchable, and when it came. -/
structure Queue where
  state : QState
  rq : Bool
  log2 : Nat
  cn : Nat
  base : Nat
  func : Nat
  vfDb : Nat
  handlerServed : Bool
  fifo : Nat
  prio : Nat
  conn : Option Nat
  cluster : Nat
  qslot : Nat
  burst : Nat
  group : Nat
  weight : Nat
  newArb : Option (Nat × Nat × Nat)
  start : Nat
  fetched : Nat
  tail : Nat
  outstanding : List OutEntry
  reading : List EntryRead
  readyDue : Bool
  shutdownBy : Option (Nat × Nat)
  bells : List (Nat × Word)
deriving DecidableEq, Repr

/-- An absent queue. -/
def Queue.init : Queue :=
  { state := .unused, rq := false, log2 := 6, cn := 0, base := 0, func := 0, vfDb := 0, handlerServed := false,
    fifo := 0, prio := 0, conn := none, cluster := 0, qslot := 0, burst := 1, group := 0, weight := 1, newArb := none,
    start := 0, fetched := 0, tail := 0, outstanding := [], reading := [], readyDue := false, shutdownBy := none,
    bells := [] }

/-- Completion ring states (Table 7-4). -/
inductive CqState | unused | ready | full | failed
deriving DecidableEq, Repr

/-- A committed completion: its 32 bytes (Table 6-4), the NOW bit of its work entry (R153), and the queue and the bus
address of the work entry whose byte 0 is cleared before the completion is written (R160), and when it was committed. -/
structure Completion where
  raw : List Byte
  now : Bool
  work : Option (Nat × Nat)
  at_ : Word := 0
deriving DecidableEq, Repr

/-- A completion ring (R161, R173, R188, R189), owned by `cluster` (R24). `direct` completions wait for their write, `held`
are in stash and pool; `pollAt` is when the next ownership read may start; `emptyRead` says that the last read found
OWN = 0 at entry W + K; `pend`, `timer` and `nowMet` are its moderation. -/
structure Cq where
  state : CqState
  log2 : Nat
  base : Nat
  func : Nat
  cluster : Nat
  vector : Nat
  modCount : Nat
  modTime : Nat
  irqEn : Bool
  w : Nat
  k : Nat
  reading : Bool
  emptyRead : Bool
  pollAt : Option Word
  direct : List Completion
  held : List Completion
  pend : Nat
  timer : Option Word
  nowMet : Bool
  stallFrom : Word
deriving DecidableEq, Repr

/-- An absent completion ring. -/
def Cq.init : Cq :=
  { state := .unused, log2 := 6, base := 0, func := 0, cluster := 0, vector := 0, modCount := 1, modTime := 0,
    irqEn := false, w := 0, k := 0, reading := false, emptyRead := false, pollAt := none, direct := [], held := [],
    pend := 0, timer := none, nowMet := false, stallFrom := 0 }

/-- A node of an arbiter tree: its signed deficit and whether its next selection starts a new turn (R180). -/
structure ArbNode where
  deficit : Int
  newTurn : Bool
deriving DecidableEq, Repr

/-- A node that has just become active. -/
def ArbNode.init : ArbNode := ⟨0, true⟩

/-- Ring service (R178 to R191): queues by QN, with the control ring of PF p at 262144 + p; completion rings by CN, with
the control completion ring of PF p at 65536 + p; the round-robin lists and nodes of the arbiter trees: functions by
link, groups by function, queues by 8 × function + group; and the RING_EVENT items that wait for room, with their
clusters. -/
structure Rings where
  queues : SMap Queue
  cqs : SMap Cq
  linkList : SMap (List Nat)
  funcList : SMap (List Nat)
  groupList : SMap (List Nat)
  nodeF : SMap ArbNode
  nodeG : SMap ArbNode
  nodeQ : SMap ArbNode
  events : List (Nat × List Byte)
deriving DecidableEq, Repr

/-- No queue and no ring. -/
def Rings.init : Rings := ⟨[], [], [], [], [], [], [], [], []⟩

/-- Who started an operation: a thread (its number and which of its dispatches), the standard library for a fetched work entry
(QN, ring index), for the response to a request (connection, sequence number of the request), for the get of a
rendezvous (connection, sequence number of the SEND), or for a retransmission. -/
inductive Origin
  | thread (tid run : Nat)
  | work (qn idx : Nat)
  | response (conn : Nat) (seq : BitVec 32)
  | rendezvous (conn : Nat) (seq : BitVec 32) (qn idx : Nat)
  | retransmit (conn : Nat)
  | coll (id step : Nat)
deriving DecidableEq, Repr

/-- An operation in a slot of its cluster (R101 to R106, R110 to R117, R127). `block` is its command block; `n`, `formed`
and `departed` count its packets; `status` is some once it has completed, `delivered` once the completion has been
reported; `placed` are the byte ranges already placed of a get; `held` says that it waits for a fence, a window or a
limiter; `pendFault` is a walk failure waiting to be taken; `order` its place in the order of acceptance; `stage` how far its
report has come: 1 its status word is written, 2 its item has been refused room and counted, 3 its item is being written (R105,
R148); `keyed` the ASK under whose key a read of it has passed its check (R128, R208); `aborting` that an abort of a transfer is lodged (R132); `cause` the cause of the walk failure that ended it (R252); `lim` the rate limiter found for it (R394); `at_` when it was accepted. -/
structure Op where
  kind : Nat
  flags : Nat
  gen : Nat
  origin : Origin
  block : List Byte
  conn : Option Nat
  dstDn : Nat
  dstFunc : Nat
  n : Nat
  formed : Nat
  departed : Nat
  bytes : Nat
  placed : List (Nat × Nat)
  deadline : Option Word
  status : Option Nat
  delivered : Bool
  result : Word
  cflags : Nat
  ftDone : Word
  ftAux : Word
  held : Bool
  voiding : Option Nat
  pendFault : Option Nat
  mover : Option Nat
  order : Nat
  stage : Nat
  keyed : Option Nat
  aborting : Bool
  cause : Nat
  lim : Option Nat
  at_ : Word
deriving DecidableEq, Repr

/-- A free slot that has never been used. -/
def Op.free : Op :=
  { kind := 0, flags := 0, gen := 0, origin := .thread 0 0, block := [], conn := none, dstDn := 0, dstFunc := 0, n := 0,
    formed := 0, departed := 0, bytes := 0, placed := [], deadline := none, status := some 0, delivered := true,
    result := 0, cflags := 0, ftDone := 0, ftAux := 0, held := false, voiding := none, pendFault := none, mover := none,
    order := 0, stage := 0, keyed := none, aborting := false, cause := 0, lim := none, at_ := 0 }

/-- An armed trigger (R125): its slot, its fire time, whether it launches, and the launch block and flags. -/
structure Trigger where
  slot : Nat
  fireAt : Word
  launch : Bool
  block : List Byte
  lflags : Nat
deriving DecidableEq, Repr

/-- A packet handed to a cluster and not yet released (R129, R343): the packet, the half of its stream, and when Solder
received it and whether in holdover. `accepted` says that a keyed transfer of it passed its check (R128), `issued` that its transfer has issued
all its writes (R344), `xlt` is a walk failure waiting to be taken, `doom` the refusal that the end of a lower sequence
number gives it (R344), and `busy` that a request to a host made for it is outstanding. -/
structure PktRef where
  pkt : Packet
  conn : Nat
  rxFt : Word
  rxHold : Bool
  accepted : Bool
  issued : Bool
  xlt : Option Nat
  doom : Option (Nat × Nat)
  busy : Bool
deriving DecidableEq, Repr

/-- What one translation entry permits, and where it leads (Table 10-3, R246, R249). `size` is the page size as a power
of two. -/
structure TlbEntry where
  ask : Nat
  vpage : Nat
  size : Nat
  paddr : Nat
  hbm : Bool
  bits : Nat
  filledAt : Word
deriving DecidableEq, Repr

/-- A pointer entry in a page-walk cache (R249): the table that serves `level` for the region `prefix`. -/
structure PwcEntry where
  ask : Nat
  level : Nat
  region : Nat
  table : Nat
  hbm : Bool
  filledAt : Word
deriving DecidableEq, Repr

/-- Who waits for a translation (R250, R251). -/
inductive XltClient
  | fetch (g t : Nat)
  | data (g t : Nat)
  | op (slot : Nat)
  | pkt (ref : Nat)
deriving DecidableEq, Repr

/-- A translation miss: ASK, address and client (R250). -/
structure XltReq where
  ask : Nat
  va : Nat
  client : XltClient
deriving DecidableEq, Repr

/-- A walk in flight, when it started, and the windows of its attachment as they were then, each as its ends (R250, R251, R256, R260). -/
structure Walk where
  ask : Nat
  va : Nat
  clients : List XltClient
  stale : Bool
  at_ : Word
  wins : List (Nat × Nat)
deriving DecidableEq, Repr

/-- An entry of a match list (R122, R265): source, tag, mask and reference; `any` is SRC_ANY; `ord` is its place among the receives
posted in its context. -/
structure MatchEntry where
  any : Bool
  src : Nat
  tag : Nat
  mask : Nat
  ref : Nat
  ord : Nat
deriving DecidableEq, Repr

/-- The lists of one match context, oldest first; `next` counts the receives posted. -/
structure MatchCtx where
  claimed : Bool
  func : Nat
  posted : List MatchEntry
  unexp : List MatchEntry
  next : Nat
deriving DecidableEq, Repr

/-- A context with nothing in it. -/
def MatchCtx.init : MatchCtx := ⟨false, 0, [], [], 0⟩

/-- An unexpected record (R266, R272): the half that the message came on, its source, tag, HDATA and length; the buffer block of
an eager message, or the key, length and address of a rendezvous request; whether it is being copied (0), READY (1) or VOID (2);
the receive that has matched it, as its queue and serial; and the cluster and packet reference that it is copied from. -/
structure UnexpRec where
  conn : Nat
  src : Nat
  tag : Nat
  hdata : Nat
  len : Nat
  block : Option Nat
  desc : Option (Nat × Nat × Nat)
  st : Nat
  waiter : Option (Nat × Nat)
  ref : Option (Nat × Nat)
deriving DecidableEq, Repr

/-- What a match server forwards to another home (R267): a message by its packet reference, or a receive by its queue and
serial. -/
inductive Fwd
  | msg (home ref : Nat)
  | recv (home qn serial : Nat)
deriving DecidableEq, Repr

/-- A message that has met a posted receive and is to be copied: its cluster and packet reference, the receive's queue and serial, and
the place that the receive had in its list. -/
structure Met where
  cluster : Nat
  ref : Nat
  qn : Nat
  serial : Nat
  ord : Nat
deriving DecidableEq, Repr

/-- The match units and match servers (R262 to R283): contexts by number; unexpected records, by 2^20 × home + number; messages
that met a posted receive; the overflow lists by cluster; receives that wait for room in a list, as context, queue and serial;
receives kept by a server for want of room in its overflow list, as queue and serial; and what has been forwarded and not yet
been taken at its home, by the forwarding cluster. -/
structure Matches where
  ctxs : SMap MatchCtx
  recs : SMap (Option UnexpRec)
  matched : List Met
  overflow : SMap (List Fwd)
  waiting : List (Nat × Nat × Nat)
  kept : List (Nat × Nat)
  fwd : List (Nat × Fwd)
deriving DecidableEq, Repr

/-- No context claimed, nothing in any list. -/
def Matches.init : Matches := ⟨[], [], [], [], [], [], []⟩

/-- A connection half's states (Table 8-5). -/
inductive CState | unused | established | error | quiet
deriving DecidableEq, Repr

/-- Where a held packet waits (R346, R347). -/
inductive Place | onDie | spill | readBack
deriving DecidableEq, Repr

/-- A packet that Solder holds (R341, R346). `returned` marks one given back unconsumed (R343); `full` one that its Work FIFO has
had no room for, which has been counted (R148); `cellsAt` the cells of the spill region that hold a spilled one. -/
structure Held where
  pkt : Packet
  rxFt : Word
  rxHold : Bool
  at_ : Word
  ready : Bool
  place : Place
  reserve : Bool
  returned : Bool
  readyOrder : Nat
  full : Bool := false
  cellsAt : List Nat := []
deriving DecidableEq, Repr

/-- The receiving direction of a half (R219, R229, R339). `consumed` lists consumed numbers above E; `released` the
numbers released and unanswered with their references; `ackCount` and `ackFrom` the acknowledgement due; `last` the
packet most recently received among those newly consumed; `wrote` the last host byte written since the last proof; `peer`
the device that its packets come from. -/
structure Stream where
  e : BitVec 32
  nr : BitVec 32
  fail : Bool
  held : List Held
  released : List (BitVec 32 × Nat)
  consumed : List (BitVec 32)
  ctx : Bool
  ackCount : Nat
  ackFrom : Option Word
  last : Option (BitVec 32 × Nat × Nat × Bool)
  proof : Option (BitVec 32 × Word)
  proving : Option (BitVec 32 × Nat)
  wrote : Option Nat
  immBytes : Nat
  peer : Nat
deriving DecidableEq, Repr

/-- A stream before any packet. -/
def Stream.init : Stream :=
  { e := 0, nr := 0, fail := false, held := [], released := [], consumed := [], ctx := false, ackCount := 0,
    ackFrom := none, last := none, proof := none, proving := none, wrote := none, immBytes := 0, peer := 0 }

/-- Where the payload of a retransmission is read from (R226): far memory under an ASK, or data kept. -/
inductive SrcRef
  | far (ask va len : Nat)
  | kept (data : List Byte)
  | target (key va len : Nat)
deriving DecidableEq, Repr

/-- A sequence number sent and not covered (R233 to R235); `why` is the code of its last transient refusal. -/
structure TxRec where
  seq : BitVec 32
  pkt : Packet
  src : SrcRef
  firstAt : Word
  k : Nat
  refusals : Nat
  retries : Nat
  retryAt : Option Word
  why : Nat
deriving DecidableEq, Repr

/-- An acknowledgement delivered to a half's cluster and not yet handled by the library (Table 9-3). -/
structure AckItem where
  kind : Nat
  code : Nat
  detail : Nat
  flags : Nat
  cum : BitVec 32
  seq : BitVec 32
  sack : Nat
  txStamp : Nat
  rxStamp : Nat
  proof : Nat
deriving DecidableEq, Repr

/-- A connection half (R198 to R202, R232, R237, R238, Tables 8-1 and 8-3). -/
structure Half where
  state : CState
  localEp : Nat
  remoteEp : Nat
  chan : Nat
  rlx : Bool
  iso : Nat
  tc : Nat
  fifo : Nat
  prio : Nat
  localAsk : Nat
  remoteKey : Nat
  notifyCn : Nat
  func : Nat
  maxLen : Nat
  rlBudget : Nat
  rlDelay : Nat
  coll : Option Nat
  txSeq : BitVec 32
  cum : BitVec 32
  window : Nat
  acc : Nat
  cutSeq : BitVec 32
  base : List (Nat × Nat)
  tx : List TxRec
  pendingOps : List (Nat × Nat)
  lastErr : Nat
  lastErrSeq : BitVec 32
  lastDetail : Nat
  acks : List AckItem
  quietEnd : Word
  rx : Stream
deriving DecidableEq, Repr

/-- An unused half. -/
def Half.init : Half :=
  { state := .unused, localEp := 0, remoteEp := 0, chan := 0, rlx := false, iso := 0, tc := 0, fifo := 0, prio := 0,
    localAsk := 0, remoteKey := 0, notifyCn := 0, func := 0, maxLen := 0, rlBudget := 0, rlDelay := 1, coll := none,
    txSeq := 0, cum := 0, window := 1, acc := 0, cutSeq := 0, base := [], tx := [], pendingOps := [], lastErr := 0,
    lastErrSeq := 0, lastDetail := 0, acks := [], quietEnd := 0, rx := Stream.init }

/-- A local endpoint (R197). -/
structure Endpoint where
  func : Nat
  iso : Nat
deriving DecidableEq, Repr

/-- An entry of the pending-fault table (R253). -/
structure PendFault where
  ask : Nat
  page : Nat
  record : List Byte
  reported : Bool
deriving DecidableEq, Repr

/-- A revocation in progress (R208): the ASK, its INV_LOCAL start, and the control command to complete, if any. -/
structure Revocation where
  ask : Nat
  from_ : Word
  by_ : Option (Nat × Nat)
deriving DecidableEq, Repr

/-- A broadcast invalidation (R255 to R257): scope, ASK, range, clusters still to acknowledge, and what completes:
an operation slot, or a control command by its PF, the serial of its entry, and its BYTES. -/
structure Inval where
  scope : Nat
  ask : Nat
  va : Nat
  len : Nat
  waiting : List Nat
  op : Option Nat
  cmd : Option (Nat × Nat × Nat)
deriving DecidableEq, Repr

/-- A member of a collective: its endpoint, its device, and the coordinate of that (R17, R288). -/
structure Member where
  ep : Nat
  dn : Nat
  g : Nat
  r : Nat
  c : Nat
deriving DecidableEq, Repr

/-- An operation of a RUN that waits to be started: on a half, or a local copy; its kind, flags and block. -/
structure RunSend where
  half : Option Nat
  kind : Nat
  flags : Nat
  block : List Byte
deriving DecidableEq, Repr

/-- A RUN in progress (R290, R291, R311, R312): the queue and serial of its entry; the step of its plan, and how far that step has
been prepared; the planned start of the phase of that step; whether a phase has started on a local FT estimate; the operations
of the step that wait; the bytes that channels have brought into the buffer; what phase 0 has agreed: T0, and the anchor as
its 16 bits; and the number of passes in which it reduces, as a power of two. -/
structure CollRun where
  qn : Nat
  serial : Nat
  step : Nat
  sub : Nat
  at_ : Word
  hold : Bool
  todo : List RunSend
  got : SMap Nat
  t0 : Word
  anchor : Nat
  passes : Nat
deriving DecidableEq, Repr

/-- A collective that this device has joined (R285, R288, R290, R291); its members are in rank order. `timeout` is in µs. -/
structure Coll where
  memberEp : Nat
  func : Nat
  rank : Nat
  members : List Member
  timeout : Nat
  halves : List Nat
  failed : Bool
  run : Option CollRun
deriving DecidableEq, Repr

/-- Connections, keys and translation bookkeeping of the whole device. `halves` is keyed by connection reference (R200),
`endpoints` by EPID, `faultWaits` by PF: outstanding XLT_FAULT_WAIT commands with their record addresses. `late` and `misuse` are two
counts that no register shows: responses that came after their get was over (R112), and references named that are not held (R129). -/
structure Net where
  halves : SMap Half
  endpoints : SMap (Option Endpoint)
  pendFaults : List PendFault
  faultWaits : SMap (List (Nat × Nat))
  revoking : Option Revocation
  revokeQueue : List (Nat × Nat × Nat)
  invals : List Inval
  invalQueue : List Inval
  readyCount : Nat
  colls : SMap (Option Coll)
  late : Nat
  misuse : Nat
deriving DecidableEq, Repr

/-- No connection, no endpoint, nothing in progress. -/
def Net.init : Net := ⟨[], [], [], [], none, [], [], [], 0, [], 0, 0⟩

/-- Device power states of a function (Table 18-8). -/
inductive DState | d0 | d3hot | d3cold
deriving DecidableEq, Repr

/-- A PCI Express function as its configuration space and MSI-X structures hold it (R429 to R433, R438, R439).
`bars` are its BARs as (base, size); `msix` maps a vector to message address, data and mask; `held` are vectors with an interrupt raised and not sent;
`holdoff` remembers that a packet was refused since the function left D0. -/
structure Func where
  dstate : DState
  bme : Bool
  msixEn : Bool
  fmask : Bool
  pmeEn : Bool
  pmeStatus : Bool
  wakePend : Bool
  atomicEn : Bool
  bars : List (Nat × Nat)
  vfEnable : Bool
  numVfs : Nat
  aspm : Bool
  cplTimeout : Nat
  msix : SMap (Nat × Nat × Bool)
  held : NSet
  rxHeld : Bool
deriving DecidableEq, Repr

/-- The reset value of an MSI-X table entry: masked. -/
def msixInit : Nat × Nat × Bool := (0, 0, true)

/-- A function after reset: D0 uninitialised, every enable clear. -/
def Func.init : Func :=
  { dstate := .d0, bme := false, msixEn := false, fmask := false, pmeEn := false, pmeStatus := false, wakePend := false,
    atomicEn := false, bars := [], vfEnable := false, numVfs := 0, aspm := false, cplTimeout := 50000, msix := [], held := [],
    rxHeld := false }

/-- An attachment (R426, R427, R437, Table 18-7). `quietFrom` is the INV_LOCAL of its last traffic, `l1ss` the deepest
substate the host permits. -/
structure Attach where
  up : Bool
  belowMin : Bool
  pstate : Nat
  width : Nat
  rate : Nat
  exiting : Bool
  quietFrom : Word
  l1ss : Nat
deriving DecidableEq, Repr

/-- An attachment that is down. -/
def Attach.init : Attach := ⟨false, false, 6, 0, 0, false, 0, 0⟩

/-- Why a host read is outstanding (R435, R436). -/
inductive ReadFor
  | op (slot : Nat)
  | flush (conn : Nat) (seq : BitVec 32)
  | atomic (cluster ref : Nat)
  | response (slot : Nat)
deriving DecidableEq, Repr

/-- An outstanding non-posted host request: what it serves, its function, its INV_LOCAL deadline (R436), and when it was issued. -/
structure HostRead where
  why : ReadFor
  func : Nat
  deadline : Word
  at_ : Word
deriving DecidableEq, Repr

/-- The host interface. `bifur` and `maxRate` are the values latched at the link's last fundamental reset (R426),
`reads` the outstanding non-posted requests by tag. -/
structure HostIf where
  atts : SMap Attach
  bifur : SMap Nat
  maxRate : SMap Nat
  perst : SMap Bool
  funcs : SMap Func
  reads : SMap (Option HostRead)
  nextTag : Nat
  movers : SMap (Option Nat)
  wakeN : Bool
  allocRefused : Bool
deriving DecidableEq, Repr

/-- The host interface after reset: every link down. -/
def HostIf.init : HostIf := ⟨[], [], [], [], [], [], 0, [], false, false⟩

/-- A stripe of an open slot (R297, R299): whether its local operand has been taken; the input bytes received, the accumulators by element, the parts of elements that have
not arrived whole as (element, contributor, offset in it, bytes), the contributions stored by an ORDERED sum as (element,
contributor, bits), and whether the stripe is complete. -/
structure Stripe where
  loc : Bool
  count : Nat
  acc : SMap (Option Nat)
  parts : List (Nat × Nat × Nat × List Byte)
  stored : List (Nat × Nat × Nat)
  done : Bool
deriving DecidableEq, Repr

/-- A stripe with nothing received. -/
def Stripe.init : Stripe := ⟨false, 0, [], [], [], false⟩

/-- An Amalgam slot (R296 to R300): the operation that opened it, none while it is CLOSED; W and U as sampled when it opened; its
stripes; the stripes complete, kept after it closes; the latched fault; whether an operand was out of range; the poisoned
elements; the largest exponent seen by EXPMAX; and the bytes written. -/
structure AmlSlot where
  op : Option Nat
  w : Nat
  u : Nat
  stripes : SMap Stripe
  done : Nat
  fault : Option Nat
  range : Bool
  poisoned : Nat
  emax : Option Int
  written : Nat
deriving DecidableEq, Repr

/-- A slot that was never open. -/
def AmlSlot.init : AmlSlot := ⟨none, 1, 1, [], 0, none, false, 0, none, 0⟩

/-- The Amalgam units: the slots, and CFG_REFUSED (R314). -/
structure Aml where
  slots : SMap AmlSlot
  cfgRefused : Bool
deriving DecidableEq, Repr

/-- Every slot closed. -/
def Aml.init : Aml := ⟨[], false⟩

/-- A far store waiting in a thread's store buffer (R71): where it goes, its bytes, and the far address it named. -/
structure StoreEntry where
  va : Nat
  ask : Nat
  paddr : Nat
  hbm : Bool
  data : List Byte
deriving DecidableEq, Repr

/-- Why a thread is not ready (R61): `again`, an instruction that had to wait, by its word, which is tried again; a far load with its
place and what it writes; an instruction fetch of a line, for an address; a translation that an instruction waits for; a pause until an INV_LOCAL time; waitft; opwait; a fence or `done` waiting for the store buffer, with the
instruction's kind. -/
inductive Wait
  | ready
  | again (word : Nat)
  | farLoad (ask va paddr : Nat) (hbm : Bool) (size : Nat) (signed : Bool) (rd : Nat)
  | fetch (kind line : Nat) (va : Word)
  | xlt (word : Nat)
  | pause (until_ : Word)
  | ft (target : Word) (rd : Nat)
  | op (slot gen rd : Nat)
  | drain (kind : Nat)
deriving DecidableEq, Repr

/-- A hardware thread (R59, R63, R74, R78, Table 3-13). `g` lists the general registers that are not zero; `run`
counts its dispatches; `item` is the item it was dispatched with; `startAt`, `budget`, `expired`, `pendWd` and `graceEnd` are its watchdog (R84); `sb` its store
buffer, oldest first; `badRegs` its registers with bad parity (R85); `xfault` a failed translation to be raised when the
access is tried again, as page, whether a fetch, and cause. -/
structure Thread where
  running : Bool
  run : Nat
  g : SMap Word
  pc : Word
  priv : Nat
  xask : Nat
  epc : Word
  ecause : Nat
  eval : Word
  exask : Nat
  excActive : Bool
  prev : Nat
  sscratch : SMap Word
  item : Item
  startAt : Word
  budget : Nat
  expired : Bool
  pendWd : Bool
  graceEnd : Option Word
  wait : Wait
  sb : List StoreEntry
  badRegs : NSet
  xfault : Option (Nat × Bool × Nat)
deriving DecidableEq, Repr

/-- No item. -/
def Item.zero : Item := ⟨0, 0, 0, 0, 0, 0, []⟩

/-- A free thread. -/
def Thread.init : Thread :=
  { running := false, run := 0, g := [], pc := 0, priv := 0, xask := 0, epc := 0, ecause := 0, eval := 0, exask := 0,
    excActive := false, prev := 0, sscratch := [], item := Item.zero, startAt := 0, budget := 0, expired := false,
    pendWd := false, graceEnd := none, wait := .ready, sb := [], badRegs := [], xfault := none }

/-- An engine (R60, R85, R86): cached instruction lines as (1 for HBM or 0 for host, physical line) pairs, its two TLBs, the times of its
recent parity errors, and whether it is retired and its clock stopped. -/
structure Engine where
  icache : List (Nat × Nat)
  itlb : List TlbEntry
  dtlb : List TlbEntry
  parityAt : List Word
  retired : Bool
  stopped : Bool
deriving DecidableEq, Repr

/-- An engine after device reset. -/
def Engine.init : Engine := ⟨[], [], [], [], false, false⟩

/-- An entry of a cluster's ASK cache (R249): the ASK, its 32 bytes, and when it was read. -/
structure AskCached where
  ask : Nat
  bytes : List Byte
  filledAt : Word
deriving DecidableEq, Repr

/-- What a cluster's engines share beside its CSM, FIFOs, operation slots and match unit (R60): its FIFOs in the order of their turns, the
HANDLER_LOST items waiting for a FIFO (R80), the second-level TLB, the page-walk cache, the ASK cache, the waiting misses and the walks
(R249, R250), the armed triggers (R125), and the packet references (R129). -/
structure Cluster where
  rr : List Nat
  lost : List Item
  l2 : List TlbEntry
  pwc : List PwcEntry
  askc : List AskCached
  misses : List XltReq
  walks : List Walk
  trigs : List Trigger
  refs : SMap (Option PktRef)
deriving DecidableEq, Repr

/-- A cluster after device reset. -/
def Cluster.init : Cluster := ⟨[0, 1, 2, 3], [], [], [], [], [], [], [], []⟩

/-- The credit that a received packet holds: the port it arrived on, the hop class of that link, its cells of dedicated and
of shared credit that are not yet freed (R369, R371), and which coming up of the link gave the credit. -/
structure Credit where
  port : Nat
  h : Nat
  ded : Nat
  sh : Nat
  ses : Nat
deriving DecidableEq, Repr

/-- A packet at a tile on its way to a route decision (R319): the port it arrived on, none for one of this device's own; its
hop number; the operation that formed it, by its slot and its order, whose departures are counted; and the port set of a
multicast copy (R330). -/
structure RPkt where
  pkt : Packet
  src : Option Nat
  h : Nat
  op : Option (Nat × Nat)
  set : Option Nat
  cred : Option Credit
deriving DecidableEq, Repr

/-- A packet held because none of its permitted candidates is live (R329): its tile and when the hold ends. -/
structure Hold where
  rp : RPkt
  tile : Nat
  until_ : Word
deriving DecidableEq, Repr

/-- Routing (R315 to R337). `bank0` and `bank1` are the bank states of Table 13-7, `ready` whether the device was ever
fabric-ready (R502, R535), `tiles` the packets waiting for a decision at each tile, `arrivals` the packets that have
reached Solder with the port they came from, 128 for the device's own. -/
structure Route where
  enabled : Bool
  ready : Bool
  active : Nat
  bank0 : Nat
  bank1 : Nat
  tiles : SMap (List RPkt)
  holds : List Hold
  arrivals : List (Nat × RPkt)
deriving DecidableEq, Repr

/-- Routing after device reset. -/
def Route.init : Route := ⟨false, false, 0, 0, 0, [], [], []⟩

/-- Link states (Table 15-10). -/
inductive LState | disabled | detect | train | config | lock | active | faulted | quiet
deriving DecidableEq, Repr

/-- A packet in an egress queue (R381): the route-state bits that it leaves with (R321), its cells, when it joined, and
whether it was counted as deferred (R389). -/
structure EgrPkt where
  rp : RPkt
  ldet : Bool
  gdet : Bool
  cells : Nat
  joined : Word
  counted : Bool
deriving DecidableEq, Repr

/-- A cell slot that no LACK has covered (R376). -/
structure SentCell where
  lseq : Nat
  ctype : Nat
  chc : Nat
  csh : Bool
  body : List Byte
deriving DecidableEq, Repr

/-- A packet in progress on a link: the cells already sent, how many of its cells took dedicated credit (R370), and the
end of the run of its gate within which it was found to fit (R391). -/
structure InFlight where
  e : EgrPkt
  sent : Nat
  ded : Nat
  close : Option Nat
deriving DecidableEq, Repr

/-- The sending side of a link (R369, R370, R376): `ded` and `sh` are the credit counters, `seen` the totals last seen,
`store` the cell slots held, `replay` those still to be replayed, `lastStart` the LACK before the start of the last replay
and when it began, `noProg` the replays without progress, `progAt` when LACK last advanced or a replay began, `cur` the
packet in progress, `scr` the scrambler's register and `line` the scrambled bits that wait for a whole codeword (R356). -/
structure LinkTx where
  lseq : Nat
  store : List SentCell
  replay : List SentCell
  lastStart : Option (Nat × Word)
  noProg : Nat
  progAt : Word
  ded : List Nat
  sh : Nat
  seen : List Nat
  queues : SMap (List EgrPkt)
  cur : Option InFlight
  scr : Nat
  line : List Bool
deriving DecidableEq, Repr

/-- A packet being received: its cells so far, the hop class of its first cell, whether it is known to be bad, and the credit
that its cells took. -/
structure Assembly where
  bytes : List Byte
  cells : Nat
  hc : Nat
  bad : Bool
  cred : Credit
deriving DecidableEq, Repr

/-- The receiving side of a link (R371, R375): whether the framed stream has started (R355), X, the pending NAK, the running
totals, the kind to report next, the packet being received, its runs of good and failed slots and of good codewords (R357),
whether the last slot was FAULT (R363), how often the link has come up, the descrambler's register, and the descrambled bits that
wait for a whole slot, each piece with whether its codeword was uncorrectable (R356). -/
structure LinkRx where
  framed : Bool
  x : Nat
  nak : Bool
  totals : List Nat
  rot : Nat
  asm : Option Assembly
  okRun : Nat
  failRun : Nat
  cwRun : Nat
  faultSeen : Bool
  ses : Nat
  descr : Nat
  line : List (List Bool × Bool)
deriving DecidableEq, Repr

/-- Scheduling and gates of a port (R384, R385, R386 to R392): the TC7 tokens in 1/65,536 cell, deficits and new turns of TC0
to TC5 with the pointer, the active bank and whether a list has taken over, an armed list, the two refusal bits, the
starts of the gate runs whose first head decision has been made (R390), and the gates and entry in force. -/
structure Sched where
  tc7 : Nat
  defs : List (Int × Bool)
  ptr : Nat
  bank : Nat
  valid : Bool
  armed : Bool
  armRef : Bool
  wrRef : Bool
  run6 : Option Nat
  runW : Option Nat
  g6 : Bool
  gw : Bool
  entry : Nat
deriving DecidableEq, Repr

/-- What a port has of its partner and of the link in force (R354, R370, R373, R408): `rate56` that it trains or runs at 56
GBd, `rates` its RATES, `failed112` that the last attempt at 112 GBd failed, `lanes` the set of lanes in use, `ts2` the run of TS2 received, `shared`,
`replay` and `short` what the tile granted; `min` and `replayMax` as the registers gave them at the last TS2 (R380), `fallRate` the
rates enabled at the last entry to TRAIN (R425). -/
structure LinkCfg where
  rate56 : Bool
  failed112 : Bool
  rates : Nat
  lanes : Nat
  ts2 : Nat
  peerRates : Nat
  peerLanes : Nat
  peerMin : Nat
  peerShared : Nat
  peerDn : Nat
  peerPort : Nat
  peerValid : Bool
  shared : Nat
  replay : Nat
  short : Bool
  min : Nat
  replayMax : Nat
  fallRate : Nat
deriving DecidableEq, Repr

/-- A port (Tables 15-10, 17-7). `since` is when it entered its state, `waking` since when it sends the wake pattern. -/
structure Port where
  st : LState
  since : Word
  retired : Bool
  peerFault : Bool
  waking : Option Word
  cfg : LinkCfg
  tx : LinkTx
  rx : LinkRx
  sch : Sched
deriving DecidableEq, Repr

/-- The sending side when a link is not up: no credit, nothing held. -/
def LinkTx.init : LinkTx :=
  { lseq := 0, store := [], replay := [], lastStart := none, noProg := 0, progAt := 0, ded := [], sh := 0, seen := [],
    queues := [], cur := none, scr := 0, line := [] }
/-- The receiving side when a link is not up. -/
def LinkRx.init : LinkRx := ⟨false, 0, false, [], 0, none, 0, 0, 0, false, 0, 0, []⟩
/-- Scheduling after device reset. -/
def Sched.init : Sched :=
  { tc7 := 0, defs := List.replicate 6 (0, true), ptr := 0, bank := 0, valid := false, armed := false, armRef := false
    wrRef := false, run6 := none, runW := none, g6 := true, gw := true, entry := 0 }
/-- No partner known. -/
def LinkCfg.init : LinkCfg := ⟨false, false, 0, 0, 0, 0, 0, 0, 0, 0, 0, false, 0, 0, false, 17, 4, 0⟩
/-- A port after device reset. -/
def Port.init : Port := ⟨.disabled, 0, false, false, none, LinkCfg.init, LinkTx.init, LinkRx.init, Sched.init⟩

/-- A lane (R406 to R421). `stage` is that of Table 17-3; `signal` that signal was detected in this attempt; the taps are the
transmitter's, `conv` those that it last converged to; `reqId` numbers this end's requests and `stsId`, `sts` answer the
partner's; `ready` that its receiver has finished, `run` the consecutive TS1 of the partner that said the same; `fails` the
times of failed attempts; `bins` errors and symbols of each second, newest first, `corr` whether the newest had corrections,
`sec` the second last evaluated; `ask` the request in TS frames, `sentReady` the TS1 sent with RX_READY; `eye` that a scan
runs, since `eyeAt`. -/
structure Lane where
  stage : Nat
  signal : Bool
  polInv : Bool
  swapped : Bool
  m3 : Int
  m2 : Int
  m1 : Int
  p1 : Int
  conv : Option (Int × Int × Int × Int)
  reqId : Nat
  stsId : Nat
  sts : Nat
  ready : Bool
  run : Nat
  snr : Nat
  retired : Bool
  restored : Bool
  peerRetired : Bool
  cause : Nat
  fails : List Word
  bins : List (Nat × Nat)
  corr : Bool
  sec : Nat
  ask : EqReq
  sentReady : Nat
  eye : Bool
  eyeAt : Word
deriving DecidableEq, Repr

/-- A lane after device reset. -/
def Lane.init : Lane :=
  { stage := 0, signal := false, polInv := false, swapped := false, m3 := 0, m2 := 0, m1 := 0, p1 := 0, conv := none
    reqId := 0, stsId := 0, sts := 0, ready := false, run := 0, snr := 0, retired := false, restored := false
    peerRetired := false, cause := 0, fails := [], bins := [], corr := false
    sec := 0, ask := ⟨0, 0, 0⟩, sentReady := 0, eye := false, eyeAt := 0 }

/-- A rate limiter (R395 to R397): the configuration in force, one written and not yet in force, tokens in 1/65,536 cell,
the INV_LOCAL of its slot on the calendar wheel, the cells that its first waiting packet needs, and the operations whose
next packet was deferred. -/
structure Lim where
  cfg : Word
  next : Option Word
  tokens : Nat
  wheel : Option Word
  need : Nat
  waiting : List Nat
deriving DecidableEq, Repr

/-- A limiter after device reset: RATE 0, BURST 17. -/
def Lim.init : Lim := ⟨0x11, none, 0, none, 0, []⟩

/-- What was known of a marked instruction when it issued (R473, Table 20-6). -/
structure Sampled where
  ft : Word
  pc : Word
  daddr : Word
  insn : Nat
  tid : Nat
  priv : Nat
  holdover : Bool
  item : Nat
  xask : Nat
deriving DecidableEq, Repr

/-- The monitors' dumps and samples (R470 to R475): `dumpSeq` counts the latch ticks since EN was set, `missed` those missed since
the last record; `dumpTick` is the last tick that was taken or missed; `dumpRec` the latched record that is not yet written;
`dumpOff` where in its ring the next record goes; `sampSeq` counts the recorded samples; `sampQ` the records of each cluster that
await their write; `counts` the countdowns of the engines, none before the first instruction that counts; `armed` the engines whose
countdown has reached 0; and `marked` their marked instructions. -/
structure Monitors where
  dumpSeq : Nat
  missed : Nat
  dumpTick : Option Nat
  dumpRec : Option (List Byte)
  dumpOff : Nat
  sampSeq : Nat
  sampQ : SMap (List (List Byte))
  counts : SMap (Option Nat)
  armed : NSet
  marked : SMap (Option Sampled)
deriving DecidableEq, Repr

/-- Nothing latched, nothing sampled. -/
def Monitors.init : Monitors := ⟨0, 0, none, none, 0, 0, [], [], [], []⟩

/-- What the life store keeps beside its bytes, which stand in memory (R476 to R481). `ready` and the three flags are LIFE_STATUS;
`slot` and `seq` are the newest accumulator slot and its SEQ, `setSeq` the SEQ of the retirement set; `logged`, `fatals` and `snaps`
count the entries, fatal fault records and snapshots written in the part's life, and survive every reset; `logWraps` follows from
`logged`. The rest are the INV_LOCAL of the last commit, snapshot, sample and margin scan. -/
structure Life where
  ready : Bool
  fatalIncomplete : Bool
  setInvalid : Bool
  accInvalid : Bool
  slot : Nat
  seq : Nat
  setSeq : Nat
  logged : Nat
  fatals : Nat
  snaps : Nat
  commitAt : Word
  snapAt : Word
  sampleAt : Word
  scanAt : Word
deriving DecidableEq, Repr

/-- A life store that nothing has been written to. -/
def Life.init : Life := ⟨false, false, false, false, 0, 0, 0, 0, 0, 0, 0, 0, 0, 0⟩

/-- HBM page retirement (R456): the times of each page's uncorrectable errors, the retired pages with the spare that each is mapped
to, and the stacks whose lack of spares has been raised. -/
structure HbmPages where
  errs : SMap (List Word)
  retired : SMap (Option Nat)
  spent : NSet
deriving DecidableEq, Repr

/-- No page retired. -/
def HbmPages.init : HbmPages := ⟨[], [], []⟩

/-- Power, reset and boot (R485 to R503), the supplies and the thermal monitor (R507, R515). `off` is Off; `kind` the reset that the
next boot follows: 0 power-on, 1 device reset, 2 warm restart; `power` is 0 Active, 1 Quiesce, 2 Doze, 3 Deep Retention (Table
21-1); `entering` an accepted entry that waits for its completion and interrupt: the state and the PF; `latched` a wake that came
meanwhile; `svn` and `serial` are fuses, `image` the security version of the image booted; `join` a FABRIC_JOIN that waits: its PF,
the serial of its entry, its start and its TIMEOUT in ms; `transitAt` when a transit cell was last received; `avsAt` when the set
point was commanded that the regulator has not acknowledged; `thermAt` the last thermal sample; `throttled` the µs of throttling not
yet counted in the life store; `slewFrom` when and at which temperature the second began over which the slew is measured. -/
structure Dev where
  off : Bool
  kind : Nat
  power : Nat
  entering : Option (Nat × Nat)
  latched : Option Nat
  svn : Nat
  serial : Word
  image : Nat
  join : Option (Nat × Nat × Word × Nat)
  transitAt : Option Word
  avsAt : Option Word
  thermAt : Word
  throttled : Nat
  slewFrom : Word × Int
  mon : Monitors
  life : Life
  pages : HbmPages
deriving DecidableEq, Repr

/-- Powered, Active, and about to boot from power-on. -/
def Dev.init : Dev :=
  { off := false, kind := 0, power := 0, entering := none, latched := none, svn := 0, serial := 0, image := 0, join := none
    transitAt := none, avsAt := none, thermAt := 0, throttled := 0, slewFrom := (0, 0), mon := Monitors.init, life := Life.init, pages := HbmPages.init }

/-- What leaves the device, as the model records it: the host sees posted writes, reads, atomics, interrupts and power
messages; ports see frames and slots, and the levels that carry them on each lane, with a record of each time ordered set and the
lane of its stamp point (R362); pins change level; software and the sideband get values back. -/
inductive Emit
  | hostWrite (f addr : Nat) (data : List Byte)
  | hostRead (tag f addr len : Nat)
  | hostAtomic (tag f addr : Nat) (op : Nat) (data : List Byte)
  | msix (f v addr data : Nat)
  | pme (f : Nat)
  | pin (name : String) (level : Bool)
  | linkState (att : Nat) (state : String)
  | sync (p lane id t1 : Nat)
  | syncReply (p lane id t2 t3 : Nat)
  | announce (p lane : Nat) (a : Announce)
  | ts (p l : Nat) (f : TsBody)
  | wakePattern (p : Nat) (lanes : List Nat) (on : Bool)
  | slot (p : Nat) (f : Slot)
  | levels (p l : Nat) (levels : List Nat)
  | avs (mv : Nat)
  | value (path : Path) (addr : Nat) (v : Word)
  | sideband (v : Option Word32)
  | response (pf idx : Nat) (v : Word)
deriving DecidableEq, Repr

/-- The state of the whole block. `regs` holds the control registers by address, each as its difference (exclusive or)
from its reset value; `poison` the memory words (byte key / 4) whose content is uncorrectable; `halfLatch` and `recLatch`
the read latches of each access path (R12), with paths numbered as in pathKey; `sbAddr` the sideband's address (R531);
`lanes` are keyed by 2 × port + lane, `lims` by 4,096 × tile + limiter;
`limCache` holds the cached Limiter Map entries by 2^20 × tile + connection, `limRefill` the last 64 ns boundary of refill;
`eptCache` is the
on-die cache of the Endpoint Table (R316); `orders` counts accepted operations (R108);
`out` is the record of what left the device, newest first; `free` counts the free values used. -/
structure State where
  regs : SMap Word
  mem : Memory
  poison : NSet
  inv : Invar
  tgf : Tungsten
  fifos : SMap Fifo
  threads : SMap Thread
  engines : SMap Engine
  clusters : SMap Cluster
  ops : SMap Op
  orders : Nat
  rings : Rings
  net : Net
  mtch : Matches
  aml : Aml
  host : HostIf
  dev : Dev
  eptCache : SMap (Option Nat)
  ports : SMap Port
  lanes : SMap Lane
  lims : SMap Lim
  limCache : SMap (Option Nat)
  limRefill : Nat
  route : Route
  halfLatch : SMap (Nat × Word)
  recLatch : SMap (Nat × List Word)
  sbAddr : Nat
  variant : Nat
  out : List Emit
  free : Nat
  pending : List Instr
deriving DecidableEq, Repr

/-- The block right after reset. -/
def State.reset : State :=
  { regs := [], mem := [], poison := [], inv := Invar.init, tgf := Tungsten.init, fifos := [], threads := [],
    engines := [], clusters := [], ops := [], orders := 0, rings := Rings.init, net := Net.init, mtch := Matches.init, aml := Aml.init, host := HostIf.init, dev := Dev.init, eptCache := [], ports := [], lanes := [], lims := [], limCache := [], limRefill := 0, route := Route.init,
    halfLatch := [], recLatch := [], sbAddr := 0, variant := 0, out := [], free := 0, pending := [] }


end Sys2Proof.Machine
end

