-- ==== Sys2Proof/Machine/Ops.lean ====
section
/-! DEFINITION. Machine/Ops.lean: the named operations over registers, memory, time, free values and the record of what
leaves the device, which every meaning uses. -/
namespace Sys2Proof.Machine

/-! ## Streams -/

/-- Does a stream mark a number above E (R339)? -/
def Stream.above (x : Stream) : Bool :=
  x.held.any (·.pkt.seq != x.e) || x.released.any (·.1 != x.e) || x.consumed.any (· != x.e)

/-- A stream takes a reorder context when it first marks a number above E, and returns it when it marks none any more (R339). -/
def Stream.settled (x : Stream) : Stream :=
  { x with ctx := x.above || (x.ctx && !(x.held.isEmpty && x.released.isEmpty && x.consumed.isEmpty)) }

/-- A stream whose held packets an adapter halt has discarded (R350). -/
def Stream.shed (x : Stream) : Stream := { x with held := [] }.settled

/-! ## Registers -/

/-- The control address of a register of an array (R528). -/
def RegDesc.addr (r : RegDesc) (ix : List Nat) : Nat :=
  r.base + ((r.dims.zip ix).map fun p => p.1.stride * p.2).sum

/-- The reset value of a register of an array (R533). -/
def RegDesc.resetAt (r : RegDesc) (ix : List Nat) : Word := w64 (r.reset + r.resetStep * ix.headD 0)

/-- The stored value of a register. -/
def State.rd (s : State) (r : RegDesc) (ix : List Nat := []) : Word :=
  s.regs.get 0 (r.addr ix) ^^^ r.resetAt ix

/-- A register given a value, cut to its width. -/
def State.wr (s : State) (r : RegDesc) (ix : List Nat) (v : Word) : State :=
  { s with regs := s.regs.set 0 (r.addr ix) (w64 (v.toNat % 2 ^ r.width) ^^^ r.resetAt ix) }

/-- A field of a register, as a number. -/
def State.fd (s : State) (f : Fld) (ix : List Nat := []) : Nat := bitsW (s.rd f.reg ix) f.hi f.lo

/-- A field of a register given a value. -/
def State.fw (s : State) (f : Fld) (ix : List Nat) (v : Nat) : State := s.wr f.reg ix (putW (s.rd f.reg ix) f.hi f.lo v)

/-- A one-bit field as a truth value. -/
def State.fb (s : State) (f : Fld) (ix : List Nat := []) : Bool := s.fd f ix != 0

/-- A one-bit field set or cleared. -/
def State.fset (s : State) (f : Fld) (ix : List Nat) (b : Bool) : State := s.fw f ix (b2n b)

/-- A counter that has counted n more; counters wrap (R13). -/
def State.bump (s : State) (r : RegDesc) (ix : List Nat := []) (n : Nat := 1) : State :=
  s.wr r ix (w64 ((s.rd r ix).toNat + n))

/-- A counter that saturates at its width. -/
def State.bumpSat (s : State) (r : RegDesc) (ix : List Nat) (n : Nat) : State :=
  s.wr r ix (w64 (min ((s.rd r ix).toNat + n) (2 ^ r.width - 1)))

/-- A register that keeps the greatest value seen since it was last read. -/
def State.maxTo (s : State) (r : RegDesc) (ix : List Nat) (v : Nat) : State :=
  s.wr r ix (w64 (max (s.rd r ix).toNat (min v (2 ^ r.width - 1))))

/-- What a write leaves in one field (Table 0-2); a value outside the field's range is taken as the nearer end. -/
def RegField.written (f : RegField) (old v : Word) : Word :=
  match f.acc with
  | .rw => putW old f.hi f.lo (clampN f.min f.max (bitsW v f.hi f.lo))
  | .w1c => putW old f.hi f.lo (bitsW (old &&& ~~~ v) f.hi f.lo)
  | .w1s => putW old f.hi f.lo (bitsW (old ||| v) f.hi f.lo)
  | _ => old

/-- What a write leaves in a register: its fields each by its access, reserved bits unchanged (R13). -/
def RegDesc.written (r : RegDesc) (old v : Word) : Word := r.fields.foldl (fun w f => f.written w v) old

/-- A register written as software writes it (R13). -/
def State.wrSoft (s : State) (r : RegDesc) (ix : List Nat) (v : Word) : State := s.wr r ix (r.written (s.rd r ix) v)

/-! ## What leaves the device, and free values -/

/-- Something that leaves the device is added to the record. -/
def State.emit (s : State) (e : Emit) : State := { s with out := e :: s.out }

/-- Several things that leave the device in order. -/
def State.emits (s : State) (es : List Emit) : State := { s with out := es.reverse ++ s.out }

/-- The next free bit, and the state that has used it (DESIGN CHOICE, log entry 3). -/
def State.freeBit (s : State) : Bool × State := (Config.freeBit s.free, { s with free := s.free + 1 })

/-- The next free number below n + 1, and the state that has used it (DESIGN CHOICE, log entry 3). -/
def State.freeBelow (s : State) (n : Nat) : Nat × State := (Config.freeNat s.free % (n + 1), { s with free := s.free + 1 })

/-- The next free word, and the state that has used it (DESIGN CHOICE, log entry 3). -/
def State.freeWord (s : State) : Word × State := (Config.freeWord s.free, { s with free := s.free + 1 })

/-! ## Memory -/

/-- n bytes of the device's memory from a key upward. -/
def State.mread (s : State) (k n : Nat) : List Byte := s.mem.readN k n

/-- The little-endian number that n bytes of memory hold (R5). -/
def State.mnat (s : State) (k n : Nat) : Nat := leNat (s.mem.readN k n)

/-- Is any 32-bit word of n bytes from a key uncorrectable? -/
def State.bad (s : State) (k n : Nat) : Bool :=
  s.poison.any fun e => decide (k / 4 ≤ e.1) && decide (e.1 * 4 < k + n)

/-- Bytes written to memory from a key upward; an uncorrectable word written whole is good again (R85). -/
def State.mwrite (s : State) (k : Nat) (bs : List Byte) : State :=
  { s with
    mem := s.mem.writeN k bs
    poison := s.poison.filter fun e => !(decide (k ≤ e.1 * 4) && decide (e.1 * 4 + 4 ≤ k + bs.length)) }

/-- A 32-bit word of memory becomes uncorrectable. -/
def State.spoil (s : State) (k : Nat) : State := { s with poison := NSet.add s.poison (k / 4) }

/-! ## Time -/

/-- Fabric Time (R27). -/
def State.ft (s : State) : Word := s.inv.ft
/-- INV_LOCAL (R30). -/
def State.loc (s : State) : Word := s.inv.loc

/-- INV_STATUS.VALID: FT is valid (Table 2-7). -/
def State.ftValid (s : State) : Bool :=
  match s.inv.state with
  | .track | .holdover | .unsync | .root => true
  | _ => false

/-- Does the parent announce HOLDOVER (R45)? -/
def State.parentHoldover (s : State) : Bool :=
  match s.inv.parent with
  | some p => match (s.inv.ports.get PortTime.init p).heard with
    | some a => a.holdover
    | none => false
  | none => false

/-- INV_STATUS.HOLDOVER (Table 2-7, R45). -/
def State.holdover (s : State) : Bool :=
  match s.inv.state with
  | .holdover | .unsync => true
  | .track | .acquire => s.parentHoldover
  | _ => false

/-- FT when it is valid, else 0: the form of FT in records (Table 2-4). -/
def State.ftOr0 (s : State) : Word := if s.ftValid then s.ft else 0

/-- Has FT reached v? -/
def State.ftReached (s : State) (v : Word) : Bool := decide (v.toNat ≤ s.ft.toNat)
/-- Has INV_LOCAL reached v? -/
def State.locReached (s : State) (v : Word) : Bool := decide (v.toNat ≤ s.loc.toNat)
/-- The INV_LOCAL time n ticks ahead. -/
def State.locIn (s : State) (n : Nat) : Word := w64 (s.loc.toNat + n)
/-- Ticks of INV_LOCAL since v. -/
def State.locSince (s : State) (v : Word) : Nat := s.loc.toNat - v.toNat
/-- Ticks in a microsecond: a tick is 250 ps (R27). -/
def ticksPerUs : Nat := 4000

/-- What an idle step of the block does: one cycle of the timing PLL, by which FT and INV_LOCAL advance (R28, R30; DESIGN CHOICE, log entry 2).
The PLL is off without power and in Deep Retention (Table 21-1). -/
def tick (s : State) : State :=
  if s.dev.off || s.dev.power == 3 then s
  else { s with inv := { s.inv with ft := s.inv.ft + 1, loc := s.inv.loc + 1 } }

/-! ## The part -/

/-- Is this a GK-ON096-P1 (R2)? Variants: 0 GK-ON128-P1, 1 GK-ON128-E1, 2 GK-ON096-P1. -/
def State.is096 (s : State) : Bool := s.variant == 2
/-- Ports of the part (R2). -/
def State.portCount (s : State) : Nat := if s.is096 then 96 else 128
/-- Clusters of the part (R2). -/
def State.clusterCount (s : State) : Nat := if s.is096 then 48 else 64

/-- Is the device in the safe state (R450)? -/
def State.inSafe (s : State) : Bool := s.tgf.safe.isSome
/-- What a part of the device does that stops, or is frozen, in the safe state (R26, R450, R451). -/
def State.live (s : State) (f : State → State) : State := if s.inSafe then s else f s
/-- Is the host adapter halted (R192)? The safe state also stops every memory request. -/
def State.adapterHalted (s : State) : Bool := s.tgf.halted || s.inSafe

/-! ## Updates of one object -/

/-- A work FIFO, by 4c + f. -/
def State.fifo (s : State) (k : Nat) : Fifo := s.fifos.get Fifo.init k
/-- A work FIFO replaced. -/
def State.setFifo (s : State) (k : Nat) (x : Fifo) : State := { s with fifos := s.fifos.set Fifo.init k x }
/-- A thread, by its device-wide number (R59). -/
def State.thread (s : State) (t : Nat) : Thread := s.threads.get Thread.init t
/-- A thread replaced. -/
def State.setThread (s : State) (t : Nat) (x : Thread) : State := { s with threads := s.threads.set Thread.init t x }
/-- An engine, by 8c + e. -/
def State.engine (s : State) (g : Nat) : Engine := s.engines.get Engine.init g
/-- An engine replaced. -/
def State.setEngine (s : State) (g : Nat) (x : Engine) : State := { s with engines := s.engines.set Engine.init g x }
/-- A cluster. -/
def State.cluster (s : State) (c : Nat) : Cluster := s.clusters.get Cluster.init c
/-- A cluster replaced. -/
def State.setCluster (s : State) (c : Nat) (x : Cluster) : State := { s with clusters := s.clusters.set Cluster.init c x }
/-- An operation slot, by 4096c + slot (R102). -/
def State.op (s : State) (k : Nat) : Op := s.ops.get Op.free k
/-- An operation slot replaced. -/
def State.setOp (s : State) (k : Nat) (x : Op) : State := { s with ops := s.ops.set Op.free k x }

/-- The lowest number below n that satisfies a test. -/
def firstBelow (n : Nat) (p : Nat → Bool) : Option Nat := (List.range n).find? p

/-- A port. -/
def State.port (s : State) (p : Nat) : Port := s.ports.get Port.init p
/-- A port replaced. -/
def State.setPort (s : State) (p : Nat) (x : Port) : State := { s with ports := s.ports.set Port.init p x }
/-- Is the link of a port up: ACTIVE (Table 15-11)? -/
def State.linkUp (s : State) (p : Nat) : Bool := (s.port p).st == .active

/-! ## Access to control space -/

/-- Is the device running: from boot stage 6 on (R530)? -/
def State.isRunning (s : State) : Bool := decide (6 ≤ s.fd F.DEV_BOOT_STATUS_STAGE)

/-- Is a thread at Control level able to reach control space: the device runs, and neither the safe state nor a parked state stops
its engine (R450, R489, R530)? -/
def State.ctrlThread (s : State) (t : Nat) : Bool :=
  s.isRunning && !s.inSafe && decide (s.dev.power < 2) && (s.thread t).running && (s.thread t).priv == 2

/-- May an access path write the register at an address (R530, Table 23-3)? Control-level code of a running thread once
the device runs, the boot ROM before that, the sideband two registers, and a host nothing. -/
def State.mayWrite (s : State) (p : Path) (addr : Nat) : Bool :=
  !s.dev.off && match p with
  | .near t => s.ctrlThread t
  | .bootRom => !s.isRunning
  | .sideband => addr == R.PWR_WAKE.base || addr == R.LIFE_WIN_SEL.base
  | .bar _ => false

/-- May an access path read the register at an address (R530)? The sideband reads the blocks named there, and a host the
identity registers. -/
def State.mayRead (s : State) (p : Path) (addr : Nat) : Bool :=
  !s.dev.off && match p with
  | .near t => s.ctrlThread t
  | .bootRom => !s.isRunning
  | .sideband => decide (addr < 0x100000) || (decide (0x200000 ≤ addr) && decide (addr < 0x500000))
      || (decide (0xA000000 ≤ addr) && decide (addr < 0xB000000))
  | .bar _ => decide (addr < 0x1000)

end Sys2Proof.Machine
end

