-- ==== Sys2Proof/Machine/Pewter.lean ====
section
/-! DEFINITION. Machine/Pewter.lean: the life store: its accumulators, slots, retirement set and log, snapshots, and what is loaded
from it (R476 to R482). The store's 16 MiB stand in memory from pewterKey 0; the accumulators that are not yet committed stand in
the 64 KiB behind them, laid out as a slot (DESIGN CHOICE, log entry 5). -/
namespace Sys2Proof.Machine

/-! ## Accumulators (Table 20-8) -/

/-- The memory key of an offset in the live accumulators. -/
def accKey (off : Nat) : Nat := pewterKey (2 ^ 24 + off)

/-- A live accumulator of n bytes has grown by v. -/
def State.accAdd (s : State) (off n v : Nat) : State :=
  if v == 0 then s else s.mwrite (accKey off) (leBytes n (s.mnat (accKey off) n + v))

/-- Offsets of Table 20-8: seconds powered, the reset counts, the histograms, the retrains, the lanes and the HBM stacks. -/
def accPowerOn : Nat := 0x40
def accPowerCycles : Nat := 0x48
def accDeviceResets : Nat := 0x4C
def accAdapterResets : Nat := 0x50
def accWarmRestarts : Nat := 0x54
def accThrottle : Nat := 0x58
def accTrips : Nat := 0x5C
def accTemp (b : Nat) : Nat := 0x100 + 8 * b
def accVolt (b : Nat) : Nat := 0x200 + 8 * b
def accRetrains (p : Nat) : Nat := 0x400 + 4 * p
def accSer (lane b : Nat) : Nat := 0x800 + 48 * lane + 4 * b
def accEye (lane b : Nat) : Nat := 0x4000 + 64 * lane + 4 * b
def accCe (stack : Nat) : Nat := 0x8000 + 8 * stack
def accUe (stack : Nat) : Nat := 0x8010 + 8 * stack

/-- The temperature bin of the hottest sensor, in eighths of a degree. -/
def tempBin (h : Int) : Nat := if h < -400 then 0 else min 19 ((h + 480).toNat / 80)

/-- The voltage bin of VDD_CORE, in mV. -/
def voltBin (mv : Nat) : Nat := if mv < 625 then 0 else min 11 ((mv - 600) / 25)

/-- The bin of a second's corrected symbols: the number of its decimal digits, at most 11. -/
def serBin : Nat → Nat → Nat
  | 0, _ => 0
  | f + 1, n => if n == 0 then 0 else 1 + serBin f (n / 10)

/-- What a detected event adds to the accumulators: a retrain, an HBM error of its stack, a trip (Table 20-8). -/
def State.lifeEvent (s : State) (src code : Nat) : State :=
  let n := src % 1024
  let stack := if n < 64 then n / 32 else n - 64
  match code with
  | 0x0007 => s.accAdd (accRetrains n) 4 1
  | 0x0060 => s.accAdd (accCe stack) 8 1
  | 0x0061 => s.accAdd (accUe stack) 8 1
  | 0x0071 => s.accAdd accTrips 4 1
  | _ => s

/-! ## Slots (R477, R478) -/

/-- Bytes closed by their CRC, little-endian (R476). -/
def sealed (bs : List Byte) : List Byte := bs ++ leBytes 4 (crc32 polyCrc32 bs)

/-- Does a structure of n bytes at an offset of the store end with its right CRC? -/
def State.crcGood (s : State) (off n : Nat) : Bool :=
  crc32 polyCrc32 (s.mread (pewterKey off) (n - 4)) == s.mnat (pewterKey (off + n - 4)) 4

/-- Has nothing ever been written to n bytes of the store? Such a structure is not a copy that fails its check (DESIGN CHOICE, log entry 72). -/
def State.blank (s : State) (off n : Nat) : Bool :=
  !s.mem.any fun e => decide (pewterKey off ≤ e.1) && decide (e.1 < pewterKey (off + n))

/-- The header of a slot or snapshot: SEQ, FT, INV_LOCAL and FLAGS (Table 20-8, R477). -/
def State.slotHeader (s : State) (seq : Nat) : List Byte :=
  leBytes 8 seq ++ leBytes 8 s.ftOr0.toNat ++ leBytes 8 s.loc.toNat ++ leBytes 1 (b2n s.holdover + 2 * b2n !s.ftValid)

/-- Where accumulator slot k stands (Table 20-7). -/
def slotOff (k : Nat) : Nat := 0x10000 + 0x10000 * k

/-- The accumulators are committed: they are written to the slot after the newest (R478). -/
def State.commitAcc (s : State) : State :=
  let l := s.dev.life
  if !l.ready then s else
  let k := if l.seq == 0 then 0 else (l.slot + 1) % 16
  let body := s.slotHeader (l.seq + 1) ++ s.mread (accKey 0x19) (0xFFFC - 0x19)
  let s1 := (s.mwrite (pewterKey (slotOff k)) (sealed body)).bump R.LIFE_COMMIT_COUNT
  { s1 with dev := { s1.dev with life := { s1.dev.life with slot := k, seq := l.seq + 1, commitAt := s.loc } } }

/-! ## The retirement set and log (R477, R478) -/

/-- A bitmap of n objects, a byte for eight. -/
def bitmap (n : Nat) (p : Nat → Bool) : List Byte :=
  (List.range (n / 8)).map fun i => BitVec.ofNat 8 ((List.range 8).map fun j => if p (8 * i + j) then 2 ^ j else 0).sum

/-- The retirement set as it is now. The manual names the bitmaps and the page list; their order, the SEQ, the count of pages and
the causes of lane retirement are placed by the model (DESIGN CHOICE, log entry 73). -/
def State.retirementSet (s : State) (seq : Nat) : List Byte :=
  let lane (n : Nat) : Lane := s.lanes.get Lane.init n
  let pages := SMap.keysWhere (fun _ r => r.isSome) s.dev.pages.retired
  bitmap 256 (fun n => (lane n).retired) ++ bitmap 128 (fun p => (s.port p).retired) ++ bitmap 512 (fun g => (s.engine g).retired) ++
    byteSlice (pages.flatMap (leBytes 3)) 0 6144 ++ leBytes 8 pages.length ++ leBytes 8 seq ++
    (List.range 256).map (fun n => BitVec.ofNat 8 (lane n).cause) ++ zeroBytes (16384 - 4 - 6528)

/-- Copies A and B of the retirement set (Table 20-7). -/
def setOff (b : Nat) : Nat := 0x1000 + 0x4000 * b

/-- The retirement set is written to copy A and then to copy B. -/
def State.writeSet (s : State) : State :=
  let seq := s.dev.life.setSeq + 1
  let bs := sealed (s.retirementSet seq)
  let s1 := (s.mwrite (pewterKey (setOff 0)) bs).mwrite (pewterKey (setOff 1)) bs
  { s1 with dev := { s1.dev with life := { s1.dev.life with setSeq := seq } } }

/-- An entry is written to the retirement log, a ring of 8,192; what its 32 bytes are the manual does not say, and they are free
values (DESIGN CHOICE, log entry 74). -/
def State.writeLog (s : State) : State :=
  let (a, s1) := s.freeWord
  let (b, s2) := s1.freeWord
  let (c, s3) := s2.freeWord
  let (d, s4) := s3.freeWord
  let n := s.dev.life.logged
  let s5 := s4.mwrite (pewterKey (0x110000 + 32 * (n % 8192))) ([a, b, c, d].flatMap fun w => leBytes 8 w.toNat)
  { s5 with dev := { s5.dev with life := { s5.dev.life with logged := n + 1 } } }

/-- A retirement, a re-test that passed or one that failed is recorded in the store (R477). -/
def State.recordRetirement (s : State) : State := s.writeSet.writeLog

/-- A copy of the retirement set that is valid, with its SEQ. -/
def State.setCopy (s : State) (b : Nat) : Option (Nat × List Byte) :=
  if s.crcGood (setOff b) 16384 then
    let bs := s.mread (pewterKey (setOff b)) 16380
    some (leAt bs 6264 8, bs)
  else none

/-- The copy that counts: the valid one with the higher SEQ. -/
def State.bestSet (s : State) : Option (Nat × List Byte) :=
  match s.setCopy 0, s.setCopy 1 with
  | some a, some b => some (if a.1 < b.1 then b else a)
  | some a, none => some a
  | none, b => b

/-- Is bit i of a bitmap at an offset set? -/
def bitAt (bs : List Byte) (off i : Nat) : Bool := nbit (leAt bs (off + i / 8) 1) (i % 8)

/-- Retirements are restored from the retirement set: lanes with their causes, ports, engines with their clocks stopped, and HBM
pages (R420, R458, R478, R533). -/
def State.restoreRetired (s : State) : State :=
  match s.bestSet with
  | none => { s with dev := { s.dev with pages := { s.dev.pages with retired := [] } } }
  | some (seq, bs) =>
    let lanes := (List.range 256).foldl (fun (m : SMap Lane) n =>
      if bitAt bs 0 n then m.set Lane.init n { m.get Lane.init n with retired := true, restored := true, cause := leAt bs (6272 + n) 1 }
      else m) s.lanes
    let ports := (List.range 128).foldl (fun (m : SMap Port) p =>
      if bitAt bs 32 p then m.set Port.init p { m.get Port.init p with retired := true } else m) s.ports
    let engines := (List.range 512).foldl (fun (m : SMap Engine) g =>
      if bitAt bs 48 g then m.set Engine.init g { m.get Engine.init g with retired := true, stopped := true } else m) s.engines
    let pages := (List.range (min 2048 (leAt bs 6256 8))).map fun i => leAt bs (112 + 3 * i) 3
    { s with
      lanes := lanes, ports := ports, engines := engines
      dev := { s.dev with
        life := { s.dev.life with setSeq := seq }
        pages := { s.dev.pages with retired := s.dev.pages.retired.filter fun e => pages.contains e.1 } } }

/-! ## What boot loads (R478, R479) -/

/-- The newest valid accumulator slot: its number and SEQ. -/
def State.bestSlot (s : State) : Option (Nat × Nat) :=
  ((List.range 16).filter fun k => !s.blank (slotOff k) 0x10000 && s.crcGood (slotOff k) 0x10000).foldl (fun (b : Option (Nat × Nat)) k =>
    let q := s.mnat (pewterKey (slotOff k)) 8
    match b with
    | some (k', q') => if q' < q then some (k, q) else some (k', q')
    | none => some (k, q)) none

/-- The invalid copies that boot passes over: slots and copies of the set that hold something and fail their check. -/
def State.badCopies (s : State) : Nat :=
  ((List.range 16).filter fun k => !s.blank (slotOff k) 0x10000 && !s.crcGood (slotOff k) 0x10000).length +
  ((List.range 2).filter fun b => !s.blank (setOff b) 0x4000 && !s.crcGood (setOff b) 0x4000).length

/-- Where fatal fault record k stands (Table 20-7), and where its COMPLETE byte is (DESIGN CHOICE, log entry 75). -/
def fatalOff (k : Nat) : Nat := 0x150000 + 0x1000 * k
def fatalComplete : Nat := 24

/-- Is there a fatal fault record that was not completed (R479)? -/
def State.fatalOpen (s : State) : Bool :=
  (List.range 64).any fun k => !s.blank (fatalOff k) 0x1000 && s.mnat (pewterKey (fatalOff k + fatalComplete)) 1 == 0

/-- The store is loaded at boot: the newest valid slot becomes the accumulators, and LIFE_STATUS says what was found (R478, R479). -/
def State.loadLife (s : State) : State :=
  let best := s.bestSlot
  let body := match best with
    | some (k, _) => s.mread (pewterKey (slotOff k)) 0xFFFC
    | none => zeroBytes 0xFFFC
  let s1 := (s.mwrite (accKey 0) body).bump R.LIFE_CRC_FIX_COUNT [] s.badCopies
  let (k, q) := best.getD (0, 0)
  { s1 with dev := { s1.dev with life := { s1.dev.life with
    ready := true, fatalIncomplete := s.fatalOpen, setInvalid := s.bestSet.isNone, accInvalid := best.isNone
    slot := k, seq := q, commitAt := s.loc, snapAt := s.loc, sampleAt := s.loc, scanAt := s.loc } } }

/-! ## Registers (Table 20-12) -/

/-- LIFE_STATUS. A write of the store is one step here, and BUSY reads 0. -/
def State.lifeStatus (s : State) : Word :=
  let l := s.dev.life
  w64 (b2n l.ready * 2 ^ 31 + b2n l.fatalIncomplete * 2 ^ 29 + b2n l.setInvalid * 2 ^ 28 + b2n l.accInvalid * 2 ^ 27)
/-- LIFE_LOG_WRAPS. -/
def State.logWraps (s : State) : Word := w64 (s.dev.life.logged / 8192)
/-- A word of LIFE_WIN (R482). -/
def State.lifeWin (s : State) (i : Nat) : Word := w64 (s.mnat (pewterKey (s.fd F.LIFE_WIN_SEL_PAGE * 4096 + 4 * i)) 4)

end Sys2Proof.Machine
end

