-- ==== Sys2Proof/Machine/Monitor.lean ====
section
/-! DEFINITION. Machine/Monitor.lean: what the performance monitors count and the histogram units sample (R460 to R469). -/
namespace Sys2Proof.Machine

/-! ## Counters (R460 to R465) -/

/-- Are the monitors frozen (R465)? -/
def State.monFrozen (s : State) : Bool := s.fb F.PMU_CTRL_FREEZE

/-- Is an event an instruction event, which PRIV filters (R463)? -/
def instrEvent (ev : Nat) : Bool := ev == 1 || (decide (3 ≤ ev) && decide (ev ≤ 0xA))

/-- What a count event with value V adds to a counter with a selection (Table 20-2). Each command is a cycle of its own, so a value
above THRESH has risen above it (DESIGN CHOICE, log entry 76). `level` is that of the thread, for engines. -/
def selAdds (sel : Word) (ev v level : Nat) : Nat :=
  if !bitW sel 31 || bitsW sel 24 16 != ev || (instrEvent ev && !nbit (bitsW sel 27 25) (2 - level)) then 0
  else match bitsW sel 30 28 with
    | 0 => v
    | 2 => b2n (decide (v ≤ bitsW sel 15 0))
    | _ => b2n (decide (bitsW sel 15 0 < v))

/-- A counter that has grown by n. -/
def State.grow (s : State) (r : RegDesc) (ix : List Nat) (n : Nat) : State := if n == 0 then s else s.bump r ix n

/-- An event of an engine at a level. A retired engine's counters hold their values (R461). -/
def State.pmuEng (s : State) (g ev level : Nat) (v : Nat := 1) : State :=
  if s.monFrozen || (s.engine g).stopped then s else
  (List.range 4).foldl (fun s i => s.grow R.PMU_ENG_PMC [g, i] (selAdds (s.rd R.PMU_ENG_SEL [g, i]) ev v level)) s

/-- An event of a unit with n counters. -/
def State.pmuUnit (s : State) (u n ev v : Nat) : State :=
  if s.monFrozen || v == 0 then s else
  (List.range n).foldl (fun s i => s.grow R.PMU_CNT [u, i] (selAdds (s.rd R.PMU_SEL [u, i]) ev v 0)) s

/-- The events of Table 20-3 by class of unit: tiles, ports, attachments, Amalgam units, clusters (Table 20-10). -/
def State.pmuTile (s : State) (t ev : Nat) (v : Nat := 1) : State := s.pmuUnit t 8 ev v
def State.pmuPort (s : State) (p ev : Nat) (v : Nat := 1) : State := s.pmuUnit (16 + p) 8 ev v
def State.pmuAtt (s : State) (a ev : Nat) (v : Nat := 1) : State := s.pmuUnit (144 + a) 8 ev v
def State.pmuAml (s : State) (u ev : Nat) (v : Nat := 1) : State := s.pmuUnit (160 + u) 4 ev v
def State.pmuCluster (s : State) (c ev : Nat) (v : Nat := 1) : State := s.pmuUnit (176 + c) 4 ev v

/-! ## Histograms (R466 to R469) -/

/-- A sample: its source, instance and value, and what HIST_FILT looks at: the class as a mask of one bit, the arrival hop class,
whether it is of an acknowledgement, the group of its source when the active bank knows it, and its channel. -/
structure Sample where
  src : Nat
  inst : Nat
  v : Nat
  tc : Nat := 0
  hc : Nat := 0
  ack : Bool := false
  pkt : Bool := false
  group : Option Nat := none
  chan : Nat := 0
deriving DecidableEq, Repr

/-- Does a mask take a number; 0 takes all? -/
def maskTakes (mask n : Nat) : Bool := mask == 0 || nbit mask n

/-- Does the filter let a sample through (R467)? Sources 1 to 5 are filtered; GROUP and CHAN judge packets, and a depth has none
(DEDUCED, log entry 77). -/
def Sample.passes (x : Sample) (f : Word) : Bool :=
  if x.src == 0 || 5 < x.src then true else
  (x.src == 2 || maskTakes (bitsW f 7 0) x.tc) &&
  (!x.pkt || ((!bitW f 18 || x.group == some (bitsW f 27 19)) && (!bitW f 28 || bitsW f 32 29 == x.chan))) &&
  (x.src != 3 || (maskTakes (bitsW f 15 8) x.hc && match bitsW f 17 16 with
    | 0 => !x.ack
    | 1 => x.ack
    | _ => true))

/-- The bin of a value (R466). -/
def histBin (shift v : Nat) : Nat :=
  let u := v / 2 ^ shift
  if u == 0 then 0 else min 31 (Nat.log2 u + 1)

/-- A unit takes a value. -/
def State.histTake (s : State) (u v : Nat) : State :=
  let s1 := ((s.bump R.HIST_COUNT [u]).bump R.HIST_SUM [u] v).bump R.HIST_BIN [u, histBin (s.fd F.HIST_SEL_SHIFT [u]) v]
  (s1.wr R.HIST_MIN [u] (w64 (min (s.rd R.HIST_MIN [u]).toNat v))).wr R.HIST_MAX [u] (w64 (max (s.rd R.HIST_MAX [u]).toNat v))

/-- Does a source have instances? -/
def srcInstanced (src : Nat) : Bool := !(src == 3 || src == 4 || src == 5 || src == 6)

/-- Is a unit enabled for a source and instance? -/
def State.histFor (s : State) (u src inst : Nat) : Bool :=
  s.fb F.HIST_SEL_EN [u] && s.fd F.HIST_SEL_SRC [u] == src && (!srcInstanced src || s.fd F.HIST_SEL_INSTANCE [u] == inst)

/-- A histogram sample: every unit enabled for its source and instance takes it, unless the monitors are frozen. -/
def State.histSample (s : State) (x : Sample) : State :=
  if s.monFrozen then s else
  (List.range 256).foldl (fun s u =>
    if s.histFor u x.src x.inst && x.passes (s.rd R.HIST_FILT [u]) then s.histTake u x.v else s) s

/-- A sample of a time that began at an INV_LOCAL, in ns. -/
def State.histTime (s : State) (src inst : Nat) (from_ : Word) : State :=
  s.histSample { src := src, inst := inst, v := s.locSince from_ / 4 }

/-- The group of a device in the active bank's Destination Table; none with V = 0 (R467). -/
def State.groupOf (s : State) (dn : Nat) : Option Nat :=
  if s.fb F.ROUTE_DEST_V [s.route.active, dn] then some (s.fd F.ROUTE_DEST_GROUP [s.route.active, dn]) else none

/-- A unit cleared (R469). -/
def State.histClear (s : State) (u : Nat) : State :=
  let s1 := (((s.wr R.HIST_COUNT [u] 0).wr R.HIST_SUM [u] 0).wr R.HIST_MAX [u] 0).wr R.HIST_MIN [u] (w64 (2 ^ 64 - 1))
  (List.range 32).foldl (fun s k => s.wr R.HIST_BIN [u, k] 0) s1

end Sys2Proof.Machine
end

