-- ==== Sys2Proof/Machine/WorkFifo.lean ====
section
/-! DEFINITION. Machine/WorkFifo.lean: the Work FIFOs: room, reservation, commit, rewind, the swap of banks, and the head
(chapter 5). FIFO f of cluster c has the number k = 4c + f. -/
namespace Sys2Proof.Machine

/-- One bank of a FIFO. -/
def Fifo.bank (x : Fifo) (b : Nat) : Bank := if b = 0 then x.bank0 else x.bank1
/-- One bank replaced. -/
def Fifo.setBank (x : Fifo) (b : Nat) (v : Bank) : Fifo := if b = 0 then { x with bank0 := v } else { x with bank1 := v }
/-- The number of the draining bank (R141). -/
def Fifo.drain (x : Fifo) : Nat := 1 - x.fill

/-- Words written and reserved in a bank: committed items, ring service's reservations, and items being written. -/
def Fifo.words (x : Fifo) (b : Nat) : Nat :=
  (((x.bank b).items.map (·.len)).sum + ((x.bank b).resv.map (·.2)).sum) +
    ((x.writing.filter fun w => w.bank == some b).map (·.item.len)).sum

/-- Is the FIFO empty of items and reservations (R150)? -/
def Fifo.isEmpty (x : Fifo) : Bool := x.words 0 == 0 && x.words 1 == 0

/-- Register indices of FIFO k. -/
def wfIx (k : Nat) : List Nat := [k / 4, k % 4]

/-- Has the filling bank room for an item of len words of this class (R147)? -/
def State.wfRoom (s : State) (k : Nat) (reserveClass : Bool) (len : Nat) : Bool :=
  let x := s.fifo k
  decide (len + (if reserveClass then 0 else s.fd F.WF_CFG_RESV (wfIx k)) + x.words x.fill ≤ 1024)

/-- Is the FIFO read by `wfpop` only (R144)? -/
def State.wfPolled (s : State) (k : Nat) : Bool := s.fb F.WF_CFG_POLLED (wfIx k)

/-- A refused or held item is counted once (R148). -/
def State.wfFull (s : State) (k : Nat) : State := s.bump R.WF_FULL_COUNT (wfIx k)

/-- An item is committed into a bank: it is stamped and becomes the newest of its bank (R134, R138). -/
def State.wfCommit (s : State) (k b : Nat) (it : Item) : State :=
  let x := s.fifo k
  let it := { it with commitNs := bitsW s.ft 33 2 }
  let bk := x.bank b
  (s.setFifo k (x.setBank b { bk with items := bk.items ++ [it] })).bump R.WF_COMMIT_COUNT (wfIx k)

/-- A producer reserves space in the filling bank and has an item to write (R138); none without room (R147). -/
def State.wfStart (s : State) (k : Nat) (reserveClass : Bool) (it : Item) (for_ : WriteFor := .plain) : Option State :=
  if s.wfRoom k reserveClass it.len then
    let x := s.fifo k
    some (s.setFifo k { x with writing := x.writing ++ [⟨some x.fill, reserveClass, it, for_⟩] })
  else none

/-- Ring service reserves two words for an entry it reads (R138). -/
def State.wfReserve (s : State) (k id len : Nat) : State :=
  let x := s.fifo k
  let bk := x.bank x.fill
  s.setFifo k (x.setBank x.fill { bk with resv := bk.resv ++ [(id, len)] })

/-- A reservation of ring service is released (R139). -/
def State.wfRelease (s : State) (k b id : Nat) : State :=
  let x := s.fifo k
  let bk := x.bank b
  s.setFifo k (x.setBank b { bk with resv := bk.resv.filter fun r => r.1 != id })

/-- The producer whose turn it is after the one granted last: the nearest above it by its number, in a circle of 16. -/
def turnDist (last src : Nat) : Nat := (src + 15 - last) % 16

/-- The item that the write port is granted to, among those that have their space: a HANDLER_LOST item first, else the oldest of the
producer whose turn it is (R137). Producers are told apart as SRC numbers them (DEDUCED, log entry 146). -/
def Fifo.nextWriter (x : Fifo) : Option Nat :=
  match x.writing.findIdx? (fun w => w.item.ty == 0xEF && w.bank.isSome) with
  | some i => some i
  | none =>
    let best := (x.writing.filter (·.bank.isSome)).foldl (fun b w => min b (turnDist x.turn w.item.src)) 16
    x.writing.findIdx? fun w => w.bank.isSome && turnDist x.turn w.item.src == best

/-- A producer with storage of its own has an item to write, or keeps it until there is room and is counted (R148). -/
def State.wfOffer (s : State) (k : Nat) (reserveClass : Bool) (it : Item) (for_ : WriteFor := .plain) : State :=
  match s.wfStart k reserveClass it for_ with
  | some s1 => s1
  | none =>
    let x := s.fifo k
    (s.setFifo k { x with writing := x.writing ++ [⟨none, reserveClass, it, for_⟩] }).wfFull k

/-- Item i of those at the write port takes its space if it waits for it, has room, and no earlier item of its producer waits. -/
def State.wfTakeSpace (s : State) (k i : Nat) : State :=
  let x := s.fifo k
  match x.writing[i]? with
  | some w =>
    if w.bank.isNone && s.wfRoom k w.reserveClass w.item.len &&
        !((x.writing.take i).any fun v => v.bank.isNone && v.item.src == w.item.src) then
      s.setFifo k { x with writing := x.writing.set i { w with bank := some x.fill } }
    else s
  | none => s

/-- Items that wait for space take it, oldest first (R138, R148). -/
def State.wfTakeAll (s : State) (k : Nat) : State :=
  (List.range (s.fifo k).writing.length).foldl (fun s i => s.wfTakeSpace k i) s

/-- May the banks swap (R142)? -/
def Fifo.canSwap (x : Fifo) : Bool := x.words x.drain == 0 && !(x.bank x.fill).items.isEmpty

/-- BANK_SWAP: the draining bank is empty and the filling bank holds a committed item (R142). -/
def bankSwap (c f : Nat) (s : State) : State :=
  let k := 4 * c + f
  let x := s.fifo k
  if x.canSwap && !s.inSafe then (s.setFifo k { x with fill := x.drain }).bump R.WF_SWAP_COUNT (wfIx k) else s

/-- The index of the head among the visible items: the highest level, and the oldest of that level (R143). -/
def Fifo.headIdx (x : Fifo) : Option Nat :=
  let is := (x.bank x.drain).items
  let top := (is.map (·.prio)).foldl max 0
  is.findIdx? fun i => i.prio == top

/-- The head item. -/
def Fifo.head (x : Fifo) : Option Item := x.headIdx.bind fun i => (x.bank x.drain).items[i]?

/-- The head item is taken; its wait is noted (R143, Table 5-7). -/
def State.wfTake (s : State) (k : Nat) : Option (Item × State) :=
  let x := s.fifo k
  match x.headIdx with
  | none => none
  | some i =>
    let bk := x.bank x.drain
    match bk.items[i]? with
    | none => none
    | some it =>
      let wait := (bitsW s.ft 33 2 + 2 ^ 32 - it.commitNs) % 2 ^ 32
      let s1 := s.setFifo k (x.setBank x.drain { bk with items := bk.items.eraseIdx i })
      some (it, (s1.maxTo R.WF_WAIT_MAX (wfIx k) wait).histSample { src := 7, inst := k, v := wait })

/-- The item header (Table 5-1). -/
def Item.header (it : Item) : Word :=
  w64 (it.commitNs * 2 ^ 32 + it.srcCluster * 2 ^ 24 + it.src * 2 ^ 20 + it.prio * 2 ^ 16 + it.len * 2 ^ 8 + it.ty)

/-- The bytes of an item as they are written: word 0 with the header in bytes 56 to 63, then the later words (R134). -/
def Item.bytes (it : Item) : List Byte :=
  byteSlice it.body 0 56 ++ leBytes 8 it.header.toNat ++ byteSlice it.body 56 (64 * (it.len - 1))

/-- The FIFO that a steered item goes to: the one named, or the lowest that is not polled; none if all are polled
(Table 5-10). -/
def State.wfSteered (s : State) (c f : Nat) : Option Nat :=
  if !s.wfPolled (4 * c + f) then some (4 * c + f)
  else (firstBelow 4 fun g => !s.wfPolled (4 * c + g)).map (4 * c + ·)

/-- WF_CFG written: POLLED takes effect only on an empty FIFO, and is else ignored and flagged; RESV always does (R150). -/
def wfCfgWrite (c f : Nat) (v : Word) (s : State) : State :=
  let k := 4 * c + f
  let x := s.fifo k
  let ix := wfIx k
  let s1 := s.fw F.WF_CFG_RESV ix (bitsW v 15 8)
  if x.isEmpty then (s1.fset F.WF_CFG_POLLED ix (bitW v 0)).setFifo k { x with cfgRefused := false }
  else s1.setFifo k { x with cfgRefused := true }

/-- WF_STATUS (Table 5-9). -/
def State.wfStatus (s : State) (k : Nat) : Word :=
  let x := s.fifo k
  w64 (x.fill * 2 ^ 31 + b2n x.cfgRefused * 2 ^ 30 + x.words x.drain * 2 ^ 16 + x.words x.fill)

/-- WF_VISIBLE (Table 5-7). -/
def State.wfVisible (s : State) (k : Nat) : Word :=
  let x := s.fifo k
  let is := (x.bank x.drain).items
  w64 (is.length * 2 ^ 8 + ((List.range 8).map fun l => if is.any (·.prio == l) then 2 ^ l else 0).sum)

/-- R149: what an adapter reset discards of every FIFO. -/
def adapterItem (it : Item) : Bool := it.ty == 1 || it.ty == 2 || it.ty == 3 || it.ty == 4 || it.ty == 0x30

/-- How many items of ring service an adapter reset rewinds: those for which it has reserved space and whose last word is not written
(R139). -/
def Fifo.resetRewinds (x : Fifo) : Nat :=
  x.bank0.resv.length + x.bank1.resv.length + (x.writing.filter fun w => w.bank.isSome && adapterItem w.item).length

/-- The FIFO after an adapter reset: the items of ring service gone, the rest in their order (R149). -/
def Fifo.afterAdapterReset (x : Fifo) : Fifo :=
  let keep (b : Bank) : Bank := { items := b.items.filter (!adapterItem ·), resv := [] }
  { x with bank0 := keep x.bank0, bank1 := keep x.bank1, writing := x.writing.filter (!adapterItem ·.item) }

end Sys2Proof.Machine
end

