-- ==== Sys2Proof/Machine/Tungsten.lean ====
section
/-! DEFINITION. Machine/Tungsten.lean: the fault collector: event codes and their classes, the history, merging, the freeze,
the reactions, FAULT_EVENT items and fault injection (chapter 19). -/
namespace Sys2Proof.Machine

/-- A SOURCE value: block code and number within the block (R441). -/
def tsrc (block n : Nat) : Nat := block * 1024 + n

/-- How many sources a block has (Table 19-1). -/
def blockSources : Nat → Nat
  | 0x00 => 8 | 0x01 => 1 | 0x02 => 1 | 0x03 => 16 | 0x04 => 64 | 0x05 => 5 | 0x06 => 16 | 0x07 => 64 | 0x08 => 64
  | 0x09 => 1 | 0x0A => 64 | 0x0B => 64 | 0x0C => 64 | 0x0D => 64 | 0x0E => 512 | 0x0F => 256 | 0x10 => 16 | 0x11 => 32
  | 0x12 => 16 | 0x13 => 1 | 0x14 => 128 | 0x15 => 128 | 0x16 => 256 | 0x17 => 64 | 0x18 => 66 | 0x19 => 1 | 0x1A => 1
  | _ => 0

/-- The class of a code and the blocks that can raise it (Tables 19-2, 19-3). -/
def codeClass : Nat → Option (Nat × List Nat)
  | 0x0001 => some (4, [0x16]) | 0x0002 => some (2, [0x16]) | 0x0003 => some (2, [0x14]) | 0x0004 => some (2, [0x14])
  | 0x0005 => some (2, [0x14]) | 0x0006 => some (2, [0x14]) | 0x0007 => some (1, [0x14]) | 0x0008 => some (0, [0x16])
  | 0x0010 => some (1, [1]) | 0x0011 => some (2, [1]) | 0x0012 => some (2, [1]) | 0x0013 => some (0, [1])
  | 0x0014 => some (1, [1]) | 0x0015 => some (1, [1]) | 0x0016 => some (1, [1]) | 0x0017 => some (0, [1])
  | 0x0018 => some (0, [1])
  | 0x0020 => some (1, [0x0E]) | 0x0021 => some (0, [0x0E]) | 0x0022 => some (2, [0x0E]) | 0x0023 => some (1, [0x0B])
  | 0x0024 => some (2, [0x0B]) | 0x0025 => some (3, [0x0B])
  | 0x0030 => some (1, [9]) | 0x0031 => some (0, [0x0F]) | 0x0032 => some (3, [0x0F]) | 0x0033 => some (3, [9])
  | 0x0034 => some (1, [9]) | 0x0035 => some (2, [9])
  | 0x0040 => some (2, [0x0A])
  | 0x0050 => some (2, [6]) | 0x0051 => some (2, [6]) | 0x0052 => some (0, [6, 7]) | 0x0053 => some (1, [6])
  | 0x0060 => some (0, [0x18]) | 0x0061 => some (1, [0x18]) | 0x0062 => some (2, [0x18]) | 0x0063 => some (2, [0x18])
  | 0x0064 => some (4, [0x18])
  | 0x0070 => some (1, [4]) | 0x0071 => some (4, [4]) | 0x0072 => some (4, [0]) | 0x0073 => some (4, [3, 0x17])
  | 0x0074 => some (4, [5])
  | 0x0080 => some (2, [0x0E, 0x0A, 0x10, 0x13, 0x0F]) | 0x0081 => some (4, [0x0E, 0x0B, 0x0C, 0x10, 0])
  | 0x0090 => some (4, [2])
  | 0x00A0 => some (0, [0x10, 0x13, 0x12]) | 0x00A1 => some (1, [0x10, 0x13, 0x12])
  | _ => none

/-- Of the sources of a block, those that a GK-ON096-P1 has disabled: the last quarter (R2, R441). -/
def disabledOn096 (block n : Nat) : Bool :=
  match block with
  | 0x0A | 0x0B | 0x0C | 0x0D => decide (48 ≤ n)
  | 0x0E => decide (384 ≤ n)
  | 0x0F => decide (192 ≤ n)
  | 0x10 | 0x12 => decide (12 ≤ n)
  | 0x11 => decide (24 ≤ n)
  | 0x14 | 0x15 => decide (96 ≤ n)
  | 0x16 => decide (192 ≤ n)
  | 0x17 => decide (48 ≤ n)
  | 0x05 => n == 3
  | _ => false

/-- Does the source exist, and can it raise the code (R441, R443, R453)? HBM_STACK_FAIL comes from the stack PHYs only. -/
def canRaise (variant src code : Nat) : Bool :=
  let b := src / 1024
  let n := src % 1024
  match codeClass code with
  | none => false
  | some (_, bs) => bs.contains b && decide (n < blockSources b) && !(variant == 2 && disabledOn096 b n)
      && !(code == 0x0064 && decide (n < 64)) && !(b == 0x18 && code != 0x0064 && decide (64 ≤ n))

/-- The class of a code. -/
def classOf (code : Nat) : Nat :=
  match codeClass code with
  | some (c, _) => c
  | none => 0

/-- An event as a source presents it (R443, R444): `injected` and `react` say that it was injected and in which mode
(R453). -/
structure Event where
  src : Nat
  code : Nat
  info0 : Nat
  info1 : Nat
  injected : Bool
  react : Bool
deriving DecidableEq, Repr

/-- Does the event take its class reaction (R453)? -/
def Event.reacts (e : Event) : Bool := !e.injected || e.react

/-- A record of the history. -/
def State.hrec (s : State) (i : Nat) : ErrRec := s.tgf.hist.get ErrRec.zero i
/-- A record of the history replaced. -/
def State.setHrec (s : State) (i : Nat) (r : ErrRec) : State :=
  { s with tgf := { s.tgf with hist := s.tgf.hist.set ErrRec.zero i r } }

/-- A new record (Table 19-4). -/
def State.newRec (s : State) (e : Event) (first : Bool) (seq : Nat) : ErrRec :=
  { ft := s.ftOr0, locAt := s.loc, code := e.code, source := e.src, cls := classOf e.code, injected := e.injected,
    real := !e.injected, holdover := s.holdover, ftInvalid := !s.ftValid, firstFatal := first, merged := 0,
    info0 := e.info0, info1 := e.info1, lastFt := 0, seq := seq, seen := 2 ^ classOf e.code, mergedSrc := 0xFFFF,
    openRec := true }

/-- An event merged into a record (R448). -/
def State.mergeRec (s : State) (r : ErrRec) (e : Event) : ErrRec :=
  { r with
    merged := min (r.merged + 1) 65535
    lastFt := s.ftOr0
    seen := r.seen ||| 2 ^ classOf e.code
    injected := r.injected || e.injected
    real := r.real || !e.injected
    mergedSrc := if r.mergedSrc == 0xFFFF && e.src != r.source then e.src else r.mergedSrc }

/-- The 64 bytes of a record (Table 19-4). -/
def ErrRec.bytes (r : ErrRec) : List Byte :=
  if r.seq == 0 then zeroBytes 64 else
  leBytes 8 r.ft.toNat ++ leBytes 8 r.locAt.toNat ++ leBytes 2 r.code ++ leBytes 2 r.source ++ leBytes 1 r.cls ++
  leBytes 1 (b2n r.injected + 2 * b2n r.real + 4 * b2n r.holdover + 8 * b2n r.ftInvalid + 16 * b2n r.firstFatal) ++
  leBytes 2 r.merged ++ leBytes 8 r.info0 ++ leBytes 8 r.info1 ++ leBytes 8 r.lastFt.toNat ++ leBytes 4 r.seq ++
  leBytes 1 r.seen ++ zeroBytes 1 ++ leBytes 2 r.mergedSrc ++ zeroBytes 8

/-- Is the record's event within two microseconds of now: the handling window of a fatal record (R448)? -/
def State.inWindow (s : State) (r : ErrRec) : Bool := decide (s.locSince r.locAt ≤ 2 * ticksPerUs)

/-- The index of an open record of the same SOURCE and CODE (R448). -/
def State.openMatch (s : State) (e : Event) : Option Nat :=
  firstBelow 32 fun i =>
    let r := s.hrec i
    r.openRec && r.source == e.src && r.code == e.code

/-- What Solder holds for local endpoints when the adapter halts is discarded, counted, and gone from its streams (R350); `half` shows
them so from then on. -/
def State.discardAllHeld (s : State) : State :=
  if s.adapterHalted then s else
  (s.net.halves.flatMap fun e => e.2.rx.held).foldl
    (fun s x => (s.bump R.SLD_HALT_DISCARD_COUNT).maxTo R.SLD_HOLD_MAX [] (s.locSince x.at_ / 4)) s

/-- The adapter halt (R192): no new memory request, no ring fetch or write. -/
def State.haltAdapter (s : State) : State := { s.discardAllHeld with tgf := { s.tgf with halted := true } }

/-- The class reaction (Table 19-2): the adapter halt and its FAULT_N; the safe state and its FAULT_N. Both leave a
Pewter record due. The ports' FAULT slots and the stops of R450 follow from `safe` where ports and engines act. -/
def State.react (s : State) (cls : Nat) : State :=
  if cls == 3 then
    let s1 := s.haltAdapter
    let s2 := { s1 with tgf := { s1.tgf with fatalDue := true } }
    if s.fb F.TGF_CTRL_FAULTN_ADAPTER then
      { s2 with tgf := { s2.tgf with faultNAdapter := true } }.emit (.pin "FAULT_N" false)
    else s2
  else if cls == 4 then
    if s.inSafe then s else
    ((({ s.discardAllHeld with tgf := { s.tgf with safe := some s.loc, faultNDevice := true, fatalDue := true } }).emit
      (.pin "FAULT_N" false)).emit (.pin "TIME_PPS_OUT" false)).emit (.pin "WAKE_N" true)
  else s

/-- The cluster that FAULT_EVENT items go to (R449): the one named, or the lowest with an engine in service. -/
def State.eventCluster (s : State) : Nat :=
  let live (c : Nat) : Bool := decide (c < s.clusterCount) && (List.range 8).any fun e => !(s.engine (8 * c + e)).retired
  let c := s.fd F.TGF_CTRL_EVENT_CLUSTER
  if live c then c else ((firstBelow s.clusterCount live).getD c)

/-- The FAULT_EVENT item of a record (R449). -/
def faultItem (prio : Nat) (body : List Byte) : Item :=
  { ty := 0x31, len := 1, prio := prio, src := 6, srcCluster := 0, commitNs := 0, body := body }

/-- A FAULT_EVENT item is started, or held, or counted as lost (R449, R148). -/
def State.sendFaultEvent (s : State) (body : List Byte) : State :=
  let c := s.eventCluster
  let hold (s : State) : State :=
    if s.tgf.heldEvents.length < 8 then { s with tgf := { s.tgf with heldEvents := s.tgf.heldEvents ++ [body] } }
    else s.bump R.TGF_EVENT_LOST_COUNT
  match s.wfSteered c (s.fd F.WF_STEER_EVENT_FIFO [c]) with
  | none => hold s
  | some k =>
    match (if s.tgf.heldEvents.isEmpty then s.wfStart k false (faultItem (s.fd F.WF_STEER_EVENT_PRIO [c]) body) else none) with
    | some s1 => s1
    | none => hold (s.wfFull k)

/-- A new record written at NEXT (R445). -/
def State.openRecord (s : State) (e : Event) (freeze : Bool) : State :=
  let i := s.tgf.next
  let seq := s.tgf.seq + 1
  let s1 := s.setHrec i (s.newRec e freeze seq)
  { s1 with
    tgf := { s1.tgf with
      next := (i + 1) % 32
      count := min (s1.tgf.count + 1) 32
      seq := seq
      highest := max s1.tgf.highest (classOf e.code)
      frozen := if freeze then some i else s1.tgf.frozen } }

/-- The counters of an event, whatever becomes of it (Table 19-2, Table 19-9). -/
def State.countEvent (s : State) (e : Event) : State :=
  (s.bumpSat R.TGF_SRC_COUNT [e.src] 1).bump R.TGF_CLASS_COUNT [classOf e.code]

/-- After the freeze: a fatal event that takes its reaction is written to TGF_POST_FATAL, the first time (R446); every
event is counted (R445). -/
def State.afterFreeze (s : State) (e : Event) : State :=
  let s1 := s.bump R.TGF_POST_FREEZE_COUNT
  if classOf e.code ≥ 3 && e.reacts then
    let s2 := match s1.tgf.post with
      | none => { s1 with tgf := { s1.tgf with post := some (s1.newRec e false (s1.tgf.seq + 1)), seq := s1.tgf.seq + 1,
                                               highest := max s1.tgf.highest (classOf e.code) } }
      | some _ => s1
    s2.react (classOf e.code)
  else s1

/-- Is a new record issued for this class (Table 19-2)? -/
def State.records (s : State) (e : Event) : Bool := decide (1 ≤ classOf e.code) || s.fb F.TGF_CTRL_LOG_CORRECTED

/-- A source presents an event: Tungsten counts it, merges or opens a record, freezes the history and takes the class
reaction (R442 to R449, R454). Tungsten takes nothing before the boot sequence arms it. -/
def State.present (s : State) (e : Event) : State :=
  if !s.tgf.armed then s else
  let s1 := s.countEvent e
  let cls := classOf e.code
  let fatal := decide (3 ≤ cls) && e.reacts
  match s1.tgf.frozen with
  | some i =>
    let r := s1.hrec i
    if (r.source == e.src && r.code == e.code) || (s1.inWindow r && decide (cls ≤ r.cls)) then
      let s2 := s1.setHrec i (s1.mergeRec r e)
      if fatal then s2.react cls else s2
    else s1.afterFreeze e
  | none =>
    match s1.openMatch e with
    | some i =>
      let r := s1.mergeRec (s1.hrec i) e
      if fatal then
        let s2 := s1.setHrec i { r with firstFatal := true }
        ({ s2 with tgf := { s2.tgf with frozen := some i } }).react cls
      else s1.setHrec i r
    | none =>
      if s1.records e then
        let body := byteSlice (s1.newRec e fatal (s1.tgf.seq + 1)).bytes 0 56
        let s2 := s1.openRecord e fatal
        let s3 := if fatal then s2.react cls else s2
        if cls == 4 && e.reacts then s3 else s3.sendFaultEvent body
      else s1

/-- A detected event (R443); the life store counts some (Table 20-8). -/
def State.report (s : State) (src code : Nat) (info0 info1 : Nat := 0) : State :=
  (s.lifeEvent src code).present { src := src, code := code, info0 := info0, info1 := info1, injected := false, react := true }

/-- MERGE_WINDOW_END: the record's window has passed since its capture, and it closes; a fatal record that froze the
history, or took its reaction, stays open (R447). -/
def mergeWindowEnd (i : Nat) (s : State) : State :=
  let r := s.hrec i
  if r.openRec && decide (r.cls < 3) && decide ((s.rd R.TGF_MERGE_WINDOW).toNat ≤ s.locSince r.locAt) then
    s.setHrec i { r with openRec := false }
  else s

/-- A write of TGF_HIST_ACK closes the open record with that SEQ, unless it is fatal (R447). -/
def histAck (seq : Nat) (s : State) : State :=
  match firstBelow 32 fun i => (s.hrec i).openRec && (s.hrec i).seq == seq && decide ((s.hrec i).cls < 3) with
  | some i => s.setHrec i { s.hrec i with openRec := false }
  | none => s

/-- TGF_HIST_CTRL.UNFREEZE, ignored in the safe state (Table 19-9). -/
def unfreeze (s : State) : State :=
  if s.inSafe then s else { s with tgf := { s.tgf with frozen := none } }

/-- TGF_INJECT written with GO = 1 (R453). The injected event is presented at once, and GO reads 0 again. -/
def inject (v : Word) (s : State) : State :=
  let s0 := s.wr R.TGF_INJECT [] (putW v 63 63 0 &&& 0x4000FFFFFFFF0000)
  if !bitW v 63 then s0 else
  let src := bitsW v 31 16
  let code := bitsW v 47 32
  if s.fb F.TGF_CTRL_INJECT_EN && !s.fb F.TGF_CTRL_INJECT_LOCK && canRaise s.variant src code then
    ({ s0 with tgf := { s0.tgf with injectRefused := false } }).present
      { src := src, code := code, info0 := 0, info1 := 0, injected := true, react := bitW v 62 }
  else { s0 with tgf := { s0.tgf with injectRefused := true } }

/-- TGF_CTRL.INJECT_LOCK written 1: it holds until device reset (R453). -/
def injectLock (s : State) : State := s.fset F.TGF_CTRL_INJECT_LOCK [] true

/-- FAULT_EVENT: the oldest held item is delivered when its FIFO has room (R449). -/
def faultEvent (s : State) : State :=
  match s.tgf.heldEvents with
  | [] => s
  | body :: rest =>
    let c := s.eventCluster
    match s.wfSteered c (s.fd F.WF_STEER_EVENT_FIFO [c]) with
    | none => s
    | some k =>
      match s.wfStart k false (faultItem (s.fd F.WF_STEER_EVENT_PRIO [c]) body) with
      | some s1 => if s.inSafe then s else { s1 with tgf := { s1.tgf with heldEvents := rest } }
      | none => s

/-- TXOFF: the fabric transmitters go off when TGF_SAFE_CFG.TXOFF has passed since the capture tick; 0 leaves them on
(Table 19-5). -/
def txoff (s : State) : State :=
  match s.tgf.safe with
  | none => s
  | some at_ =>
    let us := s.fd F.TGF_SAFE_CFG_TXOFF
    if us != 0 && decide (us * ticksPerUs ≤ s.locSince at_) then { s with tgf := { s.tgf with txOff := true } } else s

/-- Is FAULT_N held low (R452)? -/
def State.faultN (s : State) : Bool := s.tgf.faultNAdapter || s.tgf.faultNDevice || !s.tgf.armed

/-- TGF_STATUS (Table 19-11). -/
def State.tgfStatus (s : State) : Word :=
  let g := s.tgf
  w64 (b2n g.frozen.isSome * 2 ^ 31 + b2n s.inSafe * 2 ^ 30 + b2n g.halted * 2 ^ 29 + b2n s.faultN * 2 ^ 28 +
    b2n g.post.isSome * 2 ^ 27 + b2n g.injectRefused * 2 ^ 26 + g.highest * 2 ^ 23 + g.count * 2 ^ 8 + g.next)

/-! ## The commands -/

/-- MERGE_WINDOW_END (R447). -/
def execMergeWindowEnd (i : Nat) (s : State) : Host.Outcome State Fault Refusal := .next (mergeWindowEnd i s)
/-- FAULT_EVENT (R449). -/
def execFaultEvent (s : State) : Host.Outcome State Fault Refusal := .next (faultEvent s)
/-- TXOFF (R450). -/
def execTxoff (s : State) : Host.Outcome State Fault Refusal := .next (txoff s)

end Sys2Proof.Machine
end

