-- ==== Sys2Proof/Machine/HostOps.lean ====
section
/-! DEFINITION. Machine/HostOps.lean: what every unit needs of the host interface: functions and attachments, who may
master, link power, wakes, interrupts and failed reads (R426, R433 to R439, R194). -/
namespace Sys2Proof.Machine

/-! ## Functions and attachments -/

/-- A function. -/
def State.func (s : State) (f : Nat) : Func := s.host.funcs.get Func.init f
/-- A function replaced. -/
def State.setFunc (s : State) (f : Nat) (x : Func) : State :=
  { s with host := { s.host with funcs := s.host.funcs.set Func.init f x } }

/-- An attachment. -/
def State.att (s : State) (a : Nat) : Attach := s.host.atts.get Attach.init a
/-- An attachment replaced. -/
def State.setAtt (s : State) (a : Nat) (x : Attach) : State :=
  { s with host := { s.host with atts := s.host.atts.set Attach.init a x } }

/-- First function index of a PF's VFs and their number (R431). -/
def State.vfFirst (s : State) (p : Nat) : Nat := s.fd F.HIF_VF_ALLOC_FIRST [p]
def State.vfCount (s : State) (p : Nat) : Nat := s.fd F.HIF_VF_ALLOC_COUNT [p]

/-- Is f a VF of PF p (R431)? -/
def State.isVfOf (s : State) (p f : Nat) : Bool :=
  decide (16 ≤ f) && decide (s.vfFirst p ≤ f) && decide (f < s.vfFirst p + s.vfCount p)

/-- The PF of a function, which is also its attachment (R426): itself, or the PF whose range holds it. -/
def State.pfOf (s : State) (f : Nat) : Nat :=
  if f < 16 then f else (firstBelow 16 fun p => s.isVfOf p f).getD 0

/-- May PF p name function f: itself or one of its own VFs (R176)? -/
def State.mayName (s : State) (p f : Nat) : Bool := f == p || s.isVfOf p f

/-- Attachments of a link by its latched BIFUR (Table 18-1): 3 is taken and acts as 0 (DEDUCED, log entry 137). -/
def attsOf (bifur : Nat) : Nat := if bifur == 1 then 2 else if bifur == 2 then 4 else 1

/-- Does attachment a exist (R426)? -/
def State.attExists (s : State) (a : Nat) : Bool := decide (a < 16) && decide (a % 4 < attsOf (s.host.bifur.get 0 (a / 4)))

/-- MSI-X vectors of a function (R433). -/
def vectorsOf (f : Nat) : Nat := if f < 16 then 2048 else 64

/-- May a function master: D0 with Bus Master Enable (R438)? -/
def State.canMaster (s : State) (f : Nat) : Bool := (s.func f).dstate == .d0 && (s.func f).bme

/-! ## Requests to host memory (R434, R435) -/

/-- A posted write to host memory as a function. -/
def State.hostWrite (s : State) (f addr : Nat) (data : List Byte) : State :=
  (s.emit (.hostWrite f addr data)).pmuAtt (s.pfOf f) 0x301 data.length
/-- A read of host memory. -/
def State.hostRead (s : State) (tag f addr len : Nat) : State :=
  (s.emit (.hostRead tag f addr len)).pmuAtt (s.pfOf f) 0x302 len
/-- Data of a read has come. -/
def State.hostGot (s : State) (f n : Nat) : State := s.pmuAtt (s.pfOf f) 0x303 n

/-! ## Link power (R437) -/

/-- Is the link of a function's attachment in L0 or L0p? -/
def State.linkAwake (s : State) (f : Nat) : Bool := decide ((s.att (s.pfOf f)).pstate ≤ 1)

/-- The device starts an exit to L0 when it has a request to send; exits are counted (R437, Table 18-6). -/
def State.startExit (s : State) (f : Nat) : State :=
  let a := s.pfOf f
  let x := s.att a
  if x.exiting || decide (x.pstate < 2) || decide (4 < x.pstate) then s
  else (s.setAtt a { x with exiting := true }).bump R.HIF_WAKE_COUNT

/-- Traffic on the attachment of a function now. -/
def State.traffic (s : State) (f : Nat) : State :=
  let a := s.pfOf f
  s.setAtt a { s.att a with quietFrom := s.loc }

/-- What is done once the link is in L0; while it sleeps, an exit is started instead. -/
def State.whenAwake (s : State) (f : Nat) (k : State → State) : State :=
  if s.linkAwake f then k (s.traffic f) else s.startExit f

/-! ## Wakes and interrupts -/

/-- The level of WAKE_N follows the wakes that are pending in D3cold (R439). -/
def State.assertWake (s : State) : State :=
  if s.host.wakeN then s
  else ({ s with host := { s.host with wakeN := true } }.bump R.HIF_WAKE_COUNT).emit (.pin "WAKE_N" false)

/-- A wake is requested for a function: an L1 exit in D0, a PME message in D3hot with PME enabled, WAKE_N in D3cold; while
one is pending nothing more is sent (R194, R439). -/
def State.requestWake (s : State) (f : Nat) : State :=
  let x := s.func f
  match x.dstate with
  | .d0 => s.startExit f
  | .d3hot =>
    if x.wakePend || !x.pmeEn then s
    else ((s.setFunc f { x with wakePend := true, pmeStatus := true }).bump R.HIF_WAKE_COUNT).emit (.pme f)
  | .d3cold =>
    if x.wakePend then s else (s.setFunc f { x with wakePend := true, pmeStatus := true }).assertWake

/-- An interrupt is raised for a vector: it is held until MSIX_SEND sends it, and a sleeping host is woken (R174, R194). -/
def State.raiseIrq (s : State) (f v : Nat) : State :=
  let x := s.func f
  (s.setFunc f { x with held := NSet.add x.held v }).requestWake f

/-- MSIX_SEND: a held interrupt is sent as one posted write of its table entry once nothing holds it (R174, R433). -/
def msixSend (f v : Nat) (s : State) : State :=
  let x := s.func f
  let (addr, data, masked) := x.msix.get msixInit v
  if NSet.mem x.held v && x.msixEn && !x.fmask && !masked && s.canMaster f && !s.adapterHalted then
    s.whenAwake f fun s => ((s.setFunc f { s.func f with held := NSet.del x.held v }).emit (.msix f v addr data)).pmuAtt (s.pfOf f) 0x307
  else s

/-! ## Failed host requests (Table 18-5) -/

/-- A non-posted request ended: 0 well, 1 with a poisoned completion or UR or CA status, 2 by completion timeout. -/
def State.hostErr (s : State) (f st : Nat) : State :=
  if st == 1 then (s.bump R.HIF_POISON_COUNT).report (tsrc 6 (s.pfOf f)) 0x53
  else if st == 2 then s.bump R.HIF_CPL_TIMEOUT_COUNT
  else s

/-- Why a memory request of a function is not issued: the adapter halt (R192), or a function that cannot master, which is
counted (R438). -/
inductive ReqBar
  | none
  | halted
  | noMaster
deriving DecidableEq, Repr

/-- May a memory request of a function be issued now? -/
def State.reqBar (s : State) (f : Nat) : ReqBar :=
  if s.adapterHalted then .halted else if s.canMaster f then .none else .noMaster

/-- A request that was not issued because its function cannot master (R438). -/
def State.notIssued (s : State) : State := s.bump R.HIF_NOMASTER_COUNT

/-! ## The commands -/


end Sys2Proof.Machine
end

