-- ==== Sys2Proof/Machine/Operation.lean ====
section
/-! DEFINITION. Machine/Operation.lean: operation slots, handles and completion (R101 to R106, R116, R126). A slot has the
key 4096c + slot. -/
namespace Sys2Proof.Machine

/-- Is the slot open: accepted and not complete? -/
def Op.isOpen (o : Op) : Bool := o.status.isNone
/-- Is the slot held: accepted and its completion not yet delivered (R102)? -/
def Op.isHeld (o : Op) : Bool := o.status.isNone || !o.delivered

/-- The key under which what is left of an ended operation is sent as void packets, apart from its slot, which may be free before they
are (R102, R110): by the order of the operation and its cluster. -/
def voidKey (c order : Nat) : Nat := 2 ^ 18 + 64 * order + c
/-- Is a key that of void packets? -/
def isVoidKey (k : Nat) : Bool := decide (2 ^ 18 ≤ k)
/-- The key that PACKET_FORM names: a slot of its cluster, or from 4,096 on the void packets of the operation of that order. -/
def formKey (c slot : Nat) : Nat := if slot < 4096 then 4096 * c + slot else voidKey c (slot - 4096)

/-- The handle of a slot (R102). -/
def handleOf (k gen : Nat) : Nat := (k / 4096) * 2 ^ 20 + gen * 2 ^ 12 + k % 4096

/-- The slot key that a handle names, if its form is right. -/
def handleKey (h : Nat) : Option (Nat × Nat) :=
  if h / 2 ^ 26 == 0 && nbits h 19 12 != 0 then some (4096 * nbits h 25 20 + h % 4096, nbits h 19 12) else none

/-- A free slot of the cluster: the lowest (the manual names none; DESIGN CHOICE, log entry 7). -/
def State.freeSlot (s : State) (c : Nat) : Option Nat :=
  (firstBelow 4096 fun i => !(s.op (4096 * c + i)).isHeld).map (4096 * c + ·)

/-- The next generation of a slot: 1 to 255 in turn (R102). -/
def nextGen (g : Nat) : Nat := if g ≥ 255 then 1 else g + 1

/-- Header fields of a command block (Table 4-2). -/
def blkKind (b : List Byte) : Nat := leAt b 0 1
def blkCompl (b : List Byte) : Nat := leAt b 1 1
def blkStatusOff (b : List Byte) : Nat := leAt b 2 2
def blkCookie (b : List Byte) : Nat := leAt b 4 4
/-- COMPL.FIFO, PRIO and MODE (Table 4-2). -/
def blkFifo (b : List Byte) : Nat := nbits (blkCompl b) 1 0
def blkPrio (b : List Byte) : Nat := nbits (blkCompl b) 4 2
def blkMode (b : List Byte) : Nat := nbits (blkCompl b) 6 5

/-- The keys of the operations that a thread issued since its dispatch and that are still open (R102). -/
def State.threadOps (s : State) (tid run : Nat) : List Nat :=
  SMap.keysWhere (fun _ o => o.isOpen && o.origin == .thread tid run) s.ops

/-- Is the operation behind an open fence of its thread (R116)? -/
def State.fenced (s : State) (k : Nat) : Bool :=
  let o := s.op k
  match o.origin with
  | .thread tid run => s.ops.any fun e =>
      e.2.isOpen && e.2.kind == 6 && e.2.origin == .thread tid run && decide (e.2.order < o.order)
  | _ => false

/-- May a fence complete: has every earlier operation of its thread completed (R116)? -/
def State.fenceClear (s : State) (k : Nat) : Bool :=
  let o := s.op k
  !(s.ops.any fun e => e.2.isOpen && e.2.origin == o.origin && decide (e.2.order < o.order))

/-- Threads that wait for an operation by `opwait` get its STATUS and go on (R132). -/
def State.wakeOpwait (s : State) (k gen status : Nat) : State :=
  { s with threads := SMap.mapVals Thread.init (fun _ th => match th.wait with
      | .op k' g' rd =>
        if k' == k && g' == gen then
          { th with wait := .ready, pc := th.pc + 4, g := if rd == 0 then th.g else th.g.set 0 rd (w64 status) }
        else th
      | _ => th) s.threads }

/-- An Amalgam slot that an operation holds open is closed; how many of its stripes were complete stays (R131, R314). -/
def State.closeSlot (s : State) (k : Nat) : State :=
  { s with aml := { s.aml with
      slots := SMap.mapVals AmlSlot.init (fun _ a => if a.op == some k then { a with op := none, stripes := [] } else a) s.aml.slots } }

/-- A slot's completion recorded: it happens once (R105). An Amalgam submission that completes closes its slot. -/
def State.finish (s : State) (k status : Nat) : State :=
  let o := s.op k
  if o.isOpen then
    let s1 := if o.kind == 14 then s.closeSlot k else s
    (s1.setOp k { o with status := some status, ftDone := s.ft, held := false, delivered := false, stage := 0, keyed := none }).wakeOpwait k o.gen status
  else s

/-- The open fences, in the order of their acceptance, that nothing earlier holds any more complete (R116). -/
def State.settleFences (s : State) (fs : List Nat) : State :=
  fs.foldl (fun s k => if (s.op k).isOpen && s.fenceClear k then s.finish k 0 else s) s

/-- Open fences by slot, oldest first. -/
def State.openFences (s : State) : List Nat :=
  (sortBy (fun e => e.2.order) (s.ops.filter fun e => e.2.isOpen && e.2.kind == 6)).map (·.1)

/-- An operation completes with a status; fences that waited for it complete with it (R105, R116). -/
def State.complete (s : State) (k status : Nat) : State :=
  let s1 := s.finish k status
  s1.settleFences s1.openFences

/-- As `complete`, with RESULT and BYTES. -/
def State.completeWith (s : State) (k status : Nat) (result : Word) (bytes : Nat) : State :=
  (s.setOp k { s.op k with result := result, bytes := bytes }).complete k status

/-- Every armed trigger is cancelled with TIME_STEPPED (R46, R126). -/
def State.cancelTriggers (s : State) : State :=
  let ks := s.clusters.flatMap fun e => e.2.trigs.map (·.slot)
  let s1 := ks.foldl (fun s k => s.complete k 0x15) s
  { s1 with clusters := SMap.mapVals Cluster.init (fun _ c => { c with trigs := [] }) s1.clusters }

/-- The numbers of an operation that ends with a status and has not formed all its packets are sent as void packets (R110, R132). -/
def State.voidRest (s : State) (k status : Nat) : State :=
  let o := s.op k
  if o.formed < o.n then
    s.setOp (voidKey (k / 4096) o.order) { o with
      status := some status, delivered := true, voiding := some o.n, held := false, keyed := none, pendFault := none }
  else s

/-- A run of void packets is over. -/
def State.dropVoid (s : State) (k : Nat) : State := if isVoidKey k then s.setOp k Op.free else s

/-- An abort is lodged against an operation (R132, Table 4-16): whether it was, and the state. A put, send or multicast
sends its remaining sequence numbers as void packets; a transfer stops when its mover next reaches a boundary, which
DMA_DONE brings about; a get, atomic, flush, fence, trigger or Amalgam submission completes at once, and a slot that the library
holds for an access of its own is freed. -/
def State.abortOp (s : State) (k : Nat) : Bool × State :=
  let o := s.op k
  if !o.isOpen then (false, s) else
  match o.kind with
  | 1 | 4 | 7 =>
    (true, (s.voidRest k 1).complete k 1)
  | 2 | 3 | 5 | 6 | 14 => (true, s.complete k 1)
  | 11 =>
    let c := k / 4096
    let cl := s.cluster c
    (true, (s.setCluster c { cl with trigs := cl.trigs.filter (·.slot != k) }).complete k 1)
  | 12 => (true, s.setOp k { o with aborting := true })
  | 0x15 => (true, s.setOp k { o with status := some 1, delivered := true })
  | _ => (false, s)

/-- The completion record (Table 4-3). -/
def Op.record (k : Nat) (o : Op) : List Byte :=
  leBytes 4 (handleOf k o.gen) ++ leBytes 4 (blkCookie o.block) ++ leBytes 1 (o.status.getD 0) ++ leBytes 1 (blkKind o.block) ++
  leBytes 1 o.cflags ++ zeroBytes 1 ++ leBytes 4 o.bytes ++ leBytes 8 o.result.toNat ++ leBytes 8 o.ftDone.toNat ++
  leBytes 8 o.ftAux.toNat ++ zeroBytes 24

/-- The status word (R106). -/
def Op.statusWord (o : Op) : Nat := o.bytes * 2 ^ 32 + 2 ^ 16 + o.cflags * 2 ^ 8 + o.status.getD 0

/-- A frame offset of a thread as a memory key (R65, R100). -/
def frameKey (tid off : Nat) : Nat := ldmKey (tid / 4) ((tid % 4) * 0x3000 + off)

/-- A packet reference of a cluster. -/
def State.pktRef (s : State) (c r : Nat) : Option PktRef := (s.cluster c).refs.get none r
/-- A packet reference replaced or released. -/
def State.setPktRef (s : State) (c r : Nat) (x : Option PktRef) : State :=
  s.setCluster c { s.cluster c with refs := (s.cluster c).refs.set none r x }

end Sys2Proof.Machine
end

