-- ==== Sys2Proof/Machine/Xlt.lean ====
section
/-! DEFINITION. Machine/Xlt.lean: the ASK table and its caches, the TLBs, rights, and the page-table walk (chapter 10). -/
namespace Sys2Proof.Machine

/-! ## The ASK table -/

/-- The memory key of an ASK's entry (R240). -/
def State.askKey (s : State) (ask : Nat) : Nat := hbmKey (s.fd F.XLT_ASK_BASE_BASE * 2 ^ 25 + (ask % 2 ^ 20) * 32)

/-- Fields of an ASK table entry (Table 10-1). -/
def askRoot (b : List Byte) : Nat := nbits (leAt b 0 8) 51 12 * 4096
def askRootHbm (b : List Byte) : Bool := nbit (leAt b 0 8) 0
def askGen (b : List Byte) : Nat := nbits (leAt b 8 2) 11 0
def askIso (b : List Byte) : Nat := leAt b 10 2
def askFunc (b : List Byte) : Nat := nbits (leAt b 12 2) 9 0
def askDev (b : List Byte) : Bool := nbit (leAt b 12 2) 14
def askRights (b : List Byte) : Nat := nbits (leAt b 14 1) 4 0
def askLevels (b : List Byte) : Nat := nbits (leAt b 15 1) 3 0
def askState (b : List Byte) : Nat := nbits (leAt b 15 1) 6 4
def askQuietEnd (b : List Byte) : Nat := leAt b 16 8

/-- RIGHTS of an ASK (byte 16 of Table 8-4), as bit numbers. -/
def rightLocal : Nat := 0
def rightRead : Nat := 1
def rightWrite : Nat := 2
def rightAtomic : Nat := 3
def rightRetry : Nat := 4

/-- The entry as memory holds it. -/
def State.askMem (s : State) (ask : Nat) : List Byte := s.mread (s.askKey ask) 32

/-- A byte of the entry rewritten, as the control program does (R240). -/
def State.askSetState (s : State) (ask st : Nat) : State :=
  s.mwrite (s.askKey ask + 15) [BitVec.ofNat 8 ((leAt (s.askMem ask) 15 1) % 16 + st * 16)]

/-- Has an entry filled then reached XLT_MAXAGE (R259)? -/
def State.aged (s : State) (filledAt : Word) : Bool :=
  let us := (s.rd R.XLT_MAXAGE).toNat
  us != 0 && decide (us * ticksPerUs ≤ s.locSince filledAt)

/-- The n-th of the entries that satisfy a test leaves a list. -/
def dropNth {α : Type} (p : α → Bool) : Nat → List α → List α
  | _, [] => []
  | n, x :: xs =>
    if p x then match n with
      | 0 => xs
      | n + 1 => x :: dropNth p n xs
    else x :: dropNth p n xs

/-- An entry enters a cache, whose list has the most recently used first, in place of those that it replaces. When the ways of its set
are all taken, one of them leaves, but not the most recently used: the manual names a pseudo-least-recently-used policy and no more, so
which one is free (R250; DESIGN CHOICE, log entry 15). -/
def State.cachePut {α : Type} (s : State) (ways : Nat) (same set : α → Bool) (e : α) (l : List α) : List α × State :=
  let l := l.filter fun x => !same x
  if decide (l.length < ways) || decide ((l.filter set).length < ways) then (e :: l, s)
  else
    let (i, s1) := s.freeBelow (ways - 2)
    (e :: dropNth set (i + 1) l, s1)

/-- An ASK as cluster c sees it, through its ASK cache of 64 entries, which a miss fills (R249, R250, R259). -/
def State.askOf (s : State) (c ask : Nat) : List Byte × State :=
  let fill (s : State) : List Byte × State :=
    let b := s.askMem ask
    let (l, s1) := s.cachePut 64 (fun e : AskCached => e.ask == ask) (fun _ => true) ⟨ask, b, s.loc⟩ (s.cluster c).askc
    (b, s1.setCluster c { s1.cluster c with askc := l })
  let cl := s.cluster c
  match cl.askc.find? (fun e => e.ask == ask) with
  | some e =>
    if s.aged e.filledAt then fill (s.bump R.XLT_MAXAGE_DROP_COUNT)
    else (e.bytes, s.setCluster c { cl with askc := e :: cl.askc.filter fun x => x.ask != ask })
  | none => fill s

/-- May the ASK be used locally: VALID and holding LOCAL (R248)? -/
def askLocalOk (b : List Byte) : Bool := askState b == 1 && nbit (askRights b) rightLocal

/-! ## TLB lookup -/

/-- Leaf rights as bits of a page-table entry (Table 10-3). -/
def leafR : Nat := 4
def leafW : Nat := 8
def leafX : Nat := 16
def leafA : Nat := 32
def leafU : Nat := 64
def leafRM : Nat := 128

/-- Does the entry hold the translation of an address? -/
def TlbEntry.covers (e : TlbEntry) (ask va : Nat) : Bool := e.ask == ask && va / 2 ^ e.size == e.vpage

/-- The address that an entry translates to. -/
def TlbEntry.translate (e : TlbEntry) (va : Nat) : Nat := e.paddr + va % 2 ^ e.size

/-- What a lookup finds: a place and whether it is in HBM and accessed with No Snoop; a miss; a refusal of the ASK for
local use; or a failure with a cause of Table 10-7. -/
inductive XRes
  | hit (paddr : Nat) (hbm ns : Bool)
  | miss
  | denied
  | fail (cause : Nat)
deriving DecidableEq, Repr

/-- A lookup in one TLB: the entry found is the most recent then; one past its age is dropped (R250, R259). -/
def tlbFind (s : State) (tlb : List TlbEntry) (ask va : Nat) : Option TlbEntry × List TlbEntry × Bool :=
  match tlb.find? (·.covers ask va) with
  | none => (none, tlb, false)
  | some e =>
    let rest := tlb.filter fun x => !(x.covers ask va)
    if s.aged e.filledAt then (none, rest, true) else (some e, e :: rest, false)

/-- Which engine TLB a lookup begins with (R250). -/
inductive EngTlb
  | none
  | instr (g : Nat)
  | data (g : Nat)
deriving DecidableEq, Repr

/-- The engine TLB's list. -/
def State.engTlb (s : State) : EngTlb → List TlbEntry
  | .none => []
  | .instr g => (s.engine g).itlb
  | .data g => (s.engine g).dtlb

/-- The engine TLB's list replaced, cut to its size (Table 10-5). -/
def State.setEngTlb (s : State) (w : EngTlb) (l : List TlbEntry) : State :=
  match w with
  | .none => s
  | .instr g => s.setEngine g { s.engine g with itlb := l.take 16 }
  | .data g => s.setEngine g { s.engine g with dtlb := l.take 32 }

/-- The translation of an address by the caches alone: the engine TLB, then the second-level TLB, which fills it (R250). -/
def State.tlbLookup (s : State) (c : Nat) (w : EngTlb) (ask va : Nat) : Option TlbEntry × State :=
  let (e1, l1, d1) := tlbFind s (s.engTlb w) ask va
  let s1 := s.setEngTlb w l1
  let s2 := if d1 then s1.bump R.XLT_MAXAGE_DROP_COUNT else s1
  match e1 with
  | some e => (some e, s2)
  | none =>
    let (e2, l2, d2) := tlbFind s2 (s2.cluster c).l2 ask va
    let s3 := s2.setCluster c { s2.cluster c with l2 := l2 }
    let s4 := if d2 then s3.bump R.XLT_MAXAGE_DROP_COUNT else s3
    match e2 with
    | some e => (some e, s4.setEngTlb w (e :: s4.engTlb w))
    | none => (none, s4)

/-- Is a revocation of the ASK in progress (R208)? Every key check honours it from the revocation point (R242). -/
def State.isRevoking (s : State) (ask : Nat) : Bool :=
  match s.net.revoking with
  | some r => r.ask == ask
  | none => false

/-- A lookup against the rights needed (R248). `check` says that the use is local, so that the ASK must be VALID and hold
LOCAL; an address beyond the ASK's width has cause WIDTH (R243). -/
def State.xlate (s : State) (c : Nat) (w : EngTlb) (ask va need : Nat) (check : Bool) : XRes × State :=
  let (b, s1) := s.askOf c ask
  if check && (!askLocalOk b || s.isRevoking ask) then (.denied, s1)
  else if decide (2 ^ (12 + 9 * askLevels b) ≤ va) then (.fail 3, s1)
  else
    let (e, s2) := s1.tlbLookup c w ask va
    match e with
    | none => (.miss, s2)
    | some e =>
      if e.bits &&& need == need then (.hit (e.translate va) e.hbm (nbit e.bits 11), s2) else (.fail 6, s2)

/-- A miss joins the cluster's queue of misses, once for each client and page (R250, R251). -/
def State.addMiss (s : State) (c ask va : Nat) (cl : XltClient) : State :=
  let x := s.cluster c
  let same (r : XltReq) : Bool := r.client == cl && r.ask == ask && r.va / 4096 == va / 4096
  let inWalk := x.walks.any fun k => k.ask == ask && k.va / 4096 == va / 4096 && k.clients.contains cl
  if x.misses.any same || inWalk then s else s.setCluster c { x with misses := x.misses ++ [⟨ask, va, cl⟩] }

/-! ## The walk -/

/-- Does an address fall within a BAR of a function of this device? -/
def State.inBar (s : State) (a : Nat) : Bool :=
  s.host.funcs.any fun e => e.2.bars.any fun b => decide (b.1 ≤ a) && decide (a < b.1 + b.2)

/-- The MMIO windows of an attachment, each as its first and last byte (R260). -/
def State.mmioWindows (s : State) (att : Nat) : List (Nat × Nat) :=
  (List.range 8).map fun w =>
    (s.fd F.XLT_MMIO_BASE_ADDR [att, w] * 4096, s.fd F.XLT_MMIO_LIMIT_ADDR [att, w] * 4096 + 4095)

/-- Is a host table address an illegal target: within a BAR of this device or a window (R254)? -/
def State.illegalTable (s : State) (wins : List (Nat × Nat)) (a : Nat) : Bool :=
  s.inBar a || wins.any fun w => decide (w.1 ≤ a + 4095) && decide (a ≤ w.2)

/-- HBM ends at 48 GiB (R245). -/
def hbmSize : Nat := 48 * 2 ^ 30

/-- How a walk ends: a leaf with the pointers read on the way, or a cause with the level and address of it. -/
inductive WRes
  | leaf (e : TlbEntry) (ptrs : List PwcEntry)
  | fault (cause level addr : Nat)
deriving DecidableEq, Repr

/-- Is a page-table entry reserved at its level (R244, R245)? -/
def pteReserved (pte level : Nat) : Bool :=
  let leaf := nbit pte 1
  nbits pte 55 52 != 0 || nbit pte 9 ||
  (leaf && (decide (4 ≤ level) || (level == 2 && nbits pte 20 12 != 0) || (level == 3 && nbits pte 29 12 != 0) ||
    (level != 1 && nbit pte 8))) ||
  (!leaf && (level == 1 || nbit pte 11 || nbits pte 8 2 != 0))

/-- The leaf translation of a page-table entry at a level (Table 10-2, R246). -/
def leafOf (ask va level pte : Nat) (now : Word) : TlbEntry :=
  let size := if level == 1 then (if nbit pte 8 then 16 else 12) else if level == 2 then 21 else 30
  { ask := ask, vpage := va / 2 ^ size, size := size, paddr := nbits pte 51 12 * 4096 / 2 ^ size * 2 ^ size,
    hbm := nbit pte 10, bits := pte % 4096, filledAt := now }

/-- Cause 9 is the model's own: a read of a host table that an adapter halt forbids (R192).
The walk from a table at a level down: each table address is checked before it is read (R254, R245), each entry is
read from HBM or is the next of the host reads, none for a read that failed (R252). -/
def walkFrom (s : State) (wins : List (Nat × Nat)) (b : List Byte) (ask va : Nat) :
    Nat → Nat → Bool → List (Nat × Nat) → List PwcEntry → WRes
  | 0, tbl, _, _, _ => .fault 2 0 tbl
  | level + 1, tbl, hbm, host, ptrs =>
    let l := level + 1
    if hbm && (!askDev b || decide (hbmSize ≤ tbl)) then .fault 5 l tbl
    else if !hbm && s.illegalTable wins tbl then .fault 7 l tbl
    else
      let a := tbl + (va / 2 ^ (12 + 9 * level)) % 512 * 8
      let got := if hbm then (if s.bad (hbmKey a) 8 then (none, 8) else (some (s.mnat (hbmKey a) 8), 0)) else
        match s.reqBar (askFunc b), host.headD (1, 0) with
        | .none, (0, v) => (some v, 0)
        | .halted, _ => (none, 9)
        | _, _ => (none, 4)
      match got with
      | (none, cause) => .fault cause l a
      | (some pte, _) =>
        if !nbit pte 0 then .fault 1 l a
        else if pteReserved pte l then .fault 2 l a
        else
          let addr := nbits pte 51 12 * 4096
          let h := nbit pte 10
          if h && (!askDev b || decide (hbmSize ≤ addr)) then .fault 5 l a
          else if nbit pte 1 then
            if !h && s.inBar addr then .fault 5 l a else .leaf (leafOf ask va l pte s.loc) ptrs
          else
            walkFrom s wins b ask va level addr h (if hbm then host else host.drop 1)
              (⟨ask, level, va / 2 ^ (12 + 9 * level), addr, h, s.loc⟩ :: ptrs)

/-- The deepest pointer of the page-walk cache that helps a walk (R250); it is the most recently used then, and those that have reached
their age are discarded and counted (R259). -/
def State.pwcBest (s : State) (c ask va : Nat) : Option PwcEntry × State :=
  let cl := s.cluster c
  let helps (e : PwcEntry) : Bool := e.ask == ask && e.region == va / 2 ^ (12 + 9 * e.level)
  let old := cl.pwc.filter fun e => helps e && s.aged e.filledAt
  let l := cl.pwc.filter fun e => !(helps e && s.aged e.filledAt)
  let s1 := s.bump R.XLT_MAXAGE_DROP_COUNT [] old.length
  match (sortBy (fun e : PwcEntry => e.level) (l.filter helps)).head? with
  | some e => (some e, s1.setCluster c { cl with pwc := e :: l.filter (· != e) })
  | none => (none, s1.setCluster c { cl with pwc := l })

/-- A whole walk (R243, R250): from the page-walk cache's best pointer, else from ROOT at level LEVELS. -/
def State.walkAll (s : State) (c : Nat) (wins : List (Nat × Nat)) (b : List Byte) (ask va : Nat) (host : List (Nat × Nat)) :
    WRes × State :=
  if decide (2 ^ (12 + 9 * askLevels b) ≤ va) then (.fault 3 0 va, s)
  else match s.pwcBest c ask va with
    | (some e, s1) => (walkFrom s1 wins b ask va e.level e.table e.hbm host [], s1)
    | (none, s1) =>
      if askRootHbm b && !askDev b then (.fault 5 (askLevels b) (askRoot b), s1)
      else (walkFrom s1 wins b ask va (askLevels b) (askRoot b) (askRootHbm b) host [], s1)

/-- The set of the second-level TLB that a translation stands in: 2,048 entries, 8-way (Table 10-5). -/
def TlbEntry.set (e : TlbEntry) : Nat := Config.cacheSet 0 e.ask (64 * e.vpage + e.size) % 256
/-- The set of the page-walk cache that a pointer stands in: 512 entries, 8-way (Table 10-5). -/
def PwcEntry.set (e : PwcEntry) : Nat := Config.cacheSet 1 e.ask (8 * e.region + e.level) % 64

/-- A translation enters the second-level TLB. -/
def State.fillL2 (s : State) (c : Nat) (e : TlbEntry) : State :=
  let (l, s1) := s.cachePut 8 (fun x : TlbEntry => x.ask == e.ask && x.vpage == e.vpage && x.size == e.size)
    (fun x => x.set == e.set) e (s.cluster c).l2
  s1.setCluster c { s1.cluster c with l2 := l }

/-- Pointers enter the page-walk cache. -/
def State.fillPwc (s : State) (c : Nat) (ps : List PwcEntry) : State :=
  ps.reverse.foldl (fun s p =>
    let (l, s1) := s.cachePut 8 (fun e : PwcEntry => p.ask == e.ask && p.level == e.level && p.region == e.region)
      (fun e => e.set == p.set) p (s.cluster c).pwc
    s1.setCluster c { s1.cluster c with pwc := l }) s

/-- A walk's outcome for one client (R251, R252): a thread tries its access again, and finds a cause if the walk failed;
an operation or a keyed packet finds it when it next acts; for a packet the level at which the walk ended is kept with it. -/
def State.deliverWalk (s : State) (c : Nat) (va : Nat) (cause : Option Nat) (cl : XltClient) (level : Nat := 0) : State :=
  match cl with
  | .fetch _ t =>
    let th := s.thread t
    match th.wait with
    | .xlt _ => s.setThread t { th with wait := .ready, xfault := cause.map fun k => (va / 4096, true, k) }
    | _ => s
  | .data _ t =>
    let th := s.thread t
    match th.wait with
    | .xlt w => s.setThread t { th with wait := .again w, xfault := cause.map fun k => (va / 4096, false, k) }
    | _ => s
  | .op k => match cause with
    | some e => s.setOp k { s.op k with pendFault := some e }
    | none => s
  | .pkt r => match cause, s.pktRef c r with
    | some e, some p => s.setPktRef c r (some { p with xlt := some (e + 16 * level) })
    | _, _ => s

/-- The engine whose access starts a walk counts it (event 0x006). -/
def State.pmuWalk (s : State) (cl : XltClient) : State :=
  match cl with
  | .fetch g t => s.pmuEng g 6 (s.thread t).priv
  | .data g t => s.pmuEng g 6 (s.thread t).priv
  | _ => s

/-- The windows that a walk of an ASK is judged by: those of its attachment as they are when it starts (R260). -/
def State.walkWindows (s : State) (c ask : Nat) : List (Nat × Nat) := s.mmioWindows (s.pfOf (askFunc (s.askOf c ask).1))

/-- The walk in flight that a miss waits for: that of its ASK and 4 KiB page (R251). -/
def Cluster.joins (cl : Cluster) (m : XltReq) : Option Nat := cl.walks.findIdx? fun k => k.ask == m.ask && k.va / 4096 == m.va / 4096

/-- WALK: the oldest miss that can join a walk for the same ASK and 4 KiB page, or start one, does; a miss that finds 16 in flight, and
none to join, waits (R251). -/
def walk (c : Nat) (s : State) : State :=
  let cl := s.cluster c
  match cl.misses.findIdx? (fun m => (cl.joins m).isSome || decide (cl.walks.length < 16)) with
  | none => s
  | some n => match cl.misses[n]? with
    | none => s
    | some m =>
      let rest := cl.misses.eraseIdx n
      match cl.joins m with
      | some i => s.setCluster c { cl with misses := rest, walks := cl.walks.modify i fun k => { k with clients := k.clients ++ [m.client] } }
      | none =>
        (s.setCluster c { cl with
          misses := rest, walks := cl.walks ++ [⟨m.ask, m.va, [m.client], false, s.loc, s.walkWindows c m.ask⟩] }).pmuWalk m.client

/-! ## Invalidation -/

/-- Does a range of an ASK, rounded outward to 4 KiB, overlap size bytes from an address (R255)? -/
def rangeHits (va len a size : Nat) : Bool :=
  decide (va / 4096 * 4096 < a + size) && decide (a < (va + len + 4095) / 4096 * 4096)

/-- Is an ASK and region within the scope of an invalidation (R255)? -/
def Inval.hits (i : Inval) (ask a size : Nat) : Bool :=
  i.scope == 0 || (i.ask == ask && (i.scope == 1 || rangeHits i.va i.len a size))

/-- A TLB entry in the scope. -/
def Inval.hitsTlb (i : Inval) (e : TlbEntry) : Bool := i.hits e.ask (e.vpage * 2 ^ e.size) (2 ^ e.size)

/-- Cluster c removes every entry in the scope and marks its walks in the scope stale (R256, steps 1 and 2). -/
def State.invalCluster (s : State) (i : Inval) (c : Nat) : State :=
  let cl := s.cluster c
  let s1 := s.setCluster c { cl with
    l2 := cl.l2.filter fun e => !i.hitsTlb e
    pwc := cl.pwc.filter fun e => !i.hits e.ask (e.region * 2 ^ (12 + 9 * e.level)) (2 ^ (12 + 9 * e.level))
    askc := cl.askc.filter fun e => !(i.scope == 0 || (i.scope == 1 && i.ask == e.ask))
    walks := cl.walks.map fun w => if i.hits w.ask w.va 1 then { w with stale := true } else w }
  (List.range 8).foldl (fun s e =>
    let g := 8 * c + e
    let x := s.engine g
    s.setEngine g { x with
      itlb := x.itlb.filter fun e => !i.hitsTlb e
      dtlb := x.dtlb.filter fun e => !i.hitsTlb e }) s1

/-- Has every access of cluster c that used a translation in the scope been performed (R256, step 3)? The accesses in
flight here are far loads, instruction fetches, buffered far stores, and AtomicOps that the host has not completed. -/
def State.invalDrained (s : State) (i : Inval) (c : Nat) : Bool :=
  ((List.range 32).all fun n =>
    let th := s.thread (32 * c + n)
    (match th.wait with
      | .farLoad ask va _ _ size _ _ => !i.hits ask va size
      | .fetch _ _ va => bitW va 63 || !i.hits th.xask va.toNat 4
      | _ => true) && th.sb.all fun e => !i.hits e.ask e.va e.data.length) &&
  s.host.reads.all fun r => match r.2 with
    | some ⟨.atomic c' ref, _, _, _⟩ => c' != c || match s.pktRef c ref with
      | some p => !i.hits (p.pkt.key % 2 ^ 20) p.pkt.va 8
      | none => true
    | _ => true

/-- A broadcast starts, or waits while 16 are in progress (R257). -/
def State.startInval (s : State) (scope ask va len : Nat) (op : Option Nat) (cmd : Option (Nat × Nat × Nat)) : State :=
  let i : Inval := { scope := scope, ask := ask, va := va, len := len, waiting := List.range s.clusterCount, op := op, cmd := cmd }
  if s.net.invals.length < 16 then { s with net := { s.net with invals := s.net.invals ++ [i] } }
  else { s with net := { s.net with invalQueue := s.net.invalQueue ++ [i] } }

/-- The pending faults of an ASK leave the table when the ASK leaves VALID (R253). -/
def State.dropPend (s : State) (ask : Nat) : State :=
  { s with net := { s.net with pendFaults := s.net.pendFaults.filter (·.ask != ask) } }

/-- The walker met an illegal target (R254): the ASK is disabled and invalidated, the first such is recorded, and every
other walk or miss of the ASK, in any cluster, fails with it. -/
def State.illegalTarget (s : State) (c ask level addr : Nat) : State :=
  let f := askFunc (s.askMem ask)
  let s1 := ((s.askSetState ask 2).dropPend ask).startInval 1 ask 0 0 none none
  let s2 := if s1.fb F.XLT_ILLEGAL_INFO_VALID then s1 else
    (s1.wr R.XLT_ILLEGAL_INFO [] (w64 (2 ^ 63 + level * 2 ^ 60 + f * 2 ^ 40 + ask))).wr R.XLT_ILLEGAL_ADDR [] (w64 addr)
  let s3 := s2.report (tsrc 0xA c) 0x40 ask addr
  (s3.clusters.map (·.1)).foldl (fun s c =>
    let cl := s.cluster c
    let hit := (cl.walks.filter (·.ask == ask)).flatMap (fun w => w.clients.map fun k => (w.va, k)) ++
      (cl.misses.filter (·.ask == ask)).map fun m => (m.va, m.client)
    let s1 := s.setCluster c { cl with walks := cl.walks.filter (·.ask != ask), misses := cl.misses.filter (·.ask != ask) }
    hit.foldl (fun s p => s.deliverWalk c p.1 (some 7) p.2) s1) s3

/-- WALK_DONE: walk i of the cluster ends (R250 to R252, R254). A stale one starts again from the ASK entry (R256); an ASK
that is no longer in use wakes its clients, which then find it refused. `host` are the host table reads in order. -/
def walkDone (c i : Nat) (host : List (Nat × Nat)) (s : State) : State :=
  let cl := s.cluster c
  match cl.walks[i]? with
  | none => s
  | some w =>
    if s.inSafe then s
    else if w.stale then s.setCluster c { cl with walks := cl.walks.set i { w with stale := false, wins := s.walkWindows c w.ask } }
    else
      let (b, s0) := s.askOf c w.ask
      let s1 := s0.setCluster c { s0.cluster c with walks := (s0.cluster c).walks.eraseIdx i }
      let wake (s : State) (cause : Option Nat) (level : Nat) : State :=
        w.clients.foldl (fun s k => s.deliverWalk c w.va cause k level) s
      if askState b != 1 && askState b != 3 then wake s1 none 0
      else match s1.walkAll c w.wins b w.ask w.va host with
        | (.leaf e ptrs, s1) =>
          let s2 := (s1.fillL2 c e).fillPwc c ptrs
          let s3 := w.clients.foldl (fun s k => match k with
            | .fetch g _ => s.setEngTlb (.instr g) (e :: s.engTlb (.instr g))
            | .data g _ => s.setEngTlb (.data g) (e :: s.engTlb (.data g))
            | _ => s) s2
          wake ((s3.bump R.XLT_WALK_COUNT).histTime 10 c w.at_) none 0
        | (.fault cause level addr, s1) =>
          let s2 := (s1.bump R.XLT_WALK_FAULT_COUNT).histTime 10 c w.at_
          let f := askFunc b
          let s2 := if cause != 4 then s2 else if s.reqBar f == .noMaster then s2.notIssued
            else s2.hostErr f (((host.map (·.1)).find? (· != 0)).getD 1)
          let s3 := wake s2 (some cause) level
          if cause == 7 then s3.illegalTarget c w.ask level addr else s3

/-- Can another broadcast start (R257)? -/
def State.invalReady (s : State) : Bool := decide (s.net.invals.length < 16) && s.net.invalQueue.isEmpty

/-! ## The commands -/

/-- WALK (R251). -/
def execWalk (c : Nat) (s : State) : Host.Outcome State Fault Refusal := .next (s.live (walk c))
/-- WALK_DONE (R250, R252). -/
def execWalkDone (c i : Nat) (ptes : List (Nat × Nat)) (s : State) : Host.Outcome State Fault Refusal :=
  .next (walkDone c i ptes s)

end Sys2Proof.Machine
end

