-- ==== Sys2Proof/Machine/Engine.lean ====
section
/-! DEFINITION. Machine/Engine.lean: the Mirq engines: dispatch, the issue of an instruction, exceptions, watchdogs, engine
retirement (chapter 3). Threads are numbered as R59 numbers them, engines 8c + e. -/
namespace Sys2Proof.Machine

/-- The cluster, engine and place of a thread (R59). -/
def tCluster (t : Nat) : Nat := t / 32
def tEngine (t : Nat) : Nat := t / 4
def tPlace (t : Nat) : Nat := t % 4

/-! ## Registers of a thread -/

/-- A general register; g0 reads zero (R63). -/
def State.reg (s : State) (t i : Nat) : Word := if i = 0 then 0 else (s.thread t).g.get 0 i

/-- A general register written; a write to g0 is discarded (R63), and a written register's parity is good (R85). -/
def State.setReg (s : State) (t i : Nat) (v : Word) : State :=
  if i = 0 then s else
  let th := s.thread t
  s.setThread t { th with g := th.g.set 0 i v, badRegs := NSet.del th.badRegs i }

/-- The program counter moved on by n bytes. -/
def State.nextPc (s : State) (t n : Nat) : State :=
  s.setThread t { s.thread t with pc := (s.thread t).pc + w64 n }

/-- The thread's wait changed. -/
def State.setWait (s : State) (t : Nat) (w : Wait) : State := s.setThread t { s.thread t with wait := w }

/-- Does an instruction of the thread wait to be tried again? -/
def Wait.isAgain : Wait → Bool
  | .again _ => true
  | _ => false

/-- Is the thread ready (R61)? -/
def State.ready (s : State) (t : Nat) : Bool :=
  let th := s.thread t
  th.running && match th.wait with
    | .ready => true
    | .again _ => true
    | .pause u => s.locReached u
    | _ => false

/-! ## The handler table (R75) -/

/-- A handler table entry (Table 3-4). -/
structure Handler where
  pc : Word
  psk : Nat
  budget : Nat
  priv : Nat
  valid : Bool
deriving DecidableEq, Repr

/-- The entry of an item type in a cluster's table; a reserved PRIV, or no budget below Control, is not valid (R75). -/
def State.handler (s : State) (c ty : Nat) : Handler :=
  let k := csmKey c (0xFF000 + ty * 16)
  let w0 := s.mnat k 8
  let w1 := s.mnat (k + 8) 8
  let priv := nbits w1 3 2
  let budget := nbits w1 43 28
  { pc := w64 (w0 / 4 * 4), psk := nbits w1 63 44, budget := budget, priv := priv,
    valid := nbit w1 0 && priv != 3 && !(budget == 0 && priv != 2) }

/-! ## Loss of a thread (R79, R80) -/

/-- The HANDLER_LOST item of a thread (R79, Table 3-5). -/
def lostItem (t cause : Nat) (it : Item) (epc ecause eval ft : Nat) : Item :=
  { ty := 0xEF, len := 9, prio := 7, src := 5, srcCluster := 0, commitNs := 0,
    body := leBytes 1 cause ++ leBytes 1 it.ty ++ leBytes 1 it.len ++ leBytes 1 it.prio ++ leBytes 2 t ++ zeroBytes 2 ++
      leBytes 8 epc ++ leBytes 8 ecause ++ leBytes 8 eval ++ leBytes 8 ft ++ zeroBytes 16 ++
      byteSlice it.bytes 0 512 }

/-- A loss that yields no item: counted, and raised as HANDLER_LOST_OVERFLOW (R80). -/
def State.lostOverflow (s : State) (c : Nat) : State := (s.bump R.CLU_LOST_COUNT [c]).report (tsrc 0xB c) 0x24

/-- A HANDLER_LOST item is started in a FIFO of the cluster, or waits in the buffer of four, or is lost (R79, R80). -/
def State.sendLost (s : State) (c : Nat) (it : Item) : State :=
  let wait (s : State) : State :=
    let cl := s.cluster c
    if cl.lost.length < 4 then s.setCluster c { cl with lost := cl.lost ++ [it] } else s.lostOverflow c
  match s.wfSteered c (s.fd F.WF_STEER_LOST_FIFO [c]) with
  | none => wait s
  | some k => match (if (s.cluster c).lost.isEmpty then s.wfStart k true it else none) with
    | some s1 => s1
    | none => wait (s.wfFull k)

/-- A thread freed: `done`, or lost. Its buffered far stores are still performed. -/
def State.freeThread (s : State) (t : Nat) : State :=
  s.setThread t { s.thread t with running := false, wait := .ready, pendWd := false, graceEnd := none, xfault := none }

/-- A thread is lost with a cause (R79, R80). -/
def State.loseThread (s : State) (t cause : Nat) (epc : Word) : State :=
  let th := s.thread t
  let c := tCluster t
  let s1 := (s.freeThread t).report (tsrc 0xB c) 0x23
  if th.item.ty == 0xEF then s1.lostOverflow c
  else s1.sendLost c (lostItem t cause th.item epc.toNat th.ecause th.eval.toNat s.ft.toNat)

/-! ## Exceptions (R81 to R83) -/

/-- Exception codes (Table 3-6). -/
def excIllegal : Nat := 1
def excPriv : Nat := 2
def excMisaligned : Nat := 3
def excNearRange : Nat := 4
def excFetch : Nat := 5
def excXlate : Nat := 6
def excAccess : Nat := 7
def excParity : Nat := 8
def excPoison : Nat := 9
def excWatchdog : Nat := 10
def excSyscall : Nat := 11
def excBreak : Nat := 12

/-- A parity error of an engine's local memory or registers: counted, kept for R86, and reported (R85). -/
def State.parityError (s : State) (g : Nat) : State :=
  let s1 := s.bump R.CLU_PARITY_COUNT [g / 8, g % 8]
  (s1.setEngine g { s1.engine g with parityAt := s1.loc :: (s1.engine g).parityAt }).report (tsrc 0xE g) 0x20

/-- An exception is taken (R81): the state is saved and the thread enters the vector, or is lost, by a double fault (R83)
or an invalid vector (R79). LDM_PARITY is a parity error of the engine (R85). A WATCHDOG that is still to be raised is dropped
when another exception comes first (DESIGN CHOICE, log entry 140). -/
def State.takeExc (s0 : State) (t code : Nat) (eval epc : Word) : State :=
  let s := if code == excParity then s0.parityError (tEngine t) else s0
  let th := s.thread t
  if th.excActive then s.loseThread t 1 th.epc else
  let h := s.handler (tCluster t) (0xF0 + code)
  let saved := { th with epc := epc, ecause := code, eval := eval, exask := th.xask, prev := th.priv, excActive := true,
                         wait := .ready, pendWd := false, xfault := none }
  let s1 := (s.bump R.CLU_EXC_COUNT [tCluster t]).pmuEng (tEngine t) 0xA th.priv
  if h.valid then
    s1.setThread t { saved with pc := h.pc, xask := h.psk, priv := max h.priv th.priv }
  else (s1.setThread t saved).loseThread t 4 epc

/-! ## Issue -/

/-- The instruction is to be tried again: its thread is not ready until what it waits for has come (R61). -/
def State.tryAgain (s : State) (t : Nat) : State := s.setWait t (.again 0)

/-- The first of some registers whose parity is bad (R85). -/
def State.badReg (s : State) (t : Nat) (srcs : List Nat) : Option Nat := srcs.find? fun i => NSet.mem (s.thread t).badRegs i

/-- The part of a fetch that concerns one address: translated through the instruction TLB, and present in the instruction
cache (R62, R68). The result says whether the instruction may issue. FETCH_FAULT has the address as its epc, MEM_POISON the
instruction's own (Table 3-6). -/
def State.fetchAt (s : State) (t : Nat) (a : Word) : Bool × State :=
  let th := s.thread t
  let c := tCluster t
  let g := tEngine t
  let va := a.toNat
  let fault (s : State) (code : Nat) : Bool × State := (false, s.takeExc t code a (if code == excFetch then a else th.pc))
  match th.xfault with
  | some (page, true, cause) =>
    if page == va / 4096 then fault s (if cause == 8 || cause == 9 then excPoison else excFetch)
    else (false, s.setThread t { th with xfault := none })
  | _ =>
    if bitW a 63 then fault s excFetch else
    let (r, s1) := s.xlate c (.instr g) th.xask va (leafX + if th.priv == 0 then leafU else 0) true
    match r with
    | .denied => fault s1 excFetch
    | .fail _ => fault s1 excFetch
    | .miss => (false, (s1.addMiss c th.xask va (.fetch g t)).setWait t (.xlt 0))
    | .hit p hbm _ =>
      let line := (b2n hbm, p / 64)
      if (s1.engine g).icache.contains line then (true, s1) else (false, (s1.pmuEng g 7 th.priv).setWait t (.fetch line.1 line.2 a))

/-- The class of an instruction for sampling (R473): 1 far loads, 2 far stores and atomics, 3 command-block instructions, else 0;
and its data address, or that of its command block. A push or a walk of the FIFOs has no command block. -/
def State.sampleClass (s : State) (t word : Nat) : Nat × Word :=
  let major := word / 2 ^ 26
  let base := s.reg t (nbits word 20 16)
  let a := base + w64 (ofSigned 64 (toSigned 16 (word % 2 ^ 16)))
  if 0x10 ≤ major && major ≤ 0x16 then (if bitW a 63 then 0 else 1, a)
  else if 0x18 ≤ major && major ≤ 0x1B then (if bitW a 63 then 0 else 2, a)
  else if major == 0x28 then (2, base)
  else if 0x30 ≤ major && major ≤ 0x3D && major != 0x37 && major != 0x39 then (3, base)
  else (0, 0)

/-- An instruction counts toward its engine's sampling countdown, or is the marked one (R473). The countdown starts at PERIOD less
a draw from 0 to 63, a free value (DESIGN CHOICE, log entry 78). -/
def State.sampleIssue (before after : State) (t word : Nat) : State :=
  let g := tEngine t
  let th := before.thread t
  let (cls, daddr) := before.sampleClass t word
  let want := after.fd F.PMU_SAMP_CTRL_CLASS
  if !after.fb F.PMU_SAMP_CTRL_EN || !(want == 0 || want == cls) || !nbit (after.fd F.PMU_SAMP_CTRL_PRIV) (2 - th.priv) then after else
  let m := after.dev.mon
  let put (s : State) (m : Monitors) : State := { s with dev := { s.dev with mon := m } }
  if NSet.mem m.armed g then
    put after { m with
      armed := NSet.del m.armed g
      marked := m.marked.set none g (some
        { ft := before.ft, pc := th.pc, daddr := daddr, insn := word, tid := t, priv := th.priv, holdover := before.holdover
          item := th.item.ty, xask := th.xask }) }
  else match m.counts.get none g with
    | some n => put after { m with counts := m.counts.set none g (some (n - 1)) }
    | none =>
      let (r, s1) := after.freeBelow 63
      put s1 { m with counts := m.counts.set none g (some (after.fd F.PMU_SAMP_CTRL_PERIOD - r - 1)) }

/-- Did the instruction raise an exception: was one taken, or was the thread lost by a second one? -/
def State.raised (before after : State) (t word : Nat) : Bool :=
  before.rd R.CLU_EXC_COUNT [tCluster t] != after.rd R.CLU_EXC_COUNT [tCluster t] ||
  ((before.thread t).excActive && !(after.thread t).running && word / 2 ^ 26 != 0x2B)

/-- What the monitors see of an instruction that issued (R461, R463, R473); one that is tried again later has not issued
yet. -/
def State.issued (after before : State) (t word : Nat) : State :=
  match (after.thread t).wait with
  | .xlt _ => after.setWait t (.xlt word)
  | .again _ => after.setWait t (.again word)
  | _ =>
  let g := tEngine t
  let p := (before.thread t).priv
  let s1 := if before.raised after t word || after.monFrozen then after else (after.bump R.PMU_ENG_INSTRET [g]).pmuEng g 1 p
  let s2 := match before.sampleClass t word with
    | (1, _) => s1.pmuEng g 3 p
    | (2, a) => if bitW a 63 || word / 2 ^ 26 == 0x28 then s1 else s1.pmuEng g 4 p
    | _ => s1
  before.sampleIssue s2 t word

/-- An instruction of thread t, whose word is given, comes to issue (R61, R81, R82). It does nothing while the thread is
not ready, and while another instruction of the thread waits to be tried again. A pending WATCHDOG is taken first, unless an
instruction that had to wait is tried again (R84); then the fetch; then the form of the word; then the level; then the parity
of the registers it reads; then k gives its effect. `len` is 4, or 8 for format X. -/
def State.issue (s : State) (t word len : Nat) (legal : Bool) (level : Nat) (srcs : List Nat) (k : State → State) : State :=
  if s.inSafe || 2 ≤ s.dev.power || !s.ready t then s else
  let th := s.thread t
  if th.wait.isAgain && th.wait != .again word then s else
  if th.pendWd && !th.wait.isAgain then s.takeExc t excWatchdog (w64 th.budget) th.pc else
  let (ok1, s1) := s.fetchAt t th.pc
  if !ok1 then s1 else
  let (ok2, s2) := if len = 8 then s1.fetchAt t (th.pc + 4) else (true, s1)
  if !ok2 then s2 else
  if !legal then s2.takeExc t excIllegal (w64 word) th.pc
  else if decide (th.priv < level) then s2.takeExc t excPriv (w64 word) th.pc
  else match s2.badReg t srcs with
    | some i => s2.takeExc t excParity (w64 (0x100 + i)) th.pc
    | none => (k (s2.setWait t .ready)).issued s2 t word

/-- An instruction that only computes a register: rd is written and the pc moves on. -/
def State.writeNext (s : State) (t rd len : Nat) (v : Word) : State := (s.setReg t rd v).nextPc t len

/-! ## Words (R87) -/

/-- A word of format A. -/
def wordA (major rd rs1 rs2 fn : Nat) : Nat :=
  major * 2 ^ 26 + rd % 32 * 2 ^ 21 + rs1 % 32 * 2 ^ 16 + rs2 % 32 * 2 ^ 11 + fn % 2 ^ 11
/-- A word of format I, S or B. -/
def wordI (major rd rs1 imm : Nat) : Nat := major * 2 ^ 26 + rd % 32 * 2 ^ 21 + rs1 % 32 * 2 ^ 16 + imm % 2 ^ 16
/-- A word of format J. -/
def wordJ (major rd off : Nat) : Nat := major * 2 ^ 26 + rd % 32 * 2 ^ 21 + off % 2 ^ 21

/-- A 16-bit immediate sign-extended. -/
def sext16 (imm : Nat) : Word := w64 (ofSigned 64 (toSigned 16 imm))
/-- A 32-bit value sign-extended. -/
def sext32 (v : Nat) : Word := w64 (ofSigned 64 (toSigned 32 v))

/-! ## Dispatch (R77, R78) -/

/-- Free threads of an engine; a retired engine offers none (R77, R86). -/
def State.freeThreads (s : State) (g : Nat) : List Nat :=
  if (s.engine g).retired then [] else ((List.range 4).map (4 * g + ·)).filter fun t => !(s.thread t).running

/-- Free threads of a cluster. -/
def State.clusterFree (s : State) (c : Nat) : Nat := ((List.range 8).map fun e => (s.freeThreads (8 * c + e)).length).sum

/-- The engine with the most free threads, the lowest among equals (R77). -/
def State.pickEngine (s : State) (c : Nat) : Option Nat :=
  (List.range 8).foldl (fun b e =>
    let g := 8 * c + e
    let n := (s.freeThreads g).length
    match b with
    | none => if n == 0 then none else some g
    | some h => if (s.freeThreads h).length < n then some g else b) none

/-- The FIFO to dispatch from (R77): among those that are not polled and have a head, the highest level, and among equals the one
whose turn comes first; when few threads remain, only heads for Control-level handlers count. -/
def State.pickFifo (s : State) (c : Nat) : Option Nat :=
  let tight := decide (s.clusterFree c ≤ s.fd F.CLU_CTRL_RESERVE [c])
  let head (f : Nat) : Option Item :=
    if s.wfPolled (4 * c + f) then none else
    match (s.fifo (4 * c + f)).head with
    | some it => if tight && !((s.handler c it.ty).valid && (s.handler c it.ty).priv == 2) then none else some it
    | none => none
  (s.cluster c).rr.foldl (fun b f => match b, head f with
    | none, some _ => some f
    | some g, some it => if (match head g with
        | some h => decide (h.prio < it.prio)
        | none => true) then some f else b
    | b, none => b) none

/-- CSR item of an item (Table 3-13). -/
def Item.csr (it : Item) : Word := w64 (it.prio * 2 ^ 16 + it.len * 2 ^ 8 + it.ty)

/-- A handler starts on a free thread (R78). -/
def State.startHandler (s : State) (t : Nat) (h : Handler) (it : Item) : State :=
  let th := s.thread t
  let s1 := s.mwrite (frameKey t 0) it.bytes
  s1.setThread t { Thread.init with
    running := true
    run := th.run + 1
    g := ((SMap.set (0 : Word) [] 1 (w64 (2 ^ 63 + tPlace t * 0x3000))).set 0 2 it.csr)
    pc := h.pc
    priv := h.priv
    xask := h.psk
    sscratch := th.sscratch
    item := it
    startAt := s.loc
    budget := h.budget
    sb := th.sb }

/-- DISPATCH (R77 to R79, R140). The FIFO served goes behind the others, so that one passed over keeps its place. `ecc` says what the bank's protection found in the item as it was read: 0 nothing, 1 a
corrected error, 2 an uncorrectable one. -/
def dispatch (c ecc : Nat) (s : State) : State :=
  if s.inSafe || 2 ≤ s.dev.power || !s.fb F.CLU_CTRL_DISPATCH_EN [c] || decide (s.clusterCount ≤ c) then s else
  match s.pickFifo c, s.pickEngine c with
  | some f, some g =>
    let k := 4 * c + f
    match s.wfTake k, (s.freeThreads g).head? with
    | some (it, s1), some t =>
      let s2 := (s1.setCluster c { s1.cluster c with rr := (s1.cluster c).rr.erase f ++ [f] }).pmuCluster c 0x501
      if ecc == 2 then s2.report (tsrc 0xF k) 0x32 else
      let s3 := if ecc == 1 then (s2.bump R.WF_ECC_COUNT (wfIx k)).report (tsrc 0xF k) 0x31 else s2
      let h := s3.handler c it.ty
      if h.valid then s3.startHandler t h it
      else
        let s4 := s3.setThread t { s3.thread t with item := it, ecause := 0, eval := 0, epc := h.pc }
        s4.loseThread t 3 h.pc
    | _, _ => s
  | _, _ => s

/-! ## Watchdogs (R84) -/

/-- WATCHDOG: the budget is spent; the exception is raised at the next boundary, unless one is active, and the grace
period starts. -/
def watchdog (t : Nat) (s : State) : State :=
  let th := s.thread t
  let due := w64 (th.startAt.toNat + th.budget * ticksPerUs)
  if th.running && th.budget != 0 && !th.expired && s.locReached due && !s.inSafe then
    let g := w64 (due.toNat + (s.rd R.CLU_WD_GRACE [tCluster t]).toNat * ticksPerUs)
    let s1 := s.setThread t { th with expired := true, graceEnd := some g, pendWd := !th.excActive }
    if !th.excActive && s1.ready t && !th.wait.isAgain then s1.takeExc t excWatchdog (w64 th.budget) th.pc else s1
  else s

/-- WATCHDOG_KILL: the grace period is over (R84). -/
def watchdogKill (t : Nat) (s : State) : State :=
  let th := s.thread t
  match th.graceEnd with
  | some g => if th.running && s.locReached g && !s.inSafe then s.loseThread t 2 th.epc else s
  | none => s

/-- HANDLER_LOST: the oldest buffered item goes to a FIFO that has room (R80). -/
def handlerLost (c : Nat) (s : State) : State :=
  match (s.cluster c).lost, s.wfSteered c (s.fd F.WF_STEER_LOST_FIFO [c]) with
  | it :: rest, some k =>
    if s.inSafe then s else
    match s.wfStart k true it with
    | some s1 => s1.setCluster c { s1.cluster c with lost := rest }
    | none => s
  | _, _ => s

/-! ## Retirement, the handler table and the instruction caches -/

/-- The parity errors of an engine within its window (R86). -/
def State.recentParity (s : State) (g : Nat) : Nat :=
  let w := s.fd F.CLU_RETIRE_CFG_WINDOW [g / 8] * 1000000 * ticksPerUs
  ((s.engine g).parityAt.filter fun a => decide (s.locSince a ≤ w)).length

/-- ENGINE_RETIRED: COUNT errors within WINDOW; the dispatcher starts nothing more there (R86). The last engine of a
cluster raises CLUSTER_LOST. -/
def engineRetired (g : Nat) (s : State) : State :=
  if !(s.engine g).retired && decide (s.fd F.CLU_RETIRE_CFG_COUNT [g / 8] ≤ s.recentParity g) then
    let s1 := (s.setEngine g { s.engine g with retired := true }).recordRetirement
    if (List.range 8).all fun e => (s1.engine (g / 8 * 8 + e)).retired then s1.report (tsrc 0xB (g / 8)) 0x25 else s1
  else s

/-- ENGINE_STOP: no thread of a retired engine runs any more; its clock stops, and ENGINE_RETIRED is raised (R86). -/
def engineStop (g : Nat) (s : State) : State :=
  let e := s.engine g
  if e.retired && !e.stopped && (List.range 4).all (fun i => !(s.thread (4 * g + i)).running) then
    (s.setEngine g { e with stopped := true }).report (tsrc 0xE g) 0x22
  else s

/-- HT_COMMIT: the staged entry replaces the table's as one unit, and GO clears (R76). -/
def htCommit (c : Nat) (s : State) : State :=
  if s.fb F.CLU_HT_COMMIT_GO [c] then
    let k := csmKey c (0xFF000 + s.fd F.CLU_HT_COMMIT_INDEX [c] * 16)
    (s.mwrite k (leBytes 8 (s.rd R.CLU_HT_STAGE0 [c]).toNat ++ leBytes 8 (s.rd R.CLU_HT_STAGE1 [c]).toNat)).fset
      F.CLU_HT_COMMIT_GO [c] false
  else s

/-- The instruction cache of an engine emptied. -/
def State.icacheClear (s : State) (g : Nat) : State := s.setEngine g { s.engine g with icache := [] }

/-- ICACHE_INV: the instruction caches of all eight engines are emptied, and the bit clears (Table 3-16). -/
def icacheInv (c : Nat) (s : State) : State :=
  if s.fb F.CLU_CTRL_ICACHE_INV [c] then
    ((List.range 8).foldl (fun s e => s.icacheClear (8 * c + e)) s).fset F.CLU_CTRL_ICACHE_INV [c] false
  else s

/-- CLU_STATUS (Table 3-17). -/
def State.cluStatus (s : State) (c : Nat) : Word :=
  let ret := ((List.range 8).map fun e => if (s.engine (8 * c + e)).retired then 2 ^ e else 0).sum
  let busy := ((List.range 32).filter fun n => (s.thread (32 * c + n)).running).length
  w64 (ret * 2 ^ 16 + busy * 2 ^ 8 + s.fd F.CLU_HT_COMMIT_GO [c])

/-! ## Far accesses in flight -/

/-- The value of a load as it is written: the low bytes, extended (R91). -/
def loadValue (size : Nat) (signed : Bool) (v : Nat) : Word :=
  if signed then w64 (ofSigned 64 (toSigned (8 * size) v)) else w64 (v % 2 ^ (8 * size))

/-- Does a buffered store overlap n bytes at an address? -/
def StoreEntry.overlaps (e : StoreEntry) (paddr : Nat) (hbm : Bool) (n : Nat) : Bool :=
  e.hbm == hbm && decide (e.paddr < paddr + n) && decide (paddr < e.paddr + e.data.length)

/-- Does any buffered store of a thread? -/
def sbOverlap (sb : List StoreEntry) (paddr : Nat) (hbm : Bool) (n : Nat) : Bool := sb.any (·.overlaps paddr hbm n)

/-- The buffered data that a load of n bytes at an address returns (R71): those of the newest store that it overlaps, if the load
lies within that store. -/
def sbForward (sb : List StoreEntry) (paddr : Nat) (hbm : Bool) (n : Nat) : Option (List Byte) :=
  match sb.reverse.find? (·.overlaps paddr hbm n) with
  | some e =>
    if e.paddr ≤ paddr && paddr + n ≤ e.paddr + e.data.length then some ((e.data.drop (paddr - e.paddr)).take n) else none
  | none => none

/-- FAR_LOAD_RETURN: HBM gives what it holds now; host memory gives the data that came back, unless the read failed
(R71, R91, Table 18-5). -/
def farLoadReturn (t st data : Nat) (s : State) : State :=
  let th := s.thread t
  match th.wait with
  | .farLoad ask va p hbm size signed rd =>
    if s.inSafe || !th.running then s else
    let s := if hbm then s else s.hostErr (askFunc (s.askMem ask)) st
    let got := if hbm then (if s.bad (hbmKey p) size then none else some (s.mnat (hbmKey p) size)) else if st == 0 then some data else none
    match got with
    | none => s.takeExc t excPoison (w64 va) th.pc
    | some v =>
      let s := if hbm then s else s.hostGot (askFunc (s.askMem ask)) size
      ((s.setReg t rd (loadValue size signed v)).nextPc t 4).setWait t .ready
  | _ => s

/-- What a thread that waited for its store buffer does once it is empty (R94, R96): 0 and 1 the fences, 2 `fence.i`,
3 `done`. -/
def State.drained (s : State) (t kind : Nat) : State :=
  match kind with
  | 2 => ((s.icacheClear (tEngine t)).nextPc t 4).setWait t .ready
  | 3 => s.freeThread t
  | _ => (s.nextPc t 4).setWait t .ready

/-- FAR_STORE_PERFORM: entry i of the store buffer is performed: written to HBM, or issued as a posted write; not before
an older store to the same bytes (R71). A host write that an adapter halt or a function that cannot master forbids is
discarded (R192, R438). -/
def farStorePerform (t i : Nat) (s : State) : State :=
  let th := s.thread t
  match th.sb[i]? with
  | none => s
  | some e =>
    if s.inSafe || sbOverlap (th.sb.take i) e.paddr e.hbm e.data.length then s else
    let s1 := s.setThread t { th with sb := th.sb.eraseIdx i }
    let s2 := if e.hbm then s1.mwrite (hbmKey e.paddr) e.data
      else
        let f := askFunc (s.askMem e.ask)
        match s.reqBar f with
        | .none => s1.hostWrite f e.paddr e.data
        | .halted => s1
        | .noMaster => s1.notIssued
    match th.wait with
    | .drain kind => if (s2.thread t).sb.isEmpty then s2.drained t kind else s2
    | _ => s2

/-- ICACHE_FILL: the missing line returns (R62), or its read fails; beyond 512 lines one leaves, which one is free (log
entry 15). -/
def icacheFill (t st : Nat) (s : State) : State :=
  let th := s.thread t
  match th.wait with
  | .fetch h line va =>
    if s.inSafe || !th.running then s else
    let f := askFunc (s.askMem th.xask)
    let s := if h == 1 then s else s.hostErr f st
    if (if h == 1 then s.bad (hbmKey (line * 64)) 64 else st != 0 || s.reqBar f != .none) then s.takeExc t excPoison va th.pc else
    let g := tEngine t
    let e := s.engine g
    let s1 := if e.icache.length < 512 then s.setEngine g { e with icache := (h, line) :: e.icache }
      else
        let (i, s') := s.freeBelow 511
        s'.setEngine g { e with icache := (h, line) :: e.icache.eraseIdx i }
    s1.setWait t .ready
  | _ => s

/-! ## The commands -/

/-- DISPATCH (R77). -/
def execDispatch (c ecc : Nat) (s : State) : Host.Outcome State Fault Refusal := .next (dispatch c ecc s)
/-- FAR_LOAD_RETURN (R71). -/
def execFarLoadReturn (t st data : Nat) (s : State) : Host.Outcome State Fault Refusal :=
  .next (farLoadReturn t st data s)
/-- FAR_STORE_PERFORM (R71). -/
def execFarStorePerform (t i : Nat) (s : State) : Host.Outcome State Fault Refusal := .next (farStorePerform t i s)
/-- ICACHE_FILL (R62). -/
def execIcacheFill (t st : Nat) (s : State) : Host.Outcome State Fault Refusal := .next (icacheFill t st s)
/-- WATCHDOG (R84). -/
def execWatchdog (t : Nat) (s : State) : Host.Outcome State Fault Refusal := .next (watchdog t s)
/-- WATCHDOG_KILL (R84). -/
def execWatchdogKill (t : Nat) (s : State) : Host.Outcome State Fault Refusal := .next (watchdogKill t s)
/-- HANDLER_LOST (R79). -/
def execHandlerLost (c : Nat) (s : State) : Host.Outcome State Fault Refusal := .next (handlerLost c s)
/-- ENGINE_RETIRED (R86). -/
def execEngineRetired (g : Nat) (s : State) : Host.Outcome State Fault Refusal := .next (engineRetired g s)
/-- ENGINE_STOP (R86). -/
def execEngineStop (g : Nat) (s : State) : Host.Outcome State Fault Refusal := .next (engineStop g s)
/-- HT_COMMIT (R76). -/
def execHtCommit (c : Nat) (s : State) : Host.Outcome State Fault Refusal := .next (s.live (htCommit c))
/-- ICACHE_INV (R97). -/
def execIcacheInv (c : Nat) (s : State) : Host.Outcome State Fault Refusal := .next (s.live (icacheInv c))

end Sys2Proof.Machine
end

