-- ==== Sys2Proof/Machine/Alu.lean ====
section
/-! DEFINITION. Machine/Alu.lean: the integer, multiply, divide and immediate instructions (R88 to R90). -/
namespace Sys2Proof.Machine

/-- The low 32 bits of a word. -/
def lo32 (w : Word) : Nat := w.toNat % 2 ^ 32
/-- A word as a signed number. -/
def sgn (w : Word) : Int := w.toInt
/-- An integer as a word, modulo 2^64. -/
def wInt (i : Int) : Word := BitVec.ofInt 64 i

/-- The number of set bits among the low n. -/
def popcount (n v : Nat) : Nat := ((List.range n).filter v.testBit).length
/-- Leading zeros among n bits; n for zero. -/
def leadingZeros (n v : Nat) : Nat := ((List.range n).find? fun i => v.testBit (n - 1 - i)).getD n
/-- Trailing zeros among n bits; n for zero. -/
def trailingZeros (n v : Nat) : Nat := ((List.range n).find? fun i => v.testBit i).getD n

/-- The 64-bit register operations (Table 3-9); none for a reserved function. -/
def alu64 (fn : Nat) (a b : Word) : Option Word :=
  match fn with
  | 0x00 => some (a + b)
  | 0x01 => some (a - b)
  | 0x02 => some (a &&& b)
  | 0x03 => some (a ||| b)
  | 0x04 => some (a ^^^ b)
  | 0x05 => some (a <<< (b.toNat % 64))
  | 0x06 => some (a >>> (b.toNat % 64))
  | 0x07 => some (a.sshiftRight (b.toNat % 64))
  | 0x08 => some (if sgn a < sgn b then 1 else 0)
  | 0x09 => some (if a.toNat < b.toNat then 1 else 0)
  | 0x0A => some (if sgn a < sgn b then a else b)
  | 0x0B => some (if sgn a < sgn b then b else a)
  | 0x0C => some (if a.toNat < b.toNat then a else b)
  | 0x0D => some (if a.toNat < b.toNat then b else a)
  | 0x0E => some (w64 (leadingZeros 64 a.toNat))
  | 0x0F => some (w64 (trailingZeros 64 a.toNat))
  | 0x10 => some (w64 (popcount 64 a.toNat))
  | 0x11 => some (a &&& ~~~b)
  | 0x12 => some (w64 (leNat (beBytes 8 a.toNat)))
  | _ => none

/-- The 32-bit register operations (R88); none where W is not permitted. -/
def alu32 (fn : Nat) (a b : Word) : Option Word :=
  let x := lo32 a
  let y := lo32 b
  match fn with
  | 0x00 => some (sext32 (x + y))
  | 0x01 => some (sext32 (x + 2 ^ 32 - y))
  | 0x05 => some (sext32 (x * 2 ^ (y % 32)))
  | 0x06 => some (sext32 (x / 2 ^ (y % 32)))
  | 0x07 => some (wInt (toSigned 32 x / (2 ^ (y % 32) : Nat)))
  | 0x0E => some (w64 (leadingZeros 32 x))
  | 0x0F => some (w64 (trailingZeros 32 x))
  | 0x10 => some (w64 (popcount 32 x))
  | _ => none

/-- A register operation by its fn field, with the rs2 register number for the check of its reserved use (R88). -/
def aluOp (fn rs2 : Nat) (a b : Word) : Option Word :=
  let op := fn % 64
  if nbits fn 9 6 != 0 then none
  else if (op == 0x0E || op == 0x0F || op == 0x10 || op == 0x12) && rs2 % 32 != 0 then none
  else if nbit fn 10 then alu32 op a b else alu64 op a b

/-- ALU_REG (R88). -/
def aluReg (t rd rs1 rs2 fn : Nat) (s : State) : State :=
  let r := aluOp fn rs2 (s.reg t (rs1 % 32)) (s.reg t (rs2 % 32))
  s.issue t (wordA 1 rd rs1 rs2 fn) 4 r.isSome 0 [rs1 % 32, rs2 % 32] fun s => s.writeNext t (rd % 32) 4 (r.getD 0)

/-- Quotient and remainder of numbers as R89 gives them for n bits: no division raises an exception. -/
def divideS (n : Nat) (a b : Int) : Int × Int :=
  if b = 0 then (-1, a) else if a = -(2 ^ (n - 1) : Nat) ∧ b = -1 then (a, 0) else (a.tdiv b, a.tmod b)
/-- The unsigned quotient and remainder. -/
def divideU (n a b : Nat) : Nat × Nat := if b = 0 then (2 ^ n - 1, a) else (a / b, a % b)

/-- The multiply and divide operations (Table 3-10) on n-bit operands, as a number modulo 2^n; none for a reserved
function. -/
def mulDivOp (n fn a b : Nat) : Option Nat :=
  let x := toSigned n a
  let y := toSigned n b
  match fn with
  | 0 => some (a * b % 2 ^ n)
  | 1 => some (ofSigned n (x * y / (2 ^ n : Nat)))
  | 2 => some (a * b / 2 ^ n)
  | 4 => some (ofSigned n (divideS n x y).1)
  | 5 => some (divideU n a b).1
  | 6 => some (ofSigned n (divideS n x y).2)
  | 7 => some (divideU n a b).2
  | _ => none

/-- MUL_DIV (R89). With W the low 32 bits are the 32-bit result; the manual does not say what the upper half holds, so it
is a free value (DESIGN CHOICE, log entry 17). -/
def mulDiv (t rd rs1 rs2 fn : Nat) (s : State) : State :=
  let op := fn % 8
  let w := nbit fn 10
  let a := s.reg t (rs1 % 32)
  let b := s.reg t (rs2 % 32)
  let r := if nbits fn 9 3 != 0 || (w && (op == 1 || op == 2)) then none
    else if w then mulDivOp 32 op (lo32 a) (lo32 b) else mulDivOp 64 op a.toNat b.toNat
  s.issue t (wordA 3 rd rs1 rs2 fn) 4 r.isSome 0 [rs1 % 32, rs2 % 32] fun s =>
    if w then
      let (f, s1) := s.freeWord
      s1.writeNext t (rd % 32) 4 (putW f 31 0 (r.getD 0))
    else s.writeNext t (rd % 32) 4 (w64 (r.getD 0))

/-- The shift immediates (Table 3-11): kind in [7:6], W in [8]; none for a reserved form. -/
def shiftImm (imm : Nat) (a : Word) : Option Word :=
  let kind := nbits imm 7 6
  let w := nbit imm 8
  let amt := imm % 64
  if nbits imm 15 9 != 0 || kind == 3 || (w && nbit imm 5) then none
  else if w then alu32 (5 + kind) a (w64 amt) else alu64 (5 + kind) a (w64 amt)

/-- `bfx` (Table 3-11). -/
def bfx (imm : Nat) (a : Word) : Option Word :=
  let pos := imm % 64
  let len := nbits imm 11 6 + 1
  if nbits imm 15 13 != 0 || decide (64 < pos + len) then none
  else
    let v := a.toNat / 2 ^ pos % 2 ^ len
    some (if nbit imm 12 then w64 (ofSigned 64 (toSigned len v)) else w64 v)

/-- The immediate operations by major (Table 3-11); imm2 is the second word of format X. -/
def immOp (op rs1 imm imm2 : Nat) (a : Word) : Option Word :=
  let z := w64 (imm % 2 ^ 16)
  let x := imm % 2 ^ 16 == 0
  match op with
  | 0x04 => some (a + sext16 imm)
  | 0x05 => some (a &&& z)
  | 0x06 => some (a ||| z)
  | 0x07 => some (a ^^^ z)
  | 0x08 => shiftImm (imm % 2 ^ 16) a
  | 0x09 => some (if sgn a < sgn (sext16 imm) then 1 else 0)
  | 0x0A => some (if a.toNat < (sext16 imm).toNat then 1 else 0)
  | 0x0B => if rs1 % 32 == 0 then some (sext32 (imm % 2 ^ 16 * 2 ^ 16)) else none
  | 0x0C => if rs1 % 32 == 0 && x then some (sext32 imm2) else none
  | 0x0D => if x then some (w64 (lo32 a + imm2 % 2 ^ 32 * 2 ^ 32)) else none
  | 0x0E => if x then some (a + sext32 imm2) else none
  | 0x0F => bfx (imm % 2 ^ 16) a
  | _ => none

/-- Is the major of format X, of two words (R90)? -/
def isFormatX (op : Nat) : Bool := op == 0x0C || op == 0x0D || op == 0x0E

/-- ALU_IMM (R90). op is the major opcode. -/
def aluImm (t op rd rs1 imm imm2 : Nat) (s : State) : State :=
  let r := immOp op rs1 imm imm2 (s.reg t (rs1 % 32))
  let len := if isFormatX op then 8 else 4
  s.issue t (wordI (op % 64) rd rs1 imm) len r.isSome 0 [rs1 % 32] fun s => s.writeNext t (rd % 32) len (r.getD 0)

/-! ## The commands -/

/-- ALU_REG (R88). -/
def execAluReg (t rd rs1 rs2 fn : Nat) (s : State) : Host.Outcome State Fault Refusal := .next (aluReg t rd rs1 rs2 fn s)
/-- MUL_DIV (R89). -/
def execMulDiv (t rd rs1 rs2 fn : Nat) (s : State) : Host.Outcome State Fault Refusal := .next (mulDiv t rd rs1 rs2 fn s)
/-- ALU_IMM (R90). -/
def execAluImm (t op rd rs1 imm imm2 : Nat) (s : State) : Host.Outcome State Fault Refusal :=
  .next (aluImm t op rd rs1 imm imm2 s)

end Sys2Proof.Machine
end

