-- ==== Sys2Proof/Machine/Float.lean ====
section
/-! DEFINITION. Machine/Float.lean: the number formats of the Amalgam units and exact arithmetic on them (R301 to R308). -/
namespace Sys2Proof.Machine

/-- A binary floating format: exponent bits, fraction bits, and whether it is E4M3, which has no infinity and one NaN. -/
structure Fmt where
  eb : Nat
  fb : Nat
  e4m3 : Bool
deriving DecidableEq, Repr

def fp64 : Fmt := ⟨11, 52, false⟩
def fp32 : Fmt := ⟨8, 23, false⟩

/-- The format of a TYPE (Table 4-15). -/
def fmtOf : Nat → Fmt
  | 8 => fp64
  | 9 => fp32
  | 10 => ⟨8, 7, false⟩
  | 11 => ⟨5, 10, false⟩
  | 12 => ⟨4, 3, true⟩
  | _ => ⟨5, 2, false⟩

/-- Bias, and the exponent of the least significant bit of a subnormal. -/
def Fmt.bias (f : Fmt) : Nat := 2 ^ (f.eb - 1) - 1
def Fmt.emin (f : Fmt) : Int := 1 - (f.bias : Int) - f.fb
/-- The weight of the sign bit. -/
def Fmt.top (f : Fmt) : Nat := 2 ^ (f.eb + f.fb)

/-- A value: NaN, an infinity, or (−1)^neg × m × 2^e exactly. -/
inductive Fv
  | nan
  | inf (neg : Bool)
  | fin (neg : Bool) (m : Nat) (e : Int)
deriving DecidableEq, Repr

/-- The value of an encoding. -/
def Fmt.decode (f : Fmt) (bits : Nat) : Fv :=
  let neg := nbit bits (f.eb + f.fb)
  let ex := nbits bits (f.eb + f.fb - 1) f.fb
  let fr := bits % 2 ^ f.fb
  if ex == 2 ^ f.eb - 1 && (!f.e4m3 || fr == 2 ^ f.fb - 1) then
    if f.e4m3 || fr != 0 then .nan else .inf neg
  else if ex == 0 then .fin neg fr f.emin
  else .fin neg (2 ^ f.fb + fr) (f.emin + ex - 1)

/-- m × 2^e as a whole number, rounded to nearest with ties to even. -/
def roundInt (m : Nat) (e : Int) : Nat :=
  if 0 ≤ e then m * 2 ^ e.toNat
  else
    let d := 2 ^ (-e).toNat
    let q := m / d
    let r := m % d
    if d < 2 * r || (2 * r == d && q % 2 == 1) then q + 1 else q

/-- The canonical NaN, and a result beyond the largest finite value (Table 12-7). -/
def Fmt.nanBits (f : Fmt) : Nat :=
  if f.e4m3 then 0x7F else (2 ^ f.eb - 1) * 2 ^ f.fb + 2 ^ (f.fb - 1)
def Fmt.beyond (f : Fmt) (neg : Bool) : Nat :=
  b2n neg * f.top + if f.e4m3 then 0x7F else (2 ^ f.eb - 1) * 2 ^ f.fb

/-- A value rounded once to a format, to nearest with ties to even, subnormals kept (R301, R302). -/
def Fmt.encode (f : Fmt) (v : Fv) : Nat :=
  match v with
  | .nan => f.nanBits
  | .inf neg => f.beyond neg
  | .fin neg m e =>
    if m == 0 then b2n neg * f.top else
    let q := max f.emin ((Nat.log2 m : Int) + e - f.fb)
    let r := roundInt m (e - q)
    let (r, q) := if 2 ^ (f.fb + 1) ≤ r then (r / 2, q + 1) else (r, q)
    let bits := if r < 2 ^ f.fb then r else (q - f.emin + 1).toNat * 2 ^ f.fb + (r - 2 ^ f.fb)
    if f.beyond false ≤ bits then f.beyond neg else b2n neg * f.top + bits

/-- The exact signed numerators of two values over their smaller exponent. -/
def align (n1 : Bool) (m1 : Nat) (e1 : Int) (n2 : Bool) (m2 : Nat) (e2 : Int) : Int × Int × Int :=
  let e := min e1 e2
  let sgn (n : Bool) (m : Nat) (x : Int) : Int :=
    let v : Int := ((m * 2 ^ (x - e).toNat : Nat) : Int)
    if n then -v else v
  (sgn n1 m1 e1, sgn n2 m2 e2, e)

/-- The exact sum; opposite infinities give NaN, and a zero sum is −0 only when both addends are negative (R302). -/
def Fv.add : Fv → Fv → Fv
  | .nan, _ => .nan
  | _, .nan => .nan
  | .inf a, .inf b => if a == b then .inf a else .nan
  | .inf a, _ => .inf a
  | _, .inf b => .inf b
  | .fin n1 m1 e1, .fin n2 m2 e2 =>
    let (a, b, e) := align n1 m1 e1 n2 m2 e2
    let t := a + b
    if t == 0 then .fin (n1 && n2) 0 e else .fin (decide (t < 0)) t.natAbs e

/-- Is the first value below the second? −0 is below +0. -/
def Fv.below : Fv → Fv → Bool
  | .inf a, .inf b => a && !b
  | .inf a, _ => a
  | _, .inf b => !b
  | .fin n1 m1 e1, .fin n2 m2 e2 =>
    let (a, b, _) := align n1 m1 e1 n2 m2 e2
    decide (a < b) || (a == b && n1 && !n2)
  | _, _ => false

/-- IEEE 754-2019 minimum and maximum (Table 12-6). -/
def Fv.min (x y : Fv) : Fv :=
  match x, y with
  | .nan, _ => .nan
  | _, .nan => .nan
  | x, y => if y.below x then y else x
def Fv.max (x y : Fv) : Fv :=
  match x, y with
  | .nan, _ => .nan
  | _, .nan => .nan
  | x, y => if x.below y then y else x

/-- floor(log2 |x|) of a finite value other than zero (R308). -/
def Fv.exponent : Fv → Option Int
  | .fin _ m e => if m == 0 then none else some ((Nat.log2 m : Int) + e)
  | _ => none

/-! ## Partials (R303 to R307) -/

/-- POISON of a width: only the sign bit set. -/
def poisonOf (w : Nat) : Nat := 2 ^ (w - 1)

/-- F of a width (Table 12-8). -/
def fracOf (w : Nat) : Nat := if w == 192 then 160 else 64

/-- A native operand as a partial at anchor a: its bits, or POISON when it is out of range (R305). -/
def toPartial (w : Nat) (a : Int) (v : Fv) : Nat :=
  match v with
  | .fin neg m e =>
    let inside := m == 0 || (decide (e ≤ a) && decide (m < 2 ^ (a - e).toNat))
    if !inside then poisonOf w
    else
      let p := roundInt m (e + fracOf w - a)
      if neg then ofSigned w (-(p : Int)) else p
  | _ => poisonOf w

/-- Two partials added (R306). -/
def addPartial (w x y : Nat) : Nat :=
  if x == poisonOf w || y == poisonOf w then poisonOf w else
  let t := toSigned w x + toSigned w y
  if t ≤ -(poisonOf w : Int) || (poisonOf w : Int) ≤ t then poisonOf w else ofSigned w t

/-- A partial rounded once to a format: zero is +0, POISON the canonical NaN (R307). -/
def finalPartial (f : Fmt) (w : Nat) (a : Int) (x : Nat) : Nat :=
  if x == poisonOf w then f.nanBits
  else
    let t := toSigned w x
    let bits := f.encode (.fin (decide (t < 0)) t.natAbs (a - fracOf w))
    if bits % f.top == 0 then 0 else bits

end Sys2Proof.Machine
end

