-- ==== Sys2Proof/Machine/Control.lean ====
section
/-! DEFINITION. Machine/Control.lean: branches and jumps, fences, CSR access and the system instructions (R92, R94 to R96). -/
namespace Sys2Proof.Machine

/-- The program counter set. -/
def State.setPc (s : State) (t : Nat) (v : Word) : State := s.setThread t { s.thread t with pc := v }

/-! ## Branches and jumps (R92) -/

/-- The comparison of a branch by its major; none for another major. -/
def branchTest (op : Nat) (a b : Word) : Option Bool :=
  match op with
  | 0x20 => some (a == b)
  | 0x21 => some (a != b)
  | 0x22 => some (decide (sgn a < sgn b))
  | 0x23 => some (decide (sgn b ≤ sgn a))
  | 0x24 => some (decide (a.toNat < b.toNat))
  | 0x25 => some (decide (b.toNat ≤ a.toNat))
  | _ => none

/-- BRANCH (R92). -/
def branch (t op ra rb imm : Nat) (s : State) : State :=
  let r := branchTest op (s.reg t (ra % 32)) (s.reg t (rb % 32))
  s.issue t (wordI (op % 64) ra rb imm) 4 r.isSome 0 [ra % 32, rb % 32] fun s =>
    if r == some true then s.setPc t ((s.thread t).pc + sext16 imm * 4) else s.nextPc t 4

/-- JAL (R92). A target that cannot be fetched raises FETCH_FAULT when it is fetched, with epc the target. -/
def jal (t rd imm : Nat) (s : State) : State :=
  s.issue t (wordJ 0x26 rd imm) 4 true 0 [] fun s =>
    let pc := (s.thread t).pc
    (s.setReg t (rd % 32) (pc + 4)).setPc t (pc + wInt (toSigned 21 imm * 4))

/-- JALR (R92). -/
def jalr (t rd rs1 imm : Nat) (s : State) : State :=
  s.issue t (wordI 0x27 rd rs1 imm) 4 true 0 [] fun s =>
    let pc := (s.thread t).pc
    let a := s.reg t (rs1 % 32) + sext16 imm
    if a.toNat % 4 != 0 then s.takeExc t excMisaligned a pc
    else if NSet.mem (s.thread t).badRegs (rs1 % 32) then s.takeExc t excParity (w64 (0x100 + rs1 % 32)) pc
    else (s.setReg t (rd % 32) (pc + 4)).setPc t a

/-! ## Fences (R94, Table 3-2) -/

/-- A fence waits until the thread's store buffer is empty: near and control-space accesses are performed as they issue,
and a far load blocks its thread, so buffered far stores are all that a fence waits for. Its register fields and fn[10:2] are
reserved, and so is fn[1:0] = 3 (R94). -/
def fenceOp (kind t rd rs1 rs2 fn : Nat) (s : State) : State :=
  s.issue t (wordA 0x29 rd rs1 rs2 (fn / 4 * 4 + kind)) 4 (rd % 32 == 0 && rs1 % 32 == 0 && rs2 % 32 == 0 && nbits fn 10 2 == 0 && kind != 3)
    0 [] fun s => if (s.thread t).sb.isEmpty then s.drained t kind else s.setWait t (.drain kind)

/-- FENCE; the reserved kind, with fn[1:0] = 3, is a word of this command too. -/
def fence (t rd rs1 rs2 fn : Nat) (s : State) : State := fenceOp (if fn % 4 == 3 then 3 else 0) t rd rs1 rs2 fn s
/-- FENCE_ST. -/
def fenceSt (t rd rs1 rs2 fn : Nat) (s : State) : State := fenceOp 1 t rd rs1 rs2 fn s
/-- FENCE_I. -/
def fenceI (t rd rs1 rs2 fn : Nat) (s : State) : State := fenceOp 2 t rd rs1 rs2 fn s

/-! ## CSRs (R95, Table 3-13) -/

/-- The remaining watchdog budget in µs (Table 3-13). -/
def State.wdLeft (s : State) (th : Thread) : Nat :=
  if th.budget == 0 then 0xFFFF else (th.budget * ticksPerUs - s.locSince th.startAt) / ticksPerUs

/-- The value of a CSR; none for an undefined number. -/
def State.csrGet (s : State) (t csr : Nat) : Option Word :=
  let th := s.thread t
  let g := tEngine t
  match csr with
  | 0x000 => some (w64 t)
  | 0x001 => some (w64 th.priv)
  | 0x002 => some th.item.csr
  | 0x010 => some (s.rd R.PMU_ENG_CYCLE [g])
  | 0x011 => some (s.rd R.PMU_ENG_INSTRET [g])
  | 0x012 => some (s.rd R.PMU_ENG_PMC [g, 0])
  | 0x013 => some (s.rd R.PMU_ENG_PMC [g, 1])
  | 0x014 => some (s.rd R.PMU_ENG_PMC [g, 2])
  | 0x015 => some (s.rd R.PMU_ENG_PMC [g, 3])
  | 0x400 => some (w64 th.xask)
  | 0x401 => some th.epc
  | 0x402 => some (w64 th.ecause)
  | 0x403 => some th.eval
  | 0x404 => some (w64 (b2n th.excActive * 256 + th.prev))
  | 0x405 => some (w64 th.exask)
  | 0x406 => some (w64 (s.wdLeft th))
  | 0x408 => some (th.sscratch.get 0 0)
  | 0x409 => some (th.sscratch.get 0 1)
  | 0x40A => some (th.sscratch.get 0 2)
  | 0x40B => some (th.sscratch.get 0 3)
  | _ => none

/-- May the CSR be written (Table 3-13)? -/
def csrWritable (csr : Nat) : Bool :=
  (decide (0x400 ≤ csr) && decide (csr ≤ 0x405)) || (decide (0x408 ≤ csr) && decide (csr ≤ 0x40B))

/-- A CSR written; EXC_ACTIVE is read only. -/
def State.csrSet (s : State) (t csr : Nat) (v : Word) : State :=
  let th := s.thread t
  match csr with
  | 0x400 => s.setThread t { th with xask := v.toNat % 2 ^ 20 }
  | 0x401 => s.setThread t { th with epc := v }
  | 0x402 => s.setThread t { th with ecause := v.toNat % 16 }
  | 0x403 => s.setThread t { th with eval := v }
  | 0x404 => s.setThread t { th with prev := v.toNat % 4 }
  | 0x405 => s.setThread t { th with exask := v.toNat % 2 ^ 20 }
  | 0x408 => s.setThread t { th with sscratch := th.sscratch.set 0 0 v }
  | 0x409 => s.setThread t { th with sscratch := th.sscratch.set 0 1 v }
  | 0x40A => s.setThread t { th with sscratch := th.sscratch.set 0 2 v }
  | 0x40B => s.setThread t { th with sscratch := th.sscratch.set 0 3 v }
  | _ => s

/-- The level that a CSR needs (R95). -/
def csrLevel (csr : Nat) : Nat := if csr < 0x400 then 0 else if csr < 0x800 then 1 else 2

/-- May a User-level thread read the counter CSR (PMU_USER_READ)? -/
def State.csrUserOk (s : State) (t csr : Nat) : Bool :=
  !((s.thread t).priv == 0 && decide (0x010 ≤ csr) && decide (csr ≤ 0x015)) ||
    nbit (s.fd F.PMU_USER_READ_CSRS) (csr - 0x010)

/-- A CSR instruction (R95): kind 0 `csrr`, 1 `csrw`, 2 `csrs`, 3 `csrc`. A write to a read-only CSR, an undefined CSR,
a non-zero rs1 field of `csrr` and another kind are ILLEGAL_INSN. -/
def csrOp (kind t rd rs1 csr : Nat) (s : State) : State :=
  let n := csr % 4096
  let writes := kind == 1 || (kind != 0 && rs1 % 32 != 0)
  let word := wordI 0x2A rd rs1 (kind * 4096 + n)
  let legal := decide (kind < 4) && (s.csrGet t n).isSome && !(kind == 0 && rs1 % 32 != 0) && (!writes || csrWritable n)
  s.issue t word 4 legal (csrLevel n) (if writes then [rs1 % 32] else []) fun s =>
    if !s.csrUserOk t n then s.takeExc t excPriv (w64 word) (s.thread t).pc else
    let old := (s.csrGet t n).getD 0
    let r := s.reg t (rs1 % 32)
    let new := match kind with
      | 1 => r
      | 2 => old ||| r
      | _ => old &&& ~~~r
    let s1 := if writes then s.csrSet t n new else s
    s1.writeNext t (rd % 32) 4 old

/-- CSRR; the reserved kinds 4 to 15 are words of this command too. -/
def csrr (t rd rs1 csr kind : Nat) (s : State) : State := csrOp (if kind % 16 < 4 then 0 else kind % 16) t rd rs1 csr s
/-- CSRW. -/
def csrw (t rd rs1 csr : Nat) (s : State) : State := csrOp 1 t rd rs1 csr s
/-- CSRS. -/
def csrs (t rd rs1 csr : Nat) (s : State) : State := csrOp 2 t rd rs1 csr s
/-- CSRC. -/
def csrc (t rd rs1 csr : Nat) (s : State) : State := csrOp 3 t rd rs1 csr s

/-! ## System instructions (R96) -/

/-- A system instruction comes to issue: its rd and rs1 fields are reserved. The argument of `done` and `eret`, which use none, is
not checked (DEDUCED, log entry 142). -/
def State.sysIssue (s : State) (t kind rd rs1 arg : Nat) (legal : Bool) (level : Nat) (k : State → State) : State :=
  s.issue t (wordI 0x2B rd rs1 (kind * 256 + arg % 256)) 4 (rd % 32 == 0 && rs1 % 32 == 0 && legal) level [] k

/-- DONE: once every far store is performed, the thread is free and its watchdog stops. -/
def done (t rd rs1 arg : Nat) (s : State) : State :=
  s.sysIssue t 0 rd rs1 arg true 0 fun s =>
    if (s.thread t).sb.isEmpty then s.drained t 3 else s.setWait t (.drain 3)

/-- SYS raises SYSCALL with its argument. -/
def sys (t rd rs1 imm : Nat) (s : State) : State :=
  s.sysIssue t 1 rd rs1 imm true 0 fun s => s.takeExc t excSyscall (w64 (imm % 256)) ((s.thread t).pc + 4)

/-- BRK raises BREAK with its argument. -/
def brk (t rd rs1 imm : Nat) (s : State) : State :=
  s.sysIssue t 3 rd rs1 imm true 0 fun s => s.takeExc t excBreak (w64 (imm % 256)) ((s.thread t).pc + 4)

/-- ERET (R83): pc, level and xask come back from the exception state. A PREV of 3 names no level; the level then is a
free value (DESIGN CHOICE, log entry 17). An epc that is not a multiple of 4 becomes the pc as it stands (DESIGN CHOICE, log
entry 141). -/
def eret (t rd rs1 arg : Nat) (s : State) : State :=
  s.sysIssue t 2 rd rs1 arg (s.thread t).excActive 1 fun s =>
    let th := s.thread t
    if th.prev = 3 then
      let (p, s1) := s.freeBelow 2
      s1.setThread t { th with pc := th.epc, priv := p, xask := th.exask, excActive := false }
    else s.setThread t { th with pc := th.epc, priv := th.prev, xask := th.exask, excActive := false }

/-- PAUSE: the thread is not ready for n cycles of 2.5 ticks; n = 0 is ILLEGAL_INSN. The reserved kinds from 5 on are words of this
command too. -/
def pause (t rd rs1 imm kind : Nat) (s : State) : State :=
  let n := imm % 256
  s.sysIssue t (max 4 (kind % 256)) rd rs1 n (n != 0 && decide (kind % 256 ≤ 4)) 0 fun s => (s.nextPc t 4).setWait t (.pause (s.locIn ((5 * n + 1) / 2)))

/-! ## The commands -/

/-- BRANCH (R92). -/
def execBranch (t op ra rb imm : Nat) (s : State) : Host.Outcome State Fault Refusal := .next (branch t op ra rb imm s)
/-- JAL (R92). -/
def execJal (t rd imm : Nat) (s : State) : Host.Outcome State Fault Refusal := .next (jal t rd imm s)
/-- JALR (R92). -/
def execJalr (t rd rs1 imm : Nat) (s : State) : Host.Outcome State Fault Refusal := .next (jalr t rd rs1 imm s)
/-- FENCE (R94). -/
def execFence (x : IssueFence) (s : State) : Host.Outcome State Fault Refusal := .next (fence x.t x.rd x.rs1 x.rs2 x.fn s)
/-- FENCE_ST (R94). -/
def execFenceSt (x : IssueFence) (s : State) : Host.Outcome State Fault Refusal := .next (fenceSt x.t x.rd x.rs1 x.rs2 x.fn s)
/-- FENCE_I (R94). -/
def execFenceI (x : IssueFence) (s : State) : Host.Outcome State Fault Refusal := .next (fenceI x.t x.rd x.rs1 x.rs2 x.fn s)
/-- CSRR (R95). -/
def execCsrr (x : IssueCsrr) (rd csr : Nat) (s : State) : Host.Outcome State Fault Refusal := .next (csrr x.t rd x.rs1 csr x.kind s)
/-- CSRW (R95). -/
def execCsrw (t rd rs1 csr : Nat) (s : State) : Host.Outcome State Fault Refusal := .next (csrw t rd rs1 csr s)
/-- CSRS (R95). -/
def execCsrs (t rd rs1 csr : Nat) (s : State) : Host.Outcome State Fault Refusal := .next (csrs t rd rs1 csr s)
/-- CSRC (R95). -/
def execCsrc (t rd rs1 csr : Nat) (s : State) : Host.Outcome State Fault Refusal := .next (csrc t rd rs1 csr s)
/-- DONE (R96). -/
def execDone (x : IssueSys) (s : State) : Host.Outcome State Fault Refusal := .next (done x.t x.rd x.rs1 x.low s)
/-- SYS (R96). -/
def execSys (x : IssueImm) (imm : Nat) (s : State) : Host.Outcome State Fault Refusal := .next (sys x.t x.rd x.rs1 imm s)
/-- ERET (R96). -/
def execEret (x : IssueSys) (s : State) : Host.Outcome State Fault Refusal := .next (eret x.t x.rd x.rs1 x.low s)
/-- BRK (R96). -/
def execBrk (x : IssueImm) (imm : Nat) (s : State) : Host.Outcome State Fault Refusal := .next (brk x.t x.rd x.rs1 imm s)
/-- PAUSE (R96). -/
def execPause (x : IssuePause) (imm : Nat) (s : State) : Host.Outcome State Fault Refusal := .next (pause x.t x.rd x.rs1 imm x.kind s)

end Sys2Proof.Machine
end

