-- ==== Sys2Proof/Machine/Packet.lean ====
section
/-! DEFINITION. Machine/Packet.lean: packets as bytes on the wire: header, extension, payload, trailer, their check value and
their cells (R216, R365, R366, R346). -/
namespace Sys2Proof

/-! ## Header and extension -/

/-- Reserved bits of the header and the trailer as received: byte 3, the length, the two DN words, and the trailer's first
word. -/
def Packet.resv3 (p : Packet) : Nat := nbits p.resv 57 55
def Packet.resvLen (p : Packet) : Nat := nbits p.resv 54 52
def Packet.resvDst (p : Packet) : Nat := nbits p.resv 51 47
def Packet.resvSrc (p : Packet) : Nat := nbits p.resv 46 32
def Packet.resvTail (p : Packet) : Nat := nbits p.resv 31 0

/-- The base header (Table 15-6). -/
def Packet.header (p : Packet) : List Byte :=
  beBytes 1 p.op ++
  beBytes 1 (b2n p.ext * 128 + b2n p.rlx * 64 + b2n p.sealed * 32 + b2n p.imm * 16 + b2n p.red * 8 + b2n p.void * 4 +
    b2n p.holdover * 2 + b2n p.msg) ++
  beBytes 1 (p.hc % 8 * 32 + p.tc % 8 * 4 + b2n p.ldet * 2 + b2n p.gdet) ++
  beBytes 1 (p.epoch % 2 * 128 + p.resv3 * 16 + p.chan % 16) ++
  beBytes 2 (p.resvLen * 2 ^ 13 + p.payload.length % 2 ^ 13) ++ beBytes 2 p.iso ++
  beBytes 4 (p.resvDst * 2 ^ 27 + p.dstDn % 2 ^ 17 * 2 ^ 10 + p.dstFunc % 2 ^ 10) ++
  beBytes 4 (p.resvSrc * 2 ^ 17 + p.srcDn % 2 ^ 17) ++ beBytes 3 p.dstEp ++ beBytes 3 p.srcEp ++ beBytes 6 p.stamp ++
  beBytes 4 p.seq.toNat

/-- The remote-access extension (Tables 8-11, 8-13). -/
def Packet.extension (p : Packet) : List Byte :=
  if !p.ext then []
  else if p.msg then beBytes 8 p.va ++ beBytes 2 (p.key / 2 ^ 16) ++ beBytes 2 (p.key % 2 ^ 16) ++ beBytes 4 p.aux
  else beBytes 4 p.key ++ beBytes 8 p.va ++ beBytes 4 p.aux

/-- ECRC as it must be (R366). -/
def Packet.ecrcOf (p : Packet) : Nat :=
  crc32 polyCrc32c ({ p with hc := 0, ldet := false, gdet := false }.header ++ p.extension ++ p.payload)

/-- The whole packet as carried. -/
def Packet.bytes (p : Packet) : List Byte :=
  p.header ++ p.extension ++ p.payload ++ beBytes 4 p.resvTail ++ beBytes 4 p.ecrc

/-- Bytes as carried, and cells: one for each 256 bytes (R346). -/
def Packet.size (p : Packet) : Nat := 40 + (if p.ext then 16 else 0) + p.payload.length
def Packet.cells (p : Packet) : Nat := (p.size + 255) / 256

/-- A packet from its bytes: the header says how much of them is extension, payload and trailer. -/
def packetOf (bs : List Byte) : Packet :=
  let n (i k : Nat) : Nat := beNat (byteSlice bs i k)
  let f := n 1 1
  let h := n 2 1
  let ext := nbit f 7
  let msg := nbit f 0
  let len := n 4 2 % 2 ^ 13
  let pay := if ext then 48 else 32
  let resv := nbits (n 3 1) 6 4 * 2 ^ 55 + nbits (n 4 2) 15 13 * 2 ^ 52 + nbits (n 8 4) 31 27 * 2 ^ 47 +
    nbits (n 12 4) 31 17 * 2 ^ 32 + n (pay + len) 4
  { op := n 0 1, ext := ext, rlx := nbit f 6, sealed := nbit f 5, imm := nbit f 4, red := nbit f 3, void := nbit f 2,
    holdover := nbit f 1, msg := msg, hc := nbits h 7 5, tc := nbits h 4 2, ldet := nbit h 1, gdet := nbit h 0,
    epoch := nbits (n 3 1) 7 7, chan := n 3 1 % 16, iso := n 6 2, dstDn := nbits (n 8 4) 26 10, dstFunc := n 8 4 % 2 ^ 10,
    srcDn := n 12 4 % 2 ^ 17, dstEp := n 16 3, srcEp := n 19 3, stamp := n 22 6, seq := BitVec.ofNat 32 (n 28 4),
    key := if !ext then 0 else if msg then n 40 4 else n 32 4
    va := if !ext then 0 else if msg then n 32 8 else n 36 8
    aux := if ext then n 44 4 else 0
    payload := byteSlice bs pay len, resv := resv, ecrc := n (pay + len + 4) 4 }

/-! ## Opcodes (Table 15-7) -/

def opPut : Nat := 0x01
def opGetReq : Nat := 0x02
def opGetResp : Nat := 0x03
def opAmoReq : Nat := 0x04
def opAmoResp : Nat := 0x05
def opSend : Nat := 0x06
def opFlush : Nat := 0x07
def opMcast : Nat := 0x08
def opAck : Nat := 0x10

/-- Do EXT and LEN agree with the opcode, and is the opcode not reserved (R367, Table 15-7)? -/
def Packet.headOk (p : Packet) : Bool :=
  let n := p.payload.length
  match p.op with
  | 0x01 | 0x03 | 0x06 | 0x08 => p.ext && decide (n ≤ 4096)
  | 0x02 => p.ext && n == 0
  | 0x04 => p.ext && n == 16
  | 0x05 => p.ext && n == 8
  | 0x07 => !p.ext && n == 0
  | 0x10 => !p.ext && n == 40
  | _ => false

end Sys2Proof

namespace Sys2Proof.Machine

/-! ## Stamps (R31, R342) -/

/-- FT[47:0]. -/
def State.stamp (s : State) : Nat := s.ft.toNat % 2 ^ 48

/-- The age of a packet, none when its stamp is too far ahead of FT; a stamp ahead within the tolerance has age 0
(R340, R342). -/
def State.ageOf (s : State) (p : Packet) : Option Nat :=
  let age := (s.stamp + 2 ^ 48 - p.stamp % 2 ^ 48) % 2 ^ 48
  if 2 ^ 47 ≤ age then
    if (s.rd R.SLD_FUTURE_TOL).toNat < 2 ^ 48 - age then none else some 0
  else some age

/-- Why a packet is too old, or its stamp too far ahead, by Solder's counter for it (R340, R342). -/
def State.staleReg (s : State) (p : Packet) : Option RegDesc :=
  match s.ageOf p with
  | some a => if (s.rd R.SLD_LIFETIME).toNat < a then some R.SLD_EXPIRE_COUNT else none
  | none => some R.SLD_FUTURE_COUNT

/-- Has the packet's age passed the lifetime, or is its stamp too far ahead (R342)? -/
def State.expired (s : State) (p : Packet) : Bool := (s.staleReg p).isSome

/-! ## Formation -/

/-- Does the device form packets: once it has been fabric-ready, and while FT is valid (R535)? -/
def State.formsPackets (s : State) : Bool := s.route.ready && s.ftValid

/-- The device's own DN (R317). -/
def State.ownDn (s : State) : Nat := s.fd F.ROUTE_SELF_DN_DN

/-- A packet formed now: stamped, under the active epoch, in hop class 0, with its ECRC (R31, R333). -/
def State.stamped (s : State) (p : Packet) : Packet :=
  let p := { p with stamp := s.stamp, holdover := s.holdover, epoch := s.route.active, hc := 0, srcDn := s.ownDn }
  { p with ecrc := p.ecrcOf }

/-- A packet waits at a tile for its route decision. -/
def State.toTile (s : State) (t : Nat) (x : RPkt) : State :=
  let s1 := if x.src.isNone then s.pmuTile t 0x103 else s
  { s1 with route := { s1.route with tiles := s1.route.tiles.set [] t (s1.route.tiles.get [] t ++ [x]) } }

end Sys2Proof.Machine
end

