-- ==== Sys2Proof/Machine/Wire.lean ====
section
/-! DEFINITION. Machine/Wire.lean: what a fabric lane carries, bit by bit: PAM4 levels, TS frames, slots and ordered sets as bytes,
the scrambler and the Reed-Solomon code (R6, R352 to R362). -/
namespace Sys2Proof

/-! ## Bits and levels (R6, R352) -/

/-- Bytes as bits in the order of transmission: byte 0 first and bit 7 first (R6). -/
def bitsOf (bs : List Byte) : List Bool := bs.flatMap fun b => [7, 6, 5, 4, 3, 2, 1, 0].map b.getLsbD
/-- The number that bits spell, the first the most significant. -/
def bitsNat (bs : List Bool) : Nat := bs.foldl (fun n b => 2 * n + b2n b) 0
/-- A number as n bits, the most significant first. -/
def natBits (n v : Nat) : List Bool := ((List.range n).map v.testBit).reverse

/-- A list cut into pieces of n, at most k of them; a short end is dropped. -/
def piecesOf {α : Type} (n : Nat) : Nat → List α → List (List α)
  | 0, _ => []
  | k + 1, l => if l.length < n then [] else l.take n :: piecesOf n k (l.drop n)

/-- Bits as bytes, bit 7 first. -/
def bytesOf (bs : List Bool) : List Byte := (piecesOf 8 bs.length bs).map fun b => BitVec.ofNat 8 (bitsNat b)

/-- The level of a pair of bits by Gray coding, the first bit the more significant (R352). -/
def pamLevel (hi lo : Bool) : Nat := if hi then (if lo then 2 else 3) else if lo then 1 else 0
/-- The pair of bits of a level. -/
def pamPair (l : Nat) : List Bool := [decide (2 ≤ l), l == 1 || l == 2]
/-- A level as it arrives over a lane of inverted polarity: 0 with 3 and 1 with 2 (R354). -/
def pamMirror (l : Nat) : Nat := 3 - l
/-- Bits as levels. -/
def pamOf : List Bool → List Nat
  | a :: b :: r => pamLevel a b :: pamOf r
  | _ => []
/-- Levels as bits. -/
def bitsOfPam (ls : List Nat) : List Bool := ls.flatMap pamPair

/-! ## TS frames (Table 15-2) -/

/-- MARKER of a TS frame. -/
def tsMarker : Nat := 0x7E3C81A55A18C37E

/-- Bytes 0 to 59 of a TS frame. -/
def TsBody.head (x : TsBody) : List Byte :=
  beBytes 8 tsMarker ++ beBytes 1 x.ty ++ beBytes 1 (x.lane % 2) ++ beBytes 1 (x.port % 128) ++ beBytes 1 x.count ++
    beBytes 4 (x.dn % 2 ^ 17) ++ beBytes 1 (x.rates % 4) ++ beBytes 1 (x.lanes % 4) ++ beBytes 1 x.min ++ zeroBytes 1 ++
    beBytes 2 (x.shared % 4096) ++ byteSlice x.eq 0 6 ++ zeroBytes 32
/-- The 64 bytes of a TS frame, its CRC over the first 60 (R359). -/
def TsBody.bytes (x : TsBody) : List Byte := x.head ++ beBytes 4 (crc32 polyCrc32 x.head)
/-- A TS frame as it is sent: unscrambled, without FEC, as levels (R352, R353). -/
def TsBody.levels (x : TsBody) : List Nat := pamOf (bitsOf x.bytes)

/-- The frame's bytes as they arrive, uncorrected. -/
def TsFrame.raw (f : TsFrame) : List Byte := bytesOf (bitsOfPam f.levels)
/-- Does the marker come mirrored, so that the lane's polarity is inverted (R354)? -/
def TsFrame.mirrored (f : TsFrame) : Bool :=
  beNat (byteSlice f.raw 0 8) != tsMarker && beNat (byteSlice (bytesOf (bitsOfPam (f.levels.map pamMirror))) 0 8) == tsMarker
/-- The frame's bytes with polarity corrected. -/
def TsFrame.bytes (f : TsFrame) : List Byte :=
  if f.mirrored then bytesOf (bitsOfPam (f.levels.map pamMirror)) else f.raw
/-- n bytes of the frame from byte i, most significant first. -/
def TsFrame.field (f : TsFrame) (i n : Nat) : Nat := beNat (byteSlice f.bytes i n)
/-- Is it a whole frame with its marker and a good CRC (R354)? -/
def TsFrame.ok (f : TsFrame) : Bool :=
  f.bytes.length == 64 && f.field 0 8 == tsMarker && f.field 60 4 == crc32 polyCrc32 (byteSlice f.bytes 0 60)
/-- TYPE, LANE, PORT, COUNT, DN, RATES, LANES, MIN and SHARED (Table 15-2). -/
def TsFrame.ty (f : TsFrame) : Nat := f.field 8 1
def TsFrame.lane (f : TsFrame) : Nat := f.field 9 1 % 2
def TsFrame.port (f : TsFrame) : Nat := f.field 10 1 % 128
def TsFrame.count (f : TsFrame) : Nat := f.field 11 1
def TsFrame.dn (f : TsFrame) : Nat := f.field 12 4 % 2 ^ 17
def TsFrame.rates (f : TsFrame) : Nat := f.field 16 1 % 4
def TsFrame.lanes (f : TsFrame) : Nat := f.field 17 1 % 4
def TsFrame.min (f : TsFrame) : Nat := f.field 18 1
def TsFrame.shared (f : TsFrame) : Nat := f.field 20 2 % 4096
/-- The partner's request and its answer to this end's (Table 17-5). -/
def TsFrame.req (f : TsFrame) : EqReq := ⟨f.field 22 1 / 16, f.field 22 1 % 16, f.field 23 1 % 16⟩
def TsFrame.reqId (f : TsFrame) : Nat := f.field 24 1
def TsFrame.stsId (f : TsFrame) : Nat := f.field 25 1
def TsFrame.sts (f : TsFrame) : Nat := f.field 26 1 % 8
def TsFrame.rxReady (f : TsFrame) : Bool := nbit (f.field 26 1) 3

/-! ## Slots (Table 15-3) -/

/-- Body and trailer of a slot, but for the CRC. -/
def Slot.head (f : Slot) : List Byte :=
  byteSlice f.body 0 256 ++ beBytes 2 (f.lseq % 4096 * 16 + f.ctype % 16) ++ beBytes 2 (f.lack % 4096 * 16 + b2n f.nak * 8) ++
    beBytes 1 (f.chc % 8 * 32 + b2n f.csh * 16) ++ zeroBytes 1 ++ beBytes 2 f.cra ++ beBytes 2 f.crb ++ zeroBytes 2
/-- The 272 bytes of a slot (R358, R359). -/
def Slot.bytes (f : Slot) : List Byte := f.head ++ beBytes 4 (crc32 polyCrc32 f.head)

/-- A slot from its 272 bytes; `good` says that none of its bits lies in an uncorrectable codeword (R357). -/
def slotOf (good : Bool) (bs : List Byte) : Slot :=
  let n (i k : Nat) : Nat := beNat (byteSlice bs i k)
  { ok := good && n 268 4 == crc32 polyCrc32 (byteSlice bs 0 268)
    lseq := n 256 2 / 16, ctype := n 256 2 % 16, lack := n 258 2 / 16, nak := nbit (n 258 2) 3, chc := n 260 1 / 32
    csh := nbit (n 260 1) 4, cra := n 262 2, crb := n 264 2, body := byteSlice bs 0 256 }

/-! ## Ordered sets (Tables 15-4, 15-5) -/

/-- Bodies of IDLE, SYNC, SYNC_REPLY, FAULT and SLEEP; a slot fills a short body with zeros. -/
def osIdle : List Byte := [0]
def osSync (id t1 : Nat) : List Byte := [1, 0] ++ beBytes 2 id ++ beBytes 9 t1
def osSyncReply (id t2 t3 : Nat) : List Byte := [2, 0] ++ beBytes 2 id ++ beBytes 9 t2 ++ beBytes 9 t3
def osFault (reason dn : Nat) : List Byte := beBytes 1 4 ++ beBytes 1 reason ++ zeroBytes 2 ++ beBytes 3 (dn % 2 ^ 17)
def osSleep (kind : Nat) : List Byte := [5] ++ beBytes 1 kind

/-- ROOT_FLAGS or SB_FLAGS of a candidate. -/
def Cand.flags (c : Cand) : Nat := b2n c.holdover * 128 + b2n c.ext * 64
/-- Body of ANNOUNCE (Table 15-5). -/
def osAnnounce (a : Announce) : List Byte :=
  [3, 0] ++ beBytes 2 a.seq ++ beBytes 1 a.gen ++ beBytes 1 a.root.prio ++ beBytes 1 a.root.flags ++ beBytes 3 (a.root.dn % 2 ^ 17) ++
    (match a.standby with
      | some c => beBytes 1 c.prio ++ beBytes 1 (c.flags + 32) ++ beBytes 3 (c.dn % 2 ^ 17)
      | none => zeroBytes 5) ++
    beBytes 1 (a.state % 8 * 32 + b2n a.holdover * 16 + a.depth % 16) ++ beBytes 3 (a.sender % 2 ^ 17)

/-! ## The scrambler (R356) -/

/-- Bits through the self-synchronising scrambler x^58 + x^39 + 1; bit i of the register is the bit sent i + 1 before. -/
def scramble : Nat → List Bool → List Bool × Nat
  | r, [] => ([], r)
  | r, b :: bs =>
    let x := b != (r.testBit 38 != r.testBit 57)
    let (ys, r') := scramble ((2 * r + b2n x) % 2 ^ 58) bs
    (x :: ys, r')
/-- Received bits through the descrambler; its register holds the bits received last. -/
def descramble : Nat → List Bool → List Bool × Nat
  | r, [] => ([], r)
  | r, x :: xs =>
    let b := x != (r.testBit 38 != r.testBit 57)
    let (ys, r') := descramble ((2 * r + b2n x) % 2 ^ 58) xs
    (b :: ys, r')

/-! ## RS(544,514) over GF(2^10) (R356) -/

/-- The product in GF(2^10) with field polynomial x^10 + x^3 + 1. -/
def gfMul (a b : Nat) : Nat :=
  [9, 8, 7, 6, 5, 4, 3, 2, 1, 0].foldl (fun acc i =>
    let d := 2 * acc
    let d := if 1024 ≤ d then d ^^^ 0x409 else d
    if b.testBit i then d ^^^ a else d) 0
/-- A power. -/
def gfPow (a : Nat) : Nat → Nat
  | 0 => 1
  | n + 1 => gfMul a (gfPow a n)
/-- The inverse, a^1022, by squaring: a^2 · a^4 · … · a^512. -/
def gfInv (a : Nat) : Nat :=
  ((List.range 9).foldl (fun (x : Nat × Nat) _ =>
    let q := gfMul x.1 x.1
    (q, gfMul x.2 q)) (a, 1)).2
/-- α^n. -/
def gfAlpha (n : Nat) : Nat := gfPow 2 (n % 1023)

/-- A polynomial, lowest coefficient first, at a point. -/
def gfEval (p : List Nat) (x : Nat) : Nat := p.foldr (fun c acc => gfMul acc x ^^^ c) 0
/-- The sum of two polynomials. -/
def gfAdd : List Nat → List Nat → List Nat
  | [], q => q
  | p, [] => p
  | a :: p, b :: q => (a ^^^ b) :: gfAdd p q
/-- A polynomial times a constant. -/
def gfScale (c : Nat) (p : List Nat) : List Nat := p.map (gfMul c)

/-- The generator (x − α^0)(x − α^1)…(x − α^29) without its leading 1, highest coefficient first. -/
def rsGen : List Nat :=
  (((List.range 30).foldl (fun g i => gfAdd (0 :: g) (gfScale (gfAlpha i) g)) [1]).take 30).reverse

/-- The 30 parity symbols of a message: the remainder of its division by the generator. -/
def rsParity (msg : List Nat) : List Nat :=
  let g := rsGen
  msg.foldl (fun r m =>
    let fb := m ^^^ r.headD 0
    (r.drop 1 ++ [0]).zipWith (· ^^^ ·) (gfScale fb g)) (List.replicate 30 0)
/-- A codeword: 514 message symbols and their parity. -/
def rsEncode (msg : List Nat) : List Nat := msg ++ rsParity msg

/-- The 30 syndromes of 544 received symbols, all 0 for a codeword. -/
def rsSyndromes (rx : List Nat) : List Nat :=
  (List.range 30).map fun j =>
    let a := gfAlpha j
    rx.foldl (fun acc r => gfMul acc a ^^^ r) 0

/-- The state of the search for the error locator: locator, last locator, its length, shift and last discrepancy. -/
structure RsSearch where
  c : List Nat
  b : List Nat
  len : Nat
  m : Nat
  d : Nat
deriving DecidableEq, Repr

/-- One step of the search, on syndrome n (the Berlekamp-Massey algorithm). -/
def rsStep (syn : List Nat) (x : RsSearch) (n : Nat) : RsSearch :=
  let d := (List.range (x.len + 1)).foldl (fun acc i => acc ^^^ gfMul (x.c.getD i 0) (syn.getD (n - i) 0)) 0
  if d == 0 then { x with m := x.m + 1 }
  else
    let c' := gfAdd x.c (List.replicate x.m 0 ++ gfScale (gfMul d (gfInv x.d)) x.b)
    if 2 * x.len ≤ n then { c := c', b := x.c, len := n + 1 - x.len, m := 1, d := d } else { x with c := c', m := x.m + 1 }

/-- The error locator of a set of syndromes, and the number of errors it stands for. -/
def rsLocator (syn : List Nat) : List Nat × Nat :=
  let x := (List.range 30).foldl (rsStep syn) ⟨[1], [1], 0, 1, 1⟩
  (x.c, x.len)

/-- The first 30 coefficients of the product of two polynomials. -/
def gfMulTrunc (p q : List Nat) : List Nat :=
  (List.range 30).map fun n => (List.range (n + 1)).foldl (fun acc i => acc ^^^ gfMul (p.getD i 0) (q.getD (n - i) 0)) 0

/-- The formal derivative, in characteristic 2. -/
def gfDeriv (p : List Nat) : List Nat := (p.drop 1).mapIdx fun i c => if i % 2 == 0 then c else 0

/-- The corrections of up to 15 symbols of a received word, each as its place and what to add to it; none when the word is
uncorrectable. -/
def rsErrors (rx : List Nat) : Option (List (Nat × Nat)) :=
  let syn := rsSyndromes rx
  if syn.all (· == 0) then some [] else
  let (loc, n) := rsLocator syn
  let places := (List.range 544).filter fun i => gfEval loc (gfInv (gfAlpha (543 - i))) == 0
  if 15 < n || places.length != n then none else
  let om := gfMulTrunc syn loc
  let der := gfDeriv loc
  let errs := places.map fun i =>
    let x := gfAlpha (543 - i)
    let xi := gfInv x
    (i, gfMul x (gfMul (gfEval om xi) (gfInv (gfEval der xi))))
  let fixed := errs.foldl (fun w e => w.modify e.1 (· ^^^ e.2)) rx
  if (rsSyndromes fixed).all (· == 0) then some errs else none

/-- A symbol as its five levels, most significant pair first, and back (R356). -/
def symLevels (x : Nat) : List Nat := pamOf (natBits 10 x)
def levelsSym (ls : List Nat) : Nat := bitsNat (bitsOfPam ls)

/-- The symbols of a codeword that go to the even and to the odd lane: symbol i goes to lane i mod 2 (R356). -/
def evens {α : Type} : List α → List α
  | a :: _ :: r => a :: evens r
  | l => l
def odds {α : Type} : List α → List α
  | _ :: b :: r => b :: odds r
  | _ => []
/-- Two lanes' symbols as one codeword again. -/
def interleave {α : Type} : List α → List α → List α
  | a :: as, b :: bs => a :: b :: interleave as bs
  | as, [] => as
  | [], bs => bs

end Sys2Proof
end

