-- ==== Sys2Proof/Machine/Framing.lean ====
section
/-! DEFINITION. Machine/Framing.lean: the framed stream of a link: slots out as codewords on its lanes, codewords in as slots, and the
ordered sets that every block may send (R35, R356, R358, R361 to R363). -/
namespace Sys2Proof.Machine

/-! ## Changes of one side of a port -/

/-- The sending side changed. -/
def State.setTx (s : State) (p : Nat) (f : LinkTx → LinkTx) : State :=
  let x := s.port p
  s.setPort p { x with tx := f x.tx }
/-- The receiving side changed. -/
def State.setRxl (s : State) (p : Nat) (f : LinkRx → LinkRx) : State :=
  let x := s.port p
  s.setPort p { x with rx := f x.rx }

/-- Does the port run on one lane (Table 17-1)? -/
def Port.oneLane (x : Port) : Bool := x.cfg.lanes == 1 || x.cfg.lanes == 2

/-! ## Slots out (R356) -/

/-- A codeword on the lanes of a port: symbol i on lane i mod 2, or all on the lane in use, most significant pair first. -/
def Port.cwLevels (x : Port) (p : Nat) (cw : List Nat) : List Emit :=
  let lv (ss : List Nat) : List Nat := ss.flatMap symLevels
  if x.oneLane then [.levels p (x.cfg.lanes - 1) (lv cw)] else [.levels p 0 (lv (evens cw)), .levels p 1 (lv (odds cw))]

/-- The bytes of a slot join the scrambled stream; 514 symbols that are whole leave as a codeword. -/
def State.toLine (s : State) (p : Nat) (bs : List Byte) : State :=
  let x := s.port p
  let (bits, scr) := scramble x.tx.scr (bitsOf bs)
  let all := x.tx.line ++ bits
  if all.length < 5140 then s.setTx p fun t => { t with scr := scr, line := all }
  else
    let cw := rsEncode ((piecesOf 10 514 all).map bitsNat)
    (s.setTx p fun t => { t with scr := scr, line := all.drop 5140 }).emits (x.cwLevels p cw)

/-- A slot leaves: its trailer carries LACK, a pending NAK, and the totals of the next two kinds (R371, R375). -/
def State.sendSlot (s : State) (p lseq ctype chc : Nat) (csh : Bool) (body : List Byte) : State :=
  let x := (s.port p).rx
  let total (k : Nat) : Nat := k * 4096 + x.totals.getD k 0
  let f : Slot :=
    { ok := true, lseq := lseq, ctype := ctype, lack := (x.x + 4095) % 4096, nak := x.nak, chc := chc, csh := csh
      cra := total x.rot, crb := total ((x.rot + 1) % 9), body := body }
  let s1 := ((s.setRxl p fun x => { x with rot := (x.rot + 2) % 9 }).emit (.slot p f)).toLine p f.bytes
  if ctype == 8 then s1 else s1.pmuPort p 0x201

/-- An ordered set leaves: its LSEQ is that of the next cell slot (Table 15-3). -/
def State.sendOs (s : State) (p : Nat) (body : List Byte) : State :=
  let tx := (s.port p).tx
  let next := (tx.replay.head?.map (·.lseq)).getD tx.lseq
  s.sendSlot p next 8 0 false (byteSlice body 0 256)

/-- The same ordered set in n slots. -/
def State.sendOsN (s : State) (p : Nat) (body : List Byte) : Nat → State
  | 0 => s
  | n + 1 => (s.sendOs p body).sendOsN p body n

/-- IDLE. -/
def State.sendIdle (s : State) (p : Nat) : State := (s.sendOs p osIdle).pmuPort p 0x203

/-- FAULT with a REASON (Table 15-4). -/
def State.sendFault (s : State) (p reason : Nat) : State := s.sendOs p (osFault reason s.ownDn)

/-! ## Time ordered sets (R35, R362) -/

/-- The lane of the stamp point of the next slot, that of the symbol that carries its bit 0. -/
def Port.stampLane (x : Port) : Nat := if x.oneLane then x.cfg.lanes - 1 else x.tx.line.length / 10 % 2

/-- The lane that timing ordered sets travel on: lane 0, or lane 1 if lane 0 is retired. -/
def Port.timeLane (x : Port) : Nat := if x.cfg.lanes == 2 then 1 else 0

/-- IDLE in the slots, at most two, before the first whose stamp point lies on the lane of timing ordered sets. -/
def State.toTimeSlot (s : State) (p : Nat) : Nat → State
  | 0 => s
  | n + 1 => if (s.port p).stampLane == (s.port p).timeLane then s else (s.sendIdle p).toTimeSlot p n

/-- A timing ordered set leaves in the first slot that qualifies. -/
def State.sendTime (s : State) (p : Nat) (rec_ : Emit) (body : List Byte) : State :=
  ((s.toTimeSlot p 2).emit rec_).sendOs p body

/-! ## Codewords in (R356, R357) -/

/-- The symbols of a lane, its polarity corrected (R354). -/
def State.laneSyms (s : State) (p l : Nat) (ls : List Nat) : List Nat :=
  let inv := (s.lanes.get Lane.init (2 * p + l)).polInv
  (piecesOf 5 544 (if inv then ls.map pamMirror else ls)).map levelsSym

/-- The 544 symbols of a codeword from the lanes that carried them, and the lane that carried each: lanes that came swapped are
swapped back (R354). -/
def State.cwSyms (s : State) (p : Nat) (c : Codeword) : List Nat × (Nat → Nat) :=
  let x := s.port p
  let a := s.laneSyms p 0 c.l0
  let b := s.laneSyms p 1 c.l1
  if x.oneLane then (if x.cfg.lanes == 1 then a else b, fun _ => x.cfg.lanes - 1)
  else if (s.lanes.get Lane.init (2 * p)).swapped then (interleave b a, fun i => 1 - i % 2)
  else (interleave a b, fun i => i % 2)

/-- What a codeword decodes to: its message, whether it is uncorrectable, and its corrected symbols on each lane. -/
def State.decodeCw (s : State) (p : Nat) (c : Codeword) : List Nat × Bool × Nat × Nat :=
  let (rx, laneOf) := s.cwSyms p c
  match if rx.length == 544 then rsErrors rx else none with
  | some errs =>
    let fixed := errs.foldl (fun w e => w.modify e.1 (· ^^^ e.2)) rx
    (fixed.take 514, false, (errs.filter fun e => laneOf e.1 == 0).length, (errs.filter fun e => laneOf e.1 == 1).length)
  | none => ((rx ++ List.replicate 514 0).take 514, true, 0, 0)

/-- The message of a codeword joins the descrambled stream. -/
def LinkRx.take (r : LinkRx) (msg : List Nat) (bad : Bool) : LinkRx :=
  let (bits, d) := descramble r.descr (msg.flatMap (natBits 10))
  { r with descr := d, line := r.line ++ [(bits, bad)] }

/-- The first n bits of a stream of pieces, whether one of them is of a bad piece, and what is left; none while there are fewer. -/
def takeBits : Nat → List (List Bool × Bool) → Option (List Bool × Bool × List (List Bool × Bool))
  | 0, ps => some ([], false, ps)
  | _ + 1, [] => none
  | n + 1, (b, bad) :: ps =>
    if n + 1 < b.length then some (b.take (n + 1), bad, (b.drop (n + 1), bad) :: ps)
    else (takeBits (n + 1 - b.length) ps).map fun (bs, bad', rest) => (b ++ bs, (bad && !b.isEmpty) || bad', rest)

/-- The next slot of the received stream, with what is left of it; none while it is not whole. -/
def LinkRx.nextSlot (r : LinkRx) : Option (Slot × LinkRx) :=
  (takeBits 2176 r.line).map fun (bits, bad, rest) => (slotOf (!bad) (bytesOf bits), { r with line := rest })

end Sys2Proof.Machine
end

