-- ==== Sys2Proof/Machine/Invar.lean ====
section
/-! DEFINITION. Machine/Invar.lean: Fabric Time: the exchange on each link, the servo, root election, the time states and
the external references (chapter 2). Stamps are counts of 1/16 tick. -/
namespace Sys2Proof.Machine

/-- Invar's part of the state changed. -/
def State.setInv (s : State) (f : Invar → Invar) : State := { s with inv := f s.inv }
/-- The time state of one port. -/
def State.ptime (s : State) (p : Nat) : PortTime := s.inv.ports.get PortTime.init p
/-- The time state of one port replaced. -/
def State.setPtime (s : State) (p : Nat) (x : PortTime) : State :=
  s.setInv fun i => { i with ports := i.ports.set PortTime.init p x }

/-- An event of Table 2-8: its bit of INV_EVENT, and its report to Tungsten. -/
def State.invEvent (s : State) (bit code : Nat) : State :=
  (s.wr R.INV_EVENT [] (s.rd R.INV_EVENT ||| w64 (2 ^ bit))).report (tsrc 1 0) code

/-- The numbers of Table 2-1. -/
def TimeState.code : TimeState → Nat
  | .disabled => 0 | .listen => 1 | .acquire => 2 | .track => 3 | .holdover => 4 | .unsync => 5 | .root => 6

/-- Is Invar running? -/
def State.invOn (s : State) : Bool := s.inv.state != .disabled

/-- Does the port run exchanges and announcements (R35)? None runs while Invar is off or in the safe state (R450). -/
def State.timePort (s : State) (p : Nat) : Bool :=
  decide (p < s.portCount) && s.invOn && !s.inSafe && s.fb F.INV_PORT_TIME_TIME_EN [p] && s.linkUp p

/-- The time-enabled ports. -/
def State.timePorts (s : State) : List Nat := (s.ports.map (·.1)).filter s.timePort

/-- SPEC_MET (R53): when it falls, SPEC_LOST is raised. -/
def State.updSpec (s : State) : State :=
  let now := decide (16 ≤ s.inv.goodRun) && !s.holdover && !s.inv.slewFast
  let s1 := s.setInv fun i => { i with specMet := now }
  if s.inv.specMet && !now then s1.invEvent 7 0x13 else s1

/-- EXT_LOCK (R39, R49): a root locked to TIME_PPS_IN and, if enabled, to TIME_10M_IN. -/
def State.extLocked (s : State) : Bool :=
  s.inv.state == .root && s.fb F.INV_CTRL_PPS_EN && s.inv.extLock && !(s.fb F.INV_CTRL_REF10M_EN && s.inv.ref10mLost)

/-- This device as a candidate (R39). -/
def State.ownCand (s : State) : Cand :=
  { dn := s.fd F.ROUTE_SELF_DN_DN, prio := s.fd F.INV_ROOT_PRIO_PRIO, holdover := s.holdover, ext := s.extLocked }
/-- Is this device a candidate (R39)? -/
def State.eligible (s : State) : Bool := s.fb F.INV_CTRL_ROOT_ELIGIBLE

/-- Does candidate a beat candidate b (R39)? -/
def candBeats (a b : Cand) : Bool :=
  if a.holdover != b.holdover then !a.holdover
  else if a.ext != b.ext then a.ext
  else if a.prio != b.prio then decide (a.prio < b.prio)
  else decide (a.dn < b.dn)

/-- Is an announce sequence newer (R41)? -/
def seqNewer (new old : Nat) : Bool :=
  let d := (new + 65536 - old % 65536) % 65536
  decide (1 ≤ d) && decide (d ≤ 32767)
/-- Is a generation newer (R43)? -/
def genNewer (new old : Nat) : Bool :=
  let d := (new + 256 - old % 256) % 256
  decide (1 ≤ d) && decide (d ≤ 127)

/-- The root view in force: a stale one has been discarded (R41). -/
def State.rootView (s : State) : Option RootView := if s.inv.staleAt.isSome then none else s.inv.root

/-- Steps removed from the root (R40). -/
def State.depth (s : State) : Nat :=
  match s.inv.state, s.inv.parent with
  | .root, _ => 0
  | _, some p => match (s.ptime p).heard with
    | some a => a.depth + 1
    | none => 0
  | _, none => 0

/-- The announcement that this device sends (R40, Table 15-5); none while it knows no root and is no candidate, or waits for the
announcement of the standby (R42). -/
def State.announcement (s : State) : Option Announce :=
  let body (c : Cand) (gen seq : Nat) : Announce :=
    { seq := seq, gen := gen, root := c, standby := s.inv.standby, state := s.inv.state.code, holdover := s.holdover,
      depth := min s.depth 15, sender := s.fd F.ROUTE_SELF_DN_DN }
  match s.inv.state, s.rootView with
  | .root, some v => some (body s.ownCand v.gen v.seq)
  | _, some v => some (body v.cand v.gen v.seq)
  | _, none => if s.eligible && s.inv.await.isNone then some (body s.ownCand s.inv.lastGen s.inv.ownSeq) else none

/-- An announcement on every time-enabled port (R40). -/
def State.sendAnnounce (s : State) : State :=
  match s.announcement with
  | some a => s.timePorts.foldl (fun s p => s.sendTime p (.announce p (s.port p).timeLane a) (osAnnounce a)) s
  | none => s

/-- Does the port's announcement qualify it as a parent (R44, R45, R47)? -/
def State.qualifies (s : State) (p : Nat) : Bool :=
  match (s.ptime p).heard, s.rootView with
  | some a, some v =>
    s.timePort p && a.root.dn == v.cand.dn && (a.state == 3 || a.state == 6 || a.state == 4) &&
      decide (s.fd F.INV_PORT_TIME_RANK [p] ≤ 2) && decide (a.depth + 1 ≤ s.fd F.INV_MAX_DEPTH_DEPTH) &&
      decide (s.locSince (s.ptime p).heardAt < 3 * (s.rd R.INV_ANNOUNCE_INT).toNat)
  | _, _ => false

/-- The order of preference among qualifying ports: no HOLDOVER first, then RANK, steps removed and port number (R44,
R45), as one number. -/
def State.parentKey (s : State) (p : Nat) : Nat :=
  match (s.ptime p).heard with
  | some a => ((b2n a.holdover * 4 + s.fd F.INV_PORT_TIME_RANK [p]) * 16 + a.depth) * 128 + p
  | none => 0

/-- The port chosen as parent (R44). -/
def State.bestParent (s : State) : Option Nat :=
  (sortBy s.parentKey ((s.ports.map (·.1)).filter s.qualifies)).head?

/-- The parent port set; a change is an event (Table 2-8). -/
def State.setParent (s : State) (p : Nat) : State :=
  if s.inv.parent == some p then s
  else (s.setInv fun i => { i with parent := some p, suspended := none }).invEvent 8 0x18

/-- A state entered. -/
def State.enterTime (s : State) (t : TimeState) : State := s.setInv fun i => { i with state := t, enteredAt := i.loc }

/-- HOLDOVER entered: the rate stays, no parent is followed, and the count of good exchanges starts again (Table 2-2; the
restart is read from the worked example of R54: DEDUCED, log entry 8). -/
def State.enterHoldover (s : State) : State :=
  let s1 := s.setInv fun i => { i with
    leftAt := i.loc, holdLong := false, goodRun := 0, parent := none, suspended := none, extLock := false, ppsGood := 0 }
  ((s1.enterTime .holdover).invEvent 0 0x10).updSpec

/-- UNSYNC entered (Table 2-2): the rate stays and FT is not stepped. -/
def State.enterUnsync (s : State) : State :=
  let s1 := if s.inv.state == .track then s.setInv fun i => { i with leftAt := i.loc } else s
  ((s1.enterTime .unsync).invEvent 2 0x12).updSpec

/-- A new view of the root (R40, R41): another DN or generation is an event, and in TRACK it makes the next offset decide
(Table 2-2). -/
def State.adoptRoot (s : State) (c : Cand) (gen seq : Nat) : State :=
  let changed := match s.inv.root with
    | some v => v.cand.dn != c.dn || v.gen != gen
    | none => true
  let s1 := s.setInv fun i =>
    { i with root := some ⟨c, gen, seq, i.loc⟩, lastGen := gen, staleAt := none,
             rootChanged := i.rootChanged || (changed && i.state == .track) }
  if changed then s1.invEvent 3 0x17 else s1

/-- This device becomes root, from TRACK or HOLDOVER with the next generation and FT unstepped (R42, R39, R29), from
LISTEN with INV_FT_SET once per device reset (Table 2-2). -/
def State.becomeRoot (s : State) : State :=
  let fromListen := s.inv.state == .listen
  let gen := if fromListen then s.inv.lastGen else (s.inv.lastGen + 1) % 256
  let s1 := s.setInv fun i =>
    { i with parent := none, suspended := none, await := none, ppsAligned := !fromListen, ppsGood := 0, extLock := false, standby := none,
             ft := if fromListen && !i.ftSetTaken then s.rd R.INV_FT_SET else i.ft,
             ftSetTaken := i.ftSetTaken || fromListen }
  let s2 := (s1.enterTime .root).adoptRoot s.ownCand gen s.inv.ownSeq
  ((s2.setInv fun i => { i with rootChanged := false }).invEvent 4 0x16).sendAnnounce.updSpec

/-- The best of the candidates other than the root (R40). -/
def bestStandby (rootDn : Nat) (cs : List Cand) : Option Cand :=
  (cs.filter fun c => c.dn != rootDn).foldl (fun b c => match b with
    | none => some c
    | some d => if candBeats c d then some c else some d) none

/-- The elected standby among what is known and what an announcement adds (R40); what it says of a known DN replaces
what was known. A candidate that falls silent is never dropped: R40 gives the standby no age (DESIGN CHOICE, log entry 128). -/
def State.updStandby (s : State) (a : Announce) : State :=
  let selfDn := s.fd F.ROUTE_SELF_DN_DN
  let heard := a.root :: a.standby.toList
  let known := s.inv.standby.toList.filter fun c => c.dn != selfDn && !(heard.any (·.dn == c.dn))
  let own := if s.eligible then [s.ownCand] else []
  match s.rootView with
  | some v => s.setInv fun i =>
      { i with standby := bestStandby v.cand.dn ((heard.filter fun c => c.dn != selfDn) ++ known ++ own) }
  | none => s

/-- Is this device the elected standby? -/
def State.isStandby (s : State) : Bool :=
  match s.inv.standby with
  | some c => c.dn == s.fd F.ROUTE_SELF_DN_DN && s.eligible && s.inv.state != .root
  | none => false

/-- Does the parent offer the root in view? -/
def State.parentFits (s : State) : Bool :=
  match s.inv.parent, s.rootView with
  | some p, some v => match (s.ptime p).heard with
    | some a => a.root.dn == v.cand.dn
    | none => false
  | _, _ => false

/-- A parent chosen where the state calls for one: HOLDOVER without a parent, or TRACK, UNSYNC and HOLDOVER whose parent
no longer offers the root (R44). -/
def State.chooseParent (s : State) : State :=
  match s.inv.state with
  | .track | .holdover =>
    if s.parentFits then s else match s.bestParent with
      | some p => s.setParent p
      | none => s
  | _ => s

/-- How an announcement bears on the root view: none, a newer sequence, or another root (R39, R41, R43). -/
def State.judgeRoot (s : State) (a : Announce) : Nat :=
  match s.inv.root with
  | none => 2
  | some v =>
    if a.root.dn == v.cand.dn then
      if genNewer a.gen v.gen then 2
      else if a.gen == v.gen && seqNewer a.seq v.seq then 1
      else 0
    else if s.inv.staleAt.isSome then 2
    else
      let mine := if s.inv.state == .root then s.ownCand else v.cand
      if candBeats a.root mine then 2 else 0

/-- The standby for which this candidate waits has announced itself (R42). -/
def State.awaited (s : State) (dn : Nat) : State :=
  match s.inv.await with
  | some (_, some d) => if d == dn then s.setInv fun i => { i with await := none } else s
  | _ => s

/-- ANNOUNCE_RECEIVED (R40 to R46). A candidate that waits for the standby becomes no root meanwhile (R42). -/
def announceReceived (p : Nat) (a : Announce) (s : State) : State :=
  if !s.timePort p then s else
  let s0 := s.setPtime p { s.ptime p with heard := some a, heardAt := s.loc }
  let self := a.root.dn == s.fd F.ROUTE_SELF_DN_DN
  let j := if self then 0 else s0.judgeRoot a
  let s1 := if j == 0 then s0 else (s0.adoptRoot a.root a.gen a.seq).awaited a.root.dn
  let s2 := s1.updStandby a
  let s3 := if j == 2 && s2.inv.state == .root then s2.enterHoldover else s2
  let s4 := s3.chooseParent
  let s5 := if j != 0 then s4.sendAnnounce else s4
  let s6 := match s5.inv.state, s5.rootView with
    | .track, some v | .holdover, some v =>
      if s5.eligible && j != 0 && s.inv.state != TimeState.root && s5.inv.await.isNone && candBeats s5.ownCand v.cand then s5.becomeRoot
      else s5
    | _, _ => s5
  s6.updSpec

/-- SYNC: INV_SYNC_INT has passed on a time-enabled port, and this end starts an exchange (R35, R362). f is the fraction
of the transmit stamp. -/
def sync (p f : Nat) (s : State) : State :=
  let t := s.ptime p
  if s.timePort p && decide ((s.rd R.INV_SYNC_INT).toNat ≤ s.locSince t.lastSync) then
    let t1 := 16 * s.ft.toNat + f % 16
    (s.setPtime p { t with outstanding := t.outstanding ++ [(t.nextId, t1, s.loc)], nextId := (t.nextId + 1) % 65536,
                           lastSync := s.loc }).sendTime p (.sync p (s.port p).timeLane t.nextId t1) (osSync t.nextId t1)
  else s

/-- SYNC_RECEIVED: a SYNC is stamped T2 and answered within 2 µs (R362); f is the fraction of T2, dt the time to T3. Stamps have 72
bits (R361). -/
def syncReceived (p id f dt : Nat) (s : State) : State :=
  if s.timePort p then
    let t2 := 16 * s.ft.toNat + f % 16
    let t3 := (t2 + min dt (32 * ticksPerUs)) % 2 ^ 72
    s.sendTime p (.syncReply p (s.port p).timeLane (id % 65536) t2 t3) (osSyncReply (id % 65536) t2 t3)
  else s

/-- The delay average with one more sample (R38). -/
def PortTime.sampled (t : PortTime) (sample : Int) : PortTime :=
  if t.seen < 64 then
    let sum := t.sum + sample
    { t with seen := t.seen + 1, sum := sum, delay := sum / ((t.seen + 1 : Nat) : Int) }
  else { t with delay := t.delay + (sample - t.delay) / 64 }

/-- The limit of the trim in units of 2^-16 ppm (R29, R57). -/
def State.slewLimit (s : State) : Int := ((s.rd R.INV_SLEW_MAX).toNat * 65536 / 100 : Nat)

/-- The servo's step on an offset to the parent (R38). -/
def State.servo (s : State) (offset : Int) : State :=
  let integ := s.inv.integ + offset
  let trim := integ / (2 ^ s.fd F.INV_SERVO_KI_SHIFT : Nat) + offset / (2 ^ s.fd F.INV_SERVO_KP_SHIFT : Nat)
  let lim := s.slewLimit
  let good := decide (offset.natAbs ≤ s.fd F.INV_SERVO_LOCK_THRESH)
  (s.setInv fun i => { i with integ := integ, goodRun := if good then i.goodRun + 1 else 0 }).wr R.INV_FREQ_ADJ []
    (w64 (ofSigned 32 (clampI (-lim) lim trim)))

/-- Does an offset, in 1/16 tick, exceed INV_STEP_LIMIT? -/
def State.beyondLimit (s : State) (offset : Int) : Bool :=
  decide (16 * (s.rd R.INV_STEP_LIMIT).toNat < offset.natAbs)

/-- A signed register of 32 bits takes a value; one that it cannot hold the manual does not say, and a free value stands for it
(DESIGN CHOICE, log entry 129). -/
def State.wrSigned (s : State) (r : RegDesc) (ix : List Nat) (v : Int) : State :=
  if -2 ^ 31 ≤ v && v < 2 ^ 31 then s.wr r ix (w64 (ofSigned 32 v))
  else
    let (w, s1) := s.freeWord
    s1.wr r ix w

/-- What a completed exchange with the parent does in each state (R38, R46); `seen` counts the samples averaged before this one: good_run
counts only the exchanges after the 64th. The offset to a new root is that to a parent which offers it. -/
def State.parentExchange (s : State) (seen : Nat) (offset : Int) : State :=
  let s1 := (s.setInv fun i => { i with offset := offset }).wrSigned R.INV_OFFSET [] offset
  match s1.inv.suspended with
  | some (n + 1) => s1.setInv fun i => { i with suspended := if n == 0 then none else some n }
  | _ =>
  match s1.inv.state with
  | .acquire =>
    if !s1.inv.stepped then s1.setInv fun i => { i with acqCount := i.acqCount + 1 }
    else
      let s2 := s1.servo offset
      if seen < 64 then s2.setInv fun i => { i with goodRun := 0 } else s2
  | .track =>
    if !s1.parentFits then (s1.servo offset).updSpec
    else if s1.inv.rootChanged && s1.beyondLimit offset then
      (s1.setInv fun i => { i with rootChanged := false }).enterUnsync
    else ((s1.setInv fun i => { i with rootChanged := false }).servo offset).updSpec
  | .holdover => if s1.beyondLimit offset then s1.enterUnsync else (s1.servo offset).updSpec
  | _ => s1

/-- SYNC_REPLY_RECEIVED: the reply completes an exchange (R38). The leg from the parent is t4 − t3 and the leg to it
t2 − t1, for this end sent the SYNC (DEDUCED, log entry 9). f is the fraction of t4. -/
def syncReplyReceived (p id t2 t3 f : Nat) (s : State) : State :=
  let t := s.ptime p
  match t.outstanding.find? (fun o => o.1 == id) with
  | none => s
  | some (_, t1, _) =>
    if !s.timePort p then s else
    let t4 := 16 * s.ft.toNat + f % 16
    let fwd : Int := (t4 : Int) - t3
    let rev : Int := (t2 : Int) - t1
    let t1' := { t with outstanding := t.outstanding.filter fun o => o.1 != id }.sampled ((fwd + rev) / 2)
    let t' := { t1' with mute := t1'.mute && decide (t1'.seen < 64) }
    let s1 := if t'.mute then s.setPtime p t' else (s.setPtime p t').wrSigned R.INV_PORT_DELAY [p] t'.delay
    if s.inv.parent == some p then
      s1.parentExchange t.seen (fwd - t'.delay - toSigned 20 (s.fd F.INV_PORT_TIME_ASYM [p]))
    else s1

/-- EXCHANGE_LOST: no reply within 10 µs (R362). -/
def exchangeLost (p : Nat) (s : State) : State :=
  let t := s.ptime p
  match t.outstanding with
  | [] => s
  | (_, _, at_) :: rest =>
    if decide (10 * ticksPerUs ≤ s.locSince at_) then s.setPtime p { t with outstanding := rest } else s

/-- ANNOUNCE: INV_ANNOUNCE_INT has passed (R35); a root takes its next sequence number (R41). -/
def announce (s : State) : State :=
  if s.invOn && !s.inSafe && decide ((s.rd R.INV_ANNOUNCE_INT).toNat ≤ s.locSince s.inv.lastAnnounce) then
    let s1 := s.setInv fun i => { i with lastAnnounce := i.loc, ownSeq := (i.ownSeq + 1) % 65536 }
    let s2 := if s1.inv.state == .root then
        s1.setInv fun i => { i with root := i.root.map fun v => { v with seq := i.ownSeq, heardAt := i.loc } }
      else s1
    s2.sendAnnounce
  else s

/-- The announce interval in ticks. -/
def State.annInt (s : State) : Nat := (s.rd R.INV_ANNOUNCE_INT).toNat

/-- ROOT_STALE: no newer sequence for 3 announce intervals; the view is discarded, and the standby becomes root at once
(R41, R42); another candidate waits for its announcement. -/
def rootStale (s : State) : State :=
  match s.rootView with
  | none => s
  | some v =>
    if s.inv.state != .root && s.invOn && decide (3 * s.annInt ≤ s.locSince v.heardAt) then
      let s1 := s.setInv fun i => { i with staleAt := some i.loc }
      if s.isStandby && (s.inv.state == .track || s.inv.state == .holdover) then s1.becomeRoot
      else if s.eligible then s1.setInv fun i => { i with await := some (i.loc, i.standby.map (·.dn)) }
      else s1
    else s

/-- STANDBY_WAIT_EXPIRY: 8 announce intervals without the standby's announcement; election among the candidates that
remain, which for this device is between itself and whom its neighbours name (R42). -/
def standbyWaitExpiry (s : State) : State :=
  match s.inv.await with
  | none => s
  | some (at_, dn) =>
    if decide (8 * s.annInt ≤ s.locSince at_) then
      let s1 := s.setInv fun i => { i with await := none }
      let gone := dn.toList ++ s.inv.root.toList.map (·.cand.dn)
      let others := match s.rootView with
        | some v => [v.cand]
        | none => (s.inv.ports.filterMap fun (e : Nat × PortTime) => e.2.heard.bind (·.standby)).filter fun c => !gone.contains c.dn
      if s.eligible && (s.inv.state == .track || s.inv.state == .holdover) && others.all fun c => !candBeats c s.ownCand then
        s1.becomeRoot
      else s1.setInv fun i => { i with standby := none }
    else s

/-- LISTEN_EXPIRY: four announce intervals in LISTEN are over (Table 2-2). -/
def listenExpiry (s : State) : State :=
  if s.inv.state == .listen && decide (4 * s.annInt ≤ s.locSince s.inv.enteredAt) then
    let best := match s.rootView with
      | some v => candBeats s.ownCand v.cand
      | none => true
    if s.eligible && best then s.becomeRoot
    else match s.bestParent with
      | some p =>
        ((s.setInv fun i => { i with acqCount := 0, stepped := false, goodRun := 0 }).enterTime .acquire).setParent p
      | none => s
  else s

/-- FT_STEP: sixteen exchanges with the parent are complete; the rate is set from the measured frequency, which is a free
value in the range of INV_FREQ_ADJ (DESIGN CHOICE, log entry 10), FT steps by −offset, and the averages start again (R38). The
integral term starts again too, and nowhere else: R38 names no other start of it (DESIGN CHOICE, log entry 130). -/
def ftStep (s : State) : State :=
  if s.inv.state == .acquire && !s.inv.stepped && decide (16 ≤ s.inv.acqCount) then
    let (f, s1) := s.freeBelow (2 * 13107200)
    let s2 := s1.wr R.INV_FREQ_ADJ [] (w64 (ofSigned 32 ((f : Int) - 13107200)))
    let s3 := match s2.inv.parent with
      | some p => s2.setPtime p { s2.ptime p with seen := 0, sum := 0 }
      | none => s2
    s3.setInv fun i => { i with stepped := true, goodRun := 0, integ := 0,
                                ft := w64 (ofSigned 64 ((i.ft.toNat : Int) - i.offset / 16)) }
  else s

/-- ACQUIRE_COMPLETE (Table 2-2, R38). -/
def acquireComplete (s : State) : State :=
  match s.inv.parent with
  | some p =>
    if s.inv.state == .acquire && s.inv.stepped && decide (64 ≤ (s.ptime p).seen) && decide (16 ≤ s.inv.goodRun) then
      (s.enterTime .track).updSpec
    else s
  | none => s

/-- Does the exchange with the parent move to the port's other lane: its link trains alone, or has just come up again (R38, R418)? -/
def State.movingLane (s : State) (p : Nat) : Bool :=
  let x := s.port p
  s.inv.suspended.isSome && (x.st == .train || x.st == .config || x.st == .lock ||
    (x.st == .active && decide (s.locSince x.since < 3 * s.annInt)))

/-- Is the parent lost: link not up, or silent for 3 announce intervals (Table 2-2)? A device whose parent exchange moves to
the other lane stays in TRACK (R38), so that neither counts meanwhile (DEDUCED, log entry 131). -/
def State.parentGone (s : State) (p : Nat) : Bool :=
  !s.movingLane p && (!s.linkUp p || decide (3 * s.annInt ≤ s.locSince (s.ptime p).heardAt))

/-- PARENT_LOST (Table 2-2): ACQUIRE goes back to LISTEN, TRACK to HOLDOVER; HOLDOVER goes on without a parent. -/
def parentLost (s : State) : State :=
  match s.inv.parent with
  | none => s
  | some p =>
    if !s.parentGone p then s else
    match s.inv.state with
    | .acquire => ((s.setInv fun i => { i with parent := none, suspended := none }).enterTime .listen).updSpec
    | .track => s.enterHoldover.chooseParent
    | .holdover => ((s.setInv fun i => { i with parent := none, goodRun := 0, suspended := none }).chooseParent).updSpec
    | _ => s

/-- HOLDOVER_CLEAR: following a parent, good_run reaches 16 (Table 2-2). -/
def holdoverClear (s : State) : State :=
  if s.inv.state == .holdover && s.inv.parent.isSome && decide (16 ≤ s.inv.goodRun) then (s.enterTime .track).updSpec
  else s

/-- TIME_HOLDOVER_LONG, once (Table 2-2). -/
def timeHoldoverLong (s : State) : State :=
  if s.inv.state == .holdover && !s.inv.holdLong &&
      decide ((s.rd R.INV_HOLD_LIMIT).toNat * 1000 * ticksPerUs < s.locSince s.inv.enteredAt) then
    (s.setInv fun i => { i with holdLong := true }).invEvent 1 0x11
  else s

/-- INV_HOLD_ERR in 1/16 tick: 50 ps and the drift since the device left TRACK or ROOT (Table 2-3, Table 2-5); 1 ppb of
t ticks is 16 t / 10^9 sixteenths, and 50 ps are 3.2, taken up to 4. -/
def State.holdErr (s : State) : Nat :=
  match s.inv.state with
  | .holdover | .unsync =>
    (50 * 64 + s.locSince s.inv.leftAt * (s.rd R.INV_HOLD_DRIFT).toNat * 16 * 1000 / 1000000000 + 999) / 1000
  | _ => 0

/-- The pin error of a PPS edge against FT, in 1/16 tick, between −2·10^9·16 and 2·10^9·16 (R49). -/
def ppsError (stamp offset : Nat) : Int :=
  let m := 16 * 4000000000
  let e := (stamp + m - 16 * offset % m) % m
  if e * 2 < m then (e : Int) else (e : Int) - (m : Nat)

/-- PPS_EDGE (R49, R50): the first edge after an entry to ROOT from LISTEN steps FT, however late PPS_EN is set (DESIGN CHOICE, log
entry 132); later errors are slewed toward the edge, at a rate that is a free value within INV_SLEW_MAX (DESIGN CHOICE, log entry 10).
`ten` says that TIME_10M_IN is present again: the manual does not say how a lost one is taken back (DESIGN CHOICE, log entry 133). -/
def ppsEdge (f : Nat) (ten : Bool) (s : State) : State :=
  let s0 := s.setInv fun i => { i with ppsLast := some i.loc, ref10mLost := i.ref10mLost && !ten }
  if s.inv.state == .root && s.fb F.INV_CTRL_PPS_EN then
    let e := ppsError (16 * s.ft.toNat + f % 16) (s.rd R.INV_PPS_OFFSET).toNat
    let good := decide (e.natAbs * 15625 ≤ 200000)
    let s1 := s0.wrSigned R.INV_PPS_SKEW [] e
    let s2 := s1.setInv fun i =>
      let n := if good then i.ppsGood + 1 else 0
      { i with ppsGood := n, extLock := i.extLock || decide (4 ≤ n) }
    if !s.inv.ppsAligned then
      s2.setInv fun i => { i with ppsAligned := true, ft := w64 (ofSigned 64 ((i.ft.toNat : Int) - e / 16)) }
    else if e == 0 then s2
    else
      let lim := s2.slewLimit.toNat
      let (r, s3) := s2.freeBelow (lim - 1)
      let r := min (r + 1) lim
      s3.wr R.INV_FREQ_ADJ [] (w64 (ofSigned 32 (if 0 < e then (r : Int) else -(r : Int))))
  else s0

/-- PPS_LOSS: a root sees no edge for 1.1 s (R50). -/
def ppsLoss (s : State) : State :=
  match s.inv.ppsLast with
  | some l =>
    if s.inv.state == .root && decide (1100000 * ticksPerUs ≤ s.locSince l) then
      (s.setInv fun i => { i with extLock := false, ppsGood := 0, ppsLast := none }).invEvent 5 0x14
    else s
  | none => s

/-- REF10M_LOSS: TIME_10M_IN is missing for 10 expected cycles; the PLL returns to the fabric reference (R50). -/
def ref10mLoss (s : State) : State :=
  if s.inv.ref10mLost then s else (s.setInv fun i => { i with ref10mLost := true }).invEvent 6 0x15

/-- May TIME_PPS_OUT be driven (R51)? -/
def State.ppsOutOn (s : State) : Bool :=
  s.fb F.INV_CTRL_PPSOUT_EN && s.ftValid && !s.inSafe

/-- PPS_OUT_PULSE (R51). -/
def ppsOutPulse (s : State) : State :=
  let off := (s.rd R.INV_PPSOUT_OFFSET).toNat
  if s.ppsOutOn && (s.ft.toNat + 4000000000 - off % 4000000000) % 4000000000 == 0 then
    (s.setInv fun i => { i with ppsOutEnd := some (w64 (i.ft.toNat + (s.rd R.INV_PPSOUT_WIDTH).toNat)) }).emit
      (.pin "TIME_PPS_OUT" true)
  else s

/-- PPS_OUT_END: the width has passed, or the pin may no longer be driven (R51). -/
def ppsOutEnd (s : State) : State :=
  match s.inv.ppsOutEnd with
  | some v =>
    if s.ftReached v || !s.ppsOutOn then (s.setInv fun i => { i with ppsOutEnd := none }).emit (.pin "TIME_PPS_OUT" false)
    else s
  | none => s

/-- An ARMED route-table bank becomes FREE (Table 13-8). -/
def State.routeDisarm (s : State) : State :=
  let off (b : Nat) : Nat := if b == 1 then 0 else b
  { s with route := { s.route with bank0 := off s.route.bank0, bank1 := off s.route.bank1 } }

/-- INV_CTRL.ENABLE written 1: exchanges start, and DISABLED becomes LISTEN (Table 2-2). -/
def invEnable (s : State) : State :=
  let s1 := s.fset F.INV_CTRL_ENABLE [] true
  if s.inv.state == .disabled then
    (s1.setInv fun i => { i with root := none, staleAt := none, await := none, standby := none, parent := none }).enterTime .listen
  else s1

/-- INV_CTRL.ENABLE written 0 (Table 2-2): exchanges stop, triggers are cancelled, and an ARMED bank becomes FREE. TC6
closes because FT is not valid. -/
def invDisable (s : State) : State :=
  let s1 := s.fset F.INV_CTRL_ENABLE [] false
  if s.inv.state == .disabled then s1 else
  let s2 := s1.setInv fun i =>
    { i with
      parent := none
      suspended := none
      await := none
      extLock := false
      ppsGood := 0
      goodRun := 0
      ports := SMap.mapVals PortTime.init (fun _ t => { t with outstanding := [], heard := none }) i.ports }
  (s2.enterTime .disabled).cancelTriggers.routeDisarm.updSpec

/-- INV_CTRL.REACQUIRE written 1: in UNSYNC, VALID clears, armed triggers end with TIME_STEPPED, and the device listens
(Table 2-2). -/
def reacquire (s : State) : State :=
  if s.inv.state == .unsync then
    ((s.setInv fun i => { i with parent := none, suspended := none, goodRun := 0 }).enterTime .listen).cancelTriggers.updSpec
  else s

/-- INV_STATUS (Table 2-7). -/
def State.invStatus (s : State) : Word :=
  w64 (b2n s.ftValid * 2 ^ 31 + b2n s.inv.specMet * 2 ^ 30 + b2n s.holdover * 2 ^ 29 + b2n s.extLocked * 2 ^ 28 +
    b2n s.isStandby * 2 ^ 27 + min s.depth 15 * 2 ^ 16 + b2n s.inv.parent.isSome * 2 ^ 15 +
    s.inv.parent.getD 0 * 2 ^ 8 + s.inv.state.code)

/-- The exchange with the parent moves off a lane that is given up: the rate stays, and the servo waits for 64 new delay samples
(R38). -/
def State.moveLane (s : State) (p l : Nat) : State :=
  if s.inv.parent == some p && s.inv.state == .track && l == (s.port p).timeLane && !(s.port p).oneLane then
    (s.setPtime p { s.ptime p with seen := 0, sum := 0 }).setInv fun i => { i with suspended := some 64 }
  else s

/-- A port reset: INV_PORT_DELAY reads 0 until 64 new samples are averaged (Table 23-5). -/
def State.resetDelay (s : State) (p : Nat) : State :=
  (s.setPtime p { s.ptime p with seen := 0, sum := 0, delay := 0, mute := true }).wr R.INV_PORT_DELAY [p] 0

/-! ## The commands -/

/-- INV_ENABLE (R46). -/
def execInvEnable (path : Path) (s : State) : Host.Outcome State Fault Refusal :=
  .next (if s.mayWrite path R.INV_CTRL.base then invEnable s else s)
/-- INV_DISABLE (R46). -/
def execInvDisable (path : Path) (s : State) : Host.Outcome State Fault Refusal :=
  .next (if s.mayWrite path R.INV_CTRL.base then invDisable s else s)
/-- REACQUIRE (R46, R48). -/
def execReacquire (path : Path) (s : State) : Host.Outcome State Fault Refusal :=
  .next (if s.mayWrite path R.INV_CTRL.base then reacquire s else s)
/-- SYNC (R35). -/
def execSync (p f : Nat) (s : State) : Host.Outcome State Fault Refusal := .next (s.live (sync p f))
/-- SYNC_RECEIVED (R362). -/
def execSyncReceived (p id f dt : Nat) (s : State) : Host.Outcome State Fault Refusal := .next (s.live (syncReceived p id f dt))
/-- SYNC_REPLY_RECEIVED (R38). -/
def execSyncReplyReceived (p id t2 t3 f : Nat) (s : State) : Host.Outcome State Fault Refusal :=
  .next (s.live (syncReplyReceived p id t2 t3 f))
/-- EXCHANGE_LOST (R362). -/
def execExchangeLost (p : Nat) (s : State) : Host.Outcome State Fault Refusal := .next (s.live (exchangeLost p))
/-- ANNOUNCE (R35). -/
def execAnnounce (s : State) : Host.Outcome State Fault Refusal := .next (announce s)
/-- ANNOUNCE_RECEIVED (R40). -/
def execAnnounceReceived (p : Nat) (a : Announce) (s : State) : Host.Outcome State Fault Refusal :=
  .next (s.live (announceReceived p a))
/-- ROOT_STALE (R41). -/
def execRootStale (s : State) : Host.Outcome State Fault Refusal := .next (s.live rootStale)
/-- STANDBY_WAIT_EXPIRY (R42). -/
def execStandbyWaitExpiry (s : State) : Host.Outcome State Fault Refusal := .next (s.live standbyWaitExpiry)
/-- LISTEN_EXPIRY (R46). -/
def execListenExpiry (s : State) : Host.Outcome State Fault Refusal := .next (s.live listenExpiry)
/-- FT_STEP (R46). -/
def execFtStep (s : State) : Host.Outcome State Fault Refusal := .next (s.live ftStep)
/-- ACQUIRE_COMPLETE (R46). -/
def execAcquireComplete (s : State) : Host.Outcome State Fault Refusal := .next (s.live acquireComplete)
/-- PARENT_LOST (R46). -/
def execParentLost (s : State) : Host.Outcome State Fault Refusal := .next (s.live parentLost)
/-- HOLDOVER_CLEAR (R46). -/
def execHoldoverClear (s : State) : Host.Outcome State Fault Refusal := .next (s.live holdoverClear)
/-- TIME_HOLDOVER_LONG (R46). -/
def execTimeHoldoverLong (s : State) : Host.Outcome State Fault Refusal := .next (s.live timeHoldoverLong)
/-- PPS_EDGE (R49). -/
def execPpsEdge (x : PpsEdgeIn) (s : State) : Host.Outcome State Fault Refusal := .next (s.live (ppsEdge x.f x.ten))
/-- PPS_LOSS (R50). -/
def execPpsLoss (s : State) : Host.Outcome State Fault Refusal := .next (s.live ppsLoss)
/-- REF10M_LOSS (R50). -/
def execRef10mLoss (s : State) : Host.Outcome State Fault Refusal := .next (s.live ref10mLoss)
/-- PPS_OUT_PULSE (R51). -/
def execPpsOutPulse (s : State) : Host.Outcome State Fault Refusal := .next (ppsOutPulse s)
/-- PPS_OUT_END (R51). -/
def execPpsOutEnd (s : State) : Host.Outcome State Fault Refusal := .next (ppsOutEnd s)

end Sys2Proof.Machine
end

