-- ==== Sys2Proof/Machine/Fabric.lean ====
section
/-! DEFINITION. Machine/Fabric.lean: command blocks, their checks and their acceptance, and the instructions of chapter 4 that
work on registers: time reads, `waitft`, handles, `wfpush` and `wfpop` (R98 to R109, R120 to R125, R132). -/
namespace Sys2Proof.Machine

/-! ## Fields of command blocks -/

/-- KIND values (Table 4-1). -/
def kPut : Nat := 1
def kGet : Nat := 2
def kAmo : Nat := 3
def kSend : Nat := 4
def kFlush : Nat := 5
def kFence : Nat := 6
def kMcast : Nat := 7
def kQfetch : Nat := 8
def kCqpost : Nat := 9
def kMatch : Nat := 0xA
def kTrig : Nat := 0xB
def kDma : Nat := 0xC
def kTlbinv : Nat := 0xD
def kAmlsub : Nat := 0xE

/-- Flags of the instruction (Table 4-1). -/
def fImm (fl : Nat) : Bool := nbit fl 0
def fSeal (fl : Nat) : Bool := nbit fl 1
def fRlx (fl : Nat) : Bool := nbit fl 2
def fRed (fl : Nat) : Bool := nbit fl 3
def fFree (fl : Nat) : Bool := nbit fl 0

/-- Fields of the fabric blocks (R109, Tables 4-5 to 4-9). -/
def bDest (b : List Byte) : Nat := leAt b 8 3
def bPath (b : List Byte) : Nat := leAt b 11 1
def bChan (b : List Byte) : Nat := bPath b % 16
def bTc (b : List Byte) : Nat := nbits (bPath b) 6 4
def bSeq (b : List Byte) : BitVec 32 := BitVec.ofNat 32 (leAt b 12 4)
def bLen (b : List Byte) : Nat := leAt b 16 4
def bIso (b : List Byte) : Nat := leAt b 20 2
def bSrc (b : List Byte) : Nat := leAt b 22 1
def bKeyA (b : List Byte) : Nat := leAt b 24 4
def bKeyB (b : List Byte) : Nat := leAt b 28 4
def bVaA (b : List Byte) : Nat := leAt b 32 8
def bVaB (b : List Byte) : Nat := leAt b 40 8
def bImm (b : List Byte) : Nat := leAt b 48 4
def bInline (b : List Byte) : List Byte := byteSlice b 56 8

/-- The packet size of a PMTU code (Table 4-5). -/
def pmtu (code : Nat) : Nat := 4096 / 2 ^ (code % 4)

/-- Are the bytes from i up to but not including j all zero? -/
def zeros (b : List Byte) (i j : Nat) : Bool := leAt b i (j - i) == 0

/-- A frame offset in its range: a multiple of al, from 0x400, with n bytes in the frame (R100). -/
def frameOk (off al n : Nat) : Bool := off % al == 0 && decide (0x400 ≤ off) && decide (off + n ≤ 0x3000)

/-- The header's own rules (Table 4-2). -/
def headerOk (b : List Byte) : Bool :=
  !nbit (blkCompl b) 7 && (blkMode b == 0 || frameOk (blkStatusOff b) 8 8)

/-- The PATH byte: TC 0 to 6, bit 7 reserved (R109). -/
def pathOk (b : List Byte) : Bool := bTc b != 7 && !nbit (bPath b) 7

/-- The longest message (Tables 4-5, 4-6, 4-8, 4-9). -/
def maxLen : Nat := 4194304
/-- The longest TIMEOUT in µs (Table 4-6). -/
def maxTimeout : Nat := 1000000

/-- Do the device's own row and column position stand in MASK (R117)? -/
def State.maskHasSelf (s : State) (b : List Byte) : Bool :=
  let pos := if nbit (bSrc b) 0 then s.fd F.ROUTE_SELF_POS_ROW else s.fd F.ROUTE_SELF_POS_COL
  nbit (leAt b 28 2) pos

/-- AMLSUB's combinations (R131). -/
def amlOk (b : List Byte) : Bool :=
  let op := leAt b 10 1
  let ty := leAt b 11 1
  let mode := leAt b 12 1
  let m := mode % 4
  let inF := nbits mode 3 2
  let outF := nbits mode 5 4
  let floating := decide (8 ≤ ty) && decide (ty ≤ 13)
  let n := leAt b 20 2
  let li := leAt b 22 2
  zeros b 13 14 && zeros b 28 32 && zeros b 48 64 && nbits (leAt b 8 2) 15 12 == 0 && decide (op ≤ 6) &&
  (decide (ty ≤ 3) || floating) && nbits mode 7 6 == 0 && m != 3 && inF != 3 && outF != 3 &&
  decide (1 ≤ leAt b 16 4) && decide (leAt b 16 4 ≤ 16777216) && decide (1 ≤ n) && leAt b 24 4 / 2 ^ 20 == 0 &&
  (m == 0 || (op == 0 && floating)) && (m == 2 || (inF == 0 && outF == 0)) && (op != 6 || floating) &&
  (li == 0xFFFF || decide (li < n))

/-- Does a block keep the rules of its kind (R104, Tables 4-5 to 4-15)? A set reserved field breaks them (DEDUCED, log entry 19).
`fl` are the flags of the instruction; for MATCH it is 0 mpost, 1 mmatch, 2 mcancel. -/
def State.blockOk (s : State) (kind fl : Nat) (b : List Byte) : Bool :=
  match kind with
  | 1 =>
    let k := bSrc b % 4
    pathOk b && decide (bLen b ≤ maxLen) && k != 3 && nbits (bSrc b) 7 4 == 0 && zeros b 23 24 &&
      (k != 0 || bKeyA b / 2 ^ 20 == 0) && (k != 1 || decide (bLen b ≤ 8)) &&
      (if fRed fl then bKeyB b / 2 ^ 12 == 0 && bImm b / 2 ^ 16 == 0 else fImm fl || bImm b == 0) && zeros b 52 56
  | 2 =>
    pathOk b && decide (1 ≤ bLen b) && decide (bLen b ≤ maxLen) && decide (bSrc b ≤ 1) && zeros b 23 24 &&
      (bSrc b != 0 || bKeyA b / 2 ^ 20 == 0) && decide (bImm b ≤ maxTimeout) && zeros b 52 64
  | 3 =>
    let op := leAt b 16 1
    pathOk b && decide (op % 16 ≤ 9) && nbits op 7 5 == 0 && zeros b 17 20 && zeros b 22 28 &&
      bVaB b % (if nbit op 4 then 4 else 8) == 0 && decide (leAt b 56 4 ≤ maxTimeout) && zeros b 60 64
  | 4 =>
    let k := bSrc b % 4
    pathOk b && decide (bLen b ≤ maxLen) && decide (k ≤ 1) && nbits (bSrc b) 7 4 == 0 && zeros b 23 24 &&
      (k != 0 || bKeyA b / 2 ^ 20 == 0) && (k != 1 || decide (bLen b ≤ 8)) && zeros b 30 32 && zeros b 52 56
  | 5 => pathOk b && zeros b 16 20 && zeros b 22 48 && decide (bImm b ≤ maxTimeout) && zeros b 52 64
  | 6 => zeros b 8 64
  | 7 =>
    let k := nbits (bSrc b) 2 1
    pathOk b && zeros b 10 11 && decide (bLen b ≤ maxLen) && decide (k ≤ 1) && nbits (bSrc b) 7 5 == 0 &&
      zeros b 23 24 && (k != 0 || bKeyA b / 2 ^ 20 == 0) && (k != 1 || decide (bLen b ≤ 8)) && leAt b 28 2 != 0 &&
      !s.maskHasSelf b && (if fRed fl then leAt b 30 2 / 2 ^ 12 == 0 && bImm b / 2 ^ 16 == 0
        else leAt b 30 2 == 0 && bImm b == 0) && zeros b 52 56
  | 8 =>
    let n := leAt b 12 1
    leAt b 8 4 / 2 ^ 18 == 0 && decide (1 ≤ n) && decide (n ≤ 8) && zeros b 13 14 && frameOk (leAt b 14 2) 64 (64 * n) &&
      zeros b 16 64
  | 9 => zeros b 10 12 && nbits (leAt b 12 4) 30 18 == 0 && zeros b 18 32
  | 10 =>
    let sel := leAt b 11 1
    zeros b 10 11 && decide (sel ≤ 1) && (sel == 0 || fl == 0) && zeros b 15 16 && (fl == 0 || zeros b 24 32) &&
      zeros b 40 64
  | 11 =>
    let a := leAt b 16 1
    decide (a ≤ 1) && zeros b 17 18 && (a == 0 || frameOk (leAt b 18 2) 64 64) && leAt b 20 2 / 16 == 0 && zeros b 22 64
  | 12 =>
    let n := leAt b 8 4
    let sk := leAt b 12 1
    let dk := leAt b 13 1
    decide (1 ≤ n) && decide (n ≤ 16777216) && decide (sk ≤ 4) && decide (dk ≤ 2) && (sk != 3 || decide (n ≤ 8)) &&
      (sk != 0 || leAt b 16 4 / 2 ^ 20 == 0) && (dk != 0 || leAt b 20 4 / 2 ^ 20 == 0) && zeros b 40 56
  | 13 =>
    decide (leAt b 8 1 ≤ 2) && zeros b 9 12 && leAt b 12 4 / 2 ^ 20 == 0 && (leAt b 8 1 != 2 || leAt b 24 8 != 0) &&
      zeros b 32 64
  | 14 => amlOk b
  | _ => false

/-- Does the level of the thread forbid what the block names (R99)? -/
def blockDenied (kind priv xask : Nat) (b : List Byte) : Bool :=
  let far (ask : Nat) : Bool := priv == 0 && ask != xask
  match kind with
  | 1 => (bSrc b % 4 == 0 && far (bKeyA b)) || (bSrc b % 4 == 2 && priv == 0)
  | 2 => (bSrc b % 4 == 0 && far (bKeyA b)) || (bSrc b % 4 == 1 && priv != 2)
  | 4 => bSrc b % 4 == 0 && far (bKeyA b)
  | 12 => priv != 2 && (leAt b 12 1 == 1 || leAt b 13 1 == 1)
  | _ => false

/-! ## The Endpoint Table (R316) -/

/-- Where the Endpoint Table entry of an EPID stands (R316); the address is cut to 36 bits, as the base is (DESIGN CHOICE, log entry
38). -/
def State.eptKey (s : State) (epid : Nat) : Nat := hbmKey ((s.fd F.ROUTE_EPT_BASE_BASE * 4096 + epid * 16) % 2 ^ 36)

/-- The set of the 8-way Endpoint Table cache of 32,768 entries that an EPID stands in (R316; which one: DESIGN CHOICE, log entry 15). -/
def eptSet (epid : Nat) : Nat := Config.cacheSet 2 epid 0 % 4096

/-- Room for an EPID in its set: when the eight ways are taken one leaves, which one is free (DESIGN CHOICE, log entry 15). -/
def State.eptRoom (s : State) (epid : Nat) : State :=
  let ways := (s.eptCache.map (·.1)).filter fun e => eptSet e == eptSet epid
  if ways.length < 8 then s else
  let (i, s1) := s.freeBelow 7
  { s1 with eptCache := s1.eptCache.set none (ways.getD i epid) none }

/-- The DN and function index of an EPID, through the on-die cache, which a miss fills (R315, R316); none for an EPID at
or above the table size, V = 0 or a set reserved bit. -/
def State.resolve (s : State) (epid : Nat) : Option (Nat × Nat) × State :=
  if 2 ^ s.fd F.ROUTE_EPT_CFG_LOG2_ENTRIES ≤ epid then (none, s) else
  let (v, s1) := match s.eptCache.get none epid with
    | some v => (v, s)
    | none =>
      let v := s.mnat (s.eptKey epid) 8
      let s2 := (s.bump R.ROUTE_EPT_MISS_COUNT).eptRoom epid
      (v, { s2 with eptCache := s2.eptCache.set none epid (some v) })
  if nbit v 31 && nbits v 30 27 == 0 && v / 2 ^ 32 == 0 then (some (nbits v 26 10, nbits v 9 0), s1) else (none, s1)

/-! ## Acceptance (R102 to R104) -/

/-- An operation takes a slot (R102): the lowest free one, with its next generation. -/
def State.takeSlot (s : State) (c kind fl : Nat) (origin : Origin) (block : List Byte) : Option (Nat × State) :=
  (s.freeSlot c).map fun k =>
    let o : Op := { Op.free with
      kind := kind, flags := fl, gen := nextGen (s.op k).gen, origin := origin, block := block, status := none
      delivered := false, order := s.orders + 1, at_ := s.loc }
    (k, { s.setOp k o with orders := s.orders + 1 })

/-- The bytes of LDM that a thread may read through a near address: none outside what its level allows (Table 3-1,
R65). -/
def State.ldmOk (s : State) (t a n : Nat) : Bool :=
  let base := 2 ^ 63
  let off := a - base
  let inFrame := decide (tPlace t * 0x3000 ≤ off) && decide (off + n ≤ tPlace t * 0x3000 + 0x3000)
  let shared := decide (0xC000 ≤ off) && decide (off + n ≤ 0x10000)
  decide (base ≤ a) && decide (off + n ≤ 0x10000) && match (s.thread t).priv with
    | 0 => inFrame
    | 1 => inFrame || shared
    | _ => true

/-- The memory key of a near LDM address of a thread's engine. -/
def ldmAddrKey (t a : Nat) : Nat := ldmKey (tEngine t) (a - 2 ^ 63)

/-- An area of LDM that an instruction names by register rs1: aligned and in range, with the registers `srcs` good, or its exception
(R100, R82). -/
def State.withLdm (s : State) (t rs1 al n : Nat) (srcs : List Nat) (k : Nat → State → State) : State :=
  let th := s.thread t
  let a := (s.reg t (rs1 % 32))
  if a.toNat % al != 0 then s.takeExc t excMisaligned a th.pc
  else if !s.ldmOk t a.toNat n then s.takeExc t excNearRange a th.pc
  else match s.badReg t srcs with
    | some i => s.takeExc t excParity (w64 (0x100 + i)) th.pc
    | none => k (ldmAddrKey t a.toNat) s

/-- The same for n bytes that the instruction reads: a bad word among them is LDM_PARITY, whose eval gives the LDM address as an offset
in the LDM (DESIGN CHOICE, log entry 139). -/
def State.withLdmRead (s : State) (t rs1 key n : Nat) (k : State → State) : State :=
  if s.bad key n then s.takeExc t excParity (w64 ((s.reg t (rs1 % 32)).toNat - 2 ^ 63)) (s.thread t).pc else k s

/-- What becomes of an accepted operation, as `start` is told: 2 CMD_INVALID for a block that breaks a rule (R104), 3 ACCESS for what
its thread's level forbids (R99), 0 it starts. -/
def State.acceptOp (s : State) (k priv xask : Nat) (start : Nat → Nat → State → State) : State :=
  let o := s.op k
  if blkKind o.block != o.kind || !headerOk o.block || !s.blockOk o.kind o.flags o.block then start k 2 s
  else if blockDenied o.kind priv xask o.block then start k 3 s
  else start k 0 s

/-- The immediate of a command whose bits [1:0] say which instruction of its major it is: `own` is its code, `all` how many the major
has. The code of another one is read as its own; a code that is none stays, and is ILLEGAL_INSN, for the first of the major (R98). -/
def selImm (own all imm : Nat) : Nat := imm / 4 * 4 + if own == 0 && decide (all ≤ imm % 4) then imm % 4 else own

/-- Flags of the instruction, kept with its operation: which match command it is, or those of a put, multicast or transfer (Table 4-1). -/
def immFlags (kind imm : Nat) : Nat :=
  if kind == kMatch then imm % 4 else if kind == kPut || kind == kMcast || kind == kDma then imm % 16 else 0

/-- A command-block instruction (R98 to R104): NB is bit 15. `legal` are the bits that the immediate may have; `ready`
says whether the target unit can take the command; `ext` is what else is read at issue, kept behind the block. A refused
instruction without NB stays to be presented again, and its thread is not ready for another. -/
def State.submit (s : State) (t rd rs1 major imm kind level : Nat) (legal : Bool) (ready : State → List Byte → Bool)
    (start : Nat → Nat → State → State) (ext : State → List Byte → List Byte := fun _ _ => []) : State :=
  let nb := nbit imm 15
  let fl := immFlags kind imm
  s.issue t (wordI major rd rs1 imm) 4 legal level [] fun s =>
    s.withLdm t rs1 64 64 [rs1 % 32] fun key s => s.withLdmRead t rs1 key 64 fun s =>
      let th := s.thread t
      let block := s.mread key 64
      let slot := if decide ((s.threadOps t th.run).length < 64) && ready s block then
          s.takeSlot (tCluster t) kind fl (.thread t th.run) (block ++ ext s block) else none
      match slot with
      | none => if nb then s.writeNext t (rd % 32) 4 0 else s.tryAgain t
      | some (k, s1) =>
        ((s1.writeNext t (rd % 32) 4 (w64 (handleOf k (s1.op k).gen))).pmuEng (tEngine t) 8 th.priv).acceptOp k th.priv th.xask start

/-- Only bits of a mask may be set in an immediate (R98). -/
def immWithin (imm mask : Nat) : Bool := imm % 2 ^ 16 == imm &&& mask

/-! ## Time instructions (R123, R124) -/

/-- The status word of `rdts` (R123). -/
def State.timeStatus (s : State) : Word :=
  w64 (s.inv.state.code * 8 + b2n s.inv.specMet * 4 + b2n s.holdover * 2 + b2n s.ftValid)

/-- The fn field of the first instruction of a format A major of chapter 4: the codes of the major's other instructions are read as
its own, and a code that is none is ILLEGAL_INSN (R98). -/
def firstFn (all fn : Nat) : Nat := if fn % 2 ^ 11 < all then 0 else fn % 2 ^ 11

/-- RDFT; its register fields but rd are reserved, as those of the other time reads (R98). -/
def rdft (t rd rs1 rs2 fn : Nat) (s : State) : State :=
  let f := firstFn 4 fn
  s.issue t (wordA 0x39 rd rs1 rs2 f) 4 (rs1 % 32 == 0 && rs2 % 32 == 0 && f == 0) 0 [] fun s => s.writeNext t (rd % 32) 4 s.ft
/-- RDLT. -/
def rdlt (t rd rs1 rs2 : Nat) (s : State) : State :=
  s.issue t (wordA 0x39 rd rs1 rs2 1) 4 (rs1 % 32 == 0 && rs2 % 32 == 0) 0 [] fun s => s.writeNext t (rd % 32) 4 s.loc
/-- RDTS. -/
def rdts (t rd rs1 rs2 : Nat) (s : State) : State :=
  s.issue t (wordA 0x39 rd rs1 rs2 2) 4 (rs1 % 32 == 0 && rs2 % 32 == 0) 0 [] fun s => s.writeNext t (rd % 32) 4 s.timeStatus

/-- WAITFT (R124). A target already reached ends it at once with 0. -/
def waitft (t rd rs1 rs2 : Nat) (s : State) : State :=
  s.issue t (wordA 0x39 rd rs1 rs2 3) 4 (rs2 % 32 == 0) 0 [rs1 % 32] fun s =>
    let v := s.reg t (rs1 % 32)
    if !s.ftValid then s.writeNext t (rd % 32) 4 1
    else if s.ftReached v then s.writeNext t (rd % 32) 4 0
    else s.setWait t (.ft v (rd % 32))

/-- WAITFT_WAKE: the watchdog has expired, FT is no longer valid, or FT has reached the target (R124). -/
def waitftWake (t : Nat) (s : State) : State :=
  let th := s.thread t
  match th.wait with
  | .ft v rd =>
    let stop (x : Word) : State := (s.writeNext t rd 4 x).setWait t .ready
    if s.inSafe || !th.running then s
    else if th.expired then stop 3
    else if !s.ftValid then stop 4
    else if s.ftReached v then stop (if s.holdover then 2 else 0)
    else s
  | _ => s

/-! ## Handles (R132) -/

/-- The slot that a handle names, if it is not stale. -/
def State.handleOp (s : State) (h : Word) : Option Nat :=
  match handleKey h.toNat with
  | some (k, gen) => if (s.op k).gen == gen then some k else none
  | none => none

/-- OPSTAT. -/
def opstat (t rd rs1 rs2 fn : Nat) (s : State) : State :=
  let f := firstFn 4 fn
  s.issue t (wordA 0x3E rd rs1 rs2 f) 4 (rs2 % 32 == 0 && f == 0) 0 [rs1 % 32] fun s =>
    s.writeNext t (rd % 32) 4 (match s.handleOp (s.reg t (rs1 % 32)) with
      | some k => w64 ((s.op k).status.getD 0xFF)
      | none => 0xFE)

/-- OPWAIT. -/
def opwait (t rd rs1 rs2 : Nat) (s : State) : State :=
  s.issue t (wordA 0x3E rd rs1 rs2 1) 4 (rs2 % 32 == 0) 0 [rs1 % 32] fun s =>
    match s.handleOp (s.reg t (rs1 % 32)) with
    | none => s.writeNext t (rd % 32) 4 0xFE
    | some k => match (s.op k).status with
      | some st => s.writeNext t (rd % 32) 4 (w64 st)
      | none => s.setWait t (.op k (s.op k).gen (rd % 32))

/-! ## Work FIFO instructions (R120, R121) -/

/-- WFPUSH (R120). It has pushed its item once that has its space: the item is committed by ITEM_COMMIT, which may rewind it (R138,
R139; DEDUCED, log entry 144). -/
def wfpush (t rd rs1 rs2 fn : Nat) (s : State) : State :=
  let f := firstFn 2 fn
  s.issue t (wordA 0x37 rd rs1 rs2 f) 4 (f == 0) 1 [] fun s =>
    let v := (s.reg t (rs2 % 32)).toNat
    let len := nbits v 23 20 + 1
    let ty := nbits v 15 8
    let c := v % 64
    let control := (s.thread t).priv == 2
    s.withLdm t rs1 64 (64 * len) [rs1 % 32, rs2 % 32] fun key s =>
      if v / 2 ^ 24 != 0 || nbit v 19 || decide (s.clusterCount ≤ c) || ty == 0xEF || decide (0xEF ≤ ty) ||
          (!control && decide (ty < 0x80)) then s.writeNext t (rd % 32) 4 2
      else
        let own := c == tCluster t
        let bytes := s.mread key (64 * len)
        let it : Item := { ty := ty, len := len, prio := nbits v 18 16, src := if own then 3 else 4,
                           srcCluster := tCluster t, commitNs := 0, body := bytes.take 56 ++ bytes.drop 64 }
        let k := 4 * c + nbits v 7 6
        match s.wfStart k control it .plain with
        | some s1 => s.withLdmRead t rs1 key (64 * len) fun _ => s1.writeNext t (rd % 32) 4 0
        | none => (s.wfFull k).writeNext t (rd % 32) 4 1

/-- WFPOP (R121, R140). With nothing to take it only gives 0. The area has no alignment of its own (DEDUCED, log entry 143). `ecc` as in
DISPATCH; what rd then holds after an uncorrectable error is a free value (DESIGN CHOICE, log entry 17). -/
def wfpop (t rd rs1 rs2 ecc : Nat) (s : State) : State :=
  s.issue t (wordA 0x37 rd rs1 rs2 1) 4 true 2 [] fun s =>
    let v := (s.reg t (rs2 % 32)).toNat
    let k := 4 * tCluster t + v % 4
    let head := if v / 4 != 0 || !s.wfPolled k then none else s.wfTake k
    if (s.badReg t [rs2 % 32]).isNone && head.isNone then s.writeNext t (rd % 32) 4 0 else
    s.withLdm t rs1 1 1024 [rs1 % 32, rs2 % 32] fun key s =>
      match head with
      | none => s
      | some (it, s1) =>
        if ecc == 2 then
          let (f, s2) := (s1.report (tsrc 0xF k) 0x32).freeWord
          s2.writeNext t (rd % 32) 4 f
        else
          let s2 := if ecc == 1 then (s1.bump R.WF_ECC_COUNT (wfIx k)).report (tsrc 0xF k) 0x31 else s1
          (s2.mwrite key it.bytes).writeNext t (rd % 32) 4 it.header

/-! ## The commands -/

/-- RDFT (R123). -/
def execRdft (x : IssueRdft) (rd : Nat) (s : State) : Host.Outcome State Fault Refusal := .next (rdft x.t rd x.rs1 x.rs2 x.fn s)
/-- RDLT (R123). -/
def execRdlt (x : IssueRd) (rd : Nat) (s : State) : Host.Outcome State Fault Refusal := .next (rdlt x.t rd x.rs1 x.rs2 s)
/-- RDTS (R123). -/
def execRdts (x : IssueRd) (rd : Nat) (s : State) : Host.Outcome State Fault Refusal := .next (rdts x.t rd x.rs1 x.rs2 s)
/-- WAITFT (R124). -/
def execWaitft (x : IssueRs2) (rd rs1 : Nat) (s : State) : Host.Outcome State Fault Refusal := .next (waitft x.t rd rs1 x.rs2 s)
/-- WAITFT_WAKE (R124). -/
def execWaitftWake (t : Nat) (s : State) : Host.Outcome State Fault Refusal := .next (waitftWake t s)
/-- OPSTAT (R132). -/
def execOpstat (x : IssueOpstat) (rd rs1 : Nat) (s : State) : Host.Outcome State Fault Refusal := .next (opstat x.t rd rs1 x.rs2 x.fn s)
/-- OPWAIT (R132). -/
def execOpwait (x : IssueRs2) (rd rs1 : Nat) (s : State) : Host.Outcome State Fault Refusal := .next (opwait x.t rd rs1 x.rs2 s)
/-- WFPUSH (R120). -/
def execWfpush (x : IssueFn) (rd rs1 rs2 : Nat) (s : State) : Host.Outcome State Fault Refusal := .next (wfpush x.t rd rs1 rs2 x.fn s)
/-- WFPOP (R121). -/
def execWfpop (t rd rs1 rs2 ecc : Nat) (s : State) : Host.Outcome State Fault Refusal := .next (wfpop t rd rs1 rs2 ecc s)

end Sys2Proof.Machine
end

