-- ==== Sys2Proof/Machine/MatchUnit.lean ====
section
/-! DEFINITION. Machine/MatchUnit.lean: the match units: contexts and their lists, `mpost`, `mmatch` and `mcancel`, and the
receives that wait for room (R122, R262, R265, R270, R279, R280). -/
namespace Sys2Proof.Machine

/-- A queue, by its number; the control ring of PF p has 262144 + p. -/
def State.queue (s : State) (qn : Nat) : Queue := s.rings.queues.get Queue.init qn
/-- A queue replaced. -/
def State.setQueue (s : State) (qn : Nat) (x : Queue) : State :=
  { s with rings := { s.rings with queues := s.rings.queues.set Queue.init qn x } }

/-! ## Contexts and the match store -/

/-- A match context. -/
def State.mctx (s : State) (ctx : Nat) : MatchCtx := s.mtch.ctxs.get MatchCtx.init ctx
/-- A context replaced. -/
def State.setMctx (s : State) (ctx : Nat) (x : MatchCtx) : State :=
  { s with mtch := { s.mtch with ctxs := s.mtch.ctxs.set MatchCtx.init ctx x } }

/-- The home cluster of a context (R262). -/
def State.homeOf (s : State) (ctx : Nat) : Nat := ctx % s.clusterCount

/-- Entries of a cluster's match store in use (R265). -/
def State.storeUsed (s : State) (c : Nat) : Nat :=
  ((s.mtch.ctxs.filter fun e => s.homeOf e.1 == c).map fun e => e.2.posted.length + e.2.unexp.length).sum

/-- Does a receive match a message (R270)? -/
def MatchEntry.fits (e : MatchEntry) (src tag : Nat) : Bool := (e.any || e.src == src) && (e.tag ^^^ tag) &&& e.mask == 0

/-- A command of the match unit of cluster c has examined n entries. -/
def State.examined (s : State) (c n : Nat) : State :=
  let s := s.pmuCluster c 0x505
  ((s.bump R.CLU_MATCH_CMD_COUNT [c]).bump R.CLU_MATCH_EXAMINED_COUNT [c] n).maxTo R.CLU_MATCH_SEARCH_MAX [c] n

/-- What a command of the match unit finds: a match with its REF, an entry appended, or a full list. -/
inductive MRes
  | matched (ref : Nat)
  | appended
  | full
deriving DecidableEq, Repr

/-- A list of receives with one put back at its place. -/
def putBack (l : List MatchEntry) (e : MatchEntry) : List MatchEntry :=
  l.takeWhile (fun p => decide (p.ord < e.ord)) ++ e :: l.dropWhile (fun p => decide (p.ord < e.ord))

/-- MPOST at the unit: the oldest unexpected entry that the receive matches is removed, else the receive is appended (R122). One that
comes back from a message that was not consumed takes its former place, whatever room there is (DESIGN CHOICE, log entry 114). -/
def State.unitPost (s : State) (c ctx : Nat) (e : MatchEntry) (back : Option Nat := none) : MRes × State :=
  let x := s.mctx ctx
  match x.unexp.findIdx? (fun u => e.fits u.src u.tag) with
  | some i =>
    let s1 := (s.examined c (i + 1)).setMctx ctx { x with unexp := x.unexp.eraseIdx i }
    (.matched ((x.unexp[i]?.map (·.ref)).getD 0), s1)
  | none =>
    let s1 := s.examined c x.unexp.length
    match back with
    | some n => (.appended, s1.setMctx ctx { x with posted := putBack x.posted { e with ord := n } })
    | none =>
      if 8192 ≤ s.storeUsed c || s.fd F.CLU_MATCH_CFG_POST_MAX [c] ≤ x.posted.length then (.full, s1)
      else (.appended, s1.setMctx ctx { x with posted := x.posted ++ [{ e with ord := x.next }], next := x.next + 1 })

/-- MMATCH at the unit: the oldest receive that the message fits is removed, else the message is appended (R122). -/
def State.unitMatch (s : State) (c ctx src tag ref : Nat) : MRes × State :=
  let x := s.mctx ctx
  match x.posted.findIdx? (fun p => p.fits src tag) with
  | some i =>
    let s1 := (s.examined c (i + 1)).setMctx ctx { x with posted := x.posted.eraseIdx i }
    (.matched ((x.posted[i]?.map (·.ref)).getD 0), s1)
  | none =>
    let s1 := s.examined c x.posted.length
    if 8192 ≤ s.storeUsed c || s.fd F.CLU_MATCH_CFG_UNEXP_MAX [c] ≤ x.unexp.length then (.full, s1)
    else (.appended, (s1.bump R.CLU_MATCH_UNEXP_COUNT [c]).setMctx ctx
      { x with unexp := x.unexp ++ [⟨false, src, tag, 0, ref, 0⟩] })

/-- MCANCEL at the unit: the posted receive with a REF is removed; not found when it has been matched (R122). -/
def State.unitCancel (s : State) (c ctx ref : Nat) : Bool × State :=
  let x := s.mctx ctx
  match x.posted.findIdx? (·.ref == ref) with
  | some i => (true, (s.examined c (i + 1)).setMctx ctx { x with posted := x.posted.eraseIdx i })
  | none => (false, s.examined c x.posted.length)

/-! ## Receives as the library posts them (R266, R270) -/

/-- REF of a posted receive. -/
def recvRef (qn idx : Nat) : Nat := idx * 2 ^ 18 + qn

/-- The posted receive of a RECV entry. -/
def recvEntry (qn idx : Nat) (b : List Byte) : MatchEntry :=
  { any := nbit (leAt b 2 1) 0, src := leAt b 32 3, tag := leAt b 40 8, mask := leAt b 24 8, ref := recvRef qn idx, ord := 0 }

/-- The match context of a SEND or RECV entry (R263). -/
def entryCtx (b : List Byte) : Nat := leAt b 48 2 % 2 ^ 15

/-- An unexpected record. -/
def State.urec (s : State) (k : Nat) : Option UnexpRec := s.mtch.recs.get none k
/-- A record replaced. -/
def State.setUrec (s : State) (k : Nat) (x : Option UnexpRec) : State :=
  { s with mtch := { s.mtch with recs := s.mtch.recs.set none k x } }

/-- A context is claimed by a function (R264). -/
def State.claim (s : State) (ctx f : Nat) : State :=
  let x := s.mctx ctx
  if x.claimed then s else s.setMctx ctx { x with claimed := true, func := f }

/-- A RECV entry posted at the unit of its home; one that matches a record waits for it, and one that matches a VOID record is
posted again (R272). The number bounds the VOID records that it may meet; `back` is the former place of one that comes back. Whether
the list had room. -/
def State.postRecv (s : State) (qn : Nat) (e : OutEntry) (back : Option Nat) : Nat → Bool × State
  | 0 => (false, s)
  | f + 1 =>
    let ctx := entryCtx e.bytes
    let c := s.homeOf ctx
    match s.unitPost c ctx (recvEntry qn e.idx e.bytes) back with
    | (.appended, s1) => (true, s1)
    | (.full, s1) => (false, s1)
    | (.matched ref, s1) =>
      match s1.urec ref with
      | some u =>
        if u.st == 2 then (s1.setUrec ref none).postRecv qn e back f
        else (true, s1.setUrec ref (some { u with waiter := some (qn, e.serial) }))
      | none => (true, s1)

/-- A RECV entry is posted, or waits in ring order behind those of its queue and context that wait for room (R280). -/
def State.postOrWait (s : State) (qn : Nat) (e : OutEntry) : State :=
  let ctx := entryCtx e.bytes
  let c := s.homeOf ctx
  let wait (s : State) : State :=
    { s with mtch := { s.mtch with waiting := s.mtch.waiting ++ [(ctx, qn, e.serial)] } }
  if s.mtch.waiting.any fun w => w.1 == ctx && w.2.1 == qn then wait (s.bump R.CLU_MATCH_REFUSE_COUNT [c])
  else match s.postRecv qn e none 8193 with
    | (true, s1) => s1
    | (false, s1) => wait (s1.bump R.CLU_MATCH_REFUSE_COUNT [c])

/-- Receives of a context that wait are posted while there is room (R280). The first number bounds them. -/
def State.postWaiting (s : State) (ctx : Nat) : Nat → State
  | 0 => s
  | f + 1 =>
    match s.mtch.waiting.find? (·.1 == ctx) with
    | none => s
    | some w =>
      let gone (s : State) : State := { s with mtch := { s.mtch with waiting := s.mtch.waiting.erase w } }
      match (s.queue w.2.1).outstanding.find? (·.serial == w.2.2) with
      | none => (gone s).postWaiting ctx f
      | some e => match s.postRecv w.2.1 e none 8193 with
        | (true, s1) => (gone s1).postWaiting ctx f
        | (false, _) => s

/-- As many steps as there are receives waiting. -/
def State.postAllWaiting (s : State) (ctx : Nat) : State := s.postWaiting ctx s.mtch.waiting.length

/-! ## Aborting a receive (R279) -/

/-- Is the entry a RECV that has been matched, so that no abort is lodged against it? -/
def State.recvMatched (s : State) (qn : Nat) (e : OutEntry) : Bool :=
  let m := s.mtch
  leAt e.bytes 1 1 == 0x20 && e.started &&
  (m.recs.any (fun r => match r.2 with
      | some u => u.waiter == some (qn, e.serial)
      | none => false) ||
    m.matched.any (fun x => x.qn == qn && x.serial == e.serial) ||
    s.ops.any fun o => match o.2.origin with
      | .rendezvous _ _ q n => q == qn && n == e.serial && (o.2.isOpen || !o.2.delivered)
      | _ => false)

/-- Is a receive queue held, since its cluster's server keeps a RECV of it (R267)? -/
def State.recvHeld (s : State) (qn : Nat) : Bool := s.mtch.kept.any (·.1 == qn)

/-- Does a match server hold the RECV: kept, in an overflow list, or forwarded and not taken (R267)? -/
def State.recvOnWay (s : State) (qn : Nat) (e : OutEntry) : Bool :=
  let f := Fwd.recv (s.homeOf (entryCtx e.bytes)) qn e.serial
  let c := (s.queue qn).cluster
  s.mtch.kept.contains (qn, e.serial) || (s.mtch.overflow.get [] c).contains f || s.mtch.fwd.contains (c, f)

/-- A RECV leaves what holds it on the way to its list (R267, R279). -/
def State.recvOffWay (s : State) (qn : Nat) (e : OutEntry) : State :=
  let f := Fwd.recv (s.homeOf (entryCtx e.bytes)) qn e.serial
  let c := (s.queue qn).cluster
  let m := s.mtch
  { s with mtch := { m with
    kept := m.kept.erase (qn, e.serial), overflow := m.overflow.set [] c ((m.overflow.get [] c).erase f), fwd := m.fwd.erase (c, f) } }

/-- A RECV that is not matched leaves its list with MCANCEL, or without a command what it waits in or is on its way in (R279; on its
way: DESIGN CHOICE, log entry 154). -/
def State.recvCancel (s : State) (qn : Nat) (e : OutEntry) : State :=
  if leAt e.bytes 1 1 != 0x20 || !e.started then s else
  let ctx := entryCtx e.bytes
  let m := s.mtch
  if m.waiting.contains (ctx, qn, e.serial) then { s with mtch := { m with waiting := m.waiting.erase (ctx, qn, e.serial) } }
  else if s.recvOnWay qn e then s.recvOffWay qn e
  else ((s.unitCancel (s.homeOf ctx) ctx (recvRef qn e.idx)).2).postAllWaiting ctx

/-- MCANCEL of a RECV that has been matched: it is performed, and completes NOT_FOUND (R279). -/
def State.recvNotFound (s : State) (qn : Nat) (e : OutEntry) : State :=
  let ctx := entryCtx e.bytes
  (s.unitCancel (s.homeOf ctx) ctx (recvRef qn e.idx)).2

/-! ## Releasing contexts (R283) -/

/-- The context of an outstanding receive, of a forwarded item of a cluster, and of a record that a receive has taken. -/
def State.recvCtx (s : State) (qn serial : Nat) : Option Nat :=
  ((s.queue qn).outstanding.find? (·.serial == serial)).map fun e => entryCtx e.bytes
def State.fwdCtx (s : State) (c : Nat) : Fwd → Option Nat
  | .msg _ ref => (s.pktRef c ref).map fun x => x.pkt.key / 2 ^ 16 % 2 ^ 15
  | .recv _ qn serial => s.recvCtx qn serial
def State.takerCtx (s : State) (u : UnexpRec) : Option Nat := u.waiter.bind fun w => s.recvCtx w.1 w.2

/-- The contexts that satisfy a test are released: their lists, records and blocks, what is on its way to them, and what has met in
them. A copy or a get of a matched receive ends without a completion of the receive (DESIGN CHOICE, log entry 154). -/
def State.dropCtxs (s : State) (gone : Nat → Bool) : State :=
  let m := s.mtch
  let out (x : Option Nat) : Bool := match x with
    | some n => gone n
    | none => false
  let refs := (m.ctxs.filter fun e => gone e.1).flatMap fun e => e.2.unexp.map (·.ref)
  let ops := SMap.keysWhere (fun _ o => match o.origin with
    | .rendezvous _ _ qn n => out (s.recvCtx qn n)
    | _ => false) s.ops
  let s1 := { s with mtch := { m with
    ctxs := m.ctxs.filter fun e => !gone e.1
    recs := m.recs.filter fun r => !refs.contains r.1 && match r.2 with
      | some u => !out (s.takerCtx u)
      | none => true
    matched := m.matched.filter fun x => !out (s.recvCtx x.qn x.serial)
    overflow := SMap.mapVals [] (fun c l => l.filter fun f => !out (s.fwdCtx c f)) m.overflow
    waiting := m.waiting.filter fun w => !gone w.1
    kept := m.kept.filter fun w => !out (s.recvCtx w.1 w.2)
    fwd := m.fwd.filter fun x => !out (s.fwdCtx x.1 x.2) } }
  ops.foldl (fun s k =>
    let s1 := if (s.op k).isOpen then (s.abortOp k).2 else s
    s1.setOp k { s1.op k with origin := .retransmit 0 }) s1

/-- The contexts claimed by the functions that satisfy a test are released. -/
def State.releaseCtxs (s : State) (p : Nat → Bool) : State := s.dropCtxs fun n => (s.mctx n).claimed && p (s.mctx n).func

/-- CLU_MATCH_STATUS (Table 11-6). Its reset value is 0, and it is live once the device runs (DESIGN CHOICE, log entry 154). -/
def State.matchStatus (s : State) (c : Nat) : Word :=
  if !s.isRunning then 0 else
  let used := (s.mtch.recs.filter fun r => r.1 / 2 ^ 20 == c && match r.2 with
    | some u => u.block.isSome
    | none => false).length
  w64 ((s.fd F.CLU_MATCH_UBUF_BLOCKS_BLOCKS [c] - used) * 2 ^ 15 + s.storeUsed c)

end Sys2Proof.Machine
end

