-- ==== Sys2Proof/Machine/WorkEntry.lean ====
section
/-! DEFINITION. Machine/WorkEntry.lean: the 64 bytes of work entries: their fields, and which entries are malformed
(R153 to R157, R176, R201, R260, R286, R336, R494). -/
namespace Sys2Proof.Machine

/-! ## Fields (Tables 6-1, 6-3) -/

def weOwn (b : List Byte) : Bool := nbit (leAt b 0 1) 7
def weFence (b : List Byte) : Bool := nbit (leAt b 0 1) 6
def weNow (b : List Byte) : Bool := nbit (leAt b 0 1) 5
def weOp (b : List Byte) : Nat := leAt b 1 1
def weFlags (b : List Byte) : Nat := leAt b 2 1
def weTag (b : List Byte) : Nat := leAt b 4 4
def weLen (b : List Byte) : Nat := leAt b 8 4
def weLask (b : List Byte) : Nat := leAt b 12 4
def weLaddr (b : List Byte) : Nat := leAt b 16 8
def weRaddr (b : List Byte) : Nat := leAt b 24 8
def weRkey (b : List Byte) : Nat := leAt b 32 4
def weImm (b : List Byte) : Nat := leAt b 36 4
def weX1 (b : List Byte) : Nat := leAt b 40 8
def weX2 (b : List Byte) : Nat := leAt b 48 8
def weInline (b : List Byte) : List Byte := byteSlice b 56 8
def weIsInline (b : List Byte) : Bool := nbit (weFlags b) 0
def weSeal (b : List Byte) : Bool := nbit (weFlags b) 1
def weDefkeys (b : List Byte) : Bool := nbit (weFlags b) 7

/-- The kinds of work ring (R151). -/
inductive RingKind | sq | rq | ctrl
deriving DecidableEq, Repr

/-- A field of a body as offset, length and the bits that it uses. -/
abbrev BodyField := Nat × Nat × Nat

/-- Whole bytes from an offset. -/
def whole (off len : Nat) : BodyField := (off, len, 2 ^ (8 * len) - 1)

/-- The bits of a 64-byte entry, as one number, that a list of fields may set beside the header (R153). -/
def allowedBits (opf : Nat) (fs : List BodyField) : Nat :=
  fs.foldl (fun m f => m ||| f.2.2 * 2 ^ (8 * f.1)) (0xE0 ||| 0xFF * 2 ^ 8 ||| opf * 2 ^ 16 ||| 0xFFFFFFFF * 2 ^ 32)

/-- The body of each opcode on an SQ or RQ: the OPFLAGS bits and the fields that are not 0 (Table 6-3, Table 12-1). -/
def queueBody (rq : Bool) (op flags : Nat) : Option (Nat × List BodyField) :=
  let put : List BodyField := [whole 8 4, (12, 4, 0xFFFFF), whole 16 8, whole 24 8, whole 32 4, whole 56 8]
  match rq, op with
  | false, 0x01 => some (0x83, put)
  | false, 0x02 => some (0x83, whole 36 4 :: put)
  | false, 0x03 => some (0x80, [whole 8 4, (12, 4, 0xFFFFF), whole 16 8, whole 24 8, whole 32 4])
  | false, 0x04 => some (0x9F, [whole 8 4, (12, 4, 0xFFFFF), whole 16 8, whole 24 8, whole 32 4, whole 40 8, whole 48 8])
  | false, 0x05 => some (0x81, [whole 8 4, (12, 4, 0xFFFFF), whole 16 8, whole 36 4, whole 40 8, (48, 8, 0x7FFF), whole 56 8])
  | false, 0x06 => some (0, [])
  | _, 0x07 => some (0, [])
  | false, 0x10 => match flags % 8 with
    | 0 => some (7, [whole 8 2, whole 10 3, whole 16 4, whole 20 4, (24, 4, 0xFFFFF), whole 28 4, whole 32 8])
    | 1 => some (7, [whole 8 2, whole 10 1, whole 11 1, whole 12 1, (13, 1, 7), whole 16 4, (20, 4, 0xFFFFF), whole 24 8,
                     whole 32 8, whole 40 4, whole 48 8])
    | 2 => some (7, [whole 8 2])
    | _ => some (7, [whole 8 56])
  | true, 0x20 => some (1, [whole 8 4, (12, 4, 0xFFFFF), whole 16 8, whole 24 8, (32, 4, 0xFFFFFF), whole 40 8,
                            (48, 8, 0x7FFF)])
  | _, _ => none

/-- The body of each control command (Tables 6-9, 6-10, 8-2 to 8-4, 10-9, 13-9, 21-3). -/
def ctrlBody : Nat → Option (List BodyField)
  | 0x40 => some [whole 8 2, whole 10 1, (12, 2, 0x3FF), whole 16 8, whole 24 2, whole 26 2, whole 28 4, (32, 1, 1)]
  | 0x41 => some [whole 8 2, (12, 2, 0x3FF), whole 24 2, whole 26 2, whole 28 4, (32, 1, 1)]
  | 0x42 => some [whole 8 2]
  | 0x43 => some [whole 8 2]
  | 0x44 => some [(8, 4, 0x3FFFF), whole 12 1, whole 13 1, whole 14 2, whole 16 8, (24, 2, 0x3FF), (26, 2, 0x1FFF),
                  (28, 1, 1), (29, 1, 0x1F), (32, 4, 0x800FFFFF), (36, 4, 0x77FF)]
  | 0x45 => some [(8, 4, 0x3FFFF), (29, 1, 0x1F), (36, 4, 0x77FF)]
  | 0x46 => some [(8, 4, 0x3FFFF)]
  | 0x47 => some [(8, 4, 0x3FFFF)]
  | 0x48 => some [(8, 4, 0x3FFFF), whole 12 2]
  | 0x50 => some [(8, 4, 0xFFFFF), whole 12 3, whole 16 3, (19, 1, 0x1F), whole 20 2, (22, 1, 7), (23, 1, 0x1F),
                  (24, 4, 0xFFFFF), whole 28 4, whole 32 4, whole 36 4, whole 40 2, (42, 2, 0x3FF), whole 44 4,
                  whole 48 2, whole 50 1, whole 52 2]
  | 0x51 => some [(8, 4, 0xFFFFF)]
  | 0x52 => some [(8, 4, 0xFFFFF), (12, 2, 0x3FF), whole 14 2, (16, 1, 0x1F), whole 17 1, whole 24 8]
  | 0x53 => some [whole 8 4]
  | 0x54 => some [whole 8 3, (12, 2, 0x3FF), whole 14 2]
  | 0x55 => some [whole 8 3]
  | 0x58 => some [whole 8 4, whole 12 1, whole 16 8, whole 24 8]
  | 0x59 => some [whole 16 8]
  | 0x5A => some [whole 8 4, whole 16 8]
  | 0x5B => some [whole 8 1, whole 16 8, whole 24 8]
  | 0x60 => some [whole 8 1, (9, 1, 1), whole 12 4, whole 16 4, whole 24 8]
  | 0x61 => some [whole 8 8]
  | 0x62 => some []
  | 0x63 => some []
  | 0x64 => some [whole 8 3, whole 16 16]
  | 0x68 => some [whole 8 1]
  | 0x69 => some []
  | 0x6A => some [(8, 4, 0x1FFFF), (12, 4, 0x1FFFF), (16, 1, 3), whole 17 1, whole 24 16, whole 40 4]
  | 0x6B => some [whole 8 2]
  | _ => none

/-- The bits that an entry may set, and none where its opcode is reserved on its ring (R154). -/
def entryBits (k : RingKind) (b : List Byte) : Option Nat :=
  match k with
  | .sq => (queueBody false (weOp b) (weFlags b)).map fun p => allowedBits p.1 p.2
  | .rq => (queueBody true (weOp b) (weFlags b)).map fun p => allowedBits p.1 p.2
  | .ctrl => (ctrlBody (weOp b)).map (allowedBits 0)

/-- TYPE values that exist (Table 4-15). -/
def amlTypeOk (ty : Nat) : Bool := decide (ty ≤ 3) || (decide (8 ≤ ty) && decide (ty ≤ 13))

/-- Fields of a COLL RUN (Table 12-1). -/
def runKind (b : List Byte) : Nat := leAt b 10 1
def runOp (b : List Byte) : Nat := leAt b 11 1
def runType (b : List Byte) : Nat := leAt b 12 1
def runMode (b : List Byte) : Nat := leAt b 13 1
def runCount (b : List Byte) : Nat := leAt b 16 4
def runRoot (b : List Byte) : Nat := leAt b 40 4

/-- Is a field set that Table 12-2 marks "—" for the CKIND? -/
def runDash (b : List Byte) : Bool :=
  match runKind b with
  | 0 => leAt b 11 3 != 0 || leAt b 16 24 != 0 || runRoot b != 0
  | 1 => runOp b != 0 || runMode b != 0
  | 2 => runRoot b != 0
  | 3 => runRoot b != 0
  | 4 => runOp b != 0 || runMode b != 0 || runRoot b != 0
  | _ => false

/-- The largest length of a put, get or send (R155). -/
def maxMessage : Nat := 4194304

/-- Is a field set that its entry's flags or operation make reserved or 0 (R155)? -/
def condReserved (b : List Byte) : Bool :=
  let op := weOp b
  let putLike := op == 1 || op == 2 || op == 5
  (putLike && weIsInline b && (weLask b != 0 || weLaddr b != 0)) ||
  (putLike && weDefkeys b && weLask b != 0) ||
  (putLike && !weIsInline b && leAt b 56 8 != 0) ||
  ((op == 1 || op == 2 || op == 3 || op == 4) && weDefkeys b && weRkey b != 0) ||
  (op == 4 && weFlags b % 16 != 2 && weX2 b != 0) ||
  (op == 0x20 && weIsInline b && weRkey b != 0) ||
  (op == 0x10 && weFlags b % 8 == 1 && runDash b) ||
  (op == 0x44 && nbit (leAt b 32 4) 31 && nbits (leAt b 32 4) 13 0 != 0)

/-- Is a reserved encoding used (R157, R286, Table 21-3)? -/
def condEncoding (b : List Byte) : Bool :=
  let op := weOp b
  let run := op == 0x10 && weFlags b % 8 == 1
  let ck := runKind b
  (op == 4 && decide (10 ≤ weFlags b % 16)) ||
  (op == 0x10 && decide (3 ≤ weFlags b % 8)) ||
  (run && decide (5 ≤ ck)) ||
  (run && (ck == 2 || ck == 3) && (decide (6 ≤ runOp b) || runMode b % 4 == 3)) ||
  (run && decide (1 ≤ ck) && decide (ck ≤ 4) && !amlTypeOk (runType b)) ||
  (op == 0x68 && decide (4 ≤ leAt b 8 1))

/-- Is the length impossible (R155, R286)? -/
def condLength (b : List Byte) : Bool :=
  let op := weOp b
  let n := weLen b
  ((op == 1 || op == 2 || op == 5) && decide ((if weIsInline b then 8 else maxMessage) < n)) ||
  (op == 3 && (n == 0 || decide (maxMessage < n))) ||
  (op == 4 && n != (if nbit (weFlags b) 4 then 4 else 8)) ||
  (op == 0x20 && decide (maxMessage < n)) ||
  (op == 0x10 && weFlags b % 8 == 1 && decide (1 ≤ runKind b) && decide (runKind b ≤ 4) &&
    (runCount b == 0 || decide (1073741824 < runCount b)))

/-- R157: why an entry is malformed, as REASON of Table 6-12, the lowest that applies; none for a well-formed entry. -/
def malformed (k : RingKind) (b : List Byte) : Option Nat :=
  match entryBits k b with
  | none => some 1
  | some m =>
    if leAt b 0 64 &&& m != leAt b 0 64 then some 2
    else if condReserved b then some 2
    else if condEncoding b then some 3
    else if condLength b then some 4
    else none

end Sys2Proof.Machine
end

