-- ==== Sys2Proof/Machine/Rings.lean ====
section
/-! DEFINITION. Machine/Rings.lean: completion rings, queues, doorbells, ring service and the arbiter, the adapter halt
(chapters 6 and 7). The control ring of PF p is queue 262144 + p, its completion ring is ring 65536 + p. -/
namespace Sys2Proof.Machine

/-! ## Access -/

/-- A completion ring. -/
def State.cq (s : State) (cn : Nat) : Cq := s.rings.cqs.get Cq.init cn
/-- A completion ring replaced. -/
def State.setCq (s : State) (cn : Nat) (x : Cq) : State :=
  { s with rings := { s.rings with cqs := s.rings.cqs.set Cq.init cn x } }

/-- The control ring and control completion ring of a PF. -/
def ctrlQn (pf : Nat) : Nat := 262144 + pf
def ctrlCn (pf : Nat) : Nat := 65536 + pf
/-- Is a queue number that of a control ring? -/
def isCtrl (qn : Nat) : Bool := decide (262144 ≤ qn)

/-- A queue that is UNUSED again. What is kept is the count of entries fetched, the model's own, which gives a later queue of the number
serials that none before it had (R193). -/
def Queue.gone (q : Queue) : Queue := { Queue.init with start := q.fetched, fetched := q.fetched }

/-- Entries of a work ring, and its fetch index F (R159). -/
def Queue.size (q : Queue) : Nat := 2 ^ q.log2
def Queue.fetch (q : Queue) : Nat := (q.fetched - q.start) % q.size
/-- The ring index of an entry by its serial. -/
def Queue.idxOf (q : Queue) (serial : Nat) : Nat := (serial - q.start) % q.size
/-- Has the queue entries to fetch: T ≠ F (R179)? -/
def Queue.work (q : Queue) : Bool := q.tail != q.fetch
/-- Entries that may still be read: between the reads in flight and T. -/
def Queue.left (q : Queue) : Nat := (q.tail + q.size - q.fetch) % q.size - q.reading.length

/-- The kind of ring of a queue. -/
def Queue.kind (q : Queue) (qn : Nat) : RingKind := if isCtrl qn then .ctrl else if q.rq then .rq else .sq

/-! ## RING_EVENT (Table 7-6) -/

/-- An item of ring service (R134, R135). -/
def ringItem (ty len prio : Nat) (body : List Byte) : Item :=
  { ty := ty, len := len, prio := prio, src := 0, srcCluster := 0, commitNs := 0, body := body }

/-- A RING_EVENT item is written into the FIFO that WF_STEER names, if that has room. -/
def State.pushEvent (s : State) (c : Nat) (body : List Byte) : Option State :=
  (s.wfSteered c (s.fd F.WF_STEER_EVENT_FIFO [c])).bind fun k =>
    s.wfStart k false (ringItem 0x30 1 (s.fd F.WF_STEER_EVENT_PRIO [c]) body)

/-- A RING_EVENT item is written, or waits behind those that wait for room, and is counted (R148). -/
def State.ringEvent (s : State) (c ev cause cn qn held : Nat) : State :=
  let body := leBytes 1 ev ++ leBytes 1 cause ++ leBytes 2 cn ++ leBytes 4 qn ++ leBytes 8 s.ft.toNat ++ leBytes 4 held
  match (if s.rings.events.isEmpty then s.pushEvent c body else none) with
  | some s1 => s1
  | none =>
    let s1 := match s.wfSteered c (s.fd F.WF_STEER_EVENT_FIFO [c]) with
      | some k => s.wfFull k
      | none => s
    { s1 with rings := { s1.rings with events := s1.rings.events ++ [(c, body)] } }

/-! ## Completions: commit, stash and pool (R160, R164, R188, R189) -/

/-- Pool entries in use: what each ring holds beyond its stash of 64 (R188). -/
def State.poolUsed (s : State) : Nat := (s.rings.cqs.map fun e => e.2.held.length - 64).sum

/-- Can a completion be committed to the ring: is there a free entry of its stash or of the pool (R188)? -/
def State.cqRoom (s : State) (cn : Nat) : Bool :=
  decide ((s.cq cn).held.length < 64) || decide (s.poolUsed < 65536)

/-- May the device write completions of the ring now (R192, R438)? -/
def State.cqMay (s : State) (x : Cq) : Bool := s.canMaster x.func && !s.adapterHalted

/-- A READY ring that holds a completion with K = 0 and OWN = 0 at W becomes FULL (R189); not while its function cannot
master (R438). -/
def State.checkFull (s : State) (cn : Nat) : State :=
  let x := s.cq cn
  if x.state == .ready && !x.held.isEmpty && x.k == 0 && x.emptyRead && s.cqMay x then
    ((s.setCq cn { x with state := .full, stallFrom := s.loc }).ringEvent x.cluster 1 0 cn 0 x.held.length).report
      (tsrc 9 0) 0x34 cn
  else s

/-- The STASHED bit of a completion's byte 31 set (R188). -/
def Completion.stash (c : Completion) : Completion :=
  { c with raw := c.raw.take 31 ++ [BitVec.ofNat 8 (leAt c.raw 31 1 ||| 0x20)] }

/-- A completion is committed to a ring with room for it: written directly next, or held behind the ring's earlier ones.
The result says whether it was stashed. -/
def State.commitCqe (s : State) (cn : Nat) (c : Completion) : Bool × State :=
  let x := s.cq cn
  let s1 := if leAt c.raw 14 1 == 1 then s.bump R.RING_ABORT_COUNT else s
  let c := { c with at_ := s.loc }
  if x.state == .ready && decide (x.direct.length < x.k) && x.held.isEmpty && s.cqMay x then
    (false, (s1.setCq cn { x with direct := x.direct ++ [c] }).whenAwake x.func id)
  else
    (true, (s1.setCq cn { x with held := x.held ++ [c.stash] }).checkFull cn)

/-- The fields of a completion entry that its kind decides (Table 6-4). -/
structure CqeFields where
  tag : Nat := 0
  bytes : Nat := 0
  detail : Nat := 0
  qn : Nat := 0
  idx : Nat := 0
  status : Nat := 0
  kind : Nat := 0
  imm : Nat := 0
  info : Nat := 0
  src : Nat := 0
  trunc : Bool := false
  hold : Bool := false
deriving DecidableEq, Repr

/-- The 32 bytes of a completion entry (Table 6-4): OWN is 0, HOLDOVER as at commit, or set for a RUN
that had it (R291). -/
def State.cqeBytes (s : State) (c : CqeFields) : List Byte :=
  leBytes 4 c.tag ++ leBytes 4 c.bytes ++ leBytes 4 (c.detail % 256 * 2 ^ 24 + c.qn % 2 ^ 18) ++ leBytes 2 c.idx ++
  leBytes 1 c.status ++ leBytes 1 c.kind ++ leBytes 4 c.imm ++ leBytes 8 c.info ++ leBytes 3 c.src ++
  leBytes 1 (b2n (s.holdover || c.hold) * 64 + b2n c.trunc * 16)

/-! ## Work entries that complete -/

/-- The bus address of a work entry (R152). -/
def Queue.entryAddr (q : Queue) (idx : Nat) : Nat := q.base + idx * 64

/-- An outstanding entry by its serial: fetched, and no completion committed (R184). -/
def Queue.entry (q : Queue) (serial : Nat) : Option OutEntry := q.outstanding.find? (·.serial == serial)

/-- How an entry completes: its status and what Table 6-7 gives beside it. -/
structure WorkDone where
  status : Nat
  detail : Nat := 0
  bytes : Nat := 0
  imm : Nat := 0
  info : Option Nat := none
  src : Nat := 0
  trunc : Bool := false
  hold : Bool := false
deriving DecidableEq, Repr

/-- An entry leaves the pending lists of the halves (R185, R237). -/
def State.unlist (s : State) (qn serial : Nat) : State :=
  let leave (h : Half) : Half := { h with pendingOps := h.pendingOps.filter (· != (qn, serial)) }
  if s.net.halves.any fun e => e.2.pendingOps.contains (qn, serial) then
    { s with net := { s.net with halves := SMap.mapVals Half.init (fun _ h => leave h) s.net.halves } }
  else s

/-- The RUN of an entry is over: its operations are aborted and count no longer for the collective but as operations of the entry
(R184), and after anything but SUCCESS its collective is failed here (R291). -/
def State.runOver (s : State) (qn serial status : Nat) : State :=
  let is (c : Coll) : Bool := match c.run with
    | some r => r.qn == qn && r.serial == serial
    | none => false
  match s.net.colls.find? fun e => e.2.any is with
  | some (id, some c) =>
    let s1 := { s with net := { s.net with
      colls := s.net.colls.set none id (some { c with run := none, failed := c.failed || status != 0 }) } }.unlist qn serial
    s1.ops.foldl (fun s e => match e.2.origin with
      | .coll id' _ => if id' != id then s else
        let s2 := (s.abortOp e.1).2
        s2.setOp e.1 { s2.op e.1 with origin := .work qn serial }
      | _ => s) s1
  | _ => s

/-- The status that a completion entry carries: a handler reports what never appears there under another code, TIME_STEPPED as
TIME_NOT_READY and the others as INVALID_ARG (R166; which code: DESIGN CHOICE, log entry 155). -/
def entryStatus (st : Nat) : Nat :=
  if st == 0x15 then 0x14
  else if st == 2 || (decide (0x0F ≤ st) && decide (st ≤ 0x13)) || st == 0x16 || st == 0x17 then 0x20 else st

/-- An entry's completion is committed: the entry is no longer outstanding, and its completion, with the write of its
byte 0, is handed to the ring (R119, R160). INFO is FT at commit unless given. -/
def State.workDone (s : State) (qn serial : Nat) (d : WorkDone) : State :=
  let q := s.queue qn
  match q.entry serial with
  | none => s
  | some e =>
    let ctrl := isCtrl qn
    let c : CqeFields :=
      { tag := weTag e.bytes, bytes := d.bytes, detail := d.detail, qn := if ctrl then q.func else qn, idx := e.idx,
        status := entryStatus d.status, kind := if ctrl then 3 else if q.rq then 1 else 0, imm := d.imm,
        info := d.info.getD s.ft.toNat, src := d.src, trunc := d.trunc, hold := d.hold }
    let s1 := (s.setQueue qn { q with outstanding := q.outstanding.filter (·.serial != serial) }).runOver qn serial d.status
    (s1.commitCqe q.cn { raw := s.cqeBytes c, now := weNow e.bytes, work := some (qn, q.entryAddr e.idx) }).2

/-- The operations started for an entry that are still open (R184). -/
def State.workOps (s : State) (qn serial : Nat) : List Nat :=
  SMap.keysWhere (fun _ o => o.isOpen && o.origin == .work qn serial) s.ops

/-- What stands behind an aborted entry is aborted: its operations (Table 4-16), and its place in the pending list of a half
(R185, R237). -/
def State.abortWork (s : State) (qn serial : Nat) : State :=
  ((s.workOps qn serial).foldl (fun s k => (s.abortOp k).2) s).unlist qn serial

/-- The abort of one entry wins its commit point (R119, R185, R187); a RECV is cancelled with it (R279). -/
def State.abortEntry (s : State) (qn serial : Nat) : State :=
  match (s.queue qn).entry serial with
  | none => s
  | some e => (((s.recvCancel qn e).workDone qn serial { status := 1 }).abortWork qn serial)

/-- The aborting pass over the outstanding entries of a queue, in ring order, as far as its ring has room; it waits at a RECV
that has been matched (R185, R279). -/
def State.abortPass (s : State) (qn : Nat) : State :=
  (((s.queue qn).outstanding.takeWhile fun e => !s.recvMatched qn e).map (·.serial)).foldl
    (fun s n => if s.cqRoom (s.queue qn).cn then s.abortEntry qn n else s) s

/-- The aborting passes that waited for room go on. -/
def State.resumeAborts (s : State) : State :=
  (SMap.keysWhere (fun _ q => (q.state == .draining || q.state == .error) && !q.outstanding.isEmpty) s.rings.queues).foldl
    (fun s qn => s.abortPass qn) s

/-- The number of the reservation of a read. -/
def readId (qn serial : Nat) : Nat := qn * 2 ^ 64 + serial

/-- A read of a work entry gives up its reservation, or its item at the write port. -/
def State.giveUpRead (s : State) (qn : Nat) (r : EntryRead) : State :=
  let x := s.fifo r.fifo
  if r.data.isSome then s.setFifo r.fifo { x with writing := x.writing.filter (·.for_ != .entry qn r.serial) }
  else s.wfRelease r.fifo r.bank (readId qn r.serial)

/-- Reads of work entries in flight are given up: their items are rewound (R139). -/
def State.dropReads (s : State) (qn : Nat) : State :=
  let q := s.queue qn
  q.reading.foldl (fun s r => if r.waits then s else (s.giveUpRead qn r).bump R.WF_REWIND_COUNT (wfIx r.fifo))
    (s.setQueue qn { q with reading := [] })

/-- A READY queue enters ERROR: it is not fetched any more, its outstanding entries are aborted, and a RING_EVENT tells of
it (Table 7-3). Causes: 1 fetch failure, 2 connection, 3 completion ring. -/
def State.queueError (s : State) (qn cause : Nat) : State :=
  if (s.queue qn).state != .ready then s else
  let s1 := s.dropReads qn
  let q := s1.queue qn
  let held := (s1.cq q.cn).held.length
  ((s1.setQueue qn { q with state := .error }).abortPass qn).ringEvent q.cluster 4 cause q.cn qn held

/-- The queues bound to a completion ring, and those bound to a connection half. -/
def State.queuesOfCq (s : State) (cn : Nat) : List Nat :=
  SMap.keysWhere (fun _ q => q.state != .unused && q.cn == cn) s.rings.queues
def State.queuesOfConn (s : State) (r : Nat) : List Nat :=
  SMap.keysWhere (fun _ q => q.state != .unused && q.conn == some r) s.rings.queues

/-! ## The interrupt of a ring (R173) -/

/-- Is a condition of R173 met? -/
def State.irqDue (s : State) (x : Cq) : Bool :=
  decide (x.modCount ≤ x.pend) || x.nowMet ||
  (x.modTime != 0 && match x.timer with
    | some t => decide (x.modTime * ticksPerUs ≤ s.locSince t)
    | none => false)

/-- The interrupt is raised if a condition is met and IRQ_EN is 1; PENDING and the timer start afresh. -/
def State.irqCheck (s : State) (cn : Nat) : State :=
  let x := s.cq cn
  if x.irqEn && s.irqDue x then
    (s.setCq cn { x with pend := 0, timer := none, nowMet := false }).raiseIrq x.func x.vector
  else s

/-- MOD_TIMER: the moderation timer reaches MOD_TIME (R173). -/
def modTimer (cn : Nat) (s : State) : State :=
  if (s.cq cn).state == .unused then s else s.irqCheck cn

/-! ## Writing and reading completion rings (R160 to R162, R189) -/

/-- The last held completion of a FULL ring is written: the ring is READY again (R189). -/
def State.checkResumed (s : State) (cn : Nat) : State :=
  let x := s.cq cn
  if x.state == .full && x.held.isEmpty then
    (s.setCq cn { x with state := .ready }).ringEvent x.cluster 2 0 cn 0 0
  else s

/-- CQ_WRITE: the oldest completion of the ring that may be written is written: byte 0 of its work entry, then its 32
bytes as one request (R160, R162). -/
def cqWrite (cn : Nat) (s : State) : State :=
  let x := s.cq cn
  if x.state == .unused || x.k == 0 || !s.cqMay x then s else
  let next := match x.direct, x.held with
    | c :: ds, hs => some (c, ds, hs)
    | [], c :: hs => some (c, [], hs)
    | [], [] => none
  match next with
  | none => s
  | some (c, ds, hs) => s.whenAwake x.func fun s =>
    let s1 := match c.work with
      | some (_, a) => s.hostWrite x.func a [0]
      | none => s
    let s2 := s1.hostWrite x.func (x.base + x.w * 32) c.raw
    let s3 := s2.setCq cn { x with
      direct := ds
      held := hs
      w := (x.w + 1) % 2 ^ x.log2
      k := x.k - 1
      pend := x.pend + 1
      timer := match x.timer with
        | some t => some t
        | none => if x.modTime == 0 then none else some s.loc
      nowMet := x.nowMet || c.now }
    ((((s3.histTime 9 (s.pfOf x.func) c.at_).irqCheck cn).checkResumed cn).checkFull cn).resumeAborts

/-- Should the ring be read: K below 16, no read outstanding, and no wait after a read that found nothing (R161)? -/
def State.ownReadDue (s : State) (x : Cq) : Bool :=
  x.state != .unused && decide (x.k < 16) && !x.reading && s.cqMay x && match x.pollAt with
    | none => true
    | some t => s.locReached t

/-- The ownership read of the block that holds entry W + K is issued (R161). -/
def State.ownRead (s : State) (cn : Nat) : State :=
  let x := s.cq cn
  s.whenAwake x.func fun s =>
    let i := (x.w + x.k) % 2 ^ x.log2
    ((s.setCq cn { x with reading := true, pollAt := none }).bump R.RING_CQ_READ_COUNT).hostRead 0 x.func (x.base + i / 16 * 512) 512

/-- CQ_OWN_READ: K has fallen below 16 (R161). -/
def cqOwnRead (cn : Nat) (s : State) : State :=
  if s.ownReadDue (s.cq cn) && (s.cq cn).pollAt.isNone then s.ownRead cn else s

/-- CQ_POLL: RING_CQ_POLL has passed after a read that added nothing (R161). -/
def cqPoll (cn : Nat) (s : State) : State :=
  if s.ownReadDue (s.cq cn) && (s.cq cn).pollAt.isSome then s.ownRead cn else s

/-- CQ_OWN_READ_DONE: the read ends; `n` entries from W + K have OWN = 1, which count up to the end of the block, or it
failed (R161, Table 18-5). A FULL ring that gets entries starts its stall timer afresh (R189). -/
def cqOwnReadDone (cn st n : Nat) (s : State) : State :=
  let x := s.cq cn
  if x.state == .unused || !x.reading || s.adapterHalted then s else
  let i := (x.w + x.k) % 2 ^ x.log2
  let got := if st == 0 then min n (min (16 - i % 16) (2 ^ x.log2 - x.k)) else 0
  let s1 := s.hostErr x.func st
  if got == 0 then
    let ns := (s.rd R.RING_CQ_POLL).toNat
    (s1.setCq cn { x with reading := false, emptyRead := st == 0, pollAt := some (s.locIn (ns * 4)) }).checkFull cn
  else
    s1.setCq cn { x with
      reading := false
      emptyRead := false
      pollAt := none
      k := x.k + got
      stallFrom := if x.state == .full then s.loc else x.stallFrom }

/-- RING_STALL_TIMEOUT: a FULL ring has waited too long; its queues enter ERROR and it enters FAILED (R189). A control
completion ring never does (R191). -/
def ringStallTimeout (cn : Nat) (s : State) : State :=
  let x := s.cq cn
  let limit := (s.rd R.RING_STALL_TIMEOUT).toNat * 1000 * ticksPerUs
  if x.state == .full && decide (cn < 65536) && decide (limit ≤ s.locSince x.stallFrom) then
    let s1 := s.setCq cn { x with state := .failed }
    let s2 := (s1.queuesOfCq cn).foldl (fun s qn => s.queueError qn 3) s1
    (s2.ringEvent x.cluster 3 0 cn 0 (s2.cq cn).held.length).report (tsrc 9 0) 0x35 cn
  else s

/-! ## Which queues are active (R179) -/

/-- The Work FIFO and level of a queue's items; those of a control ring go to FIFO 0 of cluster 0 at level 6, or the lowest
that is not polled (R175). -/
def State.queueFifo (s : State) (qn : Nat) (q : Queue) : Nat × Nat :=
  if isCtrl qn then ((s.wfSteered 0 0).getD 0, 6) else (4 * q.cluster + q.fifo, q.prio)

/-- May ring service read entries of the queue now, apart from arbitration? -/
def State.fetchable (s : State) (qn : Nat) (q : Queue) : Bool :=
  let x := s.cq q.cn
  q.state == .ready && (x.state == .ready) && decide (0 < q.left) && !s.recvHeld qn && s.canMaster q.func &&
  !s.adapterHalted && (isCtrl qn || s.dev.power == 0) && s.wfRoom (s.queueFifo qn q).1 false 2

/-- Is the queue active in arbitration: ring-served, and fetchable (R178, R179)? -/
def State.active (s : State) (qn : Nat) (q : Queue) : Bool := !isCtrl qn && !q.handlerServed && s.fetchable qn q

/-- The link of a queue's function (R178). -/
def State.queueLink (s : State) (q : Queue) : Nat := s.pfOf q.func / 4

/-- A round-robin list brought up to date: what is no longer active leaves it, what has become active joins its tail in
rising order. -/
def syncList (old now : List Nat) : List Nat := old.filter now.contains ++ now.filter (!old.contains ·)

/-- The nodes of a level brought up to date: one that has just become active starts with deficit 0 (R180). -/
def syncNodes (m : SMap ArbNode) (now : List Nat) : SMap ArbNode :=
  m.filter fun e => now.contains e.1

/-- A waiting ARB of a queue takes effect (R183). -/
def Queue.takeArb (q : Queue) : Queue :=
  match q.newArb with
  | some (b, g, w) => { q with burst := b, group := g, weight := w, newArb := none }
  | none => q

/-- The arbiter trees brought up to date with activity (R180, R181). A queue that is not active takes a waiting ARB at once, since its next turn is a new one. -/
def State.arbSync (s : State) : State :=
  let was (qn : Nat) : Bool := s.rings.groupList.any fun e => e.2.contains qn
  let qs := SMap.mapVals Queue.init (fun qn q => if q.newArb.isSome && !was qn then q.takeArb else q) s.rings.queues
  let act := qs.filter fun e => s.active e.1 e.2
  let qns := act.map (·.1)
  let groups := (act.map fun e => e.2.func * 8 + e.2.group).foldl (fun m g => NSet.add m g) []
  let funcs := (act.map fun e => e.2.func).foldl (fun m f => NSet.add m f) []
  let gs := groups.map (·.1)
  let fs := funcs.map (·.1)
  let r := s.rings
  let mk (old : SMap (List Nat)) (keys : List Nat) (members : Nat → List Nat) : SMap (List Nat) :=
    keys.foldl (fun m k => m.set [] k (syncList (old.get [] k) (members k))) []
  { s with rings := { r with
      queues := qs
      groupList := mk r.groupList gs fun g => (act.filter fun e => e.2.func * 8 + e.2.group == g).map (·.1)
      funcList := mk r.funcList fs fun f => gs.filter (· / 8 == f)
      linkList := mk r.linkList (List.range 4) fun k => fs.filter fun f => s.pfOf f / 4 == k
      nodeQ := syncNodes r.nodeQ qns
      nodeG := syncNodes r.nodeG gs
      nodeF := syncNodes r.nodeF fs } }

/-- A change that may make queues active or inactive. What has become inactive before it leaves its lists first, so that it joins
their tails if it becomes active again (R180). -/
def State.synced (s : State) (f : State → State) : State := if s.inSafe then s else (f s.arbSync).arbSync

/-! ## Selection (R180, R181) -/

/-- Effective weight of a queue, a group and a function (R181). -/
def State.weightQ (s : State) (qn : Nat) : Nat := (s.queue qn).weight
def State.weightG (s : State) (k g : Nat) : Nat :=
  if s.fb F.RING_ARB_CTRL_PROP_GROUP [k] then ((s.rings.groupList.get [] g).map s.weightQ).sum
  else nbits (s.rd R.RING_GROUP_ARB [g / 8]).toNat (8 * (g % 8) + 7) (8 * (g % 8))
def State.weightF (s : State) (k f : Nat) : Nat :=
  if s.fb F.RING_ARB_CTRL_PROP_FUNC [k] then ((s.rings.funcList.get [] f).map (s.weightG k)).sum
  else s.fd F.RING_FUNC_ARB_WEIGHT [f]

/-- What a selection at a node of a tree leaves: the child selected, the list, the nodes below, and the children whose new turn
began. -/
structure Selected where
  child : Option Nat
  list : List Nat
  nodes : SMap ArbNode
  begun : List Nat
deriving DecidableEq, Repr

/-- One selection at a node of a tree: its list is turned until a child has credit (R180). -/
def selectNode (weight : Nat → Nat) : Nat → List Nat → SMap ArbNode → List Nat → Selected
  | 0, l, m, bs => ⟨none, l, m, bs⟩
  | _ + 1, [], m, bs => ⟨none, [], m, bs⟩
  | fuel + 1, c :: cs, m, bs =>
    let old := m.get ArbNode.init c
    let n := if old.newTurn then { old with deficit := old.deficit + (weight c * 8 : Nat), newTurn := false } else old
    let bs := if old.newTurn then c :: bs else bs
    if n.deficit > 0 then ⟨some c, c :: cs, m.set ArbNode.init c n, bs⟩
    else selectNode weight fuel (cs ++ [c]) (m.set ArbNode.init c { n with newTurn := true }) bs

/-- A charge of b entries to a node. -/
def charge (m : SMap ArbNode) (c b : Nat) : SMap ArbNode :=
  let n := m.get ArbNode.init c
  m.set ArbNode.init c { n with deficit := n.deficit - (b : Nat) }

/-- The three nodes above a grant of b entries are charged (R180). -/
def State.chargeAll (s : State) (f g qn b : Nat) : State :=
  let r := s.rings
  { s with rings := { r with nodeF := charge r.nodeF f b, nodeG := charge r.nodeG g b, nodeQ := charge r.nodeQ qn b } }

/-- The weight with which a queue's new turn begins: that of an ARB that waits for it (R183). -/
def State.turnWeight (s : State) (qn : Nat) : Nat := (s.queue qn).takeArb.weight

/-- The selection of a queue on link k: function, group, queue. Queues whose new turn begins take a waiting ARB (R183). -/
def State.selectQueue (s : State) (k : Nat) : Option (Nat × Nat × Nat) × State :=
  let r := s.rings
  let fl := r.linkList.get [] k
  let x := selectNode (s.weightF k) (2 * fl.length + 2) fl r.nodeF []
  match x.child with
  | none => (none, s)
  | some f =>
    let s1 := { s with rings := { r with linkList := r.linkList.set [] k x.list, nodeF := x.nodes } }
    let gl := r.funcList.get [] f
    let y := selectNode (s1.weightG k) (2 * gl.length + 2) gl s1.rings.nodeG []
    match y.child with
    | none => (none, s)
    | some g =>
      let s2 := { s1 with rings := { s1.rings with funcList := s1.rings.funcList.set [] f y.list, nodeG := y.nodes } }
      let ql := r.groupList.get [] g
      let z := selectNode s2.turnWeight (2 * ql.length + 2) ql s2.rings.nodeQ []
      match z.child with
      | none => (none, s)
      | some q =>
        (some (f, g, q), { s2 with rings := { s2.rings with
          groupList := s2.rings.groupList.set [] g z.list, nodeQ := z.nodes
          queues := SMap.mapVals Queue.init (fun n x => if z.begun.contains n then x.takeArb else x) s2.rings.queues } })

/-! ## Items of ring service -/

/-- Word 0 of a WORK or QUEUE_READY item (Table 5-3). The control ring's queue slot is the model's (DEDUCED, log entry 23). -/
def workWord (qn : Nat) (q : Queue) (idx : Nat) : List Byte :=
  leBytes 4 (if isCtrl qn then q.func else qn) ++ leBytes 2 (if isCtrl qn then 0xFFFF else q.qslot) ++ leBytes 2 q.func ++
  leBytes 2 idx ++ zeroBytes 46

/-- Is a QUEUE_READY item of the queue committed and not yet dispatched, or being written, in any FIFO of its cluster, whose STEER may
have changed since (R171)? -/
def State.readyPending (s : State) (qn : Nat) (q : Queue) : Bool :=
  let is (i : Item) : Bool := i.ty == 4 && i.body.take 8 == (workWord qn q 0).take 8
  (List.range 4).any fun f =>
    let x := s.fifo (4 * (if isCtrl qn then 0 else q.cluster) + f)
    (x.bank0.items ++ x.bank1.items).any is || x.writing.any fun w => is w.item

/-- An accepted doorbell of a handler-served queue or control ring produces a QUEUE_READY item, unless one is pending; in
Quiesce a handler-served queue receives none (R171, R486). -/
def State.queueReady (s : State) (qn : Nat) : State :=
  let q := s.queue qn
  if s.readyPending qn q then s.setQueue qn { q with readyDue := false }
  else if !isCtrl qn && s.dev.power != 0 then s.setQueue qn { q with readyDue := true }
  else
    let (k, p) := s.queueFifo qn q
    match s.wfStart k false (ringItem 4 1 p (workWord qn q q.tail)) with
    | some s1 => s1.setQueue qn { q with readyDue := false }
    | none => (if q.readyDue then s else s.wfFull k).setQueue qn { q with readyDue := true }

/-- Items of ring service that waited are written as room appears (R148). -/
def State.ringFlush (s : State) : State :=
  let s1 := s.rings.events.foldl (fun s e =>
    match s.pushEvent e.1 e.2 with
    | some s' => { s' with rings := { s'.rings with events := s'.rings.events.drop 1 } }
    | none => s) s
  (SMap.keysWhere (fun _ q => q.readyDue) s1.rings.queues).foldl (fun s qn => s.queueReady qn) s1

/-- Reads of b entries are issued, each with a reservation of two words (R138, R182); they stop where the FIFO has no more
room. `first` says that the next is the first of its grant. -/
def State.issueReads (s : State) (qn : Nat) (first : Bool) : Nat → State
  | 0 => s
  | b + 1 =>
    let q := s.queue qn
    let (k, p) := s.queueFifo qn q
    if q.left == 0 || !s.wfRoom k false 2 then s else
    let serial := q.fetched + q.reading.length
    let bank := (s.fifo k).fill
    let s1 := (s.wfReserve k (readId qn serial) 2).setQueue qn
      { q with reading := q.reading ++ [⟨serial, k, bank, p, 0, first, false, none⟩] }
    (s1.hostRead 0 q.func (q.entryAddr (q.idxOf serial)) 64).issueReads qn false b

/-- GRANT: the arbiter of link k selects a queue, and the reads of up to a burst of its entries are issued (R180, R182).
The grant is charged with the reads issued. Before it, what waited in ring service for room is written. -/
def grant (k : Nat) (s : State) : State :=
  if s.adapterHalted then s else
  let s0 := s.ringFlush.arbSync
  match s0.selectQueue k with
  | (none, _) => s0
  | (some (f, g, qn), s1) =>
    if !s0.linkAwake f then s0.startExit f else
    let q := s1.queue qn
    let s2 := (s1.traffic f).issueReads qn true q.burst
    let b := (s2.queue qn).reading.length - q.reading.length
    (s2.chargeAll f g qn b).arbSync

/-! ## Work entries that return (R157, R159) -/

/-- A malformed entry halts the host adapter; the first since the adapter reset is recorded (R157, Table 6-12). -/
def State.ringMalformed (s : State) (qn : Nat) (q : Queue) (idx reason : Nat) : State :=
  let ctrl := isCtrl qn
  let who := if ctrl then q.func else qn
  let s1 := if s.fb F.RING_MALFORMED_INFO_VALID then s else
    s.wr R.RING_MALFORMED_INFO [] (w64 (b2n ctrl * 2 ^ 49 + 2 ^ 48 + idx * 2 ^ 32 + reason * 2 ^ 28 + q.func * 2 ^ 18 + who))
  s1.report (tsrc 9 0) 0x33 who idx

/-- A well-formed entry is taken: F advances past it and it is outstanding (R159, R160). A RECV claims its context (R264). -/
def State.takeEntry (s : State) (qn idx : Nat) (data : List Byte) : State :=
  let q := s.queue qn
  let s := if q.rq && leAt data 1 1 == 0x20 then s.claim (entryCtx data) q.func else s
  s.setQueue qn { q with fetched := q.fetched + 1, outstanding := q.outstanding ++ [⟨q.fetched, idx, data, false⟩] }

/-- The sample of a work entry fetched and its item committed, from the doorbell that made it fetchable; doorbells whose entries
are all fetched are forgotten (Table 20-4). -/
def State.fetchSample (s : State) (qn : Nat) : State :=
  let q := s.queue qn
  let bells := q.bells.filter fun b => decide (q.fetched ≤ b.1)
  let s1 := s.setQueue qn { q with bells := bells.filter fun b => decide (q.fetched < b.1) }
  match bells with
  | b :: _ => s1.histTime 8 (s.pfOf q.func) b.2
  | [] => s1

/-- A read found OWN = 0: fetching stops and T becomes F. The reservations of the reads in flight are released, and what
they were charged for is given back, but for 1 of each grant of which no entry is taken (R139, R159, R180). -/
def State.ownStop (s : State) (qn : Nat) : State :=
  let q := s.queue qn
  let s1 := q.reading.foldl (fun s r => s.giveUpRead qn r) s
  let back := (q.reading.filter (!·.first)).length
  let r := s1.rings
  let give (m : SMap ArbNode) (c : Nat) : SMap ArbNode :=
    if SMap.has m c then
      let n := m.get ArbNode.init c
      m.set ArbNode.init c { n with deficit := n.deficit + (back : Nat) }
    else m
  let s2 := if isCtrl qn then s1 else { s1 with rings := { r with
    nodeF := give r.nodeF q.func, nodeG := give r.nodeG (q.func * 8 + q.group), nodeQ := give r.nodeQ qn } }
  (s2.setQueue qn { q with reading := [], tail := q.fetch, bells := [] }).bump R.RING_OWN_STOP_COUNT

/-- The oldest read of a queue, which waits to be made again, is made again once its FIFO has room (R139, R147). -/
def State.issueAgain (s : State) (qn : Nat) : State :=
  let q := s.queue qn
  match q.reading with
  | [] => s
  | r :: rs =>
    if !r.waits || !s.wfRoom r.fifo false 2 || !s.canMaster q.func then s else
    ((s.wfReserve r.fifo (readId qn r.serial) 2).setQueue qn
      { q with reading := { r with waits := false, bank := (s.fifo r.fifo).fill } :: rs }).hostRead 0 q.func
        (q.entryAddr (q.idxOf r.serial)) 64

/-- The item of the oldest read of a queue is rewound: the entry is read once more, and a second failure puts the queue into ERROR
(R139). -/
def State.readFailed (s : State) (qn : Nat) : State :=
  let q := s.queue qn
  match q.reading with
  | [] => s
  | r :: rs =>
    let s1 := (s.giveUpRead qn r).bump R.WF_REWIND_COUNT (wfIx r.fifo)
    if r.failed == 0 then
      (s1.setQueue qn { q with reading := { r with failed := 1, waits := true, data := none } :: rs }).issueAgain qn
    else ((s1.setQueue qn { q with reading := rs }).report (tsrc 9 0) 0x30 qn (q.idxOf r.serial)).queueError qn 1

/-- WORK_ENTRY_READ: the oldest read of the queue returns. It may have failed (R139). OWN = 0 stops fetching. A malformed entry halts
the adapter. Any other goes to the write port as an item (R138, R159). Ring service reads control rings outside arbitration, one entry
at a time (R178). -/
def workEntryRead (qn st : Nat) (data : List Byte) (s : State) : State :=
  let s := if isCtrl qn && (s.queue qn).reading.isEmpty && s.fetchable qn (s.queue qn) && s.linkAwake (s.queue qn).func
    then s.issueReads qn true 1 else s
  let q := s.queue qn
  match q.reading with
  | [] => s
  | r :: rs =>
    if s.adapterHalted || r.data.isSome then s
    else if r.waits then s.issueAgain qn
    else if st != 0 then (s.hostErr q.func st).readFailed qn
    else
      let data := byteSlice data 0 64
      let idx := q.idxOf r.serial
      if !weOwn data then s.ownStop qn
      else match malformed (q.kind qn) data with
        | some reason => s.ringMalformed qn q idx reason
        | none =>
          let ty := match q.kind qn with
            | .sq => 1
            | .rq => 2
            | .ctrl => 3
          let it := ringItem ty 2 r.prio (workWord qn q idx ++ data)
          let s1 := s.giveUpRead qn r
          let x := s1.fifo r.fifo
          ((s1.setFifo r.fifo { x with writing := x.writing ++ [⟨some r.bank, false, it, .entry qn r.serial⟩] }).setQueue qn
            { q with reading := { r with data := some data } :: rs }).hostGot q.func 64

/-! ## The write port (R137 to R139) -/

/-- The item of a work entry is committed: the entry is taken (R159; DEDUCED, log entry 144). -/
def State.entryTaken (s : State) (qn serial : Nat) : State :=
  let q := s.queue qn
  match q.reading with
  | [] => s
  | r :: rs =>
    match (if r.serial == serial then r.data else none) with
    | some d => ((s.setQueue qn { q with reading := rs }).takeEntry qn (q.idxOf serial) d).fetchSample qn
    | none => s

/-- What hangs on an item's commit: the completion of an operation is delivered (R102), and a work entry is taken. -/
def State.written (s : State) (w : Writing) : State :=
  match w.for_ with
  | .plain => s
  | .opDone k order => if (s.op k).order == order then s.setOp k { s.op k with delivered := true } else s
  | .entry qn serial => s.entryTaken qn serial

/-- An item is rewound: ring service reads its entry again, and every other producer writes it again, in the bank that fills then and
when that has room (R139, R148). -/
def State.rewound (s : State) (k : Nat) (w : Writing) : State :=
  match w.for_ with
  | .entry qn _ => s.readFailed qn
  | _ => (s.bump R.WF_REWIND_COUNT (wfIx k)).wfOffer k w.reserveClass w.item w.for_

/-- ITEM_COMMIT: the port is granted to a producer, and its item is written and committed, or rewound (R137 to R139). -/
def itemCommit (c f : Nat) (bad : Bool) (s : State) : State :=
  let k := 4 * c + f
  let s := s.wfTakeAll k
  let x := s.fifo k
  match x.nextWriter with
  | none => s
  | some i =>
    match x.writing[i]? with
    | none => s
    | some w =>
      let s1 := s.setFifo k { x with writing := x.writing.eraseIdx i, turn := w.item.src }
      if bad then s1.rewound k w
      else (s1.wfCommit k (w.bank.getD x.fill) w.item).written w

/-! ## Doorbells (R168 to R172) -/

/-- The queue that a doorbell write addresses: in PF BAR0 a queue of the PF itself or its control ring, in VF BAR0 the
queue with that VF doorbell index (R168). -/
def State.slotQueue (s : State) (f off : Nat) : Option Nat :=
  let off8 := off / 8 * 8
  if f < 16 then
    if off8 == 0x1020 then (if (s.queue (ctrlQn f)).state == .ready then some (ctrlQn f) else none)
    else
      let qn := (off8 - 0x2000000) / 8
      let q := s.queue qn
      if 0x2000000 ≤ off8 && qn < 262144 && q.state != .unused && q.func == f then some qn else none
  else (s.rings.queues.find? fun e => e.2.state != .unused && e.2.func == f && e.2.vfDb * 8 == off8).map (·.1)

/-- Is an offset in a doorbell window at all? -/
def inDoorbells (f off : Nat) : Bool :=
  if f < 16 then (decide (0x1020 ≤ off) && decide (off < 0x1028)) || (decide (0x2000000 ≤ off) && decide (off < 0x2200000))
  else decide (off < 0x10000)

/-- DOORBELL: a write of `size` bytes at a doorbell offset of function f's BAR0 (R168 to R171). A poisoned write is discarded
(Table 18-5). -/
def doorbell (f off size : Nat) (v : Word) (bad : Bool) (s : State) : State :=
  if !inDoorbells f off then s
  else if bad then s.hostErr f 1
  else if !((size == 4 || size == 8) && off % 8 == 0) || decide (65536 ≤ v.toNat) then s.bump R.RING_DB_REJECT_COUNT
  else match s.slotQueue f off with
    | none => s.bump R.RING_DB_REJECT_COUNT
    | some qn =>
      let q := s.queue qn
      if q.state != .ready then s.bump R.RING_DB_REJECT_COUNT
      else if q.size ≤ v.toNat then s.bump R.RING_DB_RANGE_COUNT
      else
        let a := (v.toNat + q.size - q.fetch) % q.size
        let c := (q.tail + q.size - q.fetch) % q.size
        if a ≤ c then s.bump R.RING_DB_STALE_COUNT
        else
          let s1 := (s.setQueue qn { q with tail := v.toNat, bells := q.bells ++ [(q.fetched + a, s.loc)] }).pmuAtt (s.pfOf f) 0x306
          if q.handlerServed || isCtrl qn then s1.queueReady qn else s1

/-- What a read of a doorbell register returns (R172). -/
def State.doorbellRead (s : State) (f off : Nat) : Word :=
  match s.slotQueue f off with
  | some qn => w64 ((s.queue qn).fetch * 2 ^ 16 + (s.queue qn).tail)
  | none => 0

/-! ## Control rings (R175) -/

/-- HIF_CRING_STATUS.BUSY: a fetched command has no written completion (Table 6-8). -/
def State.cringBusy (s : State) (pf : Nat) : Bool :=
  let x := s.cq (ctrlCn pf)
  !(s.queue (ctrlQn pf)).outstanding.isEmpty || !x.direct.isEmpty || !x.held.isEmpty

/-- The control ring is enabled: a ring with F = T = 0, and no command outstanding but those fetched before (DEDUCED, log entry 24). -/
def State.cringEnable (s : State) (pf : Nat) : State :=
  let q := s.queue (ctrlQn pf)
  s.setQueue (ctrlQn pf) { Queue.init with
    state := .ready, cn := ctrlCn pf, base := s.fd F.HIF_CRING_BASE_BASE [pf] * 4096, log2 := s.fd F.HIF_CRING_CFG_LOG2_SIZE [pf]
    func := pf, handlerServed := true, prio := 6, start := q.fetched, fetched := q.fetched, outstanding := q.outstanding }

/-- The control completion ring is enabled: W = 0, K = N, an interrupt on every entry (R175, R161). -/
def State.ccqEnable (s : State) (pf : Nat) : State :=
  let lg := s.fd F.HIF_CCQ_CFG_LOG2_SIZE [pf]
  s.setCq (ctrlCn pf) { Cq.init with
    state := .ready, base := s.fd F.HIF_CCQ_BASE_BASE [pf] * 4096, log2 := lg, func := pf, k := 2 ^ lg
    vector := s.fd F.HIF_CCQ_CFG_VECTOR [pf], irqEn := s.fb F.HIF_CCQ_CFG_IRQ_EN [pf] }

/-- CRING_DISABLE: fetching stops at once; commands already fetched are carried out (R175). -/
def cringDisable (pf : Nat) (s : State) : State :=
  if !s.fb F.HIF_CRING_CFG_ENABLE [pf] then s else
  let s1 := (s.fset F.HIF_CRING_CFG_ENABLE [pf] false).dropReads (ctrlQn pf)
  let q := s1.queue (ctrlQn pf)
  s1.setQueue (ctrlQn pf) { q with state := .shutdown, tail := q.fetch, readyDue := false }

/-- CCQ_DISABLE: ignored while BUSY (R175). -/
def ccqDisable (pf : Nat) (s : State) : State :=
  if !s.fb F.HIF_CCQ_CFG_ENABLE [pf] || s.cringBusy pf then s
  else (s.fset F.HIF_CCQ_CFG_ENABLE [pf] false).setCq (ctrlCn pf) Cq.init

/-- HIF_CRING_STATUS (Table 6-8). The control program serves from boot stage 6 on, unless boot has failed, the adapter is halted or the
device is in the safe state (R450, R501; DEDUCED, log entry 150). -/
def State.cringStatus (s : State) (pf : Nat) : Word :=
  let serving := s.isRunning && !s.fb F.DEV_BOOT_STATUS_FAILED && !s.tgf.halted && !s.inSafe
  w64 (b2n s.tgf.halted * 2 ^ 31 + b2n serving * 2 ^ 30 + b2n (s.cringBusy pf) * 2 ^ 29 +
    (s.queue (ctrlQn pf)).fetch)

/-! ## Starting entries (R156) -/

/-- The entry of a queue at a ring index, if it is the next to start: entries start in ring order, and one with FENCE only
when every earlier entry has a committed completion. -/
def Queue.startable (q : Queue) (idx : Nat) : Option OutEntry :=
  match q.outstanding.find? (!·.started) with
  | some e =>
    if e.idx == idx && (!weFence e.bytes || (q.outstanding.head?.map (·.serial)) == some e.serial) then some e else none
  | none => none

/-- An entry has started. -/
def State.markStarted (s : State) (qn serial : Nat) : State :=
  let q := s.queue qn
  s.setQueue qn { q with outstanding := q.outstanding.map fun e => if e.serial == serial then { e with started := true } else e }

/-- How a control command ends: at once with a completion, or later. -/
abbrev CtrlEnd := Option WorkDone

/-- The control program carries out the command at a ring index of a PF's control ring, when it is the next to start, has
the opcode, and its completion can be committed (R175). It runs while the device runs and is not parked. -/
def State.ctrlAny (s : State) (pf idx op : Nat) (body : List Byte → Nat → State → CtrlEnd × State) : State :=
  let qn := ctrlQn pf
  let q := s.queue qn
  match q.startable idx with
  | none => s
  | some e =>
    if weOp e.bytes != op || !s.isRunning || s.inSafe || 2 ≤ s.dev.power || !s.cqRoom q.cn then s else
    match body e.bytes e.serial (s.markStarted qn e.serial) with
    | (some d, s1) => s1.workDone qn e.serial d
    | (none, s1) => s1

/-- The same, for a command that an adapter halt stops (R192). -/
def State.ctrl (s : State) (pf idx op : Nat) (body : List Byte → Nat → State → CtrlEnd × State) : State :=
  if s.adapterHalted then s else s.ctrlAny pf idx op body

/-- A command ends with a status and no more. -/
def endsWith (status : Nat) (s : State) : CtrlEnd × State := (some { status := status }, s)
def ctrlArg : Nat := 0x30
def ctrlNoResource : Nat := 0x31
def ctrlBusy : Nat := 0x32
def ctrlDenied : Nat := 0x33

/-! ## Queue and ring commands (R176) -/

/-- CQ_CREATE (Table 6-10). The cluster that owns the ring is assigned when it is created; which, is free (R24, log
entry 25). -/
def cqCreateBody (pf : Nat) (b : List Byte) (_ : Nat) (s : State) : CtrlEnd × State :=
  let cn := leAt b 8 2
  let lg := leAt b 10 1
  let f := leAt b 12 2
  let base := leAt b 16 8
  let v := leAt b 24 2
  let mc := leAt b 26 2
  let mt := leAt b 28 4
  if lg < 6 || 16 < lg || base % 4096 != 0 || vectorsOf f ≤ v || mc == 0 || 1000000 < mt then endsWith ctrlArg s
  else if !s.mayName pf f then endsWith ctrlDenied s
  else if (s.cq cn).state != .unused then endsWith ctrlBusy s
  else
    let (c, s1) := s.freeBelow (s.clusterCount - 1)
    endsWith 0 (s1.setCq cn { Cq.init with
      state := .ready, log2 := lg, base := base, func := f, cluster := c, vector := v, modCount := mc, modTime := mt
      irqEn := nbit (leAt b 32 1) 0, k := 2 ^ lg })

/-- CQ_MODIFY: IRQ_EN, vector, MOD_COUNT and MOD_TIME; the interrupt's conditions are evaluated with them at once
(R173). -/
def cqModifyBody (pf : Nat) (b : List Byte) (_ : Nat) (s : State) : CtrlEnd × State :=
  let cn := leAt b 8 2
  let f := leAt b 12 2
  let v := leAt b 24 2
  let mc := leAt b 26 2
  let mt := leAt b 28 4
  let x := s.cq cn
  if vectorsOf f ≤ v || mc == 0 || 1000000 < mt || x.state == .unused || (s.mayName pf f && x.func != f) then endsWith ctrlArg s
  else if !s.mayName pf f then endsWith ctrlDenied s
  else
    let timer := if mt == 0 then none else match x.timer with
      | some t => some t
      | none => if x.pend == 0 then none else some s.loc
    endsWith 0 ((s.setCq cn { x with irqEn := nbit (leAt b 32 1) 0, vector := v, modCount := mc, modTime := mt, timer := timer }).irqCheck cn)

/-- CQ_DESTROY (Table 7-5). -/
def cqDestroyBody (pf : Nat) (b : List Byte) (_ : Nat) (s : State) : CtrlEnd × State :=
  let cn := leAt b 8 2
  let x := s.cq cn
  if x.state == .unused then endsWith ctrlArg s
  else if !s.mayName pf x.func then endsWith ctrlDenied s
  else if !(s.queuesOfCq cn).isEmpty || !x.held.isEmpty || !x.direct.isEmpty || x.state == .full then endsWith ctrlBusy s
  else endsWith 0 (s.setCq cn Cq.init)

/-- CQ_RESET (Table 7-5). -/
def cqResetBody (pf : Nat) (b : List Byte) (_ : Nat) (s : State) : CtrlEnd × State :=
  let cn := leAt b 8 2
  let x := s.cq cn
  if x.state == .unused then endsWith ctrlArg s
  else if !s.mayName pf x.func then endsWith ctrlDenied s
  else if x.state != .failed || !x.held.isEmpty then endsWith ctrlBusy s
  else endsWith 0 (s.setCq cn { x with state := .ready, w := 0, k := 2 ^ x.log2, reading := false, emptyRead := false, pollAt := none })

/-- Has a cluster that exists an engine in service (R536)? -/
def State.clusterLives (s : State) (c : Nat) : Bool :=
  decide (c < s.clusterCount) && (List.range 8).any fun e => !(s.engine (8 * c + e)).retired

/-- The queue slot of a new queue (R200): that of its connection for the first SQ bound to it, else the lowest free one
from 16,384 (DESIGN CHOICE, log entry 26). -/
def State.newSlot (s : State) (c : Nat) (rq : Bool) (conn : Option Nat) : Option Nat :=
  let used (n : Nat) : Bool := s.rings.queues.any fun e => e.2.state != .unused && e.2.cluster == c && e.2.qslot == n
  let free := (firstBelow 49152 fun i => !used (16384 + i)).map (16384 + ·)
  match conn with
  | some r => if !rq && !used (r % 16384) then some (r % 16384) else free
  | none => free

/-- Q_CREATE (Table 6-10, R200, R536, Table 7-1). -/
def qCreateBody (pf : Nat) (b : List Byte) (_ : Nat) (s : State) : CtrlEnd × State :=
  let qn := leAt b 8 4
  let kind := leAt b 12 1
  let lg := leAt b 13 1
  let cn := leAt b 14 2
  let base := leAt b 16 8
  let f := leAt b 24 2
  let vdb := leAt b 26 2
  let steer := leAt b 29 1
  let cf := leAt b 32 4
  let arb := leAt b 36 4
  let none_ := nbit cf 31
  let ref := nbits cf 19 0
  let c := ref / 16384
  let half := s.net.halves.get Half.init ref
  let x := s.cq cn
  if 1 < kind || lg < 6 || 16 < lg || base % 4096 != 0 || arb % 256 == 0 || (f < 16 && vdb != 0) || x.state == .unused ||
      (x.func != f && s.mayName pf f) || (if none_ then !s.clusterLives c else half.state == .unused || half.state == .quiet)
  then endsWith ctrlArg s
  else if !s.mayName pf f || (!none_ && !s.mayName pf half.func) then endsWith ctrlDenied s
  else if (s.queue qn).state != .unused || (decide (16 ≤ f) && s.rings.queues.any fun e =>
      e.2.state != .unused && e.2.func == f && e.2.vfDb == vdb) then endsWith ctrlBusy s
  else
    let conn := if none_ then none else some ref
    match s.newSlot c (kind == 1) conn with
    | none => endsWith ctrlNoResource s
    | some slot =>
      endsWith 0 (s.setQueue qn { (s.queue qn).gone with
        state := .ready, rq := kind == 1, log2 := lg, cn := cn, base := base, func := f, vfDb := vdb
        handlerServed := nbit (leAt b 28 1) 0, fifo := steer % 4, prio := nbits steer 4 2, conn := conn, cluster := c
        qslot := slot, burst := nbits arb 14 12 + 1, group := nbits arb 10 8, weight := arb % 256 })

/-- Q_MODIFY (R183): the STEER of items reserved from now on, and the ARB from the queue's next new turn. -/
def qModifyBody (pf : Nat) (b : List Byte) (_ : Nat) (s : State) : CtrlEnd × State :=
  let qn := leAt b 8 4
  let steer := leAt b 29 1
  let arb := leAt b 36 4
  let q := s.queue qn
  if arb % 256 == 0 || q.state == .unused then endsWith ctrlArg s
  else if !s.mayName pf q.func then endsWith ctrlDenied s
  else
    let s1 := s.setQueue qn { q with
      fifo := steer % 4, prio := nbits steer 4 2, newArb := some (nbits arb 14 12 + 1, nbits arb 10 8, arb % 256) }
    endsWith 0 s1

/-- Q_SHUTDOWN (R184, R185): its completion is posted by QUEUE_SHUTDOWN_DONE. -/
def qShutdownBody (pf : Nat) (b : List Byte) (serial : Nat) (s : State) : CtrlEnd × State :=
  let qn := leAt b 8 4
  let q := s.queue qn
  if q.state == .unused then endsWith ctrlArg s
  else if !s.mayName pf q.func then endsWith ctrlDenied s
  else if q.state == .draining || q.state == .shutdown || q.shutdownBy.isSome then endsWith ctrlBusy s
  else
    let s1 := s.dropReads qn
    let q := s1.queue qn
    let st := if q.state == .ready then QState.draining else q.state
    (none, ((s1.setQueue qn { q with state := st, shutdownBy := some (pf, serial), readyDue := false }).abortPass qn))

/-- QUEUE_SHUTDOWN_DONE: a queue under Q_SHUTDOWN has no outstanding entry and no operation of its entries left (R184). -/
def queueShutdownDone (qn : Nat) (s : State) : State :=
  let q := s.queue qn
  match q.shutdownBy with
  | none => s
  | some (pf, serial) =>
    let running := s.ops.any fun e => e.2.isOpen && match e.2.origin with
      | .work n _ => n == qn
      | .rendezvous _ _ n _ => n == qn
      | _ => false
    if !q.outstanding.isEmpty || running || !s.cqRoom (ctrlCn pf) || s.adapterHalted then s
    else (s.setQueue qn { q with state := .shutdown, shutdownBy := none }).workDone (ctrlQn pf) serial { status := 0 }

/-- Does a ring hold or have yet to write a completion of the queue (R186)? -/
def State.holdsFor (s : State) (qn : Nat) : Bool :=
  let x := s.cq (s.queue qn).cn
  (x.direct ++ x.held).any fun c => match c.work with
    | some (n, _) => n == qn
    | none => false

/-- Q_DESTROY (Table 7-3). -/
def qDestroyBody (pf : Nat) (b : List Byte) (_ : Nat) (s : State) : CtrlEnd × State :=
  let qn := leAt b 8 4
  let q := s.queue qn
  if q.state == .unused then endsWith ctrlArg s
  else if !s.mayName pf q.func then endsWith ctrlDenied s
  else if q.state != .shutdown || s.holdsFor qn then endsWith ctrlBusy s
  else endsWith 0 (s.setQueue qn q.gone)

/-- Q_ABORT (R187). The abort reaches the commit point here: an entry that is still outstanding completes ABORTED. -/
def qAbort (pf idx : Nat) (s : State) : State :=
  let room := match (s.queue (ctrlQn pf)).startable idx with
    | some e => s.cqRoom (s.queue (leAt e.bytes 8 4)).cn
    | none => true
  if !room then s else
  s.ctrl pf idx 0x48 fun b _ s =>
    let qn := leAt b 8 4
    let i := leAt b 12 2
    let q := s.queue qn
    if q.state == .unused then endsWith ctrlArg s
    else if !s.mayName pf q.func then endsWith ctrlDenied s
    else if q.state != .ready || q.size ≤ i then endsWith ctrlArg s
    else match q.outstanding.find? (·.idx == i) with
      | some e =>
        if s.recvMatched qn e then endsWith 0 (s.recvNotFound qn e) else (some { status := 0, bytes := 1 }, s.abortEntry qn e.serial)
      | none =>
        let ahead := decide ((i + q.size - q.fetch) % q.size < (q.tail + q.size - q.fetch) % q.size)
        if ahead || q.fetched - q.start ≤ i then endsWith ctrlArg s else endsWith 0 s

/-! ## Adapter reset: rings, queues and interrupts (R193) -/

/-- What an adapter reset does to ring service and interrupts: every queue and ring UNUSED, stash and pool empty, the ring
items of the FIFOs discarded and those being written rewound, held interrupts discarded, both ENABLE bits of every control ring cleared. -/
def State.ringsReset (s : State) : State :=
  let s := s.fifos.foldl (fun s e => s.bump R.WF_REWIND_COUNT (wfIx e.1) e.2.resetRewinds) s
  let s1 := { s with
    rings := { Rings.init with queues := SMap.mapVals Queue.init (fun _ q => q.gone) s.rings.queues }
    fifos := SMap.mapVals Fifo.init (fun _ x => x.afterAdapterReset) s.fifos
    host := { s.host with funcs := SMap.mapVals Func.init (fun _ x => { x with held := [] }) s.host.funcs } }
  let s2 := (List.range 16).foldl (fun s p =>
    (s.fset F.HIF_CRING_CFG_ENABLE [p] false).fset F.HIF_CCQ_CFG_ENABLE [p] false) s1
  s2.wr R.RING_MALFORMED_INFO [] 0

/-! ## Status registers -/

/-- RING_Q_STATE (Table 7-10). -/
def State.ringQState (s : State) (qn : Nat) : Word :=
  let q := s.queue qn
  let x := s.cq q.cn
  let code := match q.state with
    | .unused => 0 | .ready => 1 | .draining => 2 | .shutdown => 3 | .error => 4
  if q.state == .unused then 0 else
  w64 (b2n (x.state == .full || x.state == .failed) * 128 + b2n q.work * 64 + code)

/-- RING_CQ_STATE (Table 7-11). -/
def State.ringCqState (s : State) (cn : Nat) : Word :=
  let x := s.cq cn
  let code := match x.state with
    | .unused => 0 | .ready => 1 | .full => 2 | .failed => 3
  w64 (min 64 x.held.length * 2 ^ 16 + code)

/-! ## The commands -/

/-- BANK_SWAP (R142). -/
def execBankSwap (c f : Nat) (s : State) : Host.Outcome State Fault Refusal := .next (s.synced (bankSwap c f))
/-- ITEM_COMMIT (R138, R139); Work FIFOs are frozen in the safe state (Table 19-5). -/
def execItemCommit (c f : Nat) (bad : Bool) (s : State) : Host.Outcome State Fault Refusal :=
  .next (s.synced (itemCommit c f bad))
/-- GRANT (R180). -/
def execGrant (k : Nat) (s : State) : Host.Outcome State Fault Refusal := .next (s.live (grant k))
/-- WORK_ENTRY_READ (R159). -/
def execWorkEntryRead (qn st : Nat) (data : List Byte) (s : State) : Host.Outcome State Fault Refusal :=
  .next (s.synced (workEntryRead qn st data))
/-- CQ_OWN_READ (R161). -/
def execCqOwnRead (cn : Nat) (s : State) : Host.Outcome State Fault Refusal := .next (s.live (cqOwnRead cn))
/-- CQ_OWN_READ_DONE (R161). -/
def execCqOwnReadDone (cn st n : Nat) (s : State) : Host.Outcome State Fault Refusal := .next (s.synced (cqOwnReadDone cn st n))
/-- CQ_POLL (R161). -/
def execCqPoll (cn : Nat) (s : State) : Host.Outcome State Fault Refusal := .next (s.live (cqPoll cn))
/-- RING_STALL_TIMEOUT (R189). -/
def execRingStallTimeout (cn : Nat) (s : State) : Host.Outcome State Fault Refusal := .next (s.synced (ringStallTimeout cn))
/-- MOD_TIMER (R173). -/
def execModTimer (cn : Nat) (s : State) : Host.Outcome State Fault Refusal := .next (s.live (modTimer cn))
/-- CRING_DISABLE (R175). -/
def execCringDisable (pf : Nat) (s : State) : Host.Outcome State Fault Refusal := .next (if s.inSafe then s else cringDisable pf s)
/-- CCQ_DISABLE (R175). -/
def execCcqDisable (pf : Nat) (s : State) : Host.Outcome State Fault Refusal := .next (if s.inSafe then s else ccqDisable pf s)
/-- CQ_CREATE (R176). -/
def execCqCreate (pf idx : Nat) (s : State) : Host.Outcome State Fault Refusal := .next (s.ctrl pf idx 0x40 (cqCreateBody pf))
/-- CQ_MODIFY (R173). -/
def execCqModify (pf idx : Nat) (s : State) : Host.Outcome State Fault Refusal := .next (s.ctrl pf idx 0x41 (cqModifyBody pf))
/-- CQ_DESTROY (R189). -/
def execCqDestroy (pf idx : Nat) (s : State) : Host.Outcome State Fault Refusal := .next (s.ctrl pf idx 0x42 (cqDestroyBody pf))
/-- CQ_RESET (R189). -/
def execCqReset (pf idx : Nat) (s : State) : Host.Outcome State Fault Refusal := .next (s.synced fun s => s.ctrl pf idx 0x43 (cqResetBody pf))
/-- Q_CREATE (R176). -/
def execQCreate (pf idx : Nat) (s : State) : Host.Outcome State Fault Refusal := .next (s.ctrl pf idx 0x44 (qCreateBody pf))
/-- Q_MODIFY (R183). -/
def execQModify (pf idx : Nat) (s : State) : Host.Outcome State Fault Refusal := .next (s.synced fun s => s.ctrl pf idx 0x45 (qModifyBody pf))
/-- Q_SHUTDOWN (R185). -/
def execQShutdown (pf idx : Nat) (s : State) : Host.Outcome State Fault Refusal := .next (s.synced fun s => s.ctrl pf idx 0x46 (qShutdownBody pf))
/-- QUEUE_SHUTDOWN_DONE (R184). -/
def execQueueShutdownDone (qn : Nat) (s : State) : Host.Outcome State Fault Refusal := .next (s.live (queueShutdownDone qn))
/-- Q_DESTROY (R184). -/
def execQDestroy (pf idx : Nat) (s : State) : Host.Outcome State Fault Refusal := .next (s.ctrl pf idx 0x47 (qDestroyBody pf))
/-- Q_ABORT (R187). -/
def execQAbort (pf idx : Nat) (s : State) : Host.Outcome State Fault Refusal := .next (qAbort pf idx s)

end Sys2Proof.Machine
end

