-- ==== Sys2Proof/Machine/Net.lean ====
section
/-! DEFINITION. Machine/Net.lean: connection halves, endpoints, keys, revocation, the commands on them, and invalidation
(chapters 8 and 10). -/
namespace Sys2Proof.Machine

/-! ## Access -/

/-- A connection half (R200). While the adapter is halted its stream holds no packets (R350). -/
def State.half (s : State) (r : Nat) : Half :=
  let h := s.net.halves.get Half.init r
  if s.adapterHalted then { h with rx := h.rx.shed } else h
/-- A connection half replaced. -/
def State.setHalf (s : State) (r : Nat) (x : Half) : State :=
  { s with net := { s.net with halves := s.net.halves.set Half.init r x } }
/-- A half's receiving stream replaced. -/
def State.setRx (s : State) (r : Nat) (x : Stream) : State := s.setHalf r { s.half r with rx := x.settled }
/-- A local endpoint (R197). -/
def State.endpoint (s : State) (ep : Nat) : Option Endpoint := s.net.endpoints.get none ep
/-- A collective that this device has joined. -/
def State.coll (s : State) (id : Nat) : Option Coll := s.net.colls.get none id
/-- A collective replaced. -/
def State.setColl (s : State) (id : Nat) (x : Option Coll) : State :=
  { s with net := { s.net with colls := s.net.colls.set none id x } }

/-- The half for a tuple of local endpoint, remote endpoint and channel, in any state (R199, R339). -/
def State.findHalf (s : State) (loc rem chan : Nat) : Option Nat :=
  (s.net.halves.find? fun e =>
    e.2.state != .unused && e.2.localEp == loc && e.2.remoteEp == rem && e.2.chan == chan).map (·.1)

/-- L, the packet lifetime in ticks (R342). -/
def State.lifetime (s : State) : Nat := (s.rd R.SLD_LIFETIME).toNat

/-- s as a position after n, modulo 2^32: how far, or none when it is below n (R220). -/
def seqAhead (s n : BitVec 32) : Option Nat := let d := (s - n).toNat; if d < 2 ^ 31 then some d else none
/-- Is s below e (R220)? -/
def seqBelow (s e : BitVec 32) : Bool := let d := (e - s).toNat; decide (1 ≤ d) && decide (d ≤ 2 ^ 31)

/-! ## Errors of a half (R202, R213, R234) -/

/-- A collective RUN ends: its entry completes, and after anything but SUCCESS the collective is failed here (R291). -/
def State.collEnd (s : State) (id : Nat) (d : WorkDone) : State :=
  match s.coll id with
  | none => s
  | some c => match c.run with
    | none => s
    | some r => s.workDone r.qn r.serial d

/-- The status words of a latched error for a work entry: REMOTE_ERROR carries the target's code. -/
def Half.latched (h : Half) : WorkDone := { status := h.lastErr, detail := if h.lastErr == 0x0B then h.lastDetail else 0 }

/-- The outstanding GET, AMO and FLUSH entries of a queue complete with the status latched by its connection (R213). -/
def State.endLatched (s : State) (qn : Nat) (d : WorkDone) : State :=
  ((s.queue qn).outstanding.filter fun e => weOp e.bytes == 3 || weOp e.bytes == 4 || weOp e.bytes == 6).foldl
    (fun s e => if s.cqRoom (s.queue qn).cn then (s.workDone qn e.serial d).abortWork qn e.serial else s) s

/-- The GET, AMO and FLUSH operations of a half that are open (R213). -/
def State.answeredOps (s : State) (r : Nat) : List Nat :=
  SMap.keysWhere (fun _ o => o.isOpen && o.conn == some r && (o.kind == 2 || o.kind == 3 || o.kind == 5)) s.ops

/-- A half enters ERROR: the first status is latched; its open gets, atomics and flushes complete with it, and its bound
queues enter ERROR (R202, R213). -/
def State.halfError (s : State) (r status : Nat) (seq : BitVec 32) (detail : Nat) : State :=
  let h := s.half r
  if h.state != .established then s else
  let h' := { h with state := .error, lastErr := status, lastErrSeq := seq, lastDetail := detail, pendingOps := [] }
  let s1 := s.setHalf r h'
  let qs := s1.queuesOfConn r
  let s2 := qs.foldl (fun s qn => s.endLatched qn h'.latched) s1
  let s3 := (s2.answeredOps r).foldl (fun s k => s.completeWith k status (w64 h'.latched.detail) (s.op k).bytes) s2
  let s4 := qs.foldl (fun s qn => s.queueError qn 2) s3
  match h.coll with
  | some id => s4.collEnd id h'.latched
  | none => s4

/-- A held packet has been held until now (R351). -/
def State.noteHeld (s : State) (x : Held) : State := s.maxTo R.SLD_HOLD_MAX [] (s.locSince x.at_ / 4)

/-- A half is destroyed: it keeps its reference and tuple for 2 × L and forgets everything else (R202, R349, R350). -/
def State.quietHalf (s : State) (r : Nat) : State :=
  let h := s.half r
  (h.rx.held.foldl State.noteHeld s).setHalf r { h with
    state := .quiet, quietEnd := s.locIn (2 * s.lifetime), tx := [], pendingOps := [], acks := [], rx := Stream.init }

/-- CONN_QUIET_END: the quiet timer ends (R202). -/
def connQuietEnd (r : Nat) (s : State) : State :=
  let h := s.half r
  if h.state == .quiet && s.locReached h.quietEnd then s.setHalf r Half.init else s

/-! ## Endpoint and connection commands (R197 to R203) -/

/-- EP_CREATE. -/
def epCreateBody (pf : Nat) (b : List Byte) (_ : Nat) (s : State) : CtrlEnd × State :=
  let ep := leAt b 8 3
  let f := leAt b 12 2
  if !s.mayName pf f then endsWith ctrlDenied s
  else if (s.endpoint ep).isSome then endsWith ctrlBusy s
  else if 65536 ≤ s.net.endpoints.length then endsWith ctrlNoResource s
  else endsWith 0 { s with net := { s.net with endpoints := s.net.endpoints.set none ep (some ⟨f, leAt b 14 2⟩) } }

/-- EP_DESTROY: only an endpoint with no connection half. -/
def epDestroyBody (pf : Nat) (b : List Byte) (_ : Nat) (s : State) : CtrlEnd × State :=
  let ep := leAt b 8 3
  match s.endpoint ep with
  | none => endsWith ctrlArg s
  | some e =>
    if !s.mayName pf e.func then endsWith ctrlDenied s
    else if s.net.halves.any fun h => h.2.state != .unused && h.2.localEp == ep then endsWith ctrlBusy s
    else endsWith 0 { s with net := { s.net with endpoints := s.net.endpoints.set none ep none } }

/-- CONN_CREATE (Table 8-3, R203). -/
def connCreateBody (pf : Nat) (b : List Byte) (_ : Nat) (s : State) : CtrlEnd × State :=
  let r := leAt b 8 4
  let lep := leAt b 12 3
  let rep := leAt b 16 3
  let ch := leAt b 19 1
  let iso := leAt b 20 2
  let tc := leAt b 22 1
  let steer := leAt b 23 1
  let cn := leAt b 40 2
  let f := leAt b 42 2
  let win := leAt b 48 2
  let epOk := match s.endpoint lep with
    | some e => e.func == f && e.iso == iso
    | none => false
  let x := s.cq cn
  if s.clusterCount ≤ r / 16384 || !epOk || tc == 7 || maxMessage < leAt b 44 4 || win == 0 || 16384 < win ||
      leAt b 52 2 == 0 || x.state == .unused || x.func != f then endsWith ctrlArg s
  else if !s.mayName pf f then endsWith ctrlDenied s
  else if (s.half r).state != .unused || (s.findHalf lep rep (ch % 16)).isSome then endsWith ctrlBusy s
  else
    let tx := BitVec.ofNat 32 (leAt b 32 4)
    let rx := BitVec.ofNat 32 (leAt b 36 4)
    endsWith 0 (s.setHalf r { Half.init with
      state := .established, localEp := lep, remoteEp := rep, chan := ch % 16, rlx := nbit ch 4, iso := iso, tc := tc
      fifo := steer % 4, prio := nbits steer 4 2, localAsk := leAt b 24 4, remoteKey := leAt b 28 4, notifyCn := cn
      func := f, maxLen := leAt b 44 4, window := win, rlBudget := leAt b 50 1, rlDelay := leAt b 52 2
      txSeq := tx, cum := tx, cutSeq := tx - 1, rx := { Stream.init with e := rx, nr := rx } })

/-- CONN_DESTROY (Table 8-6). -/
def connDestroyBody (pf : Nat) (b : List Byte) (_ : Nat) (s : State) : CtrlEnd × State :=
  let r := leAt b 8 4
  let h := s.half r
  if h.state == .unused then endsWith ctrlArg s
  else if !s.mayName pf h.func then endsWith ctrlDenied s
  else if h.state == .quiet || (s.queuesOfConn r).any fun qn => (s.queue qn).state != .shutdown then endsWith ctrlBusy s
  else endsWith 0 (s.quietHalf r)

/-! ## Keys (R204 to R207, R240) -/

/-- A key: GEN in [31:20], ASK in [19:0] (R204). -/
def keyAsk (k : Nat) : Nat := k % 2 ^ 20
def keyGen (k : Nat) : Nat := nbits k 31 20
def keyOf (gen ask : Nat) : Nat := gen * 2 ^ 20 + ask

/-- An ASK table entry (Table 10-1) of an ASK that is not device-owned. -/
def askEntry (root gen iso func rights levels state quiet : Nat) : List Byte :=
  leBytes 8 root ++ leBytes 2 gen ++ leBytes 2 iso ++ leBytes 2 func ++ leBytes 1 rights ++
  leBytes 1 (state * 16 + levels) ++ leBytes 8 quiet ++ zeroBytes 8

/-- The control program changes the state of an ASK and its QUIET_END, and invalidates it (R240). -/
def State.askMove (s : State) (ask st quiet : Nat) : State :=
  let s1 := (s.askSetState ask st).mwrite (s.askKey ask + 16) (leBytes 8 quiet)
  (s1.dropPend ask).startInval 1 ask 0 0 none none

/-- ASK_CREATE (Table 8-4): it completes, with the new key, when the ASK has been invalidated. -/
def askCreateBody (pf : Nat) (b : List Byte) (serial : Nat) (s : State) : CtrlEnd × State :=
  let ask := leAt b 8 4
  let f := leAt b 12 2
  let levels := leAt b 17 1
  let root := leAt b 24 8
  let old := s.askMem ask
  if levels < 3 || 5 < levels || root % 4096 != 0 || 2 ^ 52 ≤ root then endsWith ctrlArg s
  else if !s.mayName pf f then endsWith ctrlDenied s
  else if askState old != 0 then endsWith ctrlBusy s
  else
    let gen := if askGen old ≥ 4095 then 1 else askGen old + 1
    let s1 := s.mwrite (s.askKey ask) (askEntry root gen (leAt b 14 2) f (leAt b 16 1) levels 1 0)
    (none, s1.startInval 1 ask 0 0 none (some (pf, serial, keyOf gen ask)))

/-- The revocation point of an ASK (R208): XLT_REVOKE_CTRL.GO is set with it, and FT is latched. -/
def State.revokePoint (s : State) (ask : Nat) (by_ : Option (Nat × Nat)) : State :=
  let s1 := s.wr R.XLT_REVOKE_CTRL [] (w64 (2 ^ 31 + ask))
  let s2 := s1.wr R.XLT_REVOKE_FT [] s.ft
  { s2 with net := { s2.net with revoking := some ⟨ask, s.loc, by_⟩ } }

/-- An ASK_REVOKE in its turn: its arguments, its rights, the state of the ASK, and the revocation point (R209, R210). -/
def revokeStart (pf key serial : Nat) (s : State) : CtrlEnd × State :=
  let ask := keyAsk key
  let b := s.askMem ask
  if askState b == 0 || askGen b != keyGen key then endsWith ctrlArg s
  else if askDev b || !s.mayName pf (askFunc b) then endsWith ctrlDenied s
  else if askState b == 3 || askState b == 4 || s.isRevoking ask then endsWith ctrlBusy s
  else if s.net.revoking.isSome then
    (none, { s with net := { s.net with revokeQueue := s.net.revokeQueue ++ [(pf, serial, key)] } })
  else (none, (s.revokePoint ask (some (pf, serial))).askMove ask 3 0)

/-- ASK_REVOKE (R208). -/
def askRevokeBody (pf : Nat) (b : List Byte) (serial : Nat) (s : State) : CtrlEnd × State :=
  revokeStart pf (leAt b 8 4) serial s

/-- The ASK_REVOKE commands that wait have their turn, up to the first that starts a revocation (R210). -/
def State.revokeNext : List (Nat × Nat × Nat) → State → State
  | [], s => { s with net := { s.net with revokeQueue := [] } }
  | (pf, serial, key) :: rest, s =>
    match revokeStart pf key serial { s with net := { s.net with revokeQueue := rest } } with
    | (some d, s2) => State.revokeNext rest (s2.workDone (ctrlQn pf) serial d)
    | (none, s2) => s2

/-- The next ASK_REVOKE that waits has its turn (R210). -/
def State.nextRevoke (s : State) : State := State.revokeNext s.net.revokeQueue s

/-- XLT_REVOKE_CTRL written with GO by Control-level code: a revocation starts, unless one is in progress (R208, R210). -/
def xltRevokeCtrl (path : Path) (v : Word) (s : State) : State :=
  if !s.mayWrite path R.XLT_REVOKE_CTRL.base || s.net.revoking.isSome then s
  else if bitW v 31 then s.revokePoint (bitsW v 19 0) none
  else s.fw F.XLT_REVOKE_CTRL_ASK [] (bitsW v 19 0)

/-- Is the ASK named by a key under which a transfer, or a read of a put's or a response's source, has passed its check and is not
complete (R128, R208)? -/
def Op.keyedUnder (o : Op) (ask : Nat) : Bool :=
  o.isOpen && !o.held && ((o.kind == 0xC && ((leAt o.block 12 1 == 4 && keyAsk (leAt o.block 16 4) == ask) ||
      (leAt o.block 13 1 == 2 && keyAsk (leAt o.block 20 4) == ask))) || o.keyed == some ask)

/-- Does an accepted keyed transfer under the ASK remain (R208)? -/
def State.keyedRemains (s : State) (ask : Nat) : Bool :=
  (s.ops.any fun e => e.2.keyedUnder ask) ||
  s.clusters.any fun e => e.2.refs.any fun r => match r.2 with
    | some p => p.accepted && keyAsk p.pkt.key == ask
    | none => false

/-- Is an invalidation of the ASK in progress? -/
def State.askInvalidating (s : State) (ask : Nat) : Bool :=
  (s.net.invals ++ s.net.invalQueue).any fun i => i.scope == 1 && i.ask == ask

/-- REVOKE_DRAIN: no accepted keyed transfer under the ASK remains, and no cache holds the ASK as it was (R208, R209). -/
def revokeDrain (s : State) : State :=
  match s.net.revoking with
  | none => s
  | some r =>
    let room := match r.by_ with
      | some (pf, _) => s.cqRoom (ctrlCn pf)
      | none => true
    if s.keyedRemains r.ask || s.askInvalidating r.ask || !room then s else
    let s1 := (s.fset F.XLT_REVOKE_CTRL_GO [] false).wr R.XLT_REVOKE_DRAIN_FT [] s.ft
    let s2 := s1.bump R.XLT_REVOKE_COUNT
    let s3 := if 8000 < s.locSince r.from_ then s2.bump R.XLT_REVOKE_SLOW_COUNT else s2
    let s4 := { s3 with net := { s3.net with revoking := none } }
    let s5 := match r.by_ with
      | some (pf, serial) =>
        (s4.askMove r.ask 4 (s4.loc.toNat + 2 * s4.lifetime)).workDone (ctrlQn pf) serial { status := 0 }
      | none => s4
    s5.nextRevoke

/-- ASK_QUIET_END: the quiet time of a REVOKED ASK ends (Table 8-7). -/
def askQuietOver (ask : Nat) (s : State) : State :=
  let b := s.askMem ask
  if ask < 2 ^ 20 && askState b == 4 && decide (askQuietEnd b ≤ s.loc.toNat) then s.askMove ask 0 0 else s

/-! ## Key checks (R128, Table 8-9 steps 4 to 6) -/

/-- A key check: GEN, then revocation, then the isolation domain; the status that refuses, counted (Table 8-14). -/
def State.keyCheck (s : State) (c key iso : Nat) : Option Nat × List Byte × State :=
  let (b, s1) := s.askOf c (keyAsk key)
  if askState b == 0 || askGen b != keyGen key || keyGen key == 0 then (some 7, b, s1.bump R.XLT_KEY_INVALID_COUNT)
  else if askState b != 1 || s.isRevoking (keyAsk key) then (some 8, b, s1.bump R.XLT_KEY_REFUSE_COUNT)
  else if askIso b != iso then (some 9, b, s1)
  else (none, b, s1)

/-! ## Pending faults (R253) -/

/-- The oldest unreported fault and the wait that takes it, when one of its PF is posted and its record can be written. -/
def State.faultToReport (s : State) : Option (PendFault × Nat × Nat × Nat) :=
  s.net.pendFaults.findSome? fun p =>
    let pf := s.pfOf (askFunc (s.askMem p.ask))
    match s.net.faultWaits.get [] pf with
    | (serial, addr) :: _ =>
      if !p.reported && s.canMaster pf && !s.adapterHalted && s.cqRoom (ctrlCn pf) then some (p, pf, serial, addr) else none
    | [] => none

/-- Faults are reported in the order of their entry, while there are waits for them (R253). The first bound is the most
faults that can be pending. -/
def State.reportFaults : Nat → State → State
  | 0, s => s
  | n + 1, s =>
    match s.faultToReport with
    | none => s
    | some (p, pf, serial, addr) =>
      if !s.linkAwake pf then s.startExit pf else
      let s1 := { s with net := { s.net with
        pendFaults := s.net.pendFaults.map fun x => if x == p then { x with reported := true } else x
        faultWaits := s.net.faultWaits.set [] pf ((s.net.faultWaits.get [] pf).drop 1) } }
      State.reportFaults n ((((s1.traffic pf).hostWrite pf addr p.record).workDone (ctrlQn pf) serial { status := 0, bytes := 32 }))

/-- A fault answered RETRY_LATER enters the pending-fault table, once for each page, and is reported (R253). -/
def State.pendFault (s : State) (ask va cause access src level : Nat) : State :=
  let b := s.askMem ask
  let page := va / 4096
  if s.net.pendFaults.any fun p => p.ask == ask && p.page == page then s
  else if 1024 ≤ s.net.pendFaults.length then s.bump R.XLT_FAULT_LOST_COUNT
  else
    let rec_ := leBytes 4 (keyOf (askGen b) ask) ++ leBytes 1 cause ++ leBytes 1 access ++ leBytes 2 (askFunc b) ++
      leBytes 8 va ++ leBytes 8 s.ft.toNat ++ leBytes 3 src ++ leBytes 1 level ++ zeroBytes 4
    State.reportFaults 1024 { s with net := { s.net with pendFaults := s.net.pendFaults ++ [⟨ask, page, rec_, false⟩] } }

/-! ## Translation commands (Table 10-9) -/

/-- The checks of a KEY (R260): GEN, then ownership. -/
def State.withKey (s : State) (pf key : Nat) (k : CtrlEnd × State) : CtrlEnd × State :=
  let b := s.askMem (keyAsk key)
  if askGen b != keyGen key then endsWith ctrlArg s
  else if askDev b || !s.mayName pf (askFunc b) then endsWith ctrlDenied s
  else k

/-- XLT_INVALIDATE: it completes when its broadcast does. -/
def xltInvalidateBody (pf : Nat) (b : List Byte) (serial : Nat) (s : State) : CtrlEnd × State :=
  let key := leAt b 8 4
  let scope := leAt b 12 1
  let len := leAt b 24 8
  if (scope != 1 && scope != 2) || (scope == 2 && len == 0) then endsWith ctrlArg s
  else s.withKey pf key (none, s.startInval scope (keyAsk key) (leAt b 16 8) len none (some (pf, serial, 0)))

/-- XLT_FAULT_WAIT: at most 64 outstanding for each PF. -/
def xltFaultWaitBody (pf : Nat) (b : List Byte) (serial : Nat) (s : State) : CtrlEnd × State :=
  let addr := leAt b 16 8
  let ws := s.net.faultWaits.get [] pf
  if addr % 32 != 0 then endsWith ctrlArg s
  else if 64 ≤ ws.length then endsWith ctrlNoResource s
  else (none, State.reportFaults 1024 { s with net := { s.net with faultWaits := s.net.faultWaits.set [] pf (ws ++ [(serial, addr)]) } })

/-- XLT_FAULT_DONE: BYTES tells whether an entry was removed. -/
def xltFaultDoneBody (pf : Nat) (b : List Byte) (_ : Nat) (s : State) : CtrlEnd × State :=
  let key := leAt b 8 4
  let page := leAt b 16 8 / 4096
  let is (p : PendFault) : Bool := p.ask == keyAsk key && p.page == page
  s.withKey pf key (some { status := 0, bytes := b2n (s.net.pendFaults.any is) },
    { s with net := { s.net with pendFaults := s.net.pendFaults.filter (!is ·) } })

/-- XLT_MMIO_SET: a window of the PF's attachment. -/
def xltMmioSetBody (pf : Nat) (b : List Byte) (_ : Nat) (s : State) : CtrlEnd × State :=
  let w := leAt b 8 1
  let lo := leAt b 16 8
  let hi := leAt b 24 8
  if 7 < w || lo % 4096 != 0 || hi % 4096 != 4095 || 2 ^ 52 ≤ lo || 2 ^ 52 ≤ hi then endsWith ctrlArg s
  else endsWith 0 ((s.fw F.XLT_MMIO_BASE_ADDR [pf, w] (lo / 4096)).fw F.XLT_MMIO_LIMIT_ADDR [pf, w] (hi / 4096))

/-! ## Acknowledged invalidation (R256, R257) -/

/-- Broadcasts that waited start while fewer than 16 are in progress (R257). -/
def State.startQueued (s : State) : State :=
  let n := 16 - s.net.invals.length
  { s with net := { s.net with invals := s.net.invals ++ s.net.invalQueue.take n, invalQueue := s.net.invalQueue.drop n } }

/-- INVALIDATION_ACK: cluster c removes what broadcast i covers, and acknowledges once its accesses that used it have been
performed; with the last cluster the invalidation completes (R256). -/
def invalidationAck (i c : Nat) (s : State) : State :=
  match s.net.invals[i]? with
  | none => s
  | some v =>
    let room := match v.cmd with
      | some (pf, _, _) => s.cqRoom (ctrlCn pf)
      | none => true
    if !v.waiting.contains c || !room then s else
    let s1 := s.invalCluster v c
    if !s1.invalDrained v c then s1 else
    let left := v.waiting.filter (· != c)
    if !left.isEmpty then { s1 with net := { s1.net with invals := s1.net.invals.set i { v with waiting := left } } }
    else
      let s2 := ({ s1 with net := { s1.net with invals := s1.net.invals.eraseIdx i } }.bump R.XLT_INV_COUNT).startQueued
      let s3 := match v.op with
        | some k => s2.complete k 0
        | none => s2
      match v.cmd with
      | some (pf, serial, bytes) => s3.workDone (ctrlQn pf) serial { status := 0, bytes := bytes }
      | none => s3

/-- XLT_STATUS (Table 10-10). -/
def State.xltStatus (s : State) : Word := w64 (s.net.pendFaults.length * 256 + s.net.invals.length)

/-! ## Resets (R217) -/

/-- The ASKs that are not FREE in the table, by number: those with a state byte in memory. -/
def State.usedAsks (s : State) : List Nat :=
  let base := s.askKey 0
  (s.mem.filter fun e => decide (base ≤ e.1) && decide (e.1 < base + 2 ^ 25) && (e.1 - base) % 32 == 15).map
    fun e => (e.1 - base) / 32

/-- R217 and R350 for the functions that satisfy a test: their ASKs in use become REVOKED, their halves QUIET, their
endpoints are unbound, and their pending faults and waits are dropped. Both quiet times start now. -/
def State.resetKeys (s : State) (p : Nat → Bool) : State :=
  let s1 := s.usedAsks.foldl (fun s a =>
    let b := s.askMem a
    let st := askState b
    if !askDev b && p (askFunc b) && (st == 1 || st == 2 || st == 3) then
      s.askMove a 4 (s.loc.toNat + 2 * s.lifetime)
    else s) s
  let s2 := (SMap.keysWhere (fun _ h => p h.func && h.state != .unused) s1.net.halves).foldl
    (fun s r => s.quietHalf r) s1
  { s2 with net := { s2.net with
    endpoints := s2.net.endpoints.filter fun e => match e.2 with
      | some e => !p e.func
      | none => true
    colls := s2.net.colls.filter fun e => match e.2 with
      | some c => !p c.func
      | none => true } }

/-! ## The commands -/

/-- EP_CREATE (R197). -/
def execEpCreate (pf idx : Nat) (s : State) : Host.Outcome State Fault Refusal := .next (s.ctrl pf idx 0x54 (epCreateBody pf))
/-- EP_DESTROY (R201). -/
def execEpDestroy (pf idx : Nat) (s : State) : Host.Outcome State Fault Refusal := .next (s.ctrl pf idx 0x55 (epDestroyBody pf))
/-- CONN_CREATE (R198). -/
def execConnCreate (pf idx : Nat) (s : State) : Host.Outcome State Fault Refusal :=
  .next (s.ctrl pf idx 0x50 (connCreateBody pf))
/-- CONN_DESTROY (R202). -/
def execConnDestroy (pf idx : Nat) (s : State) : Host.Outcome State Fault Refusal :=
  .next (s.ctrl pf idx 0x51 (connDestroyBody pf))
/-- CONN_QUIET_END (R202). -/
def execConnQuietEnd (conn : Nat) (s : State) : Host.Outcome State Fault Refusal := .next (s.live (connQuietEnd conn))
/-- ASK_CREATE (R204). -/
def execAskCreate (pf idx : Nat) (s : State) : Host.Outcome State Fault Refusal := .next (s.ctrl pf idx 0x52 (askCreateBody pf))
/-- ASK_REVOKE (R208). -/
def execAskRevoke (pf idx : Nat) (s : State) : Host.Outcome State Fault Refusal := .next (s.ctrl pf idx 0x53 (askRevokeBody pf))
/-- XLT_REVOKE_CTRL (R208). -/
def execXltRevokeCtrl (path : Path) (v : Word) (s : State) : Host.Outcome State Fault Refusal := .next (xltRevokeCtrl path v s)
/-- REVOKE_DRAIN (R208). -/
def execRevokeDrain (s : State) : Host.Outcome State Fault Refusal := .next (s.live revokeDrain)
/-- ASK_QUIET_END (R206). -/
def execAskQuietEnd (ask : Nat) (s : State) : Host.Outcome State Fault Refusal := .next (s.live (askQuietOver ask))
/-- INVALIDATION_ACK (R256). -/
def execInvalidationAck (i c : Nat) (s : State) : Host.Outcome State Fault Refusal := .next (s.live (invalidationAck i c))
/-- XLT_INVALIDATE (R260). -/
def execXltInvalidate (pf idx : Nat) (s : State) : Host.Outcome State Fault Refusal :=
  .next (s.ctrl pf idx 0x58 (xltInvalidateBody pf))
/-- XLT_FAULT_WAIT (R260). -/
def execXltFaultWait (pf idx : Nat) (s : State) : Host.Outcome State Fault Refusal :=
  .next (s.ctrl pf idx 0x59 (xltFaultWaitBody pf))
/-- XLT_FAULT_DONE (R260). -/
def execXltFaultDone (pf idx : Nat) (s : State) : Host.Outcome State Fault Refusal :=
  .next (s.ctrl pf idx 0x5A (xltFaultDoneBody pf))
/-- XLT_MMIO_SET (R260). -/
def execXltMmioSet (pf idx : Nat) (s : State) : Host.Outcome State Fault Refusal :=
  .next (s.ctrl pf idx 0x5B (xltMmioSetBody pf))

end Sys2Proof.Machine
end

