-- ==== Sys2Proof/Machine/Access.lean ====
section
/-! DEFINITION. Machine/Access.lean: reads and writes of memory by operations and keyed transfers: where the bytes are, what
stops them, and the bytes themselves (R71, R127, R128, R192, R248, R252, R434, R438). -/
namespace Sys2Proof.Machine

/-! ## Where an operation's memory is -/

/-- Memory as an operation names it: under an ASK for local use, under the ASK of a key that has been checked, or an HBM
physical address. -/
inductive MemAt
  | far (ask va : Nat)
  | keyed (ask va : Nat)
  | hbm (a : Nat)
deriving DecidableEq, Repr

/-- What is done there. -/
inductive Use | read | write | atomic
deriving DecidableEq, Repr

/-- Bytes that lie together: in HBM, or in host memory as a function reaches it. -/
structure Piece where
  hbm : Bool
  addr : Nat
  len : Nat
  func : Nat
deriving DecidableEq, Repr

/-- The outcome of looking for the bytes: their pieces in order; a translation that must be waited for; or the status of Table
4-4 that stops the access, with the cause of Table 10-7, the level of the walk, and how far into the range (R253). -/
inductive Loc
  | at_ (ps : List Piece)
  | wait
  | stop (status cause level off : Nat)
deriving DecidableEq, Repr

/-- Leaf bits that a use needs (Table 10-4). -/
def Use.leaf (u : Use) (keyed : Bool) : Nat :=
  (match u with
    | .read => leafR
    | .write => leafW
    | .atomic => leafR + leafW + leafA) + if keyed then leafRM else 0

/-- The right of the ASK that a keyed use needs (Table 10-4). -/
def Use.right : Use → Nat
  | .read => rightRead
  | .write => rightWrite
  | .atomic => rightAtomic

/-- The status of a cause for the local side of an operation (Table 10-7). -/
def statusOfCause (cause : Nat) : Nat := if cause == 6 then 3 else if cause == 7 then 5 else if cause == 8 then 6 else 4

/-- A failed walk that a client has waiting is taken: its cause and level. -/
def State.takeXlt (s : State) (c : Nat) (cl : XltClient) : Option (Nat × Nat) × State :=
  match cl with
  | .op k => match (s.op k).pendFault with
    | some e => (some (e, 0), s.setOp k { s.op k with pendFault := none })
    | none => (none, s)
  | .pkt r => match s.pktRef c r with
    | some p => match p.xlt with
      | some e => (some (e % 16, e / 16), s.setPktRef c r (some { p with xlt := none }))
      | none => (none, s)
    | none => (none, s)
  | _ => (none, s)

/-- The function that the library works for where a client of translation is its: that of the queue of the work entry, of the
collective, or of the half. A thread's own operation is none of it (R205). -/
def State.workFunc (s : State) (c : Nat) (cl : XltClient) : Option Nat :=
  match cl with
  | .op k => match (s.op k).origin with
    | .thread _ _ => none
    | .work qn _ => some (s.queue qn).func
    | .rendezvous _ _ qn _ => some (s.queue qn).func
    | .coll id _ => (s.coll id).map (·.func)
    | _ => (s.op k).conn.map fun r => (s.half r).func
  | .pkt ref => (s.pktRef c ref).map fun p => (s.half p.conn).func
  | _ => none

/-- Does an operation of a collective name the library's own ASK, under which the pairs of phase 0 stand? -/
def State.ownAsk (s : State) (ask : Nat) (cl : XltClient) : Bool :=
  match cl with
  | .op k => match (s.op k).origin with
    | .coll id _ => ask == Config.collAsk id
    | _ => false
  | _ => false

/-- The place of one address under an ASK (R248, R250): a miss joins the misses of the cluster, unless its walk has already
failed. A walk that a halt of the adapter stopped gives ABORTED (R192; cause 9 is the model's). An ASK of another function is refused
to the library's work for a function (R205; DEDUCED, log entry 148). -/
def State.locateAsk (s : State) (c ask va : Nat) (u : Use) (keyed : Bool) (cl : XltClient) : Loc × State :=
  let (b, s1) := s.askOf c ask
  if keyed && !nbit (askRights b) u.right then (.stop 3 0 0 0, s1)
  else if !keyed && (s.workFunc c cl).any (fun f => askDev b || askFunc b != f) && !s.ownAsk ask cl then (.stop 3 0 0 0, s1) else
  match s1.xlate c .none ask va (u.leaf keyed) (!keyed) with
  | (.hit pa hbm _, s2) => (.at_ [⟨hbm, pa, 0, askFunc b⟩], s2)
  | (.denied, s2) => (.stop 3 0 0 0, s2)
  | (.fail cause, s2) => (.stop (statusOfCause cause) cause 1 0, s2)
  | (.miss, s2) =>
    match s2.takeXlt c cl with
    | (some (cause, level), s3) => (.stop (if cause == 9 then 1 else statusOfCause cause) cause level 0, s3)
    | (none, s3) => (.wait, s3.addMiss c ask va cl)

/-- The place of one address. HBM ends at 48 GiB; an address beyond is cause SPACE (DEDUCED, log entry 53). -/
def State.locateOne (s : State) (c : Nat) (m : MemAt) (off : Nat) (u : Use) (cl : XltClient) : Loc × State :=
  match m with
  | .far ask va => s.locateAsk c ask (va + off) u false cl
  | .keyed ask va => s.locateAsk c ask (va + off) u true cl
  | .hbm a => if a + off < hbmSize then (.at_ [⟨true, a + off, 0, 0⟩], s) else (.stop 4 5 0 0, s)

/-- The page offset of an address. -/
def MemAt.pageOff (m : MemAt) (off : Nat) : Nat :=
  (match m with
    | .far _ va => va + off
    | .keyed _ va => va + off
    | .hbm a => a + off) % 4096

/-- The pieces of n bytes from an offset, page by page; the first number bounds the pages. -/
def State.locate (s : State) (c : Nat) (m : MemAt) (u : Use) (cl : XltClient) : Nat → Nat → Nat → List Piece → Loc × State
  | 0, _, _, ps => (.at_ ps, s)
  | f + 1, off, n, ps =>
    if n == 0 then (.at_ ps, s) else
    let step := min n (4096 - m.pageOff off)
    match s.locateOne c m off u cl with
    | (.at_ (p :: _), s1) => s1.locate c m u cl f (off + step) (n - step) (ps ++ [{ p with len := step }])
    | (.stop st cause level _, s1) => (.stop st cause level off, s1)
    | r => r

/-! ## Moving bytes -/

/-- How an access ends: with the bytes (none for a write); it waits, and nothing moves yet; a status stops it; or a request of
a function would be needed that cannot master. -/
inductive Moved
  | data (bs : List Byte)
  | wait
  | stop (status cause level off : Nat)
  | noMaster (f : Nat)
deriving DecidableEq, Repr

/-- The cause of the walk failure that an access ended with, which DETAIL reports beside XLATE_FAULT (R252). -/
def Moved.detail : Moved → Nat
  | .stop 4 cause _ _ => cause
  | _ => 0

/-- What bars the host requests of some pieces: an adapter halt ends the operation ABORTED (R192). A sleeping link is left
first (R437). -/
def State.barOf (s : State) (ps : List Piece) : Option Moved × State :=
  match ps.find? (!·.hbm) with
  | none => (none, s)
  | some p => match s.reqBar p.func with
    | .halted => (some (.stop 1 9 0 0), s)
    | .noMaster => (some (.noMaster p.func), s)
    | .none => if s.linkAwake p.func then (none, s.traffic p.func) else (some .wait, s.startExit p.func)

/-- The bytes of some pieces; those in host memory are taken from the image of the whole range that came with the command; none for
uncorrectable data in HBM. -/
def State.gather (s : State) : List Piece → List Byte → Option (List Byte)
  | [], _ => some []
  | p :: ps, host =>
    if p.hbm then
      if s.bad (hbmKey p.addr) p.len then none
      else (s.gather ps (host.drop p.len)).map (s.mread (hbmKey p.addr) p.len ++ ·)
    else (s.gather ps (host.drop p.len)).map (byteSlice host 0 p.len ++ ·)

/-- The host reads of some pieces. -/
def State.readPieces (s : State) (ps : List Piece) : State :=
  (ps.filter (!·.hbm)).foldl (fun s p => s.hostRead 0 p.func p.addr p.len) s
/-- Their data has come. -/
def State.gotPieces (s : State) (ps : List Piece) : State := (ps.filter (!·.hbm)).foldl (fun s p => s.hostGot p.func p.len) s

/-- n bytes read. `st` is how the host reads ended, and `host` an image of the n bytes, of which those in host memory count
(Table 18-5). -/
def State.readAt (s : State) (c : Nat) (m : MemAt) (off n : Nat) (cl : XltClient) (st : Nat) (host : List Byte) :
    Moved × State :=
  match s.locate c m .read cl (n / 4096 + 2) off n [] with
  | (.wait, s1) => (.wait, s1)
  | (.stop a b l o, s1) => (.stop a b l o, s1)
  | (.at_ ps, s1) => match s1.barOf ps with
    | (some r, s2) => (r, s2)
    | (none, s2) =>
      let s3 := s2.readPieces ps
      match (if st != 0 then ps.find? (!·.hbm) else none) with
      | some p => (.stop 6 0 0 0, s3.hostErr p.func st)
      | none => match s3.gather ps host with
        | some bs => (.data bs, s3.gotPieces ps)
        | none => (.stop 6 0 0 0, s3)

/-- Bytes put into some pieces. -/
def State.scatter (s : State) : List Piece → List Byte → State
  | [], _ => s
  | p :: ps, bs =>
    let x := bs.take p.len
    (if p.hbm then s.mwrite (hbmKey p.addr) x else s.hostWrite p.func p.addr x).scatter ps (bs.drop p.len)

/-- Bytes written. -/
def State.writeAt (s : State) (c : Nat) (m : MemAt) (off : Nat) (bs : List Byte) (cl : XltClient) : Moved × State :=
  match s.locate c m .write cl (bs.length / 4096 + 2) off bs.length [] with
  | (.wait, s1) => (.wait, s1)
  | (.stop a b l o, s1) => (.stop a b l o, s1)
  | (.at_ ps, s1) => match s1.barOf ps with
    | (some r, s2) => (r, s2)
    | (none, s2) => (.data [], s2.scatter ps bs)

/-- The status of an access that did not move its bytes, for the local side of an operation; a function that cannot master
gives MEM_POISON, and the request not issued is counted (R438). None while it waits. -/
def Moved.localStatus (m : Moved) (s : State) : Option Nat × State :=
  match m with
  | .data _ => (some 0, s)
  | .wait => (none, s)
  | .stop st _ _ _ => (some st, s)
  | .noMaster _ => (some 6, s.notIssued)

/-- An operation ends by an access that did not move its bytes. -/
def State.completeMoved (s : State) (k : Nat) (m : Moved) (st : Nat) : State :=
  (s.setOp k { s.op k with cause := m.detail }).complete k st

/-! ## Connections as a source sees them (R232, R237) -/

/-- Does the library assign the operation's sequence numbers and keep its packets for retransmission? -/
def Op.isLib (o : Op) : Bool :=
  match o.origin with
  | .thread _ _ => false
  | .retransmit _ => false
  | _ => true

/-- Does an operation send on a half: it belongs to it, or is the multicast of its collective on its channel, whose copies go to
all of its line (R293)? -/
def State.sendsOn (s : State) (r : Nat) (o : Op) : Bool :=
  o.conn == some r || (o.kind == 7 && (s.half r).coll == some (leAt o.block 8 2) && (s.half r).chan == bChan o.block)

/-- INFLIGHT of a half: sent and not covered, and those of operations started that are still to be formed. -/
def State.inflight (s : State) (r : Nat) : Nat :=
  (s.half r).tx.length +
    (s.ops.map fun e =>
      if s.sendsOn r e.2 && e.2.isLib && (e.2.isOpen || e.2.voiding.isSome) then e.2.n - e.2.formed else 0).sum

/-- May an operation of n packets start on a half (R237)? -/
def State.admits (s : State) (r n : Nat) : Bool :=
  let i := s.inflight r
  i == 0 || decide (i + n ≤ (s.half r).window)

/-- The half of a cluster that a thread's operation belongs to: the lowest with its remote endpoint and channel (DESIGN CHOICE, log entry
32). -/
def State.threadHalf (s : State) (c dest chan : Nat) : Option Nat :=
  (s.net.halves.find? fun e =>
    e.1 / 16384 == c && (e.2.state == .established || e.2.state == .error) && e.2.remoteEp == dest && e.2.chan == chan).map (·.1)

end Sys2Proof.Machine
end

