-- ==== Sys2Proof/Machine/PortOps.lean ====
section
/-! DEFINITION. Machine/PortOps.lean: what routing, Solder and the links share: freed cells, departures of packets, egress
queues, and a link that stops being up (R110, R327, R371, R372, R381). -/
namespace Sys2Proof.Machine

/-! ## Freed cells (R371) -/

/-- Cells of a kind are freed at the port that received them: the running total rises modulo 4,096. -/
def State.freeKind (s : State) (c : Credit) (kind n : Nat) : State :=
  let x := s.port c.port
  if x.rx.ses != c.ses || n == 0 then s else
  s.setPort c.port { x with rx := { x.rx with totals := x.rx.totals.modify kind fun t => (t + n) % 4096 } }

/-- Every cell that a packet still holds is freed. -/
def State.freeAll (s : State) (c : Option Credit) : State :=
  match c with
  | some c => (s.freeKind c c.h c.ded).freeKind c 8 c.sh
  | none => s

/-- One cell of a packet is freed, dedicated credit first. -/
def State.freeOne (s : State) (c : Option Credit) : Option Credit × State :=
  match c with
  | some c =>
    if c.ded != 0 then (some { c with ded := c.ded - 1 }, s.freeKind c c.h 1)
    else if c.sh != 0 then (some { c with sh := c.sh - 1 }, s.freeKind c 8 1)
    else (some c, s)
  | none => (none, s)

/-! ## Departure (R110, R112, R117) -/

/-- TIMEOUT of a get, atomic or flush in ticks; 0 means twice the packet lifetime (Tables 4-6, 4-7). -/
def State.timeoutOf (s : State) (o : Op) : Nat :=
  let us := leAt o.block (if o.kind == 3 then 56 else 48) 4
  if us == 0 then 2 * (s.rd R.SLD_LIFETIME).toNat else us * ticksPerUs

/-- Copies of each packet of an operation: one for each member of a multicast (R330). -/
def Op.copies (o : Op) : Nat :=
  if o.kind == 7 then ((List.range 16).filter fun i => nbit (leAt o.block 28 2) i).length else 1

/-- A packet of an operation, given by slot and order, has departed. A put, send or multicast completes with its last one (R110,
R117); the timeout of a get, atomic or flush runs from its request's (R112). -/
def State.departOne (s : State) (x : Option (Nat × Nat)) : State :=
  match x with
  | none => s
  | some (k, order) =>
    if (s.op k).order != order then s else
    let o := { s.op k with departed := (s.op k).departed + 1 }
    let s1 := s.setOp k o
    if !o.isOpen then s1
    else if o.kind == 2 || o.kind == 3 || o.kind == 5 then
      match o.deadline with
      | some _ => s1
      | none => s1.setOp k { o with deadline := some (s.locIn (s.timeoutOf o)) }
    else if o.formed == o.n && decide (o.n * o.copies ≤ o.departed) then s1.completeWith k 0 o.result (leAt o.block 16 4)
    else s1

/-- A packet is discarded at a tile: its cells are freed, and at its source it counts as departed (R329). -/
def State.discardPkt (s : State) (x : RPkt) : State := (s.freeAll x.cred).departOne x.op

/-- A packet is handed to Solder: at the device's own crossbar that is its departure (R315). The cells of a packet from a
link are freed when Solder takes it. -/
def State.toSolder (s : State) (x : RPkt) : State :=
  let port := x.src.getD 128
  ({ s with route := { s.route with arrivals := s.route.arrivals ++ [(port, x)] } }).departOne x.op

/-! ## Egress queues (R381) -/

/-- The number of an egress queue. -/
def queueKey (tc h : Nat) : Nat := tc * 8 + h

/-- Cells queued at a port in a class, and in all. -/
def Port.depth (x : Port) (tc : Nat) : Nat :=
  let queued := ((List.range 8).map fun h => ((x.tx.queues.get [] (queueKey tc h)).map (·.cells)).sum).sum
  queued + match x.tx.cur with
    | some f => if f.e.rp.pkt.tc == tc then f.e.cells - f.sent else 0
    | none => 0
def Port.load (x : Port) : Nat := ((List.range 8).map x.depth).sum

/-- A packet joins its queue at a port, to leave with the given route-state bits (R321, R381). -/
def State.enqueue (s : State) (p : Nat) (ldet gdet : Bool) (x : RPkt) : State :=
  let pt := s.port p
  let k := queueKey x.pkt.tc x.h
  let e : EgrPkt := { rp := x, ldet := ldet, gdet := gdet, cells := x.pkt.cells, joined := s.ft, counted := false }
  let s1 := s.setPort p { pt with tx := { pt.tx with queues := pt.tx.queues.set [] k (pt.tx.queues.get [] k ++ [e]) } }
  s1.maxTo R.SCH_Q_DEPTH_MAX [p, x.pkt.tc] ((s1.port p).depth x.pkt.tc)

/-- The tile of a port (R17). -/
def tileOfPort (p : Nat) : Nat := p / 8

/-! ## A link that goes down (R327, R372) -/

/-- Is the port live (R323)? -/
def Port.live (x : Port) : Bool := x.st == .active && !x.retired

/-- The packets in the egress queues of a port that is not live go back to the routing stage of its tile; they keep their
hop number and route state (R327). -/
def State.requeue (s : State) (p : Nat) : State :=
  let x := s.port p
  let all := x.tx.queues.flatMap (·.2)
  let s1 := s.setPort p { x with tx := { x.tx with queues := [] } }
  all.foldl (fun s e => s.toTile (tileOfPort p) e.rp) s1

/-- PORT_DOWN: the port has stopped being live (R327). -/
def portDown (p : Nat) (s : State) : State := if (s.port p).live then s else s.requeue p

/-- The lane of a port. -/
def State.lane (s : State) (p l : Nat) : Lane := s.lanes.get Lane.init (2 * p + l)
/-- A lane replaced. -/
def State.setLane (s : State) (p l : Nat) (x : Lane) : State := { s with lanes := s.lanes.set Lane.init (2 * p + l) x }

/-- An eye scan that runs on a lane ends ABORTED (R423). -/
def State.eyeAbort (s : State) (p l : Nat) : State :=
  let x := s.lane p l
  if !x.eye then s
  else ((s.setLane p l { x with eye := false }).fset F.EYE_CTRL_GO [p, l] false).wr R.EYE_RESULT [p, l] (w64 (2 ^ 62))

/-- The port leaves ACTIVE for another state: what it was sending and receiving is discarded, its queued packets are routed
again, scans end, and but for parking LINK_RETRAIN is raised (R327, R372, R423, Table 19-3). -/
def State.linkDown (s : State) (p : Nat) (st : LState) : State :=
  let x := s.port p
  let s0 := (s.eyeAbort p 0).eyeAbort p 1
  let s0 := if st == .quiet then s0 else s0.report (tsrc 0x14 p) 7
  let s1 := match x.tx.cur with
    | some f => s0.discardPkt f.e.rp
    | none => s0
  let tx := { LinkTx.init with queues := x.tx.queues }
  (s1.setPort p { s1.port p with
    st := st, since := s.loc, tx := tx, rx := { LinkRx.init with ses := x.rx.ses } }).requeue p

/-! ## The commands -/

/-- PORT_DOWN (R327). -/
def execPortDown (p : Nat) (s : State) : Host.Outcome State Fault Refusal := .next (portDown p s)

end Sys2Proof.Machine
end

