-- ==== Sys2Proof/Machine/Egress.lean ====
section
/-! DEFINITION. Machine/Egress.lean: the egress scheduler, the time gates, the rate limiters and the depth samples
(chapter 16). -/
namespace Sys2Proof.Machine

/-! ## Slot time (Table 17-1) -/

/-- S in picoseconds: a tick is 250 ps. -/
def Port.slotPs (x : Port) : Nat :=
  if x.oneLane then if x.cfg.rate56 then 20560 else 10280
  else if x.cfg.rate56 then 10280 else 5141

/-! ## Gate lists (R387 to R389) -/

/-- A stretch of a cycle in which one entry is in force: from and to, in ticks from the start of the cycle. -/
structure GateSeg where
  idx : Nat
  lo : Nat
  hi : Nat
  g6 : Bool
  gw : Bool
deriving DecidableEq, Repr

/-- The stretches of the entries from i on, of which n are left, beginning at `at_` in a cycle. The cycle's end cuts the
entry in force; the last entry lasts until the cycle ends. -/
def State.segsFrom (s : State) (p b cycle : Nat) : Nat → Nat → Nat → List GateSeg
  | 0, _, _ => []
  | n + 1, i, at_ =>
    if cycle ≤ at_ then [] else
    let hi := if n == 0 then cycle else min cycle (at_ + s.fd F.GATE_LIST_INTERVAL [p, b, i])
    { idx := i, lo := at_, hi := hi, g6 := s.fb F.GATE_LIST_G6 [p, b, i], gw := s.fb F.GATE_LIST_GW [p, b, i] } ::
      s.segsFrom p b cycle n (i + 1) hi

/-- The active list of a port. -/
def State.gateSegs (s : State) (p : Nat) : List GateSeg :=
  s.segsFrom p (s.port p).sch.bank (s.rd R.GATE_ACT_CYCLE [p]).toNat (s.rd R.GATE_ACT_LEN [p]).toNat 0 0

/-- The longest open run among stretches, given the run in progress and the longest so far. -/
def longestFrom (isOpen : GateSeg → Bool) : Nat → Nat → List GateSeg → Nat
  | _, best, [] => best
  | cur, best, x :: xs =>
    if isOpen x then longestFrom isOpen (cur + (x.hi - x.lo)) (max best (cur + (x.hi - x.lo))) xs
    else longestFrom isOpen 0 best xs

/-- The longest open run of a gate in a list, joined across the cycle boundary; none when it is open all the cycle (R388). -/
def longestRun (isOpen : GateSeg → Bool) (xs : List GateSeg) : Option Nat :=
  if xs.all isOpen then none else some (longestFrom isOpen 0 0 (xs ++ xs))

/-- A gate now: whether it is open, and, unless it has no end, the start and end of its open run and its longest run, in
ticks. -/
structure Gate where
  isOpen : Bool
  run : Option (Nat × Nat × Nat)
deriving DecidableEq, Repr

/-- A gate of the active list at FT: cycle k of the list starts at BASE + k × CYCLE. -/
def gateAt (isOpen : GateSeg → Bool) (xs : List GateSeg) (base cycle ft : Nat) : Gate :=
  let r := (ft - base) % cycle
  let start := ft - r
  match longestRun isOpen xs with
  | none => ⟨true, none⟩
  | some longest =>
    match xs.find? fun x => decide (x.lo ≤ r) && decide (r < x.hi) with
    | none => ⟨false, none⟩
    | some now =>
      if !isOpen now then ⟨false, none⟩ else
      let after := xs.filter fun x => decide (r < x.hi)
      let before := (xs.filter fun x => decide (x.lo ≤ r)).reverse
      let close := match after.find? fun x => !isOpen x with
        | some x => start + x.lo
        | none => match xs.find? fun x => !isOpen x with
          | some x => start + cycle + x.lo
          | none => start + cycle
      let opened := match before.find? fun x => !isOpen x with
        | some x => start + x.hi
        | none => match xs.reverse.find? fun x => !isOpen x with
          | some x => max base (start - cycle + x.hi)
          | none => start
      ⟨true, some (opened, close, longest)⟩

/-- The two gates of a port and the entry in force (R386). Before BASE of the active list, which a step of FT backward can
bring about, no list is taken to be in force (DESIGN CHOICE, log entry 41). -/
def State.gates (s : State) (p : Nat) : Gate × Gate × Nat :=
  let base := (s.rd R.GATE_ACT_BASE [p]).toNat
  if !s.fb F.GATE_CTRL_EN [p] then (⟨true, none⟩, ⟨true, none⟩, 0)
  else if !s.ftValid || !(s.port p).sch.valid || decide (s.ft.toNat < base) then (⟨false, none⟩, ⟨true, none⟩, 0)
  else
    let xs := s.gateSegs p
    let cycle := (s.rd R.GATE_ACT_CYCLE [p]).toNat
    let r := (s.ft.toNat - base) % cycle
    let idx := ((xs.find? fun x => decide (x.lo ≤ r) && decide (r < x.hi)).map (·.idx)).getD 0
    (gateAt (·.g6) xs base cycle s.ft.toNat, gateAt (·.gw) xs base cycle s.ft.toNat, idx)

/-- A port's scheduling changed. -/
def State.setSch (s : State) (p : Nat) (x : Sched) : State := s.setPort p { s.port p with sch := x }

/-- GATE_EDGE: the gates take the setting of the entry in force at FT (R387). -/
def gateEdge (p : Nat) (s : State) : State :=
  let (g6, gw, i) := s.gates p
  s.setSch p { (s.port p).sch with g6 := g6.isOpen, gw := gw.isOpen, entry := i }

/-! ## Arming and takeover (R392) -/

/-- A write of GATE_CTRL: EN, then ARM and CANCEL where they are written 1. -/
def gateCtrl (path : Path) (p : Nat) (v : Word) (s : State) : State :=
  if !s.mayWrite path (R.GATE_CTRL.addr [p]) || s.portCount ≤ p then s else
  let s1 := s.fset F.GATE_CTRL_EN [p] (bitW v 31)
  let x := (s1.port p).sch
  let base := s1.rd R.GATE_PEND_BASE [p]
  let s2 := if !bitW v 30 then s1
    else if bitW v 31 && s1.ftValid && !x.armed && decide (s1.ft.toNat + 40000 ≤ base.toNat) then
      s1.setSch p { x with armed := true, armRef := false, wrRef := false }
    else s1.setSch p { x with armRef := true }
  let y := (s2.port p).sch
  gateEdge p (if bitW v 29 && y.armed && !s2.ftReached base then s2.setSch p { y with armed := false } else s2)

/-- GATE_ARM. -/
def gateArm (path : Path) (p : Nat) (v : Word) (s : State) : State := if bitW v 30 then gateCtrl path p v s else s
/-- GATE_CANCEL. -/
def gateCancel (path : Path) (p : Nat) (v : Word) (s : State) : State := if bitW v 29 then gateCtrl path p v s else s

/-- GATE_LONGEST's form of a longest run. -/
def longestWord (x : Option Nat) : Nat := x.getD 0xFFFFFFFF

/-- GATE_TAKEOVER: FT reaches BASE of the armed list (R392). -/
def gateTakeover (p : Nat) (s : State) : State :=
  let x := (s.port p).sch
  let base := s.rd R.GATE_PEND_BASE [p]
  if !x.armed || !s.ftValid || !s.ftReached base then s else
  let s1 := s.setSch p { x with armed := false, valid := true, bank := 1 - x.bank, run6 := none, runW := none }
  let s2 := ((s1.wr R.GATE_ACT_BASE [p] base).wr R.GATE_ACT_CYCLE [p] (s.rd R.GATE_PEND_CYCLE [p])).wr R.GATE_ACT_LEN [p]
    (s.rd R.GATE_PEND_LEN [p])
  let xs := s2.gateSegs p
  let s3 := s2.wr R.GATE_LONGEST [p] (w64 (longestWord (longestRun (·.gw) xs) * 2 ^ 32 + longestWord (longestRun (·.g6) xs)))
  gateEdge p (s3.bump R.GATE_SWITCH_COUNT [p])

/-- A write to the active bank, or to what an accepted arm has frozen, is refused (R392, Table 16-5). -/
def State.gateWriteRefused (s : State) (p : Nat) : State := s.setSch p { (s.port p).sch with wrRef := true }

/-- GATE_STATUS (Table 16-5). -/
def State.gateStatus (s : State) (p : Nat) : Word :=
  let x := (s.port p).sch
  w64 (b2n x.valid * 2 ^ 31 + b2n x.armed * 2 ^ 30 + x.bank * 2 ^ 29 + b2n x.armRef * 2 ^ 28 + b2n x.wrRef * 2 ^ 27 +
    b2n x.gw * 2 ^ 17 + b2n x.g6 * 2 ^ 16 + x.entry)

/-! ## Heads (R382, R389, R390) -/

/-- Does a packet of n cells in hop class h have credit (R370)? -/
def LinkTx.credit (x : LinkTx) (h n : Nat) : Bool := decide (n ≤ x.ded.getD h 0 + x.sh)

/-- A head: its queue and its packet. -/
abbrev Head := Nat × EgrPkt

/-- The heads of a class that have credit, highest hop class first. -/
def Port.heads (x : Port) (tc : Nat) : List Head :=
  ([7, 6, 5, 4, 3, 2, 1, 0].filterMap fun h => (x.tx.queues.get [] (queueKey tc h)).head?.map fun e => (queueKey tc h, e)).filter
    fun e => x.tx.credit (e.1 % 8) e.2.cells

/-- Does the head's time on the link fit between now and the end of the gate's run (R389)? -/
def fits (slot ft : Nat) (g : Gate) (e : Head) : Bool :=
  match g.run with
  | none => true
  | some (_, close, _) => decide (250 * ft + e.2.cells * slot ≤ 250 * close)

/-- Is the head overlong for the gate (R390)? -/
def overlong (slot : Nat) (g : Gate) (e : Head) : Bool :=
  match g.run with
  | none => false
  | some (_, _, longest) => decide (250 * longest < e.2.cells * slot)

/-- The end within which a head was found to fit. -/
def closeOf (g : Gate) : Option Nat := g.run.map fun r => r.2.1
/-- The start of the gate's run. -/
def openOf (g : Gate) : Option Nat := g.run.map (·.1)

/-- What a head decision takes: the head, the close that it must meet, and whether it is overlong. -/
structure Taken where
  head : Head
  close : Option Nat
  overlong : Bool
deriving DecidableEq, Repr

/-- The head that one gate's classes offer before any round robin: the overlong one of the highest hop class at the first
decision of a run (R390). -/
def overlongHead (slot : Nat) (g : Gate) (first : Bool) (hs : List Head) : Option Taken :=
  if !first then none
  else (sortBy (fun e : Head => 7 - e.1 % 8) (hs.filter (overlong slot g))).head?.map fun e => ⟨e, none, true⟩

/-- The round robin of R385 over the classes that have a fitting head: the class that sends, deficits, and pointer. The first
bound is enough turns for the least deficit to reach a head. -/
def drr (quantum : Nat → Nat) (head : Nat → Option Head) : Nat → Nat → List (Int × Bool) → Option Head × Nat × List (Int × Bool)
  | 0, ptr, ds => (none, ptr, ds)
  | n + 1, ptr, ds =>
    match head ptr with
    | none => drr quantum head n ((ptr + 1) % 6) ds
    | some e =>
      let (d, isNew) := ds.getD ptr (0, true)
      let d := if isNew then d + quantum ptr else d
      if (e.2.cells : Int) ≤ d then (some e, ptr, ds.set ptr (d - e.2.cells, false))
      else drr quantum head n ((ptr + 1) % 6) (ds.set ptr (d, true))

/-- Deficits of classes whose queues are empty are cleared (R385). -/
def Port.clearIdle (x : Port) : List (Int × Bool) :=
  (List.range 6).map fun tc =>
    if (List.range 8).all fun h => (x.tx.queues.get [] (queueKey tc h)).isEmpty then (0, true) else x.sch.defs.getD tc (0, true)

/-- Turns of the round robin that are surely enough: each round adds at least 17 to every active class. -/
def drrBound (ds : List (Int × Bool)) : Nat := 6 * (3 + (ds.map fun d => d.1.natAbs).sum / 17)

/-- Heads whose gate is open but whose run ends too soon are counted once (R389). -/
def State.countWaits (s : State) (p slot ft : Nat) (g : Gate) (hs : List Head) : State :=
  (hs.filter fun e => !fits slot ft g e && !overlong slot g e && !e.2.counted).foldl (fun s e =>
    let x := s.port p
    let q := x.tx.queues.get [] e.1
    let q' := match q with
      | y :: ys => { y with counted := true } :: ys
      | [] => []
    (s.setPort p { x with tx := { x.tx with queues := x.tx.queues.set [] e.1 q' } }).bump R.GATE_WAIT_COUNT [p]) s

/-- The tokens that a TC7 head of n cells needs (R384). -/
def tokensOf (n : Nat) : Nat := n * 65536

/-- A head decision (Table 16-1): TC7 under its cap, TC6 under its gate, TC0 to TC5 by weight under theirs. Every decision
takes away the first decision of the runs that are open (R390). -/
def State.headDecision (s : State) (p : Nat) : Option Taken × State :=
  let x := s.port p
  let slot := x.slotPs
  let ft := s.ft.toNat
  let (g6, gw, _) := s.gates p
  let first6 := g6.isOpen && g6.run.isSome && x.sch.run6 != openOf g6
  let firstW := gw.isOpen && gw.run.isSome && x.sch.runW != openOf gw
  let defs := x.clearIdle
  let sch := { x.sch with
    defs := defs
    run6 := if g6.isOpen then openOf g6 else x.sch.run6
    runW := if gw.isOpen then openOf gw else x.sch.runW }
  let s1 := s.setSch p sch
  let seven := x.heads 7
  match (seven.take 1).find? fun e => decide (tokensOf e.2.cells ≤ x.sch.tc7) with
  | some e => (some ⟨e, none, false⟩, s1.setSch p { sch with tc7 := x.sch.tc7 - tokensOf e.2.cells })
  | none =>
    let s2 := if seven.isEmpty then s1 else s1.bump R.SCH_TC7_WAIT_COUNT [p]
    let six := if g6.isOpen then x.heads 6 else []
    let pick6 := match overlongHead slot g6 first6 six with
      | some t => some t
      | none => (six.find? (fits slot ft g6)).map fun e => ⟨e, closeOf g6, false⟩
    let s3 := s2.countWaits p slot ft g6 six
    match pick6 with
    | some t => (some t, s3)
    | none =>
      let all := if gw.isOpen then (List.range 6).flatMap x.heads else []
      let s4 := s3.countWaits p slot ft gw all
      match overlongHead slot gw firstW all with
      | some t =>
        let tc := t.head.1 / 8
        let (d, b) := defs.getD tc (0, true)
        (some t, s4.setSch p { sch with defs := defs.set tc (d - t.head.2.cells, b) })
      | none =>
        let head (tc : Nat) : Option Head := if gw.isOpen then (x.heads tc).find? (fits slot ft gw) else none
        let (e, ptr, ds) := drr (fun tc => (s.rd R.SCH_QUANTUM [p, tc]).toNat) head (drrBound defs) x.sch.ptr defs
        match e with
        | some e => (some ⟨e, closeOf gw, false⟩, s4.setSch p { sch with defs := ds, ptr := ptr })
        | none => (none, s4)

/-- The chosen head starts: it leaves its queue, and all its credit is taken (R370, R399). -/
def State.startHead (s : State) (p : Nat) (t : Taken) : State :=
  let x := s.port p
  let (k, e) := t.head
  let h := k % 8
  let n := e.cells
  let ded := x.tx.ded.getD h 0
  let tx := { x.tx with
    queues := x.tx.queues.set [] k ((x.tx.queues.get [] k).drop 1)
    ded := x.tx.ded.set h (ded - n)
    sh := x.tx.sh - (n - ded)
    cur := some { e := e, sent := 0, ded := min n ded, close := t.close } }
  let delay := (s.ft.toNat - e.joined.toNat) / 4
  let s1 := ((s.setPort p { x with tx := tx }).maxTo R.SCH_Q_DELAY_MAX [p, e.rp.pkt.tc] delay).histSample
    { src := 1, inst := p, v := delay, tc := e.rp.pkt.tc, pkt := true, group := s.groupOf e.rp.pkt.srcDn, chan := e.rp.pkt.chan }
  if t.overlong then s1.bump R.GATE_OVERRUN_COUNT [p] else s1

/-! ## Rate limiters (R394 to R397) -/

/-- Limiter k of a tile. -/
def State.lim (s : State) (tile k : Nat) : Lim := s.lims.get Lim.init (4096 * tile + k)
/-- A limiter replaced, by its key. -/
def State.setLim (s : State) (key : Nat) (x : Lim) : State := { s with lims := s.lims.set Lim.init key x }

/-- RATE and BURST of a limiter's word. -/
def limRate (w : Word) : Nat := bitsW w 51 32
def limBurst (w : Word) : Nat := bitsW w 15 0

/-- Tokens for one refill at a rate in Mb/s, in 1/65,536 cell (R395). -/
def refillOf (mbps : Nat) : Nat := mbps * 64 * 65536 / 2048 / 1000

/-- The limiter that the Limiter Map gives a connection half, through the tile's cache (R394). -/
def State.limOf (s : State) (tile conn : Nat) : Option Nat × State :=
  let key := 2 ^ 20 * tile + conn
  let (v, s1) := match s.limCache.get none key with
    | some v => (v, s)
    | none =>
      let v := s.mnat (hbmKey (s.fd F.SCH_LIM_MAP_BASE_BASE * 2 ^ 21 + 2 * conn)) 2
      let used := (s.limCache.filter fun e => e.1 / 2 ^ 20 == tile).length
      let s1 := if used < 2048 then s else
        let (i, s') := s.freeBelow 2047
        { s' with limCache := s'.limCache.eraseIdx ((s'.limCache.filter fun e => decide (e.1 / 2 ^ 20 < tile)).length + i) }
      (v, { s1 with limCache := s1.limCache.set none key (some v) })
  if nbit v 15 && nbits v 14 12 == 0 then (some (4096 * tile + v % 4096), s1) else (none, s1)

/-- The INV_LOCAL of the calendar wheel's slot in which tokens reach n cells: one of the next 4,096 boundaries of 64 ns. -/
def State.wheelAt (s : State) (x : Lim) (n : Nat) : Word :=
  let inc := refillOf (limRate x.cfg)
  let j := if inc == 0 then 4096 else (tokensOf n - x.tokens + inc - 1) / inc
  w64 ((s.limRefill + clampN 1 4096 j) * 256)

/-- Has an operation of the same limiter that was accepted earlier still a packet to form (R396)? -/
def State.limBehind (s : State) (key k : Nat) : Bool :=
  s.ops.any fun e => e.1 != k && e.2.lim == some key && decide (e.2.order < (s.op k).order) && decide (e.2.formed < e.2.n) &&
    (e.2.isOpen || e.2.voiding.isSome)

/-- May an operation's next packet of n cells be formed under its limiter, in its turn? If not, the limiter goes on the wheel, and the
deferral is counted once (R396). -/
def State.limPass (s : State) (key k n : Nat) : Bool × State :=
  let x := s.lims.get Lim.init key
  if limRate x.cfg == 0 then (true, s)
  else if x.wheel.isNone && s.limBehind key k then (false, s)
  else if x.wheel.isNone && decide (tokensOf n ≤ x.tokens) then
    (true, s.setLim key { x with tokens := x.tokens - tokensOf n, waiting := x.waiting.filter (· != k) })
  else
    let s1 := if x.waiting.contains k then s else s.bump R.SCH_LIM_WAIT_COUNT [key / 4096]
    let x1 := if x.waiting.contains k then x else { x with waiting := x.waiting ++ [k] }
    (false, s1.setLim key (if x.wheel.isSome then x1 else { x1 with wheel := some (s.wheelAt x n), need := n }))

/-- A limiter after k refills: a new configuration takes effect at the first, clipping the tokens (R397). -/
def Lim.refilled (x : Lim) (k : Nat) : Lim :=
  match x.next with
  | some w => { x with cfg := w, next := none, tokens := min (tokensOf (limBurst w)) (x.tokens + k * refillOf (limRate w)) }
  | none => { x with tokens := min (tokensOf (limBurst x.cfg)) (x.tokens + k * refillOf (limRate x.cfg)) }

/-- LIMITER_REFILL: every limiter, and every port's cap of TC7, is refilled for the boundaries of 64 ns that have passed
(R384, R395). A limiter whose configuration changes has its place on the wheel computed again (R397). -/
def limiterRefill (s : State) : State :=
  let now := s.loc.toNat / 256
  let k := now - s.limRefill
  if k == 0 then s else
  let s0 := { s with limRefill := now }
  let lims := SMap.mapVals Lim.init (fun _ x =>
    let y := x.refilled k
    if x.next.isSome && x.wheel.isSome then { y with wheel := some (s0.wheelAt y x.need) } else y) s.lims
  let tc7 (p : Nat) (x : Port) : Port :=
    let w := s.rd R.SCH_TC7_LIMIT [p]
    { x with sch := { x.sch with
      tc7 := min (tokensOf (bitsW w 27 16)) (x.sch.tc7 + k * refillOf (100 * bitsW w 11 0)) } }
  let ports := (List.range s.portCount).foldl (fun m p => SMap.set Port.init m p (tc7 p (m.get Port.init p))) s.ports
  { s0 with lims := lims, ports := ports }

/-- WHEEL_SLOT: the limiters of a tile whose slot is reached form their waiting packets while their tokens allow; one that
still has too few is placed again (R396). -/
def wheelSlot (tile : Nat) (s : State) : State :=
  { s with lims := SMap.mapVals Lim.init (fun key x =>
      match x.wheel with
      | some t =>
        if key / 4096 == tile && s.locReached t then
          { x with wheel := if tokensOf x.need ≤ x.tokens then none else some (s.wheelAt x x.need) }
        else x
      | none => x) s.lims }

/-- LIMITER_CFG_WRITE: it takes effect at the next refill (R397). -/
def limiterCfgWrite (path : Path) (tile k : Nat) (v : Word) (s : State) : State :=
  if !s.mayWrite path (R.SCH_LIM_CFG.addr [tile, k]) || 4096 ≤ k || s.portCount ≤ 8 * tile then s else
  let s1 := s.wrSoft R.SCH_LIM_CFG [tile, k] v
  s1.setLim (4096 * tile + k) { s1.lim tile k with next := some (s1.rd R.SCH_LIM_CFG [tile, k]) }

/-- SCH_LIM_INV: a connection's cached map entry, or every entry, is removed from every tile (R394). -/
def schLimInv (path : Path) (v : Word) (s : State) : State :=
  if !s.mayWrite path R.SCH_LIM_INV.base then s
  else if bitW v 31 then { s with limCache := [] }
  else { s with limCache := s.limCache.filter fun e => e.1 % 2 ^ 20 != bitsW v 19 0 }

/-- SCH_LIM_TOKENS and SCH_LIM_WHEEL_USED (Table 16-6). -/
def State.limTokens (s : State) (tile k : Nat) : Word := w64 (s.lim tile k).tokens
def State.wheelUsed (s : State) (tile : Nat) : Word :=
  w64 (s.lims.filter fun e => e.1 / 4096 == tile && e.2.wheel.isSome).length

/-! ## Sampling (R399) -/

/-- The delay of a class's heads so far, in ns: the longest of its eight queues' (DEDUCED, log entry 44). -/
def State.headDelay (s : State) (p tc : Nat) : Nat :=
  let x := s.port p
  ((List.range 8).map fun h => match (x.tx.queues.get [] (queueKey tc h)).head? with
    | some e => (s.ft.toNat - e.joined.toNat) / 4
    | none => 0).foldl max 0

/-- SCH_Q_DEPTH (Table 16-4). -/
def State.queueDepth (s : State) (p tc : Nat) : Word := w64 ((s.port p).depth tc)

/-- DEPTH_SAMPLE: at a multiple of PERIOD every port latches the depth and head delay of its classes. -/
def depthSample (s : State) : State :=
  let period := s.fd F.SCH_SAMPLE_CTRL_PERIOD * ticksPerUs
  if !s.fb F.SCH_SAMPLE_CTRL_EN || !s.ftValid || period == 0 || s.ft.toNat % period != 0 then s else
  (List.range s.portCount).foldl (fun s p => (List.range 8).foldl (fun s tc =>
    s.wr R.SCH_SAMPLE [p, tc] (w64 (s.headDelay p tc % 2 ^ 32 * 2 ^ 32 + (s.port p).depth tc % 2 ^ 16))) s) s

/-! ## The commands -/

/-- GATE_EDGE (R387). -/
def execGateEdge (p : Nat) (s : State) : Host.Outcome State Fault Refusal := .next (s.live (gateEdge p))
/-- GATE_ARM (R392). -/
def execGateArm (path : Path) (p : Nat) (v : Word) (s : State) : Host.Outcome State Fault Refusal := .next (gateArm path p v s)
/-- GATE_CANCEL (R392). -/
def execGateCancel (path : Path) (p : Nat) (v : Word) (s : State) : Host.Outcome State Fault Refusal :=
  .next (gateCancel path p v s)
/-- GATE_TAKEOVER (R392). -/
def execGateTakeover (p : Nat) (s : State) : Host.Outcome State Fault Refusal := .next (s.live (gateTakeover p))
/-- LIMITER_REFILL (R395). -/
def execLimiterRefill (s : State) : Host.Outcome State Fault Refusal := .next (s.live limiterRefill)
/-- WHEEL_SLOT (R396). -/
def execWheelSlot (tile : Nat) (s : State) : Host.Outcome State Fault Refusal := .next (s.live (wheelSlot tile))
/-- LIMITER_CFG_WRITE (R397). -/
def execLimiterCfgWrite (path : Path) (tile k : Nat) (v : Word) (s : State) : Host.Outcome State Fault Refusal :=
  .next (limiterCfgWrite path tile k v s)
/-- SCH_LIM_INV (R394). -/
def execSchLimInv (path : Path) (v : Word) (s : State) : Host.Outcome State Fault Refusal := .next (schLimInv path v s)
/-- DEPTH_SAMPLE (R399). -/
def execDepthSample (s : State) : Host.Outcome State Fault Refusal := .next (s.live depthSample)

end Sys2Proof.Machine
end

