-- ==== Sys2Proof/Machine/Routing.lean ====
section
/-! DEFINITION. Machine/Routing.lean: the route tables, the choice of the next hop, holds, and the timed switchover between
banks (chapter 13). -/
namespace Sys2Proof.Machine

/-! ## Tables of a bank (R317) -/

/-- The state of a bank (Table 13-7): 0 FREE, 1 ARMED, 2 ACTIVE, 3 DRAINING. -/
def State.bank (s : State) (b : Nat) : Nat := if b == 0 then s.route.bank0 else s.route.bank1
/-- A bank put into a state. -/
def State.setBank (s : State) (b v : Nat) : State :=
  { s with route := if b == 0 then { s.route with bank0 := v } else { s.route with bank1 := v } }
/-- The number of the ARMED bank. -/
def State.armedBank (s : State) : Option Nat := firstBelow 2 fun b => s.bank b == 1
/-- The bank that is not ACTIVE once routing is enabled. -/
def State.otherBank (s : State) : Nat := 1 - s.route.active

/-- A port set as a number: bit p is port p. -/
def State.pset (s : State) (b i : Nat) : Nat :=
  (s.rd R.ROUTE_PSET [b, i, 0]).toNat + 2 ^ 64 * (s.rd R.ROUTE_PSET [b, i, 1]).toNat

/-- ROLE of a port, with the reserved values taken as 0 (Table 13-5): 1 row, 2 column, 3 global, 4 attach. -/
def State.role (s : State) (b p : Nat) : Nat :=
  let r := s.fd F.ROUTE_PORT_ROLE [b, p]
  if 4 < r then 0 else r

/-- A coordinate (R17). -/
structure Pos where
  g : Nat
  r : Nat
  c : Nat
deriving DecidableEq, Repr

/-- The device's own coordinate. -/
def State.ownPos (s : State) : Pos :=
  { g := s.fd F.ROUTE_SELF_POS_GROUP, r := s.fd F.ROUTE_SELF_POS_ROW, c := s.fd F.ROUTE_SELF_POS_COL }

/-- The coordinate of a DN in a bank: none when it is not routable there, V = 0 or the device's own coordinate (R17, R324). -/
def State.posOf (s : State) (b dn : Nat) : Option Pos :=
  let d : Pos :=
    { g := s.fd F.ROUTE_DEST_GROUP [b, dn], r := s.fd F.ROUTE_DEST_ROW [b, dn], c := s.fd F.ROUTE_DEST_COL [b, dn] }
  if s.fb F.ROUTE_DEST_V [b, dn] && d != s.ownPos then some d else none

/-- The ports of a Row Table and of a Column Table entry; V = 0 offers none (R320). -/
def State.rowSet (s : State) (b i : Nat) : Nat :=
  if s.fb F.ROUTE_ROW_V [b, i] then s.pset b (s.fd F.ROUTE_ROW_SET [b, i]) else 0
def State.columnSet (s : State) (b i : Nat) : Nat :=
  if s.fb F.ROUTE_COLUMN_V [b, i] then s.pset b (s.fd F.ROUTE_COLUMN_SET [b, i]) else 0

/-! ## Candidates (R320 to R323) -/

/-- The minimal and the two detour classes. -/
inductive Cls | minimal | line | global
deriving DecidableEq, Repr

/-- A candidate: its port, its class, and B. -/
structure Cand4 where
  port : Nat
  cls : Cls
  bound : Nat
deriving DecidableEq, Repr

/-- The candidates of a set of ports in a class; a port of ROLE 0 is never used (R318). -/
def State.candsOf (s : State) (b set bound : Nat) (cls : Cls) : List Cand4 :=
  ((List.range s.portCount).filter fun p => nbit set p && s.role b p != 0).map fun p => ⟨p, cls, bound⟩

/-- The minimal candidates (M1 to M3 of Table 13-6). V of a group is consulted by the source's check alone (R328). -/
def State.minimal (s : State) (b : Nat) (d : Pos) : List Cand4 :=
  let me := s.ownPos
  if me.g == d.g then
    if d.r == me.r then s.candsOf b (s.rowSet b d.c) 0 .minimal
    else if d.c == me.c then s.candsOf b (s.columnSet b d.r) 0 .minimal
    else s.candsOf b (s.rowSet b d.c ||| s.columnSet b d.r) 1 .minimal
  else
    s.candsOf b (s.pset b (s.fd F.ROUTE_GROUP_MIN_SET [b, d.g]))
      (s.fd F.ROUTE_GROUP_DIST [b, d.g] + s.fd F.ROUTE_CFG_DIAM - 1) .minimal

/-- Are detours offered to a traffic class (R322)? -/
def State.detours (s : State) (tc : Nat) : Bool := s.fb F.ROUTE_CFG_NM_EN && !nbit (s.fd F.ROUTE_TC_CFG_MIN_ONLY) tc

/-- The candidates of Table 13-6 for a destination, each port once, in its first class (R323). -/
def State.candidates (s : State) (b : Nat) (d : Pos) (tc : Nat) (ldet gdet : Bool) : List Cand4 :=
  let me := s.ownPos
  let m := s.minimal b d
  if !s.detours tc then m else
  let free (p : Nat) : Bool := !m.any (·.port == p)
  let ports := List.range s.portCount
  let far := s.fd F.ROUTE_CFG_GW_MAX + s.fd F.ROUTE_CFG_DIAM
  let d1 := if ldet then [] else
    ports.filter fun p => free p && (s.role b p == 1 || s.role b p == 2)
  let d2 := if gdet || me.g == d.g then [] else
    ports.filter fun p =>
      let pg := s.fd F.ROUTE_PORT_PEER_GROUP [b, p]
      free p && s.role b p == 3 && pg != me.g && pg != d.g && s.fb F.ROUTE_GROUP_NM_OK [b, pg]
  m ++ d1.map (fun p => ⟨p, .line, if me.g == d.g then s.fd F.ROUTE_CFG_DIAM else far⟩) ++ d2.map (fun p => ⟨p, .global, far⟩)

/-- Is a candidate permitted at hop h (R323)? -/
def State.permitted (s : State) (h : Nat) (x : Cand4) : Bool := decide (h + 1 + x.bound ≤ s.fd F.ROUTE_CFG_HOP_LIMIT)

/-- The source's check before the first packet of an operation: does the active bank offer a path to a DN (R328)? -/
def State.routable (s : State) (dn tc : Nat) : Bool :=
  if dn == s.ownDn then true else
  let b := s.route.active
  match s.posOf b dn with
  | none => false
  | some d =>
    (d.g == s.ownPos.g || s.fb F.ROUTE_GROUP_V [b, d.g]) && (s.candidates b d tc false false).any (s.permitted 0)

/-- The entry that bit i of a MASK names on a line, in the active bank: V, and the DN and the port set of its copies (R330). -/
def State.lineEntry (s : State) (column : Bool) (i : Nat) : Bool × Nat × Nat :=
  let b := s.route.active
  if column then (s.fb F.ROUTE_COLUMN_V [b, i], s.fd F.ROUTE_COLUMN_DN [b, i], s.fd F.ROUTE_COLUMN_SET [b, i])
  else (s.fb F.ROUTE_ROW_V [b, i], s.fd F.ROUTE_ROW_DN [b, i], s.fd F.ROUTE_ROW_SET [b, i])

/-- The member that it names; none for an entry with V = 0. -/
def State.lineMember (s : State) (column : Bool) (i : Nat) : Option (Nat × Nat) :=
  let e := s.lineEntry column i
  if e.1 then some e.2 else none

/-! ## The choice among live candidates (R324) -/

/-- L(p): cells queued, with the penalty for short credit in hop class h. -/
def State.loadAt (s : State) (h p : Nat) : Nat :=
  let x := s.port p
  x.load + if (x.tx.ded.getD h 0) + x.tx.sh < 17 then s.fd F.ROUTE_CFG_CREDIT_PEN else 0

/-- The weight of a port, halved and rounded up on one lane. -/
def State.weightAt (s : State) (h p : Nat) : Nat :=
  let w := 64 - min 63 (s.loadAt h p / 2 ^ s.fd F.ROUTE_CFG_SCALE)
  if (s.port p).oneLane then (w + 1) / 2 else w

/-- The least of some numbers. -/
def least : List Nat → Option Nat
  | [] => none
  | x :: xs => match least xs with
    | none => some x
    | some y => some (min x y)

/-- The classes chosen from: the detours only when no minimal candidate is live, or Lmin > 2 × Lnm + NM_BIAS. -/
def State.chosenClasses (s : State) (h : Nat) (live : List Cand4) : List Cand4 :=
  let m := live.filter (·.cls == .minimal)
  let d := live.filter (·.cls != .minimal)
  match least (m.map fun x => s.loadAt h x.port), least (d.map fun x => s.loadAt h x.port) with
  | none, _ => d
  | some _, none => m
  | some a, some b => if 2 * b + s.fd F.ROUTE_CFG_NM_BIAS < a then d else m

/-- The candidate that a draw below the sum of the weights falls on. -/
def pickWeighted : Nat → List (Nat × Cand4) → Option Cand4
  | _, [] => none
  | n, (w, x) :: rest => if n < w then some x else pickWeighted (n - w) rest

/-- One candidate of those that are live; the draw is free below the sum of the weights (DESIGN CHOICE, log entry 3). -/
def State.choose (s : State) (h : Nat) (live : List Cand4) : Option Cand4 × State :=
  let xs := (s.chosenClasses h live).map fun x => (s.weightAt h x.port, x)
  let (n, s1) := s.freeBelow ((xs.map (·.1)).sum - 1)
  (pickWeighted n xs, s1)

/-! ## Routing a packet (R319 to R331) -/

/-- What a decision needs of a packet: it is discarded and counted, it is for this device, or it goes to one of its
permitted candidates. -/
inductive Dest
  | discard (count : RegDesc)
  | own
  | permitted (xs : List Cand4)
deriving DecidableEq, Repr

/-- The decision up to liveness, in the order of the pseudocode of R324, with the age check (R326) and the rules of
multicast copies (R330, R331): a copy has the ports of its member's set alone, and one without any, or whose member's entry has V = 0 in
the bank by then, is held and discarded as one without a live port (DEDUCED, log entry 152). -/
def State.destOf (s : State) (x : RPkt) : Dest :=
  let p := x.pkt
  let b := p.epoch
  if s.bank b == 0 then .discard R.ROUTE_STALE_EPOCH_COUNT
  else if p.dstDn == s.ownDn then .own
  else if x.src.isSome && p.hc == 7 then .discard R.ROUTE_HOPLIMIT_COUNT
  else if x.src.isSome && p.op == opMcast then .discard R.ROUTE_NOROUTE_COUNT
  else if s.expired p then .discard R.ROUTE_EXPIRE_COUNT
  else match x.set with
    | some i => .permitted ((s.candsOf b (s.pset b i) 0 .minimal).filter (s.permitted x.h))
    | none => if p.op == opMcast then .permitted [] else match s.posOf b p.dstDn with
      | none => .discard R.ROUTE_NOROUTE_COUNT
      | some d =>
        let xs := (s.candidates b d p.tc p.ldet p.gdet).filter (s.permitted x.h)
        if xs.isEmpty then .discard R.ROUTE_HOPLIMIT_COUNT else .permitted xs

/-- A packet leaves on a candidate: it joins the port's egress queue, with the route-state bits of R321. -/
def State.leaveOn (s : State) (x : RPkt) (c : Cand4) : State :=
  let ld := (x.pkt.ldet || c.cls == .line) && s.role x.pkt.epoch c.port != 3
  let gd := x.pkt.gdet || c.cls == .global
  let s1 := if c.cls == .minimal then s else s.bump R.ROUTE_NM_COUNT
  s1.enqueue c.port ld gd x

/-- A packet routed, none when it must be held for a live candidate (R329). -/
def State.routePkt (s : State) (tile : Nat) (x : RPkt) : Option State :=
  match s.destOf x with
  | .discard cnt => some ((s.discardPkt x).bump cnt)
  | .own => some ((s.pmuTile tile 0x101 x.pkt.cells).toSolder x)
  | .permitted xs =>
    let live := xs.filter fun c => (s.port c.port).live
    if live.isEmpty then none
    else match s.choose x.h live with
      | (some c, s1) =>
        let s2 := if x.src.isSome then s1.pmuTile tile 0x102 else s1
        let s3 := if c.cls == .minimal then s2 else s2.pmuTile tile 0x104
        some ((s3.pmuTile tile 0x101 x.pkt.cells).leaveOn x c)
      | (none, s1) => some s1

/-- Do two packets at a tile use the same input, so that one that is held stalls the other? Copies of a multicast to
different members do not (R329, R331). -/
def sameInput (x y : RPkt) : Bool := x.src == y.src && x.set == y.set

/-- The first held packet of a tile that can go on. -/
def State.routeHeld (s : State) (tile : Nat) : Nat → List Hold → Option State
  | _, [] => none
  | i, h :: rest =>
    if h.tile == tile then
      match ({ s with route := { s.route with holds := s.route.holds.eraseIdx i } }).routePkt tile h.rp with
      | some s1 => some s1
      | none => s.routeHeld tile (i + 1) rest
    else s.routeHeld tile (i + 1) rest

/-- ROUTE: a packet of a tile is routed: one held there for which a candidate has become live, else the first whose input
is not stalled, which is held when it has no live candidate (R324, R329). -/
def route (tile : Nat) (s : State) : State :=
  match s.routeHeld tile 0 s.route.holds with
  | some s1 => s1
  | none =>
    let q := s.route.tiles.get [] tile
    match q.findIdx? fun x => !s.route.holds.any fun h => h.tile == tile && sameInput h.rp x with
    | none => s
    | some i => match q[i]? with
      | none => s
      | some x =>
        let s1 := { s with route := { s.route with tiles := s.route.tiles.set [] tile (q.eraseIdx i) } }
        match s1.routePkt tile x with
        | some s2 => s2
        | none =>
          let until_ := s1.locIn ((s1.rd R.ROUTE_HOLD).toNat * 4)
          let s2 := s1.pmuTile tile 0x107
          { s2 with route := { s2.route with holds := s2.route.holds ++ [⟨x, tile, until_⟩] } }

/-- ROUTE_HOLD_END: a hold ends and its packet is discarded (R329). -/
def routeHoldEnd (i : Nat) (s : State) : State :=
  match s.route.holds[i]? with
  | none => s
  | some h =>
    if s.locReached h.until_ then
      (({ s with route := { s.route with holds := s.route.holds.eraseIdx i } }).discardPkt h.rp).bump R.ROUTE_NOPATH_COUNT
    else s

/-! ## Banks (R332 to R335) -/

/-- Routing is enabled with a bank ACTIVE (Table 13-8). -/
def State.enableRouting (s : State) (b : Nat) : State :=
  if s.route.enabled then s
  else { (s.fset F.ROUTE_EPOCH_CTRL_ENABLE [] true).setBank b 2 with route :=
    { (s.setBank b 2).route with enabled := true, active := b } }

/-- Why arming is refused, in the order of Table 13-9 (R334); none when it is accepted. -/
def State.armRefusal (s : State) (at_ : Word) : Option Nat :=
  if !s.route.enabled then some ctrlBusy
  else if !s.ftValid then some 0x14
  else if s.bank s.otherBank != 0 then some ctrlBusy
  else if at_.toNat < s.ft.toNat + 4000000 then some ctrlArg
  else none

/-- The bank that is not ACTIVE is ARMED for S. -/
def State.armBank (s : State) (at_ : Word) : State := (s.wr R.ROUTE_SWITCH_FT [] at_).setBank s.otherBank 1

/-- May an ARMED bank still be cancelled: FT < S? -/
def State.cancellable (s : State) : Bool := s.armedBank.isSome && !s.ftReached (s.rd R.ROUTE_SWITCH_FT)

/-- A write of ROUTE_EPOCH_CTRL (Table 13-13): INIT_BANK, then ENABLE, ARM and CANCEL where they are written 1. -/
def epochWrite (path : Path) (v : Word) (s : State) : State :=
  if !s.mayWrite path R.ROUTE_EPOCH_CTRL.base then s else
  let s1 := s.fw F.ROUTE_EPOCH_CTRL_INIT_BANK [] (bitsW v 0 0)
  let s2 := if bitW v 31 then s1.enableRouting (bitsW v 0 0) else s1
  let at_ := s2.rd R.ROUTE_SWITCH_FT
  let s3 := if bitW v 30 && (s2.armRefusal at_).isNone then s2.armBank at_ else s2
  if bitW v 29 && s3.cancellable then s3.routeDisarm else s3

/-- ROUTE_ENABLE. -/
def routeEnable (path : Path) (v : Word) (s : State) : State := if bitW v 31 then epochWrite path v s else s
/-- ROUTE_ARM. -/
def routeArm (path : Path) (v : Word) (s : State) : State := if bitW v 30 then epochWrite path v s else s
/-- ROUTE_CANCEL. -/
def routeCancel (path : Path) (v : Word) (s : State) : State := if bitW v 29 then epochWrite path v s else s

/-- EPOCH_SWITCH: FT reaches S; the ARMED bank becomes ACTIVE and the other DRAINING (Table 13-8). FT that is not valid
reaches nothing (DEDUCED, log entry 35). -/
def epochSwitch (s : State) : State :=
  let at_ := s.rd R.ROUTE_SWITCH_FT
  match s.armedBank with
  | none => s
  | some b =>
    if !s.ftValid || !s.ftReached at_ then s else
    let s1 := (s.setBank b 2).setBank (1 - b) 3
    let s2 := s1.wr R.ROUTE_DRAIN_END_FT []
      (w64 (at_.toNat + (s.rd R.SLD_LIFETIME).toNat + (s.rd R.ROUTE_EPOCH_GUARD).toNat * ticksPerUs))
    { s2 with route := { s2.route with active := b } }.bump R.ROUTE_SWITCH_COUNT

/-- DRAIN_END: the DRAINING bank becomes FREE (Table 13-8). -/
def drainEnd (s : State) : State :=
  match firstBelow 2 fun b => s.bank b == 3 with
  | none => s
  | some b => if s.ftValid && s.ftReached (s.rd R.ROUTE_DRAIN_END_FT) then s.setBank b 0 else s

/-- ROUTE_EPOCH_STATUS (Table 13-10). -/
def State.epochStatus (s : State) : Word :=
  w64 (b2n s.route.enabled * 2 ^ 31 + s.route.active * 2 ^ 8 + s.route.bank1 * 2 ^ 4 + s.route.bank0)

/-! ## Commands (R336) -/

/-- May a PF give routing commands? -/
def State.fmMay (s : State) (pf : Nat) : Bool := nbit (s.fd F.ROUTE_FM_PFS_PFS) pf

/-- Entries of a table by its number in RT_LOAD, and the bytes of one. -/
def tableEntries : Nat → Nat
  | 0 => 131072
  | 1 => 512
  | 2 => 16
  | 3 => 16
  | 4 => 128
  | _ => 1024
def tableBytes (t : Nat) : Nat := if t == 5 then 16 else 4

/-- One entry of a table written in a bank (R317). -/
def State.tableWrite (s : State) (b t i : Nat) (bs : List Byte) : State :=
  let v := w64 (leAt bs 0 4)
  match t with
  | 0 => s.wrSoft R.ROUTE_DEST [b, i] v
  | 1 => s.wrSoft R.ROUTE_GROUP [b, i] v
  | 2 => s.wrSoft R.ROUTE_ROW [b, i] v
  | 3 => s.wrSoft R.ROUTE_COLUMN [b, i] v
  | 4 => s.wrSoft R.ROUTE_PORT [b, i] v
  | _ => (s.wrSoft R.ROUTE_PSET [b, i, 0] (w64 (leAt bs 0 8))).wrSoft R.ROUTE_PSET [b, i, 1] (w64 (leAt bs 8 8))

/-- Every table of bank b copied into the other one (RT_LOAD TABLE 6). -/
def State.copyBank (s : State) (b : Nat) : State :=
  let lo (b : Nat) : Nat := 0x5100000 + b * 0x100000
  let inB (b a : Nat) : Bool := decide (lo b ≤ a) && decide (a < lo b + 0x100000)
  let kept := s.regs.filter fun e => !inB (1 - b) e.1
  { s with regs := (s.regs.filter fun e => inB b e.1).foldl (fun m e => SMap.set 0 m (e.1 - lo b + lo (1 - b)) e.2) kept }

/-- RT_LOAD (Table 13-9). The host memory that the control program reads comes with the command: `st` and `data` are how the
read ended and what it returned; a read that fails leaves the entries before it (DESIGN CHOICE, log entry 37). -/
def rtLoadBody (st : Nat) (data : List Byte) (pf : Nat) (b : List Byte) (_ : Nat) (s : State) : CtrlEnd × State :=
  let t := leAt b 8 1
  let bank := if s.route.enabled then s.otherBank else leAt b 9 1 % 2
  let first := leAt b 12 4
  let count := leAt b 16 4
  if 6 < t || (t != 6 && tableEntries t < first + count) then endsWith ctrlArg s
  else if !s.fmMay pf then endsWith ctrlDenied s
  else if s.bank bank != 0 || (t == 6 && !s.route.enabled) then endsWith ctrlBusy s
  else if t == 6 then
    (some { status := 0, bytes := ((List.range 6).map tableEntries).sum }, s.copyBank s.route.active)
  else
    let (st, n, s1) :=
      if count == 0 then (0, 0, s)
      else if s.reqBar pf == .noMaster then (6, 0, s.notIssued)
      else if st == 0 then (0, count, s)
      else (6, min count (data.length / tableBytes t), s.hostErr pf st)
    (some { status := st, bytes := n },
      (List.range n).foldl (fun s i => s.tableWrite bank t (first + i) (byteSlice data (i * tableBytes t) (tableBytes t))) s1)

/-- RT_ARM (Table 13-9). -/
def rtArmBody (pf : Nat) (b : List Byte) (_ : Nat) (s : State) : CtrlEnd × State :=
  let at_ := w64 (leAt b 8 8)
  if !s.fmMay pf then endsWith ctrlDenied s
  else match s.armRefusal at_ with
    | some st => endsWith st s
    | none => endsWith 0 (s.armBank at_)

/-- RT_CANCEL (Table 13-9). -/
def rtCancelBody (pf : Nat) (_ : List Byte) (_ : Nat) (s : State) : CtrlEnd × State :=
  if !s.fmMay pf then endsWith ctrlDenied s
  else if s.cancellable then endsWith 0 s.routeDisarm
  else endsWith ctrlBusy s

/-- RT_QUERY (Table 13-9). -/
def rtQueryBody (pf : Nat) (_ : List Byte) (_ : Nat) (s : State) : CtrlEnd × State :=
  if !s.fmMay pf then endsWith ctrlDenied s
  else (some { status := 0, bytes := s.route.active * 2 ^ 8 + s.route.bank1 * 2 ^ 4 + s.route.bank0 }, s)

/-- A cached Endpoint Table entry leaves the cache (R316). -/
def State.eptDrop (s : State) (epid : Nat) : State := { s with eptCache := s.eptCache.set none epid none }

/-- EPT_WRITE (Table 13-9). -/
def eptWriteBody (pf : Nat) (b : List Byte) (_ : Nat) (s : State) : CtrlEnd × State :=
  let epid := leAt b 8 3
  if 2 ^ s.fd F.ROUTE_EPT_CFG_LOG2_ENTRIES ≤ epid then endsWith ctrlArg s
  else if !s.fmMay pf then endsWith ctrlDenied s
  else endsWith 0 ((s.mwrite (s.eptKey epid) (byteSlice b 16 16)).eptDrop epid)

/-- ROUTE_EPT_INV: one entry, or all, removed from the cache (R316). -/
def routeEptInv (path : Path) (v : Word) (s : State) : State :=
  if !s.mayWrite path R.ROUTE_EPT_INV.base then s
  else if bitW v 31 then { s with eptCache := [] }
  else s.eptDrop (bitsW v 23 0)

/-! ## The commands -/

/-- ROUTE (R324). -/
def execRoute (tile : Nat) (s : State) : Host.Outcome State Fault Refusal := .next (s.live (route tile))
/-- ROUTE_HOLD_END (R329). -/
def execRouteHoldEnd (i : Nat) (s : State) : Host.Outcome State Fault Refusal := .next (s.live (routeHoldEnd i))
/-- RT_LOAD (R336). -/
def execRtLoad (pf idx st : Nat) (data : List Byte) (s : State) : Host.Outcome State Fault Refusal :=
  .next (s.ctrl pf idx 0x60 (rtLoadBody st data pf))
/-- RT_ARM (R334). -/
def execRtArm (pf idx : Nat) (s : State) : Host.Outcome State Fault Refusal := .next (s.ctrl pf idx 0x61 (rtArmBody pf))
/-- RT_CANCEL (R336). -/
def execRtCancel (pf idx : Nat) (s : State) : Host.Outcome State Fault Refusal := .next (s.ctrl pf idx 0x62 (rtCancelBody pf))
/-- RT_QUERY (R336). -/
def execRtQuery (pf idx : Nat) (s : State) : Host.Outcome State Fault Refusal := .next (s.ctrl pf idx 0x63 (rtQueryBody pf))
/-- EPT_WRITE (R336). -/
def execEptWrite (pf idx : Nat) (s : State) : Host.Outcome State Fault Refusal := .next (s.ctrl pf idx 0x64 (eptWriteBody pf))
/-- ROUTE_ENABLE (R332). -/
def execRouteEnable (path : Path) (v : Word) (s : State) : Host.Outcome State Fault Refusal := .next (routeEnable path v s)
/-- ROUTE_ARM (R332). -/
def execRouteArm (path : Path) (v : Word) (s : State) : Host.Outcome State Fault Refusal := .next (routeArm path v s)
/-- ROUTE_CANCEL (R332). -/
def execRouteCancel (path : Path) (v : Word) (s : State) : Host.Outcome State Fault Refusal := .next (routeCancel path v s)
/-- ROUTE_EPT_INV (R316). -/
def execRouteEptInv (path : Path) (v : Word) (s : State) : Host.Outcome State Fault Refusal := .next (routeEptInv path v s)
/-- EPOCH_SWITCH (R332). -/
def execEpochSwitch (s : State) : Host.Outcome State Fault Refusal := .next (s.live epochSwitch)
/-- DRAIN_END (R332). -/
def execDrainEnd (s : State) : Host.Outcome State Fault Refusal := .next (s.live drainEnd)

end Sys2Proof.Machine
end

