-- ==== Sys2Proof/Machine/Solder.lean ====
section
/-! DEFINITION. Machine/Solder.lean: destination reordering: arrival, release, outcomes, storage, acknowledgements
(chapter 14, R219 to R224, R229). -/
namespace Sys2Proof.Machine

/-! ## A stream's marks -/

/-- Is a number held, released or consumed (R340)? -/
def Stream.marked (x : Stream) (n : BitVec 32) : Bool :=
  x.held.any (·.pkt.seq == n) || x.released.any (·.1 == n) || x.consumed.contains n

/-- E past every consecutive consumed number (R219); the bound is the count of the numbers consumed above it. -/
def Stream.advance : Nat → Stream → Stream
  | 0, x => x
  | k + 1, x =>
    if x.consumed.contains x.e then Stream.advance k { x with e := x.e + 1, consumed := x.consumed.filter (· != x.e) } else x

/-- Is the packet a seal, the last packet of a put with IMM, or a FLUSH, which a relaxed channel holds (R211, R224)? -/
def isSeal (p : Packet) : Bool := p.sealed || p.imm || p.op == opFlush
/-- Is it a request that a strict channel releases alone (Table 14-1)? -/
def isOrdered (p : Packet) : Bool := p.op == opGetReq || p.op == opAmoReq || p.op == opFlush

/-- Is a packet given back below the release point held, which goes ahead of any further release of its strict stream (R343)? -/
def Stream.backBelow (x : Stream) : Bool := x.held.any fun y => y.returned && seqBelow y.pkt.seq x.nr

/-- Is a packet releasable but for the strict depth (Table 14-1)? One below NR is (DEDUCED, log entry 29). -/
def Stream.turn (x : Stream) (rlx : Bool) (p : Packet) : Bool :=
  if rlx then !isSeal p || (p.seq == x.e && !x.fail)
  else seqBelow p.seq x.nr || (p.seq == x.nr && !x.backBelow && (!isOrdered p || (x.nr == x.e && x.released.isEmpty)))

/-- Is it releasable (Table 14-1)? -/
def Stream.releasable (x : Stream) (rlx : Bool) (depth : Nat) (p : Packet) : Bool :=
  x.turn rlx p && (rlx || isOrdered p || seqBelow p.seq x.nr || decide ((x.nr - x.e).toNat < depth))

/-- STRICT_DEPTH (Table 14-5). -/
def State.strictDepth (s : State) : Nat := s.fd F.SLD_CFG_STRICT_DEPTH

/-! ## Storage (R346, R348) -/

/-- On-die cells, and cells of 256 KiB of the reserve and of 64 MiB of spill. -/
def onDieCells : Nat := 131072
def State.reserveCells (s : State) : Nat := s.fd F.SLD_STORE_CFG_INORDER_RESV * 1024
/-- Cells of the spill region: none when it would extend beyond 48 GiB (R351). -/
def State.spillCells (s : State) : Nat :=
  let n := s.fd F.SLD_SPILL_SIZE_SIZE
  if s.fd F.SLD_SPILL_BASE_BASE + n ≤ 768 then n * 262144 else 0

/-- Every held packet of the device; none while the adapter is halted (R350). -/
def State.allHeld (s : State) : List Held := s.net.halves.flatMap fun e => (s.half e.1).rx.held
/-- Cells in use of a place. -/
def cellsOf (hs : List Held) (p : Held → Bool) : Nat := ((hs.filter p).map (·.pkt.cells)).sum
def State.onDieUsed (s : State) : Nat := cellsOf s.allHeld (·.place != .spill)
def State.onDieOutside (s : State) : Nat := cellsOf s.allHeld fun h => h.place != .spill && !h.reserve
def State.spillUsed (s : State) : Nat := cellsOf s.allHeld (·.place == .spill)
/-- Reorder contexts and seal entries in use. -/
def State.ctxUsed (s : State) : Nat := (s.net.halves.filter fun e => (s.half e.1).rx.ctx).length
def State.sealsUsed (s : State) : Nat :=
  (s.net.halves.map fun e => if e.2.rlx then ((s.half e.1).rx.held.filter (isSeal ·.pkt)).length else 0).sum

/-- Room on-die: outside the reserve, else within it. -/
def State.onDieRoom (s : State) (cells : Nat) (useReserve : Bool) : Option Bool :=
  if s.onDieOutside + cells ≤ onDieCells - s.reserveCells then some false
  else if useReserve && decide (s.onDieUsed + cells ≤ onDieCells) then some true
  else none

/-- The refusals of a packet that must be held, by the register that counts them. -/
inductive HoldRes
  | at_ (place : Place) (reserve : Bool)
  | refuse (count : RegDesc)
deriving DecidableEq, Repr

/-- Where a packet that must be held goes (Table 14-2). -/
def State.placeFor (s : State) (h : Half) (p : Packet) (ready : Bool) : HoldRes :=
  let n := p.cells
  if h.rlx && isSeal p && decide (4096 ≤ s.sealsUsed) then .refuse R.SLD_REFUSE_SEAL_COUNT
  else if s.fd F.SLD_STORE_CFG_CTX_MAX * (onDieCells + s.spillCells) < (cellsOf h.rx.held fun _ => true) * 256 + n * 256 then
    .refuse R.SLD_REFUSE_STORE_COUNT
  else if ready then
    match s.onDieRoom n true with
    | some r => .at_ .onDie r
    | none => .refuse R.SLD_REFUSE_STORE_COUNT
  else
    let spillNow := decide (s.fd F.SLD_STORE_CFG_SPILL_AT * onDieCells ≤ s.onDieUsed * 256)
    match (if spillNow then none else s.onDieRoom n false) with
    | some r => .at_ .onDie r
    | none =>
      if s.fb F.SLD_CFG_SPILL_EN && decide (s.spillUsed + n ≤ s.spillCells) then .at_ .spill false
      else .refuse R.SLD_REFUSE_STORE_COUNT

/-- The first n cells of the spill region from i on that are not used; the first number bounds the search. -/
def freeCells : Nat → Nat → List Nat → Nat → List Nat
  | 0, _, _, _ => []
  | _, _, _, 0 => []
  | f + 1, i, used, n + 1 => if used.contains i then freeCells f (i + 1) used (n + 1) else i :: freeCells f (i + 1) used n

/-- The cells that a packet is spilled to: the lowest free (DESIGN CHOICE, log entry 30). -/
def State.spillAt (s : State) (p : Packet) : List Nat :=
  let used := s.allHeld.flatMap (·.cellsAt)
  freeCells (used.length + p.cells) 0 used p.cells

/-- A packet as carried is written to cells of the spill region in HBM (R346). -/
def State.spillWrite (s : State) (p : Packet) (cells : List Nat) : State :=
  let base := s.fd F.SLD_SPILL_BASE_BASE * 2 ^ 26
  cells.zipIdx.foldl (fun s c => s.mwrite (hbmKey (base + 256 * c.1)) ((p.bytes.drop (256 * c.2)).take 256)) s

/-! ## Acknowledgements (R229, R368) -/

/-- What an acknowledgement reports beside the state of the stream (Table 9-3). -/
structure AckBody where
  kind : Nat := 1
  code : Nat := 0
  detail : Nat := 0
  dup : Bool := false
  seq : BitVec 32
  tx : Nat
  rx : Word
  hold : Bool
  proof : Nat := 0
deriving DecidableEq, Repr

/-- AK_SACK: the marks above E + 1 (Table 9-3). -/
def Stream.sack (x : Stream) : Nat :=
  ((List.range 64).map fun i => if x.marked (x.e + 1 + BitVec.ofNat 32 i) then 2 ^ i else 0).sum

/-- The payload of an acknowledgement (Table 15-8). -/
def ackPayload (rlx : Bool) (x : Stream) (a : AckBody) : List Byte :=
  beBytes 1 a.kind ++ beBytes 1 a.code ++ beBytes 1 a.detail ++
  beBytes 1 (b2n rlx * 4 + b2n a.dup * 2 + b2n a.hold) ++ beBytes 4 x.e.toNat ++ beBytes 4 a.seq.toNat ++ beBytes 8 x.sack ++
  beBytes 6 a.tx ++ beBytes 6 a.rx.toNat ++ beBytes 8 a.proof

/-- An acknowledgement packet is formed and handed to a tile, unless the device forms no packets (R368, R535). -/
def State.formAck (s : State) (tile : Nat) (p : Packet) : State :=
  if s.formsPackets then s.toTile tile ⟨s.stamped { p with op := opAck }, none, 0, none, none, none⟩
  else s.bump R.ROUTE_NOTREADY_COUNT

/-- The stream of a half is acknowledged: what was due is no longer (R229). -/
def State.sendAck (s : State) (r : Nat) (a : AckBody) : State :=
  let h := s.half r
  let x := h.rx
  let s1 := s.setRx r { x with ackCount := 0, ackFrom := none, last := none }
  s1.formAck (r / 16384 / 4) { Packet.zero with
    dstDn := x.peer, dstEp := h.remoteEp, srcEp := h.localEp, chan := h.chan, tc := h.tc, iso := h.iso
    payload := ackPayload h.rlx x a }

/-- A packet with no stream to answer it is refused (R340); the acknowledgement is formed at tile 0 (DESIGN CHOICE, log entry 28). -/
def State.refuseBare (s : State) (p : Packet) (rx : Word) (code detail : Nat) : State :=
  s.formAck 0 { Packet.zero with
    dstDn := p.srcDn, dstEp := p.srcEp, srcEp := p.dstEp, chan := p.chan, tc := p.tc, iso := p.iso
    payload := ackPayload p.rlx { Stream.init with e := p.seq }
      { kind := 3, code := code, detail := detail, seq := p.seq, tx := p.stamp, rx := rx, hold := p.holdover || s.holdover } }

/-- A packet of a stream is refused (R231). -/
def State.refuse (s : State) (r : Nat) (p : Packet) (rx : Word) (hold : Bool) (code detail : Nat) : State :=
  s.sendAck r { kind := 3, code := code, detail := detail, seq := p.seq, tx := p.stamp, rx := rx, hold := hold }

/-- The acknowledgement of what was newly consumed. -/
def State.ackConsumed (s : State) (r : Nat) : State :=
  match (s.half r).rx.last with
  | some (n, tx, rx, hold) => s.sendAck r { seq := BitVec.ofNat 32 n.toNat, tx := tx, rx := w64 rx, hold := hold }
  | none => s

/-- ACK_DELAY: the oldest consumption that is not acknowledged has waited ACK_DELAY (R229). -/
def ackDelay (r : Nat) (s : State) : State :=
  match (s.half r).rx.ackFrom with
  | some t => if s.fd F.SLD_ACK_CFG_ACK_DELAY * 4 ≤ s.locSince t && !s.inSafe then s.ackConsumed r else s
  | none => s

/-! ## Consumption and the next packet -/

/-- Held packets that have become ready are marked so, in the order of their numbers (R345). -/
def State.readyMark (s : State) (r : Nat) : State :=
  let h := s.half r
  let now := sortBy (fun x : Held => (x.pkt.seq - h.rx.e).toNat)
    (h.rx.held.filter fun x => !x.ready && x.place == .onDie && h.rx.turn h.rlx x.pkt)
  now.foldl (fun s x =>
    let y := (s.half r).rx
    let s1 := s.setRx r { y with held := y.held.map fun z =>
      if z.pkt.seq == x.pkt.seq then { z with ready := true, readyOrder := s.net.readyCount } else z }
    { s1 with net := { s1.net with readyCount := s1.net.readyCount + 1 } }) s

/-- A number is consumed; E advances, and the acknowledgement that is due at once is sent (R219, R229). -/
def State.consume (s : State) (r : Nat) (p : Packet) (rx : Word) (hold now : Bool) : State :=
  let x := (s.half r).rx
  let x1 := { x with consumed := p.seq :: x.consumed, released := x.released.filter (·.1 != p.seq) }
  let x2 := Stream.advance x1.consumed.length x1
  let newer := match x.last with
    | some (_, _, old, _) => decide (old ≤ rx.toNat)
    | none => true
  let x3 := { x2 with
    ackCount := x.ackCount + 1
    ackFrom := match x.ackFrom with
      | some t => some t
      | none => some s.loc
    last := if newer then some (p.seq, p.stamp, rx.toNat, hold) else x.last }
  let s1 := (s.setRx r x3).readyMark r
  if now || s.fd F.SLD_ACK_CFG_ACK_COUNT ≤ x3.ackCount then s1.ackConsumed r else s1

/-- Is the acknowledgement of the packet's consumption sent at once: a seal, or a put with IMM (R229)? -/
def ackAtOnce (rlx : Bool) (p : Packet) : Bool := (rlx && p.sealed) || p.imm

/-! ## Delivery (R341, R343, R345) -/

/-- The PKT item of a released packet (Table 5-4). -/
def pktItem (h : Half) (p : Packet) (ref : Nat) (rx : Word) : Item :=
  { ty := 0x10, len := 2, prio := h.prio, src := 1, srcCluster := 0, commitNs := 0
    body := leBytes 4 ref ++ leBytes 4 p.payload.length ++ leBytes 3 p.srcEp ++ leBytes 1 p.chan ++ leBytes 4 p.seq.toNat ++
      leBytes 2 p.iso ++ leBytes 1 p.op ++
      leBytes 1 (b2n p.imm + b2n p.sealed * 2 + b2n p.rlx * 4 + b2n p.holdover * 8 + b2n p.void * 16) ++
      leBytes 4 (if p.msg then 0 else p.key) ++ leBytes 8 p.va ++ leBytes 4 (if p.imm then p.aux else 0) ++ leBytes 2 h.notifyCn ++
      zeroBytes 2 ++ leBytes 6 p.stamp ++ zeroBytes 2 ++ leBytes 8 rx.toNat ++
      p.header ++ p.extension ++ zeroBytes (if p.ext then 16 else 32) }

/-- Does Solder consume the packet itself: void, without SEAL and IMM (Table 14-1)? -/
def selfConsumed (p : Packet) : Bool := p.void && !p.sealed && !p.imm

/-- Is the packet a contribution on a collective's channel 0 (R338)? -/
def Half.isRed (h : Half) (p : Packet) : Bool := p.red && h.coll.isSome && h.chan == 0

/-- A free packet reference of a cluster: the lowest (DESIGN CHOICE, log entry 7). -/
def State.freeRef (s : State) (c : Nat) : Option Nat := firstBelow 4096 fun i => (s.pktRef c i).isNone

/-- The release point of a strict stream after a release. -/
def Stream.pass (x : Stream) (rlx : Bool) (n : BitVec 32) : Stream :=
  if !rlx && n == x.nr then { x with nr := x.nr + 1 } else x

/-- A releasable packet goes to its cluster, if there is delivery room (R345): a reference, and room in its FIFO. A
contribution needs no FIFO (DEDUCED, log entry 31). -/
def State.deliver (s : State) (r : Nat) (p : Packet) (rx : Word) (hold : Bool) : Option State :=
  let h := s.half r
  let x := h.rx.pass h.rlx p.seq
  let c := r / 16384
  if selfConsumed p then some ((s.setRx r x).consume r p rx hold (ackAtOnce h.rlx p))
  else match s.freeRef c with
    | none => none
    | some ref =>
      let s1 := (s.setRx r { x with released := x.released ++ [(p.seq, ref)] }).setPktRef c ref (some
        { pkt := p, conn := r, rxFt := rx, rxHold := hold, accepted := false, issued := false, xlt := none, doom := none
          busy := false })
      (if h.isRed p then some s1 else s1.wfStart (4 * c + h.fifo) false (pktItem h p ref rx)).map (·.readyMark r)

/-! ## Arrival (R340) -/

/-- An acknowledgement becomes an ACK item of its half's cluster, and waits for the library (R230). -/
def State.ackItem (s : State) (r : Nat) (b : List Byte) : State :=
  let n (i k : Nat) : Nat := beNat (byteSlice b i k)
  let a : AckItem :=
    { kind := n 0 1, code := n 1 1, detail := n 2 1, flags := n 3 1 % 8, cum := BitVec.ofNat 32 (n 4 4)
      seq := BitVec.ofNat 32 (n 8 4), sack := n 12 8, txStamp := n 20 6, rxStamp := n 26 6, proof := n 32 8 }
  let h := s.half r
  let word := leBytes 4 r ++ leBytes 1 a.kind ++ leBytes 1 a.code ++ leBytes 1 a.detail ++ leBytes 1 a.flags ++
    leBytes 4 a.cum.toNat ++ leBytes 4 a.seq.toNat ++ leBytes 8 a.sack ++ leBytes 6 a.txStamp ++ zeroBytes 2 ++
    leBytes 6 a.rxStamp ++ zeroBytes 2 ++ leBytes 8 a.proof ++ zeroBytes 8
  (s.setHalf r { h with acks := h.acks ++ [a] }).wfOffer (4 * (r / 16384) + h.fifo) false
    { ty := 0x11, len := 1, prio := h.prio, src := 1, srcCluster := 0, commitNs := 0, body := word }

/-- The local endpoint that a packet is for: that of the collective for a multicast copy (R117). -/
def State.localEpOf (s : State) (p : Packet) : Option Nat :=
  if p.op == opMcast then (s.coll (p.dstEp % 2 ^ 16)).map (·.memberEp)
  else (s.endpoint p.dstEp).map fun _ => p.dstEp

/-- The stream of a packet: its half, in a state other than UNUSED and QUIET, for an endpoint of the function that the
packet names (R197, R315). -/
def State.streamOf (s : State) (p : Packet) : Option Nat :=
  match s.localEpOf p with
  | none => none
  | some ep => match s.endpoint ep with
    | none => none
    | some e =>
      if p.op != opMcast && p.op != opAck && p.dstFunc != e.func then none
      else match s.findHalf ep p.srcEp p.chan with
        | some r => if (s.half r).state == .quiet then none else some r
        | none => none

/-- A histogram sample about a packet. -/
def State.pktSample (s : State) (src v : Nat) (p : Packet) : Sample :=
  { src := src, inst := 0, v := v, tc := p.tc, hc := p.hc, ack := p.op == opAck, pkt := true, group := s.groupOf p.srcDn, chan := p.chan }

/-- OWL: the age of a packet that has passed the age and duplicate steps, unless the time of its sender or of this device is not
to be relied on, or its stamp lies ahead (R468). -/
def State.owl (s : State) (p : Packet) : State :=
  let age := (s.ft.toNat % 2 ^ 48 + 2 ^ 48 - p.stamp) % 2 ^ 48
  if p.holdover || s.holdover || !s.ftValid || 2 ^ 47 ≤ age then
    s.bump R.HIST_OWL_EXCLUDED_COUNT
  else s.histSample (s.pktSample 3 (age / 4) p)

/-- A number that is held, handled or consumed arrives again (R221, R228). -/
def State.duplicate (s : State) (r : Nat) (p : Packet) : State :=
  let a : AckBody := { dup := true, seq := p.seq, tx := p.stamp, rx := s.ft, hold := p.holdover || s.holdover }
  let s1 := s.bump R.SLD_DUP_COUNT
  match (s.half r).rx.proof with
  | some (n, ft) =>
    if p.op == opFlush && (p.seq == n || seqBelow p.seq n) then
      s1.sendAck r { a with kind := 2, seq := n, proof := ft.toNat }
    else s1.sendAck r a
  | none => s1.sendAck r a

/-- Does a releasable packet want only for room in its Work FIFO (R148)? -/
def State.wantsFifo (s : State) (r : Nat) (p : Packet) : Bool :=
  let h := s.half r
  !selfConsumed p && !h.isRed p && (s.freeRef (r / 16384)).isSome && !s.wfRoom (4 * (r / 16384) + h.fifo) false 2

/-- A packet that cannot be released is held, or refused (Table 14-2). `full` says that its Work FIFO had no room for it, which is
counted (R148). -/
def State.holdPkt (s : State) (r : Nat) (p : Packet) (full : Bool) : State :=
  let s := if full then s.wfFull (4 * (r / 16384) + (s.half r).fifo) else s
  let h := s.half r
  let ready := h.rx.turn h.rlx p
  let hold := p.holdover || s.holdover
  match s.placeFor h p ready with
  | .refuse cnt => (s.bump cnt).refuse r p s.ft hold 0x40 0
  | .at_ place reserve =>
    let it : Held := { pkt := p, rxFt := s.ft, rxHold := s.holdover, at_ := s.loc, ready := false, place := place
                       reserve := reserve, returned := false, readyOrder := 0, full := full
                       cellsAt := if place == .spill then s.spillAt p else [] }
    let s1 := (s.spillWrite p it.cellsAt).setRx r { h.rx with held := h.rx.held ++ [it] }
    let s2 := if ready then s1 else s1.bump R.SLD_OOO_COUNT
    let s3 := if place == .spill then s2.bump R.SLD_SPILL_COUNT else s2
    ((s3.maxTo R.SLD_SKEW_MAX [] (p.seq - h.rx.e).toNat).histSample (s.pktSample 5 (p.seq - h.rx.e).toNat p)).readyMark r

/-! ## Release (R341, R342, R345) -/

/-- A held packet is dropped and its number is unmarked. -/
def State.dropHeld (s : State) (r : Nat) (n : BitVec 32) : State :=
  let x := (s.half r).rx
  s.setRx r { x with held := x.held.filter (·.pkt.seq != n) }

/-- A held packet is discarded, under a counter (R342, R350). -/
def State.discardHeld (s : State) (r : Nat) (x : Held) (cnt : RegDesc) : State :=
  ((s.noteHeld x).dropHeld r x.pkt.seq).bump cnt

/-- Why a held packet is too old: one that has been released before is not checked again (R342). -/
def State.heldStale (s : State) (x : Held) : Option RegDesc := if x.returned then none else s.staleReg x.pkt

/-- A held packet changed. -/
def State.setHeld (s : State) (r : Nat) (n : BitVec 32) (f : Held → Held) : State :=
  let x := (s.half r).rx
  s.setRx r { x with held := x.held.map fun y => if y.pkt.seq == n then f y else y }

/-- The held packet of a stream that would be released next: ready, on-die, releasable, of the lowest number. -/
def State.nextHeld (s : State) (h : Half) : Option Held :=
  (sortBy (fun x : Held => (x.pkt.seq - h.rx.e).toNat)
    (h.rx.held.filter fun x => x.place == .onDie && h.rx.releasable h.rlx s.strictDepth x.pkt)).head?

/-- Can the next held packet of a stream go: is there delivery room for it, or is it too old? -/
def State.deliverable (s : State) (r : Nat) (x : Held) : Bool :=
  (s.heldStale x).isSome || (s.deliver r x.pkt x.rxFt x.rxHold).isSome

/-- The next held packet of a stream is released, or discarded if it is too old (R342); one that its Work FIFO has no room for stays,
and is counted once (R148). -/
def State.releaseHeld (s : State) (r : Nat) (x : Held) : State :=
  match s.heldStale x with
  | some cnt => s.discardHeld r x cnt
  | none => match (s.dropHeld r x.pkt.seq).deliver r x.pkt x.rxFt (x.pkt.holdover || x.rxHold) with
    | some s1 => (s1.noteHeld x).histSample (s.pktSample 4 (s.locSince x.at_ / 4) x.pkt)
    | none =>
      if s.wantsFifo r x.pkt && !x.full then
        (s.setHeld r x.pkt.seq fun y => { y with full := true }).wfFull (4 * (r / 16384) + (s.half r).fifo)
      else s

/-- The stream whose next held packet became ready first, of those that can go (R345). -/
def State.nextReady (s : State) : Option Nat :=
  ((sortBy (fun e : Nat × Held => e.2.readyOrder) (s.net.halves.filterMap fun e => match s.nextHeld (s.half e.1) with
    | some y => if s.deliverable e.1 y then some (e.1, y) else none
    | none => none)).head?).map (·.1)

/-- Ready packets that can go, go, in the order in which they became ready (R345). The number bounds them. -/
def State.drainReady : Nat → State → State
  | 0, s => s
  | n + 1, s => match s.nextReady with
    | none => s
    | some r => match s.nextHeld (s.half r) with
      | none => s
      | some x => State.drainReady n (s.releaseHeld r x)

/-- A packet that its stream can take is released, after what became ready before it, or held (R340, R345). -/
def State.releaseOrHold (s : State) (r : Nat) (p : Packet) (hold : Bool) : State :=
  let ready (s : State) : Bool := (s.half r).rx.releasable (s.half r).rlx s.strictDepth p
  let s := if ready s then State.drainReady s.allHeld.length s else s
  if ready s then
    match s.deliver r p s.ft hold with
    | some s1 => s1
    | none => s.holdPkt r p (s.wantsFifo r p)
  else s.holdPkt r p false

/-- A packet reaches Solder (R340). One whose RLX attribute is not that of its half is not delivered (R199; discarded, DEDUCED, log entry
147). `port` is the port it came by, 128 for the device's own crossbar. -/
def State.judge (s : State) (port : Nat) (p : Packet) : State :=
  if port < 128 && p.ecrc != p.ecrcOf then s.bump R.LNK_ECRC_ERR_COUNT [port] else
  match s.ageOf p with
  | none => s.bump R.SLD_FUTURE_COUNT
  | some age =>
    if s.lifetime < age then s.bump R.SLD_EXPIRE_COUNT
    else if s.adapterHalted && (s.localEpOf p).isSome then s.bump R.SLD_HALT_DISCARD_COUNT
    else if p.op == opAck then
      match s.streamOf p with
      | some r => (s.owl p).ackItem r p.payload
      | none => s.owl p
    else match s.streamOf p with
      | none => (s.refuseBare p s.ft 0x0B 1).bump R.SLD_NOCTX_COUNT
      | some r =>
        let h := s.half r
        if p.rlx != h.rlx then s else
        let x := { h.rx with peer := p.srcDn }
        let s1 := s.setRx r x
        let hold := p.holdover || s.holdover
        let d := (p.seq - x.e).toNat
        if x.fail then s1.refuse r p s.ft hold 0x0B 2
        else if 2 ^ 31 ≤ d || x.marked p.seq then s1.duplicate r p
        else if s.fd F.SLD_WINDOW_W ≤ d then (s1.bump R.SLD_REFUSE_WINDOW_COUNT).refuse r p s.ft hold 0x40 0
        else if d != 0 && !x.ctx && decide (65536 ≤ s.ctxUsed) then (s1.bump R.SLD_REFUSE_CTX_COUNT).refuse r p s.ft hold 0x40 0
        else (s1.owl p).releaseOrHold r p hold

/-- SOLDER_ARRIVAL: the first packet that has come to Solder by a port is judged (R338, R340). -/
def solderArrival (port : Nat) (s : State) : State :=
  match s.route.arrivals.findIdx? (·.1 == port) with
  | none => s
  | some i => match s.route.arrivals[i]? with
    | none => s
    | some (_, x) =>
      ({ s with route := { s.route with arrivals := s.route.arrivals.eraseIdx i } }.freeAll x.cred).judge port x.pkt

/-! ## Held packets: release, expiry, read-back (R341, R342, R345, R347) -/

/-- RELEASE: the next packet of a stream is handed over, or discarded if it is too old (R342). Streams take turns in the order in which
their packets became ready (R345). -/
def release (r : Nat) (s : State) : State :=
  match s.nextHeld (s.half r) with
  | none => s
  | some x =>
    let earlier := s.net.halves.any fun e => e.1 != r && match s.nextHeld (s.half e.1) with
      | some y => decide (y.readyOrder < x.readyOrder) && s.deliverable e.1 y
      | none => false
    if earlier || s.inSafe then s else s.releaseHeld r x

/-- SWEEP: packets held on-die that are too old are discarded (R342). -/
def sweep (s : State) : State :=
  if s.inSafe then s else
  s.net.halves.foldl (fun s e =>
    (s.half e.1).rx.held.foldl (fun s x =>
      match (if x.place == .onDie then s.heldStale x else none) with
      | some cnt => s.discardHeld e.1 x cnt
      | none => s) s) s

/-- READBACK: a spilled packet near its stream's release point begins to return on-die (R347). -/
def readback (r n : Nat) (s : State) : State :=
  let h := s.half r
  let q := BitVec.ofNat 32 n
  match h.rx.held.find? (fun x => x.pkt.seq == q && x.place == .spill) with
  | none => s
  | some x =>
    let d := (q - (if h.rlx then h.rx.e else h.rx.nr)).toNat
    if s.fd F.SLD_CFG_PREFETCH ≤ d || s.inSafe then s
    else match s.onDieRoom x.pkt.cells true with
      | some res => s.setHeld r q fun y => { y with place := .readBack, reserve := res }
      | none => s

/-- READBACK_DONE: the packet is on-die again, unless it has expired (R347). -/
def readbackDone (r n : Nat) (s : State) : State :=
  let q := BitVec.ofNat 32 n
  match (s.half r).rx.held.find? (fun x => x.pkt.seq == q && x.place == .readBack) with
  | none => s
  | some x =>
    if s.inSafe then s else
    let s1 := s.bump R.SLD_READBACK_COUNT
    match s.heldStale x with
    | some cnt => s1.discardHeld r x cnt
    | none => (s1.setHeld r q fun y => { y with place := .onDie, cellsAt := [] }).readyMark r

/-! ## Outcomes (R343, R344) -/

/-- Kinds of outcome: consumed, refused for good, refused for now, returned unconsumed. -/
inductive Outc | consumed | final | transient | returned
deriving DecidableEq, Repr

/-- Codes of Table 9-4. -/
def isFinalCode (c : Nat) : Bool := (decide (4 ≤ c) && decide (c ≤ 9)) || c == 0x0B
def isTransientCode (c : Nat) : Bool := c == 0x0C || c == 0x40 || c == 0x41

/-- What an OUTCOME and DETAIL say (R343); an undefined one is counted and taken as CONN_ERROR. -/
def outcomeOf (o d : Nat) : Outc × Nat × Nat × Bool :=
  if o == 0 then (.consumed, 0, 0, false)
  else if o == 0xFF then (.returned, 0, 0, false)
  else if isTransientCode o then (.transient, o, 0, false)
  else if o == 0x0B then
    if (decide (1 ≤ d) && decide (d ≤ 7)) || d == 0x10 || d == 0x11 then (.final, o, d, false)
    else (.final, 0x0B, 2, true)
  else if isFinalCode o then (.final, o, 0, false)
  else (.final, 0x0B, 2, true)

/-- The outcome of an operation's status for its packet (R343). -/
def outcomeOfStatus (st detail : Nat) : Nat × Nat :=
  if st == 0 then (0, 0)
  else if st == 3 then (0x0B, 3)
  else if st == 2 || st == 1 then (0xFF, 0)
  else if st == 0x0B then (0x0B, detail)
  else if isFinalCode st || isTransientCode st then (st, 0)
  else (0x0B, 2)

/-- Later released packets of a strict stream that have issued nothing end as a lower one did (R344). -/
def State.doomLater (s : State) (r : Nat) (n : BitVec 32) (code detail : Nat) : State :=
  let h := s.half r
  if h.rlx then s else
  (h.rx.released.filter fun e => seqBelow n e.1).foldl (fun s e =>
    match s.pktRef (r / 16384) e.2 with
    | some p => if p.issued || p.doom.isSome then s else s.setPktRef (r / 16384) e.2 (some { p with doom := some (code, detail) })
    | none => s) s

/-- The half of a target enters ERROR by its own refusal (R213). -/
def State.targetError (s : State) (r : Nat) (p : Packet) (code detail : Nat) : State := s.halfError r code p.seq detail

/-- The reference of a released packet is released with an outcome (R343). `now` says that its acknowledgement is sent at
once. -/
def State.answer (s : State) (c ref : Nat) (kind : Outc) (code detail : Nat) (now : Bool) : State :=
  match s.pktRef c ref with
  | none => s
  | some x =>
    let r := x.conn
    let p := x.pkt
    let s1 := s.setPktRef c ref none
    let h := s1.half r
    if !h.rx.released.contains (p.seq, ref) then s1 else
    let gone := s1.setRx r { h.rx with released := h.rx.released.filter (·.1 != p.seq) }
    let hold := p.holdover || x.rxHold
    match kind with
    | .consumed => gone.consume r p x.rxFt hold now
    | .final =>
      let s2 := gone.consume r p x.rxFt hold false
      let s3 := s2.setRx r { (s2.half r).rx with fail := true }
      ((s3.refuse r p x.rxFt hold code detail).doomLater r p.seq 0x0B 2).targetError r p code detail
    | .transient =>
      let y := (gone.half r).rx
      let nr := if !h.rlx && seqBelow p.seq y.nr then p.seq else y.nr
      (((gone.setRx r { y with nr := nr }).refuse r p x.rxFt hold code detail).doomLater r p.seq code detail).readyMark r
    | .returned =>
      let y := (gone.half r).rx
      let back : Held := { pkt := p, rxFt := x.rxFt, rxHold := x.rxHold, at_ := s.loc, ready := false, place := .onDie
                           reserve := true, returned := true, readyOrder := 0 }
      if s.adapterHalted then gone.bump R.SLD_HALT_DISCARD_COUNT
      else (gone.setRx r { y with held := y.held ++ [back] }).readyMark r

/-- A reference released with the outcome words of R343. -/
def State.answerWord (s : State) (c ref outcome detail : Nat) : State :=
  let (k, code, det, bad) := outcomeOf outcome detail
  let s1 := if bad then s.bump R.SLD_BAD_OUTCOME_COUNT else s
  let now := match s.pktRef c ref with
    | some x => ackAtOnce (s.half x.conn).rlx x.pkt
    | none => false
  s1.answer c ref k code det now

/-! ## Status registers (Table 14-4) -/

def State.sldStatus (s : State) : Word := w64 (s.fd F.SLD_STATUS_CFG_REFUSED * 2 ^ 31 + s.sealsUsed)
def State.sldCtxUsed (s : State) : Word := w64 s.ctxUsed
def State.sldOnDie (s : State) : Word := w64 s.onDieUsed
def State.sldSpill (s : State) : Word := w64 s.spillUsed

/-! ## The commands -/

/-- SOLDER_ARRIVAL (R340). -/
def execSolderArrival (p : Nat) (s : State) : Host.Outcome State Fault Refusal := .next (s.live (solderArrival p))
/-- RELEASE (R341). -/
def execRelease (conn : Nat) (s : State) : Host.Outcome State Fault Refusal := .next (release conn s)
/-- SWEEP (R342). -/
def execSweep (s : State) : Host.Outcome State Fault Refusal := .next (sweep s)
/-- READBACK (R347). -/
def execReadback (conn seq : Nat) (s : State) : Host.Outcome State Fault Refusal := .next (readback conn seq s)
/-- READBACK_DONE (R347). -/
def execReadbackDone (conn seq : Nat) (s : State) : Host.Outcome State Fault Refusal := .next (readbackDone conn seq s)
/-- ACK_DELAY (R229). -/
def execAckDelay (conn : Nat) (s : State) : Host.Outcome State Fault Refusal := .next (ackDelay conn s)

end Sys2Proof.Machine
end

