-- ==== Sys2Proof/Machine/Forming.lean ====
section
/-! DEFINITION. Machine/Forming.lean: fabric operations start, and a tile forms their packets (R109 to R117, R216, R233,
R294, R315, R328, R330, R535). -/
namespace Sys2Proof.Machine

/-! ## Kinds of the model's own: responses and retransmissions take an operation slot while they are formed -/

def kGetResp : Nat := 0x12
def kAmoResp : Nat := 0x13
def kRetx : Nat := 0x14

/-- Does the kind form packets? -/
def formsKind (kind : Nat) : Bool :=
  (decide (1 ≤ kind) && decide (kind ≤ 5)) || kind == 7 || kind == kGetResp || kind == kAmoResp || kind == kRetx

/-- Is it a put, send or multicast, whose packets are formed until the last departs (R110)? -/
def putLike (kind : Nat) : Bool := kind == 1 || kind == 4 || kind == 7

/-- Packets of a message of len bytes (R110). -/
def packetsOf (len p : Nat) : Nat := max 1 ((len + p - 1) / p)

/-- The packet size of an operation (Tables 4-5, 4-8, 4-9); a response has packets of 4,096 bytes. -/
def Op.pmtu (o : Op) : Nat :=
  if o.kind == 1 || o.kind == 4 then Machine.pmtu (nbits (bSrc o.block) 3 2)
  else if o.kind == 7 then Machine.pmtu (nbits (bSrc o.block) 4 3)
  else 4096

/-- SRC_KIND of a put, send or multicast; 3 is the model's, for the descriptor of a rendezvous request, kept behind the block. -/
def Op.srcKind (o : Op) : Nat := if o.kind == 7 then nbits (bSrc o.block) 2 1 else bSrc o.block % 4

/-- Payload bytes of packet i. -/
def Op.lenOf (o : Op) (i : Nat) : Nat :=
  if putLike o.kind || o.kind == kGetResp then min o.pmtu (bLen o.block - i * o.pmtu)
  else if o.kind == 3 then 16 else if o.kind == kAmoResp then 8 else 0

/-- A value as the 8-byte field of an AMO packet: with W, 4 bytes in the half of lower address (R216). -/
def amoField (w : Bool) (v : Nat) : List Byte := if w then beBytes 4 v ++ zeroBytes 4 else beBytes 8 v

/-- Where packet i of an operation has its payload from (R110, R226). -/
def Op.srcOf (o : Op) (i : Nat) : SrcRef :=
  let b := o.block
  let off := i * o.pmtu
  if putLike o.kind then
    if o.srcKind == 1 then .kept (byteSlice (bInline b) 0 (o.lenOf i))
    else if o.srcKind == 3 then .kept (byteSlice b 64 (o.lenOf i))
    else if o.srcKind == 2 then .target (bKeyA b) (bVaA b + off) (o.lenOf i)
    else .far (bKeyA b % 2 ^ 20) (bVaA b + off) (o.lenOf i)
  else if o.kind == kGetResp then .target (bKeyA b) (bVaA b + off) (o.lenOf i)
  else if o.kind == 3 then
    let w := nbit (leAt b 16 1) 4
    .kept (amoField w (bVaA b) ++ amoField w (leAt b 48 8))
  else if o.kind == kAmoResp then .kept (bInline b)
  else .kept []

/-! ## Packets (Tables 8-11 to 8-13, R294) -/

/-- The packet opcode of a kind (Table 15-7). -/
def opcodeOf (kind : Nat) : Nat :=
  match kind with
  | 1 => opPut
  | 2 => opGetReq
  | 3 => opAmoReq
  | 4 => opSend
  | 5 => opFlush
  | 7 => opMcast
  | 0x12 => opGetResp
  | _ => opAmoResp

/-- Packet i of an operation, but for its source and what stamping adds. -/
def Op.packet (o : Op) (i : Nat) (rlx void : Bool) (payload : List Byte) : Packet :=
  let b := o.block
  let k := o.kind
  let last := i + 1 == o.n
  let red := (k == 1 || k == 7) && fRed o.flags
  let first := k == 4 && i == 0
  let imm := k == 1 && fImm o.flags && last
  let (key, va, aux) : Nat × Nat × Nat :=
    if first then (leAt b 28 2 * 2 ^ 16, bVaB b, bImm b)
    else match k with
      | 1 => (if red then bKeyB b % 2 ^ 12 else bKeyB b, bVaB b + i * o.pmtu,
              if red then bImm b % 2 ^ 16 else if imm then bImm b else 0)
      | 2 => (bKeyB b, bVaB b, bLen b)
      | 3 => (bKeyB b, bVaB b, leAt b 16 1 % 32)
      | 4 => (0, i * o.pmtu, 0)
      | 7 => if red then (leAt b 30 2 % 2 ^ 12, bVaB b % 2 ^ 32 * 2 ^ 32 + i * o.pmtu, bImm b % 2 ^ 16)
             else (0, bVaB b + i * o.pmtu, 0)
      | 0x12 => (0, i * o.pmtu, bImm b)
      | 0x13 => (0, 0, bImm b)
      | _ => (0, 0, 0)
  { Packet.zero with
    op := opcodeOf k, ext := k != 5, rlx := rlx, sealed := k == 1 && fSeal o.flags && last, imm := imm, red := red
    void := void, msg := first, tc := bTc b, chan := bChan b, iso := bIso b, dstDn := o.dstDn, dstFunc := o.dstFunc
    dstEp := if k == 7 then leAt b 8 2 else bDest b, seq := bSeq b + BitVec.ofNat 32 i
    key := key, va := va % 2 ^ 64, aux := aux, payload := payload }

/-- RLX and the source endpoint of an operation's packets: those of its half (R199); an operation of no half carries its own RLX flag
(R110) and has a free source endpoint (DESIGN CHOICE, log entry 32). -/
def State.rlxAndSrc (s : State) (o : Op) : Bool × Nat × State :=
  let flag := fRlx o.flags
  match o.conn with
  | some r =>
    let h := s.half r
    (h.rlx, h.localEp, s)
  | none => match (if o.kind == 7 then s.coll (leAt o.block 8 2) else none) with
    | some c => (flag, c.memberEp, s)
    | none =>
      let (n, s1) := s.freeBelow (2 ^ 24 - 1)
      (flag, n, s1)

/-- The members that a multicast names, as line positions (R330). -/
def Op.mask (o : Op) : List Nat := (List.range 16).filter fun i => nbit (leAt o.block 28 2) i
/-- LINE of a multicast: is it a column? -/
def Op.column (o : Op) : Bool := nbit (bSrc o.block) 0

/-- A packet formed now leaves the cluster for its tile; a multicast gives one copy for each member (R330), also for one whose entry has
V = 0 since the operation's check: that copy has no set (DEDUCED, log entry 152). -/
def State.inject (s : State) (c k : Nat) (o : Op) (p : Packet) : State :=
  if o.kind == 7 then
    o.mask.foldl (fun s i =>
      let (v, dn, set) := s.lineEntry o.column i
      s.toTile (c / 4) ⟨s.stamped { p with dstDn := dn }, none, 0, some (k, o.order), if v then some set else none, none⟩) s
  else s.toTile (c / 4) ⟨s.stamped p, none, 0, some (k, o.order), none, none⟩

/-! ## Records for retransmission (R232 to R234) -/

/-- The halves on which a library operation's packets travel, with their devices: its own, or for a multicast those of its
collective toward the members named, on the channel of the line (R293). -/
def State.halvesOf (s : State) (o : Op) : List (Nat × Nat) :=
  if o.kind == 7 then match s.coll (leAt o.block 8 2) with
    | none => []
    | some cl => o.mask.filterMap fun i => (s.lineMember o.column i).bind fun m =>
        (cl.halves.find? fun r => (s.half r).chan == bChan o.block &&
          cl.members.any fun e => e.ep == (s.half r).remoteEp && e.dn == m.1).map fun r => (r, m.1)
  else match o.conn with
    | some r => [(r, o.dstDn)]
    | none => []

/-- A sequence number sent is recorded on its half. -/
def State.addTx (s : State) (r : Nat) (p : Packet) (src : SrcRef) : State :=
  let h := s.half r
  s.setHalf r { h with tx := h.tx ++ [⟨p.seq, p, src, s.loc, 0, 0, 0, none, 0⟩] }

/-- A library operation's packet is recorded on every half it goes to. -/
def State.recordTx (s : State) (o : Op) (p : Packet) (src : SrcRef) : State :=
  if !o.isLib then s else (s.halvesOf o).foldl (fun s e => s.addTx e.1 { p with dstDn := e.2 } src) s

/-- Is an earlier library operation of the same half still without its first packet? Sequence numbers are assigned in the order
of acceptance. -/
def State.laterThan (s : State) (k : Nat) (o : Op) : Bool :=
  s.ops.any fun e => e.1 != k && e.2.conn == o.conn && e.2.isLib && e.2.n != 0 && e.2.formed == 0 &&
    (e.2.isOpen || e.2.voiding.isSome) && decide (e.2.order < o.order)

/-- The library assigns an operation its sequence numbers, which no earlier operation of the half still lacks (R109). -/
def State.assignSeq (s : State) (k : Nat) : State :=
  let o := s.op k
  match o.conn with
  | none => s
  | some r =>
    let first := (s.half r).txSeq
    let s1 := s.setOp k { o with block := o.block.take 12 ++ leBytes 4 first.toNat ++ o.block.drop 16 }
    ((r, 0) :: s1.halvesOf o).foldl (fun s e => s.setHalf e.1 { s.half e.1 with txSeq := first + BitVec.ofNat 32 o.n }) s1

/-! ## Start (R315) -/

/-- A get, atomic or flush on a half in ERROR completes at once with the status that the half has latched (R213, R228). -/
def State.endOnError (s : State) (k : Nat) : State :=
  let o := s.op k
  match (if o.kind == 2 || o.kind == 3 || o.kind == 5 then o.conn else none) with
  | none => s
  | some r =>
    let h := s.half r
    if h.state == .error && o.isOpen then s.completeWith k h.lastErr (w64 h.latched.detail) o.bytes else s

/-- A fabric operation is accepted: its destination is resolved, and its limiter found (R315, R394). Behind a fence it is held, and
then only starts when it is held no longer (R116). -/
def startFabric (k : Nat) (s : State) : State :=
  let o := s.op k
  let c := k / 4096
  let n := if putLike o.kind then packetsOf (bLen o.block) o.pmtu else 1
  let held := s.fenced k
  if o.n != 0 then (let s1 := s.setOp k { o with held := held }; if held then s1 else s1.endOnError k)
  else if o.kind == 7 then s.setOp k { o with n := n, held := held }
  else match s.resolve (bDest o.block) with
    | (none, s1) => s1.complete k 0x0E
    | (some (dn, f), s1) =>
      let conn := match o.conn with
        | some r => some r
        | none => s1.threadHalf c (bDest o.block) (bChan o.block)
      let (lim, s2) := match conn with
        | some r => if dn == s1.ownDn then (none, s1) else s1.limOf (c / 4) r
        | none => (none, s1)
      let s3 := s2.setOp k { o with n := n, held := held, dstDn := dn, dstFunc := f, conn := conn, lim := lim }
      if held then s3 else s3.endOnError k

/-- Is the destination of an operation reachable in the active bank (R328, R330)? -/
def State.reachable (s : State) (o : Op) : Bool :=
  if o.kind == 7 then o.mask.all fun i => (s.lineMember o.column i).isSome else s.routable o.dstDn (bTc o.block)

/-! ## Ends before the last packet -/

/-- The reference of the request that a response answers. -/
def State.requestRef (s : State) (o : Op) : Option Nat :=
  match o.origin with
  | .response r seq => ((s.half r).rx.released.find? (·.1 == seq)).map (·.2)
  | _ => none

/-- A request is answered with an outcome, and its response goes no further; sequence numbers already assigned and not formed
are sent void. -/
def State.dropResponse (s : State) (k : Nat) (kind : Outc) (code detail : Nat) : State :=
  let o := s.op k
  let s0 := if 0 < o.formed then s.voidRest k code else s
  let s1 := s0.setOp k { o with status := some code, delivered := true, keyed := none }
  match o.conn, s1.requestRef o with
  | some r, some ref => s1.answer (r / 16384) ref kind code detail false
  | _, _ => s1

/-- An operation that cannot form its first packet completes with a status, BYTES 0; its sequence numbers stay unused
(R328, R535). -/
def State.unreached (s : State) (k : Nat) : State :=
  let o := s.op k
  if o.kind == kGetResp || o.kind == kAmoResp then s.dropResponse k .final 0x0B 7
  else (s.setOp k { o with n := 0 }).complete k 0x0D

/-- The numbers of a library operation that are not formed count as sent (R535). -/
def State.countSent (s : State) (k : Nat) : State :=
  let o := s.op k
  let (rlx, src, s1) := s.rlxAndSrc o
  ((List.range o.n).drop o.formed).foldl (fun s i =>
    s.recordTx o { o.packet i rlx false [] with srcEp := src } (o.srcOf i)) s1

/-- A packet that the device may not form now (R535). -/
def State.notFormed (s : State) (k : Nat) : State :=
  let o := s.op k
  let s1 := s.bump R.ROUTE_NOTREADY_COUNT
  if o.kind == kRetx then s1.setOp k { o with status := some 0, delivered := true, n := 0 }
  else if o.formed == 0 && o.isOpen then s.unreached k
  else
    let s2 := (s1.countSent k).setOp k { o with n := o.formed, voiding := none }
    if !o.isOpen then s2.dropVoid k
    else match s2.requestRef o, o.conn with
      | some ref, some r => ((s2.complete k 0x0D)).answer (r / 16384) ref .consumed 0 0 false
      | _, _ => s2.complete k 0x0D

/-- The half of a library operation is no longer ESTABLISHED: it sends nothing new, and the operation ends (R202; log
entry 52). -/
def State.halfGone (s : State) (k : Nat) : State :=
  let o := s.op k
  let s1 := s.setOp k { o with n := o.formed, voiding := none }
  if o.isOpen then s1.complete k 1 else s1.dropVoid k

/-! ## Source faults (R110, R226, R235) -/

/-- A fault under a key that is to be retried, for its ASK holds RETRY_FAULT, is entered as pending (R253). -/
def State.retried (s : State) (m : Moved) (ask va access src : Nat) : Option State :=
  match m with
  | .stop _ cause level off =>
    if (cause == 1 || cause == 6) && nbit (askRights (s.askMem ask)) rightRetry then
      some (s.pendFault ask (va + off) cause access src (if cause == 1 then level else 1))
    else none
  | _ => none

/-- How a target answers a failed access (Tables 8-9, 10-7): the outcome, and what is done beside it: a fault that is to be
retried is entered, and a function that cannot master gives RETRY_LATER and may be woken (R253, R438). -/
def State.targetFail (s : State) (m : Moved) (ask va access src : Nat) : Outc × Nat × Nat × State :=
  match m with
  | .noMaster f =>
    let s1 := s.bump R.HIF_RX_HELD_REFUSE_COUNT
    let x := s1.func f
    if s1.fb F.HIF_WAKE_CFG_WAKE_ON_RX && !x.rxHeld then
      (.transient, 0x0C, 0, (s1.setFunc f { x with rxHeld := true }).requestWake f)
    else (.transient, 0x0C, 0, s1)
  | .stop st _ _ _ => match s.retried m ask va access src with
    | some s1 => (.transient, 0x0C, 0, s1)
    | none =>
      let (code, detail) := outcomeOfStatus st 0
      if code == 0xFF then (.returned, code, detail, s) else (.final, code, detail, s)
  | _ => (.consumed, 0, 0, s)

/-- The record of a sequence number. -/
def Half.txRec (h : Half) (q : BitVec 32) : Option TxRec := h.tx.find? (·.seq == q)
/-- A record changed. -/
def State.setTxRec (s : State) (r : Nat) (q : BitVec 32) (f : TxRec → TxRec) : State :=
  let h := s.half r
  s.setHalf r { h with tx := h.tx.map fun x => if x.seq == q then f x else x }

/-- A retransmission could not read its source: the half enters ERROR (R226); for a response the requester is told by a
refusal of its request (R235). The stamps of the request are no longer known (DESIGN CHOICE, log entry 55). -/
def State.retxFail (s : State) (r : Nat) (x : TxRec) (code detail : Nat) : State :=
  let s1 := s.halfError r code x.seq detail
  if x.pkt.op == opGetResp then
    let (a, s2) := s1.freeBelow (2 ^ 48 - 1)
    let (b, s3) := s2.freeBelow (2 ^ 48 - 1)
    let q := BitVec.ofNat 32 x.pkt.aux
    let h := s3.half r
    (s3.setHalf r { h with tx := h.tx.filter fun y => !(y.pkt.op == opGetResp && y.pkt.aux == x.pkt.aux) }).sendAck r
      { kind := 3, code := code, detail := detail, seq := q, tx := a, rx := w64 b, hold := s3.holdover }
  else s1.setHalf r { s1.half r with tx := (s1.half r).tx.filter (·.seq != x.seq) }

/-- The source of a packet could not be read. -/
def State.srcFail (s : State) (k : Nat) (m : Moved) (key va : Nat) : State :=
  let o := s.op k
  if o.kind == kGetResp then
    let (kind, code, detail, s1) := s.targetFail m (keyAsk key) va 1 (bDest o.block)
    match kind with
    | .returned => s1
    | _ => s1.dropResponse k kind code detail
  else
    let (st, s1) := m.localStatus s
    match st with
    | none => s1
    | some st =>
      if o.kind == kRetx then
        let s2 := s1.setOp k { o with status := some st, delivered := true, n := 0 }
        match o.conn with
        | some r => match (s2.half r).txRec (bSeq o.block) with
          | some x =>
            let (code, detail) := if x.pkt.op == opGetResp then outcomeOfStatus st 0 else (st, 0)
            s2.retxFail r x code detail
          | none => s2
        | none => s2
      else (s1.voidRest k st).completeMoved k m st

/-! ## PACKET_FORM -/

/-- The payload of a packet read from its source (R110, R128). A keyed source is checked once where `check` says so: a read that has
passed its check goes on under it until it is performed (R208). -/
def State.payloadOf (s : State) (c k : Nat) (src : SrcRef) (check : Bool) (st : Nat) (host : List Byte) : Moved × State :=
  match src with
  | .kept d => (.data d, s)
  | .far ask va len => s.readAt c (.far ask va) 0 len (.op k) st host
  | .target key va len =>
    match (if check && (s.op k).keyed != some (keyAsk key) then s.keyCheck c key (bIso (s.op k).block) else (none, [], s)) with
    | (some code, _, s1) => (.stop code 0 0 0, s1)
    | (none, _, s1) =>
      (s1.setOp k { s1.op k with keyed := some (keyAsk key) }).readAt c (.keyed (keyAsk key) va) 0 len (.op k) st host

/-- The key and address of a source, for a fault record. -/
def SrcRef.keyVa : SrcRef → Nat × Nat
  | .target key va _ => (key, va)
  | .far ask va _ => (ask, va)
  | .kept _ => (0, 0)

/-- May the limiter of an operation pass a packet of n cells? (R396) -/
def State.passLim (s : State) (k n : Nat) : Bool × State :=
  match (s.op k).lim with
  | none => (true, s)
  | some key => s.limPass key k n

/-- What a packet formed leaves behind: the operation's counts, the record on its half, and the answer to the request whose
last response it is (R219). -/
def State.afterForm (s : State) (k : Nat) (p : Packet) (src : SrcRef) : State :=
  let o := s.op k
  let done := o.formed + 1 == o.n
  let s1 := (s.recordTx o p src).setOp k { o with
    formed := o.formed + 1, bytes := o.bytes + p.payload.length
    voiding := if done then none else o.voiding
    keyed := if done || o.kind == kGetResp then none else o.keyed }
  if done && !o.isOpen then s1.dropVoid k
  else if done && o.isOpen && (o.kind == kGetResp || o.kind == kAmoResp) then
    match o.conn, s1.requestRef o with
    | some r, some ref => s1.answer (r / 16384) ref .consumed 0 0 false
    | _, _ => s1
  else s1

/-- The length of a source. -/
def SrcRef.size : SrcRef → Nat
  | .far _ _ len => len
  | .kept d => d.length
  | .target _ _ len => len

/-- A retransmission is formed: a new stamp and the active epoch; after a refusal it is a first transmission again (R233). A
copy of a multicast goes by the ports of its member's entry (R293, R330). -/
def State.formRetx (s : State) (c k r : Nat) (x : TxRec) (payload : List Byte) : State :=
  let p := { x.pkt with payload := payload }
  let set := if p.op != opMcast then none else
    ((List.range 16).filterMap (s.lineMember (p.chan == 1))).find? (·.1 == p.dstDn)
  let s1 := s.toTile (c / 4) ⟨s.stamped p, none, 0, none, set.map (·.2), none⟩
  let s2 := s1.setOp k { s1.op k with status := some 0, delivered := true, n := 0, keyed := none }
  s2.setTxRec r x.seq fun y =>
    if y.retryAt.isSome then { y with retryAt := none, firstAt := s.loc, k := 0 } else y

/-- Is the first packet of a launched operation not yet due: 40 ticks after FIRE_FT (R126)? -/
def State.beforeLaunch (s : State) (o : Op) : Bool :=
  putLike o.kind && nbit o.cflags 1 && o.formed == 0 && decide (s.ft.toNat < o.ftAux.toNat + 40)

/-- The next packet of an operation that may form one. -/
def State.formNext (s : State) (c k st : Nat) (host : List Byte) : State :=
  let o := s.op k
  let i := o.formed
  let src := o.srcOf i
  let len := if o.voiding.isSome then 0 else o.lenOf i
  let cells := (40 + (if o.kind == 5 then 0 else 16) + len + 255) / 256
  match s.passLim k cells with
  | (false, s1) => s1
  | (true, _) =>
    match (if o.voiding.isSome then (.data [], s) else s.payloadOf c k src ((i == 0 && o.kind == 1) || o.kind == kGetResp) st host) with
    | (.data bs, s1) =>
      let s2 := (s1.passLim k cells).2
      let s2 := if o.isLib && i == 0 then s2.assignSeq k else s2
      let o := s2.op k
      let (rlx, ep, s3) := s2.rlxAndSrc o
      let p := { o.packet i rlx o.voiding.isSome bs with srcEp := ep }
      (s3.inject c k o p).afterForm k p src
    | (.wait, s1) => s1
    | (m, s1) => s1.srcFail k m src.keyVa.1 src.keyVa.2

/-- PACKET_FORM: the next packet of an operation is formed, or the next void packet of one that has ended (R110); nothing in the
safe state (Table 19-5). `st` and `data` are how the reads of a source in host
memory ended and what they returned. -/
def packetForm (c slot st : Nat) (data : List Byte) (s : State) : State :=
  let k := formKey c slot
  let o := s.op k
  if s.inSafe then s
  else if o.held && o.isOpen && formsKind o.kind && !s.fenced k then startFabric k s
  else if !formsKind o.kind || o.held || decide (o.n ≤ o.formed) || !(o.isOpen || o.voiding.isSome) || s.beforeLaunch o then s
  else if o.kind == kRetx then
    match o.conn.bind fun r => ((s.half r).txRec (bSeq o.block)).map fun x => (r, x) with
    | none => s.setOp k { o with status := some 0, delivered := true, n := 0 }
    | some (r, x) =>
      if !s.formsPackets then s.notFormed k else
      let n := (40 + (if x.pkt.ext then 16 else 0) + x.src.size + 255) / 256
      if !(s.passLim k n).1 then (s.passLim k n).2 else
      match s.payloadOf c k x.src (x.pkt.op == opGetResp) st data with
      | (.data bs, s1) => (s1.passLim k n).2.formRetx c k r x bs
      | (.wait, s1) => s1
      | (m, s1) => s1.srcFail k m x.src.keyVa.1 x.src.keyVa.2
  else
    let established := match o.conn with
      | some r => (s.half r).state == .established
      | none => true
    if o.isLib && !established then s.halfGone k
    else if o.isLib && o.formed == 0 && s.laterThan k o then s
    else if !s.formsPackets then s.notFormed k
    else if o.formed == 0 && o.voiding.isNone && !s.reachable o then s.unreached k
    else s.formNext c k st data

/-! ## The commands -/

/-- PACKET_FORM (R110). -/
def execPacketForm (c slot st : Nat) (data : List Byte) (s : State) : Host.Outcome State Fault Refusal :=
  .next (packetForm c slot st data s)

end Sys2Proof.Machine
end

