-- ==== Sys2Proof/Machine/Amalgam.lean ====
section
/-! DEFINITION. Machine/Amalgam.lean: the Amalgam units: slots, stripes, contributions and their combination (R131, R296 to
R308, R314). -/
namespace Sys2Proof.Machine

/-! ## The descriptor of a slot (Table 4-15) -/

def amSlot (b : List Byte) : Nat := leAt b 8 2
def amOp (b : List Byte) : Nat := leAt b 10 1
def amType (b : List Byte) : Nat := leAt b 11 1
def amMode (b : List Byte) : Nat := leAt b 12 1 % 4
def amIn (b : List Byte) : Nat := nbits (leAt b 12 1) 3 2
def amOut (b : List Byte) : Nat := nbits (leAt b 12 1) 5 4
def amAnchor (b : List Byte) : Int := toSigned 16 (leAt b 14 2)
def amCount (b : List Byte) : Nat := leAt b 16 4
def amContrib (b : List Byte) : Nat := leAt b 20 2
def amLocal (b : List Byte) : Nat := leAt b 22 2
def amAsk (b : List Byte) : Nat := leAt b 24 4
def amLocalVa (b : List Byte) : Nat := leAt b 32 8
def amOutVa (b : List Byte) : Nat := leAt b 40 8

/-- Bytes of a native element. -/
def typeSize : Nat → Nat
  | 0 => 4 | 2 => 4 | 1 => 8 | 3 => 8 | 8 => 8 | 9 => 4 | 10 => 2 | 11 => 2 | _ => 1
/-- Is the TYPE floating? -/
def isFloat (ty : Nat) : Bool := decide (8 ≤ ty)

/-- Bytes of an element in a form (R301). -/
def formSize (form ty : Nat) : Nat := if form == 1 then 12 else if form == 2 then 24 else typeSize ty
def amInSize (b : List Byte) : Nat := formSize (amIn b) (amType b)
def amOutSize (b : List Byte) : Nat := formSize (amOut b) (amType b)

/-- The width of an ANCHORED slot (R304). -/
def amWidth (b : List Byte) : Nat :=
  if amIn b == 2 || amOut b == 2 then 192 else if amIn b == 1 || amOut b == 1 then 96
  else if amType b == 8 then 192 else 96

/-- Stripes of a slot, and the elements of stripe k (R297). -/
def amStripes (b : List Byte) : Nat := (amCount b + 255) / 256
def amElems (b : List Byte) (k : Nat) : Nat := min 256 (amCount b - 256 * k)

/-- Accumulator bytes of an element (Table 12-5), and of a stripe, in KiB (R298). -/
def amAcc (b : List Byte) : Nat :=
  if amOp b == 6 then 0
  else if amMode b == 2 then amWidth b / 8
  else if amMode b == 1 then amContrib b * typeSize (amType b)
  else if isFloat (amType b) then (if amType b == 8 then 8 else 4) else typeSize (amType b)
def amStripeKib (b : List Byte) : Nat := max 1 ((256 * amAcc b + 1023) / 1024)

/-! ## Units and space (R296 to R298) -/

/-- A slot. -/
def State.aslot (s : State) (k : Nat) : AmlSlot := s.aml.slots.get AmlSlot.init k
/-- A slot replaced. -/
def State.setAslot (s : State) (k : Nat) (x : AmlSlot) : State :=
  { s with aml := { s.aml with slots := s.aml.slots.set AmlSlot.init k x } }

/-- The operation that holds a slot OPEN; an abort closes it. -/
def State.slotOp (s : State) (k : Nat) : Option Nat := (s.aslot k).op.filter fun o => (s.op o).isOpen
/-- The open slots. -/
def State.openSlots (s : State) : List (Nat × AmlSlot) := s.aml.slots.filter fun e => (s.slotOp e.1).isSome

/-- Units of the part. -/
def State.units (s : State) : Nat := if s.is096 then 12 else 16
/-- W for a slot that opens now. -/
def State.stripeWidth (s : State) : Nat :=
  let w := s.fd F.AML_CTRL_STRIPE
  if w == 0 || decide (s.units < w) then s.units else w

/-- The unit of stripe k (R297). -/
def stripeUnit (slot w u k : Nat) : Nat := (slot / 256 + k % w) % u

/-- KiB that a slot takes of a unit: its stripes there, counted by their place in the pattern of W. -/
def demandOn (b : List Byte) (slot w u v : Nat) : Nat :=
  let n := amStripes b
  amStripeKib b * ((List.range (min w n)).map fun j => if stripeUnit slot w u j == v then (n - j + w - 1) / w else 0).sum

/-- KiB of a unit in use, and its whole reservation. -/
def State.accUsed (s : State) (v : Nat) : Nat :=
  (s.openSlots.map fun e => match e.2.op with
    | some o => demandOn (s.op o).block e.1 e.2.w e.2.u v
    | none => 0).sum
def State.accResv (s : State) (v : Nat) : Nat := 256 * s.fd F.AML_ACC_RESV_RESV [v]

/-- Is the space for a slot there now, or can it never be (R298)? -/
def State.amlSpace (s : State) (b : List Byte) : Bool :=
  (List.range s.units).all fun v => decide (demandOn b (amSlot b) s.stripeWidth s.units v + s.accUsed v ≤ s.accResv v)
def State.amlNever (s : State) (b : List Byte) : Bool :=
  (List.range s.units).any fun v => decide (s.accResv v < demandOn b (amSlot b) s.stripeWidth s.units v)

/-- Can the unit take an AMLSUB now? One that is not performed anyway is taken (R103, R298). -/
def State.amlReady (s : State) (b : List Byte) : Bool :=
  !s.blockOk kAmlsub 0 b || decide (4096 ≤ amSlot b) || (s.slotOp (amSlot b)).isSome || s.amlNever b || s.amlSpace b

/-- AMLSUB: the slot opens (R131, R296, R298, R304). -/
def startAml (k : Nat) (s : State) : State :=
  let o := s.op k
  let b := o.block
  let slot := amSlot b
  if 256 * s.units ≤ slot || (amIn b == 1 && amOut b == 2) || (amIn b == 2 && amOut b == 1) || s.amlNever b then s.complete k 2
  else if (s.slotOp slot).isSome then s.complete k 0x17
  else if !s.amlSpace b then s.setOp k { o with held := true }
  else
    ((s.setOp k { o with held := false }).setAslot slot
      { AmlSlot.init with op := some k, w := s.stripeWidth, u := s.units }).bump R.AML_OPEN_COUNT

/-! ## Combination (Table 12-6) -/

/-- The accumulator format of a floating type. -/
def accFmt (ty : Nat) : Fmt := if ty == 8 then fp64 else fp32

/-- An operand as its accumulator holds it. -/
def amOperand (b : List Byte) (bits : Nat) : Nat :=
  let ty := amType b
  if amMode b == 2 then (if amIn b == 0 then toPartial (amWidth b) (amAnchor b) ((fmtOf ty).decode bits) else bits)
  else if isFloat ty then (accFmt ty).encode ((fmtOf ty).decode bits) else bits

/-- Two accumulator values combined. -/
def amCombine (b : List Byte) (x y : Nat) : Nat :=
  let ty := amType b
  let n := 8 * typeSize ty
  let f := accFmt ty
  if amMode b == 2 then addPartial (amWidth b) x y
  else if isFloat ty then match amOp b with
    | 0 => f.encode ((f.decode x).add (f.decode y))
    | 1 => f.encode ((f.decode x).min (f.decode y))
    | _ => f.encode ((f.decode x).max (f.decode y))
  else
    let less (x y : Nat) : Bool := if ty ≤ 1 then decide (toSigned n x < toSigned n y) else decide (x < y)
    match amOp b with
    | 0 => (x + y) % 2 ^ n
    | 1 => if less y x then y else x
    | 2 => if less x y then y else x
    | 3 => x &&& y
    | 4 => x ||| y
    | _ => x ^^^ y

/-- An accumulator value in its output form (R302, R307). -/
def amFinal (b : List Byte) (x : Nat) : Nat :=
  let ty := amType b
  if amMode b == 2 then (if amOut b == 0 then finalPartial (fmtOf ty) (amWidth b) (amAnchor b) x else x)
  else if isFloat ty then (fmtOf ty).encode ((accFmt ty).decode x) else x

/-- A whole element of a contributor arrives at its stripe. -/
def Stripe.take (x : Stripe) (b : List Byte) (e contrib bits : Nat) : Stripe :=
  if amOp b == 6 then x
  else
    let v := amOperand b bits
    if amMode b == 1 then { x with stored := x.stored ++ [(e, contrib, v)] }
    else match x.acc.get none e with
      | none => { x with acc := x.acc.set none e (some v) }
      | some old => { x with acc := x.acc.set none e (some (amCombine b old v)) }

/-- The greater of two exponents, where there are any. -/
def maxExp : Option Int → Option Int → Option Int
  | none, y => y
  | x, none => x
  | some x, some y => some (max x y)

/-- A whole element's mark on the slot: the exponent for EXPMAX (R308), and whether it is out of range (R305). -/
def AmlSlot.note (a : AmlSlot) (b : List Byte) (bits : Nat) : AmlSlot :=
  if amOp b == 6 then { a with emax := maxExp a.emax ((fmtOf (amType b)).decode bits).exponent }
  else if amMode b == 2 && amIn b == 0 && amOperand b bits == poisonOf (amWidth b) then { a with range := true } else a

/-- Bytes of one element, from an offset in it: an element that arrives in parts is held until it is whole (R297). -/
def AmlSlot.element (a : AmlSlot) (b : List Byte) (contrib e off : Nat) (bs : List Byte) : AmlSlot :=
  let k := e / 256
  let x := a.stripes.get Stripe.init k
  let x := { x with count := x.count + bs.length }
  let size := amInSize b
  if bs.length == size then
    { (a.note b (leNat bs)) with stripes := a.stripes.set Stripe.init k (x.take b e contrib (leNat bs)) }
  else
    let parts := x.parts ++ [(e, contrib, off, bs)]
    let mine := sortBy (fun p => p.2.2.1) (parts.filter fun p => p.1 == e && p.2.1 == contrib)
    let whole := mine.flatMap fun p => p.2.2.2
    if size ≤ whole.length then
      let y := { x with parts := parts.filter fun p => !(p.1 == e && p.2.1 == contrib) }
      { (a.note b (leNat whole)) with stripes := a.stripes.set Stripe.init k (y.take b e contrib (leNat whole)) }
    else { a with stripes := a.stripes.set Stripe.init k { x with parts := parts } }

/-- The input bytes that stripe k takes in all, and those of its local operand that it is still to read, which count from the open on
(R299). -/
def amTotal (b : List Byte) (k : Nat) : Nat := amElems b k * amInSize b * amContrib b
def AmlSlot.due (a : AmlSlot) (b : List Byte) (k : Nat) : Nat :=
  if amLocal b == 0xFFFF || (a.stripes.get Stripe.init k).loc then 0 else amElems b k * amInSize b

/-- Has stripe k all its bytes, so that any more are late (R299)? -/
def AmlSlot.full (a : AmlSlot) (b : List Byte) (k : Nat) : Bool :=
  (a.stripes.get Stripe.init k).done || decide (amTotal b k ≤ (a.stripes.get Stripe.init k).count + a.due b k)

/-- The bytes of a contributor from an offset in the input vector; bytes of a stripe that is complete are late, and bytes beyond
the vector are discarded (DESIGN CHOICE, log entry 57). The local operand, which counts from the open on, is never late. The number
bounds the elements. -/
def AmlSlot.feed (a : AmlSlot) (b : List Byte) (contrib : Nat) (loc : Bool) : Nat → Nat → List Byte → AmlSlot
  | 0, _, _ => a
  | f + 1, off, bs =>
    if bs.isEmpty then a else
    let size := amInSize b
    let e := off / size
    let n := min (size - off % size) bs.length
    let a1 := if amCount b ≤ e || (if contrib == amLocal b && loc then (a.stripes.get Stripe.init (e / 256)).done else a.full b (e / 256)) then a
      else a.element b contrib e (off % size) (bs.take n)
    a1.feed b contrib loc f (off + n) (bs.drop n)

/-- The bytes that stripe k has counted. -/
def AmlSlot.counted (a : AmlSlot) (k : Nat) : Nat := (a.stripes.get Stripe.init k).count

/-- The stripes that n bytes from an offset touch. -/
def stripesTouched (b : List Byte) (off n : Nat) : List Nat :=
  let size := 256 * amInSize b
  if n == 0 then [] else (List.range ((off + n - 1) / size + 1)).drop (off / size)

/-- Operand bytes received are counted at the units of their stripes (event 0x402). -/
def State.amlGot (s : State) (slot : Nat) (b : List Byte) (off n : Nat) : State :=
  let a := s.aslot slot
  let size := 256 * amInSize b
  (stripesTouched b off n).foldl (fun s k =>
    s.pmuAml (stripeUnit slot a.w a.u k) 0x402 (min (off + n) ((k + 1) * size) - max off (k * size))) s

/-! ## CONTRIBUTION (R131, R296, R297) -/

/-- Byte offset of a RED packet's first operand in the input vector (R294). -/
def redOffset (p : Packet) (size : Nat) : Nat :=
  if p.op == opMcast then p.va / 2 ^ 32 * size + p.va % 2 ^ 32 else p.va

/-- CONTRIBUTION: a RED packet reaches its slot's home unit. For a closed slot it is refused SLOT_CLOSED; an index of NCONTRIB
or more is discarded and counted. -/
def contribution (c ref : Nat) (s : State) : State :=
  match s.pktRef c ref with
  | none => s
  | some x =>
    let p := x.pkt
    let h := s.half x.conn
    if !h.isRed p then s
    else match x.doom with
      | some (code, detail) => s.answer c ref (if isTransientCode code then .transient else .final) code detail false
      | none =>
        if h.state != .established then s.answer c ref .final 0x0B 2 false
        else if p.iso != h.iso then s.answer c ref .final 9 0 false
        else if p.void then s.answer c ref .consumed 0 0 (ackAtOnce h.rlx p)
        else
          let slot := p.key % 2 ^ 12
          match s.slotOp slot with
          | none => (s.bump R.AML_CLOSED_REFUSE_COUNT).answer c ref .transient 0x41 0 false
          | some k =>
            let b := (s.op k).block
            let i := p.aux % 2 ^ 16
            let s1 := if amContrib b ≤ i then s.bump R.AML_BADIDX_COUNT else
              let off := redOffset p (amInSize b)
              let n := p.payload.length
              let a := s.aslot slot
              let a1 := a.feed b i false (n + 1) off p.payload
              let size := 256 * amInSize b
              let part (k : Nat) : Nat := min (off + n) (min ((k + 1) * size) (amCount b * amInSize b)) - max off (k * size)
              let late := ((stripesTouched b off n).filter fun k => decide (a1.counted k < a.counted k + part k)).length
              ((s.setAslot slot a1).amlGot slot b off n).bump R.AML_LATE_COUNT [] late
            s1.answer c ref .consumed 0 0 (ackAtOnce h.rlx p)

/-! ## STRIPE_COMPLETE (R299, R300) -/

/-- The local operand of stripe k is read and counted as its contributor's; a fault is latched, and its bytes count all the
same. Whether the stripe may go on: not while the read waits. -/
def State.amlLocal (s : State) (slot key k st : Nat) (host : List Byte) : Bool × State :=
  let b := (s.op key).block
  let a := s.aslot slot
  let x := a.stripes.get Stripe.init k
  if amLocal b == 0xFFFF || x.loc then (true, s) else
  let size := amInSize b
  let off := 256 * k * size
  let n := amElems b k * size
  let (m, s1) := s.readAt (key / 4096) (.far (amAsk b) (amLocalVa b)) off n (.op key) st host
  let taken (s : State) (a : AmlSlot) : State :=
    s.setAslot slot { a with stripes := a.stripes.set Stripe.init k { a.stripes.get Stripe.init k with loc := true } }
  match m with
  | .data bs => (true, (taken s1 (a.feed b (amLocal b) true (n + 1) off bs)).amlGot slot b off n)
  | m => match m.localStatus s1 with
    | (none, s2) => (false, s2)
    | (some st, s2) =>
      let a := { a with fault := some (a.fault.getD st), stripes := a.stripes.set Stripe.init k { x with count := x.count + n } }
      (true, taken (s2.setOp key { s2.op key with cause := if (s2.aslot slot).fault.isNone then m.detail else (s2.op key).cause }) a)

/-- The result of an element of a complete stripe (Table 12-6): an ORDERED sum is folded in ascending contributor index. -/
def Stripe.result (x : Stripe) (b : List Byte) (e : Nat) : Nat :=
  if amMode b == 1 then
    match sortBy (fun p => p.2.1) (x.stored.filter fun p => p.1 == e) with
    | [] => 0
    | p :: ps => ps.foldl (fun v q => amCombine b v q.2.2) p.2.2
  else (x.acc.get none e).getD 0

/-- RESULT of EXPMAX (R308). -/
def AmlSlot.expResult (a : AmlSlot) : Word := w64 (ofSigned 64 (a.emax.getD (-32768)))

/-- Output bytes are written, unless a fault has stopped the unit's writing; a fault is latched. Whether that is done: not while
it waits. -/
def State.amlWrite (s : State) (slot key off : Nat) (bs : List Byte) : Bool × State :=
  let b := (s.op key).block
  let a := s.aslot slot
  if a.fault.isSome then (true, s) else
  match s.writeAt (key / 4096) (.far (amAsk b) (amOutVa b)) off bs (.op key) with
  | (.data _, s1) => (true, s1.setAslot slot { s1.aslot slot with written := (s1.aslot slot).written + bs.length })
  | (m, s1) => match m.localStatus s1 with
    | (none, s2) => (false, s2)
    | (some st, s2) => (true, (s2.setOp key { s2.op key with cause := m.detail }).setAslot slot { s2.aslot slot with fault := some st })

/-- The slot completes with its last stripe: a latched fault, else AML_RANGE, else SUCCESS; RESULT is the exponent of EXPMAX, or the
poisoned elements. -/
def State.amlEnd (s : State) (slot key : Nat) : State :=
  let b := (s.op key).block
  let a := s.aslot slot
  if a.done < amStripes b then s else
  let st := match a.fault with
    | some f => f
    | none => if a.range then 0x16 else 0
  s.completeWith key st
    (if amOp b == 6 then a.expResult else w64 a.poisoned) a.written

/-- A stripe whose bytes are all there is finalised and written at OUT_VA (R299, R307). -/
def State.amlFinal (s : State) (slot key k : Nat) : State :=
  let b := (s.op key).block
  let a := s.aslot slot
  let x := a.stripes.get Stripe.init k
  if x.done || x.count < amTotal b k then s else
  let vals := (List.range (amElems b k)).map fun j => x.result b (256 * k + j)
  let bad := if amMode b == 2 then (vals.filter (· == poisonOf (amWidth b))).length else 0
  let done (s : State) : State :=
    let a := s.aslot slot
    (s.pmuAml (stripeUnit slot a.w a.u k) 0x403).setAslot slot { a with
      done := a.done + 1, poisoned := a.poisoned + bad
      stripes := a.stripes.set Stripe.init k { Stripe.init with loc := true, done := true } }
  let last := a.done + 1 == amStripes b
  let (off, bs) := if amOp b == 6 then (0, if last then leBytes 8 a.expResult.toNat else [])
    else (256 * k * amOutSize b, vals.flatMap fun v => leBytes (amOutSize b) (amFinal b v))
  match s.amlWrite slot key off bs with
  | (true, s1) => ((done s1).bump R.AML_POISON_COUNT [] bad).amlEnd slot key
  | (false, s1) => s1

/-- STRIPE_COMPLETE: stripe k of an open slot takes its local operand, where it has one that has not been taken, and is
finalised when its count is full. `st` and `data` are how the reads of the local operand in host memory ended and what they
returned. -/
def stripeComplete (slot k st : Nat) (data : List Byte) (s : State) : State :=
  match s.slotOp slot with
  | none => s
  | some key =>
    if amStripes (s.op key).block ≤ k then s else
    match s.amlLocal slot key k st data with
    | (true, s1) => s1.amlFinal slot key k
    | (false, s1) => s1

/-! ## Registers (R314) -/

/-- AML_STATUS, AML_UNIT_STATUS and AML_SLOT_STATE. -/
def State.amlStatus (s : State) : Word := w64 (b2n s.aml.cfgRefused * 2 ^ 31 + s.openSlots.length)
def State.unitStatus (s : State) (u : Nat) : Word :=
  w64 (s.accUsed u * 2 ^ 16 + (s.openSlots.filter fun e => e.1 / 256 == u).length)
def State.slotState (s : State) (k : Nat) : Word := w64 (b2n (s.slotOp k).isSome * 2 ^ 31 + (s.aslot k).done)

/-- AML_CFG_WRITE: a write of AML_CTRL or AML_ACC_RESV by Control-level code, refused while any slot is open (R314). -/
def amlCfgWrite (path : Path) (addr : Nat) (v : Word) (s : State) : State :=
  let t := (addr - R.AML_ACC_RESV.base) / 4
  let ctrl := addr == R.AML_CTRL.base
  if !s.mayWrite path addr || !(ctrl || (decide (R.AML_ACC_RESV.base ≤ addr) && addr % 4 == 0 && decide (t < s.units))) then s
  else if !s.openSlots.isEmpty then { s with aml := { s.aml with cfgRefused := true } }
  else
    let s1 := { s with aml := { s.aml with cfgRefused := false } }
    if ctrl then s1.wrSoft R.AML_CTRL [] v else s1.wrSoft R.AML_ACC_RESV [t] v

/-! ## The commands -/

/-- CONTRIBUTION (R297). -/
def execContribution (c ref : Nat) (s : State) : Host.Outcome State Fault Refusal := .next (s.live (contribution c ref))
/-- STRIPE_COMPLETE (R299). -/
def execStripeComplete (slot k st : Nat) (data : List Byte) (s : State) : Host.Outcome State Fault Refusal :=
  .next (s.live (stripeComplete slot k st data))
/-- AML_CFG_WRITE (R314). -/
def execAmlCfgWrite (path : Path) (addr : Nat) (v : Word) (s : State) : Host.Outcome State Fault Refusal :=
  .next (amlCfgWrite path addr v s)

end Sys2Proof.Machine
end

