-- ==== Sys2Proof/Machine/OpStart.lean ====
section
/-! DEFINITION. Machine/OpStart.lean: the command-block instructions, how each kind starts, triggers, transfers, aborts and
packet references (R98 to R132, R343, R344). -/
namespace Sys2Proof.Machine

/-! ## QFETCH and CQPOST (R118, R119) -/

/-- Entries returned for a `qfetch` are taken one by one, up to the tail: none with OWN = 0, a malformed one halts the adapter
(R118, R159, R157). How many were taken, whether one was malformed, and the state; they are written to the frame. -/
def State.fetchEntries (s : State) (qn key : Nat) : List (List Byte) → Nat → Nat × Bool × State
  | [], n => (n, false, s)
  | e :: es, n =>
    let q := s.queue qn
    if q.left == 0 then (n, false, s) else
    let data := byteSlice e 0 64
    let s1 := s.hostRead 0 q.func (q.entryAddr q.fetch) 64
    if !weOwn data then (n, false, s1.ownStop qn)
    else match malformed (q.kind qn) data with
      | some reason => (n, true, s1.ringMalformed qn q q.fetch reason)
      | none => ((s1.takeEntry qn q.fetch data).mwrite (key + 64 * n) data).fetchEntries qn key es (n + 1)

/-- A list of bytes in pieces of 64; the number bounds them. -/
def pieces64 : Nat → List Byte → List (List Byte)
  | 0, _ => []
  | f + 1, bs => if bs.isEmpty then [] else bs.take 64 :: pieces64 f (bs.drop 64)

/-- The thread of an operation. -/
def Op.tid (o : Op) : Nat :=
  match o.origin with
  | .thread t _ => t
  | _ => 0

/-- QFETCH (R118). The entries that its reads return were kept behind the block at issue. -/
def startQfetch (k : Nat) (s : State) : State :=
  let o := s.op k
  let qn := leAt o.block 8 4
  let q := s.queue qn
  if q.state == .unused || q.cluster != k / 4096 || !q.handlerServed then s.complete k 2
  else if s.adapterHalted then s.complete k 1
  else if q.state != .ready || (s.cq q.cn).state != .ready || q.left == 0 || !s.canMaster q.func || s.recvHeld qn ||
      s.dev.power != 0 then s.complete k 0x0F
  else if !s.linkAwake q.func then (s.startExit q.func).setOp k { o with held := true }
  else
    let es := (pieces64 8 (o.block.drop 64) ++ List.replicate 8 []).take (leAt o.block 12 1)
    let (n, bad, s1) := (s.traffic q.func).fetchEntries qn (frameKey o.tid (leAt o.block 14 2)) es 0
    s1.completeWith k (if bad then 1 else if n == 0 then 0x0F else 0) (w64 n) (64 * n)

/-- The completion that a CQPOST block carries: its OWN bit is 0 (R119, R165); reserved bits pass as the handler gave them (DESIGN
CHOICE, log entry 136). -/
def postEntry (b : List Byte) : List Byte :=
  byteSlice b 32 31 ++ [BitVec.ofNat 8 (leAt b 63 1 % 128)]

/-- A completion is committed for CQPOST, which tells whether it was stashed. -/
def State.postCqe (s : State) (k cn : Nat) (c : Completion) : State :=
  let (st, s1) := s.commitCqe cn c
  let o := s1.op k
  (s1.setOp k { o with cflags := if st then o.cflags ||| 8 else o.cflags }).complete k 0

/-- CQPOST (R119); a halt of the adapter ends it ABORTED (R192). A ring that does not exist gives CMD_INVALID (DEDUCED, log entry 56). -/
def startCqpost (k : Nat) (s : State) : State :=
  let o := s.op k
  let b := o.block
  let cn := leAt b 8 2
  let qn := leAt b 12 4 % 2 ^ 18
  let idx := leAt b 16 2
  let q := s.queue qn
  let raw := postEntry b
  if (s.cq cn).state == .unused then s.complete k 2
  else if s.adapterHalted then s.complete k 1
  else if !nbit (leAt b 12 4) 31 then
    if !s.cqRoom cn then s.setOp k { o with held := true } else s.postCqe k cn { raw := raw, now := false, work := none }
  else if q.state == .unused || q.cluster != k / 4096 || q.cn != cn || q.size ≤ idx then s.complete k 2
  else match q.outstanding.find? (·.idx == idx) with
    | none => s.complete k 0x10
    | some e =>
      if !s.cqRoom cn then s.setOp k { o with held := true } else
      (s.setQueue qn { q with outstanding := q.outstanding.filter (·.serial != e.serial) }).postCqe k cn
        { raw := raw, now := weNow e.bytes, work := some (qn, q.entryAddr idx) }

/-! ## MATCH (R122) -/

/-- A match found: MATCHED, and the entry's REF in RESULT. -/
def State.matchDone (s : State) (k : Nat) (r : MRes) : State :=
  match r with
  | .matched ref => let o := s.op k
    (s.setOp k { o with cflags := o.cflags ||| 16 }).completeWith k 0 (w64 ref) 0
  | .appended => s.completeWith k 0 0 0
  | .full => s.complete k 0x11

/-- MPOST, MMATCH and MCANCEL (R122). Room that they make goes to the receives that wait (R280). -/
def startMatch (k : Nat) (s : State) : State :=
  let o := s.op k
  let b := o.block
  let c := k / 4096
  let ctx := leAt b 8 2
  let src := leAt b 12 4 % 2 ^ 24
  let tag := leAt b 16 8
  let ref := leAt b 32 8
  if 2 ^ 15 ≤ ctx || s.homeOf ctx != c then s.complete k 2
  else match o.flags with
    | 0 =>
      let (r, s1) := s.unitPost c ctx ⟨nbit (leAt b 11 1) 0, src, tag, leAt b 24 8, ref, 0⟩
      (s1.matchDone k r).postAllWaiting ctx
    | 1 =>
      let (r, s1) := s.unitMatch c ctx src tag ref
      (s1.matchDone k r).postAllWaiting ctx
    | _ =>
      let (found, s1) := s.unitCancel c ctx ref
      (s1.complete k (if found then 0 else 0x12)).postAllWaiting ctx

/-! ## DMA (R127, R128, R344, R434) -/

/-- Fields of a DMA block (Table 4-13). -/
def dLen (b : List Byte) : Nat := leAt b 8 4
def dSrc (b : List Byte) : Nat := leAt b 12 1
def dDst (b : List Byte) : Nat := leAt b 13 1
def dIso (b : List Byte) : Nat := leAt b 14 2
def dSrcKey (b : List Byte) : Nat := leAt b 16 4
def dDstKey (b : List Byte) : Nat := leAt b 20 4
def dSrcVa (b : List Byte) : Nat := leAt b 24 8
def dDstVa (b : List Byte) : Nat := leAt b 32 8

/-- A free mover: the first (R434). -/
def State.freeMover (s : State) : Option Nat := firstBelow 64 fun m => (s.host.movers.get none m).isNone
/-- A mover given to a transfer, or freed. -/
def State.setMover (s : State) (m : Nat) (k : Option Nat) : State :=
  { s with host := { s.host with movers := s.host.movers.set none m k } }

/-- The attachment of a transfer: that of the function of its source's ASK, else of its destination's, else 0 (DEDUCED, log entry 77). -/
def State.dmaAtt (s : State) (b : List Byte) : Nat :=
  let of (ask : Nat) : Nat := s.pfOf (askFunc (s.askMem ask))
  match dSrc b, dDst b with
  | 0, _ => of (dSrcKey b % 2 ^ 20)
  | 4, _ => of (keyAsk (dSrcKey b))
  | _, 0 => of (dDstKey b % 2 ^ 20)
  | _, 2 => of (keyAsk (dDstKey b))
  | _, _ => 0

/-- A transfer ends: its mover is free, it completes, and with FREE its packet reference is released with the outcome that its
status gives (R127, R343). -/
def State.endDma (s : State) (k status detail : Nat) : State :=
  let o := s.op k
  let s1 := match o.mover with
    | some m => s.setMover m none
    | none => s
  let s2 := ((s1.setOp k { o with mover := none }).completeWith k status (if status == 0x0B then w64 detail else 0) o.bytes).histTime 11
    (s.dmaAtt o.block) o.at_
  if dSrc o.block == 2 && fFree o.flags then
    let (code, det) := outcomeOfStatus status detail
    s2.answerWord (k / 4096) (dSrcKey o.block) code det
  else s2

/-- A packet reference that is not held has been named (R129). -/
def State.misused (s : State) : State := { s with net := { s.net with misuse := s.net.misuse + 1 } }

/-- A transfer starts: its packet reference must be held, and its payload must hold what is moved; it takes a mover, which
checks its keys, the source's first (R127 to R129). A transfer of a reference that is not held is counted (R129). -/
def startDma (k : Nat) (s : State) : State :=
  let o := s.op k
  let b := o.block
  let c := k / 4096
  let ref := s.pktRef c (dSrcKey b)
  let badRef := dSrc b == 2 && match ref with
    | none => true
    | some x => decide (x.pkt.payload.length < dSrcVa b + dLen b)
  if badRef then (if ref.isNone then s.misused else s).endDma k 2 0
  else match s.freeMover with
    | none => s.setOp k { o with held := true }
    | some m =>
      let s1 := (s.setOp k { o with held := false, mover := some m }).setMover m (some k)
      let check (s : State) (keyed : Bool) (key : Nat) : Option Nat × State :=
        if keyed then let r := s.keyCheck c key (dIso b); (r.1, r.2.2) else (none, s)
      match check s1 (dSrc b == 4) (dSrcKey b) with
      | (some st, s2) => s2.endDma k st 0
      | (none, s2) => match check s2 (dDst b == 2) (dDstKey b) with
        | (some st, s3) => s3.endDma k st 0
        | (none, s3) => s3

/-- May the transfer of a released packet write: has every lower number of its strict stream issued its writes or gone without a
transfer (R344)? -/
def State.mayWriteFor (s : State) (x : PktRef) : Bool :=
  let h := s.half x.conn
  h.rlx || !((h.rx.released.any fun e => seqBelow e.1 x.pkt.seq && match s.pktRef (x.conn / 16384) e.2 with
      | some y => !y.issued
      | none => false) || h.rx.held.any fun y => seqBelow y.pkt.seq x.pkt.seq)

/-- The bytes of one piece of a transfer, from an offset. -/
def State.dmaRead (s : State) (k off n st : Nat) (host : List Byte) : Moved × State :=
  let b := (s.op k).block
  let c := k / 4096
  let bad := if host.length < off + n then st else 0
  match dSrc b with
  | 0 => s.readAt c (.far (dSrcKey b % 2 ^ 20) (dSrcVa b)) off n (.op k) bad (host.drop off)
  | 1 => s.readAt c (.hbm (dSrcVa b)) off n (.op k) bad (host.drop off)
  | 2 => match s.pktRef c (dSrcKey b) with
    | some x => (.data (byteSlice x.pkt.payload (dSrcVa b + off) n), s)
    | none => (.stop 2 0 0 0, s)
  | 3 => (.data (byteSlice b (56 + off) n), s)
  | _ => s.readAt c (.keyed (keyAsk (dSrcKey b)) (dSrcVa b)) off n (.op k) bad (host.drop off)

/-- Where a transfer writes. -/
def dmaDest (b : List Byte) : MemAt :=
  match dDst b with
  | 0 => .far (dDstKey b % 2 ^ 20) (dDstVa b)
  | 1 => .hbm (dDstVa b)
  | _ => .keyed (keyAsk (dDstKey b)) (dDstVa b)

/-- A transfer goes on in pieces of 256 bytes until it is done, waits for a translation, meets a fault, or finds an abort. The
first number bounds the pieces. A failure under a key that a target answers RETRY_LATER ends it so (R252, R253). -/
def State.dmaRun (s : State) (k st : Nat) (host : List Byte) : Nat → State
  | 0 => s
  | f + 1 =>
    let o := s.op k
    let b := o.block
    if o.bytes == dLen b then
      let s1 := match (if dSrc b == 2 then s.pktRef (k / 4096) (dSrcKey b) else none) with
        | some x => s.setPktRef (k / 4096) (dSrcKey b) (some { x with issued := true })
        | none => s
      s1.endDma k 0 0
    else if o.aborting then s.endDma k 1 0
    else
      let n := min 256 (dLen b - o.bytes)
      let src : Nat := match (if dSrc b == 2 then s.pktRef (k / 4096) (dSrcKey b) else none) with
        | some x => x.pkt.srcEp
        | none => 0
      let stop (m : Moved) (key : Option Nat) (va access : Nat) (s : State) : State :=
        match key.bind fun key => s.retried m (keyAsk key) va access src with
        | some s1 => s1.endDma k 0x0C 0
        | none => match m.localStatus s with
          | (none, s1) => s1
          | (some st, s1) => (s1.setOp k { s1.op k with cause := m.detail }).endDma k st 0
      match s.dmaRead k o.bytes n st host with
      | (.data bs, s1) => match s1.writeAt (k / 4096) (dmaDest b) o.bytes bs (.op k) with
        | (.data _, s2) => (s2.setOp k { s2.op k with bytes := o.bytes + n }).dmaRun k st host f
        | (m, s2) => stop m (if dDst b == 2 then some (dDstKey b) else none) (dDstVa b) 2 s2
      | (m, s1) => stop m (if dSrc b == 4 then some (dSrcKey b) else none) (dSrcVa b) 1 s1

/-- DMA_DONE: a transfer moves its bytes and ends, or gets as far as it can. `data` is an image of the source bytes, of which
those in host memory count, and with `st` not 0 the read of what lies beyond it failed. The transfer of a packet that a lower
number of its stream has doomed writes nothing and ends as that did (R344). -/
def dmaDone (c slot st : Nat) (data : List Byte) (s : State) : State :=
  let k := 4096 * c + slot % 4096
  let o := s.op k
  if o.kind != 0xC || !o.isOpen || o.held || o.mover.isNone || s.inSafe then s else
  match (if dSrc o.block == 2 then s.pktRef c (dSrcKey o.block) else none) with
  | none => s.dmaRun k st data (dLen o.block / 256 + 2)
  | some x => match x.doom with
    | some (code, detail) =>
      let o1 := { o with flags := 0, mover := none }
      let s1 := match o.mover with
        | some m => s.setMover m none
        | none => s
      ((s1.setOp k o1).completeWith k code (if code == 0x0B then w64 detail else 0) o.bytes).answer c (dSrcKey o.block)
        (if isTransientCode code then .transient else .final) code detail false
    | none => if s.mayWriteFor x then s.dmaRun k st data (dLen o.block / 256 + 2) else
        if o.aborting then s.endDma k 1 0 else s

/-! ## The rest -/

/-- TLBINV (R130). -/
def startTlbinv (k : Nat) (s : State) : State :=
  let o := s.op k
  let b := o.block
  (s.setOp k { o with held := false }).startInval (leAt b 8 1) (leAt b 12 4 % 2 ^ 20) (leAt b 16 8) (leAt b 24 8) (some k) none

/-! ## Triggers (R125, R126) -/

/-- Flags that a launched kind may have (R98, Table 4-1). -/
def lflagsOk (kind fl : Nat) : Bool :=
  match kind with
  | 1 => !(fSeal fl && !fRlx fl) && !(fRed fl && (fImm fl || fSeal fl))
  | 7 => fl % 4 == 0
  | 0xC => decide (fl ≤ 1)
  | _ => fl == 0

/-- The kinds that a trigger may launch (R125). -/
def launchable (kind : Nat) : Bool := kind == 1 || kind == 2 || kind == 4 || kind == 5 || kind == 7 || kind == 0xC

/-- A fabric operation or a transfer that a trigger launches starts. -/
def startLaunched (k : Nat) (s : State) : State := if (s.op k).kind == 0xC then startDma k s else startFabric k s

/-- A trigger fires (R126). -/
def State.fire (s : State) (t : Trigger) : State :=
  let k := t.slot
  let o := s.op k
  let fl := o.cflags ||| b2n s.holdover
  if !t.launch then (s.setOp k { o with cflags := fl, ftAux := t.fireAt }).complete k 0
  else startLaunched k (s.setOp k { o with
    kind := blkKind t.block, flags := t.lflags, block := o.block.take 8 ++ (byteSlice t.block 0 64).drop 8
    cflags := fl ||| 2, ftAux := t.fireAt })

/-- TRIG (R125): the launch block, read at issue, stands behind the trigger's, and after it the level of its thread. -/
def startTrig (k : Nat) (s : State) : State :=
  let o := s.op k
  let b := o.block
  let c := k / 4096
  let launch := leAt b 16 1 == 1
  let lb := byteSlice b 64 64
  let fl := leAt b 20 2
  let at_ := w64 (leAt b 8 8)
  let kind := blkKind lb
  if launch && (!launchable kind || !lflagsOk kind fl || !s.blockOk kind fl lb) then s.complete k 2
  else if launch && blockDenied kind (leAt b 128 1) 0 lb then s.complete k 3
  else if !s.ftValid then s.complete k 0x14
  else
    let t : Trigger := ⟨k, at_, launch, lb, fl⟩
    if s.ftReached at_ then (s.setOp k { o with held := false, cflags := o.cflags ||| 4 }).fire t
    else if 256 ≤ (s.cluster c).trigs.length then s.complete k 0x13
    else
      let s1 := s.setOp k { o with held := false }
      s1.setCluster c { s1.cluster c with trigs := (s1.cluster c).trigs ++ [t] }

/-- TRIGGER_FIRE: the trigger of a slot of cluster c has reached its fire time (R126). -/
def triggerFire (c h : Nat) (s : State) : State :=
  match (s.cluster c).trigs.find? (fun t => t.slot == 4096 * c + h % 4096) with
  | none => s
  | some t =>
    if !s.ftValid || !s.ftReached t.fireAt || s.inSafe then s else
    let cl := s.cluster c
    (s.setCluster c { cl with trigs := cl.trigs.filter (·.slot != t.slot) }).fire t

/-! ## Starting -/

/-- What an operation of each kind does when it starts; that of a trigger, command or transfer is held behind a fence, and a fabric
operation is held once its destination is resolved (R116, R315). -/
def startKind (k : Nat) (s : State) : State :=
  let kind := (s.op k).kind
  if s.fenced k && (kind == 6 || decide (8 ≤ kind)) then s.setOp k { s.op k with held := true } else
  match kind with
  | 6 => if s.fenceClear k then s.complete k 0 else s.setOp k { s.op k with held := false }
  | 8 => startQfetch k s
  | 9 => startCqpost k s
  | 10 => startMatch k s
  | 11 => startTrig k s
  | 12 => startDma k s
  | 13 => startTlbinv k s
  | 14 => startAml k s
  | _ => startFabric k s

/-- An accepted operation starts, or completes with what its block or its level gives it (R99, R104). -/
def startAccepted (k st : Nat) (s : State) : State :=
  if st == 0 then startKind k s else if (s.op k).kind == kDma then s.endDma k st 0 else s.complete k st

/-- Held operations that no fence holds any more are tried again, in the order of their acceptance (R103, R116). -/
def State.startHeld (s : State) : State :=
  ((sortBy (fun e => e.2.order) (s.ops.filter fun e => e.2.isOpen && e.2.held)).map (·.1)).foldl
    (fun s k => if (s.op k).held && (s.op k).isOpen && !s.fenced k then startKind k s else s) s

/-- A unit that can always take a command. -/
def always (_ : State) (_ : List Byte) : Bool := true

/-- FPUT (R110). -/
def fput (t rd rs1 imm : Nat) (s : State) : State :=
  s.submit t rd rs1 0x30 imm kPut 0 (immWithin imm 0x800F && lflagsOk kPut (imm % 16)) always startAccepted
/-- FGET (R112). -/
def fget (t rd rs1 imm : Nat) (s : State) : State := s.submit t rd rs1 0x31 imm kGet 0 (immWithin imm 0x8000) always startAccepted
/-- FAMO (R113). -/
def famo (t rd rs1 imm : Nat) (s : State) : State := s.submit t rd rs1 0x32 imm kAmo 0 (immWithin imm 0x8000) always startAccepted
/-- FSEND (R114). -/
def fsend (t rd rs1 imm : Nat) (s : State) : State := s.submit t rd rs1 0x33 imm kSend 0 (immWithin imm 0x8000) always startAccepted
/-- FFLUSH (R115). -/
def fflush (t rd rs1 imm : Nat) (s : State) : State := s.submit t rd rs1 0x34 (selImm 0 2 imm) kFlush 0 (immWithin (selImm 0 2 imm) 0x8000) always startAccepted
/-- FFENCE (R116). -/
def ffence (t rd rs1 imm : Nat) (s : State) : State := s.submit t rd rs1 0x34 (selImm 1 2 imm) kFence 0 (immWithin (selImm 1 2 imm) 0x8001) always startAccepted
/-- FMCAST (R117). -/
def fmcast (t rd rs1 imm : Nat) (s : State) : State := s.submit t rd rs1 0x35 imm kMcast 1 (immWithin imm 0x800C) always startAccepted
/-- QFETCH (R118); `es` are the entries that its reads return. -/
def qfetch (t rd rs1 imm : Nat) (es : List (List Byte)) (s : State) : State :=
  s.submit t rd rs1 0x36 (selImm 0 2 imm) kQfetch 1 (immWithin (selImm 0 2 imm) 0x8000) always startAccepted
    fun _ _ => (es.take 8).flatMap fun e => byteSlice e 0 64
/-- CQPOST (R119): refused while stash and pool are full. -/
def cqpost (t rd rs1 imm : Nat) (s : State) : State :=
  s.submit t rd rs1 0x36 (selImm 1 2 imm) kCqpost 1 (immWithin (selImm 1 2 imm) 0x8001)
    (fun s b => !s.blockOk kCqpost 0 b || s.cqRoom (leAt b 8 2)) startAccepted
/-- MPOST (R122). -/
def mpost (t rd rs1 imm : Nat) (s : State) : State := s.submit t rd rs1 0x38 (selImm 0 3 imm) kMatch 1 (immWithin (selImm 0 3 imm) 0x8000) always startAccepted
/-- MMATCH (R122). -/
def mmatch (t rd rs1 imm : Nat) (s : State) : State := s.submit t rd rs1 0x38 (selImm 1 3 imm) kMatch 1 (immWithin (selImm 1 3 imm) 0x8001) always startAccepted
/-- MCANCEL (R122). -/
def mcancel (t rd rs1 imm : Nat) (s : State) : State := s.submit t rd rs1 0x38 (selImm 2 3 imm) kMatch 1 (immWithin (selImm 2 3 imm) 0x8002) always startAccepted
/-- TRIG (R125). -/
def trig (t rd rs1 imm : Nat) (s : State) : State :=
  s.submit t rd rs1 0x3A imm kTrig 1 (immWithin imm 0x8000) always startAccepted
    fun s b => s.mread (frameKey t (leAt b 18 2)) 64 ++ leBytes 1 (s.thread t).priv
/-- DMA (R127): refused while no mover is free. -/
def dma (t rd rs1 imm : Nat) (s : State) : State :=
  s.submit t rd rs1 0x3B imm kDma 1 (immWithin imm 0x8001) (fun s b => !s.blockOk kDma 0 b || s.freeMover.isSome) startAccepted
/-- TLBINV (R130): refused while 16 broadcasts are in progress (R257). -/
def tlbinv (t rd rs1 imm : Nat) (s : State) : State :=
  s.submit t rd rs1 0x3C imm kTlbinv 2 (immWithin imm 0x8000) (fun s b => !s.blockOk kTlbinv 0 b || s.invalReady) startAccepted
/-- AMLSUB (R131): refused while the units have no space for the slot. -/
def amlsub (t rd rs1 imm : Nat) (s : State) : State :=
  s.submit t rd rs1 0x3D imm kAmlsub 1 (immWithin imm 0x8000) State.amlReady startAccepted

/-- OPABORT (R132). An aborted fence lets what it held start. -/
def opabort (t rd rs1 rs2 : Nat) (s : State) : State :=
  s.issue t (wordA 0x3E rd rs1 rs2 2) 4 (rs2 % 32 == 0) 0 [rs1 % 32] fun s =>
    match s.handleOp (s.reg t (rs1 % 32)) with
    | none => s.writeNext t (rd % 32) 4 2
    | some k =>
      let (lodged, s1) := s.abortOp k
      (s1.writeNext t (rd % 32) 4 (if lodged then 0 else 1)).startHeld

/-- PKTREL (R343). A reference that is not held is ignored and counted (R129). -/
def pktrel (t rd rs1 rs2 : Nat) (s : State) : State :=
  s.issue t (wordA 0x3E rd rs1 rs2 3) 4 (rd % 32 == 0 && rs2 % 32 == 0) 1 [rs1 % 32] fun s =>
    let v := (s.reg t (rs1 % 32)).toNat
    let s1 := s.nextPc t 4
    if v / 2 ^ 48 != 0 then s1.bump R.SLD_BAD_OUTCOME_COUNT
    else if (s1.pktRef (tCluster t) (v % 2 ^ 32)).isNone then s1.misused
    else s1.answerWord (tCluster t) (v % 2 ^ 32) (nbits v 39 32) (nbits v 47 40)

/-- OP_TIMEOUT: a get, atomic or flush is incomplete TIMEOUT after its request departed (R112, R113, R115). -/
def opTimeout (c slot : Nat) (s : State) : State :=
  let k := 4096 * c + slot % 4096
  let o := s.op k
  match o.deadline with
  | some t =>
    if o.isOpen && (o.kind == 2 || o.kind == 3 || o.kind == 5) && s.locReached t then s.complete k 0x0A else s
  | none => s

/-! ## The commands -/

/-- FPUT (R110). -/
def execFput (t rd rs1 imm : Nat) (s : State) : Host.Outcome State Fault Refusal := .next (fput t rd rs1 imm s)
/-- FGET (R112). -/
def execFget (t rd rs1 imm : Nat) (s : State) : Host.Outcome State Fault Refusal := .next (fget t rd rs1 imm s)
/-- FAMO (R113). -/
def execFamo (t rd rs1 imm : Nat) (s : State) : Host.Outcome State Fault Refusal := .next (famo t rd rs1 imm s)
/-- FSEND (R114). -/
def execFsend (t rd rs1 imm : Nat) (s : State) : Host.Outcome State Fault Refusal := .next (fsend t rd rs1 imm s)
/-- FFLUSH (R115). -/
def execFflush (t rd rs1 imm : Nat) (s : State) : Host.Outcome State Fault Refusal := .next (fflush t rd rs1 imm s)
/-- FFENCE (R116). -/
def execFfence (t rd rs1 imm : Nat) (s : State) : Host.Outcome State Fault Refusal := .next (ffence t rd rs1 imm s)
/-- FMCAST (R117). -/
def execFmcast (t rd rs1 imm : Nat) (s : State) : Host.Outcome State Fault Refusal := .next (fmcast t rd rs1 imm s)
/-- QFETCH (R118). -/
def execQfetch (t rd rs1 imm : Nat) (es : List (List Byte)) (s : State) : Host.Outcome State Fault Refusal :=
  .next (qfetch t rd rs1 imm es s)
/-- CQPOST (R119). -/
def execCqpost (t rd rs1 imm : Nat) (s : State) : Host.Outcome State Fault Refusal := .next (cqpost t rd rs1 imm s)
/-- MPOST (R122). -/
def execMpost (t rd rs1 imm : Nat) (s : State) : Host.Outcome State Fault Refusal := .next (mpost t rd rs1 imm s)
/-- MMATCH (R122). -/
def execMmatch (t rd rs1 imm : Nat) (s : State) : Host.Outcome State Fault Refusal := .next (mmatch t rd rs1 imm s)
/-- MCANCEL (R122). -/
def execMcancel (t rd rs1 imm : Nat) (s : State) : Host.Outcome State Fault Refusal := .next (mcancel t rd rs1 imm s)
/-- TRIG (R125). -/
def execTrig (t rd rs1 imm : Nat) (s : State) : Host.Outcome State Fault Refusal := .next (trig t rd rs1 imm s)
/-- TRIGGER_FIRE (R126). -/
def execTriggerFire (c h : Nat) (s : State) : Host.Outcome State Fault Refusal := .next (triggerFire c h s)
/-- DMA (R127). -/
def execDma (t rd rs1 imm : Nat) (s : State) : Host.Outcome State Fault Refusal := .next (dma t rd rs1 imm s)
/-- DMA_DONE (R127). -/
def execDmaDone (c slot st : Nat) (data : List Byte) (s : State) : Host.Outcome State Fault Refusal := .next (s.live (dmaDone c slot st data))
/-- TLBINV (R130). -/
def execTlbinv (t rd rs1 imm : Nat) (s : State) : Host.Outcome State Fault Refusal := .next (tlbinv t rd rs1 imm s)
/-- AMLSUB (R131). -/
def execAmlsub (t rd rs1 imm : Nat) (s : State) : Host.Outcome State Fault Refusal := .next (amlsub t rd rs1 imm s)
/-- OPABORT (R132). -/
def execOpabort (x : IssueRs2) (rd rs1 : Nat) (s : State) : Host.Outcome State Fault Refusal := .next (opabort x.t rd rs1 x.rs2 s)
/-- PKTREL (R343). -/
def execPktrel (x : IssuePktrel) (rs1 : Nat) (s : State) : Host.Outcome State Fault Refusal := .next (pktrel x.t x.rd rs1 x.rs2 s)
/-- OP_TIMEOUT (R112). -/
def execOpTimeout (c slot : Nat) (s : State) : Host.Outcome State Fault Refusal := .next (s.live (opTimeout c slot))

end Sys2Proof.Machine
end

