-- ==== Sys2Proof/Machine/Target.lean ====
section
/-! DEFINITION. Machine/Target.lean: what a target does with the packets that Solder has released to it: puts, gets, atomics,
flushes, and the responses to a source's own requests (R211 to R215, R219, R222, R227, R290, R435, R436, R438). -/
namespace Sys2Proof.Machine

/-! ## Checks (Table 8-9) -/

/-- A released packet is refused for good. -/
def State.refuseFinal (s : State) (c ref code detail : Nat) : State := s.answer c ref .final code detail false
/-- A released packet is refused for now. -/
def State.refuseNow (s : State) (c ref code : Nat) : State := s.answer c ref .transient code 0 false
/-- A released packet is consumed. -/
def State.consumed (s : State) (c ref : Nat) : State :=
  match s.pktRef c ref with
  | some x => s.answer c ref .consumed 0 0 (ackAtOnce (s.half x.conn).rlx x.pkt)
  | none => s

/-- The end that a lower sequence number gives a packet (R344). -/
def State.answerDoom (s : State) (c ref : Nat) (d : Nat × Nat) : State :=
  s.answer c ref (if isTransientCode d.1 then .transient else .final) d.1 d.2 false

/-- Steps 2 and 3 of Table 8-9: the half is ESTABLISHED and has the packet's isolation domain. -/
def Half.refuses (h : Half) (p : Packet) : Option (Nat × Nat) :=
  if h.state != .established then some (0x0B, 2) else if p.iso != h.iso then some (9, 0) else none

/-- Steps 4 to 7: the key, its function, and the right that the use needs. -/
def State.keyRefuses (s : State) (c : Nat) (h : Half) (p : Packet) (u : Use) : Option (Nat × Nat) × State :=
  match s.keyCheck c p.key p.iso with
  | (some code, _, s1) => (some (code, 0), s1)
  | (none, b, s1) =>
    if askFunc b != h.func then (some (9, 0), s1)
    else if !nbit (askRights b) u.right then (some (0x0B, 3), s1)
    else (none, s1)

/-- A released packet is looked at: one that a lower number has doomed ends so; one that its half refuses is refused; else k
says what becomes of it. -/
def State.withPacket (s : State) (c ref : Nat) (ok : Half → Packet → Bool) (k : PktRef → Half → State → State) : State :=
  match s.pktRef c ref with
  | none => s
  | some x =>
    let h := s.half x.conn
    if s.inSafe || !ok h x.pkt then s
    else match x.doom with
      | some d => s.answerDoom c ref d
      | none => match h.refuses x.pkt with
        | some (code, detail) => s.refuseFinal c ref code detail
        | none => k x h s

/-- An access of a target failed: the packet is answered for it (Tables 8-9, 10-7). -/
def State.targetAnswer (s : State) (c ref : Nat) (m : Moved) (ask va access src : Nat) : State :=
  let (kind, code, detail, s1) := s.targetFail m ask va access src
  s1.answer c ref kind code detail false

/-- A packet whose handling needs a function that cannot master is refused for now (R438). -/
def State.heldRefuse (s : State) (c ref f : Nat) : State := s.targetAnswer c ref (.noMaster f) 0 0 0 0

/-! ## PUT (R211, R290) -/

/-- The last host byte of a range, as the stream's proof needs it (R227). -/
def State.lastHost (s : State) (c : Nat) (m : MemAt) (n : Nat) (cl : XltClient) : Option Nat :=
  match (s.locate c m .write cl (n / 4096 + 2) 0 n []).1 with
  | .at_ ps => ((ps.filter fun p => !p.hbm && p.len != 0).getLast?).map fun p => p.addr + p.len - 1
  | _ => none

/-- A stream has written host memory. -/
def State.noteWrote (s : State) (r : Nat) (a : Option Nat) : State :=
  match a with
  | some a => s.setRx r { (s.half r).rx with wrote := some a }
  | none => s

/-- The queue that a notification names: the half's RQ, or its SQ; 0 when it has neither (R211). -/
def State.notifyQn (s : State) (r : Nat) : Nat :=
  let qs := s.queuesOfConn r
  match qs.find? fun q => (s.queue q).rq with
  | some q => q
  | none => qs.headD 0

/-- A put is consumed: its bytes are counted, and with IMM its notification is committed first (R211). A notification for a
ring that no longer exists is lost. -/
def State.putDone (s : State) (c ref : Nat) (x : PktRef) : State :=
  let r := x.conn
  let p := x.pkt
  let h := s.half r
  let n := h.rx.immBytes + p.payload.length
  if !p.imm then (s.setRx r { h.rx with immBytes := n }).consumed c ref
  else
    let s1 := s.setRx r { h.rx with immBytes := 0 }
    let raw := s1.cqeBytes
      { bytes := n % 2 ^ 32, qn := s.notifyQn r, status := if p.void then 1 else 0, kind := 2, imm := p.aux
        info := s.ft.toNat, src := p.srcEp }
    (if (s.cq h.notifyCn).state == .unused then s1
      else (s1.commitCqe h.notifyCn { raw := raw, now := false, work := none }).2).consumed c ref

/-- The length of the buffer that a member registers for a RUN (R290): that of its output (Table 12-2; DEDUCED, log entry 58). -/
def Coll.bufLen (cl : Coll) (b : List Byte) : Nat :=
  if runKind b == 0 then 0
  else runCount b * (if runKind b == 4 then cl.members.length else 1) * typeSize (runType b)

/-- The entry of the RUN in progress on a collective. -/
def State.runEntry (s : State) (cl : Coll) : Option OutEntry := cl.run.bind fun r => (s.queue r.qn).entry r.serial

/-- A channel has brought bytes into the buffer of the RUN in progress. -/
def State.collGot (s : State) (id chan n : Nat) : State :=
  match s.coll id with
  | none => s
  | some cl => s.setColl id (some { cl with run := cl.run.map fun r => { r with got := r.got.set 0 chan (r.got.get 0 chan + n) } })

/-- A data packet on a half of a collective: it goes to the buffer of the RUN in progress (R290). A failure of the local buffer
also ends the RUN (R291). -/
def State.bufferPut (s : State) (c ref : Nat) (x : PktRef) (id : Nat) : State :=
  let p := x.pkt
  match (s.coll id).bind fun cl => (s.runEntry cl).map fun e => (cl, e.bytes) with
  | none => s.refuseNow c ref 0x0C
  | some (cl, b) =>
    if cl.bufLen b < p.va + p.payload.length then s.refuseFinal c ref 0x0B 4
    else if !s.mayWriteFor x then s
    else
      let m : MemAt := .far (leAt b 20 4) (leAt b 32 8 + p.va)
      let last := s.lastHost c m p.payload.length (.pkt ref)
      match s.writeAt c m 0 p.payload (.pkt ref) with
      | (.data _, s1) => ((s1.noteWrote x.conn last).collGot id p.chan p.payload.length).consumed c ref
      | (.wait, s1) => s1
      | (.noMaster f, s1) => s1.heldRefuse c ref f
      | (m, s1) => match m.localStatus s1 with
        | (some st, s2) =>
          let (code, detail) := outcomeOfStatus st 0
          (s2.answer c ref (if code == 0xFF then .returned else .final) code detail false).collEnd id { status := st, detail := m.detail }
        | (none, s2) => s2

/-- A put whose checks have passed, or are made now, is placed (R211, R213). -/
def State.placePut (s : State) (c ref : Nat) (x : PktRef) (h : Half) : State :=
  let p := x.pkt
  let checked := if x.accepted then (none, s) else s.keyRefuses c h p .write
  match checked with
  | (some (code, detail), s1) => s1.refuseFinal c ref code detail
  | (none, s1) =>
    if h.maxLen < p.payload.length then s1.refuseFinal c ref 0x0B 4
    else
      let s2 := s1.setPktRef c ref (some { x with accepted := true })
      if !s2.mayWriteFor x then s2
      else
        let m : MemAt := .keyed (keyAsk p.key) p.va
        let last := s2.lastHost c m p.payload.length (.pkt ref)
        match s2.writeAt c m 0 p.payload (.pkt ref) with
        | (.data _, s3) => (s3.noteWrote x.conn last).putDone c ref x
        | (.wait, s3) => s3
        | (m, s3) => s3.targetAnswer c ref m (keyAsk p.key) p.va 2 p.srcEp

/-- A put packet, or a multicast copy, that Solder has released: void ones place nothing; one with IMM needs room in its ring,
and a function that can master (R438). -/
def State.takePut (s : State) (c ref : Nat) (x : PktRef) (h : Half) : State :=
  let p := x.pkt
  let live := p.imm && (s.cq h.notifyCn).state != .unused
  if live && !s.canMaster h.func && !s.adapterHalted then s.heldRefuse c ref h.func
  else if live && !s.cqRoom h.notifyCn then s
  else if p.void then (if s.mayWriteFor x then s.putDone c ref x else s)
  else match h.coll with
    | some id => s.bufferPut c ref x id
    | none => s.placePut c ref x h

/-! ## Responses -/

/-- Can the responder form its response? Its Endpoint Table leads to the requester, and its route tables to the device (Table
8-10). -/
def State.returnPath (s : State) (h : Half) (p : Packet) : Option (Nat × Nat) × State :=
  match s.resolve p.srcEp with
  | (some (dn, f), s1) => (if s1.routable dn h.tc then some (dn, f) else none, s1)
  | (none, s1) => (none, s1)

/-- The block of a response: requester, path, length, domain, key, address, the request's number, and a result. -/
def respBlock (h : Half) (p : Packet) (len : Nat) (result : List Byte) : List Byte :=
  zeroBytes 8 ++ leBytes 3 p.srcEp ++ leBytes 1 (h.tc * 16 + h.chan) ++ zeroBytes 4 ++ leBytes 4 len ++ leBytes 2 p.iso ++
  zeroBytes 2 ++ leBytes 4 p.key ++ zeroBytes 4 ++ leBytes 8 p.va ++ zeroBytes 8 ++ leBytes 4 p.seq.toNat ++ zeroBytes 4 ++
  byteSlice result 0 8

/-- A response takes an operation slot; none without a free one. -/
def State.startResponse (s : State) (r kind n : Nat) (dest : Nat × Nat) (seq : BitVec 32) (block : List Byte) : Option State :=
  let c := r / 16384
  (s.takeSlot c kind 0 (.response r seq) block).map fun (k, s1) =>
    let (lim, s2) := if dest.1 == s1.ownDn then (none, s1) else s1.limOf (c / 4) r
    s2.setOp k { s2.op k with n := n, dstDn := dest.1, dstFunc := dest.2, conn := some r, lim := lim }

/-- Is a response to a request already under way? -/
def State.responding (s : State) (r : Nat) (seq : BitVec 32) : Bool :=
  s.ops.any fun e => e.2.isOpen && e.2.origin == .response r seq

/-- The outstanding rendezvous SEND whose buffer a get reads (R276): its queue and the serial of its entry. A SEND is one when its
entry has started and its request has been sent. -/
def State.rdvSend (s : State) (r key va : Nat) : Option (Nat × Nat) :=
  let taken (qn n : Nat) : Bool := s.ops.any fun e =>
    e.2.kind == kGetResp && (e.2.isOpen || !e.2.delivered) && leAt e.2.block 64 8 == qn + 1 && leAt e.2.block 72 8 == n
  (s.queuesOfConn r).findSome? fun qn =>
    let q := s.queue qn
    if q.rq then none else
    (q.outstanding.find? fun e => e.started && weOp e.bytes == 5 && !weIsInline e.bytes &&
      keyAsk key == (if weDefkeys e.bytes then (s.half r).localAsk else weLask e.bytes) && weLaddr e.bytes == va &&
      !taken qn e.serial).map fun e => (qn, e.serial)

/-- GET_REQ (R211, R213, R276): its checks, then a response whose packets are formed by PACKET_FORM. -/
def getReq (c ref : Nat) (s : State) : State :=
  s.withPacket c ref (fun _ p => p.op == opGetReq) fun x h s =>
    let p := x.pkt
    let r := x.conn
    if p.void then s.consumed c ref
    else if s.responding r p.seq then s
    else match s.keyRefuses c h p .read with
      | (some (code, detail), s1) => s1.refuseFinal c ref code detail
      | (none, s1) =>
        if h.maxLen < p.aux then s1.refuseFinal c ref 0x0B 4
        else match s1.returnPath h p with
          | (none, s2) => s2.refuseFinal c ref 0x0B 7
          | (some dest, s2) =>
            let link := match s2.rdvSend r p.key p.va with
              | some (qn, n) => leBytes 8 (qn + 1) ++ leBytes 8 n
              | none => []
            match s2.startResponse r kGetResp (packetsOf p.aux 4096) dest p.seq (respBlock h p p.aux [] ++ link) with
            | some s3 => s3
            | none => s2

/-! ## Atomics (R212) -/

/-- The new value of an atomic on n bits (Table 4-7). -/
def atomicNew (op n old x cmp : Nat) : Nat :=
  let lt (a b : Nat) : Bool := decide (toSigned n a < toSigned n b)
  match op with
  | 0 => (old + x) % 2 ^ n
  | 1 => x
  | 2 => if old == cmp then x else old
  | 3 => old &&& x
  | 4 => old ||| x
  | 5 => old ^^^ x
  | 6 => if lt x old then x else old
  | 7 => if lt old x then x else old
  | 8 => min old x
  | _ => max old x

/-- A tag for a request to a host, which is then outstanding until its completion or its timeout (R436). -/
def State.newRead (s : State) (why : ReadFor) (f : Nat) : Nat × State :=
  let t := s.host.nextTag
  let deadline := s.locIn ((s.func f).cplTimeout * ticksPerUs)
  (t, { s with host := { s.host with nextTag := t + 1, reads := s.host.reads.set none t (some ⟨why, f, deadline, s.loc⟩) } })

/-- The response to an atomic whose access has been performed: the request is consumed (R219). -/
def State.amoAnswer (s : State) (c ref : Nat) (x : PktRef) (h : Half) (old : Nat) : State :=
  let p := x.pkt
  let w := nbit p.aux 4
  match s.returnPath h p with
  | (none, s1) => s1.refuseFinal c ref 0x0B 7
  | (some dest, s1) =>
    match s1.startResponse x.conn kAmoResp 1 dest p.seq (respBlock h p 0 (amoField w old)) with
    | some s2 => s2.answer c ref .consumed 0 0 false
    | none => s1

/-- Can a host page not carry an atomic of a function: an operation that is no AtomicOp, or a function that may not issue one (R212)? -/
def State.noAtomicOp (s : State) (op f : Nat) : Bool := decide (2 < op) || !(s.func f).atomicEn

/-- Does an atomic whose leaf refuses it lie on a host page that could not carry it, which is decided first (Table 8-9, step 8)? -/
def State.hostRefuses (s : State) (c : Nat) (p : Packet) : Bool :=
  let ask := keyAsk p.key
  match (s.tlbLookup c .none ask p.va).1 with
  | some e => !e.hbm && s.noAtomicOp (p.aux % 16) (askFunc (s.askOf c ask).1)
  | none => false

/-- An atomic on its place: performed at once in HBM; on a host page carried as an AtomicOp, which its function must be able to
issue (R212). -/
def State.amoAt (s : State) (c ref : Nat) (x : PktRef) (h : Half) (pc : Piece) : State :=
  let p := x.pkt
  let op := p.aux % 16
  let w := nbit p.aux 4
  let n := if w then 4 else 8
  let operand := beNat (byteSlice p.payload 0 n)
  let cmp := beNat (byteSlice p.payload 8 n)
  if pc.hbm then
    let key := hbmKey pc.addr
    if s.bad key n then s.refuseFinal c ref 6 0
    else
      let old := s.mnat key n
      (s.mwrite key (leBytes n (atomicNew op (8 * n) old operand cmp))).amoAnswer c ref x h old
  else if s.noAtomicOp op pc.func then s.refuseFinal c ref 0x0B 6
  else match s.reqBar pc.func with
    | .noMaster => s.heldRefuse c ref pc.func
    | .halted => s.answer c ref .returned 0 0 false
    | .none =>
      s.whenAwake pc.func fun s =>
        let (t, s1) := s.newRead (.atomic c ref) pc.func
        (s1.setPktRef c ref (some { x with busy := true })).emit
          (.hostAtomic t pc.func pc.addr op (leBytes n operand ++ (if op == 2 then leBytes n cmp else [])))

/-- AMO_REQ (R211 to R213). -/
def amoReq (c ref : Nat) (s : State) : State :=
  s.withPacket c ref (fun _ p => p.op == opAmoReq) fun x h s =>
    let p := x.pkt
    if p.void then s.consumed c ref
    else if x.busy || (s.freeSlot c).isNone then s
    else match (if x.accepted then (none, s) else s.keyRefuses c h p .atomic) with
      | (some (code, detail), s1) => s1.refuseFinal c ref code detail
      | (none, s1) =>
        if p.va % (if nbit p.aux 4 then 4 else 8) != 0 then s1.refuseFinal c ref 0x0B 5
        else if 10 ≤ p.aux % 16 then s1.refuseFinal c ref 0x0B 6
        else match s1.returnPath h p with
          | (none, s2) => s2.refuseFinal c ref 0x0B 7
          | (some _, s2) =>
            let x := { x with accepted := true }
            let s3 := s2.setPktRef c ref (some x)
            match s3.locateOne c (.keyed (keyAsk p.key) p.va) 0 .atomic (.pkt ref) with
            | (.at_ (pc :: _), s4) => s4.amoAt c ref x h pc
            | (.stop st cause level off, s4) =>
              if cause == 6 && s4.hostRefuses c p then s4.refuseFinal c ref 0x0B 6
              else s4.targetAnswer c ref (.stop st cause level off) (keyAsk p.key) p.va 3 p.srcEp
            | (_, s4) => s4

/-! ## Responses at the requester (R112, R113) -/

/-- The open operation of a kind on a half whose request has a number. -/
def State.requester (s : State) (r kind : Nat) (seq : BitVec 32) : Option Nat :=
  (s.ops.find? fun e => e.2.isOpen && e.2.kind == kind && e.2.conn == some r && bSeq e.2.block == seq).map (·.1)

/-- Where a get places (Table 4-6). -/
def getDest (b : List Byte) : MemAt :=
  if bSrc b % 4 == 1 then .hbm (bVaA b) else .far (bKeyA b % 2 ^ 20) (bVaA b)

/-- A response has come for a get or an atomic that is no longer open (R112). -/
def State.lateResponse (s : State) : State := { s with net := { s.net with late := s.net.late + 1 } }

/-- GET_RESP: its bytes are placed; the get completes when all are. A response for a get that is no longer open is discarded and
counted (R112); a get whose destination is the library's scratch byte places nothing that anyone sees (R275). -/
def getResp (c ref : Nat) (s : State) : State :=
  s.withPacket c ref (fun _ p => p.op == opGetResp) fun x _ s =>
    let p := x.pkt
    let n := p.payload.length
    match (if p.void then none else s.requester x.conn kGet (BitVec.ofNat 32 p.aux)) with
    | none => if s.mayWriteFor x then (if p.void then s else s.lateResponse).consumed c ref else s
    | some k =>
      let o := s.op k
      if bLen o.block < p.va + n || o.placed.contains (p.va, n) then s.consumed c ref
      else if !s.mayWriteFor x then s
      else
        let placed (s : State) : State :=
          let o1 := { s.op k with bytes := o.bytes + n, placed := (p.va, n) :: o.placed }
          let s1 := (s.setOp k o1).consumed c ref
          if o1.bytes == bLen o.block then s1.complete k 0 else s1
        if nbit o.flags 7 then placed s
        else
          let m := getDest o.block
          let last := s.lastHost c m n (.op k)
          match s.writeAt c m p.va p.payload (.op k) with
          | (.data _, s1) => placed (s1.noteWrote x.conn last)
          | (.wait, s1) => s1
          | (.noMaster f, s1) => s1.heldRefuse c ref f
          | (m, s1) => match m.localStatus s1 with
            | (some st, s2) =>
              let (code, detail) := outcomeOfStatus st 0
              (s2.completeMoved k m st).answer c ref (if code == 0xFF then .returned else .final) code detail false
            | (none, s2) => s2

/-- AMO_RESP: the old value is in RESULT, sign-extended when W is set; for a work entry it is written at WE_LADDR first (R113,
R155). The block of such an operation keeps ASK and address behind it. -/
def amoResp (c ref : Nat) (s : State) : State :=
  s.withPacket c ref (fun _ p => p.op == opAmoResp) fun x _ s =>
    let p := x.pkt
    match (if p.void then none else s.requester x.conn kAmo (BitVec.ofNat 32 p.aux)) with
    | none => if s.mayWriteFor x then (if p.void then s else s.lateResponse).consumed c ref else s
    | some k =>
      if !s.mayWriteFor x then s else
      let o := s.op k
      let w := nbit (leAt o.block 16 1) 4
      let n := if w then 4 else 8
      let old := beNat (byteSlice p.payload 0 n)
      let done (s : State) : State :=
        (s.consumed c ref).completeWith k 0 (if w then sext32 old else w64 old) o.bytes
      match o.origin with
      | .work _ _ =>
        let m : MemAt := .far (leAt o.block 64 4) (leAt o.block 72 8)
        let last := s.lastHost c m n (.op k)
        match s.writeAt c m 0 (leBytes n old) (.op k) with
        | (.data _, s1) => done (s1.noteWrote x.conn last)
        | (.wait, s1) => s1
        | (.noMaster f, s1) => s1.heldRefuse c ref f
        | (m, s1) => match m.localStatus s1 with
          | (some st, s2) =>
            let (code, detail) := outcomeOfStatus st 0
            (s2.completeMoved k m st).answer c ref (if code == 0xFF then .returned else .final) code detail false
          | (none, s2) => s2
      | _ => done s

/-! ## FLUSH (R227, R228) -/

/-- The proof is taken: the flush is consumed, and its FLUSH_PROOF sent at once. -/
def State.prove (s : State) (c ref : Nat) (x : PktRef) : State :=
  let r := x.conn
  let p := x.pkt
  let s1 := s.setRx r { (s.half r).rx with proof := some (p.seq, s.ft), wrote := none }
  (s1.answer c ref .consumed 0 0 false).sendAck r
    { kind := 2, seq := p.seq, tx := p.stamp, rx := x.rxFt, hold := p.holdover || x.rxHold, proof := s.ft.toNat }

/-- FLUSH_PROOF: every earlier packet of the stream is consumed; if it has written host memory since its last proof, a
zero-length read proves the writes. -/
def flushProof (c ref : Nat) (s : State) : State :=
  s.withPacket c ref (fun _ p => p.op == opFlush) fun x h s =>
    if x.busy then s
    else if x.pkt.void then s.consumed c ref
    else if h.rx.e != x.pkt.seq then s
    else match h.rx.wrote with
      | none => s.prove c ref x
      | some a => match s.reqBar h.func with
        | .noMaster => s.heldRefuse c ref h.func
        | .halted => s.answer c ref .returned 0 0 false
        | .none => s.whenAwake h.func fun s =>
          let (t, s1) := s.newRead (.flush x.conn x.pkt.seq) h.func
          (s1.setPktRef c ref (some { x with busy := true })).hostRead t h.func a 0

/-! ## Completions from the host (R435, R436) -/

/-- An outstanding request ends. -/
def State.dropTag (s : State) (t : Nat) : State := { s with host := { s.host with reads := s.host.reads.set none t none } }

/-- The packet whose flush a read proves. -/
def State.flushRef (s : State) (r : Nat) (seq : BitVec 32) : Option Nat := ((s.half r).rx.released.find? (·.1 == seq)).map (·.2)

/-- The end of an outstanding request: 0 well, with the old value of an atomic; 1 by an error completion; 2 by timeout. A flush or
an atomic that ends badly is refused MEM_POISON (Table 18-5). -/
def State.hostDone (s : State) (t st : Nat) (data : List Byte) : State :=
  match s.host.reads.get none t with
  | none => s
  | some rd =>
    let s1 := ((s.dropTag t).hostErr rd.func st).histTime 12 (s.pfOf rd.func) rd.at_
    match rd.why with
    | .flush r seq =>
      let c := r / 16384
      match s1.flushRef r seq with
      | none => s1
      | some ref => match s1.pktRef c ref with
        | none => s1
        | some x => if st == 0 then s1.prove c ref x else s1.refuseFinal c ref 6 0
    | .atomic c ref => match s1.pktRef c ref with
      | none => s1
      | some x =>
        if st != 0 then s1.refuseFinal c ref 6 0
        else s1.amoAnswer c ref x (s1.half x.conn) (leNat (data.take (if nbit x.pkt.aux 4 then 4 else 8)))
    | _ => s1

/-- Is the outstanding request of a tag an AtomicOp? -/
def State.isAtomicTag (s : State) (t : Nat) : Bool :=
  match s.host.reads.get none t with
  | some rd => match rd.why with
    | .atomic _ _ => true
    | _ => false
  | none => false

/-- READ_COMPLETION (R435): also of a request issued before an adapter halt (R192); nothing in the safe state (R450). -/
def readCompletion (t st : Nat) (data : List Byte) (s : State) : State :=
  if s.inSafe || s.isAtomicTag t then s else s.hostDone t (min st 1) data

/-- ATOMICOP_COMPLETION (R212): it waits for a slot that its response can take. -/
def atomicopCompletion (t st : Nat) (data : List Byte) (s : State) : State :=
  if s.inSafe || !s.isAtomicTag t then s
  else match s.host.reads.get none t with
    | some rd => match rd.why with
      | .atomic c _ => if st == 0 && (s.freeSlot c).isNone then s else s.hostDone t (min st 1) data
      | _ => s
    | none => s

/-- COMPLETION_TIMEOUT (R436). -/
def completionTimeout (t : Nat) (s : State) : State :=
  match s.host.reads.get none t with
  | some rd => if s.locReached rd.deadline && !s.inSafe then s.hostDone t 2 [] else s
  | none => s

/-! ## The commands -/

/-- GET_REQ (R211). -/
def execGetReq (c ref : Nat) (s : State) : Host.Outcome State Fault Refusal := .next (getReq c ref s)
/-- GET_RESP (R112). -/
def execGetResp (c ref : Nat) (s : State) : Host.Outcome State Fault Refusal := .next (getResp c ref s)
/-- AMO_REQ (R212). -/
def execAmoReq (c ref : Nat) (s : State) : Host.Outcome State Fault Refusal := .next (amoReq c ref s)
/-- AMO_RESP (R113). -/
def execAmoResp (c ref : Nat) (s : State) : Host.Outcome State Fault Refusal := .next (amoResp c ref s)
/-- FLUSH_PROOF (R227). -/
def execFlushProof (c ref : Nat) (s : State) : Host.Outcome State Fault Refusal := .next (s.live (flushProof c ref))
/-- READ_COMPLETION (R435). -/
def execReadCompletion (tag st : Nat) (data : List Byte) (s : State) : Host.Outcome State Fault Refusal :=
  .next (readCompletion tag st data s)
/-- ATOMICOP_COMPLETION (R212). -/
def execAtomicopCompletion (tag st : Nat) (data : List Byte) (s : State) : Host.Outcome State Fault Refusal :=
  .next (atomicopCompletion tag st data s)
/-- COMPLETION_TIMEOUT (R436). -/
def execCompletionTimeout (tag : Nat) (s : State) : Host.Outcome State Fault Refusal := .next (completionTimeout tag s)

end Sys2Proof.Machine
end

