-- ==== Sys2Proof/Machine/MatchServer.lean ====
section
/-! DEFINITION. Machine/MatchServer.lean: the match servers of the standard library: messages that arrive, receives, buffer
blocks and records, forwarding between homes, and the rendezvous (chapter 11). What a server does is done on the state itself, in
the order in which it pops the items of its match FIFO (log entry 59). -/
namespace Sys2Proof.Machine

/-! ## Records and blocks (R266) -/

/-- A free buffer block of a cluster: the lowest. -/
def State.freeBlock (s : State) (home : Nat) : Option Nat :=
  let used (b : Nat) : Bool := s.mtch.recs.any fun r => r.1 / 2 ^ 20 == home && match r.2 with
    | some u => u.block == some b
    | none => false
  firstBelow (s.fd F.CLU_MATCH_UBUF_BLOCKS_BLOCKS [home]) (!used ·)

/-- The key of a free record of a cluster: the lowest. -/
def State.freeRec (s : State) (home : Nat) : Nat :=
  2 ^ 20 * home + (firstBelow (2 ^ 20) fun n => (s.urec (2 ^ 20 * home + n)).isNone).getD 0

/-- Where a buffer block stands. -/
def State.blockKey (s : State) (home b : Nat) : Nat := hbmKey (s.fd F.CLU_MATCH_UBUF_BASE_BASE [home] * 4096 + b * 4096)

/-- The record that a packet is being copied for. -/
def State.recOf (s : State) (c ref : Nat) : Option (Nat × UnexpRec) :=
  s.mtch.recs.findSome? fun r => match r.2 with
    | some u => if u.ref == some (c, ref) && u.st == 0 then some (r.1, u) else none
    | none => none

/-- The receive that a packet has met. -/
def State.metBy (s : State) (c ref : Nat) : Option (Nat × Nat) :=
  (s.mtch.matched.find? fun m => m.cluster == c && m.ref == ref).map fun m => (m.qn, m.serial)

/-- The place that the receive which a packet has met had in its list. -/
def State.metOrd (s : State) (c ref : Nat) : Nat :=
  ((s.mtch.matched.find? fun m => m.cluster == c && m.ref == ref).map (·.ord)).getD 0

/-- A packet's meeting is over. -/
def State.unmeet (s : State) (c ref : Nat) : State :=
  { s with mtch := { s.mtch with matched := s.mtch.matched.filter fun m => !(m.cluster == c && m.ref == ref) } }

/-- A receive that met a VOID record is posted again (R272). -/
def State.repost (s : State) (qn serial : Nat) : State :=
  match (s.queue qn).entry serial with
  | some e => s.postOrWait qn e
  | none => s

/-- A receive whose message was not consumed comes back: it meets the oldest unexpected message that it matches, or stands in its list
where it stood, so that the order of the receives is kept (R269; DESIGN CHOICE, log entry 114). -/
def State.comeBack (s : State) (qn serial ord : Nat) : State :=
  match (s.queue qn).entry serial with
  | some e => (s.postRecv qn e (some ord) 8193).2
  | none => s

/-- The context of a message, once consumed, is claimed by the function of its half (R264). -/
def State.claimFor (s : State) (x : PktRef) : State := s.claim (x.pkt.key / 2 ^ 16 % 2 ^ 15) (s.half x.conn).func

/-! ## What a server pops (R267) -/

/-- What an item of a match FIFO asks of the server: a message or a receive of its own cluster, or one that a cluster forwarded. -/
inductive Want
  | pkt (ref seq : Nat)
  | work (qn idx : Nat)
  | fmsg (c ref : Nat)
  | frecv (c qn idx : Nat)
deriving DecidableEq, Repr

/-- What an item asks; none for an unrelated one: a packet that is not the first of a send, an ACK item, and any other (DESIGN CHOICE,
log entry 59). -/
def itemWant (it : Item) : Option Want :=
  let b := it.body
  match it.ty with
  | 0x10 => if leAt b 18 1 == opSend && nbit (leAt b 57 1) 0 then some (.pkt (leAt b 0 4) (leAt b 12 4)) else none
  | 0x02 => if leAt b 57 1 == 0x20 then some (.work (leAt b 0 4) (leAt b 8 2)) else none
  | 0x90 => some (.fmsg it.srcCluster (leAt b 0 4))
  | 0x91 => some (.frecv it.srcCluster (leAt b 0 4) (leAt b 8 2))
  | _ => none

/-- Does an item that asks for something stand in FIFO 3 of a cluster, committed or at the write port? -/
def State.stands (s : State) (c : Nat) (w : Want) : Bool :=
  let x := s.fifo (4 * c + 3)
  let is (it : Item) : Bool := itemWant it == some w
  x.bank0.items.any is || x.bank1.items.any is || x.writing.any fun v => is v.item

/-- A receive kept by its server for want of room; it has started and is counted (R267, R280). -/
def State.keepRecv (s : State) (qn : Nat) (e : OutEntry) : State :=
  let s1 := (s.markStarted qn e.serial).bump R.CLU_MATCH_REFUSE_COUNT [s.homeOf (entryCtx e.bytes)]
  { s1 with mtch := { s1.mtch with kept := s1.mtch.kept ++ [(qn, e.serial)] } }

/-- May the function of a queue use a context (R264)? -/
def State.ctxOpen (s : State) (ctx f : Nat) : Bool := !(s.mctx ctx).claimed || (s.mctx ctx).func == f

/-- The server pops an item at the head that no command of its own is waited for: one whose message or receive is gone, a receive of a
held queue, which it keeps, and one that must wait for the entries before it. None where the item's own command is to come. -/
def State.passOver (s : State) (c : Nat) (w : Want) : Option State :=
  match w with
  | .pkt ref seq =>
    match s.pktRef c ref with
    | some x => if x.pkt.seq.toNat == seq && (s.metBy c ref).isNone && (s.recOf c ref).isNone then none else some s
    | none => some s
  | .work qn idx =>
    let q := s.queue qn
    match q.outstanding.find? fun e => e.idx == idx && !e.started with
    | none => some s
    | some e =>
      if q.startable idx != some e then some s
      else if s.recvHeld qn && s.ctxOpen (entryCtx e.bytes) q.func then some (s.keepRecv qn e)
      else none
  | .fmsg c' ref => if s.mtch.fwd.any fun f => f.1 == c' && match f.2 with
      | .msg _ r => r == ref
      | .recv .. => false
    then none else some s
  | .frecv c' qn idx => if s.mtch.fwd.any fun f => f.1 == c' && match f.2 with
      | .recv _ q n => q == qn && (((s.queue qn).entry n).map (·.idx)) == some idx
      | .msg .. => false
    then none else some s

/-- The server of a cluster pops, in head order, until it has what is asked for; unrelated items go on to FIFO 0 of its cluster, and wait
for room there. True when it has popped the item, or the item is not in the FIFO, or the FIFO is not the server's. The number bounds
the items. -/
def State.serveUpTo (s : State) (c : Nat) (w : Want) : Nat → Bool × State
  | 0 => (false, s)
  | f + 1 =>
    if !s.wfPolled (4 * c + 3) || !s.stands c w then (true, s)
    else match s.wfTake (4 * c + 3) with
      | none => (false, s)
      | some (it, s1) => match itemWant it with
        | some v =>
          if v == w then (true, s1)
          else match s1.passOver c v with
            | some s2 => s2.serveUpTo c w f
            | none => (false, s)
        | none => match s1.wfStart (4 * c) true { it with src := 3, srcCluster := c } with
          | some s2 => s2.serveUpTo c w f
          | none => (false, s)

/-- The server of a cluster comes to an item. -/
def State.serve (s : State) (c : Nat) (w : Want) : Bool × State :=
  let x := s.fifo (4 * c + 3)
  s.serveUpTo c w ((x.bank x.drain).items.length + 1)

/-! ## Forwarding (R267) -/

/-- Does something for the same home wait in the overflow list of a cluster? -/
def Fwd.home : Fwd → Nat
  | .msg h _ => h
  | .recv h _ _ => h

/-- The overflow list of a cluster. -/
def State.overflow (s : State) (c : Nat) : List Fwd := s.mtch.overflow.get [] c
/-- The overflow list replaced. -/
def State.setOverflow (s : State) (c : Nat) (l : List Fwd) : State :=
  { s with mtch := { s.mtch with overflow := s.mtch.overflow.set [] c l } }

/-- An item goes to the match FIFO of its home, if that has room. -/
def State.forwardItem (s : State) (c home ty : Nat) (body : List Byte) : Option State :=
  s.wfStart (4 * home + 3) true
    { ty := ty, len := 2, prio := 4, src := if home == c then 3 else 4, srcCluster := c, commitNs := 0, body := body }

/-- Something forwarded, until its home takes it; and no longer. -/
def State.onWay (s : State) (c : Nat) (f : Fwd) : State := { s with mtch := { s.mtch with fwd := s.mtch.fwd ++ [(c, f)] } }
def State.offWay (s : State) (c : Nat) (f : Fwd) : State := { s with mtch := { s.mtch with fwd := s.mtch.fwd.erase (c, f) } }

/-- What a forward comes to: done, put on the overflow list, or no room there either. -/
inductive FwdRes
  | sent (s : State)
  | listed (s : State)
  | full

/-- A forward, behind what waits for the same home. -/
def State.forward (s : State) (c : Nat) (f : Fwd) (ty : Nat) (body : List Byte) : FwdRes :=
  let l := s.overflow c
  match (if l.any fun x => x.home == f.home then none else s.forwardItem c f.home ty body) with
  | some s1 => .sent (s1.onWay c f)
  | none => if l.length < 4096 then .listed (s.setOverflow c (l ++ [f])) else .full

/-- Words 0 and 1 of the item of a fetched receive. -/
def State.recvBody (s : State) (qn : Nat) (e : OutEntry) : List Byte := workWord qn (s.queue qn) e.idx ++ e.bytes

/-! ## A message at its home (R270 to R274, R280) -/

/-- A message is refused for want of room (R280). -/
def State.matchRefuse (s : State) (home c ref : Nat) : State := (s.bump R.CLU_MATCH_REFUSE_COUNT [home]).refuseNow c ref 0x0C

/-- The record of a message. -/
def recOfPkt (x : PktRef) (rdv : Bool) (block : Option Nat) (ref : Nat × Nat) (waiter : Option (Nat × Nat)) : UnexpRec :=
  let p := x.pkt
  { conn := x.conn, src := p.srcEp, tag := p.va, hdata := p.aux
    len := if rdv then beNat (byteSlice p.payload 4 4) else p.payload.length
    block := block
    desc := if rdv then some (beNat (byteSlice p.payload 0 4), beNat (byteSlice p.payload 4 4), beNat (byteSlice p.payload 8 8))
      else none
    st := if rdv then 1 else 0, waiter := waiter, ref := if rdv then none else some ref }

/-- A message meets the posted list of its context, which no other function has claimed. An eager one needs a buffer block first; one
that a receive matches is copied next, and any other is copied into its block next. A rendezvous request is consumed with its record
written. -/
def State.meet (s : State) (c ref home ctx : Nat) (rdv : Bool) (x : PktRef) : State :=
  let p := x.pkt
  if !s.ctxOpen ctx (s.half x.conn).func then s.refuseFinal c ref 0x0B 0x11 else
  let block := if rdv then none else s.freeBlock home
  if !rdv && block.isNone then s.matchRefuse home c ref else
  let key := s.freeRec home
  let ord := (((s.mctx ctx).posted.find? fun e => e.fits p.srcEp p.va).map (·.ord)).getD 0
  match s.unitMatch home ctx p.srcEp p.va key with
  | (.full, s1) => s1.matchRefuse home c ref
  | (.appended, s1) =>
    let s2 := s1.setUrec key (some (recOfPkt x rdv block (c, ref) none))
    if rdv then (s2.claimFor x).consumed c ref else s2
  | (.matched rr, s1) =>
    let qn := rr % 2 ^ 18
    let s2 := s1.postAllWaiting ctx
    match (s2.queue qn).outstanding.find? (·.idx == rr / 2 ^ 18) with
    | none => s2.consumed c ref
    | some e =>
      if rdv then ((s2.setUrec key (some (recOfPkt x true none (c, ref) (some (qn, e.serial))))).claimFor x).consumed c ref
      else { s2 with mtch := { s2.mtch with matched := s2.mtch.matched ++ [⟨c, ref, qn, e.serial, ord⟩] } }

/-- A message that has arrived, once its server has popped it: its form, and its way to its home (R264, R267, R273, R274). One of a half
that is steered elsewhere is forwarded by the handler that runs it (R268). -/
def State.arrive (s : State) (c ref : Nat) (x : PktRef) (h : Half) : State :=
  let p := x.pkt
  let w := p.key / 2 ^ 16
  let rdv := nbit w 15
  let ctx := w % 2 ^ 15
  let home := s.homeOf ctx
  if (s.overflow c).contains (.msg home ref) then s
  else if s.mtch.fwd.contains (c, .msg home ref) then
    let (ok, s1) := s.serve home (.fmsg c ref)
    if ok then (s1.offWay c (.msg home ref)).meet c ref home ctx rdv x else s1
  else
  let (ok, s) := if h.fifo == 3 then s.serve c (.pkt ref p.seq.toNat) else (true, s)
  if !ok then s
  else if rdv && (p.payload.length != 16 || beNat (byteSlice p.payload 4 4) == 0) then s.refuseFinal c ref 0x0B 0x10
  else if rdv && decide (h.maxLen < beNat (byteSlice p.payload 4 4)) then s.refuseFinal c ref 0x0B 4
  else if home == c && h.fifo == 3 then s.meet c ref home ctx rdv x
  else match s.forward c (.msg home ref) 0x90 (pktItem h p ref x.rxFt).body with
    | .sent s1 => s1
    | .listed s1 => s1
    | .full => s.matchRefuse home c ref

/-- A matched message is copied into its receive's buffer, and the receive completes (R272, R278). A function that cannot master
has the message refused for now, and the receive comes back (R438). -/
def State.copyMatched (s : State) (c ref : Nat) (x : PktRef) (qn serial : Nat) : State :=
  let p := x.pkt
  let q := s.queue qn
  match q.entry serial with
  | none => (s.unmeet c ref).consumed c ref
  | some e =>
    let f := (s.cq q.cn).func
    if s.adapterHalted then s
    else if !s.canMaster f then ((s.unmeet c ref).heldRefuse c ref f).comeBack qn serial (s.metOrd c ref)
    else if !s.cqRoom q.cn || !s.mayWriteFor x then s
    else
      let n := min p.payload.length (weLen e.bytes)
      let m : MemAt := .far (weLask e.bytes) (weLaddr e.bytes)
      let last := s.lastHost c m n (.pkt ref)
      let d : WorkDone := { status := 0, bytes := n, imm := p.aux, info := some p.va, src := p.srcEp
                            trunc := decide (weLen e.bytes < p.payload.length) }
      match s.writeAt c m 0 (p.payload.take n) (.pkt ref) with
      | (.data _, s1) => ((((s1.noteWrote x.conn last).unmeet c ref).workDone qn serial d).claimFor x).consumed c ref
      | (.wait, s1) => s1
      | (.noMaster f, s1) => ((s1.unmeet c ref).heldRefuse c ref f).comeBack qn serial (s.metOrd c ref)
      | (m, s1) => match m.localStatus s1 with
        | (some st, s2) =>
          let (code, detail) := outcomeOfStatus st 0
          ((s2.unmeet c ref).workDone qn serial { d with status := st, detail := m.detail, bytes := 0, trunc := false }).answer c ref
            (if code == 0xFF then .returned else .final) code detail false
        | (none, s2) => s2

/-- An unmatched message is copied into its block: its record is READY and it is consumed (R272). -/
def State.copyToBlock (s : State) (c ref key : Nat) (u : UnexpRec) (x : PktRef) : State :=
  if !s.mayWriteFor x then s else
  match u.block with
  | none => s
  | some b => (((s.mwrite (s.blockKey (key / 2 ^ 20) b) x.pkt.payload).setUrec key (some { u with st := 1, ref := none })).claimFor x).consumed c ref

/-- A message of a strict stream ends with the refusal of a lower number: its record is VOID and its block returned; a receive that
waits for it is posted again (R272), and one that it had met comes back. -/
def State.sendDoomed (s : State) (c ref : Nat) (d : Nat × Nat) : State :=
  let s1 := match s.recOf c ref with
    | some (key, u) => match u.waiter with
      | some (qn, n) => (s.setUrec key none).repost qn n
      | none => s.setUrec key (some { u with st := 2, block := none, ref := none })
    | none => s
  let s2 := match s1.metBy c ref with
    | some (qn, n) => (s1.unmeet c ref).comeBack qn n (s1.metOrd c ref)
    | none => s1
  let gone (f : Fwd) : Bool := match f with
    | .msg _ r => r == ref
    | .recv .. => false
  let s3 := { s2 with mtch := { s2.mtch with
    fwd := s2.mtch.fwd.filter fun f => !(f.1 == c && gone f.2), overflow := s2.mtch.overflow.set [] c ((s2.overflow c).filter (!gone ·)) } }
  s3.answerDoom c ref d

/-- A send packet that Solder has released. -/
def State.takeSend (s : State) (c ref : Nat) (x : PktRef) (h : Half) : State :=
  if x.pkt.void then s.consumed c ref
  else if !x.pkt.msg then s.refuseFinal c ref 0x0B 0x10
  else match s.metBy c ref with
    | some (qn, n) => s.copyMatched c ref x qn n
    | none => match s.recOf c ref with
      | some (key, u) => s.copyToBlock c ref key u x
      | none => s.arrive c ref x h

/-- PUT_PACKET: a put, a multicast copy or a send that Solder has released goes on (R211, R271). -/
def putPacket (c ref : Nat) (s : State) : State :=
  let mine (h : Half) (p : Packet) : Bool := (p.op == opPut || p.op == opMcast || p.op == opSend) && !h.isRed p
  match s.pktRef c ref with
  | none => s
  | some x =>
    if x.pkt.op == opSend && x.doom.isSome && !s.inSafe then s.sendDoomed c ref (x.doom.getD (0, 0))
    else s.withPacket c ref mine fun x h s =>
      if x.pkt.op == opSend then s.takeSend c ref x h else s.takePut c ref x h

/-! ## Receives (R264, R267, R270, R272, R275) -/

/-- What stands behind the block of an operation that serves a receive: the message's HDATA, tag, source and length, the key of its
record, and the length of the buffer. -/
def recvExt (u : UnexpRec) (key welen : Nat) : List Byte :=
  leBytes 8 u.hdata ++ leBytes 8 u.tag ++ leBytes 4 u.src ++ leBytes 4 u.len ++ leBytes 8 key ++ leBytes 4 welen

/-- The get of a rendezvous starts on the half that its request came on (R275); none without a free slot. -/
def State.getMessage (s : State) (qn : Nat) (e : OutEntry) (key : Nat) (u : UnexpRec) (rkey len va : Nat) : Option State :=
  let b := e.bytes
  let h := s.half u.conn
  let n := if weLen b == 0 then 1 else min len (weLen b)
  let block := zeroBytes 8 ++ leBytes 3 h.remoteEp ++ leBytes 1 (h.tc * 16 + h.chan) ++ zeroBytes 4 ++ leBytes 4 n ++
    leBytes 2 h.iso ++ zeroBytes 2 ++ leBytes 4 (weLask b) ++ leBytes 4 rkey ++ leBytes 8 (weLaddr b) ++ leBytes 8 va ++
    zeroBytes 16
  (s.takeSlot (u.conn / 16384) kGet (if weLen b == 0 then 128 else 0) (.rendezvous u.conn 0 qn e.serial)
    (block ++ recvExt u key (weLen b))).map fun (k, s1) =>
      startFabric k ((s1.setUrec key (some { u with st := 3 })).setOp k { s1.op k with conn := some u.conn })

/-- A receive takes its message: an eager one is copied from its block, a rendezvous one fetched by a get, which waits on the pending
list of its half while it is not admitted (R237, R272, R275). -/
def State.takeMessage (s : State) (qn : Nat) (e : OutEntry) (key : Nat) (u : UnexpRec) : State :=
  let q := s.queue qn
  let b := e.bytes
  let h := s.half u.conn
  let done (s : State) (d : WorkDone) : State :=
    if s.cqRoom q.cn then (s.setUrec key none).workDone qn e.serial { d with imm := u.hdata, info := some u.tag, src := u.src } else s
  match u.desc with
  | none =>
    let n := min u.len (weLen b)
    if n == 0 then done s { status := 0, trunc := decide (weLen b < u.len) } else
    let block := zeroBytes 8 ++ leBytes 4 n ++ [1, 0, 0, 0] ++ zeroBytes 4 ++ leBytes 4 (weLask b) ++
      leBytes 8 (s.blockKey (key / 2 ^ 20) (u.block.getD 0)) ++ leBytes 8 (weLaddr b) ++ zeroBytes 24
    match s.takeSlot q.cluster kDma 0 (.rendezvous u.conn 0 qn e.serial) (block ++ recvExt u key (weLen b)) with
    | some (k, s1) => startDma k (s1.setUrec key (some { u with st := 3 }))
    | none => s
  | some (rkey, len, va) =>
    if h.state == .error then done s h.latched
    else if h.state != .established then done s { status := 0x22 }
    else
      let who := (qn, e.serial)
      let first := h.pendingOps.isEmpty || h.pendingOps.head? == some who
      if first && s.admits u.conn 1 then
        ((s.setHalf u.conn { h with pendingOps := h.pendingOps.drop 1 }).getMessage qn e key u rkey len va).getD s
      else if h.pendingOps.contains who then s
      else s.setHalf u.conn { h with pendingOps := h.pendingOps ++ [who] }

/-- A receive that has been started goes on: the record that it has met is READY, or is VOID and the receive is posted again. -/
def State.recvGoes (s : State) (qn : Nat) (e : OutEntry) : State :=
  match s.mtch.recs.findSome? fun r => match r.2 with
      | some u => if u.waiter == some (qn, e.serial) then some (r.1, u) else none
      | none => none with
  | some (key, u) =>
    if u.st == 1 then s.takeMessage qn e key u
    else if u.st == 2 then (s.setUrec key none).repost qn e.serial
    else s
  | none => s

/-- A receive that has started is forwarded to its home; without room in the overflow list its server keeps it, and its queue is held. -/
def State.recvForward (s : State) (qn : Nat) (e : OutEntry) : State :=
  let c := (s.queue qn).cluster
  let gone (s : State) : State := { s with mtch := { s.mtch with kept := s.mtch.kept.erase (qn, e.serial) } }
  match s.forward c (.recv (s.homeOf (entryCtx e.bytes)) qn e.serial) 0x91 (s.recvBody qn e) with
  | .sent s1 => gone s1
  | .listed s1 => gone s1
  | .full => if s.mtch.kept.contains (qn, e.serial) then s else s.keepRecv qn e

/-- The receives that the server of a cluster keeps are forwarded in ring order while its overflow list has room (R267). -/
def State.keptGoOn (s : State) (c : Nat) : State :=
  (s.mtch.kept.filter fun w => (s.queue w.1).cluster == c).foldl (fun s w =>
    match (s.queue w.1).entry w.2 with
    | some e => if (s.mtch.kept.find? (·.1 == w.1)) == some w then s.recvForward w.1 e else s
    | none => { s with mtch := { s.mtch with kept := s.mtch.kept.erase w } }) s

/-- A receive that its server has popped, or that the handler of another FIFO runs: its function must be able to use its context; it is
posted at its home, or goes there (R264, R267, R268). -/
def State.recvPopped (s : State) (qn : Nat) (e : OutEntry) : State :=
  let q := s.queue qn
  let ctx := entryCtx e.bytes
  let s1 := s.markStarted qn e.serial
  if !s.ctxOpen ctx q.func then s1.workDone qn e.serial { status := 3 }
  else
    let s2 := s1.claim ctx q.func
    if s2.recvHeld qn then s2.keepRecv qn e
    else if s2.homeOf ctx == q.cluster && q.fifo == 3 && !q.handlerServed then s2.postOrWait qn e
    else s2.recvForward qn e

/-- A receive that has started: one that its home has popped is posted; one that has met a message takes it. -/
def State.recvGoesOn (s : State) (qn : Nat) (e : OutEntry) : State :=
  let c := (s.queue qn).cluster
  let home := s.homeOf (entryCtx e.bytes)
  if s.mtch.kept.contains (qn, e.serial) || (s.overflow c).contains (.recv home qn e.serial) then s
  else if s.mtch.fwd.contains (c, .recv home qn e.serial) then
    let (ok, s1) := s.serve home (.frecv c qn e.idx)
    if ok then (s1.offWay c (.recv home qn e.serial)).postOrWait qn e else s1
  else s.recvGoes qn e

/-- RECV: a receive is posted in its context, or forwarded to its home, or, once it has met a message, takes it. -/
def recv (qn idx : Nat) (s : State) : State :=
  let q := s.queue qn
  if s.adapterHalted || s.inSafe then s else
  match q.outstanding.find? fun e => e.idx == idx && e.started && weOp e.bytes == 0x20 with
  | some e => s.recvGoesOn qn e
  | none => match q.startable idx with
    | none => s
    | some e =>
      if weOp e.bytes != 0x20 || (!s.ctxOpen (entryCtx e.bytes) q.func && !s.cqRoom q.cn) then s
      else
        let (ok, s1) := if q.fifo == 3 then s.serve q.cluster (.work qn idx) else (true, s)
        if ok then s1.recvPopped qn e else s1

/-- OVERFLOW_FORWARD: the oldest item of a cluster's overflow list goes to its home once there is room; the receives that were kept
go on (R267). -/
def overflowForward (c : Nat) (s : State) : State :=
  if s.inSafe then s else
  match s.overflow c with
  | [] => s.keptGoOn c
  | f :: rest =>
    let freed (s : State) : State := (s.setOverflow c rest).keptGoOn c
    match f with
    | .msg home ref => match s.pktRef c ref with
      | none => freed s
      | some x => match s.forwardItem c home 0x90 (pktItem (s.half x.conn) x.pkt ref x.rxFt).body with
        | some s1 => freed (s1.onWay c f)
        | none => s
    | .recv home qn n => match (s.queue qn).entry n with
      | none => freed s
      | some e => match s.forwardItem c home 0x91 (s.recvBody qn e) with
        | some s1 => freed (s1.onWay c f)
        | none => s

/-- A receive completes with the operation that served it; its record and block are free again (R272, R275). -/
def State.recvDone (s : State) (o : Op) (qn serial : Nat) : State :=
  let x := o.block.drop 64
  let welen := leAt x 32 4
  let st := o.status.getD 0
  let s1 := s.setUrec (leAt x 24 8) none
  s1.workDone qn serial
    { status := st, detail := if st == 0x0B then o.result.toNat % 256 else if st == 4 then o.cause else 0
      bytes := if welen == 0 then 0 else o.bytes
      imm := leAt x 0 8, info := some (leAt x 8 8), src := leAt x 16 4
      trunc := st == 0 && decide (welen < leAt x 20 4) }

/-! ## The commands -/

/-- PUT_PACKET (R211). -/
def execPutPacket (c ref : Nat) (s : State) : Host.Outcome State Fault Refusal := .next (putPacket c ref s)
/-- RECV (R270). -/
def execRecv (qn idx : Nat) (s : State) : Host.Outcome State Fault Refusal := .next (recv qn idx s)
/-- OVERFLOW_FORWARD (R267). -/
def execOverflowForward (c : Nat) (s : State) : Host.Outcome State Fault Refusal := .next (s.synced (overflowForward c))

end Sys2Proof.Machine
end

