-- ==== Sys2Proof/Machine/Library.lean ====
section
/-! DEFINITION. Machine/Library.lean: the standard handler library at a source: work entries become operations, acknowledgements
are merged, windows move, and packets are sent again (R155, R226, R228, R232 to R238, R272, R274). -/
namespace Sys2Proof.Machine

/-! ## Work entries (R155, R157, R237, R272) -/

/-- The keys of an entry: its own, or with DEFKEYS the half's (R155). -/
def Half.laskOf (h : Half) (b : List Byte) : Nat := if weDefkeys b then h.localAsk else weLask b
def Half.rkeyOf (h : Half) (b : List Byte) : Nat := if weDefkeys b then h.remoteKey else weRkey b

/-- Is a SEND sent eager: INLINE, or no longer than the eager limit (R272)? -/
def State.isEager (s : State) (c : Nat) (b : List Byte) : Bool :=
  weIsInline b || decide (weLen b ≤ min (s.fd F.CLU_MATCH_EAGER_LIMIT [c]) 4096)

/-- Why an entry cannot be carried out: the lowest DETAIL of INVALID_ARG (Table 6-6). -/
def Half.invalidArg (h : Half) (b : List Byte) : Option Nat :=
  let op := weOp b
  let len := op == 1 || op == 2 || op == 3 || op == 5
  if op == 4 && weRaddr b % (if nbit (weFlags b) 4 then 4 else 8) != 0 then some 1
  else if (op == 1 || op == 2) && weSeal b && !h.rlx then some 2
  else if op != 6 && weDefkeys b && (h.localAsk == 0 || h.remoteKey == 0) then some 3
  else if len && decide (h.maxLen < weLen b) then some 4
  else none

/-- Bytes 8 to 23 of the block of an operation of a half (R109). -/
def Half.blockHead (h : Half) (kind len src : Nat) : List Byte :=
  leBytes 1 kind ++ zeroBytes 7 ++ leBytes 3 h.remoteEp ++ leBytes 1 (h.tc * 16 + h.chan) ++ zeroBytes 4 ++ leBytes 4 len ++
  leBytes 2 h.iso ++ leBytes 1 src ++ zeroBytes 1

/-- The kind, the flags and the block of an entry's operation. A put with IMM on a relaxed half is the channel's seal (R211). Behind
the block of a rendezvous request stands its descriptor (R274), and behind that of an AMO where the old value goes. -/
def State.workBlock (s : State) (c : Nat) (h : Half) (b : List Byte) : Nat × Nat × List Byte :=
  let lask := h.laskOf b
  let inl := b2n (weIsInline b)
  match weOp b with
  | 3 => (kGet, 0, h.blockHead 2 (weLen b) 0 ++ leBytes 4 lask ++ leBytes 4 (h.rkeyOf b) ++ leBytes 8 (weLaddr b) ++
      leBytes 8 (weRaddr b) ++ zeroBytes 16)
  | 4 => (kAmo, 0, h.blockHead 3 (weFlags b % 32) 0 ++ zeroBytes 4 ++ leBytes 4 (h.rkeyOf b) ++ leBytes 8 (weX1 b) ++
      leBytes 8 (weRaddr b) ++ leBytes 8 (weX2 b) ++ zeroBytes 8 ++ leBytes 8 lask ++ leBytes 8 (weLaddr b))
  | 5 =>
    let tail (ctx : Nat) : List Byte := leBytes 2 ctx ++ zeroBytes 2 ++ leBytes 8 (weLaddr b) ++ leBytes 8 (weX1 b) ++
      leBytes 4 (weImm b) ++ zeroBytes 4 ++ weInline b
    if s.isEager c b then (kSend, 0, h.blockHead 4 (weLen b) inl ++ leBytes 4 lask ++ tail (weX2 b % 2 ^ 15))
    else (kSend, 0, h.blockHead 4 16 3 ++ leBytes 4 lask ++ tail (2 ^ 15 + weX2 b % 2 ^ 15) ++
      beBytes 4 (keyOf (askGen (s.askMem lask)) lask) ++ beBytes 4 (weLen b) ++ beBytes 8 (weLaddr b))
  | 6 => (kFlush, 0, h.blockHead 5 0 0 ++ zeroBytes 40)
  | op =>
    let imm := op == 2
    let fl := b2n imm + 2 * b2n (weSeal b || (imm && h.rlx)) + 4 * b2n h.rlx
    (kPut, fl, h.blockHead 1 (weLen b) inl ++ leBytes 4 lask ++ leBytes 4 (h.rkeyOf b) ++ leBytes 8 (weLaddr b) ++
      leBytes 8 (weRaddr b) ++ leBytes 4 (if imm then weImm b else 0) ++ zeroBytes 4 ++ weInline b)

/-- Packets that an entry's operation sends. -/
def State.workPackets (s : State) (c : Nat) (b : List Byte) : Nat :=
  if weOp b == 1 || weOp b == 2 || (weOp b == 5 && s.isEager c b) then packetsOf (weLen b) 4096 else 1

/-- An entry's operation starts on its half; none without a free slot. -/
def State.launch (s : State) (qn r : Nat) (e : OutEntry) : Option State :=
  let c := r / 16384
  let (kind, fl, block) := s.workBlock c (s.half r) e.bytes
  (s.takeSlot c kind fl (.work qn e.serial) block).map fun (k, s1) =>
    startFabric k (s1.setOp k { s1.op k with conn := some r })

/-- An SQ entry of given opcodes is next to start (R156): it completes at once where it cannot be carried out, waits for the window,
or starts. -/
def State.sqWork (s : State) (qn idx : Nat) (is : Nat → Bool) : State :=
  let q := s.queue qn
  if s.adapterHalted then s else
  match q.startable idx with
  | none => s
  | some e =>
    if !is (weOp e.bytes) || !s.cqRoom q.cn then s else
    let b := e.bytes
    let s1 := s.markStarted qn e.serial
    let ends (d : WorkDone) : State := s1.workDone qn e.serial d
    if weOp b == 7 then ends { status := 0 }
    else match q.conn with
      | none => ends { status := 0x22 }
      | some r =>
        let h := s.half r
        if h.state == .error && (weOp b == 3 || weOp b == 4 || weOp b == 6) then ends h.latched
        else if h.state != .established then ends { status := 0x22 }
        else match h.invalidArg b with
          | some d => ends { status := 0x20, detail := d }
          | none =>
            if !h.pendingOps.isEmpty || !s.admits r (s.workPackets (r / 16384) b) then
              s1.setHalf r { h with pendingOps := h.pendingOps ++ [(qn, e.serial)] }
            else match s1.launch qn r e with
              | some s2 => s2
              | none => s

/-- How the operation of an entry ends the entry. A rendezvous SEND whose request has left stays outstanding (R276). -/
def State.workOpDone (s : State) (o : Op) (qn serial : Nat) : State :=
  let st := o.status.getD 0
  match (s.queue qn).entry serial with
  | none => s
  | some e =>
    if o.kind == kSend && o.srcKind == 3 && st == 0 then s
    else
      let bytes := if st == 0 then (if o.kind == kFlush then 0 else weLen e.bytes)
        else if o.kind == kAmo || o.kind == kFlush then 0 else o.bytes
      s.workDone qn serial { status := st, detail := if st == 0x0B then o.result.toNat % 256 else if st == 4 then o.cause else 0, bytes := bytes }

/-- A response has left: the rendezvous SEND that it served completes (R276). -/
def State.responseLeft (s : State) (o : Op) : State :=
  if o.kind != kGetResp || o.status != some 0 || leAt o.block 64 8 == 0 then s
  else
    let qn := leAt o.block 64 8 - 1
    match (s.queue qn).entry (leAt o.block 72 8) with
    | some e => s.workDone qn e.serial { status := 0, bytes := weLen e.bytes }
    | none => s

/-! ## Profiles (R238, R239) -/

def State.wMax (s : State) (h : Half) : Nat := s.fd F.SLD_WIN_LIMITS_W_MAX [h.tc]
def State.wMin (s : State) (h : Half) : Nat := min (s.fd F.SLD_WIN_LIMITS_W_MIN [h.tc]) (s.wMax h)
/-- RTO in ticks. -/
def State.rtoTicks (s : State) (h : Half) : Nat := s.fd F.SLD_WIN_RETX_RTO [h.tc] * ticksPerUs
/-- BASE_WIN in ticks. -/
def State.baseTicks (s : State) (h : Half) : Nat := s.fd F.SLD_WIN_REFUSE_BASE_WIN [h.tc] * 1000 * ticksPerUs

/-- Growth of a window by its accumulator; the number bounds its steps. -/
def growWindow : Nat → Nat → Nat → Nat × Nat
  | 0, acc, w => (acc, w)
  | f + 1, acc, w => if w * 16 ≤ acc then growWindow f (acc - w * 16) (w + 1) else (acc, w)

/-- The base delay with a new sample: the least sample of each span of a quarter of BASE_WIN, with the INV_LOCAL at which the span began,
newest first; spans that began before the last BASE_WIN are forgotten (R238; DESIGN CHOICE, log entry 149). -/
def State.baseAdd (s : State) (h : Half) (d : Nat) : List (Nat × Nat) :=
  let now := s.loc.toNat
  match h.base.filter fun e => decide (now < e.1 + s.baseTicks h) with
  | [] => [(now, d)]
  | e :: old => if now < e.1 + s.baseTicks h / 4 then (e.1, min d e.2) :: old else (now, d) :: e :: old

/-- The window controller (R238). -/
def State.windowStep (s : State) (h : Half) (a : AckItem) (newly : Nat) : Half :=
  let lo := s.wMin h
  let passed := seqBelow h.cutSeq h.cum
  let h1 :=
    if a.kind == 3 && (a.code == 0x40 || a.code == 0x41) then
      if passed then { h with window := max lo (h.window / 2), cutSeq := h.txSeq } else h
    else if newly == 0 || nbit a.flags 0 then h
    else
      let d := (a.rxStamp + 2 ^ 48 - a.txStamp) % 2 ^ 48
      let base := s.baseAdd h d
      let q := d - (base.map (·.2)).foldl min d
      let t := s.fd F.SLD_WIN_CTRL_TARGET_Q [h.tc] * 4
      let h := { h with base := base }
      if q ≤ t then
        let acc := h.acc + newly * s.fd F.SLD_WIN_CTRL_AI_GAIN [h.tc]
        let (acc', w) := growWindow (acc + 1) acc h.window
        { h with acc := acc', window := w }
      else if passed then
        let cut := min (s.fd F.SLD_WIN_RETX_MD_MAX [h.tc] * q) (s.fd F.SLD_WIN_CTRL_MD_BETA [h.tc] * (q - t))
        { h with window := max lo (h.window * (256 * q - cut) / (256 * q)), cutSeq := h.txSeq }
      else h
  { h1 with window := min (max h1.window lo) (s.wMax h) }

/-! ## Acknowledgements (R213, R214, R228, R232, R235) -/

/-- The numbers that an acknowledgement covers, for a half whose cumulative point is at or past the item's. -/
def AckItem.covers (a : AckItem) (cum q : BitVec 32) : Bool :=
  seqBelow q cum || match seqAhead q (a.cum + 1) with
    | some d => decide (d < 64) && nbit a.sack d
    | none => false

/-- The put, send or multicast on a half that is still open and has a number. -/
def State.sendingOp (s : State) (r : Nat) (q : BitVec 32) : Option Nat :=
  (s.ops.find? fun e => e.2.isOpen && e.2.conn == some r && putLike e.2.kind && match seqAhead q (bSeq e.2.block) with
    | some d => decide (d < e.2.n)
    | none => false).map (·.1)

/-- A rendezvous SEND whose request has been refused too often completes RETRY_LATER (R214, Table 11-1): the oldest with the tag and
context of the request. -/
def State.failSend (s : State) (r : Nat) (p : Packet) : State :=
  if p.op != opSend then s else
  match (s.queuesOfConn r).findSome? fun qn => ((s.queue qn).outstanding.find? fun e =>
      e.started && weOp e.bytes == 5 && weX1 e.bytes == p.va && weX2 e.bytes % 2 ^ 15 == p.key / 2 ^ 16 % 2 ^ 15).map
        fun e => (qn, e.serial) with
  | some (qn, n) => if s.cqRoom (s.queue qn).cn then s.workDone qn n { status := 0x0C } else s
  | none => s

/-- A half fails by its own source: the operation that was sending completes with the status, and the half enters ERROR. -/
def State.sourceError (s : State) (r st : Nat) (q : BitVec 32) : State :=
  let s1 := match s.sendingOp r q with
    | some k => s.complete k st
    | none => s
  s1.halfError r st q 0

/-- The open get, atomic or flush of a thread on a half that has a number. -/
def State.threadReq (s : State) (r : Nat) (q : BitVec 32) : Option Nat :=
  (s.ops.find? fun e => e.2.isOpen && e.2.conn == some r && !e.2.isLib && (e.2.kind == 2 || e.2.kind == 3 || e.2.kind == 5) &&
    bSeq e.2.block == q).map (·.1)

/-- A transient refusal of a number (R214, R235). RETRY_LATER ends a get, atomic or flush of a thread with that status (R112, R113);
other codes are no status of an operation, and leave it open (DEDUCED, log entry 145). -/
def State.refused (s : State) (r : Nat) (a : AckItem) : State :=
  let h := s.half r
  match h.txRec a.seq with
  | none => match s.threadReq r a.seq with
    | some k => if a.code == 0x0C then s.complete k 0x0C else s
    | none => s
  | some x =>
    if a.code == 0x0C then
      if h.rlBudget ≤ x.retries + 1 then (s.failSend r x.pkt).sourceError r 0x0C a.seq
      else s.setTxRec r a.seq fun y =>
        { y with retries := y.retries + 1, why := 0x0C, retryAt := some (s.locIn (h.rlDelay * ticksPerUs)) }
    else
      let n := x.refusals + 1
      if s.fd F.SLD_WIN_REFUSE_REFUSE_MAX [h.tc] ≤ n then s.sourceError r 0x21 a.seq
      else
        let us := s.fd F.SLD_WIN_REFUSE_REFUSE_BACKOFF [h.tc] * min (2 ^ (n - 1)) 64
        s.setTxRec r a.seq fun y => { y with refusals := n, why := a.code, retryAt := some (s.locIn (us * ticksPerUs)) }

/-- The flushes that a proof covers complete with it (R228). -/
def State.proven (s : State) (r : Nat) (a : AckItem) : State :=
  (SMap.keysWhere (fun _ o => o.isOpen && o.kind == kFlush && o.conn == some r && o.formed == o.n && o.n != 0 &&
      (seqAhead a.seq (bSeq o.block)).isSome) s.ops).foldl
    (fun s k => (s.setOp k { s.op k with ftAux := w64 a.proof }).complete k 0) s

/-! ## Retransmission (R226, R233, R234, R235) -/

/-- A number is sent again: it takes an operation slot while its packet is formed, which its limiter is charged for unless it is a copy
of a multicast or for this device (R398). -/
def State.resend (s : State) (r : Nat) (x : TxRec) : Option State :=
  if s.ops.any fun e => e.2.isOpen && e.2.kind == kRetx && e.2.conn == some r && bSeq e.2.block == x.seq then none
  else
    let block := zeroBytes 12 ++ leBytes 4 x.seq.toNat ++ zeroBytes 4 ++ leBytes 2 x.pkt.iso ++ zeroBytes 42
    (s.takeSlot (r / 16384) kRetx 0 (.retransmit r) block).map fun (k, s1) =>
      let (lim, s2) := if x.pkt.op == opMcast || x.pkt.dstDn == s1.ownDn then (none, s1) else s1.limOf (r / 16384 / 4) r
      s2.setOp k { s2.op k with conn := some r, n := 1, lim := lim }

/-- The record of a number of a half that sends. -/
def State.sendingRec (s : State) (r seq : Nat) : Option TxRec :=
  if (s.half r).state == .established then (s.half r).txRec (BitVec.ofNat 32 seq) else none

/-- RTO: an uncovered number is sent again, and the window is cut (R233, R238). -/
def rto (r seq : Nat) (s : State) : State :=
  match s.sendingRec r seq with
  | none => s
  | some x =>
    let h := s.half r
    let kmax := min (s.fd F.SLD_WIN_RETX_RETX_MAX [h.tc]) (s.lifetime / s.rtoTicks h)
    if x.retryAt.isSome || kmax ≤ x.k || s.locSince x.firstAt < (x.k + 1) * s.rtoTicks h then s
    else match s.resend r x with
      | none => s
      | some s1 =>
        let s2 := s1.setTxRec r x.seq fun y => { y with k := y.k + 1 }
        s2.setHalf r { s2.half r with window := s.wMin h, cutSeq := h.txSeq }

/-- RETRY_EXCEEDED: a number is uncovered 3 × L after its first transmission (R234). -/
def retryExceeded (r seq : Nat) (s : State) : State :=
  match s.sendingRec r seq with
  | none => s
  | some x => if x.retryAt.isNone && 3 * s.lifetime ≤ s.locSince x.firstAt then s.sourceError r 0x21 x.seq else s

/-- A refused number whose delay has passed is sent again. -/
def State.sendRefused (s : State) (r seq : Nat) (is : Nat → Bool) : State :=
  match s.sendingRec r seq with
  | none => s
  | some x => match x.retryAt with
    | none => s
    | some t => if is x.why && s.locReached t then (s.resend r x).getD s else s

/-- RL_RETRY: RL_DELAY has passed since RETRY_LATER (R214). -/
def rlRetry (r seq : Nat) (s : State) : State := s.sendRefused r seq (· == 0x0C)
/-- REFUSE_BACKOFF: the backoff after REORDER_FULL or SLOT_CLOSED has passed (R235). -/
def refuseBackoff (r seq : Nat) (s : State) : State := s.sendRefused r seq (· != 0x0C)

/-! ## The commands -/

/-- PUT (R155). -/
def execPut (qn idx : Nat) (s : State) : Host.Outcome State Fault Refusal := .next (s.sqWork qn idx (· == 1))
/-- PUT_IMM (R155). -/
def execPutImm (qn idx : Nat) (s : State) : Host.Outcome State Fault Refusal := .next (s.sqWork qn idx (· == 2))
/-- GET (R155). -/
def execGet (qn idx : Nat) (s : State) : Host.Outcome State Fault Refusal := .next (s.sqWork qn idx (· == 3))
/-- AMO (R155). -/
def execAmo (qn idx : Nat) (s : State) : Host.Outcome State Fault Refusal := .next (s.sqWork qn idx (· == 4))
/-- SEND (R272). -/
def execSend (qn idx : Nat) (s : State) : Host.Outcome State Fault Refusal := .next (s.sqWork qn idx (· == 5))
/-- FLUSH (R155). -/
def execFlush (qn idx : Nat) (s : State) : Host.Outcome State Fault Refusal := .next (s.sqWork qn idx (· == 6))
/-- NOP (R167). -/
def execNop (qn idx : Nat) (s : State) : Host.Outcome State Fault Refusal := .next (s.sqWork qn idx (· == 7))
/-- RTO (R233). -/
def execRto (conn seq : Nat) (s : State) : Host.Outcome State Fault Refusal := .next (s.live (rto conn seq))
/-- RETRY_EXCEEDED (R234). -/
def execRetryExceeded (conn seq : Nat) (s : State) : Host.Outcome State Fault Refusal := .next (s.live (retryExceeded conn seq))
/-- RL_RETRY (R214). -/
def execRlRetry (conn seq : Nat) (s : State) : Host.Outcome State Fault Refusal := .next (s.live (rlRetry conn seq))
/-- REFUSE_BACKOFF (R235). -/
def execRefuseBackoff (conn seq : Nat) (s : State) : Host.Outcome State Fault Refusal := .next (s.live (refuseBackoff conn seq))

end Sys2Proof.Machine
end

