-- ==== Sys2Proof/Machine/Collective.lean ====
section
/-! DEFINITION. Machine/Collective.lean: collectives: JOIN, LEAVE, and the phases of a RUN (R285 to R293, R309, R311 to R313). -/
namespace Sys2Proof.Machine

/-! ## The members' places (R288, R311) -/

/-- A member by its rank. -/
def Coll.mem (cl : Coll) (k : Nat) : Member := cl.members.getD k ⟨0, 0, 0, 0, 0⟩
/-- The ranks that satisfy a test, in rank order. -/
def Coll.ranks (cl : Coll) (p : Member → Bool) : List Nat := (cl.members.zipIdx.filter fun e => p e.1).map (·.2)
/-- The members of the row and of the column of a member, itself among them, in rank order. -/
def Coll.rowOf (cl : Coll) (k : Nat) : List Nat := cl.ranks fun m => m.g == (cl.mem k).g && m.r == (cl.mem k).r
def Coll.columnOf (cl : Coll) (k : Nat) : List Nat := cl.ranks fun m => m.g == (cl.mem k).g && m.c == (cl.mem k).c
/-- The members of equal row and column in every group, in group order. -/
def Coll.globalsOf (cl : Coll) (k : Nat) : List Nat :=
  sortBy (fun i => (cl.mem i).g) (cl.ranks fun m => m.r == (cl.mem k).r && m.c == (cl.mem k).c)
/-- Rounds of recursive halving among n members; those beyond the largest power of two fold onto the others (DESIGN CHOICE, log entry 61). -/
def rounds (n : Nat) : Nat := Nat.log2 n
/-- The global peers of a member: its partners in the rounds, and the one that it folds with. -/
def Coll.globalPeers (cl : Coll) (k : Nat) : List Nat :=
  let gs := cl.globalsOf k
  let i := gs.idxOf k
  let m := rounds gs.length
  if 2 ^ m ≤ i then [gs.getD (i - 2 ^ m) 0]
  else (List.range (m + 1)).filterMap fun j => gs[i ^^^ 2 ^ j]?

/-- The half toward a member on a channel. -/
def State.halfTo (s : State) (cl : Coll) (k chan : Nat) : Option Nat :=
  cl.halves.find? fun r => (s.half r).remoteEp == (cl.mem k).ep && (s.half r).chan == chan

/-! ## JOIN (R288, R289) -/

/-- The model's own kind: the library takes an operation slot while it reaches memory itself. -/
def kLibMem : Nat := 0x15

/-- The member of an EPID: its device by the Endpoint Table, and the coordinate of that by the Destination Table. An endpoint
without an entry gives NO_ENDPOINT, a device without one UNREACHABLE (DEDUCED, log entry 62). -/
def State.memberAt (s : State) (ep : Nat) : Except Nat Member × State :=
  match s.resolve ep with
  | (none, s1) => (.error 0x0E, s1)
  | (some (dn, _), s1) =>
    if dn == s1.ownDn then (.ok ⟨ep, dn, s1.ownPos.g, s1.ownPos.r, s1.ownPos.c⟩, s1)
    else match s1.posOf s1.route.active dn with
      | some p => (.ok ⟨ep, dn, p.g, p.r, p.c⟩, s1)
      | none => (.error 0x0D, s1)

/-- The members of a table, in rank order; the first failure stops it. -/
def State.membersOf (s : State) : List Nat → List Member → Except Nat (List Member) × State
  | [], ms => (.ok ms.reverse, s)
  | ep :: eps, ms =>
    match s.memberAt ep with
    | (.error st, s1) => (.error st, s1)
    | (.ok m, s1) => s1.membersOf eps (m :: ms)

/-- The halves that a member needs: peer, channel, and whether it is relaxed (Table 12-4). -/
def Coll.wants (cl : Coll) : List (Nat × Nat × Bool) :=
  ((cl.rowOf cl.rank).filter (· != cl.rank)).flatMap (fun k => [(k, 0, true), (k, 2, false)]) ++
  ((cl.columnOf cl.rank).filter (· != cl.rank)).flatMap (fun k => [(k, 0, true), (k, 1, false)]) ++
  (cl.globalPeers cl.rank).flatMap (fun k => [(k, 0, true), (k, 3, true)])

/-- A collective's half: numbers from 0, the isolation domain and traffic class of the queue's connection, and its other settings
(DESIGN CHOICE, log entry 63). -/
def State.collHalf (s : State) (id : Nat) (cl : Coll) (q : Queue) (h : Half) (w : Nat × Nat × Bool) : Half :=
  { Half.init with
    state := .established, localEp := cl.memberEp, remoteEp := (cl.mem w.1).ep, chan := w.2.1, rlx := w.2.2, iso := h.iso, tc := h.tc
    fifo := h.fifo, prio := h.prio, notifyCn := q.cn, func := q.func, maxLen := maxMessage, rlBudget := h.rlBudget
    rlDelay := h.rlDelay, coll := some id, window := s.wMax h, cutSeq := 0 - 1 }

/-- The first n unused references of a cluster. -/
def State.freeRefs (s : State) (c n : Nat) : List Nat :=
  (((List.range 16384).map (16384 * c + ·)).filter fun r => (s.half r).state == .unused).take n

/-- The checks of JOIN before the table is read (Table 12-3). -/
def State.joinBarred (s : State) (q : Queue) (b : List Byte) : Option Nat :=
  let ep := leAt b 10 3
  let n := leAt b 16 4
  let mine := match s.endpoint ep with
    | some e => e.func == q.func
    | none => false
  let member := s.net.colls.any fun e => e.2.any fun c => c.memberEp == ep
  if (s.coll (leAt b 8 2)).isSome || !mine || member then some 17
  else if n == 0 || decide (131072 < n) || decide (n ≤ leAt b 20 4) then some 19
  else none

/-- JOIN with its table read: what was checked at its start is checked again, for another JOIN may have completed since (R285); the
members are resolved and the halves created (R288). How it ends. -/
def State.joinWith (s : State) (q : Queue) (r : Nat) (b table : List Byte) : WorkDone × State :=
  let id := leAt b 8 2
  let n := leAt b 16 4
  let rank := leAt b 20 4
  let words := (List.range n).map fun i => leAt table (4 * i) 4
  let bad (d : Nat) : WorkDone := { status := 0x20, detail := d }
  match s.joinBarred q b with
  | some d => (bad d, s)
  | none =>
  if words.any (fun w => 2 ^ 24 ≤ w) || words.getD rank 0 != leAt b 10 3 then (bad 19, s)
  else match s.membersOf words [] with
    | (.error st, s1) => ({ status := st }, s1)
    | (.ok ms, s1) =>
      let cl : Coll := { memberEp := leAt b 10 3, func := q.func, rank := rank, members := ms
                         timeout := if leAt b 28 4 == 0 then 100000 else leAt b 28 4, halves := [], failed := false, run := none }
      let ws := cl.wants
      let refs := s1.freeRefs (r / 16384) ws.length
      if (ms.map (·.dn)).eraseDups.length != n then (bad 19, s1)
      else if 1024 ≤ s1.net.colls.length || refs.length < ws.length ||
          ws.any (fun w => (s1.findHalf cl.memberEp (cl.mem w.1).ep w.2.1).isSome) then (bad 20, s1)
      else
        let h := s1.half r
        let s2 := (refs.zip ws).foldl (fun s e => s.setHalf e.1 (s.collHalf id cl q h e.2)) s1
        ({ status := 0, bytes := refs.length }, s2.setColl id (some { cl with halves := refs }))

/-- The slot of a JOIN that reads its table. -/
def State.joinSlot (s : State) (qn serial : Nat) : Option Nat :=
  (s.ops.find? fun e => e.2.isOpen && e.2.kind == kLibMem && e.2.origin == .work qn serial).map (·.1)

/-- A COLL entry of a SUBOP is next to start, or has started and is not complete: what is done with it, given its queue, the
reference of the queue's connection, and the entry. -/
def State.collWork (s : State) (qn idx sub : Nat) (f : Queue → Nat → OutEntry → State → State) : State :=
  let q := s.queue qn
  let started := q.outstanding.find? fun e => e.idx == idx && e.started
  if s.adapterHalted then s else
  match (match started with
    | some e => some e
    | none => q.startable idx) with
  | none => s
  | some e =>
    if weOp e.bytes != 0x10 || weFlags e.bytes % 8 != sub || !s.cqRoom q.cn then s
    else match q.conn with
      | none => (s.markStarted qn e.serial).workDone qn e.serial { status := 0x22 }
      | some r => f q r e s

/-- JOIN. `st` and `data` are how the read of a member table in host memory ended and what it returned. -/
def join (qn idx st : Nat) (data : List Byte) (s : State) : State :=
  s.collWork qn idx 0 fun q r e s =>
    let b := e.bytes
    match s.joinSlot qn e.serial with
    | none =>
      let s1 := s.markStarted qn e.serial
      if e.started then s
      else match s.joinBarred q b with
        | some d => s1.workDone qn e.serial { status := 0x20, detail := d }
        | none => match s1.takeSlot (r / 16384) kLibMem 0 (.work qn e.serial) (zeroBytes 64) with
          | some (_, s2) => s2
          | none => s
    | some k =>
      let ends (s : State) (d : WorkDone) : State :=
        (s.setOp k { s.op k with status := some 0, delivered := true }).workDone qn e.serial d
      match s.readAt (k / 4096) (.far (leAt b 24 4) (leAt b 32 8)) 0 (4 * leAt b 16 4) (.op k) st data with
      | (.data table, s1) => let (d, s2) := s1.joinWith q r b table; ends s2 d
      | (m, s1) => match m.localStatus s1 with
        | (none, s2) => s2
        | (some st, s2) => ends s2 { status := st, detail := m.detail }

/-! ## LEAVE (R292) -/

/-- LEAVE: a RUN in progress completes ABORTED, the halves become QUIET, and the identifier is free. -/
def leave (qn idx : Nat) (s : State) : State :=
  s.collWork qn idx 2 fun _ _ e s =>
    let id := leAt e.bytes 8 2
    let s1 := s.markStarted qn e.serial
    match s.coll id with
    | none => s1.workDone qn e.serial { status := 0x20, detail := 16 }
    | some cl =>
      let s2 := s1.collEnd id { status := 1 }
      let s3 := cl.halves.foldl (fun s r => s.quietHalf r) s2
      (s3.setColl id none).workDone qn e.serial { status := 0 }

/-! ## The plan of a RUN: reduction (R311, Table 12-11) -/

/-- A range of elements, its part j of n, and how many elements two ranges share. -/
abbrev Range := Nat × Nat
def Range.cut (r : Range) (n j : Nat) : Range := (r.1 + (r.2 - r.1) * j / n, r.1 + (r.2 - r.1) * (j + 1) / n)
def Range.meet (a b : Range) : Range := (max a.1 b.1, max (max a.1 b.1) (min a.2 b.2))
def Range.size (r : Range) : Nat := r.2 - r.1
def sizes (rs : List Range) : Nat := (rs.map Range.size).sum

/-- An exchange: its phase; a number that tells its slot from those of other exchanges; contributors of the slot and this member's
index among them; what is sent to whom; and what this member keeps, when it has a slot. -/
structure Exchange where
  phase : Nat
  tag : Nat
  n : Nat
  me : Nat
  dests : List (Nat × Range)
  keep : Option Range
deriving DecidableEq, Repr

/-- A line phase: block i of the range goes to the i-th member of the line in rank order; contributors are numbered by line
position (R309). -/
def lineExchange (phase : Nat) (line byPlace : List Nat) (k : Nat) (r : Range) : Exchange :=
  { phase := phase, tag := phase, n := line.length, me := byPlace.idxOf k
    dests := line.zipIdx.filterMap fun e => if e.1 == k then none else some (e.1, Range.cut r line.length e.2)
    keep := some (Range.cut r line.length (line.idxOf k)) }

/-- Where leaf j begins when a range is halved among n members: the leaves are equal parts, or in a REDUCE_SCATTER each holds the blocks
of a member and of the one that folds onto it (DESIGN CHOICE, log entries 61 and 64). -/
def leafAt (r : Range) (n j : Nat) (scatter : Bool) : Nat :=
  let core := 2 ^ rounds n
  if scatter then r.1 + r.size * (j + min j (n - core)) / n else r.1 + r.size * j / core

/-- The part of a range that position i of n holds after the rounds that halve it down to the bit j. -/
def halved (r : Range) (n i j : Nat) (scatter : Bool) : Range :=
  let a := i / 2 ^ j * 2 ^ j
  (leafAt r n a scatter, leafAt r n (a + 2 ^ j) scatter)

/-- Recursive halving among the members of equal row and column. -/
def Coll.halving (cl : Coll) (k : Nat) (r : Range) (scatter : Bool) : List Exchange :=
  let gs := cl.globalsOf k
  let i := gs.idxOf k
  let m := rounds gs.length
  let rank (i : Nat) : Nat := gs.getD i 0
  if gs.length ≤ 1 then []
  else if 2 ^ m ≤ i then [⟨3, 3, 2, 1, [(rank (i - 2 ^ m), r)], none⟩]
  else
    (if i + 2 ^ m < gs.length then [⟨3, 3, 2, 0, [], some r⟩] else []) ++
    (List.range m).map fun t =>
      let j := m - 1 - t
      ⟨3, 4 + j, 2, i / 2 ^ j % 2, [(rank (i ^^^ 2 ^ j), halved r gs.length (i ^^^ 2 ^ j) j scatter)],
        some (halved r gs.length i j scatter)⟩

/-- The exchanges that reduce a range of the vector: row, column, global; a member alone, or a wide sum in one exchange, has one more
with only its own operand (R304, R311). -/
def Coll.reduction (cl : Coll) (k : Nat) (v : Range) (wide scatter : Bool) : List Exchange :=
  let row := cl.rowOf k
  let column := cl.columnOf k
  let r1 := Range.cut v row.length (row.idxOf k)
  let r2 := Range.cut r1 column.length (column.idxOf k)
  let xs :=
    (if row.length ≤ 1 then [] else [lineExchange 1 row (sortBy (fun i => (cl.mem i).c) row) k v]) ++
    (if column.length ≤ 1 then [] else [lineExchange 2 column (sortBy (fun i => (cl.mem i).r) column) k r1]) ++
    cl.halving k r2 scatter
  match xs with
  | [] => ⟨0, 0, 1, 0, [], some r2⟩ :: if wide then [⟨0, 20, 1, 0, [], some r2⟩] else []
  | [x] => match x.keep with
    | some r => x :: if wide then [⟨x.phase, 20, 1, 0, [], some r⟩] else []
    | none => xs
  | _ => xs

/-- What a member has reduced in the end of some ranges. -/
def Coll.finished (cl : Coll) (k : Nat) (vs : List Range) (scatter : Bool) : List Range :=
  vs.flatMap fun v => match (cl.reduction k v false scatter).getLast? with
    | some x => x.keep.toList
    | none => []

/-- The order of the blocks of a REDUCE_SCATTER in the vector that is reduced, by which each member finishes its own block: by the place
of its member in its row, in its column, and among its global peers, where one that folds follows the one it folds onto (DESIGN CHOICE,
log entry 64). -/
def Coll.order (cl : Coll) : List Nat :=
  let key (k : Nat) : Nat :=
    let gs := cl.globalsOf k
    let core := 2 ^ rounds gs.length
    let i := gs.idxOf k
    ((cl.rowOf k).idxOf k * 2 ^ 17 + (cl.columnOf k).idxOf k) * 2 ^ 18 + i % core * 2 + i / core
  sortBy key (List.range cl.members.length)

/-! ## The plan of a RUN: gathering -/

/-- The blocks that a member starts to gather with; `vs` are the ranges in which a vector is reduced. -/
def Coll.seed (cl : Coll) (b : List Byte) (vs : List Range) (k : Nat) : List Range :=
  let n := runCount b
  match runKind b with
  | 1 => if k == runRoot b then [(0, n)] else []
  | 4 => [(k * n, (k + 1) * n)]
  | _ => cl.finished k vs false

/-- The blocks of a member when the rounds of doubling below j are over. -/
def Coll.doubled (cl : Coll) (b : List Byte) (vs : List Range) (k j : Nat) : List Range :=
  let gs := cl.globalsOf k
  let core := 2 ^ rounds gs.length
  let i := gs.idxOf k % core / 2 ^ j
  (gs.zipIdx.filter fun e => e.2 % core / 2 ^ j == i).flatMap fun e => cl.seed b vs e.1
/-- Its blocks after the global phase, and after the column phase. -/
def Coll.afterGlobal (cl : Coll) (b : List Byte) (vs : List Range) (k : Nat) : List Range := (cl.globalsOf k).flatMap (cl.seed b vs)
def Coll.afterColumn (cl : Coll) (b : List Byte) (vs : List Range) (k : Nat) : List Range :=
  (cl.columnOf k).flatMap (cl.afterGlobal b vs)

/-! ## Blocks of the operations -/

/-- The largest transfer of one DMA block. -/
def maxDma : Nat := 16777216
/-- Bytes cut into pieces of at most m: offset and length. -/
def piecesOf (m n : Nat) : List (Nat × Nat) := (List.range ((n + m - 1) / m)).map fun i => (i * m, min m (n - i * m))

/-- Puts of bytes at an address to a member on a channel: to an offset of its buffer, or as contribution `me` to a slot (R294). -/
def State.putsTo (s : State) (cl : Coll) (k chan ask va n at_ : Nat) (red : Option (Nat × Nat)) : List RunSend :=
  match s.halfTo cl k chan with
  | none => []
  | some r =>
    let h := s.half r
    let (key, aux, fl) := match red with
      | some (slot, me) => (slot, me, 12)
      | none => (0, 0, 4)
    (piecesOf maxMessage n).map fun p => ⟨some r, kPut, fl,
      h.blockHead 1 p.2 0 ++ leBytes 4 ask ++ leBytes 4 key ++ leBytes 8 (va + p.1) ++ leBytes 8 (at_ + p.1) ++ leBytes 4 aux ++ zeroBytes 12⟩

/-- Local copies. -/
def copies (ask src dst n : Nat) : List RunSend :=
  (piecesOf maxDma n).map fun p => ⟨none, kDma, 0,
    leBytes 1 0xC ++ zeroBytes 7 ++ leBytes 4 p.2 ++ zeroBytes 4 ++ leBytes 4 ask ++ leBytes 4 ask ++ leBytes 8 (src + p.1) ++
    leBytes 8 (dst + p.1) ++ zeroBytes 24⟩

/-- Multicasts of bytes to the members of a line (R293, R294). -/
def State.castsTo (s : State) (id : Nat) (cl : Coll) (column : Bool) (ask va n at_ : Nat) : List RunSend :=
  let line := if column then cl.columnOf cl.rank else cl.rowOf cl.rank
  let peers := line.filter (· != cl.rank)
  let mask := (peers.map fun k => 2 ^ (if column then (cl.mem k).r else (cl.mem k).c)).sum
  match peers.filterMap fun k => s.halfTo cl k (if column then 1 else 2) with
  | [] => []
  | r :: _ =>
    let h := s.half r
    (piecesOf maxMessage n).map fun p => ⟨some r, kMcast, 0,
      leBytes 1 7 ++ zeroBytes 7 ++ leBytes 2 id ++ zeroBytes 1 ++ leBytes 1 (h.tc * 16 + h.chan) ++ zeroBytes 4 ++ leBytes 4 p.2 ++
      leBytes 2 h.iso ++ leBytes 1 (b2n column) ++ zeroBytes 1 ++ leBytes 4 ask ++ leBytes 2 mask ++ zeroBytes 2 ++
      leBytes 8 (va + p.1) ++ leBytes 8 (at_ + p.1) ++ zeroBytes 16⟩

/-- The Amalgam slot of an exchange (DESIGN CHOICE, log entry 60). -/
def State.slotFor (s : State) (id tag : Nat) : Nat := (Config.collSlot id + tag) % (256 * s.units)

/-- An AMLSUB block (Table 4-15). -/
def amlBlock (slot op ty mode anchor count n me ask loc out : Nat) : List Byte :=
  leBytes 1 14 ++ zeroBytes 7 ++ leBytes 2 slot ++ leBytes 1 op ++ leBytes 1 ty ++ leBytes 1 mode ++ zeroBytes 1 ++ leBytes 2 anchor ++
  leBytes 4 count ++ leBytes 2 n ++ leBytes 2 me ++ leBytes 4 ask ++ zeroBytes 4 ++ leBytes 8 loc ++ leBytes 8 out ++ zeroBytes 16

/-! ## Steps -/

/-- A step of a RUN: its phase (0 is untimed, and those of each pass of a reduction begin at a multiple of 8); whether it finds the
greatest exponent (1), agrees (2) or moves data (0); the slot that it waits for; what is sent; the bytes that a channel must have brought
in by its end; and where its pair stands when it agrees. -/
structure RunStep where
  phase : Nat
  what : Nat
  slot : Option (List Byte)
  sends : List RunSend
  need : Nat × Nat
  pairVa : Nat
deriving DecidableEq, Repr

/-- Data as a reduction holds it: where element `base` stands, bytes of an element, and their form. -/
structure Partial where
  va : Nat
  base : Nat
  size : Nat
  form : Nat
deriving DecidableEq, Repr

/-- The form of the partials of a RUN, 0 when it has none (R304). -/
def runForm (b : List Byte) : Nat :=
  if runMode b % 4 != 2 then 0 else if nbit (runMode b) 2 || runType b == 8 then 2 else 1

/-- One exchange as a step, and what its slot leaves. The last writes native elements: an ALLREDUCE at their place in its output,
and a REDUCE_SCATTER in staging. -/
def State.redStep (s : State) (id : Nat) (cl : Coll) (b : List Byte) (anchor : Nat) (last : Bool) (x : Exchange) (d : Partial) :
    RunStep × Partial :=
  let ask := leAt b 20 4
  let nat := typeSize (runType b)
  let form := if last then 0 else runForm b
  let place := if last && runKind b == 2 then leAt b 32 8 + (x.keep.getD (0, 0)).1 * nat else (Config.collStage id x.tag).toNat
  let slot := s.slotFor id x.tag
  let sends := x.dests.flatMap fun t =>
    s.putsTo cl t.1 0 ask (d.va + (t.2.1 - d.base) * d.size) (t.2.size * d.size) 0 (some (slot, x.me))
  match x.keep with
  | none => (⟨x.phase, 0, none, sends, (0, 0), 0⟩, d)
  | some r =>
    let aml := amlBlock slot (runOp b) (runType b) (runMode b % 4 + 4 * d.form + 16 * form) (if runMode b % 4 == 2 then anchor else 0)
      r.size x.n x.me ask (d.va + (r.1 - d.base) * d.size) place
    (⟨x.phase, 0, if r.size == 0 then none else some aml, sends, (0, 0), 0⟩, ⟨place, r.1, formSize form (runType b), form⟩)

/-- The steps of a reduction, and where the result is. -/
def State.redSteps (s : State) (id : Nat) (cl : Coll) (b : List Byte) (anchor : Nat) : List Exchange → Partial → List RunStep × Partial
  | [], d => ([], d)
  | x :: xs, d =>
    let (st, d1) := s.redStep id cl b anchor xs.isEmpty x d
    let (rest, d2) := s.redSteps id cl b anchor xs d1
    (st :: rest, d2)

/-- The exchanges of pass g of a reduction, over a range: their phases and their slots are the pass's own. -/
def Coll.pass (cl : Coll) (b : List Byte) (k g : Nat) (v : Range) : List Exchange :=
  (cl.reduction k v (runForm b == 2 && runType b != 8) (runKind b == 3)).map fun x =>
    { x with phase := if x.phase == 0 then 0 else x.phase + 8 * g, tag := x.tag + 128 * g }

/-- The elements that a RUN reduces. -/
def Coll.elements (cl : Coll) (b : List Byte) : Nat := runCount b * if runKind b == 3 then cl.members.length else 1

/-- Is there room at every member for all the slots of one pass over n elements, each of no more than a slot may have? The members'
reservations are taken to be this device's (DESIGN CHOICE, log entry 65). -/
def State.passFits (s : State) (id : Nat) (cl : Coll) (b : List Byte) (n : Nat) : Bool :=
  (List.range cl.members.length).all fun k =>
    let slots := (s.redSteps id { cl with rank := k } b 0 (cl.pass b k 0 (0, n)) ⟨0, 0, typeSize (runType b), 0⟩).1.filterMap (·.slot)
    slots.all (fun x => decide (amCount x ≤ 16777216)) && (List.range s.units).all fun u =>
      decide ((slots.map fun x => demandOn x (amSlot x) s.stripeWidth s.units u).sum ≤ s.accResv u)

/-- In how many passes a RUN reduces, as a power of two: the least by which each fits. -/
def State.passesFor (s : State) (id : Nat) (cl : Coll) (b : List Byte) : Nat :=
  (firstBelow 31 fun j => s.passFits id cl b ((cl.elements b + 2 ^ j - 1) / 2 ^ j)).getD 0

/-- The ranges of the passes. -/
def Coll.passRanges (cl : Coll) (b : List Byte) (passes : Nat) : List Range :=
  (List.range (2 ^ passes)).map (Range.cut (0, cl.elements b) (2 ^ passes))

/-- Puts of blocks of the output to a global peer. -/
def State.sendBlocks (s : State) (cl : Coll) (b : List Byte) (k : Nat) (rs : List Range) : List RunSend :=
  let sz := typeSize (runType b)
  rs.flatMap fun r => s.putsTo cl k 3 (leAt b 20 4) (leAt b 32 8 + r.1 * sz) (r.size * sz) (r.1 * sz) none

/-- The steps that gather: doubling among the global peers, then the column and the row by multicast. Their phases are those of the
last pass, which `off` is the first of. -/
def State.gatherSteps (s : State) (id : Nat) (cl : Coll) (b : List Byte) (vs : List Range) (off : Nat) : List RunStep :=
  let me := cl.rank
  let sz := typeSize (runType b)
  let gs := cl.globalsOf me
  let i := gs.idxOf me
  let m := rounds gs.length
  let rank (i : Nat) : Nat := gs.getD i 0
  let step (sends : List RunSend) (chan n : Nat) : RunStep := ⟨3 + off, 0, none, sends, (chan, n * sz), 0⟩
  let others (line : List Nat) (f : Nat → List Range) : Nat := ((line.filter (· != me)).map fun k => sizes (f k)).sum
  let cast (column : Bool) (rs : List Range) : List RunSend :=
    rs.flatMap fun r => s.castsTo id cl column (leAt b 20 4) (leAt b 32 8 + r.1 * sz) (r.size * sz) (r.1 * sz)
  let global :=
    if gs.length ≤ 1 then []
    else if 2 ^ m ≤ i then
      [step (s.sendBlocks cl b (rank (i - 2 ^ m)) (cl.seed b vs me)) 3 (sizes (cl.afterGlobal b vs me))]
    else
      let extra := gs[i + 2 ^ m]?
      let folded := match extra with
        | some k => sizes (cl.seed b vs k)
        | none => 0
      let upTo (j : Nat) : Nat := folded + ((List.range j).map fun t => sizes (cl.doubled b vs (rank (i ^^^ 2 ^ t)) t)).sum
      [step [] 3 folded] ++
      (List.range m).map (fun j => step (s.sendBlocks cl b (rank (i ^^^ 2 ^ j)) (cl.doubled b vs me j)) 3 (upTo (j + 1))) ++
      match extra with
      | some k => [step (s.sendBlocks cl b k (cl.afterGlobal b vs me)) 3 (upTo m)]
      | none => []
  let line (phase chan : Nat) (column : Bool) (l : List Nat) (f : Nat → List Range) : List RunStep :=
    if l.length ≤ 1 then [] else [⟨phase + off, 0, none, cast column (f me), (chan, others l f * sz), 0⟩]
  global ++ line 4 1 true (cl.columnOf me) (cl.afterGlobal b vs) ++ line 5 2 false (cl.rowOf me) (cl.afterColumn b vs)

/-- The last step of pass g of a REDUCE_SCATTER: each finished block moves to its rank (R311), `order` being that of the blocks. No half
leads to a rank that is no global peer (DESIGN CHOICE, log entry 64). -/
def State.scatterStep (s : State) (cl : Coll) (b : List Byte) (order : List Nat) (vs : List Range) (g : Nat) (d : Partial) : RunStep :=
  let n := runCount b
  let ask := leAt b 20 4
  let block (k : Nat) : Range := (order.idxOf k * n, (order.idxOf k + 1) * n)
  let cutOf (rs : List Range) (k : Nat) : List Range := (rs.map fun f => Range.meet f (block k)).filter (0 < Range.size ·)
  let parts (k : Nat) : List Range := cutOf (cl.finished cl.rank [vs.getD g (0, 0)] true) k
  let upTo := vs.take (g + 1)
  let at_ (r : Range) : Nat := d.va + (r.1 - d.base) * d.size
  let sends := (List.range cl.members.length).flatMap fun k => (parts k).flatMap fun r =>
    if k == cl.rank then copies ask (at_ r) (leAt b 32 8 + (r.1 - (block k).1) * d.size) (r.size * d.size)
    else s.putsTo cl k 3 ask (at_ r) (r.size * d.size) ((r.1 - (block k).1) * d.size) none
  ⟨3 + 8 * g, 0, none, sends,
    (3, (sizes (cutOf upTo cl.rank) - sizes (cutOf (cl.finished cl.rank upTo true) cl.rank)) * typeSize (runType b)), 0⟩

/-- The reduction of a vector in passes, and what is to be done after each. -/
def State.passSteps (s : State) (id : Nat) (cl : Coll) (b : List Byte) (anchor : Nat) (vs : List Range) (start : Partial)
    (after : Nat → Partial → List RunStep) : List RunStep :=
  vs.zipIdx.flatMap fun e =>
    let (xs, d) := s.redSteps id cl b anchor (cl.pass b cl.rank e.2 e.1) start
    xs ++ after e.2 d

/-- The data steps of a RUN (Table 12-11). -/
def State.dataSteps (s : State) (id : Nat) (cl : Coll) (b : List Byte) (anchor passes : Nat) : List RunStep :=
  let n := runCount b
  let sz := typeSize (runType b)
  let ask := leAt b 20 4
  let src := leAt b 24 8
  let vs := cl.passRanges b passes
  let copy (from_ to_ : Nat) : List RunSend := copies ask from_ to_ (n * sz)
  let copyStep (sends : List RunSend) : RunStep := ⟨0, 0, none, sends, (0, 0), 0⟩
  match runKind b with
  | 0 => []
  | 1 => (if cl.rank == runRoot b then [copyStep (copy src (leAt b 32 8))] else []) ++ s.gatherSteps id cl b [] 0
  | 2 => s.passSteps id cl b anchor vs ⟨src, 0, sz, 0⟩ (fun _ _ => []) ++ s.gatherSteps id cl b vs (8 * (vs.length - 1))
  | 3 =>
    let order := cl.order
    let stage := (Config.collStage id 21).toNat
    let inOrder := order == List.range cl.members.length
    (if inOrder then [] else
      [copyStep (order.zipIdx.flatMap fun e => copy (src + e.1 * n * sz) (stage + e.2 * n * sz))]) ++
    s.passSteps id cl b anchor vs ⟨if inOrder then src else stage, 0, sz, 0⟩ fun g d => [s.scatterStep cl b order vs g d]
  | _ => copyStep (copy src (leAt b 32 8 + cl.rank * n * sz)) :: s.gatherSteps id cl b [] 0

/-! ## Phase 0 -/

/-- Does a RUN agree first: a BARRIER, without START_FT, or in mode ANCHORED (R312)? -/
def runAgrees (b : List Byte) : Bool := runKind b == 0 || leAt b 48 8 == 0 || runMode b % 4 == 2

/-- Where the pair of a member stands in phase 0, and where its slot writes. -/
def pairAt (id tag : Nat) : Nat := (Config.collStage id tag).toNat

/-- A step of phase 0: the pair goes to some members, and those of n contributors come together (R311). -/
def State.agreeStep (s : State) (id : Nat) (cl : Coll) (tag n me : Nat) (peers : List Nat) (recv : Bool) : RunStep :=
  let slot := s.slotFor id tag
  let ask := Config.collAsk id
  ⟨0, 2, if recv then some (amlBlock slot 2 1 0 0 2 n me ask (pairAt id tag) (pairAt id tag + 16)) else none,
    peers.flatMap fun k => s.putsTo cl k 0 ask (pairAt id tag) 16 0 (some (slot, me)), (0, 0), pairAt id tag⟩

/-- The largest input of one EXPMAX slot, as a power of two of elements (R298). -/
def State.expPiece (s : State) (slot ty : Nat) : Nat :=
  2 ^ ((firstBelow 24 fun j => !s.amlNever (amlBlock slot 6 ty 0 0 (2 ^ (24 - j)) 1 0 0 0 0)).map (24 - ·)).getD 0

/-- The steps of phase 0: the greatest exponent of the member's own input, then the greatest pair along its row, its column and the
global peers. -/
def State.agreeSteps (s : State) (id : Nat) (cl : Coll) (b : List Byte) : List RunStep :=
  let me := cl.rank
  let gs := cl.globalsOf me
  let i := gs.idxOf me
  let m := rounds gs.length
  let rank (i : Nat) : Nat := gs.getD i 0
  let line (tag : Nat) (l : List Nat) : List RunStep :=
    if l.length ≤ 1 then [] else [s.agreeStep id cl tag l.length (l.idxOf me) (l.filter (· != me)) true]
  let slot := s.slotFor id 64
  let exps : List RunStep := if runMode b % 4 != 2 then [] else
    (piecesOf (s.expPiece slot (runType b)) (cl.elements b)).map fun p =>
      ⟨0, 1, some (amlBlock slot 6 (runType b) 0 0 p.2 1 0 (leAt b 20 4) (leAt b 24 8 + p.1 * typeSize (runType b)) (pairAt id 64)),
        [], (0, 0), 0⟩
  let global :=
    if gs.length ≤ 1 then []
    else if 2 ^ m ≤ i then
      [s.agreeStep id cl 35 2 1 [rank (i - 2 ^ m)] false, s.agreeStep id cl 50 2 1 [] true]
    else
      let extra := gs[i + 2 ^ m]?
      (if extra.isSome then [s.agreeStep id cl 35 2 0 [] true] else []) ++
      (List.range m).map (fun j => s.agreeStep id cl (36 + j) 2 (i / 2 ^ j % 2) [rank (i ^^^ 2 ^ j)] true) ++
      match extra with
      | some k => [s.agreeStep id cl 50 2 0 [k] false]
      | none => []
  if runAgrees b then exps ++ line 33 (cl.rowOf me) ++ line 34 (cl.columnOf me) ++ global else []

/-- All steps of a RUN. -/
def State.runSteps (s : State) (id : Nat) (cl : Coll) (b : List Byte) (anchor passes : Nat) : List RunStep :=
  s.agreeSteps id cl b ++ s.dataSteps id cl b anchor passes

/-- d of a phase in ticks: its transfer time at 93.74 GB/s, by the bytes that go to one peer on all channels, and AML_PHASE_MARGIN, in
whole µs (R312). -/
def State.phaseTicks (s : State) (steps : List RunStep) (phase : Nat) : Nat :=
  let sends := (steps.filter (·.phase == phase)).flatMap (·.sends)
  let peer (w : RunSend) : Option Nat := w.half.map fun r => (s.half r).remoteEp
  let tx := ((sends.filter (·.half.isSome)).map fun w => ((sends.filter (peer · == peer w)).map fun v => bLen v.block).sum).foldl max 0
  (tx * 100 + (s.rd R.AML_PHASE_MARGIN).toNat * 9374 + 9374 * 1000 - 1) / (9374 * 1000) * ticksPerUs

/-! ## RUN (R287, R290, R291, R312, R313) -/

/-- R287: a RUN whose fields do not go together. -/
def badRun (n : Nat) (b : List Byte) : Bool :=
  let kind := runKind b
  let m := runMode b % 4
  let floating := decide (8 ≤ runType b)
  ((kind == 2 || kind == 3) && ((m != 0 && !(runOp b == 0 && floating)) || (decide (3 ≤ runOp b) && floating) ||
    (nbit (runMode b) 2 && m != 2))) ||
  ((kind == 3 || kind == 4) && decide (1073741824 < runCount b * n))

/-- The run of a collective changed. -/
def State.setRun (s : State) (id : Nat) (f : CollRun → CollRun) : State :=
  match s.coll id with
  | some cl => s.setColl id (some { cl with run := cl.run.map f })
  | none => s

/-- FT when this member is ready, and the lead (Table 12-11). -/
def State.readyAt (s : State) : Word := s.ft + w64 ((s.rd R.AML_START_LEAD).toNat * ticksPerUs)

/-- The operations of a step that are not complete and delivered. -/
def State.stepOps (s : State) (id step : Nat) : List Nat :=
  SMap.keysWhere (fun _ o => (o.isOpen || !o.delivered) && o.kind != kLibMem && o.origin == .coll id step) s.ops

/-- An operation of a step takes a slot; none without a free one. -/
def State.runOp (s : State) (c id step : Nat) (half : Option Nat) (kind fl : Nat) (block : List Byte) : Option (Nat × State) :=
  (s.takeSlot c kind fl (.coll id step) block).map fun (k, s1) => (k, s1.setOp k { s1.op k with conn := half })

/-- The halves that a send of a RUN travels on (R293). -/
def State.sendHalves (s : State) (cl : Coll) (w : RunSend) : List Nat :=
  match w.half with
  | none => []
  | some r => if w.kind == kMcast then cl.halves.filter fun q => (s.half q).chan == (s.half r).chan else [r]

/-- May a send of the RUN of an entry start: do all its halves admit it, and does nothing else wait there before it (R237, R293)? -/
def State.maySend (s : State) (cl : Coll) (w : RunSend) (who : Nat × Nat) : Bool :=
  (s.sendHalves cl w).all fun q => (s.half q).state == .established && s.admits q (packetsOf (bLen w.block) 4096) &&
    ((s.half q).pendingOps.isEmpty || (s.half q).pendingOps.head? == some who)

/-- An entry waits on the pending list of a half (R237). -/
def State.listOn (s : State) (r : Nat) (who : Nat × Nat) : State :=
  let h := s.half r
  if h.pendingOps.contains who then s else s.setHalf r { h with pendingOps := h.pendingOps ++ [who] }

/-- What waits in a step is started where it can be: a local copy at once; a fabric operation that its halves admit by a trigger
at the start of the phase, or at once in an untimed step. Whether it was. -/
def State.runSend (s : State) (c id step phase : Nat) (at_ : Word) (w : RunSend) : Option State :=
  match w.half with
  | none => (s.runOp c id step none w.kind w.flags w.block).map fun (k, s1) => startDma k s1
  | some _ =>
    let n := packetsOf (bLen w.block) 4096
    if phase == 0 then (s.runOp c id step w.half w.kind w.flags w.block).map fun (k, s1) => startFabric k s1
    else if 256 ≤ (s.cluster c).trigs.length then none
    else
      let block := leBytes 1 kTrig ++ zeroBytes 7 ++ leBytes 8 at_.toNat ++ leBytes 2 1 ++ zeroBytes 2 ++ leBytes 2 w.flags ++
        zeroBytes 42 ++ byteSlice w.block 0 64 ++ leBytes 1 2
      (s.runOp c id step w.half kTrig 0 block).map fun (k, s1) => startTrig k (s1.setOp k { s1.op k with n := n })

/-- Everything that waits in a step, in order; what could not be started waits on, on the pending lists of its halves, and what comes
after it on the same halves with it (R237). `held` are the halves on which something has been left. -/
def State.runSends (s : State) (c id : Nat) (cl : Coll) (step phase : Nat) (at_ : Word) (who : Nat × Nat) (held : List Nat) :
    List RunSend → List RunSend × State
  | [] => ([], s)
  | w :: ws =>
    let hs := s.sendHalves cl w
    match (if hs.any held.contains || !s.maySend cl w who then none else s.runSend c id step phase at_ w) with
    | some s1 => s1.runSends c id cl step phase at_ who held ws
    | none =>
      let (rest, s1) := (hs.foldl (fun s q => s.listOn q who) s).runSends c id cl step phase at_ who (held ++ hs) ws
      (w :: rest, s1)

/-- The sends of the step of a RUN in progress are started as far as they can be; its entry leaves the pending lists of the halves that
none of the rest needs. -/
def State.runPush (s : State) (c id : Nat) (cl : Coll) (r : CollRun) (phase : Nat) : State :=
  let who := (r.qn, r.serial)
  let (rest, s1) := s.runSends c id cl r.step phase r.at_ who [] r.todo
  let s2 := s1.setRun id fun r => { r with todo := rest }
  let needed := rest.flatMap (s2.sendHalves cl)
  cl.halves.foldl (fun s q =>
    let h := s.half q
    if !needed.contains q && h.pendingOps.contains who then s.setHalf q { h with pendingOps := h.pendingOps.filter (· != who) } else s) s2

/-- The slots of some steps that are not open yet are opened, and those that wait for space are tried again. -/
def State.openSlots2 (s : State) (c id : Nat) (steps : List (RunStep × Nat)) : State :=
  steps.foldl (fun s e => match e.1.slot with
    | none => s
    | some block =>
      match s.ops.find? fun o => o.2.isOpen && o.2.kind == kAmlsub && o.2.origin == .coll id e.2 with
      | some o => if o.2.held then startAml o.1 s else s
      | none => match s.runOp c id e.2 none kAmlsub 0 block with
        | some (k, s1) => startAml k s1
        | none => s) s

/-- Are the slots of some steps open? -/
def State.slotsOpen (s : State) (id : Nat) (steps : List (RunStep × Nat)) : Bool :=
  steps.all fun e => e.1.slot.isNone ||
    s.ops.any fun o => o.2.kind == kAmlsub && o.2.origin == .coll id e.2 && !o.2.held && (o.2.isOpen || !o.2.delivered)

/-- The pair of a member as bytes: T0 and the anchor as signed 64-bit integers. -/
def CollRun.pair (r : CollRun) : List Byte :=
  leBytes 8 r.t0.toNat ++ leBytes 8 (ofSigned 64 (toSigned 16 r.anchor))

/-- A RUN ends by an access of its library's memory, or waits for it. -/
def State.runFault (s : State) (id : Nat) (m : Moved) : State :=
  match m.localStatus s with
  | (none, s1) => s1
  | (some st, s1) => s1.collEnd id { status := st, detail := m.detail }

/-- The library reaches its own memory for a RUN: it takes an operation slot while it does. -/
def State.libAccess (s : State) (c id step : Nat) (f : XltClient → State → Moved × State) : Moved × State :=
  let slot := match s.ops.find? fun e => e.2.isOpen && e.2.kind == kLibMem && e.2.origin == .coll id step with
    | some e => some (e.1, s)
    | none => s.runOp c id step none kLibMem 0 (zeroBytes 64)
  match slot with
  | none => (.wait, s)
  | some (k, s1) => match f (.op k) s1 with
    | (.wait, s2) => (.wait, s2)
    | (m, s2) => (m, s2.setOp k { s2.op k with status := some 0, delivered := true })

/-- A step is prepared (R311, R312): its slots are opened, all those of a pass before its first data step; its pair is written; its
phase is timed; and its operations are set out. -/
def State.runPrepare (s : State) (c id : Nat) (b : List Byte) (r : CollRun) (steps : List RunStep) (x : RunStep) : State :=
  let all := steps.zipIdx
  let mine := if x.what != 0 then all.filter (·.2 == r.step)
    else if all.all fun e => e.2 < r.step → e.1.what != 0 || e.1.phase / 8 != x.phase / 8 then
      all.filter fun e => decide (r.step ≤ e.2) && e.1.phase / 8 == x.phase / 8
    else []
  let s1 := s.openSlots2 c id mine
  if !s1.slotsOpen id mine then s1
  else
    let go (s : State) : State :=
      let before := (steps.take r.step).filter (·.phase != 0)
      let at_ := match before.getLast? with
        | none => if leAt b 48 8 != 0 then w64 (leAt b 48 8) else r.t0
        | some p => if p.phase == x.phase then r.at_ else r.at_ + w64 (s.phaseTicks steps p.phase)
      let s2 := s.setRun id fun r => { r with
        sub := 2, todo := x.sends, at_ := if x.phase == 0 then r.at_ else at_, hold := r.hold || (x.phase != 0 && s.holdover) }
      let fresh := x.phase != 0 && !before.any (·.phase == x.phase)
      if fresh && s.ftReached at_ then s2.bump R.AML_LATE_PHASE_COUNT else s2
    if x.what != 2 then go s1
    else match s1.libAccess c id r.step fun cl s => s.writeAt c (.far (Config.collAsk id) x.pairVa) 0 r.pair cl with
      | (.data _, s2) => go s2
      | (m, s2) => s2.runFault id m

/-- A step is over: what it has found is taken, and the next begins; after the last the RUN completes (R291). -/
def State.runNext (s : State) (c id : Nat) (cl : Coll) (b : List Byte) (r : CollRun) (count : Nat) (x : RunStep) : State :=
  let next (s : State) (f : CollRun → CollRun) : State :=
    if r.step + 1 < count then s.setRun id fun r => f { r with step := r.step + 1, sub := 0 }
    else s.collEnd id { status := 0, bytes := cl.bufLen b, hold := r.hold }
  match x.slot with
  | none => next s fun r => r
  | some block =>
    if x.what == 0 then next s fun r => r else
    match s.libAccess c id r.step fun cl s =>
      s.readAt c (.far (leAt block 24 4) (leAt block 40 8)) 0 (if x.what == 1 then 8 else 16) cl 0 [] with
    | (.data bs, s1) =>
      let low := leAt bs 0 8
      if x.what == 1 then next s1 fun r => { r with
        anchor := ofSigned 16 (max (toSigned 16 r.anchor) (toSigned 64 low + 1)), t0 := s1.readyAt }
      else next s1 fun r => { r with t0 := w64 low, anchor := leAt bs 8 8 % 2 ^ 16 }
    | (m, s1) => s1.runFault id m

/-- A RUN in progress goes on as far as it can. -/
def State.runOn (s : State) (c id : Nat) (cl : Coll) (b : List Byte) (r : CollRun) : State :=
  let steps := s.runSteps id cl b r.anchor r.passes
  match steps[r.step]? with
  | none => s.collEnd id { status := 0, bytes := cl.bufLen b, hold := r.hold }
  | some x =>
    if r.sub == 0 then s.runPrepare c id b r steps x
    else
      let s1 := s.runPush c id cl r x.phase
      match (s1.coll id).bind (·.run) with
      | none => s1
      | some r1 =>
        if !r1.todo.isEmpty || !(s1.stepOps id r.step).isEmpty || r1.got.get 0 x.need.1 < x.need.2 then s1
        else s1.runNext c id cl b r1 steps.length x

/-- RUN: the entry is checked and its RUN begins (R287, R290, R291); offered again it goes on by one step of its plan. A half that
entered ERROR since the last RUN ends it with its latched status. -/
def run (qn idx : Nat) (s : State) : State :=
  s.collWork qn idx 1 fun _ h e s =>
    let b := e.bytes
    let id := leAt b 8 2
    let s1 := s.markStarted qn e.serial
    let ends (d : WorkDone) : State := s1.workDone qn e.serial d
    match s.coll id with
    | none => if e.started then s else ends { status := 0x20, detail := 16 }
    | some cl => match cl.run with
      | some r => if r.qn == qn && r.serial == e.serial then s.runOn (h / 16384) id cl b r else s
      | none =>
        if cl.failed then ends { status := 0x22 }
        else
          let fails (d : WorkDone) : State := (s1.setColl id (some { cl with failed := true })).workDone qn e.serial d
          if badRun cl.members.length b then fails { status := 0x20, detail := 18 }
          else match cl.halves.find? fun q => (s.half q).state == .error with
          | some q => fails (s.half q).latched
          | none =>
            if !s.ftValid then fails { status := 0x14 }
            else
              let passes := if runKind b == 2 || runKind b == 3 then s.passesFor id cl b else 0
              let r : CollRun := ⟨qn, e.serial, 0, 0, s.ft, s.holdover, [], [], s.readyAt, 0x8000, passes⟩
              s1.setColl id (some { cl with run := some r })

/-- The statuses of an operation that end a RUN (R291, R166): those of its local buffers and an abort; a trigger cancelled by a step of
FT gives TIME_NOT_READY. A POISON element is output (R307). After any other failure the operation is tried again, until its phase
times out (DESIGN CHOICE, log entry 65). -/
def runStatus (st : Nat) : Option Nat :=
  if st == 0x15 then some 0x14
  else if st == 1 || (decide (3 ≤ st) && decide (st ≤ 6)) || st == 0x14 then some st else none

/-- An operation of a RUN is reported to the library: a failure may end the RUN, and HOLDOVER is kept (R291, R313). A half that enters
ERROR ends the RUN itself. -/
def State.runOpDone (s : State) (o : Op) (id : Nat) : State :=
  let s1 := if nbit o.cflags 0 then s.setRun id fun r => { r with hold := true } else s
  let st := o.status.getD 0
  if st == 0 || st == 0x16 || o.kind == kLibMem then s1
  else match runStatus st with
    | some st => s1.collEnd id { status := st, detail := if st == 4 then o.cause else 0 }
    | none =>
      if o.kind == kAmlsub then s1
      else s1.setRun id fun r => { r with todo := r.todo ++ [⟨o.conn, o.kind, o.flags, o.block.take 64⟩] }

/-- PHASE_TIMEOUT: a phase is incomplete TIMEOUT after its planned start (R291). -/
def phaseTimeout (id : Nat) (s : State) : State :=
  match (s.coll id).bind fun cl => cl.run.map fun r => (cl, r) with
  | none => s
  | some (cl, r) =>
    if s.cqRoom (s.queue r.qn).cn && s.ftReached (r.at_ + w64 (cl.timeout * ticksPerUs)) then s.collEnd id { status := 0x0A } else s

/-! ## The commands -/

/-- JOIN (R288). -/
def execJoin (qn idx st : Nat) (data : List Byte) (s : State) : Host.Outcome State Fault Refusal := .next (s.live (join qn idx st data))
/-- RUN (R311). -/
def execRun (qn idx : Nat) (s : State) : Host.Outcome State Fault Refusal := .next (s.live (run qn idx))
/-- LEAVE (R292). -/
def execLeave (qn idx : Nat) (s : State) : Host.Outcome State Fault Refusal := .next (s.live (leave qn idx))
/-- PHASE_TIMEOUT (R291). -/
def execPhaseTimeout (coll : Nat) (s : State) : Host.Outcome State Fault Refusal := .next (s.live (phaseTimeout coll))

end Sys2Proof.Machine
end

