-- ==== Sys2Proof/Machine/Completion.lean ====
section
/-! DEFINITION. Machine/Completion.lean: how a completed operation is reported: to the thread that issued it, or to the standard
library (R104 to R108, R148). -/
namespace Sys2Proof.Machine

/-- Does the completion of an operation have an item, by its MODE; one with CMD_INVALID always has (R104, Table 4-2)? -/
def Op.hasItem (o : Op) : Bool :=
  let m := blkMode o.block
  o.status == some 2 || m == 0 || m == 2 || (m == 3 && o.status != some 0)

/-- Its status word, which it has but for MODE 0, is written into the frame of its thread (R105, R106). -/
def State.writeStatus (s : State) (o : Op) : State :=
  if blkMode o.block == 0 || o.status == some 2 then s
  else s.mwrite (frameKey o.tid (blkStatusOff o.block)) (leBytes 8 o.statusWord)

/-- The channel of a put, send or multicast of a thread: its collective or its destination, and its number. -/
def Op.channel (o : Op) : Option (Bool × Nat × Nat) :=
  if o.kind == 7 then some (true, leAt o.block 8 2, bChan o.block)
  else if putLike o.kind then some (false, bDest o.block, bChan o.block) else none

/-- Must an item wait for that of an operation of the same channel that the cluster accepted earlier: one that may still have an item,
or has one that is not committed (R108)? -/
def State.itemWaits (s : State) (k : Nat) (o : Op) : Bool :=
  o.channel.isSome && s.ops.any fun e =>
    e.1 / 4096 == k / 4096 && !e.2.isLib && decide (e.2.order < o.order) && e.2.channel == o.channel &&
    if e.2.isOpen then blkMode e.2.block != 1 else !e.2.delivered && e.2.hasItem

/-- The item of a completion (Tables 4-3, 5-1, 5-2). -/
def Op.item (k : Nat) (o : Op) : Item :=
  { ty := 0x20, len := 2, prio := blkPrio o.block, src := 2, srcCluster := 0, commitNs := 0, body := zeroBytes 56 ++ o.record k }

/-- The completion of a thread's operation is reported: first its status word is written; then its item goes to the write port, and
with its commit the completion is delivered (R105). An item without room is held in the slot, and counted once (R148). -/
def State.deliverOp (s : State) (k : Nat) (o : Op) : State :=
  let stage (n : Nat) (s : State) : State := s.setOp k { s.op k with stage := max n (s.op k).stage }
  let s1 := if o.stage == 0 then stage 1 (s.writeStatus o) else s
  let f := 4 * (k / 4096) + blkFifo o.block
  if !o.hasItem then s1.setOp k { s1.op k with delivered := true }
  else if o.stage == 3 || s1.itemWaits k o then s1
  else match s1.wfStart f true (o.item k) (.opDone k o.order) with
    | some s2 => stage 3 s2
    | none => if o.stage == 2 then s1 else stage 2 (s1.wfFull f)

/-- Has the ring that the library's handling of an operation may complete to room? -/
def State.libRoom (s : State) (o : Op) : Bool :=
  match o.origin with
  | .work qn _ => s.cqRoom (s.queue qn).cn
  | .rendezvous _ _ qn _ => s.cqRoom (s.queue qn).cn
  | .response _ _ => leAt o.block 64 8 == 0 || s.cqRoom (s.queue (leAt o.block 64 8 - 1)).cn
  | .coll id _ => match (s.coll id).bind (·.run) with
    | some r => s.cqRoom (s.queue r.qn).cn
    | none => true
  | _ => true

/-- What the library does with the completion of one of its operations. -/
def State.libDone (s : State) (o : Op) : State :=
  match o.origin with
  | .work qn serial => s.workOpDone o qn serial
  | .rendezvous _ _ qn serial => s.recvDone o qn serial
  | .response _ _ => s.responseLeft o
  | .coll id _ => s.runOpDone o id
  | _ => s

/-- OP_DONE: a completed operation is reported; what the slot or a fence held may start then (R105). -/
def opDone (c slot : Nat) (s : State) : State :=
  let k := 4096 * c + slot % 4096
  let o := s.op k
  if o.isOpen || o.delivered || s.inSafe then s else
  match o.origin with
  | .thread _ _ => (s.deliverOp k o).startHeld
  | _ => if s.libRoom o then ((s.setOp k { o with delivered := true }).libDone o).startHeld else s

/-- OP_DONE (R105). -/
def execOpDone (c slot : Nat) (s : State) : Host.Outcome State Fault Refusal := .next (opDone c slot s)

end Sys2Proof.Machine
end

