-- ==== Sys2Proof/Machine/Lanes.lean ====
section
/-! DEFINITION. Machine/Lanes.lean: lanes and the training of links: TS frames, equalisation, the link states up to LOCK, failed
attempts, error rates and retirement, eye scans (R352 to R355, R364, R373, R378, chapter 17). -/
namespace Sys2Proof.Machine

/-! ## What a port may use -/

/-- Is the device parked, in Doze or Deep Retention (Table 21-1)? -/
def State.parked (s : State) : Bool := decide (2 ≤ s.dev.power)

/-- May a lane be trained: enabled in LANE_EN and not retired (R378, R420)? -/
def State.laneEnabled (s : State) (p l : Nat) : Bool := nbit (s.fd F.LNK_CTRL_LANE_EN [p]) l && !(s.lane p l).retired
/-- Is it usable: and its counterpart not retired (R419)? -/
def State.laneUsable (s : State) (p l : Nat) : Bool := s.laneEnabled p l && !(s.lane p l).peerRetired
/-- The usable lanes. -/
def State.usableLanes (s : State) (p : Nat) : List Nat := [0, 1].filter (s.laneUsable p)
/-- A set of lanes as a number. -/
def laneMask (ls : List Nat) : Nat := b2n (ls.contains 0) + 2 * b2n (ls.contains 1)

/-- RATE_EN of a port, 0 acting as 112 GBd only: bit 0 112 GBd, bit 1 56 GBd. Both lanes run at one rate; that of lane 0
counts, or of lane 1 when lane 0 may not be trained (R401, R408, DEDUCED, log entry 47). -/
def State.rateEn (s : State) (p : Nat) : Nat :=
  let r := s.fd F.LANE_CTRL_RATE_EN [p, if s.laneEnabled p 0 then 0 else 1]
  if r == 0 then 1 else r

/-- Does the port train at 56 GBd (R408)? -/
def State.trains56 (s : State) (p : Nat) : Bool :=
  let r := s.rateEn p
  !nbit r 0 || (nbit r 1 && s.fb F.LANE_CTRL_FALLBACK [p, if s.laneEnabled p 0 then 0 else 1] && (s.port p).cfg.failed112)

/-! ## Transmit equalisation (R411 to R413) -/

/-- The presets of Table 17-4: c−3, c−2, c−1, c+1. -/
def presetTaps : Nat → Int × Int × Int × Int
  | 1 => (0, 0, 0, 0)
  | 2 => (0, 0, -6, 0)
  | 3 => (0, 2, -10, 0)
  | 4 => (-1, 3, -14, -2)
  | _ => (0, 0, -8, -4)

/-- A lane's transmitter at a preset. -/
def Lane.preset (x : Lane) (n : Nat) : Lane :=
  let (a, b, c, d) := presetTaps n
  { x with m3 := a, m2 := b, m1 := c, p1 := d }

/-- c0: 64 less the magnitudes of the other taps (R411). -/
def Lane.c0 (x : Lane) : Int := 64 - (x.m3.natAbs + x.m2.natAbs + x.m1.natAbs + x.p1.natAbs : Nat)

/-- One step of a tap, none when it would leave its range or make c0 less than 32 (R411). -/
def Lane.step (x : Lane) (tap : Nat) (d : Int) : Option Lane :=
  let y := match tap with
    | 0 => { x with m3 := x.m3 + d }
    | 1 => { x with m2 := x.m2 + d }
    | 2 => { x with m1 := x.m1 + d }
    | _ => { x with p1 := x.p1 + d }
  if -4 ≤ y.m3 && y.m3 ≤ 4 && -8 ≤ y.m2 && y.m2 ≤ 8 && -24 ≤ y.m1 && y.m1 ≤ 0 && -12 ≤ y.p1 && y.p1 ≤ 0 && 32 ≤ y.c0 then
    some y else none

/-- A request acted on: the new taps and STS (R413, Table 17-5). HOLD and DONE change nothing (DEDUCED, log entry 49). -/
def Lane.act (x : Lane) (r : EqReq) : Lane × Nat :=
  let tapOk := r.tap ≤ 2 || r.tap == 4
  match r.cmd with
  | 0 => (x, 0)
  | 1 => if 1 ≤ r.preset && r.preset ≤ 5 then (x.preset r.preset, 1) else (x, 4)
  | 2 => if !tapOk then (x, 4) else match x.step r.tap 1 with
    | some y => (y, 1)
    | none => (x, 3)
  | 3 => if !tapOk then (x, 4) else match x.step r.tap (-1) with
    | some y => (y, 1)
    | none => (x, 2)
  | 4 => (x, 0)
  | _ => (x, 4)

/-- The EQ field that a lane sends (Table 17-5). -/
def Lane.eqField (x : Lane) : List Byte :=
  leBytes 1 (x.ask.tap * 16 + x.ask.cmd) ++ leBytes 1 x.ask.preset ++ leBytes 1 x.reqId ++ leBytes 1 x.stsId ++
    leBytes 1 (x.sts + b2n x.ready * 8) ++ leBytes 1 x.snr

/-- A TS frame of a type as a lane sends it: the sender's lane, port and DN, its rates and usable lanes, and its buffer offer (Table
15-2). DN is 0 until routing is enabled. -/
def State.tsBody (s : State) (p l ty count : Nat) : TsBody :=
  let c := (s.port p).cfg
  { ty := ty, lane := l, port := p, count := if ty == 3 then count else 0, dn := if s.route.enabled then s.ownDn else 0
    rates := c.rates, lanes := if ty == 1 then laneMask (s.usableLanes p) else c.lanes, min := c.min, shared := c.shared
    eq := (s.lane p l).eqField }

/-- A TS frame on a lane: its record, and the levels that carry it (R353). -/
def State.sendTsOn (s : State) (p l ty count : Nat) : State :=
  let f := s.tsBody p l ty count
  (s.emit (.ts p l f)).emit (.levels p l f.levels)

/-- TS frames of a type on some lanes. -/
def State.sendTs (s : State) (p : Nat) (ls : List Nat) (ty count : Nat) : State :=
  ls.foldl (fun s l => s.sendTsOn p l ty count) s

/-! ## States of a port (Table 15-11) -/

/-- A port put into a state, from now. -/
def State.setLink (s : State) (p : Nat) (st : LState) : State := s.setPort p { s.port p with st := st, since := s.loc }

/-- The receiving side is cleared, scans end. -/
def State.clearRx (s : State) (p : Nat) : State :=
  let s1 := (s.eyeAbort p 0).eyeAbort p 1
  s1.setPort p { s1.port p with rx := { LinkRx.init with ses := (s1.port p).rx.ses } }

/-- A lane at the entry to TRAIN: stage 3, its taps as last converged or at START_PRESET (R412); the ID counters go on. -/
def Lane.restart (x : Lane) (start : Nat) : Lane :=
  let y := match x.conv with
    | some (a, b, c, d) => { x with m3 := a, m2 := b, m1 := c, p1 := d }
    | none => x.preset start
  { y with stage := 3, signal := false, ready := false, run := 0, sentReady := 0, ask := ⟨0, 0, 0⟩ }

/-- A port enters TRAIN and sends TS1 on its usable lanes (R378, R408). A wake pattern ends. -/
def State.enterTrain (s : State) (p : Nat) : State :=
  let s0 := s.clearRx p
  let s1 := if (s0.port p).waking.isSome then s0.emit (.wakePattern p (s0.usableLanes p) false) else s0
  let x := s1.port p
  let half := s1.trains56 p
  let rates := if half then s1.rateEn p &&& 2 else s1.rateEn p
  let s2 := (s1.setPort p { x with
    st := .train, since := s1.loc, waking := none, cfg := { x.cfg with rate56 := half, rates := rates, ts2 := 0, fallRate := s1.rateEn p } }).fset
    F.LNK_CTRL_RETRAIN [p] false
  let s3 := [0, 1].foldl (fun s l =>
    if s.laneEnabled p l then s.setLane p l ((s.lane p l).restart (s.fd F.LANE_TX_CFG_START_PRESET [p, l])) else s) s2
  s3.sendTs p (s3.usableLanes p) 1 0

/-- A port leaves ACTIVE for TRAIN with the link-down actions (R372, R378). -/
def State.retrainPort (s : State) (p : Nat) : State :=
  ((s.linkDown p .train).bump R.LNK_RETRAIN_COUNT [p]).enterTrain p

/-- A port goes to DETECT, transmitters off. -/
def State.enterDetect (s : State) (p : Nat) : State := (s.clearRx p).setLink p .detect

/-! ## The tile's buffer (R373) -/

/-- Cells that a port's SHARED and REPLAY may still take while the local pool keeps 1,024. -/
def State.tileRoom (s : State) (p : Nat) : Nat :=
  let t := tileOfPort p
  let ports := (List.range 8).map (8 * t + ·)
  let ded := (ports.map fun q => 8 * if q == p then s.fd F.LNK_CREDIT_CFG_MIN [q] else (s.port q).cfg.min).sum
  let granted := (ports.map fun q =>
    let x := s.port q
    if q != p && (x.st == .config || x.st == .lock || x.st == .active) then x.cfg.shared + x.cfg.replay else 0).sum
  40960 - 1024 - s.fd F.AML_ACC_RESV_RESV [t] * 1024 - ded - granted

/-- SHARED and REPLAY are granted; a port that cannot have its configured values gets what remains, REPLAY first (DEDUCED, log entry
40), and raises LINK_BUDGET. -/
def State.grantBuffer (s : State) (p : Nat) : State :=
  let sh := s.fd F.LNK_CREDIT_CFG_SHARED [p]
  let rp := s.fd F.LNK_REPLAY_CFG_REPLAY [p]
  let room := s.tileRoom p
  let x := s.port p
  let c := { x.cfg with min := s.fd F.LNK_CREDIT_CFG_MIN [p], replayMax := s.fd F.LNK_REPLAY_CFG_REPLAY_MAX [p] }
  if sh + rp ≤ room then s.setPort p { x with cfg := { c with shared := sh, replay := rp, short := false } }
  else
    let r := min rp room
    (s.setPort p { x with cfg := { c with shared := min sh (room - r), replay := r, short := true } }).report
      (tsrc 0x14 p) 6

/-- A port enters CONFIG with the lanes that have finished, and sends TS2 with its buffer offer. -/
def State.enterConfig (s : State) (p : Nat) (ls : List Nat) : State :=
  let s1 := (s.clearRx p).grantBuffer p
  let x := s1.port p
  ((s1.setPort p { x with cfg := { x.cfg with lanes := laneMask ls, ts2 := 0 } }).setLink p .config).sendTs p ls 2 0

/-! ## TS frames (R354, R413, R419) -/

/-- Has stage 5 ended on a lane: RX_READY in 8 consecutive TS1 both ways (R413)? -/
def Lane.trained (x : Lane) : Bool := decide (8 ≤ x.run) && decide (8 ≤ x.sentReady)

/-- A TS1 frame's effect on its lane: polarity, lane order, the partner's request acted on once, this receiver's own next
request once the last is answered, and the progress of both receivers. -/
def Lane.ts1 (x : Lane) (l : Nat) (f : TsFrame) : Lane :=
  let x := { x with
    stage := 5, signal := true, polInv := f.mirrored, swapped := f.lane % 2 != l, snr := f.ownSnr
    run := if f.rxReady then x.run + 1 else 0
    ready := f.ownReady }
  let x := if f.reqId == x.stsId then x else
    let (y, st) := x.act f.req
    { y with stsId := f.reqId, sts := st }
  let x := if f.stsId != x.reqId then x else match f.ask with
    | some r => { x with reqId := (x.reqId + 1) % 256, ask := r }
    | none => { x with ask := ⟨0, if x.ready then 4 else 0, 0⟩ }
  { x with sentReady := if x.ready then x.sentReady + 1 else 0 }

/-- The partner's LANES, read for this end's lanes: a lane in lock whose counterpart is clear is not used until a TS1 marks it
usable (R419). -/
def State.peerMarks (s : State) (p l : Nat) (f : TsFrame) : State :=
  let swap := f.lane % 2 != l
  [0, 1].foldl (fun s i =>
    let x := s.lane p i
    let usable := nbit f.lanes (if swap then 1 - i else i)
    if usable then s.setLane p i { x with peerRetired := false }
    else if decide (4 ≤ x.stage) || nbit (s.port p).cfg.lanes i then s.setLane p i { x with peerRetired := true }
    else s) s

/-- Do the lanes of a port that must train all have finished? Then it goes on to CONFIG (R378). -/
def State.checkTrained (s : State) (p : Nat) : State :=
  let ls := s.usableLanes p
  if (s.port p).st == .train && !ls.isEmpty && ls.all fun l => (s.lane p l).trained then s.enterConfig p ls else s

/-- TS1: a frame arrives on a lane in a state that looks for one; from DETECT, FAULTED or QUIET the port first enters TRAIN
(R378). -/
def ts1 (p l : Nat) (f : TsFrame) (s : State) : State :=
  let st := (s.port p).st
  if s.portCount ≤ p || 2 ≤ l || s.parked || !s.laneEnabled p l then s
  else if st == .disabled || st == .lock || st == .active then s
  else if !f.ok || f.ty == 0 || 3 < f.ty then s.bump R.LNK_PROTO_ERR_COUNT [p]
  else if f.ty != 1 then s
  else
    let s1 := if st == .train || st == .config then s else
      (s.setPort p { s.port p with peerFault := false }).enterTrain p
    let x := s1.port p
    let drop := st != .config && f.at56 && !x.cfg.rate56 && nbit x.cfg.fallRate 1
    let s2 := if drop then s1.setPort p { x with cfg := { x.cfg with rate56 := true, rates := 2 } } else s1
    let s3 := s2.peerMarks p l f
    let y := (s3.lane p l).ts1 l f
    let s4 := (s3.setLane p l y).sendTsOn p l 1 0
    s4.checkTrained p

/-- TS2: in CONFIG the partner's offer is recorded; a port cabled to the wrong partner, or with no rate or lane in common,
goes back to DETECT (R354, R378, R410). -/
def ts2 (p l : Nat) (f : TsFrame) (s : State) : State :=
  let x := s.port p
  if x.st != .config || 2 ≤ l || !s.laneEnabled p l then s
  else if !f.ok || f.ty == 0 || 3 < f.ty then
    (s.setPort p { x with cfg := { x.cfg with ts2 := 0 } }).bump R.LNK_PROTO_ERR_COUNT [p]
  else if f.ty != 2 then s
  else
    let swap := f.lane % 2 != l
    let lanes := if swap then f.lanes % 2 * 2 + f.lanes / 2 % 2 else f.lanes % 4
    let cfg := { x.cfg with
      ts2 := x.cfg.ts2 + 1, peerRates := f.rates % 4, peerLanes := lanes, peerMin := f.min, peerShared := f.shared
      peerDn := f.dn, peerPort := f.port, peerValid := true }
    let s1 := (s.setPort p { x with cfg := cfg }).setLane p l { s.lane p l with swapped := swap }
    if s.fb F.PORT_EXPECT_EN [p] && (s.fd F.PORT_EXPECT_DN [p] != f.dn || s.fd F.PORT_EXPECT_PORT [p] != f.port) then
      (s1.enterDetect p).report (tsrc 0x14 p) 5
    else if cfg.rates &&& cfg.peerRates == 0 || cfg.lanes &&& cfg.peerLanes == 0 then (s1.enterDetect p).report (tsrc 0x14 p) 4
    else s1

/-- CONFIG_COMPLETE: eight TS2 have come (DESIGN CHOICE, log entry 48): the link runs at the highest common rate on the common lanes; the port
sends TS3 and enters LOCK (R354, R355, R378), where its framed stream starts. What the scrambler's register holds then the manual does
not say: a free value (DESIGN CHOICE, log entry 134). -/
def configComplete (p : Nat) (s : State) : State :=
  let x := s.port p
  let rates := x.cfg.rates &&& x.cfg.peerRates
  let lanes := x.cfg.lanes &&& x.cfg.peerLanes
  if x.st != .config || x.cfg.ts2 < 8 || rates == 0 || lanes == 0 then s else
  let s1 := s.setPort p { x with cfg := { x.cfg with rate56 := !nbit rates 0, failed112 := false, lanes := lanes } }
  let ls := [0, 1].filter (nbit lanes)
  let s2 := ls.foldl (fun s l => let y := s.lane p l; s.setLane p l { y with conv := some (y.m3, y.m2, y.m1, y.p1) }) s1
  let s3 := [7, 6, 5, 4, 3, 2, 1, 0].foldl (fun s c => s.sendTs p ls 3 c) (s2.setLink p .lock)
  let (w, s4) := s3.freeWord
  s4.setTx p fun t => { t with scr := w.toNat % 2 ^ 58, line := [] }

/-- TS3: after COUNT 0 the framed stream starts (R355), the descrambler's register holding what it may (DESIGN CHOICE, log entry 134). -/
def ts3 (p : Nat) (f : TsFrame) (s : State) : State :=
  let x := s.port p
  if x.st != .config && x.st != .lock then s
  else if !f.ok || f.ty == 0 || 3 < f.ty then s.bump R.LNK_PROTO_ERR_COUNT [p]
  else if f.ty == 3 && f.count == 0 then
    let (w, s1) := s.freeWord
    s1.setPort p { x with rx := { x.rx with framed := true, descr := w.toNat % 2 ^ 58, line := [] } }
  else s

/-- CONFIG_TIMEOUT: 100 µs in CONFIG without an end to the TS2 exchange (R406). -/
def configTimeout (p : Nat) (s : State) : State :=
  let x := s.port p
  if x.st == .config && decide (100 * ticksPerUs ≤ s.locSince x.since) then s.enterDetect p else s

/-- LOCK_TIMEOUT: 1 ms in LOCK without lock (R378). -/
def lockTimeout (p : Nat) (s : State) : State :=
  let x := s.port p
  if x.st == .lock && decide (1000 * ticksPerUs ≤ s.locSince x.since) then s.enterTrain p else s

/-- SIGNAL_DETECT: signal or the wake pattern on a lane; from DETECT or QUIET the port sends TS1 (R378). A parked device
takes it as a wake event instead (R490). -/
def signalDetect (p l : Nat) (s : State) : State :=
  let st := (s.port p).st
  if s.portCount ≤ p || 2 ≤ l || s.parked || !s.laneEnabled p l then s else
  let s1 := if st == .detect || st == .quiet then s.enterTrain p else s
  if (s1.port p).st == .train then s1.setLane p l { s1.lane p l with signal := true } else s1

/-- RETRY_WAIT: a port in DETECT tries again (R407). -/
def retryWait (p : Nat) (s : State) : State :=
  let x := s.port p
  if x.st == .detect && s.fb F.LNK_CTRL_ENABLE [p] && ([0, 1].any fun l => !(s.lane p l).retired) &&
      decide (s.fd F.LANE_TRAIN_CFG_RETRY_WAIT * 1000 * ticksPerUs ≤ s.locSince x.since) then s.enterTrain p
  else s

/-! ## Retirement (R416, R418, R420) -/

/-- Ticks in a second. -/
def ticksPerSec : Nat := 4000000000

/-- Failed attempts of a lane in the window (R416). -/
def State.recentFails (s : State) (x : Lane) : List Word :=
  x.fails.filter fun t => decide (s.locSince t < s.fd F.LANE_RETIRE_CFG_FAIL_WINDOW * ticksPerSec)

/-- One lane is retired: its transmitter off, recorded, LANE_RETIRED raised; a scan on it ends. -/
def State.retireLane (s : State) (p l cause : Nat) : State :=
  let s1 := (s.eyeAbort p l).moveLane p l
  ((s1.setLane p l { s1.lane p l with retired := true, cause := cause }).recordRetirement).report
    (tsrc 0x16 (2 * p + l)) 2

/-- Lanes of a port are retired at once; the port goes on with the other lane, or is retired with its last one (R418). -/
def State.retireLanes (s : State) (p : Nat) (ls : List (Nat × Nat)) : State :=
  if ls.isEmpty then s else
  let active := (s.port p).st == .active
  let s1 := ls.foldl (fun s e => s.retireLane p e.1 e.2) s
  if ([0, 1].all fun l => (s1.lane p l).retired) then
    let s2 := if active then (s1.sendOsN p (osFault 2 s1.ownDn) 16).linkDown p .disabled else (s1.clearRx p).setLink p .disabled
    ((s2.setPort p { s2.port p with retired := true }).recordRetirement).report (tsrc 0x14 p) 3
  else if active then s1.retrainPort p
  else s1

/-- A lane counts a failed attempt. -/
def State.countFail (s : State) (p l : Nat) : State :=
  let x := s.lane p l
  s.setLane p l { x with fails := s.recentFails x ++ [s.loc] }

/-- TRAIN_TIMEOUT: the training budget expires (R406, R414). -/
def trainTimeout (p : Nat) (s : State) : State :=
  let x := s.port p
  let budget := 300 * ticksPerUs + s.fd F.LANE_TRAIN_CFG_EQ_BUDGET * 1000 * ticksPerUs
  if x.st != .train || s.locSince x.since < budget then s else
  let ls := s.usableLanes p
  let good := ls.filter fun l => (s.lane p l).trained
  let bad := ls.filter fun l => !(s.lane p l).trained && (s.lane p l).signal
  let s1 := bad.foldl (fun s l => s.countFail p l) s
  let s2 := if good.isEmpty then
      ((s1.setPort p { x with cfg := { x.cfg with failed112 := !x.cfg.rate56 } }).bump R.LNK_RETRAIN_COUNT [p]).enterDetect p
    else s1.enterConfig p good
  let failing := bad.filter fun l =>
    decide (s.fd F.LANE_RETIRE_CFG_FAIL_COUNT ≤ (s2.recentFails (s2.lane p l)).length)
  s2.retireLanes p (failing.map fun l => (l, 2))

/-- Errors and symbols of the last ten bins (R417). -/
def Lane.window (x : Lane) : Nat × Nat := (((x.bins.take 10).map (·.1)).sum, ((x.bins.take 10).map (·.2)).sum)

/-- Is the estimate beyond the limit (R416, R417)? -/
def State.beyondSer (s : State) (x : Lane) : Bool :=
  let (e, n) := x.window
  decide (10 ^ 9 ≤ n) && decide (s.fd F.LANE_RETIRE_CFG_SER_LIMIT * n < e * 10 ^ 9)

/-- The evaluation of a lane at a 1 s boundary: the estimate, LANE_FEC_CORRECTED, its second in the life store, and a new bin. -/
def State.evalLane (s : State) (p l : Nat) : State :=
  let x := s.lane p l
  let (e, n) := x.window
  let s1 := if n < 10 ^ 9 then s else s.wr R.LANE_SER_EST [p, l] (w64 (min (e * 10 ^ 9 / n) (2 ^ 32 - 1)))
  let s2 := if x.corr then s1.report (tsrc 0x16 (2 * p + l)) 8 else s1
  let s3 := if s.linkUp p && nbit (s.port p).cfg.lanes l then
      s2.accAdd (accSer (2 * p + l) (serBin 11 ((x.bins.map (·.1)).headD 0))) 4 1 else s2
  s3.setLane p l { s3.lane p l with bins := (0, 0) :: x.bins.take 9, corr := false, sec := s.loc.toNat / ticksPerSec }

/-- Is an evaluation of the lane due? -/
def State.serDue (s : State) (p l : Nat) : Bool := decide ((s.lane p l).sec < s.loc.toNat / ticksPerSec)

/-- SER_EVALUATION: a lane beyond SER_LIMIT is retired; both lanes of a port at once when both are beyond it at one boundary
(R417, R418). -/
def serEvaluation (p l : Nat) (s : State) : State :=
  if 2 ≤ l || s.portCount ≤ p || !s.serDue p l then s else
  let m := 1 - l
  let beyond (i : Nat) : Bool := s.beyondSer (s.lane p i) && !(s.lane p i).retired
  let s1 := s.evalLane p l
  if !beyond l then s1
  else if s.serDue p m && beyond m then (s1.evalLane p m).retireLanes p [(l, 1), (m, 1)]
  else s1.retireLanes p [(l, 1)]

/-- A retired lane is retired no more, and its failures are forgotten (R420). -/
def State.unretireLane (s : State) (p l : Nat) : State :=
  let x := s.lane p l
  if !x.retired then s else
  let s1 := (s.setLane p l { x with retired := false, restored := false, cause := 0, fails := [] }).recordRetirement
  let y := s1.port p
  if y.retired then (s1.setPort p { y with retired := false }).recordRetirement else s1

/-- LANE_RETEST: LANE_CTRL.RETEST is written 1. -/
def laneRetest (path : Path) (p l : Nat) (s : State) : State :=
  if s.mayWrite path (R.LANE_CTRL.addr [p, l]) && decide (l < 2) && decide (p < s.portCount) then s.unretireLane p l else s

/-! ## Enable, disable, retrain, wake (R364, R378) -/

/-- A port is disabled; in ACTIVE it first sends FAULT with REASON ADMIN_DOWN in 16 slots (R378; at once, DESIGN CHOICE, log entry 50). -/
def State.disablePort (s : State) (p : Nat) : State :=
  let x := s.port p
  let s1 := if x.st == .active then (s.sendOsN p (osFault 3 s.ownDn) 16).linkDown p .disabled else (s.clearRx p).setLink p .disabled
  s1.setPort p { s1.port p with waking := none, peerFault := false }

/-- A write of LNK_CTRL: LANE_EN, ENABLE, RETRAIN (Tables 15-11, 15-13). A retired port stays DISABLED (R418). -/
def lnkCtrl (path : Path) (p : Nat) (v : Word) (s : State) : State :=
  if !s.mayWrite path (R.LNK_CTRL.addr [p]) || s.portCount ≤ p then s else
  let s1 := s.wrSoft R.LNK_CTRL [p] v
  let x := s1.port p
  if !bitW v 0 then if x.st == .disabled then s1 else s1.disablePort p
  else if x.st == .disabled then if x.retired then s1 else (s1.resetDelay p).enterTrain p
  else if bitW v 1 && x.st == .active then s1.retrainPort p
  else s1

/-- LINK_ENABLE. -/
def linkEnable (path : Path) (p : Nat) (v : Word) (s : State) : State := if bitW v 0 then lnkCtrl path p v s else s
/-- LINK_DISABLE. -/
def linkDisable (path : Path) (p : Nat) (v : Word) (s : State) : State := if bitW v 0 then s else lnkCtrl path p v s
/-- RETRAIN. -/
def retrain (path : Path) (p : Nat) (v : Word) (s : State) : State := if bitW v 1 then lnkCtrl path p v s else s

/-- LINK_WAKE: a QUIET port that this device needs sends the wake pattern (R364). -/
def linkWake (p : Nat) (s : State) : State :=
  let x := s.port p
  if x.st == .quiet && !s.parked && s.fb F.LNK_CTRL_ENABLE [p] && x.waking.isNone then
    (s.setPort p { x with waking := some s.loc }).emit (.wakePattern p (s.usableLanes p) true)
  else s

/-- WAKE_PATTERN_END: after 10 ms the port goes on to TS1 (R364). -/
def wakePatternEnd (p : Nat) (s : State) : State :=
  match (s.port p).waking with
  | some t => if 10000 * ticksPerUs ≤ s.locSince t then s.enterTrain p else s
  | none => s

/-! ## Eye scans (R423) -/

/-- Is the lane in LOCK or ACTIVE? -/
def State.laneFramed (s : State) (p l : Nat) : Bool :=
  let x := s.port p
  (x.st == .lock || x.st == .active) && nbit x.cfg.lanes l && !(s.lane p l).retired

/-- EYE_SCAN: a write of EYE_CTRL, ignored while a scan runs. -/
def eyeScan (path : Path) (p l : Nat) (v : Word) (s : State) : State :=
  if !s.mayWrite path (R.EYE_CTRL.addr [p, l]) || s.portCount ≤ p || 2 ≤ l || s.fb F.EYE_CTRL_GO [p, l] then s else
  let s1 := s.wrSoft R.EYE_CTRL [p, l] v
  if !bitW v 31 then s1
  else
    let s2 := s1.setLane p l { s1.lane p l with eye := true, eyeAt := s.loc }
    if s.laneFramed p l then s2 else s2.eyeAbort p l

/-- EYE_SCAN_DONE: 2^(20 + DWELL) symbols have been compared, 28 to a tick at 112 GBd and 14 at 56 GBd, and n of them differed. -/
def eyeScanDone (p l n : Nat) (s : State) : State :=
  let x := s.lane p l
  if !x.eye then s
  else if !s.laneFramed p l then s.eyeAbort p l
  else if s.locSince x.eyeAt * (if (s.port p).cfg.rate56 then 14 else 28) < 2 ^ (20 + s.fd F.EYE_CTRL_DWELL [p, l]) then s
  else ((s.setLane p l { x with eye := false }).fset F.EYE_CTRL_GO [p, l] false).wr R.EYE_RESULT [p, l]
    (w64 (2 ^ 63 + min n (2 ^ (20 + s.fd F.EYE_CTRL_DWELL [p, l]))))

/-! ## Status (Tables 15-14, 17-7, 17-9) -/

/-- A link state's encoding (Table 15-10). -/
def LState.code : LState → Nat
  | .disabled => 0
  | .detect => 1
  | .train => 2
  | .config => 3
  | .lock => 4
  | .active => 5
  | .faulted => 6
  | .quiet => 7

def State.lnkStatus (s : State) (p : Nat) : Word :=
  let x := s.port p
  let used := if x.st == .config || x.st == .lock || x.st == .active then x.cfg.lanes else 0
  w64 (b2n x.cfg.short * 2 ^ 9 + b2n x.peerFault * 2 ^ 8 + b2n x.cfg.rate56 * 2 ^ 6 + used * 2 ^ 4 + x.st.code)
def State.lnkPeer (s : State) (p : Nat) : Word :=
  let c := (s.port p).cfg
  w64 (c.peerDn * 2 ^ 32 + b2n c.peerValid * 2 ^ 7 + c.peerPort)
def State.portStatus (s : State) (p : Nat) : Word :=
  w64 (b2n (s.port p).retired * 2 ^ 31 + b2n (s.lane p 1).retired * 2 + b2n (s.lane p 0).retired)

/-- The stage of Table 17-3 that a lane is in (DEDUCED, log entry 51). -/
def State.laneStage (s : State) (p l : Nat) : Nat :=
  match (s.port p).st with
  | .detect | .quiet => 2
  | .train => (s.lane p l).stage
  | .config => 6
  | .lock | .active => 7
  | _ => if s.isRunning then 1 else 0

def State.laneStatus (s : State) (p l : Nat) : Word :=
  let x := s.lane p l
  w64 (b2n x.retired * 2 ^ 31 + b2n x.peerRetired * 2 ^ 30 + b2n x.restored * 2 ^ 29 + x.cause * 2 ^ 27 +
    s.laneStage p l * 2 ^ 24 + b2n x.polInv * 2 ^ 23 + b2n x.swapped * 2 ^ 22 + min 15 (s.recentFails x).length * 2 ^ 16 +
    x.snr % 256 * 2 ^ 8)
def State.laneTxEq (s : State) (p l : Nat) : Word :=
  let x := s.lane p l
  w64 (ofSigned 8 x.m3 * 2 ^ 32 + ofSigned 8 x.m2 * 2 ^ 24 + ofSigned 8 x.m1 * 2 ^ 16 + ofSigned 8 x.c0 * 2 ^ 8 + ofSigned 8 x.p1)

/-! ## The commands -/

/-- TS1 (R354). -/
def execTs1 (p l : Nat) (f : TsFrame) (s : State) : Host.Outcome State Fault Refusal := .next (ts1 p l f s)
/-- TS2 (R354). -/
def execTs2 (p l : Nat) (f : TsFrame) (s : State) : Host.Outcome State Fault Refusal := .next (ts2 p l f s)
/-- CONFIG_COMPLETE (R378). -/
def execConfigComplete (p : Nat) (s : State) : Host.Outcome State Fault Refusal := .next (configComplete p s)
/-- TS3 (R355). -/
def execTs3 (p : Nat) (f : TsFrame) (s : State) : Host.Outcome State Fault Refusal := .next (ts3 p f s)
/-- CONFIG_TIMEOUT (R406). -/
def execConfigTimeout (p : Nat) (s : State) : Host.Outcome State Fault Refusal := .next (configTimeout p s)
/-- LOCK_TIMEOUT (R378). -/
def execLockTimeout (p : Nat) (s : State) : Host.Outcome State Fault Refusal := .next (lockTimeout p s)
/-- SIGNAL_DETECT (R378). -/
def execSignalDetect (p l : Nat) (s : State) : Host.Outcome State Fault Refusal := .next (signalDetect p l s)
/-- RETRY_WAIT (R407). -/
def execRetryWait (p : Nat) (s : State) : Host.Outcome State Fault Refusal := .next (retryWait p s)
/-- TRAIN_TIMEOUT (R414). -/
def execTrainTimeout (p : Nat) (s : State) : Host.Outcome State Fault Refusal := .next (trainTimeout p s)
/-- SER_EVALUATION (R417). -/
def execSerEvaluation (p l : Nat) (s : State) : Host.Outcome State Fault Refusal := .next (s.live (serEvaluation p l))
/-- LANE_RETEST (R420). -/
def execLaneRetest (path : Path) (p l : Nat) (s : State) : Host.Outcome State Fault Refusal := .next (laneRetest path p l s)
/-- LINK_ENABLE (R378). -/
def execLinkEnable (path : Path) (p : Nat) (v : Word) (s : State) : Host.Outcome State Fault Refusal :=
  .next (linkEnable path p v s)
/-- LINK_DISABLE (R378). -/
def execLinkDisable (path : Path) (p : Nat) (v : Word) (s : State) : Host.Outcome State Fault Refusal :=
  .next (linkDisable path p v s)
/-- RETRAIN (R378). -/
def execRetrain (path : Path) (p : Nat) (v : Word) (s : State) : Host.Outcome State Fault Refusal := .next (retrain path p v s)
/-- LINK_WAKE (R364). -/
def execLinkWake (p : Nat) (s : State) : Host.Outcome State Fault Refusal := .next (linkWake p s)
/-- WAKE_PATTERN_END (R364). -/
def execWakePatternEnd (p : Nat) (s : State) : Host.Outcome State Fault Refusal := .next (wakePatternEnd p s)
/-- EYE_SCAN (R423). -/
def execEyeScan (path : Path) (p l : Nat) (v : Word) (s : State) : Host.Outcome State Fault Refusal := .next (eyeScan path p l v s)
/-- EYE_SCAN_DONE (R423). -/
def execEyeScanDone (p l n : Nat) (s : State) : Host.Outcome State Fault Refusal := .next (s.live (eyeScanDone p l n))

end Sys2Proof.Machine
end

