-- ==== Sys2Proof/Machine/HostLink.lean ====
section
/-! DEFINITION. Machine/HostLink.lean: host attachments and their power, functions and their resets, and the adapter reset (R193,
R217, R283, R426 to R431, R436 to R440). -/
namespace Sys2Proof.Machine

/-! ## Resets of functions (R217, R283, R428) -/

/-- A function whose configuration space has been reset: its interrupts stay held (R194), and its vectors are masked. -/
def Func.reset (x : Func) : Func :=
  { Func.init with held := x.held, msix := SMap.mapVals msixInit (fun _ e => (e.1, e.2.1, true)) x.msix }

/-- WAKE_N is released when no wake asked for in D3cold is pending (R439). -/
def State.settleWake (s : State) : State :=
  if s.host.wakeN && !s.host.funcs.any (fun e => e.2.wakePend && e.2.dstate != .d0) then
    { s with host := { s.host with wakeN := false } }.emit (.pin "WAKE_N" true)
  else s

/-- The functions that satisfy a test take a function-level reset: keys, halves, endpoints, contexts, configuration space (R217,
R283, R428). Their queues and rings stay as they are (DEDUCED, log entry 70). -/
def State.resetFuncs (s : State) (p : Nat → Bool) : State :=
  let s1 := (s.arbSync.releaseCtxs p).resetKeys p
  let s2 := { s1 with host := { s1.host with
    funcs := SMap.mapVals Func.init (fun f x => if p f then x.reset else x) s1.host.funcs } }
  s2.settleWake.arbSync

/-- FUNCTION_LEVEL_RESET: a PF of an attachment, or a VF. -/
def functionLevelReset (f : Nat) (s : State) : State :=
  let exists_ := if f < 16 then s.attExists f else (List.range 16).any fun p => s.attExists p && s.isVfOf p f
  if exists_ && !s.inSafe then s.resetFuncs (· == f) else s

/-! ## Links (R426 to R428) -/

/-- The functions of an attachment. -/
def State.onAtt (s : State) (a f : Nat) : Bool := s.pfOf f == a && (decide (f < 16) || s.isVfOf a f)

/-- The outstanding requests of the functions that satisfy a test end as by timeout (Table 18-5). -/
def State.endReads (s : State) (p : Nat → Bool) : State :=
  (SMap.keysWhere (fun _ r => r.any fun r => p r.func) s.host.reads).foldl (fun s t => s.hostDone t 2 []) s

/-- PERST_N_k changes level: while it is low link k is down and its functions are reset; its release latches BIFUR and MAX_RATE, and
the link trains again (R426, R428). -/
def perst (k : Nat) (level : Bool) (s : State) : State :=
  if 4 ≤ k || s.inSafe || s.host.perst.get false k == !level then s
  else
    let s1 := { s with host := { s.host with perst := s.host.perst.set false k (!level) } }
    if level then
      { s1 with host := { s1.host with
        bifur := s1.host.bifur.set 0 k (s1.fd F.HIF_LINK_CFG_BIFUR [k]), maxRate := s1.host.maxRate.set 0 k (s1.fd F.HIF_LINK_CFG_MAX_RATE [k]) } }
    else
      let p (f : Nat) : Bool := (List.range 4).any fun j => s.onAtt (4 * k + j) f
      let s2 := (s1.endReads p).resetFuncs p
      (List.range 4).foldl (fun s j => s.setAtt (4 * k + j) Attach.init) s2

/-- HOST_LINK_DOWN: the data link of an attachment fails outside a fundamental reset (R428). -/
def hostLinkDown (a : Nat) (s : State) : State :=
  if !s.attExists a || !(s.att a).up || s.inSafe then s
  else (((s.endReads (s.onAtt a)).resetFuncs (s.onAtt a)).setAtt a Attach.init).report (tsrc 6 a) 0x51

/-- HOST_LINK_UP: an attachment has trained, at a RATE and WIDTH of Table 18-7 within its limits (R427). -/
def hostLinkUp (a width rate : Nat) (s : State) : State :=
  let k := a / 4
  let full := 16 / attsOf (s.host.bifur.get 0 k)
  if !s.attExists a || (s.att a).up || s.host.perst.get false k || full < width || width == 0 ||
      4 + min 2 (s.host.maxRate.get 2 k) < rate || s.inSafe then s
  else
    let s1 := s.setAtt a { Attach.init with up := true, belowMin := decide (rate < 4), pstate := 0, width := width, rate := rate, quietFrom := s.loc }
    if rate < 4 then s1.report (tsrc 6 a) 0x50 else s1

/-! ## Power (R437 to R439) -/

/-- Interrupts that a function holds are sent where they can be. -/
def State.sendHeld (s : State) (f : Nat) : State := ((s.func f).held.map (·.1)).foldl (fun s v => msixSend f v s) s

/-- The functions of an attachment that have state. -/
def State.funcsOn (s : State) (a : Nat) : List Nat := (s.host.funcs.map (·.1)).filter (s.onAtt a)

/-- Has a function a request to send: a completion to write, an interrupt to send, or an entry to fetch? -/
def State.wants (s : State) (f : Nat) : Bool :=
  s.canMaster f && !s.adapterHalted &&
  ((s.rings.cqs.any fun e => e.2.func == f && (!e.2.direct.isEmpty || (!e.2.held.isEmpty && decide (0 < e.2.k)))) ||
   (let x := s.func f; x.msixEn && !x.fmask && x.held.any fun v => !(x.msix.get msixInit v.1).2.2) ||
   s.rings.queues.any fun e => e.2.func == f && e.2.state == .ready && e.2.work)

/-- L1_ENTRY: an attachment without traffic for HIF_L1_IDLE enters L1, or the substate that the host permits (R437). -/
def l1Entry (a : Nat) (s : State) : State :=
  let x := s.att a
  if x.up && decide (x.pstate ≤ 1) && (s.func a).aspm && !x.exiting &&
      decide ((s.rd R.HIF_L1_IDLE).toNat * ticksPerUs ≤ s.locSince x.quietFrom) then
    s.setAtt a { x with pstate := 2 + min x.l1ss 2 }
  else s

/-- L1_EXIT: an attachment that sleeps, with a request of one of its functions to send, starts its exit (R437). -/
def l1Exit (a : Nat) (s : State) : State := if (s.funcsOn a).any s.wants then s.startExit a else s

/-- Does an attachment sleep in L1 or an L1 substate (Table 18-7)? -/
def Attach.asleep (x : Attach) : Bool := x.up && decide (2 ≤ x.pstate) && decide (x.pstate ≤ 4)

/-- EXIT_TO_L0_COMPLETE: an attachment that slept is in L0, by an exit that the device started or that the host did (DESIGN CHOICE, log
entry 157); messages and fault records that waited for it are sent (R437). -/
def exitToL0Complete (a : Nat) (s : State) : State :=
  let x := s.att a
  if !x.asleep || s.inSafe then s
  else
    let s1 := s.setAtt a { x with pstate := 0, exiting := false, quietFrom := s.loc }
    ((s.funcsOn a).foldl (fun s f => s.sendHeld f) s1).reportFaults 1024

/-- The D-state of a code of Table 18-8. -/
def dstateOf (d : Nat) : Option DState :=
  match d with
  | 0 => some .d0
  | 1 => some .d3hot
  | 2 => some .d3cold
  | _ => none

/-- FUNCTION_STATE_CHANGE: a function's D-state, or what its host has written in its configuration space, changes. In D0 its wake
is over (DESIGN CHOICE, log entry 71); when it can master again, held completions are written, held interrupts sent, and fetching goes on (R438,
R439). -/
def functionStateChange (f d : Nat) (cfg : FuncCfg) (s : State) : State :=
  match dstateOf d with
  | none => s
  | some ds =>
    if !(s.attExists (s.pfOf f) && (decide (f < 16) || s.isVfOf (s.pfOf f) f)) then s
    else
      let x := s.func f
      let awake := ds == .d0
      let y : Func := { x with
        dstate := ds, bme := cfg.bme, msixEn := cfg.msixEn, fmask := cfg.fmask, pmeEn := cfg.pmeEn, atomicEn := cfg.atomicEn
        cplTimeout := cfg.cplTimeout, aspm := cfg.aspm, bars := cfg.bars, numVfs := cfg.numVfs
        vfEnable := cfg.vfEnable && decide (f < 16) && decide (cfg.numVfs ≤ s.vfCount f)
        wakePend := x.wakePend && !awake, pmeStatus := x.pmeStatus && !awake
        rxHeld := x.rxHeld && !(x.dstate == .d0 && !awake) }
      let s1 := s.arbSync.setFunc f y
      let s2 := if f < 16 then s1.setAtt f { s1.att f with l1ss := cfg.l1ss } else s1
      let s3 := s2.settleWake.arbSync
      if s.canMaster f || !s3.canMaster f then s3
      else
        let cns := SMap.keysWhere (fun _ c => c.func == f) s3.rings.cqs
        ((cns.foldl (fun s cn => s.checkFull cn) s3).sendHeld f).reportFaults 1024

/-! ## VF allocation (R431) -/

/-- VF_ALLOC_WRITE: ignored while VF Enable of the PF is 1; a range that overlaps another or passes 1,023 leaves COUNT 0. -/
def vfAllocWrite (path : Path) (pf : Nat) (v : Word) (s : State) : State :=
  let refused (b : Bool) (s : State) : State := { s with host := { s.host with allocRefused := b } }
  if 16 ≤ pf || !s.mayWrite path (R.HIF_VF_ALLOC.base + 4 * pf) then s
  else if (s.func pf).vfEnable then refused true s
  else
    let s1 := s.wrSoft R.HIF_VF_ALLOC [pf] v
    let lo := s1.vfFirst pf
    let n := s1.vfCount pf
    let meets (a : Nat) : Bool := a != pf && decide (lo < s1.vfFirst a + s1.vfCount a) && decide (s1.vfFirst a < lo + n)
    if n != 0 && (decide (1024 < lo + n) || (List.range 16).any meets) then refused true (s1.fw F.HIF_VF_ALLOC_COUNT [pf] 0)
    else refused false s1

/-! ## Adapter reset (R193, R217, R283) -/

/-- The control commands that no ring waits for any more. -/
def State.dropCommands (s : State) : State :=
  let drop (i : Inval) : Inval := { i with cmd := none }
  let s := s.fset F.XLT_REVOKE_CTRL_GO [] false
  { s with net := { s.net with
    revoking := none, revokeQueue := [], faultWaits := [], pendFaults := [], invals := s.net.invals.map drop
    invalQueue := s.net.invalQueue.map drop } }

/-- What an adapter reset does. -/
def State.adapterReset (s : State) : State :=
  let s1 := (((s.accAdd accAdapterResets 4 1).dropCtxs fun _ => true).ringsReset).dropCommands
  let s2 := s1.resetKeys fun _ => true
  let s3 := { s2 with
    tgf := { s2.tgf with
      halted := false, faultNAdapter := false
      frozen := s2.tgf.frozen.filter fun i => (s2.hrec i).cls != 3 }
    host := { s2.host with reads := [] } }
  if s2.tgf.faultNAdapter && !s2.tgf.faultNDevice then s3.emit (.pin "FAULT_N" true) else s3

/-- ADAPTER_RESET: HIF_ADAPTER_RESET written through the BAR0 of a PF; it needs the key, GO, and HALTED (R193). -/
def adapterReset (pf : Nat) (v : BitVec 32) (s : State) : State :=
  if s.attExists pf && v.toNat / 2 ^ 16 == 0xAD5E && nbit v.toNat 0 && s.tgf.halted && !s.inSafe then s.adapterReset else s

/-! ## Registers (Tables 18-6 to 18-8) -/

/-- HIF_ATT_STATUS, HIF_STATUS, HIF_MOVER_BUSY and HIF_FUNC_STATE. In the safe state WAKE_N is released (R451). -/
def State.attStatus (s : State) (a : Nat) : Word :=
  let x := s.att a
  if !s.attExists a then 0 else
  w64 (b2n x.up * 2 ^ 31 + b2n x.belowMin * 2 ^ 30 + x.pstate * 2 ^ 27 + x.width * 2 ^ 16 + x.rate)
def State.hifStatus (s : State) : Word := w64 (b2n s.host.allocRefused * 2 ^ 31 + b2n (s.host.wakeN && !s.inSafe))
def State.moverBusy (s : State) : Word :=
  w64 ((List.range 64).map fun m => if (s.host.movers.get none m).isSome then 2 ^ m else 0).sum
def State.funcState (s : State) (f : Nat) : Word :=
  let x := s.func f
  let d := match x.dstate with
    | .d0 => 0
    | .d3hot => 1
    | .d3cold => 2
  w64 (d * 2 ^ 30 + b2n x.bme * 2 ^ 29 + b2n x.msixEn * 2 ^ 28 + b2n x.fmask * 2 ^ 27 + b2n x.wakePend * 2 ^ 26 + x.held.length)

/-! ## The commands -/

/-- HOST_LINK_DOWN (R428). -/
def execHostLinkDown (a : Nat) (s : State) : Host.Outcome State Fault Refusal := .next (hostLinkDown a s)
/-- HOST_LINK_UP (R427). -/
def execHostLinkUp (a width rate : Nat) (s : State) : Host.Outcome State Fault Refusal := .next (hostLinkUp a width rate s)
/-- FUNCTION_LEVEL_RESET (R217). -/
def execFunctionLevelReset (f : Nat) (s : State) : Host.Outcome State Fault Refusal := .next (functionLevelReset f s)
/-- VF_ALLOC_WRITE (R431). -/
def execVfAllocWrite (path : Path) (pf : Nat) (v : Word) (s : State) : Host.Outcome State Fault Refusal :=
  .next (vfAllocWrite path pf v s)
/-- L1_ENTRY (R437). -/
def execL1Entry (a : Nat) (s : State) : Host.Outcome State Fault Refusal := .next (l1Entry a s)
/-- L1_EXIT (R437). -/
def execL1Exit (a : Nat) (s : State) : Host.Outcome State Fault Refusal := .next (l1Exit a s)
/-- ADAPTER_RESET (R193). -/
def execAdapterReset (pf : Nat) (v : BitVec 32) (s : State) : Host.Outcome State Fault Refusal := .next (adapterReset pf v s)

end Sys2Proof.Machine
end

