-- ==== Sys2Proof/Machine/Link.lean ====
section
/-! DEFINITION. Machine/Link.lean: the framed stream: slots sent and received, credits, link-level retry, packets put
together from cells, and lock (R356 to R363, R367 to R378). -/
namespace Sys2Proof.Machine

/-! ## Sending (R361, R370, R376, R377) -/

/-- Cell slots that may be held (R376). -/
def Port.window (x : Port) : Nat := min x.cfg.replay 4095

/-- CTYPE of cell k of n (R360). -/
def ctypeOf (k n : Nat) : Nat := if n == 1 then 4 else if k == 0 then 1 else if k + 1 == n then 3 else 2

/-- The packet as it goes out on this link: HC, LDET and GDET rewritten (R319, R321, R366). -/
def EgrPkt.out (e : EgrPkt) : Packet := { e.rp.pkt with hc := e.rp.h, ldet := e.ldet, gdet := e.gdet }

/-- The next cell of the packet in progress leaves; its own credit of the link it came by is freed; with the last cell the
packet has departed (R110, R371, R391). -/
def State.sendCell (s : State) (p : Nat) : State :=
  let x := s.port p
  match x.tx.cur with
  | none => s
  | some f =>
    let k := f.sent
    let n := f.e.cells
    let c : SentCell :=
      { lseq := x.tx.lseq, ctype := ctypeOf k n, chc := f.e.rp.h, csh := decide (f.ded ≤ k)
        body := byteSlice f.e.out.bytes (256 * k) 256 }
    let last := k + 1 == n
    let (cred, s1) := s.freeOne f.e.rp.cred
    let f' := { f with sent := k + 1, e := { f.e with rp := { f.e.rp with cred := cred } } }
    let s2 := s1.setTx p fun t => { t with
      lseq := (t.lseq + 1) % 4096, store := t.store ++ [c], cur := if last then none else some f'
      progAt := if t.store.isEmpty then s.loc else t.progAt }
    let s3 := (s2.sendSlot p c.lseq c.ctype c.chc c.csh c.body).bump R.SCH_TX_CELLS [p, f.e.rp.pkt.tc]
    let s3 := if f.e.rp.pkt.tc == 6 then s3.pmuPort p 0x208 else s3
    if !last then s3
    else
      let late := match f.close with
        | some t => decide (250 * t < 250 * s.ft.toNat + x.slotPs)
        | none => false
      let s4 := if late then s3.bump R.GATE_SPILL_COUNT [p] else s3
      s4.departOne f.e.rp.op

/-- Does some head wait for credit? -/
def Port.creditWait (x : Port) : Bool :=
  x.tx.queues.any fun e => match e.2.head? with
    | some y => !x.tx.credit (e.1 % 8) y.cells
    | none => false

/-- SLOT_SEND: the first that applies of R377: FAULT in the safe state, a replayed slot, the next cell, the head that egress
scheduling chooses, IDLE. In LOCK there is only IDLE. A time ordered set that is due takes its slot by its own command (DESIGN CHOICE,
log entry 34). -/
def slotSend (p : Nat) (s : State) : State :=
  let x := s.port p
  if (x.st != .lock && x.st != .active) || s.tgf.txOff then s
  else if s.inSafe then s.sendFault p 1
  else if x.st == .lock then s.sendIdle p
  else match x.tx.replay with
    | c :: rest => (s.setTx p fun t => { t with replay := rest }).sendSlot p c.lseq c.ctype c.chc c.csh c.body
    | [] =>
      if x.window ≤ x.tx.store.length then s.sendIdle p
      else if x.tx.cur.isSome then s.sendCell p
      else
        let s0 := gateEdge p s
        let s1 := if x.creditWait then s0.bump R.LNK_CREDIT_WAIT [p] else s0
        match s1.headDecision p with
        | (some t, s2) => (s2.startHead p t).sendCell p
        | (none, s2) => s2.sendIdle p

/-! ## Replay (R376) -/

/-- A replay of every held slot, after a NAK with this LACK or a timeout; past REPLAY_MAX without progress the port
retrains. -/
def State.startReplay (s : State) (p lack : Nat) : State :=
  let x := s.port p
  if x.cfg.replayMax ≤ x.tx.noProg then s.retrainPort p
  else ((s.setTx p fun t => { t with
    replay := t.store, lastStart := some (lack, s.loc), noProg := t.noProg + 1, progAt := s.loc }).bump R.LNK_REPLAY_COUNT [p]).pmuPort p 0x205

/-- LNK_REPLAY_TIMEOUT in ticks. -/
def State.replayTicks (s : State) (p : Nat) : Nat := (s.rd R.LNK_REPLAY_TIMEOUT [p]).toNat * 4

/-- REPLAY_TIMEOUT: slots are held and LACK has not moved (R376). -/
def replayTimeout (p : Nat) (s : State) : State :=
  let x := s.port p
  match x.tx.store with
  | c :: _ =>
    if x.st == .active && decide (s.replayTicks p ≤ s.locSince x.tx.progAt) then s.startReplay p ((c.lseq + 4095) % 4096) else s
  | [] => s

/-! ## Receiving (R357, R361, R367, R371, R375, R417) -/

/-- Codewords are counted: per lane, in the port's histogram, and in ACTIVE in the newest bin (R417). -/
def State.countCw (s : State) (p : Nat) (bad : Bool) (e0 e1 : Nat) : State :=
  let x := s.port p
  let ls := [0, 1].filter (nbit x.cfg.lanes)
  let errs (l : Nat) : Nat := if l == 0 then e0 else e1
  let s1 := s.bump R.PORT_FEC_HIST [p, if bad then 16 else min 15 (e0 + e1)]
  let s2 := s1.setRxl p fun r => { r with cwRun := if bad then 0 else r.cwRun + 1 }
  ls.foldl (fun s l =>
    let s := s.bump R.LANE_CW_COUNT [p, l]
    let s := if bad then s.bump R.LANE_UNCORR_COUNT [p, l] else s.bump R.LANE_SYM_ERR_COUNT [p, l] (errs l)
    if x.st != .active then s else
    let y := s.lane p l
    let (e, n) := y.bins.headD (0, 0)
    let sym := if x.oneLane then 544 else 272
    s.setLane p l { y with
      bins := (e + (if bad then 8 else errs l), n + sym) :: y.bins.drop 1
      corr := y.corr || (!bad && errs l != 0) }) s2

/-- A codeword is decoded and counted, and its message joins the received stream (R356). -/
def State.takeCw (s : State) (p : Nat) (c : Codeword) : State :=
  let (msg, bad, e0, e1) := s.decodeCw p c
  (s.countCw p bad e0 e1).setRxl p fun r => r.take msg bad

/-- A NAK becomes pending. -/
def State.pendNak (s : State) (p : Nat) : State :=
  if (s.port p).rx.nak then s else (s.setRxl p fun r => { r with nak := true }).bump R.LNK_NAK_COUNT [p]

/-- A FAULT slot that was not followed by a second one is counted (R363). -/
def State.noFault (s : State) (p : Nat) : State :=
  if (s.port p).rx.faultSeen then (s.setRxl p fun r => { r with faultSeen := false }).bump R.LNK_PROTO_ERR_COUNT [p] else s

/-- A credit return applied (R371). -/
def LinkTx.credited (x : LinkTx) (cr : Nat) : LinkTx :=
  let k := cr / 4096
  let total := cr % 4096
  if 8 < k then x else
  let d := (total + 4096 - x.seen.getD k 0) % 4096
  let y := { x with seen := x.seen.set k total }
  if k == 8 then { y with sh := y.sh + d } else { y with ded := y.ded.modify k (· + d) }

/-- A LACK applied: the slots it covers are held no more (R376). -/
def LinkTx.acked (x : LinkTx) (lack : Nat) (now : Word) : LinkTx :=
  match x.store with
  | [] => x
  | c :: _ =>
    let n := (lack + 4097 - c.lseq) % 4096
    if n == 0 || x.store.length < n then x else
    let gone := (x.store.take n).map (·.lseq)
    { x with
      store := x.store.drop n, replay := x.replay.filter (!gone.contains ·.lseq), noProg := 0, progAt := now }

/-- A NAK applied: a replay, unless one that began at this LACK is younger than LNK_REPLAY_TIMEOUT (R376). -/
def State.naked (s : State) (p lack : Nat) : State :=
  let t := (s.port p).tx
  if t.store.isEmpty then s
  else match t.lastStart with
    | some (l, at_) => if l == lack && s.locSince at_ < s.replayTicks p then s else s.startReplay p lack
    | none => s.startReplay p lack

/-- The port enters FAULTED (R363, R378). -/
def State.enterFaulted (s : State) (p : Nat) : State :=
  let s1 := s.linkDown p .faulted
  s1.setPort p { s1.port p with peerFault := true }

/-- An ordered set is taken (R361, R363). The time ordered sets come by commands of their own. -/
def State.takeOs (s : State) (p : Nat) (body : List Byte) : State :=
  let ty := leAt body 0 1
  if ty == 4 then
    if (s.port p).rx.faultSeen then s.enterFaulted p else s.setRxl p fun r => { r with faultSeen := true }
  else
    let s1 := s.noFault p
    if ty == 5 then s1.linkDown p .quiet
    else if ty ≤ 3 then s1
    else s1.bump R.LNK_PROTO_ERR_COUNT [p]

/-- A packet whose last cell has come, in transit or not (Table 21-2): its head is checked, and it goes to its tile, or is discarded with its credits
returned (R367). -/
def State.takePacket (s : State) (p : Nat) (a : Assembly) : State :=
  let pk := packetOf a.bytes
  if a.bad || !pk.headOk || pk.hc != a.hc || pk.cells != a.cells then
    (s.freeAll (some a.cred)).bump R.LNK_BAD_PKT_COUNT [p]
  else (if pk.dstDn == s.ownDn then s else { s with dev := { s.dev with transitAt := some s.loc } }).toTile (tileOfPort p) { pkt := pk, src := some p, h := pk.hc + 1, op := none, set := none, cred := some a.cred }

/-- An assembly with one more cell. -/
def Assembly.add (a : Assembly) (f : Slot) : Assembly :=
  { a with
    bytes := if a.cells < 17 then a.bytes ++ byteSlice f.body 0 256 else a.bytes
    cells := a.cells + 1
    bad := a.bad || f.chc != a.hc || decide (17 ≤ a.cells)
    cred := if f.csh then { a.cred with sh := a.cred.sh + 1 } else { a.cred with ded := a.cred.ded + 1 } }

/-- A cell accepted in order: a packet's cells follow one another as HEAD, BODY, TAIL, or SINGLE (R360, R367). -/
def State.takeCell (s : State) (p : Nat) (f : Slot) : State :=
  let x := (s.port p).rx
  let first := f.ctype == 1 || f.ctype == 4
  let s1 := match x.asm with
    | some a => if first then (s.setRxl p fun r => { r with asm := none }).takePacket p { a with bad := true } else s
    | none => s
  let new : Assembly := ⟨[], 0, f.chc, !first, ⟨p, f.chc, 0, 0, x.ses⟩⟩
  let a := (if first then new else x.asm.getD new).add f
  if f.ctype == 3 || f.ctype == 4 then (s1.setRxl p fun r => { r with asm := none }).takePacket p a
  else s1.setRxl p fun r => { r with asm := some a }

/-- The content of a good slot, after its trailer has been applied. -/
def State.takeSlotBody (s : State) (p : Nat) (f : Slot) : State :=
  if f.ctype == 8 then s.takeOs p f.body
  else
    let s1 := s.noFault p
    if f.lseq == (s1.port p).rx.x then
      ((s1.setRxl p fun r => { r with x := (r.x + 1) % 4096, nak := false }).pmuPort p 0x202).takeCell p f
    else s1.pendNak p

/-- A slot that fails: discarded whole; NAK becomes pending in ACTIVE (R357, R375). -/
def State.slotFailed (s : State) (p : Nat) : State :=
  let s1 := ((s.setRxl p fun r => { r with failRun := r.failRun + 1, okRun := 0 }).bump R.LNK_SLOT_FAIL_COUNT [p]).noFault p
  if (s1.port p).st == .active then s1.pendNak p else s1

/-- Is a CTYPE one of Table 15-3? -/
def ctypeOk (c : Nat) : Bool := (decide (1 ≤ c) && decide (c ≤ 4)) || c == 8

/-- A slot: a failed one is discarded; a good one counts toward lock and, in ACTIVE, its credit returns, LACK and NAK are applied
in that order and then its content (R357, R359, R375, R376). -/
def State.takeSlotIn (s : State) (p : Nat) (f : Slot) : State :=
  if !f.ok then s.slotFailed p
  else if !ctypeOk f.ctype then (s.slotFailed p).bump R.LNK_PROTO_ERR_COUNT [p]
  else
    let s2 := s.setRxl p fun r => { r with okRun := r.okRun + 1, failRun := 0 }
    if (s.port p).st == .lock then s2 else
    let s3 := s2.setTx p fun t => ((t.credited f.cra).credited f.crb).acked f.lack s.loc
    let s4 := if f.nak then s3.naked p f.lack else s3
    if (s4.port p).st == .active then s4.takeSlotBody p f else s4

/-- The codewords that end with the next slot are decoded and counted, and the slot is cut from the stream; none while it is not
whole (R356). -/
def State.slotFrom (s : State) (p : Nat) (cws : List Codeword) : Option Slot × State :=
  let s1 := cws.foldl (fun s c => s.takeCw p c) s
  match (s1.port p).rx.nextSlot with
  | some (f, r) => (some f, s1.setRxl p fun _ => r)
  | none => (none, s1)

/-- SLOT_RECEIVED: codewords arrive, and with them a slot. Nothing is received in the safe state (Table 1-5). -/
def slotReceived (p : Nat) (cws : List Codeword) (s : State) : State :=
  let x := s.port p
  if (x.st != .lock && x.st != .active) || !x.rx.framed || s.inSafe then s else
  match s.slotFrom p cws with
  | (some f, s1) => s1.takeSlotIn p f
  | (none, s1) => s1

/-- SLOT_LOCK: codeword and slot lock; the link is up, with credit from the partner's TS2 (R357, R369, R378). -/
def slotLock (p : Nat) (s : State) : State :=
  let x := s.port p
  if x.st != .lock || x.rx.cwRun < 4 || x.rx.okRun < 8 then s else
  let tx := { LinkTx.init with
    scr := x.tx.scr, line := x.tx.line
    ded := List.replicate 8 x.cfg.peerMin, sh := x.cfg.peerShared, seen := List.replicate 9 0, queues := x.tx.queues
    progAt := s.loc }
  let rx := { x.rx with x := 0, nak := false, totals := List.replicate 9 0, rot := 0, asm := none, ses := x.rx.ses + 1 }
  s.setPort p { x with st := .active, since := s.loc, peerFault := false, tx := tx, rx := rx }

/-- LOCK_LOST: 16 consecutive slots have failed (R357). -/
def lockLost (p : Nat) (s : State) : State :=
  let x := s.port p
  if x.st == .active && decide (16 ≤ x.rx.failRun) then s.retrainPort p else s

/-- FAULT: two consecutive FAULT ordered sets are received (R363). No register keeps their REASON (DEDUCED, log entry 46). -/
def faultReceived (p _reason : Nat) (s : State) : State := if (s.port p).st == .active then s.enterFaulted p else s

/-- SLEEP is received: the link enters QUIET (R363). -/
def sleepReceived (p : Nat) (s : State) : State := if (s.port p).st == .active then s.linkDown p .quiet else s

/-! ## The commands -/

/-- SLOT_SEND (R377). -/
def execSlotSend (p : Nat) (s : State) : Host.Outcome State Fault Refusal := .next (slotSend p s)
/-- SLOT_RECEIVED (R375). -/
def execSlotReceived (p : Nat) (cws : List Codeword) (s : State) : Host.Outcome State Fault Refusal := .next (slotReceived p cws s)
/-- SLOT_LOCK (R357). -/
def execSlotLock (p : Nat) (s : State) : Host.Outcome State Fault Refusal := .next (slotLock p s)
/-- LOCK_LOST (R357). -/
def execLockLost (p : Nat) (s : State) : Host.Outcome State Fault Refusal := .next (lockLost p s)
/-- REPLAY_TIMEOUT (R376). -/
def execReplayTimeout (p : Nat) (s : State) : Host.Outcome State Fault Refusal := .next (replayTimeout p s)
/-- FAULT (R363). -/
def execFault (p reason : Nat) (s : State) : Host.Outcome State Fault Refusal := .next (faultReceived p reason s)
/-- SLEEP (R363). -/
def execSleep (p : Nat) (s : State) : Host.Outcome State Fault Refusal := .next (sleepReceived p s)

end Sys2Proof.Machine
end

