-- ==== Sys2Proof/Machine/Power.lean ====
section
/-! DEFINITION. Machine/Power.lean: power states and wake, the kinds of reset, secure boot, and fabric-ready (R485 to R503). -/
namespace Sys2Proof.Machine

/-! ## Fatal fault records in the store (R479, R452) -/

/-- The body of a fatal fault record: SEQ, FT and INV_LOCAL of the first fatal event, COMPLETE, the CRC, the 32 records and
TGF_POST_FATAL. The places in the header beyond the order given are the model's (DESIGN CHOICE, log entry 75). -/
def State.fatalBytes (s : State) (complete : Bool) : List Byte :=
  let g := s.tgf
  let first := s.hrec (g.frozen.getD 0)
  let head := leBytes 8 (s.dev.life.fatals + 1) ++ leBytes 8 first.ft.toNat ++ leBytes 8 first.locAt.toNat ++
    leBytes 1 (b2n complete) ++ zeroBytes 35
  let recs := ((List.range 32).flatMap fun i => (s.hrec i).bytes) ++ (g.post.getD ErrRec.zero).bytes
  head ++ leBytes 4 (crc32 polyCrc32 (head ++ recs)) ++ recs

/-- The slot of the next fatal fault record: 0 to 7 first, then 8 to 63 in rotation (R479). -/
def fatalSlot (n : Nat) : Nat := if n < 8 then n else 8 + (n - 8) % 56

/-- The record that is due is written, whole or, when a reset cuts it off, without COMPLETE. -/
def State.writeFatal (s : State) (complete : Bool) : State :=
  if !s.tgf.fatalDue then s else
  let n := s.dev.life.fatals
  let s1 := s.mwrite (pewterKey (fatalOff (fatalSlot n))) (s.fatalBytes complete)
  { s1 with
    tgf := { s1.tgf with fatalDue := false }
    dev := { s1.dev with life := { s1.dev.life with fatals := n + 1 } } }

/-! ## Resets (R495, R533, Tables 21-6 and 19-8) -/

/-- What a power-on or device reset leaves: every register at its reset value, FT, connections and memory lost; the fuses and the
life store are kept, and with it the retirements; the levels that the host drives on PERST_N_k stay as they are. HBM reads as if
never written (DESIGN CHOICE, log entry 79). `kind` is the reset that the next boot follows. A fatal fault record that is still due may be cut
off (R452). -/
def State.deviceReset (s : State) (kind : Nat) : State :=
  let (whole, s0) := if s.tgf.fatalDue then s.freeBit else (true, s)
  let s1 := s0.writeFatal whole
  let d := s1.dev
  let s2 := { State.reset with
    mem := s1.mem.filter fun e => decide (pewterKey 0 ≤ e.1) && decide (e.1 < pewterKey (2 ^ 24))
    host := { HostIf.init with perst := s1.host.perst }
    variant := s1.variant, out := s1.out, free := s1.free, pending := s1.pending
    dev := { Dev.init with
      kind := kind, svn := d.svn, serial := d.serial
      life := { Life.init with logged := d.life.logged, fatals := d.life.fatals, snaps := d.life.snaps }
      pages := { HbmPages.init with retired := d.pages.retired } } }
  let pin (b : Bool) (n : String) (v : Bool) (s : State) : State := if b then s.emit (.pin n v) else s
  (pin s1.inv.ppsOutEnd.isSome "TIME_PPS_OUT" false (pin s1.host.wakeN "WAKE_N" true (pin (!s1.faultN) "FAULT_N" false s2))).restoreRetired

/-- The register values that a warm restart keeps: HIF_LINK_CFG and HIF_VF_ALLOC (R533). -/
def keptWarm (a : Nat) : Bool :=
  (decide (R.HIF_LINK_CFG.base ≤ a) && decide (a < R.HIF_LINK_CFG.base + 16)) ||
  (decide (R.HIF_VF_ALLOC.base ≤ a) && decide (a < R.HIF_VF_ALLOC.base + 64))

/-- A warm restart: a device reset that keeps HBM and the host attachments; every function takes a function-level reset, and the
boot goes on from stage 4 (R495, R496). The life store is loaded again at once. -/
def State.warmReset (s : State) : State :=
  let s0 := s.resetFuncs fun _ => true
  let s1 := s0.deviceReset 2
  let hbm (k : Nat) : Bool := decide (k < csmKey 0 0)
  ({ s1 with
    regs := List.filter (fun e => keptWarm e.1) s0.regs
    mem := (s0.mem.filter fun (e : Host.Cell) => hbm e.1) ++ s1.mem
    poison := List.filter (fun e => hbm (e.1 * 4)) s0.poison
    host := { s0.host with reads := [], movers := [] } }).loadLife

/-- Is DEV_CTRL written with the right KEY by a path that may write it (Table 21-9)? -/
def State.devKey (s : State) (path : Path) (v : Word) : Bool := s.mayWrite path R.DEV_CTRL.base && bitsW v 31 16 == 0x3A7B

/-- RESET_N: a pulse below 1 µs has no effect, one above 2 µs is a device reset, and one between is either, which is free (R498,
R510); or DEV_CTRL.RESET is written. -/
def resetN (src : ResetSrc) (s : State) : State :=
  if s.dev.off then s else
  let pulse (ns : Nat) : State :=
    if ns < 1000 then s
    else if ns ≤ 2000 then
      let (b, s1) := s.freeBit
      if b then s1.deviceReset 1 else s1
    else s.deviceReset 1
  match src with
  | .resetN ns => pulse ns
  | .pwrGood ns => pulse ns
  | .reg path v => if s.devKey path v && bitW v 0 then s.deviceReset 1 else s

/-- POWER_ON: the supplies have risen in their order (R497). -/
def powerOn (s : State) : State := if s.dev.off then s.deviceReset 0 else s

/-- POWER_DOWN: only the life store is kept (Table 21-1). -/
def powerDown (s : State) : State :=
  if s.dev.off then s
  else
    let s1 := s.deviceReset 0
    { s1 with dev := { s1.dev with off := true } }

/-- WARM: DEV_CTRL.WARM is written. -/
def warm (path : Path) (v : Word) (s : State) : State := if s.devKey path v && bitW v 1 then s.warmReset else s

/-! ## Secure boot (R499 to R501) -/

end Sys2Proof.Machine
namespace Sys2Proof

/-- The cause for which an image slot is not accepted (Table 21-9): 4 flash read, 1 key, 2 signature, 3 security version. -/
def BootImage.cause (x : BootImage) (variant svn : Nat) : Option Nat :=
  if !x.read then some 4
  else if !(x.prod || (variant == 1 && x.eng)) then some 1
  else if !x.signed then some 2
  else if x.svn < svn then some 3
  else none

/-- How boot ends: from slot A or B (0 or 1), or stopped at a stage with a cause, at a slot. The slots are tried in turn; an
overrun stops boot at its stage (R501). A warm restart begins at stage 4. -/
inductive BootEnd
  | done (slot : Nat)
  | stopped (stage cause slot : Nat)
deriving DecidableEq, Repr

def BootEnv.outcome (r : BootEnv) (warm : Bool) (variant svn : Nat) : BootEnd :=
  let late (n : Nat) : Bool := match r.overrun with
    | some k => decide (k ≤ n) && (!warm || decide (4 ≤ k))
    | none => false
  let at_ := r.overrun.getD 0
  if late 2 then .stopped at_ 6 0
  else if !warm && !r.hbmOk then .stopped 3 5 0
  else if late 4 then .stopped at_ 6 0
  else match r.a.cause variant svn, r.b.cause variant svn with
    | none, _ => if late 7 then .stopped at_ 6 0 else .done 0
    | some _, none => if late 7 then .stopped at_ 6 1 else .done 1
    | some _, some c => .stopped (if c == 4 then 4 else 5) c 1

end Sys2Proof
namespace Sys2Proof.Machine

/-- May boot begin: powered, and not begun since the reset? -/
def State.bootDue (s : State) : Bool := !s.dev.off && (s.rd R.DEV_BOOT_STATUS).toNat == 0

/-- Stage 2, and the count of the reset that the boot follows, which is committed (R477, R478). A warm restart has loaded the store
already. -/
def State.bootLife (s : State) : State :=
  let s1 := if s.dev.kind == 2 then s else s.loadLife.restoreRetired
  let cnt := if s.dev.kind == 0 then accPowerCycles else if s.dev.kind == 1 then accDeviceResets else accWarmRestarts
  (s1.accAdd cnt 4 1).commitAcc

/-- The handler table entries of an image are committed to the tables of the clusters (R76). -/
def State.bootHandlers (s : State) (hs : List (Nat × Nat × Nat × Nat)) : State :=
  hs.foldl (fun s h => if s.clusterCount ≤ h.1 then s else
    s.mwrite (csmKey h.1 (0xFF000 + h.2.1 % 256 * 16)) (leBytes 8 h.2.2.1 ++ leBytes 8 h.2.2.2)) s

/-- A thread of a cluster starts at Control level with no watchdog: the one that the dispatcher would take; its ASK is free (DESIGN
CHOICE, log entry 81). -/
def State.startAtControl (s : State) (c : Nat) (entry : Word) : State :=
  match (s.pickEngine c).bind fun g => (s.freeThreads g).head? with
  | none => s
  | some t =>
    let (k, s1) := s.freeBelow (2 ^ 20 - 1)
    s1.setThread t { Thread.init with
      running := true, run := (s1.thread t).run + 1, pc := entry, priv := 2, xask := k, startAt := s1.loc }

/-- The control program starts at its entry point on cluster 0. -/
def State.startControl (s : State) (entry : Word) : State := s.startAtControl 0 entry

/-- The match FIFO of a cluster is polled, and its match server starts; where its code stands is free (R267; DESIGN CHOICE, log entry
153). -/
def State.startServer (s : State) (c : Nat) : State :=
  let (v, s1) := (s.fset F.WF_CFG_POLLED [c, 3] true).freeWord
  s1.startAtControl c (w64 (v.toNat / 4 * 4))

/-- Tungsten is armed, and FAULT_N is released (R452). -/
def State.arm (s : State) : State := ({ s with tgf := { s.tgf with armed := true } }).emit (.pin "FAULT_N" true)

/-- BOOT: the stages of Table 21-7 run to their end. A lane whose calibration has failed is reported once Tungsten is armed (Table
17-3, DEDUCED, log entry 82). -/
def boot (r : BootEnv) (s : State) : State :=
  match (if s.bootDue then r.outcome (s.dev.kind == 2) s.variant s.dev.svn else .stopped 0 0 0) with
  | .stopped _ _ _ => s
  | .done slot =>
    let img := if slot == 0 then r.a else r.b
    let s1 := s.bootLife.fw F.CLK_IO_SLEW_QSPI [] 1
    let s2 := (s1.mwrite (hbmKey (img.load % hbmSize)) (img.body.take (16 * 2 ^ 20))).startControl img.entry
    let s3 := (List.range s2.clusterCount).foldl (fun s c => (s.startServer c).fset F.CLU_CTRL_DISPATCH_EN [c] true)
      (s2.bootHandlers img.handlers)
    let s4 := s3.wr R.DEV_BOOT_STATUS [] (w64 (2 ^ 31 + slot * 2 ^ 28 + 7))
    let s5 := { s4 with dev := { s4.dev with image := img.svn } }.arm
    if s.dev.kind == 2 then s5 else
    (r.calFail.filter fun n => decide (n < 2 * s.portCount)).foldl (fun s n => s.report (tsrc 0x16 n) 1) s5

/-- BOOT_FAIL: boot stops with its stage and cause; FAULT_N stays asserted (R501). -/
def bootFail (r : BootEnv) (s : State) : State :=
  match (if s.bootDue then r.outcome (s.dev.kind == 2) s.variant s.dev.svn else .done 0) with
  | .done _ => s
  | .stopped stage cause slot =>
    let s1 := if 2 ≤ stage then s.bootLife else s
    let s2 := if 4 ≤ stage then s1.fw F.CLK_IO_SLEW_QSPI [] 1 else s1
    s2.wr R.DEV_BOOT_STATUS [] (w64 (2 ^ 30 + slot * 2 ^ 28 + cause * 2 ^ 8 + stage))

/-- SVN_COMMIT: DEV_SVN rises to the security version of the image that was booted (R499). -/
def svnCommit (path : Path) (v : Word) (s : State) : State :=
  if s.devKey path v && bitW v 2 && s.fb F.DEV_BOOT_STATUS_DONE && decide (s.dev.svn < s.dev.image) then
    { s with dev := { s.dev with svn := s.dev.image } }
  else s

/-! ## Entry to the power states (R486 to R489) -/

/-- Does a tile, a port or Solder hold a cell? -/
def State.holdsCells (s : State) : Bool :=
  s.route.tiles.any (fun e => !e.2.isEmpty) || !s.route.holds.isEmpty || !s.route.arrivals.isEmpty ||
  s.ports.any (fun e => e.2.tx.cur.isSome || e.2.rx.asm.isSome || e.2.tx.queues.any fun q => !q.2.isEmpty) ||
  s.net.halves.any fun e => !e.2.rx.held.isEmpty

/-- Has a transit cell come within PWR_IDLE_CHECK? -/
def State.transitRecent (s : State) : Bool :=
  s.dev.transitAt.any fun t => decide (s.locSince t < (s.rd R.PWR_IDLE_CHECK).toNat * ticksPerUs)

/-- The entry checks of Table 21-2 in their order; the DETAIL of the first that fails. The PF that gives the command must be in D0
with Bus Master Enable set to give it, and check 6 is of the other functions (DEDUCED, log entry 80). -/
def State.entryRefusal (s : State) (pf st : Nat) : Option Nat :=
  if s.dev.power != 1 then some 1
  else if (List.range 2).any fun b => s.bank b == 1 || s.bank b == 3 then some 2
  else if s.transitRecent || s.holdsCells then some 3
  else if s.ops.any fun e => e.2.isHeld || e.2.voiding.isSome then some 4
  else if s.host.funcs.any (fun e => !e.2.held.isEmpty || e.2.wakePend) || s.rings.cqs.any (fun e => e.2.timer.isSome) then some 5
  else if st == 3 && s.host.funcs.any fun e => e.1 != pf && e.2.dstate == .d0 && e.2.bme then some 6
  else if s.adapterHalted then some 7
  else none

/-- PWR_ENTER (R486 to R488, Table 21-3). -/
def pwrEnterBody (pf : Nat) (b : List Byte) (_ : Nat) (s : State) : CtrlEnd × State :=
  let st := leAt b 8 1
  let put (n : Nat) : State := { s.arbSync with dev := { s.dev with power := n } }
  if !s.fmMay pf then endsWith ctrlDenied s
  else if 3 < st then endsWith ctrlArg s
  else if st == 0 then endsWith 0 ((put 0).ringFlush.arbSync)
  else if st == 1 then endsWith 0 (put 1)
  else match s.entryRefusal pf st with
    | some d => (some { status := ctrlBusy, detail := d }, s)
    | none => endsWith 0 { s with dev := { s.dev with entering := some (st, pf) } }

/-- Is the completion of an accepted entry written and its interrupt sent (R488, step 1)? -/
def State.entrySent (s : State) (pf : Nat) : Bool :=
  let x := s.cq (ctrlCn pf)
  x.direct.isEmpty && x.held.isEmpty && !NSet.mem (s.func pf).held x.vector

/-- The lowest link state that the host has enabled on an attachment (R488, step 3). -/
def Attach.lowest (x : Attach) (aspm : Bool) : Attach :=
  if x.up && aspm then { x with pstate := 2 + min x.l1ss 2, exiting := false } else x

/-- What becomes of time: HOLDOVER in Doze; FT is not valid in Deep Retention (R489). -/
def State.parkTime (s : State) (st : Nat) : State :=
  if st == 3 then { s with inv := { s.inv with state := .disabled, parent := none, goodRun := 0 } }
  else match s.inv.state with
    | .track => s.enterHoldover
    | .root => s.enterHoldover
    | _ => s

/-- Steps 2 to 5 of R488: the ports sleep, the attachments take their lowest state, and the device is parked. -/
def State.park (s : State) (st : Nat) : State :=
  let s1 := (List.range s.portCount).foldl (fun s p =>
    if (s.port p).st == .active then (s.sendOsN p (osSleep (if st == 3 then 2 else 1)) 16).linkDown p .quiet else s) s
  let s2 := { s1 with host := { s1.host with
    atts := SMap.mapVals Attach.init (fun a x => x.lowest (s1.func a).aspm) s1.host.atts } }
  let s3 := s2.bump (if st == 3 then R.PWR_DEEP_COUNT else R.PWR_DOZE_COUNT)
  let s4 := s3.parkTime st
  { s4 with dev := { s4.dev with power := st, entering := none } }

/-! ## Wake (R490 to R493) -/

end Sys2Proof.Machine
namespace Sys2Proof
open Sys2Proof.Machine

/-- The source of Table 19-3 for a bank, whether it is a state bank, and the KIND of PWR_RET_FAIL. The instance of DEV is free. -/
def RetBank.kind : RetBank → Nat
  | .ldm _ | .csm _ | .mtch _ | .route _ | .group _ => 1
  | .icache _ | .engTlb _ | .l2 _ | .pwc _ | .ask _ | .ept _ | .lim _ => 2
  | .buffer _ | .reorder _ | .wf _ => 3
def RetBank.number : RetBank → Nat
  | .ldm n | .csm n | .mtch n | .route n | .group n | .icache n | .engTlb n | .l2 n | .pwc n | .ask n | .ept n | .lim n
  | .buffer n | .reorder n | .wf n => n
def RetBank.source : RetBank → Nat
  | .ldm n => tsrc 0xE n
  | .csm n => tsrc 0xB (n / 16)
  | .mtch n => tsrc 0xC (n / 4)
  | .route n => tsrc 0x10 n
  | .group n => tsrc 0 (n % 8)
  | .icache n => tsrc 0xE n
  | .engTlb n => tsrc 0xA (n / 8)
  | .l2 n | .pwc n | .ask n => tsrc 0xA n
  | .ept n | .lim n => tsrc 0x10 n
  | .buffer n => tsrc 0x10 (n / 160)
  | .reorder _ => tsrc 0x13 0
  | .wf n => tsrc 0xF (n / 2)

end Sys2Proof
namespace Sys2Proof.Machine

/-- n 32-bit words from a key become uncorrectable. -/
def State.spoilN (s : State) (k n : Nat) : State := (List.range n).foldl (fun s i => s.spoil (k + 4 * i)) s

/-- What a failed check does to the bank: a state bank that memory stands for is poisoned; a cache is emptied; a buffer is empty
already (R492, Table 21-4). -/
def State.retEffect (s : State) (b : RetBank) : State :=
  match b with
  | .ldm n => s.spoilN (ldmKey n 0) 16384
  | .csm n => s.spoilN (csmKey (n / 16) (n % 16 * 65536)) 16384
  | .icache n => s.icacheClear n
  | .engTlb n => s.setEngine n { s.engine n with itlb := [], dtlb := [] }
  | .l2 n => s.setCluster n { s.cluster n with l2 := [] }
  | .pwc n => s.setCluster n { s.cluster n with pwc := [] }
  | .ask n => s.setCluster n { s.cluster n with askc := [] }
  | .ept _ => { s with eptCache := [] }
  | .lim t => { s with limCache := s.limCache.filter fun e => e.1 / 2 ^ 20 != t }
  | _ => s

/-- The retention check of a wake from Deep Retention: every failed bank has its outcome and is reported, the state banks first;
PWR_RET_FAIL says how many failed and which was first (R492, R493). -/
def State.retCheck (s : State) (fails : List RetBank) : State :=
  match fails with
  | [] => s
  | b :: _ =>
    let state := fails.filter (·.kind == 1)
    let s1 := s.wr R.PWR_RET_FAIL [] (w64 (2 ^ 63 + (if state.isEmpty then b.kind else 1) * 2 ^ 60 +
      fails.length % 4096 * 2 ^ 32 + b.number))
    (state ++ fails.filter (·.kind != 1)).foldl (fun s b =>
      (s.retEffect b).report b.source (if b.kind == 1 then 0x81 else 0x80) b.number) s1

/-- The parked device becomes Active: clocks and supplies return, with the retention check after Deep Retention; Invar restarts
at LISTEN there; every enabled port sends TS1 (R489, R491). -/
def State.wakeUp (s : State) (src : Nat) (fails : List RetBank) : State :=
  let deep := s.dev.power == 3
  let s1 := (s.arbSync.wr R.PWR_WAKE_FT [] s.ftOr0).fw F.PWR_STATUS_WAKE_SRC [] src
  let s2 := { s1 with dev := { s1.dev with power := 0, latched := none } }
  let s3 := if deep then s2.retCheck fails else s2
  let s4 := if deep && s3.fb F.INV_CTRL_ENABLE then invEnable s3 else s3
  let s5 := (List.range s4.portCount).foldl (fun s p =>
    let x := s.port p
    if s.fb F.LNK_CTRL_ENABLE [p] && !x.retired && (x.st == .quiet || x.st == .detect) then s.enterTrain p else s) s4
  if s5.inSafe then s5 else s5.ringFlush.arbSync

/-- Is a wake source enabled in PWR_WAKE_EN: 1 fabric, 2 host, 3 sideband? -/
def State.wakeOn (s : State) (src : Nat) : Bool :=
  decide (1 ≤ src) && decide (src ≤ 3) && nbit (s.rd R.PWR_WAKE_EN).toNat (src - 1)

/-- A wake event: it wakes a parked device, and is latched while an entry is under way (R490, R493). `fails` are the banks whose
check fails. In the safe state there is no wake. -/
def wake (src : Nat) (fails : List RetBank) (s : State) : State :=
  if !s.wakeOn src || s.inSafe || s.dev.off then s
  else if s.dev.entering.isSome then
    { s with dev := { s.dev with latched := some (s.dev.latched.getD src) } }
  else if s.dev.power < 2 then s
  else s.wakeUp src fails

/-- PWR_WAKE: written through the sideband (Table 21-8). -/
def pwrWake (path : Path) (fails : List RetBank) (s : State) : State := if path == .sideband then wake 3 fails s else s

/-- An entry that waited goes on once its completion and interrupt are gone; a latched wake then starts at once; a halt of the
adapter since ends it (R488, R493). -/
def State.settleEntry (s : State) : State :=
  match s.dev.entering with
  | none => s
  | some (st, pf) =>
    if s.adapterHalted then { s with dev := { s.dev with entering := none, latched := none } }
    else if !s.entrySent pf then s
    else
      let s1 := s.park st
      match s1.dev.latched with
      | some src => s1.wakeUp src []
      | none => s1

/-- A request of the host to a BAR, or an edge of a PERST_N_k, wakes a device in Doze before it has its effect (R489, R490). -/
def State.hostStirs (s : State) : State := if s.dev.power == 2 then wake 2 [] s else s

/-- PWR_QUERY (Table 21-3). -/
def pwrQueryBody (pf : Nat) (_ : List Byte) (_ : Nat) (s : State) : CtrlEnd × State :=
  if !s.fmMay pf then endsWith ctrlDenied s
  else (some { status := 0, bytes := s.dev.power + s.fd F.PWR_STATUS_WAKE_SRC * 16 + s.fd F.PWR_RET_FAIL_VALID * 256 }, s)

/-- WARM_RESTART: no completion is written (R494). -/
def warmRestartBody (pf : Nat) (b : List Byte) (_ : Nat) (s : State) : CtrlEnd × State :=
  if !s.fmMay pf then endsWith ctrlDenied s
  else if leAt b 8 2 != 0x3A7B then endsWith ctrlArg s
  else (none, s.warmReset)

/-! ## Fabric-ready (R502) -/

/-- Is the device fabric-ready: routing enabled, a port ACTIVE, Invar in TRACK or ROOT? -/
def State.fabricReady (s : State) : Bool :=
  s.route.enabled && s.ports.any (fun e => e.2.st == .active) && (s.inv.state == .track || s.inv.state == .root)

/-- A port enabled as by LNK_CTRL.ENABLE. -/
def State.enablePort (s : State) (p : Nat) : State :=
  let s1 := s.fset F.LNK_CTRL_ENABLE [p] true
  let x := s1.port p
  if x.st == .disabled && !x.retired then s1.enterTrain p else s1

/-- FABRIC_JOIN: own DN and position, routing, Invar, and the ports, in this order; it completes when the device is
fabric-ready, or in time (R494, R502). -/
def fabricJoinBody (pf : Nat) (b : List Byte) (serial : Nat) (s : State) : CtrlEnd × State :=
  let ms := leAt b 40 4
  if !s.fmMay pf then endsWith ctrlDenied s
  else if ms == 0 || 60000 < ms then endsWith ctrlArg s
  else if s.route.enabled then endsWith ctrlBusy s
  else
    let s1 := (s.wrSoft R.ROUTE_SELF_DN [] (w64 (leAt b 8 4 % 2 ^ 17))).wrSoft R.ROUTE_SELF_POS [] (w64 (leAt b 12 4))
    let s2 := (s1.fw F.ROUTE_EPOCH_CTRL_INIT_BANK [] (leAt b 16 1 % 2)).enableRouting (leAt b 16 1 % 2)
    let s3 := (s2.fset F.INV_CTRL_ROOT_ELIGIBLE [] (nbit (leAt b 16 1) 1)).fw F.INV_ROOT_PRIO_PRIO [] (leAt b 17 1)
    let s4 := (List.range s.portCount).foldl (fun s p => if nbit (leAt b 24 16) p then s.enablePort p else s) (invEnable s3)
    (none, { s4 with dev := { s4.dev with join := some (pf, serial, s.loc, ms) } })

/-- A FABRIC_JOIN that waits ends. -/
def State.endJoin (s : State) (d : WorkDone) : State :=
  match s.dev.join with
  | none => s
  | some (pf, serial, _, _) => ({ s with dev := { s.dev with join := none } }).workDone (ctrlQn pf) serial d

/-- FABRIC_READY: from now on the device forms packets of its own (R502, R535); a FABRIC_JOIN that waits completes with the count of
ports in ACTIVE, when its ring has room. -/
def fabricReady (s : State) : State :=
  if !s.fabricReady then s else
  let s1 := { s with route := { s.route with ready := true } }
  match s.dev.join with
  | none => s1
  | some (pf, _, _, _) =>
    if s.adapterHalted || !s.cqRoom (s.queue (ctrlQn pf)).cn then s1
    else s1.endJoin { status := 0, bytes := (s.ports.filter fun e => e.2.st == .active).length }

/-- FABRIC_JOIN_TIMEOUT: TIMEOUT has passed before fabric-ready; the links stay enabled (Table 21-3). -/
def fabricJoinTimeout (s : State) : State :=
  match s.dev.join with
  | none => s
  | some (pf, _, at_, ms) =>
    if s.fabricReady || s.locSince at_ < ms * 1000 * ticksPerUs || s.adapterHalted || !s.cqRoom (s.queue (ctrlQn pf)).cn then s
    else s.endJoin { status := 0x0A }

/-! ## Registers (Tables 21-8 and 21-9) -/

/-- DEV_ID, DEV_REV, DEV_SVN, DEV_SERIAL and PWR_STATUS. -/
def State.devId (s : State) : Word := w64 (0x1FB3 * 2 ^ 16 + if s.is096 then 0x0096 else 0x0128)
def State.devRev (s : State) : Word := w64 (s.variant * 2 ^ 8 + 0xB1)
def State.devSvn (s : State) : Word := w64 s.dev.svn
def State.pwrStatus (s : State) : Word := w64 (s.fd F.PWR_STATUS_WAKE_SRC * 2 ^ 8 + s.dev.power)

/-! ## The commands -/

/-- POWER_ON (R497). -/
def execPowerOn (s : State) : Host.Outcome State Fault Refusal := .next (powerOn s)
/-- POWER_DOWN (R497). -/
def execPowerDown (s : State) : Host.Outcome State Fault Refusal := .next (powerDown s)
/-- RESET_N (R498). -/
def execResetN (src : ResetSrc) (s : State) : Host.Outcome State Fault Refusal := .next (resetN src s)
/-- BOOT (R500). -/
def execBoot (r : BootEnv) (s : State) : Host.Outcome State Fault Refusal := .next (boot r s)
/-- BOOT_FAIL (R501). -/
def execBootFail (r : BootEnv) (s : State) : Host.Outcome State Fault Refusal := .next (bootFail r s)
/-- WARM (R495). -/
def execWarm (path : Path) (v : Word) (s : State) : Host.Outcome State Fault Refusal := .next (warm path v s)
/-- WARM_RESTART (R496). -/
def execWarmRestart (pf idx : Nat) (s : State) : Host.Outcome State Fault Refusal := .next (s.ctrl pf idx 0x6B (warmRestartBody pf))
/-- SVN_COMMIT (R499). -/
def execSvnCommit (path : Path) (v : Word) (s : State) : Host.Outcome State Fault Refusal := .next (svnCommit path v s)
/-- PWR_ENTER (R488). It is carried out in an adapter halt too, to be refused with DETAIL 7. -/
def execPwrEnter (pf idx : Nat) (s : State) : Host.Outcome State Fault Refusal :=
  .next (s.ctrlAny pf idx 0x68 (pwrEnterBody pf)).settleEntry
/-- PWR_QUERY (R494). -/
def execPwrQuery (pf idx : Nat) (s : State) : Host.Outcome State Fault Refusal := .next (s.ctrl pf idx 0x69 (pwrQueryBody pf))
/-- FABRIC_JOIN (R502). -/
def execFabricJoin (pf idx : Nat) (s : State) : Host.Outcome State Fault Refusal := .next (s.ctrl pf idx 0x6A (fabricJoinBody pf))
/-- FABRIC_READY (R502). -/
def execFabricReady (s : State) : Host.Outcome State Fault Refusal := .next (s.live fabricReady)
/-- FABRIC_JOIN_TIMEOUT (R494). -/
def execFabricJoinTimeout (s : State) : Host.Outcome State Fault Refusal := .next (s.live fabricJoinTimeout)
/-- WAKE (R490). -/
def execWake (src : Nat) (fails : List RetBank) (s : State) : Host.Outcome State Fault Refusal := .next (wake src fails s)
/-- PWR_WAKE (R490). -/
def execPwrWake (path : Path) (fails : List RetBank) (s : State) : Host.Outcome State Fault Refusal :=
  .next (pwrWake path fails s)
/-- FUNCTION_STATE_CHANGE (R438); a configuration write that moves a function to D0 wakes the device (R490). -/
def execFunctionStateChange (f d : Nat) (cfg : FuncCfg) (s : State) : Host.Outcome State Fault Refusal :=
  .next (functionStateChange f d cfg (if d == 0 && (s.func f).dstate != .d0 then s.hostStirs else s))
/-- EXIT_TO_L0_COMPLETE (R437); an exit on the host's initiative wakes the device (R490). -/
def execExitToL0Complete (a : Nat) (s : State) : Host.Outcome State Fault Refusal :=
  .next (exitToL0Complete a (if (s.att a).asleep && !(s.att a).exiting then s.hostStirs else s))
/-- PERST (R428, R490). -/
def execPerst (k : Nat) (level : Bool) (s : State) : Host.Outcome State Fault Refusal := .next (perst k level s.hostStirs)
/-- DOORBELL (R168, R451, R489). A device in Deep Retention answers no BAR request before it has been woken, and one in the
safe state discards BAR writes. -/
def execDoorbell (f off size : Nat) (v : Word) (bad : Bool) (s : State) : Host.Outcome State Fault Refusal :=
  .next (if s.hostStirs.parked || s.inSafe then s.hostStirs else s.hostStirs.synced (doorbell f off size v bad))
/-- CQ_WRITE (R162, R488). -/
def execCqWrite (cn : Nat) (s : State) : Host.Outcome State Fault Refusal := .next (s.synced (cqWrite cn)).settleEntry
/-- MSIX_SEND (R174, R488). -/
def execMsixSend (f v : Nat) (s : State) : Host.Outcome State Fault Refusal := .next (msixSend f v s).settleEntry

end Sys2Proof.Machine
end

