-- ==== Sys2Proof/Machine/Faults.lean ====
section
/-! DEFINITION. Machine/Faults.lean: the commands of the fault collector: reports, the fatal fault record, injection, HBM page retirement
and re-test (R444 to R459). -/
namespace Sys2Proof.Machine

/-! ## Reports (R85, R443, R444, R456) -/

/-- The storage that a detected error concerns. INFO0 and INFO1 name it where the manual gives no place (DESIGN CHOICE, log entry 87):
of an uncorrectable HBM error the physical address of its word; of an engine parity error the LDM address of its word, or the place
of its thread and, in INFO1, 0x100 + register number; of one of the instruction cache the physical address of the line, which is
dropped and fetched again (R85). -/
def State.storageError (s : State) (src code i0 i1 : Nat) : State :=
  let n := src % 1024
  match code with
  | 0x0061 =>
    let page := i0 / 4096
    let s1 := s.spoil (hbmKey (i0 % hbmSize))
    { s1 with dev := { s1.dev with pages := { s1.dev.pages with
      errs := s1.dev.pages.errs.set [] page (s1.loc :: s1.dev.pages.errs.get [] page) } } }
  | 0x0020 =>
    let t := 4 * n + i0 % 4
    let s0 := if i1 / 256 == 1 && i1 % 32 != 0 then s.setThread t { s.thread t with badRegs := NSet.add (s.thread t).badRegs (i1 % 32) }
      else s.spoil (ldmKey n (i0 % 65536))
    let s1 := s0.bump R.CLU_PARITY_COUNT [n / 8, n % 8]
    s1.setEngine n { s1.engine n with parityAt := s1.loc :: (s1.engine n).parityAt }
  | 0x0021 =>
    let s1 := s.bump R.CLU_PARITY_COUNT [n / 8, n % 8]
    s1.setEngine n { s1.engine n with icache := (s1.engine n).icache.filter fun e => e.2 != i0 / 64 }
  | _ => s

/-- ERROR_REPORT: a source that exists reports an event that it can raise. -/
def errorReport (src code : Nat) (i0 i1 : Word) (s : State) : State :=
  if s.dev.off || !canRaise s.variant src code then s
  else (s.storageError src code i0.toNat i1.toNat).report src code i0.toNat i1.toNat

/-! ## Writes of Tungsten's registers (Table 19-9) -/

/-- TGF_HIST_ACK is written. -/
def tgfHistAck (path : Path) (v : Word) (s : State) : State :=
  if s.mayWrite path R.TGF_HIST_ACK.base then histAck (v.toNat % 2 ^ 32) s else s
/-- TGF_HIST_CTRL.UNFREEZE is written. -/
def tgfUnfreeze (path : Path) (s : State) : State := if s.mayWrite path R.TGF_HIST_CTRL.base then unfreeze s else s
/-- TGF_INJECT is written. -/
def tgfInject (path : Path) (v : Word) (s : State) : State := if s.mayWrite path R.TGF_INJECT.base then inject v s else s
/-- TGF_CTRL.INJECT_LOCK is written 1. -/
def tgfInjectLock (path : Path) (s : State) : State := if s.mayWrite path R.TGF_CTRL.base then injectLock s else s

/-! ## HBM page retirement (R456) -/

/-- The stack of a page: 24 GiB each. -/
def stackOf (page : Nat) : Nat := page / (6 * 2 ^ 20)

/-- Is a page retired? -/
def State.pageRetired (s : State) (page : Nat) : Bool := (s.dev.pages.retired.get none page).isSome

/-- The lowest spare page of a stack that is not in use; a stack has 1,024. -/
def State.freeSpare (s : State) (stack : Nat) : Option Nat :=
  firstBelow 1024 fun i => !s.dev.pages.retired.any fun e => stackOf e.1 == stack && e.2 == some i

/-- Uncorrectable errors of a page within WINDOW hours. -/
def State.pageErrors (s : State) (page : Nat) : Nat :=
  ((s.dev.pages.errs.get [] page).filter fun a =>
    decide (s.locSince a ≤ s.fd F.TGF_HBM_RETIRE_WINDOW * 3600 * 1000000 * ticksPerUs)).length

/-- A pseudo-channel of a stack, which one is free: the manual gives no map of pages to channels (DESIGN CHOICE, log entry 88). -/
def State.someChannel (s : State) (stack : Nat) : Nat × State :=
  let (n, s1) := s.freeBelow 31
  (tsrc 0x18 (32 * stack + n), s1)

/-- HBM_PAGE_RETIRED: a page with COUNT errors within WINDOW is mapped to a spare of its stack. Its bytes and its uncorrectable words
stay where they are, since software does not see the mapping. Without a spare, the stack says so once. -/
def hbmPageRetired (page : Nat) (s : State) : State :=
  if s.pageRetired page || s.pageErrors page < s.fd F.TGF_HBM_RETIRE_COUNT || s.fd F.TGF_HBM_RETIRE_COUNT == 0 || hbmSize ≤ page * 4096 then s
  else
    let stack := stackOf page
    let (src, s1) := s.someChannel stack
    let put (s : State) (p : HbmPages) : State := { s with dev := { s.dev with pages := p } }
    let p := s1.dev.pages
    match s1.freeSpare stack with
    | some i => ((put s1 { p with retired := p.retired.set none page (some i), errs := p.errs.set [] page [] }).recordRetirement).report src
        0x62 (page * 4096)
    | none => if NSet.mem p.spent stack then s else (put s1 { p with spent := NSet.add p.spent stack }).report src 0x63

/-! ## Re-test (R457, Table 19-7) -/

/-- Is the object that a re-test names retired? -/
def State.retestable (s : State) (src page : Nat) : Bool :=
  let n := src % 1024
  match src / 1024 with
  | 0x16 => decide (n < 256) && (s.lane (n / 2) (n % 2)).retired
  | 0x14 => decide (n < 128) && (s.port n).retired
  | 0x0E => decide (n < 512) && (s.engine n).retired
  | 0x18 => s.pageRetired page
  | _ => false

/-- How long the test takes, in µs. -/
def retestTime (src : Nat) : Nat := match src / 1024 with
  | 0x0E => 1000
  | 0x18 => 200
  | _ => 0

/-- RETEST: TGF_RETEST is written; with GO, a re-test starts. A write while GO is 1 is ignored. -/
def retest (path : Path) (v : Word) (s : State) : State :=
  if !s.mayWrite path R.TGF_RETEST.base || s.tgf.retest.isSome then s
  else
    let s1 := s.wrSoft R.TGF_RETEST [] v
    if !bitW v 31 then s1
    else { s1 with tgf := { s1.tgf with retest := some (bitsW v 15 0, s1.fd F.TGF_RETEST_ADDR_PAGE, s1.loc) } }

/-- What a passing re-test does. A lane's and a port's always pass. An engine starts with no parity errors counted (DESIGN CHOICE, log entry 89). -/
def State.retestPass (s : State) (src page : Nat) : State :=
  let n := src % 1024
  match src / 1024 with
  | 0x16 => s.unretireLane (n / 2) (n % 2)
  | 0x14 =>
    let s1 := (s.unretireLane n 0).unretireLane n 1
    if (s1.port n).retired then (s1.setPort n { s1.port n with retired := false }).recordRetirement else s1
  | 0x0E => (s.setEngine n { s.engine n with retired := false, stopped := false, parityAt := [] }).recordRetirement
  | _ => ({ s with dev := { s.dev with pages := { s.dev.pages with retired := s.dev.pages.retired.set none page none } } }).recordRetirement

/-- RETEST_DONE: the re-test ends: refused, passed or failed. -/
def retestDone (pass : Bool) (s : State) : State :=
  match s.tgf.retest with
  | none => s
  | some (src, page, at_) =>
    let result (n : Nat) (s : State) : State :=
      ({ s with tgf := { s.tgf with retest := none } }.fset F.TGF_RETEST_GO [] false).fw F.TGF_RETEST_STATUS_RESULT [] n
    if !s.retestable src page then result 3 s
    else if s.locSince at_ < retestTime src * ticksPerUs then s
    else if pass || retestTime src == 0 then result 1 (s.retestPass src page)
    else result 2 s.recordRetirement

/-! ## The commands -/

/-- ERROR_REPORT (R444). -/
def execErrorReport (src code : Nat) (i0 i1 : Word) (s : State) : Host.Outcome State Fault Refusal := .next (errorReport src code i0 i1 s)
/-- FATAL_RECORD_WRITE (R450). -/
def execFatalRecordWrite (s : State) : Host.Outcome State Fault Refusal := .next (s.writeFatal true)
/-- TGF_HIST_ACK (R447). -/
def execTgfHistAck (path : Path) (v : Word) (s : State) : Host.Outcome State Fault Refusal := .next (tgfHistAck path v s)
/-- UNFREEZE (R455). -/
def execUnfreeze (path : Path) (s : State) : Host.Outcome State Fault Refusal := .next (tgfUnfreeze path s)
/-- INJECT (R453). -/
def execInject (path : Path) (v : Word) (s : State) : Host.Outcome State Fault Refusal := .next (tgfInject path v s)
/-- INJECT_LOCK (R453). -/
def execInjectLock (path : Path) (s : State) : Host.Outcome State Fault Refusal := .next (tgfInjectLock path s)
/-- HBM_PAGE_RETIRED (R456). -/
def execHbmPageRetired (page : Nat) (s : State) : Host.Outcome State Fault Refusal := .next (hbmPageRetired page s)
/-- RETEST (R457). -/
def execRetest (path : Path) (v : Word) (s : State) : Host.Outcome State Fault Refusal := .next (retest path v s)
/-- RETEST_DONE (R457). -/
def execRetestDone (pass : Bool) (s : State) : Host.Outcome State Fault Refusal := .next (retestDone pass s)

end Sys2Proof.Machine
end

