-- ==== Sys2Proof/Machine/LifeOps.lean ====
section
/-! DEFINITION. Machine/LifeOps.lean: the commands of the life store: commits, snapshots, the samples of every second, margin scans
(R476 to R478). -/
namespace Sys2Proof.Machine

/-- The life store's own state replaced. -/
def State.setLife (s : State) (l : Life) : State := { s with dev := { s.dev with life := l } }

/-- Ticks of INV_LOCAL in a second, a minute and an hour. -/
def ticksPerS : Nat := 1000000 * ticksPerUs

/-- LIFE_COMMIT: LIFE_COMMIT_CFG minutes after the last commit (R477). -/
def lifeCommit (s : State) : State :=
  if (s.rd R.LIFE_COMMIT_CFG).toNat * 60 * ticksPerS ≤ s.locSince s.dev.life.commitAt then s.commitAcc else s

/-- COMMIT: LIFE_CTRL.COMMIT is written (R477). -/
def commitNow (path : Path) (s : State) : State := if s.mayWrite path R.LIFE_CTRL.base then s.commitAcc else s

/-- Where snapshot k of the ring stands (Table 20-7). -/
def snapOff (k : Nat) : Nat := 0x190000 + 1024 * (k % 12288)

/-- The bytes of a snapshot but for its CRC: the header, 0x040 to 0x25F of the accumulators at their offsets, and from 0x260 the counts
of retired lanes, ports, engines and HBM pages, of 4 bytes each (DESIGN CHOICE, log entry 73). -/
def State.snapshotBytes (s : State) : List Byte :=
  let lanes := (s.lanes.filter fun e => e.2.retired).length
  let ports := (s.ports.filter fun e => e.2.retired).length
  let engines := (s.engines.filter fun e => e.2.retired).length
  let pages := (s.dev.pages.retired.filter fun e => e.2.isSome).length
  byteSlice (s.slotHeader (s.dev.life.snaps + 1)) 0 0x40 ++ s.mread (accKey 0x40) 0x220 ++
    leBytes 4 lanes ++ leBytes 4 ports ++ leBytes 4 engines ++ leBytes 4 pages ++ zeroBytes (1020 - 0x270)

/-- LIFE_SNAPSHOT: LIFE_SNAP_CFG hours after the last snapshot (R477). -/
def lifeSnapshot (s : State) : State :=
  let l := s.dev.life
  if !l.ready || s.locSince l.snapAt < (s.rd R.LIFE_SNAP_CFG).toNat * 3600 * ticksPerS then s
  else
    let s1 := s.mwrite (pewterKey (snapOff l.snaps)) (sealed s.snapshotBytes)
    s1.setLife { s1.dev.life with snaps := l.snaps + 1, snapAt := s.loc }

/-- LIFE_SAMPLE: each second of INV_LOCAL one more second is counted, as powered, in the bin of the hottest sensor, and in that of
VDD_CORE (R476, Table 20-8). -/
def lifeSample (hot : Int) (mv : Nat) (s : State) : State :=
  let l := s.dev.life
  if !l.ready || s.locSince l.sampleAt < ticksPerS then s
  else
    let s1 := ((s.accAdd accPowerOn 8 1).accAdd (accTemp (tempBin hot)) 8 1).accAdd (accVolt (voltBin mv)) 8 1
    s1.setLife { s1.dev.life with sampleAt := w64 (l.sampleAt.toNat + ticksPerS) }

/-- The lanes in ACTIVE, as 2p + l. -/
def State.activeLanes (s : State) : List Nat :=
  (List.range 256).filter fun n => (s.port (n / 2)).st == .active && nbit (s.port (n / 2)).cfg.lanes (n % 2)

/-- MARGIN_SCAN: LIFE_EYE_CFG hours after the last, every lane in ACTIVE is scanned. `margins` holds the margin of each lane in mV,
by its number; a lane without one adds nothing. LIFE_EYE_CFG 0: no scans (R476). -/
def marginScan (margins : List Nat) (s : State) : State :=
  let l := s.dev.life
  let hours := (s.rd R.LIFE_EYE_CFG).toNat
  if !l.ready || hours == 0 || s.locSince l.scanAt < hours * 3600 * ticksPerS then s
  else
    let s1 := s.activeLanes.foldl (fun s n => match margins[n]? with
      | some m => s.accAdd (accEye n (min 15 (m / 4))) 4 1
      | none => s) s
    s1.setLife { s1.dev.life with scanAt := s.loc }

/-! ## The commands -/

/-- LIFE_COMMIT (R478). -/
def execLifeCommit (s : State) : Host.Outcome State Fault Refusal := .next (lifeCommit s)
/-- COMMIT (R477). -/
def execCommit (path : Path) (s : State) : Host.Outcome State Fault Refusal := .next (commitNow path s)
/-- LIFE_SNAPSHOT (R477). -/
def execLifeSnapshot (s : State) : Host.Outcome State Fault Refusal := .next (lifeSnapshot s)
/-- LIFE_SAMPLE (R476). -/
def execLifeSample (hot : Int) (mv : Nat) (s : State) : Host.Outcome State Fault Refusal := .next (lifeSample hot mv s)
/-- MARGIN_SCAN (R476). -/
def execMarginScan (margins : List Nat) (s : State) : Host.Outcome State Fault Refusal := .next (marginScan margins s)

end Sys2Proof.Machine
end

