-- ==== Sys2Proof/Machine/MonitorOps.lean ====
section
/-! DEFINITION. Machine/MonitorOps.lean: the commands of the performance monitors: freezing, clearing, depth samples, dumps and precise
samples (R465, R466, R469 to R475). -/
namespace Sys2Proof.Machine

/-- The monitors' own state replaced. -/
def State.setMon (s : State) (m : Monitors) : State := { s with dev := { s.dev with mon := m } }

/-- PMU_CTRL is written (R465). -/
def pmuFreeze (path : Path) (v : Word) (s : State) : State :=
  if s.mayWrite path R.PMU_CTRL.base then s.wrSoft R.PMU_CTRL [] v else s

/-- HIST_SEL.CLEAR is written (R469). -/
def histClear (path : Path) (u : Nat) (s : State) : State :=
  if u < 256 && s.mayWrite path (R.HIST_SEL.addr [u]) then s.histClear u else s

/-- The classes that a mask takes; 0 takes all. -/
def maskClasses (mask : Nat) : List Nat := (List.range 8).filter (maskTakes mask)

/-- HIST_DEPTH_SAMPLE: a unit with source PORT_DEPTH or SLD_ONDIE takes a sample of its instance (Table 20-4). -/
def histDepthSample (u : Nat) (s : State) : State :=
  if 256 ≤ u || !s.fb F.HIST_SEL_EN [u] || s.monFrozen then s
  else
    match s.fd F.HIST_SEL_SRC [u] with
    | 2 =>
      let p := s.fd F.HIST_SEL_INSTANCE [u]
      if s.portCount ≤ p then s
      else s.histTake u ((maskClasses (bitsW (s.rd R.HIST_FILT [u]) 7 0)).map fun tc => (s.port p).depth tc).sum
    | 6 => s.histTake u s.onDieUsed
    | _ => s

/-! ## Where records go (R471, R475) -/

/-- May a record be written to its destination: not in an adapter halt, nor to a function that cannot master? -/
def State.monMay (s : State) (host : Bool) (f : Nat) : Bool := !s.adapterHalted && (!host || s.canMaster f)

/-- Bytes of a record at their destination; HBM ends at 48 GiB (DEDUCED, log entry 53). -/
def State.monWrite (s : State) (host : Bool) (f addr : Nat) (bs : List Byte) : State :=
  if host then s.hostWrite f addr bs
  else if addr + bs.length ≤ hbmSize then s.mwrite (hbmKey addr) bs else s

/-! ## Periodic dumps (R470 to R472) -/

/-- The counters of the SET bits, in bit order. -/
def State.dumpCounters (s : State) (set : Nat) : List Word :=
  let units (lo n k : Nat) : List Word := (List.range n).flatMap fun u => (List.range k).map fun i => s.rd R.PMU_CNT [lo + u, i]
  let part (b : Nat) (ws : Unit → List Word) : List Word := if nbit set b then ws () else []
  part 0 (fun _ => (List.range 512).flatMap fun g =>
    s.rd R.PMU_ENG_CYCLE [g] :: s.rd R.PMU_ENG_INSTRET [g] :: (List.range 4).map fun i => s.rd R.PMU_ENG_PMC [g, i]) ++
  part 1 (fun _ => units 0 16 8) ++ part 2 (fun _ => units 16 128 8) ++ part 3 (fun _ => units 144 16 8) ++
  part 4 (fun _ => units 160 16 4) ++ part 5 (fun _ => units 176 64 4)

/-- The block of a histogram unit (Table 20-5). -/
def State.histBlock (s : State) (u : Nat) : List Word :=
  [s.rd R.HIST_SEL [u], s.rd R.HIST_FILT [u], s.rd R.HIST_COUNT [u], s.rd R.HIST_SUM [u], s.rd R.HIST_MIN [u], s.rd R.HIST_MAX [u]] ++
    (List.range 32).map fun k => s.rd R.HIST_BIN [u, k]

/-- The enabled units, when the SET takes them. -/
def State.dumpUnits (s : State) : List Nat :=
  if nbit (s.fd F.PMU_DUMP_CTRL_SET) 6 then (List.range 256).filter fun u => s.fb F.HIST_SEL_EN [u] else []

/-- The bytes of a dump record: 64 of header, and what follows (Table 20-5). -/
def State.dumpLen (s : State) : Nat :=
  let n (b k : Nat) : Nat := if nbit (s.fd F.PMU_DUMP_CTRL_SET) b then k else 0
  64 + 8 * (n 0 3072 + n 1 128 + n 2 1024 + n 3 128 + n 4 64 + n 5 256) + 304 * s.dumpUnits.length

/-- The record of a latch (Table 20-5). -/
def State.dumpRecord (s : State) (seq missed : Nat) : List Byte :=
  let us := s.dumpUnits
  leBytes 4 seq ++ leBytes 4 s.dumpLen ++ leBytes 8 s.ft.toNat ++ leBytes 8 s.loc.toNat ++ leBytes 4 (s.fd F.ROUTE_SELF_DN_DN) ++
    leBytes 1 (b2n s.holdover + 2 * b2n s.monFrozen) ++ leBytes 1 (s.fd F.PMU_DUMP_CTRL_SET) ++ leBytes 2 us.length ++
    leBytes 4 missed ++ zeroBytes 28 ++
    (s.dumpCounters (s.fd F.PMU_DUMP_CTRL_SET) ++ us.flatMap s.histBlock).flatMap fun w => leBytes 8 w.toNat

/-- Is now a latch tick that has not been taken? -/
def State.dumpDue (s : State) : Bool :=
  let m := s.fd F.PMU_DUMP_CTRL_PERIOD * ticksPerUs
  s.fb F.PMU_DUMP_CTRL_EN && m != 0 && s.ft.toNat % m == (s.rd R.PMU_DUMP_PHASE).toNat % m && s.dev.mon.dumpTick != some s.ft.toNat

/-- Is a latch tick missed (R470, R471)? -/
def State.dumpMiss (s : State) : Bool :=
  !s.ftValid || s.dev.mon.dumpRec.isSome || !s.monMay (s.fb F.PMU_DUMP_CFG_HOST) (s.fd F.PMU_DUMP_CFG_FUNC) ||
  decide (s.fd F.PMU_DUMP_CFG_SIZE * 65536 < s.dumpLen)

/-- DUMP_LATCH: at a latch tick the record is latched, or the tick is missed; either advances SEQ. -/
def dumpLatch (s : State) : State :=
  if s.dev.off || !s.dumpDue then s
  else
    let m := { s.dev.mon with dumpSeq := s.dev.mon.dumpSeq + 1, dumpTick := some s.ft.toNat }
    if s.dumpMiss then (s.setMon { m with missed := m.missed + 1 }).bump R.PMU_DUMP_MISSED_COUNT
    else s.setMon { m with missed := 0, dumpRec := some (s.dumpRecord m.dumpSeq m.missed) }

/-- DUMP_WRITE: the latched record goes to its ring, bytes 8 onward and then bytes 0 to 7; a record that would cross the end starts at
the base. While its destination bars it, it waits, and latch ticks are missed (R471). -/
def dumpWrite (s : State) : State :=
  match s.dev.mon.dumpRec with
  | none => s
  | some bs =>
    let host := s.fb F.PMU_DUMP_CFG_HOST
    let f := s.fd F.PMU_DUMP_CFG_FUNC
    let m := s.dev.mon
    let off := if s.fd F.PMU_DUMP_CFG_SIZE * 65536 < m.dumpOff + bs.length then 0 else m.dumpOff
    let at_ := (s.rd R.PMU_DUMP_DEST).toNat + off
    let put (s : State) : State :=
      ((s.setMon { m with dumpRec := none, dumpOff := off + bs.length }).monWrite host f (at_ + 8) (bs.drop 8)).monWrite host f at_ (bs.take 8)
    if !s.monMay host f then s else if host then s.whenAwake f put else put s

/-- PMU_DUMP_CTRL is written: SEQ counts from 1 again when EN is set, and records go to the base (DESIGN CHOICE, log entry 86). -/
def State.dumpCtrl (s : State) (v : Word) : State :=
  let s1 := s.wrSoft R.PMU_DUMP_CTRL [] v
  if !s.fb F.PMU_DUMP_CTRL_EN && s1.fb F.PMU_DUMP_CTRL_EN then
    s1.setMon { s1.dev.mon with dumpSeq := 0, missed := 0, dumpTick := none, dumpRec := none, dumpOff := 0 }
  else s1

/-! ## Precise sampling (R473 to R475) -/

/-- SAMPLE_MARK: the countdown of an engine is 0: its next instruction of CLASS is to be marked, and the countdown is reloaded with
PERIOD less a draw from 0 to 63, a free value (DESIGN CHOICE, log entry 78). -/
def sampleMark (g : Nat) (s : State) : State :=
  if !s.fb F.PMU_SAMP_CTRL_EN || s.dev.mon.counts.get none g != some 0 then s
  else
    let (r, s1) := s.freeBelow 63
    let m := s1.dev.mon
    s1.setMon { m with armed := NSet.add m.armed g, counts := m.counts.set none g (some (s.fd F.PMU_SAMP_CTRL_PERIOD - r)) }

/-- A sample record (Table 20-6). An instruction that raised an exception has latency 0. -/
def Sampled.bytes (x : Sampled) (lat flags ecause seq : Nat) : List Byte :=
  let exc := nbit flags 3
  leBytes 8 x.ft.toNat ++ leBytes 8 x.pc.toNat ++ leBytes 8 x.daddr.toNat ++ leBytes 4 x.insn ++
    leBytes 4 (if exc then 0 else min lat (2 ^ 32 - 1)) ++ leBytes 2 x.tid ++ leBytes 1 x.priv ++
    leBytes 1 (flags % 64 + 64 * b2n x.holdover) ++ leBytes 1 (if exc then ecause else 0) ++ leBytes 1 x.item ++ zeroBytes 2 ++
    leBytes 4 x.xask ++ leBytes 4 seq ++ zeroBytes 16

/-- A sample record is written at the next index of its ring. -/
def State.sampleWrite (s : State) (bs : List Byte) : State :=
  let n := (s.rd R.PMU_SAMP_WIDX).toNat % 2 ^ s.fd F.PMU_SAMP_CFG_LOG2
  (s.monWrite (s.fb F.PMU_SAMP_CFG_HOST) (s.fd F.PMU_SAMP_CFG_FUNC) ((s.rd R.PMU_SAMP_DEST).toNat + 64 * n) bs).wr R.PMU_SAMP_WIDX []
    (w64 ((n + 1) % 2 ^ s.fd F.PMU_SAMP_CFG_LOG2))

/-- The queued records of a cluster are written in order, or dropped and counted when they cannot be; they wait for a sleeping
link (R475). -/
def State.sampleDrain (s : State) (c : Nat) : State :=
  let host := s.fb F.PMU_SAMP_CFG_HOST
  let f := s.fd F.PMU_SAMP_CFG_FUNC
  let q := s.dev.mon.sampQ.get [] c
  let clear (s : State) : State := s.setMon { s.dev.mon with sampQ := s.dev.mon.sampQ.set [] c [] }
  if q.isEmpty then s
  else if !s.monMay host f then (clear s).bump R.PMU_SAMP_LOST_COUNT [] q.length
  else
    let go (s : State) : State := q.foldl (fun s bs => s.sampleWrite bs) (clear s)
    if host then s.whenAwake f go else go s

/-- A record joins the queue of its cluster, of at most 16, or is dropped; either way SEQ counts it. -/
def State.sampleQueue (s : State) (c : Nat) (bs : List Byte) : State :=
  let q := s.dev.mon.sampQ.get [] c
  if q.length < 16 then s.setMon { s.dev.mon with sampQ := s.dev.mon.sampQ.set [] c (q ++ [bs]) } else s.bump R.PMU_SAMP_LOST_COUNT

/-- SAMPLE_RECORD: the latency of an engine's marked instruction is known, with its flags [5:0] and exception code; below MIN_LAT
nothing is recorded. Records that waited are tried again. -/
def sampleRecord (g lat flags ecause : Nat) (s : State) : State :=
  let s1 := match s.dev.mon.marked.get none g with
    | none => s
    | some x =>
      let m := { s.dev.mon with marked := s.dev.mon.marked.set none g none }
      let took := if nbit flags 3 then 0 else lat
      if took < (s.rd R.PMU_SAMP_MINLAT).toNat then s.setMon m
      else (s.setMon { m with sampSeq := m.sampSeq + 1 }).sampleQueue (g / 8) (x.bytes lat flags ecause (m.sampSeq + 1))
  s1.sampleDrain (g / 8)

/-- PMU_SAMP_CTRL is written: SEQ counts from 1 again when EN is set, and the countdowns start afresh (DESIGN CHOICE, log entry 86). -/
def State.sampCtrl (s : State) (v : Word) : State :=
  let s1 := s.wrSoft R.PMU_SAMP_CTRL [] v
  if !s.fb F.PMU_SAMP_CTRL_EN && s1.fb F.PMU_SAMP_CTRL_EN then
    s1.setMon { s1.dev.mon with sampSeq := 0, counts := [], armed := [], marked := [] }
  else s1

/-! ## The commands -/

/-- PMU_FREEZE (R465). -/
def execPmuFreeze (path : Path) (v : Word) (s : State) : Host.Outcome State Fault Refusal := .next (pmuFreeze path v s)
/-- HIST_CLEAR (R469). -/
def execHistClear (path : Path) (u : Nat) (s : State) : Host.Outcome State Fault Refusal := .next (histClear path u s)
/-- HIST_DEPTH_SAMPLE (R466). -/
def execHistDepthSample (u : Nat) (s : State) : Host.Outcome State Fault Refusal := .next (s.live (histDepthSample u))
/-- DUMP_LATCH (R470). -/
def execDumpLatch (s : State) : Host.Outcome State Fault Refusal := .next (s.live dumpLatch)
/-- DUMP_WRITE (R471). -/
def execDumpWrite (s : State) : Host.Outcome State Fault Refusal := .next (s.live dumpWrite)
/-- SAMPLE_MARK (R473). -/
def execSampleMark (g : Nat) (s : State) : Host.Outcome State Fault Refusal := .next (s.live (sampleMark g))
/-- SAMPLE_RECORD (R475). -/
def execSampleRecord (g lat flags ecause : Nat) (s : State) : Host.Outcome State Fault Refusal :=
  .next (s.live (sampleRecord g lat flags ecause))

end Sys2Proof.Machine
end

