-- ==== Sys2Proof/Machine/Supply.lean ====
section
/-! DEFINITION. Machine/Supply.lean: the thermal monitor, the AVSBus set point, and the supply and PLL monitors (R443, R507, R515,
R516, R53). They run in every state but Off (R485). -/
namespace Sys2Proof.Machine

/-! ## Temperature (R515, R516); in eighths of a degree -/

/-- The trip threshold, 135 °C. -/
def tripAt : Int := 1080

/-- The hottest of some sensors: its number and temperature; the lowest among equals. -/
def hottest (temps : List Int) : Nat × Int :=
  (temps.zipIdx.foldl (fun (b : Option (Nat × Int)) e => match b with
    | none => some (e.2, e.1)
    | some (n, v) => some (if v < e.1 then (e.2, e.1) else (n, v))) none).getD (0, 0)

/-- The threshold of a throttle step (Table 22-7). -/
def State.stepAt (s : State) (k : Nat) : Int := ((s.fd F.THERM_CFG_THROTTLE_AT + 5 * (k - 1)) * 8 : Nat)

/-- The step after a sample: a step is raised at its threshold, and lowered 3 °C below it. -/
def State.throttleStep (s : State) (h : Int) : Nat :=
  let cur := s.fd F.THERM_STATUS_STEP
  (List.range 4).foldl (fun k i =>
    if i != 0 && (decide (s.stepAt i ≤ h) || (decide (i ≤ cur) && decide (s.stepAt i - 24 < h))) then i else k) 0

/-- The die temperature slew over a second, of the hottest sensor, and with it SPEC_MET (R53, DEDUCED, log entry 83). -/
def State.slew (s : State) (h : Int) : State :=
  let (at_, h0) := s.dev.slewFrom
  if s.locSince at_ < 1000000 * ticksPerUs then s
  else
    let s1 := { s with
      dev := { s.dev with slewFrom := (s.loc, h) }
      inv := { s.inv with slewFast := decide (16 < h - h0) || decide (16 < h0 - h) } }
    if s1.invOn then s1.updSpec else s1

/-- 100 µs at the step in force (R515): at step 1 or above they count in THERM_THROTTLE_TIME, and their seconds in Pewter. -/
def State.countThrottle (s : State) : State :=
  if s.fd F.THERM_STATUS_STEP == 0 then s
  else
    let n := s.dev.throttled + 100
    let s1 := (s.bump R.THERM_THROTTLE_TIME [] 100).accAdd accThrottle 4 (n / 1000000)
    { s1 with dev := { s1.dev with throttled := n % 1000000 } }

/-- THERM_SAMPLE: 100 µs after the last, with the 64 temperatures. A sample that reaches the trip threshold takes the trip, and the
step stays (DEDUCED, log entry 84). -/
def thermSample (temps : List Int) (s : State) : State :=
  if s.dev.off || temps.length != 64 || s.locSince s.dev.thermAt < 100 * ticksPerUs then s
  else
    let (n, h) := hottest temps
    let s1 := s.countThrottle
    let s2 := { s1 with dev := { s1.dev with thermAt := w64 (s1.dev.thermAt.toNat + 100 * ticksPerUs) } }
    let s3 := temps.zipIdx.foldl (fun s e => s.wr R.THERM_TEMP [e.2] (w64 (ofSigned 12 e.1))) s2
    let s4 := ((s3.fw F.THERM_STATUS_SENSOR [] n).fw F.THERM_STATUS_TEMP [] (ofSigned 12 h)).slew h
    if tripAt ≤ h then s4.report (tsrc 4 n) 0x71
    else
      let k := s4.throttleStep h
      let s5 := s4.fw F.THERM_STATUS_STEP [] k
      if s.fd F.THERM_STATUS_STEP == 0 && k != 0 then s5.report (tsrc 4 n) 0x70 else s5

/-- THERMAL_TRIP: the comparator on the hottest sensor trips, even when no sample is taken (R516). -/
def thermalTrip (n : Nat) (s : State) : State := if s.dev.off || 64 ≤ n then s else s.report (tsrc 4 n) 0x71

/-! ## The set point of VDD_CORE (R507) -/

/-- The set point now, in mV. -/
def State.setPoint (s : State) : Nat := (s.rd R.CLK_AVS_VSET).toNat

/-- May mv be commanded: in range and in step, at most 25 mV away; in the safe state only toward 700, in Doze only toward 650, and
in Deep Retention, where the logic is gated, not at all (Table 21-1)? -/
def State.avsMay (s : State) (mv : Nat) : Bool :=
  let v := s.setPoint
  let dist (a b : Nat) : Nat := max a b - min a b
  decide (650 ≤ mv) && decide (mv ≤ 850) && mv % 5 == 0 && decide (dist mv v ≤ 25) &&
  if s.inSafe then decide (dist mv 700 < dist v 700) || (mv == 700 && v == 700)
  else match s.dev.power with
    | 2 => decide (mv < v) || (mv == 650 && v == 650)
    | 3 => false
    | _ => true

/-- AVS_SET: from boot stage 1, when the regulator has acknowledged the last change (R507). -/
def avsSet (mv : Nat) (s : State) : State :=
  if s.dev.off || s.fd F.DEV_BOOT_STATUS_STAGE == 0 || s.dev.avsAt.isSome || !s.avsMay mv then s
  else
    let s1 := (s.wr R.CLK_AVS_VSET [] (w64 mv)).emit (.avs mv)
    { s1 with dev := { s1.dev with avsAt := some s1.loc } }

/-- AVSBUS_ACK: the regulator acknowledges. -/
def avsbusAck (s : State) : State := { s with dev := { s.dev with avsAt := none } }

/-- AVS_TIMEOUT: no acknowledgement for 500 µs (R507). The manual names the block DEV and no instance: that is free (DESIGN CHOICE, log entry
85). -/
def avsTimeout (s : State) : State :=
  match s.dev.avsAt with
  | none => s
  | some at_ =>
    if s.locSince at_ < 500 * ticksPerUs then s
    else
      let (n, s1) := s.freeBelow 7
      ({ s1 with dev := { s1.dev with avsAt := none } }).report (tsrc 0 n) 0x72

/-! ## Supply and PLL monitors (R443) -/

/-- A source that exists and can raise a code reports it. -/
def State.sourceReport (s : State) (src code : Nat) : State :=
  if !s.dev.off && canRaise s.variant src code then s.report src code else s

/-- SUPPLY_FAULT: monitor n of the block DEV. -/
def supplyFault (n : Nat) (s : State) : State := if n < 8 then s.sourceReport (tsrc 0 n) 0x72 else s

/-- PLL_UNLOCK: 0 to 15 the core, timing and host PLLs of the block CLK, from 16 the lane PLLs. -/
def pllUnlock (n : Nat) (s : State) : State :=
  if n < 16 then s.sourceReport (tsrc 3 n) 0x73 else if n < 80 then s.sourceReport (tsrc 0x17 (n - 16)) 0x73 else s

/-! ## The commands -/

/-- THERM_SAMPLE (R515). -/
def execThermSample (temps : List Int) (s : State) : Host.Outcome State Fault Refusal := .next (thermSample temps s)
/-- THERMAL_TRIP (R516). -/
def execThermalTrip (n : Nat) (s : State) : Host.Outcome State Fault Refusal := .next (thermalTrip n s)
/-- AVS_SET (R507). -/
def execAvsSet (mv : Nat) (s : State) : Host.Outcome State Fault Refusal := .next (avsSet mv s)
/-- AVSBUS_ACK (R507). -/
def execAvsbusAck (s : State) : Host.Outcome State Fault Refusal := .next (avsbusAck s)
/-- AVS_TIMEOUT (R507). -/
def execAvsTimeout (s : State) : Host.Outcome State Fault Refusal := .next (avsTimeout s)
/-- SUPPLY_FAULT (R443). -/
def execSupplyFault (n : Nat) (s : State) : Host.Outcome State Fault Refusal := .next (supplyFault n s)
/-- PLL_UNLOCK (R443). -/
def execPllUnlock (n : Nat) (s : State) : Host.Outcome State Fault Refusal := .next (pllUnlock n s)

end Sys2Proof.Machine
end

