-- ==== Sys2Proof/Machine/ControlSpace.lean ====
section
/-! DEFINITION. Machine/ControlSpace.lean: control space as its agents reach it: where registers are, what a read returns and clears,
what a write does, the BARs of a host, and the sideband (R11 to R13, R432, R433, R528 to R532). -/
namespace Sys2Proof.Machine

/-! ## Where registers are (R528) -/

/-- The indexes and the rest of an offset into an array; none beyond its last element. -/
def splitIx (p096 : Bool) : List RegDim → Nat → Option (List Nat × Nat)
  | [], off => some ([], off)
  | d :: ds, off =>
    let i := off / d.stride
    if (if p096 then d.count096 else d.count) ≤ i then none
    else (splitIx p096 ds (off % d.stride)).map fun r => (i :: r.1, r.2)

/-- A register that an address lies in: its indexes, and the byte within it. -/
structure RegAt where
  reg : RegDesc
  ix : List Nat
  off : Nat
deriving DecidableEq, Repr

/-- Has a monitor unit no such counter, or is it disabled on a GK-ON096-P1 (Table 20-10)? -/
def pmuAbsent (p096 : Bool) (ix : List Nat) : Bool :=
  let u := ix.getD 0 0
  (decide (160 ≤ u) && decide (4 ≤ ix.getD 1 0)) ||
  (p096 && ((decide (12 ≤ u) && decide (u < 16)) || (decide (112 ≤ u) && decide (u < 144)) || (decide (172 ≤ u) && decide (u < 176)) ||
    decide (224 ≤ u)))

/-- Does an address lie in a register of an array? -/
def RegDesc.at_ (r : RegDesc) (p096 : Bool) (a : Nat) : Option RegAt :=
  if a < r.base then none
  else match splitIx p096 r.dims (a - r.base) with
    | some (ix, off) =>
      if r.width / 8 ≤ off || ((r.base == R.PMU_CNT.base || r.base == R.PMU_SEL.base) && pmuAbsent p096 ix) then none
      else some ⟨r, ix, off⟩
    | none => none

/-- The register at an address; none where no register is (R528). -/
def State.regAt (s : State) (a : Nat) : Option RegAt := allRegs.findSome? fun r => r.at_ s.is096 a

/-! ## What registers show -/

/-- INV_ROOT_ID and INV_STANDBY_ID (Tables 2-5, 2-9). -/
def State.invRootId (s : State) : Word := match s.inv.root with
  | some r => w64 (r.gen % 256 * 2 ^ 24 + r.cand.dn)
  | none => 0
def State.invStandbyId (s : State) : Word := match s.inv.standby with
  | some c => w64 (2 ^ 31 + c.dn)
  | none => 0

/-- The first and the second index. -/
def ix0 (ix : List Nat) : Nat := ix.getD 0 0
def ix1 (ix : List Nat) : Nat := ix.getD 1 0

/-- The registers that show live state, by their base (R533). -/
def liveViews : List (Nat × (State → List Nat → Word)) :=
  [(R.DEV_ID.base, fun s _ => s.devId), (R.DEV_REV.base, fun s _ => s.devRev), (R.DEV_SVN.base, fun s _ => s.devSvn),
   (R.DEV_SERIAL.base, fun s _ => s.dev.serial), (R.INV_FT.base, fun s _ => s.ft), (R.INV_LOCAL.base, fun s _ => s.loc),
   (R.INV_STATUS.base, fun s _ => s.invStatus), (R.INV_ROOT_ID.base, fun s _ => s.invRootId),
   (R.INV_STANDBY_ID.base, fun s _ => s.invStandbyId), (R.INV_HOLD_ERR.base, fun s _ => w64 s.holdErr),
   (R.TGF_STATUS.base, fun s _ => s.tgfStatus), (R.LIFE_STATUS.base, fun s _ => s.lifeStatus),
   (R.LIFE_FATAL_COUNT.base, fun s _ => w64 s.dev.life.fatals), (R.LIFE_LOG_WRAPS.base, fun s _ => s.logWraps),
   (R.LIFE_WIN.base, fun s ix => s.lifeWin (ix0 ix)), (R.PWR_STATUS.base, fun s _ => s.pwrStatus)] ++
  [(R.HIF_ATT_STATUS.base, fun s ix => s.attStatus (ix0 ix)), (R.HIF_STATUS.base, fun s _ => s.hifStatus),
   (R.HIF_MOVER_BUSY.base, fun s _ => s.moverBusy), (R.HIF_FUNC_STATE.base, fun s ix => s.funcState (ix0 ix)),
   (R.RING_POOL_USED.base, fun s _ => w64 s.poolUsed), (R.RING_Q_STATE.base, fun s ix => s.ringQState (ix0 ix)),
   (R.RING_CQ_STATE.base, fun s ix => s.ringCqState (ix0 ix)), (R.XLT_STATUS.base, fun s _ => s.xltStatus),
   (R.CLU_STATUS.base, fun s ix => s.cluStatus (ix0 ix)), (R.CLU_MATCH_STATUS.base, fun s ix => s.matchStatus (ix0 ix)),
   (R.WF_STATUS.base, fun s ix => s.wfStatus (4 * ix0 ix + ix1 ix)), (R.WF_VISIBLE.base, fun s ix => s.wfVisible (4 * ix0 ix + ix1 ix)),
   (R.ROUTE_EPOCH_STATUS.base, fun s _ => s.epochStatus), (R.SLD_STATUS.base, fun s _ => s.sldStatus),
   (R.SLD_CTX_USED.base, fun s _ => s.sldCtxUsed), (R.SLD_ONDIE_USED.base, fun s _ => s.sldOnDie),
   (R.SLD_SPILL_USED.base, fun s _ => s.sldSpill)] ++
  [(R.AML_STATUS.base, fun s _ => s.amlStatus), (R.AML_UNIT_STATUS.base, fun s ix => s.unitStatus (ix0 ix)),
   (R.AML_SLOT_STATE.base, fun s ix => s.slotState (ix0 ix)), (R.PORT_STATUS.base, fun s ix => s.portStatus (ix0 ix)),
   (R.LNK_STATUS.base, fun s ix => s.lnkStatus (ix0 ix)), (R.LNK_PEER.base, fun s ix => s.lnkPeer (ix0 ix)),
   (R.SCH_Q_DEPTH.base, fun s ix => s.queueDepth (ix0 ix) (ix1 ix)), (R.GATE_STATUS.base, fun s ix => s.gateStatus (ix0 ix)),
   (R.SCH_LIM_TOKENS.base, fun s ix => s.limTokens (ix0 ix) (ix1 ix)), (R.SCH_LIM_WHEEL_USED.base, fun s ix => s.wheelUsed (ix0 ix)),
   (R.LANE_STATUS.base, fun s ix => s.laneStatus (ix0 ix) (ix1 ix)), (R.LANE_TX_EQ.base, fun s ix => s.laneTxEq (ix0 ix) (ix1 ix)),
   (R.HIF_CRING_STATUS.base, fun s ix => s.cringStatus (ix0 ix))]

/-- The value that a register shows: live state, or what is stored. -/
def State.view (s : State) (r : RegDesc) (ix : List Nat) : Word :=
  match liveViews.find? fun e => e.1 == r.base with
  | some e => e.2 s ix
  | none => s.rd r ix

/-! ## Reads (R12, R13, R529) -/

/-- The number of an access path, by which its latches are kept. -/
def pathKey : Path → Nat
  | .near t => t
  | .bootRom => 2048
  | .sideband => 2049
  | .bar f => 2050 + f

/-- The two words of 32 bits of a word. -/
def loWord (v : Word) : Word := w64 (v.toNat % 2 ^ 32)
def hiWord (v : Word) : Word := w64 (v.toNat / 2 ^ 32)

/-- A read of one register. An RC register is cleared, but not by the sideband (R531). A read of the low half latches the high half
for the path; the next read of that high half returns it (R12). A high half read by itself clears nothing (DEDUCED, log entry 90). -/
def State.readReg (s : State) (p : Path) (x : RegAt) (wide : Bool) : Word × State :=
  let v := s.view x.reg x.ix
  let rc := x.reg.fields.any (·.acc == .rc) && p != .sideband
  let clear (s : State) : State := if rc then s.wr x.reg x.ix 0 else s
  let high := x.reg.addr x.ix + 4
  if wide || x.reg.width == 32 then (v, clear s)
  else if x.off == 0 then (loWord v, { clear s with halfLatch := s.halfLatch.set (0, 0) (pathKey p) (high, hiWord v) })
  else
    let l := s.halfLatch.get (0, 0) (pathKey p)
    if l.1 == high then (l.2, { s with halfLatch := s.halfLatch.set (0, 0) (pathKey p) (0, 0) }) else (hiWord v, s)

/-- The eight words of a record of 512 bits. -/
def State.recordWords (s : State) (x : RegAt) : List Word :=
  let r := if x.reg.base == R.TGF_HIST.base then s.hrec (ix0 x.ix) else s.tgf.post.getD ErrRec.zero
  (List.range 8).map fun i => w64 (leAt r.bytes (8 * i) 8)

/-- Is it one of the records of 512 bits (R12)? -/
def RegAt.isRecord (x : RegAt) : Bool := x.reg.base == R.TGF_HIST.base || x.reg.base == R.TGF_POST_FATAL.base

/-- A read in a record: its lowest word latches the whole record for the path, and the other words come from the latch while it is of
this record (R12); with no latch of it the live word is read (DESIGN CHOICE, log entry 138). -/
def State.readRecord (s : State) (p : Path) (x : RegAt) (wide : Bool) : Word × State :=
  let i := x.ix.getLast?.getD 0
  let at_ := x.reg.addr x.ix - 8 * i
  let part (ws : List Word) : Word :=
    let w := ws.getD i 0
    if wide then w else if x.off == 0 then loWord w else hiWord w
  let l := s.recLatch.get (0, []) (pathKey p)
  if i == 0 && x.off == 0 then
    (part (s.recordWords x), { s with recLatch := s.recLatch.set (0, []) (pathKey p) (at_, s.recordWords x) })
  else if l.1 == at_ then (part l.2, s) else (part (s.recordWords x), s)

/-- A read where an address leads; nothing there reads zero. -/
def State.readAtReg (s : State) (p : Path) (a : Nat) (wide : Bool) : Word × State :=
  match s.regAt a with
  | none => (0, s)
  | some x => if x.isRecord then s.readRecord p x wide else s.readReg p x wide

/-- A read of control space of 32 or 64 bits. A 64-bit read at a 32-bit register covers the next word too (R529). -/
def State.ctrlRead (s : State) (p : Path) (a : Nat) (wide : Bool) : Word × State :=
  if !s.mayRead p a || a % (if wide then 8 else 4) != 0 then (0, s)
  else if wide && (match s.regAt a with
      | some x => x.reg.width == 32
      | none => true) then
    let (lo, s1) := s.readAtReg p a false
    let (hi, s2) := s1.readAtReg p (a + 4) false
    (w64 (lo.toNat + hi.toNat * 2 ^ 32), s2)
  else s.readAtReg p a wide

/-! ## Reserved encodings (R11) -/

/-- The events of Table 20-3. -/
def pmuEvents : List Nat :=
  [0] ++ (List.range 14).map (0x001 + ·) ++ (List.range 7).map (0x101 + ·) ++ (List.range 8).map (0x201 + ·) ++
    (List.range 7).map (0x301 + ·) ++ (List.range 4).map (0x401 + ·) ++ (List.range 6).map (0x501 + ·)

/-- The fields with reserved encodings, and which those are. -/
def reservedCodes : List (Fld × (Nat → Bool)) :=
  [(F.CLK_IO_SLEW_OD, (· == 3)), (F.CLK_IO_SLEW_PPS, (· == 3)), (F.CLK_IO_SLEW_AVS, (· == 3)), (F.CLK_IO_SLEW_UART, (· == 3)),
   (F.CLK_IO_SLEW_JTAG, (· == 3)), (F.CLK_IO_SLEW_QSPI, (· == 3)), (F.EYE_CTRL_EYE, (· == 3)),
   (F.PMU_ENG_SEL_MODE, fun n => decide (3 < n)), (F.PMU_SEL_MODE, fun n => decide (3 < n)),
   (F.PMU_ENG_SEL_EVENT, fun n => !pmuEvents.contains n), (F.PMU_SEL_EVENT, fun n => !pmuEvents.contains n),
   (F.PMU_SAMP_CTRL_CLASS, fun n => decide (3 < n)), (F.HIST_SEL_SRC, fun n => decide (12 < n)), (F.HIST_FILT_KIND, (· == 3))]

/-- A value to be written, in which a field with a reserved encoding keeps what it holds. -/
def keepReserved (r : RegDesc) (old v : Word) : Word :=
  reservedCodes.foldl (fun v e =>
    if e.1.reg.base == r.base && e.2 (bitsW v e.1.hi e.1.lo) then putW v e.1.hi e.1.lo (bitsW old e.1.hi e.1.lo) else v) v

/-! ## Writes -/

/-- What the untouched half of a register is written with: its fields as they are, and no action. -/
def RegDesc.untouched (r : RegDesc) (old : Word) : Word :=
  r.fields.foldl (fun w f => if f.acc == .w1c || f.acc == .w1s || f.acc == .wo then putW w f.hi f.lo 0 else w) old

/-- DEV_CTRL: ignored without its KEY; RESET goes before WARM, and WARM before SVN_COMMIT. -/
def devCtrl (p : Path) (v : Word) (s : State) : State :=
  if !s.devKey p v then s
  else
    let s1 := svnCommit p v (s.fw F.DEV_CTRL_KEY [] (bitsW v 31 16))
    if bitW v 0 then resetN (.reg p v) s1 else warm p v s1

/-- INV_CTRL: its settings, then ENABLE and REACQUIRE. -/
def invCtrl (v : Word) (s : State) : State :=
  let s1 := s.wrSoft R.INV_CTRL [] (putW (putW v 0 0 (s.fd F.INV_CTRL_ENABLE)) 5 5 0)
  let s1 := if bitW v 3 then s1 else s1.setInv fun i => { i with extLock := false, ppsGood := 0 }
  let s2 := if bitW v 0 then invEnable s1 else invDisable s1
  if bitW v 5 then reacquire s2 else s2

/-- TGF_CTRL: INJECT_EN is ignored while INJECT_LOCK is 1. -/
def tgfCtrl (v : Word) (s : State) : State :=
  s.wrSoft R.TGF_CTRL [] (if s.fb F.TGF_CTRL_INJECT_LOCK then putW v 30 30 (s.fd F.TGF_CTRL_INJECT_EN) else v)

/-- A register of a route-table bank: written only while the bank is FREE (R333). -/
def routeTable (r : RegDesc) (ix : List Nat) (v : Word) (s : State) : State :=
  if s.bank (ix0 ix) == 0 then s.wrSoft r ix v else s.bump R.ROUTE_WRITE_REFUSE_COUNT

/-- SLD_WINDOW, SLD_SPILL_BASE and SLD_SPILL_SIZE: refused while a packet is held (R351). -/
def sldCfgWrite (r : RegDesc) (v : Word) (s : State) : State :=
  if s.allHeld.isEmpty then (s.wrSoft r [] v).fset F.SLD_STATUS_CFG_REFUSED [] false else s.fset F.SLD_STATUS_CFG_REFUSED [] true

/-- CLU_MATCH_UBUF_BASE and CLU_MATCH_UBUF_BLOCKS: ignored while a block of the cluster is taken (R284). -/
def ubufWrite (r : RegDesc) (ix : List Nat) (v : Word) (s : State) : State :=
  if s.mtch.recs.any fun e => e.1 / 2 ^ 20 == ix0 ix && e.2.any (·.block.isSome) then s else s.wrSoft r ix v

/-- ROUTE_SELF_DN and ROUTE_SELF_POS: writes are ignored once routing is enabled (R337). -/
def routeSelfWrite (r : RegDesc) (v : Word) (s : State) : State := if s.route.enabled then s else s.wrSoft r [] v

/-- CLU_HT_STAGE0 and CLU_HT_STAGE1: ignored while GO is 1 (R76). -/
def htStageWrite (r : RegDesc) (ix : List Nat) (v : Word) (s : State) : State :=
  if s.fb F.CLU_HT_COMMIT_GO [ix0 ix] then s else s.wrSoft r ix v

/-- GATE_PEND_BASE, GATE_PEND_CYCLE and GATE_PEND_LEN: frozen while a list is armed (R392). -/
def gatePendWrite (r : RegDesc) (ix : List Nat) (v : Word) (s : State) : State :=
  if (s.port (ix0 ix)).sch.armed then s.gateWriteRefused (ix0 ix) else s.wrSoft r ix v
/-- GATE_LIST: the active bank is never written, the pending one not while it is armed (R392, Table 16-5). -/
def gateListWrite (ix : List Nat) (v : Word) (s : State) : State :=
  let x := (s.port (ix0 ix)).sch
  if ix1 ix == x.bank || x.armed then s.gateWriteRefused (ix0 ix) else s.wrSoft R.GATE_LIST ix v

/-- HIST_SEL and HIST_FILT: a change of SRC, INSTANCE, SHIFT or the filter, or CLEAR, clears the unit (R469). -/
def histSelWrite (u : Nat) (v : Word) (s : State) : State :=
  let s1 := s.wrSoft R.HIST_SEL [u] (putW v 30 30 0)
  let same (f : Fld) : Bool := s.fd f [u] == s1.fd f [u]
  if bitW v 30 || !same F.HIST_SEL_SRC || !same F.HIST_SEL_INSTANCE || !same F.HIST_SEL_SHIFT then s1.histClear u else s1
def histFiltWrite (u : Nat) (v : Word) (s : State) : State :=
  let s1 := s.wrSoft R.HIST_FILT [u] v
  if s.rd R.HIST_FILT [u] == s1.rd R.HIST_FILT [u] then s1 else s1.histClear u

/-- A register that is written only while a bit is 0 (R483). -/
def frozenBy (f : Fld) (r : RegDesc) (v : Word) (s : State) : State := if s.fb f then s else s.wrSoft r [] v

/-- LANE_CTRL: its settings, and RETEST. -/
def laneCtrl (p : Path) (ix : List Nat) (v : Word) (s : State) : State :=
  let s1 := s.wrSoft R.LANE_CTRL ix (putW v 4 4 0)
  if bitW v 4 then laneRetest p (ix0 ix) (ix1 ix) s1 else s1

/-- What writes of some registers do beside storing fields, by their base. -/
def writeHooks : List (Nat × (Path → List Nat → Word → State → State)) :=
  [(R.DEV_CTRL.base, fun p _ v => devCtrl p v), (R.INV_CTRL.base, fun _ _ v => invCtrl v), (R.TGF_CTRL.base, fun _ _ v => tgfCtrl v),
   (R.TGF_HIST_CTRL.base, fun p _ v s => if bitW v 31 then tgfUnfreeze p s else s), (R.TGF_HIST_ACK.base, fun p _ v => tgfHistAck p v),
   (R.TGF_INJECT.base, fun p _ v => tgfInject p v), (R.TGF_RETEST.base, fun p _ v => retest p v),
   (R.LIFE_CTRL.base, fun p _ v s => if bitW v 0 then commitNow p s else s),
   (R.PWR_WAKE.base, fun p _ v s => if bitW v 0 then pwrWake p [] s else s),
   (R.HIF_VF_ALLOC.base, fun p ix v => vfAllocWrite p (ix0 ix) v), (R.XLT_REVOKE_CTRL.base, fun p _ v => xltRevokeCtrl p v),
   (R.CLU_MATCH_UBUF_BASE.base, fun _ ix v => ubufWrite R.CLU_MATCH_UBUF_BASE ix v),
   (R.CLU_MATCH_UBUF_BLOCKS.base, fun _ ix v => ubufWrite R.CLU_MATCH_UBUF_BLOCKS ix v),
   (R.CLU_HT_STAGE0.base, fun _ ix v => htStageWrite R.CLU_HT_STAGE0 ix v),
   (R.CLU_HT_STAGE1.base, fun _ ix v => htStageWrite R.CLU_HT_STAGE1 ix v),
   (R.WF_CFG.base, fun _ ix v s => s.synced (wfCfgWrite (ix0 ix) (ix1 ix) v))] ++
  [(R.ROUTE_EPOCH_CTRL.base, fun p _ v => epochWrite p v), (R.ROUTE_EPT_INV.base, fun p _ v => routeEptInv p v),
   (R.ROUTE_SWITCH_FT.base, fun _ _ v s => if s.armedBank.isSome then s else s.wrSoft R.ROUTE_SWITCH_FT [] v)] ++
  [R.ROUTE_SELF_DN, R.ROUTE_SELF_POS].map (fun r => (r.base, fun _ _ v => routeSelfWrite r v)) ++
  [R.ROUTE_DEST, R.ROUTE_GROUP, R.ROUTE_ROW, R.ROUTE_COLUMN, R.ROUTE_PORT, R.ROUTE_PSET].map
    (fun r => (r.base, fun _ ix v => routeTable r ix v)) ++
  [R.SLD_WINDOW, R.SLD_SPILL_BASE, R.SLD_SPILL_SIZE].map (fun r => (r.base, fun _ _ v => sldCfgWrite r v)) ++
  [(R.AML_CTRL.base, fun p _ v => amlCfgWrite p R.AML_CTRL.base v),
   (R.AML_ACC_RESV.base, fun p ix v => amlCfgWrite p (R.AML_ACC_RESV.addr ix) v), (R.LNK_CTRL.base, fun p ix v => lnkCtrl p (ix0 ix) v),
   (R.GATE_CTRL.base, fun p ix v => gateCtrl p (ix0 ix) v), (R.GATE_LIST.base, fun _ ix v => gateListWrite ix v)] ++
  [R.GATE_PEND_BASE, R.GATE_PEND_CYCLE, R.GATE_PEND_LEN].map (fun r => (r.base, fun _ ix v => gatePendWrite r ix v)) ++
  [(R.SCH_LIM_CFG.base, fun p ix v => limiterCfgWrite p (ix0 ix) (ix1 ix) v), (R.SCH_LIM_INV.base, fun p _ v => schLimInv p v),
   (R.LANE_CTRL.base, laneCtrl), (R.EYE_CTRL.base, fun p ix v => eyeScan p (ix0 ix) (ix1 ix) v),
   (R.PMU_DUMP_CTRL.base, fun _ _ v s => s.dumpCtrl v), (R.PMU_SAMP_CTRL.base, fun _ _ v s => s.sampCtrl v),
   (R.PMU_DUMP_CFG.base, fun _ _ v => frozenBy F.PMU_DUMP_CTRL_EN R.PMU_DUMP_CFG v),
   (R.PMU_DUMP_DEST.base, fun _ _ v => frozenBy F.PMU_DUMP_CTRL_EN R.PMU_DUMP_DEST v),
   (R.PMU_SAMP_CFG.base, fun _ _ v => frozenBy F.PMU_SAMP_CTRL_EN R.PMU_SAMP_CFG v),
   (R.PMU_SAMP_DEST.base, fun _ _ v => frozenBy F.PMU_SAMP_CTRL_EN R.PMU_SAMP_DEST v),
   (R.HIST_SEL.base, fun _ ix v => histSelWrite (ix0 ix) v), (R.HIST_FILT.base, fun _ ix v => histFiltWrite (ix0 ix) v)]

/-- A register written whole. -/
def State.writeReg (s : State) (p : Path) (x : RegAt) (v : Word) : State :=
  let w := keepReserved x.reg (s.rd x.reg x.ix) v
  match writeHooks.find? fun e => e.1 == x.reg.base with
  | some e => e.2 p x.ix w s
  | none => s.wrSoft x.reg x.ix w

/-- A 32-bit write: a whole register of 32 bits, or half of one of 64 (R529). -/
def State.writeHalf (s : State) (p : Path) (a : Nat) (v : Word) : State :=
  match s.regAt a with
  | none => s
  | some x =>
    let lo := v.toNat % 2 ^ 32
    if x.reg.width == 32 then s.writeReg p x (w64 lo)
    else s.writeReg p x (putW (x.reg.untouched (s.rd x.reg x.ix)) (8 * x.off + 31) (8 * x.off) lo)

/-- A write of control space of 32 or 64 bits (R529, R530). -/
def State.ctrlWrite (s : State) (p : Path) (a : Nat) (wide : Bool) (v : Word) : State :=
  if !s.mayWrite p a || a % (if wide then 8 else 4) != 0 then s
  else if !wide then s.writeHalf p a v
  else match s.regAt a with
    | some x =>
      if x.reg.width == 64 then s.writeReg p x v
      else
        let s1 := s.writeReg p x (loWord v)
        if s1.mayWrite p (a + 4) then s1.writeHalf p (a + 4) (hiWord v) else s1
    | none => s.writeHalf p (a + 4) (hiWord v)

/-! ## The BARs (R175, R432, R433); of a VF the offsets from 0x1_0000 stand for its BAR2 (DESIGN CHOICE, log entry 91) -/

/-- HIF_CRING_CFG and HIF_CCQ_CFG (Table 6-8). -/
def cringCfg (pf : Nat) (v : Word) (s : State) : State :=
  if s.fb F.HIF_CRING_CFG_ENABLE [pf] then (if bitW v 31 then s else cringDisable pf s)
  else
    let s1 := s.wrSoft R.HIF_CRING_CFG [pf] v
    if bitW v 31 then s1.cringEnable pf else s1
def ccqCfg (pf : Nat) (v : Word) (s : State) : State :=
  if s.fb F.HIF_CCQ_CFG_ENABLE [pf] then
    let s1 := (s.fw F.HIF_CCQ_CFG_VECTOR [pf] (bitsW v 26 16)).fset F.HIF_CCQ_CFG_IRQ_EN [pf] (bitW v 30)
    let cn := ctrlCn pf
    let s2 := (s1.setCq cn { s1.cq cn with vector := bitsW v 26 16, irqEn := bitW v 30 }).irqCheck cn
    if bitW v 31 then s2 else ccqDisable pf s2
  else
    let s1 := s.wrSoft R.HIF_CCQ_CFG [pf] v
    if bitW v 31 then s1.ccqEnable pf else s1

/-- Half of a base register, ignored while the ring is enabled. -/
def cringBase (en : Fld) (r : RegDesc) (pf off : Nat) (v : Word) (s : State) : State :=
  if s.fb en [pf] then s else s.wrSoft r [pf] (putW (s.rd r [pf]) (8 * off + 31) (8 * off) v.toNat)

/-- Word j of an MSI-X table entry: address, address, data, mask. -/
def Func.msixWord (x : Func) (i j : Nat) : Nat :=
  let (a, d, m) := x.msix.get msixInit i
  match j with
  | 0 => a % 2 ^ 32
  | 1 => a / 2 ^ 32
  | 2 => d
  | _ => b2n m
/-- It is written. -/
def Func.setMsix (x : Func) (i j v : Nat) : Func :=
  let (a, d, m) := x.msix.get msixInit i
  { x with msix := x.msix.set msixInit i (match j with
    | 0 => (a / 2 ^ 32 * 2 ^ 32 + v, d, m)
    | 1 => (a % 2 ^ 32 + v * 2 ^ 32, d, m)
    | 2 => (a, v, m)
    | _ => (a, d, nbit v 0)) }

/-- Where the MSI-X table of a function stands, and its pending bit array. -/
def msixAt (f : Nat) : Nat := if f < 16 then 0x100000 else 0x10000
def pbaAt (f : Nat) : Nat := if f < 16 then 0x108000 else 0x10800

/-- A 32-bit word of a BAR as the host reads it. -/
def State.barWord (s : State) (f off : Nat) : Word :=
  let x := s.func f
  let word (v : Word) : Word := if off % 8 == 4 then hiWord v else loWord v
  if msixAt f ≤ off && off < msixAt f + 16 * vectorsOf f then w64 (x.msixWord ((off - msixAt f) / 16) (off % 16 / 4))
  else if pbaAt f ≤ off && off < pbaAt f + vectorsOf f / 8 then
    w64 (((List.range 32).map fun i => if NSet.mem x.held ((off - pbaAt f) * 8 + i) then 2 ^ i else 0).sum)
  else if inDoorbells f off then word (s.doorbellRead f off)
  else if 16 ≤ f then 0
  else if off < 0x1000 then match s.regAt off with
    | some r => if r.reg.width == 32 then s.view r.reg r.ix else word (s.view r.reg r.ix)
    | none => 0
  else if off < 0x1030 then match s.regAt (R.HIF_CRING_BASE.addr [f] + off - 0x1000) with
    | some r => if r.reg.width == 32 then s.view r.reg r.ix else word (s.view r.reg r.ix)
    | none => 0
  else 0

/-- A read of a BAR. -/
def State.barRead (s : State) (f off : Nat) (wide : Bool) : Word :=
  if off % (if wide then 8 else 4) != 0 then 0
  else if wide then w64 ((s.barWord f off).toNat + (s.barWord f (off + 4)).toNat * 2 ^ 32) else s.barWord f off

/-- A 32-bit write of a BAR outside the doorbells. -/
def State.barHalf (s : State) (f off : Nat) (v : Word) : State :=
  if msixAt f ≤ off && off < msixAt f + 16 * vectorsOf f then
    s.setFunc f ((s.func f).setMsix ((off - msixAt f) / 16) (off % 16 / 4) v.toNat)
  else if 16 ≤ f then s
  else match off with
    | 0x1000 => cringBase F.HIF_CRING_CFG_ENABLE R.HIF_CRING_BASE f 0 v s
    | 0x1004 => cringBase F.HIF_CRING_CFG_ENABLE R.HIF_CRING_BASE f 4 v s
    | 0x1008 => cringCfg f v s
    | 0x1010 => cringBase F.HIF_CCQ_CFG_ENABLE R.HIF_CCQ_BASE f 0 v s
    | 0x1014 => cringBase F.HIF_CCQ_CFG_ENABLE R.HIF_CCQ_BASE f 4 v s
    | 0x1018 => ccqCfg f v s
    | 0x1030 => Sys2Proof.Machine.adapterReset f (BitVec.ofNat 32 v.toNat) s
    | _ => s

/-- A write of a BAR; in the safe state it is discarded (R451). -/
def State.barWrite (s : State) (f off : Nat) (wide : Bool) (v : Word) : State :=
  if s.inSafe then s
  else if inDoorbells f off then s.synced (doorbell f off (if wide then 8 else 4) (if wide then v else loWord v) false)
  else if off % (if wide then 8 else 4) != 0 then s
  else if wide then (s.barHalf f off (loWord v)).barHalf f (off + 4) (hiWord v) else s.barHalf f off (loWord v)

/-! ## Accesses as commands -/

/-- A read by an access path: what it returns is recorded. A device in Doze is woken by a request of the host, and one in Deep
Retention answers none (R489). -/
def busRead (p : Path) (a : Nat) (wide : Bool) (s : State) : State :=
  match p with
  | .bar f =>
    let s1 := s.hostStirs
    if s1.parked || s1.dev.off then s1 else s1.emit (.value p a (s1.barRead f a wide))
  | _ =>
    let (v, s1) := s.ctrlRead p a wide
    s1.emit (.value p a v)

/-- A write by an access path. -/
def busWrite (p : Path) (a : Nat) (wide : Bool) (v : Word) (s : State) : State :=
  match p with
  | .bar f =>
    let s1 := s.hostStirs
    if s1.parked || s1.dev.off then s1 else s1.barWrite f a wide v
  | _ => s.ctrlWrite p a wide v

/-- WF_CFG is written (R150). -/
def wfCfg (p : Path) (c f : Nat) (v : Word) (s : State) : State :=
  if s.mayWrite p (R.WF_CFG.addr [c, f]) && decide (c < s.clusterCount) && decide (f < 4) then s.synced (wfCfgWrite c f v) else s

/-! ## The sideband (R531) -/

/-- The sideband's address moved on by a word. -/
def State.sbNext (s : State) : State := { s with sbAddr := (s.sbAddr + 4) % 2 ^ 32 }

/-- SET_ADDR: discarded with a bad PEC or an address that is no multiple of 4. -/
def sbSetAddr (a : Nat) (pec : Bool) (s : State) : State :=
  if s.dev.off || !pec || a % 4 != 0 then s else { s with sbAddr := a % 2 ^ 32 }
/-- READ. -/
def sbRead (s : State) : State :=
  if s.dev.off then s
  else
    let (v, s1) := s.ctrlRead .sideband s.sbAddr false
    (s1.emit (.sideband (some (BitVec.ofNat 32 v.toNat)))).sbNext
/-- WRITE: discarded whole with a bad PEC. -/
def sbWrite (v : Word32) (pec : Bool) (s : State) : State :=
  if s.dev.off || !pec then s else (s.ctrlWrite .sideband s.sbAddr false (w64 v.toNat)).sbNext
/-- READ_ADDR. -/
def sbReadAddr (s : State) : State := if s.dev.off then s else s.emit (.sideband (some (BitVec.ofNat 32 s.sbAddr)))

/-! ## The commands -/

/-- REGISTER_WRITE (R13). -/
def execRegisterWrite (p : Path) (a : Nat) (wide : Bool) (v : Word) (s : State) : Host.Outcome State Fault Refusal :=
  .next (busWrite p a wide v s)
/-- HALF_READ (R12). -/
def execHalfRead (p : Path) (a : Nat) (s : State) : Host.Outcome State Fault Refusal := .next (busRead p a false s)
/-- RECORD_READ (R12). -/
def execRecordRead (p : Path) (a : Nat) (s : State) : Host.Outcome State Fault Refusal := .next (busRead p a true s)
/-- RC_READ (R13). -/
def execRcRead (p : Path) (a : Nat) (wide : Bool) (s : State) : Host.Outcome State Fault Refusal := .next (busRead p a wide s)
/-- WF_CFG_WRITE (R150). -/
def execWfCfgWrite (p : Path) (c f : Nat) (v : Word) (s : State) : Host.Outcome State Fault Refusal := .next (wfCfg p c f v s)
/-- SET_ADDR (R531). -/
def execSetAddr (a : Nat) (pec : Bool) (s : State) : Host.Outcome State Fault Refusal := .next (sbSetAddr a pec s)
/-- READ (R531). -/
def execRead (s : State) : Host.Outcome State Fault Refusal := .next (sbRead s)
/-- WRITE (R531). -/
def execWrite (v : Word32) (pec : Bool) (s : State) : Host.Outcome State Fault Refusal := .next (sbWrite v pec s)
/-- READ_ADDR (R531). -/
def execReadAddr (s : State) : Host.Outcome State Fault Refusal := .next (sbReadAddr s)

end Sys2Proof.Machine
end

