-- ==== Sys2Proof/Machine/EngineMem.lean ====
section
/-! DEFINITION. Machine/EngineMem.lean: loads, stores and atomics of the engines (R64 to R71, R91, R93). -/
namespace Sys2Proof.Machine

/-- Where an engine access goes: the local memory, the shared memory or control space at an offset; HBM or host memory at
a physical address, under an ASK (0 for the physical window); it raises an exception; or it waits and is tried again. -/
inductive EngPlace
  | ldm (off : Nat)
  | csm (off : Nat)
  | control (a : Nat)
  | far (ask paddr : Nat) (hbm : Bool)
  | exc (code : Nat)
  | wait
deriving DecidableEq, Repr

/-- May the thread use an offset of its cluster's shared memory (Table 3-1, R66)? User code reaches the window, Supervisor
code writes the general region and reads the control region too. -/
def State.csmOk (s : State) (t o : Nat) (u : Use) : Bool :=
  let c := tCluster t
  match (s.thread t).priv with
  | 0 => decide (o < 0xF0000) && decide (s.fd F.CLU_CSM_UWIN_BASE [c] ≤ o / 4096) && decide (o / 4096 ≤ s.fd F.CLU_CSM_UWIN_LIMIT [c])
  | 1 => decide (o < 0xF0000) || u == .read
  | _ => true

/-- The place of a near access of n bytes (R64 to R67). A store to the handler table page is ACCESS_FAULT at any level (log
entry 92). -/
def State.nearPlace (s : State) (t a n : Nat) (u : Use) : EngPlace :=
  let off := a - 2 ^ 63
  let ctl := (s.thread t).priv == 2
  if off < 0x10000 then (if s.ldmOk t a n then .ldm off else .exc excNearRange)
  else if 0x100000 ≤ off && off < 0x200000 then
    let o := off - 0x100000
    if 0xFF000 ≤ o && u != .read then .exc excAccess
    else if s.csmOk t o u then .csm o else .exc excNearRange
  else if ctl && 2 ^ 32 ≤ off && off < 2 ^ 33 then
    if u == .atomic || n < 4 then .exc excAccess else .control (off - 2 ^ 32)
  else if ctl && 2 ^ 36 ≤ off && off < 2 ^ 36 + hbmSize then .far 0 (off - 2 ^ 36) true
  else .exc excNearRange

/-- The exception of a failed translation of a data access (R81, R248, R252): the leaf's refusal is ACCESS_FAULT, a table that
could not be read is MEM_POISON where its data is bad or an adapter halt forbids the read, and every other cause XLATE_FAULT. -/
def excOfCause (cause : Nat) : Nat :=
  if cause == 6 then excAccess else if cause == 8 || cause == 9 then excPoison else excXlate

/-- The place of a far access (R68, R248, R250). An atomic on a host page is ACCESS_FAULT (R93). -/
def State.farPlace (s : State) (t va : Nat) (u : Use) (again : Bool) : EngPlace × State :=
  let th := s.thread t
  let c := tCluster t
  let g := tEngine t
  let page := va / 4096
  match (match th.xfault with
    | some (p, false, cause) => if p == page then some cause else none
    | _ => none) with
  | some cause => (.exc (excOfCause cause), s)
  | none =>
    let s0 := s.setThread t { th with xfault := none }
    let held := (s0.engine g).dtlb.any fun e => e.covers th.xask va && !s0.aged e.filledAt
    let s1 := if held || again then s0 else s0.pmuEng g 5 th.priv
    let (r, s2) := s1.xlate c (.data g) th.xask va (u.leaf false + if th.priv == 0 then leafU else 0) true
    match r with
    | .denied => (.exc excAccess, s2)
    | .fail cause => (.exc (excOfCause cause), s2)
    | .miss => (.wait, (s2.addMiss c th.xask va (.data g t)).setWait t (.xlt 0))
    | .hit p hbm _ => if u == .atomic && !hbm then (.exc excAccess, s2) else (.far th.xask p hbm, s2)

/-- An engine access in the order of R82: alignment, range, translation, rights, the parity of the registers read, bad data of a
walk, then k. -/
def State.access (s : State) (t : Nat) (a : Word) (n : Nat) (u : Use) (srcs : List Nat) (again : Bool)
    (k : EngPlace → State → State) : State :=
  let pc := (s.thread t).pc
  if a.toNat % n != 0 then s.takeExc t excMisaligned a pc else
  let (p, s1) := if bitW a 63 then (s.nearPlace t a.toNat n u, s) else s.farPlace t a.toNat u again
  match p, s1.badReg t srcs with
  | .wait, _ => s1
  | .exc code, none => s1.takeExc t code a pc
  | .exc code, some i => if code == excPoison then s1.takeExc t excParity (w64 (0x100 + i)) pc else s1.takeExc t code a pc
  | _, some i => s1.takeExc t excParity (w64 (0x100 + i)) pc
  | p, none => k p s1

/-- A read of near memory of n bytes: a bad word of the local memory is LDM_PARITY, of the shared memory MEM_POISON. -/
def State.nearRead (s : State) (t key n code : Nat) (eval : Word) (k : Nat → State → State) : State :=
  if s.bad key n then s.takeExc t code eval (s.thread t).pc else k (s.mnat key n) s

/-- The size in bytes and the signedness of a load by its major; 0 for another major (R91). -/
def loadForm (op : Nat) : Nat × Bool :=
  match op with
  | 0x10 => (1, true)
  | 0x11 => (2, true)
  | 0x12 => (4, true)
  | 0x13 => (8, true)
  | 0x14 => (1, false)
  | 0x15 => (2, false)
  | 0x16 => (4, false)
  | _ => (0, false)

/-- The size in bytes of a store by its major; 0 for another major (R91). -/
def storeSize (op : Nat) : Nat :=
  match op with
  | 0x18 => 1
  | 0x19 => 2
  | 0x1A => 4
  | 0x1B => 8
  | _ => 0

/-- CSTATE of a half (Table 8-5). -/
def CState.code : CState → Nat
  | .unused => 0
  | .established => 1
  | .error => 2
  | .quiet => 3

/-- The hot portion of a half (Table 8-1). -/
def State.hotBytes (s : State) (r : Nat) : List Byte :=
  let h := s.half r
  leBytes 4 h.txSeq.toNat ++ leBytes 3 h.remoteEp ++ leBytes 1 (h.tc * 16 + h.chan) ++ leBytes 4 (s.inflight r) ++ leBytes 4 h.window ++
  leBytes 4 h.localAsk ++ leBytes 4 h.remoteKey ++ leBytes 2 h.iso ++ leBytes 1 h.state.code ++ leBytes 1 h.lastErr ++
  leBytes 4 h.lastErrSeq.toNat

/-- A window profile as the control program copies it: its registers in their order (R239). -/
def State.profileBytes (s : State) (i : Nat) : List Byte :=
  [R.SLD_WIN_LIMITS, R.SLD_WIN_CTRL, R.SLD_WIN_RETX, R.SLD_WIN_REFUSE].flatMap fun r => leBytes 4 (s.rd r [i]).toNat

/-- Where the copy of the window profiles stands in a CSM. -/
def profileBase : Nat := 0xF0000 + Config.profileAt % 0xEF8 * 16

/-- What n bytes of a cluster's CSM read as: the library keeps the hot portions of the halves of the cluster in the general region (R200),
and the control program the window profiles in the control region (R239); the rest is memory (DESIGN CHOICE, log entry 151). -/
def State.csmNat (s : State) (c o n : Nat) : Nat :=
  if o < 0x80000 then
    let r := 16384 * c + o / 32
    if (s.net.halves.get Half.init r).state == .unused then s.mnat (csmKey c o) n else leNat (byteSlice (s.hotBytes r) (o % 32) n)
  else if 0xF0000 ≤ o && decide (o < 0xFF000) && decide (profileBase ≤ o) && decide (o < profileBase + 112) then
    leNat (byteSlice (s.profileBytes ((o - profileBase) / 16)) (o % 16) n)
  else s.mnat (csmKey c o) n

/-- A far load: it waits for a buffered store that it only overlaps, takes the buffered bytes it lies within, and else blocks its
thread (R71). A host page of a function that cannot master, or under an adapter halt, is MEM_POISON (R192, R438). -/
def State.farLoad (s : State) (t ask p : Nat) (hbm : Bool) (n : Nat) (signed : Bool) (rd : Nat) (a : Word) : State :=
  let th := s.thread t
  let blocks (s : State) : State := s.setWait t (.farLoad ask a.toNat p hbm n signed rd)
  match sbForward th.sb p hbm n with
  | some bs => s.writeNext t rd 4 (loadValue n signed (leNat bs))
  | none =>
    if sbOverlap th.sb p hbm n then s.tryAgain t
    else if hbm then blocks s
    else
      let f := askFunc (s.askMem ask)
      match s.reqBar f with
      | .halted => s.takeExc t excPoison a th.pc
      | .noMaster => s.notIssued.takeExc t excPoison a th.pc
      | .none => if s.linkAwake f then blocks ((s.traffic f).hostRead 0 f p n) else (s.startExit f).tryAgain t

/-- LOAD (R91). -/
def load (t op rd rs1 imm : Nat) (s : State) : State :=
  let (n, signed) := loadForm (op % 64)
  let again := (s.thread t).wait.isAgain
  s.issue t (wordI (op % 64) rd rs1 imm) 4 (n != 0) 0 [] fun s =>
    let a := s.reg t (rs1 % 32) + sext16 imm
    let fill (v : Nat) (s : State) : State := s.writeNext t (rd % 32) 4 (loadValue n signed v)
    s.access t a n .read [rs1 % 32] again fun p s =>
      match p with
      | .ldm o => s.nearRead t (ldmKey (tEngine t) o) n excParity (w64 o) fill
      | .csm o => s.nearRead t (csmKey (tCluster t) o) n excPoison a fun _ s => fill (s.csmNat (tCluster t) o n) s
      | .control x =>
        let (v, s1) := s.ctrlRead (.near t) x (n == 8)
        fill v.toNat s1
      | .far ask x hbm => s.farLoad t ask x hbm n signed (rd % 32) a
      | _ => s

/-- STORE (R91). A far store enters the buffer of eight; while it is full the thread stalls (R71). -/
def store (t op rd rs1 imm : Nat) (s : State) : State :=
  let n := storeSize (op % 64)
  let again := (s.thread t).wait.isAgain
  s.issue t (wordI (op % 64) rd rs1 imm) 4 (n != 0) 0 [] fun s =>
    let a := s.reg t (rs1 % 32) + sext16 imm
    let bs := leBytes n (s.reg t (rd % 32)).toNat
    s.access t a n .write [rs1 % 32, rd % 32] again fun p s =>
      match p with
      | .ldm o => (s.mwrite (ldmKey (tEngine t) o) bs).nextPc t 4
      | .csm o => (s.mwrite (csmKey (tCluster t) o) bs).nextPc t 4
      | .control x => (s.nextPc t 4).ctrlWrite (.near t) x (n == 8) (w64 (leNat bs))
      | .far ask x hbm =>
        let th := s.thread t
        if 8 ≤ th.sb.length then s.tryAgain t
        else (s.setThread t { th with sb := th.sb ++ [⟨a.toNat, ask, x, hbm, bs⟩] }).nextPc t 4
      | _ => s

/-- The operation of an atomic by its fn, as Table 4-7 numbers the operations. -/
def atomicOp (fn : Nat) : Nat :=
  match fn % 16 with
  | 0 => 1
  | 1 => 0
  | 9 => 2
  | n => n + 1

/-- ATOMIC (R93): one indivisible read and write; rd holds the expected value of `cas`, and receives the old one. It waits for
buffered stores to the same bytes (R71), and with rl for all of them (Table 3-2). -/
def atomic (t rd rs1 rs2 fn : Nat) (s : State) : State :=
  let f := fn % 2 ^ 11
  let w := nbit f 4
  let n := if w then 4 else 8
  let again := (s.thread t).wait.isAgain
  let srcs := [rs1 % 32, rs2 % 32] ++ if f % 16 == 9 then [rd % 32] else []
  s.issue t (wordA 0x28 rd rs1 rs2 f) 4 (decide (f % 16 < 10) && f / 2 ^ 7 == 0) 0 [] fun s =>
    let a := s.reg t (rs1 % 32)
    let x := (s.reg t (rs2 % 32)).toNat % 2 ^ (8 * n)
    let expected := (s.reg t (rd % 32)).toNat % 2 ^ (8 * n)
    let swap (key old : Nat) (s : State) : State :=
      (s.mwrite key (leBytes n (atomicNew (atomicOp f) (8 * n) old x expected))).writeNext t (rd % 32) 4 (loadValue n w old)
    s.access t a n .atomic srcs again fun p s =>
      if nbit f 6 && !(s.thread t).sb.isEmpty then s.tryAgain t else
      match p with
      | .ldm o =>
        let key := ldmKey (tEngine t) o
        s.nearRead t key n excParity (w64 o) (swap key)
      | .csm o =>
        let key := csmKey (tCluster t) o
        s.nearRead t key n excPoison a fun _ s => swap key (s.csmNat (tCluster t) o n) s
      | .far _ y _ =>
        if sbOverlap (s.thread t).sb y true n then s.tryAgain t
        else s.nearRead t (hbmKey y) n excPoison a (swap (hbmKey y))
      | _ => s

/-! ## The commands -/

/-- LOAD (R91). -/
def execLoad (t op rd rs1 imm : Nat) (s : State) : Host.Outcome State Fault Refusal := .next (load t op rd rs1 imm s)
/-- STORE (R91). -/
def execStore (t op rd rs1 imm : Nat) (s : State) : Host.Outcome State Fault Refusal := .next (store t op rd rs1 imm s)
/-- ATOMIC (R93). -/
def execAtomic (t rd rs1 rs2 fn : Nat) (s : State) : Host.Outcome State Fault Refusal := .next (atomic t rd rs1 rs2 fn s)

end Sys2Proof.Machine
end

