-- ==== Sys2Proof/Machine/Window.lean ====
section
/-! DEFINITION. Machine/Window.lean: what waits for the window of a half, and the ACK handler that starts it (R232, R237, R238). -/
namespace Sys2Proof.Machine

/-- The sends of the RUN of an entry go on. -/
def State.runGoesOn (s : State) (e : OutEntry) : State :=
  let id := leAt e.bytes 8 2
  match (s.coll id).bind fun cl => cl.run.map fun r => (cl, r) with
  | none => s
  | some (cl, r) =>
    match (s.queue r.qn).conn, (s.runSteps id cl e.bytes r.anchor r.passes)[r.step]? with
    | some conn, some x => if r.serial == e.serial && r.sub != 0 then s.runPush (conn / 16384) id cl r x.phase else s
    | _, _ => s

/-- The oldest entry on the pending list of a half starts what the window admits: its operation, its RUN's sends, or its get (R237). -/
def State.startWaiting (s : State) (r qn : Nat) (e : OutEntry) : State :=
  let h := s.half r
  if h.state != .established then s
  else match weOp e.bytes with
    | 0x10 => s.runGoesOn e
    | 0x20 => s.recvGoes qn e
    | _ =>
      if s.admits r (s.workPackets (r / 16384) e.bytes) then
        ((s.setHalf r { h with pendingOps := h.pendingOps.drop 1 }).launch qn r e).getD s
      else s

/-- Operations that wait for the window start, oldest first (R237). The number bounds them. -/
def State.startPending (s : State) (r : Nat) : Nat → State
  | 0 => s
  | f + 1 =>
    match (s.half r).pendingOps with
    | [] => s
    | (qn, n) :: rest =>
      match (s.queue qn).entry n with
      | none => (s.setHalf r { s.half r with pendingOps := rest }).startPending r f
      | some e =>
        let s1 := s.startWaiting r qn e
        if (s1.half r).pendingOps.head? == some (qn, n) then s1 else s1.startPending r f

/-- ACK: the oldest acknowledgement item of a half is handled, and what its window admits then
starts (R232, R237, R238). -/
def ack (r : Nat) (s : State) : State :=
  let h := s.half r
  match h.acks with
  | [] => s.startPending r h.pendingOps.length
  | a :: rest =>
    if h.state != .established then s.setHalf r { h with acks := rest } else
    let cum := match seqAhead a.cum h.cum with
      | some _ => a.cum
      | none => h.cum
    let left := h.tx.filter fun x => !a.covers cum x.seq
    let newly := h.tx.length - left.length
    let s1 := s.setHalf r (s.windowStep { h with acks := rest, cum := cum, tx := left } a newly)
    let s2 := if a.kind == 2 then s1.proven r a
      else if a.kind != 3 then s1
      else if isTransientCode a.code then s1.refused r a
      else s1.halfError r a.code a.seq a.detail
    s2.startPending r h.pendingOps.length

/-! ## The command -/

/-- ACK (R238). -/
def execAck (conn : Nat) (s : State) : Host.Outcome State Fault Refusal := .next (s.live (ack conn))

end Sys2Proof.Machine
end

