-- ==== Sys2Proof/Machine/Dispatch.lean ====
section
/-! DEFINITION. Machine/Dispatch.lean: one arm per command, each one direct call of its meaning. -/
namespace Sys2Proof.Machine

def exec (i : Instr) (s : State) : Host.Outcome State Fault Refusal :=
  match i with
  | .powerOn => Sys2Proof.Machine.execPowerOn s
  | .resetN src => Sys2Proof.Machine.execResetN src s
  | .boot r => Sys2Proof.Machine.execBoot r s
  | .bootFail r => Sys2Proof.Machine.execBootFail r s
  | .warmRestart pf idx => Sys2Proof.Machine.execWarmRestart pf idx s
  | .warm path v => Sys2Proof.Machine.execWarm path v s
  | .svnCommit path v => Sys2Proof.Machine.execSvnCommit path v s
  | .registerWrite path addr wide v => Sys2Proof.Machine.execRegisterWrite path addr wide v s
  | .halfRead path addr => Sys2Proof.Machine.execHalfRead path addr s
  | .recordRead path addr => Sys2Proof.Machine.execRecordRead path addr s
  | .rcRead path addr wide => Sys2Proof.Machine.execRcRead path addr wide s
  | .invEnable path => Sys2Proof.Machine.execInvEnable path s
  | .invDisable path => Sys2Proof.Machine.execInvDisable path s
  | .reacquire path => Sys2Proof.Machine.execReacquire path s
  | .sync p f => Sys2Proof.Machine.execSync p f s
  | .syncReceived p id f dt => Sys2Proof.Machine.execSyncReceived p id f dt s
  | .syncReplyReceived p id t2 t3 f => Sys2Proof.Machine.execSyncReplyReceived p id t2 t3 f s
  | .exchangeLost p => Sys2Proof.Machine.execExchangeLost p s
  | .announce => Sys2Proof.Machine.execAnnounce s
  | .announceReceived p a => Sys2Proof.Machine.execAnnounceReceived p a s
  | .rootStale => Sys2Proof.Machine.execRootStale s
  | .standbyWaitExpiry => Sys2Proof.Machine.execStandbyWaitExpiry s
  | .listenExpiry => Sys2Proof.Machine.execListenExpiry s
  | .ftStep => Sys2Proof.Machine.execFtStep s
  | .acquireComplete => Sys2Proof.Machine.execAcquireComplete s
  | .parentLost => Sys2Proof.Machine.execParentLost s
  | .holdoverClear => Sys2Proof.Machine.execHoldoverClear s
  | .timeHoldoverLong => Sys2Proof.Machine.execTimeHoldoverLong s
  | .ppsEdge x => Sys2Proof.Machine.execPpsEdge x s
  | .ppsLoss => Sys2Proof.Machine.execPpsLoss s
  | .ref10mLoss => Sys2Proof.Machine.execRef10mLoss s
  | .ppsOutPulse => Sys2Proof.Machine.execPpsOutPulse s
  | .ppsOutEnd => Sys2Proof.Machine.execPpsOutEnd s
  | .dispatch c ecc => Sys2Proof.Machine.execDispatch c ecc s
  | .aluReg t rd rs1 rs2 fn => Sys2Proof.Machine.execAluReg t rd rs1 rs2 fn s
  | .mulDiv t rd rs1 rs2 fn => Sys2Proof.Machine.execMulDiv t rd rs1 rs2 fn s
  | .aluImm t op rd rs1 imm imm2 => Sys2Proof.Machine.execAluImm t op rd rs1 imm imm2 s
  | .load t op rd rs1 imm => Sys2Proof.Machine.execLoad t op rd rs1 imm s
  | .farLoadReturn t st data => Sys2Proof.Machine.execFarLoadReturn t st data s
  | .store t op rd rs1 imm => Sys2Proof.Machine.execStore t op rd rs1 imm s
  | .farStorePerform t n => Sys2Proof.Machine.execFarStorePerform t n s
  | .icacheFill t st => Sys2Proof.Machine.execIcacheFill t st s
  | .branch t op ra rb imm => Sys2Proof.Machine.execBranch t op ra rb imm s
  | .jal t rd imm => Sys2Proof.Machine.execJal t rd imm s
  | .jalr t rd rs1 imm => Sys2Proof.Machine.execJalr t rd rs1 imm s
  | .atomic t rd rs1 rs2 fn => Sys2Proof.Machine.execAtomic t rd rs1 rs2 fn s
  | .fence x => Sys2Proof.Machine.execFence x s
  | .fenceSt x => Sys2Proof.Machine.execFenceSt x s
  | .fenceI x => Sys2Proof.Machine.execFenceI x s
  | .csrr x rd csr => Sys2Proof.Machine.execCsrr x rd csr s
  | .csrw t rd rs1 csr => Sys2Proof.Machine.execCsrw t rd rs1 csr s
  | .csrs t rd rs1 csr => Sys2Proof.Machine.execCsrs t rd rs1 csr s
  | .csrc t rd rs1 csr => Sys2Proof.Machine.execCsrc t rd rs1 csr s
  | .done x => Sys2Proof.Machine.execDone x s
  | .sys x imm => Sys2Proof.Machine.execSys x imm s
  | .eret x => Sys2Proof.Machine.execEret x s
  | .brk x imm => Sys2Proof.Machine.execBrk x imm s
  | .pause x imm => Sys2Proof.Machine.execPause x imm s
  | .watchdog t => Sys2Proof.Machine.execWatchdog t s
  | .watchdogKill t => Sys2Proof.Machine.execWatchdogKill t s
  | .handlerLost c => Sys2Proof.Machine.execHandlerLost c s
  | .engineRetired g => Sys2Proof.Machine.execEngineRetired g s
  | .engineStop g => Sys2Proof.Machine.execEngineStop g s
  | .htCommit c => Sys2Proof.Machine.execHtCommit c s
  | .icacheInv c => Sys2Proof.Machine.execIcacheInv c s
  | .fput t rd rs1 imm => Sys2Proof.Machine.execFput t rd rs1 imm s
  | .fget t rd rs1 imm => Sys2Proof.Machine.execFget t rd rs1 imm s
  | .famo t rd rs1 imm => Sys2Proof.Machine.execFamo t rd rs1 imm s
  | .fsend t rd rs1 imm => Sys2Proof.Machine.execFsend t rd rs1 imm s
  | .fflush t rd rs1 imm => Sys2Proof.Machine.execFflush t rd rs1 imm s
  | .ffence t rd rs1 imm => Sys2Proof.Machine.execFfence t rd rs1 imm s
  | .fmcast t rd rs1 imm => Sys2Proof.Machine.execFmcast t rd rs1 imm s
  | .qfetch t rd rs1 imm es => Sys2Proof.Machine.execQfetch t rd rs1 imm es s
  | .cqpost t rd rs1 imm => Sys2Proof.Machine.execCqpost t rd rs1 imm s
  | .wfpush x rd rs1 rs2 => Sys2Proof.Machine.execWfpush x rd rs1 rs2 s
  | .wfpop t rd rs1 rs2 ecc => Sys2Proof.Machine.execWfpop t rd rs1 rs2 ecc s
  | .mpost t rd rs1 imm => Sys2Proof.Machine.execMpost t rd rs1 imm s
  | .mmatch t rd rs1 imm => Sys2Proof.Machine.execMmatch t rd rs1 imm s
  | .mcancel t rd rs1 imm => Sys2Proof.Machine.execMcancel t rd rs1 imm s
  | .rdft x rd => Sys2Proof.Machine.execRdft x rd s
  | .rdlt x rd => Sys2Proof.Machine.execRdlt x rd s
  | .rdts x rd => Sys2Proof.Machine.execRdts x rd s
  | .waitft x rd rs1 => Sys2Proof.Machine.execWaitft x rd rs1 s
  | .waitftWake t => Sys2Proof.Machine.execWaitftWake t s
  | .trig t rd rs1 imm => Sys2Proof.Machine.execTrig t rd rs1 imm s
  | .triggerFire c h => Sys2Proof.Machine.execTriggerFire c h s
  | .dma t rd rs1 imm => Sys2Proof.Machine.execDma t rd rs1 imm s
  | .dmaDone c slot st data => Sys2Proof.Machine.execDmaDone c slot st data s
  | .tlbinv t rd rs1 imm => Sys2Proof.Machine.execTlbinv t rd rs1 imm s
  | .invalidationAck n c => Sys2Proof.Machine.execInvalidationAck n c s
  | .amlsub t rd rs1 imm => Sys2Proof.Machine.execAmlsub t rd rs1 imm s
  | .opstat x rd rs1 => Sys2Proof.Machine.execOpstat x rd rs1 s
  | .opwait x rd rs1 => Sys2Proof.Machine.execOpwait x rd rs1 s
  | .opabort x rd rs1 => Sys2Proof.Machine.execOpabort x rd rs1 s
  | .pktrel x rs1 => Sys2Proof.Machine.execPktrel x rs1 s
  | .opDone c slot => Sys2Proof.Machine.execOpDone c slot s
  | .opTimeout c slot => Sys2Proof.Machine.execOpTimeout c slot s
  | .packetForm c slot st data => Sys2Proof.Machine.execPacketForm c slot st data s
  | .bankSwap c f => Sys2Proof.Machine.execBankSwap c f s
  | .itemCommit c f bad => Sys2Proof.Machine.execItemCommit c f bad s
  | .wfCfgWrite path c f v => Sys2Proof.Machine.execWfCfgWrite path c f v s
  | .doorbell f off size v bad => Sys2Proof.Machine.execDoorbell f off size v bad s
  | .grant k => Sys2Proof.Machine.execGrant k s
  | .workEntryRead qn st data => Sys2Proof.Machine.execWorkEntryRead qn st data s
  | .cqWrite cn => Sys2Proof.Machine.execCqWrite cn s
  | .cqOwnRead cn => Sys2Proof.Machine.execCqOwnRead cn s
  | .cqOwnReadDone cn st n => Sys2Proof.Machine.execCqOwnReadDone cn st n s
  | .cqPoll cn => Sys2Proof.Machine.execCqPoll cn s
  | .ringStallTimeout cn => Sys2Proof.Machine.execRingStallTimeout cn s
  | .modTimer cn => Sys2Proof.Machine.execModTimer cn s
  | .msixSend f v => Sys2Proof.Machine.execMsixSend f v s
  | .cringDisable pf => Sys2Proof.Machine.execCringDisable pf s
  | .ccqDisable pf => Sys2Proof.Machine.execCcqDisable pf s
  | .cqCreate pf idx => Sys2Proof.Machine.execCqCreate pf idx s
  | .cqModify pf idx => Sys2Proof.Machine.execCqModify pf idx s
  | .cqDestroy pf idx => Sys2Proof.Machine.execCqDestroy pf idx s
  | .cqReset pf idx => Sys2Proof.Machine.execCqReset pf idx s
  | .qCreate pf idx => Sys2Proof.Machine.execQCreate pf idx s
  | .qModify pf idx => Sys2Proof.Machine.execQModify pf idx s
  | .qShutdown pf idx => Sys2Proof.Machine.execQShutdown pf idx s
  | .queueShutdownDone qn => Sys2Proof.Machine.execQueueShutdownDone qn s
  | .qDestroy pf idx => Sys2Proof.Machine.execQDestroy pf idx s
  | .qAbort pf idx => Sys2Proof.Machine.execQAbort pf idx s
  | .adapterReset pf v => Sys2Proof.Machine.execAdapterReset pf v s
  | .epCreate pf idx => Sys2Proof.Machine.execEpCreate pf idx s
  | .epDestroy pf idx => Sys2Proof.Machine.execEpDestroy pf idx s
  | .connCreate pf idx => Sys2Proof.Machine.execConnCreate pf idx s
  | .connDestroy pf idx => Sys2Proof.Machine.execConnDestroy pf idx s
  | .connQuietEnd conn => Sys2Proof.Machine.execConnQuietEnd conn s
  | .askCreate pf idx => Sys2Proof.Machine.execAskCreate pf idx s
  | .askRevoke pf idx => Sys2Proof.Machine.execAskRevoke pf idx s
  | .xltRevokeCtrl path v => Sys2Proof.Machine.execXltRevokeCtrl path v s
  | .revokeDrain => Sys2Proof.Machine.execRevokeDrain s
  | .askQuietEnd ask => Sys2Proof.Machine.execAskQuietEnd ask s
  | .putPacket c ref => Sys2Proof.Machine.execPutPacket c ref s
  | .getReq c ref => Sys2Proof.Machine.execGetReq c ref s
  | .getResp c ref => Sys2Proof.Machine.execGetResp c ref s
  | .amoReq c ref => Sys2Proof.Machine.execAmoReq c ref s
  | .amoResp c ref => Sys2Proof.Machine.execAmoResp c ref s
  | .flushProof c ref => Sys2Proof.Machine.execFlushProof c ref s
  | .rlRetry conn seq => Sys2Proof.Machine.execRlRetry conn seq s
  | .ackDelay conn => Sys2Proof.Machine.execAckDelay conn s
  | .ack conn => Sys2Proof.Machine.execAck conn s
  | .rto conn seq => Sys2Proof.Machine.execRto conn seq s
  | .retryExceeded conn seq => Sys2Proof.Machine.execRetryExceeded conn seq s
  | .refuseBackoff conn seq => Sys2Proof.Machine.execRefuseBackoff conn seq s
  | .put qn idx => Sys2Proof.Machine.execPut qn idx s
  | .putImm qn idx => Sys2Proof.Machine.execPutImm qn idx s
  | .get qn idx => Sys2Proof.Machine.execGet qn idx s
  | .amo qn idx => Sys2Proof.Machine.execAmo qn idx s
  | .send qn idx => Sys2Proof.Machine.execSend qn idx s
  | .flush qn idx => Sys2Proof.Machine.execFlush qn idx s
  | .nop qn idx => Sys2Proof.Machine.execNop qn idx s
  | .recv qn idx => Sys2Proof.Machine.execRecv qn idx s
  | .walk c => Sys2Proof.Machine.execWalk c s
  | .walkDone c n ptes => Sys2Proof.Machine.execWalkDone c n ptes s
  | .xltInvalidate pf idx => Sys2Proof.Machine.execXltInvalidate pf idx s
  | .xltFaultWait pf idx => Sys2Proof.Machine.execXltFaultWait pf idx s
  | .xltFaultDone pf idx => Sys2Proof.Machine.execXltFaultDone pf idx s
  | .xltMmioSet pf idx => Sys2Proof.Machine.execXltMmioSet pf idx s
  | .overflowForward c => Sys2Proof.Machine.execOverflowForward c s
  | .join qn idx st data => Sys2Proof.Machine.execJoin qn idx st data s
  | .run qn idx => Sys2Proof.Machine.execRun qn idx s
  | .leave qn idx => Sys2Proof.Machine.execLeave qn idx s
  | .phaseTimeout coll => Sys2Proof.Machine.execPhaseTimeout coll s
  | .contribution c ref => Sys2Proof.Machine.execContribution c ref s
  | .stripeComplete slot k st data => Sys2Proof.Machine.execStripeComplete slot k st data s
  | .amlCfgWrite path addr v => Sys2Proof.Machine.execAmlCfgWrite path addr v s
  | .route tile => Sys2Proof.Machine.execRoute tile s
  | .routeHoldEnd n => Sys2Proof.Machine.execRouteHoldEnd n s
  | .portDown p => Sys2Proof.Machine.execPortDown p s
  | .rtLoad pf idx st data => Sys2Proof.Machine.execRtLoad pf idx st data s
  | .rtArm pf idx => Sys2Proof.Machine.execRtArm pf idx s
  | .rtCancel pf idx => Sys2Proof.Machine.execRtCancel pf idx s
  | .rtQuery pf idx => Sys2Proof.Machine.execRtQuery pf idx s
  | .eptWrite pf idx => Sys2Proof.Machine.execEptWrite pf idx s
  | .routeEnable path v => Sys2Proof.Machine.execRouteEnable path v s
  | .routeArm path v => Sys2Proof.Machine.execRouteArm path v s
  | .routeCancel path v => Sys2Proof.Machine.execRouteCancel path v s
  | .routeEptInv path v => Sys2Proof.Machine.execRouteEptInv path v s
  | .epochSwitch => Sys2Proof.Machine.execEpochSwitch s
  | .drainEnd => Sys2Proof.Machine.execDrainEnd s
  | .solderArrival p => Sys2Proof.Machine.execSolderArrival p s
  | .release conn => Sys2Proof.Machine.execRelease conn s
  | .sweep => Sys2Proof.Machine.execSweep s
  | .readback conn seq => Sys2Proof.Machine.execReadback conn seq s
  | .readbackDone conn seq => Sys2Proof.Machine.execReadbackDone conn seq s
  | .ts1 p l f => Sys2Proof.Machine.execTs1 p l f s
  | .ts2 p l f => Sys2Proof.Machine.execTs2 p l f s
  | .configComplete p => Sys2Proof.Machine.execConfigComplete p s
  | .ts3 p f => Sys2Proof.Machine.execTs3 p f s
  | .slotLock p => Sys2Proof.Machine.execSlotLock p s
  | .lockLost p => Sys2Proof.Machine.execLockLost p s
  | .lockTimeout p => Sys2Proof.Machine.execLockTimeout p s
  | .slotReceived p cws => Sys2Proof.Machine.execSlotReceived p cws s
  | .replayTimeout p => Sys2Proof.Machine.execReplayTimeout p s
  | .slotSend p => Sys2Proof.Machine.execSlotSend p s
  | .fault p reason => Sys2Proof.Machine.execFault p reason s
  | .sleep p => Sys2Proof.Machine.execSleep p s
  | .signalDetect p l => Sys2Proof.Machine.execSignalDetect p l s
  | .retryWait p => Sys2Proof.Machine.execRetryWait p s
  | .trainTimeout p => Sys2Proof.Machine.execTrainTimeout p s
  | .linkEnable path p v => Sys2Proof.Machine.execLinkEnable path p v s
  | .linkDisable path p v => Sys2Proof.Machine.execLinkDisable path p v s
  | .retrain path p v => Sys2Proof.Machine.execRetrain path p v s
  | .linkWake p => Sys2Proof.Machine.execLinkWake p s
  | .gateEdge p => Sys2Proof.Machine.execGateEdge p s
  | .gateArm path p v => Sys2Proof.Machine.execGateArm path p v s
  | .gateCancel path p v => Sys2Proof.Machine.execGateCancel path p v s
  | .gateTakeover p => Sys2Proof.Machine.execGateTakeover p s
  | .limiterRefill => Sys2Proof.Machine.execLimiterRefill s
  | .wheelSlot tile => Sys2Proof.Machine.execWheelSlot tile s
  | .limiterCfgWrite path tile k v => Sys2Proof.Machine.execLimiterCfgWrite path tile k v s
  | .schLimInv path v => Sys2Proof.Machine.execSchLimInv path v s
  | .depthSample => Sys2Proof.Machine.execDepthSample s
  | .serEvaluation p l => Sys2Proof.Machine.execSerEvaluation p l s
  | .laneRetest path p l => Sys2Proof.Machine.execLaneRetest path p l s
  | .eyeScan path p l v => Sys2Proof.Machine.execEyeScan path p l v s
  | .eyeScanDone p l n => Sys2Proof.Machine.execEyeScanDone p l n s
  | .perst k level => Sys2Proof.Machine.execPerst k level s
  | .hostLinkDown a => Sys2Proof.Machine.execHostLinkDown a s
  | .functionLevelReset f => Sys2Proof.Machine.execFunctionLevelReset f s
  | .functionStateChange f d cfg => Sys2Proof.Machine.execFunctionStateChange f d cfg s
  | .vfAllocWrite path pf v => Sys2Proof.Machine.execVfAllocWrite path pf v s
  | .readCompletion tag st data => Sys2Proof.Machine.execReadCompletion tag st data s
  | .completionTimeout tag => Sys2Proof.Machine.execCompletionTimeout tag s
  | .l1Entry a => Sys2Proof.Machine.execL1Entry a s
  | .l1Exit a => Sys2Proof.Machine.execL1Exit a s
  | .errorReport src code i0 i1 => Sys2Proof.Machine.execErrorReport src code i0 i1 s
  | .fatalRecordWrite => Sys2Proof.Machine.execFatalRecordWrite s
  | .txoff => Sys2Proof.Machine.execTxoff s
  | .faultEvent => Sys2Proof.Machine.execFaultEvent s
  | .mergeWindowEnd n => Sys2Proof.Machine.execMergeWindowEnd n s
  | .tgfHistAck path v => Sys2Proof.Machine.execTgfHistAck path v s
  | .unfreeze path => Sys2Proof.Machine.execUnfreeze path s
  | .inject path v => Sys2Proof.Machine.execInject path v s
  | .injectLock path => Sys2Proof.Machine.execInjectLock path s
  | .hbmPageRetired page => Sys2Proof.Machine.execHbmPageRetired page s
  | .retest path v => Sys2Proof.Machine.execRetest path v s
  | .retestDone pass => Sys2Proof.Machine.execRetestDone pass s
  | .pmuFreeze path v => Sys2Proof.Machine.execPmuFreeze path v s
  | .histClear path u => Sys2Proof.Machine.execHistClear path u s
  | .dumpLatch => Sys2Proof.Machine.execDumpLatch s
  | .dumpWrite => Sys2Proof.Machine.execDumpWrite s
  | .sampleMark g => Sys2Proof.Machine.execSampleMark g s
  | .sampleRecord g lat flags ecause => Sys2Proof.Machine.execSampleRecord g lat flags ecause s
  | .lifeCommit => Sys2Proof.Machine.execLifeCommit s
  | .commit path => Sys2Proof.Machine.execCommit path s
  | .lifeSnapshot => Sys2Proof.Machine.execLifeSnapshot s
  | .lifeSample hot mv => Sys2Proof.Machine.execLifeSample hot mv s
  | .marginScan margins => Sys2Proof.Machine.execMarginScan margins s
  | .pwrEnter pf idx => Sys2Proof.Machine.execPwrEnter pf idx s
  | .pwrQuery pf idx => Sys2Proof.Machine.execPwrQuery pf idx s
  | .fabricJoin pf idx => Sys2Proof.Machine.execFabricJoin pf idx s
  | .fabricReady => Sys2Proof.Machine.execFabricReady s
  | .fabricJoinTimeout => Sys2Proof.Machine.execFabricJoinTimeout s
  | .wake src fails => Sys2Proof.Machine.execWake src fails s
  | .pwrWake path fails => Sys2Proof.Machine.execPwrWake path fails s
  | .thermSample temps => Sys2Proof.Machine.execThermSample temps s
  | .thermalTrip sensor => Sys2Proof.Machine.execThermalTrip sensor s
  | .avsTimeout => Sys2Proof.Machine.execAvsTimeout s
  | .avsSet mv => Sys2Proof.Machine.execAvsSet mv s
  | .supplyFault src => Sys2Proof.Machine.execSupplyFault src s
  | .pllUnlock pll => Sys2Proof.Machine.execPllUnlock pll s
  | .setAddr addr pec => Sys2Proof.Machine.execSetAddr addr pec s
  | .read => Sys2Proof.Machine.execRead s
  | .write v pec => Sys2Proof.Machine.execWrite v pec s
  | .readAddr => Sys2Proof.Machine.execReadAddr s
  | .configTimeout p => Sys2Proof.Machine.execConfigTimeout p s
  | .hostLinkUp a width rate => Sys2Proof.Machine.execHostLinkUp a width rate s
  | .exitToL0Complete a => Sys2Proof.Machine.execExitToL0Complete a s
  | .histDepthSample u => Sys2Proof.Machine.execHistDepthSample u s
  | .wakePatternEnd p => Sys2Proof.Machine.execWakePatternEnd p s
  | .avsbusAck => Sys2Proof.Machine.execAvsbusAck s
  | .powerDown => Sys2Proof.Machine.execPowerDown s
  | .atomicopCompletion tag st data => Sys2Proof.Machine.execAtomicopCompletion tag st data s

end Sys2Proof.Machine
end

