-- ==== Sys2Proof/Safety.lean ====
section
/-! DEFINITION. Safety.lean: the terms in which statements are made: when a command on a ring, an engine's instruction or a packet is
carried out, what a completion is, and the canonical form of memory. -/
namespace Sys2Proof.Machine

/-! ## Commands of a control ring (R156, R175) -/

/-- The entry e at a ring index of a PF's control ring has the opcode, is the next to start, and may be carried out: the device runs,
nothing halts it, and its completion can be committed. It is the outstanding entry of its serial. -/
def State.controls (s : State) (pf idx op : Nat) (e : OutEntry) : Prop :=
  s.adapterHalted = false ∧ (s.queue (ctrlQn pf)).startable idx = some e ∧ weOp e.bytes = op ∧ s.isRunning = true ∧
  s.dev.power < 2 ∧ s.cqRoom (s.queue (ctrlQn pf)).cn = true ∧ (s.queue (ctrlQn pf)).entry e.serial = some e

/-- A completion of the work entry at a bus address, with a status, is committed to a ring and not yet written. -/
def State.posted (s : State) (cn qn addr status : Nat) : Prop :=
  ∃ c ∈ (s.cq cn).direct ++ (s.cq cn).held, c.work = some (qn, addr) ∧ leAt c.raw 14 1 = status

/-- The entry e of a queue has ended with a status: it is outstanding no more, and its completion stands in the ring that the queue
of the state before is bound to (R119, R160). -/
def State.ended (before after : State) (qn : Nat) (e : OutEntry) (status : Nat) : Prop :=
  (after.queue qn).entry e.serial = none ∧
  after.posted (before.queue qn).cn qn ((before.queue qn).entryAddr e.idx) status

/-! ## Instructions of the engines (R61, R81, R82) -/

/-- The state after the fetch of thread t's instruction of `len` bytes: what TLBs and caches remember of it (R62, R68). -/
def State.fetched (s : State) (t len : Nat) : State :=
  let s1 := (s.fetchAt t (s.thread t).pc).2
  (if len = 8 then (s1.fetchAt t ((s.thread t).pc + 4)).2 else s1).setWait t .ready

/-- An instruction of thread t, of `len` bytes, issues: nothing stops the thread, no watchdog is due, no other instruction waits to
issue again in it (R61), its words are translated and cached, the thread has the level, and the registers that it reads have good
parity. -/
def State.issues (s : State) (t len level : Nat) (srcs : List Nat) : Prop :=
  s.inSafe = false ∧ s.dev.power < 2 ∧ s.ready t = true ∧ (s.thread t).pendWd = false ∧ (s.thread t).wait.isAgain = false ∧
  (s.fetchAt t (s.thread t).pc).1 = true ∧
  (len = 8 → ((s.fetchAt t (s.thread t).pc).2.fetchAt t ((s.thread t).pc + 4)).1 = true) ∧
  level ≤ (s.thread t).priv ∧ ∀ i ∈ srcs, NSet.mem (s.thread t).badRegs i = false

/-- A thread after an instruction of `len` bytes that wrote a register: a write of g0 is discarded (R63), a written register's parity is good, and
the program counter has moved on. -/
def Thread.wrote (th : Thread) (rd : Nat) (v : Word) (len : Nat) : Thread :=
  { th with
    g := if rd = 0 then th.g else th.g.set 0 rd v
    badRegs := if rd = 0 then th.badRegs else NSet.del th.badRegs rd
    pc := th.pc + w64 len
    wait := .ready }

/-- The memory key of an access of n bytes to the local or the shared memory (R64 to R66); none where it goes elsewhere or is
refused. -/
def State.nearKey (s : State) (t a n : Nat) (u : Use) : Option Nat :=
  match s.nearPlace t a n u with
  | .ldm o => some (ldmKey (tEngine t) o)
  | .csm o => some (csmKey (tCluster t) o)
  | _ => none

/-- What a read of n bytes of the local or the shared memory gives: the bytes there, or what the library shows in their place
(R200, R239; log entry 151). -/
def State.nearValue (s : State) (t a n : Nat) (u : Use) : Nat :=
  match s.nearPlace t a n u with
  | .ldm o => s.mnat (ldmKey (tEngine t) o) n
  | .csm o => s.csmNat (tCluster t) o n
  | _ => 0

/-- Thread t has taken an exception (R81): the state is saved, and it stands at the handler of the vector, at the higher of its own level
and the handler's. -/
def State.tookExc (before after : State) (t code : Nat) (eval epc : Word) : Prop :=
  after.thread t = { before.thread t with
    epc := epc, ecause := code, eval := eval, exask := (before.thread t).xask, prev := (before.thread t).priv, excActive := true
    pc := (before.handler (tCluster t) (0xF0 + code)).pc, xask := (before.handler (tCluster t) (0xF0 + code)).psk
    priv := max (before.handler (tCluster t) (0xF0 + code)).priv (before.thread t).priv
    wait := .ready, pendWd := false, xfault := none }

/-- What every read of the near memories and HBM gives after n bytes of a value are stored from a key: those bytes, and elsewhere what
it gave before. -/
def State.storedOnly (before after : State) (key n : Nat) (v : Word) : Prop :=
  ∀ k, after.mem.read k =
    if key ≤ k ∧ k < key + n then BitVec.ofNat 8 (v.toNat / 256 ^ (k - key)) else before.mem.read k

/-- A command-block instruction of thread t, whose register rs1 names its block in the local memory, is accepted (R98 to R103): it issues,
the block b can be read, fewer than 64 operations of the thread are open, none of them is a fence, and k is the cluster's free slot. -/
def State.accepts (s : State) (t rs1 level : Nat) (b : List Byte) (k : Nat) : Prop :=
  s.issues t 4 level [rs1 % 32] ∧ (s.reg t (rs1 % 32)).toNat % 64 = 0 ∧ s.ldmOk t (s.reg t (rs1 % 32)).toNat 64 = true ∧
  s.bad (ldmAddrKey t (s.reg t (rs1 % 32)).toNat) 64 = false ∧ b = s.mread (ldmAddrKey t (s.reg t (rs1 % 32)).toNat) 64 ∧
  (s.threadOps t (s.thread t).run).length < 64 ∧ s.freeSlot (tCluster t) = some k ∧
  ∀ e ∈ s.ops, e.2.isOpen = true → e.2.kind = 6 → e.2.origin ≠ .thread t (s.thread t).run

/-- The block keeps the rules of its kind (R104). -/
def State.validBlock (s : State) (kind fl : Nat) (b : List Byte) : Prop :=
  blkKind b = kind ∧ headerOk b = true ∧ s.blockOk kind fl b = true

/-- The thread has gone past an instruction that gave it the handle of slot k. -/
def State.gotHandle (before after : State) (t rd k : Nat) : Prop :=
  after.thread t = (before.thread t).wrote (rd % 32) (w64 (handleOf k (nextGen (before.op k).gen))) 4

/-- The work entry e at a ring index of a queue has the opcode, is the next to start, and its completion can be committed (R156). -/
def State.starts (s : State) (qn idx op : Nat) (e : OutEntry) : Prop :=
  s.adapterHalted = false ∧ (s.queue qn).startable idx = some e ∧ weOp e.bytes = op ∧ s.cqRoom (s.queue qn).cn = true ∧
  (s.queue qn).entry e.serial = some e

/-- Cluster c holds the packet x by a reference, which Solder has released to it and nothing has doomed, and the packet's half takes it:
it is established, and has the packet's isolation domain (Table 8-9, steps 2 and 3). -/
def State.holds (s : State) (c ref : Nat) (x : PktRef) : Prop :=
  s.pktRef c ref = some x ∧ s.inSafe = false ∧ x.doom = none ∧ (s.half x.conn).state = .established ∧
  x.pkt.iso = (s.half x.conn).iso

/-- A RECV entry at a ring index of a queue is next to start, and its match server, where it is one's, has come to its item (R267): the
state is then s1. -/
def State.meetsServer (s : State) (qn idx : Nat) (e : OutEntry) (s1 : State) : Prop :=
  s.adapterHalted = false ∧ (s.queue qn).startable idx = some e ∧ weOp e.bytes = 0x20 ∧ (s.queue qn).entry e.serial = some e ∧
  (s.queue qn).outstanding.find? (fun e => e.idx == idx && e.started && weOp e.bytes == 0x20) = none ∧
  (if (s.queue qn).fifo = 3 then s.serve (s.queue qn).cluster (.work qn idx) else (true, s)) = (true, s1)

/-- A receive queue is served by the match server that is the home of a context (R262, R267). -/
def State.atHome (s : State) (qn ctx : Nat) : Prop :=
  (s.queue qn).fifo = 3 ∧ s.homeOf ctx = (s.queue qn).cluster ∧ (s.queue qn).handlerServed = false

/-- What every read of the memories gives after some bytes are written from a key: those bytes, and elsewhere what it gave before. -/
def State.placedOnly (before after : State) (key : Nat) (bs : List Byte) : Prop :=
  after.mem.readN key bs.length = bs ∧ ∀ k, (k < key ∨ key + bs.length ≤ k) → after.mem.read k = before.mem.read k

/-- Tungsten collects: it is armed, no record of its history is open, nothing has frozen it, and the device is not in the safe state. -/
def State.collects (s : State) : Prop :=
  s.tgf.armed = true ∧ s.tgf.hist = [] ∧ s.tgf.frozen = none ∧ s.tgf.safe = none

/-! ## Frames -/

/-- The parts of the state, for statements of what a command leaves as it was. `ram` is HBM and the memories of clusters and engines,
apart from the life store. -/
inductive Part
  | regs | ram | inv | tgf | fifos | threads | engines | clusters | ops | orders | rings | net | mtch | aml | host | dev | eptCache
  | ports | lanes | lims | limCache | limRefill | route | halfLatch | recLatch | sbAddr | variant | out | pending
deriving DecidableEq, Repr

/-- Is the part the same in both states? -/
def State.same (s t : State) : Part → Prop
  | .regs => t.regs = s.regs
  | .ram => ∀ a, a < pewterKey 0 → t.mem.read a = s.mem.read a
  | .inv => t.inv = s.inv
  | .tgf => t.tgf = s.tgf
  | .fifos => t.fifos = s.fifos
  | .threads => t.threads = s.threads
  | .engines => t.engines = s.engines
  | .clusters => t.clusters = s.clusters
  | .ops => t.ops = s.ops
  | .orders => t.orders = s.orders
  | .rings => t.rings = s.rings
  | .net => t.net = s.net
  | .mtch => t.mtch = s.mtch
  | .aml => t.aml = s.aml
  | .host => t.host = s.host
  | .dev => t.dev = s.dev
  | .eptCache => t.eptCache = s.eptCache
  | .ports => t.ports = s.ports
  | .lanes => t.lanes = s.lanes
  | .lims => t.lims = s.lims
  | .limCache => t.limCache = s.limCache
  | .limRefill => t.limRefill = s.limRefill
  | .route => t.route = s.route
  | .halfLatch => t.halfLatch = s.halfLatch
  | .recLatch => t.recLatch = s.recLatch
  | .sbAddr => t.sbAddr = s.sbAddr
  | .variant => t.variant = s.variant
  | .out => t.out = s.out
  | .pending => t.pending = s.pending

/-- Every part. -/
def allParts : List Part :=
  [.regs, .ram, .inv, .tgf, .fifos, .threads, .engines, .clusters, .ops, .orders, .rings, .net, .mtch, .aml, .host, .dev,
   .eptCache, .ports, .lanes, .lims, .limCache, .limRefill, .route, .halfLatch, .recLatch, .sbAddr, .variant, .out, .pending]

/-- Every part listed is the same in both states. -/
def State.keeps (s t : State) (ps : List Part) : Prop := ∀ p ∈ ps, s.same t p

/-! ## Invariants -/

/-- The address that the sideband has set is a multiple of 4 within control space (R531). -/
def State.sidebandOk (s : State) : Prop := s.sbAddr % 4 = 0 ∧ s.sbAddr < 2 ^ 32

end Sys2Proof.Machine

namespace Sys2Proof
open Sys2Proof.Machine

/-- The parts of the state that a command may change; every other part is as it was after it (statement CommandFrames). A command that
reports a fault may change the history, the registers, and what the class of the fault reaches. -/
def Instr.mayChange : Instr → List Part
  | .powerOn | .resetN .. | .boot .. | .bootFail .. | .warmRestart .. | .warm .. | .registerWrite .. | .store .. | .write .. |
    .powerDown =>
    allParts
  | .svnCommit .. | .sampleMark .. | .lifeSample .. | .marginScan .. | .avsbusAck => [.dev]
  | .halfRead .. | .recordRead .. | .rcRead .. =>
    [.regs, .inv, .tgf, .fifos, .engines, .clusters, .rings, .dev, .eptCache, .ports, .lanes, .limCache, .halfLatch, .recLatch,
    .out]
  | .invEnable .. | .ftStep | .ppsEdge .. => [.regs, .inv]
  | .invDisable .. => [.regs, .inv, .tgf, .fifos, .threads, .clusters, .ops, .aml, .route, .out]
  | .reacquire .. => [.regs, .inv, .tgf, .fifos, .threads, .clusters, .ops, .aml, .out]
  | .sync .. | .announce => [.regs, .inv, .ports, .out]
  | .syncReceived .. => [.regs, .ports, .out]
  | .syncReplyReceived .. | .acquireComplete | .parentLost | .holdoverClear | .timeHoldoverLong | .ppsLoss | .ref10mLoss =>
    [.regs, .inv, .tgf, .fifos, .out]
  | .exchangeLost .. => [.inv]
  | .announceReceived .. | .rootStale | .standbyWaitExpiry | .listenExpiry => [.regs, .inv, .tgf, .fifos, .ports, .out]
  | .ppsOutPulse | .ppsOutEnd => [.inv, .out]
  | .dispatch .. => [.regs, .ram, .tgf, .fifos, .threads, .clusters, .out]
  | .aluReg .. | .mulDiv .. | .aluImm .. | .branch .. | .jal .. | .jalr .. | .fence .. | .fenceSt .. | .fenceI .. | .csrr .. |
    .csrw .. | .csrs .. | .csrc .. | .done .. | .sys .. | .eret .. | .brk .. | .pause .. | .wfpush .. | .rdft .. | .rdlt .. |
    .rdts .. | .waitft .. | .opstat .. | .opwait .. =>
    [.regs, .tgf, .fifos, .threads, .engines, .clusters, .dev, .out]
  | .load .. => [.regs, .tgf, .fifos, .threads, .engines, .clusters, .host, .dev, .halfLatch, .recLatch, .out]
  | .farLoadReturn .. | .icacheFill .. | .watchdog .. => [.regs, .tgf, .fifos, .threads, .engines, .clusters, .out]
  | .farStorePerform .. => [.regs, .ram, .threads, .engines, .out]
  | .atomic .. | .wfpop .. => [.regs, .ram, .tgf, .fifos, .threads, .engines, .clusters, .dev, .out]
  | .watchdogKill .. => [.regs, .tgf, .fifos, .threads, .clusters, .out]
  | .handlerLost .. => [.fifos, .clusters]
  | .engineRetired .. => [.regs, .ram, .tgf, .fifos, .engines, .dev, .out]
  | .engineStop .. => [.regs, .tgf, .fifos, .engines, .out]
  | .htCommit .. => [.regs, .ram]
  | .icacheInv .. => [.regs, .engines]
  | .fput .. | .fget .. | .famo .. | .fsend .. | .fflush .. | .ffence .. | .fmcast .. | .qfetch .. | .cqpost .. | .mpost .. |
    .mmatch .. | .mcancel .. | .trig .. | .dma .. | .tlbinv .. | .amlsub .. | .run .. =>
    [.regs, .ram, .tgf, .fifos, .threads, .engines, .clusters, .ops, .orders, .rings, .net, .mtch, .aml, .host, .dev, .eptCache,
    .limCache, .route, .out]
  | .waitftWake .. => [.threads]
  | .triggerFire .. =>
    [.regs, .tgf, .fifos, .threads, .clusters, .ops, .rings, .net, .mtch, .aml, .host, .eptCache, .limCache, .route, .out]
  | .dmaDone .. | .putPacket .. | .getResp .. | .amoResp .. =>
    [.regs, .ram, .tgf, .fifos, .threads, .engines, .clusters, .ops, .rings, .net, .mtch, .aml, .host, .dev, .route, .out]
  | .invalidationAck .. => [.regs, .tgf, .fifos, .threads, .engines, .clusters, .ops, .rings, .net, .aml, .host, .out]
  | .opabort .. =>
    [.regs, .ram, .tgf, .fifos, .threads, .engines, .clusters, .ops, .rings, .net, .mtch, .aml, .host, .dev, .eptCache, .limCache,
    .route, .out]
  | .pktrel .. =>
    [.regs, .tgf, .fifos, .threads, .engines, .clusters, .ops, .rings, .net, .mtch, .aml, .host, .dev, .route, .out]
  | .opDone .. =>
    [.regs, .ram, .tgf, .fifos, .threads, .clusters, .ops, .rings, .net, .mtch, .aml, .host, .eptCache, .limCache, .route, .out]
  | .opTimeout .. => [.threads, .ops, .aml]
  | .packetForm .. =>
    [.regs, .tgf, .fifos, .threads, .engines, .clusters, .ops, .rings, .net, .mtch, .aml, .host, .dev, .eptCache, .lims, .limCache,
    .route, .out]
  | .bankSwap .. | .wfCfgWrite .. | .cringDisable .. => [.regs, .fifos, .rings]
  | .itemCommit .. | .workEntryRead .. | .ringStallTimeout .. | .qShutdown .. | .qAbort .. | .retryExceeded .. =>
    [.regs, .tgf, .fifos, .threads, .clusters, .ops, .rings, .net, .mtch, .aml, .host, .out]
  | .doorbell .. | .wake .. | .pwrWake .. =>
    [.regs, .inv, .tgf, .fifos, .engines, .clusters, .rings, .dev, .eptCache, .ports, .lanes, .limCache, .out]
  | .grant .. => [.regs, .fifos, .rings, .host, .out]
  | .cqWrite .. =>
    [.regs, .inv, .tgf, .fifos, .threads, .engines, .clusters, .ops, .rings, .net, .mtch, .aml, .host, .dev, .eptCache, .ports,
    .lanes, .limCache, .route, .out]
  | .cqOwnRead .. | .cqPoll .. | .modTimer .. => [.regs, .rings, .host, .out]
  | .cqOwnReadDone .. => [.regs, .tgf, .fifos, .rings, .out]
  | .msixSend .. =>
    [.regs, .inv, .tgf, .fifos, .threads, .engines, .clusters, .ops, .rings, .aml, .host, .dev, .eptCache, .ports, .lanes,
    .limCache, .route, .out]
  | .ccqDisable .. => [.regs, .rings]
  | .cqCreate .. | .cqModify .. | .cqDestroy .. | .cqReset .. | .qCreate .. | .qModify .. | .queueShutdownDone .. | .qDestroy .. |
    .epCreate .. | .epDestroy .. | .connCreate .. | .connDestroy .. | .xltInvalidate .. | .xltFaultWait .. | .xltFaultDone .. |
    .xltMmioSet .. | .leave .. | .phaseTimeout .. | .rtLoad .. | .rtQuery .. | .pwrQuery .. =>
    [.regs, .tgf, .fifos, .threads, .clusters, .ops, .rings, .net, .aml, .host, .out]
  | .adapterReset .. => [.regs, .ram, .tgf, .fifos, .threads, .clusters, .ops, .rings, .net, .mtch, .aml, .host, .out]
  | .connQuietEnd .. | .readback .. => [.net]
  | .askCreate .. | .askRevoke .. | .revokeDrain =>
    [.regs, .ram, .tgf, .fifos, .threads, .clusters, .ops, .rings, .net, .aml, .host, .out]
  | .xltRevokeCtrl .. | .sweep | .readbackDone .. => [.regs, .net]
  | .askQuietEnd .. => [.ram, .net]
  | .getReq .. | .readCompletion .. | .completionTimeout .. | .atomicopCompletion .. =>
    [.regs, .tgf, .fifos, .threads, .clusters, .ops, .orders, .rings, .net, .mtch, .aml, .host, .eptCache, .limCache, .route, .out]
  | .amoReq .. =>
    [.regs, .ram, .tgf, .fifos, .threads, .engines, .clusters, .ops, .orders, .rings, .net, .mtch, .aml, .host, .eptCache,
    .limCache, .route, .out]
  | .flushProof .. | .contribution .. =>
    [.regs, .tgf, .fifos, .threads, .clusters, .ops, .rings, .net, .mtch, .aml, .host, .route, .out]
  | .rlRetry .. | .refuseBackoff .. => [.ops, .orders, .limCache]
  | .ackDelay .. => [.regs, .net, .route]
  | .ack .. | .recv .. =>
    [.regs, .tgf, .fifos, .threads, .engines, .clusters, .ops, .orders, .rings, .net, .mtch, .aml, .host, .dev, .eptCache,
    .limCache, .route, .out]
  | .rto .. => [.ops, .orders, .net, .limCache]
  | .put .. | .putImm .. | .get .. | .amo .. | .send .. | .flush .. | .nop .. =>
    [.regs, .tgf, .fifos, .threads, .clusters, .ops, .orders, .rings, .net, .aml, .host, .eptCache, .limCache, .out]
  | .walk .. => [.regs, .clusters]
  | .walkDone .. => [.regs, .ram, .tgf, .fifos, .threads, .engines, .clusters, .ops, .net, .out]
  | .overflowForward .. => [.regs, .fifos, .rings, .mtch]
  | .join .. =>
    [.regs, .tgf, .fifos, .threads, .engines, .clusters, .ops, .orders, .rings, .net, .aml, .host, .eptCache, .out]
  | .stripeComplete .. =>
    [.regs, .ram, .tgf, .fifos, .threads, .engines, .clusters, .ops, .rings, .net, .mtch, .aml, .host, .dev, .out]
  | .amlCfgWrite .. => [.regs, .aml]
  | .route .. | .routeHoldEnd .. => [.regs, .threads, .ops, .aml, .ports, .route]
  | .portDown .. => [.regs, .ports, .route]
  | .rtArm .. | .rtCancel .. => [.regs, .tgf, .fifos, .threads, .clusters, .ops, .rings, .net, .aml, .host, .route, .out]
  | .eptWrite .. => [.regs, .ram, .tgf, .fifos, .threads, .clusters, .ops, .rings, .net, .aml, .host, .eptCache, .out]
  | .routeEnable .. | .routeArm .. | .routeCancel .. | .epochSwitch => [.regs, .route]
  | .routeEptInv .. => [.eptCache]
  | .drainEnd => [.route]
  | .solderArrival .. => [.regs, .ram, .fifos, .clusters, .net, .ports, .route]
  | .release .. => [.regs, .fifos, .clusters, .net, .route]
  | .ts1 .. | .ts2 .. => [.regs, .tgf, .fifos, .ports, .lanes, .out]
  | .configComplete .. => [.ports, .lanes, .out]
  | .ts3 .. | .gateArm .. | .gateCancel .. | .gateTakeover .. => [.regs, .ports]
  | .slotLock .. | .gateEdge .. => [.ports]
  | .lockLost .. | .replayTimeout .. | .fault .. | .sleep .. =>
    [.regs, .tgf, .fifos, .threads, .ops, .aml, .ports, .lanes, .route, .out]
  | .lockTimeout .. | .signalDetect .. | .retryWait .. | .wakePatternEnd .. => [.regs, .ports, .lanes, .out]
  | .slotReceived .. => [.regs, .tgf, .fifos, .threads, .ops, .aml, .dev, .ports, .lanes, .route, .out]
  | .slotSend .. => [.regs, .threads, .ops, .aml, .ports, .out]
  | .trainTimeout .. | .serEvaluation .. =>
    [.regs, .ram, .inv, .tgf, .fifos, .threads, .ops, .aml, .dev, .ports, .lanes, .route, .out]
  | .linkEnable .. | .linkDisable .. | .retrain .. =>
    [.regs, .inv, .tgf, .fifos, .threads, .ops, .aml, .ports, .lanes, .route, .out]
  | .linkWake .. => [.ports, .out]
  | .limiterRefill => [.ports, .lims, .limRefill]
  | .wheelSlot .. => [.lims]
  | .limiterCfgWrite .. => [.regs, .lims]
  | .schLimInv .. => [.limCache]
  | .depthSample | .injectLock .. | .pmuFreeze .. | .histClear .. | .histDepthSample .. => [.regs]
  | .laneRetest .. => [.ram, .dev, .ports, .lanes]
  | .eyeScan .. | .eyeScanDone .. => [.regs, .lanes]
  | .perst .. =>
    [.regs, .ram, .inv, .tgf, .fifos, .threads, .engines, .clusters, .ops, .orders, .rings, .net, .mtch, .aml, .host, .dev,
    .eptCache, .ports, .lanes, .limCache, .route, .out]
  | .hostLinkDown .. =>
    [.regs, .ram, .tgf, .fifos, .threads, .clusters, .ops, .orders, .rings, .net, .mtch, .aml, .host, .eptCache, .limCache, .route,
    .out]
  | .functionLevelReset .. => [.regs, .ram, .threads, .clusters, .ops, .rings, .net, .mtch, .aml, .host, .out]
  | .functionStateChange .. | .exitToL0Complete .. =>
    [.regs, .inv, .tgf, .fifos, .threads, .engines, .clusters, .ops, .rings, .net, .aml, .host, .dev, .eptCache, .ports, .lanes,
    .limCache, .out]
  | .vfAllocWrite .. | .l1Exit .. => [.regs, .host]
  | .l1Entry .. => [.host]
  | .errorReport .. => [.regs, .tgf, .fifos, .threads, .engines, .dev, .out]
  | .fatalRecordWrite => [.ram, .tgf, .dev]
  | .txoff | .mergeWindowEnd .. | .tgfHistAck .. | .unfreeze .. => [.tgf]
  | .faultEvent => [.tgf, .fifos]
  | .inject .. | .thermalTrip .. | .supplyFault .. | .pllUnlock .. => [.regs, .tgf, .fifos, .out]
  | .hbmPageRetired .. => [.regs, .ram, .tgf, .fifos, .dev, .out]
  | .retest .. => [.regs, .tgf]
  | .retestDone .. => [.regs, .ram, .tgf, .engines, .dev, .ports, .lanes]
  | .dumpLatch => [.regs, .dev]
  | .dumpWrite | .sampleRecord .. => [.regs, .ram, .host, .dev, .out]
  | .lifeCommit | .commit .. => [.regs, .ram, .dev]
  | .lifeSnapshot => [.ram, .dev]
  | .pwrEnter .. =>
    [.regs, .inv, .tgf, .fifos, .threads, .engines, .clusters, .ops, .rings, .net, .aml, .host, .dev, .eptCache, .ports, .lanes,
    .limCache, .route, .out]
  | .fabricJoin .. =>
    [.regs, .inv, .tgf, .fifos, .threads, .clusters, .ops, .rings, .net, .aml, .host, .dev, .ports, .lanes, .route, .out]
  | .fabricReady => [.regs, .tgf, .fifos, .threads, .clusters, .ops, .rings, .net, .aml, .host, .dev, .route, .out]
  | .fabricJoinTimeout => [.regs, .tgf, .fifos, .threads, .clusters, .ops, .rings, .net, .aml, .host, .dev, .out]
  | .thermSample .. => [.regs, .inv, .tgf, .fifos, .dev, .out]
  | .avsTimeout => [.regs, .tgf, .fifos, .dev, .out]
  | .avsSet .. => [.regs, .dev, .out]
  | .setAddr .. => [.sbAddr]
  | .read => [.regs, .halfLatch, .recLatch, .sbAddr, .out]
  | .readAddr => [.out]
  | .configTimeout .. => [.regs, .ports, .lanes]
  | .hostLinkUp .. => [.regs, .tgf, .fifos, .host, .out]

end Sys2Proof
end

