-- ==== Sys2Proof/Certificates/Slice0/Obligations.lean ====
section
/-! DEFINITION. Certificates/Slice0/Obligations.lean: the statements. Each docstring names the rules of spec/ that its statement rests on;
what is the choice of this model names its entry of the assumption log. -/

open Sys2Proof Sys2Proof.Machine

/-! ## The whole machine -/

/-- A step carries out the command at the front of the queue, and an empty queue is one tick of the clocks. For every command c and
state with c at the front of its queue, step is exec of c on the state with the rest of the queue. On an empty queue step
answers the state with FT and INV_LOCAL one tick later, or the state itself when the device is off or in Deep Retention. The
idle tick is the choice of this model (log entry 2). (02_fabric_time.md (R27, R30); 95_what_each_step_holds.md.) -/
def Obligations.StepRunsFront : Prop :=
  (∀ (c : Instr) (rest : List Instr) (s : State), s.pending = c :: rest → step s = exec c { s with pending := rest }) ∧
  (∀ s : State, s.pending = [] → ∃ t, step s = .next t ∧
    (if s.dev.off || s.dev.power == 3 then t = s
     else t = { s with inv := { s.inv with ft := s.inv.ft + 1, loc := s.inv.loc + 1 } }))

/-- Every command answers a next state and leaves the queue as it was. For every command and state, exec answers a next state (it
faults and refuses nowhere), and exec leaves the queue of waiting commands as it was. That a command whose trigger does not hold
is without effect is the choice of this model (log entry 1). (00_scope.md (R8, R11); 95_what_each_step_holds.md.) -/
def Obligations.EveryCommandAnswers : Prop :=
  (∀ (c : Instr) (s : State), ∃ t, exec c s = .next t) ∧
  (∀ (c : Instr) (s t : State), exec c s = .next t → t.pending = s.pending)

/-- Each command leaves every part of the state outside its own list as it was. For every command, when exec answers a next state,
each part of the state that Instr.mayChange does not list for the command is the same afterwards. A part is one field of State;
the part ram is every byte of HBM and of the memories of the clusters and engines, so a command without ram in its list changes
no byte of them. (95_what_each_step_holds.md; 03_mirq_engines.md (R81); 23_control_space.md (R528, R530).) -/
def Obligations.CommandFrames : Prop :=
  ∀ (c : Instr) (s u : State) (p : Part), exec c s = .next u → p ∉ c.mayChange → s.same u p

/-- Every step keeps the sideband address a multiple of 4 within control space. For every state whose sideband address is a multiple
of 4 below 2^32, the state after a step has such an address. (23_control_space.md (R531).) -/
def Obligations.SidebandAddressKept : Prop :=
  ∀ s t : State, s.sidebandOk → step s = .next t → t.sidebandOk

/-- Every step keeps memory in its canonical form. For every state whose memory lists its addresses strictly rising and lists no
byte equal to what an unlisted address reads as, the memory after a step has that form. The form is the model's representation
(log entry 6); it says that equal memories are equal data. (03_mirq_engines.md (R64, R65, R66, R69); 10_translation.md (R245).) -/
def Obligations.MemoryCanonicalKept : Prop :=
  ∀ s t : State, s.mem.wf = true → step s = .next t → t.mem.wf = true

/-- No command steps Fabric Time in TRACK, HOLDOVER, UNSYNC or an aligned ROOT. For every command carried out in TRACK, HOLDOVER,
UNSYNC, or ROOT once a PPS has aligned it, FT after the command is FT before it, unless the command resets the whole time unit.
(02_fabric_time.md (R27, R29, R45, R46, R49, R54).) -/
def Obligations.FabricTimeNeverSteps : Prop :=
  ∀ (c : Instr) (s t : State), exec c s = .next t →
    (s.inv.state = .track ∨ s.inv.state = .holdover ∨ s.inv.state = .unsync ∨ (s.inv.state = .root ∧ s.inv.ppsAligned = true)) →
    t.ft = s.ft ∨ t.inv = Invar.init

/-- What reset leaves: registers at their reset values, time disabled, ports disabled, an empty queue. In State.reset every register
of the register table reads as its reset value, time is DISABLED with FT and INV_LOCAL 0, every port is DISABLED, the fault
collector is not armed, memory is canonical, the sideband address is valid and the queue is empty. Not armed before boot stage 7
is this model's reading (log entry 14), and the counters begin at 0 (log entry 2). (23_control_space.md (R533);
02_fabric_time.md (R30, R46); 15_link_layer.md (R378); 21_power_reset_boot.md (R500).) -/
def Obligations.ResetState : Prop :=
  State.reset.sidebandOk ∧
  State.reset.mem.wf = true ∧
  State.reset.pending = [] ∧
  State.reset.inv.state = .disabled ∧
  State.reset.ft = 0 ∧
  State.reset.loc = 0 ∧
  (∀ p, (State.reset.port p).st = .disabled) ∧
  State.reset.tgf.armed = false ∧
  (∀ r ix, State.reset.rd r ix = r.resetAt ix)

/-! ## Power, reset, boot and control space -/

/-- Power-on, power-down, RESET_N, warm resets, boot and the SVN commit do what Section 21 says. Power-on and power-down leave HBM
and the memories of clusters and engines reading 0 (log entry 6) and set the reset kind; a RESET_N pulse below 1 us does nothing
and one above 2 us resets the device; a warm reset and WARM_RESTART with its key reset time and the collector. A boot whose
checks pass ends at stage 7, done, armed and running, from the image of the slot chosen; one that stops records its stage and
cause; SVN commit raises the stored SVN to that of the running image. (21_power_reset_boot.md (R494, R495, R496, R497, R498,
R499, R500, R501).) -/
def Obligations.PowerAndReset : Prop :=
  (∀ s : State, s.dev.off = true → ∃ t, exec .powerOn s = .next t ∧ t.dev.off = false ∧ t.dev.kind = 0 ∧ t.inv = State.reset.inv ∧
      ∀ a, a < pewterKey 0 → t.mem.read a = 0) ∧
  (∀ s : State, s.dev.off = false → ∃ t, exec .powerDown s = .next t ∧ t.dev.off = true ∧ ∀ a, a < pewterKey 0 → t.mem.read a = 0) ∧
  (∀ (s : State) (ns : Nat), s.dev.off = false →
      ∃ t, exec (.resetN (.resetN ns)) s = .next t ∧ (ns < 1000 → t = s) ∧
        (2000 < ns → t.dev.kind = 1 ∧ t.inv = State.reset.inv ∧ ∀ a, a < pewterKey 0 → t.mem.read a = 0)) ∧
  (∀ (s : State) (path : Path) (v : Word), s.devKey path v = true → bitW v 1 = true →
      ∃ t, exec (.warm path v) s = .next t ∧ t.dev.kind = 2 ∧ t.inv = State.reset.inv ∧ t.tgf.armed = false) ∧
  (∀ (s : State) (pf idx : Nat) (e : OutEntry), s.controls pf idx 0x6B e → s.fmMay pf = true → leAt e.bytes 8 2 = 0x3A7B →
      ∃ t, exec (.warmRestart pf idx) s = .next t ∧ t.dev.kind = 2 ∧ t.inv = State.reset.inv ∧ t.tgf.armed = false) ∧
  (∀ (s : State) (r : BootEnv) (slot : Nat), s.bootDue = true → r.outcome (s.dev.kind == 2) s.variant s.dev.svn = .done slot → r.calFail = [] →
      ∃ t, exec (.boot r) s = .next t ∧ t.tgf.armed = true ∧ t.fd F.DEV_BOOT_STATUS_STAGE = 7 ∧ t.fb F.DEV_BOOT_STATUS_DONE = true ∧
        t.isRunning = true ∧ t.dev.image = (if slot = 0 then r.a else r.b).svn) ∧
  (∀ (s : State) (r : BootEnv) (stage cause slot : Nat), s.bootDue = true →
      r.outcome (s.dev.kind == 2) s.variant s.dev.svn = .stopped stage cause slot →
      ∃ t, exec (.bootFail r) s = .next t ∧ t.fd F.DEV_BOOT_STATUS_STAGE = stage ∧ t.fd F.DEV_BOOT_STATUS_CAUSE = cause ∧
        t.fb F.DEV_BOOT_STATUS_DONE = false ∧ t.tgf = s.tgf) ∧
  (∀ (s : State) (path : Path) (v : Word), s.devKey path v = true → bitW v 2 = true → s.fb F.DEV_BOOT_STATUS_DONE = true →
      s.dev.svn < s.dev.image →
      exec (.svnCommit path v) s = .next { s with dev := { s.dev with svn := s.dev.image } })

/-- Power commands, wake events, FABRIC_JOIN and its timeout. PWR_ENTER to Run or Reduced, with no entry in progress, puts the
device in that state; PWR_ENTER to Doze or Deep Retention either begins the entry and ends with success, or ends with BUSY and
begins none, the state of power the same; PWR_QUERY ends with success and changes nothing of the device. An enabled wake event
is latched while an entry is in progress, the first one kept, and otherwise returns a Doze or Deep Retention device to Run, as
the sideband's wake does. FABRIC_JOIN within its bounds is recorded; FABRIC_READY makes routing ready and ends a recorded join
with success; a join whose time passes ends with TIMEOUT. (21_power_reset_boot.md (R485, R486, R487, R488, R490, R491, R493,
R494, R502).) -/
def Obligations.PowerStates : Prop :=
  (∀ (s : State) (pf idx : Nat) (e : OutEntry), s.controls pf idx 0x68 e → s.fmMay pf = true → leAt e.bytes 8 1 ≤ 1 → s.dev.entering = none →
      ∃ t, exec (.pwrEnter pf idx) s = .next t ∧ s.ended t (ctrlQn pf) e 0 ∧ t.dev.power = leAt e.bytes 8 1) ∧
  (∀ (s : State) (pf idx : Nat) (e : OutEntry), s.controls pf idx 0x68 e → s.fmMay pf = true → 2 ≤ leAt e.bytes 8 1 → leAt e.bytes 8 1 ≤ 3 →
      s.dev.entering = none → ∃ t, exec (.pwrEnter pf idx) s = .next t ∧ t.dev.power = s.dev.power ∧
        (s.entryRefusal pf (leAt e.bytes 8 1) = none → s.ended t (ctrlQn pf) e 0 ∧ t.dev.entering = some (leAt e.bytes 8 1, pf)) ∧
        (∀ d, s.entryRefusal pf (leAt e.bytes 8 1) = some d → s.ended t (ctrlQn pf) e 0x32 ∧ t.dev.entering = none)) ∧
  (∀ (s : State) (pf idx : Nat) (e : OutEntry), s.controls pf idx 0x69 e → s.fmMay pf = true →
      ∃ t, exec (.pwrQuery pf idx) s = .next t ∧ s.ended t (ctrlQn pf) e 0 ∧ t.dev = s.dev) ∧
  (∀ (s : State) (src : Nat) (fails : List RetBank), s.wakeOn src = true → s.inSafe = false → s.dev.off = false →
      ∃ t, exec (.wake src fails) s = .next t ∧
        (s.dev.entering.isSome → t = { s with dev := { s.dev with latched := some (s.dev.latched.getD src) } }) ∧
        (s.dev.entering = none → 2 ≤ s.dev.power → t.dev.power = 0 ∧ t.dev.latched = none)) ∧
  (∀ (s : State) (fails : List RetBank), s.wakeOn 3 = true → s.inSafe = false → s.dev.off = false → s.dev.entering = none →
      2 ≤ s.dev.power → ∃ t, exec (.pwrWake .sideband fails) s = .next t ∧ t.dev.power = 0 ∧ t.dev.latched = none) ∧
  (∀ (s : State) (pf idx : Nat) (e : OutEntry), s.controls pf idx 0x6A e → s.fmMay pf = true → 1 ≤ leAt e.bytes 40 4 →
      leAt e.bytes 40 4 ≤ 60000 → s.route.enabled = false →
      ∃ t, exec (.fabricJoin pf idx) s = .next t ∧ t.dev.join = some (pf, e.serial, s.loc, leAt e.bytes 40 4)) ∧
  (∀ s : State, s.inSafe = false → s.fabricReady = true → s.dev.join = none →
      exec .fabricReady s = .next { s with route := { s.route with ready := true } }) ∧
  (∀ (s : State) (pf serial ms : Nat) (from_ : Word) (e : OutEntry), s.dev.join = some (pf, serial, from_, ms) →
      (s.queue (ctrlQn pf)).entry serial = some e → s.adapterHalted = false → s.cqRoom (s.queue (ctrlQn pf)).cn = true →
      s.fabricReady = true → ∃ t, exec .fabricReady s = .next t ∧ t.route.ready = true ∧ t.dev.join = none ∧ s.ended t (ctrlQn pf) e 0) ∧
  (∀ (s : State) (pf serial ms : Nat) (from_ : Word) (e : OutEntry), s.dev.join = some (pf, serial, from_, ms) →
      (s.queue (ctrlQn pf)).entry serial = some e → s.adapterHalted = false → s.cqRoom (s.queue (ctrlQn pf)).cn = true →
      s.fabricReady = false → ms * 1000 * ticksPerUs ≤ s.locSince from_ →
      ∃ t, exec .fabricJoinTimeout s = .next t ∧ t.dev.join = none ∧ s.ended t (ctrlQn pf) e 0x0A)

/-- Register writes, half reads, record reads and counters that clear, and the sideband commands. A permitted write of RING_CQ_POLL
clamps to its range, and a path other than a BAR that may not write changes nothing. A low-half read of INV_FT gives it and
latches the high half, and a read of the high half gives what is latched; a read of history record 0 gives its first word and
latches the record; a read of a clearing counter gives it and clears it but from the sideband. The sideband sets an aligned
address with a good PEC and no other, reads DEV_ID, writes LIFE_WIN_SEL with a good PEC, each moving on by 4, and gives its
address; a write with a bad PEC changes nothing. (00_scope.md (R8, R12, R13); 23_control_space.md (R528, R529, R530, R531).) -/
def Obligations.RegisterAccess : Prop :=
  (∀ (s : State) (p : Path) (v : Word), s.mayWrite p R.RING_CQ_POLL.base = true →
      exec (.registerWrite p R.RING_CQ_POLL.base false v) s =
        .next (s.wr R.RING_CQ_POLL [] (w64 (clampN 100 100000 (v.toNat % 2 ^ 32))))) ∧
  (∀ (s : State) (p : Path) (a : Nat) (wide : Bool) (v : Word), (∀ f, p ≠ .bar f) → s.mayWrite p a = false →
      exec (.registerWrite p a wide v) s = .next s) ∧
  (∀ (s : State) (p : Path), (∀ f, p ≠ .bar f) → s.mayRead p R.INV_FT.base = true →
      ∃ t, exec (.halfRead p R.INV_FT.base) s = .next t ∧ t.out = .value p R.INV_FT.base (loWord s.ft) :: s.out ∧
        t.halfLatch.get (0, 0) (pathKey p) = (R.INV_FT.base + 4, hiWord s.ft) ∧ t.regs = s.regs) ∧
  (∀ (s : State) (p : Path) (v : Word), (∀ f, p ≠ .bar f) → s.mayRead p (R.INV_FT.base + 4) = true →
      s.halfLatch.get (0, 0) (pathKey p) = (R.INV_FT.base + 4, v) →
      ∃ t, exec (.halfRead p (R.INV_FT.base + 4)) s = .next t ∧ t.out = .value p (R.INV_FT.base + 4) v :: s.out) ∧
  (∀ (s : State) (p : Path), (∀ f, p ≠ .bar f) → s.mayRead p R.TGF_HIST.base = true →
      ∃ t, exec (.recordRead p R.TGF_HIST.base) s = .next t ∧
        t.out = .value p R.TGF_HIST.base (w64 (leAt (s.hrec 0).bytes 0 8)) :: s.out ∧
        (t.recLatch.get (0, []) (pathKey p)).2 = (List.range 8).map fun i => w64 (leAt (s.hrec 0).bytes (8 * i) 8)) ∧
  (∀ (s : State) (p : Path), (∀ f, p ≠ .bar f) → s.mayRead p R.RING_DB_REJECT_COUNT.base = true →
      ∃ t, exec (.rcRead p R.RING_DB_REJECT_COUNT.base true) s = .next t ∧
        t.out = .value p R.RING_DB_REJECT_COUNT.base (s.rd R.RING_DB_REJECT_COUNT) :: s.out ∧
        t.rd R.RING_DB_REJECT_COUNT = if p = .sideband then s.rd R.RING_DB_REJECT_COUNT else 0) ∧
  (∀ (s : State) (a : Nat), s.dev.off = false →
      (a % 4 = 0 → exec (.setAddr a true) s = .next { s with sbAddr := a % 2 ^ 32 }) ∧
      (a % 4 ≠ 0 → exec (.setAddr a true) s = .next s) ∧ exec (.setAddr a false) s = .next s) ∧
  (∀ s : State, s.dev.off = false → s.sbAddr = R.DEV_ID.base →
      exec .read s = .next { (s.emit (.sideband (some (if s.is096 then 0x1FB30096 else 0x1FB30128)))) with sbAddr := 4 }) ∧
  (∀ (s : State) (v : Word32), s.dev.off = false →
      exec (.write v false) s = .next s ∧
      (s.sbAddr = R.LIFE_WIN_SEL.base →
        exec (.write v true) s = .next { (s.wr R.LIFE_WIN_SEL [] (putW (s.rd R.LIFE_WIN_SEL) 11 0 (v.toNat % 2 ^ 12))) with sbAddr := R.LIFE_WIN_SEL.base + 4 })) ∧
  (∀ s : State, s.dev.off = false → exec .readAddr s = .next (s.emit (.sideband (some (BitVec.ofNat 32 s.sbAddr)))))

/-! ## Fabric Time -/

/-- INV_CTRL enables, disables and reacquires time. A permitted enable leaves DISABLED for LISTEN with no parent and no root, and FT
as it was; a disable ends in DISABLED with FT kept but not valid, drops exchanges and triggers and cancels an armed route
switch; reacquire acts in UNSYNC only and returns to LISTEN. A path that may not write INV_CTRL changes nothing.
(02_fabric_time.md (R46, R48, R55, R57, R58).) -/
def Obligations.TimeControl : Prop :=
  (∀ (s : State) (path : Path), s.mayWrite path R.INV_CTRL.base = true →
    (∃ t, exec (.invEnable path) s = .next t ∧ t.fb F.INV_CTRL_ENABLE = true ∧ t.ft = s.ft ∧
      (s.inv.state = .disabled → t.inv.state = .listen ∧ t.inv.enteredAt = s.loc ∧ t.inv.parent = none ∧ t.inv.root = none) ∧
      (s.inv.state ≠ .disabled → t.inv = s.inv)) ∧
    (∃ t, exec (.invDisable path) s = .next t ∧ t.inv.state = .disabled ∧ t.ft = s.ft ∧ t.ftValid = false ∧
      (s.inv.state ≠ .disabled → (∀ p, (t.ptime p).outstanding = []) ∧ (∀ c, (t.cluster c).trigs = []) ∧
        t.route.bank0 = (if s.route.bank0 = 1 then 0 else s.route.bank0) ∧
        t.route.bank1 = (if s.route.bank1 = 1 then 0 else s.route.bank1))) ∧
    (∃ t, exec (.reacquire path) s = .next t ∧
      (s.inv.state ≠ .unsync → t = s) ∧
      (s.inv.state = .unsync → t.inv.state = .listen ∧ t.inv.parent = none ∧ t.ft = s.ft ∧ t.ftValid = false ∧
        (∀ c, (t.cluster c).trigs = []) ∧ t.route = s.route))) ∧
  (∀ (s : State) (path : Path), s.mayWrite path R.INV_CTRL.base = false →
    exec (.invEnable path) s = .next s ∧ exec (.invDisable path) s = .next s ∧ exec (.reacquire path) s = .next s)

/-- SYNC exchanges: what is sent, what a reply samples, and how the servo trims. SYNC goes out on a time port when the interval has
passed, on the port's time lane and with its identifier and 72-bit stamp, and is recorded as outstanding; otherwise nothing
happens. A received SYNC is answered on the time lane with T2 and T3, and changes nothing of the time unit. A reply on a port
that is not the parent's makes the port's delay a median of its samples, shown in INV_PORT_DELAY unless a port reset has muted
it until 64 samples, and moves neither integrator nor FT. A reply at the parent in ACQUIRE after the first step, with the servo
not suspended, gives the offset, adds it to the integrator, sets the frequency to the servo's sum within the slew limit, and
leaves FT. An exchange outstanding for 10 us is lost. (02_fabric_time.md (R35, R36, R37, R38).) -/
def Obligations.SyncExchange : Prop :=
  (∀ (s : State) (p f : Nat), s.timePort p = true → (s.rd R.INV_SYNC_INT).toNat ≤ s.locSince (s.ptime p).lastSync →
    ∃ t, exec (.sync p f) s = .next t ∧
      Emit.sync p (s.port p).timeLane (s.ptime p).nextId (16 * s.ft.toNat + f % 16) ∈ t.out ∧
      (t.ptime p).outstanding = (s.ptime p).outstanding ++ [((s.ptime p).nextId, 16 * s.ft.toNat + f % 16, s.loc)] ∧
      (t.ptime p).nextId = ((s.ptime p).nextId + 1) % 65536 ∧ (t.ptime p).lastSync = s.loc ∧ t.ft = s.ft ∧
      (∀ q, q ≠ p → t.ptime q = s.ptime q) ∧ (∀ q, q ≠ p → t.port q = s.port q)) ∧
  (∀ (s : State) (p f : Nat), (s.timePort p = false ∨ s.locSince (s.ptime p).lastSync < (s.rd R.INV_SYNC_INT).toNat) →
    exec (.sync p f) s = .next s) ∧
  (∀ (s : State) (p id f dt t2 : Nat), s.timePort p = true → t2 = 16 * s.ft.toNat + f % 16 →
    ∃ t, exec (.syncReceived p id f dt) s = .next t ∧ t.inv = s.inv ∧
      Emit.syncReply p (s.port p).timeLane (id % 65536) t2 ((t2 + min dt (32 * ticksPerUs)) % 2 ^ 72) ∈ t.out) ∧
  (∀ (s : State) (p id t1 t2 t3 f : Nat) (at_ : Word) (d : Int), s.timePort p = true → s.inv.parent ≠ some p →
    (s.ptime p).outstanding.find? (fun o => o.1 == id) = some (id, t1, at_) →
    d = ((s.ptime p).sampled ((((16 * s.ft.toNat + f % 16 : Nat) : Int) - t3 + ((t2 : Int) - t1)) / 2)).delay →
    ∃ t, exec (.syncReplyReceived p id t2 t3 f) s = .next t ∧ (t.ptime p).delay = d ∧ (∀ o ∈ (t.ptime p).outstanding, o.1 ≠ id) ∧
      (-2 ^ 31 ≤ d → d < 2 ^ 31 → (s.ptime p).mute = false → t.rd R.INV_PORT_DELAY [p] = w64 (ofSigned 32 d)) ∧
      ((s.ptime p).mute = true → (t.ptime p).seen < 64 → t.rd R.INV_PORT_DELAY [p] = s.rd R.INV_PORT_DELAY [p]) ∧
      t.inv.integ = s.inv.integ ∧ t.ft = s.ft) ∧
  (∀ (s : State) (p id t1 t2 t3 f : Nat) (at_ : Word), s.timePort p = true → s.inv.parent = some p →
    s.inv.state = .acquire → s.inv.stepped = true → s.inv.suspended = none →
    (s.ptime p).outstanding.find? (fun o => o.1 == id) = some (id, t1, at_) →
    ∃ (t : State) (offset trim lim : Int), exec (.syncReplyReceived p id t2 t3 f) s = .next t ∧
      offset = ((16 * s.ft.toNat + f % 16 : Nat) : Int) - t3 - (t.ptime p).delay - toSigned 20 (s.fd F.INV_PORT_TIME_ASYM [p]) ∧
      (-2 ^ 31 ≤ offset → offset < 2 ^ 31 → t.rd R.INV_OFFSET = w64 (ofSigned 32 offset)) ∧ t.inv.integ = s.inv.integ + offset ∧
      trim = t.inv.integ / (2 ^ s.fd F.INV_SERVO_KI_SHIFT : Nat) + offset / (2 ^ s.fd F.INV_SERVO_KP_SHIFT : Nat) ∧
      lim = ((s.rd R.INV_SLEW_MAX).toNat * 65536 / 100 : Nat) ∧
      t.rd R.INV_FREQ_ADJ = w64 (ofSigned 32 (clampI (-lim) lim trim)) ∧ t.ft = s.ft ∧
      ((s.ptime p).seen < 64 → t.inv.goodRun = 0)) ∧
  (∀ (s : State) (p : Nat) (o : Nat × Nat × Word) (rest : List (Nat × Nat × Word)), s.inSafe = false →
    (s.ptime p).outstanding = o :: rest → 10 * ticksPerUs ≤ s.locSince o.2.2 →
    exec (.exchangeLost p) s = .next (s.setPtime p { s.ptime p with outstanding := rest }))

/-- ANNOUNCE, the root of time and its standby. ANNOUNCE goes out at its interval with the own sequence number, and from a root that
is not stale with its own candidate at depth 0 on every time port. A device that listens takes the first root that it hears; an
old sequence number changes nothing of the root. A stale root is replaced at once by the standby in TRACK or HOLDOVER, and
otherwise noted with the start of the wait; after the wait an eligible device whose candidate nothing beats takes over, and one
that hears a better one does not. At the end of LISTEN an eligible device that beats what it heard becomes root and loads
INV_FT_SET once; any other chooses its best parent and acquires. (02_fabric_time.md (R39, R40, R41, R42, R43, R44, R46).) -/
def Obligations.RootElection : Prop :=
  (∀ s : State, s.invOn = true → s.inSafe = false → (s.rd R.INV_ANNOUNCE_INT).toNat ≤ s.locSince s.inv.lastAnnounce →
    ∃ t, exec .announce s = .next t ∧ t.inv.ownSeq = (s.inv.ownSeq + 1) % 65536 ∧ t.inv.lastAnnounce = s.loc ∧
      (∀ v, s.inv.state = .root → s.inv.root = some v → s.inv.staleAt = none →
        ∃ a, a.seq = t.inv.ownSeq ∧ a.gen = v.gen ∧ a.root = s.ownCand ∧ a.depth = 0 ∧
          ∀ p ∈ s.timePorts, Emit.announce p (s.port p).timeLane a ∈ t.out)) ∧
  (∀ (s : State) (p : Nat) (a : Announce), s.timePort p = true → a.root.dn ≠ s.fd F.ROUTE_SELF_DN_DN → s.inv.root = none →
    s.inv.state = .listen →
    ∃ t, exec (.announceReceived p a) s = .next t ∧ t.inv.root = some ⟨a.root, a.gen, a.seq, s.loc⟩ ∧
      (t.ptime p).heard = some a ∧ (t.ptime p).heardAt = s.loc ∧ t.inv.state = .listen) ∧
  (∀ (s : State) (p : Nat) (a : Announce) (v : RootView), s.timePort p = true → a.root.dn ≠ s.fd F.ROUTE_SELF_DN_DN →
    s.inv.root = some v → a.root.dn = v.cand.dn → a.gen = v.gen → seqNewer a.seq v.seq = false →
    ∃ t, exec (.announceReceived p a) s = .next t ∧ t.inv.root = some v ∧ (t.ptime p).heard = some a) ∧
  (∀ (s : State) (v : RootView), s.inv.root = some v → s.inv.staleAt = none → s.inv.state ≠ .root → s.invOn = true → s.inSafe = false →
    3 * s.annInt ≤ s.locSince v.heardAt → s.isStandby = true → (s.inv.state = .track ∨ s.inv.state = .holdover) →
    ∃ t, exec .rootStale s = .next t ∧ t.inv.state = .root ∧ t.inv.lastGen = (s.inv.lastGen + 1) % 256 ∧ t.ft = s.ft) ∧
  (∀ (s : State) (v : RootView), s.inv.root = some v → s.inv.staleAt = none → s.inv.state ≠ .root → s.invOn = true → s.inSafe = false →
    3 * s.annInt ≤ s.locSince v.heardAt → s.isStandby = false →
    exec .rootStale s = .next { s with inv := { s.inv with
      staleAt := some s.loc, await := if s.eligible then some (s.loc, s.inv.standby.map (·.dn)) else s.inv.await } }) ∧
  (∀ (s : State) (w : Word) (dn : Option Nat), s.inv.await = some (w, dn) → s.inSafe = false → s.eligible = true →
    8 * s.annInt ≤ s.locSince w → (s.inv.state = .track ∨ s.inv.state = .holdover) →
    (∀ v, s.rootView = some v → candBeats v.cand s.ownCand = false) →
    (∀ e ∈ s.inv.ports, ∀ a, e.2.heard = some a → a.standby = none) →
    ∃ t, exec .standbyWaitExpiry s = .next t ∧ t.inv.state = .root ∧ t.inv.await = none ∧ t.ft = s.ft) ∧
  (∀ (s : State) (w : Word) (dn : Option Nat) (v : RootView), s.inv.await = some (w, dn) → s.inSafe = false →
    8 * s.annInt ≤ s.locSince w → s.rootView = some v → candBeats v.cand s.ownCand = true →
    exec .standbyWaitExpiry s = .next { s with inv := { s.inv with await := none, standby := none } }) ∧
  (∀ s : State, s.inv.state = .listen → s.inSafe = false → 4 * s.annInt ≤ s.locSince s.inv.enteredAt → s.eligible = true →
    (∀ v, s.rootView = some v → candBeats s.ownCand v.cand = true) →
    ∃ t, exec .listenExpiry s = .next t ∧ t.inv.state = .root ∧ t.inv.ftSetTaken = true ∧
      t.ft = if s.inv.ftSetTaken = true then s.ft else s.rd R.INV_FT_SET) ∧
  (∀ (s : State) (p : Nat), s.inv.state = .listen → s.inSafe = false → 4 * s.annInt ≤ s.locSince s.inv.enteredAt →
    (s.eligible = false ∨ ∃ v, s.rootView = some v ∧ candBeats s.ownCand v.cand = false) → s.bestParent = some p →
    ∃ t, exec .listenExpiry s = .next t ∧ t.inv.state = .acquire ∧ t.inv.parent = some p ∧ t.ft = s.ft)

/-- The first step of FT, ACQUIRE to TRACK, HOLDOVER, and the PPS and 10 MHz references. After 16 samples in ACQUIRE FT is stepped
by the offset, once, and the port's samples begin anew; 64 samples and 16 good exchanges end in TRACK with FT valid and not
stepped; a lost parent leads from ACQUIRE to LISTEN, and from TRACK to HOLDOVER, and leaves HOLDOVER; 16 good exchanges in
HOLDOVER end in TRACK; a long HOLDOVER is noted. A PPS edge at the root gives its error in INV_PPS_SKEW, steps FT if it is not
yet aligned, and once it is aligned steers within the slew limit toward the edge; elsewhere it is only noted. The loss of PPS
ends the external lock, the loss of 10 MHz is noted. The PPS output rises on each second of valid FT and falls at its width's
end or when FT is not valid. The direction of the steering is the spec's; its size is free (log entry 10). (02_fabric_time.md
(R29, R38, R44, R45, R46, R49, R50, R51).) -/
def Obligations.TimeStates : Prop :=
  (∀ s : State, s.inv.state = .acquire → s.inSafe = false → s.inv.stepped = false → 16 ≤ s.inv.acqCount →
    ∃ t, exec .ftStep s = .next t ∧ t.inv.stepped = true ∧ t.inv.goodRun = 0 ∧
      t.ft = w64 (ofSigned 64 ((s.ft.toNat : Int) - s.inv.offset / 16)) ∧
      (∀ p, s.inv.parent = some p → (t.ptime p).seen = 0)) ∧
  (∀ (s : State) (p : Nat), s.inv.parent = some p → s.inSafe = false → s.inv.state = .acquire → s.inv.stepped = true →
    64 ≤ (s.ptime p).seen → 16 ≤ s.inv.goodRun →
    ∃ t, exec .acquireComplete s = .next t ∧ t.inv.state = .track ∧ t.ftValid = true ∧ t.ft = s.ft) ∧
  (∀ (s : State) (p : Nat), s.inv.parent = some p → s.inSafe = false → s.parentGone p = true →
    ∃ t, exec .parentLost s = .next t ∧ t.ft = s.ft ∧
      (s.inv.state = .acquire → t.inv.state = .listen) ∧ (s.inv.state = .track → t.inv.state = .holdover ∧ t.holdover = true) ∧
      (s.inv.state = .holdover → t.inv.state = .holdover)) ∧
  (∀ (s : State) (p : Nat), s.inv.state = .holdover → s.inSafe = false → s.inv.parent = some p → 16 ≤ s.inv.goodRun →
    ∃ t, exec .holdoverClear s = .next t ∧ t.inv.state = .track ∧ t.ft = s.ft) ∧
  (∀ s : State, s.inv.state = .holdover → s.inSafe = false → s.inv.holdLong = false →
    (s.rd R.INV_HOLD_LIMIT).toNat * 1000 * ticksPerUs < s.locSince s.inv.enteredAt →
    ∃ t, exec .timeHoldoverLong s = .next t ∧ t.inv.holdLong = true ∧ t.inv.state = .holdover ∧ t.ft = s.ft) ∧
  (∀ (s : State) (f : Nat) (ten : Bool), s.inv.state = .root → s.inSafe = false → s.fb F.INV_CTRL_PPS_EN = true →
    ∃ (t : State) (e lim : Int), exec (.ppsEdge ⟨f, ten⟩) s = .next t ∧
      e = ppsError (16 * s.ft.toNat + f % 16) (s.rd R.INV_PPS_OFFSET).toNat ∧
      lim = ((s.rd R.INV_SLEW_MAX).toNat * 65536 / 100 : Nat) ∧ t.inv.ppsLast = some s.loc ∧
      (-2 ^ 31 ≤ e → e < 2 ^ 31 → t.rd R.INV_PPS_SKEW = w64 (ofSigned 32 e)) ∧
      (s.inv.ppsAligned = false → t.ft = w64 (ofSigned 64 ((s.ft.toNat : Int) - e / 16))) ∧
      (s.inv.ppsAligned = true → t.ft = s.ft ∧
        (e ≠ 0 → ∃ r : Int, t.rd R.INV_FREQ_ADJ = w64 (ofSigned 32 r) ∧ -lim ≤ r ∧ r ≤ lim ∧ (0 < e → 0 ≤ r) ∧ (e < 0 → r ≤ 0)))) ∧
  (∀ (s : State) (f : Nat) (ten : Bool), s.inSafe = false → (s.inv.state ≠ .root ∨ s.fb F.INV_CTRL_PPS_EN = false) →
    exec (.ppsEdge ⟨f, ten⟩) s =
      .next { s with inv := { s.inv with ppsLast := some s.loc, ref10mLost := s.inv.ref10mLost && !ten } }) ∧
  (∀ (s : State) (l : Word), s.inv.ppsLast = some l → s.inSafe = false → s.inv.state = .root → 1100000 * ticksPerUs ≤ s.locSince l →
    ∃ t, exec .ppsLoss s = .next t ∧ t.inv.extLock = false ∧ t.inv.state = .root ∧ t.ft = s.ft) ∧
  (∀ s : State, s.inSafe = false → ∃ t, exec .ref10mLoss s = .next t ∧ t.inv = { s.inv with ref10mLost := true }) ∧
  (∀ s : State, s.fb F.INV_CTRL_PPSOUT_EN = true → s.ftValid = true → s.inSafe = false →
    (s.ft.toNat + 4000000000 - (s.rd R.INV_PPSOUT_OFFSET).toNat % 4000000000) % 4000000000 = 0 →
    ∃ t, exec .ppsOutPulse s = .next t ∧ t.out = .pin "TIME_PPS_OUT" true :: s.out ∧
      t.inv.ppsOutEnd = some (w64 (s.ft.toNat + (s.rd R.INV_PPSOUT_WIDTH).toNat))) ∧
  (∀ (s : State) (v : Word), s.inv.ppsOutEnd = some v → (s.ftReached v = true ∨ s.ftValid = false) →
    ∃ t, exec .ppsOutEnd s = .next t ∧ t.out = .pin "TIME_PPS_OUT" false :: s.out ∧ t.inv.ppsOutEnd = none)

/-! ## Engines -/

/-- The integer instructions give the values of their tables. Whenever the instruction issues, each ALU, multiply, divide and
immediate form of the tables writes the value the table gives for its operands to rd (g0 discards it), with division by zero and
overflow as the tables say, and the pc moves past it. (03_mirq_engines.md (R63, R87, R88, R89, R90).) -/
def Obligations.IntegerInstructions : Prop :=
  (∀ (s : State) (t rd rs1 rs2 fn : Nat) (a b v : Word), s.issues t 4 0 [rs1 % 32, rs2 % 32] →
    a = s.reg t (rs1 % 32) → b = s.reg t (rs2 % 32) →
    ((fn, v) ∈ [(0x00, w64 (a.toNat + b.toNat)), (0x01, w64 (a.toNat + 2 ^ 64 - b.toNat)), (0x02, a &&& b), (0x03, a ||| b),
        (0x04, a ^^^ b), (0x05, w64 (a.toNat * 2 ^ (b.toNat % 64))), (0x06, w64 (a.toNat / 2 ^ (b.toNat % 64))),
        (0x07, BitVec.ofInt 64 (a.toInt / (2 ^ (b.toNat % 64) : Nat))), (0x08, if a.toInt < b.toInt then 1 else 0),
        (0x09, if a.toNat < b.toNat then 1 else 0), (0x0A, BitVec.ofInt 64 (min a.toInt b.toInt)),
        (0x0B, BitVec.ofInt 64 (max a.toInt b.toInt)), (0x0C, w64 (min a.toNat b.toNat)), (0x0D, w64 (max a.toNat b.toNat)),
        (0x11, a &&& ~~~ b),
        (0x400, BitVec.ofInt 64 (toSigned 32 (a.toNat + b.toNat))),
        (0x401, BitVec.ofInt 64 (toSigned 32 (a.toNat + 2 ^ 64 - b.toNat))),
        (0x405, BitVec.ofInt 64 (toSigned 32 (a.toNat * 2 ^ (b.toNat % 32)))),
        (0x406, BitVec.ofInt 64 (toSigned 32 (a.toNat % 2 ^ 32 / 2 ^ (b.toNat % 32)))),
        (0x407, BitVec.ofInt 64 (toSigned 32 a.toNat / (2 ^ (b.toNat % 32) : Nat)))] ∨
      (rs2 % 32 = 0 ∧ (fn, v) ∈ [
        (0x0E, if a = 0 then 64 else w64 (63 - a.toNat.log2)),
        (0x10, w64 ((List.range 64).filter fun i => a.getLsbD i).length),
        (0x12, w64 (leNat (leBytes 8 a.toNat).reverse)),
        (0x40E, if a.toNat % 2 ^ 32 = 0 then 32 else w64 (31 - (a.toNat % 2 ^ 32).log2)),
        (0x410, w64 ((List.range 32).filter fun i => a.getLsbD i).length)]) ∨
      (rs2 % 32 = 0 ∧ fn = 0x0F ∧ v.toNat ≤ 64 ∧ (∀ i, i < v.toNat → a.getLsbD i = false) ∧ (v.toNat < 64 → a.getLsbD v.toNat = true))) →
    ∃ u, exec (.aluReg t rd rs1 rs2 fn) s = .next u ∧ u.thread t = (s.thread t).wrote (rd % 32) v 4) ∧
  (∀ (s : State) (t rd rs1 rs2 fn : Nat) (a b v : Word), s.issues t 4 0 [rs1 % 32, rs2 % 32] →
    a = s.reg t (rs1 % 32) → b = s.reg t (rs2 % 32) →
    (fn, v) ∈ [(0, w64 (a.toNat * b.toNat)), (1, BitVec.ofInt 64 (a.toInt * b.toInt / (2 ^ 64 : Nat))),
      (2, w64 (a.toNat * b.toNat / 2 ^ 64)),
      (4, if b = 0 then BitVec.allOnes 64 else BitVec.ofInt 64 (a.toInt.tdiv b.toInt)),
      (5, if b = 0 then BitVec.allOnes 64 else w64 (a.toNat / b.toNat)),
      (6, if b = 0 then a else BitVec.ofInt 64 (a.toInt.tmod b.toInt)), (7, if b = 0 then a else w64 (a.toNat % b.toNat))] →
    ∃ u, exec (.mulDiv t rd rs1 rs2 fn) s = .next u ∧ u.thread t = (s.thread t).wrote (rd % 32) v 4) ∧
  (∀ (s : State) (t rd rs1 rs2 fn a b x : Nat), s.issues t 4 0 [rs1 % 32, rs2 % 32] →
    a = (s.reg t (rs1 % 32)).toNat % 2 ^ 32 → b = (s.reg t (rs2 % 32)).toNat % 2 ^ 32 →
    (fn, x) ∈ [(0x400, a * b % 2 ^ 32), (0x405, if b = 0 then 2 ^ 32 - 1 else a / b), (0x407, if b = 0 then a else a % b),
      (0x404, if b = 0 then 2 ^ 32 - 1 else ofSigned 32 ((toSigned 32 a).tdiv (toSigned 32 b))),
      (0x406, if b = 0 then a else ofSigned 32 ((toSigned 32 a).tmod (toSigned 32 b)))] →
    ∃ (u : State) (v : Word), exec (.mulDiv t rd rs1 rs2 fn) s = .next u ∧ v.toNat % 2 ^ 32 = x ∧
      u.thread t = (s.thread t).wrote (rd % 32) v 4) ∧
  (∀ (s : State) (t op rd rs1 imm imm2 len : Nat) (a i j v : Word), len = (if op = 0x0C ∨ op = 0x0D ∨ op = 0x0E then 8 else 4) →
    s.issues t len 0 [rs1 % 32] → a = s.reg t (rs1 % 32) → i = (BitVec.ofNat 16 imm).signExtend 64 →
    j = (BitVec.ofNat 32 imm2).signExtend 64 →
    ((op, v) ∈ [(0x04, a + i), (0x05, a &&& w64 (imm % 2 ^ 16)), (0x06, a ||| w64 (imm % 2 ^ 16)), (0x07, a ^^^ w64 (imm % 2 ^ 16)),
        (0x09, if a.toInt < i.toInt then 1 else 0), (0x0A, if a.toNat < i.toNat then 1 else 0)] ∨
      (rs1 % 32 = 0 ∧ op = 0x0B ∧ v = BitVec.ofInt 64 (toSigned 32 (imm % 2 ^ 16 * 2 ^ 16))) ∨
      (imm % 2 ^ 16 = 0 ∧ (rs1 % 32 = 0 ∧ op = 0x0C ∧ v = j ∨
        (op, v) ∈ [(0x0D, w64 (a.toNat % 2 ^ 32 + imm2 % 2 ^ 32 * 2 ^ 32)), (0x0E, a + j)])) ∨
      (∃ n < 64, op = 0x08 ∧ (imm, v) ∈ [(n, a <<< n), (64 + n, a >>> n), (128 + n, a.sshiftRight n)]) ∨
      (∃ n < 32, op = 0x08 ∧ (imm, v) ∈ [(256 + n, BitVec.ofInt 64 (toSigned 32 (a.toNat * 2 ^ n))),
        (320 + n, BitVec.ofInt 64 (toSigned 32 (a.toNat % 2 ^ 32 / 2 ^ n))), (384 + n, BitVec.ofInt 64 (toSigned 32 a.toNat / (2 ^ n : Nat)))]) ∨
      (∃ pos l, pos + l + 1 ≤ 64 ∧ op = 0x0F ∧ (imm, v) ∈ [(64 * l + pos, w64 (a.toNat / 2 ^ pos % 2 ^ (l + 1))),
        (4096 + 64 * l + pos, BitVec.ofInt 64 (toSigned (l + 1) (a.toNat / 2 ^ pos)))])) →
    ∃ u, exec (.aluImm t op rd rs1 imm imm2) s = .next u ∧ u.thread t = (s.thread t).wrote (rd % 32) v len)

/-- Branches, jumps, fences, pause and done. branch goes to pc + 4 x offset when its comparison holds and to pc + 4 otherwise; jal
and jalr link and go to their targets. fence, fenceSt and fenceI, with reserved fields zero, move on with no store buffered
(fenceI drops the instruction cache) and wait for the drain otherwise; done stops the thread, or waits for the drain first;
pause with a count waits its time. (03_mirq_engines.md (R63, R73, R92, R94, R96).) -/
def Obligations.ControlFlow : Prop :=
  (∀ (s : State) (t op ra rb imm : Nat) (a b : Word) (taken : Bool), s.issues t 4 0 [ra % 32, rb % 32] →
    a = s.reg t (ra % 32) → b = s.reg t (rb % 32) →
    (op, taken) ∈ [(0x20, decide (a = b)), (0x21, decide (a ≠ b)), (0x22, decide (a.toInt < b.toInt)), (0x23, decide (b.toInt ≤ a.toInt)),
      (0x24, decide (a.toNat < b.toNat)), (0x25, decide (b.toNat ≤ a.toNat))] →
    ∃ u, exec (.branch t op ra rb imm) s = .next u ∧ u.thread t = { s.thread t with
      pc := (s.thread t).pc + (if taken then (BitVec.ofNat 16 imm).signExtend 64 * 4 else 4), wait := .ready }) ∧
  (∀ (s : State) (t rd imm : Nat), s.issues t 4 0 [] →
    ∃ u, exec (.jal t rd imm) s = .next u ∧ u.thread t = { (s.thread t).wrote (rd % 32) ((s.thread t).pc + 4) 4 with
      pc := (s.thread t).pc + (BitVec.ofNat 21 imm).signExtend 64 * 4 }) ∧
  (∀ (s : State) (t rd rs1 imm : Nat) (a : Word), s.issues t 4 0 [rs1 % 32] →
    a = s.reg t (rs1 % 32) + (BitVec.ofNat 16 imm).signExtend 64 → a.toNat % 4 = 0 →
    ∃ u, exec (.jalr t rd rs1 imm) s = .next u ∧ u.thread t = { (s.thread t).wrote (rd % 32) ((s.thread t).pc + 4) 4 with pc := a }) ∧
  (∀ (s : State) (t rd rs1 rs2 fn : Nat) (c : Instr), s.issues t 4 0 [] → rd % 32 = 0 → rs1 % 32 = 0 → rs2 % 32 = 0 → nbits fn 10 2 = 0 →
    (c = .fence ⟨t, rd, rs1, rs2, fn⟩ ∧ fn % 4 ≠ 3 ∨ c = .fenceSt ⟨t, rd, rs1, rs2, fn⟩ ∨ c = .fenceI ⟨t, rd, rs1, rs2, fn⟩) →
    ∃ u, exec c s = .next u ∧
      ((s.thread t).sb = [] → u.thread t = { s.thread t with pc := (s.thread t).pc + 4, wait := .ready } ∧
        (c = .fenceI ⟨t, rd, rs1, rs2, fn⟩ → (u.engine (tEngine t)).icache = [])) ∧
      ((s.thread t).sb ≠ [] → ∃ k, u.thread t = { s.thread t with wait := .drain k })) ∧
  (∀ (s : State) (t rd rs1 arg : Nat), s.issues t 4 0 [] → rd % 32 = 0 → rs1 % 32 = 0 →
    ∃ u, exec (.done ⟨t, rd, rs1, arg⟩) s = .next u ∧
      ((s.thread t).sb = [] → u.thread t = { s.thread t with running := false, wait := .ready, pendWd := false, graceEnd := none, xfault := none }) ∧
      ((s.thread t).sb ≠ [] → ∃ k, u.thread t = { s.thread t with wait := .drain k })) ∧
  (∀ (s : State) (t rd rs1 n kind : Nat), s.issues t 4 0 [] → rd % 32 = 0 → rs1 % 32 = 0 → n % 256 ≠ 0 → kind % 256 ≤ 4 →
    ∃ u, exec (.pause ⟨t, rd, rs1, kind⟩ n) s = .next u ∧
      u.thread t = { s.thread t with pc := (s.thread t).pc + 4, wait := .pause (s.locIn ((5 * (n % 256) + 1) / 2)) })

/-- Near loads, stores and atomics. At a permitted aligned near address a load writes the bytes there to rd, extended as its form
says, and changes no byte; a store writes exactly its bytes; an atomic gives the old value and stores the new one that its
function makes, and no other byte. (03_mirq_engines.md (R64, R65, R66, R69, R91, R93).) -/
def Obligations.LoadsAndStores : Prop :=
  (∀ (s : State) (t op rd rs1 imm n key : Nat) (signed : Bool) (a : Word), s.issues t 4 0 [rs1 % 32] →
    (op, n, signed) ∈ [(0x10, 1, true), (0x11, 2, true), (0x12, 4, true), (0x13, 8, true), (0x14, 1, false), (0x15, 2, false), (0x16, 4, false)] →
    a = s.reg t (rs1 % 32) + (BitVec.ofNat 16 imm).signExtend 64 → a.toNat % n = 0 → 2 ^ 63 ≤ a.toNat →
    s.nearKey t a.toNat n .read = some key → s.bad key n = false →
    ∃ u, exec (.load t op rd rs1 imm) s = .next u ∧ u.mem = s.mem ∧
      u.thread t = (s.thread t).wrote (rd % 32)
        (if signed then BitVec.ofInt 64 (toSigned (8 * n) (s.nearValue t a.toNat n .read)) else w64 (s.nearValue t a.toNat n .read)) 4) ∧
  (∀ (s : State) (t op rd rs1 imm n key : Nat) (a : Word), s.issues t 4 0 [rs1 % 32, rd % 32] →
    (op, n) ∈ [(0x18, 1), (0x19, 2), (0x1A, 4), (0x1B, 8)] →
    a = s.reg t (rs1 % 32) + (BitVec.ofNat 16 imm).signExtend 64 → a.toNat % n = 0 → 2 ^ 63 ≤ a.toNat →
    s.nearKey t a.toNat n .write = some key →
    ∃ u, exec (.store t op rd rs1 imm) s = .next u ∧ s.storedOnly u key n (s.reg t (rd % 32)) ∧
      u.thread t = { s.thread t with pc := (s.thread t).pc + 4, wait := .ready }) ∧
  (∀ (s : State) (t rd rs1 rs2 fn n key : Nat) (a : Word) (old new x e : Nat), fn < 128 → fn % 16 < 10 →
    s.issues t 4 0 ([rs1 % 32, rs2 % 32] ++ if fn % 16 = 9 then [rd % 32] else []) → n = (if nbit fn 4 then 4 else 8) →
    (nbit fn 6 = true → (s.thread t).sb = []) → a = s.reg t (rs1 % 32) → a.toNat % n = 0 → 2 ^ 63 ≤ a.toNat →
    s.nearKey t a.toNat n .atomic = some key → s.bad key n = false → old = s.nearValue t a.toNat n .atomic →
    x = (s.reg t (rs2 % 32)).toNat % 2 ^ (8 * n) → e = (s.reg t (rd % 32)).toNat % 2 ^ (8 * n) →
    (fn % 16, new) ∈ [(0, x), (1, (old + x) % 2 ^ (8 * n)), (2, old &&& x), (3, old ||| x), (4, old ^^^ x),
      (5, ofSigned (8 * n) (min (toSigned (8 * n) old) (toSigned (8 * n) x))),
      (6, ofSigned (8 * n) (max (toSigned (8 * n) old) (toSigned (8 * n) x))), (7, min old x), (8, max old x), (9, if old = e then x else old)] →
    ∃ u, exec (.atomic t rd rs1 rs2 fn) s = .next u ∧ s.storedOnly u key n (w64 new) ∧
      u.thread t = (s.thread t).wrote (rd % 32) (if nbit fn 4 then BitVec.ofInt 64 (toSigned 32 old) else w64 old) 4)

/-- Far loads and stores, and the fill of an instruction line. A far load that translates waits with its physical place and changes
no byte, and its return writes the value from HBM to its register; a far store enters the store buffer with its data, and its
performance writes exactly those bytes and leaves the buffer; a fill brings in the line that the thread waits for.
(03_mirq_engines.md (R62, R68, R69, R71, R91).) -/
def Obligations.FarMemory : Prop :=
  (∀ (s : State) (t op rd rs1 imm n ask p : Nat) (signed : Bool) (a : Word), s.issues t 4 0 [rs1 % 32] →
    (op, n, signed) ∈ [(0x10, 1, true), (0x11, 2, true), (0x12, 4, true), (0x13, 8, true), (0x14, 1, false), (0x15, 2, false), (0x16, 4, false)] →
    a = s.reg t (rs1 % 32) + (BitVec.ofNat 16 imm).signExtend 64 → a.toNat % n = 0 → a.toNat < 2 ^ 63 →
    ((s.fetched t 4).farPlace t a.toNat .read false).1 = .far ask p true → (s.thread t).sb = [] →
    ∃ u, exec (.load t op rd rs1 imm) s = .next u ∧ u.mem = s.mem ∧
      u.thread t = { s.thread t with wait := .farLoad ask a.toNat p true n signed (rd % 32), xfault := none }) ∧
  (∀ (s : State) (t st data ask va p n rd : Nat) (signed : Bool), (s.thread t).wait = .farLoad ask va p true n signed rd →
    s.inSafe = false → (s.thread t).running = true → s.bad (hbmKey p) n = false →
    ∃ u, exec (.farLoadReturn t st data) s = .next u ∧ u.mem = s.mem ∧
      u.thread t = (s.thread t).wrote rd (loadValue n signed (leNat (s.mem.readN (hbmKey p) n))) 4) ∧
  (∀ (s : State) (t op rd rs1 imm n ask p : Nat) (hbm : Bool) (a : Word), s.issues t 4 0 [rs1 % 32, rd % 32] →
    (op, n) ∈ [(0x18, 1), (0x19, 2), (0x1A, 4), (0x1B, 8)] →
    a = s.reg t (rs1 % 32) + (BitVec.ofNat 16 imm).signExtend 64 → a.toNat % n = 0 → a.toNat < 2 ^ 63 →
    ((s.fetched t 4).farPlace t a.toNat .write false).1 = .far ask p hbm → (s.thread t).sb.length < 8 →
    ∃ u, exec (.store t op rd rs1 imm) s = .next u ∧ u.mem = s.mem ∧
      u.thread t = { s.thread t with pc := (s.thread t).pc + 4, wait := .ready, xfault := none,
                                     sb := (s.thread t).sb ++ [⟨a.toNat, ask, p, hbm, leBytes n (s.reg t (rd % 32)).toNat⟩] }) ∧
  (∀ (s : State) (t i n : Nat) (e : StoreEntry) (v : Word), (s.thread t).sb[i]? = some e → e.hbm = true → e.data = leBytes n v.toNat →
    s.inSafe = false → sbOverlap ((s.thread t).sb.take i) e.paddr true e.data.length = false → (∀ k, (s.thread t).wait ≠ .drain k) →
    ∃ u, exec (.farStorePerform t i) s = .next u ∧ s.storedOnly u (hbmKey e.paddr) n v ∧
      u.thread t = { s.thread t with sb := (s.thread t).sb.eraseIdx i }) ∧
  (∀ (s : State) (t st line : Nat) (va : Word), (s.thread t).wait = .fetch 1 line va → s.inSafe = false → (s.thread t).running = true →
    s.bad (hbmKey (line * 64)) 64 = false →
    ∃ u, exec (.icacheFill t st) s = .next u ∧ (1, line) ∈ (u.engine (tEngine t)).icache ∧
      u.thread t = { s.thread t with wait := .ready } ∧ u.mem = s.mem)

/-- CSR reads and writes. csrr, csrs and csrc with g0 give the thread number, privilege, item word, xask, epc, ecause, eval,
estatus, exask, budget and the scratch registers, at the level that the register asks for; csrw, csrs and csrc give the old
value and replace, set or clear the bits of xask (its low 20), epc, ecause, eval, estatus (its fields), exask and the scratch
registers. (03_mirq_engines.md (R74, R95).) -/
def Obligations.ControlRegisters : Prop :=
  (∀ (s : State) (t rd rs1 csr kind : Nat) (v : Word), (csr, v) ∈ [(0x000, w64 t), (0x001, w64 (s.thread t).priv), (0x002, (s.thread t).item.csr),
      (0x400, w64 (s.thread t).xask), (0x401, (s.thread t).epc), (0x402, w64 (s.thread t).ecause), (0x403, (s.thread t).eval),
      (0x404, w64 (b2n (s.thread t).excActive * 256 + (s.thread t).prev)), (0x405, w64 (s.thread t).exask),
      (0x406, w64 (if (s.thread t).budget = 0 then 0xFFFF
        else ((s.thread t).budget * ticksPerUs - s.locSince (s.thread t).startAt) / ticksPerUs)),
      (0x408, (s.thread t).sscratch.get 0 0), (0x409, (s.thread t).sscratch.get 0 1), (0x40A, (s.thread t).sscratch.get 0 2),
      (0x40B, (s.thread t).sscratch.get 0 3)] →
    s.issues t 4 (if csr < 0x400 then 0 else 1) [] → rs1 % 32 = 0 →
    ∀ c, (c = .csrr ⟨t, rs1, kind⟩ rd csr ∧ kind % 16 < 4 ∨ c = .csrs t rd rs1 csr ∨ c = .csrc t rd rs1 csr) →
      ∃ u, exec c s = .next u ∧ u.thread t = (s.thread t).wrote (rd % 32) v 4) ∧
  (∀ (s : State) (t rd rs1 csr : Nat) (r old v : Word) (th : Thread), s.issues t 4 1 [rs1 % 32] → r = s.reg t (rs1 % 32) →
    (csr, old, th) ∈ [(0x400, w64 (s.thread t).xask, { s.thread t with xask := v.toNat % 2 ^ 20 }),
      (0x401, (s.thread t).epc, { s.thread t with epc := v }), (0x402, w64 (s.thread t).ecause, { s.thread t with ecause := v.toNat % 16 }),
      (0x403, (s.thread t).eval, { s.thread t with eval := v }),
      (0x404, w64 (b2n (s.thread t).excActive * 256 + (s.thread t).prev), { s.thread t with prev := v.toNat % 4 }),
      (0x405, w64 (s.thread t).exask, { s.thread t with exask := v.toNat % 2 ^ 20 }),
      (0x408, (s.thread t).sscratch.get 0 0, { s.thread t with sscratch := (s.thread t).sscratch.set 0 0 v }),
      (0x409, (s.thread t).sscratch.get 0 1, { s.thread t with sscratch := (s.thread t).sscratch.set 0 1 v }),
      (0x40A, (s.thread t).sscratch.get 0 2, { s.thread t with sscratch := (s.thread t).sscratch.set 0 2 v }),
      (0x40B, (s.thread t).sscratch.get 0 3, { s.thread t with sscratch := (s.thread t).sscratch.set 0 3 v })] →
    (v = r → ∃ u, exec (.csrw t rd rs1 csr) s = .next u ∧ u.thread t = th.wrote (rd % 32) old 4) ∧
    (v = old ||| r → rs1 % 32 ≠ 0 → ∃ u, exec (.csrs t rd rs1 csr) s = .next u ∧ u.thread t = th.wrote (rd % 32) old 4) ∧
    (v = old &&& ~~~ r → rs1 % 32 ≠ 0 → ∃ u, exec (.csrc t rd rs1 csr) s = .next u ∧ u.thread t = th.wrote (rd % 32) old 4))

/-- Taking an exception, returning from it, and a double fault. sys and brk complete by taking their exception: they save the next
pc, their cause and immediate, xask and privilege, set EXC_ACTIVE and go to the handler of their type at its privilege, and with
no valid handler the thread stops. eret inside an exception at Supervisor or Control level goes back to epc with the saved ask
and privilege and clears EXC_ACTIVE (a saved privilege of 3, which is reserved, gives some level). A system instruction with a
reserved field that is not zero, and eret outside an exception, take ILLEGAL_INSN; a misaligned jalr and a CSR of a higher level
take theirs and write no register; sys or brk inside an exception stops its thread and changes no other. What restores a
reserved PREV is free (log entry 17). (03_mirq_engines.md (R79, R81, R82, R83, R92, R95, R96).) -/
def Obligations.Exceptions : Prop :=
  (∀ (s : State) (t rd rs1 imm code : Nat) (c : Instr), s.issues t 4 0 [] → (s.thread t).excActive = false → rd % 32 = 0 → rs1 % 32 = 0 →
    (c, code) ∈ [(Instr.sys ⟨t, rd, rs1⟩ imm, 11), (Instr.brk ⟨t, rd, rs1⟩ imm, 12)] →
    ∃ u, exec c s = .next u ∧
      ((s.handler (tCluster t) (0xF0 + code)).valid = true → s.tookExc u t code (w64 (imm % 256)) ((s.thread t).pc + 4)) ∧
      ((s.handler (tCluster t) (0xF0 + code)).valid = false → (u.thread t).running = false)) ∧
  (∀ (s : State) (t rd rs1 arg : Nat), s.issues t 4 1 [] → (s.thread t).excActive = true → rd % 32 = 0 → rs1 % 32 = 0 →
    ∃ (u : State) (p : Nat), exec (.eret ⟨t, rd, rs1, arg⟩) s = .next u ∧ ((s.thread t).prev ≠ 3 → p = (s.thread t).prev) ∧
      ((s.thread t).prev = 3 → p ≤ 2) ∧
      u.thread t = { s.thread t with pc := (s.thread t).epc, priv := p, xask := (s.thread t).exask, excActive := false, wait := .ready }) ∧
  (∀ (s : State) (t rd rs1 arg kind n : Nat) (c : Instr), s.issues t 4 0 [] → (s.thread t).excActive = false →
    (s.handler (tCluster t) 0xF1).valid = true →
    (c, kind, n) ∈ [(Instr.done ⟨t, rd, rs1, arg⟩, 0, 0), (Instr.sys ⟨t, rd, rs1⟩ arg, 1, 0), (Instr.eret ⟨t, rd, rs1, arg⟩, 2, 1),
      (Instr.brk ⟨t, rd, rs1⟩ arg, 3, 0)] → (rd % 32 ≠ 0 ∨ rs1 % 32 ≠ 0 ∨ n = 1) →
    ∃ u, exec c s = .next u ∧ s.tookExc u t 1 (w64 (wordI 0x2B rd rs1 (kind * 256 + arg % 256))) (s.thread t).pc) ∧
  (∀ (s : State) (t rd rs1 imm : Nat) (a : Word), s.issues t 4 0 [] → (s.thread t).excActive = false →
    a = s.reg t (rs1 % 32) + (BitVec.ofNat 16 imm).signExtend 64 → a.toNat % 4 ≠ 0 → (s.handler (tCluster t) 0xF3).valid = true →
    ∃ u, exec (.jalr t rd rs1 imm) s = .next u ∧ s.tookExc u t 3 a (s.thread t).pc) ∧
  (∀ (s : State) (t rd rs1 csr : Nat) (c : Instr), s.issues t 4 0 [] → (s.thread t).excActive = false → (s.thread t).priv = 0 →
    (s.handler (tCluster t) 0xF2).valid = true → csr ∈ [0x400, 0x401, 0x402, 0x403, 0x404, 0x405, 0x408, 0x409, 0x40A, 0x40B] →
    (c = .csrr ⟨t, rs1, 0⟩ rd csr ∧ rs1 % 32 = 0 ∨ c = .csrw t rd rs1 csr ∨ c = .csrs t rd rs1 csr ∨ c = .csrc t rd rs1 csr) →
    ∃ u, exec c s = .next u ∧ (u.thread t).ecause = 2 ∧ (u.thread t).epc = (s.thread t).pc ∧ (u.thread t).g = (s.thread t).g ∧
      (u.thread t).pc = (s.handler (tCluster t) 0xF2).pc) ∧
  (∀ (s : State) (t rd rs1 imm : Nat) (c : Instr), s.issues t 4 0 [] → (s.thread t).excActive = true →
    c = .sys ⟨t, rd, rs1⟩ imm ∨ c = .brk ⟨t, rd, rs1⟩ imm →
    ∃ u, exec c s = .next u ∧ (u.thread t).running = false ∧ ∀ t', t' ≠ t → u.thread t' = s.thread t')

/-- Dispatch, the watchdog, lost handlers, engine retirement and the cluster commands. A dispatch starts the chosen thread at its
handler with g1 the frame, g2 the item's header, the item in the frame and every other register 0. The watchdog marks an expired
thread, takes its exception where it can, and kills it after the grace time. A lost handler's item goes to its FIFO. An engine
at the parity limit is retired and stops when its threads have ended; HT commit writes exactly one handler entry; an instruction
cache invalidation empties the caches of the cluster. (03_mirq_engines.md (R75, R76, R77, R78, R79, R80, R84, R85, R86, R97);
05_work_fifos.md (R136).) -/
def Obligations.DispatchAndEngines : Prop :=
  (∀ (s s1 : State) (c f g t ecc : Nat) (it : Item), s.inSafe = false → s.dev.power < 2 → s.fb F.CLU_CTRL_DISPATCH_EN [c] = true →
    c < s.clusterCount → s.pickFifo c = some f → s.pickEngine c = some g → (s.freeThreads g).head? = some t →
    s.wfTake (4 * c + f) = some (it, s1) → (s.handler c it.ty).valid = true → ecc ≠ 2 →
    ∃ u, exec (.dispatch c ecc) s = .next u ∧ (u.thread t).running = true ∧ (u.thread t).pc = (s.handler c it.ty).pc ∧
      (u.thread t).priv = (s.handler c it.ty).priv ∧ (u.thread t).xask = (s.handler c it.ty).psk ∧ (u.thread t).item = it ∧
      u.reg t 1 = w64 (2 ^ 63 + t % 4 * 0x3000) ∧ u.reg t 2 = it.csr ∧ (∀ i, 2 < i → u.reg t i = 0) ∧
      (u.thread t).startAt = s.loc ∧ (u.thread t).wait = .ready ∧ u.mread (frameKey t 0) it.bytes.length = it.bytes) ∧
  (∀ (s : State) (t : Nat) (due : Word), (s.thread t).running = true → (s.thread t).budget ≠ 0 → (s.thread t).expired = false →
    due = w64 ((s.thread t).startAt.toNat + (s.thread t).budget * ticksPerUs) → s.locReached due = true → s.inSafe = false →
    (s.thread t).excActive = true ∨ (∃ k, (s.thread t).wait = .drain k) ∨ (s.thread t).wait.isAgain = true →
    ∃ u, exec (.watchdog t) s = .next u ∧ u.thread t = { s.thread t with
      expired := true, pendWd := !(s.thread t).excActive,
      graceEnd := some (w64 (due.toNat + (s.rd R.CLU_WD_GRACE [tCluster t]).toNat * ticksPerUs)) }) ∧
  (∀ (s : State) (t : Nat), (s.thread t).running = true → (s.thread t).budget ≠ 0 → (s.thread t).expired = false →
    s.locReached (w64 ((s.thread t).startAt.toNat + (s.thread t).budget * ticksPerUs)) = true → s.inSafe = false →
    (s.thread t).excActive = false → (s.thread t).wait = .ready → (s.handler (tCluster t) 0xFA).valid = true →
    ∃ u, exec (.watchdog t) s = .next u ∧ (u.thread t).expired = true ∧ (u.thread t).excActive = true ∧ (u.thread t).ecause = 10 ∧
      (u.thread t).eval = w64 (s.thread t).budget ∧ (u.thread t).epc = (s.thread t).pc ∧
      (u.thread t).pc = (s.handler (tCluster t) 0xFA).pc) ∧
  (∀ (s : State) (t : Nat) (g : Word), (s.thread t).graceEnd = some g → (s.thread t).running = true → s.locReached g = true →
    s.inSafe = false → ∃ u, exec (.watchdogKill t) s = .next u ∧ (u.thread t).running = false ∧ (u.thread t).g = (s.thread t).g) ∧
  (∀ (s s1 : State) (c k : Nat) (it : Item) (rest : List Item), (s.cluster c).lost = it :: rest → s.inSafe = false →
    s.wfSteered c (s.fd F.WF_STEER_LOST_FIFO [c]) = some k → s.wfStart k true it = some s1 →
    ∃ u, exec (.handlerLost c) s = .next u ∧ (u.cluster c).lost = rest ∧ u.fifos = s1.fifos) ∧
  (∀ (s : State) (g : Nat), (s.engine g).retired = false → s.fd F.CLU_RETIRE_CFG_COUNT [g / 8] ≤ s.recentParity g →
    ∃ u, exec (.engineRetired g) s = .next u ∧ (u.engine g).retired = true ∧ u.freeThreads g = [] ∧ u.threads = s.threads) ∧
  (∀ (s : State) (g : Nat), (s.engine g).retired = true → (s.engine g).stopped = false →
    (∀ i, i < 4 → (s.thread (4 * g + i)).running = false) →
    ∃ u, exec (.engineStop g) s = .next u ∧ (u.engine g).stopped = true) ∧
  (∀ (s : State) (c n : Nat), s.inSafe = false → s.fb F.CLU_HT_COMMIT_GO [c] = true → n = s.fd F.CLU_HT_COMMIT_INDEX [c] →
    ∃ u, exec (.htCommit c) s = .next u ∧ u.fb F.CLU_HT_COMMIT_GO [c] = false ∧
      u.mnat (csmKey c (0xFF000 + 16 * n)) 8 = (s.rd R.CLU_HT_STAGE0 [c]).toNat ∧
      u.mnat (csmKey c (0xFF008 + 16 * n)) 8 = (s.rd R.CLU_HT_STAGE1 [c]).toNat ∧
      (∀ k, (k < csmKey c (0xFF000 + 16 * n) ∨ csmKey c (0xFF010 + 16 * n) ≤ k) → u.mem.read k = s.mem.read k)) ∧
  (∀ (s : State) (c : Nat), s.inSafe = false → s.fb F.CLU_CTRL_ICACHE_INV [c] = true →
    ∃ u, exec (.icacheInv c) s = .next u ∧ (∀ e, e < 8 → (u.engine (8 * c + e)).icache = []) ∧ u.fb F.CLU_CTRL_ICACHE_INV [c] = false ∧
      u.threads = s.threads ∧ u.mem = s.mem)

/-- What an engine's instruction leaves as it was. Every instruction named leaves every other thread as it was, every part of the
state listed in the statement, and, but for atomics, every byte of memory. (03_mirq_engines.md (R59, R61, R63, R70, R81).) -/
def Obligations.EngineFrame : Prop :=
  ∀ (s u : State) (c : Instr) (t a1 a2 a3 a4 a5 : Nat),
    c ∈ [.aluReg t a1 a2 a3 a4, .mulDiv t a1 a2 a3 a4, .aluImm t a1 a2 a3 a4 a5, .branch t a1 a2 a3 a4, .jal t a1 a2, .jalr t a1 a2 a3,
      .atomic t a1 a2 a3 a4, .fence ⟨t, a1, a2, a3, a4⟩, .fenceSt ⟨t, a1, a2, a3, a4⟩, .fenceI ⟨t, a1, a2, a3, a4⟩, .csrr ⟨t, a2, a4⟩ a1 a3, .csrw t a1 a2 a3,
      .csrs t a1 a2 a3, .csrc t a1 a2 a3, .done ⟨t, a1, a2, a3⟩, .sys ⟨t, a1, a2⟩ a3, .eret ⟨t, a1, a2, a3⟩, .brk ⟨t, a1, a2⟩ a3, .pause ⟨t, a1, a2, a4⟩ a3] →
    exec c s = .next u →
    s.keeps u [.inv, .ops, .orders, .rings, .net, .mtch, .aml, .host, .eptCache, .ports, .lanes, .lims, .limCache, .limRefill, .route,
      .halfLatch, .recLatch, .sbAddr, .variant, .pending] ∧
    (∀ t', t' ≠ t → u.thread t' = s.thread t') ∧
    ((∀ a b d e, c ≠ .atomic t a b d e) → s.same u .ram)

/-! ## Fabric instructions and operations -/

/-- fput, fget, famo, fsend, fflush and fmcast are accepted with their handle and packets. fput, fget, famo, fsend and fflush of a
block that keeps its rules, whose key the level may use and whose endpoint resolves, give the handle of a new open operation of
that block, with the destination and, for puts and sends, the packet count; fget, famo and fflush do so on a half that is not in
ERROR, and an fflush on a half in ERROR ends with the latched status. fmcast gives its handle with the packet count. A block
that breaks a rule ends with BAD_BLOCK, one that is denied with ACCESS_DENIED, and an endpoint that does not resolve with
NO_ENDPOINT; these three are stated of fget, fsend and fflush. (04_mirq_fabric_instructions.md (R98, R99, R100, R101, R102,
R103, R104, R109); 04_mirq_fabric_instructions.md (R110, R112, R113, R114, R115, R117); 13_routing.md (R315).) -/
def Obligations.FabricOperations : Prop :=
  (∀ (s : State) (t rd rs1 imm k kind mask dn f : Nat) (b : List Byte) (c : Instr),
    (c, kind, mask) ∈ [(Instr.fput t rd rs1 imm, 1, 0x800F), (.fget t rd rs1 imm, 2, 0x8000), (.famo t rd rs1 imm, 3, 0x8000),
      (.fsend t rd rs1 imm, 4, 0x8000), (.fflush t rd rs1 imm, 5, 0x8000)] →
    immWithin imm mask = true → lflagsOk kind (imm % 16) = true → s.accepts t rs1 0 b k → s.validBlock kind (imm % 16) b →
    blockDenied kind (s.thread t).priv (s.thread t).xask b = false → (s.resolve (bDest b)).1 = some (dn, f) →
    (kind = 2 ∨ kind = 3 ∨ kind = 5 → ∀ r, s.threadHalf (tCluster t) (bDest b) (bChan b) = some r → (s.half r).state ≠ .error) →
    ∃ u, exec c s = .next u ∧ s.gotHandle u t rd k ∧ (u.op k).status = none ∧ (u.op k).kind = kind ∧ (u.op k).block = b ∧
      (u.op k).dstDn = dn ∧ (u.op k).dstFunc = f ∧ (u.op k).formed = 0 ∧ (u.op k).held = false ∧
      (kind = 1 ∨ kind = 4 → (u.op k).n = max 1 ((bLen b + pmtu (nbits (bSrc b) 3 2) - 1) / pmtu (nbits (bSrc b) 3 2)))) ∧
  (∀ (s : State) (t rd rs1 k dn f r : Nat) (b : List Byte), s.accepts t rs1 0 b k → s.validBlock 5 0 b →
    (s.resolve (bDest b)).1 = some (dn, f) → s.threadHalf (tCluster t) (bDest b) (bChan b) = some r → (s.half r).state = .error →
    ∃ u, exec (.fflush t rd rs1 0) s = .next u ∧ s.gotHandle u t rd k ∧ (u.op k).status = some (s.half r).lastErr) ∧
  (∀ (s : State) (t rd rs1 imm k : Nat) (b : List Byte), immWithin imm 0x800C = true → s.accepts t rs1 1 b k →
    s.validBlock 7 (imm % 16) b →
    ∃ u, exec (.fmcast t rd rs1 imm) s = .next u ∧ s.gotHandle u t rd k ∧ (u.op k).status = none ∧ (u.op k).block = b ∧
      (u.op k).n = max 1 ((bLen b + pmtu (nbits (bSrc b) 4 3) - 1) / pmtu (nbits (bSrc b) 4 3))) ∧
  (∀ (s : State) (t rd rs1 k : Nat) (b : List Byte), s.accepts t rs1 0 b k → ¬ s.validBlock 2 0 b →
    ∃ u, exec (.fget t rd rs1 0) s = .next u ∧ s.gotHandle u t rd k ∧ (u.op k).status = some 2) ∧
  (∀ (s : State) (t rd rs1 k : Nat) (b : List Byte), s.accepts t rs1 0 b k → s.validBlock 4 0 b →
    blockDenied 4 (s.thread t).priv (s.thread t).xask b = true →
    ∃ u, exec (.fsend t rd rs1 0) s = .next u ∧ s.gotHandle u t rd k ∧ (u.op k).status = some 3) ∧
  (∀ (s : State) (t rd rs1 k : Nat) (b : List Byte), s.accepts t rs1 0 b k → s.validBlock 5 0 b →
    (s.resolve (bDest b)).1 = none →
    ∃ u, exec (.fflush t rd rs1 0) s = .next u ∧ s.gotHandle u t rd k ∧ (u.op k).status = some 0x0E)

/-- ffence, qfetch, cqpost, mpost, mmatch, mcancel, trig, dma, tlbinv and amlsub do their work. Each accepted block gives its
handle: ffence ends at once with nothing open before it; qfetch of one entry brings it to the frame and counts it fetched;
cqpost commits its completion with the entry given; mpost appends a receive that meets no message; mmatch takes the first posted
entry that fits; mcancel removes the entry of its reference; trig ends at once when its time has come, arms an event or a launch
otherwise, or finds no room; dma takes a mover; tlbinv starts an invalidation in every cluster; amlsub opens its slot.
(04_mirq_fabric_instructions.md (R100 to R104); 04_mirq_fabric_instructions.md (R116, R118, R119, R122, R125, R127, R130, R131);
12_collectives.md (R296).) -/
def Obligations.UnitCommands : Prop :=
  (∀ (s : State) (t rd rs1 k imm : Nat) (b : List Byte), imm ∈ [0, 0x8000] → s.accepts t rs1 0 b k → s.validBlock 6 0 b →
    ∃ u, exec (.ffence t rd rs1 imm) s = .next u ∧ s.gotHandle u t rd k ∧
      (s.threadOps t (s.thread t).run = [] → (u.op k).status = some 0)) ∧
  (∀ (s : State) (t rd rs1 k qn off imm : Nat) (b data : List Byte), imm ∈ [0, 0x8000] → s.accepts t rs1 1 b k → s.validBlock 8 0 b →
    qn = leAt b 8 4 → leAt b 12 1 = 1 → off = leAt b 14 2 → (s.queue qn).state = .ready → (s.queue qn).cluster = tCluster t →
    (s.queue qn).handlerServed = true → s.adapterHalted = false → (s.cq (s.queue qn).cn).state = .ready → (s.queue qn).left ≠ 0 →
    s.canMaster (s.queue qn).func = true → s.recvHeld qn = false → s.dev.power = 0 → s.linkAwake (s.queue qn).func = true →
    data.length = 64 → weOwn data = true → malformed ((s.queue qn).kind qn) data = none →
    ∃ u, exec (.qfetch t rd rs1 imm [data]) s = .next u ∧ s.gotHandle u t rd k ∧ (u.op k).status = some 0 ∧ (u.op k).bytes = 64 ∧
      u.mread (frameKey t off) 64 = data ∧ (u.queue qn).fetched = (s.queue qn).fetched + 1) ∧
  (∀ (s : State) (t rd rs1 k cn imm : Nat) (b : List Byte), imm ∈ [0, 0x8000] → s.accepts t rs1 1 b k → s.validBlock 9 0 b → cn = leAt b 8 2 →
    s.adapterHalted = false → (s.cq cn).state = .ready → s.cqRoom cn = true → nbit (leAt b 12 4) 31 = false →
    ∃ u, exec (.cqpost t rd rs1 imm) s = .next u ∧ s.gotHandle u t rd k ∧ (u.op k).status = some 0 ∧
      ∃ c ∈ (u.cq cn).direct ++ (u.cq cn).held, c.raw.take 31 = (postEntry b).take 31 ∧ c.work = none) ∧
  (∀ (s : State) (t rd rs1 k ctx imm : Nat) (b : List Byte), imm ∈ [0, 0x8000] → s.accepts t rs1 1 b k → s.validBlock 10 0 b → ctx = leAt b 8 2 →
    ctx < 2 ^ 15 → s.homeOf ctx = tCluster t → s.mtch.waiting = [] →
    (s.mctx ctx).unexp.findIdx? (fun e => (MatchEntry.mk (nbit (leAt b 11 1) 0) (leAt b 12 4 % 2 ^ 24) (leAt b 16 8) (leAt b 24 8)
      (leAt b 32 8) 0).fits e.src e.tag) = none →
    s.storeUsed (tCluster t) < 8192 → (s.mctx ctx).posted.length < s.fd F.CLU_MATCH_CFG_POST_MAX [tCluster t] →
    ∃ u, exec (.mpost t rd rs1 imm) s = .next u ∧ s.gotHandle u t rd k ∧ (u.op k).status = some 0 ∧
      (u.mctx ctx).posted = (s.mctx ctx).posted ++
        [⟨nbit (leAt b 11 1) 0, leAt b 12 4 % 2 ^ 24, leAt b 16 8, leAt b 24 8, leAt b 32 8, (s.mctx ctx).next⟩]) ∧
  (∀ (s : State) (t rd rs1 k ctx i imm : Nat) (e : MatchEntry) (b : List Byte), imm ∈ [0, 0x8000] → s.accepts t rs1 1 b k → s.validBlock 10 1 b →
    ctx = leAt b 8 2 → ctx < 2 ^ 15 → s.homeOf ctx = tCluster t → s.mtch.waiting = [] →
    (s.mctx ctx).posted.findIdx? (fun p => p.fits (leAt b 12 4 % 2 ^ 24) (leAt b 16 8)) = some i → (s.mctx ctx).posted[i]? = some e →
    ∃ u, exec (.mmatch t rd rs1 imm) s = .next u ∧ s.gotHandle u t rd k ∧ (u.op k).status = some 0 ∧ (u.op k).result = w64 e.ref ∧
      nbit (u.op k).cflags 4 = true ∧ (u.mctx ctx).posted = (s.mctx ctx).posted.eraseIdx i) ∧
  (∀ (s : State) (t rd rs1 k ctx i imm : Nat) (b : List Byte), imm ∈ [0, 0x8000] → s.accepts t rs1 1 b k → s.validBlock 10 2 b → ctx = leAt b 8 2 →
    ctx < 2 ^ 15 → s.homeOf ctx = tCluster t → s.mtch.waiting = [] →
    (s.mctx ctx).posted.findIdx? (fun p => p.ref == leAt b 32 8) = some i →
    ∃ u, exec (.mcancel t rd rs1 imm) s = .next u ∧ s.gotHandle u t rd k ∧ (u.op k).status = some 0 ∧
      (u.mctx ctx).posted = (s.mctx ctx).posted.eraseIdx i) ∧
  (∀ (s : State) (t rd rs1 k imm : Nat) (b : List Byte), imm ∈ [0, 0x8000] → s.accepts t rs1 1 b k → s.validBlock 11 0 b → leAt b 16 1 = 0 →
    s.ftValid = true →
    ∃ u, exec (.trig t rd rs1 imm) s = .next u ∧ s.gotHandle u t rd k ∧
      (s.ftReached (w64 (leAt b 8 8)) = true → (u.op k).status = some 0 ∧ nbit (u.op k).cflags 2 = true) ∧
      (s.ftReached (w64 (leAt b 8 8)) = false → (s.cluster (tCluster t)).trigs.length < 256 → (u.op k).status = none ∧
        ∃ x, (u.cluster (tCluster t)).trigs = (s.cluster (tCluster t)).trigs ++ [x] ∧ x.slot = k ∧ x.fireAt = w64 (leAt b 8 8) ∧
          x.launch = false) ∧
      (s.ftReached (w64 (leAt b 8 8)) = false → 256 ≤ (s.cluster (tCluster t)).trigs.length → (u.op k).status = some 0x13)) ∧
  (∀ (s : State) (t rd rs1 k imm kind fl : Nat) (b lb : List Byte), imm ∈ [0, 0x8000] → s.accepts t rs1 1 b k → s.validBlock 11 0 b →
    leAt b 16 1 = 1 → s.ftValid = true → s.ftReached (w64 (leAt b 8 8)) = false → (s.cluster (tCluster t)).trigs.length < 256 →
    lb = s.mread (frameKey t (leAt b 18 2)) 64 → kind = blkKind lb → fl = leAt b 20 2 → launchable kind = true → lflagsOk kind fl = true →
    s.blockOk kind fl lb = true → blockDenied kind (s.thread t).priv 0 lb = false →
    ∃ u, exec (.trig t rd rs1 imm) s = .next u ∧ s.gotHandle u t rd k ∧ (u.op k).status = none ∧
      (u.cluster (tCluster t)).trigs = (s.cluster (tCluster t)).trigs ++ [⟨k, w64 (leAt b 8 8), true, lb, fl⟩]) ∧
  (∀ (s : State) (t rd rs1 k m imm : Nat) (b : List Byte), imm ∈ [0, 1, 0x8000, 0x8001] → s.accepts t rs1 1 b k → s.validBlock 12 0 b →
    blockDenied 12 (s.thread t).priv (s.thread t).xask b = false →
    (dSrc b = 2 → ∃ x, s.pktRef (tCluster t) (dSrcKey b) = some x ∧ dSrcVa b + dLen b ≤ x.pkt.payload.length) →
    (dSrc b = 4 → ((s.fetched t 4).keyCheck (tCluster t) (dSrcKey b) (dIso b)).1 = none) →
    (dDst b = 2 → ((if dSrc b = 4 then ((s.fetched t 4).keyCheck (tCluster t) (dSrcKey b) (dIso b)).2.2 else s.fetched t 4).keyCheck
      (tCluster t) (dDstKey b) (dIso b)).1 = none) → s.freeMover = some m →
    ∃ u, exec (.dma t rd rs1 imm) s = .next u ∧ s.gotHandle u t rd k ∧ (u.op k).status = none ∧ (u.op k).mover = some m ∧
      u.host.movers.get none m = some k) ∧
  (∀ (s : State) (t rd rs1 k imm : Nat) (b : List Byte), imm ∈ [0, 0x8000] → s.accepts t rs1 2 b k → s.validBlock 13 0 b → s.net.invals.length < 16 → s.net.invalQueue = [] →
    ∃ u, exec (.tlbinv t rd rs1 imm) s = .next u ∧ s.gotHandle u t rd k ∧ (u.op k).status = none ∧
      u.net.invals = s.net.invals ++ [{ scope := leAt b 8 1, ask := leAt b 12 4 % 2 ^ 20, va := leAt b 16 8, len := leAt b 24 8,
                                        waiting := List.range s.clusterCount, op := some k, cmd := none }]) ∧
  (∀ (s : State) (t rd rs1 k imm : Nat) (b : List Byte), imm ∈ [0, 0x8000] → s.accepts t rs1 1 b k → s.validBlock 14 0 b → amSlot b < 256 * s.units →
    (amIn b = 0 ∨ amOut b = 0 ∨ amIn b = amOut b) → s.amlNever b = false → s.slotOp (amSlot b) = none → s.amlSpace b = true →
    (∀ e ∈ s.aml.slots, e.2.op ≠ some k) →
    ∃ u, exec (.amlsub t rd rs1 imm) s = .next u ∧ s.gotHandle u t rd k ∧ (u.op k).status = none ∧
      u.aslot (amSlot b) = { AmlSlot.init with op := some k, w := s.stripeWidth, u := s.units })

/-- rdft, rdlt, rdts, waitft, opstat, opwait, opabort, wfpush, wfpop and pktrel. With reserved fields zero, rdft, rdlt and rdts give
FT, INV_LOCAL and the status word; waitft answers at once or waits, and its wake gives the code for expiry, invalid time,
holdover or success; opstat and opwait of an unknown handle give 0xFE, opstat of a known one its status or 0xFF, opwait its
status or a wait; opabort ends an open get with ABORTED. wfpush writes its item at the FIFO's port or answers that there is no
room; wfpop takes the head or answers 0; pktrel releases the packet. (04_mirq_fabric_instructions.md (R120, R121, R123, R124,
R129, R132); 05_work_fifos.md (R134, R147, R148).) -/
def Obligations.TimeAndHandles : Prop :=
  (∀ (s : State) (t rd rs1 rs2 fn : Nat), s.issues t 4 0 [] → rs1 % 32 = 0 → rs2 % 32 = 0 → fn % 2 ^ 11 < 4 →
    (∃ u, exec (.rdft ⟨t, rs1, rs2, fn⟩ rd) s = .next u ∧ u.thread t = (s.thread t).wrote (rd % 32) s.ft 4) ∧
    (∃ u, exec (.rdlt ⟨t, rs1, rs2⟩ rd) s = .next u ∧ u.thread t = (s.thread t).wrote (rd % 32) s.loc 4) ∧
    (∃ u, exec (.rdts ⟨t, rs1, rs2⟩ rd) s = .next u ∧ u.thread t = (s.thread t).wrote (rd % 32)
      (w64 (s.inv.state.code * 8 + b2n s.inv.specMet * 4 + b2n s.holdover * 2 + b2n s.ftValid)) 4)) ∧
  (∀ (s : State) (t rd rs1 rs2 : Nat), s.issues t 4 0 [rs1 % 32] → rs2 % 32 = 0 →
    ∃ u, exec (.waitft ⟨t, rs2⟩ rd rs1) s = .next u ∧
      (s.ftValid = false → u.thread t = (s.thread t).wrote (rd % 32) 1 4) ∧
      (s.ftValid = true → s.ftReached (s.reg t (rs1 % 32)) = true → u.thread t = (s.thread t).wrote (rd % 32) 0 4) ∧
      (s.ftValid = true → s.ftReached (s.reg t (rs1 % 32)) = false →
        u.thread t = { s.thread t with wait := .ft (s.reg t (rs1 % 32)) (rd % 32) })) ∧
  (∀ (s : State) (t rd : Nat) (v : Word), (s.thread t).wait = .ft v rd → s.inSafe = false → (s.thread t).running = true →
    ∃ u, exec (.waitftWake t) s = .next u ∧
      ((s.thread t).expired = true → u.thread t = (s.thread t).wrote rd 3 4) ∧
      ((s.thread t).expired = false → s.ftValid = false → u.thread t = (s.thread t).wrote rd 4 4) ∧
      ((s.thread t).expired = false → s.ftValid = true → s.ftReached v = true →
        u.thread t = (s.thread t).wrote rd (if s.holdover then 2 else 0) 4)) ∧
  (∀ (s : State) (t rd rs1 rs2 fn : Nat), s.issues t 4 0 [rs1 % 32] → rs2 % 32 = 0 → fn % 2 ^ 11 < 4 → s.handleOp (s.reg t (rs1 % 32)) = none →
    (∃ u, exec (.opstat ⟨t, rs2, fn⟩ rd rs1) s = .next u ∧ u.thread t = (s.thread t).wrote (rd % 32) 0xFE 4) ∧
    (∃ u, exec (.opwait ⟨t, rs2⟩ rd rs1) s = .next u ∧ u.thread t = (s.thread t).wrote (rd % 32) 0xFE 4)) ∧
  (∀ (s : State) (t rd rs1 rs2 fn k : Nat), s.issues t 4 0 [rs1 % 32] → rs2 % 32 = 0 → fn % 2 ^ 11 < 4 → s.handleOp (s.reg t (rs1 % 32)) = some k →
    (∃ u, exec (.opstat ⟨t, rs2, fn⟩ rd rs1) s = .next u ∧ u.thread t = (s.thread t).wrote (rd % 32) (w64 ((s.op k).status.getD 0xFF)) 4) ∧
    (∃ u, exec (.opwait ⟨t, rs2⟩ rd rs1) s = .next u ∧
      (∀ st, (s.op k).status = some st → u.thread t = (s.thread t).wrote (rd % 32) (w64 st) 4) ∧
      ((s.op k).status = none → u.thread t = { s.thread t with wait := .op k (s.op k).gen (rd % 32) })) ∧
    ((∀ e ∈ s.ops, e.2.held = false) → (s.op k).status = none → (s.op k).kind = 2 →
      ∃ u, exec (.opabort ⟨t, rs2⟩ rd rs1) s = .next u ∧ (u.op k).status = some 1 ∧ u.thread t = (s.thread t).wrote (rd % 32) 0 4)) ∧
  (∀ (s : State) (t rd rs1 rs2 fn v ty len c f key : Nat), fn % 2 ^ 11 < 2 → s.issues t 4 1 [rs1 % 32, rs2 % 32] → v = (s.reg t (rs2 % 32)).toNat →
    v < 2 ^ 24 → nbit v 19 = false → ty = nbits v 15 8 → len = nbits v 23 20 + 1 → c = v % 64 → f = nbits v 7 6 →
    c < s.clusterCount → ty < 0xEF → ((s.thread t).priv = 2 ∨ 0x80 ≤ ty) → (s.reg t (rs1 % 32)).toNat % 64 = 0 →
    s.ldmOk t (s.reg t (rs1 % 32)).toNat (64 * len) = true → key = ldmAddrKey t (s.reg t (rs1 % 32)).toNat → s.bad key (64 * len) = false →
    ∃ u, exec (.wfpush ⟨t, fn⟩ rd rs1 rs2) s = .next u ∧
      (s.wfRoom (4 * c + f) ((s.thread t).priv == 2) len = false → u.thread t = (s.thread t).wrote (rd % 32) 1 4 ∧ u.fifos = s.fifos) ∧
      (s.wfRoom (4 * c + f) ((s.thread t).priv == 2) len = true → u.thread t = (s.thread t).wrote (rd % 32) 0 4 ∧
        ∃ it, (u.fifo (4 * c + f)).writing =
            (s.fifo (4 * c + f)).writing ++ [⟨some (s.fifo (4 * c + f)).fill, (s.thread t).priv == 2, it, .plain⟩] ∧
          it.ty = ty ∧ it.len = len ∧ it.prio = nbits v 18 16 ∧ it.srcCluster = tCluster t ∧
          it.src = (if c = tCluster t then 3 else 4) ∧ it.body = (s.mread key (64 * len)).take 56 ++ (s.mread key (64 * len)).drop 64)) ∧
  (∀ (s : State) (t rd rs1 rs2 ecc key f : Nat), ecc ≠ 2 → s.issues t 4 2 [rs1 % 32, rs2 % 32] → f = (s.reg t (rs2 % 32)).toNat → f < 4 →
    s.wfPolled (4 * tCluster t + f) = true →
    s.ldmOk t (s.reg t (rs1 % 32)).toNat 1024 = true → key = ldmAddrKey t (s.reg t (rs1 % 32)).toNat →
    ∃ u, exec (.wfpop t rd rs1 rs2 ecc) s = .next u ∧
      ((s.fifo (4 * tCluster t + f)).head = none → u.thread t = (s.thread t).wrote (rd % 32) 0 4 ∧ u.mem = s.mem) ∧
      (∀ it, (s.fifo (4 * tCluster t + f)).head = some it → u.thread t = (s.thread t).wrote (rd % 32) it.header 4 ∧
        u.mread key it.bytes.length = it.bytes)) ∧
  (∀ (s : State) (t rd rs1 rs2 v : Nat) (x : PktRef), s.issues t 4 1 [rs1 % 32] → rd % 32 = 0 → rs2 % 32 = 0 → v = (s.reg t (rs1 % 32)).toNat → v < 2 ^ 32 →
    s.pktRef (tCluster t) v = some x → (s.half x.conn).rx.released.contains (x.pkt.seq, v) = true →
    ∃ u, exec (.pktrel ⟨t, rd, rs2⟩ rs1) s = .next u ∧ u.pktRef (tCluster t) v = none ∧
      (∀ e ∈ (u.half x.conn).rx.released, e.1 ≠ x.pkt.seq) ∧
      u.thread t = { s.thread t with pc := (s.thread t).pc + 4, wait := .ready })

/-- A trigger fires, a DMA ends, an operation times out, its completion is delivered, and a packet is formed. A due event trigger
ends its operation with FT_AUX the fire time, and a due launch makes the operation that its block describes; a DMA of immediate
bytes writes exactly them and frees its mover, and a DMA of one step leaves the memory that its read and its write give; an open
get, AMO or flush past its deadline ends with TIMEOUT; a status word is written where the block says, or a completion item goes
to the port of the thread's FIFO; an inline put forms one packet with its destination, endpoint, sequence number, address and
payload. (04_mirq_fabric_instructions.md (R105, R106, R110, R111, R112, R126, R127); 05_work_fifos.md (R138, R148).) -/
def Obligations.OperationProgress : Prop :=
  (∀ (s : State) (c h k : Nat) (x : Trigger), k = 4096 * c + h % 4096 → (s.cluster c).trigs.find? (fun t => t.slot == k) = some x →
    x.launch = false → (s.op k).status = none → s.ftValid = true → s.ftReached x.fireAt = true → s.inSafe = false →
    ∃ u, exec (.triggerFire c h) s = .next u ∧ (u.op k).status = some 0 ∧ (u.op k).ftAux = x.fireAt ∧
      ∀ y ∈ (u.cluster c).trigs, y.slot ≠ k) ∧
  (∀ (s : State) (c h k : Nat) (x : Trigger), k = 4096 * c + h % 4096 → (s.cluster c).trigs.find? (fun t => t.slot == k) = some x →
    x.launch = true → s.ftValid = true → s.ftReached x.fireAt = true → s.inSafe = false →
    ∃ u, exec (.triggerFire c h) s = .next u ∧ (u.op k).kind = blkKind x.block ∧ (u.op k).ftAux = x.fireAt ∧
      nbit (u.op k).cflags 1 = true ∧ ∀ y ∈ (u.cluster c).trigs, y.slot ≠ k) ∧
  (∀ (s : State) (c slot k m n a : Nat) (b : List Byte), k = 4096 * c + slot % 4096 → (s.op k).kind = 12 → (s.op k).status = none →
    (s.op k).held = false → (s.op k).aborting = false → (s.op k).mover = some m → (s.op k).bytes = 0 → s.inSafe = false → b = (s.op k).block → dSrc b = 3 → dDst b = 1 →
    n = dLen b → 1 ≤ n → n ≤ 8 → a = dDstVa b → a + n ≤ hbmSize →
    ∃ u, exec (.dmaDone c slot 0 []) s = .next u ∧ s.storedOnly u (hbmKey a) n (w64 (leAt b 56 8)) ∧ (u.op k).status = some 0 ∧
      (u.op k).bytes = n ∧ u.host.movers.get none m = none) ∧
  (∀ (s s1 s2 : State) (c slot k st n : Nat) (b data bs : List Byte), k = 4096 * c + slot % 4096 → (s.op k).kind = 12 →
    (s.op k).status = none → (s.op k).held = false → (s.op k).aborting = false → (s.op k).mover.isSome = true → (s.op k).bytes = 0 →
    s.inSafe = false → b = (s.op k).block → dSrc b ≠ 2 → n = dLen b → 1 ≤ n → n ≤ 256 → s.dmaRead k 0 n st data = (.data bs, s1) →
    s1.writeAt c (dmaDest b) 0 bs (.op k) = (.data [], s2) →
    ∃ u, exec (.dmaDone c slot st data) s = .next u ∧ u.mem = s2.mem ∧ (u.op k).status = some 0 ∧ (u.op k).bytes = n) ∧
  (∀ (s : State) (c slot k : Nat) (d : Word), k = 4096 * c + slot % 4096 → (s.op k).deadline = some d → (s.op k).status = none →
    (s.op k).kind ∈ [2, 3, 5] → s.inSafe = false → s.locReached d = true →
    ∃ u, exec (.opTimeout c slot) s = .next u ∧ (u.op k).status = some 0x0A) ∧
  (∀ (s : State) (c slot k t run st : Nat), k = 4096 * c + slot % 4096 → (s.op k).status = some st → st ≠ 2 → (s.op k).delivered = false → (s.op k).stage = 0 → s.inSafe = false →
    (s.op k).origin = .thread t run → (∀ e ∈ s.ops, e.2.held = false) → blkMode (s.op k).block = 1 →
    ∃ u, exec (.opDone c slot) s = .next u ∧ (u.op k).delivered = true ∧ u.fifos = s.fifos ∧
      u.mnat (frameKey t (blkStatusOff (s.op k).block)) 8 =
        ((s.op k).bytes * 2 ^ 32 + 2 ^ 16 + (s.op k).cflags * 2 ^ 8 + st) % 2 ^ 64) ∧
  (∀ (s : State) (c slot k t run st f : Nat), k = 4096 * c + slot % 4096 → (s.op k).status = some st → (s.op k).delivered = false → (s.op k).stage ≠ 3 → s.inSafe = false →
    (s.op k).origin = .thread t run → (∀ e ∈ s.ops, e.2.held = false) → blkMode (s.op k).block = 0 → s.itemWaits k (s.op k) = false →
    f = 4 * c + blkFifo (s.op k).block → s.wfRoom f true 2 = true →
    ∃ u, exec (.opDone c slot) s = .next u ∧ (u.op k).stage = 3 ∧ (u.fifo f).writing =
      (s.fifo f).writing ++ [⟨some (s.fifo f).fill, true, (s.op k).item k, .opDone k (s.op k).order⟩]) ∧
  (∀ (s : State) (c slot k t run r : Nat) (b : List Byte), slot < 4096 → k = 4096 * c + slot → s.inSafe = false → (s.op k).kind = 1 → (s.op k).origin = .thread t run →
    b = (s.op k).block → bSrc b % 4 = 1 → (s.op k).status = none → (s.op k).held = false → (s.op k).voiding = none → (s.op k).n = 1 →
    (s.op k).formed = 0 → (s.op k).lim = none → (s.op k).conn = some r → nbit (s.op k).cflags 1 = false → s.formsPackets = true →
    s.routable (s.op k).dstDn (bTc b) = true →
    ∃ u, exec (.packetForm c slot 0 []) s = .next u ∧ (u.op k).formed = 1 ∧ (u.op k).bytes = (s.op k).bytes + min (pmtu (nbits (bSrc b) 3 2)) (bLen b) ∧
      ∃ x, u.route.tiles.get [] (c / 4) = s.route.tiles.get [] (c / 4) ++ [x] ∧ x.src = none ∧ x.op = some (k, (s.op k).order) ∧ x.pkt.op = opPut ∧
        x.pkt.dstDn = (s.op k).dstDn ∧ x.pkt.dstEp = bDest b ∧ x.pkt.seq = bSeq b ∧ x.pkt.va = bVaB b ∧
        x.pkt.payload = byteSlice (bInline b) 0 (min (pmtu (nbits (bSrc b) 3 2)) (bLen b)))

/-! ## Work entries, packets and acknowledgements -/

/-- Work entries become operations on their connection, wait for the window, or end with their code; receives at their match server.
nop ends with success. put, putImm, get, amo, send and flush: a valid entry that the window admits becomes an operation of its
kind on the queue's half, open, with the destination that the endpoint resolves to; one that the window does not admit, or that
finds others waiting, waits behind them on the half; one with no connection, a half not established or an invalid argument ends
with its code. recv, once its server has come to its item: posted behind the others of its context, or matched with the first
waiting message, or waiting for room in the list, or forwarded to its home, or kept behind what its queue keeps, or ended with
ACCESS for a context of another function. overflowForward sends the oldest message or receive of a list to its home when that
has room, and changes nothing of the matching otherwise. How a server treats items that are not its own is this model's choice
(log entries 59 and 153). (06_host_rings.md (R153, R154, R155, R156, R160); 09_ordering_completion_congestion.md (R237);
11_matching.md (R262, R263, R264, R267, R270, R280).) -/
def Obligations.WorkEntries : Prop :=
  (∀ (s : State) (qn idx : Nat) (e : OutEntry), s.starts qn idx 7 e →
    ∃ u, exec (.nop qn idx) s = .next u ∧ s.ended u qn e 0) ∧
  (∀ (s : State) (qn idx r k op kind dn f : Nat) (e : OutEntry) (c : Instr),
    (c, op, kind) ∈ [(Instr.put qn idx, 1, 1), (.putImm qn idx, 2, 1), (.get qn idx, 3, 2), (.amo qn idx, 4, 3), (.send qn idx, 5, 4),
      (.flush qn idx, 6, 5)] →
    s.starts qn idx op e → (s.queue qn).conn = some r → (s.half r).state = .established → (s.half r).invalidArg e.bytes = none →
    (s.half r).pendingOps = [] → s.admits r (s.workPackets (r / 16384) e.bytes) = true → s.freeSlot (r / 16384) = some k →
    (s.resolve ((s.half r).remoteEp % 2 ^ 24)).1 = some (dn, f) →
    ∃ u, exec c s = .next u ∧ (u.op k).origin = .work qn e.serial ∧ (u.op k).kind = kind ∧ (u.op k).conn = some r ∧
      (u.op k).status = none ∧ (u.op k).dstDn = dn ∧ (u.op k).dstFunc = f ∧ (u.op k).formed = 0 ∧
      (u.queue qn).entry e.serial = some { e with started := true }) ∧
  (∀ (s : State) (qn idx r : Nat) (e : OutEntry) (op : Nat) (c : Instr),
    (c, op) ∈ [(Instr.put qn idx, 1), (.putImm qn idx, 2), (.get qn idx, 3), (.amo qn idx, 4), (.send qn idx, 5), (.flush qn idx, 6)] →
    s.starts qn idx op e → (s.queue qn).conn = some r → (s.half r).state = .established → (s.half r).invalidArg e.bytes = none →
    ((s.half r).pendingOps ≠ [] ∨ s.admits r (s.workPackets (r / 16384) e.bytes) = false) →
    ∃ u, exec c s = .next u ∧ (u.half r).pendingOps = (s.half r).pendingOps ++ [(qn, e.serial)] ∧ u.ops = s.ops ∧
      (u.queue qn).entry e.serial = some { e with started := true }) ∧
  (∀ (s : State) (qn idx : Nat) (e : OutEntry) (op st : Nat) (c : Instr),
    (c, op) ∈ [(Instr.put qn idx, 1), (.putImm qn idx, 2), (.get qn idx, 3), (.amo qn idx, 4), (.send qn idx, 5), (.flush qn idx, 6)] →
    s.starts qn idx op e →
    ((s.queue qn).conn = none ∧ st = 0x22 ∨ ∃ r, (s.queue qn).conn = some r ∧
      ((s.half r).state = .error ∧ op ∈ [3, 4, 6] ∧ st = entryStatus (s.half r).lastErr ∨
        (s.half r).state ≠ .established ∧ ((s.half r).state = .error → op ∉ [3, 4, 6]) ∧ st = 0x22 ∨
        (s.half r).state = .established ∧ (s.half r).invalidArg e.bytes ≠ none ∧ st = 0x20)) →
    ∃ u, exec c s = .next u ∧ s.ended u qn e st ∧ u.ops = s.ops) ∧
  (∀ (s s1 : State) (qn idx ctx : Nat) (e : OutEntry), s.meetsServer qn idx e s1 → ctx = entryCtx e.bytes →
    s.ctxOpen ctx (s.queue qn).func = true → s1.recvHeld qn = false → s.atHome qn ctx →
    (∀ w ∈ s1.mtch.waiting, w.1 = ctx → w.2.1 ≠ qn) →
    (s1.mctx ctx).unexp.findIdx? (fun x => (recvEntry qn e.idx e.bytes).fits x.src x.tag) = none →
    s1.storeUsed (s.homeOf ctx) < 8192 → (s1.mctx ctx).posted.length < s1.fd F.CLU_MATCH_CFG_POST_MAX [s.homeOf ctx] →
    ∃ u, exec (.recv qn idx) s = .next u ∧ (u.mctx ctx).claimed = true ∧
      (u.mctx ctx).posted = (s1.mctx ctx).posted ++ [{ recvEntry qn e.idx e.bytes with ord := (s1.mctx ctx).next }]) ∧
  (∀ (s s1 : State) (qn idx ctx i : Nat) (e : OutEntry) (m : MatchEntry) (x : UnexpRec), s.meetsServer qn idx e s1 → ctx = entryCtx e.bytes →
    s.ctxOpen ctx (s.queue qn).func = true → s1.recvHeld qn = false → s.atHome qn ctx →
    (∀ w ∈ s1.mtch.waiting, w.1 = ctx → w.2.1 ≠ qn) →
    (s1.mctx ctx).unexp.findIdx? (fun x => (recvEntry qn e.idx e.bytes).fits x.src x.tag) = some i →
    (s1.mctx ctx).unexp[i]? = some m → s1.urec m.ref = some x → x.st ≠ 2 →
    ∃ u, exec (.recv qn idx) s = .next u ∧ (u.mctx ctx).unexp = (s1.mctx ctx).unexp.eraseIdx i ∧
      (u.mctx ctx).posted = (s1.mctx ctx).posted ∧ u.urec m.ref = some { x with waiter := some (qn, e.serial) }) ∧
  (∀ (s s1 : State) (qn idx ctx : Nat) (e : OutEntry), s.meetsServer qn idx e s1 → ctx = entryCtx e.bytes →
    s.ctxOpen ctx (s.queue qn).func = true → s1.recvHeld qn = false → s.atHome qn ctx →
    ((∃ w ∈ s1.mtch.waiting, w.1 = ctx ∧ w.2.1 = qn) ∨
      (s1.mctx ctx).unexp.findIdx? (fun x => (recvEntry qn e.idx e.bytes).fits x.src x.tag) = none ∧
      (8192 ≤ s1.storeUsed (s.homeOf ctx) ∨ s1.fd F.CLU_MATCH_CFG_POST_MAX [s.homeOf ctx] ≤ (s1.mctx ctx).posted.length)) →
    ∃ u, exec (.recv qn idx) s = .next u ∧ u.mtch.waiting = s1.mtch.waiting ++ [(ctx, qn, e.serial)] ∧
      (u.mctx ctx).posted = (s1.mctx ctx).posted) ∧
  (∀ (s s1 : State) (qn idx ctx : Nat) (e : OutEntry), s.meetsServer qn idx e s1 → ctx = entryCtx e.bytes →
    s.ctxOpen ctx (s.queue qn).func = true → s1.recvHeld qn = false → ¬s.atHome qn ctx →
    (∀ f ∈ s1.overflow (s.queue qn).cluster, f.home ≠ s.homeOf ctx) → s1.wfRoom (4 * s.homeOf ctx + 3) true 2 = true →
    ∃ u, exec (.recv qn idx) s = .next u ∧ (u.mctx ctx).claimed = true ∧
      u.mtch.fwd = s1.mtch.fwd ++ [((s.queue qn).cluster, .recv (s.homeOf ctx) qn e.serial)]) ∧
  (∀ (s s1 : State) (qn idx : Nat) (e : OutEntry), s.meetsServer qn idx e s1 →
    s.ctxOpen (entryCtx e.bytes) (s.queue qn).func = true → s1.recvHeld qn = true →
    ∃ u, exec (.recv qn idx) s = .next u ∧ u.mtch.kept = s1.mtch.kept ++ [(qn, e.serial)]) ∧
  (∀ (s s1 : State) (qn idx : Nat) (e : OutEntry), s.meetsServer qn idx e s1 →
    s.ctxOpen (entryCtx e.bytes) (s.queue qn).func = false → s.cqRoom (s.queue qn).cn = true →
    ∃ u, exec (.recv qn idx) s = .next u ∧ s.ended u qn e 3) ∧
  (∀ (s s1 : State) (c home ref : Nat) (rest : List Fwd) (x : PktRef), s.inSafe = false → s.overflow c = .msg home ref :: rest →
    s.pktRef c ref = some x → s.forwardItem c home 0x90 (pktItem (s.half x.conn) x.pkt ref x.rxFt).body = some s1 →
    ∃ u l, exec (.overflowForward c) s = .next u ∧ u.overflow c = rest ++ l ∧ (c, .msg home ref) ∈ u.mtch.fwd) ∧
  (∀ (s s1 : State) (c home qn n : Nat) (e : OutEntry) (rest : List Fwd), s.inSafe = false → s.overflow c = .recv home qn n :: rest →
    (s.queue qn).entry n = some e → s.forwardItem c home 0x91 (s.recvBody qn e) = some s1 →
    ∃ u l, exec (.overflowForward c) s = .next u ∧ u.overflow c = rest ++ l ∧ (c, .recv home qn n) ∈ u.mtch.fwd) ∧
  (∀ (s : State) (c home ref : Nat) (rest : List Fwd) (x : PktRef), s.inSafe = false → s.overflow c = .msg home ref :: rest →
    s.pktRef c ref = some x → s.wfRoom (4 * home + 3) true 2 = false →
    ∃ u, exec (.overflowForward c) s = .next u ∧ u.mtch = s.mtch)

/-- Puts, gets, atomics, responses and flushes at the target write exactly what they should. putPacket: a put that its key permits
writes exactly its payload and is released; a void one writes nothing and is released. getReq becomes an open response of its
length to the requester and writes nothing. amoReq stores exactly the value of its operator. getResp writes exactly its bytes,
counts them, and ends the get when it has them all; amoResp gives the old value; a response that no open operation waits for is
consumed and counted as late by the model (log entry 113). flushProof in turn makes its proof, or, after a write to the host,
reads from the host first. (08_connections_rma.md (R211, R212, R213, R216); 09_ordering_completion_congestion.md (R219, R224,
R227); 04_mirq_fabric_instructions.md (R112, R113).) -/
def Obligations.PacketsAtTheTarget : Prop :=
  (∀ (s s1 s3 : State) (c ref pa f : Nat) (x : PktRef), s.holds c ref x → x.pkt.op = opPut → x.pkt.void = false → x.pkt.imm = false →
    (s.half x.conn).coll = none → (if x.accepted then (none, s) else s.keyRefuses c (s.half x.conn) x.pkt .write) = (none, s1) →
    x.pkt.payload.length ≤ (s.half x.conn).maxLen → (s1.setPktRef c ref (some { x with accepted := true })).mayWriteFor x = true →
    (s1.setPktRef c ref (some { x with accepted := true })).locate c (.keyed (keyAsk x.pkt.key) x.pkt.va) .write (.pkt ref)
      (x.pkt.payload.length / 4096 + 2) 0 x.pkt.payload.length [] = (.at_ [⟨true, pa, x.pkt.payload.length, f⟩], s3) →
    ∃ u, exec (.putPacket c ref) s = .next u ∧ s.placedOnly u (hbmKey pa) x.pkt.payload ∧ u.pktRef c ref = none) ∧
  (∀ (s : State) (c ref : Nat) (x : PktRef), s.holds c ref x → x.pkt.op = opPut → x.pkt.void = true → x.pkt.imm = false →
    (s.half x.conn).isRed x.pkt = false → s.mayWriteFor x = true →
    ∃ u, exec (.putPacket c ref) s = .next u ∧ u.mem = s.mem ∧ u.pktRef c ref = none) ∧
  (∀ (s s1 s2 : State) (c ref k : Nat) (dest : Nat × Nat) (x : PktRef), s.holds c ref x → x.pkt.op = opGetReq → x.pkt.void = false →
    s.responding x.conn x.pkt.seq = false → s.keyRefuses c (s.half x.conn) x.pkt .read = (none, s1) →
    x.pkt.aux ≤ (s.half x.conn).maxLen → s1.returnPath (s.half x.conn) x.pkt = (some dest, s2) →
    s.freeSlot (x.conn / 16384) = some k →
    ∃ u, exec (.getReq c ref) s = .next u ∧ (u.op k).kind = 0x12 ∧ (u.op k).origin = .response x.conn x.pkt.seq ∧ (u.op k).status = none ∧
      (u.op k).n = packetsOf x.pkt.aux 4096 ∧ (u.op k).dstDn = dest.1 ∧ u.mem = s.mem) ∧
  (∀ (s s1 s2 s4 : State) (c ref pa f n w old new a b : Nat) (dest : Nat × Nat) (x : PktRef), s.holds c ref x → x.pkt.op = opAmoReq →
    x.pkt.void = false → x.busy = false → (s.freeSlot c).isSome = true →
    (s.freeSlot (x.conn / 16384)).isSome = true →
    (if x.accepted then (none, s) else s.keyRefuses c (s.half x.conn) x.pkt .atomic) = (none, s1) →
    n = (if nbit x.pkt.aux 4 then 4 else 8) → w = 8 * n →
    x.pkt.va % n = 0 → s1.returnPath (s.half x.conn) x.pkt = (some dest, s2) →
    (s2.setPktRef c ref (some { x with accepted := true })).locateOne c (.keyed (keyAsk x.pkt.key) x.pkt.va) 0 .atomic (.pkt ref)
      = (.at_ [⟨true, pa, 0, f⟩], s4) → s.bad (hbmKey pa) n = false → old = leNat (s.mem.readN (hbmKey pa) n) →
    a = beNat (byteSlice x.pkt.payload 0 n) → b = beNat (byteSlice x.pkt.payload 8 n) →
    (x.pkt.aux % 16, new) ∈ [(0, (old + a) % 2 ^ w), (1, a), (2, if old = b then a else old), (3, old &&& a), (4, old ||| a), (5, old ^^^ a),
      (6, if toSigned w a < toSigned w old then a else old), (7, if toSigned w old < toSigned w a then a else old), (8, min old a),
      (9, max old a)] →
    ∃ u, exec (.amoReq c ref) s = .next u ∧ s.storedOnly u (hbmKey pa) n (w64 new)) ∧
  (∀ (s s3 : State) (c ref k pa f n : Nat) (x : PktRef), s.holds c ref x → x.pkt.op = opGetResp → x.pkt.void = false →
    n = x.pkt.payload.length → s.requester x.conn kGet (BitVec.ofNat 32 x.pkt.aux) = some k → x.pkt.va + n ≤ bLen (s.op k).block →
    (x.pkt.va, n) ∉ (s.op k).placed → s.mayWriteFor x = true → nbit (s.op k).flags 7 = false →
    s.locate c (getDest (s.op k).block) .write (.op k) (n / 4096 + 2) x.pkt.va n [] = (.at_ [⟨true, pa, n, f⟩], s3) →
    ∃ u, exec (.getResp c ref) s = .next u ∧ s.placedOnly u (hbmKey pa) x.pkt.payload ∧ (u.op k).bytes = (s.op k).bytes + n ∧
      u.pktRef c ref = none ∧ ((s.op k).bytes + n = bLen (s.op k).block → (u.op k).status = some 0)) ∧
  (∀ (s : State) (c ref : Nat) (x : PktRef) (i : Instr) (kind : Nat), s.holds c ref x → x.pkt.void = false → s.mayWriteFor x = true →
    (i, x.pkt.op, kind) ∈ [(Instr.getResp c ref, opGetResp, kGet), (.amoResp c ref, opAmoResp, kAmo)] →
    s.requester x.conn kind (BitVec.ofNat 32 x.pkt.aux) = none →
    ∃ u, exec i s = .next u ∧ u.pktRef c ref = none ∧ u.net.late = s.net.late + 1 ∧ u.mem = s.mem) ∧
  (∀ (s : State) (c ref k t run : Nat) (x : PktRef), s.holds c ref x → x.pkt.op = opAmoResp → x.pkt.void = false → s.mayWriteFor x = true →
    s.requester x.conn kAmo (BitVec.ofNat 32 x.pkt.aux) = some k → (s.op k).origin = .thread t run →
    ∃ u, exec (.amoResp c ref) s = .next u ∧ (u.op k).status = some 0 ∧ u.pktRef c ref = none ∧
      (u.op k).result = (if nbit (leAt (s.op k).block 16 1) 4 then BitVec.ofInt 64 (toSigned 32 (beNat (byteSlice x.pkt.payload 0 4)))
        else w64 (beNat (byteSlice x.pkt.payload 0 8)))) ∧
  (∀ (s : State) (c ref : Nat) (x : PktRef), s.holds c ref x → x.pkt.op = opFlush → x.pkt.void = false → x.busy = false →
    (s.half x.conn).rx.e = x.pkt.seq → (s.half x.conn).rx.wrote = none →
    ∃ u, exec (.flushProof c ref) s = .next u ∧ (u.half x.conn).rx.proof = some (x.pkt.seq, s.ft) ∧ u.pktRef c ref = none) ∧
  (∀ (s : State) (c ref a : Nat) (x : PktRef), s.holds c ref x → x.pkt.op = opFlush → x.pkt.void = false → x.busy = false →
    (s.half x.conn).rx.e = x.pkt.seq → (s.half x.conn).rx.wrote = some a → s.reqBar (s.half x.conn).func = .none →
    s.linkAwake (s.half x.conn).func = true →
    ∃ u r, exec (.flushProof c ref) s = .next u ∧ u.pktRef c ref = some { x with busy := true } ∧
      u.host.reads.get none s.host.nextTag = some r ∧ r.why = .flush x.conn x.pkt.seq ∧ r.func = (s.half x.conn).func)

/-- Acknowledgements, retransmission and the congestion window. ackDelay clears the pending acknowledgement; ack removes what it
covers and leaves the window within its bounds, an error acknowledgement of a final code puts the half in ERROR with the code
and number, and a proof ends the flush it covers with its time; rto makes the packet a retransmission, sets the window to its
least and cuts it; retryExceeded at three lifetimes puts the half in ERROR with RETRY_EXCEEDED; rlRetry and refuseBackoff send a
refused packet again when its wait ends. (09_ordering_completion_congestion.md (R225, R226, R229, R230, R232, R233, R234, R235,
R238).) -/
def Obligations.AcknowledgementsAndRetransmission : Prop :=
  (∀ (s : State) (r : Nat) (t : Word) (l : BitVec 32 × Nat × Nat × Bool), s.inSafe = false → (s.half r).rx.ackFrom = some t →
    s.fd F.SLD_ACK_CFG_ACK_DELAY * 4 ≤ s.locSince t → (s.half r).rx.last = some l →
    ∃ u, exec (.ackDelay r) s = .next u ∧ (u.half r).rx.ackFrom = none ∧ (u.half r).rx.ackCount = 0 ∧ (u.half r).rx.e = (s.half r).rx.e ∧
      u.mem = s.mem) ∧
  (∀ (s : State) (r : Nat) (a : AckItem) (rest : List AckItem), s.inSafe = false → (s.half r).acks = a :: rest → (s.half r).state = .established →
    a.kind = 1 → (s.half r).pendingOps = [] → (seqAhead a.cum (s.half r).cum).isSome = true →
    ∃ u, exec (.ack r) s = .next u ∧ (u.half r).acks = rest ∧ (u.half r).cum = a.cum ∧
      (u.half r).tx = (s.half r).tx.filter (fun x => !a.covers a.cum x.seq) ∧ s.wMin (s.half r) ≤ (u.half r).window ∧
      (u.half r).window ≤ s.wMax (s.half r)) ∧
  (∀ (s : State) (r : Nat) (a : AckItem) (rest : List AckItem), s.inSafe = false → (s.half r).acks = a :: rest → (s.half r).state = .established →
    a.kind = 3 → isTransientCode a.code = false →
    ∃ u, exec (.ack r) s = .next u ∧ (u.half r).state = .error ∧ (u.half r).lastErr = a.code ∧ (u.half r).lastErrSeq = a.seq) ∧
  (∀ (s : State) (r k : Nat) (a : AckItem) (rest : List AckItem), s.inSafe = false → (s.half r).acks = a :: rest →
    (s.half r).state = .established → a.kind = 2 → (s.half r).pendingOps = [] → (k, s.op k) ∈ s.ops → (s.op k).isOpen = true →
    (s.op k).kind = kFlush → (s.op k).conn = some r → (s.op k).formed = (s.op k).n → (s.op k).n ≠ 0 →
    (seqAhead a.seq (bSeq (s.op k).block)).isSome = true →
    ∃ u, exec (.ack r) s = .next u ∧ (u.op k).status = some 0 ∧ (u.op k).ftAux = w64 a.proof) ∧
  (∀ (s : State) (r seq k : Nat) (x : TxRec), s.inSafe = false → s.sendingRec r seq = some x → x.retryAt = none → s.freeSlot (r / 16384) = some k →
    x.k < min (s.fd F.SLD_WIN_RETX_RETX_MAX [(s.half r).tc]) (s.lifetime / s.rtoTicks (s.half r)) →
    (x.k + 1) * s.rtoTicks (s.half r) ≤ s.locSince x.firstAt →
    (∀ e ∈ s.ops, e.2.isOpen = true → e.2.kind = 0x14 → e.2.conn = some r → bSeq e.2.block ≠ x.seq) →
    ∃ u y, exec (.rto r seq) s = .next u ∧ (u.op k).kind = 0x14 ∧ (u.op k).status = none ∧ (u.op k).conn = some r ∧
      (u.op k).origin = .retransmit r ∧ (u.half r).window = s.wMin (s.half r) ∧ (u.half r).cutSeq = (s.half r).txSeq ∧
      (u.half r).txRec (BitVec.ofNat 32 seq) = some y ∧ y.k = x.k + 1) ∧
  (∀ (s : State) (r seq : Nat) (x : TxRec), s.inSafe = false → s.sendingRec r seq = some x → x.retryAt = none → 3 * s.lifetime ≤ s.locSince x.firstAt →
    ∃ u, exec (.retryExceeded r seq) s = .next u ∧ (u.half r).state = .error ∧ (u.half r).lastErr = 0x21) ∧
  (∀ (s : State) (r seq k why : Nat) (x : TxRec) (t : Word) (c : Instr), s.inSafe = false → s.sendingRec r seq = some x → x.retryAt = some t →
    s.locReached t = true → x.why = why → s.freeSlot (r / 16384) = some k →
    (∀ e ∈ s.ops, e.2.isOpen = true → e.2.kind = 0x14 → e.2.conn = some r → bSeq e.2.block ≠ x.seq) →
    (c = .rlRetry r seq ∧ why = 0x0C ∨ c = .refuseBackoff r seq ∧ why ≠ 0x0C) →
    ∃ u, exec c s = .next u ∧ (u.op k).kind = 0x14 ∧ (u.op k).status = none ∧ (u.op k).conn = some r ∧ u.net = s.net)

/-! ## Connections, keys and translation -/

/-- EP_CREATE, EP_DESTROY, CONN_CREATE, CONN_DESTROY and the end of quiet time. Each command that keeps its rules completes with
success: the endpoint exists or exists no more, the half is established with the fields of the command and its sequence numbers,
or is quiet for two lifetimes. The end of quiet time frees the half, and before it nothing happens. (08_connections_rma.md
(R197, R198, R199, R200, R201, R202, R203).) -/
def Obligations.ConnectionCommands : Prop :=
  (∀ (s : State) (pf idx ep f : Nat) (e : OutEntry), s.controls pf idx 0x54 e → ep = leAt e.bytes 8 3 → f = leAt e.bytes 12 2 →
    s.mayName pf f = true → s.endpoint ep = none → s.net.endpoints.length < 65536 →
    ∃ u, exec (.epCreate pf idx) s = .next u ∧ u.endpoint ep = some ⟨f, leAt e.bytes 14 2⟩ ∧ s.ended u (ctrlQn pf) e 0) ∧
  (∀ (s : State) (pf idx ep : Nat) (e : OutEntry) (x : Endpoint), s.controls pf idx 0x55 e → ep = leAt e.bytes 8 3 →
    s.endpoint ep = some x → s.mayName pf x.func = true → (∀ h ∈ s.net.halves, h.2.state = .unused ∨ h.2.localEp ≠ ep) →
    ∃ u, exec (.epDestroy pf idx) s = .next u ∧ u.endpoint ep = none ∧ s.ended u (ctrlQn pf) e 0) ∧
  (∀ (s : State) (pf idx r lep rep ch cn : Nat) (e : OutEntry) (b : List Byte) (x : Endpoint), s.controls pf idx 0x50 e → b = e.bytes →
    r = leAt b 8 4 → lep = leAt b 12 3 → rep = leAt b 16 3 → ch = leAt b 19 1 → cn = leAt b 40 2 → r / 16384 < s.clusterCount →
    s.endpoint lep = some x → x.func = leAt b 42 2 → x.iso = leAt b 20 2 → leAt b 22 1 ≠ 7 → leAt b 44 4 ≤ maxMessage →
    1 ≤ leAt b 48 2 → leAt b 48 2 ≤ 16384 → leAt b 52 2 ≠ 0 → (s.cq cn).state ≠ .unused → (s.cq cn).func = x.func →
    s.mayName pf x.func = true → (s.half r).state = .unused → s.findHalf lep rep (ch % 16) = none →
    ∃ u, exec (.connCreate pf idx) s = .next u ∧ s.ended u (ctrlQn pf) e 0 ∧ (u.half r).state = .established ∧
      (u.half r).localEp = lep ∧ (u.half r).remoteEp = rep ∧ (u.half r).chan = ch % 16 ∧ (u.half r).rlx = nbit ch 4 ∧
      (u.half r).txSeq = BitVec.ofNat 32 (leAt b 32 4) ∧ (u.half r).rx.e = BitVec.ofNat 32 (leAt b 36 4) ∧
      (u.half r).window = leAt b 48 2 ∧ (u.half r).tx = []) ∧
  (∀ (s : State) (pf idx r : Nat) (e : OutEntry), s.controls pf idx 0x51 e → r = leAt e.bytes 8 4 → (s.half r).state ∈ [.established, .error] →
    s.mayName pf (s.half r).func = true → (∀ qn ∈ s.queuesOfConn r, (s.queue qn).state = .shutdown) →
    ∃ u, exec (.connDestroy pf idx) s = .next u ∧ s.ended u (ctrlQn pf) e 0 ∧ (u.half r).state = .quiet ∧
      (u.half r).quietEnd = s.locIn (2 * s.lifetime) ∧ (u.half r).rx = Stream.init) ∧
  (∀ (s : State) (r : Nat), s.inSafe = false → (s.half r).state = .quiet → s.locReached (s.half r).quietEnd = true →
    exec (.connQuietEnd r) s = .next (s.setHalf r Half.init)) ∧
  (∀ (s : State) (r : Nat), s.inSafe = true ∨ (s.half r).state ≠ .quiet ∨ s.locReached (s.half r).quietEnd = false →
    exec (.connQuietEnd r) s = .next s)

/-- Revocation of a key, by command and by register, its drain and its quiet time. ASK_REVOKE of a valid key and a write of
XLT_REVOKE_CTRL start a revocation, with its time of start; the drain ends it with its time; the end of the ASK's quiet time
frees it and keeps its generation. (08_connections_rma.md (R206, R208, R209, R218).) -/
def Obligations.KeyCommands : Prop :=
  (∀ (s : State) (pf idx ask key : Nat) (e : OutEntry), s.controls pf idx 0x53 e → key = leAt e.bytes 8 4 → ask = key % 2 ^ 20 →
    askState (s.askMem ask) = 1 → askGen (s.askMem ask) = key / 2 ^ 20 → askDev (s.askMem ask) = false →
    s.mayName pf (askFunc (s.askMem ask)) = true → s.net.revoking = none →
    ∃ u, exec (.askRevoke pf idx) s = .next u ∧ u.net.revoking = some ⟨ask, s.loc, some (pf, e.serial)⟩ ∧
      askState (u.askMem ask) = 3 ∧ u.rd R.XLT_REVOKE_FT = s.ft ∧ u.fb F.XLT_REVOKE_CTRL_GO = true ∧
      (u.queue (ctrlQn pf)).entry e.serial = some { e with started := true }) ∧
  (∀ (s : State) (path : Path) (v : Word), s.mayWrite path R.XLT_REVOKE_CTRL.base = true → s.net.revoking = none → bitW v 31 = true →
    ∃ u, exec (.xltRevokeCtrl path v) s = .next u ∧ u.net.revoking = some ⟨bitsW v 19 0, s.loc, none⟩ ∧
      u.rd R.XLT_REVOKE_FT = s.ft ∧ u.fb F.XLT_REVOKE_CTRL_GO = true ∧ u.mem = s.mem) ∧
  (∀ (s : State) (r : Revocation), s.inSafe = false → s.net.revoking = some r → r.by_ = none → s.keyedRemains r.ask = false → s.askInvalidating r.ask = false →
    s.net.revokeQueue = [] →
    ∃ u, exec .revokeDrain s = .next u ∧ u.net.revoking = none ∧ u.rd R.XLT_REVOKE_DRAIN_FT = s.ft ∧ u.fb F.XLT_REVOKE_CTRL_GO = false) ∧
  (∀ (s : State) (r : Revocation) (pf n : Nat) (e : OutEntry), s.inSafe = false → s.net.revoking = some r → r.by_ = some (pf, n) →
    s.keyedRemains r.ask = false → s.askInvalidating r.ask = false → s.net.revokeQueue = [] → s.cqRoom (ctrlCn pf) = true →
    (s.queue (ctrlQn pf)).entry n = some e →
    ∃ u, exec .revokeDrain s = .next u ∧ u.net.revoking = none ∧ u.rd R.XLT_REVOKE_DRAIN_FT = s.ft ∧ askState (u.askMem r.ask) = 4 ∧
      askQuietEnd (u.askMem r.ask) = (s.loc.toNat + 2 * s.lifetime) % 2 ^ 64 ∧ s.ended u (ctrlQn pf) e 0) ∧
  (∀ (s : State) (ask : Nat), s.inSafe = false → ask < 2 ^ 20 → askState (s.askMem ask) = 4 → askQuietEnd (s.askMem ask) ≤ s.loc.toNat →
    ∃ u, exec (.askQuietEnd ask) s = .next u ∧ askState (u.askMem ask) = 0 ∧ askGen (u.askMem ask) = askGen (s.askMem ask))

/-- Walks, invalidations, fault waits and MMIO windows. walk takes the first miss that can join a walk or start one, and otherwise
nothing happens. walkDone: a walk that ends in a leaf enters it in the second-level TLB and the waiting thread tries again; one
that ends in a fault enters nothing and gives the fault to the thread or operation that waits; an illegal target disables the
ASK, ends its walks and drops its faults; an ASK no longer valid ends the walk with no change to memory; a stale walk begins
again. invalidationAck leaves no entry in its scope in the cluster, and the last one, once drained, ends the operation or the
command and lets the next begin; before that it is only counted once drained. xltInvalidate starts its broadcast or waits behind
16; xltFaultWait waits, takes a fault at once, or ends with INVALID_ARG or BUSY; xltFaultDone removes the faults of its page;
both end with their code for a stale key or an ASK they may not name; xltMmioSet sets its window or ends with INVALID_ARG.
(10_translation.md (R250, R251, R252, R253, R254, R255, R256, R257, R260).) -/
def Obligations.TranslationCommands : Prop :=
  (∀ (s : State) (c n : Nat) (m : XltReq), s.inSafe = false →
    (s.cluster c).misses.findIdx? (fun m => ((s.cluster c).joins m).isSome || decide ((s.cluster c).walks.length < 16)) = some n →
    (s.cluster c).misses[n]? = some m →
    ∃ u, exec (.walk c) s = .next u ∧ (u.cluster c).misses = (s.cluster c).misses.eraseIdx n ∧
      (∀ i, (s.cluster c).joins m = some i →
        (u.cluster c).walks = (s.cluster c).walks.modify i fun k => { k with clients := k.clients ++ [m.client] }) ∧
      ((s.cluster c).joins m = none →
        (u.cluster c).walks = (s.cluster c).walks ++ [⟨m.ask, m.va, [m.client], false, s.loc, s.walkWindows c m.ask⟩])) ∧
  (∀ (s : State) (c : Nat), (∀ m ∈ (s.cluster c).misses, (s.cluster c).joins m = none ∧ 16 ≤ (s.cluster c).walks.length) →
    exec (.walk c) s = .next s) ∧
  (∀ (s s0 s1 : State) (c i : Nat) (w : Walk) (b : List Byte) (host : List (Nat × Nat)) (e : TlbEntry) (ps : List PwcEntry),
    s.inSafe = false → (s.cluster c).walks[i]? = some w → w.stale = false → s.askOf c w.ask = (b, s0) → (askState b = 1 ∨ askState b = 3) →
    (s0.setCluster c { s0.cluster c with walks := (s0.cluster c).walks.eraseIdx i }).walkAll c w.wins b w.ask w.va host =
      (.leaf e ps, s1) →
    ∃ u, exec (.walkDone c i host) s = .next u ∧ (u.cluster c).l2.head? = some e ∧
      (u.cluster c).walks = (s.cluster c).walks.eraseIdx i ∧ u.ops = s.ops ∧
      (∀ g t word, w.clients = [.data g t] → (s.thread t).wait = .xlt word →
        (u.thread t).wait = .again word ∧ (u.thread t).xfault = none) ∧
      (∀ g t word, w.clients = [.fetch g t] → (s.thread t).wait = .xlt word →
        (u.thread t).wait = .ready ∧ (u.thread t).xfault = none)) ∧
  (∀ (s s0 s1 : State) (c i cause level addr : Nat) (w : Walk) (b : List Byte) (host : List (Nat × Nat)),
    s.inSafe = false → (s.cluster c).walks[i]? = some w → w.stale = false → s.askOf c w.ask = (b, s0) → (askState b = 1 ∨ askState b = 3) →
    (s0.setCluster c { s0.cluster c with walks := (s0.cluster c).walks.eraseIdx i }).walkAll c w.wins b w.ask w.va host =
      (.fault cause level addr, s1) → cause ≠ 7 →
    ∃ u, exec (.walkDone c i host) s = .next u ∧ (u.cluster c).l2 = (s.cluster c).l2 ∧
      (u.cluster c).walks = (s.cluster c).walks.eraseIdx i ∧
      (∀ g t word, w.clients = [.data g t] → (s.thread t).wait = .xlt word →
        (u.thread t).wait = .again word ∧ (u.thread t).xfault = some (w.va / 4096, false, cause)) ∧
      (∀ k, w.clients = [.op k] → (u.op k).pendFault = some cause)) ∧
  (∀ (s s0 s1 : State) (c i level addr : Nat) (w : Walk) (b : List Byte) (host : List (Nat × Nat)),
    s.inSafe = false → (s.cluster c).walks[i]? = some w → w.stale = false → s.askOf c w.ask = (b, s0) → (askState b = 1 ∨ askState b = 3) →
    (s0.setCluster c { s0.cluster c with walks := (s0.cluster c).walks.eraseIdx i }).walkAll c w.wins b w.ask w.va host =
      (.fault 7 level addr, s1) →
    ∃ u, exec (.walkDone c i host) s = .next u ∧ askState (u.askMem w.ask) = 2 ∧
      (∀ x ∈ (u.cluster c).walks, x.ask ≠ w.ask) ∧ (∀ p ∈ u.net.pendFaults, p.ask ≠ w.ask)) ∧
  (∀ (s s0 : State) (c i : Nat) (w : Walk) (b : List Byte) (host : List (Nat × Nat)),
    s.inSafe = false → (s.cluster c).walks[i]? = some w → w.stale = false → s.askOf c w.ask = (b, s0) → askState b ≠ 1 → askState b ≠ 3 →
    ∃ u, exec (.walkDone c i host) s = .next u ∧ (u.cluster c).walks = (s.cluster c).walks.eraseIdx i ∧ u.mem = s.mem ∧
      (∀ g t word, w.clients = [.data g t] → (s.thread t).wait = .xlt word →
        (u.thread t).wait = .again word ∧ (u.thread t).xfault = none)) ∧
  (∀ (s : State) (c i : Nat) (w : Walk) (host : List (Nat × Nat)), s.inSafe = false → (s.cluster c).walks[i]? = some w → w.stale = true →
    exec (.walkDone c i host) s = .next (s.setCluster c { s.cluster c with
      walks := (s.cluster c).walks.set i { w with stale := false, wins := s.walkWindows c w.ask } })) ∧
  (∀ (s : State) (i c k t run : Nat) (v : Inval), s.inSafe = false → s.net.invals[i]? = some v → c ∈ v.waiting → (∀ d ∈ v.waiting, d = c) →
    v.cmd = none → v.op = some k → (s.op k).status = none → (s.op k).origin = .thread t run → (s.invalCluster v c).invalDrained v c = true →
    ∃ u, exec (.invalidationAck i c) s = .next u ∧ (u.op k).status = some 0 ∧ (∀ e ∈ (u.cluster c).l2, v.hitsTlb e = false) ∧
      u.net.invals = s.net.invals.eraseIdx i ++ s.net.invalQueue.take (16 - (s.net.invals.length - 1))) ∧
  (∀ (s : State) (i c pf n bytes : Nat) (v : Inval) (e : OutEntry), s.inSafe = false → s.net.invals[i]? = some v → c ∈ v.waiting →
    (∀ d ∈ v.waiting, d = c) → v.cmd = some (pf, n, bytes) → v.op = none → s.cqRoom (ctrlCn pf) = true →
    (s.queue (ctrlQn pf)).entry n = some e → (s.invalCluster v c).invalDrained v c = true →
    ∃ u, exec (.invalidationAck i c) s = .next u ∧ s.ended u (ctrlQn pf) e 0 ∧ (∀ e ∈ (u.cluster c).l2, v.hitsTlb e = false) ∧
      u.net.invals = s.net.invals.eraseIdx i ++ s.net.invalQueue.take (16 - (s.net.invals.length - 1))) ∧
  (∀ (s : State) (i c : Nat) (v : Inval), s.inSafe = false → s.net.invals[i]? = some v → c ∈ v.waiting →
    (∀ pf n bytes, v.cmd = some (pf, n, bytes) → s.cqRoom (ctrlCn pf) = true) →
    ((s.invalCluster v c).invalDrained v c = false ∨ ∃ d ∈ v.waiting, d ≠ c) →
    ∃ u, exec (.invalidationAck i c) s = .next u ∧ (u.cluster c).l2 = (s.cluster c).l2.filter (fun e => !v.hitsTlb e) ∧ u.ops = s.ops ∧
      u.net.invals = (if (s.invalCluster v c).invalDrained v c then
        s.net.invals.set i { v with waiting := v.waiting.filter fun d => d != c } else s.net.invals)) ∧
  (∀ (s : State) (pf idx key scope : Nat) (e : OutEntry) (v : Inval), s.controls pf idx 0x58 e → key = leAt e.bytes 8 4 →
    scope = leAt e.bytes 12 1 → (scope = 1 ∨ scope = 2 ∧ leAt e.bytes 24 8 ≠ 0) → askGen (s.askMem (keyAsk key)) = keyGen key →
    askDev (s.askMem (keyAsk key)) = false → s.mayName pf (askFunc (s.askMem (keyAsk key))) = true →
    v = { scope := scope, ask := keyAsk key, va := leAt e.bytes 16 8, len := leAt e.bytes 24 8,
          waiting := List.range s.clusterCount, op := none, cmd := some (pf, e.serial, 0) } →
    ∃ u, exec (.xltInvalidate pf idx) s = .next u ∧ (u.queue (ctrlQn pf)).entry e.serial = some { e with started := true } ∧
      u.net.invals = (if s.net.invals.length < 16 then s.net.invals ++ [v] else s.net.invals) ∧
      u.net.invalQueue = (if s.net.invals.length < 16 then s.net.invalQueue else s.net.invalQueue ++ [v])) ∧
  (∀ (s : State) (pf idx key op st : Nat) (e : OutEntry) (c : Instr),
    (c, op) ∈ [(Instr.xltInvalidate pf idx, 0x58), (.xltFaultDone pf idx, 0x5A)] → s.controls pf idx op e → key = leAt e.bytes 8 4 →
    (op = 0x58 → leAt e.bytes 12 1 = 1 ∨ leAt e.bytes 12 1 = 2 ∧ leAt e.bytes 24 8 ≠ 0) →
    (askGen (s.askMem (keyAsk key)) ≠ keyGen key ∧ st = 0x30 ∨ askGen (s.askMem (keyAsk key)) = keyGen key ∧ st = 0x33 ∧
      (askDev (s.askMem (keyAsk key)) = true ∨ s.mayName pf (askFunc (s.askMem (keyAsk key))) = false)) →
    ∃ u, exec c s = .next u ∧ s.ended u (ctrlQn pf) e st ∧ u.net = s.net) ∧
  (∀ (s : State) (pf idx addr : Nat) (e : OutEntry), s.controls pf idx 0x59 e → addr = leAt e.bytes 16 8 → addr % 32 = 0 →
    (s.net.faultWaits.get [] pf).length < 64 → (∀ p ∈ s.net.pendFaults, p.reported = true) →
    ∃ u, exec (.xltFaultWait pf idx) s = .next u ∧ u.net.faultWaits.get [] pf = s.net.faultWaits.get [] pf ++ [(e.serial, addr)] ∧
      (u.queue (ctrlQn pf)).entry e.serial = some { e with started := true }) ∧
  (∀ (s : State) (pf idx addr : Nat) (e : OutEntry) (p : PendFault), s.controls pf idx 0x59 e → addr = leAt e.bytes 16 8 → addr % 32 = 0 →
    s.net.faultWaits.get [] pf = [] → s.net.pendFaults = [p] → p.reported = false → s.pfOf (askFunc (s.askMem p.ask)) = pf →
    s.canMaster pf = true → s.linkAwake pf = true → s.cqRoom (ctrlCn pf) = true →
    ∃ u, exec (.xltFaultWait pf idx) s = .next u ∧ u.net.pendFaults = [{ p with reported := true }] ∧ s.ended u (ctrlQn pf) e 0 ∧
      u.net.faultWaits.get [] pf = []) ∧
  (∀ (s : State) (pf idx addr st : Nat) (e : OutEntry), s.controls pf idx 0x59 e → addr = leAt e.bytes 16 8 →
    (addr % 32 ≠ 0 ∧ st = 0x30 ∨ addr % 32 = 0 ∧ 64 ≤ (s.net.faultWaits.get [] pf).length ∧ st = 0x31) →
    ∃ u, exec (.xltFaultWait pf idx) s = .next u ∧ s.ended u (ctrlQn pf) e st ∧ u.net = s.net) ∧
  (∀ (s : State) (pf idx key page : Nat) (e : OutEntry), s.controls pf idx 0x5A e → key = leAt e.bytes 8 4 → page = leAt e.bytes 16 8 / 4096 →
    askGen (s.askMem (keyAsk key)) = keyGen key → askDev (s.askMem (keyAsk key)) = false →
    s.mayName pf (askFunc (s.askMem (keyAsk key))) = true →
    ∃ u, exec (.xltFaultDone pf idx) s = .next u ∧ s.ended u (ctrlQn pf) e 0 ∧
      u.net.pendFaults = s.net.pendFaults.filter (fun p => !(p.ask == keyAsk key && p.page == page))) ∧
  (∀ (s : State) (pf idx w lo hi : Nat) (e : OutEntry), s.controls pf idx 0x5B e → pf < 16 → w = leAt e.bytes 8 1 → w ≤ 7 →
    lo = leAt e.bytes 16 8 → hi = leAt e.bytes 24 8 → lo % 4096 = 0 → hi % 4096 = 4095 → lo < 2 ^ 52 → hi < 2 ^ 52 →
    0 < (s.cq (s.queue (ctrlQn pf)).cn).k →
    ∃ u, exec (.xltMmioSet pf idx) s = .next u ∧ s.ended u (ctrlQn pf) e 0 ∧ u.fd F.XLT_MMIO_BASE_ADDR [pf, w] = lo / 4096 ∧
      u.fd F.XLT_MMIO_LIMIT_ADDR [pf, w] = hi / 4096) ∧
  (∀ (s : State) (pf idx lo hi : Nat) (e : OutEntry), s.controls pf idx 0x5B e → lo = leAt e.bytes 16 8 → hi = leAt e.bytes 24 8 →
    (7 < leAt e.bytes 8 1 ∨ lo % 4096 ≠ 0 ∨ hi % 4096 ≠ 4095 ∨ 2 ^ 52 ≤ lo ∨ 2 ^ 52 ≤ hi) →
    ∃ u, exec (.xltMmioSet pf idx) s = .next u ∧ s.ended u (ctrlQn pf) e 0x30)

/-! ## Work FIFOs and rings -/

/-- Bank swap, item commit and Work FIFO configuration; doorbells taken, rejected, out of range and stale. bankSwap swaps the banks
when the draining one is empty and the other is not, and otherwise changes nothing of the FIFOs. itemCommit appends the next
writer's item to its bank with its commit time, delivers the completion or counts the entry that it carries, and after a bad
write puts the item at the end of the writers and, for an entry, reads the entry again. wfCfgWrite takes RESV, and POLLED on an
empty FIFO; on one that is not it is refused and flagged. doorbell: one ahead of the tail moves it; one of no ready queue, badly
formed or too large, one beyond the ring and one that is stale change one counter and no queue's tail. (05_work_fifos.md (R138,
R139, R141, R142, R144, R150); 06_host_rings.md (R168, R169, R170, R171).) -/
def Obligations.WorkFifosAndDoorbells : Prop :=
  (∀ (s : State) (c f : Nat) (x : Fifo), x = s.fifo (4 * c + f) → x.words x.drain = 0 → (x.bank x.fill).items ≠ [] → s.inSafe = false →
    ∃ u, exec (.bankSwap c f) s = .next u ∧ u.fifo (4 * c + f) = { x with fill := 1 - x.fill } ∧
      (∀ k, k ≠ 4 * c + f → u.fifo k = s.fifo k) ∧ s.keeps u [.ram, .ops, .threads, .net, .tgf, .out]) ∧
  (∀ (s : State) (c f : Nat) (x : Fifo), x = s.fifo (4 * c + f) → x.words x.drain ≠ 0 ∨ (x.bank x.fill).items = [] →
    ∃ u, exec (.bankSwap c f) s = .next u ∧ s.keeps u [.fifos, .regs, .ram, .ops, .threads, .net, .tgf, .out]) ∧
  (∀ (s : State) (c f i b : Nat) (x : Fifo) (w : Writing), x = (s.wfTakeAll (4 * c + f)).fifo (4 * c + f) → s.inSafe = false →
    x.nextWriter = some i → x.writing[i]? = some w → w.bank = some b →
    ∃ u, exec (.itemCommit c f false) s = .next u ∧
      ((u.fifo (4 * c + f)).bank b).items = (x.bank b).items ++ [{ w.item with commitNs := bitsW s.ft 33 2 }] ∧
      (u.fifo (4 * c + f)).writing = x.writing.eraseIdx i ∧ (u.fifo (4 * c + f)).fill = x.fill ∧
      (u.fifo (4 * c + f)).turn = w.item.src ∧ s.keeps u [.ram, .threads, .net, .tgf, .out] ∧
      (∀ k n, w.for_ = .opDone k n → (s.op k).order = n → (u.op k).delivered = true) ∧
      (∀ qn n r rs d, w.for_ = .entry qn n → (s.queue qn).reading = r :: rs → r.serial = n → r.data = some d →
        (u.queue qn).reading = rs ∧ (u.queue qn).fetched = (s.queue qn).fetched + 1 ∧ (u.queue qn).outstanding =
          (s.queue qn).outstanding ++ [⟨(s.queue qn).fetched, (s.queue qn).idxOf n, d, false⟩])) ∧
  (∀ (s : State) (c f i b : Nat) (x : Fifo) (w : Writing), x = (s.wfTakeAll (4 * c + f)).fifo (4 * c + f) → s.inSafe = false →
    x.nextWriter = some i → x.writing[i]? = some w → w.bank = some b → (∀ qn n, w.for_ ≠ .entry qn n) →
    ∃ u, exec (.itemCommit c f true) s = .next u ∧ (u.fifo (4 * c + f)).bank0 = x.bank0 ∧ (u.fifo (4 * c + f)).bank1 = x.bank1 ∧
      ∃ w', w'.item = w.item ∧ w'.for_ = w.for_ ∧ (u.fifo (4 * c + f)).writing = x.writing.eraseIdx i ++ [w']) ∧
  (∀ (s : State) (c f i b qn n : Nat) (x : Fifo) (w : Writing) (r : EntryRead) (rs : List EntryRead),
    x = (s.wfTakeAll (4 * c + f)).fifo (4 * c + f) → s.inSafe = false → x.nextWriter = some i → x.writing[i]? = some w → w.bank = some b →
    w.for_ = .entry qn n → (s.queue qn).reading = r :: rs → r.failed = 0 →
    ∃ u r', exec (.itemCommit c f true) s = .next u ∧ (u.queue qn).reading = r' :: rs ∧ r'.serial = r.serial ∧ r'.failed = 1 ∧
      r'.data = none ∧ (u.queue qn).fetched = (s.queue qn).fetched) ∧
  (∀ (s : State) (p : Path) (c f : Nat) (v : Word), s.mayWrite p (R.WF_CFG.addr [c, f]) = true → c < s.clusterCount → f < 4 →
    s.inSafe = false →
    ∃ u, exec (.wfCfgWrite p c f v) s = .next u ∧ u.fd F.WF_CFG_RESV [c, f] = bitsW v 15 8 ∧
      u.fb F.WF_CFG_POLLED [c, f] =
        (if (s.fifo (4 * c + f)).isEmpty = true then bitW v 0 else s.fb F.WF_CFG_POLLED [c, f]) ∧
      (u.fifo (4 * c + f)).cfgRefused = !(s.fifo (4 * c + f)).isEmpty) ∧
  (∀ (s : State) (f off size qn : Nat) (v : Word) (q : Queue), s.dev.power = 0 → s.inSafe = false → inDoorbells f off = true →
    size = 4 ∨ size = 8 → off % 8 = 0 → v.toNat < 65536 → s.slotQueue f off = some qn → q = s.queue qn → q.state = .ready →
    v.toNat < q.size → (q.tail + q.size - q.fetch) % q.size < (v.toNat + q.size - q.fetch) % q.size →
    ∃ u, exec (.doorbell f off size v false) s = .next u ∧ (u.queue qn).tail = v.toNat ∧ (u.queue qn).state = .ready ∧
      (u.queue qn).fetched = q.fetched ∧ (u.queue qn).outstanding = q.outstanding ∧ s.keeps u [.ram, .ops, .net, .mtch, .host, .dev, .threads, .clusters] ∧
      (q.handlerServed = false → isCtrl qn = false → u.fifos = s.fifos)) ∧
  (∀ (s : State) (f off size : Nat) (v : Word), s.dev.power = 0 → s.inSafe = false → inDoorbells f off = true →
    (¬((size = 4 ∨ size = 8) ∧ off % 8 = 0) ∨ 65536 ≤ v.toNat ∨ s.slotQueue f off = none ∨
      ∃ qn, s.slotQueue f off = some qn ∧ (s.queue qn).state ≠ .ready) →
    ∃ u, exec (.doorbell f off size v false) s = .next u ∧ u.regs = (s.bump R.RING_DB_REJECT_COUNT).regs ∧
      (∀ n, (u.queue n).tail = (s.queue n).tail) ∧ s.keeps u [.ram, .fifos, .ops, .net, .mtch, .host, .dev, .threads, .clusters, .out]) ∧
  (∀ (s : State) (f off size qn : Nat) (v : Word), s.dev.power = 0 → s.inSafe = false → inDoorbells f off = true →
    (size = 4 ∨ size = 8) ∧ off % 8 = 0 → v.toNat < 65536 → s.slotQueue f off = some qn → (s.queue qn).state = .ready →
    (s.queue qn).size ≤ v.toNat → ∃ u, exec (.doorbell f off size v false) s = .next u ∧ u.regs = (s.bump R.RING_DB_RANGE_COUNT).regs ∧
      (∀ n, (u.queue n).tail = (s.queue n).tail) ∧ s.keeps u [.ram, .fifos, .ops, .net, .mtch, .host, .dev, .threads, .clusters, .out]) ∧
  (∀ (s : State) (f off size qn : Nat) (v : Word) (q : Queue), s.dev.power = 0 → s.inSafe = false → inDoorbells f off = true →
    (size = 4 ∨ size = 8) ∧ off % 8 = 0 → v.toNat < 65536 → s.slotQueue f off = some qn → q = s.queue qn → q.state = .ready →
    v.toNat < q.size → (v.toNat + q.size - q.fetch) % q.size ≤ (q.tail + q.size - q.fetch) % q.size →
    ∃ u, exec (.doorbell f off size v false) s = .next u ∧ u.regs = (s.bump R.RING_DB_STALE_COUNT).regs ∧
      (∀ n, (u.queue n).tail = (s.queue n).tail) ∧ s.keeps u [.ram, .fifos, .ops, .net, .mtch, .host, .dev, .threads, .clusters, .out])

/-- A grant reads an entry; an entry read is queued, or stops at OWN, or is tried again once. grant with one entry to fetch and a
chosen queue reserves its item and reads the entry at the fetch index. workEntryRead: a good entry stands at the FIFO's write
port with its item, not yet fetched; one not owned ends the reads and pulls the tail back; a failed read is tried once more and
the second failure puts the queue in ERROR; a read that waited for room reserves it and is issued. (07_ring_service.md (R178,
R179, R180, R181, R182, R184); 06_host_rings.md (R158, R159); 05_work_fifos.md (R138, R147).) -/
def Obligations.RingService : Prop :=
  (∀ (s s0 : State) (k f g qn : Nat) (fs gs qs : List Nat) (q : Queue), s0 = s.ringFlush.arbSync → s.adapterHalted = false →
    s0.rings.linkList.get [] k = f :: fs → (s0.rings.nodeF.get ArbNode.init f).newTurn = false → 0 < (s0.rings.nodeF.get ArbNode.init f).deficit →
    s0.rings.funcList.get [] f = g :: gs → (s0.rings.nodeG.get ArbNode.init g).newTurn = false → 0 < (s0.rings.nodeG.get ArbNode.init g).deficit →
    s0.rings.groupList.get [] g = qn :: qs → (s0.rings.nodeQ.get ArbNode.init qn).newTurn = false → 0 < (s0.rings.nodeQ.get ArbNode.init qn).deficit →
    s0.linkAwake f = true → q = s0.queue qn → q.newArb = none → q.reading = [] → q.left = 1 → 1 ≤ q.burst →
    s0.wfRoom (s0.queueFifo qn q).1 false 2 = true →
    ∃ u, exec (.grant k) s = .next u ∧
      (u.queue qn).reading = [⟨q.fetched, (s0.queueFifo qn q).1, (s0.fifo (s0.queueFifo qn q).1).fill, (s0.queueFifo qn q).2, 0, true, false, none⟩] ∧
      u.out = .hostRead 0 q.func (q.entryAddr (q.idxOf q.fetched)) 64 :: s0.out ∧ s.keeps u [.ram, .ops, .net, .mtch, .threads]) ∧
  (∀ (s : State) (qn : Nat) (data : List Byte) (q : Queue) (r : EntryRead) (rs : List EntryRead), q = s.queue qn → q.reading = r :: rs →
    s.adapterHalted = false → r.data = none → r.waits = false → data.length = 64 → weOwn data = true →
    malformed (q.kind qn) data = none →
    ∃ u it, exec (.workEntryRead qn 0 data) s = .next u ∧ (u.queue qn).reading = { r with data := some data } :: rs ∧
      (u.queue qn).fetched = q.fetched ∧ (u.queue qn).outstanding = q.outstanding ∧
      (u.fifo r.fifo).writing = (s.fifo r.fifo).writing ++ [⟨some r.bank, false, it, .entry qn r.serial⟩] ∧ it.len = 2 ∧
      it.prio = r.prio ∧ it.body = workWord qn q (q.idxOf r.serial) ++ data) ∧
  (∀ (s : State) (qn : Nat) (data : List Byte) (q : Queue) (r : EntryRead) (rs : List EntryRead), q = s.queue qn → q.reading = r :: rs →
    s.adapterHalted = false → r.data = none → r.waits = false → data.length = 64 → weOwn data = false →
    ∃ u, exec (.workEntryRead qn 0 data) s = .next u ∧ (u.queue qn).reading = [] ∧ (u.queue qn).tail = q.fetch ∧
      (u.queue qn).fetched = q.fetched ∧ (u.queue qn).outstanding = q.outstanding) ∧
  (∀ (s : State) (qn : Nat) (data : List Byte) (q : Queue) (r : EntryRead) (rs : List EntryRead), q = s.queue qn → q.reading = r :: rs →
    s.adapterHalted = false → r.data = none → r.waits = false → r.failed = 0 → s.wfRoom r.fifo false 2 = true → s.canMaster q.func = true →
    ∃ u r', exec (.workEntryRead qn 2 data) s = .next u ∧ (u.queue qn).fetched = q.fetched ∧ (u.queue qn).reading = r' :: rs ∧
      r'.serial = r.serial ∧ r'.failed = 1 ∧ r'.waits = false ∧
      u.out.head? = some (.hostRead 0 q.func (q.entryAddr (q.idxOf r.serial)) 64)) ∧
  (∀ (s : State) (qn : Nat) (data : List Byte) (q : Queue) (r : EntryRead) (rs : List EntryRead), q = s.queue qn → q.reading = r :: rs →
    s.adapterHalted = false → r.data = none → r.waits = true → s.wfRoom r.fifo false 2 = true → s.canMaster q.func = true →
    ∃ u, exec (.workEntryRead qn 0 data) s = .next u ∧
      (u.queue qn).reading = { r with waits := false, bank := (s.fifo r.fifo).fill } :: rs ∧
      u.out = .hostRead 0 q.func (q.entryAddr (q.idxOf r.serial)) 64 :: s.out) ∧
  (∀ (s : State) (qn : Nat) (data : List Byte) (q : Queue) (r : EntryRead) (rs : List EntryRead), q = s.queue qn → q.reading = r :: rs →
    s.adapterHalted = false → q.state = .ready → r.data = none → r.waits = false → r.failed ≠ 0 →
    ∃ u, exec (.workEntryRead qn 2 data) s = .next u ∧ (u.queue qn).state = .error)

/-- Completion writes, OWN reads, a full ring, its timeout, moderation and MSI-X. cqWrite writes a completion at W after byte 0 of
its entry is cleared, and W and K move on; cqOwnRead and cqPoll issue OWN reads below 16 known entries and cqOwnReadDone adds
what they find, or finds the ring full; ringStallTimeout fails a ring full for the stall timeout and puts its queues in ERROR;
modTimer raises the vector; msixSend sends a pending vector that nothing masks, once. (06_host_rings.md (R160, R161, R162, R173,
R174); 07_ring_service.md (R188, R189).) -/
def Obligations.CompletionRings : Prop :=
  (∀ (s : State) (cn : Nat) (x : Cq) (c : Completion) (ds : List Completion), x = s.cq cn → s.dev.entering = none →
    x.state ≠ .unused → 0 < x.k → s.cqMay x = true → s.linkAwake x.func = true →
    (x.direct = c :: ds ∨ x.direct = [] ∧ x.held = c :: ds) →
    ∃ u l, exec (.cqWrite cn) s = .next u ∧ (u.cq cn).w = (x.w + 1) % 2 ^ x.log2 ∧ (u.cq cn).k = x.k - 1 ∧
      u.out = l ++ .hostWrite x.func (x.base + x.w * 32) c.raw :: (match c.work with
        | some (_, a) => .hostWrite x.func a [0] :: s.out
        | none => s.out)) ∧
  (∀ (s : State) (cn : Nat) (x : Cq) (c : Instr), x = s.cq cn →
    (c = .cqOwnRead cn ∧ x.pollAt = none ∨ ∃ t, c = .cqPoll cn ∧ x.pollAt = some t ∧ s.locReached t = true) →
    x.state ≠ .unused → x.k < 16 → x.reading = false → s.cqMay x = true → s.linkAwake x.func = true →
    ∃ u, exec c s = .next u ∧ u.cq cn = { x with reading := true, pollAt := none } ∧
      u.out = .hostRead 0 x.func (x.base + (x.w + x.k) % 2 ^ x.log2 / 16 * 512) 512 :: s.out ∧
      s.keeps u [.ram, .fifos, .ops, .net, .mtch, .threads, .dev]) ∧
  (∀ (s : State) (cn n : Nat) (x : Cq), x = s.cq cn → x.state ≠ .unused → x.reading = true → s.adapterHalted = false →
    0 < n → n ≤ 16 - (x.w + x.k) % 2 ^ x.log2 % 16 → x.k + n ≤ 2 ^ x.log2 →
    ∃ u, exec (.cqOwnReadDone cn 0 n) s = .next u ∧ u.cq cn = { x with
      reading := false, emptyRead := false, pollAt := none, k := x.k + n, stallFrom := if x.state = .full then s.loc else x.stallFrom } ∧
      s.keeps u [.regs, .ram, .fifos, .ops, .net, .mtch, .threads, .host, .dev, .out]) ∧
  (∀ (s : State) (cn : Nat) (x : Cq), x = s.cq cn → x.state = .ready → x.reading = true → s.adapterHalted = false → x.k = 0 →
    x.held ≠ [] → s.canMaster x.func = true →
    ∃ u, exec (.cqOwnReadDone cn 0 0) s = .next u ∧ (u.cq cn).state = .full ∧ (u.cq cn).stallFrom = s.loc ∧
      (u.cq cn).held = x.held ∧ (u.cq cn).reading = false) ∧
  (∀ (s : State) (cn : Nat) (x : Cq), x = s.cq cn → s.inSafe = false → cn < 65536 → x.state = .full →
    (s.rd R.RING_STALL_TIMEOUT).toNat * 1000 * ticksPerUs ≤ s.locSince x.stallFrom →
    ∃ u, exec (.ringStallTimeout cn) s = .next u ∧ (u.cq cn).state = .failed ∧
      ∀ qn, (s.queue qn).state = .ready → (s.queue qn).cn = cn → (u.queue qn).state = .error) ∧
  (∀ (s : State) (cn : Nat) (x : Cq) (t : Word), x = s.cq cn → s.inSafe = false → x.state ≠ .unused → x.irqEn = true → x.modTime ≠ 0 → x.timer = some t →
    x.modTime * ticksPerUs ≤ s.locSince t →
    ∃ u, exec (.modTimer cn) s = .next u ∧ u.cq cn = { x with pend := 0, timer := none, nowMet := false } ∧
      NSet.mem (u.func x.func).held x.vector = true) ∧
  (∀ (s : State) (f v addr data : Nat), NSet.mem (s.func f).held v = true → (s.func f).msixEn = true → (s.func f).fmask = false →
    (s.func f).msix.get msixInit v = (addr, data, false) → s.canMaster f = true → s.adapterHalted = false → s.linkAwake f = true →
    s.dev.entering = none →
    ∃ u, exec (.msixSend f v) s = .next u ∧ u.out = .msix f v addr data :: s.out ∧ NSet.mem (u.func f).held v = false ∧
      u.rings = s.rings)

/-- CQ_CREATE, CQ_MODIFY, CQ_DESTROY, CQ_RESET and the disable of a control ring. Each command that keeps its rules completes with
success and leaves the ring as its entry says; the control ring and the control completion ring are disabled, and the latter
only when the control ring is not busy. (06_host_rings.md (R173, R175, R176, R536); 07_ring_service.md (R189, R190, R191).) -/
def Obligations.RingCommands : Prop :=
  (∀ (s : State) (pf idx cn f : Nat) (e : OutEntry) (b : List Byte), s.controls pf idx 0x40 e → (s.queue (ctrlQn pf)).cn = ctrlCn pf →
    b = e.bytes → cn = leAt b 8 2 → f = leAt b 12 2 → 6 ≤ leAt b 10 1 → leAt b 10 1 ≤ 16 → leAt b 16 8 % 4096 = 0 →
    leAt b 24 2 < vectorsOf f → leAt b 26 2 ≠ 0 → leAt b 28 4 ≤ 1000000 → s.mayName pf f = true → (s.cq cn).state = .unused →
    ∃ u c, exec (.cqCreate pf idx) s = .next u ∧ s.ended u (ctrlQn pf) e 0 ∧ c < s.clusterCount ∧
      u.cq cn = { Cq.init with state := .ready, log2 := leAt b 10 1, base := leAt b 16 8, func := f, cluster := c, vector := leAt b 24 2,
                               modCount := leAt b 26 2, modTime := leAt b 28 4, irqEn := nbit (leAt b 32 1) 0, k := 2 ^ leAt b 10 1 }) ∧
  (∀ (s : State) (pf idx cn : Nat) (e : OutEntry) (b : List Byte), s.controls pf idx 0x41 e → (s.queue (ctrlQn pf)).cn = ctrlCn pf →
    b = e.bytes → cn = leAt b 8 2 → leAt b 24 2 < vectorsOf (leAt b 12 2) → leAt b 26 2 ≠ 0 → leAt b 28 4 ≤ 1000000 →
    (s.cq cn).state ≠ .unused → (s.cq cn).func = leAt b 12 2 → s.mayName pf (leAt b 12 2) = true →
    ∃ u, exec (.cqModify pf idx) s = .next u ∧ s.ended u (ctrlQn pf) e 0 ∧ (u.cq cn).irqEn = nbit (leAt b 32 1) 0 ∧
      (u.cq cn).vector = leAt b 24 2 ∧ (u.cq cn).modCount = leAt b 26 2 ∧ (u.cq cn).modTime = leAt b 28 4 ∧
      (u.cq cn).w = (s.cq cn).w ∧ (u.cq cn).k = (s.cq cn).k ∧
      (nbit (leAt b 32 1) 0 = true → leAt b 26 2 ≤ (s.cq cn).pend →
        (u.cq cn).pend = 0 ∧ NSet.mem (u.func (s.cq cn).func).held (leAt b 24 2) = true)) ∧
  (∀ (s : State) (pf idx cn : Nat) (e : OutEntry), s.controls pf idx 0x42 e → (s.queue (ctrlQn pf)).cn = ctrlCn pf → cn = leAt e.bytes 8 2 →
    (s.cq cn).state = .ready ∨ (s.cq cn).state = .failed → s.mayName pf (s.cq cn).func = true →
    (∀ q ∈ s.rings.queues, q.2.state = .unused ∨ q.2.cn ≠ cn) → (s.cq cn).held = [] → (s.cq cn).direct = [] →
    ∃ u, exec (.cqDestroy pf idx) s = .next u ∧ s.ended u (ctrlQn pf) e 0 ∧ u.cq cn = Cq.init) ∧
  (∀ (s : State) (pf idx cn : Nat) (e : OutEntry), s.controls pf idx 0x43 e → (s.queue (ctrlQn pf)).cn = ctrlCn pf → cn = leAt e.bytes 8 2 →
    (s.cq cn).state = .failed → s.mayName pf (s.cq cn).func = true → (s.cq cn).held = [] →
    ∃ u, exec (.cqReset pf idx) s = .next u ∧ s.ended u (ctrlQn pf) e 0 ∧ (u.cq cn).state = .ready ∧ (u.cq cn).w = 0 ∧
      (u.cq cn).k = 2 ^ (s.cq cn).log2) ∧
  (∀ (s : State) (pf : Nat), s.fb F.HIF_CRING_CFG_ENABLE [pf] = true → s.inSafe = false → (s.queue (ctrlQn pf)).reading = [] →
    ∃ u, exec (.cringDisable pf) s = .next u ∧ u.fb F.HIF_CRING_CFG_ENABLE [pf] = false ∧ (u.queue (ctrlQn pf)).state = .shutdown ∧
      (u.queue (ctrlQn pf)).outstanding = (s.queue (ctrlQn pf)).outstanding ∧ s.keeps u [.ram, .ops, .net, .host, .out]) ∧
  (∀ (s : State) (pf : Nat), s.fb F.HIF_CCQ_CFG_ENABLE [pf] = true → s.inSafe = false →
    ∃ u, exec (.ccqDisable pf) s = .next u ∧
      (if s.cringBusy pf = true then u = s else u.fb F.HIF_CCQ_CFG_ENABLE [pf] = false ∧ u.cq (ctrlCn pf) = Cq.init))

/-- Q_CREATE, Q_MODIFY, Q_SHUTDOWN, Q_DESTROY, Q_ABORT and the adapter reset. qCreate, qModify, qShutdown, qDestroy and qAbort, when
they keep their rules, leave the queue as their entry says: qModify keeps ARB for the queue's next turn or takes it at once; a
shutdown drains, ending with ABORTED an only entry outstanding, and queueShutdownDone completes it when neither an entry nor an
operation of the queue is open; an abort ends the entry it names with ABORTED. adapterReset with its key leaves every queue
gone, no ring, no host read, the control rings disabled and the adapter running. (06_host_rings.md (R176, R536);
07_ring_service.md (R183, R184, R185, R186, R187, R193); 01_machine_and_part.md (R24).) -/
def Obligations.QueueCommands : Prop :=
  (∀ (s : State) (pf idx qn f cn cf arb slot : Nat) (conn : Option Nat) (e : OutEntry) (b : List Byte), s.controls pf idx 0x44 e →
    b = e.bytes → qn = leAt b 8 4 → qn < 262144 → leAt b 12 1 ≤ 1 → 6 ≤ leAt b 13 1 → leAt b 13 1 ≤ 16 → leAt b 16 8 % 4096 = 0 →
    cf = leAt b 32 4 → arb = leAt b 36 4 → arb % 256 ≠ 0 → f = leAt b 24 2 → (f < 16 → leAt b 26 2 = 0) → cn = leAt b 14 2 →
    (s.cq cn).state ≠ .unused → (s.cq cn).func = f → s.mayName pf f = true → (s.queue qn).state = .unused →
    (∀ q ∈ s.rings.queues, q.2.state = .unused ∨ q.2.func ≠ f ∨ q.2.vfDb ≠ leAt b 26 2 ∨ f < 16) →
    (if nbit cf 31 = true then conn = none ∧ s.clusterLives (cf % 2 ^ 20 / 16384) = true else
      conn = some (cf % 2 ^ 20) ∧ (s.half (cf % 2 ^ 20)).state = .established ∧ s.mayName pf (s.half (cf % 2 ^ 20)).func = true) →
    s.newSlot (cf % 2 ^ 20 / 16384) (leAt b 12 1 == 1) conn = some slot →
    ∃ u, exec (.qCreate pf idx) s = .next u ∧ s.ended u (ctrlQn pf) e 0 ∧ u.queue qn =
      { (s.queue qn).gone with
        state := .ready, rq := leAt b 12 1 == 1, log2 := leAt b 13 1, cn := cn, base := leAt b 16 8, func := f, vfDb := leAt b 26 2
        handlerServed := nbit (leAt b 28 1) 0, fifo := leAt b 29 1 % 4, prio := nbits (leAt b 29 1) 4 2, conn := conn
        cluster := cf % 2 ^ 20 / 16384, qslot := slot, burst := nbits arb 14 12 + 1, group := nbits arb 10 8, weight := arb % 256 }) ∧
  (∀ (s : State) (pf idx qn arb : Nat) (e : OutEntry) (b : List Byte), s.controls pf idx 0x45 e → b = e.bytes → qn = leAt b 8 4 →
    qn < 262144 → arb = leAt b 36 4 → arb % 256 ≠ 0 → (s.queue qn).state ≠ .unused → s.mayName pf (s.queue qn).func = true →
    ∃ u, exec (.qModify pf idx) s = .next u ∧ s.ended u (ctrlQn pf) e 0 ∧ (u.queue qn).fifo = leAt b 29 1 % 4 ∧
      (u.queue qn).prio = nbits (leAt b 29 1) 4 2 ∧
      ((u.queue qn).newArb = some (nbits arb 14 12 + 1, nbits arb 10 8, arb % 256) ∨
       ((u.queue qn).burst, (u.queue qn).group, (u.queue qn).weight) = (nbits arb 14 12 + 1, nbits arb 10 8, arb % 256))) ∧
  (∀ (s : State) (pf idx qn : Nat) (e : OutEntry), s.controls pf idx 0x46 e → qn = leAt e.bytes 8 4 → qn < 262144 →
    (s.queue qn).state = .ready → (s.queue qn).shutdownBy = none → s.mayName pf (s.queue qn).func = true →
    ∃ u, exec (.qShutdown pf idx) s = .next u ∧ (u.queue qn).state = .draining ∧ (u.queue qn).shutdownBy = some (pf, e.serial) ∧
      (u.queue qn).reading = [] ∧ (u.queue (ctrlQn pf)).entry e.serial = some { e with started := true } ∧
      ∀ x, (s.queue qn).outstanding = [x] → s.recvMatched qn x = false → s.cqRoom (s.queue qn).cn = true → s.ended u qn x 1) ∧
  (∀ (s : State) (qn pf serial : Nat) (e : OutEntry), qn < 262144 → (s.queue qn).shutdownBy = some (pf, serial) →
    (s.queue qn).outstanding = [] → 
    (∀ o ∈ s.ops, o.2.isOpen = true → ∀ r a n, o.2.origin ≠ .work qn n ∧ o.2.origin ≠ .rendezvous r a qn n) → s.cqRoom (ctrlCn pf) = true →
    s.adapterHalted = false → (s.queue (ctrlQn pf)).entry serial = some e →
    ∃ u, exec (.queueShutdownDone qn) s = .next u ∧ (u.queue qn).state = .shutdown ∧ (u.queue qn).shutdownBy = none ∧
      s.ended u (ctrlQn pf) e 0) ∧
  (∀ (s : State) (pf idx qn : Nat) (e : OutEntry), s.controls pf idx 0x47 e → qn = leAt e.bytes 8 4 → qn < 262144 →
    (s.queue qn).state = .shutdown → s.mayName pf (s.queue qn).func = true → s.holdsFor qn = false →
    ∃ u, exec (.qDestroy pf idx) s = .next u ∧ s.ended u (ctrlQn pf) e 0 ∧ u.queue qn = (s.queue qn).gone) ∧
  (∀ (s : State) (pf idx qn i : Nat) (e x : OutEntry), s.controls pf idx 0x48 e → qn = leAt e.bytes 8 4 → qn < 262144 →
    i = leAt e.bytes 12 2 → i < (s.queue qn).size → (s.queue qn).state = .ready → s.mayName pf (s.queue qn).func = true →
    (s.queue qn).outstanding.find? (fun x => x.idx == i) = some x → s.recvMatched qn x = false → s.cqRoom (s.queue qn).cn = true →
    ∃ u, exec (.qAbort pf idx) s = .next u ∧ s.ended u qn x 1 ∧ s.ended u (ctrlQn pf) e 0) ∧
  (∀ (s : State) (pf : Nat) (v : BitVec 32), s.attExists pf = true → v.toNat / 2 ^ 16 = 0xAD5E → v.toNat % 2 = 1 → s.tgf.halted = true →
    s.inSafe = false →
    ∃ u, exec (.adapterReset pf v) s = .next u ∧ u.tgf.halted = false ∧ (∀ qn, u.queue qn = (s.queue qn).gone) ∧ (∀ cn, u.cq cn = Cq.init) ∧
      u.host.reads = [] ∧ ∀ p, p < 16 → u.fb F.HIF_CRING_CFG_ENABLE [p] = false ∧ u.fb F.HIF_CCQ_CFG_ENABLE [p] = false)

/-! ## Collectives -/

/-- JOIN, RUN and LEAVE of a collective. join reads its table in an operation of its own and, given the table, ends with the
collective recorded and its halves established with its peers; run starts with the anchor and passes of its kind, or ends with
the code of what forbids it and the collective failed, ends with success after its last step, and starts its timed phase with
the sends of the step; phaseTimeout ends it with TIMEOUT; leave removes the collective and makes its halves quiet. The anchor
and the passes are this model's (log entries 65 and 66). (12_collectives.md (R285, R286, R287, R288, R290, R291, R292, R311,
R312).) -/
def Obligations.Collectives : Prop :=
  (∀ (s : State) (qn idx r k : Nat) (e : OutEntry), s.starts qn idx 0x10 e → weFlags e.bytes % 8 = 0 → (s.queue qn).conn = some r →
    (s.queue qn).outstanding.find? (fun x => x.idx == idx && x.started) = none → s.joinSlot qn e.serial = none →
    s.joinBarred (s.queue qn) e.bytes = none → s.freeSlot (r / 16384) = some k →
    ∃ u, exec (.join qn idx 0 []) s = .next u ∧ (u.op k).origin = .work qn e.serial ∧ (u.op k).status = none ∧
      (u.queue qn).entry e.serial = some { e with started := true } ∧ u.net = s.net) ∧
  (∀ (s s1 s2 : State) (qn idx r k id n : Nat) (e : OutEntry) (b table data : List Byte) (ws refs : List Nat) (ms : List Member)
      (cl : Coll), s.adapterHalted = false → s.cqRoom (s.queue qn).cn = true → (s.queue qn).conn = some r →
    (s.queue qn).outstanding.find? (fun x => x.idx == idx && x.started) = some e → (s.queue qn).entry e.serial = some e →
    b = e.bytes → weOp b = 0x10 → weFlags b % 8 = 0 → id = leAt b 8 2 → n = leAt b 16 4 → s.joinSlot qn e.serial = some k →
    s.readAt (k / 4096) (.far (leAt b 24 4) (leAt b 32 8)) 0 (4 * n) (.op k) 0 data = (.data table, s1) →
    s1.joinBarred (s.queue qn) b = none →
    ws = (List.range n).map (fun i => leAt table (4 * i) 4) → (∀ w ∈ ws, w < 2 ^ 24) →
    ws.getD (leAt b 20 4) 0 = leAt b 10 3 → s1.membersOf ws [] = (.ok ms, s2) → s2.queue qn = s.queue qn →
    (ms.map (·.dn)).eraseDups.length = n → s2.net.colls.length < 1024 →
    cl = { memberEp := leAt b 10 3, func := (s.queue qn).func, rank := leAt b 20 4, members := ms,
           timeout := if leAt b 28 4 = 0 then 100000 else leAt b 28 4, halves := [], failed := false, run := none } →
    refs = s2.freeRefs (r / 16384) cl.wants.length → refs.length = cl.wants.length →
    (∀ w ∈ cl.wants, s2.findHalf cl.memberEp (cl.mem w.1).ep w.2.1 = none) →
    ∃ u, exec (.join qn idx 0 data) s = .next u ∧ s.ended u qn e 0 ∧ u.coll id = some { cl with halves := refs } ∧
      ∀ h w, (h, w) ∈ refs.zip cl.wants → (u.half h).state = .established ∧ (u.half h).localEp = cl.memberEp ∧
        (u.half h).remoteEp = (cl.mem w.1).ep ∧ (u.half h).chan = w.2.1 ∧ (u.half h).rlx = w.2.2 ∧ (u.half h).coll = some id) ∧
  (∀ (s : State) (qn idx r : Nat) (e : OutEntry) (cl : Coll), s.starts qn idx 0x10 e → weFlags e.bytes % 8 = 1 →
    (s.queue qn).conn = some r → (s.queue qn).outstanding.find? (fun x => x.idx == idx && x.started) = none →
    s.coll (leAt e.bytes 8 2) = some cl → cl.run = none → cl.failed = false → badRun cl.members.length e.bytes = false →
    (∀ h ∈ cl.halves, (s.half h).state ≠ .error) → s.ftValid = true →
    ∃ u, exec (.run qn idx) s = .next u ∧
      u.coll (leAt e.bytes 8 2) = some { cl with run := some ⟨qn, e.serial, 0, 0, s.ft, s.holdover, [], [], s.readyAt, 0x8000,
        if runKind e.bytes = 2 ∨ runKind e.bytes = 3 then s.passesFor (leAt e.bytes 8 2) cl e.bytes else 0⟩ } ∧
      (u.queue qn).entry e.serial = some { e with started := true } ∧ s.keeps u [.ram, .ops, .aml, .host, .out]) ∧
  (∀ (s : State) (qn idx r : Nat) (e : OutEntry) (cl : Coll) (st : Nat), s.starts qn idx 0x10 e → weFlags e.bytes % 8 = 1 →
    (s.queue qn).conn = some r → (s.queue qn).outstanding.find? (fun x => x.idx == idx && x.started) = none →
    s.coll (leAt e.bytes 8 2) = some cl → cl.run = none →
    st = (if cl.failed = true then 0x22 else if badRun cl.members.length e.bytes = true then 0x20 else
      match cl.halves.find? (fun h => (s.half h).state == .error) with
      | some h => entryStatus (s.half h).lastErr
      | none => 0x14) →
    (cl.failed = true ∨ badRun cl.members.length e.bytes = true ∨ (∃ h ∈ cl.halves, (s.half h).state = .error) ∨ s.ftValid = false) →
    ∃ u, exec (.run qn idx) s = .next u ∧ s.ended u qn e st ∧ u.coll (leAt e.bytes 8 2) = some { cl with failed := true }) ∧
  (∀ (s : State) (qn idx h id : Nat) (e : OutEntry) (b : List Byte) (cl : Coll) (r : CollRun), s.adapterHalted = false →
    s.cqRoom (s.queue qn).cn = true → (s.queue qn).conn = some h →
    (s.queue qn).outstanding.find? (fun x => x.idx == idx && x.started) = some e → (s.queue qn).entry e.serial = some e →
    b = e.bytes → weOp b = 0x10 → weFlags b % 8 = 1 → id = leAt b 8 2 → s.coll id = some cl → cl.run = some r → r.qn = qn →
    r.serial = e.serial → (s.runSteps id cl b r.anchor r.passes).length ≤ r.step → ∃ u, exec (.run qn idx) s = .next u ∧ s.ended u qn e 0) ∧
  (∀ (s : State) (qn idx h id : Nat) (e : OutEntry) (b : List Byte) (cl : Coll) (r : CollRun) (x : RunStep), s.adapterHalted = false →
    s.cqRoom (s.queue qn).cn = true → (s.queue qn).conn = some h →
    (s.queue qn).outstanding.find? (fun x => x.idx == idx && x.started) = some e →
    b = e.bytes → weOp b = 0x10 → weFlags b % 8 = 1 → id = leAt b 8 2 → s.coll id = some cl → cl.run = some r → r.qn = qn →
    r.serial = e.serial → r.sub = 0 → (s.runSteps id cl b r.anchor r.passes)[r.step]? = some x → x.what = 0 → 0 < x.phase →
    (∀ y ∈ s.runSteps id cl b r.anchor r.passes, y.slot = none) →
    (∀ y ∈ (s.runSteps id cl b r.anchor r.passes).take r.step, y.phase = 0) →
    ∃ u cl' r', exec (.run qn idx) s = .next u ∧ u.coll id = some cl' ∧ cl'.run = some r' ∧ r'.sub = 2 ∧ r'.todo = x.sends ∧
      r'.at_ = (if leAt b 48 8 ≠ 0 then w64 (leAt b 48 8) else r.t0)) ∧
  (∀ (s : State) (id : Nat) (cl : Coll) (r : CollRun) (e : OutEntry), s.inSafe = false → s.coll id = some cl → cl.run = some r →
    s.cqRoom (s.queue r.qn).cn = true → s.ftReached (r.at_ + w64 (cl.timeout * ticksPerUs)) = true →
    (s.queue r.qn).entry r.serial = some e →
    ∃ u, exec (.phaseTimeout id) s = .next u ∧ s.ended u r.qn e 0x0A) ∧
  (∀ (s : State) (qn idx r : Nat) (e : OutEntry) (cl : Coll), s.starts qn idx 0x10 e → weFlags e.bytes % 8 = 2 →
    (s.queue qn).conn = some r → (s.queue qn).outstanding.find? (fun x => x.idx == idx && x.started) = none →
    s.coll (leAt e.bytes 8 2) = some cl → cl.run = none →
    ∃ u, exec (.leave qn idx) s = .next u ∧ s.ended u qn e 0 ∧ u.coll (leAt e.bytes 8 2) = none ∧
      ∀ h ∈ cl.halves, (u.half h).state = .quiet)

/-- Contributions, the completion of a stripe, and AML_CFG writes. contribution: an integer element sent to an open slot is combined
by the operator, counted and released; one to a slot not open is released without effect. stripeComplete: a stripe with all its
contributions is written in element order and the last one ends the operation. amlCfgWrite: AML_CTRL is written only with no
slot open, and is refused and flagged otherwise. (12_collectives.md (R295, R297, R299, R301, R314).) -/
def Obligations.AmalgamUnits : Prop :=
  (∀ (s : State) (c ref slot k e n w old v new i : Nat) (x : PktRef) (b : List Byte) (a : AmlSlot) (st : Stripe), s.holds c ref x →
    (s.half x.conn).isRed x.pkt = true → x.pkt.void = false → slot = x.pkt.key % 2 ^ 12 → s.slotOp slot = some k → b = (s.op k).block →
    a = s.aslot slot → i = x.pkt.aux % 2 ^ 16 → i < amContrib b → amType b < 4 → amMode b = 0 → amIn b = 0 → amOp b < 6 →
    n = typeSize (amType b) → w = 8 * n → x.pkt.payload.length = n → redOffset x.pkt n = e * n → e < amCount b →
    st = a.stripes.get Stripe.init (e / 256) → a.full b (e / 256) = false → v = leNat x.pkt.payload →
    (st.acc.get none e = none ∧ new = v ∨ st.acc.get none e = some old ∧ (amOp b, new) ∈ [(0, (old + v) % 2 ^ w), (3, old &&& v), (4, old ||| v), (5, old ^^^ v),
      (1, if (if amType b ≤ 1 then toSigned w v < toSigned w old else v < old) then v else old),
      (2, if (if amType b ≤ 1 then toSigned w old < toSigned w v else old < v) then v else old)]) →
    ∃ u, exec (.contribution c ref) s = .next u ∧ u.pktRef c ref = none ∧
      ((u.aslot slot).stripes.get Stripe.init (e / 256)).acc.get none e = some new ∧
      ((u.aslot slot).stripes.get Stripe.init (e / 256)).count = st.count + n ∧ s.keeps u [.ram, .ops]) ∧
  (∀ (s : State) (c ref : Nat) (x : PktRef), s.holds c ref x → (s.half x.conn).isRed x.pkt = true → x.pkt.void = false →
    s.slotOp (x.pkt.key % 2 ^ 12) = none →
    ∃ u, exec (.contribution c ref) s = .next u ∧ u.pktRef c ref = none ∧ s.keeps u [.ram, .aml]) ∧
  (∀ (s s1 : State) (slot k key : Nat) (b bs ds : List Byte) (a : AmlSlot) (x : Stripe), s.inSafe = false → s.slotOp slot = some key →
    b = (s.op key).block → a = s.aslot slot → x = a.stripes.get Stripe.init k → k < amStripes b → amLocal b = 0xFFFF → amOp b < 6 →
    amMode b = 0 → amType b < 4 → a.fault = none → a.range = false → x.done = false →
    amElems b k * amInSize b * amContrib b ≤ x.count → a.done + 1 ≤ amStripes b →
    bs = (List.range (amElems b k)).flatMap (fun j => leBytes (amOutSize b) ((x.acc.get none (256 * k + j)).getD 0)) →
    s.writeAt (key / 4096) (.far (amAsk b) (amOutVa b)) (256 * k * amOutSize b) bs (.op key) = (.data ds, s1) → s1.op key = s.op key →
    s1.aml = s.aml →
    ∃ u, exec (.stripeComplete slot k 0 []) s = .next u ∧ u.mem = s1.mem ∧ (u.aslot slot).done = a.done + 1 ∧
      (u.op key).status = (if a.done + 1 = amStripes b then some 0 else none)) ∧
  (∀ (s : State) (p : Path) (v : Word), s.mayWrite p R.AML_CTRL.base = true →
    exec (.amlCfgWrite p R.AML_CTRL.base v) s = .next (if s.openSlots = [] then
      { s with aml := { s.aml with cfgRefused := false } }.wrSoft R.AML_CTRL [] v
      else { s with aml := { s.aml with cfgRefused := true } }))

/-! ## Routing and Solder -/

/-- A packet is delivered, queued at a live candidate, held, or discarded and counted. route: a packet for this device arrives at
Solder; one with a live permitted candidate joins the queue of such a port, of a class that the rules choose; with no live
candidate it is held for ROUTE_HOLD; one that the decision discards is counted; a held packet goes on when a candidate is live
again, and while it cannot, packets of its input wait behind it. routeHoldEnd discards and counts it when its time ends.
portDown puts the queues of a port that went down back at its tile. (13_routing.md (R319, R320, R321, R322, R323, R324, R326,
R327, R329).) -/
def Obligations.RoutingOfPackets : Prop :=
  (∀ (s : State) (tile : Nat) (x : RPkt) (rest : List RPkt), s.inSafe = false → s.route.tiles.get [] tile = x :: rest →
    s.route.holds = [] → s.bank x.pkt.epoch ≠ 0 → x.pkt.dstDn = s.ownDn →
    ∃ u, exec (.route tile) s = .next u ∧ u.route.tiles.get [] tile = rest ∧
      u.route.arrivals = s.route.arrivals ++ [(x.src.getD 128, x)] ∧ s.keeps u [.ram, .net, .ports, .rings, .mtch]) ∧
  (∀ (s : State) (tile : Nat) (x : RPkt) (rest : List RPkt) (xs : List Cand4), s.inSafe = false →
    s.route.tiles.get [] tile = x :: rest → s.route.holds = [] → s.destOf x = .permitted xs →
    (∃ c ∈ xs, (s.port c.port).live = true) →
    ∃ u c e, exec (.route tile) s = .next u ∧ u.route.tiles.get [] tile = rest ∧ c ∈ xs ∧ (s.port c.port).live = true ∧
      c ∈ s.chosenClasses x.h (xs.filter fun c => (s.port c.port).live) ∧ e.rp = x ∧ e.gdet = (x.pkt.gdet || c.cls == .global) ∧
      (u.port c.port).tx.queues.get [] (queueKey x.pkt.tc x.h) = (s.port c.port).tx.queues.get [] (queueKey x.pkt.tc x.h) ++ [e] ∧
      s.keeps u [.ram, .net, .rings, .mtch, .ops]) ∧
  (∀ (s : State) (tile : Nat) (x : RPkt) (rest : List RPkt) (xs : List Cand4), s.inSafe = false →
    s.route.tiles.get [] tile = x :: rest → s.route.holds = [] → s.destOf x = .permitted xs →
    (∀ c ∈ xs, (s.port c.port).live = false) →
    ∃ u, exec (.route tile) s = .next u ∧ u.route.tiles.get [] tile = rest ∧
      u.route.holds = [⟨x, tile, s.locIn ((s.rd R.ROUTE_HOLD).toNat * 4)⟩] ∧ s.keeps u [.ram, .net, .rings, .ports, .ops]) ∧
  (∀ (s : State) (tile : Nat) (x : RPkt) (rest : List RPkt) (cnt : RegDesc), s.inSafe = false →
    s.route.tiles.get [] tile = x :: rest → s.route.holds = [] → s.destOf x = .discard cnt →
    ∃ u, exec (.route tile) s = .next u ∧ u.route.tiles.get [] tile = rest ∧ u.regs = (s.bump cnt).regs ∧ u.net = s.net) ∧
  (∀ (s : State) (tile : Nat) (h : Hold) (xs : List Cand4), s.inSafe = false → s.route.holds = [h] → h.tile = tile →
    s.destOf h.rp = .permitted xs → (∃ c ∈ xs, (s.port c.port).live = true) →
    ∃ u c e, exec (.route tile) s = .next u ∧ u.route.holds = [] ∧ u.route.tiles = s.route.tiles ∧ c ∈ xs ∧
      (s.port c.port).live = true ∧ e.rp = h.rp ∧
      (u.port c.port).tx.queues.get [] (queueKey h.rp.pkt.tc h.rp.h) =
        (s.port c.port).tx.queues.get [] (queueKey h.rp.pkt.tc h.rp.h) ++ [e]) ∧
  (∀ (s : State) (tile : Nat) (h : Hold) (xs : List Cand4), s.inSafe = false → s.route.holds = [h] → h.tile = tile →
    s.destOf h.rp = .permitted xs → (∀ c ∈ xs, (s.port c.port).live = false) →
    (∀ x ∈ s.route.tiles.get [] tile, sameInput h.rp x = true) → exec (.route tile) s = .next s) ∧
  (∀ (s : State) (i : Nat) (h : Hold), s.inSafe = false → s.route.holds[i]? = some h → s.locReached h.until_ = true →
    ∃ u, exec (.routeHoldEnd i) s = .next u ∧ u.route.holds = s.route.holds.eraseIdx i ∧ u.regs = (s.bump R.ROUTE_NOPATH_COUNT).regs ∧
      u.net = s.net) ∧
  (∀ (s : State) (p : Nat), (s.port p).live = false →
    ∃ u, exec (.portDown p) s = .next u ∧ (u.port p).tx.queues = [] ∧ u.route.tiles.get [] (tileOfPort p) =
      s.route.tiles.get [] (tileOfPort p) ++ ((s.port p).tx.queues.flatMap (·.2)).map (·.rp))

/-- RT_LOAD, RT_ARM, RT_CANCEL, RT_QUERY, EPT_WRITE and ROUTE_EPT_INV. rtLoad writes the entries given, each by the rules of its
register, in the bank that is not in use, and no other entry of the table, or the two words of a port set, or copies the active
bank; rtArm arms for its time or ends with the code of what forbids it; rtCancel returns the bank to IDLE before its time;
rtQuery reports the banks and changes nothing; eptWrite writes exactly its entry and drops it from the cache; routeEptInv drops
one or all. (13_routing.md (R316, R317, R332, R333, R334, R336, R337).) -/
def Obligations.RouteTables : Prop :=
  (∀ (s : State) (pf idx t bank first n : Nat) (r : RegDesc) (e : OutEntry) (b data : List Byte), s.controls pf idx 0x60 e →
    b = e.bytes → t = leAt b 8 1 →
    (t, r) ∈ [(0, R.ROUTE_DEST), (1, R.ROUTE_GROUP), (2, R.ROUTE_ROW), (3, R.ROUTE_COLUMN), (4, R.ROUTE_PORT)] →
    first = leAt b 12 4 → n = leAt b 16 4 → first + n ≤ tableEntries t → s.fmMay pf = true →
    bank = (if s.route.enabled = true then s.otherBank else leAt b 9 1 % 2) → bank < 2 → s.bank bank = 0 →
    n = 0 ∨ s.canMaster pf = true → data.length = 4 * n → (∀ i, i < tableEntries t → (s.rd r [bank, i]).toNat < 2 ^ 32) →
    0 < (s.cq (s.queue (ctrlQn pf)).cn).k →
    ∃ u, exec (.rtLoad pf idx 0 data) s = .next u ∧ s.ended u (ctrlQn pf) e 0 ∧
      ∀ i, i < tableEntries t → u.rd r [bank, i] =
        if first ≤ i ∧ i < first + n then r.written (s.rd r [bank, i]) (w64 (leAt data (4 * (i - first)) 4)) else s.rd r [bank, i]) ∧
  (∀ (s : State) (pf idx bank first : Nat) (e : OutEntry) (b data : List Byte), s.controls pf idx 0x60 e → b = e.bytes →
    leAt b 8 1 = 5 → first = leAt b 12 4 → leAt b 16 4 = 1 → first < 1024 → s.fmMay pf = true →
    bank = (if s.route.enabled = true then s.otherBank else leAt b 9 1 % 2) → bank < 2 → s.bank bank = 0 →
    s.canMaster pf = true → data.length = 16 → 0 < (s.cq (s.queue (ctrlQn pf)).cn).k →
    ∃ u, exec (.rtLoad pf idx 0 data) s = .next u ∧ s.ended u (ctrlQn pf) e 0 ∧
      u.rd R.ROUTE_PSET [bank, first, 0] = w64 (leAt data 0 8) ∧ u.rd R.ROUTE_PSET [bank, first, 1] = w64 (leAt data 8 8)) ∧
  (∀ (s : State) (pf idx : Nat) (e : OutEntry), s.controls pf idx 0x60 e → leAt e.bytes 8 1 = 6 → s.fmMay pf = true →
    s.route.enabled = true → s.route.active < 2 → s.bank s.otherBank = 0 → SMap.wf 0 s.regs = true →
    0 < (s.cq (s.queue (ctrlQn pf)).cn).k →
    ∃ u, exec (.rtLoad pf idx 0 []) s = .next u ∧ s.ended u (ctrlQn pf) e 0 ∧
      ∀ t r i, (t, r) ∈ [(0, R.ROUTE_DEST), (1, R.ROUTE_GROUP), (2, R.ROUTE_ROW), (3, R.ROUTE_COLUMN), (4, R.ROUTE_PORT)] →
        i < tableEntries t → u.rd r [s.otherBank, i] = s.rd r [s.route.active, i]) ∧
  (∀ (s : State) (pf idx : Nat) (e : OutEntry), s.controls pf idx 0x61 e → s.fmMay pf = true → s.armRefusal (w64 (leAt e.bytes 8 8)) = none →
    0 < (s.cq (s.queue (ctrlQn pf)).cn).k →
    ∃ u, exec (.rtArm pf idx) s = .next u ∧ s.ended u (ctrlQn pf) e 0 ∧ u.bank s.otherBank = 1 ∧
      u.rd R.ROUTE_SWITCH_FT = w64 (leAt e.bytes 8 8) ∧ u.route.active = s.route.active) ∧
  (∀ (s : State) (pf idx st : Nat) (e : OutEntry), s.controls pf idx 0x61 e → s.fmMay pf = true →
    s.armRefusal (w64 (leAt e.bytes 8 8)) = some st →
    ∃ u, exec (.rtArm pf idx) s = .next u ∧ s.ended u (ctrlQn pf) e st ∧ u.route = s.route) ∧
  (∀ (s : State) (pf idx b : Nat) (e : OutEntry), s.controls pf idx 0x62 e → s.fmMay pf = true → s.armedBank = some b →
    s.ftReached (s.rd R.ROUTE_SWITCH_FT) = false →
    ∃ u, exec (.rtCancel pf idx) s = .next u ∧ s.ended u (ctrlQn pf) e 0 ∧ u.bank b = 0 ∧ u.route.active = s.route.active) ∧
  (∀ (s : State) (pf idx : Nat) (e : OutEntry), s.controls pf idx 0x63 e → s.fmMay pf = true → s.route.active < 2 →
    s.route.bank0 < 4 → s.route.bank1 < 4 →
    ∃ u, exec (.rtQuery pf idx) s = .next u ∧ s.ended u (ctrlQn pf) e 0 ∧ u.route = s.route ∧
      ∃ c ∈ (u.cq (s.queue (ctrlQn pf)).cn).direct ++ (u.cq (s.queue (ctrlQn pf)).cn).held,
        c.work = some (ctrlQn pf, (s.queue (ctrlQn pf)).entryAddr e.idx) ∧
        leAt c.raw 4 4 = s.route.active * 2 ^ 8 + s.route.bank1 * 2 ^ 4 + s.route.bank0) ∧
  (∀ (s : State) (pf idx epid : Nat) (e : OutEntry), s.controls pf idx 0x64 e → epid = leAt e.bytes 8 3 →
    epid < 2 ^ s.fd F.ROUTE_EPT_CFG_LOG2_ENTRIES → s.fmMay pf = true → 0 < (s.cq (s.queue (ctrlQn pf)).cn).k →
    ∃ u, exec (.eptWrite pf idx) s = .next u ∧ s.ended u (ctrlQn pf) e 0 ∧ u.mem.readN (s.eptKey epid) 16 = byteSlice e.bytes 16 16 ∧
      u.eptCache.get none epid = none) ∧
  (∀ (s : State) (p : Path) (v : Word), s.mayWrite p R.ROUTE_EPT_INV.base = true →
    exec (.routeEptInv p v) s = .next (if bitW v 31 = true then { s with eptCache := [] } else s.eptDrop (bitsW v 23 0)))

/-- The enable of routing, arming, cancelling, the switch at its FT and the end of drain. routeEnable enables routing on a bank;
routeArm arms when nothing forbids it; routeCancel cancels before the time; epochSwitch happens when FT is valid and has reached
the time, the old bank draining until its end time, and otherwise nothing happens; drainEnd makes the bank idle. (13_routing.md
(R332, R334, R337).) -/
def Obligations.RouteSwitchover : Prop :=
  (∀ (s : State) (p : Path) (v : Word), s.mayWrite p R.ROUTE_EPOCH_CTRL.base = true → bitW v 31 = true → bitW v 30 = false →
    bitW v 29 = false → s.route.enabled = false →
    ∃ u, exec (.routeEnable p v) s = .next u ∧ u.route.enabled = true ∧ u.route.active = bitsW v 0 0 ∧ u.bank (bitsW v 0 0) = 2 ∧
      u.bank (1 - bitsW v 0 0) = s.bank (1 - bitsW v 0 0) ∧ u.fb F.ROUTE_EPOCH_CTRL_ENABLE = true) ∧
  (∀ (s : State) (p : Path) (v : Word), s.mayWrite p R.ROUTE_EPOCH_CTRL.base = true → bitW v 31 = false → bitW v 30 = true →
    bitW v 29 = false →
    ∃ u, exec (.routeArm p v) s = .next u ∧
      u.route = (if (s.armRefusal (s.rd R.ROUTE_SWITCH_FT)).isNone = true then (s.setBank s.otherBank 1).route else s.route)) ∧
  (∀ (s : State) (p : Path) (v : Word) (b : Nat), s.mayWrite p R.ROUTE_EPOCH_CTRL.base = true → bitW v 31 = false → bitW v 30 = false →
    bitW v 29 = true → s.armedBank = some b → s.ftReached (s.rd R.ROUTE_SWITCH_FT) = false →
    ∃ u, exec (.routeCancel p v) s = .next u ∧ u.bank b = 0 ∧ u.route.active = s.route.active ∧ u.route.enabled = s.route.enabled) ∧
  (∀ (s : State) (b : Nat), s.inSafe = false → s.armedBank = some b → s.ftValid = true → s.ftReached (s.rd R.ROUTE_SWITCH_FT) = true →
    ∃ u, exec .epochSwitch s = .next u ∧ u.route.active = b ∧ u.bank b = 2 ∧ u.bank (1 - b) = 3 ∧
      u.rd R.ROUTE_DRAIN_END_FT = w64 ((s.rd R.ROUTE_SWITCH_FT).toNat + (s.rd R.SLD_LIFETIME).toNat +
        (s.rd R.ROUTE_EPOCH_GUARD).toNat * ticksPerUs) ∧ s.keeps u [.ram, .net, .ports, .rings, .ops, .out]) ∧
  (∀ (s : State), s.armedBank = none ∨ s.ftValid = false ∨ s.ftReached (s.rd R.ROUTE_SWITCH_FT) = false →
    exec .epochSwitch s = .next s) ∧
  (∀ (s : State) (b : Nat), s.inSafe = false → firstBelow 2 (fun b => s.bank b == 3) = some b → s.ftValid = true →
    s.ftReached (s.rd R.ROUTE_DRAIN_END_FT) = true → exec .drainEnd s = .next (s.setBank b 0))

/-- Arrivals at Solder: expired, damaged, released in turn, held, spilled and read back. solderArrival: a packet whose ECRC fails,
that is too old or too far ahead, that arrives while halted, or that has no stream, is counted, and the last refused; on a
stream that failed, below its window or seen before, beyond the window, or in need of a context when all are in use, it is
refused or counted as a duplicate; in turn with delivery room it is released to its cluster by a reference with its item, or
consumed if Solder itself consumes it; out of turn it is held where the store has room and refused with the counter of what is
full otherwise. release releases the held packet whose turn has come, unless it is stale, when it is discarded and counted;
sweep drops only what is stale; readback and readbackDone bring a spilled packet back, unless it is stale. Tier and order among
streams are by when they became ready. (14_solder.md (R338, R339, R340, R341, R342, R343, R346, R347, R348); 15_link_layer.md
(R365).) -/
def Obligations.SolderStreams : Prop :=
  (∀ (s : State) (port : Nat) (x : RPkt) (rest : List (Nat × RPkt)) (t : State), s.inSafe = false →
    s.route.arrivals = (port, x) :: rest → t = { s with route := { s.route with arrivals := rest } }.freeAll x.cred →
    port < 128 → x.pkt.ecrc ≠ x.pkt.ecrcOf →
    exec (.solderArrival port) s = .next (t.bump R.LNK_ECRC_ERR_COUNT [port])) ∧
  (∀ (s : State) (cnt : RegDesc) (port : Nat) (x : RPkt) (rest : List (Nat × RPkt)) (t : State), s.inSafe = false →
    s.route.arrivals = (port, x) :: rest → t = { s with route := { s.route with arrivals := rest } }.freeAll x.cred →
    128 ≤ port ∨ x.pkt.ecrc = x.pkt.ecrcOf → s.staleReg x.pkt = some cnt → exec (.solderArrival port) s = .next (t.bump cnt)) ∧
  (∀ (s : State) (port : Nat) (x : RPkt) (rest : List (Nat × RPkt)) (t : State), s.inSafe = false →
    s.route.arrivals = (port, x) :: rest → t = { s with route := { s.route with arrivals := rest } }.freeAll x.cred →
    128 ≤ port ∨ x.pkt.ecrc = x.pkt.ecrcOf → s.expired x.pkt = false → s.tgf.halted = true → (s.localEpOf x.pkt).isSome = true →
    exec (.solderArrival port) s = .next (t.bump R.SLD_HALT_DISCARD_COUNT)) ∧
  (∀ (s : State) (port : Nat) (x : RPkt) (rest : List (Nat × RPkt)) (t : State), s.inSafe = false →
    s.route.arrivals = (port, x) :: rest → t = { s with route := { s.route with arrivals := rest } }.freeAll x.cred →
    128 ≤ port ∨ x.pkt.ecrc = x.pkt.ecrcOf → s.expired x.pkt = false → s.tgf.halted = false → x.pkt.op ≠ opAck →
    s.streamOf x.pkt = none →
    exec (.solderArrival port) s = .next ((t.refuseBare x.pkt s.ft 0x0B 1).bump R.SLD_NOCTX_COUNT)) ∧
  (∀ (s : State) (port r : Nat) (x : RPkt) (rest : List (Nat × RPkt)) (t : State) (p : Packet) (y : Stream),
    s.adapterHalted = false → SMap.wf Half.init s.net.halves = true → s.route.arrivals = (port, x) :: rest → p = x.pkt →
    t = ({ s with route := { s.route with arrivals := rest } }.freeAll x.cred).setRx r y →
    128 ≤ port ∨ p.ecrc = p.ecrcOf → s.expired p = false → p.op ≠ opAck → s.streamOf p = some r → p.rlx = (s.half r).rlx →
    y = { (s.half r).rx with peer := p.srcDn } → y.fail = true →
    exec (.solderArrival port) s = .next (t.refuse r p s.ft (p.holdover || s.holdover) 0x0B 2)) ∧
  (∀ (s : State) (port r : Nat) (x : RPkt) (rest : List (Nat × RPkt)) (t : State) (p : Packet) (y : Stream),
    s.adapterHalted = false → SMap.wf Half.init s.net.halves = true → s.route.arrivals = (port, x) :: rest → p = x.pkt →
    t = ({ s with route := { s.route with arrivals := rest } }.freeAll x.cred).setRx r y →
    128 ≤ port ∨ p.ecrc = p.ecrcOf → s.expired p = false → p.op ≠ opAck → s.streamOf p = some r → p.rlx = (s.half r).rlx →
    y = { (s.half r).rx with peer := p.srcDn } → y.fail = false →
    2 ^ 31 ≤ (p.seq - y.e).toNat ∨ y.marked p.seq = true → exec (.solderArrival port) s = .next (t.duplicate r p)) ∧
  (∀ (s : State) (port r : Nat) (x : RPkt) (rest : List (Nat × RPkt)) (t : State) (p : Packet) (y : Stream),
    s.adapterHalted = false → SMap.wf Half.init s.net.halves = true → s.route.arrivals = (port, x) :: rest → p = x.pkt →
    t = ({ s with route := { s.route with arrivals := rest } }.freeAll x.cred).setRx r y →
    128 ≤ port ∨ p.ecrc = p.ecrcOf → s.expired p = false → p.op ≠ opAck → s.streamOf p = some r → p.rlx = (s.half r).rlx →
    y = { (s.half r).rx with peer := p.srcDn } → y.fail = false →
    (p.seq - y.e).toNat < 2 ^ 31 → y.marked p.seq = false → s.fd F.SLD_WINDOW_W ≤ (p.seq - y.e).toNat →
    exec (.solderArrival port) s =
      .next ((t.bump R.SLD_REFUSE_WINDOW_COUNT).refuse r p s.ft (p.holdover || s.holdover) 0x40 0)) ∧
  (∀ (s : State) (port r : Nat) (x : RPkt) (rest : List (Nat × RPkt)) (t : State) (p : Packet) (y : Stream),
    s.adapterHalted = false → SMap.wf Half.init s.net.halves = true → s.route.arrivals = (port, x) :: rest → p = x.pkt →
    t = ({ s with route := { s.route with arrivals := rest } }.freeAll x.cred).setRx r y →
    128 ≤ port ∨ p.ecrc = p.ecrcOf → s.expired p = false → p.op ≠ opAck → s.streamOf p = some r → p.rlx = (s.half r).rlx →
    y = { (s.half r).rx with peer := p.srcDn } → y.fail = false →
    (p.seq - y.e).toNat < 2 ^ 31 → y.marked p.seq = false → (p.seq - y.e).toNat < s.fd F.SLD_WINDOW_W → p.seq ≠ y.e →
    y.ctx = false → 65536 ≤ s.ctxUsed →
    exec (.solderArrival port) s =
      .next ((t.bump R.SLD_REFUSE_CTX_COUNT).refuse r p s.ft (p.holdover || s.holdover) 0x40 0)) ∧
  (∀ (s : State) (port r : Nat) (x : RPkt) (rest : List (Nat × RPkt)) (t : State) (p : Packet) (y : Stream) (ref : Nat),
    s.adapterHalted = false → SMap.wf Half.init s.net.halves = true → s.route.arrivals = (port, x) :: rest → p = x.pkt →
    t = ({ s with route := { s.route with arrivals := rest } }.freeAll x.cred).setRx r y →
    128 ≤ port ∨ p.ecrc = p.ecrcOf → s.expired p = false → p.op ≠ opAck → s.streamOf p = some r → p.rlx = (s.half r).rlx →
    y = { (s.half r).rx with peer := p.srcDn } → y.fail = false →
    (p.seq - y.e).toNat < 2 ^ 31 → y.marked p.seq = false → (p.seq - y.e).toNat < s.fd F.SLD_WINDOW_W →
    p.seq = y.e ∨ y.ctx = true ∨ s.ctxUsed < 65536 → s.nextReady = none →
    y.releasable (s.half r).rlx s.strictDepth p = true → selfConsumed p = false →
    s.freeRef (r / 16384) = some ref → r < 262144 → (s.half r).fifo < 4 →
    (s.half r).isRed p = true ∨ s.wfRoom (4 * (r / 16384) + (s.half r).fifo) false 2 = true →
    ∃ u z, exec (.solderArrival port) s = .next u ∧ u.route.arrivals = rest ∧ u.pktRef (r / 16384) ref = some z ∧ z.pkt = p ∧ z.conn = r ∧
      z.doom = none ∧ z.accepted = false ∧ (u.half r).rx.released = (s.half r).rx.released ++ [(p.seq, ref)] ∧
      (u.half r).rx.e = (s.half r).rx.e ∧ u.mem = s.mem ∧
      ((s.half r).isRed p = false → ∃ w ∈ (u.fifo (4 * (r / 16384) + (s.half r).fifo)).writing,
        w.item = pktItem (s.half r) p ref s.ft)) ∧
  (∀ (s : State) (port r : Nat) (x : RPkt) (rest : List (Nat × RPkt)) (t : State) (p : Packet) (y : Stream),
    s.adapterHalted = false → SMap.wf Half.init s.net.halves = true → s.route.arrivals = (port, x) :: rest → p = x.pkt →
    t = ({ s with route := { s.route with arrivals := rest } }.freeAll x.cred).setRx r y →
    128 ≤ port ∨ p.ecrc = p.ecrcOf → s.expired p = false → p.op ≠ opAck → s.streamOf p = some r → p.rlx = (s.half r).rlx →
    y = { (s.half r).rx with peer := p.srcDn } → y.fail = false →
    p.seq = y.e → y.marked p.seq = false → 0 < s.fd F.SLD_WINDOW_W → s.nextReady = none →
    y.releasable (s.half r).rlx s.strictDepth p = true → selfConsumed p = true → y.consumed = [] →
    ∃ u, exec (.solderArrival port) s = .next u ∧ (u.half r).rx.e = y.e + 1 ∧ (u.half r).rx.consumed = [] ∧ u.fifos = s.fifos ∧
      u.clusters = s.clusters ∧ u.mem = s.mem) ∧
  (∀ (s : State) (port r : Nat) (x : RPkt) (rest : List (Nat × RPkt)) (t : State) (p : Packet) (y : Stream) (pl : Place) (rs : Bool),
    s.adapterHalted = false → SMap.wf Half.init s.net.halves = true → s.route.arrivals = (port, x) :: rest → p = x.pkt →
    t = ({ s with route := { s.route with arrivals := rest } }.freeAll x.cred).setRx r y →
    128 ≤ port ∨ p.ecrc = p.ecrcOf → s.expired p = false → p.op ≠ opAck → s.streamOf p = some r → p.rlx = (s.half r).rlx →
    y = { (s.half r).rx with peer := p.srcDn } → y.fail = false →
    (p.seq - y.e).toNat < 2 ^ 31 → y.marked p.seq = false → (p.seq - y.e).toNat < s.fd F.SLD_WINDOW_W →
    p.seq = y.e ∨ y.ctx = true ∨ s.ctxUsed < 65536 → y.turn (s.half r).rlx p = false →
    s.placeFor { s.half r with rx := y } p false = .at_ pl rs →
    ∃ u z, exec (.solderArrival port) s = .next u ∧ z ∈ (u.half r).rx.held ∧ z.pkt = p ∧ z.place = pl ∧
      (u.half r).rx.released = (s.half r).rx.released ∧ u.clusters = s.clusters ∧ u.fifos = s.fifos ∧ (pl ≠ .spill → u.mem = s.mem)) ∧
  (∀ (s : State) (port r : Nat) (x : RPkt) (rest : List (Nat × RPkt)) (t : State) (p : Packet) (y : Stream) (cnt : RegDesc),
    s.adapterHalted = false → SMap.wf Half.init s.net.halves = true → s.route.arrivals = (port, x) :: rest → p = x.pkt →
    t = ({ s with route := { s.route with arrivals := rest } }.freeAll x.cred).setRx r y →
    128 ≤ port ∨ p.ecrc = p.ecrcOf → s.expired p = false → p.op ≠ opAck → s.streamOf p = some r → p.rlx = (s.half r).rlx →
    y = { (s.half r).rx with peer := p.srcDn } → y.fail = false →
    (p.seq - y.e).toNat < 2 ^ 31 → y.marked p.seq = false → (p.seq - y.e).toNat < s.fd F.SLD_WINDOW_W →
    p.seq = y.e ∨ y.ctx = true ∨ s.ctxUsed < 65536 → y.turn (s.half r).rlx p = false →
    s.placeFor { s.half r with rx := y } p false = .refuse cnt →
    exec (.solderArrival port) s =
      .next (((t.owl p).bump cnt).refuse r p s.ft (p.holdover || s.holdover) 0x40 0)) ∧
  (∀ (s : State) (r ref : Nat) (x : Held), s.nextHeld (s.half r) = some x → s.adapterHalted = false → s.heldStale x = none →
    (∀ e ∈ s.net.halves, ∀ y, e.1 ≠ r → s.nextHeld (s.half e.1) = some y → x.readyOrder ≤ y.readyOrder) →
    selfConsumed x.pkt = false → s.freeRef (r / 16384) = some ref →
    (s.half r).isRed x.pkt = true ∨ s.wfRoom (4 * (r / 16384) + (s.half r).fifo) false 2 = true →
    ∃ u y, exec (.release r) s = .next u ∧ u.pktRef (r / 16384) ref = some y ∧ y.pkt = x.pkt ∧ y.conn = r ∧
      (∀ z ∈ (u.half r).rx.held, z.pkt.seq ≠ x.pkt.seq) ∧
      (u.half r).rx.released = (s.half r).rx.released ++ [(x.pkt.seq, ref)]) ∧
  (∀ (s : State) (r : Nat) (x : Held) (cnt : RegDesc), s.nextHeld (s.half r) = some x → s.adapterHalted = false →
    s.heldStale x = some cnt →
    (∀ e ∈ s.net.halves, ∀ y, e.1 ≠ r → s.nextHeld (s.half e.1) = some y → x.readyOrder ≤ y.readyOrder) →
    exec (.release r) s = .next (s.discardHeld r x cnt)) ∧
  (∀ (s : State), s.adapterHalted = false →
    ∃ u, exec .sweep s = .next u ∧
      (∀ r, ∀ x ∈ (u.half r).rx.held, x ∈ (s.half r).rx.held ∧ (x.place = .onDie → s.heldStale x = none)) ∧
      (∀ r, ∀ x ∈ (s.half r).rx.held,
        (∀ y ∈ (s.half r).rx.held, y.pkt.seq = x.pkt.seq → y.place = .onDie → s.heldStale y = none) → x ∈ (u.half r).rx.held) ∧
      s.keeps u [.ram, .clusters, .rings, .ops, .fifos, .out]) ∧
  (∀ (s : State) (r n : Nat) (x : Held) (res : Bool), s.inSafe = false →
    (s.half r).rx.held.find? (fun y => y.pkt.seq == BitVec.ofNat 32 n && y.place == .spill) = some x →
    (x.pkt.seq - (if (s.half r).rlx = true then (s.half r).rx.e else (s.half r).rx.nr)).toNat < s.fd F.SLD_CFG_PREFETCH →
    s.onDieRoom x.pkt.cells true = some res →
    ∃ u, exec (.readback r n) s = .next u ∧ { x with place := .readBack, reserve := res } ∈ (u.half r).rx.held ∧ u.regs = s.regs) ∧
  (∀ (s : State) (r n : Nat) (x : Held), s.inSafe = false →
    (s.half r).rx.held.find? (fun y => y.pkt.seq == BitVec.ofNat 32 n && y.place == .readBack) = some x → s.heldStale x = none →
    ∃ u z, exec (.readbackDone r n) s = .next u ∧ z ∈ (u.half r).rx.held ∧ z.pkt = x.pkt ∧ z.place = .onDie ∧
      u.regs = (s.bump R.SLD_READBACK_COUNT).regs) ∧
  (∀ (s : State) (r n : Nat) (x : Held) (cnt : RegDesc), s.inSafe = false →
    (s.half r).rx.held.find? (fun y => y.pkt.seq == BitVec.ofNat 32 n && y.place == .readBack) = some x → s.heldStale x = some cnt →
    exec (.readbackDone r n) s = .next ((s.bump R.SLD_READBACK_COUNT).discardHeld r x cnt))

/-! ## Links and egress -/

/-- A port trains from DETECT to ACTIVE. linkEnable, linkDisable and retrain move the port as the state table says; signalDetect, a
TS1 and retryWait bring it to TRAIN, and a TS1 gives the lane the partner's report and acts on a new preset request; ts2 records
the partner, lanes swapped if they came so, or fails on an unexpected partner or no common rate or lane; configComplete after
eight TS2 goes on to LOCK with the common lanes and rate; the ts3 of count 0 begins the slots; slotLock makes the port ACTIVE
with the partner's credit and an empty replay store. (15_link_layer.md (R353, R354, R355, R357, R378, R380);
17_lanes_and_ports.md (R406, R407, R408, R410, R413).) -/
def Obligations.LinkTraining : Prop :=
  (∀ (s : State) (path : Path) (p : Nat) (v : Word), s.mayWrite path (R.LNK_CTRL.addr [p]) = true → p < s.portCount → bitW v 0 = true →
    (s.port p).st = .disabled → (s.port p).retired = false →
    ∃ u, exec (.linkEnable path p v) s = .next u ∧ (u.port p).st = .train ∧ (u.port p).since = s.loc ∧ s.keeps u [.ram, .net, .rings, .ops]) ∧
  (∀ (s : State) (path : Path) (p : Nat) (v : Word), s.mayWrite path (R.LNK_CTRL.addr [p]) = true → p < s.portCount → bitW v 0 = false →
    ∃ u, exec (.linkDisable path p v) s = .next u ∧ (u.port p).st = .disabled) ∧
  (∀ (s : State) (path : Path) (p : Nat) (v : Word), s.mayWrite path (R.LNK_CTRL.addr [p]) = true → p < s.portCount → bitW v 0 = true →
    bitW v 1 = true → (s.port p).st = .active →
    ∃ u, exec (.retrain path p v) s = .next u ∧ (u.port p).st = .train ∧ u.net = s.net) ∧
  (∀ (s : State) (p l : Nat), p < s.portCount → l < 2 → s.parked = false → s.laneEnabled p l = true →
    (s.port p).st = .detect ∨ (s.port p).st = .quiet →
    ∃ u, exec (.signalDetect p l) s = .next u ∧ (u.port p).st = .train ∧ (u.lane p l).signal = true) ∧
  (∀ (s : State) (p : Nat) (c : Instr), (s.port p).st = .detect → s.fb F.LNK_CTRL_ENABLE [p] = true →
    (s.lane p 0).retired = false ∨ (s.lane p 1).retired = false →
    s.fd F.LANE_TRAIN_CFG_RETRY_WAIT * 1000 * ticksPerUs ≤ s.locSince (s.port p).since → c = .retryWait p →
    ∃ u, exec c s = .next u ∧ (u.port p).st = .train) ∧
  (∀ (s : State) (p l : Nat) (f : TsFrame), p < s.portCount → l < 2 → s.parked = false → s.laneEnabled p l = true →
    (s.port p).st ∈ [LState.detect, .train, .config, .faulted, .quiet] → f.ok = true → f.ty = 1 →
    ∃ u, exec (.ts1 p l f) s = .next u ∧ (u.port p).st ∈ [LState.train, .config] ∧ (u.lane p l).stage = 5 ∧
      (u.lane p l).signal = true ∧ (u.lane p l).snr = f.ownSnr ∧ (u.lane p l).stsId = f.reqId ∧
      (f.reqId ≠ (s.lane p l).stsId → f.req.cmd = 1 → 1 ≤ f.req.preset → f.req.preset ≤ 5 →
        ((u.lane p l).m3, (u.lane p l).m2, (u.lane p l).m1, (u.lane p l).p1) = presetTaps f.req.preset ∧ (u.lane p l).sts = 1)) ∧
  (∀ (s : State) (p l w : Nat) (f : TsFrame), (s.port p).st = .config → l < 2 → s.laneEnabled p l = true → f.ok = true → f.ty = 2 →
    w = (if f.lane = l then f.lanes else f.lanes % 2 * 2 + f.lanes / 2) →
    (s.fb F.PORT_EXPECT_EN [p] = true → s.fd F.PORT_EXPECT_DN [p] = f.dn ∧ s.fd F.PORT_EXPECT_PORT [p] = f.port) →
    (s.port p).cfg.rates &&& f.rates ≠ 0 → (s.port p).cfg.lanes &&& w ≠ 0 →
    ∃ u, exec (.ts2 p l f) s = .next u ∧ (u.port p).st = .config ∧ (u.port p).cfg.ts2 = (s.port p).cfg.ts2 + 1 ∧
      (u.port p).cfg.peerRates = f.rates ∧ (u.port p).cfg.peerLanes = w ∧ (u.lane p l).swapped = decide (f.lane ≠ l) ∧
      (u.port p).cfg.peerDn = f.dn ∧ (u.port p).cfg.peerPort = f.port ∧ (u.port p).cfg.peerMin = f.min ∧
      (u.port p).cfg.peerShared = f.shared ∧ s.keeps u [.ram, .net, .route, .regs, .out]) ∧
  (∀ (s : State) (p l : Nat) (f : TsFrame), (s.port p).st = .config → l < 2 → s.laneEnabled p l = true → f.ok = true → f.ty = 2 →
    s.fb F.PORT_EXPECT_EN [p] = true → s.fd F.PORT_EXPECT_DN [p] ≠ f.dn ∨ s.fd F.PORT_EXPECT_PORT [p] ≠ f.port →
    ∃ u, exec (.ts2 p l f) s = .next u ∧ (u.port p).st = .detect) ∧
  (∀ (s : State) (p l w : Nat) (f : TsFrame), (s.port p).st = .config → l < 2 → s.laneEnabled p l = true → f.ok = true → f.ty = 2 →
    w = (if f.lane = l then f.lanes else f.lanes % 2 * 2 + f.lanes / 2) →
    (s.port p).cfg.rates &&& f.rates = 0 ∨ (s.port p).cfg.lanes &&& w = 0 →
    ∃ u, exec (.ts2 p l f) s = .next u ∧ (u.port p).st = .detect) ∧
  (∀ (s : State) (p rates lanes : Nat), (s.port p).st = .config → 8 ≤ (s.port p).cfg.ts2 →
    rates = (s.port p).cfg.rates &&& (s.port p).cfg.peerRates → lanes = (s.port p).cfg.lanes &&& (s.port p).cfg.peerLanes →
    rates ≠ 0 → lanes ≠ 0 →
    ∃ u, exec (.configComplete p) s = .next u ∧ (u.port p).st = .lock ∧ (u.port p).cfg.lanes = lanes ∧
      (u.port p).cfg.rate56 = !nbit rates 0 ∧ s.keeps u [.ram, .net, .route, .regs]) ∧
  (∀ (s : State) (p : Nat) (f : TsFrame), (s.port p).st = .config ∨ (s.port p).st = .lock → f.ok = true → f.ty = 3 → f.count = 0 →
    ∃ u, exec (.ts3 p f) s = .next u ∧ (u.port p).rx.framed = true ∧ (u.port p).rx.line = [] ∧ (u.port p).st = (s.port p).st ∧
      s.keeps u [.ram, .net, .route, .regs, .lanes, .out]) ∧
  (∀ (s : State) (p : Nat), (s.port p).st = .lock → 4 ≤ (s.port p).rx.cwRun → 8 ≤ (s.port p).rx.okRun →
    ∃ u, exec (.slotLock p) s = .next u ∧ (u.port p).st = .active ∧ (u.port p).tx.ded = List.replicate 8 (s.port p).cfg.peerMin ∧
      (u.port p).tx.sh = (s.port p).cfg.peerShared ∧ (u.port p).tx.store = [] ∧ (u.port p).rx.x = 0 ∧
      (u.port p).tx.queues = (s.port p).tx.queues ∧ s.keeps u [.ram, .net, .route, .regs, .out])

/-- Timeouts of training, loss of lock, FAULT, SLEEP, wake and replay timeout. configTimeout, lockTimeout and trainTimeout move the
port as the state table says, the last to CONFIG with the lanes that have trained if none still trains; lockLost drops queues
and replay store and trains again; fault and sleep of the partner move the port to FAULTED and QUIET; linkWake sends the wake
pattern on the usable lanes and wakePatternEnd ends in TRAIN; replayTimeout sends the store again or, too often without
progress, trains again. (15_link_layer.md (R357, R363, R364, R376, R378); 17_lanes_and_ports.md (R406, R407, R414).) -/
def Obligations.LinkFailures : Prop :=
  (∀ (s : State) (p : Nat), (s.port p).st = .config → 100 * ticksPerUs ≤ s.locSince (s.port p).since →
    ∃ u, exec (.configTimeout p) s = .next u ∧ (u.port p).st = .detect) ∧
  (∀ (s : State) (p : Nat), (s.port p).st = .lock → 1000 * ticksPerUs ≤ s.locSince (s.port p).since →
    ∃ u, exec (.lockTimeout p) s = .next u ∧ (u.port p).st = .train) ∧
  (∀ (s : State) (p : Nat), (s.port p).st = .train →
    300 * ticksPerUs + s.fd F.LANE_TRAIN_CFG_EQ_BUDGET * 1000 * ticksPerUs ≤ s.locSince (s.port p).since →
    (∀ l ∈ s.usableLanes p, (s.lane p l).trained = false ∧ (s.lane p l).signal = false) →
    ∃ u, exec (.trainTimeout p) s = .next u ∧ (u.port p).st = .detect ∧ (u.port p).cfg.failed112 = !(s.port p).cfg.rate56) ∧
  (∀ (s : State) (p : Nat) (ls : List Nat), (s.port p).st = .train →
    300 * ticksPerUs + s.fd F.LANE_TRAIN_CFG_EQ_BUDGET * 1000 * ticksPerUs ≤ s.locSince (s.port p).since →
    ls = (s.usableLanes p).filter (fun l => (s.lane p l).trained) → ls ≠ [] →
    (∀ l ∈ s.usableLanes p, (s.lane p l).trained = true ∨ (s.lane p l).signal = false) →
    ∃ u, exec (.trainTimeout p) s = .next u ∧ (u.port p).st = .config ∧ (u.port p).cfg.lanes = laneMask ls) ∧
  (∀ (s : State) (p : Nat), (s.port p).st = .active → 16 ≤ (s.port p).rx.failRun →
    ∃ u, exec (.lockLost p) s = .next u ∧ (u.port p).st = .train ∧ (u.port p).tx.store = [] ∧ (u.port p).tx.queues = []) ∧
  (∀ (s : State) (p reason : Nat), (s.port p).st = .active →
    ∃ u, exec (.fault p reason) s = .next u ∧ (u.port p).st = .faulted ∧ (u.port p).peerFault = true ∧ (u.port p).tx.queues = []) ∧
  (∀ (s : State) (p : Nat), (s.port p).st = .active →
    ∃ u, exec (.sleep p) s = .next u ∧ (u.port p).st = .quiet ∧ (u.port p).tx.queues = []) ∧
  (∀ (s : State) (p : Nat), (s.port p).st = .quiet → s.parked = false → s.fb F.LNK_CTRL_ENABLE [p] = true → (s.port p).waking = none →
    exec (.linkWake p) s = .next ((s.setPort p { s.port p with waking := some s.loc }).emit (.wakePattern p (s.usableLanes p) true))) ∧
  (∀ (s : State) (p : Nat) (t : Word), (s.port p).waking = some t → 10000 * ticksPerUs ≤ s.locSince t →
    ∃ u, exec (.wakePatternEnd p) s = .next u ∧ (u.port p).st = .train ∧ (u.port p).waking = none) ∧
  (∀ (s : State) (p : Nat) (c : SentCell) (cs : List SentCell), (s.port p).st = .active → (s.port p).tx.store = c :: cs →
    s.replayTicks p ≤ s.locSince (s.port p).tx.progAt →
    ∃ u, exec (.replayTimeout p) s = .next u ∧
      (if (s.port p).cfg.replayMax ≤ (s.port p).tx.noProg then (u.port p).st = .train
       else (u.port p).st = .active ∧ (u.port p).tx.replay = c :: cs ∧ (u.port p).tx.noProg = (s.port p).tx.noProg + 1))

/-- Slots received: in order, out of order, damaged, idle; credit and acknowledgement. slotReceived, of the slot that the codewords
make whole: a packet of one cell in the expected slot goes to the port's tile and the expected number moves on; first, middle
and last cells of a longer one are put together and the whole goes to the tile; an unexpected number or a damaged slot asks for
replay and changes nothing of what was received; an ordered set gives its credit and acknowledgement, with NAK begins the
replay, as FAULT twice moves the port to FAULTED, as SLEEP to QUIET; in LOCK good slots are counted; with no whole slot only the
codewords are taken in, and outside LOCK and ACTIVE, before the stream starts or in the safe state nothing happens. Credit
returns the difference of its running total; an acknowledgement frees the slots up to its number. (15_link_layer.md (R358, R361,
R365, R367, R369, R371, R372, R375, R376).) -/
def Obligations.SlotsReceived : Prop :=
  (∀ (s t : State) (p : Nat) (cws : List Codeword) (f : Slot) (pk : Packet), (s.port p).st = .active → (s.port p).rx.framed = true → s.inSafe = false →
    s.slotFrom p cws = (some f, t) → f.ok = true → f.ctype = 4 →
    f.nak = false → f.lseq = (s.port p).rx.x → (s.port p).rx.asm = none → pk = packetOf (byteSlice f.body 0 256) → pk.headOk = true →
    pk.hc = f.chc → pk.cells = 1 →
    ∃ u x, exec (.slotReceived p cws) s = .next u ∧ (u.port p).rx.x = (f.lseq + 1) % 4096 ∧ (u.port p).rx.nak = false ∧
      u.route.tiles.get [] (tileOfPort p) = s.route.tiles.get [] (tileOfPort p) ++ [x] ∧ x.pkt = pk ∧ x.src = some p ∧ x.h = pk.hc + 1) ∧
  (∀ (s t : State) (p : Nat) (cws : List Codeword) (f : Slot), (s.port p).st = .active → (s.port p).rx.framed = true → s.inSafe = false →
    s.slotFrom p cws = (some f, t) → f.ok = true → f.ctype = 1 → f.nak = false → f.lseq = (s.port p).rx.x →
    (s.port p).rx.asm = none →
    ∃ u a, exec (.slotReceived p cws) s = .next u ∧ (u.port p).rx.x = (f.lseq + 1) % 4096 ∧ (u.port p).rx.asm = some a ∧
      a.bytes = byteSlice f.body 0 256 ∧ a.cells = 1 ∧ a.hc = f.chc ∧ a.bad = false ∧ u.route.tiles = s.route.tiles) ∧
  (∀ (s t : State) (p : Nat) (cws : List Codeword) (f : Slot) (a : Assembly), (s.port p).st = .active → (s.port p).rx.framed = true → s.inSafe = false →
    s.slotFrom p cws = (some f, t) → f.ok = true → f.ctype = 2 → f.nak = false → f.lseq = (s.port p).rx.x →
    (s.port p).rx.asm = some a → a.bad = false → a.cells < 17 → f.chc = a.hc →
    ∃ u b, exec (.slotReceived p cws) s = .next u ∧ (u.port p).rx.asm = some b ∧ b.bytes = a.bytes ++ byteSlice f.body 0 256 ∧
      b.cells = a.cells + 1 ∧ b.bad = false ∧ u.route.tiles = s.route.tiles) ∧
  (∀ (s t : State) (p : Nat) (cws : List Codeword) (f : Slot) (a : Assembly) (pk : Packet), (s.port p).st = .active → (s.port p).rx.framed = true → s.inSafe = false →
    s.slotFrom p cws = (some f, t) → f.ok = true → f.ctype = 3 → f.nak = false → f.lseq = (s.port p).rx.x →
    (s.port p).rx.asm = some a → a.bad = false → a.cells < 17 → f.chc = a.hc → pk = packetOf (a.bytes ++ byteSlice f.body 0 256) →
    pk.headOk = true → pk.hc = a.hc → pk.cells = a.cells + 1 →
    ∃ u x, exec (.slotReceived p cws) s = .next u ∧ (u.port p).rx.asm = none ∧
      u.route.tiles.get [] (tileOfPort p) = s.route.tiles.get [] (tileOfPort p) ++ [x] ∧ x.pkt = pk ∧ x.src = some p ∧ x.h = pk.hc + 1) ∧
  (∀ (s t : State) (p : Nat) (cws : List Codeword) (f : Slot), (s.port p).st = .active → (s.port p).rx.framed = true → s.inSafe = false →
    s.slotFrom p cws = (some f, t) → f.ok = true → 1 ≤ f.ctype → f.ctype ≤ 4 → f.nak = false →
    f.lseq ≠ (s.port p).rx.x →
    ∃ u, exec (.slotReceived p cws) s = .next u ∧ (u.port p).rx.x = (s.port p).rx.x ∧ (u.port p).rx.nak = true ∧
      (u.port p).rx.asm = (s.port p).rx.asm ∧ s.keeps u [.ram, .net, .route]) ∧
  (∀ (s t : State) (p : Nat) (cws : List Codeword) (f : Slot), (s.port p).st = .active → (s.port p).rx.framed = true → s.inSafe = false →
    s.slotFrom p cws = (some f, t) → f.ok = false →
    ∃ u, exec (.slotReceived p cws) s = .next u ∧ (u.port p).rx.x = (s.port p).rx.x ∧ (u.port p).rx.nak = true ∧
      (u.port p).rx.failRun = (s.port p).rx.failRun + 1 ∧ (u.port p).tx = (s.port p).tx ∧ s.keeps u [.ram, .net, .route]) ∧
  (∀ (s t : State) (p : Nat) (cws : List Codeword) (f : Slot), (s.port p).st = .active → (s.port p).rx.framed = true → s.inSafe = false →
    s.slotFrom p cws = (some f, t) → f.ok = true → f.ctype = 8 → f.nak = false → leAt f.body 0 1 ≤ 3 →
    ∃ u, exec (.slotReceived p cws) s = .next u ∧ (u.port p).st = .active ∧
      (u.port p).tx = (((s.port p).tx.credited f.cra).credited f.crb).acked f.lack s.loc ∧ (u.port p).rx.failRun = 0) ∧
  (∀ (s t : State) (p : Nat) (cws : List Codeword) (f : Slot) (x : LinkTx), (s.port p).st = .active → (s.port p).rx.framed = true → s.inSafe = false →
    s.slotFrom p cws = (some f, t) → f.ok = true → f.ctype = 8 → f.nak = true → leAt f.body 0 1 ≤ 3 →
    x = (((s.port p).tx.credited f.cra).credited f.crb).acked f.lack s.loc → x.store ≠ [] → x.lastStart = none →
    x.noProg < (s.port p).cfg.replayMax →
    ∃ u, exec (.slotReceived p cws) s = .next u ∧ (u.port p).st = .active ∧ (u.port p).tx.replay = x.store ∧
      (u.port p).tx.noProg = x.noProg + 1) ∧
  (∀ (s t : State) (p : Nat) (cws : List Codeword) (f : Slot), (s.port p).st = .active → (s.port p).rx.framed = true → s.inSafe = false →
    s.slotFrom p cws = (some f, t) → f.ok = true → f.ctype = 8 → f.nak = false → leAt f.body 0 1 = 4 →
    ∃ u, exec (.slotReceived p cws) s = .next u ∧ (u.port p).st = (if (s.port p).rx.faultSeen = true then .faulted else .active) ∧
      ((s.port p).rx.faultSeen = false → (u.port p).rx.faultSeen = true)) ∧
  (∀ (s t : State) (p : Nat) (cws : List Codeword) (f : Slot), (s.port p).st = .active → (s.port p).rx.framed = true → s.inSafe = false →
    s.slotFrom p cws = (some f, t) → f.ok = true → f.ctype = 8 → f.nak = false → leAt f.body 0 1 = 5 →
    ∃ u, exec (.slotReceived p cws) s = .next u ∧ (u.port p).st = .quiet) ∧
  (∀ (s t : State) (p : Nat) (cws : List Codeword) (f : Slot), (s.port p).st = .lock → (s.port p).rx.framed = true → s.inSafe = false →
    s.slotFrom p cws = (some f, t) → f.ok = true → ctypeOk f.ctype = true →
    ∃ u, exec (.slotReceived p cws) s = .next u ∧ (u.port p).rx.okRun = (s.port p).rx.okRun + 1 ∧ (u.port p).rx.failRun = 0 ∧
      (u.port p).tx = (s.port p).tx ∧ s.keeps u [.ram, .net, .route]) ∧
  (∀ (s t : State) (p : Nat) (cws : List Codeword), (s.port p).st = .active ∨ (s.port p).st = .lock → (s.port p).rx.framed = true →
    s.inSafe = false → s.slotFrom p cws = (none, t) → exec (.slotReceived p cws) s = .next t) ∧
  (∀ (s : State) (p : Nat) (cws : List Codeword), s.inSafe = true ∨ (s.port p).rx.framed = false ∨
      ((s.port p).st ≠ .active ∧ (s.port p).st ≠ .lock) → exec (.slotReceived p cws) s = .next s) ∧
  (∀ (x : LinkTx) (k n : Nat), k < 8 → n < 4096 → x.ded.length = 8 → x.seen.length = 9 →
    (x.credited (k * 4096 + n)).ded.getD k 0 = x.ded.getD k 0 + (n + 4096 - x.seen.getD k 0) % 4096 ∧
    (x.credited (k * 4096 + n)).seen.getD k 0 = n) ∧
  (∀ (x : LinkTx) (c : SentCell) (cs : List SentCell) (lack : Nat) (now : Word), x.store = c :: cs → lack < 4096 → c.lseq < 4096 →
    (lack + 4097 - c.lseq) % 4096 ≤ x.store.length → (lack + 4097 - c.lseq) % 4096 ≠ 0 →
    (x.acked lack now).store = x.store.drop ((lack + 4097 - c.lseq) % 4096))

/-- What a port sends in a slot, and how slots, frames and levels stand for their bytes. slotSend: a slot carries first what is
replayed, then the next cell of the packet in flight with the next number, then the first class 7 packet that its tokens cover,
and with nothing to send, or in LOCK, it is IDLE; in the safe state it is FAULT. What leaves besides is only levels of the port.
A slot is its 272 bytes and back; a TS frame's levels give the fields that it was made of; the scrambler is undone by the
descrambler of the same register; a symbol is five levels and back; the symbols of two lanes interleave and come apart.
(15_link_layer.md (R352, R353, R356, R358, R360, R361, R376, R377); 16_egress_scheduling.md (R382, R383, R384); 19_faults.md
(R450).) -/
def Obligations.SlotsSent : Prop :=
  (∀ (s : State) (p : Nat) (c : SentCell) (cs : List SentCell), (s.port p).st = .active → s.tgf.txOff = false → s.inSafe = false →
    (s.port p).tx.replay = c :: cs →
    ∃ u g, exec (.slotSend p) s = .next u ∧ (∃ ls, u.out = ls ++ .slot p g :: s.out ∧ (∀ e ∈ ls, ∃ l v, e = .levels p l v)) ∧ g.lseq = c.lseq ∧ g.ctype = c.ctype ∧ g.body = c.body ∧
      (u.port p).tx.replay = cs ∧ (u.port p).tx.lseq = (s.port p).tx.lseq) ∧
  (∀ (s : State) (p : Nat) (f : InFlight), (s.port p).st = .active → s.tgf.txOff = false → s.inSafe = false →
    (s.port p).tx.replay = [] → (s.port p).tx.store.length < (s.port p).window → (s.port p).tx.cur = some f →
    ∃ u g, exec (.slotSend p) s = .next u ∧ (∃ ls, u.out = ls ++ .slot p g :: s.out ∧ (∀ e ∈ ls, ∃ l v, e = .levels p l v)) ∧ g.lseq = (s.port p).tx.lseq ∧
      g.ctype = ctypeOf f.sent f.e.cells ∧ g.body = byteSlice f.e.out.bytes (256 * f.sent) 256 ∧
      (u.port p).tx.lseq = ((s.port p).tx.lseq + 1) % 4096 ∧ (u.port p).tx.store.length = (s.port p).tx.store.length + 1) ∧
  (∀ (s : State) (p k : Nat) (e : EgrPkt) (rest : List Head), (s.port p).st = .active → s.tgf.txOff = false → s.inSafe = false →
    (s.port p).tx.replay = [] → (s.port p).tx.store.length < (s.port p).window → (s.port p).tx.cur = none →
    (s.port p).heads 7 = (k, e) :: rest → tokensOf e.cells ≤ (s.port p).sch.tc7 →
    ∃ u g, exec (.slotSend p) s = .next u ∧ (∃ ls, u.out = ls ++ .slot p g :: s.out ∧ (∀ e ∈ ls, ∃ l v, e = .levels p l v)) ∧ g.ctype = ctypeOf 0 e.cells ∧
      g.body = byteSlice e.out.bytes 0 256 ∧ (u.port p).sch.tc7 = (s.port p).sch.tc7 - tokensOf e.cells) ∧
  (∀ (s : State) (p : Nat), (s.port p).st = .active → s.tgf.txOff = false → s.inSafe = false →
    (s.port p).tx.replay = [] → (s.port p).tx.cur = none → (s.port p).tx.queues = [] →
    ∃ u g, exec (.slotSend p) s = .next u ∧ (∃ ls, u.out = ls ++ .slot p g :: s.out ∧ (∀ e ∈ ls, ∃ l v, e = .levels p l v)) ∧ g.ctype = 8 ∧ leAt g.body 0 1 = 0) ∧
  (∀ (s : State) (p : Nat), (s.port p).st = .active → s.tgf.txOff = false → s.inSafe = true →
    ∃ u g, exec (.slotSend p) s = .next u ∧ (∃ ls, u.out = ls ++ .slot p g :: s.out ∧ (∀ e ∈ ls, ∃ l v, e = .levels p l v)) ∧ g.ctype = 8 ∧ leAt g.body 0 1 = 4 ∧ leAt g.body 1 1 = 1) ∧
  (∀ (s : State) (p : Nat), (s.port p).st = .lock → s.tgf.txOff = false → s.inSafe = false →
    ∃ u g, exec (.slotSend p) s = .next u ∧ (∃ ls, u.out = ls ++ .slot p g :: s.out ∧ (∀ e ∈ ls, ∃ l v, e = .levels p l v)) ∧ g.ctype = 8 ∧ leAt g.body 0 1 = 0) ∧
  (∀ (f : Slot), f.ok = true → f.lseq < 4096 → f.ctype < 16 → f.lack < 4096 → f.chc < 8 → f.cra < 2 ^ 16 → f.crb < 2 ^ 16 →
    f.body.length = 256 → slotOf true f.bytes = f ∧ f.bytes.length = 272) ∧
  (∀ (x : TsBody) (f : TsFrame), x.ty < 256 → x.port < 128 → x.count < 256 → x.dn < 2 ^ 17 → x.min < 256 → x.shared < 4096 →
    f.levels = x.levels →
    f.ok = true ∧ f.mirrored = false ∧ f.ty = x.ty ∧ f.lane = x.lane % 2 ∧ f.port = x.port ∧ f.count = x.count ∧ f.dn = x.dn ∧
    f.rates = x.rates % 4 ∧ f.lanes = x.lanes % 4 ∧ f.min = x.min ∧ f.shared = x.shared) ∧
  (∀ (bs : List Bool) (r : Nat), r < 2 ^ 58 → (descramble r (scramble r bs).1).1 = bs) ∧
  (∀ (x : Nat), x < 1024 → levelsSym (symLevels x) = x ∧ (symLevels x).length = 5) ∧
  (∀ (a b : List Nat), a.length = 272 → b.length = 272 → evens (interleave a b) = a ∧ odds (interleave a b) = b)

/-- Time gates: the entry in force, arming, cancelling and the takeover. gateEdge: the gates are open with gating off, as the entry
in force says with a valid list and FT, and closed for class 6 otherwise; gateArm is accepted with FT valid, none armed and its
base far enough ahead, and refused otherwise; gateCancel before the base disarms; gateTakeover at its base makes the pending
list the active one. (16_egress_scheduling.md (R386, R387, R392, R393, R400); 02_fabric_time.md (R55).) -/
def Obligations.TimeGates : Prop :=
  (∀ (s : State) (p : Nat), s.inSafe = false → s.fb F.GATE_CTRL_EN [p] = false →
    exec (.gateEdge p) s = .next (s.setSch p { (s.port p).sch with g6 := true, gw := true, entry := 0 })) ∧
  (∀ (s : State) (p base cycle r : Nat) (x : GateSeg), s.inSafe = false → s.fb F.GATE_CTRL_EN [p] = true → s.ftValid = true → (s.port p).sch.valid = true →
    base = (s.rd R.GATE_ACT_BASE [p]).toNat → cycle = (s.rd R.GATE_ACT_CYCLE [p]).toNat → base ≤ s.ft.toNat → r = (s.ft.toNat - base) % cycle →
    x ∈ s.gateSegs p → x.lo ≤ r → r < x.hi → (∀ y ∈ s.gateSegs p, y.lo ≤ r → r < y.hi → y = x) →
    exec (.gateEdge p) s = .next (s.setSch p { (s.port p).sch with g6 := x.g6, gw := x.gw, entry := x.idx })) ∧
  (∀ (s : State) (p : Nat), s.inSafe = false → s.fb F.GATE_CTRL_EN [p] = true → s.ftValid = false ∨ (s.port p).sch.valid = false →
    exec (.gateEdge p) s = .next (s.setSch p { (s.port p).sch with g6 := false, gw := true, entry := 0 })) ∧
  (∀ (s : State) (path : Path) (p : Nat) (v : Word), s.mayWrite path (R.GATE_CTRL.addr [p]) = true → p < s.portCount → bitW v 31 = true →
    bitW v 30 = true → bitW v 29 = false → s.ftValid = true → (s.port p).sch.armed = false →
    s.ft.toNat + 40000 ≤ (s.rd R.GATE_PEND_BASE [p]).toNat →
    ∃ u, exec (.gateArm path p v) s = .next u ∧ (u.port p).sch.armed = true ∧ (u.port p).sch.armRef = false ∧
      (u.port p).sch.bank = (s.port p).sch.bank ∧ s.keeps u [.ram, .net, .route, .out]) ∧
  (∀ (s : State) (path : Path) (p : Nat) (v : Word), s.mayWrite path (R.GATE_CTRL.addr [p]) = true → p < s.portCount → bitW v 30 = true →
    bitW v 29 = false → bitW v 31 = false ∨ s.ftValid = false ∨ (s.port p).sch.armed = true ∨
      (s.rd R.GATE_PEND_BASE [p]).toNat < s.ft.toNat + 40000 →
    ∃ u, exec (.gateArm path p v) s = .next u ∧ (u.port p).sch.armed = (s.port p).sch.armed ∧ (u.port p).sch.armRef = true) ∧
  (∀ (s : State) (path : Path) (p : Nat) (v : Word), s.mayWrite path (R.GATE_CTRL.addr [p]) = true → p < s.portCount → bitW v 30 = false →
    bitW v 29 = true →
    ∃ u, exec (.gateCancel path p v) s = .next u ∧ (u.port p).sch.bank = (s.port p).sch.bank ∧
      (u.port p).sch.armed = ((s.port p).sch.armed && s.ftReached (s.rd R.GATE_PEND_BASE [p]))) ∧
  (∀ (s : State) (p : Nat), s.inSafe = false → p < s.portCount → (s.port p).sch.armed = true → s.ftValid = true →
    s.ftReached (s.rd R.GATE_PEND_BASE [p]) = true →
    ∃ u, exec (.gateTakeover p) s = .next u ∧ (u.port p).sch.armed = false ∧ (u.port p).sch.valid = true ∧
      (u.port p).sch.bank = 1 - (s.port p).sch.bank ∧ u.rd R.GATE_ACT_BASE [p] = s.rd R.GATE_PEND_BASE [p])

/-- Rate limiters: refill, new configuration, wheel, cache, and depth samples. limiterRefill adds each limiter's rate up to its
burst, with a new configuration at its first refill off the wheel, and likewise for class 7; wheelSlot releases a due limiter
with its tokens and places again one without them; limiterCfgWrite is kept for the next refill; schLimInv drops cached entries;
depthSample gives the delay and depth of every class. (16_egress_scheduling.md (R384, R394, R395, R396, R397, R399, R400).) -/
def Obligations.RateLimiters : Prop :=
  (∀ (s : State) (key k : Nat) (x : Lim), s.inSafe = false → SMap.wf Lim.init s.lims = true → k = s.loc.toNat / 256 - s.limRefill → 0 < k →
    x = s.lims.get Lim.init key → x.next = none →
    ∃ u, exec .limiterRefill s = .next u ∧ u.limRefill = s.loc.toNat / 256 ∧ u.lims.get Lim.init key =
      { x with tokens := min (tokensOf (limBurst x.cfg)) (x.tokens + k * refillOf (limRate x.cfg)) } ∧
      s.keeps u [.ram, .net, .route, .regs, .out]) ∧
  (∀ (s : State) (key k : Nat) (x : Lim) (w : Word), s.inSafe = false → SMap.wf Lim.init s.lims = true → k = s.loc.toNat / 256 - s.limRefill → 0 < k →
    x = s.lims.get Lim.init key → x.next = some w → x.wheel = none →
    ∃ u, exec .limiterRefill s = .next u ∧ u.lims.get Lim.init key =
      { x with cfg := w, next := none, tokens := min (tokensOf (limBurst w)) (x.tokens + k * refillOf (limRate w)) }) ∧
  (∀ (s : State) (p k : Nat) (w : Word), s.inSafe = false → k = s.loc.toNat / 256 - s.limRefill → 0 < k → p < s.portCount → w = s.rd R.SCH_TC7_LIMIT [p] →
    ∃ u, exec .limiterRefill s = .next u ∧ u.port p = { s.port p with sch := { (s.port p).sch with
      tc7 := min (tokensOf (bitsW w 27 16)) ((s.port p).sch.tc7 + k * refillOf (100 * bitsW w 11 0)) } }) ∧
  (∀ (s : State) (tile key : Nat) (x : Lim) (t : Word), s.inSafe = false → SMap.wf Lim.init s.lims = true → x = s.lims.get Lim.init key → key / 4096 = tile →
    x.wheel = some t → s.locReached t = true → tokensOf x.need ≤ x.tokens →
    ∃ u, exec (.wheelSlot tile) s = .next u ∧ u.lims.get Lim.init key = { x with wheel := none } ∧
      s.keeps u [.ram, .net, .route, .regs, .ports, .ops, .out]) ∧
  (∀ (s : State) (tile key : Nat) (x : Lim) (t : Word), s.inSafe = false → SMap.wf Lim.init s.lims = true → x = s.lims.get Lim.init key →
    key / 4096 = tile → x.wheel = some t → s.locReached t = true → x.tokens < tokensOf x.need →
    ∃ u, exec (.wheelSlot tile) s = .next u ∧ u.lims.get Lim.init key = { x with wheel := some (s.wheelAt x x.need) }) ∧
  (∀ (s : State) (path : Path) (tile k : Nat) (v : Word), s.mayWrite path (R.SCH_LIM_CFG.addr [tile, k]) = true → k < 4096 →
    8 * tile < s.portCount →
    ∃ u, exec (.limiterCfgWrite path tile k v) s = .next u ∧ u.rd R.SCH_LIM_CFG [tile, k] = (s.wrSoft R.SCH_LIM_CFG [tile, k] v).rd R.SCH_LIM_CFG [tile, k] ∧
      u.lim tile k = { s.lim tile k with next := some (u.rd R.SCH_LIM_CFG [tile, k]) }) ∧
  (∀ (s : State) (path : Path) (v : Word), s.mayWrite path R.SCH_LIM_INV.base = true →
    ∃ u, exec (.schLimInv path v) s = .next u ∧
      u = { s with limCache := (if bitW v 31 = true then [] else s.limCache.filter fun e => e.1 % 2 ^ 20 != bitsW v 19 0) }) ∧
  (∀ (s : State) (p tc period : Nat), s.inSafe = false → period = s.fd F.SCH_SAMPLE_CTRL_PERIOD * ticksPerUs → s.fb F.SCH_SAMPLE_CTRL_EN = true →
    s.ftValid = true → period ≠ 0 → s.ft.toNat % period = 0 → p < s.portCount → tc < 8 →
    ∃ u, exec .depthSample s = .next u ∧ s.keeps u [.ports, .ram, .net, .out] ∧
      u.rd R.SCH_SAMPLE [p, tc] = w64 (s.headDelay p tc % 2 ^ 32 * 2 ^ 32 + (s.port p).depth tc % 2 ^ 16))

/-! ## Lanes -/

/-- Symbol error evaluation, lane retirement, re-test and eye scans. serEvaluation: a lane within its error limit opens a new
second; one beyond it is retired, and its port with it when both lanes are, or trained again on the other; laneRetest restores a
retired lane; eyeScan runs on a framed lane and elsewhere ends at once as not done; eyeScanDone, after the symbols of its dwell,
gives the bounded count. (17_lanes_and_ports.md (R416, R417, R418, R420, R421, R422, R423, R425); 19_faults.md (R457).) -/
def Obligations.LaneCommands : Prop :=
  (∀ (s : State) (p l : Nat), s.inSafe = false → p < s.portCount → l < 2 → s.serDue p l = true → s.beyondSer (s.lane p l) = false →
    ∃ u, exec (.serEvaluation p l) s = .next u ∧ (u.lane p l).bins = (0, 0) :: (s.lane p l).bins.take 9 ∧ (u.lane p l).corr = false ∧
      (u.lane p l).sec = s.loc.toNat / ticksPerSec ∧ (u.lane p l).retired = (s.lane p l).retired ∧ s.keeps u [.net, .route, .ports]) ∧
  (∀ (s : State) (p l : Nat), s.inSafe = false → p < s.portCount → l < 2 → s.serDue p l = true → s.beyondSer (s.lane p l) = true →
    (s.lane p l).retired = false → s.serDue p (1 - l) = false →
    ∃ u, exec (.serEvaluation p l) s = .next u ∧ (u.lane p l).retired = true ∧ (u.lane p l).cause = 1 ∧
      ((s.lane p (1 - l)).retired = true → (u.port p).retired = true ∧ (u.port p).st = .disabled) ∧
      ((s.lane p (1 - l)).retired = false → (s.port p).st = .active → (u.port p).retired = (s.port p).retired ∧ (u.port p).st = .train)) ∧
  (∀ (s : State) (path : Path) (p l : Nat), s.mayWrite path (R.LANE_CTRL.addr [p, l]) = true → l < 2 → p < s.portCount →
    (s.lane p l).retired = true →
    ∃ u, exec (.laneRetest path p l) s = .next u ∧ (u.lane p l).retired = false ∧ (u.lane p l).cause = 0 ∧ (u.lane p l).fails = [] ∧
      (u.port p).retired = false) ∧
  (∀ (s : State) (path : Path) (p l : Nat) (v : Word), s.mayWrite path (R.EYE_CTRL.addr [p, l]) = true → p < s.portCount → l < 2 →
    s.fb F.EYE_CTRL_GO [p, l] = false → bitW v 31 = true →
    ∃ u, exec (.eyeScan path p l v) s = .next u ∧ (u.lane p l).eye = s.laneFramed p l ∧
      u.fb F.EYE_CTRL_GO [p, l] = s.laneFramed p l ∧ (s.laneFramed p l = false → u.rd R.EYE_RESULT [p, l] = w64 (2 ^ 62)) ∧
      s.keeps u [.ram, .net, .route, .ports, .out]) ∧
  (∀ (s : State) (p l n : Nat), s.inSafe = false → p < s.portCount → l < 2 → (s.lane p l).eye = true → s.laneFramed p l = true →
    2 ^ (20 + s.fd F.EYE_CTRL_DWELL [p, l]) ≤ s.locSince (s.lane p l).eyeAt * (if (s.port p).cfg.rate56 = true then 14 else 28) →
    ∃ u, exec (.eyeScanDone p l n) s = .next u ∧ (u.lane p l).eye = false ∧ u.fb F.EYE_CTRL_GO [p, l] = false ∧
      u.rd R.EYE_RESULT [p, l] = w64 (2 ^ 63 + min n (2 ^ (20 + s.fd F.EYE_CTRL_DWELL [p, l]))) ∧ s.keeps u [.ram, .net, .route, .ports, .out])

/-! ## The host interface -/

/-- PERST, host links up and down, L1 entry and exit. perst resets the attachments of its link, and its end latches the bifurcation
and rate; hostLinkDown and hostLinkUp take the attachment down, or up with its width and rate; l1Entry after the idle time
enters L1; l1Exit for a request that waits begins the exit and counts it; exitToL0Complete ends it in L0, outside Deep Retention
or for an exit begun. (18_host_interface.md (R426, R427, R428, R437).) -/
def Obligations.HostLinks : Prop :=
  (∀ (s : State) (k : Nat), k < 4 → s.inSafe = false → s.dev.power ≠ 2 → s.host.perst.get false k = false →
    ∃ u, exec (.perst k false) s = .next u ∧ u.host.perst.get false k = true ∧ (∀ j, j < 4 → u.att (4 * k + j) = Attach.init) ∧
      s.keeps u [.ports, .lanes, .inv]) ∧
  (∀ (s : State) (k : Nat), k < 4 → s.inSafe = false → s.dev.power ≠ 2 → s.host.perst.get false k = true →
    exec (.perst k true) s = .next { s with host := { s.host with
      perst := s.host.perst.set false k false, bifur := s.host.bifur.set 0 k (s.fd F.HIF_LINK_CFG_BIFUR [k])
      maxRate := s.host.maxRate.set 0 k (s.fd F.HIF_LINK_CFG_MAX_RATE [k]) } }) ∧
  (∀ (s : State) (a : Nat), s.attExists a = true → (s.att a).up = true → s.inSafe = false →
    ∃ u, exec (.hostLinkDown a) s = .next u ∧ u.att a = Attach.init ∧ s.keeps u [.ports, .lanes, .inv, .dev]) ∧
  (∀ (s : State) (a width rate : Nat), s.attExists a = true → (s.att a).up = false → s.host.perst.get false (a / 4) = false →
    0 < width → width ≤ 16 / attsOf (s.host.bifur.get 0 (a / 4)) → rate ≤ 4 + min 2 (s.host.maxRate.get 2 (a / 4)) → s.inSafe = false →
    ∃ u, exec (.hostLinkUp a width rate) s = .next u ∧ (u.att a).up = true ∧ (u.att a).width = width ∧ (u.att a).rate = rate ∧
      (u.att a).pstate = 0 ∧ (u.att a).belowMin = decide (rate < 4) ∧ s.keeps u [.rings, .net, .ports, .dev]) ∧
  (∀ (s : State) (a : Nat), (s.att a).up = true → (s.att a).pstate ≤ 1 → (s.func a).aspm = true → (s.att a).exiting = false →
    (s.rd R.HIF_L1_IDLE).toNat * ticksPerUs ≤ s.locSince (s.att a).quietFrom →
    exec (.l1Entry a) s = .next (s.setAtt a { s.att a with pstate := 2 + min (s.att a).l1ss 2 })) ∧
  (∀ (s : State) (a f : Nat), a < 16 → f ∈ s.funcsOn a → s.wants f = true → (s.att a).exiting = false → 2 ≤ (s.att a).pstate →
    (s.att a).pstate ≤ 4 →
    exec (.l1Exit a) s = .next ((s.setAtt a { s.att a with exiting := true }).bump R.HIF_WAKE_COUNT)) ∧
  (∀ (s : State) (a : Nat), (s.att a).asleep = true → (s.att a).exiting = true ∨ s.dev.power ≠ 2 → s.inSafe = false →
    ∃ u, exec (.exitToL0Complete a) s = .next u ∧ (u.att a).pstate = 0 ∧ (u.att a).exiting = false ∧ s.keeps u [.ports, .lanes, .inv, .dev])

/-- Function reset, function state, VF allocation, and completions of host requests. functionLevelReset leaves the function at rest,
its halves quiet, its endpoints gone, its held interrupts and every other function as they were; functionStateChange takes the
function's new configuration, VF enable only for a PF within its VFs; vfAllocWrite is refused while VFs are enabled, taken when
it overlaps no other, and refused and emptied when it runs out; readCompletion of a flush ends the request and makes the proof,
atomicopCompletion makes the response, completionTimeout ends a flush. (18_host_interface.md (R429, R431, R435, R436, R438);
07_ring_service.md (R194); 08_connections_rma.md (R212); 09_ordering_completion_congestion.md (R227).) -/
def Obligations.HostFunctions : Prop :=
  (∀ (s : State) (f : Nat), (if f < 16 then s.attExists f = true else ∃ p, p < 16 ∧ s.attExists p = true ∧ s.isVfOf p f = true) →
    s.inSafe = false → SMap.wf Func.init s.host.funcs = true →
    ∃ u, exec (.functionLevelReset f) s = .next u ∧ (u.func f).bme = false ∧ (u.func f).msixEn = false ∧ (u.func f).dstate = .d0 ∧
      (u.func f).held = (s.func f).held ∧ (∀ g, g ≠ f → u.func g = s.func g) ∧
      (∀ r, (s.half r).func = f → (s.half r).state ≠ .unused → (u.half r).state = .quiet) ∧
      (∀ ep x, u.endpoint ep = some x → x.func ≠ f) ∧ s.keeps u [.ports, .lanes, .inv, .dev, .fifos, .tgf, .route, .engines]) ∧
  (∀ (s : State) (f d : Nat) (ds : DState) (cfg : FuncCfg), (d, ds) ∈ [(0, DState.d0), (1, .d3hot), (2, .d3cold)] →
    s.attExists (s.pfOf f) = true → f < 16 ∨ s.isVfOf (s.pfOf f) f = true →
    d ≠ 0 ∨ (s.func f).dstate = .d0 ∨ s.dev.power ≠ 2 →
    ∃ u, exec (.functionStateChange f d cfg) s = .next u ∧ (u.func f).dstate = ds ∧ (u.func f).bme = cfg.bme ∧
      (u.func f).msixEn = cfg.msixEn ∧ (u.func f).fmask = cfg.fmask ∧ (u.func f).aspm = cfg.aspm ∧
      (u.func f).vfEnable = (cfg.vfEnable && decide (f < 16) && decide (cfg.numVfs ≤ s.vfCount f))) ∧
  (∀ (s : State) (p : Path) (pf : Nat) (v : Word), pf < 16 → s.mayWrite p (R.HIF_VF_ALLOC.base + 4 * pf) = true →
    (s.func pf).vfEnable = true →
    exec (.vfAllocWrite p pf v) s = .next { s with host := { s.host with allocRefused := true } }) ∧
  (∀ (s s1 : State) (p : Path) (pf : Nat) (v : Word), pf < 16 → s.mayWrite p (R.HIF_VF_ALLOC.base + 4 * pf) = true →
    (s.func pf).vfEnable = false → s1 = s.wrSoft R.HIF_VF_ALLOC [pf] v →
    (s1.vfCount pf = 0 ∨ s1.vfFirst pf + s1.vfCount pf ≤ 1024 ∧ ∀ a, a < 16 → a ≠ pf →
      s1.vfFirst a + s1.vfCount a ≤ s1.vfFirst pf ∨ s1.vfFirst pf + s1.vfCount pf ≤ s1.vfFirst a) →
    exec (.vfAllocWrite p pf v) s = .next { s1 with host := { s1.host with allocRefused := false } }) ∧
  (∀ (s s1 : State) (p : Path) (pf : Nat) (v : Word), pf < 16 → s.mayWrite p (R.HIF_VF_ALLOC.base + 4 * pf) = true →
    (s.func pf).vfEnable = false → s1 = s.wrSoft R.HIF_VF_ALLOC [pf] v → s1.vfCount pf ≠ 0 → 1024 < s1.vfFirst pf + s1.vfCount pf →
    ∃ u, exec (.vfAllocWrite p pf v) s = .next u ∧ u.host.allocRefused = true ∧ u.vfCount pf = 0) ∧
  (∀ (s : State) (tag r ref : Nat) (seq : BitVec 32) (rd : HostRead) (x : PktRef), s.inSafe = false →
    s.host.reads.get none tag = some rd → rd.why = .flush r seq → s.flushRef r seq = some ref → s.pktRef (r / 16384) ref = some x →
    x.conn = r →
    ∃ u, exec (.readCompletion tag 0 []) s = .next u ∧ u.host.reads.get none tag = none ∧ u.pktRef (r / 16384) ref = none ∧
      (u.half r).rx.proof = some (x.pkt.seq, s.ft)) ∧
  (∀ (s : State) (tag c ref k : Nat) (rd : HostRead) (x : PktRef) (data : List Byte) (dest : Nat × Nat), s.inSafe = false →
    s.host.reads.get none tag = some rd → rd.why = .atomic c ref → s.pktRef c ref = some x → x.conn / 16384 = c →
    s.freeSlot c = some k → (s.returnPath (s.half x.conn) x.pkt).1 = some dest →
    ∃ u, exec (.atomicopCompletion tag 0 data) s = .next u ∧ u.host.reads.get none tag = none ∧ u.pktRef c ref = none ∧
      (u.op k).kind = 0x13 ∧ (u.op k).origin = .response x.conn x.pkt.seq ∧ (u.op k).dstDn = dest.1) ∧
  (∀ (s : State) (tag r ref : Nat) (seq : BitVec 32) (rd : HostRead) (x : PktRef), s.inSafe = false →
    s.host.reads.get none tag = some rd → rd.why = .flush r seq → s.flushRef r seq = some ref → s.pktRef (r / 16384) ref = some x →
    s.locReached rd.deadline = true →
    ∃ u, exec (.completionTimeout tag) s = .next u ∧ u.host.reads.get none tag = none ∧ u.pktRef (r / 16384) ref = none)

/-! ## Faults, monitors, the life store, supply -/

/-- A fault opens or merges a record and the device reacts by its class; fatal record, event and TXOFF. errorReport from a source
that cannot raise the code changes nothing. Otherwise a new record holds the code, source, class, order, words and times, no
other record changes, and class 3 halts the adapter and freezes while class 4 enters the safe state; a match merges.
fatalRecordWrite writes the record whole in its slot; mergeWindowEnd closes records of class 1 and 2 only; faultEvent puts a
held event at its FIFO's write port; txoff follows its delay. (19_faults.md (R441, R442, R443, R444, R445, R447, R448, R449,
R450); 20_monitoring_and_life.md (R479).) -/
def Obligations.FaultReports : Prop :=
  (∀ (s : State) (src code : Nat) (i0 i1 : Word), s.dev.off = true ∨ canRaise s.variant src code = false →
    exec (.errorReport src code i0 i1) s = .next s) ∧
  (∀ (s : State) (src code cls : Nat) (i0 i1 : Word), s.dev.off = false → canRaise s.variant src code = true → s.tgf.armed = true →
    s.tgf.frozen = none → s.openMatch ⟨src, code, i0.toNat, i1.toNat, false, true⟩ = none → cls = classOf code → 1 ≤ cls →
    ∃ u r, exec (.errorReport src code i0 i1) s = .next u ∧ u.hrec s.tgf.next = r ∧ r.code = code ∧ r.source = src ∧ r.cls = cls ∧
      r.seq = s.tgf.seq + 1 ∧ r.info0 = i0.toNat ∧ r.info1 = i1.toNat ∧ r.locAt = s.loc ∧ r.ft = s.ftOr0 ∧ r.openRec = true ∧
      r.injected = false ∧ u.tgf.seq = s.tgf.seq + 1 ∧ u.tgf.next = (s.tgf.next + 1) % 32 ∧ u.tgf.count = min (s.tgf.count + 1) 32 ∧
      (∀ i, i ≠ s.tgf.next → u.hrec i = s.hrec i) ∧
      (cls < 3 → u.tgf.frozen = none ∧ u.tgf.halted = s.tgf.halted ∧ u.tgf.safe = s.tgf.safe) ∧
      (cls = 3 → u.tgf.frozen = some s.tgf.next ∧ u.tgf.halted = true ∧ u.tgf.safe = s.tgf.safe ∧ u.tgf.fatalDue = true) ∧
      (cls = 4 → s.tgf.safe = none → u.tgf.frozen = some s.tgf.next ∧ u.tgf.safe = some s.loc ∧ u.tgf.faultNDevice = true ∧
        u.tgf.fatalDue = true)) ∧
  (∀ (s : State) (src code i : Nat) (i0 i1 : Word), s.dev.off = false → canRaise s.variant src code = true → s.tgf.armed = true →
    s.tgf.frozen = none → s.openMatch ⟨src, code, i0.toNat, i1.toNat, false, true⟩ = some i → classOf code < 3 →
    ∃ u, exec (.errorReport src code i0 i1) s = .next u ∧ u.tgf.seq = s.tgf.seq ∧ u.tgf.next = s.tgf.next ∧
      u.hrec i = { s.hrec i with
        merged := min ((s.hrec i).merged + 1) 65535, lastFt := s.ftOr0, seen := (s.hrec i).seen ||| 2 ^ classOf code, real := true }) ∧
  (∀ (s : State), s.tgf.fatalDue = true →
    ∃ u, exec .fatalRecordWrite s = .next u ∧ u.tgf.fatalDue = false ∧
      s.placedOnly u (pewterKey (fatalOff (fatalSlot s.dev.life.fatals))) (s.fatalBytes true) ∧ u.regs = s.regs) ∧
  (∀ (s : State) (i : Nat), (s.hrec i).openRec = true → (s.hrec i).cls < 3 → (s.rd R.TGF_MERGE_WINDOW).toNat ≤ s.locSince (s.hrec i).locAt →
    exec (.mergeWindowEnd i) s = .next (s.setHrec i { s.hrec i with openRec := false })) ∧
  (∀ (s : State) (i : Nat), 3 ≤ (s.hrec i).cls → exec (.mergeWindowEnd i) s = .next s) ∧
  (∀ (s : State) (body : List Byte) (rest : List (List Byte)) (k : Nat), s.tgf.heldEvents = body :: rest → s.inSafe = false →
    s.wfSteered s.eventCluster (s.fd F.WF_STEER_EVENT_FIFO [s.eventCluster]) = some k → s.wfRoom k false 1 = true →
    ∃ u w, exec .faultEvent s = .next u ∧ u.tgf = { s.tgf with heldEvents := rest } ∧ w.item.body = body ∧ w.item.ty = 0x31 ∧
      (u.fifo k).writing = (s.fifo k).writing ++ [w]) ∧
  (∀ (s : State) (at_ : Word) (us : Nat), s.tgf.safe = some at_ → us = s.fd F.TGF_SAFE_CFG_TXOFF → us ≠ 0 →
    us * ticksPerUs ≤ s.locSince at_ → exec .txoff s = .next { s with tgf := { s.tgf with txOff := true } })

/-- Acknowledge, unfreeze, inject, page retirement and re-test. tgfHistAck closes the record of its number; unfreeze acts outside
the safe state; inject makes a record marked so and reacts only when asked to, and is refused when not enabled, locked or
impossible; injectLock holds; hbmPageRetired gives a page at its error limit the lowest spare and keeps the data, or with no
spare left marks the stack; retest starts, and retestDone ends in pass or fail with the source in or out of use, or as not
possible. (19_faults.md (R447, R450, R453, R456, R457, R459).) -/
def Obligations.FaultCommands : Prop :=
  (∀ (s : State) (p : Path) (v : Word) (i : Nat), s.mayWrite p R.TGF_HIST_ACK.base = true → i < 32 → (s.hrec i).openRec = true →
    (s.hrec i).seq = v.toNat % 2 ^ 32 → (s.hrec i).cls < 3 → (∀ j, j < i → (s.hrec j).openRec = true → (s.hrec j).seq ≠ v.toNat % 2 ^ 32) →
    exec (.tgfHistAck p v) s = .next (s.setHrec i { s.hrec i with openRec := false })) ∧
  (∀ (s : State) (p : Path), s.mayWrite p R.TGF_HIST_CTRL.base = true →
    exec (.unfreeze p) s = .next (if s.inSafe = true then s else { s with tgf := { s.tgf with frozen := none } })) ∧
  (∀ (s : State) (p : Path) (v : Word) (src code : Nat), s.mayWrite p R.TGF_INJECT.base = true → bitW v 63 = true → src = bitsW v 31 16 →
    code = bitsW v 47 32 → s.fb F.TGF_CTRL_INJECT_EN = true → s.fb F.TGF_CTRL_INJECT_LOCK = false → canRaise s.variant src code = true →
    s.tgf.armed = true → s.tgf.frozen = none → s.openMatch ⟨src, code, 0, 0, true, bitW v 62⟩ = none → 1 ≤ classOf code →
    ∃ u, exec (.inject p v) s = .next u ∧ (u.hrec s.tgf.next).code = code ∧ (u.hrec s.tgf.next).source = src ∧
      (u.hrec s.tgf.next).injected = true ∧ (u.hrec s.tgf.next).real = false ∧ u.tgf.injectRefused = false ∧
      (bitW v 62 = false → u.tgf.halted = s.tgf.halted ∧ u.tgf.safe = s.tgf.safe ∧ u.tgf.frozen = none) ∧
      (bitW v 62 = true → classOf code = 3 → u.tgf.halted = true)) ∧
  (∀ (s : State) (p : Path) (v : Word), s.mayWrite p R.TGF_INJECT.base = true → bitW v 63 = true →
    s.fb F.TGF_CTRL_INJECT_EN = false ∨ s.fb F.TGF_CTRL_INJECT_LOCK = true ∨
      canRaise s.variant (bitsW v 31 16) (bitsW v 47 32) = false →
    ∃ u, exec (.inject p v) s = .next u ∧ u.tgf = { s.tgf with injectRefused := true } ∧ u.mem = s.mem) ∧
  (∀ (s : State) (p : Path), s.mayWrite p R.TGF_CTRL.base = true →
    ∃ u, exec (.injectLock p) s = .next u ∧ u.fb F.TGF_CTRL_INJECT_LOCK = true ∧ u.fb F.TGF_CTRL_INJECT_EN = s.fb F.TGF_CTRL_INJECT_EN) ∧
  (∀ (s : State) (page i : Nat), s.pageRetired page = false → 0 < s.fd F.TGF_HBM_RETIRE_COUNT →
    s.fd F.TGF_HBM_RETIRE_COUNT ≤ s.pageErrors page → page * 4096 < hbmSize → s.freeSpare (stackOf page) = some i →
    ∃ u, exec (.hbmPageRetired page) s = .next u ∧ u.dev.pages.retired.get none page = some i ∧
      (∀ a, a < hbmSize → u.mem.read (hbmKey a) = s.mem.read (hbmKey a))) ∧
  (∀ (s : State) (page : Nat), s.pageRetired page = false → 0 < s.fd F.TGF_HBM_RETIRE_COUNT →
    s.fd F.TGF_HBM_RETIRE_COUNT ≤ s.pageErrors page → page * 4096 < hbmSize → s.freeSpare (stackOf page) = none →
    ∃ u, exec (.hbmPageRetired page) s = .next u ∧ u.dev.pages.retired = s.dev.pages.retired ∧
      NSet.mem u.dev.pages.spent (stackOf page) = true) ∧
  (∀ (s : State) (p : Path) (v : Word), s.mayWrite p R.TGF_RETEST.base = true → s.tgf.retest = none → bitW v 31 = true →
    ∃ u, exec (.retest p v) s = .next u ∧ u.tgf.retest = some (bitsW v 15 0, s.fd F.TGF_RETEST_ADDR_PAGE, s.loc) ∧
      s.keeps u [.ram, .engines, .ports, .lanes, .dev]) ∧
  (∀ (s : State) (src page n : Nat) (at_ : Word) (pass : Bool), s.tgf.retest = some (src, page, at_) → src = tsrc 0x0E n → n < 512 →
    (s.engine n).retired = true → 1000 * ticksPerUs ≤ s.locSince at_ →
    ∃ u, exec (.retestDone pass) s = .next u ∧ u.tgf.retest = none ∧ u.fb F.TGF_RETEST_GO = false ∧
      u.fd F.TGF_RETEST_STATUS_RESULT = (if pass = true then 1 else 2) ∧ (u.engine n).retired = !pass) ∧
  (∀ (s : State) (src page : Nat) (at_ : Word) (pass : Bool), s.tgf.retest = some (src, page, at_) → s.retestable src page = false →
    ∃ u, exec (.retestDone pass) s = .next u ∧ u.tgf.retest = none ∧ u.fd F.TGF_RETEST_STATUS_RESULT = 3 ∧
      s.keeps u [.ram, .engines, .ports, .lanes, .dev])

/-- Freeze, histograms, counter dumps and instruction samples. pmuFreeze writes PMU_CTRL; histClear clears a histogram, and
histDepthSample takes port depths and the Solder store when enabled and not frozen, counted and summed; dumpLatch latches a due
dump, or counts it missed; dumpWrite writes it to HBM, beginning again where it would not fit, or to the host, its first eight
bytes last; sampleMark restarts its countdown, and sampleRecord writes a marked instruction's record at the ring's index.
(20_monitoring_and_life.md (R465, R466, R467, R468, R469, R470, R471, R472, R473, R475).) -/
def Obligations.PerformanceMonitors : Prop :=
  (∀ (s : State) (p : Path) (v : Word), s.mayWrite p R.PMU_CTRL.base = true →
    exec (.pmuFreeze p v) s = .next (s.wrSoft R.PMU_CTRL [] v)) ∧
  (∀ (s : State) (p : Path) (n : Nat), n < 256 → s.mayWrite p (R.HIST_SEL.addr [n]) = true →
    ∃ u, exec (.histClear p n) s = .next u ∧ u.rd R.HIST_COUNT [n] = 0 ∧ u.rd R.HIST_SUM [n] = 0 ∧ u.rd R.HIST_MAX [n] = 0 ∧
      ∀ k, k < 32 → u.rd R.HIST_BIN [n, k] = 0) ∧
  (∀ (s : State) (n p : Nat), s.inSafe = false → n < 256 → s.fb F.HIST_SEL_EN [n] = true → s.monFrozen = false → s.fd F.HIST_SEL_SRC [n] = 2 →
    p = s.fd F.HIST_SEL_INSTANCE [n] → p < s.portCount →
    exec (.histDepthSample n) s = .next (s.histTake n
      ((maskClasses (bitsW (s.rd R.HIST_FILT [n]) 7 0)).map fun tc => (s.port p).depth tc).sum)) ∧
  (∀ (s : State) (n : Nat), s.inSafe = false → n < 256 → s.fb F.HIST_SEL_EN [n] = true → s.monFrozen = false → s.fd F.HIST_SEL_SRC [n] = 6 →
    exec (.histDepthSample n) s = .next (s.histTake n s.onDieUsed)) ∧
  (∀ (s : State) (n v : Nat), n < 256 → (s.histTake n v).rd R.HIST_COUNT [n] = w64 ((s.rd R.HIST_COUNT [n]).toNat + 1) ∧
    (s.histTake n v).rd R.HIST_SUM [n] = w64 ((s.rd R.HIST_SUM [n]).toNat + v)) ∧
  (∀ (s : State), s.monFrozen = true → ∀ n, exec (.histDepthSample n) s = .next s) ∧
  (∀ (s : State), s.inSafe = false → s.dev.off = false → s.dumpDue = true → s.dumpMiss = false →
    ∃ u, exec .dumpLatch s = .next u ∧ u.dev.mon.dumpRec = some (s.dumpRecord (s.dev.mon.dumpSeq + 1) s.dev.mon.missed) ∧
      u.dev.mon.dumpSeq = s.dev.mon.dumpSeq + 1 ∧ u.dev.mon.missed = 0 ∧ s.keeps u [.ram, .regs, .out]) ∧
  (∀ (s : State), s.inSafe = false → s.dev.off = false → s.dumpDue = true → s.dumpMiss = true →
    ∃ u, exec .dumpLatch s = .next u ∧ u.dev.mon.dumpRec = s.dev.mon.dumpRec ∧ u.dev.mon.missed = s.dev.mon.missed + 1 ∧
      u.dev.mon.dumpSeq = s.dev.mon.dumpSeq + 1 ∧ u.regs = (s.bump R.PMU_DUMP_MISSED_COUNT).regs) ∧
  (∀ (s : State) (bs : List Byte) (off at_ : Nat), s.dev.mon.dumpRec = some bs → s.adapterHalted = false →
    s.fb F.PMU_DUMP_CFG_HOST = false →
    off = (if s.fd F.PMU_DUMP_CFG_SIZE * 65536 < s.dev.mon.dumpOff + bs.length then 0 else s.dev.mon.dumpOff) →
    at_ = (s.rd R.PMU_DUMP_DEST).toNat + off → 8 ≤ bs.length → at_ + bs.length ≤ hbmSize →
    ∃ u, exec .dumpWrite s = .next u ∧ s.placedOnly u (hbmKey at_) bs ∧ u.dev.mon.dumpRec = none ∧
      u.dev.mon.dumpOff = off + bs.length) ∧
  (∀ (s : State) (bs : List Byte) (off at_ f : Nat), s.dev.mon.dumpRec = some bs → s.adapterHalted = false →
    s.fb F.PMU_DUMP_CFG_HOST = true → f = s.fd F.PMU_DUMP_CFG_FUNC → s.canMaster f = true → s.linkAwake f = true →
    off = (if s.fd F.PMU_DUMP_CFG_SIZE * 65536 < s.dev.mon.dumpOff + bs.length then 0 else s.dev.mon.dumpOff) →
    at_ = (s.rd R.PMU_DUMP_DEST).toNat + off →
    ∃ u, exec .dumpWrite s = .next u ∧ u.dev.mon.dumpRec = none ∧ u.dev.mon.dumpOff = off + bs.length ∧
      u.out = .hostWrite f at_ (bs.take 8) :: .hostWrite f (at_ + 8) (bs.drop 8) :: s.out ∧ s.keeps u [.ram, .net, .ports]) ∧
  (∀ (s : State) (g : Nat), s.inSafe = false → s.fb F.PMU_SAMP_CTRL_EN = true → s.dev.mon.counts.get none g = some 0 →
    ∃ u r, exec (.sampleMark g) s = .next u ∧ r ≤ 63 ∧ NSet.mem u.dev.mon.armed g = true ∧
      u.dev.mon.counts.get none g = some (s.fd F.PMU_SAMP_CTRL_PERIOD - r) ∧ s.keeps u [.ram, .regs, .threads, .engines, .out]) ∧
  (∀ (s : State) (g lat flags ecause n : Nat) (x : Sampled), s.dev.mon.marked.get none g = some x → nbit flags 3 = false →
    (s.rd R.PMU_SAMP_MINLAT).toNat ≤ lat → s.dev.mon.sampQ.get [] (g / 8) = [] → s.adapterHalted = false →
    s.fb F.PMU_SAMP_CFG_HOST = false → n = (s.rd R.PMU_SAMP_WIDX).toNat % 2 ^ s.fd F.PMU_SAMP_CFG_LOG2 →
    (s.rd R.PMU_SAMP_DEST).toNat + 64 * n + 64 ≤ hbmSize →
    ∃ u, exec (.sampleRecord g lat flags ecause) s = .next u ∧ u.dev.mon.marked.get none g = none ∧
      u.dev.mon.sampSeq = s.dev.mon.sampSeq + 1 ∧
      s.placedOnly u (hbmKey ((s.rd R.PMU_SAMP_DEST).toNat + 64 * n)) (x.bytes lat flags ecause (s.dev.mon.sampSeq + 1)))

/-- The life store: commits, snapshots, samples and margin scans. A commit, due or commanded, writes the next slot whole with its
sequence number and CRC; a due snapshot writes the next snapshot; a sample adds a second to the power-on time and to the bins of
temperature and voltage; a margin scan counts the bin of each active lane. The layout inside a slot and a snapshot is partly the
choice of this model (log entry 73). (20_monitoring_and_life.md (R476, R477, R478, R480).) -/
def Obligations.LifeStore : Prop :=
  (∀ (s : State) (k : Nat) (p : Path) (c : Instr), s.dev.life.ready = true →
    c = .lifeCommit ∧ (s.rd R.LIFE_COMMIT_CFG).toNat * 60 * ticksPerS ≤ s.locSince s.dev.life.commitAt ∨
      c = .commit p ∧ s.mayWrite p R.LIFE_CTRL.base = true →
    k = (if s.dev.life.seq = 0 then 0 else (s.dev.life.slot + 1) % 16) →
    ∃ u, exec c s = .next u ∧
      s.placedOnly u (pewterKey (slotOff k)) (sealed (s.slotHeader (s.dev.life.seq + 1) ++ s.mread (accKey 0x19) (0xFFFC - 0x19))) ∧
      u.dev.life.seq = s.dev.life.seq + 1 ∧ u.dev.life.slot = k ∧ u.dev.life.commitAt = s.loc ∧ u.regs = (s.bump R.LIFE_COMMIT_COUNT).regs) ∧
  (∀ (s : State), s.dev.life.ready = true → (s.rd R.LIFE_SNAP_CFG).toNat * 3600 * ticksPerS ≤ s.locSince s.dev.life.snapAt →
    ∃ u, exec .lifeSnapshot s = .next u ∧ s.placedOnly u (pewterKey (snapOff s.dev.life.snaps)) (sealed s.snapshotBytes) ∧
      u.dev.life.snaps = s.dev.life.snaps + 1 ∧ u.dev.life.snapAt = s.loc ∧ u.regs = s.regs) ∧
  (∀ (s : State) (hot : Int) (mv : Nat), s.dev.life.ready = true → ticksPerS ≤ s.locSince s.dev.life.sampleAt →
    ∃ u, exec (.lifeSample hot mv) s = .next u ∧
      u.mnat (accKey accPowerOn) 8 = (s.mnat (accKey accPowerOn) 8 + 1) % 2 ^ 64 ∧
      u.mnat (accKey (accTemp (tempBin hot))) 8 = (s.mnat (accKey (accTemp (tempBin hot))) 8 + 1) % 2 ^ 64 ∧
      u.mnat (accKey (accVolt (voltBin mv))) 8 = (s.mnat (accKey (accVolt (voltBin mv))) 8 + 1) % 2 ^ 64 ∧
      u.dev.life.sampleAt = w64 (s.dev.life.sampleAt.toNat + ticksPerS) ∧ s.keeps u [.ram, .regs, .out]) ∧
  (∀ (s : State) (margins : List Nat) (n m : Nat), s.dev.life.ready = true → (s.rd R.LIFE_EYE_CFG).toNat ≠ 0 →
    (s.rd R.LIFE_EYE_CFG).toNat * 3600 * ticksPerS ≤ s.locSince s.dev.life.scanAt → s.activeLanes = [n] → margins[n]? = some m →
    ∃ u, exec (.marginScan margins) s = .next u ∧ u.dev.life.scanAt = s.loc ∧
      u.mnat (accKey (accEye n (min 15 (m / 4)))) 4 = (s.mnat (accKey (accEye n (min 15 (m / 4)))) 4 + 1) % 2 ^ 32 ∧
      s.keeps u [.ram, .regs, .lanes, .ports, .out])

/-- Temperature samples, throttling, trips, supply faults, PLL unlock and AVS. thermSample below the trip gives the hottest sensor
and the throttle step with its hysteresis; one at the trip, thermalTrip, supplyFault, pllUnlock and avsTimeout enter the safe
state with their records when the collector is armed and empty; avsSet within its range and step, and where the state allows it,
is sent and awaits its answer, and one out of range changes nothing; avsbusAck ends the wait. (22_electrical_package.md (R507,
R515, R516); 19_faults.md (R443, R450).) -/
def Obligations.SupplyAndTemperature : Prop :=
  (∀ (s : State) (temps : List Int) (n : Nat) (h : Int), s.dev.off = false → temps.length = 64 →
    100 * ticksPerUs ≤ s.locSince s.dev.thermAt → hottest temps = (n, h) → h < tripAt →
    ∃ u, exec (.thermSample temps) s = .next u ∧ u.dev.thermAt = w64 (s.dev.thermAt.toNat + 100 * ticksPerUs) ∧
      u.fd F.THERM_STATUS_SENSOR = n ∧ u.fd F.THERM_STATUS_STEP = s.throttleStep h ∧ u.tgf.safe = s.tgf.safe) ∧
  (∀ (s : State) (h : Int) (k : Nat), k < 4 → (k ≠ 0 → s.stepAt k ≤ h ∨ k ≤ s.fd F.THERM_STATUS_STEP ∧ s.stepAt k - 24 < h) → (∀ i, k < i → i < 4 → h < s.stepAt i) →
    (∀ i, k < i → i < 4 → s.fd F.THERM_STATUS_STEP < i ∨ h ≤ s.stepAt i - 24) → s.throttleStep h = k) ∧
  (∀ (s : State) (temps : List Int) (n : Nat) (h : Int), s.dev.off = false → temps.length = 64 →
    100 * ticksPerUs ≤ s.locSince s.dev.thermAt → hottest temps = (n, h) → tripAt ≤ h → s.inv.specMet = false → s.collects →
    ∃ u, exec (.thermSample temps) s = .next u ∧ u.tgf.safe = some s.loc ∧ (u.hrec s.tgf.next).code = 0x71 ∧
      (u.hrec s.tgf.next).source = tsrc 4 n) ∧
  (∀ (s : State) (n : Nat) (c : Instr) (src code : Nat), s.dev.off = false → s.collects →
    (c, src, code) ∈ [(Instr.thermalTrip n, tsrc 4 n, 0x71), (.supplyFault n, tsrc 0 n, 0x72), (.pllUnlock n, tsrc 3 n, 0x73),
      (.pllUnlock (n + 16), tsrc 0x17 n, 0x73)] →
    canRaise s.variant src code = true → n < 64 → (c = .pllUnlock n → n < 16) →
    ∃ u, exec c s = .next u ∧ u.tgf.safe = some s.loc ∧ (u.hrec s.tgf.next).code = code ∧ (u.hrec s.tgf.next).source = src ∧
      u.tgf.faultNDevice = true) ∧
  (∀ (s : State) (mv : Nat), s.dev.off = false → 0 < s.fd F.DEV_BOOT_STATUS_STAGE → s.dev.avsAt = none → 650 ≤ mv → mv ≤ 850 →
    mv % 5 = 0 → mv ≤ s.setPoint + 25 → s.setPoint ≤ mv + 25 → s.inSafe = false → s.dev.power < 2 →
    ∃ u, exec (.avsSet mv) s = .next u ∧ u.setPoint = mv ∧ u.out = .avs mv :: s.out ∧ u.dev.avsAt = some s.loc) ∧
  (∀ (s : State) (mv : Nat), s.dev.off = false → 0 < s.fd F.DEV_BOOT_STATUS_STAGE → s.dev.avsAt = none → s.avsMay mv = true →
    ∃ u, exec (.avsSet mv) s = .next u ∧ u.setPoint = mv ∧ u.out = .avs mv :: s.out ∧ u.dev.avsAt = some s.loc) ∧
  (∀ (s : State) (mv : Nat), mv < 650 ∨ 850 < mv ∨ mv % 5 ≠ 0 ∨ s.setPoint + 25 < mv ∨ mv + 25 < s.setPoint →
    exec (.avsSet mv) s = .next s) ∧
  (∀ s : State, exec .avsbusAck s = .next { s with dev := { s.dev with avsAt := none } }) ∧
  (∀ (s : State) (at_ : Word), s.dev.avsAt = some at_ → 500 * ticksPerUs ≤ s.locSince at_ → s.collects →
    ∃ u, exec .avsTimeout s = .next u ∧ u.dev.avsAt = none ∧ u.tgf.safe = some s.loc ∧ (u.hrec s.tgf.next).code = 0x72)

/-! ## Rules stated whole -/

/-- The engine counter CSRs are readable at User level only where PMU_USER_READ permits. At Supervisor and Control level, and at
User level with bit n of PMU_USER_READ set, csrr of CSR 0x010 + n gives its value; at User level with the bit clear it writes no
register and raises PRIV_VIOLATION (a double fault inside an exception); PMU_USER_READ is 0 after reset. (R464.) -/
def Obligations.CounterCsrPrivilege : Prop :=
  (∀ (s : State) (t rd rs1 csr kind n : Nat), n < 6 → csr % 4096 = 0x010 + n → rs1 % 32 = 0 → kind % 16 < 4 → t < 2048 →
    s.issues t 4 0 [] →
    0 < (s.thread t).priv ∨ nbit (s.fd F.PMU_USER_READ_CSRS) n = true →
    ∃ (u : State) (v : Word), exec (.csrr ⟨t, rs1, kind⟩ rd csr) s = .next u ∧ (s.fetched t 4).csrGet t (0x010 + n) = some v ∧
      u.thread t = (s.thread t).wrote (rd % 32) v 4) ∧
  (∀ (s : State) (t rd rs1 csr kind n : Nat), n < 6 → csr % 4096 = 0x010 + n → rs1 % 32 = 0 → kind % 16 < 4 → t < 2048 →
    s.issues t 4 0 [] → (s.thread t).priv = 0 → nbit (s.fd F.PMU_USER_READ_CSRS) n = false →
    ∃ u, exec (.csrr ⟨t, rs1, kind⟩ rd csr) s = .next u ∧ (∀ i, u.reg t i = s.reg t i) ∧
      ((s.thread t).excActive = false → (u.thread t).ecause = 2 ∧ (u.thread t).epc = (s.thread t).pc ∧
        ((s.handler (tCluster t) 0xF2).valid = true → (u.thread t).pc = (s.handler (tCluster t) 0xF2).pc)) ∧
      ((s.thread t).excActive = true → (u.thread t).running = false)) ∧
  State.reset.rd R.PMU_USER_READ = 0

/-- One revocation at a time: a register write is ignored, and a further ASK_REVOKE waits for the drain. While a revocation is in
progress a write of XLT_REVOKE_CTRL changes nothing and an ASK_REVOKE waits behind the others, with the revocation and memory as
they were; the drain of the one in progress starts the first that waits. (R210.) -/
def Obligations.OneRevocationAtATime : Prop :=
  (∀ (s : State) (path : Path) (v : Word), s.net.revoking.isSome = true → exec (.xltRevokeCtrl path v) s = .next s) ∧
  (∀ (s : State) (pf idx ask key : Nat) (e : OutEntry), s.controls pf idx 0x53 e → key = leAt e.bytes 8 4 → ask = key % 2 ^ 20 →
    askState (s.askMem ask) = 1 → askGen (s.askMem ask) = key / 2 ^ 20 → askDev (s.askMem ask) = false →
    s.mayName pf (askFunc (s.askMem ask)) = true → s.net.revoking.isSome = true → s.isRevoking ask = false →
    ∃ u, exec (.askRevoke pf idx) s = .next u ∧ u.net.revoking = s.net.revoking ∧
      u.net.revokeQueue = s.net.revokeQueue ++ [(pf, e.serial, key)] ∧ u.mem = s.mem) ∧
  (∀ (s : State) (r : Revocation) (pf serial ask key : Nat) (rest : List (Nat × Nat × Nat)), s.inSafe = false → s.net.revoking = some r → r.by_ = none →
    s.keyedRemains r.ask = false → s.askInvalidating r.ask = false → s.net.revokeQueue = (pf, serial, key) :: rest → ask = key % 2 ^ 20 →
    askState (s.askMem ask) = 1 → askGen (s.askMem ask) = key / 2 ^ 20 → askDev (s.askMem ask) = false →
    s.mayName pf (askFunc (s.askMem ask)) = true →
    ∃ u, exec .revokeDrain s = .next u ∧ u.net.revoking = some ⟨ask, s.loc, some (pf, serial)⟩ ∧ u.net.revokeQueue = rest ∧
      askState (u.askMem ask) = 3)

/-- Keys hold GEN and ASK; GEN runs from 1 to 4,095, and device reset begins it again. A key is GEN x 2^20 + ASK with 20 bits of
ASK; a key of GEN 0 is refused as KEY_INVALID; ASK_CREATE sets GEN to the one before plus 1, wrapping from 4,095 to 1, with the
fields of the command; after device reset every ASK is free with GEN 0, so that its first creation takes GEN 1. (R204.) -/
def Obligations.KeyGenerations : Prop :=
  (∀ gen ask, gen < 4096 → ask < 2 ^ 20 → keyOf gen ask = gen * 2 ^ 20 + ask ∧ keyGen (keyOf gen ask) = gen ∧ keyAsk (keyOf gen ask) = ask) ∧
  (∀ (s : State) (c iso ask : Nat), ask < 2 ^ 20 → (s.keyCheck c (keyOf 0 ask) iso).1 = some 7) ∧
  (∀ (s : State) (pf idx ask : Nat) (e : OutEntry) (b : List Byte), s.controls pf idx 0x52 e → b = e.bytes → ask = leAt b 8 4 →
    ask < 2 ^ 20 → 3 ≤ leAt b 17 1 → leAt b 17 1 ≤ 5 → leAt b 24 8 % 4096 = 0 → leAt b 24 8 < 2 ^ 52 →
    s.mayName pf (leAt b 12 2) = true → askState (s.askMem ask) = 0 → s.net.invals.length < 16 →
    ∃ u, exec (.askCreate pf idx) s = .next u ∧ askState (u.askMem ask) = 1 ∧
      askGen (u.askMem ask) = (if askGen (s.askMem ask) ≥ 4095 then 1 else askGen (s.askMem ask) + 1) ∧
      askIso (u.askMem ask) = leAt b 14 2 ∧ askRoot (u.askMem ask) = leAt b 24 8 ∧ u.net.invals.length = s.net.invals.length + 1) ∧
  (∀ (s : State) (ns : Nat), s.dev.off = false → 2000 < ns →
    ∃ u, exec (.resetN (.resetN ns)) s = .next u ∧ ∀ ask, askGen (u.askMem ask) = 0 ∧ askState (u.askMem ask) = 0)
end

