-- ==== Sys2Proof/Laws/Store.lean ====
section
/-! SUPPORT. Laws/Store.lean: reading after writing, and the canonical forms, of maps and of memory. -/
namespace Sys2Proof.Machine

variable {α : Type}

/-! ## Maps -/

theorem SMap.get_insert_same (d : α) (m : SMap α) (k : Nat) (v : α) : SMap.get d (SMap.insert m k v) k = v := by
  induction m with
  | nil => simp [SMap.insert, SMap.get]
  | cons e m ih =>
    obtain ⟨k', v'⟩ := e
    simp only [SMap.insert]
    split
    · simp [SMap.get]
    · split
      · simp [SMap.get]
      · next h _ => simp [SMap.get, h, ih]

theorem SMap.get_insert_ne (d : α) (m : SMap α) (k j : Nat) (v : α) (h : j ≠ k) :
    SMap.get d (SMap.insert m k v) j = SMap.get d m j := by
  induction m with
  | nil => simp [SMap.insert, SMap.get, h]
  | cons e m ih =>
    obtain ⟨k', v'⟩ := e
    simp only [SMap.insert]
    split
    · next hk => subst hk; simp [SMap.get, h]
    · split
      · simp [SMap.get, h]
      · simp [SMap.get, ih]

theorem SMap.get_erase_same (d : α) (m : SMap α) (k : Nat) : SMap.get d (SMap.erase m k) k = d := by
  induction m with
  | nil => rfl
  | cons e m ih =>
    obtain ⟨k', v'⟩ := e
    simp only [SMap.erase]
    split
    · exact ih
    · next hk => simp [SMap.get, hk, ih]

theorem SMap.get_erase_ne (d : α) (m : SMap α) (k j : Nat) (h : j ≠ k) :
    SMap.get d (SMap.erase m k) j = SMap.get d m j := by
  induction m with
  | nil => rfl
  | cons e m ih =>
    obtain ⟨k', v'⟩ := e
    simp only [SMap.erase]
    split
    · next hk => subst hk; simp [SMap.get, h, ih]
    · simp [SMap.get, ih]

/-- What was written is read back. -/
@[simp] theorem SMap.get_set_same [DecidableEq α] (d : α) (m : SMap α) (k : Nat) (v : α) :
    SMap.get d (SMap.set d m k v) k = v := by
  unfold SMap.set
  split
  · next h => rw [SMap.get_erase_same, h]
  · exact SMap.get_insert_same d m k v

/-- A write leaves every other key alone. -/
@[simp] theorem SMap.get_set_ne [DecidableEq α] (d : α) (m : SMap α) (k j : Nat) (v : α) (h : j ≠ k) :
    SMap.get d (SMap.set d m k v) j = SMap.get d m j := by
  unfold SMap.set
  split
  · exact SMap.get_erase_ne d m k j h
  · exact SMap.get_insert_ne d m k j v h

/-- Both together. -/
theorem SMap.get_set [DecidableEq α] (d : α) (m : SMap α) (k j : Nat) (v : α) :
    SMap.get d (SMap.set d m k v) j = if j = k then v else SMap.get d m j := by
  split
  · next h => subst h; simp
  · next h => simp [h]

/-! ## Canonical form of maps -/

theorem SMap.wfFrom_mono [DecidableEq α] {d : α} {a b : Nat} {m : SMap α} (h : a ≤ b) (w : SMap.wfFrom d b m = true) :
    SMap.wfFrom d a m = true := by
  cases m with
  | nil => rfl
  | cons e m =>
    obtain ⟨k, v⟩ := e
    simp only [SMap.wfFrom, Bool.and_eq_true, decide_eq_true_eq] at w ⊢
    exact ⟨⟨by omega, w.1.2⟩, w.2⟩

theorem SMap.wfFrom_erase [DecidableEq α] {d : α} (m : SMap α) (a k : Nat) (w : SMap.wfFrom d a m = true) :
    SMap.wfFrom d a (SMap.erase m k) = true := by
  induction m generalizing a with
  | nil => rfl
  | cons e m ih =>
    obtain ⟨k', v'⟩ := e
    simp only [SMap.wfFrom, Bool.and_eq_true, decide_eq_true_eq] at w
    simp only [SMap.erase]
    split
    · exact SMap.wfFrom_mono (by omega) (ih _ w.2)
    · simp only [SMap.wfFrom, Bool.and_eq_true, decide_eq_true_eq]
      exact ⟨w.1, ih _ w.2⟩

theorem SMap.wfFrom_insert [DecidableEq α] {d : α} (m : SMap α) (a k : Nat) (v : α) (ha : a ≤ k) (hv : v ≠ d)
    (w : SMap.wfFrom d a m = true) : SMap.wfFrom d a (SMap.insert m k v) = true := by
  induction m generalizing a with
  | nil => simp [SMap.insert, SMap.wfFrom, ha, hv]
  | cons e m ih =>
    obtain ⟨k', v'⟩ := e
    simp only [SMap.wfFrom, Bool.and_eq_true, decide_eq_true_eq] at w
    simp only [SMap.insert]
    split
    · next h => subst h; simp [SMap.wfFrom, ha, hv, w.2]
    · split
      · simp only [SMap.wfFrom, Bool.and_eq_true, decide_eq_true_eq]
        exact ⟨⟨ha, hv⟩, ⟨by omega, w.1.2⟩, w.2⟩
      · simp only [SMap.wfFrom, Bool.and_eq_true, decide_eq_true_eq]
        exact ⟨w.1, ih _ (by omega) w.2⟩

/-- A write keeps the canonical form. -/
theorem SMap.wf_set [DecidableEq α] {d : α} (m : SMap α) (k : Nat) (v : α) (w : SMap.wf d m = true) :
    SMap.wf d (SMap.set d m k v) = true := by
  unfold SMap.set
  split
  · exact SMap.wfFrom_erase m 0 k w
  · next h => exact SMap.wfFrom_insert m 0 k v (Nat.zero_le _) h w

theorem SMap.wfFrom_filter [DecidableEq α] {d : α} (m : SMap α) (p : Nat × α → Bool) (a : Nat) (w : SMap.wfFrom d a m = true) :
    SMap.wfFrom d a (List.filter p m) = true := by
  induction m generalizing a with
  | nil => rfl
  | cons e m ih =>
    obtain ⟨k, v⟩ := e
    simp only [SMap.wfFrom, Bool.and_eq_true, decide_eq_true_eq] at w
    simp only [List.filter]
    split
    · simp only [SMap.wfFrom, Bool.and_eq_true, decide_eq_true_eq]
      exact ⟨w.1, ih _ w.2⟩
    · exact SMap.wfFrom_mono (by omega) (ih _ w.2)

/-! ## Memory -/

/-- A byte written is read back. -/
@[simp] theorem Memory.read_write_same (m : Memory) (a : Nat) (b : Byte) : (m.write a b).read a = b := by
  simp [Memory.read, Memory.write]

/-- A byte written leaves every other byte alone. -/
theorem Memory.read_write_ne (m : Memory) (a x : Nat) (b : Byte) (h : x ≠ a) : (m.write a b).read x = m.read x := by
  simp [Memory.read, Memory.write, h]

/-- A byte written keeps the canonical form. -/
theorem Memory.wf_write (m : Memory) (a : Nat) (b : Byte) (w : m.wf = true) : (m.write a b).wf = true :=
  SMap.wf_set m a b w

/-- Bytes written keep the canonical form. -/
theorem Memory.wf_writeN (bs : List Byte) (m : Memory) (a : Nat) (w : m.wf = true) : (m.writeN a bs).wf = true := by
  induction bs generalizing m a with
  | nil => exact w
  | cons b bs ih => exact ih _ _ (Memory.wf_write m a b w)

/-- Part of a memory is canonical. -/
theorem Memory.wf_filter (m : Memory) (p : Host.Cell → Bool) (w : m.wf = true) : Memory.wf (List.filter p m) = true :=
  SMap.wfFrom_filter m p 0 w

/-- Bytes written leave every byte outside them alone. -/
theorem Memory.read_writeN_out (bs : List Byte) (m : Memory) (a x : Nat) (h : x < a ∨ a + bs.length ≤ x) :
    (m.writeN a bs).read x = m.read x := by
  induction bs generalizing m a with
  | nil => rfl
  | cons b bs ih =>
    simp only [List.length_cons] at h
    rw [Memory.writeN, ih _ _ (by omega), Memory.read_write_ne _ _ _ _ (by omega)]

/-- A byte that was written is read back. -/
theorem Memory.read_writeN_in (bs : List Byte) (m : Memory) (a i : Nat) (h : i < bs.length) :
    (m.writeN a bs).read (a + i) = bs[i] := by
  induction bs generalizing m a i with
  | nil => simp at h
  | cons b bs ih =>
    cases i with
    | zero => rw [Memory.writeN, Memory.read_writeN_out _ _ _ _ (by omega)]; simp
    | succ i =>
      simp only [List.length_cons] at h
      have := ih (m.write a b) (a + 1) i (by omega)
      rw [Memory.writeN, show a + (i + 1) = a + 1 + i by omega, this]
      rfl

/-- Bytes that were written are read back together. -/
theorem Memory.readN_writeN_same (bs : List Byte) (m : Memory) (a : Nat) : (m.writeN a bs).readN a bs.length = bs := by
  induction bs generalizing m a with
  | nil => rfl
  | cons b bs ih =>
    simp only [List.length_cons, Memory.readN, Memory.writeN]
    rw [Memory.read_writeN_out _ _ _ _ (by omega), Memory.read_write_same, ih]

/-- Bytes read where nothing was written are as before. -/
theorem Memory.readN_writeN_out (n : Nat) (bs : List Byte) (m : Memory) (a x : Nat) (h : x + n ≤ a ∨ a + bs.length ≤ x) :
    (m.writeN a bs).readN x n = m.readN x n := by
  induction n generalizing x with
  | zero => rfl
  | succ n ih =>
    simp only [Memory.readN]
    rw [ih _ (by omega), Memory.read_writeN_out _ _ _ _ (by omega)]

end Sys2Proof.Machine
end

