-- ==== Sys2Proof/Laws/Bits.lean ====
section
/-! SUPPORT. Laws/Bits.lean: fields of words and of registers: what a field holds after it, or another, is written. -/
namespace Sys2Proof

theorem w64_toNat_lt {n : Nat} (h : n < 2 ^ 64) : (w64 n).toNat = n := by
  rw [w64, BitVec.toNat_ofNat, Nat.mod_eq_of_lt h]

@[simp] theorem w64_toNat_self (w : Word) : w64 w.toNat = w := by simp [w64]

/-- A number in three parts: below a field, the field, above it. -/
theorem nat_parts (x lo n : Nat) : x = x % 2 ^ lo + (x / 2 ^ lo % 2 ^ n) * 2 ^ lo + (x / 2 ^ (lo + n)) * 2 ^ (lo + n) := by
  have h1 := Nat.div_add_mod x (2 ^ lo)
  have h2 := Nat.div_add_mod (x / 2 ^ lo) (2 ^ n)
  rw [Nat.div_div_eq_div_mul, ← pow_add] at h2
  have h3 : 2 ^ (lo + n) = 2 ^ lo * 2 ^ n := pow_add 2 lo n
  calc x = 2 ^ lo * (x / 2 ^ lo) + x % 2 ^ lo := h1.symm
    _ = 2 ^ lo * (2 ^ n * (x / 2 ^ (lo + n)) + x / 2 ^ lo % 2 ^ n) + x % 2 ^ lo := by rw [h2]
    _ = _ := by rw [h3]; ring

/-- A field written, as a number in three parts. -/
theorem putW_toNat (w : Word) (hi lo v : Nat) (h1 : lo ≤ hi) (h2 : hi < 64) :
    (putW w hi lo v).toNat =
      w.toNat % 2 ^ lo + (v % 2 ^ (hi + 1 - lo)) * 2 ^ lo + (w.toNat / 2 ^ (hi + 1)) * 2 ^ (hi + 1) := by
  have hp := nat_parts w.toNat lo (hi + 1 - lo)
  have e : lo + (hi + 1 - lo) = hi + 1 := by omega
  rw [e] at hp
  have hb : bitsW w hi lo = w.toNat / 2 ^ lo % 2 ^ (hi + 1 - lo) := rfl
  have hlt : w.toNat % 2 ^ lo + (v % 2 ^ (hi + 1 - lo)) * 2 ^ lo + (w.toNat / 2 ^ (hi + 1)) * 2 ^ (hi + 1) < 2 ^ 64 := by
    have a1 : w.toNat % 2 ^ lo < 2 ^ lo := Nat.mod_lt _ (by positivity)
    have a2 : v % 2 ^ (hi + 1 - lo) + 1 ≤ 2 ^ (hi + 1 - lo) := Nat.mod_lt _ (by positivity)
    have a3 : w.toNat / 2 ^ (hi + 1) + 1 ≤ 2 ^ (63 - hi) := by
      have : w.toNat < 2 ^ (hi + 1) * 2 ^ (63 - hi) := by
        rw [← pow_add, show hi + 1 + (63 - hi) = 64 by omega]; exact w.isLt
      exact Nat.div_lt_of_lt_mul this
    have p1 : 2 ^ (hi + 1 - lo) * 2 ^ lo = 2 ^ (hi + 1) := by rw [← pow_add]; congr 1; omega
    have p2 : 2 ^ (63 - hi) * 2 ^ (hi + 1) = 2 ^ 64 := by rw [← pow_add]; congr 1; omega
    have b2 := Nat.mul_le_mul_right (2 ^ lo) a2
    have b3 := Nat.mul_le_mul_right (2 ^ (hi + 1)) a3
    rw [p1] at b2; rw [p2] at b3
    rw [Nat.add_mul] at b2 b3
    omega
  have hs : w.toNat - bitsW w hi lo * 2 ^ lo + v % 2 ^ (hi + 1 - lo) * 2 ^ lo =
      w.toNat % 2 ^ lo + (v % 2 ^ (hi + 1 - lo)) * 2 ^ lo + (w.toNat / 2 ^ (hi + 1)) * 2 ^ (hi + 1) := by
    rw [hb]; omega
  rw [putW, hs, w64_toNat_lt hlt]

/-- A field that was written reads as written, cut to its width. -/
theorem bitsW_putW (w : Word) (hi lo v : Nat) (h1 : lo ≤ hi) (h2 : hi < 64) :
    bitsW (putW w hi lo v) hi lo = v % 2 ^ (hi + 1 - lo) := by
  rw [bitsW, putW_toNat w hi lo v h1 h2]
  have e : 2 ^ (hi + 1) = 2 ^ lo * 2 ^ (hi + 1 - lo) := by rw [← pow_add]; congr 1; omega
  have hd : (w.toNat % 2 ^ lo + v % 2 ^ (hi + 1 - lo) * 2 ^ lo + w.toNat / 2 ^ (hi + 1) * 2 ^ (hi + 1)) / 2 ^ lo =
      v % 2 ^ (hi + 1 - lo) + w.toNat / 2 ^ (hi + 1) * 2 ^ (hi + 1 - lo) := by
    rw [e]
    have : w.toNat % 2 ^ lo + v % 2 ^ (hi + 1 - lo) * 2 ^ lo + w.toNat / (2 ^ lo * 2 ^ (hi + 1 - lo)) * (2 ^ lo * 2 ^ (hi + 1 - lo)) =
        w.toNat % 2 ^ lo + 2 ^ lo * (v % 2 ^ (hi + 1 - lo) + w.toNat / (2 ^ lo * 2 ^ (hi + 1 - lo)) * 2 ^ (hi + 1 - lo)) := by ring
    rw [this, Nat.add_mul_div_left _ _ (by positivity), Nat.div_eq_of_lt (Nat.mod_lt _ (by positivity)), Nat.zero_add]
  rw [hd, Nat.add_mul_mod_self_right, Nat.mod_mod]

/-- A bit of a word in a field of it. -/
theorem bitsW_testBit (w : Word) (hi lo i : Nat) : (bitsW w hi lo).testBit i = (decide (i < hi + 1 - lo) && w.toNat.testBit (lo + i)) := by
  simp [bitsW, Nat.testBit_mod_two_pow, Nat.testBit_div_two_pow]
  grind

/-- A bit of a word outside a field that is written. -/
theorem putW_testBit_out (w : Word) (hi lo v i : Nat) (h1 : lo ≤ hi) (h2 : hi < 64) (h : i < lo ∨ hi < i) :
    (putW w hi lo v).toNat.testBit i = w.toNat.testBit i := by
  rw [putW_toNat w hi lo v h1 h2]
  have hv : v % 2 ^ (hi + 1 - lo) < 2 ^ (hi + 1 - lo) := Nat.mod_lt _ (by positivity)
  have e : 2 ^ (hi + 1 - lo) * 2 ^ lo = 2 ^ (hi + 1) := by rw [← pow_add]; congr 1; omega
  have hlow : w.toNat % 2 ^ lo + v % 2 ^ (hi + 1 - lo) * 2 ^ lo < 2 ^ (hi + 1) := by
    have a1 : w.toNat % 2 ^ lo < 2 ^ lo := Nat.mod_lt _ (by positivity)
    have b2 := Nat.mul_le_mul_right (2 ^ lo) (show v % 2 ^ (hi + 1 - lo) + 1 ≤ _ from hv)
    rw [e, Nat.add_mul] at b2; omega
  rw [show w.toNat % 2 ^ lo + v % 2 ^ (hi + 1 - lo) * 2 ^ lo + w.toNat / 2 ^ (hi + 1) * 2 ^ (hi + 1) =
    2 ^ (hi + 1) * (w.toNat / 2 ^ (hi + 1)) + (w.toNat % 2 ^ lo + v % 2 ^ (hi + 1 - lo) * 2 ^ lo) by ring]
  rw [Nat.testBit_two_pow_mul_add _ hlow]
  split
  · next hi' =>
    have hl : i < lo := by omega
    rw [show w.toNat % 2 ^ lo + v % 2 ^ (hi + 1 - lo) * 2 ^ lo = 2 ^ lo * (v % 2 ^ (hi + 1 - lo)) + w.toNat % 2 ^ lo by ring]
    rw [Nat.testBit_two_pow_mul_add _ (Nat.mod_lt _ (by positivity))]
    simp [hl, Nat.testBit_mod_two_pow]
  · next hi' =>
    simp [Nat.testBit_div_two_pow]
    congr 1; omega

/-- A field is not changed by a write of another field. -/
theorem bitsW_putW_ne (w : Word) (hi lo hi' lo' v : Nat) (h1 : lo ≤ hi) (h2 : hi < 64) (h : hi' < lo ∨ hi < lo') :
    bitsW (putW w hi lo v) hi' lo' = bitsW w hi' lo' := by
  apply Nat.eq_of_testBit_eq
  intro i
  rw [bitsW_testBit, bitsW_testBit]
  by_cases hi1 : i < hi' + 1 - lo'
  · simp only [hi1, decide_true, Bool.true_and]
    exact putW_testBit_out w hi lo v _ h1 h2 (by omega)
  · simp [hi1]

/-- A field within the width of a word cut to it. -/
theorem bitsW_cut (w : Word) (n hi lo : Nat) (h : hi < n) : bitsW (w64 (w.toNat % 2 ^ n)) hi lo = bitsW w hi lo := by
  apply Nat.eq_of_testBit_eq
  intro i
  rw [bitsW_testBit, bitsW_testBit]
  by_cases hi1 : i < hi + 1 - lo
  · have : (w64 (w.toNat % 2 ^ n)).toNat = w.toNat % 2 ^ n := w64_toNat_lt (lt_of_le_of_lt (Nat.mod_le _ _) w.isLt)
    simp only [hi1, decide_true, Bool.true_and, this, Nat.testBit_mod_two_pow]
    have : lo + i < n := by omega
    simp [this]
  · simp [hi1]

end Sys2Proof

namespace Sys2Proof.Machine

/-! ## Registers -/

/-- A register of another address is not changed by a write. -/
theorem State.rd_wr_ne (s : State) (r r' : RegDesc) (ix ix' : List Nat) (v : Word) (h : r'.addr ix' ≠ r.addr ix) :
    (s.wr r ix v).rd r' ix' = s.rd r' ix' := by
  simp [State.rd, State.wr, h]

/-- What was written is read back, cut to the width of the register. -/
@[simp] theorem State.rd_wr (s : State) (r : RegDesc) (ix : List Nat) (v : Word) :
    (s.wr r ix v).rd r ix = w64 (v.toNat % 2 ^ r.width) := by
  simp [State.rd, State.wr]

/-- A field that was written reads as written, cut to its width. -/
theorem State.fd_fw (s : State) (f : Fld) (ix : List Nat) (v : Nat) (h1 : f.lo ≤ f.hi) (h2 : f.hi < f.reg.width)
    (h3 : f.reg.width ≤ 64) : (s.fw f ix v).fd f ix = v % 2 ^ (f.hi + 1 - f.lo) := by
  rw [State.fd, State.fw, State.rd_wr, bitsW_cut _ _ _ _ h2, bitsW_putW _ _ _ _ h1 (by omega)]

/-- Another field of the same register is not changed by a write. -/
theorem State.fd_fw_ne (s : State) (f g : Fld) (ix : List Nat) (v : Nat) (hr : g.reg = f.reg) (h1 : f.lo ≤ f.hi)
    (h2 : f.hi < f.reg.width) (h3 : f.reg.width ≤ 64) (h4 : g.hi < f.reg.width) (h : g.hi < f.lo ∨ f.hi < g.lo) :
    (s.fw f ix v).fd g ix = s.fd g ix := by
  simp only [State.fd, State.fw, hr, State.rd_wr]
  rw [bitsW_cut _ _ _ _ h4, bitsW_putW_ne _ _ _ _ _ _ h1 (by omega) h]

/-- A field of another register is not changed by a write. -/
theorem State.fd_fw_other (s : State) (f g : Fld) (ix ix' : List Nat) (v : Nat) (h : g.reg.addr ix' ≠ f.reg.addr ix) :
    (s.fw f ix v).fd g ix' = s.fd g ix' := by
  simp only [State.fd, State.fw]
  rw [State.rd_wr_ne _ _ _ _ _ _ h]

/-- A field of another register is not changed by a write of a register. -/
theorem State.fd_wr_other (s : State) (r : RegDesc) (g : Fld) (ix ix' : List Nat) (v : Word) (h : g.reg.addr ix' ≠ r.addr ix) :
    (s.wr r ix v).fd g ix' = s.fd g ix' := by
  simp only [State.fd]
  rw [State.rd_wr_ne _ _ _ _ _ _ h]

end Sys2Proof.Machine
end

