-- ==== Sys2Proof/Laws/State.lean ====
section
/-! SUPPORT. Laws/State.lean: what each named update leaves of each field of State, and what an object holds after an update. -/
namespace Sys2Proof.Machine

/-! ### setFifo -/

@[simp] theorem State.setFifo_regs (s : State) (k : Nat) (x : Fifo) : (s.setFifo k x).regs = s.regs := rfl
@[simp] theorem State.setFifo_mem (s : State) (k : Nat) (x : Fifo) : (s.setFifo k x).mem = s.mem := rfl
@[simp] theorem State.setFifo_poison (s : State) (k : Nat) (x : Fifo) : (s.setFifo k x).poison = s.poison := rfl
@[simp] theorem State.setFifo_inv (s : State) (k : Nat) (x : Fifo) : (s.setFifo k x).inv = s.inv := rfl
@[simp] theorem State.setFifo_tgf (s : State) (k : Nat) (x : Fifo) : (s.setFifo k x).tgf = s.tgf := rfl
@[simp] theorem State.setFifo_threads (s : State) (k : Nat) (x : Fifo) : (s.setFifo k x).threads = s.threads := rfl
@[simp] theorem State.setFifo_engines (s : State) (k : Nat) (x : Fifo) : (s.setFifo k x).engines = s.engines := rfl
@[simp] theorem State.setFifo_clusters (s : State) (k : Nat) (x : Fifo) : (s.setFifo k x).clusters = s.clusters := rfl
@[simp] theorem State.setFifo_ops (s : State) (k : Nat) (x : Fifo) : (s.setFifo k x).ops = s.ops := rfl
@[simp] theorem State.setFifo_orders (s : State) (k : Nat) (x : Fifo) : (s.setFifo k x).orders = s.orders := rfl
@[simp] theorem State.setFifo_rings (s : State) (k : Nat) (x : Fifo) : (s.setFifo k x).rings = s.rings := rfl
@[simp] theorem State.setFifo_net (s : State) (k : Nat) (x : Fifo) : (s.setFifo k x).net = s.net := rfl
@[simp] theorem State.setFifo_mtch (s : State) (k : Nat) (x : Fifo) : (s.setFifo k x).mtch = s.mtch := rfl
@[simp] theorem State.setFifo_aml (s : State) (k : Nat) (x : Fifo) : (s.setFifo k x).aml = s.aml := rfl
@[simp] theorem State.setFifo_host (s : State) (k : Nat) (x : Fifo) : (s.setFifo k x).host = s.host := rfl
@[simp] theorem State.setFifo_dev (s : State) (k : Nat) (x : Fifo) : (s.setFifo k x).dev = s.dev := rfl
@[simp] theorem State.setFifo_eptCache (s : State) (k : Nat) (x : Fifo) : (s.setFifo k x).eptCache = s.eptCache := rfl
@[simp] theorem State.setFifo_ports (s : State) (k : Nat) (x : Fifo) : (s.setFifo k x).ports = s.ports := rfl
@[simp] theorem State.setFifo_lanes (s : State) (k : Nat) (x : Fifo) : (s.setFifo k x).lanes = s.lanes := rfl
@[simp] theorem State.setFifo_lims (s : State) (k : Nat) (x : Fifo) : (s.setFifo k x).lims = s.lims := rfl
@[simp] theorem State.setFifo_limCache (s : State) (k : Nat) (x : Fifo) : (s.setFifo k x).limCache = s.limCache := rfl
@[simp] theorem State.setFifo_limRefill (s : State) (k : Nat) (x : Fifo) : (s.setFifo k x).limRefill = s.limRefill := rfl
@[simp] theorem State.setFifo_route (s : State) (k : Nat) (x : Fifo) : (s.setFifo k x).route = s.route := rfl
@[simp] theorem State.setFifo_halfLatch (s : State) (k : Nat) (x : Fifo) : (s.setFifo k x).halfLatch = s.halfLatch := rfl
@[simp] theorem State.setFifo_recLatch (s : State) (k : Nat) (x : Fifo) : (s.setFifo k x).recLatch = s.recLatch := rfl
@[simp] theorem State.setFifo_sbAddr (s : State) (k : Nat) (x : Fifo) : (s.setFifo k x).sbAddr = s.sbAddr := rfl
@[simp] theorem State.setFifo_variant (s : State) (k : Nat) (x : Fifo) : (s.setFifo k x).variant = s.variant := rfl
@[simp] theorem State.setFifo_out (s : State) (k : Nat) (x : Fifo) : (s.setFifo k x).out = s.out := rfl
@[simp] theorem State.setFifo_free (s : State) (k : Nat) (x : Fifo) : (s.setFifo k x).free = s.free := rfl
@[simp] theorem State.setFifo_pending (s : State) (k : Nat) (x : Fifo) : (s.setFifo k x).pending = s.pending := rfl

/-! ### setThread -/

@[simp] theorem State.setThread_regs (s : State) (t : Nat) (x : Thread) : (s.setThread t x).regs = s.regs := rfl
@[simp] theorem State.setThread_mem (s : State) (t : Nat) (x : Thread) : (s.setThread t x).mem = s.mem := rfl
@[simp] theorem State.setThread_poison (s : State) (t : Nat) (x : Thread) : (s.setThread t x).poison = s.poison := rfl
@[simp] theorem State.setThread_inv (s : State) (t : Nat) (x : Thread) : (s.setThread t x).inv = s.inv := rfl
@[simp] theorem State.setThread_tgf (s : State) (t : Nat) (x : Thread) : (s.setThread t x).tgf = s.tgf := rfl
@[simp] theorem State.setThread_fifos (s : State) (t : Nat) (x : Thread) : (s.setThread t x).fifos = s.fifos := rfl
@[simp] theorem State.setThread_engines (s : State) (t : Nat) (x : Thread) : (s.setThread t x).engines = s.engines := rfl
@[simp] theorem State.setThread_clusters (s : State) (t : Nat) (x : Thread) : (s.setThread t x).clusters = s.clusters := rfl
@[simp] theorem State.setThread_ops (s : State) (t : Nat) (x : Thread) : (s.setThread t x).ops = s.ops := rfl
@[simp] theorem State.setThread_orders (s : State) (t : Nat) (x : Thread) : (s.setThread t x).orders = s.orders := rfl
@[simp] theorem State.setThread_rings (s : State) (t : Nat) (x : Thread) : (s.setThread t x).rings = s.rings := rfl
@[simp] theorem State.setThread_net (s : State) (t : Nat) (x : Thread) : (s.setThread t x).net = s.net := rfl
@[simp] theorem State.setThread_mtch (s : State) (t : Nat) (x : Thread) : (s.setThread t x).mtch = s.mtch := rfl
@[simp] theorem State.setThread_aml (s : State) (t : Nat) (x : Thread) : (s.setThread t x).aml = s.aml := rfl
@[simp] theorem State.setThread_host (s : State) (t : Nat) (x : Thread) : (s.setThread t x).host = s.host := rfl
@[simp] theorem State.setThread_dev (s : State) (t : Nat) (x : Thread) : (s.setThread t x).dev = s.dev := rfl
@[simp] theorem State.setThread_eptCache (s : State) (t : Nat) (x : Thread) : (s.setThread t x).eptCache = s.eptCache := rfl
@[simp] theorem State.setThread_ports (s : State) (t : Nat) (x : Thread) : (s.setThread t x).ports = s.ports := rfl
@[simp] theorem State.setThread_lanes (s : State) (t : Nat) (x : Thread) : (s.setThread t x).lanes = s.lanes := rfl
@[simp] theorem State.setThread_lims (s : State) (t : Nat) (x : Thread) : (s.setThread t x).lims = s.lims := rfl
@[simp] theorem State.setThread_limCache (s : State) (t : Nat) (x : Thread) : (s.setThread t x).limCache = s.limCache := rfl
@[simp] theorem State.setThread_limRefill (s : State) (t : Nat) (x : Thread) : (s.setThread t x).limRefill = s.limRefill := rfl
@[simp] theorem State.setThread_route (s : State) (t : Nat) (x : Thread) : (s.setThread t x).route = s.route := rfl
@[simp] theorem State.setThread_halfLatch (s : State) (t : Nat) (x : Thread) : (s.setThread t x).halfLatch = s.halfLatch := rfl
@[simp] theorem State.setThread_recLatch (s : State) (t : Nat) (x : Thread) : (s.setThread t x).recLatch = s.recLatch := rfl
@[simp] theorem State.setThread_sbAddr (s : State) (t : Nat) (x : Thread) : (s.setThread t x).sbAddr = s.sbAddr := rfl
@[simp] theorem State.setThread_variant (s : State) (t : Nat) (x : Thread) : (s.setThread t x).variant = s.variant := rfl
@[simp] theorem State.setThread_out (s : State) (t : Nat) (x : Thread) : (s.setThread t x).out = s.out := rfl
@[simp] theorem State.setThread_free (s : State) (t : Nat) (x : Thread) : (s.setThread t x).free = s.free := rfl
@[simp] theorem State.setThread_pending (s : State) (t : Nat) (x : Thread) : (s.setThread t x).pending = s.pending := rfl

/-! ### setEngine -/

@[simp] theorem State.setEngine_regs (s : State) (g : Nat) (x : Engine) : (s.setEngine g x).regs = s.regs := rfl
@[simp] theorem State.setEngine_mem (s : State) (g : Nat) (x : Engine) : (s.setEngine g x).mem = s.mem := rfl
@[simp] theorem State.setEngine_poison (s : State) (g : Nat) (x : Engine) : (s.setEngine g x).poison = s.poison := rfl
@[simp] theorem State.setEngine_inv (s : State) (g : Nat) (x : Engine) : (s.setEngine g x).inv = s.inv := rfl
@[simp] theorem State.setEngine_tgf (s : State) (g : Nat) (x : Engine) : (s.setEngine g x).tgf = s.tgf := rfl
@[simp] theorem State.setEngine_fifos (s : State) (g : Nat) (x : Engine) : (s.setEngine g x).fifos = s.fifos := rfl
@[simp] theorem State.setEngine_threads (s : State) (g : Nat) (x : Engine) : (s.setEngine g x).threads = s.threads := rfl
@[simp] theorem State.setEngine_clusters (s : State) (g : Nat) (x : Engine) : (s.setEngine g x).clusters = s.clusters := rfl
@[simp] theorem State.setEngine_ops (s : State) (g : Nat) (x : Engine) : (s.setEngine g x).ops = s.ops := rfl
@[simp] theorem State.setEngine_orders (s : State) (g : Nat) (x : Engine) : (s.setEngine g x).orders = s.orders := rfl
@[simp] theorem State.setEngine_rings (s : State) (g : Nat) (x : Engine) : (s.setEngine g x).rings = s.rings := rfl
@[simp] theorem State.setEngine_net (s : State) (g : Nat) (x : Engine) : (s.setEngine g x).net = s.net := rfl
@[simp] theorem State.setEngine_mtch (s : State) (g : Nat) (x : Engine) : (s.setEngine g x).mtch = s.mtch := rfl
@[simp] theorem State.setEngine_aml (s : State) (g : Nat) (x : Engine) : (s.setEngine g x).aml = s.aml := rfl
@[simp] theorem State.setEngine_host (s : State) (g : Nat) (x : Engine) : (s.setEngine g x).host = s.host := rfl
@[simp] theorem State.setEngine_dev (s : State) (g : Nat) (x : Engine) : (s.setEngine g x).dev = s.dev := rfl
@[simp] theorem State.setEngine_eptCache (s : State) (g : Nat) (x : Engine) : (s.setEngine g x).eptCache = s.eptCache := rfl
@[simp] theorem State.setEngine_ports (s : State) (g : Nat) (x : Engine) : (s.setEngine g x).ports = s.ports := rfl
@[simp] theorem State.setEngine_lanes (s : State) (g : Nat) (x : Engine) : (s.setEngine g x).lanes = s.lanes := rfl
@[simp] theorem State.setEngine_lims (s : State) (g : Nat) (x : Engine) : (s.setEngine g x).lims = s.lims := rfl
@[simp] theorem State.setEngine_limCache (s : State) (g : Nat) (x : Engine) : (s.setEngine g x).limCache = s.limCache := rfl
@[simp] theorem State.setEngine_limRefill (s : State) (g : Nat) (x : Engine) : (s.setEngine g x).limRefill = s.limRefill := rfl
@[simp] theorem State.setEngine_route (s : State) (g : Nat) (x : Engine) : (s.setEngine g x).route = s.route := rfl
@[simp] theorem State.setEngine_halfLatch (s : State) (g : Nat) (x : Engine) : (s.setEngine g x).halfLatch = s.halfLatch := rfl
@[simp] theorem State.setEngine_recLatch (s : State) (g : Nat) (x : Engine) : (s.setEngine g x).recLatch = s.recLatch := rfl
@[simp] theorem State.setEngine_sbAddr (s : State) (g : Nat) (x : Engine) : (s.setEngine g x).sbAddr = s.sbAddr := rfl
@[simp] theorem State.setEngine_variant (s : State) (g : Nat) (x : Engine) : (s.setEngine g x).variant = s.variant := rfl
@[simp] theorem State.setEngine_out (s : State) (g : Nat) (x : Engine) : (s.setEngine g x).out = s.out := rfl
@[simp] theorem State.setEngine_free (s : State) (g : Nat) (x : Engine) : (s.setEngine g x).free = s.free := rfl
@[simp] theorem State.setEngine_pending (s : State) (g : Nat) (x : Engine) : (s.setEngine g x).pending = s.pending := rfl

/-! ### setCluster -/

@[simp] theorem State.setCluster_regs (s : State) (c : Nat) (x : Cluster) : (s.setCluster c x).regs = s.regs := rfl
@[simp] theorem State.setCluster_mem (s : State) (c : Nat) (x : Cluster) : (s.setCluster c x).mem = s.mem := rfl
@[simp] theorem State.setCluster_poison (s : State) (c : Nat) (x : Cluster) : (s.setCluster c x).poison = s.poison := rfl
@[simp] theorem State.setCluster_inv (s : State) (c : Nat) (x : Cluster) : (s.setCluster c x).inv = s.inv := rfl
@[simp] theorem State.setCluster_tgf (s : State) (c : Nat) (x : Cluster) : (s.setCluster c x).tgf = s.tgf := rfl
@[simp] theorem State.setCluster_fifos (s : State) (c : Nat) (x : Cluster) : (s.setCluster c x).fifos = s.fifos := rfl
@[simp] theorem State.setCluster_threads (s : State) (c : Nat) (x : Cluster) : (s.setCluster c x).threads = s.threads := rfl
@[simp] theorem State.setCluster_engines (s : State) (c : Nat) (x : Cluster) : (s.setCluster c x).engines = s.engines := rfl
@[simp] theorem State.setCluster_ops (s : State) (c : Nat) (x : Cluster) : (s.setCluster c x).ops = s.ops := rfl
@[simp] theorem State.setCluster_orders (s : State) (c : Nat) (x : Cluster) : (s.setCluster c x).orders = s.orders := rfl
@[simp] theorem State.setCluster_rings (s : State) (c : Nat) (x : Cluster) : (s.setCluster c x).rings = s.rings := rfl
@[simp] theorem State.setCluster_net (s : State) (c : Nat) (x : Cluster) : (s.setCluster c x).net = s.net := rfl
@[simp] theorem State.setCluster_mtch (s : State) (c : Nat) (x : Cluster) : (s.setCluster c x).mtch = s.mtch := rfl
@[simp] theorem State.setCluster_aml (s : State) (c : Nat) (x : Cluster) : (s.setCluster c x).aml = s.aml := rfl
@[simp] theorem State.setCluster_host (s : State) (c : Nat) (x : Cluster) : (s.setCluster c x).host = s.host := rfl
@[simp] theorem State.setCluster_dev (s : State) (c : Nat) (x : Cluster) : (s.setCluster c x).dev = s.dev := rfl
@[simp] theorem State.setCluster_eptCache (s : State) (c : Nat) (x : Cluster) : (s.setCluster c x).eptCache = s.eptCache := rfl
@[simp] theorem State.setCluster_ports (s : State) (c : Nat) (x : Cluster) : (s.setCluster c x).ports = s.ports := rfl
@[simp] theorem State.setCluster_lanes (s : State) (c : Nat) (x : Cluster) : (s.setCluster c x).lanes = s.lanes := rfl
@[simp] theorem State.setCluster_lims (s : State) (c : Nat) (x : Cluster) : (s.setCluster c x).lims = s.lims := rfl
@[simp] theorem State.setCluster_limCache (s : State) (c : Nat) (x : Cluster) : (s.setCluster c x).limCache = s.limCache := rfl
@[simp] theorem State.setCluster_limRefill (s : State) (c : Nat) (x : Cluster) : (s.setCluster c x).limRefill = s.limRefill := rfl
@[simp] theorem State.setCluster_route (s : State) (c : Nat) (x : Cluster) : (s.setCluster c x).route = s.route := rfl
@[simp] theorem State.setCluster_halfLatch (s : State) (c : Nat) (x : Cluster) : (s.setCluster c x).halfLatch = s.halfLatch := rfl
@[simp] theorem State.setCluster_recLatch (s : State) (c : Nat) (x : Cluster) : (s.setCluster c x).recLatch = s.recLatch := rfl
@[simp] theorem State.setCluster_sbAddr (s : State) (c : Nat) (x : Cluster) : (s.setCluster c x).sbAddr = s.sbAddr := rfl
@[simp] theorem State.setCluster_variant (s : State) (c : Nat) (x : Cluster) : (s.setCluster c x).variant = s.variant := rfl
@[simp] theorem State.setCluster_out (s : State) (c : Nat) (x : Cluster) : (s.setCluster c x).out = s.out := rfl
@[simp] theorem State.setCluster_free (s : State) (c : Nat) (x : Cluster) : (s.setCluster c x).free = s.free := rfl
@[simp] theorem State.setCluster_pending (s : State) (c : Nat) (x : Cluster) : (s.setCluster c x).pending = s.pending := rfl

/-! ### setOp -/

@[simp] theorem State.setOp_regs (s : State) (k : Nat) (x : Op) : (s.setOp k x).regs = s.regs := rfl
@[simp] theorem State.setOp_mem (s : State) (k : Nat) (x : Op) : (s.setOp k x).mem = s.mem := rfl
@[simp] theorem State.setOp_poison (s : State) (k : Nat) (x : Op) : (s.setOp k x).poison = s.poison := rfl
@[simp] theorem State.setOp_inv (s : State) (k : Nat) (x : Op) : (s.setOp k x).inv = s.inv := rfl
@[simp] theorem State.setOp_tgf (s : State) (k : Nat) (x : Op) : (s.setOp k x).tgf = s.tgf := rfl
@[simp] theorem State.setOp_fifos (s : State) (k : Nat) (x : Op) : (s.setOp k x).fifos = s.fifos := rfl
@[simp] theorem State.setOp_threads (s : State) (k : Nat) (x : Op) : (s.setOp k x).threads = s.threads := rfl
@[simp] theorem State.setOp_engines (s : State) (k : Nat) (x : Op) : (s.setOp k x).engines = s.engines := rfl
@[simp] theorem State.setOp_clusters (s : State) (k : Nat) (x : Op) : (s.setOp k x).clusters = s.clusters := rfl
@[simp] theorem State.setOp_orders (s : State) (k : Nat) (x : Op) : (s.setOp k x).orders = s.orders := rfl
@[simp] theorem State.setOp_rings (s : State) (k : Nat) (x : Op) : (s.setOp k x).rings = s.rings := rfl
@[simp] theorem State.setOp_net (s : State) (k : Nat) (x : Op) : (s.setOp k x).net = s.net := rfl
@[simp] theorem State.setOp_mtch (s : State) (k : Nat) (x : Op) : (s.setOp k x).mtch = s.mtch := rfl
@[simp] theorem State.setOp_aml (s : State) (k : Nat) (x : Op) : (s.setOp k x).aml = s.aml := rfl
@[simp] theorem State.setOp_host (s : State) (k : Nat) (x : Op) : (s.setOp k x).host = s.host := rfl
@[simp] theorem State.setOp_dev (s : State) (k : Nat) (x : Op) : (s.setOp k x).dev = s.dev := rfl
@[simp] theorem State.setOp_eptCache (s : State) (k : Nat) (x : Op) : (s.setOp k x).eptCache = s.eptCache := rfl
@[simp] theorem State.setOp_ports (s : State) (k : Nat) (x : Op) : (s.setOp k x).ports = s.ports := rfl
@[simp] theorem State.setOp_lanes (s : State) (k : Nat) (x : Op) : (s.setOp k x).lanes = s.lanes := rfl
@[simp] theorem State.setOp_lims (s : State) (k : Nat) (x : Op) : (s.setOp k x).lims = s.lims := rfl
@[simp] theorem State.setOp_limCache (s : State) (k : Nat) (x : Op) : (s.setOp k x).limCache = s.limCache := rfl
@[simp] theorem State.setOp_limRefill (s : State) (k : Nat) (x : Op) : (s.setOp k x).limRefill = s.limRefill := rfl
@[simp] theorem State.setOp_route (s : State) (k : Nat) (x : Op) : (s.setOp k x).route = s.route := rfl
@[simp] theorem State.setOp_halfLatch (s : State) (k : Nat) (x : Op) : (s.setOp k x).halfLatch = s.halfLatch := rfl
@[simp] theorem State.setOp_recLatch (s : State) (k : Nat) (x : Op) : (s.setOp k x).recLatch = s.recLatch := rfl
@[simp] theorem State.setOp_sbAddr (s : State) (k : Nat) (x : Op) : (s.setOp k x).sbAddr = s.sbAddr := rfl
@[simp] theorem State.setOp_variant (s : State) (k : Nat) (x : Op) : (s.setOp k x).variant = s.variant := rfl
@[simp] theorem State.setOp_out (s : State) (k : Nat) (x : Op) : (s.setOp k x).out = s.out := rfl
@[simp] theorem State.setOp_free (s : State) (k : Nat) (x : Op) : (s.setOp k x).free = s.free := rfl
@[simp] theorem State.setOp_pending (s : State) (k : Nat) (x : Op) : (s.setOp k x).pending = s.pending := rfl

/-! ### setPort -/

@[simp] theorem State.setPort_regs (s : State) (p : Nat) (x : Port) : (s.setPort p x).regs = s.regs := rfl
@[simp] theorem State.setPort_mem (s : State) (p : Nat) (x : Port) : (s.setPort p x).mem = s.mem := rfl
@[simp] theorem State.setPort_poison (s : State) (p : Nat) (x : Port) : (s.setPort p x).poison = s.poison := rfl
@[simp] theorem State.setPort_inv (s : State) (p : Nat) (x : Port) : (s.setPort p x).inv = s.inv := rfl
@[simp] theorem State.setPort_tgf (s : State) (p : Nat) (x : Port) : (s.setPort p x).tgf = s.tgf := rfl
@[simp] theorem State.setPort_fifos (s : State) (p : Nat) (x : Port) : (s.setPort p x).fifos = s.fifos := rfl
@[simp] theorem State.setPort_threads (s : State) (p : Nat) (x : Port) : (s.setPort p x).threads = s.threads := rfl
@[simp] theorem State.setPort_engines (s : State) (p : Nat) (x : Port) : (s.setPort p x).engines = s.engines := rfl
@[simp] theorem State.setPort_clusters (s : State) (p : Nat) (x : Port) : (s.setPort p x).clusters = s.clusters := rfl
@[simp] theorem State.setPort_ops (s : State) (p : Nat) (x : Port) : (s.setPort p x).ops = s.ops := rfl
@[simp] theorem State.setPort_orders (s : State) (p : Nat) (x : Port) : (s.setPort p x).orders = s.orders := rfl
@[simp] theorem State.setPort_rings (s : State) (p : Nat) (x : Port) : (s.setPort p x).rings = s.rings := rfl
@[simp] theorem State.setPort_net (s : State) (p : Nat) (x : Port) : (s.setPort p x).net = s.net := rfl
@[simp] theorem State.setPort_mtch (s : State) (p : Nat) (x : Port) : (s.setPort p x).mtch = s.mtch := rfl
@[simp] theorem State.setPort_aml (s : State) (p : Nat) (x : Port) : (s.setPort p x).aml = s.aml := rfl
@[simp] theorem State.setPort_host (s : State) (p : Nat) (x : Port) : (s.setPort p x).host = s.host := rfl
@[simp] theorem State.setPort_dev (s : State) (p : Nat) (x : Port) : (s.setPort p x).dev = s.dev := rfl
@[simp] theorem State.setPort_eptCache (s : State) (p : Nat) (x : Port) : (s.setPort p x).eptCache = s.eptCache := rfl
@[simp] theorem State.setPort_lanes (s : State) (p : Nat) (x : Port) : (s.setPort p x).lanes = s.lanes := rfl
@[simp] theorem State.setPort_lims (s : State) (p : Nat) (x : Port) : (s.setPort p x).lims = s.lims := rfl
@[simp] theorem State.setPort_limCache (s : State) (p : Nat) (x : Port) : (s.setPort p x).limCache = s.limCache := rfl
@[simp] theorem State.setPort_limRefill (s : State) (p : Nat) (x : Port) : (s.setPort p x).limRefill = s.limRefill := rfl
@[simp] theorem State.setPort_route (s : State) (p : Nat) (x : Port) : (s.setPort p x).route = s.route := rfl
@[simp] theorem State.setPort_halfLatch (s : State) (p : Nat) (x : Port) : (s.setPort p x).halfLatch = s.halfLatch := rfl
@[simp] theorem State.setPort_recLatch (s : State) (p : Nat) (x : Port) : (s.setPort p x).recLatch = s.recLatch := rfl
@[simp] theorem State.setPort_sbAddr (s : State) (p : Nat) (x : Port) : (s.setPort p x).sbAddr = s.sbAddr := rfl
@[simp] theorem State.setPort_variant (s : State) (p : Nat) (x : Port) : (s.setPort p x).variant = s.variant := rfl
@[simp] theorem State.setPort_out (s : State) (p : Nat) (x : Port) : (s.setPort p x).out = s.out := rfl
@[simp] theorem State.setPort_free (s : State) (p : Nat) (x : Port) : (s.setPort p x).free = s.free := rfl
@[simp] theorem State.setPort_pending (s : State) (p : Nat) (x : Port) : (s.setPort p x).pending = s.pending := rfl

/-! ### setLane -/

@[simp] theorem State.setLane_regs (s : State) (p l : Nat) (x : Lane) : (s.setLane p l x).regs = s.regs := rfl
@[simp] theorem State.setLane_mem (s : State) (p l : Nat) (x : Lane) : (s.setLane p l x).mem = s.mem := rfl
@[simp] theorem State.setLane_poison (s : State) (p l : Nat) (x : Lane) : (s.setLane p l x).poison = s.poison := rfl
@[simp] theorem State.setLane_inv (s : State) (p l : Nat) (x : Lane) : (s.setLane p l x).inv = s.inv := rfl
@[simp] theorem State.setLane_tgf (s : State) (p l : Nat) (x : Lane) : (s.setLane p l x).tgf = s.tgf := rfl
@[simp] theorem State.setLane_fifos (s : State) (p l : Nat) (x : Lane) : (s.setLane p l x).fifos = s.fifos := rfl
@[simp] theorem State.setLane_threads (s : State) (p l : Nat) (x : Lane) : (s.setLane p l x).threads = s.threads := rfl
@[simp] theorem State.setLane_engines (s : State) (p l : Nat) (x : Lane) : (s.setLane p l x).engines = s.engines := rfl
@[simp] theorem State.setLane_clusters (s : State) (p l : Nat) (x : Lane) : (s.setLane p l x).clusters = s.clusters := rfl
@[simp] theorem State.setLane_ops (s : State) (p l : Nat) (x : Lane) : (s.setLane p l x).ops = s.ops := rfl
@[simp] theorem State.setLane_orders (s : State) (p l : Nat) (x : Lane) : (s.setLane p l x).orders = s.orders := rfl
@[simp] theorem State.setLane_rings (s : State) (p l : Nat) (x : Lane) : (s.setLane p l x).rings = s.rings := rfl
@[simp] theorem State.setLane_net (s : State) (p l : Nat) (x : Lane) : (s.setLane p l x).net = s.net := rfl
@[simp] theorem State.setLane_mtch (s : State) (p l : Nat) (x : Lane) : (s.setLane p l x).mtch = s.mtch := rfl
@[simp] theorem State.setLane_aml (s : State) (p l : Nat) (x : Lane) : (s.setLane p l x).aml = s.aml := rfl
@[simp] theorem State.setLane_host (s : State) (p l : Nat) (x : Lane) : (s.setLane p l x).host = s.host := rfl
@[simp] theorem State.setLane_dev (s : State) (p l : Nat) (x : Lane) : (s.setLane p l x).dev = s.dev := rfl
@[simp] theorem State.setLane_eptCache (s : State) (p l : Nat) (x : Lane) : (s.setLane p l x).eptCache = s.eptCache := rfl
@[simp] theorem State.setLane_ports (s : State) (p l : Nat) (x : Lane) : (s.setLane p l x).ports = s.ports := rfl
@[simp] theorem State.setLane_lims (s : State) (p l : Nat) (x : Lane) : (s.setLane p l x).lims = s.lims := rfl
@[simp] theorem State.setLane_limCache (s : State) (p l : Nat) (x : Lane) : (s.setLane p l x).limCache = s.limCache := rfl
@[simp] theorem State.setLane_limRefill (s : State) (p l : Nat) (x : Lane) : (s.setLane p l x).limRefill = s.limRefill := rfl
@[simp] theorem State.setLane_route (s : State) (p l : Nat) (x : Lane) : (s.setLane p l x).route = s.route := rfl
@[simp] theorem State.setLane_halfLatch (s : State) (p l : Nat) (x : Lane) : (s.setLane p l x).halfLatch = s.halfLatch := rfl
@[simp] theorem State.setLane_recLatch (s : State) (p l : Nat) (x : Lane) : (s.setLane p l x).recLatch = s.recLatch := rfl
@[simp] theorem State.setLane_sbAddr (s : State) (p l : Nat) (x : Lane) : (s.setLane p l x).sbAddr = s.sbAddr := rfl
@[simp] theorem State.setLane_variant (s : State) (p l : Nat) (x : Lane) : (s.setLane p l x).variant = s.variant := rfl
@[simp] theorem State.setLane_out (s : State) (p l : Nat) (x : Lane) : (s.setLane p l x).out = s.out := rfl
@[simp] theorem State.setLane_free (s : State) (p l : Nat) (x : Lane) : (s.setLane p l x).free = s.free := rfl
@[simp] theorem State.setLane_pending (s : State) (p l : Nat) (x : Lane) : (s.setLane p l x).pending = s.pending := rfl

/-! ### setLim -/

@[simp] theorem State.setLim_regs (s : State) (k : Nat) (x : Lim) : (s.setLim k x).regs = s.regs := rfl
@[simp] theorem State.setLim_mem (s : State) (k : Nat) (x : Lim) : (s.setLim k x).mem = s.mem := rfl
@[simp] theorem State.setLim_poison (s : State) (k : Nat) (x : Lim) : (s.setLim k x).poison = s.poison := rfl
@[simp] theorem State.setLim_inv (s : State) (k : Nat) (x : Lim) : (s.setLim k x).inv = s.inv := rfl
@[simp] theorem State.setLim_tgf (s : State) (k : Nat) (x : Lim) : (s.setLim k x).tgf = s.tgf := rfl
@[simp] theorem State.setLim_fifos (s : State) (k : Nat) (x : Lim) : (s.setLim k x).fifos = s.fifos := rfl
@[simp] theorem State.setLim_threads (s : State) (k : Nat) (x : Lim) : (s.setLim k x).threads = s.threads := rfl
@[simp] theorem State.setLim_engines (s : State) (k : Nat) (x : Lim) : (s.setLim k x).engines = s.engines := rfl
@[simp] theorem State.setLim_clusters (s : State) (k : Nat) (x : Lim) : (s.setLim k x).clusters = s.clusters := rfl
@[simp] theorem State.setLim_ops (s : State) (k : Nat) (x : Lim) : (s.setLim k x).ops = s.ops := rfl
@[simp] theorem State.setLim_orders (s : State) (k : Nat) (x : Lim) : (s.setLim k x).orders = s.orders := rfl
@[simp] theorem State.setLim_rings (s : State) (k : Nat) (x : Lim) : (s.setLim k x).rings = s.rings := rfl
@[simp] theorem State.setLim_net (s : State) (k : Nat) (x : Lim) : (s.setLim k x).net = s.net := rfl
@[simp] theorem State.setLim_mtch (s : State) (k : Nat) (x : Lim) : (s.setLim k x).mtch = s.mtch := rfl
@[simp] theorem State.setLim_aml (s : State) (k : Nat) (x : Lim) : (s.setLim k x).aml = s.aml := rfl
@[simp] theorem State.setLim_host (s : State) (k : Nat) (x : Lim) : (s.setLim k x).host = s.host := rfl
@[simp] theorem State.setLim_dev (s : State) (k : Nat) (x : Lim) : (s.setLim k x).dev = s.dev := rfl
@[simp] theorem State.setLim_eptCache (s : State) (k : Nat) (x : Lim) : (s.setLim k x).eptCache = s.eptCache := rfl
@[simp] theorem State.setLim_ports (s : State) (k : Nat) (x : Lim) : (s.setLim k x).ports = s.ports := rfl
@[simp] theorem State.setLim_lanes (s : State) (k : Nat) (x : Lim) : (s.setLim k x).lanes = s.lanes := rfl
@[simp] theorem State.setLim_limCache (s : State) (k : Nat) (x : Lim) : (s.setLim k x).limCache = s.limCache := rfl
@[simp] theorem State.setLim_limRefill (s : State) (k : Nat) (x : Lim) : (s.setLim k x).limRefill = s.limRefill := rfl
@[simp] theorem State.setLim_route (s : State) (k : Nat) (x : Lim) : (s.setLim k x).route = s.route := rfl
@[simp] theorem State.setLim_halfLatch (s : State) (k : Nat) (x : Lim) : (s.setLim k x).halfLatch = s.halfLatch := rfl
@[simp] theorem State.setLim_recLatch (s : State) (k : Nat) (x : Lim) : (s.setLim k x).recLatch = s.recLatch := rfl
@[simp] theorem State.setLim_sbAddr (s : State) (k : Nat) (x : Lim) : (s.setLim k x).sbAddr = s.sbAddr := rfl
@[simp] theorem State.setLim_variant (s : State) (k : Nat) (x : Lim) : (s.setLim k x).variant = s.variant := rfl
@[simp] theorem State.setLim_out (s : State) (k : Nat) (x : Lim) : (s.setLim k x).out = s.out := rfl
@[simp] theorem State.setLim_free (s : State) (k : Nat) (x : Lim) : (s.setLim k x).free = s.free := rfl
@[simp] theorem State.setLim_pending (s : State) (k : Nat) (x : Lim) : (s.setLim k x).pending = s.pending := rfl

/-! ### setFunc -/

@[simp] theorem State.setFunc_regs (s : State) (f : Nat) (x : Func) : (s.setFunc f x).regs = s.regs := rfl
@[simp] theorem State.setFunc_mem (s : State) (f : Nat) (x : Func) : (s.setFunc f x).mem = s.mem := rfl
@[simp] theorem State.setFunc_poison (s : State) (f : Nat) (x : Func) : (s.setFunc f x).poison = s.poison := rfl
@[simp] theorem State.setFunc_inv (s : State) (f : Nat) (x : Func) : (s.setFunc f x).inv = s.inv := rfl
@[simp] theorem State.setFunc_tgf (s : State) (f : Nat) (x : Func) : (s.setFunc f x).tgf = s.tgf := rfl
@[simp] theorem State.setFunc_fifos (s : State) (f : Nat) (x : Func) : (s.setFunc f x).fifos = s.fifos := rfl
@[simp] theorem State.setFunc_threads (s : State) (f : Nat) (x : Func) : (s.setFunc f x).threads = s.threads := rfl
@[simp] theorem State.setFunc_engines (s : State) (f : Nat) (x : Func) : (s.setFunc f x).engines = s.engines := rfl
@[simp] theorem State.setFunc_clusters (s : State) (f : Nat) (x : Func) : (s.setFunc f x).clusters = s.clusters := rfl
@[simp] theorem State.setFunc_ops (s : State) (f : Nat) (x : Func) : (s.setFunc f x).ops = s.ops := rfl
@[simp] theorem State.setFunc_orders (s : State) (f : Nat) (x : Func) : (s.setFunc f x).orders = s.orders := rfl
@[simp] theorem State.setFunc_rings (s : State) (f : Nat) (x : Func) : (s.setFunc f x).rings = s.rings := rfl
@[simp] theorem State.setFunc_net (s : State) (f : Nat) (x : Func) : (s.setFunc f x).net = s.net := rfl
@[simp] theorem State.setFunc_mtch (s : State) (f : Nat) (x : Func) : (s.setFunc f x).mtch = s.mtch := rfl
@[simp] theorem State.setFunc_aml (s : State) (f : Nat) (x : Func) : (s.setFunc f x).aml = s.aml := rfl
@[simp] theorem State.setFunc_dev (s : State) (f : Nat) (x : Func) : (s.setFunc f x).dev = s.dev := rfl
@[simp] theorem State.setFunc_eptCache (s : State) (f : Nat) (x : Func) : (s.setFunc f x).eptCache = s.eptCache := rfl
@[simp] theorem State.setFunc_ports (s : State) (f : Nat) (x : Func) : (s.setFunc f x).ports = s.ports := rfl
@[simp] theorem State.setFunc_lanes (s : State) (f : Nat) (x : Func) : (s.setFunc f x).lanes = s.lanes := rfl
@[simp] theorem State.setFunc_lims (s : State) (f : Nat) (x : Func) : (s.setFunc f x).lims = s.lims := rfl
@[simp] theorem State.setFunc_limCache (s : State) (f : Nat) (x : Func) : (s.setFunc f x).limCache = s.limCache := rfl
@[simp] theorem State.setFunc_limRefill (s : State) (f : Nat) (x : Func) : (s.setFunc f x).limRefill = s.limRefill := rfl
@[simp] theorem State.setFunc_route (s : State) (f : Nat) (x : Func) : (s.setFunc f x).route = s.route := rfl
@[simp] theorem State.setFunc_halfLatch (s : State) (f : Nat) (x : Func) : (s.setFunc f x).halfLatch = s.halfLatch := rfl
@[simp] theorem State.setFunc_recLatch (s : State) (f : Nat) (x : Func) : (s.setFunc f x).recLatch = s.recLatch := rfl
@[simp] theorem State.setFunc_sbAddr (s : State) (f : Nat) (x : Func) : (s.setFunc f x).sbAddr = s.sbAddr := rfl
@[simp] theorem State.setFunc_variant (s : State) (f : Nat) (x : Func) : (s.setFunc f x).variant = s.variant := rfl
@[simp] theorem State.setFunc_out (s : State) (f : Nat) (x : Func) : (s.setFunc f x).out = s.out := rfl
@[simp] theorem State.setFunc_free (s : State) (f : Nat) (x : Func) : (s.setFunc f x).free = s.free := rfl
@[simp] theorem State.setFunc_pending (s : State) (f : Nat) (x : Func) : (s.setFunc f x).pending = s.pending := rfl

/-! ### setAtt -/

@[simp] theorem State.setAtt_regs (s : State) (a : Nat) (x : Attach) : (s.setAtt a x).regs = s.regs := rfl
@[simp] theorem State.setAtt_mem (s : State) (a : Nat) (x : Attach) : (s.setAtt a x).mem = s.mem := rfl
@[simp] theorem State.setAtt_poison (s : State) (a : Nat) (x : Attach) : (s.setAtt a x).poison = s.poison := rfl
@[simp] theorem State.setAtt_inv (s : State) (a : Nat) (x : Attach) : (s.setAtt a x).inv = s.inv := rfl
@[simp] theorem State.setAtt_tgf (s : State) (a : Nat) (x : Attach) : (s.setAtt a x).tgf = s.tgf := rfl
@[simp] theorem State.setAtt_fifos (s : State) (a : Nat) (x : Attach) : (s.setAtt a x).fifos = s.fifos := rfl
@[simp] theorem State.setAtt_threads (s : State) (a : Nat) (x : Attach) : (s.setAtt a x).threads = s.threads := rfl
@[simp] theorem State.setAtt_engines (s : State) (a : Nat) (x : Attach) : (s.setAtt a x).engines = s.engines := rfl
@[simp] theorem State.setAtt_clusters (s : State) (a : Nat) (x : Attach) : (s.setAtt a x).clusters = s.clusters := rfl
@[simp] theorem State.setAtt_ops (s : State) (a : Nat) (x : Attach) : (s.setAtt a x).ops = s.ops := rfl
@[simp] theorem State.setAtt_orders (s : State) (a : Nat) (x : Attach) : (s.setAtt a x).orders = s.orders := rfl
@[simp] theorem State.setAtt_rings (s : State) (a : Nat) (x : Attach) : (s.setAtt a x).rings = s.rings := rfl
@[simp] theorem State.setAtt_net (s : State) (a : Nat) (x : Attach) : (s.setAtt a x).net = s.net := rfl
@[simp] theorem State.setAtt_mtch (s : State) (a : Nat) (x : Attach) : (s.setAtt a x).mtch = s.mtch := rfl
@[simp] theorem State.setAtt_aml (s : State) (a : Nat) (x : Attach) : (s.setAtt a x).aml = s.aml := rfl
@[simp] theorem State.setAtt_dev (s : State) (a : Nat) (x : Attach) : (s.setAtt a x).dev = s.dev := rfl
@[simp] theorem State.setAtt_eptCache (s : State) (a : Nat) (x : Attach) : (s.setAtt a x).eptCache = s.eptCache := rfl
@[simp] theorem State.setAtt_ports (s : State) (a : Nat) (x : Attach) : (s.setAtt a x).ports = s.ports := rfl
@[simp] theorem State.setAtt_lanes (s : State) (a : Nat) (x : Attach) : (s.setAtt a x).lanes = s.lanes := rfl
@[simp] theorem State.setAtt_lims (s : State) (a : Nat) (x : Attach) : (s.setAtt a x).lims = s.lims := rfl
@[simp] theorem State.setAtt_limCache (s : State) (a : Nat) (x : Attach) : (s.setAtt a x).limCache = s.limCache := rfl
@[simp] theorem State.setAtt_limRefill (s : State) (a : Nat) (x : Attach) : (s.setAtt a x).limRefill = s.limRefill := rfl
@[simp] theorem State.setAtt_route (s : State) (a : Nat) (x : Attach) : (s.setAtt a x).route = s.route := rfl
@[simp] theorem State.setAtt_halfLatch (s : State) (a : Nat) (x : Attach) : (s.setAtt a x).halfLatch = s.halfLatch := rfl
@[simp] theorem State.setAtt_recLatch (s : State) (a : Nat) (x : Attach) : (s.setAtt a x).recLatch = s.recLatch := rfl
@[simp] theorem State.setAtt_sbAddr (s : State) (a : Nat) (x : Attach) : (s.setAtt a x).sbAddr = s.sbAddr := rfl
@[simp] theorem State.setAtt_variant (s : State) (a : Nat) (x : Attach) : (s.setAtt a x).variant = s.variant := rfl
@[simp] theorem State.setAtt_out (s : State) (a : Nat) (x : Attach) : (s.setAtt a x).out = s.out := rfl
@[simp] theorem State.setAtt_free (s : State) (a : Nat) (x : Attach) : (s.setAtt a x).free = s.free := rfl
@[simp] theorem State.setAtt_pending (s : State) (a : Nat) (x : Attach) : (s.setAtt a x).pending = s.pending := rfl

/-! ### setInv -/

@[simp] theorem State.setInv_regs (s : State) (f : Invar → Invar) : (s.setInv f).regs = s.regs := rfl
@[simp] theorem State.setInv_mem (s : State) (f : Invar → Invar) : (s.setInv f).mem = s.mem := rfl
@[simp] theorem State.setInv_poison (s : State) (f : Invar → Invar) : (s.setInv f).poison = s.poison := rfl
@[simp] theorem State.setInv_tgf (s : State) (f : Invar → Invar) : (s.setInv f).tgf = s.tgf := rfl
@[simp] theorem State.setInv_fifos (s : State) (f : Invar → Invar) : (s.setInv f).fifos = s.fifos := rfl
@[simp] theorem State.setInv_threads (s : State) (f : Invar → Invar) : (s.setInv f).threads = s.threads := rfl
@[simp] theorem State.setInv_engines (s : State) (f : Invar → Invar) : (s.setInv f).engines = s.engines := rfl
@[simp] theorem State.setInv_clusters (s : State) (f : Invar → Invar) : (s.setInv f).clusters = s.clusters := rfl
@[simp] theorem State.setInv_ops (s : State) (f : Invar → Invar) : (s.setInv f).ops = s.ops := rfl
@[simp] theorem State.setInv_orders (s : State) (f : Invar → Invar) : (s.setInv f).orders = s.orders := rfl
@[simp] theorem State.setInv_rings (s : State) (f : Invar → Invar) : (s.setInv f).rings = s.rings := rfl
@[simp] theorem State.setInv_net (s : State) (f : Invar → Invar) : (s.setInv f).net = s.net := rfl
@[simp] theorem State.setInv_mtch (s : State) (f : Invar → Invar) : (s.setInv f).mtch = s.mtch := rfl
@[simp] theorem State.setInv_aml (s : State) (f : Invar → Invar) : (s.setInv f).aml = s.aml := rfl
@[simp] theorem State.setInv_host (s : State) (f : Invar → Invar) : (s.setInv f).host = s.host := rfl
@[simp] theorem State.setInv_dev (s : State) (f : Invar → Invar) : (s.setInv f).dev = s.dev := rfl
@[simp] theorem State.setInv_eptCache (s : State) (f : Invar → Invar) : (s.setInv f).eptCache = s.eptCache := rfl
@[simp] theorem State.setInv_ports (s : State) (f : Invar → Invar) : (s.setInv f).ports = s.ports := rfl
@[simp] theorem State.setInv_lanes (s : State) (f : Invar → Invar) : (s.setInv f).lanes = s.lanes := rfl
@[simp] theorem State.setInv_lims (s : State) (f : Invar → Invar) : (s.setInv f).lims = s.lims := rfl
@[simp] theorem State.setInv_limCache (s : State) (f : Invar → Invar) : (s.setInv f).limCache = s.limCache := rfl
@[simp] theorem State.setInv_limRefill (s : State) (f : Invar → Invar) : (s.setInv f).limRefill = s.limRefill := rfl
@[simp] theorem State.setInv_route (s : State) (f : Invar → Invar) : (s.setInv f).route = s.route := rfl
@[simp] theorem State.setInv_halfLatch (s : State) (f : Invar → Invar) : (s.setInv f).halfLatch = s.halfLatch := rfl
@[simp] theorem State.setInv_recLatch (s : State) (f : Invar → Invar) : (s.setInv f).recLatch = s.recLatch := rfl
@[simp] theorem State.setInv_sbAddr (s : State) (f : Invar → Invar) : (s.setInv f).sbAddr = s.sbAddr := rfl
@[simp] theorem State.setInv_variant (s : State) (f : Invar → Invar) : (s.setInv f).variant = s.variant := rfl
@[simp] theorem State.setInv_out (s : State) (f : Invar → Invar) : (s.setInv f).out = s.out := rfl
@[simp] theorem State.setInv_free (s : State) (f : Invar → Invar) : (s.setInv f).free = s.free := rfl
@[simp] theorem State.setInv_pending (s : State) (f : Invar → Invar) : (s.setInv f).pending = s.pending := rfl

/-! ### setQueue -/

@[simp] theorem State.setQueue_regs (s : State) (q : Nat) (x : Queue) : (s.setQueue q x).regs = s.regs := rfl
@[simp] theorem State.setQueue_mem (s : State) (q : Nat) (x : Queue) : (s.setQueue q x).mem = s.mem := rfl
@[simp] theorem State.setQueue_poison (s : State) (q : Nat) (x : Queue) : (s.setQueue q x).poison = s.poison := rfl
@[simp] theorem State.setQueue_inv (s : State) (q : Nat) (x : Queue) : (s.setQueue q x).inv = s.inv := rfl
@[simp] theorem State.setQueue_tgf (s : State) (q : Nat) (x : Queue) : (s.setQueue q x).tgf = s.tgf := rfl
@[simp] theorem State.setQueue_fifos (s : State) (q : Nat) (x : Queue) : (s.setQueue q x).fifos = s.fifos := rfl
@[simp] theorem State.setQueue_threads (s : State) (q : Nat) (x : Queue) : (s.setQueue q x).threads = s.threads := rfl
@[simp] theorem State.setQueue_engines (s : State) (q : Nat) (x : Queue) : (s.setQueue q x).engines = s.engines := rfl
@[simp] theorem State.setQueue_clusters (s : State) (q : Nat) (x : Queue) : (s.setQueue q x).clusters = s.clusters := rfl
@[simp] theorem State.setQueue_ops (s : State) (q : Nat) (x : Queue) : (s.setQueue q x).ops = s.ops := rfl
@[simp] theorem State.setQueue_orders (s : State) (q : Nat) (x : Queue) : (s.setQueue q x).orders = s.orders := rfl
@[simp] theorem State.setQueue_net (s : State) (q : Nat) (x : Queue) : (s.setQueue q x).net = s.net := rfl
@[simp] theorem State.setQueue_mtch (s : State) (q : Nat) (x : Queue) : (s.setQueue q x).mtch = s.mtch := rfl
@[simp] theorem State.setQueue_aml (s : State) (q : Nat) (x : Queue) : (s.setQueue q x).aml = s.aml := rfl
@[simp] theorem State.setQueue_host (s : State) (q : Nat) (x : Queue) : (s.setQueue q x).host = s.host := rfl
@[simp] theorem State.setQueue_dev (s : State) (q : Nat) (x : Queue) : (s.setQueue q x).dev = s.dev := rfl
@[simp] theorem State.setQueue_eptCache (s : State) (q : Nat) (x : Queue) : (s.setQueue q x).eptCache = s.eptCache := rfl
@[simp] theorem State.setQueue_ports (s : State) (q : Nat) (x : Queue) : (s.setQueue q x).ports = s.ports := rfl
@[simp] theorem State.setQueue_lanes (s : State) (q : Nat) (x : Queue) : (s.setQueue q x).lanes = s.lanes := rfl
@[simp] theorem State.setQueue_lims (s : State) (q : Nat) (x : Queue) : (s.setQueue q x).lims = s.lims := rfl
@[simp] theorem State.setQueue_limCache (s : State) (q : Nat) (x : Queue) : (s.setQueue q x).limCache = s.limCache := rfl
@[simp] theorem State.setQueue_limRefill (s : State) (q : Nat) (x : Queue) : (s.setQueue q x).limRefill = s.limRefill := rfl
@[simp] theorem State.setQueue_route (s : State) (q : Nat) (x : Queue) : (s.setQueue q x).route = s.route := rfl
@[simp] theorem State.setQueue_halfLatch (s : State) (q : Nat) (x : Queue) : (s.setQueue q x).halfLatch = s.halfLatch := rfl
@[simp] theorem State.setQueue_recLatch (s : State) (q : Nat) (x : Queue) : (s.setQueue q x).recLatch = s.recLatch := rfl
@[simp] theorem State.setQueue_sbAddr (s : State) (q : Nat) (x : Queue) : (s.setQueue q x).sbAddr = s.sbAddr := rfl
@[simp] theorem State.setQueue_variant (s : State) (q : Nat) (x : Queue) : (s.setQueue q x).variant = s.variant := rfl
@[simp] theorem State.setQueue_out (s : State) (q : Nat) (x : Queue) : (s.setQueue q x).out = s.out := rfl
@[simp] theorem State.setQueue_free (s : State) (q : Nat) (x : Queue) : (s.setQueue q x).free = s.free := rfl
@[simp] theorem State.setQueue_pending (s : State) (q : Nat) (x : Queue) : (s.setQueue q x).pending = s.pending := rfl

/-! ### setCq -/

@[simp] theorem State.setCq_regs (s : State) (q : Nat) (x : Cq) : (s.setCq q x).regs = s.regs := rfl
@[simp] theorem State.setCq_mem (s : State) (q : Nat) (x : Cq) : (s.setCq q x).mem = s.mem := rfl
@[simp] theorem State.setCq_poison (s : State) (q : Nat) (x : Cq) : (s.setCq q x).poison = s.poison := rfl
@[simp] theorem State.setCq_inv (s : State) (q : Nat) (x : Cq) : (s.setCq q x).inv = s.inv := rfl
@[simp] theorem State.setCq_tgf (s : State) (q : Nat) (x : Cq) : (s.setCq q x).tgf = s.tgf := rfl
@[simp] theorem State.setCq_fifos (s : State) (q : Nat) (x : Cq) : (s.setCq q x).fifos = s.fifos := rfl
@[simp] theorem State.setCq_threads (s : State) (q : Nat) (x : Cq) : (s.setCq q x).threads = s.threads := rfl
@[simp] theorem State.setCq_engines (s : State) (q : Nat) (x : Cq) : (s.setCq q x).engines = s.engines := rfl
@[simp] theorem State.setCq_clusters (s : State) (q : Nat) (x : Cq) : (s.setCq q x).clusters = s.clusters := rfl
@[simp] theorem State.setCq_ops (s : State) (q : Nat) (x : Cq) : (s.setCq q x).ops = s.ops := rfl
@[simp] theorem State.setCq_orders (s : State) (q : Nat) (x : Cq) : (s.setCq q x).orders = s.orders := rfl
@[simp] theorem State.setCq_net (s : State) (q : Nat) (x : Cq) : (s.setCq q x).net = s.net := rfl
@[simp] theorem State.setCq_mtch (s : State) (q : Nat) (x : Cq) : (s.setCq q x).mtch = s.mtch := rfl
@[simp] theorem State.setCq_aml (s : State) (q : Nat) (x : Cq) : (s.setCq q x).aml = s.aml := rfl
@[simp] theorem State.setCq_host (s : State) (q : Nat) (x : Cq) : (s.setCq q x).host = s.host := rfl
@[simp] theorem State.setCq_dev (s : State) (q : Nat) (x : Cq) : (s.setCq q x).dev = s.dev := rfl
@[simp] theorem State.setCq_eptCache (s : State) (q : Nat) (x : Cq) : (s.setCq q x).eptCache = s.eptCache := rfl
@[simp] theorem State.setCq_ports (s : State) (q : Nat) (x : Cq) : (s.setCq q x).ports = s.ports := rfl
@[simp] theorem State.setCq_lanes (s : State) (q : Nat) (x : Cq) : (s.setCq q x).lanes = s.lanes := rfl
@[simp] theorem State.setCq_lims (s : State) (q : Nat) (x : Cq) : (s.setCq q x).lims = s.lims := rfl
@[simp] theorem State.setCq_limCache (s : State) (q : Nat) (x : Cq) : (s.setCq q x).limCache = s.limCache := rfl
@[simp] theorem State.setCq_limRefill (s : State) (q : Nat) (x : Cq) : (s.setCq q x).limRefill = s.limRefill := rfl
@[simp] theorem State.setCq_route (s : State) (q : Nat) (x : Cq) : (s.setCq q x).route = s.route := rfl
@[simp] theorem State.setCq_halfLatch (s : State) (q : Nat) (x : Cq) : (s.setCq q x).halfLatch = s.halfLatch := rfl
@[simp] theorem State.setCq_recLatch (s : State) (q : Nat) (x : Cq) : (s.setCq q x).recLatch = s.recLatch := rfl
@[simp] theorem State.setCq_sbAddr (s : State) (q : Nat) (x : Cq) : (s.setCq q x).sbAddr = s.sbAddr := rfl
@[simp] theorem State.setCq_variant (s : State) (q : Nat) (x : Cq) : (s.setCq q x).variant = s.variant := rfl
@[simp] theorem State.setCq_out (s : State) (q : Nat) (x : Cq) : (s.setCq q x).out = s.out := rfl
@[simp] theorem State.setCq_free (s : State) (q : Nat) (x : Cq) : (s.setCq q x).free = s.free := rfl
@[simp] theorem State.setCq_pending (s : State) (q : Nat) (x : Cq) : (s.setCq q x).pending = s.pending := rfl

/-! ### setHalf -/

@[simp] theorem State.setHalf_regs (s : State) (r : Nat) (x : Half) : (s.setHalf r x).regs = s.regs := rfl
@[simp] theorem State.setHalf_mem (s : State) (r : Nat) (x : Half) : (s.setHalf r x).mem = s.mem := rfl
@[simp] theorem State.setHalf_poison (s : State) (r : Nat) (x : Half) : (s.setHalf r x).poison = s.poison := rfl
@[simp] theorem State.setHalf_inv (s : State) (r : Nat) (x : Half) : (s.setHalf r x).inv = s.inv := rfl
@[simp] theorem State.setHalf_tgf (s : State) (r : Nat) (x : Half) : (s.setHalf r x).tgf = s.tgf := rfl
@[simp] theorem State.setHalf_fifos (s : State) (r : Nat) (x : Half) : (s.setHalf r x).fifos = s.fifos := rfl
@[simp] theorem State.setHalf_threads (s : State) (r : Nat) (x : Half) : (s.setHalf r x).threads = s.threads := rfl
@[simp] theorem State.setHalf_engines (s : State) (r : Nat) (x : Half) : (s.setHalf r x).engines = s.engines := rfl
@[simp] theorem State.setHalf_clusters (s : State) (r : Nat) (x : Half) : (s.setHalf r x).clusters = s.clusters := rfl
@[simp] theorem State.setHalf_ops (s : State) (r : Nat) (x : Half) : (s.setHalf r x).ops = s.ops := rfl
@[simp] theorem State.setHalf_orders (s : State) (r : Nat) (x : Half) : (s.setHalf r x).orders = s.orders := rfl
@[simp] theorem State.setHalf_rings (s : State) (r : Nat) (x : Half) : (s.setHalf r x).rings = s.rings := rfl
@[simp] theorem State.setHalf_mtch (s : State) (r : Nat) (x : Half) : (s.setHalf r x).mtch = s.mtch := rfl
@[simp] theorem State.setHalf_aml (s : State) (r : Nat) (x : Half) : (s.setHalf r x).aml = s.aml := rfl
@[simp] theorem State.setHalf_host (s : State) (r : Nat) (x : Half) : (s.setHalf r x).host = s.host := rfl
@[simp] theorem State.setHalf_dev (s : State) (r : Nat) (x : Half) : (s.setHalf r x).dev = s.dev := rfl
@[simp] theorem State.setHalf_eptCache (s : State) (r : Nat) (x : Half) : (s.setHalf r x).eptCache = s.eptCache := rfl
@[simp] theorem State.setHalf_ports (s : State) (r : Nat) (x : Half) : (s.setHalf r x).ports = s.ports := rfl
@[simp] theorem State.setHalf_lanes (s : State) (r : Nat) (x : Half) : (s.setHalf r x).lanes = s.lanes := rfl
@[simp] theorem State.setHalf_lims (s : State) (r : Nat) (x : Half) : (s.setHalf r x).lims = s.lims := rfl
@[simp] theorem State.setHalf_limCache (s : State) (r : Nat) (x : Half) : (s.setHalf r x).limCache = s.limCache := rfl
@[simp] theorem State.setHalf_limRefill (s : State) (r : Nat) (x : Half) : (s.setHalf r x).limRefill = s.limRefill := rfl
@[simp] theorem State.setHalf_route (s : State) (r : Nat) (x : Half) : (s.setHalf r x).route = s.route := rfl
@[simp] theorem State.setHalf_halfLatch (s : State) (r : Nat) (x : Half) : (s.setHalf r x).halfLatch = s.halfLatch := rfl
@[simp] theorem State.setHalf_recLatch (s : State) (r : Nat) (x : Half) : (s.setHalf r x).recLatch = s.recLatch := rfl
@[simp] theorem State.setHalf_sbAddr (s : State) (r : Nat) (x : Half) : (s.setHalf r x).sbAddr = s.sbAddr := rfl
@[simp] theorem State.setHalf_variant (s : State) (r : Nat) (x : Half) : (s.setHalf r x).variant = s.variant := rfl
@[simp] theorem State.setHalf_out (s : State) (r : Nat) (x : Half) : (s.setHalf r x).out = s.out := rfl
@[simp] theorem State.setHalf_free (s : State) (r : Nat) (x : Half) : (s.setHalf r x).free = s.free := rfl
@[simp] theorem State.setHalf_pending (s : State) (r : Nat) (x : Half) : (s.setHalf r x).pending = s.pending := rfl

/-! ### setColl -/

@[simp] theorem State.setColl_regs (s : State) (i : Nat) (x : Option Coll) : (s.setColl i x).regs = s.regs := rfl
@[simp] theorem State.setColl_mem (s : State) (i : Nat) (x : Option Coll) : (s.setColl i x).mem = s.mem := rfl
@[simp] theorem State.setColl_poison (s : State) (i : Nat) (x : Option Coll) : (s.setColl i x).poison = s.poison := rfl
@[simp] theorem State.setColl_inv (s : State) (i : Nat) (x : Option Coll) : (s.setColl i x).inv = s.inv := rfl
@[simp] theorem State.setColl_tgf (s : State) (i : Nat) (x : Option Coll) : (s.setColl i x).tgf = s.tgf := rfl
@[simp] theorem State.setColl_fifos (s : State) (i : Nat) (x : Option Coll) : (s.setColl i x).fifos = s.fifos := rfl
@[simp] theorem State.setColl_threads (s : State) (i : Nat) (x : Option Coll) : (s.setColl i x).threads = s.threads := rfl
@[simp] theorem State.setColl_engines (s : State) (i : Nat) (x : Option Coll) : (s.setColl i x).engines = s.engines := rfl
@[simp] theorem State.setColl_clusters (s : State) (i : Nat) (x : Option Coll) : (s.setColl i x).clusters = s.clusters := rfl
@[simp] theorem State.setColl_ops (s : State) (i : Nat) (x : Option Coll) : (s.setColl i x).ops = s.ops := rfl
@[simp] theorem State.setColl_orders (s : State) (i : Nat) (x : Option Coll) : (s.setColl i x).orders = s.orders := rfl
@[simp] theorem State.setColl_rings (s : State) (i : Nat) (x : Option Coll) : (s.setColl i x).rings = s.rings := rfl
@[simp] theorem State.setColl_mtch (s : State) (i : Nat) (x : Option Coll) : (s.setColl i x).mtch = s.mtch := rfl
@[simp] theorem State.setColl_aml (s : State) (i : Nat) (x : Option Coll) : (s.setColl i x).aml = s.aml := rfl
@[simp] theorem State.setColl_host (s : State) (i : Nat) (x : Option Coll) : (s.setColl i x).host = s.host := rfl
@[simp] theorem State.setColl_dev (s : State) (i : Nat) (x : Option Coll) : (s.setColl i x).dev = s.dev := rfl
@[simp] theorem State.setColl_eptCache (s : State) (i : Nat) (x : Option Coll) : (s.setColl i x).eptCache = s.eptCache := rfl
@[simp] theorem State.setColl_ports (s : State) (i : Nat) (x : Option Coll) : (s.setColl i x).ports = s.ports := rfl
@[simp] theorem State.setColl_lanes (s : State) (i : Nat) (x : Option Coll) : (s.setColl i x).lanes = s.lanes := rfl
@[simp] theorem State.setColl_lims (s : State) (i : Nat) (x : Option Coll) : (s.setColl i x).lims = s.lims := rfl
@[simp] theorem State.setColl_limCache (s : State) (i : Nat) (x : Option Coll) : (s.setColl i x).limCache = s.limCache := rfl
@[simp] theorem State.setColl_limRefill (s : State) (i : Nat) (x : Option Coll) : (s.setColl i x).limRefill = s.limRefill := rfl
@[simp] theorem State.setColl_route (s : State) (i : Nat) (x : Option Coll) : (s.setColl i x).route = s.route := rfl
@[simp] theorem State.setColl_halfLatch (s : State) (i : Nat) (x : Option Coll) : (s.setColl i x).halfLatch = s.halfLatch := rfl
@[simp] theorem State.setColl_recLatch (s : State) (i : Nat) (x : Option Coll) : (s.setColl i x).recLatch = s.recLatch := rfl
@[simp] theorem State.setColl_sbAddr (s : State) (i : Nat) (x : Option Coll) : (s.setColl i x).sbAddr = s.sbAddr := rfl
@[simp] theorem State.setColl_variant (s : State) (i : Nat) (x : Option Coll) : (s.setColl i x).variant = s.variant := rfl
@[simp] theorem State.setColl_out (s : State) (i : Nat) (x : Option Coll) : (s.setColl i x).out = s.out := rfl
@[simp] theorem State.setColl_free (s : State) (i : Nat) (x : Option Coll) : (s.setColl i x).free = s.free := rfl
@[simp] theorem State.setColl_pending (s : State) (i : Nat) (x : Option Coll) : (s.setColl i x).pending = s.pending := rfl

/-! ### setMctx -/

@[simp] theorem State.setMctx_regs (s : State) (i : Nat) (x : MatchCtx) : (s.setMctx i x).regs = s.regs := rfl
@[simp] theorem State.setMctx_mem (s : State) (i : Nat) (x : MatchCtx) : (s.setMctx i x).mem = s.mem := rfl
@[simp] theorem State.setMctx_poison (s : State) (i : Nat) (x : MatchCtx) : (s.setMctx i x).poison = s.poison := rfl
@[simp] theorem State.setMctx_inv (s : State) (i : Nat) (x : MatchCtx) : (s.setMctx i x).inv = s.inv := rfl
@[simp] theorem State.setMctx_tgf (s : State) (i : Nat) (x : MatchCtx) : (s.setMctx i x).tgf = s.tgf := rfl
@[simp] theorem State.setMctx_fifos (s : State) (i : Nat) (x : MatchCtx) : (s.setMctx i x).fifos = s.fifos := rfl
@[simp] theorem State.setMctx_threads (s : State) (i : Nat) (x : MatchCtx) : (s.setMctx i x).threads = s.threads := rfl
@[simp] theorem State.setMctx_engines (s : State) (i : Nat) (x : MatchCtx) : (s.setMctx i x).engines = s.engines := rfl
@[simp] theorem State.setMctx_clusters (s : State) (i : Nat) (x : MatchCtx) : (s.setMctx i x).clusters = s.clusters := rfl
@[simp] theorem State.setMctx_ops (s : State) (i : Nat) (x : MatchCtx) : (s.setMctx i x).ops = s.ops := rfl
@[simp] theorem State.setMctx_orders (s : State) (i : Nat) (x : MatchCtx) : (s.setMctx i x).orders = s.orders := rfl
@[simp] theorem State.setMctx_rings (s : State) (i : Nat) (x : MatchCtx) : (s.setMctx i x).rings = s.rings := rfl
@[simp] theorem State.setMctx_net (s : State) (i : Nat) (x : MatchCtx) : (s.setMctx i x).net = s.net := rfl
@[simp] theorem State.setMctx_aml (s : State) (i : Nat) (x : MatchCtx) : (s.setMctx i x).aml = s.aml := rfl
@[simp] theorem State.setMctx_host (s : State) (i : Nat) (x : MatchCtx) : (s.setMctx i x).host = s.host := rfl
@[simp] theorem State.setMctx_dev (s : State) (i : Nat) (x : MatchCtx) : (s.setMctx i x).dev = s.dev := rfl
@[simp] theorem State.setMctx_eptCache (s : State) (i : Nat) (x : MatchCtx) : (s.setMctx i x).eptCache = s.eptCache := rfl
@[simp] theorem State.setMctx_ports (s : State) (i : Nat) (x : MatchCtx) : (s.setMctx i x).ports = s.ports := rfl
@[simp] theorem State.setMctx_lanes (s : State) (i : Nat) (x : MatchCtx) : (s.setMctx i x).lanes = s.lanes := rfl
@[simp] theorem State.setMctx_lims (s : State) (i : Nat) (x : MatchCtx) : (s.setMctx i x).lims = s.lims := rfl
@[simp] theorem State.setMctx_limCache (s : State) (i : Nat) (x : MatchCtx) : (s.setMctx i x).limCache = s.limCache := rfl
@[simp] theorem State.setMctx_limRefill (s : State) (i : Nat) (x : MatchCtx) : (s.setMctx i x).limRefill = s.limRefill := rfl
@[simp] theorem State.setMctx_route (s : State) (i : Nat) (x : MatchCtx) : (s.setMctx i x).route = s.route := rfl
@[simp] theorem State.setMctx_halfLatch (s : State) (i : Nat) (x : MatchCtx) : (s.setMctx i x).halfLatch = s.halfLatch := rfl
@[simp] theorem State.setMctx_recLatch (s : State) (i : Nat) (x : MatchCtx) : (s.setMctx i x).recLatch = s.recLatch := rfl
@[simp] theorem State.setMctx_sbAddr (s : State) (i : Nat) (x : MatchCtx) : (s.setMctx i x).sbAddr = s.sbAddr := rfl
@[simp] theorem State.setMctx_variant (s : State) (i : Nat) (x : MatchCtx) : (s.setMctx i x).variant = s.variant := rfl
@[simp] theorem State.setMctx_out (s : State) (i : Nat) (x : MatchCtx) : (s.setMctx i x).out = s.out := rfl
@[simp] theorem State.setMctx_free (s : State) (i : Nat) (x : MatchCtx) : (s.setMctx i x).free = s.free := rfl
@[simp] theorem State.setMctx_pending (s : State) (i : Nat) (x : MatchCtx) : (s.setMctx i x).pending = s.pending := rfl

/-! ### setAslot -/

@[simp] theorem State.setAslot_regs (s : State) (k : Nat) (x : AmlSlot) : (s.setAslot k x).regs = s.regs := rfl
@[simp] theorem State.setAslot_mem (s : State) (k : Nat) (x : AmlSlot) : (s.setAslot k x).mem = s.mem := rfl
@[simp] theorem State.setAslot_poison (s : State) (k : Nat) (x : AmlSlot) : (s.setAslot k x).poison = s.poison := rfl
@[simp] theorem State.setAslot_inv (s : State) (k : Nat) (x : AmlSlot) : (s.setAslot k x).inv = s.inv := rfl
@[simp] theorem State.setAslot_tgf (s : State) (k : Nat) (x : AmlSlot) : (s.setAslot k x).tgf = s.tgf := rfl
@[simp] theorem State.setAslot_fifos (s : State) (k : Nat) (x : AmlSlot) : (s.setAslot k x).fifos = s.fifos := rfl
@[simp] theorem State.setAslot_threads (s : State) (k : Nat) (x : AmlSlot) : (s.setAslot k x).threads = s.threads := rfl
@[simp] theorem State.setAslot_engines (s : State) (k : Nat) (x : AmlSlot) : (s.setAslot k x).engines = s.engines := rfl
@[simp] theorem State.setAslot_clusters (s : State) (k : Nat) (x : AmlSlot) : (s.setAslot k x).clusters = s.clusters := rfl
@[simp] theorem State.setAslot_ops (s : State) (k : Nat) (x : AmlSlot) : (s.setAslot k x).ops = s.ops := rfl
@[simp] theorem State.setAslot_orders (s : State) (k : Nat) (x : AmlSlot) : (s.setAslot k x).orders = s.orders := rfl
@[simp] theorem State.setAslot_rings (s : State) (k : Nat) (x : AmlSlot) : (s.setAslot k x).rings = s.rings := rfl
@[simp] theorem State.setAslot_net (s : State) (k : Nat) (x : AmlSlot) : (s.setAslot k x).net = s.net := rfl
@[simp] theorem State.setAslot_mtch (s : State) (k : Nat) (x : AmlSlot) : (s.setAslot k x).mtch = s.mtch := rfl
@[simp] theorem State.setAslot_host (s : State) (k : Nat) (x : AmlSlot) : (s.setAslot k x).host = s.host := rfl
@[simp] theorem State.setAslot_dev (s : State) (k : Nat) (x : AmlSlot) : (s.setAslot k x).dev = s.dev := rfl
@[simp] theorem State.setAslot_eptCache (s : State) (k : Nat) (x : AmlSlot) : (s.setAslot k x).eptCache = s.eptCache := rfl
@[simp] theorem State.setAslot_ports (s : State) (k : Nat) (x : AmlSlot) : (s.setAslot k x).ports = s.ports := rfl
@[simp] theorem State.setAslot_lanes (s : State) (k : Nat) (x : AmlSlot) : (s.setAslot k x).lanes = s.lanes := rfl
@[simp] theorem State.setAslot_lims (s : State) (k : Nat) (x : AmlSlot) : (s.setAslot k x).lims = s.lims := rfl
@[simp] theorem State.setAslot_limCache (s : State) (k : Nat) (x : AmlSlot) : (s.setAslot k x).limCache = s.limCache := rfl
@[simp] theorem State.setAslot_limRefill (s : State) (k : Nat) (x : AmlSlot) : (s.setAslot k x).limRefill = s.limRefill := rfl
@[simp] theorem State.setAslot_route (s : State) (k : Nat) (x : AmlSlot) : (s.setAslot k x).route = s.route := rfl
@[simp] theorem State.setAslot_halfLatch (s : State) (k : Nat) (x : AmlSlot) : (s.setAslot k x).halfLatch = s.halfLatch := rfl
@[simp] theorem State.setAslot_recLatch (s : State) (k : Nat) (x : AmlSlot) : (s.setAslot k x).recLatch = s.recLatch := rfl
@[simp] theorem State.setAslot_sbAddr (s : State) (k : Nat) (x : AmlSlot) : (s.setAslot k x).sbAddr = s.sbAddr := rfl
@[simp] theorem State.setAslot_variant (s : State) (k : Nat) (x : AmlSlot) : (s.setAslot k x).variant = s.variant := rfl
@[simp] theorem State.setAslot_out (s : State) (k : Nat) (x : AmlSlot) : (s.setAslot k x).out = s.out := rfl
@[simp] theorem State.setAslot_free (s : State) (k : Nat) (x : AmlSlot) : (s.setAslot k x).free = s.free := rfl
@[simp] theorem State.setAslot_pending (s : State) (k : Nat) (x : AmlSlot) : (s.setAslot k x).pending = s.pending := rfl

/-! ### setHrec -/

@[simp] theorem State.setHrec_regs (s : State) (i : Nat) (x : ErrRec) : (s.setHrec i x).regs = s.regs := rfl
@[simp] theorem State.setHrec_mem (s : State) (i : Nat) (x : ErrRec) : (s.setHrec i x).mem = s.mem := rfl
@[simp] theorem State.setHrec_poison (s : State) (i : Nat) (x : ErrRec) : (s.setHrec i x).poison = s.poison := rfl
@[simp] theorem State.setHrec_inv (s : State) (i : Nat) (x : ErrRec) : (s.setHrec i x).inv = s.inv := rfl
@[simp] theorem State.setHrec_fifos (s : State) (i : Nat) (x : ErrRec) : (s.setHrec i x).fifos = s.fifos := rfl
@[simp] theorem State.setHrec_threads (s : State) (i : Nat) (x : ErrRec) : (s.setHrec i x).threads = s.threads := rfl
@[simp] theorem State.setHrec_engines (s : State) (i : Nat) (x : ErrRec) : (s.setHrec i x).engines = s.engines := rfl
@[simp] theorem State.setHrec_clusters (s : State) (i : Nat) (x : ErrRec) : (s.setHrec i x).clusters = s.clusters := rfl
@[simp] theorem State.setHrec_ops (s : State) (i : Nat) (x : ErrRec) : (s.setHrec i x).ops = s.ops := rfl
@[simp] theorem State.setHrec_orders (s : State) (i : Nat) (x : ErrRec) : (s.setHrec i x).orders = s.orders := rfl
@[simp] theorem State.setHrec_rings (s : State) (i : Nat) (x : ErrRec) : (s.setHrec i x).rings = s.rings := rfl
@[simp] theorem State.setHrec_net (s : State) (i : Nat) (x : ErrRec) : (s.setHrec i x).net = s.net := rfl
@[simp] theorem State.setHrec_mtch (s : State) (i : Nat) (x : ErrRec) : (s.setHrec i x).mtch = s.mtch := rfl
@[simp] theorem State.setHrec_aml (s : State) (i : Nat) (x : ErrRec) : (s.setHrec i x).aml = s.aml := rfl
@[simp] theorem State.setHrec_host (s : State) (i : Nat) (x : ErrRec) : (s.setHrec i x).host = s.host := rfl
@[simp] theorem State.setHrec_dev (s : State) (i : Nat) (x : ErrRec) : (s.setHrec i x).dev = s.dev := rfl
@[simp] theorem State.setHrec_eptCache (s : State) (i : Nat) (x : ErrRec) : (s.setHrec i x).eptCache = s.eptCache := rfl
@[simp] theorem State.setHrec_ports (s : State) (i : Nat) (x : ErrRec) : (s.setHrec i x).ports = s.ports := rfl
@[simp] theorem State.setHrec_lanes (s : State) (i : Nat) (x : ErrRec) : (s.setHrec i x).lanes = s.lanes := rfl
@[simp] theorem State.setHrec_lims (s : State) (i : Nat) (x : ErrRec) : (s.setHrec i x).lims = s.lims := rfl
@[simp] theorem State.setHrec_limCache (s : State) (i : Nat) (x : ErrRec) : (s.setHrec i x).limCache = s.limCache := rfl
@[simp] theorem State.setHrec_limRefill (s : State) (i : Nat) (x : ErrRec) : (s.setHrec i x).limRefill = s.limRefill := rfl
@[simp] theorem State.setHrec_route (s : State) (i : Nat) (x : ErrRec) : (s.setHrec i x).route = s.route := rfl
@[simp] theorem State.setHrec_halfLatch (s : State) (i : Nat) (x : ErrRec) : (s.setHrec i x).halfLatch = s.halfLatch := rfl
@[simp] theorem State.setHrec_recLatch (s : State) (i : Nat) (x : ErrRec) : (s.setHrec i x).recLatch = s.recLatch := rfl
@[simp] theorem State.setHrec_sbAddr (s : State) (i : Nat) (x : ErrRec) : (s.setHrec i x).sbAddr = s.sbAddr := rfl
@[simp] theorem State.setHrec_variant (s : State) (i : Nat) (x : ErrRec) : (s.setHrec i x).variant = s.variant := rfl
@[simp] theorem State.setHrec_out (s : State) (i : Nat) (x : ErrRec) : (s.setHrec i x).out = s.out := rfl
@[simp] theorem State.setHrec_free (s : State) (i : Nat) (x : ErrRec) : (s.setHrec i x).free = s.free := rfl
@[simp] theorem State.setHrec_pending (s : State) (i : Nat) (x : ErrRec) : (s.setHrec i x).pending = s.pending := rfl

/-! ### setLife -/

@[simp] theorem State.setLife_regs (s : State) (l : Life) : (s.setLife l).regs = s.regs := rfl
@[simp] theorem State.setLife_mem (s : State) (l : Life) : (s.setLife l).mem = s.mem := rfl
@[simp] theorem State.setLife_poison (s : State) (l : Life) : (s.setLife l).poison = s.poison := rfl
@[simp] theorem State.setLife_inv (s : State) (l : Life) : (s.setLife l).inv = s.inv := rfl
@[simp] theorem State.setLife_tgf (s : State) (l : Life) : (s.setLife l).tgf = s.tgf := rfl
@[simp] theorem State.setLife_fifos (s : State) (l : Life) : (s.setLife l).fifos = s.fifos := rfl
@[simp] theorem State.setLife_threads (s : State) (l : Life) : (s.setLife l).threads = s.threads := rfl
@[simp] theorem State.setLife_engines (s : State) (l : Life) : (s.setLife l).engines = s.engines := rfl
@[simp] theorem State.setLife_clusters (s : State) (l : Life) : (s.setLife l).clusters = s.clusters := rfl
@[simp] theorem State.setLife_ops (s : State) (l : Life) : (s.setLife l).ops = s.ops := rfl
@[simp] theorem State.setLife_orders (s : State) (l : Life) : (s.setLife l).orders = s.orders := rfl
@[simp] theorem State.setLife_rings (s : State) (l : Life) : (s.setLife l).rings = s.rings := rfl
@[simp] theorem State.setLife_net (s : State) (l : Life) : (s.setLife l).net = s.net := rfl
@[simp] theorem State.setLife_mtch (s : State) (l : Life) : (s.setLife l).mtch = s.mtch := rfl
@[simp] theorem State.setLife_aml (s : State) (l : Life) : (s.setLife l).aml = s.aml := rfl
@[simp] theorem State.setLife_host (s : State) (l : Life) : (s.setLife l).host = s.host := rfl
@[simp] theorem State.setLife_eptCache (s : State) (l : Life) : (s.setLife l).eptCache = s.eptCache := rfl
@[simp] theorem State.setLife_ports (s : State) (l : Life) : (s.setLife l).ports = s.ports := rfl
@[simp] theorem State.setLife_lanes (s : State) (l : Life) : (s.setLife l).lanes = s.lanes := rfl
@[simp] theorem State.setLife_lims (s : State) (l : Life) : (s.setLife l).lims = s.lims := rfl
@[simp] theorem State.setLife_limCache (s : State) (l : Life) : (s.setLife l).limCache = s.limCache := rfl
@[simp] theorem State.setLife_limRefill (s : State) (l : Life) : (s.setLife l).limRefill = s.limRefill := rfl
@[simp] theorem State.setLife_route (s : State) (l : Life) : (s.setLife l).route = s.route := rfl
@[simp] theorem State.setLife_halfLatch (s : State) (l : Life) : (s.setLife l).halfLatch = s.halfLatch := rfl
@[simp] theorem State.setLife_recLatch (s : State) (l : Life) : (s.setLife l).recLatch = s.recLatch := rfl
@[simp] theorem State.setLife_sbAddr (s : State) (l : Life) : (s.setLife l).sbAddr = s.sbAddr := rfl
@[simp] theorem State.setLife_variant (s : State) (l : Life) : (s.setLife l).variant = s.variant := rfl
@[simp] theorem State.setLife_out (s : State) (l : Life) : (s.setLife l).out = s.out := rfl
@[simp] theorem State.setLife_free (s : State) (l : Life) : (s.setLife l).free = s.free := rfl
@[simp] theorem State.setLife_pending (s : State) (l : Life) : (s.setLife l).pending = s.pending := rfl

/-! ### setMon -/

@[simp] theorem State.setMon_regs (s : State) (m : Monitors) : (s.setMon m).regs = s.regs := rfl
@[simp] theorem State.setMon_mem (s : State) (m : Monitors) : (s.setMon m).mem = s.mem := rfl
@[simp] theorem State.setMon_poison (s : State) (m : Monitors) : (s.setMon m).poison = s.poison := rfl
@[simp] theorem State.setMon_inv (s : State) (m : Monitors) : (s.setMon m).inv = s.inv := rfl
@[simp] theorem State.setMon_tgf (s : State) (m : Monitors) : (s.setMon m).tgf = s.tgf := rfl
@[simp] theorem State.setMon_fifos (s : State) (m : Monitors) : (s.setMon m).fifos = s.fifos := rfl
@[simp] theorem State.setMon_threads (s : State) (m : Monitors) : (s.setMon m).threads = s.threads := rfl
@[simp] theorem State.setMon_engines (s : State) (m : Monitors) : (s.setMon m).engines = s.engines := rfl
@[simp] theorem State.setMon_clusters (s : State) (m : Monitors) : (s.setMon m).clusters = s.clusters := rfl
@[simp] theorem State.setMon_ops (s : State) (m : Monitors) : (s.setMon m).ops = s.ops := rfl
@[simp] theorem State.setMon_orders (s : State) (m : Monitors) : (s.setMon m).orders = s.orders := rfl
@[simp] theorem State.setMon_rings (s : State) (m : Monitors) : (s.setMon m).rings = s.rings := rfl
@[simp] theorem State.setMon_net (s : State) (m : Monitors) : (s.setMon m).net = s.net := rfl
@[simp] theorem State.setMon_mtch (s : State) (m : Monitors) : (s.setMon m).mtch = s.mtch := rfl
@[simp] theorem State.setMon_aml (s : State) (m : Monitors) : (s.setMon m).aml = s.aml := rfl
@[simp] theorem State.setMon_host (s : State) (m : Monitors) : (s.setMon m).host = s.host := rfl
@[simp] theorem State.setMon_eptCache (s : State) (m : Monitors) : (s.setMon m).eptCache = s.eptCache := rfl
@[simp] theorem State.setMon_ports (s : State) (m : Monitors) : (s.setMon m).ports = s.ports := rfl
@[simp] theorem State.setMon_lanes (s : State) (m : Monitors) : (s.setMon m).lanes = s.lanes := rfl
@[simp] theorem State.setMon_lims (s : State) (m : Monitors) : (s.setMon m).lims = s.lims := rfl
@[simp] theorem State.setMon_limCache (s : State) (m : Monitors) : (s.setMon m).limCache = s.limCache := rfl
@[simp] theorem State.setMon_limRefill (s : State) (m : Monitors) : (s.setMon m).limRefill = s.limRefill := rfl
@[simp] theorem State.setMon_route (s : State) (m : Monitors) : (s.setMon m).route = s.route := rfl
@[simp] theorem State.setMon_halfLatch (s : State) (m : Monitors) : (s.setMon m).halfLatch = s.halfLatch := rfl
@[simp] theorem State.setMon_recLatch (s : State) (m : Monitors) : (s.setMon m).recLatch = s.recLatch := rfl
@[simp] theorem State.setMon_sbAddr (s : State) (m : Monitors) : (s.setMon m).sbAddr = s.sbAddr := rfl
@[simp] theorem State.setMon_variant (s : State) (m : Monitors) : (s.setMon m).variant = s.variant := rfl
@[simp] theorem State.setMon_out (s : State) (m : Monitors) : (s.setMon m).out = s.out := rfl
@[simp] theorem State.setMon_free (s : State) (m : Monitors) : (s.setMon m).free = s.free := rfl
@[simp] theorem State.setMon_pending (s : State) (m : Monitors) : (s.setMon m).pending = s.pending := rfl

/-! ### wr -/

@[simp] theorem State.wr_mem (s : State) (r : RegDesc) (ix : List Nat) (v : Word) : (s.wr r ix v).mem = s.mem := rfl
@[simp] theorem State.wr_poison (s : State) (r : RegDesc) (ix : List Nat) (v : Word) : (s.wr r ix v).poison = s.poison := rfl
@[simp] theorem State.wr_inv (s : State) (r : RegDesc) (ix : List Nat) (v : Word) : (s.wr r ix v).inv = s.inv := rfl
@[simp] theorem State.wr_tgf (s : State) (r : RegDesc) (ix : List Nat) (v : Word) : (s.wr r ix v).tgf = s.tgf := rfl
@[simp] theorem State.wr_fifos (s : State) (r : RegDesc) (ix : List Nat) (v : Word) : (s.wr r ix v).fifos = s.fifos := rfl
@[simp] theorem State.wr_threads (s : State) (r : RegDesc) (ix : List Nat) (v : Word) : (s.wr r ix v).threads = s.threads := rfl
@[simp] theorem State.wr_engines (s : State) (r : RegDesc) (ix : List Nat) (v : Word) : (s.wr r ix v).engines = s.engines := rfl
@[simp] theorem State.wr_clusters (s : State) (r : RegDesc) (ix : List Nat) (v : Word) : (s.wr r ix v).clusters = s.clusters := rfl
@[simp] theorem State.wr_ops (s : State) (r : RegDesc) (ix : List Nat) (v : Word) : (s.wr r ix v).ops = s.ops := rfl
@[simp] theorem State.wr_orders (s : State) (r : RegDesc) (ix : List Nat) (v : Word) : (s.wr r ix v).orders = s.orders := rfl
@[simp] theorem State.wr_rings (s : State) (r : RegDesc) (ix : List Nat) (v : Word) : (s.wr r ix v).rings = s.rings := rfl
@[simp] theorem State.wr_net (s : State) (r : RegDesc) (ix : List Nat) (v : Word) : (s.wr r ix v).net = s.net := rfl
@[simp] theorem State.wr_mtch (s : State) (r : RegDesc) (ix : List Nat) (v : Word) : (s.wr r ix v).mtch = s.mtch := rfl
@[simp] theorem State.wr_aml (s : State) (r : RegDesc) (ix : List Nat) (v : Word) : (s.wr r ix v).aml = s.aml := rfl
@[simp] theorem State.wr_host (s : State) (r : RegDesc) (ix : List Nat) (v : Word) : (s.wr r ix v).host = s.host := rfl
@[simp] theorem State.wr_dev (s : State) (r : RegDesc) (ix : List Nat) (v : Word) : (s.wr r ix v).dev = s.dev := rfl
@[simp] theorem State.wr_eptCache (s : State) (r : RegDesc) (ix : List Nat) (v : Word) : (s.wr r ix v).eptCache = s.eptCache := rfl
@[simp] theorem State.wr_ports (s : State) (r : RegDesc) (ix : List Nat) (v : Word) : (s.wr r ix v).ports = s.ports := rfl
@[simp] theorem State.wr_lanes (s : State) (r : RegDesc) (ix : List Nat) (v : Word) : (s.wr r ix v).lanes = s.lanes := rfl
@[simp] theorem State.wr_lims (s : State) (r : RegDesc) (ix : List Nat) (v : Word) : (s.wr r ix v).lims = s.lims := rfl
@[simp] theorem State.wr_limCache (s : State) (r : RegDesc) (ix : List Nat) (v : Word) : (s.wr r ix v).limCache = s.limCache := rfl
@[simp] theorem State.wr_limRefill (s : State) (r : RegDesc) (ix : List Nat) (v : Word) : (s.wr r ix v).limRefill = s.limRefill := rfl
@[simp] theorem State.wr_route (s : State) (r : RegDesc) (ix : List Nat) (v : Word) : (s.wr r ix v).route = s.route := rfl
@[simp] theorem State.wr_halfLatch (s : State) (r : RegDesc) (ix : List Nat) (v : Word) : (s.wr r ix v).halfLatch = s.halfLatch := rfl
@[simp] theorem State.wr_recLatch (s : State) (r : RegDesc) (ix : List Nat) (v : Word) : (s.wr r ix v).recLatch = s.recLatch := rfl
@[simp] theorem State.wr_sbAddr (s : State) (r : RegDesc) (ix : List Nat) (v : Word) : (s.wr r ix v).sbAddr = s.sbAddr := rfl
@[simp] theorem State.wr_variant (s : State) (r : RegDesc) (ix : List Nat) (v : Word) : (s.wr r ix v).variant = s.variant := rfl
@[simp] theorem State.wr_out (s : State) (r : RegDesc) (ix : List Nat) (v : Word) : (s.wr r ix v).out = s.out := rfl
@[simp] theorem State.wr_free (s : State) (r : RegDesc) (ix : List Nat) (v : Word) : (s.wr r ix v).free = s.free := rfl
@[simp] theorem State.wr_pending (s : State) (r : RegDesc) (ix : List Nat) (v : Word) : (s.wr r ix v).pending = s.pending := rfl

/-! ### emit -/

@[simp] theorem State.emit_regs (s : State) (e : Emit) : (s.emit e).regs = s.regs := rfl
@[simp] theorem State.emit_mem (s : State) (e : Emit) : (s.emit e).mem = s.mem := rfl
@[simp] theorem State.emit_poison (s : State) (e : Emit) : (s.emit e).poison = s.poison := rfl
@[simp] theorem State.emit_inv (s : State) (e : Emit) : (s.emit e).inv = s.inv := rfl
@[simp] theorem State.emit_tgf (s : State) (e : Emit) : (s.emit e).tgf = s.tgf := rfl
@[simp] theorem State.emit_fifos (s : State) (e : Emit) : (s.emit e).fifos = s.fifos := rfl
@[simp] theorem State.emit_threads (s : State) (e : Emit) : (s.emit e).threads = s.threads := rfl
@[simp] theorem State.emit_engines (s : State) (e : Emit) : (s.emit e).engines = s.engines := rfl
@[simp] theorem State.emit_clusters (s : State) (e : Emit) : (s.emit e).clusters = s.clusters := rfl
@[simp] theorem State.emit_ops (s : State) (e : Emit) : (s.emit e).ops = s.ops := rfl
@[simp] theorem State.emit_orders (s : State) (e : Emit) : (s.emit e).orders = s.orders := rfl
@[simp] theorem State.emit_rings (s : State) (e : Emit) : (s.emit e).rings = s.rings := rfl
@[simp] theorem State.emit_net (s : State) (e : Emit) : (s.emit e).net = s.net := rfl
@[simp] theorem State.emit_mtch (s : State) (e : Emit) : (s.emit e).mtch = s.mtch := rfl
@[simp] theorem State.emit_aml (s : State) (e : Emit) : (s.emit e).aml = s.aml := rfl
@[simp] theorem State.emit_host (s : State) (e : Emit) : (s.emit e).host = s.host := rfl
@[simp] theorem State.emit_dev (s : State) (e : Emit) : (s.emit e).dev = s.dev := rfl
@[simp] theorem State.emit_eptCache (s : State) (e : Emit) : (s.emit e).eptCache = s.eptCache := rfl
@[simp] theorem State.emit_ports (s : State) (e : Emit) : (s.emit e).ports = s.ports := rfl
@[simp] theorem State.emit_lanes (s : State) (e : Emit) : (s.emit e).lanes = s.lanes := rfl
@[simp] theorem State.emit_lims (s : State) (e : Emit) : (s.emit e).lims = s.lims := rfl
@[simp] theorem State.emit_limCache (s : State) (e : Emit) : (s.emit e).limCache = s.limCache := rfl
@[simp] theorem State.emit_limRefill (s : State) (e : Emit) : (s.emit e).limRefill = s.limRefill := rfl
@[simp] theorem State.emit_route (s : State) (e : Emit) : (s.emit e).route = s.route := rfl
@[simp] theorem State.emit_halfLatch (s : State) (e : Emit) : (s.emit e).halfLatch = s.halfLatch := rfl
@[simp] theorem State.emit_recLatch (s : State) (e : Emit) : (s.emit e).recLatch = s.recLatch := rfl
@[simp] theorem State.emit_sbAddr (s : State) (e : Emit) : (s.emit e).sbAddr = s.sbAddr := rfl
@[simp] theorem State.emit_variant (s : State) (e : Emit) : (s.emit e).variant = s.variant := rfl
@[simp] theorem State.emit_free (s : State) (e : Emit) : (s.emit e).free = s.free := rfl
@[simp] theorem State.emit_pending (s : State) (e : Emit) : (s.emit e).pending = s.pending := rfl

/-! ### emits -/

@[simp] theorem State.emits_regs (s : State) (es : List Emit) : (s.emits es).regs = s.regs := rfl
@[simp] theorem State.emits_mem (s : State) (es : List Emit) : (s.emits es).mem = s.mem := rfl
@[simp] theorem State.emits_poison (s : State) (es : List Emit) : (s.emits es).poison = s.poison := rfl
@[simp] theorem State.emits_inv (s : State) (es : List Emit) : (s.emits es).inv = s.inv := rfl
@[simp] theorem State.emits_tgf (s : State) (es : List Emit) : (s.emits es).tgf = s.tgf := rfl
@[simp] theorem State.emits_fifos (s : State) (es : List Emit) : (s.emits es).fifos = s.fifos := rfl
@[simp] theorem State.emits_threads (s : State) (es : List Emit) : (s.emits es).threads = s.threads := rfl
@[simp] theorem State.emits_engines (s : State) (es : List Emit) : (s.emits es).engines = s.engines := rfl
@[simp] theorem State.emits_clusters (s : State) (es : List Emit) : (s.emits es).clusters = s.clusters := rfl
@[simp] theorem State.emits_ops (s : State) (es : List Emit) : (s.emits es).ops = s.ops := rfl
@[simp] theorem State.emits_orders (s : State) (es : List Emit) : (s.emits es).orders = s.orders := rfl
@[simp] theorem State.emits_rings (s : State) (es : List Emit) : (s.emits es).rings = s.rings := rfl
@[simp] theorem State.emits_net (s : State) (es : List Emit) : (s.emits es).net = s.net := rfl
@[simp] theorem State.emits_mtch (s : State) (es : List Emit) : (s.emits es).mtch = s.mtch := rfl
@[simp] theorem State.emits_aml (s : State) (es : List Emit) : (s.emits es).aml = s.aml := rfl
@[simp] theorem State.emits_host (s : State) (es : List Emit) : (s.emits es).host = s.host := rfl
@[simp] theorem State.emits_dev (s : State) (es : List Emit) : (s.emits es).dev = s.dev := rfl
@[simp] theorem State.emits_eptCache (s : State) (es : List Emit) : (s.emits es).eptCache = s.eptCache := rfl
@[simp] theorem State.emits_ports (s : State) (es : List Emit) : (s.emits es).ports = s.ports := rfl
@[simp] theorem State.emits_lanes (s : State) (es : List Emit) : (s.emits es).lanes = s.lanes := rfl
@[simp] theorem State.emits_lims (s : State) (es : List Emit) : (s.emits es).lims = s.lims := rfl
@[simp] theorem State.emits_limCache (s : State) (es : List Emit) : (s.emits es).limCache = s.limCache := rfl
@[simp] theorem State.emits_limRefill (s : State) (es : List Emit) : (s.emits es).limRefill = s.limRefill := rfl
@[simp] theorem State.emits_route (s : State) (es : List Emit) : (s.emits es).route = s.route := rfl
@[simp] theorem State.emits_halfLatch (s : State) (es : List Emit) : (s.emits es).halfLatch = s.halfLatch := rfl
@[simp] theorem State.emits_recLatch (s : State) (es : List Emit) : (s.emits es).recLatch = s.recLatch := rfl
@[simp] theorem State.emits_sbAddr (s : State) (es : List Emit) : (s.emits es).sbAddr = s.sbAddr := rfl
@[simp] theorem State.emits_variant (s : State) (es : List Emit) : (s.emits es).variant = s.variant := rfl
@[simp] theorem State.emits_free (s : State) (es : List Emit) : (s.emits es).free = s.free := rfl
@[simp] theorem State.emits_pending (s : State) (es : List Emit) : (s.emits es).pending = s.pending := rfl

/-! ### mwrite -/

@[simp] theorem State.mwrite_regs (s : State) (k : Nat) (bs : List Byte) : (s.mwrite k bs).regs = s.regs := rfl
@[simp] theorem State.mwrite_inv (s : State) (k : Nat) (bs : List Byte) : (s.mwrite k bs).inv = s.inv := rfl
@[simp] theorem State.mwrite_tgf (s : State) (k : Nat) (bs : List Byte) : (s.mwrite k bs).tgf = s.tgf := rfl
@[simp] theorem State.mwrite_fifos (s : State) (k : Nat) (bs : List Byte) : (s.mwrite k bs).fifos = s.fifos := rfl
@[simp] theorem State.mwrite_threads (s : State) (k : Nat) (bs : List Byte) : (s.mwrite k bs).threads = s.threads := rfl
@[simp] theorem State.mwrite_engines (s : State) (k : Nat) (bs : List Byte) : (s.mwrite k bs).engines = s.engines := rfl
@[simp] theorem State.mwrite_clusters (s : State) (k : Nat) (bs : List Byte) : (s.mwrite k bs).clusters = s.clusters := rfl
@[simp] theorem State.mwrite_ops (s : State) (k : Nat) (bs : List Byte) : (s.mwrite k bs).ops = s.ops := rfl
@[simp] theorem State.mwrite_orders (s : State) (k : Nat) (bs : List Byte) : (s.mwrite k bs).orders = s.orders := rfl
@[simp] theorem State.mwrite_rings (s : State) (k : Nat) (bs : List Byte) : (s.mwrite k bs).rings = s.rings := rfl
@[simp] theorem State.mwrite_net (s : State) (k : Nat) (bs : List Byte) : (s.mwrite k bs).net = s.net := rfl
@[simp] theorem State.mwrite_mtch (s : State) (k : Nat) (bs : List Byte) : (s.mwrite k bs).mtch = s.mtch := rfl
@[simp] theorem State.mwrite_aml (s : State) (k : Nat) (bs : List Byte) : (s.mwrite k bs).aml = s.aml := rfl
@[simp] theorem State.mwrite_host (s : State) (k : Nat) (bs : List Byte) : (s.mwrite k bs).host = s.host := rfl
@[simp] theorem State.mwrite_dev (s : State) (k : Nat) (bs : List Byte) : (s.mwrite k bs).dev = s.dev := rfl
@[simp] theorem State.mwrite_eptCache (s : State) (k : Nat) (bs : List Byte) : (s.mwrite k bs).eptCache = s.eptCache := rfl
@[simp] theorem State.mwrite_ports (s : State) (k : Nat) (bs : List Byte) : (s.mwrite k bs).ports = s.ports := rfl
@[simp] theorem State.mwrite_lanes (s : State) (k : Nat) (bs : List Byte) : (s.mwrite k bs).lanes = s.lanes := rfl
@[simp] theorem State.mwrite_lims (s : State) (k : Nat) (bs : List Byte) : (s.mwrite k bs).lims = s.lims := rfl
@[simp] theorem State.mwrite_limCache (s : State) (k : Nat) (bs : List Byte) : (s.mwrite k bs).limCache = s.limCache := rfl
@[simp] theorem State.mwrite_limRefill (s : State) (k : Nat) (bs : List Byte) : (s.mwrite k bs).limRefill = s.limRefill := rfl
@[simp] theorem State.mwrite_route (s : State) (k : Nat) (bs : List Byte) : (s.mwrite k bs).route = s.route := rfl
@[simp] theorem State.mwrite_halfLatch (s : State) (k : Nat) (bs : List Byte) : (s.mwrite k bs).halfLatch = s.halfLatch := rfl
@[simp] theorem State.mwrite_recLatch (s : State) (k : Nat) (bs : List Byte) : (s.mwrite k bs).recLatch = s.recLatch := rfl
@[simp] theorem State.mwrite_sbAddr (s : State) (k : Nat) (bs : List Byte) : (s.mwrite k bs).sbAddr = s.sbAddr := rfl
@[simp] theorem State.mwrite_variant (s : State) (k : Nat) (bs : List Byte) : (s.mwrite k bs).variant = s.variant := rfl
@[simp] theorem State.mwrite_out (s : State) (k : Nat) (bs : List Byte) : (s.mwrite k bs).out = s.out := rfl
@[simp] theorem State.mwrite_free (s : State) (k : Nat) (bs : List Byte) : (s.mwrite k bs).free = s.free := rfl
@[simp] theorem State.mwrite_pending (s : State) (k : Nat) (bs : List Byte) : (s.mwrite k bs).pending = s.pending := rfl

/-! ### spoil -/

@[simp] theorem State.spoil_regs (s : State) (k : Nat) : (s.spoil k).regs = s.regs := rfl
@[simp] theorem State.spoil_mem (s : State) (k : Nat) : (s.spoil k).mem = s.mem := rfl
@[simp] theorem State.spoil_inv (s : State) (k : Nat) : (s.spoil k).inv = s.inv := rfl
@[simp] theorem State.spoil_tgf (s : State) (k : Nat) : (s.spoil k).tgf = s.tgf := rfl
@[simp] theorem State.spoil_fifos (s : State) (k : Nat) : (s.spoil k).fifos = s.fifos := rfl
@[simp] theorem State.spoil_threads (s : State) (k : Nat) : (s.spoil k).threads = s.threads := rfl
@[simp] theorem State.spoil_engines (s : State) (k : Nat) : (s.spoil k).engines = s.engines := rfl
@[simp] theorem State.spoil_clusters (s : State) (k : Nat) : (s.spoil k).clusters = s.clusters := rfl
@[simp] theorem State.spoil_ops (s : State) (k : Nat) : (s.spoil k).ops = s.ops := rfl
@[simp] theorem State.spoil_orders (s : State) (k : Nat) : (s.spoil k).orders = s.orders := rfl
@[simp] theorem State.spoil_rings (s : State) (k : Nat) : (s.spoil k).rings = s.rings := rfl
@[simp] theorem State.spoil_net (s : State) (k : Nat) : (s.spoil k).net = s.net := rfl
@[simp] theorem State.spoil_mtch (s : State) (k : Nat) : (s.spoil k).mtch = s.mtch := rfl
@[simp] theorem State.spoil_aml (s : State) (k : Nat) : (s.spoil k).aml = s.aml := rfl
@[simp] theorem State.spoil_host (s : State) (k : Nat) : (s.spoil k).host = s.host := rfl
@[simp] theorem State.spoil_dev (s : State) (k : Nat) : (s.spoil k).dev = s.dev := rfl
@[simp] theorem State.spoil_eptCache (s : State) (k : Nat) : (s.spoil k).eptCache = s.eptCache := rfl
@[simp] theorem State.spoil_ports (s : State) (k : Nat) : (s.spoil k).ports = s.ports := rfl
@[simp] theorem State.spoil_lanes (s : State) (k : Nat) : (s.spoil k).lanes = s.lanes := rfl
@[simp] theorem State.spoil_lims (s : State) (k : Nat) : (s.spoil k).lims = s.lims := rfl
@[simp] theorem State.spoil_limCache (s : State) (k : Nat) : (s.spoil k).limCache = s.limCache := rfl
@[simp] theorem State.spoil_limRefill (s : State) (k : Nat) : (s.spoil k).limRefill = s.limRefill := rfl
@[simp] theorem State.spoil_route (s : State) (k : Nat) : (s.spoil k).route = s.route := rfl
@[simp] theorem State.spoil_halfLatch (s : State) (k : Nat) : (s.spoil k).halfLatch = s.halfLatch := rfl
@[simp] theorem State.spoil_recLatch (s : State) (k : Nat) : (s.spoil k).recLatch = s.recLatch := rfl
@[simp] theorem State.spoil_sbAddr (s : State) (k : Nat) : (s.spoil k).sbAddr = s.sbAddr := rfl
@[simp] theorem State.spoil_variant (s : State) (k : Nat) : (s.spoil k).variant = s.variant := rfl
@[simp] theorem State.spoil_out (s : State) (k : Nat) : (s.spoil k).out = s.out := rfl
@[simp] theorem State.spoil_free (s : State) (k : Nat) : (s.spoil k).free = s.free := rfl
@[simp] theorem State.spoil_pending (s : State) (k : Nat) : (s.spoil k).pending = s.pending := rfl

/-! ### fw -/

@[simp] theorem State.fw_mem (s : State) (f : Fld) (ix : List Nat) (v : Nat) : (s.fw f ix v).mem = s.mem := rfl
@[simp] theorem State.fw_poison (s : State) (f : Fld) (ix : List Nat) (v : Nat) : (s.fw f ix v).poison = s.poison := rfl
@[simp] theorem State.fw_inv (s : State) (f : Fld) (ix : List Nat) (v : Nat) : (s.fw f ix v).inv = s.inv := rfl
@[simp] theorem State.fw_tgf (s : State) (f : Fld) (ix : List Nat) (v : Nat) : (s.fw f ix v).tgf = s.tgf := rfl
@[simp] theorem State.fw_fifos (s : State) (f : Fld) (ix : List Nat) (v : Nat) : (s.fw f ix v).fifos = s.fifos := rfl
@[simp] theorem State.fw_threads (s : State) (f : Fld) (ix : List Nat) (v : Nat) : (s.fw f ix v).threads = s.threads := rfl
@[simp] theorem State.fw_engines (s : State) (f : Fld) (ix : List Nat) (v : Nat) : (s.fw f ix v).engines = s.engines := rfl
@[simp] theorem State.fw_clusters (s : State) (f : Fld) (ix : List Nat) (v : Nat) : (s.fw f ix v).clusters = s.clusters := rfl
@[simp] theorem State.fw_ops (s : State) (f : Fld) (ix : List Nat) (v : Nat) : (s.fw f ix v).ops = s.ops := rfl
@[simp] theorem State.fw_orders (s : State) (f : Fld) (ix : List Nat) (v : Nat) : (s.fw f ix v).orders = s.orders := rfl
@[simp] theorem State.fw_rings (s : State) (f : Fld) (ix : List Nat) (v : Nat) : (s.fw f ix v).rings = s.rings := rfl
@[simp] theorem State.fw_net (s : State) (f : Fld) (ix : List Nat) (v : Nat) : (s.fw f ix v).net = s.net := rfl
@[simp] theorem State.fw_mtch (s : State) (f : Fld) (ix : List Nat) (v : Nat) : (s.fw f ix v).mtch = s.mtch := rfl
@[simp] theorem State.fw_aml (s : State) (f : Fld) (ix : List Nat) (v : Nat) : (s.fw f ix v).aml = s.aml := rfl
@[simp] theorem State.fw_host (s : State) (f : Fld) (ix : List Nat) (v : Nat) : (s.fw f ix v).host = s.host := rfl
@[simp] theorem State.fw_dev (s : State) (f : Fld) (ix : List Nat) (v : Nat) : (s.fw f ix v).dev = s.dev := rfl
@[simp] theorem State.fw_eptCache (s : State) (f : Fld) (ix : List Nat) (v : Nat) : (s.fw f ix v).eptCache = s.eptCache := rfl
@[simp] theorem State.fw_ports (s : State) (f : Fld) (ix : List Nat) (v : Nat) : (s.fw f ix v).ports = s.ports := rfl
@[simp] theorem State.fw_lanes (s : State) (f : Fld) (ix : List Nat) (v : Nat) : (s.fw f ix v).lanes = s.lanes := rfl
@[simp] theorem State.fw_lims (s : State) (f : Fld) (ix : List Nat) (v : Nat) : (s.fw f ix v).lims = s.lims := rfl
@[simp] theorem State.fw_limCache (s : State) (f : Fld) (ix : List Nat) (v : Nat) : (s.fw f ix v).limCache = s.limCache := rfl
@[simp] theorem State.fw_limRefill (s : State) (f : Fld) (ix : List Nat) (v : Nat) : (s.fw f ix v).limRefill = s.limRefill := rfl
@[simp] theorem State.fw_route (s : State) (f : Fld) (ix : List Nat) (v : Nat) : (s.fw f ix v).route = s.route := rfl
@[simp] theorem State.fw_halfLatch (s : State) (f : Fld) (ix : List Nat) (v : Nat) : (s.fw f ix v).halfLatch = s.halfLatch := rfl
@[simp] theorem State.fw_recLatch (s : State) (f : Fld) (ix : List Nat) (v : Nat) : (s.fw f ix v).recLatch = s.recLatch := rfl
@[simp] theorem State.fw_sbAddr (s : State) (f : Fld) (ix : List Nat) (v : Nat) : (s.fw f ix v).sbAddr = s.sbAddr := rfl
@[simp] theorem State.fw_variant (s : State) (f : Fld) (ix : List Nat) (v : Nat) : (s.fw f ix v).variant = s.variant := rfl
@[simp] theorem State.fw_out (s : State) (f : Fld) (ix : List Nat) (v : Nat) : (s.fw f ix v).out = s.out := rfl
@[simp] theorem State.fw_free (s : State) (f : Fld) (ix : List Nat) (v : Nat) : (s.fw f ix v).free = s.free := rfl
@[simp] theorem State.fw_pending (s : State) (f : Fld) (ix : List Nat) (v : Nat) : (s.fw f ix v).pending = s.pending := rfl

/-! ### fset -/

@[simp] theorem State.fset_mem (s : State) (f : Fld) (ix : List Nat) (b : Bool) : (s.fset f ix b).mem = s.mem := rfl
@[simp] theorem State.fset_poison (s : State) (f : Fld) (ix : List Nat) (b : Bool) : (s.fset f ix b).poison = s.poison := rfl
@[simp] theorem State.fset_inv (s : State) (f : Fld) (ix : List Nat) (b : Bool) : (s.fset f ix b).inv = s.inv := rfl
@[simp] theorem State.fset_tgf (s : State) (f : Fld) (ix : List Nat) (b : Bool) : (s.fset f ix b).tgf = s.tgf := rfl
@[simp] theorem State.fset_fifos (s : State) (f : Fld) (ix : List Nat) (b : Bool) : (s.fset f ix b).fifos = s.fifos := rfl
@[simp] theorem State.fset_threads (s : State) (f : Fld) (ix : List Nat) (b : Bool) : (s.fset f ix b).threads = s.threads := rfl
@[simp] theorem State.fset_engines (s : State) (f : Fld) (ix : List Nat) (b : Bool) : (s.fset f ix b).engines = s.engines := rfl
@[simp] theorem State.fset_clusters (s : State) (f : Fld) (ix : List Nat) (b : Bool) : (s.fset f ix b).clusters = s.clusters := rfl
@[simp] theorem State.fset_ops (s : State) (f : Fld) (ix : List Nat) (b : Bool) : (s.fset f ix b).ops = s.ops := rfl
@[simp] theorem State.fset_orders (s : State) (f : Fld) (ix : List Nat) (b : Bool) : (s.fset f ix b).orders = s.orders := rfl
@[simp] theorem State.fset_rings (s : State) (f : Fld) (ix : List Nat) (b : Bool) : (s.fset f ix b).rings = s.rings := rfl
@[simp] theorem State.fset_net (s : State) (f : Fld) (ix : List Nat) (b : Bool) : (s.fset f ix b).net = s.net := rfl
@[simp] theorem State.fset_mtch (s : State) (f : Fld) (ix : List Nat) (b : Bool) : (s.fset f ix b).mtch = s.mtch := rfl
@[simp] theorem State.fset_aml (s : State) (f : Fld) (ix : List Nat) (b : Bool) : (s.fset f ix b).aml = s.aml := rfl
@[simp] theorem State.fset_host (s : State) (f : Fld) (ix : List Nat) (b : Bool) : (s.fset f ix b).host = s.host := rfl
@[simp] theorem State.fset_dev (s : State) (f : Fld) (ix : List Nat) (b : Bool) : (s.fset f ix b).dev = s.dev := rfl
@[simp] theorem State.fset_eptCache (s : State) (f : Fld) (ix : List Nat) (b : Bool) : (s.fset f ix b).eptCache = s.eptCache := rfl
@[simp] theorem State.fset_ports (s : State) (f : Fld) (ix : List Nat) (b : Bool) : (s.fset f ix b).ports = s.ports := rfl
@[simp] theorem State.fset_lanes (s : State) (f : Fld) (ix : List Nat) (b : Bool) : (s.fset f ix b).lanes = s.lanes := rfl
@[simp] theorem State.fset_lims (s : State) (f : Fld) (ix : List Nat) (b : Bool) : (s.fset f ix b).lims = s.lims := rfl
@[simp] theorem State.fset_limCache (s : State) (f : Fld) (ix : List Nat) (b : Bool) : (s.fset f ix b).limCache = s.limCache := rfl
@[simp] theorem State.fset_limRefill (s : State) (f : Fld) (ix : List Nat) (b : Bool) : (s.fset f ix b).limRefill = s.limRefill := rfl
@[simp] theorem State.fset_route (s : State) (f : Fld) (ix : List Nat) (b : Bool) : (s.fset f ix b).route = s.route := rfl
@[simp] theorem State.fset_halfLatch (s : State) (f : Fld) (ix : List Nat) (b : Bool) : (s.fset f ix b).halfLatch = s.halfLatch := rfl
@[simp] theorem State.fset_recLatch (s : State) (f : Fld) (ix : List Nat) (b : Bool) : (s.fset f ix b).recLatch = s.recLatch := rfl
@[simp] theorem State.fset_sbAddr (s : State) (f : Fld) (ix : List Nat) (b : Bool) : (s.fset f ix b).sbAddr = s.sbAddr := rfl
@[simp] theorem State.fset_variant (s : State) (f : Fld) (ix : List Nat) (b : Bool) : (s.fset f ix b).variant = s.variant := rfl
@[simp] theorem State.fset_out (s : State) (f : Fld) (ix : List Nat) (b : Bool) : (s.fset f ix b).out = s.out := rfl
@[simp] theorem State.fset_free (s : State) (f : Fld) (ix : List Nat) (b : Bool) : (s.fset f ix b).free = s.free := rfl
@[simp] theorem State.fset_pending (s : State) (f : Fld) (ix : List Nat) (b : Bool) : (s.fset f ix b).pending = s.pending := rfl

/-! ### bump -/

@[simp] theorem State.bump_mem (s : State) (r : RegDesc) (ix : List Nat) (n : Nat) : (s.bump r ix n).mem = s.mem := rfl
@[simp] theorem State.bump_poison (s : State) (r : RegDesc) (ix : List Nat) (n : Nat) : (s.bump r ix n).poison = s.poison := rfl
@[simp] theorem State.bump_inv (s : State) (r : RegDesc) (ix : List Nat) (n : Nat) : (s.bump r ix n).inv = s.inv := rfl
@[simp] theorem State.bump_tgf (s : State) (r : RegDesc) (ix : List Nat) (n : Nat) : (s.bump r ix n).tgf = s.tgf := rfl
@[simp] theorem State.bump_fifos (s : State) (r : RegDesc) (ix : List Nat) (n : Nat) : (s.bump r ix n).fifos = s.fifos := rfl
@[simp] theorem State.bump_threads (s : State) (r : RegDesc) (ix : List Nat) (n : Nat) : (s.bump r ix n).threads = s.threads := rfl
@[simp] theorem State.bump_engines (s : State) (r : RegDesc) (ix : List Nat) (n : Nat) : (s.bump r ix n).engines = s.engines := rfl
@[simp] theorem State.bump_clusters (s : State) (r : RegDesc) (ix : List Nat) (n : Nat) : (s.bump r ix n).clusters = s.clusters := rfl
@[simp] theorem State.bump_ops (s : State) (r : RegDesc) (ix : List Nat) (n : Nat) : (s.bump r ix n).ops = s.ops := rfl
@[simp] theorem State.bump_orders (s : State) (r : RegDesc) (ix : List Nat) (n : Nat) : (s.bump r ix n).orders = s.orders := rfl
@[simp] theorem State.bump_rings (s : State) (r : RegDesc) (ix : List Nat) (n : Nat) : (s.bump r ix n).rings = s.rings := rfl
@[simp] theorem State.bump_net (s : State) (r : RegDesc) (ix : List Nat) (n : Nat) : (s.bump r ix n).net = s.net := rfl
@[simp] theorem State.bump_mtch (s : State) (r : RegDesc) (ix : List Nat) (n : Nat) : (s.bump r ix n).mtch = s.mtch := rfl
@[simp] theorem State.bump_aml (s : State) (r : RegDesc) (ix : List Nat) (n : Nat) : (s.bump r ix n).aml = s.aml := rfl
@[simp] theorem State.bump_host (s : State) (r : RegDesc) (ix : List Nat) (n : Nat) : (s.bump r ix n).host = s.host := rfl
@[simp] theorem State.bump_dev (s : State) (r : RegDesc) (ix : List Nat) (n : Nat) : (s.bump r ix n).dev = s.dev := rfl
@[simp] theorem State.bump_eptCache (s : State) (r : RegDesc) (ix : List Nat) (n : Nat) : (s.bump r ix n).eptCache = s.eptCache := rfl
@[simp] theorem State.bump_ports (s : State) (r : RegDesc) (ix : List Nat) (n : Nat) : (s.bump r ix n).ports = s.ports := rfl
@[simp] theorem State.bump_lanes (s : State) (r : RegDesc) (ix : List Nat) (n : Nat) : (s.bump r ix n).lanes = s.lanes := rfl
@[simp] theorem State.bump_lims (s : State) (r : RegDesc) (ix : List Nat) (n : Nat) : (s.bump r ix n).lims = s.lims := rfl
@[simp] theorem State.bump_limCache (s : State) (r : RegDesc) (ix : List Nat) (n : Nat) : (s.bump r ix n).limCache = s.limCache := rfl
@[simp] theorem State.bump_limRefill (s : State) (r : RegDesc) (ix : List Nat) (n : Nat) : (s.bump r ix n).limRefill = s.limRefill := rfl
@[simp] theorem State.bump_route (s : State) (r : RegDesc) (ix : List Nat) (n : Nat) : (s.bump r ix n).route = s.route := rfl
@[simp] theorem State.bump_halfLatch (s : State) (r : RegDesc) (ix : List Nat) (n : Nat) : (s.bump r ix n).halfLatch = s.halfLatch := rfl
@[simp] theorem State.bump_recLatch (s : State) (r : RegDesc) (ix : List Nat) (n : Nat) : (s.bump r ix n).recLatch = s.recLatch := rfl
@[simp] theorem State.bump_sbAddr (s : State) (r : RegDesc) (ix : List Nat) (n : Nat) : (s.bump r ix n).sbAddr = s.sbAddr := rfl
@[simp] theorem State.bump_variant (s : State) (r : RegDesc) (ix : List Nat) (n : Nat) : (s.bump r ix n).variant = s.variant := rfl
@[simp] theorem State.bump_out (s : State) (r : RegDesc) (ix : List Nat) (n : Nat) : (s.bump r ix n).out = s.out := rfl
@[simp] theorem State.bump_free (s : State) (r : RegDesc) (ix : List Nat) (n : Nat) : (s.bump r ix n).free = s.free := rfl
@[simp] theorem State.bump_pending (s : State) (r : RegDesc) (ix : List Nat) (n : Nat) : (s.bump r ix n).pending = s.pending := rfl

/-! ### setWait -/

@[simp] theorem State.setWait_regs (s : State) (t : Nat) (w : Wait) : (s.setWait t w).regs = s.regs := rfl
@[simp] theorem State.setWait_mem (s : State) (t : Nat) (w : Wait) : (s.setWait t w).mem = s.mem := rfl
@[simp] theorem State.setWait_poison (s : State) (t : Nat) (w : Wait) : (s.setWait t w).poison = s.poison := rfl
@[simp] theorem State.setWait_inv (s : State) (t : Nat) (w : Wait) : (s.setWait t w).inv = s.inv := rfl
@[simp] theorem State.setWait_tgf (s : State) (t : Nat) (w : Wait) : (s.setWait t w).tgf = s.tgf := rfl
@[simp] theorem State.setWait_fifos (s : State) (t : Nat) (w : Wait) : (s.setWait t w).fifos = s.fifos := rfl
@[simp] theorem State.setWait_engines (s : State) (t : Nat) (w : Wait) : (s.setWait t w).engines = s.engines := rfl
@[simp] theorem State.setWait_clusters (s : State) (t : Nat) (w : Wait) : (s.setWait t w).clusters = s.clusters := rfl
@[simp] theorem State.setWait_ops (s : State) (t : Nat) (w : Wait) : (s.setWait t w).ops = s.ops := rfl
@[simp] theorem State.setWait_orders (s : State) (t : Nat) (w : Wait) : (s.setWait t w).orders = s.orders := rfl
@[simp] theorem State.setWait_rings (s : State) (t : Nat) (w : Wait) : (s.setWait t w).rings = s.rings := rfl
@[simp] theorem State.setWait_net (s : State) (t : Nat) (w : Wait) : (s.setWait t w).net = s.net := rfl
@[simp] theorem State.setWait_mtch (s : State) (t : Nat) (w : Wait) : (s.setWait t w).mtch = s.mtch := rfl
@[simp] theorem State.setWait_aml (s : State) (t : Nat) (w : Wait) : (s.setWait t w).aml = s.aml := rfl
@[simp] theorem State.setWait_host (s : State) (t : Nat) (w : Wait) : (s.setWait t w).host = s.host := rfl
@[simp] theorem State.setWait_dev (s : State) (t : Nat) (w : Wait) : (s.setWait t w).dev = s.dev := rfl
@[simp] theorem State.setWait_eptCache (s : State) (t : Nat) (w : Wait) : (s.setWait t w).eptCache = s.eptCache := rfl
@[simp] theorem State.setWait_ports (s : State) (t : Nat) (w : Wait) : (s.setWait t w).ports = s.ports := rfl
@[simp] theorem State.setWait_lanes (s : State) (t : Nat) (w : Wait) : (s.setWait t w).lanes = s.lanes := rfl
@[simp] theorem State.setWait_lims (s : State) (t : Nat) (w : Wait) : (s.setWait t w).lims = s.lims := rfl
@[simp] theorem State.setWait_limCache (s : State) (t : Nat) (w : Wait) : (s.setWait t w).limCache = s.limCache := rfl
@[simp] theorem State.setWait_limRefill (s : State) (t : Nat) (w : Wait) : (s.setWait t w).limRefill = s.limRefill := rfl
@[simp] theorem State.setWait_route (s : State) (t : Nat) (w : Wait) : (s.setWait t w).route = s.route := rfl
@[simp] theorem State.setWait_halfLatch (s : State) (t : Nat) (w : Wait) : (s.setWait t w).halfLatch = s.halfLatch := rfl
@[simp] theorem State.setWait_recLatch (s : State) (t : Nat) (w : Wait) : (s.setWait t w).recLatch = s.recLatch := rfl
@[simp] theorem State.setWait_sbAddr (s : State) (t : Nat) (w : Wait) : (s.setWait t w).sbAddr = s.sbAddr := rfl
@[simp] theorem State.setWait_variant (s : State) (t : Nat) (w : Wait) : (s.setWait t w).variant = s.variant := rfl
@[simp] theorem State.setWait_out (s : State) (t : Nat) (w : Wait) : (s.setWait t w).out = s.out := rfl
@[simp] theorem State.setWait_free (s : State) (t : Nat) (w : Wait) : (s.setWait t w).free = s.free := rfl
@[simp] theorem State.setWait_pending (s : State) (t : Nat) (w : Wait) : (s.setWait t w).pending = s.pending := rfl

/-! ### nextPc -/

@[simp] theorem State.nextPc_regs (s : State) (t n : Nat) : (s.nextPc t n).regs = s.regs := rfl
@[simp] theorem State.nextPc_mem (s : State) (t n : Nat) : (s.nextPc t n).mem = s.mem := rfl
@[simp] theorem State.nextPc_poison (s : State) (t n : Nat) : (s.nextPc t n).poison = s.poison := rfl
@[simp] theorem State.nextPc_inv (s : State) (t n : Nat) : (s.nextPc t n).inv = s.inv := rfl
@[simp] theorem State.nextPc_tgf (s : State) (t n : Nat) : (s.nextPc t n).tgf = s.tgf := rfl
@[simp] theorem State.nextPc_fifos (s : State) (t n : Nat) : (s.nextPc t n).fifos = s.fifos := rfl
@[simp] theorem State.nextPc_engines (s : State) (t n : Nat) : (s.nextPc t n).engines = s.engines := rfl
@[simp] theorem State.nextPc_clusters (s : State) (t n : Nat) : (s.nextPc t n).clusters = s.clusters := rfl
@[simp] theorem State.nextPc_ops (s : State) (t n : Nat) : (s.nextPc t n).ops = s.ops := rfl
@[simp] theorem State.nextPc_orders (s : State) (t n : Nat) : (s.nextPc t n).orders = s.orders := rfl
@[simp] theorem State.nextPc_rings (s : State) (t n : Nat) : (s.nextPc t n).rings = s.rings := rfl
@[simp] theorem State.nextPc_net (s : State) (t n : Nat) : (s.nextPc t n).net = s.net := rfl
@[simp] theorem State.nextPc_mtch (s : State) (t n : Nat) : (s.nextPc t n).mtch = s.mtch := rfl
@[simp] theorem State.nextPc_aml (s : State) (t n : Nat) : (s.nextPc t n).aml = s.aml := rfl
@[simp] theorem State.nextPc_host (s : State) (t n : Nat) : (s.nextPc t n).host = s.host := rfl
@[simp] theorem State.nextPc_dev (s : State) (t n : Nat) : (s.nextPc t n).dev = s.dev := rfl
@[simp] theorem State.nextPc_eptCache (s : State) (t n : Nat) : (s.nextPc t n).eptCache = s.eptCache := rfl
@[simp] theorem State.nextPc_ports (s : State) (t n : Nat) : (s.nextPc t n).ports = s.ports := rfl
@[simp] theorem State.nextPc_lanes (s : State) (t n : Nat) : (s.nextPc t n).lanes = s.lanes := rfl
@[simp] theorem State.nextPc_lims (s : State) (t n : Nat) : (s.nextPc t n).lims = s.lims := rfl
@[simp] theorem State.nextPc_limCache (s : State) (t n : Nat) : (s.nextPc t n).limCache = s.limCache := rfl
@[simp] theorem State.nextPc_limRefill (s : State) (t n : Nat) : (s.nextPc t n).limRefill = s.limRefill := rfl
@[simp] theorem State.nextPc_route (s : State) (t n : Nat) : (s.nextPc t n).route = s.route := rfl
@[simp] theorem State.nextPc_halfLatch (s : State) (t n : Nat) : (s.nextPc t n).halfLatch = s.halfLatch := rfl
@[simp] theorem State.nextPc_recLatch (s : State) (t n : Nat) : (s.nextPc t n).recLatch = s.recLatch := rfl
@[simp] theorem State.nextPc_sbAddr (s : State) (t n : Nat) : (s.nextPc t n).sbAddr = s.sbAddr := rfl
@[simp] theorem State.nextPc_variant (s : State) (t n : Nat) : (s.nextPc t n).variant = s.variant := rfl
@[simp] theorem State.nextPc_out (s : State) (t n : Nat) : (s.nextPc t n).out = s.out := rfl
@[simp] theorem State.nextPc_free (s : State) (t n : Nat) : (s.nextPc t n).free = s.free := rfl
@[simp] theorem State.nextPc_pending (s : State) (t n : Nat) : (s.nextPc t n).pending = s.pending := rfl

/-! ### setPc -/

@[simp] theorem State.setPc_regs (s : State) (t : Nat) (v : Word) : (s.setPc t v).regs = s.regs := rfl
@[simp] theorem State.setPc_mem (s : State) (t : Nat) (v : Word) : (s.setPc t v).mem = s.mem := rfl
@[simp] theorem State.setPc_poison (s : State) (t : Nat) (v : Word) : (s.setPc t v).poison = s.poison := rfl
@[simp] theorem State.setPc_inv (s : State) (t : Nat) (v : Word) : (s.setPc t v).inv = s.inv := rfl
@[simp] theorem State.setPc_tgf (s : State) (t : Nat) (v : Word) : (s.setPc t v).tgf = s.tgf := rfl
@[simp] theorem State.setPc_fifos (s : State) (t : Nat) (v : Word) : (s.setPc t v).fifos = s.fifos := rfl
@[simp] theorem State.setPc_engines (s : State) (t : Nat) (v : Word) : (s.setPc t v).engines = s.engines := rfl
@[simp] theorem State.setPc_clusters (s : State) (t : Nat) (v : Word) : (s.setPc t v).clusters = s.clusters := rfl
@[simp] theorem State.setPc_ops (s : State) (t : Nat) (v : Word) : (s.setPc t v).ops = s.ops := rfl
@[simp] theorem State.setPc_orders (s : State) (t : Nat) (v : Word) : (s.setPc t v).orders = s.orders := rfl
@[simp] theorem State.setPc_rings (s : State) (t : Nat) (v : Word) : (s.setPc t v).rings = s.rings := rfl
@[simp] theorem State.setPc_net (s : State) (t : Nat) (v : Word) : (s.setPc t v).net = s.net := rfl
@[simp] theorem State.setPc_mtch (s : State) (t : Nat) (v : Word) : (s.setPc t v).mtch = s.mtch := rfl
@[simp] theorem State.setPc_aml (s : State) (t : Nat) (v : Word) : (s.setPc t v).aml = s.aml := rfl
@[simp] theorem State.setPc_host (s : State) (t : Nat) (v : Word) : (s.setPc t v).host = s.host := rfl
@[simp] theorem State.setPc_dev (s : State) (t : Nat) (v : Word) : (s.setPc t v).dev = s.dev := rfl
@[simp] theorem State.setPc_eptCache (s : State) (t : Nat) (v : Word) : (s.setPc t v).eptCache = s.eptCache := rfl
@[simp] theorem State.setPc_ports (s : State) (t : Nat) (v : Word) : (s.setPc t v).ports = s.ports := rfl
@[simp] theorem State.setPc_lanes (s : State) (t : Nat) (v : Word) : (s.setPc t v).lanes = s.lanes := rfl
@[simp] theorem State.setPc_lims (s : State) (t : Nat) (v : Word) : (s.setPc t v).lims = s.lims := rfl
@[simp] theorem State.setPc_limCache (s : State) (t : Nat) (v : Word) : (s.setPc t v).limCache = s.limCache := rfl
@[simp] theorem State.setPc_limRefill (s : State) (t : Nat) (v : Word) : (s.setPc t v).limRefill = s.limRefill := rfl
@[simp] theorem State.setPc_route (s : State) (t : Nat) (v : Word) : (s.setPc t v).route = s.route := rfl
@[simp] theorem State.setPc_halfLatch (s : State) (t : Nat) (v : Word) : (s.setPc t v).halfLatch = s.halfLatch := rfl
@[simp] theorem State.setPc_recLatch (s : State) (t : Nat) (v : Word) : (s.setPc t v).recLatch = s.recLatch := rfl
@[simp] theorem State.setPc_sbAddr (s : State) (t : Nat) (v : Word) : (s.setPc t v).sbAddr = s.sbAddr := rfl
@[simp] theorem State.setPc_variant (s : State) (t : Nat) (v : Word) : (s.setPc t v).variant = s.variant := rfl
@[simp] theorem State.setPc_out (s : State) (t : Nat) (v : Word) : (s.setPc t v).out = s.out := rfl
@[simp] theorem State.setPc_free (s : State) (t : Nat) (v : Word) : (s.setPc t v).free = s.free := rfl
@[simp] theorem State.setPc_pending (s : State) (t : Nat) (v : Word) : (s.setPc t v).pending = s.pending := rfl

/-! ### setRx -/

@[simp] theorem State.setRx_regs (s : State) (r : Nat) (x : Stream) : (s.setRx r x).regs = s.regs := rfl
@[simp] theorem State.setRx_mem (s : State) (r : Nat) (x : Stream) : (s.setRx r x).mem = s.mem := rfl
@[simp] theorem State.setRx_poison (s : State) (r : Nat) (x : Stream) : (s.setRx r x).poison = s.poison := rfl
@[simp] theorem State.setRx_inv (s : State) (r : Nat) (x : Stream) : (s.setRx r x).inv = s.inv := rfl
@[simp] theorem State.setRx_tgf (s : State) (r : Nat) (x : Stream) : (s.setRx r x).tgf = s.tgf := rfl
@[simp] theorem State.setRx_fifos (s : State) (r : Nat) (x : Stream) : (s.setRx r x).fifos = s.fifos := rfl
@[simp] theorem State.setRx_threads (s : State) (r : Nat) (x : Stream) : (s.setRx r x).threads = s.threads := rfl
@[simp] theorem State.setRx_engines (s : State) (r : Nat) (x : Stream) : (s.setRx r x).engines = s.engines := rfl
@[simp] theorem State.setRx_clusters (s : State) (r : Nat) (x : Stream) : (s.setRx r x).clusters = s.clusters := rfl
@[simp] theorem State.setRx_ops (s : State) (r : Nat) (x : Stream) : (s.setRx r x).ops = s.ops := rfl
@[simp] theorem State.setRx_orders (s : State) (r : Nat) (x : Stream) : (s.setRx r x).orders = s.orders := rfl
@[simp] theorem State.setRx_rings (s : State) (r : Nat) (x : Stream) : (s.setRx r x).rings = s.rings := rfl
@[simp] theorem State.setRx_mtch (s : State) (r : Nat) (x : Stream) : (s.setRx r x).mtch = s.mtch := rfl
@[simp] theorem State.setRx_aml (s : State) (r : Nat) (x : Stream) : (s.setRx r x).aml = s.aml := rfl
@[simp] theorem State.setRx_host (s : State) (r : Nat) (x : Stream) : (s.setRx r x).host = s.host := rfl
@[simp] theorem State.setRx_dev (s : State) (r : Nat) (x : Stream) : (s.setRx r x).dev = s.dev := rfl
@[simp] theorem State.setRx_eptCache (s : State) (r : Nat) (x : Stream) : (s.setRx r x).eptCache = s.eptCache := rfl
@[simp] theorem State.setRx_ports (s : State) (r : Nat) (x : Stream) : (s.setRx r x).ports = s.ports := rfl
@[simp] theorem State.setRx_lanes (s : State) (r : Nat) (x : Stream) : (s.setRx r x).lanes = s.lanes := rfl
@[simp] theorem State.setRx_lims (s : State) (r : Nat) (x : Stream) : (s.setRx r x).lims = s.lims := rfl
@[simp] theorem State.setRx_limCache (s : State) (r : Nat) (x : Stream) : (s.setRx r x).limCache = s.limCache := rfl
@[simp] theorem State.setRx_limRefill (s : State) (r : Nat) (x : Stream) : (s.setRx r x).limRefill = s.limRefill := rfl
@[simp] theorem State.setRx_route (s : State) (r : Nat) (x : Stream) : (s.setRx r x).route = s.route := rfl
@[simp] theorem State.setRx_halfLatch (s : State) (r : Nat) (x : Stream) : (s.setRx r x).halfLatch = s.halfLatch := rfl
@[simp] theorem State.setRx_recLatch (s : State) (r : Nat) (x : Stream) : (s.setRx r x).recLatch = s.recLatch := rfl
@[simp] theorem State.setRx_sbAddr (s : State) (r : Nat) (x : Stream) : (s.setRx r x).sbAddr = s.sbAddr := rfl
@[simp] theorem State.setRx_variant (s : State) (r : Nat) (x : Stream) : (s.setRx r x).variant = s.variant := rfl
@[simp] theorem State.setRx_out (s : State) (r : Nat) (x : Stream) : (s.setRx r x).out = s.out := rfl
@[simp] theorem State.setRx_free (s : State) (r : Nat) (x : Stream) : (s.setRx r x).free = s.free := rfl
@[simp] theorem State.setRx_pending (s : State) (r : Nat) (x : Stream) : (s.setRx r x).pending = s.pending := rfl

/-! ### setPtime -/

@[simp] theorem State.setPtime_regs (s : State) (p : Nat) (x : PortTime) : (s.setPtime p x).regs = s.regs := rfl
@[simp] theorem State.setPtime_mem (s : State) (p : Nat) (x : PortTime) : (s.setPtime p x).mem = s.mem := rfl
@[simp] theorem State.setPtime_poison (s : State) (p : Nat) (x : PortTime) : (s.setPtime p x).poison = s.poison := rfl
@[simp] theorem State.setPtime_tgf (s : State) (p : Nat) (x : PortTime) : (s.setPtime p x).tgf = s.tgf := rfl
@[simp] theorem State.setPtime_fifos (s : State) (p : Nat) (x : PortTime) : (s.setPtime p x).fifos = s.fifos := rfl
@[simp] theorem State.setPtime_threads (s : State) (p : Nat) (x : PortTime) : (s.setPtime p x).threads = s.threads := rfl
@[simp] theorem State.setPtime_engines (s : State) (p : Nat) (x : PortTime) : (s.setPtime p x).engines = s.engines := rfl
@[simp] theorem State.setPtime_clusters (s : State) (p : Nat) (x : PortTime) : (s.setPtime p x).clusters = s.clusters := rfl
@[simp] theorem State.setPtime_ops (s : State) (p : Nat) (x : PortTime) : (s.setPtime p x).ops = s.ops := rfl
@[simp] theorem State.setPtime_orders (s : State) (p : Nat) (x : PortTime) : (s.setPtime p x).orders = s.orders := rfl
@[simp] theorem State.setPtime_rings (s : State) (p : Nat) (x : PortTime) : (s.setPtime p x).rings = s.rings := rfl
@[simp] theorem State.setPtime_net (s : State) (p : Nat) (x : PortTime) : (s.setPtime p x).net = s.net := rfl
@[simp] theorem State.setPtime_mtch (s : State) (p : Nat) (x : PortTime) : (s.setPtime p x).mtch = s.mtch := rfl
@[simp] theorem State.setPtime_aml (s : State) (p : Nat) (x : PortTime) : (s.setPtime p x).aml = s.aml := rfl
@[simp] theorem State.setPtime_host (s : State) (p : Nat) (x : PortTime) : (s.setPtime p x).host = s.host := rfl
@[simp] theorem State.setPtime_dev (s : State) (p : Nat) (x : PortTime) : (s.setPtime p x).dev = s.dev := rfl
@[simp] theorem State.setPtime_eptCache (s : State) (p : Nat) (x : PortTime) : (s.setPtime p x).eptCache = s.eptCache := rfl
@[simp] theorem State.setPtime_ports (s : State) (p : Nat) (x : PortTime) : (s.setPtime p x).ports = s.ports := rfl
@[simp] theorem State.setPtime_lanes (s : State) (p : Nat) (x : PortTime) : (s.setPtime p x).lanes = s.lanes := rfl
@[simp] theorem State.setPtime_lims (s : State) (p : Nat) (x : PortTime) : (s.setPtime p x).lims = s.lims := rfl
@[simp] theorem State.setPtime_limCache (s : State) (p : Nat) (x : PortTime) : (s.setPtime p x).limCache = s.limCache := rfl
@[simp] theorem State.setPtime_limRefill (s : State) (p : Nat) (x : PortTime) : (s.setPtime p x).limRefill = s.limRefill := rfl
@[simp] theorem State.setPtime_route (s : State) (p : Nat) (x : PortTime) : (s.setPtime p x).route = s.route := rfl
@[simp] theorem State.setPtime_halfLatch (s : State) (p : Nat) (x : PortTime) : (s.setPtime p x).halfLatch = s.halfLatch := rfl
@[simp] theorem State.setPtime_recLatch (s : State) (p : Nat) (x : PortTime) : (s.setPtime p x).recLatch = s.recLatch := rfl
@[simp] theorem State.setPtime_sbAddr (s : State) (p : Nat) (x : PortTime) : (s.setPtime p x).sbAddr = s.sbAddr := rfl
@[simp] theorem State.setPtime_variant (s : State) (p : Nat) (x : PortTime) : (s.setPtime p x).variant = s.variant := rfl
@[simp] theorem State.setPtime_out (s : State) (p : Nat) (x : PortTime) : (s.setPtime p x).out = s.out := rfl
@[simp] theorem State.setPtime_free (s : State) (p : Nat) (x : PortTime) : (s.setPtime p x).free = s.free := rfl
@[simp] theorem State.setPtime_pending (s : State) (p : Nat) (x : PortTime) : (s.setPtime p x).pending = s.pending := rfl

/-! ### wrSoft -/

@[simp] theorem State.wrSoft_mem (s : State) (r : RegDesc) (ix : List Nat) (v : Word) : (s.wrSoft r ix v).mem = s.mem := rfl
@[simp] theorem State.wrSoft_poison (s : State) (r : RegDesc) (ix : List Nat) (v : Word) : (s.wrSoft r ix v).poison = s.poison := rfl
@[simp] theorem State.wrSoft_inv (s : State) (r : RegDesc) (ix : List Nat) (v : Word) : (s.wrSoft r ix v).inv = s.inv := rfl
@[simp] theorem State.wrSoft_tgf (s : State) (r : RegDesc) (ix : List Nat) (v : Word) : (s.wrSoft r ix v).tgf = s.tgf := rfl
@[simp] theorem State.wrSoft_fifos (s : State) (r : RegDesc) (ix : List Nat) (v : Word) : (s.wrSoft r ix v).fifos = s.fifos := rfl
@[simp] theorem State.wrSoft_threads (s : State) (r : RegDesc) (ix : List Nat) (v : Word) : (s.wrSoft r ix v).threads = s.threads := rfl
@[simp] theorem State.wrSoft_engines (s : State) (r : RegDesc) (ix : List Nat) (v : Word) : (s.wrSoft r ix v).engines = s.engines := rfl
@[simp] theorem State.wrSoft_clusters (s : State) (r : RegDesc) (ix : List Nat) (v : Word) : (s.wrSoft r ix v).clusters = s.clusters := rfl
@[simp] theorem State.wrSoft_ops (s : State) (r : RegDesc) (ix : List Nat) (v : Word) : (s.wrSoft r ix v).ops = s.ops := rfl
@[simp] theorem State.wrSoft_orders (s : State) (r : RegDesc) (ix : List Nat) (v : Word) : (s.wrSoft r ix v).orders = s.orders := rfl
@[simp] theorem State.wrSoft_rings (s : State) (r : RegDesc) (ix : List Nat) (v : Word) : (s.wrSoft r ix v).rings = s.rings := rfl
@[simp] theorem State.wrSoft_net (s : State) (r : RegDesc) (ix : List Nat) (v : Word) : (s.wrSoft r ix v).net = s.net := rfl
@[simp] theorem State.wrSoft_mtch (s : State) (r : RegDesc) (ix : List Nat) (v : Word) : (s.wrSoft r ix v).mtch = s.mtch := rfl
@[simp] theorem State.wrSoft_aml (s : State) (r : RegDesc) (ix : List Nat) (v : Word) : (s.wrSoft r ix v).aml = s.aml := rfl
@[simp] theorem State.wrSoft_host (s : State) (r : RegDesc) (ix : List Nat) (v : Word) : (s.wrSoft r ix v).host = s.host := rfl
@[simp] theorem State.wrSoft_dev (s : State) (r : RegDesc) (ix : List Nat) (v : Word) : (s.wrSoft r ix v).dev = s.dev := rfl
@[simp] theorem State.wrSoft_eptCache (s : State) (r : RegDesc) (ix : List Nat) (v : Word) : (s.wrSoft r ix v).eptCache = s.eptCache := rfl
@[simp] theorem State.wrSoft_ports (s : State) (r : RegDesc) (ix : List Nat) (v : Word) : (s.wrSoft r ix v).ports = s.ports := rfl
@[simp] theorem State.wrSoft_lanes (s : State) (r : RegDesc) (ix : List Nat) (v : Word) : (s.wrSoft r ix v).lanes = s.lanes := rfl
@[simp] theorem State.wrSoft_lims (s : State) (r : RegDesc) (ix : List Nat) (v : Word) : (s.wrSoft r ix v).lims = s.lims := rfl
@[simp] theorem State.wrSoft_limCache (s : State) (r : RegDesc) (ix : List Nat) (v : Word) : (s.wrSoft r ix v).limCache = s.limCache := rfl
@[simp] theorem State.wrSoft_limRefill (s : State) (r : RegDesc) (ix : List Nat) (v : Word) : (s.wrSoft r ix v).limRefill = s.limRefill := rfl
@[simp] theorem State.wrSoft_route (s : State) (r : RegDesc) (ix : List Nat) (v : Word) : (s.wrSoft r ix v).route = s.route := rfl
@[simp] theorem State.wrSoft_halfLatch (s : State) (r : RegDesc) (ix : List Nat) (v : Word) : (s.wrSoft r ix v).halfLatch = s.halfLatch := rfl
@[simp] theorem State.wrSoft_recLatch (s : State) (r : RegDesc) (ix : List Nat) (v : Word) : (s.wrSoft r ix v).recLatch = s.recLatch := rfl
@[simp] theorem State.wrSoft_sbAddr (s : State) (r : RegDesc) (ix : List Nat) (v : Word) : (s.wrSoft r ix v).sbAddr = s.sbAddr := rfl
@[simp] theorem State.wrSoft_variant (s : State) (r : RegDesc) (ix : List Nat) (v : Word) : (s.wrSoft r ix v).variant = s.variant := rfl
@[simp] theorem State.wrSoft_out (s : State) (r : RegDesc) (ix : List Nat) (v : Word) : (s.wrSoft r ix v).out = s.out := rfl
@[simp] theorem State.wrSoft_free (s : State) (r : RegDesc) (ix : List Nat) (v : Word) : (s.wrSoft r ix v).free = s.free := rfl
@[simp] theorem State.wrSoft_pending (s : State) (r : RegDesc) (ix : List Nat) (v : Word) : (s.wrSoft r ix v).pending = s.pending := rfl

/-! ### setLink -/

@[simp] theorem State.setLink_regs (s : State) (p : Nat) (st : LState) : (s.setLink p st).regs = s.regs := rfl
@[simp] theorem State.setLink_mem (s : State) (p : Nat) (st : LState) : (s.setLink p st).mem = s.mem := rfl
@[simp] theorem State.setLink_poison (s : State) (p : Nat) (st : LState) : (s.setLink p st).poison = s.poison := rfl
@[simp] theorem State.setLink_inv (s : State) (p : Nat) (st : LState) : (s.setLink p st).inv = s.inv := rfl
@[simp] theorem State.setLink_tgf (s : State) (p : Nat) (st : LState) : (s.setLink p st).tgf = s.tgf := rfl
@[simp] theorem State.setLink_fifos (s : State) (p : Nat) (st : LState) : (s.setLink p st).fifos = s.fifos := rfl
@[simp] theorem State.setLink_threads (s : State) (p : Nat) (st : LState) : (s.setLink p st).threads = s.threads := rfl
@[simp] theorem State.setLink_engines (s : State) (p : Nat) (st : LState) : (s.setLink p st).engines = s.engines := rfl
@[simp] theorem State.setLink_clusters (s : State) (p : Nat) (st : LState) : (s.setLink p st).clusters = s.clusters := rfl
@[simp] theorem State.setLink_ops (s : State) (p : Nat) (st : LState) : (s.setLink p st).ops = s.ops := rfl
@[simp] theorem State.setLink_orders (s : State) (p : Nat) (st : LState) : (s.setLink p st).orders = s.orders := rfl
@[simp] theorem State.setLink_rings (s : State) (p : Nat) (st : LState) : (s.setLink p st).rings = s.rings := rfl
@[simp] theorem State.setLink_net (s : State) (p : Nat) (st : LState) : (s.setLink p st).net = s.net := rfl
@[simp] theorem State.setLink_mtch (s : State) (p : Nat) (st : LState) : (s.setLink p st).mtch = s.mtch := rfl
@[simp] theorem State.setLink_aml (s : State) (p : Nat) (st : LState) : (s.setLink p st).aml = s.aml := rfl
@[simp] theorem State.setLink_host (s : State) (p : Nat) (st : LState) : (s.setLink p st).host = s.host := rfl
@[simp] theorem State.setLink_dev (s : State) (p : Nat) (st : LState) : (s.setLink p st).dev = s.dev := rfl
@[simp] theorem State.setLink_eptCache (s : State) (p : Nat) (st : LState) : (s.setLink p st).eptCache = s.eptCache := rfl
@[simp] theorem State.setLink_lanes (s : State) (p : Nat) (st : LState) : (s.setLink p st).lanes = s.lanes := rfl
@[simp] theorem State.setLink_lims (s : State) (p : Nat) (st : LState) : (s.setLink p st).lims = s.lims := rfl
@[simp] theorem State.setLink_limCache (s : State) (p : Nat) (st : LState) : (s.setLink p st).limCache = s.limCache := rfl
@[simp] theorem State.setLink_limRefill (s : State) (p : Nat) (st : LState) : (s.setLink p st).limRefill = s.limRefill := rfl
@[simp] theorem State.setLink_route (s : State) (p : Nat) (st : LState) : (s.setLink p st).route = s.route := rfl
@[simp] theorem State.setLink_halfLatch (s : State) (p : Nat) (st : LState) : (s.setLink p st).halfLatch = s.halfLatch := rfl
@[simp] theorem State.setLink_recLatch (s : State) (p : Nat) (st : LState) : (s.setLink p st).recLatch = s.recLatch := rfl
@[simp] theorem State.setLink_sbAddr (s : State) (p : Nat) (st : LState) : (s.setLink p st).sbAddr = s.sbAddr := rfl
@[simp] theorem State.setLink_variant (s : State) (p : Nat) (st : LState) : (s.setLink p st).variant = s.variant := rfl
@[simp] theorem State.setLink_out (s : State) (p : Nat) (st : LState) : (s.setLink p st).out = s.out := rfl
@[simp] theorem State.setLink_free (s : State) (p : Nat) (st : LState) : (s.setLink p st).free = s.free := rfl
@[simp] theorem State.setLink_pending (s : State) (p : Nat) (st : LState) : (s.setLink p st).pending = s.pending := rfl

/-! ### setSch -/

@[simp] theorem State.setSch_regs (s : State) (p : Nat) (x : Sched) : (s.setSch p x).regs = s.regs := rfl
@[simp] theorem State.setSch_mem (s : State) (p : Nat) (x : Sched) : (s.setSch p x).mem = s.mem := rfl
@[simp] theorem State.setSch_poison (s : State) (p : Nat) (x : Sched) : (s.setSch p x).poison = s.poison := rfl
@[simp] theorem State.setSch_inv (s : State) (p : Nat) (x : Sched) : (s.setSch p x).inv = s.inv := rfl
@[simp] theorem State.setSch_tgf (s : State) (p : Nat) (x : Sched) : (s.setSch p x).tgf = s.tgf := rfl
@[simp] theorem State.setSch_fifos (s : State) (p : Nat) (x : Sched) : (s.setSch p x).fifos = s.fifos := rfl
@[simp] theorem State.setSch_threads (s : State) (p : Nat) (x : Sched) : (s.setSch p x).threads = s.threads := rfl
@[simp] theorem State.setSch_engines (s : State) (p : Nat) (x : Sched) : (s.setSch p x).engines = s.engines := rfl
@[simp] theorem State.setSch_clusters (s : State) (p : Nat) (x : Sched) : (s.setSch p x).clusters = s.clusters := rfl
@[simp] theorem State.setSch_ops (s : State) (p : Nat) (x : Sched) : (s.setSch p x).ops = s.ops := rfl
@[simp] theorem State.setSch_orders (s : State) (p : Nat) (x : Sched) : (s.setSch p x).orders = s.orders := rfl
@[simp] theorem State.setSch_rings (s : State) (p : Nat) (x : Sched) : (s.setSch p x).rings = s.rings := rfl
@[simp] theorem State.setSch_net (s : State) (p : Nat) (x : Sched) : (s.setSch p x).net = s.net := rfl
@[simp] theorem State.setSch_mtch (s : State) (p : Nat) (x : Sched) : (s.setSch p x).mtch = s.mtch := rfl
@[simp] theorem State.setSch_aml (s : State) (p : Nat) (x : Sched) : (s.setSch p x).aml = s.aml := rfl
@[simp] theorem State.setSch_host (s : State) (p : Nat) (x : Sched) : (s.setSch p x).host = s.host := rfl
@[simp] theorem State.setSch_dev (s : State) (p : Nat) (x : Sched) : (s.setSch p x).dev = s.dev := rfl
@[simp] theorem State.setSch_eptCache (s : State) (p : Nat) (x : Sched) : (s.setSch p x).eptCache = s.eptCache := rfl
@[simp] theorem State.setSch_lanes (s : State) (p : Nat) (x : Sched) : (s.setSch p x).lanes = s.lanes := rfl
@[simp] theorem State.setSch_lims (s : State) (p : Nat) (x : Sched) : (s.setSch p x).lims = s.lims := rfl
@[simp] theorem State.setSch_limCache (s : State) (p : Nat) (x : Sched) : (s.setSch p x).limCache = s.limCache := rfl
@[simp] theorem State.setSch_limRefill (s : State) (p : Nat) (x : Sched) : (s.setSch p x).limRefill = s.limRefill := rfl
@[simp] theorem State.setSch_route (s : State) (p : Nat) (x : Sched) : (s.setSch p x).route = s.route := rfl
@[simp] theorem State.setSch_halfLatch (s : State) (p : Nat) (x : Sched) : (s.setSch p x).halfLatch = s.halfLatch := rfl
@[simp] theorem State.setSch_recLatch (s : State) (p : Nat) (x : Sched) : (s.setSch p x).recLatch = s.recLatch := rfl
@[simp] theorem State.setSch_sbAddr (s : State) (p : Nat) (x : Sched) : (s.setSch p x).sbAddr = s.sbAddr := rfl
@[simp] theorem State.setSch_variant (s : State) (p : Nat) (x : Sched) : (s.setSch p x).variant = s.variant := rfl
@[simp] theorem State.setSch_out (s : State) (p : Nat) (x : Sched) : (s.setSch p x).out = s.out := rfl
@[simp] theorem State.setSch_free (s : State) (p : Nat) (x : Sched) : (s.setSch p x).free = s.free := rfl
@[simp] theorem State.setSch_pending (s : State) (p : Nat) (x : Sched) : (s.setSch p x).pending = s.pending := rfl

/-! ## Objects -/

@[simp] theorem State.thread_setThread (s : State) (t : Nat) (x : Thread) : (s.setThread t x).thread t = x := by simp [State.thread, State.setThread]
@[simp] theorem State.thread_setThread_ne (s : State) (t : Nat) (x : Thread) (j : Nat) (h : j ≠ t) : (s.setThread t x).thread j = s.thread j := by
  simp [State.thread, State.setThread, h]
@[simp] theorem State.fifo_setFifo (s : State) (t : Nat) (x : Fifo) : (s.setFifo t x).fifo t = x := by simp [State.fifo, State.setFifo]
@[simp] theorem State.fifo_setFifo_ne (s : State) (t : Nat) (x : Fifo) (j : Nat) (h : j ≠ t) : (s.setFifo t x).fifo j = s.fifo j := by
  simp [State.fifo, State.setFifo, h]
@[simp] theorem State.engine_setEngine (s : State) (t : Nat) (x : Engine) : (s.setEngine t x).engine t = x := by simp [State.engine, State.setEngine]
@[simp] theorem State.engine_setEngine_ne (s : State) (t : Nat) (x : Engine) (j : Nat) (h : j ≠ t) : (s.setEngine t x).engine j = s.engine j := by
  simp [State.engine, State.setEngine, h]
@[simp] theorem State.cluster_setCluster (s : State) (t : Nat) (x : Cluster) : (s.setCluster t x).cluster t = x := by simp [State.cluster, State.setCluster]
@[simp] theorem State.cluster_setCluster_ne (s : State) (t : Nat) (x : Cluster) (j : Nat) (h : j ≠ t) : (s.setCluster t x).cluster j = s.cluster j := by
  simp [State.cluster, State.setCluster, h]
@[simp] theorem State.op_setOp (s : State) (t : Nat) (x : Op) : (s.setOp t x).op t = x := by simp [State.op, State.setOp]
@[simp] theorem State.op_setOp_ne (s : State) (t : Nat) (x : Op) (j : Nat) (h : j ≠ t) : (s.setOp t x).op j = s.op j := by
  simp [State.op, State.setOp, h]
@[simp] theorem State.port_setPort (s : State) (t : Nat) (x : Port) : (s.setPort t x).port t = x := by simp [State.port, State.setPort]
@[simp] theorem State.port_setPort_ne (s : State) (t : Nat) (x : Port) (j : Nat) (h : j ≠ t) : (s.setPort t x).port j = s.port j := by
  simp [State.port, State.setPort, h]
@[simp] theorem State.func_setFunc (s : State) (t : Nat) (x : Func) : (s.setFunc t x).func t = x := by simp [State.func, State.setFunc]
@[simp] theorem State.func_setFunc_ne (s : State) (t : Nat) (x : Func) (j : Nat) (h : j ≠ t) : (s.setFunc t x).func j = s.func j := by
  simp [State.func, State.setFunc, h]
@[simp] theorem State.att_setAtt (s : State) (t : Nat) (x : Attach) : (s.setAtt t x).att t = x := by simp [State.att, State.setAtt]
@[simp] theorem State.att_setAtt_ne (s : State) (t : Nat) (x : Attach) (j : Nat) (h : j ≠ t) : (s.setAtt t x).att j = s.att j := by
  simp [State.att, State.setAtt, h]
@[simp] theorem State.queue_setQueue (s : State) (t : Nat) (x : Queue) : (s.setQueue t x).queue t = x := by simp [State.queue, State.setQueue]
@[simp] theorem State.queue_setQueue_ne (s : State) (t : Nat) (x : Queue) (j : Nat) (h : j ≠ t) : (s.setQueue t x).queue j = s.queue j := by
  simp [State.queue, State.setQueue, h]
@[simp] theorem State.cq_setCq (s : State) (t : Nat) (x : Cq) : (s.setCq t x).cq t = x := by simp [State.cq, State.setCq]
@[simp] theorem State.cq_setCq_ne (s : State) (t : Nat) (x : Cq) (j : Nat) (h : j ≠ t) : (s.setCq t x).cq j = s.cq j := by
  simp [State.cq, State.setCq, h]
@[simp] theorem State.half_setHalf (s : State) (t : Nat) (x : Half) :
    (s.setHalf t x).half t = if s.adapterHalted then { x with rx := x.rx.shed } else x := by
  have e : (s.setHalf t x).adapterHalted = s.adapterHalted := rfl
  unfold State.half; rw [e]; simp [State.setHalf]
@[simp] theorem State.half_setHalf_ne (s : State) (t : Nat) (x : Half) (j : Nat) (h : j ≠ t) : (s.setHalf t x).half j = s.half j := by
  have e : (s.setHalf t x).adapterHalted = s.adapterHalted := rfl
  unfold State.half; rw [e]; simp [State.setHalf, h]
@[simp] theorem State.coll_setColl (s : State) (t : Nat) (x : Option Coll) : (s.setColl t x).coll t = x := by simp [State.coll, State.setColl]
@[simp] theorem State.coll_setColl_ne (s : State) (t : Nat) (x : Option Coll) (j : Nat) (h : j ≠ t) : (s.setColl t x).coll j = s.coll j := by
  simp [State.coll, State.setColl, h]
@[simp] theorem State.mctx_setMctx (s : State) (t : Nat) (x : MatchCtx) : (s.setMctx t x).mctx t = x := by simp [State.mctx, State.setMctx]
@[simp] theorem State.mctx_setMctx_ne (s : State) (t : Nat) (x : MatchCtx) (j : Nat) (h : j ≠ t) : (s.setMctx t x).mctx j = s.mctx j := by
  simp [State.mctx, State.setMctx, h]
@[simp] theorem State.aslot_setAslot (s : State) (t : Nat) (x : AmlSlot) : (s.setAslot t x).aslot t = x := by simp [State.aslot, State.setAslot]
@[simp] theorem State.aslot_setAslot_ne (s : State) (t : Nat) (x : AmlSlot) (j : Nat) (h : j ≠ t) : (s.setAslot t x).aslot j = s.aslot j := by
  simp [State.aslot, State.setAslot, h]
@[simp] theorem State.hrec_setHrec (s : State) (t : Nat) (x : ErrRec) : (s.setHrec t x).hrec t = x := by simp [State.hrec, State.setHrec]
@[simp] theorem State.hrec_setHrec_ne (s : State) (t : Nat) (x : ErrRec) (j : Nat) (h : j ≠ t) : (s.setHrec t x).hrec j = s.hrec j := by
  simp [State.hrec, State.setHrec, h]
@[simp] theorem State.thread_setFifo (s : State) (k : Nat) (x : Fifo) (j : Nat) : (s.setFifo k x).thread j = s.thread j := rfl
@[simp] theorem State.engine_setFifo (s : State) (k : Nat) (x : Fifo) (j : Nat) : (s.setFifo k x).engine j = s.engine j := rfl
@[simp] theorem State.cluster_setFifo (s : State) (k : Nat) (x : Fifo) (j : Nat) : (s.setFifo k x).cluster j = s.cluster j := rfl
@[simp] theorem State.op_setFifo (s : State) (k : Nat) (x : Fifo) (j : Nat) : (s.setFifo k x).op j = s.op j := rfl
@[simp] theorem State.port_setFifo (s : State) (k : Nat) (x : Fifo) (j : Nat) : (s.setFifo k x).port j = s.port j := rfl
@[simp] theorem State.func_setFifo (s : State) (k : Nat) (x : Fifo) (j : Nat) : (s.setFifo k x).func j = s.func j := rfl
@[simp] theorem State.att_setFifo (s : State) (k : Nat) (x : Fifo) (j : Nat) : (s.setFifo k x).att j = s.att j := rfl
@[simp] theorem State.queue_setFifo (s : State) (k : Nat) (x : Fifo) (j : Nat) : (s.setFifo k x).queue j = s.queue j := rfl
@[simp] theorem State.cq_setFifo (s : State) (k : Nat) (x : Fifo) (j : Nat) : (s.setFifo k x).cq j = s.cq j := rfl
@[simp] theorem State.half_setFifo (s : State) (k : Nat) (x : Fifo) (j : Nat) : (s.setFifo k x).half j = s.half j := rfl
@[simp] theorem State.coll_setFifo (s : State) (k : Nat) (x : Fifo) (j : Nat) : (s.setFifo k x).coll j = s.coll j := rfl
@[simp] theorem State.mctx_setFifo (s : State) (k : Nat) (x : Fifo) (j : Nat) : (s.setFifo k x).mctx j = s.mctx j := rfl
@[simp] theorem State.aslot_setFifo (s : State) (k : Nat) (x : Fifo) (j : Nat) : (s.setFifo k x).aslot j = s.aslot j := rfl
@[simp] theorem State.hrec_setFifo (s : State) (k : Nat) (x : Fifo) (j : Nat) : (s.setFifo k x).hrec j = s.hrec j := rfl
@[simp] theorem State.fifo_setThread (s : State) (t : Nat) (x : Thread) (j : Nat) : (s.setThread t x).fifo j = s.fifo j := rfl
@[simp] theorem State.engine_setThread (s : State) (t : Nat) (x : Thread) (j : Nat) : (s.setThread t x).engine j = s.engine j := rfl
@[simp] theorem State.cluster_setThread (s : State) (t : Nat) (x : Thread) (j : Nat) : (s.setThread t x).cluster j = s.cluster j := rfl
@[simp] theorem State.op_setThread (s : State) (t : Nat) (x : Thread) (j : Nat) : (s.setThread t x).op j = s.op j := rfl
@[simp] theorem State.port_setThread (s : State) (t : Nat) (x : Thread) (j : Nat) : (s.setThread t x).port j = s.port j := rfl
@[simp] theorem State.func_setThread (s : State) (t : Nat) (x : Thread) (j : Nat) : (s.setThread t x).func j = s.func j := rfl
@[simp] theorem State.att_setThread (s : State) (t : Nat) (x : Thread) (j : Nat) : (s.setThread t x).att j = s.att j := rfl
@[simp] theorem State.queue_setThread (s : State) (t : Nat) (x : Thread) (j : Nat) : (s.setThread t x).queue j = s.queue j := rfl
@[simp] theorem State.cq_setThread (s : State) (t : Nat) (x : Thread) (j : Nat) : (s.setThread t x).cq j = s.cq j := rfl
@[simp] theorem State.half_setThread (s : State) (t : Nat) (x : Thread) (j : Nat) : (s.setThread t x).half j = s.half j := rfl
@[simp] theorem State.coll_setThread (s : State) (t : Nat) (x : Thread) (j : Nat) : (s.setThread t x).coll j = s.coll j := rfl
@[simp] theorem State.mctx_setThread (s : State) (t : Nat) (x : Thread) (j : Nat) : (s.setThread t x).mctx j = s.mctx j := rfl
@[simp] theorem State.aslot_setThread (s : State) (t : Nat) (x : Thread) (j : Nat) : (s.setThread t x).aslot j = s.aslot j := rfl
@[simp] theorem State.hrec_setThread (s : State) (t : Nat) (x : Thread) (j : Nat) : (s.setThread t x).hrec j = s.hrec j := rfl
@[simp] theorem State.thread_setEngine (s : State) (g : Nat) (x : Engine) (j : Nat) : (s.setEngine g x).thread j = s.thread j := rfl
@[simp] theorem State.fifo_setEngine (s : State) (g : Nat) (x : Engine) (j : Nat) : (s.setEngine g x).fifo j = s.fifo j := rfl
@[simp] theorem State.cluster_setEngine (s : State) (g : Nat) (x : Engine) (j : Nat) : (s.setEngine g x).cluster j = s.cluster j := rfl
@[simp] theorem State.op_setEngine (s : State) (g : Nat) (x : Engine) (j : Nat) : (s.setEngine g x).op j = s.op j := rfl
@[simp] theorem State.port_setEngine (s : State) (g : Nat) (x : Engine) (j : Nat) : (s.setEngine g x).port j = s.port j := rfl
@[simp] theorem State.func_setEngine (s : State) (g : Nat) (x : Engine) (j : Nat) : (s.setEngine g x).func j = s.func j := rfl
@[simp] theorem State.att_setEngine (s : State) (g : Nat) (x : Engine) (j : Nat) : (s.setEngine g x).att j = s.att j := rfl
@[simp] theorem State.queue_setEngine (s : State) (g : Nat) (x : Engine) (j : Nat) : (s.setEngine g x).queue j = s.queue j := rfl
@[simp] theorem State.cq_setEngine (s : State) (g : Nat) (x : Engine) (j : Nat) : (s.setEngine g x).cq j = s.cq j := rfl
@[simp] theorem State.half_setEngine (s : State) (g : Nat) (x : Engine) (j : Nat) : (s.setEngine g x).half j = s.half j := rfl
@[simp] theorem State.coll_setEngine (s : State) (g : Nat) (x : Engine) (j : Nat) : (s.setEngine g x).coll j = s.coll j := rfl
@[simp] theorem State.mctx_setEngine (s : State) (g : Nat) (x : Engine) (j : Nat) : (s.setEngine g x).mctx j = s.mctx j := rfl
@[simp] theorem State.aslot_setEngine (s : State) (g : Nat) (x : Engine) (j : Nat) : (s.setEngine g x).aslot j = s.aslot j := rfl
@[simp] theorem State.hrec_setEngine (s : State) (g : Nat) (x : Engine) (j : Nat) : (s.setEngine g x).hrec j = s.hrec j := rfl
@[simp] theorem State.thread_setCluster (s : State) (c : Nat) (x : Cluster) (j : Nat) : (s.setCluster c x).thread j = s.thread j := rfl
@[simp] theorem State.fifo_setCluster (s : State) (c : Nat) (x : Cluster) (j : Nat) : (s.setCluster c x).fifo j = s.fifo j := rfl
@[simp] theorem State.engine_setCluster (s : State) (c : Nat) (x : Cluster) (j : Nat) : (s.setCluster c x).engine j = s.engine j := rfl
@[simp] theorem State.op_setCluster (s : State) (c : Nat) (x : Cluster) (j : Nat) : (s.setCluster c x).op j = s.op j := rfl
@[simp] theorem State.port_setCluster (s : State) (c : Nat) (x : Cluster) (j : Nat) : (s.setCluster c x).port j = s.port j := rfl
@[simp] theorem State.func_setCluster (s : State) (c : Nat) (x : Cluster) (j : Nat) : (s.setCluster c x).func j = s.func j := rfl
@[simp] theorem State.att_setCluster (s : State) (c : Nat) (x : Cluster) (j : Nat) : (s.setCluster c x).att j = s.att j := rfl
@[simp] theorem State.queue_setCluster (s : State) (c : Nat) (x : Cluster) (j : Nat) : (s.setCluster c x).queue j = s.queue j := rfl
@[simp] theorem State.cq_setCluster (s : State) (c : Nat) (x : Cluster) (j : Nat) : (s.setCluster c x).cq j = s.cq j := rfl
@[simp] theorem State.half_setCluster (s : State) (c : Nat) (x : Cluster) (j : Nat) : (s.setCluster c x).half j = s.half j := rfl
@[simp] theorem State.coll_setCluster (s : State) (c : Nat) (x : Cluster) (j : Nat) : (s.setCluster c x).coll j = s.coll j := rfl
@[simp] theorem State.mctx_setCluster (s : State) (c : Nat) (x : Cluster) (j : Nat) : (s.setCluster c x).mctx j = s.mctx j := rfl
@[simp] theorem State.aslot_setCluster (s : State) (c : Nat) (x : Cluster) (j : Nat) : (s.setCluster c x).aslot j = s.aslot j := rfl
@[simp] theorem State.hrec_setCluster (s : State) (c : Nat) (x : Cluster) (j : Nat) : (s.setCluster c x).hrec j = s.hrec j := rfl
@[simp] theorem State.thread_setOp (s : State) (k : Nat) (x : Op) (j : Nat) : (s.setOp k x).thread j = s.thread j := rfl
@[simp] theorem State.fifo_setOp (s : State) (k : Nat) (x : Op) (j : Nat) : (s.setOp k x).fifo j = s.fifo j := rfl
@[simp] theorem State.engine_setOp (s : State) (k : Nat) (x : Op) (j : Nat) : (s.setOp k x).engine j = s.engine j := rfl
@[simp] theorem State.cluster_setOp (s : State) (k : Nat) (x : Op) (j : Nat) : (s.setOp k x).cluster j = s.cluster j := rfl
@[simp] theorem State.port_setOp (s : State) (k : Nat) (x : Op) (j : Nat) : (s.setOp k x).port j = s.port j := rfl
@[simp] theorem State.func_setOp (s : State) (k : Nat) (x : Op) (j : Nat) : (s.setOp k x).func j = s.func j := rfl
@[simp] theorem State.att_setOp (s : State) (k : Nat) (x : Op) (j : Nat) : (s.setOp k x).att j = s.att j := rfl
@[simp] theorem State.queue_setOp (s : State) (k : Nat) (x : Op) (j : Nat) : (s.setOp k x).queue j = s.queue j := rfl
@[simp] theorem State.cq_setOp (s : State) (k : Nat) (x : Op) (j : Nat) : (s.setOp k x).cq j = s.cq j := rfl
@[simp] theorem State.half_setOp (s : State) (k : Nat) (x : Op) (j : Nat) : (s.setOp k x).half j = s.half j := rfl
@[simp] theorem State.coll_setOp (s : State) (k : Nat) (x : Op) (j : Nat) : (s.setOp k x).coll j = s.coll j := rfl
@[simp] theorem State.mctx_setOp (s : State) (k : Nat) (x : Op) (j : Nat) : (s.setOp k x).mctx j = s.mctx j := rfl
@[simp] theorem State.aslot_setOp (s : State) (k : Nat) (x : Op) (j : Nat) : (s.setOp k x).aslot j = s.aslot j := rfl
@[simp] theorem State.hrec_setOp (s : State) (k : Nat) (x : Op) (j : Nat) : (s.setOp k x).hrec j = s.hrec j := rfl
@[simp] theorem State.thread_setPort (s : State) (p : Nat) (x : Port) (j : Nat) : (s.setPort p x).thread j = s.thread j := rfl
@[simp] theorem State.fifo_setPort (s : State) (p : Nat) (x : Port) (j : Nat) : (s.setPort p x).fifo j = s.fifo j := rfl
@[simp] theorem State.engine_setPort (s : State) (p : Nat) (x : Port) (j : Nat) : (s.setPort p x).engine j = s.engine j := rfl
@[simp] theorem State.cluster_setPort (s : State) (p : Nat) (x : Port) (j : Nat) : (s.setPort p x).cluster j = s.cluster j := rfl
@[simp] theorem State.op_setPort (s : State) (p : Nat) (x : Port) (j : Nat) : (s.setPort p x).op j = s.op j := rfl
@[simp] theorem State.func_setPort (s : State) (p : Nat) (x : Port) (j : Nat) : (s.setPort p x).func j = s.func j := rfl
@[simp] theorem State.att_setPort (s : State) (p : Nat) (x : Port) (j : Nat) : (s.setPort p x).att j = s.att j := rfl
@[simp] theorem State.queue_setPort (s : State) (p : Nat) (x : Port) (j : Nat) : (s.setPort p x).queue j = s.queue j := rfl
@[simp] theorem State.cq_setPort (s : State) (p : Nat) (x : Port) (j : Nat) : (s.setPort p x).cq j = s.cq j := rfl
@[simp] theorem State.half_setPort (s : State) (p : Nat) (x : Port) (j : Nat) : (s.setPort p x).half j = s.half j := rfl
@[simp] theorem State.coll_setPort (s : State) (p : Nat) (x : Port) (j : Nat) : (s.setPort p x).coll j = s.coll j := rfl
@[simp] theorem State.mctx_setPort (s : State) (p : Nat) (x : Port) (j : Nat) : (s.setPort p x).mctx j = s.mctx j := rfl
@[simp] theorem State.aslot_setPort (s : State) (p : Nat) (x : Port) (j : Nat) : (s.setPort p x).aslot j = s.aslot j := rfl
@[simp] theorem State.hrec_setPort (s : State) (p : Nat) (x : Port) (j : Nat) : (s.setPort p x).hrec j = s.hrec j := rfl
@[simp] theorem State.thread_setLane (s : State) (p l : Nat) (x : Lane) (j : Nat) : (s.setLane p l x).thread j = s.thread j := rfl
@[simp] theorem State.fifo_setLane (s : State) (p l : Nat) (x : Lane) (j : Nat) : (s.setLane p l x).fifo j = s.fifo j := rfl
@[simp] theorem State.engine_setLane (s : State) (p l : Nat) (x : Lane) (j : Nat) : (s.setLane p l x).engine j = s.engine j := rfl
@[simp] theorem State.cluster_setLane (s : State) (p l : Nat) (x : Lane) (j : Nat) : (s.setLane p l x).cluster j = s.cluster j := rfl
@[simp] theorem State.op_setLane (s : State) (p l : Nat) (x : Lane) (j : Nat) : (s.setLane p l x).op j = s.op j := rfl
@[simp] theorem State.port_setLane (s : State) (p l : Nat) (x : Lane) (j : Nat) : (s.setLane p l x).port j = s.port j := rfl
@[simp] theorem State.func_setLane (s : State) (p l : Nat) (x : Lane) (j : Nat) : (s.setLane p l x).func j = s.func j := rfl
@[simp] theorem State.att_setLane (s : State) (p l : Nat) (x : Lane) (j : Nat) : (s.setLane p l x).att j = s.att j := rfl
@[simp] theorem State.queue_setLane (s : State) (p l : Nat) (x : Lane) (j : Nat) : (s.setLane p l x).queue j = s.queue j := rfl
@[simp] theorem State.cq_setLane (s : State) (p l : Nat) (x : Lane) (j : Nat) : (s.setLane p l x).cq j = s.cq j := rfl
@[simp] theorem State.half_setLane (s : State) (p l : Nat) (x : Lane) (j : Nat) : (s.setLane p l x).half j = s.half j := rfl
@[simp] theorem State.coll_setLane (s : State) (p l : Nat) (x : Lane) (j : Nat) : (s.setLane p l x).coll j = s.coll j := rfl
@[simp] theorem State.mctx_setLane (s : State) (p l : Nat) (x : Lane) (j : Nat) : (s.setLane p l x).mctx j = s.mctx j := rfl
@[simp] theorem State.aslot_setLane (s : State) (p l : Nat) (x : Lane) (j : Nat) : (s.setLane p l x).aslot j = s.aslot j := rfl
@[simp] theorem State.hrec_setLane (s : State) (p l : Nat) (x : Lane) (j : Nat) : (s.setLane p l x).hrec j = s.hrec j := rfl
@[simp] theorem State.thread_setLim (s : State) (k : Nat) (x : Lim) (j : Nat) : (s.setLim k x).thread j = s.thread j := rfl
@[simp] theorem State.fifo_setLim (s : State) (k : Nat) (x : Lim) (j : Nat) : (s.setLim k x).fifo j = s.fifo j := rfl
@[simp] theorem State.engine_setLim (s : State) (k : Nat) (x : Lim) (j : Nat) : (s.setLim k x).engine j = s.engine j := rfl
@[simp] theorem State.cluster_setLim (s : State) (k : Nat) (x : Lim) (j : Nat) : (s.setLim k x).cluster j = s.cluster j := rfl
@[simp] theorem State.op_setLim (s : State) (k : Nat) (x : Lim) (j : Nat) : (s.setLim k x).op j = s.op j := rfl
@[simp] theorem State.port_setLim (s : State) (k : Nat) (x : Lim) (j : Nat) : (s.setLim k x).port j = s.port j := rfl
@[simp] theorem State.func_setLim (s : State) (k : Nat) (x : Lim) (j : Nat) : (s.setLim k x).func j = s.func j := rfl
@[simp] theorem State.att_setLim (s : State) (k : Nat) (x : Lim) (j : Nat) : (s.setLim k x).att j = s.att j := rfl
@[simp] theorem State.queue_setLim (s : State) (k : Nat) (x : Lim) (j : Nat) : (s.setLim k x).queue j = s.queue j := rfl
@[simp] theorem State.cq_setLim (s : State) (k : Nat) (x : Lim) (j : Nat) : (s.setLim k x).cq j = s.cq j := rfl
@[simp] theorem State.half_setLim (s : State) (k : Nat) (x : Lim) (j : Nat) : (s.setLim k x).half j = s.half j := rfl
@[simp] theorem State.coll_setLim (s : State) (k : Nat) (x : Lim) (j : Nat) : (s.setLim k x).coll j = s.coll j := rfl
@[simp] theorem State.mctx_setLim (s : State) (k : Nat) (x : Lim) (j : Nat) : (s.setLim k x).mctx j = s.mctx j := rfl
@[simp] theorem State.aslot_setLim (s : State) (k : Nat) (x : Lim) (j : Nat) : (s.setLim k x).aslot j = s.aslot j := rfl
@[simp] theorem State.hrec_setLim (s : State) (k : Nat) (x : Lim) (j : Nat) : (s.setLim k x).hrec j = s.hrec j := rfl
@[simp] theorem State.thread_setFunc (s : State) (f : Nat) (x : Func) (j : Nat) : (s.setFunc f x).thread j = s.thread j := rfl
@[simp] theorem State.fifo_setFunc (s : State) (f : Nat) (x : Func) (j : Nat) : (s.setFunc f x).fifo j = s.fifo j := rfl
@[simp] theorem State.engine_setFunc (s : State) (f : Nat) (x : Func) (j : Nat) : (s.setFunc f x).engine j = s.engine j := rfl
@[simp] theorem State.cluster_setFunc (s : State) (f : Nat) (x : Func) (j : Nat) : (s.setFunc f x).cluster j = s.cluster j := rfl
@[simp] theorem State.op_setFunc (s : State) (f : Nat) (x : Func) (j : Nat) : (s.setFunc f x).op j = s.op j := rfl
@[simp] theorem State.port_setFunc (s : State) (f : Nat) (x : Func) (j : Nat) : (s.setFunc f x).port j = s.port j := rfl
@[simp] theorem State.att_setFunc (s : State) (f : Nat) (x : Func) (j : Nat) : (s.setFunc f x).att j = s.att j := rfl
@[simp] theorem State.queue_setFunc (s : State) (f : Nat) (x : Func) (j : Nat) : (s.setFunc f x).queue j = s.queue j := rfl
@[simp] theorem State.cq_setFunc (s : State) (f : Nat) (x : Func) (j : Nat) : (s.setFunc f x).cq j = s.cq j := rfl
@[simp] theorem State.half_setFunc (s : State) (f : Nat) (x : Func) (j : Nat) : (s.setFunc f x).half j = s.half j := rfl
@[simp] theorem State.coll_setFunc (s : State) (f : Nat) (x : Func) (j : Nat) : (s.setFunc f x).coll j = s.coll j := rfl
@[simp] theorem State.mctx_setFunc (s : State) (f : Nat) (x : Func) (j : Nat) : (s.setFunc f x).mctx j = s.mctx j := rfl
@[simp] theorem State.aslot_setFunc (s : State) (f : Nat) (x : Func) (j : Nat) : (s.setFunc f x).aslot j = s.aslot j := rfl
@[simp] theorem State.hrec_setFunc (s : State) (f : Nat) (x : Func) (j : Nat) : (s.setFunc f x).hrec j = s.hrec j := rfl
@[simp] theorem State.thread_setAtt (s : State) (a : Nat) (x : Attach) (j : Nat) : (s.setAtt a x).thread j = s.thread j := rfl
@[simp] theorem State.fifo_setAtt (s : State) (a : Nat) (x : Attach) (j : Nat) : (s.setAtt a x).fifo j = s.fifo j := rfl
@[simp] theorem State.engine_setAtt (s : State) (a : Nat) (x : Attach) (j : Nat) : (s.setAtt a x).engine j = s.engine j := rfl
@[simp] theorem State.cluster_setAtt (s : State) (a : Nat) (x : Attach) (j : Nat) : (s.setAtt a x).cluster j = s.cluster j := rfl
@[simp] theorem State.op_setAtt (s : State) (a : Nat) (x : Attach) (j : Nat) : (s.setAtt a x).op j = s.op j := rfl
@[simp] theorem State.port_setAtt (s : State) (a : Nat) (x : Attach) (j : Nat) : (s.setAtt a x).port j = s.port j := rfl
@[simp] theorem State.func_setAtt (s : State) (a : Nat) (x : Attach) (j : Nat) : (s.setAtt a x).func j = s.func j := rfl
@[simp] theorem State.queue_setAtt (s : State) (a : Nat) (x : Attach) (j : Nat) : (s.setAtt a x).queue j = s.queue j := rfl
@[simp] theorem State.cq_setAtt (s : State) (a : Nat) (x : Attach) (j : Nat) : (s.setAtt a x).cq j = s.cq j := rfl
@[simp] theorem State.half_setAtt (s : State) (a : Nat) (x : Attach) (j : Nat) : (s.setAtt a x).half j = s.half j := rfl
@[simp] theorem State.coll_setAtt (s : State) (a : Nat) (x : Attach) (j : Nat) : (s.setAtt a x).coll j = s.coll j := rfl
@[simp] theorem State.mctx_setAtt (s : State) (a : Nat) (x : Attach) (j : Nat) : (s.setAtt a x).mctx j = s.mctx j := rfl
@[simp] theorem State.aslot_setAtt (s : State) (a : Nat) (x : Attach) (j : Nat) : (s.setAtt a x).aslot j = s.aslot j := rfl
@[simp] theorem State.hrec_setAtt (s : State) (a : Nat) (x : Attach) (j : Nat) : (s.setAtt a x).hrec j = s.hrec j := rfl
@[simp] theorem State.thread_setInv (s : State) (f : Invar → Invar) (j : Nat) : (s.setInv f).thread j = s.thread j := rfl
@[simp] theorem State.fifo_setInv (s : State) (f : Invar → Invar) (j : Nat) : (s.setInv f).fifo j = s.fifo j := rfl
@[simp] theorem State.engine_setInv (s : State) (f : Invar → Invar) (j : Nat) : (s.setInv f).engine j = s.engine j := rfl
@[simp] theorem State.cluster_setInv (s : State) (f : Invar → Invar) (j : Nat) : (s.setInv f).cluster j = s.cluster j := rfl
@[simp] theorem State.op_setInv (s : State) (f : Invar → Invar) (j : Nat) : (s.setInv f).op j = s.op j := rfl
@[simp] theorem State.port_setInv (s : State) (f : Invar → Invar) (j : Nat) : (s.setInv f).port j = s.port j := rfl
@[simp] theorem State.func_setInv (s : State) (f : Invar → Invar) (j : Nat) : (s.setInv f).func j = s.func j := rfl
@[simp] theorem State.att_setInv (s : State) (f : Invar → Invar) (j : Nat) : (s.setInv f).att j = s.att j := rfl
@[simp] theorem State.queue_setInv (s : State) (f : Invar → Invar) (j : Nat) : (s.setInv f).queue j = s.queue j := rfl
@[simp] theorem State.cq_setInv (s : State) (f : Invar → Invar) (j : Nat) : (s.setInv f).cq j = s.cq j := rfl
@[simp] theorem State.half_setInv (s : State) (f : Invar → Invar) (j : Nat) : (s.setInv f).half j = s.half j := rfl
@[simp] theorem State.coll_setInv (s : State) (f : Invar → Invar) (j : Nat) : (s.setInv f).coll j = s.coll j := rfl
@[simp] theorem State.mctx_setInv (s : State) (f : Invar → Invar) (j : Nat) : (s.setInv f).mctx j = s.mctx j := rfl
@[simp] theorem State.aslot_setInv (s : State) (f : Invar → Invar) (j : Nat) : (s.setInv f).aslot j = s.aslot j := rfl
@[simp] theorem State.hrec_setInv (s : State) (f : Invar → Invar) (j : Nat) : (s.setInv f).hrec j = s.hrec j := rfl
@[simp] theorem State.thread_setQueue (s : State) (q : Nat) (x : Queue) (j : Nat) : (s.setQueue q x).thread j = s.thread j := rfl
@[simp] theorem State.fifo_setQueue (s : State) (q : Nat) (x : Queue) (j : Nat) : (s.setQueue q x).fifo j = s.fifo j := rfl
@[simp] theorem State.engine_setQueue (s : State) (q : Nat) (x : Queue) (j : Nat) : (s.setQueue q x).engine j = s.engine j := rfl
@[simp] theorem State.cluster_setQueue (s : State) (q : Nat) (x : Queue) (j : Nat) : (s.setQueue q x).cluster j = s.cluster j := rfl
@[simp] theorem State.op_setQueue (s : State) (q : Nat) (x : Queue) (j : Nat) : (s.setQueue q x).op j = s.op j := rfl
@[simp] theorem State.port_setQueue (s : State) (q : Nat) (x : Queue) (j : Nat) : (s.setQueue q x).port j = s.port j := rfl
@[simp] theorem State.func_setQueue (s : State) (q : Nat) (x : Queue) (j : Nat) : (s.setQueue q x).func j = s.func j := rfl
@[simp] theorem State.att_setQueue (s : State) (q : Nat) (x : Queue) (j : Nat) : (s.setQueue q x).att j = s.att j := rfl
@[simp] theorem State.cq_setQueue (s : State) (q : Nat) (x : Queue) (j : Nat) : (s.setQueue q x).cq j = s.cq j := rfl
@[simp] theorem State.half_setQueue (s : State) (q : Nat) (x : Queue) (j : Nat) : (s.setQueue q x).half j = s.half j := rfl
@[simp] theorem State.coll_setQueue (s : State) (q : Nat) (x : Queue) (j : Nat) : (s.setQueue q x).coll j = s.coll j := rfl
@[simp] theorem State.mctx_setQueue (s : State) (q : Nat) (x : Queue) (j : Nat) : (s.setQueue q x).mctx j = s.mctx j := rfl
@[simp] theorem State.aslot_setQueue (s : State) (q : Nat) (x : Queue) (j : Nat) : (s.setQueue q x).aslot j = s.aslot j := rfl
@[simp] theorem State.hrec_setQueue (s : State) (q : Nat) (x : Queue) (j : Nat) : (s.setQueue q x).hrec j = s.hrec j := rfl
@[simp] theorem State.thread_setCq (s : State) (q : Nat) (x : Cq) (j : Nat) : (s.setCq q x).thread j = s.thread j := rfl
@[simp] theorem State.fifo_setCq (s : State) (q : Nat) (x : Cq) (j : Nat) : (s.setCq q x).fifo j = s.fifo j := rfl
@[simp] theorem State.engine_setCq (s : State) (q : Nat) (x : Cq) (j : Nat) : (s.setCq q x).engine j = s.engine j := rfl
@[simp] theorem State.cluster_setCq (s : State) (q : Nat) (x : Cq) (j : Nat) : (s.setCq q x).cluster j = s.cluster j := rfl
@[simp] theorem State.op_setCq (s : State) (q : Nat) (x : Cq) (j : Nat) : (s.setCq q x).op j = s.op j := rfl
@[simp] theorem State.port_setCq (s : State) (q : Nat) (x : Cq) (j : Nat) : (s.setCq q x).port j = s.port j := rfl
@[simp] theorem State.func_setCq (s : State) (q : Nat) (x : Cq) (j : Nat) : (s.setCq q x).func j = s.func j := rfl
@[simp] theorem State.att_setCq (s : State) (q : Nat) (x : Cq) (j : Nat) : (s.setCq q x).att j = s.att j := rfl
@[simp] theorem State.queue_setCq (s : State) (q : Nat) (x : Cq) (j : Nat) : (s.setCq q x).queue j = s.queue j := rfl
@[simp] theorem State.half_setCq (s : State) (q : Nat) (x : Cq) (j : Nat) : (s.setCq q x).half j = s.half j := rfl
@[simp] theorem State.coll_setCq (s : State) (q : Nat) (x : Cq) (j : Nat) : (s.setCq q x).coll j = s.coll j := rfl
@[simp] theorem State.mctx_setCq (s : State) (q : Nat) (x : Cq) (j : Nat) : (s.setCq q x).mctx j = s.mctx j := rfl
@[simp] theorem State.aslot_setCq (s : State) (q : Nat) (x : Cq) (j : Nat) : (s.setCq q x).aslot j = s.aslot j := rfl
@[simp] theorem State.hrec_setCq (s : State) (q : Nat) (x : Cq) (j : Nat) : (s.setCq q x).hrec j = s.hrec j := rfl
@[simp] theorem State.thread_setHalf (s : State) (r : Nat) (x : Half) (j : Nat) : (s.setHalf r x).thread j = s.thread j := rfl
@[simp] theorem State.fifo_setHalf (s : State) (r : Nat) (x : Half) (j : Nat) : (s.setHalf r x).fifo j = s.fifo j := rfl
@[simp] theorem State.engine_setHalf (s : State) (r : Nat) (x : Half) (j : Nat) : (s.setHalf r x).engine j = s.engine j := rfl
@[simp] theorem State.cluster_setHalf (s : State) (r : Nat) (x : Half) (j : Nat) : (s.setHalf r x).cluster j = s.cluster j := rfl
@[simp] theorem State.op_setHalf (s : State) (r : Nat) (x : Half) (j : Nat) : (s.setHalf r x).op j = s.op j := rfl
@[simp] theorem State.port_setHalf (s : State) (r : Nat) (x : Half) (j : Nat) : (s.setHalf r x).port j = s.port j := rfl
@[simp] theorem State.func_setHalf (s : State) (r : Nat) (x : Half) (j : Nat) : (s.setHalf r x).func j = s.func j := rfl
@[simp] theorem State.att_setHalf (s : State) (r : Nat) (x : Half) (j : Nat) : (s.setHalf r x).att j = s.att j := rfl
@[simp] theorem State.queue_setHalf (s : State) (r : Nat) (x : Half) (j : Nat) : (s.setHalf r x).queue j = s.queue j := rfl
@[simp] theorem State.cq_setHalf (s : State) (r : Nat) (x : Half) (j : Nat) : (s.setHalf r x).cq j = s.cq j := rfl
@[simp] theorem State.coll_setHalf (s : State) (r : Nat) (x : Half) (j : Nat) : (s.setHalf r x).coll j = s.coll j := rfl
@[simp] theorem State.mctx_setHalf (s : State) (r : Nat) (x : Half) (j : Nat) : (s.setHalf r x).mctx j = s.mctx j := rfl
@[simp] theorem State.aslot_setHalf (s : State) (r : Nat) (x : Half) (j : Nat) : (s.setHalf r x).aslot j = s.aslot j := rfl
@[simp] theorem State.hrec_setHalf (s : State) (r : Nat) (x : Half) (j : Nat) : (s.setHalf r x).hrec j = s.hrec j := rfl
@[simp] theorem State.thread_setColl (s : State) (i : Nat) (x : Option Coll) (j : Nat) : (s.setColl i x).thread j = s.thread j := rfl
@[simp] theorem State.fifo_setColl (s : State) (i : Nat) (x : Option Coll) (j : Nat) : (s.setColl i x).fifo j = s.fifo j := rfl
@[simp] theorem State.engine_setColl (s : State) (i : Nat) (x : Option Coll) (j : Nat) : (s.setColl i x).engine j = s.engine j := rfl
@[simp] theorem State.cluster_setColl (s : State) (i : Nat) (x : Option Coll) (j : Nat) : (s.setColl i x).cluster j = s.cluster j := rfl
@[simp] theorem State.op_setColl (s : State) (i : Nat) (x : Option Coll) (j : Nat) : (s.setColl i x).op j = s.op j := rfl
@[simp] theorem State.port_setColl (s : State) (i : Nat) (x : Option Coll) (j : Nat) : (s.setColl i x).port j = s.port j := rfl
@[simp] theorem State.func_setColl (s : State) (i : Nat) (x : Option Coll) (j : Nat) : (s.setColl i x).func j = s.func j := rfl
@[simp] theorem State.att_setColl (s : State) (i : Nat) (x : Option Coll) (j : Nat) : (s.setColl i x).att j = s.att j := rfl
@[simp] theorem State.queue_setColl (s : State) (i : Nat) (x : Option Coll) (j : Nat) : (s.setColl i x).queue j = s.queue j := rfl
@[simp] theorem State.cq_setColl (s : State) (i : Nat) (x : Option Coll) (j : Nat) : (s.setColl i x).cq j = s.cq j := rfl
@[simp] theorem State.half_setColl (s : State) (i : Nat) (x : Option Coll) (j : Nat) : (s.setColl i x).half j = s.half j := rfl
@[simp] theorem State.mctx_setColl (s : State) (i : Nat) (x : Option Coll) (j : Nat) : (s.setColl i x).mctx j = s.mctx j := rfl
@[simp] theorem State.aslot_setColl (s : State) (i : Nat) (x : Option Coll) (j : Nat) : (s.setColl i x).aslot j = s.aslot j := rfl
@[simp] theorem State.hrec_setColl (s : State) (i : Nat) (x : Option Coll) (j : Nat) : (s.setColl i x).hrec j = s.hrec j := rfl
@[simp] theorem State.thread_setMctx (s : State) (i : Nat) (x : MatchCtx) (j : Nat) : (s.setMctx i x).thread j = s.thread j := rfl
@[simp] theorem State.fifo_setMctx (s : State) (i : Nat) (x : MatchCtx) (j : Nat) : (s.setMctx i x).fifo j = s.fifo j := rfl
@[simp] theorem State.engine_setMctx (s : State) (i : Nat) (x : MatchCtx) (j : Nat) : (s.setMctx i x).engine j = s.engine j := rfl
@[simp] theorem State.cluster_setMctx (s : State) (i : Nat) (x : MatchCtx) (j : Nat) : (s.setMctx i x).cluster j = s.cluster j := rfl
@[simp] theorem State.op_setMctx (s : State) (i : Nat) (x : MatchCtx) (j : Nat) : (s.setMctx i x).op j = s.op j := rfl
@[simp] theorem State.port_setMctx (s : State) (i : Nat) (x : MatchCtx) (j : Nat) : (s.setMctx i x).port j = s.port j := rfl
@[simp] theorem State.func_setMctx (s : State) (i : Nat) (x : MatchCtx) (j : Nat) : (s.setMctx i x).func j = s.func j := rfl
@[simp] theorem State.att_setMctx (s : State) (i : Nat) (x : MatchCtx) (j : Nat) : (s.setMctx i x).att j = s.att j := rfl
@[simp] theorem State.queue_setMctx (s : State) (i : Nat) (x : MatchCtx) (j : Nat) : (s.setMctx i x).queue j = s.queue j := rfl
@[simp] theorem State.cq_setMctx (s : State) (i : Nat) (x : MatchCtx) (j : Nat) : (s.setMctx i x).cq j = s.cq j := rfl
@[simp] theorem State.half_setMctx (s : State) (i : Nat) (x : MatchCtx) (j : Nat) : (s.setMctx i x).half j = s.half j := rfl
@[simp] theorem State.coll_setMctx (s : State) (i : Nat) (x : MatchCtx) (j : Nat) : (s.setMctx i x).coll j = s.coll j := rfl
@[simp] theorem State.aslot_setMctx (s : State) (i : Nat) (x : MatchCtx) (j : Nat) : (s.setMctx i x).aslot j = s.aslot j := rfl
@[simp] theorem State.hrec_setMctx (s : State) (i : Nat) (x : MatchCtx) (j : Nat) : (s.setMctx i x).hrec j = s.hrec j := rfl
@[simp] theorem State.thread_setAslot (s : State) (k : Nat) (x : AmlSlot) (j : Nat) : (s.setAslot k x).thread j = s.thread j := rfl
@[simp] theorem State.fifo_setAslot (s : State) (k : Nat) (x : AmlSlot) (j : Nat) : (s.setAslot k x).fifo j = s.fifo j := rfl
@[simp] theorem State.engine_setAslot (s : State) (k : Nat) (x : AmlSlot) (j : Nat) : (s.setAslot k x).engine j = s.engine j := rfl
@[simp] theorem State.cluster_setAslot (s : State) (k : Nat) (x : AmlSlot) (j : Nat) : (s.setAslot k x).cluster j = s.cluster j := rfl
@[simp] theorem State.op_setAslot (s : State) (k : Nat) (x : AmlSlot) (j : Nat) : (s.setAslot k x).op j = s.op j := rfl
@[simp] theorem State.port_setAslot (s : State) (k : Nat) (x : AmlSlot) (j : Nat) : (s.setAslot k x).port j = s.port j := rfl
@[simp] theorem State.func_setAslot (s : State) (k : Nat) (x : AmlSlot) (j : Nat) : (s.setAslot k x).func j = s.func j := rfl
@[simp] theorem State.att_setAslot (s : State) (k : Nat) (x : AmlSlot) (j : Nat) : (s.setAslot k x).att j = s.att j := rfl
@[simp] theorem State.queue_setAslot (s : State) (k : Nat) (x : AmlSlot) (j : Nat) : (s.setAslot k x).queue j = s.queue j := rfl
@[simp] theorem State.cq_setAslot (s : State) (k : Nat) (x : AmlSlot) (j : Nat) : (s.setAslot k x).cq j = s.cq j := rfl
@[simp] theorem State.half_setAslot (s : State) (k : Nat) (x : AmlSlot) (j : Nat) : (s.setAslot k x).half j = s.half j := rfl
@[simp] theorem State.coll_setAslot (s : State) (k : Nat) (x : AmlSlot) (j : Nat) : (s.setAslot k x).coll j = s.coll j := rfl
@[simp] theorem State.mctx_setAslot (s : State) (k : Nat) (x : AmlSlot) (j : Nat) : (s.setAslot k x).mctx j = s.mctx j := rfl
@[simp] theorem State.hrec_setAslot (s : State) (k : Nat) (x : AmlSlot) (j : Nat) : (s.setAslot k x).hrec j = s.hrec j := rfl
@[simp] theorem State.thread_setHrec (s : State) (i : Nat) (x : ErrRec) (j : Nat) : (s.setHrec i x).thread j = s.thread j := rfl
@[simp] theorem State.fifo_setHrec (s : State) (i : Nat) (x : ErrRec) (j : Nat) : (s.setHrec i x).fifo j = s.fifo j := rfl
@[simp] theorem State.engine_setHrec (s : State) (i : Nat) (x : ErrRec) (j : Nat) : (s.setHrec i x).engine j = s.engine j := rfl
@[simp] theorem State.cluster_setHrec (s : State) (i : Nat) (x : ErrRec) (j : Nat) : (s.setHrec i x).cluster j = s.cluster j := rfl
@[simp] theorem State.op_setHrec (s : State) (i : Nat) (x : ErrRec) (j : Nat) : (s.setHrec i x).op j = s.op j := rfl
@[simp] theorem State.port_setHrec (s : State) (i : Nat) (x : ErrRec) (j : Nat) : (s.setHrec i x).port j = s.port j := rfl
@[simp] theorem State.func_setHrec (s : State) (i : Nat) (x : ErrRec) (j : Nat) : (s.setHrec i x).func j = s.func j := rfl
@[simp] theorem State.att_setHrec (s : State) (i : Nat) (x : ErrRec) (j : Nat) : (s.setHrec i x).att j = s.att j := rfl
@[simp] theorem State.queue_setHrec (s : State) (i : Nat) (x : ErrRec) (j : Nat) : (s.setHrec i x).queue j = s.queue j := rfl
@[simp] theorem State.cq_setHrec (s : State) (i : Nat) (x : ErrRec) (j : Nat) : (s.setHrec i x).cq j = s.cq j := rfl
@[simp] theorem State.half_setHrec (s : State) (i : Nat) (x : ErrRec) (j : Nat) : (s.setHrec i x).half j = s.half j := rfl
@[simp] theorem State.coll_setHrec (s : State) (i : Nat) (x : ErrRec) (j : Nat) : (s.setHrec i x).coll j = s.coll j := rfl
@[simp] theorem State.mctx_setHrec (s : State) (i : Nat) (x : ErrRec) (j : Nat) : (s.setHrec i x).mctx j = s.mctx j := rfl
@[simp] theorem State.aslot_setHrec (s : State) (i : Nat) (x : ErrRec) (j : Nat) : (s.setHrec i x).aslot j = s.aslot j := rfl
@[simp] theorem State.thread_setLife (s : State) (l : Life) (j : Nat) : (s.setLife l).thread j = s.thread j := rfl
@[simp] theorem State.fifo_setLife (s : State) (l : Life) (j : Nat) : (s.setLife l).fifo j = s.fifo j := rfl
@[simp] theorem State.engine_setLife (s : State) (l : Life) (j : Nat) : (s.setLife l).engine j = s.engine j := rfl
@[simp] theorem State.cluster_setLife (s : State) (l : Life) (j : Nat) : (s.setLife l).cluster j = s.cluster j := rfl
@[simp] theorem State.op_setLife (s : State) (l : Life) (j : Nat) : (s.setLife l).op j = s.op j := rfl
@[simp] theorem State.port_setLife (s : State) (l : Life) (j : Nat) : (s.setLife l).port j = s.port j := rfl
@[simp] theorem State.func_setLife (s : State) (l : Life) (j : Nat) : (s.setLife l).func j = s.func j := rfl
@[simp] theorem State.att_setLife (s : State) (l : Life) (j : Nat) : (s.setLife l).att j = s.att j := rfl
@[simp] theorem State.queue_setLife (s : State) (l : Life) (j : Nat) : (s.setLife l).queue j = s.queue j := rfl
@[simp] theorem State.cq_setLife (s : State) (l : Life) (j : Nat) : (s.setLife l).cq j = s.cq j := rfl
@[simp] theorem State.half_setLife (s : State) (l : Life) (j : Nat) : (s.setLife l).half j = s.half j := rfl
@[simp] theorem State.coll_setLife (s : State) (l : Life) (j : Nat) : (s.setLife l).coll j = s.coll j := rfl
@[simp] theorem State.mctx_setLife (s : State) (l : Life) (j : Nat) : (s.setLife l).mctx j = s.mctx j := rfl
@[simp] theorem State.aslot_setLife (s : State) (l : Life) (j : Nat) : (s.setLife l).aslot j = s.aslot j := rfl
@[simp] theorem State.hrec_setLife (s : State) (l : Life) (j : Nat) : (s.setLife l).hrec j = s.hrec j := rfl
@[simp] theorem State.thread_setMon (s : State) (m : Monitors) (j : Nat) : (s.setMon m).thread j = s.thread j := rfl
@[simp] theorem State.fifo_setMon (s : State) (m : Monitors) (j : Nat) : (s.setMon m).fifo j = s.fifo j := rfl
@[simp] theorem State.engine_setMon (s : State) (m : Monitors) (j : Nat) : (s.setMon m).engine j = s.engine j := rfl
@[simp] theorem State.cluster_setMon (s : State) (m : Monitors) (j : Nat) : (s.setMon m).cluster j = s.cluster j := rfl
@[simp] theorem State.op_setMon (s : State) (m : Monitors) (j : Nat) : (s.setMon m).op j = s.op j := rfl
@[simp] theorem State.port_setMon (s : State) (m : Monitors) (j : Nat) : (s.setMon m).port j = s.port j := rfl
@[simp] theorem State.func_setMon (s : State) (m : Monitors) (j : Nat) : (s.setMon m).func j = s.func j := rfl
@[simp] theorem State.att_setMon (s : State) (m : Monitors) (j : Nat) : (s.setMon m).att j = s.att j := rfl
@[simp] theorem State.queue_setMon (s : State) (m : Monitors) (j : Nat) : (s.setMon m).queue j = s.queue j := rfl
@[simp] theorem State.cq_setMon (s : State) (m : Monitors) (j : Nat) : (s.setMon m).cq j = s.cq j := rfl
@[simp] theorem State.half_setMon (s : State) (m : Monitors) (j : Nat) : (s.setMon m).half j = s.half j := rfl
@[simp] theorem State.coll_setMon (s : State) (m : Monitors) (j : Nat) : (s.setMon m).coll j = s.coll j := rfl
@[simp] theorem State.mctx_setMon (s : State) (m : Monitors) (j : Nat) : (s.setMon m).mctx j = s.mctx j := rfl
@[simp] theorem State.aslot_setMon (s : State) (m : Monitors) (j : Nat) : (s.setMon m).aslot j = s.aslot j := rfl
@[simp] theorem State.hrec_setMon (s : State) (m : Monitors) (j : Nat) : (s.setMon m).hrec j = s.hrec j := rfl
@[simp] theorem State.thread_wr (s : State) (r : RegDesc) (ix : List Nat) (v : Word) (j : Nat) : (s.wr r ix v).thread j = s.thread j := rfl
@[simp] theorem State.fifo_wr (s : State) (r : RegDesc) (ix : List Nat) (v : Word) (j : Nat) : (s.wr r ix v).fifo j = s.fifo j := rfl
@[simp] theorem State.engine_wr (s : State) (r : RegDesc) (ix : List Nat) (v : Word) (j : Nat) : (s.wr r ix v).engine j = s.engine j := rfl
@[simp] theorem State.cluster_wr (s : State) (r : RegDesc) (ix : List Nat) (v : Word) (j : Nat) : (s.wr r ix v).cluster j = s.cluster j := rfl
@[simp] theorem State.op_wr (s : State) (r : RegDesc) (ix : List Nat) (v : Word) (j : Nat) : (s.wr r ix v).op j = s.op j := rfl
@[simp] theorem State.port_wr (s : State) (r : RegDesc) (ix : List Nat) (v : Word) (j : Nat) : (s.wr r ix v).port j = s.port j := rfl
@[simp] theorem State.func_wr (s : State) (r : RegDesc) (ix : List Nat) (v : Word) (j : Nat) : (s.wr r ix v).func j = s.func j := rfl
@[simp] theorem State.att_wr (s : State) (r : RegDesc) (ix : List Nat) (v : Word) (j : Nat) : (s.wr r ix v).att j = s.att j := rfl
@[simp] theorem State.queue_wr (s : State) (r : RegDesc) (ix : List Nat) (v : Word) (j : Nat) : (s.wr r ix v).queue j = s.queue j := rfl
@[simp] theorem State.cq_wr (s : State) (r : RegDesc) (ix : List Nat) (v : Word) (j : Nat) : (s.wr r ix v).cq j = s.cq j := rfl
@[simp] theorem State.half_wr (s : State) (r : RegDesc) (ix : List Nat) (v : Word) (j : Nat) : (s.wr r ix v).half j = s.half j := rfl
@[simp] theorem State.coll_wr (s : State) (r : RegDesc) (ix : List Nat) (v : Word) (j : Nat) : (s.wr r ix v).coll j = s.coll j := rfl
@[simp] theorem State.mctx_wr (s : State) (r : RegDesc) (ix : List Nat) (v : Word) (j : Nat) : (s.wr r ix v).mctx j = s.mctx j := rfl
@[simp] theorem State.aslot_wr (s : State) (r : RegDesc) (ix : List Nat) (v : Word) (j : Nat) : (s.wr r ix v).aslot j = s.aslot j := rfl
@[simp] theorem State.hrec_wr (s : State) (r : RegDesc) (ix : List Nat) (v : Word) (j : Nat) : (s.wr r ix v).hrec j = s.hrec j := rfl
@[simp] theorem State.thread_emit (s : State) (e : Emit) (j : Nat) : (s.emit e).thread j = s.thread j := rfl
@[simp] theorem State.fifo_emit (s : State) (e : Emit) (j : Nat) : (s.emit e).fifo j = s.fifo j := rfl
@[simp] theorem State.engine_emit (s : State) (e : Emit) (j : Nat) : (s.emit e).engine j = s.engine j := rfl
@[simp] theorem State.cluster_emit (s : State) (e : Emit) (j : Nat) : (s.emit e).cluster j = s.cluster j := rfl
@[simp] theorem State.op_emit (s : State) (e : Emit) (j : Nat) : (s.emit e).op j = s.op j := rfl
@[simp] theorem State.port_emit (s : State) (e : Emit) (j : Nat) : (s.emit e).port j = s.port j := rfl
@[simp] theorem State.func_emit (s : State) (e : Emit) (j : Nat) : (s.emit e).func j = s.func j := rfl
@[simp] theorem State.att_emit (s : State) (e : Emit) (j : Nat) : (s.emit e).att j = s.att j := rfl
@[simp] theorem State.queue_emit (s : State) (e : Emit) (j : Nat) : (s.emit e).queue j = s.queue j := rfl
@[simp] theorem State.cq_emit (s : State) (e : Emit) (j : Nat) : (s.emit e).cq j = s.cq j := rfl
@[simp] theorem State.half_emit (s : State) (e : Emit) (j : Nat) : (s.emit e).half j = s.half j := rfl
@[simp] theorem State.coll_emit (s : State) (e : Emit) (j : Nat) : (s.emit e).coll j = s.coll j := rfl
@[simp] theorem State.mctx_emit (s : State) (e : Emit) (j : Nat) : (s.emit e).mctx j = s.mctx j := rfl
@[simp] theorem State.aslot_emit (s : State) (e : Emit) (j : Nat) : (s.emit e).aslot j = s.aslot j := rfl
@[simp] theorem State.hrec_emit (s : State) (e : Emit) (j : Nat) : (s.emit e).hrec j = s.hrec j := rfl
@[simp] theorem State.thread_emits (s : State) (es : List Emit) (j : Nat) : (s.emits es).thread j = s.thread j := rfl
@[simp] theorem State.fifo_emits (s : State) (es : List Emit) (j : Nat) : (s.emits es).fifo j = s.fifo j := rfl
@[simp] theorem State.engine_emits (s : State) (es : List Emit) (j : Nat) : (s.emits es).engine j = s.engine j := rfl
@[simp] theorem State.cluster_emits (s : State) (es : List Emit) (j : Nat) : (s.emits es).cluster j = s.cluster j := rfl
@[simp] theorem State.op_emits (s : State) (es : List Emit) (j : Nat) : (s.emits es).op j = s.op j := rfl
@[simp] theorem State.port_emits (s : State) (es : List Emit) (j : Nat) : (s.emits es).port j = s.port j := rfl
@[simp] theorem State.func_emits (s : State) (es : List Emit) (j : Nat) : (s.emits es).func j = s.func j := rfl
@[simp] theorem State.att_emits (s : State) (es : List Emit) (j : Nat) : (s.emits es).att j = s.att j := rfl
@[simp] theorem State.queue_emits (s : State) (es : List Emit) (j : Nat) : (s.emits es).queue j = s.queue j := rfl
@[simp] theorem State.cq_emits (s : State) (es : List Emit) (j : Nat) : (s.emits es).cq j = s.cq j := rfl
@[simp] theorem State.half_emits (s : State) (es : List Emit) (j : Nat) : (s.emits es).half j = s.half j := rfl
@[simp] theorem State.coll_emits (s : State) (es : List Emit) (j : Nat) : (s.emits es).coll j = s.coll j := rfl
@[simp] theorem State.mctx_emits (s : State) (es : List Emit) (j : Nat) : (s.emits es).mctx j = s.mctx j := rfl
@[simp] theorem State.aslot_emits (s : State) (es : List Emit) (j : Nat) : (s.emits es).aslot j = s.aslot j := rfl
@[simp] theorem State.hrec_emits (s : State) (es : List Emit) (j : Nat) : (s.emits es).hrec j = s.hrec j := rfl
@[simp] theorem State.thread_mwrite (s : State) (k : Nat) (bs : List Byte) (j : Nat) : (s.mwrite k bs).thread j = s.thread j := rfl
@[simp] theorem State.fifo_mwrite (s : State) (k : Nat) (bs : List Byte) (j : Nat) : (s.mwrite k bs).fifo j = s.fifo j := rfl
@[simp] theorem State.engine_mwrite (s : State) (k : Nat) (bs : List Byte) (j : Nat) : (s.mwrite k bs).engine j = s.engine j := rfl
@[simp] theorem State.cluster_mwrite (s : State) (k : Nat) (bs : List Byte) (j : Nat) : (s.mwrite k bs).cluster j = s.cluster j := rfl
@[simp] theorem State.op_mwrite (s : State) (k : Nat) (bs : List Byte) (j : Nat) : (s.mwrite k bs).op j = s.op j := rfl
@[simp] theorem State.port_mwrite (s : State) (k : Nat) (bs : List Byte) (j : Nat) : (s.mwrite k bs).port j = s.port j := rfl
@[simp] theorem State.func_mwrite (s : State) (k : Nat) (bs : List Byte) (j : Nat) : (s.mwrite k bs).func j = s.func j := rfl
@[simp] theorem State.att_mwrite (s : State) (k : Nat) (bs : List Byte) (j : Nat) : (s.mwrite k bs).att j = s.att j := rfl
@[simp] theorem State.queue_mwrite (s : State) (k : Nat) (bs : List Byte) (j : Nat) : (s.mwrite k bs).queue j = s.queue j := rfl
@[simp] theorem State.cq_mwrite (s : State) (k : Nat) (bs : List Byte) (j : Nat) : (s.mwrite k bs).cq j = s.cq j := rfl
@[simp] theorem State.half_mwrite (s : State) (k : Nat) (bs : List Byte) (j : Nat) : (s.mwrite k bs).half j = s.half j := rfl
@[simp] theorem State.coll_mwrite (s : State) (k : Nat) (bs : List Byte) (j : Nat) : (s.mwrite k bs).coll j = s.coll j := rfl
@[simp] theorem State.mctx_mwrite (s : State) (k : Nat) (bs : List Byte) (j : Nat) : (s.mwrite k bs).mctx j = s.mctx j := rfl
@[simp] theorem State.aslot_mwrite (s : State) (k : Nat) (bs : List Byte) (j : Nat) : (s.mwrite k bs).aslot j = s.aslot j := rfl
@[simp] theorem State.hrec_mwrite (s : State) (k : Nat) (bs : List Byte) (j : Nat) : (s.mwrite k bs).hrec j = s.hrec j := rfl
@[simp] theorem State.thread_spoil (s : State) (k : Nat) (j : Nat) : (s.spoil k).thread j = s.thread j := rfl
@[simp] theorem State.fifo_spoil (s : State) (k : Nat) (j : Nat) : (s.spoil k).fifo j = s.fifo j := rfl
@[simp] theorem State.engine_spoil (s : State) (k : Nat) (j : Nat) : (s.spoil k).engine j = s.engine j := rfl
@[simp] theorem State.cluster_spoil (s : State) (k : Nat) (j : Nat) : (s.spoil k).cluster j = s.cluster j := rfl
@[simp] theorem State.op_spoil (s : State) (k : Nat) (j : Nat) : (s.spoil k).op j = s.op j := rfl
@[simp] theorem State.port_spoil (s : State) (k : Nat) (j : Nat) : (s.spoil k).port j = s.port j := rfl
@[simp] theorem State.func_spoil (s : State) (k : Nat) (j : Nat) : (s.spoil k).func j = s.func j := rfl
@[simp] theorem State.att_spoil (s : State) (k : Nat) (j : Nat) : (s.spoil k).att j = s.att j := rfl
@[simp] theorem State.queue_spoil (s : State) (k : Nat) (j : Nat) : (s.spoil k).queue j = s.queue j := rfl
@[simp] theorem State.cq_spoil (s : State) (k : Nat) (j : Nat) : (s.spoil k).cq j = s.cq j := rfl
@[simp] theorem State.half_spoil (s : State) (k : Nat) (j : Nat) : (s.spoil k).half j = s.half j := rfl
@[simp] theorem State.coll_spoil (s : State) (k : Nat) (j : Nat) : (s.spoil k).coll j = s.coll j := rfl
@[simp] theorem State.mctx_spoil (s : State) (k : Nat) (j : Nat) : (s.spoil k).mctx j = s.mctx j := rfl
@[simp] theorem State.aslot_spoil (s : State) (k : Nat) (j : Nat) : (s.spoil k).aslot j = s.aslot j := rfl
@[simp] theorem State.hrec_spoil (s : State) (k : Nat) (j : Nat) : (s.spoil k).hrec j = s.hrec j := rfl
@[simp] theorem State.thread_fw (s : State) (f : Fld) (ix : List Nat) (v : Nat) (j : Nat) : (s.fw f ix v).thread j = s.thread j := rfl
@[simp] theorem State.fifo_fw (s : State) (f : Fld) (ix : List Nat) (v : Nat) (j : Nat) : (s.fw f ix v).fifo j = s.fifo j := rfl
@[simp] theorem State.engine_fw (s : State) (f : Fld) (ix : List Nat) (v : Nat) (j : Nat) : (s.fw f ix v).engine j = s.engine j := rfl
@[simp] theorem State.cluster_fw (s : State) (f : Fld) (ix : List Nat) (v : Nat) (j : Nat) : (s.fw f ix v).cluster j = s.cluster j := rfl
@[simp] theorem State.op_fw (s : State) (f : Fld) (ix : List Nat) (v : Nat) (j : Nat) : (s.fw f ix v).op j = s.op j := rfl
@[simp] theorem State.port_fw (s : State) (f : Fld) (ix : List Nat) (v : Nat) (j : Nat) : (s.fw f ix v).port j = s.port j := rfl
@[simp] theorem State.func_fw (s : State) (f : Fld) (ix : List Nat) (v : Nat) (j : Nat) : (s.fw f ix v).func j = s.func j := rfl
@[simp] theorem State.att_fw (s : State) (f : Fld) (ix : List Nat) (v : Nat) (j : Nat) : (s.fw f ix v).att j = s.att j := rfl
@[simp] theorem State.queue_fw (s : State) (f : Fld) (ix : List Nat) (v : Nat) (j : Nat) : (s.fw f ix v).queue j = s.queue j := rfl
@[simp] theorem State.cq_fw (s : State) (f : Fld) (ix : List Nat) (v : Nat) (j : Nat) : (s.fw f ix v).cq j = s.cq j := rfl
@[simp] theorem State.half_fw (s : State) (f : Fld) (ix : List Nat) (v : Nat) (j : Nat) : (s.fw f ix v).half j = s.half j := rfl
@[simp] theorem State.coll_fw (s : State) (f : Fld) (ix : List Nat) (v : Nat) (j : Nat) : (s.fw f ix v).coll j = s.coll j := rfl
@[simp] theorem State.mctx_fw (s : State) (f : Fld) (ix : List Nat) (v : Nat) (j : Nat) : (s.fw f ix v).mctx j = s.mctx j := rfl
@[simp] theorem State.aslot_fw (s : State) (f : Fld) (ix : List Nat) (v : Nat) (j : Nat) : (s.fw f ix v).aslot j = s.aslot j := rfl
@[simp] theorem State.hrec_fw (s : State) (f : Fld) (ix : List Nat) (v : Nat) (j : Nat) : (s.fw f ix v).hrec j = s.hrec j := rfl
@[simp] theorem State.thread_fset (s : State) (f : Fld) (ix : List Nat) (b : Bool) (j : Nat) : (s.fset f ix b).thread j = s.thread j := rfl
@[simp] theorem State.fifo_fset (s : State) (f : Fld) (ix : List Nat) (b : Bool) (j : Nat) : (s.fset f ix b).fifo j = s.fifo j := rfl
@[simp] theorem State.engine_fset (s : State) (f : Fld) (ix : List Nat) (b : Bool) (j : Nat) : (s.fset f ix b).engine j = s.engine j := rfl
@[simp] theorem State.cluster_fset (s : State) (f : Fld) (ix : List Nat) (b : Bool) (j : Nat) : (s.fset f ix b).cluster j = s.cluster j := rfl
@[simp] theorem State.op_fset (s : State) (f : Fld) (ix : List Nat) (b : Bool) (j : Nat) : (s.fset f ix b).op j = s.op j := rfl
@[simp] theorem State.port_fset (s : State) (f : Fld) (ix : List Nat) (b : Bool) (j : Nat) : (s.fset f ix b).port j = s.port j := rfl
@[simp] theorem State.func_fset (s : State) (f : Fld) (ix : List Nat) (b : Bool) (j : Nat) : (s.fset f ix b).func j = s.func j := rfl
@[simp] theorem State.att_fset (s : State) (f : Fld) (ix : List Nat) (b : Bool) (j : Nat) : (s.fset f ix b).att j = s.att j := rfl
@[simp] theorem State.queue_fset (s : State) (f : Fld) (ix : List Nat) (b : Bool) (j : Nat) : (s.fset f ix b).queue j = s.queue j := rfl
@[simp] theorem State.cq_fset (s : State) (f : Fld) (ix : List Nat) (b : Bool) (j : Nat) : (s.fset f ix b).cq j = s.cq j := rfl
@[simp] theorem State.half_fset (s : State) (f : Fld) (ix : List Nat) (b : Bool) (j : Nat) : (s.fset f ix b).half j = s.half j := rfl
@[simp] theorem State.coll_fset (s : State) (f : Fld) (ix : List Nat) (b : Bool) (j : Nat) : (s.fset f ix b).coll j = s.coll j := rfl
@[simp] theorem State.mctx_fset (s : State) (f : Fld) (ix : List Nat) (b : Bool) (j : Nat) : (s.fset f ix b).mctx j = s.mctx j := rfl
@[simp] theorem State.aslot_fset (s : State) (f : Fld) (ix : List Nat) (b : Bool) (j : Nat) : (s.fset f ix b).aslot j = s.aslot j := rfl
@[simp] theorem State.hrec_fset (s : State) (f : Fld) (ix : List Nat) (b : Bool) (j : Nat) : (s.fset f ix b).hrec j = s.hrec j := rfl
@[simp] theorem State.thread_bump (s : State) (r : RegDesc) (ix : List Nat) (n : Nat) (j : Nat) : (s.bump r ix n).thread j = s.thread j := rfl
@[simp] theorem State.fifo_bump (s : State) (r : RegDesc) (ix : List Nat) (n : Nat) (j : Nat) : (s.bump r ix n).fifo j = s.fifo j := rfl
@[simp] theorem State.engine_bump (s : State) (r : RegDesc) (ix : List Nat) (n : Nat) (j : Nat) : (s.bump r ix n).engine j = s.engine j := rfl
@[simp] theorem State.cluster_bump (s : State) (r : RegDesc) (ix : List Nat) (n : Nat) (j : Nat) : (s.bump r ix n).cluster j = s.cluster j := rfl
@[simp] theorem State.op_bump (s : State) (r : RegDesc) (ix : List Nat) (n : Nat) (j : Nat) : (s.bump r ix n).op j = s.op j := rfl
@[simp] theorem State.port_bump (s : State) (r : RegDesc) (ix : List Nat) (n : Nat) (j : Nat) : (s.bump r ix n).port j = s.port j := rfl
@[simp] theorem State.func_bump (s : State) (r : RegDesc) (ix : List Nat) (n : Nat) (j : Nat) : (s.bump r ix n).func j = s.func j := rfl
@[simp] theorem State.att_bump (s : State) (r : RegDesc) (ix : List Nat) (n : Nat) (j : Nat) : (s.bump r ix n).att j = s.att j := rfl
@[simp] theorem State.queue_bump (s : State) (r : RegDesc) (ix : List Nat) (n : Nat) (j : Nat) : (s.bump r ix n).queue j = s.queue j := rfl
@[simp] theorem State.cq_bump (s : State) (r : RegDesc) (ix : List Nat) (n : Nat) (j : Nat) : (s.bump r ix n).cq j = s.cq j := rfl
@[simp] theorem State.half_bump (s : State) (r : RegDesc) (ix : List Nat) (n : Nat) (j : Nat) : (s.bump r ix n).half j = s.half j := rfl
@[simp] theorem State.coll_bump (s : State) (r : RegDesc) (ix : List Nat) (n : Nat) (j : Nat) : (s.bump r ix n).coll j = s.coll j := rfl
@[simp] theorem State.mctx_bump (s : State) (r : RegDesc) (ix : List Nat) (n : Nat) (j : Nat) : (s.bump r ix n).mctx j = s.mctx j := rfl
@[simp] theorem State.aslot_bump (s : State) (r : RegDesc) (ix : List Nat) (n : Nat) (j : Nat) : (s.bump r ix n).aslot j = s.aslot j := rfl
@[simp] theorem State.hrec_bump (s : State) (r : RegDesc) (ix : List Nat) (n : Nat) (j : Nat) : (s.bump r ix n).hrec j = s.hrec j := rfl
@[simp] theorem State.fifo_setWait (s : State) (t : Nat) (w : Wait) (j : Nat) : (s.setWait t w).fifo j = s.fifo j := rfl
@[simp] theorem State.engine_setWait (s : State) (t : Nat) (w : Wait) (j : Nat) : (s.setWait t w).engine j = s.engine j := rfl
@[simp] theorem State.cluster_setWait (s : State) (t : Nat) (w : Wait) (j : Nat) : (s.setWait t w).cluster j = s.cluster j := rfl
@[simp] theorem State.op_setWait (s : State) (t : Nat) (w : Wait) (j : Nat) : (s.setWait t w).op j = s.op j := rfl
@[simp] theorem State.port_setWait (s : State) (t : Nat) (w : Wait) (j : Nat) : (s.setWait t w).port j = s.port j := rfl
@[simp] theorem State.func_setWait (s : State) (t : Nat) (w : Wait) (j : Nat) : (s.setWait t w).func j = s.func j := rfl
@[simp] theorem State.att_setWait (s : State) (t : Nat) (w : Wait) (j : Nat) : (s.setWait t w).att j = s.att j := rfl
@[simp] theorem State.queue_setWait (s : State) (t : Nat) (w : Wait) (j : Nat) : (s.setWait t w).queue j = s.queue j := rfl
@[simp] theorem State.cq_setWait (s : State) (t : Nat) (w : Wait) (j : Nat) : (s.setWait t w).cq j = s.cq j := rfl
@[simp] theorem State.half_setWait (s : State) (t : Nat) (w : Wait) (j : Nat) : (s.setWait t w).half j = s.half j := rfl
@[simp] theorem State.coll_setWait (s : State) (t : Nat) (w : Wait) (j : Nat) : (s.setWait t w).coll j = s.coll j := rfl
@[simp] theorem State.mctx_setWait (s : State) (t : Nat) (w : Wait) (j : Nat) : (s.setWait t w).mctx j = s.mctx j := rfl
@[simp] theorem State.aslot_setWait (s : State) (t : Nat) (w : Wait) (j : Nat) : (s.setWait t w).aslot j = s.aslot j := rfl
@[simp] theorem State.hrec_setWait (s : State) (t : Nat) (w : Wait) (j : Nat) : (s.setWait t w).hrec j = s.hrec j := rfl
@[simp] theorem State.fifo_nextPc (s : State) (t n : Nat) (j : Nat) : (s.nextPc t n).fifo j = s.fifo j := rfl
@[simp] theorem State.engine_nextPc (s : State) (t n : Nat) (j : Nat) : (s.nextPc t n).engine j = s.engine j := rfl
@[simp] theorem State.cluster_nextPc (s : State) (t n : Nat) (j : Nat) : (s.nextPc t n).cluster j = s.cluster j := rfl
@[simp] theorem State.op_nextPc (s : State) (t n : Nat) (j : Nat) : (s.nextPc t n).op j = s.op j := rfl
@[simp] theorem State.port_nextPc (s : State) (t n : Nat) (j : Nat) : (s.nextPc t n).port j = s.port j := rfl
@[simp] theorem State.func_nextPc (s : State) (t n : Nat) (j : Nat) : (s.nextPc t n).func j = s.func j := rfl
@[simp] theorem State.att_nextPc (s : State) (t n : Nat) (j : Nat) : (s.nextPc t n).att j = s.att j := rfl
@[simp] theorem State.queue_nextPc (s : State) (t n : Nat) (j : Nat) : (s.nextPc t n).queue j = s.queue j := rfl
@[simp] theorem State.cq_nextPc (s : State) (t n : Nat) (j : Nat) : (s.nextPc t n).cq j = s.cq j := rfl
@[simp] theorem State.half_nextPc (s : State) (t n : Nat) (j : Nat) : (s.nextPc t n).half j = s.half j := rfl
@[simp] theorem State.coll_nextPc (s : State) (t n : Nat) (j : Nat) : (s.nextPc t n).coll j = s.coll j := rfl
@[simp] theorem State.mctx_nextPc (s : State) (t n : Nat) (j : Nat) : (s.nextPc t n).mctx j = s.mctx j := rfl
@[simp] theorem State.aslot_nextPc (s : State) (t n : Nat) (j : Nat) : (s.nextPc t n).aslot j = s.aslot j := rfl
@[simp] theorem State.hrec_nextPc (s : State) (t n : Nat) (j : Nat) : (s.nextPc t n).hrec j = s.hrec j := rfl
@[simp] theorem State.fifo_setPc (s : State) (t : Nat) (v : Word) (j : Nat) : (s.setPc t v).fifo j = s.fifo j := rfl
@[simp] theorem State.engine_setPc (s : State) (t : Nat) (v : Word) (j : Nat) : (s.setPc t v).engine j = s.engine j := rfl
@[simp] theorem State.cluster_setPc (s : State) (t : Nat) (v : Word) (j : Nat) : (s.setPc t v).cluster j = s.cluster j := rfl
@[simp] theorem State.op_setPc (s : State) (t : Nat) (v : Word) (j : Nat) : (s.setPc t v).op j = s.op j := rfl
@[simp] theorem State.port_setPc (s : State) (t : Nat) (v : Word) (j : Nat) : (s.setPc t v).port j = s.port j := rfl
@[simp] theorem State.func_setPc (s : State) (t : Nat) (v : Word) (j : Nat) : (s.setPc t v).func j = s.func j := rfl
@[simp] theorem State.att_setPc (s : State) (t : Nat) (v : Word) (j : Nat) : (s.setPc t v).att j = s.att j := rfl
@[simp] theorem State.queue_setPc (s : State) (t : Nat) (v : Word) (j : Nat) : (s.setPc t v).queue j = s.queue j := rfl
@[simp] theorem State.cq_setPc (s : State) (t : Nat) (v : Word) (j : Nat) : (s.setPc t v).cq j = s.cq j := rfl
@[simp] theorem State.half_setPc (s : State) (t : Nat) (v : Word) (j : Nat) : (s.setPc t v).half j = s.half j := rfl
@[simp] theorem State.coll_setPc (s : State) (t : Nat) (v : Word) (j : Nat) : (s.setPc t v).coll j = s.coll j := rfl
@[simp] theorem State.mctx_setPc (s : State) (t : Nat) (v : Word) (j : Nat) : (s.setPc t v).mctx j = s.mctx j := rfl
@[simp] theorem State.aslot_setPc (s : State) (t : Nat) (v : Word) (j : Nat) : (s.setPc t v).aslot j = s.aslot j := rfl
@[simp] theorem State.hrec_setPc (s : State) (t : Nat) (v : Word) (j : Nat) : (s.setPc t v).hrec j = s.hrec j := rfl
@[simp] theorem State.thread_setRx (s : State) (r : Nat) (x : Stream) (j : Nat) : (s.setRx r x).thread j = s.thread j := rfl
@[simp] theorem State.fifo_setRx (s : State) (r : Nat) (x : Stream) (j : Nat) : (s.setRx r x).fifo j = s.fifo j := rfl
@[simp] theorem State.engine_setRx (s : State) (r : Nat) (x : Stream) (j : Nat) : (s.setRx r x).engine j = s.engine j := rfl
@[simp] theorem State.cluster_setRx (s : State) (r : Nat) (x : Stream) (j : Nat) : (s.setRx r x).cluster j = s.cluster j := rfl
@[simp] theorem State.op_setRx (s : State) (r : Nat) (x : Stream) (j : Nat) : (s.setRx r x).op j = s.op j := rfl
@[simp] theorem State.port_setRx (s : State) (r : Nat) (x : Stream) (j : Nat) : (s.setRx r x).port j = s.port j := rfl
@[simp] theorem State.func_setRx (s : State) (r : Nat) (x : Stream) (j : Nat) : (s.setRx r x).func j = s.func j := rfl
@[simp] theorem State.att_setRx (s : State) (r : Nat) (x : Stream) (j : Nat) : (s.setRx r x).att j = s.att j := rfl
@[simp] theorem State.queue_setRx (s : State) (r : Nat) (x : Stream) (j : Nat) : (s.setRx r x).queue j = s.queue j := rfl
@[simp] theorem State.cq_setRx (s : State) (r : Nat) (x : Stream) (j : Nat) : (s.setRx r x).cq j = s.cq j := rfl
@[simp] theorem State.coll_setRx (s : State) (r : Nat) (x : Stream) (j : Nat) : (s.setRx r x).coll j = s.coll j := rfl
@[simp] theorem State.mctx_setRx (s : State) (r : Nat) (x : Stream) (j : Nat) : (s.setRx r x).mctx j = s.mctx j := rfl
@[simp] theorem State.aslot_setRx (s : State) (r : Nat) (x : Stream) (j : Nat) : (s.setRx r x).aslot j = s.aslot j := rfl
@[simp] theorem State.hrec_setRx (s : State) (r : Nat) (x : Stream) (j : Nat) : (s.setRx r x).hrec j = s.hrec j := rfl
@[simp] theorem State.thread_setPtime (s : State) (p : Nat) (x : PortTime) (j : Nat) : (s.setPtime p x).thread j = s.thread j := rfl
@[simp] theorem State.fifo_setPtime (s : State) (p : Nat) (x : PortTime) (j : Nat) : (s.setPtime p x).fifo j = s.fifo j := rfl
@[simp] theorem State.engine_setPtime (s : State) (p : Nat) (x : PortTime) (j : Nat) : (s.setPtime p x).engine j = s.engine j := rfl
@[simp] theorem State.cluster_setPtime (s : State) (p : Nat) (x : PortTime) (j : Nat) : (s.setPtime p x).cluster j = s.cluster j := rfl
@[simp] theorem State.op_setPtime (s : State) (p : Nat) (x : PortTime) (j : Nat) : (s.setPtime p x).op j = s.op j := rfl
@[simp] theorem State.port_setPtime (s : State) (p : Nat) (x : PortTime) (j : Nat) : (s.setPtime p x).port j = s.port j := rfl
@[simp] theorem State.func_setPtime (s : State) (p : Nat) (x : PortTime) (j : Nat) : (s.setPtime p x).func j = s.func j := rfl
@[simp] theorem State.att_setPtime (s : State) (p : Nat) (x : PortTime) (j : Nat) : (s.setPtime p x).att j = s.att j := rfl
@[simp] theorem State.queue_setPtime (s : State) (p : Nat) (x : PortTime) (j : Nat) : (s.setPtime p x).queue j = s.queue j := rfl
@[simp] theorem State.cq_setPtime (s : State) (p : Nat) (x : PortTime) (j : Nat) : (s.setPtime p x).cq j = s.cq j := rfl
@[simp] theorem State.half_setPtime (s : State) (p : Nat) (x : PortTime) (j : Nat) : (s.setPtime p x).half j = s.half j := rfl
@[simp] theorem State.coll_setPtime (s : State) (p : Nat) (x : PortTime) (j : Nat) : (s.setPtime p x).coll j = s.coll j := rfl
@[simp] theorem State.mctx_setPtime (s : State) (p : Nat) (x : PortTime) (j : Nat) : (s.setPtime p x).mctx j = s.mctx j := rfl
@[simp] theorem State.aslot_setPtime (s : State) (p : Nat) (x : PortTime) (j : Nat) : (s.setPtime p x).aslot j = s.aslot j := rfl
@[simp] theorem State.hrec_setPtime (s : State) (p : Nat) (x : PortTime) (j : Nat) : (s.setPtime p x).hrec j = s.hrec j := rfl
@[simp] theorem State.thread_wrSoft (s : State) (r : RegDesc) (ix : List Nat) (v : Word) (j : Nat) : (s.wrSoft r ix v).thread j = s.thread j := rfl
@[simp] theorem State.fifo_wrSoft (s : State) (r : RegDesc) (ix : List Nat) (v : Word) (j : Nat) : (s.wrSoft r ix v).fifo j = s.fifo j := rfl
@[simp] theorem State.engine_wrSoft (s : State) (r : RegDesc) (ix : List Nat) (v : Word) (j : Nat) : (s.wrSoft r ix v).engine j = s.engine j := rfl
@[simp] theorem State.cluster_wrSoft (s : State) (r : RegDesc) (ix : List Nat) (v : Word) (j : Nat) : (s.wrSoft r ix v).cluster j = s.cluster j := rfl
@[simp] theorem State.op_wrSoft (s : State) (r : RegDesc) (ix : List Nat) (v : Word) (j : Nat) : (s.wrSoft r ix v).op j = s.op j := rfl
@[simp] theorem State.port_wrSoft (s : State) (r : RegDesc) (ix : List Nat) (v : Word) (j : Nat) : (s.wrSoft r ix v).port j = s.port j := rfl
@[simp] theorem State.func_wrSoft (s : State) (r : RegDesc) (ix : List Nat) (v : Word) (j : Nat) : (s.wrSoft r ix v).func j = s.func j := rfl
@[simp] theorem State.att_wrSoft (s : State) (r : RegDesc) (ix : List Nat) (v : Word) (j : Nat) : (s.wrSoft r ix v).att j = s.att j := rfl
@[simp] theorem State.queue_wrSoft (s : State) (r : RegDesc) (ix : List Nat) (v : Word) (j : Nat) : (s.wrSoft r ix v).queue j = s.queue j := rfl
@[simp] theorem State.cq_wrSoft (s : State) (r : RegDesc) (ix : List Nat) (v : Word) (j : Nat) : (s.wrSoft r ix v).cq j = s.cq j := rfl
@[simp] theorem State.half_wrSoft (s : State) (r : RegDesc) (ix : List Nat) (v : Word) (j : Nat) : (s.wrSoft r ix v).half j = s.half j := rfl
@[simp] theorem State.coll_wrSoft (s : State) (r : RegDesc) (ix : List Nat) (v : Word) (j : Nat) : (s.wrSoft r ix v).coll j = s.coll j := rfl
@[simp] theorem State.mctx_wrSoft (s : State) (r : RegDesc) (ix : List Nat) (v : Word) (j : Nat) : (s.wrSoft r ix v).mctx j = s.mctx j := rfl
@[simp] theorem State.aslot_wrSoft (s : State) (r : RegDesc) (ix : List Nat) (v : Word) (j : Nat) : (s.wrSoft r ix v).aslot j = s.aslot j := rfl
@[simp] theorem State.hrec_wrSoft (s : State) (r : RegDesc) (ix : List Nat) (v : Word) (j : Nat) : (s.wrSoft r ix v).hrec j = s.hrec j := rfl
@[simp] theorem State.thread_setLink (s : State) (p : Nat) (st : LState) (j : Nat) : (s.setLink p st).thread j = s.thread j := rfl
@[simp] theorem State.fifo_setLink (s : State) (p : Nat) (st : LState) (j : Nat) : (s.setLink p st).fifo j = s.fifo j := rfl
@[simp] theorem State.engine_setLink (s : State) (p : Nat) (st : LState) (j : Nat) : (s.setLink p st).engine j = s.engine j := rfl
@[simp] theorem State.cluster_setLink (s : State) (p : Nat) (st : LState) (j : Nat) : (s.setLink p st).cluster j = s.cluster j := rfl
@[simp] theorem State.op_setLink (s : State) (p : Nat) (st : LState) (j : Nat) : (s.setLink p st).op j = s.op j := rfl
@[simp] theorem State.func_setLink (s : State) (p : Nat) (st : LState) (j : Nat) : (s.setLink p st).func j = s.func j := rfl
@[simp] theorem State.att_setLink (s : State) (p : Nat) (st : LState) (j : Nat) : (s.setLink p st).att j = s.att j := rfl
@[simp] theorem State.queue_setLink (s : State) (p : Nat) (st : LState) (j : Nat) : (s.setLink p st).queue j = s.queue j := rfl
@[simp] theorem State.cq_setLink (s : State) (p : Nat) (st : LState) (j : Nat) : (s.setLink p st).cq j = s.cq j := rfl
@[simp] theorem State.half_setLink (s : State) (p : Nat) (st : LState) (j : Nat) : (s.setLink p st).half j = s.half j := rfl
@[simp] theorem State.coll_setLink (s : State) (p : Nat) (st : LState) (j : Nat) : (s.setLink p st).coll j = s.coll j := rfl
@[simp] theorem State.mctx_setLink (s : State) (p : Nat) (st : LState) (j : Nat) : (s.setLink p st).mctx j = s.mctx j := rfl
@[simp] theorem State.aslot_setLink (s : State) (p : Nat) (st : LState) (j : Nat) : (s.setLink p st).aslot j = s.aslot j := rfl
@[simp] theorem State.hrec_setLink (s : State) (p : Nat) (st : LState) (j : Nat) : (s.setLink p st).hrec j = s.hrec j := rfl
@[simp] theorem State.thread_setSch (s : State) (p : Nat) (x : Sched) (j : Nat) : (s.setSch p x).thread j = s.thread j := rfl
@[simp] theorem State.fifo_setSch (s : State) (p : Nat) (x : Sched) (j : Nat) : (s.setSch p x).fifo j = s.fifo j := rfl
@[simp] theorem State.engine_setSch (s : State) (p : Nat) (x : Sched) (j : Nat) : (s.setSch p x).engine j = s.engine j := rfl
@[simp] theorem State.cluster_setSch (s : State) (p : Nat) (x : Sched) (j : Nat) : (s.setSch p x).cluster j = s.cluster j := rfl
@[simp] theorem State.op_setSch (s : State) (p : Nat) (x : Sched) (j : Nat) : (s.setSch p x).op j = s.op j := rfl
@[simp] theorem State.func_setSch (s : State) (p : Nat) (x : Sched) (j : Nat) : (s.setSch p x).func j = s.func j := rfl
@[simp] theorem State.att_setSch (s : State) (p : Nat) (x : Sched) (j : Nat) : (s.setSch p x).att j = s.att j := rfl
@[simp] theorem State.queue_setSch (s : State) (p : Nat) (x : Sched) (j : Nat) : (s.setSch p x).queue j = s.queue j := rfl
@[simp] theorem State.cq_setSch (s : State) (p : Nat) (x : Sched) (j : Nat) : (s.setSch p x).cq j = s.cq j := rfl
@[simp] theorem State.half_setSch (s : State) (p : Nat) (x : Sched) (j : Nat) : (s.setSch p x).half j = s.half j := rfl
@[simp] theorem State.coll_setSch (s : State) (p : Nat) (x : Sched) (j : Nat) : (s.setSch p x).coll j = s.coll j := rfl
@[simp] theorem State.mctx_setSch (s : State) (p : Nat) (x : Sched) (j : Nat) : (s.setSch p x).mctx j = s.mctx j := rfl
@[simp] theorem State.aslot_setSch (s : State) (p : Nat) (x : Sched) (j : Nat) : (s.setSch p x).aslot j = s.aslot j := rfl
@[simp] theorem State.hrec_setSch (s : State) (p : Nat) (x : Sched) (j : Nat) : (s.setSch p x).hrec j = s.hrec j := rfl
/-! ## Registers -/

@[simp] theorem State.rd_setFifo (s : State) (k : Nat) (x : Fifo) (y : RegDesc) (ix' : List Nat) : (s.setFifo k x).rd y ix' = s.rd y ix' := rfl
@[simp] theorem State.fd_setFifo (s : State) (k : Nat) (x : Fifo) (y : Fld) (ix' : List Nat) : (s.setFifo k x).fd y ix' = s.fd y ix' := rfl
@[simp] theorem State.fb_setFifo (s : State) (k : Nat) (x : Fifo) (y : Fld) (ix' : List Nat) : (s.setFifo k x).fb y ix' = s.fb y ix' := rfl
@[simp] theorem State.rd_setThread (s : State) (t : Nat) (x : Thread) (y : RegDesc) (ix' : List Nat) : (s.setThread t x).rd y ix' = s.rd y ix' := rfl
@[simp] theorem State.fd_setThread (s : State) (t : Nat) (x : Thread) (y : Fld) (ix' : List Nat) : (s.setThread t x).fd y ix' = s.fd y ix' := rfl
@[simp] theorem State.fb_setThread (s : State) (t : Nat) (x : Thread) (y : Fld) (ix' : List Nat) : (s.setThread t x).fb y ix' = s.fb y ix' := rfl
@[simp] theorem State.rd_setEngine (s : State) (g : Nat) (x : Engine) (y : RegDesc) (ix' : List Nat) : (s.setEngine g x).rd y ix' = s.rd y ix' := rfl
@[simp] theorem State.fd_setEngine (s : State) (g : Nat) (x : Engine) (y : Fld) (ix' : List Nat) : (s.setEngine g x).fd y ix' = s.fd y ix' := rfl
@[simp] theorem State.fb_setEngine (s : State) (g : Nat) (x : Engine) (y : Fld) (ix' : List Nat) : (s.setEngine g x).fb y ix' = s.fb y ix' := rfl
@[simp] theorem State.rd_setCluster (s : State) (c : Nat) (x : Cluster) (y : RegDesc) (ix' : List Nat) : (s.setCluster c x).rd y ix' = s.rd y ix' := rfl
@[simp] theorem State.fd_setCluster (s : State) (c : Nat) (x : Cluster) (y : Fld) (ix' : List Nat) : (s.setCluster c x).fd y ix' = s.fd y ix' := rfl
@[simp] theorem State.fb_setCluster (s : State) (c : Nat) (x : Cluster) (y : Fld) (ix' : List Nat) : (s.setCluster c x).fb y ix' = s.fb y ix' := rfl
@[simp] theorem State.rd_setOp (s : State) (k : Nat) (x : Op) (y : RegDesc) (ix' : List Nat) : (s.setOp k x).rd y ix' = s.rd y ix' := rfl
@[simp] theorem State.fd_setOp (s : State) (k : Nat) (x : Op) (y : Fld) (ix' : List Nat) : (s.setOp k x).fd y ix' = s.fd y ix' := rfl
@[simp] theorem State.fb_setOp (s : State) (k : Nat) (x : Op) (y : Fld) (ix' : List Nat) : (s.setOp k x).fb y ix' = s.fb y ix' := rfl
@[simp] theorem State.rd_setPort (s : State) (p : Nat) (x : Port) (y : RegDesc) (ix' : List Nat) : (s.setPort p x).rd y ix' = s.rd y ix' := rfl
@[simp] theorem State.fd_setPort (s : State) (p : Nat) (x : Port) (y : Fld) (ix' : List Nat) : (s.setPort p x).fd y ix' = s.fd y ix' := rfl
@[simp] theorem State.fb_setPort (s : State) (p : Nat) (x : Port) (y : Fld) (ix' : List Nat) : (s.setPort p x).fb y ix' = s.fb y ix' := rfl
@[simp] theorem State.rd_setLane (s : State) (p l : Nat) (x : Lane) (y : RegDesc) (ix' : List Nat) : (s.setLane p l x).rd y ix' = s.rd y ix' := rfl
@[simp] theorem State.fd_setLane (s : State) (p l : Nat) (x : Lane) (y : Fld) (ix' : List Nat) : (s.setLane p l x).fd y ix' = s.fd y ix' := rfl
@[simp] theorem State.fb_setLane (s : State) (p l : Nat) (x : Lane) (y : Fld) (ix' : List Nat) : (s.setLane p l x).fb y ix' = s.fb y ix' := rfl
@[simp] theorem State.rd_setLim (s : State) (k : Nat) (x : Lim) (y : RegDesc) (ix' : List Nat) : (s.setLim k x).rd y ix' = s.rd y ix' := rfl
@[simp] theorem State.fd_setLim (s : State) (k : Nat) (x : Lim) (y : Fld) (ix' : List Nat) : (s.setLim k x).fd y ix' = s.fd y ix' := rfl
@[simp] theorem State.fb_setLim (s : State) (k : Nat) (x : Lim) (y : Fld) (ix' : List Nat) : (s.setLim k x).fb y ix' = s.fb y ix' := rfl
@[simp] theorem State.rd_setFunc (s : State) (f : Nat) (x : Func) (y : RegDesc) (ix' : List Nat) : (s.setFunc f x).rd y ix' = s.rd y ix' := rfl
@[simp] theorem State.fd_setFunc (s : State) (f : Nat) (x : Func) (y : Fld) (ix' : List Nat) : (s.setFunc f x).fd y ix' = s.fd y ix' := rfl
@[simp] theorem State.fb_setFunc (s : State) (f : Nat) (x : Func) (y : Fld) (ix' : List Nat) : (s.setFunc f x).fb y ix' = s.fb y ix' := rfl
@[simp] theorem State.rd_setAtt (s : State) (a : Nat) (x : Attach) (y : RegDesc) (ix' : List Nat) : (s.setAtt a x).rd y ix' = s.rd y ix' := rfl
@[simp] theorem State.fd_setAtt (s : State) (a : Nat) (x : Attach) (y : Fld) (ix' : List Nat) : (s.setAtt a x).fd y ix' = s.fd y ix' := rfl
@[simp] theorem State.fb_setAtt (s : State) (a : Nat) (x : Attach) (y : Fld) (ix' : List Nat) : (s.setAtt a x).fb y ix' = s.fb y ix' := rfl
@[simp] theorem State.rd_setInv (s : State) (f : Invar → Invar) (y : RegDesc) (ix' : List Nat) : (s.setInv f).rd y ix' = s.rd y ix' := rfl
@[simp] theorem State.fd_setInv (s : State) (f : Invar → Invar) (y : Fld) (ix' : List Nat) : (s.setInv f).fd y ix' = s.fd y ix' := rfl
@[simp] theorem State.fb_setInv (s : State) (f : Invar → Invar) (y : Fld) (ix' : List Nat) : (s.setInv f).fb y ix' = s.fb y ix' := rfl
@[simp] theorem State.rd_setQueue (s : State) (q : Nat) (x : Queue) (y : RegDesc) (ix' : List Nat) : (s.setQueue q x).rd y ix' = s.rd y ix' := rfl
@[simp] theorem State.fd_setQueue (s : State) (q : Nat) (x : Queue) (y : Fld) (ix' : List Nat) : (s.setQueue q x).fd y ix' = s.fd y ix' := rfl
@[simp] theorem State.fb_setQueue (s : State) (q : Nat) (x : Queue) (y : Fld) (ix' : List Nat) : (s.setQueue q x).fb y ix' = s.fb y ix' := rfl
@[simp] theorem State.rd_setCq (s : State) (q : Nat) (x : Cq) (y : RegDesc) (ix' : List Nat) : (s.setCq q x).rd y ix' = s.rd y ix' := rfl
@[simp] theorem State.fd_setCq (s : State) (q : Nat) (x : Cq) (y : Fld) (ix' : List Nat) : (s.setCq q x).fd y ix' = s.fd y ix' := rfl
@[simp] theorem State.fb_setCq (s : State) (q : Nat) (x : Cq) (y : Fld) (ix' : List Nat) : (s.setCq q x).fb y ix' = s.fb y ix' := rfl
@[simp] theorem State.rd_setHalf (s : State) (r : Nat) (x : Half) (y : RegDesc) (ix' : List Nat) : (s.setHalf r x).rd y ix' = s.rd y ix' := rfl
@[simp] theorem State.fd_setHalf (s : State) (r : Nat) (x : Half) (y : Fld) (ix' : List Nat) : (s.setHalf r x).fd y ix' = s.fd y ix' := rfl
@[simp] theorem State.fb_setHalf (s : State) (r : Nat) (x : Half) (y : Fld) (ix' : List Nat) : (s.setHalf r x).fb y ix' = s.fb y ix' := rfl
@[simp] theorem State.rd_setColl (s : State) (i : Nat) (x : Option Coll) (y : RegDesc) (ix' : List Nat) : (s.setColl i x).rd y ix' = s.rd y ix' := rfl
@[simp] theorem State.fd_setColl (s : State) (i : Nat) (x : Option Coll) (y : Fld) (ix' : List Nat) : (s.setColl i x).fd y ix' = s.fd y ix' := rfl
@[simp] theorem State.fb_setColl (s : State) (i : Nat) (x : Option Coll) (y : Fld) (ix' : List Nat) : (s.setColl i x).fb y ix' = s.fb y ix' := rfl
@[simp] theorem State.rd_setMctx (s : State) (i : Nat) (x : MatchCtx) (y : RegDesc) (ix' : List Nat) : (s.setMctx i x).rd y ix' = s.rd y ix' := rfl
@[simp] theorem State.fd_setMctx (s : State) (i : Nat) (x : MatchCtx) (y : Fld) (ix' : List Nat) : (s.setMctx i x).fd y ix' = s.fd y ix' := rfl
@[simp] theorem State.fb_setMctx (s : State) (i : Nat) (x : MatchCtx) (y : Fld) (ix' : List Nat) : (s.setMctx i x).fb y ix' = s.fb y ix' := rfl
@[simp] theorem State.rd_setAslot (s : State) (k : Nat) (x : AmlSlot) (y : RegDesc) (ix' : List Nat) : (s.setAslot k x).rd y ix' = s.rd y ix' := rfl
@[simp] theorem State.fd_setAslot (s : State) (k : Nat) (x : AmlSlot) (y : Fld) (ix' : List Nat) : (s.setAslot k x).fd y ix' = s.fd y ix' := rfl
@[simp] theorem State.fb_setAslot (s : State) (k : Nat) (x : AmlSlot) (y : Fld) (ix' : List Nat) : (s.setAslot k x).fb y ix' = s.fb y ix' := rfl
@[simp] theorem State.rd_setHrec (s : State) (i : Nat) (x : ErrRec) (y : RegDesc) (ix' : List Nat) : (s.setHrec i x).rd y ix' = s.rd y ix' := rfl
@[simp] theorem State.fd_setHrec (s : State) (i : Nat) (x : ErrRec) (y : Fld) (ix' : List Nat) : (s.setHrec i x).fd y ix' = s.fd y ix' := rfl
@[simp] theorem State.fb_setHrec (s : State) (i : Nat) (x : ErrRec) (y : Fld) (ix' : List Nat) : (s.setHrec i x).fb y ix' = s.fb y ix' := rfl
@[simp] theorem State.rd_setLife (s : State) (l : Life) (y : RegDesc) (ix' : List Nat) : (s.setLife l).rd y ix' = s.rd y ix' := rfl
@[simp] theorem State.fd_setLife (s : State) (l : Life) (y : Fld) (ix' : List Nat) : (s.setLife l).fd y ix' = s.fd y ix' := rfl
@[simp] theorem State.fb_setLife (s : State) (l : Life) (y : Fld) (ix' : List Nat) : (s.setLife l).fb y ix' = s.fb y ix' := rfl
@[simp] theorem State.rd_setMon (s : State) (m : Monitors) (y : RegDesc) (ix' : List Nat) : (s.setMon m).rd y ix' = s.rd y ix' := rfl
@[simp] theorem State.fd_setMon (s : State) (m : Monitors) (y : Fld) (ix' : List Nat) : (s.setMon m).fd y ix' = s.fd y ix' := rfl
@[simp] theorem State.fb_setMon (s : State) (m : Monitors) (y : Fld) (ix' : List Nat) : (s.setMon m).fb y ix' = s.fb y ix' := rfl
@[simp] theorem State.rd_emit (s : State) (e : Emit) (y : RegDesc) (ix' : List Nat) : (s.emit e).rd y ix' = s.rd y ix' := rfl
@[simp] theorem State.fd_emit (s : State) (e : Emit) (y : Fld) (ix' : List Nat) : (s.emit e).fd y ix' = s.fd y ix' := rfl
@[simp] theorem State.fb_emit (s : State) (e : Emit) (y : Fld) (ix' : List Nat) : (s.emit e).fb y ix' = s.fb y ix' := rfl
@[simp] theorem State.rd_emits (s : State) (es : List Emit) (y : RegDesc) (ix' : List Nat) : (s.emits es).rd y ix' = s.rd y ix' := rfl
@[simp] theorem State.fd_emits (s : State) (es : List Emit) (y : Fld) (ix' : List Nat) : (s.emits es).fd y ix' = s.fd y ix' := rfl
@[simp] theorem State.fb_emits (s : State) (es : List Emit) (y : Fld) (ix' : List Nat) : (s.emits es).fb y ix' = s.fb y ix' := rfl
@[simp] theorem State.rd_mwrite (s : State) (k : Nat) (bs : List Byte) (y : RegDesc) (ix' : List Nat) : (s.mwrite k bs).rd y ix' = s.rd y ix' := rfl
@[simp] theorem State.fd_mwrite (s : State) (k : Nat) (bs : List Byte) (y : Fld) (ix' : List Nat) : (s.mwrite k bs).fd y ix' = s.fd y ix' := rfl
@[simp] theorem State.fb_mwrite (s : State) (k : Nat) (bs : List Byte) (y : Fld) (ix' : List Nat) : (s.mwrite k bs).fb y ix' = s.fb y ix' := rfl
@[simp] theorem State.rd_spoil (s : State) (k : Nat) (y : RegDesc) (ix' : List Nat) : (s.spoil k).rd y ix' = s.rd y ix' := rfl
@[simp] theorem State.fd_spoil (s : State) (k : Nat) (y : Fld) (ix' : List Nat) : (s.spoil k).fd y ix' = s.fd y ix' := rfl
@[simp] theorem State.fb_spoil (s : State) (k : Nat) (y : Fld) (ix' : List Nat) : (s.spoil k).fb y ix' = s.fb y ix' := rfl
@[simp] theorem State.rd_setWait (s : State) (t : Nat) (w : Wait) (y : RegDesc) (ix' : List Nat) : (s.setWait t w).rd y ix' = s.rd y ix' := rfl
@[simp] theorem State.fd_setWait (s : State) (t : Nat) (w : Wait) (y : Fld) (ix' : List Nat) : (s.setWait t w).fd y ix' = s.fd y ix' := rfl
@[simp] theorem State.fb_setWait (s : State) (t : Nat) (w : Wait) (y : Fld) (ix' : List Nat) : (s.setWait t w).fb y ix' = s.fb y ix' := rfl
@[simp] theorem State.rd_nextPc (s : State) (t n : Nat) (y : RegDesc) (ix' : List Nat) : (s.nextPc t n).rd y ix' = s.rd y ix' := rfl
@[simp] theorem State.fd_nextPc (s : State) (t n : Nat) (y : Fld) (ix' : List Nat) : (s.nextPc t n).fd y ix' = s.fd y ix' := rfl
@[simp] theorem State.fb_nextPc (s : State) (t n : Nat) (y : Fld) (ix' : List Nat) : (s.nextPc t n).fb y ix' = s.fb y ix' := rfl
@[simp] theorem State.rd_setPc (s : State) (t : Nat) (v : Word) (y : RegDesc) (ix' : List Nat) : (s.setPc t v).rd y ix' = s.rd y ix' := rfl
@[simp] theorem State.fd_setPc (s : State) (t : Nat) (v : Word) (y : Fld) (ix' : List Nat) : (s.setPc t v).fd y ix' = s.fd y ix' := rfl
@[simp] theorem State.fb_setPc (s : State) (t : Nat) (v : Word) (y : Fld) (ix' : List Nat) : (s.setPc t v).fb y ix' = s.fb y ix' := rfl
@[simp] theorem State.rd_setRx (s : State) (r : Nat) (x : Stream) (y : RegDesc) (ix' : List Nat) : (s.setRx r x).rd y ix' = s.rd y ix' := rfl
@[simp] theorem State.fd_setRx (s : State) (r : Nat) (x : Stream) (y : Fld) (ix' : List Nat) : (s.setRx r x).fd y ix' = s.fd y ix' := rfl
@[simp] theorem State.fb_setRx (s : State) (r : Nat) (x : Stream) (y : Fld) (ix' : List Nat) : (s.setRx r x).fb y ix' = s.fb y ix' := rfl
@[simp] theorem State.rd_setPtime (s : State) (p : Nat) (x : PortTime) (y : RegDesc) (ix' : List Nat) : (s.setPtime p x).rd y ix' = s.rd y ix' := rfl
@[simp] theorem State.fd_setPtime (s : State) (p : Nat) (x : PortTime) (y : Fld) (ix' : List Nat) : (s.setPtime p x).fd y ix' = s.fd y ix' := rfl
@[simp] theorem State.fb_setPtime (s : State) (p : Nat) (x : PortTime) (y : Fld) (ix' : List Nat) : (s.setPtime p x).fb y ix' = s.fb y ix' := rfl
@[simp] theorem State.rd_setLink (s : State) (p : Nat) (st : LState) (y : RegDesc) (ix' : List Nat) : (s.setLink p st).rd y ix' = s.rd y ix' := rfl
@[simp] theorem State.fd_setLink (s : State) (p : Nat) (st : LState) (y : Fld) (ix' : List Nat) : (s.setLink p st).fd y ix' = s.fd y ix' := rfl
@[simp] theorem State.fb_setLink (s : State) (p : Nat) (st : LState) (y : Fld) (ix' : List Nat) : (s.setLink p st).fb y ix' = s.fb y ix' := rfl
@[simp] theorem State.rd_setSch (s : State) (p : Nat) (x : Sched) (y : RegDesc) (ix' : List Nat) : (s.setSch p x).rd y ix' = s.rd y ix' := rfl
@[simp] theorem State.fd_setSch (s : State) (p : Nat) (x : Sched) (y : Fld) (ix' : List Nat) : (s.setSch p x).fd y ix' = s.fd y ix' := rfl
@[simp] theorem State.fb_setSch (s : State) (p : Nat) (x : Sched) (y : Fld) (ix' : List Nat) : (s.setSch p x).fb y ix' = s.fb y ix' := rfl

end Sys2Proof.Machine
end

