-- ==== Sys2Proof/Laws/Frame.lean ====
section
/-! SUPPORT. Laws/Frame.lean: what each shared operation leaves of State, field by field; each theorem names every field that its
operation never changes. -/
namespace Sys2Proof.Machine

theorem State.foldl_regs {β : Type} (l : List β) (f : State → β → State) (h : ∀ s x, (f s x).regs = s.regs) (s : State) :
    (l.foldl f s).regs = s.regs := by
  induction l generalizing s with
  | nil => rfl
  | cons x l ih => rw [List.foldl_cons, ih, h]

theorem State.foldl_mem {β : Type} (l : List β) (f : State → β → State) (h : ∀ s x, (f s x).mem = s.mem) (s : State) :
    (l.foldl f s).mem = s.mem := by
  induction l generalizing s with
  | nil => rfl
  | cons x l ih => rw [List.foldl_cons, ih, h]

theorem State.foldl_poison {β : Type} (l : List β) (f : State → β → State) (h : ∀ s x, (f s x).poison = s.poison) (s : State) :
    (l.foldl f s).poison = s.poison := by
  induction l generalizing s with
  | nil => rfl
  | cons x l ih => rw [List.foldl_cons, ih, h]

theorem State.foldl_inv {β : Type} (l : List β) (f : State → β → State) (h : ∀ s x, (f s x).inv = s.inv) (s : State) :
    (l.foldl f s).inv = s.inv := by
  induction l generalizing s with
  | nil => rfl
  | cons x l ih => rw [List.foldl_cons, ih, h]

theorem State.foldl_tgf {β : Type} (l : List β) (f : State → β → State) (h : ∀ s x, (f s x).tgf = s.tgf) (s : State) :
    (l.foldl f s).tgf = s.tgf := by
  induction l generalizing s with
  | nil => rfl
  | cons x l ih => rw [List.foldl_cons, ih, h]

theorem State.foldl_fifos {β : Type} (l : List β) (f : State → β → State) (h : ∀ s x, (f s x).fifos = s.fifos) (s : State) :
    (l.foldl f s).fifos = s.fifos := by
  induction l generalizing s with
  | nil => rfl
  | cons x l ih => rw [List.foldl_cons, ih, h]

theorem State.foldl_threads {β : Type} (l : List β) (f : State → β → State) (h : ∀ s x, (f s x).threads = s.threads) (s : State) :
    (l.foldl f s).threads = s.threads := by
  induction l generalizing s with
  | nil => rfl
  | cons x l ih => rw [List.foldl_cons, ih, h]

theorem State.foldl_engines {β : Type} (l : List β) (f : State → β → State) (h : ∀ s x, (f s x).engines = s.engines) (s : State) :
    (l.foldl f s).engines = s.engines := by
  induction l generalizing s with
  | nil => rfl
  | cons x l ih => rw [List.foldl_cons, ih, h]

theorem State.foldl_clusters {β : Type} (l : List β) (f : State → β → State) (h : ∀ s x, (f s x).clusters = s.clusters) (s : State) :
    (l.foldl f s).clusters = s.clusters := by
  induction l generalizing s with
  | nil => rfl
  | cons x l ih => rw [List.foldl_cons, ih, h]

theorem State.foldl_ops {β : Type} (l : List β) (f : State → β → State) (h : ∀ s x, (f s x).ops = s.ops) (s : State) :
    (l.foldl f s).ops = s.ops := by
  induction l generalizing s with
  | nil => rfl
  | cons x l ih => rw [List.foldl_cons, ih, h]

theorem State.foldl_orders {β : Type} (l : List β) (f : State → β → State) (h : ∀ s x, (f s x).orders = s.orders) (s : State) :
    (l.foldl f s).orders = s.orders := by
  induction l generalizing s with
  | nil => rfl
  | cons x l ih => rw [List.foldl_cons, ih, h]

theorem State.foldl_rings {β : Type} (l : List β) (f : State → β → State) (h : ∀ s x, (f s x).rings = s.rings) (s : State) :
    (l.foldl f s).rings = s.rings := by
  induction l generalizing s with
  | nil => rfl
  | cons x l ih => rw [List.foldl_cons, ih, h]

theorem State.foldl_net {β : Type} (l : List β) (f : State → β → State) (h : ∀ s x, (f s x).net = s.net) (s : State) :
    (l.foldl f s).net = s.net := by
  induction l generalizing s with
  | nil => rfl
  | cons x l ih => rw [List.foldl_cons, ih, h]

theorem State.foldl_mtch {β : Type} (l : List β) (f : State → β → State) (h : ∀ s x, (f s x).mtch = s.mtch) (s : State) :
    (l.foldl f s).mtch = s.mtch := by
  induction l generalizing s with
  | nil => rfl
  | cons x l ih => rw [List.foldl_cons, ih, h]

theorem State.foldl_aml {β : Type} (l : List β) (f : State → β → State) (h : ∀ s x, (f s x).aml = s.aml) (s : State) :
    (l.foldl f s).aml = s.aml := by
  induction l generalizing s with
  | nil => rfl
  | cons x l ih => rw [List.foldl_cons, ih, h]

theorem State.foldl_host {β : Type} (l : List β) (f : State → β → State) (h : ∀ s x, (f s x).host = s.host) (s : State) :
    (l.foldl f s).host = s.host := by
  induction l generalizing s with
  | nil => rfl
  | cons x l ih => rw [List.foldl_cons, ih, h]

theorem State.foldl_dev {β : Type} (l : List β) (f : State → β → State) (h : ∀ s x, (f s x).dev = s.dev) (s : State) :
    (l.foldl f s).dev = s.dev := by
  induction l generalizing s with
  | nil => rfl
  | cons x l ih => rw [List.foldl_cons, ih, h]

theorem State.foldl_eptCache {β : Type} (l : List β) (f : State → β → State) (h : ∀ s x, (f s x).eptCache = s.eptCache) (s : State) :
    (l.foldl f s).eptCache = s.eptCache := by
  induction l generalizing s with
  | nil => rfl
  | cons x l ih => rw [List.foldl_cons, ih, h]

theorem State.foldl_ports {β : Type} (l : List β) (f : State → β → State) (h : ∀ s x, (f s x).ports = s.ports) (s : State) :
    (l.foldl f s).ports = s.ports := by
  induction l generalizing s with
  | nil => rfl
  | cons x l ih => rw [List.foldl_cons, ih, h]

theorem State.foldl_lanes {β : Type} (l : List β) (f : State → β → State) (h : ∀ s x, (f s x).lanes = s.lanes) (s : State) :
    (l.foldl f s).lanes = s.lanes := by
  induction l generalizing s with
  | nil => rfl
  | cons x l ih => rw [List.foldl_cons, ih, h]

theorem State.foldl_lims {β : Type} (l : List β) (f : State → β → State) (h : ∀ s x, (f s x).lims = s.lims) (s : State) :
    (l.foldl f s).lims = s.lims := by
  induction l generalizing s with
  | nil => rfl
  | cons x l ih => rw [List.foldl_cons, ih, h]

theorem State.foldl_limCache {β : Type} (l : List β) (f : State → β → State) (h : ∀ s x, (f s x).limCache = s.limCache) (s : State) :
    (l.foldl f s).limCache = s.limCache := by
  induction l generalizing s with
  | nil => rfl
  | cons x l ih => rw [List.foldl_cons, ih, h]

theorem State.foldl_limRefill {β : Type} (l : List β) (f : State → β → State) (h : ∀ s x, (f s x).limRefill = s.limRefill) (s : State) :
    (l.foldl f s).limRefill = s.limRefill := by
  induction l generalizing s with
  | nil => rfl
  | cons x l ih => rw [List.foldl_cons, ih, h]

theorem State.foldl_route {β : Type} (l : List β) (f : State → β → State) (h : ∀ s x, (f s x).route = s.route) (s : State) :
    (l.foldl f s).route = s.route := by
  induction l generalizing s with
  | nil => rfl
  | cons x l ih => rw [List.foldl_cons, ih, h]

theorem State.foldl_halfLatch {β : Type} (l : List β) (f : State → β → State) (h : ∀ s x, (f s x).halfLatch = s.halfLatch) (s : State) :
    (l.foldl f s).halfLatch = s.halfLatch := by
  induction l generalizing s with
  | nil => rfl
  | cons x l ih => rw [List.foldl_cons, ih, h]

theorem State.foldl_recLatch {β : Type} (l : List β) (f : State → β → State) (h : ∀ s x, (f s x).recLatch = s.recLatch) (s : State) :
    (l.foldl f s).recLatch = s.recLatch := by
  induction l generalizing s with
  | nil => rfl
  | cons x l ih => rw [List.foldl_cons, ih, h]

theorem State.foldl_sbAddr {β : Type} (l : List β) (f : State → β → State) (h : ∀ s x, (f s x).sbAddr = s.sbAddr) (s : State) :
    (l.foldl f s).sbAddr = s.sbAddr := by
  induction l generalizing s with
  | nil => rfl
  | cons x l ih => rw [List.foldl_cons, ih, h]

theorem State.foldl_variant {β : Type} (l : List β) (f : State → β → State) (h : ∀ s x, (f s x).variant = s.variant) (s : State) :
    (l.foldl f s).variant = s.variant := by
  induction l generalizing s with
  | nil => rfl
  | cons x l ih => rw [List.foldl_cons, ih, h]

theorem State.foldl_out {β : Type} (l : List β) (f : State → β → State) (h : ∀ s x, (f s x).out = s.out) (s : State) :
    (l.foldl f s).out = s.out := by
  induction l generalizing s with
  | nil => rfl
  | cons x l ih => rw [List.foldl_cons, ih, h]

theorem State.foldl_free {β : Type} (l : List β) (f : State → β → State) (h : ∀ s x, (f s x).free = s.free) (s : State) :
    (l.foldl f s).free = s.free := by
  induction l generalizing s with
  | nil => rfl
  | cons x l ih => rw [List.foldl_cons, ih, h]

theorem State.foldl_pending {β : Type} (l : List β) (f : State → β → State) (h : ∀ s x, (f s x).pending = s.pending) (s : State) :
    (l.foldl f s).pending = s.pending := by
  induction l generalizing s with
  | nil => rfl
  | cons x l ih => rw [List.foldl_cons, ih, h]

@[simp] theorem State.bumpSat_frame (s : State) (r : RegDesc) (ix : List Nat) (n : Nat) :
    (State.bumpSat s r ix n).mem = s.mem ∧ (State.bumpSat s r ix n).poison = s.poison ∧ (State.bumpSat s r ix n).inv = s.inv ∧
    (State.bumpSat s r ix n).tgf = s.tgf ∧ (State.bumpSat s r ix n).fifos = s.fifos ∧ (State.bumpSat s r ix n).threads = s.threads ∧
    (State.bumpSat s r ix n).engines = s.engines ∧ (State.bumpSat s r ix n).clusters = s.clusters ∧ (State.bumpSat s r ix n).ops = s.ops ∧
    (State.bumpSat s r ix n).orders = s.orders ∧ (State.bumpSat s r ix n).rings = s.rings ∧ (State.bumpSat s r ix n).net = s.net ∧
    (State.bumpSat s r ix n).mtch = s.mtch ∧ (State.bumpSat s r ix n).aml = s.aml ∧ (State.bumpSat s r ix n).host = s.host ∧
    (State.bumpSat s r ix n).dev = s.dev ∧ (State.bumpSat s r ix n).eptCache = s.eptCache ∧ (State.bumpSat s r ix n).ports = s.ports ∧
    (State.bumpSat s r ix n).lanes = s.lanes ∧ (State.bumpSat s r ix n).lims = s.lims ∧ (State.bumpSat s r ix n).limCache = s.limCache ∧
    (State.bumpSat s r ix n).limRefill = s.limRefill ∧ (State.bumpSat s r ix n).route = s.route ∧
    (State.bumpSat s r ix n).halfLatch = s.halfLatch ∧ (State.bumpSat s r ix n).recLatch = s.recLatch ∧
    (State.bumpSat s r ix n).sbAddr = s.sbAddr ∧ (State.bumpSat s r ix n).variant = s.variant ∧ (State.bumpSat s r ix n).out = s.out ∧
    (State.bumpSat s r ix n).free = s.free ∧ (State.bumpSat s r ix n).pending = s.pending := by
  unfold State.bumpSat; (try dsimp only); (repeat' split) <;> first | done | (simp; done) | (simp_all; done) | grind

@[simp] theorem State.maxTo_frame (s : State) (r : RegDesc) (ix : List Nat) (v : Nat) :
    (State.maxTo s r ix v).mem = s.mem ∧ (State.maxTo s r ix v).poison = s.poison ∧ (State.maxTo s r ix v).inv = s.inv ∧
    (State.maxTo s r ix v).tgf = s.tgf ∧ (State.maxTo s r ix v).fifos = s.fifos ∧ (State.maxTo s r ix v).threads = s.threads ∧
    (State.maxTo s r ix v).engines = s.engines ∧ (State.maxTo s r ix v).clusters = s.clusters ∧ (State.maxTo s r ix v).ops = s.ops ∧
    (State.maxTo s r ix v).orders = s.orders ∧ (State.maxTo s r ix v).rings = s.rings ∧ (State.maxTo s r ix v).net = s.net ∧
    (State.maxTo s r ix v).mtch = s.mtch ∧ (State.maxTo s r ix v).aml = s.aml ∧ (State.maxTo s r ix v).host = s.host ∧
    (State.maxTo s r ix v).dev = s.dev ∧ (State.maxTo s r ix v).eptCache = s.eptCache ∧ (State.maxTo s r ix v).ports = s.ports ∧
    (State.maxTo s r ix v).lanes = s.lanes ∧ (State.maxTo s r ix v).lims = s.lims ∧ (State.maxTo s r ix v).limCache = s.limCache ∧
    (State.maxTo s r ix v).limRefill = s.limRefill ∧ (State.maxTo s r ix v).route = s.route ∧
    (State.maxTo s r ix v).halfLatch = s.halfLatch ∧ (State.maxTo s r ix v).recLatch = s.recLatch ∧
    (State.maxTo s r ix v).sbAddr = s.sbAddr ∧ (State.maxTo s r ix v).variant = s.variant ∧ (State.maxTo s r ix v).out = s.out ∧
    (State.maxTo s r ix v).free = s.free ∧ (State.maxTo s r ix v).pending = s.pending := by
  unfold State.maxTo; (try dsimp only); (repeat' split) <;> first | done | (simp; done) | (simp_all; done) | grind

@[simp] theorem State.freeBelow_frame (s : State) (n : Nat) :
    (State.freeBelow s n).2.regs = s.regs ∧ (State.freeBelow s n).2.mem = s.mem ∧ (State.freeBelow s n).2.poison = s.poison ∧
    (State.freeBelow s n).2.inv = s.inv ∧ (State.freeBelow s n).2.tgf = s.tgf ∧ (State.freeBelow s n).2.fifos = s.fifos ∧
    (State.freeBelow s n).2.threads = s.threads ∧ (State.freeBelow s n).2.engines = s.engines ∧
    (State.freeBelow s n).2.clusters = s.clusters ∧ (State.freeBelow s n).2.ops = s.ops ∧ (State.freeBelow s n).2.orders = s.orders ∧
    (State.freeBelow s n).2.rings = s.rings ∧ (State.freeBelow s n).2.net = s.net ∧ (State.freeBelow s n).2.mtch = s.mtch ∧
    (State.freeBelow s n).2.aml = s.aml ∧ (State.freeBelow s n).2.host = s.host ∧ (State.freeBelow s n).2.dev = s.dev ∧
    (State.freeBelow s n).2.eptCache = s.eptCache ∧ (State.freeBelow s n).2.ports = s.ports ∧ (State.freeBelow s n).2.lanes = s.lanes ∧
    (State.freeBelow s n).2.lims = s.lims ∧ (State.freeBelow s n).2.limCache = s.limCache ∧
    (State.freeBelow s n).2.limRefill = s.limRefill ∧ (State.freeBelow s n).2.route = s.route ∧
    (State.freeBelow s n).2.halfLatch = s.halfLatch ∧ (State.freeBelow s n).2.recLatch = s.recLatch ∧
    (State.freeBelow s n).2.sbAddr = s.sbAddr ∧ (State.freeBelow s n).2.variant = s.variant ∧ (State.freeBelow s n).2.out = s.out ∧
    (State.freeBelow s n).2.pending = s.pending := by
  unfold State.freeBelow; (try dsimp only); (repeat' split) <;> first | done | (simp; done) | (simp_all; done) | grind

theorem State.freeBelow_frame_of (s : State) (n : Nat) (result : Nat) (s' : State) (h : State.freeBelow s n = (result, s')) :
    s'.regs = s.regs ∧ s'.mem = s.mem ∧ s'.poison = s.poison ∧ s'.inv = s.inv ∧ s'.tgf = s.tgf ∧ s'.fifos = s.fifos ∧
    s'.threads = s.threads ∧ s'.engines = s.engines ∧ s'.clusters = s.clusters ∧ s'.ops = s.ops ∧ s'.orders = s.orders ∧
    s'.rings = s.rings ∧ s'.net = s.net ∧ s'.mtch = s.mtch ∧ s'.aml = s.aml ∧ s'.host = s.host ∧ s'.dev = s.dev ∧
    s'.eptCache = s.eptCache ∧ s'.ports = s.ports ∧ s'.lanes = s.lanes ∧ s'.lims = s.lims ∧ s'.limCache = s.limCache ∧
    s'.limRefill = s.limRefill ∧ s'.route = s.route ∧ s'.halfLatch = s.halfLatch ∧ s'.recLatch = s.recLatch ∧ s'.sbAddr = s.sbAddr ∧
    s'.variant = s.variant ∧ s'.out = s.out ∧ s'.pending = s.pending := by
  have := State.freeBelow_frame s n; rwa [h] at this

@[simp] theorem State.accAdd_frame (s : State) (off : Nat) (n : Nat) (v : Nat) :
    (State.accAdd s off n v).regs = s.regs ∧ (State.accAdd s off n v).inv = s.inv ∧ (State.accAdd s off n v).tgf = s.tgf ∧
    (State.accAdd s off n v).fifos = s.fifos ∧ (State.accAdd s off n v).threads = s.threads ∧
    (State.accAdd s off n v).engines = s.engines ∧ (State.accAdd s off n v).clusters = s.clusters ∧ (State.accAdd s off n v).ops = s.ops ∧
    (State.accAdd s off n v).orders = s.orders ∧ (State.accAdd s off n v).rings = s.rings ∧ (State.accAdd s off n v).net = s.net ∧
    (State.accAdd s off n v).mtch = s.mtch ∧ (State.accAdd s off n v).aml = s.aml ∧ (State.accAdd s off n v).host = s.host ∧
    (State.accAdd s off n v).dev = s.dev ∧ (State.accAdd s off n v).eptCache = s.eptCache ∧ (State.accAdd s off n v).ports = s.ports ∧
    (State.accAdd s off n v).lanes = s.lanes ∧ (State.accAdd s off n v).lims = s.lims ∧ (State.accAdd s off n v).limCache = s.limCache ∧
    (State.accAdd s off n v).limRefill = s.limRefill ∧ (State.accAdd s off n v).route = s.route ∧
    (State.accAdd s off n v).halfLatch = s.halfLatch ∧ (State.accAdd s off n v).recLatch = s.recLatch ∧
    (State.accAdd s off n v).sbAddr = s.sbAddr ∧ (State.accAdd s off n v).variant = s.variant ∧ (State.accAdd s off n v).out = s.out ∧
    (State.accAdd s off n v).free = s.free ∧ (State.accAdd s off n v).pending = s.pending := by
  unfold State.accAdd; (try dsimp only); (repeat' split) <;> first | done | (simp; done) | (simp_all; done) | grind

@[simp] theorem State.lifeEvent_frame (s : State) (src : Nat) (code : Nat) :
    (State.lifeEvent s src code).regs = s.regs ∧ (State.lifeEvent s src code).inv = s.inv ∧ (State.lifeEvent s src code).tgf = s.tgf ∧
    (State.lifeEvent s src code).fifos = s.fifos ∧ (State.lifeEvent s src code).threads = s.threads ∧
    (State.lifeEvent s src code).engines = s.engines ∧ (State.lifeEvent s src code).clusters = s.clusters ∧
    (State.lifeEvent s src code).ops = s.ops ∧ (State.lifeEvent s src code).orders = s.orders ∧
    (State.lifeEvent s src code).rings = s.rings ∧ (State.lifeEvent s src code).net = s.net ∧ (State.lifeEvent s src code).mtch = s.mtch ∧
    (State.lifeEvent s src code).aml = s.aml ∧ (State.lifeEvent s src code).host = s.host ∧ (State.lifeEvent s src code).dev = s.dev ∧
    (State.lifeEvent s src code).eptCache = s.eptCache ∧ (State.lifeEvent s src code).ports = s.ports ∧
    (State.lifeEvent s src code).lanes = s.lanes ∧ (State.lifeEvent s src code).lims = s.lims ∧
    (State.lifeEvent s src code).limCache = s.limCache ∧ (State.lifeEvent s src code).limRefill = s.limRefill ∧
    (State.lifeEvent s src code).route = s.route ∧ (State.lifeEvent s src code).halfLatch = s.halfLatch ∧
    (State.lifeEvent s src code).recLatch = s.recLatch ∧ (State.lifeEvent s src code).sbAddr = s.sbAddr ∧
    (State.lifeEvent s src code).variant = s.variant ∧ (State.lifeEvent s src code).out = s.out ∧
    (State.lifeEvent s src code).free = s.free ∧ (State.lifeEvent s src code).pending = s.pending := by
  unfold State.lifeEvent; (try dsimp only); (repeat' split) <;> first | done | (simp; done) | (simp_all; done) | grind

@[simp] theorem State.grow_frame (s : State) (r : RegDesc) (ix : List Nat) (n : Nat) :
    (State.grow s r ix n).mem = s.mem ∧ (State.grow s r ix n).poison = s.poison ∧ (State.grow s r ix n).inv = s.inv ∧
    (State.grow s r ix n).tgf = s.tgf ∧ (State.grow s r ix n).fifos = s.fifos ∧ (State.grow s r ix n).threads = s.threads ∧
    (State.grow s r ix n).engines = s.engines ∧ (State.grow s r ix n).clusters = s.clusters ∧ (State.grow s r ix n).ops = s.ops ∧
    (State.grow s r ix n).orders = s.orders ∧ (State.grow s r ix n).rings = s.rings ∧ (State.grow s r ix n).net = s.net ∧
    (State.grow s r ix n).mtch = s.mtch ∧ (State.grow s r ix n).aml = s.aml ∧ (State.grow s r ix n).host = s.host ∧
    (State.grow s r ix n).dev = s.dev ∧ (State.grow s r ix n).eptCache = s.eptCache ∧ (State.grow s r ix n).ports = s.ports ∧
    (State.grow s r ix n).lanes = s.lanes ∧ (State.grow s r ix n).lims = s.lims ∧ (State.grow s r ix n).limCache = s.limCache ∧
    (State.grow s r ix n).limRefill = s.limRefill ∧ (State.grow s r ix n).route = s.route ∧
    (State.grow s r ix n).halfLatch = s.halfLatch ∧ (State.grow s r ix n).recLatch = s.recLatch ∧
    (State.grow s r ix n).sbAddr = s.sbAddr ∧ (State.grow s r ix n).variant = s.variant ∧ (State.grow s r ix n).out = s.out ∧
    (State.grow s r ix n).free = s.free ∧ (State.grow s r ix n).pending = s.pending := by
  unfold State.grow; (try dsimp only); (repeat' split) <;> first | done | (simp; done) | (simp_all; done) | grind

@[simp] theorem State.pmuEng_frame (s : State) (g : Nat) (ev : Nat) (level : Nat) (v : Nat) :
    (State.pmuEng s g ev level v).mem = s.mem ∧ (State.pmuEng s g ev level v).poison = s.poison ∧
    (State.pmuEng s g ev level v).inv = s.inv ∧ (State.pmuEng s g ev level v).tgf = s.tgf ∧
    (State.pmuEng s g ev level v).fifos = s.fifos ∧ (State.pmuEng s g ev level v).threads = s.threads ∧
    (State.pmuEng s g ev level v).engines = s.engines ∧ (State.pmuEng s g ev level v).clusters = s.clusters ∧
    (State.pmuEng s g ev level v).ops = s.ops ∧ (State.pmuEng s g ev level v).orders = s.orders ∧
    (State.pmuEng s g ev level v).rings = s.rings ∧ (State.pmuEng s g ev level v).net = s.net ∧
    (State.pmuEng s g ev level v).mtch = s.mtch ∧ (State.pmuEng s g ev level v).aml = s.aml ∧
    (State.pmuEng s g ev level v).host = s.host ∧ (State.pmuEng s g ev level v).dev = s.dev ∧
    (State.pmuEng s g ev level v).eptCache = s.eptCache ∧ (State.pmuEng s g ev level v).ports = s.ports ∧
    (State.pmuEng s g ev level v).lanes = s.lanes ∧ (State.pmuEng s g ev level v).lims = s.lims ∧
    (State.pmuEng s g ev level v).limCache = s.limCache ∧ (State.pmuEng s g ev level v).limRefill = s.limRefill ∧
    (State.pmuEng s g ev level v).route = s.route ∧ (State.pmuEng s g ev level v).halfLatch = s.halfLatch ∧
    (State.pmuEng s g ev level v).recLatch = s.recLatch ∧ (State.pmuEng s g ev level v).sbAddr = s.sbAddr ∧
    (State.pmuEng s g ev level v).variant = s.variant ∧ (State.pmuEng s g ev level v).out = s.out ∧
    (State.pmuEng s g ev level v).free = s.free ∧ (State.pmuEng s g ev level v).pending = s.pending := by
  unfold State.pmuEng; (try dsimp only); (repeat' split) <;> first | done | (simp; done) | (simp_all; done) | simp [State.foldl_mem,
    (apply_ite State.mem), State.foldl_poison, (apply_ite State.poison), State.foldl_inv, (apply_ite State.inv), State.foldl_tgf,
      (apply_ite State.tgf), State.foldl_fifos, (apply_ite State.fifos), State.foldl_threads, (apply_ite State.threads),
        State.foldl_engines, (apply_ite State.engines), State.foldl_clusters, (apply_ite State.clusters), State.foldl_ops,
          (apply_ite State.ops), State.foldl_orders, (apply_ite State.orders), State.foldl_rings, (apply_ite State.rings),
            State.foldl_net, (apply_ite State.net), State.foldl_mtch, (apply_ite State.mtch), State.foldl_aml, (apply_ite State.aml),
              State.foldl_host, (apply_ite State.host), State.foldl_dev, (apply_ite State.dev), State.foldl_eptCache,
                (apply_ite State.eptCache), State.foldl_ports, (apply_ite State.ports), State.foldl_lanes, (apply_ite State.lanes),
                  State.foldl_lims, (apply_ite State.lims), State.foldl_limCache, (apply_ite State.limCache), State.foldl_limRefill,
                    (apply_ite State.limRefill), State.foldl_route, (apply_ite State.route), State.foldl_halfLatch,
                      (apply_ite State.halfLatch), State.foldl_recLatch, (apply_ite State.recLatch), State.foldl_sbAddr,
                        (apply_ite State.sbAddr), State.foldl_variant, (apply_ite State.variant), State.foldl_out, (apply_ite State.out),
                          State.foldl_free, (apply_ite State.free), State.foldl_pending, (apply_ite State.pending)]

@[simp] theorem State.pmuUnit_frame (s : State) (u : Nat) (n : Nat) (ev : Nat) (v : Nat) :
    (State.pmuUnit s u n ev v).mem = s.mem ∧ (State.pmuUnit s u n ev v).poison = s.poison ∧ (State.pmuUnit s u n ev v).inv = s.inv ∧
    (State.pmuUnit s u n ev v).tgf = s.tgf ∧ (State.pmuUnit s u n ev v).fifos = s.fifos ∧ (State.pmuUnit s u n ev v).threads = s.threads ∧
    (State.pmuUnit s u n ev v).engines = s.engines ∧ (State.pmuUnit s u n ev v).clusters = s.clusters ∧
    (State.pmuUnit s u n ev v).ops = s.ops ∧ (State.pmuUnit s u n ev v).orders = s.orders ∧ (State.pmuUnit s u n ev v).rings = s.rings ∧
    (State.pmuUnit s u n ev v).net = s.net ∧ (State.pmuUnit s u n ev v).mtch = s.mtch ∧ (State.pmuUnit s u n ev v).aml = s.aml ∧
    (State.pmuUnit s u n ev v).host = s.host ∧ (State.pmuUnit s u n ev v).dev = s.dev ∧ (State.pmuUnit s u n ev v).eptCache = s.eptCache ∧
    (State.pmuUnit s u n ev v).ports = s.ports ∧ (State.pmuUnit s u n ev v).lanes = s.lanes ∧ (State.pmuUnit s u n ev v).lims = s.lims ∧
    (State.pmuUnit s u n ev v).limCache = s.limCache ∧ (State.pmuUnit s u n ev v).limRefill = s.limRefill ∧
    (State.pmuUnit s u n ev v).route = s.route ∧ (State.pmuUnit s u n ev v).halfLatch = s.halfLatch ∧
    (State.pmuUnit s u n ev v).recLatch = s.recLatch ∧ (State.pmuUnit s u n ev v).sbAddr = s.sbAddr ∧
    (State.pmuUnit s u n ev v).variant = s.variant ∧ (State.pmuUnit s u n ev v).out = s.out ∧ (State.pmuUnit s u n ev v).free = s.free ∧
    (State.pmuUnit s u n ev v).pending = s.pending := by
  unfold State.pmuUnit; (try dsimp only); (repeat' split) <;> first | done | (simp; done) | (simp_all; done) | simp [State.foldl_mem,
    (apply_ite State.mem), State.foldl_poison, (apply_ite State.poison), State.foldl_inv, (apply_ite State.inv), State.foldl_tgf,
      (apply_ite State.tgf), State.foldl_fifos, (apply_ite State.fifos), State.foldl_threads, (apply_ite State.threads),
        State.foldl_engines, (apply_ite State.engines), State.foldl_clusters, (apply_ite State.clusters), State.foldl_ops,
          (apply_ite State.ops), State.foldl_orders, (apply_ite State.orders), State.foldl_rings, (apply_ite State.rings),
            State.foldl_net, (apply_ite State.net), State.foldl_mtch, (apply_ite State.mtch), State.foldl_aml, (apply_ite State.aml),
              State.foldl_host, (apply_ite State.host), State.foldl_dev, (apply_ite State.dev), State.foldl_eptCache,
                (apply_ite State.eptCache), State.foldl_ports, (apply_ite State.ports), State.foldl_lanes, (apply_ite State.lanes),
                  State.foldl_lims, (apply_ite State.lims), State.foldl_limCache, (apply_ite State.limCache), State.foldl_limRefill,
                    (apply_ite State.limRefill), State.foldl_route, (apply_ite State.route), State.foldl_halfLatch,
                      (apply_ite State.halfLatch), State.foldl_recLatch, (apply_ite State.recLatch), State.foldl_sbAddr,
                        (apply_ite State.sbAddr), State.foldl_variant, (apply_ite State.variant), State.foldl_out, (apply_ite State.out),
                          State.foldl_free, (apply_ite State.free), State.foldl_pending, (apply_ite State.pending)]

@[simp] theorem State.pmuTile_frame (s : State) (t : Nat) (ev : Nat) (v : Nat) :
    (State.pmuTile s t ev v).mem = s.mem ∧ (State.pmuTile s t ev v).poison = s.poison ∧ (State.pmuTile s t ev v).inv = s.inv ∧
    (State.pmuTile s t ev v).tgf = s.tgf ∧ (State.pmuTile s t ev v).fifos = s.fifos ∧ (State.pmuTile s t ev v).threads = s.threads ∧
    (State.pmuTile s t ev v).engines = s.engines ∧ (State.pmuTile s t ev v).clusters = s.clusters ∧ (State.pmuTile s t ev v).ops = s.ops ∧
    (State.pmuTile s t ev v).orders = s.orders ∧ (State.pmuTile s t ev v).rings = s.rings ∧ (State.pmuTile s t ev v).net = s.net ∧
    (State.pmuTile s t ev v).mtch = s.mtch ∧ (State.pmuTile s t ev v).aml = s.aml ∧ (State.pmuTile s t ev v).host = s.host ∧
    (State.pmuTile s t ev v).dev = s.dev ∧ (State.pmuTile s t ev v).eptCache = s.eptCache ∧ (State.pmuTile s t ev v).ports = s.ports ∧
    (State.pmuTile s t ev v).lanes = s.lanes ∧ (State.pmuTile s t ev v).lims = s.lims ∧ (State.pmuTile s t ev v).limCache = s.limCache ∧
    (State.pmuTile s t ev v).limRefill = s.limRefill ∧ (State.pmuTile s t ev v).route = s.route ∧
    (State.pmuTile s t ev v).halfLatch = s.halfLatch ∧ (State.pmuTile s t ev v).recLatch = s.recLatch ∧
    (State.pmuTile s t ev v).sbAddr = s.sbAddr ∧ (State.pmuTile s t ev v).variant = s.variant ∧ (State.pmuTile s t ev v).out = s.out ∧
    (State.pmuTile s t ev v).free = s.free ∧ (State.pmuTile s t ev v).pending = s.pending := by
  unfold State.pmuTile; (try dsimp only); (repeat' split) <;> first | done | (simp; done) | (simp_all; done) | grind

@[simp] theorem State.pmuPort_frame (s : State) (p : Nat) (ev : Nat) (v : Nat) :
    (State.pmuPort s p ev v).mem = s.mem ∧ (State.pmuPort s p ev v).poison = s.poison ∧ (State.pmuPort s p ev v).inv = s.inv ∧
    (State.pmuPort s p ev v).tgf = s.tgf ∧ (State.pmuPort s p ev v).fifos = s.fifos ∧ (State.pmuPort s p ev v).threads = s.threads ∧
    (State.pmuPort s p ev v).engines = s.engines ∧ (State.pmuPort s p ev v).clusters = s.clusters ∧ (State.pmuPort s p ev v).ops = s.ops ∧
    (State.pmuPort s p ev v).orders = s.orders ∧ (State.pmuPort s p ev v).rings = s.rings ∧ (State.pmuPort s p ev v).net = s.net ∧
    (State.pmuPort s p ev v).mtch = s.mtch ∧ (State.pmuPort s p ev v).aml = s.aml ∧ (State.pmuPort s p ev v).host = s.host ∧
    (State.pmuPort s p ev v).dev = s.dev ∧ (State.pmuPort s p ev v).eptCache = s.eptCache ∧ (State.pmuPort s p ev v).ports = s.ports ∧
    (State.pmuPort s p ev v).lanes = s.lanes ∧ (State.pmuPort s p ev v).lims = s.lims ∧ (State.pmuPort s p ev v).limCache = s.limCache ∧
    (State.pmuPort s p ev v).limRefill = s.limRefill ∧ (State.pmuPort s p ev v).route = s.route ∧
    (State.pmuPort s p ev v).halfLatch = s.halfLatch ∧ (State.pmuPort s p ev v).recLatch = s.recLatch ∧
    (State.pmuPort s p ev v).sbAddr = s.sbAddr ∧ (State.pmuPort s p ev v).variant = s.variant ∧ (State.pmuPort s p ev v).out = s.out ∧
    (State.pmuPort s p ev v).free = s.free ∧ (State.pmuPort s p ev v).pending = s.pending := by
  unfold State.pmuPort; (try dsimp only); (repeat' split) <;> first | done | (simp; done) | (simp_all; done) | grind

@[simp] theorem State.pmuAtt_frame (s : State) (a : Nat) (ev : Nat) (v : Nat) :
    (State.pmuAtt s a ev v).mem = s.mem ∧ (State.pmuAtt s a ev v).poison = s.poison ∧ (State.pmuAtt s a ev v).inv = s.inv ∧
    (State.pmuAtt s a ev v).tgf = s.tgf ∧ (State.pmuAtt s a ev v).fifos = s.fifos ∧ (State.pmuAtt s a ev v).threads = s.threads ∧
    (State.pmuAtt s a ev v).engines = s.engines ∧ (State.pmuAtt s a ev v).clusters = s.clusters ∧ (State.pmuAtt s a ev v).ops = s.ops ∧
    (State.pmuAtt s a ev v).orders = s.orders ∧ (State.pmuAtt s a ev v).rings = s.rings ∧ (State.pmuAtt s a ev v).net = s.net ∧
    (State.pmuAtt s a ev v).mtch = s.mtch ∧ (State.pmuAtt s a ev v).aml = s.aml ∧ (State.pmuAtt s a ev v).host = s.host ∧
    (State.pmuAtt s a ev v).dev = s.dev ∧ (State.pmuAtt s a ev v).eptCache = s.eptCache ∧ (State.pmuAtt s a ev v).ports = s.ports ∧
    (State.pmuAtt s a ev v).lanes = s.lanes ∧ (State.pmuAtt s a ev v).lims = s.lims ∧ (State.pmuAtt s a ev v).limCache = s.limCache ∧
    (State.pmuAtt s a ev v).limRefill = s.limRefill ∧ (State.pmuAtt s a ev v).route = s.route ∧
    (State.pmuAtt s a ev v).halfLatch = s.halfLatch ∧ (State.pmuAtt s a ev v).recLatch = s.recLatch ∧
    (State.pmuAtt s a ev v).sbAddr = s.sbAddr ∧ (State.pmuAtt s a ev v).variant = s.variant ∧ (State.pmuAtt s a ev v).out = s.out ∧
    (State.pmuAtt s a ev v).free = s.free ∧ (State.pmuAtt s a ev v).pending = s.pending := by
  unfold State.pmuAtt; (try dsimp only); (repeat' split) <;> first | done | (simp; done) | (simp_all; done) | grind

@[simp] theorem State.pmuAml_frame (s : State) (u : Nat) (ev : Nat) (v : Nat) :
    (State.pmuAml s u ev v).mem = s.mem ∧ (State.pmuAml s u ev v).poison = s.poison ∧ (State.pmuAml s u ev v).inv = s.inv ∧
    (State.pmuAml s u ev v).tgf = s.tgf ∧ (State.pmuAml s u ev v).fifos = s.fifos ∧ (State.pmuAml s u ev v).threads = s.threads ∧
    (State.pmuAml s u ev v).engines = s.engines ∧ (State.pmuAml s u ev v).clusters = s.clusters ∧ (State.pmuAml s u ev v).ops = s.ops ∧
    (State.pmuAml s u ev v).orders = s.orders ∧ (State.pmuAml s u ev v).rings = s.rings ∧ (State.pmuAml s u ev v).net = s.net ∧
    (State.pmuAml s u ev v).mtch = s.mtch ∧ (State.pmuAml s u ev v).aml = s.aml ∧ (State.pmuAml s u ev v).host = s.host ∧
    (State.pmuAml s u ev v).dev = s.dev ∧ (State.pmuAml s u ev v).eptCache = s.eptCache ∧ (State.pmuAml s u ev v).ports = s.ports ∧
    (State.pmuAml s u ev v).lanes = s.lanes ∧ (State.pmuAml s u ev v).lims = s.lims ∧ (State.pmuAml s u ev v).limCache = s.limCache ∧
    (State.pmuAml s u ev v).limRefill = s.limRefill ∧ (State.pmuAml s u ev v).route = s.route ∧
    (State.pmuAml s u ev v).halfLatch = s.halfLatch ∧ (State.pmuAml s u ev v).recLatch = s.recLatch ∧
    (State.pmuAml s u ev v).sbAddr = s.sbAddr ∧ (State.pmuAml s u ev v).variant = s.variant ∧ (State.pmuAml s u ev v).out = s.out ∧
    (State.pmuAml s u ev v).free = s.free ∧ (State.pmuAml s u ev v).pending = s.pending := by
  unfold State.pmuAml; (try dsimp only); (repeat' split) <;> first | done | (simp; done) | (simp_all; done) | grind

@[simp] theorem State.pmuCluster_frame (s : State) (c : Nat) (ev : Nat) (v : Nat) :
    (State.pmuCluster s c ev v).mem = s.mem ∧ (State.pmuCluster s c ev v).poison = s.poison ∧ (State.pmuCluster s c ev v).inv = s.inv ∧
    (State.pmuCluster s c ev v).tgf = s.tgf ∧ (State.pmuCluster s c ev v).fifos = s.fifos ∧
    (State.pmuCluster s c ev v).threads = s.threads ∧ (State.pmuCluster s c ev v).engines = s.engines ∧
    (State.pmuCluster s c ev v).clusters = s.clusters ∧ (State.pmuCluster s c ev v).ops = s.ops ∧
    (State.pmuCluster s c ev v).orders = s.orders ∧ (State.pmuCluster s c ev v).rings = s.rings ∧
    (State.pmuCluster s c ev v).net = s.net ∧ (State.pmuCluster s c ev v).mtch = s.mtch ∧ (State.pmuCluster s c ev v).aml = s.aml ∧
    (State.pmuCluster s c ev v).host = s.host ∧ (State.pmuCluster s c ev v).dev = s.dev ∧
    (State.pmuCluster s c ev v).eptCache = s.eptCache ∧ (State.pmuCluster s c ev v).ports = s.ports ∧
    (State.pmuCluster s c ev v).lanes = s.lanes ∧ (State.pmuCluster s c ev v).lims = s.lims ∧
    (State.pmuCluster s c ev v).limCache = s.limCache ∧ (State.pmuCluster s c ev v).limRefill = s.limRefill ∧
    (State.pmuCluster s c ev v).route = s.route ∧ (State.pmuCluster s c ev v).halfLatch = s.halfLatch ∧
    (State.pmuCluster s c ev v).recLatch = s.recLatch ∧ (State.pmuCluster s c ev v).sbAddr = s.sbAddr ∧
    (State.pmuCluster s c ev v).variant = s.variant ∧ (State.pmuCluster s c ev v).out = s.out ∧
    (State.pmuCluster s c ev v).free = s.free ∧ (State.pmuCluster s c ev v).pending = s.pending := by
  unfold State.pmuCluster; (try dsimp only); (repeat' split) <;> first | done | (simp; done) | (simp_all; done) | grind

@[simp] theorem State.histTake_frame (s : State) (u : Nat) (v : Nat) :
    (State.histTake s u v).mem = s.mem ∧ (State.histTake s u v).poison = s.poison ∧ (State.histTake s u v).inv = s.inv ∧
    (State.histTake s u v).tgf = s.tgf ∧ (State.histTake s u v).fifos = s.fifos ∧ (State.histTake s u v).threads = s.threads ∧
    (State.histTake s u v).engines = s.engines ∧ (State.histTake s u v).clusters = s.clusters ∧ (State.histTake s u v).ops = s.ops ∧
    (State.histTake s u v).orders = s.orders ∧ (State.histTake s u v).rings = s.rings ∧ (State.histTake s u v).net = s.net ∧
    (State.histTake s u v).mtch = s.mtch ∧ (State.histTake s u v).aml = s.aml ∧ (State.histTake s u v).host = s.host ∧
    (State.histTake s u v).dev = s.dev ∧ (State.histTake s u v).eptCache = s.eptCache ∧ (State.histTake s u v).ports = s.ports ∧
    (State.histTake s u v).lanes = s.lanes ∧ (State.histTake s u v).lims = s.lims ∧ (State.histTake s u v).limCache = s.limCache ∧
    (State.histTake s u v).limRefill = s.limRefill ∧ (State.histTake s u v).route = s.route ∧
    (State.histTake s u v).halfLatch = s.halfLatch ∧ (State.histTake s u v).recLatch = s.recLatch ∧
    (State.histTake s u v).sbAddr = s.sbAddr ∧ (State.histTake s u v).variant = s.variant ∧ (State.histTake s u v).out = s.out ∧
    (State.histTake s u v).free = s.free ∧ (State.histTake s u v).pending = s.pending := by
  unfold State.histTake; (try dsimp only); (repeat' split) <;> first | done | (simp; done) | (simp_all; done) | grind

@[simp] theorem State.histSample_frame (s : State) (x : Sample) :
    (State.histSample s x).mem = s.mem ∧ (State.histSample s x).poison = s.poison ∧ (State.histSample s x).inv = s.inv ∧
    (State.histSample s x).tgf = s.tgf ∧ (State.histSample s x).fifos = s.fifos ∧ (State.histSample s x).threads = s.threads ∧
    (State.histSample s x).engines = s.engines ∧ (State.histSample s x).clusters = s.clusters ∧ (State.histSample s x).ops = s.ops ∧
    (State.histSample s x).orders = s.orders ∧ (State.histSample s x).rings = s.rings ∧ (State.histSample s x).net = s.net ∧
    (State.histSample s x).mtch = s.mtch ∧ (State.histSample s x).aml = s.aml ∧ (State.histSample s x).host = s.host ∧
    (State.histSample s x).dev = s.dev ∧ (State.histSample s x).eptCache = s.eptCache ∧ (State.histSample s x).ports = s.ports ∧
    (State.histSample s x).lanes = s.lanes ∧ (State.histSample s x).lims = s.lims ∧ (State.histSample s x).limCache = s.limCache ∧
    (State.histSample s x).limRefill = s.limRefill ∧ (State.histSample s x).route = s.route ∧
    (State.histSample s x).halfLatch = s.halfLatch ∧ (State.histSample s x).recLatch = s.recLatch ∧
    (State.histSample s x).sbAddr = s.sbAddr ∧ (State.histSample s x).variant = s.variant ∧ (State.histSample s x).out = s.out ∧
    (State.histSample s x).free = s.free ∧ (State.histSample s x).pending = s.pending := by
  unfold State.histSample; (try dsimp only); (repeat' split) <;> first | done | (simp; done) | (simp_all; done) | simp [State.foldl_mem,
    (apply_ite State.mem), State.foldl_poison, (apply_ite State.poison), State.foldl_inv, (apply_ite State.inv), State.foldl_tgf,
      (apply_ite State.tgf), State.foldl_fifos, (apply_ite State.fifos), State.foldl_threads, (apply_ite State.threads),
        State.foldl_engines, (apply_ite State.engines), State.foldl_clusters, (apply_ite State.clusters), State.foldl_ops,
          (apply_ite State.ops), State.foldl_orders, (apply_ite State.orders), State.foldl_rings, (apply_ite State.rings),
            State.foldl_net, (apply_ite State.net), State.foldl_mtch, (apply_ite State.mtch), State.foldl_aml, (apply_ite State.aml),
              State.foldl_host, (apply_ite State.host), State.foldl_dev, (apply_ite State.dev), State.foldl_eptCache,
                (apply_ite State.eptCache), State.foldl_ports, (apply_ite State.ports), State.foldl_lanes, (apply_ite State.lanes),
                  State.foldl_lims, (apply_ite State.lims), State.foldl_limCache, (apply_ite State.limCache), State.foldl_limRefill,
                    (apply_ite State.limRefill), State.foldl_route, (apply_ite State.route), State.foldl_halfLatch,
                      (apply_ite State.halfLatch), State.foldl_recLatch, (apply_ite State.recLatch), State.foldl_sbAddr,
                        (apply_ite State.sbAddr), State.foldl_variant, (apply_ite State.variant), State.foldl_out, (apply_ite State.out),
                          State.foldl_free, (apply_ite State.free), State.foldl_pending, (apply_ite State.pending)]

@[simp] theorem State.wfFull_frame (s : State) (k : Nat) :
    (State.wfFull s k).mem = s.mem ∧ (State.wfFull s k).poison = s.poison ∧ (State.wfFull s k).inv = s.inv ∧
    (State.wfFull s k).tgf = s.tgf ∧ (State.wfFull s k).fifos = s.fifos ∧ (State.wfFull s k).threads = s.threads ∧
    (State.wfFull s k).engines = s.engines ∧ (State.wfFull s k).clusters = s.clusters ∧ (State.wfFull s k).ops = s.ops ∧
    (State.wfFull s k).orders = s.orders ∧ (State.wfFull s k).rings = s.rings ∧ (State.wfFull s k).net = s.net ∧
    (State.wfFull s k).mtch = s.mtch ∧ (State.wfFull s k).aml = s.aml ∧ (State.wfFull s k).host = s.host ∧
    (State.wfFull s k).dev = s.dev ∧ (State.wfFull s k).eptCache = s.eptCache ∧ (State.wfFull s k).ports = s.ports ∧
    (State.wfFull s k).lanes = s.lanes ∧ (State.wfFull s k).lims = s.lims ∧ (State.wfFull s k).limCache = s.limCache ∧
    (State.wfFull s k).limRefill = s.limRefill ∧ (State.wfFull s k).route = s.route ∧ (State.wfFull s k).halfLatch = s.halfLatch ∧
    (State.wfFull s k).recLatch = s.recLatch ∧ (State.wfFull s k).sbAddr = s.sbAddr ∧ (State.wfFull s k).variant = s.variant ∧
    (State.wfFull s k).out = s.out ∧ (State.wfFull s k).free = s.free ∧ (State.wfFull s k).pending = s.pending := by
  unfold State.wfFull; (try dsimp only); (repeat' split) <;> first | done | (simp; done) | (simp_all; done) | grind

theorem State.wfStart_frame (s : State) (k : Nat) (reserveClass : Bool) (it : Item) (for_ : WriteFor) (s' : State)
    (h : State.wfStart s k reserveClass it for_ = some s') :
    s'.regs = s.regs ∧ s'.mem = s.mem ∧ s'.poison = s.poison ∧ s'.inv = s.inv ∧ s'.tgf = s.tgf ∧ s'.threads = s.threads ∧
    s'.engines = s.engines ∧ s'.clusters = s.clusters ∧ s'.ops = s.ops ∧ s'.orders = s.orders ∧ s'.rings = s.rings ∧ s'.net = s.net ∧
    s'.mtch = s.mtch ∧ s'.aml = s.aml ∧ s'.host = s.host ∧ s'.dev = s.dev ∧ s'.eptCache = s.eptCache ∧ s'.ports = s.ports ∧
    s'.lanes = s.lanes ∧ s'.lims = s.lims ∧ s'.limCache = s.limCache ∧ s'.limRefill = s.limRefill ∧ s'.route = s.route ∧
    s'.halfLatch = s.halfLatch ∧ s'.recLatch = s.recLatch ∧ s'.sbAddr = s.sbAddr ∧ s'.variant = s.variant ∧ s'.out = s.out ∧
    s'.free = s.free ∧ s'.pending = s.pending := by
  unfold State.wfStart at h; (try dsimp only at h); (repeat' split at h) <;>
    first | done | (cases h; simp; done) | (cases h; simp_all; done) | grind

@[simp] theorem State.wfRelease_frame (s : State) (k : Nat) (b : Nat) (id : Nat) :
    (State.wfRelease s k b id).regs = s.regs ∧ (State.wfRelease s k b id).mem = s.mem ∧ (State.wfRelease s k b id).poison = s.poison ∧
    (State.wfRelease s k b id).inv = s.inv ∧ (State.wfRelease s k b id).tgf = s.tgf ∧ (State.wfRelease s k b id).threads = s.threads ∧
    (State.wfRelease s k b id).engines = s.engines ∧ (State.wfRelease s k b id).clusters = s.clusters ∧
    (State.wfRelease s k b id).ops = s.ops ∧ (State.wfRelease s k b id).orders = s.orders ∧ (State.wfRelease s k b id).rings = s.rings ∧
    (State.wfRelease s k b id).net = s.net ∧ (State.wfRelease s k b id).mtch = s.mtch ∧ (State.wfRelease s k b id).aml = s.aml ∧
    (State.wfRelease s k b id).host = s.host ∧ (State.wfRelease s k b id).dev = s.dev ∧ (State.wfRelease s k b id).eptCache = s.eptCache ∧
    (State.wfRelease s k b id).ports = s.ports ∧ (State.wfRelease s k b id).lanes = s.lanes ∧ (State.wfRelease s k b id).lims = s.lims ∧
    (State.wfRelease s k b id).limCache = s.limCache ∧ (State.wfRelease s k b id).limRefill = s.limRefill ∧
    (State.wfRelease s k b id).route = s.route ∧ (State.wfRelease s k b id).halfLatch = s.halfLatch ∧
    (State.wfRelease s k b id).recLatch = s.recLatch ∧ (State.wfRelease s k b id).sbAddr = s.sbAddr ∧
    (State.wfRelease s k b id).variant = s.variant ∧ (State.wfRelease s k b id).out = s.out ∧ (State.wfRelease s k b id).free = s.free ∧
    (State.wfRelease s k b id).pending = s.pending := by
  unfold State.wfRelease; (try dsimp only); (repeat' split) <;> first | done | (simp; done) | (simp_all; done) | grind

@[simp] theorem State.wfOffer_frame (s : State) (k : Nat) (reserveClass : Bool) (it : Item) (for_ : WriteFor) :
    (State.wfOffer s k reserveClass it for_).mem = s.mem ∧ (State.wfOffer s k reserveClass it for_).poison = s.poison ∧
    (State.wfOffer s k reserveClass it for_).inv = s.inv ∧ (State.wfOffer s k reserveClass it for_).tgf = s.tgf ∧
    (State.wfOffer s k reserveClass it for_).threads = s.threads ∧ (State.wfOffer s k reserveClass it for_).engines = s.engines ∧
    (State.wfOffer s k reserveClass it for_).clusters = s.clusters ∧ (State.wfOffer s k reserveClass it for_).ops = s.ops ∧
    (State.wfOffer s k reserveClass it for_).orders = s.orders ∧ (State.wfOffer s k reserveClass it for_).rings = s.rings ∧
    (State.wfOffer s k reserveClass it for_).net = s.net ∧ (State.wfOffer s k reserveClass it for_).mtch = s.mtch ∧
    (State.wfOffer s k reserveClass it for_).aml = s.aml ∧ (State.wfOffer s k reserveClass it for_).host = s.host ∧
    (State.wfOffer s k reserveClass it for_).dev = s.dev ∧ (State.wfOffer s k reserveClass it for_).eptCache = s.eptCache ∧
    (State.wfOffer s k reserveClass it for_).ports = s.ports ∧ (State.wfOffer s k reserveClass it for_).lanes = s.lanes ∧
    (State.wfOffer s k reserveClass it for_).lims = s.lims ∧ (State.wfOffer s k reserveClass it for_).limCache = s.limCache ∧
    (State.wfOffer s k reserveClass it for_).limRefill = s.limRefill ∧ (State.wfOffer s k reserveClass it for_).route = s.route ∧
    (State.wfOffer s k reserveClass it for_).halfLatch = s.halfLatch ∧ (State.wfOffer s k reserveClass it for_).recLatch = s.recLatch ∧
    (State.wfOffer s k reserveClass it for_).sbAddr = s.sbAddr ∧ (State.wfOffer s k reserveClass it for_).variant = s.variant ∧
    (State.wfOffer s k reserveClass it for_).out = s.out ∧ (State.wfOffer s k reserveClass it for_).free = s.free ∧
    (State.wfOffer s k reserveClass it for_).pending = s.pending := by
  unfold State.wfOffer; (try dsimp only); (repeat' split) <;> first | done | (simp; done) | (simp_all; done) | grind [→ State.wfStart_frame]

@[simp] theorem State.discardAllHeld_frame (s : State) :
    (State.discardAllHeld s).mem = s.mem ∧ (State.discardAllHeld s).poison = s.poison ∧ (State.discardAllHeld s).inv = s.inv ∧
    (State.discardAllHeld s).tgf = s.tgf ∧ (State.discardAllHeld s).fifos = s.fifos ∧ (State.discardAllHeld s).threads = s.threads ∧
    (State.discardAllHeld s).engines = s.engines ∧ (State.discardAllHeld s).clusters = s.clusters ∧ (State.discardAllHeld s).ops = s.ops ∧
    (State.discardAllHeld s).orders = s.orders ∧ (State.discardAllHeld s).rings = s.rings ∧ (State.discardAllHeld s).net = s.net ∧
    (State.discardAllHeld s).mtch = s.mtch ∧ (State.discardAllHeld s).aml = s.aml ∧ (State.discardAllHeld s).host = s.host ∧
    (State.discardAllHeld s).dev = s.dev ∧ (State.discardAllHeld s).eptCache = s.eptCache ∧ (State.discardAllHeld s).ports = s.ports ∧
    (State.discardAllHeld s).lanes = s.lanes ∧ (State.discardAllHeld s).lims = s.lims ∧ (State.discardAllHeld s).limCache = s.limCache ∧
    (State.discardAllHeld s).limRefill = s.limRefill ∧ (State.discardAllHeld s).route = s.route ∧
    (State.discardAllHeld s).halfLatch = s.halfLatch ∧ (State.discardAllHeld s).recLatch = s.recLatch ∧
    (State.discardAllHeld s).sbAddr = s.sbAddr ∧ (State.discardAllHeld s).variant = s.variant ∧ (State.discardAllHeld s).out = s.out ∧
    (State.discardAllHeld s).free = s.free ∧ (State.discardAllHeld s).pending = s.pending := by
  unfold State.discardAllHeld; (try dsimp only); (repeat' split) <;>
    first | done | (simp; done) | (simp_all; done) | simp [State.foldl_mem, (apply_ite State.mem), State.foldl_poison,
      (apply_ite State.poison), State.foldl_inv, (apply_ite State.inv), State.foldl_tgf, (apply_ite State.tgf), State.foldl_fifos,
        (apply_ite State.fifos), State.foldl_threads, (apply_ite State.threads), State.foldl_engines, (apply_ite State.engines),
          State.foldl_clusters, (apply_ite State.clusters), State.foldl_ops, (apply_ite State.ops), State.foldl_orders,
            (apply_ite State.orders), State.foldl_rings, (apply_ite State.rings), State.foldl_net, (apply_ite State.net),
              State.foldl_mtch, (apply_ite State.mtch), State.foldl_aml, (apply_ite State.aml), State.foldl_host, (apply_ite State.host),
                State.foldl_dev, (apply_ite State.dev), State.foldl_eptCache, (apply_ite State.eptCache), State.foldl_ports,
                  (apply_ite State.ports), State.foldl_lanes, (apply_ite State.lanes), State.foldl_lims, (apply_ite State.lims),
                    State.foldl_limCache, (apply_ite State.limCache), State.foldl_limRefill, (apply_ite State.limRefill),
                      State.foldl_route, (apply_ite State.route), State.foldl_halfLatch, (apply_ite State.halfLatch),
                        State.foldl_recLatch, (apply_ite State.recLatch), State.foldl_sbAddr, (apply_ite State.sbAddr),
                          State.foldl_variant, (apply_ite State.variant), State.foldl_out, (apply_ite State.out), State.foldl_free,
                            (apply_ite State.free), State.foldl_pending, (apply_ite State.pending)]

@[simp] theorem State.haltAdapter_frame (s : State) :
    (State.haltAdapter s).mem = s.mem ∧ (State.haltAdapter s).poison = s.poison ∧ (State.haltAdapter s).inv = s.inv ∧
    (State.haltAdapter s).fifos = s.fifos ∧ (State.haltAdapter s).threads = s.threads ∧ (State.haltAdapter s).engines = s.engines ∧
    (State.haltAdapter s).clusters = s.clusters ∧ (State.haltAdapter s).ops = s.ops ∧ (State.haltAdapter s).orders = s.orders ∧
    (State.haltAdapter s).rings = s.rings ∧ (State.haltAdapter s).net = s.net ∧ (State.haltAdapter s).mtch = s.mtch ∧
    (State.haltAdapter s).aml = s.aml ∧ (State.haltAdapter s).host = s.host ∧ (State.haltAdapter s).dev = s.dev ∧
    (State.haltAdapter s).eptCache = s.eptCache ∧ (State.haltAdapter s).ports = s.ports ∧ (State.haltAdapter s).lanes = s.lanes ∧
    (State.haltAdapter s).lims = s.lims ∧ (State.haltAdapter s).limCache = s.limCache ∧ (State.haltAdapter s).limRefill = s.limRefill ∧
    (State.haltAdapter s).route = s.route ∧ (State.haltAdapter s).halfLatch = s.halfLatch ∧ (State.haltAdapter s).recLatch = s.recLatch ∧
    (State.haltAdapter s).sbAddr = s.sbAddr ∧ (State.haltAdapter s).variant = s.variant ∧ (State.haltAdapter s).out = s.out ∧
    (State.haltAdapter s).free = s.free ∧ (State.haltAdapter s).pending = s.pending := by
  unfold State.haltAdapter; (try dsimp only); (repeat' split) <;> first | done | (simp; done) | (simp_all; done) | grind

@[simp] theorem State.react_frame (s : State) (cls : Nat) :
    (State.react s cls).mem = s.mem ∧ (State.react s cls).poison = s.poison ∧ (State.react s cls).inv = s.inv ∧
    (State.react s cls).fifos = s.fifos ∧ (State.react s cls).threads = s.threads ∧ (State.react s cls).engines = s.engines ∧
    (State.react s cls).clusters = s.clusters ∧ (State.react s cls).ops = s.ops ∧ (State.react s cls).orders = s.orders ∧
    (State.react s cls).rings = s.rings ∧ (State.react s cls).net = s.net ∧ (State.react s cls).mtch = s.mtch ∧
    (State.react s cls).aml = s.aml ∧ (State.react s cls).host = s.host ∧ (State.react s cls).dev = s.dev ∧
    (State.react s cls).eptCache = s.eptCache ∧ (State.react s cls).ports = s.ports ∧ (State.react s cls).lanes = s.lanes ∧
    (State.react s cls).lims = s.lims ∧ (State.react s cls).limCache = s.limCache ∧ (State.react s cls).limRefill = s.limRefill ∧
    (State.react s cls).route = s.route ∧ (State.react s cls).halfLatch = s.halfLatch ∧ (State.react s cls).recLatch = s.recLatch ∧
    (State.react s cls).sbAddr = s.sbAddr ∧ (State.react s cls).variant = s.variant ∧ (State.react s cls).free = s.free ∧
    (State.react s cls).pending = s.pending := by
  unfold State.react; (try dsimp only); (repeat' split) <;> first | done | (simp; done) | (simp_all; done) | grind

@[simp] theorem State.sendFaultEvent_frame (s : State) (body : List Byte) :
    (State.sendFaultEvent s body).mem = s.mem ∧ (State.sendFaultEvent s body).poison = s.poison ∧
    (State.sendFaultEvent s body).inv = s.inv ∧ (State.sendFaultEvent s body).threads = s.threads ∧
    (State.sendFaultEvent s body).engines = s.engines ∧ (State.sendFaultEvent s body).clusters = s.clusters ∧
    (State.sendFaultEvent s body).ops = s.ops ∧ (State.sendFaultEvent s body).orders = s.orders ∧
    (State.sendFaultEvent s body).rings = s.rings ∧ (State.sendFaultEvent s body).net = s.net ∧
    (State.sendFaultEvent s body).mtch = s.mtch ∧ (State.sendFaultEvent s body).aml = s.aml ∧
    (State.sendFaultEvent s body).host = s.host ∧ (State.sendFaultEvent s body).dev = s.dev ∧
    (State.sendFaultEvent s body).eptCache = s.eptCache ∧ (State.sendFaultEvent s body).ports = s.ports ∧
    (State.sendFaultEvent s body).lanes = s.lanes ∧ (State.sendFaultEvent s body).lims = s.lims ∧
    (State.sendFaultEvent s body).limCache = s.limCache ∧ (State.sendFaultEvent s body).limRefill = s.limRefill ∧
    (State.sendFaultEvent s body).route = s.route ∧ (State.sendFaultEvent s body).halfLatch = s.halfLatch ∧
    (State.sendFaultEvent s body).recLatch = s.recLatch ∧ (State.sendFaultEvent s body).sbAddr = s.sbAddr ∧
    (State.sendFaultEvent s body).variant = s.variant ∧ (State.sendFaultEvent s body).out = s.out ∧
    (State.sendFaultEvent s body).free = s.free ∧ (State.sendFaultEvent s body).pending = s.pending := by
  unfold State.sendFaultEvent; dsimp only; split
  · split <;> simp
  · split
    · next heq => split at heq
                  · have := State.wfStart_frame _ _ _ _ _ _ heq; simp_all
                  · cases heq
    · split <;> simp

@[simp] theorem State.openRecord_frame (s : State) (e : Event) (freeze : Bool) :
    (State.openRecord s e freeze).regs = s.regs ∧ (State.openRecord s e freeze).mem = s.mem ∧
    (State.openRecord s e freeze).poison = s.poison ∧ (State.openRecord s e freeze).inv = s.inv ∧
    (State.openRecord s e freeze).fifos = s.fifos ∧ (State.openRecord s e freeze).threads = s.threads ∧
    (State.openRecord s e freeze).engines = s.engines ∧ (State.openRecord s e freeze).clusters = s.clusters ∧
    (State.openRecord s e freeze).ops = s.ops ∧ (State.openRecord s e freeze).orders = s.orders ∧
    (State.openRecord s e freeze).rings = s.rings ∧ (State.openRecord s e freeze).net = s.net ∧
    (State.openRecord s e freeze).mtch = s.mtch ∧ (State.openRecord s e freeze).aml = s.aml ∧
    (State.openRecord s e freeze).host = s.host ∧ (State.openRecord s e freeze).dev = s.dev ∧
    (State.openRecord s e freeze).eptCache = s.eptCache ∧ (State.openRecord s e freeze).ports = s.ports ∧
    (State.openRecord s e freeze).lanes = s.lanes ∧ (State.openRecord s e freeze).lims = s.lims ∧
    (State.openRecord s e freeze).limCache = s.limCache ∧ (State.openRecord s e freeze).limRefill = s.limRefill ∧
    (State.openRecord s e freeze).route = s.route ∧ (State.openRecord s e freeze).halfLatch = s.halfLatch ∧
    (State.openRecord s e freeze).recLatch = s.recLatch ∧ (State.openRecord s e freeze).sbAddr = s.sbAddr ∧
    (State.openRecord s e freeze).variant = s.variant ∧ (State.openRecord s e freeze).out = s.out ∧
    (State.openRecord s e freeze).free = s.free ∧ (State.openRecord s e freeze).pending = s.pending := by
  unfold State.openRecord; (try dsimp only); (repeat' split) <;> first | done | (simp; done) | (simp_all; done) | grind

@[simp] theorem State.countEvent_frame (s : State) (e : Event) :
    (State.countEvent s e).mem = s.mem ∧ (State.countEvent s e).poison = s.poison ∧ (State.countEvent s e).inv = s.inv ∧
    (State.countEvent s e).tgf = s.tgf ∧ (State.countEvent s e).fifos = s.fifos ∧ (State.countEvent s e).threads = s.threads ∧
    (State.countEvent s e).engines = s.engines ∧ (State.countEvent s e).clusters = s.clusters ∧ (State.countEvent s e).ops = s.ops ∧
    (State.countEvent s e).orders = s.orders ∧ (State.countEvent s e).rings = s.rings ∧ (State.countEvent s e).net = s.net ∧
    (State.countEvent s e).mtch = s.mtch ∧ (State.countEvent s e).aml = s.aml ∧ (State.countEvent s e).host = s.host ∧
    (State.countEvent s e).dev = s.dev ∧ (State.countEvent s e).eptCache = s.eptCache ∧ (State.countEvent s e).ports = s.ports ∧
    (State.countEvent s e).lanes = s.lanes ∧ (State.countEvent s e).lims = s.lims ∧ (State.countEvent s e).limCache = s.limCache ∧
    (State.countEvent s e).limRefill = s.limRefill ∧ (State.countEvent s e).route = s.route ∧
    (State.countEvent s e).halfLatch = s.halfLatch ∧ (State.countEvent s e).recLatch = s.recLatch ∧
    (State.countEvent s e).sbAddr = s.sbAddr ∧ (State.countEvent s e).variant = s.variant ∧ (State.countEvent s e).out = s.out ∧
    (State.countEvent s e).free = s.free ∧ (State.countEvent s e).pending = s.pending := by
  unfold State.countEvent; (try dsimp only); (repeat' split) <;> first | done | (simp; done) | (simp_all; done) | grind

@[simp] theorem State.afterFreeze_frame (s : State) (e : Event) :
    (State.afterFreeze s e).mem = s.mem ∧ (State.afterFreeze s e).poison = s.poison ∧ (State.afterFreeze s e).inv = s.inv ∧
    (State.afterFreeze s e).fifos = s.fifos ∧ (State.afterFreeze s e).threads = s.threads ∧ (State.afterFreeze s e).engines = s.engines ∧
    (State.afterFreeze s e).clusters = s.clusters ∧ (State.afterFreeze s e).ops = s.ops ∧ (State.afterFreeze s e).orders = s.orders ∧
    (State.afterFreeze s e).rings = s.rings ∧ (State.afterFreeze s e).net = s.net ∧ (State.afterFreeze s e).mtch = s.mtch ∧
    (State.afterFreeze s e).aml = s.aml ∧ (State.afterFreeze s e).host = s.host ∧ (State.afterFreeze s e).dev = s.dev ∧
    (State.afterFreeze s e).eptCache = s.eptCache ∧ (State.afterFreeze s e).ports = s.ports ∧ (State.afterFreeze s e).lanes = s.lanes ∧
    (State.afterFreeze s e).lims = s.lims ∧ (State.afterFreeze s e).limCache = s.limCache ∧
    (State.afterFreeze s e).limRefill = s.limRefill ∧ (State.afterFreeze s e).route = s.route ∧
    (State.afterFreeze s e).halfLatch = s.halfLatch ∧ (State.afterFreeze s e).recLatch = s.recLatch ∧
    (State.afterFreeze s e).sbAddr = s.sbAddr ∧ (State.afterFreeze s e).variant = s.variant ∧ (State.afterFreeze s e).free = s.free ∧
    (State.afterFreeze s e).pending = s.pending := by
  unfold State.afterFreeze; (try dsimp only); (repeat' split) <;> first | done | (simp; done) | (simp_all; done) | grind

@[simp] theorem State.present_frame (s : State) (e : Event) :
    (State.present s e).mem = s.mem ∧ (State.present s e).poison = s.poison ∧ (State.present s e).inv = s.inv ∧
    (State.present s e).threads = s.threads ∧ (State.present s e).engines = s.engines ∧ (State.present s e).clusters = s.clusters ∧
    (State.present s e).ops = s.ops ∧ (State.present s e).orders = s.orders ∧ (State.present s e).rings = s.rings ∧
    (State.present s e).net = s.net ∧ (State.present s e).mtch = s.mtch ∧ (State.present s e).aml = s.aml ∧
    (State.present s e).host = s.host ∧ (State.present s e).dev = s.dev ∧ (State.present s e).eptCache = s.eptCache ∧
    (State.present s e).ports = s.ports ∧ (State.present s e).lanes = s.lanes ∧ (State.present s e).lims = s.lims ∧
    (State.present s e).limCache = s.limCache ∧ (State.present s e).limRefill = s.limRefill ∧ (State.present s e).route = s.route ∧
    (State.present s e).halfLatch = s.halfLatch ∧ (State.present s e).recLatch = s.recLatch ∧ (State.present s e).sbAddr = s.sbAddr ∧
    (State.present s e).variant = s.variant ∧ (State.present s e).free = s.free ∧ (State.present s e).pending = s.pending := by
  unfold State.present; (try dsimp only); (repeat' split) <;> first | done | (simp; done) | (simp_all; done) | grind

@[simp] theorem State.report_frame (s : State) (src : Nat) (code : Nat) (info0 : Nat) (info1 : Nat) :
    (State.report s src code info0 info1).inv = s.inv ∧ (State.report s src code info0 info1).threads = s.threads ∧
    (State.report s src code info0 info1).engines = s.engines ∧ (State.report s src code info0 info1).clusters = s.clusters ∧
    (State.report s src code info0 info1).ops = s.ops ∧ (State.report s src code info0 info1).orders = s.orders ∧
    (State.report s src code info0 info1).rings = s.rings ∧ (State.report s src code info0 info1).net = s.net ∧
    (State.report s src code info0 info1).mtch = s.mtch ∧ (State.report s src code info0 info1).aml = s.aml ∧
    (State.report s src code info0 info1).host = s.host ∧ (State.report s src code info0 info1).dev = s.dev ∧
    (State.report s src code info0 info1).eptCache = s.eptCache ∧ (State.report s src code info0 info1).ports = s.ports ∧
    (State.report s src code info0 info1).lanes = s.lanes ∧ (State.report s src code info0 info1).lims = s.lims ∧
    (State.report s src code info0 info1).limCache = s.limCache ∧ (State.report s src code info0 info1).limRefill = s.limRefill ∧
    (State.report s src code info0 info1).route = s.route ∧ (State.report s src code info0 info1).halfLatch = s.halfLatch ∧
    (State.report s src code info0 info1).recLatch = s.recLatch ∧ (State.report s src code info0 info1).sbAddr = s.sbAddr ∧
    (State.report s src code info0 info1).variant = s.variant ∧ (State.report s src code info0 info1).free = s.free ∧
    (State.report s src code info0 info1).pending = s.pending := by
  unfold State.report; (try dsimp only); (repeat' split) <;> first | done | (simp; done) | (simp_all; done) | grind

@[simp] theorem State.hostWrite_frame (s : State) (f : Nat) (addr : Nat) (data : List Byte) :
    (State.hostWrite s f addr data).mem = s.mem ∧ (State.hostWrite s f addr data).poison = s.poison ∧
    (State.hostWrite s f addr data).inv = s.inv ∧ (State.hostWrite s f addr data).tgf = s.tgf ∧
    (State.hostWrite s f addr data).fifos = s.fifos ∧ (State.hostWrite s f addr data).threads = s.threads ∧
    (State.hostWrite s f addr data).engines = s.engines ∧ (State.hostWrite s f addr data).clusters = s.clusters ∧
    (State.hostWrite s f addr data).ops = s.ops ∧ (State.hostWrite s f addr data).orders = s.orders ∧
    (State.hostWrite s f addr data).rings = s.rings ∧ (State.hostWrite s f addr data).net = s.net ∧
    (State.hostWrite s f addr data).mtch = s.mtch ∧ (State.hostWrite s f addr data).aml = s.aml ∧
    (State.hostWrite s f addr data).host = s.host ∧ (State.hostWrite s f addr data).dev = s.dev ∧
    (State.hostWrite s f addr data).eptCache = s.eptCache ∧ (State.hostWrite s f addr data).ports = s.ports ∧
    (State.hostWrite s f addr data).lanes = s.lanes ∧ (State.hostWrite s f addr data).lims = s.lims ∧
    (State.hostWrite s f addr data).limCache = s.limCache ∧ (State.hostWrite s f addr data).limRefill = s.limRefill ∧
    (State.hostWrite s f addr data).route = s.route ∧ (State.hostWrite s f addr data).halfLatch = s.halfLatch ∧
    (State.hostWrite s f addr data).recLatch = s.recLatch ∧ (State.hostWrite s f addr data).sbAddr = s.sbAddr ∧
    (State.hostWrite s f addr data).variant = s.variant ∧ (State.hostWrite s f addr data).free = s.free ∧
    (State.hostWrite s f addr data).pending = s.pending := by
  unfold State.hostWrite; (try dsimp only); (repeat' split) <;> first | done | (simp; done) | (simp_all; done) | grind

@[simp] theorem State.hostRead_frame (s : State) (tag : Nat) (f : Nat) (addr : Nat) (len : Nat) :
    (State.hostRead s tag f addr len).mem = s.mem ∧ (State.hostRead s tag f addr len).poison = s.poison ∧
    (State.hostRead s tag f addr len).inv = s.inv ∧ (State.hostRead s tag f addr len).tgf = s.tgf ∧
    (State.hostRead s tag f addr len).fifos = s.fifos ∧ (State.hostRead s tag f addr len).threads = s.threads ∧
    (State.hostRead s tag f addr len).engines = s.engines ∧ (State.hostRead s tag f addr len).clusters = s.clusters ∧
    (State.hostRead s tag f addr len).ops = s.ops ∧ (State.hostRead s tag f addr len).orders = s.orders ∧
    (State.hostRead s tag f addr len).rings = s.rings ∧ (State.hostRead s tag f addr len).net = s.net ∧
    (State.hostRead s tag f addr len).mtch = s.mtch ∧ (State.hostRead s tag f addr len).aml = s.aml ∧
    (State.hostRead s tag f addr len).host = s.host ∧ (State.hostRead s tag f addr len).dev = s.dev ∧
    (State.hostRead s tag f addr len).eptCache = s.eptCache ∧ (State.hostRead s tag f addr len).ports = s.ports ∧
    (State.hostRead s tag f addr len).lanes = s.lanes ∧ (State.hostRead s tag f addr len).lims = s.lims ∧
    (State.hostRead s tag f addr len).limCache = s.limCache ∧ (State.hostRead s tag f addr len).limRefill = s.limRefill ∧
    (State.hostRead s tag f addr len).route = s.route ∧ (State.hostRead s tag f addr len).halfLatch = s.halfLatch ∧
    (State.hostRead s tag f addr len).recLatch = s.recLatch ∧ (State.hostRead s tag f addr len).sbAddr = s.sbAddr ∧
    (State.hostRead s tag f addr len).variant = s.variant ∧ (State.hostRead s tag f addr len).free = s.free ∧
    (State.hostRead s tag f addr len).pending = s.pending := by
  unfold State.hostRead; (try dsimp only); (repeat' split) <;> first | done | (simp; done) | (simp_all; done) | grind

@[simp] theorem State.hostGot_frame (s : State) (f : Nat) (n : Nat) :
    (State.hostGot s f n).mem = s.mem ∧ (State.hostGot s f n).poison = s.poison ∧ (State.hostGot s f n).inv = s.inv ∧
    (State.hostGot s f n).tgf = s.tgf ∧ (State.hostGot s f n).fifos = s.fifos ∧ (State.hostGot s f n).threads = s.threads ∧
    (State.hostGot s f n).engines = s.engines ∧ (State.hostGot s f n).clusters = s.clusters ∧ (State.hostGot s f n).ops = s.ops ∧
    (State.hostGot s f n).orders = s.orders ∧ (State.hostGot s f n).rings = s.rings ∧ (State.hostGot s f n).net = s.net ∧
    (State.hostGot s f n).mtch = s.mtch ∧ (State.hostGot s f n).aml = s.aml ∧ (State.hostGot s f n).host = s.host ∧
    (State.hostGot s f n).dev = s.dev ∧ (State.hostGot s f n).eptCache = s.eptCache ∧ (State.hostGot s f n).ports = s.ports ∧
    (State.hostGot s f n).lanes = s.lanes ∧ (State.hostGot s f n).lims = s.lims ∧ (State.hostGot s f n).limCache = s.limCache ∧
    (State.hostGot s f n).limRefill = s.limRefill ∧ (State.hostGot s f n).route = s.route ∧
    (State.hostGot s f n).halfLatch = s.halfLatch ∧ (State.hostGot s f n).recLatch = s.recLatch ∧
    (State.hostGot s f n).sbAddr = s.sbAddr ∧ (State.hostGot s f n).variant = s.variant ∧ (State.hostGot s f n).out = s.out ∧
    (State.hostGot s f n).free = s.free ∧ (State.hostGot s f n).pending = s.pending := by
  unfold State.hostGot; (try dsimp only); (repeat' split) <;> first | done | (simp; done) | (simp_all; done) | grind

@[simp] theorem State.startExit_frame (s : State) (f : Nat) :
    (State.startExit s f).mem = s.mem ∧ (State.startExit s f).poison = s.poison ∧ (State.startExit s f).inv = s.inv ∧
    (State.startExit s f).tgf = s.tgf ∧ (State.startExit s f).fifos = s.fifos ∧ (State.startExit s f).threads = s.threads ∧
    (State.startExit s f).engines = s.engines ∧ (State.startExit s f).clusters = s.clusters ∧ (State.startExit s f).ops = s.ops ∧
    (State.startExit s f).orders = s.orders ∧ (State.startExit s f).rings = s.rings ∧ (State.startExit s f).net = s.net ∧
    (State.startExit s f).mtch = s.mtch ∧ (State.startExit s f).aml = s.aml ∧ (State.startExit s f).dev = s.dev ∧
    (State.startExit s f).eptCache = s.eptCache ∧ (State.startExit s f).ports = s.ports ∧ (State.startExit s f).lanes = s.lanes ∧
    (State.startExit s f).lims = s.lims ∧ (State.startExit s f).limCache = s.limCache ∧ (State.startExit s f).limRefill = s.limRefill ∧
    (State.startExit s f).route = s.route ∧ (State.startExit s f).halfLatch = s.halfLatch ∧ (State.startExit s f).recLatch = s.recLatch ∧
    (State.startExit s f).sbAddr = s.sbAddr ∧ (State.startExit s f).variant = s.variant ∧ (State.startExit s f).out = s.out ∧
    (State.startExit s f).free = s.free ∧ (State.startExit s f).pending = s.pending := by
  unfold State.startExit; (try dsimp only); (repeat' split) <;> first | done | (simp; done) | (simp_all; done) | grind

@[simp] theorem State.traffic_frame (s : State) (f : Nat) :
    (State.traffic s f).regs = s.regs ∧ (State.traffic s f).mem = s.mem ∧ (State.traffic s f).poison = s.poison ∧
    (State.traffic s f).inv = s.inv ∧ (State.traffic s f).tgf = s.tgf ∧ (State.traffic s f).fifos = s.fifos ∧
    (State.traffic s f).threads = s.threads ∧ (State.traffic s f).engines = s.engines ∧ (State.traffic s f).clusters = s.clusters ∧
    (State.traffic s f).ops = s.ops ∧ (State.traffic s f).orders = s.orders ∧ (State.traffic s f).rings = s.rings ∧
    (State.traffic s f).net = s.net ∧ (State.traffic s f).mtch = s.mtch ∧ (State.traffic s f).aml = s.aml ∧
    (State.traffic s f).dev = s.dev ∧ (State.traffic s f).eptCache = s.eptCache ∧ (State.traffic s f).ports = s.ports ∧
    (State.traffic s f).lanes = s.lanes ∧ (State.traffic s f).lims = s.lims ∧ (State.traffic s f).limCache = s.limCache ∧
    (State.traffic s f).limRefill = s.limRefill ∧ (State.traffic s f).route = s.route ∧ (State.traffic s f).halfLatch = s.halfLatch ∧
    (State.traffic s f).recLatch = s.recLatch ∧ (State.traffic s f).sbAddr = s.sbAddr ∧ (State.traffic s f).variant = s.variant ∧
    (State.traffic s f).out = s.out ∧ (State.traffic s f).free = s.free ∧ (State.traffic s f).pending = s.pending := by
  unfold State.traffic; (try dsimp only); (repeat' split) <;> first | done | (simp; done) | (simp_all; done) | grind

@[simp] theorem State.assertWake_frame (s : State) :
    (State.assertWake s).mem = s.mem ∧ (State.assertWake s).poison = s.poison ∧ (State.assertWake s).inv = s.inv ∧
    (State.assertWake s).tgf = s.tgf ∧ (State.assertWake s).fifos = s.fifos ∧ (State.assertWake s).threads = s.threads ∧
    (State.assertWake s).engines = s.engines ∧ (State.assertWake s).clusters = s.clusters ∧ (State.assertWake s).ops = s.ops ∧
    (State.assertWake s).orders = s.orders ∧ (State.assertWake s).rings = s.rings ∧ (State.assertWake s).net = s.net ∧
    (State.assertWake s).mtch = s.mtch ∧ (State.assertWake s).aml = s.aml ∧ (State.assertWake s).dev = s.dev ∧
    (State.assertWake s).eptCache = s.eptCache ∧ (State.assertWake s).ports = s.ports ∧ (State.assertWake s).lanes = s.lanes ∧
    (State.assertWake s).lims = s.lims ∧ (State.assertWake s).limCache = s.limCache ∧ (State.assertWake s).limRefill = s.limRefill ∧
    (State.assertWake s).route = s.route ∧ (State.assertWake s).halfLatch = s.halfLatch ∧ (State.assertWake s).recLatch = s.recLatch ∧
    (State.assertWake s).sbAddr = s.sbAddr ∧ (State.assertWake s).variant = s.variant ∧ (State.assertWake s).free = s.free ∧
    (State.assertWake s).pending = s.pending := by
  unfold State.assertWake; (try dsimp only); (repeat' split) <;> first | done | (simp; done) | (simp_all; done) | grind

@[simp] theorem State.requestWake_frame (s : State) (f : Nat) :
    (State.requestWake s f).mem = s.mem ∧ (State.requestWake s f).poison = s.poison ∧ (State.requestWake s f).inv = s.inv ∧
    (State.requestWake s f).tgf = s.tgf ∧ (State.requestWake s f).fifos = s.fifos ∧ (State.requestWake s f).threads = s.threads ∧
    (State.requestWake s f).engines = s.engines ∧ (State.requestWake s f).clusters = s.clusters ∧ (State.requestWake s f).ops = s.ops ∧
    (State.requestWake s f).orders = s.orders ∧ (State.requestWake s f).rings = s.rings ∧ (State.requestWake s f).net = s.net ∧
    (State.requestWake s f).mtch = s.mtch ∧ (State.requestWake s f).aml = s.aml ∧ (State.requestWake s f).dev = s.dev ∧
    (State.requestWake s f).eptCache = s.eptCache ∧ (State.requestWake s f).ports = s.ports ∧ (State.requestWake s f).lanes = s.lanes ∧
    (State.requestWake s f).lims = s.lims ∧ (State.requestWake s f).limCache = s.limCache ∧
    (State.requestWake s f).limRefill = s.limRefill ∧ (State.requestWake s f).route = s.route ∧
    (State.requestWake s f).halfLatch = s.halfLatch ∧ (State.requestWake s f).recLatch = s.recLatch ∧
    (State.requestWake s f).sbAddr = s.sbAddr ∧ (State.requestWake s f).variant = s.variant ∧ (State.requestWake s f).free = s.free ∧
    (State.requestWake s f).pending = s.pending := by
  unfold State.requestWake; (try dsimp only); (repeat' split) <;> first | done | (simp; done) | (simp_all; done) | grind

@[simp] theorem State.raiseIrq_frame (s : State) (f : Nat) (v : Nat) :
    (State.raiseIrq s f v).mem = s.mem ∧ (State.raiseIrq s f v).poison = s.poison ∧ (State.raiseIrq s f v).inv = s.inv ∧
    (State.raiseIrq s f v).tgf = s.tgf ∧ (State.raiseIrq s f v).fifos = s.fifos ∧ (State.raiseIrq s f v).threads = s.threads ∧
    (State.raiseIrq s f v).engines = s.engines ∧ (State.raiseIrq s f v).clusters = s.clusters ∧ (State.raiseIrq s f v).ops = s.ops ∧
    (State.raiseIrq s f v).orders = s.orders ∧ (State.raiseIrq s f v).rings = s.rings ∧ (State.raiseIrq s f v).net = s.net ∧
    (State.raiseIrq s f v).mtch = s.mtch ∧ (State.raiseIrq s f v).aml = s.aml ∧ (State.raiseIrq s f v).dev = s.dev ∧
    (State.raiseIrq s f v).eptCache = s.eptCache ∧ (State.raiseIrq s f v).ports = s.ports ∧ (State.raiseIrq s f v).lanes = s.lanes ∧
    (State.raiseIrq s f v).lims = s.lims ∧ (State.raiseIrq s f v).limCache = s.limCache ∧ (State.raiseIrq s f v).limRefill = s.limRefill ∧
    (State.raiseIrq s f v).route = s.route ∧ (State.raiseIrq s f v).halfLatch = s.halfLatch ∧
    (State.raiseIrq s f v).recLatch = s.recLatch ∧ (State.raiseIrq s f v).sbAddr = s.sbAddr ∧ (State.raiseIrq s f v).variant = s.variant ∧
    (State.raiseIrq s f v).free = s.free ∧ (State.raiseIrq s f v).pending = s.pending := by
  unfold State.raiseIrq; (try dsimp only); (repeat' split) <;> first | done | (simp; done) | (simp_all; done) | grind

@[simp] theorem State.hostErr_frame (s : State) (f : Nat) (st : Nat) :
    (State.hostErr s f st).inv = s.inv ∧ (State.hostErr s f st).threads = s.threads ∧ (State.hostErr s f st).engines = s.engines ∧
    (State.hostErr s f st).clusters = s.clusters ∧ (State.hostErr s f st).ops = s.ops ∧ (State.hostErr s f st).orders = s.orders ∧
    (State.hostErr s f st).rings = s.rings ∧ (State.hostErr s f st).net = s.net ∧ (State.hostErr s f st).mtch = s.mtch ∧
    (State.hostErr s f st).aml = s.aml ∧ (State.hostErr s f st).host = s.host ∧ (State.hostErr s f st).dev = s.dev ∧
    (State.hostErr s f st).eptCache = s.eptCache ∧ (State.hostErr s f st).ports = s.ports ∧ (State.hostErr s f st).lanes = s.lanes ∧
    (State.hostErr s f st).lims = s.lims ∧ (State.hostErr s f st).limCache = s.limCache ∧ (State.hostErr s f st).limRefill = s.limRefill ∧
    (State.hostErr s f st).route = s.route ∧ (State.hostErr s f st).halfLatch = s.halfLatch ∧
    (State.hostErr s f st).recLatch = s.recLatch ∧ (State.hostErr s f st).sbAddr = s.sbAddr ∧ (State.hostErr s f st).variant = s.variant ∧
    (State.hostErr s f st).free = s.free ∧ (State.hostErr s f st).pending = s.pending := by
  unfold State.hostErr; (try dsimp only); (repeat' split) <;> first | done | (simp; done) | (simp_all; done) | grind

@[simp] theorem State.wakeOpwait_frame (s : State) (k : Nat) (gen : Nat) (status : Nat) :
    (State.wakeOpwait s k gen status).regs = s.regs ∧ (State.wakeOpwait s k gen status).mem = s.mem ∧
    (State.wakeOpwait s k gen status).poison = s.poison ∧ (State.wakeOpwait s k gen status).inv = s.inv ∧
    (State.wakeOpwait s k gen status).tgf = s.tgf ∧ (State.wakeOpwait s k gen status).fifos = s.fifos ∧
    (State.wakeOpwait s k gen status).engines = s.engines ∧ (State.wakeOpwait s k gen status).clusters = s.clusters ∧
    (State.wakeOpwait s k gen status).ops = s.ops ∧ (State.wakeOpwait s k gen status).orders = s.orders ∧
    (State.wakeOpwait s k gen status).rings = s.rings ∧ (State.wakeOpwait s k gen status).net = s.net ∧
    (State.wakeOpwait s k gen status).mtch = s.mtch ∧ (State.wakeOpwait s k gen status).aml = s.aml ∧
    (State.wakeOpwait s k gen status).host = s.host ∧ (State.wakeOpwait s k gen status).dev = s.dev ∧
    (State.wakeOpwait s k gen status).eptCache = s.eptCache ∧ (State.wakeOpwait s k gen status).ports = s.ports ∧
    (State.wakeOpwait s k gen status).lanes = s.lanes ∧ (State.wakeOpwait s k gen status).lims = s.lims ∧
    (State.wakeOpwait s k gen status).limCache = s.limCache ∧ (State.wakeOpwait s k gen status).limRefill = s.limRefill ∧
    (State.wakeOpwait s k gen status).route = s.route ∧ (State.wakeOpwait s k gen status).halfLatch = s.halfLatch ∧
    (State.wakeOpwait s k gen status).recLatch = s.recLatch ∧ (State.wakeOpwait s k gen status).sbAddr = s.sbAddr ∧
    (State.wakeOpwait s k gen status).variant = s.variant ∧ (State.wakeOpwait s k gen status).out = s.out ∧
    (State.wakeOpwait s k gen status).free = s.free ∧ (State.wakeOpwait s k gen status).pending = s.pending := by
  unfold State.wakeOpwait; (try dsimp only); (repeat' split) <;> first | done | (simp; done) | (simp_all; done) | grind

@[simp] theorem State.closeSlot_frame (s : State) (k : Nat) :
    (State.closeSlot s k).regs = s.regs ∧ (State.closeSlot s k).mem = s.mem ∧ (State.closeSlot s k).poison = s.poison ∧
    (State.closeSlot s k).inv = s.inv ∧ (State.closeSlot s k).tgf = s.tgf ∧ (State.closeSlot s k).fifos = s.fifos ∧
    (State.closeSlot s k).threads = s.threads ∧ (State.closeSlot s k).engines = s.engines ∧ (State.closeSlot s k).clusters = s.clusters ∧
    (State.closeSlot s k).ops = s.ops ∧ (State.closeSlot s k).orders = s.orders ∧ (State.closeSlot s k).rings = s.rings ∧
    (State.closeSlot s k).net = s.net ∧ (State.closeSlot s k).mtch = s.mtch ∧ (State.closeSlot s k).host = s.host ∧
    (State.closeSlot s k).dev = s.dev ∧ (State.closeSlot s k).eptCache = s.eptCache ∧ (State.closeSlot s k).ports = s.ports ∧
    (State.closeSlot s k).lanes = s.lanes ∧ (State.closeSlot s k).lims = s.lims ∧ (State.closeSlot s k).limCache = s.limCache ∧
    (State.closeSlot s k).limRefill = s.limRefill ∧ (State.closeSlot s k).route = s.route ∧
    (State.closeSlot s k).halfLatch = s.halfLatch ∧ (State.closeSlot s k).recLatch = s.recLatch ∧
    (State.closeSlot s k).sbAddr = s.sbAddr ∧ (State.closeSlot s k).variant = s.variant ∧ (State.closeSlot s k).out = s.out ∧
    (State.closeSlot s k).free = s.free ∧ (State.closeSlot s k).pending = s.pending := by
  unfold State.closeSlot; (try dsimp only); (repeat' split) <;> first | done | (simp; done) | (simp_all; done) | grind

@[simp] theorem State.finish_frame (s : State) (k : Nat) (status : Nat) :
    (State.finish s k status).regs = s.regs ∧ (State.finish s k status).mem = s.mem ∧ (State.finish s k status).poison = s.poison ∧
    (State.finish s k status).inv = s.inv ∧ (State.finish s k status).tgf = s.tgf ∧ (State.finish s k status).fifos = s.fifos ∧
    (State.finish s k status).engines = s.engines ∧ (State.finish s k status).clusters = s.clusters ∧
    (State.finish s k status).orders = s.orders ∧ (State.finish s k status).rings = s.rings ∧ (State.finish s k status).net = s.net ∧
    (State.finish s k status).mtch = s.mtch ∧ (State.finish s k status).host = s.host ∧ (State.finish s k status).dev = s.dev ∧
    (State.finish s k status).eptCache = s.eptCache ∧ (State.finish s k status).ports = s.ports ∧
    (State.finish s k status).lanes = s.lanes ∧ (State.finish s k status).lims = s.lims ∧
    (State.finish s k status).limCache = s.limCache ∧ (State.finish s k status).limRefill = s.limRefill ∧
    (State.finish s k status).route = s.route ∧ (State.finish s k status).halfLatch = s.halfLatch ∧
    (State.finish s k status).recLatch = s.recLatch ∧ (State.finish s k status).sbAddr = s.sbAddr ∧
    (State.finish s k status).variant = s.variant ∧ (State.finish s k status).out = s.out ∧ (State.finish s k status).free = s.free ∧
    (State.finish s k status).pending = s.pending := by
  unfold State.finish; (try dsimp only); (repeat' split) <;> first | done | (simp; done) | (simp_all; done) | grind

@[simp] theorem State.settleFences_frame (s : State) (fs : List Nat) :
    (State.settleFences s fs).regs = s.regs ∧ (State.settleFences s fs).mem = s.mem ∧ (State.settleFences s fs).poison = s.poison ∧
    (State.settleFences s fs).inv = s.inv ∧ (State.settleFences s fs).tgf = s.tgf ∧ (State.settleFences s fs).fifos = s.fifos ∧
    (State.settleFences s fs).engines = s.engines ∧ (State.settleFences s fs).clusters = s.clusters ∧
    (State.settleFences s fs).orders = s.orders ∧ (State.settleFences s fs).rings = s.rings ∧ (State.settleFences s fs).net = s.net ∧
    (State.settleFences s fs).mtch = s.mtch ∧ (State.settleFences s fs).host = s.host ∧ (State.settleFences s fs).dev = s.dev ∧
    (State.settleFences s fs).eptCache = s.eptCache ∧ (State.settleFences s fs).ports = s.ports ∧
    (State.settleFences s fs).lanes = s.lanes ∧ (State.settleFences s fs).lims = s.lims ∧
    (State.settleFences s fs).limCache = s.limCache ∧ (State.settleFences s fs).limRefill = s.limRefill ∧
    (State.settleFences s fs).route = s.route ∧ (State.settleFences s fs).halfLatch = s.halfLatch ∧
    (State.settleFences s fs).recLatch = s.recLatch ∧ (State.settleFences s fs).sbAddr = s.sbAddr ∧
    (State.settleFences s fs).variant = s.variant ∧ (State.settleFences s fs).out = s.out ∧ (State.settleFences s fs).free = s.free ∧
    (State.settleFences s fs).pending = s.pending := by
  unfold State.settleFences; (try dsimp only); (repeat' split) <;>
    first | done | (simp; done) | (simp_all; done) | simp [State.foldl_regs, (apply_ite State.regs), State.foldl_mem,
      (apply_ite State.mem), State.foldl_poison, (apply_ite State.poison), State.foldl_inv, (apply_ite State.inv), State.foldl_tgf,
        (apply_ite State.tgf), State.foldl_fifos, (apply_ite State.fifos), State.foldl_engines, (apply_ite State.engines),
          State.foldl_clusters, (apply_ite State.clusters), State.foldl_orders, (apply_ite State.orders), State.foldl_rings,
            (apply_ite State.rings), State.foldl_net, (apply_ite State.net), State.foldl_mtch, (apply_ite State.mtch), State.foldl_host,
              (apply_ite State.host), State.foldl_dev, (apply_ite State.dev), State.foldl_eptCache, (apply_ite State.eptCache),
                State.foldl_ports, (apply_ite State.ports), State.foldl_lanes, (apply_ite State.lanes), State.foldl_lims,
                  (apply_ite State.lims), State.foldl_limCache, (apply_ite State.limCache), State.foldl_limRefill,
                    (apply_ite State.limRefill), State.foldl_route, (apply_ite State.route), State.foldl_halfLatch,
                      (apply_ite State.halfLatch), State.foldl_recLatch, (apply_ite State.recLatch), State.foldl_sbAddr,
                        (apply_ite State.sbAddr), State.foldl_variant, (apply_ite State.variant), State.foldl_out, (apply_ite State.out),
                          State.foldl_free, (apply_ite State.free), State.foldl_pending, (apply_ite State.pending)]

@[simp] theorem State.complete_frame (s : State) (k : Nat) (status : Nat) :
    (State.complete s k status).regs = s.regs ∧ (State.complete s k status).mem = s.mem ∧ (State.complete s k status).poison = s.poison ∧
    (State.complete s k status).inv = s.inv ∧ (State.complete s k status).tgf = s.tgf ∧ (State.complete s k status).fifos = s.fifos ∧
    (State.complete s k status).engines = s.engines ∧ (State.complete s k status).clusters = s.clusters ∧
    (State.complete s k status).orders = s.orders ∧ (State.complete s k status).rings = s.rings ∧
    (State.complete s k status).net = s.net ∧ (State.complete s k status).mtch = s.mtch ∧ (State.complete s k status).host = s.host ∧
    (State.complete s k status).dev = s.dev ∧ (State.complete s k status).eptCache = s.eptCache ∧
    (State.complete s k status).ports = s.ports ∧ (State.complete s k status).lanes = s.lanes ∧
    (State.complete s k status).lims = s.lims ∧ (State.complete s k status).limCache = s.limCache ∧
    (State.complete s k status).limRefill = s.limRefill ∧ (State.complete s k status).route = s.route ∧
    (State.complete s k status).halfLatch = s.halfLatch ∧ (State.complete s k status).recLatch = s.recLatch ∧
    (State.complete s k status).sbAddr = s.sbAddr ∧ (State.complete s k status).variant = s.variant ∧
    (State.complete s k status).out = s.out ∧ (State.complete s k status).free = s.free ∧
    (State.complete s k status).pending = s.pending := by
  unfold State.complete; (try dsimp only); (repeat' split) <;> first | done | (simp; done) | (simp_all; done) | grind

@[simp] theorem State.completeWith_frame (s : State) (k : Nat) (status : Nat) (result : Word) (bytes : Nat) :
    (State.completeWith s k status result bytes).regs = s.regs ∧ (State.completeWith s k status result bytes).mem = s.mem ∧
    (State.completeWith s k status result bytes).poison = s.poison ∧ (State.completeWith s k status result bytes).inv = s.inv ∧
    (State.completeWith s k status result bytes).tgf = s.tgf ∧ (State.completeWith s k status result bytes).fifos = s.fifos ∧
    (State.completeWith s k status result bytes).engines = s.engines ∧
    (State.completeWith s k status result bytes).clusters = s.clusters ∧ (State.completeWith s k status result bytes).orders = s.orders ∧
    (State.completeWith s k status result bytes).rings = s.rings ∧ (State.completeWith s k status result bytes).net = s.net ∧
    (State.completeWith s k status result bytes).mtch = s.mtch ∧ (State.completeWith s k status result bytes).host = s.host ∧
    (State.completeWith s k status result bytes).dev = s.dev ∧ (State.completeWith s k status result bytes).eptCache = s.eptCache ∧
    (State.completeWith s k status result bytes).ports = s.ports ∧ (State.completeWith s k status result bytes).lanes = s.lanes ∧
    (State.completeWith s k status result bytes).lims = s.lims ∧ (State.completeWith s k status result bytes).limCache = s.limCache ∧
    (State.completeWith s k status result bytes).limRefill = s.limRefill ∧ (State.completeWith s k status result bytes).route = s.route ∧
    (State.completeWith s k status result bytes).halfLatch = s.halfLatch ∧
    (State.completeWith s k status result bytes).recLatch = s.recLatch ∧ (State.completeWith s k status result bytes).sbAddr = s.sbAddr ∧
    (State.completeWith s k status result bytes).variant = s.variant ∧ (State.completeWith s k status result bytes).out = s.out ∧
    (State.completeWith s k status result bytes).free = s.free ∧ (State.completeWith s k status result bytes).pending = s.pending := by
  unfold State.completeWith; (try dsimp only); (repeat' split) <;> first | done | (simp; done) | (simp_all; done) | grind

@[simp] theorem State.voidRest_frame (s : State) (k : Nat) (status : Nat) :
    (State.voidRest s k status).regs = s.regs ∧ (State.voidRest s k status).mem = s.mem ∧ (State.voidRest s k status).poison = s.poison ∧
    (State.voidRest s k status).inv = s.inv ∧ (State.voidRest s k status).tgf = s.tgf ∧ (State.voidRest s k status).fifos = s.fifos ∧
    (State.voidRest s k status).threads = s.threads ∧ (State.voidRest s k status).engines = s.engines ∧
    (State.voidRest s k status).clusters = s.clusters ∧ (State.voidRest s k status).orders = s.orders ∧
    (State.voidRest s k status).rings = s.rings ∧ (State.voidRest s k status).net = s.net ∧ (State.voidRest s k status).mtch = s.mtch ∧
    (State.voidRest s k status).aml = s.aml ∧ (State.voidRest s k status).host = s.host ∧ (State.voidRest s k status).dev = s.dev ∧
    (State.voidRest s k status).eptCache = s.eptCache ∧ (State.voidRest s k status).ports = s.ports ∧
    (State.voidRest s k status).lanes = s.lanes ∧ (State.voidRest s k status).lims = s.lims ∧
    (State.voidRest s k status).limCache = s.limCache ∧ (State.voidRest s k status).limRefill = s.limRefill ∧
    (State.voidRest s k status).route = s.route ∧ (State.voidRest s k status).halfLatch = s.halfLatch ∧
    (State.voidRest s k status).recLatch = s.recLatch ∧ (State.voidRest s k status).sbAddr = s.sbAddr ∧
    (State.voidRest s k status).variant = s.variant ∧ (State.voidRest s k status).out = s.out ∧
    (State.voidRest s k status).free = s.free ∧ (State.voidRest s k status).pending = s.pending := by
  unfold State.voidRest; (try dsimp only); (repeat' split) <;> first | done | (simp; done) | (simp_all; done) | grind

@[simp] theorem State.abortOp_frame (s : State) (k : Nat) :
    (State.abortOp s k).2.regs = s.regs ∧ (State.abortOp s k).2.mem = s.mem ∧ (State.abortOp s k).2.poison = s.poison ∧
    (State.abortOp s k).2.inv = s.inv ∧ (State.abortOp s k).2.tgf = s.tgf ∧ (State.abortOp s k).2.fifos = s.fifos ∧
    (State.abortOp s k).2.engines = s.engines ∧ (State.abortOp s k).2.orders = s.orders ∧ (State.abortOp s k).2.rings = s.rings ∧
    (State.abortOp s k).2.net = s.net ∧ (State.abortOp s k).2.mtch = s.mtch ∧ (State.abortOp s k).2.host = s.host ∧
    (State.abortOp s k).2.dev = s.dev ∧ (State.abortOp s k).2.eptCache = s.eptCache ∧ (State.abortOp s k).2.ports = s.ports ∧
    (State.abortOp s k).2.lanes = s.lanes ∧ (State.abortOp s k).2.lims = s.lims ∧ (State.abortOp s k).2.limCache = s.limCache ∧
    (State.abortOp s k).2.limRefill = s.limRefill ∧ (State.abortOp s k).2.route = s.route ∧
    (State.abortOp s k).2.halfLatch = s.halfLatch ∧ (State.abortOp s k).2.recLatch = s.recLatch ∧
    (State.abortOp s k).2.sbAddr = s.sbAddr ∧ (State.abortOp s k).2.variant = s.variant ∧ (State.abortOp s k).2.out = s.out ∧
    (State.abortOp s k).2.free = s.free ∧ (State.abortOp s k).2.pending = s.pending := by
  unfold State.abortOp; (try dsimp only); (repeat' split) <;> first | done | (simp; done) | (simp_all; done) | grind

theorem State.abortOp_frame_of (s : State) (k : Nat) (result : Bool) (s' : State) (h : State.abortOp s k = (result, s')) :
    s'.regs = s.regs ∧ s'.mem = s.mem ∧ s'.poison = s.poison ∧ s'.inv = s.inv ∧ s'.tgf = s.tgf ∧ s'.fifos = s.fifos ∧
    s'.engines = s.engines ∧ s'.orders = s.orders ∧ s'.rings = s.rings ∧ s'.net = s.net ∧ s'.mtch = s.mtch ∧ s'.host = s.host ∧
    s'.dev = s.dev ∧ s'.eptCache = s.eptCache ∧ s'.ports = s.ports ∧ s'.lanes = s.lanes ∧ s'.lims = s.lims ∧ s'.limCache = s.limCache ∧
    s'.limRefill = s.limRefill ∧ s'.route = s.route ∧ s'.halfLatch = s.halfLatch ∧ s'.recLatch = s.recLatch ∧ s'.sbAddr = s.sbAddr ∧
    s'.variant = s.variant ∧ s'.out = s.out ∧ s'.free = s.free ∧ s'.pending = s.pending := by
  have := State.abortOp_frame s k; rwa [h] at this

@[simp] theorem State.setPktRef_frame (s : State) (c : Nat) (r : Nat) (x : Option PktRef) :
    (State.setPktRef s c r x).regs = s.regs ∧ (State.setPktRef s c r x).mem = s.mem ∧ (State.setPktRef s c r x).poison = s.poison ∧
    (State.setPktRef s c r x).inv = s.inv ∧ (State.setPktRef s c r x).tgf = s.tgf ∧ (State.setPktRef s c r x).fifos = s.fifos ∧
    (State.setPktRef s c r x).threads = s.threads ∧ (State.setPktRef s c r x).engines = s.engines ∧
    (State.setPktRef s c r x).ops = s.ops ∧ (State.setPktRef s c r x).orders = s.orders ∧ (State.setPktRef s c r x).rings = s.rings ∧
    (State.setPktRef s c r x).net = s.net ∧ (State.setPktRef s c r x).mtch = s.mtch ∧ (State.setPktRef s c r x).aml = s.aml ∧
    (State.setPktRef s c r x).host = s.host ∧ (State.setPktRef s c r x).dev = s.dev ∧ (State.setPktRef s c r x).eptCache = s.eptCache ∧
    (State.setPktRef s c r x).ports = s.ports ∧ (State.setPktRef s c r x).lanes = s.lanes ∧ (State.setPktRef s c r x).lims = s.lims ∧
    (State.setPktRef s c r x).limCache = s.limCache ∧ (State.setPktRef s c r x).limRefill = s.limRefill ∧
    (State.setPktRef s c r x).route = s.route ∧ (State.setPktRef s c r x).halfLatch = s.halfLatch ∧
    (State.setPktRef s c r x).recLatch = s.recLatch ∧ (State.setPktRef s c r x).sbAddr = s.sbAddr ∧
    (State.setPktRef s c r x).variant = s.variant ∧ (State.setPktRef s c r x).out = s.out ∧ (State.setPktRef s c r x).free = s.free ∧
    (State.setPktRef s c r x).pending = s.pending := by
  unfold State.setPktRef; (try dsimp only); (repeat' split) <;> first | done | (simp; done) | (simp_all; done) | grind

@[simp] theorem State.cachePut_frame (s : State) (ways : Nat) (same : α → Bool) (set : α → Bool) (e : α) (l : List α) :
    (State.cachePut s ways same set e l).2.regs = s.regs ∧ (State.cachePut s ways same set e l).2.mem = s.mem ∧
    (State.cachePut s ways same set e l).2.poison = s.poison ∧ (State.cachePut s ways same set e l).2.inv = s.inv ∧
    (State.cachePut s ways same set e l).2.tgf = s.tgf ∧ (State.cachePut s ways same set e l).2.fifos = s.fifos ∧
    (State.cachePut s ways same set e l).2.threads = s.threads ∧ (State.cachePut s ways same set e l).2.engines = s.engines ∧
    (State.cachePut s ways same set e l).2.clusters = s.clusters ∧ (State.cachePut s ways same set e l).2.ops = s.ops ∧
    (State.cachePut s ways same set e l).2.orders = s.orders ∧ (State.cachePut s ways same set e l).2.rings = s.rings ∧
    (State.cachePut s ways same set e l).2.net = s.net ∧ (State.cachePut s ways same set e l).2.mtch = s.mtch ∧
    (State.cachePut s ways same set e l).2.aml = s.aml ∧ (State.cachePut s ways same set e l).2.host = s.host ∧
    (State.cachePut s ways same set e l).2.dev = s.dev ∧ (State.cachePut s ways same set e l).2.eptCache = s.eptCache ∧
    (State.cachePut s ways same set e l).2.ports = s.ports ∧ (State.cachePut s ways same set e l).2.lanes = s.lanes ∧
    (State.cachePut s ways same set e l).2.lims = s.lims ∧ (State.cachePut s ways same set e l).2.limCache = s.limCache ∧
    (State.cachePut s ways same set e l).2.limRefill = s.limRefill ∧ (State.cachePut s ways same set e l).2.route = s.route ∧
    (State.cachePut s ways same set e l).2.halfLatch = s.halfLatch ∧ (State.cachePut s ways same set e l).2.recLatch = s.recLatch ∧
    (State.cachePut s ways same set e l).2.sbAddr = s.sbAddr ∧ (State.cachePut s ways same set e l).2.variant = s.variant ∧
    (State.cachePut s ways same set e l).2.out = s.out ∧ (State.cachePut s ways same set e l).2.pending = s.pending := by
  unfold State.cachePut; (try dsimp only); (repeat' split) <;>
    first | done | (simp; done) | (simp_all; done) | grind [→ State.freeBelow_frame_of]

theorem State.cachePut_frame_of (s : State) (ways : Nat) (same : α → Bool) (set : α → Bool) (e : α) (l : List α)
    (result : List α) (s' : State) (h : State.cachePut s ways same set e l = (result, s')) :
    s'.regs = s.regs ∧ s'.mem = s.mem ∧ s'.poison = s.poison ∧ s'.inv = s.inv ∧ s'.tgf = s.tgf ∧ s'.fifos = s.fifos ∧
    s'.threads = s.threads ∧ s'.engines = s.engines ∧ s'.clusters = s.clusters ∧ s'.ops = s.ops ∧ s'.orders = s.orders ∧
    s'.rings = s.rings ∧ s'.net = s.net ∧ s'.mtch = s.mtch ∧ s'.aml = s.aml ∧ s'.host = s.host ∧ s'.dev = s.dev ∧
    s'.eptCache = s.eptCache ∧ s'.ports = s.ports ∧ s'.lanes = s.lanes ∧ s'.lims = s.lims ∧ s'.limCache = s.limCache ∧
    s'.limRefill = s.limRefill ∧ s'.route = s.route ∧ s'.halfLatch = s.halfLatch ∧ s'.recLatch = s.recLatch ∧ s'.sbAddr = s.sbAddr ∧
    s'.variant = s.variant ∧ s'.out = s.out ∧ s'.pending = s.pending := by
  have := State.cachePut_frame s ways same set e l; rwa [h] at this

@[simp] theorem State.askOf_frame (s : State) (c : Nat) (ask : Nat) :
    (State.askOf s c ask).2.mem = s.mem ∧ (State.askOf s c ask).2.poison = s.poison ∧ (State.askOf s c ask).2.inv = s.inv ∧
    (State.askOf s c ask).2.tgf = s.tgf ∧ (State.askOf s c ask).2.fifos = s.fifos ∧ (State.askOf s c ask).2.threads = s.threads ∧
    (State.askOf s c ask).2.engines = s.engines ∧ (State.askOf s c ask).2.ops = s.ops ∧ (State.askOf s c ask).2.orders = s.orders ∧
    (State.askOf s c ask).2.rings = s.rings ∧ (State.askOf s c ask).2.net = s.net ∧ (State.askOf s c ask).2.mtch = s.mtch ∧
    (State.askOf s c ask).2.aml = s.aml ∧ (State.askOf s c ask).2.host = s.host ∧ (State.askOf s c ask).2.dev = s.dev ∧
    (State.askOf s c ask).2.eptCache = s.eptCache ∧ (State.askOf s c ask).2.ports = s.ports ∧ (State.askOf s c ask).2.lanes = s.lanes ∧
    (State.askOf s c ask).2.lims = s.lims ∧ (State.askOf s c ask).2.limCache = s.limCache ∧
    (State.askOf s c ask).2.limRefill = s.limRefill ∧ (State.askOf s c ask).2.route = s.route ∧
    (State.askOf s c ask).2.halfLatch = s.halfLatch ∧ (State.askOf s c ask).2.recLatch = s.recLatch ∧
    (State.askOf s c ask).2.sbAddr = s.sbAddr ∧ (State.askOf s c ask).2.variant = s.variant ∧ (State.askOf s c ask).2.out = s.out ∧
    (State.askOf s c ask).2.pending = s.pending := by
  unfold State.askOf; (try dsimp only); (repeat' split) <;>
    first | done | (simp; done) | (simp_all; done) | grind [→ State.cachePut_frame_of]

theorem State.askOf_frame_of (s : State) (c : Nat) (ask : Nat) (result : List Byte) (s' : State) (h : State.askOf s c ask = (result, s')) :
    s'.mem = s.mem ∧ s'.poison = s.poison ∧ s'.inv = s.inv ∧ s'.tgf = s.tgf ∧ s'.fifos = s.fifos ∧ s'.threads = s.threads ∧
    s'.engines = s.engines ∧ s'.ops = s.ops ∧ s'.orders = s.orders ∧ s'.rings = s.rings ∧ s'.net = s.net ∧ s'.mtch = s.mtch ∧
    s'.aml = s.aml ∧ s'.host = s.host ∧ s'.dev = s.dev ∧ s'.eptCache = s.eptCache ∧ s'.ports = s.ports ∧ s'.lanes = s.lanes ∧
    s'.lims = s.lims ∧ s'.limCache = s.limCache ∧ s'.limRefill = s.limRefill ∧ s'.route = s.route ∧ s'.halfLatch = s.halfLatch ∧
    s'.recLatch = s.recLatch ∧ s'.sbAddr = s.sbAddr ∧ s'.variant = s.variant ∧ s'.out = s.out ∧ s'.pending = s.pending := by
  have := State.askOf_frame s c ask; rwa [h] at this

@[simp] theorem State.setEngTlb_frame (s : State) (w : EngTlb) (l : List TlbEntry) :
    (State.setEngTlb s w l).regs = s.regs ∧ (State.setEngTlb s w l).mem = s.mem ∧ (State.setEngTlb s w l).poison = s.poison ∧
    (State.setEngTlb s w l).inv = s.inv ∧ (State.setEngTlb s w l).tgf = s.tgf ∧ (State.setEngTlb s w l).fifos = s.fifos ∧
    (State.setEngTlb s w l).threads = s.threads ∧ (State.setEngTlb s w l).clusters = s.clusters ∧ (State.setEngTlb s w l).ops = s.ops ∧
    (State.setEngTlb s w l).orders = s.orders ∧ (State.setEngTlb s w l).rings = s.rings ∧ (State.setEngTlb s w l).net = s.net ∧
    (State.setEngTlb s w l).mtch = s.mtch ∧ (State.setEngTlb s w l).aml = s.aml ∧ (State.setEngTlb s w l).host = s.host ∧
    (State.setEngTlb s w l).dev = s.dev ∧ (State.setEngTlb s w l).eptCache = s.eptCache ∧ (State.setEngTlb s w l).ports = s.ports ∧
    (State.setEngTlb s w l).lanes = s.lanes ∧ (State.setEngTlb s w l).lims = s.lims ∧ (State.setEngTlb s w l).limCache = s.limCache ∧
    (State.setEngTlb s w l).limRefill = s.limRefill ∧ (State.setEngTlb s w l).route = s.route ∧
    (State.setEngTlb s w l).halfLatch = s.halfLatch ∧ (State.setEngTlb s w l).recLatch = s.recLatch ∧
    (State.setEngTlb s w l).sbAddr = s.sbAddr ∧ (State.setEngTlb s w l).variant = s.variant ∧ (State.setEngTlb s w l).out = s.out ∧
    (State.setEngTlb s w l).free = s.free ∧ (State.setEngTlb s w l).pending = s.pending := by
  unfold State.setEngTlb; (try dsimp only); (repeat' split) <;> first | done | (simp; done) | (simp_all; done) | grind

@[simp] theorem State.tlbLookup_frame (s : State) (c : Nat) (w : EngTlb) (ask : Nat) (va : Nat) :
    (State.tlbLookup s c w ask va).2.mem = s.mem ∧ (State.tlbLookup s c w ask va).2.poison = s.poison ∧
    (State.tlbLookup s c w ask va).2.inv = s.inv ∧ (State.tlbLookup s c w ask va).2.tgf = s.tgf ∧
    (State.tlbLookup s c w ask va).2.fifos = s.fifos ∧ (State.tlbLookup s c w ask va).2.threads = s.threads ∧
    (State.tlbLookup s c w ask va).2.ops = s.ops ∧ (State.tlbLookup s c w ask va).2.orders = s.orders ∧
    (State.tlbLookup s c w ask va).2.rings = s.rings ∧ (State.tlbLookup s c w ask va).2.net = s.net ∧
    (State.tlbLookup s c w ask va).2.mtch = s.mtch ∧ (State.tlbLookup s c w ask va).2.aml = s.aml ∧
    (State.tlbLookup s c w ask va).2.host = s.host ∧ (State.tlbLookup s c w ask va).2.dev = s.dev ∧
    (State.tlbLookup s c w ask va).2.eptCache = s.eptCache ∧ (State.tlbLookup s c w ask va).2.ports = s.ports ∧
    (State.tlbLookup s c w ask va).2.lanes = s.lanes ∧ (State.tlbLookup s c w ask va).2.lims = s.lims ∧
    (State.tlbLookup s c w ask va).2.limCache = s.limCache ∧ (State.tlbLookup s c w ask va).2.limRefill = s.limRefill ∧
    (State.tlbLookup s c w ask va).2.route = s.route ∧ (State.tlbLookup s c w ask va).2.halfLatch = s.halfLatch ∧
    (State.tlbLookup s c w ask va).2.recLatch = s.recLatch ∧ (State.tlbLookup s c w ask va).2.sbAddr = s.sbAddr ∧
    (State.tlbLookup s c w ask va).2.variant = s.variant ∧ (State.tlbLookup s c w ask va).2.out = s.out ∧
    (State.tlbLookup s c w ask va).2.free = s.free ∧ (State.tlbLookup s c w ask va).2.pending = s.pending := by
  unfold State.tlbLookup; (try dsimp only); (repeat' split) <;> first | done | (simp; done) | (simp_all; done) | grind

theorem State.tlbLookup_frame_of (s : State) (c : Nat) (w : EngTlb) (ask : Nat) (va : Nat) (result : Option TlbEntry) (s' : State)
    (h : State.tlbLookup s c w ask va = (result, s')) :
    s'.mem = s.mem ∧ s'.poison = s.poison ∧ s'.inv = s.inv ∧ s'.tgf = s.tgf ∧ s'.fifos = s.fifos ∧ s'.threads = s.threads ∧
    s'.ops = s.ops ∧ s'.orders = s.orders ∧ s'.rings = s.rings ∧ s'.net = s.net ∧ s'.mtch = s.mtch ∧ s'.aml = s.aml ∧ s'.host = s.host ∧
    s'.dev = s.dev ∧ s'.eptCache = s.eptCache ∧ s'.ports = s.ports ∧ s'.lanes = s.lanes ∧ s'.lims = s.lims ∧ s'.limCache = s.limCache ∧
    s'.limRefill = s.limRefill ∧ s'.route = s.route ∧ s'.halfLatch = s.halfLatch ∧ s'.recLatch = s.recLatch ∧ s'.sbAddr = s.sbAddr ∧
    s'.variant = s.variant ∧ s'.out = s.out ∧ s'.free = s.free ∧ s'.pending = s.pending := by
  have := State.tlbLookup_frame s c w ask va; rwa [h] at this

@[simp] theorem State.xlate_frame (s : State) (c : Nat) (w : EngTlb) (ask : Nat) (va : Nat) (need : Nat) (check : Bool) :
    (State.xlate s c w ask va need check).2.mem = s.mem ∧ (State.xlate s c w ask va need check).2.poison = s.poison ∧
    (State.xlate s c w ask va need check).2.inv = s.inv ∧ (State.xlate s c w ask va need check).2.tgf = s.tgf ∧
    (State.xlate s c w ask va need check).2.fifos = s.fifos ∧ (State.xlate s c w ask va need check).2.threads = s.threads ∧
    (State.xlate s c w ask va need check).2.ops = s.ops ∧ (State.xlate s c w ask va need check).2.orders = s.orders ∧
    (State.xlate s c w ask va need check).2.rings = s.rings ∧ (State.xlate s c w ask va need check).2.net = s.net ∧
    (State.xlate s c w ask va need check).2.mtch = s.mtch ∧ (State.xlate s c w ask va need check).2.aml = s.aml ∧
    (State.xlate s c w ask va need check).2.host = s.host ∧ (State.xlate s c w ask va need check).2.dev = s.dev ∧
    (State.xlate s c w ask va need check).2.eptCache = s.eptCache ∧ (State.xlate s c w ask va need check).2.ports = s.ports ∧
    (State.xlate s c w ask va need check).2.lanes = s.lanes ∧ (State.xlate s c w ask va need check).2.lims = s.lims ∧
    (State.xlate s c w ask va need check).2.limCache = s.limCache ∧ (State.xlate s c w ask va need check).2.limRefill = s.limRefill ∧
    (State.xlate s c w ask va need check).2.route = s.route ∧ (State.xlate s c w ask va need check).2.halfLatch = s.halfLatch ∧
    (State.xlate s c w ask va need check).2.recLatch = s.recLatch ∧ (State.xlate s c w ask va need check).2.sbAddr = s.sbAddr ∧
    (State.xlate s c w ask va need check).2.variant = s.variant ∧ (State.xlate s c w ask va need check).2.out = s.out ∧
    (State.xlate s c w ask va need check).2.pending = s.pending := by
  unfold State.xlate; (try dsimp only); (repeat' split) <;>
    first | done | (simp; done) | (simp_all; done) | grind [→ State.askOf_frame_of, → State.tlbLookup_frame_of]

theorem State.xlate_frame_of (s : State) (c : Nat) (w : EngTlb) (ask : Nat) (va : Nat) (need : Nat) (check : Bool)
    (result : XRes) (s' : State) (h : State.xlate s c w ask va need check = (result, s')) :
    s'.mem = s.mem ∧ s'.poison = s.poison ∧ s'.inv = s.inv ∧ s'.tgf = s.tgf ∧ s'.fifos = s.fifos ∧ s'.threads = s.threads ∧
    s'.ops = s.ops ∧ s'.orders = s.orders ∧ s'.rings = s.rings ∧ s'.net = s.net ∧ s'.mtch = s.mtch ∧ s'.aml = s.aml ∧ s'.host = s.host ∧
    s'.dev = s.dev ∧ s'.eptCache = s.eptCache ∧ s'.ports = s.ports ∧ s'.lanes = s.lanes ∧ s'.lims = s.lims ∧ s'.limCache = s.limCache ∧
    s'.limRefill = s.limRefill ∧ s'.route = s.route ∧ s'.halfLatch = s.halfLatch ∧ s'.recLatch = s.recLatch ∧ s'.sbAddr = s.sbAddr ∧
    s'.variant = s.variant ∧ s'.out = s.out ∧ s'.pending = s.pending := by
  have := State.xlate_frame s c w ask va need check; rwa [h] at this

@[simp] theorem State.addMiss_frame (s : State) (c : Nat) (ask : Nat) (va : Nat) (cl : XltClient) :
    (State.addMiss s c ask va cl).regs = s.regs ∧ (State.addMiss s c ask va cl).mem = s.mem ∧
    (State.addMiss s c ask va cl).poison = s.poison ∧ (State.addMiss s c ask va cl).inv = s.inv ∧
    (State.addMiss s c ask va cl).tgf = s.tgf ∧ (State.addMiss s c ask va cl).fifos = s.fifos ∧
    (State.addMiss s c ask va cl).threads = s.threads ∧ (State.addMiss s c ask va cl).engines = s.engines ∧
    (State.addMiss s c ask va cl).ops = s.ops ∧ (State.addMiss s c ask va cl).orders = s.orders ∧
    (State.addMiss s c ask va cl).rings = s.rings ∧ (State.addMiss s c ask va cl).net = s.net ∧
    (State.addMiss s c ask va cl).mtch = s.mtch ∧ (State.addMiss s c ask va cl).aml = s.aml ∧
    (State.addMiss s c ask va cl).host = s.host ∧ (State.addMiss s c ask va cl).dev = s.dev ∧
    (State.addMiss s c ask va cl).eptCache = s.eptCache ∧ (State.addMiss s c ask va cl).ports = s.ports ∧
    (State.addMiss s c ask va cl).lanes = s.lanes ∧ (State.addMiss s c ask va cl).lims = s.lims ∧
    (State.addMiss s c ask va cl).limCache = s.limCache ∧ (State.addMiss s c ask va cl).limRefill = s.limRefill ∧
    (State.addMiss s c ask va cl).route = s.route ∧ (State.addMiss s c ask va cl).halfLatch = s.halfLatch ∧
    (State.addMiss s c ask va cl).recLatch = s.recLatch ∧ (State.addMiss s c ask va cl).sbAddr = s.sbAddr ∧
    (State.addMiss s c ask va cl).variant = s.variant ∧ (State.addMiss s c ask va cl).out = s.out ∧
    (State.addMiss s c ask va cl).free = s.free ∧ (State.addMiss s c ask va cl).pending = s.pending := by
  unfold State.addMiss; (try dsimp only); (repeat' split) <;> first | done | (simp; done) | (simp_all; done) | grind

@[simp] theorem State.lostOverflow_frame (s : State) (c : Nat) :
    (State.lostOverflow s c).inv = s.inv ∧ (State.lostOverflow s c).threads = s.threads ∧ (State.lostOverflow s c).engines = s.engines ∧
    (State.lostOverflow s c).clusters = s.clusters ∧ (State.lostOverflow s c).ops = s.ops ∧ (State.lostOverflow s c).orders = s.orders ∧
    (State.lostOverflow s c).rings = s.rings ∧ (State.lostOverflow s c).net = s.net ∧ (State.lostOverflow s c).mtch = s.mtch ∧
    (State.lostOverflow s c).aml = s.aml ∧ (State.lostOverflow s c).host = s.host ∧ (State.lostOverflow s c).dev = s.dev ∧
    (State.lostOverflow s c).eptCache = s.eptCache ∧ (State.lostOverflow s c).ports = s.ports ∧ (State.lostOverflow s c).lanes = s.lanes ∧
    (State.lostOverflow s c).lims = s.lims ∧ (State.lostOverflow s c).limCache = s.limCache ∧
    (State.lostOverflow s c).limRefill = s.limRefill ∧ (State.lostOverflow s c).route = s.route ∧
    (State.lostOverflow s c).halfLatch = s.halfLatch ∧ (State.lostOverflow s c).recLatch = s.recLatch ∧
    (State.lostOverflow s c).sbAddr = s.sbAddr ∧ (State.lostOverflow s c).variant = s.variant ∧ (State.lostOverflow s c).free = s.free ∧
    (State.lostOverflow s c).pending = s.pending := by
  unfold State.lostOverflow; (try dsimp only); (repeat' split) <;> first | done | (simp; done) | (simp_all; done) | grind

@[simp] theorem State.sendLost_frame (s : State) (c : Nat) (it : Item) :
    (State.sendLost s c it).inv = s.inv ∧ (State.sendLost s c it).threads = s.threads ∧ (State.sendLost s c it).engines = s.engines ∧
    (State.sendLost s c it).ops = s.ops ∧ (State.sendLost s c it).orders = s.orders ∧ (State.sendLost s c it).rings = s.rings ∧
    (State.sendLost s c it).net = s.net ∧ (State.sendLost s c it).mtch = s.mtch ∧ (State.sendLost s c it).aml = s.aml ∧
    (State.sendLost s c it).host = s.host ∧ (State.sendLost s c it).dev = s.dev ∧ (State.sendLost s c it).eptCache = s.eptCache ∧
    (State.sendLost s c it).ports = s.ports ∧ (State.sendLost s c it).lanes = s.lanes ∧ (State.sendLost s c it).lims = s.lims ∧
    (State.sendLost s c it).limCache = s.limCache ∧ (State.sendLost s c it).limRefill = s.limRefill ∧
    (State.sendLost s c it).route = s.route ∧ (State.sendLost s c it).halfLatch = s.halfLatch ∧
    (State.sendLost s c it).recLatch = s.recLatch ∧ (State.sendLost s c it).sbAddr = s.sbAddr ∧
    (State.sendLost s c it).variant = s.variant ∧ (State.sendLost s c it).free = s.free ∧
    (State.sendLost s c it).pending = s.pending := by
  unfold State.sendLost; dsimp only; split
  · split <;> simp
  · split
    · next heq => split at heq
                  · have := State.wfStart_frame _ _ _ _ _ _ heq; simp_all
                  · cases heq
    · split <;> simp

@[simp] theorem State.freeThread_frame (s : State) (t : Nat) :
    (State.freeThread s t).regs = s.regs ∧ (State.freeThread s t).mem = s.mem ∧ (State.freeThread s t).poison = s.poison ∧
    (State.freeThread s t).inv = s.inv ∧ (State.freeThread s t).tgf = s.tgf ∧ (State.freeThread s t).fifos = s.fifos ∧
    (State.freeThread s t).engines = s.engines ∧ (State.freeThread s t).clusters = s.clusters ∧ (State.freeThread s t).ops = s.ops ∧
    (State.freeThread s t).orders = s.orders ∧ (State.freeThread s t).rings = s.rings ∧ (State.freeThread s t).net = s.net ∧
    (State.freeThread s t).mtch = s.mtch ∧ (State.freeThread s t).aml = s.aml ∧ (State.freeThread s t).host = s.host ∧
    (State.freeThread s t).dev = s.dev ∧ (State.freeThread s t).eptCache = s.eptCache ∧ (State.freeThread s t).ports = s.ports ∧
    (State.freeThread s t).lanes = s.lanes ∧ (State.freeThread s t).lims = s.lims ∧ (State.freeThread s t).limCache = s.limCache ∧
    (State.freeThread s t).limRefill = s.limRefill ∧ (State.freeThread s t).route = s.route ∧
    (State.freeThread s t).halfLatch = s.halfLatch ∧ (State.freeThread s t).recLatch = s.recLatch ∧
    (State.freeThread s t).sbAddr = s.sbAddr ∧ (State.freeThread s t).variant = s.variant ∧ (State.freeThread s t).out = s.out ∧
    (State.freeThread s t).free = s.free ∧ (State.freeThread s t).pending = s.pending := by
  unfold State.freeThread; (try dsimp only); (repeat' split) <;> first | done | (simp; done) | (simp_all; done) | grind

@[simp] theorem State.loseThread_frame (s : State) (t : Nat) (cause : Nat) (epc : Word) :
    (State.loseThread s t cause epc).inv = s.inv ∧ (State.loseThread s t cause epc).engines = s.engines ∧
    (State.loseThread s t cause epc).ops = s.ops ∧ (State.loseThread s t cause epc).orders = s.orders ∧
    (State.loseThread s t cause epc).rings = s.rings ∧ (State.loseThread s t cause epc).net = s.net ∧
    (State.loseThread s t cause epc).mtch = s.mtch ∧ (State.loseThread s t cause epc).aml = s.aml ∧
    (State.loseThread s t cause epc).host = s.host ∧ (State.loseThread s t cause epc).dev = s.dev ∧
    (State.loseThread s t cause epc).eptCache = s.eptCache ∧ (State.loseThread s t cause epc).ports = s.ports ∧
    (State.loseThread s t cause epc).lanes = s.lanes ∧ (State.loseThread s t cause epc).lims = s.lims ∧
    (State.loseThread s t cause epc).limCache = s.limCache ∧ (State.loseThread s t cause epc).limRefill = s.limRefill ∧
    (State.loseThread s t cause epc).route = s.route ∧ (State.loseThread s t cause epc).halfLatch = s.halfLatch ∧
    (State.loseThread s t cause epc).recLatch = s.recLatch ∧ (State.loseThread s t cause epc).sbAddr = s.sbAddr ∧
    (State.loseThread s t cause epc).variant = s.variant ∧ (State.loseThread s t cause epc).free = s.free ∧
    (State.loseThread s t cause epc).pending = s.pending := by
  unfold State.loseThread; (try dsimp only); (repeat' split) <;> first | done | (simp; done) | (simp_all; done) | grind

@[simp] theorem State.parityError_frame (s : State) (g : Nat) :
    (State.parityError s g).inv = s.inv ∧ (State.parityError s g).threads = s.threads ∧ (State.parityError s g).clusters = s.clusters ∧
    (State.parityError s g).ops = s.ops ∧ (State.parityError s g).orders = s.orders ∧ (State.parityError s g).rings = s.rings ∧
    (State.parityError s g).net = s.net ∧ (State.parityError s g).mtch = s.mtch ∧ (State.parityError s g).aml = s.aml ∧
    (State.parityError s g).host = s.host ∧ (State.parityError s g).dev = s.dev ∧ (State.parityError s g).eptCache = s.eptCache ∧
    (State.parityError s g).ports = s.ports ∧ (State.parityError s g).lanes = s.lanes ∧ (State.parityError s g).lims = s.lims ∧
    (State.parityError s g).limCache = s.limCache ∧ (State.parityError s g).limRefill = s.limRefill ∧
    (State.parityError s g).route = s.route ∧ (State.parityError s g).halfLatch = s.halfLatch ∧
    (State.parityError s g).recLatch = s.recLatch ∧ (State.parityError s g).sbAddr = s.sbAddr ∧
    (State.parityError s g).variant = s.variant ∧ (State.parityError s g).free = s.free ∧
    (State.parityError s g).pending = s.pending := by
  unfold State.parityError; (try dsimp only); (repeat' split) <;> first | done | (simp; done) | (simp_all; done) | grind

@[simp] theorem State.takeExc_frame (s0 : State) (t : Nat) (code : Nat) (eval : Word) (epc : Word) :
    (State.takeExc s0 t code eval epc).inv = s0.inv ∧ (State.takeExc s0 t code eval epc).ops = s0.ops ∧
    (State.takeExc s0 t code eval epc).orders = s0.orders ∧ (State.takeExc s0 t code eval epc).rings = s0.rings ∧
    (State.takeExc s0 t code eval epc).net = s0.net ∧ (State.takeExc s0 t code eval epc).mtch = s0.mtch ∧
    (State.takeExc s0 t code eval epc).aml = s0.aml ∧ (State.takeExc s0 t code eval epc).host = s0.host ∧
    (State.takeExc s0 t code eval epc).dev = s0.dev ∧ (State.takeExc s0 t code eval epc).eptCache = s0.eptCache ∧
    (State.takeExc s0 t code eval epc).ports = s0.ports ∧ (State.takeExc s0 t code eval epc).lanes = s0.lanes ∧
    (State.takeExc s0 t code eval epc).lims = s0.lims ∧ (State.takeExc s0 t code eval epc).limCache = s0.limCache ∧
    (State.takeExc s0 t code eval epc).limRefill = s0.limRefill ∧ (State.takeExc s0 t code eval epc).route = s0.route ∧
    (State.takeExc s0 t code eval epc).halfLatch = s0.halfLatch ∧ (State.takeExc s0 t code eval epc).recLatch = s0.recLatch ∧
    (State.takeExc s0 t code eval epc).sbAddr = s0.sbAddr ∧ (State.takeExc s0 t code eval epc).variant = s0.variant ∧
    (State.takeExc s0 t code eval epc).free = s0.free ∧ (State.takeExc s0 t code eval epc).pending = s0.pending := by
  unfold State.takeExc; (try dsimp only); (repeat' split) <;> first | done | (simp; done) | (simp_all; done) | grind

@[simp] theorem State.toTile_frame (s : State) (t : Nat) (x : RPkt) :
    (State.toTile s t x).mem = s.mem ∧ (State.toTile s t x).poison = s.poison ∧ (State.toTile s t x).inv = s.inv ∧
    (State.toTile s t x).tgf = s.tgf ∧ (State.toTile s t x).fifos = s.fifos ∧ (State.toTile s t x).threads = s.threads ∧
    (State.toTile s t x).engines = s.engines ∧ (State.toTile s t x).clusters = s.clusters ∧ (State.toTile s t x).ops = s.ops ∧
    (State.toTile s t x).orders = s.orders ∧ (State.toTile s t x).rings = s.rings ∧ (State.toTile s t x).net = s.net ∧
    (State.toTile s t x).mtch = s.mtch ∧ (State.toTile s t x).aml = s.aml ∧ (State.toTile s t x).host = s.host ∧
    (State.toTile s t x).dev = s.dev ∧ (State.toTile s t x).eptCache = s.eptCache ∧ (State.toTile s t x).ports = s.ports ∧
    (State.toTile s t x).lanes = s.lanes ∧ (State.toTile s t x).lims = s.lims ∧ (State.toTile s t x).limCache = s.limCache ∧
    (State.toTile s t x).limRefill = s.limRefill ∧ (State.toTile s t x).halfLatch = s.halfLatch ∧
    (State.toTile s t x).recLatch = s.recLatch ∧ (State.toTile s t x).sbAddr = s.sbAddr ∧ (State.toTile s t x).variant = s.variant ∧
    (State.toTile s t x).out = s.out ∧ (State.toTile s t x).free = s.free ∧ (State.toTile s t x).pending = s.pending := by
  unfold State.toTile; (try dsimp only); (repeat' split) <;> first | done | (simp; done) | (simp_all; done) | grind

@[simp] theorem State.setTx_frame (s : State) (p : Nat) (f : LinkTx → LinkTx) :
    (State.setTx s p f).regs = s.regs ∧ (State.setTx s p f).mem = s.mem ∧ (State.setTx s p f).poison = s.poison ∧
    (State.setTx s p f).inv = s.inv ∧ (State.setTx s p f).tgf = s.tgf ∧ (State.setTx s p f).fifos = s.fifos ∧
    (State.setTx s p f).threads = s.threads ∧ (State.setTx s p f).engines = s.engines ∧ (State.setTx s p f).clusters = s.clusters ∧
    (State.setTx s p f).ops = s.ops ∧ (State.setTx s p f).orders = s.orders ∧ (State.setTx s p f).rings = s.rings ∧
    (State.setTx s p f).net = s.net ∧ (State.setTx s p f).mtch = s.mtch ∧ (State.setTx s p f).aml = s.aml ∧
    (State.setTx s p f).host = s.host ∧ (State.setTx s p f).dev = s.dev ∧ (State.setTx s p f).eptCache = s.eptCache ∧
    (State.setTx s p f).lanes = s.lanes ∧ (State.setTx s p f).lims = s.lims ∧ (State.setTx s p f).limCache = s.limCache ∧
    (State.setTx s p f).limRefill = s.limRefill ∧ (State.setTx s p f).route = s.route ∧ (State.setTx s p f).halfLatch = s.halfLatch ∧
    (State.setTx s p f).recLatch = s.recLatch ∧ (State.setTx s p f).sbAddr = s.sbAddr ∧ (State.setTx s p f).variant = s.variant ∧
    (State.setTx s p f).out = s.out ∧ (State.setTx s p f).free = s.free ∧ (State.setTx s p f).pending = s.pending := by
  unfold State.setTx; (try dsimp only); (repeat' split) <;> first | done | (simp; done) | (simp_all; done) | grind

@[simp] theorem State.setRxl_frame (s : State) (p : Nat) (f : LinkRx → LinkRx) :
    (State.setRxl s p f).regs = s.regs ∧ (State.setRxl s p f).mem = s.mem ∧ (State.setRxl s p f).poison = s.poison ∧
    (State.setRxl s p f).inv = s.inv ∧ (State.setRxl s p f).tgf = s.tgf ∧ (State.setRxl s p f).fifos = s.fifos ∧
    (State.setRxl s p f).threads = s.threads ∧ (State.setRxl s p f).engines = s.engines ∧ (State.setRxl s p f).clusters = s.clusters ∧
    (State.setRxl s p f).ops = s.ops ∧ (State.setRxl s p f).orders = s.orders ∧ (State.setRxl s p f).rings = s.rings ∧
    (State.setRxl s p f).net = s.net ∧ (State.setRxl s p f).mtch = s.mtch ∧ (State.setRxl s p f).aml = s.aml ∧
    (State.setRxl s p f).host = s.host ∧ (State.setRxl s p f).dev = s.dev ∧ (State.setRxl s p f).eptCache = s.eptCache ∧
    (State.setRxl s p f).lanes = s.lanes ∧ (State.setRxl s p f).lims = s.lims ∧ (State.setRxl s p f).limCache = s.limCache ∧
    (State.setRxl s p f).limRefill = s.limRefill ∧ (State.setRxl s p f).route = s.route ∧ (State.setRxl s p f).halfLatch = s.halfLatch ∧
    (State.setRxl s p f).recLatch = s.recLatch ∧ (State.setRxl s p f).sbAddr = s.sbAddr ∧ (State.setRxl s p f).variant = s.variant ∧
    (State.setRxl s p f).out = s.out ∧ (State.setRxl s p f).free = s.free ∧ (State.setRxl s p f).pending = s.pending := by
  unfold State.setRxl; (try dsimp only); (repeat' split) <;> first | done | (simp; done) | (simp_all; done) | grind

@[simp] theorem State.toLine_frame (s : State) (p : Nat) (bs : List Byte) :
    (State.toLine s p bs).regs = s.regs ∧ (State.toLine s p bs).mem = s.mem ∧ (State.toLine s p bs).poison = s.poison ∧
    (State.toLine s p bs).inv = s.inv ∧ (State.toLine s p bs).tgf = s.tgf ∧ (State.toLine s p bs).fifos = s.fifos ∧
    (State.toLine s p bs).threads = s.threads ∧ (State.toLine s p bs).engines = s.engines ∧ (State.toLine s p bs).clusters = s.clusters ∧
    (State.toLine s p bs).ops = s.ops ∧ (State.toLine s p bs).orders = s.orders ∧ (State.toLine s p bs).rings = s.rings ∧
    (State.toLine s p bs).net = s.net ∧ (State.toLine s p bs).mtch = s.mtch ∧ (State.toLine s p bs).aml = s.aml ∧
    (State.toLine s p bs).host = s.host ∧ (State.toLine s p bs).dev = s.dev ∧ (State.toLine s p bs).eptCache = s.eptCache ∧
    (State.toLine s p bs).lanes = s.lanes ∧ (State.toLine s p bs).lims = s.lims ∧ (State.toLine s p bs).limCache = s.limCache ∧
    (State.toLine s p bs).limRefill = s.limRefill ∧ (State.toLine s p bs).route = s.route ∧
    (State.toLine s p bs).halfLatch = s.halfLatch ∧ (State.toLine s p bs).recLatch = s.recLatch ∧
    (State.toLine s p bs).sbAddr = s.sbAddr ∧ (State.toLine s p bs).variant = s.variant ∧ (State.toLine s p bs).free = s.free ∧
    (State.toLine s p bs).pending = s.pending := by
  unfold State.toLine; (try dsimp only); (repeat' split) <;> first | done | (simp; done) | (simp_all; done) | grind

@[simp] theorem State.sendSlot_frame (s : State) (p : Nat) (lseq : Nat) (ctype : Nat) (chc : Nat) (csh : Bool) (body : List Byte) :
    (State.sendSlot s p lseq ctype chc csh body).mem = s.mem ∧ (State.sendSlot s p lseq ctype chc csh body).poison = s.poison ∧
    (State.sendSlot s p lseq ctype chc csh body).inv = s.inv ∧ (State.sendSlot s p lseq ctype chc csh body).tgf = s.tgf ∧
    (State.sendSlot s p lseq ctype chc csh body).fifos = s.fifos ∧ (State.sendSlot s p lseq ctype chc csh body).threads = s.threads ∧
    (State.sendSlot s p lseq ctype chc csh body).engines = s.engines ∧
    (State.sendSlot s p lseq ctype chc csh body).clusters = s.clusters ∧ (State.sendSlot s p lseq ctype chc csh body).ops = s.ops ∧
    (State.sendSlot s p lseq ctype chc csh body).orders = s.orders ∧ (State.sendSlot s p lseq ctype chc csh body).rings = s.rings ∧
    (State.sendSlot s p lseq ctype chc csh body).net = s.net ∧ (State.sendSlot s p lseq ctype chc csh body).mtch = s.mtch ∧
    (State.sendSlot s p lseq ctype chc csh body).aml = s.aml ∧ (State.sendSlot s p lseq ctype chc csh body).host = s.host ∧
    (State.sendSlot s p lseq ctype chc csh body).dev = s.dev ∧ (State.sendSlot s p lseq ctype chc csh body).eptCache = s.eptCache ∧
    (State.sendSlot s p lseq ctype chc csh body).lanes = s.lanes ∧ (State.sendSlot s p lseq ctype chc csh body).lims = s.lims ∧
    (State.sendSlot s p lseq ctype chc csh body).limCache = s.limCache ∧
    (State.sendSlot s p lseq ctype chc csh body).limRefill = s.limRefill ∧ (State.sendSlot s p lseq ctype chc csh body).route = s.route ∧
    (State.sendSlot s p lseq ctype chc csh body).halfLatch = s.halfLatch ∧
    (State.sendSlot s p lseq ctype chc csh body).recLatch = s.recLatch ∧ (State.sendSlot s p lseq ctype chc csh body).sbAddr = s.sbAddr ∧
    (State.sendSlot s p lseq ctype chc csh body).variant = s.variant ∧ (State.sendSlot s p lseq ctype chc csh body).free = s.free ∧
    (State.sendSlot s p lseq ctype chc csh body).pending = s.pending := by
  unfold State.sendSlot; (try dsimp only); (repeat' split) <;> first | done | (simp; done) | (simp_all; done) | grind

@[simp] theorem State.sendOs_frame (s : State) (p : Nat) (body : List Byte) :
    (State.sendOs s p body).mem = s.mem ∧ (State.sendOs s p body).poison = s.poison ∧ (State.sendOs s p body).inv = s.inv ∧
    (State.sendOs s p body).tgf = s.tgf ∧ (State.sendOs s p body).fifos = s.fifos ∧ (State.sendOs s p body).threads = s.threads ∧
    (State.sendOs s p body).engines = s.engines ∧ (State.sendOs s p body).clusters = s.clusters ∧ (State.sendOs s p body).ops = s.ops ∧
    (State.sendOs s p body).orders = s.orders ∧ (State.sendOs s p body).rings = s.rings ∧ (State.sendOs s p body).net = s.net ∧
    (State.sendOs s p body).mtch = s.mtch ∧ (State.sendOs s p body).aml = s.aml ∧ (State.sendOs s p body).host = s.host ∧
    (State.sendOs s p body).dev = s.dev ∧ (State.sendOs s p body).eptCache = s.eptCache ∧ (State.sendOs s p body).lanes = s.lanes ∧
    (State.sendOs s p body).lims = s.lims ∧ (State.sendOs s p body).limCache = s.limCache ∧
    (State.sendOs s p body).limRefill = s.limRefill ∧ (State.sendOs s p body).route = s.route ∧
    (State.sendOs s p body).halfLatch = s.halfLatch ∧ (State.sendOs s p body).recLatch = s.recLatch ∧
    (State.sendOs s p body).sbAddr = s.sbAddr ∧ (State.sendOs s p body).variant = s.variant ∧ (State.sendOs s p body).free = s.free ∧
    (State.sendOs s p body).pending = s.pending := by
  unfold State.sendOs; (try dsimp only); (repeat' split) <;> first | done | (simp; done) | (simp_all; done) | grind

@[simp] theorem State.examined_frame (s : State) (c : Nat) (n : Nat) :
    (State.examined s c n).mem = s.mem ∧ (State.examined s c n).poison = s.poison ∧ (State.examined s c n).inv = s.inv ∧
    (State.examined s c n).tgf = s.tgf ∧ (State.examined s c n).fifos = s.fifos ∧ (State.examined s c n).threads = s.threads ∧
    (State.examined s c n).engines = s.engines ∧ (State.examined s c n).clusters = s.clusters ∧ (State.examined s c n).ops = s.ops ∧
    (State.examined s c n).orders = s.orders ∧ (State.examined s c n).rings = s.rings ∧ (State.examined s c n).net = s.net ∧
    (State.examined s c n).mtch = s.mtch ∧ (State.examined s c n).aml = s.aml ∧ (State.examined s c n).host = s.host ∧
    (State.examined s c n).dev = s.dev ∧ (State.examined s c n).eptCache = s.eptCache ∧ (State.examined s c n).ports = s.ports ∧
    (State.examined s c n).lanes = s.lanes ∧ (State.examined s c n).lims = s.lims ∧ (State.examined s c n).limCache = s.limCache ∧
    (State.examined s c n).limRefill = s.limRefill ∧ (State.examined s c n).route = s.route ∧
    (State.examined s c n).halfLatch = s.halfLatch ∧ (State.examined s c n).recLatch = s.recLatch ∧
    (State.examined s c n).sbAddr = s.sbAddr ∧ (State.examined s c n).variant = s.variant ∧ (State.examined s c n).out = s.out ∧
    (State.examined s c n).free = s.free ∧ (State.examined s c n).pending = s.pending := by
  unfold State.examined; (try dsimp only); (repeat' split) <;> first | done | (simp; done) | (simp_all; done) | grind

@[simp] theorem State.unitPost_frame (s : State) (c : Nat) (ctx : Nat) (e : MatchEntry) (back : Option Nat) :
    (State.unitPost s c ctx e back).2.mem = s.mem ∧ (State.unitPost s c ctx e back).2.poison = s.poison ∧
    (State.unitPost s c ctx e back).2.inv = s.inv ∧ (State.unitPost s c ctx e back).2.tgf = s.tgf ∧
    (State.unitPost s c ctx e back).2.fifos = s.fifos ∧ (State.unitPost s c ctx e back).2.threads = s.threads ∧
    (State.unitPost s c ctx e back).2.engines = s.engines ∧ (State.unitPost s c ctx e back).2.clusters = s.clusters ∧
    (State.unitPost s c ctx e back).2.ops = s.ops ∧ (State.unitPost s c ctx e back).2.orders = s.orders ∧
    (State.unitPost s c ctx e back).2.rings = s.rings ∧ (State.unitPost s c ctx e back).2.net = s.net ∧
    (State.unitPost s c ctx e back).2.aml = s.aml ∧ (State.unitPost s c ctx e back).2.host = s.host ∧
    (State.unitPost s c ctx e back).2.dev = s.dev ∧ (State.unitPost s c ctx e back).2.eptCache = s.eptCache ∧
    (State.unitPost s c ctx e back).2.ports = s.ports ∧ (State.unitPost s c ctx e back).2.lanes = s.lanes ∧
    (State.unitPost s c ctx e back).2.lims = s.lims ∧ (State.unitPost s c ctx e back).2.limCache = s.limCache ∧
    (State.unitPost s c ctx e back).2.limRefill = s.limRefill ∧ (State.unitPost s c ctx e back).2.route = s.route ∧
    (State.unitPost s c ctx e back).2.halfLatch = s.halfLatch ∧ (State.unitPost s c ctx e back).2.recLatch = s.recLatch ∧
    (State.unitPost s c ctx e back).2.sbAddr = s.sbAddr ∧ (State.unitPost s c ctx e back).2.variant = s.variant ∧
    (State.unitPost s c ctx e back).2.out = s.out ∧ (State.unitPost s c ctx e back).2.free = s.free ∧
    (State.unitPost s c ctx e back).2.pending = s.pending := by
  unfold State.unitPost; (try dsimp only); (repeat' split) <;> first | done | (simp; done) | (simp_all; done) | grind

theorem State.unitPost_frame_of (s : State) (c : Nat) (ctx : Nat) (e : MatchEntry) (back : Option Nat) (result : MRes) (s' : State)
    (h : State.unitPost s c ctx e back = (result, s')) :
    s'.mem = s.mem ∧ s'.poison = s.poison ∧ s'.inv = s.inv ∧ s'.tgf = s.tgf ∧ s'.fifos = s.fifos ∧ s'.threads = s.threads ∧
    s'.engines = s.engines ∧ s'.clusters = s.clusters ∧ s'.ops = s.ops ∧ s'.orders = s.orders ∧ s'.rings = s.rings ∧ s'.net = s.net ∧
    s'.aml = s.aml ∧ s'.host = s.host ∧ s'.dev = s.dev ∧ s'.eptCache = s.eptCache ∧ s'.ports = s.ports ∧ s'.lanes = s.lanes ∧
    s'.lims = s.lims ∧ s'.limCache = s.limCache ∧ s'.limRefill = s.limRefill ∧ s'.route = s.route ∧ s'.halfLatch = s.halfLatch ∧
    s'.recLatch = s.recLatch ∧ s'.sbAddr = s.sbAddr ∧ s'.variant = s.variant ∧ s'.out = s.out ∧ s'.free = s.free ∧
    s'.pending = s.pending := by
  have := State.unitPost_frame s c ctx e back; rwa [h] at this

@[simp] theorem State.unitCancel_frame (s : State) (c : Nat) (ctx : Nat) (ref : Nat) :
    (State.unitCancel s c ctx ref).2.mem = s.mem ∧ (State.unitCancel s c ctx ref).2.poison = s.poison ∧
    (State.unitCancel s c ctx ref).2.inv = s.inv ∧ (State.unitCancel s c ctx ref).2.tgf = s.tgf ∧
    (State.unitCancel s c ctx ref).2.fifos = s.fifos ∧ (State.unitCancel s c ctx ref).2.threads = s.threads ∧
    (State.unitCancel s c ctx ref).2.engines = s.engines ∧ (State.unitCancel s c ctx ref).2.clusters = s.clusters ∧
    (State.unitCancel s c ctx ref).2.ops = s.ops ∧ (State.unitCancel s c ctx ref).2.orders = s.orders ∧
    (State.unitCancel s c ctx ref).2.rings = s.rings ∧ (State.unitCancel s c ctx ref).2.net = s.net ∧
    (State.unitCancel s c ctx ref).2.aml = s.aml ∧ (State.unitCancel s c ctx ref).2.host = s.host ∧
    (State.unitCancel s c ctx ref).2.dev = s.dev ∧ (State.unitCancel s c ctx ref).2.eptCache = s.eptCache ∧
    (State.unitCancel s c ctx ref).2.ports = s.ports ∧ (State.unitCancel s c ctx ref).2.lanes = s.lanes ∧
    (State.unitCancel s c ctx ref).2.lims = s.lims ∧ (State.unitCancel s c ctx ref).2.limCache = s.limCache ∧
    (State.unitCancel s c ctx ref).2.limRefill = s.limRefill ∧ (State.unitCancel s c ctx ref).2.route = s.route ∧
    (State.unitCancel s c ctx ref).2.halfLatch = s.halfLatch ∧ (State.unitCancel s c ctx ref).2.recLatch = s.recLatch ∧
    (State.unitCancel s c ctx ref).2.sbAddr = s.sbAddr ∧ (State.unitCancel s c ctx ref).2.variant = s.variant ∧
    (State.unitCancel s c ctx ref).2.out = s.out ∧ (State.unitCancel s c ctx ref).2.free = s.free ∧
    (State.unitCancel s c ctx ref).2.pending = s.pending := by
  unfold State.unitCancel; (try dsimp only); (repeat' split) <;> first | done | (simp; done) | (simp_all; done) | grind

theorem State.unitCancel_frame_of (s : State) (c : Nat) (ctx : Nat) (ref : Nat) (result : Bool) (s' : State)
    (h : State.unitCancel s c ctx ref = (result, s')) :
    s'.mem = s.mem ∧ s'.poison = s.poison ∧ s'.inv = s.inv ∧ s'.tgf = s.tgf ∧ s'.fifos = s.fifos ∧ s'.threads = s.threads ∧
    s'.engines = s.engines ∧ s'.clusters = s.clusters ∧ s'.ops = s.ops ∧ s'.orders = s.orders ∧ s'.rings = s.rings ∧ s'.net = s.net ∧
    s'.aml = s.aml ∧ s'.host = s.host ∧ s'.dev = s.dev ∧ s'.eptCache = s.eptCache ∧ s'.ports = s.ports ∧ s'.lanes = s.lanes ∧
    s'.lims = s.lims ∧ s'.limCache = s.limCache ∧ s'.limRefill = s.limRefill ∧ s'.route = s.route ∧ s'.halfLatch = s.halfLatch ∧
    s'.recLatch = s.recLatch ∧ s'.sbAddr = s.sbAddr ∧ s'.variant = s.variant ∧ s'.out = s.out ∧ s'.free = s.free ∧
    s'.pending = s.pending := by
  have := State.unitCancel_frame s c ctx ref; rwa [h] at this

@[simp] theorem State.setUrec_frame (s : State) (k : Nat) (x : Option UnexpRec) :
    (State.setUrec s k x).regs = s.regs ∧ (State.setUrec s k x).mem = s.mem ∧ (State.setUrec s k x).poison = s.poison ∧
    (State.setUrec s k x).inv = s.inv ∧ (State.setUrec s k x).tgf = s.tgf ∧ (State.setUrec s k x).fifos = s.fifos ∧
    (State.setUrec s k x).threads = s.threads ∧ (State.setUrec s k x).engines = s.engines ∧ (State.setUrec s k x).clusters = s.clusters ∧
    (State.setUrec s k x).ops = s.ops ∧ (State.setUrec s k x).orders = s.orders ∧ (State.setUrec s k x).rings = s.rings ∧
    (State.setUrec s k x).net = s.net ∧ (State.setUrec s k x).aml = s.aml ∧ (State.setUrec s k x).host = s.host ∧
    (State.setUrec s k x).dev = s.dev ∧ (State.setUrec s k x).eptCache = s.eptCache ∧ (State.setUrec s k x).ports = s.ports ∧
    (State.setUrec s k x).lanes = s.lanes ∧ (State.setUrec s k x).lims = s.lims ∧ (State.setUrec s k x).limCache = s.limCache ∧
    (State.setUrec s k x).limRefill = s.limRefill ∧ (State.setUrec s k x).route = s.route ∧
    (State.setUrec s k x).halfLatch = s.halfLatch ∧ (State.setUrec s k x).recLatch = s.recLatch ∧
    (State.setUrec s k x).sbAddr = s.sbAddr ∧ (State.setUrec s k x).variant = s.variant ∧ (State.setUrec s k x).out = s.out ∧
    (State.setUrec s k x).free = s.free ∧ (State.setUrec s k x).pending = s.pending := by
  unfold State.setUrec; (try dsimp only); (repeat' split) <;> first | done | (simp; done) | (simp_all; done) | grind

@[simp] theorem State.postRecv_frame (s : State) (qn : Nat) (e : OutEntry) (back : Option Nat) (f : Nat) :
    (State.postRecv s qn e back f).2.mem = s.mem ∧ (State.postRecv s qn e back f).2.poison = s.poison ∧
    (State.postRecv s qn e back f).2.inv = s.inv ∧ (State.postRecv s qn e back f).2.tgf = s.tgf ∧
    (State.postRecv s qn e back f).2.fifos = s.fifos ∧ (State.postRecv s qn e back f).2.threads = s.threads ∧
    (State.postRecv s qn e back f).2.engines = s.engines ∧ (State.postRecv s qn e back f).2.clusters = s.clusters ∧
    (State.postRecv s qn e back f).2.ops = s.ops ∧ (State.postRecv s qn e back f).2.orders = s.orders ∧
    (State.postRecv s qn e back f).2.rings = s.rings ∧ (State.postRecv s qn e back f).2.net = s.net ∧
    (State.postRecv s qn e back f).2.aml = s.aml ∧ (State.postRecv s qn e back f).2.host = s.host ∧
    (State.postRecv s qn e back f).2.dev = s.dev ∧ (State.postRecv s qn e back f).2.eptCache = s.eptCache ∧
    (State.postRecv s qn e back f).2.ports = s.ports ∧ (State.postRecv s qn e back f).2.lanes = s.lanes ∧
    (State.postRecv s qn e back f).2.lims = s.lims ∧ (State.postRecv s qn e back f).2.limCache = s.limCache ∧
    (State.postRecv s qn e back f).2.limRefill = s.limRefill ∧ (State.postRecv s qn e back f).2.route = s.route ∧
    (State.postRecv s qn e back f).2.halfLatch = s.halfLatch ∧ (State.postRecv s qn e back f).2.recLatch = s.recLatch ∧
    (State.postRecv s qn e back f).2.sbAddr = s.sbAddr ∧ (State.postRecv s qn e back f).2.variant = s.variant ∧
    (State.postRecv s qn e back f).2.out = s.out ∧ (State.postRecv s qn e back f).2.free = s.free ∧
    (State.postRecv s qn e back f).2.pending = s.pending := by
  induction f generalizing s with
  | zero => simp [State.postRecv]
  | succ f ih =>
    unfold State.postRecv
    dsimp only
    have hu := State.unitPost_frame s (s.homeOf (entryCtx e.bytes)) (entryCtx e.bytes) (recvEntry qn e.idx e.bytes) back
    split
    · next heq => rw [heq] at hu; simpa using hu
    · next heq => rw [heq] at hu; simpa using hu
    · next heq =>
      rw [heq] at hu
      split
      · split
        · simp at hu ⊢; simp [ih, hu]
        · simp at hu ⊢; simp [hu]
      · simpa using hu

theorem State.postRecv_frame_of (s : State) (qn : Nat) (e : OutEntry) (back : Option Nat) (f : Nat) (result : Bool) (s' : State)
    (h : State.postRecv s qn e back f = (result, s')) :
    s'.mem = s.mem ∧ s'.poison = s.poison ∧ s'.inv = s.inv ∧ s'.tgf = s.tgf ∧ s'.fifos = s.fifos ∧ s'.threads = s.threads ∧
    s'.engines = s.engines ∧ s'.clusters = s.clusters ∧ s'.ops = s.ops ∧ s'.orders = s.orders ∧ s'.rings = s.rings ∧ s'.net = s.net ∧
    s'.aml = s.aml ∧ s'.host = s.host ∧ s'.dev = s.dev ∧ s'.eptCache = s.eptCache ∧ s'.ports = s.ports ∧ s'.lanes = s.lanes ∧
    s'.lims = s.lims ∧ s'.limCache = s.limCache ∧ s'.limRefill = s.limRefill ∧ s'.route = s.route ∧ s'.halfLatch = s.halfLatch ∧
    s'.recLatch = s.recLatch ∧ s'.sbAddr = s.sbAddr ∧ s'.variant = s.variant ∧ s'.out = s.out ∧ s'.free = s.free ∧
    s'.pending = s.pending := by
  have := State.postRecv_frame s qn e back f; rwa [h] at this

@[simp] theorem State.postWaiting_frame (s : State) (ctx : Nat) (f : Nat) :
    (State.postWaiting s ctx f).mem = s.mem ∧ (State.postWaiting s ctx f).poison = s.poison ∧ (State.postWaiting s ctx f).inv = s.inv ∧
    (State.postWaiting s ctx f).tgf = s.tgf ∧ (State.postWaiting s ctx f).fifos = s.fifos ∧
    (State.postWaiting s ctx f).threads = s.threads ∧ (State.postWaiting s ctx f).engines = s.engines ∧
    (State.postWaiting s ctx f).clusters = s.clusters ∧ (State.postWaiting s ctx f).ops = s.ops ∧
    (State.postWaiting s ctx f).orders = s.orders ∧ (State.postWaiting s ctx f).rings = s.rings ∧
    (State.postWaiting s ctx f).net = s.net ∧ (State.postWaiting s ctx f).aml = s.aml ∧ (State.postWaiting s ctx f).host = s.host ∧
    (State.postWaiting s ctx f).dev = s.dev ∧ (State.postWaiting s ctx f).eptCache = s.eptCache ∧
    (State.postWaiting s ctx f).ports = s.ports ∧ (State.postWaiting s ctx f).lanes = s.lanes ∧
    (State.postWaiting s ctx f).lims = s.lims ∧ (State.postWaiting s ctx f).limCache = s.limCache ∧
    (State.postWaiting s ctx f).limRefill = s.limRefill ∧ (State.postWaiting s ctx f).route = s.route ∧
    (State.postWaiting s ctx f).halfLatch = s.halfLatch ∧ (State.postWaiting s ctx f).recLatch = s.recLatch ∧
    (State.postWaiting s ctx f).sbAddr = s.sbAddr ∧ (State.postWaiting s ctx f).variant = s.variant ∧
    (State.postWaiting s ctx f).out = s.out ∧ (State.postWaiting s ctx f).free = s.free ∧
    (State.postWaiting s ctx f).pending = s.pending := by
  induction f generalizing s with
  | zero => simp [State.postWaiting]
  | succ f ih =>
    unfold State.postWaiting
    dsimp only
    split
    · simp
    · split
      · simp [ih]
      · split
        · next heq => have h1 := State.postRecv_frame_of _ _ _ _ _ _ _ heq; simp [ih, h1]
        · simp

@[simp] theorem State.postAllWaiting_frame (s : State) (ctx : Nat) :
    (State.postAllWaiting s ctx).mem = s.mem ∧ (State.postAllWaiting s ctx).poison = s.poison ∧ (State.postAllWaiting s ctx).inv = s.inv ∧
    (State.postAllWaiting s ctx).tgf = s.tgf ∧ (State.postAllWaiting s ctx).fifos = s.fifos ∧
    (State.postAllWaiting s ctx).threads = s.threads ∧ (State.postAllWaiting s ctx).engines = s.engines ∧
    (State.postAllWaiting s ctx).clusters = s.clusters ∧ (State.postAllWaiting s ctx).ops = s.ops ∧
    (State.postAllWaiting s ctx).orders = s.orders ∧ (State.postAllWaiting s ctx).rings = s.rings ∧
    (State.postAllWaiting s ctx).net = s.net ∧ (State.postAllWaiting s ctx).aml = s.aml ∧ (State.postAllWaiting s ctx).host = s.host ∧
    (State.postAllWaiting s ctx).dev = s.dev ∧ (State.postAllWaiting s ctx).eptCache = s.eptCache ∧
    (State.postAllWaiting s ctx).ports = s.ports ∧ (State.postAllWaiting s ctx).lanes = s.lanes ∧
    (State.postAllWaiting s ctx).lims = s.lims ∧ (State.postAllWaiting s ctx).limCache = s.limCache ∧
    (State.postAllWaiting s ctx).limRefill = s.limRefill ∧ (State.postAllWaiting s ctx).route = s.route ∧
    (State.postAllWaiting s ctx).halfLatch = s.halfLatch ∧ (State.postAllWaiting s ctx).recLatch = s.recLatch ∧
    (State.postAllWaiting s ctx).sbAddr = s.sbAddr ∧ (State.postAllWaiting s ctx).variant = s.variant ∧
    (State.postAllWaiting s ctx).out = s.out ∧ (State.postAllWaiting s ctx).free = s.free ∧
    (State.postAllWaiting s ctx).pending = s.pending := by
  unfold State.postAllWaiting; simp

@[simp] theorem State.recvOffWay_frame (s : State) (qn : Nat) (e : OutEntry) :
    (State.recvOffWay s qn e).regs = s.regs ∧ (State.recvOffWay s qn e).mem = s.mem ∧ (State.recvOffWay s qn e).poison = s.poison ∧
    (State.recvOffWay s qn e).inv = s.inv ∧ (State.recvOffWay s qn e).tgf = s.tgf ∧ (State.recvOffWay s qn e).fifos = s.fifos ∧
    (State.recvOffWay s qn e).threads = s.threads ∧ (State.recvOffWay s qn e).engines = s.engines ∧
    (State.recvOffWay s qn e).clusters = s.clusters ∧ (State.recvOffWay s qn e).ops = s.ops ∧
    (State.recvOffWay s qn e).orders = s.orders ∧ (State.recvOffWay s qn e).rings = s.rings ∧ (State.recvOffWay s qn e).net = s.net ∧
    (State.recvOffWay s qn e).aml = s.aml ∧ (State.recvOffWay s qn e).host = s.host ∧ (State.recvOffWay s qn e).dev = s.dev ∧
    (State.recvOffWay s qn e).eptCache = s.eptCache ∧ (State.recvOffWay s qn e).ports = s.ports ∧
    (State.recvOffWay s qn e).lanes = s.lanes ∧ (State.recvOffWay s qn e).lims = s.lims ∧
    (State.recvOffWay s qn e).limCache = s.limCache ∧ (State.recvOffWay s qn e).limRefill = s.limRefill ∧
    (State.recvOffWay s qn e).route = s.route ∧ (State.recvOffWay s qn e).halfLatch = s.halfLatch ∧
    (State.recvOffWay s qn e).recLatch = s.recLatch ∧ (State.recvOffWay s qn e).sbAddr = s.sbAddr ∧
    (State.recvOffWay s qn e).variant = s.variant ∧ (State.recvOffWay s qn e).out = s.out ∧ (State.recvOffWay s qn e).free = s.free ∧
    (State.recvOffWay s qn e).pending = s.pending := by
  unfold State.recvOffWay; (try dsimp only); (repeat' split) <;> first | done | (simp; done) | (simp_all; done) | grind

@[simp] theorem State.recvCancel_frame (s : State) (qn : Nat) (e : OutEntry) :
    (State.recvCancel s qn e).mem = s.mem ∧ (State.recvCancel s qn e).poison = s.poison ∧ (State.recvCancel s qn e).inv = s.inv ∧
    (State.recvCancel s qn e).tgf = s.tgf ∧ (State.recvCancel s qn e).fifos = s.fifos ∧ (State.recvCancel s qn e).threads = s.threads ∧
    (State.recvCancel s qn e).engines = s.engines ∧ (State.recvCancel s qn e).clusters = s.clusters ∧
    (State.recvCancel s qn e).ops = s.ops ∧ (State.recvCancel s qn e).orders = s.orders ∧ (State.recvCancel s qn e).rings = s.rings ∧
    (State.recvCancel s qn e).net = s.net ∧ (State.recvCancel s qn e).aml = s.aml ∧ (State.recvCancel s qn e).host = s.host ∧
    (State.recvCancel s qn e).dev = s.dev ∧ (State.recvCancel s qn e).eptCache = s.eptCache ∧ (State.recvCancel s qn e).ports = s.ports ∧
    (State.recvCancel s qn e).lanes = s.lanes ∧ (State.recvCancel s qn e).lims = s.lims ∧
    (State.recvCancel s qn e).limCache = s.limCache ∧ (State.recvCancel s qn e).limRefill = s.limRefill ∧
    (State.recvCancel s qn e).route = s.route ∧ (State.recvCancel s qn e).halfLatch = s.halfLatch ∧
    (State.recvCancel s qn e).recLatch = s.recLatch ∧ (State.recvCancel s qn e).sbAddr = s.sbAddr ∧
    (State.recvCancel s qn e).variant = s.variant ∧ (State.recvCancel s qn e).out = s.out ∧ (State.recvCancel s qn e).free = s.free ∧
    (State.recvCancel s qn e).pending = s.pending := by
  unfold State.recvCancel; dsimp only; (repeat' split) <;> simp

theorem State.pushEvent_frame (s : State) (c : Nat) (body : List Byte) (s' : State) (h : State.pushEvent s c body = some s') :
    s'.regs = s.regs ∧ s'.mem = s.mem ∧ s'.poison = s.poison ∧ s'.inv = s.inv ∧ s'.tgf = s.tgf ∧ s'.threads = s.threads ∧
    s'.engines = s.engines ∧ s'.clusters = s.clusters ∧ s'.ops = s.ops ∧ s'.orders = s.orders ∧ s'.rings = s.rings ∧ s'.net = s.net ∧
    s'.mtch = s.mtch ∧ s'.aml = s.aml ∧ s'.host = s.host ∧ s'.dev = s.dev ∧ s'.eptCache = s.eptCache ∧ s'.ports = s.ports ∧
    s'.lanes = s.lanes ∧ s'.lims = s.lims ∧ s'.limCache = s.limCache ∧ s'.limRefill = s.limRefill ∧ s'.route = s.route ∧
    s'.halfLatch = s.halfLatch ∧ s'.recLatch = s.recLatch ∧ s'.sbAddr = s.sbAddr ∧ s'.variant = s.variant ∧ s'.out = s.out ∧
    s'.free = s.free ∧ s'.pending = s.pending := by
  unfold State.pushEvent at h; obtain ⟨k, _, h⟩ := Option.bind_eq_some_iff.mp h; have := State.wfStart_frame _ _ _ _ _ _ h; exact this

@[simp] theorem State.ringEvent_frame (s : State) (c : Nat) (ev : Nat) (cause : Nat) (cn : Nat) (qn : Nat) (held : Nat) :
    (State.ringEvent s c ev cause cn qn held).mem = s.mem ∧ (State.ringEvent s c ev cause cn qn held).poison = s.poison ∧
    (State.ringEvent s c ev cause cn qn held).inv = s.inv ∧ (State.ringEvent s c ev cause cn qn held).tgf = s.tgf ∧
    (State.ringEvent s c ev cause cn qn held).threads = s.threads ∧ (State.ringEvent s c ev cause cn qn held).engines = s.engines ∧
    (State.ringEvent s c ev cause cn qn held).clusters = s.clusters ∧ (State.ringEvent s c ev cause cn qn held).ops = s.ops ∧
    (State.ringEvent s c ev cause cn qn held).orders = s.orders ∧ (State.ringEvent s c ev cause cn qn held).net = s.net ∧
    (State.ringEvent s c ev cause cn qn held).mtch = s.mtch ∧ (State.ringEvent s c ev cause cn qn held).aml = s.aml ∧
    (State.ringEvent s c ev cause cn qn held).host = s.host ∧ (State.ringEvent s c ev cause cn qn held).dev = s.dev ∧
    (State.ringEvent s c ev cause cn qn held).eptCache = s.eptCache ∧ (State.ringEvent s c ev cause cn qn held).ports = s.ports ∧
    (State.ringEvent s c ev cause cn qn held).lanes = s.lanes ∧ (State.ringEvent s c ev cause cn qn held).lims = s.lims ∧
    (State.ringEvent s c ev cause cn qn held).limCache = s.limCache ∧ (State.ringEvent s c ev cause cn qn held).limRefill = s.limRefill ∧
    (State.ringEvent s c ev cause cn qn held).route = s.route ∧ (State.ringEvent s c ev cause cn qn held).halfLatch = s.halfLatch ∧
    (State.ringEvent s c ev cause cn qn held).recLatch = s.recLatch ∧ (State.ringEvent s c ev cause cn qn held).sbAddr = s.sbAddr ∧
    (State.ringEvent s c ev cause cn qn held).variant = s.variant ∧ (State.ringEvent s c ev cause cn qn held).out = s.out ∧
    (State.ringEvent s c ev cause cn qn held).free = s.free ∧ (State.ringEvent s c ev cause cn qn held).pending = s.pending := by
  unfold State.ringEvent; dsimp only; split
  · next heq => split at heq
                · have := State.pushEvent_frame _ _ _ _ heq; simp_all
                · cases heq
  · split <;> simp

@[simp] theorem State.checkFull_frame (s : State) (cn : Nat) :
    (State.checkFull s cn).inv = s.inv ∧ (State.checkFull s cn).threads = s.threads ∧ (State.checkFull s cn).engines = s.engines ∧
    (State.checkFull s cn).clusters = s.clusters ∧ (State.checkFull s cn).ops = s.ops ∧ (State.checkFull s cn).orders = s.orders ∧
    (State.checkFull s cn).net = s.net ∧ (State.checkFull s cn).mtch = s.mtch ∧ (State.checkFull s cn).aml = s.aml ∧
    (State.checkFull s cn).host = s.host ∧ (State.checkFull s cn).dev = s.dev ∧ (State.checkFull s cn).eptCache = s.eptCache ∧
    (State.checkFull s cn).ports = s.ports ∧ (State.checkFull s cn).lanes = s.lanes ∧ (State.checkFull s cn).lims = s.lims ∧
    (State.checkFull s cn).limCache = s.limCache ∧ (State.checkFull s cn).limRefill = s.limRefill ∧
    (State.checkFull s cn).route = s.route ∧ (State.checkFull s cn).halfLatch = s.halfLatch ∧
    (State.checkFull s cn).recLatch = s.recLatch ∧ (State.checkFull s cn).sbAddr = s.sbAddr ∧ (State.checkFull s cn).variant = s.variant ∧
    (State.checkFull s cn).free = s.free ∧ (State.checkFull s cn).pending = s.pending := by
  unfold State.checkFull; (try dsimp only); (repeat' split) <;> first | done | (simp; done) | (simp_all; done) | grind

@[simp] theorem State.commitCqe_frame (s : State) (cn : Nat) (c : Completion) :
    (State.commitCqe s cn c).2.inv = s.inv ∧ (State.commitCqe s cn c).2.threads = s.threads ∧
    (State.commitCqe s cn c).2.engines = s.engines ∧ (State.commitCqe s cn c).2.clusters = s.clusters ∧
    (State.commitCqe s cn c).2.ops = s.ops ∧ (State.commitCqe s cn c).2.orders = s.orders ∧ (State.commitCqe s cn c).2.net = s.net ∧
    (State.commitCqe s cn c).2.mtch = s.mtch ∧ (State.commitCqe s cn c).2.aml = s.aml ∧ (State.commitCqe s cn c).2.dev = s.dev ∧
    (State.commitCqe s cn c).2.eptCache = s.eptCache ∧ (State.commitCqe s cn c).2.ports = s.ports ∧
    (State.commitCqe s cn c).2.lanes = s.lanes ∧ (State.commitCqe s cn c).2.lims = s.lims ∧
    (State.commitCqe s cn c).2.limCache = s.limCache ∧ (State.commitCqe s cn c).2.limRefill = s.limRefill ∧
    (State.commitCqe s cn c).2.route = s.route ∧ (State.commitCqe s cn c).2.halfLatch = s.halfLatch ∧
    (State.commitCqe s cn c).2.recLatch = s.recLatch ∧ (State.commitCqe s cn c).2.sbAddr = s.sbAddr ∧
    (State.commitCqe s cn c).2.variant = s.variant ∧ (State.commitCqe s cn c).2.free = s.free ∧
    (State.commitCqe s cn c).2.pending = s.pending := by
  unfold State.commitCqe State.whenAwake; (try dsimp only); (repeat' split) <;> first | done | (simp; done) | (simp_all; done)

theorem State.commitCqe_frame_of (s : State) (cn : Nat) (c : Completion) (result : Bool) (s' : State)
    (h : State.commitCqe s cn c = (result, s')) :
    s'.inv = s.inv ∧ s'.threads = s.threads ∧ s'.engines = s.engines ∧ s'.clusters = s.clusters ∧ s'.ops = s.ops ∧ s'.orders = s.orders ∧
    s'.net = s.net ∧ s'.mtch = s.mtch ∧ s'.aml = s.aml ∧ s'.dev = s.dev ∧ s'.eptCache = s.eptCache ∧ s'.ports = s.ports ∧
    s'.lanes = s.lanes ∧ s'.lims = s.lims ∧ s'.limCache = s.limCache ∧ s'.limRefill = s.limRefill ∧ s'.route = s.route ∧
    s'.halfLatch = s.halfLatch ∧ s'.recLatch = s.recLatch ∧ s'.sbAddr = s.sbAddr ∧ s'.variant = s.variant ∧ s'.free = s.free ∧
    s'.pending = s.pending := by
  have := State.commitCqe_frame s cn c; rwa [h] at this

@[simp] theorem State.unlist_frame (s : State) (qn : Nat) (serial : Nat) :
    (State.unlist s qn serial).regs = s.regs ∧ (State.unlist s qn serial).mem = s.mem ∧ (State.unlist s qn serial).poison = s.poison ∧
    (State.unlist s qn serial).inv = s.inv ∧ (State.unlist s qn serial).tgf = s.tgf ∧ (State.unlist s qn serial).fifos = s.fifos ∧
    (State.unlist s qn serial).threads = s.threads ∧ (State.unlist s qn serial).engines = s.engines ∧
    (State.unlist s qn serial).clusters = s.clusters ∧ (State.unlist s qn serial).ops = s.ops ∧
    (State.unlist s qn serial).orders = s.orders ∧ (State.unlist s qn serial).rings = s.rings ∧ (State.unlist s qn serial).mtch = s.mtch ∧
    (State.unlist s qn serial).aml = s.aml ∧ (State.unlist s qn serial).host = s.host ∧ (State.unlist s qn serial).dev = s.dev ∧
    (State.unlist s qn serial).eptCache = s.eptCache ∧ (State.unlist s qn serial).ports = s.ports ∧
    (State.unlist s qn serial).lanes = s.lanes ∧ (State.unlist s qn serial).lims = s.lims ∧
    (State.unlist s qn serial).limCache = s.limCache ∧ (State.unlist s qn serial).limRefill = s.limRefill ∧
    (State.unlist s qn serial).route = s.route ∧ (State.unlist s qn serial).halfLatch = s.halfLatch ∧
    (State.unlist s qn serial).recLatch = s.recLatch ∧ (State.unlist s qn serial).sbAddr = s.sbAddr ∧
    (State.unlist s qn serial).variant = s.variant ∧ (State.unlist s qn serial).out = s.out ∧ (State.unlist s qn serial).free = s.free ∧
    (State.unlist s qn serial).pending = s.pending := by
  unfold State.unlist; (try dsimp only); (repeat' split) <;> first | done | (simp; done) | (simp_all; done) | grind

@[simp] theorem State.runOver_frame (s : State) (qn : Nat) (serial : Nat) (status : Nat) :
    (State.runOver s qn serial status).regs = s.regs ∧ (State.runOver s qn serial status).mem = s.mem ∧
    (State.runOver s qn serial status).poison = s.poison ∧ (State.runOver s qn serial status).inv = s.inv ∧
    (State.runOver s qn serial status).tgf = s.tgf ∧ (State.runOver s qn serial status).fifos = s.fifos ∧
    (State.runOver s qn serial status).engines = s.engines ∧ (State.runOver s qn serial status).orders = s.orders ∧
    (State.runOver s qn serial status).rings = s.rings ∧ (State.runOver s qn serial status).mtch = s.mtch ∧
    (State.runOver s qn serial status).host = s.host ∧ (State.runOver s qn serial status).dev = s.dev ∧
    (State.runOver s qn serial status).eptCache = s.eptCache ∧ (State.runOver s qn serial status).ports = s.ports ∧
    (State.runOver s qn serial status).lanes = s.lanes ∧ (State.runOver s qn serial status).lims = s.lims ∧
    (State.runOver s qn serial status).limCache = s.limCache ∧ (State.runOver s qn serial status).limRefill = s.limRefill ∧
    (State.runOver s qn serial status).route = s.route ∧ (State.runOver s qn serial status).halfLatch = s.halfLatch ∧
    (State.runOver s qn serial status).recLatch = s.recLatch ∧ (State.runOver s qn serial status).sbAddr = s.sbAddr ∧
    (State.runOver s qn serial status).variant = s.variant ∧ (State.runOver s qn serial status).out = s.out ∧
    (State.runOver s qn serial status).free = s.free ∧ (State.runOver s qn serial status).pending = s.pending := by
  unfold State.runOver
  dsimp only
  split
  · next id c _ =>
    refine ⟨?_, ?_, ?_, ?_, ?_, ?_, ?_, ?_, ?_, ?_, ?_, ?_, ?_, ?_, ?_, ?_, ?_, ?_, ?_, ?_, ?_, ?_, ?_, ?_, ?_, ?_⟩
    · rw [State.foldl_regs _ _ (by intro s x; (repeat' split) <;> first | rfl | (simp; done))]; simp
    · rw [State.foldl_mem _ _ (by intro s x; (repeat' split) <;> first | rfl | (simp; done))]; simp
    · rw [State.foldl_poison _ _ (by intro s x; (repeat' split) <;> first | rfl | (simp; done))]; simp
    · rw [State.foldl_inv _ _ (by intro s x; (repeat' split) <;> first | rfl | (simp; done))]; simp
    · rw [State.foldl_tgf _ _ (by intro s x; (repeat' split) <;> first | rfl | (simp; done))]; simp
    · rw [State.foldl_fifos _ _ (by intro s x; (repeat' split) <;> first | rfl | (simp; done))]; simp
    · rw [State.foldl_engines _ _ (by intro s x; (repeat' split) <;> first | rfl | (simp; done))]; simp
    · rw [State.foldl_orders _ _ (by intro s x; (repeat' split) <;> first | rfl | (simp; done))]; simp
    · rw [State.foldl_rings _ _ (by intro s x; (repeat' split) <;> first | rfl | (simp; done))]; simp
    · rw [State.foldl_mtch _ _ (by intro s x; (repeat' split) <;> first | rfl | (simp; done))]; simp
    · rw [State.foldl_host _ _ (by intro s x; (repeat' split) <;> first | rfl | (simp; done))]; simp
    · rw [State.foldl_dev _ _ (by intro s x; (repeat' split) <;> first | rfl | (simp; done))]; simp
    · rw [State.foldl_eptCache _ _ (by intro s x; (repeat' split) <;> first | rfl | (simp; done))]; simp
    · rw [State.foldl_ports _ _ (by intro s x; (repeat' split) <;> first | rfl | (simp; done))]; simp
    · rw [State.foldl_lanes _ _ (by intro s x; (repeat' split) <;> first | rfl | (simp; done))]; simp
    · rw [State.foldl_lims _ _ (by intro s x; (repeat' split) <;> first | rfl | (simp; done))]; simp
    · rw [State.foldl_limCache _ _ (by intro s x; (repeat' split) <;> first | rfl | (simp; done))]; simp
    · rw [State.foldl_limRefill _ _ (by intro s x; (repeat' split) <;> first | rfl | (simp; done))]; simp
    · rw [State.foldl_route _ _ (by intro s x; (repeat' split) <;> first | rfl | (simp; done))]; simp
    · rw [State.foldl_halfLatch _ _ (by intro s x; (repeat' split) <;> first | rfl | (simp; done))]; simp
    · rw [State.foldl_recLatch _ _ (by intro s x; (repeat' split) <;> first | rfl | (simp; done))]; simp
    · rw [State.foldl_sbAddr _ _ (by intro s x; (repeat' split) <;> first | rfl | (simp; done))]; simp
    · rw [State.foldl_variant _ _ (by intro s x; (repeat' split) <;> first | rfl | (simp; done))]; simp
    · rw [State.foldl_out _ _ (by intro s x; (repeat' split) <;> first | rfl | (simp; done))]; simp
    · rw [State.foldl_free _ _ (by intro s x; (repeat' split) <;> first | rfl | (simp; done))]; simp
    · rw [State.foldl_pending _ _ (by intro s x; (repeat' split) <;> first | rfl | (simp; done))]; simp
  · simp

@[simp] theorem State.workDone_frame (s : State) (qn : Nat) (serial : Nat) (d : WorkDone) :
    (State.workDone s qn serial d).inv = s.inv ∧ (State.workDone s qn serial d).engines = s.engines ∧
    (State.workDone s qn serial d).orders = s.orders ∧ (State.workDone s qn serial d).mtch = s.mtch ∧
    (State.workDone s qn serial d).dev = s.dev ∧ (State.workDone s qn serial d).eptCache = s.eptCache ∧
    (State.workDone s qn serial d).ports = s.ports ∧ (State.workDone s qn serial d).lanes = s.lanes ∧
    (State.workDone s qn serial d).lims = s.lims ∧ (State.workDone s qn serial d).limCache = s.limCache ∧
    (State.workDone s qn serial d).limRefill = s.limRefill ∧ (State.workDone s qn serial d).route = s.route ∧
    (State.workDone s qn serial d).halfLatch = s.halfLatch ∧ (State.workDone s qn serial d).recLatch = s.recLatch ∧
    (State.workDone s qn serial d).sbAddr = s.sbAddr ∧ (State.workDone s qn serial d).variant = s.variant ∧
    (State.workDone s qn serial d).free = s.free ∧ (State.workDone s qn serial d).pending = s.pending := by
  unfold State.workDone; (try dsimp only); (repeat' split) <;> first | done | (simp; done) | (simp_all; done) | grind

@[simp] theorem State.abortWork_frame (s : State) (qn : Nat) (serial : Nat) :
    (State.abortWork s qn serial).regs = s.regs ∧ (State.abortWork s qn serial).mem = s.mem ∧
    (State.abortWork s qn serial).poison = s.poison ∧ (State.abortWork s qn serial).inv = s.inv ∧
    (State.abortWork s qn serial).tgf = s.tgf ∧ (State.abortWork s qn serial).fifos = s.fifos ∧
    (State.abortWork s qn serial).engines = s.engines ∧ (State.abortWork s qn serial).orders = s.orders ∧
    (State.abortWork s qn serial).rings = s.rings ∧ (State.abortWork s qn serial).mtch = s.mtch ∧
    (State.abortWork s qn serial).host = s.host ∧ (State.abortWork s qn serial).dev = s.dev ∧
    (State.abortWork s qn serial).eptCache = s.eptCache ∧ (State.abortWork s qn serial).ports = s.ports ∧
    (State.abortWork s qn serial).lanes = s.lanes ∧ (State.abortWork s qn serial).lims = s.lims ∧
    (State.abortWork s qn serial).limCache = s.limCache ∧ (State.abortWork s qn serial).limRefill = s.limRefill ∧
    (State.abortWork s qn serial).route = s.route ∧ (State.abortWork s qn serial).halfLatch = s.halfLatch ∧
    (State.abortWork s qn serial).recLatch = s.recLatch ∧ (State.abortWork s qn serial).sbAddr = s.sbAddr ∧
    (State.abortWork s qn serial).variant = s.variant ∧ (State.abortWork s qn serial).out = s.out ∧
    (State.abortWork s qn serial).free = s.free ∧ (State.abortWork s qn serial).pending = s.pending := by
  unfold State.abortWork; (try dsimp only); (repeat' split) <;> first | done | (simp; done) | (simp_all; done) | simp [State.foldl_regs,
    (apply_ite State.regs), State.foldl_mem, (apply_ite State.mem), State.foldl_poison, (apply_ite State.poison), State.foldl_inv,
      (apply_ite State.inv), State.foldl_tgf, (apply_ite State.tgf), State.foldl_fifos, (apply_ite State.fifos), State.foldl_engines,
        (apply_ite State.engines), State.foldl_orders, (apply_ite State.orders), State.foldl_rings, (apply_ite State.rings),
          State.foldl_mtch, (apply_ite State.mtch), State.foldl_host, (apply_ite State.host), State.foldl_dev, (apply_ite State.dev),
            State.foldl_eptCache, (apply_ite State.eptCache), State.foldl_ports, (apply_ite State.ports), State.foldl_lanes,
              (apply_ite State.lanes), State.foldl_lims, (apply_ite State.lims), State.foldl_limCache, (apply_ite State.limCache),
                State.foldl_limRefill, (apply_ite State.limRefill), State.foldl_route, (apply_ite State.route), State.foldl_halfLatch,
                  (apply_ite State.halfLatch), State.foldl_recLatch, (apply_ite State.recLatch), State.foldl_sbAddr,
                    (apply_ite State.sbAddr), State.foldl_variant, (apply_ite State.variant), State.foldl_out, (apply_ite State.out),
                      State.foldl_free, (apply_ite State.free), State.foldl_pending, (apply_ite State.pending)]

@[simp] theorem State.abortEntry_frame (s : State) (qn : Nat) (serial : Nat) :
    (State.abortEntry s qn serial).inv = s.inv ∧ (State.abortEntry s qn serial).engines = s.engines ∧
    (State.abortEntry s qn serial).orders = s.orders ∧ (State.abortEntry s qn serial).dev = s.dev ∧
    (State.abortEntry s qn serial).eptCache = s.eptCache ∧ (State.abortEntry s qn serial).ports = s.ports ∧
    (State.abortEntry s qn serial).lanes = s.lanes ∧ (State.abortEntry s qn serial).lims = s.lims ∧
    (State.abortEntry s qn serial).limCache = s.limCache ∧ (State.abortEntry s qn serial).limRefill = s.limRefill ∧
    (State.abortEntry s qn serial).route = s.route ∧ (State.abortEntry s qn serial).halfLatch = s.halfLatch ∧
    (State.abortEntry s qn serial).recLatch = s.recLatch ∧ (State.abortEntry s qn serial).sbAddr = s.sbAddr ∧
    (State.abortEntry s qn serial).variant = s.variant ∧ (State.abortEntry s qn serial).free = s.free ∧
    (State.abortEntry s qn serial).pending = s.pending := by
  unfold State.abortEntry; (try dsimp only); (repeat' split) <;> first | done | (simp; done) | (simp_all; done) | grind

@[simp] theorem State.abortPass_frame (s : State) (qn : Nat) :
    (State.abortPass s qn).inv = s.inv ∧ (State.abortPass s qn).engines = s.engines ∧ (State.abortPass s qn).orders = s.orders ∧
    (State.abortPass s qn).dev = s.dev ∧ (State.abortPass s qn).eptCache = s.eptCache ∧ (State.abortPass s qn).ports = s.ports ∧
    (State.abortPass s qn).lanes = s.lanes ∧ (State.abortPass s qn).lims = s.lims ∧ (State.abortPass s qn).limCache = s.limCache ∧
    (State.abortPass s qn).limRefill = s.limRefill ∧ (State.abortPass s qn).route = s.route ∧
    (State.abortPass s qn).halfLatch = s.halfLatch ∧ (State.abortPass s qn).recLatch = s.recLatch ∧
    (State.abortPass s qn).sbAddr = s.sbAddr ∧ (State.abortPass s qn).variant = s.variant ∧ (State.abortPass s qn).free = s.free ∧
    (State.abortPass s qn).pending = s.pending := by
  unfold State.abortPass; (try dsimp only); (repeat' split) <;> first | done | (simp; done) | (simp_all; done) | simp [State.foldl_inv,
    (apply_ite State.inv), State.foldl_engines, (apply_ite State.engines), State.foldl_orders, (apply_ite State.orders), State.foldl_dev,
      (apply_ite State.dev), State.foldl_eptCache, (apply_ite State.eptCache), State.foldl_ports, (apply_ite State.ports),
        State.foldl_lanes, (apply_ite State.lanes), State.foldl_lims, (apply_ite State.lims), State.foldl_limCache,
          (apply_ite State.limCache), State.foldl_limRefill, (apply_ite State.limRefill), State.foldl_route, (apply_ite State.route),
            State.foldl_halfLatch, (apply_ite State.halfLatch), State.foldl_recLatch, (apply_ite State.recLatch), State.foldl_sbAddr,
              (apply_ite State.sbAddr), State.foldl_variant, (apply_ite State.variant), State.foldl_free, (apply_ite State.free),
                State.foldl_pending, (apply_ite State.pending)]

@[simp] theorem State.giveUpRead_frame (s : State) (qn : Nat) (r : EntryRead) :
    (State.giveUpRead s qn r).regs = s.regs ∧ (State.giveUpRead s qn r).mem = s.mem ∧ (State.giveUpRead s qn r).poison = s.poison ∧
    (State.giveUpRead s qn r).inv = s.inv ∧ (State.giveUpRead s qn r).tgf = s.tgf ∧ (State.giveUpRead s qn r).threads = s.threads ∧
    (State.giveUpRead s qn r).engines = s.engines ∧ (State.giveUpRead s qn r).clusters = s.clusters ∧
    (State.giveUpRead s qn r).ops = s.ops ∧ (State.giveUpRead s qn r).orders = s.orders ∧ (State.giveUpRead s qn r).rings = s.rings ∧
    (State.giveUpRead s qn r).net = s.net ∧ (State.giveUpRead s qn r).mtch = s.mtch ∧ (State.giveUpRead s qn r).aml = s.aml ∧
    (State.giveUpRead s qn r).host = s.host ∧ (State.giveUpRead s qn r).dev = s.dev ∧ (State.giveUpRead s qn r).eptCache = s.eptCache ∧
    (State.giveUpRead s qn r).ports = s.ports ∧ (State.giveUpRead s qn r).lanes = s.lanes ∧ (State.giveUpRead s qn r).lims = s.lims ∧
    (State.giveUpRead s qn r).limCache = s.limCache ∧ (State.giveUpRead s qn r).limRefill = s.limRefill ∧
    (State.giveUpRead s qn r).route = s.route ∧ (State.giveUpRead s qn r).halfLatch = s.halfLatch ∧
    (State.giveUpRead s qn r).recLatch = s.recLatch ∧ (State.giveUpRead s qn r).sbAddr = s.sbAddr ∧
    (State.giveUpRead s qn r).variant = s.variant ∧ (State.giveUpRead s qn r).out = s.out ∧ (State.giveUpRead s qn r).free = s.free ∧
    (State.giveUpRead s qn r).pending = s.pending := by
  unfold State.giveUpRead; (try dsimp only); (repeat' split) <;> first | done | (simp; done) | (simp_all; done) | grind

@[simp] theorem State.dropReads_frame (s : State) (qn : Nat) :
    (State.dropReads s qn).mem = s.mem ∧ (State.dropReads s qn).poison = s.poison ∧ (State.dropReads s qn).inv = s.inv ∧
    (State.dropReads s qn).tgf = s.tgf ∧ (State.dropReads s qn).threads = s.threads ∧ (State.dropReads s qn).engines = s.engines ∧
    (State.dropReads s qn).clusters = s.clusters ∧ (State.dropReads s qn).ops = s.ops ∧ (State.dropReads s qn).orders = s.orders ∧
    (State.dropReads s qn).net = s.net ∧ (State.dropReads s qn).mtch = s.mtch ∧ (State.dropReads s qn).aml = s.aml ∧
    (State.dropReads s qn).host = s.host ∧ (State.dropReads s qn).dev = s.dev ∧ (State.dropReads s qn).eptCache = s.eptCache ∧
    (State.dropReads s qn).ports = s.ports ∧ (State.dropReads s qn).lanes = s.lanes ∧ (State.dropReads s qn).lims = s.lims ∧
    (State.dropReads s qn).limCache = s.limCache ∧ (State.dropReads s qn).limRefill = s.limRefill ∧
    (State.dropReads s qn).route = s.route ∧ (State.dropReads s qn).halfLatch = s.halfLatch ∧
    (State.dropReads s qn).recLatch = s.recLatch ∧ (State.dropReads s qn).sbAddr = s.sbAddr ∧ (State.dropReads s qn).variant = s.variant ∧
    (State.dropReads s qn).out = s.out ∧ (State.dropReads s qn).free = s.free ∧ (State.dropReads s qn).pending = s.pending := by
  unfold State.dropReads; (try dsimp only); (repeat' split) <;> first | done | (simp; done) | (simp_all; done) | simp [State.foldl_mem,
    (apply_ite State.mem), State.foldl_poison, (apply_ite State.poison), State.foldl_inv, (apply_ite State.inv), State.foldl_tgf,
      (apply_ite State.tgf), State.foldl_threads, (apply_ite State.threads), State.foldl_engines, (apply_ite State.engines),
        State.foldl_clusters, (apply_ite State.clusters), State.foldl_ops, (apply_ite State.ops), State.foldl_orders,
          (apply_ite State.orders), State.foldl_net, (apply_ite State.net), State.foldl_mtch, (apply_ite State.mtch), State.foldl_aml,
            (apply_ite State.aml), State.foldl_host, (apply_ite State.host), State.foldl_dev, (apply_ite State.dev),
              State.foldl_eptCache, (apply_ite State.eptCache), State.foldl_ports, (apply_ite State.ports), State.foldl_lanes,
                (apply_ite State.lanes), State.foldl_lims, (apply_ite State.lims), State.foldl_limCache, (apply_ite State.limCache),
                  State.foldl_limRefill, (apply_ite State.limRefill), State.foldl_route, (apply_ite State.route), State.foldl_halfLatch,
                    (apply_ite State.halfLatch), State.foldl_recLatch, (apply_ite State.recLatch), State.foldl_sbAddr,
                      (apply_ite State.sbAddr), State.foldl_variant, (apply_ite State.variant), State.foldl_out, (apply_ite State.out),
                        State.foldl_free, (apply_ite State.free), State.foldl_pending, (apply_ite State.pending)]

@[simp] theorem State.queueError_frame (s : State) (qn : Nat) (cause : Nat) :
    (State.queueError s qn cause).inv = s.inv ∧ (State.queueError s qn cause).engines = s.engines ∧
    (State.queueError s qn cause).orders = s.orders ∧ (State.queueError s qn cause).dev = s.dev ∧
    (State.queueError s qn cause).eptCache = s.eptCache ∧ (State.queueError s qn cause).ports = s.ports ∧
    (State.queueError s qn cause).lanes = s.lanes ∧ (State.queueError s qn cause).lims = s.lims ∧
    (State.queueError s qn cause).limCache = s.limCache ∧ (State.queueError s qn cause).limRefill = s.limRefill ∧
    (State.queueError s qn cause).route = s.route ∧ (State.queueError s qn cause).halfLatch = s.halfLatch ∧
    (State.queueError s qn cause).recLatch = s.recLatch ∧ (State.queueError s qn cause).sbAddr = s.sbAddr ∧
    (State.queueError s qn cause).variant = s.variant ∧ (State.queueError s qn cause).free = s.free ∧
    (State.queueError s qn cause).pending = s.pending := by
  unfold State.queueError; (try dsimp only); (repeat' split) <;> first | done | (simp; done) | (simp_all; done) | grind

@[simp] theorem State.collEnd_frame (s : State) (id : Nat) (d : WorkDone) :
    (State.collEnd s id d).inv = s.inv ∧ (State.collEnd s id d).engines = s.engines ∧ (State.collEnd s id d).orders = s.orders ∧
    (State.collEnd s id d).mtch = s.mtch ∧ (State.collEnd s id d).dev = s.dev ∧ (State.collEnd s id d).eptCache = s.eptCache ∧
    (State.collEnd s id d).ports = s.ports ∧ (State.collEnd s id d).lanes = s.lanes ∧ (State.collEnd s id d).lims = s.lims ∧
    (State.collEnd s id d).limCache = s.limCache ∧ (State.collEnd s id d).limRefill = s.limRefill ∧
    (State.collEnd s id d).route = s.route ∧ (State.collEnd s id d).halfLatch = s.halfLatch ∧
    (State.collEnd s id d).recLatch = s.recLatch ∧ (State.collEnd s id d).sbAddr = s.sbAddr ∧ (State.collEnd s id d).variant = s.variant ∧
    (State.collEnd s id d).free = s.free ∧ (State.collEnd s id d).pending = s.pending := by
  unfold State.collEnd; (try dsimp only); (repeat' split) <;> first | done | (simp; done) | (simp_all; done) | grind

@[simp] theorem State.endLatched_frame (s : State) (qn : Nat) (d : WorkDone) :
    (State.endLatched s qn d).inv = s.inv ∧ (State.endLatched s qn d).engines = s.engines ∧ (State.endLatched s qn d).orders = s.orders ∧
    (State.endLatched s qn d).mtch = s.mtch ∧ (State.endLatched s qn d).dev = s.dev ∧ (State.endLatched s qn d).eptCache = s.eptCache ∧
    (State.endLatched s qn d).ports = s.ports ∧ (State.endLatched s qn d).lanes = s.lanes ∧ (State.endLatched s qn d).lims = s.lims ∧
    (State.endLatched s qn d).limCache = s.limCache ∧ (State.endLatched s qn d).limRefill = s.limRefill ∧
    (State.endLatched s qn d).route = s.route ∧ (State.endLatched s qn d).halfLatch = s.halfLatch ∧
    (State.endLatched s qn d).recLatch = s.recLatch ∧ (State.endLatched s qn d).sbAddr = s.sbAddr ∧
    (State.endLatched s qn d).variant = s.variant ∧ (State.endLatched s qn d).free = s.free ∧
    (State.endLatched s qn d).pending = s.pending := by
  unfold State.endLatched; (try dsimp only); (repeat' split) <;> first | done | (simp; done) | (simp_all; done) | simp [State.foldl_inv,
    (apply_ite State.inv), State.foldl_engines, (apply_ite State.engines), State.foldl_orders, (apply_ite State.orders),
      State.foldl_mtch, (apply_ite State.mtch), State.foldl_dev, (apply_ite State.dev), State.foldl_eptCache, (apply_ite State.eptCache),
        State.foldl_ports, (apply_ite State.ports), State.foldl_lanes, (apply_ite State.lanes), State.foldl_lims, (apply_ite State.lims),
          State.foldl_limCache, (apply_ite State.limCache), State.foldl_limRefill, (apply_ite State.limRefill), State.foldl_route,
            (apply_ite State.route), State.foldl_halfLatch, (apply_ite State.halfLatch), State.foldl_recLatch,
              (apply_ite State.recLatch), State.foldl_sbAddr, (apply_ite State.sbAddr), State.foldl_variant, (apply_ite State.variant),
                State.foldl_free, (apply_ite State.free), State.foldl_pending, (apply_ite State.pending)]

@[simp] theorem State.halfError_frame (s : State) (r : Nat) (status : Nat) (seq : BitVec 32) (detail : Nat) :
    (State.halfError s r status seq detail).inv = s.inv ∧ (State.halfError s r status seq detail).engines = s.engines ∧
    (State.halfError s r status seq detail).orders = s.orders ∧ (State.halfError s r status seq detail).dev = s.dev ∧
    (State.halfError s r status seq detail).eptCache = s.eptCache ∧ (State.halfError s r status seq detail).ports = s.ports ∧
    (State.halfError s r status seq detail).lanes = s.lanes ∧ (State.halfError s r status seq detail).lims = s.lims ∧
    (State.halfError s r status seq detail).limCache = s.limCache ∧ (State.halfError s r status seq detail).limRefill = s.limRefill ∧
    (State.halfError s r status seq detail).route = s.route ∧ (State.halfError s r status seq detail).halfLatch = s.halfLatch ∧
    (State.halfError s r status seq detail).recLatch = s.recLatch ∧ (State.halfError s r status seq detail).sbAddr = s.sbAddr ∧
    (State.halfError s r status seq detail).variant = s.variant ∧ (State.halfError s r status seq detail).free = s.free ∧
    (State.halfError s r status seq detail).pending = s.pending := by
  unfold State.halfError; (try dsimp only); (repeat' split) <;> first | done | (simp; done) | (simp_all; done) | simp [State.foldl_inv,
    (apply_ite State.inv), State.foldl_engines, (apply_ite State.engines), State.foldl_orders, (apply_ite State.orders), State.foldl_dev,
      (apply_ite State.dev), State.foldl_eptCache, (apply_ite State.eptCache), State.foldl_ports, (apply_ite State.ports),
        State.foldl_lanes, (apply_ite State.lanes), State.foldl_lims, (apply_ite State.lims), State.foldl_limCache,
          (apply_ite State.limCache), State.foldl_limRefill, (apply_ite State.limRefill), State.foldl_route, (apply_ite State.route),
            State.foldl_halfLatch, (apply_ite State.halfLatch), State.foldl_recLatch, (apply_ite State.recLatch), State.foldl_sbAddr,
              (apply_ite State.sbAddr), State.foldl_variant, (apply_ite State.variant), State.foldl_free, (apply_ite State.free),
                State.foldl_pending, (apply_ite State.pending)]

@[simp] theorem State.takeXlt_frame (s : State) (c : Nat) (cl : XltClient) :
    (State.takeXlt s c cl).2.inv = s.inv ∧ (State.takeXlt s c cl).2.engines = s.engines ∧ (State.takeXlt s c cl).2.orders = s.orders ∧
    (State.takeXlt s c cl).2.mtch = s.mtch ∧ (State.takeXlt s c cl).2.dev = s.dev ∧ (State.takeXlt s c cl).2.eptCache = s.eptCache ∧
    (State.takeXlt s c cl).2.ports = s.ports ∧ (State.takeXlt s c cl).2.lanes = s.lanes ∧ (State.takeXlt s c cl).2.lims = s.lims ∧
    (State.takeXlt s c cl).2.limCache = s.limCache ∧ (State.takeXlt s c cl).2.limRefill = s.limRefill ∧
    (State.takeXlt s c cl).2.route = s.route ∧ (State.takeXlt s c cl).2.halfLatch = s.halfLatch ∧
    (State.takeXlt s c cl).2.recLatch = s.recLatch ∧ (State.takeXlt s c cl).2.sbAddr = s.sbAddr ∧
    (State.takeXlt s c cl).2.variant = s.variant ∧ (State.takeXlt s c cl).2.free = s.free ∧
    (State.takeXlt s c cl).2.pending = s.pending := by
  unfold State.takeXlt; (try dsimp only); (repeat' split) <;> first | done | (simp; done) | (simp_all; done) | grind

theorem State.takeXlt_frame_of (s : State) (c : Nat) (cl : XltClient) (result : Option (Nat × Nat)) (s' : State)
    (h : State.takeXlt s c cl = (result, s')) :
    s'.inv = s.inv ∧ s'.engines = s.engines ∧ s'.orders = s.orders ∧ s'.mtch = s.mtch ∧ s'.dev = s.dev ∧ s'.eptCache = s.eptCache ∧
    s'.ports = s.ports ∧ s'.lanes = s.lanes ∧ s'.lims = s.lims ∧ s'.limCache = s.limCache ∧ s'.limRefill = s.limRefill ∧
    s'.route = s.route ∧ s'.halfLatch = s.halfLatch ∧ s'.recLatch = s.recLatch ∧ s'.sbAddr = s.sbAddr ∧ s'.variant = s.variant ∧
    s'.free = s.free ∧ s'.pending = s.pending := by
  have := State.takeXlt_frame s c cl; rwa [h] at this

@[simp] theorem State.locateAsk_frame (s : State) (c : Nat) (ask : Nat) (va : Nat) (u : Use) (keyed : Bool) (cl : XltClient) :
    (State.locateAsk s c ask va u keyed cl).2.inv = s.inv ∧ (State.locateAsk s c ask va u keyed cl).2.orders = s.orders ∧
    (State.locateAsk s c ask va u keyed cl).2.mtch = s.mtch ∧ (State.locateAsk s c ask va u keyed cl).2.dev = s.dev ∧
    (State.locateAsk s c ask va u keyed cl).2.eptCache = s.eptCache ∧ (State.locateAsk s c ask va u keyed cl).2.ports = s.ports ∧
    (State.locateAsk s c ask va u keyed cl).2.lanes = s.lanes ∧ (State.locateAsk s c ask va u keyed cl).2.lims = s.lims ∧
    (State.locateAsk s c ask va u keyed cl).2.limCache = s.limCache ∧ (State.locateAsk s c ask va u keyed cl).2.limRefill = s.limRefill ∧
    (State.locateAsk s c ask va u keyed cl).2.route = s.route ∧ (State.locateAsk s c ask va u keyed cl).2.halfLatch = s.halfLatch ∧
    (State.locateAsk s c ask va u keyed cl).2.recLatch = s.recLatch ∧ (State.locateAsk s c ask va u keyed cl).2.sbAddr = s.sbAddr ∧
    (State.locateAsk s c ask va u keyed cl).2.variant = s.variant ∧ (State.locateAsk s c ask va u keyed cl).2.pending = s.pending := by
  unfold State.locateAsk
  dsimp only
  split
  · simp
  · split
    · simp
    · have hx := State.xlate_frame (s.askOf c ask).2 c .none ask va (u.leaf keyed) (!keyed)
      split
      · next heq => rw [heq] at hx; simp at hx ⊢; simp [hx]
      · next heq => rw [heq] at hx; simp at hx ⊢; simp [hx]
      · next heq => rw [heq] at hx; simp at hx ⊢; simp [hx]
      · next s2 heq =>
        rw [heq] at hx
        have ht := State.takeXlt_frame s2 c cl
        split
        · next heq2 => rw [heq2] at ht; simp at hx ht ⊢; simp [hx, ht]
        · next heq2 => rw [heq2] at ht; simp at hx ht ⊢; simp [hx, ht]

theorem State.locateAsk_frame_of (s : State) (c : Nat) (ask : Nat) (va : Nat) (u : Use) (keyed : Bool) (cl : XltClient)
    (result : Loc) (s' : State) (h : State.locateAsk s c ask va u keyed cl = (result, s')) :
    s'.inv = s.inv ∧ s'.orders = s.orders ∧ s'.mtch = s.mtch ∧ s'.dev = s.dev ∧ s'.eptCache = s.eptCache ∧ s'.ports = s.ports ∧
    s'.lanes = s.lanes ∧ s'.lims = s.lims ∧ s'.limCache = s.limCache ∧ s'.limRefill = s.limRefill ∧ s'.route = s.route ∧
    s'.halfLatch = s.halfLatch ∧ s'.recLatch = s.recLatch ∧ s'.sbAddr = s.sbAddr ∧ s'.variant = s.variant ∧ s'.pending = s.pending := by
  have := State.locateAsk_frame s c ask va u keyed cl; rwa [h] at this

@[simp] theorem State.locateOne_frame (s : State) (c : Nat) (m : MemAt) (off : Nat) (u : Use) (cl : XltClient) :
    (State.locateOne s c m off u cl).2.inv = s.inv ∧ (State.locateOne s c m off u cl).2.orders = s.orders ∧
    (State.locateOne s c m off u cl).2.mtch = s.mtch ∧ (State.locateOne s c m off u cl).2.dev = s.dev ∧
    (State.locateOne s c m off u cl).2.eptCache = s.eptCache ∧ (State.locateOne s c m off u cl).2.ports = s.ports ∧
    (State.locateOne s c m off u cl).2.lanes = s.lanes ∧ (State.locateOne s c m off u cl).2.lims = s.lims ∧
    (State.locateOne s c m off u cl).2.limCache = s.limCache ∧ (State.locateOne s c m off u cl).2.limRefill = s.limRefill ∧
    (State.locateOne s c m off u cl).2.route = s.route ∧ (State.locateOne s c m off u cl).2.halfLatch = s.halfLatch ∧
    (State.locateOne s c m off u cl).2.recLatch = s.recLatch ∧ (State.locateOne s c m off u cl).2.sbAddr = s.sbAddr ∧
    (State.locateOne s c m off u cl).2.variant = s.variant ∧ (State.locateOne s c m off u cl).2.pending = s.pending := by
  unfold State.locateOne; (try dsimp only); (repeat' split) <;> first | done | (simp; done) | (simp_all; done) | grind

theorem State.locateOne_frame_of (s : State) (c : Nat) (m : MemAt) (off : Nat) (u : Use) (cl : XltClient) (result : Loc) (s' : State)
    (h : State.locateOne s c m off u cl = (result, s')) :
    s'.inv = s.inv ∧ s'.orders = s.orders ∧ s'.mtch = s.mtch ∧ s'.dev = s.dev ∧ s'.eptCache = s.eptCache ∧ s'.ports = s.ports ∧
    s'.lanes = s.lanes ∧ s'.lims = s.lims ∧ s'.limCache = s.limCache ∧ s'.limRefill = s.limRefill ∧ s'.route = s.route ∧
    s'.halfLatch = s.halfLatch ∧ s'.recLatch = s.recLatch ∧ s'.sbAddr = s.sbAddr ∧ s'.variant = s.variant ∧ s'.pending = s.pending := by
  have := State.locateOne_frame s c m off u cl; rwa [h] at this

@[simp] theorem State.locate_frame (s : State) (c : Nat) (m : MemAt) (u : Use) (cl : XltClient) (f : Nat) (off : Nat) (n : Nat) (ps :
  List Piece) :
    (State.locate s c m u cl f off n ps).2.inv = s.inv ∧ (State.locate s c m u cl f off n ps).2.orders = s.orders ∧
    (State.locate s c m u cl f off n ps).2.mtch = s.mtch ∧ (State.locate s c m u cl f off n ps).2.dev = s.dev ∧
    (State.locate s c m u cl f off n ps).2.eptCache = s.eptCache ∧ (State.locate s c m u cl f off n ps).2.ports = s.ports ∧
    (State.locate s c m u cl f off n ps).2.lanes = s.lanes ∧ (State.locate s c m u cl f off n ps).2.lims = s.lims ∧
    (State.locate s c m u cl f off n ps).2.limCache = s.limCache ∧ (State.locate s c m u cl f off n ps).2.limRefill = s.limRefill ∧
    (State.locate s c m u cl f off n ps).2.route = s.route ∧ (State.locate s c m u cl f off n ps).2.halfLatch = s.halfLatch ∧
    (State.locate s c m u cl f off n ps).2.recLatch = s.recLatch ∧ (State.locate s c m u cl f off n ps).2.sbAddr = s.sbAddr ∧
    (State.locate s c m u cl f off n ps).2.variant = s.variant ∧ (State.locate s c m u cl f off n ps).2.pending = s.pending := by
  induction f generalizing s off n ps with
  | zero => simp [State.locate]
  | succ f ih =>
    unfold State.locate
    dsimp only
    split
    · simp
    · split
      · next heq => have h1 := State.locateOne_frame_of _ _ _ _ _ _ _ _ heq; simp [ih, h1]
      · next heq => have h1 := State.locateOne_frame_of _ _ _ _ _ _ _ _ heq; simp [h1]
      · simp

theorem State.locate_frame_of (s : State) (c : Nat) (m : MemAt) (u : Use) (cl : XltClient)
    (f : Nat) (off : Nat) (n : Nat) (ps : List Piece) (result : Loc) (s' : State) (h : State.locate s c m u cl f off n ps = (result, s')) :
    s'.inv = s.inv ∧ s'.orders = s.orders ∧ s'.mtch = s.mtch ∧ s'.dev = s.dev ∧ s'.eptCache = s.eptCache ∧ s'.ports = s.ports ∧
    s'.lanes = s.lanes ∧ s'.lims = s.lims ∧ s'.limCache = s.limCache ∧ s'.limRefill = s.limRefill ∧ s'.route = s.route ∧
    s'.halfLatch = s.halfLatch ∧ s'.recLatch = s.recLatch ∧ s'.sbAddr = s.sbAddr ∧ s'.variant = s.variant ∧ s'.pending = s.pending := by
  have := State.locate_frame s c m u cl f off n ps; rwa [h] at this

@[simp] theorem State.barOf_frame (s : State) (ps : List Piece) :
    (State.barOf s ps).2.mem = s.mem ∧ (State.barOf s ps).2.poison = s.poison ∧ (State.barOf s ps).2.inv = s.inv ∧
    (State.barOf s ps).2.tgf = s.tgf ∧ (State.barOf s ps).2.fifos = s.fifos ∧ (State.barOf s ps).2.threads = s.threads ∧
    (State.barOf s ps).2.engines = s.engines ∧ (State.barOf s ps).2.clusters = s.clusters ∧ (State.barOf s ps).2.ops = s.ops ∧
    (State.barOf s ps).2.orders = s.orders ∧ (State.barOf s ps).2.rings = s.rings ∧ (State.barOf s ps).2.net = s.net ∧
    (State.barOf s ps).2.mtch = s.mtch ∧ (State.barOf s ps).2.aml = s.aml ∧ (State.barOf s ps).2.dev = s.dev ∧
    (State.barOf s ps).2.eptCache = s.eptCache ∧ (State.barOf s ps).2.ports = s.ports ∧ (State.barOf s ps).2.lanes = s.lanes ∧
    (State.barOf s ps).2.lims = s.lims ∧ (State.barOf s ps).2.limCache = s.limCache ∧ (State.barOf s ps).2.limRefill = s.limRefill ∧
    (State.barOf s ps).2.route = s.route ∧ (State.barOf s ps).2.halfLatch = s.halfLatch ∧ (State.barOf s ps).2.recLatch = s.recLatch ∧
    (State.barOf s ps).2.sbAddr = s.sbAddr ∧ (State.barOf s ps).2.variant = s.variant ∧ (State.barOf s ps).2.out = s.out ∧
    (State.barOf s ps).2.free = s.free ∧ (State.barOf s ps).2.pending = s.pending := by
  unfold State.barOf; (try dsimp only); (repeat' split) <;> first | done | (simp; done) | (simp_all; done) | grind

theorem State.barOf_frame_of (s : State) (ps : List Piece) (result : Option Moved) (s' : State) (h : State.barOf s ps = (result, s')) :
    s'.mem = s.mem ∧ s'.poison = s.poison ∧ s'.inv = s.inv ∧ s'.tgf = s.tgf ∧ s'.fifos = s.fifos ∧ s'.threads = s.threads ∧
    s'.engines = s.engines ∧ s'.clusters = s.clusters ∧ s'.ops = s.ops ∧ s'.orders = s.orders ∧ s'.rings = s.rings ∧ s'.net = s.net ∧
    s'.mtch = s.mtch ∧ s'.aml = s.aml ∧ s'.dev = s.dev ∧ s'.eptCache = s.eptCache ∧ s'.ports = s.ports ∧ s'.lanes = s.lanes ∧
    s'.lims = s.lims ∧ s'.limCache = s.limCache ∧ s'.limRefill = s.limRefill ∧ s'.route = s.route ∧ s'.halfLatch = s.halfLatch ∧
    s'.recLatch = s.recLatch ∧ s'.sbAddr = s.sbAddr ∧ s'.variant = s.variant ∧ s'.out = s.out ∧ s'.free = s.free ∧
    s'.pending = s.pending := by
  have := State.barOf_frame s ps; rwa [h] at this

@[simp] theorem State.readPieces_frame (s : State) (ps : List Piece) :
    (State.readPieces s ps).mem = s.mem ∧ (State.readPieces s ps).poison = s.poison ∧ (State.readPieces s ps).inv = s.inv ∧
    (State.readPieces s ps).tgf = s.tgf ∧ (State.readPieces s ps).fifos = s.fifos ∧ (State.readPieces s ps).threads = s.threads ∧
    (State.readPieces s ps).engines = s.engines ∧ (State.readPieces s ps).clusters = s.clusters ∧ (State.readPieces s ps).ops = s.ops ∧
    (State.readPieces s ps).orders = s.orders ∧ (State.readPieces s ps).rings = s.rings ∧ (State.readPieces s ps).net = s.net ∧
    (State.readPieces s ps).mtch = s.mtch ∧ (State.readPieces s ps).aml = s.aml ∧ (State.readPieces s ps).host = s.host ∧
    (State.readPieces s ps).dev = s.dev ∧ (State.readPieces s ps).eptCache = s.eptCache ∧ (State.readPieces s ps).ports = s.ports ∧
    (State.readPieces s ps).lanes = s.lanes ∧ (State.readPieces s ps).lims = s.lims ∧ (State.readPieces s ps).limCache = s.limCache ∧
    (State.readPieces s ps).limRefill = s.limRefill ∧ (State.readPieces s ps).route = s.route ∧
    (State.readPieces s ps).halfLatch = s.halfLatch ∧ (State.readPieces s ps).recLatch = s.recLatch ∧
    (State.readPieces s ps).sbAddr = s.sbAddr ∧ (State.readPieces s ps).variant = s.variant ∧ (State.readPieces s ps).free = s.free ∧
    (State.readPieces s ps).pending = s.pending := by
  unfold State.readPieces; (try dsimp only); (repeat' split) <;> first | done | (simp; done) | (simp_all; done) | simp [State.foldl_mem,
    (apply_ite State.mem), State.foldl_poison, (apply_ite State.poison), State.foldl_inv, (apply_ite State.inv), State.foldl_tgf,
      (apply_ite State.tgf), State.foldl_fifos, (apply_ite State.fifos), State.foldl_threads, (apply_ite State.threads),
        State.foldl_engines, (apply_ite State.engines), State.foldl_clusters, (apply_ite State.clusters), State.foldl_ops,
          (apply_ite State.ops), State.foldl_orders, (apply_ite State.orders), State.foldl_rings, (apply_ite State.rings),
            State.foldl_net, (apply_ite State.net), State.foldl_mtch, (apply_ite State.mtch), State.foldl_aml, (apply_ite State.aml),
              State.foldl_host, (apply_ite State.host), State.foldl_dev, (apply_ite State.dev), State.foldl_eptCache,
                (apply_ite State.eptCache), State.foldl_ports, (apply_ite State.ports), State.foldl_lanes, (apply_ite State.lanes),
                  State.foldl_lims, (apply_ite State.lims), State.foldl_limCache, (apply_ite State.limCache), State.foldl_limRefill,
                    (apply_ite State.limRefill), State.foldl_route, (apply_ite State.route), State.foldl_halfLatch,
                      (apply_ite State.halfLatch), State.foldl_recLatch, (apply_ite State.recLatch), State.foldl_sbAddr,
                        (apply_ite State.sbAddr), State.foldl_variant, (apply_ite State.variant), State.foldl_free,
                          (apply_ite State.free), State.foldl_pending, (apply_ite State.pending)]

@[simp] theorem State.gotPieces_frame (s : State) (ps : List Piece) :
    (State.gotPieces s ps).mem = s.mem ∧ (State.gotPieces s ps).poison = s.poison ∧ (State.gotPieces s ps).inv = s.inv ∧
    (State.gotPieces s ps).tgf = s.tgf ∧ (State.gotPieces s ps).fifos = s.fifos ∧ (State.gotPieces s ps).threads = s.threads ∧
    (State.gotPieces s ps).engines = s.engines ∧ (State.gotPieces s ps).clusters = s.clusters ∧ (State.gotPieces s ps).ops = s.ops ∧
    (State.gotPieces s ps).orders = s.orders ∧ (State.gotPieces s ps).rings = s.rings ∧ (State.gotPieces s ps).net = s.net ∧
    (State.gotPieces s ps).mtch = s.mtch ∧ (State.gotPieces s ps).aml = s.aml ∧ (State.gotPieces s ps).host = s.host ∧
    (State.gotPieces s ps).dev = s.dev ∧ (State.gotPieces s ps).eptCache = s.eptCache ∧ (State.gotPieces s ps).ports = s.ports ∧
    (State.gotPieces s ps).lanes = s.lanes ∧ (State.gotPieces s ps).lims = s.lims ∧ (State.gotPieces s ps).limCache = s.limCache ∧
    (State.gotPieces s ps).limRefill = s.limRefill ∧ (State.gotPieces s ps).route = s.route ∧
    (State.gotPieces s ps).halfLatch = s.halfLatch ∧ (State.gotPieces s ps).recLatch = s.recLatch ∧
    (State.gotPieces s ps).sbAddr = s.sbAddr ∧ (State.gotPieces s ps).variant = s.variant ∧ (State.gotPieces s ps).out = s.out ∧
    (State.gotPieces s ps).free = s.free ∧ (State.gotPieces s ps).pending = s.pending := by
  unfold State.gotPieces; (try dsimp only); (repeat' split) <;> first | done | (simp; done) | (simp_all; done) | simp [State.foldl_mem,
    (apply_ite State.mem), State.foldl_poison, (apply_ite State.poison), State.foldl_inv, (apply_ite State.inv), State.foldl_tgf,
      (apply_ite State.tgf), State.foldl_fifos, (apply_ite State.fifos), State.foldl_threads, (apply_ite State.threads),
        State.foldl_engines, (apply_ite State.engines), State.foldl_clusters, (apply_ite State.clusters), State.foldl_ops,
          (apply_ite State.ops), State.foldl_orders, (apply_ite State.orders), State.foldl_rings, (apply_ite State.rings),
            State.foldl_net, (apply_ite State.net), State.foldl_mtch, (apply_ite State.mtch), State.foldl_aml, (apply_ite State.aml),
              State.foldl_host, (apply_ite State.host), State.foldl_dev, (apply_ite State.dev), State.foldl_eptCache,
                (apply_ite State.eptCache), State.foldl_ports, (apply_ite State.ports), State.foldl_lanes, (apply_ite State.lanes),
                  State.foldl_lims, (apply_ite State.lims), State.foldl_limCache, (apply_ite State.limCache), State.foldl_limRefill,
                    (apply_ite State.limRefill), State.foldl_route, (apply_ite State.route), State.foldl_halfLatch,
                      (apply_ite State.halfLatch), State.foldl_recLatch, (apply_ite State.recLatch), State.foldl_sbAddr,
                        (apply_ite State.sbAddr), State.foldl_variant, (apply_ite State.variant), State.foldl_out, (apply_ite State.out),
                          State.foldl_free, (apply_ite State.free), State.foldl_pending, (apply_ite State.pending)]

@[simp] theorem State.readAt_frame (s : State) (c : Nat) (m : MemAt) (off : Nat) (n : Nat) (cl : XltClient) (st : Nat) (host : List Byte) :
    (State.readAt s c m off n cl st host).2.inv = s.inv ∧ (State.readAt s c m off n cl st host).2.orders = s.orders ∧
    (State.readAt s c m off n cl st host).2.mtch = s.mtch ∧ (State.readAt s c m off n cl st host).2.dev = s.dev ∧
    (State.readAt s c m off n cl st host).2.eptCache = s.eptCache ∧ (State.readAt s c m off n cl st host).2.ports = s.ports ∧
    (State.readAt s c m off n cl st host).2.lanes = s.lanes ∧ (State.readAt s c m off n cl st host).2.lims = s.lims ∧
    (State.readAt s c m off n cl st host).2.limCache = s.limCache ∧ (State.readAt s c m off n cl st host).2.limRefill = s.limRefill ∧
    (State.readAt s c m off n cl st host).2.route = s.route ∧ (State.readAt s c m off n cl st host).2.halfLatch = s.halfLatch ∧
    (State.readAt s c m off n cl st host).2.recLatch = s.recLatch ∧ (State.readAt s c m off n cl st host).2.sbAddr = s.sbAddr ∧
    (State.readAt s c m off n cl st host).2.variant = s.variant ∧ (State.readAt s c m off n cl st host).2.pending = s.pending := by
  unfold State.readAt
  dsimp only
  have hl := State.locate_frame s c m .read cl (n / 4096 + 2) off n []
  split
  · next heq => rw [heq] at hl; simpa using hl
  · next heq => rw [heq] at hl; simpa using hl
  · next ps s1 heq =>
    rw [heq] at hl
    have hb := State.barOf_frame s1 ps
    split
    · next heq2 => rw [heq2] at hb; simp at hl hb ⊢; simp [hl, hb]
    · next heq2 =>
      rw [heq2] at hb
      split
      · simp at hl hb ⊢; simp [hl, hb]
      · split
        · simp at hl hb ⊢; simp [hl, hb]
        · simp at hl hb ⊢; simp [hl, hb]

theorem State.readAt_frame_of (s : State) (c : Nat) (m : MemAt) (off : Nat) (n : Nat) (cl : XltClient) (st : Nat) (host : List Byte)
    (result : Moved) (s' : State) (h : State.readAt s c m off n cl st host = (result, s')) :
    s'.inv = s.inv ∧ s'.orders = s.orders ∧ s'.mtch = s.mtch ∧ s'.dev = s.dev ∧ s'.eptCache = s.eptCache ∧ s'.ports = s.ports ∧
    s'.lanes = s.lanes ∧ s'.lims = s.lims ∧ s'.limCache = s.limCache ∧ s'.limRefill = s.limRefill ∧ s'.route = s.route ∧
    s'.halfLatch = s.halfLatch ∧ s'.recLatch = s.recLatch ∧ s'.sbAddr = s.sbAddr ∧ s'.variant = s.variant ∧ s'.pending = s.pending := by
  have := State.readAt_frame s c m off n cl st host; rwa [h] at this

@[simp] theorem State.scatter_frame (s : State) (ps : List Piece) (bs : List Byte) :
    (State.scatter s ps bs).inv = s.inv ∧ (State.scatter s ps bs).tgf = s.tgf ∧ (State.scatter s ps bs).fifos = s.fifos ∧
    (State.scatter s ps bs).threads = s.threads ∧ (State.scatter s ps bs).engines = s.engines ∧
    (State.scatter s ps bs).clusters = s.clusters ∧ (State.scatter s ps bs).ops = s.ops ∧ (State.scatter s ps bs).orders = s.orders ∧
    (State.scatter s ps bs).rings = s.rings ∧ (State.scatter s ps bs).net = s.net ∧ (State.scatter s ps bs).mtch = s.mtch ∧
    (State.scatter s ps bs).aml = s.aml ∧ (State.scatter s ps bs).host = s.host ∧ (State.scatter s ps bs).dev = s.dev ∧
    (State.scatter s ps bs).eptCache = s.eptCache ∧ (State.scatter s ps bs).ports = s.ports ∧ (State.scatter s ps bs).lanes = s.lanes ∧
    (State.scatter s ps bs).lims = s.lims ∧ (State.scatter s ps bs).limCache = s.limCache ∧
    (State.scatter s ps bs).limRefill = s.limRefill ∧ (State.scatter s ps bs).route = s.route ∧
    (State.scatter s ps bs).halfLatch = s.halfLatch ∧ (State.scatter s ps bs).recLatch = s.recLatch ∧
    (State.scatter s ps bs).sbAddr = s.sbAddr ∧ (State.scatter s ps bs).variant = s.variant ∧ (State.scatter s ps bs).free = s.free ∧
    (State.scatter s ps bs).pending = s.pending := by
  induction ps generalizing s bs with
  | nil => simp [State.scatter]
  | cons p ps ih =>
    unfold State.scatter
    dsimp only
    by_cases h : p.hbm <;> simp [h, ih]

@[simp] theorem State.writeAt_frame (s : State) (c : Nat) (m : MemAt) (off : Nat) (bs : List Byte) (cl : XltClient) :
    (State.writeAt s c m off bs cl).2.inv = s.inv ∧ (State.writeAt s c m off bs cl).2.orders = s.orders ∧
    (State.writeAt s c m off bs cl).2.mtch = s.mtch ∧ (State.writeAt s c m off bs cl).2.dev = s.dev ∧
    (State.writeAt s c m off bs cl).2.eptCache = s.eptCache ∧ (State.writeAt s c m off bs cl).2.ports = s.ports ∧
    (State.writeAt s c m off bs cl).2.lanes = s.lanes ∧ (State.writeAt s c m off bs cl).2.lims = s.lims ∧
    (State.writeAt s c m off bs cl).2.limCache = s.limCache ∧ (State.writeAt s c m off bs cl).2.limRefill = s.limRefill ∧
    (State.writeAt s c m off bs cl).2.route = s.route ∧ (State.writeAt s c m off bs cl).2.halfLatch = s.halfLatch ∧
    (State.writeAt s c m off bs cl).2.recLatch = s.recLatch ∧ (State.writeAt s c m off bs cl).2.sbAddr = s.sbAddr ∧
    (State.writeAt s c m off bs cl).2.variant = s.variant ∧ (State.writeAt s c m off bs cl).2.pending = s.pending := by
  unfold State.writeAt
  have hl := State.locate_frame s c m .write cl (bs.length / 4096 + 2) off bs.length []
  split
  · next heq => rw [heq] at hl; simpa using hl
  · next heq => rw [heq] at hl; simpa using hl
  · next ps s1 heq =>
    rw [heq] at hl
    have hb := State.barOf_frame s1 ps
    split
    · next heq2 => rw [heq2] at hb; simp at hl hb ⊢; simp [hl, hb]
    · next heq2 => rw [heq2] at hb; simp_all

theorem State.writeAt_frame_of (s : State) (c : Nat) (m : MemAt) (off : Nat) (bs : List Byte) (cl : XltClient)
    (result : Moved) (s' : State) (h : State.writeAt s c m off bs cl = (result, s')) :
    s'.inv = s.inv ∧ s'.orders = s.orders ∧ s'.mtch = s.mtch ∧ s'.dev = s.dev ∧ s'.eptCache = s.eptCache ∧ s'.ports = s.ports ∧
    s'.lanes = s.lanes ∧ s'.lims = s.lims ∧ s'.limCache = s.limCache ∧ s'.limRefill = s.limRefill ∧ s'.route = s.route ∧
    s'.halfLatch = s.halfLatch ∧ s'.recLatch = s.recLatch ∧ s'.sbAddr = s.sbAddr ∧ s'.variant = s.variant ∧ s'.pending = s.pending := by
  have := State.writeAt_frame s c m off bs cl; rwa [h] at this

@[simp] theorem State.freeKind_frame (s : State) (c : Credit) (kind : Nat) (n : Nat) :
    (State.freeKind s c kind n).regs = s.regs ∧ (State.freeKind s c kind n).mem = s.mem ∧ (State.freeKind s c kind n).poison = s.poison ∧
    (State.freeKind s c kind n).inv = s.inv ∧ (State.freeKind s c kind n).tgf = s.tgf ∧ (State.freeKind s c kind n).fifos = s.fifos ∧
    (State.freeKind s c kind n).threads = s.threads ∧ (State.freeKind s c kind n).engines = s.engines ∧
    (State.freeKind s c kind n).clusters = s.clusters ∧ (State.freeKind s c kind n).ops = s.ops ∧
    (State.freeKind s c kind n).orders = s.orders ∧ (State.freeKind s c kind n).rings = s.rings ∧
    (State.freeKind s c kind n).net = s.net ∧ (State.freeKind s c kind n).mtch = s.mtch ∧ (State.freeKind s c kind n).aml = s.aml ∧
    (State.freeKind s c kind n).host = s.host ∧ (State.freeKind s c kind n).dev = s.dev ∧
    (State.freeKind s c kind n).eptCache = s.eptCache ∧ (State.freeKind s c kind n).lanes = s.lanes ∧
    (State.freeKind s c kind n).lims = s.lims ∧ (State.freeKind s c kind n).limCache = s.limCache ∧
    (State.freeKind s c kind n).limRefill = s.limRefill ∧ (State.freeKind s c kind n).route = s.route ∧
    (State.freeKind s c kind n).halfLatch = s.halfLatch ∧ (State.freeKind s c kind n).recLatch = s.recLatch ∧
    (State.freeKind s c kind n).sbAddr = s.sbAddr ∧ (State.freeKind s c kind n).variant = s.variant ∧
    (State.freeKind s c kind n).out = s.out ∧ (State.freeKind s c kind n).free = s.free ∧
    (State.freeKind s c kind n).pending = s.pending := by
  unfold State.freeKind; (try dsimp only); (repeat' split) <;> first | done | (simp; done) | (simp_all; done) | grind

@[simp] theorem State.freeAll_frame (s : State) (c : Option Credit) :
    (State.freeAll s c).regs = s.regs ∧ (State.freeAll s c).mem = s.mem ∧ (State.freeAll s c).poison = s.poison ∧
    (State.freeAll s c).inv = s.inv ∧ (State.freeAll s c).tgf = s.tgf ∧ (State.freeAll s c).fifos = s.fifos ∧
    (State.freeAll s c).threads = s.threads ∧ (State.freeAll s c).engines = s.engines ∧ (State.freeAll s c).clusters = s.clusters ∧
    (State.freeAll s c).ops = s.ops ∧ (State.freeAll s c).orders = s.orders ∧ (State.freeAll s c).rings = s.rings ∧
    (State.freeAll s c).net = s.net ∧ (State.freeAll s c).mtch = s.mtch ∧ (State.freeAll s c).aml = s.aml ∧
    (State.freeAll s c).host = s.host ∧ (State.freeAll s c).dev = s.dev ∧ (State.freeAll s c).eptCache = s.eptCache ∧
    (State.freeAll s c).lanes = s.lanes ∧ (State.freeAll s c).lims = s.lims ∧ (State.freeAll s c).limCache = s.limCache ∧
    (State.freeAll s c).limRefill = s.limRefill ∧ (State.freeAll s c).route = s.route ∧ (State.freeAll s c).halfLatch = s.halfLatch ∧
    (State.freeAll s c).recLatch = s.recLatch ∧ (State.freeAll s c).sbAddr = s.sbAddr ∧ (State.freeAll s c).variant = s.variant ∧
    (State.freeAll s c).out = s.out ∧ (State.freeAll s c).free = s.free ∧ (State.freeAll s c).pending = s.pending := by
  unfold State.freeAll; (try dsimp only); (repeat' split) <;> first | done | (simp; done) | (simp_all; done) | grind

@[simp] theorem State.departOne_frame (s : State) (x : Option (Nat × Nat)) :
    (State.departOne s x).regs = s.regs ∧ (State.departOne s x).mem = s.mem ∧ (State.departOne s x).poison = s.poison ∧
    (State.departOne s x).inv = s.inv ∧ (State.departOne s x).tgf = s.tgf ∧ (State.departOne s x).fifos = s.fifos ∧
    (State.departOne s x).engines = s.engines ∧ (State.departOne s x).clusters = s.clusters ∧ (State.departOne s x).orders = s.orders ∧
    (State.departOne s x).rings = s.rings ∧ (State.departOne s x).net = s.net ∧ (State.departOne s x).mtch = s.mtch ∧
    (State.departOne s x).host = s.host ∧ (State.departOne s x).dev = s.dev ∧ (State.departOne s x).eptCache = s.eptCache ∧
    (State.departOne s x).ports = s.ports ∧ (State.departOne s x).lanes = s.lanes ∧ (State.departOne s x).lims = s.lims ∧
    (State.departOne s x).limCache = s.limCache ∧ (State.departOne s x).limRefill = s.limRefill ∧ (State.departOne s x).route = s.route ∧
    (State.departOne s x).halfLatch = s.halfLatch ∧ (State.departOne s x).recLatch = s.recLatch ∧
    (State.departOne s x).sbAddr = s.sbAddr ∧ (State.departOne s x).variant = s.variant ∧ (State.departOne s x).out = s.out ∧
    (State.departOne s x).free = s.free ∧ (State.departOne s x).pending = s.pending := by
  unfold State.departOne; (try dsimp only); (repeat' split) <;> first | done | (simp; done) | (simp_all; done) | grind

@[simp] theorem State.discardPkt_frame (s : State) (x : RPkt) :
    (State.discardPkt s x).regs = s.regs ∧ (State.discardPkt s x).mem = s.mem ∧ (State.discardPkt s x).poison = s.poison ∧
    (State.discardPkt s x).inv = s.inv ∧ (State.discardPkt s x).tgf = s.tgf ∧ (State.discardPkt s x).fifos = s.fifos ∧
    (State.discardPkt s x).engines = s.engines ∧ (State.discardPkt s x).clusters = s.clusters ∧ (State.discardPkt s x).orders = s.orders ∧
    (State.discardPkt s x).rings = s.rings ∧ (State.discardPkt s x).net = s.net ∧ (State.discardPkt s x).mtch = s.mtch ∧
    (State.discardPkt s x).host = s.host ∧ (State.discardPkt s x).dev = s.dev ∧ (State.discardPkt s x).eptCache = s.eptCache ∧
    (State.discardPkt s x).lanes = s.lanes ∧ (State.discardPkt s x).lims = s.lims ∧ (State.discardPkt s x).limCache = s.limCache ∧
    (State.discardPkt s x).limRefill = s.limRefill ∧ (State.discardPkt s x).route = s.route ∧
    (State.discardPkt s x).halfLatch = s.halfLatch ∧ (State.discardPkt s x).recLatch = s.recLatch ∧
    (State.discardPkt s x).sbAddr = s.sbAddr ∧ (State.discardPkt s x).variant = s.variant ∧ (State.discardPkt s x).out = s.out ∧
    (State.discardPkt s x).free = s.free ∧ (State.discardPkt s x).pending = s.pending := by
  unfold State.discardPkt; (try dsimp only); (repeat' split) <;> first | done | (simp; done) | (simp_all; done) | grind

@[simp] theorem State.enqueue_frame (s : State) (p : Nat) (ldet : Bool) (gdet : Bool) (x : RPkt) :
    (State.enqueue s p ldet gdet x).mem = s.mem ∧ (State.enqueue s p ldet gdet x).poison = s.poison ∧
    (State.enqueue s p ldet gdet x).inv = s.inv ∧ (State.enqueue s p ldet gdet x).tgf = s.tgf ∧
    (State.enqueue s p ldet gdet x).fifos = s.fifos ∧ (State.enqueue s p ldet gdet x).threads = s.threads ∧
    (State.enqueue s p ldet gdet x).engines = s.engines ∧ (State.enqueue s p ldet gdet x).clusters = s.clusters ∧
    (State.enqueue s p ldet gdet x).ops = s.ops ∧ (State.enqueue s p ldet gdet x).orders = s.orders ∧
    (State.enqueue s p ldet gdet x).rings = s.rings ∧ (State.enqueue s p ldet gdet x).net = s.net ∧
    (State.enqueue s p ldet gdet x).mtch = s.mtch ∧ (State.enqueue s p ldet gdet x).aml = s.aml ∧
    (State.enqueue s p ldet gdet x).host = s.host ∧ (State.enqueue s p ldet gdet x).dev = s.dev ∧
    (State.enqueue s p ldet gdet x).eptCache = s.eptCache ∧ (State.enqueue s p ldet gdet x).lanes = s.lanes ∧
    (State.enqueue s p ldet gdet x).lims = s.lims ∧ (State.enqueue s p ldet gdet x).limCache = s.limCache ∧
    (State.enqueue s p ldet gdet x).limRefill = s.limRefill ∧ (State.enqueue s p ldet gdet x).route = s.route ∧
    (State.enqueue s p ldet gdet x).halfLatch = s.halfLatch ∧ (State.enqueue s p ldet gdet x).recLatch = s.recLatch ∧
    (State.enqueue s p ldet gdet x).sbAddr = s.sbAddr ∧ (State.enqueue s p ldet gdet x).variant = s.variant ∧
    (State.enqueue s p ldet gdet x).out = s.out ∧ (State.enqueue s p ldet gdet x).free = s.free ∧
    (State.enqueue s p ldet gdet x).pending = s.pending := by
  unfold State.enqueue; (try dsimp only); (repeat' split) <;> first | done | (simp; done) | (simp_all; done) | grind

@[simp] theorem State.requeue_frame (s : State) (p : Nat) :
    (State.requeue s p).mem = s.mem ∧ (State.requeue s p).poison = s.poison ∧ (State.requeue s p).inv = s.inv ∧
    (State.requeue s p).tgf = s.tgf ∧ (State.requeue s p).fifos = s.fifos ∧ (State.requeue s p).threads = s.threads ∧
    (State.requeue s p).engines = s.engines ∧ (State.requeue s p).clusters = s.clusters ∧ (State.requeue s p).ops = s.ops ∧
    (State.requeue s p).orders = s.orders ∧ (State.requeue s p).rings = s.rings ∧ (State.requeue s p).net = s.net ∧
    (State.requeue s p).mtch = s.mtch ∧ (State.requeue s p).aml = s.aml ∧ (State.requeue s p).host = s.host ∧
    (State.requeue s p).dev = s.dev ∧ (State.requeue s p).eptCache = s.eptCache ∧ (State.requeue s p).lanes = s.lanes ∧
    (State.requeue s p).lims = s.lims ∧ (State.requeue s p).limCache = s.limCache ∧ (State.requeue s p).limRefill = s.limRefill ∧
    (State.requeue s p).halfLatch = s.halfLatch ∧ (State.requeue s p).recLatch = s.recLatch ∧ (State.requeue s p).sbAddr = s.sbAddr ∧
    (State.requeue s p).variant = s.variant ∧ (State.requeue s p).out = s.out ∧ (State.requeue s p).free = s.free ∧
    (State.requeue s p).pending = s.pending := by
  unfold State.requeue; (try dsimp only); (repeat' split) <;> first | done | (simp; done) | (simp_all; done) | simp [State.foldl_mem,
    (apply_ite State.mem), State.foldl_poison, (apply_ite State.poison), State.foldl_inv, (apply_ite State.inv), State.foldl_tgf,
      (apply_ite State.tgf), State.foldl_fifos, (apply_ite State.fifos), State.foldl_threads, (apply_ite State.threads),
        State.foldl_engines, (apply_ite State.engines), State.foldl_clusters, (apply_ite State.clusters), State.foldl_ops,
          (apply_ite State.ops), State.foldl_orders, (apply_ite State.orders), State.foldl_rings, (apply_ite State.rings),
            State.foldl_net, (apply_ite State.net), State.foldl_mtch, (apply_ite State.mtch), State.foldl_aml, (apply_ite State.aml),
              State.foldl_host, (apply_ite State.host), State.foldl_dev, (apply_ite State.dev), State.foldl_eptCache,
                (apply_ite State.eptCache), State.foldl_lanes, (apply_ite State.lanes), State.foldl_lims, (apply_ite State.lims),
                  State.foldl_limCache, (apply_ite State.limCache), State.foldl_limRefill, (apply_ite State.limRefill),
                    State.foldl_halfLatch, (apply_ite State.halfLatch), State.foldl_recLatch, (apply_ite State.recLatch),
                      State.foldl_sbAddr, (apply_ite State.sbAddr), State.foldl_variant, (apply_ite State.variant), State.foldl_out,
                        (apply_ite State.out), State.foldl_free, (apply_ite State.free), State.foldl_pending, (apply_ite State.pending)]

@[simp] theorem State.eyeAbort_frame (s : State) (p : Nat) (l : Nat) :
    (State.eyeAbort s p l).mem = s.mem ∧ (State.eyeAbort s p l).poison = s.poison ∧ (State.eyeAbort s p l).inv = s.inv ∧
    (State.eyeAbort s p l).tgf = s.tgf ∧ (State.eyeAbort s p l).fifos = s.fifos ∧ (State.eyeAbort s p l).threads = s.threads ∧
    (State.eyeAbort s p l).engines = s.engines ∧ (State.eyeAbort s p l).clusters = s.clusters ∧ (State.eyeAbort s p l).ops = s.ops ∧
    (State.eyeAbort s p l).orders = s.orders ∧ (State.eyeAbort s p l).rings = s.rings ∧ (State.eyeAbort s p l).net = s.net ∧
    (State.eyeAbort s p l).mtch = s.mtch ∧ (State.eyeAbort s p l).aml = s.aml ∧ (State.eyeAbort s p l).host = s.host ∧
    (State.eyeAbort s p l).dev = s.dev ∧ (State.eyeAbort s p l).eptCache = s.eptCache ∧ (State.eyeAbort s p l).ports = s.ports ∧
    (State.eyeAbort s p l).lims = s.lims ∧ (State.eyeAbort s p l).limCache = s.limCache ∧ (State.eyeAbort s p l).limRefill = s.limRefill ∧
    (State.eyeAbort s p l).route = s.route ∧ (State.eyeAbort s p l).halfLatch = s.halfLatch ∧
    (State.eyeAbort s p l).recLatch = s.recLatch ∧ (State.eyeAbort s p l).sbAddr = s.sbAddr ∧ (State.eyeAbort s p l).variant = s.variant ∧
    (State.eyeAbort s p l).out = s.out ∧ (State.eyeAbort s p l).free = s.free ∧ (State.eyeAbort s p l).pending = s.pending := by
  unfold State.eyeAbort; dsimp only; split
  · simp
  · refine ⟨?_, ?_, ?_, ?_, ?_, ?_, ?_, ?_, ?_, ?_, ?_, ?_, ?_, ?_, ?_, ?_, ?_, ?_, ?_, ?_, ?_, ?_, ?_, ?_, ?_, ?_, ?_, ?_, ?_⟩
    · rw [State.wr_mem, State.fset_mem, State.setLane_mem]
    · rw [State.wr_poison, State.fset_poison, State.setLane_poison]
    · rw [State.wr_inv, State.fset_inv, State.setLane_inv]
    · rw [State.wr_tgf, State.fset_tgf, State.setLane_tgf]
    · rw [State.wr_fifos, State.fset_fifos, State.setLane_fifos]
    · rw [State.wr_threads, State.fset_threads, State.setLane_threads]
    · rw [State.wr_engines, State.fset_engines, State.setLane_engines]
    · rw [State.wr_clusters, State.fset_clusters, State.setLane_clusters]
    · rw [State.wr_ops, State.fset_ops, State.setLane_ops]
    · rw [State.wr_orders, State.fset_orders, State.setLane_orders]
    · rw [State.wr_rings, State.fset_rings, State.setLane_rings]
    · rw [State.wr_net, State.fset_net, State.setLane_net]
    · rw [State.wr_mtch, State.fset_mtch, State.setLane_mtch]
    · rw [State.wr_aml, State.fset_aml, State.setLane_aml]
    · rw [State.wr_host, State.fset_host, State.setLane_host]
    · rw [State.wr_dev, State.fset_dev, State.setLane_dev]
    · rw [State.wr_eptCache, State.fset_eptCache, State.setLane_eptCache]
    · rw [State.wr_ports, State.fset_ports, State.setLane_ports]
    · rw [State.wr_lims, State.fset_lims, State.setLane_lims]
    · rw [State.wr_limCache, State.fset_limCache, State.setLane_limCache]
    · rw [State.wr_limRefill, State.fset_limRefill, State.setLane_limRefill]
    · rw [State.wr_route, State.fset_route, State.setLane_route]
    · rw [State.wr_halfLatch, State.fset_halfLatch, State.setLane_halfLatch]
    · rw [State.wr_recLatch, State.fset_recLatch, State.setLane_recLatch]
    · rw [State.wr_sbAddr, State.fset_sbAddr, State.setLane_sbAddr]
    · rw [State.wr_variant, State.fset_variant, State.setLane_variant]
    · rw [State.wr_out, State.fset_out, State.setLane_out]
    · rw [State.wr_free, State.fset_free, State.setLane_free]
    · rw [State.wr_pending, State.fset_pending, State.setLane_pending]

@[simp] theorem State.linkDown_frame (s : State) (p : Nat) (st : LState) :
    (State.linkDown s p st).inv = s.inv ∧ (State.linkDown s p st).engines = s.engines ∧ (State.linkDown s p st).clusters = s.clusters ∧
    (State.linkDown s p st).orders = s.orders ∧ (State.linkDown s p st).rings = s.rings ∧ (State.linkDown s p st).net = s.net ∧
    (State.linkDown s p st).mtch = s.mtch ∧ (State.linkDown s p st).host = s.host ∧ (State.linkDown s p st).dev = s.dev ∧
    (State.linkDown s p st).eptCache = s.eptCache ∧ (State.linkDown s p st).lims = s.lims ∧
    (State.linkDown s p st).limCache = s.limCache ∧ (State.linkDown s p st).limRefill = s.limRefill ∧
    (State.linkDown s p st).halfLatch = s.halfLatch ∧ (State.linkDown s p st).recLatch = s.recLatch ∧
    (State.linkDown s p st).sbAddr = s.sbAddr ∧ (State.linkDown s p st).variant = s.variant ∧ (State.linkDown s p st).free = s.free ∧
    (State.linkDown s p st).pending = s.pending := by
  unfold State.linkDown; (try dsimp only); (repeat' split) <;> first | done | (simp; done) | (simp_all; done) | grind

@[simp] theorem State.formAck_frame (s : State) (tile : Nat) (p : Packet) :
    (State.formAck s tile p).mem = s.mem ∧ (State.formAck s tile p).poison = s.poison ∧ (State.formAck s tile p).inv = s.inv ∧
    (State.formAck s tile p).tgf = s.tgf ∧ (State.formAck s tile p).fifos = s.fifos ∧ (State.formAck s tile p).threads = s.threads ∧
    (State.formAck s tile p).engines = s.engines ∧ (State.formAck s tile p).clusters = s.clusters ∧ (State.formAck s tile p).ops = s.ops ∧
    (State.formAck s tile p).orders = s.orders ∧ (State.formAck s tile p).rings = s.rings ∧ (State.formAck s tile p).net = s.net ∧
    (State.formAck s tile p).mtch = s.mtch ∧ (State.formAck s tile p).aml = s.aml ∧ (State.formAck s tile p).host = s.host ∧
    (State.formAck s tile p).dev = s.dev ∧ (State.formAck s tile p).eptCache = s.eptCache ∧ (State.formAck s tile p).ports = s.ports ∧
    (State.formAck s tile p).lanes = s.lanes ∧ (State.formAck s tile p).lims = s.lims ∧ (State.formAck s tile p).limCache = s.limCache ∧
    (State.formAck s tile p).limRefill = s.limRefill ∧ (State.formAck s tile p).halfLatch = s.halfLatch ∧
    (State.formAck s tile p).recLatch = s.recLatch ∧ (State.formAck s tile p).sbAddr = s.sbAddr ∧
    (State.formAck s tile p).variant = s.variant ∧ (State.formAck s tile p).out = s.out ∧ (State.formAck s tile p).free = s.free ∧
    (State.formAck s tile p).pending = s.pending := by
  unfold State.formAck; (try dsimp only); (repeat' split) <;> first | done | (simp; done) | (simp_all; done) | grind

@[simp] theorem State.sendAck_frame (s : State) (r : Nat) (a : AckBody) :
    (State.sendAck s r a).mem = s.mem ∧ (State.sendAck s r a).poison = s.poison ∧ (State.sendAck s r a).inv = s.inv ∧
    (State.sendAck s r a).tgf = s.tgf ∧ (State.sendAck s r a).fifos = s.fifos ∧ (State.sendAck s r a).threads = s.threads ∧
    (State.sendAck s r a).engines = s.engines ∧ (State.sendAck s r a).clusters = s.clusters ∧ (State.sendAck s r a).ops = s.ops ∧
    (State.sendAck s r a).orders = s.orders ∧ (State.sendAck s r a).rings = s.rings ∧ (State.sendAck s r a).mtch = s.mtch ∧
    (State.sendAck s r a).aml = s.aml ∧ (State.sendAck s r a).host = s.host ∧ (State.sendAck s r a).dev = s.dev ∧
    (State.sendAck s r a).eptCache = s.eptCache ∧ (State.sendAck s r a).ports = s.ports ∧ (State.sendAck s r a).lanes = s.lanes ∧
    (State.sendAck s r a).lims = s.lims ∧ (State.sendAck s r a).limCache = s.limCache ∧ (State.sendAck s r a).limRefill = s.limRefill ∧
    (State.sendAck s r a).halfLatch = s.halfLatch ∧ (State.sendAck s r a).recLatch = s.recLatch ∧
    (State.sendAck s r a).sbAddr = s.sbAddr ∧ (State.sendAck s r a).variant = s.variant ∧ (State.sendAck s r a).out = s.out ∧
    (State.sendAck s r a).free = s.free ∧ (State.sendAck s r a).pending = s.pending := by
  unfold State.sendAck; (try dsimp only); (repeat' split) <;> first | done | (simp; done) | (simp_all; done) | grind

@[simp] theorem State.refuse_frame (s : State) (r : Nat) (p : Packet) (rx : Word) (hold : Bool) (code : Nat) (detail : Nat) :
    (State.refuse s r p rx hold code detail).mem = s.mem ∧ (State.refuse s r p rx hold code detail).poison = s.poison ∧
    (State.refuse s r p rx hold code detail).inv = s.inv ∧ (State.refuse s r p rx hold code detail).tgf = s.tgf ∧
    (State.refuse s r p rx hold code detail).fifos = s.fifos ∧ (State.refuse s r p rx hold code detail).threads = s.threads ∧
    (State.refuse s r p rx hold code detail).engines = s.engines ∧ (State.refuse s r p rx hold code detail).clusters = s.clusters ∧
    (State.refuse s r p rx hold code detail).ops = s.ops ∧ (State.refuse s r p rx hold code detail).orders = s.orders ∧
    (State.refuse s r p rx hold code detail).rings = s.rings ∧ (State.refuse s r p rx hold code detail).mtch = s.mtch ∧
    (State.refuse s r p rx hold code detail).aml = s.aml ∧ (State.refuse s r p rx hold code detail).host = s.host ∧
    (State.refuse s r p rx hold code detail).dev = s.dev ∧ (State.refuse s r p rx hold code detail).eptCache = s.eptCache ∧
    (State.refuse s r p rx hold code detail).ports = s.ports ∧ (State.refuse s r p rx hold code detail).lanes = s.lanes ∧
    (State.refuse s r p rx hold code detail).lims = s.lims ∧ (State.refuse s r p rx hold code detail).limCache = s.limCache ∧
    (State.refuse s r p rx hold code detail).limRefill = s.limRefill ∧ (State.refuse s r p rx hold code detail).halfLatch = s.halfLatch ∧
    (State.refuse s r p rx hold code detail).recLatch = s.recLatch ∧ (State.refuse s r p rx hold code detail).sbAddr = s.sbAddr ∧
    (State.refuse s r p rx hold code detail).variant = s.variant ∧ (State.refuse s r p rx hold code detail).out = s.out ∧
    (State.refuse s r p rx hold code detail).free = s.free ∧ (State.refuse s r p rx hold code detail).pending = s.pending := by
  unfold State.refuse; (try dsimp only); (repeat' split) <;> first | done | (simp; done) | (simp_all; done) | grind

@[simp] theorem State.ackConsumed_frame (s : State) (r : Nat) :
    (State.ackConsumed s r).mem = s.mem ∧ (State.ackConsumed s r).poison = s.poison ∧ (State.ackConsumed s r).inv = s.inv ∧
    (State.ackConsumed s r).tgf = s.tgf ∧ (State.ackConsumed s r).fifos = s.fifos ∧ (State.ackConsumed s r).threads = s.threads ∧
    (State.ackConsumed s r).engines = s.engines ∧ (State.ackConsumed s r).clusters = s.clusters ∧ (State.ackConsumed s r).ops = s.ops ∧
    (State.ackConsumed s r).orders = s.orders ∧ (State.ackConsumed s r).rings = s.rings ∧ (State.ackConsumed s r).mtch = s.mtch ∧
    (State.ackConsumed s r).aml = s.aml ∧ (State.ackConsumed s r).host = s.host ∧ (State.ackConsumed s r).dev = s.dev ∧
    (State.ackConsumed s r).eptCache = s.eptCache ∧ (State.ackConsumed s r).ports = s.ports ∧ (State.ackConsumed s r).lanes = s.lanes ∧
    (State.ackConsumed s r).lims = s.lims ∧ (State.ackConsumed s r).limCache = s.limCache ∧
    (State.ackConsumed s r).limRefill = s.limRefill ∧ (State.ackConsumed s r).halfLatch = s.halfLatch ∧
    (State.ackConsumed s r).recLatch = s.recLatch ∧ (State.ackConsumed s r).sbAddr = s.sbAddr ∧
    (State.ackConsumed s r).variant = s.variant ∧ (State.ackConsumed s r).out = s.out ∧ (State.ackConsumed s r).free = s.free ∧
    (State.ackConsumed s r).pending = s.pending := by
  unfold State.ackConsumed; (try dsimp only); (repeat' split) <;> first | done | (simp; done) | (simp_all; done) | grind

@[simp] theorem State.readyMark_frame (s : State) (r : Nat) :
    (State.readyMark s r).regs = s.regs ∧ (State.readyMark s r).mem = s.mem ∧ (State.readyMark s r).poison = s.poison ∧
    (State.readyMark s r).inv = s.inv ∧ (State.readyMark s r).tgf = s.tgf ∧ (State.readyMark s r).fifos = s.fifos ∧
    (State.readyMark s r).threads = s.threads ∧ (State.readyMark s r).engines = s.engines ∧ (State.readyMark s r).clusters = s.clusters ∧
    (State.readyMark s r).ops = s.ops ∧ (State.readyMark s r).orders = s.orders ∧ (State.readyMark s r).rings = s.rings ∧
    (State.readyMark s r).mtch = s.mtch ∧ (State.readyMark s r).aml = s.aml ∧ (State.readyMark s r).host = s.host ∧
    (State.readyMark s r).dev = s.dev ∧ (State.readyMark s r).eptCache = s.eptCache ∧ (State.readyMark s r).ports = s.ports ∧
    (State.readyMark s r).lanes = s.lanes ∧ (State.readyMark s r).lims = s.lims ∧ (State.readyMark s r).limCache = s.limCache ∧
    (State.readyMark s r).limRefill = s.limRefill ∧ (State.readyMark s r).route = s.route ∧
    (State.readyMark s r).halfLatch = s.halfLatch ∧ (State.readyMark s r).recLatch = s.recLatch ∧
    (State.readyMark s r).sbAddr = s.sbAddr ∧ (State.readyMark s r).variant = s.variant ∧ (State.readyMark s r).out = s.out ∧
    (State.readyMark s r).free = s.free ∧ (State.readyMark s r).pending = s.pending := by
  unfold State.readyMark; (try dsimp only); (repeat' split) <;> first | done | (simp; done) | (simp_all; done) | simp [State.foldl_regs,
    (apply_ite State.regs), State.foldl_mem, (apply_ite State.mem), State.foldl_poison, (apply_ite State.poison), State.foldl_inv,
      (apply_ite State.inv), State.foldl_tgf, (apply_ite State.tgf), State.foldl_fifos, (apply_ite State.fifos), State.foldl_threads,
        (apply_ite State.threads), State.foldl_engines, (apply_ite State.engines), State.foldl_clusters, (apply_ite State.clusters),
          State.foldl_ops, (apply_ite State.ops), State.foldl_orders, (apply_ite State.orders), State.foldl_rings,
            (apply_ite State.rings), State.foldl_mtch, (apply_ite State.mtch), State.foldl_aml, (apply_ite State.aml), State.foldl_host,
              (apply_ite State.host), State.foldl_dev, (apply_ite State.dev), State.foldl_eptCache, (apply_ite State.eptCache),
                State.foldl_ports, (apply_ite State.ports), State.foldl_lanes, (apply_ite State.lanes), State.foldl_lims,
                  (apply_ite State.lims), State.foldl_limCache, (apply_ite State.limCache), State.foldl_limRefill,
                    (apply_ite State.limRefill), State.foldl_route, (apply_ite State.route), State.foldl_halfLatch,
                      (apply_ite State.halfLatch), State.foldl_recLatch, (apply_ite State.recLatch), State.foldl_sbAddr,
                        (apply_ite State.sbAddr), State.foldl_variant, (apply_ite State.variant), State.foldl_out, (apply_ite State.out),
                          State.foldl_free, (apply_ite State.free), State.foldl_pending, (apply_ite State.pending)]

@[simp] theorem State.consume_frame (s : State) (r : Nat) (p : Packet) (rx : Word) (hold : Bool) (now : Bool) :
    (State.consume s r p rx hold now).mem = s.mem ∧ (State.consume s r p rx hold now).poison = s.poison ∧
    (State.consume s r p rx hold now).inv = s.inv ∧ (State.consume s r p rx hold now).tgf = s.tgf ∧
    (State.consume s r p rx hold now).fifos = s.fifos ∧ (State.consume s r p rx hold now).threads = s.threads ∧
    (State.consume s r p rx hold now).engines = s.engines ∧ (State.consume s r p rx hold now).clusters = s.clusters ∧
    (State.consume s r p rx hold now).ops = s.ops ∧ (State.consume s r p rx hold now).orders = s.orders ∧
    (State.consume s r p rx hold now).rings = s.rings ∧ (State.consume s r p rx hold now).mtch = s.mtch ∧
    (State.consume s r p rx hold now).aml = s.aml ∧ (State.consume s r p rx hold now).host = s.host ∧
    (State.consume s r p rx hold now).dev = s.dev ∧ (State.consume s r p rx hold now).eptCache = s.eptCache ∧
    (State.consume s r p rx hold now).ports = s.ports ∧ (State.consume s r p rx hold now).lanes = s.lanes ∧
    (State.consume s r p rx hold now).lims = s.lims ∧ (State.consume s r p rx hold now).limCache = s.limCache ∧
    (State.consume s r p rx hold now).limRefill = s.limRefill ∧ (State.consume s r p rx hold now).halfLatch = s.halfLatch ∧
    (State.consume s r p rx hold now).recLatch = s.recLatch ∧ (State.consume s r p rx hold now).sbAddr = s.sbAddr ∧
    (State.consume s r p rx hold now).variant = s.variant ∧ (State.consume s r p rx hold now).out = s.out ∧
    (State.consume s r p rx hold now).free = s.free ∧ (State.consume s r p rx hold now).pending = s.pending := by
  unfold State.consume; (try dsimp only); (repeat' split) <;> first | done | (simp; done) | (simp_all; done) | grind

@[simp] theorem State.writeStatus_frame (s : State) (o : Op) :
    (State.writeStatus s o).regs = s.regs ∧ (State.writeStatus s o).inv = s.inv ∧ (State.writeStatus s o).tgf = s.tgf ∧
    (State.writeStatus s o).fifos = s.fifos ∧ (State.writeStatus s o).threads = s.threads ∧ (State.writeStatus s o).engines = s.engines ∧
    (State.writeStatus s o).clusters = s.clusters ∧ (State.writeStatus s o).ops = s.ops ∧ (State.writeStatus s o).orders = s.orders ∧
    (State.writeStatus s o).rings = s.rings ∧ (State.writeStatus s o).net = s.net ∧ (State.writeStatus s o).mtch = s.mtch ∧
    (State.writeStatus s o).aml = s.aml ∧ (State.writeStatus s o).host = s.host ∧ (State.writeStatus s o).dev = s.dev ∧
    (State.writeStatus s o).eptCache = s.eptCache ∧ (State.writeStatus s o).ports = s.ports ∧ (State.writeStatus s o).lanes = s.lanes ∧
    (State.writeStatus s o).lims = s.lims ∧ (State.writeStatus s o).limCache = s.limCache ∧
    (State.writeStatus s o).limRefill = s.limRefill ∧ (State.writeStatus s o).route = s.route ∧
    (State.writeStatus s o).halfLatch = s.halfLatch ∧ (State.writeStatus s o).recLatch = s.recLatch ∧
    (State.writeStatus s o).sbAddr = s.sbAddr ∧ (State.writeStatus s o).variant = s.variant ∧ (State.writeStatus s o).out = s.out ∧
    (State.writeStatus s o).free = s.free ∧ (State.writeStatus s o).pending = s.pending := by
  unfold State.writeStatus; split
  · simp
  · exact ⟨State.mwrite_regs _ _ _, State.mwrite_inv _ _ _, State.mwrite_tgf _ _ _, State.mwrite_fifos _ _ _, State.mwrite_threads _ _ _,
    State.mwrite_engines _ _ _, State.mwrite_clusters _ _ _, State.mwrite_ops _ _ _, State.mwrite_orders _ _ _, State.mwrite_rings _ _ _,
      State.mwrite_net _ _ _, State.mwrite_mtch _ _ _, State.mwrite_aml _ _ _, State.mwrite_host _ _ _, State.mwrite_dev _ _ _,
        State.mwrite_eptCache _ _ _, State.mwrite_ports _ _ _, State.mwrite_lanes _ _ _, State.mwrite_lims _ _ _,
          State.mwrite_limCache _ _ _, State.mwrite_limRefill _ _ _, State.mwrite_route _ _ _, State.mwrite_halfLatch _ _ _,
            State.mwrite_recLatch _ _ _, State.mwrite_sbAddr _ _ _, State.mwrite_variant _ _ _, State.mwrite_out _ _ _,
              State.mwrite_free _ _ _, State.mwrite_pending _ _ _⟩

@[simp] theorem State.deliverOp_frame (s : State) (k : Nat) (o : Op) :
    (State.deliverOp s k o).inv = s.inv ∧ (State.deliverOp s k o).tgf = s.tgf ∧ (State.deliverOp s k o).threads = s.threads ∧
    (State.deliverOp s k o).engines = s.engines ∧ (State.deliverOp s k o).clusters = s.clusters ∧
    (State.deliverOp s k o).orders = s.orders ∧ (State.deliverOp s k o).rings = s.rings ∧ (State.deliverOp s k o).net = s.net ∧
    (State.deliverOp s k o).mtch = s.mtch ∧ (State.deliverOp s k o).aml = s.aml ∧ (State.deliverOp s k o).host = s.host ∧
    (State.deliverOp s k o).dev = s.dev ∧ (State.deliverOp s k o).eptCache = s.eptCache ∧ (State.deliverOp s k o).ports = s.ports ∧
    (State.deliverOp s k o).lanes = s.lanes ∧ (State.deliverOp s k o).lims = s.lims ∧ (State.deliverOp s k o).limCache = s.limCache ∧
    (State.deliverOp s k o).limRefill = s.limRefill ∧ (State.deliverOp s k o).route = s.route ∧
    (State.deliverOp s k o).halfLatch = s.halfLatch ∧ (State.deliverOp s k o).recLatch = s.recLatch ∧
    (State.deliverOp s k o).sbAddr = s.sbAddr ∧ (State.deliverOp s k o).variant = s.variant ∧ (State.deliverOp s k o).out = s.out ∧
    (State.deliverOp s k o).free = s.free ∧ (State.deliverOp s k o).pending = s.pending := by
  unfold State.deliverOp
  dsimp only
  cases hs : o.stage == 0 <;> simp only [Bool.false_eq_true, if_false, if_true] <;> (repeat' split) <;>
    first
      | (simp; done)
      | (rename_i heq; have h := State.wfStart_frame _ _ _ _ _ _ heq; simp [h]; done)

@[simp] theorem State.clearRx_frame (s : State) (p : Nat) :
    (State.clearRx s p).mem = s.mem ∧ (State.clearRx s p).poison = s.poison ∧ (State.clearRx s p).inv = s.inv ∧
    (State.clearRx s p).tgf = s.tgf ∧ (State.clearRx s p).fifos = s.fifos ∧ (State.clearRx s p).threads = s.threads ∧
    (State.clearRx s p).engines = s.engines ∧ (State.clearRx s p).clusters = s.clusters ∧ (State.clearRx s p).ops = s.ops ∧
    (State.clearRx s p).orders = s.orders ∧ (State.clearRx s p).rings = s.rings ∧ (State.clearRx s p).net = s.net ∧
    (State.clearRx s p).mtch = s.mtch ∧ (State.clearRx s p).aml = s.aml ∧ (State.clearRx s p).host = s.host ∧
    (State.clearRx s p).dev = s.dev ∧ (State.clearRx s p).eptCache = s.eptCache ∧ (State.clearRx s p).lims = s.lims ∧
    (State.clearRx s p).limCache = s.limCache ∧ (State.clearRx s p).limRefill = s.limRefill ∧ (State.clearRx s p).route = s.route ∧
    (State.clearRx s p).halfLatch = s.halfLatch ∧ (State.clearRx s p).recLatch = s.recLatch ∧ (State.clearRx s p).sbAddr = s.sbAddr ∧
    (State.clearRx s p).variant = s.variant ∧ (State.clearRx s p).out = s.out ∧ (State.clearRx s p).free = s.free ∧
    (State.clearRx s p).pending = s.pending := by
  unfold State.clearRx; (try dsimp only); (repeat' split) <;> first | done | (simp; done) | (simp_all; done) | grind

@[simp] theorem State.enterDetect_frame (s : State) (p : Nat) :
    (State.enterDetect s p).mem = s.mem ∧ (State.enterDetect s p).poison = s.poison ∧ (State.enterDetect s p).inv = s.inv ∧
    (State.enterDetect s p).tgf = s.tgf ∧ (State.enterDetect s p).fifos = s.fifos ∧ (State.enterDetect s p).threads = s.threads ∧
    (State.enterDetect s p).engines = s.engines ∧ (State.enterDetect s p).clusters = s.clusters ∧ (State.enterDetect s p).ops = s.ops ∧
    (State.enterDetect s p).orders = s.orders ∧ (State.enterDetect s p).rings = s.rings ∧ (State.enterDetect s p).net = s.net ∧
    (State.enterDetect s p).mtch = s.mtch ∧ (State.enterDetect s p).aml = s.aml ∧ (State.enterDetect s p).host = s.host ∧
    (State.enterDetect s p).dev = s.dev ∧ (State.enterDetect s p).eptCache = s.eptCache ∧ (State.enterDetect s p).lims = s.lims ∧
    (State.enterDetect s p).limCache = s.limCache ∧ (State.enterDetect s p).limRefill = s.limRefill ∧
    (State.enterDetect s p).route = s.route ∧ (State.enterDetect s p).halfLatch = s.halfLatch ∧
    (State.enterDetect s p).recLatch = s.recLatch ∧ (State.enterDetect s p).sbAddr = s.sbAddr ∧
    (State.enterDetect s p).variant = s.variant ∧ (State.enterDetect s p).out = s.out ∧ (State.enterDetect s p).free = s.free ∧
    (State.enterDetect s p).pending = s.pending := by
  unfold State.enterDetect; (try dsimp only); (repeat' split) <;> first | done | (simp; done) | (simp_all; done) | grind

end Sys2Proof.Machine
end

