-- ==== Sys2Proof/WellFormed.lean ====
section
/-! DEFINITION. WellFormed.lean: the ranges of the operands of a command: numbers of threads, clusters, ports and registers,
field widths, and alignment, as the manual gives them. A command out of range names nothing of the device. -/
namespace Sys2Proof

/-- The numbers that a path carries are in range: 2,048 threads (R59), 1,024 functions (Table 18-6). -/
def Path.wf : Path → Bool
  | .near t => decide (t < 2048)
  | .bar f => decide (f < 1024)
  | _ => true

/-- What a host can write in the configuration space of a function: at most 1,024 functions, at most six BARs. -/
def FuncCfg.wf (c : FuncCfg) : Bool := decide (c.numVfs < 1024) && decide (c.bars.length ≤ 6)

/-- A well-formed command. -/
def Instr.wf : Instr → Bool
  | .powerOn => true
  | .resetN _ => true
  | .boot _ => true
  | .bootFail _ => true
  | .warmRestart pf idx => decide (pf < 16) && decide (idx < 65536)
  | .warm path _ => path.wf
  | .svnCommit path _ => path.wf
  | .registerWrite path addr wide _ => path.wf && decide (addr % (if wide then 8 else 4) = 0) && decide (addr < 4294967296)
  | .halfRead path addr => path.wf && decide (addr % 4 = 0) && decide (addr < 4294967296)
  | .recordRead path addr => path.wf && decide (addr % 8 = 0) && decide (addr < 4294967296)
  | .rcRead path addr wide => path.wf && decide (addr % (if wide then 8 else 4) = 0) && decide (addr < 4294967296)
  | .invEnable path => path.wf
  | .invDisable path => path.wf
  | .reacquire path => path.wf
  | .sync p f => decide (p < 128) && decide (f < 16)
  | .syncReceived p id f _ => decide (p < 128) && decide (id < 65536) && decide (f < 16)
  | .syncReplyReceived p id _ _ f => decide (p < 128) && decide (id < 65536) && decide (f < 16)
  | .exchangeLost p => decide (p < 128)
  | .announce => true
  | .announceReceived p _ => decide (p < 128)
  | .rootStale => true
  | .standbyWaitExpiry => true
  | .listenExpiry => true
  | .ftStep => true
  | .acquireComplete => true
  | .parentLost => true
  | .holdoverClear => true
  | .timeHoldoverLong => true
  | .ppsEdge ⟨f, _⟩ => decide (f < 16)
  | .ppsLoss => true
  | .ref10mLoss => true
  | .ppsOutPulse => true
  | .ppsOutEnd => true
  | .dispatch c ecc => decide (c < 64) && decide (ecc < 3)
  | .aluReg t rd rs1 rs2 fn => decide (t < 2048) && decide (rd < 32) && decide (rs1 < 32) && decide (rs2 < 32) && decide (fn < 2048)
  | .mulDiv t rd rs1 rs2 fn => decide (t < 2048) && decide (rd < 32) && decide (rs1 < 32) && decide (rs2 < 32) && decide (fn < 2048)
  | .aluImm t op rd rs1 imm imm2 => decide (t < 2048) && decide (op < 64) && decide (rd < 32) && decide (rs1 < 32) && decide (imm < 65536) && decide (imm2 < 4294967296)
  | .load t op rd rs1 imm => decide (t < 2048) && decide (op < 64) && decide (rd < 32) && decide (rs1 < 32) && decide (imm < 65536)
  | .farLoadReturn t _ _ => decide (t < 2048)
  | .store t op rd rs1 imm => decide (t < 2048) && decide (op < 64) && decide (rd < 32) && decide (rs1 < 32) && decide (imm < 65536)
  | .farStorePerform t i => decide (t < 2048) && decide (i < 8)
  | .icacheFill t _ => decide (t < 2048)
  | .branch t op ra rb imm => decide (t < 2048) && decide (op < 64) && decide (ra < 32) && decide (rb < 32) && decide (imm < 65536)
  | .jal t rd imm => decide (t < 2048) && decide (rd < 32) && decide (imm < 2097152)
  | .jalr t rd rs1 imm => decide (t < 2048) && decide (rd < 32) && decide (rs1 < 32) && decide (imm < 65536)
  | .atomic t rd rs1 rs2 fn => decide (t < 2048) && decide (rd < 32) && decide (rs1 < 32) && decide (rs2 < 32) && decide (fn < 2048)
  | .fence ⟨t, rd, rs1, rs2, fn⟩ => decide (t < 2048) && decide (rd < 32) && decide (rs1 < 32) && decide (rs2 < 32) && decide (fn < 2048)
  | .fenceSt ⟨t, rd, rs1, rs2, fn⟩ => decide (t < 2048) && decide (rd < 32) && decide (rs1 < 32) && decide (rs2 < 32) && decide (fn < 2048)
  | .fenceI ⟨t, rd, rs1, rs2, fn⟩ => decide (t < 2048) && decide (rd < 32) && decide (rs1 < 32) && decide (rs2 < 32) && decide (fn < 2048)
  | .csrr ⟨t, rs1, kind⟩ rd csr => decide (t < 2048) && decide (rd < 32) && decide (rs1 < 32) && decide (csr < 4096) && decide (kind < 16)
  | .csrw t rd rs1 csr => decide (t < 2048) && decide (rd < 32) && decide (rs1 < 32) && decide (csr < 4096)
  | .csrs t rd rs1 csr => decide (t < 2048) && decide (rd < 32) && decide (rs1 < 32) && decide (csr < 4096)
  | .csrc t rd rs1 csr => decide (t < 2048) && decide (rd < 32) && decide (rs1 < 32) && decide (csr < 4096)
  | .done ⟨t, rd, rs1, arg⟩ => decide (t < 2048) && decide (rd < 32) && decide (rs1 < 32) && decide (arg < 256)
  | .sys ⟨t, rd, rs1⟩ imm => decide (t < 2048) && decide (rd < 32) && decide (rs1 < 32) && decide (imm < 256)
  | .eret ⟨t, rd, rs1, arg⟩ => decide (t < 2048) && decide (rd < 32) && decide (rs1 < 32) && decide (arg < 256)
  | .brk ⟨t, rd, rs1⟩ imm => decide (t < 2048) && decide (rd < 32) && decide (rs1 < 32) && decide (imm < 256)
  | .pause ⟨t, rd, rs1, kind⟩ imm => decide (t < 2048) && decide (rd < 32) && decide (rs1 < 32) && decide (imm < 256) && decide (kind < 256)
  | .watchdog t => decide (t < 2048)
  | .watchdogKill t => decide (t < 2048)
  | .handlerLost c => decide (c < 64)
  | .engineRetired g => decide (g < 512)
  | .engineStop g => decide (g < 512)
  | .htCommit c => decide (c < 64)
  | .icacheInv c => decide (c < 64)
  | .fput t rd rs1 imm => decide (t < 2048) && decide (rd < 32) && decide (rs1 < 32) && decide (imm < 65536)
  | .fget t rd rs1 imm => decide (t < 2048) && decide (rd < 32) && decide (rs1 < 32) && decide (imm < 65536)
  | .famo t rd rs1 imm => decide (t < 2048) && decide (rd < 32) && decide (rs1 < 32) && decide (imm < 65536)
  | .fsend t rd rs1 imm => decide (t < 2048) && decide (rd < 32) && decide (rs1 < 32) && decide (imm < 65536)
  | .fflush t rd rs1 imm => decide (t < 2048) && decide (rd < 32) && decide (rs1 < 32) && decide (imm < 65536)
  | .ffence t rd rs1 imm => decide (t < 2048) && decide (rd < 32) && decide (rs1 < 32) && decide (imm < 65536)
  | .fmcast t rd rs1 imm => decide (t < 2048) && decide (rd < 32) && decide (rs1 < 32) && decide (imm < 65536)
  | .qfetch t rd rs1 imm es => decide (t < 2048) && decide (rd < 32) && decide (rs1 < 32) && decide (imm < 65536) && es.all (fun e => decide (e.length = 64))
  | .cqpost t rd rs1 imm => decide (t < 2048) && decide (rd < 32) && decide (rs1 < 32) && decide (imm < 65536)
  | .wfpush ⟨t, fn⟩ rd rs1 rs2 => decide (t < 2048) && decide (rd < 32) && decide (rs1 < 32) && decide (rs2 < 32) && decide (fn < 2048)
  | .wfpop t rd rs1 rs2 ecc => decide (t < 2048) && decide (rd < 32) && decide (rs1 < 32) && decide (rs2 < 32) && decide (ecc < 3)
  | .mpost t rd rs1 imm => decide (t < 2048) && decide (rd < 32) && decide (rs1 < 32) && decide (imm < 65536)
  | .mmatch t rd rs1 imm => decide (t < 2048) && decide (rd < 32) && decide (rs1 < 32) && decide (imm < 65536)
  | .mcancel t rd rs1 imm => decide (t < 2048) && decide (rd < 32) && decide (rs1 < 32) && decide (imm < 65536)
  | .rdft ⟨t, rs1, rs2, fn⟩ rd => decide (t < 2048) && decide (rd < 32) && decide (rs1 < 32) && decide (rs2 < 32) && decide (fn < 2048)
  | .rdlt ⟨t, rs1, rs2⟩ rd => decide (t < 2048) && decide (rd < 32) && decide (rs1 < 32) && decide (rs2 < 32)
  | .rdts ⟨t, rs1, rs2⟩ rd => decide (t < 2048) && decide (rd < 32) && decide (rs1 < 32) && decide (rs2 < 32)
  | .waitft ⟨t, rs2⟩ rd rs1 => decide (t < 2048) && decide (rd < 32) && decide (rs1 < 32) && decide (rs2 < 32)
  | .waitftWake t => decide (t < 2048)
  | .trig t rd rs1 imm => decide (t < 2048) && decide (rd < 32) && decide (rs1 < 32) && decide (imm < 65536)
  | .triggerFire c h => decide (c < 64) && decide (h < 4096)
  | .dma t rd rs1 imm => decide (t < 2048) && decide (rd < 32) && decide (rs1 < 32) && decide (imm < 65536)
  | .dmaDone c slot _ _ => decide (c < 64) && decide (slot < 4096)
  | .tlbinv t rd rs1 imm => decide (t < 2048) && decide (rd < 32) && decide (rs1 < 32) && decide (imm < 65536)
  | .invalidationAck i c => decide (i < 16) && decide (c < 64)
  | .amlsub t rd rs1 imm => decide (t < 2048) && decide (rd < 32) && decide (rs1 < 32) && decide (imm < 65536)
  | .opstat ⟨t, rs2, fn⟩ rd rs1 => decide (t < 2048) && decide (rd < 32) && decide (rs1 < 32) && decide (rs2 < 32) && decide (fn < 2048)
  | .opwait ⟨t, rs2⟩ rd rs1 => decide (t < 2048) && decide (rd < 32) && decide (rs1 < 32) && decide (rs2 < 32)
  | .opabort ⟨t, rs2⟩ rd rs1 => decide (t < 2048) && decide (rd < 32) && decide (rs1 < 32) && decide (rs2 < 32)
  | .pktrel ⟨t, rd, rs2⟩ rs1 => decide (t < 2048) && decide (rd < 32) && decide (rs1 < 32) && decide (rs2 < 32)
  | .opDone c slot => decide (c < 64) && decide (slot < 4096)
  | .opTimeout c slot => decide (c < 64) && decide (slot < 4096)
  | .packetForm c _ _ _ => decide (c < 64)
  | .bankSwap c f => decide (c < 64) && decide (f < 4)
  | .itemCommit c f _ => decide (c < 64) && decide (f < 4)
  | .wfCfgWrite path c f _ => path.wf && decide (c < 64) && decide (f < 4)
  | .doorbell f off _ _ _ => decide (f < 1024) && decide (off < 1048576)
  | .grant k => decide (k < 4)
  | .workEntryRead qn _ data => decide (qn < 262160) && decide (data.length ≤ 64)
  | .cqWrite cn => decide (cn < 65552)
  | .cqOwnRead cn => decide (cn < 65552)
  | .cqOwnReadDone cn _ _ => decide (cn < 65552)
  | .cqPoll cn => decide (cn < 65552)
  | .ringStallTimeout cn => decide (cn < 65552)
  | .modTimer cn => decide (cn < 65552)
  | .msixSend f v => decide (f < 1024) && decide (v < 2048)
  | .cringDisable pf => decide (pf < 16)
  | .ccqDisable pf => decide (pf < 16)
  | .cqCreate pf idx => decide (pf < 16) && decide (idx < 65536)
  | .cqModify pf idx => decide (pf < 16) && decide (idx < 65536)
  | .cqDestroy pf idx => decide (pf < 16) && decide (idx < 65536)
  | .cqReset pf idx => decide (pf < 16) && decide (idx < 65536)
  | .qCreate pf idx => decide (pf < 16) && decide (idx < 65536)
  | .qModify pf idx => decide (pf < 16) && decide (idx < 65536)
  | .qShutdown pf idx => decide (pf < 16) && decide (idx < 65536)
  | .queueShutdownDone qn => decide (qn < 262160)
  | .qDestroy pf idx => decide (pf < 16) && decide (idx < 65536)
  | .qAbort pf idx => decide (pf < 16) && decide (idx < 65536)
  | .adapterReset pf _ => decide (pf < 16)
  | .epCreate pf idx => decide (pf < 16) && decide (idx < 65536)
  | .epDestroy pf idx => decide (pf < 16) && decide (idx < 65536)
  | .connCreate pf idx => decide (pf < 16) && decide (idx < 65536)
  | .connDestroy pf idx => decide (pf < 16) && decide (idx < 65536)
  | .connQuietEnd conn => decide (conn < 1048576)
  | .askCreate pf idx => decide (pf < 16) && decide (idx < 65536)
  | .askRevoke pf idx => decide (pf < 16) && decide (idx < 65536)
  | .xltRevokeCtrl path _ => path.wf
  | .revokeDrain => true
  | .askQuietEnd ask => decide (ask < 1048576)
  | .putPacket c ref => decide (c < 64) && decide (ref < 4096)
  | .getReq c ref => decide (c < 64) && decide (ref < 4096)
  | .getResp c ref => decide (c < 64) && decide (ref < 4096)
  | .amoReq c ref => decide (c < 64) && decide (ref < 4096)
  | .amoResp c ref => decide (c < 64) && decide (ref < 4096)
  | .flushProof c ref => decide (c < 64) && decide (ref < 4096)
  | .rlRetry conn seq => decide (conn < 1048576) && decide (seq < 4294967296)
  | .ackDelay conn => decide (conn < 1048576)
  | .ack conn => decide (conn < 1048576)
  | .rto conn seq => decide (conn < 1048576) && decide (seq < 4294967296)
  | .retryExceeded conn seq => decide (conn < 1048576) && decide (seq < 4294967296)
  | .refuseBackoff conn seq => decide (conn < 1048576) && decide (seq < 4294967296)
  | .put qn idx => decide (qn < 262160) && decide (idx < 65536)
  | .putImm qn idx => decide (qn < 262160) && decide (idx < 65536)
  | .get qn idx => decide (qn < 262160) && decide (idx < 65536)
  | .amo qn idx => decide (qn < 262160) && decide (idx < 65536)
  | .send qn idx => decide (qn < 262160) && decide (idx < 65536)
  | .flush qn idx => decide (qn < 262160) && decide (idx < 65536)
  | .nop qn idx => decide (qn < 262160) && decide (idx < 65536)
  | .recv qn idx => decide (qn < 262160) && decide (idx < 65536)
  | .walk c => decide (c < 64)
  | .walkDone c i _ => decide (c < 64) && decide (i < 16)
  | .xltInvalidate pf idx => decide (pf < 16) && decide (idx < 65536)
  | .xltFaultWait pf idx => decide (pf < 16) && decide (idx < 65536)
  | .xltFaultDone pf idx => decide (pf < 16) && decide (idx < 65536)
  | .xltMmioSet pf idx => decide (pf < 16) && decide (idx < 65536)
  | .overflowForward c => decide (c < 64)
  | .join qn idx _ _ => decide (qn < 262160) && decide (idx < 65536)
  | .run qn idx => decide (qn < 262160) && decide (idx < 65536)
  | .leave qn idx => decide (qn < 262160) && decide (idx < 65536)
  | .phaseTimeout _ => true
  | .contribution c ref => decide (c < 64) && decide (ref < 4096)
  | .stripeComplete slot _ _ _ => decide (slot < 65536)
  | .amlCfgWrite path addr _ => path.wf && decide (addr < 4294967296)
  | .route tile => decide (tile < 16)
  | .routeHoldEnd _ => true
  | .portDown p => decide (p < 128)
  | .rtLoad pf idx _ _ => decide (pf < 16) && decide (idx < 65536)
  | .rtArm pf idx => decide (pf < 16) && decide (idx < 65536)
  | .rtCancel pf idx => decide (pf < 16) && decide (idx < 65536)
  | .rtQuery pf idx => decide (pf < 16) && decide (idx < 65536)
  | .eptWrite pf idx => decide (pf < 16) && decide (idx < 65536)
  | .routeEnable path _ => path.wf
  | .routeArm path _ => path.wf
  | .routeCancel path _ => path.wf
  | .routeEptInv path _ => path.wf
  | .epochSwitch => true
  | .drainEnd => true
  | .solderArrival p => decide (p < 129)
  | .release conn => decide (conn < 1048576)
  | .sweep => true
  | .readback conn seq => decide (conn < 1048576) && decide (seq < 4294967296)
  | .readbackDone conn seq => decide (conn < 1048576) && decide (seq < 4294967296)
  | .ts1 p l _ => decide (p < 128) && decide (l < 2)
  | .ts2 p l _ => decide (p < 128) && decide (l < 2)
  | .configComplete p => decide (p < 128)
  | .ts3 p _ => decide (p < 128)
  | .slotLock p => decide (p < 128)
  | .lockLost p => decide (p < 128)
  | .lockTimeout p => decide (p < 128)
  | .slotReceived p _ => decide (p < 128)
  | .replayTimeout p => decide (p < 128)
  | .slotSend p => decide (p < 128)
  | .fault p _ => decide (p < 128)
  | .sleep p => decide (p < 128)
  | .signalDetect p l => decide (p < 128) && decide (l < 2)
  | .retryWait p => decide (p < 128)
  | .trainTimeout p => decide (p < 128)
  | .linkEnable path p _ => path.wf && decide (p < 128)
  | .linkDisable path p _ => path.wf && decide (p < 128)
  | .retrain path p _ => path.wf && decide (p < 128)
  | .linkWake p => decide (p < 128)
  | .gateEdge p => decide (p < 128)
  | .gateArm path p _ => path.wf && decide (p < 128)
  | .gateCancel path p _ => path.wf && decide (p < 128)
  | .gateTakeover p => decide (p < 128)
  | .limiterRefill => true
  | .wheelSlot tile => decide (tile < 16)
  | .limiterCfgWrite path tile k _ => path.wf && decide (tile < 16) && decide (k < 4096)
  | .schLimInv path _ => path.wf
  | .depthSample => true
  | .serEvaluation p l => decide (p < 128) && decide (l < 2)
  | .laneRetest path p l => path.wf && decide (p < 128) && decide (l < 2)
  | .eyeScan path p l _ => path.wf && decide (p < 128) && decide (l < 2)
  | .eyeScanDone p l _ => decide (p < 128) && decide (l < 2)
  | .perst k _ => decide (k < 4)
  | .hostLinkDown a => decide (a < 16)
  | .functionLevelReset f => decide (f < 1024)
  | .functionStateChange f d cfg => decide (f < 1024) && decide (d < 4) && cfg.wf
  | .vfAllocWrite path pf _ => path.wf && decide (pf < 16)
  | .readCompletion _ _ _ => true
  | .completionTimeout _ => true
  | .l1Entry a => decide (a < 16)
  | .l1Exit a => decide (a < 16)
  | .errorReport src code _ _ => decide (src < 65536) && decide (code < 256)
  | .fatalRecordWrite => true
  | .txoff => true
  | .faultEvent => true
  | .mergeWindowEnd i => decide (i < 32)
  | .tgfHistAck path _ => path.wf
  | .unfreeze path => path.wf
  | .inject path _ => path.wf
  | .injectLock path => path.wf
  | .hbmPageRetired page => decide (page < 12582912)
  | .retest path _ => path.wf
  | .retestDone _ => true
  | .pmuFreeze path _ => path.wf
  | .histClear path u => path.wf && decide (u < 256)
  | .dumpLatch => true
  | .dumpWrite => true
  | .sampleMark g => decide (g < 512)
  | .sampleRecord g _ _ ecause => decide (g < 512) && decide (ecause < 16)
  | .lifeCommit => true
  | .commit path => path.wf
  | .lifeSnapshot => true
  | .lifeSample _ _ => true
  | .marginScan _ => true
  | .pwrEnter pf idx => decide (pf < 16) && decide (idx < 65536)
  | .pwrQuery pf idx => decide (pf < 16) && decide (idx < 65536)
  | .fabricJoin pf idx => decide (pf < 16) && decide (idx < 65536)
  | .fabricReady => true
  | .fabricJoinTimeout => true
  | .wake src _ => decide (src < 4)
  | .pwrWake path _ => path.wf
  | .thermSample _ => true
  | .thermalTrip sensor => decide (sensor < 64)
  | .avsTimeout => true
  | .avsSet mv => decide (mv < 1024)
  | .supplyFault src => decide (src < 8)
  | .pllUnlock pll => decide (pll < 80)
  | .setAddr addr _ => decide (addr < 4294967296)
  | .read => true
  | .write _ _ => true
  | .readAddr => true
  | .configTimeout p => decide (p < 128)
  | .hostLinkUp a _ _ => decide (a < 16)
  | .exitToL0Complete a => decide (a < 16)
  | .histDepthSample u => decide (u < 256)
  | .wakePatternEnd p => decide (p < 128)
  | .avsbusAck => true
  | .powerDown => true
  | .atomicopCompletion _ _ _ => true

end Sys2Proof
end

