-- ==== Sys2Proof/Tests/Slice0.lean ====
section
/-! SUPPORT. Tests/Slice0.lean: states and operands that meet the hypotheses of every statement, and small tests of the meanings. -/

set_option maxRecDepth 100000
set_option Elab.async false
open Sys2Proof Sys2Proof.Machine

namespace Sys2Proof.Tests

/-- The device booted, with its fault collector armed. -/
def up : State :=
  let s := State.reset.fw F.DEV_BOOT_STATUS_STAGE [] 7
  { s with tgf := { s.tgf with armed := true } }

/-- A field (offset, bytes, value) put into a list of bytes. -/
def put (b : List Byte) (f : Nat × Nat × Nat) : List Byte := b.take f.1 ++ leBytes f.2.1 f.2.2 ++ b.drop (f.1 + f.2.1)
/-- 64 bytes with some fields. -/
def blk (fs : List (Nat × Nat × Nat)) : List Byte := fs.foldl put (zeroBytes 64)
/-- A work entry. -/
def ent (op : Nat) (fs : List (Nat × Nat × Nat)) : List Byte := blk ((0, 1, 0x80) :: (1, 1, op) :: fs)
/-- The entry at index 0 of a queue, not started. -/
def oe (b : List Byte) : OutEntry := ⟨0, 0, b, false⟩
/-- A queue holding one entry. -/
def withEntry (qn : Nat) (q : Queue) (b : List Byte) (s : State) : State :=
  s.setQueue qn { q with state := .ready, fetched := 1, tail := 1, outstanding := [oe b] }
/-- A ready completion ring. -/
def withCq (cn : Nat) (s : State) : State := s.setCq cn { Cq.init with state := .ready, k := 64 }
/-- PF 0's control ring holding one command; PF 0 may command the fabric. -/
def ctl (b : List Byte) (s : State) : State :=
  (withCq (ctrlCn 0) (withEntry (ctrlQn 0) { Queue.init with cn := ctrlCn 0 } b s)).fw F.ROUTE_FM_PFS_PFS [] 1

/-- Thread 0 as given, about to issue the instruction at 0x1000 of ASK 0, whose page and line are cached. -/
def cpu (th : Thread) (s : State) : State :=
  ((s.setThread 0 { th with running := true, pc := 0x1000 }).setEngine 0
    { Engine.init with icache := [(1, 0x100)], itlb := [⟨0, 1, 12, 0x4000, true, 0xFC, 0⟩] }).setCluster 0
    { Cluster.init with askc := [⟨0, askEntry 0 1 0 0 31 3 1 0, 0⟩] }
/-- A thread at a level. -/
def lvl (p : Nat) : Thread := { Thread.init with priv := p }
/-- A thread with registers. -/
def thr (p : Nat) (g : SMap Word) : Thread := { lvl p with g := g }
/-- A handler table entry of cluster 0. -/
def hand (ty : Nat) (s : State) : State := s.mwrite (csmKey 0 (0xFF000 + 16 * ty)) (leBytes 8 0x2000 ++ leBytes 8 9)
/-- The time in INV_LOCAL ticks. -/
def at_ (n : Nat) (s : State) : State := { s with inv := { s.inv with loc := w64 n } }
/-- Control-level code runs on thread 5. -/
def code (s : State) : State := s.setThread 5 { lvl 2 with running := true }

/-! ## States for the witnesses -/

def tm (f : Invar → Invar) (s : State) : State := { s with inv := f s.inv }
def joinS (_ready : Bool) : State := let s := ctl (ent 0x6A [(40,4,5)]) up; { s with dev := { s.dev with join := some (0, 0, 0, 5) } }
def fready (s : State) : State := let s1 := tm (fun i => { i with state := .root }) (s.setPort 0 { Port.init with st := .active }); { s1 with route := { s1.route with enabled := true } }
def timed (st : TimeState) (s : State) : State := (tm (fun i => { i with state := st, loc := 5000000, ft := 7000000 }) (s.setPort 2 { Port.init with st := .active })).fset F.INV_PORT_TIME_TIME_EN [2] true
def cd (n : Nat) : Cand := ⟨n, 0, false, false⟩
def ann : Announce := { seq := 5, gen := 1, root := cd 9, standby := none, state := 6, holdover := false, depth := 0, sender := 9 }
def rv : RootView := ⟨cd 9, 1, 7, 0⟩

def A : Word := 0x8000000000000005
def B : Word := 3
def ci (p : Nat) (g : SMap Word) : State := cpu (thr p g) up
def L0 : Word := 0x8000000000000040
def hbmPage (th : Thread) (s : State) : State := let s1 := cpu th s; (s1.setEngine 0 { s1.engine 0 with dtlb := [⟨0, 7, 12, 0x9000, true, 0xFC, 0⟩] })
def loadW : Thread := { lvl 0 with running := true, wait := .farLoad 0 0x7000 0x9000 true 8 false 5 }
def sbTh : Thread := { lvl 0 with running := true, sb := [⟨0x7000,0,0x9000,true,leBytes 8 0x1122334455667788⟩] }
def wd (x : Thread) : State := at_ 50000000 (up.setThread 0 { x with running := true, budget := 5 })
def itm : Item := ⟨0x84, 1, 2, 3, 0, 0, zeroBytes 56⟩
def disp : State := (((hand 0x84 up).fset F.CLU_CTRL_DISPATCH_EN [0] true).setFifo 0 { Fifo.init with bank1 := ⟨[itm], []⟩ })

def fab (p : Nat) (b : List Byte) (s : State) : State := { ((cpu (thr p [(1,L0)]) s).mwrite (ldmKey 0 0x40) b) with eptCache := [(7, some (2^31+5*1024+3))] }
def putB : List Byte := blk [(0,1,1),(8,3,7),(16,4,8),(22,1,5),(56,8,0x1122334455667788)]
def getB : List Byte := blk [(0,1,2),(8,3,7),(16,4,8192),(22,1,0)]
def amoB : List Byte := blk [(0,1,3),(8,3,7),(16,1,0x10)]
def sendB : List Byte := blk [(0,1,4),(8,3,7),(16,4,5000),(22,1,4)]
def flushB : List Byte := blk [(0,1,5),(8,3,7)]
def mcB : List Byte := blk [(0,1,7),(16,4,5000),(22,1,8),(28,2,2)]
def qB : List Byte := blk [(0,1,8),(8,4,9),(12,1,1),(14,2,0x400)]
def nopE : List Byte := ent 7 [(4,4,0xAB)]
def hostUp (s : State) : State := (s.setFunc 0 { Func.init with bme := true }).setAtt 0 { Attach.init with up := true, pstate := 0 }
def qS (b : List Byte) : State := hostUp (withCq 4 ((fab 1 b up).setQueue 9 { Queue.init with state := .ready, handlerServed := true, cn := 4, tail := 1, log2 := 8 }))
def cB : List Byte := blk [(0,1,9),(8,2,4),(32,8,77),(63,1,0x80)]
def mpB : List Byte := blk [(0,1,10),(8,2,64),(11,1,1),(12,3,5),(16,8,0x33),(24,8,1),(32,8,0x99)]
def mmB : List Byte := blk [(0,1,10),(8,2,64),(12,3,5),(16,8,0x33)]
def mcanB : List Byte := blk [(0,1,10),(8,2,64),(32,8,0x99)]
def mE : MatchEntry := ⟨true,5,0x33,1,0x99,0⟩
def mS (b : List Byte) : State := (fab 1 b up).setMctx 64 { MatchCtx.init with claimed := true, posted := [mE] }
def trB : List Byte := blk [(0,1,11),(8,8,8000000)]
def dB : List Byte := blk [(0,1,12),(8,4,8),(12,1,3),(13,1,1),(32,8,0x5000),(56,8,0xAABB)]
def tlB : List Byte := blk [(0,1,13),(8,1,1),(12,4,5)]
def amB : List Byte := blk [(0,1,14),(8,2,5),(11,1,1),(16,4,300),(20,2,2),(22,2,0xFFFF)]
def opS (k : Nat) (o : Op) (s : State) : State := s.setOp k o
def prt (s : State) : State := s.setPort 0 { Port.init with st := .active }

/-- ASK 1, generation 5, of function 3 and domain 2, cached in cluster 0 with its page 7, which lies at 0x9000 of HBM. -/
def ask1 (s : State) : State :=
  let b := askEntry 0 5 2 3 31 3 1 0
  (s.mwrite (s.askKey 1) b).setCluster 0 { s.cluster 0 with askc := [⟨1, b, 0⟩], l2 := [⟨1, 7, 12, 0x9000, true, 0xFFF, 0⟩] }
/-- Connection half 3 of cluster 0, to endpoint 7, which is at device 5. -/
def conn3 (h : Half) (s : State) : State :=
  { s.setHalf 3 { h with state := .established, localEp := 1, remoteEp := 7, iso := 2, func := 3, maxLen := 65536, window := 16, localAsk := 1, remoteKey := 5 }
    with eptCache := [(7, some (2 ^ 31 + 5 * 1024 + 3))] }
def wq (op : Nat) (fs : List (Nat × Nat × Nat)) : State := conn3 Half.init (withCq 4 (withEntry 9 { Queue.init with cn := 4, conn := some 3, log2 := 8 } (ent op fs) up))
def full3 : Half := { Half.init with tx := [⟨1, Packet.zero, .kept [], 0, 0, 0, 0, none, 0⟩], window := 1 }
/-- Cluster 0 holds a packet of half 3 by reference 0x20000. -/
def got (p : Packet) (f : Half → Half) (s : State) : State :=
  ((conn3 (f Half.init) s).setHalf 3 (f ((conn3 Half.init s).half 3))).setPktRef 0 0x20000 (some ⟨{ p with iso := 2 }, 3, 6, false, false, false, none, none, false⟩)
def px (p : Packet) : PktRef := ⟨{ p with iso := 2 }, 3, 6, false, false, false, none, none, false⟩
def putP : Packet := { Packet.zero with op := opPut, key := 5 * 2 ^ 20 + 1, va := 0x7010, seq := 4, payload := [1,2,3] }
def getP : Packet := { Packet.zero with op := opGetReq, key := 5 * 2 ^ 20 + 1, va := 0x7010, seq := 4, aux := 5000, srcEp := 7 }
def amoP (o : Nat) : Packet := { Packet.zero with op := opAmoReq, key := 5 * 2 ^ 20 + 1, va := 0x7010, seq := 4, aux := o, srcEp := 7, payload := [0,0,0,0,0,0,0,3,0,0,0,0,0,0,0,7] }
def respP : Packet := { Packet.zero with op := opGetResp, aux := 4, va := 0, payload := [1,2,3] }
/-- The fabric is up: the route tables are in use and device 5 is this device. -/
def net5 (s : State) : State :=
  let s1 := s.fw F.ROUTE_SELF_DN_DN [] 5
  { s1 with route := { s1.route with ready := true }, inv := { s1.inv with state := .track } }
def getO : Op := { Op.free with kind := 2, gen := 1, status := none, delivered := false, conn := some 3, block := blk [(0,1,2),(2,2,0),(16,4,3),(22,1,0),(24,4,0),(32,8,0x7000)] }

def AS (o : Nat) : State := (net5 (ask1 (got (amoP o) id up))).mwrite (hbmKey 0x9010) [7,0,0,0,0,0,0,0]
def GS : State := (net5 (ask1 (got respP id up))).setOp 5 { getO with block := blk [(0,1,2),(2,2,0),(16,4,3),(22,1,0),(24,4,1),(32,8,0x7000),(12,4,4)] }
def arespP : Packet := { Packet.zero with op := opAmoResp, aux := 4, payload := [0,0,0,0,0,0,0,3] }
def FS : State := (net5 (ask1 (got arespP id up))).setOp 5 { getO with kind := 3, origin := .thread 7 2, block := blk [(0,1,3),(16,1,0),(12,4,4)] }
def flP : Packet := { Packet.zero with op := opFlush, seq := 4 }
def LS : State := (net5 (ask1 (got flP (fun h => { h with rx := { h.rx with e := 4 } }) up)))

def rec (n : Nat) : TxRec := ⟨BitVec.ofNat 32 n, Packet.zero, .kept [], 0, 0, 0, 0, none, 0⟩
def RS (x : TxRec) : State := at_ 400000000 ((conn3 Half.init up).setHalf 3 { (conn3 Half.init up).half 3 with cum := 2, txSeq := 6, tx := [rec 3, x, rec 5] })

def ep9 (s : State) : State := { s with net := { s.net with endpoints := s.net.endpoints.set none 9 (some ⟨0, 2⟩) } }
def quiet3 (s : State) : State := at_ 900 (s.setHalf 3 { Half.init with state := .quiet, quietEnd := 900 })
def askv (st g f : Nat) (s : State) : State := at_ 500 (s.mwrite (s.askKey 1) (askEntry 0 g 2 f 31 3 st 500))
def rvk (s : State) : State := { askv 3 5 0 s with net := { s.net with revoking := some ⟨1, 100, none⟩ } }

def wk : State := ((hostUp up).setThread 3 { lvl 0 with running := true, wait := .xlt 0 }).setCluster 0
  { Cluster.init with askc := [⟨0, askEntry 0x5000 1 0 0 31 3 1 0, 0⟩], walks := [⟨0, 0x7000, [.data 0 3], false, 0, []⟩] }
def iv : State := { (up.setOp 5 { Op.free with status := none, delivered := false, kind := 10 }).setCluster 7 { Cluster.init with l2 := [⟨1, 7, 12, 0x9000, true, 0xFFF, 0⟩, ⟨2, 7, 12, 0x9000, true, 0xFFF, 0⟩] }
  with net := { up.net with invals := [⟨1, 1, 0, 0, [7], some 5, none⟩] } }
def pf1 (s : State) : State := { askv 1 5 0 s with net := { s.net with pendFaults := [⟨1, 7, [], true⟩, ⟨1, 8, [], false⟩] } }
def ov : State := ((withEntry 9 { Queue.init with rq := true } (ent 0x20 []) up).setOverflow 3 [.recv 5 9 0])

def wItem : Item := ⟨0x84, 2, 1, 5, 0, 0, zeroBytes 120⟩
def wfS : State := up.setFifo 13 { Fifo.init with writing := [⟨some 0, false, wItem, .plain⟩] }
def dbS : State := hostUp ((withCq 4 (up.setQueue 9 { Queue.init with state := .ready, cn := 4, log2 := 8, base := 0x10000, tail := 3, fetched := 2 })))
def svS : State := let s := hostUp ((withCq 4 (up.setQueue 9 { Queue.init with state := .ready, cn := 4, log2 := 8, base := 0x10000, tail := 1 })))
  { s with rings := { s.rings with linkList := [(0, [0])], funcList := [(0, [0])], groupList := [(0, [9])], nodeF := [(0, ⟨5, false⟩)], nodeG := [(0, ⟨5, false⟩)], nodeQ := [(9, ⟨5, false⟩)] } }
def rdS (n : Nat) : State := dbS.setQueue 9 { dbS.queue 9 with reading := [⟨2, 1, 0, 0, n, false, false, none⟩], outstanding := [oe (ent 7 [])] }
def cqx (f : Cq → Cq) (s : State) : State := s.setCq 4 (f (s.cq 4))
def cplE : Completion := ⟨zeroBytes 32, false, some (9, 0x10000), 0⟩

def jE : List Byte := ent 0x10 [(2,1,0),(8,2,1023),(10,3,9),(16,4,2),(20,4,0),(24,4,1),(28,4,7),(32,8,0x7000)]
/-- Queue 9 is bound to half 3 and holds one entry; endpoint 9 is this device 5's, and endpoint 7 that of device 6 in its row. -/
def colS (b : List Byte) (started : Bool) : State :=
  let s := net5 (ask1 (conn3 Half.init (withCq 4 (up.setQueue 9 { Queue.init with state := .ready, cn := 4, func := 3, conn := some 3, log2 := 8, fetched := 1, tail := 1, outstanding := [⟨0, 0, b, started⟩] }))))
  let s := ((s.fw F.ROUTE_DEST_V [0, 6] 1).fw F.ROUTE_DEST_COL [0, 6] 1)
  { s with net := { s.net with endpoints := s.net.endpoints.set none 9 (some ⟨3, 2⟩) }, eptCache := [(7, some (2 ^ 31 + 6 * 1024)), (9, some (2 ^ 31 + 5 * 1024))] }
def j1 : State := ((colS jE true).setOp 5 { Op.free with kind := 0x15, status := none, delivered := false, origin := .work 9 0 }).mwrite (hbmKey 0x9000) (leBytes 4 9 ++ leBytes 4 7)
def j1r := j1.readAt 0 (.far 1 0x7000) 0 8 (.op 5) 0 []
def mem2 : List Member := [⟨9, 5, 0, 0, 0⟩, ⟨7, 6, 0, 0, 1⟩]
def cl2 (f : Bool) (r : Option CollRun) (hs : List Nat) : Coll := ⟨9, 3, 0, mem2, 7, hs, f, r⟩
def rE (k : Nat) : List Byte := ent 0x10 [(2,1,1),(8,2,1023),(10,1,k),(11,1,0),(12,1,0),(13,1,0),(16,4,4),(20,4,1),(24,8,0x7000),(32,8,0x7100),(40,4,0),(48,8,if k = 4 then 400000000000 else 0)]
def rS (k : Nat) (st : Bool) (c : Coll) : State := (colS (rE k) st).setColl 1023 (some c)
def run0 (n sub : Nat) : CollRun := ⟨9, 0, n, sub, 5, false, [], [], 5, 0, 1⟩
def lE : List Byte := ent 0x10 [(2,1,2),(8,2,1023)]
def amO (key : Nat) (op ty n c : Nat) : Op := { Op.free with kind := 14, status := none, delivered := false, block := blk [(0,1,14),(8,2,key),(10,1,op),(11,1,ty),(16,4,n),(20,2,c),(22,2,0xFFFF),(24,4,1),(40,8,0x7000)] }
def amP (a : AmlSlot) (op ty n c : Nat) : State := { (up.setOp 5 (amO 9 op ty n c)) with aml := { slots := [(9, { a with op := some 5 })], cfgRefused := false } }
def redP : Packet := { Packet.zero with op := opPut, red := true, key := 9, aux := 1, va := 4, payload := [250,255,255,255] }
def conS (op : Nat) : State := got redP (fun h => { h with coll := some 1 }) (amP { AmlSlot.init with stripes := [(0, ⟨false, 4, [(1, some 3)], [], [], false⟩)] } op 0 4 2)
def stS : State := ask1 (amP { AmlSlot.init with done := 1, stripes := [(0, ⟨false, 1024, [], [], [], true⟩), (1, ⟨false, 16, [(256, some 3), (257, some 4)], [], [], false⟩)] } 0 0 258 2)
def stR := stS.writeAt 0 (.far 1 0x7000) 1024 [3,0,0,0,4,0,0,0] (.op 5)

def rtP : Packet := { Packet.zero with op := opPut, dstDn := 6, payload := [1] }
def rp (p : Packet) : RPkt := ⟨p, none, 0, none, none, none⟩
/-- Bank 0 routes; device 6 is at column 1 of the row, reached by port 0. -/
def rtS (p : Packet) : State :=
  let s := net5 (ask1 up)
  let s := ((((s.fw F.ROUTE_DEST_V [0, 6] 1).fw F.ROUTE_DEST_COL [0, 6] 1).fw F.ROUTE_ROW_V [0, 1] 1).fw F.ROUTE_ROW_SET [0, 1] 1).wr R.ROUTE_PSET [0, 1, 0] 1
  let s := ((s.fw F.ROUTE_PORT_ROLE [0, 0] 1).fw F.ROUTE_CFG_HOP_LIMIT [] 7).wr R.SLD_LIFETIME [] 1000
  { s with route := { s.route with bank0 := 2, tiles := [(0, [rp p])] } }
def rtL (p : Packet) : State := (rtS p).setPort 0 { Port.init with st := .active }
def pdS : State := let s := rtS rtP; s.setPort 0 { Port.init with tx := { (Port.init).tx with queues := [(0, [⟨rp rtP, false, false, 1, 0, false⟩])] } }

def pfB (s : State) : State := hostUp s
def rtA (s : State) : State := { s with route := { s.route with enabled := true, bank0 := 2 }, inv := { s.inv with state := .track } }
def rtB (s : State) : State := { (rtA s).setBank 1 1 with inv := { s.inv with state := .track } } |>.wr R.ROUTE_SWITCH_FT [] 5000000
def rtC (s : State) : State := let s := (rtB s).wr R.SLD_LIFETIME [] 4; { s with inv := { s.inv with ft := 5000000 } }

def slA (src : Nat) (p : Packet) : State := let s := (net5 up).wr R.SLD_LIFETIME [] 1000; { s with inv := { s.inv with ft := 5000000 }, route := { s.route with arrivals := [(if src = 0 then 128 else src, rp (if src = 0 then p else { p with ecrc := 1 }))] } }
def slP : Packet := { rtP with dstDn := 5, stamp := 0, seq := 0, dstEp := 9, srcEp := 7, dstFunc := 0 }
def slN : State := let s := ((net5 up).wr R.SLD_LIFETIME [] 1000).setHalf 3 { Half.init with state := .established, localEp := 9, remoteEp := 7 }
  { s with net := { s.net with endpoints := s.net.endpoints.set none 9 (some ⟨0, 2⟩) } }
def slB (p : Packet) : State := { slN with route := { slN.route with arrivals := [(128, rp p)] } }
def hd (p : Packet) (pl : Place) : Held := ⟨p, 0, false, 0, false, pl, false, false, 0, false, []⟩
def slH (p : Packet) (pl : Place) : State := slN.setHalf 3 { slN.half 3 with rx := { (slN.half 3).rx with held := [hd p pl] } }

/-- Port 3 in a state, changed as given; its lanes are enabled. -/
def pt (st : LState) (f : Port → Port) (s : State) : State :=
  ((s.setPort 3 (f { Port.init with st := st })).fw F.LNK_CTRL_LANE_EN [3] 3).fset F.LNK_CTRL_ENABLE [3] true
def tsb (ty : Nat) : TsBody := { ty := ty, lane := 1, port := 6, count := 0, dn := 5, rates := 3, lanes := 3, min := 64, shared := 100, eq := [1, 3, 2, 0, 0, 0] }
def tsOf (b : TsBody) : TsFrame := ⟨b.levels, false, false, 9, none⟩
def ts (ty : Nat) : TsFrame := tsOf (tsb ty)
def pcfg (x : Port) : Port := { x with cfg := { x.cfg with rates := 3, lanes := 3, peerRates := 2, peerLanes := 1, peerMin := 64, peerShared := 100, replay := 100, ts2 := 8 } }
def atx (f : LinkTx → LinkTx) (x : Port) : Port := { pcfg x with tx := f { x.tx with ded := List.replicate 8 64, seen := List.replicate 9 0, sh := 50 } }
def arx (x : Port) : Port := { atx id x with rx := { x.rx with framed := true, totals := List.replicate 9 0 } }
def slt (ct : Nat) (lseq : Nat) (b : List Byte) : Slot := { ok := true, lseq := lseq, ctype := ct, lack := 4095, nak := false, chc := 0, csh := false, cra := 0, crb := 8 * 4096, body := b }
def onePk : List Byte := ({ rtP with ext := true }.bytes ++ zeroBytes 256).take 256
def sc (n : Nat) : SentCell := ⟨n, 1, 0, false, zeroBytes 256⟩
def ep1 : EgrPkt := ⟨rp rtP, false, false, 1, 0, false⟩

def gt (f : Sched → Sched) (s : State) : State :=
  let s1 := (s.setPort 3 { Port.init with sch := f { Port.init.sch with valid := true } }).fset F.GATE_CTRL_EN [3] true
  { s1 with inv := { s1.inv with state := .track, ft := 1000005 } }
def gtS : State := (gt id up).wr R.GATE_ACT_BASE [3] 1000000 |>.wr R.GATE_ACT_CYCLE [3] 40000 |>.wr R.GATE_ACT_LEN [3] 1 |>.wr R.GATE_LIST [3, 0, 0] 0x80009C40
def pend (n : Nat) (s : State) : State := s.wr R.GATE_PEND_BASE [3] (w64 n)
def limS (x : Lim) : State := at_ 25600 { up with lims := up.lims.set Lim.init 4099 x, limRefill := 99 }
def lx : Lim := { Lim.init with cfg := w64 (1000 * 2 ^ 32 + 17), tokens := 5 }
def smp : State := let s := (up.fw F.SCH_SAMPLE_CTRL_EN [] 1).fw F.SCH_SAMPLE_CTRL_PERIOD [] 1; { s with inv := { s.inv with state := .track, ft := 8000 } }
def lnS (x : Lane) (s : State) : State := at_ 8000000000 ((s.setLane 3 1 x))
def badL : Lane := { Lane.init with bins := [(100000000, 10 ^ 9)] }
def frS : State := let s := (code up).fw F.EYE_CTRL_DWELL [3, 1] 2; s.setPort 3 { Port.init with st := .active, cfg := { LinkCfg.init with lanes := 3 } }
def hs (s : State) : State := { s with host := { s.host with perst := [] } }

def vfS (s : State) : State := (s.fw F.HIF_VF_ALLOC_FIRST [0] 1000).fw F.HIF_VF_ALLOC_COUNT [0] 24
def flS : State := let s := ((conn3 Half.init (vfS up)).setHalf 4 { Half.init with state := .established, func := 1023 }).setFunc 1023 { Func.init with bme := true, held := NSet.add [] 3 }
  { s with net := { s.net with endpoints := s.net.endpoints.set none 9 (some ⟨1023, 2⟩) } }
def hrS (w : ReadFor) : State := let s := got { amoP 0 with seq := 4 } (fun h => { h with rx := { h.rx with released := [(4, 0x20000)] } }) (net5 up); { s with host := { s.host with reads := [(2, some ⟨w, 3, 9, 0⟩)] } }

def rec5 (cls : Nat) : ErrRec := { ErrRec.zero with openRec := true, source := tsrc 4 3, code := 0x70, cls := cls, seq := 9 }
def wRec (cls : Nat) : State := at_ 4000000000000 { up with tgf := { up.tgf with hist := [(2, rec5 cls)], seq := 9, next := 3 } }
def inj (s : State) : State := (code s).fset F.TGF_CTRL_INJECT_EN [] true
def thS : State := at_ 4000000 up

def pgS : State := let s := up.fw F.TGF_HBM_RETIRE_COUNT [] 1; { s with dev := { s.dev with pages := { s.dev.pages with errs := s.dev.pages.errs.set [] 7 [s.loc] } } }
def rtE : State := at_ 4000000 ({ up with tgf := { up.tgf with retest := some (tsrc 0x0E 5, 0, 0) } }.setEngine 5 { Engine.init with retired := true })
def hst (src : Nat) : State := ((up.fw F.HIST_SEL_EN [255] 1).fw F.HIST_SEL_SRC [255] src).fw F.HIST_SEL_INSTANCE [255] 3
def dmp (s : State) : State := let s := (s.fset F.PMU_DUMP_CTRL_EN [] true).fw F.PMU_DUMP_CTRL_PERIOD [] 1000; let s := s.fw F.PMU_DUMP_CFG_SIZE [] 4
  { s with inv := { s.inv with state := .track, ft := 8000000 } }
def mon (f : Monitors → Monitors) (s : State) : State := { s with dev := { s.dev with mon := f s.dev.mon } }
def smpd : Sampled := ⟨1, 0x1000, 0, 5, 9, 0, false, 3, 1⟩
def lifeS (n : Nat) : State := at_ n { up with dev := { up.dev with life := { up.dev.life with ready := true, commitAt := 0, snapAt := 0, sampleAt := 0, scanAt := 0 } } }

def rv2 (s : State) : State := s.mwrite (s.askKey 2) (askEntry 0 5 2 0 31 3 1 0)

/-- Receive queue 9 of cluster 0, at FIFO 3 (`fifo`), holding one RECV of a context. -/
def rcE (ctx : Nat) : List Byte := ent 0x20 [(24,8,0),(32,3,5),(40,8,0x33),(48,2,ctx)]
def rcS (fifo ctx : Nat) : State := withCq 4 (withEntry 9 { Queue.init with cn := 4, rq := true, fifo := fifo, log2 := 8 } (rcE ctx) up)
def ue : MatchEntry := ⟨false, 5, 0x33, 0, 3, 0⟩
def ur : UnexpRec := ⟨3, 5, 0x33, 0, 4, none, none, 0, none, some (0, 0x20000)⟩
def rcU : State := (rcS 3 0).setMctx 0 { MatchCtx.init with claimed := true, unexp := [ue] } |>.setUrec 3 (some ur)
/-- The same, with the entry's WORK item at the head of the polled FIFO 3. -/
def rcP : State := ((rcS 3 0).fset F.WF_CFG_POLLED [0, 3] true).setFifo 3 { Fifo.init with bank1 := ⟨[⟨2, 2, 4, 2, 0, 0, workWord 9 ((rcS 3 0).queue 9) 0 ++ rcE 0⟩], []⟩ }
def mgP : Packet := { Packet.zero with op := 4, msg := true, seq := 4, va := 0x33 }
def ovM : State := (got mgP id up).setOverflow 0 [.msg 5 0x20000, .msg 5 7]
def ovR : State := (rcS 3 5).setOverflow 0 [.recv 5 9 0]

def voidP : Packet := { putP with void := true, payload := [] }
/-- A flush that waits for its proof after a write to the host. -/
def flW : State := hostUp (net5 (ask1 (got flP (fun h => { h with rx := { h.rx with e := 4, wrote := some 0 }, func := 0 }) up)))
/-- Half 3 with acknowledgements to handle. -/
def akS (l : List AckItem) : State := (conn3 Half.init up).setHalf 3 { (conn3 Half.init up).half 3 with acks := l, txSeq := 6 }
def flO : Op := { Op.free with kind := 5, gen := 1, status := none, delivered := false, conn := some 3, n := 1, formed := 1, block := blk [(0,1,5),(48,4,4)] }
def rvc : State := let s := ctl (ent 83 [(8,4,0x500001)]) (askv 3 5 0 up); { s with net := { s.net with revoking := some ⟨1, 100, some (0, 0)⟩ } }

def wkc (cl : List XltClient) (wins : List (Nat × Nat)) : State := ((hostUp up).setThread 3 { lvl 0 with running := true, wait := .xlt 0 }).setCluster 0
  { Cluster.init with askc := [⟨0, askEntry 0x5000 1 0 0 31 3 1 0, 0⟩], walks := [⟨0, 0x7000, cl, false, 0, wins⟩] }
def wkA : List Byte := askEntry 0x5000 1 0 0 31 3 1 0
def wk1 (s : State) (host : List (Nat × Nat)) : WRes × State :=
  let w := ((s.cluster 0).walks.headD ⟨0, 0, [], false, 0, []⟩)
  let s0 := (s.askOf 0 0).2
  (s0.setCluster 0 { s0.cluster 0 with walks := (s0.cluster 0).walks.eraseIdx 0 }).walkAll 0 w.wins wkA 0 0x7000 host
def wkX (st : Nat) : State := let s := wkc [.data 0 3] []; s.setCluster 0 { s.cluster 0 with askc := [⟨0, askEntry 0x5000 1 0 0 31 3 st 0, 0⟩] }
def ivL : Cluster := { Cluster.init with l2 := [⟨1, 7, 12, 0x9000, true, 0xFFF, 0⟩, ⟨2, 7, 12, 0x9000, true, 0xFFF, 0⟩] }
def ivE : List Byte := ent 88 [(8,4,0x500001),(12,1,1)]
def ivV (w : List Nat) : Inval := ⟨1, 1, 0, 0, w, none, some (0, 0, 0)⟩
def ivC (w : List Nat) : State := let s := (ctl ivE (askv 1 5 0 up)).setCluster 7 ivL; { s with net := { s.net with invals := [ivV w] } }
def pfX (s : State) : State := { hostUp (askv 1 5 0 s) with net := { s.net with pendFaults := [⟨1, 7, zeroBytes 32, false⟩] } }
def wfE : State := ((withCq 4 (up.setQueue 9 { Queue.init with state := .ready, cn := 4, log2 := 8, base := 0x10000, tail := 3, fetched := 2, cluster := 3, fifo := 1, reading := [⟨2, 1, 0, 0, 0, false, false, some (ent 7 [])⟩] }))).setFifo 13
  { Fifo.init with writing := [⟨some 0, false, wItem, .entry 9 2⟩] }

def slF (s : State) (x : RPkt) : State := ({ s with route := { s.route with arrivals := [] } }).freeAll x.cred
def slYp (s : State) (p : Packet) : Stream := { (s.half 3).rx with peer := p.srcDn }
def slRt (s : State) (p : Packet) : State := (slF s (rp p)).setRx 3 (slYp s p)
def slJ (p : Packet) (f : Half → Half) : State := (slB p).setHalf 3 (f ((slB p).half 3))

/-- A port with the bytes of a slot received. -/
def ln (f : Slot) (g : Port → Port) (x : Port) : Port := let y := g (arx x); { y with rx := { y.rx with line := [(bitsOf f.bytes, !f.ok)] } }
def rcvd (f : Slot) (g : Port → Port) : State := pt .active (ln f g) up
def lnd (s : State) : State := (s.slotFrom 3 []).2
def asm1 (p : Packet) (n : Nat) : Assembly := ⟨(p.bytes ++ zeroBytes 4096).take (256 * n), n, p.hc, false, ⟨3, 0, 1, 0, 0⟩⟩
def bigP : Packet := { rtP with ext := true, payload := zeroBytes 300 }
def isLv : Emit → Bool
  | .levels .. => true
  | _ => false
def slotG (u : State) : Slot := match u.out.find? (fun e => match e with | .slot .. => true | _ => false) with
  | some (.slot _ g) => g
  | _ => slotOf false []
def pgN : State := { pgS with dev := { pgS.dev with pages := { pgS.dev.pages with retired := (List.range 1024).map fun i => (i + 100, some i) } } }

/-- A condition on what an optional value holds, decided. -/
theorem of_all {α : Type} {x : Option α} {p : α → Prop} [DecidablePred p] (h : (x.all fun v => decide (p v)) = true) : ∀ v, x = some v → p v := by
  rintro v rfl; simpa using h
theorem of_any {α : Type} {x : Option α} {p : α → Prop} [DecidablePred p] (h : (x.any fun v => decide (p v)) = true) : ∃ v, x = some v ∧ p v := by
  cases x with
  | none => simp at h
  | some v => exact ⟨v, rfl, by simpa using h⟩
/-- The state that pgN is has every spare page of stack 0 in use. -/
theorem pgN_no_spare : pgN.freeSpare (stackOf 7) = none := by
  rw [State.freeSpare, firstBelow, List.find?_eq_none]
  intro i h
  have hi := List.mem_range.mp h
  simp only [Bool.not_eq_true', Bool.not_eq_false, List.any_eq_true]
  refine ⟨(i + 100, some i), List.mem_map_of_mem h, ?_⟩
  have : stackOf (i + 100) = stackOf 7 := by simp only [stackOf]; omega
  simp [this]

/-- 65,536 connection halves from key 4 on, each with a reorder context in use. -/
def ctxHalves : SMap Half := (List.range' 4 65536).map fun k => (k, { Half.init with rx := { Half.init.rx with ctx := true } })
theorem wf_range {d v : Half} (hv : v ≠ d) : ∀ (n a lo : Nat), lo ≤ a → SMap.wfFrom d lo ((List.range' a n).map fun k => (k, v)) = true
  | 0, _, _, _ => rfl
  | n + 1, a, lo, h => by simp [List.range'_succ, SMap.wfFrom, h, hv, wf_range hv n (a + 1) (a + 1) (Nat.le_refl _)]
theorem get_range (d v : Half) (k : Nat) : ∀ (n a : Nat), k ∈ List.range' a n → SMap.get d ((List.range' a n).map fun k => (k, v)) k = v
  | 0, _, h => by simp at h
  | n + 1, a, h => by
    simp only [List.range'_succ, List.map_cons, SMap.get]
    split
    · rfl
    · exact get_range d v k n (a + 1) (by simp [List.range'_succ] at h ⊢; omega)
/-- A packet ahead of its turn, for a stream with no context, while all contexts are in use. -/
def slP2 : Packet := { slP with seq := 2 }
def slC : State := let s := slJ slP2 id; { s with net := { s.net with halves := (3, s.half 3) :: ctxHalves } }
theorem slC_wf : SMap.wf Half.init slC.net.halves = true := by
  have h : slC.net.halves = (3, (slJ slP2 id).half 3) :: ctxHalves := rfl
  have h1 : (slJ slP2 id).half 3 ≠ Half.init := by decide +kernel
  rw [h, SMap.wf, SMap.wfFrom, ctxHalves, wf_range (by decide +kernel) _ _ _ (by decide)]
  simp [h1]
theorem slC_full : 65536 ≤ slC.ctxUsed := by
  have h : slC.net.halves = (3, (slJ slP2 id).half 3) :: ctxHalves := rfl
  have h0 : slC.adapterHalted = false := by decide +kernel
  have h2 : ∀ e ∈ ctxHalves, (slC.half e.1).rx.ctx = true := by
    intro e he
    obtain ⟨k, hk, rfl⟩ := List.mem_map.mp he
    have h3 : ¬ k = 3 := by simp at hk; omega
    simp only [State.half, h0, h, SMap.get, h3, if_false, ctxHalves]
    rw [get_range _ _ _ _ _ hk]
    rfl
  have h4 : (ctxHalves.filter fun e => (slC.half e.1).rx.ctx) = ctxHalves := List.filter_eq_self.mpr h2
  have h5 : ctxHalves.length = 65536 := by simp [ctxHalves]
  rw [State.ctxUsed, h, List.filter_cons]
  split <;> simp [h4, h5]

/-! ## Witnesses: for each statement, clause by clause, states and operands that meet its hypotheses -/

theorem witness_StepRunsFront :
    (∃ (c : Instr) (rest : List Instr) (s : State), s.pending = c :: rest) ∧
    (∃ (s : State), s.pending = []) :=
  ⟨⟨.powerDown, [], ({ up with pending := [.powerDown] }), rfl⟩,
   ⟨up, by decide +kernel⟩⟩
theorem witness_EveryCommandAnswers :
    (∃ (c : Instr) (s : State) (t : State), exec c s = .next t) :=
  ⟨.powerDown, up, _, rfl⟩
theorem witness_CommandFrames :
    (∃ (c : Instr) (s : State) (u : State) (p : Part), exec c s = .next u ∧ p ∉ c.mayChange) :=
  ⟨.jal 0 1 5, ci 0 [], _, .net, rfl, by decide⟩
theorem witness_SidebandAddressKept :
    (∃ (s : State) (t : State), s.sidebandOk ∧ step s = .next t) :=
  ⟨({ up with sbAddr := 8, pending := [.powerDown] }), _, by unfold State.sidebandOk; decide +kernel, rfl⟩
theorem witness_MemoryCanonicalKept :
    (∃ (s : State) (t : State), s.mem.wf = true ∧ step s = .next t) :=
  ⟨{ up.mwrite (hbmKey 64) [1, 2] with pending := [.powerDown] }, _, by decide +kernel, rfl⟩
theorem witness_FabricTimeNeverSteps :
    (∃ (c : Instr) (s : State) (t : State), exec c s = .next t ∧ (s.inv.state = .track ∨ s.inv.state = .holdover ∨ s.inv.state = .unsync ∨
      (s.inv.state = .root ∧ s.inv.ppsAligned = true))) :=
  ⟨.jal 0 1 5, timed .track (ci 0 []), _, rfl, by decide +kernel⟩
theorem witness_PowerAndReset :
    (∃ (s : State), s.dev.off = true) ∧
    (∃ (s : State), s.dev.off = false) ∧
    (∃ (s : State), s.dev.off = false) ∧
    (∃ (s : State) (path : Path) (v : Word), s.devKey path v = true ∧ bitW v 1 = true) ∧
    (∃ (s : State) (pf : Nat) (idx : Nat) (e : OutEntry), s.controls pf idx 0x6B e ∧ s.fmMay pf = true ∧ leAt e.bytes 8 2 = 0x3A7B) ∧
    (∃ (s : State) (r : BootEnv) (slot : Nat), s.bootDue = true ∧ r.outcome (s.dev.kind == 2) s.variant s.dev.svn = .done slot ∧ r.calFail =
      []) ∧
    (∃ (s : State) (r : BootEnv) (stage : Nat) (cause : Nat) (slot : Nat), s.bootDue = true ∧ r.outcome (s.dev.kind == 2) s.variant
      s.dev.svn = .stopped stage cause slot) ∧
    (∃ (s : State) (path : Path) (v : Word), s.devKey path v = true ∧ bitW v 2 = true ∧ s.fb F.DEV_BOOT_STATUS_DONE = true ∧ s.dev.svn <
      s.dev.image) :=
  ⟨⟨{up with dev := {up.dev with off := true}}, by decide +kernel⟩,
   ⟨up, by decide +kernel⟩,
   ⟨up, by decide +kernel⟩,
   ⟨code up, .near 5, 0x3A7B0002, by decide +kernel⟩,
   ⟨ctl (ent 0x6B [(8,2,0x3A7B)]) up, 0, 0, oe (ent 0x6B [(8,2,0x3A7B)]), by unfold State.controls; decide +kernel⟩,
   ⟨State.reset, ⟨(⟨true,true,false,true,3,0x10000,[1,2],0x10000,[]⟩ : BootImage),(⟨true,true,false,true,3,0x10000,[1,2],0x10000,[]⟩ : BootImage),true,none,[]⟩, 0, by decide +kernel⟩,
   ⟨State.reset, ⟨{ (⟨true,true,false,true,3,0x10000,[1,2],0x10000,[]⟩ : BootImage) with read := false },{ (⟨true,true,false,true,3,0x10000,[1,2],0x10000,[]⟩ : BootImage) with read := false },true,none,[]⟩, 4, 4, 1, by decide +kernel⟩,
   ⟨(code up).fset F.DEV_BOOT_STATUS_DONE [] true |> fun s => {s with dev := {s.dev with image := 4}}, .near 5, 0x3A7B0004, by decide +kernel⟩⟩
theorem witness_PowerStates_1 :
    (∃ (s : State) (pf : Nat) (idx : Nat) (e : OutEntry), s.controls pf idx 0x68 e ∧ s.fmMay pf = true ∧ leAt e.bytes 8 1 ≤ 1 ∧
      s.dev.entering = none) ∧
    (∃ (s : State) (pf : Nat) (idx : Nat) (e : OutEntry), s.controls pf idx 0x68 e ∧ s.fmMay pf = true ∧ 2 ≤ leAt e.bytes 8 1 ∧ leAt e.bytes
      8 1 ≤ 3 ∧ s.dev.entering = none) ∧
    (∃ (s : State) (pf : Nat) (idx : Nat) (e : OutEntry), s.controls pf idx 0x68 e ∧ s.fmMay pf = true ∧ 2 ≤ leAt e.bytes 8 1 ∧ leAt e.bytes
      8 1 ≤ 3 ∧ s.dev.entering = none) ∧
    (∃ (s : State) (pf : Nat) (idx : Nat) (e : OutEntry), s.controls pf idx 0x69 e ∧ s.fmMay pf = true) ∧
    (∃ (s : State) (src : Nat), s.wakeOn src = true ∧ s.inSafe = false ∧ s.dev.off = false) ∧
    (∃ (s : State), s.wakeOn 3 = true ∧ s.inSafe = false ∧ s.dev.off = false ∧ s.dev.entering = none ∧ 2 ≤ s.dev.power) ∧
    (∃ (s : State) (pf : Nat) (idx : Nat) (e : OutEntry), s.controls pf idx 0x6A e ∧ s.fmMay pf = true ∧ 1 ≤ leAt e.bytes 40 4 ∧ leAt
      e.bytes 40 4 ≤ 60000 ∧ s.route.enabled = false) ∧
    (∃ (s : State), s.inSafe = false ∧ s.fabricReady = true ∧ s.dev.join = none) :=
  ⟨⟨ctl (ent 0x68 [(8,1,1)]) up, 0, 0, oe (ent 0x68 [(8,1,1)]), by unfold State.controls; decide +kernel⟩,
   ⟨ctl (ent 0x68 [(8,1,2)]) up, 0, 0, oe (ent 0x68 [(8,1,2)]), by unfold State.controls; decide +kernel⟩,
   ⟨hostUp (ctl (ent 0x68 [(8,1,3)]) up), 0, 0, oe (ent 0x68 [(8,1,3)]), by unfold State.controls; decide +kernel⟩,
   ⟨ctl (ent 0x69 []) up, 0, 0, oe (ent 0x69 []), by unfold State.controls; decide +kernel⟩,
   ⟨{(up.wr R.PWR_WAKE_EN [] 0xFF) with dev := {up.dev with power := 2}}, 3, by decide +kernel⟩,
   ⟨{(up.wr R.PWR_WAKE_EN [] 0xFF) with dev := {up.dev with power := 2}}, by decide +kernel⟩,
   ⟨ctl (ent 0x6A [(40,4,5)]) up, 0, 0, oe (ent 0x6A [(40,4,5)]), by unfold State.controls; decide +kernel⟩,
   ⟨fready up, by decide +kernel⟩⟩
theorem witness_PowerStates_2 :
    (∃ (s : State) (pf : Nat) (serial : Nat) (ms : Nat) (from_ : Word) (e : OutEntry), s.dev.join = some (pf, serial, from_, ms) ∧ (s.queue
      (ctrlQn pf)).entry serial = some e ∧ s.adapterHalted = false ∧ s.cqRoom (s.queue (ctrlQn pf)).cn = true ∧ s.fabricReady = true) ∧
    (∃ (s : State) (pf : Nat) (serial : Nat) (ms : Nat) (from_ : Word) (e : OutEntry), s.dev.join = some (pf, serial, from_, ms) ∧ (s.queue
      (ctrlQn pf)).entry serial = some e ∧ s.adapterHalted = false ∧ s.cqRoom (s.queue (ctrlQn pf)).cn = true ∧ s.fabricReady = false ∧ ms *
      1000 * ticksPerUs ≤ s.locSince from_) :=
  ⟨⟨fready (joinS true), 0, 0, 5, 0, oe (ent 0x6A [(40,4,5)]), by decide +kernel⟩,
   ⟨at_ 20000000 (joinS true), 0, 0, 5, 0, oe (ent 0x6A [(40,4,5)]), by decide +kernel⟩⟩
theorem witness_RegisterAccess_1 :
    (∃ (s : State) (p : Path), s.mayWrite p R.RING_CQ_POLL.base = true) ∧
    (∃ (s : State) (p : Path) (a : Nat), s.mayWrite p a = false ∧ (∀ f, p ≠ .bar f)) ∧
    (∃ (s : State) (p : Path), s.mayRead p R.INV_FT.base = true ∧ (∀ f, p ≠ .bar f)) ∧
    (∃ (s : State) (p : Path) (v : Word), (s.mayRead p (R.INV_FT.base + 4) = true ∧ s.halfLatch.get (0, 0) (pathKey p) = (R.INV_FT.base + 4,
      v)) ∧ (∀ f, p ≠ .bar f)) ∧
    (∃ (s : State) (p : Path), s.mayRead p R.TGF_HIST.base = true ∧ (∀ f, p ≠ .bar f)) ∧
    (∃ (s : State) (p : Path), s.mayRead p R.RING_DB_REJECT_COUNT.base = true ∧ (∀ f, p ≠ .bar f)) ∧
    (∃ (s : State), s.dev.off = false) ∧
    (∃ (s : State), s.dev.off = false ∧ s.sbAddr = R.DEV_ID.base) :=
  ⟨⟨code up, .near 5, by decide +kernel⟩,
   ⟨up, .near 5, 0x1000, by decide +kernel, nofun⟩,
   ⟨tm (fun i => {i with ft := 0x500000003}) (code up), .near 5, by decide +kernel, nofun⟩,
   ⟨{(code up) with halfLatch := [(5,(R.INV_FT.base+4,9))]}, .near 5, 9, by decide +kernel, nofun⟩,
   ⟨up, .sideband, by decide +kernel, nofun⟩,
   ⟨(code up).bump R.RING_DB_REJECT_COUNT, .near 5, by decide +kernel, nofun⟩,
   ⟨up, by decide +kernel⟩,
   ⟨up, by decide +kernel⟩⟩
theorem witness_RegisterAccess_2 :
    (∃ (s : State), s.dev.off = false) ∧
    (∃ (s : State), s.dev.off = false) :=
  ⟨⟨{up with sbAddr := R.LIFE_WIN_SEL.base}, by decide +kernel⟩,
   ⟨{up with sbAddr := 12}, by decide +kernel⟩⟩
theorem witness_TimeControl :
    (∃ (s : State) (path : Path), s.mayWrite path R.INV_CTRL.base = true) ∧
    (∃ (s : State) (path : Path), s.mayWrite path R.INV_CTRL.base = false) :=
  ⟨⟨timed .disabled (code up), .near 5, by decide +kernel⟩,
   ⟨up, .near 5, by decide +kernel⟩⟩
theorem witness_SyncExchange :
    (∃ (s : State) (p : Nat), s.timePort p = true ∧ (s.rd R.INV_SYNC_INT).toNat ≤ s.locSince (s.ptime p).lastSync) ∧
    (∃ (s : State) (p : Nat), (s.timePort p = false ∨ s.locSince (s.ptime p).lastSync < (s.rd R.INV_SYNC_INT).toNat)) ∧
    (∃ (s : State) (p : Nat) (f : Nat) (t2 : Nat), s.timePort p = true ∧ t2 = 16 * s.ft.toNat + f % 16) ∧
    (∃ (s : State) (p : Nat) (id : Nat) (t1 : Nat) (t2 : Nat) (t3 : Nat) (f : Nat) (at_ : Word) (d : Int), s.timePort p = true ∧
      s.inv.parent ≠ some p ∧ (s.ptime p).outstanding.find? (fun o => o.1 == id) = some (id, t1, at_) ∧ d = ((s.ptime p).sampled ((((16 *
      s.ft.toNat + f % 16 : Nat) : Int) - t3 + ((t2 : Int) - t1)) / 2)).delay) ∧
    (∃ (s : State) (p : Nat) (id : Nat) (t1 : Nat) (at_ : Word), s.timePort p = true ∧ s.inv.parent = some p ∧ s.inv.state = .acquire ∧
      s.inv.stepped = true ∧ s.inv.suspended = none ∧ (s.ptime p).outstanding.find? (fun o => o.1 == id) = some (id, t1, at_)) ∧
    (∃ (s : State) (p : Nat) (o : Nat × Nat × Word) (rest : List (Nat × Nat × Word)), s.inSafe = false ∧ (s.ptime p).outstanding = o :: rest
      ∧ 10 * ticksPerUs ≤ s.locSince o.2.2) :=
  ⟨⟨timed .track up, 2, by decide +kernel⟩,
   ⟨up, 2, by decide +kernel⟩,
   ⟨timed .track up, 2, 4, 16*7000000+4, by decide +kernel⟩,
   ⟨(timed .track up).setPtime 2 {PortTime.init with outstanding := [(1, 112000000-7000, 0)]}, 2, 1, 112000000-7000, 112000000-5000, 112000000-4000, 3, 0, 3001, by decide +kernel⟩,
   ⟨(tm (fun i => {i with parent := some 2, stepped := true}) (timed .acquire up)).setPtime 2 {PortTime.init with outstanding := [(1, 112000000-7000, 0)]}, 2, 1, 112000000-7000, 0, by decide +kernel⟩,
   ⟨(timed .track up).setPtime 2 {PortTime.init with outstanding := [(1, 700, 0)]}, 2, (1,700,0), [], by decide +kernel⟩⟩
theorem witness_RootElection_1 :
    (∃ (s : State), s.invOn = true ∧ s.inSafe = false ∧ (s.rd R.INV_ANNOUNCE_INT).toNat ≤ s.locSince s.inv.lastAnnounce) ∧
    (∃ (s : State) (p : Nat) (a : Announce), s.timePort p = true ∧ a.root.dn ≠ s.fd F.ROUTE_SELF_DN_DN ∧ s.inv.root = none ∧ s.inv.state =
      .listen) ∧
    (∃ (s : State) (p : Nat) (a : Announce) (v : RootView), s.timePort p = true ∧ a.root.dn ≠ s.fd F.ROUTE_SELF_DN_DN ∧ s.inv.root = some v
      ∧ a.root.dn = v.cand.dn ∧ a.gen = v.gen ∧ seqNewer a.seq v.seq = false) ∧
    (∃ (s : State) (v : RootView), s.inv.root = some v ∧ s.inv.staleAt = none ∧ s.inv.state ≠ .root ∧ s.invOn = true ∧ s.inSafe = false ∧ 3
      * s.annInt ≤ s.locSince v.heardAt ∧ s.isStandby = true ∧ (s.inv.state = .track ∨ s.inv.state = .holdover)) ∧
    (∃ (s : State) (v : RootView), s.inv.root = some v ∧ s.inv.staleAt = none ∧ s.inv.state ≠ .root ∧ s.invOn = true ∧ s.inSafe = false ∧ 3
      * s.annInt ≤ s.locSince v.heardAt ∧ s.isStandby = false) ∧
    (∃ (s : State) (w : Word) (dn : Option Nat), (s.inv.await = some (w, dn) ∧ s.inSafe = false ∧ s.eligible = true ∧ 8 * s.annInt ≤
      s.locSince w ∧ (s.inv.state = .track ∨ s.inv.state = .holdover)) ∧ (∀ v, s.rootView = some v → candBeats v.cand s.ownCand = false) ∧
      (∀ e ∈ s.inv.ports, ∀ a, e.2.heard = some a → a.standby = none)) ∧
    (∃ (s : State) (w : Word) (dn : Option Nat) (v : RootView), s.inv.await = some (w, dn) ∧ s.inSafe = false ∧ 8 * s.annInt ≤ s.locSince w
      ∧ s.rootView = some v ∧ candBeats v.cand s.ownCand = true) ∧
    (∃ (s : State), (s.inv.state = .listen ∧ s.inSafe = false ∧ 4 * s.annInt ≤ s.locSince s.inv.enteredAt ∧ s.eligible = true) ∧ (∀ v,
      s.rootView = some v → candBeats s.ownCand v.cand = true)) :=
  ⟨⟨tm (fun i => {i with root := some rv}) (timed .root up), by decide +kernel⟩,
   ⟨timed .listen up, 2, ann, by decide +kernel⟩,
   ⟨tm (fun i => {i with root := some rv}) (timed .track up), 2, ann, rv, by decide +kernel⟩,
   ⟨tm (fun i => {i with root := some rv, standby := some {dn := 0, prio := 128, holdover := false, ext := false}}) (timed .track (up.fset F.INV_CTRL_ROOT_ELIGIBLE [] true)), rv, by decide +kernel⟩,
   ⟨tm (fun i => {i with root := some rv}) (timed .track up), rv, by decide +kernel⟩,
   ⟨tm (fun i => {i with await := some (0, none)}) (at_ 50000000 (timed .track (up.fset F.INV_CTRL_ROOT_ELIGIBLE [] true))), 0, none, by decide +kernel, of_all (by decide +kernel), fun e he => of_all ((by decide +kernel : ∀ e ∈ (((tm (fun i => {i with await := some (0, none)}) (at_ 50000000 (timed .track (up.fset F.INV_CTRL_ROOT_ELIGIBLE [] true)))))).inv.ports, (e.2.heard.all fun a => decide (a.standby = none)) = true) e he)⟩,
   ⟨tm (fun i => {i with root := some rv, await := some (0, some 4)}) (at_ 50000000 (timed .track (up.fset F.INV_CTRL_ROOT_ELIGIBLE [] true))), 0, some 4, rv, by decide +kernel⟩,
   ⟨at_ 50000000 (tm (fun i => {i with enteredAt := 0}) (timed .listen (up.fset F.INV_CTRL_ROOT_ELIGIBLE [] true))), by decide +kernel, of_all (by decide +kernel)⟩⟩
theorem witness_RootElection_2 :
    (∃ (s : State) (p : Nat), (s.inv.state = .listen ∧ s.inSafe = false ∧ 4 * s.annInt ≤ s.locSince s.inv.enteredAt ∧ s.bestParent = some p)
      ∧ (s.eligible = false ∨ ∃ v, s.rootView = some v ∧ candBeats s.ownCand v.cand = false)) :=
  ⟨at_ 50000000 (tm (fun i => {i with root := some rv}) ((timed .listen up).setPtime 2 {PortTime.init with heard := some ann, heardAt := 49999999})), 2, by decide +kernel, .inl (by decide +kernel)⟩
theorem witness_TimeStates_1 :
    (∃ (s : State), s.inv.state = .acquire ∧ s.inSafe = false ∧ s.inv.stepped = false ∧ 16 ≤ s.inv.acqCount) ∧
    (∃ (s : State) (p : Nat), s.inv.parent = some p ∧ s.inSafe = false ∧ s.inv.state = .acquire ∧ s.inv.stepped = true ∧ 64 ≤ (s.ptime
      p).seen ∧ 16 ≤ s.inv.goodRun) ∧
    (∃ (s : State) (p : Nat), s.inv.parent = some p ∧ s.inSafe = false ∧ s.parentGone p = true) ∧
    (∃ (s : State) (p : Nat), s.inv.state = .holdover ∧ s.inSafe = false ∧ s.inv.parent = some p ∧ 16 ≤ s.inv.goodRun) ∧
    (∃ (s : State), s.inv.state = .holdover ∧ s.inSafe = false ∧ s.inv.holdLong = false ∧ (s.rd R.INV_HOLD_LIMIT).toNat * 1000 * ticksPerUs
      < s.locSince s.inv.enteredAt) ∧
    (∃ (s : State), s.inv.state = .root ∧ s.inSafe = false ∧ s.fb F.INV_CTRL_PPS_EN = true) ∧
    (∃ (s : State), s.inv.state = .root ∧ s.inSafe = false ∧ s.fb F.INV_CTRL_PPS_EN = true) ∧
    (∃ (s : State), s.inSafe = false ∧ (s.inv.state ≠ .root ∨ s.fb F.INV_CTRL_PPS_EN = false)) :=
  ⟨⟨tm (fun i => {i with acqCount := 16, parent := some 2}) (timed .acquire up), by decide +kernel⟩,
   ⟨(tm (fun i => {i with parent := some 2, stepped := true, goodRun := 16}) (timed .acquire up)).setPtime 2 {PortTime.init with seen := 64}, 2, by decide +kernel⟩,
   ⟨tm (fun i => {i with parent := some 3}) (timed .track up), 3, by decide +kernel⟩,
   ⟨tm (fun i => {i with parent := some 2, goodRun := 16}) (timed .holdover up), 2, by decide +kernel⟩,
   ⟨at_ 4000000000000 (tm (fun i => {i with state := .holdover}) (timed .holdover up)), by decide +kernel⟩,
   ⟨(timed .root up).fset F.INV_CTRL_PPS_EN [] true, by decide +kernel⟩,
   ⟨(tm (fun i => { i with ppsAligned := true, ft := 7000100 }) ((timed .root up).fset F.INV_CTRL_PPS_EN [] true)).wr R.INV_SLEW_MAX [] 10, by decide +kernel⟩,
   ⟨timed .track up, by decide +kernel⟩⟩
theorem witness_TimeStates_2 :
    (∃ (s : State), s.inSafe = false ∧ (s.inv.state ≠ .root ∨ s.fb F.INV_CTRL_PPS_EN = false)) ∧
    (∃ (s : State) (l : Word), s.inv.ppsLast = some l ∧ s.inSafe = false ∧ s.inv.state = .root ∧ 1100000 * ticksPerUs ≤ s.locSince l) ∧
    (∃ (s : State), s.inSafe = false) ∧
    (∃ (s : State), s.fb F.INV_CTRL_PPSOUT_EN = true ∧ s.ftValid = true ∧ s.inSafe = false ∧ (s.ft.toNat + 4000000000 - (s.rd
      R.INV_PPSOUT_OFFSET).toNat % 4000000000) % 4000000000 = 0) ∧
    (∃ (s : State) (v : Word), s.inv.ppsOutEnd = some v ∧ (s.ftReached v = true ∨ s.ftValid = false)) :=
  ⟨⟨timed .root up, by decide +kernel⟩,
   ⟨at_ 5000000000 (tm (fun i => {i with ppsLast := some 0}) (timed .root up)), 0, by decide +kernel⟩,
   ⟨up, by decide +kernel⟩,
   ⟨tm (fun i => {i with ft := 4000000000}) ((timed .track up).fset F.INV_CTRL_PPSOUT_EN [] true), by decide +kernel⟩,
   ⟨tm (fun i => {i with ppsOutEnd := some 5}) (timed .track up), 5, by decide +kernel⟩⟩
theorem witness_IntegerInstructions_1 :
    (∃ (s : State) (t : Nat) (rs1 : Nat) (rs2 : Nat) (fn : Nat) (a : Word) (b : Word) (v : Word), s.issues t 4 0 [rs1 % 32, rs2 % 32] ∧ a =
      s.reg t (rs1 % 32) ∧ b = s.reg t (rs2 % 32) ∧ ((fn, v) ∈ [(0x00, w64 (a.toNat + b.toNat)), (0x01, w64 (a.toNat + 2 ^ 64 - b.toNat)),
      (0x02, a &&& b), (0x03, a ||| b), (0x04, a ^^^ b), (0x05, w64 (a.toNat * 2 ^ (b.toNat % 64))), (0x06, w64 (a.toNat / 2 ^ (b.toNat %
      64))), (0x07, BitVec.ofInt 64 (a.toInt / (2 ^ (b.toNat % 64) : Nat))), (0x08, if a.toInt < b.toInt then 1 else 0), (0x09, if a.toNat <
      b.toNat then 1 else 0), (0x0A, BitVec.ofInt 64 (min a.toInt b.toInt)), (0x0B, BitVec.ofInt 64 (max a.toInt b.toInt)), (0x0C, w64 (min
      a.toNat b.toNat)), (0x0D, w64 (max a.toNat b.toNat)), (0x11, a &&& ~~~ b), (0x400, BitVec.ofInt 64 (toSigned 32 (a.toNat + b.toNat))),
      (0x401, BitVec.ofInt 64 (toSigned 32 (a.toNat + 2 ^ 64 - b.toNat))), (0x405, BitVec.ofInt 64 (toSigned 32 (a.toNat * 2 ^ (b.toNat %
      32)))), (0x406, BitVec.ofInt 64 (toSigned 32 (a.toNat % 2 ^ 32 / 2 ^ (b.toNat % 32)))), (0x407, BitVec.ofInt 64 (toSigned 32 a.toNat /
      (2 ^ (b.toNat % 32) : Nat)))] ∨ (rs2 % 32 = 0 ∧ (fn, v) ∈ [ (0x0E, if a = 0 then 64 else w64 (63 - a.toNat.log2)), (0x10, w64
      ((List.range 64).filter fun i => a.getLsbD i).length), (0x12, w64 (leNat (leBytes 8 a.toNat).reverse)), (0x40E, if a.toNat % 2 ^ 32 =
      0 then 32 else w64 (31 - (a.toNat % 2 ^ 32).log2)), (0x410, w64 ((List.range 32).filter fun i => a.getLsbD i).length)]) ∨ (rs2 % 32 =
      0 ∧ fn = 0x0F ∧ v.toNat ≤ 64 ∧ (∀ i, i < v.toNat → a.getLsbD i = false) ∧ (v.toNat < 64 → a.getLsbD v.toNat = true)))) ∧
    (∃ (s : State) (t : Nat) (rs1 : Nat) (rs2 : Nat) (fn : Nat) (a : Word) (b : Word) (v : Word), s.issues t 4 0 [rs1 % 32, rs2 % 32] ∧ a =
      s.reg t (rs1 % 32) ∧ b = s.reg t (rs2 % 32) ∧ ((fn, v) ∈ [(0x00, w64 (a.toNat + b.toNat)), (0x01, w64 (a.toNat + 2 ^ 64 - b.toNat)),
      (0x02, a &&& b), (0x03, a ||| b), (0x04, a ^^^ b), (0x05, w64 (a.toNat * 2 ^ (b.toNat % 64))), (0x06, w64 (a.toNat / 2 ^ (b.toNat %
      64))), (0x07, BitVec.ofInt 64 (a.toInt / (2 ^ (b.toNat % 64) : Nat))), (0x08, if a.toInt < b.toInt then 1 else 0), (0x09, if a.toNat <
      b.toNat then 1 else 0), (0x0A, BitVec.ofInt 64 (min a.toInt b.toInt)), (0x0B, BitVec.ofInt 64 (max a.toInt b.toInt)), (0x0C, w64 (min
      a.toNat b.toNat)), (0x0D, w64 (max a.toNat b.toNat)), (0x11, a &&& ~~~ b), (0x400, BitVec.ofInt 64 (toSigned 32 (a.toNat + b.toNat))),
      (0x401, BitVec.ofInt 64 (toSigned 32 (a.toNat + 2 ^ 64 - b.toNat))), (0x405, BitVec.ofInt 64 (toSigned 32 (a.toNat * 2 ^ (b.toNat %
      32)))), (0x406, BitVec.ofInt 64 (toSigned 32 (a.toNat % 2 ^ 32 / 2 ^ (b.toNat % 32)))), (0x407, BitVec.ofInt 64 (toSigned 32 a.toNat /
      (2 ^ (b.toNat % 32) : Nat)))] ∨ (rs2 % 32 = 0 ∧ (fn, v) ∈ [ (0x0E, if a = 0 then 64 else w64 (63 - a.toNat.log2)), (0x10, w64
      ((List.range 64).filter fun i => a.getLsbD i).length), (0x12, w64 (leNat (leBytes 8 a.toNat).reverse)), (0x40E, if a.toNat % 2 ^ 32 =
      0 then 32 else w64 (31 - (a.toNat % 2 ^ 32).log2)), (0x410, w64 ((List.range 32).filter fun i => a.getLsbD i).length)]) ∨ (rs2 % 32 =
      0 ∧ fn = 0x0F ∧ v.toNat ≤ 64 ∧ (∀ i, i < v.toNat → a.getLsbD i = false) ∧ (v.toNat < 64 → a.getLsbD v.toNat = true)))) ∧
    (∃ (s : State) (t : Nat) (rs1 : Nat) (rs2 : Nat) (fn : Nat) (a : Word) (b : Word) (v : Word), s.issues t 4 0 [rs1 % 32, rs2 % 32] ∧ a =
      s.reg t (rs1 % 32) ∧ b = s.reg t (rs2 % 32) ∧ ((fn, v) ∈ [(0x00, w64 (a.toNat + b.toNat)), (0x01, w64 (a.toNat + 2 ^ 64 - b.toNat)),
      (0x02, a &&& b), (0x03, a ||| b), (0x04, a ^^^ b), (0x05, w64 (a.toNat * 2 ^ (b.toNat % 64))), (0x06, w64 (a.toNat / 2 ^ (b.toNat %
      64))), (0x07, BitVec.ofInt 64 (a.toInt / (2 ^ (b.toNat % 64) : Nat))), (0x08, if a.toInt < b.toInt then 1 else 0), (0x09, if a.toNat <
      b.toNat then 1 else 0), (0x0A, BitVec.ofInt 64 (min a.toInt b.toInt)), (0x0B, BitVec.ofInt 64 (max a.toInt b.toInt)), (0x0C, w64 (min
      a.toNat b.toNat)), (0x0D, w64 (max a.toNat b.toNat)), (0x11, a &&& ~~~ b), (0x400, BitVec.ofInt 64 (toSigned 32 (a.toNat + b.toNat))),
      (0x401, BitVec.ofInt 64 (toSigned 32 (a.toNat + 2 ^ 64 - b.toNat))), (0x405, BitVec.ofInt 64 (toSigned 32 (a.toNat * 2 ^ (b.toNat %
      32)))), (0x406, BitVec.ofInt 64 (toSigned 32 (a.toNat % 2 ^ 32 / 2 ^ (b.toNat % 32)))), (0x407, BitVec.ofInt 64 (toSigned 32 a.toNat /
      (2 ^ (b.toNat % 32) : Nat)))] ∨ (rs2 % 32 = 0 ∧ (fn, v) ∈ [ (0x0E, if a = 0 then 64 else w64 (63 - a.toNat.log2)), (0x10, w64
      ((List.range 64).filter fun i => a.getLsbD i).length), (0x12, w64 (leNat (leBytes 8 a.toNat).reverse)), (0x40E, if a.toNat % 2 ^ 32 =
      0 then 32 else w64 (31 - (a.toNat % 2 ^ 32).log2)), (0x410, w64 ((List.range 32).filter fun i => a.getLsbD i).length)]) ∨ (rs2 % 32 =
      0 ∧ fn = 0x0F ∧ v.toNat ≤ 64 ∧ (∀ i, i < v.toNat → a.getLsbD i = false) ∧ (v.toNat < 64 → a.getLsbD v.toNat = true)))) ∧
    (∃ (s : State) (t : Nat) (rs1 : Nat) (rs2 : Nat) (fn : Nat) (a : Word) (b : Word) (v : Word), s.issues t 4 0 [rs1 % 32, rs2 % 32] ∧ a =
      s.reg t (rs1 % 32) ∧ b = s.reg t (rs2 % 32) ∧ ((fn, v) ∈ [(0x00, w64 (a.toNat + b.toNat)), (0x01, w64 (a.toNat + 2 ^ 64 - b.toNat)),
      (0x02, a &&& b), (0x03, a ||| b), (0x04, a ^^^ b), (0x05, w64 (a.toNat * 2 ^ (b.toNat % 64))), (0x06, w64 (a.toNat / 2 ^ (b.toNat %
      64))), (0x07, BitVec.ofInt 64 (a.toInt / (2 ^ (b.toNat % 64) : Nat))), (0x08, if a.toInt < b.toInt then 1 else 0), (0x09, if a.toNat <
      b.toNat then 1 else 0), (0x0A, BitVec.ofInt 64 (min a.toInt b.toInt)), (0x0B, BitVec.ofInt 64 (max a.toInt b.toInt)), (0x0C, w64 (min
      a.toNat b.toNat)), (0x0D, w64 (max a.toNat b.toNat)), (0x11, a &&& ~~~ b), (0x400, BitVec.ofInt 64 (toSigned 32 (a.toNat + b.toNat))),
      (0x401, BitVec.ofInt 64 (toSigned 32 (a.toNat + 2 ^ 64 - b.toNat))), (0x405, BitVec.ofInt 64 (toSigned 32 (a.toNat * 2 ^ (b.toNat %
      32)))), (0x406, BitVec.ofInt 64 (toSigned 32 (a.toNat % 2 ^ 32 / 2 ^ (b.toNat % 32)))), (0x407, BitVec.ofInt 64 (toSigned 32 a.toNat /
      (2 ^ (b.toNat % 32) : Nat)))] ∨ (rs2 % 32 = 0 ∧ (fn, v) ∈ [ (0x0E, if a = 0 then 64 else w64 (63 - a.toNat.log2)), (0x10, w64
      ((List.range 64).filter fun i => a.getLsbD i).length), (0x12, w64 (leNat (leBytes 8 a.toNat).reverse)), (0x40E, if a.toNat % 2 ^ 32 =
      0 then 32 else w64 (31 - (a.toNat % 2 ^ 32).log2)), (0x410, w64 ((List.range 32).filter fun i => a.getLsbD i).length)]) ∨ (rs2 % 32 =
      0 ∧ fn = 0x0F ∧ v.toNat ≤ 64 ∧ (∀ i, i < v.toNat → a.getLsbD i = false) ∧ (v.toNat < 64 → a.getLsbD v.toNat = true)))) ∧
    (∃ (s : State) (t : Nat) (rs1 : Nat) (rs2 : Nat) (fn : Nat) (a : Word) (b : Word) (v : Word), s.issues t 4 0 [rs1 % 32, rs2 % 32] ∧ a =
      s.reg t (rs1 % 32) ∧ b = s.reg t (rs2 % 32) ∧ ((fn, v) ∈ [(0x00, w64 (a.toNat + b.toNat)), (0x01, w64 (a.toNat + 2 ^ 64 - b.toNat)),
      (0x02, a &&& b), (0x03, a ||| b), (0x04, a ^^^ b), (0x05, w64 (a.toNat * 2 ^ (b.toNat % 64))), (0x06, w64 (a.toNat / 2 ^ (b.toNat %
      64))), (0x07, BitVec.ofInt 64 (a.toInt / (2 ^ (b.toNat % 64) : Nat))), (0x08, if a.toInt < b.toInt then 1 else 0), (0x09, if a.toNat <
      b.toNat then 1 else 0), (0x0A, BitVec.ofInt 64 (min a.toInt b.toInt)), (0x0B, BitVec.ofInt 64 (max a.toInt b.toInt)), (0x0C, w64 (min
      a.toNat b.toNat)), (0x0D, w64 (max a.toNat b.toNat)), (0x11, a &&& ~~~ b), (0x400, BitVec.ofInt 64 (toSigned 32 (a.toNat + b.toNat))),
      (0x401, BitVec.ofInt 64 (toSigned 32 (a.toNat + 2 ^ 64 - b.toNat))), (0x405, BitVec.ofInt 64 (toSigned 32 (a.toNat * 2 ^ (b.toNat %
      32)))), (0x406, BitVec.ofInt 64 (toSigned 32 (a.toNat % 2 ^ 32 / 2 ^ (b.toNat % 32)))), (0x407, BitVec.ofInt 64 (toSigned 32 a.toNat /
      (2 ^ (b.toNat % 32) : Nat)))] ∨ (rs2 % 32 = 0 ∧ (fn, v) ∈ [ (0x0E, if a = 0 then 64 else w64 (63 - a.toNat.log2)), (0x10, w64
      ((List.range 64).filter fun i => a.getLsbD i).length), (0x12, w64 (leNat (leBytes 8 a.toNat).reverse)), (0x40E, if a.toNat % 2 ^ 32 =
      0 then 32 else w64 (31 - (a.toNat % 2 ^ 32).log2)), (0x410, w64 ((List.range 32).filter fun i => a.getLsbD i).length)]) ∨ (rs2 % 32 =
      0 ∧ fn = 0x0F ∧ v.toNat ≤ 64 ∧ (∀ i, i < v.toNat → a.getLsbD i = false) ∧ (v.toNat < 64 → a.getLsbD v.toNat = true)))) ∧
    (∃ (s : State) (t : Nat) (rs1 : Nat) (rs2 : Nat) (fn : Nat) (a : Word) (b : Word) (v : Word), s.issues t 4 0 [rs1 % 32, rs2 % 32] ∧ a =
      s.reg t (rs1 % 32) ∧ b = s.reg t (rs2 % 32) ∧ ((fn, v) ∈ [(0x00, w64 (a.toNat + b.toNat)), (0x01, w64 (a.toNat + 2 ^ 64 - b.toNat)),
      (0x02, a &&& b), (0x03, a ||| b), (0x04, a ^^^ b), (0x05, w64 (a.toNat * 2 ^ (b.toNat % 64))), (0x06, w64 (a.toNat / 2 ^ (b.toNat %
      64))), (0x07, BitVec.ofInt 64 (a.toInt / (2 ^ (b.toNat % 64) : Nat))), (0x08, if a.toInt < b.toInt then 1 else 0), (0x09, if a.toNat <
      b.toNat then 1 else 0), (0x0A, BitVec.ofInt 64 (min a.toInt b.toInt)), (0x0B, BitVec.ofInt 64 (max a.toInt b.toInt)), (0x0C, w64 (min
      a.toNat b.toNat)), (0x0D, w64 (max a.toNat b.toNat)), (0x11, a &&& ~~~ b), (0x400, BitVec.ofInt 64 (toSigned 32 (a.toNat + b.toNat))),
      (0x401, BitVec.ofInt 64 (toSigned 32 (a.toNat + 2 ^ 64 - b.toNat))), (0x405, BitVec.ofInt 64 (toSigned 32 (a.toNat * 2 ^ (b.toNat %
      32)))), (0x406, BitVec.ofInt 64 (toSigned 32 (a.toNat % 2 ^ 32 / 2 ^ (b.toNat % 32)))), (0x407, BitVec.ofInt 64 (toSigned 32 a.toNat /
      (2 ^ (b.toNat % 32) : Nat)))] ∨ (rs2 % 32 = 0 ∧ (fn, v) ∈ [ (0x0E, if a = 0 then 64 else w64 (63 - a.toNat.log2)), (0x10, w64
      ((List.range 64).filter fun i => a.getLsbD i).length), (0x12, w64 (leNat (leBytes 8 a.toNat).reverse)), (0x40E, if a.toNat % 2 ^ 32 =
      0 then 32 else w64 (31 - (a.toNat % 2 ^ 32).log2)), (0x410, w64 ((List.range 32).filter fun i => a.getLsbD i).length)]) ∨ (rs2 % 32 =
      0 ∧ fn = 0x0F ∧ v.toNat ≤ 64 ∧ (∀ i, i < v.toNat → a.getLsbD i = false) ∧ (v.toNat < 64 → a.getLsbD v.toNat = true)))) ∧
    (∃ (s : State) (t : Nat) (rs1 : Nat) (rs2 : Nat) (fn : Nat) (a : Word) (b : Word) (v : Word), s.issues t 4 0 [rs1 % 32, rs2 % 32] ∧ a =
      s.reg t (rs1 % 32) ∧ b = s.reg t (rs2 % 32) ∧ ((fn, v) ∈ [(0x00, w64 (a.toNat + b.toNat)), (0x01, w64 (a.toNat + 2 ^ 64 - b.toNat)),
      (0x02, a &&& b), (0x03, a ||| b), (0x04, a ^^^ b), (0x05, w64 (a.toNat * 2 ^ (b.toNat % 64))), (0x06, w64 (a.toNat / 2 ^ (b.toNat %
      64))), (0x07, BitVec.ofInt 64 (a.toInt / (2 ^ (b.toNat % 64) : Nat))), (0x08, if a.toInt < b.toInt then 1 else 0), (0x09, if a.toNat <
      b.toNat then 1 else 0), (0x0A, BitVec.ofInt 64 (min a.toInt b.toInt)), (0x0B, BitVec.ofInt 64 (max a.toInt b.toInt)), (0x0C, w64 (min
      a.toNat b.toNat)), (0x0D, w64 (max a.toNat b.toNat)), (0x11, a &&& ~~~ b), (0x400, BitVec.ofInt 64 (toSigned 32 (a.toNat + b.toNat))),
      (0x401, BitVec.ofInt 64 (toSigned 32 (a.toNat + 2 ^ 64 - b.toNat))), (0x405, BitVec.ofInt 64 (toSigned 32 (a.toNat * 2 ^ (b.toNat %
      32)))), (0x406, BitVec.ofInt 64 (toSigned 32 (a.toNat % 2 ^ 32 / 2 ^ (b.toNat % 32)))), (0x407, BitVec.ofInt 64 (toSigned 32 a.toNat /
      (2 ^ (b.toNat % 32) : Nat)))] ∨ (rs2 % 32 = 0 ∧ (fn, v) ∈ [ (0x0E, if a = 0 then 64 else w64 (63 - a.toNat.log2)), (0x10, w64
      ((List.range 64).filter fun i => a.getLsbD i).length), (0x12, w64 (leNat (leBytes 8 a.toNat).reverse)), (0x40E, if a.toNat % 2 ^ 32 =
      0 then 32 else w64 (31 - (a.toNat % 2 ^ 32).log2)), (0x410, w64 ((List.range 32).filter fun i => a.getLsbD i).length)]) ∨ (rs2 % 32 =
      0 ∧ fn = 0x0F ∧ v.toNat ≤ 64 ∧ (∀ i, i < v.toNat → a.getLsbD i = false) ∧ (v.toNat < 64 → a.getLsbD v.toNat = true)))) ∧
    (∃ (s : State) (t : Nat) (rs1 : Nat) (rs2 : Nat) (fn : Nat) (a : Word) (b : Word) (v : Word), s.issues t 4 0 [rs1 % 32, rs2 % 32] ∧ a =
      s.reg t (rs1 % 32) ∧ b = s.reg t (rs2 % 32) ∧ ((fn, v) ∈ [(0x00, w64 (a.toNat + b.toNat)), (0x01, w64 (a.toNat + 2 ^ 64 - b.toNat)),
      (0x02, a &&& b), (0x03, a ||| b), (0x04, a ^^^ b), (0x05, w64 (a.toNat * 2 ^ (b.toNat % 64))), (0x06, w64 (a.toNat / 2 ^ (b.toNat %
      64))), (0x07, BitVec.ofInt 64 (a.toInt / (2 ^ (b.toNat % 64) : Nat))), (0x08, if a.toInt < b.toInt then 1 else 0), (0x09, if a.toNat <
      b.toNat then 1 else 0), (0x0A, BitVec.ofInt 64 (min a.toInt b.toInt)), (0x0B, BitVec.ofInt 64 (max a.toInt b.toInt)), (0x0C, w64 (min
      a.toNat b.toNat)), (0x0D, w64 (max a.toNat b.toNat)), (0x11, a &&& ~~~ b), (0x400, BitVec.ofInt 64 (toSigned 32 (a.toNat + b.toNat))),
      (0x401, BitVec.ofInt 64 (toSigned 32 (a.toNat + 2 ^ 64 - b.toNat))), (0x405, BitVec.ofInt 64 (toSigned 32 (a.toNat * 2 ^ (b.toNat %
      32)))), (0x406, BitVec.ofInt 64 (toSigned 32 (a.toNat % 2 ^ 32 / 2 ^ (b.toNat % 32)))), (0x407, BitVec.ofInt 64 (toSigned 32 a.toNat /
      (2 ^ (b.toNat % 32) : Nat)))] ∨ (rs2 % 32 = 0 ∧ (fn, v) ∈ [ (0x0E, if a = 0 then 64 else w64 (63 - a.toNat.log2)), (0x10, w64
      ((List.range 64).filter fun i => a.getLsbD i).length), (0x12, w64 (leNat (leBytes 8 a.toNat).reverse)), (0x40E, if a.toNat % 2 ^ 32 =
      0 then 32 else w64 (31 - (a.toNat % 2 ^ 32).log2)), (0x410, w64 ((List.range 32).filter fun i => a.getLsbD i).length)]) ∨ (rs2 % 32 =
      0 ∧ fn = 0x0F ∧ v.toNat ≤ 64 ∧ (∀ i, i < v.toNat → a.getLsbD i = false) ∧ (v.toNat < 64 → a.getLsbD v.toNat = true)))) :=
  ⟨⟨ci 0 [(1,A),(2,B)], 0, 1, 2, 0, A, B, A+B, by unfold State.issues; decide +kernel⟩,
   ⟨ci 0 [(1,A),(2,B)], 0, 1, 2, 1, A, B, A-B, by unfold State.issues; decide +kernel⟩,
   ⟨ci 0 [(1,A),(2,B)], 0, 1, 2, 2, A, B, 1, by unfold State.issues; decide +kernel⟩,
   ⟨ci 0 [(1,A),(2,B)], 0, 1, 2, 7, A, B, 0xF000000000000000, by unfold State.issues; decide +kernel⟩,
   ⟨ci 0 [(1,A),(2,B)], 0, 1, 2, 8, A, B, 1, by unfold State.issues; decide +kernel⟩,
   ⟨ci 0 [(1,A),(2,B)], 0, 1, 2, 10, A, B, A, by unfold State.issues; decide +kernel⟩,
   ⟨ci 0 [(1,A),(2,B)], 0, 1, 2, 13, A, B, A, by unfold State.issues; decide +kernel⟩,
   ⟨ci 0 [(1,A),(2,B)], 0, 1, 2, 17, A, B, A &&& ~~~B, by unfold State.issues; decide +kernel⟩⟩
theorem witness_IntegerInstructions_2 :
    (∃ (s : State) (t : Nat) (rs1 : Nat) (rs2 : Nat) (fn : Nat) (a : Word) (b : Word) (v : Word), s.issues t 4 0 [rs1 % 32, rs2 % 32] ∧ a =
      s.reg t (rs1 % 32) ∧ b = s.reg t (rs2 % 32) ∧ ((fn, v) ∈ [(0x00, w64 (a.toNat + b.toNat)), (0x01, w64 (a.toNat + 2 ^ 64 - b.toNat)),
      (0x02, a &&& b), (0x03, a ||| b), (0x04, a ^^^ b), (0x05, w64 (a.toNat * 2 ^ (b.toNat % 64))), (0x06, w64 (a.toNat / 2 ^ (b.toNat %
      64))), (0x07, BitVec.ofInt 64 (a.toInt / (2 ^ (b.toNat % 64) : Nat))), (0x08, if a.toInt < b.toInt then 1 else 0), (0x09, if a.toNat <
      b.toNat then 1 else 0), (0x0A, BitVec.ofInt 64 (min a.toInt b.toInt)), (0x0B, BitVec.ofInt 64 (max a.toInt b.toInt)), (0x0C, w64 (min
      a.toNat b.toNat)), (0x0D, w64 (max a.toNat b.toNat)), (0x11, a &&& ~~~ b), (0x400, BitVec.ofInt 64 (toSigned 32 (a.toNat + b.toNat))),
      (0x401, BitVec.ofInt 64 (toSigned 32 (a.toNat + 2 ^ 64 - b.toNat))), (0x405, BitVec.ofInt 64 (toSigned 32 (a.toNat * 2 ^ (b.toNat %
      32)))), (0x406, BitVec.ofInt 64 (toSigned 32 (a.toNat % 2 ^ 32 / 2 ^ (b.toNat % 32)))), (0x407, BitVec.ofInt 64 (toSigned 32 a.toNat /
      (2 ^ (b.toNat % 32) : Nat)))] ∨ (rs2 % 32 = 0 ∧ (fn, v) ∈ [ (0x0E, if a = 0 then 64 else w64 (63 - a.toNat.log2)), (0x10, w64
      ((List.range 64).filter fun i => a.getLsbD i).length), (0x12, w64 (leNat (leBytes 8 a.toNat).reverse)), (0x40E, if a.toNat % 2 ^ 32 =
      0 then 32 else w64 (31 - (a.toNat % 2 ^ 32).log2)), (0x410, w64 ((List.range 32).filter fun i => a.getLsbD i).length)]) ∨ (rs2 % 32 =
      0 ∧ fn = 0x0F ∧ v.toNat ≤ 64 ∧ (∀ i, i < v.toNat → a.getLsbD i = false) ∧ (v.toNat < 64 → a.getLsbD v.toNat = true)))) ∧
    (∃ (s : State) (t : Nat) (rs1 : Nat) (rs2 : Nat) (fn : Nat) (a : Word) (b : Word) (v : Word), s.issues t 4 0 [rs1 % 32, rs2 % 32] ∧ a =
      s.reg t (rs1 % 32) ∧ b = s.reg t (rs2 % 32) ∧ ((fn, v) ∈ [(0x00, w64 (a.toNat + b.toNat)), (0x01, w64 (a.toNat + 2 ^ 64 - b.toNat)),
      (0x02, a &&& b), (0x03, a ||| b), (0x04, a ^^^ b), (0x05, w64 (a.toNat * 2 ^ (b.toNat % 64))), (0x06, w64 (a.toNat / 2 ^ (b.toNat %
      64))), (0x07, BitVec.ofInt 64 (a.toInt / (2 ^ (b.toNat % 64) : Nat))), (0x08, if a.toInt < b.toInt then 1 else 0), (0x09, if a.toNat <
      b.toNat then 1 else 0), (0x0A, BitVec.ofInt 64 (min a.toInt b.toInt)), (0x0B, BitVec.ofInt 64 (max a.toInt b.toInt)), (0x0C, w64 (min
      a.toNat b.toNat)), (0x0D, w64 (max a.toNat b.toNat)), (0x11, a &&& ~~~ b), (0x400, BitVec.ofInt 64 (toSigned 32 (a.toNat + b.toNat))),
      (0x401, BitVec.ofInt 64 (toSigned 32 (a.toNat + 2 ^ 64 - b.toNat))), (0x405, BitVec.ofInt 64 (toSigned 32 (a.toNat * 2 ^ (b.toNat %
      32)))), (0x406, BitVec.ofInt 64 (toSigned 32 (a.toNat % 2 ^ 32 / 2 ^ (b.toNat % 32)))), (0x407, BitVec.ofInt 64 (toSigned 32 a.toNat /
      (2 ^ (b.toNat % 32) : Nat)))] ∨ (rs2 % 32 = 0 ∧ (fn, v) ∈ [ (0x0E, if a = 0 then 64 else w64 (63 - a.toNat.log2)), (0x10, w64
      ((List.range 64).filter fun i => a.getLsbD i).length), (0x12, w64 (leNat (leBytes 8 a.toNat).reverse)), (0x40E, if a.toNat % 2 ^ 32 =
      0 then 32 else w64 (31 - (a.toNat % 2 ^ 32).log2)), (0x410, w64 ((List.range 32).filter fun i => a.getLsbD i).length)]) ∨ (rs2 % 32 =
      0 ∧ fn = 0x0F ∧ v.toNat ≤ 64 ∧ (∀ i, i < v.toNat → a.getLsbD i = false) ∧ (v.toNat < 64 → a.getLsbD v.toNat = true)))) ∧
    (∃ (s : State) (t : Nat) (rs1 : Nat) (rs2 : Nat) (fn : Nat) (a : Word) (b : Word) (v : Word), s.issues t 4 0 [rs1 % 32, rs2 % 32] ∧ a =
      s.reg t (rs1 % 32) ∧ b = s.reg t (rs2 % 32) ∧ ((fn, v) ∈ [(0x00, w64 (a.toNat + b.toNat)), (0x01, w64 (a.toNat + 2 ^ 64 - b.toNat)),
      (0x02, a &&& b), (0x03, a ||| b), (0x04, a ^^^ b), (0x05, w64 (a.toNat * 2 ^ (b.toNat % 64))), (0x06, w64 (a.toNat / 2 ^ (b.toNat %
      64))), (0x07, BitVec.ofInt 64 (a.toInt / (2 ^ (b.toNat % 64) : Nat))), (0x08, if a.toInt < b.toInt then 1 else 0), (0x09, if a.toNat <
      b.toNat then 1 else 0), (0x0A, BitVec.ofInt 64 (min a.toInt b.toInt)), (0x0B, BitVec.ofInt 64 (max a.toInt b.toInt)), (0x0C, w64 (min
      a.toNat b.toNat)), (0x0D, w64 (max a.toNat b.toNat)), (0x11, a &&& ~~~ b), (0x400, BitVec.ofInt 64 (toSigned 32 (a.toNat + b.toNat))),
      (0x401, BitVec.ofInt 64 (toSigned 32 (a.toNat + 2 ^ 64 - b.toNat))), (0x405, BitVec.ofInt 64 (toSigned 32 (a.toNat * 2 ^ (b.toNat %
      32)))), (0x406, BitVec.ofInt 64 (toSigned 32 (a.toNat % 2 ^ 32 / 2 ^ (b.toNat % 32)))), (0x407, BitVec.ofInt 64 (toSigned 32 a.toNat /
      (2 ^ (b.toNat % 32) : Nat)))] ∨ (rs2 % 32 = 0 ∧ (fn, v) ∈ [ (0x0E, if a = 0 then 64 else w64 (63 - a.toNat.log2)), (0x10, w64
      ((List.range 64).filter fun i => a.getLsbD i).length), (0x12, w64 (leNat (leBytes 8 a.toNat).reverse)), (0x40E, if a.toNat % 2 ^ 32 =
      0 then 32 else w64 (31 - (a.toNat % 2 ^ 32).log2)), (0x410, w64 ((List.range 32).filter fun i => a.getLsbD i).length)]) ∨ (rs2 % 32 =
      0 ∧ fn = 0x0F ∧ v.toNat ≤ 64 ∧ (∀ i, i < v.toNat → a.getLsbD i = false) ∧ (v.toNat < 64 → a.getLsbD v.toNat = true)))) ∧
    (∃ (s : State) (t : Nat) (rs1 : Nat) (rs2 : Nat) (fn : Nat) (a : Word) (b : Word) (v : Word), s.issues t 4 0 [rs1 % 32, rs2 % 32] ∧ a =
      s.reg t (rs1 % 32) ∧ b = s.reg t (rs2 % 32) ∧ ((fn, v) ∈ [(0x00, w64 (a.toNat + b.toNat)), (0x01, w64 (a.toNat + 2 ^ 64 - b.toNat)),
      (0x02, a &&& b), (0x03, a ||| b), (0x04, a ^^^ b), (0x05, w64 (a.toNat * 2 ^ (b.toNat % 64))), (0x06, w64 (a.toNat / 2 ^ (b.toNat %
      64))), (0x07, BitVec.ofInt 64 (a.toInt / (2 ^ (b.toNat % 64) : Nat))), (0x08, if a.toInt < b.toInt then 1 else 0), (0x09, if a.toNat <
      b.toNat then 1 else 0), (0x0A, BitVec.ofInt 64 (min a.toInt b.toInt)), (0x0B, BitVec.ofInt 64 (max a.toInt b.toInt)), (0x0C, w64 (min
      a.toNat b.toNat)), (0x0D, w64 (max a.toNat b.toNat)), (0x11, a &&& ~~~ b), (0x400, BitVec.ofInt 64 (toSigned 32 (a.toNat + b.toNat))),
      (0x401, BitVec.ofInt 64 (toSigned 32 (a.toNat + 2 ^ 64 - b.toNat))), (0x405, BitVec.ofInt 64 (toSigned 32 (a.toNat * 2 ^ (b.toNat %
      32)))), (0x406, BitVec.ofInt 64 (toSigned 32 (a.toNat % 2 ^ 32 / 2 ^ (b.toNat % 32)))), (0x407, BitVec.ofInt 64 (toSigned 32 a.toNat /
      (2 ^ (b.toNat % 32) : Nat)))] ∨ (rs2 % 32 = 0 ∧ (fn, v) ∈ [ (0x0E, if a = 0 then 64 else w64 (63 - a.toNat.log2)), (0x10, w64
      ((List.range 64).filter fun i => a.getLsbD i).length), (0x12, w64 (leNat (leBytes 8 a.toNat).reverse)), (0x40E, if a.toNat % 2 ^ 32 =
      0 then 32 else w64 (31 - (a.toNat % 2 ^ 32).log2)), (0x410, w64 ((List.range 32).filter fun i => a.getLsbD i).length)]) ∨ (rs2 % 32 =
      0 ∧ fn = 0x0F ∧ v.toNat ≤ 64 ∧ (∀ i, i < v.toNat → a.getLsbD i = false) ∧ (v.toNat < 64 → a.getLsbD v.toNat = true)))) ∧
    (∃ (s : State) (t : Nat) (rs1 : Nat) (rs2 : Nat) (fn : Nat) (a : Word) (b : Word) (v : Word), s.issues t 4 0 [rs1 % 32, rs2 % 32] ∧ a =
      s.reg t (rs1 % 32) ∧ b = s.reg t (rs2 % 32) ∧ ((fn, v) ∈ [(0x00, w64 (a.toNat + b.toNat)), (0x01, w64 (a.toNat + 2 ^ 64 - b.toNat)),
      (0x02, a &&& b), (0x03, a ||| b), (0x04, a ^^^ b), (0x05, w64 (a.toNat * 2 ^ (b.toNat % 64))), (0x06, w64 (a.toNat / 2 ^ (b.toNat %
      64))), (0x07, BitVec.ofInt 64 (a.toInt / (2 ^ (b.toNat % 64) : Nat))), (0x08, if a.toInt < b.toInt then 1 else 0), (0x09, if a.toNat <
      b.toNat then 1 else 0), (0x0A, BitVec.ofInt 64 (min a.toInt b.toInt)), (0x0B, BitVec.ofInt 64 (max a.toInt b.toInt)), (0x0C, w64 (min
      a.toNat b.toNat)), (0x0D, w64 (max a.toNat b.toNat)), (0x11, a &&& ~~~ b), (0x400, BitVec.ofInt 64 (toSigned 32 (a.toNat + b.toNat))),
      (0x401, BitVec.ofInt 64 (toSigned 32 (a.toNat + 2 ^ 64 - b.toNat))), (0x405, BitVec.ofInt 64 (toSigned 32 (a.toNat * 2 ^ (b.toNat %
      32)))), (0x406, BitVec.ofInt 64 (toSigned 32 (a.toNat % 2 ^ 32 / 2 ^ (b.toNat % 32)))), (0x407, BitVec.ofInt 64 (toSigned 32 a.toNat /
      (2 ^ (b.toNat % 32) : Nat)))] ∨ (rs2 % 32 = 0 ∧ (fn, v) ∈ [ (0x0E, if a = 0 then 64 else w64 (63 - a.toNat.log2)), (0x10, w64
      ((List.range 64).filter fun i => a.getLsbD i).length), (0x12, w64 (leNat (leBytes 8 a.toNat).reverse)), (0x40E, if a.toNat % 2 ^ 32 =
      0 then 32 else w64 (31 - (a.toNat % 2 ^ 32).log2)), (0x410, w64 ((List.range 32).filter fun i => a.getLsbD i).length)]) ∨ (rs2 % 32 =
      0 ∧ fn = 0x0F ∧ v.toNat ≤ 64 ∧ (∀ i, i < v.toNat → a.getLsbD i = false) ∧ (v.toNat < 64 → a.getLsbD v.toNat = true)))) ∧
    (∃ (s : State) (t : Nat) (rs1 : Nat) (rs2 : Nat) (fn : Nat) (a : Word) (b : Word) (v : Word), s.issues t 4 0 [rs1 % 32, rs2 % 32] ∧ a =
      s.reg t (rs1 % 32) ∧ b = s.reg t (rs2 % 32) ∧ ((fn, v) ∈ [(0x00, w64 (a.toNat + b.toNat)), (0x01, w64 (a.toNat + 2 ^ 64 - b.toNat)),
      (0x02, a &&& b), (0x03, a ||| b), (0x04, a ^^^ b), (0x05, w64 (a.toNat * 2 ^ (b.toNat % 64))), (0x06, w64 (a.toNat / 2 ^ (b.toNat %
      64))), (0x07, BitVec.ofInt 64 (a.toInt / (2 ^ (b.toNat % 64) : Nat))), (0x08, if a.toInt < b.toInt then 1 else 0), (0x09, if a.toNat <
      b.toNat then 1 else 0), (0x0A, BitVec.ofInt 64 (min a.toInt b.toInt)), (0x0B, BitVec.ofInt 64 (max a.toInt b.toInt)), (0x0C, w64 (min
      a.toNat b.toNat)), (0x0D, w64 (max a.toNat b.toNat)), (0x11, a &&& ~~~ b), (0x400, BitVec.ofInt 64 (toSigned 32 (a.toNat + b.toNat))),
      (0x401, BitVec.ofInt 64 (toSigned 32 (a.toNat + 2 ^ 64 - b.toNat))), (0x405, BitVec.ofInt 64 (toSigned 32 (a.toNat * 2 ^ (b.toNat %
      32)))), (0x406, BitVec.ofInt 64 (toSigned 32 (a.toNat % 2 ^ 32 / 2 ^ (b.toNat % 32)))), (0x407, BitVec.ofInt 64 (toSigned 32 a.toNat /
      (2 ^ (b.toNat % 32) : Nat)))] ∨ (rs2 % 32 = 0 ∧ (fn, v) ∈ [ (0x0E, if a = 0 then 64 else w64 (63 - a.toNat.log2)), (0x10, w64
      ((List.range 64).filter fun i => a.getLsbD i).length), (0x12, w64 (leNat (leBytes 8 a.toNat).reverse)), (0x40E, if a.toNat % 2 ^ 32 =
      0 then 32 else w64 (31 - (a.toNat % 2 ^ 32).log2)), (0x410, w64 ((List.range 32).filter fun i => a.getLsbD i).length)]) ∨ (rs2 % 32 =
      0 ∧ fn = 0x0F ∧ v.toNat ≤ 64 ∧ (∀ i, i < v.toNat → a.getLsbD i = false) ∧ (v.toNat < 64 → a.getLsbD v.toNat = true)))) ∧
    (∃ (s : State) (t : Nat) (rs1 : Nat) (rs2 : Nat) (fn : Nat) (a : Word) (b : Word) (v : Word), s.issues t 4 0 [rs1 % 32, rs2 % 32] ∧ a =
      s.reg t (rs1 % 32) ∧ b = s.reg t (rs2 % 32) ∧ ((fn, v) ∈ [(0x00, w64 (a.toNat + b.toNat)), (0x01, w64 (a.toNat + 2 ^ 64 - b.toNat)),
      (0x02, a &&& b), (0x03, a ||| b), (0x04, a ^^^ b), (0x05, w64 (a.toNat * 2 ^ (b.toNat % 64))), (0x06, w64 (a.toNat / 2 ^ (b.toNat %
      64))), (0x07, BitVec.ofInt 64 (a.toInt / (2 ^ (b.toNat % 64) : Nat))), (0x08, if a.toInt < b.toInt then 1 else 0), (0x09, if a.toNat <
      b.toNat then 1 else 0), (0x0A, BitVec.ofInt 64 (min a.toInt b.toInt)), (0x0B, BitVec.ofInt 64 (max a.toInt b.toInt)), (0x0C, w64 (min
      a.toNat b.toNat)), (0x0D, w64 (max a.toNat b.toNat)), (0x11, a &&& ~~~ b), (0x400, BitVec.ofInt 64 (toSigned 32 (a.toNat + b.toNat))),
      (0x401, BitVec.ofInt 64 (toSigned 32 (a.toNat + 2 ^ 64 - b.toNat))), (0x405, BitVec.ofInt 64 (toSigned 32 (a.toNat * 2 ^ (b.toNat %
      32)))), (0x406, BitVec.ofInt 64 (toSigned 32 (a.toNat % 2 ^ 32 / 2 ^ (b.toNat % 32)))), (0x407, BitVec.ofInt 64 (toSigned 32 a.toNat /
      (2 ^ (b.toNat % 32) : Nat)))] ∨ (rs2 % 32 = 0 ∧ (fn, v) ∈ [ (0x0E, if a = 0 then 64 else w64 (63 - a.toNat.log2)), (0x10, w64
      ((List.range 64).filter fun i => a.getLsbD i).length), (0x12, w64 (leNat (leBytes 8 a.toNat).reverse)), (0x40E, if a.toNat % 2 ^ 32 =
      0 then 32 else w64 (31 - (a.toNat % 2 ^ 32).log2)), (0x410, w64 ((List.range 32).filter fun i => a.getLsbD i).length)]) ∨ (rs2 % 32 =
      0 ∧ fn = 0x0F ∧ v.toNat ≤ 64 ∧ (∀ i, i < v.toNat → a.getLsbD i = false) ∧ (v.toNat < 64 → a.getLsbD v.toNat = true)))) ∧
    (∃ (s : State) (t : Nat) (rs1 : Nat) (rs2 : Nat) (fn : Nat) (a : Word) (b : Word) (v : Word), s.issues t 4 0 [rs1 % 32, rs2 % 32] ∧ a =
      s.reg t (rs1 % 32) ∧ b = s.reg t (rs2 % 32) ∧ ((fn, v) ∈ [(0x00, w64 (a.toNat + b.toNat)), (0x01, w64 (a.toNat + 2 ^ 64 - b.toNat)),
      (0x02, a &&& b), (0x03, a ||| b), (0x04, a ^^^ b), (0x05, w64 (a.toNat * 2 ^ (b.toNat % 64))), (0x06, w64 (a.toNat / 2 ^ (b.toNat %
      64))), (0x07, BitVec.ofInt 64 (a.toInt / (2 ^ (b.toNat % 64) : Nat))), (0x08, if a.toInt < b.toInt then 1 else 0), (0x09, if a.toNat <
      b.toNat then 1 else 0), (0x0A, BitVec.ofInt 64 (min a.toInt b.toInt)), (0x0B, BitVec.ofInt 64 (max a.toInt b.toInt)), (0x0C, w64 (min
      a.toNat b.toNat)), (0x0D, w64 (max a.toNat b.toNat)), (0x11, a &&& ~~~ b), (0x400, BitVec.ofInt 64 (toSigned 32 (a.toNat + b.toNat))),
      (0x401, BitVec.ofInt 64 (toSigned 32 (a.toNat + 2 ^ 64 - b.toNat))), (0x405, BitVec.ofInt 64 (toSigned 32 (a.toNat * 2 ^ (b.toNat %
      32)))), (0x406, BitVec.ofInt 64 (toSigned 32 (a.toNat % 2 ^ 32 / 2 ^ (b.toNat % 32)))), (0x407, BitVec.ofInt 64 (toSigned 32 a.toNat /
      (2 ^ (b.toNat % 32) : Nat)))] ∨ (rs2 % 32 = 0 ∧ (fn, v) ∈ [ (0x0E, if a = 0 then 64 else w64 (63 - a.toNat.log2)), (0x10, w64
      ((List.range 64).filter fun i => a.getLsbD i).length), (0x12, w64 (leNat (leBytes 8 a.toNat).reverse)), (0x40E, if a.toNat % 2 ^ 32 =
      0 then 32 else w64 (31 - (a.toNat % 2 ^ 32).log2)), (0x410, w64 ((List.range 32).filter fun i => a.getLsbD i).length)]) ∨ (rs2 % 32 =
      0 ∧ fn = 0x0F ∧ v.toNat ≤ 64 ∧ (∀ i, i < v.toNat → a.getLsbD i = false) ∧ (v.toNat < 64 → a.getLsbD v.toNat = true)))) :=
  ⟨⟨ci 0 [(1,A),(2,B)], 0, 1, 2, 1024, A, B, 8, by unfold State.issues; decide +kernel⟩,
   ⟨ci 0 [(1,A),(2,B)], 0, 1, 2, 1031, A, B, 0, by unfold State.issues; decide +kernel⟩,
   ⟨ci 0 [(1,A)], 0, 1, 0, 0x0E, A, 0, 0, by unfold State.issues; decide +kernel⟩,
   ⟨ci 0 [(1,A)], 0, 1, 0, 0x10, A, 0, 3, by unfold State.issues; decide +kernel⟩,
   ⟨ci 0 [(1,A)], 0, 1, 0, 0x12, A, 0, 0x0500000000000080, by unfold State.issues; decide +kernel⟩,
   ⟨ci 0 [(1,A)], 0, 1, 0, 0x40E, A, 0, 29, by unfold State.issues; decide +kernel⟩,
   ⟨ci 0 [(1,A)], 0, 1, 0, 0x410, A, 0, 2, by unfold State.issues; decide +kernel⟩,
   ⟨ci 0 [(1,0x30)], 0, 1, 0, 0x0F, 0x30, 0, 4, by unfold State.issues; decide +kernel⟩⟩
theorem witness_IntegerInstructions_3 :
    (∃ (s : State) (t : Nat) (rs1 : Nat) (rs2 : Nat) (fn : Nat) (a : Word) (b : Word) (v : Word), s.issues t 4 0 [rs1 % 32, rs2 % 32] ∧ a =
      s.reg t (rs1 % 32) ∧ b = s.reg t (rs2 % 32) ∧ ((fn, v) ∈ [(0x00, w64 (a.toNat + b.toNat)), (0x01, w64 (a.toNat + 2 ^ 64 - b.toNat)),
      (0x02, a &&& b), (0x03, a ||| b), (0x04, a ^^^ b), (0x05, w64 (a.toNat * 2 ^ (b.toNat % 64))), (0x06, w64 (a.toNat / 2 ^ (b.toNat %
      64))), (0x07, BitVec.ofInt 64 (a.toInt / (2 ^ (b.toNat % 64) : Nat))), (0x08, if a.toInt < b.toInt then 1 else 0), (0x09, if a.toNat <
      b.toNat then 1 else 0), (0x0A, BitVec.ofInt 64 (min a.toInt b.toInt)), (0x0B, BitVec.ofInt 64 (max a.toInt b.toInt)), (0x0C, w64 (min
      a.toNat b.toNat)), (0x0D, w64 (max a.toNat b.toNat)), (0x11, a &&& ~~~ b), (0x400, BitVec.ofInt 64 (toSigned 32 (a.toNat + b.toNat))),
      (0x401, BitVec.ofInt 64 (toSigned 32 (a.toNat + 2 ^ 64 - b.toNat))), (0x405, BitVec.ofInt 64 (toSigned 32 (a.toNat * 2 ^ (b.toNat %
      32)))), (0x406, BitVec.ofInt 64 (toSigned 32 (a.toNat % 2 ^ 32 / 2 ^ (b.toNat % 32)))), (0x407, BitVec.ofInt 64 (toSigned 32 a.toNat /
      (2 ^ (b.toNat % 32) : Nat)))] ∨ (rs2 % 32 = 0 ∧ (fn, v) ∈ [ (0x0E, if a = 0 then 64 else w64 (63 - a.toNat.log2)), (0x10, w64
      ((List.range 64).filter fun i => a.getLsbD i).length), (0x12, w64 (leNat (leBytes 8 a.toNat).reverse)), (0x40E, if a.toNat % 2 ^ 32 =
      0 then 32 else w64 (31 - (a.toNat % 2 ^ 32).log2)), (0x410, w64 ((List.range 32).filter fun i => a.getLsbD i).length)]) ∨ (rs2 % 32 =
      0 ∧ fn = 0x0F ∧ v.toNat ≤ 64 ∧ (∀ i, i < v.toNat → a.getLsbD i = false) ∧ (v.toNat < 64 → a.getLsbD v.toNat = true)))) ∧
    (∃ (s : State) (t : Nat) (rs1 : Nat) (rs2 : Nat) (fn : Nat) (a : Word) (b : Word) (v : Word), s.issues t 4 0 [rs1 % 32, rs2 % 32] ∧ a =
      s.reg t (rs1 % 32) ∧ b = s.reg t (rs2 % 32) ∧ (fn, v) ∈ [(0, w64 (a.toNat * b.toNat)), (1, BitVec.ofInt 64 (a.toInt * b.toInt / (2 ^
      64 : Nat))), (2, w64 (a.toNat * b.toNat / 2 ^ 64)), (4, if b = 0 then BitVec.allOnes 64 else BitVec.ofInt 64 (a.toInt.tdiv b.toInt)),
      (5, if b = 0 then BitVec.allOnes 64 else w64 (a.toNat / b.toNat)), (6, if b = 0 then a else BitVec.ofInt 64 (a.toInt.tmod b.toInt)),
      (7, if b = 0 then a else w64 (a.toNat % b.toNat))]) ∧
    (∃ (s : State) (t : Nat) (rs1 : Nat) (rs2 : Nat) (fn : Nat) (a : Word) (b : Word) (v : Word), s.issues t 4 0 [rs1 % 32, rs2 % 32] ∧ a =
      s.reg t (rs1 % 32) ∧ b = s.reg t (rs2 % 32) ∧ (fn, v) ∈ [(0, w64 (a.toNat * b.toNat)), (1, BitVec.ofInt 64 (a.toInt * b.toInt / (2 ^
      64 : Nat))), (2, w64 (a.toNat * b.toNat / 2 ^ 64)), (4, if b = 0 then BitVec.allOnes 64 else BitVec.ofInt 64 (a.toInt.tdiv b.toInt)),
      (5, if b = 0 then BitVec.allOnes 64 else w64 (a.toNat / b.toNat)), (6, if b = 0 then a else BitVec.ofInt 64 (a.toInt.tmod b.toInt)),
      (7, if b = 0 then a else w64 (a.toNat % b.toNat))]) ∧
    (∃ (s : State) (t : Nat) (rs1 : Nat) (rs2 : Nat) (fn : Nat) (a : Word) (b : Word) (v : Word), s.issues t 4 0 [rs1 % 32, rs2 % 32] ∧ a =
      s.reg t (rs1 % 32) ∧ b = s.reg t (rs2 % 32) ∧ (fn, v) ∈ [(0, w64 (a.toNat * b.toNat)), (1, BitVec.ofInt 64 (a.toInt * b.toInt / (2 ^
      64 : Nat))), (2, w64 (a.toNat * b.toNat / 2 ^ 64)), (4, if b = 0 then BitVec.allOnes 64 else BitVec.ofInt 64 (a.toInt.tdiv b.toInt)),
      (5, if b = 0 then BitVec.allOnes 64 else w64 (a.toNat / b.toNat)), (6, if b = 0 then a else BitVec.ofInt 64 (a.toInt.tmod b.toInt)),
      (7, if b = 0 then a else w64 (a.toNat % b.toNat))]) ∧
    (∃ (s : State) (t : Nat) (rs1 : Nat) (rs2 : Nat) (fn : Nat) (a : Word) (b : Word) (v : Word), s.issues t 4 0 [rs1 % 32, rs2 % 32] ∧ a =
      s.reg t (rs1 % 32) ∧ b = s.reg t (rs2 % 32) ∧ (fn, v) ∈ [(0, w64 (a.toNat * b.toNat)), (1, BitVec.ofInt 64 (a.toInt * b.toInt / (2 ^
      64 : Nat))), (2, w64 (a.toNat * b.toNat / 2 ^ 64)), (4, if b = 0 then BitVec.allOnes 64 else BitVec.ofInt 64 (a.toInt.tdiv b.toInt)),
      (5, if b = 0 then BitVec.allOnes 64 else w64 (a.toNat / b.toNat)), (6, if b = 0 then a else BitVec.ofInt 64 (a.toInt.tmod b.toInt)),
      (7, if b = 0 then a else w64 (a.toNat % b.toNat))]) ∧
    (∃ (s : State) (t : Nat) (rs1 : Nat) (rs2 : Nat) (fn : Nat) (a : Word) (b : Word) (v : Word), s.issues t 4 0 [rs1 % 32, rs2 % 32] ∧ a =
      s.reg t (rs1 % 32) ∧ b = s.reg t (rs2 % 32) ∧ (fn, v) ∈ [(0, w64 (a.toNat * b.toNat)), (1, BitVec.ofInt 64 (a.toInt * b.toInt / (2 ^
      64 : Nat))), (2, w64 (a.toNat * b.toNat / 2 ^ 64)), (4, if b = 0 then BitVec.allOnes 64 else BitVec.ofInt 64 (a.toInt.tdiv b.toInt)),
      (5, if b = 0 then BitVec.allOnes 64 else w64 (a.toNat / b.toNat)), (6, if b = 0 then a else BitVec.ofInt 64 (a.toInt.tmod b.toInt)),
      (7, if b = 0 then a else w64 (a.toNat % b.toNat))]) ∧
    (∃ (s : State) (t : Nat) (rs1 : Nat) (rs2 : Nat) (fn : Nat) (a : Word) (b : Word) (v : Word), s.issues t 4 0 [rs1 % 32, rs2 % 32] ∧ a =
      s.reg t (rs1 % 32) ∧ b = s.reg t (rs2 % 32) ∧ (fn, v) ∈ [(0, w64 (a.toNat * b.toNat)), (1, BitVec.ofInt 64 (a.toInt * b.toInt / (2 ^
      64 : Nat))), (2, w64 (a.toNat * b.toNat / 2 ^ 64)), (4, if b = 0 then BitVec.allOnes 64 else BitVec.ofInt 64 (a.toInt.tdiv b.toInt)),
      (5, if b = 0 then BitVec.allOnes 64 else w64 (a.toNat / b.toNat)), (6, if b = 0 then a else BitVec.ofInt 64 (a.toInt.tmod b.toInt)),
      (7, if b = 0 then a else w64 (a.toNat % b.toNat))]) ∧
    (∃ (s : State) (t : Nat) (rs1 : Nat) (rs2 : Nat) (fn : Nat) (a : Word) (b : Word) (v : Word), s.issues t 4 0 [rs1 % 32, rs2 % 32] ∧ a =
      s.reg t (rs1 % 32) ∧ b = s.reg t (rs2 % 32) ∧ (fn, v) ∈ [(0, w64 (a.toNat * b.toNat)), (1, BitVec.ofInt 64 (a.toInt * b.toInt / (2 ^
      64 : Nat))), (2, w64 (a.toNat * b.toNat / 2 ^ 64)), (4, if b = 0 then BitVec.allOnes 64 else BitVec.ofInt 64 (a.toInt.tdiv b.toInt)),
      (5, if b = 0 then BitVec.allOnes 64 else w64 (a.toNat / b.toNat)), (6, if b = 0 then a else BitVec.ofInt 64 (a.toInt.tmod b.toInt)),
      (7, if b = 0 then a else w64 (a.toNat % b.toNat))]) :=
  ⟨⟨ci 0 [(1,0)], 0, 1, 0, 0x0F, 0, 0, 64, by unfold State.issues; decide +kernel⟩,
   ⟨ci 0 [(1,A),(2,B)], 0, 1, 2, 0, A, B, A*B, by unfold State.issues; decide +kernel⟩,
   ⟨ci 0 [(1,A),(2,B)], 0, 1, 2, 1, A, B, 0xFFFFFFFFFFFFFFFE, by unfold State.issues; decide +kernel⟩,
   ⟨ci 0 [(1,A),(2,B)], 0, 1, 2, 2, A, B, 1, by unfold State.issues; decide +kernel⟩,
   ⟨ci 0 [(1,A),(2,B)], 0, 1, 2, 4, A, B, BitVec.ofInt 64 (A.toInt.tdiv 3), by unfold State.issues; decide +kernel⟩,
   ⟨ci 0 [(1,A),(2,B)], 0, 1, 2, 6, A, B, BitVec.ofInt 64 (A.toInt.tmod 3), by unfold State.issues; decide +kernel⟩,
   ⟨ci 0 [(1,A),(2,0)], 0, 1, 2, 4, A, 0, BitVec.allOnes 64, by unfold State.issues; decide +kernel⟩,
   ⟨ci 0 [(1,A),(2,0)], 0, 1, 2, 7, A, 0, A, by unfold State.issues; decide +kernel⟩⟩
theorem witness_IntegerInstructions_4 :
    (∃ (s : State) (t : Nat) (rs1 : Nat) (rs2 : Nat) (fn : Nat) (a : Word) (b : Word) (v : Word), s.issues t 4 0 [rs1 % 32, rs2 % 32] ∧ a =
      s.reg t (rs1 % 32) ∧ b = s.reg t (rs2 % 32) ∧ (fn, v) ∈ [(0, w64 (a.toNat * b.toNat)), (1, BitVec.ofInt 64 (a.toInt * b.toInt / (2 ^
      64 : Nat))), (2, w64 (a.toNat * b.toNat / 2 ^ 64)), (4, if b = 0 then BitVec.allOnes 64 else BitVec.ofInt 64 (a.toInt.tdiv b.toInt)),
      (5, if b = 0 then BitVec.allOnes 64 else w64 (a.toNat / b.toNat)), (6, if b = 0 then a else BitVec.ofInt 64 (a.toInt.tmod b.toInt)),
      (7, if b = 0 then a else w64 (a.toNat % b.toNat))]) ∧
    (∃ (s : State) (t : Nat) (rs1 : Nat) (rs2 : Nat) (fn : Nat) (a : Word) (b : Word) (v : Word), s.issues t 4 0 [rs1 % 32, rs2 % 32] ∧ a =
      s.reg t (rs1 % 32) ∧ b = s.reg t (rs2 % 32) ∧ (fn, v) ∈ [(0, w64 (a.toNat * b.toNat)), (1, BitVec.ofInt 64 (a.toInt * b.toInt / (2 ^
      64 : Nat))), (2, w64 (a.toNat * b.toNat / 2 ^ 64)), (4, if b = 0 then BitVec.allOnes 64 else BitVec.ofInt 64 (a.toInt.tdiv b.toInt)),
      (5, if b = 0 then BitVec.allOnes 64 else w64 (a.toNat / b.toNat)), (6, if b = 0 then a else BitVec.ofInt 64 (a.toInt.tmod b.toInt)),
      (7, if b = 0 then a else w64 (a.toNat % b.toNat))]) ∧
    (∃ (s : State) (t : Nat) (rs1 : Nat) (rs2 : Nat) (fn : Nat) (a : Word) (b : Word) (v : Word), s.issues t 4 0 [rs1 % 32, rs2 % 32] ∧ a =
      s.reg t (rs1 % 32) ∧ b = s.reg t (rs2 % 32) ∧ (fn, v) ∈ [(0, w64 (a.toNat * b.toNat)), (1, BitVec.ofInt 64 (a.toInt * b.toInt / (2 ^
      64 : Nat))), (2, w64 (a.toNat * b.toNat / 2 ^ 64)), (4, if b = 0 then BitVec.allOnes 64 else BitVec.ofInt 64 (a.toInt.tdiv b.toInt)),
      (5, if b = 0 then BitVec.allOnes 64 else w64 (a.toNat / b.toNat)), (6, if b = 0 then a else BitVec.ofInt 64 (a.toInt.tmod b.toInt)),
      (7, if b = 0 then a else w64 (a.toNat % b.toNat))]) ∧
    (∃ (s : State) (t : Nat) (rs1 : Nat) (rs2 : Nat) (fn : Nat) (a : Nat) (b : Nat) (x : Nat), s.issues t 4 0 [rs1 % 32, rs2 % 32] ∧ a =
      (s.reg t (rs1 % 32)).toNat % 2 ^ 32 ∧ b = (s.reg t (rs2 % 32)).toNat % 2 ^ 32 ∧ (fn, x) ∈ [(0x400, a * b % 2 ^ 32), (0x405, if b = 0
      then 2 ^ 32 - 1 else a / b), (0x407, if b = 0 then a else a % b), (0x404, if b = 0 then 2 ^ 32 - 1 else ofSigned 32 ((toSigned 32
      a).tdiv (toSigned 32 b))), (0x406, if b = 0 then a else ofSigned 32 ((toSigned 32 a).tmod (toSigned 32 b)))]) ∧
    (∃ (s : State) (t : Nat) (rs1 : Nat) (rs2 : Nat) (fn : Nat) (a : Nat) (b : Nat) (x : Nat), s.issues t 4 0 [rs1 % 32, rs2 % 32] ∧ a =
      (s.reg t (rs1 % 32)).toNat % 2 ^ 32 ∧ b = (s.reg t (rs2 % 32)).toNat % 2 ^ 32 ∧ (fn, x) ∈ [(0x400, a * b % 2 ^ 32), (0x405, if b = 0
      then 2 ^ 32 - 1 else a / b), (0x407, if b = 0 then a else a % b), (0x404, if b = 0 then 2 ^ 32 - 1 else ofSigned 32 ((toSigned 32
      a).tdiv (toSigned 32 b))), (0x406, if b = 0 then a else ofSigned 32 ((toSigned 32 a).tmod (toSigned 32 b)))]) ∧
    (∃ (s : State) (t : Nat) (rs1 : Nat) (rs2 : Nat) (fn : Nat) (a : Nat) (b : Nat) (x : Nat), s.issues t 4 0 [rs1 % 32, rs2 % 32] ∧ a =
      (s.reg t (rs1 % 32)).toNat % 2 ^ 32 ∧ b = (s.reg t (rs2 % 32)).toNat % 2 ^ 32 ∧ (fn, x) ∈ [(0x400, a * b % 2 ^ 32), (0x405, if b = 0
      then 2 ^ 32 - 1 else a / b), (0x407, if b = 0 then a else a % b), (0x404, if b = 0 then 2 ^ 32 - 1 else ofSigned 32 ((toSigned 32
      a).tdiv (toSigned 32 b))), (0x406, if b = 0 then a else ofSigned 32 ((toSigned 32 a).tmod (toSigned 32 b)))]) ∧
    (∃ (s : State) (t : Nat) (rs1 : Nat) (rs2 : Nat) (fn : Nat) (a : Nat) (b : Nat) (x : Nat), s.issues t 4 0 [rs1 % 32, rs2 % 32] ∧ a =
      (s.reg t (rs1 % 32)).toNat % 2 ^ 32 ∧ b = (s.reg t (rs2 % 32)).toNat % 2 ^ 32 ∧ (fn, x) ∈ [(0x400, a * b % 2 ^ 32), (0x405, if b = 0
      then 2 ^ 32 - 1 else a / b), (0x407, if b = 0 then a else a % b), (0x404, if b = 0 then 2 ^ 32 - 1 else ofSigned 32 ((toSigned 32
      a).tdiv (toSigned 32 b))), (0x406, if b = 0 then a else ofSigned 32 ((toSigned 32 a).tmod (toSigned 32 b)))]) ∧
    (∃ (s : State) (t : Nat) (rs1 : Nat) (rs2 : Nat) (fn : Nat) (a : Nat) (b : Nat) (x : Nat), s.issues t 4 0 [rs1 % 32, rs2 % 32] ∧ a =
      (s.reg t (rs1 % 32)).toNat % 2 ^ 32 ∧ b = (s.reg t (rs2 % 32)).toNat % 2 ^ 32 ∧ (fn, x) ∈ [(0x400, a * b % 2 ^ 32), (0x405, if b = 0
      then 2 ^ 32 - 1 else a / b), (0x407, if b = 0 then a else a % b), (0x404, if b = 0 then 2 ^ 32 - 1 else ofSigned 32 ((toSigned 32
      a).tdiv (toSigned 32 b))), (0x406, if b = 0 then a else ofSigned 32 ((toSigned 32 a).tmod (toSigned 32 b)))]) :=
  ⟨⟨ci 0 [(1,0x8000000000000000),(2,(BitVec.allOnes 64))], 0, 1, 2, 4, 0x8000000000000000, BitVec.allOnes 64, 0x8000000000000000, by unfold State.issues; decide +kernel⟩,
   ⟨ci 0 [(1,0x8000000000000000),(2,(BitVec.allOnes 64))], 0, 1, 2, 6, 0x8000000000000000, BitVec.allOnes 64, 0, by unfold State.issues; decide +kernel⟩,
   ⟨ci 0 [(1,(BitVec.allOnes 64)),(2,5)], 0, 1, 2, 1, BitVec.allOnes 64, 5, BitVec.ofInt 64 (((-1:Int) * 5)/(2^64:Nat)), by unfold State.issues; decide +kernel⟩,
   ⟨ci 0 [(1,A),(2,B)], 0, 1, 2, 0x400, 5, 3, 15, by unfold State.issues; decide +kernel⟩,
   ⟨ci 0 [(1,A),(2,B)], 0, 1, 2, 0x405, 5, 3, 1, by unfold State.issues; decide +kernel⟩,
   ⟨ci 0 [(1,A),(2,B)], 0, 1, 2, 0x407, 5, 3, 2, by unfold State.issues; decide +kernel⟩,
   ⟨ci 0 [(1,0xFFFFFFFB),(2,3)], 0, 1, 2, 0x404, 0xFFFFFFFB, 3, 0xFFFFFFFF, by unfold State.issues; decide +kernel⟩,
   ⟨ci 0 [(1,0xFFFFFFFB),(2,3)], 0, 1, 2, 0x406, 0xFFFFFFFB, 3, 0xFFFFFFFE, by unfold State.issues; decide +kernel⟩⟩
theorem witness_IntegerInstructions_5 :
    (∃ (s : State) (t : Nat) (rs1 : Nat) (rs2 : Nat) (fn : Nat) (a : Nat) (b : Nat) (x : Nat), s.issues t 4 0 [rs1 % 32, rs2 % 32] ∧ a =
      (s.reg t (rs1 % 32)).toNat % 2 ^ 32 ∧ b = (s.reg t (rs2 % 32)).toNat % 2 ^ 32 ∧ (fn, x) ∈ [(0x400, a * b % 2 ^ 32), (0x405, if b = 0
      then 2 ^ 32 - 1 else a / b), (0x407, if b = 0 then a else a % b), (0x404, if b = 0 then 2 ^ 32 - 1 else ofSigned 32 ((toSigned 32
      a).tdiv (toSigned 32 b))), (0x406, if b = 0 then a else ofSigned 32 ((toSigned 32 a).tmod (toSigned 32 b)))]) ∧
    (∃ (s : State) (t : Nat) (rs1 : Nat) (rs2 : Nat) (fn : Nat) (a : Nat) (b : Nat) (x : Nat), s.issues t 4 0 [rs1 % 32, rs2 % 32] ∧ a =
      (s.reg t (rs1 % 32)).toNat % 2 ^ 32 ∧ b = (s.reg t (rs2 % 32)).toNat % 2 ^ 32 ∧ (fn, x) ∈ [(0x400, a * b % 2 ^ 32), (0x405, if b = 0
      then 2 ^ 32 - 1 else a / b), (0x407, if b = 0 then a else a % b), (0x404, if b = 0 then 2 ^ 32 - 1 else ofSigned 32 ((toSigned 32
      a).tdiv (toSigned 32 b))), (0x406, if b = 0 then a else ofSigned 32 ((toSigned 32 a).tmod (toSigned 32 b)))]) ∧
    (∃ (s : State) (t : Nat) (op : Nat) (rs1 : Nat) (imm : Nat) (imm2 : Nat) (len : Nat) (a : Word) (i : Word) (j : Word) (v : Word), ((len
      = (if op = 0x0C ∨ op = 0x0D ∨ op = 0x0E then 8 else 4)) ∧ s.issues t len 0 [rs1 % 32] ∧ a = s.reg t (rs1 % 32) ∧ i = (BitVec.ofNat 16
      imm).signExtend 64 ∧ j = (BitVec.ofNat 32 imm2).signExtend 64) ∧ ((op, v) ∈ [(0x04, a + i), (0x05, a &&& w64 (imm % 2 ^ 16)), (0x06, a
      ||| w64 (imm % 2 ^ 16)), (0x07, a ^^^ w64 (imm % 2 ^ 16)), (0x09, if a.toInt < i.toInt then 1 else 0), (0x0A, if a.toNat < i.toNat
      then 1 else 0)] ∨ (rs1 % 32 = 0 ∧ op = 0x0B ∧ v = BitVec.ofInt 64 (toSigned 32 (imm % 2 ^ 16 * 2 ^ 16))) ∨ (imm % 2 ^ 16 = 0 ∧ (rs1 %
      32 = 0 ∧ op = 0x0C ∧ v = j ∨ (op, v) ∈ [(0x0D, w64 (a.toNat % 2 ^ 32 + imm2 % 2 ^ 32 * 2 ^ 32)), (0x0E, a + j)])) ∨ (∃ n < 64, op =
      0x08 ∧ (imm, v) ∈ [(n, a <<< n), (64 + n, a >>> n), (128 + n, a.sshiftRight n)]) ∨ (∃ n < 32, op = 0x08 ∧ (imm, v) ∈ [(256 + n,
      BitVec.ofInt 64 (toSigned 32 (a.toNat * 2 ^ n))), (320 + n, BitVec.ofInt 64 (toSigned 32 (a.toNat % 2 ^ 32 / 2 ^ n))), (384 + n,
      BitVec.ofInt 64 (toSigned 32 a.toNat / (2 ^ n : Nat)))]) ∨ (∃ pos l, pos + l + 1 ≤ 64 ∧ op = 0x0F ∧ (imm, v) ∈ [(64 * l + pos, w64
      (a.toNat / 2 ^ pos % 2 ^ (l + 1))), (4096 + 64 * l + pos, BitVec.ofInt 64 (toSigned (l + 1) (a.toNat / 2 ^ pos)))]))) ∧
    (∃ (s : State) (t : Nat) (op : Nat) (rs1 : Nat) (imm : Nat) (imm2 : Nat) (len : Nat) (a : Word) (i : Word) (j : Word) (v : Word), ((len
      = (if op = 0x0C ∨ op = 0x0D ∨ op = 0x0E then 8 else 4)) ∧ s.issues t len 0 [rs1 % 32] ∧ a = s.reg t (rs1 % 32) ∧ i = (BitVec.ofNat 16
      imm).signExtend 64 ∧ j = (BitVec.ofNat 32 imm2).signExtend 64) ∧ ((op, v) ∈ [(0x04, a + i), (0x05, a &&& w64 (imm % 2 ^ 16)), (0x06, a
      ||| w64 (imm % 2 ^ 16)), (0x07, a ^^^ w64 (imm % 2 ^ 16)), (0x09, if a.toInt < i.toInt then 1 else 0), (0x0A, if a.toNat < i.toNat
      then 1 else 0)] ∨ (rs1 % 32 = 0 ∧ op = 0x0B ∧ v = BitVec.ofInt 64 (toSigned 32 (imm % 2 ^ 16 * 2 ^ 16))) ∨ (imm % 2 ^ 16 = 0 ∧ (rs1 %
      32 = 0 ∧ op = 0x0C ∧ v = j ∨ (op, v) ∈ [(0x0D, w64 (a.toNat % 2 ^ 32 + imm2 % 2 ^ 32 * 2 ^ 32)), (0x0E, a + j)])) ∨ (∃ n < 64, op =
      0x08 ∧ (imm, v) ∈ [(n, a <<< n), (64 + n, a >>> n), (128 + n, a.sshiftRight n)]) ∨ (∃ n < 32, op = 0x08 ∧ (imm, v) ∈ [(256 + n,
      BitVec.ofInt 64 (toSigned 32 (a.toNat * 2 ^ n))), (320 + n, BitVec.ofInt 64 (toSigned 32 (a.toNat % 2 ^ 32 / 2 ^ n))), (384 + n,
      BitVec.ofInt 64 (toSigned 32 a.toNat / (2 ^ n : Nat)))]) ∨ (∃ pos l, pos + l + 1 ≤ 64 ∧ op = 0x0F ∧ (imm, v) ∈ [(64 * l + pos, w64
      (a.toNat / 2 ^ pos % 2 ^ (l + 1))), (4096 + 64 * l + pos, BitVec.ofInt 64 (toSigned (l + 1) (a.toNat / 2 ^ pos)))]))) ∧
    (∃ (s : State) (t : Nat) (op : Nat) (rs1 : Nat) (imm : Nat) (imm2 : Nat) (len : Nat) (a : Word) (i : Word) (j : Word) (v : Word), ((len
      = (if op = 0x0C ∨ op = 0x0D ∨ op = 0x0E then 8 else 4)) ∧ s.issues t len 0 [rs1 % 32] ∧ a = s.reg t (rs1 % 32) ∧ i = (BitVec.ofNat 16
      imm).signExtend 64 ∧ j = (BitVec.ofNat 32 imm2).signExtend 64) ∧ ((op, v) ∈ [(0x04, a + i), (0x05, a &&& w64 (imm % 2 ^ 16)), (0x06, a
      ||| w64 (imm % 2 ^ 16)), (0x07, a ^^^ w64 (imm % 2 ^ 16)), (0x09, if a.toInt < i.toInt then 1 else 0), (0x0A, if a.toNat < i.toNat
      then 1 else 0)] ∨ (rs1 % 32 = 0 ∧ op = 0x0B ∧ v = BitVec.ofInt 64 (toSigned 32 (imm % 2 ^ 16 * 2 ^ 16))) ∨ (imm % 2 ^ 16 = 0 ∧ (rs1 %
      32 = 0 ∧ op = 0x0C ∧ v = j ∨ (op, v) ∈ [(0x0D, w64 (a.toNat % 2 ^ 32 + imm2 % 2 ^ 32 * 2 ^ 32)), (0x0E, a + j)])) ∨ (∃ n < 64, op =
      0x08 ∧ (imm, v) ∈ [(n, a <<< n), (64 + n, a >>> n), (128 + n, a.sshiftRight n)]) ∨ (∃ n < 32, op = 0x08 ∧ (imm, v) ∈ [(256 + n,
      BitVec.ofInt 64 (toSigned 32 (a.toNat * 2 ^ n))), (320 + n, BitVec.ofInt 64 (toSigned 32 (a.toNat % 2 ^ 32 / 2 ^ n))), (384 + n,
      BitVec.ofInt 64 (toSigned 32 a.toNat / (2 ^ n : Nat)))]) ∨ (∃ pos l, pos + l + 1 ≤ 64 ∧ op = 0x0F ∧ (imm, v) ∈ [(64 * l + pos, w64
      (a.toNat / 2 ^ pos % 2 ^ (l + 1))), (4096 + 64 * l + pos, BitVec.ofInt 64 (toSigned (l + 1) (a.toNat / 2 ^ pos)))]))) ∧
    (∃ (s : State) (t : Nat) (op : Nat) (rs1 : Nat) (imm : Nat) (imm2 : Nat) (len : Nat) (a : Word) (i : Word) (j : Word) (v : Word), ((len
      = (if op = 0x0C ∨ op = 0x0D ∨ op = 0x0E then 8 else 4)) ∧ s.issues t len 0 [rs1 % 32] ∧ a = s.reg t (rs1 % 32) ∧ i = (BitVec.ofNat 16
      imm).signExtend 64 ∧ j = (BitVec.ofNat 32 imm2).signExtend 64) ∧ ((op, v) ∈ [(0x04, a + i), (0x05, a &&& w64 (imm % 2 ^ 16)), (0x06, a
      ||| w64 (imm % 2 ^ 16)), (0x07, a ^^^ w64 (imm % 2 ^ 16)), (0x09, if a.toInt < i.toInt then 1 else 0), (0x0A, if a.toNat < i.toNat
      then 1 else 0)] ∨ (rs1 % 32 = 0 ∧ op = 0x0B ∧ v = BitVec.ofInt 64 (toSigned 32 (imm % 2 ^ 16 * 2 ^ 16))) ∨ (imm % 2 ^ 16 = 0 ∧ (rs1 %
      32 = 0 ∧ op = 0x0C ∧ v = j ∨ (op, v) ∈ [(0x0D, w64 (a.toNat % 2 ^ 32 + imm2 % 2 ^ 32 * 2 ^ 32)), (0x0E, a + j)])) ∨ (∃ n < 64, op =
      0x08 ∧ (imm, v) ∈ [(n, a <<< n), (64 + n, a >>> n), (128 + n, a.sshiftRight n)]) ∨ (∃ n < 32, op = 0x08 ∧ (imm, v) ∈ [(256 + n,
      BitVec.ofInt 64 (toSigned 32 (a.toNat * 2 ^ n))), (320 + n, BitVec.ofInt 64 (toSigned 32 (a.toNat % 2 ^ 32 / 2 ^ n))), (384 + n,
      BitVec.ofInt 64 (toSigned 32 a.toNat / (2 ^ n : Nat)))]) ∨ (∃ pos l, pos + l + 1 ≤ 64 ∧ op = 0x0F ∧ (imm, v) ∈ [(64 * l + pos, w64
      (a.toNat / 2 ^ pos % 2 ^ (l + 1))), (4096 + 64 * l + pos, BitVec.ofInt 64 (toSigned (l + 1) (a.toNat / 2 ^ pos)))]))) ∧
    (∃ (s : State) (t : Nat) (op : Nat) (rs1 : Nat) (imm : Nat) (imm2 : Nat) (len : Nat) (a : Word) (i : Word) (j : Word) (v : Word), ((len
      = (if op = 0x0C ∨ op = 0x0D ∨ op = 0x0E then 8 else 4)) ∧ s.issues t len 0 [rs1 % 32] ∧ a = s.reg t (rs1 % 32) ∧ i = (BitVec.ofNat 16
      imm).signExtend 64 ∧ j = (BitVec.ofNat 32 imm2).signExtend 64) ∧ ((op, v) ∈ [(0x04, a + i), (0x05, a &&& w64 (imm % 2 ^ 16)), (0x06, a
      ||| w64 (imm % 2 ^ 16)), (0x07, a ^^^ w64 (imm % 2 ^ 16)), (0x09, if a.toInt < i.toInt then 1 else 0), (0x0A, if a.toNat < i.toNat
      then 1 else 0)] ∨ (rs1 % 32 = 0 ∧ op = 0x0B ∧ v = BitVec.ofInt 64 (toSigned 32 (imm % 2 ^ 16 * 2 ^ 16))) ∨ (imm % 2 ^ 16 = 0 ∧ (rs1 %
      32 = 0 ∧ op = 0x0C ∧ v = j ∨ (op, v) ∈ [(0x0D, w64 (a.toNat % 2 ^ 32 + imm2 % 2 ^ 32 * 2 ^ 32)), (0x0E, a + j)])) ∨ (∃ n < 64, op =
      0x08 ∧ (imm, v) ∈ [(n, a <<< n), (64 + n, a >>> n), (128 + n, a.sshiftRight n)]) ∨ (∃ n < 32, op = 0x08 ∧ (imm, v) ∈ [(256 + n,
      BitVec.ofInt 64 (toSigned 32 (a.toNat * 2 ^ n))), (320 + n, BitVec.ofInt 64 (toSigned 32 (a.toNat % 2 ^ 32 / 2 ^ n))), (384 + n,
      BitVec.ofInt 64 (toSigned 32 a.toNat / (2 ^ n : Nat)))]) ∨ (∃ pos l, pos + l + 1 ≤ 64 ∧ op = 0x0F ∧ (imm, v) ∈ [(64 * l + pos, w64
      (a.toNat / 2 ^ pos % 2 ^ (l + 1))), (4096 + 64 * l + pos, BitVec.ofInt 64 (toSigned (l + 1) (a.toNat / 2 ^ pos)))]))) ∧
    (∃ (s : State) (t : Nat) (op : Nat) (rs1 : Nat) (imm : Nat) (imm2 : Nat) (len : Nat) (a : Word) (i : Word) (j : Word) (v : Word), ((len
      = (if op = 0x0C ∨ op = 0x0D ∨ op = 0x0E then 8 else 4)) ∧ s.issues t len 0 [rs1 % 32] ∧ a = s.reg t (rs1 % 32) ∧ i = (BitVec.ofNat 16
      imm).signExtend 64 ∧ j = (BitVec.ofNat 32 imm2).signExtend 64) ∧ ((op, v) ∈ [(0x04, a + i), (0x05, a &&& w64 (imm % 2 ^ 16)), (0x06, a
      ||| w64 (imm % 2 ^ 16)), (0x07, a ^^^ w64 (imm % 2 ^ 16)), (0x09, if a.toInt < i.toInt then 1 else 0), (0x0A, if a.toNat < i.toNat
      then 1 else 0)] ∨ (rs1 % 32 = 0 ∧ op = 0x0B ∧ v = BitVec.ofInt 64 (toSigned 32 (imm % 2 ^ 16 * 2 ^ 16))) ∨ (imm % 2 ^ 16 = 0 ∧ (rs1 %
      32 = 0 ∧ op = 0x0C ∧ v = j ∨ (op, v) ∈ [(0x0D, w64 (a.toNat % 2 ^ 32 + imm2 % 2 ^ 32 * 2 ^ 32)), (0x0E, a + j)])) ∨ (∃ n < 64, op =
      0x08 ∧ (imm, v) ∈ [(n, a <<< n), (64 + n, a >>> n), (128 + n, a.sshiftRight n)]) ∨ (∃ n < 32, op = 0x08 ∧ (imm, v) ∈ [(256 + n,
      BitVec.ofInt 64 (toSigned 32 (a.toNat * 2 ^ n))), (320 + n, BitVec.ofInt 64 (toSigned 32 (a.toNat % 2 ^ 32 / 2 ^ n))), (384 + n,
      BitVec.ofInt 64 (toSigned 32 a.toNat / (2 ^ n : Nat)))]) ∨ (∃ pos l, pos + l + 1 ≤ 64 ∧ op = 0x0F ∧ (imm, v) ∈ [(64 * l + pos, w64
      (a.toNat / 2 ^ pos % 2 ^ (l + 1))), (4096 + 64 * l + pos, BitVec.ofInt 64 (toSigned (l + 1) (a.toNat / 2 ^ pos)))]))) :=
  ⟨⟨ci 0 [(1,0x80000000),(2,0xFFFFFFFF)], 0, 1, 2, 0x404, 0x80000000, 0xFFFFFFFF, 0x80000000, by unfold State.issues; decide +kernel⟩,
   ⟨ci 0 [(1,0x80000000),(2,0)], 0, 1, 2, 0x406, 0x80000000, 0, 0x80000000, by unfold State.issues; decide +kernel⟩,
   ⟨ci 0 [(1,A)], 0, 0x04, 1, 0xFFFF, 0, 4, A, BitVec.allOnes 64, 0, 0x8000000000000004, by unfold State.issues; decide +kernel, .inl (by decide +kernel)⟩,
   ⟨ci 0 [(1,A)], 0, 0x0B, 0, 0x8000, 0, 4, 0, 0xFFFFFFFFFFFF8000, 0, 0xFFFFFFFF80000000, by unfold State.issues; decide +kernel, .inr (.inl (by decide +kernel))⟩,
   ⟨ci 0 [(1,A)], 0, 0x0C, 0, 0, 0x80000000, 8, 0, 0, 0xFFFFFFFF80000000, 0xFFFFFFFF80000000, by unfold State.issues; decide +kernel, .inr (.inr (.inl (by decide +kernel)))⟩,
   ⟨ci 0 [(1,A)], 0, 0x0D, 1, 0, 0x80000000, 8, A, 0, 0xFFFFFFFF80000000, 0x8000000000000005, by unfold State.issues; decide +kernel, .inr (.inr (.inl (by decide +kernel)))⟩,
   ⟨ci 0 [(1,A)], 0, 0x0E, 1, 0, 1, 8, A, 0, 1, 0x8000000000000006, by unfold State.issues; decide +kernel, .inr (.inr (.inl (by decide +kernel)))⟩,
   ⟨ci 0 [(1,A)], 0, 0x08, 1, 128+63, 0, 4, A, 191, 0, 0xFFFFFFFFFFFFFFFF, by unfold State.issues; decide +kernel, .inr (.inr (.inr (.inl ⟨63, by decide, rfl, by decide +kernel⟩)))⟩⟩
theorem witness_IntegerInstructions_6 :
    (∃ (s : State) (t : Nat) (op : Nat) (rs1 : Nat) (imm : Nat) (imm2 : Nat) (len : Nat) (a : Word) (i : Word) (j : Word) (v : Word), ((len
      = (if op = 0x0C ∨ op = 0x0D ∨ op = 0x0E then 8 else 4)) ∧ s.issues t len 0 [rs1 % 32] ∧ a = s.reg t (rs1 % 32) ∧ i = (BitVec.ofNat 16
      imm).signExtend 64 ∧ j = (BitVec.ofNat 32 imm2).signExtend 64) ∧ ((op, v) ∈ [(0x04, a + i), (0x05, a &&& w64 (imm % 2 ^ 16)), (0x06, a
      ||| w64 (imm % 2 ^ 16)), (0x07, a ^^^ w64 (imm % 2 ^ 16)), (0x09, if a.toInt < i.toInt then 1 else 0), (0x0A, if a.toNat < i.toNat
      then 1 else 0)] ∨ (rs1 % 32 = 0 ∧ op = 0x0B ∧ v = BitVec.ofInt 64 (toSigned 32 (imm % 2 ^ 16 * 2 ^ 16))) ∨ (imm % 2 ^ 16 = 0 ∧ (rs1 %
      32 = 0 ∧ op = 0x0C ∧ v = j ∨ (op, v) ∈ [(0x0D, w64 (a.toNat % 2 ^ 32 + imm2 % 2 ^ 32 * 2 ^ 32)), (0x0E, a + j)])) ∨ (∃ n < 64, op =
      0x08 ∧ (imm, v) ∈ [(n, a <<< n), (64 + n, a >>> n), (128 + n, a.sshiftRight n)]) ∨ (∃ n < 32, op = 0x08 ∧ (imm, v) ∈ [(256 + n,
      BitVec.ofInt 64 (toSigned 32 (a.toNat * 2 ^ n))), (320 + n, BitVec.ofInt 64 (toSigned 32 (a.toNat % 2 ^ 32 / 2 ^ n))), (384 + n,
      BitVec.ofInt 64 (toSigned 32 a.toNat / (2 ^ n : Nat)))]) ∨ (∃ pos l, pos + l + 1 ≤ 64 ∧ op = 0x0F ∧ (imm, v) ∈ [(64 * l + pos, w64
      (a.toNat / 2 ^ pos % 2 ^ (l + 1))), (4096 + 64 * l + pos, BitVec.ofInt 64 (toSigned (l + 1) (a.toNat / 2 ^ pos)))]))) ∧
    (∃ (s : State) (t : Nat) (op : Nat) (rs1 : Nat) (imm : Nat) (imm2 : Nat) (len : Nat) (a : Word) (i : Word) (j : Word) (v : Word), ((len
      = (if op = 0x0C ∨ op = 0x0D ∨ op = 0x0E then 8 else 4)) ∧ s.issues t len 0 [rs1 % 32] ∧ a = s.reg t (rs1 % 32) ∧ i = (BitVec.ofNat 16
      imm).signExtend 64 ∧ j = (BitVec.ofNat 32 imm2).signExtend 64) ∧ ((op, v) ∈ [(0x04, a + i), (0x05, a &&& w64 (imm % 2 ^ 16)), (0x06, a
      ||| w64 (imm % 2 ^ 16)), (0x07, a ^^^ w64 (imm % 2 ^ 16)), (0x09, if a.toInt < i.toInt then 1 else 0), (0x0A, if a.toNat < i.toNat
      then 1 else 0)] ∨ (rs1 % 32 = 0 ∧ op = 0x0B ∧ v = BitVec.ofInt 64 (toSigned 32 (imm % 2 ^ 16 * 2 ^ 16))) ∨ (imm % 2 ^ 16 = 0 ∧ (rs1 %
      32 = 0 ∧ op = 0x0C ∧ v = j ∨ (op, v) ∈ [(0x0D, w64 (a.toNat % 2 ^ 32 + imm2 % 2 ^ 32 * 2 ^ 32)), (0x0E, a + j)])) ∨ (∃ n < 64, op =
      0x08 ∧ (imm, v) ∈ [(n, a <<< n), (64 + n, a >>> n), (128 + n, a.sshiftRight n)]) ∨ (∃ n < 32, op = 0x08 ∧ (imm, v) ∈ [(256 + n,
      BitVec.ofInt 64 (toSigned 32 (a.toNat * 2 ^ n))), (320 + n, BitVec.ofInt 64 (toSigned 32 (a.toNat % 2 ^ 32 / 2 ^ n))), (384 + n,
      BitVec.ofInt 64 (toSigned 32 a.toNat / (2 ^ n : Nat)))]) ∨ (∃ pos l, pos + l + 1 ≤ 64 ∧ op = 0x0F ∧ (imm, v) ∈ [(64 * l + pos, w64
      (a.toNat / 2 ^ pos % 2 ^ (l + 1))), (4096 + 64 * l + pos, BitVec.ofInt 64 (toSigned (l + 1) (a.toNat / 2 ^ pos)))]))) ∧
    (∃ (s : State) (t : Nat) (op : Nat) (rs1 : Nat) (imm : Nat) (imm2 : Nat) (len : Nat) (a : Word) (i : Word) (j : Word) (v : Word), ((len
      = (if op = 0x0C ∨ op = 0x0D ∨ op = 0x0E then 8 else 4)) ∧ s.issues t len 0 [rs1 % 32] ∧ a = s.reg t (rs1 % 32) ∧ i = (BitVec.ofNat 16
      imm).signExtend 64 ∧ j = (BitVec.ofNat 32 imm2).signExtend 64) ∧ ((op, v) ∈ [(0x04, a + i), (0x05, a &&& w64 (imm % 2 ^ 16)), (0x06, a
      ||| w64 (imm % 2 ^ 16)), (0x07, a ^^^ w64 (imm % 2 ^ 16)), (0x09, if a.toInt < i.toInt then 1 else 0), (0x0A, if a.toNat < i.toNat
      then 1 else 0)] ∨ (rs1 % 32 = 0 ∧ op = 0x0B ∧ v = BitVec.ofInt 64 (toSigned 32 (imm % 2 ^ 16 * 2 ^ 16))) ∨ (imm % 2 ^ 16 = 0 ∧ (rs1 %
      32 = 0 ∧ op = 0x0C ∧ v = j ∨ (op, v) ∈ [(0x0D, w64 (a.toNat % 2 ^ 32 + imm2 % 2 ^ 32 * 2 ^ 32)), (0x0E, a + j)])) ∨ (∃ n < 64, op =
      0x08 ∧ (imm, v) ∈ [(n, a <<< n), (64 + n, a >>> n), (128 + n, a.sshiftRight n)]) ∨ (∃ n < 32, op = 0x08 ∧ (imm, v) ∈ [(256 + n,
      BitVec.ofInt 64 (toSigned 32 (a.toNat * 2 ^ n))), (320 + n, BitVec.ofInt 64 (toSigned 32 (a.toNat % 2 ^ 32 / 2 ^ n))), (384 + n,
      BitVec.ofInt 64 (toSigned 32 a.toNat / (2 ^ n : Nat)))]) ∨ (∃ pos l, pos + l + 1 ≤ 64 ∧ op = 0x0F ∧ (imm, v) ∈ [(64 * l + pos, w64
      (a.toNat / 2 ^ pos % 2 ^ (l + 1))), (4096 + 64 * l + pos, BitVec.ofInt 64 (toSigned (l + 1) (a.toNat / 2 ^ pos)))]))) ∧
    (∃ (s : State) (t : Nat) (op : Nat) (rs1 : Nat) (imm : Nat) (imm2 : Nat) (len : Nat) (a : Word) (i : Word) (j : Word) (v : Word), ((len
      = (if op = 0x0C ∨ op = 0x0D ∨ op = 0x0E then 8 else 4)) ∧ s.issues t len 0 [rs1 % 32] ∧ a = s.reg t (rs1 % 32) ∧ i = (BitVec.ofNat 16
      imm).signExtend 64 ∧ j = (BitVec.ofNat 32 imm2).signExtend 64) ∧ ((op, v) ∈ [(0x04, a + i), (0x05, a &&& w64 (imm % 2 ^ 16)), (0x06, a
      ||| w64 (imm % 2 ^ 16)), (0x07, a ^^^ w64 (imm % 2 ^ 16)), (0x09, if a.toInt < i.toInt then 1 else 0), (0x0A, if a.toNat < i.toNat
      then 1 else 0)] ∨ (rs1 % 32 = 0 ∧ op = 0x0B ∧ v = BitVec.ofInt 64 (toSigned 32 (imm % 2 ^ 16 * 2 ^ 16))) ∨ (imm % 2 ^ 16 = 0 ∧ (rs1 %
      32 = 0 ∧ op = 0x0C ∧ v = j ∨ (op, v) ∈ [(0x0D, w64 (a.toNat % 2 ^ 32 + imm2 % 2 ^ 32 * 2 ^ 32)), (0x0E, a + j)])) ∨ (∃ n < 64, op =
      0x08 ∧ (imm, v) ∈ [(n, a <<< n), (64 + n, a >>> n), (128 + n, a.sshiftRight n)]) ∨ (∃ n < 32, op = 0x08 ∧ (imm, v) ∈ [(256 + n,
      BitVec.ofInt 64 (toSigned 32 (a.toNat * 2 ^ n))), (320 + n, BitVec.ofInt 64 (toSigned 32 (a.toNat % 2 ^ 32 / 2 ^ n))), (384 + n,
      BitVec.ofInt 64 (toSigned 32 a.toNat / (2 ^ n : Nat)))]) ∨ (∃ pos l, pos + l + 1 ≤ 64 ∧ op = 0x0F ∧ (imm, v) ∈ [(64 * l + pos, w64
      (a.toNat / 2 ^ pos % 2 ^ (l + 1))), (4096 + 64 * l + pos, BitVec.ofInt 64 (toSigned (l + 1) (a.toNat / 2 ^ pos)))]))) ∧
    (∃ (s : State) (t : Nat) (op : Nat) (rs1 : Nat) (imm : Nat) (imm2 : Nat) (len : Nat) (a : Word) (i : Word) (j : Word) (v : Word), ((len
      = (if op = 0x0C ∨ op = 0x0D ∨ op = 0x0E then 8 else 4)) ∧ s.issues t len 0 [rs1 % 32] ∧ a = s.reg t (rs1 % 32) ∧ i = (BitVec.ofNat 16
      imm).signExtend 64 ∧ j = (BitVec.ofNat 32 imm2).signExtend 64) ∧ ((op, v) ∈ [(0x04, a + i), (0x05, a &&& w64 (imm % 2 ^ 16)), (0x06, a
      ||| w64 (imm % 2 ^ 16)), (0x07, a ^^^ w64 (imm % 2 ^ 16)), (0x09, if a.toInt < i.toInt then 1 else 0), (0x0A, if a.toNat < i.toNat
      then 1 else 0)] ∨ (rs1 % 32 = 0 ∧ op = 0x0B ∧ v = BitVec.ofInt 64 (toSigned 32 (imm % 2 ^ 16 * 2 ^ 16))) ∨ (imm % 2 ^ 16 = 0 ∧ (rs1 %
      32 = 0 ∧ op = 0x0C ∧ v = j ∨ (op, v) ∈ [(0x0D, w64 (a.toNat % 2 ^ 32 + imm2 % 2 ^ 32 * 2 ^ 32)), (0x0E, a + j)])) ∨ (∃ n < 64, op =
      0x08 ∧ (imm, v) ∈ [(n, a <<< n), (64 + n, a >>> n), (128 + n, a.sshiftRight n)]) ∨ (∃ n < 32, op = 0x08 ∧ (imm, v) ∈ [(256 + n,
      BitVec.ofInt 64 (toSigned 32 (a.toNat * 2 ^ n))), (320 + n, BitVec.ofInt 64 (toSigned 32 (a.toNat % 2 ^ 32 / 2 ^ n))), (384 + n,
      BitVec.ofInt 64 (toSigned 32 a.toNat / (2 ^ n : Nat)))]) ∨ (∃ pos l, pos + l + 1 ≤ 64 ∧ op = 0x0F ∧ (imm, v) ∈ [(64 * l + pos, w64
      (a.toNat / 2 ^ pos % 2 ^ (l + 1))), (4096 + 64 * l + pos, BitVec.ofInt 64 (toSigned (l + 1) (a.toNat / 2 ^ pos)))]))) :=
  ⟨⟨ci 0 [(1,A)], 0, 0x08, 1, 384+1, 0, 4, A, 385, 0, 2, by unfold State.issues; decide +kernel, .inr (.inr (.inr (.inr (.inl ⟨1, by decide, rfl, by decide +kernel⟩))))⟩,
   ⟨ci 0 [(1,A)], 0, 0x08, 1, 256+31, 0, 4, A, 287, 0, 0xFFFFFFFF80000000, by unfold State.issues; decide +kernel, .inr (.inr (.inr (.inr (.inl ⟨31, by decide, rfl, by decide +kernel⟩))))⟩,
   ⟨ci 0 [(1,A)], 0, 0x0F, 1, 64*2+61, 0, 4, A, 189, 0, 4, by unfold State.issues; decide +kernel, .inr (.inr (.inr (.inr (.inr (⟨61, 2, by decide, rfl, by decide +kernel⟩)))))⟩,
   ⟨ci 0 [(1,A)], 0, 0x0F, 1, 4096+64*2+61, 0, 4, A, 4285, 0, 0xFFFFFFFFFFFFFFFC, by unfold State.issues; decide +kernel, .inr (.inr (.inr (.inr (.inr (⟨61, 2, by decide, rfl, by decide +kernel⟩)))))⟩,
   ⟨ci 0 [(1,A)], 0, 0x0F, 1, 64*63, 0, 4, A, 4032, 0, A, by unfold State.issues; decide +kernel, .inr (.inr (.inr (.inr (.inr (⟨0, 63, by decide, rfl, by decide +kernel⟩)))))⟩⟩
theorem witness_ControlFlow_1 :
    (∃ (s : State) (t : Nat) (op : Nat) (ra : Nat) (rb : Nat) (a : Word) (b : Word) (taken : Bool), s.issues t 4 0 [ra % 32, rb % 32] ∧ a =
      s.reg t (ra % 32) ∧ b = s.reg t (rb % 32) ∧ (op, taken) ∈ [(0x20, decide (a = b)), (0x21, decide (a ≠ b)), (0x22, decide (a.toInt <
      b.toInt)), (0x23, decide (b.toInt ≤ a.toInt)), (0x24, decide (a.toNat < b.toNat)), (0x25, decide (b.toNat ≤ a.toNat))]) ∧
    (∃ (s : State) (t : Nat), s.issues t 4 0 []) ∧
    (∃ (s : State) (t : Nat) (rs1 : Nat) (imm : Nat) (a : Word), s.issues t 4 0 [rs1 % 32] ∧ a = s.reg t (rs1 % 32) + (BitVec.ofNat 16
      imm).signExtend 64 ∧ a.toNat % 4 = 0) ∧
    (∃ (s : State) (t : Nat) (rd : Nat) (rs1 : Nat) (rs2 : Nat) (fn : Nat) (c : Instr), s.issues t 4 0 [] ∧ rd % 32 = 0 ∧ rs1 % 32 = 0 ∧ rs2
      % 32 = 0 ∧ nbits fn 10 2 = 0 ∧ (c = .fence ⟨t, rd, rs1, rs2, fn⟩ ∧ fn % 4 ≠ 3 ∨ c = .fenceSt ⟨t, rd, rs1, rs2, fn⟩ ∨ c = .fenceI ⟨t, rd, rs1, rs2, fn⟩)) ∧
    (∃ (s : State) (t : Nat) (rd : Nat) (rs1 : Nat) (rs2 : Nat) (fn : Nat) (c : Instr), s.issues t 4 0 [] ∧ rd % 32 = 0 ∧ rs1 % 32 = 0 ∧ rs2
      % 32 = 0 ∧ nbits fn 10 2 = 0 ∧ (c = .fence ⟨t, rd, rs1, rs2, fn⟩ ∧ fn % 4 ≠ 3 ∨ c = .fenceSt ⟨t, rd, rs1, rs2, fn⟩ ∨ c = .fenceI ⟨t, rd, rs1, rs2, fn⟩)) ∧
    (∃ (s : State) (t : Nat) (rd : Nat) (rs1 : Nat) (rs2 : Nat) (fn : Nat) (c : Instr), s.issues t 4 0 [] ∧ rd % 32 = 0 ∧ rs1 % 32 = 0 ∧ rs2
      % 32 = 0 ∧ nbits fn 10 2 = 0 ∧ (c = .fence ⟨t, rd, rs1, rs2, fn⟩ ∧ fn % 4 ≠ 3 ∨ c = .fenceSt ⟨t, rd, rs1, rs2, fn⟩ ∨ c = .fenceI ⟨t, rd, rs1, rs2, fn⟩)) ∧
    (∃ (s : State) (t : Nat) (rd : Nat) (rs1 : Nat) (rs2 : Nat) (fn : Nat) (c : Instr), s.issues t 4 0 [] ∧ rd % 32 = 0 ∧ rs1 % 32 = 0 ∧ rs2
      % 32 = 0 ∧ nbits fn 10 2 = 0 ∧ (c = .fence ⟨t, rd, rs1, rs2, fn⟩ ∧ fn % 4 ≠ 3 ∨ c = .fenceSt ⟨t, rd, rs1, rs2, fn⟩ ∨ c = .fenceI ⟨t, rd, rs1, rs2, fn⟩)) ∧
    (∃ (s : State) (t : Nat) (rd : Nat) (rs1 : Nat) (rs2 : Nat) (fn : Nat) (c : Instr), s.issues t 4 0 [] ∧ rd % 32 = 0 ∧ rs1 % 32 = 0 ∧ rs2
      % 32 = 0 ∧ nbits fn 10 2 = 0 ∧ (c = .fence ⟨t, rd, rs1, rs2, fn⟩ ∧ fn % 4 ≠ 3 ∨ c = .fenceSt ⟨t, rd, rs1, rs2, fn⟩ ∨ c = .fenceI ⟨t, rd, rs1, rs2, fn⟩)) :=
  ⟨⟨ci 0 [(1,A),(2,B)], 0, 0x22, 1, 2, A, B, true, by unfold State.issues; decide +kernel⟩,
   ⟨ci 0 [], 0, by unfold State.issues; decide +kernel⟩,
   ⟨ci 0 [(1,0x2001)], 0, 1, 3, 0x2004, by unfold State.issues; decide +kernel⟩,
   ⟨ci 0 [], 0, 0, 0, 0, 0, .fence ⟨0, 0, 0, 0, 0⟩, by unfold State.issues; decide +kernel⟩,
   ⟨ci 0 [], 0, 32, 64, 0, 3, .fenceSt ⟨0, 32, 64, 0, 3⟩, by unfold State.issues; decide +kernel⟩,
   ⟨ci 0 [], 0, 0, 0, 0, 3, .fenceI ⟨0, 0, 0, 0, 3⟩, by unfold State.issues; decide +kernel⟩,
   ⟨(cpu { thr 0 [] with sb := [⟨0x7000,0,0x9000,true,[1]⟩] } up), 0, 0, 0, 0, 2, .fence ⟨0, 0, 0, 0, 2⟩, by unfold State.issues; decide +kernel⟩,
   ⟨(cpu { thr 0 [] with sb := [⟨0x7000,0,0x9000,true,[1]⟩] } up), 0, 0, 0, 0, 2, .fenceI ⟨0, 0, 0, 0, 2⟩, by unfold State.issues; decide +kernel⟩⟩
theorem witness_ControlFlow_2 :
    (∃ (s : State) (t : Nat) (rd : Nat) (rs1 : Nat) (rs2 : Nat) (fn : Nat) (c : Instr), s.issues t 4 0 [] ∧ rd % 32 = 0 ∧ rs1 % 32 = 0 ∧ rs2
      % 32 = 0 ∧ nbits fn 10 2 = 0 ∧ (c = .fence ⟨t, rd, rs1, rs2, fn⟩ ∧ fn % 4 ≠ 3 ∨ c = .fenceSt ⟨t, rd, rs1, rs2, fn⟩ ∨ c = .fenceI ⟨t, rd, rs1, rs2, fn⟩)) ∧
    (∃ (s : State) (t : Nat) (rd : Nat) (rs1 : Nat), s.issues t 4 0 [] ∧ rd % 32 = 0 ∧ rs1 % 32 = 0) ∧
    (∃ (s : State) (t : Nat) (rd : Nat) (rs1 : Nat), s.issues t 4 0 [] ∧ rd % 32 = 0 ∧ rs1 % 32 = 0) ∧
    (∃ (s : State) (t : Nat) (rd : Nat) (rs1 : Nat) (n : Nat) (kind : Nat), s.issues t 4 0 [] ∧ rd % 32 = 0 ∧ rs1 % 32 = 0 ∧ n % 256 ≠ 0 ∧
      kind % 256 ≤ 4) ∧
    (∃ (s : State) (t : Nat) (rd : Nat) (rs1 : Nat) (n : Nat) (kind : Nat), s.issues t 4 0 [] ∧ rd % 32 = 0 ∧ rs1 % 32 = 0 ∧ n % 256 ≠ 0 ∧
      kind % 256 ≤ 4) :=
  ⟨⟨(cpu { thr 0 [] with sb := [⟨0x7000,0,0x9000,true,[1]⟩] } up), 0, 0, 0, 0, 2, .fenceSt ⟨0, 0, 0, 0, 2⟩, by unfold State.issues; decide +kernel⟩,
   ⟨ci 0 [], 0, 0, 0, by unfold State.issues; decide +kernel⟩,
   ⟨(cpu { thr 0 [] with sb := [⟨0x7000,0,0x9000,true,[1]⟩] } up), 0, 32, 0, by unfold State.issues; decide +kernel⟩,
   ⟨ci 0 [], 0, 0, 0, 7, 4, by unfold State.issues; decide +kernel⟩,
   ⟨ci 0 [], 0, 0, 32, 255, 0, by unfold State.issues; decide +kernel⟩⟩
theorem witness_LoadsAndStores :
    (∃ (s : State) (t : Nat) (op : Nat) (rs1 : Nat) (imm : Nat) (n : Nat) (key : Nat) (signed : Bool) (a : Word), s.issues t 4 0 [rs1 % 32]
      ∧ (op, n, signed) ∈ [(0x10, 1, true), (0x11, 2, true), (0x12, 4, true), (0x13, 8, true), (0x14, 1, false), (0x15, 2, false), (0x16, 4,
      false)] ∧ a = s.reg t (rs1 % 32) + (BitVec.ofNat 16 imm).signExtend 64 ∧ a.toNat % n = 0 ∧ 2 ^ 63 ≤ a.toNat ∧ s.nearKey t a.toNat n
      .read = some key ∧ s.bad key n = false) ∧
    (∃ (s : State) (t : Nat) (op : Nat) (rd : Nat) (rs1 : Nat) (imm : Nat) (n : Nat) (key : Nat) (a : Word), s.issues t 4 0 [rs1 % 32, rd %
      32] ∧ (op, n) ∈ [(0x18, 1), (0x19, 2), (0x1A, 4), (0x1B, 8)] ∧ a = s.reg t (rs1 % 32) + (BitVec.ofNat 16 imm).signExtend 64 ∧ a.toNat
      % n = 0 ∧ 2 ^ 63 ≤ a.toNat ∧ s.nearKey t a.toNat n .write = some key) ∧
    (∃ (s : State) (t : Nat) (rd : Nat) (rs1 : Nat) (rs2 : Nat) (fn : Nat) (n : Nat) (key : Nat) (a : Word) (old : Nat) (new : Nat) (x :
      Nat) (e : Nat), fn < 128 ∧ fn % 16 < 10 ∧ s.issues t 4 0 ([rs1 % 32, rs2 % 32] ++ if fn % 16 = 9 then [rd % 32] else []) ∧ n = (if
      nbit fn 4 then 4 else 8) ∧ (nbit fn 6 = true → (s.thread t).sb = []) ∧ a = s.reg t (rs1 % 32) ∧ a.toNat % n = 0 ∧ 2 ^ 63 ≤ a.toNat ∧
      s.nearKey t a.toNat n .atomic = some key ∧ s.bad key n = false ∧ old = s.nearValue t a.toNat n .atomic ∧ x = (s.reg t (rs2 %
      32)).toNat % 2 ^ (8 * n) ∧ e = (s.reg t (rd % 32)).toNat % 2 ^ (8 * n) ∧ (fn % 16, new) ∈ [(0, x), (1, (old + x) % 2 ^ (8 * n)), (2,
      old &&& x), (3, old ||| x), (4, old ^^^ x), (5, ofSigned (8 * n) (min (toSigned (8 * n) old) (toSigned (8 * n) x))), (6, ofSigned (8 *
      n) (max (toSigned (8 * n) old) (toSigned (8 * n) x))), (7, min old x), (8, max old x), (9, if old = e then x else old)]) :=
  ⟨⟨(ci 0 [(1,L0)]).mwrite (ldmKey 0 0x42) [0x80,0xFF], 0, 0x11, 1, 2, 2, ldmKey 0 0x42, true, 0x8000000000000042, by unfold State.issues; decide +kernel⟩,
   ⟨ci 0 [(1,L0),(3,A)], 0, 0x1B, 3, 1, 8, 8, ldmKey 0 0x48, 0x8000000000000048, by unfold State.issues; decide +kernel⟩,
   ⟨(ci 0 [(1,L0),(2,A),(3,7)]).mwrite (ldmKey 0 0x40) [7], 0, 3, 1, 2, 9, 8, ldmKey 0 0x40, L0, 7, 0x8000000000000005, 0x8000000000000005, 7, by unfold State.issues; decide +kernel⟩⟩
theorem witness_FarMemory :
    (∃ (s : State) (t : Nat) (op : Nat) (rs1 : Nat) (imm : Nat) (n : Nat) (ask : Nat) (p : Nat) (signed : Bool) (a : Word), s.issues t 4 0
      [rs1 % 32] ∧ (op, n, signed) ∈ [(0x10, 1, true), (0x11, 2, true), (0x12, 4, true), (0x13, 8, true), (0x14, 1, false), (0x15, 2,
      false), (0x16, 4, false)] ∧ a = s.reg t (rs1 % 32) + (BitVec.ofNat 16 imm).signExtend 64 ∧ a.toNat % n = 0 ∧ a.toNat < 2 ^ 63 ∧
      ((s.fetched t 4).farPlace t a.toNat .read false).1 = .far ask p true ∧ (s.thread t).sb = []) ∧
    (∃ (s : State) (t : Nat) (ask : Nat) (va : Nat) (p : Nat) (n : Nat) (rd : Nat) (signed : Bool), (s.thread t).wait = .farLoad ask va p
      true n signed rd ∧ s.inSafe = false ∧ (s.thread t).running = true ∧ s.bad (hbmKey p) n = false) ∧
    (∃ (s : State) (t : Nat) (op : Nat) (rd : Nat) (rs1 : Nat) (imm : Nat) (n : Nat) (ask : Nat) (p : Nat) (hbm : Bool) (a : Word), s.issues
      t 4 0 [rs1 % 32, rd % 32] ∧ (op, n) ∈ [(0x18, 1), (0x19, 2), (0x1A, 4), (0x1B, 8)] ∧ a = s.reg t (rs1 % 32) + (BitVec.ofNat 16
      imm).signExtend 64 ∧ a.toNat % n = 0 ∧ a.toNat < 2 ^ 63 ∧ ((s.fetched t 4).farPlace t a.toNat .write false).1 = .far ask p hbm ∧
      (s.thread t).sb.length < 8) ∧
    (∃ (s : State) (t : Nat) (i : Nat) (n : Nat) (e : StoreEntry) (v : Word), ((s.thread t).sb[i]? = some e ∧ e.hbm = true ∧ e.data =
      leBytes n v.toNat ∧ s.inSafe = false ∧ sbOverlap ((s.thread t).sb.take i) e.paddr true e.data.length = false) ∧ (∀ k, (s.thread
      t).wait ≠ .drain k)) ∧
    (∃ (s : State) (t : Nat) (line : Nat) (va : Word), (s.thread t).wait = .fetch 1 line va ∧ s.inSafe = false ∧ (s.thread t).running = true
      ∧ s.bad (hbmKey (line * 64)) 64 = false) :=
  ⟨⟨hbmPage (thr 0 [(1,0x7000)]) up, 0, 0x13, 1, 8, 8, 0, 0x9008, true, 0x7008, by unfold State.issues; decide +kernel⟩,
   ⟨up.setThread 0 loadW, 0, 0, 0x7000, 0x9000, 8, 5, false, by decide +kernel⟩,
   ⟨hbmPage (thr 0 [(1,0x7000),(3,A)]) up, 0, 0x1A, 3, 1, 8, 4, 0, 0x9008, true, 0x7008, by unfold State.issues; decide +kernel⟩,
   ⟨up.setThread 0 sbTh, 0, 0, 8, ⟨0x7000,0,0x9000,true,leBytes 8 0x1122334455667788⟩, 0x1122334455667788, by decide +kernel, nofun⟩,
   ⟨(up.setThread 0 { lvl 0 with running := true, wait := .fetch 1 0x55 0x1000 }), 0, 0x55, 0x1000, by decide +kernel⟩⟩
theorem witness_ControlRegisters_1 :
    (∃ (s : State) (t : Nat) (rd : Nat) (rs1 : Nat) (csr : Nat) (kind : Nat) (v : Word) (c : Instr), (csr, v) ∈ [(0x000, w64 t), (0x001, w64
      (s.thread t).priv), (0x002, (s.thread t).item.csr), (0x400, w64 (s.thread t).xask), (0x401, (s.thread t).epc), (0x402, w64 (s.thread
      t).ecause), (0x403, (s.thread t).eval), (0x404, w64 (b2n (s.thread t).excActive * 256 + (s.thread t).prev)), (0x405, w64 (s.thread
      t).exask), (0x406, w64 (if (s.thread t).budget = 0 then 0xFFFF else ((s.thread t).budget * ticksPerUs - s.locSince (s.thread
      t).startAt) / ticksPerUs)), (0x408, (s.thread t).sscratch.get 0 0), (0x409, (s.thread t).sscratch.get 0 1), (0x40A, (s.thread
      t).sscratch.get 0 2), (0x40B, (s.thread t).sscratch.get 0 3)] ∧ s.issues t 4 (if csr < 0x400 then 0 else 1) [] ∧ rs1 % 32 = 0 ∧ (c =
      .csrr ⟨t, rs1, kind⟩ rd csr ∧ kind % 16 < 4 ∨ c = .csrs t rd rs1 csr ∨ c = .csrc t rd rs1 csr)) ∧
    (∃ (s : State) (t : Nat) (rd : Nat) (rs1 : Nat) (csr : Nat) (kind : Nat) (v : Word) (c : Instr), (csr, v) ∈ [(0x000, w64 t), (0x001, w64
      (s.thread t).priv), (0x002, (s.thread t).item.csr), (0x400, w64 (s.thread t).xask), (0x401, (s.thread t).epc), (0x402, w64 (s.thread
      t).ecause), (0x403, (s.thread t).eval), (0x404, w64 (b2n (s.thread t).excActive * 256 + (s.thread t).prev)), (0x405, w64 (s.thread
      t).exask), (0x406, w64 (if (s.thread t).budget = 0 then 0xFFFF else ((s.thread t).budget * ticksPerUs - s.locSince (s.thread
      t).startAt) / ticksPerUs)), (0x408, (s.thread t).sscratch.get 0 0), (0x409, (s.thread t).sscratch.get 0 1), (0x40A, (s.thread
      t).sscratch.get 0 2), (0x40B, (s.thread t).sscratch.get 0 3)] ∧ s.issues t 4 (if csr < 0x400 then 0 else 1) [] ∧ rs1 % 32 = 0 ∧ (c =
      .csrr ⟨t, rs1, kind⟩ rd csr ∧ kind % 16 < 4 ∨ c = .csrs t rd rs1 csr ∨ c = .csrc t rd rs1 csr)) ∧
    (∃ (s : State) (t : Nat) (rd : Nat) (rs1 : Nat) (csr : Nat) (kind : Nat) (v : Word) (c : Instr), (csr, v) ∈ [(0x000, w64 t), (0x001, w64
      (s.thread t).priv), (0x002, (s.thread t).item.csr), (0x400, w64 (s.thread t).xask), (0x401, (s.thread t).epc), (0x402, w64 (s.thread
      t).ecause), (0x403, (s.thread t).eval), (0x404, w64 (b2n (s.thread t).excActive * 256 + (s.thread t).prev)), (0x405, w64 (s.thread
      t).exask), (0x406, w64 (if (s.thread t).budget = 0 then 0xFFFF else ((s.thread t).budget * ticksPerUs - s.locSince (s.thread
      t).startAt) / ticksPerUs)), (0x408, (s.thread t).sscratch.get 0 0), (0x409, (s.thread t).sscratch.get 0 1), (0x40A, (s.thread
      t).sscratch.get 0 2), (0x40B, (s.thread t).sscratch.get 0 3)] ∧ s.issues t 4 (if csr < 0x400 then 0 else 1) [] ∧ rs1 % 32 = 0 ∧ (c =
      .csrr ⟨t, rs1, kind⟩ rd csr ∧ kind % 16 < 4 ∨ c = .csrs t rd rs1 csr ∨ c = .csrc t rd rs1 csr)) ∧
    (∃ (s : State) (t : Nat) (rd : Nat) (rs1 : Nat) (csr : Nat) (kind : Nat) (v : Word) (c : Instr), (csr, v) ∈ [(0x000, w64 t), (0x001, w64
      (s.thread t).priv), (0x002, (s.thread t).item.csr), (0x400, w64 (s.thread t).xask), (0x401, (s.thread t).epc), (0x402, w64 (s.thread
      t).ecause), (0x403, (s.thread t).eval), (0x404, w64 (b2n (s.thread t).excActive * 256 + (s.thread t).prev)), (0x405, w64 (s.thread
      t).exask), (0x406, w64 (if (s.thread t).budget = 0 then 0xFFFF else ((s.thread t).budget * ticksPerUs - s.locSince (s.thread
      t).startAt) / ticksPerUs)), (0x408, (s.thread t).sscratch.get 0 0), (0x409, (s.thread t).sscratch.get 0 1), (0x40A, (s.thread
      t).sscratch.get 0 2), (0x40B, (s.thread t).sscratch.get 0 3)] ∧ s.issues t 4 (if csr < 0x400 then 0 else 1) [] ∧ rs1 % 32 = 0 ∧ (c =
      .csrr ⟨t, rs1, kind⟩ rd csr ∧ kind % 16 < 4 ∨ c = .csrs t rd rs1 csr ∨ c = .csrc t rd rs1 csr)) ∧
    (∃ (s : State) (t : Nat) (rd : Nat) (rs1 : Nat) (csr : Nat) (kind : Nat) (v : Word) (c : Instr), (csr, v) ∈ [(0x000, w64 t), (0x001, w64
      (s.thread t).priv), (0x002, (s.thread t).item.csr), (0x400, w64 (s.thread t).xask), (0x401, (s.thread t).epc), (0x402, w64 (s.thread
      t).ecause), (0x403, (s.thread t).eval), (0x404, w64 (b2n (s.thread t).excActive * 256 + (s.thread t).prev)), (0x405, w64 (s.thread
      t).exask), (0x406, w64 (if (s.thread t).budget = 0 then 0xFFFF else ((s.thread t).budget * ticksPerUs - s.locSince (s.thread
      t).startAt) / ticksPerUs)), (0x408, (s.thread t).sscratch.get 0 0), (0x409, (s.thread t).sscratch.get 0 1), (0x40A, (s.thread
      t).sscratch.get 0 2), (0x40B, (s.thread t).sscratch.get 0 3)] ∧ s.issues t 4 (if csr < 0x400 then 0 else 1) [] ∧ rs1 % 32 = 0 ∧ (c =
      .csrr ⟨t, rs1, kind⟩ rd csr ∧ kind % 16 < 4 ∨ c = .csrs t rd rs1 csr ∨ c = .csrc t rd rs1 csr)) ∧
    (∃ (s : State) (t : Nat) (rd : Nat) (rs1 : Nat) (csr : Nat) (kind : Nat) (v : Word) (c : Instr), (csr, v) ∈ [(0x000, w64 t), (0x001, w64
      (s.thread t).priv), (0x002, (s.thread t).item.csr), (0x400, w64 (s.thread t).xask), (0x401, (s.thread t).epc), (0x402, w64 (s.thread
      t).ecause), (0x403, (s.thread t).eval), (0x404, w64 (b2n (s.thread t).excActive * 256 + (s.thread t).prev)), (0x405, w64 (s.thread
      t).exask), (0x406, w64 (if (s.thread t).budget = 0 then 0xFFFF else ((s.thread t).budget * ticksPerUs - s.locSince (s.thread
      t).startAt) / ticksPerUs)), (0x408, (s.thread t).sscratch.get 0 0), (0x409, (s.thread t).sscratch.get 0 1), (0x40A, (s.thread
      t).sscratch.get 0 2), (0x40B, (s.thread t).sscratch.get 0 3)] ∧ s.issues t 4 (if csr < 0x400 then 0 else 1) [] ∧ rs1 % 32 = 0 ∧ (c =
      .csrr ⟨t, rs1, kind⟩ rd csr ∧ kind % 16 < 4 ∨ c = .csrs t rd rs1 csr ∨ c = .csrc t rd rs1 csr)) ∧
    (∃ (s : State) (t : Nat) (rs1 : Nat) (csr : Nat) (r : Word) (old : Word) (v : Word) (th : Thread), s.issues t 4 1 [rs1 % 32] ∧ r = s.reg
      t (rs1 % 32) ∧ (csr, old, th) ∈ [(0x400, w64 (s.thread t).xask, { s.thread t with xask := v.toNat % 2 ^ 20 }), (0x401, (s.thread
      t).epc, { s.thread t with epc := v }), (0x402, w64 (s.thread t).ecause, { s.thread t with ecause := v.toNat % 16 }), (0x403, (s.thread
      t).eval, { s.thread t with eval := v }), (0x404, w64 (b2n (s.thread t).excActive * 256 + (s.thread t).prev),
      { s.thread t with prev := v.toNat % 4 }), (0x405, w64 (s.thread t).exask, { s.thread t with exask := v.toNat % 2 ^ 20 }), (0x408,
      (s.thread t).sscratch.get 0 0, { s.thread t with sscratch := (s.thread t).sscratch.set 0 0 v }), (0x409, (s.thread t).sscratch.get 0
      1, { s.thread t with sscratch := (s.thread t).sscratch.set 0 1 v }), (0x40A, (s.thread t).sscratch.get 0 2,
      { s.thread t with sscratch := (s.thread t).sscratch.set 0 2 v }), (0x40B, (s.thread t).sscratch.get 0 3,
      { s.thread t with sscratch := (s.thread t).sscratch.set 0 3 v })]) ∧
    (∃ (s : State) (t : Nat) (rs1 : Nat) (csr : Nat) (r : Word) (old : Word) (v : Word) (th : Thread), s.issues t 4 1 [rs1 % 32] ∧ r = s.reg
      t (rs1 % 32) ∧ (csr, old, th) ∈ [(0x400, w64 (s.thread t).xask, { s.thread t with xask := v.toNat % 2 ^ 20 }), (0x401, (s.thread
      t).epc, { s.thread t with epc := v }), (0x402, w64 (s.thread t).ecause, { s.thread t with ecause := v.toNat % 16 }), (0x403, (s.thread
      t).eval, { s.thread t with eval := v }), (0x404, w64 (b2n (s.thread t).excActive * 256 + (s.thread t).prev),
      { s.thread t with prev := v.toNat % 4 }), (0x405, w64 (s.thread t).exask, { s.thread t with exask := v.toNat % 2 ^ 20 }), (0x408,
      (s.thread t).sscratch.get 0 0, { s.thread t with sscratch := (s.thread t).sscratch.set 0 0 v }), (0x409, (s.thread t).sscratch.get 0
      1, { s.thread t with sscratch := (s.thread t).sscratch.set 0 1 v }), (0x40A, (s.thread t).sscratch.get 0 2,
      { s.thread t with sscratch := (s.thread t).sscratch.set 0 2 v }), (0x40B, (s.thread t).sscratch.get 0 3,
      { s.thread t with sscratch := (s.thread t).sscratch.set 0 3 v })]) :=
  ⟨⟨ci 1 [], 0, 3, 0, 0x400, 0, 0, .csrr ⟨0, 0, 0⟩ 3 0x400, by unfold State.issues; decide +kernel⟩,
   ⟨ci 1 [], 0, 3, 0, 0x406, 3, 0xFFFF, .csrr ⟨0, 0, 3⟩ 3 0x406, by unfold State.issues; decide +kernel⟩,
   ⟨at_ 8000 (cpu { lvl 1 with budget := 5 } up), 0, 3, 32, 0x406, 0, 3, .csrs 0 3 32 0x406, by unfold State.issues; decide +kernel⟩,
   ⟨(cpu { lvl 2 with excActive := true, prev := 1 } up), 0, 3, 0, 0x404, 0, 257, .csrc 0 3 0 0x404, by unfold State.issues; decide +kernel⟩,
   ⟨ci 0 [], 0, 0, 0, 0x001, 0, 0, .csrr ⟨0, 0, 0⟩ 0 0x001, by unfold State.issues; decide +kernel⟩,
   ⟨ci 0 [], 0, 1, 0, 0x002, 0, Item.csr (lvl 0).item, .csrr ⟨0, 0, 0⟩ 1 0x002, by unfold State.issues; decide +kernel⟩,
   ⟨ci 1 [(2,A)], 0, 2, 0x400, A, 0, A, { ((ci 1 [(2,A)]).thread 0) with xask := 5 }, by unfold State.issues; decide +kernel⟩,
   ⟨ci 1 [(2,A)], 0, 2, 0x401, A, 0, A, { ((ci 1 [(2,A)]).thread 0) with epc := A }, by unfold State.issues; decide +kernel⟩⟩
theorem witness_ControlRegisters_2 :
    (∃ (s : State) (t : Nat) (rs1 : Nat) (csr : Nat) (r : Word) (old : Word) (v : Word) (th : Thread), s.issues t 4 1 [rs1 % 32] ∧ r = s.reg
      t (rs1 % 32) ∧ (csr, old, th) ∈ [(0x400, w64 (s.thread t).xask, { s.thread t with xask := v.toNat % 2 ^ 20 }), (0x401, (s.thread
      t).epc, { s.thread t with epc := v }), (0x402, w64 (s.thread t).ecause, { s.thread t with ecause := v.toNat % 16 }), (0x403, (s.thread
      t).eval, { s.thread t with eval := v }), (0x404, w64 (b2n (s.thread t).excActive * 256 + (s.thread t).prev),
      { s.thread t with prev := v.toNat % 4 }), (0x405, w64 (s.thread t).exask, { s.thread t with exask := v.toNat % 2 ^ 20 }), (0x408,
      (s.thread t).sscratch.get 0 0, { s.thread t with sscratch := (s.thread t).sscratch.set 0 0 v }), (0x409, (s.thread t).sscratch.get 0
      1, { s.thread t with sscratch := (s.thread t).sscratch.set 0 1 v }), (0x40A, (s.thread t).sscratch.get 0 2,
      { s.thread t with sscratch := (s.thread t).sscratch.set 0 2 v }), (0x40B, (s.thread t).sscratch.get 0 3,
      { s.thread t with sscratch := (s.thread t).sscratch.set 0 3 v })]) ∧
    (∃ (s : State) (t : Nat) (rs1 : Nat) (csr : Nat) (r : Word) (old : Word) (v : Word) (th : Thread), s.issues t 4 1 [rs1 % 32] ∧ r = s.reg
      t (rs1 % 32) ∧ (csr, old, th) ∈ [(0x400, w64 (s.thread t).xask, { s.thread t with xask := v.toNat % 2 ^ 20 }), (0x401, (s.thread
      t).epc, { s.thread t with epc := v }), (0x402, w64 (s.thread t).ecause, { s.thread t with ecause := v.toNat % 16 }), (0x403, (s.thread
      t).eval, { s.thread t with eval := v }), (0x404, w64 (b2n (s.thread t).excActive * 256 + (s.thread t).prev),
      { s.thread t with prev := v.toNat % 4 }), (0x405, w64 (s.thread t).exask, { s.thread t with exask := v.toNat % 2 ^ 20 }), (0x408,
      (s.thread t).sscratch.get 0 0, { s.thread t with sscratch := (s.thread t).sscratch.set 0 0 v }), (0x409, (s.thread t).sscratch.get 0
      1, { s.thread t with sscratch := (s.thread t).sscratch.set 0 1 v }), (0x40A, (s.thread t).sscratch.get 0 2,
      { s.thread t with sscratch := (s.thread t).sscratch.set 0 2 v }), (0x40B, (s.thread t).sscratch.get 0 3,
      { s.thread t with sscratch := (s.thread t).sscratch.set 0 3 v })]) ∧
    (∃ (s : State) (t : Nat) (rs1 : Nat) (csr : Nat) (r : Word) (old : Word) (v : Word) (th : Thread), s.issues t 4 1 [rs1 % 32] ∧ r = s.reg
      t (rs1 % 32) ∧ (csr, old, th) ∈ [(0x400, w64 (s.thread t).xask, { s.thread t with xask := v.toNat % 2 ^ 20 }), (0x401, (s.thread
      t).epc, { s.thread t with epc := v }), (0x402, w64 (s.thread t).ecause, { s.thread t with ecause := v.toNat % 16 }), (0x403, (s.thread
      t).eval, { s.thread t with eval := v }), (0x404, w64 (b2n (s.thread t).excActive * 256 + (s.thread t).prev),
      { s.thread t with prev := v.toNat % 4 }), (0x405, w64 (s.thread t).exask, { s.thread t with exask := v.toNat % 2 ^ 20 }), (0x408,
      (s.thread t).sscratch.get 0 0, { s.thread t with sscratch := (s.thread t).sscratch.set 0 0 v }), (0x409, (s.thread t).sscratch.get 0
      1, { s.thread t with sscratch := (s.thread t).sscratch.set 0 1 v }), (0x40A, (s.thread t).sscratch.get 0 2,
      { s.thread t with sscratch := (s.thread t).sscratch.set 0 2 v }), (0x40B, (s.thread t).sscratch.get 0 3,
      { s.thread t with sscratch := (s.thread t).sscratch.set 0 3 v })]) ∧
    (∃ (s : State) (t : Nat) (rs1 : Nat) (csr : Nat) (r : Word) (old : Word) (v : Word) (th : Thread), s.issues t 4 1 [rs1 % 32] ∧ r = s.reg
      t (rs1 % 32) ∧ (csr, old, th) ∈ [(0x400, w64 (s.thread t).xask, { s.thread t with xask := v.toNat % 2 ^ 20 }), (0x401, (s.thread
      t).epc, { s.thread t with epc := v }), (0x402, w64 (s.thread t).ecause, { s.thread t with ecause := v.toNat % 16 }), (0x403, (s.thread
      t).eval, { s.thread t with eval := v }), (0x404, w64 (b2n (s.thread t).excActive * 256 + (s.thread t).prev),
      { s.thread t with prev := v.toNat % 4 }), (0x405, w64 (s.thread t).exask, { s.thread t with exask := v.toNat % 2 ^ 20 }), (0x408,
      (s.thread t).sscratch.get 0 0, { s.thread t with sscratch := (s.thread t).sscratch.set 0 0 v }), (0x409, (s.thread t).sscratch.get 0
      1, { s.thread t with sscratch := (s.thread t).sscratch.set 0 1 v }), (0x40A, (s.thread t).sscratch.get 0 2,
      { s.thread t with sscratch := (s.thread t).sscratch.set 0 2 v }), (0x40B, (s.thread t).sscratch.get 0 3,
      { s.thread t with sscratch := (s.thread t).sscratch.set 0 3 v })]) ∧
    (∃ (s : State) (t : Nat) (rs1 : Nat) (csr : Nat) (r : Word) (old : Word) (v : Word) (th : Thread), s.issues t 4 1 [rs1 % 32] ∧ r = s.reg
      t (rs1 % 32) ∧ (csr, old, th) ∈ [(0x400, w64 (s.thread t).xask, { s.thread t with xask := v.toNat % 2 ^ 20 }), (0x401, (s.thread
      t).epc, { s.thread t with epc := v }), (0x402, w64 (s.thread t).ecause, { s.thread t with ecause := v.toNat % 16 }), (0x403, (s.thread
      t).eval, { s.thread t with eval := v }), (0x404, w64 (b2n (s.thread t).excActive * 256 + (s.thread t).prev),
      { s.thread t with prev := v.toNat % 4 }), (0x405, w64 (s.thread t).exask, { s.thread t with exask := v.toNat % 2 ^ 20 }), (0x408,
      (s.thread t).sscratch.get 0 0, { s.thread t with sscratch := (s.thread t).sscratch.set 0 0 v }), (0x409, (s.thread t).sscratch.get 0
      1, { s.thread t with sscratch := (s.thread t).sscratch.set 0 1 v }), (0x40A, (s.thread t).sscratch.get 0 2,
      { s.thread t with sscratch := (s.thread t).sscratch.set 0 2 v }), (0x40B, (s.thread t).sscratch.get 0 3,
      { s.thread t with sscratch := (s.thread t).sscratch.set 0 3 v })]) ∧
    (∃ (s : State) (t : Nat) (rs1 : Nat) (csr : Nat) (r : Word) (old : Word) (v : Word) (th : Thread), s.issues t 4 1 [rs1 % 32] ∧ r = s.reg
      t (rs1 % 32) ∧ (csr, old, th) ∈ [(0x400, w64 (s.thread t).xask, { s.thread t with xask := v.toNat % 2 ^ 20 }), (0x401, (s.thread
      t).epc, { s.thread t with epc := v }), (0x402, w64 (s.thread t).ecause, { s.thread t with ecause := v.toNat % 16 }), (0x403, (s.thread
      t).eval, { s.thread t with eval := v }), (0x404, w64 (b2n (s.thread t).excActive * 256 + (s.thread t).prev),
      { s.thread t with prev := v.toNat % 4 }), (0x405, w64 (s.thread t).exask, { s.thread t with exask := v.toNat % 2 ^ 20 }), (0x408,
      (s.thread t).sscratch.get 0 0, { s.thread t with sscratch := (s.thread t).sscratch.set 0 0 v }), (0x409, (s.thread t).sscratch.get 0
      1, { s.thread t with sscratch := (s.thread t).sscratch.set 0 1 v }), (0x40A, (s.thread t).sscratch.get 0 2,
      { s.thread t with sscratch := (s.thread t).sscratch.set 0 2 v }), (0x40B, (s.thread t).sscratch.get 0 3,
      { s.thread t with sscratch := (s.thread t).sscratch.set 0 3 v })]) ∧
    (∃ (s : State) (t : Nat) (rs1 : Nat) (csr : Nat) (r : Word) (old : Word) (v : Word) (th : Thread), s.issues t 4 1 [rs1 % 32] ∧ r = s.reg
      t (rs1 % 32) ∧ (csr, old, th) ∈ [(0x400, w64 (s.thread t).xask, { s.thread t with xask := v.toNat % 2 ^ 20 }), (0x401, (s.thread
      t).epc, { s.thread t with epc := v }), (0x402, w64 (s.thread t).ecause, { s.thread t with ecause := v.toNat % 16 }), (0x403, (s.thread
      t).eval, { s.thread t with eval := v }), (0x404, w64 (b2n (s.thread t).excActive * 256 + (s.thread t).prev),
      { s.thread t with prev := v.toNat % 4 }), (0x405, w64 (s.thread t).exask, { s.thread t with exask := v.toNat % 2 ^ 20 }), (0x408,
      (s.thread t).sscratch.get 0 0, { s.thread t with sscratch := (s.thread t).sscratch.set 0 0 v }), (0x409, (s.thread t).sscratch.get 0
      1, { s.thread t with sscratch := (s.thread t).sscratch.set 0 1 v }), (0x40A, (s.thread t).sscratch.get 0 2,
      { s.thread t with sscratch := (s.thread t).sscratch.set 0 2 v }), (0x40B, (s.thread t).sscratch.get 0 3,
      { s.thread t with sscratch := (s.thread t).sscratch.set 0 3 v })]) ∧
    (∃ (s : State) (t : Nat) (rs1 : Nat) (csr : Nat) (r : Word) (old : Word) (v : Word) (th : Thread), s.issues t 4 1 [rs1 % 32] ∧ r = s.reg
      t (rs1 % 32) ∧ (csr, old, th) ∈ [(0x400, w64 (s.thread t).xask, { s.thread t with xask := v.toNat % 2 ^ 20 }), (0x401, (s.thread
      t).epc, { s.thread t with epc := v }), (0x402, w64 (s.thread t).ecause, { s.thread t with ecause := v.toNat % 16 }), (0x403, (s.thread
      t).eval, { s.thread t with eval := v }), (0x404, w64 (b2n (s.thread t).excActive * 256 + (s.thread t).prev),
      { s.thread t with prev := v.toNat % 4 }), (0x405, w64 (s.thread t).exask, { s.thread t with exask := v.toNat % 2 ^ 20 }), (0x408,
      (s.thread t).sscratch.get 0 0, { s.thread t with sscratch := (s.thread t).sscratch.set 0 0 v }), (0x409, (s.thread t).sscratch.get 0
      1, { s.thread t with sscratch := (s.thread t).sscratch.set 0 1 v }), (0x40A, (s.thread t).sscratch.get 0 2,
      { s.thread t with sscratch := (s.thread t).sscratch.set 0 2 v }), (0x40B, (s.thread t).sscratch.get 0 3,
      { s.thread t with sscratch := (s.thread t).sscratch.set 0 3 v })]) :=
  ⟨⟨ci 1 [(2,A)], 0, 2, 0x402, A, 0, A, { ((ci 1 [(2,A)]).thread 0) with ecause := 5 }, by unfold State.issues; decide +kernel⟩,
   ⟨ci 1 [(2,A)], 0, 2, 0x403, A, 0, 0, { ((ci 1 [(2,A)]).thread 0) with eval := 0 }, by unfold State.issues; decide +kernel⟩,
   ⟨ci 1 [(2,A)], 0, 2, 0x404, A, 0, A, { ((ci 1 [(2,A)]).thread 0) with prev := 1 }, by unfold State.issues; decide +kernel⟩,
   ⟨ci 1 [(2,A)], 0, 2, 0x405, A, 0, A, { ((ci 1 [(2,A)]).thread 0) with exask := 5 }, by unfold State.issues; decide +kernel⟩,
   ⟨ci 1 [(2,A)], 0, 2, 0x408, A, 0, A, { ((ci 1 [(2,A)]).thread 0) with sscratch := [(0,A)] }, by unfold State.issues; decide +kernel⟩,
   ⟨ci 1 [(2,A)], 0, 2, 0x409, A, 0, A, { ((ci 1 [(2,A)]).thread 0) with sscratch := [(1,A)] }, by unfold State.issues; decide +kernel⟩,
   ⟨ci 1 [(2,A)], 0, 2, 0x40A, A, 0, A, { ((ci 1 [(2,A)]).thread 0) with sscratch := [(2,A)] }, by unfold State.issues; decide +kernel⟩,
   ⟨ci 1 [(2,A)], 0, 2, 0x40B, A, 0, A, { ((ci 1 [(2,A)]).thread 0) with sscratch := [(3,A)] }, by unfold State.issues; decide +kernel⟩⟩
theorem witness_Exceptions_1 :
    (∃ (s : State) (t : Nat) (rd : Nat) (rs1 : Nat) (imm : Nat) (code : Nat) (c : Instr), s.issues t 4 0 [] ∧ (s.thread t).excActive = false
      ∧ rd % 32 = 0 ∧ rs1 % 32 = 0 ∧ (c, code) ∈ [(Instr.sys ⟨t, rd, rs1⟩ imm, 11), (Instr.brk ⟨t, rd, rs1⟩ imm, 12)]) ∧
    (∃ (s : State) (t : Nat) (rd : Nat) (rs1 : Nat) (imm : Nat) (code : Nat) (c : Instr), s.issues t 4 0 [] ∧ (s.thread t).excActive = false
      ∧ rd % 32 = 0 ∧ rs1 % 32 = 0 ∧ (c, code) ∈ [(Instr.sys ⟨t, rd, rs1⟩ imm, 11), (Instr.brk ⟨t, rd, rs1⟩ imm, 12)]) ∧
    (∃ (s : State) (t : Nat) (rd : Nat) (rs1 : Nat) (imm : Nat) (code : Nat) (c : Instr), s.issues t 4 0 [] ∧ (s.thread t).excActive = false
      ∧ rd % 32 = 0 ∧ rs1 % 32 = 0 ∧ (c, code) ∈ [(Instr.sys ⟨t, rd, rs1⟩ imm, 11), (Instr.brk ⟨t, rd, rs1⟩ imm, 12)]) ∧
    (∃ (s : State) (t : Nat) (rd : Nat) (rs1 : Nat), s.issues t 4 1 [] ∧ (s.thread t).excActive = true ∧ rd % 32 = 0 ∧ rs1 % 32 = 0) ∧
    (∃ (s : State) (t : Nat) (rd : Nat) (rs1 : Nat), s.issues t 4 1 [] ∧ (s.thread t).excActive = true ∧ rd % 32 = 0 ∧ rs1 % 32 = 0) ∧
    (∃ (s : State) (t : Nat) (rd : Nat) (rs1 : Nat) (arg : Nat) (kind : Nat) (n : Nat) (c : Instr), s.issues t 4 0 [] ∧ (s.thread
      t).excActive = false ∧ (s.handler (tCluster t) 0xF1).valid = true ∧ (c, kind, n) ∈ [(Instr.done ⟨t, rd, rs1, arg⟩, 0, 0), (Instr.sys ⟨t, rd, rs1⟩ arg, 1, 0), (Instr.eret ⟨t, rd, rs1, arg⟩, 2, 1), (Instr.brk ⟨t, rd, rs1⟩ arg, 3, 0)] ∧ (rd % 32 ≠ 0 ∨ rs1 % 32 ≠ 0 ∨ n = 1)) ∧
    (∃ (s : State) (t : Nat) (rd : Nat) (rs1 : Nat) (arg : Nat) (kind : Nat) (n : Nat) (c : Instr), s.issues t 4 0 [] ∧ (s.thread
      t).excActive = false ∧ (s.handler (tCluster t) 0xF1).valid = true ∧ (c, kind, n) ∈ [(Instr.done ⟨t, rd, rs1, arg⟩, 0, 0), (Instr.sys ⟨t, rd, rs1⟩ arg, 1, 0), (Instr.eret ⟨t, rd, rs1, arg⟩, 2, 1), (Instr.brk ⟨t, rd, rs1⟩ arg, 3, 0)] ∧ (rd % 32 ≠ 0 ∨ rs1 % 32 ≠ 0 ∨ n = 1)) ∧
    (∃ (s : State) (t : Nat) (rd : Nat) (rs1 : Nat) (arg : Nat) (kind : Nat) (n : Nat) (c : Instr), s.issues t 4 0 [] ∧ (s.thread
      t).excActive = false ∧ (s.handler (tCluster t) 0xF1).valid = true ∧ (c, kind, n) ∈ [(Instr.done ⟨t, rd, rs1, arg⟩, 0, 0), (Instr.sys ⟨t, rd, rs1⟩ arg, 1, 0), (Instr.eret ⟨t, rd, rs1, arg⟩, 2, 1), (Instr.brk ⟨t, rd, rs1⟩ arg, 3, 0)] ∧ (rd % 32 ≠ 0 ∨ rs1 % 32 ≠ 0 ∨ n = 1)) :=
  ⟨⟨hand 0xFB (ci 0 []), 0, 0, 32, 0x123, 11, .sys ⟨0, 0, 32⟩ 0x123, by unfold State.issues; decide +kernel⟩,
   ⟨hand 0xFC (ci 0 []), 0, 0, 0, 0x123, 12, .brk ⟨0, 0, 0⟩ 0x123, by unfold State.issues; decide +kernel⟩,
   ⟨ci 0 [], 0, 0, 32, 0x123, 11, .sys ⟨0, 0, 32⟩ 0x123, by unfold State.issues; decide +kernel⟩,
   ⟨(cpu {lvl 1 with excActive := true, epc := 0x44, prev := 0} up), 0, 0, 32, by unfold State.issues; decide +kernel⟩,
   ⟨(cpu {lvl 1 with excActive := true, epc := 0x45, prev := 2, exask := 9} up), 0, 0, 32, by unfold State.issues; decide +kernel⟩,
   ⟨hand 0xF1 (ci 0 []), 0, 3, 0, 9, 0, 0, .done ⟨0, 3, 0, 9⟩, by unfold State.issues; decide +kernel⟩,
   ⟨hand 0xF1 (ci 0 []), 0, 0, 5, 9, 1, 0, .sys ⟨0, 0, 5⟩ 9, by unfold State.issues; decide +kernel⟩,
   ⟨hand 0xF1 (ci 0 []), 0, 0, 0, 9, 2, 1, .eret ⟨0, 0, 0, 9⟩, by unfold State.issues; decide +kernel⟩⟩
theorem witness_Exceptions_2 :
    (∃ (s : State) (t : Nat) (rd : Nat) (rs1 : Nat) (arg : Nat) (kind : Nat) (n : Nat) (c : Instr), s.issues t 4 0 [] ∧ (s.thread
      t).excActive = false ∧ (s.handler (tCluster t) 0xF1).valid = true ∧ (c, kind, n) ∈ [(Instr.done ⟨t, rd, rs1, arg⟩, 0, 0), (Instr.sys ⟨t, rd, rs1⟩ arg, 1, 0), (Instr.eret ⟨t, rd, rs1, arg⟩, 2, 1), (Instr.brk ⟨t, rd, rs1⟩ arg, 3, 0)] ∧ (rd % 32 ≠ 0 ∨ rs1 % 32 ≠ 0 ∨ n = 1)) ∧
    (∃ (s : State) (t : Nat) (rd : Nat) (rs1 : Nat) (arg : Nat) (kind : Nat) (n : Nat) (c : Instr), s.issues t 4 0 [] ∧ (s.thread
      t).excActive = false ∧ (s.handler (tCluster t) 0xF1).valid = true ∧ (c, kind, n) ∈ [(Instr.done ⟨t, rd, rs1, arg⟩, 0, 0), (Instr.sys ⟨t, rd, rs1⟩ arg, 1, 0), (Instr.eret ⟨t, rd, rs1, arg⟩, 2, 1), (Instr.brk ⟨t, rd, rs1⟩ arg, 3, 0)] ∧ (rd % 32 ≠ 0 ∨ rs1 % 32 ≠ 0 ∨ n = 1)) ∧
    (∃ (s : State) (t : Nat) (rs1 : Nat) (imm : Nat) (a : Word), s.issues t 4 0 [] ∧ (s.thread t).excActive = false ∧ a = s.reg t (rs1 % 32)
      + (BitVec.ofNat 16 imm).signExtend 64 ∧ a.toNat % 4 ≠ 0 ∧ (s.handler (tCluster t) 0xF3).valid = true) ∧
    (∃ (s : State) (t : Nat) (rd : Nat) (rs1 : Nat) (csr : Nat) (c : Instr), s.issues t 4 0 [] ∧ (s.thread t).excActive = false ∧ (s.thread
      t).priv = 0 ∧ (s.handler (tCluster t) 0xF2).valid = true ∧ csr ∈ [0x400, 0x401, 0x402, 0x403, 0x404, 0x405, 0x408, 0x409, 0x40A,
      0x40B] ∧ (c = .csrr ⟨t, rs1, 0⟩ rd csr ∧ rs1 % 32 = 0 ∨ c = .csrw t rd rs1 csr ∨ c = .csrs t rd rs1 csr ∨ c = .csrc t rd rs1 csr)) ∧
    (∃ (s : State) (t : Nat) (rd : Nat) (rs1 : Nat) (csr : Nat) (c : Instr), s.issues t 4 0 [] ∧ (s.thread t).excActive = false ∧ (s.thread
      t).priv = 0 ∧ (s.handler (tCluster t) 0xF2).valid = true ∧ csr ∈ [0x400, 0x401, 0x402, 0x403, 0x404, 0x405, 0x408, 0x409, 0x40A,
      0x40B] ∧ (c = .csrr ⟨t, rs1, 0⟩ rd csr ∧ rs1 % 32 = 0 ∨ c = .csrw t rd rs1 csr ∨ c = .csrs t rd rs1 csr ∨ c = .csrc t rd rs1 csr)) ∧
    (∃ (s : State) (t : Nat) (rd : Nat) (rs1 : Nat) (csr : Nat) (c : Instr), s.issues t 4 0 [] ∧ (s.thread t).excActive = false ∧ (s.thread
      t).priv = 0 ∧ (s.handler (tCluster t) 0xF2).valid = true ∧ csr ∈ [0x400, 0x401, 0x402, 0x403, 0x404, 0x405, 0x408, 0x409, 0x40A,
      0x40B] ∧ (c = .csrr ⟨t, rs1, 0⟩ rd csr ∧ rs1 % 32 = 0 ∨ c = .csrw t rd rs1 csr ∨ c = .csrs t rd rs1 csr ∨ c = .csrc t rd rs1 csr)) ∧
    (∃ (s : State) (t : Nat) (rd : Nat) (rs1 : Nat) (csr : Nat) (c : Instr), s.issues t 4 0 [] ∧ (s.thread t).excActive = false ∧ (s.thread
      t).priv = 0 ∧ (s.handler (tCluster t) 0xF2).valid = true ∧ csr ∈ [0x400, 0x401, 0x402, 0x403, 0x404, 0x405, 0x408, 0x409, 0x40A,
      0x40B] ∧ (c = .csrr ⟨t, rs1, 0⟩ rd csr ∧ rs1 % 32 = 0 ∨ c = .csrw t rd rs1 csr ∨ c = .csrs t rd rs1 csr ∨ c = .csrc t rd rs1 csr)) ∧
    (∃ (s : State) (t : Nat) (rd : Nat) (rs1 : Nat) (imm : Nat) (c : Instr), s.issues t 4 0 [] ∧ (s.thread t).excActive = true ∧ (c = .sys ⟨t, rd, rs1⟩ imm ∨ c = .brk ⟨t, rd, rs1⟩ imm)) :=
  ⟨⟨hand 0xF1 (ci 1 []), 0, 0, 0, 9, 2, 1, .eret ⟨0, 0, 0, 9⟩, by unfold State.issues; decide +kernel⟩,
   ⟨hand 0xF1 (ci 1 []), 0, 1, 0, 9, 3, 0, .brk ⟨0, 1, 0⟩ 9, by unfold State.issues; decide +kernel⟩,
   ⟨hand 0xF3 (ci 0 []), 0, 1, 2, 2, by unfold State.issues; decide +kernel⟩,
   ⟨hand 0xF2 (ci 0 []), 0, 3, 0, 0x400, .csrr ⟨0, 0, 0⟩ 3 0x400, by unfold State.issues; decide +kernel⟩,
   ⟨hand 0xF2 (ci 0 []), 0, 3, 2, 0x405, .csrw 0 3 2 0x405, by unfold State.issues; decide +kernel⟩,
   ⟨hand 0xF2 (ci 0 []), 0, 3, 2, 0x405, .csrs 0 3 2 0x405, by unfold State.issues; decide +kernel⟩,
   ⟨hand 0xF2 (ci 0 []), 0, 3, 0, 0x40B, .csrc 0 3 0 0x40B, by unfold State.issues; decide +kernel⟩,
   ⟨(cpu {lvl 1 with excActive := true} up), 0, 0, 0, 3, .brk ⟨0, 0, 0⟩ 3, by unfold State.issues; decide +kernel⟩⟩
theorem witness_Exceptions_3 :
    (∃ (s : State) (t : Nat) (rd : Nat) (rs1 : Nat) (imm : Nat) (c : Instr), s.issues t 4 0 [] ∧ (s.thread t).excActive = true ∧ (c = .sys ⟨t, rd, rs1⟩ imm ∨ c = .brk ⟨t, rd, rs1⟩ imm)) :=
  ⟨(cpu {lvl 1 with excActive := true} up), 0, 0, 7, 3, .sys ⟨0, 0, 7⟩ 3, by unfold State.issues; decide +kernel⟩
theorem witness_DispatchAndEngines_1 :
    (∃ (s : State) (s1 : State) (c : Nat) (f : Nat) (g : Nat) (t : Nat) (ecc : Nat) (it : Item), s.inSafe = false ∧ s.dev.power < 2 ∧ s.fb
      F.CLU_CTRL_DISPATCH_EN [c] = true ∧ c < s.clusterCount ∧ s.pickFifo c = some f ∧ s.pickEngine c = some g ∧ (s.freeThreads g).head? =
      some t ∧ s.wfTake (4 * c + f) = some (it, s1) ∧ (s.handler c it.ty).valid = true ∧ ecc ≠ 2) ∧
    (∃ (s : State) (s1 : State) (c : Nat) (f : Nat) (g : Nat) (t : Nat) (ecc : Nat) (it : Item), s.inSafe = false ∧ s.dev.power < 2 ∧ s.fb
      F.CLU_CTRL_DISPATCH_EN [c] = true ∧ c < s.clusterCount ∧ s.pickFifo c = some f ∧ s.pickEngine c = some g ∧ (s.freeThreads g).head? =
      some t ∧ s.wfTake (4 * c + f) = some (it, s1) ∧ (s.handler c it.ty).valid = true ∧ ecc ≠ 2) ∧
    (∃ (s : State) (t : Nat) (due : Word), ((s.thread t).running = true ∧ (s.thread t).budget ≠ 0 ∧ (s.thread t).expired = false ∧ due = w64
      ((s.thread t).startAt.toNat + (s.thread t).budget * ticksPerUs) ∧ s.locReached due = true ∧ s.inSafe = false) ∧ ((s.thread
      t).excActive = true ∨ (∃ k, (s.thread t).wait = .drain k) ∨ (s.thread t).wait.isAgain = true)) ∧
    (∃ (s : State) (t : Nat), (s.thread t).running = true ∧ (s.thread t).budget ≠ 0 ∧ (s.thread t).expired = false ∧ s.locReached (w64
      ((s.thread t).startAt.toNat + (s.thread t).budget * ticksPerUs)) = true ∧ s.inSafe = false ∧ (s.thread t).excActive = false ∧
      (s.thread t).wait = .ready ∧ (s.handler (tCluster t) 0xFA).valid = true) ∧
    (∃ (s : State) (t : Nat) (g : Word), (s.thread t).graceEnd = some g ∧ (s.thread t).running = true ∧ s.locReached g = true ∧ s.inSafe =
      false) ∧
    (∃ (s : State) (s1 : State) (c : Nat) (k : Nat) (it : Item) (rest : List Item), (s.cluster c).lost = it :: rest ∧ s.inSafe = false ∧
      s.wfSteered c (s.fd F.WF_STEER_LOST_FIFO [c]) = some k ∧ s.wfStart k true it = some s1) ∧
    (∃ (s : State) (g : Nat), (s.engine g).retired = false ∧ s.fd F.CLU_RETIRE_CFG_COUNT [g / 8] ≤ s.recentParity g) ∧
    (∃ (s : State) (g : Nat), (s.engine g).retired = true ∧ (s.engine g).stopped = false ∧ (∀ i, i < 4 → (s.thread (4 * g + i)).running =
      false)) :=
  ⟨⟨disp, (disp.wfTake 0).map (·.2) |>.getD up, 0, 0, 0, 0, 0, itm, by decide +kernel⟩,
   ⟨disp, (disp.wfTake 0).map (·.2) |>.getD up, 0, 0, 0, 0, 1, itm, by decide +kernel⟩,
   ⟨(wd {lvl 0 with excActive := true}), 0, 20000, by decide +kernel, .inl (by decide +kernel)⟩,
   ⟨hand 0xFA (wd (lvl 0)), 0, by decide +kernel⟩,
   ⟨(wd {lvl 0 with graceEnd := some 5}), 0, 5, by decide +kernel⟩,
   ⟨(up.setCluster 0 {Cluster.init with lost := [itm]}), ((up.setCluster 0 {Cluster.init with lost := [itm]}).wfStart 0 true itm).getD up, 0, 0, itm, [], by decide +kernel⟩,
   ⟨(up.setEngine 3 {Engine.init with parityAt := [0,0,0,0,0,0,0,0,0,0,0]}), 3, by decide +kernel⟩,
   ⟨(up.setEngine 3 {Engine.init with retired := true}), 3, by decide +kernel⟩⟩
theorem witness_DispatchAndEngines_2 :
    (∃ (s : State) (c : Nat) (n : Nat), s.inSafe = false ∧ s.fb F.CLU_HT_COMMIT_GO [c] = true ∧ n = s.fd F.CLU_HT_COMMIT_INDEX [c]) ∧
    (∃ (s : State) (c : Nat), s.inSafe = false ∧ s.fb F.CLU_CTRL_ICACHE_INV [c] = true) :=
  ⟨⟨(up.fset F.CLU_HT_COMMIT_GO [0] true).fw F.CLU_HT_COMMIT_INDEX [0] 5, 0, 5, by decide +kernel⟩,
   ⟨up.fset F.CLU_CTRL_ICACHE_INV [0] true, 0, by decide +kernel⟩⟩
theorem witness_EngineFrame :
    (∃ (s : State) (u : State) (c : Instr) (t : Nat) (a1 : Nat) (a2 : Nat) (a3 : Nat) (a4 : Nat) (a5 : Nat), c ∈ [.aluReg t a1 a2 a3 a4,
      .mulDiv t a1 a2 a3 a4, .aluImm t a1 a2 a3 a4 a5, .branch t a1 a2 a3 a4, .jal t a1 a2, .jalr t a1 a2 a3, .atomic t a1 a2 a3 a4, .fence ⟨t, a1, a2, a3, a4⟩, .fenceSt ⟨t, a1, a2, a3, a4⟩, .fenceI ⟨t, a1, a2, a3, a4⟩, .csrr ⟨t, a2, a4⟩ a1 a3, .csrw t a1 a2 a3, .csrs t a1 a2 a3, .csrc t a1 a2
      a3, .done ⟨t, a1, a2, a3⟩, .sys ⟨t, a1, a2⟩ a3, .eret ⟨t, a1, a2, a3⟩, .brk ⟨t, a1, a2⟩ a3, .pause ⟨t, a1, a2, a4⟩ a3] ∧ exec c s = .next u) :=
  ⟨ci 0 [], _, .jal 0 1 5, 0, 1, 5, 0, 0, 0, .tail _ (.tail _ (.tail _ (.tail _ (.head _)))), rfl⟩
theorem witness_FabricOperations_1 :
    (∃ (s : State) (t : Nat) (rd : Nat) (rs1 : Nat) (imm : Nat) (k : Nat) (kind : Nat) (mask : Nat) (dn : Nat) (f : Nat) (b : List Byte) (c
      : Instr), (c, kind, mask) ∈ [(Instr.fput t rd rs1 imm, 1, 0x800F), (.fget t rd rs1 imm, 2, 0x8000), (.famo t rd rs1 imm, 3, 0x8000),
      (.fsend t rd rs1 imm, 4, 0x8000), (.fflush t rd rs1 imm, 5, 0x8000)] ∧ immWithin imm mask = true ∧ lflagsOk kind (imm % 16) = true ∧
      s.accepts t rs1 0 b k ∧ s.validBlock kind (imm % 16) b ∧ blockDenied kind (s.thread t).priv (s.thread t).xask b = false ∧ (s.resolve
      (bDest b)).1 = some (dn, f) ∧ (kind = 2 ∨ kind = 3 ∨ kind = 5 → ∀ r, s.threadHalf (tCluster t) (bDest b) (bChan b) = some r → (s.half
      r).state ≠ .error)) ∧
    (∃ (s : State) (t : Nat) (rd : Nat) (rs1 : Nat) (imm : Nat) (k : Nat) (kind : Nat) (mask : Nat) (dn : Nat) (f : Nat) (b : List Byte) (c
      : Instr), (c, kind, mask) ∈ [(Instr.fput t rd rs1 imm, 1, 0x800F), (.fget t rd rs1 imm, 2, 0x8000), (.famo t rd rs1 imm, 3, 0x8000),
      (.fsend t rd rs1 imm, 4, 0x8000), (.fflush t rd rs1 imm, 5, 0x8000)] ∧ immWithin imm mask = true ∧ lflagsOk kind (imm % 16) = true ∧
      s.accepts t rs1 0 b k ∧ s.validBlock kind (imm % 16) b ∧ blockDenied kind (s.thread t).priv (s.thread t).xask b = false ∧ (s.resolve
      (bDest b)).1 = some (dn, f) ∧ (kind = 2 ∨ kind = 3 ∨ kind = 5 → ∀ r, s.threadHalf (tCluster t) (bDest b) (bChan b) = some r → (s.half
      r).state ≠ .error)) ∧
    (∃ (s : State) (t : Nat) (rd : Nat) (rs1 : Nat) (imm : Nat) (k : Nat) (kind : Nat) (mask : Nat) (dn : Nat) (f : Nat) (b : List Byte) (c
      : Instr), (c, kind, mask) ∈ [(Instr.fput t rd rs1 imm, 1, 0x800F), (.fget t rd rs1 imm, 2, 0x8000), (.famo t rd rs1 imm, 3, 0x8000),
      (.fsend t rd rs1 imm, 4, 0x8000), (.fflush t rd rs1 imm, 5, 0x8000)] ∧ immWithin imm mask = true ∧ lflagsOk kind (imm % 16) = true ∧
      s.accepts t rs1 0 b k ∧ s.validBlock kind (imm % 16) b ∧ blockDenied kind (s.thread t).priv (s.thread t).xask b = false ∧ (s.resolve
      (bDest b)).1 = some (dn, f) ∧ (kind = 2 ∨ kind = 3 ∨ kind = 5 → ∀ r, s.threadHalf (tCluster t) (bDest b) (bChan b) = some r → (s.half
      r).state ≠ .error)) ∧
    (∃ (s : State) (t : Nat) (rd : Nat) (rs1 : Nat) (imm : Nat) (k : Nat) (kind : Nat) (mask : Nat) (dn : Nat) (f : Nat) (b : List Byte) (c
      : Instr), (c, kind, mask) ∈ [(Instr.fput t rd rs1 imm, 1, 0x800F), (.fget t rd rs1 imm, 2, 0x8000), (.famo t rd rs1 imm, 3, 0x8000),
      (.fsend t rd rs1 imm, 4, 0x8000), (.fflush t rd rs1 imm, 5, 0x8000)] ∧ immWithin imm mask = true ∧ lflagsOk kind (imm % 16) = true ∧
      s.accepts t rs1 0 b k ∧ s.validBlock kind (imm % 16) b ∧ blockDenied kind (s.thread t).priv (s.thread t).xask b = false ∧ (s.resolve
      (bDest b)).1 = some (dn, f) ∧ (kind = 2 ∨ kind = 3 ∨ kind = 5 → ∀ r, s.threadHalf (tCluster t) (bDest b) (bChan b) = some r → (s.half
      r).state ≠ .error)) ∧
    (∃ (s : State) (t : Nat) (rd : Nat) (rs1 : Nat) (imm : Nat) (k : Nat) (kind : Nat) (mask : Nat) (dn : Nat) (f : Nat) (b : List Byte) (c
      : Instr), (c, kind, mask) ∈ [(Instr.fput t rd rs1 imm, 1, 0x800F), (.fget t rd rs1 imm, 2, 0x8000), (.famo t rd rs1 imm, 3, 0x8000),
      (.fsend t rd rs1 imm, 4, 0x8000), (.fflush t rd rs1 imm, 5, 0x8000)] ∧ immWithin imm mask = true ∧ lflagsOk kind (imm % 16) = true ∧
      s.accepts t rs1 0 b k ∧ s.validBlock kind (imm % 16) b ∧ blockDenied kind (s.thread t).priv (s.thread t).xask b = false ∧ (s.resolve
      (bDest b)).1 = some (dn, f) ∧ (kind = 2 ∨ kind = 3 ∨ kind = 5 → ∀ r, s.threadHalf (tCluster t) (bDest b) (bChan b) = some r → (s.half
      r).state ≠ .error)) ∧
    (∃ (s : State) (t : Nat) (rs1 : Nat) (k : Nat) (dn : Nat) (f : Nat) (r : Nat) (b : List Byte), s.accepts t rs1 0 b k ∧ s.validBlock 5 0
      b ∧ (s.resolve (bDest b)).1 = some (dn, f) ∧ s.threadHalf (tCluster t) (bDest b) (bChan b) = some r ∧ (s.half r).state = .error) ∧
    (∃ (s : State) (t : Nat) (rs1 : Nat) (imm : Nat) (k : Nat) (b : List Byte), immWithin imm 0x800C = true ∧ s.accepts t rs1 1 b k ∧
      s.validBlock 7 (imm % 16) b) ∧
    (∃ (s : State) (t : Nat) (rs1 : Nat) (k : Nat) (b : List Byte), s.accepts t rs1 0 b k ∧ ¬ s.validBlock 2 0 b) :=
  ⟨⟨fab 0 putB up, 0, 3, 1, 0, 0, 1, 0x800F, 5, 3, putB, .fput 0 3 1 0, by unfold State.accepts State.issues State.validBlock; decide +kernel⟩,
   ⟨fab 2 getB up, 0, 3, 1, 0, 0, 2, 0x8000, 5, 3, getB, .fget 0 3 1 0, by unfold State.accepts State.issues State.validBlock; decide +kernel⟩,
   ⟨fab 0 amoB up, 0, 3, 1, 0, 0, 3, 0x8000, 5, 3, amoB, .famo 0 3 1 0, by unfold State.accepts State.issues State.validBlock; decide +kernel⟩,
   ⟨fab 1 sendB up, 0, 3, 1, 0, 0, 4, 0x8000, 5, 3, sendB, .fsend 0 3 1 0, by unfold State.accepts State.issues State.validBlock; decide +kernel⟩,
   ⟨fab 0 flushB up, 0, 3, 1, 0, 0, 5, 0x8000, 5, 3, flushB, .fflush 0 3 1 0, by unfold State.accepts State.issues State.validBlock; decide +kernel⟩,
   ⟨(conn3 Half.init (fab 0 flushB up)).setHalf 3 { (conn3 Half.init up).half 3 with state := .error, lastErr := 0x10 }, 0, 1, 0, 5, 3, 3, flushB, by unfold State.accepts State.issues State.validBlock; decide +kernel⟩,
   ⟨fab 1 mcB up, 0, 1, 0, 0, mcB, by unfold State.accepts State.issues State.validBlock; decide +kernel⟩,
   ⟨fab 0 sendB up, 0, 1, 0, sendB, by unfold State.accepts State.issues State.validBlock; decide +kernel⟩⟩
theorem witness_FabricOperations_2 :
    (∃ (s : State) (t : Nat) (rs1 : Nat) (k : Nat) (b : List Byte), s.accepts t rs1 0 b k ∧ s.validBlock 4 0 b ∧ blockDenied 4 (s.thread
      t).priv (s.thread t).xask b = true) ∧
    (∃ (s : State) (t : Nat) (rs1 : Nat) (k : Nat) (b : List Byte), s.accepts t rs1 0 b k ∧ s.validBlock 5 0 b ∧ (s.resolve (bDest b)).1 =
      none) :=
  ⟨⟨(let b := blk [(0,1,4),(8,3,7),(16,4,8),(22,1,0),(24,4,9)]; fab 0 b up), 0, 1, 0, blk [(0,1,4),(8,3,7),(16,4,8),(22,1,0),(24,4,9)], by unfold State.accepts State.issues State.validBlock; decide +kernel⟩,
   ⟨(let b := blk [(0,1,5),(8,3,8)]; fab 0 b up), 0, 1, 0, blk [(0,1,5),(8,3,8)], by unfold State.accepts State.issues State.validBlock; decide +kernel⟩⟩
theorem witness_UnitCommands_1 :
    (∃ (s : State) (t : Nat) (rs1 : Nat) (k : Nat) (imm : Nat) (b : List Byte), imm ∈ [0, 0x8000] ∧ s.accepts t rs1 0 b k ∧ s.validBlock 6 0
      b) ∧
    (∃ (s : State) (t : Nat) (rs1 : Nat) (k : Nat) (qn : Nat) (off : Nat) (imm : Nat) (b : List Byte) (data : List Byte), imm ∈ [0, 0x8000]
      ∧ s.accepts t rs1 1 b k ∧ s.validBlock 8 0 b ∧ qn = leAt b 8 4 ∧ leAt b 12 1 = 1 ∧ off = leAt b 14 2 ∧ (s.queue qn).state = .ready ∧
      (s.queue qn).cluster = tCluster t ∧ (s.queue qn).handlerServed = true ∧ s.adapterHalted = false ∧ (s.cq (s.queue qn).cn).state =
      .ready ∧ (s.queue qn).left ≠ 0 ∧ s.canMaster (s.queue qn).func = true ∧ s.recvHeld qn = false ∧ s.dev.power = 0 ∧ s.linkAwake (s.queue
      qn).func = true ∧ data.length = 64 ∧ weOwn data = true ∧ malformed ((s.queue qn).kind qn) data = none) ∧
    (∃ (s : State) (t : Nat) (rs1 : Nat) (k : Nat) (cn : Nat) (imm : Nat) (b : List Byte), imm ∈ [0, 0x8000] ∧ s.accepts t rs1 1 b k ∧
      s.validBlock 9 0 b ∧ cn = leAt b 8 2 ∧ s.adapterHalted = false ∧ (s.cq cn).state = .ready ∧ s.cqRoom cn = true ∧ nbit (leAt b 12 4) 31
      = false) ∧
    (∃ (s : State) (t : Nat) (rs1 : Nat) (k : Nat) (ctx : Nat) (imm : Nat) (b : List Byte), imm ∈ [0, 0x8000] ∧ s.accepts t rs1 1 b k ∧
      s.validBlock 10 0 b ∧ ctx = leAt b 8 2 ∧ ctx < 2 ^ 15 ∧ s.homeOf ctx = tCluster t ∧ s.mtch.waiting = [] ∧ (s.mctx ctx).unexp.findIdx?
      (fun e => (MatchEntry.mk (nbit (leAt b 11 1) 0) (leAt b 12 4 % 2 ^ 24) (leAt b 16 8) (leAt b 24 8) (leAt b 32 8) 0).fits e.src e.tag)
      = none ∧ s.storeUsed (tCluster t) < 8192 ∧ (s.mctx ctx).posted.length < s.fd F.CLU_MATCH_CFG_POST_MAX [tCluster t]) ∧
    (∃ (s : State) (t : Nat) (rs1 : Nat) (k : Nat) (ctx : Nat) (i : Nat) (imm : Nat) (e : MatchEntry) (b : List Byte), imm ∈ [0, 0x8000] ∧
      s.accepts t rs1 1 b k ∧ s.validBlock 10 1 b ∧ ctx = leAt b 8 2 ∧ ctx < 2 ^ 15 ∧ s.homeOf ctx = tCluster t ∧ s.mtch.waiting = [] ∧
      (s.mctx ctx).posted.findIdx? (fun p => p.fits (leAt b 12 4 % 2 ^ 24) (leAt b 16 8)) = some i ∧ (s.mctx ctx).posted[i]? = some e) ∧
    (∃ (s : State) (t : Nat) (rs1 : Nat) (k : Nat) (ctx : Nat) (i : Nat) (imm : Nat) (b : List Byte), imm ∈ [0, 0x8000] ∧ s.accepts t rs1 1
      b k ∧ s.validBlock 10 2 b ∧ ctx = leAt b 8 2 ∧ ctx < 2 ^ 15 ∧ s.homeOf ctx = tCluster t ∧ s.mtch.waiting = [] ∧ (s.mctx
      ctx).posted.findIdx? (fun p => p.ref == leAt b 32 8) = some i) ∧
    (∃ (s : State) (t : Nat) (rs1 : Nat) (k : Nat) (imm : Nat) (b : List Byte), imm ∈ [0, 0x8000] ∧ s.accepts t rs1 1 b k ∧ s.validBlock 11
      0 b ∧ leAt b 16 1 = 0 ∧ s.ftValid = true) ∧
    (∃ (s : State) (t : Nat) (rs1 : Nat) (k : Nat) (imm : Nat) (b : List Byte), imm ∈ [0, 0x8000] ∧ s.accepts t rs1 1 b k ∧ s.validBlock 11
      0 b ∧ leAt b 16 1 = 0 ∧ s.ftValid = true) :=
  ⟨⟨fab 0 (blk [(0,1,6)]) up, 0, 1, 0, 0, blk [(0,1,6)], by unfold State.accepts State.issues State.validBlock; decide +kernel⟩,
   ⟨qS qB, 0, 1, 0, 9, 0x400, 0, qB, nopE, by unfold State.accepts State.issues State.validBlock; decide +kernel⟩,
   ⟨withCq 4 (fab 1 cB up), 0, 1, 0, 4, 0, cB, by unfold State.accepts State.issues State.validBlock; decide +kernel⟩,
   ⟨fab 1 mpB up, 0, 1, 0, 64, 0, mpB, by unfold State.accepts State.issues State.validBlock; decide +kernel⟩,
   ⟨mS mmB, 0, 1, 0, 64, 0, 0, mE, mmB, by unfold State.accepts State.issues State.validBlock; decide +kernel⟩,
   ⟨mS mcanB, 0, 1, 0, 64, 0, 0, mcanB, by unfold State.accepts State.issues State.validBlock; decide +kernel⟩,
   ⟨timed .track (fab 1 trB up), 0, 1, 0, 0, trB, by unfold State.accepts State.issues State.validBlock; decide +kernel⟩,
   ⟨(let b := blk [(0,1,11),(8,8,80)]; timed .track (fab 1 b up)), 0, 1, 0, 0, blk [(0,1,11),(8,8,80)], by unfold State.accepts State.issues State.validBlock; decide +kernel⟩⟩
theorem witness_UnitCommands_2 :
    (∃ (s : State) (t : Nat) (rs1 : Nat) (k : Nat) (imm : Nat) (kind : Nat) (fl : Nat) (b : List Byte) (lb : List Byte), imm ∈ [0, 0x8000] ∧
      s.accepts t rs1 1 b k ∧ s.validBlock 11 0 b ∧ leAt b 16 1 = 1 ∧ s.ftValid = true ∧ s.ftReached (w64 (leAt b 8 8)) = false ∧ (s.cluster
      (tCluster t)).trigs.length < 256 ∧ lb = s.mread (frameKey t (leAt b 18 2)) 64 ∧ kind = blkKind lb ∧ fl = leAt b 20 2 ∧ launchable kind
      = true ∧ lflagsOk kind fl = true ∧ s.blockOk kind fl lb = true ∧ blockDenied kind (s.thread t).priv 0 lb = false) ∧
    (∃ (s : State) (t : Nat) (rs1 : Nat) (k : Nat) (m : Nat) (imm : Nat) (b : List Byte), imm ∈ [0, 1, 0x8000, 0x8001] ∧ s.accepts t rs1 1 b
      k ∧ s.validBlock 12 0 b ∧ blockDenied 12 (s.thread t).priv (s.thread t).xask b = false ∧ (dSrc b = 2 → ∃ x, s.pktRef (tCluster t)
      (dSrcKey b) = some x ∧ dSrcVa b + dLen b ≤ x.pkt.payload.length) ∧ (dSrc b = 4 → ((s.fetched t 4).keyCheck (tCluster t) (dSrcKey b)
      (dIso b)).1 = none) ∧ (dDst b = 2 → ((if dSrc b = 4 then ((s.fetched t 4).keyCheck (tCluster t) (dSrcKey b) (dIso b)).2.2 else
      s.fetched t 4).keyCheck (tCluster t) (dDstKey b) (dIso b)).1 = none) ∧ s.freeMover = some m) ∧
    (∃ (s : State) (t : Nat) (rs1 : Nat) (k : Nat) (imm : Nat) (b : List Byte), imm ∈ [0, 0x8000] ∧ s.accepts t rs1 2 b k ∧ s.validBlock 13
      0 b ∧ s.net.invals.length < 16 ∧ s.net.invalQueue = []) ∧
    (∃ (s : State) (t : Nat) (rs1 : Nat) (k : Nat) (imm : Nat) (b : List Byte), imm ∈ [0, 0x8000] ∧ s.accepts t rs1 1 b k ∧ s.validBlock 14
      0 b ∧ amSlot b < 256 * s.units ∧ (amIn b = 0 ∨ amOut b = 0 ∨ amIn b = amOut b) ∧ s.amlNever b = false ∧ s.slotOp (amSlot b) = none ∧
      s.amlSpace b = true ∧ (∀ e ∈ s.aml.slots, e.2.op ≠ some k)) :=
  ⟨⟨(let b := blk [(0,1,11),(8,8,8000000),(16,1,1),(18,2,0x400)]; (timed .track (fab 1 b up)).mwrite (frameKey 0 0x400) flushB), 0, 1, 0, 0, 5, 0, blk [(0,1,11),(8,8,8000000),(16,1,1),(18,2,0x400)], flushB ++ zeroBytes (64 - flushB.length), by unfold State.accepts State.issues State.validBlock; decide +kernel⟩,
   ⟨fab 2 dB up, 0, 1, 0, 0, 0, dB, by unfold State.accepts State.issues State.validBlock; decide +kernel⟩,
   ⟨fab 2 tlB up, 0, 1, 0, 0, tlB, by unfold State.accepts State.issues State.validBlock; decide +kernel⟩,
   ⟨fab 1 amB up, 0, 1, 0, 0, amB, by unfold State.accepts State.issues State.validBlock; decide +kernel⟩⟩
theorem witness_TimeAndHandles_1 :
    (∃ (s : State) (t : Nat) (rs1 : Nat) (rs2 : Nat) (fn : Nat), s.issues t 4 0 [] ∧ rs1 % 32 = 0 ∧ rs2 % 32 = 0 ∧ fn % 2 ^ 11 < 4) ∧
    (∃ (s : State) (t : Nat) (rs1 : Nat) (rs2 : Nat), s.issues t 4 0 [rs1 % 32] ∧ rs2 % 32 = 0) ∧
    (∃ (s : State) (t : Nat) (rs1 : Nat) (rs2 : Nat), s.issues t 4 0 [rs1 % 32] ∧ rs2 % 32 = 0) ∧
    (∃ (s : State) (t : Nat) (rs1 : Nat) (rs2 : Nat), s.issues t 4 0 [rs1 % 32] ∧ rs2 % 32 = 0) ∧
    (∃ (s : State) (t : Nat) (rd : Nat) (v : Word), (s.thread t).wait = .ft v rd ∧ s.inSafe = false ∧ (s.thread t).running = true) ∧
    (∃ (s : State) (t : Nat) (rd : Nat) (v : Word), (s.thread t).wait = .ft v rd ∧ s.inSafe = false ∧ (s.thread t).running = true) ∧
    (∃ (s : State) (t : Nat) (rd : Nat) (v : Word), (s.thread t).wait = .ft v rd ∧ s.inSafe = false ∧ (s.thread t).running = true) ∧
    (∃ (s : State) (t : Nat) (rs1 : Nat) (rs2 : Nat) (fn : Nat), s.issues t 4 0 [rs1 % 32] ∧ rs2 % 32 = 0 ∧ fn % 2 ^ 11 < 4 ∧ s.handleOp
      (s.reg t (rs1 % 32)) = none) :=
  ⟨⟨timed .track (ci 0 []), 0, 0, 0, 0, by unfold State.issues; decide +kernel⟩,
   ⟨timed .track (ci 0 [(1,6000000)]), 0, 1, 0, by unfold State.issues; decide +kernel⟩,
   ⟨timed .track (ci 0 [(1,8000000)]), 0, 1, 0, by unfold State.issues; decide +kernel⟩,
   ⟨ci 0 [(1,8000000)], 0, 1, 0, by unfold State.issues; decide +kernel⟩,
   ⟨timed .holdover (up.setThread 0 {lvl 0 with running := true, wait := .ft 600 5}), 0, 5, 600, by decide +kernel⟩,
   ⟨timed .track (up.setThread 0 {lvl 0 with running := true, wait := .ft 600 5, expired := true}), 0, 5, 600, by decide +kernel⟩,
   ⟨((up.setThread 0 {lvl 0 with running := true, wait := .ft 600 5})), 0, 5, 600, by decide +kernel⟩,
   ⟨ci 0 [(1,5)], 0, 1, 0, 0, by unfold State.issues; decide +kernel⟩⟩
theorem witness_TimeAndHandles_2 :
    (∃ (s : State) (t : Nat) (rs1 : Nat) (rs2 : Nat) (fn : Nat) (k : Nat), s.issues t 4 0 [rs1 % 32] ∧ rs2 % 32 = 0 ∧ fn % 2 ^ 11 < 4 ∧
      s.handleOp (s.reg t (rs1 % 32)) = some k) ∧
    (∃ (s : State) (t : Nat) (rs1 : Nat) (rs2 : Nat) (fn : Nat) (v : Nat) (ty : Nat) (len : Nat) (c : Nat) (f : Nat) (key : Nat), fn % 2 ^
      11 < 2 ∧ s.issues t 4 1 [rs1 % 32, rs2 % 32] ∧ v = (s.reg t (rs2 % 32)).toNat ∧ v < 2 ^ 24 ∧ nbit v 19 = false ∧ ty = nbits v 15 8 ∧
      len = nbits v 23 20 + 1 ∧ c = v % 64 ∧ f = nbits v 7 6 ∧ c < s.clusterCount ∧ ty < 0xEF ∧ ((s.thread t).priv = 2 ∨ 0x80 ≤ ty) ∧ (s.reg
      t (rs1 % 32)).toNat % 64 = 0 ∧ s.ldmOk t (s.reg t (rs1 % 32)).toNat (64 * len) = true ∧ key = ldmAddrKey t (s.reg t (rs1 % 32)).toNat
      ∧ s.bad key (64 * len) = false) ∧
    (∃ (s : State) (t : Nat) (rs1 : Nat) (rs2 : Nat) (fn : Nat) (v : Nat) (ty : Nat) (len : Nat) (c : Nat) (f : Nat) (key : Nat), fn % 2 ^
      11 < 2 ∧ s.issues t 4 1 [rs1 % 32, rs2 % 32] ∧ v = (s.reg t (rs2 % 32)).toNat ∧ v < 2 ^ 24 ∧ nbit v 19 = false ∧ ty = nbits v 15 8 ∧
      len = nbits v 23 20 + 1 ∧ c = v % 64 ∧ f = nbits v 7 6 ∧ c < s.clusterCount ∧ ty < 0xEF ∧ ((s.thread t).priv = 2 ∨ 0x80 ≤ ty) ∧ (s.reg
      t (rs1 % 32)).toNat % 64 = 0 ∧ s.ldmOk t (s.reg t (rs1 % 32)).toNat (64 * len) = true ∧ key = ldmAddrKey t (s.reg t (rs1 % 32)).toNat
      ∧ s.bad key (64 * len) = false) ∧
    (∃ (s : State) (t : Nat) (rs1 : Nat) (rs2 : Nat) (ecc : Nat) (key : Nat) (f : Nat), ecc ≠ 2 ∧ s.issues t 4 2 [rs1 % 32, rs2 % 32] ∧ f =
      (s.reg t (rs2 % 32)).toNat ∧ f < 4 ∧ s.wfPolled (4 * tCluster t + f) = true ∧ s.ldmOk t (s.reg t (rs1 % 32)).toNat 1024 = true ∧ key =
      ldmAddrKey t (s.reg t (rs1 % 32)).toNat) ∧
    (∃ (s : State) (t : Nat) (rs1 : Nat) (rs2 : Nat) (ecc : Nat) (key : Nat) (f : Nat), ecc ≠ 2 ∧ s.issues t 4 2 [rs1 % 32, rs2 % 32] ∧ f =
      (s.reg t (rs2 % 32)).toNat ∧ f < 4 ∧ s.wfPolled (4 * tCluster t + f) = true ∧ s.ldmOk t (s.reg t (rs1 % 32)).toNat 1024 = true ∧ key =
      ldmAddrKey t (s.reg t (rs1 % 32)).toNat) ∧
    (∃ (s : State) (t : Nat) (rd : Nat) (rs1 : Nat) (rs2 : Nat) (v : Nat) (x : PktRef), s.issues t 4 1 [rs1 % 32] ∧ rd % 32 = 0 ∧ rs2 % 32 =
      0 ∧ v = (s.reg t (rs1 % 32)).toNat ∧ v < 2 ^ 32 ∧ s.pktRef (tCluster t) v = some x ∧ (s.half x.conn).rx.released.contains (x.pkt.seq,
      v) = true) :=
  ⟨⟨(opS 5 {Op.free with kind := 2, gen := 1, status := none, delivered := false} (ci 0 [(1,w64 (handleOf 5 1))])), 0, 1, 0, 0, 5, by unfold State.issues; decide +kernel⟩,
   ⟨(ci 1 [(1,L0),(2,0x058445)]).mwrite (ldmKey 0 0x40) [1,2,3], 0, 1, 2, 0, 0x058445, 0x84, 1, 5, 1, ldmKey 0 0x40, by unfold State.issues; decide +kernel⟩,
   ⟨(ci 1 [(1,L0),(2,0x058400)]).mwrite (ldmKey 0 0x40) [1,2,3], 0, 1, 2, 0, 0x058400, 0x84, 1, 0, 0, ldmKey 0 0x40, by unfold State.issues; decide +kernel⟩,
   ⟨((ci 2 [(1,L0),(2,1)]).fset F.WF_CFG_POLLED [0,1] true).setFifo 1 {Fifo.init with bank1 := ⟨[itm],[]⟩}, 0, 1, 2, 0, ldmKey 0 0x40, 1, by unfold State.issues; decide +kernel⟩,
   ⟨(ci 2 [(1,L0),(2,1)]).fset F.WF_CFG_POLLED [0,1] true, 0, 1, 2, 0, ldmKey 0 0x40, 1, by unfold State.issues; decide +kernel⟩,
   ⟨((ci 1 [(1,0x20000)]).setPktRef 0 0x20000 (some ⟨{Packet.zero with seq := 4}, 6, 0, false, true, true, none, none, false⟩)).setHalf 6 {Half.init with state := .established, rx := {Stream.init with released := [(4,0x20000)]}}, 0, 0, 1, 0, 0x20000, ⟨{Packet.zero with seq := 4}, 6, 0, false, true, true, none, none, false⟩, by unfold State.issues; decide +kernel⟩⟩
theorem witness_OperationProgress :
    (∃ (s : State) (c : Nat) (h : Nat) (k : Nat) (x : Trigger), k = 4096 * c + h % 4096 ∧ (s.cluster c).trigs.find? (fun t => t.slot == k) =
      some x ∧ x.launch = false ∧ (s.op k).status = none ∧ s.ftValid = true ∧ s.ftReached x.fireAt = true ∧ s.inSafe = false) ∧
    (∃ (s : State) (c : Nat) (h : Nat) (k : Nat) (x : Trigger), k = 4096 * c + h % 4096 ∧ (s.cluster c).trigs.find? (fun t => t.slot == k) =
      some x ∧ x.launch = true ∧ s.ftValid = true ∧ s.ftReached x.fireAt = true ∧ s.inSafe = false) ∧
    (∃ (s : State) (c : Nat) (slot : Nat) (k : Nat) (m : Nat) (n : Nat) (a : Nat) (b : List Byte), k = 4096 * c + slot % 4096 ∧ (s.op
      k).kind = 12 ∧ (s.op k).status = none ∧ (s.op k).held = false ∧ (s.op k).aborting = false ∧ (s.op k).mover = some m ∧ (s.op k).bytes =
      0 ∧ s.inSafe = false ∧ b = (s.op k).block ∧ dSrc b = 3 ∧ dDst b = 1 ∧ n = dLen b ∧ 1 ≤ n ∧ n ≤ 8 ∧ a = dDstVa b ∧ a + n ≤ hbmSize) ∧
    (∃ (s : State) (s1 : State) (s2 : State) (c : Nat) (slot : Nat) (k : Nat) (st : Nat) (n : Nat) (b : List Byte) (data : List Byte) (bs :
      List Byte), k = 4096 * c + slot % 4096 ∧ (s.op k).kind = 12 ∧ (s.op k).status = none ∧ (s.op k).held = false ∧ (s.op k).aborting =
      false ∧ (s.op k).mover.isSome = true ∧ (s.op k).bytes = 0 ∧ s.inSafe = false ∧ b = (s.op k).block ∧ dSrc b ≠ 2 ∧ n = dLen b ∧ 1 ≤ n ∧
      n ≤ 256 ∧ s.dmaRead k 0 n st data = (.data bs, s1) ∧ s1.writeAt c (dmaDest b) 0 bs (.op k) = (.data [], s2)) ∧
    (∃ (s : State) (c : Nat) (slot : Nat) (k : Nat) (d : Word), k = 4096 * c + slot % 4096 ∧ (s.op k).deadline = some d ∧ (s.op k).status =
      none ∧ (s.op k).kind ∈ [2, 3, 5] ∧ s.inSafe = false ∧ s.locReached d = true) ∧
    (∃ (s : State) (c : Nat) (slot : Nat) (k : Nat) (t : Nat) (run : Nat) (st : Nat), k = 4096 * c + slot % 4096 ∧ (s.op k).status = some st
      ∧ st ≠ 2 ∧ (s.op k).delivered = false ∧ (s.op k).stage = 0 ∧ s.inSafe = false ∧ (s.op k).origin = .thread t run ∧ (∀ e ∈ s.ops,
      e.2.held = false) ∧ blkMode (s.op k).block = 1) ∧
    (∃ (s : State) (c : Nat) (slot : Nat) (k : Nat) (t : Nat) (run : Nat) (st : Nat) (f : Nat), k = 4096 * c + slot % 4096 ∧ (s.op k).status
      = some st ∧ (s.op k).delivered = false ∧ (s.op k).stage ≠ 3 ∧ s.inSafe = false ∧ (s.op k).origin = .thread t run ∧ (∀ e ∈ s.ops,
      e.2.held = false) ∧ blkMode (s.op k).block = 0 ∧ s.itemWaits k (s.op k) = false ∧ f = 4 * c + blkFifo (s.op k).block ∧ s.wfRoom f true
      2 = true) ∧
    (∃ (s : State) (c : Nat) (slot : Nat) (k : Nat) (t : Nat) (run : Nat) (r : Nat) (b : List Byte), slot < 4096 ∧ k = 4096 * c + slot ∧
      s.inSafe = false ∧ (s.op k).kind = 1 ∧ (s.op k).origin = .thread t run ∧ b = (s.op k).block ∧ bSrc b % 4 = 1 ∧ (s.op k).status = none
      ∧ (s.op k).held = false ∧ (s.op k).voiding = none ∧ (s.op k).n = 1 ∧ (s.op k).formed = 0 ∧ (s.op k).lim = none ∧ (s.op k).conn = some
      r ∧ nbit (s.op k).cflags 1 = false ∧ s.formsPackets = true ∧ s.routable (s.op k).dstDn (bTc b) = true) :=
  ⟨⟨(timed .track (opS 5 {Op.free with kind := 11, gen := 1, status := none, delivered := false} up)).setCluster 0 {Cluster.init with trigs := [⟨5,6000,false,[],0⟩]}, 0, 5, 5, ⟨5,6000,false,[],0⟩, by decide +kernel⟩,
   ⟨(timed .track (opS 5 {Op.free with kind := 11, gen := 1, status := none, delivered := false} up)).setCluster 0 {Cluster.init with trigs := [⟨5,6000,true,flushB,0⟩]}, 0, 5, 5, ⟨5,6000,true,flushB,0⟩, by decide +kernel⟩,
   ⟨(opS 5 {Op.free with kind := 12, gen := 1, status := none, delivered := false, mover := some 3, block := dB} up), 0, 5, 5, 3, 8, 0x5000, dB, by decide +kernel⟩,
   ⟨(opS 5 {Op.free with kind := 12, gen := 1, status := none, delivered := false, mover := some 3, block := blk [(0,1,12),(8,4,8),(12,1,1),(13,1,1),(24,8,0x4000),(32,8,0x5000)]} up), ((opS 5 {Op.free with kind := 12, gen := 1, status := none, delivered := false, mover := some 3, block := blk [(0,1,12),(8,4,8),(12,1,1),(13,1,1),(24,8,0x4000),(32,8,0x5000)]} up).dmaRead 5 0 8 0 []).2, (((opS 5 {Op.free with kind := 12, gen := 1, status := none, delivered := false, mover := some 3, block := blk [(0,1,12),(8,4,8),(12,1,1),(13,1,1),(24,8,0x4000),(32,8,0x5000)]} up).dmaRead 5 0 8 0 []).2.writeAt 0 (dmaDest (blk [(0,1,12),(8,4,8),(12,1,1),(13,1,1),(24,8,0x4000),(32,8,0x5000)])) 0 (zeroBytes 8) (.op 5)).2, 0, 5, 5, 0, 8, blk [(0,1,12),(8,4,8),(12,1,1),(13,1,1),(24,8,0x4000),(32,8,0x5000)], [], zeroBytes 8, by decide +kernel⟩,
   ⟨at_ 9 (opS 5 {Op.free with kind := 2, gen := 1, status := none, delivered := false, deadline := some 9} up), 0, 5, 5, 9, by decide +kernel⟩,
   ⟨(opS 5 {Op.free with kind := 2, gen := 1, status := some 3, delivered := false, block := blk [(0,1,2),(1,1,0x20),(2,2,0x480)]} up), 0, 5, 5, 0, 0, 3, by decide +kernel⟩,
   ⟨(opS 5 {Op.free with kind := 2, gen := 1, status := some 3, delivered := false, block := blk [(0,1,2),(1,1,0x1),(2,2,0x480)]} up), 0, 5, 5, 0, 0, 3, 1, by decide +kernel⟩,
   ⟨prt (opS 5 {Op.free with kind := 1, gen := 1, status := none, delivered := false, block := putB, conn := some 6, n := 1, dstDn := 5} (net5 up)), 0, 5, 5, 0, 0, 6, putB, by decide +kernel⟩⟩
theorem witness_WorkEntries_1 :
    (∃ (s : State) (qn : Nat) (idx : Nat) (e : OutEntry), s.starts qn idx 7 e) ∧
    (∃ (s : State) (qn : Nat) (idx : Nat) (r : Nat) (k : Nat) (op : Nat) (kind : Nat) (dn : Nat) (f : Nat) (e : OutEntry) (c : Instr), (c,
      op, kind) ∈ [(Instr.put qn idx, 1, 1), (.putImm qn idx, 2, 1), (.get qn idx, 3, 2), (.amo qn idx, 4, 3), (.send qn idx, 5, 4), (.flush
      qn idx, 6, 5)] ∧ s.starts qn idx op e ∧ (s.queue qn).conn = some r ∧ (s.half r).state = .established ∧ (s.half r).invalidArg e.bytes =
      none ∧ (s.half r).pendingOps = [] ∧ s.admits r (s.workPackets (r / 16384) e.bytes) = true ∧ s.freeSlot (r / 16384) = some k ∧
      (s.resolve ((s.half r).remoteEp % 2 ^ 24)).1 = some (dn, f)) ∧
    (∃ (s : State) (qn : Nat) (idx : Nat) (r : Nat) (k : Nat) (op : Nat) (kind : Nat) (dn : Nat) (f : Nat) (e : OutEntry) (c : Instr), (c,
      op, kind) ∈ [(Instr.put qn idx, 1, 1), (.putImm qn idx, 2, 1), (.get qn idx, 3, 2), (.amo qn idx, 4, 3), (.send qn idx, 5, 4), (.flush
      qn idx, 6, 5)] ∧ s.starts qn idx op e ∧ (s.queue qn).conn = some r ∧ (s.half r).state = .established ∧ (s.half r).invalidArg e.bytes =
      none ∧ (s.half r).pendingOps = [] ∧ s.admits r (s.workPackets (r / 16384) e.bytes) = true ∧ s.freeSlot (r / 16384) = some k ∧
      (s.resolve ((s.half r).remoteEp % 2 ^ 24)).1 = some (dn, f)) ∧
    (∃ (s : State) (qn : Nat) (idx : Nat) (r : Nat) (k : Nat) (op : Nat) (kind : Nat) (dn : Nat) (f : Nat) (e : OutEntry) (c : Instr), (c,
      op, kind) ∈ [(Instr.put qn idx, 1, 1), (.putImm qn idx, 2, 1), (.get qn idx, 3, 2), (.amo qn idx, 4, 3), (.send qn idx, 5, 4), (.flush
      qn idx, 6, 5)] ∧ s.starts qn idx op e ∧ (s.queue qn).conn = some r ∧ (s.half r).state = .established ∧ (s.half r).invalidArg e.bytes =
      none ∧ (s.half r).pendingOps = [] ∧ s.admits r (s.workPackets (r / 16384) e.bytes) = true ∧ s.freeSlot (r / 16384) = some k ∧
      (s.resolve ((s.half r).remoteEp % 2 ^ 24)).1 = some (dn, f)) ∧
    (∃ (s : State) (qn : Nat) (idx : Nat) (r : Nat) (k : Nat) (op : Nat) (kind : Nat) (dn : Nat) (f : Nat) (e : OutEntry) (c : Instr), (c,
      op, kind) ∈ [(Instr.put qn idx, 1, 1), (.putImm qn idx, 2, 1), (.get qn idx, 3, 2), (.amo qn idx, 4, 3), (.send qn idx, 5, 4), (.flush
      qn idx, 6, 5)] ∧ s.starts qn idx op e ∧ (s.queue qn).conn = some r ∧ (s.half r).state = .established ∧ (s.half r).invalidArg e.bytes =
      none ∧ (s.half r).pendingOps = [] ∧ s.admits r (s.workPackets (r / 16384) e.bytes) = true ∧ s.freeSlot (r / 16384) = some k ∧
      (s.resolve ((s.half r).remoteEp % 2 ^ 24)).1 = some (dn, f)) ∧
    (∃ (s : State) (qn : Nat) (idx : Nat) (r : Nat) (k : Nat) (op : Nat) (kind : Nat) (dn : Nat) (f : Nat) (e : OutEntry) (c : Instr), (c,
      op, kind) ∈ [(Instr.put qn idx, 1, 1), (.putImm qn idx, 2, 1), (.get qn idx, 3, 2), (.amo qn idx, 4, 3), (.send qn idx, 5, 4), (.flush
      qn idx, 6, 5)] ∧ s.starts qn idx op e ∧ (s.queue qn).conn = some r ∧ (s.half r).state = .established ∧ (s.half r).invalidArg e.bytes =
      none ∧ (s.half r).pendingOps = [] ∧ s.admits r (s.workPackets (r / 16384) e.bytes) = true ∧ s.freeSlot (r / 16384) = some k ∧
      (s.resolve ((s.half r).remoteEp % 2 ^ 24)).1 = some (dn, f)) ∧
    (∃ (s : State) (qn : Nat) (idx : Nat) (r : Nat) (k : Nat) (op : Nat) (kind : Nat) (dn : Nat) (f : Nat) (e : OutEntry) (c : Instr), (c,
      op, kind) ∈ [(Instr.put qn idx, 1, 1), (.putImm qn idx, 2, 1), (.get qn idx, 3, 2), (.amo qn idx, 4, 3), (.send qn idx, 5, 4), (.flush
      qn idx, 6, 5)] ∧ s.starts qn idx op e ∧ (s.queue qn).conn = some r ∧ (s.half r).state = .established ∧ (s.half r).invalidArg e.bytes =
      none ∧ (s.half r).pendingOps = [] ∧ s.admits r (s.workPackets (r / 16384) e.bytes) = true ∧ s.freeSlot (r / 16384) = some k ∧
      (s.resolve ((s.half r).remoteEp % 2 ^ 24)).1 = some (dn, f)) ∧
    (∃ (s : State) (qn : Nat) (idx : Nat) (r : Nat) (e : OutEntry) (op : Nat) (c : Instr), (c, op) ∈ [(Instr.put qn idx, 1), (.putImm qn
      idx, 2), (.get qn idx, 3), (.amo qn idx, 4), (.send qn idx, 5), (.flush qn idx, 6)] ∧ s.starts qn idx op e ∧ (s.queue qn).conn = some
      r ∧ (s.half r).state = .established ∧ (s.half r).invalidArg e.bytes = none ∧ ((s.half r).pendingOps ≠ [] ∨ s.admits r (s.workPackets
      (r / 16384) e.bytes) = false)) :=
  ⟨⟨wq 7 [], 9, 0, oe (ent 7 []), by unfold State.starts; decide +kernel⟩,
   ⟨wq 1 [(8,4,8),(16,8,0x7000),(24,8,0x40)], 9, 0, 3, 0, 1, 1, 5, 3, oe (ent 1 [(8,4,8),(16,8,0x7000),(24,8,0x40)]), .put 9 0, by unfold State.starts; decide +kernel⟩,
   ⟨wq 2 [(8,4,8),(16,8,0x7000),(24,8,0x40)], 9, 0, 3, 0, 2, 1, 5, 3, oe (ent 2 [(8,4,8),(16,8,0x7000),(24,8,0x40)]), .putImm 9 0, by unfold State.starts; decide +kernel⟩,
   ⟨wq 3 [(8,4,8),(16,8,0x7000),(24,8,0x40)], 9, 0, 3, 0, 3, 2, 5, 3, oe (ent 3 [(8,4,8),(16,8,0x7000),(24,8,0x40)]), .get 9 0, by unfold State.starts; decide +kernel⟩,
   ⟨wq 4 [(8,4,8),(16,8,0x7000),(24,8,0x40)], 9, 0, 3, 0, 4, 3, 5, 3, oe (ent 4 [(8,4,8),(16,8,0x7000),(24,8,0x40)]), .amo 9 0, by unfold State.starts; decide +kernel⟩,
   ⟨wq 5 [(8,4,8),(16,8,0x7000),(24,8,0x40)], 9, 0, 3, 0, 5, 4, 5, 3, oe (ent 5 [(8,4,8),(16,8,0x7000),(24,8,0x40)]), .send 9 0, by unfold State.starts; decide +kernel⟩,
   ⟨wq 6 [(8,4,8),(16,8,0x7000),(24,8,0x40)], 9, 0, 3, 0, 6, 5, 5, 3, oe (ent 6 [(8,4,8),(16,8,0x7000),(24,8,0x40)]), .flush 9 0, by unfold State.starts; decide +kernel⟩,
   ⟨conn3 Half.init ((wq 1 [(8,4,8),(16,8,0x7000),(24,8,0x40)])) |>.setHalf 3 {(wq 1 []).half 3 with tx := full3.tx, window := 1}, 9, 0, 3, oe (ent 1 [(8,4,8),(16,8,0x7000),(24,8,0x40)]), 1, .put 9 0, by unfold State.starts; decide +kernel⟩⟩
theorem witness_WorkEntries_2 :
    (∃ (s : State) (qn : Nat) (idx : Nat) (e : OutEntry) (op : Nat) (st : Nat) (c : Instr), (c, op) ∈ [(Instr.put qn idx, 1), (.putImm qn
      idx, 2), (.get qn idx, 3), (.amo qn idx, 4), (.send qn idx, 5), (.flush qn idx, 6)] ∧ s.starts qn idx op e ∧ ((s.queue qn).conn = none
      ∧ st = 0x22 ∨ ∃ r, (s.queue qn).conn = some r ∧ ((s.half r).state = .error ∧ op ∈ [3, 4, 6] ∧ st = entryStatus (s.half r).lastErr ∨
      (s.half r).state ≠ .established ∧ ((s.half r).state = .error → op ∉ [3, 4, 6]) ∧ st = 0x22 ∨ (s.half r).state = .established ∧ (s.half
      r).invalidArg e.bytes ≠ none ∧ st = 0x20))) ∧
    (∃ (s : State) (qn : Nat) (idx : Nat) (e : OutEntry) (op : Nat) (st : Nat) (c : Instr), (c, op) ∈ [(Instr.put qn idx, 1), (.putImm qn
      idx, 2), (.get qn idx, 3), (.amo qn idx, 4), (.send qn idx, 5), (.flush qn idx, 6)] ∧ s.starts qn idx op e ∧ ((s.queue qn).conn = none
      ∧ st = 0x22 ∨ ∃ r, (s.queue qn).conn = some r ∧ ((s.half r).state = .error ∧ op ∈ [3, 4, 6] ∧ st = entryStatus (s.half r).lastErr ∨
      (s.half r).state ≠ .established ∧ ((s.half r).state = .error → op ∉ [3, 4, 6]) ∧ st = 0x22 ∨ (s.half r).state = .established ∧ (s.half
      r).invalidArg e.bytes ≠ none ∧ st = 0x20))) ∧
    (∃ (s : State) (qn : Nat) (idx : Nat) (e : OutEntry) (op : Nat) (st : Nat) (c : Instr), (c, op) ∈ [(Instr.put qn idx, 1), (.putImm qn
      idx, 2), (.get qn idx, 3), (.amo qn idx, 4), (.send qn idx, 5), (.flush qn idx, 6)] ∧ s.starts qn idx op e ∧ ((s.queue qn).conn = none
      ∧ st = 0x22 ∨ ∃ r, (s.queue qn).conn = some r ∧ ((s.half r).state = .error ∧ op ∈ [3, 4, 6] ∧ st = entryStatus (s.half r).lastErr ∨
      (s.half r).state ≠ .established ∧ ((s.half r).state = .error → op ∉ [3, 4, 6]) ∧ st = 0x22 ∨ (s.half r).state = .established ∧ (s.half
      r).invalidArg e.bytes ≠ none ∧ st = 0x20))) ∧
    (∃ (s : State) (qn : Nat) (idx : Nat) (e : OutEntry) (op : Nat) (st : Nat) (c : Instr), (c, op) ∈ [(Instr.put qn idx, 1), (.putImm qn
      idx, 2), (.get qn idx, 3), (.amo qn idx, 4), (.send qn idx, 5), (.flush qn idx, 6)] ∧ s.starts qn idx op e ∧ ((s.queue qn).conn = none
      ∧ st = 0x22 ∨ ∃ r, (s.queue qn).conn = some r ∧ ((s.half r).state = .error ∧ op ∈ [3, 4, 6] ∧ st = entryStatus (s.half r).lastErr ∨
      (s.half r).state ≠ .established ∧ ((s.half r).state = .error → op ∉ [3, 4, 6]) ∧ st = 0x22 ∨ (s.half r).state = .established ∧ (s.half
      r).invalidArg e.bytes ≠ none ∧ st = 0x20))) ∧
    (∃ (s : State) (qn : Nat) (idx : Nat) (e : OutEntry) (op : Nat) (st : Nat) (c : Instr), (c, op) ∈ [(Instr.put qn idx, 1), (.putImm qn
      idx, 2), (.get qn idx, 3), (.amo qn idx, 4), (.send qn idx, 5), (.flush qn idx, 6)] ∧ s.starts qn idx op e ∧ ((s.queue qn).conn = none
      ∧ st = 0x22 ∨ ∃ r, (s.queue qn).conn = some r ∧ ((s.half r).state = .error ∧ op ∈ [3, 4, 6] ∧ st = entryStatus (s.half r).lastErr ∨
      (s.half r).state ≠ .established ∧ ((s.half r).state = .error → op ∉ [3, 4, 6]) ∧ st = 0x22 ∨ (s.half r).state = .established ∧ (s.half
      r).invalidArg e.bytes ≠ none ∧ st = 0x20))) ∧
    (∃ (s : State) (qn : Nat) (idx : Nat) (e : OutEntry) (op : Nat) (st : Nat) (c : Instr), (c, op) ∈ [(Instr.put qn idx, 1), (.putImm qn
      idx, 2), (.get qn idx, 3), (.amo qn idx, 4), (.send qn idx, 5), (.flush qn idx, 6)] ∧ s.starts qn idx op e ∧ ((s.queue qn).conn = none
      ∧ st = 0x22 ∨ ∃ r, (s.queue qn).conn = some r ∧ ((s.half r).state = .error ∧ op ∈ [3, 4, 6] ∧ st = entryStatus (s.half r).lastErr ∨
      (s.half r).state ≠ .established ∧ ((s.half r).state = .error → op ∉ [3, 4, 6]) ∧ st = 0x22 ∨ (s.half r).state = .established ∧ (s.half
      r).invalidArg e.bytes ≠ none ∧ st = 0x20))) ∧
    (∃ (s : State) (s1 : State) (qn : Nat) (idx : Nat) (ctx : Nat) (e : OutEntry), s.meetsServer qn idx e s1 ∧ ctx = entryCtx e.bytes ∧
      s.ctxOpen ctx (s.queue qn).func = true ∧ s1.recvHeld qn = false ∧ s.atHome qn ctx ∧ (∀ w ∈ s1.mtch.waiting, w.1 = ctx → w.2.1 ≠ qn) ∧
      (s1.mctx ctx).unexp.findIdx? (fun x => (recvEntry qn e.idx e.bytes).fits x.src x.tag) = none ∧ s1.storeUsed (s.homeOf ctx) < 8192 ∧
      (s1.mctx ctx).posted.length < s1.fd F.CLU_MATCH_CFG_POST_MAX [s.homeOf ctx]) ∧
    (∃ (s : State) (s1 : State) (qn : Nat) (idx : Nat) (ctx : Nat) (e : OutEntry), s.meetsServer qn idx e s1 ∧ ctx = entryCtx e.bytes ∧
      s.ctxOpen ctx (s.queue qn).func = true ∧ s1.recvHeld qn = false ∧ s.atHome qn ctx ∧ (∀ w ∈ s1.mtch.waiting, w.1 = ctx → w.2.1 ≠ qn) ∧
      (s1.mctx ctx).unexp.findIdx? (fun x => (recvEntry qn e.idx e.bytes).fits x.src x.tag) = none ∧ s1.storeUsed (s.homeOf ctx) < 8192 ∧
      (s1.mctx ctx).posted.length < s1.fd F.CLU_MATCH_CFG_POST_MAX [s.homeOf ctx]) :=
  ⟨⟨withCq 4 (withEntry 9 { Queue.init with cn := 4, log2 := 8 } (ent 1 []) up), 9, 0, oe (ent 1 []), 1, 0x22, .put 9 0, by unfold State.starts; decide +kernel⟩,
   ⟨withCq 4 (withEntry 9 { Queue.init with cn := 4, log2 := 8 } (ent 2 []) up), 9, 0, oe (ent 2 []), 2, 0x22, .putImm 9 0, by unfold State.starts; decide +kernel⟩,
   ⟨withCq 4 (withEntry 9 { Queue.init with cn := 4, log2 := 8 } (ent 6 []) up), 9, 0, oe (ent 6 []), 6, 0x22, .flush 9 0, by unfold State.starts; decide +kernel⟩,
   ⟨(conn3 { Half.init with remoteKey := 0 } (wq 3 []) |>.setHalf 3 {(wq 1 []).half 3 with state := .error, lastErr := 0x10 }), 9, 0, oe (ent 3 []), 3, entryStatus 0x10, .get 9 0, by unfold State.starts; decide +kernel⟩,
   ⟨(conn3 { Half.init with remoteKey := 0 } (wq 1 []) |>.setHalf 3 {(wq 1 []).half 3 with state := .error, lastErr := 0x10 }), 9, 0, oe (ent 1 []), 1, 0x22, .put 9 0, by unfold State.starts; decide +kernel⟩,
   ⟨wq 4 [(4,4,0),(24,8,0x41)], 9, 0, oe (ent 4 [(4,4,0),(24,8,0x41)]), 4, 0x20, .amo 9 0, by unfold State.starts; decide +kernel⟩,
   ⟨rcS 3 0, rcS 3 0, 9, 0, 0, oe (rcE 0), by unfold State.meetsServer State.atHome; decide +kernel⟩,
   ⟨rcP, (rcP.wfTake 3).map (·.2) |>.getD up, 9, 0, 0, oe (rcE 0), by unfold State.meetsServer State.atHome; decide +kernel⟩⟩
theorem witness_WorkEntries_3 :
    (∃ (s : State) (s1 : State) (qn : Nat) (idx : Nat) (ctx : Nat) (i : Nat) (e : OutEntry) (m : MatchEntry) (x : UnexpRec), s.meetsServer
      qn idx e s1 ∧ ctx = entryCtx e.bytes ∧ s.ctxOpen ctx (s.queue qn).func = true ∧ s1.recvHeld qn = false ∧ s.atHome qn ctx ∧ (∀ w ∈
      s1.mtch.waiting, w.1 = ctx → w.2.1 ≠ qn) ∧ (s1.mctx ctx).unexp.findIdx? (fun x => (recvEntry qn e.idx e.bytes).fits x.src x.tag) =
      some i ∧ (s1.mctx ctx).unexp[i]? = some m ∧ s1.urec m.ref = some x ∧ x.st ≠ 2) ∧
    (∃ (s : State) (s1 : State) (qn : Nat) (idx : Nat) (ctx : Nat) (e : OutEntry), s.meetsServer qn idx e s1 ∧ ctx = entryCtx e.bytes ∧
      s.ctxOpen ctx (s.queue qn).func = true ∧ s1.recvHeld qn = false ∧ s.atHome qn ctx ∧ ((∃ w ∈ s1.mtch.waiting, w.1 = ctx ∧ w.2.1 = qn) ∨
      (s1.mctx ctx).unexp.findIdx? (fun x => (recvEntry qn e.idx e.bytes).fits x.src x.tag) = none ∧ (8192 ≤ s1.storeUsed (s.homeOf ctx) ∨
      s1.fd F.CLU_MATCH_CFG_POST_MAX [s.homeOf ctx] ≤ (s1.mctx ctx).posted.length))) ∧
    (∃ (s : State) (s1 : State) (qn : Nat) (idx : Nat) (ctx : Nat) (e : OutEntry), s.meetsServer qn idx e s1 ∧ ctx = entryCtx e.bytes ∧
      s.ctxOpen ctx (s.queue qn).func = true ∧ s1.recvHeld qn = false ∧ s.atHome qn ctx ∧ ((∃ w ∈ s1.mtch.waiting, w.1 = ctx ∧ w.2.1 = qn) ∨
      (s1.mctx ctx).unexp.findIdx? (fun x => (recvEntry qn e.idx e.bytes).fits x.src x.tag) = none ∧ (8192 ≤ s1.storeUsed (s.homeOf ctx) ∨
      s1.fd F.CLU_MATCH_CFG_POST_MAX [s.homeOf ctx] ≤ (s1.mctx ctx).posted.length))) ∧
    (∃ (s : State) (s1 : State) (qn : Nat) (idx : Nat) (ctx : Nat) (e : OutEntry), s.meetsServer qn idx e s1 ∧ ctx = entryCtx e.bytes ∧
      s.ctxOpen ctx (s.queue qn).func = true ∧ s1.recvHeld qn = false ∧ ¬s.atHome qn ctx ∧ (∀ f ∈ s1.overflow (s.queue qn).cluster, f.home ≠
      s.homeOf ctx) ∧ s1.wfRoom (4 * s.homeOf ctx + 3) true 2 = true) ∧
    (∃ (s : State) (s1 : State) (qn : Nat) (idx : Nat) (ctx : Nat) (e : OutEntry), s.meetsServer qn idx e s1 ∧ ctx = entryCtx e.bytes ∧
      s.ctxOpen ctx (s.queue qn).func = true ∧ s1.recvHeld qn = false ∧ ¬s.atHome qn ctx ∧ (∀ f ∈ s1.overflow (s.queue qn).cluster, f.home ≠
      s.homeOf ctx) ∧ s1.wfRoom (4 * s.homeOf ctx + 3) true 2 = true) ∧
    (∃ (s : State) (s1 : State) (qn : Nat) (idx : Nat) (e : OutEntry), s.meetsServer qn idx e s1 ∧ s.ctxOpen (entryCtx e.bytes) (s.queue
      qn).func = true ∧ s1.recvHeld qn = true) ∧
    (∃ (s : State) (s1 : State) (qn : Nat) (idx : Nat) (e : OutEntry), s.meetsServer qn idx e s1 ∧ s.ctxOpen (entryCtx e.bytes) (s.queue
      qn).func = false ∧ s.cqRoom (s.queue qn).cn = true) ∧
    (∃ (s : State) (s1 : State) (c : Nat) (home : Nat) (ref : Nat) (rest : List Fwd) (x : PktRef), s.inSafe = false ∧ s.overflow c = .msg
      home ref :: rest ∧ s.pktRef c ref = some x ∧ s.forwardItem c home 0x90 (pktItem (s.half x.conn) x.pkt ref x.rxFt).body = some s1) :=
  ⟨⟨rcU, rcU, 9, 0, 0, 0, oe (rcE 0), ue, ur, by unfold State.meetsServer State.atHome; decide +kernel⟩,
   ⟨(rcS 3 0).wr R.CLU_MATCH_CFG [0] 0, (rcS 3 0).wr R.CLU_MATCH_CFG [0] 0, 9, 0, 0, oe (rcE 0), by unfold State.meetsServer State.atHome; decide +kernel⟩,
   ⟨(let s := rcS 3 0; { s with mtch := { s.mtch with waiting := [(0,9,77)] } }), (let s := rcS 3 0; { s with mtch := { s.mtch with waiting := [(0,9,77)] } }), 9, 0, 0, oe (rcE 0), by unfold State.meetsServer State.atHome; decide +kernel⟩,
   ⟨rcS 3 5, rcS 3 5, 9, 0, 5, oe (rcE 5), by unfold State.meetsServer State.atHome; decide +kernel⟩,
   ⟨rcS 0 5, rcS 0 5, 9, 0, 5, oe (rcE 5), by unfold State.meetsServer State.atHome; decide +kernel⟩,
   ⟨(let s := rcS 3 5; { s with mtch := { s.mtch with kept := [(9,77)] } }), (let s := rcS 3 5; { s with mtch := { s.mtch with kept := [(9,77)] } }), 9, 0, oe (rcE 5), by unfold State.meetsServer; decide +kernel⟩,
   ⟨(rcS 3 0).setMctx 0 { MatchCtx.init with claimed := true, func := 4 }, (rcS 3 0).setMctx 0 { MatchCtx.init with claimed := true, func := 4 }, 9, 0, oe (rcE 0), by unfold State.meetsServer; decide +kernel⟩,
   ⟨ovM, (ovM.forwardItem 0 5 0x90 (pktItem (ovM.half 3) { mgP with iso := 2 } 0x20000 6).body).getD up, 0, 5, 0x20000, [.msg 5 7], px mgP, by decide +kernel⟩⟩
theorem witness_WorkEntries_4 :
    (∃ (s : State) (s1 : State) (c : Nat) (home : Nat) (qn : Nat) (n : Nat) (e : OutEntry) (rest : List Fwd), s.inSafe = false ∧ s.overflow
      c = .recv home qn n :: rest ∧ (s.queue qn).entry n = some e ∧ s.forwardItem c home 0x91 (s.recvBody qn e) = some s1) ∧
    (∃ (s : State) (c : Nat) (home : Nat) (ref : Nat) (rest : List Fwd) (x : PktRef), s.inSafe = false ∧ s.overflow c = .msg home ref ::
      rest ∧ s.pktRef c ref = some x ∧ s.wfRoom (4 * home + 3) true 2 = false) :=
  ⟨⟨ovR, (ovR.forwardItem 0 5 0x91 (ovR.recvBody 9 (oe (rcE 5)))).getD up, 0, 5, 9, 0, oe (rcE 5), [], by decide +kernel⟩,
   ⟨(ovM.setFifo 23 { Fifo.init with bank0 := ⟨List.replicate 9 ⟨0x84, 120, 0, 2, 0, 0, []⟩, []⟩ }), 0, 5, 0x20000, [.msg 5 7], px mgP, by decide +kernel⟩⟩
theorem witness_PacketsAtTheTarget_1 :
    (∃ (s : State) (s1 : State) (s3 : State) (c : Nat) (ref : Nat) (pa : Nat) (f : Nat) (x : PktRef), s.holds c ref x ∧ x.pkt.op = opPut ∧
      x.pkt.void = false ∧ x.pkt.imm = false ∧ (s.half x.conn).coll = none ∧ (if x.accepted then (none, s) else s.keyRefuses c (s.half
      x.conn) x.pkt .write) = (none, s1) ∧ x.pkt.payload.length ≤ (s.half x.conn).maxLen ∧ (s1.setPktRef c ref (some
      { x with accepted := true })).mayWriteFor x = true ∧ (s1.setPktRef c ref (some { x with accepted := true })).locate c (.keyed (keyAsk
      x.pkt.key) x.pkt.va) .write (.pkt ref) (x.pkt.payload.length / 4096 + 2) 0 x.pkt.payload.length [] = (.at_ [⟨true, pa,
      x.pkt.payload.length, f⟩], s3)) ∧
    (∃ (s : State) (c : Nat) (ref : Nat) (x : PktRef), s.holds c ref x ∧ x.pkt.op = opPut ∧ x.pkt.void = true ∧ x.pkt.imm = false ∧ (s.half
      x.conn).isRed x.pkt = false ∧ s.mayWriteFor x = true) ∧
    (∃ (s : State) (s1 : State) (s2 : State) (c : Nat) (ref : Nat) (k : Nat) (dest : Nat × Nat) (x : PktRef), s.holds c ref x ∧ x.pkt.op =
      opGetReq ∧ x.pkt.void = false ∧ s.responding x.conn x.pkt.seq = false ∧ s.keyRefuses c (s.half x.conn) x.pkt .read = (none, s1) ∧
      x.pkt.aux ≤ (s.half x.conn).maxLen ∧ s1.returnPath (s.half x.conn) x.pkt = (some dest, s2) ∧ s.freeSlot (x.conn / 16384) = some k) ∧
    (∃ (s : State) (s1 : State) (s2 : State) (s4 : State) (c : Nat) (ref : Nat) (pa : Nat) (f : Nat) (n : Nat) (w : Nat) (old : Nat) (new :
      Nat) (a : Nat) (b : Nat) (dest : Nat × Nat) (x : PktRef), s.holds c ref x ∧ x.pkt.op = opAmoReq ∧ x.pkt.void = false ∧ x.busy = false
      ∧ (s.freeSlot c).isSome = true ∧ (s.freeSlot (x.conn / 16384)).isSome = true ∧ (if x.accepted then (none, s) else s.keyRefuses c
      (s.half x.conn) x.pkt .atomic) = (none, s1) ∧ n = (if nbit x.pkt.aux 4 then 4 else 8) ∧ w = 8 * n ∧ x.pkt.va % n = 0 ∧ s1.returnPath
      (s.half x.conn) x.pkt = (some dest, s2) ∧ (s2.setPktRef c ref (some { x with accepted := true })).locateOne c (.keyed (keyAsk
      x.pkt.key) x.pkt.va) 0 .atomic (.pkt ref) = (.at_ [⟨true, pa, 0, f⟩], s4) ∧ s.bad (hbmKey pa) n = false ∧ old = leNat (s.mem.readN
      (hbmKey pa) n) ∧ a = beNat (byteSlice x.pkt.payload 0 n) ∧ b = beNat (byteSlice x.pkt.payload 8 n) ∧ (x.pkt.aux % 16, new) ∈ [(0, (old
      + a) % 2 ^ w), (1, a), (2, if old = b then a else old), (3, old &&& a), (4, old ||| a), (5, old ^^^ a), (6, if toSigned w a < toSigned
      w old then a else old), (7, if toSigned w old < toSigned w a then a else old), (8, min old a), (9, max old a)]) ∧
    (∃ (s : State) (s1 : State) (s2 : State) (s4 : State) (c : Nat) (ref : Nat) (pa : Nat) (f : Nat) (n : Nat) (w : Nat) (old : Nat) (new :
      Nat) (a : Nat) (b : Nat) (dest : Nat × Nat) (x : PktRef), s.holds c ref x ∧ x.pkt.op = opAmoReq ∧ x.pkt.void = false ∧ x.busy = false
      ∧ (s.freeSlot c).isSome = true ∧ (s.freeSlot (x.conn / 16384)).isSome = true ∧ (if x.accepted then (none, s) else s.keyRefuses c
      (s.half x.conn) x.pkt .atomic) = (none, s1) ∧ n = (if nbit x.pkt.aux 4 then 4 else 8) ∧ w = 8 * n ∧ x.pkt.va % n = 0 ∧ s1.returnPath
      (s.half x.conn) x.pkt = (some dest, s2) ∧ (s2.setPktRef c ref (some { x with accepted := true })).locateOne c (.keyed (keyAsk
      x.pkt.key) x.pkt.va) 0 .atomic (.pkt ref) = (.at_ [⟨true, pa, 0, f⟩], s4) ∧ s.bad (hbmKey pa) n = false ∧ old = leNat (s.mem.readN
      (hbmKey pa) n) ∧ a = beNat (byteSlice x.pkt.payload 0 n) ∧ b = beNat (byteSlice x.pkt.payload 8 n) ∧ (x.pkt.aux % 16, new) ∈ [(0, (old
      + a) % 2 ^ w), (1, a), (2, if old = b then a else old), (3, old &&& a), (4, old ||| a), (5, old ^^^ a), (6, if toSigned w a < toSigned
      w old then a else old), (7, if toSigned w old < toSigned w a then a else old), (8, min old a), (9, max old a)]) ∧
    (∃ (s : State) (s1 : State) (s2 : State) (s4 : State) (c : Nat) (ref : Nat) (pa : Nat) (f : Nat) (n : Nat) (w : Nat) (old : Nat) (new :
      Nat) (a : Nat) (b : Nat) (dest : Nat × Nat) (x : PktRef), s.holds c ref x ∧ x.pkt.op = opAmoReq ∧ x.pkt.void = false ∧ x.busy = false
      ∧ (s.freeSlot c).isSome = true ∧ (s.freeSlot (x.conn / 16384)).isSome = true ∧ (if x.accepted then (none, s) else s.keyRefuses c
      (s.half x.conn) x.pkt .atomic) = (none, s1) ∧ n = (if nbit x.pkt.aux 4 then 4 else 8) ∧ w = 8 * n ∧ x.pkt.va % n = 0 ∧ s1.returnPath
      (s.half x.conn) x.pkt = (some dest, s2) ∧ (s2.setPktRef c ref (some { x with accepted := true })).locateOne c (.keyed (keyAsk
      x.pkt.key) x.pkt.va) 0 .atomic (.pkt ref) = (.at_ [⟨true, pa, 0, f⟩], s4) ∧ s.bad (hbmKey pa) n = false ∧ old = leNat (s.mem.readN
      (hbmKey pa) n) ∧ a = beNat (byteSlice x.pkt.payload 0 n) ∧ b = beNat (byteSlice x.pkt.payload 8 n) ∧ (x.pkt.aux % 16, new) ∈ [(0, (old
      + a) % 2 ^ w), (1, a), (2, if old = b then a else old), (3, old &&& a), (4, old ||| a), (5, old ^^^ a), (6, if toSigned w a < toSigned
      w old then a else old), (7, if toSigned w old < toSigned w a then a else old), (8, min old a), (9, max old a)]) ∧
    (∃ (s : State) (s1 : State) (s2 : State) (s4 : State) (c : Nat) (ref : Nat) (pa : Nat) (f : Nat) (n : Nat) (w : Nat) (old : Nat) (new :
      Nat) (a : Nat) (b : Nat) (dest : Nat × Nat) (x : PktRef), s.holds c ref x ∧ x.pkt.op = opAmoReq ∧ x.pkt.void = false ∧ x.busy = false
      ∧ (s.freeSlot c).isSome = true ∧ (s.freeSlot (x.conn / 16384)).isSome = true ∧ (if x.accepted then (none, s) else s.keyRefuses c
      (s.half x.conn) x.pkt .atomic) = (none, s1) ∧ n = (if nbit x.pkt.aux 4 then 4 else 8) ∧ w = 8 * n ∧ x.pkt.va % n = 0 ∧ s1.returnPath
      (s.half x.conn) x.pkt = (some dest, s2) ∧ (s2.setPktRef c ref (some { x with accepted := true })).locateOne c (.keyed (keyAsk
      x.pkt.key) x.pkt.va) 0 .atomic (.pkt ref) = (.at_ [⟨true, pa, 0, f⟩], s4) ∧ s.bad (hbmKey pa) n = false ∧ old = leNat (s.mem.readN
      (hbmKey pa) n) ∧ a = beNat (byteSlice x.pkt.payload 0 n) ∧ b = beNat (byteSlice x.pkt.payload 8 n) ∧ (x.pkt.aux % 16, new) ∈ [(0, (old
      + a) % 2 ^ w), (1, a), (2, if old = b then a else old), (3, old &&& a), (4, old ||| a), (5, old ^^^ a), (6, if toSigned w a < toSigned
      w old then a else old), (7, if toSigned w old < toSigned w a then a else old), (8, min old a), (9, max old a)]) ∧
    (∃ (s : State) (s3 : State) (c : Nat) (ref : Nat) (k : Nat) (pa : Nat) (f : Nat) (n : Nat) (x : PktRef), s.holds c ref x ∧ x.pkt.op =
      opGetResp ∧ x.pkt.void = false ∧ n = x.pkt.payload.length ∧ s.requester x.conn kGet (BitVec.ofNat 32 x.pkt.aux) = some k ∧ x.pkt.va +
      n ≤ bLen (s.op k).block ∧ (x.pkt.va, n) ∉ (s.op k).placed ∧ s.mayWriteFor x = true ∧ nbit (s.op k).flags 7 = false ∧ s.locate c
      (getDest (s.op k).block) .write (.op k) (n / 4096 + 2) x.pkt.va n [] = (.at_ [⟨true, pa, n, f⟩], s3)) :=
  ⟨⟨ask1 (got putP id up), ((ask1 (got putP id up)).keyRefuses 0 ((ask1 (got putP id up)).half 3) (px putP).pkt .write).2, (((((ask1 (got putP id up)).keyRefuses 0 ((ask1 (got putP id up)).half 3) (px putP).pkt .write).2).setPktRef 0 0x20000 (some { px putP with accepted := true })).locate 0 (.keyed 1 0x7010) .write (.pkt 0x20000) 2 0 3 []).2, 0, 0x20000, 0x9010, 3, px putP, by unfold State.holds; decide +kernel⟩,
   ⟨net5 (ask1 (got voidP id up)), 0, 0x20000, px voidP, by unfold State.holds; decide +kernel⟩,
   ⟨(let s := net5 (ask1 (got getP id up)); s), net5 (ask1 (got getP id up)), net5 (ask1 (got getP id up)), 0, 0x20000, 0, (5,3), px getP, by unfold State.holds; decide +kernel⟩,
   ⟨AS 0, AS 0, AS 0, (AS 0).setPktRef 0 0x20000 (some { px (amoP 0) with accepted := true }), 0, 0x20000, 0x9010, 3, 8, 64, 7, 10, 3, 7, (5,3), px (amoP 0), by unfold State.holds; decide +kernel⟩,
   ⟨AS 2, AS 2, AS 2, (AS 2).setPktRef 0 0x20000 (some { px (amoP 2) with accepted := true }), 0, 0x20000, 0x9010, 3, 8, 64, 7, 3, 3, 7, (5,3), px (amoP 2), by unfold State.holds; decide +kernel⟩,
   ⟨AS 6, AS 6, AS 6, (AS 6).setPktRef 0 0x20000 (some { px (amoP 6) with accepted := true }), 0, 0x20000, 0x9010, 3, 8, 64, 7, 3, 3, 7, (5,3), px (amoP 6), by unfold State.holds; decide +kernel⟩,
   ⟨AS 9, AS 9, AS 9, (AS 9).setPktRef 0 0x20000 (some { px (amoP 9) with accepted := true }), 0, 0x20000, 0x9010, 3, 8, 64, 7, 7, 3, 7, (5,3), px (amoP 9), by unfold State.holds; decide +kernel⟩,
   ⟨GS, GS, 0, 0x20000, 5, 0x9000, 3, 3, px respP, by unfold State.holds; decide +kernel⟩⟩
theorem witness_PacketsAtTheTarget_2 :
    (∃ (s : State) (c : Nat) (ref : Nat) (x : PktRef) (i : Instr) (kind : Nat), s.holds c ref x ∧ x.pkt.void = false ∧ s.mayWriteFor x =
      true ∧ (i, x.pkt.op, kind) ∈ [(Instr.getResp c ref, opGetResp, kGet), (.amoResp c ref, opAmoResp, kAmo)] ∧ s.requester x.conn kind
      (BitVec.ofNat 32 x.pkt.aux) = none) ∧
    (∃ (s : State) (c : Nat) (ref : Nat) (x : PktRef) (i : Instr) (kind : Nat), s.holds c ref x ∧ x.pkt.void = false ∧ s.mayWriteFor x =
      true ∧ (i, x.pkt.op, kind) ∈ [(Instr.getResp c ref, opGetResp, kGet), (.amoResp c ref, opAmoResp, kAmo)] ∧ s.requester x.conn kind
      (BitVec.ofNat 32 x.pkt.aux) = none) ∧
    (∃ (s : State) (c : Nat) (ref : Nat) (k : Nat) (t : Nat) (run : Nat) (x : PktRef), s.holds c ref x ∧ x.pkt.op = opAmoResp ∧ x.pkt.void =
      false ∧ s.mayWriteFor x = true ∧ s.requester x.conn kAmo (BitVec.ofNat 32 x.pkt.aux) = some k ∧ (s.op k).origin = .thread t run) ∧
    (∃ (s : State) (c : Nat) (ref : Nat) (x : PktRef), s.holds c ref x ∧ x.pkt.op = opFlush ∧ x.pkt.void = false ∧ x.busy = false ∧ (s.half
      x.conn).rx.e = x.pkt.seq ∧ (s.half x.conn).rx.wrote = none) ∧
    (∃ (s : State) (c : Nat) (ref : Nat) (a : Nat) (x : PktRef), s.holds c ref x ∧ x.pkt.op = opFlush ∧ x.pkt.void = false ∧ x.busy = false
      ∧ (s.half x.conn).rx.e = x.pkt.seq ∧ (s.half x.conn).rx.wrote = some a ∧ s.reqBar (s.half x.conn).func = .none ∧ s.linkAwake (s.half
      x.conn).func = true) :=
  ⟨⟨net5 (ask1 (got respP id up)), 0, 0x20000, px respP, .getResp 0 0x20000, kGet, by unfold State.holds; decide +kernel⟩,
   ⟨net5 (ask1 (got arespP id up)), 0, 0x20000, px arespP, .amoResp 0 0x20000, kAmo, by unfold State.holds; decide +kernel⟩,
   ⟨FS, 0, 0x20000, 5, 7, 2, px arespP, by unfold State.holds; decide +kernel⟩,
   ⟨LS, 0, 0x20000, px flP, by unfold State.holds; decide +kernel⟩,
   ⟨flW, 0, 0x20000, 0, px flP, by unfold State.holds; decide +kernel⟩⟩
theorem witness_AcknowledgementsAndRetransmission :
    (∃ (s : State) (r : Nat) (t : Word) (l : BitVec 32 × Nat × Nat × Bool), s.inSafe = false ∧ (s.half r).rx.ackFrom = some t ∧ s.fd
      F.SLD_ACK_CFG_ACK_DELAY * 4 ≤ s.locSince t ∧ (s.half r).rx.last = some l) ∧
    (∃ (s : State) (r : Nat) (a : AckItem) (rest : List AckItem), s.inSafe = false ∧ (s.half r).acks = a :: rest ∧ (s.half r).state =
      .established ∧ a.kind = 1 ∧ (s.half r).pendingOps = [] ∧ (seqAhead a.cum (s.half r).cum).isSome = true) ∧
    (∃ (s : State) (r : Nat) (a : AckItem) (rest : List AckItem), s.inSafe = false ∧ (s.half r).acks = a :: rest ∧ (s.half r).state =
      .established ∧ a.kind = 3 ∧ isTransientCode a.code = false) ∧
    (∃ (s : State) (r : Nat) (k : Nat) (a : AckItem) (rest : List AckItem), s.inSafe = false ∧ (s.half r).acks = a :: rest ∧ (s.half
      r).state = .established ∧ a.kind = 2 ∧ (s.half r).pendingOps = [] ∧ (k, s.op k) ∈ s.ops ∧ (s.op k).isOpen = true ∧ (s.op k).kind =
      kFlush ∧ (s.op k).conn = some r ∧ (s.op k).formed = (s.op k).n ∧ (s.op k).n ≠ 0 ∧ (seqAhead a.seq (bSeq (s.op k).block)).isSome =
      true) ∧
    (∃ (s : State) (r : Nat) (seq : Nat) (k : Nat) (x : TxRec), s.inSafe = false ∧ s.sendingRec r seq = some x ∧ x.retryAt = none ∧
      s.freeSlot (r / 16384) = some k ∧ x.k < min (s.fd F.SLD_WIN_RETX_RETX_MAX [(s.half r).tc]) (s.lifetime / s.rtoTicks (s.half r)) ∧ (x.k
      + 1) * s.rtoTicks (s.half r) ≤ s.locSince x.firstAt ∧ (∀ e ∈ s.ops, e.2.isOpen = true → e.2.kind = 0x14 → e.2.conn = some r → bSeq
      e.2.block ≠ x.seq)) ∧
    (∃ (s : State) (r : Nat) (seq : Nat) (x : TxRec), s.inSafe = false ∧ s.sendingRec r seq = some x ∧ x.retryAt = none ∧ 3 * s.lifetime ≤
      s.locSince x.firstAt) ∧
    (∃ (s : State) (r : Nat) (seq : Nat) (k : Nat) (why : Nat) (x : TxRec) (t : Word) (c : Instr), s.inSafe = false ∧ s.sendingRec r seq =
      some x ∧ x.retryAt = some t ∧ s.locReached t = true ∧ x.why = why ∧ s.freeSlot (r / 16384) = some k ∧ (∀ e ∈ s.ops, e.2.isOpen = true
      → e.2.kind = 0x14 → e.2.conn = some r → bSeq e.2.block ≠ x.seq) ∧ (c = .rlRetry r seq ∧ why = 0x0C ∨ c = .refuseBackoff r seq ∧ why ≠
      0x0C)) ∧
    (∃ (s : State) (r : Nat) (seq : Nat) (k : Nat) (why : Nat) (x : TxRec) (t : Word) (c : Instr), s.inSafe = false ∧ s.sendingRec r seq =
      some x ∧ x.retryAt = some t ∧ s.locReached t = true ∧ x.why = why ∧ s.freeSlot (r / 16384) = some k ∧ (∀ e ∈ s.ops, e.2.isOpen = true
      → e.2.kind = 0x14 → e.2.conn = some r → bSeq e.2.block ≠ x.seq) ∧ (c = .rlRetry r seq ∧ why = 0x0C ∨ c = .refuseBackoff r seq ∧ why ≠
      0x0C)) :=
  ⟨⟨at_ 10000000 ((conn3 Half.init up).setHalf 3 { (conn3 Half.init up).half 3 with rx := { Stream.init with ackFrom := some 5, ackCount := 2, last := some (3,4,5,false) } }), 3, 5, (3,4,5,false), by decide +kernel⟩,
   ⟨(conn3 Half.init up).setHalf 3 { (conn3 Half.init up).half 3 with cum := 2, txSeq := 6, tx := [rec 3, rec 4, rec 5], acks := [⟨1,0,0,0,4,4,0,0,0,0⟩] }, 3, ⟨1,0,0,0,4,4,0,0,0,0⟩, [], by decide +kernel⟩,
   ⟨akS [⟨3,0x10,0,0,4,4,0,0,0,0⟩], 3, ⟨3,0x10,0,0,4,4,0,0,0,0⟩, [], by decide +kernel⟩,
   ⟨(akS [⟨2,0,0,0,4,4,0,0,0,77⟩]).setOp 5 flO, 3, 5, ⟨2,0,0,0,4,4,0,0,0,77⟩, [], by decide +kernel⟩,
   ⟨(RS {rec 4 with firstAt := 0}), 3, 4, 0, {rec 4 with firstAt := 0}, by decide +kernel⟩,
   ⟨at_ (4000000000000000) (RS {rec 4 with firstAt := 0}), 3, 4, {rec 4 with firstAt := 0}, by decide +kernel⟩,
   ⟨(RS {rec 4 with retryAt := some 100, why := 0x0C}), 3, 4, 0, 0x0C, {rec 4 with retryAt := some 100, why := 0x0C}, 100, .rlRetry 3 4, by decide +kernel⟩,
   ⟨(RS {rec 4 with retryAt := some 100, why := 3}), 3, 4, 0, 3, {rec 4 with retryAt := some 100, why := 3}, 100, .refuseBackoff 3 4, by decide +kernel⟩⟩
theorem witness_ConnectionCommands :
    (∃ (s : State) (pf : Nat) (idx : Nat) (ep : Nat) (f : Nat) (e : OutEntry), s.controls pf idx 0x54 e ∧ ep = leAt e.bytes 8 3 ∧ f = leAt
      e.bytes 12 2 ∧ s.mayName pf f = true ∧ s.endpoint ep = none ∧ s.net.endpoints.length < 65536) ∧
    (∃ (s : State) (pf : Nat) (idx : Nat) (ep : Nat) (e : OutEntry) (x : Endpoint), s.controls pf idx 0x55 e ∧ ep = leAt e.bytes 8 3 ∧
      s.endpoint ep = some x ∧ s.mayName pf x.func = true ∧ (∀ h ∈ s.net.halves, h.2.state = .unused ∨ h.2.localEp ≠ ep)) ∧
    (∃ (s : State) (pf : Nat) (idx : Nat) (r : Nat) (lep : Nat) (rep : Nat) (ch : Nat) (cn : Nat) (e : OutEntry) (b : List Byte) (x :
      Endpoint), s.controls pf idx 0x50 e ∧ b = e.bytes ∧ r = leAt b 8 4 ∧ lep = leAt b 12 3 ∧ rep = leAt b 16 3 ∧ ch = leAt b 19 1 ∧ cn =
      leAt b 40 2 ∧ r / 16384 < s.clusterCount ∧ s.endpoint lep = some x ∧ x.func = leAt b 42 2 ∧ x.iso = leAt b 20 2 ∧ leAt b 22 1 ≠ 7 ∧
      leAt b 44 4 ≤ maxMessage ∧ 1 ≤ leAt b 48 2 ∧ leAt b 48 2 ≤ 16384 ∧ leAt b 52 2 ≠ 0 ∧ (s.cq cn).state ≠ .unused ∧ (s.cq cn).func =
      x.func ∧ s.mayName pf x.func = true ∧ (s.half r).state = .unused ∧ s.findHalf lep rep (ch % 16) = none) ∧
    (∃ (s : State) (pf : Nat) (idx : Nat) (r : Nat) (e : OutEntry), s.controls pf idx 0x51 e ∧ r = leAt e.bytes 8 4 ∧ (s.half r).state ∈
      [.established, .error] ∧ s.mayName pf (s.half r).func = true ∧ (∀ qn ∈ s.queuesOfConn r, (s.queue qn).state = .shutdown)) ∧
    (∃ (s : State) (r : Nat), s.inSafe = false ∧ (s.half r).state = .quiet ∧ s.locReached (s.half r).quietEnd = true) ∧
    (∃ (s : State) (r : Nat), (s.inSafe = true ∨ (s.half r).state ≠ .quiet ∨ s.locReached (s.half r).quietEnd = false)) :=
  ⟨⟨ctl (ent 84 [(8,3,9),(12,2,0),(14,2,2)]) up, 0, 0, 9, 0, oe (ent 84 [(8,3,9),(12,2,0),(14,2,2)]), by unfold State.controls; decide +kernel⟩,
   ⟨ctl (ent 85 [(8,3,9)]) (ep9 up), 0, 0, 9, oe (ent 85 [(8,3,9)]), ⟨0,2⟩, by unfold State.controls; decide +kernel⟩,
   ⟨withCq 4 (ctl (ent 0x50 [(8,4,3),(12,3,9),(16,3,7),(19,1,0x11),(20,2,2),(32,4,0xFFFFFFFF),(36,4,6),(40,2,4),(42,2,0),(44,4,65536),(48,2,16384),(52,2,1)]) (ep9 up)), 0, 0, 3, 9, 7, 0x11, 4, oe (ent 0x50 [(8,4,3),(12,3,9),(16,3,7),(19,1,0x11),(20,2,2),(32,4,0xFFFFFFFF),(36,4,6),(40,2,4),(42,2,0),(44,4,65536),(48,2,16384),(52,2,1)]), ent 0x50 [(8,4,3),(12,3,9),(16,3,7),(19,1,0x11),(20,2,2),(32,4,0xFFFFFFFF),(36,4,6),(40,2,4),(42,2,0),(44,4,65536),(48,2,16384),(52,2,1)], ⟨0,2⟩, by unfold State.controls; decide +kernel⟩,
   ⟨ctl (ent 0x51 [(8,4,3)]) (up.setHalf 3 { Half.init with state := .established }), 0, 0, 3, oe (ent 0x51 [(8,4,3)]), by unfold State.controls; decide +kernel⟩,
   ⟨quiet3 up, 3, by decide +kernel⟩,
   ⟨up, 3, by decide +kernel⟩⟩
theorem witness_KeyCommands :
    (∃ (s : State) (pf : Nat) (idx : Nat) (ask : Nat) (key : Nat) (e : OutEntry), s.controls pf idx 0x53 e ∧ key = leAt e.bytes 8 4 ∧ ask =
      key % 2 ^ 20 ∧ askState (s.askMem ask) = 1 ∧ askGen (s.askMem ask) = key / 2 ^ 20 ∧ askDev (s.askMem ask) = false ∧ s.mayName pf
      (askFunc (s.askMem ask)) = true ∧ s.net.revoking = none) ∧
    (∃ (s : State) (path : Path) (v : Word), s.mayWrite path R.XLT_REVOKE_CTRL.base = true ∧ s.net.revoking = none ∧ bitW v 31 = true) ∧
    (∃ (s : State) (r : Revocation), s.inSafe = false ∧ s.net.revoking = some r ∧ r.by_ = none ∧ s.keyedRemains r.ask = false ∧
      s.askInvalidating r.ask = false ∧ s.net.revokeQueue = []) ∧
    (∃ (s : State) (r : Revocation) (pf : Nat) (n : Nat) (e : OutEntry), s.inSafe = false ∧ s.net.revoking = some r ∧ r.by_ = some (pf, n) ∧
      s.keyedRemains r.ask = false ∧ s.askInvalidating r.ask = false ∧ s.net.revokeQueue = [] ∧ s.cqRoom (ctrlCn pf) = true ∧ (s.queue
      (ctrlQn pf)).entry n = some e) ∧
    (∃ (s : State) (ask : Nat), s.inSafe = false ∧ ask < 2 ^ 20 ∧ askState (s.askMem ask) = 4 ∧ askQuietEnd (s.askMem ask) ≤ s.loc.toNat) :=
  ⟨⟨ctl (ent 83 [(8,4,0x500001)]) (askv 1 5 0 up), 0, 0, 1, 0x500001, oe (ent 83 [(8,4,0x500001)]), by unfold State.controls; decide +kernel⟩,
   ⟨code up, .near 5, 0x80000001, by decide +kernel⟩,
   ⟨rvk up, ⟨1,100,none⟩, by decide +kernel⟩,
   ⟨rvc, ⟨1,100,some (0,0)⟩, 0, 0, oe (ent 83 [(8,4,0x500001)]), by decide +kernel⟩,
   ⟨askv 4 5 0 up, 1, by decide +kernel⟩⟩
theorem witness_TranslationCommands_1 :
    (∃ (s : State) (c : Nat) (n : Nat) (m : XltReq), s.inSafe = false ∧ (s.cluster c).misses.findIdx? (fun m => ((s.cluster c).joins
      m).isSome || decide ((s.cluster c).walks.length < 16)) = some n ∧ (s.cluster c).misses[n]? = some m) ∧
    (∃ (s : State) (c : Nat) (n : Nat) (m : XltReq), s.inSafe = false ∧ (s.cluster c).misses.findIdx? (fun m => ((s.cluster c).joins
      m).isSome || decide ((s.cluster c).walks.length < 16)) = some n ∧ (s.cluster c).misses[n]? = some m) ∧
    (∃ (s : State) (c : Nat), (∀ m ∈ (s.cluster c).misses, (s.cluster c).joins m = none ∧ 16 ≤ (s.cluster c).walks.length)) ∧
    (∃ (s : State) (c : Nat), (∀ m ∈ (s.cluster c).misses, (s.cluster c).joins m = none ∧ 16 ≤ (s.cluster c).walks.length)) ∧
    (∃ (s : State) (s0 : State) (s1 : State) (c : Nat) (i : Nat) (w : Walk) (b : List Byte) (host : List (Nat × Nat)) (e : TlbEntry) (ps :
      List PwcEntry), s.inSafe = false ∧ (s.cluster c).walks[i]? = some w ∧ w.stale = false ∧ s.askOf c w.ask = (b, s0) ∧ (askState b = 1 ∨
      askState b = 3) ∧ (s0.setCluster c { s0.cluster c with walks := (s0.cluster c).walks.eraseIdx i }).walkAll c w.wins b w.ask w.va host
      = (.leaf e ps, s1)) ∧
    (∃ (s : State) (s0 : State) (s1 : State) (c : Nat) (i : Nat) (w : Walk) (b : List Byte) (host : List (Nat × Nat)) (e : TlbEntry) (ps :
      List PwcEntry), s.inSafe = false ∧ (s.cluster c).walks[i]? = some w ∧ w.stale = false ∧ s.askOf c w.ask = (b, s0) ∧ (askState b = 1 ∨
      askState b = 3) ∧ (s0.setCluster c { s0.cluster c with walks := (s0.cluster c).walks.eraseIdx i }).walkAll c w.wins b w.ask w.va host
      = (.leaf e ps, s1)) ∧
    (∃ (s : State) (s0 : State) (s1 : State) (c : Nat) (i : Nat) (cause : Nat) (level : Nat) (addr : Nat) (w : Walk) (b : List Byte) (host :
      List (Nat × Nat)), s.inSafe = false ∧ (s.cluster c).walks[i]? = some w ∧ w.stale = false ∧ s.askOf c w.ask = (b, s0) ∧ (askState b = 1
      ∨ askState b = 3) ∧ (s0.setCluster c { s0.cluster c with walks := (s0.cluster c).walks.eraseIdx i }).walkAll c w.wins b w.ask w.va
      host = (.fault cause level addr, s1) ∧ cause ≠ 7) ∧
    (∃ (s : State) (s0 : State) (s1 : State) (c : Nat) (i : Nat) (cause : Nat) (level : Nat) (addr : Nat) (w : Walk) (b : List Byte) (host :
      List (Nat × Nat)), s.inSafe = false ∧ (s.cluster c).walks[i]? = some w ∧ w.stale = false ∧ s.askOf c w.ask = (b, s0) ∧ (askState b = 1
      ∨ askState b = 3) ∧ (s0.setCluster c { s0.cluster c with walks := (s0.cluster c).walks.eraseIdx i }).walkAll c w.wins b w.ask w.va
      host = (.fault cause level addr, s1) ∧ cause ≠ 7) :=
  ⟨⟨(up.setCluster 0 { Cluster.init with misses := [⟨1, 0x7000, .data 0 3⟩] }), 0, 0, ⟨1, 0x7000, .data 0 3⟩, by decide +kernel⟩,
   ⟨(up.setCluster 0 { Cluster.init with misses := [⟨1, 0x9000, .data 0 3⟩, ⟨1, 0x7000, .data 0 3⟩], walks := ⟨1, 0x7000, [.op 4], false, 0, []⟩ :: List.replicate 15 ⟨2, 0x7000, [], false, 0, []⟩ }), 0, 1, ⟨1, 0x7000, .data 0 3⟩, by decide +kernel⟩,
   ⟨up, 0, by decide +kernel⟩,
   ⟨(up.setCluster 0 { Cluster.init with misses := [⟨1, 0x9000, .data 0 3⟩], walks := List.replicate 16 ⟨2, 0x7000, [], false, 0, []⟩ }), 0, by decide +kernel⟩,
   ⟨wkc [.data 0 3] [], ((wkc [.data 0 3] []).askOf 0 0).2, (wk1 (wkc [.data 0 3] []) [(0,0x1001),(0,0x2001),(0,0x90FF)]).2, 0, 0, ⟨0, 0x7000, [.data 0 3], false, 0, []⟩, wkA, [(0,0x1001),(0,0x2001),(0,0x90FF)], ⟨0,7,12,0x9000,false,0xFF,0⟩, [⟨0,1,0,0x2000,false,0⟩,⟨0,2,0,0x1000,false,0⟩], by decide +kernel⟩,
   ⟨wkc [.fetch 0 3] [], ((wkc [.fetch 0 3] []).askOf 0 0).2, (wk1 (wkc [.fetch 0 3] []) [(0,0x1001),(0,0x2001),(0,0x90FF)]).2, 0, 0, ⟨0, 0x7000, [.fetch 0 3], false, 0, []⟩, wkA, [(0,0x1001),(0,0x2001),(0,0x90FF)], ⟨0,7,12,0x9000,false,0xFF,0⟩, [⟨0,1,0,0x2000,false,0⟩,⟨0,2,0,0x1000,false,0⟩], by decide +kernel⟩,
   ⟨wkc [.data 0 3] [], ((wkc [.data 0 3] []).askOf 0 0).2, (wk1 (wkc [.data 0 3] []) [(0,0x1001),(0,0x2000),(0,0x90FF)]).2, 0, 0, 1, 2, 4096, ⟨0, 0x7000, [.data 0 3], false, 0, []⟩, wkA, [(0,0x1001),(0,0x2000),(0,0x90FF)], by decide +kernel⟩,
   ⟨(opS 5 { Op.free with status := none, delivered := false, kind := 1 } (wkc [.op 5] [])), ((opS 5 { Op.free with status := none, delivered := false, kind := 1 } (wkc [.op 5] [])).askOf 0 0).2, (wk1 (opS 5 { Op.free with status := none, delivered := false, kind := 1 } (wkc [.op 5] [])) [(0,0x1001),(0,0x2000),(0,0x90FF)]).2, 0, 0, 1, 2, 4096, ⟨0, 0x7000, [.op 5], false, 0, []⟩, wkA, [(0,0x1001),(0,0x2000),(0,0x90FF)], by decide +kernel⟩⟩
theorem witness_TranslationCommands_2 :
    (∃ (s : State) (s0 : State) (s1 : State) (c : Nat) (i : Nat) (level : Nat) (addr : Nat) (w : Walk) (b : List Byte) (host : List (Nat ×
      Nat)), s.inSafe = false ∧ (s.cluster c).walks[i]? = some w ∧ w.stale = false ∧ s.askOf c w.ask = (b, s0) ∧ (askState b = 1 ∨ askState
      b = 3) ∧ (s0.setCluster c { s0.cluster c with walks := (s0.cluster c).walks.eraseIdx i }).walkAll c w.wins b w.ask w.va host = (.fault
      7 level addr, s1)) ∧
    (∃ (s : State) (s0 : State) (c : Nat) (i : Nat) (w : Walk) (b : List Byte), s.inSafe = false ∧ (s.cluster c).walks[i]? = some w ∧
      w.stale = false ∧ s.askOf c w.ask = (b, s0) ∧ askState b ≠ 1 ∧ askState b ≠ 3) ∧
    (∃ (s : State) (c : Nat) (i : Nat) (w : Walk), s.inSafe = false ∧ (s.cluster c).walks[i]? = some w ∧ w.stale = true) ∧
    (∃ (s : State) (i : Nat) (c : Nat) (k : Nat) (t : Nat) (run : Nat) (v : Inval), s.inSafe = false ∧ s.net.invals[i]? = some v ∧ c ∈
      v.waiting ∧ (∀ d ∈ v.waiting, d = c) ∧ v.cmd = none ∧ v.op = some k ∧ (s.op k).status = none ∧ (s.op k).origin = .thread t run ∧
      (s.invalCluster v c).invalDrained v c = true) ∧
    (∃ (s : State) (i : Nat) (c : Nat) (pf : Nat) (n : Nat) (bytes : Nat) (v : Inval) (e : OutEntry), s.inSafe = false ∧ s.net.invals[i]? =
      some v ∧ c ∈ v.waiting ∧ (∀ d ∈ v.waiting, d = c) ∧ v.cmd = some (pf, n, bytes) ∧ v.op = none ∧ s.cqRoom (ctrlCn pf) = true ∧ (s.queue
      (ctrlQn pf)).entry n = some e ∧ (s.invalCluster v c).invalDrained v c = true) ∧
    (∃ (s : State) (i : Nat) (c : Nat) (v : Inval), (s.inSafe = false ∧ s.net.invals[i]? = some v ∧ c ∈ v.waiting ∧ ((s.invalCluster v
      c).invalDrained v c = false ∨ ∃ d ∈ v.waiting, d ≠ c)) ∧ (∀ pf n bytes, v.cmd = some (pf, n, bytes) → s.cqRoom (ctrlCn pf) = true)) ∧
    (∃ (s : State) (i : Nat) (c : Nat) (v : Inval), (s.inSafe = false ∧ s.net.invals[i]? = some v ∧ c ∈ v.waiting ∧ ((s.invalCluster v
      c).invalDrained v c = false ∨ ∃ d ∈ v.waiting, d ≠ c)) ∧ (∀ pf n bytes, v.cmd = some (pf, n, bytes) → s.cqRoom (ctrlCn pf) = true)) ∧
    (∃ (s : State) (pf : Nat) (idx : Nat) (key : Nat) (scope : Nat) (e : OutEntry) (v : Inval), s.controls pf idx 0x58 e ∧ key = leAt
      e.bytes 8 4 ∧ scope = leAt e.bytes 12 1 ∧ (scope = 1 ∨ scope = 2 ∧ leAt e.bytes 24 8 ≠ 0) ∧ askGen (s.askMem (keyAsk key)) = keyGen
      key ∧ askDev (s.askMem (keyAsk key)) = false ∧ s.mayName pf (askFunc (s.askMem (keyAsk key))) = true ∧ v =
      { scope := scope, ask := keyAsk key, va := leAt e.bytes 16 8, len := leAt e.bytes 24 8, waiting := List.range s.clusterCount, op := none, cmd := some (pf, e.serial, 0) }) :=
  ⟨⟨wkc [.data 0 3] [(0x2000,0x4000)], ((wkc [.data 0 3] [(0x2000,0x4000)]).askOf 0 0).2, (wk1 (wkc [.data 0 3] [(0x2000,0x4000)]) [(0,0x1001),(0,0x2001),(0,0x90FF)]).2, 0, 0, 1, 8192, ⟨0, 0x7000, [.data 0 3], false, 0, [(0x2000,0x4000)]⟩, wkA, [(0,0x1001),(0,0x2001),(0,0x90FF)], by decide +kernel⟩,
   ⟨wkX 2, ((wkX 2).askOf 0 0).2, 0, 0, ⟨0, 0x7000, [.data 0 3], false, 0, []⟩, askEntry 0x5000 1 0 0 31 3 2 0, by decide +kernel⟩,
   ⟨(let s := wkX 1; s.setCluster 0 { s.cluster 0 with walks := [⟨0, 0x7000, [.data 0 3], true, 0, []⟩] }), 0, 0, ⟨0, 0x7000, [.data 0 3], true, 0, []⟩, by decide +kernel⟩,
   ⟨iv, 0, 7, 5, 0, 0, ⟨1,1,0,0,[7],some 5,none⟩, by decide +kernel⟩,
   ⟨ivC [7], 0, 7, 0, 0, 0, ivV [7], oe ivE, by decide +kernel⟩,
   ⟨ivC [7,8], 0, 7, ivV [7,8], by decide +kernel, by rintro _ _ _ ⟨⟩; decide +kernel⟩,
   ⟨(ivC [7]).setThread (32*7) { lvl 0 with running := true, wait := .farLoad 1 0x7000 0x9000 true 8 false 5 }, 0, 7, ivV [7], by decide +kernel, by rintro _ _ _ ⟨⟩; decide +kernel⟩,
   ⟨ctl ivE (askv 1 5 0 up), 0, 0, 0x500001, 1, oe ivE, { scope := 1, ask := 1, va := 0, len := 0, waiting := List.range up.clusterCount, op := none, cmd := some (0, 0, 0) }, by unfold State.controls; decide +kernel⟩⟩
theorem witness_TranslationCommands_3 :
    (∃ (s : State) (pf : Nat) (idx : Nat) (key : Nat) (scope : Nat) (e : OutEntry) (v : Inval), s.controls pf idx 0x58 e ∧ key = leAt
      e.bytes 8 4 ∧ scope = leAt e.bytes 12 1 ∧ (scope = 1 ∨ scope = 2 ∧ leAt e.bytes 24 8 ≠ 0) ∧ askGen (s.askMem (keyAsk key)) = keyGen
      key ∧ askDev (s.askMem (keyAsk key)) = false ∧ s.mayName pf (askFunc (s.askMem (keyAsk key))) = true ∧ v =
      { scope := scope, ask := keyAsk key, va := leAt e.bytes 16 8, len := leAt e.bytes 24 8, waiting := List.range s.clusterCount, op := none, cmd := some (pf, e.serial, 0) }) ∧
    (∃ (s : State) (pf : Nat) (idx : Nat) (key : Nat) (op : Nat) (st : Nat) (e : OutEntry) (c : Instr), (c, op) ∈ [(Instr.xltInvalidate pf
      idx, 0x58), (.xltFaultDone pf idx, 0x5A)] ∧ s.controls pf idx op e ∧ key = leAt e.bytes 8 4 ∧ (op = 0x58 → leAt e.bytes 12 1 = 1 ∨
      leAt e.bytes 12 1 = 2 ∧ leAt e.bytes 24 8 ≠ 0) ∧ (askGen (s.askMem (keyAsk key)) ≠ keyGen key ∧ st = 0x30 ∨ askGen (s.askMem (keyAsk
      key)) = keyGen key ∧ st = 0x33 ∧ (askDev (s.askMem (keyAsk key)) = true ∨ s.mayName pf (askFunc (s.askMem (keyAsk key))) = false))) ∧
    (∃ (s : State) (pf : Nat) (idx : Nat) (key : Nat) (op : Nat) (st : Nat) (e : OutEntry) (c : Instr), (c, op) ∈ [(Instr.xltInvalidate pf
      idx, 0x58), (.xltFaultDone pf idx, 0x5A)] ∧ s.controls pf idx op e ∧ key = leAt e.bytes 8 4 ∧ (op = 0x58 → leAt e.bytes 12 1 = 1 ∨
      leAt e.bytes 12 1 = 2 ∧ leAt e.bytes 24 8 ≠ 0) ∧ (askGen (s.askMem (keyAsk key)) ≠ keyGen key ∧ st = 0x30 ∨ askGen (s.askMem (keyAsk
      key)) = keyGen key ∧ st = 0x33 ∧ (askDev (s.askMem (keyAsk key)) = true ∨ s.mayName pf (askFunc (s.askMem (keyAsk key))) = false))) ∧
    (∃ (s : State) (pf : Nat) (idx : Nat) (addr : Nat) (e : OutEntry), s.controls pf idx 0x59 e ∧ addr = leAt e.bytes 16 8 ∧ addr % 32 = 0 ∧
      (s.net.faultWaits.get [] pf).length < 64 ∧ (∀ p ∈ s.net.pendFaults, p.reported = true)) ∧
    (∃ (s : State) (pf : Nat) (idx : Nat) (addr : Nat) (e : OutEntry) (p : PendFault), s.controls pf idx 0x59 e ∧ addr = leAt e.bytes 16 8 ∧
      addr % 32 = 0 ∧ s.net.faultWaits.get [] pf = [] ∧ s.net.pendFaults = [p] ∧ p.reported = false ∧ s.pfOf (askFunc (s.askMem p.ask)) = pf
      ∧ s.canMaster pf = true ∧ s.linkAwake pf = true ∧ s.cqRoom (ctrlCn pf) = true) ∧
    (∃ (s : State) (pf : Nat) (idx : Nat) (addr : Nat) (st : Nat) (e : OutEntry), s.controls pf idx 0x59 e ∧ addr = leAt e.bytes 16 8 ∧
      (addr % 32 ≠ 0 ∧ st = 0x30 ∨ addr % 32 = 0 ∧ 64 ≤ (s.net.faultWaits.get [] pf).length ∧ st = 0x31)) ∧
    (∃ (s : State) (pf : Nat) (idx : Nat) (addr : Nat) (st : Nat) (e : OutEntry), s.controls pf idx 0x59 e ∧ addr = leAt e.bytes 16 8 ∧
      (addr % 32 ≠ 0 ∧ st = 0x30 ∨ addr % 32 = 0 ∧ 64 ≤ (s.net.faultWaits.get [] pf).length ∧ st = 0x31)) ∧
    (∃ (s : State) (pf : Nat) (idx : Nat) (key : Nat) (page : Nat) (e : OutEntry), s.controls pf idx 0x5A e ∧ key = leAt e.bytes 8 4 ∧ page
      = leAt e.bytes 16 8 / 4096 ∧ askGen (s.askMem (keyAsk key)) = keyGen key ∧ askDev (s.askMem (keyAsk key)) = false ∧ s.mayName pf
      (askFunc (s.askMem (keyAsk key))) = true) :=
  ⟨⟨ctl (ent 88 [(8,4,0x500001),(12,1,2),(16,8,0x7000),(24,8,1)]) (askv 1 5 0 up), 0, 0, 0x500001, 2, oe (ent 88 [(8,4,0x500001),(12,1,2),(16,8,0x7000),(24,8,1)]), { scope := 2, ask := 1, va := 0x7000, len := 1, waiting := List.range up.clusterCount, op := none, cmd := some (0, 0, 0) }, by unfold State.controls; decide +kernel⟩,
   ⟨ctl ivE (askv 1 6 0 up), 0, 0, 0x500001, 0x58, 0x30, oe ivE, .xltInvalidate 0 0, by unfold State.controls; decide +kernel⟩,
   ⟨ctl (ent 0x5A [(8,4,0x500001)]) (askv 1 5 3 up), 0, 0, 0x500001, 0x5A, 0x33, oe (ent 0x5A [(8,4,0x500001)]), .xltFaultDone 0 0, by unfold State.controls; decide +kernel⟩,
   ⟨ctl (ent 89 [(16,8,0x40)]) up, 0, 0, 0x40, oe (ent 89 [(16,8,0x40)]), by unfold State.controls; decide +kernel⟩,
   ⟨ctl (ent 89 [(16,8,0x40)]) (pfX up), 0, 0, 0x40, oe (ent 89 [(16,8,0x40)]), ⟨1, 7, zeroBytes 32, false⟩, by unfold State.controls; decide +kernel⟩,
   ⟨ctl (ent 89 [(16,8,0x41)]) up, 0, 0, 0x41, 0x30, oe (ent 89 [(16,8,0x41)]), by unfold State.controls; decide +kernel⟩,
   ⟨(let s := ctl (ent 89 [(16,8,0x40)]) up; { s with net := { s.net with faultWaits := [(0, List.replicate 64 (7,7))] } }), 0, 0, 0x40, 0x31, oe (ent 89 [(16,8,0x40)]), by unfold State.controls; decide +kernel⟩,
   ⟨ctl (ent 0x5A [(8,4,0x500001),(16,8,0x7010)]) (pf1 up), 0, 0, 0x500001, 7, oe (ent 0x5A [(8,4,0x500001),(16,8,0x7010)]), by unfold State.controls; decide +kernel⟩⟩
theorem witness_TranslationCommands_4 :
    (∃ (s : State) (pf : Nat) (idx : Nat) (w : Nat) (lo : Nat) (hi : Nat) (e : OutEntry), s.controls pf idx 0x5B e ∧ pf < 16 ∧ w = leAt
      e.bytes 8 1 ∧ w ≤ 7 ∧ lo = leAt e.bytes 16 8 ∧ hi = leAt e.bytes 24 8 ∧ lo % 4096 = 0 ∧ hi % 4096 = 4095 ∧ lo < 2 ^ 52 ∧ hi < 2 ^ 52 ∧
      0 < (s.cq (s.queue (ctrlQn pf)).cn).k) ∧
    (∃ (s : State) (pf : Nat) (idx : Nat) (lo : Nat) (hi : Nat) (e : OutEntry), s.controls pf idx 0x5B e ∧ lo = leAt e.bytes 16 8 ∧ hi =
      leAt e.bytes 24 8 ∧ (7 < leAt e.bytes 8 1 ∨ lo % 4096 ≠ 0 ∨ hi % 4096 ≠ 4095 ∨ 2 ^ 52 ≤ lo ∨ 2 ^ 52 ≤ hi)) :=
  ⟨⟨ctl (ent 91 [(8,1,7),(16,8,0x1000),(24,8,0x1FFF)]) up, 0, 0, 7, 0x1000, 0x1FFF, oe (ent 91 [(8,1,7),(16,8,0x1000),(24,8,0x1FFF)]), by unfold State.controls; decide +kernel⟩,
   ⟨ctl (ent 91 [(8,1,8),(16,8,0x1000),(24,8,0x1FFF)]) up, 0, 0, 0x1000, 0x1FFF, oe (ent 91 [(8,1,8),(16,8,0x1000),(24,8,0x1FFF)]), by unfold State.controls; decide +kernel⟩⟩
theorem witness_WorkFifosAndDoorbells_1 :
    (∃ (s : State) (c : Nat) (f : Nat) (x : Fifo), x = s.fifo (4 * c + f) ∧ x.words x.drain = 0 ∧ (x.bank x.fill).items ≠ [] ∧ s.inSafe =
      false) ∧
    (∃ (s : State) (c : Nat) (f : Nat) (x : Fifo), x = s.fifo (4 * c + f) ∧ (x.words x.drain ≠ 0 ∨ (x.bank x.fill).items = [])) ∧
    (∃ (s : State) (c : Nat) (f : Nat) (i : Nat) (b : Nat) (x : Fifo) (w : Writing), x = (s.wfTakeAll (4 * c + f)).fifo (4 * c + f) ∧
      s.inSafe = false ∧ x.nextWriter = some i ∧ x.writing[i]? = some w ∧ w.bank = some b) ∧
    (∃ (s : State) (c : Nat) (f : Nat) (i : Nat) (b : Nat) (x : Fifo) (w : Writing), x = (s.wfTakeAll (4 * c + f)).fifo (4 * c + f) ∧
      s.inSafe = false ∧ x.nextWriter = some i ∧ x.writing[i]? = some w ∧ w.bank = some b) ∧
    (∃ (s : State) (c : Nat) (f : Nat) (i : Nat) (b : Nat) (x : Fifo) (w : Writing), x = (s.wfTakeAll (4 * c + f)).fifo (4 * c + f) ∧
      s.inSafe = false ∧ x.nextWriter = some i ∧ x.writing[i]? = some w ∧ w.bank = some b) ∧
    (∃ (s : State) (c : Nat) (f : Nat) (i : Nat) (b : Nat) (x : Fifo) (w : Writing), (x = (s.wfTakeAll (4 * c + f)).fifo (4 * c + f) ∧
      s.inSafe = false ∧ x.nextWriter = some i ∧ x.writing[i]? = some w ∧ w.bank = some b) ∧ (∀ qn n, w.for_ ≠ .entry qn n)) ∧
    (∃ (s : State) (c : Nat) (f : Nat) (i : Nat) (b : Nat) (qn : Nat) (n : Nat) (x : Fifo) (w : Writing) (r : EntryRead) (rs : List
      EntryRead), x = (s.wfTakeAll (4 * c + f)).fifo (4 * c + f) ∧ s.inSafe = false ∧ x.nextWriter = some i ∧ x.writing[i]? = some w ∧
      w.bank = some b ∧ w.for_ = .entry qn n ∧ (s.queue qn).reading = r :: rs ∧ r.failed = 0) ∧
    (∃ (s : State) (p : Path) (c : Nat) (f : Nat), s.mayWrite p (R.WF_CFG.addr [c, f]) = true ∧ c < s.clusterCount ∧ f < 4 ∧ s.inSafe =
      false) :=
  ⟨⟨(up.setFifo 13 { Fifo.init with bank0 := ⟨[wItem], []⟩ }), 3, 1, { Fifo.init with bank0 := ⟨[wItem], []⟩ }, by decide +kernel⟩,
   ⟨up, 3, 1, Fifo.init, by decide +kernel⟩,
   ⟨wfS, 3, 1, 0, 0, wfS.fifo 13, ⟨some 0, false, wItem, .plain⟩, by decide +kernel⟩,
   ⟨wfE, 3, 1, 0, 0, wfE.fifo 13, ⟨some 0, false, wItem, .entry 9 2⟩, by decide +kernel⟩,
   ⟨(opS 5 {Op.free with kind := 2, gen := 1, status := some 3, delivered := false, stage := 3, order := 8} up).setFifo 13 { Fifo.init with writing := [⟨some 0, true, wItem, .opDone 5 8⟩] }, 3, 1, 0, 0, { Fifo.init with writing := [⟨some 0, true, wItem, .opDone 5 8⟩] }, ⟨some 0, true, wItem, .opDone 5 8⟩, by decide +kernel⟩,
   ⟨wfS, 3, 1, 0, 0, wfS.fifo 13, ⟨some 0, false, wItem, .plain⟩, by decide +kernel, nofun⟩,
   ⟨wfE, 3, 1, 0, 0, 9, 2, wfE.fifo 13, ⟨some 0, false, wItem, .entry 9 2⟩, ⟨2, 1, 0, 0, 0, false, false, some (ent 7 [])⟩, [], by decide +kernel⟩,
   ⟨code up, .near 5, 3, 1, by decide +kernel⟩⟩
theorem witness_WorkFifosAndDoorbells_2 :
    (∃ (s : State) (f : Nat) (off : Nat) (size : Nat) (qn : Nat) (v : Word) (q : Queue), s.dev.power = 0 ∧ s.inSafe = false ∧ inDoorbells f
      off = true ∧ (size = 4 ∨ size = 8) ∧ off % 8 = 0 ∧ v.toNat < 65536 ∧ s.slotQueue f off = some qn ∧ q = s.queue qn ∧ q.state = .ready ∧
      v.toNat < q.size ∧ (q.tail + q.size - q.fetch) % q.size < (v.toNat + q.size - q.fetch) % q.size) ∧
    (∃ (s : State) (f : Nat) (off : Nat) (size : Nat) (v : Word), s.dev.power = 0 ∧ s.inSafe = false ∧ inDoorbells f off = true ∧ (¬((size =
      4 ∨ size = 8) ∧ off % 8 = 0) ∨ 65536 ≤ v.toNat ∨ s.slotQueue f off = none ∨ ∃ qn, s.slotQueue f off = some qn ∧ (s.queue qn).state ≠
      .ready)) ∧
    (∃ (s : State) (f : Nat) (off : Nat) (size : Nat) (v : Word), s.dev.power = 0 ∧ s.inSafe = false ∧ inDoorbells f off = true ∧ (¬((size =
      4 ∨ size = 8) ∧ off % 8 = 0) ∨ 65536 ≤ v.toNat ∨ s.slotQueue f off = none ∨ ∃ qn, s.slotQueue f off = some qn ∧ (s.queue qn).state ≠
      .ready)) ∧
    (∃ (s : State) (f : Nat) (off : Nat) (size : Nat) (v : Word), s.dev.power = 0 ∧ s.inSafe = false ∧ inDoorbells f off = true ∧ (¬((size =
      4 ∨ size = 8) ∧ off % 8 = 0) ∨ 65536 ≤ v.toNat ∨ s.slotQueue f off = none ∨ ∃ qn, s.slotQueue f off = some qn ∧ (s.queue qn).state ≠
      .ready)) ∧
    (∃ (s : State) (f : Nat) (off : Nat) (size : Nat) (v : Word), s.dev.power = 0 ∧ s.inSafe = false ∧ inDoorbells f off = true ∧ (¬((size =
      4 ∨ size = 8) ∧ off % 8 = 0) ∨ 65536 ≤ v.toNat ∨ s.slotQueue f off = none ∨ ∃ qn, s.slotQueue f off = some qn ∧ (s.queue qn).state ≠
      .ready)) ∧
    (∃ (s : State) (f : Nat) (off : Nat) (size : Nat) (qn : Nat) (v : Word), s.dev.power = 0 ∧ s.inSafe = false ∧ inDoorbells f off = true ∧
      ((size = 4 ∨ size = 8) ∧ off % 8 = 0) ∧ v.toNat < 65536 ∧ s.slotQueue f off = some qn ∧ (s.queue qn).state = .ready ∧ (s.queue
      qn).size ≤ v.toNat) ∧
    (∃ (s : State) (f : Nat) (off : Nat) (size : Nat) (qn : Nat) (v : Word) (q : Queue), s.dev.power = 0 ∧ s.inSafe = false ∧ inDoorbells f
      off = true ∧ ((size = 4 ∨ size = 8) ∧ off % 8 = 0) ∧ v.toNat < 65536 ∧ s.slotQueue f off = some qn ∧ q = s.queue qn ∧ q.state = .ready
      ∧ v.toNat < q.size ∧ (v.toNat + q.size - q.fetch) % q.size ≤ (q.tail + q.size - q.fetch) % q.size) ∧
    (∃ (s : State) (f : Nat) (off : Nat) (size : Nat) (qn : Nat) (v : Word) (q : Queue), s.dev.power = 0 ∧ s.inSafe = false ∧ inDoorbells f
      off = true ∧ ((size = 4 ∨ size = 8) ∧ off % 8 = 0) ∧ v.toNat < 65536 ∧ s.slotQueue f off = some qn ∧ q = s.queue qn ∧ q.state = .ready
      ∧ v.toNat < q.size ∧ (v.toNat + q.size - q.fetch) % q.size ≤ (q.tail + q.size - q.fetch) % q.size) :=
  ⟨⟨dbS, 0, 0x2000048, 8, 9, 255, dbS.queue 9, by decide +kernel⟩,
   ⟨dbS, 0, 0x2000048, 8, 65536, by decide +kernel⟩,
   ⟨dbS, 0, 0x2000050, 8, 1, by decide +kernel⟩,
   ⟨(dbS.setQueue 9 { dbS.queue 9 with state := .draining }), 0, 0x2000048, 8, 1, by decide +kernel⟩,
   ⟨dbS, 0, 0x2000048, 2, 1, by decide +kernel⟩,
   ⟨dbS, 0, 0x2000048, 8, 9, 256, by decide +kernel⟩,
   ⟨dbS, 0, 0x2000048, 8, 9, 3, dbS.queue 9, by decide +kernel⟩,
   ⟨dbS, 0, 0x2000048, 8, 9, 2, dbS.queue 9, by decide +kernel⟩⟩
theorem witness_RingService :
    (∃ (s : State) (s0 : State) (k : Nat) (f : Nat) (g : Nat) (qn : Nat) (fs : List Nat) (gs : List Nat) (qs : List Nat) (q : Queue), s0 =
      s.ringFlush.arbSync ∧ s.adapterHalted = false ∧ s0.rings.linkList.get [] k = f :: fs ∧ (s0.rings.nodeF.get ArbNode.init f).newTurn =
      false ∧ 0 < (s0.rings.nodeF.get ArbNode.init f).deficit ∧ s0.rings.funcList.get [] f = g :: gs ∧ (s0.rings.nodeG.get ArbNode.init
      g).newTurn = false ∧ 0 < (s0.rings.nodeG.get ArbNode.init g).deficit ∧ s0.rings.groupList.get [] g = qn :: qs ∧ (s0.rings.nodeQ.get
      ArbNode.init qn).newTurn = false ∧ 0 < (s0.rings.nodeQ.get ArbNode.init qn).deficit ∧ s0.linkAwake f = true ∧ q = s0.queue qn ∧
      q.newArb = none ∧ q.reading = [] ∧ q.left = 1 ∧ 1 ≤ q.burst ∧ s0.wfRoom (s0.queueFifo qn q).1 false 2 = true) ∧
    (∃ (s : State) (qn : Nat) (data : List Byte) (q : Queue) (r : EntryRead) (rs : List EntryRead), q = s.queue qn ∧ q.reading = r :: rs ∧
      s.adapterHalted = false ∧ r.data = none ∧ r.waits = false ∧ data.length = 64 ∧ weOwn data = true ∧ malformed (q.kind qn) data = none) ∧
    (∃ (s : State) (qn : Nat) (data : List Byte) (q : Queue) (r : EntryRead) (rs : List EntryRead), q = s.queue qn ∧ q.reading = r :: rs ∧
      s.adapterHalted = false ∧ r.data = none ∧ r.waits = false ∧ data.length = 64 ∧ weOwn data = false) ∧
    (∃ (s : State) (qn : Nat) (q : Queue) (r : EntryRead) (rs : List EntryRead), q = s.queue qn ∧ q.reading = r :: rs ∧ s.adapterHalted =
      false ∧ r.data = none ∧ r.waits = false ∧ r.failed = 0 ∧ s.wfRoom r.fifo false 2 = true ∧ s.canMaster q.func = true) ∧
    (∃ (s : State) (qn : Nat) (q : Queue) (r : EntryRead) (rs : List EntryRead), q = s.queue qn ∧ q.reading = r :: rs ∧ s.adapterHalted =
      false ∧ r.data = none ∧ r.waits = true ∧ s.wfRoom r.fifo false 2 = true ∧ s.canMaster q.func = true) ∧
    (∃ (s : State) (qn : Nat) (q : Queue) (r : EntryRead) (rs : List EntryRead), q = s.queue qn ∧ q.reading = r :: rs ∧ s.adapterHalted =
      false ∧ q.state = .ready ∧ r.data = none ∧ r.waits = false ∧ r.failed ≠ 0) :=
  ⟨⟨svS, svS.ringFlush.arbSync, 0, 0, 0, 9, [], [], [], svS.ringFlush.arbSync.queue 9, by decide +kernel⟩,
   ⟨rdS 0, 9, ent 7 [(4,4,0xAB)], (rdS 0).queue 9, ⟨2, 1, 0, 0, 0, false, false, none⟩, [], by decide +kernel⟩,
   ⟨rdS 0, 9, zeroBytes 64, (rdS 0).queue 9, ⟨2, 1, 0, 0, 0, false, false, none⟩, [], by decide +kernel⟩,
   ⟨rdS 0, 9, (rdS 0).queue 9, ⟨2, 1, 0, 0, 0, false, false, none⟩, [], by decide +kernel⟩,
   ⟨(rdS 0).setQueue 9 { (rdS 0).queue 9 with reading := [⟨2, 1, 0, 0, 0, false, true, none⟩] }, 9, ((rdS 0).setQueue 9 { (rdS 0).queue 9 with reading := [⟨2, 1, 0, 0, 0, false, true, none⟩] }).queue 9, ⟨2, 1, 0, 0, 0, false, true, none⟩, [], by decide +kernel⟩,
   ⟨rdS 1, 9, (rdS 1).queue 9, ⟨2, 1, 0, 0, 1, false, false, none⟩, [], by decide +kernel⟩⟩
theorem witness_CompletionRings_1 :
    (∃ (s : State) (cn : Nat) (x : Cq) (c : Completion) (ds : List Completion), x = s.cq cn ∧ s.dev.entering = none ∧ x.state ≠ .unused ∧ 0
      < x.k ∧ s.cqMay x = true ∧ s.linkAwake x.func = true ∧ (x.direct = c :: ds ∨ x.direct = [] ∧ x.held = c :: ds)) ∧
    (∃ (s : State) (cn : Nat) (x : Cq) (c : Completion) (ds : List Completion), x = s.cq cn ∧ s.dev.entering = none ∧ x.state ≠ .unused ∧ 0
      < x.k ∧ s.cqMay x = true ∧ s.linkAwake x.func = true ∧ (x.direct = c :: ds ∨ x.direct = [] ∧ x.held = c :: ds)) ∧
    (∃ (s : State) (cn : Nat) (x : Cq) (c : Instr), (x = s.cq cn ∧ x.state ≠ .unused ∧ x.k < 16 ∧ x.reading = false ∧ s.cqMay x = true ∧
      s.linkAwake x.func = true) ∧ (c = .cqOwnRead cn ∧ x.pollAt = none ∨ ∃ t, c = .cqPoll cn ∧ x.pollAt = some t ∧ s.locReached t = true)) ∧
    (∃ (s : State) (cn : Nat) (x : Cq) (c : Instr), (x = s.cq cn ∧ x.state ≠ .unused ∧ x.k < 16 ∧ x.reading = false ∧ s.cqMay x = true ∧
      s.linkAwake x.func = true) ∧ (c = .cqOwnRead cn ∧ x.pollAt = none ∨ ∃ t, c = .cqPoll cn ∧ x.pollAt = some t ∧ s.locReached t = true)) ∧
    (∃ (s : State) (cn : Nat) (n : Nat) (x : Cq), x = s.cq cn ∧ x.state ≠ .unused ∧ x.reading = true ∧ s.adapterHalted = false ∧ 0 < n ∧ n ≤
      16 - (x.w + x.k) % 2 ^ x.log2 % 16 ∧ x.k + n ≤ 2 ^ x.log2) ∧
    (∃ (s : State) (cn : Nat) (x : Cq), x = s.cq cn ∧ x.state = .ready ∧ x.reading = true ∧ s.adapterHalted = false ∧ x.k = 0 ∧ x.held ≠ []
      ∧ s.canMaster x.func = true) ∧
    (∃ (s : State) (cn : Nat) (x : Cq), x = s.cq cn ∧ s.inSafe = false ∧ cn < 65536 ∧ x.state = .full ∧ (s.rd R.RING_STALL_TIMEOUT).toNat *
      1000 * ticksPerUs ≤ s.locSince x.stallFrom) ∧
    (∃ (s : State) (cn : Nat) (x : Cq) (t : Word), x = s.cq cn ∧ s.inSafe = false ∧ x.state ≠ .unused ∧ x.irqEn = true ∧ x.modTime ≠ 0 ∧
      x.timer = some t ∧ x.modTime * ticksPerUs ≤ s.locSince t) :=
  ⟨⟨cqx (fun x => { x with direct := [cplE], k := 1 }) dbS, 4, (cqx (fun x => { x with direct := [cplE], k := 1 }) dbS).cq 4, cplE, [], by decide +kernel⟩,
   ⟨cqx (fun x => { x with held := [cplE], k := 1 }) dbS, 4, (cqx (fun x => { x with held := [cplE], k := 1 }) dbS).cq 4, cplE, [], by decide +kernel⟩,
   ⟨cqx (fun x => { x with k := 15 }) dbS, 4, (cqx (fun x => { x with k := 15 }) dbS).cq 4, .cqOwnRead 4, by decide +kernel, .inl ⟨rfl, by decide +kernel⟩⟩,
   ⟨at_ 900 (cqx (fun x => { x with k := 0, pollAt := some 900 }) dbS), 4, (cqx (fun x => { x with k := 0, pollAt := some 900 }) dbS).cq 4, .cqPoll 4, by decide +kernel, .inr ⟨900, rfl, by decide +kernel⟩⟩,
   ⟨cqx (fun x => { x with k := 15, reading := true }) dbS, 4, 1, (cqx (fun x => { x with k := 15, reading := true }) dbS).cq 4, by decide +kernel⟩,
   ⟨cqx (fun x => { x with k := 0, reading := true, held := [cplE] }) dbS, 4, (cqx (fun x => { x with k := 0, reading := true, held := [cplE] }) dbS).cq 4, by decide +kernel⟩,
   ⟨at_ 4000000000000000 (cqx (fun x => { x with state := .full }) dbS), 4, (cqx (fun x => { x with state := .full }) dbS).cq 4, by decide +kernel⟩,
   ⟨at_ 4000 (cqx (fun x => { x with irqEn := true, modTime := 1, timer := some 0, vector := 7 }) dbS), 4, (cqx (fun x => { x with irqEn := true, modTime := 1, timer := some 0, vector := 7 }) dbS).cq 4, 0, by decide +kernel⟩⟩
theorem witness_CompletionRings_2 :
    (∃ (s : State) (f : Nat) (v : Nat) (addr : Nat) (data : Nat), NSet.mem (s.func f).held v = true ∧ (s.func f).msixEn = true ∧ (s.func
      f).fmask = false ∧ (s.func f).msix.get msixInit v = (addr, data, false) ∧ s.canMaster f = true ∧ s.adapterHalted = false ∧ s.linkAwake
      f = true ∧ s.dev.entering = none) :=
  ⟨(dbS.setFunc 0 { dbS.func 0 with msixEn := true, held := NSet.add [] 7, msix := [(7, (0x1000, 5, false))] }), 0, 7, 0x1000, 5, by decide +kernel⟩
theorem witness_RingCommands :
    (∃ (s : State) (pf : Nat) (idx : Nat) (cn : Nat) (f : Nat) (e : OutEntry) (b : List Byte), s.controls pf idx 0x40 e ∧ (s.queue (ctrlQn
      pf)).cn = ctrlCn pf ∧ b = e.bytes ∧ cn = leAt b 8 2 ∧ f = leAt b 12 2 ∧ 6 ≤ leAt b 10 1 ∧ leAt b 10 1 ≤ 16 ∧ leAt b 16 8 % 4096 = 0 ∧
      leAt b 24 2 < vectorsOf f ∧ leAt b 26 2 ≠ 0 ∧ leAt b 28 4 ≤ 1000000 ∧ s.mayName pf f = true ∧ (s.cq cn).state = .unused) ∧
    (∃ (s : State) (pf : Nat) (idx : Nat) (cn : Nat) (e : OutEntry) (b : List Byte), s.controls pf idx 0x41 e ∧ (s.queue (ctrlQn pf)).cn =
      ctrlCn pf ∧ b = e.bytes ∧ cn = leAt b 8 2 ∧ leAt b 24 2 < vectorsOf (leAt b 12 2) ∧ leAt b 26 2 ≠ 0 ∧ leAt b 28 4 ≤ 1000000 ∧ (s.cq
      cn).state ≠ .unused ∧ (s.cq cn).func = leAt b 12 2 ∧ s.mayName pf (leAt b 12 2) = true) ∧
    (∃ (s : State) (pf : Nat) (idx : Nat) (cn : Nat) (e : OutEntry), s.controls pf idx 0x42 e ∧ (s.queue (ctrlQn pf)).cn = ctrlCn pf ∧ cn =
      leAt e.bytes 8 2 ∧ ((s.cq cn).state = .ready ∨ (s.cq cn).state = .failed) ∧ s.mayName pf (s.cq cn).func = true ∧ (∀ q ∈
      s.rings.queues, q.2.state = .unused ∨ q.2.cn ≠ cn) ∧ (s.cq cn).held = [] ∧ (s.cq cn).direct = []) ∧
    (∃ (s : State) (pf : Nat) (idx : Nat) (cn : Nat) (e : OutEntry), s.controls pf idx 0x43 e ∧ (s.queue (ctrlQn pf)).cn = ctrlCn pf ∧ cn =
      leAt e.bytes 8 2 ∧ (s.cq cn).state = .failed ∧ s.mayName pf (s.cq cn).func = true ∧ (s.cq cn).held = []) ∧
    (∃ (s : State) (pf : Nat), s.fb F.HIF_CRING_CFG_ENABLE [pf] = true ∧ s.inSafe = false ∧ (s.queue (ctrlQn pf)).reading = []) ∧
    (∃ (s : State) (pf : Nat), s.fb F.HIF_CCQ_CFG_ENABLE [pf] = true ∧ s.inSafe = false) :=
  ⟨⟨ctl (ent 64 [(8,2,0xFFFF),(12,2,0),(10,1,16),(16,8,0x1000),(24,2,2047),(26,2,1),(28,4,1000000),(32,1,1)]) up, 0, 0, 0xFFFF, 0, oe (ent 64 [(8,2,0xFFFF),(12,2,0),(10,1,16),(16,8,0x1000),(24,2,2047),(26,2,1),(28,4,1000000),(32,1,1)]), ent 0x40 [(8,2,0xFFFF),(12,2,0),(10,1,16),(16,8,0x1000),(24,2,2047),(26,2,1),(28,4,1000000),(32,1,1)], by unfold State.controls; decide +kernel⟩,
   ⟨cqx (fun x => { x with pend := 3 }) (withCq 4 (ctl (ent 65 [(8,2,4),(12,2,0),(24,2,2047),(26,2,1),(28,4,1000000),(32,1,1)]) up)), 0, 0, 4, oe (ent 65 [(8,2,4),(12,2,0),(24,2,2047),(26,2,1),(28,4,1000000),(32,1,1)]), ent 0x41 [(8,2,4),(12,2,0),(24,2,2047),(26,2,1),(28,4,1000000),(32,1,1)], by unfold State.controls; decide +kernel⟩,
   ⟨withCq 4 (ctl (ent 66 [(8,2,4)]) up), 0, 0, 4, oe (ent 66 [(8,2,4)]), by unfold State.controls; decide +kernel⟩,
   ⟨cqx (fun x => { x with state := .failed, w := 5, k := 2 }) (withCq 4 (ctl (ent 67 [(8,2,4)]) up)), 0, 0, 4, oe (ent 67 [(8,2,4)]), by unfold State.controls; decide +kernel⟩,
   ⟨(ctl (ent 7 []) up).fset F.HIF_CRING_CFG_ENABLE [0] true, 0, by decide +kernel⟩,
   ⟨(withCq (ctrlCn 0) up).fset F.HIF_CCQ_CFG_ENABLE [0] true, 0, by decide +kernel⟩⟩
theorem witness_QueueCommands :
    (∃ (s : State) (pf : Nat) (idx : Nat) (qn : Nat) (f : Nat) (cn : Nat) (cf : Nat) (arb : Nat) (slot : Nat) (conn : Option Nat) (e :
      OutEntry) (b : List Byte), s.controls pf idx 0x44 e ∧ b = e.bytes ∧ qn = leAt b 8 4 ∧ qn < 262144 ∧ leAt b 12 1 ≤ 1 ∧ 6 ≤ leAt b 13 1
      ∧ leAt b 13 1 ≤ 16 ∧ leAt b 16 8 % 4096 = 0 ∧ cf = leAt b 32 4 ∧ arb = leAt b 36 4 ∧ arb % 256 ≠ 0 ∧ f = leAt b 24 2 ∧ (f < 16 → leAt
      b 26 2 = 0) ∧ cn = leAt b 14 2 ∧ (s.cq cn).state ≠ .unused ∧ (s.cq cn).func = f ∧ s.mayName pf f = true ∧ (s.queue qn).state = .unused
      ∧ (∀ q ∈ s.rings.queues, q.2.state = .unused ∨ q.2.func ≠ f ∨ q.2.vfDb ≠ leAt b 26 2 ∨ f < 16) ∧ (if nbit cf 31 = true then conn =
      none ∧ s.clusterLives (cf % 2 ^ 20 / 16384) = true else conn = some (cf % 2 ^ 20) ∧ (s.half (cf % 2 ^ 20)).state = .established ∧
      s.mayName pf (s.half (cf % 2 ^ 20)).func = true) ∧ s.newSlot (cf % 2 ^ 20 / 16384) (leAt b 12 1 == 1) conn = some slot) ∧
    (∃ (s : State) (pf : Nat) (idx : Nat) (qn : Nat) (f : Nat) (cn : Nat) (cf : Nat) (arb : Nat) (slot : Nat) (conn : Option Nat) (e :
      OutEntry) (b : List Byte), s.controls pf idx 0x44 e ∧ b = e.bytes ∧ qn = leAt b 8 4 ∧ qn < 262144 ∧ leAt b 12 1 ≤ 1 ∧ 6 ≤ leAt b 13 1
      ∧ leAt b 13 1 ≤ 16 ∧ leAt b 16 8 % 4096 = 0 ∧ cf = leAt b 32 4 ∧ arb = leAt b 36 4 ∧ arb % 256 ≠ 0 ∧ f = leAt b 24 2 ∧ (f < 16 → leAt
      b 26 2 = 0) ∧ cn = leAt b 14 2 ∧ (s.cq cn).state ≠ .unused ∧ (s.cq cn).func = f ∧ s.mayName pf f = true ∧ (s.queue qn).state = .unused
      ∧ (∀ q ∈ s.rings.queues, q.2.state = .unused ∨ q.2.func ≠ f ∨ q.2.vfDb ≠ leAt b 26 2 ∨ f < 16) ∧ (if nbit cf 31 = true then conn =
      none ∧ s.clusterLives (cf % 2 ^ 20 / 16384) = true else conn = some (cf % 2 ^ 20) ∧ (s.half (cf % 2 ^ 20)).state = .established ∧
      s.mayName pf (s.half (cf % 2 ^ 20)).func = true) ∧ s.newSlot (cf % 2 ^ 20 / 16384) (leAt b 12 1 == 1) conn = some slot) ∧
    (∃ (s : State) (pf : Nat) (idx : Nat) (qn : Nat) (arb : Nat) (e : OutEntry) (b : List Byte), s.controls pf idx 0x45 e ∧ b = e.bytes ∧ qn
      = leAt b 8 4 ∧ qn < 262144 ∧ arb = leAt b 36 4 ∧ arb % 256 ≠ 0 ∧ (s.queue qn).state ≠ .unused ∧ s.mayName pf (s.queue qn).func = true) ∧
    (∃ (s : State) (pf : Nat) (idx : Nat) (qn : Nat) (e : OutEntry), s.controls pf idx 0x46 e ∧ qn = leAt e.bytes 8 4 ∧ qn < 262144 ∧
      (s.queue qn).state = .ready ∧ (s.queue qn).shutdownBy = none ∧ s.mayName pf (s.queue qn).func = true) ∧
    (∃ (s : State) (qn : Nat) (pf : Nat) (serial : Nat) (e : OutEntry), (qn < 262144 ∧ (s.queue qn).shutdownBy = some (pf, serial) ∧
      (s.queue qn).outstanding = [] ∧ s.cqRoom (ctrlCn pf) = true ∧ s.adapterHalted = false ∧ (s.queue (ctrlQn pf)).entry serial = some e) ∧
      (∀ o ∈ s.ops, o.2.isOpen = true → ∀ r a n, o.2.origin ≠ .work qn n ∧ o.2.origin ≠ .rendezvous r a qn n)) ∧
    (∃ (s : State) (pf : Nat) (idx : Nat) (qn : Nat) (e : OutEntry), s.controls pf idx 0x47 e ∧ qn = leAt e.bytes 8 4 ∧ qn < 262144 ∧
      (s.queue qn).state = .shutdown ∧ s.mayName pf (s.queue qn).func = true ∧ s.holdsFor qn = false) ∧
    (∃ (s : State) (pf : Nat) (idx : Nat) (qn : Nat) (i : Nat) (e : OutEntry) (x : OutEntry), s.controls pf idx 0x48 e ∧ qn = leAt e.bytes 8
      4 ∧ qn < 262144 ∧ i = leAt e.bytes 12 2 ∧ i < (s.queue qn).size ∧ (s.queue qn).state = .ready ∧ s.mayName pf (s.queue qn).func = true
      ∧ (s.queue qn).outstanding.find? (fun x => x.idx == i) = some x ∧ s.recvMatched qn x = false ∧ s.cqRoom (s.queue qn).cn = true) ∧
    (∃ (s : State) (pf : Nat) (v : BitVec 32), s.attExists pf = true ∧ v.toNat / 2 ^ 16 = 0xAD5E ∧ v.toNat % 2 = 1 ∧ s.tgf.halted = true ∧
      s.inSafe = false) :=
  ⟨⟨withCq 4 (ctl (ent 68 [(8,4,262143),(13,1,16),(14,2,4),(16,8,0x1000),(24,2,0),(28,1,1),(29,1,0x73),(32,4,0x80008000),(36,4,0x7FFF01)]) up), 0, 0, 262143, 0, 4, 0x80008000, 0x7FFF01, 16384, none, oe (ent 68 [(8,4,262143),(13,1,16),(14,2,4),(16,8,0x1000),(24,2,0),(28,1,1),(29,1,0x73),(32,4,0x80008000),(36,4,0x7FFF01)]), ent 0x44 [(8,4,262143),(13,1,16),(14,2,4),(16,8,0x1000),(24,2,0),(28,1,1),(29,1,0x73),(32,4,0x80008000),(36,4,0x7FFF01)], by unfold State.controls; decide +kernel⟩,
   ⟨withCq 4 (ctl (ent 68 [(8,4,262143),(13,1,16),(14,2,4),(16,8,0x1000),(24,2,0),(28,1,1),(29,1,0x73),(32,4,3),(36,4,0x7FFF01)]) (up.setHalf 3 { Half.init with state := .established })), 0, 0, 262143, 0, 4, 3, 0x7FFF01, 3, some 3, oe (ent 68 [(8,4,262143),(13,1,16),(14,2,4),(16,8,0x1000),(24,2,0),(28,1,1),(29,1,0x73),(32,4,3),(36,4,0x7FFF01)]), ent 0x44 [(8,4,262143),(13,1,16),(14,2,4),(16,8,0x1000),(24,2,0),(28,1,1),(29,1,0x73),(32,4,3),(36,4,0x7FFF01)], by unfold State.controls; decide +kernel⟩,
   ⟨withCq 4 (ctl (ent 69 [(8,4,9),(29,1,0x73),(36,4,0x7FFF01)]) dbS), 0, 0, 9, 0x7FFF01, oe (ent 69 [(8,4,9),(29,1,0x73),(36,4,0x7FFF01)]), ent 0x45 [(8,4,9),(29,1,0x73),(36,4,0x7FFF01)], by unfold State.controls; decide +kernel⟩,
   ⟨withCq 4 (ctl (ent 70 [(8,4,9)]) (rdS 0)), 0, 0, 9, oe (ent 70 [(8,4,9)]), by unfold State.controls; decide +kernel⟩,
   ⟨ctl (ent 0x46 []) (dbS.setQueue 9 { dbS.queue 9 with state := .draining, shutdownBy := some (0, 0) }), 9, 0, 0, oe (ent 0x46 []), by decide +kernel, (fun o h => nomatch (show o ∈ ([] : List (Nat × Op)) from h))⟩,
   ⟨ctl (ent 71 [(8,4,9)]) (dbS.setQueue 9 { dbS.queue 9 with state := .shutdown }), 0, 0, 9, oe (ent 71 [(8,4,9)]), by unfold State.controls; decide +kernel⟩,
   ⟨withCq 4 (ctl (ent 72 [(8,4,9)]) (rdS 0)), 0, 0, 9, 0, oe (ent 72 [(8,4,9)]), oe (ent 7 []), by unfold State.controls; decide +kernel⟩,
   ⟨({ rdS 0 with tgf := { (rdS 0).tgf with halted := true } }), 0, 0xAD5E0001, by decide +kernel⟩⟩
theorem witness_Collectives_1 :
    (∃ (s : State) (qn : Nat) (idx : Nat) (r : Nat) (k : Nat) (e : OutEntry), s.starts qn idx 0x10 e ∧ weFlags e.bytes % 8 = 0 ∧ (s.queue
      qn).conn = some r ∧ (s.queue qn).outstanding.find? (fun x => x.idx == idx && x.started) = none ∧ s.joinSlot qn e.serial = none ∧
      s.joinBarred (s.queue qn) e.bytes = none ∧ s.freeSlot (r / 16384) = some k) ∧
    (∃ (s : State) (s1 : State) (s2 : State) (qn : Nat) (idx : Nat) (r : Nat) (k : Nat) (id : Nat) (n : Nat) (e : OutEntry) (b : List Byte)
      (table : List Byte) (data : List Byte) (ws : List Nat) (refs : List Nat) (ms : List Member) (cl : Coll), s.adapterHalted = false ∧
      s.cqRoom (s.queue qn).cn = true ∧ (s.queue qn).conn = some r ∧ (s.queue qn).outstanding.find? (fun x => x.idx == idx && x.started) =
      some e ∧ (s.queue qn).entry e.serial = some e ∧ b = e.bytes ∧ weOp b = 0x10 ∧ weFlags b % 8 = 0 ∧ id = leAt b 8 2 ∧ n = leAt b 16 4 ∧
      s.joinSlot qn e.serial = some k ∧ s.readAt (k / 4096) (.far (leAt b 24 4) (leAt b 32 8)) 0 (4 * n) (.op k) 0 data = (.data table, s1)
      ∧ s1.joinBarred (s.queue qn) b = none ∧ ws = (List.range n).map (fun i => leAt table (4 * i) 4) ∧ (∀ w ∈ ws, w < 2 ^ 24) ∧ ws.getD
      (leAt b 20 4) 0 = leAt b 10 3 ∧ s1.membersOf ws [] = (.ok ms, s2) ∧ s2.queue qn = s.queue qn ∧ (ms.map (·.dn)).eraseDups.length = n ∧
      s2.net.colls.length < 1024 ∧ cl =
      { memberEp := leAt b 10 3, func := (s.queue qn).func, rank := leAt b 20 4, members := ms, timeout := if leAt b 28 4 = 0 then 100000 else leAt b 28 4, halves := [], failed := false, run := none }
      ∧ refs = s2.freeRefs (r / 16384) cl.wants.length ∧ refs.length = cl.wants.length ∧ (∀ w ∈ cl.wants, s2.findHalf cl.memberEp (cl.mem
      w.1).ep w.2.1 = none)) ∧
    (∃ (s : State) (qn : Nat) (idx : Nat) (r : Nat) (e : OutEntry) (cl : Coll), s.starts qn idx 0x10 e ∧ weFlags e.bytes % 8 = 1 ∧ (s.queue
      qn).conn = some r ∧ (s.queue qn).outstanding.find? (fun x => x.idx == idx && x.started) = none ∧ s.coll (leAt e.bytes 8 2) = some cl ∧
      cl.run = none ∧ cl.failed = false ∧ badRun cl.members.length e.bytes = false ∧ (∀ h ∈ cl.halves, (s.half h).state ≠ .error) ∧
      s.ftValid = true) ∧
    (∃ (s : State) (qn : Nat) (idx : Nat) (r : Nat) (e : OutEntry) (cl : Coll) (st : Nat), s.starts qn idx 0x10 e ∧ weFlags e.bytes % 8 = 1
      ∧ (s.queue qn).conn = some r ∧ (s.queue qn).outstanding.find? (fun x => x.idx == idx && x.started) = none ∧ s.coll (leAt e.bytes 8 2)
      = some cl ∧ cl.run = none ∧ st = (if cl.failed = true then 0x22 else if badRun cl.members.length e.bytes = true then 0x20 else match
      cl.halves.find? (fun h => (s.half h).state == .error) with | some h => entryStatus (s.half h).lastErr | none => 0x14) ∧ (cl.failed =
      true ∨ badRun cl.members.length e.bytes = true ∨ (∃ h ∈ cl.halves, (s.half h).state = .error) ∨ s.ftValid = false)) ∧
    (∃ (s : State) (qn : Nat) (idx : Nat) (r : Nat) (e : OutEntry) (cl : Coll) (st : Nat), s.starts qn idx 0x10 e ∧ weFlags e.bytes % 8 = 1
      ∧ (s.queue qn).conn = some r ∧ (s.queue qn).outstanding.find? (fun x => x.idx == idx && x.started) = none ∧ s.coll (leAt e.bytes 8 2)
      = some cl ∧ cl.run = none ∧ st = (if cl.failed = true then 0x22 else if badRun cl.members.length e.bytes = true then 0x20 else match
      cl.halves.find? (fun h => (s.half h).state == .error) with | some h => entryStatus (s.half h).lastErr | none => 0x14) ∧ (cl.failed =
      true ∨ badRun cl.members.length e.bytes = true ∨ (∃ h ∈ cl.halves, (s.half h).state = .error) ∨ s.ftValid = false)) ∧
    (∃ (s : State) (qn : Nat) (idx : Nat) (r : Nat) (e : OutEntry) (cl : Coll) (st : Nat), s.starts qn idx 0x10 e ∧ weFlags e.bytes % 8 = 1
      ∧ (s.queue qn).conn = some r ∧ (s.queue qn).outstanding.find? (fun x => x.idx == idx && x.started) = none ∧ s.coll (leAt e.bytes 8 2)
      = some cl ∧ cl.run = none ∧ st = (if cl.failed = true then 0x22 else if badRun cl.members.length e.bytes = true then 0x20 else match
      cl.halves.find? (fun h => (s.half h).state == .error) with | some h => entryStatus (s.half h).lastErr | none => 0x14) ∧ (cl.failed =
      true ∨ badRun cl.members.length e.bytes = true ∨ (∃ h ∈ cl.halves, (s.half h).state = .error) ∨ s.ftValid = false)) ∧
    (∃ (s : State) (qn : Nat) (idx : Nat) (h : Nat) (id : Nat) (e : OutEntry) (b : List Byte) (cl : Coll) (r : CollRun), s.adapterHalted =
      false ∧ s.cqRoom (s.queue qn).cn = true ∧ (s.queue qn).conn = some h ∧ (s.queue qn).outstanding.find? (fun x => x.idx == idx &&
      x.started) = some e ∧ (s.queue qn).entry e.serial = some e ∧ b = e.bytes ∧ weOp b = 0x10 ∧ weFlags b % 8 = 1 ∧ id = leAt b 8 2 ∧
      s.coll id = some cl ∧ cl.run = some r ∧ r.qn = qn ∧ r.serial = e.serial ∧ (s.runSteps id cl b r.anchor r.passes).length ≤ r.step) ∧
    (∃ (s : State) (qn : Nat) (idx : Nat) (h : Nat) (id : Nat) (e : OutEntry) (b : List Byte) (cl : Coll) (r : CollRun) (x : RunStep),
      s.adapterHalted = false ∧ s.cqRoom (s.queue qn).cn = true ∧ (s.queue qn).conn = some h ∧ (s.queue qn).outstanding.find? (fun x =>
      x.idx == idx && x.started) = some e ∧ b = e.bytes ∧ weOp b = 0x10 ∧ weFlags b % 8 = 1 ∧ id = leAt b 8 2 ∧ s.coll id = some cl ∧ cl.run
      = some r ∧ r.qn = qn ∧ r.serial = e.serial ∧ r.sub = 0 ∧ (s.runSteps id cl b r.anchor r.passes)[r.step]? = some x ∧ x.what = 0 ∧ 0 <
      x.phase ∧ (∀ y ∈ s.runSteps id cl b r.anchor r.passes, y.slot = none) ∧ (∀ y ∈ (s.runSteps id cl b r.anchor r.passes).take r.step,
      y.phase = 0)) :=
  ⟨⟨colS jE false, 9, 0, 3, 0, oe jE, by unfold State.starts; decide +kernel⟩,
   ⟨j1, j1r.2, (j1r.2.membersOf [9,7] []).2, 9, 0, 3, 5, 1023, 2, ⟨0,0,jE,true⟩, jE, leBytes 4 9 ++ leBytes 4 7, [], [9,7], [0,1], mem2, cl2 false none [], by decide +kernel⟩,
   ⟨rS 1 false (cl2 false none []), 9, 0, 3, oe (rE 1), cl2 false none [], by unfold State.starts; decide +kernel⟩,
   ⟨rS 1 false (cl2 true none []), 9, 0, 3, oe (rE 1), cl2 true none [], 0x22, by unfold State.starts; decide +kernel⟩,
   ⟨{rS 1 false (cl2 false none []) with inv := up.inv}, 9, 0, 3, oe (rE 1), cl2 false none [], 0x14, by unfold State.starts; decide +kernel⟩,
   ⟨(rS 1 false (cl2 false none [3])).setHalf 3 { (rS 1 false (cl2 false none [3])).half 3 with state := .error, lastErr := 0x10 }, 9, 0, 3, oe (rE 1), cl2 false none [3], entryStatus 0x10, by unfold State.starts; decide +kernel⟩,
   ⟨rS 0 true (cl2 false (some (run0 9 0)) []), 9, 0, 3, 1023, ⟨0,0,rE 0,true⟩, rE 0, cl2 false (some (run0 9 0)) [], run0 9 0, by decide +kernel⟩,
   ⟨rS 4 true (cl2 false (some (run0 1 0)) []), 9, 0, 3, 1023, ⟨0,0,rE 4,true⟩, rE 4, cl2 false (some (run0 1 0)) [], run0 1 0, ((rS 4 true (cl2 false (some (run0 1 0)) [])).runSteps 1023 (cl2 false (some (run0 1 0)) []) (rE 4) (run0 1 0).anchor (run0 1 0).passes)[1]?.getD ⟨0,0,none,[],(0,0),0⟩, by decide +kernel⟩⟩
theorem witness_Collectives_2 :
    (∃ (s : State) (id : Nat) (cl : Coll) (r : CollRun) (e : OutEntry), s.inSafe = false ∧ s.coll id = some cl ∧ cl.run = some r ∧ s.cqRoom
      (s.queue r.qn).cn = true ∧ s.ftReached (r.at_ + w64 (cl.timeout * ticksPerUs)) = true ∧ (s.queue r.qn).entry r.serial = some e) ∧
    (∃ (s : State) (qn : Nat) (idx : Nat) (r : Nat) (e : OutEntry) (cl : Coll), s.starts qn idx 0x10 e ∧ weFlags e.bytes % 8 = 2 ∧ (s.queue
      qn).conn = some r ∧ (s.queue qn).outstanding.find? (fun x => x.idx == idx && x.started) = none ∧ s.coll (leAt e.bytes 8 2) = some cl ∧
      cl.run = none) :=
  ⟨⟨(let s := (rS 4 true (cl2 false (some (run0 0 2)) [])); { s with inv := { s.inv with ft := 400000000 } }), 1023, cl2 false (some (run0 0 2)) [], run0 0 2, ⟨0,0,rE 4,true⟩, by decide +kernel⟩,
   ⟨(colS lE false).setColl 1023 (some (cl2 false none [3])), 9, 0, 3, oe lE, cl2 false none [3], by unfold State.starts; decide +kernel⟩⟩
theorem witness_AmalgamUnits :
    (∃ (s : State) (c : Nat) (ref : Nat) (slot : Nat) (k : Nat) (e : Nat) (n : Nat) (w : Nat) (old : Nat) (v : Nat) (new : Nat) (i : Nat) (x
      : PktRef) (b : List Byte) (a : AmlSlot) (st : Stripe), s.holds c ref x ∧ (s.half x.conn).isRed x.pkt = true ∧ x.pkt.void = false ∧
      slot = x.pkt.key % 2 ^ 12 ∧ s.slotOp slot = some k ∧ b = (s.op k).block ∧ a = s.aslot slot ∧ i = x.pkt.aux % 2 ^ 16 ∧ i < amContrib b
      ∧ amType b < 4 ∧ amMode b = 0 ∧ amIn b = 0 ∧ amOp b < 6 ∧ n = typeSize (amType b) ∧ w = 8 * n ∧ x.pkt.payload.length = n ∧ redOffset
      x.pkt n = e * n ∧ e < amCount b ∧ st = a.stripes.get Stripe.init (e / 256) ∧ a.full b (e / 256) = false ∧ v = leNat x.pkt.payload ∧
      (st.acc.get none e = none ∧ new = v ∨ st.acc.get none e = some old ∧ (amOp b, new) ∈ [(0, (old + v) % 2 ^ w), (3, old &&& v), (4, old
      ||| v), (5, old ^^^ v), (1, if (if amType b ≤ 1 then toSigned w v < toSigned w old else v < old) then v else old), (2, if (if amType b
      ≤ 1 then toSigned w old < toSigned w v else old < v) then v else old)])) ∧
    (∃ (s : State) (c : Nat) (ref : Nat) (slot : Nat) (k : Nat) (e : Nat) (n : Nat) (w : Nat) (old : Nat) (v : Nat) (new : Nat) (i : Nat) (x
      : PktRef) (b : List Byte) (a : AmlSlot) (st : Stripe), s.holds c ref x ∧ (s.half x.conn).isRed x.pkt = true ∧ x.pkt.void = false ∧
      slot = x.pkt.key % 2 ^ 12 ∧ s.slotOp slot = some k ∧ b = (s.op k).block ∧ a = s.aslot slot ∧ i = x.pkt.aux % 2 ^ 16 ∧ i < amContrib b
      ∧ amType b < 4 ∧ amMode b = 0 ∧ amIn b = 0 ∧ amOp b < 6 ∧ n = typeSize (amType b) ∧ w = 8 * n ∧ x.pkt.payload.length = n ∧ redOffset
      x.pkt n = e * n ∧ e < amCount b ∧ st = a.stripes.get Stripe.init (e / 256) ∧ a.full b (e / 256) = false ∧ v = leNat x.pkt.payload ∧
      (st.acc.get none e = none ∧ new = v ∨ st.acc.get none e = some old ∧ (amOp b, new) ∈ [(0, (old + v) % 2 ^ w), (3, old &&& v), (4, old
      ||| v), (5, old ^^^ v), (1, if (if amType b ≤ 1 then toSigned w v < toSigned w old else v < old) then v else old), (2, if (if amType b
      ≤ 1 then toSigned w old < toSigned w v else old < v) then v else old)])) ∧
    (∃ (s : State) (c : Nat) (ref : Nat) (slot : Nat) (k : Nat) (e : Nat) (n : Nat) (w : Nat) (old : Nat) (v : Nat) (new : Nat) (i : Nat) (x
      : PktRef) (b : List Byte) (a : AmlSlot) (st : Stripe), s.holds c ref x ∧ (s.half x.conn).isRed x.pkt = true ∧ x.pkt.void = false ∧
      slot = x.pkt.key % 2 ^ 12 ∧ s.slotOp slot = some k ∧ b = (s.op k).block ∧ a = s.aslot slot ∧ i = x.pkt.aux % 2 ^ 16 ∧ i < amContrib b
      ∧ amType b < 4 ∧ amMode b = 0 ∧ amIn b = 0 ∧ amOp b < 6 ∧ n = typeSize (amType b) ∧ w = 8 * n ∧ x.pkt.payload.length = n ∧ redOffset
      x.pkt n = e * n ∧ e < amCount b ∧ st = a.stripes.get Stripe.init (e / 256) ∧ a.full b (e / 256) = false ∧ v = leNat x.pkt.payload ∧
      (st.acc.get none e = none ∧ new = v ∨ st.acc.get none e = some old ∧ (amOp b, new) ∈ [(0, (old + v) % 2 ^ w), (3, old &&& v), (4, old
      ||| v), (5, old ^^^ v), (1, if (if amType b ≤ 1 then toSigned w v < toSigned w old else v < old) then v else old), (2, if (if amType b
      ≤ 1 then toSigned w old < toSigned w v else old < v) then v else old)])) ∧
    (∃ (s : State) (c : Nat) (ref : Nat) (slot : Nat) (k : Nat) (e : Nat) (n : Nat) (w : Nat) (old : Nat) (v : Nat) (new : Nat) (i : Nat) (x
      : PktRef) (b : List Byte) (a : AmlSlot) (st : Stripe), s.holds c ref x ∧ (s.half x.conn).isRed x.pkt = true ∧ x.pkt.void = false ∧
      slot = x.pkt.key % 2 ^ 12 ∧ s.slotOp slot = some k ∧ b = (s.op k).block ∧ a = s.aslot slot ∧ i = x.pkt.aux % 2 ^ 16 ∧ i < amContrib b
      ∧ amType b < 4 ∧ amMode b = 0 ∧ amIn b = 0 ∧ amOp b < 6 ∧ n = typeSize (amType b) ∧ w = 8 * n ∧ x.pkt.payload.length = n ∧ redOffset
      x.pkt n = e * n ∧ e < amCount b ∧ st = a.stripes.get Stripe.init (e / 256) ∧ a.full b (e / 256) = false ∧ v = leNat x.pkt.payload ∧
      (st.acc.get none e = none ∧ new = v ∨ st.acc.get none e = some old ∧ (amOp b, new) ∈ [(0, (old + v) % 2 ^ w), (3, old &&& v), (4, old
      ||| v), (5, old ^^^ v), (1, if (if amType b ≤ 1 then toSigned w v < toSigned w old else v < old) then v else old), (2, if (if amType b
      ≤ 1 then toSigned w old < toSigned w v else old < v) then v else old)])) ∧
    (∃ (s : State) (c : Nat) (ref : Nat) (x : PktRef), s.holds c ref x ∧ (s.half x.conn).isRed x.pkt = true ∧ x.pkt.void = false ∧ s.slotOp
      (x.pkt.key % 2 ^ 12) = none) ∧
    (∃ (s : State) (s1 : State) (slot : Nat) (k : Nat) (key : Nat) (b : List Byte) (bs : List Byte) (ds : List Byte) (a : AmlSlot) (x :
      Stripe), s.inSafe = false ∧ s.slotOp slot = some key ∧ b = (s.op key).block ∧ a = s.aslot slot ∧ x = a.stripes.get Stripe.init k ∧ k <
      amStripes b ∧ amLocal b = 0xFFFF ∧ amOp b < 6 ∧ amMode b = 0 ∧ amType b < 4 ∧ a.fault = none ∧ a.range = false ∧ x.done = false ∧
      amElems b k * amInSize b * amContrib b ≤ x.count ∧ a.done + 1 ≤ amStripes b ∧ bs = (List.range (amElems b k)).flatMap (fun j =>
      leBytes (amOutSize b) ((x.acc.get none (256 * k + j)).getD 0)) ∧ s.writeAt (key / 4096) (.far (amAsk b) (amOutVa b)) (256 * k *
      amOutSize b) bs (.op key) = (.data ds, s1) ∧ s1.op key = s.op key ∧ s1.aml = s.aml) ∧
    (∃ (s : State) (p : Path), s.mayWrite p R.AML_CTRL.base = true) :=
  ⟨⟨conS 0, 0, 0x20000, 9, 5, 1, 4, 32, 3, 0xFFFFFFFA, 0xFFFFFFFD, 1, px redP, ((conS 0).op 5).block, (conS 0).aslot 9, ((conS 0).aslot 9).stripes.get Stripe.init 0, by unfold State.holds; decide +kernel⟩,
   ⟨conS 1, 0, 0x20000, 9, 5, 1, 4, 32, 3, 0xFFFFFFFA, 0xFFFFFFFA, 1, px redP, ((conS 1).op 5).block, (conS 1).aslot 9, ((conS 1).aslot 9).stripes.get Stripe.init 0, by unfold State.holds; decide +kernel⟩,
   ⟨conS 2, 0, 0x20000, 9, 5, 1, 4, 32, 3, 0xFFFFFFFA, 3, 1, px redP, ((conS 2).op 5).block, (conS 2).aslot 9, ((conS 2).aslot 9).stripes.get Stripe.init 0, by unfold State.holds; decide +kernel⟩,
   ⟨conS 5, 0, 0x20000, 9, 5, 1, 4, 32, 3, 0xFFFFFFFA, 0xFFFFFFF9, 1, px redP, ((conS 5).op 5).block, (conS 5).aslot 9, ((conS 5).aslot 9).stripes.get Stripe.init 0, by unfold State.holds; decide +kernel⟩,
   ⟨(conS 0).setOp 5 Op.free, 0, 0x20000, px redP, by unfold State.holds; decide +kernel⟩,
   ⟨stS, stR.2, 9, 1, 5, (stS.op 5).block, [3,0,0,0,4,0,0,0], [], stS.aslot 9, (stS.aslot 9).stripes.get Stripe.init 1, by decide +kernel⟩,
   ⟨code up, .near 5, by decide +kernel⟩⟩
theorem witness_RoutingOfPackets :
    (∃ (s : State) (tile : Nat) (x : RPkt) (rest : List RPkt), s.inSafe = false ∧ s.route.tiles.get [] tile = x :: rest ∧ s.route.holds = []
      ∧ s.bank x.pkt.epoch ≠ 0 ∧ x.pkt.dstDn = s.ownDn) ∧
    (∃ (s : State) (tile : Nat) (x : RPkt) (rest : List RPkt) (xs : List Cand4), s.inSafe = false ∧ s.route.tiles.get [] tile = x :: rest ∧
      s.route.holds = [] ∧ s.destOf x = .permitted xs ∧ (∃ c ∈ xs, (s.port c.port).live = true)) ∧
    (∃ (s : State) (tile : Nat) (x : RPkt) (rest : List RPkt) (xs : List Cand4), s.inSafe = false ∧ s.route.tiles.get [] tile = x :: rest ∧
      s.route.holds = [] ∧ s.destOf x = .permitted xs ∧ (∀ c ∈ xs, (s.port c.port).live = false)) ∧
    (∃ (s : State) (tile : Nat) (x : RPkt) (rest : List RPkt) (cnt : RegDesc), s.inSafe = false ∧ s.route.tiles.get [] tile = x :: rest ∧
      s.route.holds = [] ∧ s.destOf x = .discard cnt) ∧
    (∃ (s : State) (tile : Nat) (h : Hold) (xs : List Cand4), s.inSafe = false ∧ s.route.holds = [h] ∧ h.tile = tile ∧ s.destOf h.rp =
      .permitted xs ∧ (∃ c ∈ xs, (s.port c.port).live = true)) ∧
    (∃ (s : State) (tile : Nat) (h : Hold) (xs : List Cand4), s.inSafe = false ∧ s.route.holds = [h] ∧ h.tile = tile ∧ s.destOf h.rp =
      .permitted xs ∧ (∀ c ∈ xs, (s.port c.port).live = false) ∧ (∀ x ∈ s.route.tiles.get [] tile, sameInput h.rp x = true)) ∧
    (∃ (s : State) (i : Nat) (h : Hold), s.inSafe = false ∧ s.route.holds[i]? = some h ∧ s.locReached h.until_ = true) ∧
    (∃ (s : State) (p : Nat), (s.port p).live = false) :=
  ⟨⟨(rtS { rtP with dstDn := 5 }), 0, (rp { rtP with dstDn := 5 }), [], by decide +kernel⟩,
   ⟨rtL rtP, 0, rp rtP, [], [⟨0, .minimal, 0⟩], by decide +kernel⟩,
   ⟨rtS rtP, 0, rp rtP, [], [⟨0, .minimal, 0⟩], by decide +kernel⟩,
   ⟨(rtS { rtP with dstDn := 7 }), 0, (rp { rtP with dstDn := 7 }), [], R.ROUTE_NOROUTE_COUNT, by decide +kernel⟩,
   ⟨({ rtL rtP with route := { (rtL rtP).route with holds := [⟨rp rtP, 0, 9⟩], tiles := [] } }), 0, ⟨rp rtP, 0, 9⟩, [⟨0, .minimal, 0⟩], by decide +kernel⟩,
   ⟨({ rtS rtP with route := { (rtS rtP).route with holds := [⟨rp rtP, 0, 9⟩], tiles := [(0, [rp rtP])] } }), 0, ⟨rp rtP, 0, 9⟩, [⟨0, .minimal, 0⟩], by decide +kernel⟩,
   ⟨(at_ 9 { rtS rtP with route := { (rtS rtP).route with holds := [⟨rp rtP, 0, 9⟩] } }), 0, ⟨rp rtP, 0, 9⟩, by decide +kernel⟩,
   ⟨pdS, 0, by decide +kernel⟩⟩
theorem witness_RouteTables_1 :
    (∃ (s : State) (pf : Nat) (idx : Nat) (t : Nat) (bank : Nat) (first : Nat) (n : Nat) (r : RegDesc) (e : OutEntry) (b : List Byte) (data
      : List Byte), s.controls pf idx 0x60 e ∧ b = e.bytes ∧ t = leAt b 8 1 ∧ (t, r) ∈ [(0, R.ROUTE_DEST), (1, R.ROUTE_GROUP), (2,
      R.ROUTE_ROW), (3, R.ROUTE_COLUMN), (4, R.ROUTE_PORT)] ∧ first = leAt b 12 4 ∧ n = leAt b 16 4 ∧ first + n ≤ tableEntries t ∧ s.fmMay
      pf = true ∧ bank = (if s.route.enabled = true then s.otherBank else leAt b 9 1 % 2) ∧ bank < 2 ∧ s.bank bank = 0 ∧ (n = 0 ∨
      s.canMaster pf = true) ∧ data.length = 4 * n ∧ (∀ i, i < tableEntries t → (s.rd r [bank, i]).toNat < 2 ^ 32) ∧ 0 < (s.cq (s.queue
      (ctrlQn pf)).cn).k) ∧
    (∃ (s : State) (pf : Nat) (idx : Nat) (t : Nat) (bank : Nat) (first : Nat) (n : Nat) (r : RegDesc) (e : OutEntry) (b : List Byte) (data
      : List Byte), s.controls pf idx 0x60 e ∧ b = e.bytes ∧ t = leAt b 8 1 ∧ (t, r) ∈ [(0, R.ROUTE_DEST), (1, R.ROUTE_GROUP), (2,
      R.ROUTE_ROW), (3, R.ROUTE_COLUMN), (4, R.ROUTE_PORT)] ∧ first = leAt b 12 4 ∧ n = leAt b 16 4 ∧ first + n ≤ tableEntries t ∧ s.fmMay
      pf = true ∧ bank = (if s.route.enabled = true then s.otherBank else leAt b 9 1 % 2) ∧ bank < 2 ∧ s.bank bank = 0 ∧ (n = 0 ∨
      s.canMaster pf = true) ∧ data.length = 4 * n ∧ (∀ i, i < tableEntries t → (s.rd r [bank, i]).toNat < 2 ^ 32) ∧ 0 < (s.cq (s.queue
      (ctrlQn pf)).cn).k) ∧
    (∃ (s : State) (pf : Nat) (idx : Nat) (t : Nat) (bank : Nat) (first : Nat) (n : Nat) (r : RegDesc) (e : OutEntry) (b : List Byte) (data
      : List Byte), s.controls pf idx 0x60 e ∧ b = e.bytes ∧ t = leAt b 8 1 ∧ (t, r) ∈ [(0, R.ROUTE_DEST), (1, R.ROUTE_GROUP), (2,
      R.ROUTE_ROW), (3, R.ROUTE_COLUMN), (4, R.ROUTE_PORT)] ∧ first = leAt b 12 4 ∧ n = leAt b 16 4 ∧ first + n ≤ tableEntries t ∧ s.fmMay
      pf = true ∧ bank = (if s.route.enabled = true then s.otherBank else leAt b 9 1 % 2) ∧ bank < 2 ∧ s.bank bank = 0 ∧ (n = 0 ∨
      s.canMaster pf = true) ∧ data.length = 4 * n ∧ (∀ i, i < tableEntries t → (s.rd r [bank, i]).toNat < 2 ^ 32) ∧ 0 < (s.cq (s.queue
      (ctrlQn pf)).cn).k) ∧
    (∃ (s : State) (pf : Nat) (idx : Nat) (t : Nat) (bank : Nat) (first : Nat) (n : Nat) (r : RegDesc) (e : OutEntry) (b : List Byte) (data
      : List Byte), s.controls pf idx 0x60 e ∧ b = e.bytes ∧ t = leAt b 8 1 ∧ (t, r) ∈ [(0, R.ROUTE_DEST), (1, R.ROUTE_GROUP), (2,
      R.ROUTE_ROW), (3, R.ROUTE_COLUMN), (4, R.ROUTE_PORT)] ∧ first = leAt b 12 4 ∧ n = leAt b 16 4 ∧ first + n ≤ tableEntries t ∧ s.fmMay
      pf = true ∧ bank = (if s.route.enabled = true then s.otherBank else leAt b 9 1 % 2) ∧ bank < 2 ∧ s.bank bank = 0 ∧ (n = 0 ∨
      s.canMaster pf = true) ∧ data.length = 4 * n ∧ (∀ i, i < tableEntries t → (s.rd r [bank, i]).toNat < 2 ^ 32) ∧ 0 < (s.cq (s.queue
      (ctrlQn pf)).cn).k) ∧
    (∃ (s : State) (pf : Nat) (idx : Nat) (bank : Nat) (first : Nat) (e : OutEntry) (b : List Byte) (data : List Byte), s.controls pf idx
      0x60 e ∧ b = e.bytes ∧ leAt b 8 1 = 5 ∧ first = leAt b 12 4 ∧ leAt b 16 4 = 1 ∧ first < 1024 ∧ s.fmMay pf = true ∧ bank = (if
      s.route.enabled = true then s.otherBank else leAt b 9 1 % 2) ∧ bank < 2 ∧ s.bank bank = 0 ∧ s.canMaster pf = true ∧ data.length = 16 ∧
      0 < (s.cq (s.queue (ctrlQn pf)).cn).k) ∧
    (∃ (s : State) (pf : Nat) (idx : Nat) (e : OutEntry), s.controls pf idx 0x60 e ∧ leAt e.bytes 8 1 = 6 ∧ s.fmMay pf = true ∧
      s.route.enabled = true ∧ s.route.active < 2 ∧ s.bank s.otherBank = 0 ∧ SMap.wf 0 s.regs = true ∧ 0 < (s.cq (s.queue (ctrlQn
      pf)).cn).k) ∧
    (∃ (s : State) (pf : Nat) (idx : Nat) (e : OutEntry), s.controls pf idx 0x61 e ∧ s.fmMay pf = true ∧ s.armRefusal (w64 (leAt e.bytes 8
      8)) = none ∧ 0 < (s.cq (s.queue (ctrlQn pf)).cn).k) ∧
    (∃ (s : State) (pf : Nat) (idx : Nat) (st : Nat) (e : OutEntry), s.controls pf idx 0x61 e ∧ s.fmMay pf = true ∧ s.armRefusal (w64 (leAt
      e.bytes 8 8)) = some st) :=
  ⟨⟨pfB (ctl (ent 96 [(8,1,1),(9,1,1),(12,4,511),(16,4,1)]) up), 0, 0, 1, 1, 511, 1, R.ROUTE_GROUP, oe (ent 96 [(8,1,1),(9,1,1),(12,4,511),(16,4,1)]), ent 0x60 [(8,1,1),(9,1,1),(12,4,511),(16,4,1)], leBytes 4 0x80000401, by unfold State.controls; decide +kernel⟩,
   ⟨pfB (ctl (ent 96 [(8,1,2),(9,1,1),(12,4,0),(16,4,1)]) up), 0, 0, 2, 1, 0, 1, R.ROUTE_ROW, oe (ent 96 [(8,1,2),(9,1,1),(12,4,0),(16,4,1)]), ent 0x60 [(8,1,2),(9,1,1),(12,4,0),(16,4,1)], leBytes 4 0x80000401, by unfold State.controls; decide +kernel⟩,
   ⟨pfB (ctl (ent 96 [(8,1,3),(9,1,1),(12,4,15),(16,4,1)]) up), 0, 0, 3, 1, 15, 1, R.ROUTE_COLUMN, oe (ent 96 [(8,1,3),(9,1,1),(12,4,15),(16,4,1)]), ent 0x60 [(8,1,3),(9,1,1),(12,4,15),(16,4,1)], leBytes 4 0x80000401, by unfold State.controls; decide +kernel⟩,
   ⟨pfB (ctl (ent 96 [(8,1,4),(9,1,1),(12,4,127),(16,4,1)]) up), 0, 0, 4, 1, 127, 1, R.ROUTE_PORT, oe (ent 96 [(8,1,4),(9,1,1),(12,4,127),(16,4,1)]), ent 0x60 [(8,1,4),(9,1,1),(12,4,127),(16,4,1)], leBytes 4 0x80000401, by unfold State.controls; decide +kernel⟩,
   ⟨pfB (ctl (ent 96 [(8,1,5),(9,1,1),(12,4,7),(16,4,1)]) up), 0, 0, 1, 7, oe (ent 96 [(8,1,5),(9,1,1),(12,4,7),(16,4,1)]), ent 96 [(8,1,5),(9,1,1),(12,4,7),(16,4,1)], leBytes 8 0x123456 ++ leBytes 8 0x77, by unfold State.controls; decide +kernel⟩,
   ⟨(let s := (ctl (ent 96 [(8,1,6)]) up); { s with route := { s.route with enabled := true, bank0 := 2 } }), 0, 0, oe (ent 96 [(8,1,6)]), by unfold State.controls; decide +kernel⟩,
   ⟨rtA (ctl (ent 97 [(8,8,4000000)]) up), 0, 0, oe (ent 97 [(8,8,4000000)]), by unfold State.controls; decide +kernel⟩,
   ⟨rtA (ctl (ent 97 [(8,8,3999999)]) up), 0, 0, 0x30, oe (ent 97 [(8,8,3999999)]), by unfold State.controls; decide +kernel⟩⟩
theorem witness_RouteTables_2 :
    (∃ (s : State) (pf : Nat) (idx : Nat) (st : Nat) (e : OutEntry), s.controls pf idx 0x61 e ∧ s.fmMay pf = true ∧ s.armRefusal (w64 (leAt
      e.bytes 8 8)) = some st) ∧
    (∃ (s : State) (pf : Nat) (idx : Nat) (b : Nat) (e : OutEntry), s.controls pf idx 0x62 e ∧ s.fmMay pf = true ∧ s.armedBank = some b ∧
      s.ftReached (s.rd R.ROUTE_SWITCH_FT) = false) ∧
    (∃ (s : State) (pf : Nat) (idx : Nat) (e : OutEntry), s.controls pf idx 0x63 e ∧ s.fmMay pf = true ∧ s.route.active < 2 ∧ s.route.bank0
      < 4 ∧ s.route.bank1 < 4) ∧
    (∃ (s : State) (pf : Nat) (idx : Nat) (epid : Nat) (e : OutEntry), s.controls pf idx 0x64 e ∧ epid = leAt e.bytes 8 3 ∧ epid < 2 ^ s.fd
      F.ROUTE_EPT_CFG_LOG2_ENTRIES ∧ s.fmMay pf = true ∧ 0 < (s.cq (s.queue (ctrlQn pf)).cn).k) ∧
    (∃ (s : State) (p : Path), s.mayWrite p R.ROUTE_EPT_INV.base = true) ∧
    (∃ (s : State) (p : Path), s.mayWrite p R.ROUTE_EPT_INV.base = true) :=
  ⟨⟨ctl (ent 97 [(8,8,3999999)]) up, 0, 0, 0x32, oe (ent 97 [(8,8,3999999)]), by unfold State.controls; decide +kernel⟩,
   ⟨rtB (ctl (ent 98 []) up), 0, 0, 1, oe (ent 98 []), by unfold State.controls; decide +kernel⟩,
   ⟨rtB (ctl (ent 99 []) up), 0, 0, oe (ent 99 []), by unfold State.controls; decide +kernel⟩,
   ⟨ctl (ent 100 [(8,3,255),(16,8,0x80000007)]) (up.fw F.ROUTE_EPT_CFG_LOG2_ENTRIES [] 8), 0, 0, 0xFF, oe (ent 100 [(8,3,255),(16,8,0x80000007)]), by unfold State.controls; decide +kernel⟩,
   ⟨conn3 Half.init (code up), .near 5, by decide +kernel⟩,
   ⟨conn3 Half.init (code up), .near 5, by decide +kernel⟩⟩
theorem witness_RouteSwitchover :
    (∃ (s : State) (p : Path) (v : Word), s.mayWrite p R.ROUTE_EPOCH_CTRL.base = true ∧ bitW v 31 = true ∧ bitW v 30 = false ∧ bitW v 29 =
      false ∧ s.route.enabled = false) ∧
    (∃ (s : State) (p : Path) (v : Word), s.mayWrite p R.ROUTE_EPOCH_CTRL.base = true ∧ bitW v 31 = false ∧ bitW v 30 = true ∧ bitW v 29 =
      false) ∧
    (∃ (s : State) (p : Path) (v : Word) (b : Nat), s.mayWrite p R.ROUTE_EPOCH_CTRL.base = true ∧ bitW v 31 = false ∧ bitW v 30 = false ∧
      bitW v 29 = true ∧ s.armedBank = some b ∧ s.ftReached (s.rd R.ROUTE_SWITCH_FT) = false) ∧
    (∃ (s : State) (b : Nat), s.inSafe = false ∧ s.armedBank = some b ∧ s.ftValid = true ∧ s.ftReached (s.rd R.ROUTE_SWITCH_FT) = true) ∧
    (∃ (s : State), (s.armedBank = none ∨ s.ftValid = false ∨ s.ftReached (s.rd R.ROUTE_SWITCH_FT) = false)) ∧
    (∃ (s : State) (b : Nat), s.inSafe = false ∧ firstBelow 2 (fun b => s.bank b == 3) = some b ∧ s.ftValid = true ∧ s.ftReached (s.rd
      R.ROUTE_DRAIN_END_FT) = true) :=
  ⟨⟨code up, .near 5, 0x80000001, by decide +kernel⟩,
   ⟨rtA (code up), .near 5, 0x40000000, by decide +kernel⟩,
   ⟨rtB (code up), .near 5, 0x20000000, 1, by decide +kernel⟩,
   ⟨rtC (code up), 1, by decide +kernel⟩,
   ⟨up, by decide +kernel⟩,
   ⟨(let s := (rtC up).setBank 0 3; s.wr R.ROUTE_DRAIN_END_FT [] 5), 0, by decide +kernel⟩⟩
theorem witness_SolderStreams_1 :
    (∃ (s : State) (port : Nat) (x : RPkt) (rest : List (Nat × RPkt)) (t : State), s.inSafe = false ∧ s.route.arrivals = (port, x) :: rest ∧
      t = { s with route := { s.route with arrivals := rest } }.freeAll x.cred ∧ port < 128 ∧ x.pkt.ecrc ≠ x.pkt.ecrcOf) ∧
    (∃ (s : State) (cnt : RegDesc) (port : Nat) (x : RPkt) (rest : List (Nat × RPkt)) (t : State), s.inSafe = false ∧ s.route.arrivals =
      (port, x) :: rest ∧ t = { s with route := { s.route with arrivals := rest } }.freeAll x.cred ∧ (128 ≤ port ∨ x.pkt.ecrc =
      x.pkt.ecrcOf) ∧ s.staleReg x.pkt = some cnt) ∧
    (∃ (s : State) (cnt : RegDesc) (port : Nat) (x : RPkt) (rest : List (Nat × RPkt)) (t : State), s.inSafe = false ∧ s.route.arrivals =
      (port, x) :: rest ∧ t = { s with route := { s.route with arrivals := rest } }.freeAll x.cred ∧ (128 ≤ port ∨ x.pkt.ecrc =
      x.pkt.ecrcOf) ∧ s.staleReg x.pkt = some cnt) ∧
    (∃ (s : State) (port : Nat) (x : RPkt) (rest : List (Nat × RPkt)) (t : State), s.inSafe = false ∧ s.route.arrivals = (port, x) :: rest ∧
      t = { s with route := { s.route with arrivals := rest } }.freeAll x.cred ∧ (128 ≤ port ∨ x.pkt.ecrc = x.pkt.ecrcOf) ∧ s.expired x.pkt
      = false ∧ s.tgf.halted = true ∧ (s.localEpOf x.pkt).isSome = true) ∧
    (∃ (s : State) (port : Nat) (x : RPkt) (rest : List (Nat × RPkt)) (t : State), s.inSafe = false ∧ s.route.arrivals = (port, x) :: rest ∧
      t = { s with route := { s.route with arrivals := rest } }.freeAll x.cred ∧ (128 ≤ port ∨ x.pkt.ecrc = x.pkt.ecrcOf) ∧ s.expired x.pkt
      = false ∧ s.tgf.halted = false ∧ x.pkt.op ≠ opAck ∧ s.streamOf x.pkt = none) ∧
    (∃ (s : State) (port : Nat) (r : Nat) (x : RPkt) (rest : List (Nat × RPkt)) (t : State) (p : Packet) (y : Stream), s.adapterHalted =
      false ∧ SMap.wf Half.init s.net.halves = true ∧ s.route.arrivals = (port, x) :: rest ∧ p = x.pkt ∧ t = ({ s with route :=
      { s.route with arrivals := rest } }.freeAll x.cred).setRx r y ∧ (128 ≤ port ∨ p.ecrc = p.ecrcOf) ∧ s.expired p = false ∧ p.op ≠ opAck
      ∧ s.streamOf p = some r ∧ p.rlx = (s.half r).rlx ∧ y = { (s.half r).rx with peer := p.srcDn } ∧ y.fail = true) ∧
    (∃ (s : State) (port : Nat) (r : Nat) (x : RPkt) (rest : List (Nat × RPkt)) (t : State) (p : Packet) (y : Stream), s.adapterHalted =
      false ∧ SMap.wf Half.init s.net.halves = true ∧ s.route.arrivals = (port, x) :: rest ∧ p = x.pkt ∧ t = ({ s with route :=
      { s.route with arrivals := rest } }.freeAll x.cred).setRx r y ∧ (128 ≤ port ∨ p.ecrc = p.ecrcOf) ∧ s.expired p = false ∧ p.op ≠ opAck
      ∧ s.streamOf p = some r ∧ p.rlx = (s.half r).rlx ∧ y = { (s.half r).rx with peer := p.srcDn } ∧ y.fail = false ∧ (2 ^ 31 ≤ (p.seq -
      y.e).toNat ∨ y.marked p.seq = true)) ∧
    (∃ (s : State) (port : Nat) (r : Nat) (x : RPkt) (rest : List (Nat × RPkt)) (t : State) (p : Packet) (y : Stream), s.adapterHalted =
      false ∧ SMap.wf Half.init s.net.halves = true ∧ s.route.arrivals = (port, x) :: rest ∧ p = x.pkt ∧ t = ({ s with route :=
      { s.route with arrivals := rest } }.freeAll x.cred).setRx r y ∧ (128 ≤ port ∨ p.ecrc = p.ecrcOf) ∧ s.expired p = false ∧ p.op ≠ opAck
      ∧ s.streamOf p = some r ∧ p.rlx = (s.half r).rlx ∧ y = { (s.half r).rx with peer := p.srcDn } ∧ y.fail = false ∧ (2 ^ 31 ≤ (p.seq -
      y.e).toNat ∨ y.marked p.seq = true)) :=
  ⟨⟨(slA 3 { rtP with dstDn := 5, stamp := 0 }), 3, (rp { { rtP with dstDn := 5, stamp := 0 } with ecrc := 1 }), [], slF (slA 3 { rtP with dstDn := 5, stamp := 0 }) (rp { { rtP with dstDn := 5, stamp := 0 } with ecrc := 1 }), by decide +kernel⟩,
   ⟨(slA 0 { rtP with dstDn := 5, stamp := 0 }), R.SLD_EXPIRE_COUNT, 128, (rp { rtP with dstDn := 5, stamp := 0 }), [], slF (slA 0 { rtP with dstDn := 5, stamp := 0 }) (rp { rtP with dstDn := 5, stamp := 0 }), by decide +kernel⟩,
   ⟨(slA 0 { slP with stamp := 2 ^ 40 }), R.SLD_FUTURE_COUNT, 128, (rp { slP with stamp := 2 ^ 40 }), [], slF (slA 0 { slP with stamp := 2 ^ 40 }) (rp { slP with stamp := 2 ^ 40 }), by decide +kernel⟩,
   ⟨({ slB slP with tgf := { (slB slP).tgf with halted := true } }), 128, rp slP, [], slF ({ slB slP with tgf := { (slB slP).tgf with halted := true } }) (rp slP), by decide +kernel⟩,
   ⟨(slB { slP with srcEp := 8 }), 128, (rp { slP with srcEp := 8 }), [], slF (slB { slP with srcEp := 8 }) (rp { slP with srcEp := 8 }), by decide +kernel⟩,
   ⟨slJ slP (fun h => { h with rx := { h.rx with fail := true } }), 128, 3, rp slP, [], (slF (slJ slP (fun h => { h with rx := { h.rx with fail := true } })) (rp slP)).setRx 3 (slYp (slJ slP (fun h => { h with rx := { h.rx with fail := true } })) slP), slP, slYp (slJ slP (fun h => { h with rx := { h.rx with fail := true } })) slP, by decide +kernel⟩,
   ⟨(slJ { slP with seq := 0xFFFFFFFF } id), 128, 3, (rp { slP with seq := 0xFFFFFFFF }), [], (slF (slJ { slP with seq := 0xFFFFFFFF } id) (rp { slP with seq := 0xFFFFFFFF })).setRx 3 (slYp (slJ { slP with seq := 0xFFFFFFFF } id) { slP with seq := 0xFFFFFFFF }), { slP with seq := 0xFFFFFFFF }, slYp (slJ { slP with seq := 0xFFFFFFFF } id) { slP with seq := 0xFFFFFFFF }, by decide +kernel⟩,
   ⟨(slJ { slP with seq := 4 } (fun h => { h with rx := { h.rx with released := [(4, 7)] } })), 128, 3, (rp { slP with seq := 4 }), [], (slF (slJ { slP with seq := 4 } (fun h => { h with rx := { h.rx with released := [(4, 7)] } })) (rp { slP with seq := 4 })).setRx 3 (slYp (slJ { slP with seq := 4 } (fun h => { h with rx := { h.rx with released := [(4, 7)] } })) { slP with seq := 4 }), { slP with seq := 4 }, slYp (slJ { slP with seq := 4 } (fun h => { h with rx := { h.rx with released := [(4, 7)] } })) { slP with seq := 4 }, by decide +kernel⟩⟩
theorem witness_SolderStreams_2 :
    (∃ (s : State) (port : Nat) (r : Nat) (x : RPkt) (rest : List (Nat × RPkt)) (t : State) (p : Packet) (y : Stream), s.adapterHalted =
      false ∧ SMap.wf Half.init s.net.halves = true ∧ s.route.arrivals = (port, x) :: rest ∧ p = x.pkt ∧ t = ({ s with route :=
      { s.route with arrivals := rest } }.freeAll x.cred).setRx r y ∧ (128 ≤ port ∨ p.ecrc = p.ecrcOf) ∧ s.expired p = false ∧ p.op ≠ opAck
      ∧ s.streamOf p = some r ∧ p.rlx = (s.half r).rlx ∧ y = { (s.half r).rx with peer := p.srcDn } ∧ y.fail = false ∧ (p.seq - y.e).toNat <
      2 ^ 31 ∧ y.marked p.seq = false ∧ s.fd F.SLD_WINDOW_W ≤ (p.seq - y.e).toNat) ∧
    (∃ (s : State) (port : Nat) (r : Nat) (x : RPkt) (rest : List (Nat × RPkt)) (t : State) (p : Packet) (y : Stream), s.adapterHalted =
      false ∧ SMap.wf Half.init s.net.halves = true ∧ s.route.arrivals = (port, x) :: rest ∧ p = x.pkt ∧ t = ({ s with route :=
      { s.route with arrivals := rest } }.freeAll x.cred).setRx r y ∧ (128 ≤ port ∨ p.ecrc = p.ecrcOf) ∧ s.expired p = false ∧ p.op ≠ opAck
      ∧ s.streamOf p = some r ∧ p.rlx = (s.half r).rlx ∧ y = { (s.half r).rx with peer := p.srcDn } ∧ y.fail = false ∧ (p.seq - y.e).toNat <
      2 ^ 31 ∧ y.marked p.seq = false ∧ (p.seq - y.e).toNat < s.fd F.SLD_WINDOW_W ∧ p.seq ≠ y.e ∧ y.ctx = false ∧ 65536 ≤ s.ctxUsed) ∧
    (∃ (s : State) (port : Nat) (r : Nat) (x : RPkt) (rest : List (Nat × RPkt)) (t : State) (p : Packet) (y : Stream) (ref : Nat),
      s.adapterHalted = false ∧ SMap.wf Half.init s.net.halves = true ∧ s.route.arrivals = (port, x) :: rest ∧ p = x.pkt ∧ t = ({ s with
      route := { s.route with arrivals := rest } }.freeAll x.cred).setRx r y ∧ (128 ≤ port ∨ p.ecrc = p.ecrcOf) ∧ s.expired p = false ∧ p.op
      ≠ opAck ∧ s.streamOf p = some r ∧ p.rlx = (s.half r).rlx ∧ y = { (s.half r).rx with peer := p.srcDn } ∧ y.fail = false ∧ (p.seq -
      y.e).toNat < 2 ^ 31 ∧ y.marked p.seq = false ∧ (p.seq - y.e).toNat < s.fd F.SLD_WINDOW_W ∧ (p.seq = y.e ∨ y.ctx = true ∨ s.ctxUsed <
      65536) ∧ s.nextReady = none ∧ y.releasable (s.half r).rlx s.strictDepth p = true ∧ selfConsumed p = false ∧ s.freeRef (r / 16384) =
      some ref ∧ r < 262144 ∧ (s.half r).fifo < 4 ∧ ((s.half r).isRed p = true ∨ s.wfRoom (4 * (r / 16384) + (s.half r).fifo) false 2 =
      true)) ∧
    (∃ (s : State) (port : Nat) (r : Nat) (x : RPkt) (rest : List (Nat × RPkt)) (t : State) (p : Packet) (y : Stream), s.adapterHalted =
      false ∧ SMap.wf Half.init s.net.halves = true ∧ s.route.arrivals = (port, x) :: rest ∧ p = x.pkt ∧ t = ({ s with route :=
      { s.route with arrivals := rest } }.freeAll x.cred).setRx r y ∧ (128 ≤ port ∨ p.ecrc = p.ecrcOf) ∧ s.expired p = false ∧ p.op ≠ opAck
      ∧ s.streamOf p = some r ∧ p.rlx = (s.half r).rlx ∧ y = { (s.half r).rx with peer := p.srcDn } ∧ y.fail = false ∧ p.seq = y.e ∧
      y.marked p.seq = false ∧ 0 < s.fd F.SLD_WINDOW_W ∧ s.nextReady = none ∧ y.releasable (s.half r).rlx s.strictDepth p = true ∧
      selfConsumed p = true ∧ y.consumed = []) ∧
    (∃ (s : State) (port : Nat) (r : Nat) (x : RPkt) (rest : List (Nat × RPkt)) (t : State) (p : Packet) (y : Stream) (pl : Place) (rs :
      Bool), s.adapterHalted = false ∧ SMap.wf Half.init s.net.halves = true ∧ s.route.arrivals = (port, x) :: rest ∧ p = x.pkt ∧ t = ({ s
      with route := { s.route with arrivals := rest } }.freeAll x.cred).setRx r y ∧ (128 ≤ port ∨ p.ecrc = p.ecrcOf) ∧ s.expired p = false ∧
      p.op ≠ opAck ∧ s.streamOf p = some r ∧ p.rlx = (s.half r).rlx ∧ y = { (s.half r).rx with peer := p.srcDn } ∧ y.fail = false ∧ (p.seq -
      y.e).toNat < 2 ^ 31 ∧ y.marked p.seq = false ∧ (p.seq - y.e).toNat < s.fd F.SLD_WINDOW_W ∧ (p.seq = y.e ∨ y.ctx = true ∨ s.ctxUsed <
      65536) ∧ y.turn (s.half r).rlx p = false ∧ s.placeFor { s.half r with rx := y } p false = .at_ pl rs) ∧
    (∃ (s : State) (port : Nat) (r : Nat) (x : RPkt) (rest : List (Nat × RPkt)) (t : State) (p : Packet) (y : Stream) (cnt : RegDesc),
      s.adapterHalted = false ∧ SMap.wf Half.init s.net.halves = true ∧ s.route.arrivals = (port, x) :: rest ∧ p = x.pkt ∧ t = ({ s with
      route := { s.route with arrivals := rest } }.freeAll x.cred).setRx r y ∧ (128 ≤ port ∨ p.ecrc = p.ecrcOf) ∧ s.expired p = false ∧ p.op
      ≠ opAck ∧ s.streamOf p = some r ∧ p.rlx = (s.half r).rlx ∧ y = { (s.half r).rx with peer := p.srcDn } ∧ y.fail = false ∧ (p.seq -
      y.e).toNat < 2 ^ 31 ∧ y.marked p.seq = false ∧ (p.seq - y.e).toNat < s.fd F.SLD_WINDOW_W ∧ (p.seq = y.e ∨ y.ctx = true ∨ s.ctxUsed <
      65536) ∧ y.turn (s.half r).rlx p = false ∧ s.placeFor { s.half r with rx := y } p false = .refuse cnt) ∧
    (∃ (s : State) (r : Nat) (ref : Nat) (x : Held), (s.nextHeld (s.half r) = some x ∧ s.adapterHalted = false ∧ s.heldStale x = none ∧
      selfConsumed x.pkt = false ∧ s.freeRef (r / 16384) = some ref ∧ ((s.half r).isRed x.pkt = true ∨ s.wfRoom (4 * (r / 16384) + (s.half
      r).fifo) false 2 = true)) ∧ (∀ e ∈ s.net.halves, ∀ y, e.1 ≠ r → s.nextHeld (s.half e.1) = some y → x.readyOrder ≤ y.readyOrder)) ∧
    (∃ (s : State) (r : Nat) (x : Held) (cnt : RegDesc), (s.nextHeld (s.half r) = some x ∧ s.adapterHalted = false ∧ s.heldStale x = some
      cnt) ∧ (∀ e ∈ s.net.halves, ∀ y, e.1 ≠ r → s.nextHeld (s.half e.1) = some y → x.readyOrder ≤ y.readyOrder)) :=
  ⟨⟨(slJ { slP with seq := 0x7FFFFFFF } id), 128, 3, (rp { slP with seq := 0x7FFFFFFF }), [], (slF (slJ { slP with seq := 0x7FFFFFFF } id) (rp { slP with seq := 0x7FFFFFFF })).setRx 3 (slYp (slJ { slP with seq := 0x7FFFFFFF } id) { slP with seq := 0x7FFFFFFF }), { slP with seq := 0x7FFFFFFF }, slYp (slJ { slP with seq := 0x7FFFFFFF } id) { slP with seq := 0x7FFFFFFF }, by decide +kernel⟩,
   ⟨slC, 128, 3, rp slP2, [], (slF slC (rp slP2)).setRx 3 (slYp slC slP2), slP2, slYp slC slP2, by decide +kernel, slC_wf, by decide +kernel, rfl, rfl, by decide +kernel, by decide +kernel, by decide +kernel, by decide +kernel, by decide +kernel, rfl, by decide +kernel, by decide +kernel, by decide +kernel, by decide +kernel, by decide +kernel, by decide +kernel, slC_full⟩,
   ⟨slJ slP id, 128, 3, rp slP, [], (slF (slJ slP id) (rp slP)).setRx 3 (slYp (slJ slP id) slP), slP, slYp (slJ slP id) slP, 0, by decide +kernel⟩,
   ⟨(slJ { slP with void := true, payload := [] } id), 128, 3, (rp { slP with void := true, payload := [] }), [], (slF (slJ { slP with void := true, payload := [] } id) (rp { slP with void := true, payload := [] })).setRx 3 (slYp (slJ { slP with void := true, payload := [] } id) { slP with void := true, payload := [] }), { slP with void := true, payload := [] }, slYp (slJ { slP with void := true, payload := [] } id) { slP with void := true, payload := [] }, by decide +kernel⟩,
   ⟨(slJ { slP with seq := 6 } id), 128, 3, (rp { slP with seq := 6 }), [], (slF (slJ { slP with seq := 6 } id) (rp { slP with seq := 6 })).setRx 3 (slYp (slJ { slP with seq := 6 } id) { slP with seq := 6 }), { slP with seq := 6 }, slYp (slJ { slP with seq := 6 } id) { slP with seq := 6 }, .onDie, false, by decide +kernel⟩,
   ⟨(slB { slP with seq := 6 }).fw F.SLD_STORE_CFG_CTX_MAX [] 0, 128, 3, (rp { slP with seq := 6 }), [], (slF ((slB { slP with seq := 6 }).fw F.SLD_STORE_CFG_CTX_MAX [] 0) (rp { slP with seq := 6 })).setRx 3 (slYp ((slB { slP with seq := 6 }).fw F.SLD_STORE_CFG_CTX_MAX [] 0) { slP with seq := 6 }), { slP with seq := 6 }, slYp ((slB { slP with seq := 6 }).fw F.SLD_STORE_CFG_CTX_MAX [] 0) { slP with seq := 6 }, R.SLD_REFUSE_STORE_COUNT, by decide +kernel⟩,
   ⟨slH slP .onDie, 3, 0, hd slP .onDie, by decide +kernel, fun e he y hn hy => (by decide +kernel : ∀ e ∈ ((slH slP .onDie)).net.halves, e.1 ≠ 3 → ((((slH slP .onDie)).nextHeld (((slH slP .onDie)).half e.1)).all fun y => decide (((hd slP .onDie)).readyOrder ≤ y.readyOrder)) = true) e he hn |> fun h => of_all h y hy⟩,
   ⟨(slH { slP with stamp := 2 ^ 40 } .onDie), 3, (hd { slP with stamp := 2 ^ 40 } .onDie), R.SLD_FUTURE_COUNT, by decide +kernel, fun e he y hn hy => (by decide +kernel : ∀ e ∈ ((slH { slP with stamp := 2 ^ 40 } .onDie)).net.halves, e.1 ≠ 3 → ((((slH { slP with stamp := 2 ^ 40 } .onDie)).nextHeld (((slH { slP with stamp := 2 ^ 40 } .onDie)).half e.1)).all fun y => decide (((hd { slP with stamp := 2 ^ 40 } .onDie)).readyOrder ≤ y.readyOrder)) = true) e he hn |> fun h => of_all h y hy⟩⟩
theorem witness_SolderStreams_3 :
    (∃ (s : State), s.adapterHalted = false) ∧
    (∃ (s : State) (r : Nat) (n : Nat) (x : Held) (res : Bool), s.inSafe = false ∧ (s.half r).rx.held.find? (fun y => y.pkt.seq ==
      BitVec.ofNat 32 n && y.place == .spill) = some x ∧ (x.pkt.seq - (if (s.half r).rlx = true then (s.half r).rx.e else (s.half
      r).rx.nr)).toNat < s.fd F.SLD_CFG_PREFETCH ∧ s.onDieRoom x.pkt.cells true = some res) ∧
    (∃ (s : State) (r : Nat) (n : Nat) (x : Held), s.inSafe = false ∧ (s.half r).rx.held.find? (fun y => y.pkt.seq == BitVec.ofNat 32 n &&
      y.place == .readBack) = some x ∧ s.heldStale x = none) ∧
    (∃ (s : State) (r : Nat) (n : Nat) (x : Held) (cnt : RegDesc), s.inSafe = false ∧ (s.half r).rx.held.find? (fun y => y.pkt.seq ==
      BitVec.ofNat 32 n && y.place == .readBack) = some x ∧ s.heldStale x = some cnt) :=
  ⟨⟨slH slP .onDie, by decide +kernel⟩,
   ⟨(slH {slP with seq := 6} .spill), 3, 6, (hd {slP with seq := 6} .spill), false, by decide +kernel⟩,
   ⟨(slH {slP with seq := 6} .readBack), 3, 6, (hd {slP with seq := 6} .readBack), by decide +kernel⟩,
   ⟨(slH { slP with seq := 6, stamp := 2 ^ 40 } .readBack), 3, 6, (hd { slP with seq := 6, stamp := 2 ^ 40 } .readBack), R.SLD_FUTURE_COUNT, by decide +kernel⟩⟩
theorem witness_LinkTraining_1 :
    (∃ (s : State) (path : Path) (p : Nat) (v : Word), s.mayWrite path (R.LNK_CTRL.addr [p]) = true ∧ p < s.portCount ∧ bitW v 0 = true ∧
      (s.port p).st = .disabled ∧ (s.port p).retired = false) ∧
    (∃ (s : State) (path : Path) (p : Nat) (v : Word), s.mayWrite path (R.LNK_CTRL.addr [p]) = true ∧ p < s.portCount ∧ bitW v 0 = false) ∧
    (∃ (s : State) (path : Path) (p : Nat) (v : Word), s.mayWrite path (R.LNK_CTRL.addr [p]) = true ∧ p < s.portCount ∧ bitW v 0 = true ∧
      bitW v 1 = true ∧ (s.port p).st = .active) ∧
    (∃ (s : State) (p : Nat) (l : Nat), p < s.portCount ∧ l < 2 ∧ s.parked = false ∧ s.laneEnabled p l = true ∧ ((s.port p).st = .detect ∨
      (s.port p).st = .quiet)) ∧
    (∃ (s : State) (p : Nat) (l : Nat), p < s.portCount ∧ l < 2 ∧ s.parked = false ∧ s.laneEnabled p l = true ∧ ((s.port p).st = .detect ∨
      (s.port p).st = .quiet)) ∧
    (∃ (s : State) (p : Nat) (c : Instr), (s.port p).st = .detect ∧ s.fb F.LNK_CTRL_ENABLE [p] = true ∧ ((s.lane p 0).retired = false ∨
      (s.lane p 1).retired = false) ∧ s.fd F.LANE_TRAIN_CFG_RETRY_WAIT * 1000 * ticksPerUs ≤ s.locSince (s.port p).since ∧ c = .retryWait p) ∧
    (∃ (s : State) (p : Nat) (l : Nat) (f : TsFrame), p < s.portCount ∧ l < 2 ∧ s.parked = false ∧ s.laneEnabled p l = true ∧ (s.port p).st
      ∈ [LState.detect, .train, .config, .faulted, .quiet] ∧ f.ok = true ∧ f.ty = 1) ∧
    (∃ (s : State) (p : Nat) (l : Nat) (f : TsFrame), p < s.portCount ∧ l < 2 ∧ s.parked = false ∧ s.laneEnabled p l = true ∧ (s.port p).st
      ∈ [LState.detect, .train, .config, .faulted, .quiet] ∧ f.ok = true ∧ f.ty = 1) :=
  ⟨⟨pt .disabled id (code up), .near 5, 3, 3, by decide +kernel⟩,
   ⟨pt .active id (code up), .near 5, 3, 2, by decide +kernel⟩,
   ⟨pt .active id (code up), .near 5, 3, 3, by decide +kernel⟩,
   ⟨pt .detect id up, 3, 1, by decide +kernel⟩,
   ⟨pt .quiet id up, 3, 0, by decide +kernel⟩,
   ⟨at_ 400000000000 (pt .detect id up), 3, .retryWait 3, by decide +kernel⟩,
   ⟨pt .detect id up, 3, 0, ts 1, by decide +kernel⟩,
   ⟨pt .train id up, 3, 0, ts 1, by decide +kernel⟩⟩
theorem witness_LinkTraining_2 :
    (∃ (s : State) (p : Nat) (l : Nat) (f : TsFrame), p < s.portCount ∧ l < 2 ∧ s.parked = false ∧ s.laneEnabled p l = true ∧ (s.port p).st
      ∈ [LState.detect, .train, .config, .faulted, .quiet] ∧ f.ok = true ∧ f.ty = 1) ∧
    (∃ (s : State) (p : Nat) (l : Nat) (f : TsFrame), p < s.portCount ∧ l < 2 ∧ s.parked = false ∧ s.laneEnabled p l = true ∧ (s.port p).st
      ∈ [LState.detect, .train, .config, .faulted, .quiet] ∧ f.ok = true ∧ f.ty = 1) ∧
    (∃ (s : State) (p : Nat) (l : Nat) (w : Nat) (f : TsFrame), (s.port p).st = .config ∧ l < 2 ∧ s.laneEnabled p l = true ∧ f.ok = true ∧
      f.ty = 2 ∧ w = (if f.lane = l then f.lanes else f.lanes % 2 * 2 + f.lanes / 2) ∧ (s.fb F.PORT_EXPECT_EN [p] = true → s.fd
      F.PORT_EXPECT_DN [p] = f.dn ∧ s.fd F.PORT_EXPECT_PORT [p] = f.port) ∧ (s.port p).cfg.rates &&& f.rates ≠ 0 ∧ (s.port p).cfg.lanes &&&
      w ≠ 0) ∧
    (∃ (s : State) (p : Nat) (l : Nat) (w : Nat) (f : TsFrame), (s.port p).st = .config ∧ l < 2 ∧ s.laneEnabled p l = true ∧ f.ok = true ∧
      f.ty = 2 ∧ w = (if f.lane = l then f.lanes else f.lanes % 2 * 2 + f.lanes / 2) ∧ (s.fb F.PORT_EXPECT_EN [p] = true → s.fd
      F.PORT_EXPECT_DN [p] = f.dn ∧ s.fd F.PORT_EXPECT_PORT [p] = f.port) ∧ (s.port p).cfg.rates &&& f.rates ≠ 0 ∧ (s.port p).cfg.lanes &&&
      w ≠ 0) ∧
    (∃ (s : State) (p : Nat) (l : Nat) (w : Nat) (f : TsFrame), (s.port p).st = .config ∧ l < 2 ∧ s.laneEnabled p l = true ∧ f.ok = true ∧
      f.ty = 2 ∧ w = (if f.lane = l then f.lanes else f.lanes % 2 * 2 + f.lanes / 2) ∧ (s.fb F.PORT_EXPECT_EN [p] = true → s.fd
      F.PORT_EXPECT_DN [p] = f.dn ∧ s.fd F.PORT_EXPECT_PORT [p] = f.port) ∧ (s.port p).cfg.rates &&& f.rates ≠ 0 ∧ (s.port p).cfg.lanes &&&
      w ≠ 0) ∧
    (∃ (s : State) (p : Nat) (l : Nat) (f : TsFrame), (s.port p).st = .config ∧ l < 2 ∧ s.laneEnabled p l = true ∧ f.ok = true ∧ f.ty = 2 ∧
      s.fb F.PORT_EXPECT_EN [p] = true ∧ (s.fd F.PORT_EXPECT_DN [p] ≠ f.dn ∨ s.fd F.PORT_EXPECT_PORT [p] ≠ f.port)) ∧
    (∃ (s : State) (p : Nat) (l : Nat) (w : Nat) (f : TsFrame), (s.port p).st = .config ∧ l < 2 ∧ s.laneEnabled p l = true ∧ f.ok = true ∧
      f.ty = 2 ∧ w = (if f.lane = l then f.lanes else f.lanes % 2 * 2 + f.lanes / 2) ∧ ((s.port p).cfg.rates &&& f.rates = 0 ∨ (s.port
      p).cfg.lanes &&& w = 0)) ∧
    (∃ (s : State) (p : Nat) (l : Nat) (w : Nat) (f : TsFrame), (s.port p).st = .config ∧ l < 2 ∧ s.laneEnabled p l = true ∧ f.ok = true ∧
      f.ty = 2 ∧ w = (if f.lane = l then f.lanes else f.lanes % 2 * 2 + f.lanes / 2) ∧ ((s.port p).cfg.rates &&& f.rates = 0 ∨ (s.port
      p).cfg.lanes &&& w = 0)) :=
  ⟨⟨pt .faulted id up, 3, 0, ts 1, by decide +kernel⟩,
   ⟨pt .quiet id up, 3, 0, ts 1, by decide +kernel⟩,
   ⟨pt .config pcfg up, 3, 1, 3, ts 2, by decide +kernel⟩,
   ⟨pt .config pcfg up, 3, 0, 1, (tsOf { tsb 2 with lanes := 2 }), by decide +kernel⟩,
   ⟨(pt .config pcfg up).fset F.PORT_EXPECT_EN [3] true |>.fw F.PORT_EXPECT_DN [3] 5 |>.fw F.PORT_EXPECT_PORT [3] 6, 3, 1, 3, ts 2, by decide +kernel⟩,
   ⟨(pt .config pcfg up).fset F.PORT_EXPECT_EN [3] true, 3, 1, ts 2, by decide +kernel⟩,
   ⟨pt .config pcfg up, 3, 1, 3, (tsOf { tsb 2 with rates := 0 }), by decide +kernel⟩,
   ⟨pt .config (fun x => { pcfg x with cfg := { (pcfg x).cfg with lanes := 2 } }) up, 3, 0, 1, (tsOf { tsb 2 with lanes := 2 }), by decide +kernel⟩⟩
theorem witness_LinkTraining_3 :
    (∃ (s : State) (p : Nat) (rates : Nat) (lanes : Nat), (s.port p).st = .config ∧ 8 ≤ (s.port p).cfg.ts2 ∧ rates = (s.port p).cfg.rates
      &&& (s.port p).cfg.peerRates ∧ lanes = (s.port p).cfg.lanes &&& (s.port p).cfg.peerLanes ∧ rates ≠ 0 ∧ lanes ≠ 0) ∧
    (∃ (s : State) (p : Nat) (f : TsFrame), ((s.port p).st = .config ∨ (s.port p).st = .lock) ∧ f.ok = true ∧ f.ty = 3 ∧ f.count = 0) ∧
    (∃ (s : State) (p : Nat) (f : TsFrame), ((s.port p).st = .config ∨ (s.port p).st = .lock) ∧ f.ok = true ∧ f.ty = 3 ∧ f.count = 0) ∧
    (∃ (s : State) (p : Nat), (s.port p).st = .lock ∧ 4 ≤ (s.port p).rx.cwRun ∧ 8 ≤ (s.port p).rx.okRun) :=
  ⟨⟨pt .config pcfg up, 3, 2, 1, by decide +kernel⟩,
   ⟨pt .config id up, 3, ts 3, by decide +kernel⟩,
   ⟨pt .lock id up, 3, ts 3, by decide +kernel⟩,
   ⟨pt .lock (fun x => { pcfg x with rx := { x.rx with cwRun := 4, okRun := 8 } }) up, 3, by decide +kernel⟩⟩
theorem witness_LinkFailures_1 :
    (∃ (s : State) (p : Nat), (s.port p).st = .config ∧ 100 * ticksPerUs ≤ s.locSince (s.port p).since) ∧
    (∃ (s : State) (p : Nat), (s.port p).st = .lock ∧ 1000 * ticksPerUs ≤ s.locSince (s.port p).since) ∧
    (∃ (s : State) (p : Nat), (s.port p).st = .train ∧ 300 * ticksPerUs + s.fd F.LANE_TRAIN_CFG_EQ_BUDGET * 1000 * ticksPerUs ≤ s.locSince
      (s.port p).since ∧ (∀ l ∈ s.usableLanes p, (s.lane p l).trained = false ∧ (s.lane p l).signal = false)) ∧
    (∃ (s : State) (p : Nat) (ls : List Nat), (s.port p).st = .train ∧ 300 * ticksPerUs + s.fd F.LANE_TRAIN_CFG_EQ_BUDGET * 1000 *
      ticksPerUs ≤ s.locSince (s.port p).since ∧ ls = (s.usableLanes p).filter (fun l => (s.lane p l).trained) ∧ ls ≠ [] ∧ (∀ l ∈
      s.usableLanes p, (s.lane p l).trained = true ∨ (s.lane p l).signal = false)) ∧
    (∃ (s : State) (p : Nat), (s.port p).st = .active ∧ 16 ≤ (s.port p).rx.failRun) ∧
    (∃ (s : State) (p : Nat), (s.port p).st = .active) ∧
    (∃ (s : State) (p : Nat), (s.port p).st = .active) ∧
    (∃ (s : State) (p : Nat), (s.port p).st = .quiet ∧ s.parked = false ∧ s.fb F.LNK_CTRL_ENABLE [p] = true ∧ (s.port p).waking = none) :=
  ⟨⟨at_ 400000 (pt .config id up), 3, by decide +kernel⟩,
   ⟨at_ 4000000 (pt .lock id up), 3, by decide +kernel⟩,
   ⟨at_ 400000000000000 (pt .train id up), 3, by decide +kernel⟩,
   ⟨at_ 400000000000000 ((pt .train id up).setLane 3 1 { Lane.init with run := 8, sentReady := 8, signal := true }), 3, [1], by decide +kernel⟩,
   ⟨pt .active (fun x => { x with rx := { x.rx with failRun := 16 } }) up, 3, by decide +kernel⟩,
   ⟨pt .active id up, 3, by decide +kernel⟩,
   ⟨pt .active id up, 3, by decide +kernel⟩,
   ⟨pt .quiet id up, 3, by decide +kernel⟩⟩
theorem witness_LinkFailures_2 :
    (∃ (s : State) (p : Nat) (t : Word), (s.port p).waking = some t ∧ 10000 * ticksPerUs ≤ s.locSince t) ∧
    (∃ (s : State) (p : Nat) (c : SentCell) (cs : List SentCell), (s.port p).st = .active ∧ (s.port p).tx.store = c :: cs ∧ s.replayTicks p
      ≤ s.locSince (s.port p).tx.progAt) ∧
    (∃ (s : State) (p : Nat) (c : SentCell) (cs : List SentCell), (s.port p).st = .active ∧ (s.port p).tx.store = c :: cs ∧ s.replayTicks p
      ≤ s.locSince (s.port p).tx.progAt) :=
  ⟨⟨at_ 40000000 (pt .quiet (fun x => { x with waking := some 0 }) up), 3, 0, by decide +kernel⟩,
   ⟨at_ 40000000000000 (pt .active (atx (fun t => { t with store := [sc 4] })) up), 3, sc 4, [], by decide +kernel⟩,
   ⟨at_ 40000000000000 (pt .active (atx (fun t => { t with store := [sc 4], noProg := 255 })) up), 3, sc 4, [], by decide +kernel⟩⟩
theorem witness_SlotsReceived_1 :
    (∃ (s : State) (t : State) (p : Nat) (cws : List Codeword) (f : Slot) (pk : Packet), (s.port p).st = .active ∧ (s.port p).rx.framed =
      true ∧ s.inSafe = false ∧ s.slotFrom p cws = (some f, t) ∧ f.ok = true ∧ f.ctype = 4 ∧ f.nak = false ∧ f.lseq = (s.port p).rx.x ∧
      (s.port p).rx.asm = none ∧ pk = packetOf (byteSlice f.body 0 256) ∧ pk.headOk = true ∧ pk.hc = f.chc ∧ pk.cells = 1) ∧
    (∃ (s : State) (t : State) (p : Nat) (cws : List Codeword) (f : Slot), (s.port p).st = .active ∧ (s.port p).rx.framed = true ∧ s.inSafe
      = false ∧ s.slotFrom p cws = (some f, t) ∧ f.ok = true ∧ f.ctype = 1 ∧ f.nak = false ∧ f.lseq = (s.port p).rx.x ∧ (s.port p).rx.asm =
      none) ∧
    (∃ (s : State) (t : State) (p : Nat) (cws : List Codeword) (f : Slot) (a : Assembly), (s.port p).st = .active ∧ (s.port p).rx.framed =
      true ∧ s.inSafe = false ∧ s.slotFrom p cws = (some f, t) ∧ f.ok = true ∧ f.ctype = 2 ∧ f.nak = false ∧ f.lseq = (s.port p).rx.x ∧
      (s.port p).rx.asm = some a ∧ a.bad = false ∧ a.cells < 17 ∧ f.chc = a.hc) ∧
    (∃ (s : State) (t : State) (p : Nat) (cws : List Codeword) (f : Slot) (a : Assembly) (pk : Packet), (s.port p).st = .active ∧ (s.port
      p).rx.framed = true ∧ s.inSafe = false ∧ s.slotFrom p cws = (some f, t) ∧ f.ok = true ∧ f.ctype = 3 ∧ f.nak = false ∧ f.lseq = (s.port
      p).rx.x ∧ (s.port p).rx.asm = some a ∧ a.bad = false ∧ a.cells < 17 ∧ f.chc = a.hc ∧ pk = packetOf (a.bytes ++ byteSlice f.body 0 256)
      ∧ pk.headOk = true ∧ pk.hc = a.hc ∧ pk.cells = a.cells + 1) ∧
    (∃ (s : State) (t : State) (p : Nat) (cws : List Codeword) (f : Slot), (s.port p).st = .active ∧ (s.port p).rx.framed = true ∧ s.inSafe
      = false ∧ s.slotFrom p cws = (some f, t) ∧ f.ok = true ∧ 1 ≤ f.ctype ∧ f.ctype ≤ 4 ∧ f.nak = false ∧ f.lseq ≠ (s.port p).rx.x) ∧
    (∃ (s : State) (t : State) (p : Nat) (cws : List Codeword) (f : Slot), (s.port p).st = .active ∧ (s.port p).rx.framed = true ∧ s.inSafe
      = false ∧ s.slotFrom p cws = (some f, t) ∧ f.ok = false) ∧
    (∃ (s : State) (t : State) (p : Nat) (cws : List Codeword) (f : Slot), (s.port p).st = .active ∧ (s.port p).rx.framed = true ∧ s.inSafe
      = false ∧ s.slotFrom p cws = (some f, t) ∧ f.ok = true ∧ f.ctype = 8 ∧ f.nak = false ∧ leAt f.body 0 1 ≤ 3) ∧
    (∃ (s : State) (t : State) (p : Nat) (cws : List Codeword) (f : Slot) (x : LinkTx), (s.port p).st = .active ∧ (s.port p).rx.framed =
      true ∧ s.inSafe = false ∧ s.slotFrom p cws = (some f, t) ∧ f.ok = true ∧ f.ctype = 8 ∧ f.nak = true ∧ leAt f.body 0 1 ≤ 3 ∧ x =
      (((s.port p).tx.credited f.cra).credited f.crb).acked f.lack s.loc ∧ x.store ≠ [] ∧ x.lastStart = none ∧ x.noProg < (s.port
      p).cfg.replayMax) :=
  ⟨⟨rcvd (slt 4 0 onePk) id, lnd (rcvd (slt 4 0 onePk) id), 3, [], slt 4 0 onePk, packetOf (byteSlice (slt 4 0 onePk).body 0 256), by decide +kernel⟩,
   ⟨rcvd (slt 1 0 (byteSlice bigP.bytes 0 256)) id, lnd (rcvd (slt 1 0 (byteSlice bigP.bytes 0 256)) id), 3, [], slt 1 0 (byteSlice bigP.bytes 0 256), by decide +kernel⟩,
   ⟨rcvd (slt 2 0 (byteSlice bigP.bytes 0 256)) (fun x => { x with rx := { x.rx with asm := some (asm1 bigP 1) } }), lnd (rcvd (slt 2 0 (byteSlice bigP.bytes 0 256)) (fun x => { x with rx := { x.rx with asm := some (asm1 bigP 1) } })), 3, [], slt 2 0 (byteSlice bigP.bytes 0 256), asm1 bigP 1, by decide +kernel⟩,
   ⟨rcvd (slt 3 0 (byteSlice (bigP.bytes ++ zeroBytes 512) 256 256)) (fun x => { x with rx := { x.rx with asm := some (asm1 bigP 1) } }), lnd (rcvd (slt 3 0 (byteSlice (bigP.bytes ++ zeroBytes 512) 256 256)) (fun x => { x with rx := { x.rx with asm := some (asm1 bigP 1) } })), 3, [], slt 3 0 (byteSlice (bigP.bytes ++ zeroBytes 512) 256 256), asm1 bigP 1, packetOf ((asm1 bigP 1).bytes ++ byteSlice (slt 3 0 (byteSlice (bigP.bytes ++ zeroBytes 512) 256 256)).body 0 256), by decide +kernel⟩,
   ⟨rcvd (slt 4 7 onePk) id, lnd (rcvd (slt 4 7 onePk) id), 3, [], slt 4 7 onePk, by decide +kernel⟩,
   ⟨(rcvd { slt 4 0 onePk with ok := false } id), lnd (rcvd { slt 4 0 onePk with ok := false } id), 3, [], { slt 4 0 onePk with ok := false }, by decide +kernel⟩,
   ⟨rcvd (slt 8 0 (zeroBytes 256)) id, lnd (rcvd (slt 8 0 (zeroBytes 256)) id), 3, [], slt 8 0 (zeroBytes 256), by decide +kernel⟩,
   ⟨rcvd { slt 8 0 (zeroBytes 256) with nak := true } (fun x => { x with tx := { x.tx with store := [sc 0, sc 1] } }), lnd (rcvd { slt 8 0 (zeroBytes 256) with nak := true } (fun x => { x with tx := { x.tx with store := [sc 0, sc 1] } })), 3, [], { slt 8 0 (zeroBytes 256) with nak := true }, ((((rcvd { slt 8 0 (zeroBytes 256) with nak := true } (fun x => { x with tx := { x.tx with store := [sc 0, sc 1] } })).port 3).tx.credited { slt 8 0 (zeroBytes 256) with nak := true }.cra).credited { slt 8 0 (zeroBytes 256) with nak := true }.crb).acked 4095 0, by decide +kernel⟩⟩
theorem witness_SlotsReceived_2 :
    (∃ (s : State) (t : State) (p : Nat) (cws : List Codeword) (f : Slot), (s.port p).st = .active ∧ (s.port p).rx.framed = true ∧ s.inSafe
      = false ∧ s.slotFrom p cws = (some f, t) ∧ f.ok = true ∧ f.ctype = 8 ∧ f.nak = false ∧ leAt f.body 0 1 = 4) ∧
    (∃ (s : State) (t : State) (p : Nat) (cws : List Codeword) (f : Slot), (s.port p).st = .active ∧ (s.port p).rx.framed = true ∧ s.inSafe
      = false ∧ s.slotFrom p cws = (some f, t) ∧ f.ok = true ∧ f.ctype = 8 ∧ f.nak = false ∧ leAt f.body 0 1 = 4) ∧
    (∃ (s : State) (t : State) (p : Nat) (cws : List Codeword) (f : Slot), (s.port p).st = .active ∧ (s.port p).rx.framed = true ∧ s.inSafe
      = false ∧ s.slotFrom p cws = (some f, t) ∧ f.ok = true ∧ f.ctype = 8 ∧ f.nak = false ∧ leAt f.body 0 1 = 5) ∧
    (∃ (s : State) (t : State) (p : Nat) (cws : List Codeword) (f : Slot), (s.port p).st = .lock ∧ (s.port p).rx.framed = true ∧ s.inSafe =
      false ∧ s.slotFrom p cws = (some f, t) ∧ f.ok = true ∧ ctypeOk f.ctype = true) ∧
    (∃ (s : State) (t : State) (p : Nat) (cws : List Codeword), ((s.port p).st = .active ∨ (s.port p).st = .lock) ∧ (s.port p).rx.framed =
      true ∧ s.inSafe = false ∧ s.slotFrom p cws = (none, t)) ∧
    (∃ (s : State) (p : Nat), (s.inSafe = true ∨ (s.port p).rx.framed = false ∨ ((s.port p).st ≠ .active ∧ (s.port p).st ≠ .lock))) ∧
    (∃ (s : State) (p : Nat), (s.inSafe = true ∨ (s.port p).rx.framed = false ∨ ((s.port p).st ≠ .active ∧ (s.port p).st ≠ .lock))) ∧
    (∃ (s : State) (p : Nat), (s.inSafe = true ∨ (s.port p).rx.framed = false ∨ ((s.port p).st ≠ .active ∧ (s.port p).st ≠ .lock))) :=
  ⟨⟨rcvd (slt 8 0 (4 :: zeroBytes 255)) id, lnd (rcvd (slt 8 0 (4 :: zeroBytes 255)) id), 3, [], slt 8 0 (4 :: zeroBytes 255), by decide +kernel⟩,
   ⟨rcvd (slt 8 0 (4 :: zeroBytes 255)) (fun x => { x with rx := { x.rx with faultSeen := true } }), lnd (rcvd (slt 8 0 (4 :: zeroBytes 255)) (fun x => { x with rx := { x.rx with faultSeen := true } })), 3, [], slt 8 0 (4 :: zeroBytes 255), by decide +kernel⟩,
   ⟨rcvd (slt 8 0 (5 :: zeroBytes 255)) id, lnd (rcvd (slt 8 0 (5 :: zeroBytes 255)) id), 3, [], slt 8 0 (5 :: zeroBytes 255), by decide +kernel⟩,
   ⟨rcvd (slt 8 0 (zeroBytes 256)) (fun x => { x with st := .lock }), lnd (rcvd (slt 8 0 (zeroBytes 256)) (fun x => { x with st := .lock })), 3, [], slt 8 0 (zeroBytes 256), by decide +kernel⟩,
   ⟨pt .active arx up, lnd (pt .active arx up), 3, [], by decide +kernel⟩,
   ⟨pt .active id up, 3, by decide +kernel⟩,
   ⟨pt .config arx up, 3, by decide +kernel⟩,
   ⟨(let s := rcvd (slt 8 0 (zeroBytes 256)) id; { s with tgf := { s.tgf with safe := some 0 } }), 3, by decide +kernel⟩⟩
theorem witness_SlotsReceived_3 :
    (∃ (x : LinkTx) (k : Nat) (n : Nat), k < 8 ∧ n < 4096 ∧ x.ded.length = 8 ∧ x.seen.length = 9) ∧
    (∃ (x : LinkTx) (c : SentCell) (cs : List SentCell) (lack : Nat), x.store = c :: cs ∧ lack < 4096 ∧ c.lseq < 4096 ∧ (lack + 4097 -
      c.lseq) % 4096 ≤ x.store.length ∧ (lack + 4097 - c.lseq) % 4096 ≠ 0) :=
  ⟨⟨{ LinkTx.init with ded := List.replicate 8 64, seen := 4090 :: List.replicate 8 0 }, 0, 4, by decide +kernel⟩,
   ⟨{ LinkTx.init with store := [sc 4095, sc 0, sc 1] }, sc 4095, [sc 0, sc 1], 0, by decide +kernel⟩⟩
theorem witness_SlotsSent_1 :
    (∃ (s : State) (p : Nat) (c : SentCell) (cs : List SentCell), (s.port p).st = .active ∧ s.tgf.txOff = false ∧ s.inSafe = false ∧ (s.port
      p).tx.replay = c :: cs) ∧
    (∃ (s : State) (p : Nat) (f : InFlight), (s.port p).st = .active ∧ s.tgf.txOff = false ∧ s.inSafe = false ∧ (s.port p).tx.replay = [] ∧
      (s.port p).tx.store.length < (s.port p).window ∧ (s.port p).tx.cur = some f) ∧
    (∃ (s : State) (p : Nat) (k : Nat) (e : EgrPkt) (rest : List Head), (s.port p).st = .active ∧ s.tgf.txOff = false ∧ s.inSafe = false ∧
      (s.port p).tx.replay = [] ∧ (s.port p).tx.store.length < (s.port p).window ∧ (s.port p).tx.cur = none ∧ (s.port p).heads 7 = (k, e) ::
      rest ∧ tokensOf e.cells ≤ (s.port p).sch.tc7) ∧
    (∃ (s : State) (p : Nat), (s.port p).st = .active ∧ s.tgf.txOff = false ∧ s.inSafe = false ∧ (s.port p).tx.replay = [] ∧ (s.port
      p).tx.cur = none ∧ (s.port p).tx.queues = []) ∧
    (∃ (s : State) (p : Nat), (s.port p).st = .active ∧ s.tgf.txOff = false ∧ s.inSafe = true) ∧
    (∃ (s : State) (p : Nat), (s.port p).st = .lock ∧ s.tgf.txOff = false ∧ s.inSafe = false) ∧
    (∃ (f : Slot), f.ok = true ∧ f.lseq < 4096 ∧ f.ctype < 16 ∧ f.lack < 4096 ∧ f.chc < 8 ∧ f.cra < 2 ^ 16 ∧ f.crb < 2 ^ 16 ∧ f.body.length
      = 256) ∧
    (∃ (x : TsBody) (f : TsFrame), x.ty < 256 ∧ x.port < 128 ∧ x.count < 256 ∧ x.dn < 2 ^ 17 ∧ x.min < 256 ∧ x.shared < 4096 ∧ f.levels =
      x.levels) :=
  ⟨⟨pt .active (atx (fun t => { t with replay := [sc 4] })) up, 3, sc 4, [], by decide +kernel⟩,
   ⟨pt .active (atx (fun t => { t with cur := some ⟨ep1, 0, 1, none⟩ })) up, 3, ⟨ep1, 0, 1, none⟩, by decide +kernel⟩,
   ⟨pt .active (fun x => { atx (fun t => { t with queues := [(56, [ep1])] }) x with sch := { x.sch with tc7 := 100000 } }) up, 3, 56, ep1, [], by decide +kernel⟩,
   ⟨pt .active (atx id) up, 3, by decide +kernel⟩,
   ⟨(let s := (pt .active (atx id) up); { s with tgf := { s.tgf with safe := some 0 } }), 3, by decide +kernel⟩,
   ⟨pt .lock (atx id) up, 3, by decide +kernel⟩,
   ⟨slt 4 7 onePk, by decide +kernel⟩,
   ⟨tsb 1, ts 1, by decide +kernel⟩⟩
theorem witness_SlotsSent_2 :
    (∃ (r : Nat), r < 2 ^ 58) ∧
    (∃ (x : Nat), x < 1024) ∧
    (∃ (a : List Nat) (b : List Nat), a.length = 272 ∧ b.length = 272) :=
  ⟨⟨0x3FFFFFFFFFFFFFF, by decide +kernel⟩,
   ⟨0x2A7, by decide +kernel⟩,
   ⟨List.replicate 272 5, List.replicate 272 7, by decide +kernel⟩⟩
theorem witness_TimeGates_1 :
    (∃ (s : State) (p : Nat), s.inSafe = false ∧ s.fb F.GATE_CTRL_EN [p] = false) ∧
    (∃ (s : State) (p : Nat) (base : Nat) (cycle : Nat) (r : Nat) (x : GateSeg), s.inSafe = false ∧ s.fb F.GATE_CTRL_EN [p] = true ∧
      s.ftValid = true ∧ (s.port p).sch.valid = true ∧ base = (s.rd R.GATE_ACT_BASE [p]).toNat ∧ cycle = (s.rd R.GATE_ACT_CYCLE [p]).toNat ∧
      base ≤ s.ft.toNat ∧ r = (s.ft.toNat - base) % cycle ∧ x ∈ s.gateSegs p ∧ x.lo ≤ r ∧ r < x.hi ∧ (∀ y ∈ s.gateSegs p, y.lo ≤ r → r <
      y.hi → y = x)) ∧
    (∃ (s : State) (p : Nat), s.inSafe = false ∧ s.fb F.GATE_CTRL_EN [p] = true ∧ (s.ftValid = false ∨ (s.port p).sch.valid = false)) ∧
    (∃ (s : State) (p : Nat), s.inSafe = false ∧ s.fb F.GATE_CTRL_EN [p] = true ∧ (s.ftValid = false ∨ (s.port p).sch.valid = false)) ∧
    (∃ (s : State) (path : Path) (p : Nat) (v : Word), s.mayWrite path (R.GATE_CTRL.addr [p]) = true ∧ p < s.portCount ∧ bitW v 31 = true ∧
      bitW v 30 = true ∧ bitW v 29 = false ∧ s.ftValid = true ∧ (s.port p).sch.armed = false ∧ s.ft.toNat + 40000 ≤ (s.rd R.GATE_PEND_BASE
      [p]).toNat) ∧
    (∃ (s : State) (path : Path) (p : Nat) (v : Word), s.mayWrite path (R.GATE_CTRL.addr [p]) = true ∧ p < s.portCount ∧ bitW v 30 = true ∧
      bitW v 29 = false ∧ (bitW v 31 = false ∨ s.ftValid = false ∨ (s.port p).sch.armed = true ∨ (s.rd R.GATE_PEND_BASE [p]).toNat <
      s.ft.toNat + 40000)) ∧
    (∃ (s : State) (path : Path) (p : Nat) (v : Word), s.mayWrite path (R.GATE_CTRL.addr [p]) = true ∧ p < s.portCount ∧ bitW v 30 = true ∧
      bitW v 29 = false ∧ (bitW v 31 = false ∨ s.ftValid = false ∨ (s.port p).sch.armed = true ∨ (s.rd R.GATE_PEND_BASE [p]).toNat <
      s.ft.toNat + 40000)) ∧
    (∃ (s : State) (path : Path) (p : Nat) (v : Word), s.mayWrite path (R.GATE_CTRL.addr [p]) = true ∧ p < s.portCount ∧ bitW v 30 = false ∧
      bitW v 29 = true) :=
  ⟨⟨up, 3, by decide +kernel⟩,
   ⟨gtS, 3, 1000000, 40000, 5, (gtS.gateSegs 3).getD 0 ⟨0,0,0,false,false⟩, by decide +kernel⟩,
   ⟨gt (fun x => { x with valid := false }) up, 3, by decide +kernel⟩,
   ⟨({ gt id up with inv := up.inv }), 3, by decide +kernel⟩,
   ⟨pend 1040005 (gt id (code up)), .near 5, 3, 0xC0000000, by decide +kernel⟩,
   ⟨pend 1040004 (gt id (code up)), .near 5, 3, 0xC0000000, by decide +kernel⟩,
   ⟨pend 1040005 (gt id (code up)), .near 5, 3, 0x40000000, by decide +kernel⟩,
   ⟨pend 1040005 (gt (fun x => { x with armed := true }) (code up)), .near 5, 3, 0x20000000, by decide +kernel⟩⟩
theorem witness_TimeGates_2 :
    (∃ (s : State) (p : Nat), s.inSafe = false ∧ p < s.portCount ∧ (s.port p).sch.armed = true ∧ s.ftValid = true ∧ s.ftReached (s.rd
      R.GATE_PEND_BASE [p]) = true) :=
  ⟨pend 1000005 (gt (fun x => { x with armed := true }) up), 3, by decide +kernel⟩
theorem witness_RateLimiters_1 :
    (∃ (s : State) (key : Nat) (k : Nat) (x : Lim), s.inSafe = false ∧ SMap.wf Lim.init s.lims = true ∧ k = s.loc.toNat / 256 - s.limRefill
      ∧ 0 < k ∧ x = s.lims.get Lim.init key ∧ x.next = none) ∧
    (∃ (s : State) (key : Nat) (k : Nat) (x : Lim) (w : Word), s.inSafe = false ∧ SMap.wf Lim.init s.lims = true ∧ k = s.loc.toNat / 256 -
      s.limRefill ∧ 0 < k ∧ x = s.lims.get Lim.init key ∧ x.next = some w ∧ x.wheel = none) ∧
    (∃ (s : State) (p : Nat) (k : Nat) (w : Word), s.inSafe = false ∧ k = s.loc.toNat / 256 - s.limRefill ∧ 0 < k ∧ p < s.portCount ∧ w =
      s.rd R.SCH_TC7_LIMIT [p]) ∧
    (∃ (s : State) (tile : Nat) (key : Nat) (x : Lim) (t : Word), s.inSafe = false ∧ SMap.wf Lim.init s.lims = true ∧ x = s.lims.get
      Lim.init key ∧ key / 4096 = tile ∧ x.wheel = some t ∧ s.locReached t = true ∧ tokensOf x.need ≤ x.tokens) ∧
    (∃ (s : State) (tile : Nat) (key : Nat) (x : Lim) (t : Word), s.inSafe = false ∧ SMap.wf Lim.init s.lims = true ∧ x = s.lims.get
      Lim.init key ∧ key / 4096 = tile ∧ x.wheel = some t ∧ s.locReached t = true ∧ x.tokens < tokensOf x.need) ∧
    (∃ (s : State) (path : Path) (tile : Nat) (k : Nat), s.mayWrite path (R.SCH_LIM_CFG.addr [tile, k]) = true ∧ k < 4096 ∧ 8 * tile <
      s.portCount) ∧
    (∃ (s : State) (path : Path), s.mayWrite path R.SCH_LIM_INV.base = true) ∧
    (∃ (s : State) (path : Path), s.mayWrite path R.SCH_LIM_INV.base = true) :=
  ⟨⟨limS lx, 4099, 1, lx, by decide +kernel⟩,
   ⟨(limS { lx with next := some 0x6400000020 }), 4099, 1, { lx with next := some 0x6400000020 }, 0x6400000020, by decide +kernel⟩,
   ⟨limS lx, 3, 1, up.rd R.SCH_TC7_LIMIT [3], by decide +kernel⟩,
   ⟨(limS { lx with wheel := some 100, need := 1, tokens := 65536 }), 1, 4099, { lx with wheel := some 100, need := 1, tokens := 65536 }, 100, by decide +kernel⟩,
   ⟨(limS { lx with wheel := some 0, need := 60, tokens := 5 }), 1, 4099, { lx with wheel := some 0, need := 60, tokens := 5 }, 0, by decide +kernel⟩,
   ⟨code up, .near 5, 11, 4095, by decide +kernel⟩,
   ⟨({ code up with limCache := [(5, some 1), (2 ^ 20 + 5, some 2), (6, some 3)] }), .near 5, by decide +kernel⟩,
   ⟨({ code up with limCache := [(5, some 1)] }), .near 5, by decide +kernel⟩⟩
theorem witness_RateLimiters_2 :
    (∃ (s : State) (p : Nat) (tc : Nat) (period : Nat), s.inSafe = false ∧ period = s.fd F.SCH_SAMPLE_CTRL_PERIOD * ticksPerUs ∧ s.fb
      F.SCH_SAMPLE_CTRL_EN = true ∧ s.ftValid = true ∧ period ≠ 0 ∧ s.ft.toNat % period = 0 ∧ p < s.portCount ∧ tc < 8) :=
  ⟨smp, 95, 7, 4000, by decide +kernel⟩
theorem witness_LaneCommands :
    (∃ (s : State) (p : Nat) (l : Nat), s.inSafe = false ∧ p < s.portCount ∧ l < 2 ∧ s.serDue p l = true ∧ s.beyondSer (s.lane p l) = false) ∧
    (∃ (s : State) (p : Nat) (l : Nat), s.inSafe = false ∧ p < s.portCount ∧ l < 2 ∧ s.serDue p l = true ∧ s.beyondSer (s.lane p l) = true ∧
      (s.lane p l).retired = false ∧ s.serDue p (1 - l) = false) ∧
    (∃ (s : State) (path : Path) (p : Nat) (l : Nat), s.mayWrite path (R.LANE_CTRL.addr [p, l]) = true ∧ l < 2 ∧ p < s.portCount ∧ (s.lane p
      l).retired = true) ∧
    (∃ (s : State) (path : Path) (p : Nat) (l : Nat) (v : Word), s.mayWrite path (R.EYE_CTRL.addr [p, l]) = true ∧ p < s.portCount ∧ l < 2 ∧
      s.fb F.EYE_CTRL_GO [p, l] = false ∧ bitW v 31 = true) ∧
    (∃ (s : State) (path : Path) (p : Nat) (l : Nat) (v : Word), s.mayWrite path (R.EYE_CTRL.addr [p, l]) = true ∧ p < s.portCount ∧ l < 2 ∧
      s.fb F.EYE_CTRL_GO [p, l] = false ∧ bitW v 31 = true) ∧
    (∃ (s : State) (p : Nat) (l : Nat), s.inSafe = false ∧ p < s.portCount ∧ l < 2 ∧ (s.lane p l).eye = true ∧ s.laneFramed p l = true ∧ 2 ^
      (20 + s.fd F.EYE_CTRL_DWELL [p, l]) ≤ s.locSince (s.lane p l).eyeAt * (if (s.port p).cfg.rate56 = true then 14 else 28)) :=
  ⟨⟨lnS Lane.init up, 3, 1, by decide +kernel⟩,
   ⟨lnS badL (up.setLane 3 0 { Lane.init with sec := 99, retired := true }), 3, 1, by decide +kernel⟩,
   ⟨code (up.setLane 3 1 { Lane.init with retired := true, cause := 1 }), .near 5, 3, 1, by decide +kernel⟩,
   ⟨code up, .near 5, 3, 1, 0x80000000, by decide +kernel⟩,
   ⟨frS, .near 5, 3, 1, 0x80000000, by decide +kernel⟩,
   ⟨at_ (2 ^ 40) (frS.setLane 3 1 { Lane.init with eye := true }), 3, 1, by decide +kernel⟩⟩
theorem witness_HostLinks :
    (∃ (s : State) (k : Nat), k < 4 ∧ s.inSafe = false ∧ s.dev.power ≠ 2 ∧ s.host.perst.get false k = false) ∧
    (∃ (s : State) (k : Nat), k < 4 ∧ s.inSafe = false ∧ s.dev.power ≠ 2 ∧ s.host.perst.get false k = true) ∧
    (∃ (s : State) (a : Nat), s.attExists a = true ∧ (s.att a).up = true ∧ s.inSafe = false) ∧
    (∃ (s : State) (a : Nat) (width : Nat) (rate : Nat), s.attExists a = true ∧ (s.att a).up = false ∧ s.host.perst.get false (a / 4) =
      false ∧ 0 < width ∧ width ≤ 16 / attsOf (s.host.bifur.get 0 (a / 4)) ∧ rate ≤ 4 + min 2 (s.host.maxRate.get 2 (a / 4)) ∧ s.inSafe =
      false) ∧
    (∃ (s : State) (a : Nat), (s.att a).up = true ∧ (s.att a).pstate ≤ 1 ∧ (s.func a).aspm = true ∧ (s.att a).exiting = false ∧ (s.rd
      R.HIF_L1_IDLE).toNat * ticksPerUs ≤ s.locSince (s.att a).quietFrom) ∧
    (∃ (s : State) (a : Nat) (f : Nat), a < 16 ∧ f ∈ s.funcsOn a ∧ s.wants f = true ∧ (s.att a).exiting = false ∧ 2 ≤ (s.att a).pstate ∧
      (s.att a).pstate ≤ 4) ∧
    (∃ (s : State) (a : Nat), (s.att a).asleep = true ∧ ((s.att a).exiting = true ∨ s.dev.power ≠ 2) ∧ s.inSafe = false) :=
  ⟨⟨up, 3, by decide +kernel⟩,
   ⟨({ up with host := { up.host with perst := up.host.perst.set false 3 true } }), 3, by decide +kernel⟩,
   ⟨hostUp up, 0, by decide +kernel⟩,
   ⟨hs up, 0, 16, 6, by decide +kernel⟩,
   ⟨at_ 40000000000000 ((hostUp up).setFunc 0 { Func.init with aspm := true }), 0, by decide +kernel⟩,
   ⟨(qS nopE).setAtt 0 { Attach.init with up := true, pstate := 2 }, 0, 0, by decide +kernel⟩,
   ⟨(hostUp up).setAtt 0 { Attach.init with up := true, pstate := 2, exiting := true }, 0, by decide +kernel⟩⟩
theorem witness_HostFunctions_1 :
    (∃ (s : State) (f : Nat), (if f < 16 then s.attExists f = true else ∃ p, p < 16 ∧ s.attExists p = true ∧ s.isVfOf p f = true) ∧ s.inSafe
      = false ∧ SMap.wf Func.init s.host.funcs = true) ∧
    (∃ (s : State) (f : Nat), (if f < 16 then s.attExists f = true else ∃ p, p < 16 ∧ s.attExists p = true ∧ s.isVfOf p f = true) ∧ s.inSafe
      = false ∧ SMap.wf Func.init s.host.funcs = true) ∧
    (∃ (s : State) (f : Nat) (d : Nat) (ds : DState), (d, ds) ∈ [(0, DState.d0), (1, .d3hot), (2, .d3cold)] ∧ s.attExists (s.pfOf f) = true
      ∧ (f < 16 ∨ s.isVfOf (s.pfOf f) f = true) ∧ (d ≠ 0 ∨ (s.func f).dstate = .d0 ∨ s.dev.power ≠ 2)) ∧
    (∃ (s : State) (f : Nat) (d : Nat) (ds : DState), (d, ds) ∈ [(0, DState.d0), (1, .d3hot), (2, .d3cold)] ∧ s.attExists (s.pfOf f) = true
      ∧ (f < 16 ∨ s.isVfOf (s.pfOf f) f = true) ∧ (d ≠ 0 ∨ (s.func f).dstate = .d0 ∨ s.dev.power ≠ 2)) ∧
    (∃ (s : State) (f : Nat) (d : Nat) (ds : DState), (d, ds) ∈ [(0, DState.d0), (1, .d3hot), (2, .d3cold)] ∧ s.attExists (s.pfOf f) = true
      ∧ (f < 16 ∨ s.isVfOf (s.pfOf f) f = true) ∧ (d ≠ 0 ∨ (s.func f).dstate = .d0 ∨ s.dev.power ≠ 2)) ∧
    (∃ (s : State) (p : Path) (pf : Nat), pf < 16 ∧ s.mayWrite p (R.HIF_VF_ALLOC.base + 4 * pf) = true ∧ (s.func pf).vfEnable = true) ∧
    (∃ (s : State) (s1 : State) (p : Path) (pf : Nat) (v : Word), pf < 16 ∧ s.mayWrite p (R.HIF_VF_ALLOC.base + 4 * pf) = true ∧ (s.func
      pf).vfEnable = false ∧ s1 = s.wrSoft R.HIF_VF_ALLOC [pf] v ∧ (s1.vfCount pf = 0 ∨ s1.vfFirst pf + s1.vfCount pf ≤ 1024 ∧ ∀ a, a < 16 →
      a ≠ pf → s1.vfFirst a + s1.vfCount a ≤ s1.vfFirst pf ∨ s1.vfFirst pf + s1.vfCount pf ≤ s1.vfFirst a)) ∧
    (∃ (s : State) (s1 : State) (p : Path) (pf : Nat) (v : Word), pf < 16 ∧ s.mayWrite p (R.HIF_VF_ALLOC.base + 4 * pf) = true ∧ (s.func
      pf).vfEnable = false ∧ s1 = s.wrSoft R.HIF_VF_ALLOC [pf] v ∧ s1.vfCount pf ≠ 0 ∧ 1024 < s1.vfFirst pf + s1.vfCount pf) :=
  ⟨⟨flS, 1023, by decide +kernel⟩,
   ⟨flS, 0, by decide +kernel⟩,
   ⟨vfS up, 0, 0, .d0, by decide +kernel⟩,
   ⟨vfS up, 0, 1, .d3hot, by decide +kernel⟩,
   ⟨vfS up, 0, 2, .d3cold, by decide +kernel⟩,
   ⟨(code up).setFunc 0 { Func.init with vfEnable := true }, .near 5, 0, by decide +kernel⟩,
   ⟨code up, (code up).wrSoft R.HIF_VF_ALLOC [1] 0x004F0008, .near 5, 1, 0x004F0008, by decide +kernel⟩,
   ⟨code up, (code up).wrSoft R.HIF_VF_ALLOC [1] 0x03FC0008, .near 5, 1, 0x03FC0008, by decide +kernel⟩⟩
theorem witness_HostFunctions_2 :
    (∃ (s : State) (tag : Nat) (r : Nat) (ref : Nat) (seq : BitVec 32) (rd : HostRead) (x : PktRef), s.inSafe = false ∧ s.host.reads.get
      none tag = some rd ∧ rd.why = .flush r seq ∧ s.flushRef r seq = some ref ∧ s.pktRef (r / 16384) ref = some x ∧ x.conn = r) ∧
    (∃ (s : State) (tag : Nat) (c : Nat) (ref : Nat) (k : Nat) (rd : HostRead) (x : PktRef) (dest : Nat × Nat), s.inSafe = false ∧
      s.host.reads.get none tag = some rd ∧ rd.why = .atomic c ref ∧ s.pktRef c ref = some x ∧ x.conn / 16384 = c ∧ s.freeSlot c = some k ∧
      (s.returnPath (s.half x.conn) x.pkt).1 = some dest) ∧
    (∃ (s : State) (tag : Nat) (r : Nat) (ref : Nat) (seq : BitVec 32) (rd : HostRead) (x : PktRef), s.inSafe = false ∧ s.host.reads.get
      none tag = some rd ∧ rd.why = .flush r seq ∧ s.flushRef r seq = some ref ∧ s.pktRef (r / 16384) ref = some x ∧ s.locReached
      rd.deadline = true) :=
  ⟨⟨hrS (.flush 3 4), 2, 3, 0x20000, 4, ⟨.flush 3 4,3,9,0⟩, (px { amoP 0 with seq := 4 }), by decide +kernel⟩,
   ⟨hrS (.atomic 0 0x20000), 2, 0, 0x20000, 0, ⟨.atomic 0 0x20000,3,9,0⟩, (px { amoP 0 with seq := 4 }), (5,3), by decide +kernel⟩,
   ⟨at_ 9 (hrS (.flush 3 4)), 2, 3, 0x20000, 4, ⟨.flush 3 4,3,9,0⟩, (px { amoP 0 with seq := 4 }), by decide +kernel⟩⟩
theorem witness_FaultReports_1 :
    (∃ (s : State) (src : Nat) (code : Nat), (s.dev.off = true ∨ canRaise s.variant src code = false)) ∧
    (∃ (s : State) (src : Nat) (code : Nat), (s.dev.off = true ∨ canRaise s.variant src code = false)) ∧
    (∃ (s : State) (src : Nat) (code : Nat) (cls : Nat) (i0 : Word) (i1 : Word), s.dev.off = false ∧ canRaise s.variant src code = true ∧
      s.tgf.armed = true ∧ s.tgf.frozen = none ∧ s.openMatch ⟨src, code, i0.toNat, i1.toNat, false, true⟩ = none ∧ cls = classOf code ∧ 1 ≤
      cls) ∧
    (∃ (s : State) (src : Nat) (code : Nat) (cls : Nat) (i0 : Word) (i1 : Word), s.dev.off = false ∧ canRaise s.variant src code = true ∧
      s.tgf.armed = true ∧ s.tgf.frozen = none ∧ s.openMatch ⟨src, code, i0.toNat, i1.toNat, false, true⟩ = none ∧ cls = classOf code ∧ 1 ≤
      cls) ∧
    (∃ (s : State) (src : Nat) (code : Nat) (cls : Nat) (i0 : Word) (i1 : Word), s.dev.off = false ∧ canRaise s.variant src code = true ∧
      s.tgf.armed = true ∧ s.tgf.frozen = none ∧ s.openMatch ⟨src, code, i0.toNat, i1.toNat, false, true⟩ = none ∧ cls = classOf code ∧ 1 ≤
      cls) ∧
    (∃ (s : State) (src : Nat) (code : Nat) (i : Nat) (i0 : Word) (i1 : Word), s.dev.off = false ∧ canRaise s.variant src code = true ∧
      s.tgf.armed = true ∧ s.tgf.frozen = none ∧ s.openMatch ⟨src, code, i0.toNat, i1.toNat, false, true⟩ = some i ∧ classOf code < 3) ∧
    (∃ (s : State), s.tgf.fatalDue = true) ∧
    (∃ (s : State) (i : Nat), (s.hrec i).openRec = true ∧ (s.hrec i).cls < 3 ∧ (s.rd R.TGF_MERGE_WINDOW).toNat ≤ s.locSince (s.hrec
      i).locAt) :=
  ⟨⟨up, 99, 0x70, by decide +kernel⟩,
   ⟨{ up with dev := { up.dev with off := true } }, tsrc 4 3, 0x70, by decide +kernel⟩,
   ⟨up, tsrc 4 3, 0x71, 4, 5, 6, by decide +kernel⟩,
   ⟨up, tsrc 0x0B 3, 0x25, 3, 5, 6, by decide +kernel⟩,
   ⟨up, tsrc 4 3, 0x70, 1, 5, 6, by decide +kernel⟩,
   ⟨wRec (classOf 0x70), tsrc 4 3, 0x70, 2, 0, 0, by decide +kernel⟩,
   ⟨({ up with tgf := { up.tgf with fatalDue := true } }), by decide +kernel⟩,
   ⟨wRec 1, 2, by decide +kernel⟩⟩
theorem witness_FaultReports_2 :
    (∃ (s : State) (i : Nat), 3 ≤ (s.hrec i).cls) ∧
    (∃ (s : State) (body : List Byte) (rest : List (List Byte)) (k : Nat), s.tgf.heldEvents = body :: rest ∧ s.inSafe = false ∧ s.wfSteered
      s.eventCluster (s.fd F.WF_STEER_EVENT_FIFO [s.eventCluster]) = some k ∧ s.wfRoom k false 1 = true) ∧
    (∃ (s : State) (at_ : Word) (us : Nat), s.tgf.safe = some at_ ∧ us = s.fd F.TGF_SAFE_CFG_TXOFF ∧ us ≠ 0 ∧ us * ticksPerUs ≤ s.locSince
      at_) :=
  ⟨⟨wRec 3, 2, by decide +kernel⟩,
   ⟨({ up with tgf := { up.tgf with heldEvents := [zeroBytes 56] } }), zeroBytes 56, [], 0, by decide +kernel⟩,
   ⟨{ (at_ 400000000 up) with tgf := { up.tgf with safe := some 0 } }.fw F.TGF_SAFE_CFG_TXOFF [] 5, 0, 5, by decide +kernel⟩⟩
theorem witness_FaultCommands_1 :
    (∃ (s : State) (p : Path) (v : Word) (i : Nat), s.mayWrite p R.TGF_HIST_ACK.base = true ∧ i < 32 ∧ (s.hrec i).openRec = true ∧ (s.hrec
      i).seq = v.toNat % 2 ^ 32 ∧ (s.hrec i).cls < 3 ∧ (∀ j, j < i → (s.hrec j).openRec = true → (s.hrec j).seq ≠ v.toNat % 2 ^ 32)) ∧
    (∃ (s : State) (p : Path), s.mayWrite p R.TGF_HIST_CTRL.base = true) ∧
    (∃ (s : State) (p : Path) (v : Word) (src : Nat) (code : Nat), s.mayWrite p R.TGF_INJECT.base = true ∧ bitW v 63 = true ∧ src = bitsW v
      31 16 ∧ code = bitsW v 47 32 ∧ s.fb F.TGF_CTRL_INJECT_EN = true ∧ s.fb F.TGF_CTRL_INJECT_LOCK = false ∧ canRaise s.variant src code =
      true ∧ s.tgf.armed = true ∧ s.tgf.frozen = none ∧ s.openMatch ⟨src, code, 0, 0, true, bitW v 62⟩ = none ∧ 1 ≤ classOf code) ∧
    (∃ (s : State) (p : Path) (v : Word) (src : Nat) (code : Nat), s.mayWrite p R.TGF_INJECT.base = true ∧ bitW v 63 = true ∧ src = bitsW v
      31 16 ∧ code = bitsW v 47 32 ∧ s.fb F.TGF_CTRL_INJECT_EN = true ∧ s.fb F.TGF_CTRL_INJECT_LOCK = false ∧ canRaise s.variant src code =
      true ∧ s.tgf.armed = true ∧ s.tgf.frozen = none ∧ s.openMatch ⟨src, code, 0, 0, true, bitW v 62⟩ = none ∧ 1 ≤ classOf code) ∧
    (∃ (s : State) (p : Path) (v : Word), s.mayWrite p R.TGF_INJECT.base = true ∧ bitW v 63 = true ∧ (s.fb F.TGF_CTRL_INJECT_EN = false ∨
      s.fb F.TGF_CTRL_INJECT_LOCK = true ∨ canRaise s.variant (bitsW v 31 16) (bitsW v 47 32) = false)) ∧
    (∃ (s : State) (p : Path) (v : Word), s.mayWrite p R.TGF_INJECT.base = true ∧ bitW v 63 = true ∧ (s.fb F.TGF_CTRL_INJECT_EN = false ∨
      s.fb F.TGF_CTRL_INJECT_LOCK = true ∨ canRaise s.variant (bitsW v 31 16) (bitsW v 47 32) = false)) ∧
    (∃ (s : State) (p : Path), s.mayWrite p R.TGF_CTRL.base = true) ∧
    (∃ (s : State) (page : Nat) (i : Nat), s.pageRetired page = false ∧ 0 < s.fd F.TGF_HBM_RETIRE_COUNT ∧ s.fd F.TGF_HBM_RETIRE_COUNT ≤
      s.pageErrors page ∧ page * 4096 < hbmSize ∧ s.freeSpare (stackOf page) = some i) :=
  ⟨⟨code (wRec 1), .near 5, 9, 2, by decide +kernel⟩,
   ⟨code up, .near 5, by decide +kernel⟩,
   ⟨inj up, .near 5, 0x8000007110030000, tsrc 4 3, 0x71, by decide +kernel⟩,
   ⟨inj up, .near 5, 0xC000007110030000, tsrc 4 3, 0x71, by decide +kernel⟩,
   ⟨code up, .near 5, 0x8000007110030000, by decide +kernel⟩,
   ⟨inj up, .near 5, 0x8000FFFF00000000, by decide +kernel⟩,
   ⟨code up, .near 5, by decide +kernel⟩,
   ⟨pgS, 7, 0, by decide +kernel⟩⟩
theorem witness_FaultCommands_2 :
    (∃ (s : State) (page : Nat), (s.pageRetired page = false ∧ 0 < s.fd F.TGF_HBM_RETIRE_COUNT ∧ s.fd F.TGF_HBM_RETIRE_COUNT ≤ s.pageErrors
      page ∧ page * 4096 < hbmSize) ∧ s.freeSpare (stackOf page) = none) ∧
    (∃ (s : State) (p : Path) (v : Word), s.mayWrite p R.TGF_RETEST.base = true ∧ s.tgf.retest = none ∧ bitW v 31 = true) ∧
    (∃ (s : State) (src : Nat) (page : Nat) (n : Nat) (at_ : Word), s.tgf.retest = some (src, page, at_) ∧ src = tsrc 0x0E n ∧ n < 512 ∧
      (s.engine n).retired = true ∧ 1000 * ticksPerUs ≤ s.locSince at_) ∧
    (∃ (s : State) (src : Nat) (page : Nat) (at_ : Word), s.tgf.retest = some (src, page, at_) ∧ s.retestable src page = false) :=
  ⟨⟨pgN, 7, by decide +kernel, pgN_no_spare⟩,
   ⟨code up, .near 5, 0x80003805, by decide +kernel⟩,
   ⟨rtE, tsrc 0x0E 5, 0, 5, 0, by decide +kernel⟩,
   ⟨({ up with tgf := { up.tgf with retest := some (3, 0, 0) } }), 3, 0, 0, by decide +kernel⟩⟩
theorem witness_PerformanceMonitors_1 :
    (∃ (s : State) (p : Path), s.mayWrite p R.PMU_CTRL.base = true) ∧
    (∃ (s : State) (p : Path) (n : Nat), n < 256 ∧ s.mayWrite p (R.HIST_SEL.addr [n]) = true) ∧
    (∃ (s : State) (n : Nat) (p : Nat), s.inSafe = false ∧ n < 256 ∧ s.fb F.HIST_SEL_EN [n] = true ∧ s.monFrozen = false ∧ s.fd
      F.HIST_SEL_SRC [n] = 2 ∧ p = s.fd F.HIST_SEL_INSTANCE [n] ∧ p < s.portCount) ∧
    (∃ (s : State) (n : Nat), s.inSafe = false ∧ n < 256 ∧ s.fb F.HIST_SEL_EN [n] = true ∧ s.monFrozen = false ∧ s.fd F.HIST_SEL_SRC [n] =
      6) ∧
    (∃ (n : Nat), n < 256) ∧
    (∃ (s : State), s.monFrozen = true) ∧
    (∃ (s : State), s.inSafe = false ∧ s.dev.off = false ∧ s.dumpDue = true ∧ s.dumpMiss = false) ∧
    (∃ (s : State), s.inSafe = false ∧ s.dev.off = false ∧ s.dumpDue = true ∧ s.dumpMiss = true) :=
  ⟨⟨code up, .near 5, by decide +kernel⟩,
   ⟨code up, .near 5, 255, by decide +kernel⟩,
   ⟨hst 2, 255, 3, by decide +kernel⟩,
   ⟨hst 6, 255, by decide +kernel⟩,
   ⟨255, by decide +kernel⟩,
   ⟨(code up).fw F.PMU_CTRL_FREEZE [] 1, by decide +kernel⟩,
   ⟨dmp up, by decide +kernel⟩,
   ⟨({ dmp up with inv := up.inv }), by decide +kernel⟩⟩
theorem witness_PerformanceMonitors_2 :
    (∃ (s : State) (bs : List Byte) (off : Nat) (at_ : Nat), s.dev.mon.dumpRec = some bs ∧ s.adapterHalted = false ∧ s.fb
      F.PMU_DUMP_CFG_HOST = false ∧ off = (if s.fd F.PMU_DUMP_CFG_SIZE * 65536 < s.dev.mon.dumpOff + bs.length then 0 else
      s.dev.mon.dumpOff) ∧ at_ = (s.rd R.PMU_DUMP_DEST).toNat + off ∧ 8 ≤ bs.length ∧ at_ + bs.length ≤ hbmSize) ∧
    (∃ (s : State) (bs : List Byte) (off : Nat) (at_ : Nat), s.dev.mon.dumpRec = some bs ∧ s.adapterHalted = false ∧ s.fb
      F.PMU_DUMP_CFG_HOST = false ∧ off = (if s.fd F.PMU_DUMP_CFG_SIZE * 65536 < s.dev.mon.dumpOff + bs.length then 0 else
      s.dev.mon.dumpOff) ∧ at_ = (s.rd R.PMU_DUMP_DEST).toNat + off ∧ 8 ≤ bs.length ∧ at_ + bs.length ≤ hbmSize) ∧
    (∃ (s : State) (bs : List Byte) (off : Nat) (at_ : Nat) (f : Nat), s.dev.mon.dumpRec = some bs ∧ s.adapterHalted = false ∧ s.fb
      F.PMU_DUMP_CFG_HOST = true ∧ f = s.fd F.PMU_DUMP_CFG_FUNC ∧ s.canMaster f = true ∧ s.linkAwake f = true ∧ off = (if s.fd
      F.PMU_DUMP_CFG_SIZE * 65536 < s.dev.mon.dumpOff + bs.length then 0 else s.dev.mon.dumpOff) ∧ at_ = (s.rd R.PMU_DUMP_DEST).toNat + off) ∧
    (∃ (s : State) (g : Nat), s.inSafe = false ∧ s.fb F.PMU_SAMP_CTRL_EN = true ∧ s.dev.mon.counts.get none g = some 0) ∧
    (∃ (s : State) (g : Nat) (lat : Nat) (flags : Nat) (n : Nat) (x : Sampled), s.dev.mon.marked.get none g = some x ∧ nbit flags 3 = false
      ∧ (s.rd R.PMU_SAMP_MINLAT).toNat ≤ lat ∧ s.dev.mon.sampQ.get [] (g / 8) = [] ∧ s.adapterHalted = false ∧ s.fb F.PMU_SAMP_CFG_HOST =
      false ∧ n = (s.rd R.PMU_SAMP_WIDX).toNat % 2 ^ s.fd F.PMU_SAMP_CFG_LOG2 ∧ (s.rd R.PMU_SAMP_DEST).toNat + 64 * n + 64 ≤ hbmSize) :=
  ⟨⟨mon (fun m => { m with dumpRec := some (zeroBytes 64), dumpOff := 65472 }) ((up.fw F.PMU_DUMP_CFG_SIZE [] 2).wr R.PMU_DUMP_DEST [] 0x10000), zeroBytes 64, 65472, 0x10000 + 65472, by decide +kernel⟩,
   ⟨mon (fun m => { m with dumpRec := some (zeroBytes 64), dumpOff := 65500 }) ((up.fw F.PMU_DUMP_CFG_SIZE [] 1).wr R.PMU_DUMP_DEST [] 0x10000), zeroBytes 64, 0, 0x10000, by decide +kernel⟩,
   ⟨hostUp (mon (fun m => { m with dumpRec := some (zeroBytes 64), dumpOff := 64 }) (((up.fw F.PMU_DUMP_CFG_SIZE [] 2).fset F.PMU_DUMP_CFG_HOST [] true).wr R.PMU_DUMP_DEST [] 0x10000)), zeroBytes 64, 64, 0x10000 + 64, 0, by decide +kernel⟩,
   ⟨mon (fun m => { m with counts := m.counts.set none 9 (some 0) }) ((up.fset F.PMU_SAMP_CTRL_EN [] true).fw F.PMU_SAMP_CTRL_PERIOD [] 5000), 9, by decide +kernel⟩,
   ⟨mon (fun m => { m with marked := m.marked.set none 9 (some smpd) }) (((up.fw F.PMU_SAMP_CFG_LOG2 [] 12).wr R.PMU_SAMP_DEST [] 0x10000).wr R.PMU_SAMP_WIDX [] 4096), 9, 100, 1, 0, smpd, by decide +kernel⟩⟩
theorem witness_LifeStore :
    (∃ (s : State) (k : Nat) (p : Path) (c : Instr), (s.dev.life.ready = true ∧ k = (if s.dev.life.seq = 0 then 0 else (s.dev.life.slot + 1)
      % 16)) ∧ (c = .lifeCommit ∧ (s.rd R.LIFE_COMMIT_CFG).toNat * 60 * ticksPerS ≤ s.locSince s.dev.life.commitAt ∨ c = .commit p ∧
      s.mayWrite p R.LIFE_CTRL.base = true)) ∧
    (∃ (s : State) (k : Nat) (p : Path) (c : Instr), (s.dev.life.ready = true ∧ k = (if s.dev.life.seq = 0 then 0 else (s.dev.life.slot + 1)
      % 16)) ∧ (c = .lifeCommit ∧ (s.rd R.LIFE_COMMIT_CFG).toNat * 60 * ticksPerS ≤ s.locSince s.dev.life.commitAt ∨ c = .commit p ∧
      s.mayWrite p R.LIFE_CTRL.base = true)) ∧
    (∃ (s : State), s.dev.life.ready = true ∧ (s.rd R.LIFE_SNAP_CFG).toNat * 3600 * ticksPerS ≤ s.locSince s.dev.life.snapAt) ∧
    (∃ (s : State), s.dev.life.ready = true ∧ ticksPerS ≤ s.locSince s.dev.life.sampleAt) ∧
    (∃ (s : State) (margins : List Nat) (n : Nat) (m : Nat), s.dev.life.ready = true ∧ (s.rd R.LIFE_EYE_CFG).toNat ≠ 0 ∧ (s.rd
      R.LIFE_EYE_CFG).toNat * 3600 * ticksPerS ≤ s.locSince s.dev.life.scanAt ∧ s.activeLanes = [n] ∧ margins[n]? = some m) :=
  ⟨⟨lifeS 9600000000000000, 0, .bootRom, .lifeCommit, by decide +kernel, .inl ⟨rfl, by decide +kernel⟩⟩,
   ⟨code (lifeS 5), 0, .near 5, .commit (.near 5), by decide +kernel, .inr ⟨rfl, by decide +kernel⟩⟩,
   ⟨lifeS 1000000000000000000, by decide +kernel⟩,
   ⟨lifeS 4000000000, by decide +kernel⟩,
   ⟨(lifeS 1000000000000000000).setPort 3 { Port.init with st := .active, cfg := { LinkCfg.init with lanes := 2 } }, [0,0,0,0,0,0,0,63], 7, 63, by decide +kernel⟩⟩
theorem witness_SupplyAndTemperature_1 :
    (∃ (s : State) (temps : List Int) (n : Nat) (h : Int), s.dev.off = false ∧ temps.length = 64 ∧ 100 * ticksPerUs ≤ s.locSince
      s.dev.thermAt ∧ hottest temps = (n, h) ∧ h < tripAt) ∧
    (∃ (s : State) (h : Int) (k : Nat), (k < 4 ∧ (k ≠ 0 → s.stepAt k ≤ h ∨ k ≤ s.fd F.THERM_STATUS_STEP ∧ s.stepAt k - 24 < h)) ∧ (∀ i, k <
      i → i < 4 → h < s.stepAt i) ∧ (∀ i, k < i → i < 4 → s.fd F.THERM_STATUS_STEP < i ∨ h ≤ s.stepAt i - 24)) ∧
    (∃ (s : State) (h : Int) (k : Nat), (k < 4 ∧ (k ≠ 0 → s.stepAt k ≤ h ∨ k ≤ s.fd F.THERM_STATUS_STEP ∧ s.stepAt k - 24 < h)) ∧ (∀ i, k <
      i → i < 4 → h < s.stepAt i) ∧ (∀ i, k < i → i < 4 → s.fd F.THERM_STATUS_STEP < i ∨ h ≤ s.stepAt i - 24)) ∧
    (∃ (s : State) (h : Int) (k : Nat), (k < 4 ∧ (k ≠ 0 → s.stepAt k ≤ h ∨ k ≤ s.fd F.THERM_STATUS_STEP ∧ s.stepAt k - 24 < h)) ∧ (∀ i, k <
      i → i < 4 → h < s.stepAt i) ∧ (∀ i, k < i → i < 4 → s.fd F.THERM_STATUS_STEP < i ∨ h ≤ s.stepAt i - 24)) ∧
    (∃ (s : State) (temps : List Int) (n : Nat) (h : Int), s.dev.off = false ∧ temps.length = 64 ∧ 100 * ticksPerUs ≤ s.locSince
      s.dev.thermAt ∧ hottest temps = (n, h) ∧ tripAt ≤ h ∧ s.inv.specMet = false ∧ s.collects) ∧
    (∃ (s : State) (n : Nat) (c : Instr) (src : Nat) (code : Nat), (s.dev.off = false ∧ s.collects ∧ canRaise s.variant src code = true ∧ n
      < 64) ∧ (c, src, code) ∈ [(Instr.thermalTrip n, tsrc 4 n, 0x71), (.supplyFault n, tsrc 0 n, 0x72), (.pllUnlock n, tsrc 3 n, 0x73),
      (.pllUnlock (n + 16), tsrc 0x17 n, 0x73)] ∧ (c = .pllUnlock n → n < 16)) ∧
    (∃ (s : State) (n : Nat) (c : Instr) (src : Nat) (code : Nat), (s.dev.off = false ∧ s.collects ∧ canRaise s.variant src code = true ∧ n
      < 64) ∧ (c, src, code) ∈ [(Instr.thermalTrip n, tsrc 4 n, 0x71), (.supplyFault n, tsrc 0 n, 0x72), (.pllUnlock n, tsrc 3 n, 0x73),
      (.pllUnlock (n + 16), tsrc 0x17 n, 0x73)] ∧ (c = .pllUnlock n → n < 16)) ∧
    (∃ (s : State) (mv : Nat), s.dev.off = false ∧ 0 < s.fd F.DEV_BOOT_STATUS_STAGE ∧ s.dev.avsAt = none ∧ 650 ≤ mv ∧ mv ≤ 850 ∧ mv % 5 = 0
      ∧ mv ≤ s.setPoint + 25 ∧ s.setPoint ≤ mv + 25 ∧ s.inSafe = false ∧ s.dev.power < 2) :=
  ⟨⟨thS, List.replicate 64 300, 0, 300, by decide +kernel⟩,
   ⟨up, 919, 0, by decide +kernel, (fun i h1 h2 => (by decide +kernel : ∀ i < 4, 0 < i → (919 : Int) < up.stepAt i) i h2 h1), (fun i h1 h2 => (by decide +kernel : ∀ i < 4, 0 < i → up.fd F.THERM_STATUS_STEP < i ∨ (919 : Int) ≤ up.stepAt i - 24) i h2 h1)⟩,
   ⟨up, 1000, 3, by decide +kernel, (fun i h1 h2 => (by decide +kernel : ∀ i < 4, 3 < i → (1000 : Int) < up.stepAt i) i h2 h1), (fun i h1 h2 => (by decide +kernel : ∀ i < 4, 3 < i → up.fd F.THERM_STATUS_STEP < i ∨ (1000 : Int) ≤ up.stepAt i - 24) i h2 h1)⟩,
   ⟨up.fw F.THERM_STATUS_STEP [] 3, 977, 3, by decide +kernel, (fun i h1 h2 => (by decide +kernel : ∀ i < 4, 3 < i → (977 : Int) < (up.fw F.THERM_STATUS_STEP [] 3).stepAt i) i h2 h1), (fun i h1 h2 => (by decide +kernel : ∀ i < 4, 3 < i → (up.fw F.THERM_STATUS_STEP [] 3).fd F.THERM_STATUS_STEP < i ∨ (977 : Int) ≤ (up.fw F.THERM_STATUS_STEP [] 3).stepAt i - 24) i h2 h1)⟩,
   ⟨thS, List.replicate 63 300 ++ [1080], 63, 1080, by unfold State.collects; decide +kernel⟩,
   ⟨up, 63, .thermalTrip 63, tsrc 4 63, 0x71, by unfold State.collects; decide +kernel, .head _, nofun⟩,
   ⟨up, 3, .pllUnlock (3 + 16), tsrc 0x17 3, 0x73, by unfold State.collects; decide +kernel, .tail _ (.tail _ (.tail _ (.head _))), fun h => by injection h; contradiction⟩,
   ⟨up.wr R.CLK_AVS_VSET [] 750, 775, by decide +kernel⟩⟩
theorem witness_SupplyAndTemperature_2 :
    (∃ (s : State) (mv : Nat), s.dev.off = false ∧ 0 < s.fd F.DEV_BOOT_STATUS_STAGE ∧ s.dev.avsAt = none ∧ s.avsMay mv = true) ∧
    (∃ (s : State) (mv : Nat), (mv < 650 ∨ 850 < mv ∨ mv % 5 ≠ 0 ∨ s.setPoint + 25 < mv ∨ mv + 25 < s.setPoint)) ∧
    (∃ (s : State) (at_ : Word), s.dev.avsAt = some at_ ∧ 500 * ticksPerUs ≤ s.locSince at_ ∧ s.collects) :=
  ⟨⟨up.fw F.DEV_BOOT_STATUS_STAGE [] 3, 790, by decide +kernel⟩,
   ⟨up, 649, by decide +kernel⟩,
   ⟨({ at_ 2000000 up with dev := { up.dev with avsAt := some 0 } }), 0, by unfold State.collects; decide +kernel⟩⟩
theorem witness_CounterCsrPrivilege :
    (∃ (s : State) (t : Nat) (rs1 : Nat) (csr : Nat) (kind : Nat) (n : Nat), n < 6 ∧ csr % 4096 = 0x010 + n ∧ rs1 % 32 = 0 ∧ kind % 16 < 4 ∧
      t < 2048 ∧ s.issues t 4 0 [] ∧ (0 < (s.thread t).priv ∨ nbit (s.fd F.PMU_USER_READ_CSRS) n = true)) ∧
    (∃ (s : State) (t : Nat) (rs1 : Nat) (csr : Nat) (kind : Nat) (n : Nat), n < 6 ∧ csr % 4096 = 0x010 + n ∧ rs1 % 32 = 0 ∧ kind % 16 < 4 ∧
      t < 2048 ∧ s.issues t 4 0 [] ∧ (0 < (s.thread t).priv ∨ nbit (s.fd F.PMU_USER_READ_CSRS) n = true)) ∧
    (∃ (s : State) (t : Nat) (rs1 : Nat) (csr : Nat) (kind : Nat) (n : Nat), n < 6 ∧ csr % 4096 = 0x010 + n ∧ rs1 % 32 = 0 ∧ kind % 16 < 4 ∧
      t < 2048 ∧ s.issues t 4 0 [] ∧ (s.thread t).priv = 0 ∧ nbit (s.fd F.PMU_USER_READ_CSRS) n = false) ∧
    (∃ (s : State) (t : Nat) (rs1 : Nat) (csr : Nat) (kind : Nat) (n : Nat), n < 6 ∧ csr % 4096 = 0x010 + n ∧ rs1 % 32 = 0 ∧ kind % 16 < 4 ∧
      t < 2048 ∧ s.issues t 4 0 [] ∧ (s.thread t).priv = 0 ∧ nbit (s.fd F.PMU_USER_READ_CSRS) n = false) :=
  ⟨⟨cpu (lvl 0) (up.wr R.PMU_USER_READ [] 32), 0, 32, 0x015, 0, 5, by unfold State.issues; decide +kernel⟩,
   ⟨cpu (lvl 1) up, 0, 0, 0x1010, 3, 0, by unfold State.issues; decide +kernel⟩,
   ⟨hand 0xF2 (cpu (lvl 0) up), 0, 0, 0x015, 0, 5, by unfold State.issues; decide +kernel⟩,
   ⟨(cpu {lvl 0 with excActive := true} up), 0, 0, 0x015, 0, 5, by unfold State.issues; decide +kernel⟩⟩
theorem witness_OneRevocationAtATime :
    (∃ (s : State), s.net.revoking.isSome = true) ∧
    (∃ (s : State) (pf : Nat) (idx : Nat) (ask : Nat) (key : Nat) (e : OutEntry), s.controls pf idx 0x53 e ∧ key = leAt e.bytes 8 4 ∧ ask =
      key % 2 ^ 20 ∧ askState (s.askMem ask) = 1 ∧ askGen (s.askMem ask) = key / 2 ^ 20 ∧ askDev (s.askMem ask) = false ∧ s.mayName pf
      (askFunc (s.askMem ask)) = true ∧ s.net.revoking.isSome = true ∧ s.isRevoking ask = false) ∧
    (∃ (s : State) (r : Revocation) (pf : Nat) (serial : Nat) (ask : Nat) (key : Nat) (rest : List (Nat × Nat × Nat)), s.inSafe = false ∧
      s.net.revoking = some r ∧ r.by_ = none ∧ s.keyedRemains r.ask = false ∧ s.askInvalidating r.ask = false ∧ s.net.revokeQueue = (pf,
      serial, key) :: rest ∧ ask = key % 2 ^ 20 ∧ askState (s.askMem ask) = 1 ∧ askGen (s.askMem ask) = key / 2 ^ 20 ∧ askDev (s.askMem ask)
      = false ∧ s.mayName pf (askFunc (s.askMem ask)) = true) :=
  ⟨⟨code (rvk up), by decide +kernel⟩,
   ⟨ctl (ent 0x53 [(8,4,0x500002)]) (rv2 (rvk up)), 0, 0, 2, 0x500002, oe (ent 0x53 [(8,4,0x500002)]), by unfold State.controls; decide +kernel⟩,
   ⟨{ rv2 (rvk up) with net := { (rvk up).net with revokeQueue := [(0, 9, 0x500002)] } }, ⟨1, 100, none⟩, 0, 9, 2, 0x500002, [], by decide +kernel⟩⟩
theorem witness_KeyGenerations :
    (∃ (gen : Nat) (ask : Nat), gen < 4096 ∧ ask < 2 ^ 20) ∧
    (∃ (ask : Nat), ask < 2 ^ 20) ∧
    (∃ (s : State) (pf : Nat) (idx : Nat) (ask : Nat) (e : OutEntry) (b : List Byte), s.controls pf idx 0x52 e ∧ b = e.bytes ∧ ask = leAt b
      8 4 ∧ ask < 2 ^ 20 ∧ 3 ≤ leAt b 17 1 ∧ leAt b 17 1 ≤ 5 ∧ leAt b 24 8 % 4096 = 0 ∧ leAt b 24 8 < 2 ^ 52 ∧ s.mayName pf (leAt b 12 2) =
      true ∧ askState (s.askMem ask) = 0 ∧ s.net.invals.length < 16) ∧
    (∃ (s : State) (ns : Nat), s.dev.off = false ∧ 2000 < ns) :=
  ⟨⟨4095, 0xFFFFF, by decide +kernel⟩,
   ⟨5, by decide +kernel⟩,
   ⟨ctl (ent 82 [(8,4,0xFFFFF),(12,2,0),(14,2,2),(17,1,5),(24,8,0xFFFFFFFFFF000)]) up, 0, 0, 0xFFFFF, oe (ent 82 [(8,4,0xFFFFF),(12,2,0),(14,2,2),(17,1,5),(24,8,0xFFFFFFFFFF000)]), ent 0x52 [(8,4,0xFFFFF),(12,2,0),(14,2,2),(17,1,5),(24,8,0xFFFFFFFFFF000)], by unfold State.controls; decide +kernel⟩,
   ⟨up, 2001, by decide +kernel⟩⟩

/-! ## The commands' ranges -/


/-- What a host that sets nothing writes in the configuration space of a function. -/
def fc0 : FuncCfg := ⟨false, false, false, false, false, 0, false, 0, false, 0, []⟩
/-- Each range that WellFormed checks, of each command, is left by one term of these tests, and refused. -/
theorem test_ill_formed_refused_1 : (([
    .warmRestart 16 0, .warmRestart 0 65536, .warm (.near 2048) 0, .warm (.bar 1024) 0, .svnCommit (.near 2048) 0, .svnCommit (.bar 1024) 0,
    .registerWrite (.near 2048) 0 false 0, .registerWrite (.bar 1024) 0 false 0, .registerWrite .sideband 2 false 0,
    .registerWrite .sideband 4 true 0, .registerWrite .sideband 4294967296 false 0, .halfRead (.near 2048) 0, .halfRead (.bar 1024) 0,
    .halfRead .sideband 2, .halfRead .sideband 4294967296, .recordRead (.near 2048) 0, .recordRead (.bar 1024) 0, .recordRead .sideband 4,
    .recordRead .sideband 4294967296, .rcRead (.near 2048) 0 false, .rcRead (.bar 1024) 0 false, .rcRead .sideband 2 false,
    .rcRead .sideband 4 true, .rcRead .sideband 4294967296 false, .invEnable (.near 2048), .invEnable (.bar 1024), .invDisable (.near 2048),
    .invDisable (.bar 1024), .reacquire (.near 2048), .reacquire (.bar 1024), .sync 128 0, .sync 0 16, .syncReceived 128 0 0 0,
    .syncReceived 0 65536 0 0, .syncReceived 0 0 16 0, .syncReplyReceived 128 0 0 0 0, .syncReplyReceived 0 65536 0 0 0,
    .syncReplyReceived 0 0 0 0 16, .exchangeLost 128, .announceReceived 128 ann, .ppsEdge ⟨16, false⟩, .dispatch 64 0, .dispatch 0 3,
    .aluReg 2048 0 0 0 0, .aluReg 0 32 0 0 0, .aluReg 0 0 32 0 0, .aluReg 0 0 0 32 0, .aluReg 0 0 0 0 2048, .mulDiv 2048 0 0 0 0,
    .mulDiv 0 32 0 0 0, .mulDiv 0 0 32 0 0, .mulDiv 0 0 0 32 0, .mulDiv 0 0 0 0 2048, .aluImm 2048 0 0 0 0 0, .aluImm 0 64 0 0 0 0,
    .aluImm 0 0 32 0 0 0, .aluImm 0 0 0 32 0 0, .aluImm 0 0 0 0 65536 0, .aluImm 0 0 0 0 0 4294967296, .load 2048 0 0 0 0, .load 0 64 0 0 0,
    .load 0 0 32 0 0, .load 0 0 0 32 0, .load 0 0 0 0 65536, .farLoadReturn 2048 0 0, .store 2048 0 0 0 0, .store 0 64 0 0 0,
    .store 0 0 32 0 0, .store 0 0 0 32 0, .store 0 0 0 0 65536] : List Instr).any Instr.wf) = false := by decide +kernel
theorem test_ill_formed_refused_2 : (([
    .farStorePerform 2048 0, .farStorePerform 0 8, .icacheFill 2048 0, .branch 2048 0 0 0 0, .branch 0 64 0 0 0, .branch 0 0 32 0 0,
    .branch 0 0 0 32 0, .branch 0 0 0 0 65536, .jal 2048 0 0, .jal 0 32 0, .jal 0 0 2097152, .jalr 2048 0 0 0, .jalr 0 32 0 0,
    .jalr 0 0 32 0, .jalr 0 0 0 65536, .atomic 2048 0 0 0 0, .atomic 0 32 0 0 0, .atomic 0 0 32 0 0, .atomic 0 0 0 32 0,
    .atomic 0 0 0 0 2048, .fence ⟨2048, 0, 0, 0, 0⟩, .fence ⟨0, 32, 0, 0, 0⟩, .fence ⟨0, 0, 32, 0, 0⟩, .fence ⟨0, 0, 0, 32, 0⟩, .fence ⟨0, 0, 0, 0, 2048⟩,
    .fenceSt ⟨2048, 0, 0, 0, 0⟩, .fenceSt ⟨0, 32, 0, 0, 0⟩, .fenceSt ⟨0, 0, 32, 0, 0⟩, .fenceSt ⟨0, 0, 0, 32, 0⟩, .fenceSt ⟨0, 0, 0, 0, 2048⟩, .fenceI ⟨2048, 0, 0, 0, 0⟩,
    .fenceI ⟨0, 32, 0, 0, 0⟩, .fenceI ⟨0, 0, 32, 0, 0⟩, .fenceI ⟨0, 0, 0, 32, 0⟩, .fenceI ⟨0, 0, 0, 0, 2048⟩, .csrr ⟨2048, 0, 0⟩ 0 0, .csrr ⟨0, 0, 0⟩ 32 0,
    .csrr ⟨0, 32, 0⟩ 0 0, .csrr ⟨0, 0, 0⟩ 0 4096, .csrr ⟨0, 0, 16⟩ 0 0, .csrw 2048 0 0 0, .csrw 0 32 0 0, .csrw 0 0 32 0, .csrw 0 0 0 4096,
    .csrs 2048 0 0 0, .csrs 0 32 0 0, .csrs 0 0 32 0, .csrs 0 0 0 4096, .csrc 2048 0 0 0, .csrc 0 32 0 0, .csrc 0 0 32 0, .csrc 0 0 0 4096,
    .done ⟨2048, 0, 0, 0⟩, .done ⟨0, 32, 0, 0⟩, .done ⟨0, 0, 32, 0⟩, .done ⟨0, 0, 0, 256⟩, .sys ⟨2048, 0, 0⟩ 0, .sys ⟨0, 32, 0⟩ 0, .sys ⟨0, 0, 32⟩ 0, .sys ⟨0, 0, 0⟩ 256,
    .eret ⟨2048, 0, 0, 0⟩, .eret ⟨0, 32, 0, 0⟩, .eret ⟨0, 0, 32, 0⟩, .eret ⟨0, 0, 0, 256⟩, .brk ⟨2048, 0, 0⟩ 0, .brk ⟨0, 32, 0⟩ 0, .brk ⟨0, 0, 32⟩ 0, .brk ⟨0, 0, 0⟩ 256,
    .pause ⟨2048, 0, 0, 0⟩ 0, .pause ⟨0, 32, 0, 0⟩ 0] : List Instr).any Instr.wf) = false := by decide +kernel
theorem test_ill_formed_refused_3 : (([
    .pause ⟨0, 0, 32, 0⟩ 0, .pause ⟨0, 0, 0, 0⟩ 256, .pause ⟨0, 0, 0, 256⟩ 0, .watchdog 2048, .watchdogKill 2048, .handlerLost 64, .engineRetired 512,
    .engineStop 512, .htCommit 64, .icacheInv 64, .fput 2048 0 0 0, .fput 0 32 0 0, .fput 0 0 32 0, .fput 0 0 0 65536, .fget 2048 0 0 0,
    .fget 0 32 0 0, .fget 0 0 32 0, .fget 0 0 0 65536, .famo 2048 0 0 0, .famo 0 32 0 0, .famo 0 0 32 0, .famo 0 0 0 65536,
    .fsend 2048 0 0 0, .fsend 0 32 0 0, .fsend 0 0 32 0, .fsend 0 0 0 65536, .fflush 2048 0 0 0, .fflush 0 32 0 0, .fflush 0 0 32 0,
    .fflush 0 0 0 65536, .ffence 2048 0 0 0, .ffence 0 32 0 0, .ffence 0 0 32 0, .ffence 0 0 0 65536, .fmcast 2048 0 0 0, .fmcast 0 32 0 0,
    .fmcast 0 0 32 0, .fmcast 0 0 0 65536, .qfetch 2048 0 0 0 [], .qfetch 0 32 0 0 [], .qfetch 0 0 32 0 [], .qfetch 0 0 0 65536 [],
    .qfetch 0 0 0 0 [zeroBytes 63], .cqpost 2048 0 0 0, .cqpost 0 32 0 0, .cqpost 0 0 32 0, .cqpost 0 0 0 65536, .wfpush ⟨2048, 0⟩ 0 0 0,
    .wfpush ⟨0, 0⟩ 32 0 0, .wfpush ⟨0, 0⟩ 0 32 0, .wfpush ⟨0, 0⟩ 0 0 32, .wfpush ⟨0, 2048⟩ 0 0 0, .wfpop 2048 0 0 0 0, .wfpop 0 32 0 0 0,
    .wfpop 0 0 32 0 0, .wfpop 0 0 0 32 0, .wfpop 0 0 0 0 3, .mpost 2048 0 0 0, .mpost 0 32 0 0, .mpost 0 0 32 0, .mpost 0 0 0 65536,
    .mmatch 2048 0 0 0, .mmatch 0 32 0 0, .mmatch 0 0 32 0, .mmatch 0 0 0 65536, .mcancel 2048 0 0 0, .mcancel 0 32 0 0, .mcancel 0 0 32 0,
    .mcancel 0 0 0 65536, .rdft ⟨2048, 0, 0, 0⟩ 0] : List Instr).any Instr.wf) = false := by decide +kernel
theorem test_ill_formed_refused_4 : (([
    .rdft ⟨0, 0, 0, 0⟩ 32, .rdft ⟨0, 32, 0, 0⟩ 0, .rdft ⟨0, 0, 32, 0⟩ 0, .rdft ⟨0, 0, 0, 2048⟩ 0, .rdlt ⟨2048, 0, 0⟩ 0, .rdlt ⟨0, 0, 0⟩ 32, .rdlt ⟨0, 32, 0⟩ 0,
    .rdlt ⟨0, 0, 32⟩ 0, .rdts ⟨2048, 0, 0⟩ 0, .rdts ⟨0, 0, 0⟩ 32, .rdts ⟨0, 32, 0⟩ 0, .rdts ⟨0, 0, 32⟩ 0, .waitft ⟨2048, 0⟩ 0 0, .waitft ⟨0, 0⟩ 32 0,
    .waitft ⟨0, 0⟩ 0 32, .waitft ⟨0, 32⟩ 0 0, .waitftWake 2048, .trig 2048 0 0 0, .trig 0 32 0 0, .trig 0 0 32 0, .trig 0 0 0 65536,
    .triggerFire 64 0, .triggerFire 0 4096, .dma 2048 0 0 0, .dma 0 32 0 0, .dma 0 0 32 0, .dma 0 0 0 65536, .dmaDone 64 0 0 [],
    .dmaDone 0 4096 0 [], .tlbinv 2048 0 0 0, .tlbinv 0 32 0 0, .tlbinv 0 0 32 0, .tlbinv 0 0 0 65536, .invalidationAck 16 0,
    .invalidationAck 0 64, .amlsub 2048 0 0 0, .amlsub 0 32 0 0, .amlsub 0 0 32 0, .amlsub 0 0 0 65536, .opstat ⟨2048, 0, 0⟩ 0 0,
    .opstat ⟨0, 0, 0⟩ 32 0, .opstat ⟨0, 0, 0⟩ 0 32, .opstat ⟨0, 32, 0⟩ 0 0, .opstat ⟨0, 0, 2048⟩ 0 0, .opwait ⟨2048, 0⟩ 0 0, .opwait ⟨0, 0⟩ 32 0,
    .opwait ⟨0, 0⟩ 0 32, .opwait ⟨0, 32⟩ 0 0, .opabort ⟨2048, 0⟩ 0 0, .opabort ⟨0, 0⟩ 32 0, .opabort ⟨0, 0⟩ 0 32, .opabort ⟨0, 32⟩ 0 0, .pktrel ⟨2048, 0, 0⟩ 0,
    .pktrel ⟨0, 32, 0⟩ 0, .pktrel ⟨0, 0, 0⟩ 32, .pktrel ⟨0, 0, 32⟩ 0, .opDone 64 0, .opDone 0 4096, .opTimeout 64 0, .opTimeout 0 4096,
    .packetForm 64 0 0 [], .bankSwap 64 0, .bankSwap 0 4, .itemCommit 64 0 false, .itemCommit 0 4 false, .wfCfgWrite (.near 2048) 0 0 0,
    .wfCfgWrite (.bar 1024) 0 0 0, .wfCfgWrite .sideband 64 0 0, .wfCfgWrite .sideband 0 4 0, .doorbell 1024 0 0 0 false] : List Instr).any Instr.wf) = false := by decide +kernel
theorem test_ill_formed_refused_5 : (([
    .doorbell 0 1048576 0 0 false, .grant 4, .workEntryRead 262160 0 [], .workEntryRead 0 0 (zeroBytes 65), .cqWrite 65552,
    .cqOwnRead 65552, .cqOwnReadDone 65552 0 0, .cqPoll 65552, .ringStallTimeout 65552, .modTimer 65552, .msixSend 1024 0, .msixSend 0 2048,
    .cringDisable 16, .ccqDisable 16, .cqCreate 16 0, .cqCreate 0 65536, .cqModify 16 0, .cqModify 0 65536, .cqDestroy 16 0,
    .cqDestroy 0 65536, .cqReset 16 0, .cqReset 0 65536, .qCreate 16 0, .qCreate 0 65536, .qModify 16 0, .qModify 0 65536, .qShutdown 16 0,
    .qShutdown 0 65536, .queueShutdownDone 262160, .qDestroy 16 0, .qDestroy 0 65536, .qAbort 16 0, .qAbort 0 65536, .adapterReset 16 0,
    .epCreate 16 0, .epCreate 0 65536, .epDestroy 16 0, .epDestroy 0 65536, .connCreate 16 0, .connCreate 0 65536, .connDestroy 16 0,
    .connDestroy 0 65536, .connQuietEnd 1048576, .askCreate 16 0, .askCreate 0 65536, .askRevoke 16 0, .askRevoke 0 65536,
    .xltRevokeCtrl (.near 2048) 0, .xltRevokeCtrl (.bar 1024) 0, .askQuietEnd 1048576, .putPacket 64 0, .putPacket 0 4096, .getReq 64 0,
    .getReq 0 4096, .getResp 64 0, .getResp 0 4096, .amoReq 64 0, .amoReq 0 4096, .amoResp 64 0, .amoResp 0 4096, .flushProof 64 0,
    .flushProof 0 4096, .rlRetry 1048576 0, .rlRetry 0 4294967296, .ackDelay 1048576, .ack 1048576, .rto 1048576 0, .rto 0 4294967296,
    .retryExceeded 1048576 0, .retryExceeded 0 4294967296] : List Instr).any Instr.wf) = false := by decide +kernel
theorem test_ill_formed_refused_6 : (([
    .refuseBackoff 1048576 0, .refuseBackoff 0 4294967296, .put 262160 0, .put 0 65536, .putImm 262160 0, .putImm 0 65536, .get 262160 0,
    .get 0 65536, .amo 262160 0, .amo 0 65536, .send 262160 0, .send 0 65536, .flush 262160 0, .flush 0 65536, .nop 262160 0, .nop 0 65536,
    .recv 262160 0, .recv 0 65536, .walk 64, .walkDone 64 0 [], .walkDone 0 16 [], .xltInvalidate 16 0, .xltInvalidate 0 65536,
    .xltFaultWait 16 0, .xltFaultWait 0 65536, .xltFaultDone 16 0, .xltFaultDone 0 65536, .xltMmioSet 16 0, .xltMmioSet 0 65536,
    .overflowForward 64, .join 262160 0 0 [], .join 0 65536 0 [], .run 262160 0, .run 0 65536, .leave 262160 0, .leave 0 65536,
    .contribution 64 0, .contribution 0 4096, .stripeComplete 65536 0 0 [], .amlCfgWrite (.near 2048) 0 0, .amlCfgWrite (.bar 1024) 0 0,
    .amlCfgWrite .sideband 4294967296 0, .route 16, .portDown 128, .rtLoad 16 0 0 [], .rtLoad 0 65536 0 [], .rtArm 16 0, .rtArm 0 65536,
    .rtCancel 16 0, .rtCancel 0 65536, .rtQuery 16 0, .rtQuery 0 65536, .eptWrite 16 0, .eptWrite 0 65536, .routeEnable (.near 2048) 0,
    .routeEnable (.bar 1024) 0, .routeArm (.near 2048) 0, .routeArm (.bar 1024) 0, .routeCancel (.near 2048) 0, .routeCancel (.bar 1024) 0,
    .routeEptInv (.near 2048) 0, .routeEptInv (.bar 1024) 0, .solderArrival 129, .release 1048576, .readback 1048576 0,
    .readback 0 4294967296, .readbackDone 1048576 0, .readbackDone 0 4294967296, .ts1 128 0 (ts 1), .ts1 0 2 (ts 1)] : List Instr).any Instr.wf) = false := by decide +kernel
theorem test_ill_formed_refused_7 : (([
    .ts2 128 0 (ts 1), .ts2 0 2 (ts 1), .configComplete 128, .ts3 128 (ts 1), .slotLock 128, .lockLost 128, .lockTimeout 128,
    .slotReceived 128 [], .replayTimeout 128, .slotSend 128, .fault 128 0, .sleep 128, .signalDetect 128 0, .signalDetect 0 2,
    .retryWait 128, .trainTimeout 128, .linkEnable (.near 2048) 0 0, .linkEnable (.bar 1024) 0 0, .linkEnable .sideband 128 0,
    .linkDisable (.near 2048) 0 0, .linkDisable (.bar 1024) 0 0, .linkDisable .sideband 128 0, .retrain (.near 2048) 0 0,
    .retrain (.bar 1024) 0 0, .retrain .sideband 128 0, .linkWake 128, .gateEdge 128, .gateArm (.near 2048) 0 0, .gateArm (.bar 1024) 0 0,
    .gateArm .sideband 128 0, .gateCancel (.near 2048) 0 0, .gateCancel (.bar 1024) 0 0, .gateCancel .sideband 128 0, .gateTakeover 128,
    .wheelSlot 16, .limiterCfgWrite (.near 2048) 0 0 0, .limiterCfgWrite (.bar 1024) 0 0 0, .limiterCfgWrite .sideband 16 0 0,
    .limiterCfgWrite .sideband 0 4096 0, .schLimInv (.near 2048) 0, .schLimInv (.bar 1024) 0, .serEvaluation 128 0, .serEvaluation 0 2,
    .laneRetest (.near 2048) 0 0, .laneRetest (.bar 1024) 0 0, .laneRetest .sideband 128 0, .laneRetest .sideband 0 2,
    .eyeScan (.near 2048) 0 0 0, .eyeScan (.bar 1024) 0 0 0, .eyeScan .sideband 128 0 0, .eyeScan .sideband 0 2 0, .eyeScanDone 128 0 0,
    .eyeScanDone 0 2 0, .perst 4 false, .hostLinkDown 16, .functionLevelReset 1024, .functionStateChange 1024 0 fc0,
    .functionStateChange 0 4 fc0, .functionStateChange 0 0 { fc0 with numVfs := 1024 },
    .functionStateChange 0 0 { fc0 with bars := [0, 0, 0, 0, 0, 0, 0] }, .vfAllocWrite (.near 2048) 0 0, .vfAllocWrite (.bar 1024) 0 0,
    .vfAllocWrite .sideband 16 0, .l1Entry 16, .l1Exit 16, .errorReport 65536 0 0 0, .errorReport 0 256 0 0, .mergeWindowEnd 32,
    .tgfHistAck (.near 2048) 0, .tgfHistAck (.bar 1024) 0] : List Instr).any Instr.wf) = false := by decide +kernel
theorem test_ill_formed_refused_8 : (([
    .unfreeze (.near 2048), .unfreeze (.bar 1024), .inject (.near 2048) 0, .inject (.bar 1024) 0, .injectLock (.near 2048),
    .injectLock (.bar 1024), .hbmPageRetired 12582912, .retest (.near 2048) 0, .retest (.bar 1024) 0, .pmuFreeze (.near 2048) 0,
    .pmuFreeze (.bar 1024) 0, .histClear (.near 2048) 0, .histClear (.bar 1024) 0, .histClear .sideband 256, .sampleMark 512,
    .sampleRecord 512 0 0 0, .sampleRecord 0 0 0 16, .commit (.near 2048), .commit (.bar 1024), .pwrEnter 16 0, .pwrEnter 0 65536,
    .pwrQuery 16 0, .pwrQuery 0 65536, .fabricJoin 16 0, .fabricJoin 0 65536, .wake 4 [], .pwrWake (.near 2048) [], .pwrWake (.bar 1024) [],
    .thermalTrip 64, .avsSet 1024, .supplyFault 8, .pllUnlock 80, .setAddr 4294967296 false, .configTimeout 128, .hostLinkUp 16 0 0,
    .exitToL0Complete 16, .histDepthSample 256, .wakePatternEnd 128] : List Instr).any Instr.wf) = false := by decide +kernel
/-- The greatest operands are well formed. -/
theorem test_well_formed : ([.aluReg 2047 31 31 31 2047, .doorbell 1023 1048575 8 0 true, .cqWrite 65551, .jal 0 0 2097151,
    .registerWrite (.near 2047) 4294967292 false 0].all Instr.wf) = true := by decide +kernel

/-! ## Instruction words (R87, R98), each written out field by field: major, rd, rs1, and rs2 with fn or the immediate -/

/-- The word of format A. -/
def fmtA (major rd rs1 rs2 fn : Nat) : Nat := ((major * 32 + rd) * 32 + rs1) * 65536 + rs2 * 2048 + fn
theorem test_word_add : engineCommand 7 0b00000100011000010001000000000000 0 0 [] = .aluReg 7 3 1 2 0 := by decide +kernel
theorem test_word_li : engineCommand 7 0b00110000011000000000000000000000 0xDEADBEEF 0 [] = .aluImm 7 0x0C 3 0 0 0xDEADBEEF := by decide +kernel
theorem test_word_ld : engineCommand 7 (fmtA 0x13 3 1 0 8) 0 0 [] = .load 7 0x13 3 1 8 := by decide +kernel
theorem test_word_jal : engineCommand 7 0b10011000001111111111111111111111 0 0 [] = .jal 7 1 0x1FFFFF := by decide +kernel
theorem test_word_fence_reserved : engineCommand 7 (fmtA 0x29 0 0 0 3) 0 0 [] = .fence ⟨7, 0, 0, 0, 3⟩ := by decide +kernel
theorem test_word_csrc : engineCommand 7 0b10101000011000010011010000000101 0 0 [] = .csrc 7 3 1 0x405 := by decide +kernel
theorem test_word_eret : engineCommand 7 0b10101100000000000000001000000000 0 0 [] = .eret ⟨7, 0, 0, 0⟩ := by decide +kernel
theorem test_word_fput : engineCommand 7 0b11000000011000010000000000000101 0 0 [] = .fput 7 3 1 5 := by decide +kernel
theorem test_word_mcancel : engineCommand 7 0b11100000011000010000000000000010 0 0 [] = .mcancel 7 3 1 2 := by decide +kernel
theorem test_word_opabort : engineCommand 7 (fmtA 0x3E 3 1 0 2) 0 0 [] = .opabort ⟨7, 0⟩ 3 1 := by decide +kernel
theorem test_word_reserved_major : engineCommand 7 (fmtA 0x3F 1 2 3 4) 0 0 [] = .aluImm 7 0x3F 1 2 (3 * 2048 + 4) 0 := by decide +kernel

/-! ## Small tests; what is expected is the manual's, or worked out from its tables by hand -/

/-- Addresses of the example of 23_control_space.md (R530). -/
theorem test_address_gate_list : R.GATE_LIST.addr [42, 1, 37] = 0x082A5928 := by decide +kernel
theorem test_address_eye_ctrl : R.EYE_CTRL.addr [42, 1] = 0x0900AB00 := by decide +kernel
theorem test_address_q_state : R.RING_Q_STATE.addr [0x1234] = 0x019048D0 := by decide +kernel
theorem test_address_match_cfg : R.CLU_MATCH_CFG.addr [35] = 0x038C0100 := by decide +kernel
/-- The example of 11_matching.md: the home cluster of context 291 on both parts. -/
theorem test_home_cluster : State.reset.homeOf 291 = 35 ∧ ({ State.reset with variant := 2 } : State).homeOf 291 = 3 := by decide +kernel
/-- The example of 12_collectives.md: 1.5 and -1.5 at E = 5 with 96 bits; 32.0 makes POISON; 2^-70 converts to 0. -/
theorem test_partial_of_15 : toPartial 96 5 (fp32.decode 0x3FC00000) = 0x0C00000000000000 := by decide +kernel
theorem test_partial_of_minus_15 : toPartial 96 5 (fp32.decode 0xBFC00000) = 0xFFFFFFFFF400000000000000 := by decide +kernel
theorem test_partial_of_32 : toPartial 96 5 (fp32.decode 0x42000000) = poisonOf 96 := by decide +kernel
theorem test_partial_of_tiny : toPartial 96 5 (fp32.decode (57 * 2 ^ 23)) = 0 := by decide +kernel
/-- R308: the smallest subnormal of fp32 gives -149. -/
theorem test_expmax_subnormal : (fp32.decode 1).exponent = some (-149) := by decide +kernel

/-- The queue of the example of 06_host_rings.md (R169): N = 256. -/
def sqAt (fetched tail : Nat) : State := dbS.setQueue 9 { dbS.queue 9 with fetched := fetched, tail := tail }
/-- What a doorbell write leaves of the tail. -/
def tailAfter (s : State) (v : Nat) : Nat :=
  match exec (.doorbell 0 0x2000048 8 (w64 v) false) s with
  | .next u => (u.queue 9).tail
  | _ => 999
/-- Steps 1, 3 and 5 of the example, and its late doorbell that arrives before step 2 and is stale. -/
theorem test_doorbell_step1 : tailAfter (sqAt 250 250) 255 = 255 := by decide +kernel
theorem test_doorbell_step3 : tailAfter (sqAt 253 255) 252 = 252 := by decide +kernel
theorem test_doorbell_step5 : tailAfter (sqAt 255 255) 0 = 0 := by decide +kernel
theorem test_doorbell_stale : tailAfter (sqAt 250 255) 252 = 255 := by decide +kernel

/-- The value of g3 of thread 0 after a command. -/
def g3After (c : Instr) (s : State) : Nat :=
  match exec c s with
  | .next u => (u.reg 0 3).toNat
  | _ => 0
/-- 2^63 + 5 added to itself wraps to 10; a subtraction of the greater number wraps (Table 3-9). -/
theorem test_add_wraps : g3After (.aluReg 0 3 1 1 0x00) (ci 0 [(1, A)]) = 10 := by decide +kernel
theorem test_sub_wraps : g3After (.aluReg 0 3 2 1 0x01) (ci 0 [(1, A), (2, B)]) = 0x7FFFFFFFFFFFFFFE := by decide +kernel
/-- A shift of a signed number brings in its sign. -/
theorem test_sra_sign : g3After (.aluReg 0 3 1 2 0x07) (ci 0 [(1, A), (2, B)]) = 0xF000000000000000 := by decide +kernel
/-- A division by 0 gives all ones, and its remainder the dividend (R72). -/
theorem test_div_by_zero : g3After (.mulDiv 0 3 1 2 0x04) (ci 0 [(1, A)]) = 2 ^ 64 - 1 := by decide +kernel
theorem test_rem_by_zero : g3After (.mulDiv 0 3 1 2 0x06) (ci 0 [(1, A)]) = A.toNat := by decide +kernel
/-- A write of g0 is discarded (R63). -/
theorem test_g0_discards : (match exec (.jal 0 0 4) (ci 0 []) with
  | .next u => decide (u.reg 0 0 = 0 ∧ (u.thread 0).pc = 0x1010)
  | _ => false) = true := by decide +kernel

end Sys2Proof.Tests
end

section

open Sys2Proof Sys2Proof.Machine

namespace Sys2Proof.Machine

/-!
## Every command keeps the queue (R8, R11)

Only `Step.step` takes a command from the queue: no state operation touches `State.pending`. One rule per operation,
`<operation>_pending`, in the order of the model's files; the shared operations have theirs under Laws/Frame (`_frame`,
`_pending`). A rule about an operation that runs a continuation asks the same of the continuation, and one about an operation
that may fail is about the state it answers when it does not.

`-implicitDefEqProofs` stands where a proof by definitional unfolding would make the kernel compare two whole states.
-/

/-! #### What the rules below are assembled with -/

@[simp] theorem State.pending_ite {c : Prop} [Decidable c] (a b : State) :
    (if c then a else b).pending = if c then a.pending else b.pending := apply_ite State.pending c a b

@[simp] theorem State.snd_ite {α : Type} {c : Prop} [Decidable c] (a b : α × State) :
    (if c then a else b).2 = if c then a.2 else b.2 := apply_ite Prod.snd c a b

/-- For a state that a `match` took out of an answered pair. -/
theorem State.pending_of_eq {α : Type} {p : α × State} {a : α} {s t : State} (h : p = (a, t)) (hp : p.2.pending = s.pending) :
    t.pending = s.pending := by
  rw [← hp, h]

/-- For an operation that leaves the state as it was where it fails. -/
theorem State.getD_pending {o : Option State} {s : State} (h : ∀ t, o = some t → t.pending = s.pending) :
    (o.getD s).pending = s.pending := by
  cases o with
  | none => rfl
  | some t => exact h t rfl

/-! #### Laws/Frame, for the queue alone -/

theorem State.wfStart_pending {s t : State} {k : Nat} {reserveClass : Bool} {it : Item} {w : WriteFor}
    (h : s.wfStart k reserveClass it w = some t) : t.pending = s.pending := by
  have hf := State.wfStart_frame _ _ _ _ _ _ h
  simp only [hf]
theorem State.pushEvent_pending {s t : State} {c : Nat} {body : List Byte} (h : s.pushEvent c body = some t) :
    t.pending = s.pending := by
  have hf := State.pushEvent_frame _ _ _ _ h
  simp only [hf]
theorem State.writeAt_pending (s : State) (c : Nat) (m : MemAt) (off : Nat) (bs : List Byte) (cl : XltClient) :
    (s.writeAt c m off bs cl).2.pending = s.pending := by simp
theorem State.readAt_pending (s : State) (c : Nat) (m : MemAt) (off n : Nat) (cl : XltClient) (st : Nat) (host : List Byte) :
    (s.readAt c m off n cl st host).2.pending = s.pending := by simp
theorem State.locateOne_pending (s : State) (c : Nat) (m : MemAt) (off : Nat) (u : Use) (cl : XltClient) :
    (s.locateOne c m off u cl).2.pending = s.pending := by simp

/-! #### Sys2Proof/Machine/Ops.lean -/

@[simp] theorem State.freeBit_pending (s : State) : s.freeBit.2.pending = s.pending := by
  simp [State.freeBit]
@[simp] theorem State.freeWord_pending (s : State) : s.freeWord.2.pending = s.pending := by
  simp [State.freeWord]
@[simp] theorem State.live_pending (s : State) (f : State → State) (h : (f s).pending = s.pending) :
    (s.live f).pending = s.pending := by
  unfold State.live; split <;> simp [h]

/-! #### Sys2Proof/Machine/Pewter.lean -/

@[simp] theorem State.commitAcc_pending (s : State) : s.commitAcc.pending = s.pending := by
  simp -implicitDefEqProofs [State.commitAcc]
@[simp] theorem State.writeSet_pending (s : State) : s.writeSet.pending = s.pending := by
  simp [State.writeSet]
@[simp] theorem State.writeLog_pending (s : State) : s.writeLog.pending = s.pending := by
  simp [State.writeLog]
@[simp] theorem State.recordRetirement_pending (s : State) : s.recordRetirement.pending = s.pending := by
  simp [State.recordRetirement]
@[simp] theorem State.restoreRetired_pending (s : State) : s.restoreRetired.pending = s.pending := by
  -- The kernel cannot check the definition's equation at a state (it is too deep), so it is taken as one between functions.
  obtain ⟨f, hf⟩ : ∃ f, f = State.restoreRetired := ⟨_, rfl⟩
  have hfs := congrFun hf s
  delta State.restoreRetired at hf
  have hs := congrFun hf s
  beta_reduce at hs
  rw [← hfs, hs]
  generalize s.bestSet = b
  rcases b with _ | ⟨seq, bs⟩ <;> rfl
@[simp] theorem State.loadLife_pending (s : State) : s.loadLife.pending = s.pending := by
  simp [State.loadLife]

/-! #### Sys2Proof/Machine/Monitor.lean -/

@[simp] theorem State.histTime_pending (s : State) (src inst : Nat) (from_ : Word) :
    (s.histTime src inst from_).pending = s.pending := by
  simp [State.histTime]
@[simp] theorem State.histClear_pending (s : State) (u : Nat) : (s.histClear u).pending = s.pending := by
  simp -implicitDefEqProofs [State.histClear, State.foldl_pending]

/-! #### Sys2Proof/Machine/WorkFifo.lean -/

@[simp] theorem State.wfCommit_pending (s : State) (k b : Nat) (it : Item) : (s.wfCommit k b it).pending = s.pending := by
  simp [State.wfCommit]
@[simp] theorem State.wfReserve_pending (s : State) (k id len : Nat) : (s.wfReserve k id len).pending = s.pending := by
  simp [State.wfReserve]
@[simp] theorem State.wfTakeSpace_pending (s : State) (k i : Nat) : (s.wfTakeSpace k i).pending = s.pending := by
  unfold State.wfTakeSpace; dsimp only; split <;> simp
@[simp] theorem State.wfTakeAll_pending (s : State) (k : Nat) : (s.wfTakeAll k).pending = s.pending := by
  simp [State.wfTakeAll, State.foldl_pending]
@[simp] theorem bankSwap_pending (c f : Nat) (s : State) : (bankSwap c f s).pending = s.pending := by
  simp [bankSwap]
theorem State.wfTake_pending {s t : State} {k : Nat} {it : Item} (h : s.wfTake k = some (it, t)) : t.pending = s.pending := by
  unfold State.wfTake at h; dsimp only at h; (repeat' split at h) <;> cases h
  simp
@[simp] theorem wfCfgWrite_pending (c f : Nat) (v : Word) (s : State) : (wfCfgWrite c f v s).pending = s.pending := by
  simp [wfCfgWrite]

/-! #### Sys2Proof/Machine/Tungsten.lean -/

@[simp] theorem mergeWindowEnd_pending (i : Nat) (s : State) : (mergeWindowEnd i s).pending = s.pending := by
  simp [mergeWindowEnd]
@[simp] theorem histAck_pending (seq : Nat) (s : State) : (histAck seq s).pending = s.pending := by
  unfold histAck; split <;> simp
@[simp] theorem unfreeze_pending (s : State) : (unfreeze s).pending = s.pending := by
  simp [unfreeze]
@[simp] theorem inject_pending (v : Word) (s : State) : (inject v s).pending = s.pending := by
  simp -implicitDefEqProofs [inject]
@[simp] theorem injectLock_pending (s : State) : (injectLock s).pending = s.pending := by
  simp -implicitDefEqProofs [injectLock]
@[simp] theorem faultEvent_pending (s : State) : (faultEvent s).pending = s.pending := by
  unfold faultEvent; dsimp only; (repeat' split) <;> try simp
  all_goals exact State.wfStart_pending ‹_›
@[simp] theorem txoff_pending (s : State) : (txoff s).pending = s.pending := by
  unfold txoff; split <;> simp

/-! #### Sys2Proof/Machine/HostOps.lean -/

@[simp] theorem State.whenAwake_pending (s : State) (f : Nat) (k : State → State) (h : ∀ s, (k s).pending = s.pending) :
    (s.whenAwake f k).pending = s.pending := by
  unfold State.whenAwake; (repeat' split) <;> simp [h]
@[simp] theorem msixSend_pending (f v : Nat) (s : State) : (msixSend f v s).pending = s.pending := by
  simp [msixSend]
@[simp] theorem State.notIssued_pending (s : State) : s.notIssued.pending = s.pending := by
  simp [State.notIssued]

/-! #### Sys2Proof/Machine/Operation.lean -/

@[simp] theorem State.cancelTriggers_pending (s : State) : s.cancelTriggers.pending = s.pending := by
  simp [State.cancelTriggers, State.foldl_pending]
@[simp] theorem State.dropVoid_pending (s : State) (k : Nat) : (s.dropVoid k).pending = s.pending := by
  simp [State.dropVoid]

/-! #### Sys2Proof/Machine/Xlt.lean -/

@[simp] theorem State.askSetState_pending (s : State) (ask st : Nat) : (s.askSetState ask st).pending = s.pending := by
  simp [State.askSetState]
@[simp] theorem State.pwcBest_pending (s : State) (c ask va : Nat) : (s.pwcBest c ask va).2.pending = s.pending := by
  unfold State.pwcBest; dsimp only; split <;> simp
@[simp] theorem State.walkAll_pending (s : State) (c : Nat) (wins : List (Nat × Nat)) (b : List Byte) (ask va : Nat)
    (host : List (Nat × Nat)) : (s.walkAll c wins b ask va host).2.pending = s.pending := by
  unfold State.walkAll; (repeat' split) <;> try rfl
  all_goals exact State.pending_of_eq ‹_› (by simp)
@[simp] theorem State.fillL2_pending (s : State) (c : Nat) (e : TlbEntry) : (s.fillL2 c e).pending = s.pending := by
  simp [State.fillL2]
@[simp] theorem State.fillPwc_pending (s : State) (c : Nat) (ps : List PwcEntry) : (s.fillPwc c ps).pending = s.pending := by
  unfold State.fillPwc
  refine (State.foldl_pending _ _ (fun s p => ?_) s)
  simp
@[simp] theorem State.deliverWalk_pending (s : State) (c va : Nat) (cause : Option Nat) (cl : XltClient) (level : Nat) :
    (s.deliverWalk c va cause cl level).pending = s.pending := by
  unfold State.deliverWalk; dsimp only; (repeat' split) <;> simp
@[simp] theorem State.pmuWalk_pending (s : State) (cl : XltClient) : (s.pmuWalk cl).pending = s.pending := by
  unfold State.pmuWalk; split <;> simp
@[simp] theorem walk_pending (c : Nat) (s : State) : (walk c s).pending = s.pending := by
  unfold walk; dsimp only; (repeat' split) <;> simp
@[simp] theorem State.invalCluster_pending (s : State) (i : Inval) (c : Nat) : (s.invalCluster i c).pending = s.pending := by
  simp -implicitDefEqProofs [State.invalCluster, State.foldl_pending]
@[simp] theorem State.startInval_pending (s : State) (scope ask va len : Nat) (op : Option Nat) (cmd : Option
    (Nat × Nat × Nat)) : (s.startInval scope ask va len op cmd).pending = s.pending := by
  simp [State.startInval]
@[simp] theorem State.dropPend_pending (s : State) (ask : Nat) : (s.dropPend ask).pending = s.pending := by
  simp [State.dropPend]
@[simp] theorem State.illegalTarget_pending (s : State) (c ask level addr : Nat) :
    (s.illegalTarget c ask level addr).pending = s.pending := by
  simp -implicitDefEqProofs [State.illegalTarget, State.foldl_pending]
@[simp] theorem walkDone_pending (c i : Nat) (host : List (Nat × Nat)) (s : State) : (walkDone c i host s).pending = s.pending := by
  have wake (s : State) (w : Walk) (cause : Option Nat) (level : Nat) :
      (w.clients.foldl (fun s k => s.deliverWalk c w.va cause k level) s).pending = s.pending :=
    State.foldl_pending _ _ (fun s k => by simp) s
  unfold walkDone; dsimp only; (repeat' split) <;> try simp [wake]
  case h_1 =>
    rw [State.foldl_pending _ _ fun s k => by split <;> simp]
    simp
    exact State.pending_of_eq ‹_› (by simp)
  all_goals exact State.pending_of_eq ‹_› (by simp)

/-! #### Sys2Proof/Machine/Engine.lean -/

@[simp] theorem State.setReg_pending (s : State) (t i : Nat) (v : Word) : (s.setReg t i v).pending = s.pending := by
  simp [State.setReg]
@[simp] theorem State.tryAgain_pending (s : State) (t : Nat) : (s.tryAgain t).pending = s.pending := by
  simp [State.tryAgain]
@[simp] theorem State.fetchAt_pending (s : State) (t : Nat) (a : Word) : (s.fetchAt t a).2.pending = s.pending := by
  unfold State.fetchAt; dsimp only; (repeat' split) <;> simp
@[simp] theorem State.sampleIssue_pending (s after : State) (t word : Nat) :
    (State.sampleIssue s after t word).pending = after.pending := by
  unfold State.sampleIssue; dsimp only; (repeat' split) <;> simp
@[simp] theorem State.issued_pending (after before : State) (t word : Nat) :
    (after.issued before t word).pending = after.pending := by
  unfold State.issued; (repeat' split) <;> simp
@[simp] theorem State.issue_pending (s : State) (t word len : Nat) (legal : Bool) (level : Nat) (srcs : List Nat)
    (k : State → State) (h : ∀ s, (k s).pending = s.pending) : (s.issue t word len legal level srcs k).pending = s.pending := by
  unfold State.issue; dsimp only; (repeat' split) <;> simp [h]
@[simp] theorem State.writeNext_pending (s : State) (t rd len : Nat) (v : Word) : (s.writeNext t rd len v).pending = s.pending := by
  simp [State.writeNext]
@[simp] theorem State.startHandler_pending (s : State) (t : Nat) (h : Handler) (it : Item) :
    (s.startHandler t h it).pending = s.pending := by
  simp [State.startHandler]
@[simp] theorem dispatch_pending (c ecc : Nat) (s : State) : (dispatch c ecc s).pending = s.pending := by
  unfold dispatch; dsimp only; (repeat' split) <;> try simp
  all_goals exact State.wfTake_pending ‹_›
@[simp] theorem watchdog_pending (t : Nat) (s : State) : (watchdog t s).pending = s.pending := by
  simp [watchdog]
@[simp] theorem watchdogKill_pending (t : Nat) (s : State) : (watchdogKill t s).pending = s.pending := by
  unfold watchdogKill; dsimp only; split <;> simp
@[simp] theorem handlerLost_pending (c : Nat) (s : State) : (handlerLost c s).pending = s.pending := by
  unfold handlerLost; (repeat' split) <;> try simp
  all_goals exact State.wfStart_pending ‹_›
@[simp] theorem engineRetired_pending (g : Nat) (s : State) : (engineRetired g s).pending = s.pending := by
  simp [engineRetired]
@[simp] theorem engineStop_pending (g : Nat) (s : State) : (engineStop g s).pending = s.pending := by
  simp [engineStop]
@[simp] theorem htCommit_pending (c : Nat) (s : State) : (htCommit c s).pending = s.pending := by
  simp -implicitDefEqProofs [htCommit]
@[simp] theorem State.icacheClear_pending (s : State) (g : Nat) : (s.icacheClear g).pending = s.pending := by
  simp [State.icacheClear]
@[simp] theorem icacheInv_pending (c : Nat) (s : State) : (icacheInv c s).pending = s.pending := by
  simp -implicitDefEqProofs [icacheInv, State.foldl_pending]
@[simp] theorem farLoadReturn_pending (t st data : Nat) (s : State) : (farLoadReturn t st data s).pending = s.pending := by
  unfold farLoadReturn; dsimp only; (repeat' split) <;> simp
@[simp] theorem State.drained_pending (s : State) (t kind : Nat) : (s.drained t kind).pending = s.pending := by
  unfold State.drained; split <;> simp
@[simp] theorem farStorePerform_pending (t i : Nat) (s : State) : (farStorePerform t i s).pending = s.pending := by
  unfold farStorePerform; dsimp only; (repeat' split) <;> simp
@[simp] theorem icacheFill_pending (t st : Nat) (s : State) : (icacheFill t st s).pending = s.pending := by
  unfold icacheFill; dsimp only; split <;> simp

/-! #### Sys2Proof/Machine/Alu.lean -/

@[simp] theorem aluReg_pending (t rd rs1 rs2 fn : Nat) (s : State) : (aluReg t rd rs1 rs2 fn s).pending = s.pending := by
  simp [aluReg]
@[simp] theorem mulDiv_pending (t rd rs1 rs2 fn : Nat) (s : State) : (mulDiv t rd rs1 rs2 fn s).pending = s.pending := by
  simp [mulDiv]
@[simp] theorem aluImm_pending (t op rd rs1 imm imm2 : Nat) (s : State) : (aluImm t op rd rs1 imm imm2 s).pending = s.pending := by
  simp [aluImm]

/-! #### Sys2Proof/Machine/Control.lean -/

@[simp] theorem branch_pending (t op ra rb imm : Nat) (s : State) : (branch t op ra rb imm s).pending = s.pending := by
  simp [branch]
@[simp] theorem jal_pending (t rd imm : Nat) (s : State) : (jal t rd imm s).pending = s.pending := by
  simp [jal]
@[simp] theorem jalr_pending (t rd rs1 imm : Nat) (s : State) : (jalr t rd rs1 imm s).pending = s.pending := by
  simp [jalr]
@[simp] theorem fenceOp_pending (kind t rd rs1 rs2 fn : Nat) (s : State) : (fenceOp kind t rd rs1 rs2 fn s).pending = s.pending := by
  simp [fenceOp]
@[simp] theorem fence_pending (t rd rs1 rs2 fn : Nat) (s : State) : (fence t rd rs1 rs2 fn s).pending = s.pending := by
  simp [fence]
@[simp] theorem fenceSt_pending (t rd rs1 rs2 fn : Nat) (s : State) : (fenceSt t rd rs1 rs2 fn s).pending = s.pending := by
  simp [fenceSt]
@[simp] theorem fenceI_pending (t rd rs1 rs2 fn : Nat) (s : State) : (fenceI t rd rs1 rs2 fn s).pending = s.pending := by
  simp [fenceI]
@[simp] theorem State.csrSet_pending (s : State) (t csr : Nat) (v : Word) : (s.csrSet t csr v).pending = s.pending := by
  unfold State.csrSet; split <;> simp
@[simp] theorem csrOp_pending (kind t rd rs1 csr : Nat) (s : State) : (csrOp kind t rd rs1 csr s).pending = s.pending := by
  simp [csrOp]
@[simp] theorem csrr_pending (t rd rs1 csr kind : Nat) (s : State) : (csrr t rd rs1 csr kind s).pending = s.pending := by
  simp [csrr]
@[simp] theorem csrw_pending (t rd rs1 csr : Nat) (s : State) : (csrw t rd rs1 csr s).pending = s.pending := by
  simp [csrw]
@[simp] theorem csrs_pending (t rd rs1 csr : Nat) (s : State) : (csrs t rd rs1 csr s).pending = s.pending := by
  simp [csrs]
@[simp] theorem csrc_pending (t rd rs1 csr : Nat) (s : State) : (csrc t rd rs1 csr s).pending = s.pending := by
  simp [csrc]
@[simp] theorem State.sysIssue_pending (s : State) (t kind rd rs1 arg : Nat) (legal : Bool) (level : Nat)
    (k : State → State) (h : ∀ s, (k s).pending = s.pending) :
    (s.sysIssue t kind rd rs1 arg legal level k).pending = s.pending := by
  simp [State.sysIssue, h]
@[simp] theorem done_pending (t rd rs1 arg : Nat) (s : State) : (done t rd rs1 arg s).pending = s.pending := by
  simp [done]
@[simp] theorem sys_pending (t rd rs1 imm : Nat) (s : State) : (sys t rd rs1 imm s).pending = s.pending := by
  simp [sys]
@[simp] theorem brk_pending (t rd rs1 imm : Nat) (s : State) : (brk t rd rs1 imm s).pending = s.pending := by
  simp [brk]
@[simp] theorem eret_pending (t rd rs1 arg : Nat) (s : State) : (eret t rd rs1 arg s).pending = s.pending := by
  simp [eret]
@[simp] theorem pause_pending (t rd rs1 imm kind : Nat) (s : State) : (pause t rd rs1 imm kind s).pending = s.pending := by
  unfold pause
  exact State.sysIssue_pending _ _ _ _ _ _ _ _ _ fun s => by simp

/-! #### Sys2Proof/Machine/Framing.lean -/

@[simp] theorem State.sendOsN_pending (s : State) (p : Nat) (body : List Byte) (a : Nat) :
    (s.sendOsN p body a).pending = s.pending := by
  induction a generalizing s with
  | zero => rfl
  | succ n ih => simp [State.sendOsN, ih]
@[simp] theorem State.sendIdle_pending (s : State) (p : Nat) : (s.sendIdle p).pending = s.pending := by
  simp [State.sendIdle]
@[simp] theorem State.sendFault_pending (s : State) (p reason : Nat) : (s.sendFault p reason).pending = s.pending := by
  simp [State.sendFault]
@[simp] theorem State.toTimeSlot_pending (s : State) (p a : Nat) : (s.toTimeSlot p a).pending = s.pending := by
  induction a generalizing s with
  | zero => rfl
  | succ n ih => simp [State.toTimeSlot, ih]
@[simp] theorem State.sendTime_pending (s : State) (p : Nat) (rec_ : Emit) (body : List Byte) :
    (s.sendTime p rec_ body).pending = s.pending := by
  simp [State.sendTime]

/-! #### Sys2Proof/Machine/Invar.lean -/

@[simp] theorem State.invEvent_pending (s : State) (bit code : Nat) : (s.invEvent bit code).pending = s.pending := by
  simp [State.invEvent]
@[simp] theorem State.updSpec_pending (s : State) : s.updSpec.pending = s.pending := by
  simp [State.updSpec]
@[simp] theorem State.sendAnnounce_pending (s : State) : s.sendAnnounce.pending = s.pending := by
  unfold State.sendAnnounce; split <;> simp [State.foldl_pending]
@[simp] theorem State.setParent_pending (s : State) (p : Nat) : (s.setParent p).pending = s.pending := by
  simp [State.setParent]
@[simp] theorem State.enterTime_pending (s : State) (t : TimeState) : (s.enterTime t).pending = s.pending := by
  simp [State.enterTime]
@[simp] theorem State.enterHoldover_pending (s : State) : s.enterHoldover.pending = s.pending := by
  simp [State.enterHoldover]
@[simp] theorem State.enterUnsync_pending (s : State) : s.enterUnsync.pending = s.pending := by
  simp [State.enterUnsync]
@[simp] theorem State.adoptRoot_pending (s : State) (c : Cand) (gen seq : Nat) : (s.adoptRoot c gen seq).pending = s.pending := by
  simp [State.adoptRoot]
@[simp] theorem State.becomeRoot_pending (s : State) : s.becomeRoot.pending = s.pending := by
  simp [State.becomeRoot]
@[simp] theorem State.updStandby_pending (s : State) (a : Announce) : (s.updStandby a).pending = s.pending := by
  unfold State.updStandby; dsimp only; split <;> simp
@[simp] theorem State.chooseParent_pending (s : State) : s.chooseParent.pending = s.pending := by
  unfold State.chooseParent; (repeat' split) <;> simp
@[simp] theorem State.awaited_pending (s : State) (dn : Nat) : (s.awaited dn).pending = s.pending := by
  unfold State.awaited; split <;> simp
@[simp] theorem announceReceived_pending (p : Nat) (a : Announce) (s : State) : (announceReceived p a s).pending = s.pending := by
  unfold announceReceived; dsimp only; (repeat' split) <;> simp
@[simp] theorem sync_pending (p f : Nat) (s : State) : (sync p f s).pending = s.pending := by
  simp [sync]
@[simp] theorem syncReceived_pending (p id f dt : Nat) (s : State) : (syncReceived p id f dt s).pending = s.pending := by
  simp [syncReceived]
@[simp] theorem State.servo_pending (s : State) (offset : Int) : (s.servo offset).pending = s.pending := by
  simp -implicitDefEqProofs [State.servo]
@[simp] theorem State.wrSigned_pending (s : State) (r : RegDesc) (ix : List Nat) (v : Int) :
    (s.wrSigned r ix v).pending = s.pending := by
  simp [State.wrSigned]
@[simp] theorem State.parentExchange_pending (s : State) (seen : Nat) (offset : Int) :
    (s.parentExchange seen offset).pending = s.pending := by
  unfold State.parentExchange; dsimp only; (repeat' split) <;> simp
@[simp] theorem syncReplyReceived_pending (p id t2 t3 f : Nat) (s : State) :
    (syncReplyReceived p id t2 t3 f s).pending = s.pending := by
  unfold syncReplyReceived; dsimp only; split <;> simp
@[simp] theorem exchangeLost_pending (p : Nat) (s : State) : (exchangeLost p s).pending = s.pending := by
  unfold exchangeLost; dsimp only; split <;> simp
@[simp] theorem announce_pending (s : State) : (announce s).pending = s.pending := by
  simp [announce]
@[simp] theorem rootStale_pending (s : State) : (rootStale s).pending = s.pending := by
  unfold rootStale; split <;> simp
@[simp] theorem standbyWaitExpiry_pending (s : State) : (standbyWaitExpiry s).pending = s.pending := by
  unfold standbyWaitExpiry; split <;> simp
@[simp] theorem listenExpiry_pending (s : State) : (listenExpiry s).pending = s.pending := by
  unfold listenExpiry; (repeat' split) <;> simp
@[simp] theorem ftStep_pending (s : State) : (ftStep s).pending = s.pending := by
  unfold ftStep; dsimp only; (repeat' split) <;> simp
@[simp] theorem acquireComplete_pending (s : State) : (acquireComplete s).pending = s.pending := by
  unfold acquireComplete; split <;> simp
@[simp] theorem parentLost_pending (s : State) : (parentLost s).pending = s.pending := by
  unfold parentLost; (repeat' split) <;> simp
@[simp] theorem holdoverClear_pending (s : State) : (holdoverClear s).pending = s.pending := by
  simp [holdoverClear]
@[simp] theorem timeHoldoverLong_pending (s : State) : (timeHoldoverLong s).pending = s.pending := by
  simp [timeHoldoverLong]
@[simp] theorem ppsEdge_pending (f : Nat) (ten : Bool) (s : State) : (ppsEdge f ten s).pending = s.pending := by
  unfold ppsEdge; dsimp only; (repeat' split) <;> simp -implicitDefEqProofs
@[simp] theorem ppsLoss_pending (s : State) : (ppsLoss s).pending = s.pending := by
  unfold ppsLoss; split <;> simp
@[simp] theorem ref10mLoss_pending (s : State) : (ref10mLoss s).pending = s.pending := by
  simp [ref10mLoss]
@[simp] theorem ppsOutPulse_pending (s : State) : (ppsOutPulse s).pending = s.pending := by
  simp [ppsOutPulse]
@[simp] theorem ppsOutEnd_pending (s : State) : (ppsOutEnd s).pending = s.pending := by
  unfold ppsOutEnd; split <;> simp
@[simp] theorem State.routeDisarm_pending (s : State) : s.routeDisarm.pending = s.pending := by
  simp [State.routeDisarm]
@[simp] theorem invEnable_pending (s : State) : (invEnable s).pending = s.pending := by
  simp [invEnable]
@[simp] theorem invDisable_pending (s : State) : (invDisable s).pending = s.pending := by
  simp [invDisable]
@[simp] theorem reacquire_pending (s : State) : (reacquire s).pending = s.pending := by
  simp [reacquire]
@[simp] theorem State.moveLane_pending (s : State) (p l : Nat) : (s.moveLane p l).pending = s.pending := by
  simp [State.moveLane]
@[simp] theorem State.resetDelay_pending (s : State) (p : Nat) : (s.resetDelay p).pending = s.pending := by
  simp [State.resetDelay]

/-! #### Sys2Proof/Machine/Fabric.lean -/

@[simp] theorem State.eptRoom_pending (s : State) (epid : Nat) : (s.eptRoom epid).pending = s.pending := by
  simp [State.eptRoom]
@[simp] theorem State.resolve_pending (s : State) (epid : Nat) : (s.resolve epid).2.pending = s.pending := by
  unfold State.resolve; dsimp only; (repeat' split) <;> simp
theorem State.takeSlot_pending {s t : State} {c kind fl : Nat} {origin : Origin} {block : List Byte} {k : Nat}
    (h : s.takeSlot c kind fl origin block = some (k, t)) : t.pending = s.pending := by
  simp only [State.takeSlot, Option.map_eq_some_iff] at h
  obtain ⟨k, -, h⟩ := h
  cases h
  rfl
@[simp] theorem State.withLdm_pending (s : State) (t rs1 al n : Nat) (srcs : List Nat) (k : Nat → State → State) (h : ∀ a,
    (k a s).pending = s.pending) : (s.withLdm t rs1 al n srcs k).pending = s.pending := by
  unfold State.withLdm; dsimp only; (repeat' split) <;> simp [h]
@[simp] theorem State.withLdmRead_pending (s : State) (t rs1 key n : Nat) (k : State → State) (h : (k s).pending = s.pending) :
    (s.withLdmRead t rs1 key n k).pending = s.pending := by
  unfold State.withLdmRead; split <;> simp [h]
@[simp] theorem State.acceptOp_pending (s : State) (k priv xask : Nat) (start : Nat → Nat → State → State) (h : ∀ c k s,
    (start c k s).pending = s.pending) : (s.acceptOp k priv xask start).pending = s.pending := by
  simp [State.acceptOp, h]
@[simp] theorem State.submit_pending (s : State) (t rd rs1 major imm kind level : Nat) (legal : Bool)
    (ready : State → List Byte → Bool) (start : Nat → Nat → State → State) (ext : State → List Byte → List Byte)
    (h : ∀ c k s, (start c k s).pending = s.pending) :
    (s.submit t rd rs1 major imm kind level legal ready start ext).pending = s.pending := by
  unfold State.submit
  refine State.issue_pending _ _ _ _ _ _ _ _ fun s => State.withLdm_pending _ _ _ _ _ _ _ fun key =>
    State.withLdmRead_pending _ _ _ _ _ _ ?_
  dsimp only; split
  · split <;> simp
  · next heq =>
    split at heq
    · simp [h, State.takeSlot_pending heq]
    · cases heq
@[simp] theorem rdft_pending (t rd rs1 rs2 fn : Nat) (s : State) : (rdft t rd rs1 rs2 fn s).pending = s.pending := by
  simp [rdft]
@[simp] theorem rdlt_pending (t rd rs1 rs2 : Nat) (s : State) : (rdlt t rd rs1 rs2 s).pending = s.pending := by
  simp [rdlt]
@[simp] theorem rdts_pending (t rd rs1 rs2 : Nat) (s : State) : (rdts t rd rs1 rs2 s).pending = s.pending := by
  simp [rdts]
@[simp] theorem waitft_pending (t rd rs1 rs2 : Nat) (s : State) : (waitft t rd rs1 rs2 s).pending = s.pending := by
  simp [waitft]
@[simp] theorem waitftWake_pending (t : Nat) (s : State) : (waitftWake t s).pending = s.pending := by
  unfold waitftWake; dsimp only; split <;> simp
@[simp] theorem opstat_pending (t rd rs1 rs2 fn : Nat) (s : State) : (opstat t rd rs1 rs2 fn s).pending = s.pending := by
  simp [opstat]
@[simp] theorem opwait_pending (t rd rs1 rs2 : Nat) (s : State) : (opwait t rd rs1 rs2 s).pending = s.pending := by
  unfold opwait
  refine State.issue_pending _ _ _ _ _ _ _ _ fun s => ?_
  (repeat' split) <;> simp
@[simp] theorem wfpush_pending (t rd rs1 rs2 fn : Nat) (s : State) : (wfpush t rd rs1 rs2 fn s).pending = s.pending := by
  unfold wfpush
  refine State.issue_pending _ _ _ _ _ _ _ _ fun s => State.withLdm_pending _ _ _ _ _ _ _ fun key => ?_
  dsimp only; split
  · simp
  · split
    · next h => simp [State.wfStart_pending h]
    · simp
@[simp] theorem wfpop_pending (t rd rs1 rs2 ecc : Nat) (s : State) : (wfpop t rd rs1 rs2 ecc s).pending = s.pending := by
  unfold wfpop
  refine State.issue_pending _ _ _ _ _ _ _ _ fun s => ?_
  extract_lets v k head
  have hhead : ∀ it t, head = some (it, t) → t.pending = s.pending := by
    intro it t h
    simp only [head] at h
    split at h
    · cases h
    · exact State.wfTake_pending h
  clear_value head
  split
  · simp
  · refine State.withLdm_pending _ _ _ _ _ _ _ fun key => ?_
    split
    · rfl
    · next it t _ => split <;> simp [hhead it t rfl]

/-! #### Sys2Proof/Machine/MatchUnit.lean -/

@[simp] theorem State.unitMatch_pending (s : State) (c ctx src tag ref : Nat) :
    (s.unitMatch c ctx src tag ref).2.pending = s.pending := by
  unfold State.unitMatch; dsimp only; split <;> simp
@[simp] theorem State.claim_pending (s : State) (ctx f : Nat) : (s.claim ctx f).pending = s.pending := by
  simp [State.claim]
@[simp] theorem State.postOrWait_pending (s : State) (qn : Nat) (e : OutEntry) : (s.postOrWait qn e).pending = s.pending := by
  unfold State.postOrWait; dsimp only; (repeat' split) <;> try simp
  all_goals exact State.pending_of_eq ‹_› (by simp)
@[simp] theorem State.recvNotFound_pending (s : State) (qn : Nat) (e : OutEntry) : (s.recvNotFound qn e).pending = s.pending := by
  simp [State.recvNotFound]
@[simp] theorem State.dropCtxs_pending (s : State) (gone : Nat → Bool) : (s.dropCtxs gone).pending = s.pending := by
  simp -implicitDefEqProofs [State.dropCtxs, State.foldl_pending]
@[simp] theorem State.releaseCtxs_pending (s : State) (p : Nat → Bool) : (s.releaseCtxs p).pending = s.pending := by
  simp [State.releaseCtxs]

/-! #### Sys2Proof/Machine/Rings.lean -/

@[simp] theorem State.resumeAborts_pending (s : State) : s.resumeAborts.pending = s.pending := by
  simp [State.resumeAborts, State.foldl_pending]
@[simp] theorem State.irqCheck_pending (s : State) (cn : Nat) : (s.irqCheck cn).pending = s.pending := by
  simp [State.irqCheck]
@[simp] theorem modTimer_pending (cn : Nat) (s : State) : (modTimer cn s).pending = s.pending := by
  simp [modTimer]
@[simp] theorem State.checkResumed_pending (s : State) (cn : Nat) : (s.checkResumed cn).pending = s.pending := by
  simp [State.checkResumed]
@[simp] theorem cqWrite_pending (cn : Nat) (s : State) : (cqWrite cn s).pending = s.pending := by
  unfold cqWrite; dsimp only; (repeat' split) <;> simp
@[simp] theorem State.ownRead_pending (s : State) (cn : Nat) : (s.ownRead cn).pending = s.pending := by
  simp [State.ownRead]
@[simp] theorem cqOwnRead_pending (cn : Nat) (s : State) : (cqOwnRead cn s).pending = s.pending := by
  simp [cqOwnRead]
@[simp] theorem cqPoll_pending (cn : Nat) (s : State) : (cqPoll cn s).pending = s.pending := by
  simp [cqPoll]
@[simp] theorem cqOwnReadDone_pending (cn st n : Nat) (s : State) : (cqOwnReadDone cn st n s).pending = s.pending := by
  simp [cqOwnReadDone]
@[simp] theorem ringStallTimeout_pending (cn : Nat) (s : State) : (ringStallTimeout cn s).pending = s.pending := by
  unfold ringStallTimeout; dsimp only; split <;> simp [State.foldl_pending]
@[simp] theorem State.arbSync_pending (s : State) : s.arbSync.pending = s.pending := by
  simp [State.arbSync]
@[simp] theorem State.synced_pending (s : State) (f : State → State) (h : ∀ s, (f s).pending = s.pending) :
    (s.synced f).pending = s.pending := by
  unfold State.synced; (repeat' split) <;> simp [h]
@[simp] theorem State.chargeAll_pending (s : State) (f g qn b : Nat) : (s.chargeAll f g qn b).pending = s.pending := by
  simp [State.chargeAll]
@[simp] theorem State.selectQueue_pending (s : State) (k : Nat) : (s.selectQueue k).2.pending = s.pending := by
  unfold State.selectQueue; dsimp only; (repeat' split) <;> simp
@[simp] theorem State.queueReady_pending (s : State) (qn : Nat) : (s.queueReady qn).pending = s.pending := by
  unfold State.queueReady; dsimp only; (repeat' split) <;> try simp
  all_goals exact State.wfStart_pending ‹_›
@[simp] theorem State.ringFlush_pending (s : State) : s.ringFlush.pending = s.pending := by
  unfold State.ringFlush; dsimp only
  rw [State.foldl_pending _ _ (by simp), State.foldl_pending]
  intro s e
  split
  · next h => rw [← State.pushEvent_pending h]
  · rfl
@[simp] theorem State.issueReads_pending (s : State) (qn : Nat) (first : Bool) (a : Nat) :
    (s.issueReads qn first a).pending = s.pending := by
  induction a generalizing s first with
  | zero => rfl
  | succ b ih => simp [State.issueReads, ih]
@[simp] theorem grant_pending (k : Nat) (s : State) : (grant k s).pending = s.pending := by
  unfold grant; dsimp only; (repeat' split) <;> try simp
  all_goals exact State.pending_of_eq ‹_› (by simp)
@[simp] theorem State.ringMalformed_pending (s : State) (qn : Nat) (q : Queue) (idx reason : Nat) :
    (s.ringMalformed qn q idx reason).pending = s.pending := by
  simp -implicitDefEqProofs [State.ringMalformed]
@[simp] theorem State.takeEntry_pending (s : State) (qn idx : Nat) (data : List Byte) :
    (s.takeEntry qn idx data).pending = s.pending := by
  simp [State.takeEntry]
@[simp] theorem State.fetchSample_pending (s : State) (qn : Nat) : (s.fetchSample qn).pending = s.pending := by
  unfold State.fetchSample; dsimp only; split <;> simp
@[simp] theorem State.ownStop_pending (s : State) (qn : Nat) : (s.ownStop qn).pending = s.pending := by
  simp [State.ownStop, State.foldl_pending]
@[simp] theorem State.issueAgain_pending (s : State) (qn : Nat) : (s.issueAgain qn).pending = s.pending := by
  unfold State.issueAgain; dsimp only; split <;> simp
@[simp] theorem State.readFailed_pending (s : State) (qn : Nat) : (s.readFailed qn).pending = s.pending := by
  unfold State.readFailed; dsimp only; split <;> simp
@[simp] theorem workEntryRead_pending (qn st : Nat) (data : List Byte) (s : State) :
    (workEntryRead qn st data s).pending = s.pending := by
  unfold workEntryRead; dsimp only; (repeat' split) <;> simp
@[simp] theorem State.entryTaken_pending (s : State) (qn serial : Nat) : (s.entryTaken qn serial).pending = s.pending := by
  unfold State.entryTaken; dsimp only; (repeat' split) <;> simp
@[simp] theorem State.written_pending (s : State) (w : Writing) : (s.written w).pending = s.pending := by
  unfold State.written; split <;> simp
@[simp] theorem State.rewound_pending (s : State) (k : Nat) (w : Writing) : (s.rewound k w).pending = s.pending := by
  unfold State.rewound; split <;> simp
@[simp] theorem itemCommit_pending (c f : Nat) (bad : Bool) (s : State) : (itemCommit c f bad s).pending = s.pending := by
  unfold itemCommit; dsimp only; (repeat' split) <;> simp
@[simp] theorem doorbell_pending (f off size : Nat) (v : Word) (bad : Bool) (s : State) :
    (doorbell f off size v bad s).pending = s.pending := by
  unfold doorbell; (repeat' split) <;> simp
@[simp] theorem State.cringEnable_pending (s : State) (pf : Nat) : (s.cringEnable pf).pending = s.pending := by
  simp [State.cringEnable]
@[simp] theorem State.ccqEnable_pending (s : State) (pf : Nat) : (s.ccqEnable pf).pending = s.pending := by
  simp [State.ccqEnable]
@[simp] theorem cringDisable_pending (pf : Nat) (s : State) : (cringDisable pf s).pending = s.pending := by
  simp -implicitDefEqProofs [cringDisable]
@[simp] theorem ccqDisable_pending (pf : Nat) (s : State) : (ccqDisable pf s).pending = s.pending := by
  simp -implicitDefEqProofs [ccqDisable]
@[simp] theorem State.markStarted_pending (s : State) (qn serial : Nat) : (s.markStarted qn serial).pending = s.pending := by
  simp [State.markStarted]
@[simp] theorem State.ctrlAny_pending (s : State) (pf idx op : Nat) (body : List Byte → Nat → State → CtrlEnd × State)
    (h : ∀ b n s, (body b n s).2.pending = s.pending) : (s.ctrlAny pf idx op body).pending = s.pending := by
  unfold State.ctrlAny; dsimp only; (repeat' split) <;> try simp
  all_goals exact State.pending_of_eq ‹_› (by simp [h])
@[simp] theorem State.ctrl_pending (s : State) (pf idx op : Nat) (body : List Byte → Nat → State → CtrlEnd × State)
    (h : ∀ b n s, (body b n s).2.pending = s.pending) : (s.ctrl pf idx op body).pending = s.pending := by
  unfold State.ctrl; (repeat' split) <;> simp [h]
@[simp] theorem endsWith_pending (status : Nat) (s : State) : (endsWith status s).2.pending = s.pending := by
  simp [endsWith]
@[simp] theorem cqCreateBody_pending (pf : Nat) (b : List Byte) (x : Nat) (s : State) :
    (cqCreateBody pf b x s).2.pending = s.pending := by
  simp [cqCreateBody]
@[simp] theorem cqModifyBody_pending (pf : Nat) (b : List Byte) (x : Nat) (s : State) :
    (cqModifyBody pf b x s).2.pending = s.pending := by
  simp [cqModifyBody]
@[simp] theorem cqDestroyBody_pending (pf : Nat) (b : List Byte) (x : Nat) (s : State) :
    (cqDestroyBody pf b x s).2.pending = s.pending := by
  simp [cqDestroyBody]
@[simp] theorem cqResetBody_pending (pf : Nat) (b : List Byte) (x : Nat) (s : State) :
    (cqResetBody pf b x s).2.pending = s.pending := by
  simp [cqResetBody]
@[simp] theorem qCreateBody_pending (pf : Nat) (b : List Byte) (x : Nat) (s : State) :
    (qCreateBody pf b x s).2.pending = s.pending := by
  unfold qCreateBody; dsimp only; (repeat' split) <;> simp
@[simp] theorem qModifyBody_pending (pf : Nat) (b : List Byte) (x : Nat) (s : State) :
    (qModifyBody pf b x s).2.pending = s.pending := by
  simp [qModifyBody]
@[simp] theorem qShutdownBody_pending (pf : Nat) (b : List Byte) (serial : Nat) (s : State) :
    (qShutdownBody pf b serial s).2.pending = s.pending := by
  simp [qShutdownBody]
@[simp] theorem queueShutdownDone_pending (qn : Nat) (s : State) : (queueShutdownDone qn s).pending = s.pending := by
  unfold queueShutdownDone; dsimp only; split <;> simp
@[simp] theorem qDestroyBody_pending (pf : Nat) (b : List Byte) (x : Nat) (s : State) :
    (qDestroyBody pf b x s).2.pending = s.pending := by
  simp [qDestroyBody]
@[simp] theorem qAbort_pending (pf idx : Nat) (s : State) : (qAbort pf idx s).pending = s.pending := by
  unfold qAbort; dsimp only; split
  · split
    · rfl
    · refine State.ctrl_pending _ _ _ _ _ fun b n s => ?_
      (repeat' split) <;> simp
  · split
    · rfl
    · refine State.ctrl_pending _ _ _ _ _ fun b n s => ?_
      (repeat' split) <;> simp
@[simp] theorem State.ringsReset_pending (s : State) : s.ringsReset.pending = s.pending := by
  simp -implicitDefEqProofs [State.ringsReset, State.foldl_pending]

/-! #### Sys2Proof/Machine/Net.lean -/

@[simp] theorem State.noteHeld_pending (s : State) (x : Held) : (s.noteHeld x).pending = s.pending := by
  simp [State.noteHeld]
@[simp] theorem State.quietHalf_pending (s : State) (r : Nat) : (s.quietHalf r).pending = s.pending := by
  simp -implicitDefEqProofs [State.quietHalf, State.foldl_pending]
@[simp] theorem connQuietEnd_pending (r : Nat) (s : State) : (connQuietEnd r s).pending = s.pending := by
  simp [connQuietEnd]
@[simp] theorem epCreateBody_pending (pf : Nat) (b : List Byte) (x : Nat) (s : State) :
    (epCreateBody pf b x s).2.pending = s.pending := by
  simp [epCreateBody]
@[simp] theorem epDestroyBody_pending (pf : Nat) (b : List Byte) (x : Nat) (s : State) :
    (epDestroyBody pf b x s).2.pending = s.pending := by
  unfold epDestroyBody; dsimp only; split <;> simp
@[simp] theorem connCreateBody_pending (pf : Nat) (b : List Byte) (x : Nat) (s : State) :
    (connCreateBody pf b x s).2.pending = s.pending := by
  simp [connCreateBody]
@[simp] theorem connDestroyBody_pending (pf : Nat) (b : List Byte) (x : Nat) (s : State) :
    (connDestroyBody pf b x s).2.pending = s.pending := by
  simp [connDestroyBody]
@[simp] theorem State.askMove_pending (s : State) (ask st quiet : Nat) : (s.askMove ask st quiet).pending = s.pending := by
  simp [State.askMove]
@[simp] theorem askCreateBody_pending (pf : Nat) (b : List Byte) (serial : Nat) (s : State) :
    (askCreateBody pf b serial s).2.pending = s.pending := by
  simp [askCreateBody]
@[simp] theorem State.revokePoint_pending (s : State) (ask : Nat) (by_ : Option (Nat × Nat)) :
    (s.revokePoint ask by_).pending = s.pending := by
  simp [State.revokePoint]
@[simp] theorem revokeStart_pending (pf key serial : Nat) (s : State) : (revokeStart pf key serial s).2.pending = s.pending := by
  simp [revokeStart]
@[simp] theorem askRevokeBody_pending (pf : Nat) (b : List Byte) (serial : Nat) (s : State) :
    (askRevokeBody pf b serial s).2.pending = s.pending := by
  simp [askRevokeBody]
@[simp] theorem State.revokeNext_pending (l : List (Nat × Nat × Nat)) (s : State) : (State.revokeNext l s).pending = s.pending := by
  induction l generalizing s with
  | nil => rfl
  | cons x l ih =>
    unfold State.revokeNext; split
    · next h => simpa [ih] using State.pending_of_eq (s := s) h (by simp)
    · next h => exact State.pending_of_eq h (by simp)
@[simp] theorem State.nextRevoke_pending (s : State) : s.nextRevoke.pending = s.pending := by
  simp [State.nextRevoke]
@[simp] theorem xltRevokeCtrl_pending (path : Path) (v : Word) (s : State) : (xltRevokeCtrl path v s).pending = s.pending := by
  simp [xltRevokeCtrl]
@[simp] theorem revokeDrain_pending (s : State) : (revokeDrain s).pending = s.pending := by
  unfold revokeDrain; dsimp only; (repeat' split) <;> simp -implicitDefEqProofs
@[simp] theorem askQuietOver_pending (ask : Nat) (s : State) : (askQuietOver ask s).pending = s.pending := by
  simp [askQuietOver]
@[simp] theorem State.keyCheck_pending (s : State) (c key iso : Nat) : (s.keyCheck c key iso).2.2.pending = s.pending := by
  unfold State.keyCheck; dsimp only; (repeat' split) <;> simp
@[simp] theorem State.reportFaults_pending (n : Nat) (s : State) : (State.reportFaults n s).pending = s.pending := by
  induction n generalizing s with
  | zero => rfl
  | succ n ih => unfold State.reportFaults; (repeat' split) <;> simp [ih]
@[simp] theorem State.pendFault_pending (s : State) (ask va cause access src level : Nat) :
    (s.pendFault ask va cause access src level).pending = s.pending := by
  simp [State.pendFault]
@[simp] theorem State.withKey_pending (s : State) (pf key : Nat) (k : CtrlEnd × State) (h : k.2.pending = s.pending) :
    (s.withKey pf key k).2.pending = s.pending := by
  simp [State.withKey, h]
@[simp] theorem xltInvalidateBody_pending (pf : Nat) (b : List Byte) (serial : Nat) (s : State) :
    (xltInvalidateBody pf b serial s).2.pending = s.pending := by
  simp [xltInvalidateBody]
@[simp] theorem xltFaultWaitBody_pending (pf : Nat) (b : List Byte) (serial : Nat) (s : State) :
    (xltFaultWaitBody pf b serial s).2.pending = s.pending := by
  simp [xltFaultWaitBody]
@[simp] theorem xltFaultDoneBody_pending (pf : Nat) (b : List Byte) (x : Nat) (s : State) :
    (xltFaultDoneBody pf b x s).2.pending = s.pending := by
  simp [xltFaultDoneBody]
@[simp] theorem xltMmioSetBody_pending (pf : Nat) (b : List Byte) (x : Nat) (s : State) :
    (xltMmioSetBody pf b x s).2.pending = s.pending := by
  simp [xltMmioSetBody]
@[simp] theorem State.startQueued_pending (s : State) : s.startQueued.pending = s.pending := by
  simp [State.startQueued]
@[simp] theorem invalidationAck_pending (i c : Nat) (s : State) : (invalidationAck i c s).pending = s.pending := by
  unfold invalidationAck; (repeat' split) <;> simp
@[simp] theorem State.resetKeys_pending (s : State) (p : Nat → Bool) : (s.resetKeys p).pending = s.pending := by
  unfold State.resetKeys; dsimp only
  simp [State.foldl_pending]

/-! #### Sys2Proof/Machine/Access.lean -/

@[simp] theorem Moved.localStatus_pending (m : Moved) (s : State) : (Moved.localStatus m s).2.pending = s.pending := by
  unfold Moved.localStatus; split <;> simp
@[simp] theorem State.completeMoved_pending (s : State) (k : Nat) (m : Moved) (st : Nat) :
    (s.completeMoved k m st).pending = s.pending := by
  simp [State.completeMoved]

/-! #### Sys2Proof/Machine/PortOps.lean -/

@[simp] theorem State.freeOne_pending (s : State) (c : Option Credit) : (s.freeOne c).2.pending = s.pending := by
  unfold State.freeOne; split <;> simp
@[simp] theorem State.toSolder_pending (s : State) (x : RPkt) : (s.toSolder x).pending = s.pending := by
  simp [State.toSolder]
@[simp] theorem portDown_pending (p : Nat) (s : State) : (portDown p s).pending = s.pending := by
  simp [portDown]

/-! #### Sys2Proof/Machine/Egress.lean -/

@[simp] theorem gateEdge_pending (p : Nat) (s : State) : (gateEdge p s).pending = s.pending := by
  simp [gateEdge]
@[simp] theorem gateCtrl_pending (path : Path) (p : Nat) (v : Word) (s : State) : (gateCtrl path p v s).pending = s.pending := by
  simp -implicitDefEqProofs [gateCtrl]
@[simp] theorem gateArm_pending (path : Path) (p : Nat) (v : Word) (s : State) : (gateArm path p v s).pending = s.pending := by
  simp [gateArm]
@[simp] theorem gateCancel_pending (path : Path) (p : Nat) (v : Word) (s : State) : (gateCancel path p v s).pending = s.pending := by
  simp [gateCancel]
@[simp] theorem gateTakeover_pending (p : Nat) (s : State) : (gateTakeover p s).pending = s.pending := by
  simp -implicitDefEqProofs [gateTakeover]
@[simp] theorem State.gateWriteRefused_pending (s : State) (p : Nat) : (s.gateWriteRefused p).pending = s.pending := by
  simp [State.gateWriteRefused]
@[simp] theorem State.countWaits_pending (s : State) (p slot ft : Nat) (g : Gate) (hs : List Head) :
    (s.countWaits p slot ft g hs).pending = s.pending := by
  simp -implicitDefEqProofs [State.countWaits, State.foldl_pending]
@[simp] theorem State.headDecision_pending (s : State) (p : Nat) : (s.headDecision p).2.pending = s.pending := by
  unfold State.headDecision; dsimp only; (repeat' split) <;> simp
@[simp] theorem State.startHead_pending (s : State) (p : Nat) (t : Taken) : (s.startHead p t).pending = s.pending := by
  simp [State.startHead]
@[simp] theorem State.limOf_pending (s : State) (tile conn : Nat) : (s.limOf tile conn).2.pending = s.pending := by
  unfold State.limOf; dsimp only; split <;> simp
@[simp] theorem State.limPass_pending (s : State) (key k n : Nat) : (s.limPass key k n).2.pending = s.pending := by
  simp [State.limPass]
@[simp] theorem limiterRefill_pending (s : State) : (limiterRefill s).pending = s.pending := by
  simp [limiterRefill]
@[simp] theorem wheelSlot_pending (tile : Nat) (s : State) : (wheelSlot tile s).pending = s.pending := by
  simp [wheelSlot]
@[simp] theorem limiterCfgWrite_pending (path : Path) (tile k : Nat) (v : Word) (s : State) :
    (limiterCfgWrite path tile k v s).pending = s.pending := by
  simp -implicitDefEqProofs [limiterCfgWrite]
@[simp] theorem schLimInv_pending (path : Path) (v : Word) (s : State) : (schLimInv path v s).pending = s.pending := by
  simp [schLimInv]
@[simp] theorem depthSample_pending (s : State) : (depthSample s).pending = s.pending := by
  simp -implicitDefEqProofs [depthSample, State.foldl_pending]

/-! #### Sys2Proof/Machine/Routing.lean -/

@[simp] theorem State.setBank_pending (s : State) (b v : Nat) : (s.setBank b v).pending = s.pending := by
  simp [State.setBank]
@[simp] theorem State.choose_pending (s : State) (h : Nat) (live : List Cand4) : (s.choose h live).2.pending = s.pending := by
  simp [State.choose]
@[simp] theorem State.leaveOn_pending (s : State) (x : RPkt) (c : Cand4) : (s.leaveOn x c).pending = s.pending := by
  simp [State.leaveOn]
theorem State.routePkt_pending {s s1 : State} {tile : Nat} {x : RPkt} (h : s.routePkt tile x = some s1) : s1.pending = s.pending := by
  unfold State.routePkt at h; dsimp only at h; (repeat' split at h) <;> cases h <;> try simp
  all_goals exact State.pending_of_eq ‹_› (by simp)
theorem State.routeHeld_pending {s s1 : State} {tile i : Nat} {hs : List Hold} (h : s.routeHeld tile i hs = some s1) :
    s1.pending = s.pending := by
  induction hs generalizing i with
  | nil => simp [State.routeHeld] at h
  | cons x hs ih =>
    unfold State.routeHeld at h
    split at h
    · split at h
      · next h' => cases h; rw [State.routePkt_pending h']
      · exact ih h
    · exact ih h
@[simp] theorem route_pending (tile : Nat) (s : State) : (route tile s).pending = s.pending := by
  unfold route; dsimp only; (repeat' split) <;> try simp
  · exact State.routeHeld_pending ‹_›
  · next h => rw [State.routePkt_pending h]
@[simp] theorem routeHoldEnd_pending (i : Nat) (s : State) : (routeHoldEnd i s).pending = s.pending := by
  unfold routeHoldEnd; split <;> simp
@[simp] theorem State.enableRouting_pending (s : State) (b : Nat) : (s.enableRouting b).pending = s.pending := by
  unfold State.enableRouting; split <;> simp
@[simp] theorem State.armBank_pending (s : State) (at_ : Word) : (s.armBank at_).pending = s.pending := by
  simp [State.armBank]
@[simp] theorem epochWrite_pending (path : Path) (v : Word) (s : State) : (epochWrite path v s).pending = s.pending := by
  simp [epochWrite]
@[simp] theorem routeEnable_pending (path : Path) (v : Word) (s : State) : (routeEnable path v s).pending = s.pending := by
  simp [routeEnable]
@[simp] theorem routeArm_pending (path : Path) (v : Word) (s : State) : (routeArm path v s).pending = s.pending := by
  simp [routeArm]
@[simp] theorem routeCancel_pending (path : Path) (v : Word) (s : State) : (routeCancel path v s).pending = s.pending := by
  simp [routeCancel]
@[simp] theorem epochSwitch_pending (s : State) : (epochSwitch s).pending = s.pending := by
  unfold epochSwitch; split <;> simp
@[simp] theorem drainEnd_pending (s : State) : (drainEnd s).pending = s.pending := by
  unfold drainEnd; split <;> simp
@[simp] theorem State.tableWrite_pending (s : State) (b t i : Nat) (bs : List Byte) :
    (s.tableWrite b t i bs).pending = s.pending := by
  unfold State.tableWrite; dsimp only; split <;> simp -implicitDefEqProofs
@[simp] theorem State.copyBank_pending (s : State) (b : Nat) : (s.copyBank b).pending = s.pending := by
  simp [State.copyBank]
@[simp] theorem rtLoadBody_pending (st : Nat) (data : List Byte) (pf : Nat) (b : List Byte) (x : Nat) (s : State) :
    (rtLoadBody st data pf b x s).2.pending = s.pending := by
  unfold rtLoadBody; dsimp only; (repeat' split) <;> simp -implicitDefEqProofs [State.foldl_pending]
@[simp] theorem rtArmBody_pending (pf : Nat) (b : List Byte) (x : Nat) (s : State) : (rtArmBody pf b x s).2.pending = s.pending := by
  unfold rtArmBody; dsimp only; (repeat' split) <;> simp
@[simp] theorem rtCancelBody_pending (pf : Nat) (x : List Byte) (y : Nat) (s : State) :
    (rtCancelBody pf x y s).2.pending = s.pending := by
  simp -implicitDefEqProofs [rtCancelBody]
@[simp] theorem rtQueryBody_pending (pf : Nat) (x : List Byte) (y : Nat) (s : State) :
    (rtQueryBody pf x y s).2.pending = s.pending := by
  simp -implicitDefEqProofs [rtQueryBody]
@[simp] theorem State.eptDrop_pending (s : State) (epid : Nat) : (s.eptDrop epid).pending = s.pending := by
  simp [State.eptDrop]
@[simp] theorem eptWriteBody_pending (pf : Nat) (b : List Byte) (x : Nat) (s : State) :
    (eptWriteBody pf b x s).2.pending = s.pending := by
  simp [eptWriteBody]
@[simp] theorem routeEptInv_pending (path : Path) (v : Word) (s : State) : (routeEptInv path v s).pending = s.pending := by
  simp [routeEptInv]

/-! #### Sys2Proof/Machine/Solder.lean -/

@[simp] theorem State.spillWrite_pending (s : State) (p : Packet) (cells : List Nat) :
    (s.spillWrite p cells).pending = s.pending := by
  simp -implicitDefEqProofs [State.spillWrite, State.foldl_pending]
@[simp] theorem State.refuseBare_pending (s : State) (p : Packet) (rx : Word) (code detail : Nat) :
    (s.refuseBare p rx code detail).pending = s.pending := by
  simp [State.refuseBare]
@[simp] theorem ackDelay_pending (r : Nat) (s : State) : (ackDelay r s).pending = s.pending := by
  unfold ackDelay; split <;> simp
theorem State.deliver_pending {s s1 : State} {r : Nat} {p : Packet} {rx : Word} {hold : Bool}
    (h : s.deliver r p rx hold = some s1) : s1.pending = s.pending := by
  unfold State.deliver at h; dsimp only at h; split at h
  · cases h; simp
  · split at h
    · cases h
    · obtain ⟨t, ht, rfl⟩ := Option.map_eq_some_iff.mp h
      split at ht
      · cases ht; simp
      · simp [State.wfStart_pending ht]
@[simp] theorem State.ackItem_pending (s : State) (r : Nat) (b : List Byte) : (s.ackItem r b).pending = s.pending := by
  simp [State.ackItem]
@[simp] theorem State.owl_pending (s : State) (p : Packet) : (s.owl p).pending = s.pending := by
  simp [State.owl]
@[simp] theorem State.duplicate_pending (s : State) (r : Nat) (p : Packet) : (s.duplicate r p).pending = s.pending := by
  unfold State.duplicate; split <;> simp
@[simp] theorem State.holdPkt_pending (s : State) (r : Nat) (p : Packet) (full : Bool) :
    (s.holdPkt r p full).pending = s.pending := by
  unfold State.holdPkt; dsimp only; split <;> simp
@[simp] theorem State.dropHeld_pending (s : State) (r : Nat) (n : BitVec 32) : (s.dropHeld r n).pending = s.pending := by
  simp [State.dropHeld]
@[simp] theorem State.discardHeld_pending (s : State) (r : Nat) (x : Held) (cnt : RegDesc) :
    (s.discardHeld r x cnt).pending = s.pending := by
  simp [State.discardHeld]
@[simp] theorem State.setHeld_pending (s : State) (r : Nat) (n : BitVec 32) (f : Held → Held) :
    (s.setHeld r n f).pending = s.pending := by
  simp [State.setHeld]
@[simp] theorem State.releaseHeld_pending (s : State) (r : Nat) (x : Held) : (s.releaseHeld r x).pending = s.pending := by
  unfold State.releaseHeld; (repeat' split) <;> try simp
  next h => simp [State.deliver_pending h]
@[simp] theorem State.drainReady_pending (n : Nat) (s : State) : (State.drainReady n s).pending = s.pending := by
  induction n generalizing s with
  | zero => rfl
  | succ n ih => unfold State.drainReady; (repeat' split) <;> simp [ih]
@[simp] theorem State.releaseOrHold_pending (s : State) (r : Nat) (p : Packet) (hold : Bool) :
    (s.releaseOrHold r p hold).pending = s.pending := by
  unfold State.releaseOrHold; dsimp only; (repeat' split) <;> try simp
  all_goals simp [State.deliver_pending ‹_›]
@[simp] theorem State.judge_pending (s : State) (port : Nat) (p : Packet) : (s.judge port p).pending = s.pending := by
  unfold State.judge; (repeat' split) <;> simp
@[simp] theorem solderArrival_pending (port : Nat) (s : State) : (solderArrival port s).pending = s.pending := by
  unfold solderArrival; (repeat' split) <;> simp
@[simp] theorem release_pending (r : Nat) (s : State) : (release r s).pending = s.pending := by
  unfold release; split <;> simp
@[simp] theorem sweep_pending (s : State) : (sweep s).pending = s.pending := by
  unfold sweep; split
  · rfl
  · refine State.foldl_pending _ _ (fun s e => State.foldl_pending _ _ (fun s x => ?_) s) s
    split <;> simp
@[simp] theorem readback_pending (r n : Nat) (s : State) : (readback r n s).pending = s.pending := by
  unfold readback; dsimp only; (repeat' split) <;> simp
@[simp] theorem readbackDone_pending (r n : Nat) (s : State) : (readbackDone r n s).pending = s.pending := by
  unfold readbackDone; dsimp only; (repeat' split) <;> simp
@[simp] theorem State.doomLater_pending (s : State) (r : Nat) (n : BitVec 32) (code detail : Nat) :
    (s.doomLater r n code detail).pending = s.pending := by
  unfold State.doomLater; dsimp only; split
  · rfl
  · refine State.foldl_pending _ _ (fun s e => ?_) s
    (repeat' split) <;> simp
@[simp] theorem State.targetError_pending (s : State) (r : Nat) (p : Packet) (code detail : Nat) :
    (s.targetError r p code detail).pending = s.pending := by
  simp [State.targetError]
@[simp] theorem State.answer_pending (s : State) (c ref : Nat) (kind : Outc) (code detail : Nat) (now : Bool) :
    (s.answer c ref kind code detail now).pending = s.pending := by
  unfold State.answer; (repeat' split) <;> simp
@[simp] theorem State.answerWord_pending (s : State) (c ref outcome detail : Nat) :
    (s.answerWord c ref outcome detail).pending = s.pending := by
  simp [State.answerWord]

/-! #### Sys2Proof/Machine/Forming.lean -/

@[simp] theorem State.rlxAndSrc_pending (s : State) (o : Op) : (s.rlxAndSrc o).2.2.pending = s.pending := by
  unfold State.rlxAndSrc; dsimp only; (repeat' split) <;> simp
@[simp] theorem State.inject_pending (s : State) (c k : Nat) (o : Op) (p : Packet) : (s.inject c k o p).pending = s.pending := by
  simp -implicitDefEqProofs [State.inject, State.foldl_pending]
@[simp] theorem State.addTx_pending (s : State) (r : Nat) (p : Packet) (src : SrcRef) : (s.addTx r p src).pending = s.pending := by
  simp [State.addTx]
@[simp] theorem State.recordTx_pending (s : State) (o : Op) (p : Packet) (src : SrcRef) :
    (s.recordTx o p src).pending = s.pending := by
  simp -implicitDefEqProofs [State.recordTx, State.foldl_pending]
@[simp] theorem State.assignSeq_pending (s : State) (k : Nat) : (s.assignSeq k).pending = s.pending := by
  unfold State.assignSeq; dsimp only; split
  · rfl
  · rw [State.foldl_pending _ _ fun s e => State.setHalf_pending s _ _, State.setOp_pending]
@[simp] theorem State.endOnError_pending (s : State) (k : Nat) : (s.endOnError k).pending = s.pending := by
  unfold State.endOnError; dsimp only; split <;> simp
@[simp] theorem startFabric_pending (k : Nat) (s : State) : (startFabric k s).pending = s.pending := by
  unfold startFabric; dsimp only; (repeat' split) <;> try simp
  all_goals exact State.pending_of_eq ‹_› (by simp)
@[simp] theorem State.dropResponse_pending (s : State) (k : Nat) (kind : Outc) (code detail : Nat) :
    (s.dropResponse k kind code detail).pending = s.pending := by
  unfold State.dropResponse; dsimp only; split <;> simp
@[simp] theorem State.unreached_pending (s : State) (k : Nat) : (s.unreached k).pending = s.pending := by
  simp [State.unreached]
@[simp] theorem State.countSent_pending (s : State) (k : Nat) : (s.countSent k).pending = s.pending := by
  simp -implicitDefEqProofs [State.countSent, State.foldl_pending]
@[simp] theorem State.notFormed_pending (s : State) (k : Nat) : (s.notFormed k).pending = s.pending := by
  unfold State.notFormed; dsimp only; (repeat' split) <;> simp
@[simp] theorem State.halfGone_pending (s : State) (k : Nat) : (s.halfGone k).pending = s.pending := by
  simp [State.halfGone]
theorem State.retried_pending {s s1 : State} {m : Moved} {ask va access src : Nat}
    (h : s.retried m ask va access src = some s1) : s1.pending = s.pending := by
  unfold State.retried at h; (repeat' split at h) <;> simp at h <;> simp [← h]
@[simp] theorem State.targetFail_pending (s : State) (m : Moved) (ask va access src : Nat) :
    (s.targetFail m ask va access src).2.2.2.pending = s.pending := by
  unfold State.targetFail; dsimp only; (repeat' split) <;> try simp
  all_goals grind [State.retried_pending]
@[simp] theorem State.setTxRec_pending (s : State) (r : Nat) (q : BitVec 32) (f : TxRec → TxRec) :
    (s.setTxRec r q f).pending = s.pending := by
  simp [State.setTxRec]
@[simp] theorem State.retxFail_pending (s : State) (r : Nat) (x : TxRec) (code detail : Nat) :
    (s.retxFail r x code detail).pending = s.pending := by
  simp [State.retxFail]
@[simp] theorem State.srcFail_pending (s : State) (k : Nat) (m : Moved) (key va : Nat) :
    (s.srcFail k m key va).pending = s.pending := by
  unfold State.srcFail; dsimp only; (repeat' split) <;> simp
@[simp] theorem State.payloadOf_pending (s : State) (c k : Nat) (src : SrcRef) (check : Bool) (st : Nat) (host : List Byte) :
    (s.payloadOf c k src check st host).2.pending = s.pending := by
  unfold State.payloadOf; (repeat' split) <;> try simp
  all_goals
    rename_i h
    replace h := congrArg (fun p => p.2.2.pending) h
    split at h <;> simpa using h.symm
@[simp] theorem State.passLim_pending (s : State) (k n : Nat) : (s.passLim k n).2.pending = s.pending := by
  unfold State.passLim; split <;> simp
@[simp] theorem State.afterForm_pending (s : State) (k : Nat) (p : Packet) (src : SrcRef) :
    (s.afterForm k p src).pending = s.pending := by
  unfold State.afterForm; dsimp only; (repeat' split) <;> simp
@[simp] theorem State.formRetx_pending (s : State) (c k r : Nat) (x : TxRec) (payload : List Byte) :
    (s.formRetx c k r x payload).pending = s.pending := by
  simp [State.formRetx]
@[simp] theorem State.formNext_pending (s : State) (c k st : Nat) (host : List Byte) :
    (s.formNext c k st host).pending = s.pending := by
  unfold State.formNext; dsimp only; (repeat' split) <;> try simp
  all_goals exact State.pending_of_eq ‹_› (by simp)
@[simp] theorem packetForm_pending (c slot st : Nat) (data : List Byte) (s : State) :
    (packetForm c slot st data s).pending = s.pending := by
  unfold packetForm; dsimp only; (repeat' split) <;> try simp
  all_goals exact State.pending_of_eq ‹_› (by simp)

/-! #### Sys2Proof/Machine/Amalgam.lean -/

@[simp] theorem startAml_pending (k : Nat) (s : State) : (startAml k s).pending = s.pending := by
  simp [startAml]
@[simp] theorem State.amlGot_pending (s : State) (slot : Nat) (b : List Byte) (off n : Nat) :
    (s.amlGot slot b off n).pending = s.pending := by
  simp -implicitDefEqProofs [State.amlGot, State.foldl_pending]
@[simp] theorem contribution_pending (c ref : Nat) (s : State) : (contribution c ref s).pending = s.pending := by
  unfold contribution; dsimp only; (repeat' split) <;> simp
@[simp] theorem State.amlLocal_pending (s : State) (slot key k st : Nat) (host : List Byte) :
    (s.amlLocal slot key k st host).2.pending = s.pending := by
  unfold State.amlLocal; dsimp only; (repeat' split) <;> try simp
  all_goals exact State.pending_of_eq ‹_› (by simp)
@[simp] theorem State.amlWrite_pending (s : State) (slot key off : Nat) (bs : List Byte) :
    (s.amlWrite slot key off bs).2.pending = s.pending := by
  unfold State.amlWrite; dsimp only; (repeat' split) <;> try simp
  all_goals grind [State.writeAt_pending, Moved.localStatus_pending]
@[simp] theorem State.amlEnd_pending (s : State) (slot key : Nat) : (s.amlEnd slot key).pending = s.pending := by
  simp [State.amlEnd]
@[simp] theorem State.amlFinal_pending (s : State) (slot key k : Nat) : (s.amlFinal slot key k).pending = s.pending := by
  unfold State.amlFinal; dsimp only; (repeat' split) <;> try simp
  all_goals exact State.pending_of_eq ‹_› (by simp)
@[simp] theorem stripeComplete_pending (slot k st : Nat) (data : List Byte) (s : State) :
    (stripeComplete slot k st data s).pending = s.pending := by
  unfold stripeComplete; (repeat' split) <;> try simp
  all_goals exact State.pending_of_eq ‹_› (by simp)
@[simp] theorem amlCfgWrite_pending (path : Path) (addr : Nat) (v : Word) (s : State) :
    (amlCfgWrite path addr v s).pending = s.pending := by
  simp [amlCfgWrite]

/-! #### Sys2Proof/Machine/OpStart.lean -/

@[simp] theorem State.fetchEntries_pending (s : State) (qn key : Nat) (es : List (List Byte)) (n : Nat) :
    (s.fetchEntries qn key es n).2.2.pending = s.pending := by
  induction es generalizing s n with
  | nil => rfl
  | cons e es ih => unfold State.fetchEntries; dsimp only; (repeat' split) <;> simp [ih]
@[simp] theorem startQfetch_pending (k : Nat) (s : State) : (startQfetch k s).pending = s.pending := by
  simp -implicitDefEqProofs [startQfetch]
@[simp] theorem State.postCqe_pending (s : State) (k cn : Nat) (c : Completion) : (s.postCqe k cn c).pending = s.pending := by
  simp [State.postCqe]
@[simp] theorem startCqpost_pending (k : Nat) (s : State) : (startCqpost k s).pending = s.pending := by
  unfold startCqpost; dsimp only; (repeat' split) <;> simp
@[simp] theorem State.matchDone_pending (s : State) (k : Nat) (r : MRes) : (s.matchDone k r).pending = s.pending := by
  unfold State.matchDone; split <;> simp
@[simp] theorem startMatch_pending (k : Nat) (s : State) : (startMatch k s).pending = s.pending := by
  unfold startMatch; dsimp only; (repeat' split) <;> simp
@[simp] theorem State.setMover_pending (s : State) (m : Nat) (k : Option Nat) : (s.setMover m k).pending = s.pending := by
  simp [State.setMover]
@[simp] theorem State.endDma_pending (s : State) (k status detail : Nat) : (s.endDma k status detail).pending = s.pending := by
  unfold State.endDma; dsimp only; (repeat' split) <;> simp
@[simp] theorem State.misused_pending (s : State) : s.misused.pending = s.pending := by
  simp [State.misused]
@[simp] theorem startDma_pending (k : Nat) (s : State) : (startDma k s).pending = s.pending := by
  unfold startDma; dsimp only; (repeat' split) <;> try simp
  all_goals grind [State.keyCheck_pending, State.setMover_pending, State.setOp_pending]
@[simp] theorem State.dmaRead_pending (s : State) (k off n st : Nat) (host : List Byte) :
    (s.dmaRead k off n st host).2.pending = s.pending := by
  unfold State.dmaRead; dsimp only; (repeat' split) <;> simp
@[simp] theorem State.dmaRun_pending (s : State) (k st : Nat) (host : List Byte) (a : Nat) :
    (s.dmaRun k st host a).pending = s.pending := by
  induction a generalizing s with
  | zero => rfl
  | succ f ih =>
    unfold State.dmaRun; dsimp only; (repeat' split) <;> try simp [ih]
    all_goals grind [State.writeAt_pending, Moved.localStatus_pending, State.dmaRead_pending, State.endDma_pending,
      State.setOp_pending, → State.retried_pending]
@[simp] theorem dmaDone_pending (c slot st : Nat) (data : List Byte) (s : State) :
    (dmaDone c slot st data s).pending = s.pending := by
  unfold dmaDone; dsimp only; (repeat' split) <;> simp
@[simp] theorem startTlbinv_pending (k : Nat) (s : State) : (startTlbinv k s).pending = s.pending := by
  simp [startTlbinv]
@[simp] theorem startLaunched_pending (k : Nat) (s : State) : (startLaunched k s).pending = s.pending := by
  simp [startLaunched]
@[simp] theorem State.fire_pending (s : State) (t : Trigger) : (s.fire t).pending = s.pending := by
  simp [State.fire]
@[simp] theorem startTrig_pending (k : Nat) (s : State) : (startTrig k s).pending = s.pending := by
  unfold startTrig; (repeat' split) <;> simp
@[simp] theorem triggerFire_pending (c h : Nat) (s : State) : (triggerFire c h s).pending = s.pending := by
  unfold triggerFire; split <;> simp
@[simp] theorem startKind_pending (k : Nat) (s : State) : (startKind k s).pending = s.pending := by
  unfold startKind; dsimp only; (repeat' split) <;> simp
@[simp] theorem startAccepted_pending (k st : Nat) (s : State) : (startAccepted k st s).pending = s.pending := by
  simp [startAccepted]
@[simp] theorem State.startHeld_pending (s : State) : s.startHeld.pending = s.pending := by
  simp -implicitDefEqProofs [State.startHeld, State.foldl_pending]
@[simp] theorem fput_pending (t rd rs1 imm : Nat) (s : State) : (fput t rd rs1 imm s).pending = s.pending := by
  simp [fput]
@[simp] theorem fget_pending (t rd rs1 imm : Nat) (s : State) : (fget t rd rs1 imm s).pending = s.pending := by
  simp [fget]
@[simp] theorem famo_pending (t rd rs1 imm : Nat) (s : State) : (famo t rd rs1 imm s).pending = s.pending := by
  simp [famo]
@[simp] theorem fsend_pending (t rd rs1 imm : Nat) (s : State) : (fsend t rd rs1 imm s).pending = s.pending := by
  simp [fsend]
@[simp] theorem fflush_pending (t rd rs1 imm : Nat) (s : State) : (fflush t rd rs1 imm s).pending = s.pending := by
  simp [fflush]
@[simp] theorem ffence_pending (t rd rs1 imm : Nat) (s : State) : (ffence t rd rs1 imm s).pending = s.pending := by
  simp [ffence]
@[simp] theorem fmcast_pending (t rd rs1 imm : Nat) (s : State) : (fmcast t rd rs1 imm s).pending = s.pending := by
  simp [fmcast]
@[simp] theorem qfetch_pending (t rd rs1 imm : Nat) (es : List (List Byte)) (s : State) :
    (qfetch t rd rs1 imm es s).pending = s.pending := by
  simp [qfetch]
@[simp] theorem cqpost_pending (t rd rs1 imm : Nat) (s : State) : (cqpost t rd rs1 imm s).pending = s.pending := by
  simp [cqpost]
@[simp] theorem mpost_pending (t rd rs1 imm : Nat) (s : State) : (mpost t rd rs1 imm s).pending = s.pending := by
  simp [mpost]
@[simp] theorem mmatch_pending (t rd rs1 imm : Nat) (s : State) : (mmatch t rd rs1 imm s).pending = s.pending := by
  simp [mmatch]
@[simp] theorem mcancel_pending (t rd rs1 imm : Nat) (s : State) : (mcancel t rd rs1 imm s).pending = s.pending := by
  simp [mcancel]
@[simp] theorem trig_pending (t rd rs1 imm : Nat) (s : State) : (trig t rd rs1 imm s).pending = s.pending := by
  simp [trig]
@[simp] theorem dma_pending (t rd rs1 imm : Nat) (s : State) : (dma t rd rs1 imm s).pending = s.pending := by
  simp [dma]
@[simp] theorem tlbinv_pending (t rd rs1 imm : Nat) (s : State) : (tlbinv t rd rs1 imm s).pending = s.pending := by
  simp [tlbinv]
@[simp] theorem amlsub_pending (t rd rs1 imm : Nat) (s : State) : (amlsub t rd rs1 imm s).pending = s.pending := by
  simp [amlsub]
@[simp] theorem opabort_pending (t rd rs1 rs2 : Nat) (s : State) : (opabort t rd rs1 rs2 s).pending = s.pending := by
  unfold opabort
  refine State.issue_pending _ _ _ _ _ _ _ _ fun s => ?_
  split <;> simp
@[simp] theorem pktrel_pending (t rd rs1 rs2 : Nat) (s : State) : (pktrel t rd rs1 rs2 s).pending = s.pending := by
  simp [pktrel]
@[simp] theorem opTimeout_pending (c slot : Nat) (s : State) : (opTimeout c slot s).pending = s.pending := by
  unfold opTimeout; dsimp only; split <;> simp

/-! #### Sys2Proof/Machine/Target.lean -/

@[simp] theorem State.refuseFinal_pending (s : State) (c ref code detail : Nat) :
    (s.refuseFinal c ref code detail).pending = s.pending := by
  simp [State.refuseFinal]
@[simp] theorem State.refuseNow_pending (s : State) (c ref code : Nat) : (s.refuseNow c ref code).pending = s.pending := by
  simp [State.refuseNow]
@[simp] theorem State.consumed_pending (s : State) (c ref : Nat) : (s.consumed c ref).pending = s.pending := by
  unfold State.consumed; split <;> simp
@[simp] theorem State.answerDoom_pending (s : State) (c ref : Nat) (d : Nat × Nat) : (s.answerDoom c ref d).pending = s.pending := by
  simp [State.answerDoom]
@[simp] theorem State.keyRefuses_pending (s : State) (c : Nat) (h : Half) (p : Packet) (u : Use) :
    (s.keyRefuses c h p u).2.pending = s.pending := by
  unfold State.keyRefuses; (repeat' split)
  all_goals grind [State.keyCheck_pending]
@[simp] theorem State.withPacket_pending (s : State) (c ref : Nat) (ok : Half → Packet → Bool)
    (k : PktRef → Half → State → State) (h : ∀ x y s, (k x y s).pending = s.pending) :
    (s.withPacket c ref ok k).pending = s.pending := by
  unfold State.withPacket; dsimp only; (repeat' split) <;> simp [h]
@[simp] theorem State.targetAnswer_pending (s : State) (c ref : Nat) (m : Moved) (ask va access src : Nat) :
    (s.targetAnswer c ref m ask va access src).pending = s.pending := by
  simp [State.targetAnswer]
@[simp] theorem State.heldRefuse_pending (s : State) (c ref f : Nat) : (s.heldRefuse c ref f).pending = s.pending := by
  simp [State.heldRefuse]
@[simp] theorem State.noteWrote_pending (s : State) (r : Nat) (a : Option Nat) : (s.noteWrote r a).pending = s.pending := by
  unfold State.noteWrote; split <;> simp
@[simp] theorem State.putDone_pending (s : State) (c ref : Nat) (x : PktRef) : (s.putDone c ref x).pending = s.pending := by
  simp [State.putDone]
@[simp] theorem State.collGot_pending (s : State) (id chan n : Nat) : (s.collGot id chan n).pending = s.pending := by
  unfold State.collGot; split <;> simp
@[simp] theorem State.bufferPut_pending (s : State) (c ref : Nat) (x : PktRef) (id : Nat) :
    (s.bufferPut c ref x id).pending = s.pending := by
  unfold State.bufferPut; dsimp only; (repeat' split) <;> try simp
  all_goals grind [State.writeAt_pending, Moved.localStatus_pending]
@[simp] theorem State.placePut_pending (s : State) (c ref : Nat) (x : PktRef) (h : Half) :
    (s.placePut c ref x h).pending = s.pending := by
  unfold State.placePut; dsimp only; (repeat' split) <;> try simp
  all_goals grind [State.writeAt_pending, State.setPktRef_frame, State.keyRefuses_pending]
@[simp] theorem State.takePut_pending (s : State) (c ref : Nat) (x : PktRef) (h : Half) :
    (s.takePut c ref x h).pending = s.pending := by
  unfold State.takePut; (repeat' split) <;> simp
@[simp] theorem State.returnPath_pending (s : State) (h : Half) (p : Packet) : (s.returnPath h p).2.pending = s.pending := by
  unfold State.returnPath; (repeat' split) <;> exact State.pending_of_eq ‹_› (by simp)
theorem State.startResponse_pending {s s1 : State} {r kind n : Nat} {dest : Nat × Nat} {seq : BitVec 32} {block : List Byte}
    (h : s.startResponse r kind n dest seq block = some s1) : s1.pending = s.pending := by
  unfold State.startResponse at h
  obtain ⟨⟨k, t⟩, ht, rfl⟩ := Option.map_eq_some_iff.mp h
  simp [State.takeSlot_pending ht]
@[simp] theorem getReq_pending (c ref : Nat) (s : State) : (getReq c ref s).pending = s.pending := by
  unfold getReq
  refine State.withPacket_pending _ _ _ _ _ fun x h s => ?_
  dsimp only; (repeat' split) <;> try simp
  all_goals grind [State.keyRefuses_pending, State.returnPath_pending, State.startResponse_pending]
@[simp] theorem State.newRead_pending (s : State) (why : ReadFor) (f : Nat) : (s.newRead why f).2.pending = s.pending := by
  simp [State.newRead]
@[simp] theorem State.amoAnswer_pending (s : State) (c ref : Nat) (x : PktRef) (h : Half) (old : Nat) :
    (s.amoAnswer c ref x h old).pending = s.pending := by
  unfold State.amoAnswer; dsimp only; (repeat' split) <;> try simp
  all_goals grind [State.returnPath_pending, State.startResponse_pending]
@[simp] theorem State.amoAt_pending (s : State) (c ref : Nat) (x : PktRef) (h : Half) (pc : Piece) :
    (s.amoAt c ref x h pc).pending = s.pending := by
  unfold State.amoAt; (repeat' split) <;> simp
@[simp] theorem amoReq_pending (c ref : Nat) (s : State) : (amoReq c ref s).pending = s.pending := by
  unfold amoReq
  refine State.withPacket_pending _ _ _ _ _ fun x h s => ?_
  dsimp only; (repeat' split) <;> try simp
  all_goals grind [State.keyRefuses_pending, State.returnPath_pending, State.locateOne_pending, State.setPktRef_frame]
@[simp] theorem State.lateResponse_pending (s : State) : s.lateResponse.pending = s.pending := by
  simp [State.lateResponse]
@[simp] theorem getResp_pending (c ref : Nat) (s : State) : (getResp c ref s).pending = s.pending := by
  unfold getResp
  refine State.withPacket_pending _ _ _ _ _ fun x h s => ?_
  dsimp only; (repeat' split) <;> try simp
  all_goals grind [State.writeAt_pending, Moved.localStatus_pending]
@[simp] theorem amoResp_pending (c ref : Nat) (s : State) : (amoResp c ref s).pending = s.pending := by
  unfold amoResp
  refine State.withPacket_pending _ _ _ _ _ fun x h s => ?_
  dsimp only; (repeat' split) <;> try simp
  all_goals grind [State.writeAt_pending, Moved.localStatus_pending]
@[simp] theorem State.prove_pending (s : State) (c ref : Nat) (x : PktRef) : (s.prove c ref x).pending = s.pending := by
  simp [State.prove]
@[simp] theorem flushProof_pending (c ref : Nat) (s : State) : (flushProof c ref s).pending = s.pending := by
  unfold flushProof
  refine State.withPacket_pending _ _ _ _ _ fun x h s => ?_
  (repeat' split) <;> try simp
@[simp] theorem State.dropTag_pending (s : State) (t : Nat) : (s.dropTag t).pending = s.pending := by
  simp [State.dropTag]
@[simp] theorem State.hostDone_pending (s : State) (t st : Nat) (data : List Byte) : (s.hostDone t st data).pending = s.pending := by
  unfold State.hostDone; dsimp only; (repeat' split) <;> simp
@[simp] theorem readCompletion_pending (t st : Nat) (data : List Byte) (s : State) :
    (readCompletion t st data s).pending = s.pending := by
  simp [readCompletion]
@[simp] theorem atomicopCompletion_pending (t st : Nat) (data : List Byte) (s : State) :
    (atomicopCompletion t st data s).pending = s.pending := by
  unfold atomicopCompletion; (repeat' split) <;> simp
@[simp] theorem completionTimeout_pending (t : Nat) (s : State) : (completionTimeout t s).pending = s.pending := by
  unfold completionTimeout; split <;> simp

/-! #### Sys2Proof/Machine/MatchServer.lean -/

@[simp] theorem State.unmeet_pending (s : State) (c ref : Nat) : (s.unmeet c ref).pending = s.pending := by
  simp [State.unmeet]
@[simp] theorem State.repost_pending (s : State) (qn serial : Nat) : (s.repost qn serial).pending = s.pending := by
  unfold State.repost; split <;> simp
@[simp] theorem State.comeBack_pending (s : State) (qn serial ord : Nat) : (s.comeBack qn serial ord).pending = s.pending := by
  unfold State.comeBack; split <;> simp
@[simp] theorem State.claimFor_pending (s : State) (x : PktRef) : (s.claimFor x).pending = s.pending := by
  simp [State.claimFor]
@[simp] theorem State.keepRecv_pending (s : State) (qn : Nat) (e : OutEntry) : (s.keepRecv qn e).pending = s.pending := by
  simp [State.keepRecv]
theorem State.passOver_pending {s s1 : State} {c : Nat} {w : Want} (h : s.passOver c w = some s1) : s1.pending = s.pending := by
  unfold State.passOver at h; dsimp only at h; (repeat' split at h) <;> cases h <;> try simp
@[simp] theorem State.serveUpTo_pending (s : State) (c : Nat) (w : Want) (a : Nat) : (s.serveUpTo c w a).2.pending = s.pending := by
  induction a generalizing s with
  | zero => rfl
  | succ f ih =>
    unfold State.serveUpTo; (repeat' split) <;> try simp [ih]
    all_goals clear ih; grind [→ State.wfTake_pending, → State.passOver_pending, → State.wfStart_pending]
@[simp] theorem State.serve_pending (s : State) (c : Nat) (w : Want) : (s.serve c w).2.pending = s.pending := by
  simp [State.serve]
@[simp] theorem State.setOverflow_pending (s : State) (c : Nat) (l : List Fwd) : (s.setOverflow c l).pending = s.pending := by
  simp [State.setOverflow]
theorem State.forwardItem_pending {s s1 : State} {c home ty : Nat} {body : List Byte}
    (h : s.forwardItem c home ty body = some s1) : s1.pending = s.pending := by
  exact State.wfStart_pending h
@[simp] theorem State.onWay_pending (s : State) (c : Nat) (f : Fwd) : (s.onWay c f).pending = s.pending := by
  simp [State.onWay]
@[simp] theorem State.offWay_pending (s : State) (c : Nat) (f : Fwd) : (s.offWay c f).pending = s.pending := by
  simp [State.offWay]
theorem State.forward_sent_pending {s t : State} {c : Nat} {f : Fwd} {ty : Nat} {body : List Byte}
    (h : s.forward c f ty body = .sent t) : t.pending = s.pending := by
  unfold State.forward at h; dsimp only at h
  split at h
  · next heq =>
    cases h
    split at heq
    · cases heq
    · simp [State.forwardItem_pending heq]
  · split at h <;> cases h
theorem State.forward_listed_pending {s t : State} {c : Nat} {f : Fwd} {ty : Nat} {body : List Byte}
    (h : s.forward c f ty body = .listed t) : t.pending = s.pending := by
  unfold State.forward at h; dsimp only at h
  split at h
  · cases h
  · split at h <;> cases h
    simp
@[simp] theorem State.matchRefuse_pending (s : State) (home c ref : Nat) : (s.matchRefuse home c ref).pending = s.pending := by
  simp [State.matchRefuse]
@[simp] theorem State.meet_pending (s : State) (c ref home ctx : Nat) (rdv : Bool) (x : PktRef) :
    (s.meet c ref home ctx rdv x).pending = s.pending := by
  unfold State.meet; dsimp only; (repeat' split) <;> try simp
  all_goals exact State.pending_of_eq ‹_› (by simp)
@[simp] theorem State.arrive_pending (s : State) (c ref : Nat) (x : PktRef) (h : Half) :
    (s.arrive c ref x h).pending = s.pending := by
  unfold State.arrive; dsimp only; (repeat' split) <;> try simp
  · exact (State.forward_sent_pending ‹_›).trans (by simp)
  · exact (State.forward_listed_pending ‹_›).trans (by simp)
  · exact State.forward_sent_pending ‹_›
  · exact State.forward_listed_pending ‹_›
@[simp] theorem State.copyMatched_pending (s : State) (c ref : Nat) (x : PktRef) (qn serial : Nat) :
    (s.copyMatched c ref x qn serial).pending = s.pending := by
  unfold State.copyMatched; dsimp only; (repeat' split) <;> try simp
  all_goals grind [State.writeAt_pending, Moved.localStatus_pending]
@[simp] theorem State.copyToBlock_pending (s : State) (c ref key : Nat) (u : UnexpRec) (x : PktRef) :
    (s.copyToBlock c ref key u x).pending = s.pending := by
  unfold State.copyToBlock; (repeat' split) <;> simp
@[simp] theorem State.sendDoomed_pending (s : State) (c ref : Nat) (d : Nat × Nat) : (s.sendDoomed c ref d).pending = s.pending := by
  unfold State.sendDoomed; dsimp only; (repeat' split) <;> simp
@[simp] theorem State.takeSend_pending (s : State) (c ref : Nat) (x : PktRef) (h : Half) :
    (s.takeSend c ref x h).pending = s.pending := by
  unfold State.takeSend; (repeat' split) <;> simp
@[simp] theorem putPacket_pending (c ref : Nat) (s : State) : (putPacket c ref s).pending = s.pending := by
  unfold putPacket; split <;> simp
theorem State.getMessage_pending {s s1 : State} {qn : Nat} {e : OutEntry} {key : Nat} {u : UnexpRec} {rkey len va : Nat}
    (h : s.getMessage qn e key u rkey len va = some s1) : s1.pending = s.pending := by
  unfold State.getMessage at h; dsimp only at h
  obtain ⟨⟨k, t⟩, ht, rfl⟩ := Option.map_eq_some_iff.mp h
  simp [State.takeSlot_pending ht]
@[simp] theorem State.takeMessage_pending (s : State) (qn : Nat) (e : OutEntry) (key : Nat) (u : UnexpRec) :
    (s.takeMessage qn e key u).pending = s.pending := by
  unfold State.takeMessage; dsimp only; (repeat' split) <;> try simp
  · exact State.takeSlot_pending ‹_›
  · exact State.getD_pending fun t ht => (State.getMessage_pending ht).trans (by simp)
@[simp] theorem State.recvGoes_pending (s : State) (qn : Nat) (e : OutEntry) : (s.recvGoes qn e).pending = s.pending := by
  unfold State.recvGoes; split <;> simp
@[simp] theorem State.recvForward_pending (s : State) (qn : Nat) (e : OutEntry) : (s.recvForward qn e).pending = s.pending := by
  unfold State.recvForward; dsimp only; (repeat' split) <;> try simp
  · exact State.forward_sent_pending ‹_›
  · exact State.forward_listed_pending ‹_›
@[simp] theorem State.keptGoOn_pending (s : State) (c : Nat) : (s.keptGoOn c).pending = s.pending := by
  unfold State.keptGoOn
  refine State.foldl_pending _ _ (fun s w => ?_) s
  (repeat' split) <;> simp
@[simp] theorem State.recvPopped_pending (s : State) (qn : Nat) (e : OutEntry) : (s.recvPopped qn e).pending = s.pending := by
  simp [State.recvPopped]
@[simp] theorem State.recvGoesOn_pending (s : State) (qn : Nat) (e : OutEntry) : (s.recvGoesOn qn e).pending = s.pending := by
  simp [State.recvGoesOn]
@[simp] theorem recv_pending (qn idx : Nat) (s : State) : (recv qn idx s).pending = s.pending := by
  unfold recv; dsimp only; (repeat' split) <;> simp
@[simp] theorem overflowForward_pending (c : Nat) (s : State) : (overflowForward c s).pending = s.pending := by
  unfold overflowForward; dsimp only; (repeat' split) <;> try simp
  all_goals simp [State.forwardItem_pending ‹_›]
@[simp] theorem State.recvDone_pending (s : State) (o : Op) (qn serial : Nat) : (s.recvDone o qn serial).pending = s.pending := by
  simp [State.recvDone]

/-! #### Sys2Proof/Machine/Library.lean -/
theorem State.launch_pending {s s1 : State} {qn r : Nat} {e : OutEntry} (h : s.launch qn r e = some s1) : s1.pending = s.pending := by
  unfold State.launch at h
  obtain ⟨⟨k, t⟩, ht, rfl⟩ := Option.map_eq_some_iff.mp h
  simp [State.takeSlot_pending ht]
@[simp] theorem State.sqWork_pending (s : State) (qn idx : Nat) (is : Nat → Bool) : (s.sqWork qn idx is).pending = s.pending := by
  unfold State.sqWork; dsimp only; (repeat' split) <;> try simp
  next h => exact (State.launch_pending h).trans (by simp)
@[simp] theorem State.workOpDone_pending (s : State) (o : Op) (qn serial : Nat) : (s.workOpDone o qn serial).pending = s.pending := by
  unfold State.workOpDone; split <;> simp
@[simp] theorem State.responseLeft_pending (s : State) (o : Op) : (s.responseLeft o).pending = s.pending := by
  unfold State.responseLeft; dsimp only; (repeat' split) <;> simp
@[simp] theorem State.failSend_pending (s : State) (r : Nat) (p : Packet) : (s.failSend r p).pending = s.pending := by
  unfold State.failSend; (repeat' split) <;> simp
@[simp] theorem State.sourceError_pending (s : State) (r st : Nat) (q : BitVec 32) : (s.sourceError r st q).pending = s.pending := by
  unfold State.sourceError; split <;> simp
@[simp] theorem State.refused_pending (s : State) (r : Nat) (a : AckItem) : (s.refused r a).pending = s.pending := by
  unfold State.refused; dsimp only; (repeat' split) <;> simp
@[simp] theorem State.proven_pending (s : State) (r : Nat) (a : AckItem) : (s.proven r a).pending = s.pending := by
  unfold State.proven
  exact State.foldl_pending _ _ (fun s k => by simp) s
theorem State.resend_pending {s s1 : State} {r : Nat} {x : TxRec} (h : s.resend r x = some s1) : s1.pending = s.pending := by
  unfold State.resend at h; split at h
  · cases h
  · obtain ⟨⟨k, t⟩, ht, rfl⟩ := Option.map_eq_some_iff.mp h
    simp [State.takeSlot_pending ht]
@[simp] theorem rto_pending (r seq : Nat) (s : State) : (rto r seq s).pending = s.pending := by
  unfold rto; dsimp only; (repeat' split) <;> try simp
  all_goals exact State.resend_pending ‹_›
@[simp] theorem retryExceeded_pending (r seq : Nat) (s : State) : (retryExceeded r seq s).pending = s.pending := by
  unfold retryExceeded; split <;> simp
@[simp] theorem State.sendRefused_pending (s : State) (r seq : Nat) (is : Nat → Bool) :
    (s.sendRefused r seq is).pending = s.pending := by
  unfold State.sendRefused; (repeat' split) <;> try rfl
  exact State.getD_pending fun t ht => State.resend_pending ht
@[simp] theorem rlRetry_pending (r seq : Nat) (s : State) : (rlRetry r seq s).pending = s.pending := by
  simp [rlRetry]
@[simp] theorem refuseBackoff_pending (r seq : Nat) (s : State) : (refuseBackoff r seq s).pending = s.pending := by
  simp [refuseBackoff]

/-! #### Sys2Proof/Machine/Collective.lean -/

@[simp] theorem State.memberAt_pending (s : State) (ep : Nat) : (s.memberAt ep).2.pending = s.pending := by
  unfold State.memberAt; (repeat' split) <;> exact State.pending_of_eq ‹_› (by simp)
@[simp] theorem State.membersOf_pending (s : State) (eps : List Nat) (ms : List Member) :
    (s.membersOf eps ms).2.pending = s.pending := by
  induction eps generalizing s ms with
  | nil => rfl
  | cons ep eps ih =>
    unfold State.membersOf; split <;> try simp [ih]
    all_goals exact State.pending_of_eq ‹_› (by simp)
@[simp] theorem State.joinWith_pending (s : State) (q : Queue) (r : Nat) (b table : List Byte) :
    (s.joinWith q r b table).2.pending = s.pending := by
  unfold State.joinWith; dsimp only; (repeat' split) <;> try rfl
  all_goals try rw [State.setColl_pending, State.foldl_pending _ _ fun s e => State.setHalf_pending s _ _]
  all_goals exact State.pending_of_eq ‹_› (by simp)
@[simp] theorem State.collWork_pending (s : State) (qn idx sub : Nat) (f : Queue → Nat → OutEntry → State → State)
    (h : ∀ q n e s, (f q n e s).pending = s.pending) : (s.collWork qn idx sub f).pending = s.pending := by
  unfold State.collWork; dsimp only; (repeat' split) <;> simp [h]
@[simp] theorem join_pending (qn idx st : Nat) (data : List Byte) (s : State) : (join qn idx st data s).pending = s.pending := by
  unfold join
  refine State.collWork_pending _ _ _ _ _ fun q r e s => ?_
  dsimp only; (repeat' split) <;> try simp
  all_goals grind [State.takeSlot_pending, State.readAt_pending, Moved.localStatus_pending, State.markStarted_pending]
@[simp] theorem leave_pending (qn idx : Nat) (s : State) : (leave qn idx s).pending = s.pending := by
  unfold leave
  refine State.collWork_pending _ _ _ _ _ fun q r e s => ?_
  dsimp only; split <;> simp [State.foldl_pending]
@[simp] theorem State.setRun_pending (s : State) (id : Nat) (f : CollRun → CollRun) : (s.setRun id f).pending = s.pending := by
  unfold State.setRun; split <;> simp
theorem State.runOp_pending {s t : State} {c id step : Nat} {half : Option Nat} {kind fl : Nat} {block : List Byte}
    {k : Nat} (h : s.runOp c id step half kind fl block = some (k, t)) : t.pending = s.pending := by
  obtain ⟨⟨i, u⟩, hu, ht⟩ := Option.map_eq_some_iff.mp h
  cases ht
  simp [State.takeSlot_pending hu]
@[simp] theorem State.listOn_pending (s : State) (r : Nat) (who : Nat × Nat) : (s.listOn r who).pending = s.pending := by
  simp [State.listOn]
theorem State.runSend_pending {s s1 : State} {c id step phase : Nat} {at_ : Word} {w : RunSend}
    (h : s.runSend c id step phase at_ w = some s1) : s1.pending = s.pending := by
  unfold State.runSend at h; dsimp only at h
  split at h
  · obtain ⟨⟨k, t⟩, ht, rfl⟩ := Option.map_eq_some_iff.mp h
    simp [State.runOp_pending ht]
  · (repeat' split at h)
    · obtain ⟨⟨k, t⟩, ht, rfl⟩ := Option.map_eq_some_iff.mp h
      simp [State.runOp_pending ht]
    · simp at h
    · obtain ⟨⟨k, t⟩, ht, rfl⟩ := Option.map_eq_some_iff.mp h
      simp [State.runOp_pending ht]
@[simp] theorem State.runSends_pending (s : State) (c id : Nat) (cl : Coll) (step phase : Nat) (at_ : Word)
    (who : Nat × Nat) (held : List Nat) (a : List RunSend) :
    (s.runSends c id cl step phase at_ who held a).2.pending = s.pending := by
  induction a generalizing s held with
  | nil => rfl
  | cons w ws ih =>
    unfold State.runSends; dsimp only; split
    · next h =>
      split at h
      · cases h
      · rw [ih, State.runSend_pending h]
    · simp [ih, State.foldl_pending]
@[simp] theorem State.runPush_pending (s : State) (c id : Nat) (cl : Coll) (r : CollRun) (phase : Nat) :
    (s.runPush c id cl r phase).pending = s.pending := by
  unfold State.runPush; dsimp only
  simp [State.foldl_pending]
@[simp] theorem State.openSlots2_pending (s : State) (c id : Nat) (steps : List (RunStep × Nat)) :
    (s.openSlots2 c id steps).pending = s.pending := by
  unfold State.openSlots2
  refine State.foldl_pending _ _ (fun s e => ?_) s
  (repeat' split) <;> try simp
  exact State.runOp_pending ‹_›
@[simp] theorem State.runFault_pending (s : State) (id : Nat) (m : Moved) : (s.runFault id m).pending = s.pending := by
  unfold State.runFault; split <;> try simp
  all_goals exact State.pending_of_eq ‹_› (by simp)
@[simp] theorem State.libAccess_pending (s : State) (c id step : Nat) (f : XltClient → State → Moved × State) (h : ∀ x s,
    (f x s).2.pending = s.pending) : (s.libAccess c id step f).2.pending = s.pending := by
  unfold State.libAccess
  extract_lets slot
  have hslot : ∀ k t, slot = some (k, t) → t.pending = s.pending := by
    intro k t ht
    simp only [slot] at ht
    split at ht
    · cases ht; rfl
    · exact State.runOp_pending ht
  clear_value slot
  split
  · rfl
  · next k t =>
    have ht : (f (.op k) t).2.pending = s.pending := by rw [h, hslot k t rfl]
    split <;> simp [State.pending_of_eq ‹_› ht]
@[simp] theorem State.runPrepare_pending (s : State) (c id : Nat) (b : List Byte) (r : CollRun) (steps : List RunStep)
    (x : RunStep) : (s.runPrepare c id b r steps x).pending = s.pending := by
  unfold State.runPrepare; dsimp only; (repeat' split) <;> try simp
  all_goals exact State.pending_of_eq ‹_› (by simp)
@[simp] theorem State.runNext_pending (s : State) (c id : Nat) (cl : Coll) (b : List Byte) (r : CollRun) (count : Nat)
    (x : RunStep) : (s.runNext c id cl b r count x).pending = s.pending := by
  unfold State.runNext; dsimp only; (repeat' split) <;> try simp
  all_goals exact State.pending_of_eq ‹_› (by simp)
@[simp] theorem State.runOn_pending (s : State) (c id : Nat) (cl : Coll) (b : List Byte) (r : CollRun) :
    (s.runOn c id cl b r).pending = s.pending := by
  unfold State.runOn; dsimp only; (repeat' split) <;> simp
@[simp] theorem run_pending (qn idx : Nat) (s : State) : (run qn idx s).pending = s.pending := by
  unfold run
  refine State.collWork_pending _ _ _ _ _ fun q r e s => ?_
  dsimp only; (repeat' split) <;> simp
@[simp] theorem State.runOpDone_pending (s : State) (o : Op) (id : Nat) : (s.runOpDone o id).pending = s.pending := by
  unfold State.runOpDone; dsimp only; (repeat' split) <;> simp
@[simp] theorem phaseTimeout_pending (id : Nat) (s : State) : (phaseTimeout id s).pending = s.pending := by
  unfold phaseTimeout; split <;> simp

/-! #### Sys2Proof/Machine/Completion.lean -/

@[simp] theorem State.libDone_pending (s : State) (o : Op) : (s.libDone o).pending = s.pending := by
  unfold State.libDone; split <;> simp
@[simp] theorem opDone_pending (c slot : Nat) (s : State) : (opDone c slot s).pending = s.pending := by
  unfold opDone; dsimp only; (repeat' split) <;> simp

/-! #### Sys2Proof/Machine/Lanes.lean -/

@[simp] theorem State.sendTsOn_pending (s : State) (p l ty count : Nat) : (s.sendTsOn p l ty count).pending = s.pending := by
  simp [State.sendTsOn]
@[simp] theorem State.sendTs_pending (s : State) (p : Nat) (ls : List Nat) (ty count : Nat) :
    (s.sendTs p ls ty count).pending = s.pending := by
  simp -implicitDefEqProofs [State.sendTs, State.foldl_pending]
@[simp] theorem State.enterTrain_pending (s : State) (p : Nat) : (s.enterTrain p).pending = s.pending := by
  simp [State.enterTrain]
@[simp] theorem State.retrainPort_pending (s : State) (p : Nat) : (s.retrainPort p).pending = s.pending := by
  simp [State.retrainPort]
@[simp] theorem State.grantBuffer_pending (s : State) (p : Nat) : (s.grantBuffer p).pending = s.pending := by
  simp [State.grantBuffer]
@[simp] theorem State.enterConfig_pending (s : State) (p : Nat) (ls : List Nat) : (s.enterConfig p ls).pending = s.pending := by
  simp [State.enterConfig]
@[simp] theorem State.peerMarks_pending (s : State) (p l : Nat) (f : TsFrame) : (s.peerMarks p l f).pending = s.pending := by
  simp [State.peerMarks]
@[simp] theorem State.checkTrained_pending (s : State) (p : Nat) : (s.checkTrained p).pending = s.pending := by
  simp [State.checkTrained]
@[simp] theorem ts1_pending (p l : Nat) (f : TsFrame) (s : State) : (ts1 p l f s).pending = s.pending := by
  simp [ts1]
@[simp] theorem ts2_pending (p l : Nat) (f : TsFrame) (s : State) : (ts2 p l f s).pending = s.pending := by
  simp [ts2]
@[simp] theorem configComplete_pending (p : Nat) (s : State) : (configComplete p s).pending = s.pending := by
  unfold configComplete; dsimp only; split
  · rfl
  · simp -implicitDefEqProofs [State.foldl_pending]
@[simp] theorem ts3_pending (p : Nat) (f : TsFrame) (s : State) : (ts3 p f s).pending = s.pending := by
  simp [ts3]
@[simp] theorem configTimeout_pending (p : Nat) (s : State) : (configTimeout p s).pending = s.pending := by
  simp [configTimeout]
@[simp] theorem lockTimeout_pending (p : Nat) (s : State) : (lockTimeout p s).pending = s.pending := by
  simp [lockTimeout]
@[simp] theorem signalDetect_pending (p l : Nat) (s : State) : (signalDetect p l s).pending = s.pending := by
  simp [signalDetect]
@[simp] theorem retryWait_pending (p : Nat) (s : State) : (retryWait p s).pending = s.pending := by
  simp [retryWait]
@[simp] theorem State.retireLane_pending (s : State) (p l cause : Nat) : (s.retireLane p l cause).pending = s.pending := by
  simp [State.retireLane]
@[simp] theorem State.retireLanes_pending (s : State) (p : Nat) (ls : List (Nat × Nat)) :
    (s.retireLanes p ls).pending = s.pending := by
  unfold State.retireLanes; simp -implicitDefEqProofs [State.foldl_pending]
@[simp] theorem State.countFail_pending (s : State) (p l : Nat) : (s.countFail p l).pending = s.pending := by
  simp [State.countFail]
@[simp] theorem trainTimeout_pending (p : Nat) (s : State) : (trainTimeout p s).pending = s.pending := by
  unfold trainTimeout; dsimp only; (repeat' split) <;> simp -implicitDefEqProofs [State.foldl_pending]
@[simp] theorem State.evalLane_pending (s : State) (p l : Nat) : (s.evalLane p l).pending = s.pending := by
  simp -implicitDefEqProofs [State.evalLane]
@[simp] theorem serEvaluation_pending (p l : Nat) (s : State) : (serEvaluation p l s).pending = s.pending := by
  simp [serEvaluation]
@[simp] theorem State.unretireLane_pending (s : State) (p l : Nat) : (s.unretireLane p l).pending = s.pending := by
  simp [State.unretireLane]
@[simp] theorem laneRetest_pending (path : Path) (p l : Nat) (s : State) : (laneRetest path p l s).pending = s.pending := by
  simp [laneRetest]
@[simp] theorem State.disablePort_pending (s : State) (p : Nat) : (s.disablePort p).pending = s.pending := by
  simp [State.disablePort]
@[simp] theorem lnkCtrl_pending (path : Path) (p : Nat) (v : Word) (s : State) : (lnkCtrl path p v s).pending = s.pending := by
  unfold lnkCtrl; dsimp only; (repeat' split) <;> simp
@[simp] theorem linkEnable_pending (path : Path) (p : Nat) (v : Word) (s : State) : (linkEnable path p v s).pending = s.pending := by
  simp [linkEnable]
@[simp] theorem linkDisable_pending (path : Path) (p : Nat) (v : Word) (s : State) :
    (linkDisable path p v s).pending = s.pending := by
  simp [linkDisable]
@[simp] theorem retrain_pending (path : Path) (p : Nat) (v : Word) (s : State) : (retrain path p v s).pending = s.pending := by
  simp [retrain]
@[simp] theorem linkWake_pending (p : Nat) (s : State) : (linkWake p s).pending = s.pending := by
  simp [linkWake]
@[simp] theorem wakePatternEnd_pending (p : Nat) (s : State) : (wakePatternEnd p s).pending = s.pending := by
  unfold wakePatternEnd; split <;> simp
@[simp] theorem eyeScan_pending (path : Path) (p l : Nat) (v : Word) (s : State) : (eyeScan path p l v s).pending = s.pending := by
  simp -implicitDefEqProofs [eyeScan]
@[simp] theorem eyeScanDone_pending (p l n : Nat) (s : State) : (eyeScanDone p l n s).pending = s.pending := by
  simp -implicitDefEqProofs [eyeScanDone]

/-! #### Sys2Proof/Machine/HostLink.lean -/

@[simp] theorem State.settleWake_pending (s : State) : s.settleWake.pending = s.pending := by
  simp [State.settleWake]
@[simp] theorem State.resetFuncs_pending (s : State) (p : Nat → Bool) : (s.resetFuncs p).pending = s.pending := by
  simp [State.resetFuncs]
@[simp] theorem functionLevelReset_pending (f : Nat) (s : State) : (functionLevelReset f s).pending = s.pending := by
  simp [functionLevelReset]
@[simp] theorem State.endReads_pending (s : State) (p : Nat → Bool) : (s.endReads p).pending = s.pending := by
  simp -implicitDefEqProofs [State.endReads, State.foldl_pending]
@[simp] theorem perst_pending (k : Nat) (level : Bool) (s : State) : (perst k level s).pending = s.pending := by
  unfold perst; dsimp only; (repeat' split) <;> simp -implicitDefEqProofs [State.foldl_pending]
@[simp] theorem hostLinkDown_pending (a : Nat) (s : State) : (hostLinkDown a s).pending = s.pending := by
  simp [hostLinkDown]
@[simp] theorem hostLinkUp_pending (a width rate : Nat) (s : State) : (hostLinkUp a width rate s).pending = s.pending := by
  simp [hostLinkUp]
@[simp] theorem State.sendHeld_pending (s : State) (f : Nat) : (s.sendHeld f).pending = s.pending := by
  simp -implicitDefEqProofs [State.sendHeld, State.foldl_pending]
@[simp] theorem l1Entry_pending (a : Nat) (s : State) : (l1Entry a s).pending = s.pending := by
  simp [l1Entry]
@[simp] theorem l1Exit_pending (a : Nat) (s : State) : (l1Exit a s).pending = s.pending := by
  simp [l1Exit]
@[simp] theorem exitToL0Complete_pending (a : Nat) (s : State) : (exitToL0Complete a s).pending = s.pending := by
  simp -implicitDefEqProofs [exitToL0Complete, State.foldl_pending]
@[simp] theorem functionStateChange_pending (f d : Nat) (cfg : FuncCfg) (s : State) :
    (functionStateChange f d cfg s).pending = s.pending := by
  unfold functionStateChange; dsimp only; (repeat' split) <;> simp -implicitDefEqProofs [State.foldl_pending]
@[simp] theorem vfAllocWrite_pending (path : Path) (pf : Nat) (v : Word) (s : State) :
    (vfAllocWrite path pf v s).pending = s.pending := by
  simp -implicitDefEqProofs [vfAllocWrite]
@[simp] theorem State.dropCommands_pending (s : State) : s.dropCommands.pending = s.pending := by
  simp -implicitDefEqProofs [State.dropCommands]
@[simp] theorem State.adapterReset_pending (s : State) : s.adapterReset.pending = s.pending := by
  simp [State.adapterReset]
@[simp] theorem adapterReset_pending (pf : Nat) (v : BitVec 32) (s : State) : (adapterReset pf v s).pending = s.pending := by
  simp [adapterReset]

/-! #### Sys2Proof/Machine/Link.lean -/

@[simp] theorem State.sendCell_pending (s : State) (p : Nat) : (s.sendCell p).pending = s.pending := by
  unfold State.sendCell; dsimp only; split <;> simp
@[simp] theorem slotSend_pending (p : Nat) (s : State) : (slotSend p s).pending = s.pending := by
  unfold slotSend; dsimp only; (repeat' split) <;> try simp
  all_goals exact State.pending_of_eq ‹_› (by simp)
@[simp] theorem State.startReplay_pending (s : State) (p lack : Nat) : (s.startReplay p lack).pending = s.pending := by
  simp [State.startReplay]
@[simp] theorem replayTimeout_pending (p : Nat) (s : State) : (replayTimeout p s).pending = s.pending := by
  unfold replayTimeout; dsimp only; split <;> simp
@[simp] theorem State.countCw_pending (s : State) (p : Nat) (bad : Bool) (e0 e1 : Nat) :
    (s.countCw p bad e0 e1).pending = s.pending := by
  simp -implicitDefEqProofs [State.countCw, State.foldl_pending]
@[simp] theorem State.takeCw_pending (s : State) (p : Nat) (c : Codeword) : (s.takeCw p c).pending = s.pending := by
  simp [State.takeCw]
@[simp] theorem State.pendNak_pending (s : State) (p : Nat) : (s.pendNak p).pending = s.pending := by
  simp [State.pendNak]
@[simp] theorem State.noFault_pending (s : State) (p : Nat) : (s.noFault p).pending = s.pending := by
  simp [State.noFault]
@[simp] theorem State.naked_pending (s : State) (p lack : Nat) : (s.naked p lack).pending = s.pending := by
  unfold State.naked; dsimp only; (repeat' split) <;> simp
@[simp] theorem State.enterFaulted_pending (s : State) (p : Nat) : (s.enterFaulted p).pending = s.pending := by
  simp [State.enterFaulted]
@[simp] theorem State.takeOs_pending (s : State) (p : Nat) (body : List Byte) : (s.takeOs p body).pending = s.pending := by
  simp [State.takeOs]
@[simp] theorem State.takePacket_pending (s : State) (p : Nat) (a : Assembly) : (s.takePacket p a).pending = s.pending := by
  simp [State.takePacket]
@[simp] theorem State.takeCell_pending (s : State) (p : Nat) (f : Slot) : (s.takeCell p f).pending = s.pending := by
  unfold State.takeCell; dsimp only; (repeat' split) <;> simp
@[simp] theorem State.takeSlotBody_pending (s : State) (p : Nat) (f : Slot) : (s.takeSlotBody p f).pending = s.pending := by
  simp [State.takeSlotBody]
@[simp] theorem State.slotFailed_pending (s : State) (p : Nat) : (s.slotFailed p).pending = s.pending := by
  simp [State.slotFailed]
@[simp] theorem State.takeSlotIn_pending (s : State) (p : Nat) (f : Slot) : (s.takeSlotIn p f).pending = s.pending := by
  simp [State.takeSlotIn]
@[simp] theorem State.slotFrom_pending (s : State) (p : Nat) (cws : List Codeword) : (s.slotFrom p cws).2.pending = s.pending := by
  unfold State.slotFrom; dsimp only; split <;> simp [State.foldl_pending]
@[simp] theorem slotReceived_pending (p : Nat) (cws : List Codeword) (s : State) : (slotReceived p cws s).pending = s.pending := by
  unfold slotReceived; dsimp only; (repeat' split) <;> try simp
  all_goals exact State.pending_of_eq ‹_› (by simp)
@[simp] theorem slotLock_pending (p : Nat) (s : State) : (slotLock p s).pending = s.pending := by
  simp [slotLock]
@[simp] theorem lockLost_pending (p : Nat) (s : State) : (lockLost p s).pending = s.pending := by
  simp [lockLost]
@[simp] theorem faultReceived_pending (p _reason : Nat) (s : State) : (faultReceived p _reason s).pending = s.pending := by
  simp [faultReceived]
@[simp] theorem sleepReceived_pending (p : Nat) (s : State) : (sleepReceived p s).pending = s.pending := by
  simp [sleepReceived]

/-! #### Sys2Proof/Machine/Power.lean -/

@[simp] theorem State.writeFatal_pending (s : State) (complete : Bool) : (s.writeFatal complete).pending = s.pending := by
  simp [State.writeFatal]
@[simp] theorem State.deviceReset_pending (s : State) (kind : Nat) : (s.deviceReset kind).pending = s.pending := by
  simp [State.deviceReset]
@[simp] theorem State.warmReset_pending (s : State) : s.warmReset.pending = s.pending := by
  simp [State.warmReset]
@[simp] theorem resetN_pending (src : ResetSrc) (s : State) : (resetN src s).pending = s.pending := by
  unfold resetN; dsimp only; (repeat' split) <;> simp
@[simp] theorem powerOn_pending (s : State) : (powerOn s).pending = s.pending := by
  simp [powerOn]
@[simp] theorem powerDown_pending (s : State) : (powerDown s).pending = s.pending := by
  simp [powerDown]
@[simp] theorem warm_pending (path : Path) (v : Word) (s : State) : (warm path v s).pending = s.pending := by
  simp [warm]
@[simp] theorem State.bootLife_pending (s : State) : s.bootLife.pending = s.pending := by
  simp [State.bootLife]
@[simp] theorem State.bootHandlers_pending (s : State) (hs : List (Nat × Nat × Nat × Nat)) :
    (s.bootHandlers hs).pending = s.pending := by
  simp -implicitDefEqProofs [State.bootHandlers, State.foldl_pending]
@[simp] theorem State.startAtControl_pending (s : State) (c : Nat) (entry : Word) :
    (s.startAtControl c entry).pending = s.pending := by
  unfold State.startAtControl; split <;> simp
@[simp] theorem State.startControl_pending (s : State) (entry : Word) : (s.startControl entry).pending = s.pending := by
  simp [State.startControl]
@[simp] theorem State.startServer_pending (s : State) (c : Nat) : (s.startServer c).pending = s.pending := by
  simp [State.startServer]
@[simp] theorem State.arm_pending (s : State) : s.arm.pending = s.pending := by
  simp [State.arm]
@[simp] theorem boot_pending (r : BootEnv) (s : State) : (boot r s).pending = s.pending := by
  unfold boot; split
  · rfl
  · simp -implicitDefEqProofs [State.foldl_pending]
@[simp] theorem bootFail_pending (r : BootEnv) (s : State) : (bootFail r s).pending = s.pending := by
  unfold bootFail; split
  · rfl
  · simp -implicitDefEqProofs
@[simp] theorem svnCommit_pending (path : Path) (v : Word) (s : State) : (svnCommit path v s).pending = s.pending := by
  simp [svnCommit]
@[simp] theorem pwrEnterBody_pending (pf : Nat) (b : List Byte) (x : Nat) (s : State) :
    (pwrEnterBody pf b x s).2.pending = s.pending := by
  unfold pwrEnterBody; dsimp only; (repeat' split) <;> simp
@[simp] theorem State.parkTime_pending (s : State) (st : Nat) : (s.parkTime st).pending = s.pending := by
  unfold State.parkTime; (repeat' split) <;> simp
@[simp] theorem State.park_pending (s : State) (st : Nat) : (s.park st).pending = s.pending := by
  simp -implicitDefEqProofs [State.park, State.foldl_pending]
@[simp] theorem State.spoilN_pending (s : State) (k n : Nat) : (s.spoilN k n).pending = s.pending := by
  simp -implicitDefEqProofs [State.spoilN, State.foldl_pending]
@[simp] theorem State.retEffect_pending (s : State) (b : RetBank) : (s.retEffect b).pending = s.pending := by
  unfold State.retEffect; split <;> simp
@[simp] theorem State.retCheck_pending (s : State) (fails : List RetBank) : (s.retCheck fails).pending = s.pending := by
  unfold State.retCheck; split
  · rfl
  · simp -implicitDefEqProofs [State.foldl_pending]
@[simp] theorem State.wakeUp_pending (s : State) (src : Nat) (fails : List RetBank) : (s.wakeUp src fails).pending = s.pending := by
  simp -implicitDefEqProofs [State.wakeUp, State.foldl_pending]
@[simp] theorem wake_pending (src : Nat) (fails : List RetBank) (s : State) : (wake src fails s).pending = s.pending := by
  simp [wake]
@[simp] theorem pwrWake_pending (path : Path) (fails : List RetBank) (s : State) : (pwrWake path fails s).pending = s.pending := by
  simp [pwrWake]
@[simp] theorem State.settleEntry_pending (s : State) : s.settleEntry.pending = s.pending := by
  unfold State.settleEntry; dsimp only; (repeat' split) <;> simp
@[simp] theorem State.hostStirs_pending (s : State) : s.hostStirs.pending = s.pending := by
  simp [State.hostStirs]
@[simp] theorem pwrQueryBody_pending (pf : Nat) (x : List Byte) (y : Nat) (s : State) :
    (pwrQueryBody pf x y s).2.pending = s.pending := by
  simp -implicitDefEqProofs [pwrQueryBody]
@[simp] theorem warmRestartBody_pending (pf : Nat) (b : List Byte) (x : Nat) (s : State) :
    (warmRestartBody pf b x s).2.pending = s.pending := by
  simp [warmRestartBody]
@[simp] theorem State.enablePort_pending (s : State) (p : Nat) : (s.enablePort p).pending = s.pending := by
  simp [State.enablePort]
@[simp] theorem fabricJoinBody_pending (pf : Nat) (b : List Byte) (serial : Nat) (s : State) :
    (fabricJoinBody pf b serial s).2.pending = s.pending := by
  simp -implicitDefEqProofs [fabricJoinBody, State.foldl_pending]
@[simp] theorem State.endJoin_pending (s : State) (d : WorkDone) : (s.endJoin d).pending = s.pending := by
  unfold State.endJoin; split <;> simp
@[simp] theorem fabricReady_pending (s : State) : (fabricReady s).pending = s.pending := by
  unfold fabricReady; (repeat' split) <;> simp
@[simp] theorem fabricJoinTimeout_pending (s : State) : (fabricJoinTimeout s).pending = s.pending := by
  unfold fabricJoinTimeout; split <;> simp

/-! #### Sys2Proof/Machine/Faults.lean -/

@[simp] theorem State.storageError_pending (s : State) (src code i0 i1 : Nat) :
    (s.storageError src code i0 i1).pending = s.pending := by
  unfold State.storageError; split <;> simp
@[simp] theorem errorReport_pending (src code : Nat) (i0 i1 : Word) (s : State) :
    (errorReport src code i0 i1 s).pending = s.pending := by
  simp [errorReport]
@[simp] theorem tgfHistAck_pending (path : Path) (v : Word) (s : State) : (tgfHistAck path v s).pending = s.pending := by
  simp [tgfHistAck]
@[simp] theorem tgfUnfreeze_pending (path : Path) (s : State) : (tgfUnfreeze path s).pending = s.pending := by
  simp [tgfUnfreeze]
@[simp] theorem tgfInject_pending (path : Path) (v : Word) (s : State) : (tgfInject path v s).pending = s.pending := by
  simp [tgfInject]
@[simp] theorem tgfInjectLock_pending (path : Path) (s : State) : (tgfInjectLock path s).pending = s.pending := by
  simp [tgfInjectLock]
@[simp] theorem State.someChannel_pending (s : State) (stack : Nat) : (s.someChannel stack).2.pending = s.pending := by
  simp [State.someChannel]
@[simp] theorem hbmPageRetired_pending (page : Nat) (s : State) : (hbmPageRetired page s).pending = s.pending := by
  unfold hbmPageRetired; dsimp only; (repeat' split) <;> simp
@[simp] theorem retest_pending (path : Path) (v : Word) (s : State) : (retest path v s).pending = s.pending := by
  simp -implicitDefEqProofs [retest]
@[simp] theorem State.retestPass_pending (s : State) (src page : Nat) : (s.retestPass src page).pending = s.pending := by
  unfold State.retestPass; split <;> simp
@[simp] theorem retestDone_pending (pass : Bool) (s : State) : (retestDone pass s).pending = s.pending := by
  unfold retestDone; split
  · rfl
  · simp -implicitDefEqProofs

/-! #### Sys2Proof/Machine/LifeOps.lean -/

@[simp] theorem lifeCommit_pending (s : State) : (lifeCommit s).pending = s.pending := by
  simp [lifeCommit]
@[simp] theorem commitNow_pending (path : Path) (s : State) : (commitNow path s).pending = s.pending := by
  simp [commitNow]
@[simp] theorem lifeSnapshot_pending (s : State) : (lifeSnapshot s).pending = s.pending := by
  simp -implicitDefEqProofs [lifeSnapshot]
@[simp] theorem lifeSample_pending (hot : Int) (mv : Nat) (s : State) : (lifeSample hot mv s).pending = s.pending := by
  simp -implicitDefEqProofs [lifeSample]
@[simp] theorem marginScan_pending (margins : List Nat) (s : State) : (marginScan margins s).pending = s.pending := by
  unfold marginScan; dsimp only; split
  · rfl
  · rw [State.setLife_pending]
    refine State.foldl_pending _ _ (fun s n => ?_) s
    split <;> simp

/-! #### Sys2Proof/Machine/MonitorOps.lean -/

@[simp] theorem pmuFreeze_pending (path : Path) (v : Word) (s : State) : (pmuFreeze path v s).pending = s.pending := by
  simp [pmuFreeze]
@[simp] theorem histClear_pending (path : Path) (u : Nat) (s : State) : (histClear path u s).pending = s.pending := by
  simp [histClear]
@[simp] theorem histDepthSample_pending (u : Nat) (s : State) : (histDepthSample u s).pending = s.pending := by
  unfold histDepthSample; (repeat' split) <;> simp
@[simp] theorem State.monWrite_pending (s : State) (host : Bool) (f addr : Nat) (bs : List Byte) :
    (s.monWrite host f addr bs).pending = s.pending := by
  simp [State.monWrite]
@[simp] theorem dumpLatch_pending (s : State) : (dumpLatch s).pending = s.pending := by
  simp [dumpLatch]
@[simp] theorem dumpWrite_pending (s : State) : (dumpWrite s).pending = s.pending := by
  unfold dumpWrite; split <;> simp
@[simp] theorem State.dumpCtrl_pending (s : State) (v : Word) : (s.dumpCtrl v).pending = s.pending := by
  simp -implicitDefEqProofs [State.dumpCtrl]
@[simp] theorem sampleMark_pending (g : Nat) (s : State) : (sampleMark g s).pending = s.pending := by
  simp [sampleMark]
@[simp] theorem State.sampleWrite_pending (s : State) (bs : List Byte) : (s.sampleWrite bs).pending = s.pending := by
  simp [State.sampleWrite]
@[simp] theorem State.sampleDrain_pending (s : State) (c : Nat) : (s.sampleDrain c).pending = s.pending := by
  unfold State.sampleDrain; dsimp only; simp -implicitDefEqProofs [State.foldl_pending]
@[simp] theorem State.sampleQueue_pending (s : State) (c : Nat) (bs : List Byte) : (s.sampleQueue c bs).pending = s.pending := by
  simp [State.sampleQueue]
@[simp] theorem sampleRecord_pending (g lat flags ecause : Nat) (s : State) :
    (sampleRecord g lat flags ecause s).pending = s.pending := by
  unfold sampleRecord; split <;> simp
@[simp] theorem State.sampCtrl_pending (s : State) (v : Word) : (s.sampCtrl v).pending = s.pending := by
  simp -implicitDefEqProofs [State.sampCtrl]

/-! #### Sys2Proof/Machine/Supply.lean -/

@[simp] theorem State.slew_pending (s : State) (h : Int) : (s.slew h).pending = s.pending := by
  simp [State.slew]
@[simp] theorem State.countThrottle_pending (s : State) : s.countThrottle.pending = s.pending := by
  simp [State.countThrottle]
@[simp] theorem thermSample_pending (temps : List Int) (s : State) : (thermSample temps s).pending = s.pending := by
  simp -implicitDefEqProofs [thermSample, State.foldl_pending]
@[simp] theorem thermalTrip_pending (n : Nat) (s : State) : (thermalTrip n s).pending = s.pending := by
  simp [thermalTrip]
@[simp] theorem avsSet_pending (mv : Nat) (s : State) : (avsSet mv s).pending = s.pending := by
  simp [avsSet]
@[simp] theorem avsbusAck_pending (s : State) : (avsbusAck s).pending = s.pending := by
  simp [avsbusAck]
@[simp] theorem avsTimeout_pending (s : State) : (avsTimeout s).pending = s.pending := by
  unfold avsTimeout; split <;> simp
@[simp] theorem State.sourceReport_pending (s : State) (src code : Nat) : (s.sourceReport src code).pending = s.pending := by
  simp [State.sourceReport]
@[simp] theorem supplyFault_pending (n : Nat) (s : State) : (supplyFault n s).pending = s.pending := by
  simp [supplyFault]
@[simp] theorem pllUnlock_pending (n : Nat) (s : State) : (pllUnlock n s).pending = s.pending := by
  simp [pllUnlock]

/-! #### Sys2Proof/Machine/ControlSpace.lean -/

@[simp] theorem State.readReg_pending (s : State) (p : Path) (x : RegAt) (wide : Bool) :
    (s.readReg p x wide).2.pending = s.pending := by
  simp [State.readReg]
@[simp] theorem State.readRecord_pending (s : State) (p : Path) (x : RegAt) (wide : Bool) :
    (s.readRecord p x wide).2.pending = s.pending := by
  simp [State.readRecord]
@[simp] theorem State.readAtReg_pending (s : State) (p : Path) (a : Nat) (wide : Bool) :
    (s.readAtReg p a wide).2.pending = s.pending := by
  unfold State.readAtReg; split <;> simp
@[simp] theorem State.ctrlRead_pending (s : State) (p : Path) (a : Nat) (wide : Bool) :
    (s.ctrlRead p a wide).2.pending = s.pending := by
  simp [State.ctrlRead]
@[simp] theorem devCtrl_pending (p : Path) (v : Word) (s : State) : (devCtrl p v s).pending = s.pending := by
  simp -implicitDefEqProofs [devCtrl]
@[simp] theorem invCtrl_pending (v : Word) (s : State) : (invCtrl v s).pending = s.pending := by
  simp [invCtrl]
@[simp] theorem tgfCtrl_pending (v : Word) (s : State) : (tgfCtrl v s).pending = s.pending := by
  simp -implicitDefEqProofs [tgfCtrl]
@[simp] theorem routeTable_pending (r : RegDesc) (ix : List Nat) (v : Word) (s : State) :
    (routeTable r ix v s).pending = s.pending := by
  simp [routeTable]
@[simp] theorem sldCfgWrite_pending (r : RegDesc) (v : Word) (s : State) : (sldCfgWrite r v s).pending = s.pending := by
  simp -implicitDefEqProofs [sldCfgWrite]
@[simp] theorem ubufWrite_pending (r : RegDesc) (ix : List Nat) (v : Word) (s : State) :
    (ubufWrite r ix v s).pending = s.pending := by
  simp [ubufWrite]
@[simp] theorem routeSelfWrite_pending (r : RegDesc) (v : Word) (s : State) : (routeSelfWrite r v s).pending = s.pending := by
  simp [routeSelfWrite]
@[simp] theorem htStageWrite_pending (r : RegDesc) (ix : List Nat) (v : Word) (s : State) :
    (htStageWrite r ix v s).pending = s.pending := by
  simp [htStageWrite]
@[simp] theorem gatePendWrite_pending (r : RegDesc) (ix : List Nat) (v : Word) (s : State) :
    (gatePendWrite r ix v s).pending = s.pending := by
  simp [gatePendWrite]
@[simp] theorem gateListWrite_pending (ix : List Nat) (v : Word) (s : State) : (gateListWrite ix v s).pending = s.pending := by
  simp -implicitDefEqProofs [gateListWrite]
@[simp] theorem histSelWrite_pending (u : Nat) (v : Word) (s : State) : (histSelWrite u v s).pending = s.pending := by
  simp -implicitDefEqProofs [histSelWrite]
@[simp] theorem histFiltWrite_pending (u : Nat) (v : Word) (s : State) : (histFiltWrite u v s).pending = s.pending := by
  simp -implicitDefEqProofs [histFiltWrite]
@[simp] theorem frozenBy_pending (f : Fld) (r : RegDesc) (v : Word) (s : State) : (frozenBy f r v s).pending = s.pending := by
  simp [frozenBy]
@[simp] theorem laneCtrl_pending (p : Path) (ix : List Nat) (v : Word) (s : State) : (laneCtrl p ix v s).pending = s.pending := by
  simp [laneCtrl]
theorem writeHooks_pending : ∀ e ∈ writeHooks, ∀ p ix v s, (e.2 p ix v s).pending = s.pending := by
  simp only [writeHooks, List.forall_mem_append, List.forall_mem_cons, List.map_cons, List.map_nil]
  simp
@[simp] theorem State.writeReg_pending (s : State) (p : Path) (x : RegAt) (v : Word) : (s.writeReg p x v).pending = s.pending := by
  unfold State.writeReg; dsimp only; split
  · next e he => exact writeHooks_pending e (List.mem_of_find?_eq_some he) _ _ _ _
  · simp
@[simp] theorem State.writeHalf_pending (s : State) (p : Path) (a : Nat) (v : Word) : (s.writeHalf p a v).pending = s.pending := by
  unfold State.writeHalf; dsimp only; split
  · rfl
  · simp
@[simp] theorem State.ctrlWrite_pending (s : State) (p : Path) (a : Nat) (wide : Bool) (v : Word) :
    (s.ctrlWrite p a wide v).pending = s.pending := by
  unfold State.ctrlWrite; (repeat' split) <;> simp
@[simp] theorem cringCfg_pending (pf : Nat) (v : Word) (s : State) : (cringCfg pf v s).pending = s.pending := by
  simp -implicitDefEqProofs [cringCfg]
@[simp] theorem ccqCfg_pending (pf : Nat) (v : Word) (s : State) : (ccqCfg pf v s).pending = s.pending := by
  simp -implicitDefEqProofs [ccqCfg]
@[simp] theorem cringBase_pending (en : Fld) (r : RegDesc) (pf off : Nat) (v : Word) (s : State) :
    (cringBase en r pf off v s).pending = s.pending := by
  simp -implicitDefEqProofs [cringBase]
@[simp] theorem State.barHalf_pending (s : State) (f off : Nat) (v : Word) : (s.barHalf f off v).pending = s.pending := by
  unfold State.barHalf; (repeat' split) <;> simp
@[simp] theorem State.barWrite_pending (s : State) (f off : Nat) (wide : Bool) (v : Word) :
    (s.barWrite f off wide v).pending = s.pending := by
  simp [State.barWrite]
@[simp] theorem busRead_pending (p : Path) (a : Nat) (wide : Bool) (s : State) : (busRead p a wide s).pending = s.pending := by
  unfold busRead; split <;> simp
@[simp] theorem busWrite_pending (p : Path) (a : Nat) (wide : Bool) (v : Word) (s : State) :
    (busWrite p a wide v s).pending = s.pending := by
  unfold busWrite; dsimp only; split <;> simp
@[simp] theorem wfCfg_pending (p : Path) (c f : Nat) (v : Word) (s : State) : (wfCfg p c f v s).pending = s.pending := by
  simp [wfCfg]
@[simp] theorem State.sbNext_pending (s : State) : s.sbNext.pending = s.pending := by
  simp [State.sbNext]
@[simp] theorem sbSetAddr_pending (a : Nat) (pec : Bool) (s : State) : (sbSetAddr a pec s).pending = s.pending := by
  simp [sbSetAddr]
@[simp] theorem sbRead_pending (s : State) : (sbRead s).pending = s.pending := by
  simp -implicitDefEqProofs [sbRead]
@[simp] theorem sbWrite_pending (v : Word32) (pec : Bool) (s : State) : (sbWrite v pec s).pending = s.pending := by
  simp [sbWrite]
@[simp] theorem sbReadAddr_pending (s : State) : (sbReadAddr s).pending = s.pending := by
  simp [sbReadAddr]

/-! #### Sys2Proof/Machine/EngineMem.lean -/

@[simp] theorem State.farPlace_pending (s : State) (t va : Nat) (u : Use) (again : Bool) :
    (s.farPlace t va u again).2.pending = s.pending := by
  unfold State.farPlace; dsimp only; (repeat' split) <;> simp
@[simp] theorem State.access_pending (s : State) (t : Nat) (a : Word) (n : Nat) (u : Use) (srcs : List Nat) (again : Bool)
    (k : EngPlace → State → State) (h : ∀ x s, (k x s).pending = s.pending) :
    (s.access t a n u srcs again k).pending = s.pending := by
  unfold State.access; dsimp only; (repeat' split) <;> simp [h]
@[simp] theorem State.nearRead_pending (s : State) (t key n code : Nat) (eval : Word) (k : Nat → State → State) (h : ∀ v s,
    (k v s).pending = s.pending) : (s.nearRead t key n code eval k).pending = s.pending := by
  unfold State.nearRead; (repeat' split) <;> simp [h]
@[simp] theorem State.farLoad_pending (s : State) (t ask p : Nat) (hbm : Bool) (n : Nat) (signed : Bool) (rd : Nat) (a : Word) :
    (s.farLoad t ask p hbm n signed rd a).pending = s.pending := by
  unfold State.farLoad; dsimp only; (repeat' split) <;> simp
@[simp] theorem load_pending (t op rd rs1 imm : Nat) (s : State) : (load t op rd rs1 imm s).pending = s.pending := by
  unfold load
  refine State.issue_pending _ _ _ _ _ _ _ _ fun s => State.access_pending _ _ _ _ _ _ _ _ fun p s => ?_
  dsimp only; split <;> simp
@[simp] theorem store_pending (t op rd rs1 imm : Nat) (s : State) : (store t op rd rs1 imm s).pending = s.pending := by
  unfold store
  refine State.issue_pending _ _ _ _ _ _ _ _ fun s => State.access_pending _ _ _ _ _ _ _ _ fun p s => ?_
  dsimp only; split <;> simp
@[simp] theorem atomic_pending (t rd rs1 rs2 fn : Nat) (s : State) : (atomic t rd rs1 rs2 fn s).pending = s.pending := by
  unfold atomic
  refine State.issue_pending _ _ _ _ _ _ _ _ fun s => State.access_pending _ _ _ _ _ _ _ _ fun p s => ?_
  dsimp only; (repeat' split) <;> simp

/-! #### Sys2Proof/Machine/Window.lean -/

@[simp] theorem State.runGoesOn_pending (s : State) (e : OutEntry) : (s.runGoesOn e).pending = s.pending := by
  unfold State.runGoesOn; dsimp only; (repeat' split) <;> simp
@[simp] theorem State.startWaiting_pending (s : State) (r qn : Nat) (e : OutEntry) : (s.startWaiting r qn e).pending = s.pending := by
  unfold State.startWaiting; dsimp only; (repeat' split) <;> try simp
  exact State.getD_pending fun t ht => (State.launch_pending ht).trans (by simp)
@[simp] theorem State.startPending_pending (s : State) (r a : Nat) : (s.startPending r a).pending = s.pending := by
  induction a generalizing s with
  | zero => rfl
  | succ f ih => unfold State.startPending; dsimp only; (repeat' split) <;> simp [ih]
@[simp] theorem ack_pending (r : Nat) (s : State) : (ack r s).pending = s.pending := by
  unfold ack; dsimp only; split <;> simp

/-! #### The commands -/

/-- Every command's effect is a next state with the queue it had: nothing a command does but `Step.step` taking it from the front
touches the queue. -/
theorem exec_pending (c : Instr) (s : State) : ∃ t, exec c s = .next t ∧ t.pending = s.pending := by
  cases c <;> exact ⟨_, rfl, by simp⟩

/-- Settles O2: every arm of `exec` answers a next state, and the state operations it is made of all keep the queue. -/
theorem everyCommandAnswers : Obligations.EveryCommandAnswers := by
  unfold Obligations.EveryCommandAnswers
  constructor
  · intro c s
    obtain ⟨t, ht, -⟩ := exec_pending c s
    exact ⟨t, ht⟩
  · intro c s t h
    obtain ⟨u, hu, hp⟩ := exec_pending c s
    rw [hu] at h
    cases h
    exact hp

/-!
## Register access (R12, R13, R528, R529, R530, R531)

Each access is led by its path (`busRead`, `busWrite`) and its address (`regAt`) to the rule of the register it reaches.
-/

/-! ### Who may write, and which way an access goes -/

/-- A host writes no register of control space (R530). -/
theorem State.mayWrite_bar (s : State) (f a : Nat) : s.mayWrite (.bar f) a = false := by
  simp [State.mayWrite]

theorem Path.ne_bar_of_mayWrite {s : State} {p : Path} {a : Nat} (h : s.mayWrite p a = true) (f : Nat) : p ≠ .bar f := by
  rintro rfl
  simp [State.mayWrite_bar] at h

/-- A read by any path but a BAR is a read of control space, and what it returns is recorded. -/
theorem busRead_of_ne_bar (p : Path) (a : Nat) (wide : Bool) (s : State) (hp : ∀ f, p ≠ .bar f) :
    busRead p a wide s = (s.ctrlRead p a wide).2.emit (.value p a (s.ctrlRead p a wide).1) := by
  cases p with
  | bar f => exact absurd rfl (hp f)
  | near t | bootRom | sideband => rfl

/-- A write by any path but a BAR is a write of control space. -/
theorem busWrite_of_ne_bar (p : Path) (a : Nat) (wide : Bool) (v : Word) (s : State) (hp : ∀ f, p ≠ .bar f) :
    busWrite p a wide v s = s.ctrlWrite p a wide v := by
  cases p with
  | bar f => exact absurd rfl (hp f)
  | near t | bootRom | sideband => rfl

theorem State.ctrlWrite_denied (s : State) (p : Path) (a : Nat) (wide : Bool) (v : Word) (h : s.mayWrite p a = false) :
    s.ctrlWrite p a wide v = s := by
  simp [State.ctrlWrite, h]

/-! ### The register at an address (R528) -/

/-- The part decides where registers are only by its being a GK-ON096-P1. -/
theorem State.regAt_of_table (s : State) {a : Nat} {x : RegAt}
    (h : ∀ p096, allRegs.findSome? (fun r => r.at_ p096 a) = some x) : s.regAt a = some x := h _

theorem State.regAt_ringCqPoll (s : State) : s.regAt R.RING_CQ_POLL.base = some ⟨R.RING_CQ_POLL, [], 0⟩ :=
  s.regAt_of_table (by decide +kernel)
theorem State.regAt_invFt (s : State) : s.regAt R.INV_FT.base = some ⟨R.INV_FT, [], 0⟩ :=
  s.regAt_of_table (by decide +kernel)
theorem State.regAt_invFt_high (s : State) : s.regAt (R.INV_FT.base + 4) = some ⟨R.INV_FT, [], 4⟩ :=
  s.regAt_of_table (by decide +kernel)
theorem State.regAt_tgfHist (s : State) : s.regAt R.TGF_HIST.base = some ⟨R.TGF_HIST, [0, 0], 0⟩ :=
  s.regAt_of_table (by decide +kernel)
theorem State.regAt_ringDbRejectCount (s : State) :
    s.regAt R.RING_DB_REJECT_COUNT.base = some ⟨R.RING_DB_REJECT_COUNT, [], 0⟩ :=
  s.regAt_of_table (by decide +kernel)
theorem State.regAt_devId (s : State) : s.regAt R.DEV_ID.base = some ⟨R.DEV_ID, [], 0⟩ :=
  s.regAt_of_table (by decide +kernel)
theorem State.regAt_lifeWinSel (s : State) : s.regAt R.LIFE_WIN_SEL.base = some ⟨R.LIFE_WIN_SEL, [], 0⟩ :=
  s.regAt_of_table (by decide +kernel)

/-! ### Writes of registers with no behaviour of their own (R13) -/

/-- Words equal in the register's width leave the same state. -/
theorem State.wr_congr (s : State) (r : RegDesc) (ix : List Nat) {v w : Word}
    (h : v.toNat % 2 ^ r.width = w.toNat % 2 ^ r.width) : s.wr r ix v = s.wr r ix w := by
  simp only [State.wr, h]

/-- Where no field of a register has reserved encodings (R13), all of them are taken as written. -/
theorem keepReserved_of_ne (r : RegDesc) (old v : Word) (h : ∀ e ∈ reservedCodes, e.1.reg.base ≠ r.base) :
    keepReserved r old v = v := by
  unfold keepReserved
  generalize reservedCodes = codes at h
  induction codes with
  | nil => rfl
  | cons e es ih =>
    rw [List.forall_mem_cons] at h
    simpa [h.1] using ih h.2

/-- A register without a hook and without reserved encodings is written as software writes its fields. -/
theorem State.writeReg_plain (s : State) (p : Path) (x : RegAt) (v : Word)
    (hooks : ∀ e ∈ writeHooks, e.1 ≠ x.reg.base) (codes : ∀ e ∈ reservedCodes, e.1.reg.base ≠ x.reg.base) :
    s.writeReg p x v = s.wrSoft x.reg x.ix v := by
  have hf : (writeHooks.find? fun e => e.1 == x.reg.base) = none := by simpa using hooks
  simp only [State.writeReg, hf, keepReserved_of_ne _ _ _ codes]

/-- A permitted aligned 32-bit write at a register of 32 bits writes the register. -/
theorem State.ctrlWrite_word (s : State) (p : Path) (a : Nat) (v : Word) (x : RegAt) (hw : s.mayWrite p a = true)
    (ha : a % 4 = 0) (hx : s.regAt a = some x) (h32 : x.reg.width = 32) :
    s.ctrlWrite p a false v = s.writeReg p x (w64 (v.toNat % 2 ^ 32)) := by
  simp [State.ctrlWrite, State.writeHalf, hw, ha, hx, h32]

theorem State.ctrlWrite_ringCqPoll (s : State) (p : Path) (v : Word) (hw : s.mayWrite p R.RING_CQ_POLL.base = true) :
    s.ctrlWrite p R.RING_CQ_POLL.base false v =
      s.wr R.RING_CQ_POLL [] (w64 (clampN 100 100000 (v.toNat % 2 ^ 32))) := by
  rw [s.ctrlWrite_word p _ v _ hw (by decide) s.regAt_ringCqPoll rfl,
    State.writeReg_plain _ _ _ _ (by decide +kernel) (by decide +kernel)]
  refine State.wr_congr s R.RING_CQ_POLL [] (?_ : _ % 2 ^ 32 = _ % 2 ^ 32)
  have hc : clampN 100 100000 (v.toNat % 2 ^ 32) < 2 ^ 32 := by unfold clampN; grind
  have hv : bitsW (w64 (v.toNat % 2 ^ 32)) 31 0 = v.toNat % 2 ^ 32 := by
    rw [bitsW_cut _ _ _ _ (by decide)]; simp [bitsW]
  have hp := putW_toNat (s.rd R.RING_CQ_POLL) 31 0 (clampN 100 100000 (v.toNat % 2 ^ 32)) (by decide) (by decide)
  rw [w64_toNat_lt (by omega)]
  change (putW _ 31 0 (clampN 100 100000 (bitsW (w64 (v.toNat % 2 ^ 32)) 31 0))).toNat % 2 ^ 32 = _ % 2 ^ 32
  rw [hv, hp]
  omega

theorem State.ctrlWrite_lifeWinSel (s : State) (p : Path) (v : Word32) (hw : s.mayWrite p R.LIFE_WIN_SEL.base = true) :
    s.ctrlWrite p R.LIFE_WIN_SEL.base false (w64 v.toNat) =
      s.wr R.LIFE_WIN_SEL [] (putW (s.rd R.LIFE_WIN_SEL) 11 0 (v.toNat % 2 ^ 12)) := by
  rw [s.ctrlWrite_word p _ _ _ hw (by decide) s.regAt_lifeWinSel rfl,
    State.writeReg_plain _ _ _ _ (by decide +kernel) (by decide +kernel)]
  have hv : bitsW (w64 ((w64 v.toNat).toNat % 2 ^ 32)) 11 0 = v.toNat % 2 ^ 12 := by
    rw [bitsW_cut _ _ _ _ (by decide), bitsW, w64_toNat_lt (by omega)]; simp
  have hc : clampN 0 4095 (v.toNat % 2 ^ 12) = v.toNat % 2 ^ 12 := by unfold clampN; grind
  change s.wr R.LIFE_WIN_SEL [] (putW _ 11 0 (clampN 0 4095 (bitsW _ 11 0))) = _
  rw [hv, hc]

/-! ### Reads -/

/-- A permitted aligned read, of 32 bits or of a register of 64, reads where its address leads. -/
theorem State.ctrlRead_at (s : State) (p : Path) (a : Nat) (wide : Bool) (x : RegAt) (hr : s.mayRead p a = true)
    (ha : a % (if wide then 8 else 4) = 0) (hx : s.regAt a = some x) (hw : wide = true → x.reg.width ≠ 32) :
    s.ctrlRead p a wide = if x.isRecord then s.readRecord p x wide else s.readReg p x wide := by
  have h2 : (wide && (x.reg.width == 32)) = false := by cases wide <;> simp_all
  simp only [State.ctrlRead, hr, ha, hx, h2, State.readAtReg]
  rfl

/-- A register that does not show live state shows what is stored. -/
theorem State.view_stored (s : State) (r : RegDesc) (ix : List Nat) (h : ∀ e ∈ liveViews, e.1 ≠ r.base) :
    s.view r ix = s.rd r ix := by
  have hf : (liveViews.find? fun e => e.1 == r.base) = none := by simpa using h
  simp only [State.view, hf]

theorem State.view_invFt (s : State) (ix : List Nat) : s.view R.INV_FT ix = s.ft := rfl

theorem State.view_devId (s : State) (ix : List Nat) : s.view R.DEV_ID ix = s.devId := rfl

/-- A whole read of a register the read does not clear gives it and leaves the state. -/
theorem State.readReg_whole (s : State) (p : Path) (x : RegAt) (wide : Bool) (hw : (wide || x.reg.width == 32) = true)
    (hrc : (x.reg.fields.any (·.acc == .rc)) = false) : s.readReg p x wide = (s.view x.reg x.ix, s) := by
  simp [State.readReg, hw, hrc]

/-- A whole read of a counter that a read clears, by any path but the sideband, gives it and writes 0 (R13). -/
theorem State.readReg_clears (s : State) (p : Path) (x : RegAt) (wide : Bool) (hw : (wide || x.reg.width == 32) = true)
    (hrc : (x.reg.fields.any (·.acc == .rc)) = true) (hp : p ≠ .sideband) :
    s.readReg p x wide = (s.view x.reg x.ix, s.wr x.reg x.ix 0) := by
  have h : (x.reg.fields.any (·.acc == .rc) && p != .sideband) = true := by simp [hrc, hp]
  simp only [State.readReg, hw, h, if_true]

/-- A read of the low half of a register of 64 bits gives it and latches the high half for the path (R529). -/
theorem State.readReg_low (s : State) (p : Path) (r : RegDesc) (ix : List Nat) (hw : r.width = 64)
    (hrc : (r.fields.any (·.acc == .rc)) = false) :
    s.readReg p ⟨r, ix, 0⟩ false = (loWord (s.view r ix),
      { s with halfLatch := s.halfLatch.set (0, 0) (pathKey p) (r.addr ix + 4, hiWord (s.view r ix)) }) := by
  simp [State.readReg, hw, hrc]

/-- A read of the high half gives what the read of the low half latched (R529). -/
theorem State.readReg_high (s : State) (p : Path) (r : RegDesc) (ix : List Nat) (v : Word) (hw : r.width = 64)
    (h : s.halfLatch.get (0, 0) (pathKey p) = (r.addr ix + 4, v)) :
    s.readReg p ⟨r, ix, 4⟩ false = (v, { s with halfLatch := s.halfLatch.set (0, 0) (pathKey p) (0, 0) }) := by
  simp only [State.readReg, hw, h, beq_self_eq_true, if_true]
  rfl

/-- The words of history record i, least significant first (R12). -/
def State.histWords (s : State) (i : Nat) : List Word := (List.range 8).map fun k => w64 (leAt (s.hrec i).bytes (8 * k) 8)

/-- A read of the first word of history record 0 gives it and latches the record. -/
theorem State.readRecord_tgfHist (s : State) (p : Path) :
    s.readRecord p ⟨R.TGF_HIST, [0, 0], 0⟩ true = (w64 (leAt (s.hrec 0).bytes 0 8),
      { s with recLatch := s.recLatch.set (0, []) (pathKey p) (R.TGF_HIST.base, s.histWords 0) }) := rfl

/-- The counter of rejected doorbells is not among the registers the sideband reads (R528). -/
theorem State.mayRead_sideband_ringDbRejectCount (s : State) : s.mayRead .sideband R.RING_DB_REJECT_COUNT.base = false := by
  simp [State.mayRead, R.RING_DB_REJECT_COUNT]

theorem State.ctrlRead_invFt (s : State) (p : Path) (hr : s.mayRead p R.INV_FT.base = true) :
    s.ctrlRead p R.INV_FT.base false = (loWord s.ft,
      { s with halfLatch := s.halfLatch.set (0, 0) (pathKey p) (R.INV_FT.base + 4, hiWord s.ft) }) := by
  rw [s.ctrlRead_at p _ _ _ hr (by decide) s.regAt_invFt (by decide), ← s.view_invFt []]
  exact s.readReg_low p R.INV_FT [] rfl (by decide)

theorem State.ctrlRead_invFt_high (s : State) (p : Path) (v : Word) (hr : s.mayRead p (R.INV_FT.base + 4) = true)
    (h : s.halfLatch.get (0, 0) (pathKey p) = (R.INV_FT.base + 4, v)) :
    s.ctrlRead p (R.INV_FT.base + 4) false = (v, { s with halfLatch := s.halfLatch.set (0, 0) (pathKey p) (0, 0) }) := by
  rw [s.ctrlRead_at p _ _ _ hr (by decide) s.regAt_invFt_high (by decide)]
  exact s.readReg_high p R.INV_FT [] v rfl h

theorem State.ctrlRead_tgfHist (s : State) (p : Path) (hr : s.mayRead p R.TGF_HIST.base = true) :
    s.ctrlRead p R.TGF_HIST.base true = (w64 (leAt (s.hrec 0).bytes 0 8),
      { s with recLatch := s.recLatch.set (0, []) (pathKey p) (R.TGF_HIST.base, s.histWords 0) }) := by
  rw [s.ctrlRead_at p _ _ _ hr (by decide) s.regAt_tgfHist (by decide)]
  exact s.readRecord_tgfHist p

theorem State.ctrlRead_ringDbRejectCount (s : State) (p : Path) (hr : s.mayRead p R.RING_DB_REJECT_COUNT.base = true)
    (hp : p ≠ .sideband) :
    s.ctrlRead p R.RING_DB_REJECT_COUNT.base true =
      (s.rd R.RING_DB_REJECT_COUNT, s.wr R.RING_DB_REJECT_COUNT [] 0) := by
  rw [s.ctrlRead_at p _ _ _ hr (by decide) s.regAt_ringDbRejectCount (by decide)]
  rw [← s.view_stored R.RING_DB_REJECT_COUNT [] (by decide +kernel)]
  exact s.readReg_clears p _ true rfl (by decide) hp

theorem State.ctrlRead_devId (s : State) (p : Path) (hr : s.mayRead p R.DEV_ID.base = true) :
    s.ctrlRead p R.DEV_ID.base false = (s.devId, s) := by
  rw [s.ctrlRead_at p _ _ _ hr (by decide) s.regAt_devId (by decide), ← s.view_devId []]
  exact s.readReg_whole p ⟨R.DEV_ID, [], 0⟩ false rfl (by decide)

/-! ### The sideband commands (R528, R531) -/

theorem sbSetAddr_aligned (a : Nat) (s : State) (hoff : s.dev.off = false) (ha : a % 4 = 0) :
    sbSetAddr a true s = { s with sbAddr := a % 2 ^ 32 } := by
  simp [sbSetAddr, hoff, ha]

theorem sbSetAddr_misaligned (a : Nat) (pec : Bool) (s : State) (ha : a % 4 ≠ 0) : sbSetAddr a pec s = s := by
  simp [sbSetAddr, ha]

theorem sbSetAddr_badPec (a : Nat) (s : State) : sbSetAddr a false s = s := by
  simp [sbSetAddr]

theorem sbWrite_badPec (v : Word32) (s : State) : sbWrite v false s = s := by
  simp [sbWrite]

/-- The sideband reads the first MiB of control space while the device is on. -/
theorem State.mayRead_sideband_devId (s : State) (hoff : s.dev.off = false) : s.mayRead .sideband R.DEV_ID.base = true := by
  simp [State.mayRead, hoff, R.DEV_ID]

theorem State.mayWrite_sideband_lifeWinSel (s : State) (hoff : s.dev.off = false) :
    s.mayWrite .sideband R.LIFE_WIN_SEL.base = true := by
  simp [State.mayWrite, hoff, R.LIFE_WIN_SEL]

theorem State.devId_word32 (s : State) :
    BitVec.ofNat 32 s.devId.toNat = if s.is096 then 0x1FB30096 else 0x1FB30128 := by
  unfold State.devId
  split <;> rfl

theorem sbRead_devId (s : State) (hoff : s.dev.off = false) (ha : s.sbAddr = R.DEV_ID.base) :
    sbRead s = { (s.emit (.sideband (some (if s.is096 then 0x1FB30096 else 0x1FB30128)))) with sbAddr := 4 } := by
  simp only [sbRead, hoff, ha, s.ctrlRead_devId _ (s.mayRead_sideband_devId hoff), s.devId_word32, Bool.false_eq_true, if_false,
    State.sbNext, State.emit]
  rfl

theorem sbWrite_lifeWinSel (v : Word32) (s : State) (hoff : s.dev.off = false) (ha : s.sbAddr = R.LIFE_WIN_SEL.base) :
    sbWrite v true s = { (s.wr R.LIFE_WIN_SEL [] (putW (s.rd R.LIFE_WIN_SEL) 11 0 (v.toNat % 2 ^ 12))) with
      sbAddr := R.LIFE_WIN_SEL.base + 4 } := by
  have hs : ∀ t : State, t.sbAddr = s.sbAddr → t.sbNext = { t with sbAddr := R.LIFE_WIN_SEL.base + 4 } := by
    intro t ht
    rw [State.sbNext, ht, ha]
    rfl
  simp only [sbWrite, hoff, Bool.not_true, Bool.or_self, Bool.false_eq_true, if_false, ha,
    s.ctrlWrite_lifeWinSel _ _ (s.mayWrite_sideband_lifeWinSel hoff)]
  exact hs _ rfl

theorem sbReadAddr_on (s : State) (hoff : s.dev.off = false) :
    sbReadAddr s = s.emit (.sideband (some (BitVec.ofNat 32 s.sbAddr))) := by
  simp [sbReadAddr, hoff]

/-- Settles O10: each access leads through the register at its address to the rule of its access type. -/
theorem registerAccess : Obligations.RegisterAccess := by
  unfold Obligations.RegisterAccess
  refine ⟨?_, ?_, ?_, ?_, ?_, ?_, ?_, ?_, ?_, ?_⟩
  · intro s p v hw
    exact congrArg Host.Outcome.next <|
      (busWrite_of_ne_bar _ _ _ _ _ (Path.ne_bar_of_mayWrite hw)).trans (s.ctrlWrite_ringCqPoll p v hw)
  · intro s p a wide v hp hw
    exact congrArg Host.Outcome.next ((busWrite_of_ne_bar _ _ _ _ _ hp).trans (s.ctrlWrite_denied p a wide v hw))
  · intro s p hp hr
    refine ⟨_, rfl, ?_⟩
    rw [busRead_of_ne_bar _ _ _ _ hp, s.ctrlRead_invFt p hr]
    exact ⟨rfl, by simp only [State.emit, SMap.get_set_same], rfl⟩
  · intro s p v hp hr hl
    refine ⟨_, rfl, ?_⟩
    rw [busRead_of_ne_bar _ _ _ _ hp, s.ctrlRead_invFt_high p v hr hl]
    rfl
  · intro s p hp hr
    refine ⟨_, rfl, ?_⟩
    rw [busRead_of_ne_bar _ _ _ _ hp, s.ctrlRead_tgfHist p hr]
    exact ⟨rfl, by simp only [State.emit, SMap.get_set_same, State.histWords]⟩
  · intro s p hp hr
    have hsb : p ≠ .sideband := by
      rintro rfl
      simp [s.mayRead_sideband_ringDbRejectCount] at hr
    refine ⟨_, rfl, ?_⟩
    rw [busRead_of_ne_bar _ _ _ _ hp, s.ctrlRead_ringDbRejectCount p hr hsb, if_neg hsb]
    exact ⟨rfl, s.rd_wr R.RING_DB_REJECT_COUNT [] 0⟩
  · intro s a hoff
    refine ⟨fun ha => ?_, fun ha => ?_, ?_⟩
    · exact congrArg Host.Outcome.next (sbSetAddr_aligned a s hoff ha)
    · exact congrArg Host.Outcome.next (sbSetAddr_misaligned a true s ha)
    · exact congrArg Host.Outcome.next (sbSetAddr_badPec a s)
  · intro s hoff ha
    exact congrArg Host.Outcome.next (sbRead_devId s hoff ha)
  · intro s v hoff
    exact ⟨congrArg Host.Outcome.next (sbWrite_badPec v s), fun ha => congrArg Host.Outcome.next (sbWrite_lifeWinSel v s hoff ha)⟩
  · intro s hoff
    exact congrArg Host.Outcome.next (sbReadAddr_on s hoff)

end Sys2Proof.Machine

end

section

open Sys2Proof Sys2Proof.Machine

namespace Sys2Proof.Machine

/-!
## What the commands leave of Fabric Time (R27, R29, R45, R46, R49, R54)

Few operations touch `State.inv`: those of Invar, and those of the ports, of power and of the thermal sensors that report to it. One
rule per operation, in the order of the model's files: `<operation>_inv` where the whole time unit stays as it was,
`<operation>_ft` where FT does, and `<operation>_ftHeld` where FT does unless the unit is reset. A rule about an operation that
runs a continuation asks the same of the continuation; `<operation>_inv_of` carries any property of the time unit through it.

`-implicitDefEqProofs` stands where a proof by definitional unfolding would make the kernel compare two whole states.
-/

/-! #### What the rules below are assembled with -/

@[simp] theorem State.inv_ite {c : Prop} [Decidable c] (a b : State) :
    (if c then a else b).inv = if c then a.inv else b.inv := apply_ite State.inv c a b

@[simp] theorem Invar.ft_ite {c : Prop} [Decidable c] (a b : Invar) :
    (if c then a else b).ft = if c then a.ft else b.ft := apply_ite Invar.ft c a b

theorem State.foldl_ft {β : Type} (l : List β) (f : State → β → State) (h : ∀ s x, (f s x).inv.ft = s.inv.ft) (s : State) :
    (l.foldl f s).inv.ft = s.inv.ft := by
  induction l generalizing s with
  | nil => rfl
  | cons x l ih => rw [List.foldl_cons, ih, h]

/-- Between two states of the time unit FT is not stepped, or the unit is reset. -/
def Invar.FtHeld (i j : Invar) : Prop := j.ft = i.ft ∨ j = Invar.init

theorem Invar.FtHeld.refl (i : Invar) : i.FtHeld i := .inl rfl


/-- For a state that a `match` took out of an answered pair. -/
theorem State.inv_of_eq {α : Type} {p : α × State} {a : α} {s t : State} (h : p = (a, t)) (hp : p.2.inv = s.inv) :
    t.inv = s.inv := by
  rw [← hp, h]

/-- For an operation that leaves the state as it was where it fails. -/
theorem State.getD_inv {o : Option State} {s : State} (h : ∀ t, o = some t → t.inv = s.inv) :
    (o.getD s).inv = s.inv := by
  cases o with
  | none => rfl
  | some t => exact h t rfl

/-! #### Laws/Frame, for the time unit alone -/

theorem State.wfStart_inv {s t : State} {k : Nat} {reserveClass : Bool} {it : Item} {w : WriteFor}
    (h : s.wfStart k reserveClass it w = some t) : t.inv = s.inv := by
  have hf := State.wfStart_frame _ _ _ _ _ _ h
  simp only [hf]
theorem State.pushEvent_inv {s t : State} {c : Nat} {body : List Byte} (h : s.pushEvent c body = some t) :
    t.inv = s.inv := by
  have hf := State.pushEvent_frame _ _ _ _ h
  simp only [hf]
theorem State.writeAt_inv (s : State) (c : Nat) (m : MemAt) (off : Nat) (bs : List Byte) (cl : XltClient) :
    (s.writeAt c m off bs cl).2.inv = s.inv := by simp
theorem State.readAt_inv (s : State) (c : Nat) (m : MemAt) (off n : Nat) (cl : XltClient) (st : Nat) (host : List Byte) :
    (s.readAt c m off n cl st host).2.inv = s.inv := by simp
theorem State.locateOne_inv (s : State) (c : Nat) (m : MemAt) (off : Nat) (u : Use) (cl : XltClient) :
    (s.locateOne c m off u cl).2.inv = s.inv := by simp

/-! #### Sys2Proof/Machine/Ops.lean -/

@[simp] theorem State.freeBit_inv (s : State) : s.freeBit.2.inv = s.inv := by
  simp [State.freeBit]
@[simp] theorem State.freeWord_inv (s : State) : s.freeWord.2.inv = s.inv := by
  simp [State.freeWord]
@[simp] theorem State.live_inv (s : State) (f : State → State) (h : (f s).inv = s.inv) : (s.live f).inv = s.inv := by
  unfold State.live; split <;> simp [h]
@[simp] theorem State.live_ft (s : State) (f : State → State) (h : (f s).inv.ft = s.inv.ft) : (s.live f).inv.ft = s.inv.ft := by
  unfold State.live; split <;> simp [h]

/-! #### Sys2Proof/Machine/Pewter.lean -/

@[simp] theorem State.commitAcc_inv (s : State) : s.commitAcc.inv = s.inv := by
  simp -implicitDefEqProofs [State.commitAcc]
@[simp] theorem State.writeSet_inv (s : State) : s.writeSet.inv = s.inv := by
  simp [State.writeSet]
@[simp] theorem State.writeLog_inv (s : State) : s.writeLog.inv = s.inv := by
  simp [State.writeLog]
@[simp] theorem State.recordRetirement_inv (s : State) : s.recordRetirement.inv = s.inv := by
  simp [State.recordRetirement]
@[simp] theorem State.restoreRetired_inv (s : State) : s.restoreRetired.inv = s.inv := by
  -- The kernel cannot check the definition's equation at a state (it is too deep), so it is taken as one between functions.
  obtain ⟨f, hf⟩ : ∃ f, f = State.restoreRetired := ⟨_, rfl⟩
  have hfs := congrFun hf s
  delta State.restoreRetired at hf
  have hs := congrFun hf s
  beta_reduce at hs
  rw [← hfs, hs]
  generalize s.bestSet = b
  rcases b with _ | ⟨seq, bs⟩ <;> rfl
@[simp] theorem State.loadLife_inv (s : State) : s.loadLife.inv = s.inv := by
  simp [State.loadLife]

/-! #### Sys2Proof/Machine/Monitor.lean -/

@[simp] theorem State.histTime_inv (s : State) (src inst : Nat) (from_ : Word) :
    (s.histTime src inst from_).inv = s.inv := by
  simp [State.histTime]
@[simp] theorem State.histClear_inv (s : State) (u : Nat) : (s.histClear u).inv = s.inv := by
  simp -implicitDefEqProofs [State.histClear, State.foldl_inv]

/-! #### Sys2Proof/Machine/WorkFifo.lean -/

@[simp] theorem State.wfCommit_inv (s : State) (k b : Nat) (it : Item) : (s.wfCommit k b it).inv = s.inv := by
  simp [State.wfCommit]
@[simp] theorem State.wfReserve_inv (s : State) (k id len : Nat) : (s.wfReserve k id len).inv = s.inv := by
  simp [State.wfReserve]
@[simp] theorem State.wfTakeSpace_inv (s : State) (k i : Nat) : (s.wfTakeSpace k i).inv = s.inv := by
  unfold State.wfTakeSpace; dsimp only; split <;> simp
@[simp] theorem State.wfTakeAll_inv (s : State) (k : Nat) : (s.wfTakeAll k).inv = s.inv := by
  simp [State.wfTakeAll, State.foldl_inv]
@[simp] theorem bankSwap_inv (c f : Nat) (s : State) : (bankSwap c f s).inv = s.inv := by
  simp [bankSwap]
theorem State.wfTake_inv {s t : State} {k : Nat} {it : Item} (h : s.wfTake k = some (it, t)) : t.inv = s.inv := by
  unfold State.wfTake at h; dsimp only at h; (repeat' split at h) <;> cases h
  simp
@[simp] theorem wfCfgWrite_inv (c f : Nat) (v : Word) (s : State) : (wfCfgWrite c f v s).inv = s.inv := by
  simp [wfCfgWrite]

/-! #### Sys2Proof/Machine/Tungsten.lean -/

@[simp] theorem mergeWindowEnd_inv (i : Nat) (s : State) : (mergeWindowEnd i s).inv = s.inv := by
  simp [mergeWindowEnd]
@[simp] theorem histAck_inv (seq : Nat) (s : State) : (histAck seq s).inv = s.inv := by
  unfold histAck; split <;> simp
@[simp] theorem unfreeze_inv (s : State) : (unfreeze s).inv = s.inv := by
  simp [unfreeze]
@[simp] theorem inject_inv (v : Word) (s : State) : (inject v s).inv = s.inv := by
  simp -implicitDefEqProofs [inject]
@[simp] theorem injectLock_inv (s : State) : (injectLock s).inv = s.inv := by
  simp -implicitDefEqProofs [injectLock]
@[simp] theorem faultEvent_inv (s : State) : (faultEvent s).inv = s.inv := by
  unfold faultEvent; dsimp only; (repeat' split) <;> try simp
  all_goals exact State.wfStart_inv ‹_›
@[simp] theorem txoff_inv (s : State) : (txoff s).inv = s.inv := by
  unfold txoff; split <;> simp

/-! #### Sys2Proof/Machine/HostOps.lean -/

@[simp] theorem State.whenAwake_inv (s : State) (f : Nat) (k : State → State) (h : ∀ s, (k s).inv = s.inv) :
    (s.whenAwake f k).inv = s.inv := by
  unfold State.whenAwake; (repeat' split) <;> simp [h]
@[simp] theorem msixSend_inv (f v : Nat) (s : State) : (msixSend f v s).inv = s.inv := by
  simp [msixSend]
@[simp] theorem State.notIssued_inv (s : State) : s.notIssued.inv = s.inv := by
  simp [State.notIssued]

/-! #### Sys2Proof/Machine/Operation.lean -/

@[simp] theorem State.cancelTriggers_inv (s : State) : s.cancelTriggers.inv = s.inv := by
  simp [State.cancelTriggers, State.foldl_inv]
@[simp] theorem State.dropVoid_inv (s : State) (k : Nat) : (s.dropVoid k).inv = s.inv := by
  simp [State.dropVoid]

/-! #### Sys2Proof/Machine/Xlt.lean -/

@[simp] theorem State.askSetState_inv (s : State) (ask st : Nat) : (s.askSetState ask st).inv = s.inv := by
  simp [State.askSetState]
@[simp] theorem State.pwcBest_inv (s : State) (c ask va : Nat) : (s.pwcBest c ask va).2.inv = s.inv := by
  unfold State.pwcBest; dsimp only; split <;> simp
@[simp] theorem State.walkAll_inv (s : State) (c : Nat) (wins : List (Nat × Nat)) (b : List Byte) (ask va : Nat)
    (host : List (Nat × Nat)) : (s.walkAll c wins b ask va host).2.inv = s.inv := by
  unfold State.walkAll; (repeat' split) <;> try rfl
  all_goals exact State.inv_of_eq ‹_› (by simp)
@[simp] theorem State.fillL2_inv (s : State) (c : Nat) (e : TlbEntry) : (s.fillL2 c e).inv = s.inv := by
  simp [State.fillL2]
@[simp] theorem State.fillPwc_inv (s : State) (c : Nat) (ps : List PwcEntry) : (s.fillPwc c ps).inv = s.inv := by
  unfold State.fillPwc
  refine (State.foldl_inv _ _ (fun s p => ?_) s)
  simp
@[simp] theorem State.deliverWalk_inv (s : State) (c va : Nat) (cause : Option Nat) (cl : XltClient) (level : Nat) :
    (s.deliverWalk c va cause cl level).inv = s.inv := by
  unfold State.deliverWalk; dsimp only; (repeat' split) <;> simp
@[simp] theorem State.pmuWalk_inv (s : State) (cl : XltClient) : (s.pmuWalk cl).inv = s.inv := by
  unfold State.pmuWalk; split <;> simp
@[simp] theorem walk_inv (c : Nat) (s : State) : (walk c s).inv = s.inv := by
  unfold walk; dsimp only; (repeat' split) <;> simp
@[simp] theorem State.invalCluster_inv (s : State) (i : Inval) (c : Nat) : (s.invalCluster i c).inv = s.inv := by
  simp -implicitDefEqProofs [State.invalCluster, State.foldl_inv]
@[simp] theorem State.startInval_inv (s : State) (scope ask va len : Nat) (op : Option Nat) (cmd : Option
    (Nat × Nat × Nat)) : (s.startInval scope ask va len op cmd).inv = s.inv := by
  simp [State.startInval]
@[simp] theorem State.dropPend_inv (s : State) (ask : Nat) : (s.dropPend ask).inv = s.inv := by
  simp [State.dropPend]
@[simp] theorem State.illegalTarget_inv (s : State) (c ask level addr : Nat) :
    (s.illegalTarget c ask level addr).inv = s.inv := by
  simp -implicitDefEqProofs [State.illegalTarget, State.foldl_inv]
@[simp] theorem walkDone_inv (c i : Nat) (host : List (Nat × Nat)) (s : State) : (walkDone c i host s).inv = s.inv := by
  have wake (s : State) (w : Walk) (cause : Option Nat) (level : Nat) :
      (w.clients.foldl (fun s k => s.deliverWalk c w.va cause k level) s).inv = s.inv :=
    State.foldl_inv _ _ (fun s k => by simp) s
  unfold walkDone; dsimp only; (repeat' split) <;> try simp [wake]
  case h_1 =>
    rw [State.foldl_inv _ _ fun s k => by split <;> simp]
    simp
    exact State.inv_of_eq ‹_› (by simp)
  all_goals exact State.inv_of_eq ‹_› (by simp)

/-! #### Sys2Proof/Machine/Engine.lean -/

@[simp] theorem State.setReg_inv (s : State) (t i : Nat) (v : Word) : (s.setReg t i v).inv = s.inv := by
  simp [State.setReg]
@[simp] theorem State.tryAgain_inv (s : State) (t : Nat) : (s.tryAgain t).inv = s.inv := by
  simp [State.tryAgain]
@[simp] theorem State.fetchAt_inv (s : State) (t : Nat) (a : Word) : (s.fetchAt t a).2.inv = s.inv := by
  unfold State.fetchAt; dsimp only; (repeat' split) <;> simp
@[simp] theorem State.sampleIssue_inv (s after : State) (t word : Nat) :
    (State.sampleIssue s after t word).inv = after.inv := by
  unfold State.sampleIssue; dsimp only; (repeat' split) <;> simp
@[simp] theorem State.issued_inv (after before : State) (t word : Nat) :
    (after.issued before t word).inv = after.inv := by
  unfold State.issued; (repeat' split) <;> simp
/-- What an instruction does to the time unit is what its meaning does. -/
theorem State.issue_inv_of {P : Invar → Prop} (s : State) (t word len : Nat) (legal : Bool) (level : Nat) (srcs : List Nat)
    (k : State → State) (hs : P s.inv) (h : ∀ u, u.inv = s.inv → P (k u).inv) :
    P (s.issue t word len legal level srcs k).inv := by
  unfold State.issue; dsimp only; (repeat' split) <;> simp [hs]
  all_goals exact h _ (by simp)
@[simp] theorem State.issue_inv (s : State) (t word len : Nat) (legal : Bool) (level : Nat) (srcs : List Nat)
    (k : State → State) (h : ∀ s, (k s).inv = s.inv) : (s.issue t word len legal level srcs k).inv = s.inv :=
  State.issue_inv_of (P := (· = s.inv)) s t word len legal level srcs k rfl fun u hu => (h u).trans hu
@[simp] theorem State.writeNext_inv (s : State) (t rd len : Nat) (v : Word) : (s.writeNext t rd len v).inv = s.inv := by
  simp [State.writeNext]
@[simp] theorem State.startHandler_inv (s : State) (t : Nat) (h : Handler) (it : Item) :
    (s.startHandler t h it).inv = s.inv := by
  simp [State.startHandler]
@[simp] theorem dispatch_inv (c ecc : Nat) (s : State) : (dispatch c ecc s).inv = s.inv := by
  unfold dispatch; dsimp only; (repeat' split) <;> try simp
  all_goals exact State.wfTake_inv ‹_›
@[simp] theorem watchdog_inv (t : Nat) (s : State) : (watchdog t s).inv = s.inv := by
  simp [watchdog]
@[simp] theorem watchdogKill_inv (t : Nat) (s : State) : (watchdogKill t s).inv = s.inv := by
  unfold watchdogKill; dsimp only; split <;> simp
@[simp] theorem handlerLost_inv (c : Nat) (s : State) : (handlerLost c s).inv = s.inv := by
  unfold handlerLost; (repeat' split) <;> try simp
  all_goals exact State.wfStart_inv ‹_›
@[simp] theorem engineRetired_inv (g : Nat) (s : State) : (engineRetired g s).inv = s.inv := by
  simp [engineRetired]
@[simp] theorem engineStop_inv (g : Nat) (s : State) : (engineStop g s).inv = s.inv := by
  simp [engineStop]
@[simp] theorem htCommit_inv (c : Nat) (s : State) : (htCommit c s).inv = s.inv := by
  simp -implicitDefEqProofs [htCommit]
@[simp] theorem State.icacheClear_inv (s : State) (g : Nat) : (s.icacheClear g).inv = s.inv := by
  simp [State.icacheClear]
@[simp] theorem icacheInv_inv (c : Nat) (s : State) : (icacheInv c s).inv = s.inv := by
  simp -implicitDefEqProofs [icacheInv, State.foldl_inv]
@[simp] theorem farLoadReturn_inv (t st data : Nat) (s : State) : (farLoadReturn t st data s).inv = s.inv := by
  unfold farLoadReturn; dsimp only; (repeat' split) <;> simp
@[simp] theorem State.drained_inv (s : State) (t kind : Nat) : (s.drained t kind).inv = s.inv := by
  unfold State.drained; split <;> simp
@[simp] theorem farStorePerform_inv (t i : Nat) (s : State) : (farStorePerform t i s).inv = s.inv := by
  unfold farStorePerform; dsimp only; (repeat' split) <;> simp
@[simp] theorem icacheFill_inv (t st : Nat) (s : State) : (icacheFill t st s).inv = s.inv := by
  unfold icacheFill; dsimp only; split <;> simp

/-! #### Sys2Proof/Machine/Alu.lean -/

@[simp] theorem aluReg_inv (t rd rs1 rs2 fn : Nat) (s : State) : (aluReg t rd rs1 rs2 fn s).inv = s.inv := by
  simp [aluReg]
@[simp] theorem mulDiv_inv (t rd rs1 rs2 fn : Nat) (s : State) : (mulDiv t rd rs1 rs2 fn s).inv = s.inv := by
  simp [mulDiv]
@[simp] theorem aluImm_inv (t op rd rs1 imm imm2 : Nat) (s : State) : (aluImm t op rd rs1 imm imm2 s).inv = s.inv := by
  simp [aluImm]

/-! #### Sys2Proof/Machine/Control.lean -/

@[simp] theorem branch_inv (t op ra rb imm : Nat) (s : State) : (branch t op ra rb imm s).inv = s.inv := by
  simp [branch]
@[simp] theorem jal_inv (t rd imm : Nat) (s : State) : (jal t rd imm s).inv = s.inv := by
  simp [jal]
@[simp] theorem jalr_inv (t rd rs1 imm : Nat) (s : State) : (jalr t rd rs1 imm s).inv = s.inv := by
  simp [jalr]
@[simp] theorem fenceOp_inv (kind t rd rs1 rs2 fn : Nat) (s : State) : (fenceOp kind t rd rs1 rs2 fn s).inv = s.inv := by
  simp [fenceOp]
@[simp] theorem fence_inv (t rd rs1 rs2 fn : Nat) (s : State) : (fence t rd rs1 rs2 fn s).inv = s.inv := by
  simp [fence]
@[simp] theorem fenceSt_inv (t rd rs1 rs2 fn : Nat) (s : State) : (fenceSt t rd rs1 rs2 fn s).inv = s.inv := by
  simp [fenceSt]
@[simp] theorem fenceI_inv (t rd rs1 rs2 fn : Nat) (s : State) : (fenceI t rd rs1 rs2 fn s).inv = s.inv := by
  simp [fenceI]
@[simp] theorem State.csrSet_inv (s : State) (t csr : Nat) (v : Word) : (s.csrSet t csr v).inv = s.inv := by
  unfold State.csrSet; split <;> simp
@[simp] theorem csrOp_inv (kind t rd rs1 csr : Nat) (s : State) : (csrOp kind t rd rs1 csr s).inv = s.inv := by
  simp [csrOp]
@[simp] theorem csrr_inv (t rd rs1 csr kind : Nat) (s : State) : (csrr t rd rs1 csr kind s).inv = s.inv := by
  simp [csrr]
@[simp] theorem csrw_inv (t rd rs1 csr : Nat) (s : State) : (csrw t rd rs1 csr s).inv = s.inv := by
  simp [csrw]
@[simp] theorem csrs_inv (t rd rs1 csr : Nat) (s : State) : (csrs t rd rs1 csr s).inv = s.inv := by
  simp [csrs]
@[simp] theorem csrc_inv (t rd rs1 csr : Nat) (s : State) : (csrc t rd rs1 csr s).inv = s.inv := by
  simp [csrc]
@[simp] theorem State.sysIssue_inv (s : State) (t kind rd rs1 arg : Nat) (legal : Bool) (level : Nat)
    (k : State → State) (h : ∀ s, (k s).inv = s.inv) :
    (s.sysIssue t kind rd rs1 arg legal level k).inv = s.inv := by
  simp [State.sysIssue, h]
@[simp] theorem done_inv (t rd rs1 arg : Nat) (s : State) : (done t rd rs1 arg s).inv = s.inv := by
  simp [done]
@[simp] theorem sys_inv (t rd rs1 imm : Nat) (s : State) : (sys t rd rs1 imm s).inv = s.inv := by
  simp [sys]
@[simp] theorem brk_inv (t rd rs1 imm : Nat) (s : State) : (brk t rd rs1 imm s).inv = s.inv := by
  simp [brk]
@[simp] theorem eret_inv (t rd rs1 arg : Nat) (s : State) : (eret t rd rs1 arg s).inv = s.inv := by
  simp [eret]
@[simp] theorem pause_inv (t rd rs1 imm kind : Nat) (s : State) : (pause t rd rs1 imm kind s).inv = s.inv := by
  unfold pause
  exact State.sysIssue_inv _ _ _ _ _ _ _ _ _ fun s => by simp

/-! #### Sys2Proof/Machine/Framing.lean -/

@[simp] theorem State.sendOsN_inv (s : State) (p : Nat) (body : List Byte) (a : Nat) :
    (s.sendOsN p body a).inv = s.inv := by
  induction a generalizing s with
  | zero => rfl
  | succ n ih => simp [State.sendOsN, ih]
@[simp] theorem State.sendIdle_inv (s : State) (p : Nat) : (s.sendIdle p).inv = s.inv := by
  simp [State.sendIdle]
@[simp] theorem State.sendFault_inv (s : State) (p reason : Nat) : (s.sendFault p reason).inv = s.inv := by
  simp [State.sendFault]
@[simp] theorem State.toTimeSlot_inv (s : State) (p a : Nat) : (s.toTimeSlot p a).inv = s.inv := by
  induction a generalizing s with
  | zero => rfl
  | succ n ih => simp [State.toTimeSlot, ih]
@[simp] theorem State.sendTime_inv (s : State) (p : Nat) (rec_ : Emit) (body : List Byte) :
    (s.sendTime p rec_ body).inv = s.inv := by
  simp [State.sendTime]

/-! #### Sys2Proof/Machine/Invar.lean: the operations that change the time unit -/

@[simp] theorem State.setInv_inv (s : State) (f : Invar → Invar) : (s.setInv f).inv = f s.inv := rfl
@[simp] theorem State.setPtime_inv (s : State) (p : Nat) (x : PortTime) :
    (s.setPtime p x).inv = { s.inv with ports := s.inv.ports.set PortTime.init p x } := rfl
@[simp] theorem State.enterTime_inv (s : State) (t : TimeState) :
    (s.enterTime t).inv = { s.inv with state := t, enteredAt := s.inv.loc } := rfl
@[simp] theorem State.invEvent_inv (s : State) (bit code : Nat) : (s.invEvent bit code).inv = s.inv := by
  simp [State.invEvent]
@[simp] theorem State.updSpec_inv (s : State) : s.updSpec.inv =
    { s.inv with specMet := decide (16 ≤ s.inv.goodRun) && !s.holdover && !s.inv.slewFast } := by
  unfold State.updSpec; dsimp only; split <;> simp
@[simp] theorem State.sendAnnounce_inv (s : State) : s.sendAnnounce.inv = s.inv := by
  unfold State.sendAnnounce; split <;> simp [State.foldl_inv]
@[simp] theorem State.setParent_inv (s : State) (p : Nat) : (s.setParent p).inv =
    if s.inv.parent = some p then s.inv else { s.inv with parent := some p, suspended := none } := by
  simp [State.setParent]
@[simp] theorem State.enterHoldover_ft (s : State) : s.enterHoldover.inv.ft = s.inv.ft := by
  simp [State.enterHoldover]
@[simp] theorem State.enterUnsync_ft (s : State) : s.enterUnsync.inv.ft = s.inv.ft := by
  simp [State.enterUnsync]
/-- Is a candidate with a generation another root than the one in view? -/
def State.otherRoot (s : State) (c : Cand) (gen : Nat) : Bool :=
  match s.inv.root with
  | some v => v.cand.dn != c.dn || v.gen != gen
  | none => true
@[simp] theorem State.adoptRoot_inv (s : State) (c : Cand) (gen seq : Nat) : (s.adoptRoot c gen seq).inv =
    { s.inv with
      root := some ⟨c, gen, seq, s.inv.loc⟩, lastGen := gen, staleAt := none
      rootChanged := s.inv.rootChanged || (s.otherRoot c gen && s.inv.state == .track) } := by
  unfold State.adoptRoot; dsimp only
  rw [State.inv_ite, State.invEvent_inv, ite_self]
  rfl
/-- A new root takes its generation from where it comes: the one it knows in LISTEN, and else the next (R39, R42). -/
def State.rootGen (s : State) : Nat := if s.inv.state == .listen then s.inv.lastGen else (s.inv.lastGen + 1) % 256
/-- FT is loaded on the first entry to ROOT from LISTEN, and kept on every other (Table 2-2). -/
theorem State.becomeRoot_inv (s : State) : s.becomeRoot.inv =
    { s.inv with
      state := .root, enteredAt := s.inv.loc, parent := none, suspended := none, await := none, standby := none
      ppsAligned := !(s.inv.state == .listen), ppsGood := 0, extLock := false, rootChanged := false, staleAt := none
      root := some ⟨s.ownCand, s.rootGen, s.inv.ownSeq, s.inv.loc⟩, lastGen := s.rootGen
      ft := if s.inv.state == .listen && !s.inv.ftSetTaken then s.rd R.INV_FT_SET else s.inv.ft
      ftSetTaken := s.inv.ftSetTaken || (s.inv.state == .listen)
      specMet := decide (16 ≤ s.inv.goodRun) && !s.inv.slewFast } := by
  simp [State.becomeRoot, State.rootGen, State.holdover]
theorem State.becomeRoot_ft (s : State) (h : s.inv.state ≠ .listen) : s.becomeRoot.inv.ft = s.inv.ft := by
  simp [State.becomeRoot_inv, h]
@[simp] theorem State.updStandby_ft (s : State) (a : Announce) : (s.updStandby a).inv.ft = s.inv.ft := by
  unfold State.updStandby; dsimp only; split <;> simp
@[simp] theorem State.chooseParent_ft (s : State) : s.chooseParent.inv.ft = s.inv.ft := by
  unfold State.chooseParent; (repeat' split) <;> simp
@[simp] theorem State.awaited_ft (s : State) (dn : Nat) : (s.awaited dn).inv.ft = s.inv.ft := by
  unfold State.awaited; (repeat' split) <;> simp
@[simp] theorem announceReceived_ft (p : Nat) (a : Announce) (s : State) : (announceReceived p a s).inv.ft = s.inv.ft := by
  unfold announceReceived; split
  · rfl
  · extract_lets _ s0 self j s1 s2 s3 s4 s5 s6
    have h5 : s5.inv.ft = s.inv.ft := by
      simp only [s5, s4, s3, s2, s1, s0]; simp
    have h6 : s6.inv.ft = s5.inv.ft := by
      simp only [s6]
      split
      case h_3 => rfl
      all_goals next hs hv => rw [State.inv_ite, Invar.ft_ite, State.becomeRoot_ft _ (by simp [hs]), ite_self]
    simp [h6, h5]
@[simp] theorem sync_ft (p f : Nat) (s : State) : (sync p f s).inv.ft = s.inv.ft := by
  simp [sync]
@[simp] theorem syncReceived_inv (p id f dt : Nat) (s : State) : (syncReceived p id f dt s).inv = s.inv := by
  simp [syncReceived]
@[simp] theorem State.servo_ft (s : State) (offset : Int) : (s.servo offset).inv.ft = s.inv.ft := by
  simp -implicitDefEqProofs [State.servo]
@[simp] theorem State.wrSigned_inv (s : State) (r : RegDesc) (ix : List Nat) (v : Int) : (s.wrSigned r ix v).inv = s.inv := by
  simp [State.wrSigned]
@[simp] theorem State.parentExchange_ft (s : State) (seen : Nat) (offset : Int) :
    (s.parentExchange seen offset).inv.ft = s.inv.ft := by
  unfold State.parentExchange; dsimp only; (repeat' split) <;> simp
@[simp] theorem syncReplyReceived_ft (p id t2 t3 f : Nat) (s : State) : (syncReplyReceived p id t2 t3 f s).inv.ft = s.inv.ft := by
  unfold syncReplyReceived; dsimp only; split <;> simp
@[simp] theorem exchangeLost_ft (p : Nat) (s : State) : (exchangeLost p s).inv.ft = s.inv.ft := by
  unfold exchangeLost; dsimp only; split <;> simp
@[simp] theorem announce_ft (s : State) : (announce s).inv.ft = s.inv.ft := by
  simp [announce]
/-- The standby takes over from TRACK or HOLDOVER only, where no FT is loaded (R29, R42). -/
@[simp] theorem rootStale_ft (s : State) : (rootStale s).inv.ft = s.inv.ft := by
  unfold rootStale; split
  · rfl
  · split
    · dsimp only; split
      · next h =>
        rw [State.becomeRoot_ft]
        · rfl
        · rintro hl
          simp_all
      · split <;> rfl
    · rfl
@[simp] theorem standbyWaitExpiry_ft (s : State) : (standbyWaitExpiry s).inv.ft = s.inv.ft := by
  unfold standbyWaitExpiry; split
  · rfl
  · split
    · dsimp only
      split
      all_goals
        split
        · rw [State.becomeRoot_ft]
          · rfl
          · rintro hl
            simp_all
        · rfl
    · rfl
theorem listenExpiry_of_not_listen (s : State) (h : s.inv.state ≠ .listen) : listenExpiry s = s := by
  simp [listenExpiry, h]
theorem ftStep_of_not_acquire (s : State) (h : s.inv.state ≠ .acquire) : ftStep s = s := by
  simp [ftStep, h]
@[simp] theorem acquireComplete_ft (s : State) : (acquireComplete s).inv.ft = s.inv.ft := by
  unfold acquireComplete; split <;> simp
@[simp] theorem parentLost_ft (s : State) : (parentLost s).inv.ft = s.inv.ft := by
  unfold parentLost; (repeat' split) <;> simp
@[simp] theorem holdoverClear_ft (s : State) : (holdoverClear s).inv.ft = s.inv.ft := by
  simp [holdoverClear]
@[simp] theorem timeHoldoverLong_ft (s : State) : (timeHoldoverLong s).inv.ft = s.inv.ft := by
  simp [timeHoldoverLong]
/-- Once an edge has aligned a root, the later ones steer it and step nothing (R49). -/
theorem ppsEdge_ft (f : Nat) (ten : Bool) (s : State) (h : s.inv.state = .root → s.inv.ppsAligned = true) :
    (ppsEdge f ten s).inv.ft = s.inv.ft := by
  unfold ppsEdge; dsimp only; split
  · next hr =>
    have ha : s.inv.ppsAligned = true := h (by simp_all)
    simp [ha]
  · rfl
@[simp] theorem ppsLoss_ft (s : State) : (ppsLoss s).inv.ft = s.inv.ft := by
  unfold ppsLoss; split <;> simp
@[simp] theorem ref10mLoss_ft (s : State) : (ref10mLoss s).inv.ft = s.inv.ft := by
  simp [ref10mLoss]
@[simp] theorem ppsOutPulse_ft (s : State) : (ppsOutPulse s).inv.ft = s.inv.ft := by
  simp [ppsOutPulse]
@[simp] theorem ppsOutEnd_ft (s : State) : (ppsOutEnd s).inv.ft = s.inv.ft := by
  unfold ppsOutEnd; split <;> simp
@[simp] theorem State.routeDisarm_inv (s : State) : s.routeDisarm.inv = s.inv := by
  simp [State.routeDisarm]
@[simp] theorem invEnable_ft (s : State) : (invEnable s).inv.ft = s.inv.ft := by
  simp [invEnable]
@[simp] theorem invDisable_ft (s : State) : (invDisable s).inv.ft = s.inv.ft := by
  simp [invDisable]
@[simp] theorem reacquire_ft (s : State) : (reacquire s).inv.ft = s.inv.ft := by
  simp [reacquire]
@[simp] theorem State.moveLane_ft (s : State) (p l : Nat) : (s.moveLane p l).inv.ft = s.inv.ft := by
  simp [State.moveLane]
@[simp] theorem State.resetDelay_ft (s : State) (p : Nat) : (s.resetDelay p).inv.ft = s.inv.ft := by
  simp [State.resetDelay]


/-! #### Sys2Proof/Machine/Fabric.lean -/

@[simp] theorem State.eptRoom_inv (s : State) (epid : Nat) : (s.eptRoom epid).inv = s.inv := by
  simp [State.eptRoom]
@[simp] theorem State.resolve_inv (s : State) (epid : Nat) : (s.resolve epid).2.inv = s.inv := by
  unfold State.resolve; dsimp only; (repeat' split) <;> simp
theorem State.takeSlot_inv {s t : State} {c kind fl : Nat} {origin : Origin} {block : List Byte} {k : Nat}
    (h : s.takeSlot c kind fl origin block = some (k, t)) : t.inv = s.inv := by
  simp only [State.takeSlot, Option.map_eq_some_iff] at h
  obtain ⟨k, -, h⟩ := h
  cases h
  rfl
@[simp] theorem State.withLdm_inv (s : State) (t rs1 al n : Nat) (srcs : List Nat) (k : Nat → State → State) (h : ∀ a,
    (k a s).inv = s.inv) : (s.withLdm t rs1 al n srcs k).inv = s.inv := by
  unfold State.withLdm; dsimp only; (repeat' split) <;> simp [h]
@[simp] theorem State.withLdmRead_inv (s : State) (t rs1 key n : Nat) (k : State → State) (h : (k s).inv = s.inv) :
    (s.withLdmRead t rs1 key n k).inv = s.inv := by
  unfold State.withLdmRead; split <;> simp [h]
@[simp] theorem State.acceptOp_inv (s : State) (k priv xask : Nat) (start : Nat → Nat → State → State) (h : ∀ c k s,
    (start c k s).inv = s.inv) : (s.acceptOp k priv xask start).inv = s.inv := by
  simp [State.acceptOp, h]
@[simp] theorem State.submit_inv (s : State) (t rd rs1 major imm kind level : Nat) (legal : Bool)
    (ready : State → List Byte → Bool) (start : Nat → Nat → State → State) (ext : State → List Byte → List Byte)
    (h : ∀ c k s, (start c k s).inv = s.inv) :
    (s.submit t rd rs1 major imm kind level legal ready start ext).inv = s.inv := by
  unfold State.submit
  refine State.issue_inv _ _ _ _ _ _ _ _ fun s => State.withLdm_inv _ _ _ _ _ _ _ fun key =>
    State.withLdmRead_inv _ _ _ _ _ _ ?_
  dsimp only; split
  · split <;> simp
  · next heq =>
    split at heq
    · simp [h, State.takeSlot_inv heq]
    · cases heq
@[simp] theorem rdft_inv (t rd rs1 rs2 fn : Nat) (s : State) : (rdft t rd rs1 rs2 fn s).inv = s.inv := by
  simp [rdft]
@[simp] theorem rdlt_inv (t rd rs1 rs2 : Nat) (s : State) : (rdlt t rd rs1 rs2 s).inv = s.inv := by
  simp [rdlt]
@[simp] theorem rdts_inv (t rd rs1 rs2 : Nat) (s : State) : (rdts t rd rs1 rs2 s).inv = s.inv := by
  simp [rdts]
@[simp] theorem waitft_inv (t rd rs1 rs2 : Nat) (s : State) : (waitft t rd rs1 rs2 s).inv = s.inv := by
  simp [waitft]
@[simp] theorem waitftWake_inv (t : Nat) (s : State) : (waitftWake t s).inv = s.inv := by
  unfold waitftWake; dsimp only; split <;> simp
@[simp] theorem opstat_inv (t rd rs1 rs2 fn : Nat) (s : State) : (opstat t rd rs1 rs2 fn s).inv = s.inv := by
  simp [opstat]
@[simp] theorem opwait_inv (t rd rs1 rs2 : Nat) (s : State) : (opwait t rd rs1 rs2 s).inv = s.inv := by
  unfold opwait
  refine State.issue_inv _ _ _ _ _ _ _ _ fun s => ?_
  (repeat' split) <;> simp
@[simp] theorem wfpush_inv (t rd rs1 rs2 fn : Nat) (s : State) : (wfpush t rd rs1 rs2 fn s).inv = s.inv := by
  unfold wfpush
  refine State.issue_inv _ _ _ _ _ _ _ _ fun s => State.withLdm_inv _ _ _ _ _ _ _ fun key => ?_
  dsimp only; split
  · simp
  · split
    · next h => simp [State.wfStart_inv h]
    · simp
@[simp] theorem wfpop_inv (t rd rs1 rs2 ecc : Nat) (s : State) : (wfpop t rd rs1 rs2 ecc s).inv = s.inv := by
  unfold wfpop
  refine State.issue_inv _ _ _ _ _ _ _ _ fun s => ?_
  extract_lets v k head
  have hhead : ∀ it t, head = some (it, t) → t.inv = s.inv := by
    intro it t h
    simp only [head] at h
    split at h
    · cases h
    · exact State.wfTake_inv h
  clear_value head
  split
  · simp
  · refine State.withLdm_inv _ _ _ _ _ _ _ fun key => ?_
    split
    · rfl
    · next it t _ => split <;> simp [hhead it t rfl]

/-! #### Sys2Proof/Machine/MatchUnit.lean -/

@[simp] theorem State.unitMatch_inv (s : State) (c ctx src tag ref : Nat) :
    (s.unitMatch c ctx src tag ref).2.inv = s.inv := by
  unfold State.unitMatch; dsimp only; split <;> simp
@[simp] theorem State.claim_inv (s : State) (ctx f : Nat) : (s.claim ctx f).inv = s.inv := by
  simp [State.claim]
@[simp] theorem State.postOrWait_inv (s : State) (qn : Nat) (e : OutEntry) : (s.postOrWait qn e).inv = s.inv := by
  unfold State.postOrWait; dsimp only; (repeat' split) <;> try simp
  all_goals exact State.inv_of_eq ‹_› (by simp)
@[simp] theorem State.recvNotFound_inv (s : State) (qn : Nat) (e : OutEntry) : (s.recvNotFound qn e).inv = s.inv := by
  simp [State.recvNotFound]
@[simp] theorem State.dropCtxs_inv (s : State) (gone : Nat → Bool) : (s.dropCtxs gone).inv = s.inv := by
  simp -implicitDefEqProofs [State.dropCtxs, State.foldl_inv]
@[simp] theorem State.releaseCtxs_inv (s : State) (p : Nat → Bool) : (s.releaseCtxs p).inv = s.inv := by
  simp [State.releaseCtxs]

/-! #### Sys2Proof/Machine/Rings.lean -/

@[simp] theorem State.resumeAborts_inv (s : State) : s.resumeAborts.inv = s.inv := by
  simp [State.resumeAborts, State.foldl_inv]
@[simp] theorem State.irqCheck_inv (s : State) (cn : Nat) : (s.irqCheck cn).inv = s.inv := by
  simp [State.irqCheck]
@[simp] theorem modTimer_inv (cn : Nat) (s : State) : (modTimer cn s).inv = s.inv := by
  simp [modTimer]
@[simp] theorem State.checkResumed_inv (s : State) (cn : Nat) : (s.checkResumed cn).inv = s.inv := by
  simp [State.checkResumed]
@[simp] theorem cqWrite_inv (cn : Nat) (s : State) : (cqWrite cn s).inv = s.inv := by
  unfold cqWrite; dsimp only; (repeat' split) <;> simp
@[simp] theorem State.ownRead_inv (s : State) (cn : Nat) : (s.ownRead cn).inv = s.inv := by
  simp [State.ownRead]
@[simp] theorem cqOwnRead_inv (cn : Nat) (s : State) : (cqOwnRead cn s).inv = s.inv := by
  simp [cqOwnRead]
@[simp] theorem cqPoll_inv (cn : Nat) (s : State) : (cqPoll cn s).inv = s.inv := by
  simp [cqPoll]
@[simp] theorem cqOwnReadDone_inv (cn st n : Nat) (s : State) : (cqOwnReadDone cn st n s).inv = s.inv := by
  simp [cqOwnReadDone]
@[simp] theorem ringStallTimeout_inv (cn : Nat) (s : State) : (ringStallTimeout cn s).inv = s.inv := by
  unfold ringStallTimeout; dsimp only; split <;> simp [State.foldl_inv]
@[simp] theorem State.arbSync_inv (s : State) : s.arbSync.inv = s.inv := by
  simp [State.arbSync]
@[simp] theorem State.synced_inv (s : State) (f : State → State) (h : ∀ s, (f s).inv = s.inv) :
    (s.synced f).inv = s.inv := by
  unfold State.synced; (repeat' split) <;> simp [h]
@[simp] theorem State.chargeAll_inv (s : State) (f g qn b : Nat) : (s.chargeAll f g qn b).inv = s.inv := by
  simp [State.chargeAll]
@[simp] theorem State.selectQueue_inv (s : State) (k : Nat) : (s.selectQueue k).2.inv = s.inv := by
  unfold State.selectQueue; dsimp only; (repeat' split) <;> simp
@[simp] theorem State.queueReady_inv (s : State) (qn : Nat) : (s.queueReady qn).inv = s.inv := by
  unfold State.queueReady; dsimp only; (repeat' split) <;> try simp
  all_goals exact State.wfStart_inv ‹_›
@[simp] theorem State.ringFlush_inv (s : State) : s.ringFlush.inv = s.inv := by
  unfold State.ringFlush; dsimp only
  rw [State.foldl_inv _ _ (by simp), State.foldl_inv]
  intro s e
  split
  · next h => rw [← State.pushEvent_inv h]
  · rfl
@[simp] theorem State.issueReads_inv (s : State) (qn : Nat) (first : Bool) (a : Nat) :
    (s.issueReads qn first a).inv = s.inv := by
  induction a generalizing s first with
  | zero => rfl
  | succ b ih => simp [State.issueReads, ih]
@[simp] theorem grant_inv (k : Nat) (s : State) : (grant k s).inv = s.inv := by
  unfold grant; dsimp only; (repeat' split) <;> try simp
  all_goals exact State.inv_of_eq ‹_› (by simp)
@[simp] theorem State.ringMalformed_inv (s : State) (qn : Nat) (q : Queue) (idx reason : Nat) :
    (s.ringMalformed qn q idx reason).inv = s.inv := by
  simp -implicitDefEqProofs [State.ringMalformed]
@[simp] theorem State.takeEntry_inv (s : State) (qn idx : Nat) (data : List Byte) :
    (s.takeEntry qn idx data).inv = s.inv := by
  simp [State.takeEntry]
@[simp] theorem State.fetchSample_inv (s : State) (qn : Nat) : (s.fetchSample qn).inv = s.inv := by
  unfold State.fetchSample; dsimp only; split <;> simp
@[simp] theorem State.ownStop_inv (s : State) (qn : Nat) : (s.ownStop qn).inv = s.inv := by
  simp [State.ownStop, State.foldl_inv]
@[simp] theorem State.issueAgain_inv (s : State) (qn : Nat) : (s.issueAgain qn).inv = s.inv := by
  unfold State.issueAgain; dsimp only; split <;> simp
@[simp] theorem State.readFailed_inv (s : State) (qn : Nat) : (s.readFailed qn).inv = s.inv := by
  unfold State.readFailed; dsimp only; split <;> simp
@[simp] theorem workEntryRead_inv (qn st : Nat) (data : List Byte) (s : State) :
    (workEntryRead qn st data s).inv = s.inv := by
  unfold workEntryRead; dsimp only; (repeat' split) <;> simp
@[simp] theorem State.entryTaken_inv (s : State) (qn serial : Nat) : (s.entryTaken qn serial).inv = s.inv := by
  unfold State.entryTaken; dsimp only; (repeat' split) <;> simp
@[simp] theorem State.written_inv (s : State) (w : Writing) : (s.written w).inv = s.inv := by
  unfold State.written; split <;> simp
@[simp] theorem State.rewound_inv (s : State) (k : Nat) (w : Writing) : (s.rewound k w).inv = s.inv := by
  unfold State.rewound; split <;> simp
@[simp] theorem itemCommit_inv (c f : Nat) (bad : Bool) (s : State) : (itemCommit c f bad s).inv = s.inv := by
  unfold itemCommit; dsimp only; (repeat' split) <;> simp
@[simp] theorem doorbell_inv (f off size : Nat) (v : Word) (bad : Bool) (s : State) :
    (doorbell f off size v bad s).inv = s.inv := by
  unfold doorbell; (repeat' split) <;> simp
@[simp] theorem State.cringEnable_inv (s : State) (pf : Nat) : (s.cringEnable pf).inv = s.inv := by
  simp [State.cringEnable]
@[simp] theorem State.ccqEnable_inv (s : State) (pf : Nat) : (s.ccqEnable pf).inv = s.inv := by
  simp [State.ccqEnable]
@[simp] theorem cringDisable_inv (pf : Nat) (s : State) : (cringDisable pf s).inv = s.inv := by
  simp -implicitDefEqProofs [cringDisable]
@[simp] theorem ccqDisable_inv (pf : Nat) (s : State) : (ccqDisable pf s).inv = s.inv := by
  simp -implicitDefEqProofs [ccqDisable]
@[simp] theorem State.markStarted_inv (s : State) (qn serial : Nat) : (s.markStarted qn serial).inv = s.inv := by
  simp [State.markStarted]
/-- What a control command does to the time unit is what its body does. -/
theorem State.ctrlAny_inv_of {P : Invar → Prop} (s : State) (pf idx op : Nat) (body : List Byte → Nat → State → CtrlEnd × State)
    (hs : P s.inv) (h : ∀ b n u, u.inv = s.inv → P (body b n u).2.inv) : P (s.ctrlAny pf idx op body).inv := by
  unfold State.ctrlAny; dsimp only
  split
  · exact hs
  · next e _ =>
    have hb := h e.bytes e.serial (s.markStarted (ctrlQn pf) e.serial) (by simp)
    split
    · exact hs
    · split <;> simp_all
@[simp] theorem State.ctrlAny_inv (s : State) (pf idx op : Nat) (body : List Byte → Nat → State → CtrlEnd × State)
    (h : ∀ b n s, (body b n s).2.inv = s.inv) : (s.ctrlAny pf idx op body).inv = s.inv :=
  State.ctrlAny_inv_of (P := (· = s.inv)) s pf idx op body rfl fun b n u hu => (h b n u).trans hu
theorem State.ctrl_inv_of {P : Invar → Prop} (s : State) (pf idx op : Nat) (body : List Byte → Nat → State → CtrlEnd × State)
    (hs : P s.inv) (h : ∀ b n u, u.inv = s.inv → P (body b n u).2.inv) : P (s.ctrl pf idx op body).inv := by
  unfold State.ctrl; split
  · exact hs
  · exact s.ctrlAny_inv_of pf idx op body hs h
@[simp] theorem State.ctrl_inv (s : State) (pf idx op : Nat) (body : List Byte → Nat → State → CtrlEnd × State)
    (h : ∀ b n s, (body b n s).2.inv = s.inv) : (s.ctrl pf idx op body).inv = s.inv :=
  State.ctrl_inv_of (P := (· = s.inv)) s pf idx op body rfl fun b n u hu => (h b n u).trans hu
@[simp] theorem endsWith_inv (status : Nat) (s : State) : (endsWith status s).2.inv = s.inv := by
  simp [endsWith]
@[simp] theorem cqCreateBody_inv (pf : Nat) (b : List Byte) (x : Nat) (s : State) :
    (cqCreateBody pf b x s).2.inv = s.inv := by
  simp [cqCreateBody]
@[simp] theorem cqModifyBody_inv (pf : Nat) (b : List Byte) (x : Nat) (s : State) :
    (cqModifyBody pf b x s).2.inv = s.inv := by
  simp [cqModifyBody]
@[simp] theorem cqDestroyBody_inv (pf : Nat) (b : List Byte) (x : Nat) (s : State) :
    (cqDestroyBody pf b x s).2.inv = s.inv := by
  simp [cqDestroyBody]
@[simp] theorem cqResetBody_inv (pf : Nat) (b : List Byte) (x : Nat) (s : State) :
    (cqResetBody pf b x s).2.inv = s.inv := by
  simp [cqResetBody]
@[simp] theorem qCreateBody_inv (pf : Nat) (b : List Byte) (x : Nat) (s : State) :
    (qCreateBody pf b x s).2.inv = s.inv := by
  unfold qCreateBody; dsimp only; (repeat' split) <;> simp
@[simp] theorem qModifyBody_inv (pf : Nat) (b : List Byte) (x : Nat) (s : State) :
    (qModifyBody pf b x s).2.inv = s.inv := by
  simp [qModifyBody]
@[simp] theorem qShutdownBody_inv (pf : Nat) (b : List Byte) (serial : Nat) (s : State) :
    (qShutdownBody pf b serial s).2.inv = s.inv := by
  simp [qShutdownBody]
@[simp] theorem queueShutdownDone_inv (qn : Nat) (s : State) : (queueShutdownDone qn s).inv = s.inv := by
  unfold queueShutdownDone; dsimp only; split <;> simp
@[simp] theorem qDestroyBody_inv (pf : Nat) (b : List Byte) (x : Nat) (s : State) :
    (qDestroyBody pf b x s).2.inv = s.inv := by
  simp [qDestroyBody]
@[simp] theorem qAbort_inv (pf idx : Nat) (s : State) : (qAbort pf idx s).inv = s.inv := by
  unfold qAbort; dsimp only; split
  · split
    · rfl
    · refine State.ctrl_inv _ _ _ _ _ fun b n s => ?_
      (repeat' split) <;> simp
  · split
    · rfl
    · refine State.ctrl_inv _ _ _ _ _ fun b n s => ?_
      (repeat' split) <;> simp
@[simp] theorem State.ringsReset_inv (s : State) : s.ringsReset.inv = s.inv := by
  simp -implicitDefEqProofs [State.ringsReset, State.foldl_inv]

/-! #### Sys2Proof/Machine/Net.lean -/

@[simp] theorem State.noteHeld_inv (s : State) (x : Held) : (s.noteHeld x).inv = s.inv := by
  simp [State.noteHeld]
@[simp] theorem State.quietHalf_inv (s : State) (r : Nat) : (s.quietHalf r).inv = s.inv := by
  simp -implicitDefEqProofs [State.quietHalf, State.foldl_inv]
@[simp] theorem connQuietEnd_inv (r : Nat) (s : State) : (connQuietEnd r s).inv = s.inv := by
  simp [connQuietEnd]
@[simp] theorem epCreateBody_inv (pf : Nat) (b : List Byte) (x : Nat) (s : State) :
    (epCreateBody pf b x s).2.inv = s.inv := by
  simp [epCreateBody]
@[simp] theorem epDestroyBody_inv (pf : Nat) (b : List Byte) (x : Nat) (s : State) :
    (epDestroyBody pf b x s).2.inv = s.inv := by
  unfold epDestroyBody; dsimp only; split <;> simp
@[simp] theorem connCreateBody_inv (pf : Nat) (b : List Byte) (x : Nat) (s : State) :
    (connCreateBody pf b x s).2.inv = s.inv := by
  simp [connCreateBody]
@[simp] theorem connDestroyBody_inv (pf : Nat) (b : List Byte) (x : Nat) (s : State) :
    (connDestroyBody pf b x s).2.inv = s.inv := by
  simp [connDestroyBody]
@[simp] theorem State.askMove_inv (s : State) (ask st quiet : Nat) : (s.askMove ask st quiet).inv = s.inv := by
  simp [State.askMove]
@[simp] theorem askCreateBody_inv (pf : Nat) (b : List Byte) (serial : Nat) (s : State) :
    (askCreateBody pf b serial s).2.inv = s.inv := by
  simp [askCreateBody]
@[simp] theorem State.revokePoint_inv (s : State) (ask : Nat) (by_ : Option (Nat × Nat)) :
    (s.revokePoint ask by_).inv = s.inv := by
  simp [State.revokePoint]
@[simp] theorem revokeStart_inv (pf key serial : Nat) (s : State) : (revokeStart pf key serial s).2.inv = s.inv := by
  simp [revokeStart]
@[simp] theorem askRevokeBody_inv (pf : Nat) (b : List Byte) (serial : Nat) (s : State) :
    (askRevokeBody pf b serial s).2.inv = s.inv := by
  simp [askRevokeBody]
@[simp] theorem State.revokeNext_inv (l : List (Nat × Nat × Nat)) (s : State) : (State.revokeNext l s).inv = s.inv := by
  induction l generalizing s with
  | nil => rfl
  | cons x l ih =>
    unfold State.revokeNext; split
    · next h => simpa [ih] using State.inv_of_eq (s := s) h (by simp)
    · next h => exact State.inv_of_eq h (by simp)
@[simp] theorem State.nextRevoke_inv (s : State) : s.nextRevoke.inv = s.inv := by
  simp [State.nextRevoke]
@[simp] theorem xltRevokeCtrl_inv (path : Path) (v : Word) (s : State) : (xltRevokeCtrl path v s).inv = s.inv := by
  simp [xltRevokeCtrl]
@[simp] theorem revokeDrain_inv (s : State) : (revokeDrain s).inv = s.inv := by
  unfold revokeDrain; dsimp only; (repeat' split) <;> simp -implicitDefEqProofs
@[simp] theorem askQuietOver_inv (ask : Nat) (s : State) : (askQuietOver ask s).inv = s.inv := by
  simp [askQuietOver]
@[simp] theorem State.keyCheck_inv (s : State) (c key iso : Nat) : (s.keyCheck c key iso).2.2.inv = s.inv := by
  unfold State.keyCheck; dsimp only; (repeat' split) <;> simp
@[simp] theorem State.reportFaults_inv (n : Nat) (s : State) : (State.reportFaults n s).inv = s.inv := by
  induction n generalizing s with
  | zero => rfl
  | succ n ih => unfold State.reportFaults; (repeat' split) <;> simp [ih]
@[simp] theorem State.pendFault_inv (s : State) (ask va cause access src level : Nat) :
    (s.pendFault ask va cause access src level).inv = s.inv := by
  simp [State.pendFault]
@[simp] theorem State.withKey_inv (s : State) (pf key : Nat) (k : CtrlEnd × State) (h : k.2.inv = s.inv) :
    (s.withKey pf key k).2.inv = s.inv := by
  simp [State.withKey, h]
@[simp] theorem xltInvalidateBody_inv (pf : Nat) (b : List Byte) (serial : Nat) (s : State) :
    (xltInvalidateBody pf b serial s).2.inv = s.inv := by
  simp [xltInvalidateBody]
@[simp] theorem xltFaultWaitBody_inv (pf : Nat) (b : List Byte) (serial : Nat) (s : State) :
    (xltFaultWaitBody pf b serial s).2.inv = s.inv := by
  simp [xltFaultWaitBody]
@[simp] theorem xltFaultDoneBody_inv (pf : Nat) (b : List Byte) (x : Nat) (s : State) :
    (xltFaultDoneBody pf b x s).2.inv = s.inv := by
  simp [xltFaultDoneBody]
@[simp] theorem xltMmioSetBody_inv (pf : Nat) (b : List Byte) (x : Nat) (s : State) :
    (xltMmioSetBody pf b x s).2.inv = s.inv := by
  simp [xltMmioSetBody]
@[simp] theorem State.startQueued_inv (s : State) : s.startQueued.inv = s.inv := by
  simp [State.startQueued]
@[simp] theorem invalidationAck_inv (i c : Nat) (s : State) : (invalidationAck i c s).inv = s.inv := by
  unfold invalidationAck; (repeat' split) <;> simp
@[simp] theorem State.resetKeys_inv (s : State) (p : Nat → Bool) : (s.resetKeys p).inv = s.inv := by
  unfold State.resetKeys; dsimp only
  simp [State.foldl_inv]

/-! #### Sys2Proof/Machine/Access.lean -/

@[simp] theorem Moved.localStatus_inv (m : Moved) (s : State) : (Moved.localStatus m s).2.inv = s.inv := by
  unfold Moved.localStatus; split <;> simp
@[simp] theorem State.completeMoved_inv (s : State) (k : Nat) (m : Moved) (st : Nat) :
    (s.completeMoved k m st).inv = s.inv := by
  simp [State.completeMoved]

/-! #### Sys2Proof/Machine/PortOps.lean -/

@[simp] theorem State.freeOne_inv (s : State) (c : Option Credit) : (s.freeOne c).2.inv = s.inv := by
  unfold State.freeOne; split <;> simp
@[simp] theorem State.toSolder_inv (s : State) (x : RPkt) : (s.toSolder x).inv = s.inv := by
  simp [State.toSolder]
@[simp] theorem portDown_inv (p : Nat) (s : State) : (portDown p s).inv = s.inv := by
  simp [portDown]

/-! #### Sys2Proof/Machine/Egress.lean -/

@[simp] theorem gateEdge_inv (p : Nat) (s : State) : (gateEdge p s).inv = s.inv := by
  simp [gateEdge]
@[simp] theorem gateCtrl_inv (path : Path) (p : Nat) (v : Word) (s : State) : (gateCtrl path p v s).inv = s.inv := by
  simp -implicitDefEqProofs [gateCtrl]
@[simp] theorem gateArm_inv (path : Path) (p : Nat) (v : Word) (s : State) : (gateArm path p v s).inv = s.inv := by
  simp [gateArm]
@[simp] theorem gateCancel_inv (path : Path) (p : Nat) (v : Word) (s : State) : (gateCancel path p v s).inv = s.inv := by
  simp [gateCancel]
@[simp] theorem gateTakeover_inv (p : Nat) (s : State) : (gateTakeover p s).inv = s.inv := by
  simp -implicitDefEqProofs [gateTakeover]
@[simp] theorem State.gateWriteRefused_inv (s : State) (p : Nat) : (s.gateWriteRefused p).inv = s.inv := by
  simp [State.gateWriteRefused]
@[simp] theorem State.countWaits_inv (s : State) (p slot ft : Nat) (g : Gate) (hs : List Head) :
    (s.countWaits p slot ft g hs).inv = s.inv := by
  simp -implicitDefEqProofs [State.countWaits, State.foldl_inv]
@[simp] theorem State.headDecision_inv (s : State) (p : Nat) : (s.headDecision p).2.inv = s.inv := by
  unfold State.headDecision; dsimp only; (repeat' split) <;> simp
@[simp] theorem State.startHead_inv (s : State) (p : Nat) (t : Taken) : (s.startHead p t).inv = s.inv := by
  simp [State.startHead]
@[simp] theorem State.limOf_inv (s : State) (tile conn : Nat) : (s.limOf tile conn).2.inv = s.inv := by
  unfold State.limOf; dsimp only; split <;> simp
@[simp] theorem State.limPass_inv (s : State) (key k n : Nat) : (s.limPass key k n).2.inv = s.inv := by
  simp [State.limPass]
@[simp] theorem limiterRefill_inv (s : State) : (limiterRefill s).inv = s.inv := by
  simp [limiterRefill]
@[simp] theorem wheelSlot_inv (tile : Nat) (s : State) : (wheelSlot tile s).inv = s.inv := by
  simp [wheelSlot]
@[simp] theorem limiterCfgWrite_inv (path : Path) (tile k : Nat) (v : Word) (s : State) :
    (limiterCfgWrite path tile k v s).inv = s.inv := by
  simp -implicitDefEqProofs [limiterCfgWrite]
@[simp] theorem schLimInv_inv (path : Path) (v : Word) (s : State) : (schLimInv path v s).inv = s.inv := by
  simp [schLimInv]
@[simp] theorem depthSample_inv (s : State) : (depthSample s).inv = s.inv := by
  simp -implicitDefEqProofs [depthSample, State.foldl_inv]

/-! #### Sys2Proof/Machine/Routing.lean -/

@[simp] theorem State.setBank_inv (s : State) (b v : Nat) : (s.setBank b v).inv = s.inv := by
  simp [State.setBank]
@[simp] theorem State.choose_inv (s : State) (h : Nat) (live : List Cand4) : (s.choose h live).2.inv = s.inv := by
  simp [State.choose]
@[simp] theorem State.leaveOn_inv (s : State) (x : RPkt) (c : Cand4) : (s.leaveOn x c).inv = s.inv := by
  simp [State.leaveOn]
theorem State.routePkt_inv {s s1 : State} {tile : Nat} {x : RPkt} (h : s.routePkt tile x = some s1) : s1.inv = s.inv := by
  unfold State.routePkt at h; dsimp only at h; (repeat' split at h) <;> cases h <;> try simp
  all_goals exact State.inv_of_eq ‹_› (by simp)
theorem State.routeHeld_inv {s s1 : State} {tile i : Nat} {hs : List Hold} (h : s.routeHeld tile i hs = some s1) :
    s1.inv = s.inv := by
  induction hs generalizing i with
  | nil => simp [State.routeHeld] at h
  | cons x hs ih =>
    unfold State.routeHeld at h
    split at h
    · split at h
      · next h' => cases h; rw [State.routePkt_inv h']
      · exact ih h
    · exact ih h
@[simp] theorem route_inv (tile : Nat) (s : State) : (route tile s).inv = s.inv := by
  unfold route; dsimp only; (repeat' split) <;> try simp
  · exact State.routeHeld_inv ‹_›
  · next h => rw [State.routePkt_inv h]
@[simp] theorem routeHoldEnd_inv (i : Nat) (s : State) : (routeHoldEnd i s).inv = s.inv := by
  unfold routeHoldEnd; split <;> simp
@[simp] theorem State.enableRouting_inv (s : State) (b : Nat) : (s.enableRouting b).inv = s.inv := by
  unfold State.enableRouting; split <;> simp
@[simp] theorem State.armBank_inv (s : State) (at_ : Word) : (s.armBank at_).inv = s.inv := by
  simp [State.armBank]
@[simp] theorem epochWrite_inv (path : Path) (v : Word) (s : State) : (epochWrite path v s).inv = s.inv := by
  simp [epochWrite]
@[simp] theorem routeEnable_inv (path : Path) (v : Word) (s : State) : (routeEnable path v s).inv = s.inv := by
  simp [routeEnable]
@[simp] theorem routeArm_inv (path : Path) (v : Word) (s : State) : (routeArm path v s).inv = s.inv := by
  simp [routeArm]
@[simp] theorem routeCancel_inv (path : Path) (v : Word) (s : State) : (routeCancel path v s).inv = s.inv := by
  simp [routeCancel]
@[simp] theorem epochSwitch_inv (s : State) : (epochSwitch s).inv = s.inv := by
  unfold epochSwitch; split <;> simp
@[simp] theorem drainEnd_inv (s : State) : (drainEnd s).inv = s.inv := by
  unfold drainEnd; split <;> simp
@[simp] theorem State.tableWrite_inv (s : State) (b t i : Nat) (bs : List Byte) :
    (s.tableWrite b t i bs).inv = s.inv := by
  unfold State.tableWrite; dsimp only; split <;> simp -implicitDefEqProofs
@[simp] theorem State.copyBank_inv (s : State) (b : Nat) : (s.copyBank b).inv = s.inv := by
  simp [State.copyBank]
@[simp] theorem rtLoadBody_inv (st : Nat) (data : List Byte) (pf : Nat) (b : List Byte) (x : Nat) (s : State) :
    (rtLoadBody st data pf b x s).2.inv = s.inv := by
  unfold rtLoadBody; dsimp only; (repeat' split) <;> simp -implicitDefEqProofs [State.foldl_inv]
@[simp] theorem rtArmBody_inv (pf : Nat) (b : List Byte) (x : Nat) (s : State) : (rtArmBody pf b x s).2.inv = s.inv := by
  unfold rtArmBody; dsimp only; (repeat' split) <;> simp
@[simp] theorem rtCancelBody_inv (pf : Nat) (x : List Byte) (y : Nat) (s : State) :
    (rtCancelBody pf x y s).2.inv = s.inv := by
  simp -implicitDefEqProofs [rtCancelBody]
@[simp] theorem rtQueryBody_inv (pf : Nat) (x : List Byte) (y : Nat) (s : State) :
    (rtQueryBody pf x y s).2.inv = s.inv := by
  simp -implicitDefEqProofs [rtQueryBody]
@[simp] theorem State.eptDrop_inv (s : State) (epid : Nat) : (s.eptDrop epid).inv = s.inv := by
  simp [State.eptDrop]
@[simp] theorem eptWriteBody_inv (pf : Nat) (b : List Byte) (x : Nat) (s : State) :
    (eptWriteBody pf b x s).2.inv = s.inv := by
  simp [eptWriteBody]
@[simp] theorem routeEptInv_inv (path : Path) (v : Word) (s : State) : (routeEptInv path v s).inv = s.inv := by
  simp [routeEptInv]

/-! #### Sys2Proof/Machine/Solder.lean -/

@[simp] theorem State.spillWrite_inv (s : State) (p : Packet) (cells : List Nat) :
    (s.spillWrite p cells).inv = s.inv := by
  simp -implicitDefEqProofs [State.spillWrite, State.foldl_inv]
@[simp] theorem State.refuseBare_inv (s : State) (p : Packet) (rx : Word) (code detail : Nat) :
    (s.refuseBare p rx code detail).inv = s.inv := by
  simp [State.refuseBare]
@[simp] theorem ackDelay_inv (r : Nat) (s : State) : (ackDelay r s).inv = s.inv := by
  unfold ackDelay; split <;> simp
theorem State.deliver_inv {s s1 : State} {r : Nat} {p : Packet} {rx : Word} {hold : Bool}
    (h : s.deliver r p rx hold = some s1) : s1.inv = s.inv := by
  unfold State.deliver at h; dsimp only at h; split at h
  · cases h; simp
  · split at h
    · cases h
    · obtain ⟨t, ht, rfl⟩ := Option.map_eq_some_iff.mp h
      split at ht
      · cases ht; simp
      · simp [State.wfStart_inv ht]
@[simp] theorem State.ackItem_inv (s : State) (r : Nat) (b : List Byte) : (s.ackItem r b).inv = s.inv := by
  simp [State.ackItem]
@[simp] theorem State.owl_inv (s : State) (p : Packet) : (s.owl p).inv = s.inv := by
  simp [State.owl]
@[simp] theorem State.duplicate_inv (s : State) (r : Nat) (p : Packet) : (s.duplicate r p).inv = s.inv := by
  unfold State.duplicate; split <;> simp
@[simp] theorem State.holdPkt_inv (s : State) (r : Nat) (p : Packet) (full : Bool) :
    (s.holdPkt r p full).inv = s.inv := by
  unfold State.holdPkt; dsimp only; split <;> simp
@[simp] theorem State.dropHeld_inv (s : State) (r : Nat) (n : BitVec 32) : (s.dropHeld r n).inv = s.inv := by
  simp [State.dropHeld]
@[simp] theorem State.discardHeld_inv (s : State) (r : Nat) (x : Held) (cnt : RegDesc) :
    (s.discardHeld r x cnt).inv = s.inv := by
  simp [State.discardHeld]
@[simp] theorem State.setHeld_inv (s : State) (r : Nat) (n : BitVec 32) (f : Held → Held) :
    (s.setHeld r n f).inv = s.inv := by
  simp [State.setHeld]
@[simp] theorem State.releaseHeld_inv (s : State) (r : Nat) (x : Held) : (s.releaseHeld r x).inv = s.inv := by
  unfold State.releaseHeld; (repeat' split) <;> try simp
  next h => simp [State.deliver_inv h]
@[simp] theorem State.drainReady_inv (n : Nat) (s : State) : (State.drainReady n s).inv = s.inv := by
  induction n generalizing s with
  | zero => rfl
  | succ n ih => unfold State.drainReady; (repeat' split) <;> simp [ih]
@[simp] theorem State.releaseOrHold_inv (s : State) (r : Nat) (p : Packet) (hold : Bool) :
    (s.releaseOrHold r p hold).inv = s.inv := by
  unfold State.releaseOrHold; dsimp only; (repeat' split) <;> try simp
  all_goals simp [State.deliver_inv ‹_›]
@[simp] theorem State.judge_inv (s : State) (port : Nat) (p : Packet) : (s.judge port p).inv = s.inv := by
  unfold State.judge; (repeat' split) <;> simp
@[simp] theorem solderArrival_inv (port : Nat) (s : State) : (solderArrival port s).inv = s.inv := by
  unfold solderArrival; (repeat' split) <;> simp
@[simp] theorem release_inv (r : Nat) (s : State) : (release r s).inv = s.inv := by
  unfold release; split <;> simp
@[simp] theorem sweep_inv (s : State) : (sweep s).inv = s.inv := by
  unfold sweep; split
  · rfl
  · refine State.foldl_inv _ _ (fun s e => State.foldl_inv _ _ (fun s x => ?_) s) s
    split <;> simp
@[simp] theorem readback_inv (r n : Nat) (s : State) : (readback r n s).inv = s.inv := by
  unfold readback; dsimp only; (repeat' split) <;> simp
@[simp] theorem readbackDone_inv (r n : Nat) (s : State) : (readbackDone r n s).inv = s.inv := by
  unfold readbackDone; dsimp only; (repeat' split) <;> simp
@[simp] theorem State.doomLater_inv (s : State) (r : Nat) (n : BitVec 32) (code detail : Nat) :
    (s.doomLater r n code detail).inv = s.inv := by
  unfold State.doomLater; dsimp only; split
  · rfl
  · refine State.foldl_inv _ _ (fun s e => ?_) s
    (repeat' split) <;> simp
@[simp] theorem State.targetError_inv (s : State) (r : Nat) (p : Packet) (code detail : Nat) :
    (s.targetError r p code detail).inv = s.inv := by
  simp [State.targetError]
@[simp] theorem State.answer_inv (s : State) (c ref : Nat) (kind : Outc) (code detail : Nat) (now : Bool) :
    (s.answer c ref kind code detail now).inv = s.inv := by
  unfold State.answer; (repeat' split) <;> simp
@[simp] theorem State.answerWord_inv (s : State) (c ref outcome detail : Nat) :
    (s.answerWord c ref outcome detail).inv = s.inv := by
  simp [State.answerWord]

/-! #### Sys2Proof/Machine/Forming.lean -/

@[simp] theorem State.rlxAndSrc_inv (s : State) (o : Op) : (s.rlxAndSrc o).2.2.inv = s.inv := by
  unfold State.rlxAndSrc; dsimp only; (repeat' split) <;> simp
@[simp] theorem State.inject_inv (s : State) (c k : Nat) (o : Op) (p : Packet) : (s.inject c k o p).inv = s.inv := by
  simp -implicitDefEqProofs [State.inject, State.foldl_inv]
@[simp] theorem State.addTx_inv (s : State) (r : Nat) (p : Packet) (src : SrcRef) : (s.addTx r p src).inv = s.inv := by
  simp [State.addTx]
@[simp] theorem State.recordTx_inv (s : State) (o : Op) (p : Packet) (src : SrcRef) :
    (s.recordTx o p src).inv = s.inv := by
  simp -implicitDefEqProofs [State.recordTx, State.foldl_inv]
@[simp] theorem State.assignSeq_inv (s : State) (k : Nat) : (s.assignSeq k).inv = s.inv := by
  unfold State.assignSeq; dsimp only; split
  · rfl
  · rw [State.foldl_inv _ _ fun s e => State.setHalf_inv s _ _, State.setOp_inv]
@[simp] theorem State.endOnError_inv (s : State) (k : Nat) : (s.endOnError k).inv = s.inv := by
  unfold State.endOnError; dsimp only; split <;> simp
@[simp] theorem startFabric_inv (k : Nat) (s : State) : (startFabric k s).inv = s.inv := by
  unfold startFabric; dsimp only; (repeat' split) <;> try simp
  all_goals exact State.inv_of_eq ‹_› (by simp)
@[simp] theorem State.dropResponse_inv (s : State) (k : Nat) (kind : Outc) (code detail : Nat) :
    (s.dropResponse k kind code detail).inv = s.inv := by
  unfold State.dropResponse; dsimp only; split <;> simp
@[simp] theorem State.unreached_inv (s : State) (k : Nat) : (s.unreached k).inv = s.inv := by
  simp [State.unreached]
@[simp] theorem State.countSent_inv (s : State) (k : Nat) : (s.countSent k).inv = s.inv := by
  simp -implicitDefEqProofs [State.countSent, State.foldl_inv]
@[simp] theorem State.notFormed_inv (s : State) (k : Nat) : (s.notFormed k).inv = s.inv := by
  unfold State.notFormed; dsimp only; (repeat' split) <;> simp
@[simp] theorem State.halfGone_inv (s : State) (k : Nat) : (s.halfGone k).inv = s.inv := by
  simp [State.halfGone]
theorem State.retried_inv {s s1 : State} {m : Moved} {ask va access src : Nat}
    (h : s.retried m ask va access src = some s1) : s1.inv = s.inv := by
  unfold State.retried at h; (repeat' split at h) <;> simp at h <;> simp [← h]
@[simp] theorem State.targetFail_inv (s : State) (m : Moved) (ask va access src : Nat) :
    (s.targetFail m ask va access src).2.2.2.inv = s.inv := by
  unfold State.targetFail; dsimp only; (repeat' split) <;> try simp
  all_goals grind [State.retried_inv]
@[simp] theorem State.setTxRec_inv (s : State) (r : Nat) (q : BitVec 32) (f : TxRec → TxRec) :
    (s.setTxRec r q f).inv = s.inv := by
  simp [State.setTxRec]
@[simp] theorem State.retxFail_inv (s : State) (r : Nat) (x : TxRec) (code detail : Nat) :
    (s.retxFail r x code detail).inv = s.inv := by
  simp [State.retxFail]
@[simp] theorem State.srcFail_inv (s : State) (k : Nat) (m : Moved) (key va : Nat) :
    (s.srcFail k m key va).inv = s.inv := by
  unfold State.srcFail; dsimp only; (repeat' split) <;> simp
@[simp] theorem State.payloadOf_inv (s : State) (c k : Nat) (src : SrcRef) (check : Bool) (st : Nat) (host : List Byte) :
    (s.payloadOf c k src check st host).2.inv = s.inv := by
  unfold State.payloadOf; (repeat' split) <;> try simp
  all_goals
    rename_i h
    replace h := congrArg (fun p => p.2.2.inv) h
    split at h <;> simpa using h.symm
@[simp] theorem State.passLim_inv (s : State) (k n : Nat) : (s.passLim k n).2.inv = s.inv := by
  unfold State.passLim; split <;> simp
@[simp] theorem State.afterForm_inv (s : State) (k : Nat) (p : Packet) (src : SrcRef) :
    (s.afterForm k p src).inv = s.inv := by
  unfold State.afterForm; dsimp only; (repeat' split) <;> simp
@[simp] theorem State.formRetx_inv (s : State) (c k r : Nat) (x : TxRec) (payload : List Byte) :
    (s.formRetx c k r x payload).inv = s.inv := by
  simp [State.formRetx]
@[simp] theorem State.formNext_inv (s : State) (c k st : Nat) (host : List Byte) :
    (s.formNext c k st host).inv = s.inv := by
  unfold State.formNext; dsimp only; (repeat' split) <;> try simp
  all_goals exact State.inv_of_eq ‹_› (by simp)
@[simp] theorem packetForm_inv (c slot st : Nat) (data : List Byte) (s : State) :
    (packetForm c slot st data s).inv = s.inv := by
  unfold packetForm; dsimp only; (repeat' split) <;> try simp
  all_goals exact State.inv_of_eq ‹_› (by simp)

/-! #### Sys2Proof/Machine/Amalgam.lean -/

@[simp] theorem startAml_inv (k : Nat) (s : State) : (startAml k s).inv = s.inv := by
  simp [startAml]
@[simp] theorem State.amlGot_inv (s : State) (slot : Nat) (b : List Byte) (off n : Nat) :
    (s.amlGot slot b off n).inv = s.inv := by
  simp -implicitDefEqProofs [State.amlGot, State.foldl_inv]
@[simp] theorem contribution_inv (c ref : Nat) (s : State) : (contribution c ref s).inv = s.inv := by
  unfold contribution; dsimp only; (repeat' split) <;> simp
@[simp] theorem State.amlLocal_inv (s : State) (slot key k st : Nat) (host : List Byte) :
    (s.amlLocal slot key k st host).2.inv = s.inv := by
  unfold State.amlLocal; dsimp only; (repeat' split) <;> try simp
  all_goals exact State.inv_of_eq ‹_› (by simp)
@[simp] theorem State.amlWrite_inv (s : State) (slot key off : Nat) (bs : List Byte) :
    (s.amlWrite slot key off bs).2.inv = s.inv := by
  unfold State.amlWrite; dsimp only; (repeat' split) <;> try simp
  all_goals grind [State.writeAt_inv, Moved.localStatus_inv]
@[simp] theorem State.amlEnd_inv (s : State) (slot key : Nat) : (s.amlEnd slot key).inv = s.inv := by
  simp [State.amlEnd]
@[simp] theorem State.amlFinal_inv (s : State) (slot key k : Nat) : (s.amlFinal slot key k).inv = s.inv := by
  unfold State.amlFinal; dsimp only; (repeat' split) <;> try simp
  all_goals exact State.inv_of_eq ‹_› (by simp)
@[simp] theorem stripeComplete_inv (slot k st : Nat) (data : List Byte) (s : State) :
    (stripeComplete slot k st data s).inv = s.inv := by
  unfold stripeComplete; (repeat' split) <;> try simp
  all_goals exact State.inv_of_eq ‹_› (by simp)
@[simp] theorem amlCfgWrite_inv (path : Path) (addr : Nat) (v : Word) (s : State) :
    (amlCfgWrite path addr v s).inv = s.inv := by
  simp [amlCfgWrite]

/-! #### Sys2Proof/Machine/OpStart.lean -/

@[simp] theorem State.fetchEntries_inv (s : State) (qn key : Nat) (es : List (List Byte)) (n : Nat) :
    (s.fetchEntries qn key es n).2.2.inv = s.inv := by
  induction es generalizing s n with
  | nil => rfl
  | cons e es ih => unfold State.fetchEntries; dsimp only; (repeat' split) <;> simp [ih]
@[simp] theorem startQfetch_inv (k : Nat) (s : State) : (startQfetch k s).inv = s.inv := by
  simp -implicitDefEqProofs [startQfetch]
@[simp] theorem State.postCqe_inv (s : State) (k cn : Nat) (c : Completion) : (s.postCqe k cn c).inv = s.inv := by
  simp [State.postCqe]
@[simp] theorem startCqpost_inv (k : Nat) (s : State) : (startCqpost k s).inv = s.inv := by
  unfold startCqpost; dsimp only; (repeat' split) <;> simp
@[simp] theorem State.matchDone_inv (s : State) (k : Nat) (r : MRes) : (s.matchDone k r).inv = s.inv := by
  unfold State.matchDone; split <;> simp
@[simp] theorem startMatch_inv (k : Nat) (s : State) : (startMatch k s).inv = s.inv := by
  unfold startMatch; dsimp only; (repeat' split) <;> simp
@[simp] theorem State.setMover_inv (s : State) (m : Nat) (k : Option Nat) : (s.setMover m k).inv = s.inv := by
  simp [State.setMover]
@[simp] theorem State.endDma_inv (s : State) (k status detail : Nat) : (s.endDma k status detail).inv = s.inv := by
  unfold State.endDma; dsimp only; (repeat' split) <;> simp
@[simp] theorem State.misused_inv (s : State) : s.misused.inv = s.inv := by
  simp [State.misused]
@[simp] theorem startDma_inv (k : Nat) (s : State) : (startDma k s).inv = s.inv := by
  unfold startDma; dsimp only; (repeat' split) <;> try simp
  all_goals grind [State.keyCheck_inv, State.setMover_inv, State.setOp_inv]
@[simp] theorem State.dmaRead_inv (s : State) (k off n st : Nat) (host : List Byte) :
    (s.dmaRead k off n st host).2.inv = s.inv := by
  unfold State.dmaRead; dsimp only; (repeat' split) <;> simp
@[simp] theorem State.dmaRun_inv (s : State) (k st : Nat) (host : List Byte) (a : Nat) :
    (s.dmaRun k st host a).inv = s.inv := by
  induction a generalizing s with
  | zero => rfl
  | succ f ih =>
    unfold State.dmaRun; dsimp only; (repeat' split) <;> try simp [ih]
    all_goals grind [State.writeAt_inv, Moved.localStatus_inv, State.dmaRead_inv, State.endDma_inv,
      State.setOp_inv, → State.retried_inv]
@[simp] theorem dmaDone_inv (c slot st : Nat) (data : List Byte) (s : State) :
    (dmaDone c slot st data s).inv = s.inv := by
  unfold dmaDone; dsimp only; (repeat' split) <;> simp
@[simp] theorem startTlbinv_inv (k : Nat) (s : State) : (startTlbinv k s).inv = s.inv := by
  simp [startTlbinv]
@[simp] theorem startLaunched_inv (k : Nat) (s : State) : (startLaunched k s).inv = s.inv := by
  simp [startLaunched]
@[simp] theorem State.fire_inv (s : State) (t : Trigger) : (s.fire t).inv = s.inv := by
  simp [State.fire]
@[simp] theorem startTrig_inv (k : Nat) (s : State) : (startTrig k s).inv = s.inv := by
  unfold startTrig; (repeat' split) <;> simp
@[simp] theorem triggerFire_inv (c h : Nat) (s : State) : (triggerFire c h s).inv = s.inv := by
  unfold triggerFire; split <;> simp
@[simp] theorem startKind_inv (k : Nat) (s : State) : (startKind k s).inv = s.inv := by
  unfold startKind; dsimp only; (repeat' split) <;> simp
@[simp] theorem startAccepted_inv (k st : Nat) (s : State) : (startAccepted k st s).inv = s.inv := by
  simp [startAccepted]
@[simp] theorem State.startHeld_inv (s : State) : s.startHeld.inv = s.inv := by
  simp -implicitDefEqProofs [State.startHeld, State.foldl_inv]
@[simp] theorem fput_inv (t rd rs1 imm : Nat) (s : State) : (fput t rd rs1 imm s).inv = s.inv := by
  simp [fput]
@[simp] theorem fget_inv (t rd rs1 imm : Nat) (s : State) : (fget t rd rs1 imm s).inv = s.inv := by
  simp [fget]
@[simp] theorem famo_inv (t rd rs1 imm : Nat) (s : State) : (famo t rd rs1 imm s).inv = s.inv := by
  simp [famo]
@[simp] theorem fsend_inv (t rd rs1 imm : Nat) (s : State) : (fsend t rd rs1 imm s).inv = s.inv := by
  simp [fsend]
@[simp] theorem fflush_inv (t rd rs1 imm : Nat) (s : State) : (fflush t rd rs1 imm s).inv = s.inv := by
  simp [fflush]
@[simp] theorem ffence_inv (t rd rs1 imm : Nat) (s : State) : (ffence t rd rs1 imm s).inv = s.inv := by
  simp [ffence]
@[simp] theorem fmcast_inv (t rd rs1 imm : Nat) (s : State) : (fmcast t rd rs1 imm s).inv = s.inv := by
  simp [fmcast]
@[simp] theorem qfetch_inv (t rd rs1 imm : Nat) (es : List (List Byte)) (s : State) :
    (qfetch t rd rs1 imm es s).inv = s.inv := by
  simp [qfetch]
@[simp] theorem cqpost_inv (t rd rs1 imm : Nat) (s : State) : (cqpost t rd rs1 imm s).inv = s.inv := by
  simp [cqpost]
@[simp] theorem mpost_inv (t rd rs1 imm : Nat) (s : State) : (mpost t rd rs1 imm s).inv = s.inv := by
  simp [mpost]
@[simp] theorem mmatch_inv (t rd rs1 imm : Nat) (s : State) : (mmatch t rd rs1 imm s).inv = s.inv := by
  simp [mmatch]
@[simp] theorem mcancel_inv (t rd rs1 imm : Nat) (s : State) : (mcancel t rd rs1 imm s).inv = s.inv := by
  simp [mcancel]
@[simp] theorem trig_inv (t rd rs1 imm : Nat) (s : State) : (trig t rd rs1 imm s).inv = s.inv := by
  simp [trig]
@[simp] theorem dma_inv (t rd rs1 imm : Nat) (s : State) : (dma t rd rs1 imm s).inv = s.inv := by
  simp [dma]
@[simp] theorem tlbinv_inv (t rd rs1 imm : Nat) (s : State) : (tlbinv t rd rs1 imm s).inv = s.inv := by
  simp [tlbinv]
@[simp] theorem amlsub_inv (t rd rs1 imm : Nat) (s : State) : (amlsub t rd rs1 imm s).inv = s.inv := by
  simp [amlsub]
@[simp] theorem opabort_inv (t rd rs1 rs2 : Nat) (s : State) : (opabort t rd rs1 rs2 s).inv = s.inv := by
  unfold opabort
  refine State.issue_inv _ _ _ _ _ _ _ _ fun s => ?_
  split <;> simp
@[simp] theorem pktrel_inv (t rd rs1 rs2 : Nat) (s : State) : (pktrel t rd rs1 rs2 s).inv = s.inv := by
  simp [pktrel]
@[simp] theorem opTimeout_inv (c slot : Nat) (s : State) : (opTimeout c slot s).inv = s.inv := by
  unfold opTimeout; dsimp only; split <;> simp

/-! #### Sys2Proof/Machine/Target.lean -/

@[simp] theorem State.refuseFinal_inv (s : State) (c ref code detail : Nat) :
    (s.refuseFinal c ref code detail).inv = s.inv := by
  simp [State.refuseFinal]
@[simp] theorem State.refuseNow_inv (s : State) (c ref code : Nat) : (s.refuseNow c ref code).inv = s.inv := by
  simp [State.refuseNow]
@[simp] theorem State.consumed_inv (s : State) (c ref : Nat) : (s.consumed c ref).inv = s.inv := by
  unfold State.consumed; split <;> simp
@[simp] theorem State.answerDoom_inv (s : State) (c ref : Nat) (d : Nat × Nat) : (s.answerDoom c ref d).inv = s.inv := by
  simp [State.answerDoom]
@[simp] theorem State.keyRefuses_inv (s : State) (c : Nat) (h : Half) (p : Packet) (u : Use) :
    (s.keyRefuses c h p u).2.inv = s.inv := by
  unfold State.keyRefuses; (repeat' split)
  all_goals grind [State.keyCheck_inv]
@[simp] theorem State.withPacket_inv (s : State) (c ref : Nat) (ok : Half → Packet → Bool)
    (k : PktRef → Half → State → State) (h : ∀ x y s, (k x y s).inv = s.inv) :
    (s.withPacket c ref ok k).inv = s.inv := by
  unfold State.withPacket; dsimp only; (repeat' split) <;> simp [h]
@[simp] theorem State.targetAnswer_inv (s : State) (c ref : Nat) (m : Moved) (ask va access src : Nat) :
    (s.targetAnswer c ref m ask va access src).inv = s.inv := by
  simp [State.targetAnswer]
@[simp] theorem State.heldRefuse_inv (s : State) (c ref f : Nat) : (s.heldRefuse c ref f).inv = s.inv := by
  simp [State.heldRefuse]
@[simp] theorem State.noteWrote_inv (s : State) (r : Nat) (a : Option Nat) : (s.noteWrote r a).inv = s.inv := by
  unfold State.noteWrote; split <;> simp
@[simp] theorem State.putDone_inv (s : State) (c ref : Nat) (x : PktRef) : (s.putDone c ref x).inv = s.inv := by
  simp [State.putDone]
@[simp] theorem State.collGot_inv (s : State) (id chan n : Nat) : (s.collGot id chan n).inv = s.inv := by
  unfold State.collGot; split <;> simp
@[simp] theorem State.bufferPut_inv (s : State) (c ref : Nat) (x : PktRef) (id : Nat) :
    (s.bufferPut c ref x id).inv = s.inv := by
  unfold State.bufferPut; dsimp only; (repeat' split) <;> try simp
  all_goals grind [State.writeAt_inv, Moved.localStatus_inv]
@[simp] theorem State.placePut_inv (s : State) (c ref : Nat) (x : PktRef) (h : Half) :
    (s.placePut c ref x h).inv = s.inv := by
  unfold State.placePut; dsimp only; (repeat' split) <;> try simp
  all_goals grind [State.writeAt_inv, State.setPktRef_frame, State.keyRefuses_inv]
@[simp] theorem State.takePut_inv (s : State) (c ref : Nat) (x : PktRef) (h : Half) :
    (s.takePut c ref x h).inv = s.inv := by
  unfold State.takePut; (repeat' split) <;> simp
@[simp] theorem State.returnPath_inv (s : State) (h : Half) (p : Packet) : (s.returnPath h p).2.inv = s.inv := by
  unfold State.returnPath; (repeat' split) <;> exact State.inv_of_eq ‹_› (by simp)
theorem State.startResponse_inv {s s1 : State} {r kind n : Nat} {dest : Nat × Nat} {seq : BitVec 32} {block : List Byte}
    (h : s.startResponse r kind n dest seq block = some s1) : s1.inv = s.inv := by
  unfold State.startResponse at h
  obtain ⟨⟨k, t⟩, ht, rfl⟩ := Option.map_eq_some_iff.mp h
  simp [State.takeSlot_inv ht]
@[simp] theorem getReq_inv (c ref : Nat) (s : State) : (getReq c ref s).inv = s.inv := by
  unfold getReq
  refine State.withPacket_inv _ _ _ _ _ fun x h s => ?_
  dsimp only; (repeat' split) <;> try simp
  all_goals grind [State.keyRefuses_inv, State.returnPath_inv, State.startResponse_inv]
@[simp] theorem State.newRead_inv (s : State) (why : ReadFor) (f : Nat) : (s.newRead why f).2.inv = s.inv := by
  simp [State.newRead]
@[simp] theorem State.amoAnswer_inv (s : State) (c ref : Nat) (x : PktRef) (h : Half) (old : Nat) :
    (s.amoAnswer c ref x h old).inv = s.inv := by
  unfold State.amoAnswer; dsimp only; (repeat' split) <;> try simp
  all_goals grind [State.returnPath_inv, State.startResponse_inv]
@[simp] theorem State.amoAt_inv (s : State) (c ref : Nat) (x : PktRef) (h : Half) (pc : Piece) :
    (s.amoAt c ref x h pc).inv = s.inv := by
  unfold State.amoAt; (repeat' split) <;> simp
@[simp] theorem amoReq_inv (c ref : Nat) (s : State) : (amoReq c ref s).inv = s.inv := by
  unfold amoReq
  refine State.withPacket_inv _ _ _ _ _ fun x h s => ?_
  dsimp only; (repeat' split) <;> try simp
  all_goals grind [State.keyRefuses_inv, State.returnPath_inv, State.locateOne_inv, State.setPktRef_frame]
@[simp] theorem State.lateResponse_inv (s : State) : s.lateResponse.inv = s.inv := by
  simp [State.lateResponse]
@[simp] theorem getResp_inv (c ref : Nat) (s : State) : (getResp c ref s).inv = s.inv := by
  unfold getResp
  refine State.withPacket_inv _ _ _ _ _ fun x h s => ?_
  dsimp only; (repeat' split) <;> try simp
  all_goals grind [State.writeAt_inv, Moved.localStatus_inv]
@[simp] theorem amoResp_inv (c ref : Nat) (s : State) : (amoResp c ref s).inv = s.inv := by
  unfold amoResp
  refine State.withPacket_inv _ _ _ _ _ fun x h s => ?_
  dsimp only; (repeat' split) <;> try simp
  all_goals grind [State.writeAt_inv, Moved.localStatus_inv]
@[simp] theorem State.prove_inv (s : State) (c ref : Nat) (x : PktRef) : (s.prove c ref x).inv = s.inv := by
  simp [State.prove]
@[simp] theorem flushProof_inv (c ref : Nat) (s : State) : (flushProof c ref s).inv = s.inv := by
  unfold flushProof
  refine State.withPacket_inv _ _ _ _ _ fun x h s => ?_
  (repeat' split) <;> try simp
@[simp] theorem State.dropTag_inv (s : State) (t : Nat) : (s.dropTag t).inv = s.inv := by
  simp [State.dropTag]
@[simp] theorem State.hostDone_inv (s : State) (t st : Nat) (data : List Byte) : (s.hostDone t st data).inv = s.inv := by
  unfold State.hostDone; dsimp only; (repeat' split) <;> simp
@[simp] theorem readCompletion_inv (t st : Nat) (data : List Byte) (s : State) :
    (readCompletion t st data s).inv = s.inv := by
  simp [readCompletion]
@[simp] theorem atomicopCompletion_inv (t st : Nat) (data : List Byte) (s : State) :
    (atomicopCompletion t st data s).inv = s.inv := by
  unfold atomicopCompletion; (repeat' split) <;> simp
@[simp] theorem completionTimeout_inv (t : Nat) (s : State) : (completionTimeout t s).inv = s.inv := by
  unfold completionTimeout; split <;> simp

/-! #### Sys2Proof/Machine/MatchServer.lean -/

@[simp] theorem State.unmeet_inv (s : State) (c ref : Nat) : (s.unmeet c ref).inv = s.inv := by
  simp [State.unmeet]
@[simp] theorem State.repost_inv (s : State) (qn serial : Nat) : (s.repost qn serial).inv = s.inv := by
  unfold State.repost; split <;> simp
@[simp] theorem State.comeBack_inv (s : State) (qn serial ord : Nat) : (s.comeBack qn serial ord).inv = s.inv := by
  unfold State.comeBack; split <;> simp
@[simp] theorem State.claimFor_inv (s : State) (x : PktRef) : (s.claimFor x).inv = s.inv := by
  simp [State.claimFor]
@[simp] theorem State.keepRecv_inv (s : State) (qn : Nat) (e : OutEntry) : (s.keepRecv qn e).inv = s.inv := by
  simp [State.keepRecv]
theorem State.passOver_inv {s s1 : State} {c : Nat} {w : Want} (h : s.passOver c w = some s1) : s1.inv = s.inv := by
  unfold State.passOver at h; dsimp only at h; (repeat' split at h) <;> cases h <;> try simp
@[simp] theorem State.serveUpTo_inv (s : State) (c : Nat) (w : Want) (a : Nat) : (s.serveUpTo c w a).2.inv = s.inv := by
  induction a generalizing s with
  | zero => rfl
  | succ f ih =>
    unfold State.serveUpTo; (repeat' split) <;> try simp [ih]
    all_goals clear ih; grind [→ State.wfTake_inv, → State.passOver_inv, → State.wfStart_inv]
@[simp] theorem State.serve_inv (s : State) (c : Nat) (w : Want) : (s.serve c w).2.inv = s.inv := by
  simp [State.serve]
@[simp] theorem State.setOverflow_inv (s : State) (c : Nat) (l : List Fwd) : (s.setOverflow c l).inv = s.inv := by
  simp [State.setOverflow]
theorem State.forwardItem_inv {s s1 : State} {c home ty : Nat} {body : List Byte}
    (h : s.forwardItem c home ty body = some s1) : s1.inv = s.inv := by
  exact State.wfStart_inv h
@[simp] theorem State.onWay_inv (s : State) (c : Nat) (f : Fwd) : (s.onWay c f).inv = s.inv := by
  simp [State.onWay]
@[simp] theorem State.offWay_inv (s : State) (c : Nat) (f : Fwd) : (s.offWay c f).inv = s.inv := by
  simp [State.offWay]
theorem State.forward_sent_inv {s t : State} {c : Nat} {f : Fwd} {ty : Nat} {body : List Byte}
    (h : s.forward c f ty body = .sent t) : t.inv = s.inv := by
  unfold State.forward at h; dsimp only at h
  split at h
  · next heq =>
    cases h
    split at heq
    · cases heq
    · simp [State.forwardItem_inv heq]
  · split at h <;> cases h
theorem State.forward_listed_inv {s t : State} {c : Nat} {f : Fwd} {ty : Nat} {body : List Byte}
    (h : s.forward c f ty body = .listed t) : t.inv = s.inv := by
  unfold State.forward at h; dsimp only at h
  split at h
  · cases h
  · split at h <;> cases h
    simp
@[simp] theorem State.matchRefuse_inv (s : State) (home c ref : Nat) : (s.matchRefuse home c ref).inv = s.inv := by
  simp [State.matchRefuse]
@[simp] theorem State.meet_inv (s : State) (c ref home ctx : Nat) (rdv : Bool) (x : PktRef) :
    (s.meet c ref home ctx rdv x).inv = s.inv := by
  unfold State.meet; dsimp only; (repeat' split) <;> try simp
  all_goals exact State.inv_of_eq ‹_› (by simp)
@[simp] theorem State.arrive_inv (s : State) (c ref : Nat) (x : PktRef) (h : Half) :
    (s.arrive c ref x h).inv = s.inv := by
  unfold State.arrive; dsimp only; (repeat' split) <;> try simp
  · exact (State.forward_sent_inv ‹_›).trans (by simp)
  · exact (State.forward_listed_inv ‹_›).trans (by simp)
  · exact State.forward_sent_inv ‹_›
  · exact State.forward_listed_inv ‹_›
@[simp] theorem State.copyMatched_inv (s : State) (c ref : Nat) (x : PktRef) (qn serial : Nat) :
    (s.copyMatched c ref x qn serial).inv = s.inv := by
  unfold State.copyMatched; dsimp only; (repeat' split) <;> try simp
  all_goals grind [State.writeAt_inv, Moved.localStatus_inv]
@[simp] theorem State.copyToBlock_inv (s : State) (c ref key : Nat) (u : UnexpRec) (x : PktRef) :
    (s.copyToBlock c ref key u x).inv = s.inv := by
  unfold State.copyToBlock; (repeat' split) <;> simp
@[simp] theorem State.sendDoomed_inv (s : State) (c ref : Nat) (d : Nat × Nat) : (s.sendDoomed c ref d).inv = s.inv := by
  unfold State.sendDoomed; dsimp only; (repeat' split) <;> simp
@[simp] theorem State.takeSend_inv (s : State) (c ref : Nat) (x : PktRef) (h : Half) :
    (s.takeSend c ref x h).inv = s.inv := by
  unfold State.takeSend; (repeat' split) <;> simp
@[simp] theorem putPacket_inv (c ref : Nat) (s : State) : (putPacket c ref s).inv = s.inv := by
  unfold putPacket; split <;> simp
theorem State.getMessage_inv {s s1 : State} {qn : Nat} {e : OutEntry} {key : Nat} {u : UnexpRec} {rkey len va : Nat}
    (h : s.getMessage qn e key u rkey len va = some s1) : s1.inv = s.inv := by
  unfold State.getMessage at h; dsimp only at h
  obtain ⟨⟨k, t⟩, ht, rfl⟩ := Option.map_eq_some_iff.mp h
  simp [State.takeSlot_inv ht]
@[simp] theorem State.takeMessage_inv (s : State) (qn : Nat) (e : OutEntry) (key : Nat) (u : UnexpRec) :
    (s.takeMessage qn e key u).inv = s.inv := by
  unfold State.takeMessage; dsimp only; (repeat' split) <;> try simp
  · exact State.takeSlot_inv ‹_›
  · exact State.getD_inv fun t ht => (State.getMessage_inv ht).trans (by simp)
@[simp] theorem State.recvGoes_inv (s : State) (qn : Nat) (e : OutEntry) : (s.recvGoes qn e).inv = s.inv := by
  unfold State.recvGoes; split <;> simp
@[simp] theorem State.recvForward_inv (s : State) (qn : Nat) (e : OutEntry) : (s.recvForward qn e).inv = s.inv := by
  unfold State.recvForward; dsimp only; (repeat' split) <;> try simp
  · exact State.forward_sent_inv ‹_›
  · exact State.forward_listed_inv ‹_›
@[simp] theorem State.keptGoOn_inv (s : State) (c : Nat) : (s.keptGoOn c).inv = s.inv := by
  unfold State.keptGoOn
  refine State.foldl_inv _ _ (fun s w => ?_) s
  (repeat' split) <;> simp
@[simp] theorem State.recvPopped_inv (s : State) (qn : Nat) (e : OutEntry) : (s.recvPopped qn e).inv = s.inv := by
  simp [State.recvPopped]
@[simp] theorem State.recvGoesOn_inv (s : State) (qn : Nat) (e : OutEntry) : (s.recvGoesOn qn e).inv = s.inv := by
  simp [State.recvGoesOn]
@[simp] theorem recv_inv (qn idx : Nat) (s : State) : (recv qn idx s).inv = s.inv := by
  unfold recv; dsimp only; (repeat' split) <;> simp
@[simp] theorem overflowForward_inv (c : Nat) (s : State) : (overflowForward c s).inv = s.inv := by
  unfold overflowForward; dsimp only; (repeat' split) <;> try simp
  all_goals simp [State.forwardItem_inv ‹_›]
@[simp] theorem State.recvDone_inv (s : State) (o : Op) (qn serial : Nat) : (s.recvDone o qn serial).inv = s.inv := by
  simp [State.recvDone]

/-! #### Sys2Proof/Machine/Library.lean -/
theorem State.launch_inv {s s1 : State} {qn r : Nat} {e : OutEntry} (h : s.launch qn r e = some s1) : s1.inv = s.inv := by
  unfold State.launch at h
  obtain ⟨⟨k, t⟩, ht, rfl⟩ := Option.map_eq_some_iff.mp h
  simp [State.takeSlot_inv ht]
@[simp] theorem State.sqWork_inv (s : State) (qn idx : Nat) (is : Nat → Bool) : (s.sqWork qn idx is).inv = s.inv := by
  unfold State.sqWork; dsimp only; (repeat' split) <;> try simp
  next h => exact (State.launch_inv h).trans (by simp)
@[simp] theorem State.workOpDone_inv (s : State) (o : Op) (qn serial : Nat) : (s.workOpDone o qn serial).inv = s.inv := by
  unfold State.workOpDone; split <;> simp
@[simp] theorem State.responseLeft_inv (s : State) (o : Op) : (s.responseLeft o).inv = s.inv := by
  unfold State.responseLeft; dsimp only; (repeat' split) <;> simp
@[simp] theorem State.failSend_inv (s : State) (r : Nat) (p : Packet) : (s.failSend r p).inv = s.inv := by
  unfold State.failSend; (repeat' split) <;> simp
@[simp] theorem State.sourceError_inv (s : State) (r st : Nat) (q : BitVec 32) : (s.sourceError r st q).inv = s.inv := by
  unfold State.sourceError; split <;> simp
@[simp] theorem State.refused_inv (s : State) (r : Nat) (a : AckItem) : (s.refused r a).inv = s.inv := by
  unfold State.refused; dsimp only; (repeat' split) <;> simp
@[simp] theorem State.proven_inv (s : State) (r : Nat) (a : AckItem) : (s.proven r a).inv = s.inv := by
  unfold State.proven
  exact State.foldl_inv _ _ (fun s k => by simp) s
theorem State.resend_inv {s s1 : State} {r : Nat} {x : TxRec} (h : s.resend r x = some s1) : s1.inv = s.inv := by
  unfold State.resend at h; split at h
  · cases h
  · obtain ⟨⟨k, t⟩, ht, rfl⟩ := Option.map_eq_some_iff.mp h
    simp [State.takeSlot_inv ht]
@[simp] theorem rto_inv (r seq : Nat) (s : State) : (rto r seq s).inv = s.inv := by
  unfold rto; dsimp only; (repeat' split) <;> try simp
  all_goals exact State.resend_inv ‹_›
@[simp] theorem retryExceeded_inv (r seq : Nat) (s : State) : (retryExceeded r seq s).inv = s.inv := by
  unfold retryExceeded; split <;> simp
@[simp] theorem State.sendRefused_inv (s : State) (r seq : Nat) (is : Nat → Bool) :
    (s.sendRefused r seq is).inv = s.inv := by
  unfold State.sendRefused; (repeat' split) <;> try rfl
  exact State.getD_inv fun t ht => State.resend_inv ht
@[simp] theorem rlRetry_inv (r seq : Nat) (s : State) : (rlRetry r seq s).inv = s.inv := by
  simp [rlRetry]
@[simp] theorem refuseBackoff_inv (r seq : Nat) (s : State) : (refuseBackoff r seq s).inv = s.inv := by
  simp [refuseBackoff]

/-! #### Sys2Proof/Machine/Collective.lean -/

@[simp] theorem State.memberAt_inv (s : State) (ep : Nat) : (s.memberAt ep).2.inv = s.inv := by
  unfold State.memberAt; (repeat' split) <;> exact State.inv_of_eq ‹_› (by simp)
@[simp] theorem State.membersOf_inv (s : State) (eps : List Nat) (ms : List Member) :
    (s.membersOf eps ms).2.inv = s.inv := by
  induction eps generalizing s ms with
  | nil => rfl
  | cons ep eps ih =>
    unfold State.membersOf; split <;> try simp [ih]
    all_goals exact State.inv_of_eq ‹_› (by simp)
@[simp] theorem State.joinWith_inv (s : State) (q : Queue) (r : Nat) (b table : List Byte) :
    (s.joinWith q r b table).2.inv = s.inv := by
  unfold State.joinWith; dsimp only; (repeat' split) <;> try rfl
  all_goals try rw [State.setColl_inv, State.foldl_inv _ _ fun s e => State.setHalf_inv s _ _]
  all_goals exact State.inv_of_eq ‹_› (by simp)
@[simp] theorem State.collWork_inv (s : State) (qn idx sub : Nat) (f : Queue → Nat → OutEntry → State → State)
    (h : ∀ q n e s, (f q n e s).inv = s.inv) : (s.collWork qn idx sub f).inv = s.inv := by
  unfold State.collWork; dsimp only; (repeat' split) <;> simp [h]
@[simp] theorem join_inv (qn idx st : Nat) (data : List Byte) (s : State) : (join qn idx st data s).inv = s.inv := by
  unfold join
  refine State.collWork_inv _ _ _ _ _ fun q r e s => ?_
  dsimp only; (repeat' split) <;> try simp
  all_goals grind [State.takeSlot_inv, State.readAt_inv, Moved.localStatus_inv, State.markStarted_inv]
@[simp] theorem leave_inv (qn idx : Nat) (s : State) : (leave qn idx s).inv = s.inv := by
  unfold leave
  refine State.collWork_inv _ _ _ _ _ fun q r e s => ?_
  dsimp only; split <;> simp [State.foldl_inv]
@[simp] theorem State.setRun_inv (s : State) (id : Nat) (f : CollRun → CollRun) : (s.setRun id f).inv = s.inv := by
  unfold State.setRun; split <;> simp
theorem State.runOp_inv {s t : State} {c id step : Nat} {half : Option Nat} {kind fl : Nat} {block : List Byte}
    {k : Nat} (h : s.runOp c id step half kind fl block = some (k, t)) : t.inv = s.inv := by
  obtain ⟨⟨i, u⟩, hu, ht⟩ := Option.map_eq_some_iff.mp h
  cases ht
  simp [State.takeSlot_inv hu]
@[simp] theorem State.listOn_inv (s : State) (r : Nat) (who : Nat × Nat) : (s.listOn r who).inv = s.inv := by
  simp [State.listOn]
theorem State.runSend_inv {s s1 : State} {c id step phase : Nat} {at_ : Word} {w : RunSend}
    (h : s.runSend c id step phase at_ w = some s1) : s1.inv = s.inv := by
  unfold State.runSend at h; dsimp only at h
  split at h
  · obtain ⟨⟨k, t⟩, ht, rfl⟩ := Option.map_eq_some_iff.mp h
    simp [State.runOp_inv ht]
  · (repeat' split at h)
    · obtain ⟨⟨k, t⟩, ht, rfl⟩ := Option.map_eq_some_iff.mp h
      simp [State.runOp_inv ht]
    · simp at h
    · obtain ⟨⟨k, t⟩, ht, rfl⟩ := Option.map_eq_some_iff.mp h
      simp [State.runOp_inv ht]
@[simp] theorem State.runSends_inv (s : State) (c id : Nat) (cl : Coll) (step phase : Nat) (at_ : Word)
    (who : Nat × Nat) (held : List Nat) (a : List RunSend) :
    (s.runSends c id cl step phase at_ who held a).2.inv = s.inv := by
  induction a generalizing s held with
  | nil => rfl
  | cons w ws ih =>
    unfold State.runSends; dsimp only; split
    · next h =>
      split at h
      · cases h
      · rw [ih, State.runSend_inv h]
    · simp [ih, State.foldl_inv]
@[simp] theorem State.runPush_inv (s : State) (c id : Nat) (cl : Coll) (r : CollRun) (phase : Nat) :
    (s.runPush c id cl r phase).inv = s.inv := by
  unfold State.runPush; dsimp only
  simp [State.foldl_inv]
@[simp] theorem State.openSlots2_inv (s : State) (c id : Nat) (steps : List (RunStep × Nat)) :
    (s.openSlots2 c id steps).inv = s.inv := by
  unfold State.openSlots2
  refine State.foldl_inv _ _ (fun s e => ?_) s
  (repeat' split) <;> try simp
  exact State.runOp_inv ‹_›
@[simp] theorem State.runFault_inv (s : State) (id : Nat) (m : Moved) : (s.runFault id m).inv = s.inv := by
  unfold State.runFault; split <;> try simp
  all_goals exact State.inv_of_eq ‹_› (by simp)
@[simp] theorem State.libAccess_inv (s : State) (c id step : Nat) (f : XltClient → State → Moved × State) (h : ∀ x s,
    (f x s).2.inv = s.inv) : (s.libAccess c id step f).2.inv = s.inv := by
  unfold State.libAccess
  extract_lets slot
  have hslot : ∀ k t, slot = some (k, t) → t.inv = s.inv := by
    intro k t ht
    simp only [slot] at ht
    split at ht
    · cases ht; rfl
    · exact State.runOp_inv ht
  clear_value slot
  split
  · rfl
  · next k t =>
    have ht : (f (.op k) t).2.inv = s.inv := by rw [h, hslot k t rfl]
    split <;> simp [State.inv_of_eq ‹_› ht]
@[simp] theorem State.runPrepare_inv (s : State) (c id : Nat) (b : List Byte) (r : CollRun) (steps : List RunStep)
    (x : RunStep) : (s.runPrepare c id b r steps x).inv = s.inv := by
  unfold State.runPrepare; dsimp only; (repeat' split) <;> try simp
  all_goals exact State.inv_of_eq ‹_› (by simp)
@[simp] theorem State.runNext_inv (s : State) (c id : Nat) (cl : Coll) (b : List Byte) (r : CollRun) (count : Nat)
    (x : RunStep) : (s.runNext c id cl b r count x).inv = s.inv := by
  unfold State.runNext; dsimp only; (repeat' split) <;> try simp
  all_goals exact State.inv_of_eq ‹_› (by simp)
@[simp] theorem State.runOn_inv (s : State) (c id : Nat) (cl : Coll) (b : List Byte) (r : CollRun) :
    (s.runOn c id cl b r).inv = s.inv := by
  unfold State.runOn; dsimp only; (repeat' split) <;> simp
@[simp] theorem run_inv (qn idx : Nat) (s : State) : (run qn idx s).inv = s.inv := by
  unfold run
  refine State.collWork_inv _ _ _ _ _ fun q r e s => ?_
  dsimp only; (repeat' split) <;> simp
@[simp] theorem State.runOpDone_inv (s : State) (o : Op) (id : Nat) : (s.runOpDone o id).inv = s.inv := by
  unfold State.runOpDone; dsimp only; (repeat' split) <;> simp
@[simp] theorem phaseTimeout_inv (id : Nat) (s : State) : (phaseTimeout id s).inv = s.inv := by
  unfold phaseTimeout; split <;> simp

/-! #### Sys2Proof/Machine/Completion.lean -/

@[simp] theorem State.libDone_inv (s : State) (o : Op) : (s.libDone o).inv = s.inv := by
  unfold State.libDone; split <;> simp
@[simp] theorem opDone_inv (c slot : Nat) (s : State) : (opDone c slot s).inv = s.inv := by
  unfold opDone; dsimp only; (repeat' split) <;> simp

/-! #### Sys2Proof/Machine/Lanes.lean -/

@[simp] theorem State.sendTsOn_inv (s : State) (p l ty count : Nat) : (s.sendTsOn p l ty count).inv = s.inv := by
  simp [State.sendTsOn]
@[simp] theorem State.sendTs_inv (s : State) (p : Nat) (ls : List Nat) (ty count : Nat) :
    (s.sendTs p ls ty count).inv = s.inv := by
  simp -implicitDefEqProofs [State.sendTs, State.foldl_inv]
@[simp] theorem State.enterTrain_inv (s : State) (p : Nat) : (s.enterTrain p).inv = s.inv := by
  simp [State.enterTrain]
@[simp] theorem State.retrainPort_inv (s : State) (p : Nat) : (s.retrainPort p).inv = s.inv := by
  simp [State.retrainPort]
@[simp] theorem State.grantBuffer_inv (s : State) (p : Nat) : (s.grantBuffer p).inv = s.inv := by
  simp [State.grantBuffer]
@[simp] theorem State.enterConfig_inv (s : State) (p : Nat) (ls : List Nat) : (s.enterConfig p ls).inv = s.inv := by
  simp [State.enterConfig]
@[simp] theorem State.peerMarks_inv (s : State) (p l : Nat) (f : TsFrame) : (s.peerMarks p l f).inv = s.inv := by
  simp [State.peerMarks]
@[simp] theorem State.checkTrained_inv (s : State) (p : Nat) : (s.checkTrained p).inv = s.inv := by
  simp [State.checkTrained]
@[simp] theorem ts1_inv (p l : Nat) (f : TsFrame) (s : State) : (ts1 p l f s).inv = s.inv := by
  simp [ts1]
@[simp] theorem ts2_inv (p l : Nat) (f : TsFrame) (s : State) : (ts2 p l f s).inv = s.inv := by
  simp [ts2]
@[simp] theorem configComplete_inv (p : Nat) (s : State) : (configComplete p s).inv = s.inv := by
  unfold configComplete; dsimp only; split
  · rfl
  · simp -implicitDefEqProofs [State.foldl_inv]
@[simp] theorem ts3_inv (p : Nat) (f : TsFrame) (s : State) : (ts3 p f s).inv = s.inv := by
  simp [ts3]
@[simp] theorem configTimeout_inv (p : Nat) (s : State) : (configTimeout p s).inv = s.inv := by
  simp [configTimeout]
@[simp] theorem lockTimeout_inv (p : Nat) (s : State) : (lockTimeout p s).inv = s.inv := by
  simp [lockTimeout]
@[simp] theorem signalDetect_inv (p l : Nat) (s : State) : (signalDetect p l s).inv = s.inv := by
  simp [signalDetect]
@[simp] theorem retryWait_inv (p : Nat) (s : State) : (retryWait p s).inv = s.inv := by
  simp [retryWait]
@[simp] theorem State.retireLane_ft (s : State) (p l cause : Nat) : (s.retireLane p l cause).inv.ft = s.inv.ft := by
  simp [State.retireLane]
@[simp] theorem State.retireLanes_ft (s : State) (p : Nat) (ls : List (Nat × Nat)) :
    (s.retireLanes p ls).inv.ft = s.inv.ft := by
  unfold State.retireLanes; split
  · rfl
  · simp -implicitDefEqProofs [State.foldl_ft]
@[simp] theorem State.countFail_inv (s : State) (p l : Nat) : (s.countFail p l).inv = s.inv := by
  simp [State.countFail]
@[simp] theorem trainTimeout_ft (p : Nat) (s : State) : (trainTimeout p s).inv.ft = s.inv.ft := by
  unfold trainTimeout; dsimp only; (repeat' split) <;> simp -implicitDefEqProofs [State.foldl_inv]
@[simp] theorem State.evalLane_ft (s : State) (p l : Nat) : (s.evalLane p l).inv.ft = s.inv.ft := by
  simp -implicitDefEqProofs [State.evalLane]
@[simp] theorem serEvaluation_ft (p l : Nat) (s : State) : (serEvaluation p l s).inv.ft = s.inv.ft := by
  simp [serEvaluation]
@[simp] theorem State.unretireLane_inv (s : State) (p l : Nat) : (s.unretireLane p l).inv = s.inv := by
  simp [State.unretireLane]
@[simp] theorem laneRetest_inv (path : Path) (p l : Nat) (s : State) : (laneRetest path p l s).inv = s.inv := by
  simp [laneRetest]
@[simp] theorem State.disablePort_inv (s : State) (p : Nat) : (s.disablePort p).inv = s.inv := by
  simp [State.disablePort]
@[simp] theorem lnkCtrl_ft (path : Path) (p : Nat) (v : Word) (s : State) : (lnkCtrl path p v s).inv.ft = s.inv.ft := by
  unfold lnkCtrl; dsimp only; (repeat' split) <;> simp
@[simp] theorem linkEnable_ft (path : Path) (p : Nat) (v : Word) (s : State) : (linkEnable path p v s).inv.ft = s.inv.ft := by
  simp [linkEnable]
@[simp] theorem linkDisable_ft (path : Path) (p : Nat) (v : Word) (s : State) :
    (linkDisable path p v s).inv.ft = s.inv.ft := by
  simp [linkDisable]
@[simp] theorem retrain_ft (path : Path) (p : Nat) (v : Word) (s : State) : (retrain path p v s).inv.ft = s.inv.ft := by
  simp [retrain]
@[simp] theorem linkWake_inv (p : Nat) (s : State) : (linkWake p s).inv = s.inv := by
  simp [linkWake]
@[simp] theorem wakePatternEnd_inv (p : Nat) (s : State) : (wakePatternEnd p s).inv = s.inv := by
  unfold wakePatternEnd; split <;> simp
@[simp] theorem eyeScan_inv (path : Path) (p l : Nat) (v : Word) (s : State) : (eyeScan path p l v s).inv = s.inv := by
  simp -implicitDefEqProofs [eyeScan]
@[simp] theorem eyeScanDone_inv (p l n : Nat) (s : State) : (eyeScanDone p l n s).inv = s.inv := by
  simp -implicitDefEqProofs [eyeScanDone]

/-! #### Sys2Proof/Machine/HostLink.lean -/

@[simp] theorem State.settleWake_inv (s : State) : s.settleWake.inv = s.inv := by
  simp [State.settleWake]
@[simp] theorem State.resetFuncs_inv (s : State) (p : Nat → Bool) : (s.resetFuncs p).inv = s.inv := by
  simp [State.resetFuncs]
@[simp] theorem functionLevelReset_inv (f : Nat) (s : State) : (functionLevelReset f s).inv = s.inv := by
  simp [functionLevelReset]
@[simp] theorem State.endReads_inv (s : State) (p : Nat → Bool) : (s.endReads p).inv = s.inv := by
  simp -implicitDefEqProofs [State.endReads, State.foldl_inv]
@[simp] theorem perst_inv (k : Nat) (level : Bool) (s : State) : (perst k level s).inv = s.inv := by
  unfold perst; dsimp only; (repeat' split) <;> simp -implicitDefEqProofs [State.foldl_inv]
@[simp] theorem hostLinkDown_inv (a : Nat) (s : State) : (hostLinkDown a s).inv = s.inv := by
  simp [hostLinkDown]
@[simp] theorem hostLinkUp_inv (a width rate : Nat) (s : State) : (hostLinkUp a width rate s).inv = s.inv := by
  simp [hostLinkUp]
@[simp] theorem State.sendHeld_inv (s : State) (f : Nat) : (s.sendHeld f).inv = s.inv := by
  simp -implicitDefEqProofs [State.sendHeld, State.foldl_inv]
@[simp] theorem l1Entry_inv (a : Nat) (s : State) : (l1Entry a s).inv = s.inv := by
  simp [l1Entry]
@[simp] theorem l1Exit_inv (a : Nat) (s : State) : (l1Exit a s).inv = s.inv := by
  simp [l1Exit]
@[simp] theorem exitToL0Complete_inv (a : Nat) (s : State) : (exitToL0Complete a s).inv = s.inv := by
  simp -implicitDefEqProofs [exitToL0Complete, State.foldl_inv]
@[simp] theorem functionStateChange_inv (f d : Nat) (cfg : FuncCfg) (s : State) :
    (functionStateChange f d cfg s).inv = s.inv := by
  unfold functionStateChange; dsimp only; (repeat' split) <;> simp -implicitDefEqProofs [State.foldl_inv]
@[simp] theorem vfAllocWrite_inv (path : Path) (pf : Nat) (v : Word) (s : State) :
    (vfAllocWrite path pf v s).inv = s.inv := by
  simp -implicitDefEqProofs [vfAllocWrite]
@[simp] theorem State.dropCommands_inv (s : State) : s.dropCommands.inv = s.inv := by
  simp -implicitDefEqProofs [State.dropCommands]
@[simp] theorem State.adapterReset_inv (s : State) : s.adapterReset.inv = s.inv := by
  simp [State.adapterReset]
@[simp] theorem adapterReset_inv (pf : Nat) (v : BitVec 32) (s : State) : (adapterReset pf v s).inv = s.inv := by
  simp [adapterReset]

/-! #### Sys2Proof/Machine/Link.lean -/

@[simp] theorem State.sendCell_inv (s : State) (p : Nat) : (s.sendCell p).inv = s.inv := by
  unfold State.sendCell; dsimp only; split <;> simp
@[simp] theorem slotSend_inv (p : Nat) (s : State) : (slotSend p s).inv = s.inv := by
  unfold slotSend; dsimp only; (repeat' split) <;> try simp
  all_goals exact State.inv_of_eq ‹_› (by simp)
@[simp] theorem State.startReplay_inv (s : State) (p lack : Nat) : (s.startReplay p lack).inv = s.inv := by
  simp [State.startReplay]
@[simp] theorem replayTimeout_inv (p : Nat) (s : State) : (replayTimeout p s).inv = s.inv := by
  unfold replayTimeout; dsimp only; split <;> simp
@[simp] theorem State.countCw_inv (s : State) (p : Nat) (bad : Bool) (e0 e1 : Nat) :
    (s.countCw p bad e0 e1).inv = s.inv := by
  simp -implicitDefEqProofs [State.countCw, State.foldl_inv]
@[simp] theorem State.takeCw_inv (s : State) (p : Nat) (c : Codeword) : (s.takeCw p c).inv = s.inv := by
  simp [State.takeCw]
@[simp] theorem State.pendNak_inv (s : State) (p : Nat) : (s.pendNak p).inv = s.inv := by
  simp [State.pendNak]
@[simp] theorem State.noFault_inv (s : State) (p : Nat) : (s.noFault p).inv = s.inv := by
  simp [State.noFault]
@[simp] theorem State.naked_inv (s : State) (p lack : Nat) : (s.naked p lack).inv = s.inv := by
  unfold State.naked; dsimp only; (repeat' split) <;> simp
@[simp] theorem State.enterFaulted_inv (s : State) (p : Nat) : (s.enterFaulted p).inv = s.inv := by
  simp [State.enterFaulted]
@[simp] theorem State.takeOs_inv (s : State) (p : Nat) (body : List Byte) : (s.takeOs p body).inv = s.inv := by
  simp [State.takeOs]
@[simp] theorem State.takePacket_inv (s : State) (p : Nat) (a : Assembly) : (s.takePacket p a).inv = s.inv := by
  simp [State.takePacket]
@[simp] theorem State.takeCell_inv (s : State) (p : Nat) (f : Slot) : (s.takeCell p f).inv = s.inv := by
  unfold State.takeCell; dsimp only; (repeat' split) <;> simp
@[simp] theorem State.takeSlotBody_inv (s : State) (p : Nat) (f : Slot) : (s.takeSlotBody p f).inv = s.inv := by
  simp [State.takeSlotBody]
@[simp] theorem State.slotFailed_inv (s : State) (p : Nat) : (s.slotFailed p).inv = s.inv := by
  simp [State.slotFailed]
@[simp] theorem State.takeSlotIn_inv (s : State) (p : Nat) (f : Slot) : (s.takeSlotIn p f).inv = s.inv := by
  simp [State.takeSlotIn]
@[simp] theorem State.slotFrom_inv (s : State) (p : Nat) (cws : List Codeword) : (s.slotFrom p cws).2.inv = s.inv := by
  unfold State.slotFrom; dsimp only; split <;> simp [State.foldl_inv]
@[simp] theorem slotReceived_inv (p : Nat) (cws : List Codeword) (s : State) : (slotReceived p cws s).inv = s.inv := by
  unfold slotReceived; dsimp only; (repeat' split) <;> try simp
  all_goals exact State.inv_of_eq ‹_› (by simp)
@[simp] theorem slotLock_inv (p : Nat) (s : State) : (slotLock p s).inv = s.inv := by
  simp [slotLock]
@[simp] theorem lockLost_inv (p : Nat) (s : State) : (lockLost p s).inv = s.inv := by
  simp [lockLost]
@[simp] theorem faultReceived_inv (p _reason : Nat) (s : State) : (faultReceived p _reason s).inv = s.inv := by
  simp [faultReceived]
@[simp] theorem sleepReceived_inv (p : Nat) (s : State) : (sleepReceived p s).inv = s.inv := by
  simp [sleepReceived]

/-! #### Sys2Proof/Machine/Power.lean -/

@[simp] theorem State.writeFatal_inv (s : State) (complete : Bool) : (s.writeFatal complete).inv = s.inv := by
  simp [State.writeFatal]
/-- A device reset leaves the time unit as after power-on (R533). -/
@[simp] theorem State.deviceReset_inv (s : State) (kind : Nat) : (s.deviceReset kind).inv = Invar.init := by
  unfold State.deviceReset
  rw [State.restoreRetired_inv, State.inv_ite, State.emit_inv, ite_self, State.inv_ite, State.emit_inv, ite_self, State.inv_ite,
    State.emit_inv, ite_self]
  rfl
@[simp] theorem State.warmReset_inv (s : State) : s.warmReset.inv = Invar.init := by
  simp [State.warmReset]
theorem resetN_ftHeld (src : ResetSrc) (s : State) : s.inv.FtHeld (resetN src s).inv := by
  unfold resetN; dsimp only; (repeat' split) <;> simp [Invar.FtHeld]
theorem powerOn_ftHeld (s : State) : s.inv.FtHeld (powerOn s).inv := by
  unfold powerOn; split
  · exact .inr (s.deviceReset_inv 0)
  · exact .refl _
theorem powerDown_ftHeld (s : State) : s.inv.FtHeld (powerDown s).inv := by
  simp only [Invar.FtHeld, powerDown, State.inv_ite, State.deviceReset_inv]
  split
  · exact .inl rfl
  · exact .inr rfl
theorem warm_ftHeld (path : Path) (v : Word) (s : State) : s.inv.FtHeld (warm path v s).inv := by
  unfold warm; split
  · exact .inr s.warmReset_inv
  · exact .refl _
@[simp] theorem State.bootLife_inv (s : State) : s.bootLife.inv = s.inv := by
  simp [State.bootLife]
@[simp] theorem State.bootHandlers_inv (s : State) (hs : List (Nat × Nat × Nat × Nat)) :
    (s.bootHandlers hs).inv = s.inv := by
  simp -implicitDefEqProofs [State.bootHandlers, State.foldl_inv]
@[simp] theorem State.startAtControl_inv (s : State) (c : Nat) (entry : Word) :
    (s.startAtControl c entry).inv = s.inv := by
  unfold State.startAtControl; split <;> simp
@[simp] theorem State.startControl_inv (s : State) (entry : Word) : (s.startControl entry).inv = s.inv := by
  simp [State.startControl]
@[simp] theorem State.startServer_inv (s : State) (c : Nat) : (s.startServer c).inv = s.inv := by
  simp [State.startServer]
@[simp] theorem State.arm_inv (s : State) : s.arm.inv = s.inv := by
  simp [State.arm]
@[simp] theorem boot_inv (r : BootEnv) (s : State) : (boot r s).inv = s.inv := by
  unfold boot; split
  · rfl
  · simp -implicitDefEqProofs [State.foldl_inv]
@[simp] theorem bootFail_inv (r : BootEnv) (s : State) : (bootFail r s).inv = s.inv := by
  unfold bootFail; split
  · rfl
  · simp -implicitDefEqProofs
@[simp] theorem svnCommit_inv (path : Path) (v : Word) (s : State) : (svnCommit path v s).inv = s.inv := by
  simp [svnCommit]
@[simp] theorem pwrEnterBody_inv (pf : Nat) (b : List Byte) (x : Nat) (s : State) :
    (pwrEnterBody pf b x s).2.inv = s.inv := by
  unfold pwrEnterBody; dsimp only; (repeat' split) <;> simp
@[simp] theorem State.parkTime_ft (s : State) (st : Nat) : (s.parkTime st).inv.ft = s.inv.ft := by
  unfold State.parkTime; (repeat' split) <;> simp
@[simp] theorem State.park_ft (s : State) (st : Nat) : (s.park st).inv.ft = s.inv.ft := by
  simp -implicitDefEqProofs [State.park, State.foldl_inv]
@[simp] theorem State.spoilN_inv (s : State) (k n : Nat) : (s.spoilN k n).inv = s.inv := by
  simp -implicitDefEqProofs [State.spoilN, State.foldl_inv]
@[simp] theorem State.retEffect_inv (s : State) (b : RetBank) : (s.retEffect b).inv = s.inv := by
  unfold State.retEffect; split <;> simp
@[simp] theorem State.retCheck_inv (s : State) (fails : List RetBank) : (s.retCheck fails).inv = s.inv := by
  unfold State.retCheck; split
  · rfl
  · simp -implicitDefEqProofs [State.foldl_inv]
@[simp] theorem State.wakeUp_ft (s : State) (src : Nat) (fails : List RetBank) : (s.wakeUp src fails).inv.ft = s.inv.ft := by
  simp -implicitDefEqProofs [State.wakeUp, State.foldl_inv]
@[simp] theorem wake_ft (src : Nat) (fails : List RetBank) (s : State) : (wake src fails s).inv.ft = s.inv.ft := by
  simp [wake]
@[simp] theorem pwrWake_ft (path : Path) (fails : List RetBank) (s : State) : (pwrWake path fails s).inv.ft = s.inv.ft := by
  simp [pwrWake]
@[simp] theorem State.settleEntry_ft (s : State) : s.settleEntry.inv.ft = s.inv.ft := by
  unfold State.settleEntry; dsimp only; (repeat' split) <;> simp
@[simp] theorem State.hostStirs_ft (s : State) : s.hostStirs.inv.ft = s.inv.ft := by
  simp [State.hostStirs]
@[simp] theorem pwrQueryBody_inv (pf : Nat) (x : List Byte) (y : Nat) (s : State) :
    (pwrQueryBody pf x y s).2.inv = s.inv := by
  simp -implicitDefEqProofs [pwrQueryBody]
theorem warmRestartBody_ftHeld (pf : Nat) (b : List Byte) (x : Nat) (s : State) :
    s.inv.FtHeld (warmRestartBody pf b x s).2.inv := by
  unfold warmRestartBody; (repeat' split) <;> simp [Invar.FtHeld]
@[simp] theorem State.enablePort_inv (s : State) (p : Nat) : (s.enablePort p).inv = s.inv := by
  simp [State.enablePort]
@[simp] theorem fabricJoinBody_ft (pf : Nat) (b : List Byte) (serial : Nat) (s : State) :
    (fabricJoinBody pf b serial s).2.inv.ft = s.inv.ft := by
  simp -implicitDefEqProofs [fabricJoinBody, State.foldl_inv]
@[simp] theorem State.endJoin_inv (s : State) (d : WorkDone) : (s.endJoin d).inv = s.inv := by
  unfold State.endJoin; split <;> simp
@[simp] theorem fabricReady_inv (s : State) : (fabricReady s).inv = s.inv := by
  unfold fabricReady; (repeat' split) <;> simp
@[simp] theorem fabricJoinTimeout_inv (s : State) : (fabricJoinTimeout s).inv = s.inv := by
  unfold fabricJoinTimeout; split <;> simp

/-! #### Sys2Proof/Machine/Faults.lean -/

@[simp] theorem State.storageError_inv (s : State) (src code i0 i1 : Nat) :
    (s.storageError src code i0 i1).inv = s.inv := by
  unfold State.storageError; split <;> simp
@[simp] theorem errorReport_inv (src code : Nat) (i0 i1 : Word) (s : State) :
    (errorReport src code i0 i1 s).inv = s.inv := by
  simp [errorReport]
@[simp] theorem tgfHistAck_inv (path : Path) (v : Word) (s : State) : (tgfHistAck path v s).inv = s.inv := by
  simp [tgfHistAck]
@[simp] theorem tgfUnfreeze_inv (path : Path) (s : State) : (tgfUnfreeze path s).inv = s.inv := by
  simp [tgfUnfreeze]
@[simp] theorem tgfInject_inv (path : Path) (v : Word) (s : State) : (tgfInject path v s).inv = s.inv := by
  simp [tgfInject]
@[simp] theorem tgfInjectLock_inv (path : Path) (s : State) : (tgfInjectLock path s).inv = s.inv := by
  simp [tgfInjectLock]
@[simp] theorem State.someChannel_inv (s : State) (stack : Nat) : (s.someChannel stack).2.inv = s.inv := by
  simp [State.someChannel]
@[simp] theorem hbmPageRetired_inv (page : Nat) (s : State) : (hbmPageRetired page s).inv = s.inv := by
  unfold hbmPageRetired; dsimp only; (repeat' split) <;> simp
@[simp] theorem retest_inv (path : Path) (v : Word) (s : State) : (retest path v s).inv = s.inv := by
  simp -implicitDefEqProofs [retest]
@[simp] theorem State.retestPass_inv (s : State) (src page : Nat) : (s.retestPass src page).inv = s.inv := by
  unfold State.retestPass; split <;> simp
@[simp] theorem retestDone_inv (pass : Bool) (s : State) : (retestDone pass s).inv = s.inv := by
  unfold retestDone; split
  · rfl
  · simp -implicitDefEqProofs

/-! #### Sys2Proof/Machine/LifeOps.lean -/

@[simp] theorem lifeCommit_inv (s : State) : (lifeCommit s).inv = s.inv := by
  simp [lifeCommit]
@[simp] theorem commitNow_inv (path : Path) (s : State) : (commitNow path s).inv = s.inv := by
  simp [commitNow]
@[simp] theorem lifeSnapshot_inv (s : State) : (lifeSnapshot s).inv = s.inv := by
  simp -implicitDefEqProofs [lifeSnapshot]
@[simp] theorem lifeSample_inv (hot : Int) (mv : Nat) (s : State) : (lifeSample hot mv s).inv = s.inv := by
  simp -implicitDefEqProofs [lifeSample]
@[simp] theorem marginScan_inv (margins : List Nat) (s : State) : (marginScan margins s).inv = s.inv := by
  unfold marginScan; dsimp only; split
  · rfl
  · rw [State.setLife_inv]
    refine State.foldl_inv _ _ (fun s n => ?_) s
    split <;> simp

/-! #### Sys2Proof/Machine/MonitorOps.lean -/

@[simp] theorem pmuFreeze_inv (path : Path) (v : Word) (s : State) : (pmuFreeze path v s).inv = s.inv := by
  simp [pmuFreeze]
@[simp] theorem histClear_inv (path : Path) (u : Nat) (s : State) : (histClear path u s).inv = s.inv := by
  simp [histClear]
@[simp] theorem histDepthSample_inv (u : Nat) (s : State) : (histDepthSample u s).inv = s.inv := by
  unfold histDepthSample; (repeat' split) <;> simp
@[simp] theorem State.monWrite_inv (s : State) (host : Bool) (f addr : Nat) (bs : List Byte) :
    (s.monWrite host f addr bs).inv = s.inv := by
  simp [State.monWrite]
@[simp] theorem dumpLatch_inv (s : State) : (dumpLatch s).inv = s.inv := by
  simp [dumpLatch]
@[simp] theorem dumpWrite_inv (s : State) : (dumpWrite s).inv = s.inv := by
  unfold dumpWrite; split <;> simp
@[simp] theorem State.dumpCtrl_inv (s : State) (v : Word) : (s.dumpCtrl v).inv = s.inv := by
  simp -implicitDefEqProofs [State.dumpCtrl]
@[simp] theorem sampleMark_inv (g : Nat) (s : State) : (sampleMark g s).inv = s.inv := by
  simp [sampleMark]
@[simp] theorem State.sampleWrite_inv (s : State) (bs : List Byte) : (s.sampleWrite bs).inv = s.inv := by
  simp [State.sampleWrite]
@[simp] theorem State.sampleDrain_inv (s : State) (c : Nat) : (s.sampleDrain c).inv = s.inv := by
  unfold State.sampleDrain; dsimp only; simp -implicitDefEqProofs [State.foldl_inv]
@[simp] theorem State.sampleQueue_inv (s : State) (c : Nat) (bs : List Byte) : (s.sampleQueue c bs).inv = s.inv := by
  simp [State.sampleQueue]
@[simp] theorem sampleRecord_inv (g lat flags ecause : Nat) (s : State) :
    (sampleRecord g lat flags ecause s).inv = s.inv := by
  unfold sampleRecord; split <;> simp
@[simp] theorem State.sampCtrl_inv (s : State) (v : Word) : (s.sampCtrl v).inv = s.inv := by
  simp -implicitDefEqProofs [State.sampCtrl]

/-! #### Sys2Proof/Machine/Supply.lean -/

@[simp] theorem State.slew_ft (s : State) (h : Int) : (s.slew h).inv.ft = s.inv.ft := by
  simp [State.slew]
@[simp] theorem State.countThrottle_ft (s : State) : s.countThrottle.inv.ft = s.inv.ft := by
  simp [State.countThrottle]
@[simp] theorem thermSample_ft (temps : List Int) (s : State) : (thermSample temps s).inv.ft = s.inv.ft := by
  simp -implicitDefEqProofs [thermSample, State.foldl_inv]
@[simp] theorem thermalTrip_inv (n : Nat) (s : State) : (thermalTrip n s).inv = s.inv := by
  simp [thermalTrip]
@[simp] theorem avsSet_inv (mv : Nat) (s : State) : (avsSet mv s).inv = s.inv := by
  simp [avsSet]
@[simp] theorem avsbusAck_inv (s : State) : (avsbusAck s).inv = s.inv := by
  simp [avsbusAck]
@[simp] theorem avsTimeout_inv (s : State) : (avsTimeout s).inv = s.inv := by
  unfold avsTimeout; split <;> simp
@[simp] theorem State.sourceReport_inv (s : State) (src code : Nat) : (s.sourceReport src code).inv = s.inv := by
  simp [State.sourceReport]
@[simp] theorem supplyFault_inv (n : Nat) (s : State) : (supplyFault n s).inv = s.inv := by
  simp [supplyFault]
@[simp] theorem pllUnlock_inv (n : Nat) (s : State) : (pllUnlock n s).inv = s.inv := by
  simp [pllUnlock]

/-! #### Sys2Proof/Machine/ControlSpace.lean -/

@[simp] theorem State.readReg_inv (s : State) (p : Path) (x : RegAt) (wide : Bool) :
    (s.readReg p x wide).2.inv = s.inv := by
  simp [State.readReg]
@[simp] theorem State.readRecord_inv (s : State) (p : Path) (x : RegAt) (wide : Bool) :
    (s.readRecord p x wide).2.inv = s.inv := by
  simp [State.readRecord]
@[simp] theorem State.readAtReg_inv (s : State) (p : Path) (a : Nat) (wide : Bool) :
    (s.readAtReg p a wide).2.inv = s.inv := by
  unfold State.readAtReg; split <;> simp
@[simp] theorem State.ctrlRead_inv (s : State) (p : Path) (a : Nat) (wide : Bool) :
    (s.ctrlRead p a wide).2.inv = s.inv := by
  simp [State.ctrlRead]
theorem devCtrl_ftHeld (p : Path) (v : Word) (s : State) : s.inv.FtHeld (devCtrl p v s).inv := by
  unfold devCtrl; dsimp only; (repeat' split)
  · exact .refl _
  · simpa using resetN_ftHeld (.reg p v) (svnCommit p v (s.fw F.DEV_CTRL_KEY [] (bitsW v 31 16)))
  · simpa using warm_ftHeld p v (svnCommit p v (s.fw F.DEV_CTRL_KEY [] (bitsW v 31 16)))
@[simp] theorem invCtrl_ft (v : Word) (s : State) : (invCtrl v s).inv.ft = s.inv.ft := by
  simp [invCtrl]
@[simp] theorem tgfCtrl_inv (v : Word) (s : State) : (tgfCtrl v s).inv = s.inv := by
  simp -implicitDefEqProofs [tgfCtrl]
@[simp] theorem routeTable_inv (r : RegDesc) (ix : List Nat) (v : Word) (s : State) :
    (routeTable r ix v s).inv = s.inv := by
  simp [routeTable]
@[simp] theorem sldCfgWrite_inv (r : RegDesc) (v : Word) (s : State) : (sldCfgWrite r v s).inv = s.inv := by
  simp -implicitDefEqProofs [sldCfgWrite]
@[simp] theorem ubufWrite_inv (r : RegDesc) (ix : List Nat) (v : Word) (s : State) :
    (ubufWrite r ix v s).inv = s.inv := by
  simp [ubufWrite]
@[simp] theorem routeSelfWrite_inv (r : RegDesc) (v : Word) (s : State) : (routeSelfWrite r v s).inv = s.inv := by
  simp [routeSelfWrite]
@[simp] theorem htStageWrite_inv (r : RegDesc) (ix : List Nat) (v : Word) (s : State) :
    (htStageWrite r ix v s).inv = s.inv := by
  simp [htStageWrite]
@[simp] theorem gatePendWrite_inv (r : RegDesc) (ix : List Nat) (v : Word) (s : State) :
    (gatePendWrite r ix v s).inv = s.inv := by
  simp [gatePendWrite]
@[simp] theorem gateListWrite_inv (ix : List Nat) (v : Word) (s : State) : (gateListWrite ix v s).inv = s.inv := by
  simp -implicitDefEqProofs [gateListWrite]
@[simp] theorem histSelWrite_inv (u : Nat) (v : Word) (s : State) : (histSelWrite u v s).inv = s.inv := by
  simp -implicitDefEqProofs [histSelWrite]
@[simp] theorem histFiltWrite_inv (u : Nat) (v : Word) (s : State) : (histFiltWrite u v s).inv = s.inv := by
  simp -implicitDefEqProofs [histFiltWrite]
@[simp] theorem frozenBy_inv (f : Fld) (r : RegDesc) (v : Word) (s : State) : (frozenBy f r v s).inv = s.inv := by
  simp [frozenBy]
@[simp] theorem laneCtrl_ft (p : Path) (ix : List Nat) (v : Word) (s : State) : (laneCtrl p ix v s).inv.ft = s.inv.ft := by
  simp [laneCtrl]
/-- DEV_CTRL alone can reset the time unit; no other register that software writes steps FT. -/
theorem writeHooks_ft : ∀ e ∈ writeHooks, (e.1 = R.DEV_CTRL.base ∧ ∀ p ix v (s : State), s.inv.FtHeld (e.2 p ix v s).inv) ∨
    ∀ p ix v (s : State), (e.2 p ix v s).inv.ft = s.inv.ft := by
  simp only [writeHooks, List.forall_mem_append, List.forall_mem_cons, List.map_cons, List.map_nil]
  simp [devCtrl_ftHeld]
theorem State.writeReg_ft (s : State) (p : Path) (x : RegAt) (v : Word) (h : x.reg.base ≠ R.DEV_CTRL.base) :
    (s.writeReg p x v).inv.ft = s.inv.ft := by
  unfold State.writeReg; dsimp only; split
  · next e he =>
    have hb : e.1 = x.reg.base := by simpa using List.find?_some he
    exact ((writeHooks_ft e (List.mem_of_find?_eq_some he)).resolve_left fun hd => h (hb ▸ hd.1)) _ _ _ _
  · simp
theorem State.writeReg_ftHeld (s : State) (p : Path) (x : RegAt) (v : Word) : s.inv.FtHeld (s.writeReg p x v).inv := by
  unfold State.writeReg; dsimp only; split
  · next e he =>
    rcases writeHooks_ft e (List.mem_of_find?_eq_some he) with ⟨-, hd⟩ | hf
    · exact hd _ _ _ _
    · exact .inl (hf _ _ _ _)
  · exact .inl (by simp)
theorem State.writeHalf_ftHeld (s : State) (p : Path) (a : Nat) (v : Word) : s.inv.FtHeld (s.writeHalf p a v).inv := by
  unfold State.writeHalf; dsimp only; (repeat' split)
  · exact .refl _
  · exact s.writeReg_ftHeld _ _ _
  · exact s.writeReg_ftHeld _ _ _
/-- DEV_CTRL stands in the upper half of its 64 bits. -/
theorem State.regAt_ne_devCtrl {s : State} {a : Nat} {x : RegAt} (h : s.regAt a = some x) (ha : a % 8 = 0) :
    x.reg.base ≠ R.DEV_CTRL.base := by
  obtain ⟨r, hr, hx⟩ := List.exists_of_findSome?_eq_some h
  unfold RegDesc.at_ at hx
  (repeat' split at hx) <;> cases hx
  next hlt ix off hs hoff =>
    intro hb
    have hdev : ∀ r ∈ allRegs, r.base = R.DEV_CTRL.base → r.dims = [] ∧ r.width = 32 := by decide +kernel
    obtain ⟨hdims, hwidth⟩ := hdev r hr hb
    simp only [hdims, splitIx, Option.some.injEq, Prod.mk.injEq] at hs
    simp only [hwidth, Bool.or_eq_true, decide_eq_true_eq, not_or] at hoff
    have : r.base = 12 := hb
    omega
/-- A write of 64 bits reaches DEV_CTRL last, so that nothing follows the reset it may bring. -/
theorem State.ctrlWrite_ftHeld (s : State) (p : Path) (a : Nat) (wide : Bool) (v : Word) :
    s.inv.FtHeld (s.ctrlWrite p a wide v).inv := by
  cases wide with
  | false =>
    simp only [State.ctrlWrite, Bool.false_eq_true, if_false, Bool.not_false, if_true]
    split
    · exact .refl _
    · exact s.writeHalf_ftHeld _ _ _
  | true =>
    simp only [State.ctrlWrite, if_true, Bool.not_true, Bool.false_eq_true, if_false]
    (repeat' split)
    · exact .refl _
    · exact s.writeReg_ftHeld _ _ _
    all_goals try exact s.writeHalf_ftHeld _ _ _
    all_goals
      have hft := s.writeReg_ft p _ (loWord v) (State.regAt_ne_devCtrl ‹_› (by simp_all))
    · next x _ _ _ =>
      simpa only [Invar.FtHeld, hft] using (s.writeReg p x (loWord v)).writeHalf_ftHeld p (a + 4) (hiWord v)
    · exact .inl hft
@[simp] theorem cringCfg_inv (pf : Nat) (v : Word) (s : State) : (cringCfg pf v s).inv = s.inv := by
  simp -implicitDefEqProofs [cringCfg]
@[simp] theorem ccqCfg_inv (pf : Nat) (v : Word) (s : State) : (ccqCfg pf v s).inv = s.inv := by
  simp -implicitDefEqProofs [ccqCfg]
@[simp] theorem cringBase_inv (en : Fld) (r : RegDesc) (pf off : Nat) (v : Word) (s : State) :
    (cringBase en r pf off v s).inv = s.inv := by
  simp -implicitDefEqProofs [cringBase]
@[simp] theorem State.barHalf_inv (s : State) (f off : Nat) (v : Word) : (s.barHalf f off v).inv = s.inv := by
  unfold State.barHalf; (repeat' split) <;> simp
@[simp] theorem State.barWrite_inv (s : State) (f off : Nat) (wide : Bool) (v : Word) :
    (s.barWrite f off wide v).inv = s.inv := by
  simp [State.barWrite]
@[simp] theorem busRead_ft (p : Path) (a : Nat) (wide : Bool) (s : State) : (busRead p a wide s).inv.ft = s.inv.ft := by
  unfold busRead; split <;> simp
theorem busWrite_ftHeld (p : Path) (a : Nat) (wide : Bool) (v : Word) (s : State) : s.inv.FtHeld (busWrite p a wide v s).inv := by
  unfold busWrite; split
  · exact .inl (by simp)
  · exact s.ctrlWrite_ftHeld _ _ _ _
@[simp] theorem wfCfg_inv (p : Path) (c f : Nat) (v : Word) (s : State) : (wfCfg p c f v s).inv = s.inv := by
  simp [wfCfg]
@[simp] theorem State.sbNext_inv (s : State) : s.sbNext.inv = s.inv := by
  simp [State.sbNext]
@[simp] theorem sbSetAddr_inv (a : Nat) (pec : Bool) (s : State) : (sbSetAddr a pec s).inv = s.inv := by
  simp [sbSetAddr]
@[simp] theorem sbRead_inv (s : State) : (sbRead s).inv = s.inv := by
  simp -implicitDefEqProofs [sbRead]
theorem sbWrite_ftHeld (v : Word32) (pec : Bool) (s : State) : s.inv.FtHeld (sbWrite v pec s).inv := by
  unfold sbWrite; split
  · exact .refl _
  · simpa using s.ctrlWrite_ftHeld _ _ _ _
@[simp] theorem sbReadAddr_inv (s : State) : (sbReadAddr s).inv = s.inv := by
  simp [sbReadAddr]

/-! #### Sys2Proof/Machine/EngineMem.lean -/

@[simp] theorem State.farPlace_inv (s : State) (t va : Nat) (u : Use) (again : Bool) :
    (s.farPlace t va u again).2.inv = s.inv := by
  unfold State.farPlace; dsimp only; (repeat' split) <;> simp
/-- What an access does to the time unit is what is done at its place. -/
theorem State.access_inv_of {P : Invar → Prop} (s : State) (t : Nat) (a : Word) (n : Nat) (u : Use) (srcs : List Nat) (again : Bool)
    (k : EngPlace → State → State) (hs : P s.inv) (h : ∀ x w, w.inv = s.inv → P (k x w).inv) :
    P (s.access t a n u srcs again k).inv := by
  unfold State.access; dsimp only; (repeat' split) <;> simp [hs, h]
@[simp] theorem State.access_inv (s : State) (t : Nat) (a : Word) (n : Nat) (u : Use) (srcs : List Nat) (again : Bool)
    (k : EngPlace → State → State) (h : ∀ x s, (k x s).inv = s.inv) : (s.access t a n u srcs again k).inv = s.inv :=
  State.access_inv_of (P := (· = s.inv)) s t a n u srcs again k rfl fun x w hw => (h x w).trans hw
@[simp] theorem State.nearRead_inv (s : State) (t key n code : Nat) (eval : Word) (k : Nat → State → State) (h : ∀ v s,
    (k v s).inv = s.inv) : (s.nearRead t key n code eval k).inv = s.inv := by
  unfold State.nearRead; (repeat' split) <;> simp [h]
@[simp] theorem State.farLoad_inv (s : State) (t ask p : Nat) (hbm : Bool) (n : Nat) (signed : Bool) (rd : Nat) (a : Word) :
    (s.farLoad t ask p hbm n signed rd a).inv = s.inv := by
  unfold State.farLoad; dsimp only; (repeat' split) <;> simp
@[simp] theorem load_inv (t op rd rs1 imm : Nat) (s : State) : (load t op rd rs1 imm s).inv = s.inv := by
  unfold load
  refine State.issue_inv _ _ _ _ _ _ _ _ fun s => State.access_inv _ _ _ _ _ _ _ _ fun p s => ?_
  dsimp only; split <;> simp
/-- A store reaches the registers of control space, and so DEV_CTRL. -/
theorem store_ftHeld (t op rd rs1 imm : Nat) (s : State) : s.inv.FtHeld (store t op rd rs1 imm s).inv := by
  unfold store
  refine State.issue_inv_of s _ _ _ _ _ _ _ (.refl _) fun u hu => ?_
  refine State.access_inv_of (P := s.inv.FtHeld) u _ _ _ _ _ _ _ (by rw [hu]; exact .refl _) fun x w hw => ?_
  rw [hu] at hw
  dsimp only; split
  case h_3 =>
    rw [← hw, ← State.nextPc_inv w t 4]
    exact State.ctrlWrite_ftHeld _ _ _ _ _
  all_goals exact .inl (by simp [hw])
@[simp] theorem atomic_inv (t rd rs1 rs2 fn : Nat) (s : State) : (atomic t rd rs1 rs2 fn s).inv = s.inv := by
  unfold atomic
  refine State.issue_inv _ _ _ _ _ _ _ _ fun s => State.access_inv _ _ _ _ _ _ _ _ fun p s => ?_
  dsimp only; (repeat' split) <;> simp

/-! #### Sys2Proof/Machine/Window.lean -/

@[simp] theorem State.runGoesOn_inv (s : State) (e : OutEntry) : (s.runGoesOn e).inv = s.inv := by
  unfold State.runGoesOn; dsimp only; (repeat' split) <;> simp
@[simp] theorem State.startWaiting_inv (s : State) (r qn : Nat) (e : OutEntry) : (s.startWaiting r qn e).inv = s.inv := by
  unfold State.startWaiting; dsimp only; (repeat' split) <;> try simp
  exact State.getD_inv fun t ht => (State.launch_inv ht).trans (by simp)
@[simp] theorem State.startPending_inv (s : State) (r a : Nat) : (s.startPending r a).inv = s.inv := by
  induction a generalizing s with
  | zero => rfl
  | succ f ih => unfold State.startPending; dsimp only; (repeat' split) <;> simp [ih]
@[simp] theorem ack_inv (r : Nat) (s : State) : (ack r s).inv = s.inv := by
  unfold ack; dsimp only; split <;> simp

/-! #### The commands -/

/-- The states in which FT is not stepped: it is valid, and a root has been aligned (R29, R46, R49). -/
def Invar.Steady (i : Invar) : Prop :=
  i.state = .track ∨ i.state = .holdover ∨ i.state = .unsync ∨ (i.state = .root ∧ i.ppsAligned = true)

/-- FT is stepped by LISTEN_EXPIRY, FT_STEP and PPS_EDGE, none of which does so in a steady state; the reset of the device resets the
time unit, and every other command leaves FT. -/
theorem exec_ftHeld (c : Instr) (s : State) (h : s.inv.Steady) : ∃ t, exec c s = .next t ∧ s.inv.FtHeld t.inv := by
  have hlisten : s.inv.state ≠ .listen := by rintro hs; simp [Invar.Steady, hs] at h
  have hacquire : s.inv.state ≠ .acquire := by rintro hs; simp [Invar.Steady, hs] at h
  have haligned : s.inv.state = .root → s.inv.ppsAligned = true := by intro hs; simpa [Invar.Steady, hs] using h
  cases c
  case listenExpiry => exact ⟨_, rfl, .inl (State.live_ft _ _ (by rw [listenExpiry_of_not_listen s hlisten]))⟩
  case ftStep => exact ⟨_, rfl, .inl (State.live_ft _ _ (by rw [ftStep_of_not_acquire s hacquire]))⟩
  case ppsEdge x => exact ⟨_, rfl, .inl (State.live_ft _ _ (ppsEdge_ft x.f x.ten s haligned))⟩
  case powerOn => exact ⟨_, rfl, powerOn_ftHeld s⟩
  case powerDown => exact ⟨_, rfl, powerDown_ftHeld s⟩
  case resetN src => exact ⟨_, rfl, resetN_ftHeld src s⟩
  case warm path v => exact ⟨_, rfl, warm_ftHeld path v s⟩
  case warmRestart pf idx =>
    exact ⟨_, rfl, State.ctrl_inv_of s pf idx _ _ (.refl _) fun b n u hu => hu ▸ warmRestartBody_ftHeld pf b n u⟩
  case fabricJoin pf idx =>
    exact ⟨_, rfl, .inl (State.ctrl_inv_of (P := fun i => i.ft = s.inv.ft) s pf idx _ _ rfl fun b n u hu => by simp [hu])⟩
  case registerWrite p a wide v => exact ⟨_, rfl, busWrite_ftHeld p a wide v s⟩
  case write v pec => exact ⟨_, rfl, sbWrite_ftHeld v pec s⟩
  case store t op rd rs1 imm => exact ⟨_, rfl, store_ftHeld t op rd rs1 imm s⟩
  all_goals exact ⟨_, rfl, .inl (by simp)⟩

/-- Settles O6: FT is held by every command in a steady state. -/
theorem fabricTimeNeverSteps : Obligations.FabricTimeNeverSteps := by
  unfold Obligations.FabricTimeNeverSteps
  intro c s t ht hs
  obtain ⟨u, hu, hheld⟩ := exec_ftHeld c s hs
  rw [ht] at hu
  cases hu
  exact hheld

/-! ## Steps of the block (R27, R30) -/

/-- Settles O1: the two branches of `step`, and the tick of an idle step. -/
theorem stepRunsFront : Obligations.StepRunsFront := by
  unfold Obligations.StepRunsFront
  constructor
  · intro c rest s h
    simp only [step, h]
  · intro s h
    refine ⟨tick s, by simp only [step, h], ?_⟩
    unfold tick
    split <;> rfl

/-! ## INV_CTRL (R46, R48, R55, R57, R58) -/

/-- What holds of the default and of every value that a map is changed to holds of every value of the changed map. -/
theorem SMap.get_mapVals_of {α : Type} [DecidableEq α] {P : α → Prop} {d : α} {f : Nat → α → α} (hd : P d)
    (hf : ∀ k v, P (f k v)) (m : SMap α) (k : Nat) : P (SMap.get d (SMap.mapVals d f m) k) := by
  induction m with
  | nil => exact hd
  | cons e m ih =>
    obtain ⟨k', v'⟩ := e
    simp only [SMap.mapVals]
    split
    · exact ih
    · simp only [SMap.get]
      split
      · exact hf _ _
      · exact ih

/-- A one-bit field that was written reads as written. -/
theorem State.fb_fset (s : State) (f : Fld) (ix : List Nat) (b : Bool) (h : f.hi = f.lo) (h1 : f.hi < f.reg.width)
    (h2 : f.reg.width ≤ 64) : (s.fset f ix b).fb f ix = b := by
  have hb : b2n b % 2 ^ (f.hi + 1 - f.lo) = b2n b := by
    rw [h, Nat.add_sub_cancel_left]
    cases b <;> rfl
  rw [State.fb, State.fset, State.fd_fw _ _ _ _ h.ge h1 h2, hb]
  cases b <;> rfl

theorem State.ftValid_of_disabled {s : State} (h : s.inv.state = .disabled) : s.ftValid = false := by
  simp [State.ftValid, h]
theorem State.ftValid_of_listen {s : State} (h : s.inv.state = .listen) : s.ftValid = false := by
  simp [State.ftValid, h]

@[simp] theorem State.cancelTriggers_route (s : State) : s.cancelTriggers.route = s.route := by
  simp [State.cancelTriggers, State.foldl_route]
theorem State.cancelTriggers_trigs (s : State) (c : Nat) : (s.cancelTriggers.cluster c).trigs = [] :=
  SMap.get_mapVals_of (P := fun x : Cluster => x.trigs = []) rfl (fun _ _ => rfl) _ c

@[simp] theorem State.updSpec_route (s : State) : s.updSpec.route = s.route := by
  simp [State.updSpec, State.invEvent, apply_ite State.route]
@[simp] theorem State.updSpec_clusters (s : State) : s.updSpec.clusters = s.clusters := by
  simp [State.updSpec, State.invEvent, apply_ite State.clusters]
@[simp] theorem State.updSpec_cluster (s : State) (c : Nat) : s.updSpec.cluster c = s.cluster c := by
  simp [State.cluster]

theorem invEnable_enable (s : State) : (invEnable s).fb F.INV_CTRL_ENABLE = true := by
  have h := s.fb_fset F.INV_CTRL_ENABLE [] true rfl (by decide) (by decide)
  unfold invEnable
  split <;> exact h
theorem invEnable_of_disabled (s : State) (h : s.inv.state = .disabled) : (invEnable s).inv =
    { s.inv with root := none, staleAt := none, await := none, standby := none, parent := none
                 state := .listen, enteredAt := s.loc } := by
  simp [invEnable, h, State.loc]
theorem invEnable_of_enabled (s : State) (h : s.inv.state ≠ .disabled) : (invEnable s).inv = s.inv := by
  simp [invEnable, h]

theorem invDisable_state (s : State) : (invDisable s).inv.state = .disabled := by
  unfold invDisable; dsimp only; split
  · next h => simpa using h
  · simp
/-- What a disable does to a device whose Invar runs: exchanges and triggers are dropped, and an armed bank becomes FREE. -/
theorem invDisable_drops (s : State) (h : s.inv.state ≠ .disabled) :
    (∀ p, ((invDisable s).ptime p).outstanding = []) ∧ (∀ c, ((invDisable s).cluster c).trigs = []) ∧
    (invDisable s).route.bank0 = (if s.route.bank0 = 1 then 0 else s.route.bank0) ∧
    (invDisable s).route.bank1 = (if s.route.bank1 = 1 then 0 else s.route.bank1) := by
  have hne : (s.inv.state == .disabled) = false := by simpa using h
  unfold invDisable; dsimp only
  rw [if_neg (by simp [hne])]
  refine ⟨fun p => ?_, fun c => ?_, ?_, ?_⟩
  · simp only [State.ptime, State.updSpec_inv, State.routeDisarm_inv, State.cancelTriggers_inv, State.enterTime_inv, State.setInv_inv]
    exact SMap.get_mapVals_of (P := fun x : PortTime => x.outstanding = []) rfl (fun _ _ => rfl) _ p
  · rw [State.updSpec_cluster]
    exact State.cancelTriggers_trigs _ c
  · simp [State.routeDisarm, State.enterTime]
  · simp [State.routeDisarm, State.enterTime]

theorem reacquire_of_not_unsync (s : State) (h : s.inv.state ≠ .unsync) : reacquire s = s := by
  simp [reacquire, h]
theorem reacquire_of_unsync (s : State) (h : s.inv.state = .unsync) :
    (reacquire s).inv.state = .listen ∧ (reacquire s).inv.parent = none ∧ (∀ c, ((reacquire s).cluster c).trigs = []) ∧
    (reacquire s).route = s.route := by
  unfold reacquire
  rw [if_pos (by simp [h])]
  refine ⟨by simp, by simp, fun c => ?_, by simp [State.enterTime]⟩
  rw [State.updSpec_cluster]
  exact State.cancelTriggers_trigs _ c

/-- Settles O11: each command acts when the path may write INV_CTRL, by the rules of the three operations. -/
theorem timeControl : Obligations.TimeControl := by
  unfold Obligations.TimeControl
  refine ⟨fun s path hw => ⟨?_, ?_, ?_⟩, fun s path hw => ?_⟩
  · refine ⟨_, congrArg Host.Outcome.next (if_pos hw), invEnable_enable s, invEnable_ft s, fun h => ?_, invEnable_of_enabled s⟩
    simp [invEnable_of_disabled s h]
  · exact ⟨_, congrArg Host.Outcome.next (if_pos hw), invDisable_state s, invDisable_ft s,
      State.ftValid_of_disabled (invDisable_state s), invDisable_drops s⟩
  · refine ⟨_, congrArg Host.Outcome.next (if_pos hw), reacquire_of_not_unsync s, fun h => ?_⟩
    obtain ⟨hstate, hparent, htrigs, hroute⟩ := reacquire_of_unsync s h
    exact ⟨hstate, hparent, reacquire_ft s, State.ftValid_of_listen hstate, htrigs, hroute⟩
  · have hdenied : ¬ s.mayWrite path R.INV_CTRL.base = true := by simp [hw]
    exact ⟨congrArg Host.Outcome.next (if_neg hdenied), congrArg Host.Outcome.next (if_neg hdenied),
      congrArg Host.Outcome.next (if_neg hdenied)⟩

/-! ## The states of time, and its references (R29, R38, R44 to R46, R49 to R51) -/

theorem State.live_of_not_safe {s : State} (h : s.inSafe = false) (f : State → State) : s.live f = f s := by
  simp [State.live, h]

@[simp] theorem State.ptime_setPtime (s : State) (p : Nat) (x : PortTime) : (s.setPtime p x).ptime p = x := by
  simp [State.ptime]
@[simp] theorem State.ptime_setPtime_ne (s : State) (p q : Nat) (x : PortTime) (h : q ≠ p) :
    (s.setPtime p x).ptime q = s.ptime q := by
  simp [State.ptime, h]

/-! ### Signed registers -/

theorem ofSigned_lt (n : Nat) (i : Int) : ofSigned n i < 2 ^ n := by
  have h := Int.emod_lt_of_pos i (show (0 : Int) < (2 ^ n : Nat) by exact_mod_cast Nat.two_pow_pos n)
  unfold ofSigned
  omega

/-- A register of 32 bits holds the 32 bits of a signed number as they are. -/
theorem State.rd_wr_signed (s : State) (r : RegDesc) (ix : List Nat) (v : Int) (h : r.width = 32) :
    (s.wr r ix (w64 (ofSigned 32 v))).rd r ix = w64 (ofSigned 32 v) := by
  have hlt := ofSigned_lt 32 v
  rw [State.rd_wr, h, w64_toNat_lt (by omega), Nat.mod_eq_of_lt hlt]

theorem State.rd_wrSigned (s : State) (r : RegDesc) (ix : List Nat) (v : Int) (h : r.width = 32) (h1 : -2 ^ 31 ≤ v)
    (h2 : v < 2 ^ 31) : (s.wrSigned r ix v).rd r ix = w64 (ofSigned 32 v) := by
  rw [State.wrSigned, if_pos (by rw [Bool.and_eq_true, decide_eq_true_eq, decide_eq_true_eq]; exact ⟨h1, h2⟩)]
  exact s.rd_wr_signed r ix v h

theorem State.rd_wrSigned_ne (s : State) (r r' : RegDesc) (ix ix' : List Nat) (v : Int) (h : r'.addr ix' ≠ r.addr ix) :
    (s.wrSigned r ix v).rd r' ix' = s.rd r' ix' := by
  unfold State.wrSigned
  split
  · exact State.rd_wr_ne _ _ _ _ _ _ h
  · exact State.rd_wr_ne _ _ _ _ _ _ h

/-! ### ACQUIRE, TRACK and HOLDOVER -/

/-- What FT_STEP leaves of the time unit; the rate that it measures is a free value. -/
theorem ftStep_inv (s : State) (hs : s.inv.state = .acquire) (h1 : s.inv.stepped = false) (h2 : 16 ≤ s.inv.acqCount) :
    (ftStep s).inv = { s.inv with
      ports := match s.inv.parent with
        | some p => s.inv.ports.set PortTime.init p { s.ptime p with seen := 0, sum := 0 }
        | none => s.inv.ports
      stepped := true, goodRun := 0, integ := 0
      ft := w64 (ofSigned 64 ((s.inv.ft.toNat : Int) - s.inv.offset / 16)) } := by
  unfold ftStep
  rw [if_pos (by simp [hs, h1, h2])]
  cases hp : s.inv.parent <;> simp [hp, State.ptime]

theorem acquireComplete_inv (s : State) (p : Nat) (hp : s.inv.parent = some p) (hs : s.inv.state = .acquire)
    (h1 : s.inv.stepped = true) (h2 : 64 ≤ (s.ptime p).seen) (h3 : 16 ≤ s.inv.goodRun) :
    (acquireComplete s).inv.state = .track := by
  simp [acquireComplete, hp, hs, h1, h2, h3]

@[simp] theorem State.chooseParent_state (s : State) : s.chooseParent.inv.state = s.inv.state := by
  unfold State.chooseParent; (repeat' split) <;> try rfl
  all_goals rw [State.setParent_inv]; split <;> rfl

theorem parentLost_acquire (s : State) (p : Nat) (hp : s.inv.parent = some p) (hg : s.parentGone p = true)
    (hs : s.inv.state = .acquire) : (parentLost s).inv.state = .listen := by
  simp [parentLost, hp, hg, hs]
theorem parentLost_track (s : State) (p : Nat) (hp : s.inv.parent = some p) (hg : s.parentGone p = true)
    (hs : s.inv.state = .track) : (parentLost s).inv.state = .holdover := by
  simp [parentLost, hp, hg, hs, State.enterHoldover]
theorem parentLost_holdover (s : State) (p : Nat) (hp : s.inv.parent = some p) (hg : s.parentGone p = true)
    (hs : s.inv.state = .holdover) : (parentLost s).inv.state = .holdover := by
  simp [parentLost, hp, hg, hs]

/-! ### TIME_PPS_IN, TIME_10M_IN and TIME_PPS_OUT -/

/-- What an edge of TIME_PPS_IN leaves at a root with PPS_EN set, before FT is stepped or steered (R49). -/
def State.ppsSeen (s : State) (e : Int) (ten : Bool) : State :=
  ((s.setInv fun i => { i with ppsLast := some i.loc, ref10mLost := i.ref10mLost && !ten }).wrSigned R.INV_PPS_SKEW [] e).setInv
    fun i =>
      let n := if decide (e.natAbs * 15625 ≤ 200000) then i.ppsGood + 1 else 0
      { i with ppsGood := n, extLock := i.extLock || decide (4 ≤ n) }

/-- The pin error of an edge with the fraction f (R49). -/
def State.ppsErr (s : State) (f : Nat) : Int := ppsError (16 * s.ft.toNat + f % 16) (s.rd R.INV_PPS_OFFSET).toNat

/-- The one step of FT at a root, to the edge of TIME_PPS_IN (R49). -/
def State.align (s : State) (e : Int) : State :=
  s.setInv fun i => { i with ppsAligned := true, ft := w64 (ofSigned 64 ((i.ft.toNat : Int) - e / 16)) }

/-- A root's rate of steering toward the edge, within the slew limit (R49). -/
def State.steer (s : State) (e : Int) : State :=
  let lim := s.slewLimit.toNat
  let (r, s1) := s.freeBelow (lim - 1)
  let r := min (r + 1) lim
  s1.wr R.INV_FREQ_ADJ [] (w64 (ofSigned 32 (if 0 < e then (r : Int) else -(r : Int))))

theorem ppsEdge_root (f : Nat) (ten : Bool) (s : State) (hs : s.inv.state = .root) (hen : s.fb F.INV_CTRL_PPS_EN = true) :
    ppsEdge f ten s =
      if !s.inv.ppsAligned then (s.ppsSeen (s.ppsErr f) ten).align (s.ppsErr f)
      else if s.ppsErr f == 0 then s.ppsSeen (s.ppsErr f) ten
      else (s.ppsSeen (s.ppsErr f) ten).steer (s.ppsErr f) := by
  unfold ppsEdge
  rw [if_pos (by simp [hs, hen])]
  rfl

@[simp] theorem State.ppsSeen_ft (s : State) (e : Int) (ten : Bool) : (s.ppsSeen e ten).inv.ft = s.inv.ft := by
  simp [State.ppsSeen]
@[simp] theorem State.ppsSeen_ppsLast (s : State) (e : Int) (ten : Bool) : (s.ppsSeen e ten).inv.ppsLast = some s.loc := by
  simp [State.ppsSeen, State.loc]
theorem State.ppsSeen_rd_ne (s : State) (e : Int) (ten : Bool) (r : RegDesc) (h : r.addr [] ≠ R.INV_PPS_SKEW.addr []) :
    (s.ppsSeen e ten).rd r = s.rd r := State.rd_wrSigned_ne _ R.INV_PPS_SKEW r [] [] e h
theorem State.ppsSeen_skew (s : State) (e : Int) (ten : Bool) (h1 : -2 ^ 31 ≤ e) (h2 : e < 2 ^ 31) :
    (s.ppsSeen e ten).rd R.INV_PPS_SKEW = w64 (ofSigned 32 e) := State.rd_wrSigned _ R.INV_PPS_SKEW [] e rfl h1 h2

@[simp] theorem State.align_ppsLast (s : State) (e : Int) : (s.align e).inv.ppsLast = s.inv.ppsLast := rfl
@[simp] theorem State.rd_align (s : State) (e : Int) (r : RegDesc) : (s.align e).rd r = s.rd r := rfl
theorem State.align_ft (s : State) (e : Int) : (s.align e).ft = w64 (ofSigned 64 ((s.ft.toNat : Int) - e / 16)) := rfl

@[simp] theorem State.steer_inv (s : State) (e : Int) : (s.steer e).inv = s.inv := by
  simp [State.steer]
theorem State.steer_rd_ne (s : State) (e : Int) (r : RegDesc) (h : r.addr [] ≠ R.INV_FREQ_ADJ.addr []) :
    (s.steer e).rd r = s.rd r := State.rd_wr_ne _ R.INV_FREQ_ADJ r [] [] _ h
/-- A root is steered by a rate within the limit and of the sign of the error. -/
theorem State.steer_freq (s : State) (e : Int) : ∃ r : Int, (s.steer e).rd R.INV_FREQ_ADJ = w64 (ofSigned 32 r) ∧
    -s.slewLimit ≤ r ∧ r ≤ s.slewLimit ∧ (0 < e → 0 ≤ r) ∧ (e < 0 → r ≤ 0) := by
  refine ⟨_, State.rd_wr_signed _ R.INV_FREQ_ADJ [] _ rfl, ?_⟩
  have hlim : 0 ≤ s.slewLimit := Int.natCast_nonneg _
  split <;> omega

theorem ppsEdge_elsewhere (f : Nat) (ten : Bool) (s : State) (h : s.inv.state ≠ .root ∨ s.fb F.INV_CTRL_PPS_EN = false) :
    ppsEdge f ten s = { s with inv := { s.inv with ppsLast := some s.loc, ref10mLost := s.inv.ref10mLost && !ten } } := by
  unfold ppsEdge
  rw [if_neg (by simpa using fun hs => h.resolve_left fun hn => hn hs)]
  rfl

theorem ppsLoss_root (s : State) (l : Word) (hl : s.inv.ppsLast = some l) (hs : s.inv.state = .root)
    (ht : 1100000 * ticksPerUs ≤ s.locSince l) :
    (ppsLoss s).inv = { s.inv with extLock := false, ppsGood := 0, ppsLast := none } := by
  simp [ppsLoss, hl, hs, ht]

theorem ref10mLoss_inv (s : State) : (ref10mLoss s).inv = { s.inv with ref10mLost := true } := by
  unfold ref10mLoss; split
  · next h => rw [← h]
  · simp

theorem ppsOutPulse_of_due (s : State) (h : s.ppsOutOn = true)
    (hd : (s.ft.toNat + 4000000000 - (s.rd R.INV_PPSOUT_OFFSET).toNat % 4000000000) % 4000000000 = 0) :
    ppsOutPulse s = (s.setInv fun i => { i with
      ppsOutEnd := some (w64 (i.ft.toNat + (s.rd R.INV_PPSOUT_WIDTH).toNat)) }).emit (.pin "TIME_PPS_OUT" true) := by
  simp [ppsOutPulse, h, hd]
theorem ppsOutEnd_of_due (s : State) (v : Word) (hv : s.inv.ppsOutEnd = some v) (h : s.ftReached v = true ∨ s.ftValid = false) :
    ppsOutEnd s = (s.setInv fun i => { i with ppsOutEnd := none }).emit (.pin "TIME_PPS_OUT" false) := by
  have hd : (s.ftReached v || !s.ppsOutOn) = true := by rcases h with h | h <;> simp [h, State.ppsOutOn]
  simp [ppsOutEnd, hv, hd]

theorem ppsEdge_unaligned (s : State) (f : Nat) (ten : Bool) (hs : s.inv.state = .root) (hen : s.fb F.INV_CTRL_PPS_EN = true)
    (ha : s.inv.ppsAligned = false) : ppsEdge f ten s = (s.ppsSeen (s.ppsErr f) ten).align (s.ppsErr f) := by
  rw [ppsEdge_root f ten s hs hen, if_pos (by simp [ha])]
theorem ppsEdge_met (s : State) (f : Nat) (ten : Bool) (hs : s.inv.state = .root) (hen : s.fb F.INV_CTRL_PPS_EN = true)
    (ha : s.inv.ppsAligned = true) (he : s.ppsErr f = 0) : ppsEdge f ten s = s.ppsSeen (s.ppsErr f) ten := by
  rw [ppsEdge_root f ten s hs hen, if_neg (by simp [ha]), if_pos (beq_iff_eq.2 he)]
theorem ppsEdge_steered (s : State) (f : Nat) (ten : Bool) (hs : s.inv.state = .root) (hen : s.fb F.INV_CTRL_PPS_EN = true)
    (ha : s.inv.ppsAligned = true) (he : s.ppsErr f ≠ 0) : ppsEdge f ten s = (s.ppsSeen (s.ppsErr f) ten).steer (s.ppsErr f) := by
  rw [ppsEdge_root f ten s hs hen, if_neg (by simp [ha]), if_neg (mt beq_iff_eq.1 he)]

theorem ppsEdge_aligned_ft (s : State) (f : Nat) (ten : Bool) (hs : s.inv.state = .root)
    (hen : s.fb F.INV_CTRL_PPS_EN = true) (ha : s.inv.ppsAligned = true) : (ppsEdge f ten s).ft = s.ft := by
  by_cases he : s.ppsErr f = 0
  · rw [ppsEdge_met s f ten hs hen ha he, State.ft, State.ppsSeen_ft, State.ft]
  · rw [ppsEdge_steered s f ten hs hen ha he, State.ft, State.steer_inv, State.ppsSeen_ft, State.ft]

/-- Every edge at a root that steers to TIME_PPS_IN is noted, and gives its error (R49). -/
theorem ppsEdge_noted (s : State) (f : Nat) (ten : Bool) (hs : s.inv.state = .root) (hen : s.fb F.INV_CTRL_PPS_EN = true) :
    (ppsEdge f ten s).inv.ppsLast = some s.loc ∧
      (ppsEdge f ten s).rd R.INV_PPS_SKEW = (s.ppsSeen (s.ppsErr f) ten).rd R.INV_PPS_SKEW := by
  cases ha : s.inv.ppsAligned with
  | false =>
    rw [ppsEdge_unaligned s f ten hs hen ha, State.rd_align, State.align_ppsLast]
    exact ⟨s.ppsSeen_ppsLast _ ten, rfl⟩
  | true =>
    by_cases he : s.ppsErr f = 0
    · rw [ppsEdge_met s f ten hs hen ha he]
      exact ⟨s.ppsSeen_ppsLast _ ten, rfl⟩
    · rw [ppsEdge_steered s f ten hs hen ha he, State.steer_inv, State.steer_rd_ne _ _ R.INV_PPS_SKEW (by decide)]
      exact ⟨s.ppsSeen_ppsLast _ ten, rfl⟩

theorem ppsEdge_unaligned_ft (s : State) (f : Nat) (ten : Bool) (hs : s.inv.state = .root)
    (hen : s.fb F.INV_CTRL_PPS_EN = true) (ha : s.inv.ppsAligned = false) :
    (ppsEdge f ten s).ft = w64 (ofSigned 64 ((s.ft.toNat : Int) - s.ppsErr f / 16)) := by
  rw [ppsEdge_unaligned s f ten hs hen ha, State.align_ft, State.ft, State.ppsSeen_ft, State.ft]

theorem ppsEdge_steered_freq (s : State) (f : Nat) (ten : Bool) (hs : s.inv.state = .root)
    (hen : s.fb F.INV_CTRL_PPS_EN = true) (ha : s.inv.ppsAligned = true) (he : s.ppsErr f ≠ 0) :
    ∃ r : Int, (ppsEdge f ten s).rd R.INV_FREQ_ADJ = w64 (ofSigned 32 r) ∧ -s.slewLimit ≤ r ∧ r ≤ s.slewLimit ∧
      (0 < s.ppsErr f → 0 ≤ r) ∧ (s.ppsErr f < 0 → r ≤ 0) := by
  have hlim : (s.ppsSeen (s.ppsErr f) ten).slewLimit = s.slewLimit := by
    rw [State.slewLimit, State.ppsSeen_rd_ne _ _ _ _ (by decide), State.slewLimit]
  have h := State.steer_freq (s.ppsSeen (s.ppsErr f) ten) (s.ppsErr f)
  rwa [hlim, ← ppsEdge_steered s f ten hs hen ha he] at h

/-- Settles O14: each event acts when its trigger holds, by the rules of its operation. -/
theorem timeStates : Obligations.TimeStates := by
  unfold Obligations.TimeStates
  refine ⟨?_, ?_, ?_, ?_, ?_, ?_, ?_, ?_, ?_, ?_, ?_⟩
  · intro s hs hsafe h1 h2
    refine ⟨_, congrArg Host.Outcome.next (State.live_of_not_safe hsafe ftStep), ?_⟩
    have h := ftStep_inv s hs h1 h2
    refine ⟨by rw [h], by rw [h], by rw [State.ft, h]; rfl, fun p hp => ?_⟩
    simp [State.ptime, h, hp]
  · intro s p hp hsafe hs h1 h2 h3
    have h := acquireComplete_inv s p hp hs h1 h2 h3
    exact ⟨_, congrArg Host.Outcome.next (State.live_of_not_safe hsafe acquireComplete), h, by simp [State.ftValid, h],
      acquireComplete_ft s⟩
  · intro s p hp hsafe hg
    refine ⟨_, congrArg Host.Outcome.next (State.live_of_not_safe hsafe parentLost), parentLost_ft s, parentLost_acquire s p hp hg,
      fun hs => ?_, parentLost_holdover s p hp hg⟩
    have h := parentLost_track s p hp hg hs
    exact ⟨h, by simp [State.holdover, h]⟩
  · intro s p hs hsafe hp h
    refine ⟨_, congrArg Host.Outcome.next (State.live_of_not_safe hsafe holdoverClear), ?_, holdoverClear_ft s⟩
    simp [holdoverClear, hs, hp, h]
  · intro s hs hsafe hl h
    refine ⟨_, congrArg Host.Outcome.next (State.live_of_not_safe hsafe timeHoldoverLong), ?_, ?_, timeHoldoverLong_ft s⟩
    · simp [timeHoldoverLong, hs, hl, h]
    · simp [timeHoldoverLong, hs, hl, h]
  · intro s f ten hs hsafe hen
    obtain ⟨hlast, hskew⟩ := ppsEdge_noted s f ten hs hen
    exact ⟨_, s.ppsErr f, s.slewLimit, congrArg Host.Outcome.next (State.live_of_not_safe hsafe (ppsEdge f ten)), rfl, rfl,
      hlast, fun h1 h2 => hskew.trans (s.ppsSeen_skew _ ten h1 h2), ppsEdge_unaligned_ft s f ten hs hen,
      fun ha => ⟨ppsEdge_aligned_ft s f ten hs hen ha, ppsEdge_steered_freq s f ten hs hen ha⟩⟩
  · intro s f ten hsafe h
    exact congrArg Host.Outcome.next ((State.live_of_not_safe hsafe (ppsEdge f ten)).trans (ppsEdge_elsewhere f ten s h))
  · intro s l hl hsafe hs ht
    have h := ppsLoss_root s l hl hs ht
    exact ⟨_, congrArg Host.Outcome.next (State.live_of_not_safe hsafe ppsLoss), by rw [h], by rw [h, hs], ppsLoss_ft s⟩
  · intro s hsafe
    exact ⟨_, congrArg Host.Outcome.next (State.live_of_not_safe hsafe ref10mLoss), ref10mLoss_inv s⟩
  · intro s hen hv hsafe hd
    refine ⟨_, congrArg Host.Outcome.next (ppsOutPulse_of_due s (by simp [State.ppsOutOn, hen, hv, hsafe]) hd), rfl, rfl⟩
  · intro s v hv h
    exact ⟨_, congrArg Host.Outcome.next (ppsOutEnd_of_due s v hv h), rfl, rfl⟩

/-! ## What the time lane of a port sends (R34, R35) -/

/-- A port runs time only outside the safe state (R26). -/
theorem State.not_safe_of_timePort {s : State} {p : Nat} (h : s.timePort p = true) : s.inSafe = false := by
  simp only [State.timePort, Bool.and_eq_true, Bool.not_eq_true'] at h
  exact h.1.1.2

/-- A port sends: no record of what left the device is lost, the port stays as it is configured, and every other port is untouched. -/
structure State.Sends (p : Nat) (s t : State) : Prop where
  out : s.out <:+ t.out
  cfg : (t.port p).cfg = (s.port p).cfg
  others : ∀ q, q ≠ p → t.port q = s.port q

theorem State.Sends.refl (p : Nat) (s : State) : s.Sends p s := ⟨List.suffix_rfl, rfl, fun _ _ => rfl⟩
theorem State.Sends.trans {p : Nat} {s t u : State} (h1 : s.Sends p t) (h2 : t.Sends p u) : s.Sends p u :=
  ⟨h1.out.trans h2.out, h2.cfg.trans h1.cfg, fun q hq => (h2.others q hq).trans (h1.others q hq)⟩
theorem State.Sends.of_ports {p : Nat} {s t : State} (hout : s.out <:+ t.out) (hports : t.ports = s.ports) : s.Sends p t :=
  ⟨hout, by rw [State.port, hports, State.port], fun q _ => by rw [State.port, hports, State.port]⟩

theorem State.Sends.timeLane {p : Nat} {s t : State} (h : s.Sends p t) (q : Nat) : (t.port q).timeLane = (s.port q).timeLane := by
  by_cases hq : q = p
  · rw [hq, Port.timeLane, h.cfg, Port.timeLane]
  · rw [h.others q hq]

theorem State.sends_setPort (s : State) (p : Nat) (x : Port) (h : x.cfg = (s.port p).cfg) : s.Sends p (s.setPort p x) :=
  ⟨List.suffix_rfl, by rw [State.port_setPort, h], fun q hq => State.port_setPort_ne s p x q hq⟩
theorem State.sends_setTx (s : State) (p : Nat) (f : LinkTx → LinkTx) : s.Sends p (s.setTx p f) := s.sends_setPort p _ rfl
theorem State.sends_setRxl (s : State) (p : Nat) (f : LinkRx → LinkRx) : s.Sends p (s.setRxl p f) := s.sends_setPort p _ rfl
theorem State.sends_emit (s : State) (p : Nat) (e : Emit) : s.Sends p (s.emit e) := .of_ports (List.suffix_cons e s.out) rfl
theorem State.sends_emits (s : State) (p : Nat) (es : List Emit) : s.Sends p (s.emits es) :=
  .of_ports (List.suffix_append es.reverse s.out) rfl
theorem State.sends_pmuPort (s : State) (p ev v : Nat) : s.Sends p (s.pmuPort p ev v) := by
  refine .of_ports ?_ ?_ <;> simp

theorem State.sends_toLine (s : State) (p : Nat) (bs : List Byte) : s.Sends p (s.toLine p bs) := by
  unfold State.toLine
  dsimp only
  split
  · exact s.sends_setTx p _
  · exact (s.sends_setTx p _).trans (State.sends_emits _ p _)

theorem State.sends_sendSlot (s : State) (p lseq ctype chc : Nat) (csh : Bool) (body : List Byte) :
    s.Sends p (s.sendSlot p lseq ctype chc csh body) := by
  unfold State.sendSlot
  dsimp only
  split
  · exact ((s.sends_setRxl p _).trans (State.sends_emit _ p _)).trans (State.sends_toLine _ p _)
  · exact (((s.sends_setRxl p _).trans (State.sends_emit _ p _)).trans (State.sends_toLine _ p _)).trans (State.sends_pmuPort _ p _ _)

theorem State.sends_sendOs (s : State) (p : Nat) (body : List Byte) : s.Sends p (s.sendOs p body) := by
  unfold State.sendOs
  exact State.sends_sendSlot ..

theorem State.sends_toTimeSlot (p n : Nat) (s : State) : s.Sends p (s.toTimeSlot p n) := by
  induction n generalizing s with
  | zero => exact .refl p s
  | succ n ih =>
    rw [State.toTimeSlot]
    split
    · exact .refl p s
    · exact ((s.sends_sendOs p _).trans (State.sends_pmuPort _ p _ _)).trans (ih _)

theorem State.sends_sendTime (s : State) (p : Nat) (e : Emit) (body : List Byte) : s.Sends p (s.sendTime p e body) :=
  ((State.sends_toTimeSlot p 2 s).trans (State.sends_emit _ p e)).trans (State.sends_sendOs _ p body)

theorem State.mem_sendTime (s : State) (p : Nat) (e : Emit) (body : List Byte) : e ∈ (s.sendTime p e body).out :=
  (State.sends_sendOs ((s.toTimeSlot p 2).emit e) p body).out.mem List.mem_cons_self

/-- ANNOUNCE on every port of a list, each on its own time lane. -/
def State.announceOn (a : Announce) (l : List Nat) (s : State) : State :=
  l.foldl (fun s p => s.sendTime p (.announce p (s.port p).timeLane a) (osAnnounce a)) s
theorem State.announceOn_cons (a : Announce) (p : Nat) (l : List Nat) (s : State) : s.announceOn a (p :: l) =
    (s.sendTime p (.announce p (s.port p).timeLane a) (osAnnounce a)).announceOn a l := by
  rw [State.announceOn, List.foldl_cons, State.announceOn]
theorem State.sendAnnounce_eq (s : State) (a : Announce) (h : s.announcement = some a) :
    s.sendAnnounce = s.announceOn a s.timePorts := by
  rw [State.sendAnnounce, h, State.announceOn]

theorem State.announceOn_out (a : Announce) (l : List Nat) (s : State) : s.out <:+ (s.announceOn a l).out := by
  induction l generalizing s with
  | nil => exact List.suffix_rfl
  | cons q l ih =>
    rw [State.announceOn_cons]
    exact (s.sends_sendTime q _ _).out.trans (ih _)

theorem State.mem_announceOn (a : Announce) (p : Nat) (l : List Nat) (s : State) (hp : p ∈ l) :
    Emit.announce p (s.port p).timeLane a ∈ (s.announceOn a l).out := by
  induction l generalizing s with
  | nil => exact absurd hp List.not_mem_nil
  | cons q l ih =>
    rw [State.announceOn_cons]
    rcases List.mem_cons.1 hp with rfl | hp
    · exact (State.announceOn_out a l _).mem (s.mem_sendTime p _ _)
    · rw [← (s.sends_sendTime q _ _).timeLane p]
      exact ih _ hp

/-! ## ANNOUNCE, the root of time and its standby (R39 to R44, R46) -/

/-! ### What the election reads of the time unit -/

theorem State.timePorts_setInv (s : State) (f : Invar → Invar) (h : (f s.inv).state = s.inv.state) :
    (s.setInv f).timePorts = s.timePorts := by
  have hp : (s.setInv f).timePort = s.timePort := by
    funext p
    simp [State.timePort, State.invOn, State.inSafe, State.portCount, State.linkUp, State.port, State.is096, h]
  rw [State.timePorts, hp, State.setInv_ports, State.timePorts]

theorem State.rootView_of_fresh {s : State} (h : s.inv.staleAt = none) : s.rootView = s.inv.root := by
  simp [State.rootView, h]

@[simp] theorem State.awaited_root (s : State) (dn : Nat) : (s.awaited dn).inv.root = s.inv.root := by
  unfold State.awaited; (repeat' split) <;> simp
@[simp] theorem State.awaited_state (s : State) (dn : Nat) : (s.awaited dn).inv.state = s.inv.state := by
  unfold State.awaited; (repeat' split) <;> simp
@[simp] theorem State.awaited_ptime (s : State) (dn p : Nat) : (s.awaited dn).ptime p = s.ptime p := by
  unfold State.awaited; (repeat' split) <;> simp [State.ptime]

@[simp] theorem State.adoptRoot_ptime (s : State) (c : Cand) (gen seq p : Nat) : (s.adoptRoot c gen seq).ptime p = s.ptime p := by
  simp [State.ptime]
@[simp] theorem State.sendAnnounce_ptime (s : State) (p : Nat) : s.sendAnnounce.ptime p = s.ptime p := by
  simp [State.ptime]
@[simp] theorem State.updSpec_ptime (s : State) (p : Nat) : s.updSpec.ptime p = s.ptime p := by
  simp [State.ptime]

@[simp] theorem State.updStandby_root (s : State) (a : Announce) : (s.updStandby a).inv.root = s.inv.root := by
  unfold State.updStandby; dsimp only; split <;> simp
@[simp] theorem State.updStandby_state (s : State) (a : Announce) : (s.updStandby a).inv.state = s.inv.state := by
  unfold State.updStandby; dsimp only; split <;> simp
@[simp] theorem State.updStandby_ptime (s : State) (a : Announce) (p : Nat) : (s.updStandby a).ptime p = s.ptime p := by
  unfold State.updStandby; dsimp only; split <;> simp [State.ptime]

@[simp] theorem State.chooseParent_root (s : State) : s.chooseParent.inv.root = s.inv.root := by
  unfold State.chooseParent; (repeat' split) <;> try rfl
  all_goals rw [State.setParent_inv]; split <;> rfl
@[simp] theorem State.chooseParent_ptime (s : State) (p : Nat) : s.chooseParent.ptime p = s.ptime p := by
  unfold State.chooseParent; (repeat' split) <;> try rfl
  all_goals rw [State.ptime, State.setParent_inv]; split <;> rfl

/-! ### ANNOUNCE sent -/

/-- The own sequence number counted; a root's own view of the root carries it. -/
def State.counted (s : State) : State := s.setInv fun i =>
  { i with
    lastAnnounce := i.loc, ownSeq := (i.ownSeq + 1) % 65536
    root := if i.state == .root then i.root.map fun v => { v with seq := (i.ownSeq + 1) % 65536, heardAt := i.loc } else i.root }

theorem announce_of_due (s : State) (hon : s.invOn = true) (hsafe : s.inSafe = false)
    (h : (s.rd R.INV_ANNOUNCE_INT).toNat ≤ s.locSince s.inv.lastAnnounce) : announce s = s.counted.sendAnnounce := by
  unfold announce
  rw [if_pos (by simp [hon, hsafe, h])]
  dsimp only
  split <;> next hr =>
    simp only [State.counted, State.setInv_inv] at hr ⊢
    simp [State.setInv, hr]

/-- What a root announces: its own candidate, with its generation, at depth 0. -/
theorem State.announcement_of_root (s : State) (v : RootView) (hs : s.inv.state = .root) (hv : s.rootView = some v) :
    ∃ a, s.announcement = some a ∧ a.seq = v.seq ∧ a.gen = v.gen ∧ a.root = s.ownCand ∧ a.depth = 0 := by
  unfold State.announcement
  rw [hs, hv]
  refine ⟨_, rfl, rfl, rfl, rfl, ?_⟩
  simp [State.depth, hs]

/-! ### ANNOUNCE received -/

/-- An ANNOUNCE noted at its port. -/
def State.heardOn (s : State) (p : Nat) (a : Announce) : State := s.setPtime p { s.ptime p with heard := some a, heardAt := s.loc }

@[simp] theorem State.ptime_heardOn (s : State) (p : Nat) (a : Announce) :
    (s.heardOn p a).ptime p = { s.ptime p with heard := some a, heardAt := s.loc } := s.ptime_setPtime p _

theorem announceReceived_first (p : Nat) (a : Announce) (s : State) (hp : s.timePort p = true)
    (hself : a.root.dn ≠ s.fd F.ROUTE_SELF_DN_DN) (hroot : s.inv.root = none) (hs : s.inv.state = .listen) :
    announceReceived p a s =
      (((((s.heardOn p a).adoptRoot a.root a.gen a.seq).awaited a.root.dn).updStandby a).chooseParent.sendAnnounce).updSpec := by
  have hj : (s.heardOn p a).judgeRoot a = 2 := by simp [State.judgeRoot, State.heardOn, State.setPtime, hroot]
  have hself' : (a.root.dn == s.fd F.ROUTE_SELF_DN_DN) = false := beq_eq_false_iff_ne.2 hself
  unfold announceReceived
  rw [if_neg (by simp [hp])]
  dsimp only
  rw [← State.heardOn, hself', hj]
  simp [State.heardOn, State.setPtime, hs]

theorem announceReceived_old (p : Nat) (a : Announce) (s : State) (v : RootView) (hp : s.timePort p = true)
    (hroot : s.inv.root = some v) (hdn : a.root.dn = v.cand.dn) (hgen : a.gen = v.gen) (hseq : seqNewer a.seq v.seq = false) :
    announceReceived p a s = ((s.heardOn p a).updStandby a).chooseParent.updSpec := by
  have hg : genNewer v.gen v.gen = false := by unfold genNewer; simp; omega
  have hj : (s.heardOn p a).judgeRoot a = 0 := by
    simp [State.judgeRoot, State.heardOn, State.setPtime, hroot, hdn, hgen, hg, hseq]
  unfold announceReceived
  rw [if_neg (by simp [hp])]
  dsimp only
  rw [← State.heardOn, hj]
  simp only [ite_self, bne_self_eq_false, BEq.rfl, Nat.reduceBEq, Bool.false_and, Bool.and_false, Bool.false_eq_true, if_true, if_false]
  split <;> rfl

/-! ### The stale root, and the end of the wait and of LISTEN -/

theorem rootStale_eq (s : State) (v : RootView) (hv : s.inv.root = some v) (hst : s.inv.staleAt = none)
    (hs : s.inv.state ≠ .root) (hon : s.invOn = true) (ht : 3 * s.annInt ≤ s.locSince v.heardAt) :
    rootStale s =
      let s1 := s.setInv fun i => { i with staleAt := some i.loc }
      if s.isStandby && (s.inv.state == .track || s.inv.state == .holdover) then s1.becomeRoot
      else if s.eligible then s1.setInv fun i => { i with await := some (i.loc, i.standby.map (·.dn)) }
      else s1 := by
  unfold rootStale
  rw [State.rootView_of_fresh hst, hv]
  exact if_pos (by simp [hs, hon, ht])

theorem rootStale_standby (s : State) (v : RootView) (hv : s.inv.root = some v) (hst : s.inv.staleAt = none)
    (hs : s.inv.state = .track ∨ s.inv.state = .holdover) (hon : s.invOn = true) (ht : 3 * s.annInt ≤ s.locSince v.heardAt)
    (hb : s.isStandby = true) : rootStale s = (s.setInv fun i => { i with staleAt := some i.loc }).becomeRoot := by
  rw [rootStale_eq s v hv hst (by rcases hs with h | h <;> simp [h]) hon ht]
  exact if_pos (by rcases hs with h | h <;> simp [h, hb])

theorem rootStale_other (s : State) (v : RootView) (hv : s.inv.root = some v) (hst : s.inv.staleAt = none)
    (hs : s.inv.state ≠ .root) (hon : s.invOn = true) (ht : 3 * s.annInt ≤ s.locSince v.heardAt) (hb : s.isStandby = false) :
    rootStale s = { s with inv := { s.inv with
      staleAt := some s.loc, await := if s.eligible then some (s.loc, s.inv.standby.map (·.dn)) else s.inv.await } } := by
  rw [rootStale_eq s v hv hst hs hon ht, hb]
  cases s.eligible <;> rfl

/-- Nothing that the device heard beats its own candidate after the wait: it is the root. -/
theorem standbyWaitExpiry_root (s : State) (w : Word) (dn : Option Nat) (hw : s.inv.await = some (w, dn)) (he : s.eligible = true)
    (ht : 8 * s.annInt ≤ s.locSince w) (hs : s.inv.state = .track ∨ s.inv.state = .holdover)
    (hroot : ∀ v, s.rootView = some v → candBeats v.cand s.ownCand = false)
    (hstandby : ∀ e ∈ s.inv.ports, ∀ a, e.2.heard = some a → a.standby = none) :
    standbyWaitExpiry s = (s.setInv fun i => { i with await := none }).becomeRoot := by
  have hst : (s.inv.state == .track || s.inv.state == .holdover) = true := by rcases hs with h | h <;> simp [h]
  have hnone : (s.inv.ports.filterMap fun (e : Nat × PortTime) => e.2.heard.bind (·.standby)) = [] := by
    refine List.filterMap_eq_nil_iff.2 fun e h => ?_
    cases hh : e.2.heard with
    | none => rfl
    | some a => exact hstandby e h a hh
  unfold standbyWaitExpiry
  rw [hw]
  cases hv : s.rootView with
  | none => simp [ht, he, hst, hnone]
  | some v => simp [ht, he, hst, hroot v hv]

theorem standbyWaitExpiry_beaten (s : State) (w : Word) (dn : Option Nat) (v : RootView) (hw : s.inv.await = some (w, dn))
    (ht : 8 * s.annInt ≤ s.locSince w) (hv : s.rootView = some v) (hb : candBeats v.cand s.ownCand = true) :
    standbyWaitExpiry s = { s with inv := { s.inv with await := none, standby := none } } := by
  unfold standbyWaitExpiry
  rw [hw, hv]
  simp [ht, hb, State.setInv]

theorem listenExpiry_root (s : State) (hs : s.inv.state = .listen) (ht : 4 * s.annInt ≤ s.locSince s.inv.enteredAt)
    (he : s.eligible = true) (hroot : ∀ v, s.rootView = some v → candBeats s.ownCand v.cand = true) :
    listenExpiry s = s.becomeRoot := by
  unfold listenExpiry
  rw [if_pos (by simp [hs, ht])]
  cases hv : s.rootView with
  | none => simp [he]
  | some v => simp [he, hroot v hv]

theorem listenExpiry_acquire (s : State) (p : Nat) (hs : s.inv.state = .listen)
    (ht : 4 * s.annInt ≤ s.locSince s.inv.enteredAt)
    (he : s.eligible = false ∨ ∃ v, s.rootView = some v ∧ candBeats s.ownCand v.cand = false) (hp : s.bestParent = some p) :
    listenExpiry s =
      ((s.setInv fun i => { i with acqCount := 0, stepped := false, goodRun := 0 }).enterTime .acquire).setParent p := by
  unfold listenExpiry
  rw [if_pos (by simp [hs, ht]), hp]
  rcases he with he | ⟨v, hv, hb⟩
  · simp [he]
  · simp [hv, hb]

/-- Settles O13: each event acts when its trigger holds, by the rules of the election. -/
theorem rootElection : Obligations.RootElection := by
  unfold Obligations.RootElection
  refine ⟨?_, ?_, ?_, ?_, ?_, ?_, ?_, ?_, ?_⟩
  · intro s hon hsafe ht
    refine ⟨_, congrArg Host.Outcome.next (announce_of_due s hon hsafe ht), by simp [State.counted], ?_, fun v hs hv hst => ?_⟩
    · simp [State.counted, State.loc]
    · obtain ⟨a, ha, hseq, hgen, hroot, hdepth⟩ := State.announcement_of_root s.counted
        { v with seq := (s.inv.ownSeq + 1) % 65536, heardAt := s.inv.loc } (by simp [State.counted, hs])
        (by rw [State.rootView_of_fresh (by simp [State.counted, hst])]; simp [State.counted, hs, hv])
      refine ⟨a, by rw [hseq]; simp [State.counted], hgen, ?_, hdepth, fun p hp => ?_⟩
      · rw [hroot]
        simp [State.ownCand, State.holdover, State.extLocked, State.counted, hs]
      · rw [State.sendAnnounce_eq _ a ha]
        exact State.mem_announceOn a p _ s.counted (by rwa [State.counted, State.timePorts_setInv _ _ (by rfl)])
  · intro s p a hp hself hroot hs
    have hsafe := State.not_safe_of_timePort hp
    refine ⟨_, congrArg Host.Outcome.next ((State.live_of_not_safe hsafe (announceReceived p a)).trans
      (announceReceived_first p a s hp hself hroot hs)), ?_, ?_, ?_, ?_⟩
    · simp [State.heardOn, State.setPtime, State.loc]
    · simp
    · simp
    · simp [State.heardOn, State.setPtime, hs]
  · intro s p a v hp _ hv hdn hgen hseq
    have hsafe := State.not_safe_of_timePort hp
    refine ⟨_, congrArg Host.Outcome.next ((State.live_of_not_safe hsafe (announceReceived p a)).trans
      (announceReceived_old p a s v hp hv hdn hgen hseq)), ?_, ?_⟩
    · simp [State.heardOn, State.setPtime, hv]
    · simp
  · intro s v hv hst hs hon hsafe ht hb hth
    have hl : s.inv.state ≠ .listen := by rcases hth with h | h <;> simp [h]
    have h := congrArg State.inv (rootStale_standby s v hv hst hth hon ht hb)
    rw [State.becomeRoot_inv] at h
    refine ⟨_, congrArg Host.Outcome.next (State.live_of_not_safe hsafe rootStale), by rw [h], ?_, rootStale_ft s⟩
    rw [h]
    simp [State.rootGen, hl]
  · intro s v hv hst hs hon hsafe ht hb
    exact congrArg Host.Outcome.next ((State.live_of_not_safe hsafe rootStale).trans (rootStale_other s v hv hst hs hon ht hb))
  · intro s w dn hw hsafe he ht hs hroot hstandby
    have h := congrArg State.inv (standbyWaitExpiry_root s w dn hw he ht hs hroot hstandby)
    rw [State.becomeRoot_inv] at h
    exact ⟨_, congrArg Host.Outcome.next (State.live_of_not_safe hsafe standbyWaitExpiry), by rw [h], by rw [h],
      standbyWaitExpiry_ft s⟩
  · intro s w dn v hw hsafe ht hv hb
    exact congrArg Host.Outcome.next
      ((State.live_of_not_safe hsafe standbyWaitExpiry).trans (standbyWaitExpiry_beaten s w dn v hw ht hv hb))
  · intro s hs hsafe ht he hroot
    refine ⟨_, congrArg Host.Outcome.next
      ((State.live_of_not_safe hsafe listenExpiry).trans (listenExpiry_root s hs ht he hroot)), ?_, ?_, ?_⟩
    · rw [State.becomeRoot_inv]
    · simp [State.becomeRoot_inv, hs]
    · rw [State.ft, State.becomeRoot_inv]
      cases h : s.inv.ftSetTaken <;> simp [hs, State.ft]
  · intro s p hs hsafe ht he hp
    refine ⟨_, congrArg Host.Outcome.next
      ((State.live_of_not_safe hsafe listenExpiry).trans (listenExpiry_acquire s p hs ht he hp)), ?_, ?_, ?_⟩
    · rw [State.setParent_inv]; split <;> rfl
    · rw [State.setParent_inv]; split
      · next h => exact h
      · rfl
    · rw [State.ft, State.setParent_inv]; split <;> rfl

/-! ## SYNC exchanges (R35 to R38) -/

theorem sync_of_due (p f : Nat) (s : State) (hp : s.timePort p = true)
    (ht : (s.rd R.INV_SYNC_INT).toNat ≤ s.locSince (s.ptime p).lastSync) :
    sync p f s = (s.setPtime p { s.ptime p with
      outstanding := (s.ptime p).outstanding ++ [((s.ptime p).nextId, 16 * s.ft.toNat + f % 16, s.loc)]
      nextId := ((s.ptime p).nextId + 1) % 65536, lastSync := s.loc }).sendTime p
        (.sync p (s.port p).timeLane (s.ptime p).nextId (16 * s.ft.toNat + f % 16))
        (osSync (s.ptime p).nextId (16 * s.ft.toNat + f % 16)) :=
  if_pos (by simp [hp, ht])
theorem sync_of_not_due (p f : Nat) (s : State)
    (h : s.timePort p = false ∨ s.locSince (s.ptime p).lastSync < (s.rd R.INV_SYNC_INT).toNat) : sync p f s = s :=
  if_neg (by rcases h with h | h <;> simp [h])

theorem exchangeLost_of_due (p : Nat) (o : Nat × Nat × Word) (rest : List (Nat × Nat × Word)) (s : State)
    (ho : (s.ptime p).outstanding = o :: rest) (ht : 10 * ticksPerUs ≤ s.locSince o.2.2) :
    exchangeLost p s = s.setPtime p { s.ptime p with outstanding := rest } := by
  unfold exchangeLost
  dsimp only
  rw [ho]
  exact if_pos (decide_eq_true ht)

@[simp] theorem State.sendTime_ptime (s : State) (p q : Nat) (e : Emit) (body : List Byte) :
    (s.sendTime p e body).ptime q = s.ptime q := by
  simp [State.ptime]

/-! ### A reply -/

/-- A port's time state after the reply to its exchange id, whose sample of the delay is given (R36, R38). -/
def PortTime.answered (t : PortTime) (id : Nat) (sample : Int) : PortTime :=
  let u := { t with outstanding := t.outstanding.filter fun o => o.1 != id }.sampled sample
  { u with mute := u.mute && decide (u.seen < 64) }

@[simp] theorem PortTime.answered_delay (t : PortTime) (id : Nat) (x : Int) : (t.answered id x).delay = (t.sampled x).delay := by
  simp only [PortTime.answered, PortTime.sampled]; split <;> rfl
@[simp] theorem PortTime.answered_outstanding (t : PortTime) (id : Nat) (x : Int) :
    (t.answered id x).outstanding = t.outstanding.filter fun o => o.1 != id := by
  simp only [PortTime.answered, PortTime.sampled]; split <;> rfl
@[simp] theorem PortTime.answered_mute (t : PortTime) (id : Nat) (x : Int) :
    (t.answered id x).mute = (t.mute && decide ((t.answered id x).seen < 64)) := by
  simp only [PortTime.answered, PortTime.sampled]; split <;> rfl

/-- A port's time state noted, and its delay shown in INV_PORT_DELAY unless a port reset muted it (R38, Table 23-5). -/
def State.delayShown (s : State) (p : Nat) (x : PortTime) : State :=
  if x.mute then s.setPtime p x else (s.setPtime p x).wrSigned R.INV_PORT_DELAY [p] x.delay

@[simp] theorem State.delayShown_inv (s : State) (p : Nat) (x : PortTime) : (s.delayShown p x).inv = (s.setPtime p x).inv := by
  unfold State.delayShown; split <;> simp
@[simp] theorem State.delayShown_ptime (s : State) (p : Nat) (x : PortTime) : (s.delayShown p x).ptime p = x := by
  rw [State.ptime, State.delayShown_inv]
  exact s.ptime_setPtime p x
theorem State.delayShown_rd_ne (s : State) (p : Nat) (x : PortTime) (r : RegDesc) (h : r.addr [] ≠ R.INV_PORT_DELAY.addr [p]) :
    (s.delayShown p x).rd r = s.rd r := by
  unfold State.delayShown
  split
  · rfl
  · exact State.rd_wrSigned_ne _ R.INV_PORT_DELAY r [p] [] x.delay h
theorem State.delayShown_rd (s : State) (p : Nat) (x : PortTime) (hm : x.mute = false) (h1 : -2 ^ 31 ≤ x.delay)
    (h2 : x.delay < 2 ^ 31) : (s.delayShown p x).rd R.INV_PORT_DELAY [p] = w64 (ofSigned 32 x.delay) := by
  rw [State.delayShown, if_neg (by simp [hm])]
  exact State.rd_wrSigned _ R.INV_PORT_DELAY [p] x.delay rfl h1 h2
theorem State.delayShown_rd_of_mute (s : State) (p : Nat) (x : PortTime) (hm : x.mute = true) (r : RegDesc) (ix : List Nat) :
    (s.delayShown p x).rd r ix = s.rd r ix := by
  rw [State.delayShown, if_pos hm]
  rfl

/-- The registers of INVARIANT's servo stand below those of its ports (R57). -/
theorem addr_ne_portDelay (r : RegDesc) (p : Nat) (h : r.addr [] < 0x101400) : r.addr [] ≠ R.INV_PORT_DELAY.addr [p] := by
  have hp : R.INV_PORT_DELAY.addr [p] = 0x101400 + 4 * p := by simp [RegDesc.addr, R.INV_PORT_DELAY]
  omega

theorem syncReplyReceived_eq (p id t1 t2 t3 f : Nat) (w : Word) (s : State) (hp : s.timePort p = true)
    (hfind : (s.ptime p).outstanding.find? (fun o => o.1 == id) = some (id, t1, w)) :
    syncReplyReceived p id t2 t3 f s =
      let fwd : Int := ((16 * s.ft.toNat + f % 16 : Nat) : Int) - t3
      let x := (s.ptime p).answered id ((fwd + ((t2 : Int) - t1)) / 2)
      if s.inv.parent == some p then
        (s.delayShown p x).parentExchange (s.ptime p).seen (fwd - x.delay - toSigned 20 (s.fd F.INV_PORT_TIME_ASYM [p]))
      else s.delayShown p x := by
  unfold syncReplyReceived
  dsimp only
  rw [hfind]
  exact if_neg (by simp [hp])

/-! ### A reply at the parent -/

/-- The offset of an exchange with the parent, shown in INV_OFFSET (R38). -/
def State.offsetShown (s : State) (o : Int) : State := (s.setInv fun i => { i with offset := o }).wrSigned R.INV_OFFSET [] o

@[simp] theorem State.offsetShown_inv (s : State) (o : Int) : (s.offsetShown o).inv = { s.inv with offset := o } := by
  simp [State.offsetShown]
theorem State.offsetShown_rd (s : State) (o : Int) (h1 : -2 ^ 31 ≤ o) (h2 : o < 2 ^ 31) :
    (s.offsetShown o).rd R.INV_OFFSET = w64 (ofSigned 32 o) := State.rd_wrSigned _ R.INV_OFFSET [] o rfl h1 h2
theorem State.offsetShown_rd_ne (s : State) (o : Int) (r : RegDesc) (h : r.addr [] ≠ R.INV_OFFSET.addr []) :
    (s.offsetShown o).rd r = s.rd r := State.rd_wrSigned_ne _ R.INV_OFFSET r [] [] o h

@[simp] theorem State.servo_ptime (s : State) (o : Int) (p : Nat) : (s.servo o).ptime p = s.ptime p := rfl
@[simp] theorem State.servo_integ (s : State) (o : Int) : (s.servo o).inv.integ = s.inv.integ + o := rfl
theorem State.servo_rd_ne (s : State) (o : Int) (r : RegDesc) (h : r.addr [] ≠ R.INV_FREQ_ADJ.addr []) :
    (s.servo o).rd r = s.rd r := State.rd_wr_ne _ R.INV_FREQ_ADJ r [] [] _ h
theorem State.servo_freq (s : State) (o : Int) : (s.servo o).rd R.INV_FREQ_ADJ = w64 (ofSigned 32 (clampI (-s.slewLimit) s.slewLimit
    ((s.inv.integ + o) / (2 ^ s.fd F.INV_SERVO_KI_SHIFT : Nat) + o / (2 ^ s.fd F.INV_SERVO_KP_SHIFT : Nat)))) :=
  State.rd_wr_signed _ R.INV_FREQ_ADJ [] _ rfl

/-- The servo's answer to an offset after the first step of FT; the good run begins with the delay's 64 samples (R38). -/
def State.trimmed (s : State) (seen : Nat) (o : Int) : State :=
  if seen < 64 then (s.servo o).setInv fun i => { i with goodRun := 0 } else s.servo o

@[simp] theorem State.trimmed_ptime (s : State) (seen : Nat) (o : Int) (p : Nat) : (s.trimmed seen o).ptime p = s.ptime p := by
  unfold State.trimmed; split <;> rfl
@[simp] theorem State.trimmed_integ (s : State) (seen : Nat) (o : Int) : (s.trimmed seen o).inv.integ = s.inv.integ + o := by
  unfold State.trimmed; split <;> rfl
@[simp] theorem State.trimmed_ft (s : State) (seen : Nat) (o : Int) : (s.trimmed seen o).inv.ft = s.inv.ft := by
  unfold State.trimmed; split <;> rfl
@[simp] theorem State.trimmed_rd (s : State) (seen : Nat) (o : Int) (r : RegDesc) : (s.trimmed seen o).rd r = (s.servo o).rd r := by
  unfold State.trimmed; split <;> rfl
theorem State.trimmed_goodRun (s : State) (seen : Nat) (o : Int) (h : seen < 64) : (s.trimmed seen o).inv.goodRun = 0 := by
  rw [State.trimmed, if_pos h]; rfl

theorem State.parentExchange_acquire (s : State) (seen : Nat) (o : Int) (hs : s.inv.state = .acquire)
    (hst : s.inv.stepped = true) (hsus : s.inv.suspended = none) :
    s.parentExchange seen o = (s.offsetShown o).trimmed seen o := by
  unfold State.parentExchange
  rw [← State.offsetShown]
  simp [hs, hst, hsus, State.trimmed]

/-- A reply at the parent, in ACQUIRE after the first step of FT: what the port and the servo show (R38). -/
theorem State.parentReply (s : State) (p seen : Nat) (x : PortTime) (o : Int) (hs : s.inv.state = .acquire)
    (hst : s.inv.stepped = true) (hsus : s.inv.suspended = none) :
    (s.delayShown p x).parentExchange seen o = ((s.delayShown p x).offsetShown o).trimmed seen o :=
  State.parentExchange_acquire _ seen o (by simp [hs]) (by simp [hst]) (by simp [hsus])
theorem State.parentReply_ptime (s : State) (p seen : Nat) (x : PortTime) (o : Int) :
    (((s.delayShown p x).offsetShown o).trimmed seen o).ptime p = x := by
  rw [State.trimmed_ptime, State.ptime, State.offsetShown_inv]
  exact s.delayShown_ptime p x
theorem State.parentReply_rd (s : State) (p : Nat) (x : PortTime) (o : Int) (r : RegDesc) (h1 : r.addr [] ≠ R.INV_OFFSET.addr [])
    (h2 : r.addr [] < 0x101400) : ((s.delayShown p x).offsetShown o).rd r = s.rd r := by
  rw [State.offsetShown_rd_ne _ o r h1, s.delayShown_rd_ne p x r (addr_ne_portDelay r p h2)]
theorem State.parentReply_freq (s : State) (p seen : Nat) (x : PortTime) (o : Int) :
    (((s.delayShown p x).offsetShown o).trimmed seen o).rd R.INV_FREQ_ADJ = w64 (ofSigned 32 (clampI (-s.slewLimit) s.slewLimit
      ((s.inv.integ + o) / (2 ^ s.fd F.INV_SERVO_KI_SHIFT : Nat) + o / (2 ^ s.fd F.INV_SERVO_KP_SHIFT : Nat)))) := by
  have hslew : ((s.delayShown p x).offsetShown o).rd R.INV_SLEW_MAX = s.rd R.INV_SLEW_MAX :=
    s.parentReply_rd p x o _ (by decide) (by decide)
  have hservo : ((s.delayShown p x).offsetShown o).rd R.INV_SERVO = s.rd R.INV_SERVO :=
    s.parentReply_rd p x o _ (by decide) (by decide)
  have hlim : ((s.delayShown p x).offsetShown o).slewLimit = s.slewLimit := by rw [State.slewLimit, hslew, State.slewLimit]
  have hki : ((s.delayShown p x).offsetShown o).fd F.INV_SERVO_KI_SHIFT = s.fd F.INV_SERVO_KI_SHIFT := congrArg (bitsW · _ _) hservo
  have hkp : ((s.delayShown p x).offsetShown o).fd F.INV_SERVO_KP_SHIFT = s.fd F.INV_SERVO_KP_SHIFT := congrArg (bitsW · _ _) hservo
  rw [State.trimmed_rd, State.servo_freq, hlim, hki, hkp]
  simp

theorem syncReplyReceived_parent (p id t1 t2 t3 f : Nat) (w : Word) (s : State) (hp : s.timePort p = true)
    (hparent : s.inv.parent = some p) (hs : s.inv.state = .acquire) (hst : s.inv.stepped = true) (hsus : s.inv.suspended = none)
    (hfind : (s.ptime p).outstanding.find? (fun o => o.1 == id) = some (id, t1, w)) :
    ∃ (x : PortTime) (o : Int),
      syncReplyReceived p id t2 t3 f s = ((s.delayShown p x).offsetShown o).trimmed (s.ptime p).seen o ∧
      o = ((16 * s.ft.toNat + f % 16 : Nat) : Int) - t3 - x.delay - toSigned 20 (s.fd F.INV_PORT_TIME_ASYM [p]) := by
  have h := syncReplyReceived_eq p id t1 t2 t3 f w s hp hfind
  dsimp only at h
  rw [if_pos (by simp [hparent]), s.parentReply p _ _ _ hs hst hsus] at h
  exact ⟨_, _, h, rfl⟩

/-- Settles O12: each event acts when its trigger holds, by the rules of the exchange. -/
theorem syncExchange : Obligations.SyncExchange := by
  unfold Obligations.SyncExchange
  refine ⟨?_, ?_, ?_, ?_, ?_, ?_⟩
  · intro s p f hp ht
    have hsafe := State.not_safe_of_timePort hp
    refine ⟨_, congrArg Host.Outcome.next ((State.live_of_not_safe hsafe (sync p f)).trans (sync_of_due p f s hp ht)),
      State.mem_sendTime .., ?_, ?_, ?_, ?_, fun q hq => ?_, fun q hq => (State.sends_sendTime ..).others q hq⟩
    · simp
    · simp
    · simp
    · simp [State.ft]
    · simp [hq]
  · intro s p f h
    exact congrArg Host.Outcome.next (by rw [State.live, sync_of_not_due p f s h, ite_self])
  · intro s p id f dt t2 hp ht2
    have hsafe := State.not_safe_of_timePort hp
    subst ht2
    exact ⟨_, congrArg Host.Outcome.next ((State.live_of_not_safe hsafe (syncReceived p id f dt)).trans (if_pos hp)),
      State.sendTime_inv .., State.mem_sendTime ..⟩
  · intro s p id t1 t2 t3 f w d hp hparent hfind hd
    have hsafe := State.not_safe_of_timePort hp
    have heq := syncReplyReceived_eq p id t1 t2 t3 f w s hp hfind
    dsimp only at heq
    rw [if_neg (by simpa using hparent)] at heq
    refine ⟨_, congrArg Host.Outcome.next ((State.live_of_not_safe hsafe (syncReplyReceived p id t2 t3 f)).trans heq),
      ?_, ?_, ?_, ?_, ?_, ?_⟩
    · rw [State.delayShown_ptime, PortTime.answered_delay, hd]
    · rw [State.delayShown_ptime, PortTime.answered_outstanding]
      intro o ho
      simpa using (List.mem_filter.1 ho).2
    · intro h1 h2 hm
      rw [hd, ← PortTime.answered_delay _ id] at h1 h2 ⊢
      exact s.delayShown_rd p _ (by rw [PortTime.answered_mute, hm, Bool.false_and]) h1 h2
    · intro hm hseen
      rw [State.delayShown_ptime] at hseen
      exact s.delayShown_rd_of_mute p _ (by rw [PortTime.answered_mute, hm, decide_eq_true hseen]; rfl) _ _
    · simp
    · simp [State.ft]
  · intro s p id t1 t2 t3 f w hp hparent hs hst hsus hfind
    have hsafe := State.not_safe_of_timePort hp
    obtain ⟨x, o, heq, ho⟩ := syncReplyReceived_parent p id t1 t2 t3 f w s hp hparent hs hst hsus hfind
    refine ⟨_, o, (s.inv.integ + o) / (2 ^ s.fd F.INV_SERVO_KI_SHIFT : Nat) + o / (2 ^ s.fd F.INV_SERVO_KP_SHIFT : Nat), s.slewLimit,
      congrArg Host.Outcome.next ((State.live_of_not_safe hsafe (syncReplyReceived p id t2 t3 f)).trans heq),
      by rw [ho, State.parentReply_ptime], fun h1 h2 => ?_, by simp, by simp, rfl, State.parentReply_freq .., ?_,
      State.trimmed_goodRun _ _ _⟩
    · rw [State.trimmed_rd, State.servo_rd_ne _ _ _ (by decide)]
      exact State.offsetShown_rd _ _ h1 h2
    · simp [State.ft]
  · intro s p o rest hsafe ho ht
    exact congrArg Host.Outcome.next ((State.live_of_not_safe hsafe (exchangeLost p)).trans (exchangeLost_of_due p o rest s ho ht))

end Sys2Proof.Machine

end

section

open Sys2Proof Sys2Proof.Machine

namespace Sys2Proof.Machine

/-!
## What each command leaves as it was (R64 to R66, R69, R81, R245, R528, R530)

Two statements ask the same of every command: that the parts outside its list stay as they were, and that memory keeps its
canonical form. Both are one relation between two states, `State.Spares`, for one `Aspect`: a part, or the form of memory. One rule
per state operation, `<operation>_spares`, in the order of the model's files: from a state in the relation, the operation leads to
one, for every aspect outside the parts that it may change. A rule about an operation that runs a continuation asks the same of the
continuation, and one about an operation that may fail is about the state it answers when it does not. The rules are simp lemmas
tried from the outside in (`↓`), so that an operation's own rule meets it before its arguments are rewritten.
-/

/-! #### What the rules below are assembled with -/

/-- What a rule about an operation speaks of: a part of the state, or (`none`) the canonical form of memory. -/
abbrev Aspect := Option Part

/-- The aspect is not this part. -/
def Aspect.off (asp : Aspect) (p : Part) : Prop := asp ≠ some p

@[simp] theorem Aspect.off_none (p : Part) : Aspect.off none p := fun h => nomatch h

/-- The aspect is none of these parts. -/
@[reducible, simp] def Aspect.outside (asp : Aspect) : List Part → Prop
  | [] => True
  | p :: ps => asp.off p ∧ asp.outside ps

/-- The second state has of the first what the aspect speaks of. -/
def State.Spares (s : State) : Aspect → State → Prop
  | some p, t => s.same t p
  | none, t => s.mem.wf = true → t.mem.wf = true

variable {asp : Aspect} {s₀ s s' : State}

@[simp ↓] theorem State.Spares.refl (s : State) : s.Spares asp s := by
  rcases asp with _ | (_ | _) <;> simp [State.Spares, State.same]

theorem State.Spares.trans (h : s₀.Spares asp s) (h' : s.Spares asp s') : s₀.Spares asp s' := by
  rcases asp with _ | (_ | _)
  case none => exact h' ∘ h
  case some.ram => exact fun a ha => (h' a ha).trans (h a ha)
  all_goals exact Eq.trans h' h

theorem State.Spares.of_eq {α : Type} {p : α × State} {a : α} (e : p = (a, s')) (h : s₀.Spares asp p.2) : s₀.Spares asp s' := by
  rw [e] at h; exact h

@[simp ↓] theorem State.ite_spares {c : Prop} [Decidable c] (h : s₀.Spares asp s) (h' : s₀.Spares asp s') :
    s₀.Spares asp (if c then s else s') := by
  split <;> assumption
@[simp ↓] theorem State.ite_spares_snd {α : Type} {c : Prop} [Decidable c] {p p' : α × State} (h : s₀.Spares asp p.2)
    (h' : s₀.Spares asp p'.2) : s₀.Spares asp (if c then p else p').2 := by
  split <;> assumption

@[simp ↓] theorem State.foldl_spares {β : Type} {f : State → β → State}
    (hf : ∀ (s : State) (y : β), s.Spares asp (f s y)) (h₀ : s₀.Spares asp s) (l : List β) :
    s₀.Spares asp (l.foldl f s) := by
  induction l generalizing s with
  | nil => exact h₀
  | cons x l ih => exact ih (h₀.trans (hf s x))

/-! #### One field replaced -/

@[simp ↓] theorem State.regs_spares (ha : asp.off .regs) (h₀ : s₀.Spares asp s) v : s₀.Spares asp { s with regs := v } := by
  rcases asp with _ | (_ | _)
  case some.regs => exact absurd rfl ha
  all_goals exact h₀
@[simp ↓] theorem State.inv_spares (ha : asp.off .inv) (h₀ : s₀.Spares asp s) v : s₀.Spares asp { s with inv := v } := by
  rcases asp with _ | (_ | _)
  case some.inv => exact absurd rfl ha
  all_goals exact h₀
@[simp ↓] theorem State.tgf_spares (ha : asp.off .tgf) (h₀ : s₀.Spares asp s) v : s₀.Spares asp { s with tgf := v } := by
  rcases asp with _ | (_ | _)
  case some.tgf => exact absurd rfl ha
  all_goals exact h₀
@[simp ↓] theorem State.fifos_spares (ha : asp.off .fifos) (h₀ : s₀.Spares asp s) v : s₀.Spares asp { s with fifos := v } := by
  rcases asp with _ | (_ | _)
  case some.fifos => exact absurd rfl ha
  all_goals exact h₀
@[simp ↓] theorem State.threads_spares (ha : asp.off .threads) (h₀ : s₀.Spares asp s) v : s₀.Spares asp { s with threads := v } := by
  rcases asp with _ | (_ | _)
  case some.threads => exact absurd rfl ha
  all_goals exact h₀
@[simp ↓] theorem State.engines_spares (ha : asp.off .engines) (h₀ : s₀.Spares asp s) v : s₀.Spares asp { s with engines := v } := by
  rcases asp with _ | (_ | _)
  case some.engines => exact absurd rfl ha
  all_goals exact h₀
@[simp ↓] theorem State.clusters_spares (ha : asp.off .clusters) (h₀ : s₀.Spares asp s) v : s₀.Spares asp { s with clusters := v } := by
  rcases asp with _ | (_ | _)
  case some.clusters => exact absurd rfl ha
  all_goals exact h₀
@[simp ↓] theorem State.ops_spares (ha : asp.off .ops) (h₀ : s₀.Spares asp s) v : s₀.Spares asp { s with ops := v } := by
  rcases asp with _ | (_ | _)
  case some.ops => exact absurd rfl ha
  all_goals exact h₀
@[simp ↓] theorem State.orders_spares (ha : asp.off .orders) (h₀ : s₀.Spares asp s) v : s₀.Spares asp { s with orders := v } := by
  rcases asp with _ | (_ | _)
  case some.orders => exact absurd rfl ha
  all_goals exact h₀
@[simp ↓] theorem State.rings_spares (ha : asp.off .rings) (h₀ : s₀.Spares asp s) v : s₀.Spares asp { s with rings := v } := by
  rcases asp with _ | (_ | _)
  case some.rings => exact absurd rfl ha
  all_goals exact h₀
@[simp ↓] theorem State.net_spares (ha : asp.off .net) (h₀ : s₀.Spares asp s) v : s₀.Spares asp { s with net := v } := by
  rcases asp with _ | (_ | _)
  case some.net => exact absurd rfl ha
  all_goals exact h₀
@[simp ↓] theorem State.mtch_spares (ha : asp.off .mtch) (h₀ : s₀.Spares asp s) v : s₀.Spares asp { s with mtch := v } := by
  rcases asp with _ | (_ | _)
  case some.mtch => exact absurd rfl ha
  all_goals exact h₀
@[simp ↓] theorem State.aml_spares (ha : asp.off .aml) (h₀ : s₀.Spares asp s) v : s₀.Spares asp { s with aml := v } := by
  rcases asp with _ | (_ | _)
  case some.aml => exact absurd rfl ha
  all_goals exact h₀
@[simp ↓] theorem State.host_spares (ha : asp.off .host) (h₀ : s₀.Spares asp s) v : s₀.Spares asp { s with host := v } := by
  rcases asp with _ | (_ | _)
  case some.host => exact absurd rfl ha
  all_goals exact h₀
@[simp ↓] theorem State.dev_spares (ha : asp.off .dev) (h₀ : s₀.Spares asp s) v : s₀.Spares asp { s with dev := v } := by
  rcases asp with _ | (_ | _)
  case some.dev => exact absurd rfl ha
  all_goals exact h₀
@[simp ↓] theorem State.eptCache_spares (ha : asp.off .eptCache) (h₀ : s₀.Spares asp s) v : s₀.Spares asp { s with eptCache := v } := by
  rcases asp with _ | (_ | _)
  case some.eptCache => exact absurd rfl ha
  all_goals exact h₀
@[simp ↓] theorem State.ports_spares (ha : asp.off .ports) (h₀ : s₀.Spares asp s) v : s₀.Spares asp { s with ports := v } := by
  rcases asp with _ | (_ | _)
  case some.ports => exact absurd rfl ha
  all_goals exact h₀
@[simp ↓] theorem State.lanes_spares (ha : asp.off .lanes) (h₀ : s₀.Spares asp s) v : s₀.Spares asp { s with lanes := v } := by
  rcases asp with _ | (_ | _)
  case some.lanes => exact absurd rfl ha
  all_goals exact h₀
@[simp ↓] theorem State.lims_spares (ha : asp.off .lims) (h₀ : s₀.Spares asp s) v : s₀.Spares asp { s with lims := v } := by
  rcases asp with _ | (_ | _)
  case some.lims => exact absurd rfl ha
  all_goals exact h₀
@[simp ↓] theorem State.limCache_spares (ha : asp.off .limCache) (h₀ : s₀.Spares asp s) v : s₀.Spares asp { s with limCache := v } := by
  rcases asp with _ | (_ | _)
  case some.limCache => exact absurd rfl ha
  all_goals exact h₀
@[simp ↓] theorem State.limRefill_spares (ha : asp.off .limRefill) (h₀ : s₀.Spares asp s) v : s₀.Spares asp { s with limRefill := v } := by
  rcases asp with _ | (_ | _)
  case some.limRefill => exact absurd rfl ha
  all_goals exact h₀
@[simp ↓] theorem State.route_spares (ha : asp.off .route) (h₀ : s₀.Spares asp s) v : s₀.Spares asp { s with route := v } := by
  rcases asp with _ | (_ | _)
  case some.route => exact absurd rfl ha
  all_goals exact h₀
@[simp ↓] theorem State.halfLatch_spares (ha : asp.off .halfLatch) (h₀ : s₀.Spares asp s) v : s₀.Spares asp { s with halfLatch := v } := by
  rcases asp with _ | (_ | _)
  case some.halfLatch => exact absurd rfl ha
  all_goals exact h₀
@[simp ↓] theorem State.recLatch_spares (ha : asp.off .recLatch) (h₀ : s₀.Spares asp s) v : s₀.Spares asp { s with recLatch := v } := by
  rcases asp with _ | (_ | _)
  case some.recLatch => exact absurd rfl ha
  all_goals exact h₀
@[simp ↓] theorem State.sbAddr_spares (ha : asp.off .sbAddr) (h₀ : s₀.Spares asp s) v : s₀.Spares asp { s with sbAddr := v } := by
  rcases asp with _ | (_ | _)
  case some.sbAddr => exact absurd rfl ha
  all_goals exact h₀
@[simp ↓] theorem State.variant_spares (ha : asp.off .variant) (h₀ : s₀.Spares asp s) v : s₀.Spares asp { s with variant := v } := by
  rcases asp with _ | (_ | _)
  case some.variant => exact absurd rfl ha
  all_goals exact h₀
@[simp ↓] theorem State.out_spares (ha : asp.off .out) (h₀ : s₀.Spares asp s) v : s₀.Spares asp { s with out := v } := by
  rcases asp with _ | (_ | _)
  case some.out => exact absurd rfl ha
  all_goals exact h₀
@[simp ↓] theorem State.pending_spares (ha : asp.off .pending) (h₀ : s₀.Spares asp s) v : s₀.Spares asp { s with pending := v } := by
  rcases asp with _ | (_ | _)
  case some.pending => exact absurd rfl ha
  all_goals exact h₀
@[simp ↓] theorem State.free_spares (h₀ : s₀.Spares asp s) v : s₀.Spares asp { s with free := v } := by
  rcases asp with _ | (_ | _) <;> exact h₀
@[simp ↓] theorem State.poison_spares (h₀ : s₀.Spares asp s) v : s₀.Spares asp { s with poison := v } := by
  rcases asp with _ | (_ | _) <;> exact h₀

/-! #### Memory -/

/-- Bytes stored keep the canonical form of memory, whatever else they change. -/
@[simp ↓] theorem State.mwrite_spares (ha : asp.outside [.ram]) (h₀ : s₀.Spares asp s) (k : Nat) (bs : List Byte) :
    s₀.Spares asp (s.mwrite k bs) := by
  rcases asp with _ | (_ | _)
  case none => exact fun h => Memory.wf_writeN _ _ _ (h₀ h)
  case some.ram => exact absurd rfl ha.1
  all_goals exact h₀
/-- The life store stands above HBM and the memories of clusters and engines. -/
@[simp ↓] theorem State.mwrite_pewterKey_spares (h₀ : s₀.Spares asp s) (k : Nat) (bs : List Byte) :
    s₀.Spares asp (s.mwrite (pewterKey k) bs) := by
  rcases asp with _ | (_ | _)
  case none => exact fun h => Memory.wf_writeN _ _ _ (h₀ h)
  case some.ram =>
    exact fun a ha => (Memory.read_writeN_out _ _ _ _ (.inl (ha.trans_le (Nat.le_add_right _ _)))).trans (h₀ a ha)
  all_goals exact h₀
@[simp ↓] theorem State.mwrite_accKey_spares (h₀ : s₀.Spares asp s) (k : Nat) (bs : List Byte) :
    s₀.Spares asp (s.mwrite (accKey k) bs) := State.mwrite_pewterKey_spares h₀ _ bs

theorem State.getD_spares {o : Option State} (h : ∀ t, o = some t → s₀.Spares asp t) (h₀ : s₀.Spares asp s) :
    s₀.Spares asp (o.getD s) := by
  cases o with
  | none => exact h₀
  | some t => exact h t rfl

/-! #### Sys2Proof/Machine/Ops.lean -/

@[simp ↓] theorem State.wr_spares (ha : asp.outside [.regs]) (h₀ : s₀.Spares asp s) (r : RegDesc) (ix : List Nat) (v : Word) :
    s₀.Spares asp (s.wr r ix v) := by
  unfold State.wr; simp [ha, h₀]
@[simp ↓] theorem State.fw_spares (ha : asp.outside [.regs]) (h₀ : s₀.Spares asp s) (f : Fld) (ix : List Nat) (v : Nat) :
    s₀.Spares asp (s.fw f ix v) := by
  unfold State.fw; simp [ha, h₀]
@[simp ↓] theorem State.fset_spares (ha : asp.outside [.regs]) (h₀ : s₀.Spares asp s) (f : Fld) (ix : List Nat) (b : Bool) :
    s₀.Spares asp (s.fset f ix b) := by
  unfold State.fset; simp [ha, h₀]
@[simp ↓] theorem State.bump_spares (ha : asp.outside [.regs]) (h₀ : s₀.Spares asp s) (r : RegDesc) (ix : List Nat) (n : Nat) :
    s₀.Spares asp (s.bump r ix n) := by
  unfold State.bump; simp [ha, h₀]
@[simp ↓] theorem State.bumpSat_spares (ha : asp.outside [.regs]) (h₀ : s₀.Spares asp s) (r : RegDesc) (ix : List Nat) (n : Nat) :
    s₀.Spares asp (s.bumpSat r ix n) := by
  unfold State.bumpSat; simp [ha, h₀]
@[simp ↓] theorem State.maxTo_spares (ha : asp.outside [.regs]) (h₀ : s₀.Spares asp s) (r : RegDesc) (ix : List Nat) (v : Nat) :
    s₀.Spares asp (s.maxTo r ix v) := by
  unfold State.maxTo; simp [ha, h₀]
@[simp ↓] theorem State.wrSoft_spares (ha : asp.outside [.regs]) (h₀ : s₀.Spares asp s) (r : RegDesc) (ix : List Nat) (v : Word) :
    s₀.Spares asp (s.wrSoft r ix v) := by
  unfold State.wrSoft; simp [ha, h₀]
@[simp ↓] theorem State.emit_spares (ha : asp.outside [.out]) (h₀ : s₀.Spares asp s) (e : Emit) : s₀.Spares asp (s.emit e) := by
  unfold State.emit; simp [ha, h₀]
@[simp ↓] theorem State.emits_spares (ha : asp.outside [.out]) (h₀ : s₀.Spares asp s) (es : List Emit) :
    s₀.Spares asp (s.emits es) := by
  unfold State.emits; simp [ha, h₀]
@[simp ↓] theorem State.freeBit_spares (h₀ : s₀.Spares asp s) : s₀.Spares asp s.freeBit.2 := by
  unfold State.freeBit; simp [h₀]
@[simp ↓] theorem State.freeBelow_spares (h₀ : s₀.Spares asp s) (n : Nat) : s₀.Spares asp (s.freeBelow n).2 := by
  unfold State.freeBelow; simp [h₀]
@[simp ↓] theorem State.freeWord_spares (h₀ : s₀.Spares asp s) : s₀.Spares asp s.freeWord.2 := by
  unfold State.freeWord; simp [h₀]
@[simp ↓] theorem State.spoil_spares (h₀ : s₀.Spares asp s) (k : Nat) : s₀.Spares asp (s.spoil k) := by
  unfold State.spoil; simp [h₀]
@[simp ↓] theorem tick_spares (ha : asp.outside [.inv]) (h₀ : s₀.Spares asp s) : s₀.Spares asp (tick s) := by
  unfold tick; simp [ha, h₀]
@[simp ↓] theorem State.live_spares (h₀ : s₀.Spares asp s) (f : State → State) (hf : ∀ (s : State), s.Spares asp (f s)) :
    s₀.Spares asp (s.live f) := by
  unfold State.live; simp [h₀, fun {s} (h : s₀.Spares asp s) => h.trans (hf s)]
@[simp ↓] theorem State.setFifo_spares (ha : asp.outside [.fifos]) (h₀ : s₀.Spares asp s) (k : Nat) (x : Fifo) :
    s₀.Spares asp (s.setFifo k x) := by
  unfold State.setFifo; simp [ha, h₀]
@[simp ↓] theorem State.setThread_spares (ha : asp.outside [.threads]) (h₀ : s₀.Spares asp s) (t : Nat) (x : Thread) :
    s₀.Spares asp (s.setThread t x) := by
  unfold State.setThread; simp [ha, h₀]
@[simp ↓] theorem State.setEngine_spares (ha : asp.outside [.engines]) (h₀ : s₀.Spares asp s) (g : Nat) (x : Engine) :
    s₀.Spares asp (s.setEngine g x) := by
  unfold State.setEngine; simp [ha, h₀]
@[simp ↓] theorem State.setCluster_spares (ha : asp.outside [.clusters]) (h₀ : s₀.Spares asp s) (c : Nat) (x : Cluster) :
    s₀.Spares asp (s.setCluster c x) := by
  unfold State.setCluster; simp [ha, h₀]
@[simp ↓] theorem State.setOp_spares (ha : asp.outside [.ops]) (h₀ : s₀.Spares asp s) (k : Nat) (x : Op) :
    s₀.Spares asp (s.setOp k x) := by
  unfold State.setOp; simp [ha, h₀]
@[simp ↓] theorem State.setPort_spares (ha : asp.outside [.ports]) (h₀ : s₀.Spares asp s) (p : Nat) (x : Port) :
    s₀.Spares asp (s.setPort p x) := by
  unfold State.setPort; simp [ha, h₀]

/-! #### Sys2Proof/Machine/Pewter.lean -/

@[simp ↓] theorem State.accAdd_spares (h₀ : s₀.Spares asp s) (off n v : Nat) : s₀.Spares asp (s.accAdd off n v) := by
  unfold State.accAdd; simp [h₀]
@[simp ↓] theorem State.lifeEvent_spares (h₀ : s₀.Spares asp s) (src code : Nat) : s₀.Spares asp (s.lifeEvent src code) := by
  unfold State.lifeEvent; split <;> simp [h₀]
@[simp ↓] theorem State.commitAcc_spares (ha : asp.outside [.regs, .dev]) (h₀ : s₀.Spares asp s) : s₀.Spares asp s.commitAcc := by
  unfold State.commitAcc; simp (maxDischargeDepth := 40) [ha, h₀]
@[simp ↓] theorem State.writeSet_spares (ha : asp.outside [.dev]) (h₀ : s₀.Spares asp s) : s₀.Spares asp s.writeSet := by
  unfold State.writeSet; simp (maxDischargeDepth := 40) [ha, h₀]
@[simp ↓] theorem State.writeLog_spares (ha : asp.outside [.dev]) (h₀ : s₀.Spares asp s) : s₀.Spares asp s.writeLog := by
  unfold State.writeLog; simp (maxDischargeDepth := 40) [ha, h₀]
@[simp ↓] theorem State.recordRetirement_spares (ha : asp.outside [.dev]) (h₀ : s₀.Spares asp s) :
    s₀.Spares asp s.recordRetirement := by
  unfold State.recordRetirement; simp [ha, h₀]
theorem State.retired_spares (ha : asp.outside [.engines, .dev, .ports, .lanes]) (h₀ : s₀.Spares asp s) (l : SMap Lane)
    (p : SMap Port) (e : SMap Engine) (d : Dev) :
    s₀.Spares asp { s with lanes := l, ports := p, engines := e, dev := d } :=
  State.lanes_spares ha.2.2.2.1 (State.ports_spares ha.2.2.1 (State.engines_spares ha.1 (State.dev_spares ha.2.1 h₀ d) e) p) l
@[simp ↓] theorem State.restoreRetired_spares (ha : asp.outside [.engines, .dev, .ports, .lanes]) (h₀ : s₀.Spares asp s) :
    s₀.Spares asp s.restoreRetired := by
  -- The kernel cannot check the definition's equation at a state (it is too deep), so it is taken as one between functions.
  obtain ⟨f, hf⟩ : ∃ f, f = State.restoreRetired := ⟨_, rfl⟩
  have hfs := congrFun hf s
  delta State.restoreRetired at hf
  have hs := congrFun hf s
  beta_reduce at hs
  rw [← hfs, hs]
  generalize s.bestSet = b
  rcases b with _ | ⟨seq, bs⟩
  · exact State.dev_spares ha.2.1 h₀ _
  · exact State.retired_spares ha h₀ _ _ _ _
@[simp ↓] theorem State.loadLife_spares (ha : asp.outside [.regs, .dev]) (h₀ : s₀.Spares asp s) : s₀.Spares asp s.loadLife := by
  unfold State.loadLife; simp (maxDischargeDepth := 40) [ha, h₀]

/-! #### Sys2Proof/Machine/Monitor.lean -/

@[simp ↓] theorem State.grow_spares (ha : asp.outside [.regs]) (h₀ : s₀.Spares asp s) (r : RegDesc) (ix : List Nat) (n : Nat) :
    s₀.Spares asp (s.grow r ix n) := by
  unfold State.grow; simp [ha, h₀]
@[simp ↓] theorem State.pmuEng_spares (ha : asp.outside [.regs]) (h₀ : s₀.Spares asp s) (g ev level : Nat) (v : Nat) :
    s₀.Spares asp (s.pmuEng g ev level v) := by
  unfold State.pmuEng; simp (maxDischargeDepth := 40) [ha, h₀]
@[simp ↓] theorem State.pmuUnit_spares (ha : asp.outside [.regs]) (h₀ : s₀.Spares asp s) (u n ev v : Nat) :
    s₀.Spares asp (s.pmuUnit u n ev v) := by
  unfold State.pmuUnit; simp (maxDischargeDepth := 40) [ha, h₀]
@[simp ↓] theorem State.pmuTile_spares (ha : asp.outside [.regs]) (h₀ : s₀.Spares asp s) (t ev : Nat) (v : Nat) :
    s₀.Spares asp (s.pmuTile t ev v) := by
  unfold State.pmuTile; simp [ha, h₀]
@[simp ↓] theorem State.pmuPort_spares (ha : asp.outside [.regs]) (h₀ : s₀.Spares asp s) (p ev : Nat) (v : Nat) :
    s₀.Spares asp (s.pmuPort p ev v) := by
  unfold State.pmuPort; simp [ha, h₀]
@[simp ↓] theorem State.pmuAtt_spares (ha : asp.outside [.regs]) (h₀ : s₀.Spares asp s) (a ev : Nat) (v : Nat) :
    s₀.Spares asp (s.pmuAtt a ev v) := by
  unfold State.pmuAtt; simp [ha, h₀]
@[simp ↓] theorem State.pmuAml_spares (ha : asp.outside [.regs]) (h₀ : s₀.Spares asp s) (u ev : Nat) (v : Nat) :
    s₀.Spares asp (s.pmuAml u ev v) := by
  unfold State.pmuAml; simp [ha, h₀]
@[simp ↓] theorem State.pmuCluster_spares (ha : asp.outside [.regs]) (h₀ : s₀.Spares asp s) (c ev : Nat) (v : Nat) :
    s₀.Spares asp (s.pmuCluster c ev v) := by
  unfold State.pmuCluster; simp [ha, h₀]
@[simp ↓] theorem State.histTake_spares (ha : asp.outside [.regs]) (h₀ : s₀.Spares asp s) (u v : Nat) :
    s₀.Spares asp (s.histTake u v) := by
  unfold State.histTake; simp (maxDischargeDepth := 40) [ha, h₀]
@[simp ↓] theorem State.histSample_spares (ha : asp.outside [.regs]) (h₀ : s₀.Spares asp s) (x : Sample) :
    s₀.Spares asp (s.histSample x) := by
  unfold State.histSample; simp (maxDischargeDepth := 40) [ha, h₀]
@[simp ↓] theorem State.histTime_spares (ha : asp.outside [.regs]) (h₀ : s₀.Spares asp s) (src inst : Nat) (from_ : Word) :
    s₀.Spares asp (s.histTime src inst from_) := by
  unfold State.histTime; simp [ha, h₀]
@[simp ↓] theorem State.histClear_spares (ha : asp.outside [.regs]) (h₀ : s₀.Spares asp s) (u : Nat) :
    s₀.Spares asp (s.histClear u) := by
  unfold State.histClear; simp (maxDischargeDepth := 40) [ha, h₀]

/-! #### Sys2Proof/Machine/WorkFifo.lean -/

@[simp ↓] theorem State.wfFull_spares (ha : asp.outside [.regs]) (h₀ : s₀.Spares asp s) (k : Nat) : s₀.Spares asp (s.wfFull k) := by
  unfold State.wfFull; simp [ha, h₀]
@[simp ↓] theorem State.wfCommit_spares (ha : asp.outside [.regs, .fifos]) (h₀ : s₀.Spares asp s) (k b : Nat) (it : Item) :
    s₀.Spares asp (s.wfCommit k b it) := by
  unfold State.wfCommit; simp [ha, h₀]
theorem State.wfStart_spares (ha : asp.outside [.fifos]) (h₀ : s₀.Spares asp s) (k : Nat) (reserveClass : Bool) (it : Item)
    (for_ : WriteFor) (ht : s.wfStart k reserveClass it for_ = some s') : s₀.Spares asp s' := by
  unfold State.wfStart at ht; (repeat' split at ht) <;> cases ht
  simp [ha, h₀]
@[simp ↓] theorem State.wfReserve_spares (ha : asp.outside [.fifos]) (h₀ : s₀.Spares asp s) (k id len : Nat) :
    s₀.Spares asp (s.wfReserve k id len) := by
  unfold State.wfReserve; simp [ha, h₀]
@[simp ↓] theorem State.wfRelease_spares (ha : asp.outside [.fifos]) (h₀ : s₀.Spares asp s) (k b id : Nat) :
    s₀.Spares asp (s.wfRelease k b id) := by
  unfold State.wfRelease; simp [ha, h₀]
@[simp ↓] theorem State.wfOffer_spares (ha : asp.outside [.regs, .fifos]) (h₀ : s₀.Spares asp s) (k : Nat) (reserveClass : Bool)
    (it : Item) (for_ : WriteFor) : s₀.Spares asp (s.wfOffer k reserveClass it for_) := by
  unfold State.wfOffer; split
  · exact State.wfStart_spares ha.2 h₀ _ _ _ _ ‹_›
  · simp (maxDischargeDepth := 40) [ha, h₀]
@[simp ↓] theorem State.wfTakeSpace_spares (ha : asp.outside [.fifos]) (h₀ : s₀.Spares asp s) (k i : Nat) :
    s₀.Spares asp (s.wfTakeSpace k i) := by
  unfold State.wfTakeSpace; dsimp only; split <;> simp [ha, h₀]
@[simp ↓] theorem State.wfTakeAll_spares (ha : asp.outside [.fifos]) (h₀ : s₀.Spares asp s) (k : Nat) :
    s₀.Spares asp (s.wfTakeAll k) := by
  unfold State.wfTakeAll; simp [ha, h₀]
@[simp ↓] theorem bankSwap_spares (ha : asp.outside [.regs, .fifos]) (h₀ : s₀.Spares asp s) (c f : Nat) :
    s₀.Spares asp (bankSwap c f s) := by
  unfold bankSwap; simp (maxDischargeDepth := 40) [ha, h₀]
theorem State.wfTake_spares (ha : asp.outside [.regs, .fifos]) (h₀ : s₀.Spares asp s) (k : Nat) (ht : s.wfTake k = some (a, s')) :
    s₀.Spares asp s' := by
  unfold State.wfTake at ht; dsimp only at ht; (repeat' split at ht) <;> cases ht
  simp (maxDischargeDepth := 40) [ha, h₀]
@[simp ↓] theorem wfCfgWrite_spares (ha : asp.outside [.regs, .fifos]) (h₀ : s₀.Spares asp s) (c f : Nat) (v : Word) :
    s₀.Spares asp (wfCfgWrite c f v s) := by
  unfold wfCfgWrite; simp (maxDischargeDepth := 40) [ha, h₀]

/-! #### Sys2Proof/Machine/Tungsten.lean -/

@[simp ↓] theorem State.setHrec_spares (ha : asp.outside [.tgf]) (h₀ : s₀.Spares asp s) (i : Nat) (r : ErrRec) :
    s₀.Spares asp (s.setHrec i r) := by
  unfold State.setHrec; simp [ha, h₀]
@[simp ↓] theorem State.discardAllHeld_spares (ha : asp.outside [.regs]) (h₀ : s₀.Spares asp s) : s₀.Spares asp s.discardAllHeld := by
  unfold State.discardAllHeld; simp (maxDischargeDepth := 40) [ha, h₀]
@[simp ↓] theorem State.haltAdapter_spares (ha : asp.outside [.regs, .tgf]) (h₀ : s₀.Spares asp s) : s₀.Spares asp s.haltAdapter := by
  unfold State.haltAdapter; simp [ha, h₀]
@[simp ↓] theorem State.react_spares (ha : asp.outside [.regs, .tgf, .out]) (h₀ : s₀.Spares asp s) (cls : Nat) :
    s₀.Spares asp (s.react cls) := by
  unfold State.react; simp (maxDischargeDepth := 40) [ha, h₀]
@[simp ↓] theorem State.sendFaultEvent_spares (ha : asp.outside [.regs, .tgf, .fifos]) (h₀ : s₀.Spares asp s) (body : List Byte) :
    s₀.Spares asp (s.sendFaultEvent body) := by
  unfold State.sendFaultEvent; dsimp only; split
  · simp (maxDischargeDepth := 40) [ha, h₀]
  · split
    · next heq =>
      split at heq
      · exact State.wfStart_spares (by simp [ha]) h₀ _ _ _ _ heq
      · cases heq
    · simp (maxDischargeDepth := 40) [ha, h₀]
@[simp ↓] theorem State.openRecord_spares (ha : asp.outside [.tgf]) (h₀ : s₀.Spares asp s) (e : Event) (freeze : Bool) :
    s₀.Spares asp (s.openRecord e freeze) := by
  unfold State.openRecord; simp [ha, h₀]
@[simp ↓] theorem State.countEvent_spares (ha : asp.outside [.regs]) (h₀ : s₀.Spares asp s) (e : Event) :
    s₀.Spares asp (s.countEvent e) := by
  unfold State.countEvent; simp [ha, h₀]
@[simp ↓] theorem State.afterFreeze_spares (ha : asp.outside [.regs, .tgf, .out]) (h₀ : s₀.Spares asp s) (e : Event) :
    s₀.Spares asp (s.afterFreeze e) := by
  unfold State.afterFreeze; dsimp only; (repeat' split) <;> simp (maxDischargeDepth := 40) [ha, h₀]
@[simp ↓] theorem State.present_spares (ha : asp.outside [.regs, .tgf, .fifos, .out]) (h₀ : s₀.Spares asp s) (e : Event) :
    s₀.Spares asp (s.present e) := by
  unfold State.present; dsimp only; (repeat' split) <;> simp (maxDischargeDepth := 40) [ha, h₀]
@[simp ↓] theorem State.report_spares (ha : asp.outside [.regs, .tgf, .fifos, .out]) (h₀ : s₀.Spares asp s) (src code : Nat)
    (info0 info1 : Nat) : s₀.Spares asp (s.report src code info0 info1) := by
  unfold State.report; simp [ha, h₀]
@[simp ↓] theorem mergeWindowEnd_spares (ha : asp.outside [.tgf]) (h₀ : s₀.Spares asp s) (i : Nat) :
    s₀.Spares asp (mergeWindowEnd i s) := by
  unfold mergeWindowEnd; simp [ha, h₀]
@[simp ↓] theorem histAck_spares (ha : asp.outside [.tgf]) (h₀ : s₀.Spares asp s) (seq : Nat) : s₀.Spares asp (histAck seq s) := by
  unfold histAck; split <;> simp [ha, h₀]
@[simp ↓] theorem unfreeze_spares (ha : asp.outside [.tgf]) (h₀ : s₀.Spares asp s) : s₀.Spares asp (unfreeze s) := by
  unfold unfreeze; simp [ha, h₀]
@[simp ↓] theorem inject_spares (ha : asp.outside [.regs, .tgf, .fifos, .out]) (h₀ : s₀.Spares asp s) (v : Word) :
    s₀.Spares asp (inject v s) := by
  unfold inject; simp (maxDischargeDepth := 40) [ha, h₀]
@[simp ↓] theorem injectLock_spares (ha : asp.outside [.regs]) (h₀ : s₀.Spares asp s) : s₀.Spares asp (injectLock s) := by
  unfold injectLock; simp [ha, h₀]
@[simp ↓] theorem faultEvent_spares (ha : asp.outside [.tgf, .fifos]) (h₀ : s₀.Spares asp s) : s₀.Spares asp (faultEvent s) := by
  unfold faultEvent; dsimp only; (repeat' split) <;> try assumption
  next heq _ => simp [ha, State.wfStart_spares (by simp [ha]) h₀ _ _ _ _ heq]
@[simp ↓] theorem txoff_spares (ha : asp.outside [.tgf]) (h₀ : s₀.Spares asp s) : s₀.Spares asp (txoff s) := by
  unfold txoff; split <;> simp [ha, h₀]

/-! #### Sys2Proof/Machine/HostOps.lean -/

@[simp ↓] theorem State.setFunc_spares (ha : asp.outside [.host]) (h₀ : s₀.Spares asp s) (f : Nat) (x : Func) :
    s₀.Spares asp (s.setFunc f x) := by
  unfold State.setFunc; simp [ha, h₀]
@[simp ↓] theorem State.setAtt_spares (ha : asp.outside [.host]) (h₀ : s₀.Spares asp s) (a : Nat) (x : Attach) :
    s₀.Spares asp (s.setAtt a x) := by
  unfold State.setAtt; simp [ha, h₀]
@[simp ↓] theorem State.hostWrite_spares (ha : asp.outside [.regs, .out]) (h₀ : s₀.Spares asp s) (f addr : Nat) (data : List Byte) :
    s₀.Spares asp (s.hostWrite f addr data) := by
  unfold State.hostWrite; simp [ha, h₀]
@[simp ↓] theorem State.hostRead_spares (ha : asp.outside [.regs, .out]) (h₀ : s₀.Spares asp s) (tag f addr len : Nat) :
    s₀.Spares asp (s.hostRead tag f addr len) := by
  unfold State.hostRead; simp [ha, h₀]
@[simp ↓] theorem State.hostGot_spares (ha : asp.outside [.regs]) (h₀ : s₀.Spares asp s) (f n : Nat) :
    s₀.Spares asp (s.hostGot f n) := by
  unfold State.hostGot; simp [ha, h₀]
@[simp ↓] theorem State.startExit_spares (ha : asp.outside [.regs, .host]) (h₀ : s₀.Spares asp s) (f : Nat) :
    s₀.Spares asp (s.startExit f) := by
  unfold State.startExit; simp (maxDischargeDepth := 40) [ha, h₀]
@[simp ↓] theorem State.traffic_spares (ha : asp.outside [.host]) (h₀ : s₀.Spares asp s) (f : Nat) : s₀.Spares asp (s.traffic f) := by
  unfold State.traffic; simp [ha, h₀]
@[simp ↓] theorem State.whenAwake_spares (ha : asp.outside [.regs, .host]) (h₀ : s₀.Spares asp s) (f : Nat) (k : State → State)
    (hk : ∀ (s : State), s.Spares asp (k s)) : s₀.Spares asp (s.whenAwake f k) := by
  unfold State.whenAwake; simp (maxDischargeDepth := 40) [ha, h₀, fun {s} (h : s₀.Spares asp s) => h.trans (hk s)]
@[simp ↓] theorem State.assertWake_spares (ha : asp.outside [.regs, .host, .out]) (h₀ : s₀.Spares asp s) :
    s₀.Spares asp s.assertWake := by
  unfold State.assertWake; simp (maxDischargeDepth := 40) [ha, h₀]
@[simp ↓] theorem State.requestWake_spares (ha : asp.outside [.regs, .host, .out]) (h₀ : s₀.Spares asp s) (f : Nat) :
    s₀.Spares asp (s.requestWake f) := by
  unfold State.requestWake; dsimp only; split <;> simp (maxDischargeDepth := 40) [ha, h₀]
@[simp ↓] theorem State.raiseIrq_spares (ha : asp.outside [.regs, .host, .out]) (h₀ : s₀.Spares asp s) (f v : Nat) :
    s₀.Spares asp (s.raiseIrq f v) := by
  unfold State.raiseIrq; simp [ha, h₀]
@[simp ↓] theorem msixSend_spares (ha : asp.outside [.regs, .host, .out]) (h₀ : s₀.Spares asp s) (f v : Nat) :
    s₀.Spares asp (msixSend f v s) := by
  unfold msixSend; simp (maxDischargeDepth := 40) [ha, h₀]
@[simp ↓] theorem State.hostErr_spares (ha : asp.outside [.regs, .tgf, .fifos, .out]) (h₀ : s₀.Spares asp s) (f st : Nat) :
    s₀.Spares asp (s.hostErr f st) := by
  unfold State.hostErr; simp (maxDischargeDepth := 40) [ha, h₀]
@[simp ↓] theorem State.notIssued_spares (ha : asp.outside [.regs]) (h₀ : s₀.Spares asp s) : s₀.Spares asp s.notIssued := by
  unfold State.notIssued; simp [ha, h₀]

/-! #### Sys2Proof/Machine/Operation.lean -/

@[simp ↓] theorem State.wakeOpwait_spares (ha : asp.outside [.threads]) (h₀ : s₀.Spares asp s) (k gen status : Nat) :
    s₀.Spares asp (s.wakeOpwait k gen status) := by
  unfold State.wakeOpwait; simp [ha, h₀]
@[simp ↓] theorem State.closeSlot_spares (ha : asp.outside [.aml]) (h₀ : s₀.Spares asp s) (k : Nat) :
    s₀.Spares asp (s.closeSlot k) := by
  unfold State.closeSlot; simp [ha, h₀]
@[simp ↓] theorem State.finish_spares (ha : asp.outside [.threads, .ops, .aml]) (h₀ : s₀.Spares asp s) (k status : Nat) :
    s₀.Spares asp (s.finish k status) := by
  unfold State.finish; simp (maxDischargeDepth := 40) [ha, h₀]
@[simp ↓] theorem State.settleFences_spares (ha : asp.outside [.threads, .ops, .aml]) (h₀ : s₀.Spares asp s) (fs : List Nat) :
    s₀.Spares asp (s.settleFences fs) := by
  unfold State.settleFences; simp (maxDischargeDepth := 40) [ha, h₀]
@[simp ↓] theorem State.complete_spares (ha : asp.outside [.threads, .ops, .aml]) (h₀ : s₀.Spares asp s) (k status : Nat) :
    s₀.Spares asp (s.complete k status) := by
  unfold State.complete; simp [ha, h₀]
@[simp ↓] theorem State.completeWith_spares (ha : asp.outside [.threads, .ops, .aml]) (h₀ : s₀.Spares asp s) (k status : Nat)
    (result : Word) (bytes : Nat) : s₀.Spares asp (s.completeWith k status result bytes) := by
  unfold State.completeWith; simp [ha, h₀]
@[simp ↓] theorem State.cancelTriggers_spares (ha : asp.outside [.threads, .clusters, .ops, .aml]) (h₀ : s₀.Spares asp s) :
    s₀.Spares asp s.cancelTriggers := by
  unfold State.cancelTriggers; simp (maxDischargeDepth := 40) [ha, h₀]
@[simp ↓] theorem State.voidRest_spares (ha : asp.outside [.ops]) (h₀ : s₀.Spares asp s) (k status : Nat) :
    s₀.Spares asp (s.voidRest k status) := by
  unfold State.voidRest; simp [ha, h₀]
@[simp ↓] theorem State.dropVoid_spares (ha : asp.outside [.ops]) (h₀ : s₀.Spares asp s) (k : Nat) : s₀.Spares asp (s.dropVoid k) := by
  unfold State.dropVoid; simp [ha, h₀]
@[simp ↓] theorem State.abortOp_spares (ha : asp.outside [.threads, .clusters, .ops, .aml]) (h₀ : s₀.Spares asp s) (k : Nat) :
    s₀.Spares asp (s.abortOp k).2 := by
  unfold State.abortOp; dsimp only; (repeat' split) <;> simp [ha, h₀]
@[simp ↓] theorem State.setPktRef_spares (ha : asp.outside [.clusters]) (h₀ : s₀.Spares asp s) (c r : Nat) (x : Option PktRef) :
    s₀.Spares asp (s.setPktRef c r x) := by
  unfold State.setPktRef; simp [ha, h₀]

/-! #### Sys2Proof/Machine/Xlt.lean -/

@[simp ↓] theorem State.askSetState_spares (ha : asp.outside [.ram]) (h₀ : s₀.Spares asp s) (ask st : Nat) :
    s₀.Spares asp (s.askSetState ask st) := by
  unfold State.askSetState; simp [ha, h₀]
@[simp ↓] theorem State.cachePut_spares (h₀ : s₀.Spares asp s) {α : Type} (ways : Nat) (same set : α → Bool) (e : α) (l : List α) :
    s₀.Spares asp (s.cachePut ways same set e l).2 := by
  unfold State.cachePut; simp [h₀]
@[simp ↓] theorem State.askOf_spares (ha : asp.outside [.regs, .clusters]) (h₀ : s₀.Spares asp s) (c ask : Nat) :
    s₀.Spares asp (s.askOf c ask).2 := by
  unfold State.askOf; dsimp only; split <;> simp (maxDischargeDepth := 40) [ha, h₀]
@[simp ↓] theorem State.setEngTlb_spares (ha : asp.outside [.engines]) (h₀ : s₀.Spares asp s) (w : EngTlb) (l : List TlbEntry) :
    s₀.Spares asp (s.setEngTlb w l) := by
  unfold State.setEngTlb; split <;> simp [ha, h₀]
@[simp ↓] theorem State.tlbLookup_spares (ha : asp.outside [.regs, .engines, .clusters]) (h₀ : s₀.Spares asp s) (c : Nat) (w : EngTlb)
    (ask va : Nat) : s₀.Spares asp (s.tlbLookup c w ask va).2 := by
  unfold State.tlbLookup; dsimp only; (repeat' split) <;> simp (maxDischargeDepth := 40) [ha, h₀]
@[simp ↓] theorem State.xlate_spares (ha : asp.outside [.regs, .engines, .clusters]) (h₀ : s₀.Spares asp s) (c : Nat) (w : EngTlb)
    (ask va need : Nat) (check : Bool) : s₀.Spares asp (s.xlate c w ask va need check).2 := by
  unfold State.xlate; dsimp only; (repeat' split) <;> simp [ha, h₀]
@[simp ↓] theorem State.addMiss_spares (ha : asp.outside [.clusters]) (h₀ : s₀.Spares asp s) (c ask va : Nat) (cl : XltClient) :
    s₀.Spares asp (s.addMiss c ask va cl) := by
  unfold State.addMiss; simp [ha, h₀]
@[simp ↓] theorem State.pwcBest_spares (ha : asp.outside [.regs, .clusters]) (h₀ : s₀.Spares asp s) (c ask va : Nat) :
    s₀.Spares asp (s.pwcBest c ask va).2 := by
  unfold State.pwcBest; dsimp only; split <;> simp [ha, h₀]
@[simp ↓] theorem State.walkAll_spares (ha : asp.outside [.regs, .clusters]) (h₀ : s₀.Spares asp s) (c : Nat) (wins : List (Nat × Nat))
    (b : List Byte) (ask va : Nat) (host : List (Nat × Nat)) : s₀.Spares asp (s.walkAll c wins b ask va host).2 := by
  unfold State.walkAll; (repeat' split) <;> try assumption
  all_goals exact .of_eq ‹_› (by simp [ha, h₀])
@[simp ↓] theorem State.fillL2_spares (ha : asp.outside [.clusters]) (h₀ : s₀.Spares asp s) (c : Nat) (e : TlbEntry) :
    s₀.Spares asp (s.fillL2 c e) := by
  unfold State.fillL2; simp [ha, h₀]
@[simp ↓] theorem State.fillPwc_spares (ha : asp.outside [.clusters]) (h₀ : s₀.Spares asp s) (c : Nat) (ps : List PwcEntry) :
    s₀.Spares asp (s.fillPwc c ps) := by
  unfold State.fillPwc; simp (maxDischargeDepth := 40) [ha, h₀]
@[simp ↓] theorem State.deliverWalk_spares (ha : asp.outside [.threads, .clusters, .ops]) (h₀ : s₀.Spares asp s) (c : Nat) (va : Nat)
    (cause : Option Nat) (cl : XltClient) (level : Nat) : s₀.Spares asp (s.deliverWalk c va cause cl level) := by
  unfold State.deliverWalk; dsimp only; (repeat' split) <;> simp [ha, h₀]
@[simp ↓] theorem State.pmuWalk_spares (ha : asp.outside [.regs]) (h₀ : s₀.Spares asp s) (cl : XltClient) :
    s₀.Spares asp (s.pmuWalk cl) := by
  unfold State.pmuWalk; split <;> simp [ha, h₀]
@[simp ↓] theorem walk_spares (ha : asp.outside [.regs, .clusters]) (h₀ : s₀.Spares asp s) (c : Nat) : s₀.Spares asp (walk c s) := by
  unfold walk; dsimp only; (repeat' split) <;> simp [ha, h₀]
@[simp ↓] theorem State.invalCluster_spares (ha : asp.outside [.engines, .clusters]) (h₀ : s₀.Spares asp s) (i : Inval) (c : Nat) :
    s₀.Spares asp (s.invalCluster i c) := by
  unfold State.invalCluster; simp [ha, h₀]
@[simp ↓] theorem State.startInval_spares (ha : asp.outside [.net]) (h₀ : s₀.Spares asp s) (scope ask va len : Nat) (op : Option Nat)
    (cmd : Option (Nat × Nat × Nat)) : s₀.Spares asp (s.startInval scope ask va len op cmd) := by
  unfold State.startInval; simp [ha, h₀]
@[simp ↓] theorem State.dropPend_spares (ha : asp.outside [.net]) (h₀ : s₀.Spares asp s) (ask : Nat) :
    s₀.Spares asp (s.dropPend ask) := by
  unfold State.dropPend; simp [ha, h₀]
@[simp ↓] theorem State.illegalTarget_spares (ha : asp.outside [.regs, .ram, .tgf, .fifos, .threads, .clusters, .ops, .net, .out])
    (h₀ : s₀.Spares asp s) (c ask level addr : Nat) : s₀.Spares asp (s.illegalTarget c ask level addr) := by
  unfold State.illegalTarget; simp (maxDischargeDepth := 40) [ha, h₀]
@[simp ↓] theorem walkDone_spares (ha : asp.outside [.regs, .ram, .tgf, .fifos, .threads, .engines, .clusters, .ops, .net, .out])
    (h₀ : s₀.Spares asp s) (c i : Nat) (host : List (Nat × Nat)) : s₀.Spares asp (walkDone c i host s) := by
  have wake {s : State} (h : s₀.Spares asp s) (w : Walk) (cause : Option Nat) (level : Nat) :
      s₀.Spares asp (w.clients.foldl (fun s k => s.deliverWalk c w.va cause k level) s) := by
    simp (maxDischargeDepth := 40) [ha, h]
  unfold walkDone
  extract_lets cl
  split
  · exact h₀
  next w _ =>
  refine State.ite_spares h₀ (State.ite_spares (by simp [ha, h₀]) ?_)
  split
  next b s0 hask =>
  have h₁ : s₀.Spares asp s0 := .of_eq hask (by simp [ha, h₀])
  dsimp only
  refine State.ite_spares (wake (by simp [ha, h₁]) _ _ _) ?_
  split
  next e ptrs s1 hw =>
    have h₂ : s₀.Spares asp s1 := .of_eq hw (by simp [ha, h₁])
    have h₃ : s₀.Spares asp ((s1.fillL2 c e).fillPwc c ptrs) := by simp [ha, h₂]
    refine wake (State.histTime_spares (by simp [ha]) (State.bump_spares (by simp [ha])
      (State.foldl_spares (fun s k => ?_) h₃ _) _ _ _) _ _ _) _ _ _
    split <;> simp [ha]
  next cause level addr s1 hw =>
    have h₂ : s₀.Spares asp s1 := .of_eq hw (by simp [ha, h₁])
    simp (maxDischargeDepth := 40) [ha, h₂]

/-! #### Sys2Proof/Machine/Engine.lean -/

@[simp ↓] theorem State.setReg_spares (ha : asp.outside [.threads]) (h₀ : s₀.Spares asp s) (t i : Nat) (v : Word) :
    s₀.Spares asp (s.setReg t i v) := by
  unfold State.setReg; simp [ha, h₀]
@[simp ↓] theorem State.nextPc_spares (ha : asp.outside [.threads]) (h₀ : s₀.Spares asp s) (t n : Nat) :
    s₀.Spares asp (s.nextPc t n) := by
  unfold State.nextPc; simp [ha, h₀]
@[simp ↓] theorem State.setWait_spares (ha : asp.outside [.threads]) (h₀ : s₀.Spares asp s) (t : Nat) (w : Wait) :
    s₀.Spares asp (s.setWait t w) := by
  unfold State.setWait; simp [ha, h₀]
@[simp ↓] theorem State.lostOverflow_spares (ha : asp.outside [.regs, .tgf, .fifos, .out]) (h₀ : s₀.Spares asp s) (c : Nat) :
    s₀.Spares asp (s.lostOverflow c) := by
  unfold State.lostOverflow; simp [ha, h₀]
@[simp ↓] theorem State.sendLost_spares (ha : asp.outside [.regs, .tgf, .fifos, .clusters, .out]) (h₀ : s₀.Spares asp s) (c : Nat)
    (it : Item) : s₀.Spares asp (s.sendLost c it) := by
  unfold State.sendLost; dsimp only; split
  · simp (maxDischargeDepth := 40) [ha, h₀]
  · split
    · next heq =>
      split at heq
      · exact State.wfStart_spares (by simp [ha]) h₀ _ _ _ _ heq
      · cases heq
    · simp (maxDischargeDepth := 40) [ha, h₀]
@[simp ↓] theorem State.freeThread_spares (ha : asp.outside [.threads]) (h₀ : s₀.Spares asp s) (t : Nat) :
    s₀.Spares asp (s.freeThread t) := by
  unfold State.freeThread; simp [ha, h₀]
@[simp ↓] theorem State.loseThread_spares (ha : asp.outside [.regs, .tgf, .fifos, .threads, .clusters, .out]) (h₀ : s₀.Spares asp s)
    (t cause : Nat) (epc : Word) : s₀.Spares asp (s.loseThread t cause epc) := by
  unfold State.loseThread; simp (maxDischargeDepth := 40) [ha, h₀]
@[simp ↓] theorem State.parityError_spares (ha : asp.outside [.regs, .tgf, .fifos, .engines, .out]) (h₀ : s₀.Spares asp s) (g : Nat) :
    s₀.Spares asp (s.parityError g) := by
  unfold State.parityError; simp (maxDischargeDepth := 40) [ha, h₀]
@[simp ↓] theorem State.takeExc_spares {s0 : State} (ha : asp.outside [.regs, .tgf, .fifos, .threads, .engines, .clusters, .out])
    (h₀ : s₀.Spares asp s0) (t code : Nat) (eval epc : Word) : s₀.Spares asp (s0.takeExc t code eval epc) := by
  unfold State.takeExc; simp (maxDischargeDepth := 40) [ha, h₀]
@[simp ↓] theorem State.tryAgain_spares (ha : asp.outside [.threads]) (h₀ : s₀.Spares asp s) (t : Nat) :
    s₀.Spares asp (s.tryAgain t) := by
  unfold State.tryAgain; simp [ha, h₀]
@[simp ↓] theorem State.fetchAt_spares (ha : asp.outside [.regs, .tgf, .fifos, .threads, .engines, .clusters, .out])
    (h₀ : s₀.Spares asp s) (t : Nat) (a : Word) : s₀.Spares asp (s.fetchAt t a).2 := by
  unfold State.fetchAt; dsimp only; (repeat' split) <;> simp (maxDischargeDepth := 40) [ha, h₀]
@[simp ↓] theorem State.sampleIssue_spares {before : State} {after : State} (ha : asp.outside [.dev]) (h₀ : s₀.Spares asp after)
    (t word : Nat) : s₀.Spares asp (before.sampleIssue after t word) := by
  unfold State.sampleIssue; dsimp only; (repeat' split) <;> simp (maxDischargeDepth := 40) [ha, h₀]
@[simp ↓] theorem State.issued_spares {after : State} {before : State} (ha : asp.outside [.regs, .threads, .dev])
    (h₀ : s₀.Spares asp after) (t word : Nat) : s₀.Spares asp (after.issued before t word) := by
  unfold State.issued; (repeat' split) <;> simp (maxDischargeDepth := 40) [ha, h₀]
@[simp ↓] theorem State.issue_spares (ha : asp.outside [.regs, .tgf, .fifos, .threads, .engines, .clusters, .dev, .out])
    (h₀ : s₀.Spares asp s) (t word len : Nat) (legal : Bool) (level : Nat) (srcs : List Nat) (k : State → State)
    (hk : ∀ (s : State), s.Spares asp (k s)) : s₀.Spares asp (s.issue t word len legal level srcs k) := by
  unfold State.issue
  extract_lets th
  refine State.ite_spares h₀ (State.ite_spares h₀ (State.ite_spares (by simp [ha, h₀]) ?_))
  split
  next ok1 s1 h1 =>
  have h₁ : s₀.Spares asp s1 := .of_eq h1 (by simp [ha, h₀])
  refine State.ite_spares h₁ ?_
  split
  next ok2 s2 h2 =>
  have h₂ : s₀.Spares asp s2 := .of_eq h2 (by simp [ha, h₁])
  refine State.ite_spares h₂ (State.ite_spares (by simp [ha, h₂]) (State.ite_spares (by simp [ha, h₂]) ?_))
  split
  · simp [ha, h₂]
  · have h₃ := (State.setWait_spares (by simp [ha]) h₂ t .ready).trans (hk _)
    simp [ha, h₃]
@[simp ↓] theorem State.writeNext_spares (ha : asp.outside [.threads]) (h₀ : s₀.Spares asp s) (t rd len : Nat) (v : Word) :
    s₀.Spares asp (s.writeNext t rd len v) := by
  unfold State.writeNext; simp [ha, h₀]
@[simp ↓] theorem State.startHandler_spares (ha : asp.outside [.ram, .threads]) (h₀ : s₀.Spares asp s) (t : Nat) (h : Handler)
    (it : Item) : s₀.Spares asp (s.startHandler t h it) := by
  unfold State.startHandler; simp [ha, h₀]
@[simp ↓] theorem dispatch_spares (ha : asp.outside [.regs, .ram, .tgf, .fifos, .threads, .clusters, .out]) (h₀ : s₀.Spares asp s)
    (c ecc : Nat) : s₀.Spares asp (dispatch c ecc s) := by
  unfold dispatch; dsimp only; (repeat' split) <;> try assumption
  all_goals
    have h₁ := State.wfTake_spares (by simp [ha]) h₀ _ ‹_›
    simp (maxDischargeDepth := 40) [ha, h₁]
@[simp ↓] theorem watchdog_spares (ha : asp.outside [.regs, .tgf, .fifos, .threads, .engines, .clusters, .out]) (h₀ : s₀.Spares asp s)
    (t : Nat) : s₀.Spares asp (watchdog t s) := by
  unfold watchdog; simp (maxDischargeDepth := 40) [ha, h₀]
@[simp ↓] theorem watchdogKill_spares (ha : asp.outside [.regs, .tgf, .fifos, .threads, .clusters, .out]) (h₀ : s₀.Spares asp s)
    (t : Nat) : s₀.Spares asp (watchdogKill t s) := by
  unfold watchdogKill; dsimp only; split <;> simp [ha, h₀]
@[simp ↓] theorem handlerLost_spares (ha : asp.outside [.fifos, .clusters]) (h₀ : s₀.Spares asp s) (c : Nat) :
    s₀.Spares asp (handlerLost c s) := by
  unfold handlerLost; (repeat' split) <;> try assumption
  next heq => simp [ha, State.wfStart_spares (by simp [ha]) h₀ _ _ _ _ heq]
@[simp ↓] theorem engineRetired_spares (ha : asp.outside [.regs, .tgf, .fifos, .engines, .dev, .out]) (h₀ : s₀.Spares asp s) (g : Nat) :
    s₀.Spares asp (engineRetired g s) := by
  unfold engineRetired; simp (maxDischargeDepth := 40) [ha, h₀]
@[simp ↓] theorem engineStop_spares (ha : asp.outside [.regs, .tgf, .fifos, .engines, .out]) (h₀ : s₀.Spares asp s) (g : Nat) :
    s₀.Spares asp (engineStop g s) := by
  unfold engineStop; simp (maxDischargeDepth := 40) [ha, h₀]
@[simp ↓] theorem htCommit_spares (ha : asp.outside [.regs, .ram]) (h₀ : s₀.Spares asp s) (c : Nat) : s₀.Spares asp (htCommit c s) := by
  unfold htCommit; simp (maxDischargeDepth := 40) [ha, h₀]
@[simp ↓] theorem State.icacheClear_spares (ha : asp.outside [.engines]) (h₀ : s₀.Spares asp s) (g : Nat) :
    s₀.Spares asp (s.icacheClear g) := by
  unfold State.icacheClear; simp [ha, h₀]
@[simp ↓] theorem icacheInv_spares (ha : asp.outside [.regs, .engines]) (h₀ : s₀.Spares asp s) (c : Nat) :
    s₀.Spares asp (icacheInv c s) := by
  unfold icacheInv; simp (maxDischargeDepth := 40) [ha, h₀]
@[simp ↓] theorem farLoadReturn_spares (ha : asp.outside [.regs, .tgf, .fifos, .threads, .engines, .clusters, .out])
    (h₀ : s₀.Spares asp s) (t st data : Nat) : s₀.Spares asp (farLoadReturn t st data s) := by
  unfold farLoadReturn; dsimp only; (repeat' split) <;> simp (maxDischargeDepth := 40) [ha, h₀]
@[simp ↓] theorem State.drained_spares (ha : asp.outside [.threads, .engines]) (h₀ : s₀.Spares asp s) (t kind : Nat) :
    s₀.Spares asp (s.drained t kind) := by
  unfold State.drained; split <;> simp (maxDischargeDepth := 40) [ha, h₀]
@[simp ↓] theorem farStorePerform_spares (ha : asp.outside [.regs, .ram, .threads, .engines, .out]) (h₀ : s₀.Spares asp s) (t i : Nat) :
    s₀.Spares asp (farStorePerform t i s) := by
  unfold farStorePerform; dsimp only; (repeat' split) <;> simp (maxDischargeDepth := 40) [ha, h₀]
@[simp ↓] theorem icacheFill_spares (ha : asp.outside [.regs, .tgf, .fifos, .threads, .engines, .clusters, .out]) (h₀ : s₀.Spares asp s)
    (t st : Nat) : s₀.Spares asp (icacheFill t st s) := by
  unfold icacheFill; dsimp only; split <;> simp (maxDischargeDepth := 40) [ha, h₀]

/-! #### Sys2Proof/Machine/Alu.lean -/

@[simp ↓] theorem aluReg_spares (ha : asp.outside [.regs, .tgf, .fifos, .threads, .engines, .clusters, .dev, .out])
    (h₀ : s₀.Spares asp s) (t rd rs1 rs2 fn : Nat) : s₀.Spares asp (aluReg t rd rs1 rs2 fn s) := by
  unfold aluReg; simp [ha, h₀]
@[simp ↓] theorem mulDiv_spares (ha : asp.outside [.regs, .tgf, .fifos, .threads, .engines, .clusters, .dev, .out])
    (h₀ : s₀.Spares asp s) (t rd rs1 rs2 fn : Nat) : s₀.Spares asp (mulDiv t rd rs1 rs2 fn s) := by
  unfold mulDiv; simp (maxDischargeDepth := 40) [ha, h₀]
@[simp ↓] theorem aluImm_spares (ha : asp.outside [.regs, .tgf, .fifos, .threads, .engines, .clusters, .dev, .out])
    (h₀ : s₀.Spares asp s) (t op rd rs1 imm imm2 : Nat) : s₀.Spares asp (aluImm t op rd rs1 imm imm2 s) := by
  unfold aluImm; simp [ha, h₀]

/-! #### Sys2Proof/Machine/Control.lean -/

@[simp ↓] theorem State.setPc_spares (ha : asp.outside [.threads]) (h₀ : s₀.Spares asp s) (t : Nat) (v : Word) :
    s₀.Spares asp (s.setPc t v) := by
  unfold State.setPc; simp [ha, h₀]
@[simp ↓] theorem branch_spares (ha : asp.outside [.regs, .tgf, .fifos, .threads, .engines, .clusters, .dev, .out])
    (h₀ : s₀.Spares asp s) (t op ra rb imm : Nat) : s₀.Spares asp (branch t op ra rb imm s) := by
  unfold branch; simp (maxDischargeDepth := 40) [ha, h₀]
@[simp ↓] theorem jal_spares (ha : asp.outside [.regs, .tgf, .fifos, .threads, .engines, .clusters, .dev, .out]) (h₀ : s₀.Spares asp s)
    (t rd imm : Nat) : s₀.Spares asp (jal t rd imm s) := by
  unfold jal; simp (maxDischargeDepth := 40) [ha, h₀]
@[simp ↓] theorem jalr_spares (ha : asp.outside [.regs, .tgf, .fifos, .threads, .engines, .clusters, .dev, .out]) (h₀ : s₀.Spares asp s)
    (t rd rs1 imm : Nat) : s₀.Spares asp (jalr t rd rs1 imm s) := by
  unfold jalr; simp (maxDischargeDepth := 40) [ha, h₀]
@[simp ↓] theorem fenceOp_spares (ha : asp.outside [.regs, .tgf, .fifos, .threads, .engines, .clusters, .dev, .out])
    (h₀ : s₀.Spares asp s) (kind t rd rs1 rs2 fn : Nat) : s₀.Spares asp (fenceOp kind t rd rs1 rs2 fn s) := by
  unfold fenceOp; simp (maxDischargeDepth := 40) [ha, h₀]
@[simp ↓] theorem fence_spares (ha : asp.outside [.regs, .tgf, .fifos, .threads, .engines, .clusters, .dev, .out])
    (h₀ : s₀.Spares asp s) (t rd rs1 rs2 fn : Nat) : s₀.Spares asp (fence t rd rs1 rs2 fn s) := by
  unfold fence; simp [ha, h₀]
@[simp ↓] theorem fenceSt_spares (ha : asp.outside [.regs, .tgf, .fifos, .threads, .engines, .clusters, .dev, .out])
    (h₀ : s₀.Spares asp s) (t rd rs1 rs2 fn : Nat) : s₀.Spares asp (fenceSt t rd rs1 rs2 fn s) := by
  unfold fenceSt; simp [ha, h₀]
@[simp ↓] theorem fenceI_spares (ha : asp.outside [.regs, .tgf, .fifos, .threads, .engines, .clusters, .dev, .out])
    (h₀ : s₀.Spares asp s) (t rd rs1 rs2 fn : Nat) : s₀.Spares asp (fenceI t rd rs1 rs2 fn s) := by
  unfold fenceI; simp [ha, h₀]
@[simp ↓] theorem State.csrSet_spares (ha : asp.outside [.threads]) (h₀ : s₀.Spares asp s) (t csr : Nat) (v : Word) :
    s₀.Spares asp (s.csrSet t csr v) := by
  unfold State.csrSet; split <;> simp [ha, h₀]
@[simp ↓] theorem csrOp_spares (ha : asp.outside [.regs, .tgf, .fifos, .threads, .engines, .clusters, .dev, .out])
    (h₀ : s₀.Spares asp s) (kind t rd rs1 csr : Nat) : s₀.Spares asp (csrOp kind t rd rs1 csr s) := by
  unfold csrOp; simp (maxDischargeDepth := 40) [ha, h₀]
@[simp ↓] theorem csrr_spares (ha : asp.outside [.regs, .tgf, .fifos, .threads, .engines, .clusters, .dev, .out]) (h₀ : s₀.Spares asp s)
    (t rd rs1 csr kind : Nat) : s₀.Spares asp (csrr t rd rs1 csr kind s) := by
  unfold csrr; simp [ha, h₀]
@[simp ↓] theorem csrw_spares (ha : asp.outside [.regs, .tgf, .fifos, .threads, .engines, .clusters, .dev, .out]) (h₀ : s₀.Spares asp s)
    (t rd rs1 csr : Nat) : s₀.Spares asp (csrw t rd rs1 csr s) := by
  unfold csrw; simp [ha, h₀]
@[simp ↓] theorem csrs_spares (ha : asp.outside [.regs, .tgf, .fifos, .threads, .engines, .clusters, .dev, .out]) (h₀ : s₀.Spares asp s)
    (t rd rs1 csr : Nat) : s₀.Spares asp (csrs t rd rs1 csr s) := by
  unfold csrs; simp [ha, h₀]
@[simp ↓] theorem csrc_spares (ha : asp.outside [.regs, .tgf, .fifos, .threads, .engines, .clusters, .dev, .out]) (h₀ : s₀.Spares asp s)
    (t rd rs1 csr : Nat) : s₀.Spares asp (csrc t rd rs1 csr s) := by
  unfold csrc; simp [ha, h₀]
@[simp ↓] theorem State.sysIssue_spares (ha : asp.outside [.regs, .tgf, .fifos, .threads, .engines, .clusters, .dev, .out])
    (h₀ : s₀.Spares asp s) (t kind rd rs1 arg : Nat) (legal : Bool) (level : Nat) (k : State → State)
    (hk : ∀ (s : State), s.Spares asp (k s)) : s₀.Spares asp (s.sysIssue t kind rd rs1 arg legal level k) := by
  exact State.issue_spares ha h₀ _ _ _ _ _ _ _ hk
@[simp ↓] theorem done_spares (ha : asp.outside [.regs, .tgf, .fifos, .threads, .engines, .clusters, .dev, .out]) (h₀ : s₀.Spares asp s)
    (t rd rs1 arg : Nat) : s₀.Spares asp (done t rd rs1 arg s) := by
  unfold done; simp (maxDischargeDepth := 40) [ha, h₀]
@[simp ↓] theorem sys_spares (ha : asp.outside [.regs, .tgf, .fifos, .threads, .engines, .clusters, .dev, .out]) (h₀ : s₀.Spares asp s)
    (t rd rs1 imm : Nat) : s₀.Spares asp (sys t rd rs1 imm s) := by
  unfold sys; simp [ha, h₀]
@[simp ↓] theorem brk_spares (ha : asp.outside [.regs, .tgf, .fifos, .threads, .engines, .clusters, .dev, .out]) (h₀ : s₀.Spares asp s)
    (t rd rs1 imm : Nat) : s₀.Spares asp (brk t rd rs1 imm s) := by
  unfold brk; simp [ha, h₀]
@[simp ↓] theorem eret_spares (ha : asp.outside [.regs, .tgf, .fifos, .threads, .engines, .clusters, .dev, .out]) (h₀ : s₀.Spares asp s)
    (t rd rs1 arg : Nat) : s₀.Spares asp (eret t rd rs1 arg s) := by
  unfold eret; simp (maxDischargeDepth := 40) [ha, h₀]
@[simp ↓] theorem pause_spares (ha : asp.outside [.regs, .tgf, .fifos, .threads, .engines, .clusters, .dev, .out])
    (h₀ : s₀.Spares asp s) (t rd rs1 imm kind : Nat) : s₀.Spares asp (pause t rd rs1 imm kind s) := by
  unfold pause; simp (maxDischargeDepth := 40) [ha, h₀]

/-! #### Sys2Proof/Machine/Packet.lean -/

@[simp ↓] theorem State.toTile_spares (ha : asp.outside [.regs, .route]) (h₀ : s₀.Spares asp s) (t : Nat) (x : RPkt) :
    s₀.Spares asp (s.toTile t x) := by
  unfold State.toTile; simp (maxDischargeDepth := 40) [ha, h₀]

/-! #### Sys2Proof/Machine/Framing.lean -/

@[simp ↓] theorem State.setTx_spares (ha : asp.outside [.ports]) (h₀ : s₀.Spares asp s) (p : Nat) (f : LinkTx → LinkTx) :
    s₀.Spares asp (s.setTx p f) := by
  unfold State.setTx; simp [ha, h₀]
@[simp ↓] theorem State.setRxl_spares (ha : asp.outside [.ports]) (h₀ : s₀.Spares asp s) (p : Nat) (f : LinkRx → LinkRx) :
    s₀.Spares asp (s.setRxl p f) := by
  unfold State.setRxl; simp [ha, h₀]
@[simp ↓] theorem State.toLine_spares (ha : asp.outside [.ports, .out]) (h₀ : s₀.Spares asp s) (p : Nat) (bs : List Byte) :
    s₀.Spares asp (s.toLine p bs) := by
  unfold State.toLine; simp (maxDischargeDepth := 40) [ha, h₀]
@[simp ↓] theorem State.sendSlot_spares (ha : asp.outside [.regs, .ports, .out]) (h₀ : s₀.Spares asp s) (p lseq ctype chc : Nat)
    (csh : Bool) (body : List Byte) : s₀.Spares asp (s.sendSlot p lseq ctype chc csh body) := by
  unfold State.sendSlot; simp (maxDischargeDepth := 40) [ha, h₀]
@[simp ↓] theorem State.sendOs_spares (ha : asp.outside [.regs, .ports, .out]) (h₀ : s₀.Spares asp s) (p : Nat) (body : List Byte) :
    s₀.Spares asp (s.sendOs p body) := by
  unfold State.sendOs; simp [ha, h₀]
@[simp ↓] theorem State.sendOsN_spares (ha : asp.outside [.regs, .ports, .out]) (h₀ : s₀.Spares asp s) (p : Nat) (body : List Byte)
    (n : Nat) : s₀.Spares asp (s.sendOsN p body n) := by
  induction n generalizing s with
  | zero => exact h₀
  | succ n ih => unfold State.sendOsN; simp [ha, h₀, ih]
@[simp ↓] theorem State.sendIdle_spares (ha : asp.outside [.regs, .ports, .out]) (h₀ : s₀.Spares asp s) (p : Nat) :
    s₀.Spares asp (s.sendIdle p) := by
  unfold State.sendIdle; simp [ha, h₀]
@[simp ↓] theorem State.sendFault_spares (ha : asp.outside [.regs, .ports, .out]) (h₀ : s₀.Spares asp s) (p reason : Nat) :
    s₀.Spares asp (s.sendFault p reason) := by
  unfold State.sendFault; simp [ha, h₀]
@[simp ↓] theorem State.toTimeSlot_spares (ha : asp.outside [.regs, .ports, .out]) (h₀ : s₀.Spares asp s) (p : Nat) (n : Nat) :
    s₀.Spares asp (s.toTimeSlot p n) := by
  induction n generalizing s with
  | zero => exact h₀
  | succ n ih => unfold State.toTimeSlot; simp (maxDischargeDepth := 40) [ha, h₀, ih]
@[simp ↓] theorem State.sendTime_spares (ha : asp.outside [.regs, .ports, .out]) (h₀ : s₀.Spares asp s) (p : Nat) (rec_ : Emit)
    (body : List Byte) : s₀.Spares asp (s.sendTime p rec_ body) := by
  unfold State.sendTime; simp (maxDischargeDepth := 40) [ha, h₀]

/-! #### Sys2Proof/Machine/Invar.lean -/

@[simp ↓] theorem State.setInv_spares (ha : asp.outside [.inv]) (h₀ : s₀.Spares asp s) (f : Invar → Invar) :
    s₀.Spares asp (s.setInv f) := by
  unfold State.setInv; simp [ha, h₀]
@[simp ↓] theorem State.setPtime_spares (ha : asp.outside [.inv]) (h₀ : s₀.Spares asp s) (p : Nat) (x : PortTime) :
    s₀.Spares asp (s.setPtime p x) := by
  unfold State.setPtime; simp [ha, h₀]
@[simp ↓] theorem State.invEvent_spares (ha : asp.outside [.regs, .tgf, .fifos, .out]) (h₀ : s₀.Spares asp s) (bit code : Nat) :
    s₀.Spares asp (s.invEvent bit code) := by
  unfold State.invEvent; simp [ha, h₀]
@[simp ↓] theorem State.updSpec_spares (ha : asp.outside [.regs, .inv, .tgf, .fifos, .out]) (h₀ : s₀.Spares asp s) :
    s₀.Spares asp s.updSpec := by
  unfold State.updSpec; simp (maxDischargeDepth := 40) [ha, h₀]
@[simp ↓] theorem State.sendAnnounce_spares (ha : asp.outside [.regs, .ports, .out]) (h₀ : s₀.Spares asp s) :
    s₀.Spares asp s.sendAnnounce := by
  unfold State.sendAnnounce; split <;> simp [ha, h₀]
@[simp ↓] theorem State.setParent_spares (ha : asp.outside [.regs, .inv, .tgf, .fifos, .out]) (h₀ : s₀.Spares asp s) (p : Nat) :
    s₀.Spares asp (s.setParent p) := by
  unfold State.setParent; simp (maxDischargeDepth := 40) [ha, h₀]
@[simp ↓] theorem State.enterTime_spares (ha : asp.outside [.inv]) (h₀ : s₀.Spares asp s) (t : TimeState) :
    s₀.Spares asp (s.enterTime t) := by
  unfold State.enterTime; simp [ha, h₀]
@[simp ↓] theorem State.enterHoldover_spares (ha : asp.outside [.regs, .inv, .tgf, .fifos, .out]) (h₀ : s₀.Spares asp s) :
    s₀.Spares asp s.enterHoldover := by
  unfold State.enterHoldover; simp (maxDischargeDepth := 40) [ha, h₀]
@[simp ↓] theorem State.enterUnsync_spares (ha : asp.outside [.regs, .inv, .tgf, .fifos, .out]) (h₀ : s₀.Spares asp s) :
    s₀.Spares asp s.enterUnsync := by
  unfold State.enterUnsync; simp (maxDischargeDepth := 40) [ha, h₀]
@[simp ↓] theorem State.adoptRoot_spares (ha : asp.outside [.regs, .inv, .tgf, .fifos, .out]) (h₀ : s₀.Spares asp s) (c : Cand)
    (gen seq : Nat) : s₀.Spares asp (s.adoptRoot c gen seq) := by
  unfold State.adoptRoot; simp (maxDischargeDepth := 40) [ha, h₀]
@[simp ↓] theorem State.becomeRoot_spares (ha : asp.outside [.regs, .inv, .tgf, .fifos, .ports, .out]) (h₀ : s₀.Spares asp s) :
    s₀.Spares asp s.becomeRoot := by
  unfold State.becomeRoot; simp (maxDischargeDepth := 40) [ha, h₀]
@[simp ↓] theorem State.updStandby_spares (ha : asp.outside [.inv]) (h₀ : s₀.Spares asp s) (a : Announce) :
    s₀.Spares asp (s.updStandby a) := by
  unfold State.updStandby; dsimp only; split <;> simp [ha, h₀]
@[simp ↓] theorem State.chooseParent_spares (ha : asp.outside [.regs, .inv, .tgf, .fifos, .out]) (h₀ : s₀.Spares asp s) :
    s₀.Spares asp s.chooseParent := by
  unfold State.chooseParent; (repeat' split) <;> simp [ha, h₀]
@[simp ↓] theorem State.awaited_spares (ha : asp.outside [.inv]) (h₀ : s₀.Spares asp s) (dn : Nat) : s₀.Spares asp (s.awaited dn) := by
  unfold State.awaited; split <;> simp [ha, h₀]
@[simp ↓] theorem announceReceived_spares (ha : asp.outside [.regs, .inv, .tgf, .fifos, .ports, .out]) (h₀ : s₀.Spares asp s) (p : Nat)
    (a : Announce) : s₀.Spares asp (announceReceived p a s) := by
  unfold announceReceived
  refine State.ite_spares h₀ ?_
  extract_lets x s0 self j s1 s2 s3 s4 s5 s6
  have h0 : s₀.Spares asp s0 := by unfold s0; simp [ha, h₀]
  have h1 : s₀.Spares asp s1 := by unfold s1; simp (maxDischargeDepth := 40) [ha, h0]
  have h3 : s₀.Spares asp s3 := by unfold s3 s2; simp (maxDischargeDepth := 40) [ha, h1]
  have h5 : s₀.Spares asp s5 := by unfold s5 s4; simp (maxDischargeDepth := 40) [ha, h3]
  have h6 : s₀.Spares asp s6 := by unfold s6; split <;> simp (maxDischargeDepth := 40) [ha, h5]
  simp (maxDischargeDepth := 40) [ha, h6]
@[simp ↓] theorem sync_spares (ha : asp.outside [.regs, .inv, .ports, .out]) (h₀ : s₀.Spares asp s) (p f : Nat) :
    s₀.Spares asp (sync p f s) := by
  unfold sync; simp (maxDischargeDepth := 40) [ha, h₀]
@[simp ↓] theorem syncReceived_spares (ha : asp.outside [.regs, .ports, .out]) (h₀ : s₀.Spares asp s) (p id f dt : Nat) :
    s₀.Spares asp (syncReceived p id f dt s) := by
  unfold syncReceived; simp [ha, h₀]
@[simp ↓] theorem State.servo_spares (ha : asp.outside [.regs, .inv]) (h₀ : s₀.Spares asp s) (offset : Int) :
    s₀.Spares asp (s.servo offset) := by
  unfold State.servo; simp [ha, h₀]
@[simp ↓] theorem State.wrSigned_spares (ha : asp.outside [.regs]) (h₀ : s₀.Spares asp s) (r : RegDesc) (ix : List Nat) (v : Int) :
    s₀.Spares asp (s.wrSigned r ix v) := by
  unfold State.wrSigned; simp (maxDischargeDepth := 40) [ha, h₀]
@[simp ↓] theorem State.parentExchange_spares (ha : asp.outside [.regs, .inv, .tgf, .fifos, .out]) (h₀ : s₀.Spares asp s) (seen : Nat)
    (offset : Int) : s₀.Spares asp (s.parentExchange seen offset) := by
  unfold State.parentExchange; dsimp only; (repeat' split) <;> simp (maxDischargeDepth := 40) [ha, h₀]
@[simp ↓] theorem syncReplyReceived_spares (ha : asp.outside [.regs, .inv, .tgf, .fifos, .out]) (h₀ : s₀.Spares asp s)
    (p id t2 t3 f : Nat) : s₀.Spares asp (syncReplyReceived p id t2 t3 f s) := by
  unfold syncReplyReceived; dsimp only; split <;> simp (maxDischargeDepth := 40) [ha, h₀]
@[simp ↓] theorem exchangeLost_spares (ha : asp.outside [.inv]) (h₀ : s₀.Spares asp s) (p : Nat) :
    s₀.Spares asp (exchangeLost p s) := by
  unfold exchangeLost; dsimp only; split <;> simp [ha, h₀]
@[simp ↓] theorem announce_spares (ha : asp.outside [.regs, .inv, .ports, .out]) (h₀ : s₀.Spares asp s) :
    s₀.Spares asp (announce s) := by
  unfold announce; simp (maxDischargeDepth := 40) [ha, h₀]
@[simp ↓] theorem rootStale_spares (ha : asp.outside [.regs, .inv, .tgf, .fifos, .ports, .out]) (h₀ : s₀.Spares asp s) :
    s₀.Spares asp (rootStale s) := by
  unfold rootStale; split <;> simp (maxDischargeDepth := 40) [ha, h₀]
@[simp ↓] theorem standbyWaitExpiry_spares (ha : asp.outside [.regs, .inv, .tgf, .fifos, .ports, .out]) (h₀ : s₀.Spares asp s) :
    s₀.Spares asp (standbyWaitExpiry s) := by
  unfold standbyWaitExpiry; split <;> simp (maxDischargeDepth := 40) [ha, h₀]
@[simp ↓] theorem listenExpiry_spares (ha : asp.outside [.regs, .inv, .tgf, .fifos, .ports, .out]) (h₀ : s₀.Spares asp s) :
    s₀.Spares asp (listenExpiry s) := by
  unfold listenExpiry; (repeat' split) <;> simp (maxDischargeDepth := 40) [ha, h₀]
@[simp ↓] theorem ftStep_spares (ha : asp.outside [.regs, .inv]) (h₀ : s₀.Spares asp s) : s₀.Spares asp (ftStep s) := by
  unfold ftStep; dsimp only; (repeat' split) <;> simp (maxDischargeDepth := 40) [ha, h₀]
@[simp ↓] theorem acquireComplete_spares (ha : asp.outside [.regs, .inv, .tgf, .fifos, .out]) (h₀ : s₀.Spares asp s) :
    s₀.Spares asp (acquireComplete s) := by
  unfold acquireComplete; split <;> simp (maxDischargeDepth := 40) [ha, h₀]
@[simp ↓] theorem parentLost_spares (ha : asp.outside [.regs, .inv, .tgf, .fifos, .out]) (h₀ : s₀.Spares asp s) :
    s₀.Spares asp (parentLost s) := by
  unfold parentLost; (repeat' split) <;> simp (maxDischargeDepth := 40) [ha, h₀]
@[simp ↓] theorem holdoverClear_spares (ha : asp.outside [.regs, .inv, .tgf, .fifos, .out]) (h₀ : s₀.Spares asp s) :
    s₀.Spares asp (holdoverClear s) := by
  unfold holdoverClear; simp (maxDischargeDepth := 40) [ha, h₀]
@[simp ↓] theorem timeHoldoverLong_spares (ha : asp.outside [.regs, .inv, .tgf, .fifos, .out]) (h₀ : s₀.Spares asp s) :
    s₀.Spares asp (timeHoldoverLong s) := by
  unfold timeHoldoverLong; simp (maxDischargeDepth := 40) [ha, h₀]
@[simp ↓] theorem ppsEdge_spares (ha : asp.outside [.regs, .inv]) (h₀ : s₀.Spares asp s) (f : Nat) (ten : Bool) :
    s₀.Spares asp (ppsEdge f ten s) := by
  unfold ppsEdge; simp (maxDischargeDepth := 40) [ha, h₀]
@[simp ↓] theorem ppsLoss_spares (ha : asp.outside [.regs, .inv, .tgf, .fifos, .out]) (h₀ : s₀.Spares asp s) :
    s₀.Spares asp (ppsLoss s) := by
  unfold ppsLoss; split <;> simp (maxDischargeDepth := 40) [ha, h₀]
@[simp ↓] theorem ref10mLoss_spares (ha : asp.outside [.regs, .inv, .tgf, .fifos, .out]) (h₀ : s₀.Spares asp s) :
    s₀.Spares asp (ref10mLoss s) := by
  unfold ref10mLoss; simp (maxDischargeDepth := 40) [ha, h₀]
@[simp ↓] theorem ppsOutPulse_spares (ha : asp.outside [.inv, .out]) (h₀ : s₀.Spares asp s) : s₀.Spares asp (ppsOutPulse s) := by
  unfold ppsOutPulse; simp (maxDischargeDepth := 40) [ha, h₀]
@[simp ↓] theorem ppsOutEnd_spares (ha : asp.outside [.inv, .out]) (h₀ : s₀.Spares asp s) : s₀.Spares asp (ppsOutEnd s) := by
  unfold ppsOutEnd; split <;> simp (maxDischargeDepth := 40) [ha, h₀]
@[simp ↓] theorem State.routeDisarm_spares (ha : asp.outside [.route]) (h₀ : s₀.Spares asp s) : s₀.Spares asp s.routeDisarm := by
  unfold State.routeDisarm; simp [ha, h₀]
@[simp ↓] theorem invEnable_spares (ha : asp.outside [.regs, .inv]) (h₀ : s₀.Spares asp s) : s₀.Spares asp (invEnable s) := by
  unfold invEnable; simp (maxDischargeDepth := 40) [ha, h₀]
@[simp ↓] theorem invDisable_spares (ha : asp.outside [.regs, .inv, .tgf, .fifos, .threads, .clusters, .ops, .aml, .route, .out])
    (h₀ : s₀.Spares asp s) : s₀.Spares asp (invDisable s) := by
  unfold invDisable; simp (maxDischargeDepth := 40) [ha, h₀]
@[simp ↓] theorem reacquire_spares (ha : asp.outside [.regs, .inv, .tgf, .fifos, .threads, .clusters, .ops, .aml, .out])
    (h₀ : s₀.Spares asp s) : s₀.Spares asp (reacquire s) := by
  unfold reacquire; simp (maxDischargeDepth := 40) [ha, h₀]
@[simp ↓] theorem State.moveLane_spares (ha : asp.outside [.inv]) (h₀ : s₀.Spares asp s) (p l : Nat) :
    s₀.Spares asp (s.moveLane p l) := by
  unfold State.moveLane; simp (maxDischargeDepth := 40) [ha, h₀]
@[simp ↓] theorem State.resetDelay_spares (ha : asp.outside [.regs, .inv]) (h₀ : s₀.Spares asp s) (p : Nat) :
    s₀.Spares asp (s.resetDelay p) := by
  unfold State.resetDelay; simp [ha, h₀]

/-! #### Sys2Proof/Machine/Fabric.lean -/

@[simp ↓] theorem State.eptRoom_spares (ha : asp.outside [.eptCache]) (h₀ : s₀.Spares asp s) (epid : Nat) :
    s₀.Spares asp (s.eptRoom epid) := by
  unfold State.eptRoom; simp (maxDischargeDepth := 40) [ha, h₀]
@[simp ↓] theorem State.resolve_spares (ha : asp.outside [.regs, .eptCache]) (h₀ : s₀.Spares asp s) (epid : Nat) :
    s₀.Spares asp (s.resolve epid).2 := by
  unfold State.resolve
  refine State.ite_spares_snd h₀ ?_
  split
  next v s1 heq =>
  have h₁ : s₀.Spares asp s1 := by
    refine .of_eq heq ?_
    split
    · exact h₀
    · exact State.eptCache_spares ha.2.1 (by simp [ha, h₀]) _
  exact State.ite_spares_snd h₁ h₁
theorem State.takeSlot_spares (ha : asp.outside [.ops, .orders]) (h₀ : s₀.Spares asp s) (c kind fl : Nat) (origin : Origin)
    (block : List Byte) (ht : s.takeSlot c kind fl origin block = some (a, s')) : s₀.Spares asp s' := by
  obtain ⟨k, -, he⟩ := Option.map_eq_some_iff.mp ht
  cases he
  simp [ha, h₀]
@[simp ↓] theorem State.withLdm_spares (ha : asp.outside [.regs, .tgf, .fifos, .threads, .engines, .clusters, .out])
    (h₀ : s₀.Spares asp s) (t rs1 al n : Nat) (srcs : List Nat) (k : Nat → State → State) (hk : ∀ a, s₀.Spares asp (k a s)) :
    s₀.Spares asp (s.withLdm t rs1 al n srcs k) := by
  unfold State.withLdm; dsimp only
  refine State.ite_spares (by simp [ha, h₀]) (State.ite_spares (by simp [ha, h₀]) ?_)
  split
  · simp [ha, h₀]
  · exact hk _
@[simp ↓] theorem State.withLdmRead_spares (ha : asp.outside [.regs, .tgf, .fifos, .threads, .engines, .clusters, .out])
    (h₀ : s₀.Spares asp s) (t rs1 key n : Nat) (k : State → State) (hk : s₀.Spares asp (k s)) :
    s₀.Spares asp (s.withLdmRead t rs1 key n k) := by
  unfold State.withLdmRead
  exact State.ite_spares (by simp [ha, h₀]) hk
@[simp ↓] theorem State.acceptOp_spares (h₀ : s₀.Spares asp s) (k priv xask : Nat) (start : Nat → Nat → State → State)
    (hstart : ∀ a b (s : State), s.Spares asp (start a b s)) : s₀.Spares asp (s.acceptOp k priv xask start) := by
  unfold State.acceptOp; simp (maxDischargeDepth := 40) [h₀, fun a b {s} (h : s₀.Spares asp s) => h.trans (hstart a b s)]
@[simp ↓] theorem State.submit_spares (ha : asp.outside [.regs, .tgf, .fifos, .threads, .engines, .clusters, .ops, .orders, .dev, .out])
    (h₀ : s₀.Spares asp s) (t rd rs1 major imm kind level : Nat) (legal : Bool) (ready : State → List Byte → Bool)
    (start : Nat → Nat → State → State) (ext : State → List Byte → List Byte) (hstart : ∀ a b (s : State), s.Spares asp (start a b s)) :
    s₀.Spares asp (s.submit t rd rs1 major imm kind level legal ready start ext) := by
  unfold State.submit
  refine State.issue_spares (by simp [ha]) h₀ _ _ _ _ _ _ _ fun s => State.withLdm_spares (by simp [ha]) (.refl s) _ _ _ _ _ _ fun key =>
    State.withLdmRead_spares (by simp [ha]) (.refl s) _ _ _ _ _ ?_
  dsimp only; split
  · simp [ha]
  · next heq =>
    split at heq
    · have h₁ := State.takeSlot_spares (asp := asp) (by simp [ha]) (.refl s) _ _ _ _ _ heq
      exact State.acceptOp_spares (by simp (maxDischargeDepth := 40) [ha, h₁]) _ _ _ _ hstart
    · cases heq
@[simp ↓] theorem rdft_spares (ha : asp.outside [.regs, .tgf, .fifos, .threads, .engines, .clusters, .dev, .out]) (h₀ : s₀.Spares asp s)
    (t rd rs1 rs2 fn : Nat) : s₀.Spares asp (rdft t rd rs1 rs2 fn s) := by
  unfold rdft; simp [ha, h₀]
@[simp ↓] theorem rdlt_spares (ha : asp.outside [.regs, .tgf, .fifos, .threads, .engines, .clusters, .dev, .out]) (h₀ : s₀.Spares asp s)
    (t rd rs1 rs2 : Nat) : s₀.Spares asp (rdlt t rd rs1 rs2 s) := by
  unfold rdlt; simp [ha, h₀]
@[simp ↓] theorem rdts_spares (ha : asp.outside [.regs, .tgf, .fifos, .threads, .engines, .clusters, .dev, .out]) (h₀ : s₀.Spares asp s)
    (t rd rs1 rs2 : Nat) : s₀.Spares asp (rdts t rd rs1 rs2 s) := by
  unfold rdts; simp [ha, h₀]
@[simp ↓] theorem waitft_spares (ha : asp.outside [.regs, .tgf, .fifos, .threads, .engines, .clusters, .dev, .out])
    (h₀ : s₀.Spares asp s) (t rd rs1 rs2 : Nat) : s₀.Spares asp (waitft t rd rs1 rs2 s) := by
  unfold waitft; simp (maxDischargeDepth := 40) [ha, h₀]
@[simp ↓] theorem waitftWake_spares (ha : asp.outside [.threads]) (h₀ : s₀.Spares asp s) (t : Nat) :
    s₀.Spares asp (waitftWake t s) := by
  unfold waitftWake; dsimp only; split <;> simp (maxDischargeDepth := 40) [ha, h₀]
@[simp ↓] theorem opstat_spares (ha : asp.outside [.regs, .tgf, .fifos, .threads, .engines, .clusters, .dev, .out])
    (h₀ : s₀.Spares asp s) (t rd rs1 rs2 fn : Nat) : s₀.Spares asp (opstat t rd rs1 rs2 fn s) := by
  unfold opstat; simp [ha, h₀]
@[simp ↓] theorem opwait_spares (ha : asp.outside [.regs, .tgf, .fifos, .threads, .engines, .clusters, .dev, .out])
    (h₀ : s₀.Spares asp s) (t rd rs1 rs2 : Nat) : s₀.Spares asp (opwait t rd rs1 rs2 s) := by
  unfold opwait
  refine State.issue_spares (by simp [ha]) h₀ _ _ _ _ _ _ _ fun s => ?_
  (repeat' split) <;> simp [ha]
@[simp ↓] theorem wfpush_spares (ha : asp.outside [.regs, .tgf, .fifos, .threads, .engines, .clusters, .dev, .out])
    (h₀ : s₀.Spares asp s) (t rd rs1 rs2 fn : Nat) : s₀.Spares asp (wfpush t rd rs1 rs2 fn s) := by
  unfold wfpush
  refine State.issue_spares (by simp [ha]) h₀ _ _ _ _ _ _ _ fun s => State.withLdm_spares (by simp [ha]) (.refl s) _ _ _ _ _ _ fun key => ?_
  refine State.ite_spares (by simp [ha]) ?_
  dsimp only; split
  · next h =>
    exact State.withLdmRead_spares (by simp [ha]) (.refl s) _ _ _ _ _
      (State.writeNext_spares (by simp [ha]) (State.wfStart_spares (by simp [ha]) (.refl s) _ _ _ _ h) _ _ _ _)
  · simp (maxDischargeDepth := 40) [ha]
@[simp ↓] theorem wfpop_spares (ha : asp.outside [.regs, .ram, .tgf, .fifos, .threads, .engines, .clusters, .dev, .out])
    (h₀ : s₀.Spares asp s) (t rd rs1 rs2 ecc : Nat) : s₀.Spares asp (wfpop t rd rs1 rs2 ecc s) := by
  unfold wfpop
  refine State.issue_spares (by simp [ha]) h₀ _ _ _ _ _ _ _ fun s => ?_
  extract_lets v k head
  have hhead : ∀ it t, head = some (it, t) → s.Spares asp t := by
    intro it t h
    simp only [head] at h
    split at h
    · cases h
    · exact State.wfTake_spares (by simp [ha]) (.refl s) _ h
  clear_value head
  refine State.ite_spares (by simp [ha]) (State.withLdm_spares (by simp [ha]) (.refl s) _ _ _ _ _ _ fun key => ?_)
  rcases head with _ | ⟨it, s1⟩
  · exact .refl s
  · simp (maxDischargeDepth := 40) [ha, hhead it s1 rfl]

/-! #### Sys2Proof/Machine/MatchUnit.lean -/

@[simp ↓] theorem State.setQueue_spares (ha : asp.outside [.rings]) (h₀ : s₀.Spares asp s) (qn : Nat) (x : Queue) :
    s₀.Spares asp (s.setQueue qn x) := by
  unfold State.setQueue; simp [ha, h₀]
@[simp ↓] theorem State.setMctx_spares (ha : asp.outside [.mtch]) (h₀ : s₀.Spares asp s) (ctx : Nat) (x : MatchCtx) :
    s₀.Spares asp (s.setMctx ctx x) := by
  unfold State.setMctx; simp [ha, h₀]
@[simp ↓] theorem State.examined_spares (ha : asp.outside [.regs]) (h₀ : s₀.Spares asp s) (c n : Nat) :
    s₀.Spares asp (s.examined c n) := by
  unfold State.examined; simp (maxDischargeDepth := 40) [ha, h₀]
@[simp ↓] theorem State.unitPost_spares (ha : asp.outside [.regs, .mtch]) (h₀ : s₀.Spares asp s) (c ctx : Nat) (e : MatchEntry)
    (back : Option Nat) : s₀.Spares asp (s.unitPost c ctx e back).2 := by
  unfold State.unitPost; dsimp only; (repeat' split) <;> simp [ha, h₀]
@[simp ↓] theorem State.unitMatch_spares (ha : asp.outside [.regs, .mtch]) (h₀ : s₀.Spares asp s) (c ctx src tag ref : Nat) :
    s₀.Spares asp (s.unitMatch c ctx src tag ref).2 := by
  unfold State.unitMatch; dsimp only; split <;> simp (maxDischargeDepth := 40) [ha, h₀]
@[simp ↓] theorem State.unitCancel_spares (ha : asp.outside [.regs, .mtch]) (h₀ : s₀.Spares asp s) (c ctx ref : Nat) :
    s₀.Spares asp (s.unitCancel c ctx ref).2 := by
  unfold State.unitCancel; dsimp only; split <;> simp [ha, h₀]
@[simp ↓] theorem State.setUrec_spares (ha : asp.outside [.mtch]) (h₀ : s₀.Spares asp s) (k : Nat) (x : Option UnexpRec) :
    s₀.Spares asp (s.setUrec k x) := by
  unfold State.setUrec; simp [ha, h₀]
@[simp ↓] theorem State.claim_spares (ha : asp.outside [.mtch]) (h₀ : s₀.Spares asp s) (ctx f : Nat) :
    s₀.Spares asp (s.claim ctx f) := by
  unfold State.claim; simp [ha, h₀]
@[simp ↓] theorem State.postRecv_spares (ha : asp.outside [.regs, .mtch]) (h₀ : s₀.Spares asp s) (qn : Nat) (e : OutEntry)
    (back : Option Nat) (n : Nat) : s₀.Spares asp (s.postRecv qn e back n).2 := by
  induction n generalizing s with
  | zero => exact h₀
  | succ f ih =>
    unfold State.postRecv
    extract_lets ctx c
    split <;> have h₁ := State.Spares.of_eq (s₀ := s₀) (asp := asp) ‹_ = (_, _)› (by simp [ha, h₀])
    · exact h₁
    · exact h₁
    · split
      · exact State.ite_spares_snd (ih (by simp [ha, h₁])) (by simp [ha, h₁])
      · exact h₁
@[simp ↓] theorem State.postOrWait_spares (ha : asp.outside [.regs, .mtch]) (h₀ : s₀.Spares asp s) (qn : Nat) (e : OutEntry) :
    s₀.Spares asp (s.postOrWait qn e) := by
  unfold State.postOrWait; dsimp only; split
  · simp (maxDischargeDepth := 40) [ha, h₀]
  · split
    · exact .of_eq ‹_› (by simp [ha, h₀])
    · have h₁ := State.Spares.of_eq (s₀ := s₀) (asp := asp) ‹_ = (_, _)› (by simp [ha, h₀])
      simp (maxDischargeDepth := 40) [ha, h₁]
@[simp ↓] theorem State.postWaiting_spares (ha : asp.outside [.regs, .mtch]) (h₀ : s₀.Spares asp s) (ctx : Nat) (n : Nat) :
    s₀.Spares asp (s.postWaiting ctx n) := by
  induction n generalizing s with
  | zero => exact h₀
  | succ f ih =>
    unfold State.postWaiting
    split
    · exact h₀
    next w _ =>
    extract_lets gone
    have hgone {t : State} (ht : s₀.Spares asp t) : s₀.Spares asp (gone t) := State.mtch_spares (by simp [ha]) ht _
    split
    · exact ih (hgone h₀)
    split
    · next h => exact ih (hgone (.of_eq h (by simp [ha, h₀])))
    · exact h₀
@[simp ↓] theorem State.postAllWaiting_spares (ha : asp.outside [.regs, .mtch]) (h₀ : s₀.Spares asp s) (ctx : Nat) :
    s₀.Spares asp (s.postAllWaiting ctx) := by
  unfold State.postAllWaiting; simp [ha, h₀]
@[simp ↓] theorem State.recvOffWay_spares (ha : asp.outside [.mtch]) (h₀ : s₀.Spares asp s) (qn : Nat) (e : OutEntry) :
    s₀.Spares asp (s.recvOffWay qn e) := by
  unfold State.recvOffWay; simp [ha, h₀]
@[simp ↓] theorem State.recvCancel_spares (ha : asp.outside [.regs, .mtch]) (h₀ : s₀.Spares asp s) (qn : Nat) (e : OutEntry) :
    s₀.Spares asp (s.recvCancel qn e) := by
  unfold State.recvCancel; simp (maxDischargeDepth := 40) [ha, h₀]
@[simp ↓] theorem State.recvNotFound_spares (ha : asp.outside [.regs, .mtch]) (h₀ : s₀.Spares asp s) (qn : Nat) (e : OutEntry) :
    s₀.Spares asp (s.recvNotFound qn e) := by
  unfold State.recvNotFound; simp [ha, h₀]
@[simp ↓] theorem State.dropCtxs_spares (ha : asp.outside [.threads, .clusters, .ops, .mtch, .aml]) (h₀ : s₀.Spares asp s)
    (gone : Nat → Bool) : s₀.Spares asp (s.dropCtxs gone) := by
  unfold State.dropCtxs; simp (maxDischargeDepth := 40) [ha, h₀]
@[simp ↓] theorem State.releaseCtxs_spares (ha : asp.outside [.threads, .clusters, .ops, .mtch, .aml]) (h₀ : s₀.Spares asp s)
    (p : Nat → Bool) : s₀.Spares asp (s.releaseCtxs p) := by
  unfold State.releaseCtxs; simp [ha, h₀]

/-! #### Sys2Proof/Machine/Rings.lean -/

@[simp ↓] theorem State.setCq_spares (ha : asp.outside [.rings]) (h₀ : s₀.Spares asp s) (cn : Nat) (x : Cq) :
    s₀.Spares asp (s.setCq cn x) := by
  unfold State.setCq; simp [ha, h₀]
theorem State.pushEvent_spares (ha : asp.outside [.fifos]) (h₀ : s₀.Spares asp s) (c : Nat) (body : List Byte)
    (ht : s.pushEvent c body = some s') : s₀.Spares asp s' := by
  obtain ⟨k, -, hw⟩ := Option.bind_eq_some_iff.mp ht
  exact State.wfStart_spares ha h₀ _ _ _ _ hw
@[simp ↓] theorem State.ringEvent_spares (ha : asp.outside [.regs, .fifos, .rings]) (h₀ : s₀.Spares asp s)
    (c ev cause cn qn held : Nat) : s₀.Spares asp (s.ringEvent c ev cause cn qn held) := by
  unfold State.ringEvent; dsimp only; split
  · next heq =>
    split at heq
    · exact State.pushEvent_spares (by simp [ha]) h₀ _ _ heq
    · cases heq
  · split <;> simp (maxDischargeDepth := 40) [ha, h₀]
@[simp ↓] theorem State.checkFull_spares (ha : asp.outside [.regs, .tgf, .fifos, .rings, .out]) (h₀ : s₀.Spares asp s) (cn : Nat) :
    s₀.Spares asp (s.checkFull cn) := by
  unfold State.checkFull; simp (maxDischargeDepth := 40) [ha, h₀]
@[simp ↓] theorem State.commitCqe_spares (ha : asp.outside [.regs, .tgf, .fifos, .rings, .host, .out]) (h₀ : s₀.Spares asp s) (cn : Nat)
    (c : Completion) : s₀.Spares asp (s.commitCqe cn c).2 := by
  unfold State.commitCqe; simp (maxDischargeDepth := 40) [ha, h₀]
@[simp ↓] theorem State.unlist_spares (ha : asp.outside [.net]) (h₀ : s₀.Spares asp s) (qn serial : Nat) :
    s₀.Spares asp (s.unlist qn serial) := by
  unfold State.unlist; simp [ha, h₀]
@[simp ↓] theorem State.runOver_spares (ha : asp.outside [.threads, .clusters, .ops, .net, .aml]) (h₀ : s₀.Spares asp s)
    (qn serial status : Nat) : s₀.Spares asp (s.runOver qn serial status) := by
  unfold State.runOver; dsimp only; split
  · refine State.foldl_spares (fun s e => ?_) (by simp (maxDischargeDepth := 40) [ha, h₀]) _
    split <;> simp (maxDischargeDepth := 40) [ha]
  · exact h₀
@[simp ↓] theorem State.workDone_spares
    (ha : asp.outside [.regs, .tgf, .fifos, .threads, .clusters, .ops, .rings, .net, .aml, .host, .out]) (h₀ : s₀.Spares asp s)
    (qn serial : Nat) (d : WorkDone) : s₀.Spares asp (s.workDone qn serial d) := by
  unfold State.workDone; dsimp only; split <;> simp (maxDischargeDepth := 40) [ha, h₀]
@[simp ↓] theorem State.abortWork_spares (ha : asp.outside [.threads, .clusters, .ops, .net, .aml]) (h₀ : s₀.Spares asp s)
    (qn serial : Nat) : s₀.Spares asp (s.abortWork qn serial) := by
  unfold State.abortWork; simp (maxDischargeDepth := 40) [ha, h₀]
@[simp ↓] theorem State.abortEntry_spares
    (ha : asp.outside [.regs, .tgf, .fifos, .threads, .clusters, .ops, .rings, .net, .mtch, .aml, .host, .out]) (h₀ : s₀.Spares asp s)
    (qn serial : Nat) : s₀.Spares asp (s.abortEntry qn serial) := by
  unfold State.abortEntry; split <;> simp (maxDischargeDepth := 40) [ha, h₀]
@[simp ↓] theorem State.abortPass_spares
    (ha : asp.outside [.regs, .tgf, .fifos, .threads, .clusters, .ops, .rings, .net, .mtch, .aml, .host, .out]) (h₀ : s₀.Spares asp s)
    (qn : Nat) : s₀.Spares asp (s.abortPass qn) := by
  unfold State.abortPass; simp (maxDischargeDepth := 40) [ha, h₀]
@[simp ↓] theorem State.resumeAborts_spares
    (ha : asp.outside [.regs, .tgf, .fifos, .threads, .clusters, .ops, .rings, .net, .mtch, .aml, .host, .out]) (h₀ : s₀.Spares asp s) :
    s₀.Spares asp s.resumeAborts := by
  unfold State.resumeAborts; simp [ha, h₀]
@[simp ↓] theorem State.giveUpRead_spares (ha : asp.outside [.fifos]) (h₀ : s₀.Spares asp s) (qn : Nat) (r : EntryRead) :
    s₀.Spares asp (s.giveUpRead qn r) := by
  unfold State.giveUpRead; simp [ha, h₀]
@[simp ↓] theorem State.dropReads_spares (ha : asp.outside [.regs, .fifos, .rings]) (h₀ : s₀.Spares asp s) (qn : Nat) :
    s₀.Spares asp (s.dropReads qn) := by
  unfold State.dropReads; simp (maxDischargeDepth := 40) [ha, h₀]
@[simp ↓] theorem State.queueError_spares
    (ha : asp.outside [.regs, .tgf, .fifos, .threads, .clusters, .ops, .rings, .net, .mtch, .aml, .host, .out]) (h₀ : s₀.Spares asp s)
    (qn cause : Nat) : s₀.Spares asp (s.queueError qn cause) := by
  unfold State.queueError; simp (maxDischargeDepth := 40) [ha, h₀]
@[simp ↓] theorem State.irqCheck_spares (ha : asp.outside [.regs, .rings, .host, .out]) (h₀ : s₀.Spares asp s) (cn : Nat) :
    s₀.Spares asp (s.irqCheck cn) := by
  unfold State.irqCheck; simp (maxDischargeDepth := 40) [ha, h₀]
@[simp ↓] theorem modTimer_spares (ha : asp.outside [.regs, .rings, .host, .out]) (h₀ : s₀.Spares asp s) (cn : Nat) :
    s₀.Spares asp (modTimer cn s) := by
  unfold modTimer; simp [ha, h₀]
@[simp ↓] theorem State.checkResumed_spares (ha : asp.outside [.regs, .fifos, .rings]) (h₀ : s₀.Spares asp s) (cn : Nat) :
    s₀.Spares asp (s.checkResumed cn) := by
  unfold State.checkResumed; simp (maxDischargeDepth := 40) [ha, h₀]
@[simp ↓] theorem cqWrite_spares
    (ha : asp.outside [.regs, .tgf, .fifos, .threads, .clusters, .ops, .rings, .net, .mtch, .aml, .host, .out]) (h₀ : s₀.Spares asp s)
    (cn : Nat) : s₀.Spares asp (cqWrite cn s) := by
  unfold cqWrite; dsimp only; (repeat' split) <;> simp (maxDischargeDepth := 40) [ha, h₀]
@[simp ↓] theorem State.ownRead_spares (ha : asp.outside [.regs, .rings, .host, .out]) (h₀ : s₀.Spares asp s) (cn : Nat) :
    s₀.Spares asp (s.ownRead cn) := by
  unfold State.ownRead; simp (maxDischargeDepth := 40) [ha, h₀]
@[simp ↓] theorem cqOwnRead_spares (ha : asp.outside [.regs, .rings, .host, .out]) (h₀ : s₀.Spares asp s) (cn : Nat) :
    s₀.Spares asp (cqOwnRead cn s) := by
  unfold cqOwnRead; simp [ha, h₀]
@[simp ↓] theorem cqPoll_spares (ha : asp.outside [.regs, .rings, .host, .out]) (h₀ : s₀.Spares asp s) (cn : Nat) :
    s₀.Spares asp (cqPoll cn s) := by
  unfold cqPoll; simp [ha, h₀]
@[simp ↓] theorem cqOwnReadDone_spares (ha : asp.outside [.regs, .tgf, .fifos, .rings, .out]) (h₀ : s₀.Spares asp s) (cn st n : Nat) :
    s₀.Spares asp (cqOwnReadDone cn st n s) := by
  unfold cqOwnReadDone; simp (maxDischargeDepth := 40) [ha, h₀]
@[simp ↓] theorem ringStallTimeout_spares
    (ha : asp.outside [.regs, .tgf, .fifos, .threads, .clusters, .ops, .rings, .net, .mtch, .aml, .host, .out]) (h₀ : s₀.Spares asp s)
    (cn : Nat) : s₀.Spares asp (ringStallTimeout cn s) := by
  unfold ringStallTimeout; simp (maxDischargeDepth := 40) [ha, h₀]
@[simp ↓] theorem State.arbSync_spares (ha : asp.outside [.rings]) (h₀ : s₀.Spares asp s) : s₀.Spares asp s.arbSync := by
  unfold State.arbSync; simp [ha, h₀]
@[simp ↓] theorem State.synced_spares (ha : asp.outside [.rings]) (h₀ : s₀.Spares asp s) (f : State → State)
    (hf : ∀ (s : State), s.Spares asp (f s)) : s₀.Spares asp (s.synced f) := by
  unfold State.synced; simp (maxDischargeDepth := 40) [ha, h₀, fun {s} (h : s₀.Spares asp s) => h.trans (hf s)]
@[simp ↓] theorem State.chargeAll_spares (ha : asp.outside [.rings]) (h₀ : s₀.Spares asp s) (f g qn b : Nat) :
    s₀.Spares asp (s.chargeAll f g qn b) := by
  unfold State.chargeAll; simp [ha, h₀]
@[simp ↓] theorem State.selectQueue_spares (ha : asp.outside [.rings]) (h₀ : s₀.Spares asp s) (k : Nat) :
    s₀.Spares asp (s.selectQueue k).2 := by
  unfold State.selectQueue; dsimp only; (repeat' split) <;> simp [ha, h₀]
@[simp ↓] theorem State.queueReady_spares (ha : asp.outside [.regs, .fifos, .rings]) (h₀ : s₀.Spares asp s) (qn : Nat) :
    s₀.Spares asp (s.queueReady qn) := by
  unfold State.queueReady; dsimp only
  refine State.ite_spares (by simp [ha, h₀]) (State.ite_spares (by simp [ha, h₀]) ?_)
  split
  · simp [ha, State.wfStart_spares (by simp [ha]) h₀ _ _ _ _ ‹_›]
  · simp (maxDischargeDepth := 40) [ha, h₀]
@[simp ↓] theorem State.ringFlush_spares (ha : asp.outside [.regs, .fifos, .rings]) (h₀ : s₀.Spares asp s) :
    s₀.Spares asp s.ringFlush := by
  unfold State.ringFlush; dsimp only
  refine State.foldl_spares (fun s e => by simp [ha]) (State.foldl_spares (fun s e => ?_) h₀ _) _
  split
  · exact State.rings_spares ha.2.2.1 (State.pushEvent_spares (by simp [ha]) (.refl s) _ _ ‹_›) _
  · exact .refl s
@[simp ↓] theorem State.issueReads_spares (ha : asp.outside [.regs, .fifos, .rings, .out]) (h₀ : s₀.Spares asp s) (qn : Nat)
    (first : Bool) (n : Nat) : s₀.Spares asp (s.issueReads qn first n) := by
  induction n generalizing s first with
  | zero => exact h₀
  | succ n ih =>
    unfold State.issueReads
    extract_lets q serial
    split
    next k p _ =>
    extract_lets bank s1
    have h₁ : s₀.Spares asp s1 := by unfold s1; simp [ha, h₀]
    exact State.ite_spares h₀ (ih (by simp [ha, h₁]) _)
@[simp ↓] theorem grant_spares (ha : asp.outside [.regs, .fifos, .rings, .host, .out]) (h₀ : s₀.Spares asp s) (k : Nat) :
    s₀.Spares asp (grant k s) := by
  unfold grant; dsimp only; (repeat' split) <;> try simp (maxDischargeDepth := 40) [ha, h₀]
  all_goals
    have h₁ := State.Spares.of_eq (s₀ := s₀) (asp := asp) ‹_ = (_, _)› (by simp (maxDischargeDepth := 40) [ha, h₀])
    simp (maxDischargeDepth := 40) [ha, h₁]
@[simp ↓] theorem State.ringMalformed_spares (ha : asp.outside [.regs, .tgf, .fifos, .out]) (h₀ : s₀.Spares asp s) (qn : Nat)
    (q : Queue) (idx reason : Nat) : s₀.Spares asp (s.ringMalformed qn q idx reason) := by
  unfold State.ringMalformed; simp (maxDischargeDepth := 40) [ha, h₀]
@[simp ↓] theorem State.takeEntry_spares (ha : asp.outside [.rings, .mtch]) (h₀ : s₀.Spares asp s) (qn idx : Nat) (data : List Byte) :
    s₀.Spares asp (s.takeEntry qn idx data) := by
  unfold State.takeEntry; simp (maxDischargeDepth := 40) [ha, h₀]
@[simp ↓] theorem State.fetchSample_spares (ha : asp.outside [.regs, .rings]) (h₀ : s₀.Spares asp s) (qn : Nat) :
    s₀.Spares asp (s.fetchSample qn) := by
  unfold State.fetchSample; dsimp only; split <;> simp [ha, h₀]
@[simp ↓] theorem State.ownStop_spares (ha : asp.outside [.regs, .fifos, .rings]) (h₀ : s₀.Spares asp s) (qn : Nat) :
    s₀.Spares asp (s.ownStop qn) := by
  unfold State.ownStop; simp (maxDischargeDepth := 40) [ha, h₀]
@[simp ↓] theorem State.issueAgain_spares (ha : asp.outside [.regs, .fifos, .rings, .out]) (h₀ : s₀.Spares asp s) (qn : Nat) :
    s₀.Spares asp (s.issueAgain qn) := by
  unfold State.issueAgain; dsimp only; split <;> simp (maxDischargeDepth := 40) [ha, h₀]
@[simp ↓] theorem State.readFailed_spares
    (ha : asp.outside [.regs, .tgf, .fifos, .threads, .clusters, .ops, .rings, .net, .mtch, .aml, .host, .out]) (h₀ : s₀.Spares asp s)
    (qn : Nat) : s₀.Spares asp (s.readFailed qn) := by
  unfold State.readFailed; dsimp only; split <;> simp (maxDischargeDepth := 40) [ha, h₀]
@[simp ↓] theorem workEntryRead_spares
    (ha : asp.outside [.regs, .tgf, .fifos, .threads, .clusters, .ops, .rings, .net, .mtch, .aml, .host, .out]) (h₀ : s₀.Spares asp s)
    (qn st : Nat) (data : List Byte) : s₀.Spares asp (workEntryRead qn st data s) := by
  unfold workEntryRead; dsimp only; (repeat' split) <;> simp (maxDischargeDepth := 40) [ha, h₀]
@[simp ↓] theorem State.entryTaken_spares (ha : asp.outside [.regs, .rings, .mtch]) (h₀ : s₀.Spares asp s) (qn serial : Nat) :
    s₀.Spares asp (s.entryTaken qn serial) := by
  unfold State.entryTaken; dsimp only; (repeat' split) <;> simp (maxDischargeDepth := 40) [ha, h₀]
@[simp ↓] theorem State.written_spares (ha : asp.outside [.regs, .ops, .rings, .mtch]) (h₀ : s₀.Spares asp s) (w : Writing) :
    s₀.Spares asp (s.written w) := by
  unfold State.written; split <;> simp [ha, h₀]
@[simp ↓] theorem State.rewound_spares
    (ha : asp.outside [.regs, .tgf, .fifos, .threads, .clusters, .ops, .rings, .net, .mtch, .aml, .host, .out]) (h₀ : s₀.Spares asp s)
    (k : Nat) (w : Writing) : s₀.Spares asp (s.rewound k w) := by
  unfold State.rewound; split <;> simp [ha, h₀]
@[simp ↓] theorem itemCommit_spares
    (ha : asp.outside [.regs, .tgf, .fifos, .threads, .clusters, .ops, .rings, .net, .mtch, .aml, .host, .out]) (h₀ : s₀.Spares asp s)
    (c f : Nat) (bad : Bool) : s₀.Spares asp (itemCommit c f bad s) := by
  unfold itemCommit; dsimp only; (repeat' split) <;> simp (maxDischargeDepth := 40) [ha, h₀]
@[simp ↓] theorem doorbell_spares (ha : asp.outside [.regs, .tgf, .fifos, .rings, .out]) (h₀ : s₀.Spares asp s) (f off size : Nat)
    (v : Word) (bad : Bool) : s₀.Spares asp (doorbell f off size v bad s) := by
  unfold doorbell; (repeat' split) <;> simp (maxDischargeDepth := 40) [ha, h₀]
@[simp ↓] theorem State.cringEnable_spares (ha : asp.outside [.rings]) (h₀ : s₀.Spares asp s) (pf : Nat) :
    s₀.Spares asp (s.cringEnable pf) := by
  unfold State.cringEnable; simp [ha, h₀]
@[simp ↓] theorem State.ccqEnable_spares (ha : asp.outside [.rings]) (h₀ : s₀.Spares asp s) (pf : Nat) :
    s₀.Spares asp (s.ccqEnable pf) := by
  unfold State.ccqEnable; simp [ha, h₀]
@[simp ↓] theorem cringDisable_spares (ha : asp.outside [.regs, .fifos, .rings]) (h₀ : s₀.Spares asp s) (pf : Nat) :
    s₀.Spares asp (cringDisable pf s) := by
  unfold cringDisable; simp (maxDischargeDepth := 40) [ha, h₀]
@[simp ↓] theorem ccqDisable_spares (ha : asp.outside [.regs, .rings]) (h₀ : s₀.Spares asp s) (pf : Nat) :
    s₀.Spares asp (ccqDisable pf s) := by
  unfold ccqDisable; simp (maxDischargeDepth := 40) [ha, h₀]
@[simp ↓] theorem State.markStarted_spares (ha : asp.outside [.rings]) (h₀ : s₀.Spares asp s) (qn serial : Nat) :
    s₀.Spares asp (s.markStarted qn serial) := by
  unfold State.markStarted; simp [ha, h₀]
@[simp ↓] theorem State.ctrlAny_spares
    (ha : asp.outside [.regs, .tgf, .fifos, .threads, .clusters, .ops, .rings, .net, .aml, .host, .out]) (h₀ : s₀.Spares asp s)
    (pf idx op : Nat) (body : List Byte → Nat → State → CtrlEnd × State) (hbody : ∀ a b (s : State), s.Spares asp (body a b s).2) :
    s₀.Spares asp (s.ctrlAny pf idx op body) := by
  unfold State.ctrlAny; dsimp only; (repeat' split) <;> try simp [h₀]
  all_goals
    have h₁ := State.Spares.of_eq (s₀ := s₀) (asp := asp) ‹_ = (_, _)› (by simp [ha, h₀, fun a b {s} (h : s₀.Spares asp s) => h.trans (hbody a b s)])
    simp [ha, h₁]
@[simp ↓] theorem State.ctrl_spares (ha : asp.outside [.regs, .tgf, .fifos, .threads, .clusters, .ops, .rings, .net, .aml, .host, .out])
    (h₀ : s₀.Spares asp s) (pf idx op : Nat) (body : List Byte → Nat → State → CtrlEnd × State)
    (hbody : ∀ a b (s : State), s.Spares asp (body a b s).2) : s₀.Spares asp (s.ctrl pf idx op body) := by
  unfold State.ctrl
  exact State.ite_spares h₀ (State.ctrlAny_spares ha h₀ _ _ _ _ hbody)
@[simp ↓] theorem endsWith_spares (h₀ : s₀.Spares asp s) (status : Nat) : s₀.Spares asp (endsWith status s).2 := by
  unfold endsWith; simp [h₀]
@[simp ↓] theorem cqCreateBody_spares (ha : asp.outside [.rings]) (h₀ : s₀.Spares asp s) (pf : Nat) (b : List Byte) (m2 : Nat) :
    s₀.Spares asp (cqCreateBody pf b m2 s).2 := by
  unfold cqCreateBody; simp (maxDischargeDepth := 40) [ha, h₀]
@[simp ↓] theorem cqModifyBody_spares (ha : asp.outside [.regs, .rings, .host, .out]) (h₀ : s₀.Spares asp s) (pf : Nat) (b : List Byte)
    (m2 : Nat) : s₀.Spares asp (cqModifyBody pf b m2 s).2 := by
  unfold cqModifyBody; simp (maxDischargeDepth := 40) [ha, h₀]
@[simp ↓] theorem cqDestroyBody_spares (ha : asp.outside [.rings]) (h₀ : s₀.Spares asp s) (pf : Nat) (b : List Byte) (m2 : Nat) :
    s₀.Spares asp (cqDestroyBody pf b m2 s).2 := by
  unfold cqDestroyBody; simp (maxDischargeDepth := 40) [ha, h₀]
@[simp ↓] theorem cqResetBody_spares (ha : asp.outside [.rings]) (h₀ : s₀.Spares asp s) (pf : Nat) (b : List Byte) (m2 : Nat) :
    s₀.Spares asp (cqResetBody pf b m2 s).2 := by
  unfold cqResetBody; simp (maxDischargeDepth := 40) [ha, h₀]
@[simp ↓] theorem qCreateBody_spares (ha : asp.outside [.rings]) (h₀ : s₀.Spares asp s) (pf : Nat) (b : List Byte) (m2 : Nat) :
    s₀.Spares asp (qCreateBody pf b m2 s).2 := by
  unfold qCreateBody; dsimp only; (repeat' split) <;> simp [ha, h₀]
@[simp ↓] theorem qModifyBody_spares (ha : asp.outside [.rings]) (h₀ : s₀.Spares asp s) (pf : Nat) (b : List Byte) (m2 : Nat) :
    s₀.Spares asp (qModifyBody pf b m2 s).2 := by
  unfold qModifyBody; simp (maxDischargeDepth := 40) [ha, h₀]
@[simp ↓] theorem qShutdownBody_spares
    (ha : asp.outside [.regs, .tgf, .fifos, .threads, .clusters, .ops, .rings, .net, .mtch, .aml, .host, .out]) (h₀ : s₀.Spares asp s)
    (pf : Nat) (b : List Byte) (serial : Nat) : s₀.Spares asp (qShutdownBody pf b serial s).2 := by
  unfold qShutdownBody; simp (maxDischargeDepth := 40) [ha, h₀]
@[simp ↓] theorem queueShutdownDone_spares
    (ha : asp.outside [.regs, .tgf, .fifos, .threads, .clusters, .ops, .rings, .net, .aml, .host, .out]) (h₀ : s₀.Spares asp s)
    (qn : Nat) : s₀.Spares asp (queueShutdownDone qn s) := by
  unfold queueShutdownDone; dsimp only; split <;> simp (maxDischargeDepth := 40) [ha, h₀]
@[simp ↓] theorem qDestroyBody_spares (ha : asp.outside [.rings]) (h₀ : s₀.Spares asp s) (pf : Nat) (b : List Byte) (m2 : Nat) :
    s₀.Spares asp (qDestroyBody pf b m2 s).2 := by
  unfold qDestroyBody; simp (maxDischargeDepth := 40) [ha, h₀]
@[simp ↓] theorem qAbort_spares
    (ha : asp.outside [.regs, .tgf, .fifos, .threads, .clusters, .ops, .rings, .net, .mtch, .aml, .host, .out]) (h₀ : s₀.Spares asp s)
    (pf idx : Nat) : s₀.Spares asp (qAbort pf idx s) := by
  unfold qAbort; dsimp only
  refine State.ite_spares h₀ (State.ctrl_spares (by simp [ha]) h₀ _ _ _ _ fun b _ s => ?_)
  (repeat' split) <;> simp (maxDischargeDepth := 40) [ha]
theorem State.adapterCleared_spares (ha : asp.outside [.fifos, .rings, .host]) (h₀ : s₀.Spares asp s) (r : Rings)
    (f : SMap Fifo) (x : HostIf) :
    s₀.Spares asp { s with rings := r, fifos := f, host := x } :=
  State.rings_spares ha.2.1 (State.fifos_spares ha.1 (State.host_spares ha.2.2.1 h₀ x) f) r
@[simp ↓] theorem State.ringsReset_spares (ha : asp.outside [.regs, .fifos, .rings, .host]) (h₀ : s₀.Spares asp s) :
    s₀.Spares asp s.ringsReset := by
  unfold State.ringsReset
  refine State.wr_spares (by simp [ha]) (State.foldl_spares (fun s p => by simp [ha]) ?_ _) _ _ _
  exact State.adapterCleared_spares (by simp [ha]) (State.foldl_spares (fun s e => by simp [ha]) h₀ _) _ _ _

/-! #### Sys2Proof/Machine/Net.lean -/

@[simp ↓] theorem State.setHalf_spares (ha : asp.outside [.net]) (h₀ : s₀.Spares asp s) (r : Nat) (x : Half) :
    s₀.Spares asp (s.setHalf r x) := by
  unfold State.setHalf; simp [ha, h₀]
@[simp ↓] theorem State.setRx_spares (ha : asp.outside [.net]) (h₀ : s₀.Spares asp s) (r : Nat) (x : Stream) :
    s₀.Spares asp (s.setRx r x) := by
  unfold State.setRx; simp [ha, h₀]
@[simp ↓] theorem State.setColl_spares (ha : asp.outside [.net]) (h₀ : s₀.Spares asp s) (id : Nat) (x : Option Coll) :
    s₀.Spares asp (s.setColl id x) := by
  unfold State.setColl; simp [ha, h₀]
@[simp ↓] theorem State.collEnd_spares
    (ha : asp.outside [.regs, .tgf, .fifos, .threads, .clusters, .ops, .rings, .net, .aml, .host, .out]) (h₀ : s₀.Spares asp s)
    (id : Nat) (d : WorkDone) : s₀.Spares asp (s.collEnd id d) := by
  unfold State.collEnd; (repeat' split) <;> simp [ha, h₀]
@[simp ↓] theorem State.endLatched_spares
    (ha : asp.outside [.regs, .tgf, .fifos, .threads, .clusters, .ops, .rings, .net, .aml, .host, .out]) (h₀ : s₀.Spares asp s)
    (qn : Nat) (d : WorkDone) : s₀.Spares asp (s.endLatched qn d) := by
  unfold State.endLatched; simp (maxDischargeDepth := 40) [ha, h₀]
@[simp ↓] theorem State.halfError_spares
    (ha : asp.outside [.regs, .tgf, .fifos, .threads, .clusters, .ops, .rings, .net, .mtch, .aml, .host, .out]) (h₀ : s₀.Spares asp s)
    (r status : Nat) (seq : BitVec 32) (detail : Nat) : s₀.Spares asp (s.halfError r status seq detail) := by
  unfold State.halfError; dsimp only; (repeat' split) <;> simp (maxDischargeDepth := 40) [ha, h₀]
@[simp ↓] theorem State.noteHeld_spares (ha : asp.outside [.regs]) (h₀ : s₀.Spares asp s) (x : Held) :
    s₀.Spares asp (s.noteHeld x) := by
  unfold State.noteHeld; simp [ha, h₀]
@[simp ↓] theorem State.quietHalf_spares (ha : asp.outside [.regs, .net]) (h₀ : s₀.Spares asp s) (r : Nat) :
    s₀.Spares asp (s.quietHalf r) := by
  unfold State.quietHalf; simp (maxDischargeDepth := 40) [ha, h₀]
@[simp ↓] theorem connQuietEnd_spares (ha : asp.outside [.net]) (h₀ : s₀.Spares asp s) (r : Nat) :
    s₀.Spares asp (connQuietEnd r s) := by
  unfold connQuietEnd; simp [ha, h₀]
@[simp ↓] theorem epCreateBody_spares (ha : asp.outside [.net]) (h₀ : s₀.Spares asp s) (pf : Nat) (b : List Byte) (m2 : Nat) :
    s₀.Spares asp (epCreateBody pf b m2 s).2 := by
  unfold epCreateBody; simp (maxDischargeDepth := 40) [ha, h₀]
@[simp ↓] theorem epDestroyBody_spares (ha : asp.outside [.net]) (h₀ : s₀.Spares asp s) (pf : Nat) (b : List Byte) (m2 : Nat) :
    s₀.Spares asp (epDestroyBody pf b m2 s).2 := by
  unfold epDestroyBody; dsimp only; split <;> simp (maxDischargeDepth := 40) [ha, h₀]
@[simp ↓] theorem connCreateBody_spares (ha : asp.outside [.net]) (h₀ : s₀.Spares asp s) (pf : Nat) (b : List Byte) (m2 : Nat) :
    s₀.Spares asp (connCreateBody pf b m2 s).2 := by
  unfold connCreateBody; simp (maxDischargeDepth := 40) [ha, h₀]
@[simp ↓] theorem connDestroyBody_spares (ha : asp.outside [.regs, .net]) (h₀ : s₀.Spares asp s) (pf : Nat) (b : List Byte) (m2 : Nat) :
    s₀.Spares asp (connDestroyBody pf b m2 s).2 := by
  unfold connDestroyBody; simp (maxDischargeDepth := 40) [ha, h₀]
@[simp ↓] theorem State.askMove_spares (ha : asp.outside [.ram, .net]) (h₀ : s₀.Spares asp s) (ask st quiet : Nat) :
    s₀.Spares asp (s.askMove ask st quiet) := by
  unfold State.askMove; simp (maxDischargeDepth := 40) [ha, h₀]
@[simp ↓] theorem askCreateBody_spares (ha : asp.outside [.ram, .net]) (h₀ : s₀.Spares asp s) (pf : Nat) (b : List Byte)
    (serial : Nat) : s₀.Spares asp (askCreateBody pf b serial s).2 := by
  unfold askCreateBody; simp (maxDischargeDepth := 40) [ha, h₀]
@[simp ↓] theorem State.revokePoint_spares (ha : asp.outside [.regs, .net]) (h₀ : s₀.Spares asp s) (ask : Nat)
    (by_ : Option (Nat × Nat)) : s₀.Spares asp (s.revokePoint ask by_) := by
  unfold State.revokePoint; simp (maxDischargeDepth := 40) [ha, h₀]
@[simp ↓] theorem revokeStart_spares (ha : asp.outside [.regs, .ram, .net]) (h₀ : s₀.Spares asp s) (pf key serial : Nat) :
    s₀.Spares asp (revokeStart pf key serial s).2 := by
  unfold revokeStart; simp (maxDischargeDepth := 40) [ha, h₀]
@[simp ↓] theorem askRevokeBody_spares (ha : asp.outside [.regs, .ram, .net]) (h₀ : s₀.Spares asp s) (pf : Nat) (b : List Byte)
    (serial : Nat) : s₀.Spares asp (askRevokeBody pf b serial s).2 := by
  unfold askRevokeBody; simp [ha, h₀]
@[simp ↓] theorem State.revokeNext_spares
    (ha : asp.outside [.regs, .ram, .tgf, .fifos, .threads, .clusters, .ops, .rings, .net, .aml, .host, .out]) (h₀ : s₀.Spares asp s)
    (i₁ : List (Nat × Nat × Nat)) : s₀.Spares asp (State.revokeNext i₁ s) := by
  induction i₁ generalizing s with
  | nil => exact State.net_spares (by simp [ha]) h₀ _
  | cons x l ih =>
    obtain ⟨pf, serial, key⟩ := x
    unfold State.revokeNext
    split <;> have h₁ := State.Spares.of_eq (s₀ := s₀) (asp := asp) ‹_ = (_, _)› (by simp [ha, h₀])
    · exact ih (by simp [ha, h₁])
    · exact h₁
@[simp ↓] theorem State.nextRevoke_spares
    (ha : asp.outside [.regs, .ram, .tgf, .fifos, .threads, .clusters, .ops, .rings, .net, .aml, .host, .out]) (h₀ : s₀.Spares asp s) :
    s₀.Spares asp s.nextRevoke := by
  unfold State.nextRevoke; simp [ha, h₀]
@[simp ↓] theorem xltRevokeCtrl_spares (ha : asp.outside [.regs, .net]) (h₀ : s₀.Spares asp s) (path : Path) (v : Word) :
    s₀.Spares asp (xltRevokeCtrl path v s) := by
  unfold xltRevokeCtrl; simp (maxDischargeDepth := 40) [ha, h₀]
@[simp ↓] theorem revokeDrain_spares
    (ha : asp.outside [.regs, .ram, .tgf, .fifos, .threads, .clusters, .ops, .rings, .net, .aml, .host, .out]) (h₀ : s₀.Spares asp s) :
    s₀.Spares asp (revokeDrain s) := by
  unfold revokeDrain
  split
  · exact h₀
  next r _ =>
  extract_lets room s1 s2 s3 n s4 s5
  refine State.ite_spares h₀ ?_
  have h₂ : s₀.Spares asp s2 := by unfold s2 s1; simp (maxDischargeDepth := 40) [ha, h₀]
  have h₃ : s₀.Spares asp s3 := State.ite_spares (by simp [ha, h₂]) h₂
  have h₄ : s₀.Spares asp s4 := State.net_spares (by simp [ha]) h₃ _
  have h₅ : s₀.Spares asp s5 := by
    unfold s5
    clear_value s4
    split
    · simp (maxDischargeDepth := 40) [ha, h₄]
    · exact h₄
  simp [ha, h₅]
@[simp ↓] theorem askQuietOver_spares (ha : asp.outside [.ram, .net]) (h₀ : s₀.Spares asp s) (ask : Nat) :
    s₀.Spares asp (askQuietOver ask s) := by
  unfold askQuietOver; simp [ha, h₀]
@[simp ↓] theorem State.keyCheck_spares (ha : asp.outside [.regs, .clusters]) (h₀ : s₀.Spares asp s) (c key iso : Nat) :
    s₀.Spares asp (s.keyCheck c key iso).2.2 := by
  unfold State.keyCheck; dsimp only; (repeat' split) <;> simp [ha, h₀]
@[simp ↓] theorem State.reportFaults_spares
    (ha : asp.outside [.regs, .tgf, .fifos, .threads, .clusters, .ops, .rings, .net, .aml, .host, .out]) (h₀ : s₀.Spares asp s)
    (i₁ : Nat) : s₀.Spares asp (State.reportFaults i₁ s) := by
  induction i₁ generalizing s with
  | zero => exact h₀
  | succ n ih =>
    unfold State.reportFaults
    split
    · exact h₀
    refine State.ite_spares (by simp [ha, h₀]) ?_
    extract_lets net s1
    have h₁ : s₀.Spares asp s1 := State.net_spares (by simp [ha]) h₀ _
    exact ih (by simp (maxDischargeDepth := 40) [ha, h₁])
@[simp ↓] theorem State.pendFault_spares
    (ha : asp.outside [.regs, .tgf, .fifos, .threads, .clusters, .ops, .rings, .net, .aml, .host, .out]) (h₀ : s₀.Spares asp s)
    (ask va cause access src level : Nat) : s₀.Spares asp (s.pendFault ask va cause access src level) := by
  unfold State.pendFault; simp (maxDischargeDepth := 40) [ha, h₀]
@[simp ↓] theorem State.withKey_spares (h₀ : s₀.Spares asp s) (pf key : Nat) (k : CtrlEnd × State) (hk : s₀.Spares asp k.2) :
    s₀.Spares asp (s.withKey pf key k).2 := by
  unfold State.withKey; simp (maxDischargeDepth := 40) [h₀, hk]
@[simp ↓] theorem xltInvalidateBody_spares (ha : asp.outside [.net]) (h₀ : s₀.Spares asp s) (pf : Nat) (b : List Byte) (serial : Nat) :
    s₀.Spares asp (xltInvalidateBody pf b serial s).2 := by
  unfold xltInvalidateBody; simp (maxDischargeDepth := 40) [ha, h₀]
@[simp ↓] theorem xltFaultWaitBody_spares
    (ha : asp.outside [.regs, .tgf, .fifos, .threads, .clusters, .ops, .rings, .net, .aml, .host, .out]) (h₀ : s₀.Spares asp s)
    (pf : Nat) (b : List Byte) (serial : Nat) : s₀.Spares asp (xltFaultWaitBody pf b serial s).2 := by
  unfold xltFaultWaitBody; simp (maxDischargeDepth := 40) [ha, h₀]
@[simp ↓] theorem xltFaultDoneBody_spares (ha : asp.outside [.net]) (h₀ : s₀.Spares asp s) (pf : Nat) (b : List Byte) (m2 : Nat) :
    s₀.Spares asp (xltFaultDoneBody pf b m2 s).2 := by
  unfold xltFaultDoneBody; simp [ha, h₀]
@[simp ↓] theorem xltMmioSetBody_spares (ha : asp.outside [.regs]) (h₀ : s₀.Spares asp s) (pf : Nat) (b : List Byte) (m2 : Nat) :
    s₀.Spares asp (xltMmioSetBody pf b m2 s).2 := by
  unfold xltMmioSetBody; simp (maxDischargeDepth := 40) [ha, h₀]
@[simp ↓] theorem State.startQueued_spares (ha : asp.outside [.net]) (h₀ : s₀.Spares asp s) : s₀.Spares asp s.startQueued := by
  unfold State.startQueued; simp [ha, h₀]
@[simp ↓] theorem invalidationAck_spares
    (ha : asp.outside [.regs, .tgf, .fifos, .threads, .engines, .clusters, .ops, .rings, .net, .aml, .host, .out])
    (h₀ : s₀.Spares asp s) (i c : Nat) : s₀.Spares asp (invalidationAck i c s) := by
  unfold invalidationAck; (repeat' split) <;> simp (maxDischargeDepth := 40) [ha, h₀]
@[simp ↓] theorem State.resetKeys_spares (ha : asp.outside [.regs, .ram, .net]) (h₀ : s₀.Spares asp s) (p : Nat → Bool) :
    s₀.Spares asp (s.resetKeys p) := by
  unfold State.resetKeys; simp (maxDischargeDepth := 40) [ha, h₀]

/-! #### Sys2Proof/Machine/Access.lean -/

@[simp ↓] theorem State.takeXlt_spares (ha : asp.outside [.clusters, .ops]) (h₀ : s₀.Spares asp s) (c : Nat) (cl : XltClient) :
    s₀.Spares asp (s.takeXlt c cl).2 := by
  unfold State.takeXlt; (repeat' split) <;> simp [ha, h₀]
@[simp ↓] theorem State.locateAsk_spares (ha : asp.outside [.regs, .engines, .clusters, .ops]) (h₀ : s₀.Spares asp s) (c ask va : Nat)
    (u : Use) (keyed : Bool) (cl : XltClient) : s₀.Spares asp (s.locateAsk c ask va u keyed cl).2 := by
  unfold State.locateAsk
  split
  next b s1 hask =>
  have h₁ : s₀.Spares asp s1 := .of_eq hask (by simp [ha, h₀])
  refine State.ite_spares_snd h₁ (State.ite_spares_snd h₁ ?_)
  split
  case h_4 s2 hx =>
    have h₂ : s₀.Spares asp s2 := .of_eq hx (by simp [ha, h₁])
    split
    all_goals
      have h₃ := State.Spares.of_eq (s₀ := s₀) (asp := asp) ‹_ = (_, _)› (by simp [ha, h₂])
      simp [ha, h₃]
  all_goals exact .of_eq ‹_› (by simp [ha, h₁])
@[simp ↓] theorem State.locateOne_spares (ha : asp.outside [.regs, .engines, .clusters, .ops]) (h₀ : s₀.Spares asp s) (c : Nat)
    (m : MemAt) (off : Nat) (u : Use) (cl : XltClient) : s₀.Spares asp (s.locateOne c m off u cl).2 := by
  unfold State.locateOne; split <;> simp [ha, h₀]
@[simp ↓] theorem State.locate_spares (ha : asp.outside [.regs, .engines, .clusters, .ops]) (h₀ : s₀.Spares asp s) (c : Nat) (m : MemAt)
    (u : Use) (cl : XltClient) (i₁ : Nat) (i₂ : Nat) (i₃ : Nat) (i₄ : List Piece) :
    s₀.Spares asp (s.locate c m u cl i₁ i₂ i₃ i₄).2 := by
  induction i₁ generalizing s i₂ i₃ i₄ with
  | zero => exact h₀
  | succ f ih =>
    unfold State.locate
    refine State.ite_spares_snd h₀ ?_
    extract_lets step
    have h₁ : s₀.Spares asp (s.locateOne c m i₂ u cl).2 := by simp [ha, h₀]
    split
    · next h => exact ih (.of_eq h h₁) _ _ _
    · next h => exact .of_eq h h₁
    · exact h₁
@[simp ↓] theorem State.barOf_spares (ha : asp.outside [.regs, .host]) (h₀ : s₀.Spares asp s) (ps : List Piece) :
    s₀.Spares asp (s.barOf ps).2 := by
  unfold State.barOf; (repeat' split) <;> simp [ha, h₀]
@[simp ↓] theorem State.readPieces_spares (ha : asp.outside [.regs, .out]) (h₀ : s₀.Spares asp s) (ps : List Piece) :
    s₀.Spares asp (s.readPieces ps) := by
  unfold State.readPieces; simp [ha, h₀]
@[simp ↓] theorem State.gotPieces_spares (ha : asp.outside [.regs]) (h₀ : s₀.Spares asp s) (ps : List Piece) :
    s₀.Spares asp (s.gotPieces ps) := by
  unfold State.gotPieces; simp [ha, h₀]
@[simp ↓] theorem State.readAt_spares (ha : asp.outside [.regs, .tgf, .fifos, .engines, .clusters, .ops, .host, .out])
    (h₀ : s₀.Spares asp s) (c : Nat) (m : MemAt) (off n : Nat) (cl : XltClient) (st : Nat) (host : List Byte) :
    s₀.Spares asp (s.readAt c m off n cl st host).2 := by
  unfold State.readAt
  split <;> have h₁ := State.Spares.of_eq (s₀ := s₀) (asp := asp) ‹_ = (_, _)› (by simp [ha, h₀])
  case h_3 => 
    split <;> have h₂ := State.Spares.of_eq (s₀ := s₀) (asp := asp) ‹_ = (_, _)› (by simp [ha, h₁])
    · exact h₂
    · extract_lets s3
      have h₃ : s₀.Spares asp s3 := by unfold s3; simp [ha, h₂]
      split
      · simp [ha, h₃]
      · split <;> simp [ha, h₃]
  all_goals exact h₁
@[simp ↓] theorem State.scatter_spares (ha : asp.outside [.regs, .ram, .out]) (h₀ : s₀.Spares asp s) (i₁ : List Piece)
    (i₂ : List Byte) : s₀.Spares asp (s.scatter i₁ i₂) := by
  induction i₁ generalizing s i₂ with
  | nil => exact h₀
  | cons p ps ih => exact ih (by simp [ha, h₀]) _
@[simp ↓] theorem State.writeAt_spares (ha : asp.outside [.regs, .ram, .engines, .clusters, .ops, .host, .out]) (h₀ : s₀.Spares asp s)
    (c : Nat) (m : MemAt) (off : Nat) (bs : List Byte) (cl : XltClient) : s₀.Spares asp (s.writeAt c m off bs cl).2 := by
  unfold State.writeAt
  split <;> have h₁ := State.Spares.of_eq (s₀ := s₀) (asp := asp) ‹_ = (_, _)› (by simp [ha, h₀])
  case h_3 => 
    split <;> have h₂ := State.Spares.of_eq (s₀ := s₀) (asp := asp) ‹_ = (_, _)› (by simp [ha, h₁]) <;> simp [ha, h₂]
  all_goals exact h₁
@[simp ↓] theorem Moved.localStatus_spares (ha : asp.outside [.regs]) (h₀ : s₀.Spares asp s) (m : Moved) :
    s₀.Spares asp (Moved.localStatus m s).2 := by
  unfold Moved.localStatus; split <;> simp [ha, h₀]
@[simp ↓] theorem State.completeMoved_spares (ha : asp.outside [.threads, .ops, .aml]) (h₀ : s₀.Spares asp s) (k : Nat) (m : Moved)
    (st : Nat) : s₀.Spares asp (s.completeMoved k m st) := by
  unfold State.completeMoved; simp [ha, h₀]

/-! #### Sys2Proof/Machine/PortOps.lean -/

@[simp ↓] theorem State.freeKind_spares (ha : asp.outside [.ports]) (h₀ : s₀.Spares asp s) (c : Credit) (kind n : Nat) :
    s₀.Spares asp (s.freeKind c kind n) := by
  unfold State.freeKind; simp [ha, h₀]
@[simp ↓] theorem State.freeAll_spares (ha : asp.outside [.ports]) (h₀ : s₀.Spares asp s) (c : Option Credit) :
    s₀.Spares asp (s.freeAll c) := by
  unfold State.freeAll; split <;> simp [ha, h₀]
@[simp ↓] theorem State.freeOne_spares (ha : asp.outside [.ports]) (h₀ : s₀.Spares asp s) (c : Option Credit) :
    s₀.Spares asp (s.freeOne c).2 := by
  unfold State.freeOne; split <;> simp (maxDischargeDepth := 40) [ha, h₀]
@[simp ↓] theorem State.departOne_spares (ha : asp.outside [.threads, .ops, .aml]) (h₀ : s₀.Spares asp s) (x : Option (Nat × Nat)) :
    s₀.Spares asp (s.departOne x) := by
  unfold State.departOne; dsimp only; (repeat' split) <;> simp [ha, h₀]
@[simp ↓] theorem State.discardPkt_spares (ha : asp.outside [.threads, .ops, .aml, .ports]) (h₀ : s₀.Spares asp s) (x : RPkt) :
    s₀.Spares asp (s.discardPkt x) := by
  unfold State.discardPkt; simp [ha, h₀]
@[simp ↓] theorem State.toSolder_spares (ha : asp.outside [.threads, .ops, .aml, .route]) (h₀ : s₀.Spares asp s) (x : RPkt) :
    s₀.Spares asp (s.toSolder x) := by
  unfold State.toSolder; simp [ha, h₀]
@[simp ↓] theorem State.enqueue_spares (ha : asp.outside [.regs, .ports]) (h₀ : s₀.Spares asp s) (p : Nat) (ldet gdet : Bool)
    (x : RPkt) : s₀.Spares asp (s.enqueue p ldet gdet x) := by
  unfold State.enqueue; simp [ha, h₀]
@[simp ↓] theorem State.requeue_spares (ha : asp.outside [.regs, .ports, .route]) (h₀ : s₀.Spares asp s) (p : Nat) :
    s₀.Spares asp (s.requeue p) := by
  unfold State.requeue; simp [ha, h₀]
@[simp ↓] theorem portDown_spares (ha : asp.outside [.regs, .ports, .route]) (h₀ : s₀.Spares asp s) (p : Nat) :
    s₀.Spares asp (portDown p s) := by
  unfold portDown; simp [ha, h₀]
@[simp ↓] theorem State.setLane_spares (ha : asp.outside [.lanes]) (h₀ : s₀.Spares asp s) (p l : Nat) (x : Lane) :
    s₀.Spares asp (s.setLane p l x) := by
  unfold State.setLane; simp [ha, h₀]
@[simp ↓] theorem State.eyeAbort_spares (ha : asp.outside [.regs, .lanes]) (h₀ : s₀.Spares asp s) (p l : Nat) :
    s₀.Spares asp (s.eyeAbort p l) := by
  unfold State.eyeAbort; simp (maxDischargeDepth := 40) [ha, h₀]
@[simp ↓] theorem State.linkDown_spares (ha : asp.outside [.regs, .tgf, .fifos, .threads, .ops, .aml, .ports, .lanes, .route, .out])
    (h₀ : s₀.Spares asp s) (p : Nat) (st : LState) : s₀.Spares asp (s.linkDown p st) := by
  unfold State.linkDown; dsimp only; split <;> simp (maxDischargeDepth := 40) [ha, h₀]

/-! #### Sys2Proof/Machine/Egress.lean -/

@[simp ↓] theorem State.setSch_spares (ha : asp.outside [.ports]) (h₀ : s₀.Spares asp s) (p : Nat) (x : Sched) :
    s₀.Spares asp (s.setSch p x) := by
  unfold State.setSch; simp [ha, h₀]
@[simp ↓] theorem gateEdge_spares (ha : asp.outside [.ports]) (h₀ : s₀.Spares asp s) (p : Nat) : s₀.Spares asp (gateEdge p s) := by
  unfold gateEdge; simp [ha, h₀]
@[simp ↓] theorem gateCtrl_spares (ha : asp.outside [.regs, .ports]) (h₀ : s₀.Spares asp s) (path : Path) (p : Nat) (v : Word) :
    s₀.Spares asp (gateCtrl path p v s) := by
  unfold gateCtrl; simp (maxDischargeDepth := 40) [ha, h₀]
@[simp ↓] theorem gateArm_spares (ha : asp.outside [.regs, .ports]) (h₀ : s₀.Spares asp s) (path : Path) (p : Nat) (v : Word) :
    s₀.Spares asp (gateArm path p v s) := by
  unfold gateArm; simp [ha, h₀]
@[simp ↓] theorem gateCancel_spares (ha : asp.outside [.regs, .ports]) (h₀ : s₀.Spares asp s) (path : Path) (p : Nat) (v : Word) :
    s₀.Spares asp (gateCancel path p v s) := by
  unfold gateCancel; simp [ha, h₀]
@[simp ↓] theorem gateTakeover_spares (ha : asp.outside [.regs, .ports]) (h₀ : s₀.Spares asp s) (p : Nat) :
    s₀.Spares asp (gateTakeover p s) := by
  unfold gateTakeover; simp (maxDischargeDepth := 40) [ha, h₀]
@[simp ↓] theorem State.gateWriteRefused_spares (ha : asp.outside [.ports]) (h₀ : s₀.Spares asp s) (p : Nat) :
    s₀.Spares asp (s.gateWriteRefused p) := by
  unfold State.gateWriteRefused; simp [ha, h₀]
@[simp ↓] theorem State.countWaits_spares (ha : asp.outside [.regs, .ports]) (h₀ : s₀.Spares asp s) (p slot ft : Nat) (g : Gate)
    (hs : List Head) : s₀.Spares asp (s.countWaits p slot ft g hs) := by
  unfold State.countWaits; simp (maxDischargeDepth := 40) [ha, h₀]
@[simp ↓] theorem State.headDecision_spares (ha : asp.outside [.regs, .ports]) (h₀ : s₀.Spares asp s) (p : Nat) :
    s₀.Spares asp (s.headDecision p).2 := by
  unfold State.headDecision; dsimp only; (repeat' split) <;> simp (maxDischargeDepth := 40) [ha, h₀]
@[simp ↓] theorem State.startHead_spares (ha : asp.outside [.regs, .ports]) (h₀ : s₀.Spares asp s) (p : Nat) (t : Taken) :
    s₀.Spares asp (s.startHead p t) := by
  unfold State.startHead; simp (maxDischargeDepth := 40) [ha, h₀]
@[simp ↓] theorem State.setLim_spares (ha : asp.outside [.lims]) (h₀ : s₀.Spares asp s) (key : Nat) (x : Lim) :
    s₀.Spares asp (s.setLim key x) := by
  unfold State.setLim; simp [ha, h₀]
@[simp ↓] theorem State.limOf_spares (ha : asp.outside [.limCache]) (h₀ : s₀.Spares asp s) (tile conn : Nat) :
    s₀.Spares asp (s.limOf tile conn).2 := by
  unfold State.limOf
  extract_lets key
  split
  next v s1 heq =>
  have h₁ : s₀.Spares asp s1 := by
    refine .of_eq heq ?_
    split
    · exact h₀
    · exact State.limCache_spares ha.1 (State.ite_spares h₀ (by simp [ha, h₀])) _
  exact State.ite_spares_snd h₁ h₁
@[simp ↓] theorem State.limPass_spares (ha : asp.outside [.regs, .lims]) (h₀ : s₀.Spares asp s) (key k n : Nat) :
    s₀.Spares asp (s.limPass key k n).2 := by
  unfold State.limPass; simp (maxDischargeDepth := 40) [ha, h₀]
theorem State.refilled_spares (ha : asp.outside [.ports, .lims, .limRefill]) (h₀ : s₀.Spares asp s) (l : SMap Lim)
    (p : SMap Port) (n : Nat) :
    s₀.Spares asp { s with lims := l, ports := p, limRefill := n } :=
  State.lims_spares ha.2.1 (State.ports_spares ha.1 (State.limRefill_spares ha.2.2.1 h₀ n) p) l
@[simp ↓] theorem limiterRefill_spares (ha : asp.outside [.ports, .lims, .limRefill]) (h₀ : s₀.Spares asp s) :
    s₀.Spares asp (limiterRefill s) := by
  unfold limiterRefill
  exact State.ite_spares h₀ (State.refilled_spares ha h₀ _ _ _)
@[simp ↓] theorem wheelSlot_spares (ha : asp.outside [.lims]) (h₀ : s₀.Spares asp s) (tile : Nat) :
    s₀.Spares asp (wheelSlot tile s) := by
  unfold wheelSlot; simp [ha, h₀]
@[simp ↓] theorem limiterCfgWrite_spares (ha : asp.outside [.regs, .lims]) (h₀ : s₀.Spares asp s) (path : Path) (tile k : Nat)
    (v : Word) : s₀.Spares asp (limiterCfgWrite path tile k v s) := by
  unfold limiterCfgWrite; simp (maxDischargeDepth := 40) [ha, h₀]
@[simp ↓] theorem schLimInv_spares (ha : asp.outside [.limCache]) (h₀ : s₀.Spares asp s) (path : Path) (v : Word) :
    s₀.Spares asp (schLimInv path v s) := by
  unfold schLimInv; simp (maxDischargeDepth := 40) [ha, h₀]
@[simp ↓] theorem depthSample_spares (ha : asp.outside [.regs]) (h₀ : s₀.Spares asp s) : s₀.Spares asp (depthSample s) := by
  unfold depthSample; simp (maxDischargeDepth := 40) [ha, h₀]

/-! #### Sys2Proof/Machine/Routing.lean -/

@[simp ↓] theorem State.setBank_spares (ha : asp.outside [.route]) (h₀ : s₀.Spares asp s) (b v : Nat) :
    s₀.Spares asp (s.setBank b v) := by
  unfold State.setBank; simp [ha, h₀]
@[simp ↓] theorem State.choose_spares (h₀ : s₀.Spares asp s) (h : Nat) (live : List Cand4) : s₀.Spares asp (s.choose h live).2 := by
  unfold State.choose; simp [h₀]
@[simp ↓] theorem State.leaveOn_spares (ha : asp.outside [.regs, .ports]) (h₀ : s₀.Spares asp s) (x : RPkt) (c : Cand4) :
    s₀.Spares asp (s.leaveOn x c) := by
  unfold State.leaveOn; simp (maxDischargeDepth := 40) [ha, h₀]
theorem State.routePkt_spares (ha : asp.outside [.regs, .threads, .ops, .aml, .ports, .route]) (h₀ : s₀.Spares asp s) (tile : Nat)
    (x : RPkt) (ht : s.routePkt tile x = some s') : s₀.Spares asp s' := by
  unfold State.routePkt at ht
  split at ht
  · cases ht; simp [ha, h₀]
  · cases ht; simp [ha, h₀]
  · dsimp only at ht; split at ht
    · cases ht
    · split at ht
      · next c s1 hc =>
        have h₁ : s₀.Spares asp s1 := .of_eq hc (by simp [h₀])
        cases ht; simp (maxDischargeDepth := 40) [ha, h₁]
      · next hc => cases ht; exact .of_eq hc (by simp [h₀])
theorem State.routeHeld_spares (ha : asp.outside [.regs, .threads, .ops, .aml, .ports, .route]) (h₀ : s₀.Spares asp s) (tile i : Nat)
    (hs : List Hold) (ht : s.routeHeld tile i hs = some s') : s₀.Spares asp s' := by
  induction hs generalizing i with
  | nil => simp [State.routeHeld] at ht
  | cons x hs ih =>
    unfold State.routeHeld at ht
    split at ht
    · split at ht
      · next h' => cases ht; exact State.routePkt_spares ha (by simp [ha, h₀]) _ _ h'
      · exact ih _ ht
    · exact ih _ ht
@[simp ↓] theorem route_spares (ha : asp.outside [.regs, .threads, .ops, .aml, .ports, .route]) (h₀ : s₀.Spares asp s) (tile : Nat) :
    s₀.Spares asp (route tile s) := by
  unfold route; dsimp only; split
  · exact State.routeHeld_spares ha h₀ _ _ _ ‹_›
  · split
    · exact h₀
    · split
      · exact h₀
      · split
        · exact State.routePkt_spares ha (State.route_spares (by simp [ha]) h₀ _) _ _ ‹_›
        · simp (maxDischargeDepth := 40) [ha, h₀]
@[simp ↓] theorem routeHoldEnd_spares (ha : asp.outside [.regs, .threads, .ops, .aml, .ports, .route]) (h₀ : s₀.Spares asp s)
    (i : Nat) : s₀.Spares asp (routeHoldEnd i s) := by
  unfold routeHoldEnd; split <;> simp (maxDischargeDepth := 40) [ha, h₀]
@[simp ↓] theorem State.enableRouting_spares (ha : asp.outside [.regs, .route]) (h₀ : s₀.Spares asp s) (b : Nat) :
    s₀.Spares asp (s.enableRouting b) := by
  unfold State.enableRouting; simp (maxDischargeDepth := 40) [ha, h₀]
@[simp ↓] theorem State.armBank_spares (ha : asp.outside [.regs, .route]) (h₀ : s₀.Spares asp s) (at_ : Word) :
    s₀.Spares asp (s.armBank at_) := by
  unfold State.armBank; simp [ha, h₀]
@[simp ↓] theorem epochWrite_spares (ha : asp.outside [.regs, .route]) (h₀ : s₀.Spares asp s) (path : Path) (v : Word) :
    s₀.Spares asp (epochWrite path v s) := by
  unfold epochWrite; simp (maxDischargeDepth := 40) [ha, h₀]
@[simp ↓] theorem routeEnable_spares (ha : asp.outside [.regs, .route]) (h₀ : s₀.Spares asp s) (path : Path) (v : Word) :
    s₀.Spares asp (routeEnable path v s) := by
  unfold routeEnable; simp [ha, h₀]
@[simp ↓] theorem routeArm_spares (ha : asp.outside [.regs, .route]) (h₀ : s₀.Spares asp s) (path : Path) (v : Word) :
    s₀.Spares asp (routeArm path v s) := by
  unfold routeArm; simp [ha, h₀]
@[simp ↓] theorem routeCancel_spares (ha : asp.outside [.regs, .route]) (h₀ : s₀.Spares asp s) (path : Path) (v : Word) :
    s₀.Spares asp (routeCancel path v s) := by
  unfold routeCancel; simp [ha, h₀]
@[simp ↓] theorem epochSwitch_spares (ha : asp.outside [.regs, .route]) (h₀ : s₀.Spares asp s) : s₀.Spares asp (epochSwitch s) := by
  unfold epochSwitch; split <;> simp (maxDischargeDepth := 40) [ha, h₀]
@[simp ↓] theorem drainEnd_spares (ha : asp.outside [.route]) (h₀ : s₀.Spares asp s) : s₀.Spares asp (drainEnd s) := by
  unfold drainEnd; split <;> simp [ha, h₀]
@[simp ↓] theorem State.tableWrite_spares (ha : asp.outside [.regs]) (h₀ : s₀.Spares asp s) (b t i : Nat) (bs : List Byte) :
    s₀.Spares asp (s.tableWrite b t i bs) := by
  unfold State.tableWrite; split <;> simp [ha, h₀]
@[simp ↓] theorem State.copyBank_spares (ha : asp.outside [.regs]) (h₀ : s₀.Spares asp s) (b : Nat) : s₀.Spares asp (s.copyBank b) := by
  unfold State.copyBank; simp [ha, h₀]
@[simp ↓] theorem rtLoadBody_spares (ha : asp.outside [.regs, .tgf, .fifos, .out]) (h₀ : s₀.Spares asp s) (st : Nat) (data : List Byte)
    (pf : Nat) (b : List Byte) (m4 : Nat) : s₀.Spares asp (rtLoadBody st data pf b m4 s).2 := by
  unfold rtLoadBody; dsimp only; (repeat' split) <;> simp [ha, h₀]
@[simp ↓] theorem rtArmBody_spares (ha : asp.outside [.regs, .route]) (h₀ : s₀.Spares asp s) (pf : Nat) (b : List Byte) (m2 : Nat) :
    s₀.Spares asp (rtArmBody pf b m2 s).2 := by
  unfold rtArmBody; dsimp only; (repeat' split) <;> simp [ha, h₀]
@[simp ↓] theorem rtCancelBody_spares (ha : asp.outside [.route]) (h₀ : s₀.Spares asp s) (pf : Nat) (m1 : List Byte) (m2 : Nat) :
    s₀.Spares asp (rtCancelBody pf m1 m2 s).2 := by
  unfold rtCancelBody; simp (maxDischargeDepth := 40) [ha, h₀]
@[simp ↓] theorem rtQueryBody_spares (h₀ : s₀.Spares asp s) (pf : Nat) (m1 : List Byte) (m2 : Nat) :
    s₀.Spares asp (rtQueryBody pf m1 m2 s).2 := by
  unfold rtQueryBody; simp [h₀]
@[simp ↓] theorem State.eptDrop_spares (ha : asp.outside [.eptCache]) (h₀ : s₀.Spares asp s) (epid : Nat) :
    s₀.Spares asp (s.eptDrop epid) := by
  unfold State.eptDrop; simp [ha, h₀]
@[simp ↓] theorem eptWriteBody_spares (ha : asp.outside [.ram, .eptCache]) (h₀ : s₀.Spares asp s) (pf : Nat) (b : List Byte)
    (m2 : Nat) : s₀.Spares asp (eptWriteBody pf b m2 s).2 := by
  unfold eptWriteBody; simp (maxDischargeDepth := 40) [ha, h₀]
@[simp ↓] theorem routeEptInv_spares (ha : asp.outside [.eptCache]) (h₀ : s₀.Spares asp s) (path : Path) (v : Word) :
    s₀.Spares asp (routeEptInv path v s) := by
  unfold routeEptInv; simp (maxDischargeDepth := 40) [ha, h₀]

/-! #### Sys2Proof/Machine/Solder.lean -/

@[simp ↓] theorem State.spillWrite_spares (ha : asp.outside [.ram]) (h₀ : s₀.Spares asp s) (p : Packet) (cells : List Nat) :
    s₀.Spares asp (s.spillWrite p cells) := by
  unfold State.spillWrite; simp [ha, h₀]
@[simp ↓] theorem State.formAck_spares (ha : asp.outside [.regs, .route]) (h₀ : s₀.Spares asp s) (tile : Nat) (p : Packet) :
    s₀.Spares asp (s.formAck tile p) := by
  unfold State.formAck; simp [ha, h₀]
@[simp ↓] theorem State.sendAck_spares (ha : asp.outside [.regs, .net, .route]) (h₀ : s₀.Spares asp s) (r : Nat) (a : AckBody) :
    s₀.Spares asp (s.sendAck r a) := by
  unfold State.sendAck; simp [ha, h₀]
@[simp ↓] theorem State.refuseBare_spares (ha : asp.outside [.regs, .route]) (h₀ : s₀.Spares asp s) (p : Packet) (rx : Word)
    (code detail : Nat) : s₀.Spares asp (s.refuseBare p rx code detail) := by
  unfold State.refuseBare; simp [ha, h₀]
@[simp ↓] theorem State.refuse_spares (ha : asp.outside [.regs, .net, .route]) (h₀ : s₀.Spares asp s) (r : Nat) (p : Packet) (rx : Word)
    (hold : Bool) (code detail : Nat) : s₀.Spares asp (s.refuse r p rx hold code detail) := by
  unfold State.refuse; simp [ha, h₀]
@[simp ↓] theorem State.ackConsumed_spares (ha : asp.outside [.regs, .net, .route]) (h₀ : s₀.Spares asp s) (r : Nat) :
    s₀.Spares asp (s.ackConsumed r) := by
  unfold State.ackConsumed; split <;> simp [ha, h₀]
@[simp ↓] theorem ackDelay_spares (ha : asp.outside [.regs, .net, .route]) (h₀ : s₀.Spares asp s) (r : Nat) :
    s₀.Spares asp (ackDelay r s) := by
  unfold ackDelay; split <;> simp [ha, h₀]
@[simp ↓] theorem State.readyMark_spares (ha : asp.outside [.net]) (h₀ : s₀.Spares asp s) (r : Nat) :
    s₀.Spares asp (s.readyMark r) := by
  unfold State.readyMark; simp [ha, h₀]
@[simp ↓] theorem State.consume_spares (ha : asp.outside [.regs, .net, .route]) (h₀ : s₀.Spares asp s) (r : Nat) (p : Packet)
    (rx : Word) (hold now : Bool) : s₀.Spares asp (s.consume r p rx hold now) := by
  unfold State.consume; simp (maxDischargeDepth := 40) [ha, h₀]
theorem State.deliver_spares (ha : asp.outside [.regs, .fifos, .clusters, .net, .route]) (h₀ : s₀.Spares asp s) (r : Nat) (p : Packet)
    (rx : Word) (hold : Bool) (ht : s.deliver r p rx hold = some s') : s₀.Spares asp s' := by
  unfold State.deliver at ht; dsimp only at ht; split at ht
  · cases ht; simp (maxDischargeDepth := 40) [ha, h₀]
  · split at ht
    · cases ht
    · obtain ⟨u, hu, rfl⟩ := Option.map_eq_some_iff.mp ht
      refine State.readyMark_spares (by simp [ha]) ?_ _
      split at hu
      · cases hu; simp (maxDischargeDepth := 40) [ha, h₀]
      · exact State.wfStart_spares (by simp [ha]) (by simp (maxDischargeDepth := 40) [ha, h₀]) _ _ _ _ hu
@[simp ↓] theorem State.ackItem_spares (ha : asp.outside [.regs, .fifos, .net]) (h₀ : s₀.Spares asp s) (r : Nat) (b : List Byte) :
    s₀.Spares asp (s.ackItem r b) := by
  unfold State.ackItem; simp [ha, h₀]
@[simp ↓] theorem State.owl_spares (ha : asp.outside [.regs]) (h₀ : s₀.Spares asp s) (p : Packet) : s₀.Spares asp (s.owl p) := by
  unfold State.owl; simp [ha, h₀]
@[simp ↓] theorem State.duplicate_spares (ha : asp.outside [.regs, .net, .route]) (h₀ : s₀.Spares asp s) (r : Nat) (p : Packet) :
    s₀.Spares asp (s.duplicate r p) := by
  unfold State.duplicate; split <;> simp (maxDischargeDepth := 40) [ha, h₀]
@[simp ↓] theorem State.holdPkt_spares (ha : asp.outside [.regs, .ram, .net, .route]) (h₀ : s₀.Spares asp s) (r : Nat) (p : Packet)
    (full : Bool) : s₀.Spares asp (s.holdPkt r p full) := by
  unfold State.holdPkt; dsimp only; split <;> simp (maxDischargeDepth := 40) [ha, h₀]
@[simp ↓] theorem State.dropHeld_spares (ha : asp.outside [.net]) (h₀ : s₀.Spares asp s) (r : Nat) (n : BitVec 32) :
    s₀.Spares asp (s.dropHeld r n) := by
  unfold State.dropHeld; simp [ha, h₀]
@[simp ↓] theorem State.discardHeld_spares (ha : asp.outside [.regs, .net]) (h₀ : s₀.Spares asp s) (r : Nat) (x : Held)
    (cnt : RegDesc) : s₀.Spares asp (s.discardHeld r x cnt) := by
  unfold State.discardHeld; simp (maxDischargeDepth := 40) [ha, h₀]
@[simp ↓] theorem State.setHeld_spares (ha : asp.outside [.net]) (h₀ : s₀.Spares asp s) (r : Nat) (n : BitVec 32) (f : Held → Held) :
    s₀.Spares asp (s.setHeld r n f) := by
  unfold State.setHeld; simp [ha, h₀]
@[simp ↓] theorem State.releaseHeld_spares (ha : asp.outside [.regs, .fifos, .clusters, .net, .route]) (h₀ : s₀.Spares asp s) (r : Nat)
    (x : Held) : s₀.Spares asp (s.releaseHeld r x) := by
  unfold State.releaseHeld; split
  · simp [ha, h₀]
  · split
    · next h =>
      have h₁ := State.deliver_spares (by simp [ha]) (State.dropHeld_spares (by simp [ha]) h₀ _ _) _ _ _ _ h
      simp (maxDischargeDepth := 40) [ha, h₁]
    · simp (maxDischargeDepth := 40) [ha, h₀]
@[simp ↓] theorem State.drainReady_spares (ha : asp.outside [.regs, .fifos, .clusters, .net, .route]) (h₀ : s₀.Spares asp s)
    (i₁ : Nat) : s₀.Spares asp (State.drainReady i₁ s) := by
  induction i₁ generalizing s with
  | zero => exact h₀
  | succ n ih =>
    unfold State.drainReady
    split
    · exact h₀
    split
    · exact h₀
    · exact ih (by simp [ha, h₀])
@[simp ↓] theorem State.releaseOrHold_spares (ha : asp.outside [.regs, .ram, .fifos, .clusters, .net, .route]) (h₀ : s₀.Spares asp s)
    (r : Nat) (p : Packet) (hold : Bool) : s₀.Spares asp (s.releaseOrHold r p hold) := by
  unfold State.releaseOrHold; extract_lets ready s1
  have h₁ : s₀.Spares asp s1 := by unfold s1; simp [ha, h₀]
  refine State.ite_spares ?_ (by simp [ha, h₁])
  split
  · exact State.deliver_spares (by simp [ha]) h₁ _ _ _ _ ‹_›
  · simp [ha, h₁]
@[simp ↓] theorem State.judge_spares (ha : asp.outside [.regs, .ram, .fifos, .clusters, .net, .route]) (h₀ : s₀.Spares asp s)
    (port : Nat) (p : Packet) : s₀.Spares asp (s.judge port p) := by
  unfold State.judge
  refine State.ite_spares (by simp [ha, h₀]) ?_
  split
  · simp [ha, h₀]
  refine State.ite_spares (by simp [ha, h₀]) (State.ite_spares (by simp [ha, h₀]) (State.ite_spares ?_ ?_))
  · split <;> simp [ha, h₀]
  split
  · simp [ha, h₀]
  next r _ =>
  extract_lets h rx x s1 hold d
  have h₁ : s₀.Spares asp s1 := State.setRx_spares (by simp [ha]) h₀ _ _
  clear_value s1 d
  refine State.ite_spares h₀ (State.ite_spares ?_ (State.ite_spares ?_ ?_))
  · simp [ha, h₁]
  · simp [ha, h₁]
  · simp (maxDischargeDepth := 40) [ha, h₁]
@[simp ↓] theorem solderArrival_spares (ha : asp.outside [.regs, .ram, .fifos, .clusters, .net, .ports, .route]) (h₀ : s₀.Spares asp s)
    (port : Nat) : s₀.Spares asp (solderArrival port s) := by
  unfold solderArrival; (repeat' split) <;> simp (maxDischargeDepth := 40) [ha, h₀]
@[simp ↓] theorem release_spares (ha : asp.outside [.regs, .fifos, .clusters, .net, .route]) (h₀ : s₀.Spares asp s) (r : Nat) :
    s₀.Spares asp (release r s) := by
  unfold release; split <;> simp [ha, h₀]
@[simp ↓] theorem sweep_spares (ha : asp.outside [.regs, .net]) (h₀ : s₀.Spares asp s) : s₀.Spares asp (sweep s) := by
  unfold sweep
  refine State.ite_spares h₀ (State.foldl_spares (fun s e => State.foldl_spares (fun s x => ?_) (.refl s) _) h₀ _)
  split <;> simp [ha]
@[simp ↓] theorem readback_spares (ha : asp.outside [.net]) (h₀ : s₀.Spares asp s) (r n : Nat) : s₀.Spares asp (readback r n s) := by
  unfold readback; dsimp only; (repeat' split) <;> simp [ha, h₀]
@[simp ↓] theorem readbackDone_spares (ha : asp.outside [.regs, .net]) (h₀ : s₀.Spares asp s) (r n : Nat) :
    s₀.Spares asp (readbackDone r n s) := by
  unfold readbackDone; dsimp only; (repeat' split) <;> simp (maxDischargeDepth := 40) [ha, h₀]
@[simp ↓] theorem State.doomLater_spares (ha : asp.outside [.clusters]) (h₀ : s₀.Spares asp s) (r : Nat) (n : BitVec 32)
    (code detail : Nat) : s₀.Spares asp (s.doomLater r n code detail) := by
  unfold State.doomLater
  refine State.ite_spares h₀ (State.foldl_spares (fun s e => ?_) h₀ _)
  split <;> simp [ha]
@[simp ↓] theorem State.targetError_spares
    (ha : asp.outside [.regs, .tgf, .fifos, .threads, .clusters, .ops, .rings, .net, .mtch, .aml, .host, .out]) (h₀ : s₀.Spares asp s)
    (r : Nat) (p : Packet) (code detail : Nat) : s₀.Spares asp (s.targetError r p code detail) := by
  unfold State.targetError; simp [ha, h₀]
@[simp ↓] theorem State.answer_spares
    (ha : asp.outside [.regs, .tgf, .fifos, .threads, .clusters, .ops, .rings, .net, .mtch, .aml, .host, .route, .out])
    (h₀ : s₀.Spares asp s) (c ref : Nat) (kind : Outc) (code detail : Nat) (now : Bool) :
    s₀.Spares asp (s.answer c ref kind code detail now) := by
  unfold State.answer; (repeat' split) <;> simp (maxDischargeDepth := 40) [ha, h₀]
@[simp ↓] theorem State.answerWord_spares
    (ha : asp.outside [.regs, .tgf, .fifos, .threads, .clusters, .ops, .rings, .net, .mtch, .aml, .host, .route, .out])
    (h₀ : s₀.Spares asp s) (c ref outcome detail : Nat) : s₀.Spares asp (s.answerWord c ref outcome detail) := by
  unfold State.answerWord; simp (maxDischargeDepth := 40) [ha, h₀]

/-! #### Sys2Proof/Machine/Forming.lean -/

@[simp ↓] theorem State.rlxAndSrc_spares (h₀ : s₀.Spares asp s) (o : Op) : s₀.Spares asp (s.rlxAndSrc o).2.2 := by
  unfold State.rlxAndSrc; dsimp only; (repeat' split) <;> simp [h₀]
@[simp ↓] theorem State.inject_spares (ha : asp.outside [.regs, .route]) (h₀ : s₀.Spares asp s) (c k : Nat) (o : Op) (p : Packet) :
    s₀.Spares asp (s.inject c k o p) := by
  unfold State.inject; simp (maxDischargeDepth := 40) [ha, h₀]
@[simp ↓] theorem State.addTx_spares (ha : asp.outside [.net]) (h₀ : s₀.Spares asp s) (r : Nat) (p : Packet) (src : SrcRef) :
    s₀.Spares asp (s.addTx r p src) := by
  unfold State.addTx; simp [ha, h₀]
@[simp ↓] theorem State.recordTx_spares (ha : asp.outside [.net]) (h₀ : s₀.Spares asp s) (o : Op) (p : Packet) (src : SrcRef) :
    s₀.Spares asp (s.recordTx o p src) := by
  unfold State.recordTx; simp (maxDischargeDepth := 40) [ha, h₀]
@[simp ↓] theorem State.assignSeq_spares (ha : asp.outside [.ops, .net]) (h₀ : s₀.Spares asp s) (k : Nat) :
    s₀.Spares asp (s.assignSeq k) := by
  unfold State.assignSeq; dsimp only; split <;> simp [ha, h₀]
@[simp ↓] theorem State.endOnError_spares (ha : asp.outside [.threads, .ops, .aml]) (h₀ : s₀.Spares asp s) (k : Nat) :
    s₀.Spares asp (s.endOnError k) := by
  unfold State.endOnError; dsimp only; split <;> simp [ha, h₀]
@[simp ↓] theorem startFabric_spares (ha : asp.outside [.regs, .threads, .ops, .aml, .eptCache, .limCache]) (h₀ : s₀.Spares asp s)
    (k : Nat) : s₀.Spares asp (startFabric k s) := by
  unfold startFabric; dsimp only; (repeat' split) <;> try simp (maxDischargeDepth := 40) [ha, h₀]
  all_goals
    have h₁ := State.Spares.of_eq (s₀ := s₀) (asp := asp) ‹_ = (_, _)› (by simp (maxDischargeDepth := 40) [ha, h₀])
    simp (maxDischargeDepth := 40) [ha, h₁]
@[simp ↓] theorem State.dropResponse_spares
    (ha : asp.outside [.regs, .tgf, .fifos, .threads, .clusters, .ops, .rings, .net, .mtch, .aml, .host, .route, .out])
    (h₀ : s₀.Spares asp s) (k : Nat) (kind : Outc) (code detail : Nat) : s₀.Spares asp (s.dropResponse k kind code detail) := by
  unfold State.dropResponse; dsimp only; split <;> simp (maxDischargeDepth := 40) [ha, h₀]
@[simp ↓] theorem State.unreached_spares
    (ha : asp.outside [.regs, .tgf, .fifos, .threads, .clusters, .ops, .rings, .net, .mtch, .aml, .host, .route, .out])
    (h₀ : s₀.Spares asp s) (k : Nat) : s₀.Spares asp (s.unreached k) := by
  unfold State.unreached; simp (maxDischargeDepth := 40) [ha, h₀]
@[simp ↓] theorem State.countSent_spares (ha : asp.outside [.net]) (h₀ : s₀.Spares asp s) (k : Nat) :
    s₀.Spares asp (s.countSent k) := by
  unfold State.countSent; simp [ha, h₀]
@[simp ↓] theorem State.notFormed_spares
    (ha : asp.outside [.regs, .tgf, .fifos, .threads, .clusters, .ops, .rings, .net, .mtch, .aml, .host, .route, .out])
    (h₀ : s₀.Spares asp s) (k : Nat) : s₀.Spares asp (s.notFormed k) := by
  unfold State.notFormed; dsimp only; (repeat' split) <;> simp (maxDischargeDepth := 40) [ha, h₀]
@[simp ↓] theorem State.halfGone_spares (ha : asp.outside [.threads, .ops, .aml]) (h₀ : s₀.Spares asp s) (k : Nat) :
    s₀.Spares asp (s.halfGone k) := by
  unfold State.halfGone; simp (maxDischargeDepth := 40) [ha, h₀]
theorem State.retried_spares (ha : asp.outside [.regs, .tgf, .fifos, .threads, .clusters, .ops, .rings, .net, .aml, .host, .out])
    (h₀ : s₀.Spares asp s) (m : Moved) (ask va access src : Nat) (ht : s.retried m ask va access src = some s') : s₀.Spares asp s' := by
  unfold State.retried at ht; (repeat' split at ht) <;> cases ht <;> simp [ha, h₀]
@[simp ↓] theorem State.targetFail_spares
    (ha : asp.outside [.regs, .tgf, .fifos, .threads, .clusters, .ops, .rings, .net, .aml, .host, .out]) (h₀ : s₀.Spares asp s)
    (m : Moved) (ask va access src : Nat) : s₀.Spares asp (s.targetFail m ask va access src).2.2.2 := by
  unfold State.targetFail; split
  · dsimp only; split <;> simp (maxDischargeDepth := 40) [ha, h₀]
  · split
    · exact State.retried_spares (by simp [ha]) h₀ _ _ _ _ _ ‹_›
    · dsimp only; split <;> exact h₀
  · exact h₀
@[simp ↓] theorem State.setTxRec_spares (ha : asp.outside [.net]) (h₀ : s₀.Spares asp s) (r : Nat) (q : BitVec 32) (f : TxRec → TxRec) :
    s₀.Spares asp (s.setTxRec r q f) := by
  unfold State.setTxRec; simp [ha, h₀]
@[simp ↓] theorem State.retxFail_spares
    (ha : asp.outside [.regs, .tgf, .fifos, .threads, .clusters, .ops, .rings, .net, .mtch, .aml, .host, .route, .out])
    (h₀ : s₀.Spares asp s) (r : Nat) (x : TxRec) (code detail : Nat) : s₀.Spares asp (s.retxFail r x code detail) := by
  unfold State.retxFail; simp (maxDischargeDepth := 40) [ha, h₀]
@[simp ↓] theorem State.srcFail_spares
    (ha : asp.outside [.regs, .tgf, .fifos, .threads, .clusters, .ops, .rings, .net, .mtch, .aml, .host, .route, .out])
    (h₀ : s₀.Spares asp s) (k : Nat) (m : Moved) (key va : Nat) : s₀.Spares asp (s.srcFail k m key va) := by
  unfold State.srcFail; dsimp only; (repeat' split) <;> simp (maxDischargeDepth := 40) [ha, h₀]
@[simp ↓] theorem State.payloadOf_spares (ha : asp.outside [.regs, .tgf, .fifos, .engines, .clusters, .ops, .host, .out])
    (h₀ : s₀.Spares asp s) (c k : Nat) (src : SrcRef) (check : Bool) (st : Nat) (host : List Byte) :
    s₀.Spares asp (s.payloadOf c k src check st host).2 := by
  unfold State.payloadOf; split
  · exact h₀
  · simp [ha, h₀]
  · split <;> next h =>
      have h₁ := congrArg (fun p => p.2.2) h
      dsimp only at h₁
      subst h₁
      split <;> simp (maxDischargeDepth := 40) [ha, h₀]
@[simp ↓] theorem State.passLim_spares (ha : asp.outside [.regs, .lims]) (h₀ : s₀.Spares asp s) (k n : Nat) :
    s₀.Spares asp (s.passLim k n).2 := by
  unfold State.passLim; split <;> simp [ha, h₀]
@[simp ↓] theorem State.afterForm_spares
    (ha : asp.outside [.regs, .tgf, .fifos, .threads, .clusters, .ops, .rings, .net, .mtch, .aml, .host, .route, .out])
    (h₀ : s₀.Spares asp s) (k : Nat) (p : Packet) (src : SrcRef) : s₀.Spares asp (s.afterForm k p src) := by
  unfold State.afterForm; dsimp only; (repeat' split) <;> simp (maxDischargeDepth := 40) [ha, h₀]
@[simp ↓] theorem State.formRetx_spares (ha : asp.outside [.regs, .ops, .net, .route]) (h₀ : s₀.Spares asp s) (c k r : Nat) (x : TxRec)
    (payload : List Byte) : s₀.Spares asp (s.formRetx c k r x payload) := by
  unfold State.formRetx; simp (maxDischargeDepth := 40) [ha, h₀]
@[simp ↓] theorem State.formNext_spares
    (ha : asp.outside [.regs, .tgf, .fifos, .threads, .engines, .clusters, .ops, .rings, .net, .mtch, .aml, .host, .lims, .route, .out])
    (h₀ : s₀.Spares asp s) (c k st : Nat) (host : List Byte) : s₀.Spares asp (s.formNext c k st host) := by
  unfold State.formNext; dsimp only; (repeat' split) <;> try simp (maxDischargeDepth := 40) [ha]
  all_goals
    have h₁ := State.Spares.of_eq (s₀ := s₀) (asp := asp) ‹_ = (_, _)› (by simp (maxDischargeDepth := 40) [ha, h₀])
    simp (maxDischargeDepth := 40) [ha, h₁]
@[simp ↓] theorem packetForm_spares
    (ha : asp.outside [.regs, .tgf, .fifos, .threads, .engines, .clusters, .ops, .rings, .net, .mtch, .aml, .host, .eptCache, .lims,
      .limCache, .route, .out])
    (h₀ : s₀.Spares asp s) (c slot st : Nat) (data : List Byte) : s₀.Spares asp (packetForm c slot st data s) := by
  unfold packetForm
  extract_lets k o
  refine State.ite_spares h₀ (State.ite_spares (by simp [ha, h₀]) (State.ite_spares h₀ (State.ite_spares ?_ ?_)))
  · split
    · simp [ha, h₀]
    · extract_lets n
      refine State.ite_spares (by simp [ha, h₀]) (State.ite_spares (by simp [ha, h₀]) ?_)
      split <;> have h₁ := State.Spares.of_eq (s₀ := s₀) (asp := asp) ‹_ = (_, _)› (by simp [ha, h₀])
      · simp [ha, h₁]
      · exact h₁
      · simp [ha, h₁]
  · simp (maxDischargeDepth := 40) [ha, h₀]

/-! #### Sys2Proof/Machine/Amalgam.lean -/

@[simp ↓] theorem State.setAslot_spares (ha : asp.outside [.aml]) (h₀ : s₀.Spares asp s) (k : Nat) (x : AmlSlot) :
    s₀.Spares asp (s.setAslot k x) := by
  unfold State.setAslot; simp [ha, h₀]
@[simp ↓] theorem startAml_spares (ha : asp.outside [.regs, .threads, .ops, .aml]) (h₀ : s₀.Spares asp s) (k : Nat) :
    s₀.Spares asp (startAml k s) := by
  unfold startAml; simp (maxDischargeDepth := 40) [ha, h₀]
@[simp ↓] theorem State.amlGot_spares (ha : asp.outside [.regs]) (h₀ : s₀.Spares asp s) (slot : Nat) (b : List Byte) (off n : Nat) :
    s₀.Spares asp (s.amlGot slot b off n) := by
  unfold State.amlGot; simp [ha, h₀]
@[simp ↓] theorem contribution_spares
    (ha : asp.outside [.regs, .tgf, .fifos, .threads, .clusters, .ops, .rings, .net, .mtch, .aml, .host, .route, .out])
    (h₀ : s₀.Spares asp s) (c ref : Nat) : s₀.Spares asp (contribution c ref s) := by
  unfold contribution; dsimp only; (repeat' split) <;> simp (maxDischargeDepth := 40) [ha, h₀]
@[simp ↓] theorem State.amlLocal_spares (ha : asp.outside [.regs, .tgf, .fifos, .engines, .clusters, .ops, .aml, .host, .out])
    (h₀ : s₀.Spares asp s) (slot key k st : Nat) (host : List Byte) : s₀.Spares asp (s.amlLocal slot key k st host).2 := by
  unfold State.amlLocal; dsimp only; (repeat' split) <;> try simp (maxDischargeDepth := 40) [ha, h₀]
  all_goals
    have h₁ := State.Spares.of_eq (s₀ := s₀) (asp := asp) ‹_ = (_, _)› (by simp (maxDischargeDepth := 40) [ha, h₀])
    simp (maxDischargeDepth := 40) [ha, h₁]
@[simp ↓] theorem State.amlWrite_spares (ha : asp.outside [.regs, .ram, .engines, .clusters, .ops, .aml, .host, .out])
    (h₀ : s₀.Spares asp s) (slot key off : Nat) (bs : List Byte) : s₀.Spares asp (s.amlWrite slot key off bs).2 := by
  unfold State.amlWrite
  refine State.ite_spares_snd h₀ ?_
  split
  · next h => simp [ha, State.Spares.of_eq (s₀ := s₀) (asp := asp) h (by simp [ha, h₀])]
  · next h _ =>
    have h₁ := State.Spares.of_eq (s₀ := s₀) (asp := asp) ‹_ = (_, _)› (by simp [ha, h₀])
    split <;> next h =>
      have h₂ := State.Spares.of_eq (s₀ := s₀) (asp := asp) h (by simp [ha, h₁])
      simp [ha, h₂]
@[simp ↓] theorem State.amlEnd_spares (ha : asp.outside [.threads, .ops, .aml]) (h₀ : s₀.Spares asp s) (slot key : Nat) :
    s₀.Spares asp (s.amlEnd slot key) := by
  unfold State.amlEnd; simp [ha, h₀]
@[simp ↓] theorem State.amlFinal_spares (ha : asp.outside [.regs, .ram, .threads, .engines, .clusters, .ops, .aml, .host, .out])
    (h₀ : s₀.Spares asp s) (slot key k : Nat) : s₀.Spares asp (s.amlFinal slot key k) := by
  unfold State.amlFinal; dsimp only; (repeat' split) <;> try simp (maxDischargeDepth := 40) [ha, h₀]
  all_goals
    have h₁ := State.Spares.of_eq (s₀ := s₀) (asp := asp) ‹_ = (_, _)› (by simp (maxDischargeDepth := 40) [ha, h₀])
    simp (maxDischargeDepth := 40) [ha, h₁]
@[simp ↓] theorem stripeComplete_spares
    (ha : asp.outside [.regs, .ram, .tgf, .fifos, .threads, .engines, .clusters, .ops, .aml, .host, .out]) (h₀ : s₀.Spares asp s)
    (slot k st : Nat) (data : List Byte) : s₀.Spares asp (stripeComplete slot k st data s) := by
  unfold stripeComplete; split
  · exact h₀
  · refine State.ite_spares h₀ ?_
    split <;> next h =>
      have h₁ := State.Spares.of_eq (s₀ := s₀) (asp := asp) h (by simp [ha, h₀])
      simp [ha, h₁]
@[simp ↓] theorem amlCfgWrite_spares (ha : asp.outside [.regs, .aml]) (h₀ : s₀.Spares asp s) (path : Path) (addr : Nat) (v : Word) :
    s₀.Spares asp (amlCfgWrite path addr v s) := by
  unfold amlCfgWrite; simp (maxDischargeDepth := 40) [ha, h₀]

/-! #### Sys2Proof/Machine/OpStart.lean -/

@[simp ↓] theorem State.fetchEntries_spares (ha : asp.outside [.regs, .ram, .tgf, .fifos, .rings, .mtch, .out]) (h₀ : s₀.Spares asp s)
    (qn key : Nat) (i₁ : List (List Byte)) (i₂ : Nat) : s₀.Spares asp (s.fetchEntries qn key i₁ i₂).2.2 := by
  induction i₁ generalizing s i₂ with
  | nil => exact h₀
  | cons e es ih =>
    unfold State.fetchEntries
    extract_lets q data s1
    have h₁ : s₀.Spares asp s1 := by unfold s1; simp [ha, h₀]
    split
    · exact h₀
    split
    · simp [ha, h₁]
    split
    · simp [ha, h₁]
    · exact ih (by simp [ha, h₁]) _
@[simp ↓] theorem startQfetch_spares (ha : asp.outside [.regs, .ram, .tgf, .fifos, .threads, .ops, .rings, .mtch, .aml, .host, .out])
    (h₀ : s₀.Spares asp s) (k : Nat) : s₀.Spares asp (startQfetch k s) := by
  unfold startQfetch; simp (maxDischargeDepth := 40) [ha, h₀]
@[simp ↓] theorem State.postCqe_spares (ha : asp.outside [.regs, .tgf, .fifos, .threads, .ops, .rings, .aml, .host, .out])
    (h₀ : s₀.Spares asp s) (k cn : Nat) (c : Completion) : s₀.Spares asp (s.postCqe k cn c) := by
  unfold State.postCqe; simp (maxDischargeDepth := 40) [ha, h₀]
@[simp ↓] theorem startCqpost_spares (ha : asp.outside [.regs, .tgf, .fifos, .threads, .ops, .rings, .aml, .host, .out])
    (h₀ : s₀.Spares asp s) (k : Nat) : s₀.Spares asp (startCqpost k s) := by
  unfold startCqpost; dsimp only; (repeat' split) <;> simp [ha, h₀]
@[simp ↓] theorem State.matchDone_spares (ha : asp.outside [.threads, .ops, .aml]) (h₀ : s₀.Spares asp s) (k : Nat) (r : MRes) :
    s₀.Spares asp (s.matchDone k r) := by
  unfold State.matchDone; split <;> simp [ha, h₀]
@[simp ↓] theorem startMatch_spares (ha : asp.outside [.regs, .threads, .ops, .mtch, .aml]) (h₀ : s₀.Spares asp s) (k : Nat) :
    s₀.Spares asp (startMatch k s) := by
  unfold startMatch; dsimp only; (repeat' split) <;> simp (maxDischargeDepth := 40) [ha, h₀]
@[simp ↓] theorem State.setMover_spares (ha : asp.outside [.host]) (h₀ : s₀.Spares asp s) (m : Nat) (k : Option Nat) :
    s₀.Spares asp (s.setMover m k) := by
  unfold State.setMover; simp [ha, h₀]
@[simp ↓] theorem State.endDma_spares
    (ha : asp.outside [.regs, .tgf, .fifos, .threads, .clusters, .ops, .rings, .net, .mtch, .aml, .host, .route, .out])
    (h₀ : s₀.Spares asp s) (k status detail : Nat) : s₀.Spares asp (s.endDma k status detail) := by
  unfold State.endDma; dsimp only; (repeat' split) <;> simp (maxDischargeDepth := 40) [ha, h₀]
@[simp ↓] theorem State.misused_spares (ha : asp.outside [.net]) (h₀ : s₀.Spares asp s) : s₀.Spares asp s.misused := by
  unfold State.misused; simp [ha, h₀]
@[simp ↓] theorem startDma_spares
    (ha : asp.outside [.regs, .tgf, .fifos, .threads, .clusters, .ops, .rings, .net, .mtch, .aml, .host, .route, .out])
    (h₀ : s₀.Spares asp s) (k : Nat) : s₀.Spares asp (startDma k s) := by
  unfold startDma
  extract_lets o b c ref badRef check
  refine State.ite_spares (by simp (maxDischargeDepth := 40) [ha, h₀]) ?_
  split
  · simp [ha, h₀]
  · next m _ =>
    extract_lets s1
    have hcheck : ∀ keyed key {s : State}, s₀.Spares asp s → s₀.Spares asp (check s keyed key).2 := by
      intro keyed key s h
      unfold check; split <;> simp [ha, h]
    have h₁ : s₀.Spares asp s1 := by unfold s1; simp [ha, h₀]
    clear_value check
    split
    · next h => simp [ha, State.Spares.of_eq (s₀ := s₀) (asp := asp) h (hcheck _ _ h₁)]
    · next h =>
      have h₂ := State.Spares.of_eq (s₀ := s₀) (asp := asp) h (hcheck _ _ h₁)
      split <;> next h =>
        have h₃ := State.Spares.of_eq (s₀ := s₀) (asp := asp) h (hcheck _ _ h₂)
        simp [ha, h₃]
@[simp ↓] theorem State.dmaRead_spares (ha : asp.outside [.regs, .tgf, .fifos, .engines, .clusters, .ops, .host, .out])
    (h₀ : s₀.Spares asp s) (k off n st : Nat) (host : List Byte) : s₀.Spares asp (s.dmaRead k off n st host).2 := by
  unfold State.dmaRead; dsimp only; (repeat' split) <;> simp [ha, h₀]
@[simp ↓] theorem State.dmaRun_spares
    (ha : asp.outside [.regs, .ram, .tgf, .fifos, .threads, .engines, .clusters, .ops, .rings, .net, .mtch, .aml, .host, .route, .out])
    (h₀ : s₀.Spares asp s) (k st : Nat) (host : List Byte) (n : Nat) : s₀.Spares asp (s.dmaRun k st host n) := by
  induction n generalizing s with
  | zero => exact h₀
  | succ f ih =>
    unfold State.dmaRun
    extract_lets o b s1 n src stop
    have h₁ : s₀.Spares asp s1 := by unfold s1; split <;> simp [ha, h₀]
    have hstop (m : Moved) (key : Option Nat) (va access : Nat) {u : State} (hu : s₀.Spares asp u) :
        s₀.Spares asp (stop m key va access u) := by
      unfold stop
      split
      · next h =>
        obtain ⟨_, _, hr⟩ := Option.bind_eq_some_iff.mp h
        simp [ha, State.retried_spares (asp := asp) (by simp [ha]) hu _ _ _ _ _ hr]
      · split <;> have h₂ := State.Spares.of_eq (s₀ := s₀) (asp := asp) ‹_ = (_, _)› (by simp [ha, hu])
        · exact h₂
        · simp [ha, h₂]
    clear_value stop
    refine State.ite_spares (by simp [ha, h₁]) (State.ite_spares (by simp [ha, h₀]) ?_)
    split <;> have h₂ := State.Spares.of_eq (s₀ := s₀) (asp := asp) ‹_ = (_, _)› (by simp [ha, h₀])
    · split <;> have h₃ := State.Spares.of_eq (s₀ := s₀) (asp := asp) ‹_ = (_, _)› (by simp [ha, h₂])
      · exact ih (by simp [ha, h₃])
      · exact hstop _ _ _ _ h₃
    · exact hstop _ _ _ _ h₂
@[simp ↓] theorem dmaDone_spares
    (ha : asp.outside [.regs, .ram, .tgf, .fifos, .threads, .engines, .clusters, .ops, .rings, .net, .mtch, .aml, .host, .route, .out])
    (h₀ : s₀.Spares asp s) (c slot st : Nat) (data : List Byte) : s₀.Spares asp (dmaDone c slot st data s) := by
  unfold dmaDone; dsimp only; (repeat' split) <;> simp (maxDischargeDepth := 40) [ha, h₀]
@[simp ↓] theorem startTlbinv_spares (ha : asp.outside [.ops, .net]) (h₀ : s₀.Spares asp s) (k : Nat) :
    s₀.Spares asp (startTlbinv k s) := by
  unfold startTlbinv; simp [ha, h₀]
@[simp ↓] theorem startLaunched_spares
    (ha : asp.outside [.regs, .tgf, .fifos, .threads, .clusters, .ops, .rings, .net, .mtch, .aml, .host, .eptCache, .limCache, .route,
      .out])
    (h₀ : s₀.Spares asp s) (k : Nat) : s₀.Spares asp (startLaunched k s) := by
  unfold startLaunched; simp [ha, h₀]
@[simp ↓] theorem State.fire_spares
    (ha : asp.outside [.regs, .tgf, .fifos, .threads, .clusters, .ops, .rings, .net, .mtch, .aml, .host, .eptCache, .limCache, .route,
      .out])
    (h₀ : s₀.Spares asp s) (t : Trigger) : s₀.Spares asp (s.fire t) := by
  unfold State.fire; simp (maxDischargeDepth := 40) [ha, h₀]
@[simp ↓] theorem startTrig_spares
    (ha : asp.outside [.regs, .tgf, .fifos, .threads, .clusters, .ops, .rings, .net, .mtch, .aml, .host, .eptCache, .limCache, .route,
      .out])
    (h₀ : s₀.Spares asp s) (k : Nat) : s₀.Spares asp (startTrig k s) := by
  unfold startTrig; simp (maxDischargeDepth := 40) [ha, h₀]
@[simp ↓] theorem triggerFire_spares
    (ha : asp.outside [.regs, .tgf, .fifos, .threads, .clusters, .ops, .rings, .net, .mtch, .aml, .host, .eptCache, .limCache, .route,
      .out])
    (h₀ : s₀.Spares asp s) (c h : Nat) : s₀.Spares asp (triggerFire c h s) := by
  unfold triggerFire; split <;> simp (maxDischargeDepth := 40) [ha, h₀]
@[simp ↓] theorem startKind_spares
    (ha : asp.outside [.regs, .ram, .tgf, .fifos, .threads, .clusters, .ops, .rings, .net, .mtch, .aml, .host, .eptCache, .limCache,
      .route, .out])
    (h₀ : s₀.Spares asp s) (k : Nat) : s₀.Spares asp (startKind k s) := by
  unfold startKind; dsimp only; (repeat' split) <;> simp [ha, h₀]
@[simp ↓] theorem startAccepted_spares
    (ha : asp.outside [.regs, .ram, .tgf, .fifos, .threads, .clusters, .ops, .rings, .net, .mtch, .aml, .host, .eptCache, .limCache,
      .route, .out])
    (h₀ : s₀.Spares asp s) (k st : Nat) : s₀.Spares asp (startAccepted k st s) := by
  unfold startAccepted; simp (maxDischargeDepth := 40) [ha, h₀]
@[simp ↓] theorem State.startHeld_spares
    (ha : asp.outside [.regs, .ram, .tgf, .fifos, .threads, .clusters, .ops, .rings, .net, .mtch, .aml, .host, .eptCache, .limCache,
      .route, .out])
    (h₀ : s₀.Spares asp s) : s₀.Spares asp s.startHeld := by
  unfold State.startHeld; simp (maxDischargeDepth := 40) [ha, h₀]
@[simp ↓] theorem fput_spares
    (ha : asp.outside [.regs, .ram, .tgf, .fifos, .threads, .engines, .clusters, .ops, .orders, .rings, .net, .mtch, .aml, .host, .dev,
      .eptCache, .limCache, .route, .out])
    (h₀ : s₀.Spares asp s) (t rd rs1 imm : Nat) : s₀.Spares asp (fput t rd rs1 imm s) := by
  unfold fput; simp [ha, h₀]
@[simp ↓] theorem fget_spares
    (ha : asp.outside [.regs, .ram, .tgf, .fifos, .threads, .engines, .clusters, .ops, .orders, .rings, .net, .mtch, .aml, .host, .dev,
      .eptCache, .limCache, .route, .out])
    (h₀ : s₀.Spares asp s) (t rd rs1 imm : Nat) : s₀.Spares asp (fget t rd rs1 imm s) := by
  unfold fget; simp [ha, h₀]
@[simp ↓] theorem famo_spares
    (ha : asp.outside [.regs, .ram, .tgf, .fifos, .threads, .engines, .clusters, .ops, .orders, .rings, .net, .mtch, .aml, .host, .dev,
      .eptCache, .limCache, .route, .out])
    (h₀ : s₀.Spares asp s) (t rd rs1 imm : Nat) : s₀.Spares asp (famo t rd rs1 imm s) := by
  unfold famo; simp [ha, h₀]
@[simp ↓] theorem fsend_spares
    (ha : asp.outside [.regs, .ram, .tgf, .fifos, .threads, .engines, .clusters, .ops, .orders, .rings, .net, .mtch, .aml, .host, .dev,
      .eptCache, .limCache, .route, .out])
    (h₀ : s₀.Spares asp s) (t rd rs1 imm : Nat) : s₀.Spares asp (fsend t rd rs1 imm s) := by
  unfold fsend; simp [ha, h₀]
@[simp ↓] theorem fflush_spares
    (ha : asp.outside [.regs, .ram, .tgf, .fifos, .threads, .engines, .clusters, .ops, .orders, .rings, .net, .mtch, .aml, .host, .dev,
      .eptCache, .limCache, .route, .out])
    (h₀ : s₀.Spares asp s) (t rd rs1 imm : Nat) : s₀.Spares asp (fflush t rd rs1 imm s) := by
  unfold fflush; simp [ha, h₀]
@[simp ↓] theorem ffence_spares
    (ha : asp.outside [.regs, .ram, .tgf, .fifos, .threads, .engines, .clusters, .ops, .orders, .rings, .net, .mtch, .aml, .host, .dev,
      .eptCache, .limCache, .route, .out])
    (h₀ : s₀.Spares asp s) (t rd rs1 imm : Nat) : s₀.Spares asp (ffence t rd rs1 imm s) := by
  unfold ffence; simp [ha, h₀]
@[simp ↓] theorem fmcast_spares
    (ha : asp.outside [.regs, .ram, .tgf, .fifos, .threads, .engines, .clusters, .ops, .orders, .rings, .net, .mtch, .aml, .host, .dev,
      .eptCache, .limCache, .route, .out])
    (h₀ : s₀.Spares asp s) (t rd rs1 imm : Nat) : s₀.Spares asp (fmcast t rd rs1 imm s) := by
  unfold fmcast; simp [ha, h₀]
@[simp ↓] theorem qfetch_spares
    (ha : asp.outside [.regs, .ram, .tgf, .fifos, .threads, .engines, .clusters, .ops, .orders, .rings, .net, .mtch, .aml, .host, .dev,
      .eptCache, .limCache, .route, .out])
    (h₀ : s₀.Spares asp s) (t rd rs1 imm : Nat) (es : List (List Byte)) : s₀.Spares asp (qfetch t rd rs1 imm es s) := by
  unfold qfetch; simp [ha, h₀]
@[simp ↓] theorem cqpost_spares
    (ha : asp.outside [.regs, .ram, .tgf, .fifos, .threads, .engines, .clusters, .ops, .orders, .rings, .net, .mtch, .aml, .host, .dev,
      .eptCache, .limCache, .route, .out])
    (h₀ : s₀.Spares asp s) (t rd rs1 imm : Nat) : s₀.Spares asp (cqpost t rd rs1 imm s) := by
  unfold cqpost; simp [ha, h₀]
@[simp ↓] theorem mpost_spares
    (ha : asp.outside [.regs, .ram, .tgf, .fifos, .threads, .engines, .clusters, .ops, .orders, .rings, .net, .mtch, .aml, .host, .dev,
      .eptCache, .limCache, .route, .out])
    (h₀ : s₀.Spares asp s) (t rd rs1 imm : Nat) : s₀.Spares asp (mpost t rd rs1 imm s) := by
  unfold mpost; simp [ha, h₀]
@[simp ↓] theorem mmatch_spares
    (ha : asp.outside [.regs, .ram, .tgf, .fifos, .threads, .engines, .clusters, .ops, .orders, .rings, .net, .mtch, .aml, .host, .dev,
      .eptCache, .limCache, .route, .out])
    (h₀ : s₀.Spares asp s) (t rd rs1 imm : Nat) : s₀.Spares asp (mmatch t rd rs1 imm s) := by
  unfold mmatch; simp [ha, h₀]
@[simp ↓] theorem mcancel_spares
    (ha : asp.outside [.regs, .ram, .tgf, .fifos, .threads, .engines, .clusters, .ops, .orders, .rings, .net, .mtch, .aml, .host, .dev,
      .eptCache, .limCache, .route, .out])
    (h₀ : s₀.Spares asp s) (t rd rs1 imm : Nat) : s₀.Spares asp (mcancel t rd rs1 imm s) := by
  unfold mcancel; simp [ha, h₀]
@[simp ↓] theorem trig_spares
    (ha : asp.outside [.regs, .ram, .tgf, .fifos, .threads, .engines, .clusters, .ops, .orders, .rings, .net, .mtch, .aml, .host, .dev,
      .eptCache, .limCache, .route, .out])
    (h₀ : s₀.Spares asp s) (t rd rs1 imm : Nat) : s₀.Spares asp (trig t rd rs1 imm s) := by
  unfold trig; simp [ha, h₀]
@[simp ↓] theorem dma_spares
    (ha : asp.outside [.regs, .ram, .tgf, .fifos, .threads, .engines, .clusters, .ops, .orders, .rings, .net, .mtch, .aml, .host, .dev,
      .eptCache, .limCache, .route, .out])
    (h₀ : s₀.Spares asp s) (t rd rs1 imm : Nat) : s₀.Spares asp (dma t rd rs1 imm s) := by
  unfold dma; simp [ha, h₀]
@[simp ↓] theorem tlbinv_spares
    (ha : asp.outside [.regs, .ram, .tgf, .fifos, .threads, .engines, .clusters, .ops, .orders, .rings, .net, .mtch, .aml, .host, .dev,
      .eptCache, .limCache, .route, .out])
    (h₀ : s₀.Spares asp s) (t rd rs1 imm : Nat) : s₀.Spares asp (tlbinv t rd rs1 imm s) := by
  unfold tlbinv; simp [ha, h₀]
@[simp ↓] theorem amlsub_spares
    (ha : asp.outside [.regs, .ram, .tgf, .fifos, .threads, .engines, .clusters, .ops, .orders, .rings, .net, .mtch, .aml, .host, .dev,
      .eptCache, .limCache, .route, .out])
    (h₀ : s₀.Spares asp s) (t rd rs1 imm : Nat) : s₀.Spares asp (amlsub t rd rs1 imm s) := by
  unfold amlsub; simp [ha, h₀]
@[simp ↓] theorem opabort_spares
    (ha : asp.outside [.regs, .ram, .tgf, .fifos, .threads, .engines, .clusters, .ops, .rings, .net, .mtch, .aml, .host, .dev,
      .eptCache, .limCache, .route, .out])
    (h₀ : s₀.Spares asp s) (t rd rs1 rs2 : Nat) : s₀.Spares asp (opabort t rd rs1 rs2 s) := by
  unfold opabort
  refine State.issue_spares (by simp [ha]) h₀ _ _ _ _ _ _ _ fun s => ?_
  split <;> simp (maxDischargeDepth := 40) [ha]
@[simp ↓] theorem pktrel_spares
    (ha : asp.outside [.regs, .tgf, .fifos, .threads, .engines, .clusters, .ops, .rings, .net, .mtch, .aml, .host, .dev, .route, .out])
    (h₀ : s₀.Spares asp s) (t rd rs1 rs2 : Nat) : s₀.Spares asp (pktrel t rd rs1 rs2 s) := by
  unfold pktrel; simp (maxDischargeDepth := 40) [ha, h₀]
@[simp ↓] theorem opTimeout_spares (ha : asp.outside [.threads, .ops, .aml]) (h₀ : s₀.Spares asp s) (c slot : Nat) :
    s₀.Spares asp (opTimeout c slot s) := by
  unfold opTimeout; dsimp only; split <;> simp [ha, h₀]

/-! #### Sys2Proof/Machine/Target.lean -/

@[simp ↓] theorem State.refuseFinal_spares
    (ha : asp.outside [.regs, .tgf, .fifos, .threads, .clusters, .ops, .rings, .net, .mtch, .aml, .host, .route, .out])
    (h₀ : s₀.Spares asp s) (c ref code detail : Nat) : s₀.Spares asp (s.refuseFinal c ref code detail) := by
  unfold State.refuseFinal; simp [ha, h₀]
@[simp ↓] theorem State.refuseNow_spares
    (ha : asp.outside [.regs, .tgf, .fifos, .threads, .clusters, .ops, .rings, .net, .mtch, .aml, .host, .route, .out])
    (h₀ : s₀.Spares asp s) (c ref code : Nat) : s₀.Spares asp (s.refuseNow c ref code) := by
  unfold State.refuseNow; simp [ha, h₀]
@[simp ↓] theorem State.consumed_spares
    (ha : asp.outside [.regs, .tgf, .fifos, .threads, .clusters, .ops, .rings, .net, .mtch, .aml, .host, .route, .out])
    (h₀ : s₀.Spares asp s) (c ref : Nat) : s₀.Spares asp (s.consumed c ref) := by
  unfold State.consumed; split <;> simp [ha, h₀]
@[simp ↓] theorem State.answerDoom_spares
    (ha : asp.outside [.regs, .tgf, .fifos, .threads, .clusters, .ops, .rings, .net, .mtch, .aml, .host, .route, .out])
    (h₀ : s₀.Spares asp s) (c ref : Nat) (d : Nat × Nat) : s₀.Spares asp (s.answerDoom c ref d) := by
  unfold State.answerDoom; simp [ha, h₀]
@[simp ↓] theorem State.keyRefuses_spares (ha : asp.outside [.regs, .clusters]) (h₀ : s₀.Spares asp s) (c : Nat) (h : Half) (p : Packet)
    (u : Use) : s₀.Spares asp (s.keyRefuses c h p u).2 := by
  unfold State.keyRefuses; split
  · next h => exact .of_eq (a := _) (congrArg Prod.snd h) (by simp [ha, h₀])
  · next h =>
    have h₁ : s₀.Spares asp _ := .of_eq (congrArg Prod.snd h) (by simp [ha, h₀])
    exact State.ite_spares_snd h₁ (State.ite_spares_snd h₁ h₁)
@[simp ↓] theorem State.withPacket_spares
    (ha : asp.outside [.regs, .tgf, .fifos, .threads, .clusters, .ops, .rings, .net, .mtch, .aml, .host, .route, .out])
    (h₀ : s₀.Spares asp s) (c ref : Nat) (ok : Half → Packet → Bool) (k : PktRef → Half → State → State)
    (hk : ∀ a b (s : State), s.Spares asp (k a b s)) : s₀.Spares asp (s.withPacket c ref ok k) := by
  unfold State.withPacket; dsimp only; (repeat' split) <;> simp [ha, h₀, fun a b {s} (h : s₀.Spares asp s) => h.trans (hk a b s)]
@[simp ↓] theorem State.targetAnswer_spares
    (ha : asp.outside [.regs, .tgf, .fifos, .threads, .clusters, .ops, .rings, .net, .mtch, .aml, .host, .route, .out])
    (h₀ : s₀.Spares asp s) (c ref : Nat) (m : Moved) (ask va access src : Nat) :
    s₀.Spares asp (s.targetAnswer c ref m ask va access src) := by
  unfold State.targetAnswer; simp [ha, h₀]
@[simp ↓] theorem State.heldRefuse_spares
    (ha : asp.outside [.regs, .tgf, .fifos, .threads, .clusters, .ops, .rings, .net, .mtch, .aml, .host, .route, .out])
    (h₀ : s₀.Spares asp s) (c ref f : Nat) : s₀.Spares asp (s.heldRefuse c ref f) := by
  unfold State.heldRefuse; simp [ha, h₀]
@[simp ↓] theorem State.noteWrote_spares (ha : asp.outside [.net]) (h₀ : s₀.Spares asp s) (r : Nat) (a : Option Nat) :
    s₀.Spares asp (s.noteWrote r a) := by
  unfold State.noteWrote; split <;> simp [ha, h₀]
@[simp ↓] theorem State.putDone_spares
    (ha : asp.outside [.regs, .tgf, .fifos, .threads, .clusters, .ops, .rings, .net, .mtch, .aml, .host, .route, .out])
    (h₀ : s₀.Spares asp s) (c ref : Nat) (x : PktRef) : s₀.Spares asp (s.putDone c ref x) := by
  unfold State.putDone; simp (maxDischargeDepth := 40) [ha, h₀]
@[simp ↓] theorem State.collGot_spares (ha : asp.outside [.net]) (h₀ : s₀.Spares asp s) (id chan n : Nat) :
    s₀.Spares asp (s.collGot id chan n) := by
  unfold State.collGot; split <;> simp [ha, h₀]
@[simp ↓] theorem State.bufferPut_spares
    (ha : asp.outside [.regs, .ram, .tgf, .fifos, .threads, .engines, .clusters, .ops, .rings, .net, .mtch, .aml, .host, .route, .out])
    (h₀ : s₀.Spares asp s) (c ref : Nat) (x : PktRef) (id : Nat) : s₀.Spares asp (s.bufferPut c ref x id) := by
  unfold State.bufferPut
  extract_lets p
  split
  · simp [ha, h₀]
  next cl b _ =>
  refine State.ite_spares (by simp [ha, h₀]) (State.ite_spares h₀ ?_)
  extract_lets m last
  split
  · next h => simp (maxDischargeDepth := 40) [ha, State.Spares.of_eq (s₀ := s₀) (asp := asp) h (by simp [ha, h₀])]
  · next h => exact .of_eq h (by simp [ha, h₀])
  · next h => simp [ha, State.Spares.of_eq (s₀ := s₀) (asp := asp) h (by simp [ha, h₀])]
  · have h₁ := State.Spares.of_eq (s₀ := s₀) (asp := asp) ‹_ = (_, _)› (by simp [ha, h₀])
    split <;> next h =>
      have h₂ := State.Spares.of_eq (s₀ := s₀) (asp := asp) h (by simp [ha, h₁])
      simp (maxDischargeDepth := 40) [ha, h₂]
@[simp ↓] theorem State.placePut_spares
    (ha : asp.outside [.regs, .ram, .tgf, .fifos, .threads, .engines, .clusters, .ops, .rings, .net, .mtch, .aml, .host, .route, .out])
    (h₀ : s₀.Spares asp s) (c ref : Nat) (x : PktRef) (h : Half) : s₀.Spares asp (s.placePut c ref x h) := by
  unfold State.placePut
  extract_lets p checked m
  have hchecked : s₀.Spares asp checked.2 := by unfold checked; split <;> simp [ha, h₀]
  rcases checked with ⟨_ | ⟨code, detail⟩, s1⟩
  case some => exact State.refuseFinal_spares (by simp [ha]) hchecked _ _ _ _
  change s₀.Spares asp s1 at hchecked
  refine State.ite_spares (by simp [ha, hchecked]) ?_
  extract_lets s2 last
  have h₂ : s₀.Spares asp s2 := by unfold s2; simp [ha, hchecked]
  refine State.ite_spares h₂ ?_
  split <;>
    have h₃ := State.Spares.of_eq (s₀ := s₀) (asp := asp) ‹_ = (_, _)› (by simp [ha, h₂]) <;>
    simp (maxDischargeDepth := 40) [ha, h₃]
@[simp ↓] theorem State.takePut_spares
    (ha : asp.outside [.regs, .ram, .tgf, .fifos, .threads, .engines, .clusters, .ops, .rings, .net, .mtch, .aml, .host, .route, .out])
    (h₀ : s₀.Spares asp s) (c ref : Nat) (x : PktRef) (h : Half) : s₀.Spares asp (s.takePut c ref x h) := by
  unfold State.takePut; (repeat' split) <;> simp (maxDischargeDepth := 40) [ha, h₀]
@[simp ↓] theorem State.returnPath_spares (ha : asp.outside [.regs, .eptCache]) (h₀ : s₀.Spares asp s) (h : Half) (p : Packet) :
    s₀.Spares asp (s.returnPath h p).2 := by
  unfold State.returnPath
  split <;> exact .of_eq ‹_› (by simp [ha, h₀])
theorem State.startResponse_spares (ha : asp.outside [.ops, .orders, .limCache]) (h₀ : s₀.Spares asp s) (r kind n : Nat)
    (dest : Nat × Nat) (seq : BitVec 32) (block : List Byte) (ht : s.startResponse r kind n dest seq block = some s') :
    s₀.Spares asp s' := by
  unfold State.startResponse at ht
  rw [Option.map_eq_some_iff] at ht
  obtain ⟨⟨k, u⟩, hu, he⟩ := ht
  have h₁ := State.takeSlot_spares (asp := asp) (by simp [ha]) h₀ _ _ _ _ _ hu
  have h₂ : s₀.Spares asp (if dest.1 == u.ownDn then (none, u) else u.limOf (r / 16384 / 4) r).2 := by
    split <;> simp [ha, h₁]
  rw [← he]
  exact State.setOp_spares (by simp [ha]) h₂ _ _
@[simp ↓] theorem getReq_spares
    (ha : asp.outside [.regs, .tgf, .fifos, .threads, .clusters, .ops, .orders, .rings, .net, .mtch, .aml, .host, .eptCache, .limCache,
      .route, .out])
    (h₀ : s₀.Spares asp s) (c ref : Nat) : s₀.Spares asp (getReq c ref s) := by
  unfold getReq
  refine State.withPacket_spares (by simp [ha]) h₀ _ _ _ _ fun x h s => ?_
  extract_lets p r
  refine State.ite_spares (by simp [ha]) (State.ite_spares (.refl s) ?_)
  split
  · next h => simp [ha, State.Spares.of_eq (s₀ := s) (asp := asp) h (by simp [ha])]
  next s1 h =>
  have h₁ := State.Spares.of_eq (s₀ := s) (asp := asp) h (by simp [ha])
  refine State.ite_spares (by simp [ha, h₁]) ?_
  split
  · next h => simp [ha, State.Spares.of_eq (s₀ := s) (asp := asp) h (by simp [ha, h₁])]
  next s2 h =>
  have h₂ := State.Spares.of_eq (s₀ := s) (asp := asp) h (by simp [ha, h₁])
  extract_lets link
  split
  · exact State.startResponse_spares (by simp [ha]) h₂ _ _ _ _ _ _ ‹_›
  · exact h₂
@[simp ↓] theorem State.newRead_spares (ha : asp.outside [.host]) (h₀ : s₀.Spares asp s) (why : ReadFor) (f : Nat) :
    s₀.Spares asp (s.newRead why f).2 := by
  unfold State.newRead; simp [ha, h₀]
@[simp ↓] theorem State.amoAnswer_spares
    (ha : asp.outside [.regs, .tgf, .fifos, .threads, .clusters, .ops, .orders, .rings, .net, .mtch, .aml, .host, .eptCache, .limCache,
      .route, .out])
    (h₀ : s₀.Spares asp s) (c ref : Nat) (x : PktRef) (h : Half) (old : Nat) : s₀.Spares asp (s.amoAnswer c ref x h old) := by
  unfold State.amoAnswer
  extract_lets p w
  split
  · next h => simp [ha, State.Spares.of_eq (s₀ := s₀) (asp := asp) h (by simp [ha, h₀])]
  next h =>
  have h₁ := State.Spares.of_eq (s₀ := s₀) (asp := asp) h (by simp [ha, h₀])
  split
  · next h => simp [ha, State.startResponse_spares (asp := asp) (by simp [ha]) h₁ _ _ _ _ _ _ h]
  · exact h₁
@[simp ↓] theorem State.amoAt_spares
    (ha : asp.outside [.regs, .ram, .tgf, .fifos, .threads, .clusters, .ops, .orders, .rings, .net, .mtch, .aml, .host, .eptCache,
      .limCache, .route, .out])
    (h₀ : s₀.Spares asp s) (c ref : Nat) (x : PktRef) (h : Half) (pc : Piece) : s₀.Spares asp (s.amoAt c ref x h pc) := by
  unfold State.amoAt; (repeat' split) <;> simp (maxDischargeDepth := 40) [ha, h₀]
@[simp ↓] theorem amoReq_spares
    (ha : asp.outside [.regs, .ram, .tgf, .fifos, .threads, .engines, .clusters, .ops, .orders, .rings, .net, .mtch, .aml, .host,
      .eptCache, .limCache, .route, .out])
    (h₀ : s₀.Spares asp s) (c ref : Nat) : s₀.Spares asp (amoReq c ref s) := by
  unfold amoReq
  refine State.withPacket_spares (by simp [ha]) h₀ _ _ _ _ fun x h s => ?_
  extract_lets p x'
  refine State.ite_spares (by simp [ha]) (State.ite_spares (.refl s) ?_)
  have hc : s.Spares asp (if x.accepted then ((none : Option (Nat × Nat)), s) else s.keyRefuses c h p .atomic).2 := by
    split <;> simp [ha]
  split
  · next h => simp [ha, State.Spares.of_eq (s₀ := s) (asp := asp) h hc]
  next h =>
  have h₁ := State.Spares.of_eq (s₀ := s) (asp := asp) h hc
  refine State.ite_spares (by simp [ha, h₁]) (State.ite_spares (by simp [ha, h₁]) ?_)
  split
  · next h => simp [ha, State.Spares.of_eq (s₀ := s) (asp := asp) h (by simp [ha, h₁])]
  next h =>
  have h₂ := State.Spares.of_eq (s₀ := s) (asp := asp) h (by simp [ha, h₁])
  extract_lets s3
  have h₃ : s.Spares asp s3 := by unfold s3; simp [ha, h₂]
  split <;>
    have h₄ := State.Spares.of_eq (s₀ := s) (asp := asp) ‹_ = (_, _)› (by simp [ha, h₃]) <;>
    simp (maxDischargeDepth := 40) [ha, h₄]
@[simp ↓] theorem State.lateResponse_spares (ha : asp.outside [.net]) (h₀ : s₀.Spares asp s) : s₀.Spares asp s.lateResponse := by
  unfold State.lateResponse; simp [ha, h₀]
@[simp ↓] theorem getResp_spares
    (ha : asp.outside [.regs, .ram, .tgf, .fifos, .threads, .engines, .clusters, .ops, .rings, .net, .mtch, .aml, .host, .route, .out])
    (h₀ : s₀.Spares asp s) (c ref : Nat) : s₀.Spares asp (getResp c ref s) := by
  unfold getResp
  refine State.withPacket_spares (by simp [ha]) h₀ _ _ _ _ fun x h s => ?_
  extract_lets p n
  split
  · simp (maxDischargeDepth := 40) [ha]
  next k _ =>
  extract_lets o placed m last
  refine State.ite_spares (by simp [ha]) (State.ite_spares (.refl s) ?_)
  have hplaced {u : State} (hu : s.Spares asp u) : s.Spares asp (placed u) := by
    unfold placed; simp (maxDischargeDepth := 40) [ha, hu]
  clear_value placed
  refine State.ite_spares (hplaced (.refl s)) ?_
  split
  · next h => exact hplaced (by simp [ha, State.Spares.of_eq (s₀ := s) (asp := asp) h (by simp [ha])])
  · next h => exact .of_eq h (by simp [ha])
  · next h => simp [ha, State.Spares.of_eq (s₀ := s) (asp := asp) h (by simp [ha])]
  · have h₁ := State.Spares.of_eq (s₀ := s) (asp := asp) ‹_ = (_, _)› (by simp [ha])
    split <;> next h =>
      have h₂ := State.Spares.of_eq (s₀ := s) (asp := asp) h (by simp [ha, h₁])
      simp (maxDischargeDepth := 40) [ha, h₂]
@[simp ↓] theorem amoResp_spares
    (ha : asp.outside [.regs, .ram, .tgf, .fifos, .threads, .engines, .clusters, .ops, .rings, .net, .mtch, .aml, .host, .route, .out])
    (h₀ : s₀.Spares asp s) (c ref : Nat) : s₀.Spares asp (amoResp c ref s) := by
  unfold amoResp
  refine State.withPacket_spares (by simp [ha]) h₀ _ _ _ _ fun x h s => ?_
  extract_lets p
  split
  · simp (maxDischargeDepth := 40) [ha]
  next k _ =>
  refine State.ite_spares (.refl s) ?_
  extract_lets o w n old done m last
  have hdone {u : State} (hu : s.Spares asp u) : s.Spares asp (done u) := by
    unfold done; simp (maxDischargeDepth := 40) [ha, hu]
  clear_value done
  split
  · clear_value m last
    split
    · next h => exact hdone (by simp [ha, State.Spares.of_eq (s₀ := s) (asp := asp) h (by simp [ha])])
    · next h => exact .of_eq h (by simp [ha])
    · next h => simp [ha, State.Spares.of_eq (s₀ := s) (asp := asp) h (by simp [ha])]
    · have h₁ := State.Spares.of_eq (s₀ := s) (asp := asp) ‹_ = (_, _)› (by simp [ha])
      split <;> next h =>
        have h₂ := State.Spares.of_eq (s₀ := s) (asp := asp) h (by simp [ha, h₁])
        simp (maxDischargeDepth := 40) [ha, h₂]
  · exact hdone (.refl s)
@[simp ↓] theorem State.prove_spares
    (ha : asp.outside [.regs, .tgf, .fifos, .threads, .clusters, .ops, .rings, .net, .mtch, .aml, .host, .route, .out])
    (h₀ : s₀.Spares asp s) (c ref : Nat) (x : PktRef) : s₀.Spares asp (s.prove c ref x) := by
  unfold State.prove; simp (maxDischargeDepth := 40) [ha, h₀]
@[simp ↓] theorem flushProof_spares
    (ha : asp.outside [.regs, .tgf, .fifos, .threads, .clusters, .ops, .rings, .net, .mtch, .aml, .host, .route, .out])
    (h₀ : s₀.Spares asp s) (c ref : Nat) : s₀.Spares asp (flushProof c ref s) := by
  unfold flushProof
  refine State.withPacket_spares (by simp [ha]) h₀ _ _ _ _ fun x h s => ?_
  (repeat' split) <;> simp (maxDischargeDepth := 40) [ha]
@[simp ↓] theorem State.dropTag_spares (ha : asp.outside [.host]) (h₀ : s₀.Spares asp s) (t : Nat) : s₀.Spares asp (s.dropTag t) := by
  unfold State.dropTag; simp [ha, h₀]
@[simp ↓] theorem State.hostDone_spares
    (ha : asp.outside [.regs, .tgf, .fifos, .threads, .clusters, .ops, .orders, .rings, .net, .mtch, .aml, .host, .eptCache, .limCache,
      .route, .out])
    (h₀ : s₀.Spares asp s) (t st : Nat) (data : List Byte) : s₀.Spares asp (s.hostDone t st data) := by
  unfold State.hostDone; dsimp only; (repeat' split) <;> simp (maxDischargeDepth := 40) [ha, h₀]
@[simp ↓] theorem readCompletion_spares
    (ha : asp.outside [.regs, .tgf, .fifos, .threads, .clusters, .ops, .orders, .rings, .net, .mtch, .aml, .host, .eptCache, .limCache,
      .route, .out])
    (h₀ : s₀.Spares asp s) (t st : Nat) (data : List Byte) : s₀.Spares asp (readCompletion t st data s) := by
  unfold readCompletion; simp [ha, h₀]
@[simp ↓] theorem atomicopCompletion_spares
    (ha : asp.outside [.regs, .tgf, .fifos, .threads, .clusters, .ops, .orders, .rings, .net, .mtch, .aml, .host, .eptCache, .limCache,
      .route, .out])
    (h₀ : s₀.Spares asp s) (t st : Nat) (data : List Byte) : s₀.Spares asp (atomicopCompletion t st data s) := by
  unfold atomicopCompletion; (repeat' split) <;> simp [ha, h₀]
@[simp ↓] theorem completionTimeout_spares
    (ha : asp.outside [.regs, .tgf, .fifos, .threads, .clusters, .ops, .orders, .rings, .net, .mtch, .aml, .host, .eptCache, .limCache,
      .route, .out])
    (h₀ : s₀.Spares asp s) (t : Nat) : s₀.Spares asp (completionTimeout t s) := by
  unfold completionTimeout; split <;> simp [ha, h₀]

/-! #### Sys2Proof/Machine/MatchServer.lean -/

@[simp ↓] theorem State.unmeet_spares (ha : asp.outside [.mtch]) (h₀ : s₀.Spares asp s) (c ref : Nat) :
    s₀.Spares asp (s.unmeet c ref) := by
  unfold State.unmeet; simp [ha, h₀]
@[simp ↓] theorem State.repost_spares (ha : asp.outside [.regs, .mtch]) (h₀ : s₀.Spares asp s) (qn serial : Nat) :
    s₀.Spares asp (s.repost qn serial) := by
  unfold State.repost; split <;> simp [ha, h₀]
@[simp ↓] theorem State.comeBack_spares (ha : asp.outside [.regs, .mtch]) (h₀ : s₀.Spares asp s) (qn serial ord : Nat) :
    s₀.Spares asp (s.comeBack qn serial ord) := by
  unfold State.comeBack; split <;> simp [ha, h₀]
@[simp ↓] theorem State.claimFor_spares (ha : asp.outside [.mtch]) (h₀ : s₀.Spares asp s) (x : PktRef) :
    s₀.Spares asp (s.claimFor x) := by
  unfold State.claimFor; simp [ha, h₀]
@[simp ↓] theorem State.keepRecv_spares (ha : asp.outside [.regs, .rings, .mtch]) (h₀ : s₀.Spares asp s) (qn : Nat) (e : OutEntry) :
    s₀.Spares asp (s.keepRecv qn e) := by
  unfold State.keepRecv; simp (maxDischargeDepth := 40) [ha, h₀]
theorem State.passOver_spares (ha : asp.outside [.regs, .rings, .mtch]) (h₀ : s₀.Spares asp s) (c : Nat) (w : Want)
    (ht : s.passOver c w = some s') : s₀.Spares asp s' := by
  unfold State.passOver at ht; dsimp only at ht; (repeat' split at ht) <;> cases ht <;> simp [ha, h₀]
@[simp ↓] theorem State.serveUpTo_spares (ha : asp.outside [.regs, .fifos, .rings, .mtch]) (h₀ : s₀.Spares asp s) (c : Nat) (w : Want)
    (n : Nat) : s₀.Spares asp (s.serveUpTo c w n).2 := by
  induction n generalizing s with
  | zero => exact h₀
  | succ f ih =>
    unfold State.serveUpTo
    refine State.ite_spares_snd h₀ ?_
    split
    · exact h₀
    next it s1 h =>
    have h₁ := State.wfTake_spares (asp := asp) (by simp [ha]) h₀ _ h
    split
    · refine State.ite_spares_snd h₁ ?_
      split
      · next h => exact ih (State.passOver_spares (by simp [ha]) h₁ _ _ h)
      · exact h₀
    · split
      · next h => exact ih (State.wfStart_spares (by simp [ha]) h₁ _ _ _ _ h)
      · exact h₀
@[simp ↓] theorem State.serve_spares (ha : asp.outside [.regs, .fifos, .rings, .mtch]) (h₀ : s₀.Spares asp s) (c : Nat) (w : Want) :
    s₀.Spares asp (s.serve c w).2 := by
  unfold State.serve; simp [ha, h₀]
@[simp ↓] theorem State.setOverflow_spares (ha : asp.outside [.mtch]) (h₀ : s₀.Spares asp s) (c : Nat) (l : List Fwd) :
    s₀.Spares asp (s.setOverflow c l) := by
  unfold State.setOverflow; simp [ha, h₀]
theorem State.forwardItem_spares (ha : asp.outside [.fifos]) (h₀ : s₀.Spares asp s) (c home ty : Nat) (body : List Byte)
    (ht : s.forwardItem c home ty body = some s') : s₀.Spares asp s' := by
  exact State.wfStart_spares ha h₀ _ _ _ _ ht
@[simp ↓] theorem State.onWay_spares (ha : asp.outside [.mtch]) (h₀ : s₀.Spares asp s) (c : Nat) (f : Fwd) :
    s₀.Spares asp (s.onWay c f) := by
  unfold State.onWay; simp [ha, h₀]
@[simp ↓] theorem State.offWay_spares (ha : asp.outside [.mtch]) (h₀ : s₀.Spares asp s) (c : Nat) (f : Fwd) :
    s₀.Spares asp (s.offWay c f) := by
  unfold State.offWay; simp [ha, h₀]
@[simp ↓] theorem State.matchRefuse_spares
    (ha : asp.outside [.regs, .tgf, .fifos, .threads, .clusters, .ops, .rings, .net, .mtch, .aml, .host, .route, .out])
    (h₀ : s₀.Spares asp s) (home c ref : Nat) : s₀.Spares asp (s.matchRefuse home c ref) := by
  unfold State.matchRefuse; simp [ha, h₀]
@[simp ↓] theorem State.meet_spares
    (ha : asp.outside [.regs, .tgf, .fifos, .threads, .clusters, .ops, .rings, .net, .mtch, .aml, .host, .route, .out])
    (h₀ : s₀.Spares asp s) (c ref home ctx : Nat) (rdv : Bool) (x : PktRef) : s₀.Spares asp (s.meet c ref home ctx rdv x) := by
  unfold State.meet
  extract_lets p block key ord
  refine State.ite_spares (by simp [ha, h₀]) (State.ite_spares (by simp [ha, h₀]) ?_)
  split <;> have h₁ := State.Spares.of_eq (s₀ := s₀) (asp := asp) ‹_ = (_, _)› (by simp [ha, h₀])
  · simp [ha, h₁]
  · simp (maxDischargeDepth := 40) [ha, h₁]
  · extract_lets qn s2
    have h₂ : s₀.Spares asp s2 := by unfold s2; simp [ha, h₁]
    split
    · simp [ha, h₂]
    · exact State.ite_spares (by simp (maxDischargeDepth := 40) [ha, h₂]) (State.mtch_spares (by simp [ha]) h₂ _)
theorem State.forward_sent_spares (ha : asp.outside [.fifos, .mtch]) (h₀ : s₀.Spares asp s) {c ty : Nat} {f : Fwd} {body : List Byte}
    (h : s.forward c f ty body = .sent s') : s₀.Spares asp s' := by
  unfold State.forward at h
  extract_lets l at h
  split at h
  · next heq =>
    cases h
    split at heq
    · cases heq
    · simp [ha, State.forwardItem_spares (asp := asp) (by simp [ha]) h₀ _ _ _ _ heq]
  · split at h <;> cases h
theorem State.forward_listed_spares (ha : asp.outside [.fifos, .mtch]) (h₀ : s₀.Spares asp s) {c ty : Nat} {f : Fwd} {body : List Byte}
    (h : s.forward c f ty body = .listed s') : s₀.Spares asp s' := by
  unfold State.forward at h
  extract_lets l at h
  split at h
  · cases h
  · split at h <;> cases h
    simp [ha, h₀]
@[simp ↓] theorem State.arrive_spares
    (ha : asp.outside [.regs, .tgf, .fifos, .threads, .clusters, .ops, .rings, .net, .mtch, .aml, .host, .route, .out])
    (h₀ : s₀.Spares asp s) (c ref : Nat) (x : PktRef) (h : Half) : s₀.Spares asp (s.arrive c ref x h) := by
  unfold State.arrive
  extract_lets p w rdv ctx home
  refine State.ite_spares h₀ (State.ite_spares ?_ ?_)
  · split
    next h =>
    have h₁ := State.Spares.of_eq (s₀ := s₀) (asp := asp) h (by simp [ha, h₀])
    exact State.ite_spares (by simp [ha, h₁]) h₁
  have hserved : s₀.Spares asp (if h.fifo == 3 then s.serve c (.pkt ref p.seq.toNat) else (true, s)).2 := by
    split <;> simp [ha, h₀]
  split
  next ok s1 h =>
  have h₁ := State.Spares.of_eq (s₀ := s₀) (asp := asp) h hserved
  refine State.ite_spares h₁ (State.ite_spares (by simp [ha, h₁]) (State.ite_spares (by simp [ha, h₁])
    (State.ite_spares (by simp [ha, h₁]) ?_)))
  split
  · next h => exact State.forward_sent_spares (by simp [ha]) h₁ h
  · next h => exact State.forward_listed_spares (by simp [ha]) h₁ h
  · simp [ha, h₁]
@[simp ↓] theorem State.copyMatched_spares
    (ha : asp.outside [.regs, .ram, .tgf, .fifos, .threads, .engines, .clusters, .ops, .rings, .net, .mtch, .aml, .host, .route, .out])
    (h₀ : s₀.Spares asp s) (c ref : Nat) (x : PktRef) (qn serial : Nat) : s₀.Spares asp (s.copyMatched c ref x qn serial) := by
  unfold State.copyMatched
  extract_lets p q
  split
  · simp [ha, h₀]
  next e _ =>
  extract_lets _ n m last
  refine State.ite_spares h₀ (State.ite_spares ?_ (State.ite_spares h₀ ?_))
  · simp (maxDischargeDepth := 40) [ha, h₀]
  split <;> have h₁ := State.Spares.of_eq (s₀ := s₀) (asp := asp) ‹_ = (_, _)› (by simp [ha, h₀])
  case h_4 =>
    split <;> have h₂ := State.Spares.of_eq (s₀ := s₀) (asp := asp) ‹_ = (_, _)› (by simp [ha, h₁])
    · simp (maxDischargeDepth := 40) [ha, h₂]
    · exact h₂
  all_goals simp (maxDischargeDepth := 40) [ha, h₁]
@[simp ↓] theorem State.copyToBlock_spares
    (ha : asp.outside [.regs, .ram, .tgf, .fifos, .threads, .clusters, .ops, .rings, .net, .mtch, .aml, .host, .route, .out])
    (h₀ : s₀.Spares asp s) (c ref key : Nat) (u : UnexpRec) (x : PktRef) : s₀.Spares asp (s.copyToBlock c ref key u x) := by
  unfold State.copyToBlock; (repeat' split) <;> simp (maxDischargeDepth := 40) [ha, h₀]
@[simp ↓] theorem State.sendDoomed_spares
    (ha : asp.outside [.regs, .tgf, .fifos, .threads, .clusters, .ops, .rings, .net, .mtch, .aml, .host, .route, .out])
    (h₀ : s₀.Spares asp s) (c ref : Nat) (d : Nat × Nat) : s₀.Spares asp (s.sendDoomed c ref d) := by
  unfold State.sendDoomed; dsimp only; (repeat' split) <;> simp (maxDischargeDepth := 40) [ha, h₀]
@[simp ↓] theorem State.takeSend_spares
    (ha : asp.outside [.regs, .ram, .tgf, .fifos, .threads, .engines, .clusters, .ops, .rings, .net, .mtch, .aml, .host, .route, .out])
    (h₀ : s₀.Spares asp s) (c ref : Nat) (x : PktRef) (h : Half) : s₀.Spares asp (s.takeSend c ref x h) := by
  unfold State.takeSend; (repeat' split) <;> simp [ha, h₀]
@[simp ↓] theorem putPacket_spares
    (ha : asp.outside [.regs, .ram, .tgf, .fifos, .threads, .engines, .clusters, .ops, .rings, .net, .mtch, .aml, .host, .route, .out])
    (h₀ : s₀.Spares asp s) (c ref : Nat) : s₀.Spares asp (putPacket c ref s) := by
  unfold putPacket; split <;> simp (maxDischargeDepth := 40) [ha, h₀]
theorem State.getMessage_spares (ha : asp.outside [.regs, .threads, .ops, .orders, .mtch, .aml, .eptCache, .limCache])
    (h₀ : s₀.Spares asp s) (qn : Nat) (e : OutEntry) (key : Nat) (u : UnexpRec) (rkey len va : Nat)
    (ht : s.getMessage qn e key u rkey len va = some s') : s₀.Spares asp s' := by
  unfold State.getMessage at ht
  extract_lets at ht
  rw [Option.map_eq_some_iff] at ht
  obtain ⟨⟨k, u⟩, hu, rfl⟩ := ht
  have h₁ := State.takeSlot_spares (asp := asp) (by simp [ha]) h₀ _ _ _ _ _ hu
  simp (maxDischargeDepth := 40) [ha, h₁]
@[simp ↓] theorem State.takeMessage_spares
    (ha : asp.outside [.regs, .tgf, .fifos, .threads, .clusters, .ops, .orders, .rings, .net, .mtch, .aml, .host, .eptCache, .limCache,
      .route, .out])
    (h₀ : s₀.Spares asp s) (qn : Nat) (e : OutEntry) (key : Nat) (u : UnexpRec) : s₀.Spares asp (s.takeMessage qn e key u) := by
  unfold State.takeMessage
  extract_lets q b h done n block
  have hdone {t : State} (ht : s₀.Spares asp t) (d : WorkDone) : s₀.Spares asp (done t d) := by
    unfold done; simp (maxDischargeDepth := 40) [ha, ht]
  split
  · refine State.ite_spares (hdone h₀ _) ?_
    split
    · next h =>
      have h₁ := State.takeSlot_spares (asp := asp) (by simp [ha]) h₀ _ _ _ _ _ h
      simp (maxDischargeDepth := 40) [ha, h₁]
    · exact h₀
  · refine State.ite_spares (hdone h₀ _) (State.ite_spares (hdone h₀ _) ?_)
    refine State.ite_spares (State.getD_spares (fun t ht => ?_) h₀) (State.ite_spares h₀ (by simp [ha, h₀]))
    exact State.getMessage_spares (by simp [ha]) (State.setHalf_spares (by simp [ha]) h₀ _ _) _ _ _ _ _ _ _ ht
@[simp ↓] theorem State.recvGoes_spares
    (ha : asp.outside [.regs, .tgf, .fifos, .threads, .clusters, .ops, .orders, .rings, .net, .mtch, .aml, .host, .eptCache, .limCache,
      .route, .out])
    (h₀ : s₀.Spares asp s) (qn : Nat) (e : OutEntry) : s₀.Spares asp (s.recvGoes qn e) := by
  unfold State.recvGoes; split <;> simp (maxDischargeDepth := 40) [ha, h₀]
@[simp ↓] theorem State.recvForward_spares (ha : asp.outside [.regs, .fifos, .rings, .mtch]) (h₀ : s₀.Spares asp s) (qn : Nat)
    (e : OutEntry) : s₀.Spares asp (s.recvForward qn e) := by
  unfold State.recvForward
  extract_lets c gone
  have hgone {t : State} (ht : s₀.Spares asp t) : s₀.Spares asp (gone t) := State.mtch_spares (by simp [ha]) ht _
  split
  · next h => exact hgone (State.forward_sent_spares (by simp [ha]) h₀ h)
  · next h => exact hgone (State.forward_listed_spares (by simp [ha]) h₀ h)
  · simp [ha, h₀]
@[simp ↓] theorem State.keptGoOn_spares (ha : asp.outside [.regs, .fifos, .rings, .mtch]) (h₀ : s₀.Spares asp s) (c : Nat) :
    s₀.Spares asp (s.keptGoOn c) := by
  unfold State.keptGoOn
  refine State.foldl_spares (fun s w => ?_) h₀ _
  split <;> simp [ha]
@[simp ↓] theorem State.recvPopped_spares
    (ha : asp.outside [.regs, .tgf, .fifos, .threads, .clusters, .ops, .rings, .net, .mtch, .aml, .host, .out]) (h₀ : s₀.Spares asp s)
    (qn : Nat) (e : OutEntry) : s₀.Spares asp (s.recvPopped qn e) := by
  unfold State.recvPopped; simp (maxDischargeDepth := 40) [ha, h₀]
@[simp ↓] theorem State.recvGoesOn_spares
    (ha : asp.outside [.regs, .tgf, .fifos, .threads, .clusters, .ops, .orders, .rings, .net, .mtch, .aml, .host, .eptCache, .limCache,
      .route, .out])
    (h₀ : s₀.Spares asp s) (qn : Nat) (e : OutEntry) : s₀.Spares asp (s.recvGoesOn qn e) := by
  unfold State.recvGoesOn; simp (maxDischargeDepth := 40) [ha, h₀]
@[simp ↓] theorem recv_spares
    (ha : asp.outside [.regs, .tgf, .fifos, .threads, .clusters, .ops, .orders, .rings, .net, .mtch, .aml, .host, .eptCache, .limCache,
      .route, .out])
    (h₀ : s₀.Spares asp s) (qn idx : Nat) : s₀.Spares asp (recv qn idx s) := by
  unfold recv; dsimp only; (repeat' split) <;> simp [ha, h₀]
@[simp ↓] theorem overflowForward_spares (ha : asp.outside [.regs, .fifos, .rings, .mtch]) (h₀ : s₀.Spares asp s) (c : Nat) :
    s₀.Spares asp (overflowForward c s) := by
  unfold overflowForward
  refine State.ite_spares h₀ ?_
  split
  · simp [ha, h₀]
  next f rest _ =>
  extract_lets freed
  have hfreed {t : State} (ht : s₀.Spares asp t) : s₀.Spares asp (freed t) := by unfold freed; simp [ha, ht]
  split <;> split <;> try exact hfreed h₀
  all_goals
    split
    · next h => exact hfreed (by simp [ha, State.forwardItem_spares (asp := asp) (by simp [ha]) h₀ _ _ _ _ h])
    · exact h₀
@[simp ↓] theorem State.recvDone_spares
    (ha : asp.outside [.regs, .tgf, .fifos, .threads, .clusters, .ops, .rings, .net, .mtch, .aml, .host, .out]) (h₀ : s₀.Spares asp s)
    (o : Op) (qn serial : Nat) : s₀.Spares asp (s.recvDone o qn serial) := by
  unfold State.recvDone; simp [ha, h₀]

/-! #### Sys2Proof/Machine/Library.lean -/

theorem State.launch_spares (ha : asp.outside [.regs, .threads, .ops, .orders, .aml, .eptCache, .limCache]) (h₀ : s₀.Spares asp s)
    (qn r : Nat) (e : OutEntry) (ht : s.launch qn r e = some s') : s₀.Spares asp s' := by
  unfold State.launch at ht
  extract_lets at ht
  rw [Option.map_eq_some_iff] at ht
  obtain ⟨⟨k, u⟩, hu, rfl⟩ := ht
  have h₁ := State.takeSlot_spares (asp := asp) (by simp [ha]) h₀ _ _ _ _ _ hu
  simp (maxDischargeDepth := 40) [ha, h₁]
@[simp ↓] theorem State.sqWork_spares
    (ha : asp.outside [.regs, .tgf, .fifos, .threads, .clusters, .ops, .orders, .rings, .net, .aml, .host, .eptCache, .limCache, .out])
    (h₀ : s₀.Spares asp s) (qn idx : Nat) (is : Nat → Bool) : s₀.Spares asp (s.sqWork qn idx is) := by
  unfold State.sqWork
  extract_lets q
  refine State.ite_spares h₀ ?_
  split
  · exact h₀
  next e _ =>
  extract_lets b s1 ends
  refine State.ite_spares h₀ ?_
  have h₁ : s₀.Spares asp s1 := by unfold s1; simp [ha, h₀]
  have hends (d : WorkDone) : s₀.Spares asp (ends d) := by unfold ends; simp [ha, h₁]
  refine State.ite_spares (hends _) ?_
  split
  · exact hends _
  next r _ =>
  extract_lets h
  refine State.ite_spares (hends _) (State.ite_spares (hends _) ?_)
  split
  · exact hends _
  refine State.ite_spares (by simp [ha, h₁]) ?_
  split
  · next h => exact State.launch_spares (by simp [ha]) h₁ _ _ _ h
  · exact h₀
@[simp ↓] theorem State.workOpDone_spares
    (ha : asp.outside [.regs, .tgf, .fifos, .threads, .clusters, .ops, .rings, .net, .aml, .host, .out]) (h₀ : s₀.Spares asp s) (o : Op)
    (qn serial : Nat) : s₀.Spares asp (s.workOpDone o qn serial) := by
  unfold State.workOpDone; split <;> simp [ha, h₀]
@[simp ↓] theorem State.responseLeft_spares
    (ha : asp.outside [.regs, .tgf, .fifos, .threads, .clusters, .ops, .rings, .net, .aml, .host, .out]) (h₀ : s₀.Spares asp s)
    (o : Op) : s₀.Spares asp (s.responseLeft o) := by
  unfold State.responseLeft; dsimp only; (repeat' split) <;> simp [ha, h₀]
@[simp ↓] theorem State.failSend_spares
    (ha : asp.outside [.regs, .tgf, .fifos, .threads, .clusters, .ops, .rings, .net, .aml, .host, .out]) (h₀ : s₀.Spares asp s)
    (r : Nat) (p : Packet) : s₀.Spares asp (s.failSend r p) := by
  unfold State.failSend; (repeat' split) <;> simp [ha, h₀]
@[simp ↓] theorem State.sourceError_spares
    (ha : asp.outside [.regs, .tgf, .fifos, .threads, .clusters, .ops, .rings, .net, .mtch, .aml, .host, .out]) (h₀ : s₀.Spares asp s)
    (r st : Nat) (q : BitVec 32) : s₀.Spares asp (s.sourceError r st q) := by
  unfold State.sourceError; split <;> simp [ha, h₀]
@[simp ↓] theorem State.refused_spares
    (ha : asp.outside [.regs, .tgf, .fifos, .threads, .clusters, .ops, .rings, .net, .mtch, .aml, .host, .out]) (h₀ : s₀.Spares asp s)
    (r : Nat) (a : AckItem) : s₀.Spares asp (s.refused r a) := by
  unfold State.refused; dsimp only; (repeat' split) <;> simp [ha, h₀]
@[simp ↓] theorem State.proven_spares (ha : asp.outside [.threads, .ops, .aml]) (h₀ : s₀.Spares asp s) (r : Nat) (a : AckItem) :
    s₀.Spares asp (s.proven r a) := by
  unfold State.proven; simp (maxDischargeDepth := 40) [ha, h₀]
theorem State.resend_spares (ha : asp.outside [.ops, .orders, .limCache]) (h₀ : s₀.Spares asp s) (r : Nat) (x : TxRec)
    (ht : s.resend r x = some s') : s₀.Spares asp s' := by
  unfold State.resend at ht
  split at ht
  · cases ht
  extract_lets block at ht
  rw [Option.map_eq_some_iff] at ht
  obtain ⟨⟨k, u⟩, hu, he⟩ := ht
  have h₁ := State.takeSlot_spares (asp := asp) (by simp [ha]) h₀ _ _ _ _ _ hu
  have h₂ : s₀.Spares asp (if x.pkt.op == opMcast || x.pkt.dstDn == u.ownDn then (none, u) else u.limOf (r / 16384 / 4) r).2 := by
    split <;> simp [ha, h₁]
  rw [← he]
  exact State.setOp_spares (by simp [ha]) h₂ _ _
@[simp ↓] theorem rto_spares (ha : asp.outside [.ops, .orders, .net, .limCache]) (h₀ : s₀.Spares asp s) (r seq : Nat) :
    s₀.Spares asp (rto r seq s) := by
  unfold rto
  split
  · exact h₀
  next x _ =>
  extract_lets h kmax
  refine State.ite_spares h₀ ?_
  split
  · exact h₀
  next h =>
  have h₁ := State.resend_spares (asp := asp) (by simp [ha]) h₀ _ _ h
  simp [ha, h₁]
@[simp ↓] theorem retryExceeded_spares
    (ha : asp.outside [.regs, .tgf, .fifos, .threads, .clusters, .ops, .rings, .net, .mtch, .aml, .host, .out]) (h₀ : s₀.Spares asp s)
    (r seq : Nat) : s₀.Spares asp (retryExceeded r seq s) := by
  unfold retryExceeded; split <;> simp [ha, h₀]
@[simp ↓] theorem State.sendRefused_spares (ha : asp.outside [.ops, .orders, .limCache]) (h₀ : s₀.Spares asp s) (r seq : Nat)
    (is : Nat → Bool) : s₀.Spares asp (s.sendRefused r seq is) := by
  unfold State.sendRefused
  split
  · exact h₀
  split
  · exact h₀
  refine State.ite_spares (State.getD_spares (fun t ht => ?_) h₀) h₀
  exact State.resend_spares ha h₀ _ _ ht
@[simp ↓] theorem rlRetry_spares (ha : asp.outside [.ops, .orders, .limCache]) (h₀ : s₀.Spares asp s) (r seq : Nat) :
    s₀.Spares asp (rlRetry r seq s) := by
  unfold rlRetry; simp [ha, h₀]
@[simp ↓] theorem refuseBackoff_spares (ha : asp.outside [.ops, .orders, .limCache]) (h₀ : s₀.Spares asp s) (r seq : Nat) :
    s₀.Spares asp (refuseBackoff r seq s) := by
  unfold refuseBackoff; simp [ha, h₀]

/-! #### Sys2Proof/Machine/Collective.lean -/

@[simp ↓] theorem State.memberAt_spares (ha : asp.outside [.regs, .eptCache]) (h₀ : s₀.Spares asp s) (ep : Nat) :
    s₀.Spares asp (s.memberAt ep).2 := by
  unfold State.memberAt
  split <;> have h₁ := State.Spares.of_eq (s₀ := s₀) (asp := asp) ‹_ = (_, _)› (by simp [ha, h₀])
  · exact h₁
  · refine State.ite_spares_snd h₁ ?_
    split <;> exact h₁
@[simp ↓] theorem State.membersOf_spares (ha : asp.outside [.regs, .eptCache]) (h₀ : s₀.Spares asp s) (i₁ : List Nat)
    (i₂ : List Member) : s₀.Spares asp (s.membersOf i₁ i₂).2 := by
  induction i₁ generalizing s i₂ with
  | nil => exact h₀
  | cons ep eps ih =>
    unfold State.membersOf
    split <;> have h₁ := State.Spares.of_eq (s₀ := s₀) (asp := asp) ‹_ = (_, _)› (by simp [ha, h₀])
    · exact h₁
    · exact ih h₁ _
@[simp ↓] theorem State.joinWith_spares (ha : asp.outside [.regs, .net, .eptCache]) (h₀ : s₀.Spares asp s) (q : Queue) (r : Nat)
    (b table : List Byte) : s₀.Spares asp (s.joinWith q r b table).2 := by
  unfold State.joinWith; dsimp only; (repeat' split) <;> try simp (maxDischargeDepth := 40) [ha, h₀]
  all_goals
    have h₁ := State.Spares.of_eq (s₀ := s₀) (asp := asp) ‹_ = (_, _)› (by simp (maxDischargeDepth := 40) [ha, h₀])
    simp (maxDischargeDepth := 40) [ha, h₁]
@[simp ↓] theorem State.collWork_spares
    (ha : asp.outside [.regs, .tgf, .fifos, .threads, .clusters, .ops, .rings, .net, .aml, .host, .out]) (h₀ : s₀.Spares asp s)
    (qn idx sub : Nat) (f : Queue → Nat → OutEntry → State → State) (hf : ∀ a b c (s : State), s.Spares asp (f a b c s)) :
    s₀.Spares asp (s.collWork qn idx sub f) := by
  unfold State.collWork; dsimp only; (repeat' split) <;> simp [ha, h₀, fun a b c {s} (h : s₀.Spares asp s) => h.trans (hf a b c s)]
@[simp ↓] theorem join_spares
    (ha : asp.outside [.regs, .tgf, .fifos, .threads, .engines, .clusters, .ops, .orders, .rings, .net, .aml, .host, .eptCache, .out])
    (h₀ : s₀.Spares asp s) (qn idx st : Nat) (data : List Byte) : s₀.Spares asp (join qn idx st data s) := by
  unfold join
  refine State.collWork_spares (by simp [ha]) h₀ _ _ _ _ fun q r e s => ?_
  extract_lets b s1
  split
  · have h₁ : s.Spares asp s1 := by unfold s1; simp [ha]
    refine State.ite_spares (.refl s) ?_
    split
    · simp [ha, h₁]
    · split
      · next h => exact State.takeSlot_spares (by simp [ha]) h₁ _ _ _ _ _ h
      · exact .refl s
  next k _ =>
  extract_lets ends
  have hends {t : State} (ht : s.Spares asp t) (d : WorkDone) : s.Spares asp (ends t d) := by
    unfold ends; simp (maxDischargeDepth := 40) [ha, ht]
  split <;> have h₁ := State.Spares.of_eq (s₀ := s) (asp := asp) ‹_ = (_, _)› (by simp [ha])
  · split
    next h => exact hends (.of_eq h (by simp [ha, h₁])) _
  · split <;> have h₂ := State.Spares.of_eq (s₀ := s) (asp := asp) ‹_ = (_, _)› (by simp [ha, h₁])
    · exact h₂
    · exact hends h₂ _
@[simp ↓] theorem leave_spares (ha : asp.outside [.regs, .tgf, .fifos, .threads, .clusters, .ops, .rings, .net, .aml, .host, .out])
    (h₀ : s₀.Spares asp s) (qn idx : Nat) : s₀.Spares asp (leave qn idx s) := by
  unfold leave
  refine State.collWork_spares (by simp [ha]) h₀ _ _ _ _ fun q r e s => ?_
  extract_lets id s1 s2
  have h₁ : s.Spares asp s1 := by unfold s1; simp [ha]
  have h₂ : s.Spares asp s2 := by unfold s2; simp [ha, h₁]
  split
  · simp [ha, h₁]
  next cl _ =>
  simp (maxDischargeDepth := 40) [ha, h₂]
@[simp ↓] theorem State.setRun_spares (ha : asp.outside [.net]) (h₀ : s₀.Spares asp s) (id : Nat) (f : CollRun → CollRun) :
    s₀.Spares asp (s.setRun id f) := by
  unfold State.setRun; split <;> simp [ha, h₀]
theorem State.runOp_spares (ha : asp.outside [.ops, .orders]) (h₀ : s₀.Spares asp s) (c id step : Nat) (half : Option Nat)
    (kind fl : Nat) (block : List Byte) (ht : s.runOp c id step half kind fl block = some (a, s')) : s₀.Spares asp s' := by
  unfold State.runOp at ht
  rw [Option.map_eq_some_iff] at ht
  obtain ⟨⟨i, u⟩, hu, ht⟩ := ht
  cases ht
  have h₁ := State.takeSlot_spares (asp := asp) ha h₀ _ _ _ _ _ hu
  simp [ha, h₁]
@[simp ↓] theorem State.listOn_spares (ha : asp.outside [.net]) (h₀ : s₀.Spares asp s) (r : Nat) (who : Nat × Nat) :
    s₀.Spares asp (s.listOn r who) := by
  unfold State.listOn; simp [ha, h₀]
theorem State.runSend_spares
    (ha : asp.outside [.regs, .tgf, .fifos, .threads, .clusters, .ops, .orders, .rings, .net, .mtch, .aml, .host, .eptCache, .limCache,
      .route, .out])
    (h₀ : s₀.Spares asp s) (c id step phase : Nat) (at_ : Word) (w : RunSend) (ht : s.runSend c id step phase at_ w = some s') :
    s₀.Spares asp s' := by
  have key {k : Nat} {u : State} {half kind fl block} (hu : s.runOp c id step half kind fl block = some (k, u)) : s₀.Spares asp u :=
    State.runOp_spares (by simp [ha]) h₀ _ _ _ _ _ _ _ hu
  unfold State.runSend at ht
  split at ht
  · rw [Option.map_eq_some_iff] at ht
    obtain ⟨⟨k, u⟩, hu, rfl⟩ := ht
    simp [ha, key hu]
  · extract_lets at ht
    split at ht
    · rw [Option.map_eq_some_iff] at ht
      obtain ⟨⟨k, u⟩, hu, rfl⟩ := ht
      simp [ha, key hu]
    split at ht
    · cases ht
    · rw [Option.map_eq_some_iff] at ht
      obtain ⟨⟨k, u⟩, hu, rfl⟩ := ht
      simp [ha, key hu]
@[simp ↓] theorem State.runSends_spares
    (ha : asp.outside [.regs, .tgf, .fifos, .threads, .clusters, .ops, .orders, .rings, .net, .mtch, .aml, .host, .eptCache, .limCache,
      .route, .out])
    (h₀ : s₀.Spares asp s) (c id : Nat) (cl : Coll) (step phase : Nat) (at_ : Word) (who : Nat × Nat) (held : List Nat)
    (n : List RunSend) : s₀.Spares asp (s.runSends c id cl step phase at_ who held n).2 := by
  induction n generalizing s held with
  | nil => exact h₀
  | cons w ws ih =>
    unfold State.runSends
    extract_lets hs
    split
    · next h =>
      split at h
      · cases h
      · exact ih (State.runSend_spares ha h₀ _ _ _ _ _ _ h) _
    · exact ih (State.foldl_spares (fun s q => by simp [ha]) h₀ _) _
@[simp ↓] theorem State.runPush_spares
    (ha : asp.outside [.regs, .tgf, .fifos, .threads, .clusters, .ops, .orders, .rings, .net, .mtch, .aml, .host, .eptCache, .limCache,
      .route, .out])
    (h₀ : s₀.Spares asp s) (c id : Nat) (cl : Coll) (r : CollRun) (phase : Nat) : s₀.Spares asp (s.runPush c id cl r phase) := by
  unfold State.runPush; simp (maxDischargeDepth := 40) [ha, h₀]
@[simp ↓] theorem State.openSlots2_spares (ha : asp.outside [.regs, .threads, .ops, .orders, .aml]) (h₀ : s₀.Spares asp s) (c id : Nat)
    (steps : List (RunStep × Nat)) : s₀.Spares asp (s.openSlots2 c id steps) := by
  unfold State.openSlots2
  refine State.foldl_spares (fun s e => ?_) h₀ _
  split
  · exact .refl s
  split
  · simp [ha]
  split
  · next h => simp [ha, State.runOp_spares (asp := asp) (by simp [ha]) (.refl s) _ _ _ _ _ _ _ h]
  · exact .refl s
@[simp ↓] theorem State.runFault_spares
    (ha : asp.outside [.regs, .tgf, .fifos, .threads, .clusters, .ops, .rings, .net, .aml, .host, .out]) (h₀ : s₀.Spares asp s)
    (id : Nat) (m : Moved) : s₀.Spares asp (s.runFault id m) := by
  unfold State.runFault
  split <;>
    have h₁ := State.Spares.of_eq (s₀ := s₀) (asp := asp) ‹_ = (_, _)› (by simp [ha, h₀])
  · exact h₁
  · simp [ha, h₁]
@[simp ↓] theorem State.libAccess_spares (ha : asp.outside [.ops, .orders]) (h₀ : s₀.Spares asp s) (c id step : Nat)
    (f : XltClient → State → Moved × State) (hf : ∀ a (s : State), s.Spares asp (f a s).2) :
    s₀.Spares asp (s.libAccess c id step f).2 := by
  unfold State.libAccess
  extract_lets slot
  have hslot : ∀ k t, slot = some (k, t) → s₀.Spares asp t := by
    intro k t ht
    simp only [slot] at ht
    split at ht
    · cases ht; exact h₀
    · exact State.runOp_spares ha h₀ _ _ _ _ _ _ _ ht
  clear_value slot
  split
  · exact h₀
  · next k t =>
    have h₁ : s₀.Spares asp (f (.op k) t).2 := (hslot k t rfl).trans (hf _ _)
    split <;> simp [ha, State.Spares.of_eq ‹_› h₁]
@[simp ↓] theorem State.runPrepare_spares
    (ha : asp.outside [.regs, .ram, .tgf, .fifos, .threads, .engines, .clusters, .ops, .orders, .rings, .net, .aml, .host, .out])
    (h₀ : s₀.Spares asp s) (c id : Nat) (b : List Byte) (r : CollRun) (steps : List RunStep) (x : RunStep) :
    s₀.Spares asp (s.runPrepare c id b r steps x) := by
  unfold State.runPrepare
  extract_lets all mine s1 before fresh go
  have h₁ : s₀.Spares asp s1 := by unfold s1; simp [ha, h₀]
  have hgo {t : State} (ht : s₀.Spares asp t) : s₀.Spares asp (go t) := by
    unfold go; simp (maxDischargeDepth := 40) [ha, ht]
  refine State.ite_spares h₁ (State.ite_spares (hgo h₁) ?_)
  split <;> have h₂ := State.Spares.of_eq (s₀ := s₀) (asp := asp) ‹_ = (_, _)› (by simp [ha, h₁])
  · exact hgo h₂
  · simp [ha, h₂]
@[simp ↓] theorem State.runNext_spares
    (ha : asp.outside [.regs, .tgf, .fifos, .threads, .engines, .clusters, .ops, .orders, .rings, .net, .aml, .host, .out])
    (h₀ : s₀.Spares asp s) (c id : Nat) (cl : Coll) (b : List Byte) (r : CollRun) (count : Nat) (x : RunStep) :
    s₀.Spares asp (s.runNext c id cl b r count x) := by
  unfold State.runNext
  extract_lets next
  have hnext {t : State} (ht : s₀.Spares asp t) (f : CollRun → CollRun) : s₀.Spares asp (next t f) := by
    unfold next; simp (maxDischargeDepth := 40) [ha, ht]
  clear_value next
  split
  · exact hnext h₀ _
  refine State.ite_spares (hnext h₀ _) ?_
  split <;> have h₁ := State.Spares.of_eq (s₀ := s₀) (asp := asp) ‹_ = (_, _)› (by simp [ha, h₀])
  · exact State.ite_spares (hnext h₁ _) (hnext h₁ _)
  · simp [ha, h₁]
@[simp ↓] theorem State.runOn_spares
    (ha : asp.outside [.regs, .ram, .tgf, .fifos, .threads, .engines, .clusters, .ops, .orders, .rings, .net, .mtch, .aml, .host,
      .eptCache, .limCache, .route, .out])
    (h₀ : s₀.Spares asp s) (c id : Nat) (cl : Coll) (b : List Byte) (r : CollRun) : s₀.Spares asp (s.runOn c id cl b r) := by
  unfold State.runOn; dsimp only; (repeat' split) <;> simp [ha, h₀]
@[simp ↓] theorem run_spares
    (ha : asp.outside [.regs, .ram, .tgf, .fifos, .threads, .engines, .clusters, .ops, .orders, .rings, .net, .mtch, .aml, .host,
      .eptCache, .limCache, .route, .out])
    (h₀ : s₀.Spares asp s) (qn idx : Nat) : s₀.Spares asp (run qn idx s) := by
  unfold run
  refine State.collWork_spares (by simp [ha]) h₀ _ _ _ _ fun q r e s => ?_
  extract_lets b id s1 ends
  have h₁ : s.Spares asp s1 := by unfold s1; simp [ha]
  have hends (d : WorkDone) : s.Spares asp (ends d) := by unfold ends; simp [ha, h₁]
  split
  · exact State.ite_spares (.refl s) (hends _)
  split
  · simp [ha]
  refine State.ite_spares (hends _) ?_
  extract_lets fails
  have hfails (d : WorkDone) : s.Spares asp (fails d) := by unfold fails; simp [ha, h₁]
  refine State.ite_spares (hfails _) ?_
  split
  · exact hfails _
  · exact State.ite_spares (hfails _) (by simp [ha, h₁])
@[simp ↓] theorem State.runOpDone_spares
    (ha : asp.outside [.regs, .tgf, .fifos, .threads, .clusters, .ops, .rings, .net, .aml, .host, .out]) (h₀ : s₀.Spares asp s) (o : Op)
    (id : Nat) : s₀.Spares asp (s.runOpDone o id) := by
  unfold State.runOpDone; dsimp only; (repeat' split) <;> simp [ha, h₀]
@[simp ↓] theorem phaseTimeout_spares
    (ha : asp.outside [.regs, .tgf, .fifos, .threads, .clusters, .ops, .rings, .net, .aml, .host, .out]) (h₀ : s₀.Spares asp s)
    (id : Nat) : s₀.Spares asp (phaseTimeout id s) := by
  unfold phaseTimeout; split <;> simp [ha, h₀]

/-! #### Sys2Proof/Machine/Completion.lean -/

@[simp ↓] theorem State.writeStatus_spares (ha : asp.outside [.ram]) (h₀ : s₀.Spares asp s) (o : Op) :
    s₀.Spares asp (s.writeStatus o) := by
  unfold State.writeStatus; simp [ha, h₀]
@[simp ↓] theorem State.deliverOp_spares (ha : asp.outside [.regs, .ram, .fifos, .ops]) (h₀ : s₀.Spares asp s) (k : Nat) (o : Op) :
    s₀.Spares asp (s.deliverOp k o) := by
  unfold State.deliverOp
  extract_lets stage s1 f
  have hstage {t : State} (ht : s₀.Spares asp t) (n : Nat) : s₀.Spares asp (stage n t) := by unfold stage; simp [ha, ht]
  have h₁ : s₀.Spares asp s1 := State.ite_spares (hstage (by simp [ha, h₀]) _) h₀
  refine State.ite_spares (by simp [ha, h₁]) (State.ite_spares h₁ ?_)
  split
  · next h => exact hstage (State.wfStart_spares (by simp [ha]) h₁ _ _ _ _ h) _
  · exact State.ite_spares h₁ (hstage (by simp [ha, h₁]) _)
@[simp ↓] theorem State.libDone_spares
    (ha : asp.outside [.regs, .tgf, .fifos, .threads, .clusters, .ops, .rings, .net, .mtch, .aml, .host, .out]) (h₀ : s₀.Spares asp s)
    (o : Op) : s₀.Spares asp (s.libDone o) := by
  unfold State.libDone; split <;> simp [ha, h₀]
@[simp ↓] theorem opDone_spares
    (ha : asp.outside [.regs, .ram, .tgf, .fifos, .threads, .clusters, .ops, .rings, .net, .mtch, .aml, .host, .eptCache, .limCache,
      .route, .out])
    (h₀ : s₀.Spares asp s) (c slot : Nat) : s₀.Spares asp (opDone c slot s) := by
  unfold opDone; dsimp only; (repeat' split) <;> simp (maxDischargeDepth := 40) [ha, h₀]

/-! #### Sys2Proof/Machine/Lanes.lean -/

@[simp ↓] theorem State.sendTsOn_spares (ha : asp.outside [.out]) (h₀ : s₀.Spares asp s) (p l ty count : Nat) :
    s₀.Spares asp (s.sendTsOn p l ty count) := by
  unfold State.sendTsOn; simp [ha, h₀]
@[simp ↓] theorem State.sendTs_spares (ha : asp.outside [.out]) (h₀ : s₀.Spares asp s) (p : Nat) (ls : List Nat) (ty count : Nat) :
    s₀.Spares asp (s.sendTs p ls ty count) := by
  unfold State.sendTs; simp [ha, h₀]
@[simp ↓] theorem State.setLink_spares (ha : asp.outside [.ports]) (h₀ : s₀.Spares asp s) (p : Nat) (st : LState) :
    s₀.Spares asp (s.setLink p st) := by
  unfold State.setLink; simp [ha, h₀]
@[simp ↓] theorem State.clearRx_spares (ha : asp.outside [.regs, .ports, .lanes]) (h₀ : s₀.Spares asp s) (p : Nat) :
    s₀.Spares asp (s.clearRx p) := by
  unfold State.clearRx; simp (maxDischargeDepth := 40) [ha, h₀]
@[simp ↓] theorem State.enterTrain_spares (ha : asp.outside [.regs, .ports, .lanes, .out]) (h₀ : s₀.Spares asp s) (p : Nat) :
    s₀.Spares asp (s.enterTrain p) := by
  unfold State.enterTrain; simp (maxDischargeDepth := 40) [ha, h₀]
@[simp ↓] theorem State.retrainPort_spares (ha : asp.outside [.regs, .tgf, .fifos, .threads, .ops, .aml, .ports, .lanes, .route, .out])
    (h₀ : s₀.Spares asp s) (p : Nat) : s₀.Spares asp (s.retrainPort p) := by
  unfold State.retrainPort; simp (maxDischargeDepth := 40) [ha, h₀]
@[simp ↓] theorem State.enterDetect_spares (ha : asp.outside [.regs, .ports, .lanes]) (h₀ : s₀.Spares asp s) (p : Nat) :
    s₀.Spares asp (s.enterDetect p) := by
  unfold State.enterDetect; simp [ha, h₀]
@[simp ↓] theorem State.grantBuffer_spares (ha : asp.outside [.regs, .tgf, .fifos, .ports, .out]) (h₀ : s₀.Spares asp s) (p : Nat) :
    s₀.Spares asp (s.grantBuffer p) := by
  unfold State.grantBuffer; simp (maxDischargeDepth := 40) [ha, h₀]
@[simp ↓] theorem State.enterConfig_spares (ha : asp.outside [.regs, .tgf, .fifos, .ports, .lanes, .out]) (h₀ : s₀.Spares asp s)
    (p : Nat) (ls : List Nat) : s₀.Spares asp (s.enterConfig p ls) := by
  unfold State.enterConfig; simp (maxDischargeDepth := 40) [ha, h₀]
@[simp ↓] theorem State.peerMarks_spares (ha : asp.outside [.lanes]) (h₀ : s₀.Spares asp s) (p l : Nat) (f : TsFrame) :
    s₀.Spares asp (s.peerMarks p l f) := by
  unfold State.peerMarks; simp (maxDischargeDepth := 40) [ha, h₀]
@[simp ↓] theorem State.checkTrained_spares (ha : asp.outside [.regs, .tgf, .fifos, .ports, .lanes, .out]) (h₀ : s₀.Spares asp s)
    (p : Nat) : s₀.Spares asp (s.checkTrained p) := by
  unfold State.checkTrained; simp [ha, h₀]
@[simp ↓] theorem ts1_spares (ha : asp.outside [.regs, .tgf, .fifos, .ports, .lanes, .out]) (h₀ : s₀.Spares asp s) (p l : Nat)
    (f : TsFrame) : s₀.Spares asp (ts1 p l f s) := by
  unfold ts1; simp (maxDischargeDepth := 40) [ha, h₀]
@[simp ↓] theorem ts2_spares (ha : asp.outside [.regs, .tgf, .fifos, .ports, .lanes, .out]) (h₀ : s₀.Spares asp s) (p l : Nat)
    (f : TsFrame) : s₀.Spares asp (ts2 p l f s) := by
  unfold ts2; simp (maxDischargeDepth := 40) [ha, h₀]
@[simp ↓] theorem configComplete_spares (ha : asp.outside [.ports, .lanes, .out]) (h₀ : s₀.Spares asp s) (p : Nat) :
    s₀.Spares asp (configComplete p s) := by
  unfold configComplete; simp (maxDischargeDepth := 40) [ha, h₀]
@[simp ↓] theorem ts3_spares (ha : asp.outside [.regs, .ports]) (h₀ : s₀.Spares asp s) (p : Nat) (f : TsFrame) :
    s₀.Spares asp (ts3 p f s) := by
  unfold ts3; simp (maxDischargeDepth := 40) [ha, h₀]
@[simp ↓] theorem configTimeout_spares (ha : asp.outside [.regs, .ports, .lanes]) (h₀ : s₀.Spares asp s) (p : Nat) :
    s₀.Spares asp (configTimeout p s) := by
  unfold configTimeout; simp [ha, h₀]
@[simp ↓] theorem lockTimeout_spares (ha : asp.outside [.regs, .ports, .lanes, .out]) (h₀ : s₀.Spares asp s) (p : Nat) :
    s₀.Spares asp (lockTimeout p s) := by
  unfold lockTimeout; simp [ha, h₀]
@[simp ↓] theorem signalDetect_spares (ha : asp.outside [.regs, .ports, .lanes, .out]) (h₀ : s₀.Spares asp s) (p l : Nat) :
    s₀.Spares asp (signalDetect p l s) := by
  unfold signalDetect; simp (maxDischargeDepth := 40) [ha, h₀]
@[simp ↓] theorem retryWait_spares (ha : asp.outside [.regs, .ports, .lanes, .out]) (h₀ : s₀.Spares asp s) (p : Nat) :
    s₀.Spares asp (retryWait p s) := by
  unfold retryWait; simp [ha, h₀]
@[simp ↓] theorem State.retireLane_spares (ha : asp.outside [.regs, .inv, .tgf, .fifos, .dev, .lanes, .out]) (h₀ : s₀.Spares asp s)
    (p l cause : Nat) : s₀.Spares asp (s.retireLane p l cause) := by
  unfold State.retireLane; simp (maxDischargeDepth := 40) [ha, h₀]
@[simp ↓] theorem State.retireLanes_spares
    (ha : asp.outside [.regs, .inv, .tgf, .fifos, .threads, .ops, .aml, .dev, .ports, .lanes, .route, .out]) (h₀ : s₀.Spares asp s)
    (p : Nat) (ls : List (Nat × Nat)) : s₀.Spares asp (s.retireLanes p ls) := by
  unfold State.retireLanes; simp (maxDischargeDepth := 40) [ha, h₀]
@[simp ↓] theorem State.countFail_spares (ha : asp.outside [.lanes]) (h₀ : s₀.Spares asp s) (p l : Nat) :
    s₀.Spares asp (s.countFail p l) := by
  unfold State.countFail; simp [ha, h₀]
@[simp ↓] theorem trainTimeout_spares
    (ha : asp.outside [.regs, .inv, .tgf, .fifos, .threads, .ops, .aml, .dev, .ports, .lanes, .route, .out]) (h₀ : s₀.Spares asp s)
    (p : Nat) : s₀.Spares asp (trainTimeout p s) := by
  unfold trainTimeout; simp (maxDischargeDepth := 40) [ha, h₀]
@[simp ↓] theorem State.evalLane_spares (ha : asp.outside [.regs, .tgf, .fifos, .lanes, .out]) (h₀ : s₀.Spares asp s) (p l : Nat) :
    s₀.Spares asp (s.evalLane p l) := by
  unfold State.evalLane; simp (maxDischargeDepth := 40) [ha, h₀]
@[simp ↓] theorem serEvaluation_spares
    (ha : asp.outside [.regs, .inv, .tgf, .fifos, .threads, .ops, .aml, .dev, .ports, .lanes, .route, .out]) (h₀ : s₀.Spares asp s)
    (p l : Nat) : s₀.Spares asp (serEvaluation p l s) := by
  unfold serEvaluation; simp (maxDischargeDepth := 40) [ha, h₀]
@[simp ↓] theorem State.unretireLane_spares (ha : asp.outside [.dev, .ports, .lanes]) (h₀ : s₀.Spares asp s) (p l : Nat) :
    s₀.Spares asp (s.unretireLane p l) := by
  unfold State.unretireLane; simp (maxDischargeDepth := 40) [ha, h₀]
@[simp ↓] theorem laneRetest_spares (ha : asp.outside [.dev, .ports, .lanes]) (h₀ : s₀.Spares asp s) (path : Path) (p l : Nat) :
    s₀.Spares asp (laneRetest path p l s) := by
  unfold laneRetest; simp [ha, h₀]
@[simp ↓] theorem State.disablePort_spares (ha : asp.outside [.regs, .tgf, .fifos, .threads, .ops, .aml, .ports, .lanes, .route, .out])
    (h₀ : s₀.Spares asp s) (p : Nat) : s₀.Spares asp (s.disablePort p) := by
  unfold State.disablePort; simp (maxDischargeDepth := 40) [ha, h₀]
@[simp ↓] theorem lnkCtrl_spares (ha : asp.outside [.regs, .inv, .tgf, .fifos, .threads, .ops, .aml, .ports, .lanes, .route, .out])
    (h₀ : s₀.Spares asp s) (path : Path) (p : Nat) (v : Word) : s₀.Spares asp (lnkCtrl path p v s) := by
  unfold lnkCtrl; simp (maxDischargeDepth := 40) [ha, h₀]
@[simp ↓] theorem linkEnable_spares (ha : asp.outside [.regs, .inv, .tgf, .fifos, .threads, .ops, .aml, .ports, .lanes, .route, .out])
    (h₀ : s₀.Spares asp s) (path : Path) (p : Nat) (v : Word) : s₀.Spares asp (linkEnable path p v s) := by
  unfold linkEnable; simp [ha, h₀]
@[simp ↓] theorem linkDisable_spares (ha : asp.outside [.regs, .inv, .tgf, .fifos, .threads, .ops, .aml, .ports, .lanes, .route, .out])
    (h₀ : s₀.Spares asp s) (path : Path) (p : Nat) (v : Word) : s₀.Spares asp (linkDisable path p v s) := by
  unfold linkDisable; simp [ha, h₀]
@[simp ↓] theorem retrain_spares (ha : asp.outside [.regs, .inv, .tgf, .fifos, .threads, .ops, .aml, .ports, .lanes, .route, .out])
    (h₀ : s₀.Spares asp s) (path : Path) (p : Nat) (v : Word) : s₀.Spares asp (retrain path p v s) := by
  unfold retrain; simp [ha, h₀]
@[simp ↓] theorem linkWake_spares (ha : asp.outside [.ports, .out]) (h₀ : s₀.Spares asp s) (p : Nat) :
    s₀.Spares asp (linkWake p s) := by
  unfold linkWake; simp (maxDischargeDepth := 40) [ha, h₀]
@[simp ↓] theorem wakePatternEnd_spares (ha : asp.outside [.regs, .ports, .lanes, .out]) (h₀ : s₀.Spares asp s) (p : Nat) :
    s₀.Spares asp (wakePatternEnd p s) := by
  unfold wakePatternEnd; split <;> simp [ha, h₀]
@[simp ↓] theorem eyeScan_spares (ha : asp.outside [.regs, .lanes]) (h₀ : s₀.Spares asp s) (path : Path) (p l : Nat) (v : Word) :
    s₀.Spares asp (eyeScan path p l v s) := by
  unfold eyeScan; simp (maxDischargeDepth := 40) [ha, h₀]
@[simp ↓] theorem eyeScanDone_spares (ha : asp.outside [.regs, .lanes]) (h₀ : s₀.Spares asp s) (p l n : Nat) :
    s₀.Spares asp (eyeScanDone p l n s) := by
  unfold eyeScanDone; simp (maxDischargeDepth := 40) [ha, h₀]

/-! #### Sys2Proof/Machine/HostLink.lean -/

@[simp ↓] theorem State.settleWake_spares (ha : asp.outside [.host, .out]) (h₀ : s₀.Spares asp s) : s₀.Spares asp s.settleWake := by
  unfold State.settleWake; simp (maxDischargeDepth := 40) [ha, h₀]
@[simp ↓] theorem State.resetFuncs_spares
    (ha : asp.outside [.regs, .ram, .threads, .clusters, .ops, .rings, .net, .mtch, .aml, .host, .out]) (h₀ : s₀.Spares asp s)
    (p : Nat → Bool) : s₀.Spares asp (s.resetFuncs p) := by
  unfold State.resetFuncs; simp (maxDischargeDepth := 40) [ha, h₀]
@[simp ↓] theorem functionLevelReset_spares
    (ha : asp.outside [.regs, .ram, .threads, .clusters, .ops, .rings, .net, .mtch, .aml, .host, .out]) (h₀ : s₀.Spares asp s)
    (f : Nat) : s₀.Spares asp (functionLevelReset f s) := by
  unfold functionLevelReset; simp [ha, h₀]
@[simp ↓] theorem State.endReads_spares
    (ha : asp.outside [.regs, .tgf, .fifos, .threads, .clusters, .ops, .orders, .rings, .net, .mtch, .aml, .host, .eptCache, .limCache,
      .route, .out])
    (h₀ : s₀.Spares asp s) (p : Nat → Bool) : s₀.Spares asp (s.endReads p) := by
  unfold State.endReads; simp [ha, h₀]
@[simp ↓] theorem perst_spares
    (ha : asp.outside [.regs, .ram, .tgf, .fifos, .threads, .clusters, .ops, .orders, .rings, .net, .mtch, .aml, .host, .eptCache,
      .limCache, .route, .out])
    (h₀ : s₀.Spares asp s) (k : Nat) (level : Bool) : s₀.Spares asp (perst k level s) := by
  unfold perst; simp (maxDischargeDepth := 40) [ha, h₀]
@[simp ↓] theorem hostLinkDown_spares
    (ha : asp.outside [.regs, .ram, .tgf, .fifos, .threads, .clusters, .ops, .orders, .rings, .net, .mtch, .aml, .host, .eptCache,
      .limCache, .route, .out])
    (h₀ : s₀.Spares asp s) (a : Nat) : s₀.Spares asp (hostLinkDown a s) := by
  unfold hostLinkDown; simp (maxDischargeDepth := 40) [ha, h₀]
@[simp ↓] theorem hostLinkUp_spares (ha : asp.outside [.regs, .tgf, .fifos, .host, .out]) (h₀ : s₀.Spares asp s) (a width rate : Nat) :
    s₀.Spares asp (hostLinkUp a width rate s) := by
  unfold hostLinkUp; simp (maxDischargeDepth := 40) [ha, h₀]
@[simp ↓] theorem State.sendHeld_spares (ha : asp.outside [.regs, .host, .out]) (h₀ : s₀.Spares asp s) (f : Nat) :
    s₀.Spares asp (s.sendHeld f) := by
  unfold State.sendHeld; simp [ha, h₀]
@[simp ↓] theorem l1Entry_spares (ha : asp.outside [.host]) (h₀ : s₀.Spares asp s) (a : Nat) : s₀.Spares asp (l1Entry a s) := by
  unfold l1Entry; simp [ha, h₀]
@[simp ↓] theorem l1Exit_spares (ha : asp.outside [.regs, .host]) (h₀ : s₀.Spares asp s) (a : Nat) : s₀.Spares asp (l1Exit a s) := by
  unfold l1Exit; simp [ha, h₀]
@[simp ↓] theorem exitToL0Complete_spares
    (ha : asp.outside [.regs, .tgf, .fifos, .threads, .clusters, .ops, .rings, .net, .aml, .host, .out]) (h₀ : s₀.Spares asp s)
    (a : Nat) : s₀.Spares asp (exitToL0Complete a s) := by
  unfold exitToL0Complete; simp (maxDischargeDepth := 40) [ha, h₀]
@[simp ↓] theorem functionStateChange_spares
    (ha : asp.outside [.regs, .tgf, .fifos, .threads, .clusters, .ops, .rings, .net, .aml, .host, .out]) (h₀ : s₀.Spares asp s)
    (f d : Nat) (cfg : FuncCfg) : s₀.Spares asp (functionStateChange f d cfg s) := by
  unfold functionStateChange; split <;> simp (maxDischargeDepth := 40) [ha, h₀]
@[simp ↓] theorem vfAllocWrite_spares (ha : asp.outside [.regs, .host]) (h₀ : s₀.Spares asp s) (path : Path) (pf : Nat) (v : Word) :
    s₀.Spares asp (vfAllocWrite path pf v s) := by
  unfold vfAllocWrite; simp (maxDischargeDepth := 40) [ha, h₀]
@[simp ↓] theorem State.dropCommands_spares (ha : asp.outside [.regs, .net]) (h₀ : s₀.Spares asp s) :
    s₀.Spares asp s.dropCommands := by
  unfold State.dropCommands; simp [ha, h₀]
theorem State.tgf_host_spares (ha : asp.outside [.tgf, .host]) (h₀ : s₀.Spares asp s) (t : Tungsten) (h : HostIf) :
    s₀.Spares asp { s with tgf := t, host := h } :=
  State.tgf_spares ha.1 (State.host_spares ha.2.1 h₀ h) t
@[simp ↓] theorem State.adapterReset_spares
    (ha : asp.outside [.regs, .ram, .tgf, .fifos, .threads, .clusters, .ops, .rings, .net, .mtch, .aml, .host, .out])
    (h₀ : s₀.Spares asp s) : s₀.Spares asp s.adapterReset := by
  unfold State.adapterReset
  extract_lets s1 s2
  have h₂ : s₀.Spares asp s2 := by unfold s2 s1; simp (maxDischargeDepth := 40) [ha, h₀]
  have h₃ (t : Tungsten) (h : HostIf) : s₀.Spares asp { s2 with tgf := t, host := h } := State.tgf_host_spares (by simp [ha]) h₂ t h
  exact State.ite_spares (State.emit_spares (by simp [ha]) (h₃ _ _) _) (h₃ _ _)
@[simp ↓] theorem adapterReset_spares
    (ha : asp.outside [.regs, .ram, .tgf, .fifos, .threads, .clusters, .ops, .rings, .net, .mtch, .aml, .host, .out])
    (h₀ : s₀.Spares asp s) (pf : Nat) (v : BitVec 32) : s₀.Spares asp (adapterReset pf v s) := by
  unfold adapterReset; simp [ha, h₀]

/-! #### Sys2Proof/Machine/Link.lean -/

@[simp ↓] theorem State.sendCell_spares (ha : asp.outside [.regs, .threads, .ops, .aml, .ports, .out]) (h₀ : s₀.Spares asp s)
    (p : Nat) : s₀.Spares asp (s.sendCell p) := by
  unfold State.sendCell; dsimp only; split <;> simp (maxDischargeDepth := 40) [ha, h₀]
@[simp ↓] theorem slotSend_spares (ha : asp.outside [.regs, .threads, .ops, .aml, .ports, .out]) (h₀ : s₀.Spares asp s) (p : Nat) :
    s₀.Spares asp (slotSend p s) := by
  unfold slotSend; dsimp only; (repeat' split) <;> try simp (maxDischargeDepth := 40) [ha, h₀]
  all_goals
    have h₁ := State.Spares.of_eq (s₀ := s₀) (asp := asp) ‹_ = (_, _)› (by simp (maxDischargeDepth := 40) [ha, h₀])
    simp (maxDischargeDepth := 40) [ha, h₁]
@[simp ↓] theorem State.startReplay_spares (ha : asp.outside [.regs, .tgf, .fifos, .threads, .ops, .aml, .ports, .lanes, .route, .out])
    (h₀ : s₀.Spares asp s) (p lack : Nat) : s₀.Spares asp (s.startReplay p lack) := by
  unfold State.startReplay; simp (maxDischargeDepth := 40) [ha, h₀]
@[simp ↓] theorem replayTimeout_spares (ha : asp.outside [.regs, .tgf, .fifos, .threads, .ops, .aml, .ports, .lanes, .route, .out])
    (h₀ : s₀.Spares asp s) (p : Nat) : s₀.Spares asp (replayTimeout p s) := by
  unfold replayTimeout; dsimp only; split <;> simp [ha, h₀]
@[simp ↓] theorem State.countCw_spares (ha : asp.outside [.regs, .ports, .lanes]) (h₀ : s₀.Spares asp s) (p : Nat) (bad : Bool)
    (e0 e1 : Nat) : s₀.Spares asp (s.countCw p bad e0 e1) := by
  unfold State.countCw; simp (maxDischargeDepth := 40) [ha, h₀]
@[simp ↓] theorem State.takeCw_spares (ha : asp.outside [.regs, .ports, .lanes]) (h₀ : s₀.Spares asp s) (p : Nat) (c : Codeword) :
    s₀.Spares asp (s.takeCw p c) := by
  unfold State.takeCw; simp [ha, h₀]
@[simp ↓] theorem State.pendNak_spares (ha : asp.outside [.regs, .ports]) (h₀ : s₀.Spares asp s) (p : Nat) :
    s₀.Spares asp (s.pendNak p) := by
  unfold State.pendNak; simp (maxDischargeDepth := 40) [ha, h₀]
@[simp ↓] theorem State.noFault_spares (ha : asp.outside [.regs, .ports]) (h₀ : s₀.Spares asp s) (p : Nat) :
    s₀.Spares asp (s.noFault p) := by
  unfold State.noFault; simp (maxDischargeDepth := 40) [ha, h₀]
@[simp ↓] theorem State.naked_spares (ha : asp.outside [.regs, .tgf, .fifos, .threads, .ops, .aml, .ports, .lanes, .route, .out])
    (h₀ : s₀.Spares asp s) (p lack : Nat) : s₀.Spares asp (s.naked p lack) := by
  unfold State.naked; dsimp only; (repeat' split) <;> simp [ha, h₀]
@[simp ↓] theorem State.enterFaulted_spares (ha : asp.outside [.regs, .tgf, .fifos, .threads, .ops, .aml, .ports, .lanes, .route, .out])
    (h₀ : s₀.Spares asp s) (p : Nat) : s₀.Spares asp (s.enterFaulted p) := by
  unfold State.enterFaulted; simp [ha, h₀]
@[simp ↓] theorem State.takeOs_spares (ha : asp.outside [.regs, .tgf, .fifos, .threads, .ops, .aml, .ports, .lanes, .route, .out])
    (h₀ : s₀.Spares asp s) (p : Nat) (body : List Byte) : s₀.Spares asp (s.takeOs p body) := by
  unfold State.takeOs; simp (maxDischargeDepth := 40) [ha, h₀]
@[simp ↓] theorem State.takePacket_spares (ha : asp.outside [.regs, .dev, .ports, .route]) (h₀ : s₀.Spares asp s) (p : Nat)
    (a : Assembly) : s₀.Spares asp (s.takePacket p a) := by
  unfold State.takePacket; simp (maxDischargeDepth := 40) [ha, h₀]
@[simp ↓] theorem State.takeCell_spares (ha : asp.outside [.regs, .dev, .ports, .route]) (h₀ : s₀.Spares asp s) (p : Nat) (f : Slot) :
    s₀.Spares asp (s.takeCell p f) := by
  unfold State.takeCell; dsimp only; (repeat' split) <;> simp (maxDischargeDepth := 40) [ha, h₀]
@[simp ↓] theorem State.takeSlotBody_spares
    (ha : asp.outside [.regs, .tgf, .fifos, .threads, .ops, .aml, .dev, .ports, .lanes, .route, .out]) (h₀ : s₀.Spares asp s) (p : Nat)
    (f : Slot) : s₀.Spares asp (s.takeSlotBody p f) := by
  unfold State.takeSlotBody; simp (maxDischargeDepth := 40) [ha, h₀]
@[simp ↓] theorem State.slotFailed_spares (ha : asp.outside [.regs, .ports]) (h₀ : s₀.Spares asp s) (p : Nat) :
    s₀.Spares asp (s.slotFailed p) := by
  unfold State.slotFailed; simp (maxDischargeDepth := 40) [ha, h₀]
@[simp ↓] theorem State.takeSlotIn_spares
    (ha : asp.outside [.regs, .tgf, .fifos, .threads, .ops, .aml, .dev, .ports, .lanes, .route, .out]) (h₀ : s₀.Spares asp s) (p : Nat)
    (f : Slot) : s₀.Spares asp (s.takeSlotIn p f) := by
  unfold State.takeSlotIn; simp (maxDischargeDepth := 40) [ha, h₀]
@[simp ↓] theorem State.slotFrom_spares (ha : asp.outside [.regs, .ports, .lanes]) (h₀ : s₀.Spares asp s) (p : Nat)
    (cws : List Codeword) : s₀.Spares asp (s.slotFrom p cws).2 := by
  unfold State.slotFrom; dsimp only; split <;> simp (maxDischargeDepth := 40) [ha, h₀]
@[simp ↓] theorem slotReceived_spares (ha : asp.outside [.regs, .tgf, .fifos, .threads, .ops, .aml, .dev, .ports, .lanes, .route, .out])
    (h₀ : s₀.Spares asp s) (p : Nat) (cws : List Codeword) : s₀.Spares asp (slotReceived p cws s) := by
  unfold slotReceived; dsimp only; (repeat' split) <;> try simp [h₀]
  all_goals
    have h₁ := State.Spares.of_eq (s₀ := s₀) (asp := asp) ‹_ = (_, _)› (by simp [ha, h₀])
    simp [ha, h₁]
@[simp ↓] theorem slotLock_spares (ha : asp.outside [.ports]) (h₀ : s₀.Spares asp s) (p : Nat) : s₀.Spares asp (slotLock p s) := by
  unfold slotLock; simp [ha, h₀]
@[simp ↓] theorem lockLost_spares (ha : asp.outside [.regs, .tgf, .fifos, .threads, .ops, .aml, .ports, .lanes, .route, .out])
    (h₀ : s₀.Spares asp s) (p : Nat) : s₀.Spares asp (lockLost p s) := by
  unfold lockLost; simp [ha, h₀]
@[simp ↓] theorem faultReceived_spares (ha : asp.outside [.regs, .tgf, .fifos, .threads, .ops, .aml, .ports, .lanes, .route, .out])
    (h₀ : s₀.Spares asp s) (p _reason : Nat) : s₀.Spares asp (faultReceived p _reason s) := by
  unfold faultReceived; simp [ha, h₀]
@[simp ↓] theorem sleepReceived_spares (ha : asp.outside [.regs, .tgf, .fifos, .threads, .ops, .aml, .ports, .lanes, .route, .out])
    (h₀ : s₀.Spares asp s) (p : Nat) : s₀.Spares asp (sleepReceived p s) := by
  unfold sleepReceived; simp [ha, h₀]

/-! #### Sys2Proof/Machine/Power.lean -/

theorem State.tgf_dev_spares (ha : asp.outside [.tgf, .dev]) (h₀ : s₀.Spares asp s) (t : Tungsten) (d : Dev) :
    s₀.Spares asp { s with tgf := t, dev := d } :=
  State.tgf_spares ha.1 (State.dev_spares ha.2.1 h₀ d) t
@[simp ↓] theorem State.writeFatal_spares (ha : asp.outside [.tgf, .dev]) (h₀ : s₀.Spares asp s) (complete : Bool) :
    s₀.Spares asp (s.writeFatal complete) := by
  unfold State.writeFatal
  exact State.ite_spares h₀ (State.tgf_dev_spares ha (State.mwrite_pewterKey_spares h₀ _ _) _ _)
theorem State.mem_ite {c : Prop} [Decidable c] {s t : State} : (if c then s else t).mem = if c then s.mem else t.mem := by
  split <;> rfl
theorem State.restoreRetired_mem (s : State) : s.restoreRetired.mem = s.mem := by
  -- As for `State.restoreRetired_spares`: an equation between functions, for the kernel's sake.
  obtain ⟨f, hf⟩ : ∃ f, f = State.restoreRetired := ⟨_, rfl⟩
  have hfs := congrFun hf s
  delta State.restoreRetired at hf
  have hs := congrFun hf s
  beta_reduce at hs
  rw [← hfs, hs]
  generalize s.bestSet = b
  rcases b with _ | ⟨seq, bs⟩ <;> rfl
/-- A device reset keeps of memory the life store alone, as it stands once the open fatal record is closed. -/
theorem State.deviceReset_mem (s : State) (kind : Nat) : ∃ u : State, s.Spares none u ∧
    (s.deviceReset kind).mem = u.mem.filter fun e => decide (pewterKey 0 ≤ e.1) && decide (e.1 < pewterKey (2 ^ 24)) := by
  have h₀ : s.Spares none (if s.tgf.fatalDue then s.freeBit else (true, s)).2 := by split <;> simp 
  have hu := State.writeFatal_spares (asp := none) (by simp) h₀ (if s.tgf.fatalDue then s.freeBit else (true, s)).1
  refine ⟨_, hu, ?_⟩
  unfold State.deviceReset
  rw [State.restoreRetired_mem, State.mem_ite, State.emit_mem, ite_self, State.mem_ite, State.emit_mem, ite_self, State.mem_ite,
    State.emit_mem, ite_self]
@[simp ↓] theorem State.deviceReset_spares (h₀ : s₀.Spares none s) (kind : Nat) : s₀.Spares none (s.deviceReset kind) := by
  obtain ⟨u, hu, hm⟩ := State.deviceReset_mem s kind
  intro hw
  rw [hm]
  exact Memory.wf_filter _ _ (hu (h₀ hw))
theorem SMap.wfFrom_append {α : Type} [DecidableEq α] {d : α} {a b : Nat} {m m' : SMap α} (w : SMap.wfFrom d a m = true)
    (hm : ∀ e ∈ m, e.1 < b) (hab : a ≤ b) (w' : SMap.wfFrom d b m' = true) : SMap.wfFrom d a (m ++ m') = true := by
  induction m generalizing a with
  | nil => exact SMap.wfFrom_mono hab w'
  | cons e m ih =>
    obtain ⟨k, v⟩ := e
    simp only [SMap.wfFrom, Bool.and_eq_true] at w
    have hk : k < b := hm (k, v) (by simp)
    simp only [List.cons_append, SMap.wfFrom, Bool.and_eq_true]
    exact ⟨w.1, ih w.2 (fun e he => hm e (by simp [he])) hk⟩
theorem SMap.wfFrom_of_le {α : Type} [DecidableEq α] {d : α} {a b : Nat} {m : SMap α} (w : SMap.wfFrom d a m = true)
    (hm : ∀ e ∈ m, b ≤ e.1) : SMap.wfFrom d b m = true := by
  cases m with
  | nil => rfl
  | cons e m =>
    obtain ⟨k, v⟩ := e
    simp only [SMap.wfFrom, Bool.and_eq_true, decide_eq_true_eq] at w ⊢
    exact ⟨⟨hm (k, v) (by simp), w.1.2⟩, w.2⟩
/-- HBM from before a warm reset, below the life store that the reset kept, is in canonical form. -/
theorem State.warmKept_spares (h₀ : s₀.Spares none s) {u v : State} (hu : s.Spares none u)
    (hv : v.mem = u.mem.filter fun e => decide (pewterKey 0 ≤ e.1) && decide (e.1 < pewterKey (2 ^ 24)))
    (r : SMap Word) (p : NSet) (h : HostIf) : s₀.Spares none { v with
      regs := r, mem := s.mem.filter (fun (e : Host.Cell) => decide (e.1 < csmKey 0 0)) ++ v.mem, poison := p, host := h } := by
  intro hw
  change Memory.wf (_ ++ v.mem) = true
  rw [hv]
  refine SMap.wfFrom_append (b := pewterKey 0) (SMap.wfFrom_filter _ _ _ (h₀ hw)) (fun e he => ?_) (Nat.zero_le _)
    (SMap.wfFrom_of_le (SMap.wfFrom_filter _ _ 0 (hu (h₀ hw))) fun e he => ?_)
  · have hlt : e.1 < csmKey 0 0 := of_decide_eq_true (List.mem_filter.mp he).2
    simp only [csmKey, pewterKey] at hlt ⊢
    omega
  · exact of_decide_eq_true (Bool.and_eq_true_iff.mp (List.mem_filter.mp he).2).1
@[simp ↓] theorem State.warmReset_spares (h₀ : s₀.Spares none s) : s₀.Spares none s.warmReset := by
  unfold State.warmReset
  obtain ⟨u, hu, hm⟩ := State.deviceReset_mem (s.resetFuncs fun _ => true) 2
  exact State.loadLife_spares (by simp)
    (State.warmKept_spares (State.resetFuncs_spares (by simp) h₀ _) hu hm _ _ _)
@[simp ↓] theorem resetN_spares (h₀ : s₀.Spares none s) (src : ResetSrc) : s₀.Spares none (resetN src s) := by
  unfold resetN; dsimp only; (repeat' split) <;> simp [h₀]
@[simp ↓] theorem powerOn_spares (h₀ : s₀.Spares none s) : s₀.Spares none (powerOn s) := by
  unfold powerOn; simp [h₀]
@[simp ↓] theorem powerDown_spares (h₀ : s₀.Spares none s) : s₀.Spares none (powerDown s) := by
  unfold powerDown; simp (maxDischargeDepth := 40) [h₀]
@[simp ↓] theorem warm_spares (h₀ : s₀.Spares none s) (path : Path) (v : Word) : s₀.Spares none (warm path v s) := by
  unfold warm; simp [h₀]
@[simp ↓] theorem State.bootLife_spares (ha : asp.outside [.regs, .engines, .dev, .ports, .lanes]) (h₀ : s₀.Spares asp s) :
    s₀.Spares asp s.bootLife := by
  unfold State.bootLife; simp (maxDischargeDepth := 40) [ha, h₀]
@[simp ↓] theorem State.bootHandlers_spares (ha : asp.outside [.ram]) (h₀ : s₀.Spares asp s) (hs : List (Nat × Nat × Nat × Nat)) :
    s₀.Spares asp (s.bootHandlers hs) := by
  unfold State.bootHandlers; simp (maxDischargeDepth := 40) [ha, h₀]
@[simp ↓] theorem State.startAtControl_spares (ha : asp.outside [.threads]) (h₀ : s₀.Spares asp s) (c : Nat) (entry : Word) :
    s₀.Spares asp (s.startAtControl c entry) := by
  unfold State.startAtControl; split <;> simp [ha, h₀]
@[simp ↓] theorem State.startControl_spares (ha : asp.outside [.threads]) (h₀ : s₀.Spares asp s) (entry : Word) :
    s₀.Spares asp (s.startControl entry) := by
  unfold State.startControl; simp [ha, h₀]
@[simp ↓] theorem State.startServer_spares (ha : asp.outside [.regs, .threads]) (h₀ : s₀.Spares asp s) (c : Nat) :
    s₀.Spares asp (s.startServer c) := by
  unfold State.startServer; simp (maxDischargeDepth := 40) [ha, h₀]
@[simp ↓] theorem State.arm_spares (ha : asp.outside [.tgf, .out]) (h₀ : s₀.Spares asp s) : s₀.Spares asp s.arm := by
  unfold State.arm; simp [ha, h₀]
@[simp ↓] theorem boot_spares (ha : asp.outside [.regs, .ram, .tgf, .fifos, .threads, .engines, .dev, .ports, .lanes, .out])
    (h₀ : s₀.Spares asp s) (r : BootEnv) : s₀.Spares asp (boot r s) := by
  unfold boot
  split
  · exact h₀
  next slot _ =>
  extract_lets img s1 s2 s3 s4 d s5
  have h₁ : s₀.Spares asp s1 := by unfold s1; simp [ha, h₀]
  have h₂ : s₀.Spares asp s2 := State.startControl_spares (by simp [ha]) (State.mwrite_spares (by simp [ha]) h₁ _ _) _
  have h₃ : s₀.Spares asp s3 :=
    State.foldl_spares (fun s c => by simp [ha]) (State.bootHandlers_spares (by simp [ha]) h₂ _) _
  have h₄ : s₀.Spares asp s4 := State.wr_spares (by simp [ha]) h₃ _ _ _
  have h₅ : s₀.Spares asp s5 := State.arm_spares (by simp [ha]) (State.dev_spares (by simp [ha]) h₄ _)
  exact State.ite_spares h₅ (State.foldl_spares (fun s n => by simp [ha]) h₅ _)
@[simp ↓] theorem bootFail_spares (ha : asp.outside [.regs, .engines, .dev, .ports, .lanes]) (h₀ : s₀.Spares asp s) (r : BootEnv) :
    s₀.Spares asp (bootFail r s) := by
  unfold bootFail; split <;> simp (maxDischargeDepth := 40) [ha, h₀]
@[simp ↓] theorem svnCommit_spares (ha : asp.outside [.dev]) (h₀ : s₀.Spares asp s) (path : Path) (v : Word) :
    s₀.Spares asp (svnCommit path v s) := by
  unfold svnCommit; simp [ha, h₀]
@[simp ↓] theorem pwrEnterBody_spares (ha : asp.outside [.regs, .fifos, .rings, .dev]) (h₀ : s₀.Spares asp s) (pf : Nat) (b : List Byte)
    (m2 : Nat) : s₀.Spares asp (pwrEnterBody pf b m2 s).2 := by
  unfold pwrEnterBody; dsimp only; (repeat' split) <;> simp (maxDischargeDepth := 40) [ha, h₀]
@[simp ↓] theorem State.parkTime_spares (ha : asp.outside [.regs, .inv, .tgf, .fifos, .out]) (h₀ : s₀.Spares asp s) (st : Nat) :
    s₀.Spares asp (s.parkTime st) := by
  unfold State.parkTime; (repeat' split) <;> simp [ha, h₀]
@[simp ↓] theorem State.park_spares
    (ha : asp.outside [.regs, .inv, .tgf, .fifos, .threads, .ops, .aml, .host, .dev, .ports, .lanes, .route, .out])
    (h₀ : s₀.Spares asp s) (st : Nat) : s₀.Spares asp (s.park st) := by
  unfold State.park; simp (maxDischargeDepth := 40) [ha, h₀]
@[simp ↓] theorem State.spoilN_spares (h₀ : s₀.Spares asp s) (k n : Nat) : s₀.Spares asp (s.spoilN k n) := by
  unfold State.spoilN; simp [h₀]
@[simp ↓] theorem State.retEffect_spares (ha : asp.outside [.engines, .clusters, .eptCache, .limCache]) (h₀ : s₀.Spares asp s)
    (b : RetBank) : s₀.Spares asp (s.retEffect b) := by
  unfold State.retEffect; split <;> simp [ha, h₀]
@[simp ↓] theorem State.retCheck_spares (ha : asp.outside [.regs, .tgf, .fifos, .engines, .clusters, .eptCache, .limCache, .out])
    (h₀ : s₀.Spares asp s) (fails : List RetBank) : s₀.Spares asp (s.retCheck fails) := by
  unfold State.retCheck; split <;> simp (maxDischargeDepth := 40) [ha, h₀]
@[simp ↓] theorem State.wakeUp_spares
    (ha : asp.outside [.regs, .inv, .tgf, .fifos, .engines, .clusters, .rings, .dev, .eptCache, .ports, .lanes, .limCache, .out])
    (h₀ : s₀.Spares asp s) (src : Nat) (fails : List RetBank) : s₀.Spares asp (s.wakeUp src fails) := by
  unfold State.wakeUp; simp (maxDischargeDepth := 40) [ha, h₀]
@[simp ↓] theorem wake_spares
    (ha : asp.outside [.regs, .inv, .tgf, .fifos, .engines, .clusters, .rings, .dev, .eptCache, .ports, .lanes, .limCache, .out])
    (h₀ : s₀.Spares asp s) (src : Nat) (fails : List RetBank) : s₀.Spares asp (wake src fails s) := by
  unfold wake; simp (maxDischargeDepth := 40) [ha, h₀]
@[simp ↓] theorem pwrWake_spares
    (ha : asp.outside [.regs, .inv, .tgf, .fifos, .engines, .clusters, .rings, .dev, .eptCache, .ports, .lanes, .limCache, .out])
    (h₀ : s₀.Spares asp s) (path : Path) (fails : List RetBank) : s₀.Spares asp (pwrWake path fails s) := by
  unfold pwrWake; simp [ha, h₀]
@[simp ↓] theorem State.settleEntry_spares
    (ha : asp.outside [.regs, .inv, .tgf, .fifos, .threads, .engines, .clusters, .ops, .rings, .aml, .host, .dev, .eptCache, .ports,
      .lanes, .limCache, .route, .out])
    (h₀ : s₀.Spares asp s) : s₀.Spares asp s.settleEntry := by
  unfold State.settleEntry; dsimp only; (repeat' split) <;> simp [ha, h₀]
@[simp ↓] theorem State.hostStirs_spares
    (ha : asp.outside [.regs, .inv, .tgf, .fifos, .engines, .clusters, .rings, .dev, .eptCache, .ports, .lanes, .limCache, .out])
    (h₀ : s₀.Spares asp s) : s₀.Spares asp s.hostStirs := by
  unfold State.hostStirs; simp [ha, h₀]
@[simp ↓] theorem pwrQueryBody_spares (h₀ : s₀.Spares asp s) (pf : Nat) (m1 : List Byte) (m2 : Nat) :
    s₀.Spares asp (pwrQueryBody pf m1 m2 s).2 := by
  unfold pwrQueryBody; simp [h₀]
@[simp ↓] theorem warmRestartBody_spares (h₀ : s₀.Spares none s) (pf : Nat) (b : List Byte) (m2 : Nat) :
    s₀.Spares none (warmRestartBody pf b m2 s).2 := by
  unfold warmRestartBody; simp (maxDischargeDepth := 40) [h₀]
@[simp ↓] theorem State.enablePort_spares (ha : asp.outside [.regs, .ports, .lanes, .out]) (h₀ : s₀.Spares asp s) (p : Nat) :
    s₀.Spares asp (s.enablePort p) := by
  unfold State.enablePort; simp (maxDischargeDepth := 40) [ha, h₀]
@[simp ↓] theorem fabricJoinBody_spares (ha : asp.outside [.regs, .inv, .dev, .ports, .lanes, .route, .out]) (h₀ : s₀.Spares asp s)
    (pf : Nat) (b : List Byte) (serial : Nat) : s₀.Spares asp (fabricJoinBody pf b serial s).2 := by
  unfold fabricJoinBody; simp (maxDischargeDepth := 40) [ha, h₀]
@[simp ↓] theorem State.endJoin_spares
    (ha : asp.outside [.regs, .tgf, .fifos, .threads, .clusters, .ops, .rings, .net, .aml, .host, .dev, .out]) (h₀ : s₀.Spares asp s)
    (d : WorkDone) : s₀.Spares asp (s.endJoin d) := by
  unfold State.endJoin; split <;> simp [ha, h₀]
@[simp ↓] theorem fabricReady_spares
    (ha : asp.outside [.regs, .tgf, .fifos, .threads, .clusters, .ops, .rings, .net, .aml, .host, .dev, .route, .out])
    (h₀ : s₀.Spares asp s) : s₀.Spares asp (fabricReady s) := by
  unfold fabricReady; (repeat' split) <;> simp [ha, h₀]
@[simp ↓] theorem fabricJoinTimeout_spares
    (ha : asp.outside [.regs, .tgf, .fifos, .threads, .clusters, .ops, .rings, .net, .aml, .host, .dev, .out]) (h₀ : s₀.Spares asp s) :
    s₀.Spares asp (fabricJoinTimeout s) := by
  unfold fabricJoinTimeout; split <;> simp [ha, h₀]

/-! #### Sys2Proof/Machine/Faults.lean -/

@[simp ↓] theorem State.storageError_spares (ha : asp.outside [.regs, .threads, .engines, .dev]) (h₀ : s₀.Spares asp s)
    (src code i0 i1 : Nat) : s₀.Spares asp (s.storageError src code i0 i1) := by
  unfold State.storageError; split <;> simp (maxDischargeDepth := 40) [ha, h₀]
@[simp ↓] theorem errorReport_spares (ha : asp.outside [.regs, .tgf, .fifos, .threads, .engines, .dev, .out]) (h₀ : s₀.Spares asp s)
    (src code : Nat) (i0 i1 : Word) : s₀.Spares asp (errorReport src code i0 i1 s) := by
  unfold errorReport; simp (maxDischargeDepth := 40) [ha, h₀]
@[simp ↓] theorem tgfHistAck_spares (ha : asp.outside [.tgf]) (h₀ : s₀.Spares asp s) (path : Path) (v : Word) :
    s₀.Spares asp (tgfHistAck path v s) := by
  unfold tgfHistAck; simp [ha, h₀]
@[simp ↓] theorem tgfUnfreeze_spares (ha : asp.outside [.tgf]) (h₀ : s₀.Spares asp s) (path : Path) :
    s₀.Spares asp (tgfUnfreeze path s) := by
  unfold tgfUnfreeze; simp [ha, h₀]
@[simp ↓] theorem tgfInject_spares (ha : asp.outside [.regs, .tgf, .fifos, .out]) (h₀ : s₀.Spares asp s) (path : Path) (v : Word) :
    s₀.Spares asp (tgfInject path v s) := by
  unfold tgfInject; simp [ha, h₀]
@[simp ↓] theorem tgfInjectLock_spares (ha : asp.outside [.regs]) (h₀ : s₀.Spares asp s) (path : Path) :
    s₀.Spares asp (tgfInjectLock path s) := by
  unfold tgfInjectLock; simp [ha, h₀]
@[simp ↓] theorem State.someChannel_spares (h₀ : s₀.Spares asp s) (stack : Nat) : s₀.Spares asp (s.someChannel stack).2 := by
  unfold State.someChannel; simp [h₀]
@[simp ↓] theorem hbmPageRetired_spares (ha : asp.outside [.regs, .tgf, .fifos, .dev, .out]) (h₀ : s₀.Spares asp s) (page : Nat) :
    s₀.Spares asp (hbmPageRetired page s) := by
  unfold hbmPageRetired; dsimp only; (repeat' split) <;> simp (maxDischargeDepth := 40) [ha, h₀]
@[simp ↓] theorem retest_spares (ha : asp.outside [.regs, .tgf]) (h₀ : s₀.Spares asp s) (path : Path) (v : Word) :
    s₀.Spares asp (retest path v s) := by
  unfold retest; simp (maxDischargeDepth := 40) [ha, h₀]
@[simp ↓] theorem State.retestPass_spares (ha : asp.outside [.engines, .dev, .ports, .lanes]) (h₀ : s₀.Spares asp s) (src page : Nat) :
    s₀.Spares asp (s.retestPass src page) := by
  unfold State.retestPass; split <;> simp (maxDischargeDepth := 40) [ha, h₀]
@[simp ↓] theorem retestDone_spares (ha : asp.outside [.regs, .tgf, .engines, .dev, .ports, .lanes]) (h₀ : s₀.Spares asp s)
    (pass : Bool) : s₀.Spares asp (retestDone pass s) := by
  unfold retestDone; split <;> simp (maxDischargeDepth := 40) [ha, h₀]

/-! #### Sys2Proof/Machine/LifeOps.lean -/

@[simp ↓] theorem State.setLife_spares (ha : asp.outside [.dev]) (h₀ : s₀.Spares asp s) (l : Life) : s₀.Spares asp (s.setLife l) := by
  unfold State.setLife; simp [ha, h₀]
@[simp ↓] theorem lifeCommit_spares (ha : asp.outside [.regs, .dev]) (h₀ : s₀.Spares asp s) : s₀.Spares asp (lifeCommit s) := by
  unfold lifeCommit; simp [ha, h₀]
@[simp ↓] theorem commitNow_spares (ha : asp.outside [.regs, .dev]) (h₀ : s₀.Spares asp s) (path : Path) :
    s₀.Spares asp (commitNow path s) := by
  unfold commitNow; simp [ha, h₀]
@[simp ↓] theorem lifeSnapshot_spares (ha : asp.outside [.dev]) (h₀ : s₀.Spares asp s) : s₀.Spares asp (lifeSnapshot s) := by
  unfold lifeSnapshot; simp (maxDischargeDepth := 40) [ha, h₀]
@[simp ↓] theorem lifeSample_spares (ha : asp.outside [.dev]) (h₀ : s₀.Spares asp s) (hot : Int) (mv : Nat) :
    s₀.Spares asp (lifeSample hot mv s) := by
  unfold lifeSample; simp (maxDischargeDepth := 40) [ha, h₀]
@[simp ↓] theorem marginScan_spares (ha : asp.outside [.dev]) (h₀ : s₀.Spares asp s) (margins : List Nat) :
    s₀.Spares asp (marginScan margins s) := by
  unfold marginScan
  extract_lets l hours s1
  refine State.ite_spares h₀ ?_
  have h₁ : s₀.Spares asp s1 := by
    refine State.foldl_spares (fun s n => ?_) h₀ _
    split <;> simp
  simp [ha, h₁]

/-! #### Sys2Proof/Machine/MonitorOps.lean -/

@[simp ↓] theorem State.setMon_spares (ha : asp.outside [.dev]) (h₀ : s₀.Spares asp s) (m : Monitors) : s₀.Spares asp (s.setMon m) := by
  unfold State.setMon; simp [ha, h₀]
@[simp ↓] theorem pmuFreeze_spares (ha : asp.outside [.regs]) (h₀ : s₀.Spares asp s) (path : Path) (v : Word) :
    s₀.Spares asp (pmuFreeze path v s) := by
  unfold pmuFreeze; simp [ha, h₀]
@[simp ↓] theorem histClear_spares (ha : asp.outside [.regs]) (h₀ : s₀.Spares asp s) (path : Path) (u : Nat) :
    s₀.Spares asp (histClear path u s) := by
  unfold histClear; simp [ha, h₀]
@[simp ↓] theorem histDepthSample_spares (ha : asp.outside [.regs]) (h₀ : s₀.Spares asp s) (u : Nat) :
    s₀.Spares asp (histDepthSample u s) := by
  unfold histDepthSample; (repeat' split) <;> simp [ha, h₀]
@[simp ↓] theorem State.monWrite_spares (ha : asp.outside [.regs, .ram, .out]) (h₀ : s₀.Spares asp s) (host : Bool) (f addr : Nat)
    (bs : List Byte) : s₀.Spares asp (s.monWrite host f addr bs) := by
  unfold State.monWrite; simp (maxDischargeDepth := 40) [ha, h₀]
@[simp ↓] theorem dumpLatch_spares (ha : asp.outside [.regs, .dev]) (h₀ : s₀.Spares asp s) : s₀.Spares asp (dumpLatch s) := by
  unfold dumpLatch; simp (maxDischargeDepth := 40) [ha, h₀]
@[simp ↓] theorem dumpWrite_spares (ha : asp.outside [.regs, .ram, .host, .dev, .out]) (h₀ : s₀.Spares asp s) :
    s₀.Spares asp (dumpWrite s) := by
  unfold dumpWrite; split <;> simp (maxDischargeDepth := 40) [ha, h₀]
@[simp ↓] theorem State.dumpCtrl_spares (ha : asp.outside [.regs, .dev]) (h₀ : s₀.Spares asp s) (v : Word) :
    s₀.Spares asp (s.dumpCtrl v) := by
  unfold State.dumpCtrl; simp (maxDischargeDepth := 40) [ha, h₀]
@[simp ↓] theorem sampleMark_spares (ha : asp.outside [.dev]) (h₀ : s₀.Spares asp s) (g : Nat) : s₀.Spares asp (sampleMark g s) := by
  unfold sampleMark; simp (maxDischargeDepth := 40) [ha, h₀]
@[simp ↓] theorem State.sampleWrite_spares (ha : asp.outside [.regs, .ram, .out]) (h₀ : s₀.Spares asp s) (bs : List Byte) :
    s₀.Spares asp (s.sampleWrite bs) := by
  unfold State.sampleWrite; simp [ha, h₀]
@[simp ↓] theorem State.sampleDrain_spares (ha : asp.outside [.regs, .ram, .host, .dev, .out]) (h₀ : s₀.Spares asp s) (c : Nat) :
    s₀.Spares asp (s.sampleDrain c) := by
  unfold State.sampleDrain; simp (maxDischargeDepth := 40) [ha, h₀]
@[simp ↓] theorem State.sampleQueue_spares (ha : asp.outside [.regs, .dev]) (h₀ : s₀.Spares asp s) (c : Nat) (bs : List Byte) :
    s₀.Spares asp (s.sampleQueue c bs) := by
  unfold State.sampleQueue; simp [ha, h₀]
@[simp ↓] theorem sampleRecord_spares (ha : asp.outside [.regs, .ram, .host, .dev, .out]) (h₀ : s₀.Spares asp s)
    (g lat flags ecause : Nat) : s₀.Spares asp (sampleRecord g lat flags ecause s) := by
  unfold sampleRecord; split <;> simp (maxDischargeDepth := 40) [ha, h₀]
@[simp ↓] theorem State.sampCtrl_spares (ha : asp.outside [.regs, .dev]) (h₀ : s₀.Spares asp s) (v : Word) :
    s₀.Spares asp (s.sampCtrl v) := by
  unfold State.sampCtrl; simp (maxDischargeDepth := 40) [ha, h₀]

/-! #### Sys2Proof/Machine/Supply.lean -/

theorem State.dev_inv_spares (ha : asp.outside [.dev, .inv]) (h₀ : s₀.Spares asp s) (d : Dev) (i : Invar) :
    s₀.Spares asp { s with dev := d, inv := i } :=
  State.dev_spares ha.1 (State.inv_spares ha.2.1 h₀ i) d
@[simp ↓] theorem State.slew_spares (ha : asp.outside [.regs, .inv, .tgf, .fifos, .dev, .out]) (h₀ : s₀.Spares asp s) (h : Int) :
    s₀.Spares asp (s.slew h) := by
  unfold State.slew
  extract_lets at_ h0
  refine State.ite_spares h₀ ?_
  have h₁ (d : Dev) (i : Invar) : s₀.Spares asp { s with dev := d, inv := i } := State.dev_inv_spares (by simp [ha]) h₀ d i
  exact State.ite_spares (State.updSpec_spares (by simp [ha]) (h₁ _ _)) (h₁ _ _)
@[simp ↓] theorem State.countThrottle_spares (ha : asp.outside [.regs, .dev]) (h₀ : s₀.Spares asp s) :
    s₀.Spares asp s.countThrottle := by
  unfold State.countThrottle; simp (maxDischargeDepth := 40) [ha, h₀]
@[simp ↓] theorem thermSample_spares (ha : asp.outside [.regs, .inv, .tgf, .fifos, .dev, .out]) (h₀ : s₀.Spares asp s)
    (temps : List Int) : s₀.Spares asp (thermSample temps s) := by
  unfold thermSample; simp (maxDischargeDepth := 40) [ha, h₀]
@[simp ↓] theorem thermalTrip_spares (ha : asp.outside [.regs, .tgf, .fifos, .out]) (h₀ : s₀.Spares asp s) (n : Nat) :
    s₀.Spares asp (thermalTrip n s) := by
  unfold thermalTrip; simp [ha, h₀]
@[simp ↓] theorem avsSet_spares (ha : asp.outside [.regs, .dev, .out]) (h₀ : s₀.Spares asp s) (mv : Nat) :
    s₀.Spares asp (avsSet mv s) := by
  unfold avsSet; simp (maxDischargeDepth := 40) [ha, h₀]
@[simp ↓] theorem avsbusAck_spares (ha : asp.outside [.dev]) (h₀ : s₀.Spares asp s) : s₀.Spares asp (avsbusAck s) := by
  unfold avsbusAck; simp [ha, h₀]
@[simp ↓] theorem avsTimeout_spares (ha : asp.outside [.regs, .tgf, .fifos, .dev, .out]) (h₀ : s₀.Spares asp s) :
    s₀.Spares asp (avsTimeout s) := by
  unfold avsTimeout; split <;> simp (maxDischargeDepth := 40) [ha, h₀]
@[simp ↓] theorem State.sourceReport_spares (ha : asp.outside [.regs, .tgf, .fifos, .out]) (h₀ : s₀.Spares asp s) (src code : Nat) :
    s₀.Spares asp (s.sourceReport src code) := by
  unfold State.sourceReport; simp [ha, h₀]
@[simp ↓] theorem supplyFault_spares (ha : asp.outside [.regs, .tgf, .fifos, .out]) (h₀ : s₀.Spares asp s) (n : Nat) :
    s₀.Spares asp (supplyFault n s) := by
  unfold supplyFault; simp [ha, h₀]
@[simp ↓] theorem pllUnlock_spares (ha : asp.outside [.regs, .tgf, .fifos, .out]) (h₀ : s₀.Spares asp s) (n : Nat) :
    s₀.Spares asp (pllUnlock n s) := by
  unfold pllUnlock; simp (maxDischargeDepth := 40) [ha, h₀]

/-! #### Sys2Proof/Machine/ControlSpace.lean -/

@[simp ↓] theorem State.readReg_spares (ha : asp.outside [.regs, .halfLatch]) (h₀ : s₀.Spares asp s) (p : Path) (x : RegAt)
    (wide : Bool) : s₀.Spares asp (s.readReg p x wide).2 := by
  unfold State.readReg
  extract_lets v rc clear high l
  have hclear : s₀.Spares asp (clear s) := by unfold clear; simp [ha, h₀]
  refine State.ite_spares_snd hclear (State.ite_spares_snd (State.halfLatch_spares (by simp [ha]) hclear _) ?_)
  exact State.ite_spares_snd (State.halfLatch_spares (by simp [ha]) h₀ _) h₀
@[simp ↓] theorem State.readRecord_spares (ha : asp.outside [.recLatch]) (h₀ : s₀.Spares asp s) (p : Path) (x : RegAt) (wide : Bool) :
    s₀.Spares asp (s.readRecord p x wide).2 := by
  unfold State.readRecord; simp [ha, h₀]
@[simp ↓] theorem State.readAtReg_spares (ha : asp.outside [.regs, .halfLatch, .recLatch]) (h₀ : s₀.Spares asp s) (p : Path) (a : Nat)
    (wide : Bool) : s₀.Spares asp (s.readAtReg p a wide).2 := by
  unfold State.readAtReg; split <;> simp [ha, h₀]
@[simp ↓] theorem State.ctrlRead_spares (ha : asp.outside [.regs, .halfLatch, .recLatch]) (h₀ : s₀.Spares asp s) (p : Path) (a : Nat)
    (wide : Bool) : s₀.Spares asp (s.ctrlRead p a wide).2 := by
  unfold State.ctrlRead; dsimp only; simp (maxDischargeDepth := 40) [ha, h₀]
@[simp ↓] theorem devCtrl_spares (h₀ : s₀.Spares none s) (p : Path) (v : Word) : s₀.Spares none (devCtrl p v s) := by
  unfold devCtrl; simp (maxDischargeDepth := 40) [h₀]
@[simp ↓] theorem invCtrl_spares (ha : asp.outside [.regs, .inv, .tgf, .fifos, .threads, .clusters, .ops, .aml, .route, .out])
    (h₀ : s₀.Spares asp s) (v : Word) : s₀.Spares asp (invCtrl v s) := by
  unfold invCtrl; simp (maxDischargeDepth := 40) [ha, h₀]
@[simp ↓] theorem tgfCtrl_spares (ha : asp.outside [.regs]) (h₀ : s₀.Spares asp s) (v : Word) : s₀.Spares asp (tgfCtrl v s) := by
  unfold tgfCtrl; simp [ha, h₀]
@[simp ↓] theorem routeTable_spares (ha : asp.outside [.regs]) (h₀ : s₀.Spares asp s) (r : RegDesc) (ix : List Nat) (v : Word) :
    s₀.Spares asp (routeTable r ix v s) := by
  unfold routeTable; simp [ha, h₀]
@[simp ↓] theorem sldCfgWrite_spares (ha : asp.outside [.regs]) (h₀ : s₀.Spares asp s) (r : RegDesc) (v : Word) :
    s₀.Spares asp (sldCfgWrite r v s) := by
  unfold sldCfgWrite; simp (maxDischargeDepth := 40) [ha, h₀]
@[simp ↓] theorem ubufWrite_spares (ha : asp.outside [.regs]) (h₀ : s₀.Spares asp s) (r : RegDesc) (ix : List Nat) (v : Word) :
    s₀.Spares asp (ubufWrite r ix v s) := by
  unfold ubufWrite; simp [ha, h₀]
@[simp ↓] theorem routeSelfWrite_spares (ha : asp.outside [.regs]) (h₀ : s₀.Spares asp s) (r : RegDesc) (v : Word) :
    s₀.Spares asp (routeSelfWrite r v s) := by
  unfold routeSelfWrite; simp [ha, h₀]
@[simp ↓] theorem htStageWrite_spares (ha : asp.outside [.regs]) (h₀ : s₀.Spares asp s) (r : RegDesc) (ix : List Nat) (v : Word) :
    s₀.Spares asp (htStageWrite r ix v s) := by
  unfold htStageWrite; simp [ha, h₀]
@[simp ↓] theorem gatePendWrite_spares (ha : asp.outside [.regs, .ports]) (h₀ : s₀.Spares asp s) (r : RegDesc) (ix : List Nat)
    (v : Word) : s₀.Spares asp (gatePendWrite r ix v s) := by
  unfold gatePendWrite; simp [ha, h₀]
@[simp ↓] theorem gateListWrite_spares (ha : asp.outside [.regs, .ports]) (h₀ : s₀.Spares asp s) (ix : List Nat) (v : Word) :
    s₀.Spares asp (gateListWrite ix v s) := by
  unfold gateListWrite; simp [ha, h₀]
@[simp ↓] theorem histSelWrite_spares (ha : asp.outside [.regs]) (h₀ : s₀.Spares asp s) (u : Nat) (v : Word) :
    s₀.Spares asp (histSelWrite u v s) := by
  unfold histSelWrite; simp (maxDischargeDepth := 40) [ha, h₀]
@[simp ↓] theorem histFiltWrite_spares (ha : asp.outside [.regs]) (h₀ : s₀.Spares asp s) (u : Nat) (v : Word) :
    s₀.Spares asp (histFiltWrite u v s) := by
  unfold histFiltWrite; simp (maxDischargeDepth := 40) [ha, h₀]
@[simp ↓] theorem frozenBy_spares (ha : asp.outside [.regs]) (h₀ : s₀.Spares asp s) (f : Fld) (r : RegDesc) (v : Word) :
    s₀.Spares asp (frozenBy f r v s) := by
  unfold frozenBy; simp [ha, h₀]
@[simp ↓] theorem laneCtrl_spares (ha : asp.outside [.regs, .dev, .ports, .lanes]) (h₀ : s₀.Spares asp s) (p : Path) (ix : List Nat)
    (v : Word) : s₀.Spares asp (laneCtrl p ix v s) := by
  unfold laneCtrl; simp (maxDischargeDepth := 40) [ha, h₀]
theorem writeHooks_spares : ∀ e ∈ writeHooks, ∀ p ix v (s : State), s.Spares none (e.2 p ix v s) := by
  simp only [writeHooks, List.forall_mem_append, List.forall_mem_cons, List.map_cons, List.map_nil]
  simp
@[simp ↓] theorem State.writeReg_spares (h₀ : s₀.Spares none s) (p : Path) (x : RegAt) (v : Word) : s₀.Spares none (s.writeReg p x v) := by
  unfold State.writeReg
  extract_lets w
  split
  · next e he => exact h₀.trans (writeHooks_spares e (List.mem_of_find?_eq_some he) _ _ _ _)
  · simp [h₀]
@[simp ↓] theorem State.writeHalf_spares (h₀ : s₀.Spares none s) (p : Path) (a : Nat) (v : Word) :
    s₀.Spares none (s.writeHalf p a v) := by
  unfold State.writeHalf; split <;> simp [h₀]
@[simp ↓] theorem State.ctrlWrite_spares (h₀ : s₀.Spares none s) (p : Path) (a : Nat) (wide : Bool) (v : Word) :
    s₀.Spares none (s.ctrlWrite p a wide v) := by
  unfold State.ctrlWrite; (repeat' split) <;> simp (maxDischargeDepth := 40) [h₀]
@[simp ↓] theorem cringCfg_spares (ha : asp.outside [.regs, .fifos, .rings]) (h₀ : s₀.Spares asp s) (pf : Nat) (v : Word) :
    s₀.Spares asp (cringCfg pf v s) := by
  unfold cringCfg; simp (maxDischargeDepth := 40) [ha, h₀]
@[simp ↓] theorem ccqCfg_spares (ha : asp.outside [.regs, .rings, .host, .out]) (h₀ : s₀.Spares asp s) (pf : Nat) (v : Word) :
    s₀.Spares asp (ccqCfg pf v s) := by
  unfold ccqCfg; simp (maxDischargeDepth := 40) [ha, h₀]
@[simp ↓] theorem cringBase_spares (ha : asp.outside [.regs]) (h₀ : s₀.Spares asp s) (en : Fld) (r : RegDesc) (pf off : Nat)
    (v : Word) : s₀.Spares asp (cringBase en r pf off v s) := by
  unfold cringBase; simp [ha, h₀]
@[simp ↓] theorem State.barHalf_spares
    (ha : asp.outside [.regs, .ram, .tgf, .fifos, .threads, .clusters, .ops, .rings, .net, .mtch, .aml, .host, .out])
    (h₀ : s₀.Spares asp s) (f off : Nat) (v : Word) : s₀.Spares asp (s.barHalf f off v) := by
  unfold State.barHalf; (repeat' split) <;> simp [ha, h₀]
@[simp ↓] theorem State.barWrite_spares
    (ha : asp.outside [.regs, .ram, .tgf, .fifos, .threads, .clusters, .ops, .rings, .net, .mtch, .aml, .host, .out])
    (h₀ : s₀.Spares asp s) (f off : Nat) (wide : Bool) (v : Word) : s₀.Spares asp (s.barWrite f off wide v) := by
  unfold State.barWrite; simp (maxDischargeDepth := 40) [ha, h₀]
@[simp ↓] theorem busRead_spares
    (ha : asp.outside [.regs, .inv, .tgf, .fifos, .engines, .clusters, .rings, .dev, .eptCache, .ports, .lanes, .limCache, .halfLatch,
      .recLatch, .out])
    (h₀ : s₀.Spares asp s) (p : Path) (a : Nat) (wide : Bool) : s₀.Spares asp (busRead p a wide s) := by
  unfold busRead; split <;> simp (maxDischargeDepth := 40) [ha, h₀]
@[simp ↓] theorem busWrite_spares (h₀ : s₀.Spares none s) (p : Path) (a : Nat) (wide : Bool) (v : Word) :
    s₀.Spares none (busWrite p a wide v s) := by
  unfold busWrite; split <;> simp (maxDischargeDepth := 40) [h₀]
@[simp ↓] theorem wfCfg_spares (ha : asp.outside [.regs, .fifos, .rings]) (h₀ : s₀.Spares asp s) (p : Path) (c f : Nat) (v : Word) :
    s₀.Spares asp (wfCfg p c f v s) := by
  unfold wfCfg; simp (maxDischargeDepth := 40) [ha, h₀]
@[simp ↓] theorem State.sbNext_spares (ha : asp.outside [.sbAddr]) (h₀ : s₀.Spares asp s) : s₀.Spares asp s.sbNext := by
  unfold State.sbNext; simp [ha, h₀]
@[simp ↓] theorem sbSetAddr_spares (ha : asp.outside [.sbAddr]) (h₀ : s₀.Spares asp s) (a : Nat) (pec : Bool) :
    s₀.Spares asp (sbSetAddr a pec s) := by
  unfold sbSetAddr; simp [ha, h₀]
@[simp ↓] theorem sbRead_spares (ha : asp.outside [.regs, .halfLatch, .recLatch, .sbAddr, .out]) (h₀ : s₀.Spares asp s) :
    s₀.Spares asp (sbRead s) := by
  unfold sbRead; simp (maxDischargeDepth := 40) [ha, h₀]
@[simp ↓] theorem sbWrite_spares (h₀ : s₀.Spares none s) (v : Word32) (pec : Bool) : s₀.Spares none (sbWrite v pec s) := by
  unfold sbWrite; simp (maxDischargeDepth := 40) [h₀]
@[simp ↓] theorem sbReadAddr_spares (ha : asp.outside [.out]) (h₀ : s₀.Spares asp s) : s₀.Spares asp (sbReadAddr s) := by
  unfold sbReadAddr; simp [ha, h₀]

/-! #### Sys2Proof/Machine/EngineMem.lean -/

@[simp ↓] theorem State.farPlace_spares (ha : asp.outside [.regs, .threads, .engines, .clusters]) (h₀ : s₀.Spares asp s) (t va : Nat)
    (u : Use) (again : Bool) : s₀.Spares asp (s.farPlace t va u again).2 := by
  unfold State.farPlace; dsimp only; (repeat' split) <;> simp (maxDischargeDepth := 40) [ha, h₀]
@[simp ↓] theorem State.access_spares (ha : asp.outside [.regs, .tgf, .fifos, .threads, .engines, .clusters, .out])
    (h₀ : s₀.Spares asp s) (t : Nat) (a : Word) (n : Nat) (u : Use) (srcs : List Nat) (again : Bool) (k : EngPlace → State → State)
    (hk : ∀ a (s : State), s.Spares asp (k a s)) : s₀.Spares asp (s.access t a n u srcs again k) := by
  unfold State.access; dsimp only; (repeat' split) <;> simp [ha, h₀, fun a {s} (h : s₀.Spares asp s) => h.trans (hk a s)]
@[simp ↓] theorem State.nearRead_spares (ha : asp.outside [.regs, .tgf, .fifos, .threads, .engines, .clusters, .out])
    (h₀ : s₀.Spares asp s) (t key n code : Nat) (eval : Word) (k : Nat → State → State) (hk : ∀ a (s : State), s.Spares asp (k a s)) :
    s₀.Spares asp (s.nearRead t key n code eval k) := by
  unfold State.nearRead; simp [ha, h₀, fun a {s} (h : s₀.Spares asp s) => h.trans (hk a s)]
@[simp ↓] theorem State.farLoad_spares (ha : asp.outside [.regs, .tgf, .fifos, .threads, .engines, .clusters, .host, .out])
    (h₀ : s₀.Spares asp s) (t ask p : Nat) (hbm : Bool) (n : Nat) (signed : Bool) (rd : Nat) (a : Word) :
    s₀.Spares asp (s.farLoad t ask p hbm n signed rd a) := by
  unfold State.farLoad; dsimp only; (repeat' split) <;> simp (maxDischargeDepth := 40) [ha, h₀]
@[simp ↓] theorem load_spares
    (ha : asp.outside [.regs, .tgf, .fifos, .threads, .engines, .clusters, .host, .dev, .halfLatch, .recLatch, .out])
    (h₀ : s₀.Spares asp s) (t op rd rs1 imm : Nat) : s₀.Spares asp (load t op rd rs1 imm s) := by
  unfold load
  generalize loadForm (op % 64) = form
  obtain ⟨n, signed⟩ := form
  extract_lets again
  refine State.issue_spares (by simp [ha]) h₀ _ _ _ _ _ _ _ fun s => ?_
  extract_lets a fill
  refine State.access_spares (by simp [ha]) (.refl s) _ _ _ _ _ _ _ fun p s => ?_
  have hfill (v : Nat) (s : State) : s.Spares asp (fill v s) := by unfold fill; simp [ha]
  clear_value fill
  split
  · exact State.nearRead_spares (by simp [ha]) (.refl s) _ _ _ _ _ _ hfill
  · exact State.nearRead_spares (by simp [ha]) (.refl s) _ _ _ _ _ _ fun _ s => hfill _ s
  · exact State.Spares.trans (State.ctrlRead_spares (by simp [ha]) (.refl s) _ _ _) (hfill _ _)
  · simp [ha]
  · exact .refl s
@[simp ↓] theorem store_spares (h₀ : s₀.Spares none s) (t op rd rs1 imm : Nat) : s₀.Spares none (store t op rd rs1 imm s) := by
  unfold store
  extract_lets n again
  refine State.issue_spares (by simp) h₀ _ _ _ _ _ _ _ fun s => ?_
  extract_lets a bs
  refine State.access_spares (by simp) (.refl s) _ _ _ _ _ _ _ fun p s => ?_
  split
  · simp (maxDischargeDepth := 40)
  · simp (maxDischargeDepth := 40)
  · simp (maxDischargeDepth := 40)
  · simp (maxDischargeDepth := 40)
  · exact .refl s
@[simp ↓] theorem atomic_spares (ha : asp.outside [.regs, .ram, .tgf, .fifos, .threads, .engines, .clusters, .dev, .out])
    (h₀ : s₀.Spares asp s) (t rd rs1 rs2 fn : Nat) : s₀.Spares asp (atomic t rd rs1 rs2 fn s) := by
  unfold atomic
  extract_lets f w n again srcs
  refine State.issue_spares (by simp [ha]) h₀ _ _ _ _ _ _ _ fun s => ?_
  extract_lets a x expected swap
  refine State.access_spares (by simp [ha]) (.refl s) _ _ _ _ _ _ _ fun p s => ?_
  have hswap (key old : Nat) (s : State) : s.Spares asp (swap key old s) := by
    unfold swap; simp (maxDischargeDepth := 40) [ha]
  refine State.ite_spares (by simp [ha]) ?_
  clear_value swap
  have hread (key code : Nat) (v : Word) (k : Nat → State → State) (hk : ∀ a (s : State), s.Spares asp (k a s)) :
      s.Spares asp (s.nearRead t key n code v k) := State.nearRead_spares (by simp [ha]) (.refl s) _ _ _ _ _ _ hk
  split
  · exact hread _ _ _ _ (hswap _)
  · exact hread _ _ _ _ fun _ s => hswap _ _ s
  · exact State.ite_spares (by simp [ha]) (hread _ _ _ _ (hswap _))
  · exact .refl s

/-! #### Sys2Proof/Machine/Window.lean -/

@[simp ↓] theorem State.runGoesOn_spares
    (ha : asp.outside [.regs, .tgf, .fifos, .threads, .clusters, .ops, .orders, .rings, .net, .mtch, .aml, .host, .eptCache, .limCache,
      .route, .out])
    (h₀ : s₀.Spares asp s) (e : OutEntry) : s₀.Spares asp (s.runGoesOn e) := by
  unfold State.runGoesOn; dsimp only; (repeat' split) <;> simp [ha, h₀]
@[simp ↓] theorem State.startWaiting_spares
    (ha : asp.outside [.regs, .tgf, .fifos, .threads, .clusters, .ops, .orders, .rings, .net, .mtch, .aml, .host, .eptCache, .limCache,
      .route, .out])
    (h₀ : s₀.Spares asp s) (r qn : Nat) (e : OutEntry) : s₀.Spares asp (s.startWaiting r qn e) := by
  unfold State.startWaiting
  extract_lets h
  refine State.ite_spares h₀ ?_
  split
  · simp [ha, h₀]
  · simp [ha, h₀]
  · refine State.ite_spares (State.getD_spares (fun t ht => ?_) h₀) h₀
    exact State.launch_spares (by simp [ha]) (State.setHalf_spares (by simp [ha]) h₀ _ _) _ _ _ ht
@[simp ↓] theorem State.startPending_spares
    (ha : asp.outside [.regs, .tgf, .fifos, .threads, .clusters, .ops, .orders, .rings, .net, .mtch, .aml, .host, .eptCache, .limCache,
      .route, .out])
    (h₀ : s₀.Spares asp s) (r : Nat) (n : Nat) : s₀.Spares asp (s.startPending r n) := by
  induction n generalizing s with
  | zero => exact h₀
  | succ n ih => unfold State.startPending; (repeat' split) <;> simp (maxDischargeDepth := 40) [ha, h₀, ih]
@[simp ↓] theorem ack_spares
    (ha : asp.outside [.regs, .tgf, .fifos, .threads, .clusters, .ops, .orders, .rings, .net, .mtch, .aml, .host, .eptCache, .limCache,
      .route, .out])
    (h₀ : s₀.Spares asp s) (r : Nat) : s₀.Spares asp (ack r s) := by
  unfold ack; dsimp only; split <;> simp (maxDischargeDepth := 40) [ha, h₀]

/-! #### Sys2Proof/Machine/Step.lean -/

@[simp ↓] theorem State.withFetchWord_spares (ha : asp.outside [.pending]) (h₀ : s₀.Spares asp s) (nbits w : Nat) :
    s₀.Spares asp (s.withFetchWord nbits w) := by
  unfold State.withFetchWord; split <;> simp [ha, h₀]
/-! #### The commands -/

/-- Outside every part there is only the canonical form of memory. -/
theorem Aspect.eq_none (ha : asp.outside allParts) : asp = none := by
  rcases asp with _ | p
  · rfl
  · cases p <;> simp [allParts, Aspect.off] at ha

/-- What a command does leaves the parts outside its list as they were, and memory in its canonical form. -/
theorem exec_spares (c : Instr) (ha : asp.outside c.mayChange) (s : State) : ∃ t, exec c s = .next t ∧ s.Spares asp t := by
  cases c <;> dsimp only [Instr.mayChange] at ha
  case powerOn | resetN | boot | bootFail | warmRestart | warm | registerWrite | store | write | powerDown =>
    cases Aspect.eq_none ha
    exact ⟨_, rfl, by simp⟩
  all_goals exact ⟨_, rfl, by simp (maxDischargeDepth := 40) [ha]⟩

theorem Aspect.outside_of_not_mem {p : Part} {ps : List Part} (h : p ∉ ps) : Aspect.outside (some p) ps := by
  induction ps with
  | nil => trivial
  | cons q ps ih =>
    obtain ⟨hq, hps⟩ := not_or.mp (mt List.mem_cons.mpr h)
    exact ⟨fun e => hq (Option.some.inj e), ih hps⟩

/-- Settles O3: the frame layer for the part asked for, over every arm of `exec`. -/
theorem commandFrames : Obligations.CommandFrames := by
  intro c s u p hx hp
  obtain ⟨t, ht, h⟩ := exec_spares (asp := some p) c (Aspect.outside_of_not_mem hp) s
  cases hx.symm.trans ht
  exact h

theorem Aspect.outside_none (ps : List Part) : Aspect.outside none ps := by
  induction ps with
  | nil => trivial
  | cons q ps ih => exact ⟨Aspect.off_none q, ih⟩

/-- Settles O5: what a command does keeps the canonical form by the frame layer, and an idle tick leaves memory alone. -/
theorem memoryCanonicalKept : Obligations.MemoryCanonicalKept := by
  intro s t hw hstep
  unfold step at hstep
  split at hstep
  · next c rest _ =>
    obtain ⟨u, hu, h⟩ := exec_spares c (Aspect.outside_none c.mayChange) { s with pending := rest }
    cases hstep.symm.trans hu
    exact h hw
  · cases hstep
    exact tick_spares (Aspect.outside_none _) (.refl s) hw

end Sys2Proof.Machine

end

section
open Sys2Proof Sys2Proof.Machine
namespace Sys2Proof.Machine

/-! ### What an instruction leaves of the other threads (R59, R81) -/

/-- Every thread but t is the same in both states. -/
def State.OnlyThread (s : State) (t : Nat) (u : State) : Prop := ∀ t', t' ≠ t → u.thread t' = s.thread t'

variable {t : Nat} {s₀ s u : State}

@[simp ↓] theorem State.OnlyThread.refl (s : State) (t : Nat) : s.OnlyThread t s := fun _ _ => rfl

theorem State.OnlyThread.trans (h : s₀.OnlyThread t s) (h' : s.OnlyThread t u) : s₀.OnlyThread t u :=
  fun t' ht => (h' t' ht).trans (h t' ht)

/-- An operation that leaves all threads alone, by the frame layer. -/
theorem State.OnlyThread.spares (h₀ : s₀.OnlyThread t s) (h : s.Spares (some .threads) u) : s₀.OnlyThread t u := by
  have he : u.threads = s.threads := h
  exact h₀.trans fun t' _ => by simp only [State.thread, he]

/-- The same of an operation that answers a value too. -/
theorem State.OnlyThread.spares_eq {α : Type} {p : α × State} {a : α} (e : p = (a, u)) (h₀ : s₀.OnlyThread t s)
    (h : s.Spares (some .threads) p.2) : s₀.OnlyThread t u := h₀.spares (.of_eq e h)

@[simp ↓] theorem State.setThread_only (h₀ : s₀.OnlyThread t s) (x : Thread) : s₀.OnlyThread t (s.setThread t x) :=
  h₀.trans fun t' ht => State.thread_setThread_ne s t x t' ht
@[simp ↓] theorem State.setWait_only (h₀ : s₀.OnlyThread t s) (w : Wait) : s₀.OnlyThread t (s.setWait t w) :=
  State.setThread_only h₀ _
@[simp ↓] theorem State.nextPc_only (h₀ : s₀.OnlyThread t s) (n : Nat) : s₀.OnlyThread t (s.nextPc t n) :=
  State.setThread_only h₀ _
@[simp ↓] theorem State.setPc_only (h₀ : s₀.OnlyThread t s) (v : Word) : s₀.OnlyThread t (s.setPc t v) :=
  State.setThread_only h₀ _
@[simp ↓] theorem State.freeThread_only (h₀ : s₀.OnlyThread t s) : s₀.OnlyThread t (s.freeThread t) :=
  State.setThread_only h₀ _
@[simp ↓] theorem State.tryAgain_only (h₀ : s₀.OnlyThread t s) : s₀.OnlyThread t (s.tryAgain t) := State.setWait_only h₀ _
@[simp ↓] theorem State.setReg_only (h₀ : s₀.OnlyThread t s) (i : Nat) (v : Word) : s₀.OnlyThread t (s.setReg t i v) := by
  unfold State.setReg
  split
  · exact h₀
  · exact State.setThread_only h₀ _
@[simp ↓] theorem State.writeNext_only (h₀ : s₀.OnlyThread t s) (i n : Nat) (v : Word) : s₀.OnlyThread t (s.writeNext t i n v) :=
  State.nextPc_only (State.setReg_only h₀ i v) n
@[simp ↓] theorem State.loseThread_only (h₀ : s₀.OnlyThread t s) (cause : Nat) (epc : Word) :
    s₀.OnlyThread t (s.loseThread t cause epc) := by
  unfold State.loseThread
  refine (State.freeThread_only h₀).spares ?_
  simp (maxDischargeDepth := 40) [Aspect.off]
@[simp ↓] theorem State.takeExc_only (h₀ : s₀.OnlyThread t s) (code : Nat) (eval epc : Word) :
    s₀.OnlyThread t (s.takeExc t code eval epc) := by
  unfold State.takeExc
  extract_lets s1 th h saved s2
  have h₁ : s₀.OnlyThread t s1 := h₀.spares (by unfold s1; simp [Aspect.off])
  have h₂ : s₀.OnlyThread t s2 := h₁.spares (by unfold s2; simp [Aspect.off])
  split
  · exact State.loseThread_only h₁ _ _
  split
  · exact State.setThread_only h₂ _
  · exact State.loseThread_only (State.setThread_only h₂ _) _ _
theorem State.fetchAt_only (h₀ : s₀.OnlyThread t s) (a : Word) : s₀.OnlyThread t (s.fetchAt t a).2 := by
  unfold State.fetchAt
  extract_lets th c g va fault
  have hfault {v : State} (hv : s₀.OnlyThread t v) (code : Nat) : s₀.OnlyThread t (fault v code).2 :=
    State.takeExc_only hv _ _ _
  split
  · split
    · exact hfault h₀ _
    · exact State.setThread_only h₀ _
  · split
    · exact hfault h₀ _
    split
    next r s1 hx =>
    have h₁ : s₀.OnlyThread t s1 := .spares_eq hx h₀ (by simp [Aspect.off])
    split
    · exact hfault h₁ _
    · exact hfault h₁ _
    · exact State.setWait_only (h₁.spares (by simp [Aspect.off])) _
    · extract_lets line
      split
      · exact h₁
      · exact State.setWait_only (h₁.spares (by simp [Aspect.off])) _
theorem State.issued_only (h₀ : s₀.OnlyThread t s) (b : State) (word : Nat) : s₀.OnlyThread t (s.issued b t word) := by
  unfold State.issued
  split
  · exact State.setWait_only h₀ _
  · exact State.setWait_only h₀ _
  · refine h₀.spares ?_
    extract_lets g p s1 s2
    have h₁ : s.Spares (some .threads) s1 := by unfold s1; split <;> simp [Aspect.off]
    have h₂ : s.Spares (some .threads) s2 := by unfold s2; clear_value s1; (repeat' split) <;> simp [Aspect.off, h₁]
    simp [Aspect.off, h₂]
theorem State.issue_only (h₀ : s₀.OnlyThread t s) (word len : Nat) (legal : Bool) (level : Nat) (srcs : List Nat)
    (k : State → State) (hk : ∀ s : State, s.OnlyThread t (k s)) : s₀.OnlyThread t (s.issue t word len legal level srcs k) := by
  unfold State.issue
  extract_lets th
  split
  · exact h₀
  split
  · exact h₀
  split
  · exact State.takeExc_only h₀ _ _ _
  split
  next ok1 s1 h1 =>
  have h₁ : s₀.OnlyThread t s1 := by have h := State.fetchAt_only h₀ th.pc; rwa [h1] at h
  split
  · exact h₁
  split
  next ok2 s2 h2 =>
  have h₂ : s₀.OnlyThread t s2 := by
    split at h2
    · have h := State.fetchAt_only h₁ (th.pc + 4); rwa [h2] at h
    · cases h2; exact h₁
  split
  · exact h₂
  split
  · exact State.takeExc_only h₂ _ _ _
  split
  · exact State.takeExc_only h₂ _ _ _
  split
  · exact State.takeExc_only h₂ _ _ _
  · exact State.issued_only ((State.setWait_only h₂ _).trans (hk _)) _ _

@[simp ↓] theorem State.drained_only (h₀ : s₀.OnlyThread t s) (kind : Nat) : s₀.OnlyThread t (s.drained t kind) := by
  unfold State.drained
  split
  · exact State.setWait_only (State.nextPc_only (h₀.spares (by simp [Aspect.off])) _) _
  · exact State.freeThread_only h₀
  · exact State.setWait_only (State.nextPc_only h₀ _) _
theorem State.csrSet_only (h₀ : s₀.OnlyThread t s) (csr : Nat) (v : Word) : s₀.OnlyThread t (s.csrSet t csr v) := by
  unfold State.csrSet
  split <;> simp [h₀]
theorem State.farPlace_only (h₀ : s₀.OnlyThread t s) (va : Nat) (use : Use) (again : Bool) :
    s₀.OnlyThread t (s.farPlace t va use again).2 := by
  unfold State.farPlace
  extract_lets th c g page s0 held s1
  have h₁ : s₀.OnlyThread t s0 := State.setThread_only h₀ _
  have h₂ : s₀.OnlyThread t s1 := h₁.spares (by unfold s1; split <;> simp [Aspect.off])
  clear_value s1
  split
  · exact h₀
  split
  next r s2 hx =>
  have h₃ : s₀.OnlyThread t s2 := .spares_eq hx h₂ (by simp [Aspect.off])
  split
  · exact h₃
  · exact h₃
  · exact State.setWait_only (h₃.spares (by simp [Aspect.off])) _
  · split <;> exact h₃
theorem State.access_only (h₀ : s₀.OnlyThread t s) (a : Word) (n : Nat) (use : Use) (srcs : List Nat) (again : Bool)
    (k : EngPlace → State → State) (hk : ∀ p (s : State), s.OnlyThread t (k p s)) :
    s₀.OnlyThread t (s.access t a n use srcs again k) := by
  unfold State.access
  extract_lets pc
  split
  · exact State.takeExc_only h₀ _ _ _
  split
  next p s1 hp =>
  have h₁ : s₀.OnlyThread t s1 := by
    split at hp
    · obtain ⟨-, rfl⟩ := Prod.mk.inj hp; exact h₀
    · have h := State.farPlace_only h₀ a.toNat use again; rwa [hp] at h
  split
  · exact h₁
  · exact State.takeExc_only h₁ _ _ _
  · split <;> exact State.takeExc_only h₁ _ _ _
  · exact State.takeExc_only h₁ _ _ _
  · exact h₁.trans (hk _ _)
theorem State.nearRead_only (h₀ : s₀.OnlyThread t s) (key n code : Nat) (eval : Word) (k : Nat → State → State)
    (hk : ∀ v (s : State), s.OnlyThread t (k v s)) : s₀.OnlyThread t (s.nearRead t key n code eval k) := by
  unfold State.nearRead
  split
  · exact State.takeExc_only h₀ _ _ _
  · exact h₀.trans (hk _ _)

theorem aluReg_only (s : State) (t rd rs1 rs2 fn : Nat) : s.OnlyThread t (aluReg t rd rs1 rs2 fn s) :=
  State.issue_only (.refl s t) _ _ _ _ _ _ fun s => State.writeNext_only (.refl s t) _ _ _
theorem mulDiv_only (s : State) (t rd rs1 rs2 fn : Nat) : s.OnlyThread t (mulDiv t rd rs1 rs2 fn s) := by
  unfold mulDiv
  extract_lets op w a b r
  refine State.issue_only (.refl s t) _ _ _ _ _ _ fun s => ?_
  split
  · exact State.writeNext_only ((State.OnlyThread.refl s t).spares (by simp)) _ _ _
  · exact State.writeNext_only (.refl s t) _ _ _
theorem aluImm_only (s : State) (t op rd rs1 imm imm2 : Nat) : s.OnlyThread t (aluImm t op rd rs1 imm imm2 s) := by
  unfold aluImm
  extract_lets r len
  clear_value r len
  exact State.issue_only (.refl s t) _ _ _ _ _ _ fun s => State.writeNext_only (.refl s t) _ _ _
theorem branch_only (s : State) (t op ra rb imm : Nat) : s.OnlyThread t (branch t op ra rb imm s) :=
  State.issue_only (.refl s t) _ _ _ _ _ _ fun s => by split <;> simp
theorem jal_only (s : State) (t rd imm : Nat) : s.OnlyThread t (jal t rd imm s) :=
  State.issue_only (.refl s t) _ _ _ _ _ _ fun s => by simp
theorem jalr_only (s : State) (t rd rs1 imm : Nat) : s.OnlyThread t (jalr t rd rs1 imm s) :=
  State.issue_only (.refl s t) _ _ _ _ _ _ fun s => by dsimp only; (repeat' split) <;> simp
theorem fenceOp_only (s : State) (kind t rd rs1 rs2 fn : Nat) : s.OnlyThread t (fenceOp kind t rd rs1 rs2 fn s) :=
  State.issue_only (.refl s t) _ _ _ _ _ _ fun s => by split <;> simp
theorem csrOp_only (s : State) (kind t rd rs1 csr : Nat) : s.OnlyThread t (csrOp kind t rd rs1 csr s) := by
  unfold csrOp
  extract_lets n writes word legal
  refine State.issue_only (.refl s t) _ _ _ _ _ _ fun s => ?_
  split
  · exact State.takeExc_only (.refl s t) _ _ _
  · refine State.writeNext_only ?_ _ _ _
    split
    · exact State.csrSet_only (.refl s t) _ _
    · exact .refl s t
theorem done_only (s : State) (t rd rs1 arg : Nat) : s.OnlyThread t (done t rd rs1 arg s) :=
  State.issue_only (.refl s t) _ _ _ _ _ _ fun s => by split <;> simp
theorem sys_only (s : State) (t rd rs1 imm : Nat) : s.OnlyThread t (sys t rd rs1 imm s) :=
  State.issue_only (.refl s t) _ _ _ _ _ _ fun s => by simp
theorem brk_only (s : State) (t rd rs1 imm : Nat) : s.OnlyThread t (brk t rd rs1 imm s) :=
  State.issue_only (.refl s t) _ _ _ _ _ _ fun s => by simp
theorem eret_only (s : State) (t rd rs1 arg : Nat) : s.OnlyThread t (eret t rd rs1 arg s) := by
  unfold eret State.sysIssue
  refine State.issue_only (.refl s t) _ _ _ _ _ _ fun s => ?_
  dsimp only
  split
  · exact State.setThread_only ((State.OnlyThread.refl s t).spares (by simp)) _
  · exact State.setThread_only (.refl s t) _
theorem pause_only (s : State) (t rd rs1 imm kind : Nat) : s.OnlyThread t (pause t rd rs1 imm kind s) :=
  State.issue_only (.refl s t) _ _ _ _ _ _ fun s => by simp
theorem atomic_only (s : State) (t rd rs1 rs2 fn : Nat) : s.OnlyThread t (atomic t rd rs1 rs2 fn s) := by
  unfold atomic
  extract_lets f w n again srcs
  refine State.issue_only (.refl s t) _ _ _ _ _ _ fun s => ?_
  extract_lets a x expected swap
  have hswap (key old : Nat) (s : State) : s.OnlyThread t (swap key old s) := by
    unfold swap
    exact State.writeNext_only ((State.OnlyThread.refl s t).spares (by simp [Aspect.off])) _ _ _
  clear_value swap
  refine State.access_only (.refl s t) _ _ _ _ _ _ fun p s => ?_
  split
  · exact State.tryAgain_only (.refl s t)
  split
  · exact State.nearRead_only (.refl s t) _ _ _ _ _ (hswap _)
  · exact State.nearRead_only (.refl s t) _ _ _ _ _ fun _ s => hswap _ _ s
  · split
    · exact State.tryAgain_only (.refl s t)
    · exact State.nearRead_only (.refl s t) _ _ _ _ _ (hswap _)
  · exact .refl s t

/-- The parts that no instruction of an engine's own reaches (O22). -/
theorem engineFrame_parts (s u : State) (c : Instr) (hx : exec c s = .next u)
    (hc : c.mayChange ⊆ [.regs, .ram, .tgf, .fifos, .threads, .engines, .clusters, .dev, .out]) :
    s.keeps u [.inv, .ops, .orders, .rings, .net, .mtch, .aml, .host, .eptCache, .ports, .lanes, .lims, .limCache, .limRefill, .route,
      .halfLatch, .recLatch, .sbAddr, .variant, .pending] := by
  intro p hp
  refine commandFrames c s u p hx fun hm => ?_
  have := hc hm
  revert hp this
  cases p <;> decide

/-- Settles O22: the parts by the frame layer, the other threads by the rules above. -/
theorem engineFrame : Obligations.EngineFrame := by
  intro s u c t a1 a2 a3 a4 a5 hc hx
  simp only [List.mem_cons, List.not_mem_nil, or_false] at hc
  have hparts : c.mayChange ⊆ [.regs, .ram, .tgf, .fifos, .threads, .engines, .clusters, .dev, .out] := by
    rcases hc with rfl | rfl | rfl | rfl | rfl | rfl | rfl | rfl | rfl | rfl | rfl | rfl | rfl | rfl | rfl | rfl | rfl | rfl | rfl <;>
      simp [Instr.mayChange]
  have hram (h : ∀ a b d e, c ≠ .atomic t a b d e) : .ram ∉ c.mayChange := by
    rcases hc with rfl | rfl | rfl | rfl | rfl | rfl | rfl | rfl | rfl | rfl | rfl | rfl | rfl | rfl | rfl | rfl | rfl | rfl | rfl
    case inr.inr.inr.inr.inr.inr.inl => exact absurd rfl (h _ _ _ _)
    all_goals simp [Instr.mayChange]
  have honly : s.OnlyThread t u := by
    rcases hc with rfl | rfl | rfl | rfl | rfl | rfl | rfl | rfl | rfl | rfl | rfl | rfl | rfl | rfl | rfl | rfl | rfl | rfl | rfl <;>
      cases hx
    exacts [aluReg_only s t _ _ _ _, mulDiv_only s t _ _ _ _, aluImm_only s t _ _ _ _ _, branch_only s t _ _ _ _, jal_only s t _ _,
      jalr_only s t _ _ _, atomic_only s t _ _ _ _, fenceOp_only s _ t _ _ _ _, fenceOp_only s _ t _ _ _ _, fenceOp_only s _ t _ _ _ _,
      csrOp_only s _ t _ _ _, csrOp_only s _ t _ _ _, csrOp_only s _ t _ _ _, csrOp_only s _ t _ _ _, done_only s t _ _ _,
      sys_only s t _ _ _, eret_only s t _ _ _, brk_only s t _ _ _, pause_only s t _ _ _ _]
  exact ⟨engineFrame_parts s u c hx hparts, honly, fun h => commandFrames c s u .ram hx (hram h)⟩

end Sys2Proof.Machine
end

section
open Sys2Proof Sys2Proof.Machine
namespace Sys2Proof.Machine

/-! ### The fetch of an instruction that issues (R61, R62, R68) -/

/-- The second state is the first one but for what TLBs, the ASK cache and the instruction cache remember. A dropped entry is counted
in XLT_MAXAGE_DROP_COUNT. -/
structure State.Cached (s u : State) : Prop where
  mem : u.mem = s.mem
  poison : u.poison = s.poison
  inv : u.inv = s.inv
  tgf : u.tgf = s.tgf
  threads : u.threads = s.threads
  ops : u.ops = s.ops
  net : u.net = s.net
  dev : u.dev = s.dev
  rd : ∀ (r : RegDesc) (ix : List Nat), r.addr ix ≠ R.XLT_MAXAGE_DROP_COUNT.addr [] → u.rd r ix = s.rd r ix

variable {s u v : State} {t : Nat}

theorem State.Cached.refl (s : State) : s.Cached s := ⟨rfl, rfl, rfl, rfl, rfl, rfl, rfl, rfl, fun _ _ _ => rfl⟩

theorem State.Cached.trans (h : s.Cached u) (h' : u.Cached v) : s.Cached v :=
  ⟨h'.mem.trans h.mem, h'.poison.trans h.poison, h'.inv.trans h.inv, h'.tgf.trans h.tgf, h'.threads.trans h.threads, h'.ops.trans h.ops,
    h'.net.trans h.net, h'.dev.trans h.dev, fun r ix hr => (h'.rd r ix hr).trans (h.rd r ix hr)⟩

theorem State.Cached.thread (h : s.Cached u) (t : Nat) : u.thread t = s.thread t := by simp only [State.thread, h.threads]

theorem State.setCluster_cached (h : s.Cached u) (c : Nat) (x : Cluster) : s.Cached (u.setCluster c x) :=
  h.trans ⟨rfl, rfl, rfl, rfl, rfl, rfl, rfl, rfl, fun _ _ _ => rfl⟩
theorem State.setEngine_cached (h : s.Cached u) (g : Nat) (x : Engine) : s.Cached (u.setEngine g x) :=
  h.trans ⟨rfl, rfl, rfl, rfl, rfl, rfl, rfl, rfl, fun _ _ _ => rfl⟩
theorem State.setEngTlb_cached (h : s.Cached u) (w : EngTlb) (l : List TlbEntry) : s.Cached (u.setEngTlb w l) := by
  cases w
  · exact h
  · exact State.setEngine_cached h _ _
  · exact State.setEngine_cached h _ _
theorem State.maxageDrop_cached (h : s.Cached u) : s.Cached (u.bump R.XLT_MAXAGE_DROP_COUNT) :=
  h.trans ⟨rfl, rfl, rfl, rfl, rfl, rfl, rfl, rfl, fun _ _ hr => State.rd_wr_ne _ _ _ _ _ _ hr⟩
theorem State.freeBelow_cached (h : s.Cached u) (n : Nat) : s.Cached (u.freeBelow n).2 :=
  h.trans ⟨rfl, rfl, rfl, rfl, rfl, rfl, rfl, rfl, fun _ _ _ => rfl⟩
theorem State.cachePut_cached {α : Type} (h : s.Cached u) (ways : Nat) (same set : α → Bool) (e : α) (l : List α) :
    s.Cached (u.cachePut ways same set e l).2 := by
  unfold State.cachePut
  extract_lets
  split
  · exact h
  · exact State.freeBelow_cached h (ways - 2)
theorem State.askOf_cached (h : s.Cached u) (c ask : Nat) : s.Cached (u.askOf c ask).2 := by
  unfold State.askOf
  extract_lets fill cl
  have hfill {v : State} (hv : s.Cached v) : s.Cached (fill v).2 :=
    State.setCluster_cached (State.cachePut_cached hv _ _ _ _ _) _ _
  clear_value fill
  split
  · split
    · exact hfill (State.maxageDrop_cached h)
    · exact State.setCluster_cached h _ _
  · exact hfill h
theorem State.tlbLookup_cached (h : s.Cached u) (c : Nat) (w : EngTlb) (ask va : Nat) : s.Cached (u.tlbLookup c w ask va).2 := by
  unfold State.tlbLookup
  split
  next e1 l1 d1 _ =>
  extract_lets s1 s2
  have h₂ : s.Cached s2 := by
    have h₁ : s.Cached s1 := State.setEngTlb_cached h _ _
    unfold s2; split
    · exact State.maxageDrop_cached h₁
    · exact h₁
  clear_value s2
  split
  · exact h₂
  split
  next e2 l2 d2 _ =>
  extract_lets s3 s4
  have h₄ : s.Cached s4 := by
    have h₃ : s.Cached s3 := State.setCluster_cached h₂ _ _
    unfold s4; split
    · exact State.maxageDrop_cached h₃
    · exact h₃
  clear_value s4
  split
  · exact State.setEngTlb_cached h₄ _ _
  · exact h₄
theorem State.xlate_cached (h : s.Cached u) (c : Nat) (w : EngTlb) (ask va need : Nat) (check : Bool) :
    s.Cached (u.xlate c w ask va need check).2 := by
  have hask := State.askOf_cached h c ask
  unfold State.xlate
  split
  next b s1 hb =>
  rw [hb] at hask
  split
  · exact hask
  split
  · exact hask
  have htlb := State.tlbLookup_cached hask c w ask va
  split
  next e s2 he =>
  rw [he] at htlb
  split
  · exact htlb
  · split <;> exact htlb

/-- A fetch that lets its instruction issue has only looked its line up. -/
theorem State.fetchAt_cached (s : State) (t : Nat) (a : Word) : (s.fetchAt t a).1 = false ∨ s.Cached (s.fetchAt t a).2 := by
  unfold State.fetchAt
  extract_lets th c g va fault
  split
  · exact .inl (by split <;> rfl)
  split
  · exact .inl rfl
  have hx := State.xlate_cached (.refl s) c (.instr g) th.xask va (leafX + if th.priv == 0 then leafU else 0) true
  split
  next r s1 hr =>
  rw [hr] at hx
  split
  · exact .inl rfl
  · exact .inl rfl
  · exact .inl rfl
  · extract_lets line
    split
    · exact .inr hx
    · exact .inl rfl

/-- The state after the fetch of an instruction of `len` bytes, before its thread is ready again. -/
def State.looked (s : State) (t len : Nat) : State :=
  if len = 8 then ((s.fetchAt t (s.thread t).pc).2.fetchAt t ((s.thread t).pc + 4)).2 else (s.fetchAt t (s.thread t).pc).2

theorem State.fetched_eq (s : State) (t len : Nat) : s.fetched t len = (s.looked t len).setWait t .ready := rfl

theorem State.issues.looked {len level : Nat} {srcs : List Nat} (h : s.issues t len level srcs) : s.Cached (s.looked t len) := by
  obtain ⟨-, -, -, -, -, hok, hok8, -⟩ := h
  have h1 := (s.fetchAt_cached t (s.thread t).pc).resolve_left (by simp [hok])
  unfold State.looked
  split
  · next h8 => exact h1.trans (((s.fetchAt t (s.thread t).pc).2.fetchAt_cached t _).resolve_left (by rw [hok8 h8]; decide))
  · exact h1

theorem State.issues.notAgain {len level : Nat} {srcs : List Nat} (h : s.issues t len level srcs) : (s.thread t).wait.isAgain = false := by
  obtain ⟨-, -, -, -, hagain, -⟩ := h
  exact hagain

theorem State.issues.goodReg {len level : Nat} {srcs : List Nat} (h : s.issues t len level srcs) {i : Nat} (hi : i ∈ srcs) :
    NSet.mem (s.thread t).badRegs i = false := by
  obtain ⟨-, -, -, -, -, -, -, -, hbad⟩ := h
  exact hbad i hi

/-- What an instruction that issues does: its effect on the fetched state, and what the monitors see of it. -/
theorem State.issue_eq {len level level' : Nat} {srcs srcs' : List Nat} (h : s.issues t len level srcs) (word : Nat)
    (hlevel : level' ≤ level) (hsrcs : ∀ i ∈ srcs', i ∈ srcs) (k : State → State) :
    s.issue t word len true level' srcs' k = (k (s.fetched t len)).issued (s.looked t len) t word := by
  have hc := h.looked
  obtain ⟨hsafe, hpower, hready, hwd, hagain, hok, hok8, hpriv, hbad⟩ := h
  have hgood : (s.looked t len).badReg t srcs' = none := by
    simp only [State.badReg, hc.thread, List.find?_eq_none]
    exact fun i hi => by simp [hbad i (hsrcs i hi)]
  rw [State.fetched_eq]
  unfold State.looked at hgood ⊢
  unfold State.issue
  have hl : ¬ (s.thread t).priv < level' := by omega
  have hp : ¬ 2 ≤ s.dev.power := by omega
  dsimp only
  generalize (s.thread t).pc + 4 = pc4 at hok8 hgood ⊢
  split at hgood
  · next h8 => simp [hsafe, hp, hready, hwd, hagain, hok, hok8 h8, h8, hl, hgood]
  · next h8 => simp [hsafe, hp, hready, hwd, hagain, hok, h8, hl, hgood]

/-- The wait of a thread whose instruction need not issue again. -/
def Wait.past : Wait → Bool
  | .xlt _ | .again _ => false
  | _ => true

theorem State.sampleIssue_frame (u v : State) (t word : Nat) : (u.sampleIssue v t word).threads = v.threads ∧
    (u.sampleIssue v t word).mem = v.mem ∧ (u.sampleIssue v t word).engines = v.engines := by
  unfold State.sampleIssue
  dsimp only
  (repeat' split) <;> simp

/-- The monitors change no thread, no engine and no byte. -/
theorem State.issued_frame (u v : State) (t word : Nat) (h : ((u.thread t).wait).past = true) :
    (u.issued v t word).threads = u.threads ∧ (u.issued v t word).mem = u.mem ∧ (u.issued v t word).engines = u.engines := by
  unfold State.issued
  split
  · next hw => simp [hw, Wait.past] at h
  · next hw => simp [hw, Wait.past] at h
  extract_lets g p s1 s2
  have h₁ : s1.threads = u.threads ∧ s1.mem = u.mem ∧ s1.engines = u.engines := by unfold s1; split <;> simp
  have h₂ : s2.threads = u.threads ∧ s2.mem = u.mem ∧ s2.engines = u.engines := by
    unfold s2; clear_value s1; (repeat' split) <;> simp [h₁]
  simp [State.sampleIssue_frame, h₂]

end Sys2Proof.Machine
end

section
open Sys2Proof Sys2Proof.Machine
namespace Sys2Proof

/-! ### Signed numbers as words -/

theorem toSigned_eq_toInt (n v : Nat) : toSigned n v = (BitVec.ofNat n v).toInt := by
  have h : v % 2 ^ n < 2 ^ (n - 1) ↔ 2 * (v % 2 ^ n) < 2 ^ n := by
    cases n with
    | zero => simp [Nat.mod_one]
    | succ n => rw [Nat.add_sub_cancel, pow_succ]; omega
  simp only [toSigned, BitVec.toInt, BitVec.toNat_ofNat, h]

theorem ofSigned_eq_toNat (n : Nat) (i : Int) : ofSigned n i = (BitVec.ofInt n i).toNat := (BitVec.toNat_ofInt i).symm

theorem w64_ofSigned (i : Int) : w64 (ofSigned 64 i) = BitVec.ofInt 64 i := by
  rw [w64, ofSigned_eq_toNat, BitVec.ofNat_toNat, BitVec.setWidth_eq]

end Sys2Proof
namespace Sys2Proof.Machine

theorem sext16_eq (imm : Nat) : sext16 imm = (BitVec.ofNat 16 imm).signExtend 64 := by
  rw [sext16, w64_ofSigned, toSigned_eq_toInt]; rfl

theorem sext32_eq (v : Nat) : sext32 v = BitVec.ofInt 64 (toSigned 32 v) := w64_ofSigned _

/-! ### An instruction that issues and ends -/

variable {s : State} {t len level level' : Nat} {srcs srcs' : List Nat}

theorem State.issues.thread (h : s.issues t len level srcs) : (s.fetched t len).thread t = { s.thread t with wait := .ready } := by
  rw [State.fetched_eq, State.setWait, State.thread_setThread, h.looked.thread]

theorem State.issues.mem (h : s.issues t len level srcs) : (s.fetched t len).mem = s.mem := h.looked.mem

theorem State.issues.reg (h : s.issues t len level srcs) (i : Nat) : (s.fetched t len).reg t i = s.reg t i := by
  simp only [State.reg, h.thread]

theorem State.setReg_thread (u : State) (t rd : Nat) (v : Word) :
    (u.setReg t rd v).thread t = { (u.thread t).wrote rd v 0 with pc := (u.thread t).pc, wait := (u.thread t).wait } := by
  by_cases hrd : rd = 0 <;> simp [State.setReg, Thread.wrote, hrd]

theorem State.writeNext_thread (u : State) (t rd len : Nat) (v : Word) :
    (u.writeNext t rd len v).thread t = { (u.thread t).wrote rd v len with wait := (u.thread t).wait } := by
  rw [State.writeNext, State.nextPc, State.thread_setThread, State.setReg_thread]; rfl

/-- What an instruction that need not issue again leaves is what its effect on the fetched state is. -/
theorem State.issue_thread (h : s.issues t len level srcs) (word : Nat) (hlevel : level' ≤ level) (hsrcs : ∀ i ∈ srcs', i ∈ srcs)
    (k : State → State) (hp : ((k (s.fetched t len)).thread t).wait.past = true) :
    (s.issue t word len true level' srcs' k).thread t = (k (s.fetched t len)).thread t := by
  rw [State.issue_eq h word hlevel hsrcs k, State.thread, (State.issued_frame _ _ _ _ hp).1]; rfl

theorem State.issue_mem (h : s.issues t len level srcs) (word : Nat) (hlevel : level' ≤ level) (hsrcs : ∀ i ∈ srcs', i ∈ srcs)
    (k : State → State) (hp : ((k (s.fetched t len)).thread t).wait.past = true) :
    (s.issue t word len true level' srcs' k).mem = (k (s.fetched t len)).mem := by
  rw [State.issue_eq h word hlevel hsrcs k, (State.issued_frame _ _ _ _ hp).2.1]

theorem State.issue_engines (h : s.issues t len level srcs) (word : Nat) (hlevel : level' ≤ level) (hsrcs : ∀ i ∈ srcs', i ∈ srcs)
    (k : State → State) (hp : ((k (s.fetched t len)).thread t).wait.past = true) :
    (s.issue t word len true level' srcs' k).engines = (k (s.fetched t len)).engines := by
  rw [State.issue_eq h word hlevel hsrcs k, (State.issued_frame _ _ _ _ hp).2.2]

/-- An instruction whose effect is known to leave a thread that is past it. -/
theorem State.issue_thread_of (h : s.issues t len level srcs) (word : Nat) (hlevel : level' ≤ level) (hsrcs : ∀ i ∈ srcs', i ∈ srcs)
    (k : State → State) {x : Thread} (hk : (k (s.fetched t len)).thread t = x) (hx : x.wait.past = true) :
    (s.issue t word len true level' srcs' k).thread t = x := by
  rw [State.issue_thread h word hlevel hsrcs k (by rw [hk]; exact hx), hk]

/-- An instruction that only computes a register. -/
theorem State.issue_wrote (h : s.issues t len level srcs) (word : Nat) (hlevel : level' ≤ level) (hsrcs : ∀ i ∈ srcs', i ∈ srcs)
    (k : State → State) {x : Thread} {rd : Nat} {v : Word} {u : State} (hu : u.thread t = { x with wait := .ready })
    (hk : k (s.fetched t len) = u.writeNext t rd len v) :
    (s.issue t word len true level' srcs' k).thread t = x.wrote rd v len :=
  State.issue_thread_of h word hlevel hsrcs k (by rw [hk, State.writeNext_thread, hu]; rfl) rfl

/-! ### Branches, jumps, fences, done and pause (R92, R94, R96) -/

theorem branch_thread {op ra rb imm : Nat} {taken : Bool} (h : s.issues t 4 0 [ra % 32, rb % 32])
    (htest : branchTest op (s.reg t (ra % 32)) (s.reg t (rb % 32)) = some taken) :
    (branch t op ra rb imm s).thread t = { s.thread t with
      pc := (s.thread t).pc + (if taken then (BitVec.ofNat 16 imm).signExtend 64 * 4 else 4), wait := .ready } := by
  unfold branch
  rw [htest]
  refine State.issue_thread_of h _ (Nat.le_refl _) (fun _ hi => hi) _ ?_ rfl
  cases taken
  · simp [State.nextPc, h.thread, w64]
  · simp [State.setPc, h.thread, sext16_eq]

theorem branchTest_of_mem {op : Nat} {a b : Word} {taken : Bool}
    (h : (op, taken) ∈ [(0x20, decide (a = b)), (0x21, decide (a ≠ b)), (0x22, decide (a.toInt < b.toInt)), (0x23, decide (b.toInt ≤ a.toInt)),
      (0x24, decide (a.toNat < b.toNat)), (0x25, decide (b.toNat ≤ a.toNat))]) : branchTest op a b = some taken := by
  simp only [List.mem_cons, Prod.mk.injEq, List.not_mem_nil, or_false] at h
  obtain ⟨rfl, rfl⟩ | ⟨rfl, rfl⟩ | ⟨rfl, rfl⟩ | ⟨rfl, rfl⟩ | ⟨rfl, rfl⟩ | ⟨rfl, rfl⟩ := h
  · rfl
  · simp [branchTest, bne]; rfl
  all_goals rfl

theorem jal_thread (rd imm : Nat) (h : s.issues t 4 0 []) :
    (jal t rd imm s).thread t = { (s.thread t).wrote (rd % 32) ((s.thread t).pc + 4) 4 with
      pc := (s.thread t).pc + (BitVec.ofNat 21 imm).signExtend 64 * 4 } := by
  have hoff : wInt (toSigned 21 imm * 4) = (BitVec.ofNat 21 imm).signExtend 64 * 4 := by
    rw [wInt, BitVec.ofInt_mul, toSigned_eq_toInt]; rfl
  unfold jal
  refine State.issue_thread_of h _ (Nat.le_refl _) (fun _ hi => hi) _ ?_ rfl
  dsimp only
  rw [State.setPc, State.thread_setThread, State.setReg_thread, h.thread, hoff]; rfl

theorem jalr_thread (rd : Nat) {rs1 imm : Nat} {a : Word} (h : s.issues t 4 0 [rs1 % 32])
    (ha : a = s.reg t (rs1 % 32) + (BitVec.ofNat 16 imm).signExtend 64) (hal : a.toNat % 4 = 0) :
    (jalr t rd rs1 imm s).thread t = { (s.thread t).wrote (rd % 32) ((s.thread t).pc + 4) 4 with pc := a } := by
  have hbad : NSet.mem (s.thread t).badRegs (rs1 % 32) = false := h.goodReg (List.mem_singleton.mpr rfl)
  unfold jalr
  refine State.issue_thread_of h _ (Nat.le_refl _) (by simp) _ ?_ rfl
  simp only [h.thread, h.reg, sext16_eq, ← ha, hal, hbad, bne_self_eq_false, Bool.false_eq_true, if_false]
  rw [State.setPc, State.thread_setThread, State.setReg_thread, h.thread]; rfl

/-- What a thread is once its store buffer is drained. -/
theorem State.drained_thread {u : State} {x : Thread} (hx : u.thread t = x) {kind : Nat} (hkind : kind < 3) :
    (u.drained t kind).thread t = { x with pc := x.pc + 4, wait := .ready } := by
  subst hx
  obtain rfl | rfl | rfl : kind = 0 ∨ kind = 1 ∨ kind = 2 := by omega
  all_goals simp [State.drained, State.setWait, State.nextPc, w64, State.icacheClear]

/-- A fence, and done, of a thread with no store buffered end at once, and otherwise wait for the drain. -/
theorem State.drainOr_thread {u : State} {x : Thread} (hx : u.thread t = x) (kind : Nat) :
    (if (u.thread t).sb.isEmpty then u.drained t kind else u.setWait t (.drain kind)).thread t =
      if x.sb = [] then (u.drained t kind).thread t else { x with wait := .drain kind } := by
  subst hx
  by_cases hsb : (u.thread t).sb = [] <;> simp [hsb, State.setWait]

/-- A fence with its reserved fields zero. -/
theorem fenceOp_thread (kind rd rs1 rs2 fn : Nat) (h : s.issues t 4 0 []) (hrd : rd % 32 = 0) (h1 : rs1 % 32 = 0) (h2 : rs2 % 32 = 0)
    (hfn : nbits fn 10 2 = 0) (hkind : kind < 3) :
    ((s.thread t).sb = [] →
      (fenceOp kind t rd rs1 rs2 fn s).thread t = { s.thread t with pc := (s.thread t).pc + 4, wait := .ready } ∧
      (kind = 2 → ((fenceOp kind t rd rs1 rs2 fn s).engine (tEngine t)).icache = [])) ∧
    ((s.thread t).sb ≠ [] → (fenceOp kind t rd rs1 rs2 fn s).thread t = { s.thread t with wait := .drain kind }) := by
  have hlegal : (rd % 32 == 0 && rs1 % 32 == 0 && rs2 % 32 == 0 && nbits fn 10 2 == 0 && kind != 3) = true := by
    simp [hrd, h1, h2, hfn]; omega
  have hend := State.drainOr_thread h.thread kind
  rw [State.drained_thread h.thread hkind] at hend
  unfold fenceOp
  rw [hlegal]
  constructor
  · intro hsb
    rw [if_pos hsb] at hend
    refine ⟨State.issue_thread_of h _ (Nat.le_refl _) (fun _ hi => hi) _ hend rfl, ?_⟩
    rintro rfl
    rw [State.engine, State.issue_engines h _ (Nat.le_refl _) (fun _ hi => hi) _ (by rw [hend]; rfl), if_pos (by simp [h.thread, hsb])]
    exact congrArg Engine.icache (State.engine_setEngine _ _ _)
  · intro hsb
    rw [if_neg hsb] at hend
    exact State.issue_thread_of h _ (Nat.le_refl _) (fun _ hi => hi) _ hend rfl

theorem done_thread (rd rs1 arg : Nat) (h : s.issues t 4 0 []) (hrd : rd % 32 = 0) (h1 : rs1 % 32 = 0) :
    (done t rd rs1 arg s).thread t = if (s.thread t).sb = [] then
      { s.thread t with running := false, wait := .ready, pendWd := false, graceEnd := none, xfault := none }
      else { s.thread t with wait := .drain 3 } := by
  have hfree : ((s.fetched t 4).drained t 3).thread t =
      { s.thread t with running := false, wait := .ready, pendWd := false, graceEnd := none, xfault := none } := by
    rw [State.drained, State.freeThread, State.thread_setThread, h.thread]
  have hend := State.drainOr_thread h.thread 3
  rw [hfree] at hend
  unfold done State.sysIssue
  simp only [hrd, h1, beq_self_eq_true, Bool.and_true]
  refine State.issue_thread_of h _ (Nat.le_refl _) (fun _ hi => hi) _ hend ?_
  split <;> rfl

theorem pause_thread (rd rs1 n kind : Nat) (h : s.issues t 4 0 []) (hrd : rd % 32 = 0) (h1 : rs1 % 32 = 0) (hn : n % 256 ≠ 0)
    (hkind : kind % 256 ≤ 4) : (pause t rd rs1 n kind s).thread t =
      { s.thread t with pc := (s.thread t).pc + 4, wait := .pause (s.locIn ((5 * (n % 256) + 1) / 2)) } := by
  have hloc : (s.fetched t 4).locIn ((5 * (n % 256) + 1) / 2) = s.locIn ((5 * (n % 256) + 1) / 2) := by
    simp only [State.locIn, State.loc, show (s.fetched t 4).inv = s.inv from h.looked.inv]
  unfold pause State.sysIssue
  simp only [hrd, h1, hkind, beq_self_eq_true, Bool.and_true, bne_iff_ne.mpr hn, decide_true]
  refine State.issue_thread_of h _ (Nat.le_refl _) (fun _ hi => hi) _ ?_ rfl
  simp only [State.setWait, State.nextPc, State.thread_setThread, h.thread, hloc]; rfl

/-- Settles O16: each instruction by its rule above. -/
theorem controlFlow : Obligations.ControlFlow := by
  unfold Obligations.ControlFlow
  refine ⟨?_, fun s t rd imm h => ⟨_, rfl, jal_thread rd imm h⟩, fun s t rd rs1 imm a h ha hal => ⟨_, rfl, jalr_thread rd h ha hal⟩,
    ?_, ?_, fun s t rd rs1 n kind h hrd h1 hn hk => ⟨_, rfl, pause_thread rd rs1 n kind h hrd h1 hn hk⟩⟩
  · rintro s t op ra rb imm a b taken h rfl rfl htest
    exact ⟨_, rfl, branch_thread h (branchTest_of_mem htest)⟩
  · rintro s t rd rs1 rs2 fn c h hrd h1 h2 hfn (⟨rfl, hkind⟩ | rfl | rfl)
    · obtain ⟨hnow, hwait⟩ := fenceOp_thread 0 rd rs1 rs2 fn h hrd h1 h2 hfn (by decide)
      rw [show (0 : Nat) = if fn % 4 == 3 then 3 else 0 by simp [hkind]] at hnow hwait
      exact ⟨_, rfl, fun hsb => ⟨(hnow hsb).1, by simp⟩, fun hsb => ⟨_, hwait hsb⟩⟩
    · obtain ⟨hnow, hwait⟩ := fenceOp_thread 1 rd rs1 rs2 fn h hrd h1 h2 hfn (by decide)
      exact ⟨_, rfl, fun hsb => ⟨(hnow hsb).1, by simp⟩, fun hsb => ⟨_, hwait hsb⟩⟩
    · obtain ⟨hnow, hwait⟩ := fenceOp_thread 2 rd rs1 rs2 fn h hrd h1 h2 hfn (by decide)
      exact ⟨_, rfl, fun hsb => ⟨(hnow hsb).1, fun _ => (hnow hsb).2 rfl⟩, fun hsb => ⟨_, hwait hsb⟩⟩
  · intro s t rd rs1 arg h hrd h1
    have hend := done_thread rd rs1 arg h hrd h1
    exact ⟨_, rfl, fun hsb => by rw [if_pos hsb] at hend; exact hend, fun hsb => ⟨3, by rw [if_neg hsb] at hend; exact hend⟩⟩

end Sys2Proof.Machine
end

section
open Sys2Proof Sys2Proof.Machine
namespace Sys2Proof.Machine

/-! ### CSR access (R95) -/

variable {s : State} {t len level : Nat} {srcs : List Nat}

/-- The CSRs of the performance counters, which alone the monitors change and PMU_USER_READ guards. -/
def csrCounter (csr : Nat) : Prop := 0x010 ≤ csr ∧ csr ≤ 0x015

theorem State.csrUserOk_of_not_counter (s : State) (t : Nat) {csr : Nat} (hc : ¬ csrCounter csr) : s.csrUserOk t csr = true := by
  unfold csrCounter at hc
  have : (decide (0x010 ≤ csr) && decide (csr ≤ 0x015)) = false := by simpa using hc
  simp [State.csrUserOk, Bool.and_assoc, this]

/-- The fetch of the access leaves what the CSR gives. -/
theorem State.issues.csrGet (h : s.issues t len level srcs) {csr : Nat} (hc : ¬ csrCounter csr) :
    (s.fetched t len).csrGet t csr = s.csrGet t csr := by
  unfold csrCounter at hc
  have hsince (v : Word) : (s.fetched t len).locSince v = s.locSince v := by
    simp only [State.locSince, State.loc, show (s.fetched t len).inv = s.inv from h.looked.inv]
  unfold State.csrGet
  split <;> simp only [h.thread, State.wdLeft, hsince] <;> omega

/-- A CSR access that only reads. -/
theorem csrOp_read (rd : Nat) {kind rs1 csr : Nat} {v : Word} (h : s.issues t 4 (csrLevel csr) []) (hk : kind < 4) (hk1 : kind ≠ 1)
    (h1 : rs1 % 32 = 0) (hcsr : csr < 4096) (hc : ¬ csrCounter csr) (hv : s.csrGet t csr = some v) :
    (csrOp kind t rd rs1 csr s).thread t = (s.thread t).wrote (rd % 32) v 4 := by
  unfold csrOp
  simp only [Nat.mod_eq_of_lt hcsr, hv, hk, h1, beq_eq_false_iff_ne.mpr hk1, decide_true, Option.isSome_some, bne_self_eq_false, Bool.and_false,
    Bool.or_false, Bool.not_false, Bool.true_or, Bool.and_true, Bool.false_eq_true, if_false]
  exact State.issue_wrote h _ (Nat.le_refl _) (fun _ hi => hi) _ h.thread (by
    simp [State.csrUserOk_of_not_counter _ _ hc, h.csrGet hc, hv])

/-- What a CSR access writes, of the old value and the register. -/
def csrNew (kind : Nat) (old r : Word) : Word :=
  match kind with
  | 1 => r
  | 2 => old ||| r
  | _ => old &&& ~~~ r

/-- A CSR access that writes. -/
theorem csrOp_write (rd : Nat) {kind rs1 csr : Nat} {old : Word} {x : Thread} (h : s.issues t 4 (csrLevel csr) [rs1 % 32])
    (hk : kind = 1 ∨ kind < 4 ∧ kind ≠ 0 ∧ rs1 % 32 ≠ 0) (hcsr : csr < 4096) (hc : ¬ csrCounter csr) (hw : csrWritable csr = true)
    (hv : s.csrGet t csr = some old)
    (hx : ((s.fetched t 4).csrSet t csr (csrNew kind old (s.reg t (rs1 % 32)))).thread t = { x with wait := .ready }) :
    (csrOp kind t rd rs1 csr s).thread t = x.wrote (rd % 32) old 4 := by
  have hwrites : (kind == 1 || kind != 0 && rs1 % 32 != 0) = true := by
    rcases hk with rfl | ⟨-, h0, h1⟩ <;> simp [*]
  have hkind : kind < 4 ∧ (kind == 0 && rs1 % 32 != 0) = false := by
    rcases hk with rfl | ⟨h4, h0, h1⟩ <;> simp [*]
  unfold csrOp
  simp only [Nat.mod_eq_of_lt hcsr, hv, hwrites, hkind, hw, decide_true, Option.isSome_some, Bool.not_false, Bool.not_true, Bool.false_or,
    Bool.and_true, if_true]
  exact State.issue_wrote h _ (Nat.le_refl _) (fun _ hi => hi) _ hx (by
    simp only [State.csrUserOk_of_not_counter _ _ hc, h.csrGet hc, hv, h.reg]; rfl)

/-- The CSRs that read a thread's own state, at their levels. -/
theorem csrGet_of_mem {csr : Nat} {v : Word} (h : (csr, v) ∈ [(0x000, w64 t), (0x001, w64 (s.thread t).priv), (0x002, (s.thread t).item.csr),
      (0x400, w64 (s.thread t).xask), (0x401, (s.thread t).epc), (0x402, w64 (s.thread t).ecause), (0x403, (s.thread t).eval),
      (0x404, w64 (b2n (s.thread t).excActive * 256 + (s.thread t).prev)), (0x405, w64 (s.thread t).exask),
      (0x406, w64 (if (s.thread t).budget = 0 then 0xFFFF
        else ((s.thread t).budget * ticksPerUs - s.locSince (s.thread t).startAt) / ticksPerUs)),
      (0x408, (s.thread t).sscratch.get 0 0), (0x409, (s.thread t).sscratch.get 0 1), (0x40A, (s.thread t).sscratch.get 0 2),
      (0x40B, (s.thread t).sscratch.get 0 3)]) :
    s.csrGet t csr = some v ∧ csrLevel csr = (if csr < 0x400 then 0 else 1) ∧ csr < 4096 ∧ ¬ csrCounter csr := by
  have hleft : s.wdLeft (s.thread t) = if (s.thread t).budget = 0 then 0xFFFF
      else ((s.thread t).budget * ticksPerUs - s.locSince (s.thread t).startAt) / ticksPerUs := by simp [State.wdLeft]
  simp only [List.mem_cons, Prod.mk.injEq, List.not_mem_nil, or_false, ← hleft] at h
  obtain ⟨rfl, rfl⟩ | ⟨rfl, rfl⟩ | ⟨rfl, rfl⟩ | ⟨rfl, rfl⟩ | ⟨rfl, rfl⟩ | ⟨rfl, rfl⟩ | ⟨rfl, rfl⟩ | ⟨rfl, rfl⟩ | ⟨rfl, rfl⟩ |
    ⟨rfl, rfl⟩ | ⟨rfl, rfl⟩ | ⟨rfl, rfl⟩ | ⟨rfl, rfl⟩ | ⟨rfl, rfl⟩ := h
  all_goals exact ⟨rfl, rfl, by decide, by simp [csrCounter]⟩

/-- The CSRs that write a thread's own state: what each reads, and the thread with its new value. -/
theorem csrSet_of_mem {csr : Nat} {old v : Word} {x : Thread} (h : s.issues t 4 level srcs)
    (hm : (csr, old, x) ∈ [(0x400, w64 (s.thread t).xask, { s.thread t with xask := v.toNat % 2 ^ 20 }),
      (0x401, (s.thread t).epc, { s.thread t with epc := v }), (0x402, w64 (s.thread t).ecause, { s.thread t with ecause := v.toNat % 16 }),
      (0x403, (s.thread t).eval, { s.thread t with eval := v }),
      (0x404, w64 (b2n (s.thread t).excActive * 256 + (s.thread t).prev), { s.thread t with prev := v.toNat % 4 }),
      (0x405, w64 (s.thread t).exask, { s.thread t with exask := v.toNat % 2 ^ 20 }),
      (0x408, (s.thread t).sscratch.get 0 0, { s.thread t with sscratch := (s.thread t).sscratch.set 0 0 v }),
      (0x409, (s.thread t).sscratch.get 0 1, { s.thread t with sscratch := (s.thread t).sscratch.set 0 1 v }),
      (0x40A, (s.thread t).sscratch.get 0 2, { s.thread t with sscratch := (s.thread t).sscratch.set 0 2 v }),
      (0x40B, (s.thread t).sscratch.get 0 3, { s.thread t with sscratch := (s.thread t).sscratch.set 0 3 v })]) :
    s.csrGet t csr = some old ∧ csrWritable csr = true ∧ csrLevel csr = 1 ∧ csr < 4096 ∧ ¬ csrCounter csr ∧
      ((s.fetched t 4).csrSet t csr v).thread t = { x with wait := .ready } := by
  simp only [List.mem_cons, Prod.mk.injEq, List.not_mem_nil, or_false] at hm
  obtain ⟨rfl, rfl, rfl⟩ | ⟨rfl, rfl, rfl⟩ | ⟨rfl, rfl, rfl⟩ | ⟨rfl, rfl, rfl⟩ | ⟨rfl, rfl, rfl⟩ | ⟨rfl, rfl, rfl⟩ | ⟨rfl, rfl, rfl⟩ |
    ⟨rfl, rfl, rfl⟩ | ⟨rfl, rfl, rfl⟩ | ⟨rfl, rfl, rfl⟩ := hm
  all_goals exact ⟨rfl, rfl, rfl, by decide, by simp [csrCounter], by
    rw [State.csrSet, h.thread]; exact State.thread_setThread _ _ _⟩

/-- Settles O19: the accesses that read and those that write, each for every CSR of its table. -/
theorem controlRegisters : Obligations.ControlRegisters := by
  unfold Obligations.ControlRegisters
  constructor
  · intro s t rd rs1 csr kind v hm h h1 c hc
    obtain ⟨hv, hlevel, hcsr, hcount⟩ := csrGet_of_mem hm
    rw [← hlevel] at h
    obtain ⟨rfl, hk⟩ | rfl | rfl := hc
    · have hread := csrOp_read rd (kind := 0) h (by decide) (by decide) h1 hcsr hcount hv
      rw [← if_pos (c := kind % 16 < 4) (t := 0) (e := kind % 16) hk] at hread
      exact ⟨_, rfl, hread⟩
    · exact ⟨_, rfl, csrOp_read rd (kind := 2) h (by decide) (by decide) h1 hcsr hcount hv⟩
    · exact ⟨_, rfl, csrOp_read rd (kind := 3) h (by decide) (by decide) h1 hcsr hcount hv⟩
  · rintro s t rd rs1 csr r old v th h rfl hm
    obtain ⟨hv, hw, hlevel, hcsr, hcount, hx⟩ := csrSet_of_mem h hm
    rw [← hlevel] at h
    refine ⟨?_, ?_, ?_⟩
    · rintro rfl
      exact ⟨_, rfl, csrOp_write rd h (.inl rfl) hcsr hcount hw hv hx⟩
    · rintro rfl h1
      exact ⟨_, rfl, csrOp_write rd h (.inr ⟨by decide, by decide, h1⟩) hcsr hcount hw hv hx⟩
    · rintro rfl h1
      exact ⟨_, rfl, csrOp_write rd h (.inr ⟨by decide, by decide, h1⟩) hcsr hcount hw hv hx⟩

end Sys2Proof.Machine
end

section
open Sys2Proof Sys2Proof.Machine
namespace Sys2Proof.Machine

/-! ### Exceptions (R79, R81 to R83) -/

variable {s u : State} {t len level level' : Nat} {srcs srcs' : List Nat}

/-- The handler table stands in memory. -/
theorem State.handler_of_mem (h : u.mem = s.mem) (c ty : Nat) : u.handler c ty = s.handler c ty := by
  simp only [State.handler, State.mnat, h]

theorem State.thread_of_threads (h : u.threads = s.threads) (t : Nat) : u.thread t = s.thread t := by simp only [State.thread, h]

/-- A lost thread is free, and the rest of it is as it was. -/
theorem State.loseThread_thread (s : State) (t cause : Nat) (epc : Word) : (s.loseThread t cause epc).thread t =
    { s.thread t with running := false, wait := .ready, pendWd := false, graceEnd := none, xfault := none } := by
  have hkept : (s.freeThread t).Spares (some .threads) (s.loseThread t cause epc) := by
    unfold State.loseThread; simp (maxDischargeDepth := 40) [Aspect.off]
  rw [State.thread_of_threads hkept, State.freeThread, State.thread_setThread]

/-- An exception outside another one goes to a valid handler. -/
theorem State.takeExc_tookExc {v : State} {code : Nat} {eval epc : Word} (hcode : code ≠ excParity) (hmem : u.mem = s.mem)
    (hthread : ∃ w, u.thread t = { s.thread t with wait := w })
    (hact : (s.thread t).excActive = false) (hvalid : (s.handler (tCluster t) (0xF0 + code)).valid = true)
    (hv : v.thread t = (u.takeExc t code eval epc).thread t) : s.tookExc v t code eval epc := by
  obtain ⟨w, hw⟩ := hthread
  rw [State.tookExc, hv]
  unfold State.takeExc
  simp only [beq_eq_false_iff_ne.mpr hcode, Bool.false_eq_true, if_false, hw, hact, State.handler_of_mem hmem, hvalid, if_true]
  exact State.thread_setThread _ _ _

/-- An exception with no valid handler, or inside another one, stops its thread. -/
theorem State.takeExc_stops {code : Nat} (eval epc : Word) (hcode : code ≠ excParity)
    (h : (s.thread t).excActive = true ∨ (s.handler (tCluster t) (0xF0 + code)).valid = false) :
    ((s.takeExc t code eval epc).thread t).running = false ∧ ((s.takeExc t code eval epc).thread t).wait = .ready := by
  unfold State.takeExc
  simp only [beq_eq_false_iff_ne.mpr hcode, Bool.false_eq_true, if_false]
  split
  · rw [State.loseThread_thread]; exact ⟨rfl, rfl⟩
  · next hact =>
    rw [if_neg (by simpa [hact] using h), State.loseThread_thread]; exact ⟨rfl, rfl⟩

/-- An instruction of a form that its word does not permit takes ILLEGAL_INSN (R81). -/
theorem State.issue_illegal (h : s.issues t len level srcs) (word : Nat) (k : State → State) :
    s.issue t word len false level' srcs' k = (s.looked t len).takeExc t excIllegal (w64 word) (s.thread t).pc := by
  obtain ⟨hsafe, hpower, hready, hwd, hagain, hok, hok8, -⟩ := h
  have hp : ¬ 2 ≤ s.dev.power := by omega
  unfold State.issue State.looked
  dsimp only
  generalize (s.thread t).pc + 4 = pc4 at hok8 ⊢
  by_cases h8 : len = 8
  · simp [hsafe, hp, hready, hwd, hagain, hok, hok8 h8, h8]
  · simp [hsafe, hp, hready, hwd, hagain, hok, h8]

/-- An instruction of a level that its thread has not takes PRIV_VIOLATION (R81). -/
theorem State.issue_denied (h : s.issues t len level srcs) (word : Nat) (k : State → State) (hlevel : (s.thread t).priv < level') :
    s.issue t word len true level' srcs' k = (s.looked t len).takeExc t excPriv (w64 word) (s.thread t).pc := by
  obtain ⟨hsafe, hpower, hready, hwd, hagain, hok, hok8, -⟩ := h
  have hp : ¬ 2 ≤ s.dev.power := by omega
  unfold State.issue State.looked
  dsimp only
  generalize (s.thread t).pc + 4 = pc4 at hok8 ⊢
  by_cases h8 : len = 8
  · simp [hsafe, hp, hready, hwd, hagain, hok, hok8 h8, h8, hlevel]
  · simp [hsafe, hp, hready, hwd, hagain, hok, h8, hlevel]

/-- The exception of an instruction that is refused before it issues. -/
theorem State.issues.tookExc {v : State} {code : Nat} {eval epc : Word} (h : s.issues t len level srcs) (hcode : code ≠ excParity)
    (hact : (s.thread t).excActive = false) (hvalid : (s.handler (tCluster t) (0xF0 + code)).valid = true)
    (hv : v = (s.looked t len).takeExc t code eval epc) : s.tookExc v t code eval epc :=
  State.takeExc_tookExc hcode h.looked.mem ⟨_, h.looked.thread t⟩ hact hvalid (by rw [hv])

/-- An instruction whose effect is an exception: it is taken outside another one, where its handler is valid. -/
theorem State.issue_tookExc (h : s.issues t len level srcs) (word : Nat) (hlevel : level' ≤ level) (hsrcs : ∀ i ∈ srcs', i ∈ srcs)
    (k : State → State) {code : Nat} {eval epc : Word} (hk : k (s.fetched t len) = (s.fetched t len).takeExc t code eval epc)
    (hcode : code ≠ excParity) (hact : (s.thread t).excActive = false)
    (hvalid : (s.handler (tCluster t) (0xF0 + code)).valid = true) :
    s.tookExc (s.issue t word len true level' srcs' k) t code eval epc := by
  have htook : s.tookExc ((s.fetched t len).takeExc t code eval epc) t code eval epc :=
    State.takeExc_tookExc hcode h.mem ⟨_, h.thread⟩ hact hvalid rfl
  rw [State.tookExc] at htook ⊢
  exact State.issue_thread_of h word hlevel hsrcs k (by rw [hk, htook]) rfl

/-- The same inside another exception, or with no valid handler: its thread stops, and no other changes. -/
theorem State.issue_stops (h : s.issues t len level srcs) (word : Nat) (hlevel : level' ≤ level) (hsrcs : ∀ i ∈ srcs', i ∈ srcs)
    (k : State → State) {code : Nat} {eval epc : Word} (hk : k (s.fetched t len) = (s.fetched t len).takeExc t code eval epc)
    (hcode : code ≠ excParity)
    (hstop : (s.thread t).excActive = true ∨ (s.handler (tCluster t) (0xF0 + code)).valid = false) :
    ((s.issue t word len true level' srcs' k).thread t).running = false := by
  have hend := State.takeExc_stops (s := s.fetched t len) eval epc hcode (by rwa [h.thread, State.handler_of_mem h.mem])
  rw [State.issue_thread_of h word hlevel hsrcs k (by rw [hk]) (by rw [hend.2]; rfl)]
  exact hend.1

/-- sys and brk take their exceptions past themselves. -/
theorem sysIssue_tookExc (h : s.issues t 4 0 []) (kind : Nat) {rd rs1 : Nat} (arg : Nat) {code : Nat} {eval : Word}
    (hrd : rd % 32 = 0) (h1 : rs1 % 32 = 0) (hcode : code ≠ excParity) {u : State}
    (hu : u = s.sysIssue t kind rd rs1 arg true 0 fun s => s.takeExc t code eval ((s.thread t).pc + 4)) :
    ((s.thread t).excActive = false → (s.handler (tCluster t) (0xF0 + code)).valid = true →
      s.tookExc u t code eval ((s.thread t).pc + 4)) ∧
    ((s.thread t).excActive = true ∨ (s.handler (tCluster t) (0xF0 + code)).valid = false → (u.thread t).running = false) := by
  have hpc : ((s.fetched t 4).thread t).pc = (s.thread t).pc := by rw [h.thread]
  subst hu
  simp only [State.sysIssue, hrd, h1, beq_self_eq_true, Bool.and_true]
  exact ⟨fun hact hvalid => State.issue_tookExc h _ (Nat.le_refl _) (fun _ hi => hi) _ (by rw [hpc]) hcode hact hvalid,
    State.issue_stops h _ (Nat.le_refl _) (fun _ hi => hi) _ rfl hcode⟩

/-- sys and brk inside an exception stop their thread, as a form that is not permitted does. -/
theorem sysIssue_stops (h : s.issues t 4 0 []) (kind rd rs1 arg : Nat) {code : Nat} {eval : Word} (hcode : code ≠ excParity)
    (hact : (s.thread t).excActive = true) :
    ((s.sysIssue t kind rd rs1 arg true 0 fun s => s.takeExc t code eval ((s.thread t).pc + 4)).thread t).running = false := by
  unfold State.sysIssue
  cases hlegal : rd % 32 == 0 && rs1 % 32 == 0 && true
  · rw [State.issue_illegal h]
    exact (State.takeExc_stops _ _ (by decide) (.inl (by rw [h.looked.thread, hact]))).1
  · exact State.issue_stops h _ (Nat.le_refl _) (fun _ hi => hi) _ rfl hcode (.inl hact)

theorem eret_thread (rd rs1 arg : Nat) (h : s.issues t 4 1 []) (hact : (s.thread t).excActive = true) (hrd : rd % 32 = 0)
    (h1 : rs1 % 32 = 0) : ∃ p, ((s.thread t).prev ≠ 3 → p = (s.thread t).prev) ∧ ((s.thread t).prev = 3 → p ≤ 2) ∧
      (eret t rd rs1 arg s).thread t =
        { s.thread t with pc := (s.thread t).epc, priv := p, xask := (s.thread t).exask, excActive := false, wait := .ready } := by
  unfold eret State.sysIssue
  simp only [hrd, h1, hact, beq_self_eq_true, Bool.and_true]
  by_cases hprev : (s.thread t).prev = 3
  · refine ⟨((s.fetched t 4).freeBelow 2).1, fun hne => absurd hprev hne, fun _ => Nat.le_of_lt_succ (Nat.mod_lt _ (Nat.succ_pos 2)),
      State.issue_thread_of h _ (Nat.le_refl _) (fun _ hi => hi) _ ?_ rfl⟩
    simp only [h.thread, hprev, if_true]
    exact State.thread_setThread _ _ _
  · refine ⟨(s.thread t).prev, fun _ => rfl, fun he => absurd he hprev,
      State.issue_thread_of h _ (Nat.le_refl _) (fun _ hi => hi) _ ?_ rfl⟩
    simp only [h.thread, hprev, if_false]
    exact State.thread_setThread _ _ _

/-- A system instruction with a form that is not permitted. -/
theorem sysIssue_illegal (h : s.issues t 4 level []) (kind : Nat) {rd rs1 : Nat} (arg : Nat) {legal : Bool} (k : State → State)
    (hact : (s.thread t).excActive = false) (hvalid : (s.handler (tCluster t) 0xF1).valid = true)
    (hbad : rd % 32 ≠ 0 ∨ rs1 % 32 ≠ 0 ∨ legal = false) :
    s.tookExc (s.sysIssue t kind rd rs1 arg legal level' k) t 1 (w64 (wordI 0x2B rd rs1 (kind * 256 + arg % 256))) (s.thread t).pc := by
  have hlegal : (rd % 32 == 0 && rs1 % 32 == 0 && legal) = false := by
    rcases hbad with h0 | h0 | h0 <;> simp [h0]
  unfold State.sysIssue
  rw [hlegal]
  exact h.tookExc (by decide) hact hvalid (State.issue_illegal h _ k)

theorem jalr_misaligned (rd : Nat) {rs1 imm : Nat} {a : Word} (h : s.issues t 4 0 []) (hact : (s.thread t).excActive = false)
    (ha : a = s.reg t (rs1 % 32) + (BitVec.ofNat 16 imm).signExtend 64) (hal : a.toNat % 4 ≠ 0)
    (hvalid : (s.handler (tCluster t) 0xF3).valid = true) : s.tookExc (jalr t rd rs1 imm s) t 3 a (s.thread t).pc := by
  unfold jalr
  exact State.issue_tookExc h _ (Nat.le_refl _) (fun _ hi => hi) _
    (by simp only [h.thread, h.reg, sext16_eq, ← ha, bne_iff_ne.mpr hal, if_true]; rfl) (by decide) hact hvalid

/-- A CSR access of a level that its thread has not. -/
theorem csrOp_denied (rd : Nat) {kind rs1 csr : Nat} {old : Word} (h : s.issues t 4 0 []) (hact : (s.thread t).excActive = false)
    (hvalid : (s.handler (tCluster t) 0xF2).valid = true) (hlevel : (s.thread t).priv < csrLevel csr)
    (hcsr : csr < 4096) (hw : csrWritable csr = true) (hv : s.csrGet t csr = some old)
    (hk : kind = 0 ∧ rs1 % 32 = 0 ∨ kind ≠ 0 ∧ kind < 4) :
    ∃ word, s.tookExc (csrOp kind t rd rs1 csr s) t excPriv word (s.thread t).pc := by
  have hkind : kind < 4 ∧ (kind == 0 && rs1 % 32 != 0) = false := by
    rcases hk with ⟨rfl, h1⟩ | ⟨h0, h4⟩ <;> simp [*]
  unfold csrOp
  simp only [Nat.mod_eq_of_lt hcsr, hv, hkind, hw, decide_true, Option.isSome_some, Bool.not_false, Bool.or_true, Bool.and_true]
  exact ⟨_, h.tookExc (by decide) hact hvalid (State.issue_denied h _ _ hlevel)⟩

theorem State.tookExc.fields {v : State} {code : Nat} {eval epc : Word} (h : s.tookExc v t code eval epc) :
    (v.thread t).ecause = code ∧ (v.thread t).epc = epc ∧ (v.thread t).g = (s.thread t).g ∧
      (v.thread t).pc = (s.handler (tCluster t) (0xF0 + code)).pc := by
  rw [State.tookExc] at h
  rw [h]
  exact ⟨rfl, rfl, rfl, rfl⟩

/-- The CSRs of the exception state, as Supervisor and above see them. -/
theorem csr_of_mem {csr : Nat} (hm : csr ∈ [0x400, 0x401, 0x402, 0x403, 0x404, 0x405, 0x408, 0x409, 0x40A, 0x40B]) :
    csrLevel csr = 1 ∧ csr < 4096 ∧ csrWritable csr = true ∧ ∃ old, s.csrGet t csr = some old := by
  simp only [List.mem_cons, List.not_mem_nil, or_false] at hm
  obtain rfl | rfl | rfl | rfl | rfl | rfl | rfl | rfl | rfl | rfl := hm
  all_goals exact ⟨rfl, by decide, rfl, _, rfl⟩

/-- Settles O20: each exception by its rule above. -/
theorem exceptions : Obligations.Exceptions := by
  unfold Obligations.Exceptions
  refine ⟨?_, ?_, ?_, ?_, ?_, ?_⟩
  · intro s t rd rs1 imm code c h hact hrd h1 hc
    simp only [List.mem_cons, Prod.mk.injEq, List.not_mem_nil, or_false] at hc
    obtain ⟨rfl, rfl⟩ | ⟨rfl, rfl⟩ := hc
    · obtain ⟨htook, hstop⟩ := sysIssue_tookExc h 1 imm (code := 11) (eval := w64 (imm % 256)) hrd h1 (by decide) rfl
      exact ⟨_, rfl, htook hact, fun hinv => hstop (.inr hinv)⟩
    · obtain ⟨htook, hstop⟩ := sysIssue_tookExc h 3 imm (code := 12) (eval := w64 (imm % 256)) hrd h1 (by decide) rfl
      exact ⟨_, rfl, htook hact, fun hinv => hstop (.inr hinv)⟩
  · intro s t rd rs1 arg h hact hrd h1
    obtain ⟨p, hp⟩ := eret_thread rd rs1 arg h hact hrd h1
    exact ⟨_, p, rfl, hp⟩
  · intro s t rd rs1 arg kind n c h hact hvalid hc hbad
    simp only [List.mem_cons, Prod.mk.injEq, List.not_mem_nil, or_false] at hc
    obtain ⟨rfl, rfl, rfl⟩ | ⟨rfl, rfl, rfl⟩ | ⟨rfl, rfl, rfl⟩ | ⟨rfl, rfl, rfl⟩ := hc
    · exact ⟨_, rfl, sysIssue_illegal h 0 arg _ hact hvalid (by simpa using hbad)⟩
    · exact ⟨_, rfl, sysIssue_illegal h 1 arg _ hact hvalid (by simpa using hbad)⟩
    · exact ⟨_, rfl, sysIssue_illegal h 2 arg _ hact hvalid (by simp [hact])⟩
    · exact ⟨_, rfl, sysIssue_illegal h 3 arg _ hact hvalid (by simpa using hbad)⟩
  · intro s t rd rs1 imm a h hact ha hal hvalid
    exact ⟨_, rfl, jalr_misaligned rd h hact ha hal hvalid⟩
  · intro s t rd rs1 csr c h hact hpriv hvalid hm hc
    obtain ⟨hlevel, hcsr, hw, old, hv⟩ := csr_of_mem (s := s) (t := t) hm
    have hdenied {kind : Nat} (hk : kind = 0 ∧ rs1 % 32 = 0 ∨ kind ≠ 0 ∧ kind < 4) :=
      (csrOp_denied rd h hact hvalid (by omega) hcsr hw hv hk).choose_spec.fields
    obtain ⟨rfl, h1⟩ | rfl | rfl | rfl := hc
    · exact ⟨_, rfl, hdenied (.inl ⟨rfl, h1⟩)⟩
    · exact ⟨_, rfl, hdenied (.inr (by decide))⟩
    · exact ⟨_, rfl, hdenied (.inr (by decide))⟩
    · exact ⟨_, rfl, hdenied (.inr (by decide))⟩
  · rintro s t rd rs1 imm c h hact (rfl | rfl)
    · exact ⟨_, rfl, sysIssue_stops h 1 rd rs1 imm (by decide) hact, sys_only s t rd rs1 imm⟩
    · exact ⟨_, rfl, sysIssue_stops h 3 rd rs1 imm (by decide) hact, brk_only s t rd rs1 imm⟩

end Sys2Proof.Machine
end

section
open Sys2Proof Sys2Proof.Machine
namespace Sys2Proof.Machine

/-! ### Values of the integer operations (R88 to R90) -/

section
variable {a b : Word}

theorem w64_mod (n : Nat) : w64 (n % 2 ^ 64) = w64 n := BitVec.eq_of_toNat_eq (by simp [w64])
theorem w64_toNat_self (a : Word) : w64 a.toNat = a := by simp [w64]
theorem toNat_w64_of_lt {n : Nat} (h : n < 2 ^ 64) : (w64 n).toNat = n := by
  rw [w64, BitVec.toNat_ofNat, Nat.mod_eq_of_lt h]

theorem toSigned_congr {n x y : Nat} (h : x % 2 ^ n = y % 2 ^ n) : toSigned n x = toSigned n y := by simp only [toSigned, h]
theorem toSigned_mod (n x : Nat) : toSigned n (x % 2 ^ n) = toSigned n x := toSigned_congr (Nat.mod_mod _ _)
theorem toSigned_toNat (a : Word) : toSigned 64 a.toNat = a.toInt := by rw [toSigned_eq_toInt, BitVec.ofNat_toNat, BitVec.setWidth_eq]

theorem shiftLeft_eq_w64 (a : Word) (n : Nat) : a <<< n = w64 (a.toNat * 2 ^ n) :=
  BitVec.eq_of_toNat_eq (by simp [w64, Nat.shiftLeft_eq])
theorem ushiftRight_eq_w64 (a : Word) (n : Nat) : a >>> n = w64 (a.toNat / 2 ^ n) :=
  BitVec.eq_of_toNat_eq (by
    rw [BitVec.toNat_ushiftRight, Nat.shiftRight_eq_div_pow, toNat_w64_of_lt (lt_of_le_of_lt (Nat.div_le_self _ _) a.isLt)])
theorem sshiftRight_eq_ofInt (a : Word) (n : Nat) : a.sshiftRight n = BitVec.ofInt 64 (a.toInt / (2 ^ n : Nat)) := by
  rw [BitVec.sshiftRight, Int.shiftRight_eq_div_pow]

theorem sub_eq_w64 (a b : Word) : a - b = w64 (a.toNat + 2 ^ 64 - b.toNat) := by
  apply BitVec.eq_of_toNat_eq
  have := b.isLt
  rw [BitVec.toNat_sub, w64, BitVec.toNat_ofNat]
  congr 1
  omega

theorem ite_lt_eq_min_toInt (a b : Word) : (if a.toInt < b.toInt then a else b) = BitVec.ofInt 64 (min a.toInt b.toInt) := by
  split
  · next h => rw [min_eq_left h.le, BitVec.ofInt_toInt]
  · next h => rw [min_eq_right (not_lt.mp h), BitVec.ofInt_toInt]
theorem ite_lt_eq_max_toInt (a b : Word) : (if a.toInt < b.toInt then b else a) = BitVec.ofInt 64 (max a.toInt b.toInt) := by
  split
  · next h => rw [max_eq_right h.le, BitVec.ofInt_toInt]
  · next h => rw [max_eq_left (not_lt.mp h), BitVec.ofInt_toInt]
theorem ite_lt_eq_min_toNat (a b : Word) : (if a.toNat < b.toNat then a else b) = w64 (min a.toNat b.toNat) := by
  split
  · next h => rw [min_eq_left h.le, w64_toNat_self]
  · next h => rw [min_eq_right (not_lt.mp h), w64_toNat_self]
theorem ite_lt_eq_max_toNat (a b : Word) : (if a.toNat < b.toNat then b else a) = w64 (max a.toNat b.toNat) := by
  split
  · next h => rw [max_eq_right h.le, w64_toNat_self]
  · next h => rw [max_eq_left (not_lt.mp h), w64_toNat_self]

/-! Counting bits. -/

theorem leadingZeros_zero (n : Nat) : leadingZeros n 0 = n := by
  have hfind : (List.range n).find? (fun i => Nat.testBit 0 (n - 1 - i)) = none := by simp [List.find?_eq_none]
  rw [leadingZeros, hfind]; rfl
theorem leadingZeros_of_pos {n v : Nat} (hv : v ≠ 0) (hn : v < 2 ^ n) : leadingZeros n v = n - 1 - v.log2 := by
  have hlog : v.log2 < n := (Nat.log2_lt hv).mpr hn
  have hfind : (List.range n).find? (fun i => v.testBit (n - 1 - i)) = some (n - 1 - v.log2) := by
    rw [List.find?_range_eq_some]
    refine ⟨?_, by simp; omega, fun j hj => ?_⟩
    · rw [show n - 1 - (n - 1 - v.log2) = v.log2 by omega]
      exact Nat.testBit_log2 hv
    · have : v < 2 ^ (n - 1 - j) := lt_of_lt_of_le Nat.lt_log2_self (Nat.pow_le_pow_right (by decide) (by omega))
      simp [Nat.testBit_lt_two_pow this]
  rw [leadingZeros, hfind]; rfl

/-- The count of trailing zeros is the one number below which every bit is clear, and which, where it is a bit's, is set. -/
theorem trailingZeros_eq {n v k : Nat} (hk : k ≤ n) (hclear : ∀ i, i < k → v.testBit i = false) (hset : k < n → v.testBit k = true) :
    trailingZeros n v = k := by
  rcases hk.lt_or_eq with hlt | rfl
  · have hfind : (List.range n).find? (fun i => v.testBit i) = some k :=
      List.find?_range_eq_some.mpr ⟨hset hlt, by simpa using hlt, fun j hj => by simp [hclear j hj]⟩
    rw [trailingZeros, hfind]; rfl
  · have hfind : (List.range k).find? (fun i => v.testBit i) = none := by
      simpa [List.find?_eq_none] using hclear
    rw [trailingZeros, hfind]; rfl

theorem popcount_mod (n v : Nat) : popcount n (v % 2 ^ n) = popcount n v := by
  rw [popcount, popcount]
  congr 1
  refine List.filter_congr fun i hi => ?_
  rw [Nat.testBit_mod_two_pow, decide_eq_true (List.mem_range.mp hi), Bool.true_and]

/-! The 64-bit and the 32-bit operations. -/

theorem lo32_mod32 (b : Word) : lo32 b % 32 = b.toNat % 32 := Nat.mod_mod_of_dvd _ (by decide)

theorem alu32_shl (a b : Word) : alu32 5 a b = some (BitVec.ofInt 64 (toSigned 32 (a.toNat * 2 ^ (b.toNat % 32)))) := by
  rw [alu32, lo32_mod32, sext32_eq, lo32, toSigned_congr (Nat.mod_mul_mod _ _ _)]
theorem alu32_shr (a b : Word) : alu32 6 a b = some (BitVec.ofInt 64 (toSigned 32 (a.toNat % 2 ^ 32 / 2 ^ (b.toNat % 32)))) := by
  rw [alu32, lo32_mod32, sext32_eq, lo32]
theorem alu32_sar (a b : Word) : alu32 7 a b = some (BitVec.ofInt 64 (toSigned 32 a.toNat / (2 ^ (b.toNat % 32) : Nat))) := by
  rw [alu32, lo32_mod32, lo32, toSigned_mod]; rfl

/-- The value of each register operation on two registers. -/
theorem aluOp_of_mem {fn rs2 : Nat} {v : Word} (h : (fn, v) ∈ [(0x00, w64 (a.toNat + b.toNat)), (0x01, w64 (a.toNat + 2 ^ 64 - b.toNat)),
        (0x02, a &&& b), (0x03, a ||| b),
        (0x04, a ^^^ b), (0x05, w64 (a.toNat * 2 ^ (b.toNat % 64))), (0x06, w64 (a.toNat / 2 ^ (b.toNat % 64))),
        (0x07, BitVec.ofInt 64 (a.toInt / (2 ^ (b.toNat % 64) : Nat))), (0x08, if a.toInt < b.toInt then 1 else 0),
        (0x09, if a.toNat < b.toNat then 1 else 0), (0x0A, BitVec.ofInt 64 (min a.toInt b.toInt)),
        (0x0B, BitVec.ofInt 64 (max a.toInt b.toInt)), (0x0C, w64 (min a.toNat b.toNat)), (0x0D, w64 (max a.toNat b.toNat)),
        (0x11, a &&& ~~~ b),
        (0x400, BitVec.ofInt 64 (toSigned 32 (a.toNat + b.toNat))),
        (0x401, BitVec.ofInt 64 (toSigned 32 (a.toNat + 2 ^ 64 - b.toNat))),
        (0x405, BitVec.ofInt 64 (toSigned 32 (a.toNat * 2 ^ (b.toNat % 32)))),
        (0x406, BitVec.ofInt 64 (toSigned 32 (a.toNat % 2 ^ 32 / 2 ^ (b.toNat % 32)))),
        (0x407, BitVec.ofInt 64 (toSigned 32 a.toNat / (2 ^ (b.toNat % 32) : Nat)))]) : aluOp fn rs2 a b = some v := by
  have hb := b.isLt
  simp only [List.mem_cons, Prod.mk.injEq, List.not_mem_nil, or_false] at h
  obtain ⟨rfl, rfl⟩ | ⟨rfl, rfl⟩ | ⟨rfl, rfl⟩ | ⟨rfl, rfl⟩ | ⟨rfl, rfl⟩ | ⟨rfl, rfl⟩ | ⟨rfl, rfl⟩ | ⟨rfl, rfl⟩ | ⟨rfl, rfl⟩ |
    ⟨rfl, rfl⟩ | ⟨rfl, rfl⟩ | ⟨rfl, rfl⟩ | ⟨rfl, rfl⟩ | ⟨rfl, rfl⟩ | ⟨rfl, rfl⟩ | ⟨rfl, rfl⟩ | ⟨rfl, rfl⟩ | ⟨rfl, rfl⟩ | ⟨rfl, rfl⟩ |
    ⟨rfl, rfl⟩ := h
  · exact congrArg some (BitVec.eq_of_toNat_eq (BitVec.toNat_add a b))
  · exact congrArg some (sub_eq_w64 a b)
  · rfl
  · rfl
  · rfl
  · exact congrArg some (shiftLeft_eq_w64 a _)
  · exact congrArg some (ushiftRight_eq_w64 a _)
  · exact congrArg some (sshiftRight_eq_ofInt a _)
  · rfl
  · rfl
  · exact congrArg some (ite_lt_eq_min_toInt a b)
  · exact congrArg some (ite_lt_eq_max_toInt a b)
  · exact congrArg some (ite_lt_eq_min_toNat a b)
  · exact congrArg some (ite_lt_eq_max_toNat a b)
  · rfl
  · refine congrArg some ((sext32_eq _).trans (congrArg _ (toSigned_congr ?_)))
    exact (Nat.add_mod _ _ _).symm
  · refine congrArg some ((sext32_eq _).trans (congrArg _ (toSigned_congr ?_)))
    simp only [lo32]; omega
  · exact alu32_shl a b
  · exact alu32_shr a b
  · exact alu32_sar a b

/-- The check of the rs2 field of an operation on one register. -/
theorem ite_rs2_zero {rs2 op : Nat} (h2 : rs2 % 32 = 0) (w : Option Word) :
    (if (op == 0x0E || op == 0x0F || op == 0x10 || op == 0x12) && rs2 % 32 != 0 then none else w) = w := by
  simp [h2]

/-- The value of each register operation on one register. -/
theorem aluOp_unary_of_mem {fn rs2 : Nat} {v : Word} (h2 : rs2 % 32 = 0) (h : (fn, v) ∈ [
        (0x0E, if a = 0 then 64 else w64 (63 - a.toNat.log2)),
        (0x10, w64 ((List.range 64).filter fun i => a.getLsbD i).length),
        (0x12, w64 (leNat (leBytes 8 a.toNat).reverse)),
        (0x40E, if a.toNat % 2 ^ 32 = 0 then 32 else w64 (31 - (a.toNat % 2 ^ 32).log2)),
        (0x410, w64 ((List.range 32).filter fun i => a.getLsbD i).length)]) : aluOp fn rs2 a b = some v := by
  simp only [List.mem_cons, Prod.mk.injEq, List.not_mem_nil, or_false] at h
  obtain ⟨rfl, rfl⟩ | ⟨rfl, rfl⟩ | ⟨rfl, rfl⟩ | ⟨rfl, rfl⟩ | ⟨rfl, rfl⟩ := h
  · refine (ite_rs2_zero h2 (op := 0x0E) _).trans (congrArg some ?_)
    split
    · next ha => rw [ha]; rfl
    · next ha => rw [leadingZeros_of_pos (fun h => ha (BitVec.eq_of_toNat_eq h)) a.isLt]
  · exact ite_rs2_zero h2 (op := 0x10) _
  · exact ite_rs2_zero h2 (op := 0x12) _
  · refine (ite_rs2_zero h2 (op := 0x0E) _).trans (congrArg some ?_)
    rw [lo32]
    split
    · next ha => rw [ha, leadingZeros_zero]; rfl
    · next ha => rw [leadingZeros_of_pos ha (Nat.mod_lt _ (by decide))]
  · refine (ite_rs2_zero h2 (op := 0x10) _).trans (congrArg (some ∘ w64) ?_)
    exact popcount_mod 32 a.toNat

theorem aluOp_trailing {rs2 : Nat} {v : Word} (h2 : rs2 % 32 = 0) (hle : v.toNat ≤ 64) (hclear : ∀ i, i < v.toNat → a.getLsbD i = false)
    (hset : v.toNat < 64 → a.getLsbD v.toNat = true) : aluOp 0x0F rs2 a b = some v := by
  have hvalue : alu64 0x0F a b = some v := congrArg some ((congrArg w64 (trailingZeros_eq hle hclear hset)).trans (w64_toNat_self v))
  exact (ite_rs2_zero h2 (op := 0x0F) _).trans hvalue

/-! Multiplication and division. -/

theorem toInt_eq_zero_iff : a.toInt = 0 ↔ a = 0 :=
  ⟨fun h => BitVec.eq_of_toInt_eq (h.trans BitVec.toInt_zero.symm), fun h => by rw [h]; rfl⟩

/-- A signed quotient as the low bits: the overflow of R89 is the wrap of the mathematical quotient. -/
theorem divideS_quot (x y : Int) : BitVec.ofInt 64 (divideS 64 x y).1 = if y = 0 then BitVec.allOnes 64 else BitVec.ofInt 64 (x.tdiv y) := by
  unfold divideS
  split
  · rfl
  split
  · next h => obtain ⟨rfl, rfl⟩ := h; rfl
  · rfl
theorem divideS_rem (n : Nat) (x y : Int) : (divideS n x y).2 = if y = 0 then x else x.tmod y := by
  unfold divideS
  split
  · rfl
  split
  · next h => obtain ⟨rfl, rfl⟩ := h; simp
  · rfl
theorem ofSigned_divideS_quot32 (x y : Int) :
    ofSigned 32 (divideS 32 x y).1 = if y = 0 then 2 ^ 32 - 1 else ofSigned 32 (x.tdiv y) := by
  unfold divideS
  split
  · rfl
  split
  · next h => obtain ⟨rfl, rfl⟩ := h; rfl
  · rfl

/-- The value of each multiplication and division of 64 bits. -/
theorem mulDivOp_of_mem {fn : Nat} {v : Word} (h : (fn, v) ∈ [(0, w64 (a.toNat * b.toNat)),
      (1, BitVec.ofInt 64 (a.toInt * b.toInt / (2 ^ 64 : Nat))), (2, w64 (a.toNat * b.toNat / 2 ^ 64)),
      (4, if b = 0 then BitVec.allOnes 64 else BitVec.ofInt 64 (a.toInt.tdiv b.toInt)),
      (5, if b = 0 then BitVec.allOnes 64 else w64 (a.toNat / b.toNat)),
      (6, if b = 0 then a else BitVec.ofInt 64 (a.toInt.tmod b.toInt)), (7, if b = 0 then a else w64 (a.toNat % b.toNat))]) :
    fn < 8 ∧ ∃ x, mulDivOp 64 fn a.toNat b.toNat = some x ∧ w64 x = v := by
  have hb0 : b.toNat = 0 ↔ b = 0 := ⟨fun h => BitVec.eq_of_toNat_eq h, fun h => by rw [h]; rfl⟩
  simp only [List.mem_cons, Prod.mk.injEq, List.not_mem_nil, or_false] at h
  obtain ⟨rfl, rfl⟩ | ⟨rfl, rfl⟩ | ⟨rfl, rfl⟩ | ⟨rfl, rfl⟩ | ⟨rfl, rfl⟩ | ⟨rfl, rfl⟩ | ⟨rfl, rfl⟩ := h
  all_goals refine ⟨by decide, _, rfl, ?_⟩
  · exact w64_mod _
  · rw [w64_ofSigned, toSigned_toNat, toSigned_toNat]
  · rfl
  · rw [w64_ofSigned, toSigned_toNat, toSigned_toNat, divideS_quot]
    simp only [toInt_eq_zero_iff]
  · simp only [divideU, hb0]
    split <;> rfl
  · rw [w64_ofSigned, toSigned_toNat, toSigned_toNat, divideS_rem]
    simp only [toInt_eq_zero_iff]
    split
    · exact BitVec.ofInt_toInt
    · rfl
  · simp only [divideU, hb0]
    split
    · exact w64_toNat_self a
    · rfl

/-- The same of 32 bits: the result is the number of the table. -/
theorem mulDivOp32_of_mem {fn x a b : Nat} (ha : a < 2 ^ 32) (hb : b < 2 ^ 32)
    (h : (fn, x) ∈ [(0x400, a * b % 2 ^ 32), (0x405, if b = 0 then 2 ^ 32 - 1 else a / b), (0x407, if b = 0 then a else a % b),
      (0x404, if b = 0 then 2 ^ 32 - 1 else ofSigned 32 ((toSigned 32 a).tdiv (toSigned 32 b))),
      (0x406, if b = 0 then a else ofSigned 32 ((toSigned 32 a).tmod (toSigned 32 b)))]) :
    mulDivOp 32 (fn % 8) a b = some x ∧ x < 2 ^ 32 ∧ fn / 1024 = 1 ∧ nbits fn 9 3 = 0 ∧ fn % 8 ≠ 1 ∧ fn % 8 ≠ 2 := by
  have hb0 : toSigned 32 b = 0 ↔ b = 0 := by
    rw [toSigned, Nat.mod_eq_of_lt hb]; split <;> omega
  have hsame : ofSigned 32 (toSigned 32 a) = a := by
    rw [ofSigned, toSigned, Nat.mod_eq_of_lt ha]; split <;> omega
  simp only [List.mem_cons, Prod.mk.injEq, List.not_mem_nil, or_false] at h
  obtain ⟨rfl, rfl⟩ | ⟨rfl, rfl⟩ | ⟨rfl, rfl⟩ | ⟨rfl, rfl⟩ | ⟨rfl, rfl⟩ := h
  · exact ⟨rfl, Nat.mod_lt _ (by decide), by decide⟩
  · refine ⟨congrArg some ?_, ?_, by decide⟩
    · rw [divideU]; split <;> rfl
    · split
      · decide
      · exact lt_of_le_of_lt (Nat.div_le_self a b) ha
  · refine ⟨congrArg some ?_, ?_, by decide⟩
    · rw [divideU]; split <;> rfl
    · split
      · exact ha
      · exact lt_of_le_of_lt (Nat.mod_le a b) ha
  · refine ⟨congrArg some ?_, ?_, by decide⟩
    · rw [ofSigned_divideS_quot32]; simp only [hb0]
    · split
      · decide
      · exact ofSigned_lt _ _
  · refine ⟨congrArg some ?_, ?_, by decide⟩
    · rw [divideS_rem]; simp only [hb0]
      split
      · exact hsame
      · rfl
    · split
      · exact ha
      · exact ofSigned_lt _ _

theorem putW_low (f : Word) {x : Nat} (hx : x < 2 ^ 32) : (putW f 31 0 x).toNat % 2 ^ 32 = x := by
  have := f.isLt
  simp only [putW, bitsW, w64, BitVec.toNat_ofNat]
  omega

/-! Immediates. -/

theorem nbit_eq_decide (n i : Nat) : nbit n i = decide (n / 2 ^ i % 2 = 1) := Nat.testBit_eq_decide_div_mod_eq

theorem shiftImm64 {k n : Nat} (hk : k < 3) (hn : n < 64) (a : Word) : shiftImm (64 * k + n) a = alu64 (5 + k) a (w64 n) := by
  have hkind : nbits (64 * k + n) 7 6 = k := by unfold nbits; omega
  have hw : nbit (64 * k + n) 8 = false := by rw [nbit_eq_decide]; simp; omega
  have hres : nbits (64 * k + n) 15 9 = 0 := by unfold nbits; omega
  have hk3 : (k == 3) = false := by simp; omega
  simp [shiftImm, hkind, hw, hres, hk3, Nat.mod_eq_of_lt hn]

theorem shiftImm32 {k n : Nat} (hk : k < 3) (hn : n < 32) (a : Word) : shiftImm (256 + 64 * k + n) a = alu32 (5 + k) a (w64 n) := by
  have hkind : nbits (256 + 64 * k + n) 7 6 = k := by unfold nbits; omega
  have hw : nbit (256 + 64 * k + n) 8 = true := by rw [nbit_eq_decide]; simp; omega
  have h5 : nbit (256 + 64 * k + n) 5 = false := by rw [nbit_eq_decide]; simp; omega
  have hres : nbits (256 + 64 * k + n) 15 9 = 0 := by unfold nbits; omega
  have hk3 : (k == 3) = false := by simp; omega
  have hamt : (256 + 64 * k + n) % 64 = n := by omega
  simp [shiftImm, hkind, hw, h5, hres, hk3, hamt]

theorem toNat_w64_mod {n m : Nat} (hn : n < m) (hm : m < 2 ^ 64) : (w64 n).toNat % m = n := by
  rw [toNat_w64_of_lt (by omega), Nat.mod_eq_of_lt hn]

theorem immOp_shift64 {n imm imm2 rs1 : Nat} {v : Word} (hn : n < 64)
    (h : (imm, v) ∈ [(n, a <<< n), (64 + n, a >>> n), (128 + n, a.sshiftRight n)]) : immOp 0x08 rs1 imm imm2 a = some v := by
  have hshift {k : Nat} (hk : k < 3) : immOp 0x08 rs1 (64 * k + n) imm2 a = alu64 (5 + k) a (w64 n) := by
    rw [← shiftImm64 hk hn, ← Nat.mod_eq_of_lt (show 64 * k + n < 2 ^ 16 by omega)]
    simp only [immOp, Nat.mod_mod]
  have hamt := toNat_w64_mod hn (by decide)
  simp only [List.mem_cons, Prod.mk.injEq, List.not_mem_nil, or_false] at h
  obtain ⟨rfl, rfl⟩ | ⟨rfl, rfl⟩ | ⟨rfl, rfl⟩ := h
  · have h0 := hshift (k := 0) (by decide)
    rw [Nat.mul_zero, Nat.zero_add] at h0
    rw [h0, alu64, hamt]
  · rw [hshift (k := 1) (by decide), alu64, hamt]
  · rw [hshift (k := 2) (by decide), alu64, hamt]

theorem immOp_shift32 {n imm imm2 rs1 : Nat} {v : Word} (hn : n < 32)
    (h : (imm, v) ∈ [(256 + n, BitVec.ofInt 64 (toSigned 32 (a.toNat * 2 ^ n))),
        (320 + n, BitVec.ofInt 64 (toSigned 32 (a.toNat % 2 ^ 32 / 2 ^ n))), (384 + n, BitVec.ofInt 64 (toSigned 32 a.toNat / (2 ^ n : Nat)))]) :
    immOp 0x08 rs1 imm imm2 a = some v := by
  have hshift {k : Nat} (hk : k < 3) : immOp 0x08 rs1 (256 + 64 * k + n) imm2 a = alu32 (5 + k) a (w64 n) := by
    rw [← shiftImm32 hk hn, ← Nat.mod_eq_of_lt (show 256 + 64 * k + n < 2 ^ 16 by omega)]
    simp only [immOp, Nat.mod_mod]
  have hamt := toNat_w64_mod hn (by decide)
  simp only [List.mem_cons, Prod.mk.injEq, List.not_mem_nil, or_false] at h
  obtain ⟨rfl, rfl⟩ | ⟨rfl, rfl⟩ | ⟨rfl, rfl⟩ := h
  · rw [hshift (k := 0) (by decide), alu32_shl, hamt]
  · rw [hshift (k := 1) (by decide), alu32_shr, hamt]
  · rw [hshift (k := 2) (by decide), alu32_sar, hamt]

theorem immOp_bfx {pos l imm imm2 rs1 : Nat} {v : Word} (hpl : pos + l + 1 ≤ 64)
    (h : (imm, v) ∈ [(64 * l + pos, w64 (a.toNat / 2 ^ pos % 2 ^ (l + 1))),
        (4096 + 64 * l + pos, BitVec.ofInt 64 (toSigned (l + 1) (a.toNat / 2 ^ pos)))]) : immOp 0x0F rs1 imm imm2 a = some v := by
  have hfields {b imm : Nat} (hb : b < 2) (himm : imm = 4096 * b + 64 * l + pos) : imm % 2 ^ 16 = imm ∧ imm % 64 = pos ∧
      nbits imm 11 6 = l ∧ nbits imm 15 13 = 0 ∧ nbit imm 12 = decide (b = 1) := by
    refine ⟨by omega, by omega, by unfold nbits; omega, by unfold nbits; omega, ?_⟩
    rw [nbit_eq_decide, decide_eq_decide]; omega
  have hlen : ¬ 64 < pos + (l + 1) := by omega
  simp only [List.mem_cons, Prod.mk.injEq, List.not_mem_nil, or_false] at h
  obtain ⟨rfl, rfl⟩ | ⟨rfl, rfl⟩ := h
  · obtain ⟨hmod, hpos, hl, hres, hsign⟩ := hfields (b := 0) (imm := 64 * l + pos) (by decide) (by omega)
    simp only [immOp, hmod]
    simp [bfx, hpos, hl, hres, hsign, hlen]
  · obtain ⟨hmod, hpos, hl, hres, hsign⟩ := hfields (b := 1) (imm := 4096 + 64 * l + pos) (by decide) (by omega)
    simp only [immOp, hmod]
    simp [bfx, hpos, hl, hres, hsign, hlen, w64_ofSigned, toSigned_mod]

/-- The immediate operations of one word that neither shift nor extract. -/
theorem immOp_of_mem {op imm imm2 rs1 : Nat} {i v : Word} (hi : i = (BitVec.ofNat 16 imm).signExtend 64)
    (h : (op, v) ∈ [(0x04, a + i), (0x05, a &&& w64 (imm % 2 ^ 16)), (0x06, a ||| w64 (imm % 2 ^ 16)), (0x07, a ^^^ w64 (imm % 2 ^ 16)),
        (0x09, if a.toInt < i.toInt then 1 else 0), (0x0A, if a.toNat < i.toNat then 1 else 0)]) : immOp op rs1 imm imm2 a = some v := by
  rw [← sext16_eq] at hi
  subst hi
  simp only [List.mem_cons, Prod.mk.injEq, List.not_mem_nil, or_false] at h
  obtain ⟨rfl, rfl⟩ | ⟨rfl, rfl⟩ | ⟨rfl, rfl⟩ | ⟨rfl, rfl⟩ | ⟨rfl, rfl⟩ | ⟨rfl, rfl⟩ := h
  all_goals rfl

theorem immOp_upper {imm imm2 rs1 : Nat} (h1 : rs1 % 32 = 0) :
    immOp 0x0B rs1 imm imm2 a = some (BitVec.ofInt 64 (toSigned 32 (imm % 2 ^ 16 * 2 ^ 16))) := by
  simp [immOp, h1, sext32_eq]

theorem immOp_formatX {op imm imm2 rs1 : Nat} {j v : Word} (hj : j = (BitVec.ofNat 32 imm2).signExtend 64) (himm : imm % 2 ^ 16 = 0)
    (h : rs1 % 32 = 0 ∧ op = 0x0C ∧ v = j ∨ (op, v) ∈ [(0x0D, w64 (a.toNat % 2 ^ 32 + imm2 % 2 ^ 32 * 2 ^ 32)), (0x0E, a + j)]) :
    immOp op rs1 imm imm2 a = some v := by
  have hsext : sext32 imm2 = j := by rw [hj, sext32_eq, toSigned_eq_toInt]; rfl
  simp only [List.mem_cons, Prod.mk.injEq, List.not_mem_nil, or_false] at h
  obtain ⟨h1, rfl, rfl⟩ | ⟨rfl, rfl⟩ | ⟨rfl, rfl⟩ := h
  · simp only [immOp, h1, himm, hsext]; rfl
  · simp only [immOp, himm]; rfl
  · simp only [immOp, himm, hsext]; rfl

end

/-! ### The integer instructions (R88 to R90) -/

variable {s : State} {t : Nat}

theorem aluReg_thread (rd : Nat) {rs1 rs2 fn : Nat} {v : Word} (h : s.issues t 4 0 [rs1 % 32, rs2 % 32])
    (hv : aluOp fn rs2 (s.reg t (rs1 % 32)) (s.reg t (rs2 % 32)) = some v) :
    (aluReg t rd rs1 rs2 fn s).thread t = (s.thread t).wrote (rd % 32) v 4 := by
  unfold aluReg
  rw [hv]
  exact State.issue_wrote h _ (Nat.le_refl _) (fun _ hi => hi) _ h.thread rfl

theorem aluImm_thread (rd : Nat) {op rs1 imm imm2 len : Nat} {v : Word} (hlen : len = if op = 0x0C ∨ op = 0x0D ∨ op = 0x0E then 8 else 4)
    (h : s.issues t len 0 [rs1 % 32]) (hv : immOp op rs1 imm imm2 (s.reg t (rs1 % 32)) = some v) :
    (aluImm t op rd rs1 imm imm2 s).thread t = (s.thread t).wrote (rd % 32) v len := by
  have hX : (if isFormatX op then 8 else 4) = len := by simp [hlen, isFormatX, or_assoc]
  unfold aluImm
  simp only [hv, hX]
  exact State.issue_wrote h _ (Nat.le_refl _) (fun _ hi => hi) _ h.thread rfl

theorem mulDiv_thread (rd : Nat) {rs1 rs2 fn x : Nat} (h : s.issues t 4 0 [rs1 % 32, rs2 % 32]) (hfn : fn < 8)
    (hx : mulDivOp 64 fn (s.reg t (rs1 % 32)).toNat (s.reg t (rs2 % 32)).toNat = some x) :
    (mulDiv t rd rs1 rs2 fn s).thread t = (s.thread t).wrote (rd % 32) (w64 x) 4 := by
  have hw : nbit fn 10 = false := by rw [nbit_eq_decide]; simp; omega
  have hres : nbits fn 9 3 = 0 := by unfold nbits; omega
  unfold mulDiv
  simp only [hw, hres, Nat.mod_eq_of_lt hfn, hx, bne_self_eq_false, Bool.false_and, Bool.or_false, Bool.false_eq_true, if_false]
  exact State.issue_wrote h _ (Nat.le_refl _) (fun _ hi => hi) _ h.thread rfl

theorem mulDivW_thread (rd : Nat) {rs1 rs2 fn x : Nat} (h : s.issues t 4 0 [rs1 % 32, rs2 % 32]) (hfn : fn / 1024 = 1)
    (hres : nbits fn 9 3 = 0) (h1 : fn % 8 ≠ 1) (h2 : fn % 8 ≠ 2)
    (hx : mulDivOp 32 (fn % 8) (lo32 (s.reg t (rs1 % 32))) (lo32 (s.reg t (rs2 % 32))) = some x) :
    ∃ f, (mulDiv t rd rs1 rs2 fn s).thread t = (s.thread t).wrote (rd % 32) (putW f 31 0 x) 4 := by
  have hw : nbit fn 10 = true := by rw [nbit_eq_decide]; simp; omega
  unfold mulDiv
  simp only [hw, hres, hx, beq_eq_false_iff_ne.mpr h1, beq_eq_false_iff_ne.mpr h2, bne_self_eq_false, Bool.or_false, Bool.and_false,
    Bool.false_eq_true, if_false, if_true]
  exact ⟨_, State.issue_wrote h _ (Nat.le_refl _) (fun _ hi => hi) _ (u := (s.fetched t 4).freeWord.2) h.thread rfl⟩

/-- Settles O15: each instruction writes the value of its operation, and the values are those of the tables. -/
theorem integerInstructions : Obligations.IntegerInstructions := by
  unfold Obligations.IntegerInstructions
  refine ⟨?_, ?_, ?_, ?_⟩
  · rintro s t rd rs1 rs2 fn a b v h rfl rfl (hv | ⟨h2, hv⟩ | ⟨h2, rfl, hle, hclear, hset⟩)
    · exact ⟨_, rfl, aluReg_thread rd h (aluOp_of_mem hv)⟩
    · exact ⟨_, rfl, aluReg_thread rd h (aluOp_unary_of_mem h2 hv)⟩
    · exact ⟨_, rfl, aluReg_thread rd h (aluOp_trailing h2 hle hclear hset)⟩
  · rintro s t rd rs1 rs2 fn a b v h rfl rfl hv
    obtain ⟨hfn, x, hx, rfl⟩ := mulDivOp_of_mem hv
    exact ⟨_, rfl, mulDiv_thread rd h hfn hx⟩
  · rintro s t rd rs1 rs2 fn a b x h rfl rfl hv
    obtain ⟨hx, hlt, hfn, hres, h1, h2⟩ := mulDivOp32_of_mem (Nat.mod_lt _ (by decide)) (Nat.mod_lt _ (by decide)) hv
    obtain ⟨f, hend⟩ := mulDivW_thread rd h hfn hres h1 h2 hx
    exact ⟨_, _, rfl, putW_low f hlt, hend⟩
  · rintro s t op rd rs1 imm imm2 len a i j v hlen h rfl hi hj hv
    refine ⟨_, rfl, aluImm_thread rd hlen h ?_⟩
    obtain hv | ⟨h1, rfl, rfl⟩ | ⟨himm, hv⟩ | ⟨n, hn, rfl, hv⟩ | ⟨n, hn, rfl, hv⟩ | ⟨pos, l, hpl, rfl, hv⟩ := hv
    · exact immOp_of_mem hi hv
    · exact immOp_upper h1
    · exact immOp_formatX hj himm hv
    · exact immOp_shift64 hn hv
    · exact immOp_shift32 hn hv
    · exact immOp_bfx hpl hv

end Sys2Proof.Machine
end

section
open Sys2Proof Sys2Proof.Machine
namespace Sys2Proof

/-! ### Bytes of a number -/

theorem length_leBytes (n v : Nat) : (leBytes n v).length = n := by
  induction n generalizing v with
  | zero => rfl
  | succ n ih => rw [leBytes, List.length_cons, ih]

theorem getElem?_leBytes {n i : Nat} (v : Nat) (hi : i < n) : (leBytes n v)[i]? = some (BitVec.ofNat 8 (v / 256 ^ i)) := by
  induction n generalizing v i with
  | zero => omega
  | succ n ih =>
    cases i with
    | zero => simp [leBytes]
    | succ i => rw [leBytes, List.getElem?_cons_succ, ih _ (by omega), Nat.div_div_eq_div_mul, pow_succ']

/-- The bytes of a number below the 64th bit are those of the word. -/
theorem byte_w64 (x : Nat) {i : Nat} (hi : i < 8) : BitVec.ofNat 8 ((w64 x).toNat / 256 ^ i) = BitVec.ofNat 8 (x / 256 ^ i) := by
  have hsplit : 2 ^ 64 = 256 ^ i * 256 ^ (8 - i) := by rw [← pow_add, show i + (8 - i) = 8 by omega]; rfl
  have hdvd : 2 ^ 8 ∣ 256 ^ (8 - i) := dvd_pow_self 256 (by omega)
  apply BitVec.eq_of_toNat_eq
  rw [w64, BitVec.toNat_ofNat, BitVec.toNat_ofNat, BitVec.toNat_ofNat, hsplit, Nat.mod_mul_right_div_self, Nat.mod_mod_of_dvd _ hdvd]

theorem leBytes_w64 {n : Nat} (hn : n ≤ 8) (x : Nat) : leBytes n (w64 x).toNat = leBytes n x := by
  refine List.ext_getElem? fun i => ?_
  by_cases hi : i < n
  · rw [getElem?_leBytes _ hi, getElem?_leBytes _ hi, byte_w64 x (by omega)]
  · rw [List.getElem?_eq_none (by rw [length_leBytes]; omega), List.getElem?_eq_none (by rw [length_leBytes]; omega)]

theorem leNat_lt (bs : List Byte) : leNat bs < 256 ^ bs.length := by
  induction bs with
  | nil => decide
  | cons b bs ih =>
    have := b.isLt
    rw [leNat, List.length_cons, pow_succ']
    omega

theorem length_readN (m : Memory) (k n : Nat) : (m.readN k n).length = n := by
  induction n generalizing k with
  | zero => rfl
  | succ n ih => rw [Memory.readN, List.length_cons, ih]

theorem length_byteSlice (bs : List Byte) (i n : Nat) : (byteSlice bs i n).length = n := by
  simp [byteSlice, zeroBytes]

end Sys2Proof
namespace Sys2Proof.Machine

/-! ### What the fetch leaves of the near memories (R64 to R66, R200, R239) -/

variable {s u : State} {t len level : Nat} {srcs : List Nat}

theorem State.Cached.half (h : s.Cached u) (r : Nat) : u.half r = s.half r := by
  have hhalted : u.adapterHalted = s.adapterHalted := by simp only [State.adapterHalted, State.inSafe, h.tgf]
  rw [State.half, State.half, h.net, hhalted]

theorem State.Cached.inflight (h : s.Cached u) (r : Nat) : u.inflight r = s.inflight r := by
  have hsends : u.sendsOn r = s.sendsOn r := by funext o; rw [State.sendsOn, State.sendsOn, h.half]
  rw [State.inflight, State.inflight, h.half, h.ops, hsends]

theorem State.Cached.hotBytes (h : s.Cached u) (r : Nat) : u.hotBytes r = s.hotBytes r := by
  simp only [State.hotBytes, h.half, h.inflight]

theorem State.Cached.profileBytes (h : s.Cached u) (i : Nat) : u.profileBytes i = s.profileBytes i := by
  have hrd (r : RegDesc) (hr : 0x6008000 ≤ r.base) : u.rd r [i] = s.rd r [i] :=
    h.rd r [i] (ne_of_gt (lt_of_lt_of_le (b := r.base) (lt_of_lt_of_le (by decide) hr) (Nat.le_add_right _ _)))
  simp only [State.profileBytes, List.flatMap_cons, List.flatMap_nil, hrd R.SLD_WIN_LIMITS (by decide), hrd R.SLD_WIN_CTRL (by decide),
    hrd R.SLD_WIN_RETX (by decide), hrd R.SLD_WIN_REFUSE (by decide)]

theorem State.Cached.csmNat (h : s.Cached u) (c o n : Nat) : u.csmNat c o n = s.csmNat c o n := by
  simp only [State.csmNat, State.mnat, h.net, h.hotBytes, h.profileBytes, h.mem]

theorem State.issues.csmNat (h : s.issues t len level srcs) (c o n : Nat) : (s.fetched t len).csmNat c o n = s.csmNat c o n :=
  h.looked.csmNat c o n

theorem State.issues.mnat (h : s.issues t len level srcs) (k n : Nat) : (s.fetched t len).mnat k n = s.mnat k n := by
  rw [State.mnat, State.mnat, h.mem]

theorem State.issues.bad (h : s.issues t len level srcs) (k n : Nat) : (s.fetched t len).bad k n = s.bad k n := by
  simp only [State.bad, show (s.fetched t len).poison = s.poison from h.looked.poison]

/-- A near access goes where it would have gone before the fetch. -/
theorem State.issues.nearPlace (h : s.issues t len level srcs) (a n : Nat) (use : Use) :
    (s.fetched t len).nearPlace t a n use = s.nearPlace t a n use := by
  have hfd (f : Fld) (hf : f.reg = R.CLU_CSM_UWIN) (c : Nat) : (s.fetched t len).fd f [c] = s.fd f [c] := by
    simp only [State.fd, hf]
    rw [show (s.fetched t len).rd R.CLU_CSM_UWIN [c] = s.rd R.CLU_CSM_UWIN [c] from
      h.looked.rd _ _ (ne_of_gt (lt_of_lt_of_le (b := R.CLU_CSM_UWIN.base) (by decide) (Nat.le_add_right _ _)))]
  have hldm : (s.fetched t len).ldmOk t a n = s.ldmOk t a n := by rw [State.ldmOk, State.ldmOk, h.thread]
  have hcsm (o : Nat) : (s.fetched t len).csmOk t o use = s.csmOk t o use := by
    rw [State.csmOk, State.csmOk, h.thread, hfd F.CLU_CSM_UWIN_BASE rfl, hfd F.CLU_CSM_UWIN_LIMIT rfl]
  rw [State.nearPlace, State.nearPlace, hldm, h.thread]
  simp only [hcsm]

theorem State.mnat_lt (s : State) (k n : Nat) : s.mnat k n < 256 ^ n := by
  have := leNat_lt (s.mem.readN k n); rwa [length_readN] at this

/-- What a near read gives is a number of its size. -/
theorem State.csmNat_lt (s : State) (c o n : Nat) : s.csmNat c o n < 256 ^ n := by
  have hmem (k : Nat) : s.mnat k n < 256 ^ n := State.mnat_lt s k n
  have hslice (bs : List Byte) (i : Nat) : leNat (byteSlice bs i n) < 256 ^ n := by
    have := leNat_lt (byteSlice bs i n); rwa [length_byteSlice] at this
  unfold State.csmNat
  dsimp only
  (repeat' split) <;> simp only [hmem, hslice]

/-! ### Near loads, stores and atomics (R64 to R66, R69, R91, R93) -/

/-- A near access with a key is one of the local or of the shared memory. Both functions are opened as constants, not at their arguments:
the kernel would else evaluate the place itself. -/
theorem State.nearPlace_of_key {a n key : Nat} {use : Use} (h : s.nearKey t a n use = some key) :
    (∃ o, s.nearPlace t a n use = .ldm o ∧ key = ldmKey (tEngine t) o ∧ s.nearValue t a n use = s.mnat key n) ∨
    (∃ o, s.nearPlace t a n use = .csm o ∧ key = csmKey (tCluster t) o ∧ s.nearValue t a n use = s.csmNat (tCluster t) o n) := by
  generalize hkey : @State.nearKey = f at h
  generalize hvalue : @State.nearValue = g
  delta State.nearKey at hkey
  delta State.nearValue at hvalue
  subst hkey hvalue
  beta_reduce at h ⊢
  generalize s.nearPlace t a n use = p at h ⊢
  cases p with
  | ldm o => cases h; exact .inl ⟨o, rfl, rfl, rfl⟩
  | csm o => cases h; exact .inr ⟨o, rfl, rfl, rfl⟩
  | control x => cases h
  | far ask p hbm => cases h
  | exc code => cases h
  | wait => cases h

theorem State.nearValue_lt {a n key : Nat} {use : Use} (h : s.nearKey t a n use = some key) : s.nearValue t a n use < 256 ^ n := by
  obtain ⟨o, -, -, hv⟩ | ⟨o, -, -, hv⟩ := State.nearPlace_of_key h
  · rw [hv]; exact State.mnat_lt _ _ _
  · rw [hv]; exact State.csmNat_lt _ _ _ _

theorem bitW_63 {a : Word} : bitW a 63 = decide (2 ^ 63 ≤ a.toNat) := by
  have := a.isLt
  rw [bitW, BitVec.getLsbD, Nat.testBit_eq_decide_div_mod_eq, decide_eq_decide]
  omega

theorem State.issues.badReg (h : s.issues t len level srcs) {srcs' : List Nat} (hsub : ∀ i ∈ srcs', i ∈ srcs) {u : State}
    (hu : (u.thread t).badRegs = (s.thread t).badRegs) : u.badReg t srcs' = none := by
  simp only [State.badReg, hu, List.find?_eq_none]
  exact fun i hi => by simp [h.goodReg (hsub i hi)]

/-- A permitted near access comes to its place. -/
theorem State.issues.access_near (h : s.issues t len level srcs) {a : Word} {n : Nat} (use : Use) {srcs' : List Nat} (again : Bool)
    (k : EngPlace → State → State) {p : EngPlace} (hal : a.toNat % n = 0) (hnear : 2 ^ 63 ≤ a.toNat) (hsub : ∀ i ∈ srcs', i ∈ srcs)
    (hp : s.nearPlace t a.toNat n use = p) (hplace : (∃ o, p = .ldm o) ∨ ∃ o, p = .csm o) :
    (s.fetched t len).access t a n use srcs' again k = k p (s.fetched t len) := by
  have hgood := h.badReg hsub (u := s.fetched t len) (by rw [h.thread])
  unfold State.access
  simp only [hal, bitW_63, hnear, decide_true, if_true, h.nearPlace, hp, hgood, bne_self_eq_false, Bool.false_eq_true, if_false]
  obtain ⟨o, rfl⟩ | ⟨o, rfl⟩ := hplace <;> rfl

theorem loadValue_eq (n : Nat) (signed : Bool) {v : Nat} (hv : v < 256 ^ n) :
    loadValue n signed v = if signed then BitVec.ofInt 64 (toSigned (8 * n) v) else w64 v := by
  rw [loadValue, w64_ofSigned, Nat.mod_eq_of_lt (by rw [pow_mul]; exact hv)]

theorem State.nearRead_good {key n : Nat} (hbad : s.bad key n = false) (code : Nat) (eval : Word) (k : Nat → State → State) :
    s.nearRead t key n code eval k = k (s.mnat key n) s := by
  rw [State.nearRead, hbad]; rfl

/-- A permitted near access that reads good bytes goes on with what stands there. -/
theorem State.issues.access_read (h : s.issues t len level srcs) {a : Word} {n key : Nat} (use : Use) {srcs' : List Nat} (again : Bool)
    (k : EngPlace → State → State) (r : Nat → Nat → State → State) (hal : a.toNat % n = 0) (hnear : 2 ^ 63 ≤ a.toNat)
    (hsub : ∀ i ∈ srcs', i ∈ srcs) (hkey : s.nearKey t a.toNat n use = some key) (hbad : s.bad key n = false)
    (hldm : ∀ o, k (.ldm o) (s.fetched t len) =
      (s.fetched t len).nearRead t (ldmKey (tEngine t) o) n excParity (w64 o) (r (ldmKey (tEngine t) o)))
    (hcsm : ∀ o, k (.csm o) (s.fetched t len) = (s.fetched t len).nearRead t (csmKey (tCluster t) o) n excPoison a
      fun _ s => r (csmKey (tCluster t) o) (s.csmNat (tCluster t) o n) s) :
    (s.fetched t len).access t a n use srcs' again k = r key (s.nearValue t a.toNat n use) (s.fetched t len) := by
  rw [← h.bad] at hbad
  obtain ⟨o, hp, rfl, hv⟩ | ⟨o, hp, rfl, hv⟩ := State.nearPlace_of_key hkey
  · rw [h.access_near use again k hal hnear hsub hp (.inl ⟨o, rfl⟩), hldm, State.nearRead_good hbad, h.mnat, hv]
  · rw [h.access_near use again k hal hnear hsub hp (.inr ⟨o, rfl⟩), hcsm, State.nearRead_good hbad, h.csmNat, hv]

/-- The memory and the thread that an instruction leaves, of its effect on the fetched state. -/
theorem State.issue_ends {level' : Nat} {srcs' : List Nat} (h : s.issues t len level srcs) (word : Nat) (hlevel : level' ≤ level)
    (hsrcs : ∀ i ∈ srcs', i ∈ srcs) (k : State → State) {x : Thread} (hk : k (s.fetched t len) = u) (hu : u.thread t = x)
    (hx : x.wait.past = true) :
    (s.issue t word len true level' srcs' k).mem = u.mem ∧ (s.issue t word len true level' srcs' k).thread t = x := by
  have hpast : ((k (s.fetched t len)).thread t).wait.past = true := by rw [hk, hu]; exact hx
  exact ⟨by rw [State.issue_mem h word hlevel hsrcs k hpast, hk], by rw [State.issue_thread h word hlevel hsrcs k hpast, hk, hu]⟩

/-- The same of one that ends with a register written. -/
theorem State.issue_wrote_mem {level' : Nat} {srcs' : List Nat} (h : s.issues t len level srcs) (word : Nat) (hlevel : level' ≤ level)
    (hsrcs : ∀ i ∈ srcs', i ∈ srcs) (k : State → State) {x : Thread} {rd : Nat} {v : Word}
    (hk : k (s.fetched t len) = u.writeNext t rd len v) (hu : u.thread t = { x with wait := .ready }) :
    (s.issue t word len true level' srcs' k).mem = u.mem ∧
    (s.issue t word len true level' srcs' k).thread t = x.wrote rd v len := by
  have hmem : (u.writeNext t rd len v).mem = u.mem := by
    rw [State.writeNext, State.nextPc_mem, State.setReg]
    split <;> rfl
  rw [← hmem]
  exact State.issue_ends h word hlevel hsrcs k hk (by rw [State.writeNext_thread, hu]; rfl) rfl

/-- A near load. -/
theorem load_near (rd : Nat) {op rs1 imm n key : Nat} {signed : Bool} {a : Word} (h : s.issues t 4 0 [rs1 % 32]) (hop : op < 64)
    (hform : loadForm op = (n, signed)) (hn : n ≠ 0) (ha : a = s.reg t (rs1 % 32) + (BitVec.ofNat 16 imm).signExtend 64)
    (hal : a.toNat % n = 0) (hnear : 2 ^ 63 ≤ a.toNat) (hkey : s.nearKey t a.toNat n .read = some key) (hbad : s.bad key n = false) :
    (load t op rd rs1 imm s).mem = s.mem ∧
    (load t op rd rs1 imm s).thread t = (s.thread t).wrote (rd % 32) (loadValue n signed (s.nearValue t a.toNat n .read)) 4 := by
  unfold load
  simp only [Nat.mod_eq_of_lt hop, hform, bne_iff_ne.mpr hn]
  rw [← h.mem]
  refine State.issue_wrote_mem h _ (Nat.le_refl _) (by simp) _ ?_ h.thread
  rw [h.reg, sext16_eq, ← ha]
  exact h.access_read .read _ _ (fun _ v s => s.writeNext t (rd % 32) 4 (loadValue n signed v)) hal hnear (fun _ hi => hi) hkey hbad
    (fun o => rfl) (fun o => rfl)

/-- A permitted near access that writes goes on at its key. -/
theorem State.issues.access_write (h : s.issues t len level srcs) {a : Word} {n key : Nat} (use : Use) {srcs' : List Nat} (again : Bool)
    (k : EngPlace → State → State) (r : Nat → State → State) (hal : a.toNat % n = 0) (hnear : 2 ^ 63 ≤ a.toNat)
    (hsub : ∀ i ∈ srcs', i ∈ srcs) (hkey : s.nearKey t a.toNat n use = some key)
    (hldm : ∀ o, k (.ldm o) (s.fetched t len) = r (ldmKey (tEngine t) o) (s.fetched t len))
    (hcsm : ∀ o, k (.csm o) (s.fetched t len) = r (csmKey (tCluster t) o) (s.fetched t len)) :
    (s.fetched t len).access t a n use srcs' again k = r key (s.fetched t len) := by
  obtain ⟨o, hp, rfl, -⟩ | ⟨o, hp, rfl, -⟩ := State.nearPlace_of_key hkey
  · rw [h.access_near use again k hal hnear hsub hp (.inl ⟨o, rfl⟩), hldm]
  · rw [h.access_near use again k hal hnear hsub hp (.inr ⟨o, rfl⟩), hcsm]

/-- Memory after the low bytes of a word are written. -/
theorem State.storedOnly_of_writeN {key n : Nat} {v : Word} (h : u.mem = s.mem.writeN key (leBytes n v.toNat)) :
    s.storedOnly u key n v := by
  intro k
  rw [h]
  split
  · next hk =>
    have hi : k - key < n := by omega
    have hread := Memory.read_writeN_in (leBytes n v.toNat) s.mem key (k - key) (by rw [length_leBytes]; exact hi)
    rw [show key + (k - key) = k by omega] at hread
    rw [hread]
    exact Option.some.inj ((List.getElem?_eq_getElem _).symm.trans (getElem?_leBytes v.toNat hi))
  · next hk => exact Memory.read_writeN_out _ _ _ _ (by rw [length_leBytes]; omega)

/-- A near store. -/
theorem store_near {rd op rs1 imm n key : Nat} {a : Word} (h : s.issues t 4 0 [rs1 % 32, rd % 32]) (hop : op < 64)
    (hsize : storeSize op = n) (hn : n ≠ 0) (ha : a = s.reg t (rs1 % 32) + (BitVec.ofNat 16 imm).signExtend 64)
    (hal : a.toNat % n = 0) (hnear : 2 ^ 63 ≤ a.toNat) (hkey : s.nearKey t a.toNat n .write = some key) :
    (store t op rd rs1 imm s).mem = s.mem.writeN key (leBytes n (s.reg t (rd % 32)).toNat) ∧
    (store t op rd rs1 imm s).thread t = { s.thread t with pc := (s.thread t).pc + 4, wait := .ready } := by
  unfold store
  simp only [Nat.mod_eq_of_lt hop, hsize, bne_iff_ne.mpr hn]
  rw [← h.mem]
  refine State.issue_ends h _ (Nat.le_refl _) (by simp) _
    (u := ((s.fetched t 4).mwrite key (leBytes n (s.reg t (rd % 32)).toNat)).nextPc t 4) ?_ ?_ rfl
  · simp only [h.reg, sext16_eq, ← ha]
    exact h.access_write .write _ _ (fun key u => (u.mwrite key (leBytes n (s.reg t (rd % 32)).toNat)).nextPc t 4) hal hnear
      (fun _ hi => hi) hkey (fun o => rfl) (fun o => rfl)
  · rw [State.nextPc, State.thread_setThread, State.thread_mwrite, h.thread]; rfl

/-- A near atomic. -/
theorem atomic_near {rd rs1 rs2 fn n key : Nat} {a : Word} (h : s.issues t 4 0 ([rs1 % 32, rs2 % 32] ++ if fn % 16 = 9 then [rd % 32] else []))
    (hfn : fn < 128) (hop : fn % 16 < 10) (hn : n = if nbit fn 4 then 4 else 8) (hsb : nbit fn 6 = true → (s.thread t).sb = [])
    (ha : a = s.reg t (rs1 % 32)) (hal : a.toNat % n = 0) (hnear : 2 ^ 63 ≤ a.toNat) (hkey : s.nearKey t a.toNat n .atomic = some key)
    (hbad : s.bad key n = false) :
    (atomic t rd rs1 rs2 fn s).mem = s.mem.writeN key (leBytes n (atomicNew (atomicOp fn) (8 * n) (s.nearValue t a.toNat n .atomic)
      ((s.reg t (rs2 % 32)).toNat % 2 ^ (8 * n)) ((s.reg t (rd % 32)).toNat % 2 ^ (8 * n)))) ∧
    (atomic t rd rs1 rs2 fn s).thread t =
      (s.thread t).wrote (rd % 32) (loadValue n (nbit fn 4) (s.nearValue t a.toNat n .atomic)) 4 := by
  unfold atomic
  have hmod : fn % 2 ^ 11 = fn := Nat.mod_eq_of_lt (by omega)
  have hlegal : (decide (fn % 16 < 10) && fn / 2 ^ 7 == 0) = true := by simp [hop]; omega
  simp only [hmod, hlegal, ← hn]
  rw [← h.mem]
  refine State.issue_wrote_mem h _ (Nat.le_refl _) (fun i hi => absurd hi List.not_mem_nil) _
    (u := (s.fetched t 4).mwrite key (leBytes n (atomicNew (atomicOp fn) (8 * n) (s.nearValue t a.toNat n .atomic)
      ((s.reg t (rs2 % 32)).toNat % 2 ^ (8 * n)) ((s.reg t (rd % 32)).toNat % 2 ^ (8 * n))))) ?_ h.thread
  have hdrained : (nbit fn 6 && !((s.fetched t 4).thread t).sb.isEmpty) = false := by
    rw [h.thread]
    cases h6 : nbit fn 6
    · rfl
    · simp [hsb h6]
  simp only [h.reg, ← ha, beq_iff_eq]
  exact h.access_read .atomic _ _ (fun key old u => (u.mwrite key (leBytes n (atomicNew (atomicOp fn) (8 * n) old
      ((s.reg t (rs2 % 32)).toNat % 2 ^ (8 * n)) ((s.reg t (rd % 32)).toNat % 2 ^ (8 * n))))).writeNext t (rd % 32) 4
        (loadValue n (nbit fn 4) old)) hal hnear (fun _ hi => hi) hkey hbad
    (fun o => by rw [hdrained]; rfl) (fun o => by rw [hdrained]; rfl)

theorem ofSigned_toSigned {n v : Nat} (hv : v < 2 ^ n) : ofSigned n (toSigned n v) = v := by
  rw [toSigned_eq_toInt, ofSigned_eq_toNat, BitVec.ofInt_toInt, BitVec.toNat_ofNat, Nat.mod_eq_of_lt hv]

theorem ite_lt_eq_min_signed {n old x : Nat} (hold : old < 2 ^ n) (hx : x < 2 ^ n) :
    (if toSigned n x < toSigned n old then x else old) = ofSigned n (min (toSigned n old) (toSigned n x)) := by
  split
  · next h => rw [min_eq_right h.le, ofSigned_toSigned hx]
  · next h => rw [min_eq_left (not_lt.mp h), ofSigned_toSigned hold]
theorem ite_lt_eq_max_signed {n old x : Nat} (hold : old < 2 ^ n) (hx : x < 2 ^ n) :
    (if toSigned n old < toSigned n x then x else old) = ofSigned n (max (toSigned n old) (toSigned n x)) := by
  split
  · next h => rw [max_eq_right h.le, ofSigned_toSigned hx]
  · next h => rw [max_eq_left (not_lt.mp h), ofSigned_toSigned hold]

/-- The function of each atomic. -/
theorem atomicNew_of_mem {fn n old x e new : Nat} (hold : old < 2 ^ (8 * n)) (hx : x < 2 ^ (8 * n))
    (h : (fn % 16, new) ∈ [(0, x), (1, (old + x) % 2 ^ (8 * n)), (2, old &&& x), (3, old ||| x), (4, old ^^^ x),
      (5, ofSigned (8 * n) (min (toSigned (8 * n) old) (toSigned (8 * n) x))),
      (6, ofSigned (8 * n) (max (toSigned (8 * n) old) (toSigned (8 * n) x))), (7, min old x), (8, max old x),
      (9, if old = e then x else old)]) : atomicNew (atomicOp fn) (8 * n) old x e = new := by
  simp only [List.mem_cons, Prod.mk.injEq, List.not_mem_nil, or_false] at h
  unfold atomicOp
  obtain ⟨hf, rfl⟩ | ⟨hf, rfl⟩ | ⟨hf, rfl⟩ | ⟨hf, rfl⟩ | ⟨hf, rfl⟩ | ⟨hf, rfl⟩ | ⟨hf, rfl⟩ | ⟨hf, rfl⟩ | ⟨hf, rfl⟩ | ⟨hf, rfl⟩ := h
  all_goals rw [hf]
  · rfl
  · rfl
  · rfl
  · rfl
  · rfl
  · simpa [atomicNew] using ite_lt_eq_min_signed hold hx
  · simpa [atomicNew] using ite_lt_eq_max_signed hold hx
  · rfl
  · rfl
  · simp [atomicNew]

/-- The forms of the loads. -/
theorem loadForm_of_mem {op n : Nat} {signed : Bool}
    (h : (op, n, signed) ∈ [(0x10, 1, true), (0x11, 2, true), (0x12, 4, true), (0x13, 8, true), (0x14, 1, false), (0x15, 2, false),
      (0x16, 4, false)]) : op < 64 ∧ loadForm op = (n, signed) ∧ n ≠ 0 := by
  simp only [List.mem_cons, Prod.mk.injEq, List.not_mem_nil, or_false] at h
  obtain ⟨rfl, rfl, rfl⟩ | ⟨rfl, rfl, rfl⟩ | ⟨rfl, rfl, rfl⟩ | ⟨rfl, rfl, rfl⟩ | ⟨rfl, rfl, rfl⟩ | ⟨rfl, rfl, rfl⟩ | ⟨rfl, rfl, rfl⟩ := h
  all_goals exact ⟨by decide, rfl, by decide⟩

/-- The sizes of the stores. -/
theorem storeSize_of_mem {op n : Nat} (h : (op, n) ∈ [(0x18, 1), (0x19, 2), (0x1A, 4), (0x1B, 8)]) :
    op < 64 ∧ storeSize op = n ∧ n ≠ 0 := by
  simp only [List.mem_cons, Prod.mk.injEq, List.not_mem_nil, or_false] at h
  obtain ⟨rfl, rfl⟩ | ⟨rfl, rfl⟩ | ⟨rfl, rfl⟩ | ⟨rfl, rfl⟩ := h
  all_goals exact ⟨by decide, rfl, by decide⟩

/-- Settles O17: loads, stores and atomics by their rules above. -/
theorem loadsAndStores : Obligations.LoadsAndStores := by
  unfold Obligations.LoadsAndStores
  refine ⟨?_, ?_, ?_⟩
  · intro s t op rd rs1 imm n key signed a h hop ha hal hnear hkey hbad
    obtain ⟨hlt, hform, hn⟩ := loadForm_of_mem hop
    obtain ⟨hmem, hend⟩ := load_near rd h hlt hform hn ha hal hnear hkey hbad
    rw [loadValue_eq n signed (State.nearValue_lt hkey)] at hend
    exact ⟨_, rfl, hmem, hend⟩
  · intro s t op rd rs1 imm n key a h hop ha hal hnear hkey
    obtain ⟨hlt, hsize, hn⟩ := storeSize_of_mem hop
    obtain ⟨hmem, hend⟩ := store_near h hlt hsize hn ha hal hnear hkey
    exact ⟨_, rfl, State.storedOnly_of_writeN hmem, hend⟩
  · intro s t rd rs1 rs2 fn n key a old new x e hfn hop h hn hsb ha hal hnear hkey hbad hold hx he hnew
    subst hx he
    have hlt := State.nearValue_lt hkey
    rw [← hold, show 256 ^ n = 2 ^ (8 * n) by rw [pow_mul]; rfl] at hlt
    obtain ⟨hmem, hend⟩ := atomic_near h hfn hop hn hsb ha hal hnear hkey hbad
    rw [← hold, atomicNew_of_mem hlt (Nat.mod_lt _ (by positivity)) hnew] at hmem
    rw [loadValue_eq n _ (State.nearValue_lt hkey), ← hold] at hend
    have hsize : (if nbit fn 4 then BitVec.ofInt 64 (toSigned (8 * n) old) else w64 old) =
        if nbit fn 4 then BitVec.ofInt 64 (toSigned 32 old) else w64 old := by
      split
      · next hw => rw [hn, if_pos hw]
      · rfl
    rw [hsize] at hend
    rw [← leBytes_w64 (by rw [hn]; split <;> decide)] at hmem
    exact ⟨_, rfl, State.storedOnly_of_writeN hmem, hend⟩

end Sys2Proof.Machine
end

section
open Sys2Proof Sys2Proof.Machine
namespace Sys2Proof.Machine

/-! ### Far accesses and instruction lines (R62, R68, R69, R71, R91) -/

variable {s u v : State} {t len level : Nat} {srcs : List Nat}

/-- A far access that translates forgets a failed translation; other than that it changes no thread and no byte. -/
theorem State.farPlace_far {va ask p : Nat} {use : Use} {again hbm : Bool} (h : u.farPlace t va use again = (.far ask p hbm, v)) :
    v.thread t = { u.thread t with xfault := none } ∧ v.mem = u.mem := by
  unfold State.farPlace at h
  extract_lets th c g page s0 held s1 at h
  have h₁ : s1.threads = s0.threads ∧ s1.mem = u.mem := by unfold s1; split <;> simp [s0]
  clear_value s1
  split at h
  · cases h
  split at h
  next r s2 hx =>
  have h₂ := State.xlate_cached (.refl s1) c (.data g) th.xask va (use.leaf false + if th.priv == 0 then leafU else 0) true
  rw [hx] at h₂
  have hkept : s2.thread t = { u.thread t with xfault := none } ∧ s2.mem = u.mem :=
    ⟨by rw [State.thread_of_threads (h₂.threads.trans h₁.1), State.thread_setThread], h₂.mem.trans h₁.2⟩
  split at h
  · cases h
  · cases h
  · cases h
  · split at h
    · cases h
    · cases h; exact hkept

theorem State.issues.farPlace_far (h : s.issues t len level srcs) {va ask p : Nat} {use : Use} {hbm : Bool}
    (hp : ((s.fetched t len).farPlace t va use false).1 = .far ask p hbm) :
    ((s.fetched t len).farPlace t va use false).2.thread t = { s.thread t with wait := .ready, xfault := none } ∧
      ((s.fetched t len).farPlace t va use false).2.mem = s.mem := by
  obtain ⟨hthread, hmem⟩ := State.farPlace_far (Prod.ext hp rfl)
  rw [h.thread] at hthread
  exact ⟨hthread, hmem.trans h.mem⟩

/-- A far access that translates comes to its place. -/
theorem State.issues.access_far (h : s.issues t len level srcs) {a : Word} {n ask p : Nat} {hbm : Bool} (use : Use) {srcs' : List Nat}
    (k : EngPlace → State → State) (hal : a.toNat % n = 0) (hfar : a.toNat < 2 ^ 63) (hsub : ∀ i ∈ srcs', i ∈ srcs)
    (hp : ((s.fetched t len).farPlace t a.toNat use false).1 = .far ask p hbm) :
    (s.fetched t len).access t a n use srcs' (s.thread t).wait.isAgain k =
      k (.far ask p hbm) ((s.fetched t len).farPlace t a.toNat use false).2 := by
  have hgood := h.badReg hsub (u := ((s.fetched t len).farPlace t a.toNat use false).2) (by rw [(h.farPlace_far hp).1])
  unfold State.access
  simp only [hal, h.notAgain, bitW_63, not_le.mpr hfar, decide_false, bne_self_eq_false, Bool.false_eq_true, if_false, hp, hgood]

theorem load_far (rd : Nat) {op rs1 imm n ask p : Nat} {signed : Bool} {a : Word} (h : s.issues t 4 0 [rs1 % 32]) (hop : op < 64)
    (hform : loadForm op = (n, signed)) (hn : n ≠ 0) (ha : a = s.reg t (rs1 % 32) + (BitVec.ofNat 16 imm).signExtend 64)
    (hal : a.toNat % n = 0) (hfar : a.toNat < 2 ^ 63) (hp : ((s.fetched t 4).farPlace t a.toNat .read false).1 = .far ask p true)
    (hsb : (s.thread t).sb = []) : (load t op rd rs1 imm s).mem = s.mem ∧
      (load t op rd rs1 imm s).thread t = { s.thread t with wait := .farLoad ask a.toNat p true n signed (rd % 32), xfault := none } := by
  obtain ⟨hthread, hmem⟩ := h.farPlace_far hp
  unfold load
  simp only [Nat.mod_eq_of_lt hop, hform, bne_iff_ne.mpr hn]
  rw [← hmem]
  refine State.issue_ends h _ (Nat.le_refl _) (by simp) _
    (u := ((s.fetched t 4).farPlace t a.toNat .read false).2.setWait t (.farLoad ask a.toNat p true n signed (rd % 32))) ?_ ?_ rfl
  · rw [h.reg, sext16_eq, ← ha, h.access_far .read _ hal hfar (fun _ hi => hi) hp]
    simp [State.farLoad, hthread, hsb, sbForward, sbOverlap]
  · rw [State.setWait, State.thread_setThread, hthread]

theorem store_far {rd op rs1 imm n ask p : Nat} {hbm : Bool} {a : Word} (h : s.issues t 4 0 [rs1 % 32, rd % 32]) (hop : op < 64)
    (hsize : storeSize op = n) (hn : n ≠ 0) (ha : a = s.reg t (rs1 % 32) + (BitVec.ofNat 16 imm).signExtend 64)
    (hal : a.toNat % n = 0) (hfar : a.toNat < 2 ^ 63) (hp : ((s.fetched t 4).farPlace t a.toNat .write false).1 = .far ask p hbm)
    (hsb : (s.thread t).sb.length < 8) : (store t op rd rs1 imm s).mem = s.mem ∧
      (store t op rd rs1 imm s).thread t = { s.thread t with
        pc := (s.thread t).pc + 4, wait := .ready, xfault := none
        sb := (s.thread t).sb ++ [⟨a.toNat, ask, p, hbm, leBytes n (s.reg t (rd % 32)).toNat⟩] } := by
  obtain ⟨hthread, hmem⟩ := h.farPlace_far hp
  unfold store
  simp only [Nat.mod_eq_of_lt hop, hsize, bne_iff_ne.mpr hn]
  rw [← hmem]
  refine State.issue_ends h _ (Nat.le_refl _) (by simp) _
    (u := (((s.fetched t 4).farPlace t a.toNat .write false).2.setThread t { s.thread t with
      wait := .ready, xfault := none, sb := (s.thread t).sb ++ [⟨a.toNat, ask, p, hbm, leBytes n (s.reg t (rd % 32)).toNat⟩] }).nextPc t 4)
    ?_ ?_ rfl
  · simp only [h.reg, sext16_eq, ← ha]
    rw [h.access_far .write _ hal hfar (fun _ hi => hi) hp]
    simp only [hthread, not_le.mpr hsb, if_false]
  · rw [State.nextPc, State.thread_setThread, State.thread_setThread]; rfl

theorem farLoadReturn_hbm (st data : Nat) {ask va p n rd : Nat} {signed : Bool} (hwait : (s.thread t).wait = .farLoad ask va p true n signed rd)
    (hsafe : s.inSafe = false) (hrun : (s.thread t).running = true) (hbad : s.bad (hbmKey p) n = false) :
    (farLoadReturn t st data s).mem = s.mem ∧
      (farLoadReturn t st data s).thread t = (s.thread t).wrote rd (loadValue n signed (leNat (s.mem.readN (hbmKey p) n))) 4 := by
  have heff : farLoadReturn t st data s = (s.writeNext t rd 4 (loadValue n signed (s.mnat (hbmKey p) n))).setWait t .ready := by
    simp [farLoadReturn, hwait, hsafe, hrun, hbad, State.writeNext]
  rw [heff]
  constructor
  · rw [State.setWait, State.writeNext, State.setReg]
    split <;> rfl
  · rw [State.setWait, State.thread_setThread, State.writeNext_thread]; rfl

theorem farStorePerform_hbm {i : Nat} {e : StoreEntry} (he : (s.thread t).sb[i]? = some e) (hhbm : e.hbm = true)
    (hsafe : s.inSafe = false) (hfree : sbOverlap ((s.thread t).sb.take i) e.paddr true e.data.length = false)
    (hwait : ∀ k, (s.thread t).wait ≠ .drain k) :
    (farStorePerform t i s).mem = s.mem.writeN (hbmKey e.paddr) e.data ∧
      (farStorePerform t i s).thread t = { s.thread t with sb := (s.thread t).sb.eraseIdx i } := by
  have heff : farStorePerform t i s =
      (s.setThread t { s.thread t with sb := (s.thread t).sb.eraseIdx i }).mwrite (hbmKey e.paddr) e.data := by
    unfold farStorePerform
    simp only [he, hsafe, hhbm, hfree, Bool.or_false, Bool.false_eq_true, if_false, if_true]
  rw [heff]
  exact ⟨rfl, by rw [State.thread_mwrite, State.thread_setThread]⟩

theorem icacheFill_hbm (st : Nat) {line : Nat} {va : Word} (hwait : (s.thread t).wait = .fetch 1 line va) (hsafe : s.inSafe = false)
    (hrun : (s.thread t).running = true) (hbad : s.bad (hbmKey (line * 64)) 64 = false) :
    (1, line) ∈ ((icacheFill t st s).engine (tEngine t)).icache ∧ (icacheFill t st s).thread t = { s.thread t with wait := .ready } ∧
      (icacheFill t st s).mem = s.mem := by
  obtain ⟨u, x, heff, hin, hthread, hmem⟩ : ∃ (u : State) (x : Engine), icacheFill t st s = (u.setEngine (tEngine t) x).setWait t .ready ∧
      (1, line) ∈ x.icache ∧ u.thread t = s.thread t ∧ u.mem = s.mem := by
    unfold icacheFill
    simp only [hwait, hsafe, hrun, hbad, Bool.not_true, Bool.or_false, Bool.false_eq_true, if_false, beq_self_eq_true, if_true]
    split
    · exact ⟨_, _, rfl, List.mem_cons_self, rfl, rfl⟩
    · exact ⟨_, _, rfl, List.mem_cons_self, rfl, rfl⟩
  rw [heff]
  refine ⟨?_, ?_, hmem⟩
  · rw [show (State.setWait _ t .ready).engine (tEngine t) = (u.setEngine (tEngine t) x).engine (tEngine t) from rfl, State.engine_setEngine]
    exact hin
  · rw [State.setWait, State.thread_setThread, State.thread_setEngine, hthread]

/-- Settles O18: each far access, its return or performance, and the fill by its rule above. -/
theorem farMemory : Obligations.FarMemory := by
  unfold Obligations.FarMemory
  refine ⟨?_, ?_, ?_, ?_, ?_⟩
  · intro s t op rd rs1 imm n ask p signed a h hop ha hal hfar hp hsb
    obtain ⟨hlt, hform, hn⟩ := loadForm_of_mem hop
    exact ⟨_, rfl, load_far rd h hlt hform hn ha hal hfar hp hsb⟩
  · intro s t st data ask va p n rd signed hwait hsafe hrun hbad
    exact ⟨_, rfl, farLoadReturn_hbm st data hwait hsafe hrun hbad⟩
  · intro s t op rd rs1 imm n ask p hbm a h hop ha hal hfar hp hsb
    obtain ⟨hlt, hsize, hn⟩ := storeSize_of_mem hop
    exact ⟨_, rfl, store_far h hlt hsize hn ha hal hfar hp hsb⟩
  · intro s t i n e v he hhbm hdata hsafe hfree hwait
    obtain ⟨hmem, hthread⟩ := farStorePerform_hbm he hhbm hsafe hfree hwait
    refine ⟨_, rfl, ?_, hthread⟩
    rw [hdata] at hmem
    exact State.storedOnly_of_writeN hmem
  · intro s t st line va hwait hsafe hrun hbad
    exact ⟨_, rfl, icacheFill_hbm st hwait hsafe hrun hbad⟩

end Sys2Proof.Machine
end

section
open Sys2Proof Sys2Proof.Machine
namespace Sys2Proof.Machine

/-! ### Dispatch (R77, R78) -/

variable {s u : State} {t : Nat}

theorem State.wfTake_kept {k : Nat} {it : Item} (h : s.wfTake k = some (it, u)) : u.mem = s.mem ∧ u.inv = s.inv := by
  unfold State.wfTake at h
  dsimp only at h
  split at h
  · cases h
  split at h
  · cases h
  · cases h
    simp

/-- An event that the life store does not count writes no memory. -/
theorem State.report_31_kept (s : State) (src : Nat) : (s.report src 0x31).mem = s.mem ∧ (s.report src 0x31).inv = s.inv := by
  rw [State.report, show s.lifeEvent src 0x31 = s from rfl]
  simp

/-- A handler that starts: its thread as R78 gives it, and its item in its frame. -/
theorem State.startHandler_thread (s : State) (t : Nat) (h : Handler) (it : Item) :
    ((s.startHandler t h it).thread t).running = true ∧ ((s.startHandler t h it).thread t).pc = h.pc ∧
    ((s.startHandler t h it).thread t).priv = h.priv ∧ ((s.startHandler t h it).thread t).xask = h.psk ∧
    ((s.startHandler t h it).thread t).item = it ∧ (s.startHandler t h it).reg t 1 = w64 (2 ^ 63 + t % 4 * 0x3000) ∧
    (s.startHandler t h it).reg t 2 = it.csr ∧ (∀ i, 2 < i → (s.startHandler t h it).reg t i = 0) ∧
    ((s.startHandler t h it).thread t).startAt = s.loc ∧ ((s.startHandler t h it).thread t).wait = .ready ∧
    (s.startHandler t h it).mread (frameKey t 0) it.bytes.length = it.bytes := by
  have hreg (i : Nat) (hi : i ≠ 0) : (s.startHandler t h it).reg t i =
      ((SMap.set (0 : Word) [] 1 (w64 (2 ^ 63 + tPlace t * 0x3000))).set 0 2 it.csr).get 0 i := by
    rw [State.reg, if_neg hi, State.startHandler, State.thread_setThread]
  rw [hreg 1 (by decide), hreg 2 (by decide), SMap.get_set_ne _ _ _ _ _ (by decide), SMap.get_set_same, SMap.get_set_same]
  unfold State.startHandler
  simp only [State.thread_setThread, true_and]
  refine ⟨rfl, fun i hi => ?_, rfl, Memory.readN_writeN_same _ _ _⟩
  have hi0 := hreg i (by omega)
  rw [State.startHandler, SMap.get_set_ne _ _ _ _ _ (by omega), SMap.get_set_ne _ _ _ _ _ (by omega)] at hi0
  exact hi0

/-- A dispatch that R77 permits starts the item's handler. -/
theorem dispatch_starts {c f g ecc : Nat} {it : Item} {s1 : State} (hsafe : s.inSafe = false) (hpower : s.dev.power < 2)
    (hen : s.fb F.CLU_CTRL_DISPATCH_EN [c] = true) (hc : c < s.clusterCount) (hf : s.pickFifo c = some f) (hg : s.pickEngine c = some g)
    (ht : (s.freeThreads g).head? = some t) (htake : s.wfTake (4 * c + f) = some (it, s1)) (hvalid : (s.handler c it.ty).valid = true)
    (hecc : ecc ≠ 2) : ∃ v : State, v.inv = s.inv ∧ dispatch c ecc s = v.startHandler t (s.handler c it.ty) it := by
  obtain ⟨hmem, hinv⟩ := State.wfTake_kept htake
  have hp : ¬ 2 ≤ s.dev.power := by omega
  have hn : ¬ s.clusterCount ≤ c := by omega
  unfold dispatch
  simp only [hsafe, hp, hen, hn, hf, hg, ht, htake, decide_false, Bool.or_false, Bool.not_true, Bool.false_eq_true, if_false,
    beq_eq_false_iff_ne.mpr hecc]
  generalize hs2 : (s1.setCluster c { s1.cluster c with rr := (s1.cluster c).rr.erase f ++ [f] }).pmuCluster c 0x501 = s2
  have h₂ : s2.mem = s.mem ∧ s2.inv = s.inv := by rw [← hs2]; simp [hmem, hinv]
  generalize hs3 : (if (ecc == 1) = true then
    (s2.bump R.WF_ECC_COUNT (wfIx (4 * c + f))).report (tsrc 0xF (4 * c + f)) 0x31 else s2) = s3
  have h₃ : s3.mem = s.mem ∧ s3.inv = s.inv := by
    rw [← hs3]; split
    · simp [State.report_31_kept, h₂]
    · exact h₂
  rw [State.handler_of_mem h₃.1, if_pos hvalid]
  exact ⟨s3, h₃.2, rfl⟩

/-! ### The watchdog and lost threads (R79, R80, R84) -/

/-- The watchdog's mark on a thread whose budget is spent. -/
def State.wdMarked (s : State) (t : Nat) : Thread :=
  { s.thread t with
    expired := true, pendWd := !(s.thread t).excActive
    graceEnd := some (w64 ((w64 ((s.thread t).startAt.toNat + (s.thread t).budget * ticksPerUs)).toNat +
      (s.rd R.CLU_WD_GRACE [tCluster t]).toNat * ticksPerUs)) }

theorem watchdog_marks (hrun : (s.thread t).running = true) (hbudget : (s.thread t).budget ≠ 0) (hexp : (s.thread t).expired = false)
    (hdue : s.locReached (w64 ((s.thread t).startAt.toNat + (s.thread t).budget * ticksPerUs)) = true) (hsafe : s.inSafe = false) :
    watchdog t s =
      if !(s.thread t).excActive && (s.setThread t (s.wdMarked t)).ready t && !(s.thread t).wait.isAgain then
        (s.setThread t (s.wdMarked t)).takeExc t excWatchdog (w64 (s.thread t).budget) (s.thread t).pc
      else s.setThread t (s.wdMarked t) := by
  have hspent : ((s.thread t).running && (s.thread t).budget != 0 && !(s.thread t).expired &&
      s.locReached (w64 ((s.thread t).startAt.toNat + (s.thread t).budget * ticksPerUs)) && !s.inSafe) = true := by
    simp [hrun, hbudget, hexp, hdue, hsafe]
  unfold watchdog
  exact if_pos hspent

/-- Where the exception cannot be taken at once the thread is only marked. -/
theorem watchdog_waits (hrun : (s.thread t).running = true) (hbudget : (s.thread t).budget ≠ 0) (hexp : (s.thread t).expired = false)
    (hdue : s.locReached (w64 ((s.thread t).startAt.toNat + (s.thread t).budget * ticksPerUs)) = true) (hsafe : s.inSafe = false)
    (hlater : (s.thread t).excActive = true ∨ (∃ k, (s.thread t).wait = .drain k) ∨ (s.thread t).wait.isAgain = true) :
    (watchdog t s).thread t = s.wdMarked t := by
  have hnot : (!(s.thread t).excActive && (s.setThread t (s.wdMarked t)).ready t && !(s.thread t).wait.isAgain) = false := by
    obtain h | ⟨k, h⟩ | h := hlater
    · simp [h]
    · have hready : (s.setThread t (s.wdMarked t)).ready t = false := by
        simp [State.ready, State.wdMarked, h]
      simp [hready]
    · simp [h]
  rw [watchdog_marks hrun hbudget hexp hdue hsafe, hnot]
  exact State.thread_setThread _ _ _

theorem watchdog_takes (hrun : (s.thread t).running = true) (hbudget : (s.thread t).budget ≠ 0) (hexp : (s.thread t).expired = false)
    (hdue : s.locReached (w64 ((s.thread t).startAt.toNat + (s.thread t).budget * ticksPerUs)) = true) (hsafe : s.inSafe = false)
    (hact : (s.thread t).excActive = false) (hwait : (s.thread t).wait = .ready) (hvalid : (s.handler (tCluster t) 0xFA).valid = true) :
    (s.setThread t (s.wdMarked t)).tookExc (watchdog t s) t excWatchdog (w64 (s.thread t).budget) (s.thread t).pc := by
  have hready : (s.setThread t (s.wdMarked t)).ready t = true := by
    simp [State.ready, State.wdMarked, hwait, hrun]
  rw [watchdog_marks hrun hbudget hexp hdue hsafe, hact, hready, hwait]
  exact State.takeExc_tookExc (by decide) rfl ⟨(s.wdMarked t).wait, by rw [State.thread_setThread]⟩
    (by rw [State.thread_setThread]; exact hact) hvalid rfl

theorem watchdogKill_thread {g : Word} (hg : (s.thread t).graceEnd = some g) (hrun : (s.thread t).running = true)
    (hreached : s.locReached g = true) (hsafe : s.inSafe = false) :
    ((watchdogKill t s).thread t).running = false ∧ ((watchdogKill t s).thread t).g = (s.thread t).g := by
  unfold watchdogKill
  simp only [hg, hrun, hreached, hsafe, Bool.not_false, Bool.and_self, if_true, State.loseThread_thread, and_self]

theorem handlerLost_sends {c k : Nat} {it : Item} {rest : List Item} {s1 : State} (hlost : (s.cluster c).lost = it :: rest)
    (hsafe : s.inSafe = false) (hk : s.wfSteered c (s.fd F.WF_STEER_LOST_FIFO [c]) = some k) (hstart : s.wfStart k true it = some s1) :
    ((handlerLost c s).cluster c).lost = rest ∧ (handlerLost c s).fifos = s1.fifos := by
  have heff : handlerLost c s = s1.setCluster c { s1.cluster c with lost := rest } := by
    simp [handlerLost, hlost, hk, hsafe, hstart]
  rw [heff]
  exact ⟨by rw [State.cluster_setCluster], rfl⟩

/-! ### Retirement of an engine, the handler table and the instruction caches (R76, R86, R97) -/

theorem engineRetired_retires {g : Nat} (hret : (s.engine g).retired = false)
    (hcount : s.fd F.CLU_RETIRE_CFG_COUNT [g / 8] ≤ s.recentParity g) :
    ((engineRetired g s).engine g).retired = true ∧ (engineRetired g s).threads = s.threads := by
  have hkept (s1 : State) (b : Prop) [Decidable b] : (if b then s1.report (tsrc 0xB (g / 8)) 0x25 else s1).engines = s1.engines ∧
      (if b then s1.report (tsrc 0xB (g / 8)) 0x25 else s1).threads = s1.threads := by
    split <;> simp
  have hrec (s1 : State) : s1.Spares (some .engines) s1.recordRetirement ∧ s1.Spares (some .threads) s1.recordRetirement :=
    ⟨State.recordRetirement_spares (by simp [Aspect.off]) (.refl s1), State.recordRetirement_spares (by simp [Aspect.off]) (.refl s1)⟩
  unfold engineRetired
  simp only [hret, hcount, Bool.not_false, decide_true, Bool.and_self, if_true]
  constructor
  · rw [State.engine, (hkept _ _).1, show (State.recordRetirement _).engines = _ from (hrec _).1]
    exact congrArg Engine.retired (State.engine_setEngine _ _ _)
  · exact (hkept _ _).2.trans (hrec _).2

theorem State.freeThreads_retired {g : Nat} (h : (s.engine g).retired = true) : s.freeThreads g = [] := if_pos h

theorem engineStop_stops {g : Nat} (hret : (s.engine g).retired = true) (hstop : (s.engine g).stopped = false)
    (hidle : ∀ i, i < 4 → (s.thread (4 * g + i)).running = false) : ((engineStop g s).engine g).stopped = true := by
  have hall : (List.range 4).all (fun i => !(s.thread (4 * g + i)).running) = true := by
    simp only [List.all_eq_true, List.mem_range, Bool.not_eq_true']; exact hidle
  unfold engineStop
  simp only [hret, hstop, hall, Bool.not_false, Bool.and_self, if_true]
  rw [State.engine, (State.report_frame _ _ _ _ _).2.2.1]
  exact congrArg Engine.stopped (State.engine_setEngine _ _ _)

theorem readN_add (m : Memory) (k i n : Nat) : m.readN k (i + n) = m.readN k i ++ m.readN (k + i) n := by
  induction i generalizing k with
  | zero => simp [Memory.readN]
  | succ i ih => rw [Nat.add_right_comm, Memory.readN, Memory.readN, ih, List.cons_append, Nat.add_assoc, Nat.add_comm 1 i]

theorem leNat_leBytes (n v : Nat) : leNat (leBytes n v) = v % 256 ^ n := by
  induction n generalizing v with
  | zero => simp [leBytes, leNat, Nat.mod_one]
  | succ n ih => rw [leBytes, leNat, ih, BitVec.toNat_ofNat, show 256 ^ (n + 1) = 256 * 256 ^ n from pow_succ' _ _, Nat.mod_mul]

/-- Two words that were written one after the other are read back. -/
theorem mnat_two_words {k : Nat} {a b : Word} (h : u.mem = s.mem.writeN k (leBytes 8 a.toNat ++ leBytes 8 b.toNat)) :
    u.mnat k 8 = a.toNat ∧ u.mnat (k + 8) 8 = b.toNat := by
  have hall := Memory.readN_writeN_same (leBytes 8 a.toNat ++ leBytes 8 b.toNat) s.mem k
  rw [← h, List.length_append, length_leBytes, length_leBytes, readN_add] at hall
  obtain ⟨ha, hb⟩ := List.append_inj hall (by rw [length_readN, length_leBytes])
  constructor
  · rw [State.mnat, ha, leNat_leBytes]; exact Nat.mod_eq_of_lt a.isLt
  · rw [State.mnat, hb, leNat_leBytes]; exact Nat.mod_eq_of_lt b.isLt

theorem State.fb_fset_false (s : State) (f : Fld) (ix : List Nat) (h1 : f.lo ≤ f.hi) (h2 : f.hi < f.reg.width) (h3 : f.reg.width ≤ 64) :
    (s.fset f ix false).fb f ix = false := by
  rw [State.fb, State.fset, State.fd_fw _ _ _ _ h1 h2 h3]
  simp [b2n]

theorem htCommit_commits {c n : Nat} (hgo : s.fb F.CLU_HT_COMMIT_GO [c] = true) (hn : n = s.fd F.CLU_HT_COMMIT_INDEX [c]) :
    (htCommit c s).fb F.CLU_HT_COMMIT_GO [c] = false ∧ (htCommit c s).mem = s.mem.writeN (csmKey c (0xFF000 + 16 * n))
      (leBytes 8 (s.rd R.CLU_HT_STAGE0 [c]).toNat ++ leBytes 8 (s.rd R.CLU_HT_STAGE1 [c]).toNat) := by
  have heff : htCommit c s = (s.mwrite (csmKey c (0xFF000 + 16 * n))
      (leBytes 8 (s.rd R.CLU_HT_STAGE0 [c]).toNat ++ leBytes 8 (s.rd R.CLU_HT_STAGE1 [c]).toNat)).fset F.CLU_HT_COMMIT_GO [c] false := by
    rw [htCommit, if_pos hgo, hn, Nat.mul_comm 16]
  rw [heff]
  exact ⟨State.fb_fset_false _ _ _ (by decide) (by decide) (by decide), rfl⟩

/-- Clearing instruction caches one after the other empties each, and changes no thread and no byte. -/
theorem State.foldl_icacheClear (l : List Nat) (f : Nat → Nat) (s : State) :
    (l.foldl (fun s e => s.icacheClear (f e)) s).threads = s.threads ∧ (l.foldl (fun s e => s.icacheClear (f e)) s).mem = s.mem ∧
    ∀ g, ((s.engine g).icache = [] ∨ ∃ e ∈ l, f e = g) → ((l.foldl (fun s e => s.icacheClear (f e)) s).engine g).icache = [] := by
  induction l generalizing s with
  | nil => exact ⟨rfl, rfl, fun g hg => hg.resolve_right (by simp)⟩
  | cons e l ih =>
    obtain ⟨hthreads, hmem, hcache⟩ := ih (s.icacheClear (f e))
    have hown : ((s.icacheClear (f e)).engine (f e)).icache = [] := congrArg Engine.icache (State.engine_setEngine _ _ _)
    refine ⟨hthreads, hmem, fun g hg => hcache g ?_⟩
    by_cases hge : g = f e
    · subst hge; exact .inl hown
    · obtain hg | ⟨e', he', rfl⟩ := hg
      · exact .inl (by rw [State.icacheClear, State.engine_setEngine_ne _ _ _ _ hge]; exact hg)
      · obtain rfl | he' := List.mem_cons.mp he'
        · exact absurd rfl hge
        · exact .inr ⟨e', he', rfl⟩

theorem icacheInv_clears {c : Nat} (hgo : s.fb F.CLU_CTRL_ICACHE_INV [c] = true) :
    (∀ e, e < 8 → ((icacheInv c s).engine (8 * c + e)).icache = []) ∧ (icacheInv c s).fb F.CLU_CTRL_ICACHE_INV [c] = false ∧
      (icacheInv c s).threads = s.threads ∧ (icacheInv c s).mem = s.mem := by
  obtain ⟨hthreads, hmem, hcache⟩ := State.foldl_icacheClear (List.range 8) (8 * c + ·) s
  rw [icacheInv, if_pos hgo]
  generalize (List.range 8).foldl (fun s e => s.icacheClear (8 * c + e)) s = v at hthreads hmem hcache ⊢
  exact ⟨fun e he => hcache _ (.inr ⟨e, List.mem_range.mpr he, rfl⟩),
    State.fb_fset_false _ _ _ (by decide) (by decide) (by decide), hthreads, hmem⟩

/-- Settles O21: dispatch, watchdog, lost items, retirement, the handler table and the caches by their rules above. -/
theorem dispatchAndEngines : Obligations.DispatchAndEngines := by
  unfold Obligations.DispatchAndEngines
  refine ⟨?_, ?_, ?_, ?_, ?_, ?_, ?_, ?_, ?_⟩
  · intro s s1 c f g t ecc it hsafe hpower hen hc hf hg ht htake hvalid hecc
    obtain ⟨v, hinv, hstart⟩ := dispatch_starts hsafe hpower hen hc hf hg ht htake hvalid hecc
    have hthread := State.startHandler_thread v t (s.handler c it.ty) it
    rw [← hstart, show v.loc = s.loc from congrArg Invar.loc hinv] at hthread
    exact ⟨_, rfl, hthread⟩
  · rintro s t due hrun hbudget hexp rfl hdue hsafe hlater
    exact ⟨_, rfl, watchdog_waits hrun hbudget hexp hdue hsafe hlater⟩
  · intro s t hrun hbudget hexp hdue hsafe hact hwait hvalid
    have htook := watchdog_takes hrun hbudget hexp hdue hsafe hact hwait hvalid
    rw [State.tookExc, State.thread_setThread] at htook
    exact ⟨_, rfl, by rw [htook]; exact ⟨rfl, rfl, rfl, rfl, rfl, rfl⟩⟩
  · intro s t g hg hrun hreached hsafe
    exact ⟨_, rfl, watchdogKill_thread hg hrun hreached hsafe⟩
  · intro s s1 c k it rest hlost hsafe hk hstart
    exact ⟨_, rfl, handlerLost_sends hlost hsafe hk hstart⟩
  · intro s g hret hcount
    obtain ⟨hretired, hthreads⟩ := engineRetired_retires hret hcount
    exact ⟨_, rfl, hretired, State.freeThreads_retired hretired, hthreads⟩
  · intro s g hret hstop hidle
    exact ⟨_, rfl, engineStop_stops hret hstop hidle⟩
  · intro s c n hsafe hgo hn
    obtain ⟨hclear, hmem⟩ := htCommit_commits hgo hn
    obtain ⟨h0, h1⟩ := mnat_two_words hmem
    refine ⟨_, congrArg Host.Outcome.next (State.live_of_not_safe hsafe (htCommit c)), hclear, h0, ?_, fun k hk => ?_⟩
    · rwa [show csmKey c (0xFF000 + 16 * n) + 8 = csmKey c (0xFF008 + 16 * n) by simp only [csmKey]; omega] at h1
    · rw [hmem]
      refine Memory.read_writeN_out _ _ _ _ ?_
      rw [List.length_append, length_leBytes, length_leBytes]
      simp only [csmKey] at hk ⊢
      omega
  · intro s c hsafe hgo
    exact ⟨_, congrArg Host.Outcome.next (State.live_of_not_safe hsafe (icacheInv c)), icacheInv_clears hgo⟩

end Sys2Proof.Machine
end

section
open Sys2Proof Sys2Proof.Machine
namespace Sys2Proof.Machine

/-! ### A launch is judged by the low byte of its thread's level (R99, R125) -/

/-- A trigger that launches the block at offset 0x400 of the frame when FT is 1. -/
def launchTrigger : List Byte := leBytes 8 11 ++ leBytes 8 1 ++ leBytes 2 1 ++ leBytes 2 0x400 ++ zeroBytes 44
/-- A put of 8 bytes whose source is far memory of ASK 5. -/
def farPut : List Byte := leBytes 8 1 ++ leBytes 8 7 ++ leBytes 8 8 ++ leBytes 8 5 ++ zeroBytes 32

/-- FT is 0 and valid, and thread 0, at the level 256, is about to issue a trig of `launchTrigger` with `farPut` in its frame. The
level is no User level, but the byte that is kept of it with the trigger is 0. -/
def levelCut : State :=
  ((((({ State.reset with inv := { Invar.init with state := .track } }).setThread 0
    { Thread.init with priv := 256, running := true, pc := 0x1000, g := [(1, 0x8000000000000040)] }).setEngine 0
    { Engine.init with icache := [(1, 0x100)], itlb := [⟨0, 1, 12, 0x4000, true, 0xFC, 0⟩] }).setCluster 0
    { Cluster.init with askc := [⟨0, askEntry 0 1 0 0 31 3 1 0, 0⟩] }).mwrite (ldmKey 0 0x40) launchTrigger).mwrite
    (frameKey 0 0x400) farPut

theorem levelCut_accepts : levelCut.accepts 0 1 1 launchTrigger 0 := by
  unfold State.accepts State.issues; decide +kernel

/-- The trigger is refused with ACCESS_DENIED, as that of a User thread would be. -/
theorem trig_levelCut : ((trig 0 0 1 0 levelCut).op 0).status = some 3 := by decide +kernel

/-- Refutes O24: `trig` keeps the level of its thread in one byte, so a thread whose level is a multiple of 256 has its launch judged as
at User level. The clause of an armed launch admits such a level, and its operation is not open but ACCESS_DENIED. -/
theorem not_unitCommands : ¬ Obligations.UnitCommands := by
  unfold Obligations.UnitCommands
  rintro ⟨-, -, -, -, -, -, -, hlaunch, -⟩
  obtain ⟨u, hu, -, hopen, -⟩ := hlaunch levelCut 0 0 1 0 0 1 0 launchTrigger farPut (by decide) levelCut_accepts
    (by unfold State.validBlock; decide +kernel) (by decide +kernel) rfl (by decide +kernel) (by decide +kernel) (by decide +kernel)
    (by decide +kernel) (by decide +kernel) rfl (by decide +kernel) (by decide +kernel) (by decide +kernel)
  have hdenied := trig_levelCut
  rw [show trig 0 0 1 0 levelCut = u from Host.Outcome.next.inj hu, hopen] at hdenied
  exact nomatch hdenied

end Sys2Proof.Machine
end

section
open Sys2Proof Sys2Proof.Machine
namespace Sys2Proof.Machine

/-! ### The stage of a report that is beyond the last one (R105, R148) -/

/-- The report of the operation in slot 0 is not delivered and stands at the stage 4, beyond that of an item being written. -/
def stageBeyond : State := State.reset.setOp 0 { Op.free with delivered := false, stage := 4 }

/-- Its item goes to the write port, and its stage stays 4. -/
theorem opDone_stageBeyond : ((opDone 0 0 stageBeyond).op 0).stage = 4 := by decide +kernel

/-- Refutes O26: `deliverOp` raises the stage of a report to 3 and never lowers it. The clause of a completion item asks only that the stage
is not 3, so it admits the stage 4, which stays 4 when the item goes to the write port. -/
theorem not_operationProgress : ¬ Obligations.OperationProgress := by
  unfold Obligations.OperationProgress
  rintro ⟨-, -, -, -, -, -, hitem, -⟩
  obtain ⟨u, hu, hstage, -⟩ := hitem stageBeyond 0 0 0 0 0 0 0 (by decide) (by decide +kernel) (by decide +kernel) (by decide +kernel)
    (by decide +kernel) (by decide +kernel) (by decide +kernel) (by decide +kernel) (by decide +kernel) (by decide +kernel)
    (by decide +kernel)
  have hkept := opDone_stageBeyond
  rw [show opDone 0 0 stageBeyond = u from Host.Outcome.next.inj hu, hstage] at hkept
  exact absurd hkept (by decide)

end Sys2Proof.Machine
end

section
open Sys2Proof Sys2Proof.Machine
namespace Sys2Proof.Machine

/-! ### What the fetch leaves of work FIFOs and packet references (R62, R68, R129) -/

/-- The second state has the work FIFOs and the packet references of the first. -/
structure State.Stores (s u : State) : Prop where
  fifos : u.fifos = s.fifos
  refs : ∀ c, (u.cluster c).refs = (s.cluster c).refs

variable {s u v : State} {t len level level' : Nat} {srcs srcs' : List Nat}

theorem State.Stores.refl (s : State) : s.Stores s := ⟨rfl, fun _ => rfl⟩

theorem State.Stores.of_clusters (h : s.Stores u) (hf : v.fifos = u.fifos) (hc : v.clusters = u.clusters) : s.Stores v :=
  ⟨hf.trans h.fifos, fun c => by simpa only [State.cluster, hc] using h.refs c⟩

theorem State.setCluster_stores (h : s.Stores u) (c : Nat) {x : Cluster} (hx : x.refs = (u.cluster c).refs) :
    s.Stores (u.setCluster c x) := by
  refine ⟨h.fifos, fun c' => ?_⟩
  by_cases hc : c' = c
  · subst hc; rw [State.cluster_setCluster, hx, h.refs]
  · rw [State.cluster_setCluster_ne _ _ _ _ hc, h.refs]

theorem State.setEngTlb_stores (h : s.Stores u) (w : EngTlb) (l : List TlbEntry) : s.Stores (u.setEngTlb w l) := by
  cases w <;> exact h.of_clusters rfl rfl

theorem State.cachePut_stores {α : Type} (h : s.Stores u) (ways : Nat) (same set : α → Bool) (e : α) (l : List α) :
    s.Stores (u.cachePut ways same set e l).2 := h.of_clusters (by simp) (by simp)

theorem State.askOf_stores (h : s.Stores u) (c ask : Nat) : s.Stores (u.askOf c ask).2 := by
  unfold State.askOf
  extract_lets fill cl
  have hfill {v : State} (hv : s.Stores v) : s.Stores (fill v).2 :=
    State.setCluster_stores (State.cachePut_stores hv _ _ _ _ _) _ rfl
  clear_value fill
  split
  · split
    · exact hfill (h.of_clusters rfl rfl)
    · exact State.setCluster_stores h _ rfl
  · exact hfill h

theorem State.tlbLookup_stores (h : s.Stores u) (c : Nat) (w : EngTlb) (ask va : Nat) : s.Stores (u.tlbLookup c w ask va).2 := by
  have hdrop {v : State} (hv : s.Stores v) (d : Bool) : s.Stores (if d then v.bump R.XLT_MAXAGE_DROP_COUNT else v) := by
    cases d
    · exact hv
    · exact hv.of_clusters rfl rfl
  unfold State.tlbLookup
  split
  next e1 l1 d1 _ =>
  extract_lets s1 s2
  have h₂ : s.Stores s2 := hdrop (State.setEngTlb_stores h w l1) d1
  clear_value s2
  split
  · exact h₂
  split
  next e2 l2 d2 _ =>
  extract_lets s3 s4
  have h₃ : s.Stores s3 := State.setCluster_stores h₂ c rfl
  have h₄ : s.Stores s4 := hdrop h₃ d2
  clear_value s4
  split
  · exact State.setEngTlb_stores h₄ _ _
  · exact h₄

theorem State.xlate_stores (h : s.Stores u) (c : Nat) (w : EngTlb) (ask va need : Nat) (check : Bool) :
    s.Stores (u.xlate c w ask va need check).2 := by
  have hask := State.askOf_stores h c ask
  unfold State.xlate
  split
  next b s1 hb =>
  rw [hb] at hask
  have htlb := State.tlbLookup_stores hask c w ask va
  split
  · exact hask
  split
  · exact hask
  split
  next e s2 he =>
  rw [he] at htlb
  split
  · exact htlb
  · split <;> exact htlb

theorem State.fetchAt_stores (s : State) (t : Nat) (a : Word) : (s.fetchAt t a).1 = false ∨ s.Stores (s.fetchAt t a).2 := by
  unfold State.fetchAt
  extract_lets th c g va fault
  split
  · exact .inl (by split <;> rfl)
  split
  · exact .inl rfl
  have hx := State.xlate_stores (.refl s) c (.instr g) th.xask va (leafX + if th.priv == 0 then leafU else 0) true
  split
  next r s1 hr =>
  rw [hr] at hx
  split
  · exact .inl rfl
  · exact .inl rfl
  · exact .inl rfl
  · extract_lets line
    split
    · exact .inr hx
    · exact .inl rfl

theorem State.issues.stores (h : s.issues t 4 level srcs) : s.Stores (s.fetched t 4) := by
  obtain ⟨-, -, -, -, -, hok, -⟩ := h
  exact ((s.fetchAt_stores t (s.thread t).pc).resolve_left (by simp [hok])).of_clusters rfl rfl

/-! ### What an instruction that issues sees and leaves of the other parts -/

/-- A part that the fetch of any instruction leaves as it was. -/
theorem State.issues.same (p : Part) (hp : p ∉ [.regs, .tgf, .fifos, .threads, .engines, .clusters, .out] := by decide) :
    s.same (s.fetched t 4) p := by
  have hasp := Aspect.outside_of_not_mem hp
  exact State.setWait_spares (asp := some p) (by simp only [Aspect.outside] at hasp ⊢; exact ⟨hasp.2.2.2.1, trivial⟩)
    (State.fetchAt_spares hasp (.refl s) t (s.thread t).pc) t .ready

theorem State.issues.inv (h : s.issues t len level srcs) : (s.fetched t len).inv = s.inv := h.looked.inv
theorem State.issues.ops (h : s.issues t len level srcs) : (s.fetched t len).ops = s.ops := h.looked.ops
theorem State.issues.net (h : s.issues t len level srcs) : (s.fetched t len).net = s.net := h.looked.net
theorem State.op_of_ops (h : u.ops = s.ops) (k : Nat) : u.op k = s.op k := by simp only [State.op, h]
theorem State.issues.op (h : s.issues t len level srcs) (k : Nat) : (s.fetched t len).op k = s.op k := State.op_of_ops h.ops k
theorem State.issues.half (h : s.issues t len level srcs) (r : Nat) : (s.fetched t len).half r = s.half r := h.looked.half r
theorem State.issues.fifo (h : s.issues t 4 level srcs) (k : Nat) : (s.fetched t 4).fifo k = s.fifo k := by
  simp only [State.fifo, h.stores.fifos]
theorem State.issues.pktRef (h : s.issues t 4 level srcs) (c r : Nat) : (s.fetched t 4).pktRef c r = s.pktRef c r := by
  simp only [State.pktRef, h.stores.refs]

theorem RegDesc.base_le_addr (r : RegDesc) (ix : List Nat) : r.base ≤ r.addr ix := Nat.le_add_right _ _

/-- The fetch counts dropped translations, and writes no register above that count. -/
theorem State.issues.fd (h : s.issues t len level srcs) (f : Fld) (ix : List Nat)
    (hf : R.XLT_MAXAGE_DROP_COUNT.base < f.reg.base := by decide) : (s.fetched t len).fd f ix = s.fd f ix :=
  congrArg (bitsW · f.hi f.lo) (h.looked.rd f.reg ix (Nat.ne_of_gt (Nat.lt_of_lt_of_le hf (RegDesc.base_le_addr _ _))))

theorem State.issues.ldmOk (h : s.issues t len level srcs) (a n : Nat) : (s.fetched t len).ldmOk t a n = s.ldmOk t a n := by
  simp only [State.ldmOk, h.thread]

/-- What the monitors do when an instruction has issued changes registers and themselves only. -/
theorem State.issue_same (h : s.issues t len level srcs) (word : Nat) (hlevel : level' ≤ level) (hsrcs : ∀ i ∈ srcs', i ∈ srcs)
    (k : State → State) (p : Part) (hp : p ∉ [.regs, .threads, .dev] := by decide) :
    (k (s.fetched t len)).same (s.issue t word len true level' srcs' k) p := by
  rw [State.issue_eq h word hlevel hsrcs k]
  exact State.issued_spares (asp := some p) (Aspect.outside_of_not_mem hp) (.refl _) t word

theorem State.fifo_of_fifos (h : u.fifos = s.fifos) (k : Nat) : u.fifo k = s.fifo k := by simp only [State.fifo, h]
theorem State.cluster_of_clusters (h : u.clusters = s.clusters) (c : Nat) : u.cluster c = s.cluster c := by simp only [State.cluster, h]

/-- An area of the local memory that is aligned and in range. -/
theorem State.withLdm_eq {rs1 al n : Nat} (hal : (u.reg t (rs1 % 32)).toNat % al = 0) (hok : u.ldmOk t (u.reg t (rs1 % 32)).toNat n = true)
    (hgood : u.badReg t srcs = none) (k : Nat → State → State) :
    u.withLdm t rs1 al n srcs k = k (ldmAddrKey t (u.reg t (rs1 % 32)).toNat) u := by
  simp [State.withLdm, hal, hok, hgood]

/-- The same of an instruction that issues. -/
theorem State.issues.withLdm_eq (h : s.issues t len level srcs) {rs1 al n : Nat} (hal : (s.reg t (rs1 % 32)).toNat % al = 0)
    (hok : s.ldmOk t (s.reg t (rs1 % 32)).toNat n = true) (hsub : ∀ i ∈ srcs', i ∈ srcs) (k : Nat → State → State) :
    (s.fetched t len).withLdm t rs1 al n srcs' k = k (ldmAddrKey t (s.reg t (rs1 % 32)).toNat) (s.fetched t len) := by
  rw [State.withLdm_eq (by rwa [h.reg]) (by rwa [h.reg, h.ldmOk]) (h.badReg hsub (by rw [h.thread])), h.reg]

theorem State.withLdmRead_eq {rs1 key n : Nat} (hbad : u.bad key n = false) (k : State → State) : u.withLdmRead t rs1 key n k = k u := by
  simp [State.withLdmRead, hbad]

end Sys2Proof.Machine
end

section
open Sys2Proof Sys2Proof.Machine
namespace Sys2Proof.Machine

/-! ### Completion (R105, R116, R132) -/

variable {α : Type} {s u : State} {t j k st : Nat}

theorem SMap.mem_insert {m : SMap α} {i : Nat} {v : α} {e : Nat × α} (h : e ∈ SMap.insert m i v) : e = (i, v) ∨ e ∈ m := by
  induction m with
  | nil => exact .inl (List.mem_singleton.mp h)
  | cons x m ih =>
    simp only [SMap.insert] at h
    split at h
    · exact (List.mem_cons.mp h).imp_right (List.mem_cons_of_mem _)
    split at h
    · exact List.mem_cons.mp h
    · obtain rfl | h := List.mem_cons.mp h
      · exact .inr List.mem_cons_self
      · exact (ih h).imp_right (List.mem_cons_of_mem _)

theorem SMap.mem_erase {m : SMap α} {i : Nat} {e : Nat × α} (h : e ∈ SMap.erase m i) : e ∈ m := by
  induction m with
  | nil => exact h
  | cons x m ih =>
    simp only [SMap.erase] at h
    split at h
    · exact List.mem_cons_of_mem _ (ih h)
    · obtain rfl | h := List.mem_cons.mp h
      · exact List.mem_cons_self
      · exact List.mem_cons_of_mem _ (ih h)

/-- An entry of a map with a value replaced is the new one, or was there before. -/
theorem SMap.mem_set [DecidableEq α] {d : α} {m : SMap α} {i : Nat} {v : α} {e : Nat × α} (h : e ∈ SMap.set d m i v) :
    e = (i, v) ∨ e ∈ m := by
  unfold SMap.set at h
  split at h
  · exact .inr (SMap.mem_erase h)
  · exact SMap.mem_insert h

/-- A change of every value leaves one that it does not concern. -/
theorem SMap.get_mapVals_same [DecidableEq α] {d : α} {f : Nat → α → α} {m : SMap α} {i : Nat} (hd : SMap.get d m i ≠ d)
    (hf : f i (SMap.get d m i) = SMap.get d m i) : SMap.get d (SMap.mapVals d f m) i = SMap.get d m i := by
  induction m with
  | nil => rfl
  | cons x m ih =>
    obtain ⟨i', v⟩ := x
    by_cases hi : i = i'
    · subst hi
      simp only [SMap.get, if_true] at hd hf
      simp [SMap.mapVals, SMap.get, hf, hd]
    · simp only [SMap.get, hi, if_false] at hd hf ⊢
      simp only [SMap.mapVals]
      split
      · exact ih hd hf
      · simp only [SMap.get, hi, if_false]; exact ih hd hf

/-- The thread runs and waits for nothing, as after an instruction that has ended. -/
def State.awake (s : State) (t : Nat) : Prop := (s.thread t).running = true ∧ (s.thread t).wait = .ready

/-- Only threads that wait for the operation are woken. -/
theorem State.wakeOpwait_thread (h : s.awake t) (k gen st : Nat) : (s.wakeOpwait k gen st).thread t = s.thread t := by
  obtain ⟨hrun, hwait⟩ := h
  refine SMap.get_mapVals_same (fun hd => ?_) ?_
  · rw [State.thread, hd] at hrun; exact absurd hrun (by decide)
  · rw [State.thread] at hwait; simp only [hwait]

theorem State.awake.of_thread (h : s.awake t) (hu : u.thread t = s.thread t) : u.awake t := by rwa [State.awake, hu]

theorem State.finish_thread (h : s.awake t) (k st : Nat) : (s.finish k st).thread t = s.thread t := by
  unfold State.finish
  dsimp only
  split
  · split <;> exact State.wakeOpwait_thread h _ _ _
  · rfl

/-- The slot of an operation that ends with a status. -/
def Op.ended (o : Op) (st : Nat) (ft : Word) : Op :=
  { o with status := some st, ftDone := ft, held := false, delivered := false, stage := 0, keyed := none }

theorem State.finish_ops (s : State) (k st : Nat) :
    (s.finish k st).ops = if (s.op k).isOpen then (s.setOp k ((s.op k).ended st s.ft)).ops else s.ops := by
  unfold State.finish
  dsimp only
  split
  · split <;> rfl
  · rfl

theorem State.finish_of_closed (h : (s.op k).isOpen = false) (st : Nat) : s.finish k st = s := by simp [State.finish, h]

theorem State.finish_ops_of_open (h : (s.op k).isOpen = true) (st : Nat) :
    (s.finish k st).ops = (s.setOp k ((s.op k).ended st s.ft)).ops := by rw [State.finish_ops, if_pos h]

theorem State.finish_op_same (h : (s.op k).isOpen = true) (st : Nat) : (s.finish k st).op k = (s.op k).ended st s.ft := by
  rw [State.op_of_ops (State.finish_ops_of_open h st), State.op_setOp]

theorem State.finish_op_ne (s : State) (st : Nat) (hj : j ≠ k) : (s.finish k st).op j = s.op j := by
  cases h : (s.op k).isOpen
  · rw [State.finish_of_closed h]
  · rw [State.op_of_ops (State.finish_ops_of_open h st), State.op_setOp_ne _ _ _ _ hj]

/-- No operation waits for a fence, a window, a mover or a limiter. -/
def State.noneHeld (s : State) : Prop := ∀ e ∈ s.ops, e.2.held = false

theorem State.noneHeld.setOp (h : s.noneHeld) {o : Op} (ho : o.held = false) (hu : u.ops = (s.setOp k o).ops) : u.noneHeld := by
  intro e he
  rw [hu] at he
  obtain rfl | he := SMap.mem_set he
  · exact ho
  · exact h e he

theorem State.finish_noneHeld (h : s.noneHeld) (k st : Nat) : (s.finish k st).noneHeld := by
  cases ho : (s.op k).isOpen
  · rwa [State.finish_of_closed ho]
  · exact h.setOp (o := (s.op k).ended st s.ft) rfl (State.finish_ops_of_open ho st)

/-- What fences that complete leave: threads that do not wait, operations that have ended, and that none is held. -/
theorem State.settleFences_kept (s : State) (fs : List Nat) :
    (∀ t, s.awake t → (s.settleFences fs).thread t = s.thread t) ∧
    (∀ j, (s.op j).isOpen = false → (s.settleFences fs).op j = s.op j) ∧ (s.noneHeld → (s.settleFences fs).noneHeld) := by
  induction fs generalizing s with
  | nil => exact ⟨fun _ _ => rfl, fun _ _ => rfl, id⟩
  | cons f fs ih =>
    obtain ⟨hthread, hop, hheld⟩ := ih (if (s.op f).isOpen && s.fenceClear f then s.finish f 0 else s)
    by_cases hf : ((s.op f).isOpen && s.fenceClear f) = true
    · rw [if_pos hf] at hthread hop hheld
      rw [State.settleFences, List.foldl_cons, if_pos hf]
      refine ⟨fun t ht => ?_, fun j hj => ?_, fun h => hheld (State.finish_noneHeld h _ _)⟩
      · have hfin := State.finish_thread ht f 0
        exact (hthread t (ht.of_thread hfin)).trans hfin
      · have hfin : (s.finish f 0).op j = s.op j :=
          State.finish_op_ne s 0 fun e => by subst e; simp [hj] at hf
        exact (hop j (by rw [hfin]; exact hj)).trans hfin
    · rw [if_neg hf] at hthread hop hheld
      rw [State.settleFences, List.foldl_cons, if_neg hf]
      exact ⟨hthread, hop, hheld⟩

theorem State.complete_thread (h : s.awake t) (k st : Nat) : (s.complete k st).thread t = s.thread t :=
  ((State.settleFences_kept _ _).1 t (h.of_thread (State.finish_thread h k st))).trans (State.finish_thread h k st)

theorem State.complete_noneHeld (h : s.noneHeld) (k st : Nat) : (s.complete k st).noneHeld :=
  (State.settleFences_kept _ _).2.2 (State.finish_noneHeld h k st)

/-- An open operation that completes. -/
theorem State.complete_op (h : (s.op k).status = none) (st : Nat) : (s.complete k st).op k = (s.op k).ended st s.ft := by
  have hfin := State.finish_op_same (s := s) (k := k) (by simp [Op.isOpen, h]) st
  exact ((State.settleFences_kept _ _).2.1 k (by rw [hfin]; rfl)).trans hfin

theorem State.completeWith_thread (h : s.awake t) (k st : Nat) (result : Word) (bytes : Nat) :
    (s.completeWith k st result bytes).thread t = s.thread t := State.complete_thread (s := s.setOp k _) h k st

theorem State.completeWith_op (h : (s.op k).status = none) (st : Nat) (result : Word) (bytes : Nat) :
    (s.completeWith k st result bytes).op k = { s.op k with result := result, bytes := bytes }.ended st s.ft := by
  rw [State.completeWith, State.complete_op (by rw [State.op_setOp]; exact h), State.op_setOp]; rfl

/-- With none held, nothing starts. -/
theorem State.startHeld_of_noneHeld (h : s.noneHeld) : s.startHeld = s := by
  have hnil : s.ops.filter (fun e => e.2.isOpen && e.2.held) = [] :=
    List.filter_eq_nil_iff.mpr fun e he => by simp [h e he]
  rw [State.startHeld, hnil]; rfl

end Sys2Proof.Machine
end

section
open Sys2Proof Sys2Proof.Machine
namespace Sys2Proof.Machine

variable {s u : State} {t rd rs1 rs2 fn k level level' len : Nat} {srcs srcs' : List Nat}

/-! ### The clock's instructions (R121 to R124) -/

theorem firstFn_of_lt {all : Nat} (h : fn % 2 ^ 11 < all) : firstFn all fn = 0 := if_pos h

/-- An instruction that writes a value of the fetched state and goes on. -/
theorem State.issue_writes (h : s.issues t len level srcs) (word : Nat) (hlevel : level' ≤ level) (hsrcs : ∀ i ∈ srcs', i ∈ srcs)
    (rd : Nat) {val : State → Word} {v : Word} (hv : val (s.fetched t len) = v) :
    (s.issue t word len true level' srcs' fun s => s.writeNext t rd len (val s)).thread t = (s.thread t).wrote rd v len :=
  State.issue_wrote h word hlevel hsrcs _ h.thread (by rw [hv])

theorem State.ft_of_inv (h : u.inv = s.inv) : u.ft = s.ft := congrArg Invar.ft h
theorem State.ftValid_of_inv (h : u.inv = s.inv) : u.ftValid = s.ftValid := by simp only [State.ftValid, h]
theorem State.ftReached_of_inv (h : u.inv = s.inv) (v : Word) : u.ftReached v = s.ftReached v := by
  rw [State.ftReached, State.ft_of_inv h, State.ftReached]
theorem State.timeStatus_of_inv (h : u.inv = s.inv) : u.timeStatus = s.timeStatus := by
  simp only [State.timeStatus, State.holdover, State.parentHoldover, State.ftValid, h]

theorem rdft_thread (h : s.issues t 4 0 []) (h1 : rs1 % 32 = 0) (h2 : rs2 % 32 = 0) (hfn : fn % 2 ^ 11 < 4) :
    (rdft t rd rs1 rs2 fn s).thread t = (s.thread t).wrote (rd % 32) s.ft 4 := by
  unfold rdft
  simp only [firstFn_of_lt hfn, h1, h2, beq_self_eq_true, Bool.and_self]
  exact State.issue_writes h _ (Nat.le_refl _) (fun _ hi => hi) _ (State.ft_of_inv h.inv)

theorem rdlt_thread (h : s.issues t 4 0 []) (h1 : rs1 % 32 = 0) (h2 : rs2 % 32 = 0) :
    (rdlt t rd rs1 rs2 s).thread t = (s.thread t).wrote (rd % 32) s.loc 4 := by
  unfold rdlt
  simp only [h1, h2, beq_self_eq_true, Bool.and_self]
  exact State.issue_writes h _ (Nat.le_refl _) (fun _ hi => hi) _ (congrArg Invar.loc h.inv)

theorem rdts_thread (h : s.issues t 4 0 []) (h1 : rs1 % 32 = 0) (h2 : rs2 % 32 = 0) :
    (rdts t rd rs1 rs2 s).thread t = (s.thread t).wrote (rd % 32) s.timeStatus 4 := by
  unfold rdts
  simp only [h1, h2, beq_self_eq_true, Bool.and_self]
  exact State.issue_writes h _ (Nat.le_refl _) (fun _ hi => hi) _ (State.timeStatus_of_inv h.inv)

/-- Writing a result changes threads only. -/
theorem State.writeNext_eq (s : State) (t i n : Nat) (v : Word) : ∃ l, s.writeNext t i n v = { s with threads := l } := by
  by_cases hi : i = 0
  · exact ⟨_, by rw [State.writeNext, State.setReg, if_pos hi]; rfl⟩
  · exact ⟨_, by rw [State.writeNext, State.setReg, if_neg hi]; rfl⟩

theorem State.writeNext_ops (s : State) (t i n : Nat) (v : Word) : (s.writeNext t i n v).ops = s.ops := by
  obtain ⟨l, h⟩ := s.writeNext_eq t i n v; rw [h]

theorem State.writeNext_fifos (s : State) (t i n : Nat) (v : Word) : (s.writeNext t i n v).fifos = s.fifos := by
  obtain ⟨l, h⟩ := s.writeNext_eq t i n v; rw [h]

theorem State.writeNext_mem (s : State) (t i n : Nat) (v : Word) : (s.writeNext t i n v).mem = s.mem := by
  obtain ⟨l, h⟩ := s.writeNext_eq t i n v; rw [h]

/-- The effect of an instruction that waits. -/
theorem State.issues.setWait_thread (h : s.issues t len level srcs) (w : Wait) :
    ((s.fetched t len).setWait t w).thread t = { s.thread t with wait := w } := by
  rw [State.setWait, State.thread_setThread, h.thread]

theorem waitft_thread (h : s.issues t 4 0 [rs1 % 32]) (h2 : rs2 % 32 = 0) :
    (waitft t rd rs1 rs2 s).thread t =
      if !s.ftValid then (s.thread t).wrote (rd % 32) 1 4
      else if s.ftReached (s.reg t (rs1 % 32)) then (s.thread t).wrote (rd % 32) 0 4
      else { s.thread t with wait := .ft (s.reg t (rs1 % 32)) (rd % 32) } := by
  unfold waitft
  simp only [h2, beq_self_eq_true]
  have hval := State.ftValid_of_inv h.inv
  have hreach := State.ftReached_of_inv h.inv (s.reg t (rs1 % 32))
  split
  next hv => exact State.issue_wrote h _ (Nat.le_refl _) (fun _ hi => hi) _ h.thread (by rw [hval, if_pos hv])
  next hv =>
  split
  next hr =>
    exact State.issue_wrote h _ (Nat.le_refl _) (fun _ hi => hi) _ h.thread (by rw [hval, if_neg hv, h.reg, hreach, if_pos hr])
  next hr =>
    refine State.issue_thread_of h _ (Nat.le_refl _) (fun _ hi => hi) _ ?_ rfl
    rw [hval, if_neg hv, h.reg, hreach, if_neg hr, h.setWait_thread]

/-- A thread that waited writes its result and goes on. -/
theorem State.writeNext_ready_thread (s : State) (t rd : Nat) (v : Word) :
    ((s.writeNext t rd 4 v).setWait t .ready).thread t = (s.thread t).wrote rd v 4 := by
  rw [State.setWait, State.thread_setThread, State.writeNext_thread]; rfl

theorem waitftWake_eq {v : Word} (hwait : (s.thread t).wait = .ft v rd) (hsafe : s.inSafe = false)
    (hrun : (s.thread t).running = true) :
    waitftWake t s =
      if (s.thread t).expired then (s.writeNext t rd 4 3).setWait t .ready
      else if !s.ftValid then (s.writeNext t rd 4 4).setWait t .ready
      else if s.ftReached v then (s.writeNext t rd 4 (if s.holdover then 2 else 0)).setWait t .ready
      else s := by
  simp [waitftWake, hwait, hsafe, hrun]

/-! ### Handles (R132) -/

theorem State.handleOp_of_ops (h : u.ops = s.ops) (v : Word) : u.handleOp v = s.handleOp v := by
  simp only [State.handleOp, State.op_of_ops h]

theorem State.issues.handleOp (h : s.issues t len level srcs) (i : Nat) :
    (s.fetched t len).handleOp ((s.fetched t len).reg t i) = s.handleOp (s.reg t i) := by
  rw [h.reg, State.handleOp_of_ops h.ops]

theorem opstat_thread (h : s.issues t 4 0 [rs1 % 32]) (h2 : rs2 % 32 = 0) (hfn : fn % 2 ^ 11 < 4) :
    (opstat t rd rs1 rs2 fn s).thread t = (s.thread t).wrote (rd % 32) (match s.handleOp (s.reg t (rs1 % 32)) with
      | some k => w64 ((s.op k).status.getD 0xFF)
      | none => 0xFE) 4 := by
  unfold opstat
  simp only [firstFn_of_lt hfn, h2, beq_self_eq_true, Bool.and_self]
  refine State.issue_writes h _ (Nat.le_refl _) (fun _ hi => hi) _ ?_
  rw [h.handleOp]
  cases s.handleOp (s.reg t (rs1 % 32)) with
  | none => rfl
  | some k => exact congrArg (fun o : Op => w64 (o.status.getD 0xFF)) (h.op k)

theorem opwait_none_thread (h : s.issues t 4 0 [rs1 % 32]) (h2 : rs2 % 32 = 0) (hop : s.handleOp (s.reg t (rs1 % 32)) = none) :
    (opwait t rd rs1 rs2 s).thread t = (s.thread t).wrote (rd % 32) 0xFE 4 := by
  unfold opwait
  simp only [h2, beq_self_eq_true]
  exact State.issue_wrote h _ (Nat.le_refl _) (fun _ hi => hi) _ h.thread (by rw [h.handleOp, hop])

theorem opwait_some_thread (h : s.issues t 4 0 [rs1 % 32]) (h2 : rs2 % 32 = 0) (hop : s.handleOp (s.reg t (rs1 % 32)) = some k) :
    (∀ st, (s.op k).status = some st → (opwait t rd rs1 rs2 s).thread t = (s.thread t).wrote (rd % 32) (w64 st) 4) ∧
    ((s.op k).status = none → (opwait t rd rs1 rs2 s).thread t = { s.thread t with wait := .op k (s.op k).gen (rd % 32) }) := by
  unfold opwait
  simp only [h2, beq_self_eq_true]
  refine ⟨fun st hst => ?_, fun hst => ?_⟩
  · exact State.issue_wrote h _ (Nat.le_refl _) (fun _ hi => hi) _ h.thread (by simp only [h.handleOp, hop, h.op, hst])
  · refine State.issue_thread_of h _ (Nat.le_refl _) (fun _ hi => hi) _ ?_ rfl
    simp only [h.handleOp, hop, h.op, hst]
    exact h.setWait_thread _

/-- A thread whose instruction issues runs. -/
theorem State.issues.awake (h : s.issues t len level srcs) : (s.fetched t len).awake t := by
  have hready := h.2.2.1
  rw [State.ready, Bool.and_eq_true] at hready
  exact ⟨by rw [h.thread]; exact hready.1, by rw [h.thread]⟩

/-- An open get that is given up ends with ABORTED. -/
theorem State.abortOp_get (hopen : (s.op k).status = none) (hkind : (s.op k).kind = 2) : s.abortOp k = (true, s.complete k 1) := by
  have : (s.op k).isOpen = true := by simp [Op.isOpen, hopen]
  simp [State.abortOp, this, hkind]

theorem opabort_get (h : s.issues t 4 0 [rs1 % 32]) (h2 : rs2 % 32 = 0) (hop : s.handleOp (s.reg t (rs1 % 32)) = some k)
    (hheld : s.noneHeld) (hopen : (s.op k).status = none) (hkind : (s.op k).kind = 2) :
    ((opabort t rd rs1 rs2 s).op k).status = some 1 ∧ (opabort t rd rs1 rs2 s).thread t = (s.thread t).wrote (rd % 32) 0 4 := by
  have hheld' : (s.fetched t 4).noneHeld := by rwa [State.noneHeld, h.ops]
  have hopen' : ((s.fetched t 4).op k).status = none := by rw [h.op]; exact hopen
  have hk : ((((s.fetched t 4).complete k 1).writeNext t (rd % 32) 4 0).startHeld) =
      ((s.fetched t 4).complete k 1).writeNext t (rd % 32) 4 0 :=
    State.startHeld_of_noneHeld (by rw [State.noneHeld, State.writeNext_ops]; exact State.complete_noneHeld hheld' _ _)
  unfold opabort
  simp only [h2, beq_self_eq_true]
  constructor
  · rw [State.op_of_ops (State.issue_same h _ (Nat.le_refl _) (fun _ hi => hi) _ .ops)]
    simp only [h.handleOp, hop, State.abortOp_get hopen' (by rw [h.op]; exact hkind), if_true, hk]
    rw [State.op_of_ops (State.writeNext_ops _ _ _ _ _), State.complete_op hopen']
    rfl
  · refine State.issue_wrote h _ (Nat.le_refl _) (fun _ hi => hi) _
      (u := (s.fetched t 4).complete k 1) ((State.complete_thread h.awake _ _).trans h.thread) ?_
    simp only [h.handleOp, hop, State.abortOp_get hopen' (by rw [h.op]; exact hkind), if_true, hk]

/-! ### WFPUSH and WFPOP (R120, R134, R147, R148) -/

theorem State.issues.clusterCount (_ : s.issues t 4 level srcs) : (s.fetched t 4).clusterCount = s.clusterCount := by
  have hvar : (s.fetched t 4).variant = s.variant := State.issues.same .variant
  rw [State.clusterCount, State.is096, hvar]; rfl

theorem State.issues.wfRoom (h : s.issues t 4 level srcs) (k n : Nat) (b : Bool) : (s.fetched t 4).wfRoom k b n = s.wfRoom k b n := by
  simp only [State.wfRoom, h.fifo, h.fd F.WF_CFG_RESV]

theorem State.issues.wfPolled (h : s.issues t 4 level srcs) (k : Nat) : (s.fetched t 4).wfPolled k = s.wfPolled k := by
  simp only [State.wfPolled, State.fb, h.fd F.WF_CFG_POLLED]

theorem State.issues.mread (h : s.issues t len level srcs) (k n : Nat) : (s.fetched t len).mread k n = s.mread k n :=
  congrArg (fun m : Memory => m.readN k n) h.mem

/-- The item that WFPUSH of the descriptor makes of the bytes at the key (R134). -/
def State.pushItem (s : State) (t v key : Nat) : Item :=
  let bytes := s.mread key (64 * (nbits v 23 20 + 1))
  { ty := nbits v 15 8, len := nbits v 23 20 + 1, prio := nbits v 18 16, src := if v % 64 == tCluster t then 3 else 4,
    srcCluster := tCluster t, commitNs := 0, body := bytes.take 56 ++ bytes.drop 64 }

/-- Two effects that agree on the fetched state make one instruction. -/
theorem State.issue_congr (h : s.issues t len level srcs) (word : Nat) (hlevel : level' ≤ level) (hsrcs : ∀ i ∈ srcs', i ∈ srcs)
    {k k' : State → State} (hk : k (s.fetched t len) = k' (s.fetched t len)) :
    s.issue t word len true level' srcs' k = s.issue t word len true level' srcs' k' := by
  rw [State.issue_eq h word hlevel hsrcs, State.issue_eq h word hlevel hsrcs, hk]

/-- What WFPUSH of a descriptor that keeps its rules does with its item. -/
def State.pushed (u : State) (t rd v : Nat) (it : Item) : State :=
  match u.wfStart (4 * (v % 64) + nbits v 7 6) ((u.thread t).priv == 2) it with
  | some s1 => s1.writeNext t (rd % 32) 4 0
  | none => (u.wfFull (4 * (v % 64) + nbits v 7 6)).writeNext t (rd % 32) 4 1

theorem wfpush_eq {v key : Nat} (hfn : fn % 2 ^ 11 < 2) (h : s.issues t 4 1 [rs1 % 32, rs2 % 32]) (hv : v = (s.reg t (rs2 % 32)).toNat)
    (hv24 : v < 2 ^ 24) (h19 : nbit v 19 = false) (hc : v % 64 < s.clusterCount) (hty : nbits v 15 8 < 0xEF)
    (hlevel : (s.thread t).priv = 2 ∨ 0x80 ≤ nbits v 15 8) (hal : (s.reg t (rs1 % 32)).toNat % 64 = 0)
    (hok : s.ldmOk t (s.reg t (rs1 % 32)).toNat (64 * (nbits v 23 20 + 1)) = true) (hkey : key = ldmAddrKey t (s.reg t (rs1 % 32)).toNat)
    (hbad : s.bad key (64 * (nbits v 23 20 + 1)) = false) :
    wfpush t rd rs1 rs2 fn s =
      s.issue t (wordA 0x37 rd rs1 rs2 0) 4 true 1 [] fun u => u.pushed t rd v (s.pushItem t v key) := by
  have hrule : (v / 2 ^ 24 != 0 || nbit v 19 || decide (s.clusterCount ≤ v % 64) || nbits v 15 8 == 0xEF ||
      decide (0xEF ≤ nbits v 15 8) || (!((s.thread t).priv == 2) && decide (nbits v 15 8 < 0x80))) = false := by
    have hpriv : (!((s.thread t).priv == 2) && decide (nbits v 15 8 < 0x80)) = false := by
      obtain hp | hp := hlevel
      · simp [hp]
      · simp [not_lt.mpr hp]
    rw [Nat.div_eq_of_lt hv24]
    simp [h19, hc, not_le.mpr hty, hty.ne, hpriv]
  unfold wfpush
  simp only [firstFn_of_lt hfn, beq_self_eq_true]
  refine State.issue_congr h _ (Nat.le_refl _) (by simp) ?_
  rw [h.reg, ← hv, h.withLdm_eq hal hok (fun _ hi => hi), ← hkey]
  simp only [h.thread, h.clusterCount, hrule, Bool.false_eq_true, if_false, h.mread,
    State.withLdmRead_eq (u := s.fetched t 4) (by rw [h.bad]; exact hbad)]
  simp only [State.pushed, State.pushItem, h.thread] <;> rfl

theorem wfpush_full {v key : Nat} (h : s.issues t 4 1 [rs1 % 32, rs2 % 32])
    (heff : wfpush t rd rs1 rs2 fn s = s.issue t (wordA 0x37 rd rs1 rs2 0) 4 true 1 [] fun u => u.pushed t rd v (s.pushItem t v key))
    (hroom : s.wfRoom (4 * (v % 64) + nbits v 7 6) ((s.thread t).priv == 2) (nbits v 23 20 + 1) = false) :
    (wfpush t rd rs1 rs2 fn s).thread t = (s.thread t).wrote (rd % 32) 1 4 ∧ (wfpush t rd rs1 rs2 fn s).fifos = s.fifos := by
  have hstart : (s.fetched t 4).pushed t rd v (s.pushItem t v key) =
      ((s.fetched t 4).wfFull (4 * (v % 64) + nbits v 7 6)).writeNext t (rd % 32) 4 1 := by
    have hno : ¬ (s.fetched t 4).wfRoom (4 * (v % 64) + nbits v 7 6) ((s.thread t).priv == 2) (s.pushItem t v key).len = true := by
      rw [h.wfRoom]; exact Bool.not_eq_true _ ▸ hroom
    simp only [State.pushed, h.thread, State.wfStart, if_neg hno]
  rw [heff]
  constructor
  · exact State.issue_wrote h _ (Nat.le_refl _) (by simp) _ (u := (s.fetched t 4).wfFull _) h.thread hstart
  · refine (State.issue_same h _ (Nat.le_refl _) (by simp) _ .fifos).trans ?_
    rw [hstart, State.writeNext_fifos]
    exact h.stores.fifos

theorem wfpush_room {v key : Nat} (h : s.issues t 4 1 [rs1 % 32, rs2 % 32])
    (heff : wfpush t rd rs1 rs2 fn s = s.issue t (wordA 0x37 rd rs1 rs2 0) 4 true 1 [] fun u => u.pushed t rd v (s.pushItem t v key))
    (hk : k = 4 * (v % 64) + nbits v 7 6) (hroom : s.wfRoom k ((s.thread t).priv == 2) (nbits v 23 20 + 1) = true) :
    (wfpush t rd rs1 rs2 fn s).thread t = (s.thread t).wrote (rd % 32) 0 4 ∧
    ((wfpush t rd rs1 rs2 fn s).fifo k).writing = (s.fifo k).writing ++
      [⟨some (s.fifo k).fill, (s.thread t).priv == 2, s.pushItem t v key, .plain⟩] := by
  obtain ⟨x, hx, hstart⟩ : ∃ x : Fifo, x.writing = (s.fifo k).writing ++
        [⟨some (s.fifo k).fill, (s.thread t).priv == 2, s.pushItem t v key, .plain⟩] ∧
      (s.fetched t 4).pushed t rd v (s.pushItem t v key) = ((s.fetched t 4).setFifo k x).writeNext t (rd % 32) 4 0 := by
    have hyes : (s.fetched t 4).wfRoom k ((s.thread t).priv == 2) (s.pushItem t v key).len = true := by rw [h.wfRoom]; exact hroom
    refine ⟨{ (s.fifo k) with writing := _ }, rfl, ?_⟩
    simp only [State.pushed, h.thread, State.wfStart, ← hk, if_pos hyes, h.fifo]
  rw [heff]
  constructor
  · exact State.issue_wrote h _ (Nat.le_refl _) (by simp) _ (u := (s.fetched t 4).setFifo k x) h.thread hstart
  · rw [State.fifo_of_fifos (State.issue_same h _ (Nat.le_refl _) (by simp) _ .fifos), hstart,
      State.fifo_of_fifos (State.writeNext_fifos _ _ _ _ _), State.fifo_setFifo, hx]

/-- WFPOP's look at the head of its FIFO: no item is taken where the FIFO has none, and the item taken is its head. -/
theorem State.wfTake_none (h : (s.fifo k).head = none) : s.wfTake k = none := by
  unfold State.wfTake
  rw [Fifo.head] at h
  dsimp only
  cases hi : (s.fifo k).headIdx with
  | none => rfl
  | some i =>
    rw [hi, Option.bind_some] at h
    simp only [h]

theorem State.wfTake_some {it : Item} (h : (s.fifo k).head = some it) :
    ∃ u, s.wfTake k = some (it, u) ∧ u.threads = s.threads := by
  unfold State.wfTake
  rw [Fifo.head] at h
  dsimp only
  cases hi : (s.fifo k).headIdx with
  | none => rw [hi] at h; cases h
  | some i =>
    rw [hi, Option.bind_some] at h
    simp only [h]
    exact ⟨_, rfl, by simp⟩

theorem wfpop_none {f ecc : Nat} (h : s.issues t 4 2 [rs1 % 32, rs2 % 32]) (hf : f = (s.reg t (rs2 % 32)).toNat) (hf4 : f < 4)
    (hpolled : s.wfPolled (4 * tCluster t + f) = true) (hhead : (s.fifo (4 * tCluster t + f)).head = none) :
    (wfpop t rd rs1 rs2 ecc s).thread t = (s.thread t).wrote (rd % 32) 0 4 ∧ (wfpop t rd rs1 rs2 ecc s).mem = s.mem := by
  have htake : (s.fetched t 4).wfTake (4 * tCluster t + f) = none := State.wfTake_none (by rw [h.fifo]; exact hhead)
  have hgood : (s.fetched t 4).badReg t [rs2 % 32] = none := h.badReg (by simp) (by rw [h.thread])
  have hmem : ((s.fetched t 4).writeNext t (rd % 32) 4 0).mem = s.mem := (State.writeNext_mem _ _ _ _ _).trans h.mem
  unfold wfpop
  rw [← hmem]
  refine And.symm (State.issue_ends h _ (Nat.le_refl _) (by simp) _ (x := (s.thread t).wrote (rd % 32) 0 4) ?_ ?_ rfl)
  · simp only [h.reg, ← hf, Nat.div_eq_of_lt hf4, Nat.mod_eq_of_lt hf4, bne_self_eq_false, h.wfPolled, hpolled,
      htake, hgood, Bool.not_true, Bool.or_false, Bool.false_eq_true, if_false, Option.isNone_none, Bool.and_self, if_true]
  · rw [State.writeNext_thread, h.thread]; rfl

theorem wfpop_some {f ecc key : Nat} {it : Item} (hecc : ecc ≠ 2) (h : s.issues t 4 2 [rs1 % 32, rs2 % 32])
    (hf : f = (s.reg t (rs2 % 32)).toNat) (hf4 : f < 4) (hpolled : s.wfPolled (4 * tCluster t + f) = true)
    (hok : s.ldmOk t (s.reg t (rs1 % 32)).toNat 1024 = true) (hkey : key = ldmAddrKey t (s.reg t (rs1 % 32)).toNat)
    (hhead : (s.fifo (4 * tCluster t + f)).head = some it) :
    (wfpop t rd rs1 rs2 ecc s).thread t = (s.thread t).wrote (rd % 32) it.header 4 ∧
    (wfpop t rd rs1 rs2 ecc s).mread key it.bytes.length = it.bytes := by
  obtain ⟨s1, htake, hthreads⟩ := State.wfTake_some (s := s.fetched t 4) (k := 4 * tCluster t + f) (by rw [h.fifo]; exact hhead)
  obtain ⟨s2, hs2, heff⟩ : ∃ s2 : State, s2.threads = s1.threads ∧ s2 = (if (ecc == 1) = true then
      (s1.bump R.WF_ECC_COUNT (wfIx (4 * tCluster t + f))).report (tsrc 0xF (4 * tCluster t + f)) 0x31 else s1) :=
    ⟨_, by split <;> simp, rfl⟩
  have hthread : (s2.mwrite key it.bytes).thread t = { s.thread t with wait := .ready } :=
    (State.thread_of_threads (s := s.fetched t 4) (hs2.trans hthreads) t).trans h.thread
  have hend : (wfpop t rd rs1 rs2 ecc s).mem = ((s2.mwrite key it.bytes).writeNext t (rd % 32) 4 it.header).mem ∧
      (wfpop t rd rs1 rs2 ecc s).thread t = (s.thread t).wrote (rd % 32) it.header 4 := by
    unfold wfpop
    refine State.issue_ends h _ (Nat.le_refl _) (by simp) _ ?_ (by rw [State.writeNext_thread, hthread]; rfl) rfl
    simp only [h.reg, ← hf, Nat.div_eq_of_lt hf4, Nat.mod_eq_of_lt hf4, bne_self_eq_false, h.wfPolled, hpolled,
      htake, Bool.not_true, Bool.or_false, Bool.false_eq_true, if_false, Option.isNone_some, Bool.and_false, beq_eq_false_iff_ne.mpr hecc,
      h.withLdm_eq (Nat.mod_one _) hok (fun _ hi => hi), ← hkey, ← heff]
  refine ⟨hend.2, ?_⟩
  rw [State.mread, hend.1, State.writeNext_mem]
  exact Memory.readN_writeN_same _ _ _

/-! ### PKTREL (R129, R224) -/

theorem State.half_of_net (hn : u.net = s.net) (ht : u.tgf = s.tgf) (r : Nat) : u.half r = s.half r := by
  have hhalted : u.adapterHalted = s.adapterHalted := by simp only [State.adapterHalted, State.inSafe, ht]
  rw [State.half, State.half, hn, hhalted]

theorem State.formAck_half (s : State) (tile : Nat) (p : Packet) (r : Nat) : (s.formAck tile p).half r = s.half r :=
  State.half_of_net (by simp) (by simp) r

/-- The packets of the half that software holds. -/
def State.released (s : State) (r : Nat) : List (BitVec 32 × Nat) := (s.half r).rx.released

theorem State.setRx_released (s : State) (r : Nat) (y : Stream) : (s.setRx r y).released r = y.released := by
  rw [State.released, State.setRx, State.half_setHalf]
  split <;> rfl

theorem Stream.advance_released (n : Nat) (y : Stream) : (Stream.advance n y).released = y.released := by
  induction n generalizing y with
  | zero => rfl
  | succ n ih =>
    rw [Stream.advance]
    split
    · exact ih _
    · rfl

theorem State.readyMark_released (s : State) (r : Nat) : (s.readyMark r).released r = s.released r := by
  unfold State.readyMark
  dsimp only
  generalize sortBy _ _ = l
  induction l generalizing s with
  | nil => rfl
  | cons x l ih =>
    rw [List.foldl_cons, ih]
    exact State.setRx_released s r _

theorem State.ackConsumed_released (s : State) (r : Nat) : (s.ackConsumed r).released r = s.released r := by
  unfold State.ackConsumed
  split
  · unfold State.sendAck
    dsimp only
    rw [State.released, State.formAck_half]
    exact State.setRx_released s r _
  · rfl

/-- A consumed packet is no longer held. -/
theorem State.consume_released (s : State) (r : Nat) (p : Packet) (rx : Word) (hold now : Bool) :
    ∀ e ∈ (s.consume r p rx hold now).released r, e.1 ≠ p.seq := by
  have hkeep : (s.consume r p rx hold now).released r = (s.released r).filter (·.1 != p.seq) := by
    unfold State.consume
    dsimp only
    split
    · rw [State.ackConsumed_released, State.readyMark_released, State.setRx_released, Stream.advance_released]; rfl
    · rw [State.readyMark_released, State.setRx_released, Stream.advance_released]; rfl
  intro e he
  rw [hkeep, List.mem_filter] at he
  exact bne_iff_ne.mp he.2

/-- The reference's packet is no longer held, and the reference is free. -/
def State.unheld (s : State) (c ref : Nat) (x : PktRef) : State :=
  let s1 := s.setPktRef c ref none
  s1.setRx x.conn { (s1.half x.conn).rx with released := (s1.half x.conn).rx.released.filter (·.1 != x.pkt.seq) }

/-- The answer 0 consumes the packet and frees its reference. -/
theorem State.answerWord_consumed {c v : Nat} {x : PktRef} (href : s.pktRef c v = some x)
    (hrel : (s.half x.conn).rx.released.contains (x.pkt.seq, v) = true) :
    s.answerWord c v 0 0 = (s.unheld c v x).consume x.conn x.pkt x.rxFt (x.pkt.holdover || x.rxHold)
      (ackAtOnce (s.half x.conn).rlx x.pkt) := by
  have hrel' : (!((s.setPktRef c v none).half x.conn).rx.released.contains (x.pkt.seq, v)) = false := by
    rw [show (s.setPktRef c v none).half x.conn = s.half x.conn from rfl, hrel]; rfl
  rw [State.answerWord, show outcomeOf 0 0 = (.consumed, 0, 0, false) from rfl]
  dsimp only
  rw [href, State.answer]
  simp only [Bool.false_eq_true, if_false, href, hrel']
  rfl

theorem State.answerWord_frees {c v : Nat} {x : PktRef} (href : s.pktRef c v = some x)
    (hrel : (s.half x.conn).rx.released.contains (x.pkt.seq, v) = true) :
    (s.answerWord c v 0 0).pktRef c v = none ∧ (∀ e ∈ (s.answerWord c v 0 0).released x.conn, e.1 ≠ x.pkt.seq) ∧
      (s.answerWord c v 0 0).threads = s.threads := by
  rw [State.answerWord_consumed href hrel]
  refine ⟨?_, State.consume_released _ _ _ _ _ _, by simp [State.unheld, State.setRx, State.setHalf, State.setPktRef, State.setCluster]⟩
  rw [State.pktRef, State.cluster_of_clusters (s := s.setPktRef c v none) (by simp [State.unheld, State.setRx, State.setHalf])]
  rw [State.setPktRef, State.cluster_setCluster, SMap.get_set_same]

theorem pktrel_frees {v : Nat} {x : PktRef} (h : s.issues t 4 1 [rs1 % 32]) (hrd : rd % 32 = 0) (h2 : rs2 % 32 = 0)
    (hv : v = (s.reg t (rs1 % 32)).toNat) (hv32 : v < 2 ^ 32) (href : s.pktRef (tCluster t) v = some x)
    (hrel : (s.half x.conn).rx.released.contains (x.pkt.seq, v) = true) :
    (pktrel t rd rs1 rs2 s).pktRef (tCluster t) v = none ∧ (∀ e ∈ (pktrel t rd rs1 rs2 s).released x.conn, e.1 ≠ x.pkt.seq) ∧
      (pktrel t rd rs1 rs2 s).thread t = { s.thread t with pc := (s.thread t).pc + 4, wait := .ready } := by
  have href' : ((s.fetched t 4).nextPc t 4).pktRef (tCluster t) v = some x := (h.pktRef _ _).trans href
  obtain ⟨hfree, hheld, hthreads⟩ := State.answerWord_frees href'
    (by rw [show ((s.fetched t 4).nextPc t 4).half x.conn = _ from h.half x.conn]; exact hrel)
  have heff : pktrel t rd rs1 rs2 s = s.issue t (wordA 0x3E rd rs1 rs2 3) 4 true 1 [rs1 % 32] fun _ =>
      ((s.fetched t 4).nextPc t 4).answerWord (tCluster t) v 0 0 := by
    have hhigh : v / 2 ^ 48 = 0 ∧ nbits v 39 32 = 0 ∧ nbits v 47 40 = 0 := by simp only [nbits]; omega
    unfold pktrel
    simp only [hrd, h2, beq_self_eq_true, Bool.and_self]
    refine State.issue_congr h _ (Nat.le_refl _) (fun _ hi => hi) ?_
    simp only [h.reg, ← hv, hhigh, Nat.mod_eq_of_lt hv32, href', bne_self_eq_false, Bool.false_eq_true, if_false, Option.isNone_some]
  rw [heff]
  have hsame (p : Part) (hp : p ∉ [.regs, .threads, .dev] := by decide) :=
    State.issue_same h (wordA 0x3E rd rs1 rs2 3) (Nat.le_refl _) (fun _ hi => hi)
      (fun _ => ((s.fetched t 4).nextPc t 4).answerWord (tCluster t) v 0 0) p hp
  refine ⟨?_, ?_, ?_⟩
  · rw [State.pktRef, State.cluster_of_clusters (hsame .clusters)]; exact hfree
  · rw [State.released, State.half_of_net (hsame .net) (hsame .tgf)]; exact hheld
  · refine State.issue_thread_of h _ (Nat.le_refl _) (fun _ hi => hi) _ ?_ rfl
    rw [State.thread_of_threads hthreads, State.nextPc, State.thread_setThread, h.thread]; rfl

/-- Settles O25: each instruction of the clock, of handles and of items by its rule above. -/
theorem timeAndHandles : Obligations.TimeAndHandles := by
  unfold Obligations.TimeAndHandles
  refine ⟨?_, ?_, ?_, ?_, ?_, ?_, ?_, ?_⟩
  · intro s t rd rs1 rs2 fn h h1 h2 hfn
    exact ⟨⟨_, rfl, rdft_thread h h1 h2 hfn⟩, ⟨_, rfl, rdlt_thread h h1 h2⟩, ⟨_, rfl, rdts_thread h h1 h2⟩⟩
  · intro s t rd rs1 rs2 h h2
    refine ⟨_, rfl, fun hv => ?_, fun hv hr => ?_, fun hv hr => ?_⟩ <;> rw [waitft_thread h h2] <;> simp [*]
  · intro s t rd v hwait hsafe hrun
    refine ⟨_, rfl, fun he => ?_, fun he hv => ?_, fun he hv hr => ?_⟩ <;> rw [waitftWake_eq hwait hsafe hrun] <;>
      simp [*, State.writeNext_ready_thread]
  · intro s t rd rs1 rs2 fn h h2 hfn hop
    refine ⟨⟨_, rfl, ?_⟩, ⟨_, rfl, opwait_none_thread h h2 hop⟩⟩
    rw [opstat_thread h h2 hfn, hop]
  · intro s t rd rs1 rs2 fn k h h2 hfn hop
    refine ⟨⟨_, rfl, ?_⟩, ⟨_, rfl, opwait_some_thread h h2 hop⟩,
      fun hheld hopen hkind => ⟨_, rfl, opabort_get h h2 hop hheld hopen hkind⟩⟩
    rw [opstat_thread h h2 hfn, hop]
  · rintro s t rd rs1 rs2 fn v ty len c f key hfn h hv hv24 h19 rfl rfl rfl rfl hc hty hlevel hal hok hkey hbad
    have heff := wfpush_eq (rd := rd) hfn h hv hv24 h19 hc hty hlevel hal hok hkey hbad
    refine ⟨_, rfl, wfpush_full h heff, fun hroom => ?_⟩
    obtain ⟨hthread, hwriting⟩ := wfpush_room h heff rfl hroom
    exact ⟨hthread, _, hwriting, rfl, rfl, rfl, rfl, by simp [State.pushItem], rfl⟩
  · intro s t rd rs1 rs2 ecc key f hecc h hf hf4 hpolled hok hkey
    exact ⟨_, rfl, wfpop_none h hf hf4 hpolled, fun it hhead => wfpop_some hecc h hf hf4 hpolled hok hkey hhead⟩
  · intro s t rd rs1 rs2 v x h hrd h2 hv hv32 href hrel
    exact ⟨_, rfl, pktrel_frees h hrd h2 hv hv32 href hrel⟩

end Sys2Proof.Machine
end

section
open Sys2Proof Sys2Proof.Machine
namespace Sys2Proof.Machine

variable {s u v : State} {t rd rs1 imm k kind fl level major : Nat} {b : List Byte}

/-! ### What the counts of an accepted block leave (R464) -/

theorem State.pmuEng_rd {r : RegDesc} {ix : List Nat} (hr : r.addr ix < R.PMU_ENG_PMC.base) (s : State) (g ev level n : Nat) :
    (s.pmuEng g ev level n).rd r ix = s.rd r ix := by
  unfold State.pmuEng
  split
  · rfl
  next hrun =>
  clear hrun
  generalize List.range 4 = l
  induction l generalizing s with
  | nil => rfl
  | cons i l ih =>
    rw [List.foldl_cons, ih, State.grow]
    split
    · rfl
    · exact State.rd_wr_ne _ _ _ _ _ _ (Nat.ne_of_lt (Nat.lt_of_lt_of_le hr (RegDesc.base_le_addr _ _)))

/-! ### The operation of an accepted block (R100 to R102) -/

/-- The operation that a block makes in the free slot. -/
def State.newOp (s : State) (t k kind fl : Nat) (b : List Byte) : Op :=
  { Op.free with
    kind := kind, flags := fl, gen := nextGen (s.op k).gen, origin := .thread t (s.thread t).run, block := b, status := none
    delivered := false, order := s.orders + 1, at_ := s.loc }

/-- The state with that operation in its slot. -/
def State.withNewOp (s : State) (t k kind fl : Nat) (b : List Byte) : State :=
  { s.setOp k (s.newOp t k kind fl b) with orders := s.orders + 1 }

theorem State.withNewOp_op (s : State) (t k kind fl : Nat) (b : List Byte) : (s.withNewOp t k kind fl b).op k = s.newOp t k kind fl b :=
  State.op_setOp _ _ _

theorem State.takeSlot_eq (h : s.freeSlot (tCluster t) = some k) :
    s.takeSlot (tCluster t) kind fl (.thread t (s.thread t).run) b = some (k, s.withNewOp t k kind fl b) := by
  rw [State.takeSlot, h]; rfl

/-- The state of an accepted block before its rules are judged: its operation in its slot, its handle in rd. -/
def State.opened (s : State) (t rd k kind fl : Nat) (b : List Byte) : State :=
  ((s.withNewOp t k kind fl b).writeNext t (rd % 32) 4 (w64 (handleOf k (nextGen (s.op k).gen)))).pmuEng (tEngine t) 8 (s.thread t).priv

theorem State.submit_eq (h : s.accepts t rs1 level b k) (start : Nat → Nat → State → State) :
    s.submit t rd rs1 major imm kind level true always start =
      s.issue t (wordI major rd rs1 imm) 4 true level [] fun u =>
        (u.opened t rd k kind (immFlags kind imm) b).acceptOp k (s.thread t).priv (s.thread t).xask start := by
  obtain ⟨hissue, hal, hok, hbad, hb, hroom, hslot, -⟩ := h
  have hthread := hissue.thread
  have hfree : (s.fetched t 4).freeSlot (tCluster t) = some k := by
    simp only [State.freeSlot, hissue.op]; exact hslot
  have hops : ((s.fetched t 4).threadOps t ((s.fetched t 4).thread t).run).length < 64 := by
    rw [State.threadOps, hissue.ops, hthread]; exact hroom
  unfold State.submit
  refine State.issue_congr hissue _ (Nat.le_refl _) (by simp) ?_
  simp only [hissue.withLdm_eq hal hok (fun _ hi => hi), State.withLdmRead_eq (u := s.fetched t 4) ((hissue.bad _ _).trans hbad),
    hissue.mread, ← hb, hops, always, List.append_nil, State.takeSlot_eq hfree, decide_true, Bool.and_self, if_true,
    State.withNewOp_op]
  rw [State.opened, hthread]
  rfl

/-- Beside registers and the thread, an accepted block changes its slot. -/
theorem State.opened_frame (s : State) (t rd k kind fl : Nat) (b : List Byte) :
    (s.opened t rd k kind fl b).ops = (s.setOp k (s.newOp t k kind fl b)).ops ∧ (s.opened t rd k kind fl b).net = s.net ∧
    (s.opened t rd k kind fl b).tgf = s.tgf ∧ (s.opened t rd k kind fl b).mem = s.mem ∧
    (s.opened t rd k kind fl b).eptCache = s.eptCache := by
  obtain ⟨l, hl⟩ := State.writeNext_eq (s.withNewOp t k kind fl b) t (rd % 32) 4 (w64 (handleOf k (nextGen (s.op k).gen)))
  rw [State.opened, hl]
  simp [State.withNewOp]

theorem State.opened_op (s : State) (t rd k kind fl : Nat) (b : List Byte) : (s.opened t rd k kind fl b).op k = s.newOp t k kind fl b := by
  rw [State.op_of_ops (State.opened_frame s t rd k kind fl b).1, State.op_setOp]

theorem State.opened_thread (s : State) (t rd k kind fl : Nat) (b : List Byte) :
    (s.opened t rd k kind fl b).thread t =
      { (s.thread t).wrote (rd % 32) (w64 (handleOf k (nextGen (s.op k).gen))) 4 with wait := (s.thread t).wait } := by
  have hpmu (v : State) (g p : Nat) : (v.pmuEng g 8 p).threads = v.threads := by simp
  rw [State.opened, State.thread_of_threads (hpmu _ _ _), State.writeNext_thread]; rfl

theorem State.opened_rd {r : RegDesc} {ix : List Nat} (hr : r.addr ix < R.PMU_ENG_PMC.base) (s : State) (t rd k kind fl : Nat)
    (b : List Byte) : (s.opened t rd k kind fl b).rd r ix = s.rd r ix := by
  rw [State.opened, State.pmuEng_rd hr]
  obtain ⟨l, hl⟩ := State.writeNext_eq (s.withNewOp t k kind fl b) t (rd % 32) 4 (w64 (handleOf k (nextGen (s.op k).gen)))
  rw [hl]; rfl

/-- What an accepted block's rules and its start see: the operation in its slot, and the state of before. -/
structure State.Opened (s v : State) (t k : Nat) (o : Op) : Prop where
  op : v.op k = o
  cluster : k / 4096 = tCluster t
  awake : v.awake t
  net : v.net = s.net
  tgf : v.tgf = s.tgf
  mem : v.mem = s.mem
  eptCache : v.eptCache = s.eptCache
  fd : ∀ (f : Fld) (ix : List Nat), R.XLT_MAXAGE_DROP_COUNT.base < f.reg.base → f.reg.addr ix < R.PMU_ENG_PMC.base →
    v.fd f ix = s.fd f ix
  unfenced : v.fenced k = false

/-- A free slot lies in its cluster. -/
theorem State.freeSlot_cluster {c : Nat} (h : s.freeSlot c = some k) : k / 4096 = c := by
  obtain ⟨i, hi, rfl⟩ := Option.map_eq_some_iff.mp h
  have := List.mem_range.mp (List.mem_of_find?_eq_some hi)
  omega

/-- No fence is open before the operation of an accepted block. -/
theorem State.opened_unfenced
    (hnone : ∀ e ∈ s.ops, e.2.isOpen = true → e.2.kind = 6 → e.2.origin ≠ .thread t (s.thread t).run) :
    (s.opened t rd k kind fl b).fenced k = false := by
  rw [State.fenced, State.opened_op, State.newOp]
  simp only [(State.opened_frame s t rd k kind fl b).1, List.any_eq_false]
  intro e he
  obtain rfl | he := SMap.mem_set he
  · simp [State.newOp]
  · have := hnone e he
    simp only [Bool.and_eq_true, beq_iff_eq]
    tauto

theorem State.accepts.opened (h : s.accepts t rs1 level b k) (rd kind fl : Nat) :
    s.Opened ((s.fetched t 4).opened t rd k kind fl b) t k ((s.fetched t 4).newOp t k kind fl b) := by
  obtain ⟨hissue, -, -, -, -, -, hslot, hnone⟩ := h
  obtain ⟨-, hnet, htgf, hmem, hept⟩ := State.opened_frame (s.fetched t 4) t rd k kind fl b
  exact {
    op := State.opened_op _ _ _ _ _ _ _
    cluster := State.freeSlot_cluster hslot
    awake := by
      obtain ⟨hrun, hwait⟩ := hissue.awake
      rw [State.awake, State.opened_thread]
      exact ⟨hrun, hwait⟩
    net := hnet.trans hissue.net
    tgf := htgf.trans hissue.looked.tgf
    mem := hmem.trans hissue.mem
    eptCache := hept.trans (State.issues.same .eptCache)
    fd := fun f ix hlow hhigh => (congrArg (bitsW · f.hi f.lo) (State.opened_rd hhigh _ _ _ _ _ _ _)).trans (hissue.fd f ix hlow)
    unfenced := State.opened_unfenced (by rw [hissue.ops, hissue.thread]; exact hnone) }

theorem State.submit_ends {w : State} (h : s.accepts t rs1 level b k)
    (hw : ((s.fetched t 4).opened t rd k kind (immFlags kind imm) b).acceptOp k (s.thread t).priv (s.thread t).xask startAccepted = w)
    (hthread : w.thread t = ((s.fetched t 4).opened t rd k kind (immFlags kind imm) b).thread t) :
    s.gotHandle (s.submit t rd rs1 major imm kind level true always startAccepted) t rd k ∧
      (s.submit t rd rs1 major imm kind level true always startAccepted).op k = w.op k := by
  have hissue := h.1
  rw [State.submit_eq h]
  refine ⟨State.issue_thread_of hissue _ (Nat.le_refl _) (by simp) _ ?_ rfl, ?_⟩
  · rw [hw, hthread, State.opened_thread, hissue.thread, hissue.op]; rfl
  · rw [State.op_of_ops (State.issue_same hissue _ (Nat.le_refl _) (by simp) _ .ops), hw]

theorem State.resolve_same (s : State) (e : Nat) (p : Part) (hp : p ∉ [.regs, .eptCache] := by decide) : s.same (s.resolve e).2 p :=
  State.resolve_spares (asp := some p) (Aspect.outside_of_not_mem hp) (.refl s) e

theorem State.limOf_same (s : State) (tile conn : Nat) (p : Part) (hp : p ∉ [.limCache] := by decide) : s.same (s.limOf tile conn).2 p :=
  State.limOf_spares (asp := some p) (Aspect.outside_of_not_mem hp) (.refl s) tile conn

/-! ### The rules of an accepted block and its start (R98, R99, R109, R112 to R115, R315) -/

/-- An operation on a half that is not in ERROR stays open. -/
theorem State.endOnError_of_not_error (h : (s.op k).kind = 2 ∨ (s.op k).kind = 3 ∨ (s.op k).kind = 5 →
    ∀ r, (s.op k).conn = some r → (s.half r).state ≠ .error) : s.endOnError k = s := by
  unfold State.endOnError
  dsimp only
  split
  · rfl
  next r hr =>
  split at hr
  next hkind =>
    have hstate := h (by simpa [or_assoc] using hkind) r hr
    rw [beq_eq_false_iff_ne.mpr hstate]; rfl
  next => cases hr

/-- A flush on a half in ERROR ends with the status that the half has latched. -/
theorem State.endOnError_flush {r : Nat} (hkind : (s.op k).kind = 5) (hconn : (s.op k).conn = some r) (hopen : (s.op k).status = none)
    (herr : (s.half r).state = .error) :
    s.endOnError k = s.completeWith k (s.half r).lastErr (w64 (s.half r).latched.detail) (s.op k).bytes := by
  simp [State.endOnError, hkind, hconn, herr, Op.isOpen, hopen]

section
variable {o : Op} (hv : s.Opened v t k o)
include hv

theorem State.Opened.blockOk (kind fl : Nat) (b : List Byte) : v.blockOk kind fl b = s.blockOk kind fl b := by
  have hself : v.maskHasSelf b = s.maskHasSelf b := by
    simp only [State.maskHasSelf, hv.fd F.ROUTE_SELF_POS_ROW [] (by decide) (by decide),
      hv.fd F.ROUTE_SELF_POS_COL [] (by decide) (by decide)]
  unfold State.blockOk
  rw [hself]

theorem State.Opened.resolve (e : Nat) : (v.resolve e).1 = (s.resolve e).1 := by
  have hlog := hv.fd F.ROUTE_EPT_CFG_LOG2_ENTRIES [] (by decide) (by decide)
  have hentry : v.mnat (v.eptKey e) 8 = s.mnat (s.eptKey e) 8 := by
    simp only [State.mnat, State.eptKey, hv.mem, hv.fd F.ROUTE_EPT_BASE_BASE [] (by decide) (by decide)]
  unfold State.resolve
  rw [hlog, hv.eptCache]
  split
  · rfl
  · cases s.eptCache.get none e <;> simp only [hentry] <;> split <;> rfl

theorem State.Opened.acceptOp_bad (hb : ¬ s.validBlock o.kind o.flags o.block) (priv xask : Nat)
    (start : Nat → Nat → State → State) : v.acceptOp k priv xask start = start k 2 v := by
  rw [State.acceptOp, hv.op, hv.blockOk]
  refine if_pos ?_
  simp only [State.validBlock] at hb
  simp only [Bool.or_eq_true, bne_iff_ne, Bool.not_eq_true']
  simp only [← Bool.not_eq_true]
  tauto

theorem State.Opened.acceptOp_good (hb : s.validBlock o.kind o.flags o.block) (priv xask : Nat) (start : Nat → Nat → State → State) :
    v.acceptOp k priv xask start = if blockDenied o.kind priv xask o.block then start k 3 v else start k 0 v := by
  obtain ⟨hkind, hheader, hok⟩ := hb
  rw [State.acceptOp, hv.op, hv.blockOk]
  exact if_neg (by simp [hkind, hheader, hok])

/-- A refused operation, unless of a mover, ends with its status. -/
theorem State.Opened.refused (hkind : o.kind ≠ 12) (hopen : o.status = none) {st : Nat} (hst : st ≠ 0) :
    (startAccepted k st v).thread t = v.thread t ∧ ((startAccepted k st v).op k).status = some st := by
  have heff : startAccepted k st v = v.complete k st := by simp [startAccepted, hv.op, hst, kDma, hkind]
  rw [heff]
  exact ⟨State.complete_thread hv.awake k st, by rw [State.complete_op (by rw [hv.op]; exact hopen)]; rfl⟩

theorem State.Opened.startAccepted_fabric (hkind : o.kind < 6 ∨ o.kind = 7) : startAccepted k 0 v = startFabric k v := by
  have hn : o.kind ∉ [6, 8, 9, 10, 11, 12, 13, 14] := by
    simp only [List.mem_cons, List.not_mem_nil, or_false]; omega
  simp only [List.mem_cons, List.not_mem_nil, or_false, not_or] at hn
  simp only [startAccepted, beq_self_eq_true, if_true, startKind, hv.unfenced, Bool.false_and, Bool.false_eq_true, if_false, hv.op]
  split <;> simp_all

theorem State.Opened.startFabric_mcast (hkind : o.kind = 7) (hn : o.n = 0) :
    startFabric k v = v.setOp k { o with n := packetsOf (bLen o.block) o.pmtu, held := false } := by
  simp [startFabric, hv.op, hn, hkind, putLike, hv.unfenced]

theorem State.Opened.resolve_to {e : Nat} {x : Option (Nat × Nat)} (h : (s.resolve e).1 = x) :
    ∃ w, v.resolve e = (x, w) ∧ w.ops = v.ops ∧ w.net = v.net ∧ w.tgf = v.tgf ∧ w.threads = v.threads :=
  ⟨(v.resolve e).2, Prod.ext ((hv.resolve e).trans h) rfl, State.resolve_same v e .ops, State.resolve_same v e .net,
    State.resolve_same v e .tgf, State.resolve_same v e .threads⟩

theorem State.Opened.startFabric_unresolved (hkind : o.kind ≠ 7) (hn : o.n = 0) (hopen : o.status = none)
    (hnone : (s.resolve (bDest o.block)).1 = none) :
    (startFabric k v).thread t = v.thread t ∧ ((startFabric k v).op k).status = some 0x0E := by
  obtain ⟨w, hw, hops, -, -, hthreads⟩ := hv.resolve_to hnone
  have hthread := State.thread_of_threads hthreads t
  have hop : (w.op k).status = none := by rw [State.op_of_ops hops, hv.op]; exact hopen
  have heff : startFabric k v = w.complete k 0x0E := by
    unfold startFabric
    simp only [hv.op, hn, bne_self_eq_false, Bool.false_eq_true, if_false, beq_eq_false_iff_ne.mpr hkind, hw]
  rw [heff]
  exact ⟨(State.complete_thread (hv.awake.of_thread hthread) k _).trans hthread, by rw [State.complete_op hop]; rfl⟩

/-- The slot of an operation that goes to an endpoint, on the half that its thread's cluster has to it. -/
def Op.bound (o : Op) (dn f : Nat) (conn lim : Option Nat) : Op :=
  { o with
    n := if putLike o.kind then packetsOf (bLen o.block) o.pmtu else 1, held := false, dstDn := dn, dstFunc := f, conn := conn
    lim := lim }

theorem State.Opened.startFabric_resolved {dn f : Nat} (hkind : o.kind ≠ 7) (hn : o.n = 0) (hconn : o.conn = none)
    (hres : (s.resolve (bDest o.block)).1 = some (dn, f)) :
    ∃ (w : State) (lim : Option Nat), w.net = s.net ∧ w.tgf = s.tgf ∧ w.threads = v.threads ∧ startFabric k v =
      (w.setOp k (o.bound dn f (s.threadHalf (tCluster t) (bDest o.block) (bChan o.block)) lim)).endOnError k := by
  obtain ⟨w, hw, -, hnet, htgf, hthreads⟩ := hv.resolve_to hres
  have hhalf : w.threadHalf (k / 4096) (bDest o.block) (bChan o.block) = s.threadHalf (tCluster t) (bDest o.block) (bChan o.block) := by
    rw [hv.cluster, State.threadHalf, hnet, hv.net, State.threadHalf]
  unfold startFabric
  simp only [hv.op, hn, bne_self_eq_false, Bool.false_eq_true, if_false, beq_eq_false_iff_ne.mpr hkind, hw, hconn, hhalf, hv.unfenced]
  generalize s.threadHalf (tCluster t) (bDest o.block) (bChan o.block) = half
  cases half with
  | none => exact ⟨w, none, hnet.trans hv.net, htgf.trans hv.tgf, hthreads, rfl⟩
  | some r =>
    dsimp only
    split
    · exact ⟨w, none, hnet.trans hv.net, htgf.trans hv.tgf, hthreads, rfl⟩
    · refine ⟨(w.limOf (k / 4096 / 4) r).2, (w.limOf (k / 4096 / 4) r).1, ?_, ?_, ?_, rfl⟩
      · exact ((State.limOf_same w _ r .net).trans hnet).trans hv.net
      · exact ((State.limOf_same w _ r .tgf).trans htgf).trans hv.tgf
      · exact (State.limOf_same w _ r .threads).trans hthreads

theorem State.Opened.starts {dn f : Nat} (hkind : o.kind ≠ 7) (hn : o.n = 0) (hconn : o.conn = none)
    (hres : (s.resolve (bDest o.block)).1 = some (dn, f)) (hhalf : o.kind = 2 ∨ o.kind = 3 ∨ o.kind = 5 →
      ∀ r, s.threadHalf (tCluster t) (bDest o.block) (bChan o.block) = some r → (s.half r).state ≠ .error) :
    (startFabric k v).thread t = v.thread t ∧ ∃ conn lim, (startFabric k v).op k = o.bound dn f conn lim := by
  obtain ⟨w, lim, hnet, htgf, hthreads, heff⟩ := hv.startFabric_resolved hkind hn hconn hres
  rw [heff, State.endOnError_of_not_error]
  · exact ⟨State.thread_of_threads hthreads t, _, _, State.op_setOp _ _ _⟩
  · rw [State.op_setOp]
    intro h r hr
    rw [State.half_setOp, State.half_of_net hnet htgf]
    exact hhalf h r hr

theorem State.Opened.flush_error {dn f r : Nat} (hkind : o.kind = 5) (hn : o.n = 0) (hconn : o.conn = none) (hopen : o.status = none)
    (hres : (s.resolve (bDest o.block)).1 = some (dn, f)) (hhalf : s.threadHalf (tCluster t) (bDest o.block) (bChan o.block) = some r)
    (herr : (s.half r).state = .error) :
    (startFabric k v).thread t = v.thread t ∧ ((startFabric k v).op k).status = some (s.half r).lastErr := by
  obtain ⟨w, lim, hnet, htgf, hthreads, heff⟩ := hv.startFabric_resolved (by omega) hn hconn hres
  have hthread := State.thread_of_threads hthreads t
  have hw : (w.setOp k (o.bound dn f (some r) lim)).half r = s.half r := State.half_of_net hnet htgf r
  rw [heff, hhalf, State.endOnError_flush (r := r) (by rw [State.op_setOp]; exact hkind) (by rw [State.op_setOp]; rfl)
    (by rw [State.op_setOp]; exact hopen) (by rw [hw]; exact herr), hw]
  constructor
  · exact (State.completeWith_thread (hv.awake.of_thread (u := w.setOp k _) hthread) _ _ _ _).trans hthread
  · rw [State.completeWith_op (by rw [State.op_setOp]; exact hopen)]; rfl

end

/-! ### The instructions (R98, R100 to R104, R109, R110) -/

theorem immFlags_of_mask (himm : immWithin imm 0x8000 = true) : imm % 16 = 0 ∧ imm % 4 = 0 := by
  have hlow : imm % 16 = 0 := calc
    imm % 16 = imm % 2 ^ 16 % 2 ^ 4 := by omega
    _ = (imm &&& 0x8000) % 2 ^ 4 := by rw [beq_iff_eq.mp himm]
    _ = 0 := by rw [Nat.and_mod_two_pow]; exact Nat.and_zero _
  omega

/-- The forms of the instructions that move bytes to or from one endpoint, with kind and immediate bits. -/
def fabricForms (t rd rs1 imm : Nat) : List (Instr × Nat × Nat) :=
  [(.fput t rd rs1 imm, 1, 0x800F), (.fget t rd rs1 imm, 2, 0x8000), (.famo t rd rs1 imm, 3, 0x8000), (.fsend t rd rs1 imm, 4, 0x8000),
    (.fflush t rd rs1 imm, 5, 0x8000)]

/-- An instruction of these submits its block. -/
theorem exec_fabricForms {c : Instr} {mask : Nat} (hc : (c, kind, mask) ∈ fabricForms t rd rs1 imm) (himm : immWithin imm mask = true)
    (hfl : lflagsOk kind (imm % 16) = true) (s : State) :
    ∃ major, exec c s = .next (s.submit t rd rs1 major imm kind 0 true always startAccepted) ∧
      immFlags kind imm = imm % 16 ∧ kind < 6 := by
  simp only [fabricForms, List.mem_cons, Prod.mk.injEq, List.not_mem_nil, or_false] at hc
  obtain ⟨rfl, rfl, rfl⟩ | ⟨rfl, rfl, rfl⟩ | ⟨rfl, rfl, rfl⟩ | ⟨rfl, rfl, rfl⟩ | ⟨rfl, rfl, rfl⟩ := hc
  · refine ⟨0x30, ?_, rfl, by decide⟩
    rw [show exec (.fput t rd rs1 imm) s = .next (fput t rd rs1 imm s) from rfl, fput, himm, show lflagsOk kPut (imm % 16) = true from hfl]
    rfl
  · refine ⟨0x31, ?_, (immFlags_of_mask himm).1.symm, by decide⟩
    rw [show exec (.fget t rd rs1 imm) s = .next (fget t rd rs1 imm s) from rfl, fget, himm]; rfl
  · refine ⟨0x32, ?_, (immFlags_of_mask himm).1.symm, by decide⟩
    rw [show exec (.famo t rd rs1 imm) s = .next (famo t rd rs1 imm s) from rfl, famo, himm]; rfl
  · refine ⟨0x33, ?_, (immFlags_of_mask himm).1.symm, by decide⟩
    rw [show exec (.fsend t rd rs1 imm) s = .next (fsend t rd rs1 imm s) from rfl, fsend, himm]; rfl
  · have hsel : selImm 0 2 imm = imm := by
      have := (immFlags_of_mask himm).2
      simp [selImm, this]; omega
    refine ⟨0x34, ?_, (immFlags_of_mask himm).1.symm, by decide⟩
    rw [show exec (.fflush t rd rs1 imm) s = .next (fflush t rd rs1 imm s) from rfl, fflush, hsel, himm]; rfl

/-- The same without immediate bits, where every kind takes the flags. -/
theorem exec_fabricForms_zero {c : Instr} (s : State) (t rd rs1 : Nat) (hc : (c, kind, 0x8000) ∈ fabricForms t rd rs1 0) :
    ∃ major, exec c s = .next (s.submit t rd rs1 major 0 kind 0 true always startAccepted) ∧ immFlags kind 0 = 0 := by
  obtain ⟨major, hexec, hfl, -⟩ := exec_fabricForms hc (by decide) (by unfold lflagsOk; split <;> rfl) s
  exact ⟨major, hexec, hfl⟩

/-- What an instruction of a submitted block leaves, from what the rules and the start of the block leave. -/
theorem State.submit_of_start {st : Nat} (h : s.accepts t rs1 level b k) (hfl : immFlags kind imm = fl)
    (hstart : ∀ v, s.Opened v t k ((s.fetched t 4).newOp t k kind fl b) →
      v.acceptOp k (s.thread t).priv (s.thread t).xask startAccepted = startAccepted k st v ∧
      (startAccepted k st v).thread t = v.thread t) :
    s.gotHandle (s.submit t rd rs1 major imm kind level true always startAccepted) t rd k ∧
    ∃ v, s.Opened v t k ((s.fetched t 4).newOp t k kind fl b) ∧
      (s.submit t rd rs1 major imm kind level true always startAccepted).op k = (startAccepted k st v).op k := by
  subst hfl
  have hopened := h.opened rd kind (immFlags kind imm)
  obtain ⟨haccept, hthread⟩ := hstart _ hopened
  obtain ⟨hhandle, hop⟩ := State.submit_ends (rd := rd) (major := major) h haccept hthread
  exact ⟨hhandle, _, hopened, hop⟩

/-- A block that breaks a rule. -/
theorem State.submit_bad (h : s.accepts t rs1 level b k) (hfl : immFlags kind imm = fl) (hkind : kind ≠ 12)
    (hbad : ¬ s.validBlock kind fl b) :
    s.gotHandle (s.submit t rd rs1 major imm kind level true always startAccepted) t rd k ∧
    ((s.submit t rd rs1 major imm kind level true always startAccepted).op k).status = some 2 := by
  obtain ⟨hhandle, v, hv, hop⟩ := State.submit_of_start (rd := rd) (major := major) (st := 2) h hfl fun v hv =>
    ⟨hv.acceptOp_bad hbad _ _ _, (hv.refused hkind rfl (by decide)).1⟩
  exact ⟨hhandle, by rw [hop]; exact (hv.refused hkind rfl (by decide)).2⟩

/-- A block whose key its level may not use. -/
theorem State.submit_denied (h : s.accepts t rs1 level b k) (hfl : immFlags kind imm = fl) (hkind : kind ≠ 12)
    (hgood : s.validBlock kind fl b) (hdenied : blockDenied kind (s.thread t).priv (s.thread t).xask b = true) :
    s.gotHandle (s.submit t rd rs1 major imm kind level true always startAccepted) t rd k ∧
    ((s.submit t rd rs1 major imm kind level true always startAccepted).op k).status = some 3 := by
  obtain ⟨hhandle, v, hv, hop⟩ := State.submit_of_start (rd := rd) (major := major) (st := 3) h hfl fun v hv =>
    ⟨(hv.acceptOp_good hgood _ _ _).trans (if_pos hdenied), (hv.refused hkind rfl (by decide)).1⟩
  exact ⟨hhandle, by rw [hop]; exact (hv.refused hkind rfl (by decide)).2⟩

/-- A block that starts as a transfer. -/
theorem State.submit_starts (h : s.accepts t rs1 level b k) (hfl : immFlags kind imm = fl) (hkind : kind < 6 ∨ kind = 7)
    (hgood : s.validBlock kind fl b) (hdenied : blockDenied kind (s.thread t).priv (s.thread t).xask b = false)
    (hthread : ∀ v, s.Opened v t k ((s.fetched t 4).newOp t k kind fl b) → (startFabric k v).thread t = v.thread t) :
    s.gotHandle (s.submit t rd rs1 major imm kind level true always startAccepted) t rd k ∧
    ∃ v, s.Opened v t k ((s.fetched t 4).newOp t k kind fl b) ∧
      (s.submit t rd rs1 major imm kind level true always startAccepted).op k = (startFabric k v).op k := by
  obtain ⟨hhandle, v, hv, hop⟩ := State.submit_of_start (rd := rd) (major := major) (st := 0) h hfl fun v hv =>
    ⟨(hv.acceptOp_good hgood _ _ _).trans (if_neg (Bool.eq_false_iff.mp hdenied)),
      by rw [hv.startAccepted_fabric hkind]; exact hthread v hv⟩
  exact ⟨hhandle, v, hv, by rw [hop, hv.startAccepted_fabric hkind]⟩

/-- Settles O23: each block by its rules, from acceptance through its start. -/
theorem fabricOperations : Obligations.FabricOperations := by
  unfold Obligations.FabricOperations
  refine ⟨?_, ?_, ?_, ?_, ?_, ?_⟩
  · intro s t rd rs1 imm k kind mask dn f b c hc himm hl h hgood hdenied hres hhalf
    obtain ⟨major, hexec, hfl, hkind⟩ := exec_fabricForms hc himm hl s
    have hstarts (v : State) (hv : s.Opened v t k ((s.fetched t 4).newOp t k kind (imm % 16) b)) :=
      hv.starts (show kind ≠ 7 by omega) rfl rfl hres hhalf
    obtain ⟨hhandle, v, hv, hop⟩ := State.submit_starts (rd := rd) (major := major) h hfl (.inl hkind) hgood hdenied
      fun v hv => (hstarts v hv).1
    obtain ⟨-, conn, lim, hbound⟩ := hstarts v hv
    rw [hbound] at hop
    refine ⟨_, hexec, hhandle, ?_⟩
    rw [hop]
    refine ⟨rfl, rfl, rfl, rfl, rfl, rfl, rfl, ?_⟩
    rintro (rfl | rfl) <;> rfl
  · intro s t rd rs1 k dn f r b h hgood hres hhalf herr
    obtain ⟨major, hexec, hfl⟩ := exec_fabricForms_zero s t rd rs1 (c := .fflush t rd rs1 0) (kind := 5) (by simp [fabricForms])
    have herror (v : State) (hv : s.Opened v t k ((s.fetched t 4).newOp t k 5 0 b)) := hv.flush_error rfl rfl rfl rfl hres hhalf herr
    obtain ⟨hhandle, v, hv, hop⟩ := State.submit_starts (rd := rd) (major := major) h hfl (.inl (by decide)) hgood rfl
      fun v hv => (herror v hv).1
    exact ⟨_, hexec, hhandle, by rw [hop]; exact (herror v hv).2⟩
  · intro s t rd rs1 imm k b himm h hgood
    have hexec : exec (.fmcast t rd rs1 imm) s = .next (s.submit t rd rs1 0x35 imm 7 1 true always startAccepted) := by
      rw [show exec (.fmcast t rd rs1 imm) s = .next (fmcast t rd rs1 imm s) from rfl, fmcast, himm]; rfl
    obtain ⟨hhandle, v, hv, hop⟩ := State.submit_starts (kind := 7) (rd := rd) (major := 0x35) h rfl (.inr rfl) hgood rfl
      fun v hv => by rw [hv.startFabric_mcast rfl rfl]; rfl
    rw [hv.startFabric_mcast rfl rfl, State.op_setOp] at hop
    exact ⟨_, hexec, hhandle, by rw [hop]; exact ⟨rfl, rfl, rfl⟩⟩
  · intro s t rd rs1 k b h hbad
    obtain ⟨major, hexec, hfl⟩ := exec_fabricForms_zero s t rd rs1 (c := .fget t rd rs1 0) (kind := 2) (by simp [fabricForms])
    exact ⟨_, hexec, State.submit_bad h hfl (by decide) hbad⟩
  · intro s t rd rs1 k b h hgood hdenied
    obtain ⟨major, hexec, hfl⟩ := exec_fabricForms_zero s t rd rs1 (c := .fsend t rd rs1 0) (kind := 4) (by simp [fabricForms])
    exact ⟨_, hexec, State.submit_denied h hfl (by decide) hgood hdenied⟩
  · intro s t rd rs1 k b h hgood hnone
    obtain ⟨major, hexec, hfl⟩ := exec_fabricForms_zero s t rd rs1 (c := .fflush t rd rs1 0) (kind := 5) (by simp [fabricForms])
    have hend (v : State) (hv : s.Opened v t k ((s.fetched t 4).newOp t k 5 0 b)) :=
      hv.startFabric_unresolved (show (5 : Nat) ≠ 7 by decide) rfl rfl hnone
    obtain ⟨hhandle, v, hv, hop⟩ := State.submit_starts (rd := rd) (major := major) h hfl (.inl (by decide)) hgood rfl
      fun v hv => (hend v hv).1
    exact ⟨_, hexec, hhandle, by rw [hop]; exact (hend v hv).2⟩

end Sys2Proof.Machine
end

section
open Sys2Proof Sys2Proof.Machine
namespace Sys2Proof.Machine

/-! ### A doorbell on a map of queues that is not in canonical form (R170, R179) -/

/-- A doorbell write to a device in its running power state that is not in the safe state. -/
theorem exec_doorbell_running {s : State} (hpower : s.dev.power = 0) (hsafe : s.inSafe = false) (f off size : Nat) (v : Word)
    (bad : Bool) : exec (.doorbell f off size v bad) s = .next (s.synced (doorbell f off size v bad)) := by
  have hstirs : s.hostStirs = s := by simp [State.hostStirs, hpower]
  have hparked : s.parked = false := by simp [State.parked, hpower]
  rw [show exec (.doorbell f off size v bad) s = execDoorbell f off size v bad s from rfl, execDoorbell, hstirs, hparked, hsafe]
  rfl

/-- Queue 9 is listed twice: as an absent queue, which is how it reads, and behind that with the tail 5. -/
def shadowedQueue : State :=
  { State.reset with rings := { State.reset.rings with queues := [(9, Queue.init), (9, { Queue.init with tail := 5 })] } }

/-- Bringing the arbiter up to date drops the first entry, which holds the default, and queue 9 then reads as the second. -/
theorem arbSync_shadowedQueue_tail :
    (shadowedQueue.queue 9).tail = 0 ∧ (shadowedQueue.arbSync.queue 9).tail = 5 := by decide +kernel

/-- A doorbell write of 2 bytes is badly formed. It is counted and moves no tail itself; the arbiter's update around it does. -/
theorem doorbell_shadowedQueue_tail :
    ((shadowedQueue.synced (doorbell 0 0x2000048 2 0 false)).queue 9).tail = 5 := by decide +kernel

/-- Refutes O33: the clause of rejected doorbells says of every state that no queue's tail changes. `synced` brings the arbiter up to
date around a doorbell, and that lists the queues anew without those that hold the default. Where the map of queues is not in
canonical form and an entry with the default stands before another of its number, the tail read there changes. The clause has no
premise on the form of the map. -/
theorem not_workFifosAndDoorbells : ¬ Obligations.WorkFifosAndDoorbells := by
  unfold Obligations.WorkFifosAndDoorbells
  rintro ⟨-, -, -, -, -, -, -, hreject, -⟩
  have hpower : shadowedQueue.dev.power = 0 := by decide +kernel
  have hsafe : shadowedQueue.inSafe = false := by decide +kernel
  obtain ⟨u, hu, -, htail, -⟩ := hreject shadowedQueue 0 0x2000048 2 0 hpower hsafe (by decide) (.inl (by decide))
  have hkept : (u.queue 9).tail = 0 := (htail 9).trans arbSync_shadowedQueue_tail.1
  rw [exec_doorbell_running hpower hsafe] at hu
  rw [← Host.Outcome.next.inj hu, doorbell_shadowedQueue_tail] at hkept
  exact absurd hkept (by decide)

end Sys2Proof.Machine
end

section
open Sys2Proof Sys2Proof.Machine
namespace Sys2Proof.Machine

/-! ### A RUN that names an entry which has not started (R184, R291) -/

/-- The bytes of a put, an entry whose other fields are 0. -/
def barePut : List Byte := leBytes 64 (2 ^ 8)

/-- A put is next to start in queue 0, which has no connection. A RUN of collective 0 names the queue and the serial of the put, and the
operation in slot 0 is one of that collective. -/
def strayRun : State :=
  { ({ State.reset with net := { State.reset.net with
        colls := [(0, some ⟨0, 0, 0, [], 1, [], false, some ⟨0, 0, 0, 0, 0, false, [], [], 0, 0, 0⟩⟩)] } }.setQueue 0
      { Queue.init with outstanding := [⟨0, 0, barePut, false⟩] }) with
    ops := [(0, { Op.free with status := none, origin := .coll 0 0 })] }

theorem strayRun_starts : strayRun.starts 0 0 1 ⟨0, 0, barePut, false⟩ := by
  unfold State.starts; decide

/-- The end of the put is taken for the end of the RUN, and the operation becomes one of the put. -/
theorem sqWork_strayRun_ops : (strayRun.sqWork 0 0 (· == 1)).ops ≠ strayRun.ops := by decide

/-- Refutes O27: the end of every entry is also the end of the RUN that names its queue and serial (`runOver`), which aborts the
operations of the collective and gives them to the entry. The clause of an entry that ends with its code says that no operation
changes, and has no premise that no RUN names the entry. -/
theorem not_workEntries : ¬ Obligations.WorkEntries := by
  unfold Obligations.WorkEntries
  rintro ⟨-, -, -, hends, -⟩
  obtain ⟨u, hu, -, hops⟩ := hends strayRun 0 0 ⟨0, 0, barePut, false⟩ 1 0x22 (.put 0 0) (by simp) strayRun_starts
    (.inl ⟨by decide, rfl⟩)
  rw [← show strayRun.sqWork 0 0 (· == 1) = u from Host.Outcome.next.inj hu] at hops
  exact sqWork_strayRun_ops hops

end Sys2Proof.Machine
end

section
open Sys2Proof Sys2Proof.Machine
namespace Sys2Proof.Machine

/-! ### An adapter reset on a map of queues that is not in canonical form (R193) -/

/-- The adapter is halted. Queue 9 is listed twice: as an absent queue, which is how it reads, and behind that as an unused queue that
5 entries were fetched from before. -/
def shadowedFetches : State :=
  { State.reset with
    rings := { State.reset.rings with queues := [(9, Queue.init), (9, { Queue.init with fetched := 5 })] }
    tgf := { State.reset.tgf with halted := true } }

theorem exec_adapterReset_shadowedFetches :
    exec (.adapterReset 0 0xAD5E0001) shadowedFetches = .next shadowedFetches.adapterReset :=
  congrArg Host.Outcome.next (if_pos (by decide))

/-- Emptying every queue drops the first entry, which holds the default, and queue 9 then reads as what the second leaves. -/
theorem adapterReset_shadowedFetches_queue :
    (shadowedFetches.queue 9).gone.fetched = 0 ∧ (shadowedFetches.adapterReset.queue 9).fetched = 5 := by decide +kernel

/-- Refutes O37: an adapter reset empties the queues entry by entry of their map and drops those that are then the default. Where the
map is not in canonical form and an entry with the default stands before another of its number, the queue read there after the reset
is not what it left of the queue read there before. The clause of the adapter reset says it of every state, with no premise on the
form of the map. -/
theorem not_queueCommands : ¬ Obligations.QueueCommands := by
  unfold Obligations.QueueCommands
  rintro ⟨-, -, -, -, -, -, hreset⟩
  obtain ⟨u, hu, -, hgone, -⟩ := hreset shadowedFetches 0 0xAD5E0001 (by decide) (by decide) (by decide) rfl (by decide)
  rw [exec_adapterReset_shadowedFetches] at hu
  obtain rfl := Host.Outcome.next.inj hu
  obtain ⟨hbefore, hafter⟩ := adapterReset_shadowedFetches_queue
  have hkept := congrArg Queue.fetched (hgone 9)
  rw [hbefore, hafter] at hkept
  exact absurd hkept (by decide)

end Sys2Proof.Machine
end

section
open Sys2Proof Sys2Proof.Machine
namespace Sys2Proof.Machine

section
variable {α : Type} {d : α}

/-- A change of every value, at a key that neither before nor after it holds the default. -/
theorem SMap.get_mapVals_of_ne [DecidableEq α] {f : Nat → α → α} {m : SMap α} {i : Nat} (hd : SMap.get d m i ≠ d)
    (hf : f i (SMap.get d m i) ≠ d) : SMap.get d (SMap.mapVals d f m) i = f i (SMap.get d m i) := by
  induction m with
  | nil => exact absurd rfl hd
  | cons e m ih =>
    obtain ⟨j, v⟩ := e
    by_cases hi : i = j
    · subst hi
      simp only [SMap.get, if_true] at hf ⊢
      simp [SMap.mapVals, SMap.get, hf]
    · simp only [SMap.get, hi, if_false] at hd hf ⊢
      simp only [SMap.mapVals]
      split
      · exact ih hd hf
      · simp only [SMap.get, hi, if_false]; exact ih hd hf

/-- A value other than the default is listed. -/
theorem SMap.mem_of_get_ne {m : SMap α} {i : Nat} (hd : SMap.get d m i ≠ d) : (i, SMap.get d m i) ∈ m := by
  induction m with
  | nil => exact absurd rfl hd
  | cons e m ih =>
    obtain ⟨j, v⟩ := e
    simp only [SMap.get] at hd ⊢
    split
    · next h => subst h; exact List.mem_cons_self
    · next h => rw [if_neg h] at hd; exact List.mem_cons_of_mem _ (ih hd)

end

@[simp] theorem NSet.mem_add (m : NSet) (k : Nat) : NSet.mem (NSet.add m k) k = true := by
  induction m with
  | nil => simp [NSet.mem, NSet.add, SMap.insert, SMap.has]
  | cons e m ih =>
    obtain ⟨j, v⟩ := e
    simp only [NSet.mem, NSet.add, SMap.insert] at ih ⊢
    split
    · simp [SMap.has]
    split <;> simp_all [SMap.has]

@[simp] theorem NSet.mem_del (m : NSet) (k : Nat) : NSet.mem (NSet.del m k) k = false := by
  induction m with
  | nil => rfl
  | cons e m ih =>
    obtain ⟨j, v⟩ := e
    simp only [NSet.mem, NSet.del, SMap.erase] at ih ⊢
    split
    · exact ih
    · next h => simpa [SMap.has, h] using ih

variable {s t u : State}

/-! ## What leaves the device stays in the record -/

theorem State.emit_out (h : s.out <:+ t.out) (e : Emit) : s.out <:+ (t.emit e).out := h.trans (List.suffix_cons e t.out)

theorem State.react_out (s : State) (cls : Nat) : s.out <:+ (s.react cls).out := by
  unfold State.react
  split
  · dsimp only
    split
    · exact State.emit_out (by simp) _
    · simp
  split
  · split
    · exact List.suffix_refl _
    · exact State.emit_out (State.emit_out (State.emit_out (by simp) _) _) _
  · exact List.suffix_refl _

theorem State.afterFreeze_out (s : State) (e : Event) : s.out <:+ (s.afterFreeze e).out := by
  unfold State.afterFreeze
  dsimp only
  split
  · refine List.IsSuffix.trans ?_ (State.react_out _ _)
    split <;> simp
  · simp

theorem State.present_out (s : State) (e : Event) : s.out <:+ (s.present e).out := by
  have hreact (t : State) (ht : t.out = s.out) (cls : Nat) : s.out <:+ (t.react cls).out := ht ▸ t.react_out cls
  unfold State.present
  dsimp only
  split
  · exact List.suffix_refl _
  split
  · split
    · split
      · exact hreact _ (by simp) _
      · simp
    · simpa using (s.countEvent e).afterFreeze_out e
  split
  · split
    · exact hreact _ (by simp) _
    · simp
  split
  · have h : s.out <:+ (if decide (3 ≤ classOf e.code) && e.reacts then
        ((s.countEvent e).openRecord e (decide (3 ≤ classOf e.code) && e.reacts)).react (classOf e.code)
        else (s.countEvent e).openRecord e (decide (3 ≤ classOf e.code) && e.reacts)).out := by
      split
      · exact hreact _ (by simp) _
      · simp
    split
    · exact h
    · simpa using h
  · simp

theorem State.report_out (s : State) (src code info0 info1 : Nat) : s.out <:+ (s.report src code info0 info1).out := by
  have h := (s.lifeEvent src code).present_out ⟨src, code, info0, info1, false, true⟩
  rwa [show (s.lifeEvent src code).out = s.out by simp] at h

/-! ## What an operation that leaves the rings alone leaves of queues and rings -/

theorem State.queue_of_rings (h : t.rings = s.rings) (n : Nat) : t.queue n = s.queue n := by rw [State.queue, h]; rfl
theorem State.cq_of_rings (h : t.rings = s.rings) (n : Nat) : t.cq n = s.cq n := by rw [State.cq, h]; rfl

@[simp] theorem State.histTime_rings (s : State) (src inst : Nat) (v : Word) : (s.histTime src inst v).rings = s.rings := by
  simp [State.histTime]
@[simp] theorem State.histTime_out (s : State) (src inst : Nat) (v : Word) : (s.histTime src inst v).out = s.out := by
  simp [State.histTime]

/-- A RING_EVENT goes to a FIFO or waits: of ring service only the list of those that wait changes. -/
theorem State.ringEvent_rings (s : State) (c ev cause cn qn held : Nat) :
    ∃ evs, (s.ringEvent c ev cause cn qn held).rings = { s.rings with events := evs } := by
  unfold State.ringEvent
  dsimp only
  split
  · next t h =>
    split at h
    · have ht : t.rings = s.rings := by simp only [State.pushEvent_frame _ _ _ _ h]
      exact ⟨s.rings.events, ht⟩
    · cases h
  · split <;> exact ⟨_, rfl⟩

@[simp] theorem State.queue_ringEvent (s : State) (c ev cause cn qn held n : Nat) :
    (s.ringEvent c ev cause cn qn held).queue n = s.queue n := by
  obtain ⟨evs, h⟩ := s.ringEvent_rings c ev cause cn qn held
  rw [State.queue, h]; rfl
@[simp] theorem State.cq_ringEvent (s : State) (c ev cause cn qn held n : Nat) :
    (s.ringEvent c ev cause cn qn held).cq n = s.cq n := by
  obtain ⟨evs, h⟩ := s.ringEvent_rings c ev cause cn qn held
  rw [State.cq, h]; rfl
@[simp] theorem State.queue_report (s : State) (src code i0 i1 n : Nat) : (s.report src code i0 i1).queue n = s.queue n :=
  State.queue_of_rings (by simp) n
@[simp] theorem State.cq_report (s : State) (src code i0 i1 n : Nat) : (s.report src code i0 i1).cq n = s.cq n :=
  State.cq_of_rings (by simp) n

/-! What `whenAwake` does beside its continuation concerns attachments and counts alone. -/

@[simp] theorem State.whenAwake_id_rings (s : State) (f : Nat) : (s.whenAwake f id).rings = s.rings := by
  unfold State.whenAwake
  split <;> simp
@[simp] theorem State.whenAwake_id_out (s : State) (f : Nat) : (s.whenAwake f id).out = s.out := by
  unfold State.whenAwake
  split <;> simp
theorem State.whenAwake_id_funcs (s : State) (f : Nat) : (s.whenAwake f id).host.funcs = s.host.funcs := by
  unfold State.whenAwake State.startExit
  dsimp only
  split
  · rfl
  · split <;> rfl

/-! ## A completion is committed (R160, R188) -/

/-- A ring enters FULL and tells of it, or stays as it is. -/
theorem State.checkFull_cq (s : State) (cn n : Nat) :
    (s.checkFull cn).cq n = s.cq n ∨ n = cn ∧ (s.cq cn).state = .ready ∧
      (s.checkFull cn).cq n = { s.cq cn with state := .full, stallFrom := s.loc } := by
  unfold State.checkFull
  dsimp only
  split
  · next h =>
    by_cases hn : n = cn
    · subst hn
      simp only [Bool.and_eq_true, beq_iff_eq] at h
      obtain ⟨⟨⟨⟨hready, -⟩, -⟩, -⟩, -⟩ := h
      exact .inr ⟨rfl, hready, by simp⟩
    · exact .inl (by simp [hn])
  · exact .inl rfl

@[simp] theorem State.checkFull_queue (s : State) (cn n : Nat) : (s.checkFull cn).queue n = s.queue n := by
  unfold State.checkFull
  dsimp only
  split <;> simp

theorem State.checkFull_out (s : State) (cn : Nat) : s.out <:+ (s.checkFull cn).out := by
  unfold State.checkFull
  dsimp only
  split
  · exact List.IsSuffix.trans (by simp) (State.report_out _ _ _ _ _)
  · exact List.suffix_refl _

/-- How a ring stands after it was given a completion: behind those written directly next, or stashed behind the held ones, which may
have made a READY ring FULL. -/
inductive Cq.Took (x : Cq) (c : Completion) (at_ : Word) : Cq → Prop
  | direct : Took x c at_ { x with direct := x.direct ++ [{ c with at_ := at_ }] }
  | held {st : CqState} {from_ : Word} (h : st = x.state ∨ x.state = .ready ∧ st = .full) :
    Took x c at_ { x with held := x.held ++ [{ c with at_ := at_ }.stash], state := st, stallFrom := from_ }

theorem State.commitCqe_took (s : State) (cn : Nat) (c : Completion) : (s.cq cn).Took c s.loc ((s.commitCqe cn c).2.cq cn) := by
  unfold State.commitCqe
  dsimp only
  split
  · rw [State.cq_of_rings (State.whenAwake_id_rings _ _), State.cq_setCq]
    exact .direct
  · obtain h | ⟨-, hready, h⟩ := State.checkFull_cq ((if leAt c.raw 14 1 == 1 then s.bump R.RING_ABORT_COUNT else s).setCq cn
      { s.cq cn with held := (s.cq cn).held ++ [{ c with at_ := s.loc }.stash] }) cn cn
    · rw [h, State.cq_setCq]
      exact .held (.inl rfl)
    · rw [State.cq_setCq] at hready h
      rw [h]
      exact .held (.inr ⟨hready, rfl⟩)

theorem State.commitCqe_cq_ne (s : State) {cn n : Nat} (c : Completion) (h : n ≠ cn) : (s.commitCqe cn c).2.cq n = s.cq n := by
  unfold State.commitCqe
  dsimp only
  split
  · rw [State.cq_of_rings (State.whenAwake_id_rings _ _)]
    split <;> simp [h]
  · obtain hcq | ⟨hn, -⟩ := State.checkFull_cq ((if leAt c.raw 14 1 == 1 then s.bump R.RING_ABORT_COUNT else s).setCq cn
      { s.cq cn with held := (s.cq cn).held ++ [{ c with at_ := s.loc }.stash] }) cn n
    · rw [hcq]
      split <;> simp [h]
    · exact absurd hn h

@[simp] theorem State.commitCqe_queue (s : State) (cn n : Nat) (c : Completion) : (s.commitCqe cn c).2.queue n = s.queue n := by
  unfold State.commitCqe
  dsimp only
  split
  · rw [State.queue_of_rings (State.whenAwake_id_rings _ _)]
    split <;> simp
  · split <;> simp

theorem State.commitCqe_out (s : State) (cn : Nat) (c : Completion) : s.out <:+ (s.commitCqe cn c).2.out := by
  unfold State.commitCqe
  dsimp only
  split
  · rw [State.whenAwake_id_out]
    split <;> simp
  · exact List.IsSuffix.trans (by split <;> simp) (State.checkFull_out _ _)

theorem State.commitCqe_funcs (s : State) (cn : Nat) (c : Completion) : (s.commitCqe cn c).2.host.funcs = s.host.funcs := by
  unfold State.commitCqe
  dsimp only
  split
  · rw [State.whenAwake_id_funcs]
    split <;> rfl
  · simp only [State.checkFull_frame, State.setCq_host]
    split <;> rfl

/-! ## A work entry ends (R119, R160) -/

/-- The status of a completion entry stands in its byte 14. -/
theorem State.leAt_cqeBytes (s : State) (c : CqeFields) : leAt (s.cqeBytes c) 14 1 = c.status % 256 := by
  simp [State.cqeBytes, leAt, byteSlice, leBytes, leNat, zeroBytes]

theorem leAt_one (bs : List Byte) (i : Nat) : leAt bs i 1 = (bs[i]?.getD 0).toNat := by
  simp only [leAt, byteSlice, List.take_one, List.head?_drop]
  cases bs[i]? <;> simp [leNat, zeroBytes]

/-- The STASHED bit stands behind the status. -/
theorem Completion.leAt_stash {c : Completion} (h : 15 ≤ c.raw.length) : leAt c.stash.raw 14 1 = leAt c.raw 14 1 := by
  rw [leAt_one, leAt_one, Completion.stash, List.getElem?_append_left (by rw [List.length_take]; omega),
    List.getElem?_take_of_lt (by decide)]

theorem State.length_cqeBytes (s : State) (c : CqeFields) : (s.cqeBytes c).length = 32 := by
  simp [State.cqeBytes, length_leBytes]

/-- A ring that took a completion shows it, with the status that it was given. -/
theorem Cq.Took.posted {x y : Cq} {c : Completion} {v : Word} (h : x.Took c v y) (hlen : 15 ≤ c.raw.length) :
    ∃ c' ∈ y.direct ++ y.held, c'.work = c.work ∧ leAt c'.raw 14 1 = leAt c.raw 14 1 := by
  cases h with
  | direct => exact ⟨{ c with at_ := v }, by simp, rfl, rfl⟩
  | held _ => exact ⟨{ c with at_ := v }.stash, by simp, rfl, Completion.leAt_stash (c := { c with at_ := v }) hlen⟩

theorem State.commitCqe_posted (s : State) (cn : Nat) {c : Completion} {qn addr st : Nat} (hlen : c.raw.length = 32)
    (hwork : c.work = some (qn, addr)) (hst : leAt c.raw 14 1 = st) : (s.commitCqe cn c).2.posted cn qn addr st := by
  obtain ⟨c', hmem, hwork', hst'⟩ := (s.commitCqe_took cn c).posted (by omega)
  exact ⟨c', hmem, hwork'.trans hwork, hst'.trans hst⟩

@[simp] theorem State.queue_runOver (s : State) (qn serial st n : Nat) : (s.runOver qn serial st).queue n = s.queue n :=
  State.queue_of_rings (by simp) n
@[simp] theorem State.cq_runOver (s : State) (qn serial st n : Nat) : (s.runOver qn serial st).cq n = s.cq n :=
  State.cq_of_rings (by simp) n

section
variable {qn serial : Nat} {e : OutEntry} (h : (s.queue qn).entry serial = some e) (d : WorkDone)
include h

theorem State.workDone_queue : (s.workDone qn serial d).queue qn =
    { s.queue qn with outstanding := (s.queue qn).outstanding.filter (·.serial != serial) } := by
  unfold State.workDone
  simp only [h]
  rw [State.commitCqe_queue, State.queue_runOver, State.queue_setQueue]

/-- The end of an entry commits a completion with its status to the ring of its queue. -/
theorem State.workDone_posted :
    (s.workDone qn serial d).posted (s.queue qn).cn qn ((s.queue qn).entryAddr e.idx) (entryStatus d.status % 256) := by
  unfold State.workDone
  simp only [h]
  exact State.commitCqe_posted _ _ (State.length_cqeBytes _ _) rfl (State.leAt_cqeBytes _ _)

/-- An entry that ends has ended with its status. -/
theorem State.workDone_ended : s.ended (s.workDone qn serial d) qn e (entryStatus d.status % 256) := by
  refine ⟨?_, s.workDone_posted h d⟩
  have hserial : e.serial = serial := by simpa using List.find?_some h
  rw [State.workDone_queue h, hserial, Queue.entry, List.find?_eq_none]
  intro x hx
  simpa using (List.mem_filter.mp hx).2

end

theorem State.workDone_cq_ne (s : State) {qn n : Nat} (hn : n ≠ (s.queue qn).cn) (serial : Nat) (d : WorkDone) :
    (s.workDone qn serial d).cq n = s.cq n := by
  unfold State.workDone
  dsimp only
  split
  · rfl
  · rw [State.commitCqe_cq_ne _ _ hn, State.cq_runOver, State.cq_setQueue]

theorem State.workDone_funcs (s : State) (qn serial : Nat) (d : WorkDone) :
    (s.workDone qn serial d).host.funcs = s.host.funcs := by
  unfold State.workDone
  dsimp only
  split
  · rfl
  · rw [State.commitCqe_funcs]; simp

/-! ## The arbiter is brought up to date (R180, R183) -/

/-- Only the ARB of a queue, and the one that waits, may change. -/
theorem Queue.takeArb_eq (q : Queue) : ∃ b g w a, q.takeArb = { q with burst := b, group := g, weight := w, newArb := a } := by
  unfold Queue.takeArb
  split <;> exact ⟨_, _, _, _, rfl⟩

theorem State.arbSync_queue {n : Nat} (h : (s.queue n).state ≠ .unused ∨ (s.queue n).cn ≠ 0) :
    ∃ b g w a, s.arbSync.queue n = { s.queue n with burst := b, group := g, weight := w, newArb := a } := by
  have hne {b g w a} : ({ s.queue n with burst := b, group := g, weight := w, newArb := a } : Queue) ≠ Queue.init := fun hd =>
    h.elim (absurd (congrArg Queue.state hd)) (absurd (congrArg Queue.cn hd))
  have hsame : s.queue n ≠ Queue.init := hne
  obtain ⟨b, g, w, a, htake⟩ := (s.queue n).takeArb_eq
  unfold State.queue at *
  unfold State.arbSync
  dsimp only
  rw [SMap.get_mapVals_of_ne hsame]
  · split
    · exact ⟨b, g, w, a, htake⟩
    · exact ⟨_, _, _, _, rfl⟩
  · split
    · rw [htake]; exact hne
    · exact hsame

theorem State.inSafe_of_not_halted (h : s.adapterHalted = false) : s.inSafe = false := (Bool.or_eq_false_iff.mp h).2

theorem State.synced_eq (h : s.inSafe = false) (f : State → State) : s.synced f = (f s.arbSync).arbSync := by
  rw [State.synced, h]; rfl

/-! ## The interrupt of a ring (R173) -/

@[simp] theorem State.raiseIrq_queue (s : State) (f v n : Nat) : (s.raiseIrq f v).queue n = s.queue n :=
  State.queue_of_rings (by simp) n
@[simp] theorem State.raiseIrq_cq (s : State) (f v n : Nat) : (s.raiseIrq f v).cq n = s.cq n := State.cq_of_rings (by simp) n

@[simp] theorem State.assertWake_func (s : State) (f : Nat) : s.assertWake.func f = s.func f := by
  unfold State.assertWake
  split <;> rfl

/-- A request to wake the host keeps what the function holds. -/
theorem State.requestWake_held (s : State) (f : Nat) : ((s.requestWake f).func f).held = (s.func f).held := by
  unfold State.requestWake
  dsimp only
  split
  · unfold State.startExit
    dsimp only
    split <;> rfl
  · split
    · rfl
    · simp
  · split
    · rfl
    · simp

/-- A vector that is raised is held. -/
theorem State.raiseIrq_held (s : State) (f v : Nat) : NSet.mem ((s.raiseIrq f v).func f).held v = true := by
  rw [State.raiseIrq, State.requestWake_held]
  simp

theorem State.raiseIrq_out (s : State) (f v : Nat) : s.out <:+ (s.raiseIrq f v).out := by
  unfold State.raiseIrq State.requestWake
  dsimp only
  split
  · simp
  · split
    · simp
    · exact State.emit_out (by simp) _
  · split
    · simp
    · unfold State.assertWake
      split
      · simp
      · exact State.emit_out (by simp) _

theorem State.irqCheck_due {cn : Nat} (hen : (s.cq cn).irqEn = true) (hdue : s.irqDue (s.cq cn) = true) :
    s.irqCheck cn =
      (s.setCq cn { s.cq cn with pend := 0, timer := none, nowMet := false }).raiseIrq (s.cq cn).func (s.cq cn).vector := by
  simp [State.irqCheck, hen, hdue]

/-- The check of the interrupt changes of a ring at most its moderation. -/
theorem State.irqCheck_cq (s : State) (cn : Nat) :
    ∃ p t m, (s.irqCheck cn).cq cn = { s.cq cn with pend := p, timer := t, nowMet := m } := by
  unfold State.irqCheck
  dsimp only
  split
  · exact ⟨0, none, false, by simp⟩
  · exact ⟨_, _, _, rfl⟩

theorem State.irqCheck_cq_ne (s : State) {cn n : Nat} (h : n ≠ cn) : (s.irqCheck cn).cq n = s.cq n := by
  unfold State.irqCheck
  dsimp only
  split <;> simp [h]

@[simp] theorem State.irqCheck_queue (s : State) (cn n : Nat) : (s.irqCheck cn).queue n = s.queue n := by
  unfold State.irqCheck
  dsimp only
  split <;> simp

theorem State.irqCheck_out (s : State) (cn : Nat) : s.out <:+ (s.irqCheck cn).out := by
  unfold State.irqCheck
  dsimp only
  split
  · exact List.IsSuffix.trans (by simp) (State.raiseIrq_out _ _ _)
  · exact List.suffix_refl _

/-- The check of the interrupt after a ring was changed: it changes at most the ring's moderation, and raises the vector where enough
completions are pending. -/
theorem State.irqCheck_setCq (s : State) (cn : Nat) (x : Cq) :
    (∃ p v m, ((s.setCq cn x).irqCheck cn).cq cn = { x with pend := p, timer := v, nowMet := m }) ∧
    (x.irqEn = true → x.modCount ≤ x.pend → (((s.setCq cn x).irqCheck cn).cq cn).pend = 0 ∧
      NSet.mem (((s.setCq cn x).irqCheck cn).func x.func).held x.vector = true) := by
  obtain hx := State.irqCheck_cq (s.setCq cn x) cn
  rw [State.cq_setCq] at hx
  refine ⟨hx, fun hen hdue => ?_⟩
  rw [State.irqCheck_due (by rwa [State.cq_setCq]) (by rw [State.cq_setCq]; simp [State.irqDue, hdue]), State.cq_setCq]
  exact ⟨by simp, State.raiseIrq_held _ _ _⟩

end Sys2Proof.Machine
end

section
open Sys2Proof Sys2Proof.Machine
namespace Sys2Proof.Machine

variable {s t u : State}

/-! ## Commands of a control ring (R175, R176) -/

variable {pf idx op : Nat} {e : OutEntry} {body : List Byte → Nat → State → CtrlEnd × State}

/-- An entry of a control ring that has started is still outstanding. -/
theorem State.markStarted_entry {qn serial : Nat} (h : (s.queue qn).entry serial = some e) :
    ((s.markStarted qn serial).queue qn).entry serial = some { e with started := true } := by
  have hserial : e.serial = serial := by simpa using List.find?_some h
  rw [State.markStarted, State.queue_setQueue, Queue.entry, List.find?_map]
  have hsame : ((fun x : OutEntry => x.serial == serial) ∘ fun x => if x.serial == serial then { x with started := true } else x) =
      fun x => x.serial == serial := by
    funext x; dsimp only [Function.comp]; split <;> rfl
  rw [hsame, show List.find? _ _ = some e from h]
  simp [hserial]

theorem State.controls.not_safe (h : s.controls pf idx op e) : s.inSafe = false := by
  obtain ⟨hhalt, -⟩ := h
  exact State.inSafe_of_not_halted hhalt

theorem State.controls.ctrl_eq (h : s.controls pf idx op e) {d : WorkDone}
    (hbody : body e.bytes e.serial (s.markStarted (ctrlQn pf) e.serial) = (some d, t)) :
    s.ctrl pf idx op body = t.workDone (ctrlQn pf) e.serial d := by
  obtain ⟨hhalt, hstart, hop, hrun, hpower, hroom, -⟩ := h
  have hsafe := State.inSafe_of_not_halted hhalt
  unfold State.ctrl State.ctrlAny
  simp [hhalt, hstart, hop, hrun, hsafe, hroom, hbody, Nat.not_le.mpr hpower]

/-- A command that leaves its own control ring alone ends with its status. -/
theorem State.controls.ended (h : s.controls pf idx op e)
    (hqueue : t.queue (ctrlQn pf) = (s.markStarted (ctrlQn pf) e.serial).queue (ctrlQn pf)) (d : WorkDone) :
    s.ended (t.workDone (ctrlQn pf) e.serial d) (ctrlQn pf) e (entryStatus d.status % 256) := by
  obtain ⟨-, -, -, -, -, -, hentry⟩ := h
  have hend := t.workDone_ended (hqueue ▸ State.markStarted_entry hentry) d
  unfold State.ended at hend ⊢
  rwa [hqueue, State.markStarted, State.queue_setQueue] at hend

theorem leAt_two_lt (b : List Byte) (i : Nat) : leAt b i 2 < 65536 := by
  have h := leNat_lt (byteSlice b i 2)
  rwa [length_byteSlice] at h

theorem State.freeBelow_clusterCount (s : State) : (s.freeBelow (s.clusterCount - 1)).1 < s.clusterCount := by
  have hpos : 0 < s.clusterCount := by unfold State.clusterCount; split <;> decide
  exact (Nat.mod_lt _ (Nat.succ_pos _)).trans_eq (by omega)

theorem cqCreateBody_creates {b : List Byte} {serial : Nat} (hlog : 6 ≤ leAt b 10 1) (hlog' : leAt b 10 1 ≤ 16)
    (hbase : leAt b 16 8 % 4096 = 0) (hvector : leAt b 24 2 < vectorsOf (leAt b 12 2)) (hcount : leAt b 26 2 ≠ 0)
    (htime : leAt b 28 4 ≤ 1000000) (hname : s.mayName pf (leAt b 12 2) = true) (hunused : (s.cq (leAt b 8 2)).state = .unused) :
    cqCreateBody pf b serial s = (some { status := 0 }, (s.freeBelow (s.clusterCount - 1)).2.setCq (leAt b 8 2)
      { Cq.init with
        state := .ready, log2 := leAt b 10 1, base := leAt b 16 8, func := leAt b 12 2, cluster := (s.freeBelow (s.clusterCount - 1)).1
        vector := leAt b 24 2, modCount := leAt b 26 2, modTime := leAt b 28 4, irqEn := nbit (leAt b 32 1) 0
        k := 2 ^ leAt b 10 1 }) := by
  have hlog := Nat.not_lt.mpr hlog
  have hlog' := Nat.not_lt.mpr hlog'
  have htime := Nat.not_lt.mpr htime
  have hvector := Nat.not_le.mpr hvector
  simp [cqCreateBody, endsWith, hlog, hlog', hbase, hvector, hcount, htime, hname, hunused]

theorem cqModifyBody_modifies {b : List Byte} {serial : Nat} (hvector : leAt b 24 2 < vectorsOf (leAt b 12 2)) (hcount : leAt b 26 2 ≠ 0)
    (htime : leAt b 28 4 ≤ 1000000) (hused : (s.cq (leAt b 8 2)).state ≠ .unused) (hfunc : (s.cq (leAt b 8 2)).func = leAt b 12 2)
    (hname : s.mayName pf (leAt b 12 2) = true) :
    ∃ x, cqModifyBody pf b serial s = (some { status := 0 }, (s.setCq (leAt b 8 2) x).irqCheck (leAt b 8 2)) ∧
      x.irqEn = nbit (leAt b 32 1) 0 ∧ x.vector = leAt b 24 2 ∧ x.modCount = leAt b 26 2 ∧ x.modTime = leAt b 28 4 ∧
      x.w = (s.cq (leAt b 8 2)).w ∧ x.k = (s.cq (leAt b 8 2)).k ∧ x.pend = (s.cq (leAt b 8 2)).pend ∧
      x.func = (s.cq (leAt b 8 2)).func := by
  have htime := Nat.not_lt.mpr htime
  have hvector := Nat.not_le.mpr hvector
  unfold cqModifyBody
  dsimp only
  rw [if_neg (by simp [hvector, hcount, htime, hused, hfunc]), if_neg (by simp [hname])]
  exact ⟨_, rfl, rfl, rfl, rfl, rfl, rfl, rfl, rfl, rfl⟩

theorem cqDestroyBody_destroys {b : List Byte} {serial : Nat}
    (hstate : (s.cq (leAt b 8 2)).state = .ready ∨ (s.cq (leAt b 8 2)).state = .failed)
    (hname : s.mayName pf (s.cq (leAt b 8 2)).func = true) (hqueues : s.queuesOfCq (leAt b 8 2) = [])
    (hheld : (s.cq (leAt b 8 2)).held = []) (hdirect : (s.cq (leAt b 8 2)).direct = []) :
    cqDestroyBody pf b serial s = (some { status := 0 }, s.setCq (leAt b 8 2) Cq.init) := by
  obtain h | h := hstate <;> simp [cqDestroyBody, endsWith, h, hname, hqueues, hheld, hdirect]

theorem cqResetBody_resets {b : List Byte} {serial : Nat} (hstate : (s.cq (leAt b 8 2)).state = .failed)
    (hname : s.mayName pf (s.cq (leAt b 8 2)).func = true) (hheld : (s.cq (leAt b 8 2)).held = []) :
    cqResetBody pf b serial s = (some { status := 0 }, s.setCq (leAt b 8 2) { s.cq (leAt b 8 2) with
      state := .ready, w := 0, k := 2 ^ (s.cq (leAt b 8 2)).log2, reading := false, emptyRead := false, pollAt := none }) := by
  simp [cqResetBody, endsWith, hstate, hname, hheld]

/-- No queue listed is bound to a ring. -/
theorem State.queuesOfCq_eq_nil {cn : Nat} (h : ∀ q ∈ s.rings.queues, q.2.state = .unused ∨ q.2.cn ≠ cn) : s.queuesOfCq cn = [] := by
  rw [State.queuesOfCq, SMap.keysWhere, List.map_eq_nil_iff, List.filter_eq_nil_iff]
  intro q hq
  obtain h | h := h q hq <;> simp [h]

theorem State.markStarted_mem {qn serial : Nat} {q : Nat × Queue} (h : q ∈ (s.markStarted qn serial).rings.queues) :
    q.2.cn = (s.queue qn).cn ∨ q ∈ s.rings.queues := by
  obtain rfl | h := SMap.mem_set (m := s.rings.queues) h
  · exact .inl rfl
  · exact .inr h

/-- Without reads in flight, giving them up leaves a queue's other fields and everything else as it was. -/
theorem State.dropReads_idle {qn : Nat} (h : (s.queue qn).reading = []) :
    s.dropReads qn = s.setQueue qn { s.queue qn with reading := [] } := by
  rw [State.dropReads, h]; rfl

/-- What a synced command meets of its control ring is what stood there before. -/
theorem State.controls.arbSync (h : s.controls pf idx op e) (hcn : (s.queue (ctrlQn pf)).cn = ctrlCn pf) :
    s.arbSync.controls pf idx op e ∧ (s.arbSync.queue (ctrlQn pf)).cn = ctrlCn pf ∧
      (s.arbSync.queue (ctrlQn pf)).base = (s.queue (ctrlQn pf)).base := by
  obtain ⟨b, g, w, a, hq⟩ := s.arbSync_queue (n := ctrlQn pf) (.inr (by rw [hcn, ctrlCn]; omega))
  unfold State.controls at h ⊢
  rw [hq]
  exact ⟨h, hcn, rfl⟩

/-- What has ended stays so when the arbiter is brought up to date. -/
theorem State.ended.arbSync {qn st : Nat} (h : s.ended t qn e st) (hcn : (t.queue qn).cn ≠ 0) : s.ended t.arbSync qn e st := by
  obtain ⟨hentry, hposted⟩ := h
  obtain ⟨b, g, w, a, hq⟩ := t.arbSync_queue (n := qn) (.inr hcn)
  exact ⟨by rw [hq]; exact hentry, hposted⟩

theorem State.ended.of_before {qn st : Nat} (h : s.ended u qn e st) (hcn : (s.queue qn).cn = (t.queue qn).cn)
    (hbase : (s.queue qn).base = (t.queue qn).base) : t.ended u qn e st := by
  unfold State.ended Queue.entryAddr at h ⊢
  rwa [hcn, hbase] at h

/-- A command that succeeds and leaves its own control ring alone: it has ended, and the end reaches no other ring. -/
theorem State.controls.carriedOut {body : List Byte → Nat → State → CtrlEnd × State} (h : s.controls pf idx op e)
    (hring : (s.queue (ctrlQn pf)).cn = ctrlCn pf)
    (hbody : body e.bytes e.serial (s.markStarted (ctrlQn pf) e.serial) = (some { status := 0 }, t))
    (hqueue : t.queue (ctrlQn pf) = (s.markStarted (ctrlQn pf) e.serial).queue (ctrlQn pf)) :
    ∃ u, s.ctrl pf idx op body = u ∧ s.ended u (ctrlQn pf) e 0 ∧ (∀ cn, cn < 65536 → u.cq cn = t.cq cn) ∧
      (∀ f, u.func f = t.func f) ∧ (u.queue (ctrlQn pf)).cn = ctrlCn pf := by
  obtain ⟨-, -, -, -, -, -, hentry⟩ := id h
  have hring' : (t.queue (ctrlQn pf)).cn = ctrlCn pf := by rw [hqueue, State.markStarted, State.queue_setQueue]; exact hring
  refine ⟨_, h.ctrl_eq hbody, h.ended hqueue { status := 0 }, fun cn hcn => ?_, fun f => ?_, ?_⟩
  · exact t.workDone_cq_ne (by rw [hring', ctrlCn]; omega) _ _
  · rw [State.func, State.workDone_funcs]; rfl
  · rw [State.workDone_queue (hqueue ▸ State.markStarted_entry hentry)]; exact hring'

theorem cringDisable_disables (henabled : s.fb F.HIF_CRING_CFG_ENABLE [pf] = true) (hidle : (s.queue (ctrlQn pf)).reading = []) :
    (cringDisable pf s).fb F.HIF_CRING_CFG_ENABLE [pf] = false ∧ ((cringDisable pf s).queue (ctrlQn pf)).state = .shutdown ∧
      ((cringDisable pf s).queue (ctrlQn pf)).outstanding = (s.queue (ctrlQn pf)).outstanding ∧
      s.keeps (cringDisable pf s) [.ram, .ops, .net, .host, .out] := by
  have hidle' : ((s.fset F.HIF_CRING_CFG_ENABLE [pf] false).queue (ctrlQn pf)).reading = [] := by rw [State.queue_fset, hidle]
  rw [cringDisable, if_neg (by simp [henabled]), State.dropReads_idle hidle']
  refine ⟨?_, ?_, ?_, ?_⟩
  · rw [State.fb_setQueue, State.fb_setQueue, s.fb_fset _ _ _ rfl (by decide) (by decide)]
  · rw [State.queue_setQueue]
  · rw [State.queue_setQueue, State.queue_setQueue, State.queue_fset]
  · simp -implicitDefEqProofs [State.keeps, State.same]

theorem ccqDisable_disables (henabled : s.fb F.HIF_CCQ_CFG_ENABLE [pf] = true) :
    if s.cringBusy pf = true then ccqDisable pf s = s else
      (ccqDisable pf s).fb F.HIF_CCQ_CFG_ENABLE [pf] = false ∧ (ccqDisable pf s).cq (ctrlCn pf) = Cq.init := by
  split
  · next hbusy => rw [ccqDisable, if_pos (by simp [hbusy])]
  · next hbusy =>
    rw [ccqDisable, if_neg (by simp [henabled, hbusy])]
    exact ⟨by rw [State.fb_setCq, s.fb_fset _ _ _ rfl (by decide) (by decide)], State.cq_setCq _ _ _⟩

/-- Settles O36: a command that keeps its rules does what its body does and ends with SUCCESS, in the control completion ring and in no
other; the two disables by their rules. -/
theorem ringCommands : Obligations.RingCommands := by
  unfold Obligations.RingCommands
  refine ⟨?_, ?_, ?_, ?_, ?_, ?_⟩
  · rintro s pf idx _ _ e _ h hring rfl rfl rfl hlog hlog' hbase hvector hcount htime hname hunused
    obtain ⟨u, hu, hend, hcq, -⟩ := h.carriedOut hring (cqCreateBody_creates hlog hlog' hbase hvector hcount htime hname hunused) rfl
    exact ⟨u, _, congrArg Host.Outcome.next hu, hend, State.freeBelow_clusterCount _, (hcq _ (leAt_two_lt _ _)).trans (State.cq_setCq _ _ _)⟩
  · rintro s pf idx _ e _ h hring rfl rfl hvector hcount htime hused hfunc hname
    obtain ⟨x, hbody, hen, hvec, hcnt, hmod, hw, hk, hpend, hxf⟩ := cqModifyBody_modifies (s := s.markStarted (ctrlQn pf) e.serial)
      (serial := e.serial) hvector hcount htime hused hfunc hname
    obtain ⟨u, hu, hend, hcq, hfuncs, -⟩ := h.carriedOut hring hbody (by simp)
    obtain ⟨⟨p, v, m, hx⟩, hirq⟩ := State.irqCheck_setCq (s.markStarted (ctrlQn pf) e.serial) (leAt e.bytes 8 2) x
    rw [← hcq _ (leAt_two_lt _ _)] at hx
    rw [← hcq _ (leAt_two_lt _ _), ← hfuncs, hen, hvec, hcnt, hpend, hxf] at hirq
    refine ⟨u, congrArg Host.Outcome.next hu, hend, ?_⟩
    exact ⟨by rw [hx]; exact hen, by rw [hx]; exact hvec, by rw [hx]; exact hcnt, by rw [hx]; exact hmod, by rw [hx]; exact hw,
      by rw [hx]; exact hk, hirq⟩
  · intro s pf idx _ e h hring rfl hstate hname hqueues hheld hdirect
    have hnone : (s.markStarted (ctrlQn pf) e.serial).queuesOfCq (leAt e.bytes 8 2) = [] := by
      refine State.queuesOfCq_eq_nil fun q hq => ?_
      obtain hcn | hq := State.markStarted_mem hq
      · exact .inr (by have := leAt_two_lt e.bytes 8; rw [hcn, hring, ctrlCn]; omega)
      · exact hqueues q hq
    obtain ⟨u, hu, hend, hcq, -⟩ := h.carriedOut hring (cqDestroyBody_destroys hstate hname hnone hheld hdirect) rfl
    exact ⟨u, congrArg Host.Outcome.next hu, hend, by rw [hcq _ (leAt_two_lt _ _), State.cq_setCq]⟩
  · intro s pf idx _ e h hring rfl hstate hname hheld
    obtain ⟨h', hring', hbase⟩ := h.arbSync hring
    obtain ⟨u, hu, hend, hcq, -, hcn⟩ := h'.carriedOut hring' (cqResetBody_resets hstate hname hheld) rfl
    have hsafe : s.inSafe = false := h.not_safe
    refine ⟨u.arbSync, congrArg Host.Outcome.next ((State.synced_eq hsafe _).trans (congrArg State.arbSync hu)), ?_, ?_⟩
    · exact (hend.of_before (hring'.trans hring.symm) hbase).arbSync (by rw [hcn, ctrlCn]; omega)
    · rw [show u.arbSync.cq _ = u.cq _ from rfl, hcq _ (leAt_two_lt _ _), State.cq_setCq]
      exact ⟨rfl, rfl, rfl⟩
  · intro s pf henabled hsafe hidle
    exact ⟨_, congrArg Host.Outcome.next (if_neg (by simp [hsafe])), cringDisable_disables henabled hidle⟩
  · intro s pf henabled hsafe
    exact ⟨_, congrArg Host.Outcome.next (if_neg (by simp [hsafe])), ccqDisable_disables henabled⟩

end Sys2Proof.Machine
end

section
open Sys2Proof Sys2Proof.Machine
namespace Sys2Proof.Machine

variable {s t u : State}

/-! ## What completing, aborting and raising interrupts keep of the rings (R185, R188, R189) -/

/-- No ring is written or read: W and K of each stay, a FAILED ring stays FAILED, no queue changes its state, and what has left the
device stays in the record. -/
structure State.RingsKept (s t : State) : Prop where
  place : ∀ n, (t.cq n).w = (s.cq n).w ∧ (t.cq n).k = (s.cq n).k
  failed : ∀ n, (s.cq n).state = .failed → (t.cq n).state = .failed
  queue : ∀ n, (t.queue n).state = (s.queue n).state
  out : s.out <:+ t.out

namespace State.RingsKept

theorem refl (s : State) : s.RingsKept s := ⟨fun _ => ⟨rfl, rfl⟩, fun _ => id, fun _ => rfl, List.suffix_refl _⟩

theorem trans (h : s.RingsKept t) (h' : t.RingsKept u) : s.RingsKept u where
  place n := ⟨(h'.place n).1.trans (h.place n).1, (h'.place n).2.trans (h.place n).2⟩
  failed n hn := h'.failed n (h.failed n hn)
  queue n := (h'.queue n).trans (h.queue n)
  out := h.out.trans h'.out

theorem of_rings (h : t.rings = s.rings) (hout : s.out <:+ t.out) : s.RingsKept t where
  place n := by rw [State.cq_of_rings h]; exact ⟨rfl, rfl⟩
  failed n hn := by rwa [State.cq_of_rings h]
  queue n := by rw [State.queue_of_rings h]
  out := hout

theorem foldl {β : Type} {f : State → β → State} (hf : ∀ (s : State) (x : β), s.RingsKept (f s x)) (l : List β) (s : State) :
    s.RingsKept (l.foldl f s) := by
  induction l generalizing s with
  | nil => exact refl s
  | cons x l ih => exact (hf s x).trans (ih _)

/-- One ring and no queue changes. -/
theorem of_cq {cn : Nat} (hw : (t.cq cn).w = (s.cq cn).w) (hk : (t.cq cn).k = (s.cq cn).k)
    (hfailed : (s.cq cn).state = .failed → (t.cq cn).state = .failed) (hcq : ∀ n, n ≠ cn → t.cq n = s.cq n)
    (hqueue : ∀ n, t.queue n = s.queue n) (hout : s.out <:+ t.out) : s.RingsKept t where
  place n := by
    by_cases h : n = cn
    · subst h; exact ⟨hw, hk⟩
    · rw [hcq n h]; exact ⟨rfl, rfl⟩
  failed n := by
    by_cases h : n = cn
    · subst h; exact hfailed
    · rw [hcq n h]; exact id
  queue n := by rw [hqueue]
  out := hout

end State.RingsKept

/-- A queue changes, but not its state. -/
theorem State.setQueue_ringsKept {qn : Nat} {q : Queue} (h : q.state = (s.queue qn).state) : s.RingsKept (s.setQueue qn q) where
  place _ := ⟨rfl, rfl⟩
  failed _ := id
  queue n := by
    by_cases hn : n = qn
    · rw [hn, State.queue_setQueue, h]
    · rw [State.queue_setQueue_ne _ _ _ _ hn]
  out := List.suffix_refl _

/-- A completion taken moves no index of the ring, and does not bring it back from FAILED. -/
theorem Cq.Took.kept {x y : Cq} {c : Completion} {v : Word} (h : x.Took c v y) :
    y.w = x.w ∧ y.k = x.k ∧ (x.state = .failed → y.state = .failed) := by
  cases h with
  | direct => exact ⟨rfl, rfl, id⟩
  | held hst =>
    refine ⟨rfl, rfl, fun hfailed => ?_⟩
    obtain rfl | ⟨hready, -⟩ := hst
    · exact hfailed
    · rw [hfailed] at hready; cases hready

theorem State.commitCqe_ringsKept (s : State) (cn : Nat) (c : Completion) : s.RingsKept (s.commitCqe cn c).2 := by
  obtain ⟨hw, hk, hfailed⟩ := (s.commitCqe_took cn c).kept
  exact .of_cq hw hk hfailed (fun n hn => s.commitCqe_cq_ne c hn) (fun n => s.commitCqe_queue cn n c) (s.commitCqe_out cn c)

theorem State.runOver_ringsKept (s : State) (qn serial st : Nat) : s.RingsKept (s.runOver qn serial st) :=
  .of_rings (by simp) (by simp)
theorem State.abortWork_ringsKept (s : State) (qn serial : Nat) : s.RingsKept (s.abortWork qn serial) :=
  .of_rings (by simp) (by simp)
theorem State.recvCancel_ringsKept (s : State) (qn : Nat) (e : OutEntry) : s.RingsKept (s.recvCancel qn e) :=
  .of_rings (by simp) (by simp)

theorem State.workDone_ringsKept (s : State) (qn serial : Nat) (d : WorkDone) : s.RingsKept (s.workDone qn serial d) := by
  unfold State.workDone
  dsimp only
  split
  · exact .refl s
  · refine .trans (.trans (State.setQueue_ringsKept (qn := qn) ?_) (State.runOver_ringsKept _ _ _ _)) (State.commitCqe_ringsKept _ _ _)
    rfl

theorem State.abortEntry_ringsKept (s : State) (qn serial : Nat) : s.RingsKept (s.abortEntry qn serial) := by
  unfold State.abortEntry
  split
  · exact .refl s
  · next e _ =>
    exact ((s.recvCancel_ringsKept qn e).trans (State.workDone_ringsKept _ _ _ _)).trans (State.abortWork_ringsKept _ _ _)

theorem State.abortPass_ringsKept (s : State) (qn : Nat) : s.RingsKept (s.abortPass qn) := by
  refine State.RingsKept.foldl (fun s n => ?_) _ s
  split
  · exact s.abortEntry_ringsKept qn n
  · exact .refl s

theorem State.resumeAborts_ringsKept (s : State) : s.RingsKept s.resumeAborts :=
  State.RingsKept.foldl (fun s qn => s.abortPass_ringsKept qn) _ s

theorem State.checkFull_ringsKept (s : State) (cn : Nat) : s.RingsKept (s.checkFull cn) := by
  have hne (n : Nat) (hn : n ≠ cn) : (s.checkFull cn).cq n = s.cq n := (s.checkFull_cq cn n).resolve_right fun h => hn h.1
  obtain h | ⟨-, hready, h⟩ := s.checkFull_cq cn cn
  · exact .of_cq (by rw [h]) (by rw [h]) (by rw [h]; exact id) hne (fun n => by simp) (s.checkFull_out cn)
  · exact .of_cq (by rw [h]) (by rw [h]) (fun hf => by rw [hready] at hf; cases hf) hne (fun n => by simp) (s.checkFull_out cn)

theorem State.irqCheck_ringsKept (s : State) (cn : Nat) : s.RingsKept (s.irqCheck cn) := by
  obtain ⟨p, v, m, h⟩ := s.irqCheck_cq cn
  exact .of_cq (by rw [h]) (by rw [h]) (by rw [h]; exact id) (fun n hn => s.irqCheck_cq_ne hn) (fun n => by simp) (s.irqCheck_out cn)

theorem State.checkResumed_ringsKept (s : State) (cn : Nat) : s.RingsKept (s.checkResumed cn) := by
  unfold State.checkResumed
  dsimp only
  split
  · next hfull =>
    obtain ⟨hstate, -⟩ : (s.cq cn).state = .full ∧ _ := by simpa using hfull
    exact .of_cq (cn := cn) (by simp) (by simp) (fun hf => by rw [hstate] at hf; cases hf) (fun n hn => by simp [hn]) (fun n => by simp)
      (by simp)
  · exact .refl s

/-! ## A completion is written (R160, R162) -/

theorem State.whenAwake_of_awake {f : Nat} (h : s.linkAwake f = true) (k : State → State) : s.whenAwake f k = k (s.traffic f) :=
  if_pos h

theorem State.hostWrite_out (s : State) (f addr : Nat) (data : List Byte) :
    (s.hostWrite f addr data).out = .hostWrite f addr data :: s.out := by
  simp [State.hostWrite, State.emit]

/-- What leaves the device when byte 0 of the work entry of a completion, if it has one, is cleared. -/
def Completion.clears (c : Completion) (f : Nat) (out : List Emit) : List Emit :=
  match c.work with
  | some (_, a) => .hostWrite f a [0] :: out
  | none => out

/-- The completion of a ring that is written next. -/
def Cq.writesNext (x : Cq) (c : Completion) : Prop := ∃ ds, x.direct = c :: ds ∨ x.direct = [] ∧ x.held = c :: ds

/-- CQ_WRITE: byte 0 of the entry is cleared, the completion is written at W, and W and K move on; what follows from it writes no
completion. -/
theorem cqWrite_writes {cn : Nat} {x : Cq} {c : Completion} (hx : x = s.cq cn) (hused : x.state ≠ .unused) (hk : 0 < x.k)
    (hmay : s.cqMay x = true) (hawake : s.linkAwake x.func = true) (hnext : x.writesNext c) :
    ∃ t : State, (t.cq cn).w = (x.w + 1) % 2 ^ x.log2 ∧ (t.cq cn).k = x.k - 1 ∧
      t.out = .hostWrite x.func (x.base + x.w * 32) c.raw :: c.clears x.func s.out ∧ t.RingsKept (cqWrite cn s) := by
  subst hx
  unfold cqWrite
  dsimp only
  rw [if_neg (by simp [hused, hmay, Nat.pos_iff_ne_zero.mp hk])]
  have hkept (t : State) (src inst : Nat) (v : Word) :
      t.RingsKept ((((t.histTime src inst v).irqCheck cn).checkResumed cn).checkFull cn).resumeAborts :=
    ((((State.RingsKept.of_rings (by simp) (by simp)).trans (State.irqCheck_ringsKept _ cn)).trans
      (State.checkResumed_ringsKept _ cn)).trans (State.checkFull_ringsKept _ cn)).trans (State.resumeAborts_ringsKept _)
  obtain ⟨ds, hds | ⟨hds, hheld⟩⟩ := hnext
  on_goal 1 => simp only [hds]
  on_goal 2 => simp only [hds, hheld]
  all_goals
    rw [State.whenAwake_of_awake hawake]
    refine ⟨_, ?_, ?_, ?_, hkept _ _ _ _⟩
    · rw [State.cq_setCq]
    · rw [State.cq_setCq]
    · rw [State.setCq_out, State.hostWrite_out, Completion.clears]
      cases c.work <;> simp [State.hostWrite_out]

/-! ## Ownership reads (R161, R189) -/

@[simp] theorem State.cq_hostRead (s : State) (tag f addr len n : Nat) : (s.hostRead tag f addr len).cq n = s.cq n :=
  State.cq_of_rings (by simp) n

/-- The ownership read of a ring on a link that is awake. -/
theorem State.ownRead_reads {cn : Nat} {x : Cq} (hx : x = s.cq cn) (hawake : s.linkAwake x.func = true) :
    (s.ownRead cn).cq cn = { x with reading := true, pollAt := none } ∧
    (s.ownRead cn).out = .hostRead 0 x.func (x.base + (x.w + x.k) % 2 ^ x.log2 / 16 * 512) 512 :: s.out ∧
    s.keeps (s.ownRead cn) [.ram, .fifos, .ops, .net, .mtch, .threads, .dev] := by
  subst hx
  rw [State.ownRead, State.whenAwake_of_awake hawake]
  refine ⟨?_, ?_, ?_⟩
  · simp
  · simp [State.hostRead, State.emit]
  · simp -implicitDefEqProofs [State.keeps, State.same]

theorem cqOwnRead_due {cn : Nat} (hdue : s.ownReadDue (s.cq cn) = true) (hpoll : (s.cq cn).pollAt = none) :
    cqOwnRead cn s = s.ownRead cn := by
  simp [cqOwnRead, hdue, hpoll]

theorem cqPoll_due {cn : Nat} {v : Word} (hdue : s.ownReadDue (s.cq cn) = true) (hpoll : (s.cq cn).pollAt = some v) :
    cqPoll cn s = s.ownRead cn := by
  simp [cqPoll, hdue, hpoll]

/-- A read that finds entries adds them to K. -/
theorem cqOwnReadDone_adds {cn n : Nat} {x : Cq} (hx : x = s.cq cn) (hused : x.state ≠ .unused) (hreading : x.reading = true)
    (hhalt : s.adapterHalted = false) (hpos : 0 < n) (hblock : n ≤ 16 - (x.w + x.k) % 2 ^ x.log2 % 16) (hfit : x.k + n ≤ 2 ^ x.log2) :
    cqOwnReadDone cn 0 n s = s.setCq cn { x with
      reading := false, emptyRead := false, pollAt := none, k := x.k + n
      stallFrom := if x.state = .full then s.loc else x.stallFrom } := by
  subst hx
  have hgot : min n (min (16 - ((s.cq cn).w + (s.cq cn).k) % 2 ^ (s.cq cn).log2 % 16) (2 ^ (s.cq cn).log2 - (s.cq cn).k)) = n := by omega
  simp [cqOwnReadDone, hused, hreading, hhalt, hgot, Nat.pos_iff_ne_zero.mp hpos, State.hostErr]

theorem cqOwnReadDone_none {cn : Nat} (hused : (s.cq cn).state ≠ .unused) (hreading : (s.cq cn).reading = true)
    (hhalt : s.adapterHalted = false) :
    cqOwnReadDone cn 0 0 s = (s.setCq cn { s.cq cn with
      reading := false, emptyRead := true, pollAt := some (s.locIn ((s.rd R.RING_CQ_POLL).toNat * 4)) }).checkFull cn := by
  simp [cqOwnReadDone, hused, hreading, hhalt, State.hostErr]

/-- A READY ring that holds a completion and found OWN = 0 at W enters FULL. -/
theorem State.checkFull_fills {cn : Nat} (hready : (s.cq cn).state = .ready) (hheld : (s.cq cn).held ≠ []) (hk : (s.cq cn).k = 0)
    (hempty : (s.cq cn).emptyRead = true) (hmay : s.cqMay (s.cq cn) = true) :
    (s.checkFull cn).cq cn = { s.cq cn with state := .full, stallFrom := s.loc } := by
  unfold State.checkFull
  dsimp only
  rw [if_pos (by simp [hready, hheld, hk, hempty, hmay])]
  simp

/-- A read that finds no entry for a ring with K = 0 that holds completions finds it full. -/
theorem cqOwnReadDone_fills {cn : Nat} {x : Cq} (hx : x = s.cq cn) (hready : x.state = .ready) (hreading : x.reading = true)
    (hhalt : s.adapterHalted = false) (hk : x.k = 0) (hheld : x.held ≠ []) (hmaster : s.canMaster x.func = true) :
    ((cqOwnReadDone cn 0 0 s).cq cn).state = .full ∧ ((cqOwnReadDone cn 0 0 s).cq cn).stallFrom = s.loc ∧
      ((cqOwnReadDone cn 0 0 s).cq cn).held = x.held ∧ ((cqOwnReadDone cn 0 0 s).cq cn).reading = false := by
  subst hx
  rw [cqOwnReadDone_none (by simp [hready]) hreading hhalt, State.checkFull_fills]
  · simp [State.loc]
  all_goals simp [hready, hheld, hk]
  show (s.canMaster (s.cq cn).func && !s.adapterHalted) = true
  simp [hmaster, hhalt]

/-! ## A full ring that waited too long (R189) -/

theorem State.dropReads_ringsKept (s : State) (qn : Nat) : s.RingsKept (s.dropReads qn) := by
  refine .trans (State.setQueue_ringsKept (qn := qn) (q := { s.queue qn with reading := [] }) rfl) (.foldl (fun s r => ?_) _ _)
  split
  · exact .refl s
  · exact .of_rings (by simp) (by simp)

/-- A READY queue enters ERROR; any other stays as it is. -/
theorem State.queueError_state (s : State) (qn cause n : Nat) : ((s.queueError qn cause).queue n).state =
    if n = qn ∧ (s.queue n).state = .ready then .error else (s.queue n).state := by
  unfold State.queueError
  split
  · next h =>
    rw [if_neg]
    rintro ⟨rfl, hready⟩
    simp [hready] at h
  · next h =>
    dsimp only
    rw [State.queue_ringEvent, (State.abortPass_ringsKept _ _).queue]
    by_cases hn : n = qn
    · subst hn
      have hready : (s.queue n).state = .ready := by simpa using h
      simp [hready]
    · rw [State.queue_setQueue_ne _ _ _ _ hn, (s.dropReads_ringsKept qn).queue, if_neg fun h => hn h.1]

theorem State.queueError_failed (s : State) (qn cause n : Nat) (h : (s.cq n).state = .failed) :
    ((s.queueError qn cause).cq n).state = .failed := by
  unfold State.queueError
  split
  · exact h
  · dsimp only
    rw [State.cq_ringEvent]
    exact (State.abortPass_ringsKept _ _).failed n ((s.dropReads_ringsKept qn).failed n h)

/-- Every READY queue of a list is in ERROR once each has been put there. -/
theorem State.foldl_queueError_state (cause n : Nat) (l : List Nat) (s : State)
    (h : (s.queue n).state = .error ∨ (s.queue n).state = .ready ∧ n ∈ l) :
    ((l.foldl (fun s qn => s.queueError qn cause) s).queue n).state = .error := by
  induction l generalizing s with
  | nil => simpa using h
  | cons qn l ih =>
    refine ih _ ?_
    rw [State.queueError_state]
    obtain h | ⟨hready, hmem⟩ := h
    · rw [if_neg (by simp [h])]
      exact .inl h
    · obtain rfl | hmem := List.mem_cons.mp hmem
      · exact .inl (if_pos ⟨rfl, hready⟩)
      · split
        · exact .inl rfl
        · exact .inr ⟨hready, hmem⟩

theorem State.foldl_queueError_failed (cause n : Nat) (l : List Nat) (s : State) (h : (s.cq n).state = .failed) :
    ((l.foldl (fun s qn => s.queueError qn cause) s).cq n).state = .failed := by
  induction l generalizing s with
  | nil => exact h
  | cons qn l ih => exact ih _ (s.queueError_failed qn cause n h)

/-- A queue in use is among those of its ring. -/
theorem State.mem_queuesOfCq {n cn : Nat} (h : (s.queue n).state = .ready) (hcn : (s.queue n).cn = cn) : n ∈ s.queuesOfCq cn := by
  have hmem : (n, s.queue n) ∈ s.rings.queues := SMap.mem_of_get_ne fun hd => by
    rw [State.queue, hd] at h; cases h
  exact List.mem_map.mpr ⟨_, List.mem_filter.mpr ⟨hmem, by simp [h, hcn]⟩, rfl⟩

theorem ringStallTimeout_fails {cn : Nat} (hcn : cn < 65536) (hfull : (s.cq cn).state = .full)
    (hlate : (s.rd R.RING_STALL_TIMEOUT).toNat * 1000 * ticksPerUs ≤ s.locSince (s.cq cn).stallFrom) :
    ((ringStallTimeout cn s).cq cn).state = .failed ∧
      ∀ qn, (s.queue qn).state = .ready → (s.queue qn).cn = cn → ((ringStallTimeout cn s).queue qn).state = .error := by
  unfold ringStallTimeout
  dsimp only
  rw [if_pos (by simp [hcn, hfull, hlate])]
  refine ⟨?_, fun qn hready hring => ?_⟩
  · rw [State.cq_report, State.cq_ringEvent]
    exact State.foldl_queueError_failed _ _ _ _ (by rw [State.cq_setCq])
  · rw [State.queue_report, State.queue_ringEvent]
    exact State.foldl_queueError_state _ _ _ _ (.inr ⟨hready, State.mem_queuesOfCq hready hring⟩)

/-! ## Moderation and MSI-X (R173, R174) -/

theorem modTimer_due {cn : Nat} {v : Word} (hused : (s.cq cn).state ≠ .unused) (hen : (s.cq cn).irqEn = true) (hmod : (s.cq cn).modTime ≠ 0)
    (htimer : (s.cq cn).timer = some v) (hlate : (s.cq cn).modTime * ticksPerUs ≤ s.locSince v) :
    modTimer cn s =
      (s.setCq cn { s.cq cn with pend := 0, timer := none, nowMet := false }).raiseIrq (s.cq cn).func (s.cq cn).vector := by
  rw [modTimer, if_neg (by simpa using hused), State.irqCheck_due hen (by simp [State.irqDue, hmod, htimer, hlate])]

@[simp] theorem State.func_pmuAtt (s : State) (a ev v f : Nat) : (s.pmuAtt a ev v).func f = s.func f := by
  simp only [State.func, State.pmuAtt_frame]

/-- MSIX_SEND of a held vector that nothing masks or stops. -/
theorem msixSend_sends {f v addr data : Nat} (hheld : NSet.mem (s.func f).held v = true) (hen : (s.func f).msixEn = true)
    (hmask : (s.func f).fmask = false) (hentry : (s.func f).msix.get msixInit v = (addr, data, false)) (hmaster : s.canMaster f = true)
    (hhalt : s.adapterHalted = false) (hawake : s.linkAwake f = true) :
    (msixSend f v s).out = .msix f v addr data :: s.out ∧ NSet.mem ((msixSend f v s).func f).held v = false ∧
      (msixSend f v s).rings = s.rings ∧ (msixSend f v s).dev = s.dev := by
  have hsend : msixSend f v s = (((s.traffic f).setFunc f { (s.traffic f).func f with held := NSet.del (s.func f).held v }).emit
      (.msix f v addr data)).pmuAtt ((s.traffic f).pfOf f) 0x307 := by
    unfold msixSend
    simp only [hentry]
    rw [if_pos (by simp [hheld, hen, hmask, hmaster, hhalt]), State.whenAwake_of_awake hawake]
  rw [hsend]
  refine ⟨?_, ?_, ?_, ?_⟩
  · simp [State.emit]
  · simp
  · simp
  · simp

theorem State.settleEntry_idle (h : s.dev.entering = none) : s.settleEntry = s := by
  simp [State.settleEntry, h]

/-- Settles O35: each event acts when its trigger holds, by the rule of its operation; what else a completion written or a ring that
failed brings about keeps W, K, FAILED and the record. -/
theorem completionRings : Obligations.CompletionRings := by
  unfold Obligations.CompletionRings
  refine ⟨?_, ?_, ?_, ?_, ?_, ?_, ?_⟩
  · intro s cn x c ds hx hentering hused hk hmay hawake hnext
    have hhalt : s.adapterHalted = false := by simpa using (Bool.and_eq_true_iff.mp hmay).2
    obtain ⟨t, hw, htk, hout, hkept⟩ := cqWrite_writes (s := s.arbSync) hx hused hk hmay hawake ⟨ds, hnext⟩
    have hdev : ((cqWrite cn s.arbSync).arbSync).dev = s.dev :=
      State.arbSync_spares (asp := some .dev) (by simp [Aspect.off]) (cqWrite_spares (asp := some .dev) (by simp [Aspect.off])
        (State.arbSync_spares (asp := some .dev) (by simp [Aspect.off]) (.refl s)) cn)
    obtain ⟨l, hl⟩ := hkept.out
    refine ⟨_, l, congrArg Host.Outcome.next ((congrArg State.settleEntry (State.synced_eq (State.inSafe_of_not_halted hhalt) _)).trans
      (State.settleEntry_idle (by rw [hdev, hentering]))), ?_, ?_, ?_⟩
    · exact ((hkept.place cn).1.trans hw)
    · exact ((hkept.place cn).2.trans htk)
    · rw [hout] at hl
      exact hl.symm
  · rintro s cn x c hx hcase hused hk hreading hmay hawake
    have hsafe := State.inSafe_of_not_halted (s := s) (by simpa using (Bool.and_eq_true_iff.mp hmay).2)
    have hlive (f : State → State) : s.live f = f s := if_neg (by simp [hsafe])
    subst hx
    obtain ⟨rfl, hpoll⟩ | ⟨v, rfl, hpoll, hreached⟩ := hcase
    · have hdue : s.ownReadDue (s.cq cn) = true := by simp [State.ownReadDue, hused, hk, hreading, hmay, hpoll]
      exact ⟨_, congrArg Host.Outcome.next ((hlive _).trans (cqOwnRead_due hdue hpoll)), State.ownRead_reads rfl hawake⟩
    · have hdue : s.ownReadDue (s.cq cn) = true := by simp [State.ownReadDue, hused, hk, hreading, hmay, hpoll, hreached]
      exact ⟨_, congrArg Host.Outcome.next ((hlive _).trans (cqPoll_due hdue hpoll)), State.ownRead_reads rfl hawake⟩
  · intro s cn n x hx hused hreading hhalt hpos hblock hfit
    refine ⟨_, congrArg Host.Outcome.next ((State.synced_eq (State.inSafe_of_not_halted hhalt) _).trans (congrArg State.arbSync
      (cqOwnReadDone_adds (s := s.arbSync) hx hused hreading hhalt hpos hblock hfit))), ?_, ?_⟩
    · exact State.cq_setCq _ _ _
    · intro p hp
      have hoff : Aspect.outside (some p) [.rings] := ⟨fun h => by cases h; simp at hp, trivial⟩
      exact State.arbSync_spares hoff (State.setCq_spares hoff (State.arbSync_spares hoff (.refl s)) _ _)
  · intro s cn x hx hready hreading hhalt hk hheld hmaster
    exact ⟨_, congrArg Host.Outcome.next (State.synced_eq (State.inSafe_of_not_halted hhalt) _),
      cqOwnReadDone_fills (s := s.arbSync) hx hready hreading hhalt hk hheld hmaster⟩
  · intro s cn x hx hsafe hcn hfull hlate
    subst hx
    refine ⟨_, congrArg Host.Outcome.next (State.synced_eq hsafe _), ?_⟩
    obtain ⟨hfailed, herror⟩ := ringStallTimeout_fails (s := s.arbSync) hcn hfull hlate
    refine ⟨hfailed, fun qn hready hring => ?_⟩
    obtain ⟨b, g, w, a, hq⟩ := s.arbSync_queue (n := qn) (.inl (by rw [hready]; decide))
    have hend := herror qn (by rw [hq]; exact hready) (by rw [hq]; exact hring)
    obtain ⟨b', g', w', a', hq'⟩ := State.arbSync_queue (s := ringStallTimeout cn s.arbSync) (n := qn) (.inl (by rw [hend]; decide))
    rw [hq']
    exact hend
  · intro s cn x v hx hsafe hused hen hmod htimer hlate
    subst hx
    refine ⟨_, congrArg Host.Outcome.next ((if_neg (by simp [hsafe])).trans (modTimer_due hused hen hmod htimer hlate)), ?_, ?_⟩
    · simp
    · exact State.raiseIrq_held _ _ _
  · intro s f v addr data hheld hen hmask hentry hmaster hhalt hawake hentering
    obtain ⟨hout, hdel, hrings, hdev⟩ := msixSend_sends hheld hen hmask hentry hmaster hhalt hawake
    exact ⟨_, congrArg Host.Outcome.next (State.settleEntry_idle (by rw [hdev, hentering])), hout, hdel, hrings⟩

end Sys2Proof.Machine
end

section
open Sys2Proof Sys2Proof.Machine
namespace Sys2Proof.Machine

/-! ### A read that finds OWN = 0, in a queue that the map lists twice (R159, R183) -/

/-- A queue that is absent but for an ARB that waits and a read in flight. -/
def readWithArb : Queue :=
  { Queue.init with newArb := some (1, 0, 1), reading := [⟨0, 0, 0, 0, 0, true, false, none⟩] }

/-- Queue 9 is listed twice: as it reads, and behind that with the tail 5. It stands in the list of a group, so that its ARB waits. -/
def shadowedRead : State :=
  { State.reset with rings := { State.reset.rings with
      queues := [(9, readWithArb), (9, { Queue.init with tail := 5 })], groupList := [(0, [9])] } }

/-- The read ends with OWN = 0 while the ARB still waits. The arbiter's update before it has taken the queue, which is not READY, out of
the group. -/
theorem workEntryRead_shadowedRead :
    (workEntryRead 9 0 (zeroBytes 64) shadowedRead.arbSync).rings.queues =
      [(9, { readWithArb with reading := [] }), (9, { Queue.init with tail := 5 })] ∧
    (workEntryRead 9 0 (zeroBytes 64) shadowedRead.arbSync).rings.groupList = [] := by decide +kernel

/-- Without groups in arbitration every ARB that waits takes effect. -/
theorem State.arbSync_queues_of_no_groups {s : State} (h : s.rings.groupList = []) :
    s.arbSync.rings.queues = SMap.mapVals Queue.init (fun _ q => q.takeArb) s.rings.queues := by
  unfold State.arbSync
  dsimp only
  congr 1
  funext n q
  rw [h, Queue.takeArb]
  cases q.newArb <;> rfl

/-- The ARB takes effect in the arbiter's update after the read and makes the first entry the default. It is dropped, and queue 9 then
reads as the second. -/
theorem synced_shadowedRead_tail :
    ((shadowedRead.synced (workEntryRead 9 0 (zeroBytes 64))).queue 9).tail = 5 := by
  obtain ⟨hqueues, hgroups⟩ := workEntryRead_shadowedRead
  rw [State.synced_eq (by decide +kernel), State.queue, State.arbSync_queues_of_no_groups hgroups, hqueues]
  decide

/-- Refutes O34: the clause of an entry that is not owned says of every state that the tail then is the fetch index. `synced` brings the
arbiter up to date after the read, lets an ARB that waits take effect and lists the queues anew without those that hold the default.
Where the map of queues is not in canonical form, the queue that the read leaves may become the default with its ARB and stand before
another entry of its number, whose tail is then read. The clause has no premise on the form of the map. -/
theorem not_ringService : ¬ Obligations.RingService := by
  unfold Obligations.RingService
  rintro ⟨-, -, hstop, -⟩
  obtain ⟨u, hu, -, htail, -⟩ := hstop shadowedRead 9 (zeroBytes 64) readWithArb ⟨0, 0, 0, 0, 0, true, false, none⟩ [] rfl rfl
    (by decide +kernel) rfl rfl (by decide) (by decide)
  rw [← show shadowedRead.synced (workEntryRead 9 0 (zeroBytes 64)) = u from Host.Outcome.next.inj hu,
    synced_shadowedRead_tail] at htail
  exact absurd htail (by decide)

end Sys2Proof.Machine
end

section
open Sys2Proof Sys2Proof.Machine
namespace Sys2Proof.Machine

/-! ### The answer of an atomic on a map of operations that is not in canonical form (R113) -/

/-- The answer of an atomic, which cluster 0 holds by reference 0. -/
def amoAnswerRef : PktRef := ⟨{ Packet.zero with op := opAmoResp }, 0, 0, false, false, false, none, none, false⟩

/-- Slot 0 is listed twice: as an operation that has ended with ABORTED, which is how it reads, and behind that as an open atomic on
half 0. Cluster 0 holds the answer of the atomic. -/
def shadowedAtomic : State :=
  { (State.reset.setHalf 0 { Half.init with state := .established }).setPktRef 0 0 (some amoAnswerRef) with
    ops := [(0, { Op.free with status := some 1 }), (0, { Op.free with kind := kAmo, conn := some 0, status := none })] }

/-- The open atomic is found in the list, but what is written for the answer is the operation that has ended. -/
theorem amoResp_shadowedAtomic_status : ((amoResp 0 0 shadowedAtomic).op 0).status = some 1 := by decide +kernel

/-- Refutes O28: the answer of an atomic goes to the slot of an open operation that is found by searching the list of operations, and
the operation is then read at that slot. Where the map is not in canonical form and an operation that has ended stands before the open
one of the same slot, the answer ends nothing, and the status stays as it was. The clause of amoResp has no premise on the form of the
map, nor that the operation read at the slot is open. -/
theorem not_packetsAtTheTarget : ¬ Obligations.PacketsAtTheTarget := by
  unfold Obligations.PacketsAtTheTarget
  rintro ⟨-, -, -, -, -, -, hanswer, -⟩
  obtain ⟨u, hu, hended, -⟩ := hanswer shadowedAtomic 0 0 0 0 0 amoAnswerRef (by unfold State.holds; decide +kernel) rfl rfl
    (by decide +kernel) (by decide +kernel) rfl
  rw [← show amoResp 0 0 shadowedAtomic = u from Host.Outcome.next.inj hu, amoResp_shadowedAtomic_status] at hended
  exact absurd hended (by decide)

end Sys2Proof.Machine
end

section
open Sys2Proof Sys2Proof.Machine
namespace Sys2Proof

/-! ### Fields of bytes that were put together -/

/-- A field behind the first bytes is found in the rest. -/
theorem leAt_leBytes_append_add (m v : Nat) (bs : List Byte) (i n : Nat) : leAt (leBytes m v ++ bs) (m + i) n = leAt bs i n := by
  have hdrop : (leBytes m v ++ bs).drop (m + i) = bs.drop i := by
    rw [← List.drop_drop, List.drop_left' (length_leBytes m v)]
  rw [leAt, leAt, byteSlice, byteSlice, hdrop]

/-- The first field. -/
theorem leAt_leBytes_append (n v : Nat) (bs : List Byte) : leAt (leBytes n v ++ bs) 0 n = v % 256 ^ n := by
  have htake := List.take_left' (l₂ := bs) (length_leBytes n v)
  rw [leAt, byteSlice, List.drop_zero, htake, length_leBytes]
  simp [zeroBytes, leNat_leBytes]

theorem leNat_zeroBytes (n : Nat) : leNat (zeroBytes n) = 0 := by
  induction n with
  | zero => rfl
  | succ n ih => rw [zeroBytes, List.replicate_succ, leNat, ← zeroBytes, ih]; rfl

theorem leAt_zeroBytes (m i n : Nat) : leAt (zeroBytes m) i n = 0 := by
  rw [leAt, byteSlice, zeroBytes, List.drop_replicate, List.take_replicate, zeroBytes, List.replicate_append_replicate]
  exact leNat_zeroBytes _

end Sys2Proof
namespace Sys2Proof.Machine

variable {s t u : State}

/-! ### Keys and ASK table entries (R204, Table 10-1) -/

theorem keyGen_keyOf {gen ask : Nat} (hgen : gen < 4096) (hask : ask < 2 ^ 20) : keyGen (keyOf gen ask) = gen := by
  unfold keyGen keyOf nbits; omega

theorem keyAsk_keyOf {gen ask : Nat} (hask : ask < 2 ^ 20) : keyAsk (keyOf gen ask) = ask := by
  unfold keyAsk keyOf; omega

section
variable (root gen iso func rights levels state quiet : Nat)

theorem length_askEntry : (askEntry root gen iso func rights levels state quiet).length = 32 := by
  simp [askEntry, length_leBytes, zeroBytes]

variable {root gen iso levels state}

theorem askRoot_askEntry (halign : root % 4096 = 0) (hroot : root < 2 ^ 52) :
    askRoot (askEntry root gen iso func rights levels state quiet) = root := by
  simp only [askRoot, askEntry, List.append_assoc]
  rw [leAt_leBytes_append]
  unfold nbits; omega

theorem askGen_askEntry (hgen : gen < 4096) : askGen (askEntry root gen iso func rights levels state quiet) = gen := by
  simp only [askGen, askEntry, List.append_assoc]
  rw [leAt_leBytes_append_add (i := 0), leAt_leBytes_append]
  unfold nbits; omega

theorem askIso_askEntry (hiso : iso < 65536) : askIso (askEntry root gen iso func rights levels state quiet) = iso := by
  simp only [askIso, askEntry, List.append_assoc]
  rw [leAt_leBytes_append_add (i := 2), leAt_leBytes_append_add (i := 0), leAt_leBytes_append]
  omega

theorem askState_askEntry (hlevels : levels < 16) (hstate : state < 8) :
    askState (askEntry root gen iso func rights levels state quiet) = state := by
  simp only [askState, askEntry, List.append_assoc]
  rw [leAt_leBytes_append_add (i := 7), leAt_leBytes_append_add (i := 5), leAt_leBytes_append_add (i := 3),
    leAt_leBytes_append_add (i := 1), leAt_leBytes_append_add (i := 0), leAt_leBytes_append]
  unfold nbits; omega

end

/-- The generation that follows one of the table (R204). -/
theorem askGen_next_lt (b : List Byte) : (if askGen b ≥ 4095 then 1 else askGen b + 1) < 4096 := by split <;> omega

/-! ### The ASK table in memory (R240) -/

/-- Where an ASK's entry lies depends on XLT_ASK_BASE alone. -/
theorem State.askKey_of_rd (h : t.rd R.XLT_ASK_BASE = s.rd R.XLT_ASK_BASE) (ask : Nat) : t.askKey ask = s.askKey ask := by
  rw [State.askKey, State.askKey, State.fd, State.fd, show F.XLT_ASK_BASE_BASE.reg = R.XLT_ASK_BASE from rfl, h]

/-- The table lies in HBM. -/
theorem State.askKey_add_lt (s : State) (ask : Nat) : s.askKey ask + 32 < pewterKey 0 := by
  have hbase : s.fd F.XLT_ASK_BASE_BASE < 2 ^ 11 := Nat.mod_lt _ (by decide)
  unfold State.askKey hbmKey pewterKey
  omega

/-- An entry written is read back. -/
theorem State.askMem_mwrite (s : State) (ask : Nat) {b : List Byte} (h : b.length = 32) :
    (s.mwrite (s.askKey ask) b).askMem ask = b := by
  rw [State.askMem, State.askKey_of_rd (s := s) rfl, State.mread, ← h]
  exact Memory.readN_writeN_same _ _ _

/-- A broadcast goes to the list of those in progress or to the list of those that wait. -/
theorem State.startInval_eq (s : State) (scope ask va len : Nat) (op : Option Nat) (cmd : Option (Nat × Nat × Nat)) :
    ∃ is qs, s.startInval scope ask va len op cmd = { s with net := { s.net with invals := is, invalQueue := qs } } := by
  unfold State.startInval
  dsimp only
  split <;> exact ⟨_, _, rfl⟩

theorem State.startInval_length {scope ask va len : Nat} {op : Option Nat} {cmd : Option (Nat × Nat × Nat)} (h : s.net.invals.length < 16) :
    (s.startInval scope ask va len op cmd).net.invals.length = s.net.invals.length + 1 := by
  rw [State.startInval, if_pos h]
  exact List.length_append

theorem State.askMem_startInval (s : State) (scope ask va len : Nat) (op : Option Nat) (cmd : Option (Nat × Nat × Nat)) (a : Nat) :
    (s.startInval scope ask va len op cmd).askMem a = s.askMem a := by
  obtain ⟨is, qs, h⟩ := s.startInval_eq scope ask va len op cmd
  rw [h]; rfl

/-! ### Commands that complete later (R175) -/

theorem State.controls.ctrl_eq_later {pf idx op : Nat} {e : OutEntry} {body : List Byte → Nat → State → CtrlEnd × State}
    (h : s.controls pf idx op e) (hbody : body e.bytes e.serial (s.markStarted (ctrlQn pf) e.serial) = (none, t)) :
    s.ctrl pf idx op body = t := by
  have hsafe := h.not_safe
  obtain ⟨hhalt, hstart, hop, hrun, hpower, hroom, -⟩ := h
  unfold State.ctrl State.ctrlAny
  simp [hhalt, hstart, hop, hrun, hsafe, hroom, hbody, Nat.not_le.mpr hpower]

/-! ### ASK_CREATE -/

theorem askCreateBody_creates {pf serial : Nat} {b : List Byte} (hlevels : 3 ≤ leAt b 17 1) (hlevels' : leAt b 17 1 ≤ 5)
    (halign : leAt b 24 8 % 4096 = 0) (hroot : leAt b 24 8 < 2 ^ 52) (hname : s.mayName pf (leAt b 12 2) = true)
    (hfree : askState (s.askMem (leAt b 8 4)) = 0) :
    askCreateBody pf b serial s = (none, (s.mwrite (s.askKey (leAt b 8 4)) (askEntry (leAt b 24 8)
      (if askGen (s.askMem (leAt b 8 4)) ≥ 4095 then 1 else askGen (s.askMem (leAt b 8 4)) + 1) (leAt b 14 2) (leAt b 12 2)
      (leAt b 16 1) (leAt b 17 1) 1 0)).startInval 1 (leAt b 8 4) 0 0 none (some (pf, serial,
        keyOf (if askGen (s.askMem (leAt b 8 4)) ≥ 4095 then 1 else askGen (s.askMem (leAt b 8 4)) + 1) (leAt b 8 4)))) := by
  unfold askCreateBody
  dsimp only
  rw [if_neg (by simpa [Nat.not_lt.mpr hlevels, Nat.not_lt.mpr hlevels', halign] using hroot), if_neg (by simp [hname]),
    if_neg (by simp [hfree])]

/-! ### Device reset (Table 21-6) -/

/-- A map without the keys of one part reads the default there. -/
theorem SMap.get_filter_of_not {α : Type} {d : α} {p : Nat × α → Bool} {k : Nat} (h : ∀ v, p (k, v) = false) (m : SMap α) :
    SMap.get d (m.filter p) k = d := by
  induction m with
  | nil => rfl
  | cons e m ih =>
    obtain ⟨j, v⟩ := e
    rw [List.filter_cons]
    split
    · next hp =>
      have hne : k ≠ j := by rintro rfl; rw [h v] at hp; exact absurd hp (by decide)
      rw [SMap.get, if_neg hne]; exact ih
    · exact ih

/-- Memory that reads 0 from a key upward holds bytes of zero there. -/
theorem Memory.readN_eq_zeroBytes {m : Memory} {k n : Nat} (h : ∀ i < n, m.read (k + i) = 0) : m.readN k n = zeroBytes n := by
  induction n generalizing k with
  | zero => rfl
  | succ n ih =>
    rw [Memory.readN, show m.read k = 0 from h 0 (by omega), ih fun i hi => by rw [Nat.add_assoc, Nat.add_comm 1]; exact h (i + 1) (by omega)]
    rfl

theorem askState_zeroBytes (n : Nat) : askState (zeroBytes n) = 0 := by
  rw [askState, leAt_zeroBytes]; rfl

theorem askGen_zeroBytes (n : Nat) : askGen (zeroBytes n) = 0 := by
  rw [askGen, leAt_zeroBytes]; rfl

/-- After a device reset HBM and the memories of clusters and engines read 0. -/
theorem State.deviceReset_read (s : State) (kind : Nat) {a : Nat} (h : a < pewterKey 0) : (s.deviceReset kind).mem.read a = 0 := by
  obtain ⟨u, -, hmem⟩ := State.deviceReset_mem s kind
  rw [hmem]
  exact SMap.get_filter_of_not (fun _ => by simp [Nat.not_le.mpr h]) _

theorem State.deviceReset_askMem (s : State) (kind ask : Nat) : (s.deviceReset kind).askMem ask = zeroBytes 32 :=
  Memory.readN_eq_zeroBytes fun i hi => State.deviceReset_read _ _ (by have := (s.deviceReset kind).askKey_add_lt ask; omega)

theorem keyCheck_gen_zero (s : State) (c iso : Nat) {ask : Nat} (hask : ask < 2 ^ 20) : (s.keyCheck c (keyOf 0 ask) iso).1 = some 7 := by
  simp [State.keyCheck, keyGen_keyOf (gen := 0) (by decide) hask]

/-- Settles O60: the fields of an entry that was written are read back, and after a device reset the table reads 0 throughout. -/
theorem keyGenerations : Obligations.KeyGenerations := by
  unfold Obligations.KeyGenerations
  refine ⟨fun gen ask hgen hask => ⟨rfl, keyGen_keyOf hgen hask, keyAsk_keyOf hask⟩,
    fun s c iso ask hask => keyCheck_gen_zero s c iso hask, ?_, ?_⟩
  · rintro s pf idx _ e _ h rfl rfl hask hlevels hlevels' halign hroot hname hfree hinvals
    refine ⟨_, congrArg Host.Outcome.next (h.ctrl_eq_later (askCreateBody_creates (s := s.markStarted (ctrlQn pf) e.serial)
      hlevels hlevels' halign hroot hname hfree)), ?_⟩
    rw [State.askMem_startInval, State.askMem_mwrite _ _ (length_askEntry _ _ _ _ _ _ _ _)]
    exact ⟨askState_askEntry _ _ _ (by omega) (by decide), askGen_askEntry _ _ _ (askGen_next_lt _),
      askIso_askEntry _ _ _ (leAt_two_lt _ _), askRoot_askEntry _ _ _ halign hroot, State.startInval_length hinvals⟩
  · intro s ns hon hlong
    refine ⟨s.deviceReset 1, ?_, fun ask => ?_⟩
    · exact congrArg Host.Outcome.next (by simp [resetN, hon, Nat.not_le.mpr hlong, show ¬ ns < 1000 by omega])
    · rw [State.deviceReset_askMem]
      exact ⟨askGen_zeroBytes _, askState_zeroBytes _⟩

end Sys2Proof.Machine
end

section
open Sys2Proof Sys2Proof.Machine
namespace Sys2Proof.Machine

/-! ### A waiting ASK_REVOKE of a PF number that names no PF (R210, R431) -/

/-- The number at which HIF_VF_ALLOC, whose stride is 4, has the address of XLT_REVOKE_DRAIN_FT. -/
def strayPf : Nat := 4209540

/-- The ASK_REVOKE of an ASK waits for the drain of another. Its function, 396, is a VF of `strayPf` as long as XLT_REVOKE_DRAIN_FT
reads 0; the drain writes FT there, and with it a COUNT of no VFs. -/
def strayRevoke : State :=
  { State.reset.mwrite 0 (askEntry 0 1 0 396 0 3 1 0) with
    inv := { Invar.init with ft := 63 }
    net := { Net.init with revoking := some ⟨1, 0, none⟩, revokeQueue := [(strayPf, 0, 2 ^ 20)] } }

/-- The command is refused, so no revocation is in progress. -/
theorem revokeDrain_strayRevoke : (strayRevoke.live revokeDrain).net.revoking = none := by decide +kernel

/-- Refutes O59: the third clause ranges over every number in the place of a PF, also over those that name none of the 16. The
function that the number names is looked up in HIF_VF_ALLOC, and for such a number that is a register of another block. At the number
for which it is XLT_REVOKE_DRAIN_FT the drain itself, which writes FT there, takes the function away, and the waiting command is then
refused and starts nothing. -/
theorem not_oneRevocationAtATime : ¬ Obligations.OneRevocationAtATime := by
  unfold Obligations.OneRevocationAtATime
  rintro ⟨-, -, hdrain⟩
  obtain ⟨u, hu, hrevoking, -⟩ := hdrain strayRevoke ⟨1, 0, none⟩ strayPf 0 0 (2 ^ 20) [] (by decide +kernel) rfl rfl
    (by decide +kernel) (by decide +kernel) rfl rfl (by decide +kernel) (by decide +kernel) (by decide +kernel) (by decide +kernel)
  rw [← show strayRevoke.live revokeDrain = u from Host.Outcome.next.inj hu, revokeDrain_strayRevoke] at hrevoking
  exact absurd hrevoking (by decide)

end Sys2Proof.Machine
end

section
open Sys2Proof Sys2Proof.Machine
namespace Sys2Proof.Machine

variable {s t u : State}

/-! ### A completion changes no register of translation

The registers that a completion, or the event of a ring that fills, can change are counters of ring service, of the host interface, of
Tungsten and of FIFOs; those of FIFOs lie above the block of translation, the others below it. -/

/-- The registers of translation (R261, R218) are as they were. -/
def State.XltKept (s t : State) : Prop := ∀ a, 0x2000000 ≤ a → a < 0x2010000 → SMap.get 0 t.regs a = SMap.get 0 s.regs a

theorem State.XltKept.of_regs (h : t.regs = s.regs) : s.XltKept t := fun a _ _ => by rw [h]

theorem State.XltKept.trans (h : s.XltKept t) (h' : t.XltKept u) : s.XltKept u := fun a hlo hhi => (h' a hlo hhi).trans (h a hlo hhi)

theorem State.XltKept.rd (h : s.XltKept t) {r : RegDesc} (hlo : 0x2000000 ≤ r.addr []) (hhi : r.addr [] < 0x2010000) :
    t.rd r = s.rd r := by
  rw [State.rd, State.rd, h _ hlo hhi]

theorem State.wr_xltKept (s : State) {r : RegDesc} {ix : List Nat} (h : r.addr ix < 0x2000000 ∨ 0x2010000 ≤ r.addr ix) (v : Word) :
    s.XltKept (s.wr r ix v) := fun a hlo hhi => by
  rw [State.wr, SMap.get_set_ne]
  rintro rfl
  omega

theorem State.bump_xltKept (s : State) {r : RegDesc} {ix : List Nat} (h : r.addr ix < 0x2000000 ∨ 0x2010000 ≤ r.addr ix) (n : Nat) :
    s.XltKept (s.bump r ix n) := s.wr_xltKept h _

theorem State.wfFull_xltKept (s : State) (k : Nat) : s.XltKept (s.wfFull k) :=
  s.bump_xltKept (.inr (by simp [RegDesc.addr, R.WF_FULL_COUNT, wfIx]; omega)) _

theorem State.countEvent_xltKept (s : State) {e : Event} (hsrc : e.src < 65536) (hcls : classOf e.code < 3) :
    s.XltKept (s.countEvent e) :=
  (s.wr_xltKept (r := R.TGF_SRC_COUNT) (ix := [e.src]) (.inl (by simp [RegDesc.addr, R.TGF_SRC_COUNT]; omega)) _).trans
    (State.bump_xltKept _ (.inl (by simp [RegDesc.addr, R.TGF_CLASS_COUNT]; omega)) _)

theorem State.sendFaultEvent_xltKept (s : State) (body : List Byte) : s.XltKept (s.sendFaultEvent body) := by
  unfold State.sendFaultEvent
  extract_lets c hold
  have hhold (t : State) (ht : s.XltKept t) : s.XltKept (hold t) := by
    dsimp only [hold]
    split
    · exact ht
    · exact ht.trans (t.bump_xltKept (.inl (by decide)) _)
  split
  · exact hhold s (.of_regs rfl)
  · split
    · next t h =>
      split at h
      · have hregs : t.regs = s.regs := by simp only [State.wfStart_frame _ _ _ _ _ _ h]
        exact .of_regs hregs
      · cases h
    · exact hhold _ (s.wfFull_xltKept _)

/-- An event of a class that takes no reaction. -/
theorem State.present_xltKept (s : State) {e : Event} (hsrc : e.src < 65536) (hcls : classOf e.code < 3) : s.XltKept (s.present e) := by
  have hcount := s.countEvent_xltKept hsrc hcls
  have hlow : ¬ 3 ≤ classOf e.code := by omega
  have hafter (t : State) : t.XltKept (t.afterFreeze e) := by
    simp only [State.afterFreeze, ge_iff_le, hlow, decide_false, Bool.false_and, Bool.false_eq_true, if_false]
    exact t.bump_xltKept (.inl (by decide)) _
  unfold State.present
  simp only [hlow, decide_false, Bool.false_and, Bool.false_eq_true, if_false, show (classOf e.code == 4) = false by simp; omega]
  split
  · exact .of_regs rfl
  split
  · split
    · exact hcount
    · exact hcount.trans (hafter _)
  split
  · exact hcount
  split
  · have hopened : (s.countEvent e).XltKept ((s.countEvent e).openRecord e false) := .of_regs rfl
    exact (hcount.trans hopened).trans (State.sendFaultEvent_xltKept _ _)
  · exact hcount

theorem State.report_xltKept (s : State) {src code : Nat} (hsrc : src < 65536) (hcls : classOf code < 3) (info0 info1 : Nat) :
    s.XltKept (s.report src code info0 info1) := by
  have hlife : s.XltKept (s.lifeEvent src code) := .of_regs (by simp)
  exact hlife.trans (State.present_xltKept _ hsrc hcls)

theorem State.ringEvent_xltKept (s : State) (c ev cause cn qn held : Nat) : s.XltKept (s.ringEvent c ev cause cn qn held) := by
  unfold State.ringEvent
  dsimp only
  split
  · next t h =>
    split at h
    · have hregs : t.regs = s.regs := by simp only [State.pushEvent_frame _ _ _ _ h]
      exact .of_regs hregs
    · cases h
  · split
    · exact s.wfFull_xltKept _
    · exact .of_regs rfl

theorem State.checkFull_xltKept (s : State) (cn : Nat) : s.XltKept (s.checkFull cn) := by
  unfold State.checkFull
  dsimp only
  split
  · exact .trans (State.ringEvent_xltKept (s.setCq cn _) _ _ _ _ _ _) (State.report_xltKept _ (by decide) (by decide) _ _)
  · exact .of_regs rfl

theorem State.whenAwake_id_xltKept (s : State) (f : Nat) : s.XltKept (s.whenAwake f id) := by
  unfold State.whenAwake
  split
  · exact .of_regs rfl
  · unfold State.startExit
    dsimp only
    split
    · exact .of_regs rfl
    · exact State.bump_xltKept (s.setAtt _ _) (.inl (by decide)) _

theorem State.commitCqe_xltKept (s : State) (cn : Nat) (c : Completion) : s.XltKept (s.commitCqe cn c).2 := by
  have habort : s.XltKept (if leAt c.raw 14 1 == 1 then s.bump R.RING_ABORT_COUNT else s) := by
    split
    · exact s.bump_xltKept (.inl (by decide)) _
    · exact .of_regs rfl
  unfold State.commitCqe
  dsimp only
  split
  · exact habort.trans (State.whenAwake_id_xltKept (State.setCq _ _ _) _)
  · exact habort.trans (State.checkFull_xltKept (State.setCq _ _ _) _)

theorem State.workDone_xltKept (s : State) (qn serial : Nat) (d : WorkDone) : s.XltKept (s.workDone qn serial d) := by
  unfold State.workDone
  dsimp only
  split
  · exact .of_regs rfl
  · exact .trans (.of_regs (by simp)) (State.commitCqe_xltKept _ _ _)

/-! ### A completion and what lies beside it -/

/-- The same bytes are read where each byte is the same. -/
theorem Memory.readN_congr {m m' : Memory} {k n : Nat} (h : ∀ i < n, m'.read (k + i) = m.read (k + i)) : m'.readN k n = m.readN k n := by
  induction n generalizing k with
  | zero => rfl
  | succ n ih =>
    rw [Memory.readN, Memory.readN, show m'.read k = m.read k from h 0 (by omega),
      ih fun i hi => by rw [Nat.add_assoc, Nat.add_comm 1]; exact h (i + 1) (by omega)]

/-- The entry of an ASK is as it was, where the registers of translation and the memory under the life store are. -/
theorem State.askMem_of_kept (hregs : s.XltKept t) (hmem : s.same t .ram) (ask : Nat) : t.askMem ask = s.askMem ask := by
  have hkey := State.askKey_of_rd (hregs.rd (r := R.XLT_ASK_BASE) (by decide) (by decide)) ask
  have hlow := s.askKey_add_lt ask
  rw [State.askMem, State.askMem, State.mread, State.mread, hkey]
  exact Memory.readN_congr fun i hi => hmem _ (by omega)


/-! ### Fields of an ASK table entry in memory -/

/-- A field of bytes that were read is the number that memory holds there. -/
theorem leAt_readN (m : Memory) (k : Nat) {i j n : Nat} (h : i + j ≤ n) : leAt (m.readN k n) i j = leNat (m.readN (k + i) j) := by
  obtain ⟨r, rfl⟩ := Nat.exists_eq_add_of_le h
  rw [Nat.add_assoc, readN_add, readN_add, leAt, byteSlice, List.drop_left' (length_readN _ _ _),
    List.take_left' (length_readN _ _ _), length_readN]
  simp [zeroBytes]

theorem State.leAt_askMem (s : State) (ask : Nat) {i n : Nat} (h : i + n ≤ 32) : leAt (s.askMem ask) i n = s.mnat (s.askKey ask + i) n :=
  leAt_readN _ _ h

theorem State.mnat_mwrite_same (s : State) (k : Nat) (bs : List Byte) : (s.mwrite k bs).mnat k bs.length = leNat bs :=
  congrArg leNat (Memory.readN_writeN_same _ _ _)

theorem State.mnat_mwrite_out (s : State) {k x n : Nat} {bs : List Byte} (h : x + n ≤ k ∨ k + bs.length ≤ x) :
    (s.mwrite k bs).mnat x n = s.mnat x n :=
  congrArg leNat (Memory.readN_writeN_out _ _ _ _ _ h)

/-! ### The control program moves an ASK (R240) -/

section
variable (s) (ask st quiet : Nat)

/-- The state byte and QUIET_END are written, and the connections' part loses the ASK's pending faults and gains an invalidation. -/
theorem State.askMove_eq : ∃ n, s.askMove ask st quiet =
    { (s.askSetState ask st).mwrite (s.askKey ask + 16) (leBytes 8 quiet) with net := n } ∧
    n.revoking = s.net.revoking ∧ n.revokeQueue = s.net.revokeQueue := by
  unfold State.askMove State.dropPend
  dsimp only
  obtain ⟨is, qs, h⟩ := State.startInval_eq { (s.askSetState ask st).mwrite (s.askKey ask + 16) (leBytes 8 quiet) with
    net := { s.net with pendFaults := s.net.pendFaults.filter (·.ask != ask) } } 1 ask 0 0 none none
  exact ⟨_, h, rfl, rfl⟩

theorem State.askMove_regs : (s.askMove ask st quiet).regs = s.regs := by
  obtain ⟨n, h, -⟩ := s.askMove_eq ask st quiet
  rw [h]; rfl

theorem State.askMove_rings : (s.askMove ask st quiet).rings = s.rings := by
  obtain ⟨n, h, -⟩ := s.askMove_eq ask st quiet
  rw [h]; rfl

theorem State.askMove_revoking : (s.askMove ask st quiet).net.revoking = s.net.revoking := by
  obtain ⟨n, h, hrevoking, -⟩ := s.askMove_eq ask st quiet
  rw [h]; exact hrevoking

theorem State.askMove_revokeQueue : (s.askMove ask st quiet).net.revokeQueue = s.net.revokeQueue := by
  obtain ⟨n, h, -, hqueue⟩ := s.askMove_eq ask st quiet
  rw [h]; exact hqueue

theorem State.askMove_leAt {i n : Nat} (h : i + n ≤ 32) : leAt ((s.askMove ask st quiet).askMem ask) i n =
    ((s.askSetState ask st).mwrite (s.askKey ask + 16) (leBytes 8 quiet)).mnat (s.askKey ask + i) n := by
  have hkey : (s.askMove ask st quiet).askKey ask = s.askKey ask := by
    rw [State.askKey_of_rd]; rw [State.rd, State.askMove_regs]; rfl
  obtain ⟨m, hm, -⟩ := s.askMove_eq ask st quiet
  rw [State.leAt_askMem _ _ h, hkey, hm]; rfl

theorem State.askState_askMove {st : Nat} (hst : st < 8) : askState ((s.askMove ask st quiet).askMem ask) = st := by
  have hbyte : (s.askSetState ask st).mnat (s.askKey ask + 15) 1 =
      leNat [BitVec.ofNat 8 ((leAt (s.askMem ask) 15 1) % 16 + st * 16)] := s.mnat_mwrite_same _ _
  rw [askState, State.askMove_leAt _ _ _ _ (by decide), State.mnat_mwrite_out _ (.inl (by omega)), hbyte]
  simp only [leNat, BitVec.toNat_ofNat, nbits]
  omega

theorem State.askQuietEnd_askMove : askQuietEnd ((s.askMove ask st quiet).askMem ask) = quiet % 2 ^ 64 := by
  have hword := (s.askSetState ask st).mnat_mwrite_same (s.askKey ask + 16) (leBytes 8 quiet)
  rw [length_leBytes] at hword
  rw [askQuietEnd, State.askMove_leAt _ _ _ _ (by decide), hword, leNat_leBytes]
  norm_num

theorem State.askGen_askMove : askGen ((s.askMove ask st quiet).askMem ask) = askGen (s.askMem ask) := by
  rw [askGen, askGen, State.askMove_leAt _ _ _ _ (by decide), State.leAt_askMem _ _ (by decide),
    State.mnat_mwrite_out _ (.inl (by omega)), State.askSetState, State.mnat_mwrite_out _ (.inl (by omega))]

end

/-! ### A revocation starts (R208 to R210) -/

section
variable (s) (ask : Nat) (by_ : Option (Nat × Nat))

theorem State.revokePoint_rd_ft : (s.revokePoint ask by_).rd R.XLT_REVOKE_FT = s.ft := by
  have h : ((s.wr R.XLT_REVOKE_CTRL [] (w64 (2 ^ 31 + ask))).wr R.XLT_REVOKE_FT [] s.ft).rd R.XLT_REVOKE_FT = w64 (s.ft.toNat % 2 ^ 64) :=
    State.rd_wr _ _ _ _
  rw [Nat.mod_eq_of_lt s.ft.isLt, w64_toNat_self] at h
  exact h

theorem State.revokePoint_go {ask : Nat} (hask : ask < 2 ^ 20) : (s.revokePoint ask by_).fb F.XLT_REVOKE_CTRL_GO = true := by
  have h : (s.revokePoint ask by_).rd R.XLT_REVOKE_CTRL = w64 ((w64 (2 ^ 31 + ask)).toNat % 2 ^ 32) :=
    (State.rd_wr_ne _ R.XLT_REVOKE_FT R.XLT_REVOKE_CTRL [] [] _ (by decide)).trans (State.rd_wr _ R.XLT_REVOKE_CTRL _ _)
  rw [w64_toNat_lt (by omega), Nat.mod_eq_of_lt (by omega)] at h
  rw [State.fb, State.fd, show F.XLT_REVOKE_CTRL_GO = ⟨R.XLT_REVOKE_CTRL, 31, 31⟩ from rfl, h, bitsW, w64_toNat_lt (by omega),
    show (2 ^ 31 + ask) / 2 ^ 31 = 1 by omega]
  rfl

end

/-- A key names the generation that the table holds. -/
theorem keyGen_eq_of_askGen {b : List Byte} {key : Nat} (h : askGen b = key / 2 ^ 20) : askGen b = keyGen key := by
  have hlt : askGen b < 2 ^ 12 := Nat.mod_lt _ (by decide)
  rw [keyGen, nbits, ← h, Nat.mod_eq_of_lt hlt]

section
variable {pf key serial : Nat}

/-- A valid key of an ASK that the PF may name, while nothing is revoked. -/
theorem revokeStart_starts (hstate : askState (s.askMem (keyAsk key)) = 1) (hgen : askGen (s.askMem (keyAsk key)) = key / 2 ^ 20)
    (hdev : askDev (s.askMem (keyAsk key)) = false) (hname : s.mayName pf (askFunc (s.askMem (keyAsk key))) = true)
    (hnone : s.net.revoking = none) :
    revokeStart pf key serial s = (none, (s.revokePoint (keyAsk key) (some (pf, serial))).askMove (keyAsk key) 3 0) := by
  simp [revokeStart, hstate, ← keyGen_eq_of_askGen hgen, hdev, hname, State.isRevoking, hnone]

end

theorem xltRevokeCtrl_starts {path : Path} {v : Word} (hmay : s.mayWrite path R.XLT_REVOKE_CTRL.base = true)
    (hnone : s.net.revoking = none) (hgo : bitW v 31 = true) : xltRevokeCtrl path v s = s.revokePoint (bitsW v 19 0) none := by
  simp [xltRevokeCtrl, hmay, hnone, hgo]

/-! ### A revocation ends (R209) -/

/-- The time of the drain stands in XLT_REVOKE_DRAIN_FT and GO is cleared. -/
def State.revokeStamped (s : State) : State := (s.fset F.XLT_REVOKE_CTRL_GO [] false).wr R.XLT_REVOKE_DRAIN_FT [] s.ft

/-- The end of a revocation is counted. -/
def State.revokeTold (s : State) (r : Revocation) : State :=
  if 8000 < s.locSince r.from_ then (s.revokeStamped.bump R.XLT_REVOKE_COUNT).bump R.XLT_REVOKE_SLOW_COUNT
  else s.revokeStamped.bump R.XLT_REVOKE_COUNT

/-- What the end of a revocation leaves before anything follows from it. -/
def State.revokeDrained (s : State) (r : Revocation) : State :=
  { s.revokeTold r with net := { (s.revokeTold r).net with revoking := none } }

section
variable {r : Revocation} (hrevoking : s.net.revoking = some r) (hremains : s.keyedRemains r.ask = false)
  (hinval : s.askInvalidating r.ask = false)
include hrevoking hremains hinval

/-- A drain that is told of: by a command, as far as its ring has room, or by a register. -/
theorem revokeDrain_eq (hroom : ∀ pf serial, r.by_ = some (pf, serial) → s.cqRoom (ctrlCn pf) = true) :
    revokeDrain s = (match r.by_ with
      | some (pf, serial) =>
        ((s.revokeDrained r).askMove r.ask 4 ((s.revokeDrained r).loc.toNat + 2 * (s.revokeDrained r).lifetime)).workDone
          (ctrlQn pf) serial { status := 0 }
      | none => s.revokeDrained r).nextRevoke := by
  unfold revokeDrain
  split
  · next h => rw [hrevoking] at h; cases h
  · next r' h =>
    obtain rfl : r = r' := Option.some.inj (hrevoking.symm.trans h)
    extract_lets room
    have hroom' : room = true := by
      dsimp only [room]
      split
      · next h => exact hroom _ _ h
      · rfl
    rw [if_neg (by simp [hremains, hinval, hroom'])]
    rfl

theorem revokeDrain_of_register (hby : r.by_ = none) : revokeDrain s = (s.revokeDrained r).nextRevoke := by
  rw [revokeDrain_eq hrevoking hremains hinval (fun pf serial h => by rw [hby] at h; cases h), hby]

theorem revokeDrain_of_command {pf serial : Nat} (hby : r.by_ = some (pf, serial)) (hroom : s.cqRoom (ctrlCn pf) = true) :
    revokeDrain s = (((s.revokeDrained r).askMove r.ask 4 ((s.revokeDrained r).loc.toNat + 2 * (s.revokeDrained r).lifetime)).workDone
      (ctrlQn pf) serial { status := 0 }).nextRevoke := by
  rw [revokeDrain_eq hrevoking hremains hinval (fun pf' serial' h => by rw [hby] at h; cases h; exact hroom), hby]

end

section
variable (s) (r : Revocation)

/-- A slow revocation is counted a second time. -/
theorem State.revokeTold_cases : s.revokeTold r = (s.revokeStamped.bump R.XLT_REVOKE_COUNT).bump R.XLT_REVOKE_SLOW_COUNT ∨
    s.revokeTold r = s.revokeStamped.bump R.XLT_REVOKE_COUNT := by
  unfold State.revokeTold
  split
  · exact .inl rfl
  · exact .inr rfl

/-- Of the registers, beside GO and DRAIN_FT, the two counters change. -/
theorem State.revokeDrained_rd {x : RegDesc} (hcount : x.addr [] ≠ R.XLT_REVOKE_COUNT.addr [])
    (hslow : x.addr [] ≠ R.XLT_REVOKE_SLOW_COUNT.addr []) : (s.revokeDrained r).rd x = s.revokeStamped.rd x := by
  have hbump : (s.revokeStamped.bump R.XLT_REVOKE_COUNT).rd x = s.revokeStamped.rd x := State.rd_wr_ne _ _ _ _ _ _ hcount
  change (s.revokeTold r).rd x = _
  obtain h | h := s.revokeTold_cases r <;> rw [h]
  · exact (State.rd_wr_ne _ _ _ _ _ _ hslow).trans hbump
  · exact hbump

theorem State.revokeDrained_rd_drainFt : (s.revokeDrained r).rd R.XLT_REVOKE_DRAIN_FT = s.ft := by
  rw [State.revokeDrained_rd _ _ (by decide) (by decide), State.revokeStamped, State.rd_wr,
    show R.XLT_REVOKE_DRAIN_FT.width = 64 from rfl, Nat.mod_eq_of_lt s.ft.isLt, w64_toNat_self]

theorem State.revokeDrained_go : (s.revokeDrained r).fb F.XLT_REVOKE_CTRL_GO = false := by
  have hgo := s.fb_fset_false F.XLT_REVOKE_CTRL_GO [] (by decide) (by decide) (by decide)
  rw [State.fb, State.fd] at hgo ⊢
  rw [State.revokeDrained_rd _ _ (by decide) (by decide), State.revokeStamped, State.rd_wr_ne _ _ _ _ _ _ (by decide)]
  exact hgo

/-- A register that a drain does not write. -/
theorem State.revokeDrained_rd_other {x : RegDesc} (hcount : x.addr [] ≠ R.XLT_REVOKE_COUNT.addr [])
    (hslow : x.addr [] ≠ R.XLT_REVOKE_SLOW_COUNT.addr []) (hctrl : x.addr [] ≠ R.XLT_REVOKE_CTRL.addr [])
    (hft : x.addr [] ≠ R.XLT_REVOKE_DRAIN_FT.addr []) : (s.revokeDrained r).rd x = s.rd x := by
  rw [State.revokeDrained_rd _ _ hcount hslow, State.revokeStamped, State.rd_wr_ne _ _ _ _ _ _ hft]
  exact State.rd_wr_ne _ _ _ _ _ _ hctrl

theorem State.revokeDrained_lifetime : (s.revokeDrained r).lifetime = s.lifetime :=
  congrArg BitVec.toNat (s.revokeDrained_rd_other r (by decide) (by decide) (by decide) (by decide))

theorem State.revokeTold_net : (s.revokeTold r).net = s.net := by
  obtain h | h := s.revokeTold_cases r <;> simp -implicitDefEqProofs [h, State.revokeStamped]

theorem State.revokeTold_inv : (s.revokeTold r).inv = s.inv := by
  obtain h | h := s.revokeTold_cases r <;> simp -implicitDefEqProofs [h, State.revokeStamped]

theorem State.revokeTold_rings : (s.revokeTold r).rings = s.rings := by
  obtain h | h := s.revokeTold_cases r <;> simp -implicitDefEqProofs [h, State.revokeStamped]

theorem State.revokeDrained_loc : (s.revokeDrained r).loc = s.loc := congrArg Invar.loc (s.revokeTold_inv r)

theorem State.revokeDrained_rings : (s.revokeDrained r).rings = s.rings := s.revokeTold_rings r

theorem State.revokeDrained_revoking : (s.revokeDrained r).net.revoking = none := rfl

theorem State.revokeDrained_revokeQueue : (s.revokeDrained r).net.revokeQueue = s.net.revokeQueue := by
  rw [State.revokeDrained, State.revokeTold_net]

end

/-! When no command waits, the end of a revocation starts no other. -/

section
variable (h : s.net.revokeQueue = [])
include h

theorem State.nextRevoke_of_nil : s.nextRevoke = { s with net := { s.net with revokeQueue := [] } } := by
  rw [State.nextRevoke, h, State.revokeNext]

theorem State.nextRevoke_revoking : s.nextRevoke.net.revoking = s.net.revoking := by rw [State.nextRevoke_of_nil h]

theorem State.nextRevoke_rd (x : RegDesc) : s.nextRevoke.rd x = s.rd x := by rw [State.nextRevoke_of_nil h]; rfl

theorem State.nextRevoke_askMem (ask : Nat) : s.nextRevoke.askMem ask = s.askMem ask := by rw [State.nextRevoke_of_nil h]; rfl

theorem State.nextRevoke_ended {qn st : Nat} {e : OutEntry} (hend : t.ended s qn e st) : t.ended s.nextRevoke qn e st := by
  rw [State.nextRevoke_of_nil h]; exact hend

end

/-! ### What a completion changes of the connections' part -/

/-- The pending list of a half without a work entry (R237). -/
def Half.unlisted (qn serial : Nat) (h : Half) : Half := { h with pendingOps := h.pendingOps.filter (· != (qn, serial)) }

theorem State.unlist_net (s : State) (qn serial : Nat) : (s.unlist qn serial).net = s.net ∨
    (s.unlist qn serial).net = { s.net with halves := SMap.mapVals Half.init (fun _ => Half.unlisted qn serial) s.net.halves } := by
  unfold State.unlist
  dsimp only
  split
  · exact .inr rfl
  · exact .inl rfl

/-- The end of a RUN changes collectives and takes the entry off the pending lists of the halves. -/
theorem State.runOver_net (s : State) (qn serial st : Nat) : ∃ cs, (s.runOver qn serial st).net = { s.net with colls := cs } ∨
    (s.runOver qn serial st).net =
      { s.net with colls := cs, halves := SMap.mapVals Half.init (fun _ => Half.unlisted qn serial) s.net.halves } := by
  unfold State.runOver
  extract_lets is
  split
  · next id c hc =>
    dsimp only
    rw [State.foldl_net _ _ fun t x => by split <;> [(split <;> simp); rfl]]
    exact ⟨_, State.unlist_net _ qn serial⟩
  · exact ⟨_, .inl rfl⟩

theorem State.workDone_net (s : State) (qn serial : Nat) (d : WorkDone) : ∃ cs, (s.workDone qn serial d).net = { s.net with colls := cs } ∨
    (s.workDone qn serial d).net =
      { s.net with colls := cs, halves := SMap.mapVals Half.init (fun _ => Half.unlisted qn serial) s.net.halves } := by
  unfold State.workDone
  dsimp only
  split
  · exact ⟨_, .inl rfl⟩
  · simp only [State.commitCqe_frame]
    exact State.runOver_net _ qn serial d.status

theorem State.workDone_revoking (s : State) (qn serial : Nat) (d : WorkDone) : (s.workDone qn serial d).net.revoking = s.net.revoking := by
  obtain ⟨cs, h | h⟩ := s.workDone_net qn serial d <;> rw [h]

theorem State.workDone_revokeQueue (s : State) (qn serial : Nat) (d : WorkDone) :
    (s.workDone qn serial d).net.revokeQueue = s.net.revokeQueue := by
  obtain ⟨cs, h | h⟩ := s.workDone_net qn serial d <;> rw [h]

theorem State.workDone_endpoint (s : State) (qn serial : Nat) (d : WorkDone) (ep : Nat) :
    (s.workDone qn serial d).endpoint ep = s.endpoint ep := by
  unfold State.endpoint
  obtain ⟨cs, h | h⟩ := s.workDone_net qn serial d <;> rw [h]

theorem State.workDone_askMem (s : State) (qn serial : Nat) (d : WorkDone) (ask : Nat) :
    (s.workDone qn serial d).askMem ask = s.askMem ask :=
  State.askMem_of_kept (s.workDone_xltKept qn serial d)
    (State.workDone_spares (asp := some .ram) (by simp [Aspect.off]) (State.Spares.refl _) qn serial d) ask

/-! ### The commands (R206, R208, R209) -/

theorem askRevoke_revokes {pf idx : Nat} {e : OutEntry} (h : s.controls pf idx 0x53 e)
    (hstate : askState (s.askMem (keyAsk (leAt e.bytes 8 4))) = 1)
    (hgen : askGen (s.askMem (keyAsk (leAt e.bytes 8 4))) = leAt e.bytes 8 4 / 2 ^ 20)
    (hdev : askDev (s.askMem (keyAsk (leAt e.bytes 8 4))) = false)
    (hname : s.mayName pf (askFunc (s.askMem (keyAsk (leAt e.bytes 8 4)))) = true) (hnone : s.net.revoking = none) :
    s.ctrl pf idx 0x53 (askRevokeBody pf) = ((s.markStarted (ctrlQn pf) e.serial).revokePoint (keyAsk (leAt e.bytes 8 4))
      (some (pf, e.serial))).askMove (keyAsk (leAt e.bytes 8 4)) 3 0 :=
  h.ctrl_eq_later (revokeStart_starts (s := s.markStarted (ctrlQn pf) e.serial) hstate hgen hdev hname hnone)

/-- A register is as it was where all registers are. -/
theorem State.rd_of_regs (h : t.regs = s.regs) (x : RegDesc) : t.rd x = s.rd x := by rw [State.rd, h]; rfl

theorem State.fb_of_regs (h : t.regs = s.regs) (f : Fld) : t.fb f = s.fb f := by
  rw [State.fb, State.fb, State.fd, State.fd, State.rd_of_regs h]

theorem keyAsk_lt (key : Nat) : keyAsk key < 2 ^ 20 := Nat.mod_lt _ (by decide)

/-- What the end of an ASK_REVOKE leaves: its ASK is quiet from now on, and the command has ended. -/
theorem revokeDrain_ends {r : Revocation} {pf n : Nat} {e : OutEntry} (hrevoking : s.net.revoking = some r) (hby : r.by_ = some (pf, n))
    (hremains : s.keyedRemains r.ask = false) (hinval : s.askInvalidating r.ask = false) (hqueue : s.net.revokeQueue = [])
    (hroom : s.cqRoom (ctrlCn pf) = true) (hentry : (s.queue (ctrlQn pf)).entry n = some e) :
    (revokeDrain s).net.revoking = none ∧ (revokeDrain s).rd R.XLT_REVOKE_DRAIN_FT = s.ft ∧
      askState ((revokeDrain s).askMem r.ask) = 4 ∧
      askQuietEnd ((revokeDrain s).askMem r.ask) = (s.loc.toNat + 2 * s.lifetime) % 2 ^ 64 ∧ s.ended (revokeDrain s) (ctrlQn pf) e 0 := by
  rw [revokeDrain_of_command hrevoking hremains hinval hby hroom, State.revokeDrained_loc, State.revokeDrained_lifetime]
  generalize hquiet : s.loc.toNat + 2 * s.lifetime = quiet
  have hmoved (qn : Nat) : ((s.revokeDrained r).askMove r.ask 4 quiet).queue qn = s.queue qn :=
    State.queue_of_rings ((State.askMove_rings _ _ _ _).trans (s.revokeDrained_rings r)) qn
  have hend := State.workDone_ended (s := (s.revokeDrained r).askMove r.ask 4 quiet) ((hmoved _).symm ▸ hentry) { status := 0 }
  have hnil : (((s.revokeDrained r).askMove r.ask 4 quiet).workDone (ctrlQn pf) n { status := 0 }).net.revokeQueue = [] := by
    rw [State.workDone_revokeQueue, State.askMove_revokeQueue, State.revokeDrained_revokeQueue, hqueue]
  refine ⟨?_, ?_, ?_, ?_, ?_⟩
  · rw [State.nextRevoke_revoking hnil, State.workDone_revoking, State.askMove_revoking, State.revokeDrained_revoking]
  · rw [State.nextRevoke_rd hnil, (State.workDone_xltKept _ _ _ _).rd (by decide) (by decide),
      State.rd_of_regs (State.askMove_regs _ _ _ _), State.revokeDrained_rd_drainFt]
  · rw [State.nextRevoke_askMem hnil, State.workDone_askMem, State.askState_askMove _ _ _ (by decide)]
  · rw [State.nextRevoke_askMem hnil, State.workDone_askMem, State.askQuietEnd_askMove]
  · exact State.nextRevoke_ended hnil (hend.of_before (by rw [hmoved]) (by rw [hmoved]))

/-- Settles O31: a revocation that starts leaves its time, its GO and the state of the ASK; what its end leaves, the completion of the
ASK_REVOKE and the next in turn do not touch, since they change no register of translation and no byte of the ASK table. -/
theorem keyCommands : Obligations.KeyCommands := by
  unfold Obligations.KeyCommands
  refine ⟨?_, ?_, ?_, ?_, ?_⟩
  · rintro s pf idx _ _ e h rfl rfl hstate hgen hdev hname hnone
    refine ⟨_, congrArg Host.Outcome.next (askRevoke_revokes h hstate hgen hdev hname hnone), ?_, ?_, ?_, ?_, ?_⟩
    · exact State.askMove_revoking _ _ _ _
    · exact State.askState_askMove _ _ _ (by decide)
    · rw [State.rd_of_regs (State.askMove_regs _ _ _ _)]
      exact State.revokePoint_rd_ft _ _ _
    · rw [State.fb_of_regs (State.askMove_regs _ _ _ _)]
      exact State.revokePoint_go _ _ (keyAsk_lt _)
    · obtain ⟨-, -, -, -, -, -, hentry⟩ := h
      rw [State.queue_of_rings (State.askMove_rings _ _ _ _)]
      exact State.markStarted_entry hentry
  · intro s path v hmay hnone hgo
    refine ⟨_, congrArg Host.Outcome.next (xltRevokeCtrl_starts hmay hnone hgo), rfl, State.revokePoint_rd_ft _ _ _,
      State.revokePoint_go _ _ (Nat.mod_lt _ (by decide)), rfl⟩
  · intro s r hsafe hrevoking hby hremains hinval hqueue
    have hempty : (s.revokeDrained r).net.revokeQueue = [] := (s.revokeDrained_revokeQueue r).trans hqueue
    refine ⟨_, congrArg Host.Outcome.next ((State.live_of_not_safe hsafe _).trans
      ((revokeDrain_of_register hrevoking hremains hinval hby).trans (State.nextRevoke_of_nil hempty))), rfl, ?_, ?_⟩
    · exact s.revokeDrained_rd_drainFt r
    · exact s.revokeDrained_go r
  · intro s r pf n e hsafe hrevoking hby hremains hinval hqueue hroom hentry
    exact ⟨_, congrArg Host.Outcome.next (State.live_of_not_safe hsafe _),
      revokeDrain_ends hrevoking hby hremains hinval hqueue hroom hentry⟩
  · intro s ask hsafe hask hstate hquiet
    refine ⟨_, congrArg Host.Outcome.next ((State.live_of_not_safe hsafe _).trans (if_pos (by simpa [hstate, hquiet] using hask))),
      State.askState_askMove _ _ _ (by decide), State.askGen_askMove _ _ _ _⟩

end Sys2Proof.Machine
end

section
open Sys2Proof Sys2Proof.Machine
namespace Sys2Proof.Machine

variable {s t u : State}

/-! ### A half after a command has completed (R200, R350) -/

/-- A half shows what is stored, without held packets while the adapter is halted. -/
theorem State.half_cases {x : Half} {r : Nat} (h : s.net.halves.get Half.init r = x) :
    s.half r = x ∨ s.half r = { x with rx := x.rx.shed } := by
  unfold State.half
  rw [h]
  dsimp only
  split
  · exact .inr rfl
  · exact .inl rfl

theorem Half.unlisted_of_nil {x : Half} (h : x.pendingOps = []) (qn serial : Nat) : x.unlisted qn serial = x := by
  rw [Half.unlisted, h, List.filter_nil, ← h]

theorem State.setHalf_stored (s : State) (r : Nat) (x : Half) : (s.setHalf r x).net.halves.get Half.init r = x := SMap.get_set_same _ _ _ _

/-- A half in use with nothing on its pending list stays as it is when a command completes. -/
theorem State.workDone_half {x : Half} {r : Nat} (h : s.net.halves.get Half.init r = x) (hused : x.state ≠ .unused)
    (hops : x.pendingOps = []) (qn serial : Nat) (d : WorkDone) :
    (s.workDone qn serial d).half r = x ∨ (s.workDone qn serial d).half r = { x with rx := x.rx.shed } := by
  have hne : x ≠ Half.init := fun hx => hused (congrArg Half.state hx)
  refine State.half_cases ?_
  obtain ⟨cs, hnet | hnet⟩ := s.workDone_net qn serial d
  · rw [hnet]; exact h
  · rw [hnet]
    have hsame := Half.unlisted_of_nil hops qn serial
    exact (SMap.get_mapVals_of_ne (h ▸ hne) (by rw [h, hsame]; exact hne)).trans (by rw [h, hsame])

/-- A command that succeeds and leaves ring service alone. -/
theorem State.controls.succeeds {pf idx op : Nat} {e : OutEntry} {body : List Byte → Nat → State → CtrlEnd × State}
    (h : s.controls pf idx op e) (hbody : body e.bytes e.serial (s.markStarted (ctrlQn pf) e.serial) = (some { status := 0 }, t))
    (hrings : t.rings = (s.markStarted (ctrlQn pf) e.serial).rings) :
    s.ctrl pf idx op body = t.workDone (ctrlQn pf) e.serial { status := 0 } ∧
      s.ended (t.workDone (ctrlQn pf) e.serial { status := 0 }) (ctrlQn pf) e 0 :=
  ⟨h.ctrl_eq hbody, h.ended (State.queue_of_rings hrings _) { status := 0 }⟩

/-! ### The commands on endpoints (R197, R201) -/

/-- A local endpoint replaced. -/
def State.setEndpoint (s : State) (ep : Nat) (x : Option Endpoint) : State :=
  { s with net := { s.net with endpoints := s.net.endpoints.set none ep x } }

@[simp] theorem State.endpoint_setEndpoint (s : State) (ep : Nat) (x : Option Endpoint) : (s.setEndpoint ep x).endpoint ep = x :=
  SMap.get_set_same _ _ _ _

section
variable {pf serial : Nat} {b : List Byte}

theorem epCreateBody_creates (hname : s.mayName pf (leAt b 12 2) = true) (hnone : s.endpoint (leAt b 8 3) = none)
    (hroom : s.net.endpoints.length < 65536) : epCreateBody pf b serial s =
      (some { status := 0 }, s.setEndpoint (leAt b 8 3) (some ⟨leAt b 12 2, leAt b 14 2⟩)) := by
  simp [epCreateBody, endsWith, hname, hnone, Nat.not_le.mpr hroom, State.setEndpoint]

theorem epDestroyBody_destroys {x : Endpoint} (hep : s.endpoint (leAt b 8 3) = some x) (hname : s.mayName pf x.func = true)
    (hfree : ∀ h ∈ s.net.halves, h.2.state = .unused ∨ h.2.localEp ≠ leAt b 8 3) :
    epDestroyBody pf b serial s = (some { status := 0 }, s.setEndpoint (leAt b 8 3) none) := by
  have hany : (s.net.halves.any fun h => h.2.state != .unused && h.2.localEp == leAt b 8 3) = false := by
    rw [List.any_eq_false]
    intro h hh
    obtain hunused | hother := hfree h hh
    · simp [hunused]
    · simp [hother]
  simp [epDestroyBody, endsWith, hep, hname, hany, State.setEndpoint]

/-! ### The commands on connections (R198 to R203) -/

theorem connCreateBody_creates {x : Endpoint} (hcluster : leAt b 8 4 / 16384 < s.clusterCount)
    (hep : s.endpoint (leAt b 12 3) = some x) (hfunc : x.func = leAt b 42 2) (hiso : x.iso = leAt b 20 2) (htc : leAt b 22 1 ≠ 7)
    (hlen : leAt b 44 4 ≤ maxMessage) (hwin : 1 ≤ leAt b 48 2) (hwin' : leAt b 48 2 ≤ 16384) (hdelay : leAt b 52 2 ≠ 0)
    (hcq : (s.cq (leAt b 40 2)).state ≠ .unused) (hcqf : (s.cq (leAt b 40 2)).func = x.func) (hname : s.mayName pf x.func = true)
    (hunused : (s.half (leAt b 8 4)).state = .unused)
    (hfind : s.findHalf (leAt b 12 3) (leAt b 16 3) (leAt b 19 1 % 16) = none) :
    ∃ y, connCreateBody pf b serial s = (some { status := 0 }, s.setHalf (leAt b 8 4) y) ∧ y.state = .established ∧
      y.localEp = leAt b 12 3 ∧ y.remoteEp = leAt b 16 3 ∧ y.chan = leAt b 19 1 % 16 ∧ y.rlx = nbit (leAt b 19 1) 4 ∧
      y.txSeq = BitVec.ofNat 32 (leAt b 32 4) ∧ y.rx.e = BitVec.ofNat 32 (leAt b 36 4) ∧ y.window = leAt b 48 2 ∧ y.tx = [] ∧
      y.pendingOps = [] := by
  have hwin0 : leAt b 48 2 ≠ 0 := Nat.one_le_iff_ne_zero.mp hwin
  unfold connCreateBody
  extract_lets r lep rep ch iso tc steer cn f win epOk cq tx rx
  have hepOk : epOk = true := by simp [epOk, lep, hep, f, iso, hfunc, hiso]
  have hargs : (decide (s.clusterCount ≤ r / 16384) || !epOk || tc == 7 || decide (maxMessage < leAt b 44 4) || win == 0 ||
      decide (16384 < win) || leAt b 52 2 == 0 || cq.state == .unused || cq.func != f) = false := by
    simp [hepOk, r, tc, win, cq, cn, f, Nat.not_le.mpr hcluster, htc, Nat.not_lt.mpr hlen, hwin0, Nat.not_lt.mpr hwin', hdelay, hcq,
      hcqf, hfunc]
  rw [if_neg (by rw [hargs]; decide), if_neg (by simp [f, ← hfunc, hname]),
    if_neg (by simp [r, hunused, lep, rep, ch, hfind])]
  exact ⟨_, rfl, rfl, rfl, rfl, rfl, rfl, rfl, rfl, rfl, rfl, rfl⟩

theorem connDestroyBody_destroys (hstate : (s.half (leAt b 8 4)).state ∈ [CState.established, .error])
    (hname : s.mayName pf (s.half (leAt b 8 4)).func = true)
    (hqueues : ∀ qn ∈ s.queuesOfConn (leAt b 8 4), (s.queue qn).state = .shutdown) :
    connDestroyBody pf b serial s = (some { status := 0 }, s.quietHalf (leAt b 8 4)) := by
  have hany : ((s.queuesOfConn (leAt b 8 4)).any fun qn => (s.queue qn).state != .shutdown) = false := by
    rw [List.any_eq_false]
    intro qn hqn
    simp [hqueues qn hqn]
  simp only [List.mem_cons, List.not_mem_nil, or_false] at hstate
  obtain h | h := hstate <;> simp [connDestroyBody, endsWith, h, hname, hany]

end

/-! ### A half becomes quiet (R202) -/

theorem Stream.shed_init : Stream.init.shed = Stream.init := by decide

/-- The longest hold is the only thing noted. -/
theorem State.foldl_noteHeld_rings (s : State) (l : List Held) : (l.foldl State.noteHeld s).rings = s.rings :=
  State.foldl_rings _ _ (fun t x => by simp [State.noteHeld]) s

theorem State.quietHalf_rings (s : State) (r : Nat) : (s.quietHalf r).rings = s.rings := s.foldl_noteHeld_rings _

/-- What is stored for a half that was destroyed. -/
theorem State.quietHalf_stored (s : State) (r : Nat) : (s.quietHalf r).net.halves.get Half.init r = { s.half r with
    state := .quiet, quietEnd := s.locIn (2 * s.lifetime), tx := [], pendingOps := [], acks := [], rx := Stream.init } := by
  simp [State.quietHalf, State.setHalf]

theorem State.markStarted_queue_state (s : State) (qn serial n : Nat) : ((s.markStarted qn serial).queue n).state = (s.queue n).state := by
  unfold State.markStarted
  by_cases hn : n = qn
  · subst hn; rw [State.queue_setQueue]
  · rw [State.queue_setQueue_ne _ _ _ _ hn]

/-- An entry that starts binds no queue to a connection. -/
theorem State.markStarted_queuesOfConn {qn serial r n : Nat} (h : n ∈ (s.markStarted qn serial).queuesOfConn r) :
    n ∈ s.queuesOfConn r := by
  unfold State.queuesOfConn SMap.keysWhere at h ⊢
  simp only [List.mem_map, List.mem_filter] at h ⊢
  obtain ⟨q, ⟨hmem, hbound⟩, rfl⟩ := h
  obtain rfl | hmem := SMap.mem_set (m := s.rings.queues) hmem
  · have hne : s.queue qn ≠ Queue.init := fun hd => by simp [hd, Queue.init] at hbound
    exact ⟨(qn, s.queue qn), ⟨SMap.mem_of_get_ne hne, hbound⟩, rfl⟩
  · exact ⟨q, ⟨hmem, hbound⟩, rfl⟩

/-! ### The obligation -/

/-- Settles O30: each command changes an endpoint or a half, which its completion leaves as it is, and nothing of its own ring. -/
theorem connectionCommands : Obligations.ConnectionCommands := by
  unfold Obligations.ConnectionCommands
  refine ⟨?_, ?_, ?_, ?_, ?_, ?_⟩
  · rintro s pf idx _ _ e h rfl rfl hname hnone hroom
    obtain ⟨hstep, hended⟩ := h.succeeds (epCreateBody_creates (s := s.markStarted (ctrlQn pf) e.serial) hname hnone hroom) rfl
    exact ⟨_, congrArg Host.Outcome.next hstep, by rw [State.workDone_endpoint, State.endpoint_setEndpoint], hended⟩
  · rintro s pf idx _ e x h rfl hep hname hfree
    obtain ⟨hstep, hended⟩ := h.succeeds (epDestroyBody_destroys (s := s.markStarted (ctrlQn pf) e.serial) hep hname hfree) rfl
    exact ⟨_, congrArg Host.Outcome.next hstep, by rw [State.workDone_endpoint, State.endpoint_setEndpoint], hended⟩
  · rintro s pf idx _ _ _ _ _ e _ x h rfl rfl rfl rfl rfl rfl hcluster hep hfunc hiso htc hlen hwin hwin' hdelay hcq hcqf hname hunused hfind
    obtain ⟨y, hbody, hstate, hlep, hrep, hchan, hrlx, htx, hrx, hwindow, hlist, hops⟩ :=
      connCreateBody_creates (s := s.markStarted (ctrlQn pf) e.serial) (serial := e.serial) hcluster hep hfunc hiso htc hlen hwin hwin'
        hdelay hcq hcqf hname hunused hfind
    obtain ⟨hstep, hended⟩ := h.succeeds hbody rfl
    refine ⟨_, congrArg Host.Outcome.next hstep, hended, ?_⟩
    have hused : y.state ≠ .unused := by rw [hstate]; decide
    obtain hhalf | hhalf := State.workDone_half (State.setHalf_stored (s.markStarted (ctrlQn pf) e.serial) (leAt e.bytes 8 4) y) hused hops
      (ctrlQn pf) e.serial { status := 0 } <;> rw [hhalf] <;>
      exact ⟨hstate, hlep, hrep, hchan, hrlx, htx, hrx, hwindow, hlist⟩
  · rintro s pf idx _ e h rfl hstate hname hqueues
    have hqueues' (qn : Nat) (hqn : qn ∈ (s.markStarted (ctrlQn pf) e.serial).queuesOfConn (leAt e.bytes 8 4)) :
        ((s.markStarted (ctrlQn pf) e.serial).queue qn).state = .shutdown :=
      (s.markStarted_queue_state _ _ _).trans (hqueues qn (State.markStarted_queuesOfConn hqn))
    obtain ⟨hstep, hended⟩ := h.succeeds (connDestroyBody_destroys (s := s.markStarted (ctrlQn pf) e.serial) hstate hname hqueues')
      (State.quietHalf_rings _ _)
    refine ⟨_, congrArg Host.Outcome.next hstep, hended, ?_⟩
    obtain hhalf | hhalf := State.workDone_half ((s.markStarted (ctrlQn pf) e.serial).quietHalf_stored (leAt e.bytes 8 4)) (by simp) rfl
      (ctrlQn pf) e.serial { status := 0 } <;> rw [hhalf]
    · exact ⟨rfl, rfl, rfl⟩
    · exact ⟨rfl, rfl, Stream.shed_init⟩
  · intro s r hsafe hquiet hreached
    exact congrArg Host.Outcome.next ((State.live_of_not_safe hsafe _).trans (by simp [connQuietEnd, hquiet, hreached]))
  · intro s r h
    refine congrArg Host.Outcome.next ?_
    obtain h | h | h := h <;> simp [State.live, connQuietEnd, h]

end Sys2Proof.Machine
end
